-- ==== Sys2Proof/Word.lean ====
section
/-! DEFINITION. The word types of the IB960: registers are 32 bits wide and little-endian (00_scope, "Registers
and fields"), the smallest addressable unit is the byte, and time-stamps and addresses are 64 bits (R28, R53). -/

namespace Sys2Proof

/-- A byte. -/
abbrev Byte := BitVec 8
/-- A register word (00_scope: registers are 32 bits wide). -/
abbrev Word := BitVec 32
/-- A 64-bit value: a time-stamp or an address (R28, R53, R404). -/
abbrev DWord := BitVec 64

end Sys2Proof
end

