-- ==== Sys2Proof/Syntax.lean ====
section
/-! DEFINITION. The commands of the IB960 block: one constructor of `Instr` for each row of the operation table.
The table gives no operands; the operands are the model's (DESIGN CHOICE, log entry 1). A host write names the
function `f` that writes and the word `v` written; an outside event carries what the outside decided. -/

namespace Sys2Proof

/-- A stitch-headed data unit, field by field as R28 lays the 32 header bytes out, and its payload. -/
structure DUnit where
  stamp   : DWord
  item    : BitVec 48
  fc      : BitVec 16
  stream  : BitVec 12
  cls     : BitVec 2
  resv    : BitVec 2
  ctx     : BitVec 8
  fmt     : BitVec 8
  len     : BitVec 32
  flags   : BitVec 16
  source  : BitVec 10
  hops    : BitVec 6
  crc     : BitVec 32
  payload : List Byte
  deriving DecidableEq, Repr

/-- What the single-error-correcting, double-error-detecting code found in a word read (R20, R151, R616). -/
inductive EccError where
  | none | corr | uncorr
  deriving DecidableEq, Repr

/-- What a command or part that reaches its commit point has met: the part, an internal parity error of the JPG or AUG block
(R242, R243), and the words of the commons (offset ÷ 8) in which the code found an error when the command read them (R20). -/
structure PartEnd where
  part   : Fin 32 := 0
  parity : Bool := false
  eccs   : List (BitVec 45 × EccError) := []
  deriving DecidableEq, Repr

/-- A word an engine reads from its store, and what the code found in it (R151). -/
structure StoreRead where
  word : BitVec 19 := 0
  ecc  : EccError := .none
  deriving DecidableEq, Repr

/-- What physical faults change in the quantities one check of the array compares (R137, R757), in least-significant units of
the group partial sum, for BF16 and FP16 in units of 2⁻¹⁴⁹. Bands are those of R129, in shape 2 the two quadrant rows. -/
structure CheckAlt where
  /-- Rescale group, band, physical column, and the change of that column's output. -/
  sums  : List (Nat × Fin 4 × Fin 130 × Int) := []
  /-- Rescale group, quadrant (0 in the other shapes), and the change of the checksum column's output, row sums included. -/
  check : List (Nat × Fin 4 × Int) := []
  /-- BF16, FP16: the largest magnitude among the partial sums that enter the comparison (R138). -/
  big   : Nat := 0
  deriving DecidableEq, Repr

/-- An operation of the vector unit (R148). -/
inductive VecOp where
  | fma | fadd | fmul | fmin | fmax | flt | feq
  | iadd | isub | ishl | ishr | isar | iand | ior | ixor | ilt | ieq | select
  | exp2 | log2 | recip | rsqrt
  | sumLanes | maxLanes | argmaxLanes
  /-- Conversion from an array format into FP32, and from FP32 into one (R200). -/
  | fromFmt (fmt : BitVec 8)
  | intoFmt (fmt : BitVec 8)
  /-- Conversion between INT32 and FP32. -/
  | intToF | fToInt
  deriving DecidableEq, Repr

/-- A vector instruction: the operation, how many of the 256 lanes take part, and the engine-store addresses of its operand
vectors and its result. -/
structure VecInstr where
  op    : VecOp
  lanes : Fin 257
  a     : BitVec 22 := 0
  b     : BitVec 22 := 0
  c     : BitVec 22 := 0
  dst   : BitVec 22 := 0
  deriving DecidableEq, Repr

/-- A fabric unit that retains state or spends array time: a physical engine or a few-channel engine (R162, R611). -/
inductive ArrayUnit where
  | eng (p : Fin 36)
  | fce (s : Fin 4)
  deriving DecidableEq, Repr

/-- A decision record (R354). -/
structure DecisionRecord where
  dest      : BitVec 32
  outcome   : BitVec 8
  reason    : BitVec 8
  info      : BitVec 8
  profile   : BitVec 8
  conf      : BitVec 32
  tDue      : DWord
  tCommit   : DWord
  breakTsc  : DWord
  lostDev   : BitVec 8
  chosenDev : BitVec 8
  candMask  : BitVec 8
  text      : List Byte
  deriving DecidableEq, Repr

/-- What a camera delivers (R94 to R97). -/
inductive CameraEvent where
  /-- Frame start, with the frame number of the packet. -/
  | frameStart (num : BitVec 16)
  /-- Frame end. -/
  | frameEnd
  /-- A line: pixel format (the CSI data type; for CoaXPress 0 mono or Bayer, 1 RGB8 or BGR8), bits per component,
  components in the order received, what the header code found, and whether the payload CRC held. `triggered`: it was
  started by a trigger packet of this device. -/
  | line (dt : BitVec 6) (depth : BitVec 5) (px : List (BitVec 16)) (header : EccError) (crcOk triggered : Bool)
  deriving DecidableEq, Repr

/-- Outcome of the array diagnostic (R140, R163). -/
inductive DiagResult where
  | pass
  | row (r : BitVec 8)
  | column (c : BitVec 8)
  | cell (r c : BitVec 8)
  | unlocated
  deriving DecidableEq, Repr

/-- What one SSI channel met in a burst (R368 to R371): the changes of its data line at the ball, each with its time in
ns after the burst's first falling clock edge, in order (the line is high before the first); `rest` is the time from
which the line stays high. -/
structure SsiFrame where
  line      : List (BitVec 32 × Bool)
  rest      : BitVec 32
  startBad  : Bool
  lineFault : Bool
  parityBit : Bool
  deriving DecidableEq, Repr

/-- A frame received on a TSN port (R376). -/
structure TsnFrame where
  dst     : BitVec 48
  src     : BitVec 48
  vid     : BitVec 12
  pcp     : BitVec 3
  rtag    : Option (BitVec 16)
  etype   : BitVec 16
  stamp   : DWord
  payload : List Byte
  deriving DecidableEq, Repr

/-- What the island's weighing firmware found over one weighing window (R541): gross weight in multiples of e before
zero-setting, stability, overload, underload and zero centre, and the window's length in µs. -/
structure Weighing where
  gross      : Int
  stable     : Bool
  overload   : Bool
  underload  : Bool
  zeroCentre : Bool
  winUs      : Word
  deriving DecidableEq, Repr
/-- What a device reports to the time master (R608): need, floor and cap in watts, urgency. -/
structure PowerReport where
  dev     : BitVec 3
  need    : BitVec 9
  floor   : BitVec 9
  urgency : BitVec 8
  capW    : BitVec 9
  deriving DecidableEq, Repr

/-- What discovery tells of another device of the group (R632, R652): its fused identifier, the number it requests
(0xF automatic) and its TSC. -/
structure PeerInfo where
  id     : BitVec 64
  devReq : BitVec 4
  tsc    : DWord
  deriving DecidableEq, Repr

/-- A flit as a port receives it (R630): sequence number, uncorrectable codeword, codewords corrected, the partner's
acknowledgement (the next sequence number it expects) and its request for replay. -/
structure Flit where
  seq       : BitVec 16
  bad       : Bool
  corrected : BitVec 8
  ack       : BitVec 16
  nak       : Bool
  deriving DecidableEq, Repr

/-- A path to a device found by discovery (R636): first port and hops. -/
structure RoutePath where
  dev  : BitVec 3
  port : BitVec 2
  hops : BitVec 4
  deriving DecidableEq, Repr

/-- An access another device asks for (R640, R642). -/
inductive RemoteAccess where
  | write (addr : DWord) (data : List Byte)
  | read (addr : DWord) (n : Nat)
  /-- Add to a 64-bit counter (PUT, SIGNAL). -/
  | add (addr : DWord) (inc : DWord)
  deriving DecidableEq, Repr

/-- A repair target of the DARN block (R659). -/
structure DarnTarget where
  kind : BitVec 4
  inst : BitVec 8
  unit : BitVec 16
  deriving DecidableEq, Repr

/-- What the boot hardware found of an image beyond its header's plain fields (R713): the key slot not revoked and the
public key's digest the fused one, the signature good, the digest of the payload good, the image read without error. -/
structure ImageChecks where
  keyOk    : Bool
  sigOk    : Bool
  digestOk : Bool
  readOk   : Bool
  deriving DecidableEq, Repr

/-- A boot image as the boot hardware sees it: header fields of R712 and the outcome of its checks. -/
structure BootImage where
  magic    : Word
  format   : BitVec 16
  keyIdx   : Byte
  resv     : Byte
  rollback : Word
  length   : Word
  checks   : ImageChecks
  deriving DecidableEq, Repr

/-- What the start-up tests of R716 found. -/
structure StartupResult where
  /-- Test 0: neither copy of the darning map is valid. -/
  mapLost   : Bool
  /-- Test 1: failed rows (memory, row) of the on-die memories, and whether one of them has no spare row. -/
  sramRows  : List (BitVec 8 × BitVec 16)
  noSpare   : Bool
  /-- Test 2: failed rows (controller, row) of LPDDR5X, and controllers with a channel that fails training. -/
  dramRows  : List (BitVec 3 × BitVec 16)
  untrained : BitVec 8
  /-- Tests 3 and 4: failed physical engines and FCEs. -/
  engines   : BitVec 36
  fces      : BitVec 4
  /-- Test 5: failed converter channels (group, channel). -/
  afes      : List (BitVec 2 × BitVec 4)
  /-- Test 6: page slots of the blocks held. -/
  blocks    : List (BitVec 14)
  /-- FIRST_UNIT: the first failing unit. -/
  firstUnit : BitVec 16
  deriving DecidableEq, Repr

/-- A PCIe configuration write to a function (R676, R677). -/
inductive ConfigWrite where
  /-- VF Enable set, with NumVFs and ARI Capable Hierarchy. -/
  | vfEnable (numVfs : BitVec 16) (ari : Bool)
  /-- Power state: 0 D0, 3 D3hot. -/
  | dState (d : BitVec 2)
  /-- MSI-X Enable and Function Mask. -/
  | msixControl (enable mask : Bool)
  /-- PME_En, and a clearing of PME_Status. -/
  | pme (enable clear : Bool)
  /-- Vector Control mask of one vector. -/
  | vectorControl (v : BitVec 6) (mask : Bool)
  deriving DecidableEq, Repr

/-- The commands, in the table's order, those without operands last. -/
inductive Instr where
  /-- REGISTER_WRITE (R8): A host write to a register that has no row of its own is accepted, or dropped and logged, under its access code and then journaled. -/
  | registerWrite (f : Fin 32) (addr : BitVec 26) (data : List Byte)
  /-- READ_CLEAR (R8): A full 32-bit read of an RC register returns its value and then clears it. -/
  | readClear (f : Fin 32) (addr : BitVec 26)
  /-- UNPOPULATED_ACCESS (R682): An access to an unpopulated BAR0 slot reads all ones or is dropped, is recorded in UNPOP_LOG and raises source 23. -/
  | unpopulatedAccess (addr : BitVec 26) (isRead : Bool)
  /-- UNALIGNED_READ (R681): A BAR0 read that crosses a register boundary unaligned is answered with a Completer Abort and counted. -/
  | unalignedRead (addr : BitVec 26) (n : Nat)
  /-- BAR2_INVALID_WRITE (R679): A BAR2 write outside the doorbells, narrow or at a reserved offset is dropped and logged. -/
  | bar2InvalidWrite (f : Fin 32) (off : BitVec 16) (n : Nat)
  /-- BAR4_WRITE (R680): A BAR4 write to the commons honours byte enables, and is dropped whole when it touches C2_REGION or the enabled journal region. -/
  | bar4Write (addr : BitVec 27) (data : List (Option Byte) × List (BitVec 45 × EccError))
  /-- BAR4_READ (R680): A BAR4 read returns commons data, with the poisoned-data indication for a poisoned word. -/
  | bar4Read (addr : BitVec 27) (n : Nat × List (BitVec 45 × EccError))
  /-- LOCK_CMD (R687): A write to TOP.LOCK_CMD with the key sets the driver lock on a lockable page and reports the outcome in LOCK_RESULT. -/
  | lockCmd (f : Fin 32) (v : Word)
  /-- IRQ_PEND_SET (R683): Each 1 written to a page's IRQ_PEND_SET sets that IRQ_PEND bit. -/
  | irqPendSet (f : Fin 32) (slot : BitVec 14) (v : Word)
  /-- IRQ_PEND_CLR (R683): Each 1 written to a page's IRQ_PEND_CLR clears that IRQ_PEND bit. -/
  | irqPendClr (f : Fin 32) (slot : BitVec 14) (v : Word)
  /-- IRQ_MASK_SET (R683): Each 1 written to a page's IRQ_MASK_SET sets that IRQ_MASK bit. -/
  | irqMaskSet (f : Fin 32) (slot : BitVec 14) (v : Word)
  /-- IRQ_MASK_CLR (R683): Each 1 written to a page's IRQ_MASK_CLR clears that IRQ_MASK bit. -/
  | irqMaskClr (f : Fin 32) (slot : BitVec 14) (v : Word)
  /-- COMMONS_SCRUB (R20): The scrub timer of a commons slice reads words in idle port cycles and writes back corrected words. -/
  | commonsScrub (c : Fin 16) (w : BitVec 20) (e : EccError)
  /-- UNIT_RECEIVE (R47): A consuming block takes a stitch-headed unit whole, checks CRC, header fields and frame counter, and accepts, substitutes or discards it. -/
  | unitReceive (slot : BitVec 14) (u : DUnit)
  /-- LINK_UNIT_ARRIVE (R52): A unit arriving over a Fakan link gets REMOTE set and its hop count raised. -/
  | linkUnitArrive (k : Fin 4) (u : DUnit)
  /-- TSC_LOAD (R58): TSC_CMD.LOAD loads TSC_SET if it is not less than the TSC, and otherwise sets the load-rejected error. -/
  | tscLoad (f : Fin 32) (v : Word)
  /-- CLR_COARSE (R56): TSC_CMD.CLR_COARSE clears COARSE on a standalone device. -/
  | clrCoarse (f : Fin 32) (v : Word)
  /-- TSC_LO_READ (R59): A 32-bit read of TSC_LO latches the upper half into TSC_HI. -/
  | tscLoRead (f : Fin 32)
  /-- PGEN_RUN (R119): Setting PG_CTRL.RUN starts the pattern generator at state START with its loop counters reloaded. -/
  | pgenRun (f : Fin 32) (g : Fin 4) (v : Word)
  /-- PGEN_STATE_END (R78): The end of a pattern state's duration takes its samples and moves to the next state under its condition. -/
  | pgenStateEnd (g : Fin 4) (raw : List (BitVec 16))
  /-- DARK_LOOP_STEP (R72): Every 2^DARK_SHIFT lines the dark loop moves the offset DAC and may raise loop out of range. -/
  | darkLoopStep (g : Fin 4) (c : Fin 13)
  /-- SHADOW_SETTLED (R76): A shadowing spare channel reaching 256 lines raises shadowing settled. -/
  | shadowSettled (g : Fin 4)
  /-- AFE_CHANNEL_SWITCH (R76): At a line boundary the AFE channel map is changed to the shadowing spare. -/
  | afeChannelSwitch (g : Fin 4)
  /-- PM_DATA_HI_WRITE (R119): A write to PM_DATA_HI stores the 64-bit state at PM_ADDR and advances PM_ADDR, or is dropped while RUN is 1. -/
  | pmDataHiWrite (f : Fin 32) (g : Fin 4) (v : Word)
  /-- TRIG_CMD (R119): A write to TRIG_CMD issues one software line trigger. -/
  | trigCmd (f : Fin 32) (g : Fin 4) (v : Word)
  /-- DIV_FRAC_WRITE (R84): A DIV_FRAC write takes both divider halves together from the next trigger. -/
  | divFracWrite (f : Fin 32) (n : Fin 8) (v : Word)
  /-- ENCODER_EDGE (R85): An accepted quadrature count updates the accumulator and may issue a line trigger. -/
  | encoderEdge (n : Fin 8) (forward : Bool) (bothPhases : Bool)
  /-- OVERSPEED_TIMER_TRIGGER (R87): During overspeed a timer at the last good period triggers a line. -/
  | overspeedTimerTrigger (n : Fin 8)
  /-- ENCODER_STALL (R89): No edge for STALL_US stops triggering and closes the open item as stalled. -/
  | encoderStall (n : Fin 8)
  /-- ENCODER_LINE_FAULT (R90): An open or short on an RS-422 pair sets LINE_FAULT and closes the open item. -/
  | encoderLineFault (n : Fin 8)
  /-- CXP_PACKET (R96): A CoaXPress stream packet delivers camera line data, stamped and padded, truncated or zeroed as required. -/
  | cxpPacket (n : Fin 8) (e : CameraEvent)
  /-- CXP_CMD_READ (R121): CMD_GO read relays a camera register read. -/
  | cxpCmdRead (f : Fin 32) (n : Fin 8) (v : Word)
  /-- CXP_CMD_WRITE (R121): CMD_GO write relays a camera register write. -/
  | cxpCmdWrite (f : Fin 32) (n : Fin 8) (v : Word)
  /-- CXP_CONTROL_REPLY (R121): A camera control reply arrives and is reported in CMD_DATA and CMD_STATUS. -/
  | cxpControlReply (n : Fin 8) (ack : Byte) (data : Word)
  /-- CXP_EVENT_PACKET (R93): A camera event packet or heartbeat is received and latched. -/
  | cxpEventPacket (n : Fin 8) (heartbeat : Bool) (w : Word)
  /-- CXP_LINK_LOST (R121): A CoaXPress link loses lock and raises link lost. -/
  | cxpLinkLost (n : Fin 8) (link : Fin 4)
  /-- CSI_PACKET (R94): A CSI-2 packet delivers frame boundaries or line data on the selected virtual channel. -/
  | csiPacket (n : Fin 16) (vc : BitVec 2) (e : CameraEvent)
  /-- LINE_COMPLETE (R106): Every part of a line has reached the line buffer, completing the line. -/
  | lineComplete (p : Fin 16)
  /-- POST_LINES_DONE (R102): After POST_LINES further lines the closing item ends. -/
  | postLinesDone (p : Fin 16)
  /-- BAND_DELIVER (R108): A complete band or the item's last lines are written to the destination ring and DEST_TAIL advanced. -/
  | bandDeliver (p : Fin 16)
  /-- PATH_WAIT_EXPIRY (R108): At request time plus PATH_WAIT a band's complete lines are delivered with PARTIAL, or the wait restarts. -/
  | pathWaitExpiry (p : Fin 16)
  /-- DEST_HEAD_WRITE (R110): The consumer advancing DEST_HEAD frees ring slots so waiting bands can be written. -/
  | destHeadWrite (f : Fin 32) (p : Fin 16) (v : Word)
  /-- GATE_EDGE (R101): A filtered gate edge opens or begins closing an item on the paths that name it. -/
  | gateEdge (gate : Fin 16) (level : Bool)
  /-- PATH_OPEN (R101): PATH_CMD.OPEN opens an item on a software-itemised path. -/
  | pathOpen (f : Fin 32) (p : Fin 16) (v : Word)
  /-- PATH_CLOSE (R101): PATH_CMD.CLOSE closes the item on a software-itemised path. -/
  | pathClose (f : Fin 32) (p : Fin 16) (v : Word)
  /-- PATH_ENABLE (R99): Setting PATH_CTRL.ENABLE opens the path's streams and starts capture if the ingest budget allows. -/
  | pathEnable (f : Fin 32) (p : Fin 16) (v : Word)
  /-- PATH_DISABLE (R105): Clearing ENABLE stops the path and closes an open item with a zero-length INVALID unit. -/
  | pathDisable (f : Fin 32) (p : Fin 16) (v : Word)
  /-- SWEEP_OPEN_MESSAGE (R361): A follower matches an arriving sweep-open message to a profile and opens the item on its ITEM_SRC 3 paths. -/
  | sweepOpenMessage (item : BitVec 48) (stamp : DWord) (prof : BitVec 6)
  /-- SWEEP_CLOSE_MESSAGE (R361): A follower closes the item at the matching sweep-close message. -/
  | sweepCloseMessage (item : BitVec 48) (stamp : DWord) (prof : BitVec 6)
  /-- ENGINE_RUN (R161): Setting CTRL.RUN lets the engine take commands. -/
  | engineRun (f : Fin 32) (p : Fin 36) (v : Word)
  /-- ENGINE_DRAIN (R161): Setting CTRL.DRAIN lets the running command finish and then takes no more. -/
  | engineDrain (f : Fin 32) (p : Fin 36) (v : Word)
  /-- ENG_DIAG_START (R163): DIAG_CMD.START runs the array diagnostic on an idle or spare engine, or is dropped. -/
  | engDiagStart (f : Fin 32) (p : Fin 36) (v : Word)
  /-- FCE_DIAG_START (R164): FCE DIAG_CMD.START runs the FCE diagnostic under the engine's condition. -/
  | fceDiagStart (f : Fin 32) (s : Fin 4) (v : Word)
  /-- MATMUL (R407): A MATMUL descriptor is admitted and validated for an engine product Y = W × X + b. -/
  | matmul (c : BitVec 8) (d : BitVec 512)
  /-- CONV (R409): A CONV descriptor is admitted and validated for a swatch of up to 8 layers. -/
  | convolve (c : BitVec 8) (d : BitVec 512)
  /-- ATTENTION (R244): An ATTENTION descriptor is admitted, its sequences locked, frames allocated and entries refused, paused or dropped as needed. -/
  | attention (c : BitVec 8) (d : BitVec 512)
  /-- CROP (R223): A CROP descriptor is admitted to cut and resample boxes on the vector unit. -/
  | crop (c : BitVec 8) (d : BitVec 512)
  /-- ARGMAX (R229): An ARGMAX descriptor is admitted for a channel argmax. -/
  | argmax (c : BitVec 8) (d : BitVec 512)
  /-- SAMPLE (R407): A SAMPLE descriptor is admitted to select a token per column under its mask. -/
  | sample (c : BitVec 8) (d : BitVec 512)
  /-- TOKENISE (R306): A TOKENISE command segments UTF-8 units into token units. -/
  | tokenise (c : BitVec 8) (d : BitVec 512)
  /-- DETOKENISE (R311): A DETOKENISE command turns token units back into UTF-8 text. -/
  | detokenise (c : BitVec 8) (d : BitVec 512)
  /-- MASK (R412): A MASK command is admitted with the next descriptor of its context as a mask request. -/
  | mask (c : BitVec 8) (d : BitVec 512) (next : BitVec 512)
  /-- JPEG (R231): A JPEG command decodes or refuses a supported JPEG image into band units. -/
  | jpeg (c : BitVec 8) (d : BitVec 512)
  /-- AUGMENT (R240): An AUGMENT command produces a seeded augmented copy, or faults on an out-of-range parameter. -/
  | augment (c : BitVec 8) (d : BitVec 512)
  /-- COPY (R407): A COPY command moves bytes over the spine. -/
  | copy (c : BitVec 8) (d : BitVec 512)
  /-- PUT (R642): A PUT writes bytes into a remote window and adds one to the remote counter at commit. -/
  | put (c : BitVec 8) (d : BitVec 512)
  /-- GET (R641): A GET reads a remote window into local memory as a remote wait. -/
  | get (c : BitVec 8) (d : BitVec 512)
  /-- SIGNAL (R641): A SIGNAL adds an increment to a remote counter. -/
  | signal (c : BitVec 8) (d : BitVec 512)
  /-- WAIT (R643): A WAIT completes when its local counter reaches the target. -/
  | wait (c : BitVec 8) (d : BitVec 512)
  /-- ALLGATHER (R646): An ALLGATHER places every member's contribution in rank order on every member. -/
  | allgather (c : BitVec 8) (d : BitVec 512)
  /-- ALLREDUCE (R646): An ALLREDUCE folds every member's contribution in ascending device order on every member. -/
  | allreduce (c : BitVec 8) (d : BitVec 512)
  /-- BROADCAST (R641): A BROADCAST copies the root's source to every member. -/
  | broadcast (c : BitVec 8) (d : BitVec 512)
  /-- BARRIER (R641): A BARRIER completes when every member of GROUP has reached it. -/
  | barrier (c : BitVec 8) (d : BitVec 512)
  /-- EMPTY_COMMAND_COMPLETE (R152): A command with a zero size field completes EMPTY within 64 cycles, emitting zero-length units. -/
  | emptyCommandComplete (id : Nat)
  /-- ZERO_K_COMPLETE (R153): A MATMUL with K zero writes bias-only results and completes OK. -/
  | zeroKComplete (p : Fin 36)
  /-- PRE_PASS_DONE (R178): The vector quantisation pre-pass ends and the first stationary load begins. -/
  | prePassDone (p : Fin 36 × StoreRead)
  /-- SHAPE_CHANGE (R133): After the array drains, the engine reconfigures to a new shape in 16 cycles. -/
  | shapeChange (p : Fin 36)
  /-- STATIONARY_LOAD_DONE (R126): A tile's 128-cycle stationary load ends and weight rows begin to issue. -/
  | stationaryLoadDone (p : Fin 36) (rd : StoreRead)
  /-- ENGINE_STORE_SCRUB (R151): The engine store's scrub reads words in idle bank cycles. -/
  | engineStoreScrub (p : Fin 36) (w : BitVec 19) (e : EccError)
  /-- ROW_CHECK (R124): 260 cycles after issue a weight row is checked, rescaled and accumulated, or held for re-issue. -/
  | rowCheck (p : Fin 36) (row : Nat) (found : StoreRead × CheckAlt)
  /-- ARRAY_DIAGNOSTIC_DONE (R140): The array diagnostic ends, locating the fault for repair or sending the engine to FAULT. -/
  | arrayDiagnosticDone (p : Fin 36) (r : DiagResult) (spareOk : Bool)
  /-- TILE_END_CHECK (R137): 260 cycles after the checksum weight row, the tile-end check passes or frogs the command. -/
  | tileEndCheck (p : Fin 36) (alt : CheckAlt)
  /-- VECTOR_INSTRUCTION (R148): The vector unit executes an instruction with a residue check. -/
  | vectorInstruction (p : Fin 36) (i : VecInstr × StoreRead × List (Nat × Int))
  /-- DUMMY_RAMP_STEP (R135): Every RAMP_STEP cycles dummy issue is raised or lowered by one eighth. -/
  | dummyRampStep (p : Fin 36)
  /-- TRANS_THRESH_REACHED (R162): Corrected mismatches reaching TRANS_THRESH within one second raise source 128 + 4p + 3. -/
  | transThreshReached (u : ArrayUnit)
  /-- FCE_WEIGHT_LOAD_DONE (R157): The FCE weight bank finishes loading before the first output. -/
  | fceWeightLoadDone (s : Fin 4) (parityError : Bool)
  /-- FCE_OUTPUT_POSITION (R157): The FCE produces an output position and compares its checksum channel. -/
  | fceOutputPosition (s : Fin 4) (found : Bool × List (Fin 66 × Int))
  /-- FCE_DIAGNOSTIC_DONE (R158): The FCE diagnostic ends, switching in the spare column or entering FAULT. -/
  | fceDiagnosticDone (s : Fin 4) (located : Option (BitVec 7))
  /-- COMMIT_POINT (R416): A command or part has passed its checks and is ineligible for further re-runs, and is staged. -/
  | commitPoint (id : Nat) (m : PartEnd)
  /-- COMMIT (R418): A request commits, writing memory and KV results, unit headers, freeing input slots and writing completion entries. -/
  | commit (id : Nat)
  /-- LCT_EXPIRY (R421): At the LCT with DL_ABORT 1 an uncommitted command is stopped and completes TIMEOUT. -/
  | lctExpiry (id : Nat)
  /-- SUBMISSION_DOORBELL (R401): A doorbell write sets a context's submission tail for admission, or is dropped or ignored. -/
  | submissionDoorbell (f : Fin 32) (c : BitVec 8) (v : Word)
  /-- COMPLETION_DOORBELL (R401): A doorbell write sets a context's completion head, freeing ring room for waiting commits. -/
  | completionDoorbell (f : Fin 32) (c : BitVec 8) (v : Word)
  /-- CTX_START (R400): CTX_CMD START checks a context record and sets it RUNNING or reports a reason. -/
  | ctxStart (f : Fin 32) (v : Word)
  /-- CTX_STOP (R400): CTX_CMD STOP ends admission for a context. -/
  | ctxStop (f : Fin 32) (v : Word)
  /-- CTX_TEARDOWN (R446): CTX_CMD TEARDOWN stops every admitted command of a context without commit and releases its locks and mask requests. -/
  | ctxTeardown (f : Fin 32) (v : Word)
  /-- TEARDOWN_COMPLETE (R446): Teardown finishes, the context becomes FREE and source 101 is raised. -/
  | teardownComplete (c : BitVec 8)
  /-- CTX_REPORT (R447): CTX_CMD REPORT writes the interference report of every running context. -/
  | ctxReport (f : Fin 32) (v : Word)
  /-- CTX_VT_LO_READ (R449): A read of CTX_VT_LO latches the selected context's upper virtual time. -/
  | ctxVtLoRead (f : Fin 32)
  /-- CHEAP_POINT_REACHED (R433): A victim reaching its cheap point drains and its save begins. -/
  | cheapPointReached (id : Nat) (j : Fin 7)
  /-- SAVE_DONE (R441): The saved live range is written and the command returns to ready. -/
  | saveDone (id : Nat)
  /-- RESTORE_DONE (R441): A saved command's live range is read back and it continues from its cheap point. -/
  | restoreDone (id : Nat)
  /-- REMOTE_WAIT_TIMEOUT (R437): A remote wait exceeding REMOTE_TO is abandoned and the command frogged. -/
  | remoteWaitTimeout (id : Nat)
  /-- QUARANTINE_ARRIVAL (R438): Data for an abandoned or superseded remote wait is quarantined and discarded. -/
  | quarantineArrival (id : Nat) (gen : Nat)
  /-- ATTENTION_PARTIAL_ARRIVE (R290): A layout partner's partial result arrives for the combining command. -/
  | attentionPartialArrive (id : Nat) (idx : Fin 8) (u : DUnit)
  /-- EVICTION_SCAN_COMPLETE (R269): A frame-table scan completes and renews the eviction candidate list. -/
  | evictionScanComplete (s : Fin 4)
  /-- LAB_MISS_WALK (R262): A LAB miss is sent to the stripe's walker, which reads the page table and frame table. -/
  | labMissWalk (p : Fin 36) (seq : BitVec 16) (page : BitVec 32)
  /-- TRANSLATION_FILL (R264): The walker completes a translation and fills the LAB, or refuses it as a page-table error. -/
  | translationFill (w : Fin 4 × Bool)
  /-- KVW_ENABLE (R294): Setting KVW_CTRL.ENABLE starts the walkers, or is dropped with an invalid POOL_FMT. -/
  | kvwEnable (f : Fin 32) (s : Fin 4) (v : Word)
  /-- SEQ_RELEASE (R295): SEQ_CMD RELEASE frees every frame of an unlocked sequence and sets it FREE. -/
  | seqRelease (f : Fin 32) (s : Fin 4) (v : Word)
  /-- SEQ_TRUNCATE (R295): SEQ_CMD TRUNCATE shortens an unlocked sequence and frees frames beyond it. -/
  | seqTruncate (f : Fin 32) (s : Fin 4) (v : Word)
  /-- SEQ_PIN (R295): SEQ_CMD PIN sets PINNED in a page-table entry. -/
  | seqPin (f : Fin 32) (s : Fin 4) (v : Word)
  /-- SEQ_UNPIN (R295): SEQ_CMD UNPIN clears PINNED in a page-table entry. -/
  | seqUnpin (f : Fin 32) (s : Fin 4) (v : Word)
  /-- VOCAB_LOAD (R301): VOCAB_CMD LOAD checks the vocabulary header and sets VOCAB_READY or refuses. -/
  | vocabLoad (f : Fin 32) (v : Word)
  /-- VOCAB_UNLOAD (R335): VOCAB_CMD UNLOAD clears VOCAB_READY when no command is admitted. -/
  | vocabUnload (f : Fin 32) (v : Word)
  /-- CSET_LOAD (R319): CSET_CMD LOAD checks a constraint-set header and marks the slot loaded or refuses. -/
  | csetLoad (f : Fin 32) (v : Word)
  /-- CSET_UNLOAD (R319): CSET_CMD UNLOAD marks a constraint-set slot unloaded. -/
  | csetUnload (f : Fin 32) (v : Word)
  /-- VCACHE_MISS_FILL (R304): A vocabulary cache miss completes and fills the line, re-reading on parity error. -/
  | vcacheMissFill (line : BitVec 58) (byMask : Bool) (parityError : Bool)
  /-- MASK_ENTRY (R323): A lane processes a mask entry, updating the constraint state and writing its mask. -/
  | maskEntry (i : Nat)
  /-- T_SW_EXPIRY (R344): At T_sw an undecided item with a ready fallback is switched to it. -/
  | tSwExpiry (item : BitVec 48)
  /-- T_EMIT_EXPIRY (R352): At T_emit an item with no accepted record is rejected for DEADLINE. -/
  | tEmitExpiry (item : BitVec 48)
  /-- HOLD_LAST_RELEASE (R350): A committed record waiting for HOLD_LAST is emitted when every capture stream's LAST has passed. -/
  | holdLastRelease (item : BitVec 48)
  /-- SWEEP_CANDIDATE_ARRIVE (R363): A follower's candidate arrives at the opener and the merge runs once all have arrived. -/
  | sweepCandidateArrive (dev : BitVec 3) (item : BitVec 48) (r : DecisionRecord) (invalid : Bool)
  /-- SSI_SAMPLE (R396): SSI_CMD.SAMPLE issues one software sample-set trigger. -/
  | ssiSample (f : Fin 32) (v : Word)
  /-- SSI_BURST_DONE (R371): The sample set's bursts end and one sample-set unit is delivered. -/
  | ssiBurstDone (frames : List SsiFrame)
  /-- TSN_FRAME_RECEIVE (R376): A received frame matching a stream filter becomes a unit, subject to meter, gate and 802.1CB recovery. -/
  | tsnFrameReceive (t : Fin 4) (fr : TsnFrame)
  /-- TSN_SYNC_RECEIVE (R378): A received Sync updates the port's TSC to 802.1AS relation. -/
  | tsnSyncReceive (t : Fin 4) (asTime : DWord) (rate : Int) (interval : Word) (pdelay : Word)
  /-- TSN_SYNC_LOSS (R381): Three Sync intervals without Sync clear AS_SYNC and raise source 512 + 8t + 1. -/
  | tsnSyncLoss (t : Fin 4)
  /-- TSN_LINK_DOWN (R395): A TSN port's link goes down and raises source 512 + 8t. -/
  | tsnLinkDown (t : Fin 4)
  /-- TSN_LINK_UP (R375): A TSN port's link comes up and preemption is verified. -/
  | tsnLinkUp (t : Fin 4) (verified : Bool)
  /-- GCL_APPLY (R395): GCL_CMD APPLY loads a new gate control list to take effect at the next base-time multiple. -/
  | gclApply (f : Fin 32) (t : Fin 4) (v : Word)
  /-- GCL_ENTRY_EXPIRY (R375): A gate control list interval ends and the next gate state takes effect, releasing waiting frames. -/
  | gclEntryExpiry (t : Fin 4)
  /-- LOOP_ENABLE (R382): Setting LOOP_CTRL.ENABLE starts the loop's cycles from the first T_k at least 10 µs later. -/
  | loopEnable (f : Fin 32) (l : Fin 8) (v : Word)
  /-- LOOP_DISABLE (R392): Clearing LOOP_CTRL.ENABLE stops the loop; a frame not yet launched is not sent. -/
  | loopDisable (f : Fin 32) (l : Fin 8) (v : Word)
  /-- CEU_STROBE (R382): At T_k + STROBE_OFS the loop drives its 1 µs strobe pulse. -/
  | ceuStrobe (l : Fin 8)
  /-- CEU_SAMPLE_TRIGGER (R382): At T_k + SAMPLE_OFS the loop triggers the SSI sample set. -/
  | ceuSampleTrigger (l : Fin 8)
  /-- CEU_CUTOFF (R383): At the cutoff the CEU selects the newest committed command unit and forms the frame. -/
  | ceuCutoff (l : Fin 8)
  /-- CEU_LAUNCH (R389): At the launch time the command frame is transmitted. -/
  | ceuLaunch (l : Fin 8)
  /-- PERC_CLOSE_EXPIRY (R390): At T_k + PERC_CLOSE with no perception unit, the cycle is a supervision failure. -/
  | percCloseExpiry (l : Fin 8)
  /-- MBOX_SEND (R455): MBOX_CMD.SEND marks the outgoing mailbox full and notifies the receiver. -/
  | mboxSend (f : Fin 32) (g : Fin 32) (v : Word)
  /-- MBOX_ACK (R455): MBOX_CMD.ACK empties the incoming mailbox and notifies the sender. -/
  | mboxAck (f : Fin 32) (g : Fin 32) (v : Word)
  /-- VF_FLR (R458): A Function Level Reset of VF f tears down its contexts and clears its gatherer and FUNC state. -/
  | vfFlr (g : Fin 32)
  /-- IRQ_EOI (R469): A write to IRQ_EOI ends service of a vector and re-samples its level source. -/
  | irqEoi (f : Fin 32) (g : Fin 32) (v : Word)
  /-- SRC_PEND_SET (R466): Each 1 in SRC_PEND_SET sets a source's software pending bit. -/
  | srcPendSet (f : Fin 32) (g : Fin 4) (w : Fin 8) (v : Word)
  /-- SRC_PEND_CLR (R466): Each 1 in SRC_PEND_CLR clears a source's edge latch and software pending bit. -/
  | srcPendClr (f : Fin 32) (g : Fin 4) (w : Fin 8) (v : Word)
  /-- SRC_MASK_SET (R466): Each 1 in SRC_MASK_SET masks a source. -/
  | srcMaskSet (f : Fin 32) (g : Fin 4) (w : Fin 8) (v : Word)
  /-- SRC_MASK_CLR (R466): Each 1 in SRC_MASK_CLR unmasks a source. -/
  | srcMaskClr (f : Fin 32) (g : Fin 4) (w : Fin 8) (v : Word)
  /-- SRC_STORM_CLEAR (R474): Each 1 written to SRC_STORM clears that bit and leaves the mask set. -/
  | srcStormClear (f : Fin 32) (g : Fin 4) (w : Fin 8) (v : Word)
  /-- SRC_CFG_WRITE (R467): A write to SRC_CFG is accepted only while the source is masked and not in service. -/
  | srcCfgWrite (f : Fin 32) (g : Fin 4) (i : BitVec 8) (v : Word)
  /-- VEC_MASK_SET (R483): Each 1 in VEC_MASK_SET masks a completion channel. -/
  | vecMaskSet (f : Fin 32) (g : Fin 32) (hi : Bool) (v : Word)
  /-- VEC_MASK_CLR (R483): Each 1 in VEC_MASK_CLR unmasks a completion channel. -/
  | vecMaskClr (f : Fin 32) (g : Fin 32) (hi : Bool) (v : Word)
  /-- GATHERER_SELECT (R468): For an idle target with pending unmasked sources, the gatherer selects the lowest and sends one MSI-X message. -/
  | gathererSelect (g : Fin 32) (vec : BitVec 6)
  /-- STORM_WINDOW_EXPIRY (R473): The storm window closes and its count restarts. -/
  | stormWindowExpiry (src : BitVec 10)
  /-- MODERATION_TIMER_EXPIRY (R475): A completion channel's moderation timer expires and the channel becomes pending. -/
  | moderationTimerExpiry (g : Fin 32) (vec : BitVec 6)
  /-- HELD_MESSAGE_RELEASE (R477): A held MSI-X message is sent once the function is in D0 with MSI-X enabled. -/
  | heldMessageRelease (g : Fin 32) (vec : BitVec 6)
  /-- SAFE_ENABLE (R505): Setting SAFE_CTRL.ENABLE moves SAFE from OFF to INIT. -/
  | safeEnable (f : Fin 32) (v : Word)
  /-- ARM (R506): SAFE_CMD ARM in INIT checks the configuration and enters TEST, or reports a reason. -/
  | arm (f : Fin 32) (v : Word)
  /-- RESTART (R506): SAFE_CMD RESTART in SAFE returns SAFE to INIT. -/
  | restart (f : Fin 32) (v : Word)
  /-- FORCE_SAFE (R506): SAFE_CMD FORCE_SAFE is a common fault that puts SAFE in SAFE. -/
  | forceSafe (f : Fin 32) (v : Word)
  /-- SAFE_TEST_DONE (R527): TEST's start-up injections end, entering ARM and locking the safety pages, or SAFE. -/
  | safeTestDone (fails : List (BitVec 16)) (toSafe : Bool)
  /-- CHANNEL_RESULT_ARRIVE (R491): A channel result reaches CMP, which pairs it, checks it and forms a verdict. -/
  | channelResultArrive (chB : Bool) (u : DUnit)
  /-- PAIR_WAIT_EXPIRY (R494): A pair's partner missing at PAIR_WAIT gives a degraded verdict and counts a late result. -/
  | pairWaitExpiry (item : BitVec 48)
  /-- CONFIRMATION_SLICE_DONE (R517): The confirmation slice ends, entering DEGRADED or SAFE. -/
  | confirmationSliceDone (pass : Bool)
  /-- OUTPUT_READBACK (R510): Each 1 µs the outputs are read back, and a 2 µs mismatch is a common fault. -/
  | outputReadback (a : Bool) (b : Bool)
  /-- TEST_PULSE (R511): Each PERIOD an energised output drops for WIDTH and its readback is checked. -/
  | testPulse (outB : Bool) (followed : Bool)
  /-- SELF_TEST_SLICE (R524): SAFE runs the next run-time self-test slice of its TEST_CYCLE. -/
  | selfTestSlice (miss : Option (BitVec 16))
  /-- WD_KICK (R500): A write to WD_KICK is checked against the window and SEQ, and accepted or an early expiry. -/
  | wdKick (f : Fin 32) (w : BitVec 6) (v : Word)
  /-- WATCHDOG_LATE_EXPIRY (R502): No kick by CLOSE is a late expiry, reported to SAFE with ACTION 1. -/
  | watchdogLateExpiry (w : BitVec 6)
  /-- REQ_SEND (R551): REQ_CMD.SEND attaches REQ_SEQ and the TSC and sends the request record to the island. -/
  | reqSend (f : Fin 32) (v : Word)
  /-- IDENT (R547): An island IDENT request recomputes the firmware checksum and reports identity. -/
  | halIdent (crc : Word)
  /-- WEIGHING_WINDOW_END (R541): At the end of a weighing window the island forms a result record and queues it. -/
  | weighingWindowEnd (w : Weighing)
  /-- RESULT_RECORD_ARRIVE (R544): A result record reaches the HAL page, is stamped and written as a unit or held for the host. -/
  | resultRecordArrive (r : Word × Bool)
  /-- RES_POP (R565): RES_POP acknowledges the head result to the island. -/
  | resPop (f : Fin 32) (v : Word)
  /-- FIRMWARE_CHECK (R547): Every 24 hours the island recomputes its firmware checksum. -/
  | firmwareCheck (crc : Word)
  /-- ISLAND_START (R562): The island completes its start checks and reaches RUN or ERROR. -/
  | islandStart (crc : Word) (auditOk : Bool) (convOk : Bool)
  /-- HAL_POWER_FAIL_WARNING (R559): VDD_HAL below 1.65 V sets the island's power-fail warning. -/
  | halPowerFailWarning (low : Bool)
  /-- CORE_POWER_START (R570): With stages 1 to 4 and VIN_VR in range, VDD_CORE ramps and core power-on reset releases. -/
  | corePowerStart (railsOk : Bool) (vinMv : BitVec 16) (straps : BitVec 2)
  /-- RAIL_LOST (R571): A monitored rail leaving its range with VDD_CORE on is handled as a power loss. -/
  | railLost (rail : BitVec 4)
  /-- AVS_STEP (R574): Every 10 µs the VRC adjusts the VDD_CORE target from monitor slack. -/
  | avsStep (slackPs : Int) (above1ms : Bool)
  /-- PHASE_FAILURE (R578): A failed regulator phase is taken out of service, ILIM lowered and power capped. -/
  | phaseFailure (ph : Fin 26) (short : Bool)
  /-- SENSE_FAILURE (R579): A failed current sense switches its phase to timing balance. -/
  | senseFailure (ph : Fin 26)
  /-- STRIPE_FREQ_CHANGE (R582): Once the idle PLL locks, the stripe switches frequency at a cycle boundary. -/
  | stripeFreqChange (s : Fin 4) (code : Fin 3)
  /-- PLL_LOCK_LOSS (R585): A PLL losing lock raises source 56; a stripe falls back to its other PLL at 1.1 GHz. -/
  | pllLockLoss (pll : Fin 13)
  /-- REF_CLOCK_CHECK (R584): Every 10 µs the reference and always-on clocks are compared. -/
  | refClockCheck (refPpm : Int) (aonFault : Bool)
  /-- POWER_ESTIMATE (R594): Every 1 µs PWR estimates core power from activity counts. -/
  | powerEstimate (activity : List Nat) (iout : BitVec 16) (other : BitVec 16)
  /-- CAP_STEP (R597): Every 10 µs PWR applies cap, boost, floors and fixed-frequency rules to clocks. -/
  | capStep (fast : BitVec 16) (projected : BitVec 16)
  /-- IRL_WINDOW (R589): At each 64-cycle window the issue-rate limiter bounds the change in issue slots. -/
  | irlWindow (s : Fin 4) (wanted : List Nat)
  /-- DROOP_DETECT (R592): A droop detector below DROOP_MV stretches every stripe cycle by one quarter. -/
  | droopDetect (s : Fin 4) (belowMv : BitVec 8)
  /-- STRETCH_END (R592): Clock stretching ends after STRETCH_NS and 64 quiet cycles. -/
  | stretchEnd (s : Fin 4) (cycles : Word)
  /-- THERMAL_READ (R604): Every 10 µs the junction sensors are read and thermal limits applied. -/
  | thermalRead (temps : List Int)
  /-- SHIFT_REPORT (R608): Every 1 ms a device reports need, floor and urgency to the time master. -/
  | shiftReport (need : BitVec 9)
  /-- SHIFT_ALLOCATE (R609): The time master allocates group caps from the reports. -/
  | shiftAllocate (reports : List PowerReport)
  /-- ALLOCATION_RECEIVE (R610): A received allocation becomes the device's group cap. -/
  | allocationReceive (w : BitVec 9)
  /-- STANDBY (R614): DEV_CMD STANDBY enters STANDBY or reports a reason. -/
  | standby (f : Fin 32) (v : Word)
  /-- DEEP_SLEEP (R614): DEV_CMD DEEP_SLEEP enters DEEP_SLEEP or reports a reason. -/
  | deepSleep (f : Fin 32) (v : Word) (linkL2 : Bool) (wakeNow : Bool)
  /-- WAKE (R615): DEV_CMD WAKE wakes the device to ACTIVE. -/
  | wake (f : Fin 32) (v : Word)
  /-- CLOCK_GATE_ENTRY (R611): A block idle for 16 cycles is clock-gated. -/
  | clockGateEntry (slot : BitVec 14)
  /-- RETENTION_ENTRY (R611): An engine idle for RET_US enters retention. -/
  | retentionEntry (u : ArrayUnit)
  /-- MEMC_POWER_DOWN (R611): An LPDDR5X channel with no access for 1 µs enters power-down. -/
  | memcPowerDown (m : Fin 8)
  /-- MEMC_SCRUB (R616): The memory controller scrubs rows and corrects or poisons errors. -/
  | memcScrub (m : Fin 8) (addr : BitVec 33) (e : EccError)
  /-- DRAM_TEMP_REPORT (R616): The dies' temperature report sets the refresh rate. -/
  | dramTempReport (m : Fin 8) (mult : BitVec 4)
  /-- LINK_ENABLE (R632): LINK_CTRL.ENABLE trains a port and starts discovery. -/
  | linkEnable (f : Fin 32) (k : Fin 4) (v : Word)
  /-- LINK_TRAINED (R635): A port's lanes are trained, deskewed and FEC-locked, and the port is up. -/
  | linkTrained (k : Fin 4) (peerDev : BitVec 3) (peerPort : BitVec 2) (delayPs : Word)
  /-- DEVICE_NUMBERING (R633): After the last port of the group is up, device numbers and routes are assigned. -/
  | deviceNumbering (peers : List PeerInfo)
  /-- FLIT_RECEIVE (R630): A flit arrives, is acknowledged or replayed from the buffer. -/
  | flitReceive (k : Fin 4) (fl : Flit)
  /-- LANE_FAILURE (R631): A failed lane is replaced by the spare with replay, or the width reduced. -/
  | laneFailure (k : Fin 4) (lane : Fin 5)
  /-- LANE_WORN (R631): A lane above 10⁻⁵ SER for 100 ms is swapped for the spare. -/
  | laneWorn (k : Fin 4) (lane : Fin 5)
  /-- EQUALISATION_UPDATE (R629): Every 10 ms receivers send transmitter coefficient updates. -/
  | equalisationUpdate (k : Fin 4)
  /-- LINK_TIMEOUT (R648): No valid flit for LINK_TO takes the port down. -/
  | linkTimeout (k : Fin 4)
  /-- ROUTE_RECOMPUTE (R636): A port going up or down recomputes routes and resends unacknowledged flits. -/
  | routeRecompute (paths : List RoutePath)
  /-- SYNC_EXCHANGE (R651): Every 1 µs ports exchange sync flits and followers slew toward the master. -/
  | syncExchange (k : Fin 4) (t1 : DWord) (t2 : DWord) (t3 : DWord) (t4 : DWord)
  /-- REMOTE_ACCESS_REQUEST (R640): A remote write or read is accepted inside a window or refused. -/
  | remoteAccessRequest (dev : BitVec 3) (r : RemoteAccess)
  /-- IMPORT_UNIT_ARRIVE (R638): A remote unit enters its import stream's ring, or is discarded as an import miss. -/
  | importUnitArrive (u : DUnit)
  /-- DARN (R662): DARN_CMD DARN queues a darning of a named part. -/
  | darn (f : Fin 32) (v : Word)
  /-- REPEAT (R661): DARN_CMD REPEAT repeats the operation of the pending record. -/
  | darnRepeat (f : Fin 32) (v : Word)
  /-- UNFAIL (R668): DARN_CMD UNFAIL clears a failed engine's FAILED_ENG bit. -/
  | unfail (f : Fin 32) (v : Word)
  /-- CLEAR_PENDING (R661): DARN_CMD CLEAR_PENDING clears the pending record. -/
  | clearPending (f : Fin 32) (v : Word)
  /-- SPARE_TEST_DONE (R665): The spare engine's test ends, passing to copy or failing to the next spare. -/
  | spareTestDone (pass : Bool)
  /-- DARN_SWITCH (R665): A planned darning switches at the old engine's next commit or frogs its command. -/
  | darnSwitch (atCommit : Bool)
  /-- WEAR_READ (R670): Once a second DARN reads wear monitors and may queue planned darnings. -/
  | wearRead (t : DarnTarget) (value : BitVec 16) (worn : Bool)
  /-- SYS_RST_N_RELEASE (R708): SYS_RST_N high for 10 µs releases the reset and starts boot. -/
  | sysRstNRelease (straps : BitVec 2)
  /-- SYSTEM_RESET (R710): RST_CMD SYSTEM_RESET with the key starts a system reset pulse. -/
  | systemReset (f : Fin 32) (v : Word)
  /-- BOOT_IMAGE_CHECK (R713): A boot image slot is read and checked and accepted or rejected. -/
  | bootImageCheck (slotB : Bool) (img : BootImage)
  /-- LOAD_HOST (R714): BOOT_CMD LOAD_HOST checks an image written to the commons by the host. -/
  | loadHost (f : Fin 32) (v : Word) (chk : ImageChecks)
  /-- COMMIT_ROLLBACK (R715): BOOT_CMD COMMIT_ROLLBACK raises FUSE_ROLLBACK permanently. -/
  | commitRollback (f : Fin 32) (v : Word)
  /-- STARTUP_TESTS_DONE (R716): The start-up tests complete, darning or failing parts, and the device reaches READY. -/
  | startupTestsDone (r : StartupResult)
  /-- PWR_FAIL_N_RISE (R724): A withdrawn warning with rails in range keeps the device stopped and raises source 37. -/
  | pwrFailNRise (railsOk : Bool)
  /-- MUX_CFG_WRITE (R734): A MUX_CFG write detaches the ball's function or is refused with a reason. -/
  | muxCfgWrite (f : Fin 32) (v : Word)
  /-- MUX_SWITCH_ATTACH (R735): 100 ns after detach the new function is attached and SWITCH_CNT raised. -/
  | muxSwitchAttach (b : BitVec 7)
  /-- PIN_LEVEL_ACCEPT (R737): A ball level stable for FILT is accepted by its input function, setting EVT_PEND and a pin wake. -/
  | pinLevelAccept (b : BitVec 7) (level : Bool)
  /-- ENC_TIMER_TRIGGER (R117): With TRIG_MODE 1, the ENC timer at TIME_PERIOD triggers a line on the path (on every path
  that names encoder `n`). -/
  | encTimerTrigger (n : Fin 8)
  /-- CXP_LINK_DISCOVERY (R121): A CoaXPress link gains lock and the camera is discovered, setting LOCK and DISCOVERED. -/
  | cxpLinkDiscovery (n : Fin 8) (link : Fin 4) (speed : BitVec 4)
  /-- CB_HISTORY_RESET (R395): After RESET_MS of silence on a recovered stream, the 802.1CB recovery history is reset. -/
  | cbHistoryReset (t : Fin 4) (i : Fin 32)
  /-- AUG_TEST_GO (R243): A write of 1 to TEST_CMD.GO places mix(TEST_SEED, TEST_INDEX, TEST_DRAW) in TEST_OUT within 16 cycles. -/
  | augTestGo (f : Fin 32) (v : Word)
  /-- GCL_DATA_WRITE (R395): A GCL_DATA write stores a gate control list entry and raises GCL_ADDR by one. -/
  | gclDataWrite (f : Fin 32) (t : Fin 4) (v : Word)
  /-- REL_TSC_LO_READ (R380): A 32-bit read of REL_TSC_LO latches REL_TSC_HI, REL_AS and REL_RATE from one update. -/
  | relTscLoRead (f : Fin 32) (t : Fin 4)
  /-- MEMC_PERIODIC_RETRAIN (R617): A memory controller's periodic retraining runs, counting a needed correction or raising a training failure. -/
  | memcPeriodicRetrain (m : Fin 8) (corrected : Bool) (failed : Bool)
  /-- PCIE_CONFIG_WRITE (R677): A configuration write sets VF Enable and NumVFs (with ARI_LIMIT), D-states, MSI-X enable, masks or PME_En. -/
  | pcieConfigWrite (g : Fin 32) (w : ConfigWrite)
  /-- PCIE_LINK_STATE_CHANGE (R702): The PCIe link enters L1 or L2, changes rate or width, or goes through recovery, updating LINK_EVENTS and raising source 20. -/
  | pcieLinkStateChange (ltssm : BitVec 4) (rate : BitVec 3) (width : BitVec 4) (flit : Bool) (dlUp : Bool)
  /-- SAFE_DISABLE (R505): Clearing SAFE_CTRL.ENABLE returns SAFE to OFF. -/
  | safeDisable (f : Fin 32) (v : Word)
  /-- TSC_SLEEP_TICK (R55): Each always-on clock cycle in deep sleep advances the TSC by 30,517 ns plus the fractional accumulator. -/
  | tscSleepTick
  /-- COMMAND_PLACE (R426): When an engine or block is free or a command becomes ready, the dispatcher orders ready commands and places one, starting its first load or operation. -/
  | commandPlace
  /-- REPORT_PERIOD_EXPIRY (R447): At the end of each REPORT_MS period the interference reports are written. -/
  | reportPeriodExpiry
  /-- PREEMPT (R432): A ready class 2 or zero-slack class 1 command with no idle engine pre-empts a victim by frog or save. -/
  | preempt
  /-- PAUSED_SEQUENCE_RESUME (R274): A paused sequence is re-admitted when a frame becomes free. -/
  | pausedSequenceResume
  /-- CSET_DEFERRED_APPLY (R319): A load or unload of a slot in use takes effect when the mask request ends. -/
  | csetDeferredApply
  /-- MASK_REQUEST_START (R330): The mask unit starts the next request after the previous one ends. -/
  | maskRequestStart
  /-- MASK_LIMIT_EXPIRY (R329): At MASK_LIMIT every unwritten mask is written LATE. -/
  | maskLimitExpiry
  /-- SSI_TRIGGER (R368): A trigger starts the clock bursts of the sample set and latches the encoder counts. -/
  | ssiTrigger
  /-- PF_FLR (R461): A Function Level Reset of the PF resets every enabled VF, the PF's contexts and FUNC[0], and masks every source. -/
  | pfFlr
  /-- VF_ENABLE_CLEAR (R461): Clearing VF Enable acts as a Function Level Reset of every enabled VF. -/
  | vfEnableClear
  /-- LINK_REACHES_L0 (R477): The PCIe link reaching L0 releases WAKE_N and sends PM_PME for a pending message. -/
  | linkReachesL0
  /-- DEG_LIMIT_EXPIRY (R520): DEG_LIMIT ms after REACT, SAFE leaves DEGRADED for SAFE. -/
  | degLimitExpiry
  /-- VERDICT_AGE_EXPIRY (R508): The latest valid verdict growing older than VERDICT_AGE clears VALID. -/
  | verdictAgeExpiry
  /-- PIN_HOLD_EXPIRY (R509): VALID 0 lasting beyond the effective PIN_HOLD de-energises the outputs. -/
  | pinHoldExpiry
  /-- SMSG_PERIOD_EXPIRY (R512): No status unit for SMSG.PERIOD produces one. -/
  | smsgPeriodExpiry
  /-- STATUS_FRAME_LATE (R515): A status frame not on the wire 100 µs after hand-over sets ROUTE_FAULT. -/
  | statusFrameLate
  /-- ROUTE_FAULT_CLEAR (R515): 100 ms without route events and 16 timely frames clear ROUTE_FAULT. -/
  | routeFaultClear
  /-- LOCKSTEP_MISMATCH (R504): A SAFE or CMP lockstep mismatch de-energises both outputs by a bypass path. -/
  | lockstepMismatch
  /-- SAFE_CLOCK_DEVIATION (R503): A core or SAFE clock outside ±5% for 1 µs is a common fault. -/
  | safeClockDeviation
  /-- SET (R557): An island SET request checks and makes an audited parameter change. -/
  | halSet
  /-- AUDIT_READ (R555): An island AUDIT_READ request returns one committed audit entry. -/
  | halAuditRead
  /-- ZERO (R554): An island ZERO request sets zero within ZERO_RANGE when stable. -/
  | halZero
  /-- TARE (R554): An island TARE request sets the tare. -/
  | halTare
  /-- TARE_CLEAR (R554): An island TARE_CLEAR request clears the tare. -/
  | halTareClear
  /-- REPLY_ARRIVE (R553): An island reply lands in REPLY and sets DONE, clearing BUSY. -/
  | replyArrive
  /-- STATUS_FRAME_ARRIVE (R535): An island status frame arrives and restores LANE_UP. -/
  | statusFrameArrive
  /-- LANE_LOST (R563): Three STATUS_MS periods without a status frame clear LANE_UP and raise source 712. -/
  | laneLost
  /-- HAL_RST_N (R534): HAL_RST_N resets the island only. -/
  | halRstN
  /-- ILIM_REACHED (R573): Core current at ILIM throttles weight issue on non-class-2 engines. -/
  | ilimReached
  /-- SPARE_PHASE_IN (R578): A spare phase is soft-started and in service, restoring ILIM. -/
  | sparePhaseIn
  /-- EST_CORR_UPDATE (R595): Every 10 ms EST_CORR is updated from measured and estimated power. -/
  | estCorrUpdate
  /-- ALLOCATION_TIMEOUT (R610): No allocation for 3 ms drops the group cap and raises source 44. -/
  | allocationTimeout
  /-- WAKE_LINK (R615): The host bringing the link out of L2 wakes the device. -/
  | wakeLink
  /-- WAKE_TIMER (R615): The TSC reaching WAKE_TSC wakes the device. -/
  | wakeTimer
  /-- IDLE_ENTRY (R613): With no admitted command and every engine gated or retained, the device becomes IDLE. -/
  | idleEntry
  /-- ALIGNED_SET (R653): Offset within ±2 ns for 1 ms sets ALIGNED and clears COARSE. -/
  | alignedSet
  /-- DARN_OPERATION_START (R662): DARN starts the next queued operation, choosing the spare and writing a pending record. -/
  | darnOperationStart
  /-- DARN_MAP_COMMIT (R659): The new darning map is committed and taken by every block at once. -/
  | darnMapCommit
  /-- SYS_RST_N_TAKEN (R708): SYS_RST_N low for 10 µs is taken as a reset and holds the main side in reset. -/
  | sysRstNTaken
  /-- RESET_HELD_LONG (R709): SYS_RST_N low for more than 1 s sets HELD_LONG. -/
  | resetHeldLong
  /-- VDD_AON_POWER_ON (R706): VDD_AON power-on resets the whole main side and the TSC. -/
  | vddAonPowerOn
  /-- PCIE_RESET (R706): A conventional, hot or link-down reset resets configuration space, MSI-X tables and the link. -/
  | pcieReset
  /-- PWR_FAIL_N_FALL (R721): A PWR_FAIL_N warning stops commits, invalidates outgoing units, de-energises outputs and records the loss. -/
  | pwrFailNFall
  /-- BROWNOUT_RESET (R724): Ten milliseconds after a withdrawn warning an internal brownout reset is performed. -/
  | brownoutReset
  /-- DEG_LIMIT_WARNING (R530): One second before DEG_LIMIT expires in DEGRADED, SAFE raises source 9. -/
  | degLimitWarning
  /-- ISLAND_CLOCK_DEVIATION (R562): The island clock outside ±1% of its internal oscillator puts the island in ERROR. -/
  | islandClockDeviation
  /-- ILIM_RELEASE (R573): Core current falling to 95% of ILIM ends the issue throttle. -/
  | ilimRelease
  /-- PCIE_COMPLETION_TIMEOUT (R705): A read issued by the IB960 receives no completion in time, is counted in CTO_CNT and raises source 22. -/
  | pcieCompletionTimeout
  /-- PCIE_REFCLK_LOSS (R625): Loss of the 100 MHz PCIe reference sets PCIE_REF_LOST and raises source 58. -/
  | pcieRefclkLoss
  /-- PARAMETER_GET (R553): An island GET request returns a parameter's value in a reply. -/
  | halParameterGet
  deriving DecidableEq, Repr

end Sys2Proof
end

