-- ==== Sys2Proof/Decode.lean ====
section
/-! DEFINITION. The decoder of the operation table's words. No row of the table has bits or fields, so no word spells a
command. -/

namespace Sys2Proof

/-- The command that a word of `nbits` bits spells by the operation table: none, since no row gives bits. -/
def decodeTableWord (_nbits _w : Nat) : Option Instr := none

end Sys2Proof
end

