-- ==== Sys2Proof/Config.lean ====
section
/-! DEFINITION. What an implementation of the IB960 fixes and the manual leaves open. Every constant here is
opaque: no proof can see a value of it (log entry 6). -/

namespace Sys2Proof.Config

/-- A value the manual leaves open: `freeValue n i` is the `i`-th open value of the `n`-th event that needs one
(log entry 6). `State.freeCtr` counts those events. -/
opaque freeValue : Nat → Nat → BitVec 64

/-- The fused device identifier (R701 UNIQUE_ID, "Fused"; log entry 3). -/
opaque uniqueId : BitVec 64

/-- CMN[c].PORT_BUSY once `n` cycles, more than its 32 bits hold, have been counted: the manual does not state it
(R21; log entry 8). -/
opaque portBusyPast (c n : Nat) : BitVec 32

/-- How far the vector unit's result of an operation lies from the exact one, within the bound of R148 (log entry 9).
`op` is 0 for exp2, 1 for log2, 2 for the reciprocal, 3 for the reciprocal square root. -/
opaque vuError (op operand : Nat) : BitVec 2

/-- A lane result of the vector unit that the manual does not state (R148; log entry 9): `op` says for which operation, `a` and
`b` are its operands. -/
opaque vuOpen (op a b : Nat) : BitVec 32

/-- Sources of keys and values (R265, R279; log entry 43): `what` names the sequence, its CREATED stamp, layer, head, key or
value, position and element; `tokens` are the sequence's tokens up to that position. -/
opaque kvSource (what tokens : List Nat) : BitVec 32

/-- JPG_STATUS.MCU_ROW while command `id` is decoded, at TSC `t`: how far the decoder has come is a matter of time (R242; log
entry 14). -/
opaque mcuRow (id t : Nat) : BitVec 16

end Sys2Proof.Config
end

