-- ==== Sys2Proof/Machine/Bits.lean ====
section
/-! DEFINITION. Bit fields, sign extension, byte order, association lists in canonical form, and the CRC-32C of
R40: the helpers every block uses. -/

namespace Sys2Proof.Machine

/-- Field [hi:lo] of a word, as a number. -/
def bits {n : Nat} (w : BitVec n) (hi lo : Nat) : Nat := (w.toNat >>> lo) % 2 ^ (hi + 1 - lo)

/-- The word with field [hi:lo] replaced by `v` (reduced to the field's width). -/
def setBits {n : Nat} (w : BitVec n) (hi lo v : Nat) : BitVec n :=
  let m := (2 ^ (hi + 1 - lo) - 1) <<< lo
  (w &&& ~~~ (BitVec.ofNat n m)) ||| BitVec.ofNat n ((v % 2 ^ (hi + 1 - lo)) <<< lo)

/-- Two's complement value of the low `k` bits of `v`. -/
def sgn (k v : Nat) : Int :=
  if v % 2 ^ k < 2 ^ (k - 1) then (v % 2 ^ k : Nat) else (v % 2 ^ k : Nat) - (2 ^ k : Nat)

/-- The low `k` bits of an integer in two's complement. -/
def uns (k : Nat) (i : Int) : Nat := (i % (2 ^ k : Nat)).toNat

/-- An integer limited to `lo … hi`. -/
def clampInt (i lo hi : Int) : Int := if i < lo then lo else if hi < i then hi else i

/-- Division of naturals rounded up; 0 when the divisor is 0. -/
def ceilDiv (a b : Nat) : Nat := if b = 0 then 0 else (a + b - 1) / b

/-- `k` bytes of `n`, least significant first. -/
def leBytes : Nat → Nat → List Byte
  | 0, _ => []
  | k + 1, n => BitVec.ofNat 8 n :: leBytes k (n / 256)

/-- The number whose bytes, least significant first, are given. -/
def leNat : List Byte → Nat
  | [] => 0
  | b :: t => b.toNat + 256 * leNat t

/-- One bit of a reflected CRC-32C (R40: generator 0x1EDC_6F41, reflected: 0x82F6_3B78). -/
def crcBit (c : BitVec 32) : BitVec 32 :=
  if c.getLsbD 0 then (c >>> 1) ^^^ 0x82F63B78#32 else c >>> 1

/-- Eight bits. -/
def crcByte (c : BitVec 32) (b : Byte) : BitVec 32 :=
  let x := c ^^^ b.setWidth 32
  crcBit (crcBit (crcBit (crcBit (crcBit (crcBit (crcBit (crcBit x)))))))

/-- CRC-32C of a byte string (R40). -/
def crc32c (l : List Byte) : BitVec 32 :=
  (l.foldl crcByte 0xFFFFFFFF#32) ^^^ 0xFFFFFFFF#32

/-- The value listed at a key. -/
def alFind {α : Type} (k : Nat) : List (Nat × α) → Option α
  | [] => none
  | (x, v) :: t => if x = k then some v else alFind k t

/-- The value listed at a key, or `d`. -/
def alGet {α : Type} (d : α) (k : Nat) (l : List (Nat × α)) : α := (alFind k l).getD d

/-- The list with `v` at key `k`, keys rising, an entry equal to `d` (what an unlisted key reads as) left out. -/
def alPut {α : Type} [DecidableEq α] (d : α) (k : Nat) (v : α) : List (Nat × α) → List (Nat × α)
  | [] => if v = d then [] else [(k, v)]
  | (x, w) :: t =>
    if k < x then (if v = d then (x, w) :: t else (k, v) :: (x, w) :: t)
    else if k = x then (if v = d then t else (k, v) :: t)
    else (x, w) :: alPut d k v t

/-- Element `i` of a list changed by `f`; unchanged where there is none. -/
def updAt {α : Type} (f : α → α) : Nat → List α → List α
  | _, [] => []
  | 0, x :: t => f x :: t
  | i + 1, x :: t => x :: updAt f i t

/-- Bit `i` of a bit set. -/
def inSet {n : Nat} (w : BitVec n) (i : Nat) : Bool := w.getLsbD i

/-- A bit set with bit `i` at `b`. -/
def putBit {n : Nat} (w : BitVec n) (i : Nat) (b : Bool) : BitVec n :=
  if b then w ||| BitVec.ofNat n (2 ^ i) else w &&& ~~~ (BitVec.ofNat n (2 ^ i))

/-- Insert an element into a list sorted by `lt`, after its equals. -/
def insertBy {α : Type} (lt : α → α → Bool) (a : α) : List α → List α
  | [] => [a]
  | b :: t => if lt a b then a :: b :: t else b :: insertBy lt a t

/-- A list sorted by `lt`, equals in their order. -/
def sortBy {α : Type} (lt : α → α → Bool) (l : List α) : List α := l.foldl (fun r a => insertBy lt a r) []

/-- A list of numbers sorted. -/
def sortNat (l : List Nat) : List Nat := sortBy (fun a b => decide (a < b)) l

/-- The first element that none is less than by `lt`. -/
def leastBy {α : Type} (lt : α → α → Bool) : List α → Option α
  | [] => none
  | a :: t => some (t.foldl (fun m b => if lt b m then b else m) a)

/-- One bit as a number. -/
def b2n (b : Bool) : Nat := if b then 1 else 0

/-- Sum of a list of numbers. -/
def sumNat (l : List Nat) : Nat := l.foldl (· + ·) 0

end Sys2Proof.Machine
end

