-- ==== Sys2Proof/Machine/RegMap.lean ====
section
/-! DEFINITION. The register pages of the IB960: the page-slot map (R689), the common page header (R683)
and, block by block, the register tables of the chapters: offset, access code (R8), the bits that exist,
the bits a host write acts on, and the reset value. A register is named `Reg.<BLOCK>.<REGISTER>`, with the
page's instance first and the index inside the page second where there are such. -/

namespace Sys2Proof.Machine

/-- The block types of the page-slot map (R689). -/
inductive Blk where
  | CHART | TOP | AON | TSC | CLK | PWR | VRC | PIN | DARN | JRNL | HAL | SAFE | CMP | WDG | GATH | HOST | FUNC | DISP | KVW | TXT | JPG | AUG | ENG | FCE | CMN | MEMC | LINK | SFE | AFE | PGEN | ENC | CXP | CSI | TSN | SSI | CEU
  deriving DecidableEq, Repr

/-- The access codes of R8. -/
inductive Access where
  | RO | RW | WO | W1C | RC | RWL
  deriving DecidableEq, Repr

/-- A register: the block, the instance of its page, and the byte offset in the page. -/
structure RegRef where
  blk  : Blk
  inst : Nat
  off  : Nat
  deriving DecidableEq, Repr

/-- One row of a register table: `n` registers `stride` bytes apart from offset `off`; `mask` the bits that
exist, `wmask` the bits a write replaces (W1C: clears), `w1s` the bits a written 1 sets, `shared` one set of
registers across the block's pages (R683 CAPS.SHARED). -/
structure RegRow where
  off    : Nat
  n      : Nat
  stride : Nat
  acc    : Access
  mask   : Word
  wmask  : Word
  w1s    : Word
  reset  : Word
  shared : Bool
  deriving DecidableEq, Repr

/-- First page slot of a block (R689). -/
def Blk.slot : Blk → Nat
  | .CHART => 0x000
  | .TOP => 0x010
  | .AON => 0x011
  | .TSC => 0x012
  | .CLK => 0x013
  | .PWR => 0x014
  | .VRC => 0x015
  | .PIN => 0x016
  | .DARN => 0x017
  | .JRNL => 0x018
  | .HAL => 0x019
  | .SAFE => 0x01A
  | .CMP => 0x01B
  | .WDG => 0x01C
  | .GATH => 0x020
  | .HOST => 0x024
  | .FUNC => 0x040
  | .DISP => 0x060
  | .KVW => 0x061
  | .TXT => 0x065
  | .JPG => 0x066
  | .AUG => 0x067
  | .ENG => 0x080
  | .FCE => 0x0B0
  | .CMN => 0x0C0
  | .MEMC => 0x0D0
  | .LINK => 0x0E0
  | .SFE => 0x100
  | .AFE => 0x101
  | .PGEN => 0x105
  | .ENC => 0x110
  | .CXP => 0x118
  | .CSI => 0x120
  | .TSN => 0x140
  | .SSI => 0x144
  | .CEU => 0x145

/-- Number of pages of a block (R689). -/
def Blk.count : Blk → Nat
  | .CHART => 16
  | .TOP => 1
  | .AON => 1
  | .TSC => 1
  | .CLK => 1
  | .PWR => 1
  | .VRC => 1
  | .PIN => 1
  | .DARN => 1
  | .JRNL => 1
  | .HAL => 1
  | .SAFE => 1
  | .CMP => 1
  | .WDG => 4
  | .GATH => 4
  | .HOST => 1
  | .FUNC => 32
  | .DISP => 1
  | .KVW => 4
  | .TXT => 1
  | .JPG => 1
  | .AUG => 1
  | .ENG => 36
  | .FCE => 4
  | .CMN => 16
  | .MEMC => 8
  | .LINK => 4
  | .SFE => 1
  | .AFE => 4
  | .PGEN => 4
  | .ENC => 8
  | .CXP => 8
  | .CSI => 16
  | .TSN => 4
  | .SSI => 1
  | .CEU => 1

/-- Block type code (R689). -/
def Blk.code : Blk → Nat
  | .CHART => 0x0001
  | .TOP => 0x0002
  | .AON => 0x0003
  | .TSC => 0x0004
  | .CLK => 0x0005
  | .PWR => 0x0006
  | .VRC => 0x0007
  | .PIN => 0x0008
  | .DARN => 0x0009
  | .JRNL => 0x000A
  | .HAL => 0x000B
  | .SAFE => 0x000C
  | .CMP => 0x000D
  | .WDG => 0x000E
  | .GATH => 0x000F
  | .HOST => 0x0010
  | .FUNC => 0x0020
  | .DISP => 0x0021
  | .KVW => 0x0022
  | .TXT => 0x0023
  | .JPG => 0x0024
  | .AUG => 0x0025
  | .ENG => 0x0030
  | .FCE => 0x0031
  | .CMN => 0x0032
  | .MEMC => 0x0033
  | .LINK => 0x0034
  | .SFE => 0x0040
  | .AFE => 0x0041
  | .PGEN => 0x0042
  | .ENC => 0x0043
  | .CXP => 0x0044
  | .CSI => 0x0045
  | .TSN => 0x0050
  | .SSI => 0x0051
  | .CEU => 0x0052

/-- The blocks in ascending slot order (R689, R691). -/
def Blk.all : List Blk :=
  [.CHART, .TOP, .AON, .TSC, .CLK, .PWR, .VRC, .PIN, .DARN, .JRNL, .HAL, .SAFE, .CMP, .WDG, .GATH, .HOST, .FUNC, .DISP, .KVW, .TXT, .JPG, .AUG, .ENG, .FCE, .CMN, .MEMC, .LINK, .SFE, .AFE, .PGEN, .ENC, .CXP, .CSI, .TSN, .SSI, .CEU]

/-- The page at a slot, `none` where the slot is unpopulated (R689). -/
def pageAt (slot : Nat) : Option (Blk × Nat) :=
  (Blk.all.find? fun b => decide (b.slot ≤ slot ∧ slot < b.slot + b.count)).map fun b => (b, slot - b.slot)

/-- The common page header (R683). -/
def headerRows : List RegRow :=
  [⟨0x000, 1, 4, .RO, 0xFFFFFFFF, 0x00000000, 0, 0, false⟩,   -- BLOCK_ID
   ⟨0x004, 1, 4, .RO, 0x0000FFFF, 0x00000000, 0, 0, false⟩,   -- VERSION
   ⟨0x008, 1, 4, .RO, 0x0000073F, 0x00000000, 0, 0, false⟩,   -- CAPS
   ⟨0x00C, 1, 4, .RO, 0x0000001F, 0x00000000, 0, 0, false⟩,   -- STATUS
   ⟨0x010, 1, 4, .RO, 0xFFFFFFFF, 0x00000000, 0, 0, false⟩,   -- IRQ_PEND
   ⟨0x014, 1, 4, .WO, 0x00000000, 0x00000000, 0, 0, false⟩,   -- IRQ_PEND_SET
   ⟨0x018, 1, 4, .WO, 0x00000000, 0x00000000, 0, 0, false⟩,   -- IRQ_PEND_CLR
   ⟨0x01C, 1, 4, .RO, 0xFFFFFFFF, 0x00000000, 0, 0, false⟩,   -- IRQ_MASK
   ⟨0x020, 1, 4, .WO, 0x00000000, 0x00000000, 0, 0, false⟩,   -- IRQ_MASK_SET
   ⟨0x024, 1, 4, .WO, 0x00000000, 0x00000000, 0, 0, false⟩,   -- IRQ_MASK_CLR
   ⟨0x028, 1, 4, .W1C, 0xFFFFFF7F, 0x00FFFF7F, 0, 0, false⟩,   -- ERR_STATUS
   ⟨0x02C, 1, 4, .W1C, 0xFF1FFFFC, 0x01000000, 0, 0, false⟩,   -- ACC_ERR
   ⟨0x030, 1, 4, .RO, 0xFFFFFFFF, 0x00000000, 0, 0, false⟩,   -- WRITE_COUNT
   ⟨0x034, 1, 4, .RO, 0x00000003, 0x00000000, 0, 0, false⟩]   -- LOCK_OWNER

/-- Block registers of CHART (R703). -/
def rowsCHART : List RegRow :=
  [⟨0x040, 1, 0x04, .RO, 0x00FFFFFF, 0x00000000, 0x0, 0x00031001, false⟩,   -- CHART_INFO
   ⟨0x044, 1, 0x04, .RO, 0xFFFFFFFF, 0x00000000, 0x0, 0x000000C0, false⟩,   -- ENTRY_COUNT
   ⟨0x048, 1, 0x04, .RO, 0xFFFFFFFF, 0x00000000, 0x0, 0x00000000, false⟩,   -- CHART_CRC
   ⟨0x04C, 1, 0x04, .RO, 0xFFFFFFFF, 0x00000000, 0x0, 0x00000145, false⟩]   -- SLOT_LIMIT

/-- Block registers of TOP (R701). -/
def rowsTOP : List RegRow :=
  [⟨0x040, 1, 0x04, .RO, 0x0FFFFFFF, 0x00000000, 0x0, 0x04240003, false⟩,   -- FAMILY
   ⟨0x044, 1, 0x04, .RO, 0xFFFFFFFF, 0x00000000, 0x0, 0x00000000, false⟩,   -- UNIQUE_ID_LO
   ⟨0x048, 1, 0x04, .RO, 0xFFFFFFFF, 0x00000000, 0x0, 0x00000000, false⟩,   -- UNIQUE_ID_HI
   ⟨0x04C, 1, 0x04, .RW, 0xFFFFFFFF, 0xFFFFFFFF, 0x0, 0x00000000, false⟩,   -- SCRATCH
   ⟨0x050, 1, 0x04, .WO, 0x00000000, 0x00000000, 0x0, 0x00000000, false⟩,   -- LOCK_CMD
   ⟨0x054, 1, 0x04, .RO, 0x0000FF03, 0x00000000, 0x0, 0x00000000, false⟩,   -- LOCK_RESULT
   ⟨0x058, 1, 0x04, .RO, 0x00003FFF, 0x00000000, 0x0, 0x00003FFF, false⟩,   -- ACC_LAST
   ⟨0x05C, 1, 0x04, .W1C, 0x00000003, 0x00000003, 0x0, 0x00000000, false⟩]   -- TOP_EVENTS

/-- Block registers of AON (R726). -/
def rowsAON : List RegRow :=
  [⟨0x040, 1, 0x04, .RO, 0x0000003F, 0x00000000, 0x0, 0x00000001, false⟩,   -- RST_CAUSE
   ⟨0x044, 1, 0x04, .W1C, 0x0000000F, 0x0000000F, 0x0, 0x00000000, false⟩,   -- RST_FLAGS
   ⟨0x048, 1, 0x04, .RO, 0xFFFFFFFF, 0x00000000, 0x0, 0x00000000, false⟩,   -- HOLD_MS
   ⟨0x04C, 1, 0x04, .RO, 0xFFFFFFFF, 0x00000000, 0x0, 0x00000000, false⟩,   -- RST_COUNT
   ⟨0x050, 1, 0x04, .RW, 0x00000001, 0x00000001, 0x0, 0x00000001, false⟩,   -- RST_CFG
   ⟨0x054, 1, 0x04, .WO, 0x00000000, 0x00000000, 0x0, 0x00000000, false⟩,   -- RST_CMD
   ⟨0x058, 1, 0x04, .RO, 0x013FFF3F, 0x00000000, 0x0, 0x00000000, false⟩,   -- BOOT_STATUS
   ⟨0x05C, 1, 0x04, .WO, 0x00000000, 0x00000000, 0x0, 0x00000000, false⟩,   -- BOOT_CMD
   ⟨0x060, 1, 0x04, .RO, 0x0000003F, 0x00000000, 0x0, 0x00000000, false⟩,   -- FUSE_ROLLBACK
   ⟨0x064, 1, 0x04, .RO, 0xFFFF007F, 0x00000000, 0x0, 0x00000000, false⟩,   -- START_RESULT
   ⟨0x068, 1, 0x04, .RO, 0xFFFFFFFF, 0x00000000, 0x0, 0x00000000, false⟩,   -- BOOT_TIME
   ⟨0x06C, 1, 0x04, .RO, 0xFFFFFFFF, 0x00000000, 0x0, 0x00000000, false⟩,   -- PF_TSC_LO
   ⟨0x070, 1, 0x04, .RO, 0xFFFFFFFF, 0x00000000, 0x0, 0x00000000, false⟩,   -- PF_TSC_HI
   ⟨0x074, 1, 0x04, .RO, 0x8FFF1FFF, 0x00000000, 0x0, 0x00000000, false⟩,   -- PF_INFO
   ⟨0x078, 1, 0x04, .RO, 0x0001FFFF, 0x00000000, 0x0, 0x00000000, false⟩]   -- PF_JRNL

/-- Block registers of TSC (R59). -/
def rowsTSC : List RegRow :=
  [⟨0x040, 1, 0x04, .RO, 0xFFFFFFFF, 0x00000000, 0x0, 0x00000000, false⟩,   -- TSC_LO
   ⟨0x044, 1, 0x04, .RO, 0xFFFFFFFF, 0x00000000, 0x0, 0x00000000, false⟩,   -- TSC_HI
   ⟨0x048, 1, 0x04, .RW, 0x00000003, 0x00000003, 0x0, 0x00000003, false⟩,   -- TSC_CTRL
   ⟨0x04C, 1, 0x04, .RO, 0x0000000F, 0x00000000, 0x0, 0x00000000, false⟩,   -- TSC_STATUS
   ⟨0x050, 1, 0x04, .RW, 0xFFFFFFFF, 0xFFFFFFFF, 0x0, 0x00000000, false⟩,   -- SLEW_PPB
   ⟨0x054, 1, 0x04, .WO, 0x00000000, 0x00000000, 0x0, 0x00000000, false⟩,   -- TSC_CMD
   ⟨0x058, 1, 0x04, .RW, 0xFFFFFFFF, 0xFFFFFFFF, 0x0, 0x00000000, false⟩,   -- TSC_SET_LO
   ⟨0x05C, 1, 0x04, .RW, 0xFFFFFFFF, 0xFFFFFFFF, 0x0, 0x00000000, false⟩,   -- TSC_SET_HI
   ⟨0x060, 1, 0x04, .RO, 0xFFFFFFFF, 0x00000000, 0x0, 0x00000000, false⟩]   -- SLEEP_CYCLES

/-- Block registers of CLK (R624). -/
def rowsCLK : List RegRow :=
  [⟨0x040, 1, 0x04, .RW, 0x00000001, 0x00000001, 0x0, 0x00000001, false⟩,   -- CLK_CTRL
   ⟨0x044, 1, 0x04, .RO, 0x00071FFF, 0x00000000, 0x0, 0x00000000, false⟩,   -- CLK_STATUS
   ⟨0x048, 1, 0x04, .RO, 0x00007777, 0x00000000, 0x0, 0x00000000, false⟩,   -- STRIPE_FREQ
   ⟨0x04C, 1, 0x04, .RO, 0xFFFFFFFF, 0x00000000, 0x0, 0x00000000, false⟩,   -- REF_DEV
   ⟨0x050, 1, 0x04, .W1C, 0x00071FFF, 0x00071FFF, 0x0, 0x00000000, false⟩,   -- CLK_EVENTS
   ⟨0x054, 1, 0x04, .RC, 0xFFFFFFFF, 0x00000000, 0x0, 0x00000000, false⟩]   -- LOCK_LOSS_CNT

/-- Block registers of PWR (R620). -/
def rowsPWR : List RegRow :=
  [⟨0x040, 1, 0x04, .RW, 0x000000FF, 0x000000FF, 0x0, 0x00000042, false⟩,   -- PWR_CTRL
   ⟨0x044, 1, 0x04, .RO, 0x00000F7F, 0x00000000, 0x0, 0x00000000, false⟩,   -- PWR_STATUS
   ⟨0x048, 1, 0x04, .RW, 0x00FF01FF, 0x00FF01FF, 0x0, 0x0001012C, false⟩,   -- CAP
   ⟨0x04C, 1, 0x04, .RW, 0x0FFF0FFF, 0x0FFF0FFF, 0x0, 0x0258044C, false⟩,   -- FLOORS
   ⟨0x050, 1, 0x04, .RO, 0xFFFFFFFF, 0x00000000, 0x0, 0x00000000, false⟩,   -- PKG_POWER
   ⟨0x054, 1, 0x04, .RO, 0xFFFFFFFF, 0x00000000, 0x0, 0x00000000, false⟩,   -- CORE_POWER
   ⟨0x058, 1, 0x04, .RO, 0xFFFFFFFF, 0x00000000, 0x0, 0x00010000, false⟩,   -- EST_CORR
   ⟨0x05C, 1, 0x04, .RW, 0x001F03FF, 0x001F03FF, 0x0, 0x00060020, false⟩,   -- IRL_CFG
   ⟨0x060, 1, 0x04, .RW, 0x00FFFFFF, 0x00FFFFFF, 0x0, 0x0070645A, false⟩,   -- THERM_CFG
   ⟨0x064, 1, 0x04, .RO, 0x003F01FF, 0x00000000, 0x0, 0x00000000, false⟩,   -- THERM_STATUS
   ⟨0x068, 1, 0x04, .RW, 0x0000003F, 0x0000003F, 0x0, 0x00000000, false⟩,   -- THERM_SEL
   ⟨0x06C, 1, 0x04, .RO, 0x000001FF, 0x00000000, 0x0, 0x00000000, false⟩,   -- THERM_READ
   ⟨0x070, 1, 0x04, .WO, 0x00000000, 0x00000000, 0x0, 0x00000000, false⟩,   -- DEV_CMD
   ⟨0x074, 1, 0x04, .RO, 0x000FFF03, 0x00000000, 0x0, 0x00000000, false⟩,   -- DEV_RESULT
   ⟨0x078, 1, 0x04, .RW, 0x00000007, 0x00000007, 0x0, 0x00000003, false⟩,   -- WAKE_CFG
   ⟨0x07C, 1, 0x04, .RW, 0xFFFFFFFF, 0xFFFFFFFF, 0x0, 0x00000000, false⟩,   -- WAKE_TSC_LO
   ⟨0x080, 1, 0x04, .RW, 0xFFFFFFFF, 0xFFFFFFFF, 0x0, 0x00000000, false⟩,   -- WAKE_TSC_HI
   ⟨0x084, 1, 0x04, .RW, 0x0000FFFF, 0x0000FFFF, 0x0, 0x00000064, false⟩,   -- RET_US
   ⟨0x088, 1, 0x04, .RW, 0x01FF0FFF, 0x01FF0FFF, 0x0, 0x00780000, false⟩,   -- GRP_CFG
   ⟨0x08C, 1, 0x04, .RO, 0x01FF01FF, 0x00000000, 0x0, 0x00000000, false⟩,   -- GRP_STATUS
   ⟨0x090, 1, 0x04, .RW, 0x0000003F, 0x0000003F, 0x0, 0x00000000, false⟩,   -- ENG_CLK_SEL
   ⟨0x094, 1, 0x04, .RO, 0x0000071F, 0x00000000, 0x0, 0x00000000, false⟩,   -- ENG_CLK
   ⟨0x098, 1, 0x04, .W1C, 0x0000001F, 0x0000001F, 0x0, 0x00000000, false⟩,   -- CAP_EVENTS
   ⟨0x09C, 1, 0x04, .RO, 0x0000000F, 0x00000000, 0x0, 0x00000000, false⟩,   -- RAIL_LOST
   ⟨0x0A0, 1, 0x04, .RC, 0xFFFFFFFF, 0x00000000, 0x0, 0x00000000, false⟩]   -- THROT_TIME

/-- Block registers of VRC (R622). -/
def rowsVRC : List RegRow :=
  [⟨0x040, 1, 0x04, .RW, 0x0000FF01, 0x0000FF01, 0x0, 0x00001401, false⟩,   -- VRC_CTRL
   ⟨0x044, 1, 0x04, .RO, 0x017F03FF, 0x00000000, 0x0, 0x00000000, false⟩,   -- VRC_STATUS
   ⟨0x048, 1, 0x04, .RO, 0x03FF03FF, 0x00000000, 0x0, 0x00000000, false⟩,   -- VTARGET
   ⟨0x04C, 1, 0x04, .RO, 0x0000FFFF, 0x00000000, 0x0, 0x00000000, false⟩,   -- IOUT
   ⟨0x050, 1, 0x04, .RO, 0x000003FF, 0x00000000, 0x0, 0x00000168, false⟩,   -- ILIM
   ⟨0x054, 1, 0x04, .RO, 0x03FFFFFF, 0x00000000, 0x0, 0x00FFFFFF, false⟩,   -- PHASE_EN
   ⟨0x058, 1, 0x04, .RO, 0x03FFFFFF, 0x00000000, 0x0, 0x00000000, false⟩,   -- PHASE_FAIL
   ⟨0x05C, 1, 0x04, .RO, 0x03FFFFFF, 0x00000000, 0x0, 0x00000000, false⟩,   -- SENSE_FAIL
   ⟨0x060, 1, 0x04, .RW, 0x0000001F, 0x0000001F, 0x0, 0x00000000, false⟩,   -- PHASE_SEL
   ⟨0x064, 1, 0x04, .RO, 0x03FFFFFF, 0x00000000, 0x0, 0x00000000, false⟩,   -- PHASE_I
   ⟨0x068, 1, 0x04, .RW, 0x0000FFFF, 0x0000FFFF, 0x0, 0x00006428, false⟩,   -- DROOP_CFG
   ⟨0x06C, 1, 0x04, .RC, 0xFFFFFFFF, 0x00000000, 0x0, 0x00000000, false⟩,   -- DROOP_CNT
   ⟨0x070, 1, 0x04, .RC, 0xFFFFFFFF, 0x00000000, 0x0, 0x00000000, false⟩,   -- STRETCH_CYC
   ⟨0x074, 1, 0x04, .RC, 0xFFFFFFFF, 0x00000000, 0x0, 0x00000000, false⟩,   -- ILIM_CNT
   ⟨0x078, 1, 0x04, .RO, 0x0000FFFF, 0x00000000, 0x0, 0x00000000, false⟩,   -- VIN
   ⟨0x07C, 1, 0x04, .W1C, 0x0000001F, 0x0000001F, 0x0, 0x00000000, false⟩]   -- VRC_EVENTS

/-- Block registers of PIN (R750). -/
def rowsPIN : List RegRow :=
  [⟨0x040, 1, 0x04, .RO, 0x00000703, 0x00000000, 0x0, 0x00000000, false⟩,   -- PIN_STATUS
   ⟨0x044, 1, 0x04, .RW, 0x0000007F, 0x0000007F, 0x0, 0x00000000, false⟩,   -- MUX_SEL
   ⟨0x048, 1, 0x04, .RWL, 0x0FFFFFFF, 0x0FFFFFFF, 0x0, 0x00000000, false⟩,   -- MUX_CFG
   ⟨0x04C, 1, 0x04, .RO, 0x000003FF, 0x00000000, 0x0, 0x00000000, false⟩,   -- MUX_STATE
   ⟨0x050, 1, 0x04, .RO, 0xFFFFFFFF, 0x00000000, 0x0, 0x00000000, false⟩,   -- GPIO_IN_LO
   ⟨0x054, 1, 0x04, .RO, 0x0000FFFF, 0x00000000, 0x0, 0x00000000, false⟩,   -- GPIO_IN_HI
   ⟨0x058, 1, 0x04, .RW, 0xFFFFFFFF, 0xFFFFFFFF, 0x0, 0x00000000, false⟩,   -- GPIO_OUT_LO
   ⟨0x05C, 1, 0x04, .RW, 0x0000FFFF, 0x0000FFFF, 0x0, 0x00000000, false⟩,   -- GPIO_OUT_HI
   ⟨0x060, 4, 0x04, .W1C, 0xFFFFFFFF, 0xFFFFFFFF, 0x0, 0x00000000, false⟩,   -- EVT_PEND
   ⟨0x070, 1, 0x04, .RC, 0xFFFFFFFF, 0x00000000, 0x0, 0x00000000, false⟩,   -- SWITCH_CNT
   ⟨0x074, 1, 0x04, .RO, 0x00FFFF7F, 0x00000000, 0x0, 0x00000000, false⟩]   -- LAST_REFUSE

/-- Block registers of DARN (R673). -/
def rowsDARN : List RegRow :=
  [⟨0x040, 1, 0x04, .RW, 0x00000007, 0x00000007, 0x0, 0x00000005, false⟩,   -- DARN_CTRL
   ⟨0x044, 1, 0x04, .RO, 0x001FFF1F, 0x00000000, 0x0, 0x00000000, false⟩,   -- DARN_STATUS
   ⟨0x048, 1, 0x04, .RO, 0xFFFFFFFF, 0x00000000, 0x0, 0x00000000, false⟩,   -- MAP_SEQ
   ⟨0x04C, 1, 0x04, .RO, 0x03FFFFFF, 0x00000000, 0x0, 0x02FF1111, false⟩,   -- INVENTORY
   ⟨0x050, 1, 0x04, .RO, 0xFFFFFFFF, 0x00000000, 0x0, 0x04020100, false⟩,   -- SPARE_ENG_LO
   ⟨0x054, 1, 0x04, .RO, 0xFFFFFFFF, 0x00000000, 0x0, 0x00000008, false⟩,   -- SPARE_ENG_HI
   ⟨0x058, 1, 0x04, .RO, 0xFFFFFFFF, 0x00000000, 0x0, 0x00000000, false⟩,   -- FAILED_ENG_LO
   ⟨0x05C, 1, 0x04, .RO, 0xFFFFFFFF, 0x00000000, 0x0, 0x00000000, false⟩,   -- FAILED_ENG_HI
   ⟨0x060, 1, 0x04, .WO, 0x00000000, 0x00000000, 0x0, 0x00000000, false⟩,   -- DARN_CMD
   ⟨0x064, 1, 0x04, .RO, 0x0000FF03, 0x00000000, 0x0, 0x00000000, false⟩,   -- DARN_RESULT
   ⟨0x068, 1, 0x04, .RO, 0xFFFFFF1F, 0x00000000, 0x0, 0x00000000, false⟩,   -- PENDING
   ⟨0x06C, 1, 0x04, .RW, 0x000000FF, 0x000000FF, 0x0, 0x00000004, false⟩,   -- ROW_THRESH
   ⟨0x070, 1, 0x04, .RW, 0x000003FF, 0x000003FF, 0x0, 0x0000003C, false⟩,   -- ENG_SLOW
   ⟨0x074, 1, 0x04, .RW, 0xFFFFFF0F, 0xFFFFFF0F, 0x0, 0x00000000, false⟩,   -- WEAR_SEL
   ⟨0x078, 1, 0x04, .RO, 0x0001FFFF, 0x00000000, 0x0, 0x00000000, false⟩,   -- WEAR_DATA
   ⟨0x07C, 1, 0x04, .RO, 0xFFFF01FF, 0x00000000, 0x0, 0x00000000, false⟩,   -- LOG_COUNT
   ⟨0x080, 1, 0x04, .RW, 0x000000FF, 0x000000FF, 0x0, 0x00000000, false⟩,   -- LOG_SEL
   ⟨0x084, 4, 0x04, .RO, 0xFFFFFFFF, 0x00000000, 0x0, 0x00000000, false⟩,   -- LOG_DATA
   ⟨0x0A0, 8, 0x04, .RO, 0xFFFFFFFF, 0x00000000, 0x0, 0x00000000, false⟩]   -- ENG_MAP

/-- Block registers of JRNL (R704). -/
def rowsJRNL : List RegRow :=
  [⟨0x040, 1, 0x04, .RW, 0xFFFF0001, 0xFFFF0001, 0x0, 0x80000000, false⟩,   -- JRNL_CTRL
   ⟨0x044, 1, 0x04, .RW, 0x07E00000, 0x07E00000, 0x0, 0x00000000, false⟩,   -- JRNL_BASE
   ⟨0x048, 1, 0x04, .RW, 0xFFFFFFFF, 0xFFFFFFFF, 0x0, 0x00000000, false⟩,   -- JRNL_HEAD
   ⟨0x04C, 1, 0x04, .RO, 0xFFFFFFFF, 0x00000000, 0x0, 0x00000000, false⟩,   -- JRNL_TAIL
   ⟨0x050, 1, 0x04, .RC, 0xFFFFFFFF, 0x00000000, 0x0, 0x00000000, false⟩,   -- JRNL_LOST
   ⟨0x054, 1, 0x04, .RO, 0x0007FFFF, 0x00000000, 0x0, 0x00000000, false⟩]   -- JRNL_STATUS

/-- Block registers of HAL (R565). -/
def rowsHAL : List RegRow :=
  [⟨0x040, 1, 0x04, .RW, 0x007FFFFF, 0x007FFFFF, 0x0, 0x00000000, false⟩,   -- HAL_CTRL
   ⟨0x044, 1, 0x04, .RO, 0x0001FF7F, 0x00000000, 0x0, 0x00000003, false⟩,   -- HAL_STATUS
   ⟨0x048, 1, 0x04, .RO, 0xFFFFFFFF, 0x00000000, 0x0, 0x00000000, false⟩,   -- EVENT_CNT
   ⟨0x04C, 1, 0x04, .RO, 0xFFFFFFFF, 0x00000000, 0x0, 0x00000000, false⟩,   -- AUDIT_FREE
   ⟨0x050, 4, 0x04, .RO, 0xFFFFFFFF, 0x00000000, 0x0, 0x00000000, false⟩,   -- SW_ID
   ⟨0x060, 1, 0x04, .RO, 0xFFFFFFFF, 0x00000000, 0x0, 0x00000000, false⟩,   -- FW_CRC
   ⟨0x064, 1, 0x04, .RO, 0xFFFFFFFF, 0x00000000, 0x0, 0x00000000, false⟩,   -- OP_SECONDS
   ⟨0x068, 1, 0x04, .WO, 0x00000000, 0x00000000, 0x0, 0x00000000, false⟩,   -- REQ_CMD
   ⟨0x06C, 1, 0x04, .RO, 0xFFFFFF07, 0x00000000, 0x0, 0x00000000, false⟩,   -- REQ_STATUS
   ⟨0x070, 1, 0x04, .WO, 0x00000000, 0x00000000, 0x0, 0x00000000, false⟩,   -- RES_POP
   ⟨0x074, 1, 0x04, .RO, 0xFFFFFFFF, 0x00000000, 0x0, 0x00000000, false⟩,   -- RES_STAMP_LO
   ⟨0x078, 1, 0x04, .RO, 0xFFFFFFFF, 0x00000000, 0x0, 0x00000000, false⟩,   -- RES_STAMP_HI
   ⟨0x07C, 1, 0x04, .RC, 0xFFFFFFFF, 0x00000000, 0x0, 0x00000000, false⟩,   -- LOST_CNT
   ⟨0x080, 8, 0x04, .RW, 0xFFFFFFFF, 0xFFFFFFFF, 0x0, 0x00000000, false⟩,   -- REQ
   ⟨0x0A0, 8, 0x04, .RO, 0xFFFFFFFF, 0x00000000, 0x0, 0x00000000, false⟩,   -- REPLY
   ⟨0x0C0, 8, 0x04, .RO, 0xFFFFFFFF, 0x00000000, 0x0, 0x00000000, false⟩,   -- RES
   ⟨0x0E0, 1, 0x04, .RC, 0xFFFFFFFF, 0x00000000, 0x0, 0x00000000, false⟩,   -- UNIT_CNT
   ⟨0x0E4, 1, 0x04, .RC, 0xFFFFFFFF, 0x00000000, 0x0, 0x00000000, false⟩]   -- LANE_ERR

/-- Block registers of SAFE (R529). -/
def rowsSAFE : List RegRow :=
  [⟨0x040, 1, 0x04, .RWL, 0x00000007, 0x00000007, 0x0, 0x00000004, false⟩,   -- SAFE_CTRL
   ⟨0x044, 1, 0x04, .RO, 0x00FF07F7, 0x00000000, 0x0, 0x00000000, false⟩,   -- SAFE_STATE
   ⟨0x048, 1, 0x04, .WO, 0x00000000, 0x00000000, 0x0, 0x00000000, false⟩,   -- SAFE_CMD
   ⟨0x04C, 1, 0x04, .RO, 0xFFFFFF03, 0x00000000, 0x0, 0x00000000, false⟩,   -- CMD_RESULT
   ⟨0x050, 1, 0x04, .RWL, 0x01FF1FFF, 0x01FF1FFF, 0x0, 0x00000000, false⟩,   -- CH_A
   ⟨0x054, 1, 0x04, .RWL, 0xFFFFFFFF, 0xFFFFFFFF, 0x0, 0x00000000, false⟩,   -- CH_B
   ⟨0x058, 1, 0x04, .RWL, 0xFFFFFFFF, 0xFFFFFFFF, 0x0, 0x000005DC, false⟩,   -- TIMING
   ⟨0x05C, 1, 0x04, .RWL, 0x00FFFFFF, 0x00FFFFFF, 0x0, 0x00002710, false⟩,   -- DEG_LIMIT
   ⟨0x060, 1, 0x04, .RWL, 0x0000FFFF, 0x0000FFFF, 0x0, 0x0000FFFF, false⟩,   -- STOP_ZONES
   ⟨0x064, 1, 0x04, .RWL, 0xFFFF1FFF, 0xFFFF1FFF, 0x0, 0x03E80000, false⟩,   -- SMSG
   ⟨0x068, 1, 0x04, .RWL, 0x03FF03FF, 0x03FF03FF, 0x0, 0x006400C8, false⟩,   -- TPULSE
   ⟨0x06C, 1, 0x04, .RWL, 0x0000FFFF, 0x0000FFFF, 0x0, 0x000003E8, false⟩,   -- TEST_CYCLE
   ⟨0x070, 1, 0x04, .RO, 0x00FF01FF, 0x00000000, 0x0, 0x00000000, false⟩,   -- TEST_STATUS
   ⟨0x074, 1, 0x04, .RWL, 0x07FF07FF, 0x07FF07FF, 0x0, 0x00000000, false⟩,   -- C2_REGION
   ⟨0x078, 1, 0x04, .RC, 0x00FFFFFF, 0x00000000, 0x0, 0x00000000, false⟩,   -- FAULT_CNT
   ⟨0x07C, 1, 0x04, .RC, 0xFFFFFFFF, 0x00000000, 0x0, 0x00000000, false⟩,   -- TRANS_CNT
   ⟨0x080, 1, 0x04, .RC, 0xFFFFFFFF, 0x00000000, 0x0, 0x00000000, false⟩,   -- GAP_MAX
   ⟨0x084, 1, 0x04, .RO, 0xFFFFFFFF, 0x00000000, 0x0, 0x00000000, false⟩,   -- FAULT_TSC
   ⟨0x100, 16, 0x04, .RWL, 0x00008FFF, 0x00008FFF, 0x0, 0x00000000, false⟩]   -- AUTH

/-- Block registers of CMP (R531). -/
def rowsCMP : List RegRow :=
  [⟨0x040, 1, 0x04, .RWL, 0x00000001, 0x00000001, 0x0, 0x00000000, false⟩,   -- CMP_CTRL
   ⟨0x044, 1, 0x04, .RO, 0xFFFFFFFF, 0x00000000, 0x0, 0x00000000, false⟩,   -- CMP_STATUS
   ⟨0x048, 1, 0x04, .RWL, 0xFFFFFFFF, 0xFFFFFFFF, 0x0, 0x00000000, false⟩,   -- MODEL_A
   ⟨0x04C, 1, 0x04, .RWL, 0xFFFFFFFF, 0xFFFFFFFF, 0x0, 0x00000000, false⟩,   -- MODEL_B
   ⟨0x050, 1, 0x04, .RWL, 0x0000FFFF, 0x0000FFFF, 0x0, 0x0000012C, false⟩,   -- PAIR_WAIT
   ⟨0x054, 1, 0x04, .RWL, 0xFFFFFFFF, 0xFFFFFFFF, 0x0, 0x04080203, false⟩,   -- LIMITS
   ⟨0x058, 1, 0x04, .RWL, 0x81FF01FF, 0x81FF01FF, 0x0, 0x00000000, false⟩,   -- CMP_IO
   ⟨0x05C, 1, 0x04, .RO, 0xFFFFFFFF, 0x00000000, 0x0, 0x00000000, false⟩,   -- LAST_VERDICT
   ⟨0x060, 1, 0x04, .RC, 0xFFFFFFFF, 0x00000000, 0x0, 0x00000000, false⟩,   -- PAIR_CNT
   ⟨0x064, 1, 0x04, .RC, 0xFFFFFFFF, 0x00000000, 0x0, 0x00000000, false⟩,   -- DISC_CNT
   ⟨0x068, 1, 0x04, .RC, 0xFFFFFFFF, 0x00000000, 0x0, 0x00000000, false⟩,   -- LATE_CNT
   ⟨0x06C, 1, 0x04, .RC, 0xFFFFFFFF, 0x00000000, 0x0, 0x00000000, false⟩]   -- AUTH_REFUSE

/-- Block registers of WDG (R532). -/
def rowsWDG : List RegRow :=
  [⟨0x040, 1, 0x04, .RWL, 0x00000001, 0x00000001, 0x0, 0x00000000, false⟩,   -- WDG_CTRL
   ⟨0x044, 1, 0x04, .RO, 0xFFFFFFFF, 0x00000000, 0x0, 0x00000000, false⟩,   -- WDG_STATUS
   ⟨0x048, 1, 0x04, .RC, 0xFFFFFFFF, 0x00000000, 0x0, 0x00000000, false⟩,   -- EARLY_CNT
   ⟨0x04C, 1, 0x04, .RC, 0xFFFFFFFF, 0x00000000, 0x0, 0x00000000, false⟩,   -- LATE_CNT
   ⟨0x100, 16, 0x10, .RWL, 0xFFFF3FFF, 0xFFFF3FFF, 0x0, 0x00000000, false⟩,   -- WD_CFG
   ⟨0x104, 16, 0x10, .RWL, 0xFFFFFFFF, 0xFFFFFFFF, 0x0, 0x00000000, false⟩,   -- WD_WIN
   ⟨0x108, 16, 0x10, .WO, 0x00000000, 0x00000000, 0x0, 0x00000000, false⟩,   -- WD_KICK
   ⟨0x10C, 16, 0x10, .RO, 0x03FFFFFF, 0x00000000, 0x0, 0x00000000, false⟩]   -- WD_STATUS

/-- Block registers of GATH (R485). -/
def rowsGATH : List RegRow :=
  [⟨0x040, 1, 0x04, .RW, 0x00000001, 0x00000001, 0x0, 0x00000001, false⟩,   -- GATH_CTRL
   ⟨0x044, 1, 0x04, .RO, 0x03FF01FF, 0x00000000, 0x0, 0x00000000, false⟩,   -- GATH_STATUS
   ⟨0x048, 1, 0x04, .RW, 0xFFFFFFFF, 0xFFFFFFFF, 0x0, 0x03E80100, false⟩,   -- STORM_CFG
   ⟨0x04C, 1, 0x04, .RO, 0x000003FF, 0x00000000, 0x0, 0x000003FF, false⟩,   -- STORM_LAST
   ⟨0x050, 1, 0x04, .RC, 0xFFFFFFFF, 0x00000000, 0x0, 0x00000000, false⟩,   -- GDELIV_CNT
   ⟨0x054, 1, 0x04, .RC, 0xFFFFFFFF, 0x00000000, 0x0, 0x00000000, false⟩,   -- STORM_CNT
   ⟨0x058, 1, 0x04, .RC, 0xFFFFFFFF, 0x00000000, 0x0, 0x00000000, false⟩,   -- EOI_ERR
   ⟨0x080, 8, 0x04, .RO, 0xFFFFFFFF, 0x00000000, 0x0, 0x00000000, false⟩,   -- SRC_PEND
   ⟨0x0A0, 8, 0x04, .WO, 0x00000000, 0x00000000, 0x0, 0x00000000, false⟩,   -- SRC_PEND_SET
   ⟨0x0C0, 8, 0x04, .WO, 0x00000000, 0x00000000, 0x0, 0x00000000, false⟩,   -- SRC_PEND_CLR
   ⟨0x0E0, 8, 0x04, .RO, 0xFFFFFFFF, 0x00000000, 0x0, 0xFFFFFFFF, false⟩,   -- SRC_MASK
   ⟨0x100, 8, 0x04, .WO, 0x00000000, 0x00000000, 0x0, 0x00000000, false⟩,   -- SRC_MASK_SET
   ⟨0x120, 8, 0x04, .WO, 0x00000000, 0x00000000, 0x0, 0x00000000, false⟩,   -- SRC_MASK_CLR
   ⟨0x140, 8, 0x04, .RO, 0xFFFFFFFF, 0x00000000, 0x0, 0x00000000, false⟩,   -- SRC_INSVC
   ⟨0x160, 8, 0x04, .W1C, 0xFFFFFFFF, 0xFFFFFFFF, 0x0, 0x00000000, false⟩,   -- SRC_STORM
   ⟨0x180, 8, 0x04, .RO, 0xFFFFFFFF, 0x00000000, 0x0, 0x00000000, false⟩,   -- SRC_LEVEL
   ⟨0x400, 256, 0x04, .RW, 0x00001FFF, 0x00001FFF, 0x0, 0x00001800, false⟩]   -- SRC_CFG

/-- Block registers of HOST (R702). -/
def rowsHOST : List RegRow :=
  [⟨0x040, 1, 0x04, .RO, 0xFFFFFFFF, 0x00000000, 0x0, 0x09601F7D, false⟩,   -- PCI_ID
   ⟨0x044, 1, 0x04, .RO, 0x0001F1F7, 0x00000000, 0x0, 0x00000000, false⟩,   -- LINK_STATUS
   ⟨0x048, 1, 0x04, .RO, 0x000000FF, 0x00000000, 0x0, 0x00000000, false⟩,   -- SRIOV_STATUS
   ⟨0x04C, 1, 0x04, .RO, 0xFFFFFFFF, 0x00000000, 0x0, 0x00000000, false⟩,   -- VF_ENABLED
   ⟨0x050, 1, 0x04, .RC, 0xFFFFFFFF, 0x00000000, 0x0, 0x00000000, false⟩,   -- AER_CORR
   ⟨0x054, 1, 0x04, .RC, 0xFFFFFFFF, 0x00000000, 0x0, 0x00000000, false⟩,   -- AER_UNCORR
   ⟨0x058, 1, 0x04, .RC, 0xFFFFFFFF, 0x00000000, 0x0, 0x00000000, false⟩,   -- CA_CNT
   ⟨0x05C, 1, 0x04, .RC, 0xFFFFFFFF, 0x00000000, 0x0, 0x00000000, false⟩,   -- UR_CNT
   ⟨0x060, 1, 0x04, .RC, 0xFFFFFFFF, 0x00000000, 0x0, 0x00000000, false⟩,   -- CTO_CNT
   ⟨0x064, 1, 0x04, .RC, 0xFFFFFFFF, 0x00000000, 0x0, 0x00000000, false⟩,   -- POISON_CNT
   ⟨0x068, 1, 0x04, .W1C, 0xFFFFFFFF, 0x00008000, 0x0, 0x00000000, false⟩,   -- UNPOP_LOG
   ⟨0x06C, 1, 0x04, .W1C, 0x0000000F, 0x0000000F, 0x0, 0x00000000, false⟩]   -- LINK_EVENTS

/-- Block registers of FUNC (R483). -/
def rowsFUNC : List RegRow :=
  [⟨0x040, 1, 0x04, .RO, 0x0000077F, 0x00000000, 0x0, 0x00000000, false⟩,   -- FUNC_INFO
   ⟨0x044, 1, 0x04, .RW, 0x003FFFFF, 0x003FFFFF, 0x0, 0x00000100, false⟩,   -- QOS
   ⟨0x048, 1, 0x04, .RO, 0x0003FFFF, 0x00000000, 0x0, 0x00000000, false⟩,   -- CTX_COUNT
   ⟨0x04C, 1, 0x04, .W1C, 0x0000003F, 0x0000003F, 0x0, 0x00000000, false⟩,   -- NOTICE
   ⟨0x050, 1, 0x04, .RW, 0x00003F3F, 0x00003F3F, 0x0, 0x0000003F, false⟩,   -- NOTICE_CFG
   ⟨0x054, 1, 0x04, .WO, 0x00000000, 0x00000000, 0x0, 0x00000000, false⟩,   -- IRQ_EOI
   ⟨0x058, 1, 0x04, .RO, 0xFFFFFFFF, 0x00000000, 0x0, 0x00000000, false⟩,   -- VEC_PEND_LO
   ⟨0x05C, 1, 0x04, .RO, 0xFFFFFFFF, 0x00000000, 0x0, 0x00000000, false⟩,   -- VEC_PEND_HI
   ⟨0x060, 1, 0x04, .RO, 0xFFFFFFFF, 0x00000000, 0x0, 0x00000000, false⟩,   -- VEC_INSVC_LO
   ⟨0x064, 1, 0x04, .RO, 0xFFFFFFFF, 0x00000000, 0x0, 0x00000000, false⟩,   -- VEC_INSVC_HI
   ⟨0x068, 1, 0x04, .RO, 0xFFFFFFFF, 0x00000000, 0x0, 0x00000000, false⟩,   -- VEC_MASK_LO
   ⟨0x06C, 1, 0x04, .RO, 0xFFFFFFFF, 0x00000000, 0x0, 0x00000000, false⟩,   -- VEC_MASK_HI
   ⟨0x070, 1, 0x04, .WO, 0x00000000, 0x00000000, 0x0, 0x00000000, false⟩,   -- VEC_MASK_SET_LO
   ⟨0x074, 1, 0x04, .WO, 0x00000000, 0x00000000, 0x0, 0x00000000, false⟩,   -- VEC_MASK_SET_HI
   ⟨0x078, 1, 0x04, .WO, 0x00000000, 0x00000000, 0x0, 0x00000000, false⟩,   -- VEC_MASK_CLR_LO
   ⟨0x07C, 1, 0x04, .WO, 0x00000000, 0x00000000, 0x0, 0x00000000, false⟩,   -- VEC_MASK_CLR_HI
   ⟨0x080, 1, 0x04, .WO, 0x00000000, 0x00000000, 0x0, 0x00000000, false⟩,   -- MBOX_CMD
   ⟨0x084, 1, 0x04, .RO, 0x00000003, 0x00000000, 0x0, 0x00000000, false⟩,   -- MBOX_STATUS
   ⟨0x088, 1, 0x04, .RO, 0x0000001F, 0x00000000, 0x0, 0x00000000, false⟩,   -- FLR_LAST
   ⟨0x08C, 1, 0x04, .RC, 0xFFFFFFFF, 0x00000000, 0x0, 0x00000000, false⟩,   -- DELIV_CNT
   ⟨0x090, 1, 0x04, .RC, 0xFFFFFFFF, 0x00000000, 0x0, 0x00000000, false⟩,   -- HELD_CNT
   ⟨0x0C0, 8, 0x04, .RW, 0xFFFFFFFF, 0xFFFFFFFF, 0x0, 0x00000000, false⟩,   -- MBOX_TO_PF
   ⟨0x0E0, 8, 0x04, .RW, 0xFFFFFFFF, 0xFFFFFFFF, 0x0, 0x00000000, false⟩,   -- MBOX_TO_VF
   ⟨0x100, 64, 0x04, .RW, 0x00FFFFFF, 0x00FFFFFF, 0x0, 0x00000001, false⟩]   -- MOD_CFG

/-- Block registers of DISP (R449). -/
def rowsDISP : List RegRow :=
  [⟨0x040, 1, 0x04, .RW, 0x0000000F, 0x0000000F, 0x0, 0x00000002, false⟩,   -- DISP_CTRL
   ⟨0x044, 1, 0x04, .RO, 0x7FFFFFFF, 0x00000000, 0x0, 0x00000000, false⟩,   -- DISP_STATUS
   ⟨0x048, 1, 0x04, .RW, 0xFFFFFFFF, 0xFFFFFFFF, 0x0, 0x00000000, false⟩,   -- CTX_BASE
   ⟨0x04C, 1, 0x04, .RW, 0xFFFFFFFF, 0xFFFFFFFF, 0x0, 0x00000000, false⟩,   -- STREAM_BASE
   ⟨0x050, 1, 0x04, .RW, 0xFFFFFFFF, 0xFFFFFFFF, 0x0, 0x00000000, false⟩,   -- PROFILE_BASE
   ⟨0x054, 1, 0x04, .RWL, 0xFFFFFFFF, 0xFFFFFFFF, 0x0, 0x00000000, false⟩,   -- CLASS2_ENG
   ⟨0x058, 1, 0x04, .RW, 0x0000FFFF, 0x0000FFFF, 0x0, 0x000003E8, false⟩,   -- URGENT
   ⟨0x05C, 1, 0x04, .RW, 0x0000FFFF, 0x0000FFFF, 0x0, 0x00001000, false⟩,   -- CHEAP_WAIT
   ⟨0x060, 1, 0x04, .RW, 0x0000FFFF, 0x0000FFFF, 0x0, 0x000007D0, false⟩,   -- PLACE_WAIT
   ⟨0x064, 1, 0x04, .RW, 0x0000FFFF, 0x0000FFFF, 0x0, 0x00000064, false⟩,   -- REMOTE_TO
   ⟨0x068, 1, 0x04, .RW, 0x0000000F, 0x0000000F, 0x0, 0x00000003, false⟩,   -- FROG_MAX
   ⟨0x06C, 1, 0x04, .RW, 0x0000FFFF, 0x0000FFFF, 0x0, 0x000003E8, false⟩,   -- REPORT_MS
   ⟨0x070, 1, 0x04, .WO, 0x00000000, 0x00000000, 0x0, 0x00000000, false⟩,   -- CTX_CMD
   ⟨0x074, 1, 0x04, .RO, 0x0000FF03, 0x00000000, 0x0, 0x00000000, false⟩,   -- CTX_RESULT
   ⟨0x078, 1, 0x04, .RC, 0xFFFFFFFF, 0x00000000, 0x0, 0x00000000, false⟩,   -- QUAR_CNT
   ⟨0x07C, 1, 0x04, .RC, 0xFFFFFFFF, 0x00000000, 0x0, 0x00000000, false⟩,   -- FROG_CNT
   ⟨0x080, 1, 0x04, .RC, 0xFFFFFFFF, 0x00000000, 0x0, 0x00000000, false⟩,   -- PREEMPT_CNT
   ⟨0x084, 1, 0x04, .RC, 0xFFFFFFFF, 0x00000000, 0x0, 0x00000000, false⟩,   -- SAVE_CNT
   ⟨0x088, 1, 0x04, .RC, 0xFFFFFFFF, 0x00000000, 0x0, 0x00000000, false⟩,   -- LATE_CNT
   ⟨0x08C, 1, 0x04, .RC, 0xFFFFFFFF, 0x00000000, 0x0, 0x00000000, false⟩,   -- DESC_ERR
   ⟨0x090, 1, 0x04, .RO, 0x00FFFFFF, 0x00000000, 0x0, 0x00000000, false⟩,   -- LAST_ERR
   ⟨0x094, 1, 0x04, .RC, 0xFFFFFFFF, 0x00000000, 0x0, 0x00000000, false⟩,   -- CLASS2_WAIT_MAX
   ⟨0x098, 1, 0x04, .RW, 0x000000FF, 0x000000FF, 0x0, 0x00000000, false⟩,   -- CTX_VT_SEL
   ⟨0x09C, 1, 0x04, .RO, 0xFFFFFFFF, 0x00000000, 0x0, 0x00000000, false⟩,   -- CTX_VT_LO
   ⟨0x0A0, 1, 0x04, .RO, 0xFFFFFFFF, 0x00000000, 0x0, 0x00000000, false⟩]   -- CTX_VT_HI

/-- Block registers of KVW (R294). -/
def rowsKVW : List RegRow :=
  [⟨0x040, 1, 0x04, .RW, 0x000000F3, 0x000000F3, 0x0, 0x00000042, true⟩,   -- KVW_CTRL
   ⟨0x044, 1, 0x04, .RO, 0x000001F3, 0x00000000, 0x0, 0x00000000, false⟩,   -- KVW_STATUS
   ⟨0x048, 1, 0x04, .RW, 0xFFFFFFFF, 0xFFFFFFFF, 0x0, 0x00000000, true⟩,   -- POOL_BASE_LO
   ⟨0x04C, 1, 0x04, .RW, 0xFFFFFFFF, 0xFFFFFFFF, 0x0, 0x00000000, true⟩,   -- POOL_BASE_HI
   ⟨0x050, 1, 0x04, .RW, 0x00FFFFFF, 0x00FFFFFF, 0x0, 0x00000000, true⟩,   -- POOL_FRAMES
   ⟨0x054, 1, 0x04, .RW, 0x0FFFFFFF, 0x0FFFFFFF, 0x0, 0x00000000, true⟩,   -- POOL_GEOM
   ⟨0x058, 1, 0x04, .RW, 0xFFFFFFFF, 0xFFFFFFFF, 0x0, 0x00000000, true⟩,   -- FTAB_LO
   ⟨0x05C, 1, 0x04, .RW, 0xFFFFFFFF, 0xFFFFFFFF, 0x0, 0x00000000, true⟩,   -- FTAB_HI
   ⟨0x060, 1, 0x04, .RW, 0xFFFFFFFF, 0xFFFFFFFF, 0x0, 0x00000000, true⟩,   -- SCALE_LO
   ⟨0x064, 1, 0x04, .RW, 0xFFFFFFFF, 0xFFFFFFFF, 0x0, 0x00000000, true⟩,   -- SCALE_HI
   ⟨0x068, 1, 0x04, .RW, 0xFFFFFFFF, 0xFFFFFFFF, 0x0, 0x00000000, true⟩,   -- STAB_LO
   ⟨0x06C, 1, 0x04, .RW, 0xFFFFFFFF, 0xFFFFFFFF, 0x0, 0x00000000, true⟩,   -- STAB_HI
   ⟨0x070, 1, 0x04, .RW, 0x0001FFFF, 0x0001FFFF, 0x0, 0x00000000, true⟩,   -- SEQ_MAX
   ⟨0x074, 1, 0x04, .RO, 0xFFFFFFFF, 0x00000000, 0x0, 0xFFFFFFFF, true⟩,   -- FREE_HEAD
   ⟨0x078, 1, 0x04, .RO, 0xFFFFFFFF, 0x00000000, 0x0, 0x00000000, true⟩,   -- FREE_FRAMES
   ⟨0x07C, 1, 0x04, .RW, 0x000000FF, 0x000000FF, 0x0, 0x00000014, true⟩,   -- EVICT_CFG
   ⟨0x080, 1, 0x04, .WO, 0x00000000, 0x00000000, 0x0, 0x00000000, true⟩,   -- SEQ_CMD
   ⟨0x084, 1, 0x04, .RW, 0xFFFFFFFF, 0xFFFFFFFF, 0x0, 0x00000000, true⟩,   -- SEQ_ARG
   ⟨0x088, 1, 0x04, .RO, 0x0000FF03, 0x00000000, 0x0, 0x00000000, true⟩,   -- SEQ_RESULT
   ⟨0x08C, 1, 0x04, .RC, 0xFFFFFFFF, 0x00000000, 0x0, 0x00000000, false⟩,   -- LAB_MISS
   ⟨0x090, 1, 0x04, .RC, 0xFFFFFFFF, 0x00000000, 0x0, 0x00000000, false⟩,   -- MISS_LAT_MAX
   ⟨0x094, 1, 0x04, .RC, 0xFFFFFFFF, 0x00000000, 0x0, 0x00000000, false⟩,   -- EVICT_CNT
   ⟨0x098, 1, 0x04, .RC, 0xFFFFFFFF, 0x00000000, 0x0, 0x00000000, false⟩,   -- DROP_CNT
   ⟨0x09C, 1, 0x04, .RC, 0xFFFFFFFF, 0x00000000, 0x0, 0x00000000, false⟩,   -- PAUSE_CNT
   ⟨0x0A0, 1, 0x04, .RC, 0xFFFFFFFF, 0x00000000, 0x0, 0x00000000, true⟩,   -- ORPHAN_CNT
   ⟨0x0A4, 1, 0x04, .RC, 0xFFFFFFFF, 0x00000000, 0x0, 0x00000000, false⟩,   -- PT_ERR
   ⟨0x0A8, 1, 0x04, .RO, 0x00FFFFFF, 0x00000000, 0x0, 0x00000000, false⟩,   -- LAST_ERR
   ⟨0x0AC, 1, 0x04, .RC, 0xFFFFFFFF, 0x00000000, 0x0, 0x00000000, false⟩,   -- WCACHE_PAR
   ⟨0x0B0, 1, 0x04, .RW, 0x01FF00FF, 0x01FF00FF, 0x0, 0x00800003, true⟩]   -- POOL_FMT

/-- Block registers of TXT (R335). -/
def rowsTXT : List RegRow :=
  [⟨0x040, 1, 0x04, .RW, 0x000000F1, 0x000000F1, 0x0, 0x00000081, false⟩,   -- TXT_CTRL
   ⟨0x044, 1, 0x04, .RO, 0x00FFFF0F, 0x00000000, 0x0, 0x00000000, false⟩,   -- TXT_STATUS
   ⟨0x048, 1, 0x04, .RW, 0xFFFFFFFF, 0xFFFFFFFF, 0x0, 0x00000000, false⟩,   -- VOCAB_LO
   ⟨0x04C, 1, 0x04, .RW, 0xFFFFFFFF, 0xFFFFFFFF, 0x0, 0x00000000, false⟩,   -- VOCAB_HI
   ⟨0x050, 1, 0x04, .WO, 0x00000000, 0x00000000, 0x0, 0x00000000, false⟩,   -- VOCAB_CMD
   ⟨0x054, 1, 0x04, .RO, 0x0007FFFF, 0x00000000, 0x0, 0x00000000, false⟩,   -- VOCAB_INFO
   ⟨0x058, 1, 0x04, .RW, 0xFFFFFFFF, 0xFFFFFFFF, 0x0, 0x00000000, false⟩,   -- CSTATE_LO
   ⟨0x05C, 1, 0x04, .RW, 0xFFFFFFFF, 0xFFFFFFFF, 0x0, 0x00000000, false⟩,   -- CSTATE_HI
   ⟨0x060, 1, 0x04, .RW, 0x0001FFFF, 0x0001FFFF, 0x0, 0x00000000, false⟩,   -- CSTATE_MAX
   ⟨0x064, 1, 0x04, .RW, 0xFFFFFFFF, 0xFFFFFFFF, 0x0, 0x00000000, false⟩,   -- CSET_LO
   ⟨0x068, 1, 0x04, .RW, 0xFFFFFFFF, 0xFFFFFFFF, 0x0, 0x00000000, false⟩,   -- CSET_HI
   ⟨0x06C, 1, 0x04, .WO, 0x00000000, 0x00000000, 0x0, 0x00000000, false⟩,   -- CSET_CMD
   ⟨0x070, 1, 0x04, .RO, 0x0000FFFF, 0x00000000, 0x0, 0x00000000, false⟩,   -- CSET_STATUS
   ⟨0x074, 1, 0x04, .RW, 0xFFFFFFFF, 0xFFFFFFFF, 0x0, 0x000000C8, false⟩,   -- MASK_LIMIT
   ⟨0x078, 1, 0x04, .RC, 0xFFFFFFFF, 0x00000000, 0x0, 0x00000000, false⟩,   -- MASK_CNT
   ⟨0x07C, 1, 0x04, .RC, 0xFFFFFFFF, 0x00000000, 0x0, 0x00000000, false⟩,   -- MASK_LATE
   ⟨0x080, 1, 0x04, .RC, 0xFFFFFFFF, 0x00000000, 0x0, 0x00000000, false⟩,   -- MASK_DEAD
   ⟨0x084, 1, 0x04, .RC, 0xFFFFFFFF, 0x00000000, 0x0, 0x00000000, false⟩,   -- MASK_SLOW
   ⟨0x088, 1, 0x04, .RC, 0xFFFFFFFF, 0x00000000, 0x0, 0x00000000, false⟩,   -- MASK_TIME_MAX
   ⟨0x08C, 1, 0x04, .RC, 0xFFFFFFFF, 0x00000000, 0x0, 0x00000000, false⟩,   -- TOK_UNITS
   ⟨0x090, 1, 0x04, .RC, 0xFFFFFFFF, 0x00000000, 0x0, 0x00000000, false⟩,   -- TOK_BYTE_FB
   ⟨0x094, 1, 0x04, .RC, 0xFFFFFFFF, 0x00000000, 0x0, 0x00000000, false⟩,   -- DETOK_REPL
   ⟨0x098, 1, 0x04, .RC, 0xFFFFFFFF, 0x00000000, 0x0, 0x00000000, false⟩,   -- VCACHE_MISS
   ⟨0x09C, 1, 0x04, .RC, 0xFFFFFFFF, 0x00000000, 0x0, 0x00000000, false⟩,   -- VCACHE_PAR
   ⟨0x0A0, 1, 0x04, .RO, 0x00FFFFFF, 0x00000000, 0x0, 0x00000000, false⟩]   -- LAST_ERR

/-- Block registers of JPG (R242). -/
def rowsJPG : List RegRow :=
  [⟨0x040, 1, 0x04, .RW, 0x00000003, 0x00000003, 0x0, 0x00000000, false⟩,   -- JPG_CTRL
   ⟨0x044, 1, 0x04, .RO, 0xFFFFFF01, 0x00000000, 0x0, 0x00000000, false⟩,   -- JPG_STATUS
   ⟨0x048, 1, 0x04, .RC, 0xFFFFFFFF, 0x00000000, 0x0, 0x00000000, false⟩,   -- IMG_CNT
   ⟨0x04C, 1, 0x04, .RO, 0xFFFFFFFF, 0x00000000, 0x0, 0x00000000, false⟩,   -- PIX_LO
   ⟨0x050, 1, 0x04, .RO, 0xFFFFFFFF, 0x00000000, 0x0, 0x00000000, false⟩,   -- PIX_HI
   ⟨0x054, 1, 0x04, .RC, 0xFFFFFFFF, 0x00000000, 0x0, 0x00000000, false⟩,   -- ENTROPY_ERR
   ⟨0x058, 1, 0x04, .RC, 0xFFFFFFFF, 0x00000000, 0x0, 0x00000000, false⟩,   -- UNSUPP
   ⟨0x05C, 1, 0x04, .RO, 0xFFFFFFFF, 0x00000000, 0x0, 0x00000000, false⟩,   -- UNSUPP_CODE
   ⟨0x060, 1, 0x04, .RO, 0xFFFFFFFF, 0x00000000, 0x0, 0x00000000, false⟩]   -- MARKER_OFS

/-- Block registers of AUG (R243). -/
def rowsAUG : List RegRow :=
  [⟨0x040, 1, 0x04, .RW, 0x00000001, 0x00000001, 0x0, 0x00000000, false⟩,   -- AUG_CTRL
   ⟨0x044, 1, 0x04, .RO, 0x0000FF01, 0x00000000, 0x0, 0x00000000, false⟩,   -- AUG_STATUS
   ⟨0x048, 1, 0x04, .RC, 0xFFFFFFFF, 0x00000000, 0x0, 0x00000000, false⟩,   -- SAMPLE_CNT
   ⟨0x04C, 1, 0x04, .RC, 0xFFFFFFFF, 0x00000000, 0x0, 0x00000000, false⟩,   -- PARAM_ERR
   ⟨0x050, 1, 0x04, .RW, 0xFFFFFFFF, 0xFFFFFFFF, 0x0, 0x00000000, false⟩,   -- TEST_SEED_LO
   ⟨0x054, 1, 0x04, .RW, 0xFFFFFFFF, 0xFFFFFFFF, 0x0, 0x00000000, false⟩,   -- TEST_SEED_HI
   ⟨0x058, 1, 0x04, .RW, 0xFFFFFFFF, 0xFFFFFFFF, 0x0, 0x00000000, false⟩,   -- TEST_INDEX
   ⟨0x05C, 1, 0x04, .RW, 0xFFFFFFFF, 0xFFFFFFFF, 0x0, 0x00000000, false⟩,   -- TEST_DRAW
   ⟨0x060, 1, 0x04, .WO, 0x00000000, 0x00000000, 0x0, 0x00000000, false⟩,   -- TEST_CMD
   ⟨0x064, 1, 0x04, .RO, 0xFFFFFFFF, 0x00000000, 0x0, 0x00000000, false⟩,   -- TEST_OUT_LO
   ⟨0x068, 1, 0x04, .RO, 0xFFFFFFFF, 0x00000000, 0x0, 0x00000000, false⟩]   -- TEST_OUT_HI

/-- Block registers of ENG (R160). -/
def rowsENG : List RegRow :=
  [⟨0x040, 1, 0x04, .RW, 0x0000001F, 0x0000001F, 0x0, 0x00000000, false⟩,   -- CTRL
   ⟨0x044, 1, 0x04, .RO, 0x00FF3F7F, 0x00000000, 0x0, 0x00003F00, false⟩,   -- ENG_STATE
   ⟨0x048, 1, 0x04, .RW, 0x01FFFFFF, 0x00FFFFFF, 0x0, 0x00104006, false⟩,   -- DUMMY
   ⟨0x04C, 1, 0x04, .RO, 0x0003FFFF, 0x00000000, 0x0, 0x00000000, false⟩,   -- ARR_REPAIR
   ⟨0x050, 1, 0x04, .RC, 0xFFFFFFFF, 0x00000000, 0x0, 0x00000000, false⟩,   -- CHK_ROW
   ⟨0x054, 1, 0x04, .RC, 0xFFFFFFFF, 0x00000000, 0x0, 0x00000000, false⟩,   -- CHK_TILE
   ⟨0x058, 1, 0x04, .RC, 0xFFFFFFFF, 0x00000000, 0x0, 0x00000000, false⟩,   -- CHK_PERM
   ⟨0x05C, 1, 0x04, .RW, 0xFFFFFFFF, 0xFFFFFFFF, 0x0, 0x00000040, false⟩,   -- TRANS_THRESH
   ⟨0x060, 1, 0x04, .RO, 0xFFFFFFFF, 0x00000000, 0x0, 0x00000000, false⟩,   -- ISSUE_CYC_LO
   ⟨0x064, 1, 0x04, .RO, 0xFFFFFFFF, 0x00000000, 0x0, 0x00000000, false⟩,   -- ISSUE_CYC_HI
   ⟨0x068, 1, 0x04, .RC, 0xFFFFFFFF, 0x00000000, 0x0, 0x00000000, false⟩,   -- LOAD_CYC
   ⟨0x06C, 1, 0x04, .RC, 0xFFFFFFFF, 0x00000000, 0x0, 0x00000000, false⟩,   -- DUMMY_CYC
   ⟨0x070, 1, 0x04, .RC, 0xFFFFFFFF, 0x00000000, 0x0, 0x00000000, false⟩,   -- SWITCH_CNT
   ⟨0x074, 1, 0x04, .RC, 0xFFFFFFFF, 0x00000000, 0x0, 0x00000000, false⟩,   -- ES_ECC
   ⟨0x078, 1, 0x04, .RC, 0xFFFFFFFF, 0x00000000, 0x0, 0x00000000, false⟩,   -- VU_CHK
   ⟨0x07C, 1, 0x04, .RC, 0xFFFFFFFF, 0x00000000, 0x0, 0x00000000, false⟩,   -- CLIP_TOTAL
   ⟨0x080, 1, 0x04, .RW, 0x00007F1F, 0x00007F00, 0x1F, 0x00000000, false⟩,   -- INJECT
   ⟨0x084, 1, 0x04, .WO, 0x00000000, 0x00000000, 0x0, 0x00000000, false⟩,   -- DIAG_CMD
   ⟨0x088, 1, 0x04, .RO, 0x000FFFFF, 0x00000000, 0x0, 0x00000000, false⟩]   -- DIAG_RESULT

/-- Block registers of FCE (R164). -/
def rowsFCE : List RegRow :=
  [⟨0x040, 1, 0x04, .RW, 0x00000003, 0x00000003, 0x0, 0x00000000, false⟩,   -- FCE_CTRL
   ⟨0x044, 1, 0x04, .RO, 0x00FF03FF, 0x00000000, 0x0, 0x00000000, false⟩,   -- FCE_STATE
   ⟨0x048, 1, 0x04, .RO, 0x000000FF, 0x00000000, 0x0, 0x00000000, false⟩,   -- COL_REPAIR
   ⟨0x04C, 1, 0x04, .RC, 0xFFFFFFFF, 0x00000000, 0x0, 0x00000000, false⟩,   -- CHK_CNT
   ⟨0x050, 1, 0x04, .RC, 0xFFFFFFFF, 0x00000000, 0x0, 0x00000000, false⟩,   -- CHK_PERM
   ⟨0x054, 1, 0x04, .RO, 0xFFFFFFFF, 0x00000000, 0x0, 0x00000000, false⟩,   -- OUT_POS_LO
   ⟨0x058, 1, 0x04, .RO, 0xFFFFFFFF, 0x00000000, 0x0, 0x00000000, false⟩,   -- OUT_POS_HI
   ⟨0x05C, 1, 0x04, .RC, 0xFFFFFFFF, 0x00000000, 0x0, 0x00000000, false⟩,   -- BUSY_CYC
   ⟨0x060, 1, 0x04, .RW, 0x00003F01, 0x00003F00, 0x1, 0x00000000, false⟩,   -- INJECT
   ⟨0x064, 1, 0x04, .WO, 0x00000000, 0x00000000, 0x0, 0x00000000, false⟩,   -- DIAG_CMD
   ⟨0x068, 1, 0x04, .RO, 0x000001FF, 0x00000000, 0x0, 0x00000000, false⟩,   -- DIAG_RESULT
   ⟨0x06C, 1, 0x04, .RW, 0xFFFFFFFF, 0xFFFFFFFF, 0x0, 0x00000040, false⟩]   -- TRANS_THRESH

/-- Block registers of CMN (R21). -/
def rowsCMN : List RegRow :=
  [⟨0x040, 1, 0x04, .RW, 0x00000001, 0x00000001, 0x0, 0x00000001, false⟩,   -- CMN_CTRL
   ⟨0x044, 1, 0x04, .RO, 0xFFFF037F, 0x00000000, 0x0, 0x00000040, false⟩,   -- CMN_STATUS
   ⟨0x048, 1, 0x04, .RC, 0xFFFFFFFF, 0x00000000, 0x0, 0x00000000, false⟩,   -- ECC_CNT
   ⟨0x04C, 1, 0x04, .RO, 0x800FFFFF, 0x00000000, 0x0, 0x00000000, false⟩,   -- ECC_ADDR
   ⟨0x050, 1, 0x04, .RC, 0xFFFFFFFF, 0x00000000, 0x0, 0x00000000, false⟩,   -- RD_BEATS
   ⟨0x054, 1, 0x04, .RC, 0xFFFFFFFF, 0x00000000, 0x0, 0x00000000, false⟩,   -- WR_BEATS
   ⟨0x058, 1, 0x04, .RC, 0xFFFFFFFF, 0x00000000, 0x0, 0x00000000, false⟩,   -- PORT_BUSY
   ⟨0x05C, 1, 0x04, .RW, 0x000000FF, 0x000000FF, 0x0, 0x00000008, false⟩,   -- SCRUB_S
   ⟨0x060, 1, 0x04, .RW, 0x00000003, 0x00000000, 0x3, 0x00000000, false⟩,   -- INJECT
   ⟨0x064, 1, 0x04, .RO, 0x0000007F, 0x00000000, 0x0, 0x00000000, false⟩]   -- REDIRECT

/-- Block registers of MEMC (R617). -/
def rowsMEMC : List RegRow :=
  [⟨0x040, 1, 0x04, .RW, 0x00000003, 0x00000003, 0x0, 0x00000003, false⟩,   -- MEMC_CTRL
   ⟨0x044, 1, 0x04, .RO, 0x000FFF0F, 0x00000000, 0x0, 0x00000000, false⟩,   -- MEMC_STATUS
   ⟨0x048, 1, 0x04, .RC, 0xFFFFFFFF, 0x00000000, 0x0, 0x00000000, false⟩,   -- ECC_CNT
   ⟨0x04C, 1, 0x04, .RO, 0xFFFFFFFF, 0x00000000, 0x0, 0x00000000, false⟩,   -- ERR_ADDR_LO
   ⟨0x050, 1, 0x04, .RO, 0xFFFFFFFF, 0x00000000, 0x0, 0x00000000, false⟩,   -- ERR_ADDR_HI
   ⟨0x054, 1, 0x04, .RC, 0xFFFFFFFF, 0x00000000, 0x0, 0x00000000, false⟩,   -- RD_BYTES
   ⟨0x058, 1, 0x04, .RC, 0xFFFFFFFF, 0x00000000, 0x0, 0x00000000, false⟩,   -- WR_BYTES
   ⟨0x05C, 1, 0x04, .RW, 0x000000FF, 0x000000FF, 0x0, 0x00000018, false⟩,   -- SCRUB_H
   ⟨0x060, 1, 0x04, .RC, 0xFFFFFFFF, 0x00000000, 0x0, 0x00000000, false⟩,   -- RETRAIN_CNT
   ⟨0x064, 1, 0x04, .RW, 0x00000003, 0x00000000, 0x3, 0x00000000, false⟩,   -- INJECT
   ⟨0x068, 1, 0x04, .RC, 0xFFFFFFFF, 0x00000000, 0x0, 0x00000000, false⟩]   -- PPR_CNT

/-- Block registers of LINK (R655). -/
def rowsLINK : List RegRow :=
  [⟨0x040, 1, 0x04, .RW, 0x00000073, 0x00000073, 0x0, 0x00000010, false⟩,   -- LINK_CTRL
   ⟨0x044, 1, 0x04, .RO, 0x00007773, 0x00000000, 0x0, 0x00000000, false⟩,   -- LINK_STATUS
   ⟨0x048, 1, 0x04, .RO, 0x001F0FFF, 0x00000000, 0x0, 0x00000688, false⟩,   -- LANE_MAP
   ⟨0x04C, 1, 0x04, .RW, 0x00000007, 0x00000007, 0x0, 0x00000000, false⟩,   -- LANE_SEL
   ⟨0x050, 1, 0x04, .RO, 0x00FF00FF, 0x00000000, 0x0, 0x00000000, false⟩,   -- LANE_HEALTH
   ⟨0x054, 1, 0x04, .RC, 0xFFFFFFFF, 0x00000000, 0x0, 0x00000000, false⟩,   -- FEC_CORR
   ⟨0x058, 1, 0x04, .RC, 0xFFFFFFFF, 0x00000000, 0x0, 0x00000000, false⟩,   -- FEC_UNCORR
   ⟨0x05C, 1, 0x04, .RC, 0xFFFFFFFF, 0x00000000, 0x0, 0x00000000, false⟩,   -- REPLAY_CNT
   ⟨0x060, 1, 0x04, .RO, 0xFFFFFFFF, 0x00000000, 0x0, 0x00000000, false⟩,   -- LINK_DELAY
   ⟨0x064, 1, 0x04, .RO, 0xFFFFFFFF, 0x00000000, 0x0, 0x00000000, false⟩,   -- TIME_OFS
   ⟨0x068, 1, 0x04, .RW, 0x000000FF, 0x000000FF, 0x0, 0x00000002, false⟩,   -- LINK_TO
   ⟨0x06C, 1, 0x04, .RC, 0xFFFFFFFF, 0x00000000, 0x0, 0x00000000, false⟩,   -- LOOP_CNT
   ⟨0x080, 1, 0x04, .RW, 0x0000000F, 0x0000000F, 0x0, 0x0000000F, true⟩,   -- DEV_CFG
   ⟨0x084, 1, 0x04, .RO, 0x0007FF3F, 0x00000000, 0x0, 0x00000000, true⟩,   -- DEV_STATUS
   ⟨0x088, 1, 0x04, .W1C, 0x000000FF, 0x000000FF, 0x0, 0x00000000, true⟩,   -- ROUTE_LOST
   ⟨0x08C, 1, 0x04, .RO, 0xFFFFFFFF, 0x00000000, 0x0, 0xFFFFFFFF, true⟩,   -- ROUTE_HOPS
   ⟨0x090, 1, 0x04, .RW, 0x00000007, 0x00000007, 0x0, 0x00000000, true⟩,   -- WIN_SEL
   ⟨0x094, 1, 0x04, .RW, 0xFFFFFFFF, 0xFFFFFFFF, 0x0, 0x00000000, true⟩,   -- WIN_BASE_LO
   ⟨0x098, 1, 0x04, .RW, 0xFFFFFFFF, 0xFFFFFFFF, 0x0, 0x00000000, true⟩,   -- WIN_BASE_HI
   ⟨0x09C, 1, 0x04, .RW, 0xFF03FFFF, 0xFF03FFFF, 0x0, 0x00000000, true⟩,   -- WIN_CFG
   ⟨0x0A0, 1, 0x04, .RC, 0xFFFFFFFF, 0x00000000, 0x0, 0x00000000, true⟩,   -- WIN_REFUSE
   ⟨0x0A4, 1, 0x04, .RW, 0x0000003F, 0x0000003F, 0x0, 0x00000000, true⟩,   -- FWD_SEL
   ⟨0x0A8, 1, 0x04, .RW, 0x80FF01FF, 0x80FF01FF, 0x0, 0x00000000, true⟩,   -- FWD_CFG
   ⟨0x0AC, 1, 0x04, .RW, 0x0000003F, 0x0000003F, 0x0, 0x00000000, true⟩,   -- IMP_SEL
   ⟨0x0B0, 1, 0x04, .RW, 0x81FF0FFF, 0x81FF0FFF, 0x0, 0x00000000, true⟩,   -- IMP_CFG
   ⟨0x0B4, 1, 0x04, .RC, 0xFFFFFFFF, 0x00000000, 0x0, 0x00000000, true⟩]   -- IMP_MISS

/-- Block registers of SFE (R115). -/
def rowsSFE : List RegRow :=
  [⟨0x040, 1, 0x04, .RW, 0x00000001, 0x00000001, 0x0, 0x00000000, false⟩,   -- SFE_CTRL
   ⟨0x044, 1, 0x04, .RO, 0xFFFFFFFF, 0x00000000, 0x0, 0x00007D00, false⟩,   -- INGEST_LIMIT
   ⟨0x048, 1, 0x04, .RO, 0xFFFFFFFF, 0x00000000, 0x0, 0x00000000, false⟩,   -- INGEST_ALLOC
   ⟨0x04C, 1, 0x04, .RO, 0xFFFFFFFF, 0x00000000, 0x0, 0x00000100, false⟩,   -- LB_FREE
   ⟨0x100, 16, 0x40, .RW, 0xFFFFFFFF, 0xFFFFFFFF, 0x0, 0x00000000, false⟩,   -- PATH_CTRL
   ⟨0x104, 16, 0x40, .RW, 0x01FFFFFF, 0x01FFFFFF, 0x0, 0x00401000, false⟩,   -- PATH_GEOM
   ⟨0x108, 16, 0x40, .RW, 0x0FFFFFFF, 0x0FFFFFFF, 0x0, 0x00040000, false⟩,   -- PATH_STREAM
   ⟨0x10C, 16, 0x40, .RW, 0x0000FFFF, 0x0000FFFF, 0x0, 0x00000000, false⟩,   -- PATH_LB
   ⟨0x110, 16, 0x40, .RW, 0x1FFFFFFF, 0x1FFFFFFF, 0x0, 0x00000000, false⟩,   -- PATH_ITEM
   ⟨0x114, 16, 0x40, .RW, 0xFFFFFFFF, 0xFFFFFFFF, 0x0, 0x00100000, false⟩,   -- MAX_LINES
   ⟨0x118, 16, 0x40, .RW, 0xFFFFFFFF, 0xFFFFFFFF, 0x0, 0x00000000, false⟩,   -- RATE_DECL
   ⟨0x11C, 16, 0x40, .RW, 0xFFFFFFFF, 0xFFFFFFFF, 0x0, 0x00000032, false⟩,   -- PATH_WAIT
   ⟨0x120, 16, 0x40, .RW, 0xFFFFFFFF, 0xFFFFFFFF, 0x0, 0x00000000, false⟩,   -- DEST_BASE
   ⟨0x124, 16, 0x40, .RW, 0xFFFFFFFF, 0xFFFFFFFF, 0x0, 0x00000000, false⟩,   -- DEST_CFG
   ⟨0x128, 16, 0x40, .RW, 0xFFFFFFFF, 0xFFFFFFFF, 0x0, 0x00000000, false⟩,   -- DEST_HEAD
   ⟨0x12C, 16, 0x40, .RO, 0xFFFFFFFF, 0x00000000, 0x0, 0x00000000, false⟩,   -- DEST_TAIL
   ⟨0x130, 16, 0x40, .RW, 0xFFFFFFFF, 0xFFFFFFFF, 0x0, 0x00000000, false⟩,   -- STAMP_ADJ
   ⟨0x134, 16, 0x40, .WO, 0x00000000, 0x00000000, 0x0, 0x00000000, false⟩,   -- PATH_CMD
   ⟨0x138, 16, 0x40, .RO, 0xFFFF0003, 0x00000000, 0x0, 0x00000000, false⟩,   -- PATH_STATUS
   ⟨0x13C, 16, 0x40, .W1C, 0x0000001F, 0x0000001F, 0x0, 0x00000000, false⟩]   -- PATH_EVENTS

/-- Block registers of AFE (R118). -/
def rowsAFE : List RegRow :=
  [⟨0x040, 1, 0x04, .RW, 0x0000000F, 0x0000000F, 0x0, 0x00000000, false⟩,   -- AFE_CTRL
   ⟨0x044, 1, 0x04, .RW, 0x0F0FFFFF, 0x0F0FFFFF, 0x0, 0x08030400, false⟩,   -- BLK_CTRL
   ⟨0x048, 1, 0x04, .RWL, 0xFFFFFFFF, 0xFFFFFFFF, 0x0, 0x76543210, false⟩,   -- CH_MAP_LO
   ⟨0x04C, 1, 0x04, .RWL, 0x0000FFFF, 0x0000FFFF, 0x0, 0x0000BA98, false⟩,   -- CH_MAP_HI
   ⟨0x050, 1, 0x04, .RW, 0x0000001F, 0x0000001F, 0x0, 0x00000000, false⟩,   -- SHADOW
   ⟨0x054, 1, 0x04, .RO, 0x00001FFF, 0x00000000, 0x0, 0x00000000, false⟩,   -- CH_FAULT
   ⟨0x058, 1, 0x04, .RC, 0xFFFFFFFF, 0x00000000, 0x0, 0x00000000, false⟩,   -- CLIP_CNT
   ⟨0x100, 13, 0x10, .RW, 0x000003FF, 0x000003FF, 0x0, 0x00000000, false⟩,   -- CH_GAIN
   ⟨0x104, 13, 0x10, .RW, 0x000003FF, 0x000003FF, 0x0, 0x00000000, false⟩,   -- CH_OFFSET
   ⟨0x108, 13, 0x10, .RW, 0x800FFFFF, 0x800FFFFF, 0x0, 0x00000000, false⟩,   -- CH_SEG
   ⟨0x10C, 13, 0x10, .RO, 0x00001FFF, 0x00000000, 0x0, 0x00000000, false⟩]   -- CH_BLACK

/-- Block registers of PGEN (R119). -/
def rowsPGEN : List RegRow :=
  [⟨0x040, 1, 0x04, .RW, 0x000FFFF1, 0x000FFFF1, 0x0, 0x00000000, false⟩,   -- PG_CTRL
   ⟨0x044, 1, 0x04, .RO, 0x000F7FFF, 0x00000000, 0x0, 0x00000000, false⟩,   -- PG_STATUS
   ⟨0x048, 1, 0x04, .RW, 0x0000FFFF, 0x0000FFFF, 0x0, 0x00000000, false⟩,   -- LOOP_A
   ⟨0x04C, 1, 0x04, .RW, 0x0000FFFF, 0x0000FFFF, 0x0, 0x00000000, false⟩,   -- LOOP_B
   ⟨0x050, 1, 0x04, .RW, 0x0000FFFF, 0x0000FFFF, 0x0, 0x00000000, false⟩,   -- OUT_IDLE
   ⟨0x054, 1, 0x04, .RW, 0x0000FFFF, 0x0000FFFF, 0x0, 0x00000000, false⟩,   -- OUT_EN
   ⟨0x058, 1, 0x04, .RW, 0x00000FFF, 0x00000FFF, 0x0, 0x00000000, false⟩,   -- PM_ADDR
   ⟨0x05C, 1, 0x04, .RW, 0xFFFFFFFF, 0xFFFFFFFF, 0x0, 0x00000000, false⟩,   -- PM_DATA_LO
   ⟨0x060, 1, 0x04, .RW, 0xFFFFFFFF, 0xFFFFFFFF, 0x0, 0x00000000, false⟩,   -- PM_DATA_HI
   ⟨0x064, 1, 0x04, .RC, 0xFFFFFFFF, 0x00000000, 0x0, 0x00000000, false⟩,   -- TRIG_LATE
   ⟨0x068, 1, 0x04, .RC, 0xFFFFFFFF, 0x00000000, 0x0, 0x00000000, false⟩,   -- TRIG_DROP
   ⟨0x06C, 1, 0x04, .RC, 0xFFFFFFFF, 0x00000000, 0x0, 0x00000000, false⟩,   -- SAMPLE_OVR
   ⟨0x070, 1, 0x04, .WO, 0x00000000, 0x00000000, 0x0, 0x00000000, false⟩]   -- TRIG_CMD

/-- Block registers of ENC (R120). -/
def rowsENC : List RegRow :=
  [⟨0x040, 1, 0x04, .RW, 0x0000001F, 0x0000001F, 0x0, 0x00000000, false⟩,   -- ENC_CTRL
   ⟨0x044, 1, 0x04, .RW, 0x000003FF, 0x000003FF, 0x0, 0x0000000A, false⟩,   -- FILT
   ⟨0x048, 1, 0x04, .RW, 0x00FFFFFF, 0x00FFFFFF, 0x0, 0x00000001, false⟩,   -- DIV_INT
   ⟨0x04C, 1, 0x04, .RW, 0xFFFFFFFF, 0xFFFFFFFF, 0x0, 0x00000000, false⟩,   -- DIV_FRAC
   ⟨0x050, 1, 0x04, .RW, 0x000FFFFF, 0x000FFFFF, 0x0, 0x00002710, false⟩,   -- STALL_US
   ⟨0x054, 1, 0x04, .RW, 0x0000FFFF, 0x0000FFFF, 0x0, 0x00000040, false⟩,   -- RECOVER
   ⟨0x058, 1, 0x04, .RW, 0xFFFFFFFF, 0xFFFFFFFF, 0x0, 0x00003E03, false⟩,   -- TIME_PERIOD
   ⟨0x05C, 1, 0x04, .RO, 0xFFFFFFFF, 0x00000000, 0x0, 0x00000000, false⟩,   -- PERIOD_NS
   ⟨0x060, 1, 0x04, .RO, 0xFFFFFFFF, 0x00000000, 0x0, 0x00000000, false⟩,   -- POS_LO
   ⟨0x064, 1, 0x04, .RO, 0xFFFFFFFF, 0x00000000, 0x0, 0x00000000, false⟩,   -- POS_HI
   ⟨0x068, 1, 0x04, .RO, 0x0000000F, 0x00000000, 0x0, 0x00000000, false⟩,   -- ENC_STATUS
   ⟨0x06C, 1, 0x04, .W1C, 0x0000000F, 0x0000000F, 0x0, 0x00000000, false⟩,   -- ENC_EVENTS
   ⟨0x070, 1, 0x04, .RO, 0xFFFFFFFF, 0x00000000, 0x0, 0x00000000, false⟩,   -- TRIG_CNT
   ⟨0x074, 1, 0x04, .RC, 0xFFFFFFFF, 0x00000000, 0x0, 0x00000000, false⟩]   -- OVERSPEED_CNT

/-- Block registers of CXP (R121). -/
def rowsCXP : List RegRow :=
  [⟨0x040, 1, 0x04, .RW, 0x000007FF, 0x000007FF, 0x0, 0x00000000, false⟩,   -- CXP_CTRL
   ⟨0x044, 1, 0x04, .RO, 0x000001FF, 0x00000000, 0x0, 0x00000000, false⟩,   -- CXP_STATUS
   ⟨0x048, 1, 0x04, .RW, 0xFFFFFFFF, 0xFFFFFFFF, 0x0, 0x00000000, false⟩,   -- CMD_ADDR
   ⟨0x04C, 1, 0x04, .RW, 0xFFFFFFFF, 0xFFFFFFFF, 0x0, 0x00000000, false⟩,   -- CMD_DATA
   ⟨0x050, 1, 0x04, .WO, 0x00000000, 0x00000000, 0x0, 0x00000000, false⟩,   -- CMD_GO
   ⟨0x054, 1, 0x04, .RO, 0x0000FF01, 0x00000000, 0x0, 0x00000000, false⟩,   -- CMD_STATUS
   ⟨0x058, 1, 0x04, .RC, 0xFFFFFFFF, 0x00000000, 0x0, 0x00000000, false⟩,   -- PKT_ERR
   ⟨0x05C, 1, 0x04, .RC, 0xFFFFFFFF, 0x00000000, 0x0, 0x00000000, false⟩,   -- LINE_ERR
   ⟨0x060, 1, 0x04, .RO, 0xFFFFFFFF, 0x00000000, 0x0, 0x00000000, false⟩,   -- EVENT_DATA
   ⟨0x064, 1, 0x04, .RO, 0xFFFFFFFF, 0x00000000, 0x0, 0x00000000, false⟩]   -- HEARTBEAT

/-- Block registers of CSI (R122). -/
def rowsCSI : List RegRow :=
  [⟨0x040, 1, 0x04, .RW, 0x00000FFF, 0x00000FFF, 0x0, 0x00000000, false⟩,   -- CSI_CTRL
   ⟨0x044, 1, 0x04, .RO, 0xFFFF001F, 0x00000000, 0x0, 0x00000000, false⟩,   -- CSI_STATUS
   ⟨0x048, 1, 0x04, .RW, 0xFFFFFFFF, 0xFFFFFFFF, 0x0, 0x00000000, false⟩,   -- FRAME_ROWS
   ⟨0x04C, 1, 0x04, .RC, 0xFFFFFFFF, 0x00000000, 0x0, 0x00000000, false⟩,   -- ECC_CORR
   ⟨0x050, 1, 0x04, .RC, 0xFFFFFFFF, 0x00000000, 0x0, 0x00000000, false⟩,   -- ECC_UNCORR
   ⟨0x054, 1, 0x04, .RC, 0xFFFFFFFF, 0x00000000, 0x0, 0x00000000, false⟩,   -- CRC_ERR
   ⟨0x058, 1, 0x04, .RO, 0xFFFFFFFF, 0x00000000, 0x0, 0x00000000, false⟩]   -- FRAME_CNT

/-- Block registers of TSN (R395). -/
def rowsTSN : List RegRow :=
  [⟨0x040, 1, 0x04, .RW, 0x000000FF, 0x000000FF, 0x0, 0x00000000, false⟩,   -- TSN_CTRL
   ⟨0x044, 1, 0x04, .RO, 0x0000003F, 0x00000000, 0x0, 0x00000000, false⟩,   -- TSN_STATUS
   ⟨0x048, 1, 0x04, .RW, 0xFFFFFFFF, 0xFFFFFFFF, 0x0, 0x00000000, false⟩,   -- MAC_LO
   ⟨0x04C, 1, 0x04, .RW, 0x0000FFFF, 0x0000FFFF, 0x0, 0x00000000, false⟩,   -- MAC_HI
   ⟨0x050, 1, 0x04, .RO, 0xFFFFFFFF, 0x00000000, 0x0, 0x00000000, false⟩,   -- REL_TSC_LO
   ⟨0x054, 1, 0x04, .RO, 0xFFFFFFFF, 0x00000000, 0x0, 0x00000000, false⟩,   -- REL_TSC_HI
   ⟨0x058, 1, 0x04, .RO, 0xFFFFFFFF, 0x00000000, 0x0, 0x00000000, false⟩,   -- REL_AS_LO
   ⟨0x05C, 1, 0x04, .RO, 0xFFFFFFFF, 0x00000000, 0x0, 0x00000000, false⟩,   -- REL_AS_HI
   ⟨0x060, 1, 0x04, .RO, 0xFFFFFFFF, 0x00000000, 0x0, 0x00000000, false⟩,   -- REL_RATE
   ⟨0x064, 1, 0x04, .RO, 0xFFFFFFFF, 0x00000000, 0x0, 0x00000000, false⟩,   -- AS_OFFSET
   ⟨0x068, 1, 0x04, .RO, 0xFFFFFFFF, 0x00000000, 0x0, 0x00000000, false⟩,   -- PDELAY
   ⟨0x06C, 1, 0x04, .RW, 0x000000FF, 0x000000FF, 0x0, 0x00000000, false⟩,   -- GCL_ADDR
   ⟨0x070, 1, 0x04, .RW, 0xFFFFFFFF, 0xFFFFFFFF, 0x0, 0x00000000, false⟩,   -- GCL_DATA
   ⟨0x074, 1, 0x04, .RW, 0x01FF01FF, 0x01FF01FF, 0x0, 0x00FF0100, false⟩,   -- GCL_CFG
   ⟨0x078, 1, 0x04, .RW, 0xFFFFFFFF, 0xFFFFFFFF, 0x0, 0x00000000, false⟩,   -- GCL_BASE_LO
   ⟨0x07C, 1, 0x04, .RW, 0xFFFFFFFF, 0xFFFFFFFF, 0x0, 0x00000000, false⟩,   -- GCL_BASE_HI
   ⟨0x080, 1, 0x04, .RW, 0xFFFFFFFF, 0xFFFFFFFF, 0x0, 0x000F4240, false⟩,   -- GCL_CYCLE
   ⟨0x084, 1, 0x04, .WO, 0x00000000, 0x00000000, 0x0, 0x00000000, false⟩,   -- GCL_CMD
   ⟨0x088, 1, 0x04, .RW, 0x0000003F, 0x0000003F, 0x0, 0x00000000, false⟩,   -- SF_ADDR
   ⟨0x08C, 1, 0x04, .RW, 0xFFFFFFFF, 0xFFFFFFFF, 0x0, 0x00000000, false⟩,   -- SF_KEY_LO
   ⟨0x090, 1, 0x04, .RW, 0x0000FFFF, 0x0000FFFF, 0x0, 0x00000000, false⟩,   -- SF_KEY_HI
   ⟨0x094, 1, 0x04, .RW, 0x9FFFFFFF, 0x9FFFFFFF, 0x0, 0x00000000, false⟩,   -- SF_CFG
   ⟨0x098, 1, 0x04, .RW, 0x00FFFFFF, 0x00FFFFFF, 0x0, 0x00000000, false⟩,   -- SF_METER
   ⟨0x09C, 1, 0x04, .RW, 0x0000FFF1, 0x0000FFF1, 0x0, 0x00000000, false⟩,   -- CB_CFG
   ⟨0x0A0, 1, 0x04, .RW, 0x000000FF, 0x000000FF, 0x0, 0x00000000, false⟩,   -- RX_CONTEXT
   ⟨0x0A4, 1, 0x04, .RC, 0xFFFFFFFF, 0x00000000, 0x0, 0x00000000, false⟩,   -- RX_FRAMES
   ⟨0x0A8, 1, 0x04, .RC, 0xFFFFFFFF, 0x00000000, 0x0, 0x00000000, false⟩,   -- RX_DROP
   ⟨0x0AC, 1, 0x04, .RC, 0xFFFFFFFF, 0x00000000, 0x0, 0x00000000, false⟩,   -- CB_ELIM
   ⟨0x0B0, 1, 0x04, .RC, 0xFFFFFFFF, 0x00000000, 0x0, 0x00000000, false⟩]   -- TX_LATE_GATE

/-- Block registers of SSI (R396). -/
def rowsSSI : List RegRow :=
  [⟨0x040, 1, 0x04, .RW, 0x00000001, 0x00000001, 0x0, 0x00000000, false⟩,   -- SSI_CTRL
   ⟨0x044, 1, 0x04, .RO, 0x00000FFF, 0x00000000, 0x0, 0x00000000, false⟩,   -- SSI_STATUS
   ⟨0x048, 1, 0x04, .RW, 0x00FF0FFF, 0x00FF0FFF, 0x0, 0x00000000, false⟩,   -- SET_MASK
   ⟨0x04C, 1, 0x04, .RW, 0x0007FFFF, 0x0007FFFF, 0x0, 0x00000000, false⟩,   -- SET_STREAM
   ⟨0x050, 1, 0x04, .RW, 0x0000000F, 0x0000000F, 0x0, 0x00000000, false⟩,   -- SET_TRIG
   ⟨0x054, 1, 0x04, .WO, 0x00000000, 0x00000000, 0x0, 0x00000000, false⟩,   -- SSI_CMD
   ⟨0x058, 1, 0x04, .RC, 0xFFFFFFFF, 0x00000000, 0x0, 0x00000000, false⟩,   -- ERR_CNT
   ⟨0x05C, 1, 0x04, .RC, 0xFFFFFFFF, 0x00000000, 0x0, 0x00000000, false⟩,   -- OVERRUN_CNT
   ⟨0x100, 12, 0x10, .RW, 0x0007FFFF, 0x0007FFFF, 0x0, 0x00003231, false⟩,   -- CH_CFG
   ⟨0x104, 12, 0x10, .RW, 0x00001FFF, 0x00001FFF, 0x0, 0x00000640, false⟩,   -- CH_DATA
   ⟨0x108, 12, 0x10, .RW, 0x001FFFFF, 0x001FFFFF, 0x0, 0x00000014, false⟩,   -- CH_TIMING
   ⟨0x10C, 12, 0x10, .RO, 0xFFFFFFFF, 0x00000000, 0x0, 0x00000000, false⟩]   -- CH_LAST

/-- Block registers of CEU (R397). -/
def rowsCEU : List RegRow :=
  [⟨0x040, 1, 0x04, .RW, 0x00000001, 0x00000001, 0x0, 0x00000000, false⟩,   -- CEU_CTRL
   ⟨0x044, 1, 0x04, .RO, 0x000000FF, 0x00000000, 0x0, 0x00000000, false⟩,   -- CEU_STATUS
   ⟨0x048, 1, 0x04, .RW, 0x0000FFFF, 0x0000FFFF, 0x0, 0x000088B5, false⟩,   -- ETHERTYPE
   ⟨0x04C, 1, 0x04, .RW, 0x0000FFFF, 0x0000FFFF, 0x0, 0x00000000, false⟩,   -- DEC_TMPL
   ⟨0x050, 1, 0x04, .RC, 0xFFFFFFFF, 0x00000000, 0x0, 0x00000000, false⟩,   -- FRAMES_SENT
   ⟨0x054, 1, 0x04, .RC, 0xFFFFFFFF, 0x00000000, 0x0, 0x00000000, false⟩,   -- DEC_SENT
   ⟨0x058, 1, 0x04, .RC, 0xFFFFFFFF, 0x00000000, 0x0, 0x00000000, false⟩,   -- TOO_LONG
   ⟨0x100, 8, 0x40, .RW, 0x03FFFFFF, 0x03FFFFFF, 0x0, 0x00000000, false⟩,   -- LOOP_CTRL
   ⟨0x104, 8, 0x40, .RW, 0xFFFFFFFF, 0xFFFFFFFF, 0x0, 0x00000000, false⟩,   -- BASE_LO
   ⟨0x108, 8, 0x40, .RW, 0xFFFFFFFF, 0xFFFFFFFF, 0x0, 0x00000000, false⟩,   -- BASE_HI
   ⟨0x10C, 8, 0x40, .RW, 0xFFFFFFFF, 0xFFFFFFFF, 0x0, 0x000F4240, false⟩,   -- PERIOD
   ⟨0x110, 8, 0x40, .RW, 0xFFFFFFFF, 0xFFFFFFFF, 0x0, 0x00000000, false⟩,   -- SAMPLE_OFS
   ⟨0x114, 8, 0x40, .RW, 0xFFFFFFFF, 0xFFFFFFFF, 0x0, 0x00000000, false⟩,   -- STROBE_OFS
   ⟨0x118, 8, 0x40, .RW, 0xFFFFFFFF, 0xFFFFFFFF, 0x0, 0x000DBBA0, false⟩,   -- LAUNCH_OFS
   ⟨0x11C, 8, 0x40, .RW, 0xFFFFFFFF, 0xFFFFFFFF, 0x0, 0x000F4240, false⟩,   -- AGE_MAX
   ⟨0x120, 8, 0x40, .RW, 0xFFFFFFFF, 0xFFFFFFFF, 0x0, 0x00000000, false⟩,   -- PERC_OPEN
   ⟨0x124, 8, 0x40, .RW, 0xFFFFFFFF, 0xFFFFFFFF, 0x0, 0x00000000, false⟩,   -- PERC_CLOSE
   ⟨0x128, 8, 0x40, .RO, 0xFFFFFFFF, 0x00000000, 0x0, 0x00000000, false⟩,   -- CYCLE
   ⟨0x12C, 8, 0x40, .RO, 0xFFFFFFFF, 0x00000000, 0x0, 0x00000000, false⟩,   -- AGE_LAST
   ⟨0x130, 8, 0x40, .RC, 0xFFFFFFFF, 0x00000000, 0x0, 0x00000000, false⟩,   -- AGE_PEAK
   ⟨0x134, 8, 0x40, .RC, 0xFFFFFFFF, 0x00000000, 0x0, 0x00000000, false⟩,   -- STALE_CNT
   ⟨0x138, 8, 0x40, .RC, 0xFFFFFFFF, 0x00000000, 0x0, 0x00000000, false⟩,   -- LATE_CNT
   ⟨0x13C, 8, 0x40, .RC, 0xFFFFFFFF, 0x00000000, 0x0, 0x00000000, false⟩,   -- SUP_CNT
   ⟨0x400, 16, 0x10, .RW, 0xFFFFFFFF, 0xFFFFFFFF, 0x0, 0x00000000, false⟩,   -- TPL_DST_LO
   ⟨0x404, 16, 0x10, .RW, 0x000FFFFF, 0x000FFFFF, 0x0, 0x00000000, false⟩,   -- TPL_DST_HI
   ⟨0x408, 16, 0x10, .RW, 0x0000FFFF, 0x0000FFFF, 0x0, 0x00000000, false⟩,   -- TPL_VLAN
   ⟨0x40C, 16, 0x10, .RO, 0xFFFFFFFF, 0x00000000, 0x0, 0x00000000, false⟩]   -- TPL_SEQ

/-- The register table of a block's pages; only CHART[0] has chart registers (R703). -/
def Blk.rows : Blk → List RegRow
  | .CHART => rowsCHART
  | .TOP => rowsTOP
  | .AON => rowsAON
  | .TSC => rowsTSC
  | .CLK => rowsCLK
  | .PWR => rowsPWR
  | .VRC => rowsVRC
  | .PIN => rowsPIN
  | .DARN => rowsDARN
  | .JRNL => rowsJRNL
  | .HAL => rowsHAL
  | .SAFE => rowsSAFE
  | .CMP => rowsCMP
  | .WDG => rowsWDG
  | .GATH => rowsGATH
  | .HOST => rowsHOST
  | .FUNC => rowsFUNC
  | .DISP => rowsDISP
  | .KVW => rowsKVW
  | .TXT => rowsTXT
  | .JPG => rowsJPG
  | .AUG => rowsAUG
  | .ENG => rowsENG
  | .FCE => rowsFCE
  | .CMN => rowsCMN
  | .MEMC => rowsMEMC
  | .LINK => rowsLINK
  | .SFE => rowsSFE
  | .AFE => rowsAFE
  | .PGEN => rowsPGEN
  | .ENC => rowsENC
  | .CXP => rowsCXP
  | .CSI => rowsCSI
  | .TSN => rowsTSN
  | .SSI => rowsSSI
  | .CEU => rowsCEU

/-- Does the row hold a register at this offset? -/
def RegRow.holds (r : RegRow) (off : Nat) : Bool :=
  decide (r.off ≤ off) && decide ((off - r.off) % r.stride = 0) && decide ((off - r.off) / r.stride < r.n)

/-- The row of a register, `none` at a reserved offset (R682). -/
def rowAt (b : Blk) (inst off : Nat) : Option RegRow :=
  if inst < b.count then
    if off < 0x40 then headerRows.find? (·.holds off)
    else if b = .CHART ∧ inst ≠ 0 then none
    else b.rows.find? (·.holds off)
  else none

/-- The row of a register. -/
def RegRef.row (r : RegRef) : Option RegRow := rowAt r.blk r.inst r.off

/-- The register a page's offset names: a shared register stands once, under instance 0. -/
def regAt (b : Blk) (inst off : Nat) : RegRef :=
  match rowAt b inst off with
  | some row => if row.shared then ⟨b, 0, off⟩ else ⟨b, inst, off⟩
  | none => ⟨b, inst, off⟩

/-- The BAR0 byte address of a register (R678, R689), its key in the register list. -/
def RegRef.key (r : RegRef) : Nat := (r.blk.slot + r.inst) * 4096 + r.off

/-! The header registers of every page (R683). -/
namespace Reg.HDR
/-- BLOCK_ID of a page: RO, R683. -/
abbrev BLOCK_ID (b : Blk) (i : Nat) : RegRef := ⟨b, i, 0x000⟩
/-- VERSION of a page: RO, R683. -/
abbrev VERSION (b : Blk) (i : Nat) : RegRef := ⟨b, i, 0x004⟩
/-- CAPS of a page: RO, R683. -/
abbrev CAPS (b : Blk) (i : Nat) : RegRef := ⟨b, i, 0x008⟩
/-- STATUS of a page: RO, R683. -/
abbrev STATUS (b : Blk) (i : Nat) : RegRef := ⟨b, i, 0x00C⟩
/-- IRQ_PEND of a page: RO, R683. -/
abbrev IRQ_PEND (b : Blk) (i : Nat) : RegRef := ⟨b, i, 0x010⟩
/-- IRQ_PEND_SET of a page: WO, R683. -/
abbrev IRQ_PEND_SET (b : Blk) (i : Nat) : RegRef := ⟨b, i, 0x014⟩
/-- IRQ_PEND_CLR of a page: WO, R683. -/
abbrev IRQ_PEND_CLR (b : Blk) (i : Nat) : RegRef := ⟨b, i, 0x018⟩
/-- IRQ_MASK of a page: RO, R683. -/
abbrev IRQ_MASK (b : Blk) (i : Nat) : RegRef := ⟨b, i, 0x01C⟩
/-- IRQ_MASK_SET of a page: WO, R683. -/
abbrev IRQ_MASK_SET (b : Blk) (i : Nat) : RegRef := ⟨b, i, 0x020⟩
/-- IRQ_MASK_CLR of a page: WO, R683. -/
abbrev IRQ_MASK_CLR (b : Blk) (i : Nat) : RegRef := ⟨b, i, 0x024⟩
/-- ERR_STATUS of a page: W1C, R683. -/
abbrev ERR_STATUS (b : Blk) (i : Nat) : RegRef := ⟨b, i, 0x028⟩
/-- ACC_ERR of a page: W1C, R683. -/
abbrev ACC_ERR (b : Blk) (i : Nat) : RegRef := ⟨b, i, 0x02C⟩
/-- WRITE_COUNT of a page: RO, R683. -/
abbrev WRITE_COUNT (b : Blk) (i : Nat) : RegRef := ⟨b, i, 0x030⟩
/-- LOCK_OWNER of a page: RO, R683. -/
abbrev LOCK_OWNER (b : Blk) (i : Nat) : RegRef := ⟨b, i, 0x034⟩
end Reg.HDR

/-! Registers of CHART. -/
namespace Reg.CHART
/-- CHART.CHART_INFO: RO, R703. -/
abbrev CHART_INFO : RegRef := ⟨.CHART, 0, 0x040⟩
/-- CHART.ENTRY_COUNT: RO, R703. -/
abbrev ENTRY_COUNT : RegRef := ⟨.CHART, 0, 0x044⟩
/-- CHART.CHART_CRC: RO, R703. -/
abbrev CHART_CRC : RegRef := ⟨.CHART, 0, 0x048⟩
/-- CHART.SLOT_LIMIT: RO, R703. -/
abbrev SLOT_LIMIT : RegRef := ⟨.CHART, 0, 0x04C⟩
end Reg.CHART

/-! Registers of TOP. -/
namespace Reg.TOP
/-- TOP.FAMILY: RO, R701. -/
abbrev FAMILY : RegRef := ⟨.TOP, 0, 0x040⟩
/-- TOP.UNIQUE_ID_LO: RO, R701. -/
abbrev UNIQUE_ID_LO : RegRef := ⟨.TOP, 0, 0x044⟩
/-- TOP.UNIQUE_ID_HI: RO, R701. -/
abbrev UNIQUE_ID_HI : RegRef := ⟨.TOP, 0, 0x048⟩
/-- TOP.SCRATCH: RW, R701. -/
abbrev SCRATCH : RegRef := ⟨.TOP, 0, 0x04C⟩
/-- TOP.LOCK_CMD: WO, R701. -/
abbrev LOCK_CMD : RegRef := ⟨.TOP, 0, 0x050⟩
/-- TOP.LOCK_RESULT: RO, R701. -/
abbrev LOCK_RESULT : RegRef := ⟨.TOP, 0, 0x054⟩
/-- TOP.ACC_LAST: RO, R701. -/
abbrev ACC_LAST : RegRef := ⟨.TOP, 0, 0x058⟩
/-- TOP.TOP_EVENTS: W1C, R701. -/
abbrev TOP_EVENTS : RegRef := ⟨.TOP, 0, 0x05C⟩
end Reg.TOP

/-! Registers of AON. -/
namespace Reg.AON
/-- AON.RST_CAUSE: RO, R726. -/
abbrev RST_CAUSE : RegRef := ⟨.AON, 0, 0x040⟩
/-- AON.RST_FLAGS: W1C, R726. -/
abbrev RST_FLAGS : RegRef := ⟨.AON, 0, 0x044⟩
/-- AON.HOLD_MS: RO, R726. -/
abbrev HOLD_MS : RegRef := ⟨.AON, 0, 0x048⟩
/-- AON.RST_COUNT: RO, R726. -/
abbrev RST_COUNT : RegRef := ⟨.AON, 0, 0x04C⟩
/-- AON.RST_CFG: RW, R726. -/
abbrev RST_CFG : RegRef := ⟨.AON, 0, 0x050⟩
/-- AON.RST_CMD: WO, R726. -/
abbrev RST_CMD : RegRef := ⟨.AON, 0, 0x054⟩
/-- AON.BOOT_STATUS: RO, R726. -/
abbrev BOOT_STATUS : RegRef := ⟨.AON, 0, 0x058⟩
/-- AON.BOOT_CMD: WO, R726. -/
abbrev BOOT_CMD : RegRef := ⟨.AON, 0, 0x05C⟩
/-- AON.FUSE_ROLLBACK: RO, R726. -/
abbrev FUSE_ROLLBACK : RegRef := ⟨.AON, 0, 0x060⟩
/-- AON.START_RESULT: RO, R726. -/
abbrev START_RESULT : RegRef := ⟨.AON, 0, 0x064⟩
/-- AON.BOOT_TIME: RO, R726. -/
abbrev BOOT_TIME : RegRef := ⟨.AON, 0, 0x068⟩
/-- AON.PF_TSC_LO: RO, R726. -/
abbrev PF_TSC_LO : RegRef := ⟨.AON, 0, 0x06C⟩
/-- AON.PF_TSC_HI: RO, R726. -/
abbrev PF_TSC_HI : RegRef := ⟨.AON, 0, 0x070⟩
/-- AON.PF_INFO: RO, R726. -/
abbrev PF_INFO : RegRef := ⟨.AON, 0, 0x074⟩
/-- AON.PF_JRNL: RO, R726. -/
abbrev PF_JRNL : RegRef := ⟨.AON, 0, 0x078⟩
end Reg.AON

/-! Registers of TSC. -/
namespace Reg.TSC
/-- TSC.TSC_LO: RO, R59. -/
abbrev TSC_LO : RegRef := ⟨.TSC, 0, 0x040⟩
/-- TSC.TSC_HI: RO, R59. -/
abbrev TSC_HI : RegRef := ⟨.TSC, 0, 0x044⟩
/-- TSC.TSC_CTRL: RW, R59. -/
abbrev TSC_CTRL : RegRef := ⟨.TSC, 0, 0x048⟩
/-- TSC.TSC_STATUS: RO, R59. -/
abbrev TSC_STATUS : RegRef := ⟨.TSC, 0, 0x04C⟩
/-- TSC.SLEW_PPB: RW, R59. -/
abbrev SLEW_PPB : RegRef := ⟨.TSC, 0, 0x050⟩
/-- TSC.TSC_CMD: WO, R59. -/
abbrev TSC_CMD : RegRef := ⟨.TSC, 0, 0x054⟩
/-- TSC.TSC_SET_LO: RW, R59. -/
abbrev TSC_SET_LO : RegRef := ⟨.TSC, 0, 0x058⟩
/-- TSC.TSC_SET_HI: RW, R59. -/
abbrev TSC_SET_HI : RegRef := ⟨.TSC, 0, 0x05C⟩
/-- TSC.SLEEP_CYCLES: RO, R59. -/
abbrev SLEEP_CYCLES : RegRef := ⟨.TSC, 0, 0x060⟩
end Reg.TSC

/-! Registers of CLK. -/
namespace Reg.CLK
/-- CLK.CLK_CTRL: RW, R624. -/
abbrev CLK_CTRL : RegRef := ⟨.CLK, 0, 0x040⟩
/-- CLK.CLK_STATUS: RO, R624. -/
abbrev CLK_STATUS : RegRef := ⟨.CLK, 0, 0x044⟩
/-- CLK.STRIPE_FREQ: RO, R624. -/
abbrev STRIPE_FREQ : RegRef := ⟨.CLK, 0, 0x048⟩
/-- CLK.REF_DEV: RO, R624. -/
abbrev REF_DEV : RegRef := ⟨.CLK, 0, 0x04C⟩
/-- CLK.CLK_EVENTS: W1C, R624. -/
abbrev CLK_EVENTS : RegRef := ⟨.CLK, 0, 0x050⟩
/-- CLK.LOCK_LOSS_CNT: RC, R624. -/
abbrev LOCK_LOSS_CNT : RegRef := ⟨.CLK, 0, 0x054⟩
end Reg.CLK

/-! Registers of PWR. -/
namespace Reg.PWR
/-- PWR.PWR_CTRL: RW, R620. -/
abbrev PWR_CTRL : RegRef := ⟨.PWR, 0, 0x040⟩
/-- PWR.PWR_STATUS: RO, R620. -/
abbrev PWR_STATUS : RegRef := ⟨.PWR, 0, 0x044⟩
/-- PWR.CAP: RW, R620. -/
abbrev CAP : RegRef := ⟨.PWR, 0, 0x048⟩
/-- PWR.FLOORS: RW, R620. -/
abbrev FLOORS : RegRef := ⟨.PWR, 0, 0x04C⟩
/-- PWR.PKG_POWER: RO, R620. -/
abbrev PKG_POWER : RegRef := ⟨.PWR, 0, 0x050⟩
/-- PWR.CORE_POWER: RO, R620. -/
abbrev CORE_POWER : RegRef := ⟨.PWR, 0, 0x054⟩
/-- PWR.EST_CORR: RO, R620. -/
abbrev EST_CORR : RegRef := ⟨.PWR, 0, 0x058⟩
/-- PWR.IRL_CFG: RW, R620. -/
abbrev IRL_CFG : RegRef := ⟨.PWR, 0, 0x05C⟩
/-- PWR.THERM_CFG: RW, R620. -/
abbrev THERM_CFG : RegRef := ⟨.PWR, 0, 0x060⟩
/-- PWR.THERM_STATUS: RO, R620. -/
abbrev THERM_STATUS : RegRef := ⟨.PWR, 0, 0x064⟩
/-- PWR.THERM_SEL: RW, R620. -/
abbrev THERM_SEL : RegRef := ⟨.PWR, 0, 0x068⟩
/-- PWR.THERM_READ: RO, R620. -/
abbrev THERM_READ : RegRef := ⟨.PWR, 0, 0x06C⟩
/-- PWR.DEV_CMD: WO, R620. -/
abbrev DEV_CMD : RegRef := ⟨.PWR, 0, 0x070⟩
/-- PWR.DEV_RESULT: RO, R620. -/
abbrev DEV_RESULT : RegRef := ⟨.PWR, 0, 0x074⟩
/-- PWR.WAKE_CFG: RW, R620. -/
abbrev WAKE_CFG : RegRef := ⟨.PWR, 0, 0x078⟩
/-- PWR.WAKE_TSC_LO: RW, R620. -/
abbrev WAKE_TSC_LO : RegRef := ⟨.PWR, 0, 0x07C⟩
/-- PWR.WAKE_TSC_HI: RW, R620. -/
abbrev WAKE_TSC_HI : RegRef := ⟨.PWR, 0, 0x080⟩
/-- PWR.RET_US: RW, R620. -/
abbrev RET_US : RegRef := ⟨.PWR, 0, 0x084⟩
/-- PWR.GRP_CFG: RW, R620. -/
abbrev GRP_CFG : RegRef := ⟨.PWR, 0, 0x088⟩
/-- PWR.GRP_STATUS: RO, R620. -/
abbrev GRP_STATUS : RegRef := ⟨.PWR, 0, 0x08C⟩
/-- PWR.ENG_CLK_SEL: RW, R620. -/
abbrev ENG_CLK_SEL : RegRef := ⟨.PWR, 0, 0x090⟩
/-- PWR.ENG_CLK: RO, R620. -/
abbrev ENG_CLK : RegRef := ⟨.PWR, 0, 0x094⟩
/-- PWR.CAP_EVENTS: W1C, R620. -/
abbrev CAP_EVENTS : RegRef := ⟨.PWR, 0, 0x098⟩
/-- PWR.RAIL_LOST: RO, R620. -/
abbrev RAIL_LOST : RegRef := ⟨.PWR, 0, 0x09C⟩
/-- PWR.THROT_TIME: RC, R620. -/
abbrev THROT_TIME : RegRef := ⟨.PWR, 0, 0x0A0⟩
end Reg.PWR

/-! Registers of VRC. -/
namespace Reg.VRC
/-- VRC.VRC_CTRL: RW, R622. -/
abbrev VRC_CTRL : RegRef := ⟨.VRC, 0, 0x040⟩
/-- VRC.VRC_STATUS: RO, R622. -/
abbrev VRC_STATUS : RegRef := ⟨.VRC, 0, 0x044⟩
/-- VRC.VTARGET: RO, R622. -/
abbrev VTARGET : RegRef := ⟨.VRC, 0, 0x048⟩
/-- VRC.IOUT: RO, R622. -/
abbrev IOUT : RegRef := ⟨.VRC, 0, 0x04C⟩
/-- VRC.ILIM: RO, R622. -/
abbrev ILIM : RegRef := ⟨.VRC, 0, 0x050⟩
/-- VRC.PHASE_EN: RO, R622. -/
abbrev PHASE_EN : RegRef := ⟨.VRC, 0, 0x054⟩
/-- VRC.PHASE_FAIL: RO, R622. -/
abbrev PHASE_FAIL : RegRef := ⟨.VRC, 0, 0x058⟩
/-- VRC.SENSE_FAIL: RO, R622. -/
abbrev SENSE_FAIL : RegRef := ⟨.VRC, 0, 0x05C⟩
/-- VRC.PHASE_SEL: RW, R622. -/
abbrev PHASE_SEL : RegRef := ⟨.VRC, 0, 0x060⟩
/-- VRC.PHASE_I: RO, R622. -/
abbrev PHASE_I : RegRef := ⟨.VRC, 0, 0x064⟩
/-- VRC.DROOP_CFG: RW, R622. -/
abbrev DROOP_CFG : RegRef := ⟨.VRC, 0, 0x068⟩
/-- VRC.DROOP_CNT: RC, R622. -/
abbrev DROOP_CNT : RegRef := ⟨.VRC, 0, 0x06C⟩
/-- VRC.STRETCH_CYC: RC, R622. -/
abbrev STRETCH_CYC : RegRef := ⟨.VRC, 0, 0x070⟩
/-- VRC.ILIM_CNT: RC, R622. -/
abbrev ILIM_CNT : RegRef := ⟨.VRC, 0, 0x074⟩
/-- VRC.VIN: RO, R622. -/
abbrev VIN : RegRef := ⟨.VRC, 0, 0x078⟩
/-- VRC.VRC_EVENTS: W1C, R622. -/
abbrev VRC_EVENTS : RegRef := ⟨.VRC, 0, 0x07C⟩
end Reg.VRC

/-! Registers of PIN. -/
namespace Reg.PIN
/-- PIN.PIN_STATUS: RO, R750. -/
abbrev PIN_STATUS : RegRef := ⟨.PIN, 0, 0x040⟩
/-- PIN.MUX_SEL: RW, R750. -/
abbrev MUX_SEL : RegRef := ⟨.PIN, 0, 0x044⟩
/-- PIN.MUX_CFG: RWL, R750. -/
abbrev MUX_CFG : RegRef := ⟨.PIN, 0, 0x048⟩
/-- PIN.MUX_STATE: RO, R750. -/
abbrev MUX_STATE : RegRef := ⟨.PIN, 0, 0x04C⟩
/-- PIN.GPIO_IN_LO: RO, R750. -/
abbrev GPIO_IN_LO : RegRef := ⟨.PIN, 0, 0x050⟩
/-- PIN.GPIO_IN_HI: RO, R750. -/
abbrev GPIO_IN_HI : RegRef := ⟨.PIN, 0, 0x054⟩
/-- PIN.GPIO_OUT_LO: RW, R750. -/
abbrev GPIO_OUT_LO : RegRef := ⟨.PIN, 0, 0x058⟩
/-- PIN.GPIO_OUT_HI: RW, R750. -/
abbrev GPIO_OUT_HI : RegRef := ⟨.PIN, 0, 0x05C⟩
/-- PIN.EVT_PEND: W1C, R750. -/
abbrev EVT_PEND (j : Nat) : RegRef := ⟨.PIN, 0, 0x060 + 0x4 * j⟩
/-- PIN.SWITCH_CNT: RC, R750. -/
abbrev SWITCH_CNT : RegRef := ⟨.PIN, 0, 0x070⟩
/-- PIN.LAST_REFUSE: RO, R750. -/
abbrev LAST_REFUSE : RegRef := ⟨.PIN, 0, 0x074⟩
end Reg.PIN

/-! Registers of DARN. -/
namespace Reg.DARN
/-- DARN.DARN_CTRL: RW, R673. -/
abbrev DARN_CTRL : RegRef := ⟨.DARN, 0, 0x040⟩
/-- DARN.DARN_STATUS: RO, R673. -/
abbrev DARN_STATUS : RegRef := ⟨.DARN, 0, 0x044⟩
/-- DARN.MAP_SEQ: RO, R673. -/
abbrev MAP_SEQ : RegRef := ⟨.DARN, 0, 0x048⟩
/-- DARN.INVENTORY: RO, R673. -/
abbrev INVENTORY : RegRef := ⟨.DARN, 0, 0x04C⟩
/-- DARN.SPARE_ENG_LO: RO, R673. -/
abbrev SPARE_ENG_LO : RegRef := ⟨.DARN, 0, 0x050⟩
/-- DARN.SPARE_ENG_HI: RO, R673. -/
abbrev SPARE_ENG_HI : RegRef := ⟨.DARN, 0, 0x054⟩
/-- DARN.FAILED_ENG_LO: RO, R673. -/
abbrev FAILED_ENG_LO : RegRef := ⟨.DARN, 0, 0x058⟩
/-- DARN.FAILED_ENG_HI: RO, R673. -/
abbrev FAILED_ENG_HI : RegRef := ⟨.DARN, 0, 0x05C⟩
/-- DARN.DARN_CMD: WO, R673. -/
abbrev DARN_CMD : RegRef := ⟨.DARN, 0, 0x060⟩
/-- DARN.DARN_RESULT: RO, R673. -/
abbrev DARN_RESULT : RegRef := ⟨.DARN, 0, 0x064⟩
/-- DARN.PENDING: RO, R673. -/
abbrev PENDING : RegRef := ⟨.DARN, 0, 0x068⟩
/-- DARN.ROW_THRESH: RW, R673. -/
abbrev ROW_THRESH : RegRef := ⟨.DARN, 0, 0x06C⟩
/-- DARN.ENG_SLOW: RW, R673. -/
abbrev ENG_SLOW : RegRef := ⟨.DARN, 0, 0x070⟩
/-- DARN.WEAR_SEL: RW, R673. -/
abbrev WEAR_SEL : RegRef := ⟨.DARN, 0, 0x074⟩
/-- DARN.WEAR_DATA: RO, R673. -/
abbrev WEAR_DATA : RegRef := ⟨.DARN, 0, 0x078⟩
/-- DARN.LOG_COUNT: RO, R673. -/
abbrev LOG_COUNT : RegRef := ⟨.DARN, 0, 0x07C⟩
/-- DARN.LOG_SEL: RW, R673. -/
abbrev LOG_SEL : RegRef := ⟨.DARN, 0, 0x080⟩
/-- DARN.LOG_DATA: RO, R673. -/
abbrev LOG_DATA (j : Nat) : RegRef := ⟨.DARN, 0, 0x084 + 0x4 * j⟩
/-- DARN.ENG_MAP: RO, R673. -/
abbrev ENG_MAP (j : Nat) : RegRef := ⟨.DARN, 0, 0x0A0 + 0x4 * j⟩
end Reg.DARN

/-! Registers of JRNL. -/
namespace Reg.JRNL
/-- JRNL.JRNL_CTRL: RW, R704. -/
abbrev JRNL_CTRL : RegRef := ⟨.JRNL, 0, 0x040⟩
/-- JRNL.JRNL_BASE: RW, R704. -/
abbrev JRNL_BASE : RegRef := ⟨.JRNL, 0, 0x044⟩
/-- JRNL.JRNL_HEAD: RW, R704. -/
abbrev JRNL_HEAD : RegRef := ⟨.JRNL, 0, 0x048⟩
/-- JRNL.JRNL_TAIL: RO, R704. -/
abbrev JRNL_TAIL : RegRef := ⟨.JRNL, 0, 0x04C⟩
/-- JRNL.JRNL_LOST: RC, R704. -/
abbrev JRNL_LOST : RegRef := ⟨.JRNL, 0, 0x050⟩
/-- JRNL.JRNL_STATUS: RO, R704. -/
abbrev JRNL_STATUS : RegRef := ⟨.JRNL, 0, 0x054⟩
end Reg.JRNL

/-! Registers of HAL. -/
namespace Reg.HAL
/-- HAL.HAL_CTRL: RW, R565. -/
abbrev HAL_CTRL : RegRef := ⟨.HAL, 0, 0x040⟩
/-- HAL.HAL_STATUS: RO, R565. -/
abbrev HAL_STATUS : RegRef := ⟨.HAL, 0, 0x044⟩
/-- HAL.EVENT_CNT: RO, R565. -/
abbrev EVENT_CNT : RegRef := ⟨.HAL, 0, 0x048⟩
/-- HAL.AUDIT_FREE: RO, R565. -/
abbrev AUDIT_FREE : RegRef := ⟨.HAL, 0, 0x04C⟩
/-- HAL.SW_ID: RO, R565. -/
abbrev SW_ID (j : Nat) : RegRef := ⟨.HAL, 0, 0x050 + 0x4 * j⟩
/-- HAL.FW_CRC: RO, R565. -/
abbrev FW_CRC : RegRef := ⟨.HAL, 0, 0x060⟩
/-- HAL.OP_SECONDS: RO, R565. -/
abbrev OP_SECONDS : RegRef := ⟨.HAL, 0, 0x064⟩
/-- HAL.REQ_CMD: WO, R565. -/
abbrev REQ_CMD : RegRef := ⟨.HAL, 0, 0x068⟩
/-- HAL.REQ_STATUS: RO, R565. -/
abbrev REQ_STATUS : RegRef := ⟨.HAL, 0, 0x06C⟩
/-- HAL.RES_POP: WO, R565. -/
abbrev RES_POP : RegRef := ⟨.HAL, 0, 0x070⟩
/-- HAL.RES_STAMP_LO: RO, R565. -/
abbrev RES_STAMP_LO : RegRef := ⟨.HAL, 0, 0x074⟩
/-- HAL.RES_STAMP_HI: RO, R565. -/
abbrev RES_STAMP_HI : RegRef := ⟨.HAL, 0, 0x078⟩
/-- HAL.LOST_CNT: RC, R565. -/
abbrev LOST_CNT : RegRef := ⟨.HAL, 0, 0x07C⟩
/-- HAL.REQ: RW, R565. -/
abbrev REQ (j : Nat) : RegRef := ⟨.HAL, 0, 0x080 + 0x4 * j⟩
/-- HAL.REPLY: RO, R565. -/
abbrev REPLY (j : Nat) : RegRef := ⟨.HAL, 0, 0x0A0 + 0x4 * j⟩
/-- HAL.RES: RO, R565. -/
abbrev RES (j : Nat) : RegRef := ⟨.HAL, 0, 0x0C0 + 0x4 * j⟩
/-- HAL.UNIT_CNT: RC, R565. -/
abbrev UNIT_CNT : RegRef := ⟨.HAL, 0, 0x0E0⟩
/-- HAL.LANE_ERR: RC, R565. -/
abbrev LANE_ERR : RegRef := ⟨.HAL, 0, 0x0E4⟩
end Reg.HAL

/-! Registers of SAFE. -/
namespace Reg.SAFE
/-- SAFE.SAFE_CTRL: RWL, R529. -/
abbrev SAFE_CTRL : RegRef := ⟨.SAFE, 0, 0x040⟩
/-- SAFE.SAFE_STATE: RO, R529. -/
abbrev SAFE_STATE : RegRef := ⟨.SAFE, 0, 0x044⟩
/-- SAFE.SAFE_CMD: WO, R529. -/
abbrev SAFE_CMD : RegRef := ⟨.SAFE, 0, 0x048⟩
/-- SAFE.CMD_RESULT: RO, R529. -/
abbrev CMD_RESULT : RegRef := ⟨.SAFE, 0, 0x04C⟩
/-- SAFE.CH_A: RWL, R529. -/
abbrev CH_A : RegRef := ⟨.SAFE, 0, 0x050⟩
/-- SAFE.CH_B: RWL, R529. -/
abbrev CH_B : RegRef := ⟨.SAFE, 0, 0x054⟩
/-- SAFE.TIMING: RWL, R529. -/
abbrev TIMING : RegRef := ⟨.SAFE, 0, 0x058⟩
/-- SAFE.DEG_LIMIT: RWL, R529. -/
abbrev DEG_LIMIT : RegRef := ⟨.SAFE, 0, 0x05C⟩
/-- SAFE.STOP_ZONES: RWL, R529. -/
abbrev STOP_ZONES : RegRef := ⟨.SAFE, 0, 0x060⟩
/-- SAFE.SMSG: RWL, R529. -/
abbrev SMSG : RegRef := ⟨.SAFE, 0, 0x064⟩
/-- SAFE.TPULSE: RWL, R529. -/
abbrev TPULSE : RegRef := ⟨.SAFE, 0, 0x068⟩
/-- SAFE.TEST_CYCLE: RWL, R529. -/
abbrev TEST_CYCLE : RegRef := ⟨.SAFE, 0, 0x06C⟩
/-- SAFE.TEST_STATUS: RO, R529. -/
abbrev TEST_STATUS : RegRef := ⟨.SAFE, 0, 0x070⟩
/-- SAFE.C2_REGION: RWL, R529. -/
abbrev C2_REGION : RegRef := ⟨.SAFE, 0, 0x074⟩
/-- SAFE.FAULT_CNT: RC, R529. -/
abbrev FAULT_CNT : RegRef := ⟨.SAFE, 0, 0x078⟩
/-- SAFE.TRANS_CNT: RC, R529. -/
abbrev TRANS_CNT : RegRef := ⟨.SAFE, 0, 0x07C⟩
/-- SAFE.GAP_MAX: RC, R529. -/
abbrev GAP_MAX : RegRef := ⟨.SAFE, 0, 0x080⟩
/-- SAFE.FAULT_TSC: RO, R529. -/
abbrev FAULT_TSC : RegRef := ⟨.SAFE, 0, 0x084⟩
/-- SAFE.AUTH: RWL, R529. -/
abbrev AUTH (j : Nat) : RegRef := ⟨.SAFE, 0, 0x100 + 0x4 * j⟩
end Reg.SAFE

/-! Registers of CMP. -/
namespace Reg.CMP
/-- CMP.CMP_CTRL: RWL, R531. -/
abbrev CMP_CTRL : RegRef := ⟨.CMP, 0, 0x040⟩
/-- CMP.CMP_STATUS: RO, R531. -/
abbrev CMP_STATUS : RegRef := ⟨.CMP, 0, 0x044⟩
/-- CMP.MODEL_A: RWL, R531. -/
abbrev MODEL_A : RegRef := ⟨.CMP, 0, 0x048⟩
/-- CMP.MODEL_B: RWL, R531. -/
abbrev MODEL_B : RegRef := ⟨.CMP, 0, 0x04C⟩
/-- CMP.PAIR_WAIT: RWL, R531. -/
abbrev PAIR_WAIT : RegRef := ⟨.CMP, 0, 0x050⟩
/-- CMP.LIMITS: RWL, R531. -/
abbrev LIMITS : RegRef := ⟨.CMP, 0, 0x054⟩
/-- CMP.CMP_IO: RWL, R531. -/
abbrev CMP_IO : RegRef := ⟨.CMP, 0, 0x058⟩
/-- CMP.LAST_VERDICT: RO, R531. -/
abbrev LAST_VERDICT : RegRef := ⟨.CMP, 0, 0x05C⟩
/-- CMP.PAIR_CNT: RC, R531. -/
abbrev PAIR_CNT : RegRef := ⟨.CMP, 0, 0x060⟩
/-- CMP.DISC_CNT: RC, R531. -/
abbrev DISC_CNT : RegRef := ⟨.CMP, 0, 0x064⟩
/-- CMP.LATE_CNT: RC, R531. -/
abbrev LATE_CNT : RegRef := ⟨.CMP, 0, 0x068⟩
/-- CMP.AUTH_REFUSE: RC, R531. -/
abbrev AUTH_REFUSE : RegRef := ⟨.CMP, 0, 0x06C⟩
end Reg.CMP

/-! Registers of WDG. -/
namespace Reg.WDG
/-- WDG.WDG_CTRL: RWL, R532. -/
abbrev WDG_CTRL (i : Nat) : RegRef := ⟨.WDG, i, 0x040⟩
/-- WDG.WDG_STATUS: RO, R532. -/
abbrev WDG_STATUS (i : Nat) : RegRef := ⟨.WDG, i, 0x044⟩
/-- WDG.EARLY_CNT: RC, R532. -/
abbrev EARLY_CNT (i : Nat) : RegRef := ⟨.WDG, i, 0x048⟩
/-- WDG.LATE_CNT: RC, R532. -/
abbrev LATE_CNT (i : Nat) : RegRef := ⟨.WDG, i, 0x04C⟩
/-- WDG.WD_CFG: RWL, R532. -/
abbrev WD_CFG (i j : Nat) : RegRef := ⟨.WDG, i, 0x100 + 0x10 * j⟩
/-- WDG.WD_WIN: RWL, R532. -/
abbrev WD_WIN (i j : Nat) : RegRef := ⟨.WDG, i, 0x104 + 0x10 * j⟩
/-- WDG.WD_KICK: WO, R532. -/
abbrev WD_KICK (i j : Nat) : RegRef := ⟨.WDG, i, 0x108 + 0x10 * j⟩
/-- WDG.WD_STATUS: RO, R532. -/
abbrev WD_STATUS (i j : Nat) : RegRef := ⟨.WDG, i, 0x10C + 0x10 * j⟩
end Reg.WDG

/-! Registers of GATH. -/
namespace Reg.GATH
/-- GATH.GATH_CTRL: RW, R485. -/
abbrev GATH_CTRL (i : Nat) : RegRef := ⟨.GATH, i, 0x040⟩
/-- GATH.GATH_STATUS: RO, R485. -/
abbrev GATH_STATUS (i : Nat) : RegRef := ⟨.GATH, i, 0x044⟩
/-- GATH.STORM_CFG: RW, R485. -/
abbrev STORM_CFG (i : Nat) : RegRef := ⟨.GATH, i, 0x048⟩
/-- GATH.STORM_LAST: RO, R485. -/
abbrev STORM_LAST (i : Nat) : RegRef := ⟨.GATH, i, 0x04C⟩
/-- GATH.GDELIV_CNT: RC, R485. -/
abbrev GDELIV_CNT (i : Nat) : RegRef := ⟨.GATH, i, 0x050⟩
/-- GATH.STORM_CNT: RC, R485. -/
abbrev STORM_CNT (i : Nat) : RegRef := ⟨.GATH, i, 0x054⟩
/-- GATH.EOI_ERR: RC, R485. -/
abbrev EOI_ERR (i : Nat) : RegRef := ⟨.GATH, i, 0x058⟩
/-- GATH.SRC_PEND: RO, R485. -/
abbrev SRC_PEND (i j : Nat) : RegRef := ⟨.GATH, i, 0x080 + 0x4 * j⟩
/-- GATH.SRC_PEND_SET: WO, R485. -/
abbrev SRC_PEND_SET (i j : Nat) : RegRef := ⟨.GATH, i, 0x0A0 + 0x4 * j⟩
/-- GATH.SRC_PEND_CLR: WO, R485. -/
abbrev SRC_PEND_CLR (i j : Nat) : RegRef := ⟨.GATH, i, 0x0C0 + 0x4 * j⟩
/-- GATH.SRC_MASK: RO, R485. -/
abbrev SRC_MASK (i j : Nat) : RegRef := ⟨.GATH, i, 0x0E0 + 0x4 * j⟩
/-- GATH.SRC_MASK_SET: WO, R485. -/
abbrev SRC_MASK_SET (i j : Nat) : RegRef := ⟨.GATH, i, 0x100 + 0x4 * j⟩
/-- GATH.SRC_MASK_CLR: WO, R485. -/
abbrev SRC_MASK_CLR (i j : Nat) : RegRef := ⟨.GATH, i, 0x120 + 0x4 * j⟩
/-- GATH.SRC_INSVC: RO, R485. -/
abbrev SRC_INSVC (i j : Nat) : RegRef := ⟨.GATH, i, 0x140 + 0x4 * j⟩
/-- GATH.SRC_STORM: W1C, R485. -/
abbrev SRC_STORM (i j : Nat) : RegRef := ⟨.GATH, i, 0x160 + 0x4 * j⟩
/-- GATH.SRC_LEVEL: RO, R485. -/
abbrev SRC_LEVEL (i j : Nat) : RegRef := ⟨.GATH, i, 0x180 + 0x4 * j⟩
/-- GATH.SRC_CFG: RW, R485. -/
abbrev SRC_CFG (i j : Nat) : RegRef := ⟨.GATH, i, 0x400 + 0x4 * j⟩
end Reg.GATH

/-! Registers of HOST. -/
namespace Reg.HOST
/-- HOST.PCI_ID: RO, R702. -/
abbrev PCI_ID : RegRef := ⟨.HOST, 0, 0x040⟩
/-- HOST.LINK_STATUS: RO, R702. -/
abbrev LINK_STATUS : RegRef := ⟨.HOST, 0, 0x044⟩
/-- HOST.SRIOV_STATUS: RO, R702. -/
abbrev SRIOV_STATUS : RegRef := ⟨.HOST, 0, 0x048⟩
/-- HOST.VF_ENABLED: RO, R702. -/
abbrev VF_ENABLED : RegRef := ⟨.HOST, 0, 0x04C⟩
/-- HOST.AER_CORR: RC, R702. -/
abbrev AER_CORR : RegRef := ⟨.HOST, 0, 0x050⟩
/-- HOST.AER_UNCORR: RC, R702. -/
abbrev AER_UNCORR : RegRef := ⟨.HOST, 0, 0x054⟩
/-- HOST.CA_CNT: RC, R702. -/
abbrev CA_CNT : RegRef := ⟨.HOST, 0, 0x058⟩
/-- HOST.UR_CNT: RC, R702. -/
abbrev UR_CNT : RegRef := ⟨.HOST, 0, 0x05C⟩
/-- HOST.CTO_CNT: RC, R702. -/
abbrev CTO_CNT : RegRef := ⟨.HOST, 0, 0x060⟩
/-- HOST.POISON_CNT: RC, R702. -/
abbrev POISON_CNT : RegRef := ⟨.HOST, 0, 0x064⟩
/-- HOST.UNPOP_LOG: W1C, R702. -/
abbrev UNPOP_LOG : RegRef := ⟨.HOST, 0, 0x068⟩
/-- HOST.LINK_EVENTS: W1C, R702. -/
abbrev LINK_EVENTS : RegRef := ⟨.HOST, 0, 0x06C⟩
end Reg.HOST

/-! Registers of FUNC. -/
namespace Reg.FUNC
/-- FUNC.FUNC_INFO: RO, R483. -/
abbrev FUNC_INFO (i : Nat) : RegRef := ⟨.FUNC, i, 0x040⟩
/-- FUNC.QOS: RW, R483. -/
abbrev QOS (i : Nat) : RegRef := ⟨.FUNC, i, 0x044⟩
/-- FUNC.CTX_COUNT: RO, R483. -/
abbrev CTX_COUNT (i : Nat) : RegRef := ⟨.FUNC, i, 0x048⟩
/-- FUNC.NOTICE: W1C, R483. -/
abbrev NOTICE (i : Nat) : RegRef := ⟨.FUNC, i, 0x04C⟩
/-- FUNC.NOTICE_CFG: RW, R483. -/
abbrev NOTICE_CFG (i : Nat) : RegRef := ⟨.FUNC, i, 0x050⟩
/-- FUNC.IRQ_EOI: WO, R483. -/
abbrev IRQ_EOI (i : Nat) : RegRef := ⟨.FUNC, i, 0x054⟩
/-- FUNC.VEC_PEND_LO: RO, R483. -/
abbrev VEC_PEND_LO (i : Nat) : RegRef := ⟨.FUNC, i, 0x058⟩
/-- FUNC.VEC_PEND_HI: RO, R483. -/
abbrev VEC_PEND_HI (i : Nat) : RegRef := ⟨.FUNC, i, 0x05C⟩
/-- FUNC.VEC_INSVC_LO: RO, R483. -/
abbrev VEC_INSVC_LO (i : Nat) : RegRef := ⟨.FUNC, i, 0x060⟩
/-- FUNC.VEC_INSVC_HI: RO, R483. -/
abbrev VEC_INSVC_HI (i : Nat) : RegRef := ⟨.FUNC, i, 0x064⟩
/-- FUNC.VEC_MASK_LO: RO, R483. -/
abbrev VEC_MASK_LO (i : Nat) : RegRef := ⟨.FUNC, i, 0x068⟩
/-- FUNC.VEC_MASK_HI: RO, R483. -/
abbrev VEC_MASK_HI (i : Nat) : RegRef := ⟨.FUNC, i, 0x06C⟩
/-- FUNC.VEC_MASK_SET_LO: WO, R483. -/
abbrev VEC_MASK_SET_LO (i : Nat) : RegRef := ⟨.FUNC, i, 0x070⟩
/-- FUNC.VEC_MASK_SET_HI: WO, R483. -/
abbrev VEC_MASK_SET_HI (i : Nat) : RegRef := ⟨.FUNC, i, 0x074⟩
/-- FUNC.VEC_MASK_CLR_LO: WO, R483. -/
abbrev VEC_MASK_CLR_LO (i : Nat) : RegRef := ⟨.FUNC, i, 0x078⟩
/-- FUNC.VEC_MASK_CLR_HI: WO, R483. -/
abbrev VEC_MASK_CLR_HI (i : Nat) : RegRef := ⟨.FUNC, i, 0x07C⟩
/-- FUNC.MBOX_CMD: WO, R483. -/
abbrev MBOX_CMD (i : Nat) : RegRef := ⟨.FUNC, i, 0x080⟩
/-- FUNC.MBOX_STATUS: RO, R483. -/
abbrev MBOX_STATUS (i : Nat) : RegRef := ⟨.FUNC, i, 0x084⟩
/-- FUNC.FLR_LAST: RO, R483. -/
abbrev FLR_LAST (i : Nat) : RegRef := ⟨.FUNC, i, 0x088⟩
/-- FUNC.DELIV_CNT: RC, R483. -/
abbrev DELIV_CNT (i : Nat) : RegRef := ⟨.FUNC, i, 0x08C⟩
/-- FUNC.HELD_CNT: RC, R483. -/
abbrev HELD_CNT (i : Nat) : RegRef := ⟨.FUNC, i, 0x090⟩
/-- FUNC.MBOX_TO_PF: RW, R483. -/
abbrev MBOX_TO_PF (i j : Nat) : RegRef := ⟨.FUNC, i, 0x0C0 + 0x4 * j⟩
/-- FUNC.MBOX_TO_VF: RW, R483. -/
abbrev MBOX_TO_VF (i j : Nat) : RegRef := ⟨.FUNC, i, 0x0E0 + 0x4 * j⟩
/-- FUNC.MOD_CFG: RW, R483. -/
abbrev MOD_CFG (i j : Nat) : RegRef := ⟨.FUNC, i, 0x100 + 0x4 * j⟩
end Reg.FUNC

/-! Registers of DISP. -/
namespace Reg.DISP
/-- DISP.DISP_CTRL: RW, R449. -/
abbrev DISP_CTRL : RegRef := ⟨.DISP, 0, 0x040⟩
/-- DISP.DISP_STATUS: RO, R449. -/
abbrev DISP_STATUS : RegRef := ⟨.DISP, 0, 0x044⟩
/-- DISP.CTX_BASE: RW, R449. -/
abbrev CTX_BASE : RegRef := ⟨.DISP, 0, 0x048⟩
/-- DISP.STREAM_BASE: RW, R449. -/
abbrev STREAM_BASE : RegRef := ⟨.DISP, 0, 0x04C⟩
/-- DISP.PROFILE_BASE: RW, R449. -/
abbrev PROFILE_BASE : RegRef := ⟨.DISP, 0, 0x050⟩
/-- DISP.CLASS2_ENG: RWL, R449. -/
abbrev CLASS2_ENG : RegRef := ⟨.DISP, 0, 0x054⟩
/-- DISP.URGENT: RW, R449. -/
abbrev URGENT : RegRef := ⟨.DISP, 0, 0x058⟩
/-- DISP.CHEAP_WAIT: RW, R449. -/
abbrev CHEAP_WAIT : RegRef := ⟨.DISP, 0, 0x05C⟩
/-- DISP.PLACE_WAIT: RW, R449. -/
abbrev PLACE_WAIT : RegRef := ⟨.DISP, 0, 0x060⟩
/-- DISP.REMOTE_TO: RW, R449. -/
abbrev REMOTE_TO : RegRef := ⟨.DISP, 0, 0x064⟩
/-- DISP.FROG_MAX: RW, R449. -/
abbrev FROG_MAX : RegRef := ⟨.DISP, 0, 0x068⟩
/-- DISP.REPORT_MS: RW, R449. -/
abbrev REPORT_MS : RegRef := ⟨.DISP, 0, 0x06C⟩
/-- DISP.CTX_CMD: WO, R449. -/
abbrev CTX_CMD : RegRef := ⟨.DISP, 0, 0x070⟩
/-- DISP.CTX_RESULT: RO, R449. -/
abbrev CTX_RESULT : RegRef := ⟨.DISP, 0, 0x074⟩
/-- DISP.QUAR_CNT: RC, R449. -/
abbrev QUAR_CNT : RegRef := ⟨.DISP, 0, 0x078⟩
/-- DISP.FROG_CNT: RC, R449. -/
abbrev FROG_CNT : RegRef := ⟨.DISP, 0, 0x07C⟩
/-- DISP.PREEMPT_CNT: RC, R449. -/
abbrev PREEMPT_CNT : RegRef := ⟨.DISP, 0, 0x080⟩
/-- DISP.SAVE_CNT: RC, R449. -/
abbrev SAVE_CNT : RegRef := ⟨.DISP, 0, 0x084⟩
/-- DISP.LATE_CNT: RC, R449. -/
abbrev LATE_CNT : RegRef := ⟨.DISP, 0, 0x088⟩
/-- DISP.DESC_ERR: RC, R449. -/
abbrev DESC_ERR : RegRef := ⟨.DISP, 0, 0x08C⟩
/-- DISP.LAST_ERR: RO, R449. -/
abbrev LAST_ERR : RegRef := ⟨.DISP, 0, 0x090⟩
/-- DISP.CLASS2_WAIT_MAX: RC, R449. -/
abbrev CLASS2_WAIT_MAX : RegRef := ⟨.DISP, 0, 0x094⟩
/-- DISP.CTX_VT_SEL: RW, R449. -/
abbrev CTX_VT_SEL : RegRef := ⟨.DISP, 0, 0x098⟩
/-- DISP.CTX_VT_LO: RO, R449. -/
abbrev CTX_VT_LO : RegRef := ⟨.DISP, 0, 0x09C⟩
/-- DISP.CTX_VT_HI: RO, R449. -/
abbrev CTX_VT_HI : RegRef := ⟨.DISP, 0, 0x0A0⟩
end Reg.DISP

/-! Registers of KVW. -/
namespace Reg.KVW
/-- KVW.KVW_CTRL: RW, R294. -/
abbrev KVW_CTRL : RegRef := ⟨.KVW, 0, 0x040⟩
/-- KVW.KVW_STATUS: RO, R294. -/
abbrev KVW_STATUS (i : Nat) : RegRef := ⟨.KVW, i, 0x044⟩
/-- KVW.POOL_BASE_LO: RW, R294. -/
abbrev POOL_BASE_LO : RegRef := ⟨.KVW, 0, 0x048⟩
/-- KVW.POOL_BASE_HI: RW, R294. -/
abbrev POOL_BASE_HI : RegRef := ⟨.KVW, 0, 0x04C⟩
/-- KVW.POOL_FRAMES: RW, R294. -/
abbrev POOL_FRAMES : RegRef := ⟨.KVW, 0, 0x050⟩
/-- KVW.POOL_GEOM: RW, R294. -/
abbrev POOL_GEOM : RegRef := ⟨.KVW, 0, 0x054⟩
/-- KVW.FTAB_LO: RW, R294. -/
abbrev FTAB_LO : RegRef := ⟨.KVW, 0, 0x058⟩
/-- KVW.FTAB_HI: RW, R294. -/
abbrev FTAB_HI : RegRef := ⟨.KVW, 0, 0x05C⟩
/-- KVW.SCALE_LO: RW, R294. -/
abbrev SCALE_LO : RegRef := ⟨.KVW, 0, 0x060⟩
/-- KVW.SCALE_HI: RW, R294. -/
abbrev SCALE_HI : RegRef := ⟨.KVW, 0, 0x064⟩
/-- KVW.STAB_LO: RW, R294. -/
abbrev STAB_LO : RegRef := ⟨.KVW, 0, 0x068⟩
/-- KVW.STAB_HI: RW, R294. -/
abbrev STAB_HI : RegRef := ⟨.KVW, 0, 0x06C⟩
/-- KVW.SEQ_MAX: RW, R294. -/
abbrev SEQ_MAX : RegRef := ⟨.KVW, 0, 0x070⟩
/-- KVW.FREE_HEAD: RO, R294. -/
abbrev FREE_HEAD : RegRef := ⟨.KVW, 0, 0x074⟩
/-- KVW.FREE_FRAMES: RO, R294. -/
abbrev FREE_FRAMES : RegRef := ⟨.KVW, 0, 0x078⟩
/-- KVW.EVICT_CFG: RW, R294. -/
abbrev EVICT_CFG : RegRef := ⟨.KVW, 0, 0x07C⟩
/-- KVW.SEQ_CMD: WO, R294. -/
abbrev SEQ_CMD : RegRef := ⟨.KVW, 0, 0x080⟩
/-- KVW.SEQ_ARG: RW, R294. -/
abbrev SEQ_ARG : RegRef := ⟨.KVW, 0, 0x084⟩
/-- KVW.SEQ_RESULT: RO, R294. -/
abbrev SEQ_RESULT : RegRef := ⟨.KVW, 0, 0x088⟩
/-- KVW.LAB_MISS: RC, R294. -/
abbrev LAB_MISS (i : Nat) : RegRef := ⟨.KVW, i, 0x08C⟩
/-- KVW.MISS_LAT_MAX: RC, R294. -/
abbrev MISS_LAT_MAX (i : Nat) : RegRef := ⟨.KVW, i, 0x090⟩
/-- KVW.EVICT_CNT: RC, R294. -/
abbrev EVICT_CNT (i : Nat) : RegRef := ⟨.KVW, i, 0x094⟩
/-- KVW.DROP_CNT: RC, R294. -/
abbrev DROP_CNT (i : Nat) : RegRef := ⟨.KVW, i, 0x098⟩
/-- KVW.PAUSE_CNT: RC, R294. -/
abbrev PAUSE_CNT (i : Nat) : RegRef := ⟨.KVW, i, 0x09C⟩
/-- KVW.ORPHAN_CNT: RC, R294. -/
abbrev ORPHAN_CNT : RegRef := ⟨.KVW, 0, 0x0A0⟩
/-- KVW.PT_ERR: RC, R294. -/
abbrev PT_ERR (i : Nat) : RegRef := ⟨.KVW, i, 0x0A4⟩
/-- KVW.LAST_ERR: RO, R294. -/
abbrev LAST_ERR (i : Nat) : RegRef := ⟨.KVW, i, 0x0A8⟩
/-- KVW.WCACHE_PAR: RC, R294. -/
abbrev WCACHE_PAR (i : Nat) : RegRef := ⟨.KVW, i, 0x0AC⟩
/-- KVW.POOL_FMT: RW, R294. -/
abbrev POOL_FMT : RegRef := ⟨.KVW, 0, 0x0B0⟩
end Reg.KVW

/-! Registers of TXT. -/
namespace Reg.TXT
/-- TXT.TXT_CTRL: RW, R335. -/
abbrev TXT_CTRL : RegRef := ⟨.TXT, 0, 0x040⟩
/-- TXT.TXT_STATUS: RO, R335. -/
abbrev TXT_STATUS : RegRef := ⟨.TXT, 0, 0x044⟩
/-- TXT.VOCAB_LO: RW, R335. -/
abbrev VOCAB_LO : RegRef := ⟨.TXT, 0, 0x048⟩
/-- TXT.VOCAB_HI: RW, R335. -/
abbrev VOCAB_HI : RegRef := ⟨.TXT, 0, 0x04C⟩
/-- TXT.VOCAB_CMD: WO, R335. -/
abbrev VOCAB_CMD : RegRef := ⟨.TXT, 0, 0x050⟩
/-- TXT.VOCAB_INFO: RO, R335. -/
abbrev VOCAB_INFO : RegRef := ⟨.TXT, 0, 0x054⟩
/-- TXT.CSTATE_LO: RW, R335. -/
abbrev CSTATE_LO : RegRef := ⟨.TXT, 0, 0x058⟩
/-- TXT.CSTATE_HI: RW, R335. -/
abbrev CSTATE_HI : RegRef := ⟨.TXT, 0, 0x05C⟩
/-- TXT.CSTATE_MAX: RW, R335. -/
abbrev CSTATE_MAX : RegRef := ⟨.TXT, 0, 0x060⟩
/-- TXT.CSET_LO: RW, R335. -/
abbrev CSET_LO : RegRef := ⟨.TXT, 0, 0x064⟩
/-- TXT.CSET_HI: RW, R335. -/
abbrev CSET_HI : RegRef := ⟨.TXT, 0, 0x068⟩
/-- TXT.CSET_CMD: WO, R335. -/
abbrev CSET_CMD : RegRef := ⟨.TXT, 0, 0x06C⟩
/-- TXT.CSET_STATUS: RO, R335. -/
abbrev CSET_STATUS : RegRef := ⟨.TXT, 0, 0x070⟩
/-- TXT.MASK_LIMIT: RW, R335. -/
abbrev MASK_LIMIT : RegRef := ⟨.TXT, 0, 0x074⟩
/-- TXT.MASK_CNT: RC, R335. -/
abbrev MASK_CNT : RegRef := ⟨.TXT, 0, 0x078⟩
/-- TXT.MASK_LATE: RC, R335. -/
abbrev MASK_LATE : RegRef := ⟨.TXT, 0, 0x07C⟩
/-- TXT.MASK_DEAD: RC, R335. -/
abbrev MASK_DEAD : RegRef := ⟨.TXT, 0, 0x080⟩
/-- TXT.MASK_SLOW: RC, R335. -/
abbrev MASK_SLOW : RegRef := ⟨.TXT, 0, 0x084⟩
/-- TXT.MASK_TIME_MAX: RC, R335. -/
abbrev MASK_TIME_MAX : RegRef := ⟨.TXT, 0, 0x088⟩
/-- TXT.TOK_UNITS: RC, R335. -/
abbrev TOK_UNITS : RegRef := ⟨.TXT, 0, 0x08C⟩
/-- TXT.TOK_BYTE_FB: RC, R335. -/
abbrev TOK_BYTE_FB : RegRef := ⟨.TXT, 0, 0x090⟩
/-- TXT.DETOK_REPL: RC, R335. -/
abbrev DETOK_REPL : RegRef := ⟨.TXT, 0, 0x094⟩
/-- TXT.VCACHE_MISS: RC, R335. -/
abbrev VCACHE_MISS : RegRef := ⟨.TXT, 0, 0x098⟩
/-- TXT.VCACHE_PAR: RC, R335. -/
abbrev VCACHE_PAR : RegRef := ⟨.TXT, 0, 0x09C⟩
/-- TXT.LAST_ERR: RO, R335. -/
abbrev LAST_ERR : RegRef := ⟨.TXT, 0, 0x0A0⟩
end Reg.TXT

/-! Registers of JPG. -/
namespace Reg.JPG
/-- JPG.JPG_CTRL: RW, R242. -/
abbrev JPG_CTRL : RegRef := ⟨.JPG, 0, 0x040⟩
/-- JPG.JPG_STATUS: RO, R242. -/
abbrev JPG_STATUS : RegRef := ⟨.JPG, 0, 0x044⟩
/-- JPG.IMG_CNT: RC, R242. -/
abbrev IMG_CNT : RegRef := ⟨.JPG, 0, 0x048⟩
/-- JPG.PIX_LO: RO, R242. -/
abbrev PIX_LO : RegRef := ⟨.JPG, 0, 0x04C⟩
/-- JPG.PIX_HI: RO, R242. -/
abbrev PIX_HI : RegRef := ⟨.JPG, 0, 0x050⟩
/-- JPG.ENTROPY_ERR: RC, R242. -/
abbrev ENTROPY_ERR : RegRef := ⟨.JPG, 0, 0x054⟩
/-- JPG.UNSUPP: RC, R242. -/
abbrev UNSUPP : RegRef := ⟨.JPG, 0, 0x058⟩
/-- JPG.UNSUPP_CODE: RO, R242. -/
abbrev UNSUPP_CODE : RegRef := ⟨.JPG, 0, 0x05C⟩
/-- JPG.MARKER_OFS: RO, R242. -/
abbrev MARKER_OFS : RegRef := ⟨.JPG, 0, 0x060⟩
end Reg.JPG

/-! Registers of AUG. -/
namespace Reg.AUG
/-- AUG.AUG_CTRL: RW, R243. -/
abbrev AUG_CTRL : RegRef := ⟨.AUG, 0, 0x040⟩
/-- AUG.AUG_STATUS: RO, R243. -/
abbrev AUG_STATUS : RegRef := ⟨.AUG, 0, 0x044⟩
/-- AUG.SAMPLE_CNT: RC, R243. -/
abbrev SAMPLE_CNT : RegRef := ⟨.AUG, 0, 0x048⟩
/-- AUG.PARAM_ERR: RC, R243. -/
abbrev PARAM_ERR : RegRef := ⟨.AUG, 0, 0x04C⟩
/-- AUG.TEST_SEED_LO: RW, R243. -/
abbrev TEST_SEED_LO : RegRef := ⟨.AUG, 0, 0x050⟩
/-- AUG.TEST_SEED_HI: RW, R243. -/
abbrev TEST_SEED_HI : RegRef := ⟨.AUG, 0, 0x054⟩
/-- AUG.TEST_INDEX: RW, R243. -/
abbrev TEST_INDEX : RegRef := ⟨.AUG, 0, 0x058⟩
/-- AUG.TEST_DRAW: RW, R243. -/
abbrev TEST_DRAW : RegRef := ⟨.AUG, 0, 0x05C⟩
/-- AUG.TEST_CMD: WO, R243. -/
abbrev TEST_CMD : RegRef := ⟨.AUG, 0, 0x060⟩
/-- AUG.TEST_OUT_LO: RO, R243. -/
abbrev TEST_OUT_LO : RegRef := ⟨.AUG, 0, 0x064⟩
/-- AUG.TEST_OUT_HI: RO, R243. -/
abbrev TEST_OUT_HI : RegRef := ⟨.AUG, 0, 0x068⟩
end Reg.AUG

/-! Registers of ENG. -/
namespace Reg.ENG
/-- ENG.CTRL: RW, R160. -/
abbrev CTRL (i : Nat) : RegRef := ⟨.ENG, i, 0x040⟩
/-- ENG.ENG_STATE: RO, R160. -/
abbrev ENG_STATE (i : Nat) : RegRef := ⟨.ENG, i, 0x044⟩
/-- ENG.DUMMY: RW, R160. -/
abbrev DUMMY (i : Nat) : RegRef := ⟨.ENG, i, 0x048⟩
/-- ENG.ARR_REPAIR: RO, R160. -/
abbrev ARR_REPAIR (i : Nat) : RegRef := ⟨.ENG, i, 0x04C⟩
/-- ENG.CHK_ROW: RC, R160. -/
abbrev CHK_ROW (i : Nat) : RegRef := ⟨.ENG, i, 0x050⟩
/-- ENG.CHK_TILE: RC, R160. -/
abbrev CHK_TILE (i : Nat) : RegRef := ⟨.ENG, i, 0x054⟩
/-- ENG.CHK_PERM: RC, R160. -/
abbrev CHK_PERM (i : Nat) : RegRef := ⟨.ENG, i, 0x058⟩
/-- ENG.TRANS_THRESH: RW, R160. -/
abbrev TRANS_THRESH (i : Nat) : RegRef := ⟨.ENG, i, 0x05C⟩
/-- ENG.ISSUE_CYC_LO: RO, R160. -/
abbrev ISSUE_CYC_LO (i : Nat) : RegRef := ⟨.ENG, i, 0x060⟩
/-- ENG.ISSUE_CYC_HI: RO, R160. -/
abbrev ISSUE_CYC_HI (i : Nat) : RegRef := ⟨.ENG, i, 0x064⟩
/-- ENG.LOAD_CYC: RC, R160. -/
abbrev LOAD_CYC (i : Nat) : RegRef := ⟨.ENG, i, 0x068⟩
/-- ENG.DUMMY_CYC: RC, R160. -/
abbrev DUMMY_CYC (i : Nat) : RegRef := ⟨.ENG, i, 0x06C⟩
/-- ENG.SWITCH_CNT: RC, R160. -/
abbrev SWITCH_CNT (i : Nat) : RegRef := ⟨.ENG, i, 0x070⟩
/-- ENG.ES_ECC: RC, R160. -/
abbrev ES_ECC (i : Nat) : RegRef := ⟨.ENG, i, 0x074⟩
/-- ENG.VU_CHK: RC, R160. -/
abbrev VU_CHK (i : Nat) : RegRef := ⟨.ENG, i, 0x078⟩
/-- ENG.CLIP_TOTAL: RC, R160. -/
abbrev CLIP_TOTAL (i : Nat) : RegRef := ⟨.ENG, i, 0x07C⟩
/-- ENG.INJECT: RW, R160. -/
abbrev INJECT (i : Nat) : RegRef := ⟨.ENG, i, 0x080⟩
/-- ENG.DIAG_CMD: WO, R160. -/
abbrev DIAG_CMD (i : Nat) : RegRef := ⟨.ENG, i, 0x084⟩
/-- ENG.DIAG_RESULT: RO, R160. -/
abbrev DIAG_RESULT (i : Nat) : RegRef := ⟨.ENG, i, 0x088⟩
end Reg.ENG

/-! Registers of FCE. -/
namespace Reg.FCE
/-- FCE.FCE_CTRL: RW, R164. -/
abbrev FCE_CTRL (i : Nat) : RegRef := ⟨.FCE, i, 0x040⟩
/-- FCE.FCE_STATE: RO, R164. -/
abbrev FCE_STATE (i : Nat) : RegRef := ⟨.FCE, i, 0x044⟩
/-- FCE.COL_REPAIR: RO, R164. -/
abbrev COL_REPAIR (i : Nat) : RegRef := ⟨.FCE, i, 0x048⟩
/-- FCE.CHK_CNT: RC, R164. -/
abbrev CHK_CNT (i : Nat) : RegRef := ⟨.FCE, i, 0x04C⟩
/-- FCE.CHK_PERM: RC, R164. -/
abbrev CHK_PERM (i : Nat) : RegRef := ⟨.FCE, i, 0x050⟩
/-- FCE.OUT_POS_LO: RO, R164. -/
abbrev OUT_POS_LO (i : Nat) : RegRef := ⟨.FCE, i, 0x054⟩
/-- FCE.OUT_POS_HI: RO, R164. -/
abbrev OUT_POS_HI (i : Nat) : RegRef := ⟨.FCE, i, 0x058⟩
/-- FCE.BUSY_CYC: RC, R164. -/
abbrev BUSY_CYC (i : Nat) : RegRef := ⟨.FCE, i, 0x05C⟩
/-- FCE.INJECT: RW, R164. -/
abbrev INJECT (i : Nat) : RegRef := ⟨.FCE, i, 0x060⟩
/-- FCE.DIAG_CMD: WO, R164. -/
abbrev DIAG_CMD (i : Nat) : RegRef := ⟨.FCE, i, 0x064⟩
/-- FCE.DIAG_RESULT: RO, R164. -/
abbrev DIAG_RESULT (i : Nat) : RegRef := ⟨.FCE, i, 0x068⟩
/-- FCE.TRANS_THRESH: RW, R164. -/
abbrev TRANS_THRESH (i : Nat) : RegRef := ⟨.FCE, i, 0x06C⟩
end Reg.FCE

/-! Registers of CMN. -/
namespace Reg.CMN
/-- CMN.CMN_CTRL: RW, R21. -/
abbrev CMN_CTRL (i : Nat) : RegRef := ⟨.CMN, i, 0x040⟩
/-- CMN.CMN_STATUS: RO, R21. -/
abbrev CMN_STATUS (i : Nat) : RegRef := ⟨.CMN, i, 0x044⟩
/-- CMN.ECC_CNT: RC, R21. -/
abbrev ECC_CNT (i : Nat) : RegRef := ⟨.CMN, i, 0x048⟩
/-- CMN.ECC_ADDR: RO, R21. -/
abbrev ECC_ADDR (i : Nat) : RegRef := ⟨.CMN, i, 0x04C⟩
/-- CMN.RD_BEATS: RC, R21. -/
abbrev RD_BEATS (i : Nat) : RegRef := ⟨.CMN, i, 0x050⟩
/-- CMN.WR_BEATS: RC, R21. -/
abbrev WR_BEATS (i : Nat) : RegRef := ⟨.CMN, i, 0x054⟩
/-- CMN.PORT_BUSY: RC, R21. -/
abbrev PORT_BUSY (i : Nat) : RegRef := ⟨.CMN, i, 0x058⟩
/-- CMN.SCRUB_S: RW, R21. -/
abbrev SCRUB_S (i : Nat) : RegRef := ⟨.CMN, i, 0x05C⟩
/-- CMN.INJECT: RW, R21. -/
abbrev INJECT (i : Nat) : RegRef := ⟨.CMN, i, 0x060⟩
/-- CMN.REDIRECT: RO, R21. -/
abbrev REDIRECT (i : Nat) : RegRef := ⟨.CMN, i, 0x064⟩
end Reg.CMN

/-! Registers of MEMC. -/
namespace Reg.MEMC
/-- MEMC.MEMC_CTRL: RW, R617. -/
abbrev MEMC_CTRL (i : Nat) : RegRef := ⟨.MEMC, i, 0x040⟩
/-- MEMC.MEMC_STATUS: RO, R617. -/
abbrev MEMC_STATUS (i : Nat) : RegRef := ⟨.MEMC, i, 0x044⟩
/-- MEMC.ECC_CNT: RC, R617. -/
abbrev ECC_CNT (i : Nat) : RegRef := ⟨.MEMC, i, 0x048⟩
/-- MEMC.ERR_ADDR_LO: RO, R617. -/
abbrev ERR_ADDR_LO (i : Nat) : RegRef := ⟨.MEMC, i, 0x04C⟩
/-- MEMC.ERR_ADDR_HI: RO, R617. -/
abbrev ERR_ADDR_HI (i : Nat) : RegRef := ⟨.MEMC, i, 0x050⟩
/-- MEMC.RD_BYTES: RC, R617. -/
abbrev RD_BYTES (i : Nat) : RegRef := ⟨.MEMC, i, 0x054⟩
/-- MEMC.WR_BYTES: RC, R617. -/
abbrev WR_BYTES (i : Nat) : RegRef := ⟨.MEMC, i, 0x058⟩
/-- MEMC.SCRUB_H: RW, R617. -/
abbrev SCRUB_H (i : Nat) : RegRef := ⟨.MEMC, i, 0x05C⟩
/-- MEMC.RETRAIN_CNT: RC, R617. -/
abbrev RETRAIN_CNT (i : Nat) : RegRef := ⟨.MEMC, i, 0x060⟩
/-- MEMC.INJECT: RW, R617. -/
abbrev INJECT (i : Nat) : RegRef := ⟨.MEMC, i, 0x064⟩
/-- MEMC.PPR_CNT: RC, R617. -/
abbrev PPR_CNT (i : Nat) : RegRef := ⟨.MEMC, i, 0x068⟩
end Reg.MEMC

/-! Registers of LINK. -/
namespace Reg.LINK
/-- LINK.LINK_CTRL: RW, R655. -/
abbrev LINK_CTRL (i : Nat) : RegRef := ⟨.LINK, i, 0x040⟩
/-- LINK.LINK_STATUS: RO, R655. -/
abbrev LINK_STATUS (i : Nat) : RegRef := ⟨.LINK, i, 0x044⟩
/-- LINK.LANE_MAP: RO, R655. -/
abbrev LANE_MAP (i : Nat) : RegRef := ⟨.LINK, i, 0x048⟩
/-- LINK.LANE_SEL: RW, R655. -/
abbrev LANE_SEL (i : Nat) : RegRef := ⟨.LINK, i, 0x04C⟩
/-- LINK.LANE_HEALTH: RO, R655. -/
abbrev LANE_HEALTH (i : Nat) : RegRef := ⟨.LINK, i, 0x050⟩
/-- LINK.FEC_CORR: RC, R655. -/
abbrev FEC_CORR (i : Nat) : RegRef := ⟨.LINK, i, 0x054⟩
/-- LINK.FEC_UNCORR: RC, R655. -/
abbrev FEC_UNCORR (i : Nat) : RegRef := ⟨.LINK, i, 0x058⟩
/-- LINK.REPLAY_CNT: RC, R655. -/
abbrev REPLAY_CNT (i : Nat) : RegRef := ⟨.LINK, i, 0x05C⟩
/-- LINK.LINK_DELAY: RO, R655. -/
abbrev LINK_DELAY (i : Nat) : RegRef := ⟨.LINK, i, 0x060⟩
/-- LINK.TIME_OFS: RO, R655. -/
abbrev TIME_OFS (i : Nat) : RegRef := ⟨.LINK, i, 0x064⟩
/-- LINK.LINK_TO: RW, R655. -/
abbrev LINK_TO (i : Nat) : RegRef := ⟨.LINK, i, 0x068⟩
/-- LINK.LOOP_CNT: RC, R655. -/
abbrev LOOP_CNT (i : Nat) : RegRef := ⟨.LINK, i, 0x06C⟩
/-- LINK.DEV_CFG: RW, R655. -/
abbrev DEV_CFG : RegRef := ⟨.LINK, 0, 0x080⟩
/-- LINK.DEV_STATUS: RO, R655. -/
abbrev DEV_STATUS : RegRef := ⟨.LINK, 0, 0x084⟩
/-- LINK.ROUTE_LOST: W1C, R655. -/
abbrev ROUTE_LOST : RegRef := ⟨.LINK, 0, 0x088⟩
/-- LINK.ROUTE_HOPS: RO, R655. -/
abbrev ROUTE_HOPS : RegRef := ⟨.LINK, 0, 0x08C⟩
/-- LINK.WIN_SEL: RW, R655. -/
abbrev WIN_SEL : RegRef := ⟨.LINK, 0, 0x090⟩
/-- LINK.WIN_BASE_LO: RW, R655. -/
abbrev WIN_BASE_LO : RegRef := ⟨.LINK, 0, 0x094⟩
/-- LINK.WIN_BASE_HI: RW, R655. -/
abbrev WIN_BASE_HI : RegRef := ⟨.LINK, 0, 0x098⟩
/-- LINK.WIN_CFG: RW, R655. -/
abbrev WIN_CFG : RegRef := ⟨.LINK, 0, 0x09C⟩
/-- LINK.WIN_REFUSE: RC, R655. -/
abbrev WIN_REFUSE : RegRef := ⟨.LINK, 0, 0x0A0⟩
/-- LINK.FWD_SEL: RW, R655. -/
abbrev FWD_SEL : RegRef := ⟨.LINK, 0, 0x0A4⟩
/-- LINK.FWD_CFG: RW, R655. -/
abbrev FWD_CFG : RegRef := ⟨.LINK, 0, 0x0A8⟩
/-- LINK.IMP_SEL: RW, R655. -/
abbrev IMP_SEL : RegRef := ⟨.LINK, 0, 0x0AC⟩
/-- LINK.IMP_CFG: RW, R655. -/
abbrev IMP_CFG : RegRef := ⟨.LINK, 0, 0x0B0⟩
/-- LINK.IMP_MISS: RC, R655. -/
abbrev IMP_MISS : RegRef := ⟨.LINK, 0, 0x0B4⟩
end Reg.LINK

/-! Registers of SFE. -/
namespace Reg.SFE
/-- SFE.SFE_CTRL: RW, R115. -/
abbrev SFE_CTRL : RegRef := ⟨.SFE, 0, 0x040⟩
/-- SFE.INGEST_LIMIT: RO, R115. -/
abbrev INGEST_LIMIT : RegRef := ⟨.SFE, 0, 0x044⟩
/-- SFE.INGEST_ALLOC: RO, R115. -/
abbrev INGEST_ALLOC : RegRef := ⟨.SFE, 0, 0x048⟩
/-- SFE.LB_FREE: RO, R115. -/
abbrev LB_FREE : RegRef := ⟨.SFE, 0, 0x04C⟩
/-- SFE.PATH_CTRL: RW, R115. -/
abbrev PATH_CTRL (j : Nat) : RegRef := ⟨.SFE, 0, 0x100 + 0x40 * j⟩
/-- SFE.PATH_GEOM: RW, R115. -/
abbrev PATH_GEOM (j : Nat) : RegRef := ⟨.SFE, 0, 0x104 + 0x40 * j⟩
/-- SFE.PATH_STREAM: RW, R115. -/
abbrev PATH_STREAM (j : Nat) : RegRef := ⟨.SFE, 0, 0x108 + 0x40 * j⟩
/-- SFE.PATH_LB: RW, R115. -/
abbrev PATH_LB (j : Nat) : RegRef := ⟨.SFE, 0, 0x10C + 0x40 * j⟩
/-- SFE.PATH_ITEM: RW, R115. -/
abbrev PATH_ITEM (j : Nat) : RegRef := ⟨.SFE, 0, 0x110 + 0x40 * j⟩
/-- SFE.MAX_LINES: RW, R115. -/
abbrev MAX_LINES (j : Nat) : RegRef := ⟨.SFE, 0, 0x114 + 0x40 * j⟩
/-- SFE.RATE_DECL: RW, R115. -/
abbrev RATE_DECL (j : Nat) : RegRef := ⟨.SFE, 0, 0x118 + 0x40 * j⟩
/-- SFE.PATH_WAIT: RW, R115. -/
abbrev PATH_WAIT (j : Nat) : RegRef := ⟨.SFE, 0, 0x11C + 0x40 * j⟩
/-- SFE.DEST_BASE: RW, R115. -/
abbrev DEST_BASE (j : Nat) : RegRef := ⟨.SFE, 0, 0x120 + 0x40 * j⟩
/-- SFE.DEST_CFG: RW, R115. -/
abbrev DEST_CFG (j : Nat) : RegRef := ⟨.SFE, 0, 0x124 + 0x40 * j⟩
/-- SFE.DEST_HEAD: RW, R115. -/
abbrev DEST_HEAD (j : Nat) : RegRef := ⟨.SFE, 0, 0x128 + 0x40 * j⟩
/-- SFE.DEST_TAIL: RO, R115. -/
abbrev DEST_TAIL (j : Nat) : RegRef := ⟨.SFE, 0, 0x12C + 0x40 * j⟩
/-- SFE.STAMP_ADJ: RW, R115. -/
abbrev STAMP_ADJ (j : Nat) : RegRef := ⟨.SFE, 0, 0x130 + 0x40 * j⟩
/-- SFE.PATH_CMD: WO, R115. -/
abbrev PATH_CMD (j : Nat) : RegRef := ⟨.SFE, 0, 0x134 + 0x40 * j⟩
/-- SFE.PATH_STATUS: RO, R115. -/
abbrev PATH_STATUS (j : Nat) : RegRef := ⟨.SFE, 0, 0x138 + 0x40 * j⟩
/-- SFE.PATH_EVENTS: W1C, R115. -/
abbrev PATH_EVENTS (j : Nat) : RegRef := ⟨.SFE, 0, 0x13C + 0x40 * j⟩
end Reg.SFE

/-! Registers of AFE. -/
namespace Reg.AFE
/-- AFE.AFE_CTRL: RW, R118. -/
abbrev AFE_CTRL (i : Nat) : RegRef := ⟨.AFE, i, 0x040⟩
/-- AFE.BLK_CTRL: RW, R118. -/
abbrev BLK_CTRL (i : Nat) : RegRef := ⟨.AFE, i, 0x044⟩
/-- AFE.CH_MAP_LO: RWL, R118. -/
abbrev CH_MAP_LO (i : Nat) : RegRef := ⟨.AFE, i, 0x048⟩
/-- AFE.CH_MAP_HI: RWL, R118. -/
abbrev CH_MAP_HI (i : Nat) : RegRef := ⟨.AFE, i, 0x04C⟩
/-- AFE.SHADOW: RW, R118. -/
abbrev SHADOW (i : Nat) : RegRef := ⟨.AFE, i, 0x050⟩
/-- AFE.CH_FAULT: RO, R118. -/
abbrev CH_FAULT (i : Nat) : RegRef := ⟨.AFE, i, 0x054⟩
/-- AFE.CLIP_CNT: RC, R118. -/
abbrev CLIP_CNT (i : Nat) : RegRef := ⟨.AFE, i, 0x058⟩
/-- AFE.CH_GAIN: RW, R118. -/
abbrev CH_GAIN (i j : Nat) : RegRef := ⟨.AFE, i, 0x100 + 0x10 * j⟩
/-- AFE.CH_OFFSET: RW, R118. -/
abbrev CH_OFFSET (i j : Nat) : RegRef := ⟨.AFE, i, 0x104 + 0x10 * j⟩
/-- AFE.CH_SEG: RW, R118. -/
abbrev CH_SEG (i j : Nat) : RegRef := ⟨.AFE, i, 0x108 + 0x10 * j⟩
/-- AFE.CH_BLACK: RO, R118. -/
abbrev CH_BLACK (i j : Nat) : RegRef := ⟨.AFE, i, 0x10C + 0x10 * j⟩
end Reg.AFE

/-! Registers of PGEN. -/
namespace Reg.PGEN
/-- PGEN.PG_CTRL: RW, R119. -/
abbrev PG_CTRL (i : Nat) : RegRef := ⟨.PGEN, i, 0x040⟩
/-- PGEN.PG_STATUS: RO, R119. -/
abbrev PG_STATUS (i : Nat) : RegRef := ⟨.PGEN, i, 0x044⟩
/-- PGEN.LOOP_A: RW, R119. -/
abbrev LOOP_A (i : Nat) : RegRef := ⟨.PGEN, i, 0x048⟩
/-- PGEN.LOOP_B: RW, R119. -/
abbrev LOOP_B (i : Nat) : RegRef := ⟨.PGEN, i, 0x04C⟩
/-- PGEN.OUT_IDLE: RW, R119. -/
abbrev OUT_IDLE (i : Nat) : RegRef := ⟨.PGEN, i, 0x050⟩
/-- PGEN.OUT_EN: RW, R119. -/
abbrev OUT_EN (i : Nat) : RegRef := ⟨.PGEN, i, 0x054⟩
/-- PGEN.PM_ADDR: RW, R119. -/
abbrev PM_ADDR (i : Nat) : RegRef := ⟨.PGEN, i, 0x058⟩
/-- PGEN.PM_DATA_LO: RW, R119. -/
abbrev PM_DATA_LO (i : Nat) : RegRef := ⟨.PGEN, i, 0x05C⟩
/-- PGEN.PM_DATA_HI: RW, R119. -/
abbrev PM_DATA_HI (i : Nat) : RegRef := ⟨.PGEN, i, 0x060⟩
/-- PGEN.TRIG_LATE: RC, R119. -/
abbrev TRIG_LATE (i : Nat) : RegRef := ⟨.PGEN, i, 0x064⟩
/-- PGEN.TRIG_DROP: RC, R119. -/
abbrev TRIG_DROP (i : Nat) : RegRef := ⟨.PGEN, i, 0x068⟩
/-- PGEN.SAMPLE_OVR: RC, R119. -/
abbrev SAMPLE_OVR (i : Nat) : RegRef := ⟨.PGEN, i, 0x06C⟩
/-- PGEN.TRIG_CMD: WO, R119. -/
abbrev TRIG_CMD (i : Nat) : RegRef := ⟨.PGEN, i, 0x070⟩
end Reg.PGEN

/-! Registers of ENC. -/
namespace Reg.ENC
/-- ENC.ENC_CTRL: RW, R120. -/
abbrev ENC_CTRL (i : Nat) : RegRef := ⟨.ENC, i, 0x040⟩
/-- ENC.FILT: RW, R120. -/
abbrev FILT (i : Nat) : RegRef := ⟨.ENC, i, 0x044⟩
/-- ENC.DIV_INT: RW, R120. -/
abbrev DIV_INT (i : Nat) : RegRef := ⟨.ENC, i, 0x048⟩
/-- ENC.DIV_FRAC: RW, R120. -/
abbrev DIV_FRAC (i : Nat) : RegRef := ⟨.ENC, i, 0x04C⟩
/-- ENC.STALL_US: RW, R120. -/
abbrev STALL_US (i : Nat) : RegRef := ⟨.ENC, i, 0x050⟩
/-- ENC.RECOVER: RW, R120. -/
abbrev RECOVER (i : Nat) : RegRef := ⟨.ENC, i, 0x054⟩
/-- ENC.TIME_PERIOD: RW, R120. -/
abbrev TIME_PERIOD (i : Nat) : RegRef := ⟨.ENC, i, 0x058⟩
/-- ENC.PERIOD_NS: RO, R120. -/
abbrev PERIOD_NS (i : Nat) : RegRef := ⟨.ENC, i, 0x05C⟩
/-- ENC.POS_LO: RO, R120. -/
abbrev POS_LO (i : Nat) : RegRef := ⟨.ENC, i, 0x060⟩
/-- ENC.POS_HI: RO, R120. -/
abbrev POS_HI (i : Nat) : RegRef := ⟨.ENC, i, 0x064⟩
/-- ENC.ENC_STATUS: RO, R120. -/
abbrev ENC_STATUS (i : Nat) : RegRef := ⟨.ENC, i, 0x068⟩
/-- ENC.ENC_EVENTS: W1C, R120. -/
abbrev ENC_EVENTS (i : Nat) : RegRef := ⟨.ENC, i, 0x06C⟩
/-- ENC.TRIG_CNT: RO, R120. -/
abbrev TRIG_CNT (i : Nat) : RegRef := ⟨.ENC, i, 0x070⟩
/-- ENC.OVERSPEED_CNT: RC, R120. -/
abbrev OVERSPEED_CNT (i : Nat) : RegRef := ⟨.ENC, i, 0x074⟩
end Reg.ENC

/-! Registers of CXP. -/
namespace Reg.CXP
/-- CXP.CXP_CTRL: RW, R121. -/
abbrev CXP_CTRL (i : Nat) : RegRef := ⟨.CXP, i, 0x040⟩
/-- CXP.CXP_STATUS: RO, R121. -/
abbrev CXP_STATUS (i : Nat) : RegRef := ⟨.CXP, i, 0x044⟩
/-- CXP.CMD_ADDR: RW, R121. -/
abbrev CMD_ADDR (i : Nat) : RegRef := ⟨.CXP, i, 0x048⟩
/-- CXP.CMD_DATA: RW, R121. -/
abbrev CMD_DATA (i : Nat) : RegRef := ⟨.CXP, i, 0x04C⟩
/-- CXP.CMD_GO: WO, R121. -/
abbrev CMD_GO (i : Nat) : RegRef := ⟨.CXP, i, 0x050⟩
/-- CXP.CMD_STATUS: RO, R121. -/
abbrev CMD_STATUS (i : Nat) : RegRef := ⟨.CXP, i, 0x054⟩
/-- CXP.PKT_ERR: RC, R121. -/
abbrev PKT_ERR (i : Nat) : RegRef := ⟨.CXP, i, 0x058⟩
/-- CXP.LINE_ERR: RC, R121. -/
abbrev LINE_ERR (i : Nat) : RegRef := ⟨.CXP, i, 0x05C⟩
/-- CXP.EVENT_DATA: RO, R121. -/
abbrev EVENT_DATA (i : Nat) : RegRef := ⟨.CXP, i, 0x060⟩
/-- CXP.HEARTBEAT: RO, R121. -/
abbrev HEARTBEAT (i : Nat) : RegRef := ⟨.CXP, i, 0x064⟩
end Reg.CXP

/-! Registers of CSI. -/
namespace Reg.CSI
/-- CSI.CSI_CTRL: RW, R122. -/
abbrev CSI_CTRL (i : Nat) : RegRef := ⟨.CSI, i, 0x040⟩
/-- CSI.CSI_STATUS: RO, R122. -/
abbrev CSI_STATUS (i : Nat) : RegRef := ⟨.CSI, i, 0x044⟩
/-- CSI.FRAME_ROWS: RW, R122. -/
abbrev FRAME_ROWS (i : Nat) : RegRef := ⟨.CSI, i, 0x048⟩
/-- CSI.ECC_CORR: RC, R122. -/
abbrev ECC_CORR (i : Nat) : RegRef := ⟨.CSI, i, 0x04C⟩
/-- CSI.ECC_UNCORR: RC, R122. -/
abbrev ECC_UNCORR (i : Nat) : RegRef := ⟨.CSI, i, 0x050⟩
/-- CSI.CRC_ERR: RC, R122. -/
abbrev CRC_ERR (i : Nat) : RegRef := ⟨.CSI, i, 0x054⟩
/-- CSI.FRAME_CNT: RO, R122. -/
abbrev FRAME_CNT (i : Nat) : RegRef := ⟨.CSI, i, 0x058⟩
end Reg.CSI

/-! Registers of TSN. -/
namespace Reg.TSN
/-- TSN.TSN_CTRL: RW, R395. -/
abbrev TSN_CTRL (i : Nat) : RegRef := ⟨.TSN, i, 0x040⟩
/-- TSN.TSN_STATUS: RO, R395. -/
abbrev TSN_STATUS (i : Nat) : RegRef := ⟨.TSN, i, 0x044⟩
/-- TSN.MAC_LO: RW, R395. -/
abbrev MAC_LO (i : Nat) : RegRef := ⟨.TSN, i, 0x048⟩
/-- TSN.MAC_HI: RW, R395. -/
abbrev MAC_HI (i : Nat) : RegRef := ⟨.TSN, i, 0x04C⟩
/-- TSN.REL_TSC_LO: RO, R395. -/
abbrev REL_TSC_LO (i : Nat) : RegRef := ⟨.TSN, i, 0x050⟩
/-- TSN.REL_TSC_HI: RO, R395. -/
abbrev REL_TSC_HI (i : Nat) : RegRef := ⟨.TSN, i, 0x054⟩
/-- TSN.REL_AS_LO: RO, R395. -/
abbrev REL_AS_LO (i : Nat) : RegRef := ⟨.TSN, i, 0x058⟩
/-- TSN.REL_AS_HI: RO, R395. -/
abbrev REL_AS_HI (i : Nat) : RegRef := ⟨.TSN, i, 0x05C⟩
/-- TSN.REL_RATE: RO, R395. -/
abbrev REL_RATE (i : Nat) : RegRef := ⟨.TSN, i, 0x060⟩
/-- TSN.AS_OFFSET: RO, R395. -/
abbrev AS_OFFSET (i : Nat) : RegRef := ⟨.TSN, i, 0x064⟩
/-- TSN.PDELAY: RO, R395. -/
abbrev PDELAY (i : Nat) : RegRef := ⟨.TSN, i, 0x068⟩
/-- TSN.GCL_ADDR: RW, R395. -/
abbrev GCL_ADDR (i : Nat) : RegRef := ⟨.TSN, i, 0x06C⟩
/-- TSN.GCL_DATA: RW, R395. -/
abbrev GCL_DATA (i : Nat) : RegRef := ⟨.TSN, i, 0x070⟩
/-- TSN.GCL_CFG: RW, R395. -/
abbrev GCL_CFG (i : Nat) : RegRef := ⟨.TSN, i, 0x074⟩
/-- TSN.GCL_BASE_LO: RW, R395. -/
abbrev GCL_BASE_LO (i : Nat) : RegRef := ⟨.TSN, i, 0x078⟩
/-- TSN.GCL_BASE_HI: RW, R395. -/
abbrev GCL_BASE_HI (i : Nat) : RegRef := ⟨.TSN, i, 0x07C⟩
/-- TSN.GCL_CYCLE: RW, R395. -/
abbrev GCL_CYCLE (i : Nat) : RegRef := ⟨.TSN, i, 0x080⟩
/-- TSN.GCL_CMD: WO, R395. -/
abbrev GCL_CMD (i : Nat) : RegRef := ⟨.TSN, i, 0x084⟩
/-- TSN.SF_ADDR: RW, R395. -/
abbrev SF_ADDR (i : Nat) : RegRef := ⟨.TSN, i, 0x088⟩
/-- TSN.SF_KEY_LO: RW, R395. -/
abbrev SF_KEY_LO (i : Nat) : RegRef := ⟨.TSN, i, 0x08C⟩
/-- TSN.SF_KEY_HI: RW, R395. -/
abbrev SF_KEY_HI (i : Nat) : RegRef := ⟨.TSN, i, 0x090⟩
/-- TSN.SF_CFG: RW, R395. -/
abbrev SF_CFG (i : Nat) : RegRef := ⟨.TSN, i, 0x094⟩
/-- TSN.SF_METER: RW, R395. -/
abbrev SF_METER (i : Nat) : RegRef := ⟨.TSN, i, 0x098⟩
/-- TSN.CB_CFG: RW, R395. -/
abbrev CB_CFG (i : Nat) : RegRef := ⟨.TSN, i, 0x09C⟩
/-- TSN.RX_CONTEXT: RW, R395. -/
abbrev RX_CONTEXT (i : Nat) : RegRef := ⟨.TSN, i, 0x0A0⟩
/-- TSN.RX_FRAMES: RC, R395. -/
abbrev RX_FRAMES (i : Nat) : RegRef := ⟨.TSN, i, 0x0A4⟩
/-- TSN.RX_DROP: RC, R395. -/
abbrev RX_DROP (i : Nat) : RegRef := ⟨.TSN, i, 0x0A8⟩
/-- TSN.CB_ELIM: RC, R395. -/
abbrev CB_ELIM (i : Nat) : RegRef := ⟨.TSN, i, 0x0AC⟩
/-- TSN.TX_LATE_GATE: RC, R395. -/
abbrev TX_LATE_GATE (i : Nat) : RegRef := ⟨.TSN, i, 0x0B0⟩
end Reg.TSN

/-! Registers of SSI. -/
namespace Reg.SSI
/-- SSI.SSI_CTRL: RW, R396. -/
abbrev SSI_CTRL : RegRef := ⟨.SSI, 0, 0x040⟩
/-- SSI.SSI_STATUS: RO, R396. -/
abbrev SSI_STATUS : RegRef := ⟨.SSI, 0, 0x044⟩
/-- SSI.SET_MASK: RW, R396. -/
abbrev SET_MASK : RegRef := ⟨.SSI, 0, 0x048⟩
/-- SSI.SET_STREAM: RW, R396. -/
abbrev SET_STREAM : RegRef := ⟨.SSI, 0, 0x04C⟩
/-- SSI.SET_TRIG: RW, R396. -/
abbrev SET_TRIG : RegRef := ⟨.SSI, 0, 0x050⟩
/-- SSI.SSI_CMD: WO, R396. -/
abbrev SSI_CMD : RegRef := ⟨.SSI, 0, 0x054⟩
/-- SSI.ERR_CNT: RC, R396. -/
abbrev ERR_CNT : RegRef := ⟨.SSI, 0, 0x058⟩
/-- SSI.OVERRUN_CNT: RC, R396. -/
abbrev OVERRUN_CNT : RegRef := ⟨.SSI, 0, 0x05C⟩
/-- SSI.CH_CFG: RW, R396. -/
abbrev CH_CFG (j : Nat) : RegRef := ⟨.SSI, 0, 0x100 + 0x10 * j⟩
/-- SSI.CH_DATA: RW, R396. -/
abbrev CH_DATA (j : Nat) : RegRef := ⟨.SSI, 0, 0x104 + 0x10 * j⟩
/-- SSI.CH_TIMING: RW, R396. -/
abbrev CH_TIMING (j : Nat) : RegRef := ⟨.SSI, 0, 0x108 + 0x10 * j⟩
/-- SSI.CH_LAST: RO, R396. -/
abbrev CH_LAST (j : Nat) : RegRef := ⟨.SSI, 0, 0x10C + 0x10 * j⟩
end Reg.SSI

/-! Registers of CEU. -/
namespace Reg.CEU
/-- CEU.CEU_CTRL: RW, R397. -/
abbrev CEU_CTRL : RegRef := ⟨.CEU, 0, 0x040⟩
/-- CEU.CEU_STATUS: RO, R397. -/
abbrev CEU_STATUS : RegRef := ⟨.CEU, 0, 0x044⟩
/-- CEU.ETHERTYPE: RW, R397. -/
abbrev ETHERTYPE : RegRef := ⟨.CEU, 0, 0x048⟩
/-- CEU.DEC_TMPL: RW, R397. -/
abbrev DEC_TMPL : RegRef := ⟨.CEU, 0, 0x04C⟩
/-- CEU.FRAMES_SENT: RC, R397. -/
abbrev FRAMES_SENT : RegRef := ⟨.CEU, 0, 0x050⟩
/-- CEU.DEC_SENT: RC, R397. -/
abbrev DEC_SENT : RegRef := ⟨.CEU, 0, 0x054⟩
/-- CEU.TOO_LONG: RC, R397. -/
abbrev TOO_LONG : RegRef := ⟨.CEU, 0, 0x058⟩
/-- CEU.LOOP_CTRL: RW, R397. -/
abbrev LOOP_CTRL (j : Nat) : RegRef := ⟨.CEU, 0, 0x100 + 0x40 * j⟩
/-- CEU.BASE_LO: RW, R397. -/
abbrev BASE_LO (j : Nat) : RegRef := ⟨.CEU, 0, 0x104 + 0x40 * j⟩
/-- CEU.BASE_HI: RW, R397. -/
abbrev BASE_HI (j : Nat) : RegRef := ⟨.CEU, 0, 0x108 + 0x40 * j⟩
/-- CEU.PERIOD: RW, R397. -/
abbrev PERIOD (j : Nat) : RegRef := ⟨.CEU, 0, 0x10C + 0x40 * j⟩
/-- CEU.SAMPLE_OFS: RW, R397. -/
abbrev SAMPLE_OFS (j : Nat) : RegRef := ⟨.CEU, 0, 0x110 + 0x40 * j⟩
/-- CEU.STROBE_OFS: RW, R397. -/
abbrev STROBE_OFS (j : Nat) : RegRef := ⟨.CEU, 0, 0x114 + 0x40 * j⟩
/-- CEU.LAUNCH_OFS: RW, R397. -/
abbrev LAUNCH_OFS (j : Nat) : RegRef := ⟨.CEU, 0, 0x118 + 0x40 * j⟩
/-- CEU.AGE_MAX: RW, R397. -/
abbrev AGE_MAX (j : Nat) : RegRef := ⟨.CEU, 0, 0x11C + 0x40 * j⟩
/-- CEU.PERC_OPEN: RW, R397. -/
abbrev PERC_OPEN (j : Nat) : RegRef := ⟨.CEU, 0, 0x120 + 0x40 * j⟩
/-- CEU.PERC_CLOSE: RW, R397. -/
abbrev PERC_CLOSE (j : Nat) : RegRef := ⟨.CEU, 0, 0x124 + 0x40 * j⟩
/-- CEU.CYCLE: RO, R397. -/
abbrev CYCLE (j : Nat) : RegRef := ⟨.CEU, 0, 0x128 + 0x40 * j⟩
/-- CEU.AGE_LAST: RO, R397. -/
abbrev AGE_LAST (j : Nat) : RegRef := ⟨.CEU, 0, 0x12C + 0x40 * j⟩
/-- CEU.AGE_PEAK: RC, R397. -/
abbrev AGE_PEAK (j : Nat) : RegRef := ⟨.CEU, 0, 0x130 + 0x40 * j⟩
/-- CEU.STALE_CNT: RC, R397. -/
abbrev STALE_CNT (j : Nat) : RegRef := ⟨.CEU, 0, 0x134 + 0x40 * j⟩
/-- CEU.LATE_CNT: RC, R397. -/
abbrev LATE_CNT (j : Nat) : RegRef := ⟨.CEU, 0, 0x138 + 0x40 * j⟩
/-- CEU.SUP_CNT: RC, R397. -/
abbrev SUP_CNT (j : Nat) : RegRef := ⟨.CEU, 0, 0x13C + 0x40 * j⟩
/-- CEU.TPL_DST_LO: RW, R397. -/
abbrev TPL_DST_LO (j : Nat) : RegRef := ⟨.CEU, 0, 0x400 + 0x10 * j⟩
/-- CEU.TPL_DST_HI: RW, R397. -/
abbrev TPL_DST_HI (j : Nat) : RegRef := ⟨.CEU, 0, 0x404 + 0x10 * j⟩
/-- CEU.TPL_VLAN: RW, R397. -/
abbrev TPL_VLAN (j : Nat) : RegRef := ⟨.CEU, 0, 0x408 + 0x10 * j⟩
/-- CEU.TPL_SEQ: RO, R397. -/
abbrev TPL_SEQ (j : Nat) : RegRef := ⟨.CEU, 0, 0x40C + 0x10 * j⟩
end Reg.CEU

end Sys2Proof.Machine
end

