-- ==== Sys2Proof/Machine/State.lean ====
section
/-! DEFINITION. The state of the IB960 block, as plain data: the registers, the memories, the time-stamp counter,
and, block by block, the state the chapters describe beside the registers. Every field's line says what it holds,
the rule that gives it, and (by its default) its value after reset. -/

namespace Sys2Proof.Machine

/-- No command of this model ends in a fault: what the manual calls an error is state (registers, sources, the safe
state), and the machine goes on. The one reason below is raised by no command; it is safe. -/
inductive Fault where
  /-- Raised by nobody: the manual names no event after which the block has no next state. Safe. -/
  | halted
  deriving DecidableEq, Repr

/-- Reasons for refusing a command. -/
inductive Refusal where
  /-- Raised by the dispatch arm of a command whose meaning is not written yet. Safe. -/
  | notModelled (mnemonic : String)
  deriving DecidableEq, Repr

/-! ### Time -/

/-- Time state beside the TSC registers (01_organisation). -/
structure TimeSt where
  /-- R57: sub-nanosecond slew remainder, in units of 10⁻⁹ ns (0 at reset: DESIGN CHOICE, log entry 2). -/
  slewAcc   : Int := 0
  /-- R55: 6-bit fractional accumulator of the deep-sleep count, 1/64 ns. -/
  sleepFrac : BitVec 6 := 0
  /-- R651: signed rate correction Fakan alignment applies through the slewing path, ppb. -/
  alignPpb  : Int := 0
  deriving DecidableEq, Repr

/-! ### Streams -/

/-- What the producers and the dispatcher keep for local stream `n` beside its record in the commons (R404). -/
structure StreamSt where
  /-- R46: frame counter of the next unit. -/
  fc       : BitVec 16 := 0
  /-- R405: ring index of the oldest unit no admitted command has consumed. -/
  take     : Nat := 0
  /-- R47, R753: units the dispatcher has accepted from the stream and no command has taken yet, with their slots. -/
  queue    : List (DUnit × Option Nat) := []
  /-- R405, R418: ring indices consumed and freed out of order, not yet passed by HEAD. -/
  freed    : List Nat := []
  /-- R383, R390: units committed on the stream since a motion loop last looked, with the TSC of the commit. -/
  recent   : List (Nat × DUnit) := []
  deriving DecidableEq, Repr

/-- What a receiver keeps for one stream it consumes (R47, R753), named by its 12-bit stream identifier. -/
structure RxSt where
  /-- R47: expected frame counter. -/
  e       : BitVec 16 := 0
  /-- R753: the last unit accepted (payload dropped). -/
  last    : Option DUnit := none
  /-- R44: items whose LAST has passed in this stream. -/
  closed  : List (BitVec 48) := []
  /-- R47: open items whose later units carry INVALID after a gap. -/
  broken  : List (BitVec 48) := []
  deriving DecidableEq, Repr

/-! ### Capture (02_line_and_frame_capture) -/

/-- Encoder input n. -/
structure EncSt where
  /-- R120: the signed count of POS. -/
  pos       : Int := 0
  /-- R83: edges not yet making a count under MULT. -/
  sub       : Nat := 0
  /-- R85: accumulator, 32 fraction bits. -/
  acc       : Int := 0
  /-- R84: divider in force, 32 fraction bits. -/
  div       : Nat := 4294967296
  /-- R84: a written divider applies from the next trigger. -/
  divPend   : Option Nat := none
  /-- R83: TSC of the last accepted edge since ENABLE. -/
  lastEdge  : Option Nat := none
  /-- R89: TSC at which ENABLE was set; the stall time runs from it while no edge has been accepted. -/
  enabledAt : Nat := 0
  /-- R86: consecutive accepted edges since overspeed began. -/
  recover   : Nat := 0
  /-- R87: TSC of the last count-triggered line, `none` when none since ENABLE. -/
  lastTrig  : Option Nat := none
  /-- R87: count-triggered lines since ENABLE, up to two. -/
  trigSeen  : Nat := 0
  /-- R87: TSC at which the overspeed timer triggers next. -/
  nextTimer : Option Nat := none
  /-- R88: the next count-triggered line is the first after overspeed. -/
  firstAfter : Bool := false
  /-- R117: TSC at which the line timer at TIME_PERIOD triggers next, while a path with TRIG_MODE 1 names this encoder. -/
  lineTimer : Option Nat := none
  deriving DecidableEq, Repr

/-- Where a line trigger comes from (R85, R87, R117, R119). -/
inductive TrigSrc where
  /-- Counts of encoder `n`, or its overspeed timer. -/
  | count (n : Nat)
  /-- The line timer of encoder `n` (TRIG_MODE 1). -/
  | timer (n : Nat)
  /-- TRIG_CMD. -/
  | software
  deriving DecidableEq, Repr

/-- A line trigger on its way to a pattern generator or a camera: its stamp, its source, and the doubts about it (R81,
R88). -/
structure Trig where
  stamp  : Nat := 0
  src    : TrigSrc := .software
  timer  : Bool := false
  after  : Bool := false
  held   : Bool := false
  deriving DecidableEq, Repr

/-- Pattern generator g. -/
structure PgenSt where
  /-- R78: loop counter A. -/
  cntA   : BitVec 16 := 0
  /-- R78: loop counter B. -/
  cntB   : BitVec 16 := 0
  /-- R77: pattern memory, unlisted states 0 (log entry 5). -/
  pmem   : List (Nat × BitVec 64) := []
  /-- R78: TSC at which the present state began or its trigger was taken, in 0.5 ns units, `none` while held. -/
  since  : Option Nat := none
  /-- R81: the held trigger. -/
  held   : Option Trig := none
  /-- R81: a trigger was dropped; the next line is doubtful. -/
  dropped : Bool := false
  /-- R80: TSC (0.5 ns units) of the last SAMPLE mark. -/
  lastSample : Option Nat := none
  /-- R77, R119: levels last put on the 16 timing outputs. -/
  level  : Nat := 0
  deriving DecidableEq, Repr

/-- Physical converter channel c of an AFE group. -/
structure ChanSt where
  /-- R72: sum of the present line's BLACK samples, corrected. -/
  blkSum : Nat := 0
  /-- R72: their number. -/
  blkN   : Nat := 0
  /-- R72: lines since the dark loop last stepped. -/
  lines  : Nat := 0
  /-- R71: reset level taken at the last SHR mark, after the amplifier, in 1/64 of a converter code. -/
  shr    : Int := 0
  /-- R80: the last value delivered. -/
  prev   : BitVec 16 := 0
  /-- R118: pixel values of the present line, in the order sampled. -/
  px     : List (BitVec 16) := []
  deriving DecidableEq, Repr

/-- AFE group g. -/
structure AfeSt where
  chans   : List ChanSt := List.replicate 13 {}
  /-- R76: lines the shadowing spare has converted, counted to 256. -/
  shadowN : Nat := 0
  /-- R76: the spare has shadowed since the present line began. -/
  shadowed : Bool := false
  /-- R118: samples clipped in the present line (CLIP_CNT counts all). -/
  clipLine : Nat := 0
  /-- R118: samples taken in the present line. -/
  sampLine : Nat := 0
  /-- R76: settled has been raised. -/
  settled : Bool := false
  /-- R76: logical channel and spare to switch to at the next line boundary, asked for by DARN. -/
  switchTo : Option (Nat × Nat) := none
  deriving DecidableEq, Repr

/-- A line being captured by a path: triggered and not complete (R106). -/
structure RawLine where
  stamp    : Nat := 0
  timer    : Bool := false
  held     : Bool := false
  repeated : Bool := false
  padded   : Bool := false
  lost     : Bool := false
  doubt    : Bool := false
  /-- Pixel values by position, unlisted positions not delivered. -/
  px       : List (Nat × BitVec 16) := []
  /-- R106: every part of the line has been delivered. -/
  ready    : Bool := false
  /-- R95: format of a camera line; 0 for an AFE line, converted to OUT_FMT (R74). -/
  fmt      : Nat := 0
  /-- R95: components of a pixel, interleaved. -/
  comps    : Nat := 1
  deriving DecidableEq, Repr

/-- A complete output line in the line buffer. -/
structure OutLine where
  stamp : Nat := 0
  /-- Word 1 of its line tag (R112). -/
  tag   : Word := 0
  /-- R113: the line makes its band UNCERTAIN. -/
  doubt : Bool := false
  /-- R97: the line was lost. -/
  lost  : Bool := false
  fmt   : Nat := 0x20
  px    : List (BitVec 16) := []
  deriving DecidableEq, Repr

/-- An item open or closing on a scan path. Lines of the path are numbered from ENABLE on. -/
structure PathItem where
  id       : BitVec 48 := 0
  /-- R102: number of the item's first output line. -/
  first    : Nat := 0
  /-- Number of the next line to deliver. -/
  next     : Nat := 0
  /-- R102, R103: number after the item's last line, once known. -/
  stop     : Option Nat := none
  /-- R108: lines left of the band being delivered in parts. -/
  bandLeft : Nat := 0
  /-- R103: closed by MAX_LINES. -/
  maxed    : Bool := false
  /-- R89, R90, R105, R365: closed by a zero-length unit with INVALID. -/
  aborted  : Bool := false
  /-- R111, R97: later units carry INVALID. -/
  invalid  : Bool := false
  /-- R101, R102: the item has ended on this path; its last unit may still wait. -/
  closed   : Bool := false
  /-- Stamp for a closing unit that has no line: the latest line's. -/
  stamp    : Nat := 0
  deriving DecidableEq, Repr

/-- Scan path p. -/
structure PathSt where
  /-- Lines triggered, not complete, oldest first. -/
  cur      : List RawLine := []
  /-- R91: complete input lines waiting for their averaging group. -/
  group    : List RawLine := []
  /-- Output lines in the line buffer, oldest first. -/
  lb       : List OutLine := []
  /-- Number of the oldest line in `lb`. -/
  lbFirst  : Nat := 0
  /-- R104: items open, closing or waiting for their turn, oldest first. -/
  items    : List PathItem := []
  /-- R107: stamps of the latest 16 lines. -/
  stamps   : List Nat := []
  /-- R108: the wait restarted at this TSC. -/
  waitFrom : Option Nat := none
  /-- R100: delivered bytes of the last 10 µs, by TSC. -/
  window   : List (Nat × Nat) := []
  /-- R100: numbers that lines dropped for over-rate would have had; the bands that would have held them are doubtful. -/
  dropped  : List Nat := []
  /-- Input lines taken since ENABLE. -/
  started  : Nat := 0
  /-- R96: TSC at arrival of the present camera frame's start, less STAMP_ADJ. -/
  frameStamp : Option Nat := none
  /-- R113: numbers of the output lines before which a camera frame ended. -/
  cuts     : List Nat := []
  /-- R110, R112: closing units of a disabled path waiting for a free ring slot, each with its tag unit. -/
  waiting  : List (DUnit × Option DUnit) := []
  deriving DecidableEq, Repr

/-- Capture as a whole. -/
structure CapSt where
  encs  : List EncSt := List.replicate 8 {}
  pgens : List PgenSt := List.replicate 4 {}
  afes  : List AfeSt := List.replicate 4 {}
  paths : List PathSt := List.replicate 16 {}
  /-- R31: item sequence number of the next item opened. -/
  itemSeq : Nat := 1
  /-- R101: accepted level of each gate input, after the PIN filter. -/
  gates : BitVec 16 := 0
  /-- R121: the CXP control transfer in progress is a read. -/
  cxpRead : List Bool := List.replicate 8 false
  /-- R96: the triggers of the trigger packets of each CXP port not yet used by a line, oldest first. -/
  cxpTrig : List (List Trig) := List.replicate 8 []
  deriving DecidableEq, Repr

/-! ### Dispatcher and deadline monitor (10_contexts_and_scheduling, 08_item_to_decision) -/

/-- The states of a command before it completes (10_contexts_and_scheduling, table at the head of the chapter). -/
inductive Phase where
  | admitted | ready | running | staged
  deriving DecidableEq, Repr

/-- A completion entry not yet written (R413): every field but PHASE. -/
structure CqEntry where
  tag     : Nat := 0
  status  : Nat := 0
  wide    : Nat := 0
  declined : Bool := false
  late    : Bool := false
  detail  : Nat := 0
  clip    : Nat := 0
  part    : Nat := 0xFFFF
  run     : Nat := 0
  wait    : Nat := 0
  frogs   : Nat := 0
  irq     : Bool := false
  deriving DecidableEq, Repr

/-- An output unit of a command: the local stream and the unit; counter, flags and CRC are set at commit. -/
structure StagedUnit where
  stream : Nat := 0
  unit   : DUnit
  deriving DecidableEq, Repr

/-- What an attention command did at its admission for one entry of its sequence list (R266 to R285). -/
structure SeqPart where
  /-- Index in the sequence list. -/
  idx   : Nat := 0
  seq   : Nat := 0
  /-- Reason of R285; 0 while the entry runs. -/
  reason : Nat := 0
  /-- R274: paused, waiting for a frame. -/
  paused : Bool := false
  /-- R271: local frames read and the probability mass (FP32 code) each received, for the score update at commit. -/
  frames : List (Nat × Nat) := []
  deriving DecidableEq, Repr

/-- Halo and progress of one layer of a swatch (R210, R215). -/
structure Halo where
  /-- Input rows kept: for each, channels of element codes. -/
  rows : List (List (List Nat)) := []
  /-- Number of the first row kept, rows seen, rows emitted. -/
  base : Nat := 0
  seen : Nat := 0
  out  : Nat := 0
  deriving DecidableEq, Repr

/-- A band of a swatch's item: its first input line, their number, its flags and its stamp (R30, R214). -/
structure SwatchBand where
  first : Nat := 0
  lines : Nat := 0
  flags : BitVec 16 := 0
  stamp : Nat := 0
  deriving DecidableEq, Repr

/-- A swatch as the last band of its item committed it (R215). -/
structure Swatch where
  ctx    : Nat := 0
  stream : Nat := 0
  item   : BitVec 48 := 0
  halos  : List Halo := []
  /-- Rows emitted; band length; bands seen (R214). -/
  out    : Nat := 0
  band   : Nat := 0
  bands  : List SwatchBand := []
  /-- R187: a NaN was met in a band of the item. -/
  nan    : Bool := false
  /-- R209: the logical engine the swatch runs on. -/
  eng    : Option Nat := none
  deriving DecidableEq, Repr

/-- An admitted, uncompleted command. -/
structure Cmd where
  /-- Admission number: orders commands (R422). -/
  id       : Nat := 0
  ctx      : Nat := 0
  /-- R406: the descriptor. -/
  desc     : BitVec 512 := 0
  cls      : Nat := 0
  phase    : Phase := .admitted
  /-- R405: the input unit taken. -/
  input    : Option DUnit := none
  /-- R405: its local stream and ring index. -/
  inSlot   : Option (Nat × Nat) := none
  admitted : Nat := 0
  readyAt  : Nat := 0
  /-- R413: first issue. -/
  issued   : Option Nat := none
  /-- R427: physical engines, in placement order; empty for a block command. -/
  engines  : List Nat := []
  /-- R444: parts that pre-emption took from their engine, waiting for one again. -/
  lost     : List Nat := []
  /-- R416: parts (placement indices) staged. -/
  parts    : List Nat := []
  /-- R435: all frogs. -/
  frogs    : Nat := 0
  /-- R436: frogs that count towards FROG_MAX. -/
  frogsC   : Nat := 0
  /-- R190: wide-re-run ladder step. -/
  step     : Nat := 0
  declined : Bool := false
  /-- R421: reached its commit point after its LCT. -/
  late     : Bool := false
  /-- R415: cause of the last frog, and its part. -/
  detail   : Nat := 0
  part     : Nat := 0xFFFF
  /-- R189: clipped results and results, of the last run; R188: NaN count. -/
  clips    : Nat := 0
  den      : Nat := 0
  /-- R188, R427: the clips of each engine of the placement. -/
  shares   : List Nat := []
  /-- R190: the parts of clips and den that count once for each input unit. -/
  once     : Nat × Nat := (0, 0)
  nans     : Nat := 0
  /-- R346: parked under ITEM_GATE; released. -/
  parked   : Bool := false
  released : Bool := false
  /-- R424: engine time charged to its own context, ns. -/
  runNs    : Nat := 0
  /-- R438: generation of its remote waits, and since when one is open. -/
  gen      : Nat := 0
  remote   : Option Nat := none
  /-- R433: part that runs to a cheap point, and the point. -/
  toCheap  : Option (Nat × Nat) := none
  /-- R441: part whose live range is being saved, and the cheap point. -/
  saving   : Option (Nat × Nat) := none
  /-- R441: parts saved: part, cheap point, tiles passed. -/
  saved    : List (Nat × Nat × Nat) := []
  /-- R441: parts whose live range is being read back. -/
  restoring : List Nat := []
  /-- R424: context that pre-empted it. -/
  preemptor : Option Nat := none
  /-- R418: output units staged. -/
  outs     : List StagedUnit := []
  /-- R418: memory results, address and bytes. -/
  mems     : List (Nat × List Byte) := []
  /-- R257: where the commit writes its TSC. -/
  stamps   : List Nat := []
  /-- R152: completes EMPTY. -/
  empty    : Bool := false
  /-- R266 to R285: an attention command's entries. -/
  seqs     : List SeqPart := []
  /-- R327: reasons of mask entries; R326: of sampled columns (index and reason). -/
  reasons  : List (Nat × Nat) := []
  /-- R290: partial results received, by layout index. -/
  partials : List (Nat × DUnit) := []
  /-- R348: ended by the monitor's own abort. -/
  monAbort : Bool := false
  /-- R330: the mask request has ended. -/
  arrived  : Bool := false
  /-- The results of the present run are in `outs`, `mems` and the counts. -/
  computed : Bool := false
  /-- R194: parts of a wide re-run that wait for their engine. -/
  rerun    : List Nat := []
  /-- R302: admitted while no vocabulary was loaded. -/
  noVocab  : Bool := false
  /-- R215: the halo a band command leaves, committed with its rows. -/
  swatch   : Option Swatch := none
  /-- R517, R518: its output units carry INVALID. -/
  invalid  : Bool := false
  deriving DecidableEq, Repr

/-- A command that ended, whose completion entry waits for its turn, its unit or room (R403, R756). -/
structure Ending where
  entry : CqEntry
  units : List StagedUnit := []
  slot  : Option (Nat × Nat) := none
  deriving DecidableEq, Repr

/-- What the dispatcher keeps of a context beside its record in the commons (R398). -/
structure CtxSt where
  /-- R423: virtual time. -/
  vt       : Nat := 0
  /-- R401: submission tail, free-running. -/
  tail     : Nat := 0
  /-- R401: completion head, free-running. -/
  cqHead   : Nat := 0
  /-- R400: STOP accepted, admitted commands completing. -/
  stopping : Bool := false
  /-- R402: source 105 raised for the present occurrence. -/
  limited  : Bool := false
  /-- R403: commands that ended and wait to be reported, oldest first. -/
  waiting  : List Ending := []
  /-- R447: the report period's start and sums, ns. -/
  tStart   : Nat := 0
  commands : Nat := 0
  run      : Nat := 0
  waitShare : Nat := 0
  waitClass2 : Nat := 0
  lostPreempt : Nat := 0
  lostFault : Nat := 0
  remote   : Nat := 0
  deriving DecidableEq, Repr

/-- An item the deadline monitor follows (R337). -/
structure MonItem where
  id       : BitVec 48
  /-- Reading profile (R338). -/
  prof     : Nat
  /-- R341: the item stamp S. -/
  stamp    : Nat
  /-- R341: S is fixed: the first unit has passed, or the sweep-open message gave it. -/
  fixed    : Bool := false
  /-- Class of the item's band stream. -/
  cls      : Nat := 1
  /-- R342: stages complete. -/
  stages   : BitVec 8 := 0
  /-- R345: switched to the fallback. -/
  fallback : Bool := false
  /-- R350: committed record waiting for HOLD_LAST, and whether its unit carried INVALID, UNCERTAIN. -/
  held     : Option (DecisionRecord × BitVec 16) := none
  /-- R350: capture streams that carry the item, and whether LAST has passed. -/
  streams  : List (Nat × Bool) := []
  /-- R355: flags passed on from units of the item seen. -/
  flags    : BitVec 16 := 0
  /-- R347: a wide re-run was declined with DECLINE 0. -/
  narrow   : Bool := false
  /-- R363: candidates present by device: the record and whether its unit carried INVALID. -/
  cands    : List (Nat × DecisionRecord × Bool) := []
  deriving DecidableEq, Repr

/-- An item whose decision has been emitted (R353). -/
structure DecidedItem where
  id    : BitVec 48 := 0
  prof  : Nat := 0
  stamp : Nat := 0
  cls   : Nat := 1
  /-- R363, R364: devices whose candidates have arrived, as a mask. -/
  cands : Nat := 0
  deriving DecidableEq, Repr

/-- The dispatcher. -/
structure DispSt where
  cmds    : List Cmd := []
  nextId  : Nat := 0
  ctxs    : List (Nat × CtxSt) := []
  /-- R447: TSC up to which the contexts' waiting has been counted. -/
  accAt   : Nat := 0
  /-- Followed items. -/
  items   : List MonItem := []
  /-- R353: items whose decision has been emitted. -/
  decided : List DecidedItem := []
  /-- R364, R365: items whose later units carry INVALID. -/
  broken  : List (BitVec 48) := []
  /-- R356: frame counter of each profile's decision ring. -/
  ringNext : List (Nat × Nat) := []
  /-- R345, R431: items whose sequences are removed, and the contexts that have passed a step boundary since. -/
  removed : List (BitVec 48 × List Nat) := []
  /-- R429: the sequence list of the first ATTENTION command of each context's open step: context, address, entries. -/
  steps   : List (Nat × Nat × Nat) := []
  /-- R426: input stream and ring index each engine's store still holds: engine, stream, index. -/
  holds   : List (Nat × Nat × Nat) := []
  deriving DecidableEq, Repr

/-! ### Engines and few-channel engines (03_engines_and_arrays) -/

/-- A stationary load (R126, R130): in shape 2 of up to four tiles. Its shape, the weight rows streamed past it, the tiles it
holds, the issue interval, and the cycles of the pre-passes before it. -/
structure Load where
  shape : Nat := 1
  rows  : Nat := 0
  tiles : Nat := 1
  c     : Nat := 1
  pre   : Nat := 0
  deriving DecidableEq, Repr

/-- Physical engine p. -/
structure EngSt where
  /-- The command in progress and this engine's place in it (R427). -/
  cmd     : Option Nat := none
  part    : Nat := 0
  /-- R424: TSC of the present dispatch. -/
  start   : Nat := 0
  /-- R132: the stationary loads of the share, in order. -/
  loads   : List Load := []
  /-- R178: the quantisation pre-pass is running. -/
  pre     : Bool := false
  /-- R133: shape to configure before the first load, 0 none. -/
  shapeTo : Nat := 0
  /-- R126: the stationary load of the present tile has ended. -/
  loaded  : Bool := false
  /-- Tiles of this engine's share, and those whose tile-end check has passed (R440). -/
  tiles   : Nat := 0
  done    : Nat := 0
  /-- R140: rows held, with the failures seen so far. -/
  fails   : List (Nat × Nat) := []
  /-- R124, R161: rows of the present tiles accepted (INJ_ROW acts on the first, INJ_PAIR after it). -/
  rows    : Nat := 0
  /-- R140 step 4: rows issued before issue stopped, whose checks are still to come. -/
  flight  : Nat := 0
  /-- R137: changes that faults and injections have made in the partial sums accepted and in the checks of those rows, by
  rescale group, column and amount: what the checksum row cells hold beyond the fault-free totals. -/
  acc     : List (Nat × Nat × Int) := []
  /-- R161, R758: INJ_ROW and INJ_PAIR as the present tile found them; INJ_ES1 and INJ_ES2 (bits 2 and 3) as the present
  command found them. -/
  injRow  : Bool := false
  injPair : Bool := false
  injEs   : Nat := 0
  /-- R161: INJ_PAIR waits for the next new row, INJ_ROW having been made with it. -/
  pairNext : Bool := false
  /-- R140: a diagnostic is running: 0 none, 1 for a recovery, 2 for DIAG_CMD, 3 for a test of DARN or start-up. -/
  diag    : Nat := 0
  /-- R163: the state DIAG_CMD found. -/
  diagFrom : Nat := 0
  /-- R135: eighths of the issue slots given to dummy rows, and whether they are being raised. -/
  dummy   : Nat := 0
  dummyUp : Bool := false
  /-- R135: TSC of the last step of a ramp down, `none` before the first in the present gap. -/
  rampAt  : Option Nat := none
  /-- R135: eighths from which the present command raises them in its first stationary load. -/
  rampFrom : Option Nat := none
  /-- R162: TSCs of corrected mismatches, newest first. -/
  corr    : List Nat := []
  /-- R149: the present vector instruction has failed once. -/
  vuOnce  : Bool := false
  /-- R503: TSC of that failure. -/
  vuAt    : Nat := 0
  /-- R758: no engine-store read of the present command has been made. -/
  firstRead : Bool := true
  /-- R424: TSC at which the present recovery under R140 began, and the recovery time of the present dispatch, ns. -/
  recFrom : Option Nat := none
  recNs   : Nat := 0
  /-- R611: idle since. -/
  idleSince : Nat := 0
  deriving DecidableEq, Repr

/-- FCE[s]. -/
structure FceSt where
  cmd    : Option Nat := none
  /-- R157: the weight bank is loaded. -/
  loaded : Bool := false
  /-- R157: output positions of the present command produced. -/
  pos    : Nat := 0
  /-- R158: the present position has been recomputed. -/
  once   : Bool := false
  /-- R503: TSC of its first mismatch. -/
  onceAt : Nat := 0
  /-- R611: idle since. -/
  idleSince : Nat := 0
  /-- R158: a diagnostic is running: 1 for a recovery, 2 for DIAG_CMD. -/
  diag   : Nat := 0
  diagFrom : Nat := 0
  corr   : List Nat := []
  deriving DecidableEq, Repr

/-! ### Key-value cache (06_attention_and_kv_cache) -/

/-- A look-aside entry of R261: sequence, generation, logical page, page-table entry. -/
structure LabEntry where
  seq  : Nat
  gen  : Nat
  page : Nat
  pte  : Nat
  deriving DecidableEq, Repr

/-- The key-value cache beside its tables in memory. -/
structure KvSt where
  /-- R261: the 36 look-aside buffers, most recently used first. -/
  labs   : List (List LabEntry) := List.replicate 36 []
  /-- R262: outstanding misses of each walker, in arrival order: engine, sequence, page, TSC of arrival. -/
  misses : List (List (Nat × Nat × Nat × Nat)) := List.replicate 4 []
  /-- R262, R263: page-table lines (sequence, line) and sequence records each walker caches, most recently used first. -/
  lines  : List (List (Nat × Nat)) := List.replicate 4 []
  recs   : List (List Nat) := List.replicate 4 []
  /-- R269: the candidate list of each walker. -/
  cands  : List (List Nat) := List.replicate 4 []
  /-- R274: paused sequences with their command and entry. -/
  paused : List (Nat × Nat × Nat) := []
  /-- R430: sequence bound to an item. -/
  binds  : List (Nat × BitVec 48) := []
  /-- R274: a sequence needs a frame in this command: command, entry, sequence waiting for a scan (R269). -/
  wanting : List (Nat × Nat × Nat) := []
  deriving DecidableEq, Repr

/-! ### Text engine (07_text_engine) -/

/-- A mask request (R322, R329). -/
structure MaskReq where
  cmd      : Nat := 0
  ctx      : Nat := 0
  cls      : Nat := 0
  list     : Nat := 0
  buf      : Nat := 0
  count    : Nat := 0
  admitted : Nat := 0
  start    : Nat := 0
  /-- Entries done: index and reason (0 none). -/
  done     : List (Nat × Nat) := []
  deriving DecidableEq, Repr

/-- The text engine. -/
structure TxtSt where
  /-- R330: requests waiting, in admission order, and the one being served. -/
  queue   : List MaskReq := []
  run     : Option MaskReq := none
  /-- R319: addresses of the loaded constraint sets by slot. -/
  csets   : List (Nat × Nat) := []
  /-- R319: loads and unloads waiting for the running request: slot, address (`none` unloads). -/
  later   : List (Nat × Option Nat) := []
  /-- R303: vocabulary cache lines, most recently used first: line, filled by the mask unit. -/
  vcache  : List (Nat × Bool) := []
  /-- R313: trailing bytes held by the detokeniser: stream, item, bytes. -/
  heldUtf : List (Nat × BitVec 48 × List Byte) := []
  /-- Commands on the tokeniser, detokeniser. -/
  tok     : Option Nat := none
  detok   : Option Nat := none
  deriving DecidableEq, Repr

/-- JPG and AUG: the command in progress. -/
structure BlockSt where
  jpg : Option Nat := none
  aug : Option Nat := none
  deriving DecidableEq, Repr

/-! ### Functions and interrupts (11_functions_interrupts_resets) -/

/-- PCIe configuration state of a function. -/
structure FnSt where
  /-- R477, R676: power state, 0 D0, 3 D3hot. -/
  dState   : BitVec 2 := 0
  /-- R472: MSI-X Enable. -/
  msixEn   : Bool := false
  /-- R472: Function Mask. -/
  fMask    : Bool := false
  /-- R478. -/
  pmeEn    : Bool := false
  pmeStatus : Bool := false
  /-- R458: BAR writes dropped while a Function Level Reset runs. -/
  inReset  : Bool := false
  deriving DecidableEq, Repr

/-- The gatherer and the functions. -/
structure GathSt where
  /-- R465: edge latches of the 1,024 sources. -/
  edge   : BitVec 1024 := 0
  /-- R466: software pending bits. -/
  soft   : BitVec 1024 := 0
  /-- R468: targets in service: function, vector, source. -/
  insvc  : List (Nat × Nat × Nat) := []
  /-- R466: level sources whose software pending was taken (reset empty). -/
  chans  : List (Nat × Nat × Nat) := []
  /-- R475: channels 64f + v whose moderation timer has expired. -/
  expired : List Nat := []
  /-- R473: open storm windows: source, TSC of opening, deliveries. -/
  storms : List (Nat × Nat × Nat) := []
  /-- R472, R477: messages held, function and vector. -/
  heldMsg : List (Nat × Nat) := []
  /-- R452: MSI-X table entries 64f + v (address, data, vector control); unlisted masked and zero (log entry 10). -/
  msix   : List (Nat × BitVec 128) := []
  /-- R472: pending-bit arrays, bit 64f + v. -/
  pba    : BitVec 2048 := 0
  fns    : List FnSt := List.replicate 32 {}
  /-- R477: WAKE_N driven low. -/
  wakeN  : Bool := false
  /-- R469: gatherer of each function's last delivered source. -/
  lastG  : List (Nat × Nat) := []
  deriving DecidableEq, Repr

/-! ### What leaves the block, and what blocks tell each other -/

/-- An event the outside sees. -/
inductive Out where
  /-- Completion of a read by function `f`: the bytes, and the PCIe poisoned-data indication (R20, R680). -/
  | readData (f : Nat) (bytes : List Byte) (poisoned : Bool)
  /-- Completer Abort (R681). -/
  | completerAbort (f : Nat)
  /-- MSI-X message of function `f`, vector `v` (R468). -/
  | msix (f v : Nat)
  /-- PM_PME message of function `f` (R477). -/
  | pmPme (f : Nat)
  /-- Level at a ball changes (pins named as the chapters name them). -/
  | pin (name : String) (level : Bool)
  /-- A configurable ball goes high impedance, with its pull (R735, R739). -/
  | pinHiz (name : String)
  /-- Trigger packet on a CoaXPress uplink (R96). -/
  | cxpTrigger (n : Nat)
  /-- Control packet on a CoaXPress uplink (R121). -/
  | cxpControl (n : Nat) (write : Bool) (addr data : Word)
  /-- Frame on TSN port `t` (R375, R389). -/
  | tsnFrame (t : Nat) (bytes : List Byte)
  /-- The 16 timing outputs of PGEN[g]: which are driven (OUT_EN) and their levels; an output not driven is high impedance
  with the PIN pull, its level bit 0 (R119). -/
  | timing (g : Nat) (driven level : BitVec 16)
  /-- A control flit to device `dev` (R360, R362, R642 ...): its kind, and what it carries. -/
  | flit (dev : Nat) (kind : String) (bytes : List Byte)
  /-- A unit sent to device `dev` over the links (R638). -/
  | linkUnit (dev : Nat) (u : DUnit)
  deriving DecidableEq, Repr

/-- A darning operation (R661, R662, R671). -/
structure DarnOp where
  /-- Code of R657. -/
  kind    : Nat := 0
  /-- Stripe, memory, AFE group, LINK port, or 0. -/
  inst    : Nat := 0
  /-- Physical engine, row, channel, lane or phase. -/
  unit    : Nat := 0
  /-- 0 fault, 1 wear, 2 driver, 3 start-up test. -/
  cause   : Nat := 0
  /-- R657: the spare its own block has brought in, for the kinds DARN only records. -/
  spare   : Option Nat := none
  deriving DecidableEq, Repr

/-- What one block tells another within one command. -/
inductive Event where
  /-- A unit was committed on local stream `n`. -/
  | unit (n : Nat) (u : DUnit)
  /-- A receiver accepted a unit of stream `n` (R47): the monitor looks at it. -/
  | seen (n : Nat) (u : DUnit)
  /-- An item opened on scan path `p` with the stamp known at that moment (R337, R360). -/
  | itemOpen (p : Nat) (id : BitVec 48) (stamp : Nat)
  /-- The item of scan path `p` has ended (R360). -/
  | itemClose (p : Nat) (id : BitVec 48) (stamp : Nat)
  /-- A slot of local stream `n` became free. -/
  | slotFree (n : Nat)
  /-- A command ended, with its status and DETAIL; it committed, or not (R343, R347, R348). -/
  | ended (c : Cmd) (status detail : Nat) (committed : Bool)
  /-- Context `c` is being torn down (R282, R334). -/
  | ctxDown (c : Nat)
  /-- A row-check or tile-end mismatch of engine `p` (36 + s: of FCE[s]) on a command of class 2 context `c` at the moment of
  its detection (R142). -/
  | report (p c : Nat)
  /-- A mismatch of engine `p` (36: of an FCE) on a command of class 2 context `c` that R503 classes as a transient. -/
  | mismatch (p c : Nat)
  /-- Engine `p` entered FAULT (R147), its first failing check having been at TSC `t` (R503). -/
  | engFault (p t : Nat)
  /-- An engine-store read of engine `p` met an uncorrectable error (R151). -/
  | storeFault (p : Nat)
  /-- An FCE entered FAULT on a command of class 2 context `c` (R158), its first failing check having been at TSC `t` (R503). -/
  | ctxFault (c t : Nat)
  /-- A status frame handed over at TSC `t` has left its port (R515). -/
  | statusLeft (t : Nat)
  /-- The link of TSN port `t` went down. -/
  | portDown (t : Nat)
  /-- The monitor hands a decision unit to the CEU for TSN port `t`, traffic class `tc` (R356). -/
  | decision (t tc : Nat) (u : DUnit)
  /-- R391: a supervision failure or an age excess of loop `l`, whose command stream is of class 2. -/
  | loopFault (l : Nat)
  /-- Context `c` has passed a step boundary (R431). -/
  | boundary (c : Nat)
  /-- DARN is to darn a part, or to record a repair (R662, R669). -/
  | darn (op : DarnOp)
  /-- An error was found in row `row` of memory `mem` (R669): corrected, or uncorrectable. -/
  | rowErr (mem row : Nat) (hard : Bool)
  /-- The hottest sensor has reached T_SHUT (R606). -/
  | thermalShut
  /-- A monitored rail left its range (R571). -/
  | railLost
  /-- VDD_CORE is in range (R570). -/
  | coreUp
  /-- An accepted edge on a wake ball (R738). -/
  | pinWake
  /-- The Fakan route to device `d` is lost (R649). -/
  | routeLost (d : Nat)
  deriving DecidableEq, Repr

/-! ### Reset, start-up and power loss (18_reset_startup_power_loss) -/

/-- Reset, boot and power-fail state beside the AON registers. -/
structure BootSt where
  /-- R721: every unit leaving a producer carries INVALID. -/
  outInvalid : Bool := false
  /-- R463: the filtered PWR_FAIL_N is low. -/
  pfLow      : Bool := false
  /-- R721: commits and new work are stopped. -/
  frozen     : Bool := false
  /-- R708: the main side is held in reset. -/
  inReset    : Bool := false
  /-- R708: SYS_RST_N is low, and the TSC since which it has been taken as a reset. -/
  pinLow     : Bool := false
  lowAt      : Nat := 0
  /-- R606: held after a thermal shutdown, until a release with every sensor below T_THROT. -/
  thermal    : Bool := false
  /-- R739: the boot straps sampled at the last release (0 before: log entry 57). -/
  straps     : Nat := 0
  /-- R714: slot A has been tried and not accepted. -/
  triedA     : Bool := false
  /-- R724: TSC at which PWR_FAIL_N returned with every rail in range. -/
  returned   : Option Nat := none
  /-- R711: a warning or a lost rail since the last reset. -/
  warned     : Bool := false
  /-- R571: a rail was lost. -/
  railLost   : Bool := false
  /-- R711: LPDDR5X was kept over the last reset. -/
  kept       : Bool := false
  /-- R718: TSC of the last release. -/
  released   : Nat := 0
  deriving DecidableEq, Repr

/-! ### Pins (19_pins_electrical_package) -/

/-- R751: MUX_CFG at reset, by ball index (R733; indices 56 to 63 are reserved). -/
def muxReset (b : Nat) : Word :=
  if b < 48 then 0x500 else if b < 56 then BitVec.ofNat 32 (6 + 16 * (b - 48)) else if b < 64 then 0
  else BitVec.ofNat 32 (0x905 + 16 * ((b - 64) % 16))

/-- The PIN block beside its registers. -/
structure PinSt where
  /-- R751: MUX_CFG of each ball. -/
  cfg  : List Word := (List.range 128).map muxReset
  /-- R735: balls in a switch, and the function and instance (FUNC + 16 × INST) each still holds. -/
  held : List (Nat × Nat) := []
  /-- R737: levels last accepted at the balls, index by index (0 at reset: log entry 58). -/
  level : BitVec 128 := 0
  deriving DecidableEq, Repr


/-! ### Commons slices (01_organisation) -/

/-- A commons slice. -/
structure CmnSt where
  /-- R22: TSCs of the latest corrected errors, newest first, at most 256. -/
  corrTimes : List Nat := []
  /-- R21: 64-byte reads and writes served at the ring port since RD_BEATS, WR_BEATS were last read, saturating. -/
  rd        : Nat := 0
  wr        : Nat := 0
  /-- R21: engine clock cycles in which the ring port moved data since PORT_BUSY was last read. -/
  busy      : Nat := 0
  deriving DecidableEq, Repr

/-! ### Memory controllers (14_power_clocks_sleep) -/

/-- MEMC[m]. -/
structure MemcSt where
  /-- R617: 64-byte units read and written since RD_BYTES, WR_BYTES were last read, saturating. -/
  rd   : Nat := 0
  wr   : Nat := 0
  /-- R611: the channels of an active controller are in power-down. -/
  down : Bool := false
  deriving DecidableEq, Repr

/-! ### Fakan links (15_fakan_peer_links) -/

/-- LINK[k]. -/
structure PortSt where
  /-- R630: sequence number of the next flit sent, and the flits not acknowledged, oldest first. -/
  txSeq  : BitVec 16 := 0
  replay : List (BitVec 16 × Out) := []
  /-- R630: sequence number expected next. -/
  rxSeq  : BitVec 16 := 0
  /-- R648: TSC of the last valid flit. -/
  last   : Nat := 0
  /-- R651: lane-delay asymmetry calibrated in training, ps (open, log entry 46). -/
  asym   : Int := 0
  deriving DecidableEq, Repr

/-- The links together. -/
structure LinkSt where
  ports : List PortSt := List.replicate 4 {}
  /-- R655: windows (WIN_BASE_LO, WIN_BASE_HI, WIN_CFG) behind WIN_SEL. -/
  wins  : List (Word × Word × Word) := List.replicate 8 (0, 0, 0)
  /-- R638: forwarding entries behind FWD_SEL. -/
  fwds  : List Word := List.replicate 64 0
  /-- R634: the device number kept in always-on retention. -/
  kept  : Option Nat := none
  /-- R636: first port of the route to each device. -/
  routes : List (Nat × Nat) := []
  /-- R638: imported units waiting for a ring slot: local stream and unit. -/
  waiting : List (Nat × DUnit) := []
  /-- R653: TSC since which the offset from the master has stayed within ±2 ns. -/
  within : Option Nat := none
  deriving DecidableEq, Repr

/-! ### Power, clocks and sleep (14_power_clocks_sleep) -/

/-- Power and clock state beside the registers. -/
structure PwrSt where
  /-- R569, R570: VDD_CORE is on. -/
  coreOn : Bool := false
  /-- R574: V_FUSE(f) for 1.1, 1.2 and 1.4 GHz, mV, fused (the start voltage: DESIGN CHOICE, log entry 56). -/
  vFuse : List Nat := [750, 750, 750]
  /-- R574: the regulator's target, 0.1 mV. -/
  target : Nat := 7500
  /-- R583: cycle-swallower setting k of each engine, 12 to 24. -/
  ks    : List Nat := List.replicate 36 24
  /-- R583: the same for each FCE. -/
  fceKs : List Nat := List.replicate 4 24
  /-- R586: the stripe clock PWR asks for, as STRIPE_FREQ codes it. -/
  want  : List Nat := List.replicate 4 0
  /-- R578: phases whose place a spare is to take. -/
  phaseOut : List Nat := []
  /-- R579: where the open phase currents of the last estimate are taken from. -/
  senseKey : Nat := 0
  /-- R592: stripes that stretch; TSCs of the droop episodes of the last second, newest first. -/
  stretch : List Bool := List.replicate 4 false
  droops : List Nat := []
  /-- R604: the 48 sensors, °C. -/
  temps : List Int := List.replicate 48 0
  /-- R596: 10 µs means of package power, newest first, over CAP.WIN. -/
  fasts : List Nat := []
  /-- R595: measured and estimated core power summed over the present 10 ms and over each of the 100 before. -/
  sums  : Nat × Nat := (0, 0)
  past  : List (Nat × Nat) := []
  /-- R597: the issue-rate limiter with STEP halved; R600: TSC since which the cap is missed, and of the last source 40. -/
  limit : Bool := false
  miss  : Option Nat := none
  missAt : Nat := 0
  /-- R599: headroom of each context, FP32 codes. -/
  heads : List (Nat × Nat) := []
  /-- R589: issue slots of each stripe's last window. -/
  slots : List Nat := List.replicate 4 0
  /-- R610: TSC of the last allocation. -/
  allocAt : Nat := 0
  /-- R663: a STANDBY (1) or DEEP_SLEEP (2) that waits for a darning to commit. -/
  deferred : Option Nat := none
  deriving DecidableEq, Repr

/-! ### Spares and ageing (16_spares_and_ageing) -/

/-- The DARN block. -/
structure DarnSt where
  /-- R662: the up to 16 operations queued, in the order asked for, and the darnings after a fault held beyond them. -/
  queue  : List DarnOp := []
  held   : List DarnOp := []
  /-- R662: the operation in progress, and the TSC of its start. -/
  run    : Option DarnOp := none
  start  : Nat := 0
  /-- R664: the spare chosen. -/
  spare  : Nat := 0xFFFF
  /-- R665: 1 the spare is being tested, 2 it has passed and (planned) its store is being copied, 3 the map may commit. -/
  stage  : Nat := 0
  /-- R671: the service log, newest first: entries of 16 bytes as numbers. -/
  log    : List (BitVec 128) := []
  /-- R671: entries ever made. -/
  total  : Nat := 0
  /-- R670: wear monitors read: target (KIND, INST, UNIT), value, worn. -/
  wear   : List ((Nat × Nat × Nat) × Nat × Bool) := []
  /-- R669: memory row redirections in force: memory, row, spare row. -/
  rows   : List (Nat × Nat × Nat) := []
  /-- R659: parts other than engines that have failed or been retired. -/
  failed : List (Nat × Nat × Nat) := []
  /-- R668: engines UNFAIL has cleared, which return as spares at the next start. -/
  unfail : List Nat := []
  /-- R669: corrected errors per memory row of the last 24 h: memory, row, TSC. -/
  rowErrs : List (Nat × Nat × Nat) := []
  /-- R670: TRANS_THRESH events (R162) of the last 24 h: engine, TSC. -/
  thresh : List (Nat × Nat) := []
  /-- R671: the highest value read of each wear monitor, by target. -/
  maxima : List ((Nat × Nat × Nat) × Nat) := []
  /-- R146, R659: the array repairs of the 36 engines and the column repairs of the four FCEs in the map. -/
  arr    : List Word := List.replicate 36 0
  cols   : List Word := List.replicate 4 0
  /-- R659: the copy of the map not in force: its commit number, then INVENTORY, SPARE_ENG, FAILED_ENG and ENG_MAP words. -/
  other  : List Word := List.replicate 14 0
  deriving DecidableEq, Repr

/-! ### Joint sensors, TSN ports and the command egress unit (09_perception_to_motion) -/

/-- A sample set being clocked (R368): its stamp, the SSI channels, and each sampled encoder with the position and the
ENC_STATUS it had at the stamp; `held` until the data lines allow its bursts (R370). -/
structure SampleSet where
  held  : Bool := false
  stamp : Nat := 0
  chans : List Nat := []
  encs  : List (Nat × Word × Word) := []
  deriving DecidableEq, Repr

/-- A stream filter behind SF_ADDR (R395). -/
structure SfEntry where
  keyLo : Word := 0
  keyHi : Word := 0
  cfg   : Word := 0
  meter : Word := 0
  /-- R375: the 10 µs interval the meter counts in, and the bytes admitted in it. -/
  slot  : Nat := 0
  used  : Nat := 0
  deriving DecidableEq, Repr

/-- A gate control list in force or waiting (R375): entries (GATES, INTERVAL), base time, cycle time. -/
structure GateList where
  entries : List (BitVec 8 × Nat) := []
  base    : Nat := 0
  cycle   : Nat := 1000000
  deriving DecidableEq, Repr

/-- A frame the CEU has handed to a port (R387): template, PCP in place of the template's, TYPE, MFLAGS, SEQ, the unit. -/
structure TxFrame where
  tmpl   : Nat
  pcp    : Nat
  kind   : Nat
  mflags : Nat
  seq    : Nat
  unit   : DUnit
  /-- R515: TSC of its hand-over. -/
  since  : Nat
  deriving DecidableEq, Repr

/-- 802.1CB vector recovery of one stream (R377): stream, latest sequence number, history of the 32 numbers up to it. -/
structure CbHist where
  stream : Nat
  seq    : BitVec 16
  hist   : BitVec 32
  last   : Nat
  deriving DecidableEq, Repr

/-- TSN[t]. -/
structure TsnSt where
  /-- R378: the relation in force. -/
  relTsc  : Nat := 0
  relAs   : Nat := 0
  relRate : Int := 0
  /-- R381: TSC of the last Sync, and the Sync interval, ns. -/
  sync    : Option (Nat × Nat) := none
  filters : List SfEntry := List.replicate 64 {}
  /-- R395: entries written through GCL_DATA. -/
  gcl     : List Word := List.replicate 256 0
  /-- R375: the list in force, and the one waiting for its base-time multiple with that 802.1AS time. -/
  oper    : GateList := {}
  next    : Option (GateList × Nat) := none
  /-- R388, R389: frames waiting for their gate, in order. -/
  queue   : List TxFrame := []
  /-- R377: recovered streams, up to 32. -/
  cb      : List CbHist := []
  deriving DecidableEq, Repr

/-- CEU loop l. -/
structure LoopSt where
  /-- R382: number of the first cycle; the cycle whose strobe, sample trigger, cutoff, launch and window close come next. -/
  first  : Nat := 0
  strobe : Nat := 0
  sample : Nat := 0
  cut    : Nat := 0
  launch : Nat := 0
  perc   : Nat := 0
  /-- R383: TSC of the previous cutoff. -/
  prev   : Nat := 0
  /-- R383 to R385: the unit selected for the launch, with STALE and AGE_EXCEEDED. -/
  sel    : Option (DUnit × Bool × Bool) := none
  /-- R384: the unit of the last frame sent. -/
  body   : Option DUnit := none
  /-- R390: number after the last cycle marked as a supervision failure. -/
  failed : Nat := 0
  deriving DecidableEq, Repr

/-- The blocks of the perception-to-motion loop. -/
structure MotSt where
  /-- R368, R373: the sample set being clocked. -/
  set_   : Option SampleSet := none
  /-- R370: TSC from which each channel's data line has been high since its last burst; none before the first burst. -/
  quiet  : List (Option Nat) := List.replicate 12 none
  tsn    : List TsnSt := List.replicate 4 {}
  loops  : List LoopSt := List.replicate 8 {}
  /-- Units of the SSI and TSN blocks waiting for a free slot: local stream and unit. -/
  waiting : List (Nat × DUnit) := []
  deriving DecidableEq, Repr

/-! ### Functional safety (12_functional_safety) -/

/-- A channel result as CMP holds it (R490, R491). -/
structure ChanRes where
  item  : BitVec 48 := 0
  stamp : Nat := 0
  chB   : Bool := false
  occ   : BitVec 16 := 0
  eval  : BitVec 16 := 0
  flags : BitVec 16 := 0
  /-- TSC of its arrival. -/
  since : Nat := 0
  deriving DecidableEq, Repr

/-- Watchdog w (R500). -/
structure WdSt where
  /-- TSC at which the present window began. -/
  since : Nat := 0
  /-- FIRST stands in place of CLOSE. -/
  first : Bool := true
  deriving DecidableEq, Repr

/-- SAFE, CMP and the watchdogs. -/
structure SafeSt where
  /-- R491: results waiting for their partner, oldest first. -/
  wait     : List ChanRes := []
  /-- Items of the latest 64 pairs that have ended; a later result of one is dropped. -/
  gone     : List (BitVec 48) := []
  /-- R508, R509: stamp and OCC of the latest verdict without INVALID. -/
  verdict  : Option (Nat × BitVec 16) := none
  /-- R517: the latest result without INVALID of channels A and B. -/
  lastA    : Option ChanRes := none
  lastB    : Option ChanRes := none
  /-- R494: consecutive late results of A and B; consecutive disagreeing verdicts. -/
  lateA    : Nat := 0
  lateB    : Nat := 0
  disc     : Nat := 0
  /-- R494: item and payload CRC of the latest frame's first band unit, and the run of equal ones. -/
  frame    : Option (BitVec 48 × BitVec 32) := none
  freeze   : Nat := 0
  /-- R505, R519: consecutive agreeing pairs. -/
  resync   : Nat := 0
  /-- R519: the failed channel's results are shadowed. -/
  rejoin   : Bool := false
  /-- R523: a transient of the surviving channel falls within the confirmation in REACT, which is repeated. -/
  again    : Bool := false
  /-- R528: the latest channel fault, `true` for channel B, and its TSC. -/
  chFault  : Option (Bool × Nat) := none
  /-- R520: TSC at which SAFE entered REACT. -/
  reactAt  : Nat := 0
  /-- R530: source 9 has been raised in the present DEGRADED state. -/
  warned   : Bool := false
  /-- R509, R529: TSC since which VALID is 0 after having been 1. -/
  lostAt   : Option Nat := none
  /-- R510: TSC of the first sample of a readback mismatch. -/
  differs  : Option Nat := none
  /-- R512: TSC of the last status unit. -/
  statusAt : Nat := 0
  /-- R515: TSC of the last route event; status frames in a row that left in time. -/
  routeAt  : Nat := 0
  timely   : Nat := 0
  /-- R530: TSCs of the class 2 transients of the last second, newest first. -/
  trans    : List Nat := []
  /-- R142: mismatches reported on class 2 commands within the last second, newest first: unit, context, TSC of detection. -/
  reports  : List (Nat × Nat × Nat) := []
  wds      : List WdSt := List.replicate 64 {}
  deriving DecidableEq, Repr

/-! ### Halulavy island (13_halulavy_metrology_island) -/

/-- A request on the inbound lane (R550, R551): eight words, REQ_SEQ and the TSC of SEND. -/
structure HalReq where
  words : List Word := []
  seq   : Nat := 0
  tsc   : Nat := 0
  deriving DecidableEq, Repr

/-- A reply on the outbound lane (R553): eight words, whether the request was carried out, the reason, REQ_SEQ. -/
structure HalReply where
  words  : List Word := []
  ok     : Bool := true
  reason : Nat := 0
  seq    : Nat := 0
  deriving DecidableEq, Repr

/-- A committed audit entry (R555). -/
structure AuditEntry where
  no    : Nat
  secs  : Nat
  tsc   : Nat
  param : Nat
  seq   : Nat
  old   : Word
  new   : Word
  deriving DecidableEq, Repr

/-- A result in the island's queue (R541), but for DELAY_US. -/
structure HalResult where
  seq   : Nat
  net   : Int
  tare  : Int
  eMg   : Nat
  flags : BitVec 16
  chans : Nat
  winUs : Nat
  event : Nat
  deriving DecidableEq, Repr

/-- The island, and what the HAL page keeps beside its registers. -/
structure HalSt where
  /-- R562: 0 START, 1 RUN, 2 ERROR. -/
  state  : Nat := 0
  /-- R559. -/
  pfWarn : Bool := false
  /-- R552: the parameters in force, by PARAM_ID: the least of each range, 1 for STATUS_MS (DESIGN CHOICE, log entry 55). -/
  params : List (Nat × Word) := [(0x0001, 0), (0x0002, 0), (0x0003, 0), (0x0004, 0), (0x0011, 1), (0x0012, 1), (0x0013, 1),
    (0x0014, 1), (0x0020, 100), (0x0021, 1), (0x0022, 1), (0x0023, 0), (0x0024, 0), (0x0025, 0), (0x0026, 10), (0x0027, 1),
    (0x0028, 1), (0x0029, 0), (0x002A, 10), (0x0100, 1), (0x0101, 1)]
  /-- R557, R564: the parameters of the present weighing window. -/
  window : List (Nat × Word) := []
  /-- R555, R556: committed audit entries, newest first. -/
  audit  : List AuditEntry := []
  /-- R541: results formed since island start. -/
  resSeq : Nat := 0
  /-- R543: results queued, oldest first; the next one is marked LOST; results lost and not yet reported. -/
  queue  : List HalResult := []
  lost   : Bool := false
  lostN  : Nat := 0
  /-- Gross weight and stability of the last window; zero offset and tare, in e (R554). -/
  gross  : Int := 0
  stable : Bool := false
  zero   : Int := 0
  tare   : Int := 0
  /-- R547: the checksum and the identification stored at manufacture (0: DESIGN CHOICE, log entry 55), the checksum last
  computed, and whether it matched. -/
  crcRef : Word := 0
  swId   : BitVec 128 := 0
  crc    : Word := 0
  idOk   : Bool := false
  /-- R551, R553: the request and the reply under way. -/
  req    : Option HalReq := none
  reply  : Option HalReply := none
  /-- R545: the page holds the queue's head in RES for the host. -/
  shown  : Bool := false
  /-- R563: TSC of the last status frame. -/
  frame  : Nat := 0
  /-- R546: the latest 1,024 items of the scan paths: path, item, opening stamp, closing stamp. -/
  spans  : List (Nat × BitVec 48 × Nat × Option Nat) := []
  deriving DecidableEq, Repr


/-! ### The whole -/

/-- The state of the blocks beside their registers. -/
structure Hw where
  /-- R53 to R60: time beside the TSC registers. -/
  time    : TimeSt := {}
  /-- R404: local streams, unlisted at `{}`. -/
  streams : List (Nat × StreamSt) := []
  /-- R47: receivers, by page slot × 4096 + stream identifier. -/
  rx      : List (Nat × RxSt) := []
  /-- R69 to R122: line and frame capture. -/
  cap     : CapSt := {}
  /-- R337 to R362, R398 to R451: the item monitor and the dispatcher. -/
  disp    : DispSt := {}
  /-- R123 to R163: the 36 engines. -/
  eng     : List EngSt := List.replicate 36 {}
  /-- R157 to R165: the four few-channel engines. -/
  fce     : List FceSt := List.replicate 4 {}
  /-- R254 to R296: the walkers of the key-value cache. -/
  kv      : KvSt := {}
  /-- R215: halos of the open items' swatches. -/
  swatches : List Swatch := []
  /-- R297 to R336: the text engine. -/
  txt     : TxtSt := {}
  /-- R231 to R243: the JPG and AUG blocks. -/
  blk     : BlockSt := {}
  /-- R706 to R727: resets, boot and power loss. -/
  boot    : BootSt := {}
  /-- R626 to R656: the Fakan ports. -/
  link    : LinkSt := {}
  /-- R567 to R625: power, clocks and sleep. -/
  pwr     : PwrSt := {}
  /-- R657 to R675: darning, wear and the service log. -/
  darn    : DarnSt := {}
  /-- R368 to R397: the motion loops, joint sensors and TSN ports. -/
  mot     : MotSt := {}
  /-- R487 to R533: SAFE, CMP and the watchdogs. -/
  safe    : SafeSt := {}
  /-- R534 to R566: the island. -/
  hal     : HalSt := {}
  /-- R733 to R752: the multiplexed pins. -/
  pin     : PinSt := {}
  /-- R697: journal entries lost and not yet covered by a loss marker. -/
  lostEntries : Nat := 0
  /-- R464 to R477: what the gatherer holds. -/
  gath    : GathSt := {}
  /-- R20, R21: the commons slices. -/
  cmn     : List CmnSt := List.replicate 16 {}
  /-- R617: the memory controllers. -/
  memc    : List MemcSt := List.replicate 8 {}
  /-- R638: import entries IMP_CFG 0 to 63. -/
  imports : List Word := List.replicate 64 0
  /-- R47: units a block has accepted and not yet used, by page slot. -/
  inbox   : List (Nat × DUnit) := []
  /-- Things one block tells another within one command (a unit committed, a fault reported); empty between commands. -/
  events  : List Event := []
  deriving DecidableEq, Repr

/-- The state of the block. -/
structure State where
  /-- The registers, by BAR0 byte address; an unlisted register holds its reset value. -/
  regs    : List (Nat × Word) := []
  /-- The commons (addresses below 0x0800_0000), package memory and host memory; an unlisted byte is 0 (log entries 4, 5). -/
  mem     : List Host.Cell := []
  /-- R20: poisoned words of the commons, by commons offset ÷ 8, with 1. -/
  poison  : List (Nat × Byte) := []
  /-- Engine stores: byte a of engine p at p × 0x40_0000 + a; an unlisted byte is 0 (log entry 5). -/
  es      : List (Nat × Byte) := []
  /-- R53: the time-stamp counter. -/
  tsc     : DWord := 0
  /-- What has left the block: read completions, messages, frames, pin changes. The model's own. -/
  out     : List Out := []
  /-- Open values used so far (Config.freeValue). The model's own (log entry 6). -/
  freeCtr : Nat := 0
  hw      : Hw := {}
  /-- Commands waiting, first in, first out. The model's own. -/
  pending : List Instr := []
  deriving DecidableEq, Repr

/-- The machine right after VDD_AON power-on: nothing listed, TSC 0 (R54, R706), the queue empty. -/
def State.reset : State := {}

/-- Reset value of a register: its table's, and those that differ from instance to instance. -/
def RegRef.resetVal (r : RegRef) : Word :=
  match r.blk, r.off with
  | .CMN, 0x044 => BitVec.ofNat 32 (64 + (r.inst / 4) * 256)
  | .TOP, 0x044 => Config.uniqueId.setWidth 32
  | .TOP, 0x048 => (Config.uniqueId >>> 32).setWidth 32
  | .DARN, off =>
    if 0x0A0 ≤ off ∧ off < 0x0C0 then
      let l := off - 0x0A0
      BitVec.ofNat 32 (leNat ((List.range 4).map fun k => BitVec.ofNat 8 (0x80 + (l + k) + (l + k) / 8)))
    else match r.row with
      | some w => w.reset
      | none => 0
  | _, _ => match r.row with
    | some w => w.reset
    | none => 0

/-- The bits of a register that exist. -/
def RegRef.mask (r : RegRef) : Word := match r.row with
  | some w => w.mask
  | none => 0

/-- Read a register as stored. -/
def State.rd (s : State) (r : RegRef) : Word := (alFind r.key s.regs).getD r.resetVal

/-- A field of a register. -/
def State.fld (s : State) (r : RegRef) (hi lo : Nat) : Nat := bits (s.rd r) hi lo

/-- One bit of a register. -/
def State.bit (s : State) (r : RegRef) (i : Nat) : Bool := (s.rd r).getLsbD i

/-- Store a register: reserved bits stay 0, a value equal to the reset value leaves no entry. -/
def State.setReg (s : State) (r : RegRef) (v : Word) : State :=
  { s with regs := alPut r.resetVal r.key (v &&& r.mask) s.regs }

/-- Read one byte of memory. -/
def State.byte (s : State) (a : Nat) : Byte := alGet 0 a s.mem

/-- Write one byte of memory. -/
def State.setByte (s : State) (a : Nat) (b : Byte) : State := { s with mem := alPut 0 a b s.mem }

end Sys2Proof.Machine
end

