-- ==== Sys2Proof/Machine/Ops.lean ====
section
/-! DEFINITION. The named operations over registers and memory. `Upd` lists every elementary change a command can
make; `Act` is a program of such changes, each of which may look at the state it finds. A command's meaning is one
`Act`, so that whatever holds of every `Upd` holds of every command (`Laws/Act.lean`). -/

namespace Sys2Proof.Machine

/-! ### Elementary changes -/

/-- An elementary change of the state. -/
inductive Upd where
  /-- Store a register. -/
  | reg (r : RegRef) (v : Word)
  /-- Return to their reset values the registers whose BAR0 address is picked. -/
  | resetRegs (pick : Nat → Bool)
  /-- Write consecutive bytes of memory. -/
  | bytes (a : Nat) (l : List Byte)
  /-- Forget memory contents: the picked addresses read as unwritten. -/
  | dropMem (pick : Nat → Bool)
  /-- Mark a commons word poisoned (R20). -/
  | poison (w : Nat)
  /-- Write consecutive bytes of an engine store. -/
  | es (a : Nat) (l : List Byte)
  /-- Forget the picked engine-store bytes. -/
  | dropEs (pick : Nat → Bool)
  /-- Set the time-stamp counter. -/
  | tsc (t : DWord)
  /-- Something leaves the block. -/
  | out (o : Out)
  /-- One open value has been used. -/
  | free
  /-- Change block state beside the registers. -/
  | hw (f : Hw → Hw)

/-- Write consecutive bytes. -/
def State.setBytes (s : State) (a : Nat) : List Byte → State
  | [] => s
  | b :: t => (s.setByte a b).setBytes (a + 1) t

/-- Write consecutive bytes into an engine-store list. -/
def putEs (a : Nat) : List Byte → List (Nat × Byte) → List (Nat × Byte)
  | [], m => m
  | b :: t, m => putEs (a + 1) t (alPut 0 a b m)

/-- Block state beside the registers changed. -/
def State.mapHw (s : State) (f : Hw → Hw) : State := { s with hw := f s.hw }

/-- Something more has left the block. -/
def State.emit (s : State) (o : Out) : State := { s with out := s.out ++ [o] }

/-- One open value more used. -/
def State.useFree (s : State) : State := { s with freeCtr := s.freeCtr + 1 }

/-- The time-stamp counter set. -/
def State.setTsc (s : State) (t : DWord) : State := { s with tsc := t }

/-- Does the write of `n` bytes at `a` cover commons word `w` whole? (R20: a word stays poisoned until it is next
written whole.) -/
def coversWord (a n w : Nat) : Bool := decide (a ≤ 8 * w) && decide (8 * w + 8 ≤ a + n)

/-- The state after an elementary change. -/
def Upd.apply (u : Upd) (s : State) : State :=
  match u with
  | .reg r v => s.setReg r v
  | .resetRegs pick => { s with regs := s.regs.filter fun e => !pick e.1 }
  | .bytes a l =>
    let t := s.setBytes a l
    { t with poison := t.poison.filter fun e => !coversWord a l.length e.1 }
  | .dropMem pick => { s with mem := s.mem.filter fun e => !pick e.1 }
  | .poison w => { s with poison := alPut 0 w 1 s.poison }
  | .es a l => { s with es := putEs a l s.es }
  | .dropEs pick => { s with es := s.es.filter fun e => !pick e.1 }
  | .tsc t => s.setTsc t
  | .out o => s.emit o
  | .free => s.useFree
  | .hw f => s.mapHw f

/-- A program of elementary changes. -/
inductive Act where
  | nil
  | upd (u : Upd)
  | seq (a b : Act)
  | get (k : State → Act)

/-- Run a program. -/
def Act.run : Act → State → State
  | .nil, s => s
  | .upd u, s => u.apply s
  | .seq a b, s => b.run (a.run s)
  | .get k, s => (k s).run s

/-- Several programs, one after the other. -/
def Act.all : List Act → Act
  | [] => .nil
  | a :: t => .seq a (Act.all t)

/-- A program run when a condition holds. -/
def Act.when (b : Bool) (a : Act) : Act := if b then a else .nil

/-- One program for each element of a list, in order. -/
def Act.each {α : Type} (l : List α) (f : α → Act) : Act := Act.all (l.map f)

/-! ### Registers -/

/-- Store a register. -/
def Act.wr (r : RegRef) (v : Word) : Act := .upd (.reg r v)

/-- Store a number in a register. -/
def Act.wrN (r : RegRef) (n : Nat) : Act := .wr r (BitVec.ofNat 32 n)

/-- Change a register. -/
def Act.modReg (r : RegRef) (f : Word → Word) : Act := .get fun s => .wr r (f (s.rd r))

/-- Set field [hi:lo] of a register. -/
def Act.setFld (r : RegRef) (hi lo n : Nat) : Act := .modReg r fun w => setBits w hi lo n

/-- Set bits of a register. -/
def Act.orReg (r : RegRef) (v : Word) : Act := .modReg r fun w => w ||| v

/-- Store a 64-bit number in a pair of registers. -/
def Act.wr64 (lo hi : RegRef) (n : Nat) : Act :=
  .seq (.wrN lo (n % 4294967296)) (.wrN hi (n / 4294967296 % 4294967296))

/-- Read a 64-bit pair. -/
def State.rd64 (s : State) (lo hi : RegRef) : Nat := (s.rd lo).toNat + 4294967296 * (s.rd hi).toNat

/-- Change block state beside the registers. -/
def Act.hw (f : Hw → Hw) : Act := .upd (.hw f)

/-- Something leaves the block. -/
def Act.out (o : Out) : Act := .upd (.out o)

/-- Tell another block. -/
def Act.event (e : Event) : Act := .hw fun h => { h with events := h.events ++ [e] }

/-- Use an open value (log entry 6). -/
def Act.fresh (k : Nat → Act) : Act := .get fun s => .seq (.upd .free) (k s.freeCtr)

/-- An open value of 32 bits. -/
def openWord (n i : Nat) : Word := (Config.freeValue n i).setWidth 32

/-- Add to a 32-bit counter whose behaviour past its top the manual does not state: there the value is open
(log entry 8). -/
def Act.bump (r : RegRef) (n : Nat) : Act := .get fun s =>
  let v := (s.rd r).toNat + n
  if v < 4294967296 then .wrN r v else .fresh fun k => .wr r (openWord k 0)

/-- Add to a saturating field. -/
def Act.satFld (r : RegRef) (hi lo n : Nat) : Act := .get fun s =>
  .setFld r hi lo (min (s.fld r hi lo + n) (2 ^ (hi + 1 - lo) - 1))

/-- Raise a register to `n` when `n` is larger (saturating at 32 bits). -/
def Act.maxReg (r : RegRef) (n : Nat) : Act := .get fun s =>
  .when (decide ((s.rd r).toNat < n)) (.wrN r (min n 4294967295))

/-- A 64-bit counter held in a pair of registers, modulo 2⁶⁴. -/
def Act.bump64 (lo hi : RegRef) (n : Nat) : Act := .get fun s => .wr64 lo hi (s.rd64 lo hi + n)

/-! ### Time and memory -/

/-- The TSC as a number. -/
def State.now (s : State) : Nat := s.tsc.toNat

/-- Read `n` bytes of memory. -/
def State.read (s : State) (a n : Nat) : List Byte := (List.range n).map fun i => s.byte (a + i)

/-- A little-endian number in memory. -/
def State.readN (s : State) (a n : Nat) : Nat := leNat (s.read a n)

/-- Write bytes. -/
def Act.bytes (a : Nat) (l : List Byte) : Act := .upd (.bytes a l)

/-- Write a little-endian number of `k` bytes. -/
def Act.mem (a k n : Nat) : Act := .bytes a (leBytes k n)

/-- Size of the commons (R19). -/
def commonsSize : Nat := 0x08000000

/-- Is commons word `w` poisoned? -/
def State.poisoned (s : State) (w : Nat) : Bool := (alFind w s.poison).isSome

/-- Does a read of `n` bytes at `a` touch a poisoned commons word? -/
def State.readsPoison (s : State) (a n : Nat) : Bool :=
  s.poison.any fun e => decide (a < 8 * e.1 + 8) && decide (8 * e.1 < a + n)

/-- Engine-store address of byte `a` of engine `p`. -/
def esAddr (p a : Nat) : Nat := p * 0x400000 + a

/-- Read `n` bytes of an engine store. -/
def State.readEs (s : State) (p a n : Nat) : List Byte :=
  (List.range n).map fun i => alGet 0 (esAddr p (a + i)) s.es

/-! ### Sources (R63, R463) -/

/-- The lowest source number of a page, and how many the page's IRQ_PEND raises (R63 and each block's chapter). -/
def srcRange (b : Blk) (i : Nat) : Nat × Nat :=
  match b with
  | .CHART => (0, 0)
  | .TOP => (16, 2)
  | .AON => (32, 7)
  | .TSC => (0, 0)
  | .CLK => (56, 4)
  | .PWR => (40, 8)
  | .VRC => (48, 8)
  | .PIN => (26, 2)
  | .DARN => (28, 4)
  | .JRNL => (24, 2)
  | .HAL => (704, 10)
  | .SAFE => (1, 10)
  | .CMP => (11, 5)
  | .WDG => (640 + 16 * i, 16)
  | .GATH => (0, 0)
  | .HOST => (20, 4)
  | .FUNC => (0, 0)
  | .DISP => (96, 28)
  | .KVW => (576 + 4 * i, 4)
  | .TXT => (592, 16)
  | .JPG => (608, 3)
  | .AUG => (624, 2)
  | .ENG => (128 + 4 * i, 4)
  | .FCE => (272 + 4 * i, 4)
  | .CMN => (288 + 2 * i, 2)
  | .MEMC => (320 + 4 * i, 4)
  | .LINK => (352 + 8 * i, 8)
  | .SFE => (384, 16)
  | .AFE => (400 + 4 * i, 4)
  | .PGEN => (416 + 4 * i, 4)
  | .ENC => (432 + 2 * i, 2)
  | .CXP => (448 + 4 * i, 4)
  | .CSI => (480 + 2 * i, 2)
  | .TSN => (512 + 8 * i, 8)
  | .SSI => (544, 16)
  | .CEU => (560, 16)

/-- The page and IRQ_PEND bit of a source, for the sources R463 ties to a page. -/
def srcPage (n : Nat) : Option (Blk × Nat × Nat) :=
  (Blk.all.flatMap fun b => (List.range b.count).map fun i => (b, i)).findSome? fun (b, i) =>
    let (base, cnt) := srcRange b i
    if base ≤ n ∧ n < base + cnt then some (b, i, n - base) else none

/-- SRC_CFG of a source (R485). -/
def srcCfg (n : Nat) : RegRef := Reg.GATH.SRC_CFG (n / 256) (n % 256)

/-- R486: SENSE of a source, true for level. -/
def State.levelSrc (s : State) (n : Nat) : Bool := s.bit (srcCfg n) 11

/-- R465: sources that went from inactive to active set the edge latch of those whose SENSE is 0. -/
def Act.latch (srcs : List Nat) : Act := .get fun s =>
  let m := srcs.foldl (fun (e : BitVec 1024) n => if s.levelSrc n then e else putBit e n true) s.hw.gath.edge
  .hw fun h => { h with gath := { h.gath with edge := m } }

/-- Set a page's IRQ_PEND and IRQ_MASK; sources that become active are seen by the gatherer (R463, R465). -/
def Act.setIrq (b : Blk) (i : Nat) (pend mask : Word) : Act := .get fun s =>
  let before := s.rd (Reg.HDR.IRQ_PEND b i) &&& ~~~ (s.rd (Reg.HDR.IRQ_MASK b i))
  let after := pend &&& ~~~ mask
  let (base, cnt) := srcRange b i
  let rising := (List.range cnt).filter fun k => after.getLsbD k && !before.getLsbD k
  .all [.wr (Reg.HDR.IRQ_PEND b i) pend, .wr (Reg.HDR.IRQ_MASK b i) mask, .latch (rising.map (base + ·))]

/-- A block raises bit `k` of its page's IRQ_PEND (R463). -/
def Act.raise (b : Blk) (i k : Nat) : Act := .get fun s =>
  .setIrq b i (putBit (s.rd (Reg.HDR.IRQ_PEND b i)) k true) (s.rd (Reg.HDR.IRQ_MASK b i))

/-- A block withdraws a bit that follows a level of its own (R752). -/
def Act.lower (b : Blk) (i k : Nat) : Act := .get fun s =>
  .setIrq b i (putBit (s.rd (Reg.HDR.IRQ_PEND b i)) k false) (s.rd (Reg.HDR.IRQ_MASK b i))

/-- Set a bit of a page's ERR_STATUS (R683). -/
def Act.err (b : Blk) (i k : Nat) : Act := .orReg (Reg.HDR.ERR_STATUS b i) (BitVec.ofNat 32 (2 ^ k))

/-- CFG_ERR of R683: a configuration value or command refused. -/
def Act.cfgErr (b : Blk) (i : Nat) : Act := .err b i 8

/-- R684: log an access in a page's ACC_ERR; a log that becomes valid is recorded in TOP.ACC_LAST and raises source 16. -/
def Act.logAcc (b : Blk) (i f off kind : Nat) : Act := .get fun s =>
  let r := Reg.HDR.ACC_ERR b i
  let w := s.rd r
  if w.getLsbD 24 then
    .all [.wr r (setBits (setBits w 25 25 1) 31 26 (min (bits w 31 26 + 1) 63))]
  else
    .all [.wr r (setBits (setBits (setBits (setBits (setBits 0 11 2 (off / 4)) 15 12 kind) 20 16 f) 24 24 1) 31 26 1),
          .wrN Reg.TOP.ACC_LAST (b.slot + i), .orReg Reg.TOP.TOP_EVENTS 1, .raise .TOP 0 0]

/-! ### Traffic of the commons slices (R18, R19, R21) -/

/-- 64-byte units of slice `c` that `n` bytes at `a` touch. -/
def beatsIn (a n c : Nat) : Nat :=
  let lo := max a (c * 0x800000)
  let hi := min (a + n) ((c + 1) * 0x800000)
  if lo < hi then (hi + 63) / 64 - lo / 64 else 0

/-- A slice after its ring port has served `k` units of 64 bytes, 256 bytes per cycle (R18). -/
def CmnSt.served (isWrite : Bool) (k : Nat) (x : CmnSt) : CmnSt :=
  if isWrite then { x with wr := min (x.wr + k) 4294967295, busy := x.busy + (k + 3) / 4 }
  else { x with rd := min (x.rd + k) 4294967295, busy := x.busy + (k + 3) / 4 }

/-- Bytes behind the memory controllers (log entry 4). -/
def isDram (a : Nat) : Bool := decide (0x1000000000 ≤ a ∧ a < 0x2000000000)
/-- Device address of byte `a` behind controller `m` (log entry 4). -/
def dramAddr (m a : Nat) : Nat := 0x1000000000 + m * 0x200000000 + a

/-- 64-byte units behind controller `m` that `n` bytes at `a` touch. -/
def unitsIn (a n m : Nat) : Nat :=
  let lo := max a (dramAddr m 0)
  let hi := min (a + n) (dramAddr (m + 1) 0)
  if lo < hi then (hi + 63) / 64 - lo / 64 else 0

/-- A controller after an access of `k` units (R617), which wakes its channels from power-down (R611). -/
def MemcSt.served (isWrite : Bool) (k : Nat) (x : MemcSt) : MemcSt :=
  if k = 0 then x else if isWrite then { x with wr := min (x.wr + k) 4294967295, down := false }
  else { x with rd := min (x.rd + k) 4294967295, down := false }

/-- R21, R617: an access of `n` bytes at `a` goes over the ring ports of the commons slices it touches, or to the memory
controllers. Which accesses count: log entry 71. -/
def ringMove (isWrite : Bool) (a n : Nat) : Act := .seq
  (.when (decide (0 < n ∧ a < commonsSize)) (.hw fun h => { h with cmn := h.cmn.mapIdx fun c x => x.served isWrite (beatsIn a n c) }))
  (.when (decide (0 < n) && isDram a) (.hw fun h => { h with memc := h.memc.mapIdx fun m x => x.served isWrite (unitsIn a n m) }))

/-- The commons slices an access of `n` bytes at `a` touches. -/
def slicesOf (a n : Nat) : List Nat := (List.range 16).filter fun c => decide (0 < beatsIn a n c)
/-- The memory controllers it touches. -/
def memcsOf (a n : Nat) : List Nat := if isDram a then (List.range 8).filter fun m => decide (0 < unitsIn a n m) else []

/-! ### Lists of block state -/

/-- Change capture state. -/
def Act.cap (f : CapSt → CapSt) : Act := .hw fun h => { h with cap := f h.cap }
/-- Change dispatcher state. -/
def Act.disp (f : DispSt → DispSt) : Act := .hw fun h => { h with disp := f h.disp }
/-- Change gatherer and function state. -/
def Act.gath (f : GathSt → GathSt) : Act := .hw fun h => { h with gath := f h.gath }
/-- Change a local stream's state. -/
def Act.stream (n : Nat) (f : StreamSt → StreamSt) : Act :=
  .hw fun h => { h with streams := alPut {} n (f (alGet {} n h.streams)) h.streams }
/-- A local stream's state. -/
def State.streamSt (s : State) (n : Nat) : StreamSt := alGet {} n s.hw.streams

/-! ### Counts over time -/

/-- The number of this device among those linked: 0 without partners (R633). -/
def State.devNum (s : State) : Nat :=
  if s.bit Reg.LINK.DEV_STATUS 3 then s.fld Reg.LINK.DEV_STATUS 2 0 else 0

end Sys2Proof.Machine
end

