-- ==== Sys2Proof/Machine/Flags.lean ====
section
/-! DEFINITION. The stitch header (R28 to R52): its bytes, its flags, its end-to-end check, and what a receiver makes
of a unit. -/

namespace Sys2Proof.Machine

/-! ### Flag bits (R29) -/

abbrev fLAST : Nat := 0
abbrev fPARTIAL : Nat := 1
abbrev fINVALID : Nat := 2
abbrev fUNCERTAIN : Nat := 3
abbrev fWIDE : Nat := 4
abbrev fFALLBACK : Nat := 5
abbrev fFROGGED : Nat := 6
abbrev fDEGRADED : Nat := 7
abbrev fZRUN : Nat := 8
abbrev fREMOTE : Nat := 9

/-- A flag word with the listed bits set. -/
def flagsOf (l : List Nat) : BitVec 16 := l.foldl (fun w i => putBit w i true) 0

/-- R48, R49: the flags that pass to derived units: INVALID, UNCERTAIN, WIDE_RERUN, FALLBACK, FROGGED, DEGRADED. -/
def passOn (f : BitVec 16) : BitVec 16 := f &&& 0x00FC#16

/-- R51: the flag word of a unit of class `cls`, on which DEGRADED stands in class 2 alone. -/
def degradedIn (cls : Nat) (f : BitVec 16) : BitVec 16 := if cls = 2 then f else putBit f fDEGRADED false

end Sys2Proof.Machine

namespace Sys2Proof
open Machine

/-- Does the unit carry the flag? -/
def DUnit.has (u : DUnit) (i : Nat) : Bool := u.flags.getLsbD i

/-- R48, R51: the flags of a unit that pass to the units derived from it. -/
def DUnit.passed (u : DUnit) : BitVec 16 := degradedIn u.cls.toNat (passOn u.flags)

/-- The unit with flag `i` set. -/
def DUnit.set (u : DUnit) (i : Nat) : DUnit := { u with flags := putBit u.flags i true }

/-! ### Bytes and CRC -/

/-- Header bytes 0 to 27 (R28). -/
def DUnit.head28 (u : DUnit) : List Byte :=
  leBytes 8 u.stamp.toNat ++ leBytes 6 u.item.toNat ++ leBytes 2 u.fc.toNat ++
  leBytes 2 (u.stream.toNat + u.cls.toNat * 4096 + u.resv.toNat * 16384) ++ leBytes 1 u.ctx.toNat ++
  leBytes 1 u.fmt.toNat ++ leBytes 4 u.len.toNat ++ leBytes 2 u.flags.toNat ++
  leBytes 2 (u.source.toNat + u.hops.toNat * 1024)

/-- R40, R41: the CRC of a unit, REMOTE and hop count taken as zero. -/
def DUnit.crcOf (u : DUnit) : BitVec 32 :=
  crc32c ({ u with flags := putBit u.flags fREMOTE false, hops := 0 }.head28 ++ u.payload)

/-- The unit with its CRC recomputed. -/
def DUnit.sealed (u : DUnit) : DUnit := { u with crc := u.crcOf }

/-- The 32-byte header and the payload, as stored (R28, R110). -/
def DUnit.toBytes (u : DUnit) : List Byte := u.head28 ++ leBytes 4 u.crc.toNat ++ u.payload

end Sys2Proof

namespace Sys2Proof.Machine

/-- A unit read from bytes: 32 header bytes, then the payload its length names. -/
def unitOf (h : List Byte) (payload : List Byte) : DUnit :=
  let n (i k : Nat) := leNat ((h.drop i).take k)
  { stamp := BitVec.ofNat 64 (n 0 8), item := BitVec.ofNat 48 (n 8 6), fc := BitVec.ofNat 16 (n 14 2),
    stream := BitVec.ofNat 12 (n 16 2), cls := BitVec.ofNat 2 (n 16 2 / 4096), resv := BitVec.ofNat 2 (n 16 2 / 16384),
    ctx := BitVec.ofNat 8 (n 18 1), fmt := BitVec.ofNat 8 (n 19 1), len := BitVec.ofNat 32 (n 20 4),
    flags := BitVec.ofNat 16 (n 24 2), source := BitVec.ofNat 10 (n 26 2), hops := BitVec.ofNat 6 (n 26 2 / 1024),
    crc := BitVec.ofNat 32 (n 28 4), payload := payload }

/-- A unit with a payload and empty header fields. -/
def unitWith (stamp : Nat) (item : BitVec 48) (cls ctx fmt source : Nat) (flags : BitVec 16) (payload : List Byte) :
    DUnit :=
  { stamp := BitVec.ofNat 64 stamp, item := item, fc := 0, stream := 0, cls := BitVec.ofNat 2 cls, resv := 0,
    ctx := BitVec.ofNat 8 ctx, fmt := BitVec.ofNat 8 fmt, len := BitVec.ofNat 32 payload.length, flags := flags,
    source := BitVec.ofNat 10 source, hops := 0, crc := 0, payload := payload }

/-! ### Format codes (R166) -/

/-- The format codes the table of R166 gives a meaning; every other code is reserved. -/
def fmtKnown (c : Nat) : Bool :=
  [0x01, 0x02, 0x03, 0x04, 0x05, 0x06, 0x07, 0x08, 0x09, 0x0A, 0x10, 0x11, 0x12, 0x13, 0x20, 0x21, 0x22, 0x30, 0x31,
   0x40].contains c

/-! ### Receiving (R43 to R47, R753) -/

/-- Conditions of R44, with the ERR_STATUS bit each is recorded as (R683). `streamCls` is the class of the stream,
`authorised` whether SAFE authorises the producer, `closed` the items whose LAST has passed. -/
def headerFaults (u : DUnit) (streamCls : Nat) (authorised : Bool) (closed : List (BitVec 48)) : List Nat :=
  (if !fmtKnown u.fmt.toNat then [1] else []) ++
  (if u.has fZRUN != (u.fmt.toNat == 0x40) then [1] else []) ++
  (if 0x01000000 < u.len.toNat then [2] else []) ++
  (if u.cls.toNat ≠ streamCls then [3] else []) ++
  (if u.cls.toNat = 2 ∧ !authorised then [3] else []) ++
  (if u.item ≠ 0 ∧ closed.contains u.item then [4] else [])

end Sys2Proof.Machine

namespace Sys2Proof
open Machine

/-- The substitute of R45. -/
def DUnit.substitute (u : DUnit) : DUnit :=
  let fmt := if fmtKnown u.fmt.toNat && u.fmt.toNat != 0x40 then u.fmt else 0x04
  { u with len := 0, payload := [], fmt := fmt,
           flags := putBit (putBit u.flags fINVALID true) fZRUN false }.sealed

/-- The zero-length unit of R753 for the item of the last unit accepted, before a unit with counter `c`; reserved bits are
written zero (R39). -/
def DUnit.gapUnit (last : DUnit) (c : BitVec 16) : DUnit :=
  { last with len := 0, payload := [], fc := c - 1, resv := 0, fmt := if last.fmt = 0x40 then 0x04 else last.fmt,
              flags := flagsOf [fLAST, fPARTIAL, fINVALID] ||| last.passed }.sealed

end Sys2Proof

namespace Sys2Proof.Machine

/-- What a receiver does with a unit: the units it accepts in order, its new state, the ERR_STATUS bits it records,
and whether the CRC failed. -/
structure RxResult where
  units  : List DUnit
  st     : RxSt
  errs   : List Nat
  crcBad : Bool
  deriving DecidableEq, Repr

/-- R43 to R47: receive a unit whole. A unit of item identifier 0 belongs to no item (R31): the rules that act on an item's
units do not act on it (DESIGN CHOICE, log entry 11). -/
def receiveUnit (st : RxSt) (u : DUnit) (streamCls : Nat) (authorised : Bool) : RxResult :=
  if u.crc ≠ u.crcOf then ⟨[], st, [], true⟩
  else
    let faults := headerFaults u streamCls authorised st.closed
    let v := if faults.isEmpty then u else u.substitute
    let d := (v.fc - st.e).toNat
    if 32768 ≤ d then ⟨[], st, faults ++ [6], false⟩
    else
      let gap := 0 < d
      let broken := if gap && v.item != 0 && !st.broken.contains v.item then st.broken ++ [v.item] else st.broken
      let v := if gap || broken.contains v.item then (v.set fINVALID).sealed else v
      let extra := match st.last with
        | some l => if gap && decide (l.item ≠ v.item) && !st.closed.contains l.item && decide (l.item ≠ 0)
            then [l.gapUnit v.fc] else []
        | none => []
      let closed := (extra ++ [v]).foldl (fun c x => if x.has fLAST && x.item != 0 && !c.contains x.item
            then c ++ [x.item] else c) st.closed
      ⟨extra ++ [v], { e := v.fc + 1, last := some { v with payload := [] }, closed := closed,
                       broken := broken.filter fun i => !closed.contains i },
        faults ++ (if gap then [5] else []), false⟩

end Sys2Proof.Machine
end

