-- ==== Sys2Proof/Machine/Streams.lean ====
section
/-! DEFINITION. Local streams: their records in the commons (R404), their rings, publishing a unit on one and
consuming a unit from one (R110, R405, R418). -/

namespace Sys2Proof.Machine

/-- A stream record (R404), read from the commons. -/
structure StreamRec where
  ring    : Nat
  slots   : Nat
  slotKib : Nat
  head    : Nat
  tail    : Nat
  cls     : Nat
  prod    : Nat
  valid   : Bool
  ctx     : Nat
  deriving DecidableEq, Repr

/-- Commons offset of the record of stream `n`. -/
def State.streamAddr (s : State) (n : Nat) : Nat := (s.rd Reg.DISP.STREAM_BASE).toNat + 32 * n

/-- The record of local stream `n` (R404). -/
def State.streamRec (s : State) (n : Nat) : StreamRec :=
  let a := s.streamAddr n
  let cfg := s.byte (a + 16)
  { ring := s.readN a 4, slots := s.readN (a + 4) 2, slotKib := s.readN (a + 6) 2, head := s.readN (a + 8) 4,
    tail := s.readN (a + 12) 4, cls := bits cfg 1 0, prod := bits cfg 4 2, valid := cfg.getLsbD 7,
    ctx := (s.byte (a + 17)).toNat }

/-- The slot after index `i` in a ring of `n` slots: indices count modulo the number of slots (log entry 11). -/
def nextSlot (i n : Nat) : Nat := if n = 0 then 0 else (i + 1) % n

/-- Has the ring no free slot? -/
def ringFull (head tail slots : Nat) : Bool := slots == 0 || nextSlot tail slots == head % slots

/-- Has stream `n` no free slot? -/
def State.streamFull (s : State) (n : Nat) : Bool :=
  let r := s.streamRec n
  ringFull r.head r.tail r.slots

/-- R497: does a write of `n` bytes at commons offset `a` touch C2_REGION? -/
def State.inC2 (s : State) (a n : Nat) : Bool :=
  let base := s.fld Reg.SAFE.C2_REGION 10 0 * 65536
  let size := s.fld Reg.SAFE.C2_REGION 26 16 * 65536
  decide (size ≠ 0) && decide (a < base + size) && decide (base < a + n)

/-- R497: a write refused: counted, source 15. -/
def Act.c2Refuse : Act := .seq (.bump Reg.CMP.AUTH_REFUSE 1) (.raise .CMP 0 4)

/-- A write by a producer of class `cls`, held to R497. -/
def Act.guarded (cls a : Nat) (l : List Byte) : Act := .get fun s =>
  if s.inC2 a l.length && cls != 2 then .c2Refuse else .seq (.bytes a l) (ringMove true a l.length)

/-- R496: is local stream `n` in a valid entry of SAFE.AUTH? -/
def State.authorised (s : State) (n : Nat) : Bool :=
  (List.range 16).any fun i => s.bit (Reg.SAFE.AUTH i) 15 && s.fld (Reg.SAFE.AUTH i) 8 0 == n

/-- Is stream `n` the command or perception stream of an enabled motion loop (R383, R390)? -/
def State.loopStream (s : State) (n : Nat) : Bool :=
  (List.range 8).any fun l => s.bit (Reg.CEU.LOOP_CTRL l) 0 &&
    (s.fld (Reg.CEU.LOOP_CTRL l) 13 5 == n || s.fld (Reg.CEU.LOOP_CTRL l) 25 17 == n)

/-- The unit as it leaves its producer on local stream `n`: stream identifier, counter, and INVALID where the device
or the item is under R721, R364 or R365; DEGRADED in class 2 alone; CRC last (R33, R40, R46, R51). -/
def State.finish (s : State) (n : Nat) (u : DUnit) : DUnit :=
  let st := s.streamSt n
  let inv := s.hw.boot.outInvalid || s.hw.disp.broken.contains u.item
  let v := { u with stream := BitVec.ofNat 12 (s.devNum * 512 + n), fc := st.fc, len := BitVec.ofNat 32 u.payload.length,
                    flags := degradedIn u.cls.toNat u.flags }
  (if inv then v.set fINVALID else v).sealed

/-- Local stream `n` is opened: its producer's counter and every receiver's expected counter start at 0 (R46, R47); the ring
stands as it is. -/
def Act.openStream (n : Nat) : Act := .get fun s =>
  .seq (.stream n fun x => { x with fc := 0 })
    (.hw fun h => { h with rx := h.rx.filter fun e => e.1 % 4096 != s.devNum * 512 + n })

/-- R110, R418: write a unit into the next free slot of stream `n`'s ring, header after payload, and advance TAIL; the
consumers of the stream are told. The caller has found the ring not full. -/
def Act.publish (n : Nat) (u : DUnit) : Act := .get fun s =>
  let r := s.streamRec n
  let v := s.finish n u
  let tail := nextSlot r.tail r.slots
  .all [.guarded v.cls.toNat (r.ring + r.tail * r.slotKib * 1024) v.toBytes,
        .mem (s.streamAddr n + 12) 4 tail,
        .stream n fun st => { st with fc := st.fc + 1,
                                      recent := if s.loopStream n then st.recent ++ [(s.now, v)] else st.recent },
        .event (.unit n v)]

/-- R405, R418: free the slot at ring index `i` of stream `n`; HEAD passes every slot freed in ring order. -/
def Act.freeSlot (n i : Nat) : Act := .get fun s =>
  let r := s.streamRec n
  let freed := i :: (s.streamSt n).freed
  let rec go : Nat → Nat → List Nat → Nat × List Nat
    | 0, h, l => (h, l)
    | k + 1, h, l => if l.contains h then go k (nextSlot h r.slots) (l.erase h) else (h, l)
  let (h, rest) := go freed.length r.head freed
  .all [.mem (s.streamAddr n + 8) 4 h,
        .stream n (fun st => { st with freed := rest }),
        .each (List.range 16) fun p =>
          .when (s.bit (Reg.SFE.PATH_CTRL p) 0 && s.fld (Reg.SFE.PATH_STREAM p) 8 0 == n)
            (.wrN (Reg.SFE.DEST_HEAD p) h)]

/-- The unit in slot `i` of stream `n`'s ring. -/
def State.unitAt (s : State) (n i : Nat) : DUnit :=
  let r := s.streamRec n
  let a := r.ring + i * r.slotKib * 1024
  let h := s.read a 32
  unitOf h (s.read (a + 32) (leNat ((h.drop 20).take 4)))

/-- Has stream `n` a unit that no admitted command has consumed (R405)? -/
def State.hasUnit (s : State) (n : Nat) : Bool :=
  let r := s.streamRec n
  r.slots != 0 && (s.streamSt n).take % r.slots != r.tail % r.slots

/-- Record what a receiver found in its page (R43, R44, R47, R683): CRC_CNT saturates at 255. -/
def Act.rxErrs (b : Blk) (i : Nat) (x : RxResult) : Act :=
  .seq (.when x.crcBad (.seq (.err b i 0) (.satFld (Reg.HDR.ERR_STATUS b i) 31 24 1)))
       (.each x.errs fun k => .err b i k)

/-- The key of a receiver: page and stream identifier. -/
def rxKey (b : Blk) (i : Nat) (stream : BitVec 12) : Nat := (b.slot + i) * 4096 + stream.toNat

/-- A page's block receives a unit of a stream of class `cls`: errors are recorded, the receiver's state moves on, and
the accepted units go to `k` (R43 to R47). -/
def Act.receive (b : Blk) (i : Nat) (u : DUnit) (cls : Nat) (k : List DUnit → Act) : Act := .get fun s =>
  let key := rxKey b i u.stream
  let local_ := u.stream.toNat / 512 == s.devNum && !u.has fREMOTE
  let x := receiveUnit (alGet {} key s.hw.rx) u cls (local_ && s.authorised (u.stream.toNat % 512))
  .all [.rxErrs b i x, .hw fun h => { h with rx := alPut {} key x.st h.rx }, k x.units]

end Sys2Proof.Machine
end

