-- ==== Sys2Proof/Machine/Hal.lean ====
section
/-! DEFINITION. The Halulavy legal-metrology island and its page (13_halulavy_metrology_island). A request, a result and
a status frame each cross the lanes whole; what a reset could cut off within an audited change is one command here and
so is never cut off (R557, R558). -/

namespace Sys2Proof.Machine

def Act.hal (f : HalSt → HalSt) : Act := .hw fun h => { h with hal := f h.hal }
/-- Raise source 704 + k (R566). -/
def halRaise (k : Nat) : Act := .raise .HAL 0 k

/-- ISLAND_STATE (R562). -/
abbrev hSTART : Nat := 0
abbrev hRUN : Nat := 1
abbrev hERROR : Nat := 2
abbrev hHALTED : Nat := 3

/-- A parameter in a set. -/
def paramOf (l : List (Nat × Word)) (id : Nat) : Word := (alFind id l).getD 0

/-- R556: entries the audit area holds. -/
def auditSize : Nat := 65536

/-! ### What the page shows of the island (R547, R562, R565) -/

/-- The island's identity, counters and state reach the page. OP_SECONDS is the island's own time: open. -/
def halReport : Act := .fresh fun fr => .get fun s =>
  let h := s.hw.hal
  let n := h.audit.length
  .all [.wrN Reg.HAL.HAL_STATUS (h.state + 8 + 16 * b2n h.pfWarn + 32 * b2n (decide (auditSize ≤ n)) + 64 * b2n h.idOk +
          256 * h.queue.length),
        .wrN Reg.HAL.EVENT_CNT n, .wrN Reg.HAL.AUDIT_FREE (auditSize - n), .wr Reg.HAL.FW_CRC h.crc,
        .wr (Reg.HAL.SW_ID 0) (h.swId.setWidth 32), .wr (Reg.HAL.SW_ID 1) ((h.swId >>> 32).setWidth 32),
        .wr (Reg.HAL.SW_ID 2) ((h.swId >>> 64).setWidth 32), .wr (Reg.HAL.SW_ID 3) ((h.swId >>> 96).setWidth 32),
        .wr Reg.HAL.OP_SECONDS (openWord fr 0)]

/-- The page follows the island while the lane is up. -/
def halTell : Act := .get fun s => .when (s.bit Reg.HAL.HAL_STATUS 3) halReport

/-- The island enters ERROR (R562). -/
def halError : Act := .get fun s =>
  .when (s.hw.hal.state != hERROR) (.seq (.hal fun h => { h with state := hERROR }) (halRaise 3))

/-- R547, R548: the firmware checksum has been computed. A mismatch holds until a restart whose checksum passes. -/
def halCheck (crc : Word) : Act := .get fun s =>
  let ok := crc == s.hw.hal.crcRef
  .seq (.hal fun h => { h with crc := crc, idOk := h.idOk && ok }) (.when (!ok) (.seq halError (halRaise 7)))

/-! ### Requests (R550 to R554) -/

/-- The request's fields. -/
def HalReq.word (r : HalReq) (j : Nat) : Word := r.words.getD j 0
def HalReq.op (r : HalReq) : Nat := bits (r.word 0) 7 0
def HalReq.param (r : HalReq) : Nat := bits (r.word 1) 15 0
def HalReq.value (r : HalReq) : Word := r.word 2
def HalReq.index (r : HalReq) : Nat := (r.word 3).toNat
/-- R550: the reserved fields are zero. -/
def HalReq.reservedZero (r : HalReq) : Bool :=
  bits (r.word 0) 31 8 == 0 && bits (r.word 1) 31 16 == 0 && r.word 4 == 0 && r.word 5 == 0 && r.word 6 == 0

/-- The island answers the request under way (R553). -/
def halAnswer (r : HalReq) (result reason : Nat) (value : Word) : Act := .hal fun h => { h with
  req := none
  reply := some { words := [BitVec.ofNat 32 (r.op + 256 * result + 65536 * reason), value, BitVec.ofNat 32 h.audit.length,
                            BitVec.ofNat 32 r.seq, 0, 0, 0, 0],
                  ok := decide (result ≠ 2), reason := reason, seq := r.seq } }

/-- Refused. -/
def halRefuse (r : HalReq) (reason : Nat) : Act := halAnswer r 2 reason 0

/-- Reasons 4 and 5 of R553, 0 for neither. -/
def HalSt.blocked (h : HalSt) (r : HalReq) : Nat :=
  if h.state ≠ hRUN ∨ h.pfWarn then 4 else if !r.reservedZero then 5 else 0

/-- A request with this OP: `k` carries it out when neither reason 4 nor 5 refuses it. -/
def halRequest (op : Nat) (k : HalReq → Act) : Act := .get fun s => match s.hw.hal.req with
  | none => .nil
  | some r => .when (r.op == op) <|
      if s.hw.hal.blocked r = 0 then k r else halRefuse r (s.hw.hal.blocked r)

/-- REQ_SEND (R551): the page attaches REQ_SEQ and the TSC. -/
def reqSendAct (v : Word) : Act := .get fun s => .when (v.getLsbD 0 && !s.hw.boot.frozen) <|
  let seq := (s.fld Reg.HAL.REQ_STATUS 31 16 + 1) % 65536
  .seq (.wrN Reg.HAL.REQ_STATUS (1 + 65536 * seq))
       (.hal fun h => { h with reply := none, req := some { words := (List.range 8).map fun j => s.rd (Reg.HAL.REQ j), seq := seq, tsc := s.now } })

/-! ### Parameters (R552) -/

/-- E_MG: 1, 2 or 5 times a power of ten. -/
def eMgOk (n : Nat) : Bool :=
  decide (1 ≤ n ∧ n ≤ 50000) && [1, 10, 100, 1000, 10000].any fun k => n == k || n == 2 * k || n == 5 * k

/-- Does the value lie in the parameter's range? `none`: no such parameter. -/
def paramRange (id : Nat) (v : Word) : Option Bool :=
  let n := v.toNat
  let i := sgn 32 n
  let within (lo hi : Nat) : Option Bool := some (decide (lo ≤ n ∧ n ≤ hi))
  if 0x0001 ≤ id ∧ id ≤ 0x0004 then some (decide (-8388608 ≤ i ∧ i ≤ 8388607))
  else if 0x0011 ≤ id ∧ id ≤ 0x0014 then within 1 2147483647
  else match id with
    | 0x0020 => within 100 100000
    | 0x0021 => within 1 100000
    | 0x0022 => some (eMgOk n)
    | 0x0023 => within 0 200
    | 0x0024 => within 0 50
    | 0x0025 => within 0 15
    | 0x0026 => within 10 5000
    | 0x0027 => within 1 100
    | 0x0028 => within 1 15
    | 0x0029 => within 0 7
    | 0x002A => within 10 32000
    | 0x0100 => within 1 100
    | 0x0101 => within 1 256
    | _ => none

/-- Legally relevant? -/
def paramLegal (id : Nat) : Bool := decide (id < 0x0100)

/-- Is the change in range, MIN not above MAX after it? -/
def HalSt.setOk (h : HalSt) (id : Nat) (v : Word) : Bool :=
  let l := alPut 0 id v h.params
  (paramRange id v).getD false && decide ((paramOf l 0x0021).toNat ≤ (paramOf l 0x0020).toNat)

/-- SET (R553, R554, R557): checked; then entry, bank and commit word, the event counter with it; a parameter that is
not legally relevant is set without an entry. -/
def halSetAct : Act := .fresh fun fr => .get fun s => match s.hw.hal.req with
  | none => .nil
  | some r =>
    let h := s.hw.hal
    let old := paramOf h.params r.param
    let n := h.audit.length
    .when (r.op == 1) <|
      if (paramRange r.param r.value).isNone then halRefuse r 1
      else if !h.setOk r.param r.value then halRefuse r 2
      else if paramLegal r.param && old != r.value && decide (auditSize ≤ n) then halRefuse r 3
      else if h.blocked r ≠ 0 then halRefuse r (h.blocked r)
      else if old = r.value then halAnswer r 1 0 r.value
      else .all
        [.when (paramLegal r.param) (.seq
           (.hal fun x => { x with audit := { no := n + 1, secs := (openWord fr 0).toNat, tsc := r.tsc, param := r.param,
                                              seq := r.seq, old := old, new := r.value } :: x.audit })
           (.when (n == auditSize - 3277) (halRaise 5))),
         .hal fun x => { x with params := x.params.map fun e => if e.1 = r.param then (e.1, r.value) else e },
         halAnswer r 0 0 r.value, halTell]

/-- PARAMETER_GET. -/
def halGetAct : Act := .get fun s => match s.hw.hal.req with
  | none => .nil
  | some r => .when (r.op == 2) <|
      if (paramRange r.param 0).isNone then halRefuse r 1
      else if s.hw.hal.blocked r ≠ 0 then halRefuse r (s.hw.hal.blocked r)
      else halAnswer r 0 0 (paramOf s.hw.hal.params r.param)

/-- R555: the eight words of an audit entry. -/
def AuditEntry.words (e : AuditEntry) : List Word :=
  let l := leBytes 4 e.no ++ leBytes 4 e.secs ++ leBytes 8 e.tsc ++ leBytes 2 e.param ++ leBytes 2 e.seq ++
    leBytes 4 e.old.toNat ++ leBytes 4 e.new.toNat
  let b := l ++ leBytes 4 (crc32c l).toNat
  (List.range 8).map fun j => BitVec.ofNat 32 (leNat ((b.drop (4 * j)).take 4))

/-- AUDIT_READ (R553, R555). -/
def halAuditAct : Act := halRequest 3 fun r => .get fun s =>
  match s.hw.hal.audit.find? fun e => e.no == r.index with
  | some e => .hal fun h => { h with req := none, reply := some { words := e.words, seq := r.seq } }
  | none => halRefuse r 7

/-- IDENT (R547). -/
def halIdentAct (crc : Word) : Act := halRequest 4 fun r => .all [halCheck crc, halAnswer r 0 0 crc, halTell]

/-- ZERO (R553, R554): the last weight, stable and within ZERO_RANGE, becomes zero. -/
def halZeroAct : Act := halRequest 5 fun r => .get fun s =>
  let h := s.hw.hal
  let range := (paramOf h.params 0x0023).toNat * (paramOf h.params 0x0020).toNat
  if h.stable && decide (h.gross.natAbs * 1000 ≤ range) then
    .seq (.hal fun x => { x with zero := x.gross }) (halAnswer r 0 0 (BitVec.ofInt 32 h.gross))
  else halRefuse r 6

/-- TARE (R554): the present gross weight becomes the tare. -/
def halTareAct : Act := halRequest 6 fun r => .get fun s =>
  let t := s.hw.hal.gross - s.hw.hal.zero
  .seq (.hal fun x => { x with tare := t }) (halAnswer r 0 0 (BitVec.ofInt 32 t))

/-- TARE_CLEAR (R554). -/
def halTareClearAct : Act := halRequest 7 fun r => .seq (.hal fun x => { x with tare := 0 }) (halAnswer r 0 0 0)

/-- REPLY_ARRIVE (R553): the page takes the reply of the request it waits for; another reply is lost (R564). A request
with an unknown OP is refused with reason 1. -/
def replyArriveAct : Act := .get fun s => .seq
  (match s.hw.hal.req with
   | some r => .when (r.op == 0 || decide (8 ≤ r.op)) (halRefuse r 1)
   | none => .nil) <| .get fun s => match s.hw.hal.reply with
  | none => .nil
  | some y => .seq (.hal fun h => { h with reply := none }) <|
      .when (s.bit Reg.HAL.REQ_STATUS 0 && s.fld Reg.HAL.REQ_STATUS 31 16 == y.seq) <| .all
        [.each (y.words.zipIdx) fun (w, j) => .wr (Reg.HAL.REPLY j) w,
         .wrN Reg.HAL.REQ_STATUS (2 + 4 * b2n y.ok + 256 * y.reason + 65536 * y.seq),
         halRaise 1, .when (!y.ok) (halRaise 2)]

/-! ### Results (R541 to R546) -/

/-- The flags of a result (R541, R542). The manual does not say whether LEGAL looks at the gross or the net weight: where
the two differ it is open. -/
def HalSt.resultFlags (h : HalSt) (w : Weighing) (fr : Nat) : BitVec 16 :=
  let gross := w.gross - h.zero
  let net := gross - h.tare
  let lo : Int := (paramOf h.window 0x0021).toNat
  let hi : Int := (paramOf h.window 0x0020).toNat
  let ok (x : Int) : Bool := decide (lo ≤ x ∧ x ≤ hi)
  let within := if ok gross = ok net then ok gross else (Config.freeValue fr 0).getLsbD 0
  let legal := within && w.stable && h.idOk && h.state == hRUN
  flagsOf ((if legal then [0] else []) ++ (if w.stable then [1] else []) ++ (if w.overload then [2] else []) ++
    (if w.underload then [3] else []) ++ (if w.zeroCentre then [4] else []) ++ (if h.tare ≠ 0 then [5] else []) ++
    (if net < lo then [6] else []) ++ (if h.lost then [7] else []) ++ (if h.idOk then [] else [8]))

/-- WEIGHING_WINDOW_END (R541, R543): a result is formed and queued, or lost; the next window takes the parameters in
force. -/
def weighingAct (w : Weighing) : Act := .fresh fun fr => .get fun s =>
  let h := s.hw.hal
  let r : HalResult := { seq := h.resSeq + 1, net := w.gross - h.zero - h.tare, tare := h.tare, eMg := (paramOf h.window 0x0022).toNat,
                         flags := h.resultFlags w fr, chans := (paramOf h.window 0x0028).toNat, winUs := w.winUs.toNat,
                         event := h.audit.length }
  .when (h.state != hSTART) <| .all
    [.hal fun x => { x with resSeq := x.resSeq + 1, gross := w.gross, stable := w.stable, window := x.params },
     if h.queue.length < 256 then .hal fun x => { x with queue := x.queue ++ [r], lost := false }
     else .hal fun x => { x with lost := true, lostN := x.lostN + 1 }]

/-- The 32 bytes of a result record. -/
def HalResult.toBytes (r : HalResult) (delayUs : Nat) : List Byte :=
  leBytes 4 r.seq ++ leBytes 4 (uns 32 r.net) ++ leBytes 4 (uns 32 r.tare) ++ leBytes 4 r.eMg ++ leBytes 2 r.flags.toNat ++
  leBytes 2 r.chans ++ leBytes 4 r.winUs ++ leBytes 4 delayUs ++ leBytes 4 r.event

/-- R546: the item open on a path at a stamp. -/
def State.itemAt (s : State) (p t : Nat) : BitVec 48 :=
  ((s.hw.hal.spans.find? fun x => x.1 == p && decide (x.2.2.1 ≤ t) && (match x.2.2.2 with
    | some e => decide (t ≤ e)
    | none => true)).map fun x => x.2.1).getD 0

/-- An item opened or closed on a path (R546). -/
def halItemOpen (p : Nat) (id : BitVec 48) (stamp : Nat) : Act :=
  .hal fun h => { h with spans := ((p, id, stamp, none) :: h.spans).take 1024 }
def halItemClose (p : Nat) (id : BitVec 48) (stamp : Nat) : Act :=
  .hal fun h => { h with spans := h.spans.map fun x => if x.1 = p ∧ x.2.1 = id then (p, id, x.2.2.1, some stamp) else x }

/-- The island removes the head of its queue. -/
def halPop : Act := .seq (.hal fun h => { h with queue := h.queue.tail, shown := false })
  (.get fun s => .when (s.bit Reg.HAL.HAL_STATUS 3) (.setFld Reg.HAL.HAL_STATUS 16 8 s.hw.hal.queue.length))

/-- RESULT_RECORD_ARRIVE (R544 to R546). While the unit's ring has no free slot the page does not take the result; a frame whose
CRC fails is discarded and counted (R565), and the island, whose queue keeps the result, sends it again. -/
def resultArriveAct (delayUs : Nat) (bad : Bool) : Act := .get fun s => if bad then .bump Reg.HAL.LANE_ERR 1 else
 match s.hw.hal.queue with
  | [] => .nil
  | r :: _ =>
    let t := s.now - 1000 * (delayUs + r.winUs)
    let b := r.toBytes delayUs
    let c := s.rd Reg.HAL.HAL_CTRL
    let n := bits c 9 1
    let item := if c.getLsbD 22 then s.itemAt (bits c 21 18) t else 0
    let flags := if !r.flags.getLsbD 0 || s.hw.boot.pfLow then flagsOf [fINVALID] else 0
    let show_ := Act.seq (.each (List.range 8) fun j => .wrN (Reg.HAL.RES j) (leNat ((b.drop (4 * j)).take 4)))
      (.wr64 Reg.HAL.RES_STAMP_LO Reg.HAL.RES_STAMP_HI t)
    .when (s.bit Reg.HAL.HAL_STATUS 3 && !s.hw.hal.shown) <|
      if c.getLsbD 0 then
        .when (!s.streamFull n) <| .all
          [show_, .publish n (unitWith t item 3 (bits c 17 10) 0x13 704 flags b), .bump Reg.HAL.UNIT_CNT 1, halPop]
      else .all [show_, .hal fun h => { h with shown := true }, halRaise 0]

/-- RES_POP (R565). -/
def resPopAct (v : Word) : Act := .get fun s =>
  .when (v.getLsbD 0 && !s.bit Reg.HAL.HAL_CTRL 0 && s.hw.hal.shown) halPop

/-! ### Frames, checks, resets of the island -/

/-- STATUS_FRAME_ARRIVE (R535, R543, R563). -/
def statusFrameAct : Act := .get fun s =>
  let n := s.hw.hal.lostN
  .all [.hal fun h => { h with frame := s.now, lostN := 0 }, halReport,
        .when (n != 0) (.seq (.bump Reg.HAL.LOST_CNT n) (halRaise 6))]

/-- LANE_LOST (R563): no status frame for three periods. -/
def laneLostAct : Act := .get fun s =>
  let p := (paramOf s.hw.hal.params 0x0100).toNat * 1000000
  .when (s.bit Reg.HAL.HAL_STATUS 3 && decide (s.hw.hal.frame + 3 * p ≤ s.now)) <| .all
    [.modReg Reg.HAL.HAL_STATUS fun w => setBits (setBits w 3 3 0) 2 0 hHALTED, .hal fun h => { h with shown := false }, halRaise 8]

/-- FIRMWARE_CHECK (R547, R548). -/
def firmwareCheckAct (crc : Word) : Act := .get fun s => .when (s.hw.hal.state != hSTART) (.seq (halCheck crc) halTell)

/-- ISLAND_START (R547, R558, R562): the start checks end. -/
def islandStartAct (crc : Word) (auditOk convOk : Bool) : Act := .get fun s => .when (s.hw.hal.state == hSTART) <| .all
  [.hal fun h => { h with state := hRUN, idOk := true, window := h.params }, halCheck crc, .when (!auditOk || !convOk) halError,
   .get fun t => .when (t.hw.hal.state == hRUN) (halRaise 4), halTell]

/-- HAL_RST_N (R534, R558): the island starts anew from its flash. -/
def halRstAct : Act := .hal fun h => { h with
  state := hSTART, resSeq := 0, queue := [], lost := false, lostN := 0, gross := 0, stable := false, zero := 0, tare := 0,
  req := none, reply := none, idOk := false, window := [], shown := false }

/-- HAL_POWER_FAIL_WARNING (R559). -/
def halPowerFailAct (low : Bool) : Act := .get fun s => .all
  [.when (low && !s.hw.hal.pfWarn) (halRaise 9), .hal fun h => { h with pfWarn := low }, halTell]

/-- ISLAND_CLOCK_DEVIATION (R562). -/
def islandClockAct : Act := .seq halError halTell

/-- The main side's reset: the page forgets what it held; the island goes on (R534, R543, R564). -/
def halPageReset : Act := .hal fun h => { h with shown := false, spans := [] }

/-! ### The page (R551, R565) -/

def halDrops (s : State) (off : Nat) (v : Word) : Bool :=
  (s.bit Reg.HAL.REQ_STATUS 0 && (off == 0x068 || decide (0x080 ≤ off ∧ off < 0x0A0))) ||
  (off == 0x040 && s.bit Reg.HAL.HAL_CTRL 0 && (v &&& 0x007FFFFE) != (s.rd Reg.HAL.HAL_CTRL &&& 0x007FFFFE))

def halWrite (off : Nat) (v : Word) : Act :=
  if off = 0x068 then reqSendAct v else if off = 0x070 then resPopAct v
  else if off = 0x040 then .when (v.getLsbD 0) (.hal fun h => { h with shown := false })
  else .nil

end Sys2Proof.Machine
end

