-- ==== Sys2Proof/Machine/Time.lean ====
section
/-! DEFINITION. The time-stamp counter, the commons slices and the receipt of units (01_organisation). -/

namespace Sys2Proof.Machine

/-! ### TSC (R53 to R60) -/

/-- Set or clear TSC_STATUS.COARSE; a change raises source 38 (R55, R56, R727). -/
def setCoarse (b : Bool) : Act := .get fun s =>
  .when (s.bit Reg.TSC.TSC_STATUS 0 != b) (.seq (.setFld Reg.TSC.TSC_STATUS 0 0 (b2n b)) (.raise .AON 0 6))

/-- R58: load the TSC when the value is not less than it; otherwise the load-rejected error. -/
def tscLoadAct : Act := .get fun s =>
  let v := s.rd64 Reg.TSC.TSC_SET_LO Reg.TSC.TSC_SET_HI
  if s.now ≤ v then .upd (.tsc (BitVec.ofNat 64 v)) else .cfgErr .TSC 0

/-- The device follows no master, or another one: the correction toward the old one ends (R57), and ALIGNED, which speaks of
the master, goes (R60). -/
def followEnd : Act := .seq (.setFld Reg.TSC.TSC_STATUS 1 1 0)
  (.hw fun h => { h with time := { h.time with alignPpb := 0 }, link := { h.link with within := none } })

/-- No link port is up: the device is standalone (R60, R633). -/
def standAlone : Act := .seq followEnd (.setFld Reg.TSC.TSC_STATUS 3 2 0)

/-- R56, R60: CLR_COARSE acts on a standalone device and is ignored otherwise. -/
def clrCoarseAct : Act := .get fun s =>
  .when (s.fld Reg.TSC.TSC_STATUS 3 2 == 0) (setCoarse false)

/-- A write to TSC_CMD (R60). -/
def tscCmdWrite (v : Word) : Act :=
  .seq (.when (v.getLsbD 0) tscLoadAct) (.when (v.getLsbD 1) clrCoarseAct)

/-- R55: one cycle of the always-on clock in deep sleep. -/
def tscSleepTickAct : Act := .get fun s =>
  .when (s.fld Reg.PWR.PWR_STATUS 2 0 == 3) <|
    let f := s.hw.time.sleepFrac.toNat + 37
    .all [.upd (.tsc (BitVec.ofNat 64 (s.now + 30517 + f / 64))),
          .hw fun h => { h with time := { h.time with sleepFrac := BitVec.ofNat 6 f } },
          .bump Reg.TSC.SLEEP_CYCLES 1]

/-! ### Commons slices (R20 to R22) -/

/-- Words of slice `c` now poisoned, saturating (R21). -/
def State.poisonedIn (s : State) (c : Nat) : Nat :=
  min (s.poison.filter fun e => e.1 / 0x100000 == c).length 65535

/-- Rows of slice `c` redirected to spare rows (R21, R669). -/
def State.cmnRedirects (s : State) (c : Nat) : Nat := (s.hw.darn.rows.filter fun x => x.1 == 36 + c).length

/-- What a CMN page computes (R21). -/
def cmnComputed (s : State) (c off : Nat) : Option Word :=
  let x := s.hw.cmn.getD c {}
  let n := s.cmnRedirects c
  if off = 0x044 then some (BitVec.ofNat 32 ((64 - n) + 256 * (c / 4) + 65536 * s.poisonedIn c))
  else if off = 0x050 then some (BitVec.ofNat 32 x.rd)
  else if off = 0x054 then some (BitVec.ofNat 32 x.wr)
  else if off = 0x058 then some (if x.busy < 4294967296 then BitVec.ofNat 32 x.busy else Config.portBusyPast c x.busy)
  else if off = 0x064 then some (BitVec.ofNat 32 n)
  else none

/-- One slice's counters after a full read of offset `off` (R8). -/
def CmnSt.cleared (off : Nat) (x : CmnSt) : CmnSt :=
  { x with rd := if off = 0x050 then 0 else x.rd,
           wr := if off = 0x054 then 0 else x.wr,
           busy := if off = 0x058 then 0 else x.busy }

/-- A full read of a counter of slice `c` clears it (R8, R21). -/
def cmnReadClear (c off : Nat) : Act := .hw fun h => { h with cmn := updAt (CmnSt.cleared off) c h.cmn }

/-- R20, R22: what an ECC outcome does to slice `c` at word `w` of it. The list of correction times starts again once
source 289 + 2c has been raised (DESIGN CHOICE, log entry 71). -/
def cmnEcc (c w : Nat) (e : EccError) : Act := .get fun s =>
  .seq (.when (e != .none) (.event (.rowErr (36 + c) (w / 128) (e == .uncorr)))) <| match e with
  | .none => .nil
  | .corr =>
    let st := (s.hw.cmn.getD c {})
    let ts := (s.now :: st.corrTimes).take 256
    let full := ts.length == 256 && decide (s.now < ts.getLastD 0 + 1000000000)
    .all [.satFld (Reg.CMN.ECC_CNT c) 15 0 1,
          .hw fun h => { h with cmn := updAt (fun x => { x with corrTimes := if full then [] else ts }) c h.cmn },
          .when full (.raise .CMN c 1)]
  | .uncorr =>
    .all [.satFld (Reg.CMN.ECC_CNT c) 31 16 1,
          .wrN (Reg.CMN.ECC_ADDR c) (2147483648 + w % 1048576),
          .raise .CMN c 0,
          .upd (.poison (c * 0x100000 + w))]

/-- R21: an injection waiting in slice `c` decides what the next read finds; INJ_2 wins over INJ_1. -/
def State.cmnInjected (s : State) (c : Nat) (e : EccError) : EccError :=
  if s.bit (Reg.CMN.INJECT c) 1 then .uncorr else if s.bit (Reg.CMN.INJECT c) 0 then .corr else e

/-- A read of word `w` of slice `c` that finds `e` (R20, R21). -/
def cmnRead (c w : Nat) (e : EccError) : Act := .get fun s =>
  .seq (cmnEcc c w (s.cmnInjected c e)) (.wr (Reg.CMN.INJECT c) 0)

/-! ### Memory controllers (R611, R616 to R618) -/

def Act.memc (m : Nat) (f : MemcSt → MemcSt) : Act := .hw fun h => { h with memc := updAt f m h.memc }

/-- MEMC_STATUS.STATE: an active controller's channels may be in power-down. -/
def State.memcState (s : State) (m : Nat) : Nat :=
  let st := s.fld (Reg.MEMC.MEMC_STATUS m) 3 1
  if st = 1 ∧ (s.hw.memc.getD m {}).down then 2 else st

/-- Corrected errors of row `row` of memory `mem` within a day. -/
def State.rowCount (s : State) (mem row : Nat) : Nat :=
  (s.hw.darn.rowErrs.filter fun x => x.1 == mem && x.2.1 == row && decide (s.now < x.2.2 + 86400000000000)).length

/-- R616: a beat read from byte `a` of controller `m` is found with `e`. -/
def memcEcc (m a : Nat) (e : EccError) : Act := .get fun s =>
  let row := a / 1024
  match e with
  | .none => .nil
  | .corr => .all
      [.satFld (Reg.MEMC.ECC_CNT m) 15 0 1, .event (.rowErr (53 + m) row false),
       .when (s.rowCount (53 + m) row + 1 == max 1 (s.fld Reg.DARN.ROW_THRESH 7 0)) (.raise .MEMC m 1)]
  | .uncorr => .all
      [.satFld (Reg.MEMC.ECC_CNT m) 31 16 1,
       .wr64 (Reg.MEMC.ERR_ADDR_LO m) (Reg.MEMC.ERR_ADDR_HI m) (dramAddr m a / 8 * 8), .raise .MEMC m 0,
       .upd (.poison (dramAddr m a / 8)), .event (.rowErr (53 + m) row true)]

/-- R616, R617: the next read of controller `m` meets what waits to be injected, which wins over `e`. -/
def memcRead (m a : Nat) (e : EccError) : Act := .get fun s =>
  let inj := s.rd (Reg.MEMC.INJECT m)
  .seq (memcEcc m a (if inj.getLsbD 1 then .uncorr else if inj.getLsbD 0 then .corr else e)) (.wr (Reg.MEMC.INJECT m) 0)

/-- What a MEMC page computes (R617). -/
def memcComputed (s : State) (m off : Nat) : Option Word :=
  let x := s.hw.memc.getD m {}
  if off = 0x044 then some (setBits (s.rd (Reg.MEMC.MEMC_STATUS m)) 3 1 (s.memcState m))
  else if off = 0x054 then some (BitVec.ofNat 32 x.rd)
  else if off = 0x058 then some (BitVec.ofNat 32 x.wr)
  else none

/-- A full read of RD_BYTES or WR_BYTES clears it (R8). -/
def memcReadClear (m off : Nat) : Act := .memc m fun x =>
  { x with rd := if off = 0x054 then 0 else x.rd, wr := if off = 0x058 then 0 else x.wr }

/-! ### Reads of memory -/

/-- What the code finds in the words of memory a command reads: word (device address ÷ 8) and outcome; a word not listed is
sound. -/
abbrev Eccs := List (BitVec 45 × EccError)

/-- The outcome listed for a word. -/
def eccAt (l : Eccs) (w : Nat) : EccError := ((l.find? fun x => x.1.toNat == w).map (·.2)).getD .none

/-- What the code finds, of the words listed, in the words from `lo` on below `hi` (device address ÷ 8). -/
def foundIn (l : Eccs) (lo hi : Nat) : Eccs := l.filter fun x => decide (lo ≤ x.1.toNat ∧ x.1.toNat < hi)

/-- R20, R616: the words found in error act on their slices and controllers. -/
def eccFound (l : Eccs) : Act := .each l fun x =>
  let a := 8 * x.1.toNat
  if a < commonsSize then cmnEcc (x.1.toNat / 0x100000) (x.1.toNat % 0x100000) x.2
  else .when (isDram a) (memcEcc ((a - 0x1000000000) / 0x200000000) ((a - 0x1000000000) % 0x200000000) x.2)

/-- R20, R21, R616: `n` bytes at `a` are read from the commons or from LPDDR5X: each slice or controller touched serves the access,
what waits to be injected in it is found in the first word it reads, and each other word is found as listed. -/
def commonsRead (l : Eccs) (a n : Nat) : Act := .all [ringMove false a n,
  .each (slicesOf a n) fun c =>
    let lo := max a (c * 0x800000) / 8
    let hi := (min (a + n) ((c + 1) * 0x800000) + 7) / 8
    .seq (cmnRead c (lo % 0x100000) (eccAt l lo)) (eccFound (foundIn l (lo + 1) hi)),
  .each (memcsOf a n) fun m =>
    let lo := max a (dramAddr m 0)
    let hi := (min (a + n) (dramAddr (m + 1) 0) + 7) / 8
    .seq (memcRead m (lo - dramAddr m 0) (eccAt l (lo / 8))) (eccFound (foundIn l (lo / 8 + 1) hi))]

/-- R20: the scrub reads a word while SCRUB_EN is 1. -/
def commonsScrubAct (c w : Nat) (e : EccError) : Act := .get fun s =>
  .when (s.bit (Reg.CMN.CMN_CTRL c) 0) (cmnRead c w e)

/-! ### Receipt of units (R43 to R47) -/

/-- Class of the stream a unit belongs to: its record's (R404), found through the import entry for a remote stream
(R405, R638). -/
def State.localStream (s : State) (stream : BitVec 12) : Option Nat :=
  if stream.toNat / 512 = s.devNum then some (stream.toNat % 512)
  else (s.hw.imports.find? fun w => w.getLsbD 31 && bits w 11 0 == stream.toNat).map fun w => bits w 24 16

/-- The class with which a unit's stream was opened. Of a stream with neither record nor import entry it is not known here:
the unit's own is taken, so that R44's class condition does not hold (DESIGN CHOICE, log entry 11). -/
def State.streamCls (s : State) (u : DUnit) : Nat := match s.localStream u.stream with
  | some n => (s.streamRec n).cls
  | none => u.cls.toNat

/-- UNIT_RECEIVE: the block of the page receives the unit; what it accepts waits in the block (R47). -/
def unitReceiveAct (slot : Nat) (u : DUnit) : Act := .get fun s =>
  match pageAt slot with
  | none => .nil
  | some (b, i) =>
    .receive b i u (s.streamCls u) fun l => .seq (.hw fun h => { h with inbox := h.inbox ++ l.map fun x => (slot, x) })
      (match s.localStream u.stream with
       | some n => .each l fun v => .event (.seen n v)
       | none => .nil)

end Sys2Proof.Machine
end

