-- ==== Sys2Proof/Machine/Func.lean ====
section
/-! DEFINITION. Functions and the interrupt gatherer (11_functions_interrupts_resets). -/

namespace Sys2Proof.Machine

/-! ### Functions -/

/-- PCIe state of function `f`. -/
def State.fn (s : State) (f : Nat) : FnSt := s.hw.gath.fns.getD f {}

/-- Change PCIe state of function `f`. -/
def Act.fn (f : Nat) (g : FnSt → FnSt) : Act := .gath fun x => { x with fns := updAt g f x.fns }

/-- R454: is function `f` enabled? The PF always is. -/
def State.fnEnabled (s : State) (f : Nat) : Bool :=
  f == 0 || (s.rd Reg.HOST.VF_ENABLED).getLsbD f

/-! ### Source inputs (R463, R464) -/

/-- Is the notice source of function `f` active (R464)? -/
def State.noticeActive (s : State) (f : Nat) : Bool :=
  decide (s.fld (Reg.FUNC.NOTICE f) 5 0 &&& s.fld (Reg.FUNC.NOTICE_CFG f) 13 8 ≠ 0)

/-- Is source `n` active? Source 0 follows the filtered PWR_FAIL_N, sources 64 to 95 the notices, the others their
page's IRQ_PEND and IRQ_MASK. -/
def State.srcActive (s : State) (n : Nat) : Bool :=
  if n = 0 then s.hw.boot.pfLow
  else if 64 ≤ n ∧ n < 96 then s.noticeActive (n - 64)
  else match srcPage n with
    | some (b, i, k) => (s.rd (Reg.HDR.IRQ_PEND b i)).getLsbD k && !(s.rd (Reg.HDR.IRQ_MASK b i)).getLsbD k
    | none => false

/-- R475: events undelivered on channel `v` of function `f`, and the TSC of the oldest. -/
def State.chan (s : State) (f v : Nat) : Nat × Nat :=
  match s.hw.gath.chans.find? fun e => e.1 == 64 * f + v with
  | some e => e.2
  | none => (0, 0)

/-- R475: is completion channel `v` of function `f` pending? -/
def State.chanPending (s : State) (f v : Nat) : Bool :=
  let n := (s.chan f v).1
  decide (0 < n) && (decide (max 1 (s.fld (Reg.FUNC.MOD_CFG f v) 7 0) ≤ n) || s.hw.gath.expired.contains (64 * f + v))

/-- R465, R466: is source `n` pending (for 64 to 95: its notice)? -/
def State.srcPending (s : State) (n : Nat) : Bool :=
  (if s.levelSrc n then s.srcActive n else inSet s.hw.gath.edge n) || inSet s.hw.gath.soft n

/-- Mask bit of source `n` in SRC_MASK (R466). -/
def State.srcMasked (s : State) (n : Nat) : Bool := (s.rd (Reg.GATH.SRC_MASK (n / 256) (n % 256 / 32))).getLsbD (n % 32)

/-- Mask bit of completion channel `v` (R483). -/
def State.vecMasked (s : State) (f v : Nat) : Bool :=
  if v < 32 then (s.rd (Reg.FUNC.VEC_MASK_LO f)).getLsbD v else (s.rd (Reg.FUNC.VEC_MASK_HI f)).getLsbD (v - 32)

/-- Is source `n` being served? -/
def State.srcInService (s : State) (n : Nat) : Bool := s.hw.gath.insvc.any fun e => e.2.2 == n

/-- Is target (f, v) being served? -/
def State.vecInService (s : State) (f v : Nat) : Bool := s.hw.gath.insvc.any fun e => e.1 == f && e.2.1 == v

/-- Change a register that feeds the notice source of function `f`; a rising edge is latched (R464, R465). -/
def Act.noticeReg (f : Nat) (r : RegRef) (v : Word) : Act := .get fun s =>
  let before := s.noticeActive f
  .seq (.wr r v) (.get fun t => .when (!before && t.noticeActive f) (.latch [64 + f]))

/-- Set NOTICE bit `k` of function `f` (R484). -/
def Act.notice (f k : Nat) : Act := .get fun s =>
  .noticeReg f (Reg.FUNC.NOTICE f) (putBit (s.rd (Reg.FUNC.NOTICE f)) k true)

/-- R464, R475: a completion entry written with IRQ 1 adds one event to channel `v` of function `f`. -/
def Act.completionEvent (f v : Nat) : Act := .get fun s =>
  let c := s.chan f v
  let e := (64 * f + v, c.1 + 1, if c.1 = 0 then s.now else c.2)
  .gath fun g => { g with chans := (g.chans.filter fun x => x.1 != 64 * f + v) ++ [e] }

/-- Each delivery empties the channel and stops its timer (R475). -/
def Act.emptyChan (f v : Nat) : Act :=
  .gath fun g => { g with chans := g.chans.filter fun x => x.1 != 64 * f + v,
                          expired := g.expired.filter (· != 64 * f + v) }

/-! ### Sending messages (R472, R477) -/

/-- MSI-X table entry of a vector; bit 96 is its Vector Control mask, set at reset. -/
def State.msixEntry (s : State) (f v : Nat) : BitVec 128 :=
  alGet (BitVec.ofNat 128 (2 ^ 96)) (64 * f + v) s.hw.gath.msix

/-- R472: does PCIe allow vector `v` of function `f` now? -/
def State.vecAllowed (s : State) (f v : Nat) : Bool :=
  (s.fn f).msixEn && !(s.fn f).fMask && !(s.msixEntry f v).getLsbD 96

/-- Hold a message and set its pending bit. -/
def Act.hold (f v : Nat) : Act :=
  .gath fun g => { g with heldMsg := g.heldMsg.filter (· != (f, v)) ++ [(f, v)],
                          pba := putBit g.pba (64 * f + v) true }

/-- The MSI-X message goes out (R468). -/
def Act.message (f v : Nat) : Act :=
  .all [.gath fun g => { g with heldMsg := g.heldMsg.filter (· != (f, v)), pba := putBit g.pba (64 * f + v) false },
        .out (.msix f v), .bump (Reg.FUNC.DELIV_CNT f) 1]

/-- LTSSM codes of HOST.LINK_STATUS (R702). -/
abbrev ltssmL0 : Nat := 3
abbrev ltssmL1 : Nat := 5
abbrev ltssmL2 : Nat := 6

/-- The link's state. -/
def State.ltssm (s : State) : Nat := s.fld Reg.HOST.LINK_STATUS 15 12

/-- R477, R472: send the message of a target, or hold it, as link and function state require. -/
def Act.send (f v : Nat) : Act := .get fun s =>
  let x := s.fn f
  let inD3 := x.dState == 3
  if inD3 || s.ltssm == ltssmL2 then
    if x.pmeEn then
      .seq (.hold f v) <|
        if s.ltssm == ltssmL2 then
          .when (!s.hw.gath.wakeN) (.seq (.gath fun g => { g with wakeN := true }) (.out (.pin "WAKE_N" false)))
        else .seq (.out (.pmPme f)) (.fn f fun x => { x with pmeStatus := true })
    else .all [.hold f v, .bump (Reg.FUNC.HELD_CNT f) 1, .notice f 5]
  else
    .seq (.when (s.ltssm == ltssmL1) (.setFld Reg.HOST.LINK_STATUS 15 12 ltssmL0)) <|
      if s.vecAllowed f v then .message f v else .hold f v

/-- R477: the message goes out, a link in L1 returned to L0 before it. -/
def sendInD0 (f v : Nat) : Act := .get fun s =>
  .seq (.when (s.ltssm == ltssmL1) (.setFld Reg.HOST.LINK_STATUS 15 12 ltssmL0)) (.message f v)

/-- R477: is a held message free to go? The function in D0 with MSI-X enabled, the vector allowed, the link in L0 or in L1,
from which it returns. -/
def State.mayRelease (s : State) (f v : Nat) : Bool :=
  (s.fn f).dState == 0 && s.vecAllowed f v && (s.ltssm == ltssmL0 || s.ltssm == ltssmL1)

/-- HELD_MESSAGE_RELEASE (R472, R477). -/
def heldMessageReleaseAct (f v : Nat) : Act := .get fun s =>
  .when (s.hw.gath.heldMsg.contains (f, v) && s.mayRelease f v) (sendInD0 f v)

/-- LINK_REACHES_L0 (R477): WAKE_N is released; each function that waits sends PM_PME. -/
def linkReachesL0Act : Act := .get fun s =>
  .all [.setFld Reg.HOST.LINK_STATUS 15 12 ltssmL0,
        .when s.hw.gath.wakeN <| .all
          [.gath fun g => { g with wakeN := false }, .out (.pin "WAKE_N" true),
           .each ((List.range 32).filter fun f => (s.fn f).pmeEn && s.hw.gath.heldMsg.any fun m => m.1 == f) fun f =>
             .seq (.out (.pmPme f)) (.fn f fun x => { x with pmeStatus := true })]]

/-! ### Selection (R468 to R474) -/

/-- Deliver source `n` to target (f, v): in service with that source, latches cleared, counted (R465, R466, R468). -/
def deliver (f v n : Nat) (isChan : Bool) : Act :=
  .all [.gath fun g => { g with insvc := g.insvc ++ [(f, v, n)],
                                edge := if isChan then g.edge else putBit g.edge n false,
                                soft := if isChan then g.soft else putBit g.soft n false,
                                lastG := (g.lastG.filter fun e => e.1 != f) ++ [(f, n / 256)] },
        .when isChan (.emptyChan f v),
        .setFld (Reg.GATH.GATH_STATUS (n / 256)) 25 16 n,
        .bump (Reg.GATH.GDELIV_CNT (n / 256)) 1,
        .send f v]

/-- R473: the storm window opened last for source `n`: its opening and the deliveries in it. -/
def State.storm (s : State) (n : Nat) : Option (Nat × Nat) :=
  (s.hw.gath.storms.find? fun e => e.1 == n).map (·.2)

/-- R473: the storm window of source `n` while it is open: WINDOW µs from its opening. -/
def State.stormOpen (s : State) (n : Nat) : Option (Nat × Nat) :=
  (s.storm n).filter fun w => decide (s.now < w.1 + s.fld (Reg.GATH.STORM_CFG (n / 256)) 31 16 * 1000)

/-- R473: would the delivery of source `n` exceed its window's count? -/
def State.stormTrips (s : State) (n : Nat) : Bool :=
  s.levelSrc n && s.bit (srcCfg n) 12 &&
  match s.stormOpen n with
  | some (_, k) => decide (s.fld (Reg.GATH.STORM_CFG (n / 256)) 15 0 ≤ k)
  | none => false

/-- R473: a delivery counts in the open window or opens one. -/
def stormCount (n : Nat) : Act := .get fun s =>
  .when (s.levelSrc n && s.bit (srcCfg n) 12) <|
    let e := match s.stormOpen n with
      | some (t, k) => (n, t, k + 1)
      | none => (n, s.now, 1)
    .gath fun g => { g with storms := (g.storms.filter fun x => x.1 != n) ++ [e] }

/-- R473: a storm trip masks the source and tells the PF and the target function. -/
def stormTrip (f n : Nat) : Act :=
  let g := n / 256
  let w := n % 256 / 32
  .all [.orReg (Reg.GATH.SRC_MASK g w) (BitVec.ofNat 32 (2 ^ (n % 32))),
        .orReg (Reg.GATH.SRC_STORM g w) (BitVec.ofNat 32 (2 ^ (n % 32))),
        .wrN (Reg.GATH.STORM_LAST g) n, .bump (Reg.GATH.STORM_CNT g) 1,
        .notice 0 0, .when (f != 0) (.notice f 0)]

/-- Function and vector a source of the gatherer is aimed at; sources 64 to 95 by their notice (R464, R486). -/
def State.target (s : State) (n : Nat) : Nat × Nat :=
  if 64 ≤ n ∧ n < 96 then (n - 64, s.fld (Reg.FUNC.NOTICE_CFG (n - 64)) 5 0)
  else (s.fld (srcCfg n) 4 0, s.fld (srcCfg n) 10 5)

/-- May source `n` be selected: pending, unmasked, its gatherer enabled (R466, R468, R485)? -/
def State.selectable (s : State) (n : Nat) : Bool :=
  s.bit (Reg.GATH.GATH_CTRL (n / 256)) 0 && !s.srcMasked n && s.srcPending n

/-- GATHERER_SELECT (R468): for an idle target, the lowest pending unmasked source aimed at it; a completion channel
before a notice of the same function. A disabled function gets nothing (R454). -/
def gathererSelectAct (f v : Nat) : Act := .get fun s =>
  let n? := (List.range 1024).find? fun n => s.selectable n && s.target n == (f, v)
  let chanOk := s.chanPending f v && !s.vecMasked f v && !s.srcMasked (64 + f) && s.bit (Reg.GATH.GATH_CTRL 0) 0
  .when (!s.vecInService f v && s.fnEnabled f) <|
    match n? with
    | some n =>
      if chanOk && decide (64 + f ≤ n) then deliver f v (64 + f) true
      else if s.stormTrips n then stormTrip f n
      else .seq (stormCount n) (deliver f v n false)
    | none => .when chanOk (deliver f v (64 + f) true)

/-- R469: a write to IRQ_EOI ends service of the vector. For a vector not in service the write is dropped and logged by
the host interface; here it is counted. -/
def eoiAct (f v : Nat) : Act := .get fun s =>
  if s.vecInService f v then
    .gath fun g => { g with insvc := g.insvc.filter fun e => !(e.1 == f && e.2.1 == v) }
  else .bump (Reg.GATH.EOI_ERR (alGet 0 f s.hw.gath.lastG)) 1

/-- STORM_WINDOW_EXPIRY (R473): the window closes once its time has passed. -/
def stormWindowExpiryAct (n : Nat) : Act := .get fun s =>
  match s.storm n with
  | some (t, _) =>
    .when (decide (t + s.fld (Reg.GATH.STORM_CFG (n / 256)) 31 16 * 1000 ≤ s.now))
      (.gath fun g => { g with storms := g.storms.filter fun x => x.1 != n })
  | none => .nil

/-- MODERATION_TIMER_EXPIRY (R475). -/
def moderationTimerExpiryAct (f v : Nat) : Act := .get fun s =>
  let time := s.fld (Reg.FUNC.MOD_CFG f v) 23 8
  let c := s.chan f v
  .when (decide (0 < time) && decide (0 < c.1) && decide (c.2 + time * 1000 ≤ s.now) &&
      !s.hw.gath.expired.contains (64 * f + v))
    (.gath fun g => { g with expired := g.expired ++ [64 * f + v] })

/-! ### Register writes of FUNC and GATH pages -/

/-- A word of set bits at word `w` of gatherer `g`, placed among the 1,024 sources. -/
def srcWord (g w : Nat) (v : Word) : BitVec 1024 := (v.setWidth 1024) <<< (256 * g + 32 * w)

/-- A word of 1,024 bits, word `w` of gatherer `g`. -/
def wordOf (x : BitVec 1024) (g w : Nat) : Word := (x >>> (256 * g + 32 * w)).setWidth 32

/-- R466: SRC_PEND_SET. -/
def srcPendSetAct (g w : Nat) (v : Word) : Act := .gath fun x => { x with soft := x.soft ||| srcWord g w v }
/-- R466: SRC_PEND_CLR clears the edge latch and the software pending bit. -/
def srcPendClrAct (g w : Nat) (v : Word) : Act :=
  .gath fun x => { x with soft := x.soft &&& ~~~ (srcWord g w v), edge := x.edge &&& ~~~ (srcWord g w v) }
/-- R466: SRC_MASK_SET. -/
def srcMaskSetAct (g w : Nat) (v : Word) : Act := .orReg (Reg.GATH.SRC_MASK g w) v
/-- R466: SRC_MASK_CLR. -/
def srcMaskClrAct (g w : Nat) (v : Word) : Act := .modReg (Reg.GATH.SRC_MASK g w) fun m => m &&& ~~~ v

/-- VEC_MASK registers (R483): `hi` picks channels 32 to 63. -/
def vecMaskReg (f : Nat) (hi : Bool) : RegRef := if hi then Reg.FUNC.VEC_MASK_HI f else Reg.FUNC.VEC_MASK_LO f
def vecMaskSetAct (f : Nat) (hi : Bool) (v : Word) : Act := .orReg (vecMaskReg f hi) v
def vecMaskClrAct (f : Nat) (hi : Bool) (v : Word) : Act := .modReg (vecMaskReg f hi) fun m => m &&& ~~~ v

/-- R467, R486: SRC_CFG as written; for sources 64 to 95 FUNC keeps the function the source belongs to. -/
def srcCfgWriteAct (g i : Nat) (v : Word) : Act :=
  if g = 0 ∧ 64 ≤ i ∧ i < 96 then .wr (Reg.GATH.SRC_CFG g i) (setBits v 4 0 (i - 64)) else .wr (Reg.GATH.SRC_CFG g i) v

/-- R467: is the write of SRC_CFG refused? -/
def State.srcCfgLocked (s : State) (g i : Nat) : Bool := !s.srcMasked (256 * g + i) || s.srcInService (256 * g + i)

/-- R455: MBOX_CMD written by function `w` on page FUNC[g]. The host interface drops SEND while the message is full. -/
def mboxCmdAct (w g : Nat) (v : Word) : Act := .get fun s =>
  let full := if w = 0 then s.bit (Reg.FUNC.MBOX_STATUS g) 1 else s.bit (Reg.FUNC.MBOX_STATUS g) 0
  let inFull := if w = 0 then s.bit (Reg.FUNC.MBOX_STATUS g) 0 else s.bit (Reg.FUNC.MBOX_STATUS g) 1
  .seq (.when (v.getLsbD 0 && !full) <|
          if w = 0 then .seq (.setFld (Reg.FUNC.MBOX_STATUS g) 1 1 1) (.notice g 2)
          else .seq (.setFld (Reg.FUNC.MBOX_STATUS g) 0 0 1) (.notice 0 2))
       (.when (v.getLsbD 1 && inFull) <|
          if w = 0 then .seq (.setFld (Reg.FUNC.MBOX_STATUS g) 0 0 0) (.notice g 3)
          else .seq (.setFld (Reg.FUNC.MBOX_STATUS g) 1 1 0) (.notice 0 3))

/-- Blocks rules that drop a write to page FUNC[g] at `off` by function `w` (R455, R456, R469, R483). -/
def funcDrops (s : State) (w g off : Nat) (v : Word) : Bool :=
  let mbox := decide (0x080 ≤ off ∧ off < 0x084) || decide (0x0C0 ≤ off ∧ off < 0x100)
  if g = 0 ∧ mbox then true
  else if off = 0x044 then bits v 15 0 == 0
  else if off = 0x054 then !s.vecInService g (bits v 5 0)
  else if off = 0x080 then
    v.getLsbD 0 && (if w = 0 then s.bit (Reg.FUNC.MBOX_STATUS g) 1 else s.bit (Reg.FUNC.MBOX_STATUS g) 0)
  else if 0x0C0 ≤ off ∧ off < 0x0E0 then w == 0 || s.bit (Reg.FUNC.MBOX_STATUS g) 0
  else if 0x0E0 ≤ off ∧ off < 0x100 then w != 0 || s.bit (Reg.FUNC.MBOX_STATUS g) 1
  else false

/-- What an accepted write to page FUNC[g] does beside storing an RW register. -/
def funcWrite (w g off : Nat) (old v : Word) : Act :=
  if off = 0x04C then .noticeReg g (Reg.FUNC.NOTICE g) (old &&& ~~~ v)
  else if off = 0x050 then .seq (.wr (Reg.FUNC.NOTICE_CFG g) old) (.noticeReg g (Reg.FUNC.NOTICE_CFG g) v)
  else if off = 0x054 then eoiAct g (bits v 5 0)
  else if off = 0x070 then vecMaskSetAct g false v
  else if off = 0x074 then vecMaskSetAct g true v
  else if off = 0x078 then vecMaskClrAct g false v
  else if off = 0x07C then vecMaskClrAct g true v
  else if off = 0x080 then mboxCmdAct w g v
  else .nil

/-- What an accepted write to page GATH[g] does beside storing an RW register. -/
def gathWrite (g off : Nat) (v : Word) : Act :=
  if 0x0A0 ≤ off ∧ off < 0x0C0 then srcPendSetAct g ((off - 0x0A0) / 4) v
  else if 0x0C0 ≤ off ∧ off < 0x0E0 then srcPendClrAct g ((off - 0x0C0) / 4) v
  else if 0x100 ≤ off ∧ off < 0x120 then srcMaskSetAct g ((off - 0x100) / 4) v
  else if 0x120 ≤ off ∧ off < 0x140 then srcMaskClrAct g ((off - 0x120) / 4) v
  else if 0x400 ≤ off ∧ off < 0x800 then srcCfgWriteAct g ((off - 0x400) / 4) v
  else .nil

/-- Registers of GATH and FUNC pages whose value is computed (R485, R483). -/
def gathComputed (s : State) (g off : Nat) : Option Word :=
  let word (p : Nat → Bool) (base : Nat) : Word :=
    (List.range 32).foldl (fun w b => putBit w b (p (256 * g + 32 * ((off - base) / 4) + b))) 0
  if off = 0x044 then
    some (setBits (s.rd (Reg.GATH.GATH_STATUS g)) 8 0
      (s.hw.gath.insvc.filter fun e => e.2.2 / 256 == g).length)
  else if 0x080 ≤ off ∧ off < 0x0A0 then
    some (word (fun n => s.srcPending n ||
      (decide (64 ≤ n ∧ n < 96) && (List.range 64).any fun v => s.chanPending (n - 64) v)) 0x080)
  else if 0x140 ≤ off ∧ off < 0x160 then some (word s.srcInService 0x140)
  else if 0x180 ≤ off ∧ off < 0x1A0 then some (word s.srcActive 0x180)
  else if g = 0 ∧ 0x500 ≤ off ∧ off < 0x580 then
    some (setBits (s.rd ⟨.GATH, 0, off⟩) 4 0 ((off - 0x500) / 4))
  else none

def funcComputed (s : State) (f off : Nat) : Option Word :=
  let x := s.fn f
  let word (p : Nat → Bool) (base : Nat) : Word := (List.range 32).foldl (fun w b => putBit w b (p (base + b))) 0
  if off = 0x040 then
    some (BitVec.ofNat 32 (f + 32 * b2n (f != 0) + 64 * b2n (s.fnEnabled f) + 256 * x.dState.toNat + 1024 * b2n x.msixEn))
  else if off = 0x048 then
    let base := (s.rd Reg.DISP.CTX_BASE).toNat
    let mine := (List.range 256).filter fun c => bits (s.byte (base + 64 * c + 1)) 4 0 == f
    let run := mine.filter fun c => bits (s.byte (base + 64 * c)) 2 0 == 2
    some (BitVec.ofNat 32 (mine.length + 512 * run.length))
  else if off = 0x058 then some (word (fun v => s.chanPending f v) 0)
  else if off = 0x05C then some (word (fun v => s.chanPending f v) 32)
  else if off = 0x060 then some (word (fun v => s.vecInService f v) 0)
  else if off = 0x064 then some (word (fun v => s.vecInService f v) 32)
  else if f = 0 ∧ (0x080 ≤ off ∧ off < 0x088 ∨ 0x0C0 ≤ off ∧ off < 0x100) then some 0
  else none

/-! ### PCIe configuration (R676, R677) -/

/-- R482: a VF disabled while its messages are held: messages discarded, state cleared as under R458. -/
def clearTargets (f : Nat) : Act :=
  .gath fun g => { g with insvc := g.insvc.filter fun e => e.1 != f,
                          chans := g.chans.filter fun e => e.1 / 64 != f,
                          expired := g.expired.filter fun e => e / 64 != f,
                          heldMsg := g.heldMsg.filter fun e => e.1 != f }

/-- R677: VF Enable set with NumVFs and ARI Capable Hierarchy. -/
def vfEnableAct (numVfs : Nat) (ari : Bool) : Act :=
  let limit := !ari && decide (7 < numVfs)
  let n := if limit then 7 else min numVfs 31
  .seq (.wrN Reg.HOST.SRIOV_STATUS (1 + 2 * min numVfs 31 + 64 * b2n ari + 128 * b2n limit))
       (.wrN Reg.HOST.VF_ENABLED ((2 ^ n - 1) * 2))

/-- MSI-X control, power state and PME bits of function `f`. -/
def pcieConfigAct (f : Nat) (w : ConfigWrite) : Act := .get fun s =>
  match w with
  | .vfEnable n ari => .when (f == 0) (vfEnableAct n.toNat ari)
  | .dState d => .fn f fun x => { x with dState := if d = 3 then 3 else if d = 0 then 0 else x.dState }
  | .msixControl en mask => .fn f fun x => { x with msixEn := en, fMask := mask }
  | .pme en clear => .fn f fun x => { x with pmeEn := en, pmeStatus := if clear then false else x.pmeStatus }
  | .vectorControl v m =>
    .gath fun g => { g with msix := alPut (BitVec.ofNat 128 (2 ^ 96)) (64 * f + v.toNat)
                                      (putBit (s.msixEntry f v.toNat) 96 m) g.msix }

end Sys2Proof.Machine
end

