-- ==== Sys2Proof/Machine/Fp.lean ====
section
/-! DEFINITION. Binary floating-point values kept exactly, their rounding, and the element formats of R166 to R170. -/

namespace Sys2Proof.Machine

/-! ### Exact binary values -/

/-- The finite value (−1)^neg × m × 2^e, zero with its sign. -/
structure Dy where
  neg : Bool := false
  m   : Nat := 0
  e   : Int := 0
  deriving DecidableEq, Repr

/-- The value of an integer. -/
def Dy.ofInt (i : Int) : Dy := ⟨decide (i < 0), i.natAbs, 0⟩

/-- The power of two. -/
def Dy.pow2 (k : Int) : Dy := ⟨false, 1, k⟩

/-- The signed numerator of a value over 2^k, for k at most its exponent. -/
def Dy.num (a : Dy) (k : Int) : Int :=
  let n : Int := (a.m * 2 ^ (a.e - k).toNat : Nat)
  if a.neg then -n else n

/-- Exact sum; a zero sum is negative only when both terms are (IEEE 754). -/
def Dy.add (a b : Dy) : Dy :=
  let k := min a.e b.e
  let n := a.num k + b.num k
  if n = 0 then ⟨a.neg && b.neg, 0, 0⟩ else ⟨decide (n < 0), n.natAbs, k⟩

/-- Exact product. -/
def Dy.mul (a b : Dy) : Dy := ⟨a.neg != b.neg, a.m * b.m, a.e + b.e⟩

/-- The value with its sign changed. -/
def Dy.negate (a : Dy) : Dy := { a with neg := !a.neg }

/-- The magnitude. -/
def Dy.abs (a : Dy) : Dy := { a with neg := false }

/-- Is `a` less than `b`? -/
def Dy.lt (a b : Dy) : Bool :=
  let k := min a.e b.e
  decide (a.num k < b.num k)

/-- `m ÷ 2^s` rounded to nearest, ties to even. -/
def rneShift (m s : Nat) : Nat :=
  let q := m >>> s
  let r := m % 2 ^ s
  if s = 0 then m
  else if 2 * r < 2 ^ s then q
  else if 2 ^ s < 2 * r then q + 1
  else if q % 2 = 0 then q else q + 1

/-- A value rounded to `p` significant bits with no bit below 2^emin, ties to even. -/
def Dy.round (p : Nat) (emin : Int) (a : Dy) : Dy :=
  if a.m = 0 then ⟨a.neg, 0, 0⟩
  else
    let lsb := max (a.e + (Nat.log2 a.m + 1 : Nat) - (p : Nat)) emin
    if lsb ≤ a.e then a else ⟨a.neg, rneShift a.m (lsb - a.e).toNat, lsb⟩

/-- A value rounded to an integer, ties to even. -/
def Dy.rneInt (a : Dy) : Int := (a.round (Nat.log2 a.m + 2 + a.e.natAbs) 0).num 0

/-- The largest integer not above a value. -/
def Dy.floor (a : Dy) : Int := a.num (min a.e 0) / (2 ^ (-(min a.e 0)).toNat : Nat)

/-- The quotient `a ÷ b` (`b` not zero) as a value that every rounding to at most `p` bits treats as the exact
quotient: `p + 2` bits and a sticky bit. -/
def Dy.div (p : Nat) (a b : Dy) : Dy :=
  if b.m = 0 then ⟨a.neg != b.neg, 0, 0⟩
  else
    let k := p + 3 + Nat.log2 b.m
    let n := a.m * 2 ^ k
    ⟨a.neg != b.neg, 2 * (n / b.m) + (if n % b.m = 0 then 0 else 1), a.e - b.e - k - 1⟩

/-! ### Values with infinities and NaN -/

/-- A value of a format. -/
inductive Val where
  | fin (d : Dy)
  | inf (neg : Bool)
  | nan
  deriving DecidableEq, Repr

/-- A float format: exponent and mantissa field widths, bias, and what its top exponent means: 0 ordinary values, 1
NaN with every mantissa bit set and ordinary otherwise (E4M3), 2 infinity and NaN (IEEE 754). -/
structure FFmt where
  eb   : Nat
  mb   : Nat
  bias : Nat
  top  : Nat
  deriving DecidableEq, Repr

/-- The float formats of R168. -/
abbrev fE4M3 : FFmt := ⟨4, 3, 7, 1⟩
abbrev fE5M2 : FFmt := ⟨5, 2, 15, 2⟩
abbrev fE2M1 : FFmt := ⟨2, 1, 1, 0⟩
abbrev fE2M3 : FFmt := ⟨2, 3, 1, 0⟩
abbrev fE3M2 : FFmt := ⟨3, 2, 3, 0⟩
abbrev fBF16 : FFmt := ⟨8, 7, 127, 2⟩
abbrev fFP16 : FFmt := ⟨5, 10, 15, 2⟩
abbrev fFP32 : FFmt := ⟨8, 23, 127, 2⟩

/-- Exponent of the smallest subnormal. -/
def FFmt.emin (f : FFmt) : Int := 1 - (f.bias : Int) - f.mb

/-- The largest finite value (R168). -/
def FFmt.largest (f : FFmt) : Dy :=
  let topE : Int := (2 ^ f.eb - 1 : Nat) - (f.bias : Int)
  if f.top = 2 then ⟨false, 2 ^ (f.mb + 1) - 1, topE - 1 - f.mb⟩
  else if f.top = 1 then ⟨false, 2 ^ (f.mb + 1) - 2, topE - f.mb⟩
  else ⟨false, 2 ^ (f.mb + 1) - 1, topE - f.mb⟩

/-- Decode a code (R168). -/
def FFmt.decode (f : FFmt) (c : Nat) : Val :=
  let neg := c.testBit (f.eb + f.mb)
  let e := c / 2 ^ f.mb % 2 ^ f.eb
  let m := c % 2 ^ f.mb
  if e = 2 ^ f.eb - 1 ∧ f.top = 2 then (if m = 0 then .inf neg else .nan)
  else if e = 2 ^ f.eb - 1 ∧ f.top = 1 ∧ m = 2 ^ f.mb - 1 then .nan
  else if e = 0 then .fin ⟨neg, m, f.emin⟩
  else .fin ⟨neg, 2 ^ f.mb + m, f.emin + e - 1⟩

/-- Round a value to the format, subnormals kept, range ignored. -/
def FFmt.rnd (f : FFmt) (a : Dy) : Dy := a.round (f.mb + 1) f.emin

/-- Is a rounded value beyond the largest finite one? -/
def FFmt.beyond (f : FFmt) (a : Dy) : Bool := f.largest.lt a.abs

/-- Round and saturate; the flag says that it saturated. -/
def FFmt.sat (f : FFmt) (a : Dy) : Dy × Bool :=
  let r := f.rnd a
  if f.beyond r then ({ f.largest with neg := a.neg }, true) else (r, false)

/-- The code of a value already rounded to the format and within its range. -/
def FFmt.encode (f : FFmt) (a : Dy) : Nat :=
  let s := if a.neg then 2 ^ (f.eb + f.mb) else 0
  if a.m = 0 then s
  else
    let bl := Nat.log2 a.m
    let top : Int := a.e + bl
    if top < 1 - (f.bias : Int) then s + (a.num f.emin).natAbs
    else
      let lsb : Int := top - f.mb
      let m := if lsb ≤ a.e then a.m * 2 ^ (a.e - lsb).toNat else a.m / 2 ^ (lsb - a.e).toNat
      s + (top + f.bias).toNat * 2 ^ f.mb + (m - 2 ^ f.mb)

/-- Code of an infinity (formats of `top` 2). -/
def FFmt.infCode (f : FFmt) (neg : Bool) : Nat :=
  (if neg then 2 ^ (f.eb + f.mb) else 0) + (2 ^ f.eb - 1) * 2 ^ f.mb

/-! ### FP32 arithmetic -/

/-- fl32(): one rounding to FP32, nearest even, saturated as R185 says; the flag says that it saturated. -/
def fl32 (a : Dy) : Dy × Bool := fFP32.sat a

/-- fl32() of a value known not to overflow, or whose clip is not counted. -/
def fl32' (a : Dy) : Dy := (fFP32.sat a).1

/-- Value of an FP32 word. -/
def f32 (n : Nat) : Val := fFP32.decode n

/-- Is an FP32 word a positive finite value? -/
def f32PosFinite (n : Nat) : Bool := match f32 n with
  | .fin d => !d.neg && decide (0 < d.m)
  | _ => false

/-- The finite value of an FP32 word, 0 for an infinity or NaN. -/
def f32Dy (n : Nat) : Dy := match f32 n with
  | .fin d => d
  | _ => {}

/-- IEEE 754 FP32 rounding of the vector unit: infinity beyond the range (R148). -/
def ieee32 (a : Dy) : Val :=
  let r := fFP32.rnd a
  if fFP32.beyond r then .inf a.neg else .fin r

/-- FP32 code of a value. -/
def Val.code32 : Val → Nat
  | .fin d => fFP32.encode d
  | .inf n => fFP32.infCode n
  | .nan => 0x7FC00000

/-- IEEE 754 addition of FP32 values (R148). -/
def Val.add : Val → Val → Val
  | .nan, _ => .nan
  | _, .nan => .nan
  | .inf a, .inf b => if a = b then .inf a else .nan
  | .inf a, _ => .inf a
  | _, .inf b => .inf b
  | .fin a, .fin b => ieee32 (a.add b)

/-- IEEE 754 multiplication of FP32 values (R148). -/
def Val.mul : Val → Val → Val
  | .nan, _ => .nan
  | _, .nan => .nan
  | .inf a, .inf b => .inf (a != b)
  | .inf a, .fin b => if b.m = 0 then .nan else .inf (a != b.neg)
  | .fin a, .inf b => if a.m = 0 then .nan else .inf (a.neg != b)
  | .fin a, .fin b => ieee32 (a.mul b)

/-- Is `a` less than `b`, a NaN ranking below every number? -/
def Val.lt : Val → Val → Bool
  | .nan, .nan => false
  | .nan, _ => true
  | _, .nan => false
  | .inf true, .inf true => false
  | .inf true, _ => true
  | _, .inf true => false
  | .inf false, _ => false
  | _, .inf false => true
  | .fin a, .fin b => a.lt b

/-! ### Elements (R166 to R170) -/

/-- Bits of an element. -/
def fmtWidth (c : Nat) : Nat :=
  if c = 0x01 ∨ c = 0x02 ∨ c = 0x07 then 4
  else if c = 0x08 ∨ c = 0x09 then 6
  else if c = 0x21 then 12
  else if c = 0x10 ∨ c = 0x11 ∨ c = 0x22 then 16
  else if c = 0x12 ∨ c = 0x13 ∨ c = 0x31 then 32
  else 8

/-- MX formats. -/
def fmtMX (c : Nat) : Bool := decide (0x07 ≤ c ∧ c ≤ 0x0A)

/-- Integer range of a format, `none` for the others. -/
def fmtRange (c : Nat) : Option (Int × Int) :=
  if c = 0x01 then some (-8, 7) else if c = 0x02 then some (0, 15)
  else if c = 0x03 then some (-128, 127) else if c = 0x04 ∨ c = 0x20 then some (0, 255)
  else if c = 0x13 then some (-2147483648, 2147483647)
  else if c = 0x21 then some (0, 4095) else if c = 0x22 then some (0, 65535) else none

/-- The float format of a code, for MX codes that of the element; `none` for integers and MXINT8. -/
def fmtFloat (c : Nat) : Option FFmt :=
  if c = 0x05 then some fE4M3 else if c = 0x06 then some fE5M2 else if c = 0x07 then some fE2M1
  else if c = 0x08 then some fE2M3 else if c = 0x09 then some fE3M2 else if c = 0x10 then some fBF16
  else if c = 0x11 then some fFP16 else if c = 0x12 then some fFP32 else none

/-- The value of an element code, the shared scale of an MX block left out (R166, R168, R169). -/
def elemVal (fmt c : Nat) : Val :=
  match fmtFloat fmt with
  | some f => f.decode c
  | none =>
    if fmt = 0x0A then .fin { Dy.ofInt (sgn 8 c) with e := -6 }
    else if fmt = 0x01 then .fin (Dy.ofInt (sgn 4 c))
    else if fmt = 0x03 then .fin (Dy.ofInt (sgn 8 c))
    else if fmt = 0x13 then .fin (Dy.ofInt (sgn 32 c))
    else .fin (Dy.ofInt (c % 2 ^ fmtWidth fmt : Nat))

/-- R167: `n` elements of `w` bits, packed from the start of the bytes. Every packing of R167 and of format 0x21 is the
little-endian one: element i in bits [w·i + w − 1 : w·i]. -/
def unpack (w n : Nat) (l : List Byte) : List Nat :=
  let x := leNat l
  (List.range n).map fun i => (x >>> (w * i)) % 2 ^ w

/-- Bytes `n` elements of `w` bits take, from a byte boundary. -/
def packedBytes (w n : Nat) : Nat := (w * n + 7) / 8

/-- R167: element codes packed into bytes. -/
def pack (w : Nat) (l : List Nat) : List Byte :=
  leBytes (packedBytes w l.length) ((l.zipIdx.map fun (c, i) => (c % 2 ^ w) <<< (w * i)).foldl (· ||| ·) 0)

/-- R170: bytes of a super-block of 256 elements. -/
def mxSuper (fmt : Nat) : Nat := 8 + 32 * fmtWidth fmt

/-- Bytes a row or column of `k` elements takes (R167, R170). -/
def rowBytes (fmt k : Nat) : Nat :=
  if fmtMX fmt then ceilDiv k 256 * mxSuper fmt else packedBytes (fmtWidth fmt) k

/-- Element codes of a row of `k` elements, with the MX scale byte of each element's block (127 for other formats). -/
def rowCodes (fmt k : Nat) (l : List Byte) : List (Nat × Nat) :=
  if fmtMX fmt then
    (List.range (ceilDiv k 256)).flatMap fun sb =>
      let s := l.drop (sb * mxSuper fmt)
      let n := min 256 (k - sb * 256)
      (unpack (fmtWidth fmt) n ((s.drop 8).take (32 * fmtWidth fmt))).zipIdx.map fun (c, i) =>
        (c, ((s.getD (i / 32) 0).toNat))
  else (unpack (fmtWidth fmt) k (l.take (rowBytes fmt k))).map fun c => (c, 127)

/-- R169: a value times its block's scale; scale byte 255 is NaN. -/
def scaled (v : Val) (sc : Nat) : Val :=
  if sc = 255 then .nan else match v with
    | .fin d => .fin { d with e := d.e + sc - 127 }
    | x => x

/-! ### Conversion (R186, R200) -/

/-- The code of an integer in an integer format, saturated; the flag says that it saturated. -/
def intCode (fmt : Nat) (i : Int) : Nat × Bool :=
  match fmtRange fmt with
  | some (lo, hi) =>
    let j := clampInt i lo hi
    (uns (fmtWidth fmt) j, decide (j ≠ i))
  | none => (0, false)

/-- R186: convert the finite y to an array output format with zero point `zp`; the flag counts one clip. -/
def convertOut (fmt : Nat) (zp : Int) (y : Dy) : Nat × Bool :=
  match fmtFloat fmt with
  | some f => let (d, c) := f.sat y; (f.encode d, c)
  | none => intCode fmt (y.rneInt + zp)

/-- R200: convert an FP32 value on the vector unit to a format other than the MX ones. -/
def vecConvert (fmt : Nat) (v : Val) : Nat :=
  match fmtFloat fmt with
  | none => match v with
    | .nan => 0
    | .inf n => match fmtRange fmt with
      | some (lo, hi) => uns (fmtWidth fmt) (if n then lo else hi)
      | none => 0
    | .fin d => (intCode fmt d.rneInt).1
  | some f => match v with
    | .nan => if fmt = 0x05 ∨ fmt = 0x06 then 0x7F else if fmt = 0x10 then 0x7FC0
              else if fmt = 0x11 then 0x7E00 else 0x7FC00000
    | .inf n => if f.top = 2 ∧ fmt ≠ 0x06 then f.infCode n else f.encode { f.largest with neg := n }
    | .fin d =>
      let r := f.rnd d
      if f.beyond r then
        (if f.top = 2 ∧ fmt ≠ 0x06 then f.infCode d.neg else f.encode { f.largest with neg := d.neg })
      else f.encode r

/-- R200: conversion into FP32 is exact except from INT32, which rounds to nearest even. -/
def toF32 (v : Val) : Val := match v with
  | .fin d => ieee32 d
  | x => x

end Sys2Proof.Machine
end

