-- ==== Sys2Proof/Machine/Quant.lean ====
section
/-! DEFINITION. The path of one product from its source tensor to the output unit (04_formats_and_quantisation): the
quantisation record, quantising, group sums, rescale, accumulation, output conversion, clip counting, the ladder. -/

namespace Sys2Proof.Machine

/-! ### The quantisation record (R171, R173) -/

/-- A quantisation record. -/
structure QRec where
  aFmt : Nat
  wFmt : Nat
  oFmt : Nat
  group : Nat
  ascale : Nat
  wdyn : Bool
  intAcc : Bool
  aZp : Int
  oZp : Int
  aScale : Nat
  oScale : Nat
  clip : Nat
  wideMax : Nat
  bFmt : Nat
  wsAddr : Nat
  /-- A reserved bit is set. -/
  resv : Bool
  deriving DecidableEq, Repr

/-- `k` bytes at offset `i`, as a number. -/
def leAt (l : List Byte) (i k : Nat) : Nat := leNat ((l.drop i).take k)

/-- Read a record from its 32 bytes (R171). -/
def qrecOf (l : List Byte) : QRec :=
  let mode := leAt l 3 1
  let wide := leAt l 18 1
  { aFmt := leAt l 0 1, wFmt := leAt l 1 1, oFmt := leAt l 2 1, group := mode % 4, ascale := mode / 4 % 4,
    wdyn := mode.testBit 4, intAcc := mode.testBit 5, aZp := sgn 16 (leAt l 4 2), oZp := sgn 16 (leAt l 6 2),
    aScale := leAt l 8 4, oScale := leAt l 12 4, clip := leAt l 16 2, wideMax := wide % 4, bFmt := leAt l 19 1,
    wsAddr := leAt l 20 8, resv := decide (64 ≤ mode) || decide (4 ≤ wide) || decide (leAt l 28 4 ≠ 0) }

/-- R166: accepted as an array operand. -/
def fmtOperand (c : Nat) : Bool := decide (1 ≤ c ∧ c ≤ 0x0A) || c == 0x10 || c == 0x11 || c == 0x20

/-- R166: accepted as an array output. -/
def fmtOutput (c : Nat) : Bool := decide (1 ≤ c ∧ c ≤ 6) || decide (0x10 ≤ c ∧ c ≤ 0x13)

/-- R166: accepted for vector conversion. -/
def fmtVector (c : Nat) : Bool :=
  decide (1 ≤ c ∧ c ≤ 0x0A) || decide (0x10 ≤ c ∧ c ≤ 0x13) || decide (0x20 ≤ c ∧ c ≤ 0x22)

/-- An integer array operand. -/
def fmtInt (c : Nat) : Bool := (fmtRange c).isSome && fmtOperand c

/-- A BF16 or FP16 operand. -/
def fmt16 (c : Nat) : Bool := c == 0x10 || c == 0x11

/-- Group length of the record, over a reduction of `k`. -/
def groupLen (group k : Nat) : Nat := if group = 0 then k else 16 * 2 ^ group

/-- Groups per row of the weight scale table (R172). -/
def tableGroups (group k : Nat) : Nat := ceilDiv k (groupLen group k)

/-- Offset of the zero-point bytes in a weight scale table of `m` rows (R172). -/
def zpOffset (m groups : Nat) : Nat := ceilDiv (4 * m * groups) 64 * 64

/-- R172: a zero-point byte, signed for INT4 and INT8. -/
def zpVal (wFmt : Nat) (b : Byte) : Int := if wFmt = 0x01 ∨ wFmt = 0x03 then sgn 8 b.toNat else (b.toNat : Int)

/-- R173: is a zero point refused for a format? -/
def zpBad (fmt : Nat) (z : Int) : Bool := match fmtRange fmt with
  | some (lo, hi) => decide (z < lo ∨ hi < z)
  | none => decide (z ≠ 0)

/-- R173: the record is refused. `fce`: it is a few-channel engine's; `biasNamed`: the command names a bias address; `zps`:
the weight zero points. -/
def QRec.refused (q : QRec) (fce biasNamed : Bool) (zps : List Int) : Bool :=
  let operand := fmtOperand q.aFmt || (fce && (q.aFmt == 0x21 || q.aFmt == 0x22))
  !operand || !fmtOperand q.wFmt || !fmtOutput q.oFmt ||
  (q.oFmt == 0x13 && !q.intAcc) ||
  (q.intAcc && ((fmtRange q.aFmt).isNone || !fmtInt q.wFmt || q.group != 0 || decide (2 ≤ q.ascale) || q.wdyn)) ||
  zpBad q.aFmt q.aZp || zps.any (zpBad q.wFmt) ||
  !f32PosFinite q.aScale || !f32PosFinite q.oScale ||
  (decide (2 ≤ q.ascale) && Dy.lt (Dy.ofInt 1) (f32Dy q.aScale)) ||
  !([0, 0x10, 0x11, 0x12, 0x13].contains q.bFmt) || (q.bFmt == 0x13 && !q.intAcc) ||
  (q.intAcc && [0x10, 0x11, 0x12].contains q.bFmt) ||
  ((q.bFmt != 0) != biasNamed) || decide (q.wsAddr % 64 ≠ 0) || q.resv

/-! ### The formats of one run (R176, R191, R192) -/

/-- What one run of a command computes with. -/
structure QPar where
  aFmt : Nat
  wFmt : Nat
  oFmt : Nat
  group : Nat
  ascale : Nat
  wdyn : Bool
  intAcc : Bool
  aZp : Int
  oZp : Int
  aScale : Dy
  oScale : Dy
  deriving DecidableEq, Repr

/-- R191: the next format up the ladder; a format at its top stays. -/
def ladder (c : Nat) : Nat :=
  if c = 0x01 ∨ c = 0x02 then 0x03
  else if c = 0x03 ∨ c = 0x04 ∨ c = 0x20 then 0x05
  else if c = 0x05 ∨ c = 0x06 then 0x10
  else if c = 0x07 ∨ c = 0x08 ∨ c = 0x09 then 0x0A
  else if c = 0x0A then 0x10
  else c

/-- R176: the signed format that ASCALE 2 and 3 quantise to. -/
def signedFmt (c : Nat) : Nat := if c = 0x02 then 0x01 else if c = 0x04 ∨ c = 0x20 then 0x03 else c

/-- The first run: as the record says (R171, R176). -/
def QRec.par (q : QRec) : QPar :=
  let dyn := decide (2 ≤ q.ascale)
  { aFmt := if dyn then signedFmt q.aFmt else q.aFmt, wFmt := q.wFmt, oFmt := q.oFmt, group := q.group,
    ascale := q.ascale, wdyn := q.wdyn, intAcc := q.intAcc, aZp := if dyn then 0 else q.aZp, oZp := q.oZp,
    aScale := f32Dy q.aScale, oScale := f32Dy q.oScale }

/-- R191, R192: one step up the ladder. -/
def QPar.step (p : QPar) : QPar :=
  let a := if p.ascale = 0 then p.aFmt else signedFmt (ladder p.aFmt)
  let o := ladder p.oFmt
  { p with aFmt := a, oFmt := o,
           ascale := if p.ascale = 0 then 0 else if p.group ≠ 0 then 3 else 2,
           aScale := if p.ascale = 0 then p.aScale else Dy.ofInt 1,
           aZp := if p.ascale = 0 then p.aZp else 0,
           oZp := if (fmtFloat o).isSome then 0 else p.oZp,
           intAcc := p.intAcc && fmtInt a && fmtInt p.wFmt }

/-- The formats after `n` steps. -/
def QRec.parAt (q : QRec) : Nat → QPar
  | 0 => q.par
  | n + 1 => (q.parAt n).step

/-- R193: does a further step change a format? -/
def QPar.canStep (p : QPar) : Bool :=
  decide (ladder p.oFmt ≠ p.oFmt) || (p.ascale != 0 && decide (ladder p.aFmt ≠ p.aFmt))

/-! ### Operands -/

/-- An operand vector (a column of the stationary operand or a row of the streamed one) as the cells use it. -/
structure QVec where
  /-- Values after zero-point subtraction (R179), MX block scales left out. -/
  xs : List Dy := []
  /-- Scales, one for each group of the record, or one. -/
  ss : List Dy := []
  /-- MX block exponents minus 127, one for each 32 elements; 0 where not MX (R182). -/
  bs : List Int := []
  clips : Nat := 0
  nans : Nat := 0
  deriving DecidableEq, Repr

/-- R187: an infinity becomes the largest finite value of its format with one clip, a NaN zero and counted. -/
def cleanVal (largest : Dy) (v : Val) : Dy × Nat × Nat := match v with
  | .fin d => (d, 0, 0)
  | .inf n => ({ largest with neg := n }, 1, 0)
  | .nan => ({}, 0, 1)

/-- Largest finite value of a float format code. -/
def fmtLargest (fmt : Nat) : Dy := match fmtFloat fmt with
  | some f => f.largest
  | none => {}

/-- Split a list into pieces of `n`. -/
def chunks {α : Type} (n : Nat) (l : List α) : List (List α) :=
  if n = 0 then [l] else (List.range (ceilDiv l.length n)).map fun i => (l.drop (i * n)).take n

/-- An operand as stored: codes and their block's scale byte (ASCALE 0; the streamed operand with WSCALE 0). -/
def asStored (fmt : Nat) (zp : Int) (scale : List Dy) (l : List (Nat × Nat)) : QVec :=
  let cl := l.map fun (c, sc) => cleanVal (fmtLargest fmt) (if sc = 255 then .nan else elemVal fmt c)
  let z := Dy.ofInt (-zp)
  { xs := cl.map fun x => if zp = 0 then x.1 else x.1.add z
    ss := scale
    bs := (chunks 32 l).map fun b => match b with
      | (_, sc) :: _ => if sc = 255 then 0 else (sc : Int) - 127
      | [] => 0
    clips := sumNat (cl.map (·.2.1)), nans := sumNat (cl.map (·.2.2)) }

/-- R175: qmax of a target format. -/
def qmax (fmt : Nat) : Dy :=
  Dy.ofInt (if fmt = 0x01 then 7 else if fmt = 0x03 then 127 else if fmt = 0x05 then 448 else 57344)

/-- Largest magnitude of a list. -/
def maxAbs (l : List Dy) : Dy := l.foldl (fun m x => if m.lt x.abs then x.abs else m) {}

/-- R175: 1 ÷ s, and the replacement of a scale that underflowed. -/
def scaleInv (s : Dy) : Dy × Dy :=
  let one := Dy.ofInt 1
  if s.m = 0 then (one, one)
  else match ieee32 (one.div 30 s) with
    | .fin d => (s, d)
    | _ => (one, one)

/-- R175: one value quantised: what the cell holds after zero-point subtraction, and its clip. -/
def quantOne (fmt : Nat) (zp : Int) (inv x : Dy) : Dy × Nat :=
  let v := fl32' (x.mul inv)
  match fmtFloat fmt with
  | some f => let (d, c) := f.sat v; (d, b2n c)
  | none => match fmtRange fmt with
    | some (lo, hi) =>
      let q := v.rneInt + zp
      let r := clampInt q lo hi
      (Dy.ofInt (r - zp), b2n (decide (r ≠ q)))
    | none => ({}, 0)

/-- R177: emax of an MX element format. -/
def mxEmax (fmt : Nat) : Int := if fmt = 0x09 then 4 else if fmt = 0x0A then 0 else 2

/-- R177: an element of an MX block with shared exponent field `e`. -/
def mxElem (fmt : Nat) (e : Int) (x : Dy) : Dy × Nat :=
  let v : Dy := { x with e := x.e + 127 - e }
  match fmtFloat fmt with
  | some f => let (d, c) := f.sat v; (d, b2n c)
  | none =>
    let q := ({ v with e := v.e + 6 } : Dy).rneInt
    let r := clampInt q (-128) 127
    ({ Dy.ofInt r with e := -6 }, b2n (decide (r ≠ q)))

/-- R177: the shared exponent field of a block whose largest magnitude is `amax`. -/
def mxExp (fmt : Nat) (amax : Dy) : Int :=
  if amax.m = 0 then 127 else clampInt (amax.e + Nat.log2 amax.m - mxEmax fmt + 127) 0 254

/-- R175 to R177: quantise a source vector. `mode` is ASCALE (1 static, 2 one scale, 3 one scale for each group of `g`),
`ratio` the clip ratio, `scale` the static scale. MX with a static scale has no stated result: open from `k` on. -/
def quantise (fmt mode g : Nat) (zp : Int) (scale ratio : Dy) (k : Nat) (src : List Val) : QVec :=
  let cl := src.map fun v => cleanVal fFP32.largest (toF32 v)
  let xs := cl.map (·.1)
  let c0 := sumNat (cl.map (·.2.1))
  let n0 := sumNat (cl.map (·.2.2))
  if fmtMX fmt then
    if mode = 1 then
      { xs := xs.zipIdx.map fun (_, i) => (cleanVal {} (elemVal fmt (Config.freeValue k i).toNat)).1
        ss := [scale], bs := (chunks 32 xs).map fun _ => 0, clips := c0, nans := n0 }
    else
      let bl := (chunks 32 xs).map fun b =>
        let e := mxExp fmt (fl32' ((maxAbs b).mul ratio))
        (e, b.map (mxElem fmt e))
      { xs := bl.flatMap fun b => b.2.map (·.1), ss := [Dy.ofInt 1], bs := bl.map fun b => b.1 - 127
        clips := c0 + sumNat (bl.map fun b => sumNat (b.2.map (·.2))), nans := n0 }
  else
    let parts := if mode = 3 then chunks g xs else [xs]
    let done := parts.map fun p =>
      let s := if mode = 1 then scale
        else if fmt16 fmt then Dy.ofInt 1
        else
          let m := fl32' ((maxAbs p).mul ratio)
          if m.m = 0 then Dy.ofInt 1 else fl32' (m.div 30 (qmax fmt))
      let (s, inv) := scaleInv s
      (s, p.map (quantOne fmt (if mode = 1 then zp else 0) inv))
    { xs := done.flatMap fun d => d.2.map (·.1), ss := done.map (·.1), bs := []
      clips := c0 + sumNat (done.map fun d => sumNat (d.2.map (·.2))), nans := n0 }

/-! ### Group sums, rescale and accumulation (R181 to R186) -/

/-- A value and the clips met in forming it. -/
structure Cl (α : Type) where
  v : α
  n : Nat
  deriving DecidableEq, Repr

/-- fl32() with its clip. -/
def flc (n : Nat) (a : Dy) : Cl Dy := let (d, c) := fl32 a; ⟨d, n + b2n c⟩

/-- R181, R182: the partial sum of a group: exact, or FP32 in ascending order with a BF16 or FP16 operand. -/
def groupSum (half : Bool) (xs ws : List Dy) : Cl Dy :=
  (xs.zip ws).foldl (fun (a : Cl Dy) (x, w) =>
    if half then
      let p := flc a.n (w.mul x)
      flc p.n (a.v.add p.v)
    else ⟨a.v.add (w.mul x), a.n⟩) ⟨{}, 0⟩

/-- A bias: a float, an integer, or none. -/
inductive Bias where
  | none
  | flt (d : Dy)
  | int (i : Int)
  deriving DecidableEq, Repr

/-- A 32-bit saturating addition (R184). -/
def satAdd (a : Cl Int) (i : Int) : Cl Int :=
  let s := a.v + i
  let r := clampInt s (-2147483648) 2147483647
  ⟨r, a.n + b2n (decide (r ≠ s))⟩

/-- The part of index `i` of pieces of length `n`. -/
def pieceOf {α : Type} (d : α) (l : List α) (i n : Nat) : α := if l.length ≤ 1 then l.getD 0 d else l.getD (i / max n 1) d

/-- R182, R184: one output from column `x` and weight row `w`; the code, and the clips. -/
def oneOutput (p : QPar) (k : Nat) (x w : QVec) (b : Bias) : Cl Nat :=
  let mx := fmtMX p.aFmt || fmtMX p.wFmt
  let g := groupLen p.group k
  let len := if mx then 32 else g
  let half := fmt16 p.aFmt || fmt16 p.wFmt
  let ng := ceilDiv k len
  let gx := chunks len x.xs
  let gw := chunks len w.xs
  if p.intAcc then
    let acc : Cl Int := (List.range ng).foldl (fun a i =>
      satAdd a ((groupSum false (gx.getD i []) (gw.getD i [])).v.num 0)) ⟨0, 0⟩
    let acc := match b with
      | .int i => satAdd acc i
      | _ => acc
    if p.oFmt = 0x13 then ⟨uns 32 acc.v, acc.n⟩
    else
      let s := flc acc.n ((w.ss.getD 0 (Dy.ofInt 1)).mul (x.ss.getD 0 (Dy.ofInt 1)))
      let s := flc s.n (s.v.mul p.oScale)
      let a := flc s.n (Dy.ofInt acc.v)
      let y := flc a.n (a.v.mul s.v)
      let (c, cl) := convertOut p.oFmt p.oZp y.v
      ⟨c, y.n + b2n cl⟩
  else
    let acc : Cl Dy := (List.range ng).foldl (fun a i =>
      let q := groupSum half (gx.getD i []) (gw.getD i [])
      let s := flc (a.n + q.n) ((pieceOf (Dy.ofInt 1) w.ss (i * len) g).mul (pieceOf (Dy.ofInt 1) x.ss (i * len) g))
      let s := flc s.n { s.v with e := s.v.e + w.bs.getD i 0 + x.bs.getD i 0 }
      let r := flc s.n (q.v.mul s.v)
      flc r.n (a.v.add r.v)) ⟨{}, 0⟩
    let acc := match b with
      | .flt d => flc acc.n (acc.v.add d)
      | .int i => flc acc.n (acc.v.add (Dy.ofInt i))
      | .none => acc
    let y := flc acc.n (acc.v.mul p.oScale)
    let (c, cl) := convertOut p.oFmt p.oZp y.v
    ⟨c, y.n + b2n cl⟩

/-- The result of a product: for each column its M codes, the clips each weight row's outputs met (R188), those of the
stationary operand, and the NaNs of the stationary operand. What the weights met is `QVec.clips` and `QVec.nans` of theirs. -/
structure GemmOut where
  cols  : List (List Nat) := []
  rows  : List Nat := []
  stat  : Nat := 0
  nans  : Nat := 0
  deriving DecidableEq, Repr

/-- R153: with no reduction index the scales come from the record alone. -/
def emptyReduction (p : QPar) (x w : QVec) : QVec × QVec :=
  ({ x with ss := if p.ascale ≤ 1 then [p.aScale] else [Dy.ofInt 1] }, { w with ss := [Dy.ofInt 1] })

/-- Y = W × X + b for prepared operands (R123, R182). -/
def gemm (p : QPar) (k : Nat) (xs ws : List QVec) (bs : List Bias) : GemmOut :=
  let outs := xs.map fun x => (ws.zip bs).map fun (w, b) =>
    let (x, w) := if k = 0 then emptyReduction p x w else (x, w)
    oneOutput p k x w b
  { cols := outs.map fun c => c.map (·.v)
    rows := (List.range ws.length).map fun i => sumNat (outs.map fun c => (c.getD i ⟨0, 0⟩).n)
    stat := sumNat (xs.map (·.clips)), nans := sumNat (xs.map (·.nans)) }

/-- R190: the part of D that counts once for each input unit, of `g` products of dimensions k, n. -/
def clipDenOnce (p : QPar) (g k n : Nat) : Nat := if p.ascale = 0 then 0 else g * k * n

/-- R189: D of `g` products of dimensions m, k, n (R202: a convolution has one for each group). -/
def clipDen (p : QPar) (g m k n : Nat) : Nat :=
  g * m * n + clipDenOnce p g k n + (if p.wdyn then g * m * k else 0)

/-- R189: the threshold is exceeded. -/
def clipExceeded (thresh c d : Nat) : Bool := thresh != 0 && decide (thresh * d < c * 65536)

/-- R178: cycles of the quantisation pre-pass. -/
def prePassCycles (ascale : Nat) (wdyn : Bool) (m k n : Nat) : Nat :=
  (if ascale = 0 then 0 else ceilDiv (k * n) 256) + (if wdyn then ceilDiv (m * k) 256 else 0)

/-- R199: the output arithmetic of the FCE. -/
def fceOutput (oFmt : Nat) (oZp : Int) (acc : Int) (scale bias : Dy) : Nat :=
  let y := fl32' ((fl32' ((fl32' (Dy.ofInt acc)).mul scale)).add bias)
  (convertOut oFmt oZp y).1

/-! ### Shapes (R125, R128, R131, R132) -/

/-- R125: issue interval and pairing factor. -/
def issueCP (a w : Nat) : Nat × Nat :=
  let is4 (c : Nat) : Bool := c == 0x01 || c == 0x02 || c == 0x07
  let is6 (c : Nat) : Bool := c == 0x08 || c == 0x09
  if fmt16 a || fmt16 w then (4, 1)
  else if is6 a || is6 w then (2, 1)
  else if is4 a && is4 w then (1, 2)
  else (1, 1)

/-- R128: reduction rows, output columns and tiles at once of a shape. -/
def shapeRCQ (s : Nat) : Nat × Nat × Nat :=
  if s = 2 then (64, 64, 4) else if s = 3 then (64, 256, 1) else if s = 4 then (32, 512, 1) else (128, 128, 1)

/-- R131: the row-block length in force. -/
def rowBlock (mb m : Nat) : Nat := if mb = 0 then min m 8192 else min mb 8192

/-- Tiles of a command share of `m` rows (R132). -/
def shapeTiles (s p k n m mb : Nat) : Nat :=
  let (r, c, _) := shapeRCQ s
  ceilDiv k (p * r) * ceilDiv n c * ceilDiv m mb

/-- R132, R133: cycles that shape `s` adds when `prev` is in force. -/
def switchCost (prev s : Nat) : Nat := if prev = 0 then 16 else if s ≠ prev then 276 else 0

/-- R132: the cycle estimate of a shape, its switch cost left out. -/
def shapeBase (s c p k n m mb : Nat) : Nat := ceilDiv (shapeTiles s p k n m mb) (shapeRCQ s).2.2 * (128 + (mb + 1) * c) + 260

/-- R132: the cycle estimate of a shape. -/
def shapeEst (s prev c p k n m mb : Nat) : Nat := shapeBase s c p k n m mb + switchCost prev s

/-- R132: of the shapes 1 to 4 that of the least cost, a pair of an estimate and a weight traffic; the lowest code on a tie. -/
def leastShape (cost : Nat → Nat × Nat) : Nat :=
  [2, 3, 4].foldl (fun best s =>
    if (cost s).1 < (cost best).1 ∨ ((cost s).1 = (cost best).1 ∧ (cost s).2 < (cost best).2) then s else best) 1

/-- R132: the shape of a command that names shape 0: lowest estimate, then lower weight traffic, then lowest code. -/
def autoShape (prev c p k n m mb : Nat) : Nat :=
  leastShape fun s => (shapeEst s prev c p k n m mb, ceilDiv n (shapeRCQ s).2.1)

end Sys2Proof.Machine
end

