-- ==== Sys2Proof/Machine/Operands.lean ====
section
/-! DEFINITION. Operand forms: the command descriptor (R406 to R410, R641, R755), the context record (R398), the CONV
layer list (R409, R204), the live map (R440), the attention, crop, JPEG and augmentation blocks. -/

namespace Sys2Proof.Machine

/-! ### The command descriptor (R406) -/

namespace Desc
/-- R406: the fields of a descriptor. -/
def opcode (d : BitVec 512) : Nat := bits d 7 0
def shape (d : BitVec 512) : Nat := bits d 10 8
def itemGate (d : BitVec 512) : Bool := d.getLsbD 11
def zrunOut (d : BitVec 512) : Bool := d.getLsbD 12
def irq (d : BitVec 512) : Bool := d.getLsbD 13
def dlAbort (d : BitVec 512) : Bool := d.getLsbD 14
def fence (d : BitVec 512) : Bool := d.getLsbD 15
def stage (d : BitVec 512) : Nat := bits d 18 16
def stepStart (d : BitVec 512) : Bool := d.getLsbD 19
def pin (d : BitVec 512) : Nat := bits d 31 24
def tag (d : BitVec 512) : Nat := bits d 47 32
def splitId (d : BitVec 512) : Nat := bits d 59 48
def splitN (d : BitVec 512) : Nat := bits d 63 60
def m (d : BitVec 512) : Nat := bits d 95 64
def n (d : BitVec 512) : Nat := bits d 127 96
def k (d : BitVec 512) : Nat := bits d 159 128
def mb (d : BitVec 512) : Nat := bits d 175 160
/-- ENG_CNT; 0 acts as 1. -/
def engCnt (d : BitVec 512) : Nat := max 1 (bits d 183 176)
def liveIdx (d : BitVec 512) : Nat := bits d 191 184
def inStream (d : BitVec 512) : Nat := bits d 203 192
def outStream (d : BitVec 512) : Nat := bits d 216 208
def deadline (d : BitVec 512) : Nat := bits d 255 224
def wAddr (d : BitVec 512) : Nat := bits d 319 256
def paramAddr (d : BitVec 512) : Nat := bits d 383 320
def auxAddr (d : BitVec 512) : Nat := bits d 447 384
def auxCount (d : BitVec 512) : Nat := bits d 479 448
def opflags (d : BitVec 512) : Nat := bits d 511 480
/-- R641: OPFLAGS of the Fakan opcodes. -/
def dev (d : BitVec 512) : Nat := opflags d % 8
def group (d : BitVec 512) : Nat := opflags d / 256 % 256
def fakFmt (d : BitVec 512) : Nat := opflags d / 65536 % 256
def red (d : BitVec 512) : Nat := opflags d / 16777216 % 4
end Desc

/-- Opcodes of R407 and R641. -/
abbrev opMATMUL : Nat := 0x01
abbrev opCONV : Nat := 0x02
abbrev opATTENTION : Nat := 0x03
abbrev opCROP : Nat := 0x04
abbrev opARGMAX : Nat := 0x05
abbrev opSAMPLE : Nat := 0x07
abbrev opTOKENISE : Nat := 0x08
abbrev opDETOKENISE : Nat := 0x09
abbrev opMASK : Nat := 0x0A
abbrev opJPEG : Nat := 0x0B
abbrev opAUGMENT : Nat := 0x0C
abbrev opCOPY : Nat := 0x0D
abbrev opPUT : Nat := 0x10
abbrev opGET : Nat := 0x11
abbrev opSIGNAL : Nat := 0x12
abbrev opWAIT : Nat := 0x13
abbrev opALLGATHER : Nat := 0x14
abbrev opALLREDUCE : Nat := 0x15
abbrev opBROADCAST : Nat := 0x16
abbrev opBARRIER : Nat := 0x17

/-- Which descriptor fields an opcode uses (R407, R408, R641), and the OPFLAGS bits it defines. -/
structure OpUse where
  w : Bool := false
  param : Bool := false
  aux : Bool := false
  count : Bool := false
  mnk : Bool := false
  m : Bool := false
  n : Bool := false
  mb : Bool := false
  flags : Nat := 0
  deriving DecidableEq, Repr

/-- R407, R408, R641: the fields each opcode uses; `none` for a reserved opcode. -/
def opUse (op : Nat) : Option OpUse :=
  match op with
  | 0x01 => some { w := true, param := true, aux := true, mnk := true, m := true, n := true, mb := true }
  | 0x02 => some { param := true, count := true, mb := true }
  | 0x03 => some { param := true, aux := true, count := true }
  | 0x04 => some { param := true, aux := true, count := true }
  | 0x05 => some { count := true, flags := 1 }
  | 0x07 => some { param := true, count := true, m := true, n := true }
  | 0x08 => some { flags := 1 }
  | 0x09 => some { flags := 2 }
  | 0x0A => some { param := true, aux := true, count := true }
  | 0x0B => some { w := true, param := true, count := true }
  | 0x0C => some { param := true }
  | 0x0D => some { w := true, aux := true, count := true }
  | 0x10 => some { w := true, param := true, aux := true, count := true, flags := 0x7 }
  | 0x11 => some { w := true, aux := true, count := true, flags := 0x7 }
  | 0x12 => some { param := true, aux := true, flags := 0x7 }
  | 0x13 => some { param := true, aux := true }
  | 0x14 => some { w := true, aux := true, count := true, flags := 0xFF00 }
  | 0x15 => some { w := true, aux := true, count := true, flags := 0x3FFFF00 }
  | 0x16 => some { w := true, aux := true, count := true, flags := 0xFF07 }
  | 0x17 => some { flags := 0xFF00 }
  | _ => none

/-- The opcodes that run on an engine (R407). -/
def onEngine (op : Nat) : Bool :=
  op == opMATMUL || op == opCONV || op == opATTENTION || op == opCROP || op == opARGMAX || op == opSAMPLE

/-- The opcodes that run the array of an engine, and so have tiles. -/
def onArray (op : Nat) : Bool := op == opMATMUL || op == opCONV || op == opATTENTION

/-- The waits of R643. -/
def remoteOp (op : Nat) : Bool := decide (0x10 ≤ op ∧ op ≤ 0x17)

/-- R408: a field that must be zero is not zero. -/
def mustBeZero (u : OpUse) (d : BitVec 512) : Bool :=
  (!u.w && Desc.wAddr d != 0) || (!u.param && Desc.paramAddr d != 0) || (!u.aux && Desc.auxAddr d != 0) ||
  (!u.count && Desc.auxCount d != 0) || (!u.m && Desc.m d != 0) || (!u.n && Desc.n d != 0) ||
  (!u.mnk && Desc.k d != 0) || (!u.mb && Desc.mb d != 0) ||
  decide (Desc.opflags d &&& u.flags ≠ Desc.opflags d)

/-- R406, R407, R641: a reserved bit or value is set. -/
def descReserved (d : BitVec 512) : Bool :=
  let op := Desc.opcode d
  decide (5 ≤ Desc.shape d) || decide (bits d 23 20 ≠ 0) || decide (bits d 207 204 ≠ 0) ||
  decide (bits d 223 217 ≠ 0) || (decide (32 ≤ Desc.pin d) && Desc.pin d != 0xFF) ||
  (Desc.splitN d != 0 && Desc.splitId d == 0) ||
  (op == opCONV && decide (8 < Desc.auxCount d)) ||
  (op == opARGMAX && (decide (65536 < Desc.auxCount d) || (Desc.opflags d == 0 && decide (256 < Desc.auxCount d)))) ||
  (op == opALLREDUCE && (!decide (0x10 ≤ Desc.fakFmt d ∧ Desc.fakFmt d ≤ 0x13) || Desc.red d == 3))

/-! ### Context records (R398) -/

/-- Commons offset of the record of context `c`. -/
def State.ctxAddr (s : State) (c : Nat) : Nat := (s.rd Reg.DISP.CTX_BASE).toNat + 64 * c
def State.ctxState (s : State) (c : Nat) : Nat := bits (s.byte (s.ctxAddr c)) 2 0
def State.ctxFunc (s : State) (c : Nat) : Nat := bits (s.byte (s.ctxAddr c + 1)) 4 0
def State.ctxClass (s : State) (c : Nat) : Nat := bits (s.byte (s.ctxAddr c + 2)) 1 0
def State.ctxHome (s : State) (c : Nat) : Nat := bits (s.byte (s.ctxAddr c + 2)) 3 2
def State.ctxVector (s : State) (c : Nat) : Nat := bits (s.byte (s.ctxAddr c + 3)) 5 0
def State.ctxShare (s : State) (c : Nat) : Nat := s.readN (s.ctxAddr c + 4) 2
def State.ctxSqLog2 (s : State) (c : Nat) : Nat := (s.byte (s.ctxAddr c + 6)).toNat
def State.ctxCqLog2 (s : State) (c : Nat) : Nat := (s.byte (s.ctxAddr c + 7)).toNat
def State.ctxSqAddr (s : State) (c : Nat) : Nat := s.readN (s.ctxAddr c + 8) 8
def State.ctxCqAddr (s : State) (c : Nat) : Nat := s.readN (s.ctxAddr c + 16) 8
def State.ctxSqHead (s : State) (c : Nat) : Nat := s.readN (s.ctxAddr c + 24) 4
def State.ctxCqTail (s : State) (c : Nat) : Nat := s.readN (s.ctxAddr c + 28) 4
def State.ctxEngMask (s : State) (c : Nat) : Nat := s.readN (s.ctxAddr c + 32) 4
def State.ctxSaveKib (s : State) (c : Nat) : Nat := s.readN (s.ctxAddr c + 36) 4
def State.ctxSaveAddr (s : State) (c : Nat) : Nat := s.readN (s.ctxAddr c + 40) 8
def State.ctxLiveAddr (s : State) (c : Nat) : Nat := s.readN (s.ctxAddr c + 48) 8
def State.ctxReportAddr (s : State) (c : Nat) : Nat := s.readN (s.ctxAddr c + 56) 8
/-- R398: STATE is written only by the IB960. -/
def Act.ctxState (c v : Nat) : Act := .get fun s =>
  .bytes (s.ctxAddr c) [setBits (s.byte (s.ctxAddr c)) 2 0 v]

/-! ### The live map (R440) -/

/-- The address of a command's live-map entry, when it has one. -/
def State.liveEntry (s : State) (c : Nat) (d : BitVec 512) : Option Nat :=
  if Desc.liveIdx d = 0xFF ∨ s.ctxLiveAddr c = 0 then none else some (s.ctxLiveAddr c + 64 * Desc.liveIdx d)

/-- Cheap points of a live-map entry: AT, BASE_KIB, LIVE_KIB. -/
def State.cheapPoints (s : State) (a : Nat) : List (Nat × Nat × Nat) :=
  (List.range (bits (s.byte a) 2 0)).map fun j =>
    let w := s.readN (a + 8 + 8 * j) 8
    (w % 2 ^ 24, w / 2 ^ 24 % 2 ^ 13, w / 2 ^ 37 % 2 ^ 13)

/-- R410: a live-map range that leaves the engine store, or a reserved bit of the entry. -/
def State.liveBad (s : State) (a : Nat) : Bool :=
  decide (s.readN a 8 / 8 ≠ 0) ||
  ((List.range (bits (s.byte a) 2 0)).any fun j => decide (s.readN (a + 8 + 8 * j) 8 / 2 ^ 50 ≠ 0)) ||
  (s.cheapPoints a).any fun p => decide (4096 < p.2.1 + p.2.2)

/-! ### CONV layers (R409, R204) -/

/-- A CONV layer's geometry. -/
structure Layer where
  q : QRec
  kh : Nat
  kw : Nat
  sy : Nat
  sx : Nat
  dy : Nat
  dx : Nat
  upY : Bool
  upX : Bool
  edge : Bool
  fce : Bool
  top : Nat
  bottom : Nat
  left : Nat
  right : Nat
  groups : Nat
  inW : Nat
  cin : Nat
  cout : Nat
  lw : Nat
  bias : Nat
  /-- A reserved bit or value of SD or LFLAGS. -/
  resv : Bool
  deriving DecidableEq, Repr

/-- Read a layer-list entry (R409); strides and dilations as numbers. -/
def layerOf (l : List Byte) : Layer :=
  let sd := leAt l 34 1
  let fl := leAt l 35 1
  { q := qrecOf (l.take 32), kh := leAt l 32 1, kw := leAt l 33 1,
    sy := 2 ^ (sd % 4), sx := 2 ^ (sd / 4 % 4), dy := 2 ^ (sd / 16 % 4), dx := 2 ^ (sd / 64 % 4),
    upY := fl.testBit 0, upX := fl.testBit 1, edge := fl.testBit 2, fce := fl.testBit 3,
    top := leAt l 36 1, bottom := leAt l 37 1, left := leAt l 38 1, right := leAt l 39 1,
    groups := leAt l 40 2, inW := leAt l 42 2, cin := leAt l 44 2, cout := leAt l 46 2,
    lw := leAt l 48 8, bias := leAt l 56 8,
    resv := decide (sd % 4 = 3) || decide (sd / 4 % 4 = 3) || decide (16 ≤ fl) }

/-- The layers of a CONV command. -/
def State.layers (s : State) (d : BitVec 512) : List Layer :=
  (List.range (Desc.auxCount d)).map fun i => layerOf (s.read (Desc.paramAddr d + 64 * i) 64)

/-- R204, R409: a layer's geometry is not accepted; `i` is its place in the list. -/
def layerBad (i : Nat) (l : Layer) : Bool :=
  l.resv || decide (l.kh < 1 ∨ 31 < l.kh ∨ l.kw < 1 ∨ 31 < l.kw) ||
  (l.fce && i != 0) ||
  decide (l.groups = 0) || decide (l.cin % l.groups ≠ 0 ∨ l.cout % l.groups ≠ 0 ∨ l.cin < l.groups) ||
  (if l.fce then
    decide (7 < l.kh ∨ 7 < l.kw ∨ 256 < l.kh * l.kw * l.cin) || decide (l.dy ≠ 1 ∨ l.dx ≠ 1) ||
    decide (3 < l.top ∨ 3 < l.bottom ∨ 3 < l.left ∨ 3 < l.right) || l.groups != 1 || l.upY || l.upX ||
    decide (64 < l.cout) || l.edge ||
    (decide (4 < l.cin) && (decide (l.kh * l.kw ≠ 1) || decide (l.sy * l.sx ≠ 1) || decide (0 < l.top + l.bottom + l.left + l.right)))
  else
    decide (1 < l.dy ∧ l.sy ≠ 1) || decide (1 < l.dx ∧ l.sx ≠ 1) ||
    decide ((l.kh - 1) * l.dy < l.top ∨ (l.kh - 1) * l.dy < l.bottom) ||
    decide ((l.kw - 1) * l.dx < l.left ∨ (l.kw - 1) * l.dx < l.right)) ||
  decide (l.lw % 64 ≠ 0) || decide (l.bias % 64 ≠ 0)

/-! ### Alignment (R755) -/

/-- R755: an address of the command is not aligned (those of a quantisation record and an attention block apart). -/
def State.misaligned (s : State) (d : BitVec 512) : Bool :=
  let w := Desc.wAddr d
  let p := Desc.paramAddr d
  let a := Desc.auxAddr d
  match Desc.opcode d with
  | 0x01 => decide (w % 64 ≠ 0 ∨ p % 32 ≠ 0 ∨ a % 64 ≠ 0)
  | 0x02 => decide (p % 64 ≠ 0)
  | 0x03 => decide (p % 32 ≠ 0 ∨ a % 8 ≠ 0)
  | 0x04 => decide (p % 32 ≠ 0 ∨ a % 32 ≠ 0) || decide (s.readN p 8 % 64 ≠ 0) || decide (s.readN (p + 24) 8 % 2 ≠ 0)
  | 0x07 => decide (p % 64 ≠ 0)
  | 0x0A => decide (p % 64 ≠ 0 ∨ a % 16 ≠ 0)
  | 0x0B => decide (p % 8 ≠ 0)
  | 0x0C => decide (p % 64 ≠ 0)
  | 0x10 => decide (p % 8 ≠ 0)
  | 0x12 => decide (p % 8 ≠ 0)
  | 0x13 => decide (p % 8 ≠ 0)
  | 0x15 =>
    let e := fmtWidth (Desc.fakFmt d) / 8
    decide (w % e ≠ 0 ∨ a % e ≠ 0)
  | _ => false

/-! ### Engines a command may use (R426, R427, R439) -/

/-- R439: may a command of class `cls` run on an engine of CLASS2_ENG? -/
def State.class2Allowed (s : State) (cls : Nat) : Bool := cls == 2 || s.bit Reg.DISP.DISP_CTRL 2

/-- Logical engines a command of context `c` may use (R426). -/
def State.usable (s : State) (c cls : Nat) (d : BitVec 512) : List Nat :=
  let ok (l : Nat) : Bool := s.class2Allowed cls || !s.bit Reg.DISP.CLASS2_ENG l
  if Desc.pin d < 32 then (if ok (Desc.pin d) then [Desc.pin d] else [])
  else (List.range 32).filter fun l => (s.ctxEngMask c).testBit l && ok l

/-! ### Crop and JPEG blocks (R223, R224, R232) -/

/-- R223: the crop parameter block. -/
structure CropBlock where
  plane : Nat
  w : Nat
  h : Nat
  pitch : Nat
  fmt : Nat
  band : Nat
  table : Nat
  deriving DecidableEq, Repr

def cropBlock (l : List Byte) : CropBlock :=
  { plane := leAt l 0 8, w := leAt l 8 4, h := leAt l 12 4, pitch := leAt l 16 4, fmt := leAt l 20 1, band := leAt l 22 2,
    table := leAt l 24 8 }

/-- R224: a box. -/
structure CropBox where
  x0 : Nat
  y0 : Nat
  w : Nat
  h : Nat
  outW : Nat
  outH : Nat
  bilinear : Bool
  rot : Nat
  flip : Bool
  fmt : Nat
  pad : Nat
  id : Nat
  /-- A reserved bit or value. -/
  resv : Bool
  deriving DecidableEq, Repr

def cropBox (l : List Byte) : CropBox :=
  let f := leAt l 20 1
  { x0 := leAt l 0 4, y0 := leAt l 4 4, w := leAt l 8 4, h := leAt l 12 4, outW := leAt l 16 2, outH := leAt l 18 2,
    bilinear := f.testBit 0, rot := f / 2 % 4, flip := f.testBit 3, fmt := leAt l 21 1, pad := leAt l 22 2, id := leAt l 24 4
    resv := decide (16 ≤ f) || decide (leAt l 28 4 ≠ 0) || !([0x04, 0x20, 0x22, 0x10, 0x12].contains (leAt l 21 1)) ||
      decide (4096 < leAt l 16 2) || decide (4096 < leAt l 18 2) }

/-- Boxes of a CROP. -/
def State.cropBoxes (s : State) (d : BitVec 512) : List CropBox :=
  (List.range (Desc.auxCount d)).map fun i => cropBox (s.read (Desc.auxAddr d + 32 * i) 32)

/-- R223, R224: reserved bits and values of the blocks a CROP names. -/
def State.cropBad (s : State) (d : BitVec 512) : Bool :=
  let b := cropBlock (s.read (Desc.paramAddr d) 32)
  !([0x04, 0x20, 0x21, 0x22, 0x10].contains b.fmt) || decide (s.byte (Desc.paramAddr d + 21) ≠ 0) || b.w == 0 || b.h == 0 ||
  decide (b.pitch % 64 ≠ 0) || (s.cropBoxes d).any (·.resv)

/-- R232: reserved bits and values of the JPEG parameter block. -/
def State.jpegBad (s : State) (d : BitVec 512) : Bool :=
  let a := Desc.paramAddr d
  decide (3 ≤ s.readN (a + 2) 1) || decide (s.readN (a + 3) 5 ≠ 0)

/-! ### R410 -/

/-- Is the stream identifier one this device knows (R405, R410)? -/
def State.streamKnown (s : State) (id : Nat) : Bool :=
  decide (id / 512 = s.devNum) || s.hw.imports.any fun w => w.getLsbD 31 && bits w 11 0 == id

/-- Size of the loaded vocabulary, 0 without one (R335). -/
def State.vocabSize (s : State) : Nat := if s.bit Reg.TXT.TXT_STATUS 0 then s.fld Reg.TXT.VOCAB_INFO 18 0 else 0

/-- R410: the descriptor of context `c` is refused. -/
def State.descRefused (s : State) (c : Nat) (d : BitVec 512) : Bool :=
  match opUse (Desc.opcode d) with
  | none => true
  | some u =>
    let op := Desc.opcode d
    let cls := s.ctxClass c
    let pin := Desc.pin d
    descReserved d || mustBeZero u d ||
    (decide (pin < 32) && (!(s.ctxEngMask c).testBit pin ||
      (s.bit Reg.DISP.CLASS2_ENG pin && !s.class2Allowed cls))) ||
    decide (32 < Desc.engCnt d ∨ (s.usable c cls d).length < Desc.engCnt d) ||
    (Desc.zrunOut d && op != opMATMUL && op != opCONV) ||
    s.misaligned d ||
    (op == opCONV && ((s.layers d).zipIdx.any fun (l, i) => layerBad i l)) ||
    (op == opCROP && s.cropBad d) || (op == opJPEG && s.jpegBad d) ||
    (Desc.inStream d == 0xFFF && (op == opMATMUL || op == opCONV)) ||
    (Desc.inStream d != 0xFFF && !s.streamKnown (Desc.inStream d)) ||
    (Desc.itemGate d && Desc.inStream d == 0xFFF) ||
    (match s.liveEntry c d with
      | some a => s.liveBad a
      | none => false) ||
    (op == opSAMPLE && (Desc.m d == 0 || decide (Desc.m d ≠ s.vocabSize) || Desc.n d != Desc.auxCount d))

/-- R152: a size, length or count field of the descriptor is zero. -/
def sizeZero (d : BitVec 512) : Bool :=
  match Desc.opcode d with
  | 0x01 => Desc.m d == 0 || Desc.n d == 0
  | 0x07 => Desc.n d == 0
  | 0x08 => false
  | 0x09 => false
  | 0x0C => false
  | 0x12 => false
  | 0x13 => false
  | 0x17 => false
  | _ => Desc.auxCount d == 0

/-! ### The other parameter blocks -/

/-- R244: the attention parameter block. -/
structure AttnBlock where
  op : Nat
  causal : Bool
  kvFmt : Nat
  qFmt : Nat
  pFmt : Nat
  layer : Nat
  hq : Nat
  hkv : Nat
  d : Nat
  chunk : Nat
  scale : Nat
  window : Nat
  stats : Nat
  resv : Bool
  deriving DecidableEq, Repr

/-- Read an attention parameter block. -/
def attnBlock (l : List Byte) : AttnBlock :=
  let mode := leAt l 0 1
  { op := mode % 4, causal := mode.testBit 2, kvFmt := leAt l 1 1, qFmt := leAt l 2 1, pFmt := leAt l 3 1,
    layer := leAt l 4 2, hq := leAt l 6 1, hkv := leAt l 7 1, d := leAt l 8 2,
    chunk := if leAt l 10 2 = 0 then 2048 else leAt l 10 2, scale := leAt l 12 4, window := leAt l 16 4,
    stats := leAt l 20 8, resv := decide (8 ≤ mode) || decide (leAt l 28 4 ≠ 0) }

/-- R245: a sequence-list entry. -/
structure SeqEntry where
  seq : Nat
  n : Nat
  acquire : Bool
  release : Bool
  revalidate : Bool
  resv : Bool
  first : Nat
  deriving DecidableEq, Repr

/-- Read a sequence-list entry from its 64-bit word. -/
def seqEntry (w : Nat) : SeqEntry :=
  { seq := w % 65536, n := w / 65536 % 4096, acquire := w.testBit 28, release := w.testBit 29,
    revalidate := w.testBit 30, resv := w.testBit 31, first := w / 2 ^ 32 }

/-- The sequence list of an ATTENTION command. -/
def State.seqList (s : State) (d : BitVec 512) : List SeqEntry :=
  (List.range (Desc.auxCount d)).map fun i => seqEntry (s.readN (Desc.auxAddr d + 8 * i) 8)

end Sys2Proof.Machine
end

