-- ==== Sys2Proof/Machine/Disp.lean ====
section
/-! DEFINITION. Contexts and the life of a command (10_contexts_and_scheduling): admission, readiness, the order of
R422, frogging, completion, commit, teardown, reports. Placement is in Place.lean, results in Run.lean. -/

namespace Sys2Proof.Machine

/-! ### Access -/

def State.cmd (s : State) (id : Nat) : Option Cmd := s.hw.disp.cmds.find? fun c => c.id == id
def Act.cmd (id : Nat) (f : Cmd → Cmd) : Act :=
  .disp fun d => { d with cmds := d.cmds.map fun c => if c.id = id then f c else c }
def State.ctx (s : State) (c : Nat) : CtxSt := alGet {} c s.hw.disp.ctxs
def Act.ctx (c : Nat) (f : CtxSt → CtxSt) : Act :=
  .disp fun d => { d with ctxs := alPut {} c (f (alGet {} c d.ctxs)) d.ctxs }
def State.eng (s : State) (p : Nat) : EngSt := s.hw.eng.getD p {}
def Act.eng (p : Nat) (f : EngSt → EngSt) : Act := .hw fun h => { h with eng := updAt f p h.eng }
def State.fce (s : State) (i : Nat) : FceSt := s.hw.fce.getD i {}
def Act.fce (i : Nat) (f : FceSt → FceSt) : Act := .hw fun h => { h with fce := updAt f i h.fce }
/-- Run with the command, when it is there. -/
def Act.withCmd (id : Nat) (k : Cmd → Act) : Act := .get fun s => match s.cmd id with
  | some c => k c
  | none => .nil

/-- Raise source 96 + k (R451). -/
def dispRaise (k : Nat) : Act := .raise .DISP 0 k

/-! ### Engines as the dispatcher sees them -/

/-- Physical engine that serves logical engine `l` (R674), none while it is unmapped. -/
def State.physOf (s : State) (l : Nat) : Option Nat :=
  let w := s.rd (Reg.DARN.ENG_MAP (l / 4))
  if w.getLsbD (8 * (l % 4) + 7) then some (bits w (8 * (l % 4) + 5) (8 * (l % 4))) else none

/-- Logical engine a physical engine serves, by the darning map. -/
def State.logicalOf (s : State) (p : Nat) : Option Nat := (List.range 32).find? fun l => s.physOf l == some p

/-- ENG_STATE.STATE (R161). -/
abbrev eOFF : Nat := 0
abbrev eIDLE : Nat := 1
abbrev eRUN : Nat := 2
abbrev eDRAIN : Nat := 3
abbrev eDIAG : Nat := 4
abbrev eFAULT : Nat := 5
abbrev eSPARE : Nat := 6
abbrev eRECOVER : Nat := 7
def State.engState (s : State) (p : Nat) : Nat := s.fld (Reg.ENG.ENG_STATE p) 3 0
def setEngState (p v : Nat) : Act := .setFld (Reg.ENG.ENG_STATE p) 3 0 v

/-- The command engine `p` runs. -/
def State.runningOn (s : State) (p : Nat) : Option Cmd := (s.eng p).cmd.bind s.cmd

/-- Is engine `p` free to take a command (R161)? -/
def State.engFree (s : State) (p : Nat) : Bool :=
  s.engState p == eIDLE && (s.eng p).cmd.isNone && s.bit (Reg.ENG.CTRL p) 0 && !s.bit (Reg.ENG.CTRL p) 1

/-- Physical engines of a list of logical ones. -/
def State.phys (s : State) (l : List Nat) : List Nat := l.filterMap s.physOf

/-- Physical engines command `c` may use. -/
def State.cmdEngines (s : State) (c : Cmd) : List Nat := s.phys (s.usable c.ctx c.cls c.desc)

/-! ### Waiting, for the interference reports (R447) -/

/-- Has context `c` a ready command for which `p` holds? -/
def State.readyIn (s : State) (c : Nat) (p : Cmd → Bool) : Bool :=
  s.hw.disp.cmds.any fun x => x.ctx == c && (x.phase == .ready || !x.lost.isEmpty) && onEngine (Desc.opcode x.desc) && p x

/-- R447: WAIT_SHARE's condition: every engine the command may use runs another context's class 0, 1 or 3 command. -/
def State.sharedOut (s : State) (x : Cmd) : Bool :=
  let es := s.cmdEngines x
  !es.isEmpty && es.all fun p => match s.runningOn p with
    | some y => y.ctx != x.ctx && y.cls != 2
    | none => false

/-- R447: WAIT_CLASS2's condition: an engine the command may use runs a class 2 command. -/
def State.class2Busy (s : State) (x : Cmd) : Bool :=
  (s.cmdEngines x).any fun p => match s.runningOn p with
    | some y => y.cls == 2
    | none => false

/-- Count the time since the last change of occupancy into the contexts' waiting (R447). Called before every change. -/
def accrue : Act := .get fun s =>
  let dt := s.now - s.hw.disp.accAt
  .seq (.disp fun d => { d with accAt := s.now }) <|
    .each (s.hw.disp.cmds.map (·.ctx)).dedup fun c =>
      let share := s.readyIn c s.sharedOut
      let two := s.readyIn c s.class2Busy
      .when ((share || two) && dt != 0) (.ctx c fun x => { x with
        waitShare := x.waitShare + (if share then dt else 0), waitClass2 := x.waitClass2 + (if two then dt else 0) })

/-- An engine is released by its command. -/
def releaseEng (p : Nat) : Act := .get fun s =>
  let st := s.engState p
  let mine := (s.eng p).diag = 1
  .all [.eng p fun e => { dummy := e.dummy, corr := e.corr, diag := if mine then 0 else e.diag, diagFrom := e.diagFrom,
                          idleSince := s.now },
        .when (st == eRUN || st == eDRAIN || st == eRECOVER || (st == eDIAG && decide mine)) (setEngState p eIDLE),
        .setFld (Reg.ENG.ENG_STATE p) 23 16 0]

/-- Everything a command occupies beside engines. -/
def releaseBlocks (id : Nat) : Act := .get fun s =>
  .all [.each ((List.range 4).filter fun i => (s.fce i).cmd == some id) (fun i =>
          let st := s.fld (Reg.FCE.FCE_STATE i) 3 0
          .all [.fce i fun f => { corr := f.corr, diag := if f.diag = 1 then 0 else f.diag, diagFrom := f.diagFrom,
                                  idleSince := s.now },
                .when (st == eRUN || st == eDRAIN || st == eRECOVER || (st == eDIAG && (s.fce i).diag == 1))
                  (.setFld (Reg.FCE.FCE_STATE i) 3 0 eIDLE),
                .setFld (Reg.FCE.FCE_STATE i) 23 16 0]),
        .hw fun h => { h with
          blk := { jpg := if h.blk.jpg = some id then none else h.blk.jpg,
                   aug := if h.blk.aug = some id then none else h.blk.aug }
          txt := { h.txt with tok := if h.txt.tok = some id then none else h.txt.tok,
                              detok := if h.txt.detok = some id then none else h.txt.detok } }]

/-- A remote wait of the command ends; its time counts in the interference report (R437, R447). -/
def closeWait (c : Cmd) : Act := .get fun s => match c.remote with
  | some t => .seq (.ctx c.ctx fun x => { x with remote := x.remote + (s.now - t) }) (.cmd c.id fun x => { x with remote := none })
  | none => .nil

/-- Release every engine and block a command holds. -/
def releaseAll (c : Cmd) : Act := .get fun s =>
  .all [accrue, closeWait c, .each (c.engines.filter fun p => (s.eng p).cmd == some c.id) releaseEng, releaseBlocks c.id]

/-! ### Virtual time (R423 to R425) -/

/-- R423: effective weight of context `c`. -/
def State.wEff (s : State) (c : Nat) : Nat :=
  max 1 (s.ctxShare c * s.fld (Reg.FUNC.QOS (s.ctxFunc c)) 15 0 / 256)

/-- R423: charge `t` ns to context `c`; v_c is 64 bits wide. -/
def chargeVt (c t : Nat) : Act := .get fun s =>
  .ctx c fun x => { x with vt := (x.vt + ceilDiv (t * 65536) (s.wEff c)) % 2 ^ 64 }

/-- Whom engine time is charged to (R424). -/
inductive Payer where
  | own | preemptor | nobody
  deriving DecidableEq, Repr

/-- R424: recovery time of engine `p`'s present dispatch. -/
def State.recoveryNs (s : State) (p : Nat) : Nat :=
  (s.eng p).recNs + (match (s.eng p).recFrom with
    | some t => s.now - t
    | none => 0)

/-- R424: charge the time since dispatch of the engines `es` to `who`; recovery time is charged to no context. -/
def chargeEngines (c : Cmd) (es : List Nat) (who : Payer) : Act := .get fun s =>
  let t := sumNat (es.map fun p => s.now - (s.eng p).start)
  match who with
  | .own =>
    let t := t - sumNat (es.map s.recoveryNs)
    .all [.cmd c.id fun x => { x with runNs := x.runNs + t }, chargeVt c.ctx t,
          .ctx c.ctx fun x => { x with run := x.run + t }]
  | .preemptor => .seq (match c.preemptor with
      | some p => chargeVt p t
      | none => .nil) (.ctx c.ctx fun x => { x with lostPreempt := x.lostPreempt + t })
  | .nobody => .ctx c.ctx fun x => { x with lostFault := x.lostFault + t }

/-- R424: charge the time since dispatch of the engines the command holds. -/
def chargeRun (c : Cmd) (who : Payer) : Act := .get fun s =>
  chargeEngines c (c.engines.filter fun p => (s.eng p).cmd == some c.id) who

/-- R425: a context that gains a ready command after it had none earns no credit for idle time. -/
def catchUp (c : Nat) : Act := .get fun s =>
  let busy := s.hw.disp.cmds.filter fun x => x.phase == .ready || x.phase == .running
  .when (!(busy.any fun x => x.ctx == c && x.phase == .ready)) <|
    match (busy.map fun x => (s.ctx x.ctx).vt) with
    | [] => .nil
    | v :: t => let m := t.foldl min v
                .ctx c fun x => { x with vt := max x.vt m }

/-! ### Reading profiles and latest commit times (R338, R341, R420) -/

/-- Address of reading profile `i`. -/
def State.profAddr (s : State) (i : Nat) : Nat := (s.rd Reg.DISP.PROFILE_BASE).toNat + 64 * i
def State.profStream (s : State) (i : Nat) : Nat := s.readN (s.profAddr i) 2
def State.profPolicy (s : State) (i : Nat) : Byte := s.byte (s.profAddr i + 2)
def State.profRole (s : State) (i : Nat) : Nat := bits (s.profPolicy i) 1 0
def State.profDecline (s : State) (i : Nat) : Nat := bits (s.profPolicy i) 3 2
def State.profStages (s : State) (i : Nat) : Nat := bits (s.byte (s.profAddr i + 3)) 3 0
def State.profFb (s : State) (i : Nat) : Nat := bits (s.byte (s.profAddr i + 3)) 7 4
/-- A time field of a profile, in ns. -/
def State.profTime (s : State) (i off : Nat) : Nat := s.readN (s.profAddr i + off) 4 * 1000
def State.stageBudget (s : State) (i j : Nat) : Nat := s.profTime i (16 + 4 * j)
def State.profConfMin (s : State) (i : Nat) : Nat := s.readN (s.profAddr i + 48) 4
def State.profSweep (s : State) (i : Nat) : Byte := s.byte (s.profAddr i + 52)
def State.profOut (s : State) (i : Nat) : Byte := s.byte (s.profAddr i + 53)
def State.profOutStream (s : State) (i : Nat) : Nat := s.readN (s.profAddr i + 54) 2 % 512
def State.profRing (s : State) (i : Nat) : Nat := s.readN (s.profAddr i + 56) 8
/-- A profile is valid: VALID is 1 and STAGES, FB_STAGE and ROLE lie in their ranges. -/
def State.profValid (s : State) (i : Nat) : Bool :=
  (s.profStream i).testBit 15 && decide (1 ≤ s.profStages i ∧ s.profStages i ≤ 8) &&
  decide (s.profFb i < s.profStages i) && s.profRole i != 3

/-- R341: the deadlines of a followed item. -/
def State.tDue (s : State) (x : MonItem) : Nat := x.stamp + s.profTime x.prof 4
def State.tEmit (s : State) (x : MonItem) : Nat := s.tDue x - s.profTime x.prof 8
def State.tSw (s : State) (x : MonItem) : Option Nat :=
  if s.profFb x.prof = 0 then none else some (s.tEmit x - s.profTime x.prof 12)

/-- The followed item with this identifier. -/
def State.monItem (s : State) (id : BitVec 48) : Option MonItem := s.hw.disp.items.find? fun x => x.id == id

/-- Sum of the budgets of the stages above `i`. -/
def State.budgetAbove (s : State) (prof i : Nat) : Nat :=
  sumNat (((List.range (s.profStages prof)).filter (i < ·)).map (s.stageBudget prof))

/-- The smaller of two optional times. -/
def minOpt : Option Nat → Option Nat → Option Nat
  | some a, some b => some (min a b)
  | a, none => a
  | none, b => b

/-- R420: the latest commit time of a command. -/
def State.lct (s : State) (c : Cmd) : Option Nat :=
  let a := if c.cls = 1 then c.input.bind fun u => (s.monItem u.item).map fun x =>
      if c.released then s.tEmit x else s.tEmit x - s.budgetAbove x.prof (Desc.stage c.desc)
    else none
  let b := if Desc.deadline c.desc = 0 then none
    else some ((match c.input with
      | some u => u.stamp.toNat
      | none => c.admitted) + Desc.deadline c.desc * 1000)
  minOpt a b

/-- R421: is the LCT of a command past? -/
def State.lctPassed (s : State) (c : Cmd) : Bool := match s.lct c with
  | some t => decide (t < s.now)
  | none => false

/-- R411: does the class of the command's input unit differ from its context's? -/
def State.classWrong (s : State) (c : Cmd) : Bool := match c.input with
  | some u => decide (u.cls.toNat ≠ s.ctxClass c.ctx)
  | none => false

/-- R190: the LCT of a request is the earliest of its parts'. -/
def State.siblings (s : State) (c : Cmd) : List Cmd :=
  if Desc.splitId c.desc = 0 then [c]
  else s.hw.disp.cmds.filter fun x => x.ctx == c.ctx && Desc.splitId x.desc == Desc.splitId c.desc

/-- Is the command part of a split request (R443)? -/
def Cmd.split (c : Cmd) : Bool := Desc.splitId c.desc != 0 || decide (1 < Desc.engCnt c.desc)

/-! ### Completions (R403, R413) -/

/-- Entries in the completion ring of context `c` that the host has not consumed. -/
def State.cqUsed (s : State) (c : Nat) : Nat := (s.ctxCqTail c + 2 ^ 32 - (s.ctx c).cqHead) % 2 ^ 32

/-- R403: may `n` entries be written? -/
def State.cqRoom (s : State) (c n : Nat) : Bool := decide (s.cqUsed c + n ≤ 2 ^ s.ctxCqLog2 c - 1)

/-- R413: the 16 bytes of a completion entry. -/
def CqEntry.toBytes (e : CqEntry) (phase : Bool) : List Byte :=
  leBytes 2 e.tag ++
  leBytes 1 (e.status + 8 * min e.wide 3 + 32 * b2n e.declined + 64 * b2n e.late + 128 * b2n phase) ++
  leBytes 1 e.detail ++ leBytes 2 (min e.clip 65535) ++ leBytes 2 e.part ++ leBytes 4 (min e.run 4294967295) ++
  leBytes 3 (min e.wait 16777215) ++ leBytes 1 (min e.frogs 255)

/-- R403, R413: write the next completion entry of context `c`. -/
def writeEntry (c : Nat) (e : CqEntry) : Act := .get fun s =>
  let j := s.ctxCqTail c
  let n := 2 ^ s.ctxCqLog2 c
  .all [.guarded (s.ctxClass c) (s.ctxCqAddr c + 16 * (j % n)) (e.toBytes (decide (j / n % 2 = 0))),
        .mem (s.ctxAddr c + 28) 4 (j + 1),
        .when e.irq (.completionEvent (s.ctxFunc c) (s.ctxVector c))]

/-- R189: CLIP_FRAC. -/
def clipFrac (c d : Nat) : Nat := if d = 0 then 0 else min (c * 65536 / d) 65535

/-- The completion entry of a command. -/
def State.entryOf (s : State) (c : Cmd) (status detail part : Nat) (committed : Bool) : CqEntry :=
  { tag := Desc.tag c.desc, status := status, wide := c.step, declined := c.declined, late := committed && c.late,
    detail := detail, clip := if committed then clipFrac c.clips c.den else 0, part := part, run := c.runNs / 16,
    wait := (c.issued.getD s.now - c.admitted) / 16, frogs := c.frogs, irq := Desc.irq c.desc }

/-- Units can be published on their streams now: each ring has room for all of them, or names no valid record. -/
def State.roomFor (s : State) (l : List StagedUnit) : Bool :=
  l.all fun x =>
    let r := s.streamRec x.stream
    let n := (l.filter fun y => y.stream == x.stream).length
    !r.valid || decide (n + (r.tail + r.slots - r.head) % max r.slots 1 ≤ r.slots - 1)

/-- Publish output units; a stream without a valid record takes none (R756). -/
def publishAll (l : List StagedUnit) : Act := .each l fun x => .get fun s =>
  .when (s.streamRec x.stream).valid (.publish x.stream x.unit)

/-- Free an input slot, and tell those who wait for one. -/
def freeInput (slot : Option (Nat × Nat)) : Act := match slot with
  | some (n, i) => .seq (.freeSlot n i) (.event (.slotFree n))
  | none => .nil

/-- R403, R756: report commands that ended, in the order they ended, as far as their units and the ring allow. -/
def drainWaiting (c : Nat) : Nat → Act
  | 0 => .nil
  | k + 1 => .get fun s => match (s.ctx c).waiting with
    | [] => .nil
    | e :: t =>
      .when (s.cqRoom c 1 && s.roomFor e.units) <| .all
        [publishAll e.units, freeInput e.slot, writeEntry c e.entry, .ctx c fun x => { x with waiting := t },
         drainWaiting c k]

/-- Report what waits in context `c`. -/
def drainCtx (c : Nat) : Act := .get fun s => drainWaiting c (s.ctx c).waiting.length

/-- R400: a stopping context whose last admitted command has completed becomes STOPPED. -/
def stopCheck (c : Nat) : Act := .get fun s =>
  .when ((s.ctx c).stopping && !(s.hw.disp.cmds.any fun x => x.ctx == c))
    (.seq (.ctxState c 1) (.ctx c fun x => { x with stopping := false }))

/-- R756: the zero-length unit of a command that ends without commit. -/
def State.errorUnit (s : State) (c : Cmd) : List StagedUnit := match c.input with
  | some u =>
    let n := Desc.outStream c.desc
    let r := s.streamRec n
    if r.valid then
      [{ stream := n, unit := unitWith u.stamp.toNat u.item r.cls c.ctx (if u.fmt = 0x40 then 0x04 else u.fmt.toNat) 96
          (u.passed ||| flagsOf ([fINVALID] ++ (if u.has fLAST then [fLAST] else []))) [] }]
    else []
  | none => []

/-- Statuses (R413). -/
abbrev stOK : Nat := 0
abbrev stEMPTY : Nat := 1
abbrev stPARTIAL : Nat := 2
abbrev stFROGGED : Nat := 3
abbrev stFALLBACK : Nat := 4
abbrev stFAULT : Nat := 5
abbrev stABORTED : Nat := 6
abbrev stTIMEOUT : Nat := 7

/-- Remove a command from the dispatcher. -/
def dropCmd (id : Nat) : Act := .disp fun d => { d with cmds := d.cmds.filter fun c => c.id != id }

/-- A command ends without commit, with status and DETAIL, and emits `units`. -/
def endCmdWith (id status detail part : Nat) (units : State → Cmd → List StagedUnit) (who : Payer := .own) : Act :=
  .withCmd id fun c0 => .seq (chargeRun c0 who) <| .withCmd id fun c => .get fun s => .all
    [releaseAll c, dropCmd id,
     .wrN Reg.DISP.LAST_ERR (c.ctx + 256 * detail + 65536 * Desc.opcode c.desc),
     .ctx c.ctx fun x => { x with waiting := x.waiting ++ [
       { entry := s.entryOf c status detail part false, units := units s c, slot := c.inSlot }] },
     .event (.ended c status detail false),
     drainCtx c.ctx, stopCheck c.ctx]

/-- A command ends without commit; `emit`: its rule has it emit the unit of R756. -/
def endCmd (id status detail part : Nat) (emit : Bool) (who : Payer := .own) : Act :=
  endCmdWith id status detail part (fun s c => if emit then s.errorUnit c else []) who

/-- R445: end a whole request: the failing part with its own cause, the others ABORTED with DETAIL 0x45. -/
def endRequest (id status detail part : Nat) (emit : Bool) (who : Payer := .own) : Act := .withCmd id fun c => .get fun s =>
  let sib := s.siblings c
  let idx := (sib.map (·.id)).idxOf id
  .each sib fun x => if x.id = id then endCmd id status detail part emit who else endCmd x.id stABORTED 0x45 idx false who

/-! ### Readiness (R405, R422) -/

/-- R346, R405: an admitted command whose input is there and which is not parked becomes ready. -/
def settle (id : Nat) : Act := .withCmd id fun c => .get fun s =>
  let has := Desc.inStream c.desc = 0xFFF ∨ c.input.isSome
  .when (c.phase == .admitted && decide has && (!c.parked || c.released)) <| .all
    [accrue, catchUp c.ctx, .cmd id fun x => { x with phase := .ready, readyAt := s.now }]

/-- R405, R43 to R47: the dispatcher receives the oldest unit of local stream `n` that no command has consumed. -/
def receiveNext (n : Nat) : Nat → Act
  | 0 => .nil
  | k + 1 => .get fun s =>
    .when ((s.streamSt n).queue.isEmpty && s.hasUnit n) <|
      let r := s.streamRec n
      let i := (s.streamSt n).take % max r.slots 1
      .seq (.stream n fun x => { x with take := nextSlot i r.slots }) <|
        .receive .DISP 0 (s.unitAt n i) r.cls fun l =>
          match l.reverse with
          | [] => .all [.freeSlot n i, .event (.slotFree n), receiveNext n k]
          | v :: extra => .seq
              (.stream n fun x => { x with queue := x.queue ++ (extra.reverse.map fun u => (u, none)) ++ [(v, some i)] })
              (.each (l.filter fun u => u.has fINVALID) fun u => .event (.seen n u))

/-- R405: command `id` takes its input unit, if one is there. -/
def takeInput (id : Nat) : Act := .withCmd id fun c => .get fun s =>
  match s.localStream (BitVec.ofNat 12 (Desc.inStream c.desc)) with
  | none => .nil
  | some n =>
    .when (Desc.inStream c.desc != 0xFFF && c.input.isNone) <|
      .seq (receiveNext n (s.streamRec n).slots) <| .get fun s =>
        match (s.streamSt n).queue with
        | [] => .nil
        | (u, i) :: t =>
          .seq (.stream n fun x => { x with queue := t })
               (.cmd id fun x => { x with input := some u, inSlot := i.map fun j => (n, j) })

/-- Commands waiting for a unit of local stream `n`, earliest first. -/
def State.waiters (s : State) (n : Nat) : List Nat :=
  (s.hw.disp.cmds.filter fun c => c.phase == .admitted && c.input.isNone && Desc.inStream c.desc != 0xFFF &&
    s.localStream (BitVec.ofNat 12 (Desc.inStream c.desc)) == some n).map (·.id)

/-- A unit was committed on local stream `n`: the earliest command that waits for one takes it (R405). -/
def feedStream (n : Nat) : Act := .get fun s =>
  match s.waiters n with
  | [] => .nil
  | id :: _ => .seq (takeInput id) (settle id)

/-! ### Admission (R402, R410, R412, R429) -/

/-- R431: at a step boundary of context `c` the removed items' sequences leave it. -/
def stepBoundary (c : Nat) : Act := .seq
  (.disp fun d => { d with removed := d.removed.map fun (i, l) => (i, if l.contains c then l else c :: l)
                           steps := d.steps.filter fun x => x.1 != c })
  (.event (.boundary c))

/-- R402: is either limit of admitted commands reached for context `c` with `n` more commands? -/
def State.admitLimit (s : State) (c n : Nat) : Bool :=
  decide (64 < (s.hw.disp.cmds.filter fun x => x.ctx == c).length + n) || decide (2048 < s.hw.disp.cmds.length + n)

/-- R401, R402: has context `c` a descriptor to admit? -/
def State.mayAdmit (s : State) (c : Nat) : Bool :=
  s.bit Reg.DISP.DISP_CTRL 0 && !s.hw.boot.frozen && s.ctxState c == 2 && !(s.ctx c).stopping &&
  decide (s.ctxSqHead c ≠ (s.ctx c).tail)

/-- Admit one descriptor: SQ_HEAD advances, the command takes its input unit if one is there, a refused descriptor
completes FAULT with DETAIL 0x47 (R410), and `k` runs for a command that is not refused. -/
def admitOne (c : Nat) (d : BitVec 512) (k : Nat → Act) : Act := .get fun s =>
  let id := s.hw.disp.nextId
  .all [.mem (s.ctxAddr c + 24) 4 (s.ctxSqHead c + 1),
        .ctx c fun x => { x with limited := false },
        .disp fun x => { x with nextId := id + 1, cmds := x.cmds ++ [
          { id := id, ctx := c, desc := d, cls := s.ctxClass c, admitted := s.now, parked := Desc.itemGate d,
            empty := sizeZero d,
            noVocab := [0x08, 0x09, 0x0A].contains (Desc.opcode d) && !s.bit Reg.TXT.TXT_STATUS 0 }] },
        .when (Desc.stepStart d) (stepBoundary c),
        takeInput id,
        .get fun t =>
          if t.descRefused c d then .seq (.bump Reg.DISP.DESC_ERR 1) (endCmd id stFAULT 0x47 0xFFFF true)
          else .seq (k id) (settle id)]

/-- The descriptor a row admits: its OPCODE field is the row's opcode (log 1). One whose OPCODE is reserved (R407) stays as
it lies in the ring, and R410 refuses it. -/
def Desc.ofRow (op : Nat) (d : BitVec 512) : BitVec 512 :=
  match opUse (Desc.opcode d) with
  | none => d
  | some _ => setBits d 7 0 op

/-- Admit the next descriptor of context `c`, as far as R402 allows. `op` is the row's opcode. -/
def admitAct (op c : Nat) (d : BitVec 512) (k : Nat → Act) : Act := .get fun s =>
  .when (s.mayAdmit c) <|
    if s.admitLimit c 1 then
      .when (!(s.ctx c).limited) (.seq (.ctx c fun x => { x with limited := true }) (dispRaise 9))
    else admitOne c (Desc.ofRow op d) k

/-! ### Frogging (R435, R436, R444) -/

/-- R435: one command is frogged: uncommitted effects discarded, back to ready. -/
def frogOne (id detail part : Nat) (who : Payer) (counts : Bool) : Act := .withCmd id fun c => .get fun s => .all
  [chargeRun c who, releaseAll c, catchUp c.ctx,
   .cmd id fun x => { x with
     phase := .ready, readyAt := s.now, engines := [], parts := [], lost := [], outs := [], mems := [], stamps := [],
     frogs := x.frogs + 1, frogsC := x.frogsC + b2n counts, detail := detail, part := part, gen := x.gen + 1,
     remote := none, toCheap := none, saving := none, saved := [], restoring := [], preemptor := none, rerun := [],
     partials := [], arrived := false, computed := false, reasons := [] },
   .bump Reg.DISP.FROG_CNT 1]

/-- R436: causes that count towards FROG_MAX. -/
def frogCounts (detail : Nat) : Bool := detail == 0x40 || detail == 0x41 || detail == 0x42 || detail == 0x44

/-- R424: who pays for a frog of this cause. -/
def frogPayer (detail : Nat) : Payer :=
  if detail = 0x43 ∨ detail = 0x4C then .preemptor else if detail = 0x44 then .own else .nobody

/-- Frog a command for a cause: at its limit it ends (R436); a split request is frogged whole (R444). -/
def frogAct (id detail part : Nat) : Act := .withCmd id fun c => .get fun s =>
  let sib := s.siblings c
  let idx := (sib.map (·.id)).idxOf id
  let counts := frogCounts detail
  if counts && decide (s.fld Reg.DISP.FROG_MAX 3 0 ≤ c.frogsC) then
    .seq (endRequest id (if detail = 0x44 then stTIMEOUT else stFAULT) 0x4D part false (frogPayer detail)) (dispRaise 3)
  else if counts && c.split then
    .seq (.each sib fun x =>
            if x.id = id then frogOne id detail part (frogPayer detail) true
            else .when (x.phase == .running || x.phase == .staged) (frogOne x.id 0x45 idx (frogPayer detail) false))
         (dispRaise 6)
  else frogOne id detail part (frogPayer detail) counts

/-! ### Commit (R414, R418, R444) -/

/-- R414: the status of a committed command. -/
def Cmd.status (c : Cmd) : Nat :=
  if c.empty then stEMPTY else if c.released then stFALLBACK else if 0 < c.frogs then stFROGGED
  else if c.outs.any fun x => x.unit.has fPARTIAL then stPARTIAL else stOK

/-- DETAIL and PART of a committed command: the first refused entry (R285, R327), else the last frog's cause (R415). -/
def Cmd.detailPart (c : Cmd) : Nat × Nat :=
  match (c.seqs.filter fun x => x.reason != 0).map (fun x => (x.reason, x.idx)) ++ c.reasons.map (fun x => (x.2, x.1)) with
  | x :: _ => x
  | [] => if 0 < c.frogs then (c.detail, c.part) else (0, 0xFFFF)

/-- R197, R414, R435, R517: the flags commit adds to every output unit. -/
def Cmd.decorate (c : Cmd) (u : DUnit) : DUnit :=
  let u := if c.invalid then u.set fINVALID else u
  let u := if 0 < c.frogs then u.set fFROGGED else u
  let u := if c.released then u.set fFALLBACK else u
  if 0 < c.step then u.set fWIDE else u

/-- R404: space of a slot. A unit whose bytes do not fit its slot is not written past it: the driver must size slots. -/
def Cmd.finalOuts (c : Cmd) : List StagedUnit := c.outs.map fun x => { x with unit := c.decorate x.unit }

/-- R418: commit one staged command. -/
def commitOne (c : Cmd) : Act := .get fun s =>
  let (detail, part) := c.detailPart
  .all [.each c.stamps fun a => .guarded c.cls a (leBytes 8 s.now),
        .each c.mems fun m => .guarded c.cls m.1 m.2,
        publishAll c.finalOuts,
        freeInput c.inSlot,
        .when c.late (.seq (.bump Reg.DISP.LATE_CNT 1) (dispRaise 4)),
        releaseAll c, dropCmd c.id,
        .ctx c.ctx fun x => { x with commands := x.commands + 1 },
        writeEntry c.ctx (s.entryOf c c.status detail part true),
        .event (.ended { c with outs := c.finalOuts } c.status detail true),
        stopCheck c.ctx]

/-- R444: all the parts of a request are staged. -/
def State.requestStaged (s : State) (c : Cmd) : Bool :=
  let sib := s.siblings c
  decide (Desc.splitN c.desc + 1 ≤ sib.length) && sib.all fun x => x.phase == .staged

/-- COMMIT (R418): the request commits when every part is staged and the completion and output rings have room. The time it has
waited for room counts towards its LCT (R403, R448). A NaN that one part met marks the units of all (R187). -/
def commitAct (id : Nat) : Act := .withCmd id fun c => .get fun s =>
  let sib := s.siblings c
  let nan := sib.any fun x => decide (0 < x.nans)
  .when (s.requestStaged c && !s.hw.boot.frozen && (s.ctx c.ctx).waiting.isEmpty && s.cqRoom c.ctx sib.length &&
      s.roomFor (sib.flatMap (·.finalOuts))) <|
    match sib.find? fun x => s.lctPassed x && Desc.dlAbort x.desc with
    | some x => endRequest x.id stTIMEOUT 0x4A 0xFFFF true
    | none => .each sib fun x => commitOne { x with invalid := x.invalid || nan, late := x.late || s.lctPassed x }

/-- LCT_EXPIRY (R421). -/
def lctExpiryAct (id : Nat) : Act := .withCmd id fun c => .get fun s =>
  match s.lct c with
  | some t => .when (Desc.dlAbort c.desc && decide (t ≤ s.now)) (endRequest id stTIMEOUT 0x4A 0xFFFF true)
  | none => .nil

/-! ### Context commands (R400, R446) -/

/-- CTX_RESULT. -/
def ctxResult (ok : Bool) (reason : Nat) : Act := .wrN Reg.DISP.CTX_RESULT (1 + 2 * b2n ok + 256 * reason)

/-- R400: the reason START is refused for, 0 when it is accepted. -/
def State.startReason (s : State) (c : Nat) : Nat :=
  let st := s.ctxState c
  let lg (x : Nat) : Bool := decide (4 ≤ x ∧ x ≤ 16)
  if st ≠ 0 ∧ st ≠ 1 then 2
  else if !lg (s.ctxSqLog2 c) || !lg (s.ctxCqLog2 c) || decide (s.ctxSqAddr c % 64 ≠ 0) || decide (s.ctxCqAddr c % 64 ≠ 0) ||
      decide (s.ctxSaveAddr c % 4096 ≠ 0) || decide (s.ctxLiveAddr c % 64 ≠ 0) || decide (s.ctxReportAddr c % 64 ≠ 0) ||
      s.ctxShare c == 0 || s.ctxEngMask c == 0 then 1
  else if s.ctxClass c = 2 ∧ s.ctxEngMask c &&& (s.rd Reg.DISP.CLASS2_ENG).toNat ≠ s.ctxEngMask c then 3
  else 0

/-- CTX_START (R400, R423): a context started from FREE begins with empty rings. -/
def ctxStartAct (c : Nat) : Act := .get fun s =>
  let r := s.startReason c
  if r = 0 then
    .all [.ctxState c 2,
          .ctx c fun x => { tail := if s.ctxState c = 0 then s.ctxSqHead c else x.tail
                            cqHead := if s.ctxState c = 0 then s.ctxCqTail c else x.cqHead
                            waiting := x.waiting, tStart := s.now },
          ctxResult true 0]
  else ctxResult false r

/-- CTX_STOP (R400). -/
def ctxStopAct (c : Nat) : Act := .get fun s =>
  .all [.when (s.ctxState c == 2) (.ctx c fun x => { x with stopping := true }), stopCheck c, ctxResult true 0]

/-- R446: a command stopped by a teardown: no completion entry, its input slot freed, the monitor told. -/
def stopCmd (id detail : Nat) : Act := .withCmd id fun c => .all
  [chargeRun c .own, releaseAll c, dropCmd id, freeInput c.inSlot, .event (.ended c stABORTED detail false)]

/-- R446: tear context `c` down. -/
def teardown (c : Nat) : Act := .get fun s => .all
  [.ctxState c 3, .each ((s.hw.disp.cmds.filter fun x => x.ctx == c).map (·.id)) fun id => stopCmd id 0x49,
   .each (s.ctx c).waiting (fun x => freeInput x.slot),
   .ctx c fun x => { x with waiting := [], stopping := false }, .event (.ctxDown c)]

/-- CTX_TEARDOWN (R400, R446). -/
def ctxTeardownAct (c : Nat) : Act := .get fun s =>
  .seq (.when (s.ctxState c == 1 || s.ctxState c == 2) (teardown c)) (ctxResult true 0)

/-- TEARDOWN_COMPLETE (R446, R484: CTX_TORN at the context's function). -/
def teardownCompleteAct (c : Nat) : Act := .get fun s =>
  .when (s.ctxState c == 3)
    (.all [.ctxState c 0, .disp fun d => { d with ctxs := alPut {} c {} d.ctxs }, dispRaise 5, .notice (s.ctxFunc c) 4])

/-! ### Interference reports (R447) -/

/-- Time in units of 16 ns, saturating. -/
def units16 (t : Nat) : Nat := min (t / 16) 4294967295

/-- R447: write the report of context `c` and start its next period. STALL is not observable by commands: open. -/
def writeReport (c : Nat) : Act := .get fun s =>
  let x := s.ctx c
  .when (s.ctxState c == 2 && s.ctxReportAddr c != 0) <| .fresh fun k =>
    let stall := (openWord k 0).toNat
    let v := [units16 x.run, units16 x.waitShare, units16 x.waitClass2, units16 x.lostPreempt, units16 x.lostFault, stall,
              units16 x.remote]
    let slow := if v.headD 0 = 0 then 4294967295 else min (sumNat v * 65536 / v.headD 0) 4294967295
    .seq (.guarded (s.ctxClass c) (s.ctxReportAddr c) (leBytes 8 x.tStart ++ leBytes 8 s.now ++ leBytes 4 (min x.commands 4294967295) ++
            v.flatMap (leBytes 4) ++ leBytes 4 slow ++ leBytes 1 c ++ List.replicate 11 0))
         (.ctx c fun y => { vt := y.vt, tail := y.tail, cqHead := y.cqHead, stopping := y.stopping, limited := y.limited,
                            waiting := y.waiting, tStart := s.now })

/-- CTX_REPORT and REPORT_PERIOD_EXPIRY (R447). -/
def reportsAct : Act := .get fun s =>
  .when (s.bit Reg.DISP.DISP_CTRL 3) (.seq accrue (.each (List.range 256) writeReport))

/-! ### Doorbells (R401, R679) -/

/-- R401: may function `f` ring context `c`? -/
def State.mayRing (s : State) (f c : Nat) : Bool := s.ctxFunc c == f && s.ctxState c == 2

/-- SUBMISSION_DOORBELL. -/
def submissionDoorbellAct (f c : Nat) (v : Word) : Act := .get fun s =>
  if !s.mayRing f c then .logAcc .FUNC f f (0x40 * c) 6
  else if 2 ^ s.ctxSqLog2 c < (v.toNat + 2 ^ 32 - s.ctxSqHead c) % 2 ^ 32 then dispRaise 0
  else .ctx c fun x => { x with tail := v.toNat }

/-- COMPLETION_DOORBELL. -/
def completionDoorbellAct (f c : Nat) (v : Word) : Act := .get fun s =>
  if !s.mayRing f c then .logAcc .FUNC f f (0x40 * c + 4) 6
  else .seq (.ctx c fun x => { x with cqHead := v.toNat }) (drainCtx c)

/-! ### Registers of the DISP page (R449, R450) -/

def dispDrops (s : State) (off : Nat) : Bool :=
  (off == 0x048 || off == 0x04C || off == 0x050) && s.bit Reg.DISP.DISP_CTRL 0

/-- CTX_CMD written (R400). -/
def ctxCmdAct (v : Word) : Act :=
  let c := bits v 15 8
  match bits v 3 0 with
  | 1 => ctxStartAct c
  | 2 => ctxStopAct c
  | 3 => ctxTeardownAct c
  | 4 => .seq reportsAct (ctxResult true 0)
  | _ => ctxResult false 4

def dispWrite (off : Nat) (v : Word) : Act := if off = 0x070 then ctxCmdAct v else .nil

def dispComputed (s : State) (off : Nat) : Option Word :=
  if off = 0x044 then
    some (BitVec.ofNat 32 (min s.hw.disp.cmds.length 4095 +
      4096 * min (s.hw.disp.cmds.filter fun c => c.phase == .running).length 63 +
      262144 * min s.hw.disp.items.length 8191))
  else none

/-! ### Function Level Resets (R458 to R462) -/

/-- Return the registers of FUNC[f] from offset 0x040 on to their reset values, QOS and the access log apart (R458). -/
def resetFunc (f : Nat) (qos : Bool) : Act :=
  let base := (Reg.FUNC.QOS f).key - 0x044
  .upd (.resetRegs fun a => decide (base + 0x040 ≤ a ∧ a < base + 0x1000) && (qos || a != base + 0x044))

/-- R458: a Function Level Reset of VF `f`; the contexts of `f` are FREE when it completes. -/
def vfFlrAct (f : Nat) : Act := .get fun s =>
  let mine := (List.range 256).filter fun c => s.ctxFunc c == f && (s.ctxState c == 1 || s.ctxState c == 2)
  let srcs := (List.range 1024).filter fun n => (s.target n).1 == f
  .all [.each mine teardown, .each ((List.range 256).filter fun c => s.ctxFunc c == f) teardownCompleteAct,
        .gath fun g => { g with edge := srcs.foldl (fun e n => putBit e n false) g.edge
                                soft := srcs.foldl (fun e n => putBit e n false) g.soft },
        clearTargets f,
        resetFunc f false,
        .gath fun g => { g with msix := g.msix.filter fun e => e.1 / 64 != f
                                pba := (List.range 64).foldl (fun b v => putBit b (64 * f + v) false) g.pba },
        .fn f fun _ => {},
        .notice 0 1, .wrN (Reg.FUNC.FLR_LAST 0) f]

/-- R461: as a Function Level Reset of every enabled VF. -/
def allVfFlr : Act := .get fun s => .each ((List.range 32).filter fun f => f != 0 && s.fnEnabled f) vfFlrAct

/-- VF_ENABLE_CLEAR (R461, R677). -/
def vfEnableClearAct : Act := .all [allVfFlr, .wr Reg.HOST.VF_ENABLED 0, .setFld Reg.HOST.SRIOV_STATUS 0 0 0]

/-- PF_FLR (R461). -/
def pfFlrAct : Act := .get fun s =>
  let mine := (List.range 256).filter fun c => s.ctxFunc c == 0 && (s.ctxState c == 1 || s.ctxState c == 2)
  .all [allVfFlr, .each mine teardown, .each ((List.range 256).filter fun c => s.ctxFunc c == 0) teardownCompleteAct,
        resetFunc 0 true,
        .gath fun g => { g with edge := 0, soft := 0, insvc := [], chans := g.chans.filter fun e => e.1 / 64 != 0,
                                expired := g.expired.filter fun e => e / 64 != 0,
                                heldMsg := g.heldMsg.filter fun e => e.1 != 0 },
        .each (List.range 4) fun g => .each (List.range 8) fun w => .wrN (Reg.GATH.SRC_MASK g w) 4294967295]

end Sys2Proof.Machine
end

