-- ==== Sys2Proof/Machine/Image.lean ====
section
/-! DEFINITION. Image operators (05_image_operators): the zero-run format, feature maps, convolution and swatches,
crop-and-resize, channel argmax, the augmentation generator; and SAMPLE (R407, R326). -/

namespace Sys2Proof.Machine

/-! ### Zero-run format (R217 to R222) -/

/-- R217: formats allowed as INNER. -/
def zrunInner (c : Nat) : Bool := decide (1 ≤ c ∧ c ≤ 6) || c == 0x10 || c == 0x11 || c == 0x20

/-- R218: expand the codes; `none` where a code runs past the payload. -/
def zrunCodes (w z : Nat) : Nat → List Byte → Option (List Nat)
  | 0, _ => some []
  | _ + 1, [] => some []
  | k + 1, b :: t =>
    let n := b.toNat % 128 + 1
    if 128 ≤ b.toNat then (zrunCodes w z k t).map fun r => List.replicate n z ++ r
    else
      let len := packedBytes w n
      if t.length < len then none
      else (zrunCodes w z k (t.drop len)).map fun r => unpack w n (t.take len) ++ r

/-- R217 to R222: expand a payload of format 0x40: inner format and element codes. -/
def zrunExpand (l : List Byte) : Option (Nat × List Nat) :=
  let inner := leAt l 0 1
  let w := fmtWidth inner
  let z := leAt l 2 2
  let count := leAt l 4 4
  if l.length < 8 ∨ !zrunInner inner ∨ count = 0 ∨ (z ≠ 0 ∧ (fmtFloat inner).isSome) then none
  else match zrunCodes w (z % 2 ^ w) l.length (l.drop 8) with
    | some c => if c.length = count then some (inner, c) else none
    | none => none

/-- R219: the maximal stretches of a list: (is a run of two or more zero codes, elements). -/
def zrunRuns (z : Nat) : List Nat → List (Bool × List Nat)
  | [] => []
  | [a] => [(false, [a])]
  | a :: b :: t =>
    let rest := zrunRuns z (b :: t)
    if a = z ∧ b = z then
      match rest with
      | (true, l) :: r => (true, a :: l) :: r
      | (false, l) :: r => (true, [a, b]) :: (if l.length ≤ 1 then r else (false, l.drop 1) :: r)
      | [] => [(false, [a])]
    else match rest with
      | (false, l) :: r => (false, a :: l) :: r
      | r => (false, [a]) :: r

/-- R219: the codes of one stretch. -/
def zrunEmit (w : Nat) (r : Bool × List Nat) : List Byte :=
  (chunks 128 r.2).flatMap fun c =>
    if r.1 then [BitVec.ofNat 8 (128 + c.length - 1)] else BitVec.ofNat 8 (c.length - 1) :: pack w c

/-- R217, R219: a payload in format 0x40. -/
def zrunEncode (inner z : Nat) (codes : List Nat) : List Byte :=
  leBytes 1 inner ++ [0] ++ leBytes 2 z ++ leBytes 4 codes.length ++
    (zrunRuns z codes).flatMap (zrunEmit (fmtWidth inner))

/-- R221, R222: the unit a command that expands zero runs computes with: expanded, or the substitute of R45. -/
def expandUnit (u : DUnit) : DUnit :=
  if u.fmt.toNat = 0x40 then match zrunExpand u.payload with
    | some (inner, c) => { u with fmt := BitVec.ofNat 8 inner, payload := pack (fmtWidth inner) c }
    | none => u.substitute
  else u

/-- R220: an output payload, compressed when the command asks for it and it is then shorter. -/
def zrunOutput (want : Bool) (fmt : Nat) (zp : Int) (payload : List Byte) : Nat × List Byte × Bool :=
  if want && zrunInner fmt then
    let w := fmtWidth fmt
    let z := if (fmtFloat fmt).isSome then 0 else uns w zp
    let e := zrunEncode fmt z (unpack w (payload.length * 8 / w) payload)
    if e.length < payload.length then (0x40, e, true) else (fmt, payload, false)
  else (fmt, payload, false)

/-! ### Weights, scales and biases in memory (R172, R187) -/

/-- An FP32 table value; an infinity becomes the largest finite value with one clip, a NaN zero (R187). -/
def tableVal (w : Nat) : Dy × Nat × Nat := cleanVal fFP32.largest (f32 w)

/-- Zero points of the weight rows (R172); none without a table or for float formats. -/
def State.weightZps (s : State) (q : QRec) (m k : Nat) : List Int :=
  if q.wsAddr = 0 ∨ !fmtInt q.wFmt then []
  else
    let o := zpOffset m (tableGroups q.group k)
    (List.range m).map fun i => zpVal q.wFmt (s.byte (q.wsAddr + o + i))

/-- Weight row `i` of `m`, `k` elements long, at `addr`; open values from `fr` on stand for a source tensor whose
format the manual does not name (WSCALE 1). -/
def State.weightRow (s : State) (q : QRec) (p : QPar) (addr m k i fr : Nat) : QVec :=
  if p.wdyn then
    quantise (signedFmt p.wFmt) (if p.group ≠ 0 then 3 else 2) (groupLen p.group k) 0 {} (Dy.ofInt 1) fr
      ((List.range k).map fun j => f32 (Config.freeValue fr (i * k + j)).toNat)
  else
    let g := tableGroups p.group k
    let sc := if q.wsAddr = 0 then []
      else (List.range g).map fun j => tableVal (s.readN (q.wsAddr + 4 * (i * g + j)) 4)
    let zp := (s.weightZps q m k).getD i 0
    let rb := rowBytes p.wFmt k
    let v := asStored p.wFmt zp (if q.wsAddr = 0 then [Dy.ofInt 1] else sc.map (·.1))
      (rowCodes p.wFmt k (s.read (addr + i * rb) rb))
    { v with clips := v.clips + sumNat (sc.map (·.2.1)), nans := v.nans + sumNat (sc.map (·.2.2)) }

/-- Bias of row `i` (R171 B_FMT, R187), with its clip and NaN. -/
def State.biasOf (s : State) (q : QRec) (addr i : Nat) : Bias × Nat × Nat :=
  if q.bFmt = 0x13 then (.int (sgn 32 (s.readN (addr + 4 * i) 4)), 0, 0)
  else if q.bFmt = 0 then (.none, 0, 0)
  else
    let w := fmtWidth q.bFmt / 8
    let (d, c, n) := cleanVal (fmtLargest q.bFmt) (elemVal q.bFmt (s.readN (addr + w * i) w))
    (.flt d, c, n)

/-- All weight rows and biases of a product, with the clips and NaNs of the biases put on the rows. -/
def State.weights (s : State) (q : QRec) (p : QPar) (addr bias m k from_ n fr : Nat) : List QVec × List Bias :=
  let l := (List.range n).map fun j =>
    let i := from_ + j
    let v := s.weightRow q p addr m k i fr
    let (b, c, x) := s.biasOf q bias i
    ({ v with clips := v.clips + c, nans := v.nans + x }, b)
  (l.map (·.1), l.map (·.2))

/-! ### What a run of a command produces -/

/-- Everything a run of a command produces. -/
structure RunOut where
  outs  : List StagedUnit := []
  mems  : List (Nat × List Byte) := []
  /-- R257: where the commit writes its TSC. -/
  stamps : List Nat := []
  clips : Nat := 0
  /-- R188, R427: the clips of each engine of the placement. -/
  shares : List Nat := []
  den   : Nat := 0
  /-- R190: the parts of clips and den that count once for each input unit. -/
  once  : Nat × Nat := (0, 0)
  nans  : Nat := 0
  seqs  : List SeqPart := []
  reasons : List (Nat × Nat) := []
  swatch : Option Swatch := none
  deriving DecidableEq, Repr

/-- Header of an output unit of command `c` (R30, R48): from its input unit, or from its admission. -/
def State.outUnit (s : State) (c : Cmd) (fmt source : Nat) (flags : BitVec 16) (payload : List Byte) : StagedUnit :=
  let n := Desc.outStream c.desc
  let cls := (s.streamRec n).cls
  let (st, item, fl) := match c.input with
    | some u => (u.stamp.toNat, u.item, u.passed ||| (if u.has fLAST then flagsOf [fLAST] else 0))
    | none => (c.admitted, 0, 0)
  { stream := n, unit := unitWith st item cls c.ctx fmt source (fl ||| flags ||| (if fmt = 0x40 then flagsOf [fZRUN] else 0)) payload }

/-- Source number of the engine that runs a command: that of its first engine (R38). -/
def Cmd.engSource (c : Cmd) : Nat := 128 + 4 * c.engines.headD 0

/-! ### MATMUL (R123, R154, R155) -/

/-- The quantisation record of a MATMUL. -/
def State.mmRec (s : State) (d : BitVec 512) : QRec := qrecOf (s.read (Desc.paramAddr d) 32)

/-- R754: does the input unit match a command with record `q`? -/
def unitFits (q : QRec) (u : DUnit) : Bool :=
  if q.ascale = 0 then u.fmt.toNat == q.aFmt || (u.fmt.toNat == 0x20 && q.aFmt == 0x04) || (u.fmt.toNat == 0x04 && q.aFmt == 0x20)
  else fmtVector u.fmt.toNat

/-- Columns of a stationary operand held in a payload of `n` columns of `k` elements (R754). -/
def columnsOf (p : QPar) (fmt n k fr : Nat) (l : List Byte) : List QVec :=
  let rb := rowBytes fmt k
  (List.range n).map fun j =>
    let codes := rowCodes fmt k ((l.drop (j * rb)).take rb)
    if p.ascale = 0 then asStored p.aFmt p.aZp [p.aScale] codes
    else quantise p.aFmt p.ascale (groupLen p.group k) p.aZp p.aScale p.aScale fr
      (codes.map fun (c, sc) => scaled (elemVal fmt c) sc)

/-- The product of a MATMUL on its input unit, at ladder step `step`; with it the weights' clips and their NaNs. -/
def State.matmulGemm (s : State) (d : BitVec 512) (u : DUnit) (step fr : Nat) : GemmOut × List Nat × Nat :=
  let q := s.mmRec d
  let p := q.parAt step
  let (m, n, k) := (Desc.m d, Desc.n d, Desc.k d)
  let (ws, bs) := s.weights q p (Desc.wAddr d) (Desc.auxAddr d) m k 0 m fr
  (gemm p k (columnsOf p u.fmt.toNat n k fr u.payload) ws bs, ws.map (·.clips), sumNat (ws.map (·.nans)))

/-- R427: the engine, by its place in the placement of `e`, that forms output row `i` of `m`. -/
def rowEngine (mb m e i : Nat) : Nat := i / max 1 (rowBlock mb m) % max e 1

/-- R188, R427: the clips of each engine: those of its own rows, `rows`, and those of the stationary operand, which every
engine that has rows prepares for itself. -/
def clipShares (mb e stat : Nat) (rows : List Nat) : List Nat :=
  (List.range (max e 1)).map fun k =>
    let own := rows.zipIdx.filter fun x => rowEngine mb rows.length e x.2 == k
    sumNat (own.map (·.1)) + (if own.isEmpty then 0 else stat)

/-- R190: C of one descriptor: what quantising the input unit adds counts once, whatever the number of engines. -/
def clipCount (quant : Bool) (stat : Nat) (rows shares : List Nat) : Nat := if quant then sumNat rows + stat else sumNat shares

/-- Y as a payload: column after column, each packed from a byte boundary (R167). -/
def colsPayload (fmt : Nat) (cols : List (List Nat)) : List Byte := cols.flatMap (pack (fmtWidth fmt))

/-- What a MATMUL produces. A reduction of length zero (R153) has an empty input unit and all its results. -/
def State.matmulRun (s : State) (c : Cmd) (u : DUnit) (fr : Nat) : RunOut :=
  let d := c.desc
  if u.payload.isEmpty && Desc.k d != 0 then { outs := [s.outUnit c (s.mmRec d).oFmt c.engSource (u.passed) []] }
  else
    let p := (s.mmRec d).parAt c.step
    let (g, wc, wn) := s.matmulGemm d u c.step fr
    let (fmt, body, _) := zrunOutput (Desc.zrunOut d) p.oFmt p.oZp (colsPayload p.oFmt g.cols)
    let rows := (g.rows.zip wc).map fun x => x.1 + x.2
    let shares := clipShares (Desc.mb d) (Desc.engCnt d) g.stat rows
    { outs := [s.outUnit c fmt c.engSource (if 0 < g.nans + wn then flagsOf [fINVALID] else 0) body]
      clips := clipCount (p.ascale != 0) g.stat rows shares, shares := shares
      den := clipDen p 1 (Desc.m d) (Desc.k d) (Desc.n d), nans := g.nans + wn
      once := (if p.ascale = 0 then 0 else g.stat, clipDenOnce p 1 (Desc.k d) (Desc.n d)) }

/-! ### Feature maps (R201) -/

/-- A row of a feature map: for each channel its element codes. -/
abbrev FRow := List (List Nat)

/-- Row stride of a planar map (R201); lines of a band unit in a pixel format follow one another as capture writes
them (R110). -/
def rowStride (fmt w : Nat) : Nat :=
  if 0x20 ≤ fmt ∧ fmt ≤ 0x22 then rowBytes fmt w else ceilDiv (rowBytes fmt w) 64 * 64

/-- The elements of a row of `w`; one of an MX format carries its block's scale byte in bits [15:8]. A row of an MX map is an
MX row of R170 (DESIGN CHOICE, log entry 73). -/
def rowElems (fmt w : Nat) (l : List Byte) : List Nat :=
  if fmtMX fmt then (rowCodes fmt w l).map fun (c, sc) => c + 256 * sc else unpack (fmtWidth fmt) w l

/-- The value of such an element. -/
def mapVal (fmt v : Nat) : Val := if fmtMX fmt then scaled (elemVal fmt (v % 256)) (v / 256) else elemVal fmt v

/-- The rows of a payload of `c` planes of rows of `w` elements. -/
def rowsOf (fmt c w : Nat) (l : List Byte) : List FRow :=
  let rs := rowStride fmt w
  let h := if rs = 0 ∨ c = 0 then 0 else l.length / (rs * c)
  (List.range h).map fun y => (List.range c).map fun ch =>
    rowElems fmt w ((l.drop ((ch * h + y) * rs)).take (rowBytes fmt w))

/-- Rows as a planar payload. -/
def planarPayload (fmt c w : Nat) (rows : List FRow) : List Byte :=
  let rs := rowStride fmt w
  (List.range c).flatMap fun ch => rows.flatMap fun r =>
    let b := pack (fmtWidth fmt) (r.getD ch [])
    b ++ List.replicate (rs - b.length) 0

/-! ### Convolution (R202 to R208) -/

/-- R205: the reduction order of a filter: pairs of filter row and column, pass by pass. -/
def tapOrder (kh kw : Nat) : List (List (Nat × Nat)) :=
  (List.range (ceilDiv kh 7)).flatMap fun a => (List.range (ceilDiv kw 7)).map fun b =>
    (List.range (min 7 (kh - 7 * a))).flatMap fun i => (List.range (min 7 (kw - 7 * b))).map fun j => (7 * a + i, 7 * b + j)

/-- R202, R205: the reduction index as (channel in group, filter row, filter column), in order. -/
def redOrder (cin kh kw : Nat) : List (Nat × Nat × Nat) :=
  (tapOrder kh kw).flatMap fun pass => (List.range cin).flatMap fun c => pass.map fun (i, j) => (c, i, j)

/-- Output width of a layer (R203). -/
def Layer.outW (l : Layer) : Nat :=
  let w := l.inW * (if l.upX then 2 else 1) + l.left + l.right
  if w < (l.kw - 1) * l.dx + 1 then 0 else (w - (l.kw - 1) * l.dx - 1) / l.sx + 1

/-- Rows a layer has emitted when it has `avail` input rows, `last` when the item has no more (R212, R213). -/
def Layer.outRows (l : Layer) (avail : Nat) (last : Bool) : Nat :=
  let a := avail * (if l.upY then 2 else 1) + l.top + (if last then l.bottom else 0)
  if a < (l.kh - 1) * l.dy + 1 then 0 else (a - (l.kh - 1) * l.dy - 1) / l.sy + 1

/-- R203, R204: the element at input row `y`, column `x` (after upsampling) of channel `ch`: `none` is padding. `rows`
holds input rows from number `base` on; `total` rows exist when the item has ended. -/
def Layer.tap (l : Layer) (rows : List FRow) (base : Nat) (total : Option Nat) (ch : Nat) (y x : Int) : Option Nat :=
  let uy := if l.upY then 2 else 1
  let ux := if l.upX then 2 else 1
  let h : Int := match total with
    | some t => (t * uy : Nat)
    | none => ((base + rows.length) * uy : Nat)
  let w : Int := (l.inW * ux : Nat)
  let out := decide (y < 0 ∨ h ≤ y ∨ x < 0 ∨ w ≤ x)
  if out && !l.edge then none
  else
    let yy := clampInt y 0 (h - 1)
    let xx := clampInt x 0 (w - 1)
    ((rows[yy.toNat / uy - base]?).bind fun r => (r.getD ch [])[xx.toNat / ux]?)

/-- A source element as a value. -/
def srcVal (fmt : Nat) (c : Option Nat) (padZp : Int) : Val := match c with
  | some v => mapVal fmt v
  | none => .fin (Dy.ofInt padZp)

/-- A stationary column of values: as stored or quantised. An element of an MX map is decoded with its own block's scale,
so the column has no block exponents left (log entry 73). -/
def convColumn (p : QPar) (k fr : Nat) (vals : List Val) : QVec :=
  if p.ascale = 0 then
    let cl := vals.map (cleanVal (fmtLargest p.aFmt))
    { xs := cl.map fun x => if p.aZp = 0 then x.1 else x.1.add (Dy.ofInt (-p.aZp)), ss := [p.aScale]
      clips := sumNat (cl.map (·.2.1)), nans := sumNat (cl.map (·.2.2)) }
  else quantise p.aFmt p.ascale (groupLen p.group k) p.aZp p.aScale p.aScale fr vals

/-- One output row of a layer: its channels' codes, the clips of each channel's outputs, the clips and NaNs of the stationary
operand. -/
structure RowOut where
  row  : FRow := []
  chan : List Nat := []
  stat : Nat := 0
  nans : Nat := 0
  deriving DecidableEq, Repr

/-- One output row of an engine layer (R202 to R206). `fmt` is the input map's format. -/
def convRow (l : Layer) (p : QPar) (fmt : Nat) (rows : List FRow) (base : Nat) (total : Option Nat)
    (fr y : Nat) (ws : List (List QVec × List Bias)) : RowOut :=
  let cg := l.cin / l.groups
  let order := redOrder cg l.kh l.kw
  let k := order.length
  let res := ws.zipIdx.map fun ((w, b), g) =>
    let cols := (List.range l.outW).map fun (x : Nat) =>
      convColumn p k fr (order.map fun (c, i, j) =>
        srcVal fmt (l.tap rows base total (g * cg + c)
          ((y * l.sy + i * l.dy : Nat) - (l.top : Int)) ((x * l.sx + j * l.dx : Nat) - (l.left : Int)))
          (if p.ascale = 0 then p.aZp else 0))
    (w.length, gemm p k cols w b)
  { row := res.flatMap fun (n, o) => (List.range n).map fun m => o.cols.map fun (c : List Nat) => c.getD m 0
    chan := res.flatMap fun x => x.2.rows, stat := sumNat (res.map (·.2.stat)), nans := sumNat (res.map (·.2.nans)) }

/-- R199: scale and bias of output channel `m` of an FCE layer, and the NaNs among them (R187). -/
def State.fceScale (s : State) (l : Layer) (m : Nat) : Dy × Dy × Nat :=
  let (sc, _, n) := if l.q.wsAddr = 0 then (Dy.ofInt 1, 0, 0) else tableVal (s.readN (l.q.wsAddr + 4 * m) 4)
  let (b, _, n') := s.biasOf l.q l.bias m
  (sc, (match b with
    | .flt d => d
    | .int i => Dy.ofInt i
    | .none => {}), n + n')

/-- R156 to R159, R199: one output row of an FCE layer. Weights INT8; one activation zero point serves every input channel,
the record of R171 having no other. -/
def State.fceRow (s : State) (l : Layer) (fmt : Nat) (rows : List FRow) (base : Nat) (total : Option Nat) (y : Nat) : FRow :=
  let order := redOrder l.cin l.kh l.kw
  let k := order.length
  let val (c : Option Nat) : Int := match c with
    | some v => match elemVal fmt v with
      | .fin d => d.num 0 - l.q.aZp
      | _ => 0
    | none => 0
  (List.range l.cout).map fun m =>
    let w := (List.range k).map fun i => sgn 8 (s.byte (l.lw + m * k + i)).toNat
    let (scale, bias, _) := s.fceScale l m
    (List.range l.outW).map fun (x : Nat) =>
      let acc := (order.zip w).foldl (fun a ((c, i, j), wv) =>
        clampInt (a + val (l.tap rows base total c ((y * l.sy + i * l.dy : Nat) - (l.top : Int))
          ((x * l.sx + j * l.dx : Nat) - (l.left : Int))) * wv) (-2147483648) 2147483647) (0 : Int)
      fceOutput l.q.oFmt l.q.oZp acc scale bias

/-- R156: an FCE layer in last-layer mode: more input channels than a first layer takes. -/
def Layer.lastMode (l : Layer) : Bool := decide (4 < l.cin)

/-- R156, R173: a quantisation record the FCE does not accept; the last-layer mode takes no pixel format. -/
def fceRecBad (q : QRec) (biasNamed last : Bool) : Bool :=
  q.refused true biasNamed [] || !([0x03, 0x04].contains q.aFmt || (!last && [0x20, 0x21, 0x22].contains q.aFmt)) ||
  q.wFmt != 0x03 || !([0x03, 0x04, 0x10, 0x13].contains q.oFmt)

/-! ### Swatches (R209 to R216) -/

/-- R210: rows a layer need not keep: those below the first row its next output row reads. -/
def Layer.firstNeeded (l : Layer) (nextOut : Nat) : Nat :=
  (nextOut * l.sy - l.top) / (if l.upY then 2 else 1)

/-- What layer `i` of a chain computes with at ladder step `step`: as stored, a later layer takes what the one before it
gives, in format `fmtIn`. -/
def layerPar (i : Nat) (l : Layer) (step fmtIn : Nat) : QPar :=
  let p := l.q.parAt step
  if 0 < i ∧ p.ascale = 0 ∧ !l.fce then { p with aFmt := fmtIn, aZp := if (fmtFloat fmtIn).isSome then 0 else p.aZp } else p

/-- Format of a layer's output. -/
def layerFmt (i : Nat) (l : Layer) (step fmtIn : Nat) : Nat := if l.fce then l.q.oFmt else (layerPar i l step fmtIn).oFmt

/-- R212, R213: the rows each layer emits for `new` input rows. -/
def layerRows : List Layer → List Halo → Nat → Bool → List Nat
  | [], _, _, _ => []
  | l :: t, hs, new, last =>
    let n := l.outRows ((hs.headD {}).seen + new) last - (hs.headD {}).out
    n :: layerRows t (hs.drop 1) n last

/-- What one layer gives on a band: rows, halo and output format; the clips of each output channel, those of the stationary
operand and whether it was quantised; D, its part of R190, and the NaNs. -/
structure LayerOut where
  rows  : List FRow := []
  halo  : Halo := {}
  fmt   : Nat := 0
  chan  : List Nat := []
  stat  : Nat := 0
  quant : Bool := false
  den   : Nat := 0
  once  : Nat := 0
  nans  : Nat := 0
  deriving DecidableEq, Repr

/-- Run one layer over new input rows (R203 to R213). -/
def State.runLayer (s : State) (i : Nat) (l : Layer) (step fmtIn fr : Nat) (h : Halo) (new : List FRow) (last : Bool) : LayerOut :=
  let p := layerPar i l step fmtIn
  let rows := h.rows ++ new
  let seen := h.seen + new.length
  let total := if last then some seen else none
  let n := l.outRows seen last
  let ys := (List.range (n - h.out)).map (h.out + ·)
  let keep := max h.base (min seen (l.firstNeeded n))
  let halo : Halo := { rows := rows.drop (keep - h.base), base := keep, seen := seen, out := max n h.out }
  if l.fce then
    { rows := ys.map fun y => s.fceRow l fmtIn rows h.base total y, halo := halo, fmt := layerFmt i l step fmtIn
      nans := sumNat ((List.range l.cout).map fun m => (s.fceScale l m).2.2) }
  else
    let g := max 1 l.groups
    let mg := l.cout / g
    let k := l.cin / g * l.kh * l.kw
    let ws := (List.range l.groups).map fun j => s.weights l.q p l.lw l.bias l.cout k (j * mg) mg fr
    let out := ys.map fun y => convRow l p fmtIn rows h.base total fr y ws
    let wc := ws.flatMap fun w => w.1.map (·.clips)
    { rows := out.map (·.row), halo := halo, fmt := layerFmt i l step fmtIn
      chan := wc.zipIdx.map fun (c, m) => c + sumNat (out.map fun r => r.chan.getD m 0)
      stat := sumNat (out.map (·.stat)), quant := p.ascale != 0
      den := clipDen p g mg k (ys.length * l.outW), once := clipDenOnce p g k (ys.length * l.outW)
      nans := sumNat (out.map (·.nans)) + sumNat (ws.map fun w => sumNat (w.1.map (·.nans))) }

/-- All layers in turn. -/
def State.runLayers (s : State) (step fr : Nat) (last : Bool) : Nat → List Layer → List Halo → Nat → List FRow → List LayerOut
  | _, [], _, _, _ => []
  | i, l :: ls, hs, fmt, rows =>
    let o := s.runLayer i l step fmt fr (hs.headD {}) rows last
    o :: s.runLayers step fr last (i + 1) ls (hs.drop 1) o.fmt o.rows

/-- R212: first and last input lines that output rows `a` to `b` of the last layer depend on. -/
def depLines (ls : List Layer) (a b : Nat) : Nat × Nat :=
  ls.reverse.foldl (fun (lo, hi) l =>
    let u := if l.upY then 2 else 1
    ((lo * l.sy - l.top) / u, (hi * l.sy + (l.kh - 1) * l.dy - l.top) / u)) (a, b)

/-- The swatch of this context, input stream and item that the last band committed (R215). -/
def State.swatchOf (s : State) (c : Cmd) (item : BitVec 48) : Swatch :=
  (s.hw.swatches.find? fun w => w.ctx == c.ctx && w.stream == Desc.inStream c.desc && w.item == item).getD
    { ctx := c.ctx, stream := Desc.inStream c.desc, item := item }

/-- The rows of a band unit for the layer list `ls`. -/
def bandRows (ls : List Layer) (u : DUnit) : List FRow := match ls.head? with
  | some l => rowsOf u.fmt.toNat l.cin l.inW u.payload
  | none => []

/-- What a CONV produces on a band (R209 to R216). A NaN met in a band marks every later unit of the item too (R187). -/
def State.convRun (s : State) (c : Cmd) (u : DUnit) (fr : Nat) : RunOut :=
  let ls := s.layers c.desc
  let last := u.has fLAST
  let w := s.swatchOf c u.item
  let rows := bandRows ls u
  let outFmt0 := (ls.getLast?.map fun l => l.q.oFmt).getD 0x04
  let bad := if w.nan then flagsOf [fINVALID] else 0
  if u.payload.isEmpty && !last then { outs := [s.outUnit c outFmt0 c.engSource (u.passed ||| flagsOf [fPARTIAL] ||| bad) []] }
  else
    let res := s.runLayers c.step fr last 0 ls w.halos u.fmt.toNat rows
    let out := (res.getLast?.map (·.rows)).getD rows
    let oFmt := (res.getLast?.map (·.fmt)).getD outFmt0
    let (cout, ow, zp) := match ls.getLast? with
      | some l => (l.cout, l.outW, (l.q.parAt c.step).oZp)
      | none => (0, 0, 0)
    let nans := sumNat (res.map (·.nans))
    let band := max w.band rows.length
    let sl := (ls.map (·.sy)).foldl (· * ·) 1
    let y0 := w.out
    let (lo, hi) := depLines ls y0 (y0 + out.length - 1)
    let bands := w.bands ++ [{ first := (w.halos.headD {}).seen, lines := rows.length, flags := u.passed, stamp := u.stamp.toNat }]
    let dep := bands.filter fun b => decide (b.first ≤ hi ∧ lo < b.first + max b.lines 1)
    let fl := dep.foldl (fun f b => f ||| b.flags) (u.passed &&& flagsOf [fINVALID])
    let stamp := dep.foldl (fun t b => min t b.stamp) u.stamp.toNat
    let part := decide (out.length * sl < band) || out.isEmpty
    let (f, body, _) := zrunOutput (Desc.zrunOut c.desc) oFmt zp (planarPayload oFmt cout ow out)
    let unit := s.outUnit { c with input := some { u with flags := u.flags &&& flagsOf [fLAST], stamp := BitVec.ofNat 64 stamp } } f c.engSource
      (fl ||| (if part then flagsOf [fPARTIAL] else 0) ||| bad ||| (if 0 < nans then flagsOf [fINVALID] else 0)) (if out.isEmpty then [] else body)
    let shares := res.map fun o => if o.chan.isEmpty then [] else clipShares (Desc.mb c.desc) (Desc.engCnt c.desc) o.stat o.chan
    let first := (res.find? fun o => !o.chan.isEmpty).getD {}
    { outs := [unit], den := sumNat (res.map (·.den)), nans := nans
      clips := sumNat ((res.zip shares).map fun (o, x) => clipCount o.quant o.stat o.chan x)
      shares := (List.range (max 1 (Desc.engCnt c.desc))).map fun k => sumNat (shares.map fun x => x.getD k 0)
      once := (if first.quant then first.stat else 0, first.once)
      swatch := some { w with halos := res.map (·.halo), out := y0 + out.length, band := band, bands := if last then [] else bands,
                              nan := w.nan || decide (0 < nans), eng := s.logicalOf (c.engines.headD 36) } }

/-! ### Crop-and-resize (R223 to R228) -/

/-- The plane's element at a position, `pad` outside it (R225). -/
def State.planeAt (s : State) (b : CropBlock) (pad : Nat) (x y : Int) : Val :=
  let w := fmtWidth b.fmt
  let code := if x < 0 ∨ (b.w : Int) ≤ x ∨ y < 0 ∨ (b.h : Int) ≤ y then pad
    else
      let bit := x.toNat * w
      (s.readN (b.plane + y.toNat * b.pitch + bit / 8) ((bit % 8 + w + 7) / 8) >>> (bit % 8)) % 2 ^ w
  elemVal (if b.fmt = 0x10 then 0x10 else 0x22) code

/-- An exact weighted sum; values of weight zero take no part, infinities and NaNs act as IEEE 754 has them (DESIGN CHOICE for
a BF16 plane, log entry 75). -/
def mixVals (l : List (Nat × Val)) : Val :=
  let l := (l.filter fun x => x.1 != 0)
  let infs := (l.map (·.2)).filter fun v => v == .inf true || v == .inf false
  if l.any (fun x => x.2 == .nan) || (infs.contains (.inf true) && infs.contains (.inf false)) then .nan
  else match infs with
    | v :: _ => v
    | [] => .fin (l.foldl (fun a x => match x.2 with
      | .fin d => a.add (d.mul (Dy.ofInt x.1))
      | _ => a) {})

/-- R225: a sample at position (px, py) in units of 2⁻¹⁶ pixel, times 2¹⁶ when bilinear. -/
def sampleAt (src : Int → Int → Val) (bilinear : Bool) (px py : Int) : Val :=
  if !bilinear then src ((px + 32768) / 65536) ((py + 32768) / 65536)
  else
    let ix := px / 65536
    let iy := py / 65536
    let fx := (px / 256 % 256).toNat
    let fy := (py / 256 % 256).toNat
    mixVals [((256 - fx) * (256 - fy), src ix iy), (fx * (256 - fy), src (ix + 1) iy),
             ((256 - fx) * fy, src ix (iy + 1)), (fx * fy, src (ix + 1) (iy + 1))]

/-- A value divided by 2ᵏ. -/
def Val.shr (k : Nat) : Val → Val
  | .fin d => .fin { d with e := d.e - k }
  | v => v

/-- R226: the sample in its output format (R200); bilinear samples are divided by 2¹⁶, rounding half up for integers. -/
def cropCode (bilinear : Bool) (fmt : Nat) (v : Val) : Nat :=
  let v := if bilinear then v.shr 16 else v
  match fmtRange fmt, v with
  | some (lo, hi), .fin d => uns (fmtWidth fmt) (clampInt ((d.add ⟨false, 1, -1⟩).floor) lo hi)
  | _, _ => vecConvert fmt (toF32 v)

/-- R226: rotate a grid of `w` columns by a quarter turn clockwise. -/
def turn (w : Nat) (g : List (List Nat)) : List (List Nat) := (List.range w).map fun x => g.reverse.map fun r => r.getD x 0

/-- The unit of one box: payload and the rows of the plane it read. -/
def State.cropOne (s : State) (b : CropBlock) (x : CropBox) : List Byte × List Int :=
  if x.w = 0 ∨ x.h = 0 ∨ x.outW = 0 ∨ x.outH = 0 then (leBytes 4 x.id ++ leBytes 4 0, [])
  else
    let stepX := (x.w * 256 + x.outW / 2) / x.outW
    let stepY := (x.h * 256 + x.outH / 2) / x.outH
    let pos (z step u : Nat) : Int := (z * 256 + step * u + step / 2 : Nat) - 32768
    let grid := (List.range x.outH).map fun v => (List.range x.outW).map fun u =>
      cropCode x.bilinear x.fmt (sampleAt (s.planeAt b x.pad) x.bilinear (pos x.x0 stepX u) (pos x.y0 stepY v))
    let g := if x.flip then grid.map List.reverse else grid
    let g := if 1 ≤ x.rot then turn x.outW g else g
    let g := if 2 ≤ x.rot then turn x.outH g else g
    let g := if 3 ≤ x.rot then turn x.outW g else g
    let swap := x.rot % 2 = 1
    (leBytes 4 x.id ++ leBytes 2 (if swap then x.outH else x.outW) ++ leBytes 2 (if swap then x.outW else x.outH) ++
      pack (fmtWidth x.fmt) g.flatten,
     (List.range x.outH).flatMap fun v => let iy := pos x.y0 stepY v / 65536; [iy, iy + 1])

/-- R227: flags of the rows a box read. -/
def State.cropFlags (s : State) (b : CropBlock) (rows : List Int) : BitVec 16 :=
  if b.table = 0 ∨ b.band = 0 then 0
  else ((rows.filter fun y => decide (0 ≤ y ∧ y < (b.h : Int))).map fun y => y.toNat / b.band).dedup.foldl
    (fun f e => f ||| passOn (BitVec.ofNat 16 (s.readN (b.table + 2 * e) 2))) 0

/-- R49, R50: of several output units of one item only the last carries LAST. -/
def lastOnly : List StagedUnit → List StagedUnit
  | [] => []
  | [o] => [o]
  | o :: t => { o with unit := { o.unit with flags := putBit o.unit.flags fLAST false } } :: lastOnly t

/-- R155: does the command compute with a zero-length input unit? -/
def Cmd.zeroInput (c : Cmd) : Bool := match c.input with
  | some u => u.payload.isEmpty
  | none => false

/-- What a CROP produces: one unit for each box; LAST only on the last (R49). -/
def State.cropRun (s : State) (c : Cmd) : RunOut :=
  let b := cropBlock (s.read (Desc.paramAddr c.desc) 32)
  let bs := s.cropBoxes c.desc
  if c.zeroInput then { outs := [s.outUnit c ((bs.head?.map (·.fmt)).getD 0x04) c.engSource 0 []] }
  else { outs := lastOnly (bs.map fun x =>
      let (body, rows) := s.cropOne b x
      s.outUnit c x.fmt c.engSource (s.cropFlags b rows) body) }

/-! ### Channel argmax (R229, R230) -/

/-- The winner among values: lowest index on ties, a NaN below every number. -/
def argmaxOf (l : List Val) : Nat × Val :=
  match l.zipIdx with
  | [] => (0, .nan)
  | (v, _) :: t => t.foldl (fun (i, b) (v, j) => if b.lt v then (j, v) else (i, b)) (0, v)

/-- What an ARGMAX produces on its input unit of C planes. -/
def State.argmaxRun (s : State) (c : Cmd) (u : DUnit) : RunOut :=
  let ch := Desc.auxCount c.desc
  let fmt := u.fmt.toNat
  let w := fmtWidth fmt
  let n := if ch = 0 then 0 else u.payload.length / ch * 8 / w
  let planes := (chunks (u.payload.length / max ch 1) u.payload).map (unpack w n)
  let win := (List.range n).map fun i => argmaxOf (planes.map fun p => elemVal fmt (p.getD i 0))
  let mode := Desc.opflags c.desc % 2
  let bad := win.any fun x => x.2 == .nan
  let fl := if bad then flagsOf [fINVALID] else 0
  if u.payload.isEmpty then { outs := [s.outUnit c (if mode = 0 then 0x04 else 0x13) c.engSource 0 []] }
  else if mode = 0 then { outs := [s.outUnit c 0x04 c.engSource fl (win.map fun x => BitVec.ofNat 8 x.1)] }
  else { outs := [s.outUnit c 0x13 c.engSource fl
      (win.flatMap fun x => leBytes 2 x.1 ++ leBytes 2 (vecConvert 0x10 (toF32 x.2)))] }

/-! ### SAMPLE (R407, R325, R326) -/

/-- R325: bytes of a mask slot. -/
def maskSlotBytes (vocab : Nat) : Nat := 64 + 64 * ceilDiv vocab 512

/-- Is token `t` allowed by the mask in the slot at `a` (R326)? -/
def State.maskAllows (s : State) (a t : Nat) : Bool :=
  let listed := (List.range (s.readN (a + 4) 4)).any fun i => s.readN (a + 64 + 4 * i) 4 == t
  match (s.byte (a + 2)).toNat with
  | 1 => !listed
  | 2 => listed
  | 3 => (s.byte (a + 64 + t / 8)).getLsbD (t % 8)
  | _ => true

/-- R333: every column's mask header has been written. -/
def State.masksReady (s : State) (d : BitVec 512) : Bool :=
  (List.range (Desc.auxCount d)).all fun i =>
    decide (s.byte (Desc.paramAddr d + i * maskSlotBytes s.vocabSize + 2) ≠ 0)

/-- What a SAMPLE produces: the selected tokens; a column whose mask is LATE, DEAD or FAULT selects none (R326). -/
def State.sampleRun (s : State) (c : Cmd) (u : DUnit) : RunOut :=
  let d := c.desc
  let m := Desc.m d
  let fmt := u.fmt.toNat
  let rb := rowBytes fmt m
  let cols := (List.range (Desc.n d)).map fun j =>
    let a := Desc.paramAddr d + j * maskSlotBytes s.vocabSize
    let mode := (s.byte (a + 2)).toNat
    let vals := (rowCodes fmt m ((u.payload.drop (j * rb)).take rb)).map fun (x, sc) => scaled (elemVal fmt x) sc
    let tok := (argmaxOf (vals.zipIdx.map fun (v, t) => if s.maskAllows a t then v else .inf true)).1
    (j, mode, tok)
  let dead := cols.any fun x => x.2.1 == 5 || x.2.1 == 6
  if c.zeroInput then { outs := [s.outUnit c 0x31 c.engSource 0 []] }
  else { outs := [s.outUnit c 0x31 c.engSource (if dead then flagsOf [fINVALID] else 0)
             ((cols.filter fun x => decide (x.2.1 < 4)).flatMap fun x => leBytes 4 x.2.2)],
         reasons := (cols.filter fun x => decide (4 ≤ x.2.1)).map fun x => (x.1, if x.2.1 = 4 then 4 else 5) }

/-! ### Augmentation generator (R237 to R241) -/

/-- R237: mix(). -/
def augMix (seed : BitVec 64) (index draw : Nat) : BitVec 64 :=
  let z := seed + (BitVec.ofNat 64 (index * 2 ^ 32 ||| draw)) * 0x9E3779B97F4A7C15#64
  let z := (z ^^^ (z >>> 30)) * 0xBF58476D1CE4E5B9#64
  let z := (z ^^^ (z >>> 27)) * 0x94D049BB133111EB#64
  z ^^^ (z >>> 31)

/-- The value with its sign changed. -/
def Val.negate : Val → Val
  | .fin d => .fin d.negate
  | .inf n => .inf (!n)
  | .nan => .nan

/-- The finite value, 0 for an infinity or a NaN. -/
def Val.dy : Val → Dy
  | .fin d => d
  | _ => {}

/-- R237: uni(). -/
def augUni (lo hi : Val) (r : BitVec 64) : Val :=
  lo.add ((hi.add lo.negate).mul (ieee32 { m := (r >>> 40).toNat, e := -24 }))

/-- R237: hit(). -/
def augHit (p : Nat) (r : BitVec 64) : Bool := p == 255 || decide ((r >>> 56).toNat < p)

/-- R240: the AUG parameter block. -/
structure AugBlock where
  seed : BitVec 64
  index : Nat
  ops : Nat
  fmt : Nat
  p : List Nat
  cutN : Nat
  rot : Nat
  scMin : Nat
  scMax : Nat
  shear : Nat
  shift : Nat
  gMin : Nat
  gMax : Nat
  ofs : Nat
  sigma : Nat
  cutSize : Nat
  w : Nat
  h : Nat
  pad : Nat
  deriving DecidableEq, Repr

def augBlock (l : List Byte) : AugBlock :=
  { seed := BitVec.ofNat 64 (leAt l 0 8), index := leAt l 8 4, ops := leAt l 12 1, fmt := leAt l 13 1,
    p := (List.range 5).map fun i => leAt l (14 + i) 1, cutN := leAt l 19 1, rot := leAt l 20 4, scMin := leAt l 24 4,
    scMax := leAt l 28 4, shear := leAt l 32 4, shift := leAt l 36 4, gMin := leAt l 40 4, gMax := leAt l 44 4,
    ofs := leAt l 48 4, sigma := leAt l 52 4, cutSize := leAt l 56 2, w := leAt l 58 2, h := leAt l 60 2, pad := leAt l 62 2 }

/-- An FP32 word lies in lo … hi. -/
def f32In (n : Nat) (lo hi : Dy) : Bool := match f32 n with
  | .fin d => !d.lt lo && !hi.lt d
  | _ => false

/-- An FP32 word is finite and not negative. -/
def f32NonNeg (n : Nat) : Bool := match f32 n with
  | .fin d => !d.lt {}
  | _ => false

/-- R240: a field outside its range. 3.141 593 is taken as the FP32 value nearest to it. -/
def AugBlock.bad (b : AugBlock) : Bool :=
  decide (64 ≤ b.ops) || !([0x04, 0x20, 0x22, 0x10, 0x12].contains b.fmt) || !decide (1 ≤ b.cutN ∧ b.cutN ≤ 4) ||
  !f32In b.rot {} (fl32' ((Dy.ofInt 3141593).div 30 (Dy.ofInt 1000000))) ||
  !f32In b.scMin (Dy.pow2 (-2)) (Dy.ofInt 4) || !f32In b.scMax (Dy.pow2 (-2)) (Dy.ofInt 4) ||
  (f32Dy b.scMax).lt (f32Dy b.scMin) ||
  !f32In b.shear {} (Dy.ofInt 1) || !f32In b.shift {} (Dy.ofInt 4096) || !f32In b.gMin {} (Dy.ofInt 16) ||
  !f32In b.gMax {} (Dy.ofInt 16) || (f32Dy b.gMax).lt (f32Dy b.gMin) || !f32NonNeg b.ofs || !f32NonNeg b.sigma ||
  !decide (1 ≤ b.cutSize ∧ b.cutSize ≤ 4096) || !decide (1 ≤ b.w ∧ b.w ≤ 16384) || !decide (1 ≤ b.h ∧ b.h ≤ 16384)

/-- Fixed-point value of an angle, in units of 2⁻⁹⁶ (exact for |θ| ≥ 2⁻⁷²; smaller angles are truncated). -/
def fix96 (d : Dy) : Int := ({ d with e := d.e + 96 } : Dy).floor

/-- Taylor terms x^n ÷ n! for n = k, k + 2, …, in units of 2⁻⁹⁶, alternating in sign. -/
def trigSum (x2 : Int) : Nat → Nat → Int → Int
  | 0, _, _ => 0
  | j + 1, n, t => t - trigSum x2 j (n + 2) (t * x2 / 2 ^ 96 / ((n + 1) * (n + 2) : Nat))

/-- R239: cos θ and sin θ, each rounded to a multiple of 2⁻¹⁶. -/
def cosSin16 (th : Dy) : Int × Int :=
  let x := fix96 th
  let x2 := x * x / 2 ^ 96
  let r (v : Int) : Int := (v + 2 ^ 79) / 2 ^ 80
  (r (trigSum x2 40 0 (2 ^ 96)), r (trigSum x2 40 1 x))

/-- Round to nearest even multiple of 2⁻¹⁶. -/
def rne16 (d : Dy) : Dy := { Dy.ofInt ({ d with e := d.e + 16 } : Dy).rneInt with e := -16 }

/-- R239: where output pixel (x, y) lies in the source, in units of 2⁻¹⁶ pixel. -/
def augGeo (b : AugBlock) (index x y : Nat) : Int × Int :=
  let r (d : Nat) := augMix b.seed index d
  let u (n : Nat) (d : Nat) : Dy := (augUni (.fin (f32Dy n).negate) (.fin (f32Dy n)) (r d)).dy
  let th := u b.rot 1
  let sc := (augUni (.fin (f32Dy b.scMin)) (.fin (f32Dy b.scMax)) (r 2)).dy
  let sh := u b.shear 3
  let tx := u b.shift 4
  let ty := u b.shift 5
  let (c, n) := cosSin16 th
  let cs : Dy := { Dy.ofInt c with e := -16 }
  let sn : Dy := { Dy.ofInt n with e := -16 }
  let entry (d : Dy) := rne16 (fl32' (sc.mul d))
  let a11 := entry cs
  let a12 := entry (fl32' ((fl32' (cs.mul sh)).add sn.negate))
  let a21 := entry sn
  let a22 := entry (fl32' ((fl32' (sn.mul sh)).add cs))
  let cx : Dy := { Dy.ofInt (b.w - 1 : Nat) with e := -1 }
  let cy : Dy := { Dy.ofInt (b.h - 1 : Nat) with e := -1 }
  let dx := (Dy.ofInt x).add cx.negate
  let dy := (Dy.ofInt y).add cy.negate
  let sx := (((a11.mul dx).add (a12.mul dy)).add cx).add tx
  let sy := (((a21.mul dx).add (a22.mul dy)).add cy).add ty
  let q (d : Dy) : Int := ({ d with e := d.e + 16 } : Dy).floor
  (q sx, q sy)

/-- R239: the output pixel at (x, y), as an FP32 value; every step rounds as IEEE 754 has it (R148, R200). `src` is the source
image with PAD outside it. -/
def augPixel (b : AugBlock) (index : Nat) (src : Int → Int → Val) (x y : Nat) : Val :=
  let r (d : Nat) := augMix b.seed index d
  let on (bit draw : Nat) : Bool := b.ops.testBit bit && augHit (b.p.getD bit 0) (r draw)
  let px := if on 1 8 then b.w - 1 - x else x
  let v := if on 0 0 then
      let (sx, sy) := augGeo b index px y
      toF32 ((sampleAt src true sx sy).shr 16)
    else toF32 (src px y)
  let v := if on 2 16 then
      (v.mul (augUni (f32 b.gMin) (f32 b.gMax) (r 17))).add (augUni (f32 b.ofs).negate (f32 b.ofs) (r 18))
    else v
  let v := if on 3 24 then
      let w := (r (256 + y * b.w + x)).toNat
      let n : Int := (w % 65536 + w / 65536 % 65536 + w / 2 ^ 32 % 65536 + w / 2 ^ 48 : Nat) - 131070
      let sg := ieee32 ((f32Dy b.sigma).div 30 (fl32' ((Dy.ofInt 37837227).div 30 (Dy.ofInt 1000))))
      v.add ((Val.fin (Dy.ofInt n)).mul sg)
    else v
  if on 4 32 && ((List.range b.cutN).any fun j =>
      let top (i : Nat) := (r (i + 4 * j)).toNat / 2 ^ 48
      let x0 := top 40 % b.w
      let y0 := top 41 % b.h
      decide (x0 ≤ x ∧ x < x0 + 1 + top 42 % b.cutSize ∧ y0 ≤ y ∧ y < y0 + 1 + top 43 % b.cutSize))
  then .fin (Dy.ofInt b.pad) else v

/-- R241: source formats of the AUG block. -/
def augTakes (fmt : Nat) : Bool := [0x04, 0x20, 0x22, 0x10].contains fmt

/-- R241: what an AUGMENT produces on a source unit. -/
def State.augRun (s : State) (c : Cmd) (u : DUnit) : RunOut :=
  let b := augBlock (s.read (Desc.paramAddr c.desc) 64)
  let fmt := u.fmt.toNat
  let codes := unpack (fmtWidth fmt) (b.w * b.h) u.payload
  let index := if b.ops.testBit 5 then u.item.toNat % 2 ^ 32 else b.index
  let src (x y : Int) : Val :=
    if x < 0 ∨ (b.w : Int) ≤ x ∨ y < 0 ∨ (b.h : Int) ≤ y then .fin (Dy.ofInt b.pad)
    else elemVal fmt (codes.getD (y.toNat * b.w + x.toNat) 0)
  let out := (List.range b.h).flatMap fun y => (List.range b.w).map fun x => vecConvert b.fmt (augPixel b index src x y)
  { outs := [s.outUnit c b.fmt 624 (u.flags &&& flagsOf [fLAST, fPARTIAL])
      (if u.payload.isEmpty then [] else pack (fmtWidth b.fmt) out)] }

/-- R243: TEST_CMD.GO. -/
def augTestAct : Act := .get fun s =>
  let r := augMix (BitVec.ofNat 64 (s.rd64 Reg.AUG.TEST_SEED_LO Reg.AUG.TEST_SEED_HI)) (s.rd Reg.AUG.TEST_INDEX).toNat
    (s.rd Reg.AUG.TEST_DRAW).toNat
  .wr64 Reg.AUG.TEST_OUT_LO Reg.AUG.TEST_OUT_HI r.toNat

end Sys2Proof.Machine
end

