-- ==== Sys2Proof/Machine/Text.lean ====
section
/-! DEFINITION. The text engine (07_text_engine): vocabulary image and cache, tokeniser, detokeniser, constraint sets,
sequence constraint records and mask requests. -/

namespace Sys2Proof.Machine

/-- Change text-engine state. -/
def Act.txt (f : TxtSt → TxtSt) : Act := .hw fun h => { h with txt := f h.txt }
/-- Raise source 592 + k (R336). -/
def txtRaise (k : Nat) : Act := .raise .TXT 0 k

/-! ### The vocabulary image (R298 to R302) -/

/-- The vocabulary header (R298). -/
structure Vocab where
  size  : Nat
  base  : Nat
  eos   : Nat
  bos   : Nat
  recs  : Nat
  str   : Nat
  nodes : Nat
  count : Nat
  score : Nat
  deriving DecidableEq, Repr

/-- The header VOCAB_LO and VOCAB_HI name. -/
def State.vocab (s : State) : Vocab :=
  let a := s.rd64 Reg.TXT.VOCAB_LO Reg.TXT.VOCAB_HI
  { size := s.readN a 4, base := s.readN (a + 4) 4, eos := s.readN (a + 8) 4, bos := s.readN (a + 12) 4,
    recs := s.readN (a + 16) 8, str := s.readN (a + 24) 8, nodes := s.readN (a + 32) 8, count := s.readN (a + 40) 4,
    score := s.readN (a + 44) 4 }

/-- Is an FP32 word finite? -/
def f32Finite (n : Nat) : Bool := match f32 n with
  | .fin _ => true
  | _ => false

/-- R301: the header passes the checks of R298. -/
def Vocab.ok (v : Vocab) : Bool :=
  decide (257 ≤ v.size ∧ v.size ≤ 262144) && decide (v.base + 255 < v.size) && decide (v.recs % 64 = 0) &&
  decide (v.nodes % 64 = 0) && decide (256 ≤ v.count ∧ v.count ≤ 8388608) && f32Finite v.score

/-- Opcodes of the text engine. -/
def txtOp (op : Nat) : Bool := op == opTOKENISE || op == opDETOKENISE || op == opMASK

/-- Is a text engine command admitted? -/
def State.txtBusy (s : State) : Bool := s.hw.disp.cmds.any fun c => txtOp (Desc.opcode c.desc)

/-- VOCAB_CMD written (R301, R335). -/
def vocabCmd (v : Word) : Act := .get fun s => .all
  [.when (v.getLsbD 0) (
     let w := s.vocab
     .all [.txt fun t => { t with vcache := [] },
           if w.ok then .seq (.setFld Reg.TXT.TXT_STATUS 0 0 1) (.wrN Reg.TXT.VOCAB_INFO w.size)
           else .all [.setFld Reg.TXT.TXT_STATUS 0 0 0, .cfgErr .TXT 0, txtRaise 0]]),
   .when (v.getLsbD 1 && !s.txtBusy) (.setFld Reg.TXT.TXT_STATUS 0 0 0)]

/-- Token record `t`: string offset, length, flags, score (R299). -/
def State.tokRec (s : State) (v : Vocab) (t : Nat) : Nat × Nat × Nat × Nat :=
  let a := v.recs + 16 * t
  (s.readN a 4, s.readN (a + 4) 1, s.readN (a + 5) 1, s.readN (a + 8) 4)

/-- Trie node `n`: token, first child, number of children (R300). -/
def State.trieNode (s : State) (v : Vocab) (n : Nat) : Nat × Nat × Nat :=
  let w := s.readN (v.nodes + 8 * n) 8
  (w / 256 % 2 ^ 19, w / 2 ^ 32 % 2 ^ 23, w / 2 ^ 55)

/-- The child of node `n` whose byte is `b`. -/
def State.trieChild (s : State) (v : Vocab) (n b : Nat) : Option Nat :=
  let (_, f, c) := s.trieNode v n
  ((List.range c).map (f + ·)).find? fun m => s.readN (v.nodes + 8 * m) 1 == b

/-! ### UTF-8 (RFC 3629; R305, R312) -/

/-- The length of a character from its first byte, and the range of its second byte. -/
def utf8Lead (b : Nat) : Option (Nat × Nat × Nat) :=
  if b < 0x80 then some (1, 0, 0)
  else if b < 0xC2 then none
  else if b < 0xE0 then some (2, 0x80, 0xBF)
  else if b = 0xE0 then some (3, 0xA0, 0xBF)
  else if b = 0xED then some (3, 0x80, 0x9F)
  else if b < 0xF0 then some (3, 0x80, 0xBF)
  else if b = 0xF0 then some (4, 0x90, 0xBF)
  else if b < 0xF4 then some (4, 0x80, 0xBF)
  else if b = 0xF4 then some (4, 0x80, 0x8F)
  else none

/-- Continuation bytes at the head of a list, at most `n`. -/
def utf8Cont : Nat → List Byte → Nat
  | 0, _ => 0
  | _ + 1, [] => 0
  | n + 1, b :: t => if 0x80 ≤ b.toNat ∧ b.toNat < 0xC0 then 1 + utf8Cont n t else 0

/-- The next piece of a byte string: its length, whether it is a whole character, and whether it is a character cut
off by the end. An ill-formed piece is a maximal subpart. -/
def utf8Next (l : List Byte) : Nat × Bool × Bool :=
  match l with
  | [] => (0, false, false)
  | a :: t => match utf8Lead a.toNat with
    | none => (1, false, false)
    | some (n, lo, hi) =>
      if n = 1 then (1, true, false)
      else match t with
        | [] => (1, false, true)
        | b :: u =>
          if b.toNat < lo ∨ hi < b.toNat then (1, false, false)
          else
            let k := 2 + utf8Cont (n - 2) u
            (k, decide (k = n), decide (k < n ∧ k = l.length))

/-- R305: the bytes that are not part of a well-formed character. -/
def utf8Bad : Nat → List Byte → List Bool
  | 0, _ => []
  | _ + 1, [] => []
  | k + 1, a :: t =>
    let (n, ok, _) := utf8Next (a :: t)
    List.replicate (max 1 n) (!ok) ++ utf8Bad k (t.drop (n - 1))

/-! ### Tokenising (R305 to R309) -/

/-- The best segmentation that reaches a byte position. -/
structure TokEnt where
  best : Val := .fin {}
  cnt  : Nat := 0
  frm  : Nat := 0
  tok  : Nat := 0
  deriving DecidableEq, Repr

/-- R306: relax(). A sum that falls to −∞ improves nothing, so a position of score −∞ stays unreached (`none`). -/
def tokRelax (base : Nat) (arr : List (Option TokEnt)) (i j t : Nat) (sc : Dy) : List (Option TokEnt) :=
  match arr.getD i none with
  | none => arr
  | some e =>
    let v := e.best.add (.fin sc)
    let isByte (x : Nat) : Bool := decide (base ≤ x ∧ x < base + 256)
    let new : TokEnt := { best := v, cnt := e.cnt + 1, frm := i, tok := t }
    if v = .inf true then arr else updAt (fun o => match o with
      | none => some new
      | some o =>
        if o.best.lt v || (!v.lt o.best && (decide (e.cnt + 1 < o.cnt) || (e.cnt + 1 == o.cnt &&
            (decide (i < o.frm) || (i == o.frm && isByte o.tok && !isByte t)))))
        then some new else some o) j arr

/-- R306: the ordinary-token edges from one position: end position, token, score. `l` holds the bytes after the
position's own with their bad marks. -/
def State.trieEdges (s : State) (v : Vocab) : List (Byte × Bool) → Nat → Nat → List (Nat × Nat × Nat)
  | l, n, j =>
    let (t, _, _) := s.trieNode v n
    let here := if t = 0x7FFFF then [] else
      let (_, _, fl, sc) := s.tokRec v t
      if fl % 2 = 1 then [] else [(j, t, sc)]
    match l with
    | [] => here
    | (b, bad) :: r => if bad then here else match s.trieChild v n b.toNat with
      | some m => here ++ s.trieEdges v r m (j + 1)
      | none => here

/-- R306: the outer loop. -/
def State.tokSweep (s : State) (v : Vocab) : List (Byte × Bool) → Nat → List (Option TokEnt) → List (Option TokEnt)
  | [], _, arr => arr
  | (b, bad) :: r, i, arr =>
    let arr1 := tokRelax v.base arr i (i + 1) (v.base + b.toNat) (f32Dy v.score)
    let arr2 := if bad then arr1 else
      (s.trieEdges v r b.toNat (i + 1)).foldl (fun a (j, t, sc) => tokRelax v.base a i j t (f32Dy sc)) arr1
    s.tokSweep v r (i + 1) arr2

/-- Follow from[] back. -/
def tokBack (arr : List (Option TokEnt)) : Nat → Nat → List Nat → List Nat
  | 0, _, acc => acc
  | k + 1, j, acc => if j = 0 then acc else match arr.getD j none with
    | some e => tokBack arr k e.frm (e.tok :: acc)
    | none => acc

/-- R305 to R307: the tokens of a byte string, and the number of bad bytes. Where no segmentation scores above −∞ the
pseudocode gives no path: the tokens, one for each byte, are open (log entry 79). -/
def State.segment (s : State) (v : Vocab) (l : List Byte) : List Nat × Nat :=
  let bad := utf8Bad l.length l
  let arr := s.tokSweep v (l.zip bad) 0 (some {} :: List.replicate l.length none)
  let toks := if (arr.getD l.length none).isSome then tokBack arr l.length l.length []
    else (List.range l.length).map fun i => (Config.freeValue s.freeCtr (2 ^ 44 + i)).toNat % max 1 v.size
  (toks, (bad.filter id).length)

/-- A unit of the text engine for input unit `u` (R308). -/
def State.txtUnit (s : State) (c : Cmd) (u : DUnit) (fmt : Nat) (fl : List Nat) (payload : List Byte) : StagedUnit :=
  let o := s.outUnit c fmt 592 (flagsOf fl) payload
  { o with unit := { o.unit with cls := u.cls, ctx := u.ctx } }

/-- What a TOKENISE produces on its input unit: results and bad bytes (R308). -/
def State.tokRun (s : State) (c : Cmd) (u : DUnit) : RunOut × Nat :=
  let v := s.vocab
  let (toks, bad) := s.segment v u.payload
  let bos := if (Desc.opflags c.desc).testBit 0 && v.bos != 0xFFFFFFFF then [v.bos] else []
  ({ outs := [s.txtUnit c u 0x31 [] ((bos ++ toks).flatMap (leBytes 4))] }, bad)

/-! ### Detokenising (R311 to R313) -/

/-- R311: the text of a token; whether it is at or above VOCAB_SIZE. -/
def State.tokText (s : State) (v : Vocab) (skip : Bool) (t : Nat) : List Byte × Bool :=
  if v.size ≤ t then ([0xEF, 0xBF, 0xBD], true)
  else if v.base ≤ t ∧ t < v.base + 256 then ([BitVec.ofNat 8 (t - v.base)], false)
  else
    let (o, n, fl, _) := s.tokRec v t
    (if fl % 2 = 1 ∧ skip then [] else s.read (v.str + o) n, false)

/-- R312, R313: well-formed text, held trailing bytes, and the replacements made. -/
def utf8Clean (last : Bool) : Nat → List Byte → List Byte × List Byte × Nat
  | 0, _ => ([], [], 0)
  | _ + 1, [] => ([], [], 0)
  | k + 1, a :: t =>
    let (n, ok, cut) := utf8Next (a :: t)
    if cut && !last then ([], a :: t, 0)
    else
      let (o, h, r) := utf8Clean last k (t.drop (n - 1))
      if ok then ((a :: t).take n ++ o, h, r) else ([0xEF, 0xBF, 0xBD] ++ o, h, r + 1)

/-- What a DETOKENISE produces: results, the bytes held, the replacements. -/
def State.detokRun (s : State) (c : Cmd) (u : DUnit) : RunOut × List Byte × Nat :=
  let v := s.vocab
  let toks := (chunks 4 u.payload).map leNat
  let txt := toks.map (s.tokText v ((Desc.opflags c.desc).testBit 1))
  let held := match s.hw.txt.heldUtf.find? fun e => e.1 == Desc.inStream c.desc && e.2.1 == u.item with
    | some e => e.2.2
    | none => []
  let body := held ++ txt.flatMap (·.1)
  let (o, h, r) := utf8Clean (u.has fLAST) body.length body
  ({ outs := [s.txtUnit c u 0x30 ((if txt.any (·.2) then [fINVALID] else []) ++ (if 0 < r then [fUNCERTAIN] else [])) o] }, h, r)

/-- R313: hold trailing bytes for the next unit of the item. -/
def holdUtf (stream : Nat) (item : BitVec 48) (h : List Byte) : Act :=
  .txt fun t => { t with heldUtf := (t.heldUtf.filter fun e => e.1 != stream) ++ (if h.isEmpty then [] else [(stream, item, h)]) }

/-! ### Constraint sets (R314 to R319) -/

/-- A constraint set header (R314). -/
structure CSet where
  ver    : Nat
  flags  : Nat
  vocab  : Nat
  fNodes : Nat
  fEdges : Nat
  fCount : Nat
  bCount : Nat
  bStates : Nat
  bEdges : Nat
  bList  : Nat
  deriving DecidableEq, Repr

def State.cset (s : State) (a : Nat) : CSet :=
  { ver := s.readN a 2, flags := s.readN (a + 2) 2, vocab := s.readN (a + 4) 4, fNodes := s.readN (a + 8) 8,
    fEdges := s.readN (a + 16) 8, fCount := s.readN (a + 24) 4, bCount := s.readN (a + 28) 4,
    bStates := s.readN (a + 32) 8, bEdges := s.readN (a + 40) 8, bList := s.readN (a + 48) 8 }

/-- R319: the header passes the checks of R314. -/
def State.csetOk (s : State) (c : CSet) : Bool :=
  c.ver == 1 && decide (c.flags < 4) && c.vocab == s.vocabSize && s.vocabSize != 0 && decide (c.fNodes % 64 = 0) &&
  decide (c.fEdges % 64 = 0) && decide (c.bStates % 64 = 0) && decide (c.bEdges % 64 = 0)

/-- A load (`some` address) or unload of a slot takes effect (R319). -/
def csetApply (slot : Nat) (a : Option Nat) : Act := .get fun s =>
  match a with
  | none => .seq (.setFld Reg.TXT.CSET_STATUS slot slot 0)
                 (.txt fun t => { t with csets := t.csets.filter fun e => e.1 != slot })
  | some a =>
    if s.csetOk (s.cset a) then
      .seq (.setFld Reg.TXT.CSET_STATUS slot slot 1)
           (.txt fun t => { t with csets := (slot, a) :: t.csets.filter fun e => e.1 != slot })
    else .all [.setFld Reg.TXT.CSET_STATUS slot slot 0,
               .txt fun t => { t with csets := t.csets.filter fun e => e.1 != slot }, txtRaise 1]

/-- Constraint state record of sequence `q` (R320). -/
structure CRec where
  pos   : Nat
  f     : Nat
  b     : Nat
  slot  : Nat
  valid : Bool
  ended : Bool
  deriving DecidableEq, Repr

def State.crecAddr (s : State) (q : Nat) : Nat := s.rd64 Reg.TXT.CSTATE_LO Reg.TXT.CSTATE_HI + 16 * q
def State.crec (s : State) (q : Nat) : CRec :=
  let a := s.crecAddr q
  let m := s.byte (a + 12)
  { pos := s.readN a 4, f := s.readN (a + 4) 4, b := s.readN (a + 8) 4, slot := bits m 3 0, valid := m.getLsbD 4,
    ended := m.getLsbD 5 }
def CRec.toBytes (r : CRec) : List Byte :=
  leBytes 4 r.pos ++ leBytes 4 r.f ++ leBytes 4 r.b ++ leBytes 1 (r.slot + 16 * b2n r.valid + 32 * b2n r.ended) ++ [0, 0, 0]

/-- An entry of a mask request (R322). -/
structure MaskEnt where
  seq : Nat
  slot : Nat
  init : Bool
  noToken : Bool
  noMask : Bool
  token : Nat
  pos : Nat
  deriving DecidableEq, Repr

def State.maskEnt (s : State) (q : MaskReq) (i : Nat) : MaskEnt :=
  let a := q.list + 16 * i
  let w := s.readN a 4
  { seq := w % 65536, slot := w / 65536 % 16, init := w.testBit 20, noToken := w.testBit 21, noMask := w.testBit 22,
    token := s.readN (a + 4) 4, pos := s.readN (a + 8) 4 }

/-- R319: does the running mask request use constraint slot `k`? -/
def State.slotInUse (s : State) (k : Nat) : Bool := match s.hw.txt.run with
  | none => false
  | some q => (List.range q.count).any fun i =>
      let e := s.maskEnt q i
      (if e.init then e.slot else (s.crec e.seq).slot) == k

/-- CSET_CMD written (R319). -/
def csetCmd (v : Word) : Act := .get fun s =>
  let k := bits v 11 8
  let a := s.rd64 Reg.TXT.CSET_LO Reg.TXT.CSET_HI
  let go (x : Option Nat) : Act :=
    if s.slotInUse k then .txt fun t => { t with later := t.later ++ [(k, x)] } else csetApply k x
  if v.getLsbD 0 then go (some a) else if v.getLsbD 1 then go none else .nil

/-- CSET_DEFERRED_APPLY (R319): what waited for the request that ended takes effect, in the order written. -/
def csetDeferredAct : Act := .get fun s =>
  .when s.hw.txt.run.isNone (.seq (.each s.hw.txt.later fun x => csetApply x.1 x.2) (.txt fun t => { t with later := [] }))

/-! ### Applying a token (R315 to R318, R321) -/

/-- Edge of node or state with edges `first … first + n` for token `t`. -/
def State.edgeOf (s : State) (edges first n t : Nat) : Option Nat :=
  (((List.range n).map fun i => edges + 8 * (first + i)).find? fun a => s.readN a 4 == t).map fun a => s.readN (a + 4) 4

/-- Forced node `n`: first edge, number, ACCEPT, FREE, BITMAP, bitmap address (R315). -/
def State.fNode (s : State) (c : CSet) (n : Nat) : Nat × Nat × Bool × Bool × Bool × Nat :=
  let a := c.fNodes + 16 * n
  let w := s.readN (a + 4) 4
  (s.readN a 4, w % 2 ^ 20, w.testBit 24, w.testBit 25, w.testBit 26, s.readN (a + 8) 8)

/-- Ban state: first edge, number, fail, first banned, number (R317). -/
def State.bState (s : State) (c : CSet) (n : Nat) : Nat × Nat × Nat × Nat × Nat :=
  let a := c.bStates + 32 * n
  (s.readN a 4, s.readN (a + 4) 4 % 2 ^ 20, s.readN (a + 8) 4, s.readN (a + 12) 4, s.readN (a + 16) 4)

/-- R321: the ban automaton's transition; at most 8 failure links (R318). The number of states read comes with it. -/
def State.banStep (s : State) (c : CSet) (t : Nat) : Nat → Nat → Option Nat × Nat
  | 0, _ => (none, 0)
  | k + 1, b =>
    if c.bCount ≤ b then (none, 0)
    else
      let (f, n, fail, _, _) := s.bState c b
      match s.edgeOf c.bEdges f n t with
      | some x => (some x, 2)
      | none => if b = 0 then (some 0, 2) else let r := s.banStep c t k fail; (r.1, r.2 + 2)

/-- R321: apply token `t`; `none` when an index lies outside its array (R327 reason 5). With it, the record fetches
and edges read. -/
def State.applyToken (s : State) (c : CSet) (eos : Nat) (r : CRec) (t : Nat) : Option CRec × Nat × Nat :=
  let fEn := c.flags.testBit 0
  let bEn := c.flags.testBit 1
  if s.vocabSize ≤ t ∨ (fEn ∧ c.fCount ≤ r.f) then (none, 0, 0)
  else
    let (fe, n, acc, free, _, _) := s.fNode c r.f
    let e := s.edgeOf c.fEdges fe n t
    let (f, ended) := if !fEn then (r.f, r.ended)
      else if t = eos ∧ acc then (r.f, true)
      else match e with
        | some x => (x, r.ended)
        | none => (r.f, r.ended || !free)
    let (b, k) := if bEn then s.banStep c t 9 r.b else (some r.b, 0)
    match b with
    | none => (none, k, n)
    | some b => (some { r with f := f, b := b, ended := ended || t == eos, pos := (r.pos + 1) % 2 ^ 32 }, k + 2, if fEn then n else 0)

/-! ### Masks (R323 to R327) -/

/-- Masked output of one entry: mode, reason, COUNT, body. -/
structure MaskOut where
  mode   : Nat
  reason : Nat := 0
  count  : Nat := 0
  body   : List Byte := []
  deriving DecidableEq, Repr

/-- A bitmap body of `v` tokens. -/
def bitmapBody (v : Nat) (allow : Nat → Bool) : List Byte :=
  (List.range (64 * ceilDiv v 512)).map fun k =>
    BitVec.ofNat 8 (sumNat ((List.range 8).map fun j => if 8 * k + j < v ∧ allow (8 * k + j) then 2 ^ j else 0))

/-- R325: a list mask, or the bitmap that says the same when the list would not fit. -/
def listMask (v mode : Nat) (l : List Nat) : MaskOut :=
  if 4 * l.length ≤ 64 * ceilDiv v 512 then { mode := mode, count := l.length, body := l.flatMap (leBytes 4) }
  else
    let allow (t : Nat) : Bool := l.contains t == (mode == 2)
    { mode := 3, count := ((List.range v).filter allow).length, body := bitmapBody v allow }

/-- R324: the mask of a record; the record fetches, edges and banned tokens it needs. -/
def State.maskOf (s : State) (c : CSet) (eos : Nat) (r : CRec) : MaskOut × Nat × Nat × Nat :=
  let v := s.vocabSize
  let fEn := c.flags.testBit 0
  let bEn := c.flags.testBit 1
  if r.ended then ({ mode := 5 }, 0, 0, 0)
  else if (fEn ∧ c.fCount ≤ r.f) ∨ (bEn ∧ c.bCount ≤ r.b) then ({ mode := 6, reason := 5 }, 0, 0, 0)
  else
    let (fe, n, acc0, free0, bm, ba) := s.fNode c r.f
    let (acc, free) := if fEn then (acc0, free0) else (true, true)
    let (_, _, _, bf, bn) := s.bState c r.b
    let ban := if bEn then (List.range bn).map fun i => s.readN (c.bList + 4 * (bf + i)) 4 else []
    let cost (m : MaskOut) (e : Nat) : MaskOut × Nat × Nat × Nat := (m, 2, e, ban.length)
    if ban.any fun t => decide (v ≤ t) then ({ mode := 6, reason := 5 }, 2, 0, ban.length)
    else if free then
      let deny := (sortNat (ban ++ (if acc then [] else [eos]))).dedup
      if ((List.range v).all fun t => deny.contains t) then cost { mode := 5 } 0 else cost (listMask v 1 deny) 0
    else if bm then
      let allow (t : Nat) : Bool :=
        (if t = eos then acc else (s.byte (ba + t / 8)).getLsbD (t % 8)) && !ban.contains t
      let k := ((List.range v).filter allow).length
      if k = 0 then cost { mode := 5 } 0 else cost { mode := 3, count := k, body := bitmapBody v allow } 0
    else
      let edges := (List.range n).map fun i => s.readN (c.fEdges + 8 * (fe + i)) 4
      if edges.any fun t => decide (v ≤ t) then ({ mode := 6, reason := 5 }, 2, n, ban.length)
      else
        let a := (sortNat ((edges ++ (if acc then [eos] else [])).filter fun t => !ban.contains t)).dedup
        if a.isEmpty then cost { mode := 5 } n else cost (listMask v 2 a) n

/-- What processing one entry does: the record to write, the mask, whether it is beyond R328. -/
structure EntryOut where
  record : Option CRec := none
  mask   : MaskOut
  pos    : Nat := 0
  slow   : Bool := false
  deriving DecidableEq, Repr

/-- R431: has context `c` passed a step boundary since the item of sequence `q` was removed? -/
def State.seqRemoved (s : State) (c q : Nat) : Bool :=
  s.hw.kv.binds.any fun b => b.1 == q && s.hw.disp.removed.any fun r => r.1 == b.2 && r.2.contains c

/-- R323: process entry `i`; a removed sequence gets DEAD (R431). The NEXT_POS of a refused entry's mask is that of the
sequence's record as it stands (log entry 79). -/
def State.maskEntry (s : State) (q : MaskReq) (i : Nat) : EntryOut :=
  let e := s.maskEnt q i
  let fault (r : Nat) : EntryOut := { mask := { mode := 6, reason := r }, pos := (s.crec e.seq).pos }
  let v := s.vocab
  if s.seqRemoved q.ctx e.seq then { mask := { mode := 5 }, pos := (s.crec e.seq).pos }
  else if (s.rd Reg.TXT.CSTATE_MAX).toNat ≤ e.seq then fault 6
  else if (List.range i).any fun j => (s.maskEnt q j).seq == e.seq then fault 3
  else
    let r0 := s.crec e.seq
    let r1 : CRec := if e.init then { pos := e.pos, f := 0, b := 0, slot := e.slot, valid := true, ended := false } else r0
    let init := if e.init then some r1 else none
    if !e.init && !r0.valid then fault 1
    else match alFind r1.slot s.hw.txt.csets with
      | none => { fault 4 with record := init, pos := r1.pos }
      | some a =>
        let c := s.cset a
        if !e.init && !e.noToken && decide (r1.pos < e.pos) then { fault 2 with pos := r1.pos }
        else
          let apply := !e.noToken && e.pos == r1.pos
          let (r2, k1, e1) := if apply then s.applyToken c v.eos r1 e.token else (some r1, 0, 0)
          match r2 with
          | none => { fault 5 with record := init, pos := r1.pos }
          | some r2 =>
            let (m, k2, e2, bn) := s.maskOf c v.eos r2
            { record := if e.init || apply then some r2 else none, mask := m, pos := r2.pos,
              slow := decide (12 < k1 + k2 ∨ 4096 < e1 + e2 ∨ 1024 < bn) }

/-- R325: the 64 header bytes of a mask. -/
def maskHeader (seq : Nat) (m : MaskOut) (pos admitted : Nat) : List Byte :=
  leBytes 2 seq ++ leBytes 1 m.mode ++ leBytes 1 m.reason ++ leBytes 4 m.count ++ leBytes 4 pos ++ leBytes 4 0 ++
    leBytes 8 admitted ++ List.replicate 40 0

/-- Write the mask of entry `i`: body first, header last (R325); counted (R329). -/
def writeMask (q : MaskReq) (i : Nat) (m : MaskOut) (pos : Nat) : Act := .get fun s =>
  let a := q.buf + i * maskSlotBytes s.vocabSize
  .all [.guarded q.cls (a + 64) m.body, .guarded q.cls a (maskHeader (s.maskEnt q i).seq m pos q.admitted),
        .bump Reg.TXT.MASK_CNT 1,
        .when (m.mode == 4) (.seq (.bump Reg.TXT.MASK_LATE 1) (txtRaise 2)),
        .when (decide (5 ≤ m.mode)) (.seq (.bump Reg.TXT.MASK_DEAD 1) (txtRaise 3)),
        .when (m.reason != 0) (.wrN Reg.TXT.LAST_ERR ((s.maskEnt q i).seq + 65536 * m.reason))]

/-- Entry `i` of the running request is done with reason `r`. -/
def maskDone (i r : Nat) : Act := .txt fun t => { t with run := t.run.map fun q => { q with done := q.done ++ [(i, r)] } }

/-- The request ends when every entry is done: its command has finished (R330). -/
def maskEndCheck : Act := .get fun s => match s.hw.txt.run with
  | none => .nil
  | some q => .when (q.done.length == q.count) <| .all
      [.maxReg Reg.TXT.MASK_TIME_MAX (s.now - q.start), .txt fun t => { t with run := none },
       .cmd q.cmd fun c => { c with arrived := true, reasons := (q.done.filter fun x => x.2 != 0) }]

/-- MASK_ENTRY (R323, R327, R331): lanes work through their entries in list order. -/
def maskEntryAct (i : Nat) : Act := .get fun s => match s.hw.txt.run with
  | none => .nil
  | some q =>
    let ready := decide (i < q.count) && !(q.done.any fun x => x.1 == i) &&
      (decide (i < 32) || q.done.any fun x => x.1 == i - 32)
    .when ready <|
      let e := s.maskEnt q i
      let o := s.maskEntry q i
      .all [(match o.record with
              | some r => .guarded q.cls (s.crecAddr e.seq) r.toBytes
              | none => .nil),
            if e.noMask then .when (o.mask.reason != 0) (.wrN Reg.TXT.LAST_ERR (e.seq + 65536 * o.mask.reason))
            else writeMask q i o.mask o.pos,
            .when o.slow (.bump Reg.TXT.MASK_SLOW 1),
            maskDone i o.mask.reason, maskEndCheck]

/-- MASK_LIMIT_EXPIRY (R329 step 3, R332): every unwritten mask is written as LATE. Whether a lane had begun the state
update of the entry it was working on is open; an update begun is finished. -/
def maskLimitAct : Act := .get fun s => match s.hw.txt.run with
  | none => .nil
  | some q =>
    let open_ := (List.range q.count).filter fun i => !(q.done.any fun x => x.1 == i) && !(s.maskEnt q i).noMask
    .when (decide (q.start + (s.rd Reg.TXT.MASK_LIMIT).toNat * 1000 ≤ s.now)) <| .fresh fun k =>
      .seq (.each open_ fun i => .get fun t =>
        let first := !((List.range q.count).any fun j => decide (j < i) && j % 32 == i % 32 && !(q.done.any fun x => x.1 == j))
        let o := s.maskEntry q i
        .all [.when (first && (Config.freeValue k i).getLsbD 0) (match o.record with
                | some r => .guarded q.cls (s.crecAddr (s.maskEnt q i).seq) r.toBytes
                | none => .nil),
              writeMask q i { mode := 4, reason := 0 } (t.crec (s.maskEnt q i).seq).pos,
              maskDone i 0]) maskEndCheck

/-- R330: the order in which requests start: class 1, class 0, then the others in the order of admission. -/
def nextMask (l : List MaskReq) : Option MaskReq :=
  ((l.find? fun q => q.cls == 1).or (l.find? fun q => q.cls == 0)).or l.head?

/-- MASK_REQUEST_START (R329, R330). -/
def maskStartAct : Act := .get fun s =>
  .when (s.hw.txt.run.isNone && s.bit Reg.TXT.TXT_CTRL 0) <| match nextMask s.hw.txt.queue with
    | none => .nil
    | some q => .all
      [.txt fun t => { t with queue := t.queue.filter fun x => x.cmd != q.cmd, run := some { q with start := s.now, done := [] } },
       .cmd q.cmd fun c => { c with phase := .running, issued := some (c.issued.getD s.now) }]

/-- R412, R329: the request of MASK command `id` joins the queue at its admission. -/
def maskRequest (id : Nat) : Act := .withCmd id fun c => .get fun s =>
  let q : MaskReq :=
    { cmd := id, ctx := c.ctx, cls := c.cls, list := Desc.auxAddr c.desc, buf := Desc.paramAddr c.desc,
      count := Desc.auxCount c.desc, admitted := s.now }
  .txt fun t => { t with queue := t.queue ++ [q] }

/-- R334: the requests of a context torn down end; R332: masks and records written stand. -/
def txtCtxDown (c : Nat) : Act := .txt fun t =>
  { t with queue := t.queue.filter fun q => q.ctx != c
           run := match t.run with
             | some q => if q.ctx = c then none else some q
             | none => none }

/-- A MASK command left the dispatcher otherwise: its request ends. -/
def txtCmdGone (id : Nat) : Act := .txt fun t =>
  { t with queue := t.queue.filter fun q => q.cmd != id
           run := match t.run with
             | some q => if q.cmd = id then none else some q
             | none => none }

/-- R333: a SAMPLE may select: no mask request of its context for its buffer is waiting, and the one being served has
written every header. -/
def State.masksWritten (s : State) (c : Cmd) : Bool :=
  let buf := Desc.paramAddr c.desc
  s.masksReady c.desc && !(s.hw.txt.queue.any fun q => q.ctx == c.ctx && q.buf == buf) &&
  (match s.hw.txt.run with
   | some q => !(q.ctx == c.ctx && q.buf == buf) ||
       (List.range q.count).all fun i => (s.maskEnt q i).noMask || q.done.any fun x => x.1 == i
   | none => true)

/-! ### The vocabulary cache (R303) -/

/-- VCACHE_MISS_FILL: a line is fetched into a way of its set that the unit may fill; the least recently used goes. -/
def vcacheFillAct (line : Nat) (byMask parity : Bool) : Act := .get fun s =>
  let ways := s.fld Reg.TXT.TXT_CTRL 7 4
  let room := if byMask then ways else 16 - ways
  let others := s.hw.txt.vcache.filter fun e => e.1 != line
  let mine := others.filter fun e => e.1 % 2048 == line % 2048 && e.2 == byMask
  let kept := if room ≤ mine.length then
      match mine.getLast? with
      | some v => others.filter (· != v)
      | none => others
    else others
  .all [.bump Reg.TXT.VCACHE_MISS 1,
        .when (room != 0) (.txt fun t => { t with vcache := (line, byMask) :: kept }),
        .when parity (.seq (.bump Reg.TXT.VCACHE_PAR 1) (txtRaise 4))]

/-! ### Registers of the TXT page (R335) -/

def txtDrops (s : State) (off : Nat) (v : Word) : Bool :=
  (off == 0x050 && v.getLsbD 0 && s.txtBusy) || ([0x048, 0x04C, 0x058, 0x05C, 0x060].contains off && s.bit Reg.TXT.TXT_STATUS 0)

def txtWrite (off : Nat) (v : Word) : Act :=
  if off = 0x050 then vocabCmd v else if off = 0x06C then csetCmd v else .nil

def txtComputed (s : State) (off : Nat) : Option Word :=
  if off = 0x044 then
    let t := s.hw.txt
    some (BitVec.ofNat 32 (b2n (s.bit Reg.TXT.TXT_STATUS 0) + 2 * b2n t.run.isSome + 4 * b2n t.tok.isSome +
      8 * b2n t.detok.isSome + 256 * (match t.run with
        | some q => q.ctx
        | none => 0) + 65536 * min t.queue.length 255))
  else none

end Sys2Proof.Machine
end

