-- ==== Sys2Proof/Machine/Kv.lean ====
section
/-! DEFINITION. The key-value cache (06_attention_and_kv_cache): pool, frames, sequences, locks, growth, eviction, drop,
pause, orphaning, translation, and what the admission of an ATTENTION command does (R246, R266 to R285). -/

namespace Sys2Proof.Machine

/-- Change key-value state. -/
def Act.kv (f : KvSt → KvSt) : Act := .hw fun h => { h with kv := f h.kv }
/-- Raise source 576 + 4w + k (R296). -/
def kvRaise (w k : Nat) : Act := .raise .KVW w k

/-! ### Sequence records (R258) -/

def State.seqAddr (s : State) (q : Nat) : Nat := s.rd64 Reg.KVW.STAB_LO Reg.KVW.STAB_HI + 64 * q

/-- A sequence record. -/
structure SeqRec where
  state   : Nat
  locked  : Bool
  evictOk : Bool
  layout  : Nat
  dropped : Bool
  owner   : Nat
  devIdx  : Nat
  devs    : Nat
  len     : Nat
  pt      : Nat
  cap     : Nat
  share   : Nat
  gen     : Nat
  tokens  : Nat
  created : Nat
  evicted : Nat
  headBase : Nat
  headCnt : Nat
  posBase : Nat
  target  : Nat
  deriving DecidableEq, Repr

/-- Read a sequence record. -/
def State.seqRec (s : State) (q : Nat) : SeqRec :=
  let a := s.seqAddr q
  let f := (s.byte a).toNat
  let n (o k : Nat) := s.readN (a + o) k
  { state := f % 8, locked := f.testBit 3, evictOk := f.testBit 4, layout := f / 32 % 4, dropped := f.testBit 7,
    owner := n 2 1, devIdx := n 3 1 % 8, devs := n 3 1 / 8 % 8 + 1, len := n 4 4, pt := n 8 8, cap := n 16 4,
    share := n 20 2, gen := n 22 2, tokens := n 24 8, created := n 32 8, evicted := n 48 4, headBase := n 52 2,
    headCnt := n 54 2, posBase := n 56 4, target := n 60 4 }

/-- STATE of a sequence (R258). -/
abbrev sqFREE : Nat := 0
abbrev sqACTIVE : Nat := 1
abbrev sqPAUSED : Nat := 2
abbrev sqORPHANED : Nat := 3

/-- Write a field of `k` bytes of a sequence record. -/
def Act.seqFld (q off k v : Nat) : Act := .get fun s => .mem (s.seqAddr q + off) k v
/-- Change the first byte of a sequence record: STATE, LOCKED, EVICT_OK, LAYOUT, DROPPED. -/
def Act.seqFlags (q : Nat) (f : Byte → Byte) : Act := .get fun s => .bytes (s.seqAddr q) [f (s.byte (s.seqAddr q))]
def Act.seqState (q v : Nat) : Act := .seqFlags q fun b => setBits b 2 0 v
def Act.seqLock (q c : Nat) : Act := .seq (.seqFlags q fun b => setBits b 3 3 1) (.seqFld q 2 1 c)
def Act.seqUnlock (q : Nat) : Act := .seqFlags q fun b => setBits b 3 3 0
/-- GEN is raised by one (R258). -/
def Act.seqGen (q : Nat) : Act := .get fun s => .seqFld q 22 2 ((s.seqRec q).gen + 1)

/-- Positions committed, counted from the sequence's first: in position layout LENGTH counts this device's span. -/
def SeqRec.glen (r : SeqRec) : Nat := r.len + (if r.layout = 2 then 16 * r.posBase else 0)

/-! ### Page tables and frames (R257, R259) -/

/-- Page-table entry `i`. -/
def State.pte (s : State) (r : SeqRec) (i : Nat) : Nat := s.readN (r.pt + 4 * i) 4
def Act.pte (r : SeqRec) (i v : Nat) : Act := .mem (r.pt + 4 * i) 4 v
def pteFrame (w : Nat) : Nat := w % 2 ^ 24
def pteValid (w : Nat) : Bool := w.testBit 24
def ptePinned (w : Nat) : Bool := w.testBit 25
def pteEvicted (w : Nat) : Bool := w.testBit 26
def pteRemote (w : Nat) : Bool := w.testBit 27
/-- R259: a combination of VALID, EVICTED and REMOTE that is a page-table error. -/
def pteBad (w : Nat) : Bool := decide (1 < b2n (pteValid w) + b2n (pteEvicted w) + b2n (pteRemote w))
/-- R259: held in a local frame. -/
def pteLocal (w : Nat) : Bool := pteValid w && !pteEvicted w && !pteRemote w

def State.ftabAddr (s : State) (f : Nat) : Nat := s.rd64 Reg.KVW.FTAB_LO Reg.KVW.FTAB_HI + 32 * f
def State.frameOwner (s : State) (f : Nat) : Nat := s.readN (s.ftabAddr f) 2
def State.frameGen (s : State) (f : Nat) : Nat := s.readN (s.ftabAddr f + 2) 2
def State.framePage (s : State) (f : Nat) : Nat := s.readN (s.ftabAddr f + 4) 4
def State.frameScore (s : State) (f : Nat) : Dy := f32Dy (s.readN (s.ftabAddr f + 8) 4)
def State.frameFill (s : State) (f : Nat) : Nat := s.readN (s.ftabAddr f + 12) 1
def State.frameUsed (s : State) (f : Nat) : Bool := s.readN (s.ftabAddr f + 13) 1 == 1
def State.frameNext (s : State) (f : Nat) : Nat := s.readN (s.ftabAddr f + 24) 4

/-- The sequence's pages held in local frames. -/
def State.localPages (s : State) (r : SeqRec) : List Nat := (List.range r.cap).filter fun i => pteLocal (s.pte r i)

/-- R264 step 5: matching entries leave all 36 LABs. -/
def labDrop (p : LabEntry → Bool) : Act := .kv fun k => { k with labs := k.labs.map fun l => l.filter fun e => !p e }

/-- A frame joins the free list. -/
def freeFrame (f : Nat) : Act := .get fun s => .all
  [.mem (s.ftabAddr f + 13) 1 0, .mem (s.ftabAddr f + 24) 4 (s.rd Reg.KVW.FREE_HEAD).toNat,
   .wrN Reg.KVW.FREE_HEAD f, .bump Reg.KVW.FREE_FRAMES 1]

/-- Page `i` of sequence `q` gives up its frame; its page-table entry becomes `v`. -/
def freePage (q i v : Nat) : Act := .get fun s =>
  let r := s.seqRec q
  let w := s.pte r i
  .all [.pte r i v, labDrop fun e => e.seq == q && e.page == i, .when (pteLocal w) (freeFrame (pteFrame w))]

/-- R283, R295: the sequence is cut to `len` positions and frames wholly beyond it are freed. -/
def truncateSeq (q len : Nat) : Act := .get fun s =>
  let r := s.seqRec q
  .seq (.each ((s.localPages r).filter fun i => decide (len ≤ 16 * i)) fun i => freePage q i 0)
       (.seqFld q 4 4 (len - (if r.layout = 2 then 16 * r.posBase else 0)))

/-- R276: drop a sequence; `full` is RC_TARGET. -/
def dropSeq (w q full : Nat) : Act := .get fun s =>
  let r := s.seqRec q
  .all [.seqFld q 60 4 full,
        .each ((List.range r.cap).filter fun i => s.pte r i != 0) (fun i => freePage q i (if ptePinned (s.pte r i) then 0x02000000 else 0)),
        .seqFld q 4 4 0, .seqFld q 48 4 0, .seqFlags q (fun b => setBits b 7 7 1), .seqGen q,
        labDrop (fun e => e.seq == q), .bump (Reg.KVW.DROP_CNT w) 1, kvRaise w 2]

/-- R295: RELEASE: every frame freed, STATE FREE, GEN raised. -/
def releaseSeq (q : Nat) : Act := .get fun s =>
  let r := s.seqRec q
  .all [.each ((List.range r.cap).filter fun i => s.pte r i != 0) (fun i => freePage q i 0), .seqState q sqFREE, .seqGen q,
        labDrop (fun e => e.seq == q), .kv fun k => { k with binds := k.binds.filter fun b => b.1 != q }]

/-! ### Eviction, drop and pause (R267 to R274) -/

/-- Highest page of a sequence held in a frame. -/
def State.topPage (s : State) (r : SeqRec) : Option Nat := (s.localPages r).getLast?

/-- R268: is frame `f` eligible for eviction? -/
def State.evictable (s : State) (f : Nat) : Bool :=
  let q := s.frameOwner f
  let r := s.seqRec q
  let p := s.framePage f
  s.bit Reg.KVW.KVW_CTRL 1 && s.frameUsed f && r.evictOk && !r.locked && decide (p < r.cap) && !ptePinned (s.pte r p) &&
  pteLocal (s.pte r p) && pteFrame (s.pte r p) == f && decide (s.fld Reg.KVW.EVICT_CFG 7 4 ≤ p) && s.topPage r != some p

/-- R268: the order of eviction. -/
def State.evictLt (s : State) (a b : Nat) : Bool :=
  (s.frameScore a).lt (s.frameScore b) || (!(s.frameScore b).lt (s.frameScore a) && decide (a < b))

/-- R269: the 64 lowest-scoring eligible frames. -/
def State.scanFrames (s : State) : List Nat :=
  (sortBy s.evictLt ((List.range (s.fld Reg.KVW.POOL_FRAMES 23 0)).filter s.evictable)).take 64

/-- R270: evict frame `f` by walker `w`. -/
def evictFrame (w f : Nat) : Act := .get fun s =>
  let q := s.frameOwner f
  let r := s.seqRec q
  let p := s.framePage f
  let pte := s.pte r p
  .all [.seqFld q 48 4 (r.evicted + s.frameFill f), freePage q p ((pte &&& 0xFEFFFFFF) ||| 0x04000000),
        .bump (Reg.KVW.EVICT_CNT w) 1]

/-- R272: the order of ranks: is sequence `a` lower than `b`? -/
def State.rankLt (s : State) (a b : Nat) : Bool :=
  let x := s.seqRec a
  let y := s.seqRec b
  decide (x.share < y.share) || (x.share == y.share && (decide (y.created < x.created) ||
    (x.created == y.created && decide (b < a))))

/-- R272: the drop candidates beside the growing sequence `q`. -/
def State.dropCands (s : State) (q : Nat) : List Nat :=
  (List.range (s.fld Reg.KVW.SEQ_MAX 16 0)).filter fun x =>
    let r := s.seqRec x
    x != q && !r.locked && !(s.localPages r).isEmpty

/-- Is there a free frame? -/
def State.haveFrame (s : State) : Bool := s.rd Reg.KVW.FREE_HEAD != 0xFFFFFFFF#32

/-- R266, R271: give the frame at the head of the free list to page `p` of sequence `q`. -/
def takeFrame (q p : Nat) : Act := .get fun s =>
  let f := (s.rd Reg.KVW.FREE_HEAD).toNat
  let r := s.seqRec q
  .all [.wrN Reg.KVW.FREE_HEAD (s.frameNext f), .wrN Reg.KVW.FREE_FRAMES ((s.rd Reg.KVW.FREE_FRAMES).toNat - 1),
        .mem (s.ftabAddr f) 4 (q + 65536 * r.gen), .mem (s.ftabAddr f + 4) 4 p, .mem (s.ftabAddr f + 8) 4 0,
        .mem (s.ftabAddr f + 12) 2 256,
        .pte r p (f + 0x01000000 + (if ptePinned (s.pte r p) then 0x02000000 else 0))]

/-- Mark entry `i` of command `id`. -/
def Act.seqPart (id i : Nat) (f : SeqPart → SeqPart) : Act :=
  .cmd id fun c => { c with seqs := c.seqs.map fun x => if x.idx = i then f x else x }

/-- R285: the last refusal of walker `w`. -/
def kvLastErr (w q reason : Nat) : Act := .wrN (Reg.KVW.LAST_ERR w) (q + 65536 * reason)

/-- R274: the growing sequence is paused. Its part leaves the command: it waits as a command of its own (R273). -/
def pauseSeq (w id i q : Nat) : Act := .withCmd id fun c => .get fun s =>
  let others := c.seqs.any fun x => x.idx != i && x.reason == 0 && !x.paused
  let n := s.hw.disp.nextId
  .all [.seqState q sqPAUSED, .bump (Reg.KVW.PAUSE_CNT w) 1, kvRaise w 1, kvLastErr w q 4,
        if others then .seq
          (.disp fun d => { d with nextId := n + 1, cmds := d.cmds ++ [
            { c with id := n, phase := .admitted, inSlot := none,
                     seqs := (c.seqs.filter fun x => x.idx == i).map fun x => { x with paused := true } }] })
          (.seq (.cmd id fun x => { x with seqs := x.seqs.filter fun y => y.idx != i })
                (.kv fun k => { k with paused := k.paused ++ [(n, i, q)] }))
        else .seq (.seqPart id i fun x => { x with paused := true }) (.kv fun k => { k with paused := k.paused ++ [(id, i, q)] })]

/-- R267: page `p` of sequence `q` needs a frame; `scanned` says that a scan has completed since the need arose (R269);
`k` runs when it has one. -/
def allocPage (w id i q p : Nat) (scanned : Bool) (k : Act) : Act := .get fun s =>
  if s.haveFrame then .seq (takeFrame q p) k
  else match (s.hw.kv.cands.getD w []).find? s.evictable with
    | some f => .all [evictFrame w f, takeFrame q p, k]
    | none =>
      if !scanned then .kv fun x => { x with wanting := x.wanting ++ [(id, i, q)] }
      else match leastBy s.rankLt (s.dropCands q) with
        | some v => if s.rankLt v q then .all [dropSeq w v (s.seqRec v).len, takeFrame q p, k] else pauseSeq w id i q
        | none => pauseSeq w id i q

/-- Frames for several pages, in order. -/
def allocPages (w id i q : Nat) (scanned : Bool) : List Nat → Act
  | [] => .nil
  | p :: t => allocPage w id i q p scanned (allocPages w id i q scanned t)

/-! ### Admission of an ATTENTION command -/

/-- The attention block of a command. -/
def State.attn (s : State) (d : BitVec 512) : AttnBlock := attnBlock (s.read (Desc.paramAddr d) 32)

/-- R246: the block meets a condition outside R244, or the pool's settings differ. -/
def State.attnBad (s : State) (b : AttnBlock) : Bool :=
  let hkv := s.fld Reg.KVW.POOL_GEOM 27 20
  let f16 (x : Nat) : Bool := x == 0x10 || x == 0x11
  b.resv || !([0x03, 0x05, 0x10, 0x11].contains b.kvFmt) || !([0x03, 0x05, 0x10, 0x11].contains b.qFmt) ||
  !([0x05, 0x10].contains b.pFmt || (b.op == 2 && b.pFmt == 0x11)) || decide (b.hq < 1 ∨ 128 < b.hq) ||
  decide (b.hkv < 1 ∨ b.hq < b.hkv ∨ b.hq % b.hkv ≠ 0) || decide (b.d < 16 ∨ 256 < b.d ∨ b.d % 16 ≠ 0) ||
  decide (b.chunk < 128 ∨ 2048 < b.chunk ∨ b.chunk % 128 ≠ 0) || !f32PosFinite b.scale ||
  decide (b.stats % 4 ≠ 0) || b.kvFmt != s.fld Reg.KVW.POOL_FMT 7 0 || b.hkv != hkv || b.d != s.fld Reg.KVW.POOL_FMT 24 16 ||
  decide (s.fld Reg.KVW.POOL_GEOM 15 0 / max hkv 1 ≤ b.layer) ||
  (b.op == 2 && (!(f16 b.qFmt && f16 b.kvFmt && f16 b.pFmt) || b.stats == 0))

/-- R245, R246: a sequence-list entry out of range. -/
def State.entryBad (s : State) (e : SeqEntry) : Bool :=
  e.resv || e.n == 0 || decide (s.fld Reg.KVW.SEQ_MAX 16 0 ≤ e.seq)

/-- R289: does this device hold the sequence's highest page, and so combine? -/
def State.combines (s : State) (r : SeqRec) : Bool :=
  match ((List.range r.cap).filter fun i => s.pte r i != 0).getLast? with
  | some i => !pteRemote (s.pte r i)
  | none => true

/-- Positions of the sequence once the entry's new tokens are committed (R246, R265); in position layout only
the device with the highest page appends (R289). -/
def State.newLen (s : State) (op : Nat) (r : SeqRec) (e : SeqEntry) : Nat :=
  let l := r.glen
  if op = 2 ∨ r.layout = 2 ∧ !s.combines r then l else if op = 3 then l + e.n else if e.first ≤ l then max l (e.first + e.n) else l + e.n

/-- R266: the pages the new tokens need and do not have. -/
def State.pagesNeeded (s : State) (r : SeqRec) (upTo : Nat) : List Nat :=
  if upTo ≤ r.glen then []
  else ((List.range (ceilDiv upTo 16)).filter fun i => decide (r.glen / 16 ≤ i)).filter fun i => !pteLocal (s.pte r i)

/-- The walker that serves context `c` at admission: that of its home stripe. -/
def State.walkerOf (s : State) (c : Nat) : Nat := s.ctxHome c % 4

/-- R280, R283: the reason entry `e` is refused for by the lock or the orphaning, 0 when it is accepted. -/
def State.lockReason (s : State) (c : Nat) (e : SeqEntry) : Nat :=
  let r := s.seqRec e.seq
  if r.state = sqORPHANED then (if e.revalidate && e.acquire && decide (e.first ≤ r.glen) then 0 else 2)
  else if e.acquire then (if r.locked && r.owner != c then 1 else 0)
  else if r.locked && r.owner == c then 0 else 1

/-- Refuse entry `i` (R285). -/
def refuseEntry (w id i q reason : Nat) : Act :=
  .seq (.seqPart id i fun x => { x with reason := reason }) (kvLastErr w q reason)

/-- Admit entry `i` of an ATTENTION command: removed item, lock, orphan, drop, capacity, frames. -/
def admitEntry (w id c op i : Nat) (e : SeqEntry) : Act := .get fun s =>
  let q := e.seq
  let why := s.lockReason c e
  if s.seqRemoved c q then refuseEntry w id i q 0x48
  else if why ≠ 0 then refuseEntry w id i q why
  else .all
    [.when ((s.seqRec q).state == sqORPHANED) (.seq (truncateSeq q e.first) (.seqState q sqACTIVE)),
     .when (e.acquire) (.seqLock q c),
     .get fun t =>
       let r := t.seqRec q
       let upTo := t.newLen op r e
       if r.dropped ∧ op ≤ 1 then refuseEntry w id i q 3
       else if 16 * r.cap < upTo then refuseEntry w id i q 6
       else if r.state = sqPAUSED then pauseSeq w id i q
       else allocPages w id i q false (t.pagesNeeded r upTo)]

/-- A command none of whose entries is left ends (R285). -/
def attnLeft (id : Nat) : Act := .withCmd id fun c =>
  .when (!c.seqs.isEmpty && c.seqs.all fun x => x.reason != 0) <| match c.seqs with
    | x :: _ => endCmd id (if 5 ≤ x.reason ∧ x.reason ≤ 7 then stFAULT else stABORTED) x.reason x.idx false
    | [] => .nil

/-- What the admission of ATTENTION command `id` does. -/
def attnAdmit (id : Nat) : Act := .withCmd id fun c => .get fun s =>
  let b := s.attn c.desc
  let es := s.seqList c.desc
  let w := s.walkerOf c.ctx
  let bad := (es.zipIdx.find? fun x => s.entryBad x.1).map (·.2)
  .all [
    .when ((s.hw.disp.steps.find? fun x => x.1 == c.ctx).isNone)
      (.disp fun d => { d with steps := (c.ctx, Desc.auxAddr c.desc, Desc.auxCount c.desc) :: d.steps }),
    if s.attnBad b || bad.isSome then
      .seq (kvLastErr w ((es.getD (bad.getD 0) (seqEntry 0)).seq) 7) (endCmd id stFAULT 7 (bad.getD 0) false)
    else .all
      [.cmd id fun x => { x with seqs := es.zipIdx.map fun (e, i) => { idx := i, seq := e.seq } },
       .each es.zipIdx (fun (e, i) => admitEntry w id c.ctx b.op i e),
       .when (b.op == 0 && es.length == 1 && (es.any fun e => e.acquire)) (match c.input, es with
         | some u, e :: _ => .when ((s.lockReason c.ctx e) == 0) (.kv fun k => { k with binds := (e.seq, u.item) :: k.binds.filter fun x => x.1 != e.seq })
         | _, _ => .nil),
       attnLeft id]]

/-- Is command `id` still waiting for frames (R266, R269, R274)? -/
def State.attnWaits (s : State) (id : Nat) : Bool :=
  (s.hw.kv.wanting.any fun x => x.1 == id) || s.hw.kv.paused.any fun x => x.1 == id

/-- Allocate again for an entry that waited; `scanned` as in `allocPage`. -/
def retryEntry (w id i q : Nat) (scanned : Bool) : Act := .withCmd id fun c => .get fun s =>
  match (s.seqList c.desc)[i]? with
  | some e => allocPages w id i q scanned (s.pagesNeeded (s.seqRec q) (s.newLen (s.attn c.desc).op (s.seqRec q) e))
  | none => .nil

/-- EVICTION_SCAN_COMPLETE (R269). -/
def scanCompleteAct (w : Nat) : Act := .get fun s =>
  let mine := s.hw.kv.wanting.filter fun x => match s.cmd x.1 with
    | some c => s.walkerOf c.ctx == w
    | none => true
  .when (s.bit Reg.KVW.KVW_CTRL 0) <| .all
    [.kv fun k => { k with cands := updAt (fun _ => s.scanFrames) w k.cands
                           wanting := k.wanting.filter fun x => !mine.contains x },
     .setFld (Reg.KVW.KVW_STATUS w) 1 1 1,
     .each mine fun x => retryEntry w x.1 x.2.1 x.2.2 true]

/-- PAUSED_SEQUENCE_RESUME (R274): the highest-ranked paused sequence is re-admitted when there is a free frame. -/
def resumeAct : Act := .get fun s =>
  .when s.haveFrame <| match leastBy (fun a b => s.rankLt b.2.2 a.2.2) s.hw.kv.paused with
    | none => .nil
    | some (id, i, q) => .withCmd id fun c => .all
        [.kv fun k => { k with paused := k.paused.filter fun x => x != (id, i, q) },
         .seqState q sqACTIVE, .seqPart id i fun x => { x with paused := false },
         retryEntry (s.walkerOf c.ctx) id i q false, settle id]

/-! ### Completion of an ATTENTION command (R271, R281) -/

/-- The frame's new score (R271). -/
def State.newScore (s : State) (f : Nat) (mass : Dy) : Dy :=
  let k := max 1 (s.fld Reg.KVW.EVICT_CFG 3 0)
  fl32' ((fl32' ((s.frameScore f).mul ((Dy.ofInt 1).add (Dy.pow2 (-(k : Int))).negate))).add mass)

/-- An ATTENTION command left the dispatcher. -/
def attnEnded (c : Cmd) (committed : Bool) : Act := .get fun s =>
  let es := s.seqList c.desc
  .all [
    .when committed (.each c.seqs fun x => .all
      [.each x.frames fun (f, m) => .get fun t => .mem (t.ftabAddr f + 8) 4 (fFP32.encode (t.newScore f (f32Dy m))),
       .when (x.reason == 0) (.seqFld x.seq 40 8 s.now),
       .when (x.reason == 0 && (s.attn c.desc).op == 3) (.get fun t =>
         let r := t.seqRec x.seq
         .when (decide (r.target ≤ r.len)) (.seqFlags x.seq fun b => setBits b 7 7 0))]),
    .kv fun k => { k with paused := k.paused.filter fun x => x.1 != c.id, wanting := k.wanting.filter fun x => x.1 != c.id },
    .each c.seqs fun x => match es[x.idx]? with
      | some e => .when (e.release && (s.seqRec e.seq).locked && (s.seqRec e.seq).owner == c.ctx)
          (.seq (.seqUnlock e.seq) (.kv fun k => { k with binds := k.binds.filter fun b => b.1 != e.seq }))
      | none => .nil]

/-- R431: the locks context `c` holds on sequences of removed items are released at its step boundary. -/
def boundaryUnlock (c : Nat) : Act := .get fun s =>
  .each (s.hw.kv.binds.map (·.1)) fun q =>
    .when (s.seqRemoved c q && (s.seqRec q).locked && (s.seqRec q).owner == c) (.seqUnlock q)

/-- R429, R431: the columns of context `c`'s open step that belong to removed sequences. -/
def State.removedCols (s : State) (c : Nat) : List Nat :=
  match s.hw.disp.steps.find? fun x => x.1 == c with
  | none => []
  | some (_, a, n) =>
    let es := (List.range n).map fun i => seqEntry (s.readN (a + 8 * i) 8)
    (es.foldl (fun (acc : List Nat × Nat) e =>
      (if s.seqRemoved c e.seq then acc.1 ++ (List.range e.n).map (acc.2 + ·) else acc.1, acc.2 + e.n)) ([], 0)).1

/-- R282, R284: the sequences of a context that is torn down become ORPHANED. -/
def orphanAll (c : Nat) : Act := .get fun s =>
  .each ((List.range (s.fld Reg.KVW.SEQ_MAX 16 0)).filter fun q => (s.seqRec q).locked && (s.seqRec q).owner == c) fun q =>
    .all [.seqUnlock q, .seqState q sqORPHANED, .seqGen q, labDrop (fun e => e.seq == q), .bump Reg.KVW.ORPHAN_CNT 1,
          .kv fun k => { k with paused := k.paused.filter fun x => x.2.2 != q, binds := k.binds.filter fun b => b.1 != q }]

/-- R292: the route to device `d` is lost: sequences whose layout includes it fall back to local heads and are dropped.
The length a position layout held on other devices is not stated to the last page: open. -/
def headFallback (d : Nat) : Act := .get fun s =>
  .each ((List.range (s.fld Reg.KVW.SEQ_MAX 16 0)).filter fun q =>
      let r := s.seqRec q
      (r.layout == 1 || r.layout == 2) && decide (d < r.devs) && r.devIdx != d) fun q => .fresh fun k => .get fun t =>
    let r := t.seqRec q
    let top := ((List.range r.cap).filter fun i => t.pte r i % 2 ^ 28 / 2 ^ 24 != 0).getLast?
    let full := match top with
      | some i => if pteRemote (t.pte r i) then 16 * i + 1 + (openWord k 0).toNat % 16 else r.glen
      | none => r.glen
    .all [.seqFlags q (fun b => setBits b 6 5 0), .seqFld q 52 2 0, .seqFld q 54 2 (t.fld Reg.KVW.POOL_GEOM 27 20), .seqFld q 56 4 0,
          dropSeq (q % 4) q full]

/-! ### Translation (R261 to R263) -/

/-- R261: the LAB entry of engine `p` that serves page `page` of sequence `q`. -/
def State.labHit (s : State) (p q page : Nat) : Option LabEntry :=
  (s.hw.kv.labs.getD p []).find? fun e => e.seq == q && e.gen == (s.seqRec q).gen && e.page == page

/-- A translation request of engine `p`: a hit makes its entry the most recently used, a miss goes to the stripe's walker, which
holds 16 (R261, R262). -/
def labAsk (p q page : Nat) : Act := .get fun s => match s.labHit p q page with
  | some e => .kv fun k => { k with labs := updAt (fun l => e :: l.filter (· != e)) p k.labs }
  | none => .when (decide ((s.hw.kv.misses.getD (p / 9) []).length < 16)) <|
      .seq (.kv fun k => { k with misses := updAt (· ++ [(p, q, page, s.now)]) (p / 9) k.misses }) (.bump (Reg.KVW.LAB_MISS (p / 9)) 1)

/-- LAB_MISS_WALK: engine `p` begins page `page` of sequence `q`; with PF_DIST it asks for the page that far ahead too, where
the sequence has one (R263). -/
def labMissAct (p q page : Nat) : Act := .get fun s =>
  let d := s.fld Reg.KVW.KVW_CTRL 7 4
  .seq (labAsk p q page) (.when (d != 0 && decide (16 * (page + d) < (s.seqRec q).glen)) (labAsk p q (page + d)))

/-- An item becomes the most recently used of a cache of `n`. -/
def touch {α : Type} [BEq α] (n : Nat) (x : α) (l : List α) : List α := (x :: l.filter fun y => !(y == x)).take n

/-- The walker reads what a request needs: the sequence record and the page-table line, and the next line when the last but four
of a line's entries is asked for (R262, R263). -/
def walkerRead (w q page : Nat) : Act := .get fun s =>
  let next := page % 16 == 11 && decide (16 * (page / 16 + 1) < (s.seqRec q).cap)
  .kv fun k => { k with
    recs := updAt (touch 64 q) w k.recs,
    lines := updAt (fun l => let l := touch 256 (q, page / 16) l; if next then touch 256 (q, page / 16 + 1) l else l) w k.lines }

/-- TRANSLATION_FILL (R261, R262): the oldest miss of walker `w` is served; a parity error in the walker's caches is corrected by
reading memory again (R294 WCACHE_PAR). -/
def translationFillAct (w : Nat) (parity : Bool) : Act := .get fun s =>
  match s.hw.kv.misses.getD w [] with
  | [] => .nil
  | (p, q, page, t0) :: t =>
    let r := s.seqRec q
    let e := s.pte r page
    let f := pteFrame e
    let bad := pteBad e || (pteValid e && (s.frameOwner f != q || s.frameGen f != r.gen || s.framePage f != page))
    .all [.kv (fun k => { k with misses := updAt (fun _ => t) w k.misses }), .maxReg (Reg.KVW.MISS_LAT_MAX w) (s.now - t0),
      walkerRead w q page, .when parity (.seq (.bump (Reg.KVW.WCACHE_PAR w) 1) (kvRaise w 3)),
      if bad then .all [.bump (Reg.KVW.PT_ERR w) 1, kvLastErr w q 5, kvRaise w 0, (match s.runningOn p with
        | some c =>
          let i := match c.seqs.find? fun x => x.seq == q with
            | some x => x.idx
            | none => 0
          .when (Desc.opcode c.desc == opATTENTION) (endRequest c.id stFAULT 5 i false)
        | none => .nil)]
      else .kv fun k => { k with labs := updAt (fun l =>
        ({ seq := q, gen := r.gen, page := page, pte := e } : LabEntry) ::
          (l.filter fun x => !(x.seq == q && x.page == page)).take 63) p k.labs }]

/-! ### Sequence commands and enable (R294, R295) -/

/-- SEQ_RESULT. -/
def seqResult (reason : Nat) : Act := .wrN Reg.KVW.SEQ_RESULT (1 + 2 * b2n (reason == 0) + 256 * reason)

/-- SEQ_CMD written (R295). -/
def seqCmd (v : Word) : Act := .get fun s =>
  let q := bits v 31 16
  let op := bits v 3 0
  let r := s.seqRec q
  let arg := (s.rd Reg.KVW.SEQ_ARG).toNat
  if s.fld Reg.KVW.SEQ_MAX 16 0 ≤ q then seqResult 7
  else if r.locked then seqResult 1
  else match op with
    | 1 => .seq (releaseSeq q) (seqResult 0)
    | 2 => .seq (truncateSeq q (min arg r.len + (if r.layout = 2 then 16 * r.posBase else 0))) (seqResult 0)
    | 3 => if arg < r.cap then .seq (.pte r arg (s.pte r arg ||| 0x02000000)) (seqResult 0) else seqResult 7
    | 4 => if arg < r.cap then .seq (.pte r arg (s.pte r arg &&& 0xFDFFFFFF)) (seqResult 0) else seqResult 7
    | _ => seqResult 7

/-- R294: POOL_FMT outside its range. -/
def State.poolFmtBad (s : State) : Bool :=
  let d := s.fld Reg.KVW.POOL_FMT 24 16
  !([0x03, 0x05, 0x10, 0x11].contains (s.fld Reg.KVW.POOL_FMT 7 0)) || decide (d < 16 ∨ 256 < d ∨ d % 16 ≠ 0)

/-- KVW_CTRL.ENABLE becomes 1: the walkers take over the frame table; frames that are free there form the free list in
ascending order (log entry 42). -/
def kvStart : Act := .get fun s =>
  let free := (List.range (s.fld Reg.KVW.POOL_FRAMES 23 0)).filter fun f => !s.frameUsed f
  .all [.wrN Reg.KVW.FREE_HEAD 0xFFFFFFFF, .wrN Reg.KVW.FREE_FRAMES 0, .each free.reverse freeFrame]

/-- KVW_CTRL changed from `old`. -/
def kvCtrl (old : Word) : Act := .get fun s =>
  .when (s.bit Reg.KVW.KVW_CTRL 0 && !old.getLsbD 0) kvStart

/-- Is offset `off` a pool register or EVICT_CFG (R294)? -/
def kvPoolReg (off : Nat) : Bool := (decide (0x048 ≤ off ∧ off ≤ 0x070)) || off == 0x0B0 || off == 0x07C

def kvDrops (s : State) (off : Nat) (v : Word) : Bool :=
  (kvPoolReg off && s.bit Reg.KVW.KVW_CTRL 0) || (off == 0x040 && v.getLsbD 0 && s.poolFmtBad)

def kvWrite (off : Nat) (old v : Word) : Act :=
  if off = 0x080 then seqCmd v else if off = 0x040 then kvCtrl old else .nil

def kvComputed (s : State) (w off : Nat) : Option Word :=
  if off = 0x044 then
    let n := (s.hw.kv.misses.getD w []).length
    some (BitVec.ofNat 32 (b2n (n != 0) + 2 * s.fld (Reg.KVW.KVW_STATUS w) 1 1 + 16 * n))
  else none

end Sys2Proof.Machine
end

