-- ==== Sys2Proof/Machine/Link.lean ====
section
/-! DEFINITION. Fakan peer links (15_fakan_peer_links): flits and lanes, training and numbering, routes, time alignment,
windows, and units between devices. The windows, forwarding and import entries behind their selectors are block state. -/

namespace Sys2Proof.Machine

def Act.link (f : LinkSt → LinkSt) : Act := .hw fun h => { h with link := f h.link }
def State.port (s : State) (k : Nat) : PortSt := s.hw.link.ports.getD k {}
def Act.port (k : Nat) (f : PortSt → PortSt) : Act := .link fun l => { l with ports := updAt f k l.ports }
/-- Raise source 352 + 8k + b (R656). -/
def linkRaise (k b : Nat) : Act := .raise .LINK k b

/-- LINK_STATUS.STATE. -/
def State.linkState (s : State) (k : Nat) : Nat := s.fld (Reg.LINK.LINK_STATUS k) 1 0
/-- Is port `k` up (at full or reduced width)? -/
def State.portUp (s : State) (k : Nat) : Bool := decide (2 ≤ s.linkState k)

/-! ### Sending (R630, R636) -/

/-- First port of the route to device `d`. -/
def State.routeTo (s : State) (d : Nat) : Option Nat := alFind d s.hw.link.routes

/-- The device something on the links goes to. -/
def outDev : Out → Option Nat
  | .flit d _ _ => some d
  | .linkUnit d _ => some d
  | _ => none

/-- R630: send on port `k`; it stays in the replay buffer until acknowledged. -/
def sendOn (k : Nat) (o : Out) : Act := .seq (.out o)
  (.port k fun p => { p with replay := p.replay ++ [(p.txSeq, o)], txSeq := p.txSeq + 1 })

/-- Send to the device something is for, over its route. A device with NUM_FAIL carries no traffic (R633). -/
def sendOut (o : Out) : Act := .get fun s =>
  match (outDev o).bind s.routeTo with
  | some k => .when (s.portUp k && !s.bit Reg.LINK.DEV_STATUS 5) (sendOn k o)
  | none => .nil

/-- The port a device is reached by, LINK[0] while it has no route. -/
def State.portTo (s : State) (d : Nat) : Nat := (s.routeTo d).getD 0

/-! ### Flits and lanes (R629 to R631, R648) -/

/-- Replay every unacknowledged flit of port `k`, counted (R630). -/
def replayAll (k : Nat) : Act := .get fun s =>
  let l := (s.port k).replay
  .seq (.each l fun e => .out e.2) (.bump (Reg.LINK.REPLAY_CNT k) l.length)

/-- FLIT_RECEIVE (R630, R648): a flit with an uncorrectable codeword, or out of sequence, asks the partner for replay;
what the partner acknowledges leaves the replay buffer, and what it asks for again is replayed. -/
def flitReceiveAct (k : Nat) (fl : Flit) : Act := .get fun s =>
  let p := s.port k
  .when (s.portUp k) <| .all
    [.bump (Reg.LINK.FEC_CORR k) fl.corrected.toNat,
     if fl.bad then .seq (.bump (Reg.LINK.FEC_UNCORR k) 1) (.out (.flit (s.fld (Reg.LINK.LINK_STATUS k) 10 8) "replay" (leBytes 2 p.rxSeq.toNat)))
     else .seq (.port k fun p => { p with last := s.now }) <|
       if fl.seq = p.rxSeq then .port k fun p => { p with rxSeq := p.rxSeq + 1 }
       else .out (.flit (s.fld (Reg.LINK.LINK_STATUS k) 10 8) "replay" (leBytes 2 p.rxSeq.toNat)),
     .when (!fl.bad) <| .seq
       (.port k fun p => { p with replay := p.replay.filter fun e => decide (fl.ack - e.1 = 0 ∨ 32768 ≤ (fl.ack - e.1).toNat) })
       (.when fl.nak (replayAll k))]

/-- Physical lanes that have failed or worn out (LANE_MAP.FAILED). -/
def State.failedLanes (s : State) (k : Nat) : List Nat :=
  (List.range 5).filter fun l => s.bit (Reg.LINK.LANE_MAP k) (16 + l)

/-- Logical lanes of port `k` whose physical lane has not failed. -/
def State.laneWidth (s : State) (k : Nat) : Nat :=
  ((List.range 4).filter fun l => !(s.failedLanes k).contains (s.fld (Reg.LINK.LANE_MAP k) (3 * l + 2) (3 * l))).length

/-- R653: the offset has left ±2 ns, or the route to the master is lost. -/
def alignLost (k : Nat) : Act := .get fun s =>
  .seq (.link fun l => { l with within := none }) <|
    .when (s.bit Reg.TSC.TSC_STATUS 1) (.seq (.setFld Reg.TSC.TSC_STATUS 1 1 0) (linkRaise k 6))

/-- The master a follower follows is lost (R653). -/
def masterLost : Act := .get fun s =>
  .when (s.fld Reg.TSC.TSC_STATUS 3 2 == 1) (alignLost (s.portTo (s.fld Reg.LINK.DEV_STATUS 18 16)))

/-- No port is up: the device is device 0 (R633) and standalone. -/
def aloneCheck : Act := .get fun s =>
  .when ((List.range 4).all fun k => !s.portUp k) <| .all
    [masterLost,
     .modReg Reg.LINK.DEV_STATUS fun w => setBits (setBits (setBits (setBits w 2 0 0) 3 3 0) 15 8 0) 18 16 0,
     standAlone]

/-- A port goes down (R648). -/
def portDown (k : Nat) : Act := .get fun s =>
  .when (s.linkState k != 0) <| .all
    [.setFld (Reg.LINK.LINK_STATUS k) 1 0 0, linkRaise k 0, aloneCheck]

/-- LINK_TIMEOUT (R648): no valid flit for LINK_TO µs. -/
def linkTimeoutAct (k : Nat) : Act := .get fun s =>
  .when (s.portUp k && decide ((s.port k).last + s.fld (Reg.LINK.LINK_TO k) 7 0 * 1000 ≤ s.now)) (portDown k)

/-- R631: a lane leaves service: the spare takes its place at a flit boundary, or with no spare left the width is
reduced; below MIN_WIDTH the port goes down. A failed lane's held flits are replayed. Source 353 + 8k tells a failure, and a
worn lane that the spare replaces. -/
def laneOut (k lane : Nat) (replay : Bool) : Act := .get fun s =>
  let r := Reg.LINK.LANE_MAP k
  let logical := (List.range 4).find? fun l => s.fld r (3 * l + 2) (3 * l) == lane
  let spare := (List.range 5).find? fun p =>
    !s.bit r (16 + p) && p != lane && (List.range 4).all fun l => s.fld r (3 * l + 2) (3 * l) != p
  .when (s.portUp k && !s.bit r (16 + lane)) <| .all [.setFld r (16 + lane) (16 + lane) 1,
    .event (.darn { kind := 5, inst := k, unit := lane, cause := if replay then 0 else 1, spare := spare }),
    .when (replay || (logical.isSome && spare.isSome)) (linkRaise k 1),
    match logical with
    | none => .nil
    | some l => match spare with
      | some p => .all [.setFld r (3 * l + 2) (3 * l) p, .setFld (Reg.LINK.LINK_STATUS k) 14 14 1, .when replay (replayAll k)]
      | none => .get fun s =>
        let w := s.laneWidth k
        .all [linkRaise k 2,
              if w < s.fld (Reg.LINK.LINK_CTRL k) 6 4 ∨ w = 0 then .seq (.setFld (Reg.LINK.LINK_STATUS k) 6 4 w) (portDown k)
              else .all [.setFld (Reg.LINK.LINK_STATUS k) 6 4 w, .setFld (Reg.LINK.LINK_STATUS k) 1 0 3,
                         .when replay (replayAll k)]]]

/-- LANE_FAILURE. -/
def laneFailureAct (k lane : Nat) : Act := laneOut k lane true
/-- LANE_WORN: as a failure, without replay. -/
def laneWornAct (k lane : Nat) : Act := laneOut k lane false

/-- EQUALISATION_UPDATE (R629): coefficient updates go to the partner in control flits; what the receiver measures is
not the model's: open. -/
def equalisationUpdateAct (k : Nat) : Act := .get fun s =>
  .when (s.portUp k) <| .fresh fun n => .seq
    (.out (.flit (s.fld (Reg.LINK.LINK_STATUS k) 10 8) "equalisation" []))
    (.wr (Reg.LINK.LANE_HEALTH k) (openWord n 0))

/-! ### Training and numbering (R632 to R635) -/

/-- LINK_CTRL written: ENABLE going to 1 starts training; going to 0 takes the port down. -/
def linkCtrl (k : Nat) (old v : Word) : Act :=
  if v.getLsbD 0 ∧ !old.getLsbD 0 then .wrN (Reg.LINK.LINK_STATUS k) 1
  else if !v.getLsbD 0 ∧ old.getLsbD 0 then portDown k
  else .nil

/-- The request this device makes: DEV_REQ 0 to 7, else the number kept in always-on retention (R633, R634). -/
def State.devReq (s : State) : Nat :=
  let q := s.fld Reg.LINK.DEV_CFG 3 0
  if q ≤ 7 then q else s.hw.link.kept.getD 15

/-- LINK_TRAINED (R632, R635): the port is up; discovery goes to the partner. -/
def linkTrainedAct (k dev port delay : Nat) : Act := .get fun s =>
  let w := s.laneWidth k
  .when (s.linkState k == 1 && decide (s.fld (Reg.LINK.LINK_CTRL k) 6 4 ≤ w ∧ 0 < w)) <| .fresh fun n => .all
    [.wrN (Reg.LINK.LINK_STATUS k) ((if w < 4 then 3 else 2) + 16 * w + 256 * dev + 4096 * port +
        16384 * b2n (decide ((s.failedLanes k).length ≠ 0))),
     .wrN (Reg.LINK.LINK_DELAY k) delay,
     .port k fun _ => { last := s.now, asym := sgn 16 (Config.freeValue n 0).toNat },
     .out (.flit dev "discovery" (leBytes 8 Config.uniqueId.toNat ++ leBytes 1 s.devReq ++
        (List.range 4).map fun j => BitVec.ofNat 8 (s.linkState j))),
     linkRaise k 7]

/-- Requests of a group, by identifier: identifier and number requested (above 7: automatic). -/
abbrev NumReq := Nat × Nat

/-- The holder of number `n`: of the devices that request it, the one with the lowest identifier (R633). -/
def holderOf (g : List NumReq) (n : Nat) : Option Nat :=
  ((g.filter fun x => x.2 == n).map (·.1)).foldl (fun m i => some (match m with
    | some j => min i j
    | none => i)) none

/-- R633: the numbers of a group: those that hold what they request, then the others lowest free number by identifier. -/
def assignNumbers (g : List NumReq) : List (Nat × Option Nat) :=
  let held := (List.range 8).filterMap fun n => (holderOf g n).map fun i => (i, n)
  let rest := sortNat ((g.map (·.1)).filter fun i => !held.any fun x => x.1 == i)
  (rest.foldl (fun (acc : List (Nat × Option Nat)) i =>
    let free := (List.range 8).find? fun n => !acc.any fun x => x.2 == some n
    acc ++ [(i, free)]) (held.map fun x => (x.1, some x.2)))

/-- Has the device a stream that crosses a link (R634)? -/
def State.crossStreams (s : State) : Bool :=
  s.hw.link.fwds.any (fun w => w.getLsbD 31) || s.hw.imports.any fun w => w.getLsbD 31

/-- R652: SAFE or a motion loop forbids a step of the TSC. -/
def State.stepForbidden (s : State) : Bool :=
  let st := s.fld Reg.SAFE.SAFE_STATE 2 0
  decide (3 ≤ st ∧ st ≤ 6) || (List.range 8).any fun l => s.bit (Reg.CEU.LOOP_CTRL l) 0

/-- R650: the master of the devices in a mask: the lowest number. -/
def masterOf (devices : Nat) : Nat := ((List.range 8).find? fun n => devices.testBit n).getD 0

/-- R650: DEVICES, MASTER and TSC_STATUS.ROLE. What the device did toward another master ends (R57, R60). -/
def setGroup (me devices : Nat) : Act := .get fun s =>
  let role := if devices = 2 ^ me then 0 else if masterOf devices = me then 2 else 1
  .all [.when (role != 1 || s.fld Reg.LINK.DEV_STATUS 18 16 != masterOf devices || s.fld Reg.TSC.TSC_STATUS 3 2 != 1) followEnd,
        .modReg Reg.LINK.DEV_STATUS fun w => setBits (setBits w 15 8 devices) 18 16 (masterOf devices),
        .setFld Reg.TSC.TSC_STATUS 3 2 role]

/-- DEVICE_NUMBERING (R633, R634, R650, R652, R654). -/
def deviceNumberingAct (peers : List PeerInfo) : Act := .get fun s =>
  let self := Config.uniqueId.toNat
  let valid := s.bit Reg.LINK.DEV_STATUS 3
  let req := if valid then s.devNum else s.devReq
  let g := (self, req) :: peers.map fun p => (p.id.toNat, p.devReq.toNat)
  let lost := decide (req ≤ 7) && holderOf g req != some self
  let nums := assignNumbers g
  let keep := valid && lost && s.crossStreams
  let mine := if keep then some req else (nums.find? fun x => x.1 == self).bind (·.2)
  let maxTsc := (peers.map fun p => p.tsc.toNat).foldl max 0
  .when ((List.range 4).any s.portUp) <|
    match mine with
    | none => .setFld Reg.LINK.DEV_STATUS 5 5 1
    | some n =>
      let devices := (nums.foldl (fun m x => match x.2 with
        | some j => if x.1 = self then m else m ||| 2 ^ j
        | none => m) (2 ^ n))
      .all [.modReg Reg.LINK.DEV_STATUS fun w => setBits (setBits (setBits (setBits w 2 0 n) 3 3 1) 4 4 (b2n lost)) 5 5 0,
            .link fun l => { l with kept := some n },
            setGroup n devices,
            .when (decide (s.now + 1000 < maxTsc) && !s.stepForbidden) (.upd (.tsc (BitVec.ofNat 64 maxTsc)))]

/-! ### Routes (R636, R639, R649) -/

/-- R636: the route to device `d`: fewest hops, then the lowest first port, over ports that are up. -/
def State.bestRoute (s : State) (paths : List RoutePath) (d : Nat) : Option (Nat × Nat) :=
  let ok := paths.filter fun p => p.dev.toNat == d && s.portUp p.port.toNat && decide (p.hops.toNat ≤ 7)
  (leastBy (fun a b => decide (a.hops < b.hops) || (a.hops == b.hops && decide (a.port < b.port))) ok).map fun p =>
    (p.port.toNat, p.hops.toNat)

/-- R639: flits of a port that is down go again over the new routes. -/
def resendLost : Act := .get fun s =>
  .each ((List.range 4).filter fun k => !s.portUp k) fun k =>
    .seq (.port k fun p => { p with replay := [] }) (.each (s.port k).replay fun e => sendOut e.2)

/-- ROUTE_RECOMPUTE (R636, R639, R649, R653, R654). -/
def routeRecomputeAct (paths : List RoutePath) : Act := .get fun s =>
  let me := s.devNum
  let new := (List.range 8).filterMap fun d =>
    if d = me then none else (s.bestRoute paths d).map fun r => (d, r)
  let gone := (s.hw.link.routes.map (·.1)).filter fun d => !new.any fun x => x.1 == d
  let master := s.fld Reg.LINK.DEV_STATUS 18 16
  let devices := new.foldl (fun m x => m ||| 2 ^ x.1) (2 ^ me)
  .all [.link fun l => { l with routes := new.map fun x => (x.1, x.2.1) },
        .wrN Reg.LINK.ROUTE_HOPS (leNatNibbles ((List.range 8).map fun d =>
          if d = me then 0 else match alFind d new with
            | some r => r.2
            | none => 15)),
        resendLost,
        .when (!gone.isEmpty) <| .all
          [.orReg Reg.LINK.ROUTE_LOST (BitVec.ofNat 32 (gone.foldl (fun m d => m ||| 2 ^ d) 0)), linkRaise 0 3,
           .when (gone.contains master && s.fld Reg.TSC.TSC_STATUS 3 2 == 1)
             (.seq (alignLost (s.portTo master)) followEnd),
           .when (s.bit Reg.LINK.DEV_STATUS 3) (setGroup me devices),
           .each gone fun d => .event (.routeLost d)],
        linkRaise 0 7]
where
  /-- Eight nibbles, lowest first. -/
  leNatNibbles : List Nat → Nat
    | [] => 0
    | n :: t => n % 16 + 16 * leNatNibbles t

/-! ### Time alignment (R651, R653) -/

/-- SYNC_EXCHANGE: the offset from the partner, in ps. A follower slews toward its master; by how much the manual does
not say: the size of the correction is open, its direction is the offset's. -/
def syncExchangeAct (k : Nat) (t1 t2 t3 t4 : Nat) : Act := .get fun s =>
  let raw : Int := ((t2 : Int) - t1) - ((t4 : Int) - t3)
  let ofs := raw * 500 + (s.port k).asym
  let mine := s.fld Reg.TSC.TSC_STATUS 3 2 == 1 && s.routeTo (s.fld Reg.LINK.DEV_STATUS 18 16) == some k
  .when (s.portUp k) <| .all
    [.wrN (Reg.LINK.TIME_OFS k) (uns 32 ofs),
     .when mine <| .fresh fun n =>
       let size : Int := ((Config.freeValue n 0).toNat % 100000 + 1 : Nat)
       .seq (.hw fun h => { h with time := { h.time with
               alignPpb := if ofs = 0 then 0 else if 0 < ofs then size else -size } })
            (if -2000 ≤ ofs ∧ ofs ≤ 2000 then .link fun l => { l with within := some (l.within.getD s.now) }
             else alignLost k)]

/-- ALIGNED_SET (R653, R56): the offset has stayed within ±2 ns for 1 ms. A time master has no alignment to complete: while
the device is master, nothing clears its COARSE (DESIGN CHOICE, log entry 47). -/
def alignedSetAct : Act := .get fun s =>
  match s.hw.link.within with
  | some t => .when (s.fld Reg.TSC.TSC_STATUS 3 2 == 1 && decide (t + 1000000 ≤ s.now))
      (.seq (.setFld Reg.TSC.TSC_STATUS 1 1 1) (setCoarse false))
  | none => .nil

/-! ### Windows (R640, R642) -/

/-- R640: does window `w` allow device `d` an access to [a, a + n)? -/
def windowAllows (w : Word × Word × Word) (d a n : Nat) (isWrite : Bool) : Bool :=
  let base := w.1.toNat + 4294967296 * w.2.1.toNat
  let cfg := w.2.2
  bits cfg 15 0 != 0 && decide (base ≤ a ∧ a + n ≤ base + bits cfg 15 0 * 1048576) &&
  cfg.getLsbD (if isWrite then 17 else 16) && cfg.getLsbD (24 + d)

/-- REMOTE_ACCESS_REQUEST (R640, R642): the access, or its refusal, which is told to the device that asked. -/
def remoteAccessAct (d : Nat) (r : RemoteAccess) : Act := .get fun s =>
  let (a, n, isWrite) := match r with
    | .write a l => (a.toNat, l.length, true)
    | .read a n => (a.toNat, n, false)
    | .add a _ => (a.toNat, 8, true)
  if s.hw.link.wins.any fun w => windowAllows w d a n isWrite then
    match r with
    | .write a l => .guarded 1 a.toNat l
    | .read a n => sendOut (.flit d (if s.readsPoison a.toNat n then "read data, poisoned" else "read data") (s.read a.toNat n))
    | .add a i => .guarded 1 a.toNat (leBytes 8 (s.readN a.toNat 8 + i.toNat))
  else .all [.bump Reg.LINK.WIN_REFUSE 1, linkRaise (s.portTo d) 5, sendOut (.flit d "access refused" [])]

/-! ### Units between devices (R52, R637, R638) -/

/-- LINK_UNIT_ARRIVE (R52): REMOTE and the hop count; a unit that would exceed seven hops is discarded. -/
def linkUnitArriveAct (k : Nat) (u : DUnit) : Act := .get fun s =>
  let v := { u.set fREMOTE with hops := u.hops + 1 }
  .when (s.portUp k) <|
    if 7 ≤ u.hops.toNat then .seq (.bump (Reg.LINK.LOOP_CNT k) 1) (linkRaise k 4)
    else .hw fun h => { h with inbox := h.inbox ++ [(Blk.LINK.slot + k, v)] }

/-- Put an imported unit into its ring as it came: header, stream identifier and CRC are the origin's. -/
def publishImported (n : Nat) (u : DUnit) : Act := .get fun s =>
  let r := s.streamRec n
  let tail := nextSlot r.tail r.slots
  .all [.guarded u.cls.toNat (r.ring + r.tail * r.slotKib * 1024) u.toBytes,
        .mem (s.streamAddr n + 12) 4 tail,
        .stream n fun st => { st with recent := if s.loopStream n then st.recent ++ [(s.now, u)] else st.recent },
        .event (.unit n u)]

/-- Imported units that wait for a slot of local stream `n` enter its ring in order. -/
def drainImports (n : Nat) : Nat → Act
  | 0 => .nil
  | k + 1 => .get fun s => match s.hw.link.waiting.find? fun x => x.1 == n with
    | none => .nil
    | some x => .when (!s.streamFull n) <| .all
        [.link fun l => { l with waiting := l.waiting.erase x }, publishImported n x.2, drainImports n k]

/-- The valid import entry of a stream identifier whose local record is a link's (R638). -/
def State.importOf (s : State) (stream : BitVec 12) : Option Nat :=
  ((s.hw.imports.find? fun w => w.getLsbD 31 && bits w 11 0 == stream.toNat).map fun w => bits w 24 16).filter fun n =>
    (s.streamRec n).valid && (s.streamRec n).prod == 4

/-- IMPORT_UNIT_ARRIVE (R638, R43 to R47). -/
def importUnitArriveAct (u : DUnit) : Act := .get fun s =>
  .seq (.hw fun h => { h with inbox := h.inbox.filter fun x => !(x.2 == u && pageAt x.1 == some (.LINK, x.1 - Blk.LINK.slot)) }) <|
    match s.importOf u.stream with
    | none => .bump Reg.LINK.IMP_MISS 1
    | some n => .receive .LINK 0 u (s.streamRec n).cls fun l => .seq
        (.link fun x => { x with waiting := x.waiting ++ l.map fun v => (n, v) }) (.get fun s => drainImports n s.hw.link.waiting.length)

/-- FORWARD_UNIT (R638): a unit committed on local stream `n` goes to each device of the DEV_MASK of its forwarding
entries. Class 2 units never cross a port (R637). -/
def forwardUnit (n : Nat) (u : DUnit) : Act := .get fun s =>
  .when (u.cls != 2) <| .each (s.hw.link.fwds.filter fun w => w.getLsbD 31 && bits w 8 0 == n) fun w =>
    .each ((List.range 8).filter fun d => w.getLsbD (16 + d) && d != s.devNum) fun d => sendOut (.linkUnit d u)

/-! ### Registers of the LINK pages (R655) -/

/-- What an accepted write to page LINK[k] does beside storing an RW register. Bits no field of an entry names are not kept. What
LANE_HEALTH shows of the lane selected is not the model's: open. -/
def linkWrite (k off : Nat) (old v : Word) : Act := .get fun s =>
  let win := s.fld Reg.LINK.WIN_SEL 2 0
  if off = 0x040 then linkCtrl k old v
  else if off = 0x04C then .when (s.portUp k) (.fresh fun n => .wr (Reg.LINK.LANE_HEALTH k) (openWord n 0))
  else if off = 0x094 then .link fun l => { l with wins := updAt (fun w => (v, w.2)) win l.wins }
  else if off = 0x098 then .link fun l => { l with wins := updAt (fun w => (w.1, v, w.2.2)) win l.wins }
  else if off = 0x09C then .link fun l => { l with wins := updAt (fun w => (w.1, w.2.1, v &&& 0xFF03FFFF)) win l.wins }
  else if off = 0x0A8 then
    .link fun l => { l with fwds := updAt (fun _ => v &&& 0x80FF01FF) (s.fld Reg.LINK.FWD_SEL 5 0) l.fwds }
  else if off = 0x0B0 then
    .hw fun h => { h with imports := updAt (fun _ => v &&& 0x81FF0FFF) (s.fld Reg.LINK.IMP_SEL 5 0) h.imports }
  else .nil

/-- Registers behind a selector. -/
def linkComputed (s : State) (off : Nat) : Option Word :=
  let w := s.hw.link.wins.getD (s.fld Reg.LINK.WIN_SEL 2 0) (0, 0, 0)
  if off = 0x094 then some w.1
  else if off = 0x098 then some w.2.1
  else if off = 0x09C then some w.2.2
  else if off = 0x0A8 then some (s.hw.link.fwds.getD (s.fld Reg.LINK.FWD_SEL 5 0) 0)
  else if off = 0x0B0 then some (s.hw.imports.getD (s.fld Reg.LINK.IMP_SEL 5 0) 0)
  else none

end Sys2Proof.Machine
end

