-- ==== Sys2Proof/Machine/Pin.lean ====
section
/-! DEFINITION. The multiplexed pins (19_pins_electrical_package, R733 to R752): the choice of a ball's function, the
switch with break-before-make, accepted levels, and the balls output functions drive. -/

namespace Sys2Proof.Machine

def Act.pin (f : PinSt → PinSt) : Act := .hw fun h => { h with pin := f h.pin }

/-- Class of a ball index (R733): 0 GPIO, 1 ENC, 2 PGEN, 3 reserved. -/
def ballClass (b : Nat) : Nat := if b < 48 then 0 else if b < 56 then 1 else if b < 64 then 3 else if b < 128 then 2 else 3

/-- The ball's name (R730). -/
def ballName (b : Nat) : String :=
  if b < 48 then "GPIO" ++ toString b
  else if b < 56 then "ENC" ++ toString (b - 48)
  else "PGEN" ++ toString ((b - 64) / 16) ++ "_OUT" ++ toString ((b - 64) % 16)

/-- MUX_CFG of ball `b`. -/
def State.muxCfg (s : State) (b : Nat) : Word := s.hw.pin.cfg.getD b 0
/-- FUNC, and FUNC + 16 × INST, of a MUX_CFG word. -/
def muxFunc (w : Word) : Nat := bits w 3 0
def muxHold (w : Word) : Nat := bits w 7 0
/-- Is a switch of ball `b` in progress (R735)? -/
def State.switching (s : State) (b : Nat) : Bool := s.hw.pin.held.any fun x => x.1 == b
/-- The function in force at ball `b`: none (HIZ) during a switch. -/
def State.ballFunc (s : State) (b : Nat) : Nat := if s.switching b then 0 else muxFunc (s.muxCfg b)

/-! ### MUX_CFG (R733, R734) -/

/-- R733: may function FUNC with INST be given to ball `b`? -/
def muxAllowed (b f i : Nat) : Bool :=
  let k := ballClass b
  match f with
  | 0 => k != 3
  | 1 => k == 0
  | 2 => k == 0
  | 3 => k != 3
  | 4 => (k == 0 || k == 2) && decide (i < 8)
  | 5 => k == 2 && i == (b - 64) % 16
  | 6 => k == 1 && i == b - 48
  | 7 => (k == 0 || k == 2) && decide (i < 8)
  | _ => false

/-- R734 reason 2: FUNC and INST are held by a ball other than `b`. -/
def State.muxTaken (s : State) (b f i : Nat) : Bool :=
  (f == 3 || f == 4 || f == 7) && (List.range 128).any fun c =>
    c != b && (muxHold (s.muxCfg c) == f + 16 * i || s.hw.pin.held.contains (c, f + 16 * i))

/-- R734 reason 4: ball `b`'s present function is in use. -/
def State.muxInUse (s : State) (b : Nat) : Bool :=
  let w := s.muxCfg b
  let i := bits w 7 4
  match muxFunc w with
  | 3 => (List.range 16).any fun p => s.bit (Reg.SFE.PATH_CTRL p) 0 && s.fld (Reg.SFE.PATH_CTRL p) 9 7 == 0 &&
      s.fld (Reg.SFE.PATH_ITEM p) 27 24 == i
  | 4 => s.bit (Reg.CEU.LOOP_CTRL i) 0 && s.bit (Reg.CEU.LOOP_CTRL i) 15
  | 5 => let g := (b - 64) / 16
    s.bit (Reg.PGEN.PG_CTRL g) 0 || s.bit (Reg.PGEN.OUT_EN g) i
  | 6 => s.bit (Reg.ENC.ENC_CTRL i) 0
  | 7 => s.bit (Reg.ENC.ENC_CTRL i) 0
  | _ => false

/-- R734, R749: why a MUX_CFG write is refused, 0 when it is accepted. A second write in one switch is reason 5 whatever
else holds; otherwise the lowest-numbered condition. -/
def State.muxReason (s : State) (b : Nat) (v : Word) : Nat :=
  let f := muxFunc v
  let i := bits v 7 4
  if s.switching b then 5
  else if !muxAllowed b f i then 1
  else if s.muxTaken b f i then 2
  else if v.getLsbD 14 && !decide (b < 8) then 3
  else if s.muxInUse b then 4 else 0

/-- Does the function in force at ball `b` drive it: GPIO_OUT, CEU_STROBE, TRIG_OUT? (A PGEN output's is told by `showOut`.) -/
def State.ballDriven (s : State) (b : Nat) : Bool := [2, 4, 7].contains (s.ballFunc b)

/-- R735 step 1, R739: an output lets go of its ball. -/
def letGo (b : Nat) : Act := .get fun s => .when (s.ballDriven b) (.out (.pinHiz (ballName b)))

/-- The outputs of PGEN[g] whose balls have the PGEN function in force (R733). -/
def State.pgenBalls (s : State) (g : Nat) : BitVec 16 :=
  BitVec.ofNat 16 ((List.range 16).foldl (fun m i => if s.ballFunc (64 + 16 * g + i) == 5 then m + 2 ^ i else m) 0)

/-- Show the levels in force at the outputs that OUT_EN drives (R119) and whose balls are theirs (R733). -/
def showOut (g : Nat) : Act := .get fun s =>
  let en : BitVec 16 := (s.rd (Reg.PGEN.OUT_EN g)).setWidth 16 &&& s.pgenBalls g
  .out (.timing g en (BitVec.ofNat 16 (s.hw.cap.pgens.getD g {}).level &&& en))

/-- R739: a reset leaves every configurable output high impedance, from ball `first` on. -/
def pinsHiz (first : Nat) : Act := .seq (.each ((List.range 128).filter fun b => decide (first ≤ b)) letGo)
  (.each (List.range 4) fun g => .out (.timing g 0 0))

/-- A MUX_CFG write (R734, R735 step 1). -/
def muxCfgAct (v : Word) : Act := .get fun s =>
  let b := s.fld Reg.PIN.MUX_SEL 6 0
  let r := s.muxReason b v
  if r = 0 then .seq (letGo b) (.pin fun x => { x with cfg := updAt (fun _ => v &&& 0x0FFFFFFF) b x.cfg
                                                       held := x.held ++ [(b, muxHold (s.muxCfg b))] })
  else .all [.wrN Reg.PIN.LAST_REFUSE (b + 256 * bits v 7 0 + 65536 * r), .cfgErr .PIN 0, .raise .PIN 0 1]

/-! ### Levels (R736, R737, R752) -/

/-- R752: bit 0 of IRQ_PEND follows EVT_PEND. -/
def pinLevelIrq : Act := .get fun s =>
  if (List.range 4).any fun j => s.rd (Reg.PIN.EVT_PEND j) != 0 then .raise .PIN 0 0 else .lower .PIN 0 0

/-- The level the function of ball `b` sees. -/
def State.seen (s : State) (b : Nat) (level : Bool) : Bool := level != (s.muxCfg b).getLsbD 15

/-- GPIO_IN, for a ball with that function. -/
def showGpio (b : Nat) (level : Bool) : Act := .get fun s =>
  .when (s.ballFunc b == 1) (if b < 32 then .setFld Reg.PIN.GPIO_IN_LO b b (b2n (s.seen b level))
    else .setFld Reg.PIN.GPIO_IN_HI (b - 32) (b - 32) (b2n (s.seen b level)))

/-- The level GPIO_OUT gives a ball. -/
def State.gpioOut (s : State) (b : Nat) : Bool :=
  if b < 32 then s.bit Reg.PIN.GPIO_OUT_LO b else s.bit Reg.PIN.GPIO_OUT_HI (b - 32)

/-- GPIO_OUT written: the balls it drives follow. -/
def gpioWrite (hi : Bool) (old v : Word) : Act := .get fun s =>
  .each ((List.range (if hi then 16 else 32)).filter fun k => old.getLsbD k != v.getLsbD k) fun k =>
    let b := if hi then 32 + k else k
    .when (s.ballFunc b == 2) (.out (.pin (ballName b) (v.getLsbD k)))

/-- MUX_SWITCH_ATTACH (R735 step 2, R736). -/
def muxAttachAct (b : Nat) : Act := .get fun s => .when (s.switching b) <| .all
  [.pin fun x => { x with held := x.held.filter fun e => e.1 != b }, .bump Reg.PIN.SWITCH_CNT 1,
   showGpio b (s.hw.pin.level.getLsbD b),
   .get fun t => .when (t.ballFunc b == 2) (.out (.pin (ballName b) (t.gpioOut b))),
   .get fun t => .when (t.ballFunc b == 5) (showOut ((b - 64) / 16))]

/-- GPIO0 to GPIO7 keep their functions over a reset; those that drive drive again (R738, R739). -/
def pinsBack : Act := .get fun s => .each ((List.range 8).filter fun b => s.ballFunc b == 2) fun b =>
  .out (.pin (ballName b) (s.gpioOut b))

/-- PIN_LEVEL_ACCEPT (R737, R738): a ball's level, stable for FILT, is accepted by its input function. A level change in
a switch is seen by neither function (R749). -/
def pinAcceptAct (b : Nat) (level : Bool) : Act := .get fun s =>
  let w := s.muxCfg b
  let f := s.ballFunc b
  let input := f == 1 || f == 3 || f == 6
  let evt := bits w 13 12
  let hit := if s.seen b level then evt.testBit 0 else evt.testBit 1
  .all [.pin fun x => { x with level := putBit x.level b level },
        .when (input && s.hw.pin.level.getLsbD b != level) <| .all
          [showGpio b level,
           .when hit (.orReg (Reg.PIN.EVT_PEND (b / 32)) (BitVec.ofNat 32 (2 ^ (b % 32)))), pinLevelIrq,
           .when (decide (b < 8) && w.getLsbD 14) (.event .pinWake)]]

/-- A pulse of output function `f`, instance `i` (R733): high, then low, at the balls that hold it. -/
def pinPulse (f i : Nat) : Act := .get fun s =>
  .each ((List.range 128).filter fun b => !s.switching b && muxHold (s.muxCfg b) == f + 16 * i) fun b =>
    .seq (.out (.pin (ballName b) true)) (.out (.pin (ballName b) false))

/-! ### The page (R750) -/

/-- Reserved index: MUX_CFG of a ball that does not exist reads 0. -/
def pinComputed (s : State) (off : Nat) : Option Word :=
  let b := s.fld Reg.PIN.MUX_SEL 6 0
  if off = 0x048 then some (s.muxCfg b)
  else if off = 0x04C then some (BitVec.ofNat 32
    ((if s.switching b then 256 else muxHold (s.muxCfg b)) + 512 * b2n (s.hw.pin.level.getLsbD b)))
  else none

def pinWrite (off : Nat) (old v : Word) : Act :=
  if off = 0x048 then muxCfgAct v
  else if off = 0x058 then gpioWrite false old v
  else if off = 0x05C then gpioWrite true old v
  else if 0x060 ≤ off ∧ off < 0x070 then pinLevelIrq
  else .nil

end Sys2Proof.Machine
end

