-- ==== Sys2Proof/Machine/Capture.lean ====
section
/-! DEFINITION. Line and frame capture (02_line_and_frame_capture): encoders, pattern generators, the analogue
channels, cameras, scan paths, items and bands. -/

namespace Sys2Proof.Machine

/-! ### Access to the state -/

def State.enc (s : State) (n : Nat) : EncSt := s.hw.cap.encs.getD n {}
def State.pgen (s : State) (g : Nat) : PgenSt := s.hw.cap.pgens.getD g {}
def State.afe (s : State) (g : Nat) : AfeSt := s.hw.cap.afes.getD g {}
def State.path (s : State) (p : Nat) : PathSt := s.hw.cap.paths.getD p {}
def Act.enc (n : Nat) (f : EncSt → EncSt) : Act := .cap fun c => { c with encs := updAt f n c.encs }
def Act.pgen (g : Nat) (f : PgenSt → PgenSt) : Act := .cap fun c => { c with pgens := updAt f g c.pgens }
def Act.afe (g : Nat) (f : AfeSt → AfeSt) : Act := .cap fun c => { c with afes := updAt f g c.afes }
def Act.path (p : Nat) (f : PathSt → PathSt) : Act := .cap fun c => { c with paths := updAt f p c.paths }

/-- Is scan path `p` capturing (R115, R117)? -/
def State.pathOn (s : State) (p : Nat) : Bool := s.bit Reg.SFE.SFE_CTRL 0 && s.bit (Reg.SFE.PATH_CTRL p) 0

/-- Fields of PATH_CTRL (R117). -/
def State.pSrcType (s : State) (p : Nat) : Nat := s.fld (Reg.SFE.PATH_CTRL p) 2 1
def State.pSrcInst (s : State) (p : Nat) : Nat := s.fld (Reg.SFE.PATH_CTRL p) 6 3
def State.pItemSrc (s : State) (p : Nat) : Nat := s.fld (Reg.SFE.PATH_CTRL p) 9 7
def State.pTrigEnc (s : State) (p : Nat) : Nat := s.fld (Reg.SFE.PATH_CTRL p) 16 14
def State.pTrigMode (s : State) (p : Nat) : Nat := s.fld (Reg.SFE.PATH_CTRL p) 18 17
def State.pAvgX (s : State) (p : Nat) : Nat := s.fld (Reg.SFE.PATH_CTRL p) 22 21 + 1
def State.pAvgY (s : State) (p : Nat) : Nat := s.fld (Reg.SFE.PATH_CTRL p) 24 23 + 1
def State.pPix (s : State) (p : Nat) : Nat := s.fld (Reg.SFE.PATH_GEOM p) 15 0
/-- BAND_LINES, 1 to 256; a written 0 acts as 1 (log entry 12). -/
def State.pBand (s : State) (p : Nat) : Nat := max 1 (s.fld (Reg.SFE.PATH_GEOM p) 24 16)
/-- Pixels of an output line (R92). -/
def State.pOut (s : State) (p : Nat) : Nat := s.pPix p / s.pAvgX p
/-- Enabled paths that take lines from source type `ty`, instance `inst` (R67). -/
def State.pathsOf (s : State) (ty inst : Nat) : List Nat :=
  (List.range 16).filter fun p => s.pathOn p && s.pSrcType p == ty && s.pSrcInst p == inst

/-- R115, R68: record an event of path `p` and raise source 384 + p. -/
def pathEvent (p k : Nat) : Act :=
  .seq (.orReg (Reg.SFE.PATH_EVENTS p) (BitVec.ofNat 32 (2 ^ k))) (.raise .SFE 0 p)

/-! ### Pixels (R74, R91, R92, R95, R98) -/

/-- R74: a corrected 16-bit value in the output format. -/
def pixelOut (fmt v : Nat) : Nat :=
  if fmt = 0x20 then min ((v + 128) / 256) 255 else if fmt = 0x21 then min ((v + 8) / 16) 4095 else v

/-- Output format of an AFE path (R117). -/
def State.pFmt (s : State) (p : Nat) : Nat := 0x20 + s.fld (Reg.SFE.PATH_CTRL p) 20 19

/-- Bytes of a line of `n` components (R98 and the packing of 0x21): a pixel of RGB8 is three, of YUV422 two. -/
def lineBytes (fmt n : Nat) : Nat := if fmt = 0x20 then n else if fmt = 0x21 then (n + 1) / 2 * 3 - n % 2 else 2 * n

/-- Packing of 0x21: pairs of pixels in 3 bytes, an odd count ending with a zero nibble. -/
def pack12 : List Nat → List Byte
  | a :: b :: t =>
    [BitVec.ofNat 8 a, BitVec.ofNat 8 (a / 256 % 16 + b % 16 * 16), BitVec.ofNat 8 (b / 16)] ++ pack12 t
  | [a] => [BitVec.ofNat 8 a, BitVec.ofNat 8 (a / 256 % 16)]
  | [] => []

/-- Bytes of a line (R37, R95, R110). -/
def packLine (fmt : Nat) (px : List (BitVec 16)) : List Byte :=
  if fmt = 0x20 then px.map fun v => v.setWidth 8
  else if fmt = 0x21 then pack12 (px.map fun v => v.toNat)
  else px.flatMap fun v => leBytes 2 v.toNat

/-- Pixel `i` of a captured line; a position no channel delivered is open (log entry 13). -/
def RawLine.at (l : RawLine) (k i : Nat) : Nat :=
  match alFind i l.px with
  | some v => v.toNat
  | none => ((Config.freeValue k i).setWidth 16 : BitVec 16).toNat

/-- R91, R92: the output line of a group of input lines, component by component (log entry 13). `k` numbers the open
values. -/
def averageGroup (a out k : Nat) (g : List RawLine) : List (BitVec 16) :=
  let m := (g.head?.map (·.comps)).getD 1
  (List.range (out * m)).map fun i =>
    let n := a * g.length
    let sum := sumNat (g.flatMap fun l => (List.range a).map fun j => l.at k ((i / m * a + j) * m + i % m))
    let v := if n = 0 then 0 else (sum + n / 2) / n
    BitVec.ofNat 16 v

/-- The doubts of a group, as an output line (R88, R97, R112, R113). -/
def groupLine (a out k pf : Nat) (g : List RawLine) : OutLine :=
  let fmt := (g.head?.map (·.fmt)).getD 0
  let any (f : RawLine → Bool) := g.any f
  let doubt := any fun l => l.doubt || l.timer || l.held || l.repeated || l.padded
  let of := if fmt = 0 then pf else fmt
  let px := averageGroup a out k g
  { stamp := (g.head?.map (·.stamp)).getD 0
    tag := BitVec.ofNat 32 (b2n doubt + 2 * b2n (any (·.timer)) + 4 * b2n (any (·.held)) +
      8 * b2n (any (·.repeated)) + 16 * b2n (any (·.padded)))
    doubt := doubt, lost := any (·.lost), fmt := of
    px := if fmt = 0 then px.map fun v => BitVec.ofNat 16 (pixelOut pf v.toNat) else px }

/-! ### Items (R101 to R105) -/

/-- Output lines taken so far by path `p`. -/
def State.outStarted (s : State) (p : Nat) : Nat := (s.path p).started / s.pAvgY p

/-- Change the newest item of a path. -/
def lastItem (f : PathItem → PathItem) (l : List PathItem) : List PathItem :=
  match l.reverse with
  | [] => []
  | x :: t => (f x :: t).reverse

/-- Is an item open (not yet closing) on path `p`? -/
def State.itemOpenOn (s : State) (p : Nat) : Option PathItem :=
  (s.path p).items.getLast?.bind fun x => if x.stop.isNone then some x else none

/-- Stamp of output line `n` of path `p` (R92: that of its first input line) where the line is held or in progress. -/
def State.heldStamp (s : State) (p n : Nat) : Option Nat :=
  let q := s.path p
  if n < q.lbFirst then none
  else match q.lb[n - q.lbFirst]? with
    | some l => some l.stamp
    | none => ((q.group ++ q.cur)[(n - (q.lbFirst + q.lb.length)) * s.pAvgY p]?).map fun l => l.stamp

/-- Has item `x` of path `p` lines to come (R89, R101, R102)? -/
def State.live? (s : State) (p : Nat) (x : PathItem) : Bool :=
  !x.closed && !x.aborted && (match x.stop with
    | some e => decide (s.outStarted p < e)
    | none => true)

/-- Has an item of path `p` taken its last line without having been ended (R102)? -/
def State.ended? (s : State) (p : Nat) (x : PathItem) : Bool :=
  !x.closed && (x.aborted || match x.stop with
    | some e => decide (e ≤ s.outStarted p)
    | none => false)

/-- R101, R102: the items of path `p` that have taken their last line end. -/
def endItems (p : Nat) : Act := .get fun s =>
  let items := (s.path p).items
  .when (items.any (s.ended? p)) <| .all
    [.path p fun q => { q with items := items.map fun x => { x with closed := x.closed || s.ended? p x } },
     .setFld (Reg.SFE.PATH_STATUS p) 0 0 (b2n (items.any fun x => !(x.closed || s.ended? p x))),
     .each (items.filter (s.ended? p)) fun x => .event (.itemClose p x.id x.stamp)]

/-- Open an item on one path, with `pre` lines from before the edge (R102); nothing while one is open. -/
def openOn (p : Nat) (id : BitVec 48) (pre : Bool) (stamp : Option Nat) : Act := .get fun s =>
  .when (s.pathOn p && (s.itemOpenOn p).isNone) <|
    let q := s.path p
    let first := if pre then max q.lbFirst (s.outStarted p - s.fld (Reg.SFE.PATH_ITEM p) 11 0) else s.outStarted p
    let st := stamp.getD ((s.heldStamp p first).getD s.now)
    .all [.path p fun q => { q with items := q.items ++ [{ id := id, first := first, next := first, stamp := st,
                                                           bandLeft := s.pBand p }] },
          .setFld (Reg.SFE.PATH_STATUS p) 0 0 1, .event (.itemOpen p id st)]

/-- Does path `q` follow one of the paths `l` (R101)? -/
def State.followsOne (s : State) (l : List Nat) (q : Nat) : Bool :=
  s.pathOn q && s.pItemSrc q == 1 && l.contains (s.fld (Reg.SFE.PATH_CTRL q) 13 10)

/-- Add the paths that follow the paths `l`, and those that follow these, up to `k` deep. -/
def State.growFollowers (s : State) : Nat → List Nat → List Nat
  | 0, l => l
  | k + 1, l => match (List.range 16).filter fun q => !l.contains q && s.followsOne l q with
    | [] => l
    | m => s.growFollowers k (l ++ m)

/-- Paths that follow path `p`, directly or through another follower (R101). -/
def State.followers (s : State) (p : Nat) : List Nat := (s.growFollowers 15 [p]).drop 1

/-- Open an item on path `p` and on its followers. -/
def openItem (p : Nat) (id : BitVec 48) (pre : Bool) (stamp : Option Nat) : Act := .get fun s =>
  .seq (openOn p id pre stamp) (.each (s.followers p) fun q => openOn q id pre stamp)

/-- R31: the next item identifier of this device. -/
def State.newItemId (s : State) : BitVec 48 := BitVec.ofNat 48 (s.devNum * 2 ^ 45 + s.hw.cap.itemSeq % 2 ^ 45)

/-- Open a new item of this device on path `p` (R31, R101). -/
def openNew (p : Nat) (pre : Bool) : Act := .get fun s =>
  .when (s.pathOn p && (s.itemOpenOn p).isNone) <|
    .seq (.cap fun c => { c with itemSeq := c.itemSeq + 1 }) (openItem p s.newItemId pre none)

/-- Begin closing the open item of one path: it goes on for POST_LINES lines when `post` (R102). -/
def closeOn (p : Nat) (post : Bool) : Act := .get fun s =>
  .when (s.itemOpenOn p).isSome <|
    let stop := s.outStarted p + (if post then s.fld (Reg.SFE.PATH_ITEM p) 23 12 else 0)
    .path p fun q => { q with items := lastItem (fun x => { x with stop := some stop }) q.items }

/-- Begin closing on path `p` and its followers; an item with no line to come has ended. -/
def closeItem (p : Nat) (post : Bool) : Act := .get fun s =>
  .each (p :: s.followers p) fun q => .seq (closeOn q post) (endItems q)

/-- The items of path `p` that have lines to come and are picked. -/
def State.toAbort (s : State) (p : Nat) (which : PathItem → Bool) : List PathItem :=
  (s.path p).items.filter fun x => s.live? p x && which x

/-- R89, R90, R365: the picked items of one path that have lines to come close with a zero-length INVALID unit after their
complete lines. -/
def abortPath (p : Nat) (which : PathItem → Bool) : Act := .get fun s =>
  .when (!(s.toAbort p which).isEmpty) <|
    .seq (.path p fun q => { q with
            items := q.items.map fun x => if s.live? p x && which x then
              { x with stop := some (min (x.stop.getD (q.lbFirst + q.lb.length)) (q.lbFirst + q.lb.length)), aborted := true }
              else x })
         (endItems p)

/-- R89, R90, R365: the items of path `p` close as `abortPath` says, and the same items of its followers with them
(R101). -/
def abortOn (p : Nat) (which : PathItem → Bool) : Act := .get fun s =>
  let ids := (s.toAbort p which).map (·.id)
  .seq (abortPath p which) (.each (s.followers p) fun f => abortPath f fun x => ids.contains x.id)

/-- POST_LINES_DONE (R102): the closing item has taken its last line; it has ended on this path. -/
def postLinesDoneAct (p : Nat) : Act := endItems p

/-! ### Lines (R96, R100, R106, R107, R111) -/

/-- Line-buffer bytes path `p` holds, with room for its lines in progress; a line is `per` components. -/
def State.lbUse (s : State) (p fmt per extra : Nat) : Nat :=
  let q := s.path p
  (q.lb.length + q.group.length / s.pAvgY p + q.cur.length + extra) * lineBytes fmt per

/-- Lines of the buffer that no item needs, kept only as history for PRE_LINES. -/
def PathSt.needed (q : PathSt) : Nat := q.items.foldl (fun m x => min m x.next) (q.lbFirst + q.lb.length)

/-- R102, R111: make room for a line of `n` components by dropping the oldest history lines. -/
def State.lbRoom (s : State) (p fmt n : Nat) : Nat × Bool :=
  let q := s.path p
  let size := s.fld (Reg.SFE.PATH_LB p) 15 8 * 65536
  let need := s.lbUse p fmt n 1
  let per := lineBytes fmt n
  let drop := if need ≤ size then 0 else ceilDiv (need - size) per
  let free := q.needed - q.lbFirst
  if drop ≤ free then (drop, true) else (0, false)

/-- Set LINES_IN_LB (R115). -/
def showLines (p : Nat) : Act := .get fun s =>
  .setFld (Reg.SFE.PATH_STATUS p) 31 16 (min (s.path p).lb.length 65535)

/-- R103: an item that has reached MAX_LINES closes, and its followers' items with it (R101). -/
def maxLines (p : Nat) : Act := .get fun s =>
  let most := (s.rd (Reg.SFE.MAX_LINES p)).toNat
  let full (x : PathItem) := !x.closed && !x.aborted && decide (x.first + most ≤ s.outStarted p) &&
    (match x.stop with
     | some e => decide (x.first + most < e)
     | none => true)
  .when ((s.path p).items.any full) <|
    .seq (.path p fun q => { q with items := q.items.map fun x => if full x then
            { x with stop := some (x.first + most), maxed := true } else x })
         (.each (s.followers p) fun f => closeOn f false)

/-- A line starts on path `p`: taken into the buffer, or dropped for over-rate (R100) or want of room (R111). An input line
counts in the 10 µs window with the bytes of the output line it goes into, against AVG_Y times the rate (DESIGN CHOICE,
log entry 13). -/
def startLine (p : Nat) (l : RawLine) : Act := .get fun s =>
  let q := s.path p
  let fmt := if l.fmt = 0 then s.pFmt p else l.fmt
  let n := s.pOut p * l.comps
  let per := lineBytes fmt n
  let win := q.window.filter fun e => decide (s.now < e.1 + 10000)
  let tooMuch := decide ((s.rd (Reg.SFE.RATE_DECL p)).toNat * 10 * s.pAvgY p < sumNat (win.map (·.2)) + per)
  let (drop, room) := s.lbRoom p fmt n
  if tooMuch then
    .seq (.path p fun q => { q with
            dropped := (q.dropped.filter fun k => decide (q.lbFirst ≤ k)) ++ [s.outStarted p], window := win }) (pathEvent p 1)
  else if !room then
    let mark (x : PathItem) : PathItem :=
      if s.live? p x && decide (x.first ≤ s.outStarted p) then { x with invalid := true } else x
    .seq (.path p fun q => { q with items := q.items.map mark }) (pathEvent p 0)
  else
    .all [.path p fun q => { q with
            cur := q.cur ++ [l], started := q.started + 1, lb := q.lb.drop drop, lbFirst := q.lbFirst + drop,
            stamps := if q.started % s.pAvgY p = 0 then (l.stamp :: q.stamps).take 16 else q.stamps,
            window := win ++ [(s.now, per)] },
          maxLines p,
          showLines p]

/-- LINE_COMPLETE (R106): the oldest line of the path, all its parts delivered, is complete; a full averaging group
becomes an output line (R91, R92). -/
def lineCompleteAct (p : Nat) : Act := .get fun s =>
  let q := s.path p
  match q.cur with
  | [] => .nil
  | l :: t =>
    .when l.ready <|
      let g := q.group ++ [l]
      if g.length < s.pAvgY p then .path p fun q => { q with cur := t, group := g }
      else .fresh fun k =>
        let o := groupLine (s.pAvgX p) (s.pOut p) k (s.pFmt p) g
        .all [.path p fun q => { q with
                cur := t, group := [], lb := q.lb ++ [o] },
              showLines p]

/-! ### Bands (R107 to R113) -/

/-- R107: the mean interval of the latest lines of path `p`, in ns. -/
def State.meanPeriod (s : State) (p : Nat) : Nat :=
  let l := (s.path p).stamps
  if l.length < 2 then (s.rd (Reg.ENC.TIME_PERIOD (s.pTrigEnc p))).toNat
  else (l.headD 0 - l.getLastD 0) / (l.length - 1)

/-- Header and payload of a unit of path `p`'s band stream (R30, R68). -/
def State.bandUnit (s : State) (p : Nat) (x : PathItem) (flags : List Nat) (lines : List OutLine) : DUnit :=
  let fmt := (lines.head?.map (·.fmt)).getD (s.pFmt p)
  unitWith ((lines.head?.map (·.stamp)).getD x.stamp) x.id (s.fld (Reg.SFE.PATH_STREAM p) 19 18)
    (s.fld (Reg.SFE.PATH_STREAM p) 27 20) fmt 384 (flagsOf flags) (lines.flatMap fun l => packLine l.fmt l.px)

/-- R112: the tag unit of a band unit. -/
def State.tagUnit (s : State) (p : Nat) (x : PathItem) (flags : List Nat) (lines : List OutLine) : DUnit :=
  unitWith ((lines.head?.map (·.stamp)).getD x.stamp) x.id (s.fld (Reg.SFE.PATH_STREAM p) 19 18)
    (s.fld (Reg.SFE.PATH_STREAM p) 27 20) 0x13 384 (flagsOf flags)
    (lines.flatMap fun l => leBytes 4 (l.stamp % 4294967296) ++ leBytes 4 l.tag.toNat)

/-- Slots of path `p`'s destination ring (R115). -/
def State.pSlots (s : State) (p : Nat) : Nat := s.fld (Reg.SFE.DEST_CFG p) 15 0

/-- Has the destination ring, and for a unit with `tags` the tag stream, a free slot (R110, R112)? -/
def State.pRoomFor (s : State) (p : Nat) (tags : Bool) : Bool :=
  !ringFull (s.rd (Reg.SFE.DEST_HEAD p)).toNat (s.rd (Reg.SFE.DEST_TAIL p)).toNat (s.pSlots p) &&
  (!tags || !s.streamFull (s.fld (Reg.SFE.PATH_STREAM p) 17 9))

/-- Has an enabled path room for a band unit and, with LINE_TAGS, its tag unit? -/
def State.pRoom (s : State) (p : Nat) : Bool := s.pRoomFor p (s.bit (Reg.SFE.PATH_CTRL p) 25)

/-- R110: write a unit into the path's ring and advance DEST_TAIL, keeping the stream record equal (R404). -/
def pathPublish (p : Nat) (u : DUnit) : Act := .get fun s =>
  let n := s.fld (Reg.SFE.PATH_STREAM p) 8 0
  let tail := (s.rd (Reg.SFE.DEST_TAIL p)).toNat
  let v := s.finish n u
  let next := nextSlot tail (s.pSlots p)
  .all [.guarded v.cls.toNat ((s.rd (Reg.SFE.DEST_BASE p)).toNat + tail * s.fld (Reg.SFE.DEST_CFG p) 31 16 * 1024) v.toBytes,
        .wrN (Reg.SFE.DEST_TAIL p) next,
        .mem (s.streamAddr n + 12) 4 next,
        .stream n fun st => { st with fc := st.fc + 1,
                                      recent := if s.loopStream n then st.recent ++ [(s.now, v)] else st.recent },
        .event (.unit n v)]

/-- Publish a band unit of `lines` and its tag unit. -/
def deliverUnit (p : Nat) (x : PathItem) (flags : List Nat) (lines : List OutLine) : Act := .get fun s =>
  .seq (pathPublish p (s.bandUnit p x flags lines))
       (.when (s.bit (Reg.SFE.PATH_CTRL p) 25)
         (.publish (s.fld (Reg.SFE.PATH_STREAM p) 17 9) (s.tagUnit p x flags lines)))

/-- What the head item of a path is due to deliver: number of lines, last unit of the item, flags beside UNCERTAIN. -/
structure Due where
  n       : Nat
  last    : Bool
  partial_ : Bool
  invalid : Bool
  deriving DecidableEq, Repr

/-- R103, R108: the unit that is due at once, if any. -/
def PathItem.dueNow (x : PathItem) (complete band : Nat) : Option Due :=
  let avail := complete - x.next
  match x.stop with
  | some e =>
    let left := e - x.next
    if x.aborted then
      if left = 0 then some ⟨0, true, true, true⟩
      else some ⟨min left x.bandLeft, false, decide (min left x.bandLeft < band), x.invalid⟩
    else if e ≤ complete ∧ left ≤ x.bandLeft then
      some ⟨left, true, decide (left < band) || x.maxed, x.invalid⟩
    else if x.bandLeft ≤ avail then some ⟨x.bandLeft, false, decide (x.bandLeft < band), x.invalid⟩
    else none
  | none => if x.bandLeft ≤ avail then some ⟨x.bandLeft, false, decide (x.bandLeft < band), x.invalid⟩ else none

/-- Deliver `d` from the head item `x` of path `p`; history beyond PRE_LINES leaves the buffer. -/
def deliverDue (p : Nat) (x : PathItem) (d : Due) : Act := .get fun s =>
  let q := s.path p
  if !s.pRoom p then .setFld (Reg.SFE.PATH_STATUS p) 1 1 1
  else
    let lines := (q.lb.drop (x.next - q.lbFirst)).take d.n
    let lost := lines.any (·.lost)
    let inBand (k : Nat) : Bool := decide (x.next ≤ k ∧ k < min (x.next + x.bandLeft) (x.stop.getD (k + 1)))
    let short := q.dropped.any inBand
    let cut := q.cuts.any fun k => decide (x.next < k) && inBand k
    let needed (k : Nat) : Bool := (!d.last && decide (x.next + x.bandLeft ≤ k)) ||
      (q.items.drop 1).any fun z => decide (z.next ≤ k)
    let flags := (if d.last then [fLAST] else []) ++ (if d.partial_ || cut then [fPARTIAL] else []) ++
      (if d.invalid || x.invalid || lost then [fINVALID] else []) ++ (if lines.any (·.doubt) || short then [fUNCERTAIN] else [])
    let left := x.bandLeft - d.n
    let y := { x with next := x.next + d.n, bandLeft := if left = 0 then s.pBand p else left,
                      invalid := x.invalid || lost, stamp := (lines.getLast?.map (·.stamp)).getD x.stamp }
    .all [deliverUnit p x flags lines,
          .setFld (Reg.SFE.PATH_STATUS p) 1 1 0,
          .when (d.last && !x.closed) <| .seq
            (.setFld (Reg.SFE.PATH_STATUS p) 0 0 (b2n ((q.items.drop 1).any fun z => !z.closed)))
            (.event (.itemClose p x.id x.stamp)),
          .path p fun q =>
            let items := if d.last then q.items.drop 1 else y :: q.items.drop 1
            let keep := min (items.foldl (fun m i => min m i.next) (q.lbFirst + q.lb.length))
                            (q.lbFirst + q.lb.length - s.fld (Reg.SFE.PATH_ITEM p) 11 0)
            let drop := keep - q.lbFirst
            { q with items := items, waitFrom := none, dropped := q.dropped.filter needed, cuts := q.cuts.filter needed,
                     lb := q.lb.drop drop, lbFirst := q.lbFirst + drop },
          showLines p]

/-- BAND_DELIVER (R108, R110): the unit due at once is written, or waits for a ring slot. A unit left by a disabled path
goes first. -/
def bandDeliverAct (p : Nat) : Act := .get fun s =>
  let q := s.path p
  match q.waiting with
  | (u, tag) :: t => .when (s.pRoomFor p tag.isSome) <| .all
      [pathPublish p u,
       (match tag with
        | some v => .publish (s.fld (Reg.SFE.PATH_STREAM p) 17 9) v
        | none => .nil),
       .path p fun q => { q with waiting := t }]
  | [] => match q.items with
    | [] => .nil
    | x :: _ => match x.dueNow (q.lbFirst + q.lb.length) (s.pBand p) with
      | some d => deliverDue p x d
      | none => .nil

/-- Lines of item `x`'s present band not yet delivered (R107): what is left of BAND_LINES, or of the item where its last line
is known. -/
def PathItem.bandLines (x : PathItem) : Nat := match x.stop with
  | some e => min x.bandLeft (e - x.next)
  | none => x.bandLeft

/-- R107: request time of the head item's band, where it has a line. -/
def State.requestTime (s : State) (p : Nat) (x : PathItem) : Option Nat :=
  (s.heldStamp p x.next).map fun t => t + x.bandLines * s.meanPeriod p

/-- PATH_WAIT_EXPIRY (R108, R109): at request time plus PATH_WAIT the complete lines go with PARTIAL, or the wait
restarts from now. Units left by a disabled path go first (R105). -/
def pathWaitExpiryAct (p : Nat) : Act := .get fun s =>
  let q := s.path p
  if !q.waiting.isEmpty then .nil else
  match q.items with
  | [] => .nil
  | x :: _ =>
    let complete := q.lbFirst + q.lb.length
    match x.dueNow complete (s.pBand p) with
    | some d => deliverDue p x d
    | none =>
      let from? := match q.waitFrom with
        | some t => some t
        | none => s.requestTime p x
      match from? with
      | none => .nil
      | some t => .when (decide (t + (s.rd (Reg.SFE.PATH_WAIT p)).toNat % 65536 * 1000 ≤ s.now)) <|
        let n := complete - x.next
        if n = 0 then .path p fun q => { q with waitFrom := some s.now }
        else deliverDue p x ⟨n, false, true, x.invalid⟩

/-! ### Encoders (R83 to R90) -/

/-- R117: does path `p` take a line from a trigger of this source? In TRIG_MODE 0 from the counts of the encoder it names,
in TRIG_MODE 1 from that encoder's line timer; a software trigger is for every path of the group (log entry 12). -/
def State.pathTakes (s : State) (p : Nat) : TrigSrc → Bool
  | .count n => s.pTrigMode p == 0 && s.pTrigEnc p == n
  | .timer n => s.pTrigMode p == 1 && s.pTrigEnc p == n
  | .software => true

/-- R78: PGEN[g] takes trigger `t` in WAIT_TRIG, its DURATION counting from `since` (0.5 ns units): a line starts on the
paths of AFE group g. The line after a dropped trigger is doubtful, a held one is so itself (R81, R113). -/
def takeTrigger (g : Nat) (t : Trig) (since : Nat) : Act := .get fun s =>
  .all [.setFld (Reg.PGEN.PG_STATUS g) 13 13 0,
        .pgen g fun x => { x with since := some since, dropped := x.dropped && t.held },
        .each ((s.pathsOf 0 g).filter fun q => s.pathTakes q t.src) fun q => startLine q
          { stamp := t.stamp, timer := t.timer, held := t.held, doubt := t.after || (s.pgen g).dropped }]

/-- R81: a trigger reaches PGEN[g]: taken in WAIT_TRIG, else held, else dropped. While RUN is 0 it is neither taken nor
held (DESIGN CHOICE, log entry 12). -/
def pgenTrigger (g : Nat) (t : Trig) : Act := .get fun s =>
  let p := s.pgen g
  .when (s.bit (Reg.PGEN.PG_CTRL g) 0) <|
    if s.bit (Reg.PGEN.PG_STATUS g) 13 then takeTrigger g t (2 * t.stamp)
    else if p.held.isNone then
      .all [.pgen g fun x => { x with held := some { t with held := true } }, .setFld (Reg.PGEN.PG_STATUS g) 14 14 1,
            .bump (Reg.PGEN.TRIG_LATE g) 1, .raise .PGEN g 1]
    else .all [.pgen g fun x => { x with dropped := true }, .bump (Reg.PGEN.TRIG_DROP g) 1, .raise .PGEN g 2]

/-- A trigger packet to camera port `m` (R93, R96). -/
def cxpTrigger (m : Nat) (t : Trig) : Act :=
  .seq (.out (.cxpTrigger m)) (.cap fun c => { c with cxpTrig := updAt (fun l => l ++ [t]) m c.cxpTrig })

/-- R117: do the paths of a source, where it has any, take triggers of source `x`? -/
def State.pathsTake (s : State) (ps : List Nat) (x : TrigSrc) : Bool := ps.isEmpty || ps.any fun p => s.pathTakes p x

/-- Does PGEN[g] take the line triggers of encoder `n` from source `x` (R117, R119)? The line timer reaches the generators
whose paths name it. -/
def State.pgenTakes (s : State) (g n : Nat) (x : TrigSrc) : Bool :=
  !s.bit (Reg.PGEN.PG_CTRL g) 19 &&
  (if x = .timer n then (s.pathsOf 0 g).any fun p => s.pathTakes p x
   else s.fld (Reg.PGEN.PG_CTRL g) 18 16 == n && s.pathsTake (s.pathsOf 0 g) x)

/-- Does camera port `m` send trigger packets for the line triggers of encoder `n` from source `x` (R117, R121)? -/
def State.cxpTakes (s : State) (m n : Nat) (x : TrigSrc) : Bool :=
  s.bit (Reg.CXP.CXP_CTRL m) 0 && s.bit (Reg.CXP.CXP_CTRL m) 7 && s.fld (Reg.CXP.CXP_CTRL m) 10 8 == n &&
  (if x = .timer n then (s.pathsOf 1 m).any fun p => s.pathTakes p x else s.pathsTake (s.pathsOf 1 m) x)

/-- R84, R85, R120, R121: encoder `n` issues a line trigger; a divider written before it applies from it on. -/
def encTrigger (n : Nat) (t : Trig) : Act := .get fun s =>
  .all [.bump (Reg.ENC.TRIG_CNT n) 1,
        .enc n fun e => { e with div := e.divPend.getD e.div, divPend := none },
        .each ((List.range 4).filter fun g => s.pgenTakes g n t.src) fun g => pgenTrigger g t,
        .each ((List.range 8).filter fun m => s.cxpTakes m n t.src) fun m => cxpTrigger m t,
        pinPulse 7 n]

/-- R87: the last good line period. -/
def State.linePeriod (s : State) (n : Nat) : Nat :=
  if (s.enc n).trigSeen < 2 then (s.rd (Reg.ENC.TIME_PERIOD n)).toNat else (s.rd (Reg.ENC.PERIOD_NS n)).toNat

/-- R87: the overspeed timer of encoder `n` runs at the last good line period from the last count-triggered line; where that
lies in the past, from now. -/
def armOverspeed (n : Nat) : Act := .get fun s =>
  .when ((s.enc n).nextTimer.isNone) <|
    .enc n fun e => { e with nextTimer := some (max s.now ((e.lastTrig.getD s.now) + s.linePeriod n)) }

/-- R86, R87: an edge too soon, or an illegal transition. -/
def encOverspeed (n : Nat) (illegal : Bool) : Act := .get fun s =>
  .all [.when illegal (.orReg (Reg.ENC.ENC_EVENTS n) 8),
        .enc n fun e => { e with recover := 0 },
        .when (!s.bit (Reg.ENC.ENC_STATUS n) 0) <| .all
          [.setFld (Reg.ENC.ENC_STATUS n) 0 0 1, .orReg (Reg.ENC.ENC_EVENTS n) 1, .bump (Reg.ENC.OVERSPEED_CNT n) 1,
           .raise .ENC n 0],
        armOverspeed n]

/-- Show the signed count in POS (R120). -/
def showPos (n : Nat) : Act := .get fun s => .wr64 (Reg.ENC.POS_LO n) (Reg.ENC.POS_HI n) (uns 64 (s.enc n).pos)

/-- Edges per count under MULT (R120); the reserved code 3 acts as ×4 (log entry 12). -/
def State.edgesPerCount (s : State) (n : Nat) : Nat :=
  if s.fld (Reg.ENC.ENC_CTRL n) 3 2 = 1 then 2 else if s.fld (Reg.ENC.ENC_CTRL n) 3 2 = 2 then 4 else 1

/-- R83: what an accepted edge does to the counts: the change of the count and the edges left over. -/
def countStep (per sub : Nat) (forward : Bool) : Int × Nat :=
  if forward then (if per ≤ sub + 1 then (1, 0) else (0, sub + 1))
  else (if sub = 0 then (-1, per - 1) else (0, sub - 1))

/-- R85: the trigger generator on one accepted count. -/
def encCount (n : Nat) (forward : Bool) : Act := .get fun s =>
  let e := s.enc n
  let one : Int := 4294967296
  let acc := if forward then e.acc + one
    else if s.bit (Reg.ENC.ENC_CTRL n) 4 then max (e.acc - one) (-(2 ^ 55)) else e.acc
  if e.div ≤ acc then
    let period := match e.lastTrig with
      | some t => s.now - t
      | none => 0
    .all [.enc n fun e => { e with acc := acc - e.div,
                                   lastTrig := some s.now, trigSeen := min 2 (e.trigSeen + 1), firstAfter := false },
          .when (e.lastTrig.isSome) (.wrN (Reg.ENC.PERIOD_NS n) period),
          encTrigger n { stamp := s.now, src := .count n, after := e.firstAfter }]
  else .enc n fun e => { e with acc := acc }

/-- ENCODER_EDGE (R83 to R88). -/
def encoderEdgeAct (n : Nat) (fwd both : Bool) : Act := .get fun s =>
  .when (s.bit (Reg.ENC.ENC_CTRL n) 0) <|
    let e := s.enc n
    let gap := max 10 (s.fld (Reg.ENC.FILT n) 9 0) * 5
    let soon := match e.lastEdge with
      | some t => decide (s.now < t + gap)
      | none => false
    if soon || both then encOverspeed n both
    else
      let forward := fwd != s.bit (Reg.ENC.ENC_CTRL n) 1
      let (d, sub) := countStep (s.edgesPerCount n) e.sub forward
      .all [.enc n fun e => { e with lastEdge := some s.now, sub := sub, pos := e.pos + d, recover := e.recover + 1 },
            showPos n,
            .setFld (Reg.ENC.ENC_STATUS n) 1 1 0, .setFld (Reg.ENC.ENC_STATUS n) 3 3 (b2n (!forward)),
            if s.bit (Reg.ENC.ENC_STATUS n) 0 then
              if s.fld (Reg.ENC.RECOVER n) 15 0 ≤ e.recover + 1 then
                .seq (.setFld (Reg.ENC.ENC_STATUS n) 0 0 0)
                     (.enc n fun e => { e with acc := 0, nextTimer := none, firstAfter := true })
              else armOverspeed n
            else .when (decide (d ≠ 0)) (encCount n forward)]

/-- OVERSPEED_TIMER_TRIGGER (R87). -/
def overspeedTimerAct (n : Nat) : Act := .get fun s =>
  match (s.enc n).nextTimer with
  | some t => .when (s.bit (Reg.ENC.ENC_STATUS n) 0 && decide (t ≤ s.now))
      (.seq (.enc n fun e => { e with nextTimer := some (t + s.linePeriod n) })
            (encTrigger n { stamp := s.now, src := .count n, timer := true }))
  | none => .nil

/-- Enabled paths triggered by counts of encoder `n`. -/
def State.encPaths (s : State) (n : Nat) : List Nat :=
  (List.range 16).filter fun p => s.pathOn p && s.pTrigEnc p == n && s.pTrigMode p == 0

/-- Paths of `l` that have an item with lines to come. -/
def State.withItem (s : State) (l : List Nat) : List Nat := l.filter fun p => (s.path p).items.any (s.live? p)

/-- R89: has encoder `n` accepted no edge for STALL_US? -/
def State.stalled (s : State) (n : Nat) : Bool :=
  decide ((s.enc n).lastEdge.getD (s.enc n).enabledAt + s.fld (Reg.ENC.STALL_US n) 19 0 * 1000 ≤ s.now)

/-- ENCODER_STALL (R89): no accepted edge for STALL_US. With no item open, only STOPPED; an item opened since is closed
even so. -/
def encoderStallAct (n : Nat) : Act := .get fun s =>
  let open_ := s.withItem (s.encPaths n)
  .when (s.bit (Reg.ENC.ENC_CTRL n) 0 && s.stalled n) <| .all
    [.setFld (Reg.ENC.ENC_STATUS n) 1 1 1,
     .enc n fun e => { e with nextTimer := none },
     .each open_ fun p => .seq (abortOn p fun _ => true) (pathEvent p 3),
     .when (!open_.isEmpty) (.seq (.orReg (Reg.ENC.ENC_EVENTS n) 2) (.raise .ENC n 1))]

/-- ENCODER_LINE_FAULT (R90). -/
def encoderLineFaultAct (n : Nat) : Act := .get fun s =>
  let open_ := s.withItem (s.encPaths n)
  .when (s.bit (Reg.ENC.ENC_CTRL n) 0) <| .all
    [.setFld (Reg.ENC.ENC_STATUS n) 2 2 1, .orReg (Reg.ENC.ENC_EVENTS n) 4,
     .each open_ fun p => .seq (abortOn p fun _ => true) (pathEvent p 3),
     .when (!open_.isEmpty) (.raise .ENC n 1)]

/-- R84: the divider as written, at least 1.0. -/
def State.divWritten (s : State) (n : Nat) : Nat :=
  max 4294967296 (s.fld (Reg.ENC.DIV_INT n) 23 0 * 4294967296 + (s.rd (Reg.ENC.DIV_FRAC n)).toNat)

/-- R84: a write to DIV_FRAC takes both halves; in force at once while the encoder is off, from the next trigger
otherwise. A value below 1.0 sets CFG_ERR. -/
def divFracAct (n : Nat) (v : Word) : Act :=
  .seq (.wr (Reg.ENC.DIV_FRAC n) v) <| .get fun s =>
    .seq (.when (s.fld (Reg.ENC.DIV_INT n) 23 0 == 0) (.cfgErr .ENC n)) <|
      if s.bit (Reg.ENC.ENC_CTRL n) 0 then .enc n fun e => { e with divPend := some (s.divWritten n) }
      else .enc n fun e => { e with div := s.divWritten n, divPend := none }

/-- R120: ENC_CTRL written; ENABLE set starts afresh. -/
def encCtrlAct (n : Nat) (old v : Word) : Act := .get fun s =>
  .when (v.getLsbD 0 && !old.getLsbD 0) <| .all
    [.enc n fun e => { pos := e.pos, div := e.divPend.getD e.div, enabledAt := s.now, lineTimer := e.lineTimer },
     .wr (Reg.ENC.TRIG_CNT n) 0, .wr (Reg.ENC.ENC_STATUS n) 0]

/-- Enabled paths that the line timer of encoder `n` triggers (R117). -/
def State.timerPaths (s : State) (n : Nat) : List Nat :=
  (List.range 16).filter fun p => s.pathOn p && s.pTrigEnc p == n && s.pTrigMode p == 1

/-- R117: the line timer of encoder `n` runs while a path with TRIG_MODE 1 names it. -/
def settleTimer (n : Nat) : Act := .get fun s =>
  if (s.timerPaths n).isEmpty then .enc n fun e => { e with lineTimer := none }
  else .when (s.enc n).lineTimer.isNone <|
    .enc n fun e => { e with lineTimer := some (s.now + (s.rd (Reg.ENC.TIME_PERIOD n)).toNat) }

/-- ENC_TIMER_TRIGGER (R117): with TRIG_MODE 1, a line every TIME_PERIOD of the encoder named. -/
def encTimerAct (n : Nat) : Act := .get fun s =>
  match (s.enc n).lineTimer with
  | some t =>
    .when (!(s.timerPaths n).isEmpty && decide (t ≤ s.now)) <|
      .seq (.enc n fun e => { e with lineTimer := some (t + (s.rd (Reg.ENC.TIME_PERIOD n)).toNat) })
           (encTrigger n { stamp := s.now, src := .timer n })
  | none => .nil

/-! ### Pattern generators and analogue channels (R69 to R82) -/

/-- Pattern state `k` of PGEN[g] (R77). -/
def State.pstate (s : State) (g k : Nat) : BitVec 64 := alGet 0 k (s.pgen g).pmem


/-- Put levels on the timing outputs (R77, R119). -/
def driveOut (g : Nat) (level : Nat) : Act := .seq (.pgen g fun x => { x with level := level }) (showOut g)

/-- R119: OUT_IDLE or OUT_EN written: the idle levels apply while the generator does not run, or has halted on an error. -/
def outWritten (g : Nat) : Act := .get fun s =>
  if !s.bit (Reg.PGEN.PG_CTRL g) 0 || s.fld (Reg.PGEN.PG_STATUS g) 19 16 != 0
  then driveOut g (s.fld (Reg.PGEN.OUT_IDLE g) 15 0) else showOut g

/-- Logical channels of AFE group `g` by physical channel (R118 CH_MAP); `none` for the channel not in service. -/
def State.chanOf (s : State) (g c : Nat) : Option Nat :=
  (List.range 12).find? fun l =>
    (if l < 8 then s.fld (Reg.AFE.CH_MAP_LO g) (4 * l + 3) (4 * l)
     else s.fld (Reg.AFE.CH_MAP_HI g) (4 * (l - 8) + 3) (4 * (l - 8))) == c

/-- R75: is physical channel `c` the spare now shadowing? -/
def State.shadowing (s : State) (g c : Nat) : Bool := s.bit (Reg.AFE.SHADOW g) 4 && (s.chanOf g c).isNone

/-- Does channel `c` convert: in service or shadowing? -/
def State.converts (s : State) (g c : Nat) : Bool := (s.chanOf g c).isSome || s.shadowing g c

/-- Physical channel of logical channel `l` (R118). -/
def State.physChan (s : State) (g l : Nat) : Nat :=
  if l < 8 then s.fld (Reg.AFE.CH_MAP_LO g) (4 * l + 3) (4 * l)
  else s.fld (Reg.AFE.CH_MAP_HI g) (4 * (l - 8) + 3) (4 * (l - 8))

/-- The group's input that physical channel `c` samples (R75): its own; for the spare, that of the logical channel it
serves or, shadowing, of the one SHADOW names (log entry 14). -/
def State.inputOf (s : State) (g c : Nat) : Nat :=
  if c ≠ 12 then c
  else match s.chanOf g c with
    | some l => l
    | none =>
      if s.shadowing g c then
        let p := s.physChan g (s.fld (Reg.AFE.SHADOW g) 3 0)
        if p = 12 then s.fld (Reg.AFE.SHADOW g) 3 0 else p
      else c

/-- R72, R118: D of channel `c`. -/
def State.chD (s : State) (g c : Nat) : Int := sgn 13 (s.fld (Reg.AFE.CH_BLACK g c) 12 0)
/-- R71, R118: DAC code of channel `c`. -/
def State.chDac (s : State) (g c : Nat) : Int := sgn 10 (s.fld (Reg.AFE.CH_OFFSET g c) 9 0)

/-- R69 to R71: input (in converter codes at gain 1) after the offset DAC and the amplifier, in 1/64 of a code. -/
def State.amplify (s : State) (g c : Nat) (x : Int) : Int :=
  (x + s.chDac g c * 32) * (64 + min (s.fld (Reg.AFE.CH_GAIN g c) 9 0) 960 : Nat)

/-- R69: the 16-bit converter on `num` 1/64 codes. Its rounding of a value between two codes is open (log entry 14). -/
def convert (k c : Nat) (num : Int) : Int :=
  let q := num / 64
  clampInt (if num % 64 = 0 then q else if (Config.freeValue k c).getLsbD 0 then q + 1 else q) 0 65535

/-- R69, R71: the raw value of a sample: the held level, or with MODE 1 the difference between the reset level and the
signal level, formed before the converter. -/
def State.rawSample (s : State) (g c k : Nat) (shr x : Int) : Int :=
  let lvl := s.amplify g c x
  convert k c (if s.bit (Reg.AFE.AFE_CTRL g) 1 then (Int.natAbs (lvl - shr) : Int) else lvl)

/-- R72: mean of the black samples, rounded half up. -/
def blackMean (sum n : Nat) : Nat := if n = 0 then 0 else (2 * sum + n) / (2 * n)

/-- R72, R73: the end of a line for channel `c`: D moves, the line is counted. -/
def blackLoop (g c : Nat) : Act := .get fun s =>
  let ch := (s.afe g).chans.getD c {}
  .when (s.converts g c && decide (0 < ch.blkN)) <|
    let sh := s.fld (Reg.AFE.BLK_CTRL g) 19 16
    let e : Int := (s.fld (Reg.AFE.BLK_CTRL g) 15 0 : Int) - (blackMean ch.blkSum ch.blkN : Int)
    let d := clampInt (s.chD g c + (e + (2 ^ (sh - 1) : Nat)) / (2 ^ sh : Nat)) (-4095) 4095
    .seq (.wrN (Reg.AFE.CH_BLACK g c) (uns 13 d))
         (.afe g fun a => { a with chans := updAt (fun x => { x with lines := x.lines + 1 }) c a.chans })

/-- DARK_LOOP_STEP (R72): every 2^DARK_SHIFT lines the offset DAC moves. -/
def darkLoopAct (g c : Nat) : Act := .get fun s =>
  let ch := (s.afe g).chans.getD c {}
  let d := s.chD g c
  let dac := s.chDac g c
  let dac' := if 1024 < d ∧ dac < 511 then dac + 1 else if d < -1024 ∧ -512 < dac then dac - 1 else dac
  .when (s.converts g c && decide (2 ^ s.fld (Reg.AFE.BLK_CTRL g) 27 24 ≤ ch.lines)) <| .all
    [.afe g fun a => { a with chans := updAt (fun x => { x with lines := 0 }) c a.chans },
     .when (dac' != dac) (.setFld (Reg.AFE.CH_OFFSET g c) 9 0 (uns 10 dac')),
     .when (decide (1024 < d ∧ dac' = 511 ∨ d < -1024 ∧ dac' = -512)) (.raise .AFE g 0)]

/-- R118: deliver a channel's pixels of the line into the lines of its path. -/
def deliverChan (g c : Nat) : Act := .get fun s =>
  let ch := (s.afe g).chans.getD c {}
  let p := s.fld (Reg.AFE.CH_SEG g c) 19 16
  let base := s.fld (Reg.AFE.CH_SEG g c) 15 0
  let px := if s.bit (Reg.AFE.CH_SEG g c) 31 then ch.px.reverse else ch.px
  .when ((s.chanOf g c).isSome && (s.pathsOf 0 g).contains p) <|
    .path p fun q => { q with cur := match q.cur.reverse with
      | [] => []
      | l :: t => ((if l.ready then l else { l with px := l.px ++ px.zipIdx.map fun (v, i) => (base + i, v) }) :: t).reverse }

/-- The end of a line of AFE group `g` (R72, R76, R106): the channels deliver, the black loops step, the clip count is
looked at, a line the spare has shadowed whole is counted, and a line boundary has come. `whole`: the line did not end in
an error. -/
def afeLineEnd (g : Nat) (whole : Bool) : Act := .get fun s =>
  let a := s.afe g
  let shadow := s.bit (Reg.AFE.SHADOW g) 4
  .all [.each (List.range 13) (deliverChan g),
        .each (s.pathsOf 0 g) fun p => .path p fun q => { q with cur := match q.cur.reverse with
          | [] => []
          | l :: t => ({ l with ready := true } :: t).reverse },
        .each (List.range 13) (blackLoop g),
        .when (decide (a.sampLine < 2 * a.clipLine)) (.raise .AFE g 2),
        .afe g fun a => { a with
          clipLine := 0, sampLine := 0, shadowed := shadow,
          shadowN := if !shadow then 0 else if whole && a.shadowed && a.sampLine != 0 then min 256 (a.shadowN + 1) else a.shadowN,
          chans := a.chans.map fun x => { x with blkSum := 0, blkN := 0, px := [] } }]

/-- SHADOW_SETTLED (R76, R118): 256 lines shadowed. -/
def shadowSettledAct (g : Nat) : Act := .get fun s =>
  .when (decide (256 ≤ (s.afe g).shadowN) && !(s.afe g).settled)
    (.seq (.afe g fun a => { a with settled := true }) (.raise .AFE g 3))

/-- Is AFE group `g` between two lines? -/
def State.lineBoundary (s : State) (g : Nat) : Bool :=
  s.bit (Reg.PGEN.PG_STATUS g) 13 || s.bit (Reg.PGEN.PG_STATUS g) 12 || !s.bit (Reg.PGEN.PG_CTRL g) 0

/-- AFE_CHANNEL_SWITCH (R76): at a line boundary, after the spare has shadowed 256 lines of it, the logical channel goes to
the spare. -/
def afeSwitchAct (g : Nat) : Act := .get fun s =>
  match (s.afe g).switchTo with
  | some (l, c) => .when (s.lineBoundary g && s.bit (Reg.AFE.SHADOW g) 4 && s.fld (Reg.AFE.SHADOW g) 3 0 == l &&
      decide (256 ≤ (s.afe g).shadowN)) <| .all
      [if l < 8 then .setFld (Reg.AFE.CH_MAP_LO g) (4 * l + 3) (4 * l) c
       else .setFld (Reg.AFE.CH_MAP_HI g) (4 * (l - 8) + 3) (4 * (l - 8)) c,
       .afe g fun a => { a with switchTo := none, shadowN := 0, settled := false, shadowed := false },
       .setFld (Reg.AFE.SHADOW g) 4 4 0]
  | none => .nil

/-- R79: a short duration (1) or a reserved condition (2). -/
def pgenError (g code : Nat) : Act := .get fun s =>
  .all [driveOut g (s.fld (Reg.PGEN.OUT_IDLE g) 15 0), .setFld (Reg.PGEN.PG_STATUS g) 12 12 1,
        .setFld (Reg.PGEN.PG_STATUS g) 19 16 code, .pgen g fun x => { x with since := none }, .raise .PGEN g 0]

/-- R78, R79: PGEN[g] enters pattern state `k` at time `t` (0.5 ns units). -/
def enterState (g k t : Nat) : Act := .get fun s =>
  let w := s.pstate g k
  let cond := bits w 47 44
  .seq (.setFld (Reg.PGEN.PG_STATUS g) 11 0 k) <|
    if bits w 31 16 < 4 then .seq (pgenError g 1) (afeLineEnd g false)
    else if 5 ≤ cond then .seq (pgenError g 2) (afeLineEnd g false)
    else .seq (driveOut g (bits w 15 0)) <|
      if cond = 1 then .all
        [afeLineEnd g true, .setFld (Reg.PGEN.PG_STATUS g) 13 13 1, .pgen g fun x => { x with since := none },
         match (s.pgen g).held with
         | some h => .all [.pgen g fun x => { x with held := none }, .setFld (Reg.PGEN.PG_STATUS g) 14 14 0, takeTrigger g h t]
         | none => .nil]
      else if cond = 4 then .all
        [afeLineEnd g true, .setFld (Reg.PGEN.PG_STATUS g) 12 12 1, .pgen g fun x => { x with since := none }]
      else .pgen g fun x => { x with since := some t }

/-- R69, R72, R80: one channel takes its sample. `rep` repeats the previous value. -/
def takeSample (g k : Nat) (rep black : Bool) (raw : List (BitVec 16)) (c : Nat) : Act := .get fun s =>
  .when (s.converts g c) <|
    let ch := (s.afe g).chans.getD c {}
    let sum := s.rawSample g c k ch.shr ((raw.getD (s.inputOf g c) 0).toNat : Int) + s.chD g c
    let v : BitVec 16 := if rep then ch.prev else BitVec.ofNat 16 (clampInt sum 0 65535).toNat
    let clipped := !rep && decide (sum < 0 ∨ 65535 < sum)
    .seq (.when clipped (.bump (Reg.AFE.CLIP_CNT g) 1)) <|
      .afe g fun a => { a with
        clipLine := a.clipLine + b2n clipped, sampLine := a.sampLine + 1,
        chans := updAt (fun x => { x with
          prev := v, blkSum := x.blkSum + (if black then v.toNat else 0), blkN := x.blkN + b2n black,
          px := if black then x.px else x.px ++ [v] }) c a.chans }

/-- The marks of a state that ends at `t` (R69, R77, R80). SAMPLE_OVR counts once for each mark skipped, whatever number of
channels converts (DESIGN CHOICE, log entry 14). -/
def sampleMarks (g t : Nat) (w : BitVec 64) (raw : List (BitVec 16)) : Act := .get fun s =>
  let p := s.pgen g
  let rep := match p.lastSample with
    | some u => decide (t < u + 20)
    | none => false
  .when (s.bit (Reg.AFE.AFE_CTRL g) 0) <| .fresh fun k => .all
    [.when (w.getLsbD 61) (.afe g fun a => { a with
        chans := a.chans.zipIdx.map fun (x, c) => { x with shr := s.amplify g c ((raw.getD (s.inputOf g c) 0).toNat : Int) } }),
     .when (w.getLsbD 60) <| .all
       [.when rep (.all [.bump (Reg.PGEN.SAMPLE_OVR g) 1, .raise .PGEN g 3,
          .each (s.pathsOf 0 g) fun q => .path q fun x => { x with cur := match x.cur.reverse with
            | [] => []
            | l :: t => ((if l.ready then l else { l with repeated := true }) :: t).reverse }]),
        .pgen g fun x => { x with lastSample := some t },
        .each (List.range 13) (takeSample g k rep (w.getLsbD 62) raw)]]

/-- PGEN_STATE_END (R78): the present state's duration has run; samples are taken and the next state is entered. -/
def pgenStateEndAct (g : Nat) (raw : List (BitVec 16)) : Act := .get fun s =>
  let p := s.pgen g
  let w := s.pstate g (s.fld (Reg.PGEN.PG_STATUS g) 11 0)
  match p.since with
  | none => .nil
  | some t0 =>
    let t := t0 + bits w 31 16
    .when (s.bit (Reg.PGEN.PG_CTRL g) 0 && decide (t ≤ 2 * s.now)) <|
      .seq (sampleMarks g t w raw) <|
        let cond := bits w 47 44
        if cond = 2 then
          if p.cntA = 0 then .seq (.pgen g fun x => { x with cntA := (s.rd (Reg.PGEN.LOOP_A g)).setWidth 16 }) (enterState g (bits w 43 32) t)
          else .seq (.pgen g fun x => { x with cntA := x.cntA - 1 }) (enterState g (bits w 59 48) t)
        else if cond = 3 then
          if p.cntB = 0 then .seq (.pgen g fun x => { x with cntB := (s.rd (Reg.PGEN.LOOP_B g)).setWidth 16 }) (enterState g (bits w 43 32) t)
          else .seq (.pgen g fun x => { x with cntB := x.cntB - 1 }) (enterState g (bits w 59 48) t)
        else enterState g (bits w 43 32) t

/-- R119: PG_CTRL written: RUN set starts at START with the counters reloaded; RUN cleared drives OUT_IDLE. -/
def pgCtrlAct (g : Nat) (old v : Word) : Act := .get fun s =>
  if v.getLsbD 0 && !old.getLsbD 0 then
    .all [.wr (Reg.PGEN.PG_STATUS g) 0,
          .pgen g fun x => { pmem := x.pmem, level := x.level, cntA := (s.rd (Reg.PGEN.LOOP_A g)).setWidth 16,
                             cntB := (s.rd (Reg.PGEN.LOOP_B g)).setWidth 16 },
          enterState g (bits v 15 4) (2 * s.now)]
  else .when (!v.getLsbD 0 && old.getLsbD 0) <|
    .all [driveOut g (s.fld (Reg.PGEN.OUT_IDLE g) 15 0), .setFld (Reg.PGEN.PG_STATUS g) 14 13 0,
          .pgen g fun x => { x with since := none, held := none }]

/-- R119: a write to PM_DATA_HI stores the state at PM_ADDR, which rises by one. -/
def pmDataHiAct (g : Nat) (v : Word) : Act := .get fun s =>
  let a := s.fld (Reg.PGEN.PM_ADDR g) 11 0
  .all [.wr (Reg.PGEN.PM_DATA_HI g) v,
        .pgen g fun x => { x with pmem := alPut 0 a (v.setWidth 64 <<< 32 ||| (s.rd (Reg.PGEN.PM_DATA_LO g)).setWidth 64) x.pmem },
        .wrN (Reg.PGEN.PM_ADDR g) ((a + 1) % 4096)]

/-- R119: TRIG_CMD bit 0 issues one software trigger. -/
def trigCmdAct (g : Nat) (v : Word) : Act := .get fun s =>
  .when (v.getLsbD 0) (pgenTrigger g { stamp := s.now })

/-! ### Cameras (R93 to R97, R121, R122) -/

/-- R95: a camera component in its stitch-header format. -/
def cameraFmt (depth : Nat) : Nat := if depth ≤ 8 then 0x20 else if depth ≤ 12 then 0x21 else 0x22
def cameraValue (depth : Nat) (v : BitVec 16) : BitVec 16 := if depth = 10 ∨ depth = 14 then v <<< 2 else v

/-- R93: components of a pixel and whether the CXP ports support the format: mono or Bayer of 8, 10, 12, 14 or 16 bits (code
0), RGB8 or BGR8 (code 1). -/
def cxpComps (code depth : Nat) : Option Nat :=
  if code = 0 ∧ (depth = 8 ∨ depth = 10 ∨ depth = 12 ∨ depth = 14 ∨ depth = 16) then some 1
  else if code = 1 ∧ depth = 8 then some 3 else none

/-- R94: bits and components of a pixel of a CSI-2 data type the receivers support: RAW8 to RAW16 and YUV422 8-bit. The codes
are those of MIPI CSI-2 (PRESUMED, log entry 12). -/
def csiType (dt : Nat) : Option (Nat × Nat) :=
  if dt = 0x2A then some (8, 1) else if dt = 0x2B then some (10, 1) else if dt = 0x2C then some (12, 1)
  else if dt = 0x2D then some (14, 1) else if dt = 0x2E then some (16, 1) else if dt = 0x1E then some (8, 2) else none

/-- Is a camera line of `px` components, `comps` to the pixel, shorter or longer than PIX_PER_LINE (R97)? -/
def State.lineOff (s : State) (p comps : Nat) (px : List (BitVec 16)) : Bool := px.length != s.pPix p * comps

/-- R95 to R97: a camera line of `comps` components to the pixel reaches path `p`; `t`: the trigger that started it, its
stamp alone where none did. -/
def cameraLine (p : Nat) (t : Trig) (depth comps : Nat) (px : List (BitVec 16)) (lost : Bool) : Act := .get fun s =>
  let n := s.pPix p * comps
  let vals := (px.take n).map (cameraValue depth)
  let full := vals ++ List.replicate (n - vals.length) 0
  let body := if lost then List.replicate n 0 else full
  startLine p { stamp := t.stamp, timer := t.timer, doubt := t.after, padded := !lost && s.lineOff p comps px, lost := lost,
                ready := true, fmt := cameraFmt depth, comps := comps, px := body.zipIdx.map fun (v, i) => (i, v) }

/-- Frame start and end on path `p` (R96, R101 ITEM_SRC 2). A frame that ends inside a band of an item it does not close
makes that band PARTIAL (R113). -/
def frameStart (p : Nat) : Act := .get fun s =>
  .seq (.path p fun q => { q with frameStamp := some (s.now - (s.rd (Reg.SFE.STAMP_ADJ p)).toNat) })
       (.when (s.pItemSrc p == 2) (openNew p false))
def frameEnd (p : Nat) : Act := .get fun s =>
  .seq (.path p fun q => { q with
          frameStamp := none
          cuts := if s.pItemSrc p = 2 then q.cuts else (q.cuts.filter fun k => decide (q.lbFirst ≤ k)) ++ [s.outStarted p] })
       (.when (s.pItemSrc p == 2) (closeItem p false))

/-- Stamp of a line on path `p` that no trigger packet started (R96). -/
def State.freeStamp (s : State) (p : Nat) : Nat :=
  (s.path p).frameStamp.getD (s.now - (s.rd (Reg.SFE.STAMP_ADJ p)).toNat)

/-- CXP_PACKET (R96, R97). -/
def cxpPacketAct (n : Nat) (e : CameraEvent) : Act := .get fun s =>
  .when (s.bit (Reg.CXP.CXP_CTRL n) 0) <|
    let ps := s.pathsOf 1 n
    match e with
    | .frameStart _ => .each ps frameStart
    | .frameEnd => .each ps frameEnd
    | .line code depth px hdr ok triggered =>
      let lost := !ok || hdr == .uncorr
      let trig := if triggered then (s.hw.cap.cxpTrig.getD n []).head? else none
      .seq (.when lost (.seq (.bump (Reg.CXP.PKT_ERR n) 1) (.raise .CXP n 1))) <|
      match cxpComps code.toNat depth.toNat with
      | none => .nil
      | some comps => .all
        [.when trig.isSome (.cap fun c => { c with cxpTrig := updAt (fun l => l.drop 1) n c.cxpTrig }),
         .when (!lost && ps.any fun p => s.lineOff p comps px) (.bump (Reg.CXP.LINE_ERR n) 1),
         .each ps fun p => .seq (.when lost (pathEvent p 4))
           (cameraLine p (trig.getD { stamp := if triggered then s.now else s.freeStamp p }) depth.toNat comps px lost)]

/-- The data lanes CSI_CTRL.LANES names, as CSI_STATUS shows them in high-speed mode (R122): from a frame's start to its end
(DESIGN CHOICE, log entry 12). -/
def State.csiLanes (s : State) (n : Nat) : Nat :=
  let c := s.fld (Reg.CSI.CSI_CTRL n) 2 1
  if c = 0 then 1 else if c = 1 then 3 else 15

/-- CSI_PACKET (R94, R97, R122). Of the long packets, those of the data type CSI_CTRL names are delivered where the receivers
support it; the others, embedded data among them, are discarded. -/
def csiPacketAct (n : Nat) (vc : Nat) (e : CameraEvent) : Act := .get fun s =>
  .when (s.bit (Reg.CSI.CSI_CTRL n) 0 && s.fld (Reg.CSI.CSI_CTRL n) 4 3 == vc) <|
    let ps := s.pathsOf 2 n
    match e with
    | .frameStart num =>
      .all [.setFld (Reg.CSI.CSI_STATUS n) 4 4 1, .setFld (Reg.CSI.CSI_STATUS n) 31 16 num.toNat,
            .setFld (Reg.CSI.CSI_STATUS n) 3 0 (s.csiLanes n),
            .bump (Reg.CSI.FRAME_CNT n) 1, .raise .CSI n 1, .each ps frameStart]
    | .frameEnd => .all [.setFld (Reg.CSI.CSI_STATUS n) 4 0 0, .raise .CSI n 1, .each ps frameEnd]
    | .line dt depth px hdr ok _ =>
      let lost := !ok || hdr == .uncorr
      .all [.when (hdr == .corr) (.bump (Reg.CSI.ECC_CORR n) 1),
            .when (hdr == .uncorr) (.seq (.bump (Reg.CSI.ECC_UNCORR n) 1) (.raise .CSI n 0)),
            .when (!ok && hdr != .uncorr) (.seq (.bump (Reg.CSI.CRC_ERR n) 1) (.raise .CSI n 0)),
            match csiType dt.toNat with
            | some (bits_, comps) =>
              .when (s.fld (Reg.CSI.CSI_CTRL n) 10 5 == dt.toNat && bits_ == depth.toNat) <|
                .each ps fun p => .seq (.when lost (pathEvent p 4))
                  (cameraLine p { stamp := s.freeStamp p } bits_ comps px lost)
            | none => .nil]

/-- R121: CMD_GO relays one control transfer; nothing while one is in progress. -/
def cxpCmdAct (n : Nat) (v : Word) : Act := .get fun s =>
  .when (!s.bit (Reg.CXP.CMD_STATUS n) 0 && (v.getLsbD 0 || v.getLsbD 1)) <| .all
    [.wrN (Reg.CXP.CMD_STATUS n) 1,
     .cap fun c => { c with cxpRead := updAt (fun _ => !v.getLsbD 1) n c.cxpRead },
     .out (.cxpControl n (v.getLsbD 1) (s.rd (Reg.CXP.CMD_ADDR n)) (s.rd (Reg.CXP.CMD_DATA n)))]

/-- CXP_CONTROL_REPLY (R121). -/
def cxpReplyAct (n : Nat) (ack : Byte) (data : Word) : Act := .get fun s =>
  .when (s.bit (Reg.CXP.CMD_STATUS n) 0) <| .all
    [.wrN (Reg.CXP.CMD_STATUS n) (ack.toNat * 256),
     .when (s.hw.cap.cxpRead.getD n false) (.wr (Reg.CXP.CMD_DATA n) data), .raise .CXP n 3]

/-- CXP_EVENT_PACKET (R93, R121). -/
def cxpEventAct (n : Nat) (heartbeat : Bool) (w : Word) : Act :=
  if heartbeat then .wr (Reg.CXP.HEARTBEAT n) w else .seq (.wr (Reg.CXP.EVENT_DATA n) w) (.raise .CXP n 2)

/-- Links that CXP_CTRL.LINKS asks for (R121); the reserved code asks for none (log entry 12). -/
def State.cxpLinks (s : State) (n : Nat) : Nat :=
  match s.fld (Reg.CXP.CXP_CTRL n) 2 1 with
  | 0 => 1
  | 1 => 2
  | 2 => 4
  | _ => 0

/-- CXP_LINK_LOST and CXP_LINK_DISCOVERY (R93, R121): a link of the number asked for, at a downlink rate the ports support. -/
def cxpLinkLostAct (n link : Nat) : Act := .get fun s =>
  .when (s.bit (Reg.CXP.CXP_STATUS n) link)
    (.seq (.setFld (Reg.CXP.CXP_STATUS n) link link 0) (.raise .CXP n 0))
def cxpDiscoveryAct (n link speed : Nat) : Act := .get fun s =>
  .when (s.bit (Reg.CXP.CXP_CTRL n) 0 && [1, 2, 3, 5, 6, 10, 12].contains speed && decide (link < s.cxpLinks n)) <| .all
    [.setFld (Reg.CXP.CXP_STATUS n) link link 1, .setFld (Reg.CXP.CXP_STATUS n) 4 4 1,
     .setFld (Reg.CXP.CXP_STATUS n) 8 5 speed]

/-! ### Gates and path control (R99, R101, R105, R116, R117) -/

/-- GATE_EDGE (R101): an accepted edge of a gate input. -/
def gateEdgeAct (gate : Nat) (level : Bool) : Act := .get fun s =>
  .when (s.hw.cap.gates.getLsbD gate != level) <|
    .seq (.cap fun c => { c with gates := putBit c.gates gate level }) <|
      .each ((List.range 16).filter fun p => s.pathOn p && s.pItemSrc p == 0 &&
          s.fld (Reg.SFE.PATH_ITEM p) 27 24 == gate) fun p =>
        if level != s.bit (Reg.SFE.PATH_ITEM p) 28 then openNew p true else closeItem p true

/-- R101: PATH_CMD of an ITEM_SRC 4 path. -/
def pathCmdAct (p : Nat) (v : Word) : Act := .get fun s =>
  .when (s.pItemSrc p == 4) <|
    .seq (.when (v.getLsbD 0) (openNew p false)) (.when (v.getLsbD 1) (closeItem p false))

/-- Sum of RATE_DECL over enabled paths, with path `p` counted as `on` (R99). -/
def State.rateSum (s : State) (p : Nat) (on : Bool) : Nat :=
  sumNat ((List.range 16).map fun q =>
    if (if q = p then on else s.bit (Reg.SFE.PATH_CTRL q) 0) then (s.rd (Reg.SFE.RATE_DECL q)).toNat else 0)

/-- R117: reserved values of PATH_CTRL. -/
def pathReserved (v : Word) : Bool :=
  bits v 2 1 == 3 || decide (5 ≤ bits v 9 7) || bits v 18 17 == 3 || bits v 20 19 == 3

/-- R99, R116: is a write of PATH_CTRL dropped? -/
def State.pathCtrlDrops (s : State) (p : Nat) (v : Word) : Bool :=
  let old := s.rd (Reg.SFE.PATH_CTRL p)
  if old.getLsbD 0 then decide (v ||| 1 ≠ old ||| 1)
  else v.getLsbD 0 && (pathReserved v || decide (32000 < s.rateSum p true))

/-- R99: what a dropped PATH_CTRL write leaves behind. -/
def pathCtrlDropped (p : Nat) (v : Word) : Act := .get fun s =>
  .when (!s.bit (Reg.SFE.PATH_CTRL p) 0 && v.getLsbD 0) <|
    if pathReserved v then .cfgErr .SFE 0 else pathEvent p 2

/-- R46, R99, R117: ENABLE set: the path's streams open and capture starts. -/
def pathEnableAct (p : Nat) : Act := .get fun s =>
  .all [.openStream (s.fld (Reg.SFE.PATH_STREAM p) 8 0),
        .when (s.bit (Reg.SFE.PATH_CTRL p) 25) (.openStream (s.fld (Reg.SFE.PATH_STREAM p) 17 9)),
        .path p fun q => { waiting := q.waiting },
        .wr (Reg.SFE.PATH_STATUS p) 0,
        .wrN Reg.SFE.INGEST_ALLOC (s.rateSum p true),
        .each (List.range 8) settleTimer]

/-- R105: ENABLE cleared (`old`: PATH_CTRL before): the items not yet finished are closed with a zero-length INVALID unit
and, with LINE_TAGS, its tag unit (R112). -/
def pathDisableAct (p : Nat) (old : Word) : Act := .get fun s =>
  let q := s.path p
  let fl := [fLAST, fPARTIAL, fINVALID]
  let ends := q.items.map fun x => (s.bandUnit p x fl [], if old.getLsbD 25 then some (s.tagUnit p x fl []) else none)
  .all [.path p fun q => { waiting := q.waiting ++ ends },
        .wr (Reg.SFE.PATH_STATUS p) 0,
        .wrN Reg.SFE.INGEST_ALLOC (s.rateSum p false),
        .each (q.items.filter fun x => !x.closed) fun x => .event (.itemClose p x.id x.stamp),
        .each (s.followers p) fun f => .seq (closeOn f false) (endItems f),
        .each ends fun _ => bandDeliverAct p,
        .each (List.range 8) settleTimer]

/-- What an accepted write of PATH_CTRL does. -/
def pathCtrlAct (p : Nat) (old v : Word) : Act :=
  if v.getLsbD 0 && !old.getLsbD 0 then pathEnableAct p
  else if !v.getLsbD 0 && old.getLsbD 0 then pathDisableAct p old else .nil

/-- DEST_HEAD_WRITE (R110, R404): slots are freed; the stream record's HEAD is kept equal. -/
def destHeadAct (p : Nat) (v : Word) : Act := .get fun s =>
  .seq (.wr (Reg.SFE.DEST_HEAD p) v) (.mem (s.streamAddr (s.fld (Reg.SFE.PATH_STREAM p) 8 0) + 8) 4 v.toNat)

/-- R115: LB_FREE. -/
def State.lbFree (s : State) : Nat := 256 - sumNat ((List.range 16).map fun p => s.fld (Reg.SFE.PATH_LB p) 15 8)

/-- Registers of the SFE page that a block computes (R115). -/
def sfeComputed (s : State) (off : Nat) : Option Word := if off = 0x04C then some (BitVec.ofNat 32 s.lbFree) else none

/-- Path and offset in its group, of an SFE offset. -/
def sfePath (off : Nat) : Nat := (off - 0x100) / 0x40
def sfeOff (off : Nat) : Nat := (off - 0x100) % 0x40

/-- Writes to the SFE, AFE and PGEN pages that a rule drops (R82, R99, R116). -/
def captureDrops (s : State) (b : Blk) (i off : Nat) (v : Word) : Bool :=
  match b with
  | .SFE =>
    if 0x100 ≤ off ∧ off < 0x500 then
      let p := sfePath off
      let o := sfeOff off
      if o = 0 then s.pathCtrlDrops p v
      else s.bit (Reg.SFE.PATH_CTRL p) 0 && !(o == 0x28 || o == 0x34 || o == 0x3C) && decide (s.rd ⟨.SFE, 0, off⟩ ≠ v)
    else false
  | .PGEN => off == 0x060 && s.bit (Reg.PGEN.PG_CTRL i) 0
  | _ => false

/-- What an accepted write to a capture page does beside storing an RW register. -/
def captureWrite (b : Blk) (i off : Nat) (old v : Word) : Act :=
  match b with
  | .SFE =>
    if 0x100 ≤ off ∧ off < 0x500 then
      let p := sfePath off
      let o := sfeOff off
      if o = 0 then pathCtrlAct p old v
      else if o = 0x28 then destHeadAct p v
      else if o = 0x34 then pathCmdAct p v
      else .nil
    else .nil
  | .AFE =>
    if off = 0x050 then .when (bits v 4 0 != bits old 4 0) <| .get fun s =>
      .afe i fun a => { a with shadowN := 0, settled := false, shadowed := v.getLsbD 4 && s.lineBoundary i }
    else if 0x100 ≤ off ∧ off < 0x1D0 ∧ off % 16 = 0 then
      .wrN (Reg.AFE.CH_GAIN i ((off - 0x100) / 16)) (min (bits v 9 0) 960)
    else .nil
  | .PGEN =>
    if off = 0x040 then pgCtrlAct i old v
    else if off = 0x060 then pmDataHiAct i v
    else if off = 0x070 then trigCmdAct i v
    else if off = 0x050 ∨ off = 0x054 then outWritten i
    else .nil
  | .ENC =>
    if off = 0x040 then encCtrlAct i old v
    else if off = 0x04C then divFracAct i v
    else .nil
  | .CXP => if off = 0x050 then cxpCmdAct i v else .nil
  | .CSI => .when (off == 0x040 && v.getLsbD 0 && !old.getLsbD 0) (.wr (Reg.CSI.FRAME_CNT i) 0)
  | _ => .nil

end Sys2Proof.Machine
end

