-- ==== Sys2Proof/Machine/Array.lean ====
section
/-! DEFINITION. The matrix array (03_engines_and_arrays): which data cell holds what (R123, R127, R129, R130, R144), the
quantities its checks compare (R137, R138, R143, R757), and what physical faults change in them. -/

namespace Sys2Proof.Machine

/-! ### Cells (R123, R129, R130, R144) -/

/-- Logical row and column of the data cell that holds activation (k, n) of a tile, both counted from the tile's corner, in
shape `sh`; `q` is the tile's quadrant in shape 2. In shapes 3 and 4 column n lies in band n ÷ 128. -/
def dataCell (sh q k n : Nat) : Nat × Nat :=
  if sh = 2 then (64 * (q / 2) + k, 64 * (q % 2) + n) else ((shapeRCQ sh).1 * (n / 128) + k, n % 128)

/-- R144: the physical index of logical row or column `j`; `f` is the replaced physical index, 129 with no repair. -/
def physIndex (f j : Nat) : Nat := if j < f then j else j + 1

/-- R144: the logical index that physical index `i` serves; none for the replaced one, or for the spare not in use. -/
def logIndex (f i : Nat) : Option Nat := if i = f then none else if i < f then some i else some (i - 1)

/-- R127, R180: X′ of a tile's cell: the activation after zero-point subtraction, zero beyond the matrix. -/
def cellAct (x : Nat → Nat → Int) (zp : Int) (kMax nMax k n : Nat) : Int := if k < kMax ∧ n < nMax then x k n - zp else 0

/-- R127: W′ as a cell uses it: the weight after zero-point subtraction, zero beyond the reduction. -/
def cellWeight (w : Nat → Nat → Int) (zp : Nat → Int) (kMax m k : Nat) : Int := if k < kMax then w m k - zp m else 0

/-! ### The quantities of R137

`x` and `w` are X′ and W′ of the tile, `g` the reduction indices of one rescale group that lie in it, in units in which every
value of the formats is an integer (R138). -/

/-- The group partial sum P_g[m][n]. -/
def partialSum (w x : Nat → Nat → Int) (g : Finset Nat) (m n : Nat) : Int := g.sum fun k => w m k * x k n

/-- The row sum r[k], over the C columns of the shape (R757). -/
def rowSum (x : Nat → Nat → Int) (c k : Nat) : Int := (Finset.range c).sum fun n => x k n

/-- The row check of weight row m, formed in the checksum column. -/
def rowCheckVal (w x : Nat → Nat → Int) (g : Finset Nat) (c m : Nat) : Int := g.sum fun k => w m k * rowSum x c k

/-- The checksum weight row, over the tile's accepted rows. -/
def checksumWeight (w : Nat → Nat → Int) (acc : Finset Nat) (k : Nat) : Int := acc.sum fun m => w m k

/-- The tile-end value of column n: its output for the checksum weight row. -/
def tileEndVal (w x : Nat → Nat → Int) (g acc : Finset Nat) (n : Nat) : Int := g.sum fun k => checksumWeight w acc k * x k n

/-! ### What faults change

Without a fault both sides of each comparison are equal (`Laws/Array.lean`), so a comparison fails exactly when the changes
its two sides have met differ: by anything in the exact formats, by more than 2⁻¹⁴ of the largest magnitude compared in
BF16 and FP16 (R138). -/

/-- A change of one compared quantity: rescale group, column (128 × band + logical column; 512 + quadrant for the checksum
column), amount. -/
abbrev Delta := Nat × Nat × Int

/-- R138: does a difference `d` count as a mismatch? -/
def differs (half : Bool) (big : Nat) (d : Int) : Bool := if half then decide (big < d.natAbs * 16384) else d != 0

/-- The changes of the data columns' outputs, `f` being the replaced physical column: what no logical data column uses has no
effect. -/
def altDeltas (x : CheckAlt) (f : Nat) : List Delta := x.sums.filterMap fun (g, b, j, d) =>
  (logIndex f j).bind fun l => if l < 128 then some (g, 128 * b.val + l, d) else none

/-- The changes of the checksum column's outputs. -/
def altChecks (x : CheckAlt) : List Delta := x.check.map fun (g, q, d) => (g, 512 + q.val, d)

/-- The tile a column's output belongs to: in shape 2 the quadrant, else the one tile. -/
def tilePart (sh key : Nat) : Nat := if sh = 2 then 2 * (key / 128) + key % 128 / 64 else 0

/-- Total change of the picked quantities. -/
def deltaSum (pick : Nat → Nat → Bool) (l : List Delta) : Int := ((l.filter fun x => pick x.1 x.2.1).map (·.2.2)).sum

/-- R137: for group `g` and tile part `q`, the row check against the sum of the row's partial sums. -/
def rowDiff (sh : Nat) (sums checks : List Delta) (g q : Nat) : Int :=
  deltaSum (fun h k => h == g && tilePart sh k == q) sums - deltaSum (fun h k => h == g && k == 512 + q) checks

/-- R137, R138: does a row check fail? -/
def rowMismatch (half : Bool) (big sh : Nat) (sums checks : List Delta) : Bool :=
  let parts : List (Nat × Nat) := sums.map (fun x => (x.1, tilePart sh x.2.1)) ++ checks.map (fun x => (x.1, x.2.1 - 512))
  parts.any fun x => differs half big (rowDiff sh sums checks x.1 x.2)

/-- R137: for group `g` and column `k`, the output for the checksum weight row against what the accepted rows have written. -/
def colDiff (acc out : List Delta) (g k : Nat) : Int :=
  deltaSum (fun h j => h == g && j == k) acc - deltaSum (fun h j => h == g && j == k) out

/-- R137, R138: does the tile-end check of some column, the checksum column among them, fail? -/
def tileMismatch (half : Bool) (big : Nat) (acc out : List Delta) : Bool :=
  (acc ++ out).any fun x => differs half big (colDiff acc out x.1 x.2.1)

/-! ### The few-channel engine (R158) -/

/-- Change of output channels (logical columns 0 to 63) less that of the checksum channel (64), `f` being the replaced
physical column, 65 with no repair. -/
def fceDiff (f : Nat) (l : List (Fin 66 × Int)) : Int :=
  (l.filterMap fun (j, d) => (logIndex f j).map fun c => if c < 64 then d else -d).sum

end Sys2Proof.Machine
end

