-- ==== Sys2Proof/Machine/Attn.lean ====
section
/-! DEFINITION. Blockwise attention (R247 to R253, R286 to R290): what an ATTENTION command computes. The manual does
not say how the query, key and value sources lie in the command's input unit: their values are open (log entry 43). -/

namespace Sys2Proof.Machine

/-! ### exp2 and log2 of the vector unit (R148) -/

/-- ln 2 and log₂ e in units of 2⁻¹²⁰. -/
def ln2Fix : Int := 921350637599661305226344307672478455
def log2eFix : Nat := 1917670637729674084946755258930051709

/-- exp(y) − the terms from n on, y and the result in units of 2⁻¹²⁰. -/
def expSum (y : Int) : Nat → Nat → Int → Int
  | 0, _, _ => 0
  | j + 1, n, t => t + expSum y j (n + 1) (t * y / 2 ^ 120 / (n + 1 : Nat))

/-- Two to the fraction f/2¹²⁰ (0 ≤ f < 2¹²⁰), in units of 2⁻¹²⁰. -/
def exp2Frac (f : Int) : Int := expSum (f * ln2Fix / 2 ^ 120) 60 0 (2 ^ 120)

/-- A positive value on the FP32 grid below it, moved by −1, 0, 1 or 2 units in the last place. -/
def nearGrid (dev : Nat) (d : Dy) : Dy :=
  if d.m = 0 then {}
  else
    let lsb := max (d.e + Nat.log2 d.m - 23) (-149)
    let q : Int := if d.e ≤ lsb then (d.m / 2 ^ (lsb - d.e).toNat : Nat) else (d.m * 2 ^ (d.e - lsb).toNat : Nat)
    let r := max 0 (q + dev - 1)
    { neg := d.neg, m := r.toNat, e := lsb }

/-- exp2 within 2 units in the last place (R148). -/
def vuExp2 (x : Val) : Val := match x with
  | .nan => .nan
  | .inf n => if n then .fin {} else .inf false
  | .fin d =>
    let n := d.floor
    if n < -200 then .fin {} else if 200 < n then .inf false
    else
      let f := d.add (Dy.ofInt (-n))
      let fx : Int := ({ f with e := f.e + 120 } : Dy).floor
      ieee32 (nearGrid (Config.vuError 0 (fFP32.encode d)).toNat { m := (exp2Frac fx).toNat, e := n - 120 })

/-- The next bits of log₂ of a mantissa in [1, 2), in units of 2⁻¹²⁰. -/
def log2Bits : Nat → Nat → Nat → Nat
  | 0, _, acc => acc
  | k + 1, y, acc =>
    let z := y * y / 2 ^ 120
    if 2 ^ 121 ≤ z then log2Bits k (z / 2) (2 * acc + 1) else log2Bits k z (2 * acc)

/-- log2 within 2 units in the last place (R148). -/
def vuLog2 (x : Val) : Val := match x with
  | .nan => .nan
  | .inf n => if n then .nan else .inf false
  | .fin d =>
    if d.m = 0 then .inf true
    else if d.neg then .nan
    else
      let b := Nat.log2 d.m
      let y := if b ≤ 120 then d.m * 2 ^ (120 - b) else d.m / 2 ^ (b - 120)
      let v := (Dy.ofInt (d.e + b)).add { m := log2Bits 100 y 0, e := -100 }
      let g := nearGrid (Config.vuError 1 (fFP32.encode d)).toNat v.abs
      ieee32 { g with neg := v.neg }

/-- IEEE 754 division of FP32 values (R148, R247). -/
def Val.div : Val → Val → Val
  | .nan, _ => .nan
  | _, .nan => .nan
  | .inf _, .inf _ => .nan
  | .inf a, .fin b => .inf (a != b.neg)
  | .fin a, .inf b => .fin { neg := a.neg != b }
  | .fin a, .fin b => if b.m = 0 then (if a.m = 0 then .nan else .inf (a.neg != b.neg)) else ieee32 (a.div 30 b)

/-- The larger of two values, the first on a tie. -/
def Val.max (a b : Val) : Val := if a.lt b then b else a

/-! ### Keys and values (R254 to R256, R265) -/

/-- The key and value of one token for one head. -/
structure KvTok where
  kx : List Dy
  ks : Dy
  vx : List Dy
  vs : Dy
  clips : Nat := 0
  nans  : Nat := 0
  deriving DecidableEq, Repr

/-- R255: bytes of a token row in a page. -/
def rowPitch (b : AttnBlock) : Nat := ceilDiv (b.d * fmtWidth b.kvFmt / 8) 64 * 64

/-- Plane index (R254). -/
def planeOf (b : AttnBlock) (h : Nat) : Nat := b.layer * b.hkv + h

/-- Address of the page of frame `f` for head `h` (R254). -/
def State.pageAddr (s : State) (b : AttnBlock) (h f : Nat) : Nat :=
  s.rd64 Reg.KVW.POOL_BASE_LO Reg.KVW.POOL_BASE_HI +
    (planeOf b h * s.fld Reg.KVW.POOL_FRAMES 23 0 + f) * 2 ^ s.fld Reg.KVW.POOL_GEOM 19 16

/-- Address of the scale record (R256). -/
def State.scaleAddr (s : State) (b : AttnBlock) (h f : Nat) : Nat :=
  s.rd64 Reg.KVW.SCALE_LO Reg.KVW.SCALE_HI + (planeOf b h * s.fld Reg.KVW.POOL_FRAMES 23 0 + f) * 128

/-- Is the format one with scale records (R256)? -/
def kvScaled (f : Nat) : Bool := f == 0x03 || f == 0x05

/-- Token `t` of frame `f` for head `h` (R255, R256). -/
def State.poolTok (s : State) (b : AttnBlock) (h f t : Nat) : KvTok :=
  let rp := rowPitch b
  let a := s.pageAddr b h f + t * rp
  let n := b.d * fmtWidth b.kvFmt / 8
  let row (x : Nat) : QVec := asStored b.kvFmt 0 [Dy.ofInt 1] ((unpack (fmtWidth b.kvFmt) b.d (s.read x n)).map fun c => (c, 0))
  let sc (o : Nat) : Dy × Nat × Nat := if kvScaled b.kvFmt then tableVal (s.readN (s.scaleAddr b h f + o + 4 * t) 4) else (Dy.ofInt 1, 0, 0)
  let k := row a
  let v := row (a + 16 * rp)
  { kx := k.xs, ks := (sc 0).1, vx := v.xs, vs := (sc 64).1, clips := k.clips + v.clips + (sc 0).2.1 + (sc 64).2.1,
    nans := k.nans + v.nans + (sc 0).2.2 + (sc 64).2.2 }

/-- Element `i` of an open source vector: `kind` 0 key, 1 value, 2 query; token `t`, head `h` (log entry 43). -/
def attnSrc (fr kind t h n : Nat) : List Val :=
  (List.range n).map fun i => f32 ((Config.freeValue fr (((kind * 2 ^ 24 + t) * 256 + h) * 512 + i)).toNat % 2 ^ 32)

/-- The token list of a sequence up to position `j` (R258). -/
def State.tokensTo (s : State) (r : SeqRec) (j : Nat) : List Nat := (List.range (j + 1)).map fun i => s.readN (r.tokens + 4 * i) 4

/-- R279: the source of the key (`kind` 0) or value (1) of position `j` of sequence `q`, head `h`. While nothing of the sequence
has been evicted, and in a recomputation always, it is what the sequence's tokens up to that position give (open), so a
recomputation forms what was dropped; after an eviction another open value stands in its place. `t` is the token's index in the
command. -/
def State.kvSrc (s : State) (b : AttnBlock) (r : SeqRec) (q fr kind t h j : Nat) : List Val :=
  if r.evicted ≠ 0 ∧ b.op ≠ 3 then attnSrc fr kind t h b.d
  else
    let toks := s.tokensTo r j
    (List.range b.d).map fun i => f32 (Config.kvSource [q, r.created, b.layer, h, kind, j, i] toks).toNat

/-- A new token's key and value, quantised (R265). -/
def State.newTok (s : State) (b : AttnBlock) (r : SeqRec) (q fr t h j : Nat) : KvTok :=
  let k := quantise b.kvFmt 2 b.d 0 {} (Dy.ofInt 1) fr (s.kvSrc b r q fr 0 t h j)
  let v := quantise b.kvFmt 2 b.d 0 {} (Dy.ofInt 1) fr (s.kvSrc b r q fr 1 t h j)
  { kx := k.xs, ks := k.ss.getD 0 (Dy.ofInt 1), vx := v.xs, vs := v.ss.getD 0 (Dy.ofInt 1), clips := k.clips + v.clips,
    nans := k.nans + v.nans }

/-- The code of a stored element. -/
def kvCode (fmt : Nat) (d : Dy) : Nat := match fmtFloat fmt with
  | some f => f.encode d
  | none => uns 8 (d.num 0)

/-- A sequence as a command sees it: record, positions, first position of the new tokens, the tokens' index base. -/
structure SeqView where
  seq   : Nat
  rec_  : SeqRec
  /-- Positions committed, and with the new tokens. -/
  len   : Nat
  upTo  : Nat
  /-- Position of query token 0. -/
  first : Nat
  n     : Nat
  /-- Index of query token 0 in the command (R249). -/
  base  : Nat
  deriving DecidableEq, Repr

/-- The view of entry `e`, whose first token has index `base`. -/
def State.seqView (s : State) (op base : Nat) (e : SeqEntry) : SeqView :=
  let r := s.seqRec e.seq
  { seq := e.seq, rec_ := r, len := r.glen, upTo := s.newLen op r e, first := if op = 3 then r.glen else e.first, n := e.n, base := base }

/-- Tokens of head `h` by position: `none` where invisible to everyone (R246, R259). -/
def State.seqToks (s : State) (b : AttnBlock) (v : SeqView) (fr h : Nat) : List (Option KvTok) :=
  (List.range v.upTo).map fun j =>
    if v.len ≤ j then (if v.first ≤ j then some (s.newTok b v.rec_ v.seq fr (v.base + (j - v.first)) h j) else none)
    else
      let e := s.pte v.rec_ (j / 16)
      if pteLocal e then some (s.poolTok b h (pteFrame e) (j % 16)) else none

/-- R246: may position `t` see key `j`? -/
def sees (b : AttnBlock) (t j : Nat) : Bool :=
  !(b.causal && decide (t < j)) && !(b.window != 0 && decide (j + b.window ≤ t))

/-- Is key `j` of the sequence on this device and not evicted (R246, R259)? -/
def State.keyHere (s : State) (v : SeqView) (j : Nat) : Bool :=
  if v.len ≤ j then decide (v.first ≤ j ∧ j < v.upTo) else pteLocal (s.pte v.rec_ (j / 16))

/-- R250: the query tokens of the entry that see a key among the `n` from `a` on, as an interval. -/
def State.seeing (s : State) (b : AttnBlock) (v : SeqView) (a n : Nat) : Nat × Nat :=
  let ts := (List.range v.n).filter fun t => (List.range n).any fun i => s.keyHere v (a + i) && sees b (v.first + t) (a + i)
  (ts.headD 0, (ts.getLast?.map (· + 1)).getD 0)

/-! ### One query column (R247, R248) -/

/-- The accumulator of R182 for one group without bias. -/
def rowAcc (half : Bool) (x w : QVec) : Cl Dy :=
  let q := groupSum half x.xs w.xs
  let s := flc q.n ((w.ss.getD 0 (Dy.ofInt 1)).mul (x.ss.getD 0 (Dy.ofInt 1)))
  let r := flc s.n (q.v.mul s.v)
  flc r.n r.v

/-- Sum of lanes, adjacent pairs first (R148). -/
def laneSum : Nat → List Val → Val
  | 0, l => l.headD (.fin {})
  | k + 1, l => laneSum k ((chunks 2 l).map fun p => match p with
    | [a, b] => a.add b
    | _ => p.headD (.fin {}))

/-- Running statistics of a query column. -/
structure Soft where
  m     : Val := .inf true
  l     : Val := .fin {}
  o     : List Val := []
  /-- R271: partial sums e by page, with the mc they used. -/
  pages : List (Nat × Val × Val) := []
  clips : Nat := 0
  nans  : Nat := 0
  deriving DecidableEq, Repr

/-- Is the value zero? -/
def Val.isZero : Val → Bool
  | .fin d => d.m == 0
  | _ => false

/-- R247, R290: the factor that brings statistics kept against `m` to `mc`. -/
def softScale (m mc : Val) : Val := if m = .inf true then .fin {} else vuExp2 (m.add mc.negate)

/-- One chunk of keys (R247). `ks`: position, token if visible, score. -/
def softChunk (b : AttnBlock) (fr : Nat) (st : Soft) (ks : List (Nat × Option (KvTok × Val))) : Soft :=
  let mc := ks.foldl (fun (m : Val) x => match x.2 with
    | some (_, v) => m.max v
    | none => m) st.m
  if mc = .inf true then st
  else
    let a := softScale st.m mc
    let st := { st with l := st.l.mul a, o := st.o.map fun x => x.mul a }
    let half := fmt16 b.pFmt || fmt16 b.kvFmt
    let st := (chunks 128 ks).foldl (fun (st : Soft) blk =>
      let p := blk.map fun x => match x.2 with
        | some (_, v) => if v = .inf true then .fin {} else vuExp2 (v.add mc.negate)
        | none => .fin {}
      let pv := (blk.zip p).map fun (x, v) => match x.2 with
        | some (t, _) => v.mul (.fin t.vs)
        | none => .fin {}
      let x := quantise b.pFmt 2 128 0 {} (Dy.ofInt 1) fr pv
      let prods := (List.range b.d).map fun i =>
        rowAcc half x { xs := blk.map fun y => match y.2 with
          | some (t, _) => t.vx.getD i {}
          | none => {}, ss := [Dy.ofInt 1] }
      let pg := (blk.zip p).foldl (fun (l : List (Nat × Val × Val)) (y, v) =>
        if y.2.isNone then l else match l.reverse with
          | (g, e, c) :: r => if g = y.1 / 16 ∧ c = mc then (r.reverse ++ [(g, e.add v, c)]) else l ++ [(y.1 / 16, v, mc)]
          | [] => [(y.1 / 16, v, mc)]) st.pages
      { st with l := st.l.add (laneSum 8 p), o := (st.o.zip prods).map fun (o, q) => o.add (.fin q.v)
                pages := pg, clips := st.clips + x.clips + sumNat (prods.map (·.n)), nans := st.nans + x.nans }) st
    { st with m := mc }

/-- c2 (R247). -/
def AttnBlock.c2 (b : AttnBlock) : Val := (f32 b.scale).mul (.fin (fl32' { m := log2eFix, e := -120 }))

/-- One query column of one head at position `t`, over the tokens of its key-value head. -/
def softColumn (b : AttnBlock) (fr : Nat) (q : QVec) (t : Nat) (toks : List (Option KvTok)) : Soft :=
  let half := fmt16 b.qFmt || fmt16 b.kvFmt
  let c2 := b.c2
  (chunks b.chunk toks.zipIdx).foldl (fun st ch =>
    let sc := ch.map fun (k, j) => match k with
      | some k => if sees b t j then
          let r := rowAcc half q { xs := k.kx, ss := [k.ks] }
          (j, some (k, (Val.fin r.v).mul c2), r.n)
        else (j, none, 0)
      | none => (j, none, 0)
    softChunk b fr { st with clips := st.clips + sumNat (sc.map (·.2.2)) } (sc.map fun x => (x.1, x.2.1)))
    { o := List.replicate b.d (.fin {}) }

/-- FP32 code of a finite value, and of −∞. -/
def code32 (d : Dy) : Nat := fFP32.encode d
def codeNegInf : Nat := 0xFF800000

/-- R290: combine partials (m, l, o) in ascending layout index. -/
def combine (d : Nat) (ps : List Soft) : Soft :=
  let m := ps.foldl (fun (m : Val) p => m.max p.m) (.inf true)
  ps.foldl (fun (st : Soft) p =>
    let a := softScale p.m m
    { st with l := st.l.add (p.l.mul a)
              o := (st.o.zip p.o).map fun (o, x) => o.add (x.mul a)
              clips := st.clips + p.clips, nans := st.nans + p.nans })
    { m := m, o := List.replicate d (.fin {}), pages := (ps.map (·.pages)).flatten }

/-- R247: a column without a visible key: l is zero. -/
def Soft.empty (st : Soft) : Bool := st.l.isZero

/-- The normalised output and lse of a column (R247). -/
def Soft.finish (st : Soft) : List Nat × Nat :=
  if st.empty then (st.o.map fun _ => 0, codeNegInf)
  else (st.o.map fun x => (x.div st.l).code32, (st.m.add (vuLog2 st.l)).code32)

/-- R271: mass of each page from one column: e × exp2(mc − m) ÷ l. -/
def Soft.mass (st : Soft) : List (Nat × Val) :=
  if st.empty then [] else st.pages.map fun (g, e, mc) => (g, (e.mul (softScale mc st.m)).div st.l)

/-! ### Layouts (R288, R289) -/

/-- The key-value heads this device computes for a sequence. -/
def SeqRec.heads (r : SeqRec) (b : AttnBlock) : List Nat :=
  if r.layout = 1 then (List.range r.headCnt).map (r.headBase + ·) else List.range b.hkv

/-- The layout indices whose partials the entry of sequence record `r` waits for. -/
def State.awaited (s : State) (r : SeqRec) : List Nat :=
  if r.layout = 2 ∧ s.combines r then (List.range r.devs).filter (· != r.devIdx) else []

/-- A partial read from a unit of format 0x12 (R289); a unit too short for it, as a substitute of R45 is, contributes
nothing. -/
def partialOf (b : AttnBlock) (u : DUnit) : Soft :=
  if u.payload.length < 4 * (b.d + 2) then { o := List.replicate b.d (.fin {}) }
  else
    let v := (List.range (b.d + 2)).map fun i => f32 (leAt u.payload (4 * i) 4)
    { m := v.getD 0 .nan, l := v.getD 1 .nan, o := v.drop 2 }

/-- The unit's payload for a partial (R289). -/
def Soft.payload (st : Soft) : List Byte := leBytes 4 st.m.code32 ++ leBytes 4 st.l.code32 ++ st.o.flatMap fun x => leBytes 4 x.code32

/-- The partials an ATTENTION command still needs: (layout index, number). -/
def State.partialsNeeded (s : State) (c : Cmd) : List (Nat × Nat) :=
  let b := s.attn c.desc
  let es := s.seqList c.desc
  let want := c.seqs.flatMap fun x => match es[x.idx]? with
    | some e => if x.reason = 0 ∧ !x.paused then (s.awaited (s.seqRec e.seq)).map fun k => (k, e.n * b.hq) else []
    | none => []
  (List.range 8).filterMap fun k =>
    let n := sumNat ((want.filter fun x => x.1 == k).map (·.2))
    let have_ := (c.partials.filter fun x => x.1 == k).length
    if have_ < n then some (k, n - have_) else none

/-! ### The command (R249, R265, R289) -/

/-- What one entry gives: by token and head, the column state. What its keys and values met in forming (R187, R188) is counted
once for each key-value head, with that head's first column. -/
def State.entryCols (s : State) (b : AttnBlock) (v : SeqView) (fr : Nat) : List (Nat × Nat × Soft) :=
  let g := b.hq / max 1 b.hkv
  (v.rec_.heads b).flatMap fun h =>
    let toks := s.seqToks b v fr h
    let used := toks.zipIdx.filterMap fun (k, j) => if (List.range v.n).any fun t => sees b (v.first + t) j then k else none
    (List.range v.n).flatMap fun t => (List.range g).map fun j =>
      let q := quantise b.qFmt 2 b.d 0 {} (Dy.ofInt 1) fr (attnSrc fr 2 (v.base + t) (h * g + j) b.d)
      let st := softColumn b fr q (v.first + t) toks
      let one := t == 0 && j == 0
      (t, h * g + j, { st with clips := st.clips + q.clips + (if one then sumNat (used.map (·.clips)) else 0)
                               nans := st.nans + q.nans + (if one then sumNat (used.map (·.nans)) else 0) })

/-- Positions of an entry's new tokens. -/
def SeqView.newPos (v : SeqView) : List Nat := (List.range v.upTo).filter fun j => decide (v.len ≤ j ∧ v.first ≤ j)

/-- R257, R265: where the commit of an entry's new tokens writes its TSC: LAST_WRITE of their frames. -/
def State.appendStamps (s : State) (v : SeqView) : List Nat :=
  (v.newPos.map (· / 16)).dedup.map fun i => s.ftabAddr (pteFrame (s.pte v.rec_ i)) + 16

/-- R265: the memory writes of an entry's new tokens: pages, scale records, FILL, then LENGTH. -/
def State.appendMems (s : State) (b : AttnBlock) (v : SeqView) (q fr : Nat) : List (Nat × List Byte) :=
  let pos := v.newPos
  let frame (j : Nat) : Nat := pteFrame (s.pte v.rec_ (j / 16))
  let rp := rowPitch b
  let w := fmtWidth b.kvFmt
  let row (l : List Dy) : List Byte :=
    let x := pack w (l.map (kvCode b.kvFmt))
    x ++ List.replicate (rp - x.length) 0
  let toks := (v.rec_.heads b).flatMap fun h => pos.map fun j => (h, j, s.newTok b v.rec_ q fr (v.base + (j - v.first)) h j)
  (toks.flatMap fun (h, j, t) =>
    let a := s.pageAddr b h (frame j) + j % 16 * rp
    [(a, row t.kx), (a + 16 * rp, row t.vx)]) ++
  (if kvScaled b.kvFmt then toks.flatMap fun (h, j, t) =>
    let a := s.scaleAddr b h (frame j) + 4 * (j % 16)
    [(a, leBytes 4 (code32 t.ks)), (a + 64, leBytes 4 (code32 t.vs))] else []) ++
  ((pos.map (· / 16)).dedup.flatMap fun i =>
    [(s.ftabAddr (pteFrame (s.pte v.rec_ i)) + 12, leBytes 1 (min 16 (v.upTo - 16 * i)))]) ++
  (if pos.isEmpty then [] else
    [(s.seqAddr q + 4, leBytes 4 (v.upTo - (if v.rec_.layout = 2 then 16 * v.rec_.posBase else 0)))])

/-- The pages whose local frames an entry reads: those of the key blocks that some query token sees (R250, R271). -/
def State.readPages (s : State) (b : AttnBlock) (v : SeqView) : List Nat :=
  (List.range (ceilDiv v.upTo 16)).filter fun i =>
    let w := s.seeing b v (128 * (i / 8)) 128
    decide (w.1 < w.2) && pteLocal (s.pte v.rec_ i)

/-- The mass by local frame of an entry's columns (R271). -/
def State.frameMass (s : State) (b : AttnBlock) (v : SeqView) (cols : List (Nat × Nat × Soft)) : List (Nat × Nat) :=
  let ms := cols.flatMap fun x => x.2.2.mass
  let cnt := Dy.ofInt (v.n * b.hq : Nat)
  (s.readPages b v).map fun i =>
    let sum := (ms.filter fun x => x.1 == i).foldl (fun (a : Val) x => a.add x.2) (.fin {})
    (pteFrame (s.pte v.rec_ i), (sum.div (.fin cnt)).code32)

/-- The mass on a device that sends its partials on: the final softmax is formed elsewhere, so a probability is all that is
known of it (log entry 72). -/
def State.sentMass (s : State) (b : AttnBlock) (v : SeqView) (fr : Nat) : List (Nat × Nat) :=
  (s.readPages b v).map fun i =>
    (pteFrame (s.pte v.rec_ i), (Config.freeValue fr (2 ^ 43 + 2 ^ 22 * v.base + i)).toNat % 0x3F800001)

/-- The entries of a command with the index of their first query token (R249). -/
def withBase : Nat → List SeqEntry → List (SeqEntry × Nat)
  | _, [] => []
  | k, e :: t => (e, k) :: withBase (k + e.n) t

/-- The partners' units for column `i`, by layout index in `ks`. -/
def Cmd.partialUnits (c : Cmd) (ks : List Nat) (i : Nat) : List (Nat × DUnit) := ks.filterMap fun k =>
  (((c.partials.filter fun (p : Nat × DUnit) => p.1 == k).map fun (p : Nat × DUnit) => p.2)[i]?).map fun u => (k, u)

/-- R290: the partials of column `i` in ascending layout index, this device's `st` at index `me`. -/
def withPartials (b : AttnBlock) (c : Cmd) (me : Nat) (ks : List Nat) (i : Nat) (st : Soft) : List Soft :=
  let l := c.partialUnits ks i
  ((l.filter fun x => decide (x.1 < me)).map fun x => partialOf b x.2) ++ [st] ++
    (l.filter fun x => decide (me < x.1)).map fun x => partialOf b x.2

/-- R30, R48: an output unit with the flags of the partners' units it was formed from, and the least of their stamps. -/
def takesFrom (o : StagedUnit) (us : List DUnit) : StagedUnit :=
  { o with unit := { o.unit with flags := us.foldl (fun f u => f ||| passOn u.flags) o.unit.flags,
                                 stamp := BitVec.ofNat 64 (us.foldl (fun t u => min t u.stamp.toNat) o.unit.stamp.toNat) } }

/-- R188, R293, R427: the clips of each engine: key-value head h runs on engine h mod E. -/
def attnShares (b : AttnBlock) (e : Nat) (cols : List (Nat × Nat × Soft)) : List Nat :=
  (List.range (max e 1)).map fun k =>
    sumNat ((cols.filter fun x => x.2.1 / max 1 (b.hq / max 1 b.hkv) % max e 1 == k).map fun x => x.2.2.clips)

/-- A backward command (R286, R287): its sources and destinations are not stated, so its results are open, dQ zero where the
saved lse is −∞. -/
def State.attnBackward (s : State) (c : Cmd) (b : AttnBlock) (total keys fr : Nat) : RunOut :=
  let lse (h t : Nat) : Nat := s.readN (b.stats + 4 * (h * total + t)) 4
  let dq := (List.range total).flatMap fun t => (List.range b.hq).flatMap fun h => (List.range b.d).flatMap fun i =>
    leBytes 4 (if lse h t = codeNegInf then 0 else (Config.freeValue fr ((t * b.hq + h) * b.d + i)).toNat)
  let dkv := (List.range (2 * keys * b.hkv * b.d)).flatMap fun i => leBytes 4 (Config.freeValue fr (2 ^ 40 + i)).toNat
  { outs := [s.outUnit c 0x12 c.engSource 0 (dq ++ dkv)], seqs := c.seqs, den := 1 + (Config.freeValue fr (2 ^ 41)).toNat % 2 ^ 32 }

/-- What an ATTENTION command produces. The output unit holds the columns in list order, query head by query head, in
format 0x12; a column not computed here is open. Of several units only the last carries LAST. -/
def State.attnRun (s : State) (c : Cmd) (fr : Nat) : RunOut :=
  let b := s.attn c.desc
  let es := withBase 0 (s.seqList c.desc)
  let total := sumNat (es.map fun x => x.1.n)
  let runs := c.seqs.filterMap fun x => match es[x.idx]? with
    | some (e, base) => if x.reason = 0 ∧ !x.paused then some (x, s.seqView b.op base e) else none
    | none => none
  if c.zeroInput then { outs := [s.outUnit c 0x12 c.engSource 0 []], seqs := c.seqs }
  else if b.op = 2 then s.attnBackward c b total (sumNat (runs.map fun x => x.2.len)) fr
  else
    let cols := runs.map fun (x, v) => (x, v, s.entryCols b v fr)
    let sends (v : SeqView) : Bool := v.rec_.layout == 2 && !s.combines v.rec_
    let parts := cols.filter fun x => sends x.2.1
    let full := cols.filter fun x => !sends x.2.1
    let fin : List (SeqPart × SeqView × List (Nat × Nat × Soft)) := full.map fun (x, v, l) =>
      let ks := s.awaited v.rec_
      (x, v, l.zipIdx.map fun ((t, h, st), i) =>
        (t, h, if ks.isEmpty then st else combine b.d (withPartials b c v.rec_.devIdx ks i st)))
    let from_ := full.flatMap fun (_, v, l) => (List.range l.length).flatMap fun i => (c.partialUnits (s.awaited v.rec_) i).map (·.2)
    let done : List (Nat × Nat × Soft) := fin.flatMap fun (_, v, l) => l.map fun (t, h, st) => (v.base + t, h, st)
    let out := (List.range total).flatMap fun t => (List.range b.hq).flatMap fun h =>
      match done.find? fun x => x.1 == t && x.2.1 == h with
      | some x => x.2.2.finish.1.flatMap (leBytes 4)
      | none => (List.range b.d).flatMap fun i => leBytes 4 (Config.freeValue fr (2 ^ 42 + (t * b.hq + h) * b.d + i)).toNat
    let all := cols.flatMap fun x => x.2.2
    let nans := sumNat (all.map fun x => x.2.2.nans)
    let bad := (done.any fun x => x.2.2.empty) || decide (sumNat (cols.map fun x => x.2.1.n) < total)
    let flag (f : Bool) : BitVec 16 := if f then flagsOf [fINVALID] else 0
    let stats := if b.stats = 0 then [] else done.map fun (t, h, st) => (b.stats + 4 * (h * total + t), leBytes 4 st.finish.2)
    let punits := parts.flatMap fun (_, _, l) => l.map fun (_, _, st) => s.outUnit c 0x12 c.engSource (flag (0 < nans)) st.payload
    let unit := takesFrom (s.outUnit c 0x12 c.engSource (flag (bad || 0 < nans)) out) from_
    { outs := if b.op = 3 then [] else lastOnly (punits ++ (if full.isEmpty then [] else [unit])),
      mems := stats ++ cols.flatMap (fun (x, v, _) => s.appendMems b v x.seq fr),
      stamps := cols.flatMap (fun (_, v, _) => s.appendStamps v),
      clips := sumNat (all.map fun x => x.2.2.clips), shares := attnShares b (Desc.engCnt c.desc) all, nans := nans,
      den := 1 + (Config.freeValue fr (2 ^ 41)).toNat % 2 ^ 32,
      seqs := c.seqs.map fun x => match fin.find? fun y => y.1.idx == x.idx with
        | some (_, v, l) => { x with frames := s.frameMass b v l }
        | none => match parts.find? fun y => y.1.idx == x.idx with
          | some (_, v, _) => { x with frames := s.sentMass b v fr }
          | none => x }

end Sys2Proof.Machine
end

