-- ==== Sys2Proof/Machine/Jpeg.lean ====
section
/-! DEFINITION. The JPG block (R231 to R235): markers, Huffman decoding, inverse transform, bands. -/

namespace Sys2Proof.Machine

/-! ### Tables and frame -/

/-- A Huffman table: code length, code, symbol. -/
abbrev JHuff := List (Nat × Nat × Nat)

/-- The codes of a table from its 16 counts and its symbols (ISO/IEC 10918-1, annex C). -/
def jHuff (counts syms : List Nat) : JHuff :=
  let rec go : Nat → Nat → List Nat → List Nat → JHuff
    | _, _, [], _ => []
    | len, code, c :: cs, ss =>
      ((ss.take c).zipIdx.map fun (v, i) => (len, code + i, v)) ++ go (len + 1) ((code + c) * 2) cs (ss.drop c)
  go 1 0 counts syms

/-- A component of the frame. -/
structure JComp where
  id : Nat
  h  : Nat
  v  : Nat
  tq : Nat
  deriving DecidableEq, Repr

/-- What the decoder knows while it reads markers. -/
structure JSt where
  qt    : List (Nat × List Nat) := []
  /-- R231: a 16-bit quantisation table has come. -/
  wideQt : Bool := false
  dc    : List (Nat × JHuff) := []
  ac    : List (Nat × JHuff) := []
  /-- Extended sequential. -/
  sof1  : Bool := false
  prec  : Nat := 0
  x     : Nat := 0
  y     : Nat := 0
  comps : List JComp := []
  ri    : Nat := 0
  /-- Components scanned. -/
  seen  : List Nat := []
  /-- Decoded blocks: component, block row × 65,536 + block column, the 64 coefficients in zigzag order. -/
  blocks : List (Nat × Nat × List Int) := []
  /-- R234: errors, MCU rows touched, offset of the last. -/
  errs  : Nat := 0
  rows  : List Nat := []
  ofs   : Nat := 0
  /-- R234, ERR_POLICY 1: MCU rows complete when the image ended. -/
  cut   : Option Nat := none
  deriving DecidableEq, Repr

/-- Largest sampling factors. -/
def JSt.hmax (j : JSt) : Nat := (j.comps.map (·.h)).foldl max 1
def JSt.vmax (j : JSt) : Nat := (j.comps.map (·.v)).foldl max 1
/-- MCUs in a row and a column. -/
def JSt.mcuX (j : JSt) : Nat := ceilDiv j.x (8 * j.hmax)
def JSt.mcuY (j : JSt) : Nat := ceilDiv j.y (8 * j.vmax)
/-- Coded size of a component (ISO/IEC 10918-1, A.1.1). -/
def JSt.compW (j : JSt) (c : JComp) : Nat := ceilDiv (j.x * c.h) j.hmax
def JSt.compH (j : JSt) (c : JComp) : Nat := ceilDiv (j.y * c.v) j.vmax

/-- The outcome of the decoder: refused with a code at an offset (R235), or decoded. -/
inductive JOut where
  | refused (code ofs : Nat)
  | image (j : JSt)
  deriving DecidableEq, Repr

/-! ### Entropy-coded data -/

/-- Read one Huffman symbol. -/
def jSym (t : JHuff) : Nat → Nat → Nat → List Bool → Option (Nat × List Bool)
  | 0, _, _, _ => none
  | _ + 1, _, _, [] => none
  | k + 1, len, code, b :: bs =>
    let c := code * 2 + b2n b
    match t.find? fun e => e.1 == len + 1 && e.2.1 == c with
    | some e => some (e.2.2, bs)
    | none => jSym t k (len + 1) c bs

/-- Read `n` bits as an extended value (ISO/IEC 10918-1, F.2.2.1). -/
def jExtend (n : Nat) (bs : List Bool) : Option (Int × List Bool) :=
  if bs.length < n then none
  else
    let v := (bs.take n).foldl (fun a b => a * 2 + b2n b) 0
    some (if n = 0 then 0 else if v < 2 ^ (n - 1) then (v : Int) - (2 ^ n - 1 : Nat) else v, bs.drop n)

/-- The 63 AC coefficients from position `k` on. -/
def jAc (t : JHuff) (maxBits : Nat) : Nat → Nat → List Bool → Option (List Int × List Bool)
  | 0, _, bs => some ([], bs)
  | f + 1, k, bs =>
    if 64 ≤ k then some ([], bs)
    else match jSym t 16 0 0 bs with
      | none => none
      | some (rs, bs) =>
        let r := rs / 16
        let n := rs % 16
        if n = 0 then
          if r = 15 then (if 64 < k + 16 then none else (jAc t maxBits f (k + 16) bs).map fun x => (List.replicate 16 0 ++ x.1, x.2))
          else some (List.replicate (64 - k) 0, bs)
        else if 64 ≤ k + r ∨ maxBits < n then none
        else match jExtend n bs with
          | none => none
          | some (v, bs) => (jAc t maxBits f (k + r + 1) bs).map fun x => (List.replicate r 0 ++ v :: x.1, x.2)

/-- One block: its coefficients and the bits left. -/
def jBlock (dc ac : JHuff) (prec : Nat) (pred : Int) (bs : List Bool) : Option (List Int × List Bool) :=
  match jSym dc 16 0 0 bs with
  | none => none
  | some (n, bs) =>
    if prec + 3 < n then none
    else match jExtend n bs with
      | none => none
      | some (v, bs) => (jAc ac (prec + 2) 64 1 bs).map fun x => ((pred + v) :: x.1, x.2)

/-- The blocks of one restart interval: (component, key, MCU row) each. `err` holds the bits left at the error. -/
def jInterval (tbl : Nat → JHuff × JHuff) (prec : Nat) :
    List (Nat × Nat × Nat) → List (Nat × Int) → List Bool → List (Nat × Nat × List Int) × Option (Nat × Nat)
  | [], _, _ => ([], none)
  | (c, key, row) :: rest, preds, bs =>
    let p := alGet 0 c preds
    match jBlock (tbl c).1 (tbl c).2 prec p bs with
    | some (co, bs) =>
      let (l, e) := jInterval tbl prec rest (alPut 0 c (co.headD 0) preds) bs
      ((c, key, co) :: l, e)
    | none =>
      (((c, key, row) :: rest).map fun x => (x.1, x.2.1, alGet 0 x.1 preds :: List.replicate 63 0), some (bs.length, row))

/-- Entropy-coded bytes from offset `o` on, up to the next marker that is not RST, cut at the RST markers; each byte
with its offset. The rest starts at that marker. -/
def jSegments : Nat → Nat → List Byte → List (List (Nat × Byte)) × Nat × List Byte
  | 0, o, l => ([[]], o, l)
  | _ + 1, o, [] => ([[]], o, [])
  | k + 1, o, a :: t =>
    let push (x : Nat × Byte) (r : List (List (Nat × Byte)) × Nat × List Byte) : List (List (Nat × Byte)) × Nat × List Byte :=
      match r.1 with
      | s :: ss => ((x :: s) :: ss, r.2)
      | [] => ([[x]], r.2)
    if a != 0xFF then push (o, a) (jSegments k (o + 1) t)
    else match t with
      | [] => ([[]], o, a :: t)
      | b :: u =>
        if b = 0 then push (o, a) (jSegments k (o + 2) u)
        else if b = 0xFF then jSegments k (o + 1) t
        else if 0xD0 ≤ b.toNat ∧ b.toNat ≤ 0xD7 then
          let r := jSegments k (o + 2) u
          ([] :: r.1, r.2)
        else ([[]], o, a :: t)

/-- The bits of a byte, most significant first. -/
def byteBits (b : Byte) : List Bool := (List.range 8).map fun i => b.getLsbD (7 - i)

/-- Decode the intervals of a scan one after another; with ERR_POLICY 1 stop at the first error. -/
def jScan (tbl : Nat → JHuff × JHuff) (policy : Bool) :
    List (List (Nat × Nat × Nat)) → List (List (Nat × Byte)) → Nat → JSt → JSt × Bool
  | [], _, _, j => (j, false)
  | mcus :: rest, segs, endOfs, j =>
    let seg := segs.headD []
    let bs := seg.flatMap fun x => byteBits x.2
    let (l, e) := jInterval tbl j.prec mcus [] bs
    let j := { j with blocks := j.blocks ++ l }
    match e with
    | none => jScan tbl policy rest (segs.drop 1) endOfs j
    | some (left, row) =>
      let ofs := match seg[(bs.length - left) / 8]? with
        | some x => x.1
        | none => endOfs
      let last := (mcus.getLast?.map fun x => x.2.2).getD row
      let j := { j with errs := j.errs + 1, ofs := ofs, rows := j.rows ++ (List.range (last + 1 - row)).map (row + ·) }
      if policy then ({ j with cut := some row }, true) else jScan tbl policy rest (segs.drop 1) endOfs j

/-! ### Markers -/

/-- Two bytes, most significant first. -/
def be16 (l : List Byte) : Nat := (l.headD 0).toNat * 256 + (l.getD 1 0).toNat

/-- DQT segment: tables in zigzag order. -/
def jDqt : Nat → List Byte → Option (List (Nat × Bool × List Nat))
  | 0, _ => none
  | _ + 1, [] => some []
  | k + 1, a :: t =>
    let wide := a.toNat / 16 = 1
    let n := if wide then 128 else 64
    if 1 < a.toNat / 16 ∨ 3 < a.toNat % 16 ∨ t.length < n then none
    else (jDqt k (t.drop n)).map fun r =>
      (a.toNat % 16, decide wide, (List.range 64).map fun i => if wide then be16 (t.drop (2 * i)) else (t.getD i 0).toNat) :: r

/-- DHT segment: class, identifier, table. -/
def jDht : Nat → List Byte → Option (List (Nat × Nat × JHuff))
  | 0, _ => none
  | _ + 1, [] => some []
  | k + 1, a :: t =>
    let counts := (t.take 16).map (·.toNat)
    let n := sumNat counts
    if 1 < a.toNat / 16 ∨ 3 < a.toNat % 16 ∨ t.length < 16 + n ∨ 256 < n then none
    else (jDht k (t.drop (16 + n))).map fun r =>
      (a.toNat / 16, a.toNat % 16, jHuff counts (((t.drop 16).take n).map (·.toNat))) :: r

/-- SOF segment: the frame, or the refusal code. -/
def jSof (j : JSt) (sof1 : Bool) (l : List Byte) : Nat ⊕ JSt :=
  let n := (l.getD 5 0).toNat
  let prec := (l.headD 0).toNat
  let comps := (List.range n).map fun i =>
    ({ id := (l.getD (6 + 3 * i) 0).toNat, h := (l.getD (7 + 3 * i) 0).toNat / 16, v := (l.getD (7 + 3 * i) 0).toNat % 16,
       tq := (l.getD (8 + 3 * i) 0).toNat } : JComp)
  if l.length ≠ 6 + 3 * n then .inl 8
  else if !(prec == 8 || (prec == 12 && sof1)) then .inl 6
  else if n = 0 ∨ 4 < n ∨ (comps.any fun c => decide (c.h < 1 ∨ 4 < c.h ∨ c.v < 1 ∨ 4 < c.v)) then .inl 5
  else if be16 (l.drop 1) = 0 then .inl 4
  else if prec = 8 ∧ j.wideQt then .inl 8
  else if be16 (l.drop 3) = 0 ∨ !j.comps.isEmpty ∨ (comps.map (·.id)).dedup.length ≠ n then .inl 8
  else .inr { j with sof1 := sof1, prec := prec, y := be16 (l.drop 1), x := be16 (l.drop 3), comps := comps }

/-- The blocks of a scan over components `cs` (indices), MCU by MCU. -/
def jMcus (j : JSt) (cs : List Nat) : List (List (Nat × Nat × Nat)) :=
  match cs with
  | [c] =>
    match j.comps[c]? with
    | some k =>
      let bw := ceilDiv (j.compW k) 8
      let bh := ceilDiv (j.compH k) 8
      (List.range bh).flatMap fun by_ => (List.range bw).map fun bx => [(c, by_ * 65536 + bx, by_ / k.v)]
    | none => []
  | _ =>
    (List.range j.mcuY).flatMap fun my => (List.range j.mcuX).map fun mx => cs.flatMap fun c =>
      match j.comps[c]? with
      | some k => (List.range k.v).flatMap fun b => (List.range k.h).map fun a =>
          (c, (my * k.v + b) * 65536 + mx * k.h + a, my)
      | none => []

/-- SOS segment and its data: the scan decoded, or the refusal code. -/
def jSos (j : JSt) (policy : Bool) (l : List Byte) (segs : List (List (Nat × Byte))) (endOfs : Nat) : Nat ⊕ (JSt × Bool) :=
  let n := (l.headD 0).toNat
  let sel := (List.range n).map fun i =>
    (j.comps.findIdx fun c => c.id == (l.getD (1 + 2 * i) 0).toNat, (l.getD (2 + 2 * i) 0).toNat / 16, (l.getD (2 + 2 * i) 0).toNat % 16)
  let cs := sel.map (·.1)
  let lim := if j.sof1 then 3 else 1
  let blocks := sumNat (cs.map fun c => match j.comps[c]? with
    | some k => k.h * k.v
    | none => 0)
  if j.comps.isEmpty ∨ n = 0 ∨ 4 < n ∨ l.length ≠ 4 + 2 * n ∨ (cs.any fun c => decide (j.comps.length ≤ c) || j.seen.contains c) ∨
      cs.dedup.length ≠ n then .inl 8
  else if 1 < n ∧ 10 < blocks then .inl 5
  else if sel.any fun x => decide (lim < x.2.1 ∨ lim < x.2.2) then .inl 8
  else if (sel.any fun x => (alFind x.2.1 j.dc).isNone || (alFind x.2.2 j.ac).isNone) ||
      (cs.any fun c => match j.comps[c]? with
        | some k => (alFind k.tq j.qt).isNone
        | none => true) then .inl 7
  else
    let mcus := jMcus j cs
    let parts := if j.ri = 0 then [mcus.flatten] else (chunks j.ri mcus).map List.flatten
    let tbl (c : Nat) : JHuff × JHuff := match sel.find? fun x => x.1 == c with
      | some x => (alGet [] x.2.1 j.dc, alGet [] x.2.2 j.ac)
      | none => ([], [])
    let (k, stop) := jScan tbl policy parts segs endOfs j
    .inr ({ k with seen := j.seen ++ cs
                   cut := if stop && decide ((j.seen ++ cs).length < j.comps.length) then some 0 else k.cut }, stop)

/-- Read the markers from offset `o` on. -/
def jMarkers (policy : Bool) : Nat → Nat → List Byte → JSt → JOut
  | 0, o, _, _ => .refused 8 o
  | k + 1, o, l, j =>
    match l with
    | 0xFF#8 :: m :: t =>
      let mk := m.toNat
      let len := be16 t
      let seg := (t.drop 2).take (len - 2)
      let rest := t.drop len
      let next (j : JSt) : JOut := jMarkers policy k (o + 2 + len) rest j
      if mk = 0xFF then jMarkers policy k (o + 1) (m :: t) j
      else if mk = 0xD9 then
        if j.comps.isEmpty ∨ j.seen.length < j.comps.length then .refused 8 o else .image j
      else if mk = 0xD8 ∨ mk = 0x01 ∨ (0xD0 ≤ mk ∧ mk ≤ 0xD7) then .refused 8 o
      else if len < 2 ∨ t.length < len then .refused 8 o
      else if mk = 0xC2 ∨ mk = 0xC6 then .refused (if mk = 0xC2 then 1 else 3) o
      else if 0xC9 ≤ mk ∧ mk ≤ 0xCF then .refused 2 o
      else if mk = 0xC3 ∨ mk = 0xC5 ∨ mk = 0xC7 ∨ mk = 0xDE ∨ mk = 0xDF then .refused 3 o
      else if mk = 0xDC then .refused 4 o
      else if mk = 0xC0 ∨ mk = 0xC1 then
        match jSof j (mk == 0xC1) seg with
        | .inl c => .refused c o
        | .inr j => next j
      else if mk = 0xDB then
        match jDqt 5 seg with
        | none => .refused 8 o
        | some ts =>
          if j.prec = 8 ∧ (ts.any fun x => x.2.1) then .refused 8 o
          else next { j with qt := ts.foldl (fun q x => alPut [] x.1 x.2.2 q) j.qt, wideQt := j.wideQt || ts.any fun x => x.2.1 }
      else if mk = 0xC4 then
        match jDht 9 seg with
        | none => .refused 8 o
        | some ts => next { j with
            dc := (ts.filter fun x => x.1 == 0).foldl (fun q x => alPut [] x.2.1 x.2.2 q) j.dc
            ac := (ts.filter fun x => x.1 == 1).foldl (fun q x => alPut [] x.2.1 x.2.2 q) j.ac }
      else if mk = 0xDD then (if len = 4 then next { j with ri := be16 seg } else .refused 8 o)
      else if mk = 0xDA then
        let (segs, eo, after) := jSegments rest.length (o + 2 + len) rest
        match jSos j policy seg segs eo with
        | .inl c => .refused c o
        | .inr (j, true) => .image j
        | .inr (j, false) => jMarkers policy k eo after j
      else if (0xE0 ≤ mk ∧ mk ≤ 0xEF) ∨ mk = 0xFE then next j
      else .refused 8 o
    | _ => .refused 8 o

/-- Decode an image. -/
def jpegDecode (policy : Bool) (l : List Byte) : JOut :=
  match l with
  | 0xFF#8 :: 0xD8#8 :: t => jMarkers policy l.length 2 t {}
  | _ => .refused 8 0

/-! ### Samples (R232, R233) -/

/-- Zigzag index of coefficient (row v, column u). -/
def zigzag (v u : Nat) : Nat :=
  let d := u + v
  let before := if d < 8 then d * (d + 1) / 2 else 64 - (15 - d) * (14 - d + 2) / 2
  let first := if d < 8 then 0 else d - 7
  before + (if d % 2 = 0 then u - first else v - first)

/-- cos(kπ/16) ÷ 2 for k = 0 … 8, in units of 2⁻⁴⁸. -/
def cosTab : List Int :=
  [140737488355328, 138033256979827, 130024484948533, 117018944879239, 99516432383215, 78189559200163, 53857905106259,
   27456521922982, 0]

/-- cos(kπ/16) ÷ 2 for any k. -/
def cos16 (k : Nat) : Int :=
  let k := k % 32
  let k := if 16 < k then 32 - k else k
  if 8 < k then -(cosTab.getD (16 - k) 0) else cosTab.getD k 0

/-- C(u)·cos((2x+1)uπ/16) ÷ 2. -/
def dctK (u x : Nat) : Int := if u = 0 then cosTab.getD 4 0 else cos16 ((2 * x + 1) * u)

/-- The 64 samples of a block, row by row; `dev` is what R233 leaves open. -/
def idct (prec : Nat) (dev : Nat → Int) (co : List Int) : List Nat :=
  let rows := (List.range 8).map fun v => (List.range 8).map fun x =>
    (List.range 8).foldl (fun a u => a + co.getD (8 * v + u) 0 * dctK u x) (0 : Int)
  (List.range 8).flatMap fun y => (List.range 8).map fun x =>
    let t := (List.range 8).foldl (fun a v => a + (rows.getD v []).getD x 0 * dctK v y) (0 : Int)
    (clampInt ((t + 2 ^ 95) / 2 ^ 96 + dev (8 * y + x) + 2 ^ (prec - 1)) 0 (2 ^ prec - 1)).toNat

/-- Deviation of a decoded sample from the exactly rounded one: −1, 0 or 1, open (R233). -/
def idctDev (fr i : Nat) : Int := (Config.freeValue fr i).toNat % 3 - 1

/-- The decoded blocks of component `c`: key and samples. -/
def JSt.samples (j : JSt) (c fr : Nat) : List (Nat × List Nat) :=
  match j.comps[c]? with
  | none => []
  | some k =>
    let q := alGet [] k.tq j.qt
    (j.blocks.filter fun b => b.1 == c).map fun b =>
      let deq := (b.2.2.zip q).map fun (x, y) => x * (y : Int)
      let nat := (List.range 64).map fun i => deq.getD (zigzag (i / 8) (i % 8)) 0
      (b.2.1, idct j.prec (fun i => idctDev fr ((c * 2 ^ 32 + b.2.1) * 64 + i)) nat)

/-- Rows `y0` to `y0 + n` of a component's plane of width `w`, from its blocks. -/
def planeRows (bl : List (Nat × List Nat)) (w y0 n : Nat) : List (List Nat) :=
  (List.range n).map fun dy => (List.range w).map fun x =>
    let y := y0 + dy
    (((bl.find? fun b => b.1 == y / 8 * 65536 + x / 8).map (·.2)).getD []).getD (y % 8 * 8 + x % 8) 0

/-- The payload of the band of image lines `a` to `b` (R232). -/
def JSt.band (j : JSt) (mode fr a b : Nat) : List Byte × Nat :=
  let fmt := if j.prec = 8 then 0x20 else 0x21
  let cs := if mode = 0 then [0] else List.range j.comps.length
  let codes := cs.map fun c => match j.comps[c]? with
    | none => []
    | some k =>
      let bl := j.samples c fr
      let y0 := ceilDiv (a * k.v) j.vmax
      let y1 := ceilDiv (b * k.v) j.vmax
      if mode = 2 then
        let pl := planeRows bl (j.compW k) (a * k.v / j.vmax) (y1 - a * k.v / j.vmax)
        (List.range (b - a)).map fun dy => (List.range j.x).map fun x =>
          (pl.getD ((a + dy) * k.v / j.vmax - a * k.v / j.vmax) []).getD (x * k.h / j.hmax) 0
      else planeRows bl (j.compW k) y0 (y1 - y0)
  ((codes.flatten).flatMap (pack (fmtWidth fmt)), sumNat (codes.map fun c => sumNat (c.map List.length)))

/-- What a JPEG decode makes: units, the samples delivered, refusal (code, offset), errors, their offset. -/
structure JpegOut where
  out     : RunOut
  samples : Nat := 0
  refused : Option (Nat × Nat) := none
  errs    : Nat := 0
  ofs     : Nat := 0
  deriving DecidableEq, Repr

/-- The bands of a decoded image (R232, R234); `lines` image lines each. -/
def JSt.bands (j : JSt) (lines : Nat) : List (Nat × Nat) :=
  let h := match j.cut with
    | some r => (r * 8 * j.vmax) / lines * lines
    | none => j.y
  (List.range (ceilDiv h lines)).map fun i => (i * lines, min j.y ((i + 1) * lines))

/-- A unit of a JPEG command: LAST as `fl` has it. -/
def State.jpegUnit (s : State) (c : Cmd) (fl : List Nat) (fmt : Nat) (body : List Byte) : StagedUnit :=
  let o := s.outUnit c fmt 608 (flagsOf fl) body
  { o with unit := { o.unit with flags := putBit o.unit.flags fLAST (fl.contains fLAST) } }

/-- A refused image (R235): the reason and the source offset. -/
def State.jpegRefuse (s : State) (c : Cmd) (code ofs : Nat) : JpegOut :=
  { out := { outs := [s.jpegUnit c [fLAST, fINVALID] 0x20 []] }, refused := some (code, ofs) }

/-- What a JPEG command produces (R231 to R235). -/
def State.jpegRun (s : State) (c : Cmd) (fr : Nat) : JpegOut :=
  let d := c.desc
  let src := s.read (Desc.wAddr d) (Desc.auxCount d)
  let a := Desc.paramAddr d
  let bl := s.readN a 2
  let mode := s.readN (a + 2) 1 % 4
  let unit := s.jpegUnit c
  let refuse := s.jpegRefuse c
  match jpegDecode (s.bit Reg.JPG.JPG_CTRL 1) src with
  | .refused code ofs => refuse code ofs
  | .image j =>
    let mcu := 8 * j.vmax
    let lines := if bl = 0 then max 1 j.y else ceilDiv bl mcu * mcu
    let fmt := if j.prec = 8 then 0x20 else 0x21
    let bs := j.bands lines
    let units : List (StagedUnit × Nat) := bs.zipIdx.map fun ((y0, y1), i) =>
      let (body, n) := j.band mode fr y0 y1
      let part := j.cut.isNone && j.rows.any fun r => decide (y0 < (r + 1) * mcu ∧ r * mcu < y1)
      (unit ((if part then [fPARTIAL] else []) ++ (if j.cut.isNone ∧ i + 1 = bs.length then [fLAST] else [])) fmt body, n)
    if units.any fun u => decide (2 ^ 24 < u.1.unit.payload.length) then refuse 9 0
    else
      { out := { outs := units.map (·.1) ++ (if j.cut.isSome then [unit [fLAST, fPARTIAL, fINVALID] fmt []] else []) }
        samples := sumNat (units.map (·.2)), errs := j.errs, ofs := j.ofs }

end Sys2Proof.Machine
end

