-- ==== Sys2Proof/Machine/Run.lean ====
section
/-! DEFINITION. The work of a command: the products its engines form and how long they take (R132, R207), the memory it
reads, and the results of a run by opcode, those of COPY and the Fakan transfers among them (R407, R641 to R646). -/

namespace Sys2Proof.Machine

/-! ### Products and estimates -/

/-- A product that an engine's share of a command consists of: issue interval, pairing, reduction, columns, rows, row block. -/
structure Piece where
  c  : Nat
  p  : Nat
  k  : Nat
  n  : Nat
  m  : Nat
  mb : Nat
  /-- R207: of a grouped layer, the output channels of each group that the share forms; else empty. -/
  gr : List Nat := []
  /-- R178: cycles of the quantisation pre-pass before it. -/
  pre : Nat := 0
  /-- R250: of a product of ATTENTION, the rows of each visible block of keys, and the interval of columns that see it. -/
  parts : List (Nat × Nat × Nat) := []
  /-- R207: cycles on the vector path, 0 on the array. -/
  vec : Nat := 0
  deriving DecidableEq, Repr

/-- R427: the row blocks of engine `k` of `e`. -/
def ownBlocks (m mb e k : Nat) : List Nat :=
  let b := rowBlock mb m
  ((List.range (ceilDiv m b)).filter fun i => i % max e 1 == k).map fun i => min b (m - i * b)

/-- R427: the output channels of each of `g` groups that engine `k` of `e` forms, groups without one left out. -/
def ownGroups (cout mb e k g : Nat) : List Nat :=
  ((List.range g).map fun j => ((List.range (cout / max g 1)).filter fun i =>
    rowEngine mb cout e (j * (cout / max g 1) + i) == k).length).filter (· != 0)

/-- Reduction chunks and column tiles of a product in shape `s` (R128, R132). -/
def Piece.chunks (x : Piece) (s : Nat) : Nat := ceilDiv x.k (x.p * (shapeRCQ s).1)
def Piece.columns (x : Piece) (s : Nat) : Nat := ceilDiv x.n (shapeRCQ s).2.1

/-- R207: the rows of each set of whole groups that lie in one tile. -/
def Piece.stacks (x : Piece) (s : Nat) : List Nat :=
  (Machine.chunks (max 1 (x.p * (shapeRCQ s).1 / max x.k 1)) x.gr).map sumNat

/-- The weight rows of each tile of a product in shape `s`: the reduction chunks of one group of columns follow one another,
row block by row block (R131). A tile that no block of keys is visible to is left out (R250). -/
def Piece.tileRows (x : Piece) (s : Nat) : List Nat :=
  if x.vec ≠ 0 then []
  else if x.parts ≠ [] then (List.range (x.columns s)).flatMap fun j =>
    let w := (shapeRCQ s).2.1
    let r := sumNat ((x.parts.filter fun b => decide (b.2.1 < (j + 1) * w ∧ j * w < b.2.2)).map (·.1))
    if r = 0 then [] else List.replicate (x.chunks s) r
  else if x.gr ≠ [] then
    (List.range (x.columns s)).flatMap fun _ => (x.stacks s).flatMap fun r => List.replicate (x.chunks s) r
  else
    ((List.range (ceilDiv x.m x.mb)).map fun i => min x.mb (x.m - i * x.mb)).flatMap fun r =>
      List.replicate (x.columns s * x.chunks s) r

/-- Cycles of a product in shape `s` on the array, without a shape change (R132; R207: the sum over tiles, each with the rows of
the groups it serves). -/
def Piece.arrayEst (x : Piece) (s : Nat) : Nat :=
  if x.gr = [] then shapeBase s x.c x.p x.k x.n x.m x.mb
  else x.chunks s * x.columns s * ((x.stacks s).length * (128 + x.c) + x.c * sumNat x.gr) + 260

/-- Cycles of a product on its path. -/
def Piece.est (x : Piece) (s : Nat) : Nat := if x.vec ≠ 0 then x.vec else x.arrayEst s

/-- R132: the shape of a product: the one named, or that of the least estimate. -/
def Piece.shape (named prev : Nat) (x : Piece) : Nat :=
  if named ≠ 0 then named
  else leastShape fun s => (x.arrayEst s + switchCost prev s, x.m * x.k * x.columns s)

/-- R207: a grouped layer takes the path of the lower estimate, the array on a tie. -/
def Piece.onPath (named : Nat) (x : Piece) : Piece :=
  let v := ceilDiv (x.m * x.n * x.k) 256
  let a := if named ≠ 0 then x.arrayEst named else ([1, 2, 3, 4].map x.arrayEst).foldl min (x.arrayEst 1)
  if x.gr ≠ [] ∧ v < a then { x with vec := max 1 v } else x

/-- R132, R252: the shapes of a share's products in turn, each chosen with the shape the one before it leaves in force. -/
def shapesOf (named : Nat) : Nat → List Piece → List Nat
  | _, [] => []
  | prev, x :: t =>
    let s := if x.vec ≠ 0 then prev else x.shape named prev
    s :: shapesOf named s t

/-- Cycles of a share in these shapes, with the shape changes (R132, R133). -/
def shareCycles : Nat → List Piece → List Nat → Nat
  | _, [], _ => 0
  | prev, x :: t, ss =>
    let s := ss.headD prev
    x.est s + (if x.vec ≠ 0 then 0 else switchCost prev s) + shareCycles s t (ss.drop 1)


/-- The loads of a product in shape `s`, after `pre` cycles of pre-pass. -/
def Piece.loads (x : Piece) (s pre : Nat) : List Load :=
  (Machine.chunks (if x.gr = [] then (shapeRCQ s).2.2 else 1) (x.tileRows s)).zipIdx.map fun (t, i) =>
    { shape := s, rows := t.foldl max 0, tiles := t.length, c := x.c, pre := if i = 0 then pre else 0 }

/-- The loads of a share, in order; a pre-pass of a product that loads nothing comes before the next load. -/
def loadsOf : Nat → List Piece → List Nat → List Load
  | _, [], _ => []
  | pre, x :: t, ss =>
    let l := x.loads (ss.headD 1) (pre + x.pre)
    l ++ loadsOf (if l.isEmpty then pre + x.pre else 0) t (ss.drop 1)

/-- The load whose tiles begin after `n` tiles have passed. -/
def loadAt : List Load → Nat → Option Load
  | [], _ => none
  | l :: t, n => if n = 0 then some l else if n < l.tiles then some { l with tiles := l.tiles - n, pre := 0 } else loadAt t (n - l.tiles)

/-- R159: does the FCE layer of a CONV command run on an FCE? The layer is named by the list's first entry. -/
def State.namesFce (s : State) (d : BitVec 512) : Bool :=
  Desc.opcode d == opCONV && (match (s.layers d).head? with
    | some l => l.fce
    | none => false)

/-- The input unit a command computes with. The load path of an engine store and the FCE in last-layer mode expand zero runs; a
first layer on the FCE takes its band unit as it is (R221). -/
def State.source (s : State) (c : Cmd) : DUnit := match c.input with
  | some u => if s.namesFce c.desc && !((s.layers c.desc).head?.map Layer.lastMode).getD false then u else expandUnit u
  | none => unitWith 0 0 0 0 0x04 0 0 []

/-- The products of CONV layers from number `i` on, their output rows known (R202, R207, R210). -/
def convPieces (named step e k mb : Nat) : Nat → List Layer → List Nat → Nat → List Piece
  | _, [], _, _ => []
  | i, l :: t, ns, fmt =>
    let p := layerPar i l step fmt
    let (c, pr) := issueCP p.aFmt p.wFmt
    let g := max 1 l.groups
    let kg := l.cin / g * l.kh * l.kw
    let n := ns.headD 0 * l.outW
    let gr := if 1 < g then ownGroups l.cout mb e k g else []
    let m := if 1 < g then sumNat gr else sumNat (ownBlocks l.cout mb e k)
    let x : Piece := { c := c, p := pr, k := kg, n := n, m := m, mb := rowBlock mb l.cout, gr := gr,
                       pre := prePassCycles p.ascale false m (g * kg) n + prePassCycles 0 p.wdyn m kg n }
    (if l.fce || n == 0 || m == 0 then [] else [x.onPath named]) ++
      convPieces named step e k mb (i + 1) t (ns.drop 1) (layerFmt i l step fmt)

/-- The products of one key-value head for the sequence of view `v` (R250, R252): chunk by chunk the scores, then the values
block by block; what no query sees is left out. The queries are quantised before the first of them (R248). -/
def State.headPieces (s : State) (b : AttnBlock) (v : SeqView) : List Piece :=
  let (c1, p1) := issueCP b.qFmt b.kvFmt
  let (c2, p2) := issueCP b.pFmt b.kvFmt
  let g := b.hq / max 1 b.hkv
  let chunk := max 1 b.chunk
  let q := if b.qFmt = 0x03 ∨ b.qFmt = 0x05 then ceilDiv (b.d * (v.n * g)) 256 else 0
  let l := (List.range (ceilDiv v.upTo chunk)).flatMap fun i =>
    let len := min chunk (v.upTo - i * chunk)
    let bl := ((List.range (ceilDiv len 128)).map fun j =>
      let n := min 128 (len - j * 128)
      (n, s.seeing b v (i * chunk + j * 128) n)).filter fun x => decide (x.2.1 < x.2.2)
    if bl.isEmpty then []
    else ({ c := c1, p := p1, k := b.d, n := v.n * g, m := len, mb := len,
            parts := bl.map fun (n, lo, hi) => (n, lo * g, hi * g) } : Piece) ::
      bl.map fun (n, lo, hi) => { c := c2, p := p2, k := n, n := v.n * g, m := b.d, mb := b.d, parts := [(b.d, lo * g, hi * g)] }
  match l with
  | [] => []
  | x :: t => { x with pre := q } :: t

/-- The products of engine `k` of the placement of command `c` (R427), `named` being the shape it must run in, if any: none for
a command that has nothing to multiply. -/
def State.pieces (s : State) (c : Cmd) (k named : Nat) : List Piece :=
  let d := c.desc
  let e := Desc.engCnt d
  let u := s.source c
  if c.empty then []
  else if Desc.opcode d = opMATMUL then
    let p := (s.mmRec d).parAt c.step
    let (ci, pr) := issueCP p.aFmt p.wFmt
    let m := sumNat (ownBlocks (Desc.m d) (Desc.mb d) e k)
    if u.payload.isEmpty ∨ Desc.k d = 0 ∨ m = 0 then []
    else [{ c := ci, p := pr, k := Desc.k d, n := Desc.n d, m := m, mb := rowBlock (Desc.mb d) (Desc.m d),
            pre := prePassCycles p.ascale p.wdyn m (Desc.k d) (Desc.n d) }]
  else if Desc.opcode d = opCONV then
    let ls := s.layers d
    let w := s.swatchOf c u.item
    convPieces named c.step e k (Desc.mb d) 0 ls (layerRows ls w.halos (bandRows ls u).length (u.has fLAST)) u.fmt.toNat
  else if Desc.opcode d = opATTENTION then
    let b := s.attn d
    let es := withBase 0 (s.seqList d)
    (c.seqs.filter fun x => x.reason == 0 && !x.paused).flatMap fun x => match es[x.idx]? with
      | some (y, base) =>
        let v := s.seqView b.op base y
        ((v.rec_.heads b).filter fun h => h % max e 1 == k).flatMap fun _ => s.headPieces b v
      | none => []
  else []

/-- R422: a command's estimate in engine cycles, without the cost of a shape change or a first configuration. -/
def State.estCycles (s : State) (c : Cmd) : Nat :=
  sumNat ((s.pieces c 0 (Desc.shape c.desc)).map fun x => x.est (x.shape (Desc.shape c.desc) 0))

/-- Nanoseconds of `n` cycles at `mhz24` ÷ 24 MHz. -/
def cyclesNs (n mhz24 : Nat) : Nat := ceilDiv (n * 24000) mhz24

/-- STRIPE_FREQ of stripe `t`: 0 1.1 GHz, 1 1.2 GHz, 2 1.4 GHz. -/
def State.stripeCode (s : State) (t : Nat) : Nat := s.fld Reg.CLK.STRIPE_FREQ (4 * t + 1) (4 * t)
def codeMHz (c : Nat) : Nat := if c = 0 then 1100 else if c = 1 then 1200 else 1400

/-- Class of the command engine `p` runs; an idle engine counts as one of class 0. -/
def State.engClass (s : State) (p : Nat) : Nat := match s.runningOn p with
  | some c => c.cls
  | none => 0

/-- Is engine `p` reserved in CLASS2_ENG? -/
def State.reserved (s : State) (p : Nat) : Bool := match s.logicalOf p with
  | some l => s.bit Reg.DISP.CLASS2_ENG l
  | none => false

/-- R588: the floor of engine `p`, MHz. -/
def State.engFloor (s : State) (p : Nat) : Nat :=
  if s.engClass p = 2 then 1100
  else if s.engClass p = 1 || s.reserved p then s.fld Reg.PWR.FLOORS 11 0
  else s.fld Reg.PWR.FLOORS 27 16

/-- The least k of engine `p`. -/
def State.minK (s : State) (p : Nat) : Nat := min 24 (max 12 (ceilDiv (s.engFloor p * 24) (codeMHz (s.stripeCode (p / 9)))))

/-- k of engine `p`: what PWR has lowered it to, but never below the floor (R583, R588). -/
def State.kOf (s : State) (p : Nat) : Nat := max (s.minK p) (s.hw.pwr.ks.getD p 24)

/-- Clock of engine `p` in 1/24 MHz: the stripe's setting times k (R582, R583). -/
def State.engClock (s : State) (p : Nat) : Nat := codeMHz (s.stripeCode (p / 9)) * s.kOf p

/-- R422: the estimate at 1.1 GHz, ns. -/
def State.estNs (s : State) (c : Cmd) : Nat := cyclesNs (s.estCycles c) (1100 * 24)

/-! ### What a command reads -/

/-- Weights, tables and biases of a quantised product. -/
def recRanges (q : QRec) (w bias m k : Nat) : List (Nat × Nat) :=
  [(w, m * rowBytes q.wFmt k), (bias, if q.bFmt = 0 then 0 else m * fmtWidth q.bFmt / 8),
   (q.wsAddr, if q.wsAddr = 0 then 0 else zpOffset m (tableGroups q.group k) + (if fmtInt q.wFmt then m else 0))]

/-- What an ATTENTION command reads of the sequences it runs: record, page table, frame table, cached rows and scale records
(R254 to R259). -/
def State.kvRanges (s : State) (c : Cmd) : List (Nat × Nat) :=
  let b := s.attn c.desc
  (c.seqs.filter fun x => x.reason = 0).flatMap fun x =>
    let r := s.seqRec x.seq
    let n := ceilDiv r.glen 16
    [(s.seqAddr x.seq, 64), (r.pt, 4 * n)] ++ ((List.range n).filter fun i => pteLocal (s.pte r i)).flatMap fun i =>
      let f := pteFrame (s.pte r i)
      (s.ftabAddr f, 32) :: (r.heads b).flatMap fun h =>
        (s.pageAddr b h f, 32 * rowPitch b) :: (if kvScaled b.kvFmt then [(s.scaleAddr b h f, 128)] else [])

/-- Address ranges of memory a command reads beside its input unit (R20). -/
def State.readRanges (s : State) (c : Cmd) : List (Nat × Nat) :=
  let d := c.desc
  match Desc.opcode d with
  | 0x01 => (Desc.paramAddr d, 32) :: recRanges (s.mmRec d) (Desc.wAddr d) (Desc.auxAddr d) (Desc.m d) (Desc.k d)
  | 0x02 => (Desc.paramAddr d, 64 * Desc.auxCount d) :: (s.layers d).flatMap fun l =>
      recRanges l.q l.lw l.bias l.cout (l.cin / max 1 l.groups * l.kh * l.kw)
  | 0x03 => [(Desc.paramAddr d, 32), (Desc.auxAddr d, 8 * Desc.auxCount d)] ++ s.kvRanges c
  | 0x04 =>
    let b := cropBlock (s.read (Desc.paramAddr d) 32)
    [(Desc.paramAddr d, 32), (Desc.auxAddr d, 32 * Desc.auxCount d), (b.plane, b.pitch * b.h)]
  | 0x07 => [(Desc.paramAddr d, Desc.auxCount d * maskSlotBytes s.vocabSize)]
  | 0x0A => [(Desc.auxAddr d, 16 * Desc.auxCount d)]
  | 0x0B => [(Desc.wAddr d, Desc.auxCount d), (Desc.paramAddr d, 8)]
  | 0x0C => [(Desc.paramAddr d, 64)]
  | 0x0D => [(Desc.wAddr d, Desc.auxCount d)]
  | 0x10 => [(Desc.wAddr d, Desc.auxCount d)]
  | 0x13 => [(Desc.paramAddr d, 8)]
  | 0x14 => [(Desc.wAddr d, Desc.auxCount d)]
  | 0x15 => [(Desc.wAddr d, Desc.auxCount d)]
  | 0x16 => if Desc.dev d = s.devNum then [(Desc.wAddr d, Desc.auxCount d)] else []
  | _ => []

/-- Everything a command reads: its tables and sources, and the slot of its input unit. -/
def State.allRanges (s : State) (c : Cmd) : List (Nat × Nat) :=
  s.readRanges c ++ (match c.inSlot with
    | some (n, i) =>
      let r := s.streamRec n
      [(r.ring + i * r.slotKib * 1024, 32 + (c.input.map fun u => u.payload.length).getD 0)]
    | none => [])

/-- R20: does the command read a poisoned word of the commons? -/
def State.readsPoisoned (s : State) (c : Cmd) : Bool := (s.allRanges c).any fun r => s.readsPoison r.1 r.2

/-! ### COPY and the Fakan transfers (R407, R641 to R646) -/

/-- Contribution of member `d` to a collective: this device's is in memory, another device's is not this device's to know
(open value `fr`). -/
def State.contribution (s : State) (d : Nat) (addr n fr : Nat) : List Byte :=
  if d = s.devNum then s.read addr n
  else (List.range n).map fun i => (Config.freeValue fr (d * 2 ^ 32 + i)).setWidth 8

/-- Members of a GROUP, in ascending device number. -/
def members (g : Nat) : List Nat := (List.range 8).filter fun d => g.testBit d

/-- R646: one element folded over the members. -/
def redFold (fmt red : Nat) (l : List Nat) : Nat :=
  if fmt = 0x13 then
    let f (a b : Int) : Int := if red = 0 then clampInt (a + b) (-2147483648) 2147483647 else if red = 1 then max a b else min a b
    match l.map (sgn 32) with
    | [] => 0
    | a :: t => uns 32 (t.foldl f a)
  else
    let f (a b : Val) : Val :=
      if red = 0 then (match a.add b with
        | .fin d => ieee32 d
        | v => v)
      else if red = 1 then (if a.lt b then b else a) else (if b.lt a then b else a)
    match l.map (fun c => toF32 (elemVal fmt c)) with
    | [] => 0
    | a :: t => vecConvert fmt (t.foldl f a)

/-- R646: ALLREDUCE of the members' contributions. -/
def State.allreduce (s : State) (d : BitVec 512) (fr : Nat) : List Byte :=
  let fmt := Desc.fakFmt d
  let w := fmtWidth fmt / 8
  let n := Desc.auxCount d / max w 1
  let all := (members (Desc.group d)).map fun m => s.contribution m (Desc.wAddr d) (Desc.auxCount d) fr
  (List.range n).flatMap fun i => leBytes w (redFold fmt (Desc.red d) (all.map fun l => leNat ((l.drop (i * w)).take w)))

/-- What COPY, GET and the collectives write at commit. -/
def State.transferRun (s : State) (c : Cmd) (fr : Nat) : RunOut :=
  let d := c.desc
  let n := Desc.auxCount d
  match Desc.opcode d with
  | 0x0D => { mems := [(Desc.auxAddr d, s.read (Desc.wAddr d) n)] }
  | 0x10 => if Desc.dev d = s.devNum then { mems := [(Desc.auxAddr d, s.read (Desc.wAddr d) n)] } else {}
  | 0x11 => { mems := [(Desc.auxAddr d, s.contribution (Desc.dev d) (Desc.wAddr d) n fr)] }
  | 0x14 => { mems := (members (Desc.group d)).zipIdx.map fun (m, r) =>
      (Desc.auxAddr d + n * r, s.contribution m (Desc.wAddr d) n fr) }
  | 0x15 => { mems := [(Desc.auxAddr d, s.allreduce d fr)] }
  | 0x16 => { mems := [(Desc.auxAddr d, s.contribution (Desc.dev d) (Desc.wAddr d) n fr)] }
  | _ => {}

/-- Devices a command needs besides this one. -/
def State.partners (s : State) (c : Cmd) : List Nat :=
  let d := c.desc
  let l := match Desc.opcode d with
    | 0x10 => [Desc.dev d]
    | 0x11 => [Desc.dev d]
    | 0x12 => [Desc.dev d]
    | 0x14 => members (Desc.group d)
    | 0x15 => members (Desc.group d)
    | 0x16 => members (Desc.group d)
    | 0x17 => members (Desc.group d)
    | _ => []
  l.filter (· != s.devNum)

/-- R643: is the operation a remote wait? -/
def remoteWait (op : Nat) : Bool := op == opGET || decide (0x13 ≤ op ∧ op ≤ 0x17)

/-- R643: has the counter of a WAIT reached its target? -/
def State.waitDone (s : State) (d : BitVec 512) : Bool :=
  decide ((s.readN (Desc.paramAddr d) 8 + 2 ^ 64 - Desc.auxAddr d) % 2 ^ 64 < 2 ^ 63)

/-- R642: what a PUT or SIGNAL does to its counter at commit: added here, or sent to the device that holds it. -/
def counterAdd (c : Cmd) : Act := .get fun s =>
  let d := c.desc
  let a := Desc.paramAddr d
  let inc := if Desc.opcode d = opPUT then 1 else Desc.auxAddr d
  .when ((Desc.opcode d == opPUT && a != 0) || Desc.opcode d == opSIGNAL) <|
    if Desc.dev d = s.devNum then .guarded c.cls a (leBytes 8 (s.readN a 8 + inc))
    else sendOut (.flit (Desc.dev d) "add" (leBytes 8 a ++ leBytes 8 inc))

/-- R642: a PUT's bytes go into the remote window before its commit; GET and collectives ask for what they read. -/
def remoteStart (c : Cmd) : Act := .get fun s =>
  let d := c.desc
  .each (s.partners c) fun p => match Desc.opcode d with
    | 0x10 => sendOut (.flit p "write" (leBytes 8 (Desc.auxAddr d) ++ s.read (Desc.wAddr d) (Desc.auxCount d)))
    | 0x11 => sendOut (.flit p "read" (leBytes 8 (Desc.wAddr d) ++ leBytes 4 (Desc.auxCount d)))
    | 0x12 => .nil
    | op => sendOut (.flit p "collective" (leBytes 1 op ++ leBytes 1 (Desc.group d) ++ leBytes 2 (Desc.tag d) ++
        leBytes 4 (Desc.auxCount d) ++ leBytes 4 c.gen))

/-! ### Results by opcode -/

/-- R152, R155: the zero-length units of a command that completes EMPTY: for the opcodes that deliver units. -/
def State.emptyOuts (s : State) (c : Cmd) : List StagedUnit :=
  let one (fmt src : Nat) : List StagedUnit := [s.outUnit c fmt src 0 []]
  match Desc.opcode c.desc with
  | 0x01 => one (s.mmRec c.desc).oFmt c.engSource
  | 0x02 => one (((s.layers c.desc).getLast?.map fun l => l.q.oFmt).getD 0x04) c.engSource
  | 0x03 => if (s.attn c.desc).op = 3 then [] else one 0x12 c.engSource
  | 0x04 => one 0x04 c.engSource
  | 0x05 => one (if Desc.opflags c.desc % 2 = 0 then 0x04 else 0x13) c.engSource
  | 0x07 => one 0x31 c.engSource
  | 0x0B => [s.outUnit c 0x20 608 (flagsOf [fLAST]) []]
  | _ => []

/-- Results of an engine command or a transfer (the blocks' own are in `blockRun`). -/
def State.runOut (s : State) (c : Cmd) (fr : Nat) : RunOut :=
  let u := s.source c
  let c := { c with input := c.input.map fun _ => u }
  if c.empty then { outs := s.emptyOuts c }
  else match Desc.opcode c.desc with
  | 0x01 => s.matmulRun c u fr
  | 0x02 => s.convRun c u fr
  | 0x03 => s.attnRun c fr
  | 0x04 => s.cropRun c
  | 0x05 => s.argmaxRun c u
  | 0x07 => s.sampleRun c u
  | _ => s.transferRun c fr

/-- R221, R222: does the command expand its input unit and find it malformed? -/
def State.badRuns (s : State) (c : Cmd) : Bool := match c.input with
  | some u => u.fmt.toNat == 0x40 && (s.source c).fmt.toNat != 0x40 && (zrunExpand u.payload).isNone
  | none => false

/-- R429, R431: columns of a step's removed items carry INVALID, and are reported. -/
def State.markRemoved (s : State) (c : Cmd) (o : RunOut) : RunOut :=
  let cols := if Desc.opcode c.desc = opMATMUL ∨ Desc.opcode c.desc = opSAMPLE then s.removedCols c.ctx else []
  let cols := cols.filter fun i => decide (i < Desc.n c.desc)
  if cols.isEmpty then o
  else { o with outs := o.outs.map (fun x => { x with unit := x.unit.set fINVALID })
                reasons := o.reasons ++ cols.map fun i => (i, 0x48) }

/-- Keep the results of a run with the command. -/
def keepRun (id : Nat) (o : RunOut) : Act := .cmd id fun c => { c with
  outs := o.outs, mems := o.mems, stamps := o.stamps, clips := o.clips, shares := o.shares, den := o.den, once := o.once, nans := o.nans,
  seqs := if o.seqs.isEmpty then c.seqs else o.seqs, reasons := if Desc.opcode c.desc = opMASK then c.reasons else o.reasons,
  swatch := o.swatch, computed := true }

end Sys2Proof.Machine
end

