-- ==== Sys2Proof/Machine/Place.lean ====
section
/-! DEFINITION. Dispatch order and placement (R411, R419, R422, R426, R427, R439, R457), the checks made before a
command's first load, the results of a run, the wide re-run decision (R188 to R196), and EMPTY commands (R152, R153). -/

namespace Sys2Proof.Machine

/-! ### Starting a part on an engine -/

/-- R136: eighths of the issue slots that dummy rows take while the engine loads. -/
def State.dummyLevel (s : State) (p : Nat) : Nat :=
  min 8 (if s.bit (Reg.ENG.DUMMY p) 24 then s.fld Reg.PWR.IRL_CFG 19 16 else s.fld (Reg.ENG.DUMMY p) 3 0)

/-- The shape engine `p` must run command `c` in, 0 for automatic (R132; R161: FORCE_SHAPE). -/
def State.namedShape (s : State) (c : Cmd) (p : Nat) : Nat :=
  let forced := s.fld (Reg.ENG.CTRL p) 4 2
  if 1 ≤ forced ∧ forced ≤ 4 then forced else Desc.shape c.desc

/-- The products of part `k` on engine `p`, and the shape of each (R132, R427). -/
def State.partWork (s : State) (c : Cmd) (k p : Nat) : List Piece × List Nat :=
  let l := s.pieces c k (s.namedShape c p)
  (l, shapesOf (s.namedShape c p) (s.fld (Reg.ENG.ENG_STATE p) 6 4) l)

/-- The load engine `p` has to make or holds; none when its share has none left. -/
def State.curLoad (s : State) (p : Nat) : Option Load := loadAt (s.eng p).loads (s.eng p).done

/-- What stands before the next load of engine `p`: its pre-pass (R178) and its shape (R133). -/
def nextLoad (p : Nat) : Act := .get fun s => match s.curLoad p with
  | some l => .eng p fun e => { e with pre := l.pre != 0, shapeTo := if l.shape = s.fld (Reg.ENG.ENG_STATE p) 6 4 then 0 else l.shape }
  | none => .nil

/-- Engine cycles of `ns` nanoseconds on engine `p`. -/
def State.engCycles (s : State) (p ns : Nat) : Nat := ns * s.engClock p / 24000

/-- R134: dummy rows of a gap between commands: in its first GAP cycles those of the level in force; beyond them R135 lowers it
step by step, and each step counts what has passed since the one before. -/
def State.gapDummy (s : State) (p : Nat) : Nat :=
  let e := s.eng p
  if e.rampAt.isSome then 0 else min (s.engCycles p (s.now - e.idleSince)) (s.fld (Reg.ENG.DUMMY p) 15 4) * e.dummy / 8

/-- Engine `p` takes part `k` of command `id`; `done` tiles have passed before (R441), `keep`: its dispatch goes on. A share with
no load may still begin with a pre-pass. INJ_ES1 and INJ_ES2 are taken over with the command (R758). -/
def startPart (id k p done : Nat) (keep : Bool) : Act := .withCmd id fun c => .get fun s =>
  let (l, sh) := s.partWork c k p
  let loads := loadsOf 0 l sh
  let lv := s.dummyLevel p
  .all [.when (!keep) (.bump (Reg.ENG.DUMMY_CYC p) (s.gapDummy p)),
        .eng p fun e => { cmd := some id, part := k, start := if keep then e.start else s.now, loads := loads,
                          pre := loads.isEmpty && done == 0 && l.any (fun x => x.pre != 0),
                          tiles := sumNat (loads.map (·.tiles)), done := done,
                          dummy := e.dummy, dummyUp := decide (e.dummy < lv), rampFrom := if e.dummy < lv then some e.dummy else none,
                          corr := e.corr, recNs := if keep then e.recNs else 0,
                          firstRead := if keep then e.firstRead else true,
                          injEs := if keep then e.injEs else s.fld (Reg.ENG.INJECT p) 3 2 },
        nextLoad p, setEngState p eRUN, .setFld (Reg.ENG.ENG_STATE p) 23 16 c.ctx,
        .cmd id fun x => { x with engines := updAt (fun _ => p) k x.engines }]

/-! ### Results -/

/-- R188, R427: the clips of the run go to CLIP_TOTAL, each engine's own to its own. -/
def addClips (c : Cmd) : Act := .each (c.engines.zip c.shares) fun (p, n) => .satFld (Reg.ENG.CLIP_TOTAL p) 31 0 n

/-- The quantisation record that speaks for a command (R190): its own, or that of its first array layer. -/
def State.threshRec (s : State) (c : Cmd) : Option QRec :=
  if Desc.opcode c.desc = opMATMUL then some (s.mmRec c.desc)
  else if Desc.opcode c.desc = opCONV then ((s.layers c.desc).find? fun l => !l.fce).map (·.q) else none

/-- R190, R194: nanoseconds a wide re-run of command `c` would take: the largest of its engines' estimates. -/
def State.wideNs (s : State) (c : Cmd) : Nat :=
  let c := { c with step := c.step + 1 }
  (c.engines.zipIdx.map fun (p, k) =>
    let (l, sh) := s.partWork c k p
    let e := shareCycles (s.fld (Reg.ENG.ENG_STATE p) 6 4) l sh + sumNat (l.map (·.pre)) + 64
    cyclesNs e (min (s.engClock p) (1100 * 24))).foldl max 0

/-- R193: does a further step change a format of the command, in any layer of the array or the vector path? -/
def State.canStep (s : State) (c : Cmd) : Bool :=
  if Desc.opcode c.desc = opMATMUL then ((s.mmRec c.desc).parAt c.step).canStep
  else (s.layers c.desc).any fun l => !l.fce && (l.q.parAt c.step).canStep

/-- R190: C and D of a request: what quantising an input unit adds to them counts for the first part that takes it. -/
def clipTotals : List Cmd → List (Option DUnit) → Nat × Nat
  | [], _ => (0, 0)
  | c :: t, seen =>
    let (a, b) := clipTotals t (c.input :: seen)
    if seen.contains c.input then (a + (c.clips - c.once.1), b + (c.den - c.once.2)) else (a + c.clips, b + c.den)

/-- R193: is the request eligible for a wide re-run? -/
def State.wideEligible (s : State) (l : List Cmd) : Bool :=
  match l with
  | [] => false
  | c :: _ => match s.threshRec c with
    | none => false
    | some q => clipExceeded q.clip (clipTotals l []).1 (clipTotals l []).2 && c.cls != 2 &&
        decide (c.step < q.wideMax) && l.any s.canStep

/-- R194: the narrow result is discarded; a part whose engine still holds it starts again there, another waits for its
engine. -/
def rerunCmd (id : Nat) : Act := .withCmd id fun c => .get fun s =>
  let held := c.engines.zipIdx.filter fun (p, k) => (s.eng p).cmd == some id && (s.eng p).part == k
  .all [.cmd id fun x => { x with step := x.step + 1, computed := false, outs := [], mems := [], stamps := [], reasons := [], swatch := none,
                                  parts := [], phase := .running, late := false,
                                  rerun := (List.range c.engines.length).filter fun k => !held.any fun h => h.2 == k },
        .each held fun (p, k) => startPart id k p 0 true]

/-- R190, R193 to R196: the decision once every part of the request has its results. -/
def wideDecision (id : Nat) : Act := .withCmd id fun c => .get fun s =>
  let l := s.siblings c
  .when (decide (Desc.splitN c.desc + 1 ≤ l.length) && l.all (·.computed) && s.wideEligible l) <|
    let e := (l.map s.wideNs).foldl max 0
    let lct := (l.map s.lct).foldl minOpt none
    let fits := match lct with
      | some t => decide (s.now + e ≤ t)
      | none => true
    .each l fun x => if fits then rerunCmd x.id else .cmd x.id fun y => { y with declined := true }

/-- The results of the present run of an engine command or a transfer are formed, its clips counted, and a wide re-run
decided on. An input unit whose zero runs are malformed is a format error of the engines that load it (R222). -/
def computeRun (id : Nat) : Act := .withCmd id fun c => .fresh fun fr => .get fun s => .all
  [.when (s.badRuns c) (.each c.engines fun p => .err .ENG p 1),
   keepRun id (s.markRemoved c (s.runOut c fr)), .withCmd id addClips, wideDecision id]

/-- Have all parts of an engine command passed their tiles? -/
def State.allTilesDone (s : State) (c : Cmd) : Bool :=
  c.engines.zipIdx.all fun (p, k) => c.parts.contains k ||
    ((s.eng p).cmd == some c.id && (s.eng p).part == k && decide ((s.eng p).tiles ≤ (s.eng p).done) && !(s.eng p).pre)

/-! ### Staging (R416, R444) -/


/-- Part `k` of a command is staged: its engine is free, its time charged; the last part stages the command. -/
def stagePart (id k : Nat) : Act := .withCmd id fun c => .get fun s =>
  let p := c.engines.getD k 36
  if s.lctPassed c && Desc.dlAbort c.desc then endRequest id stTIMEOUT 0x4A 0xFFFF true
  else .all
    [.when ((s.eng p).cmd == some id) (.all [accrue, chargeEngines c [p] .own, releaseEng p]),
     .cmd id fun x => { x with parts := x.parts ++ [k], late := x.late || s.lctPassed c },
     .withCmd id fun c => .when (decide (max 1 c.engines.length ≤ c.parts.length)) <|
       .seq (releaseBlocks id) (.cmd id fun x => { x with phase := .staged })]

/-- Stage a whole command at once, then commit its request if it is complete. -/
def stageAll (id : Nat) : Act := .withCmd id fun c => .seq
  (.each ((List.range (max 1 c.engines.length)).filter fun k => !c.parts.contains k) (stagePart id)) (commitAct id)

/-- EMPTY_COMMAND_COMPLETE (R152). -/
def emptyCompleteAct (id : Nat) : Act := .withCmd id fun c => .when (c.empty && c.phase == .running) <|
  .seq (.get fun s => keepRun id { outs := s.emptyOuts c }) (stageAll id)

/-- ZERO_K_COMPLETE (R153): the results of a product without reduction. -/
def zeroKAct (p : Nat) : Act := .get fun s => match s.runningOn p with
  | none => .nil
  | some c => .when (Desc.opcode c.desc == opMATMUL && Desc.k c.desc == 0 && !c.empty && !(s.eng p).pre && c.phase == .running) <|
      .seq (.when (!c.computed) (computeRun c.id)) <|
        .withCmd c.id fun x => .when (x.computed && s.allTilesDone x) (stageAll c.id)

/-! ### Order (R422) -/

/-- R422: slack of a command, `none` for infinite. -/
def State.slack (s : State) (c : Cmd) : Option Int := (s.lct c).map fun t => (t : Int) - s.now - s.estNs c

/-- R422: the group a ready command belongs to. -/
def State.orderGroup (s : State) (c : Cmd) : Nat :=
  if c.cls = 2 then 0
  else if !c.rerun.isEmpty then 1
  else if c.cls == 1 && (match s.slack c with
    | some x => decide (x ≤ ((s.fld Reg.DISP.URGENT 15 0 * 1000 : Nat) : Int))
    | none => false) then 2
  else if c.cls = 0 then 4 else 3

/-- The lower LCT, no LCT last. -/
def lctCmp (a b : Option Nat) : Ordering := match a, b with
  | some x, some y => compare x y
  | some _, none => .lt
  | none, some _ => .gt
  | none, none => .eq

/-- R422: does `a` come before `b`? -/
def State.before (s : State) (a b : Cmd) : Bool :=
  let g := s.orderGroup a
  let o := compare g (s.orderGroup b)
  let lct := lctCmp (s.lct a) (s.lct b)
  let vt := compare (s.ctx a.ctx).vt (s.ctx b.ctx).vt
  let id := compare a.id b.id
  (o.then (if g ≤ 1 then id else if g = 2 then lct.then id else if g = 3 then vt.then (lct.then id) else vt.then id)) == .lt

/-- R419: a command with FENCE 1 waits for every earlier-admitted command of its context. -/
def State.fenceOk (s : State) (c : Cmd) : Bool :=
  !Desc.fence c.desc || (!(s.hw.disp.cmds.any fun x => x.ctx == c.ctx && decide (x.id < c.id)) && (s.ctx c.ctx).waiting.isEmpty)

/-! ### Placement (R426, R427) -/

/-- R426: score of logical engine `l` (physical `p`) for a command. -/
def State.score (s : State) (c : Cmd) (p : Nat) : Nat :=
  let addr := if ((opUse (Desc.opcode c.desc)).map (·.w)).getD false then Desc.wAddr c.desc else Desc.paramAddr c.desc
  if (match c.inSlot with
    | some (n, i) => s.hw.disp.holds.contains (p, n, i)
    | none => false) then 0
  else if addr < commonsSize ∧ addr / 0x800000 / 4 = p / 9 then 1
  else if p / 9 = s.ctxHome c.ctx then 2 else 3

/-- Can the FCE of stripe `st` serve a CONV command (or its fallback, R159)? -/
def State.fceOk (s : State) (d : BitVec 512) (st : Nat) : Bool :=
  !s.namesFce d ||
  (let state := s.fld (Reg.FCE.FCE_STATE st) 3 0
   state == eFAULT || (state == eIDLE && (s.fce st).cmd.isNone && s.bit (Reg.FCE.FCE_CTRL st) 0 && !s.bit (Reg.FCE.FCE_CTRL st) 1))

/-- R209: the logical engine the swatch of a band command on one engine runs on, while it is mapped and the command may use it
(DESIGN CHOICE where it is not: any engine, log entry 76). -/
def State.swatchEng (s : State) (c : Cmd) : Option Nat := match c.input with
  | some u => if Desc.opcode c.desc = opCONV ∧ Desc.engCnt c.desc ≤ 1 then
      (s.swatchOf c u.item).eng.filter fun l => (s.usable c.ctx c.cls c.desc).contains l && (s.physOf l).isSome
    else none
  | none => none

/-- The logical engines command `c` may be placed on. -/
def State.choices (s : State) (c : Cmd) : List Nat := match s.swatchEng c with
  | some l => [l]
  | none => s.usable c.ctx c.cls c.desc

/-- R209, R215: does a band of a swatch wait for an earlier band of its item? -/
def State.bandWaits (s : State) (c : Cmd) : Bool :=
  Desc.opcode c.desc == opCONV && s.hw.disp.cmds.any fun x =>
    Desc.opcode x.desc == opCONV && decide (x.id < c.id) && x.ctx == c.ctx && Desc.inStream x.desc == Desc.inStream c.desc &&
    (Desc.splitId c.desc == 0 || Desc.splitId x.desc != Desc.splitId c.desc) &&
    (match x.input, c.input with
     | some a, some b => a.item == b.item
     | _, _ => false)

/-- Idle engines for a command, best first: physical engines in ascending order of score, then of logical number. -/
def State.idleFor (s : State) (c : Cmd) : List Nat :=
  let l := (s.choices c).filterMap fun l => (s.physOf l).bind fun p =>
    if s.engFree p ∧ s.fceOk c.desc (p / 9) then some (s.score c p, l, p) else none
  (sortBy (fun a b => decide (a.1 < b.1) || (a.1 == b.1 && decide (a.2.1 < b.2.1))) l).map (·.2.2)

/-- R426: what remains of the command on engine `p`, ns: its estimate less the time since its dispatch. -/
def State.remainingNs (s : State) (p : Nat) : Nat := match s.runningOn p with
  | some y => s.estNs y - (s.now - (s.eng p).start)
  | none => 0

/-- R426: does a busy engine that scores lower than `best` and is soon done make the command wait? -/
def State.placeWaits (s : State) (c : Cmd) (best : Nat) : Bool :=
  (s.phys (s.choices c)).any fun p => (s.runningOn p).isSome && decide (s.score c p < best) &&
    decide (s.remainingNs p < s.fld Reg.DISP.PLACE_WAIT 15 0)

/-- R457: would `e` more engines keep the function within ENG_LIMIT? -/
def State.limitOk (s : State) (c : Cmd) (e : Nat) : Bool :=
  let f := s.ctxFunc c.ctx
  let n := s.fld (Reg.FUNC.QOS f) 21 16
  let used := (List.range 36).filter fun p => match s.runningOn p with
    | some y => y.cls != 2 && s.ctxFunc y.ctx == f
    | none => false
  c.cls == 2 || n == 0 || decide (used.length + e ≤ n)

/-- R427: `e` engines of `l`: in one stripe when `e` is at most 8, the stripe of the best engine that has enough. -/
def pickEngines (e : Nat) (l : List Nat) : Option (List Nat) :=
  if 8 < e then (if l.length < e then none else some (l.take e))
  else (l.map fun p => l.filter fun q => q / 9 == p / 9).find? (fun g => decide (e ≤ g.length)) |>.map (·.take e)

/-- The engines for a command that holds none: as many as ENG_CNT names. -/
def State.enginesFor (s : State) (c : Cmd) : Option (List Nat) :=
  let e := Desc.engCnt c.desc
  let idle := s.idleFor c
  if !s.limitOk c e then none
  else match pickEngines e idle with
    | none => none
    | some g =>
      let best := s.score c (g.headD 0)
      if e = 1 ∧ s.placeWaits c best then none else some g

/-- Parts of a running command that need an engine again, with the engine each gets: pre-empted and saved parts on any
idle engine, those of a wide re-run on their own (R194, R444). -/
def State.partEngine (s : State) (c : Cmd) : Option (Nat × Nat) :=
  match c.rerun.find? fun k => s.engFree (c.engines.getD k 36) with
  | some k => some (k, c.engines.getD k 36)
  | none =>
    match (c.lost ++ c.saved.map (·.1)).head? with
    | some k => if s.limitOk c 1 then (s.idleFor c).head?.map fun p => (k, p) else none
    | none => none

/-- Is the block of a command that runs on none of the engines free? -/
def State.blockFree (s : State) (c : Cmd) : Bool :=
  match Desc.opcode c.desc with
  | 0x08 => c.noVocab || (s.bit Reg.TXT.TXT_CTRL 0 && s.hw.txt.tok.isNone)
  | 0x09 => c.noVocab || (s.bit Reg.TXT.TXT_CTRL 0 && s.hw.txt.detok.isNone)
  | 0x0A => false
  | 0x0B => s.bit Reg.JPG.JPG_CTRL 0 && s.hw.blk.jpg.isNone
  | 0x0C => s.bit Reg.AUG.AUG_CTRL 0 && s.hw.blk.aug.isNone
  | _ => true

/-- May a command be placed now, and where? `none`: not now. -/
def State.placeable (s : State) (c : Cmd) : Bool :=
  if c.phase = .running then (s.partEngine c).isSome
  else c.phase == .ready && s.fenceOk c && !s.attnWaits c.id && !s.bandWaits c &&
    (if onEngine (Desc.opcode c.desc) then (s.enginesFor c).isSome else s.blockFree c)

/-! ### Checks before the first load -/

/-- R173: a quantisation record of the command is refused. -/
def State.recRefused (s : State) (d : BitVec 512) : Bool :=
  if Desc.opcode d = opMATMUL then
    let q := s.mmRec d
    q.refused false (Desc.auxAddr d != 0) (s.weightZps q (Desc.m d) (Desc.k d))
  else if Desc.opcode d = opCONV then (s.layers d).any fun l =>
    if l.fce then fceRecBad l.q (l.bias != 0) l.lastMode
    else l.q.refused false (l.bias != 0) (s.weightZps l.q l.cout (l.cin / max 1 l.groups * l.kh * l.kw))
  else false

/-- R754: the input unit does not match a MATMUL or CONV. -/
def State.unitRefused (s : State) (c : Cmd) : Bool :=
  let u := s.source c
  if u.payload.isEmpty then false
  else if Desc.opcode c.desc = opMATMUL then
    !unitFits (s.mmRec c.desc) u || decide (u.payload.length ≠ Desc.n c.desc * rowBytes u.fmt.toNat (Desc.k c.desc))
  else if Desc.opcode c.desc = opCONV then match (s.layers c.desc).head? with
    | some l => !unitFits l.q u
    | none => false
  else false

/-- How a command ends before it starts: status, DETAIL, whether it emits the unit of R756. -/
def State.startRefused (s : State) (c : Cmd) : Option (Nat × Nat × Bool) :=
  if c.noVocab then some (stFAULT, 0, true)
  else if s.classWrong c then some (stFAULT, 0x4B, true)
  else if s.recRefused c.desc then some (stFAULT, 0x46, false)
  else if !c.empty && s.unitRefused c then some (stFAULT, 0x4E, true)
  else if (s.partners c).any fun d => s.bit Reg.LINK.ROUTE_LOST d then some (stABORTED, 0x44, false)
  else none

/-! ### Placing -/

/-- R426: the stores of engines `ps` hold the input unit of the command they take. -/
def setHolds (c : Cmd) (ps : List Nat) : Act := .disp fun d => { d with
  holds := (d.holds.filter fun h => !ps.contains h.1) ++ (match c.inSlot with
    | some (n, i) => ps.map fun p => (p, n, i)
    | none => []) }

/-- R164: an FCE takes a command. -/
def startFce (c : Cmd) (st : Nat) : Act := .get fun s =>
  .when (s.namesFce c.desc && s.fld (Reg.FCE.FCE_STATE st) 3 0 == eIDLE) <|
    let taps := match (s.layers c.desc).head? with
      | some l => l.kh * l.kw * l.cin
      | none => 0
    let last := match (s.layers c.desc).head? with
      | some l => l.lastMode
      | none => false
    .all [.fce st fun f => { cmd := some c.id, corr := f.corr },
          .wrN (Reg.FCE.FCE_STATE st) (eRUN + 16 * b2n last + 32 * min (max 1 (ceilDiv taps 16)) 16 + 65536 * c.ctx)]

/-- First issue: class 2's waiting is recorded (R449, R451). -/
def firstIssue (c : Cmd) : Act := .get fun s =>
  let w := s.now - c.readyAt
  .seq (.cmd c.id fun x => { x with phase := .running, issued := some (x.issued.getD s.now) }) <|
    .when (c.cls == 2 && onEngine (Desc.opcode c.desc))
      (.seq (.maxReg Reg.DISP.CLASS2_WAIT_MAX w) (.when (decide (1000 < w)) (dispRaise 8)))

/-- A part gets an engine again: a saved one is read back first (R441). -/
def placePart (c : Cmd) (k p : Nat) : Act :=
  let sv := c.saved.find? fun x => x.1 == k
  .all [accrue, startPart c.id k p (sv.map (·.2.2) |>.getD 0) false,
        .cmd c.id fun x => { x with
          phase := .running, rerun := x.rerun.filter (· != k), lost := x.lost.filter (· != k),
          restoring := if sv.isSome then x.restoring ++ [k] else x.restoring },
        setHolds c [p]]

/-- A ready command starts: what it reads of the commons meets the words poisoned and the errors injected (R20, R21); what the
code finds in those words is told at the commit point (`PartEnd`). -/
def placeCmd (c : Cmd) : Act := .get fun s =>
  match s.startRefused c with
  | some (st, d, emit) => endRequest c.id st d 0xFFFF emit
  | none => .seq (.when (!c.empty) (.each (s.allRanges c) fun r => commonsRead [] r.1 r.2)) <| .get fun s =>
    if !c.empty && s.readsPoisoned c then frogAct c.id 0x42 0xFFFF
    else if onEngine (Desc.opcode c.desc) then
      match s.enginesFor c with
      | none => .nil
      | some ps => .all
        [accrue, .cmd c.id (fun x => { x with engines := ps }), firstIssue c,
         (if c.saved.isEmpty then .each ps.zipIdx fun (p, k) => startPart c.id k p 0 false
          else .seq (.each ps.zipIdx fun (p, k) =>
                 startPart c.id k p ((c.saved.find? fun x => x.1 == k).map (·.2.2) |>.getD 0) false)
               (.cmd c.id fun x => { x with restoring := x.saved.map (·.1) })),
         setHolds c ps, startFce c (ps.headD 0 / 9)]
    else .all
      [accrue, firstIssue c,
       .hw (fun h => { h with
         txt := { h.txt with tok := if Desc.opcode c.desc = opTOKENISE then some c.id else h.txt.tok
                             detok := if Desc.opcode c.desc = opDETOKENISE then some c.id else h.txt.detok }
         blk := { jpg := if Desc.opcode c.desc = opJPEG then some c.id else h.blk.jpg
                  aug := if Desc.opcode c.desc = opAUGMENT then some c.id else h.blk.aug } }),
       .when (remoteWait (Desc.opcode c.desc)) (.cmd c.id fun x => { x with remote := some s.now }),
       .when (remoteOp (Desc.opcode c.desc)) (remoteStart c)]

/-- COMMAND_PLACE: the first command of R422's order that can be placed is placed. -/
def commandPlaceAct : Act := .get fun s =>
  .when (s.bit Reg.DISP.DISP_CTRL 0 && !s.hw.boot.frozen) <|
    match leastBy s.before (s.hw.disp.cmds.filter s.placeable) with
    | none => .nil
    | some c =>
      if c.phase = .running then match s.partEngine c with
        | some (k, p) => placePart c k p
        | none => .nil
      else placeCmd c

end Sys2Proof.Machine
end

