-- ==== Sys2Proof/Machine/Vector.lean ====
section
/-! DEFINITION. The vector unit (R148, R149, R200): what each operation makes of its operands in the engine store, and what its
modulo-3 residue check sees. Lane results the manual does not state are open (Config.vuOpen, log entry 9). -/

namespace Sys2Proof.Machine

/-! ### Operations of one lane (R148) -/

/-- A number for an operation, under which its open results stand. -/
def vecNum : VecOp → Nat
  | .fma => 0 | .fadd => 1 | .fmul => 2 | .fmin => 3 | .fmax => 4 | .flt => 5 | .feq => 6
  | .iadd => 7 | .isub => 8 | .ishl => 9 | .ishr => 10 | .isar => 11 | .iand => 12 | .ior => 13 | .ixor => 14
  | .ilt => 15 | .ieq => 16 | .select => 17 | .exp2 => 18 | .log2 => 19 | .recip => 20 | .rsqrt => 21
  | .sumLanes => 22 | .maxLanes => 23 | .argmaxLanes => 24
  | .fromFmt f => 256 + f.toNat | .intoFmt f => 512 + f.toNat | .intToF => 25 | .fToInt => 26

/-- a × b + c, rounded once. -/
def Val.fma (a b c : Val) : Val := match a, b with
  | .fin x, .fin y => match c with
    | .fin z => ieee32 ((x.mul y).add z)
    | v => v
  | _, _ => (a.mul b).add c

/-- Square root of `n`, rounded down: the `k` bits below the one that `acc` ends at. -/
def isqrtBits : Nat → Nat → Nat → Nat
  | 0, _, acc => acc
  | k + 1, n, acc => let a := acc + 2 ^ k; isqrtBits k n (if a * a ≤ n then a else acc)

/-- 1 ÷ x within 1 unit in the last place (R148). -/
def vuRecip (x : Val) : Val := match x with
  | .nan => .nan
  | .inf n => .fin { neg := n }
  | .fin d =>
    if d.m = 0 then .inf d.neg
    else
      let g := nearGrid ((Config.vuError 2 (fFP32.encode d)).toNat % 2 + 1) ((Dy.ofInt 1).div 60 d.abs)
      ieee32 { g with neg := d.neg }

/-- 1 ÷ √x within 1 unit in the last place (R148). -/
def vuRsqrt (x : Val) : Val := match x with
  | .nan => .nan
  | .inf n => if n then .nan else .fin {}
  | .fin d =>
    if d.m = 0 then .inf d.neg
    else if d.neg then .nan
    else
      let m := if d.e % 2 = 0 then d.m else 2 * d.m
      let e := if d.e % 2 = 0 then d.e else d.e - 1
      let r := isqrtBits 61 (2 ^ 120 / m) 0
      ieee32 (nearGrid ((Config.vuError 3 (fFP32.encode d)).toNat % 2 + 1) { m := r, e := -60 - e / 2 })

/-- What a comparison writes for its outcome: the manual gives no representation. -/
def vecTruth (b : Bool) : Nat := (Config.vuOpen 5 (b2n b) 0).toNat

/-- The smaller value; which zero, or what with a NaN, is open. -/
def vecMin (op : Nat) (a b : Nat) (less : Bool) : Nat :=
  let x := f32 a
  let y := f32 b
  if x = .nan ∨ y = .nan ∨ (x.isZero ∧ y.isZero) then (Config.vuOpen op a b).toNat
  else if (if less then x.lt y else y.lt x) then a else b

/-- The result word of one lane. -/
def laneOp (op : VecOp) (a b c : Nat) : Nat :=
  let w (i : Int) : Nat := uns 32 i
  let shift (f : Nat → Nat) : Nat := if b < 32 then f b else (Config.vuOpen (vecNum op) a b).toNat
  match op with
  | .fma => ((f32 a).fma (f32 b) (f32 c)).code32
  | .fadd => ((f32 a).add (f32 b)).code32
  | .fmul => ((f32 a).mul (f32 b)).code32
  | .fmin => vecMin (vecNum op) a b true
  | .fmax => vecMin (vecNum op) a b false
  | .flt => vecTruth (f32 a != .nan && f32 b != .nan && (f32 a).lt (f32 b))
  | .feq => vecTruth (f32 a != .nan && f32 b != .nan && !(f32 a).lt (f32 b) && !(f32 b).lt (f32 a))
  | .iadd => w (a + b : Nat)
  | .isub => w ((a : Int) - b)
  | .ishl => shift fun n => (a <<< n) % 2 ^ 32
  | .ishr => shift fun n => a >>> n
  | .isar => shift fun n => w (sgn 32 a / 2 ^ n)
  | .iand => a &&& b
  | .ior => a ||| b
  | .ixor => a ^^^ b
  | .ilt => vecTruth (decide (sgn 32 a < sgn 32 b))
  | .ieq => vecTruth (a == b)
  | .select => if c = vecTruth true then a else if c = vecTruth false then b else (Config.vuOpen (vecNum op) c 0).toNat
  | .exp2 => (vuExp2 (f32 a)).code32
  | .log2 => (vuLog2 (f32 a)).code32
  | .recip => (vuRecip (f32 a)).code32
  | .rsqrt => (vuRsqrt (f32 a)).code32
  | .intToF => (toF32 (.fin (Dy.ofInt (sgn 32 a)))).code32
  | .fToInt => vecConvert 0x13 (f32 a)
  | _ => 0

/-! ### Vectors -/

/-- R200: FP32 values in an array format, packed; an MX row is that of R170, its block exponents those of R177. The element codes
of a block that holds a NaN are open. -/
def vecPack (fmt : Nat) (l : List Val) : List Byte :=
  if fmtMX fmt then
    let w := fmtWidth fmt
    (Machine.chunks 256 l).flatMap fun sb =>
      let bl := (Machine.chunks 32 sb).map fun b =>
        if b.contains .nan then (255, (List.range b.length).map fun i => (Config.vuOpen (512 + fmt) i 0).toNat % 2 ^ w)
        else
          let xs := b.map fun v => (cleanVal fFP32.largest v).1
          let e := mxExp fmt (maxAbs xs)
          (e.toNat, xs.map fun x =>
            let d := (mxElem fmt e x).1
            match fmtFloat fmt with
            | some f => f.encode d
            | none => uns 8 ({ d with e := d.e + 6 } : Dy).floor)
      (List.range 8).map (fun i => BitVec.ofNat 8 ((bl.map (·.1)).getD i 127)) ++
        pack w ((bl.flatMap (·.2)) ++ List.replicate (256 - sb.length) 0)
  else pack (fmtWidth fmt) (l.map (vecConvert fmt))

/-- The `n` 32-bit words of engine `p`'s store from `a` on; beyond its end there are none. -/
def State.esWords (s : State) (p a n : Nat) : List Nat :=
  (List.range n).map fun i => if a + 4 * i + 4 ≤ 0x400000 then leNat (s.readEs p (a + 4 * i) 4) else 0

/-- What an instruction writes from its destination on, lane after lane, changed by `alt` (lane, amount). -/
def State.vecRun (s : State) (p : Nat) (i : VecInstr) (alt : List (Nat × Int)) : List Byte :=
  let n := i.lanes.val
  let a := s.esWords p i.a.toNat n
  let b := s.esWords p i.b.toNat n
  let c := s.esWords p i.c.toNat n
  let hit (l : List Nat) : List Byte := l.zipIdx.flatMap fun (x, j) =>
    leBytes 4 (uns 32 ((x : Int) + ((alt.filter fun y => y.1 == j).map (·.2)).sum))
  match i.op with
  | .sumLanes => hit [(laneSum 8 (a.map f32)).code32]
  | .maxLanes => hit [(argmaxOf (a.map f32)).2.code32]
  | .argmaxLanes => hit [(argmaxOf (a.map f32)).1]
  | .fromFmt fmt => hit ((rowCodes fmt.toNat n (s.readEs p i.a.toNat (min (rowBytes fmt.toNat n) (0x400000 - i.a.toNat)))).map fun (x, sc) =>
      (toF32 (scaled (elemVal fmt.toNat x) sc)).code32)
  | .intoFmt fmt => vecPack fmt.toNat (a.map f32)
  | op => hit ((List.range n).map fun j => laneOp op (a.getD j 0) (b.getD j 0) (c.getD j 0))

/-- R149: does the residue check pass? A change that is a multiple of 3 leaves every residue as it is. -/
def residueOk (alt : List (Nat × Int)) : Bool := alt.all fun x => x.2 % 3 == 0

end Sys2Proof.Machine
end

