-- ==== Sys2Proof/Machine/Engine.lean ====
section
/-! DEFINITION. Engines and few-channel engines at work (03_engines_and_arrays): loads, rows, checks, recovery, repair,
faults, error injection, the vector unit, the engine store; and the commit point of every command (R416). -/

namespace Sys2Proof.Machine

/-! ### Errors an engine meets -/

/-- R427: PART of a frog on part `k`: the engine index for a command placed on several engines. -/
def Cmd.partNo (c : Cmd) (k : Nat) : Nat := if 1 < Desc.engCnt c.desc then k else 0xFFFF

/-- Frog the command engine `p` runs, for a cause. -/
def frogOn (p detail : Nat) : Act := .get fun s => match s.runningOn p with
  | some c => frogAct c.id detail (c.partNo (s.eng p).part)
  | none => .nil

/-- R142: a mismatch on a class 2 command is reported to SAFE with its context when it is detected. -/
def report (p : Nat) : Act := .get fun s => match s.runningOn p with
  | some c => .when (c.cls == 2) (.event (.report p c.ctx))
  | none => .nil

/-- R503: a mismatch on a class 2 command counts as a transient: a row mismatch that one re-issue corrected, a tile-end
mismatch. -/
def mismatch (p : Nat) : Act := .get fun s => match s.runningOn p with
  | some c => .when (c.cls == 2) (.event (.mismatch p c.ctx))
  | none => .nil

/-- R147, R149: engine `p` enters FAULT, its first failing check having been at TSC `t`; its command is returned for frogging;
DARN is asked for a spare. -/
def engineFault (p t : Nat) : Act := .get fun s => .all
  [frogOn p 0x41,
   .eng p fun e => { dummy := e.dummy, corr := e.corr, idleSince := s.now },
   setEngState p eFAULT, .raise .ENG p 1, .event (.engFault p t),
   .event (.darn { kind := 1, inst := p / 9, unit := p, cause := 0 })]

/-- R150: the bank of an engine-store word, bits [10:6] of its address, and its row of 1 KiB in the store, the banks' rows
following one another (log entry 50). -/
def esBank (w : Nat) : Nat := w / 8 % 32
def esRow (w : Nat) : Nat := esBank w * 128 + w / 4096

/-- R151: what a read of engine-store word `w` holds: counted, and reported to DARN with its row (R669); an uncorrectable error
stops the command of the engine. -/
def esEcc (p w : Nat) (e : EccError) : Act :=
  match e with
  | .none => .nil
  | .corr => .seq (.satFld (Reg.ENG.ES_ECC p) 15 0 1) (.event (.rowErr p (esRow w) false))
  | .uncorr => .all [.satFld (Reg.ENG.ES_ECC p) 31 16 1, .raise .ENG p 2, .event (.storeFault p), .event (.rowErr p (esRow w) true),
                     frogOn p 0x42]

/-- R151, R758: engine `p` reads its store for its command; the command's first read meets what INJ_ES1 or INJ_ES2 asked for when
the engine took the command, and those bits clear. `k` follows unless the command is stopped. -/
def esRead (p : Nat) (rd : StoreRead) (k : Act) : Act := .get fun s =>
  let e := s.eng p
  let inj := if e.firstRead then e.injEs else 0
  let ecc : EccError := if inj.testBit 1 then .uncorr else if inj.testBit 0 then .corr else rd.ecc
  .all [.when (inj != 0) (.modReg (Reg.ENG.INJECT p) fun w => w &&& ~~~(BitVec.ofNat 32 (4 * inj))),
        .eng p fun x => { x with firstRead := false, injEs := 0 },
        esEcc p rd.word.toNat ecc, .when (ecc != .uncorr) k]

/-- ENGINE_STORE_SCRUB (R151). -/
def esScrubAct (p w : Nat) (e : EccError) : Act := .get fun s => .when (s.engState p != eOFF) (esEcc p w e)

/-! ### Pre-pass, shape, load (R126, R133, R178) -/

/-- The pre-pass may be running or the engine be loading: it has a command and is not held by recovery or a restore. -/
def State.engActive (s : State) (p : Nat) : Bool := match s.runningOn p with
  | some c => c.phase == .running && (s.eng p).diag == 0 && !c.restoring.contains (s.eng p).part &&
      (match c.saving with
       | some x => x.1 != (s.eng p).part
       | none => true)
  | none => false

/-- PRE_PASS_DONE (R178, R758). -/
def prePassAct (p : Nat) (rd : StoreRead) : Act := .get fun s =>
  .when (s.engActive p && (s.eng p).pre) (esRead p rd (.eng p fun e => { e with pre := false }))

/-- R134: dummy rows in `n` cycles with issue interval `c`: `lv` of every 8 issue slots. -/
def dummySlots (n lv c : Nat) : Nat := n * lv / (8 * max c 1)

/-- SHAPE_CHANGE (R133, R134): 16 cycles of configuration, after a drain of 260, in which dummy rows are issued, when a shape was
in force. -/
def shapeChangeAct (p : Nat) : Act := .get fun s =>
  let e := s.eng p
  let prev := s.fld (Reg.ENG.ENG_STATE p) 6 4
  let c := ((s.curLoad p).getD {}).c
  .when (s.engActive p && e.shapeTo != 0) <| .all
    [.setFld (Reg.ENG.ENG_STATE p) 6 4 e.shapeTo, .eng p (fun x => { x with shapeTo := 0 }),
     .when (prev != 0) (.seq (.bump (Reg.ENG.SWITCH_CNT p) 1) (.bump (Reg.ENG.DUMMY_CYC p) (dummySlots 260 (s.dummyLevel p) c)))]

/-- R134, R135: dummy rows of one stationary load of 128 cycles: LEVEL of every 8 issue slots; in the first load after idle the
level rises from `d` by one every RAMP_STEP cycles. -/
def State.loadDummy (s : State) (p c : Nat) : Nat :=
  let lv := s.dummyLevel p
  match (s.eng p).rampFrom with
  | some d => sumNat ((List.range 128).map fun t => min lv (d + t / max 1 (s.fld (Reg.ENG.DUMMY p) 23 16))) / (8 * max c 1)
  | none => dummySlots 128 lv c

/-- STATIONARY_LOAD_DONE (R126, R140 steps 4 and 9): LOAD_CYC counts its 128 cycles; INJ_ROW and INJ_PAIR are for the tile it
begins (R161). -/
def loadDoneAct (p : Nat) (rd : StoreRead) : Act := .get fun s => match s.curLoad p with
  | none => .nil
  | some ld =>
    let x := s.eng p
    let new := x.rows == 0 && x.fails.isEmpty
    let inj := s.rd (Reg.ENG.INJECT p)
    .when (s.engActive p && !x.pre && x.shapeTo == 0 && !x.loaded) <| esRead p rd <| .all
      [.bump (Reg.ENG.LOAD_CYC p) 128, .bump (Reg.ENG.DUMMY_CYC p) (s.loadDummy p ld.c),
       .eng p fun y => { y with
         loaded := true, flight := 0, dummyUp := false, rampFrom := none, dummy := if y.dummyUp then s.dummyLevel p else y.dummy,
         injRow := if new then inj.getLsbD 0 else y.injRow, injPair := if new then inj.getLsbD 1 && !y.pairNext else y.injPair }]

/-- DUMMY_RAMP_STEP (R135): up by one eighth while a command starts from idle; down in a gap longer than GAP, every RAMP_STEP
cycles, the slots since the last step counted. -/
def dummyRampAct (p : Nat) : Act := .get fun s =>
  let e := s.eng p
  let lv := s.dummyLevel p
  let gap := s.fld (Reg.ENG.DUMMY p) 15 4
  let step := s.fld (Reg.ENG.DUMMY p) 23 16
  let down (n : Nat) : Act := .seq (.bump (Reg.ENG.DUMMY_CYC p) (dummySlots n e.dummy 1))
    (.eng p fun x => { x with dummy := x.dummy - 1, rampAt := some s.now })
  if e.cmd.isSome then .when e.dummyUp (.eng p fun x => { x with dummy := min lv (x.dummy + 1), dummyUp := decide (x.dummy + 1 < lv) })
  else match e.rampAt with
    | none => .when (decide (cyclesNs gap (s.engClock p) < s.now - e.idleSince)) (down gap)
    | some t => .when (decide (t + cyclesNs step (s.engClock p) ≤ s.now)) (down step)

/-! ### Rows (R124, R137, R140) -/

/-- R162: a corrected mismatch. -/
def corrected (p : Nat) : Act := .get fun s =>
  .eng p fun e => { e with corr := s.now :: e.corr.filter fun t => decide (s.now < t + 1000000000) }

/-- R424: recovery ends with the last row that R140 held. -/
def endRecovery (p : Nat) : Act := .get fun s =>
  .when ((s.eng p).fails.isEmpty && (s.eng p).recFrom.isSome) <| .seq
    (.eng p fun e => { e with recNs := e.recNs + (s.now - e.recFrom.getD s.now), recFrom := none })
    (.when (s.engState p == eRECOVER) (setEngState p eRUN))

/-- Row `row` has passed: written, the changes it carries among the totals of the checksum row; a row held leaves the recovery. -/
def rowPass (p row : Nat) (l : List Delta) : Act := .get fun s =>
  let n := (s.eng p).fails.find? fun f => f.1 == row
  .all [.when (n == some (row, 1)) (.seq (.bump (Reg.ENG.CHK_ROW p) 1) (mismatch p)),
        .when (match n with
          | some (_, k) => k != 0
          | none => false) (corrected p),
        .eng p fun e => { e with fails := e.fails.filter fun f => f.1 != row, rows := e.rows + 1, acc := e.acc ++ l },
        endRecovery p]

/-- R140: row `row`, of a load of `ld.rows`, fails for the first, second or third time. At the second issue stops, and the rows
issued in the last 260 cycles are still in flight. -/
def rowFail (p row : Nat) (ld : Load) : Act := .get fun s =>
  let n := match (s.eng p).fails.find? fun f => f.1 == row with
    | some (_, k) => k
    | none => 0
  .all [report p,
        .eng p fun e => { e with fails := (e.fails.filter fun f => f.1 != row) ++ [(row, min 3 (n + 1))],
                                 recFrom := some (e.recFrom.getD s.now),
                                 loaded := if n = 1 then false else e.loaded, diag := if n = 2 then 1 else e.diag },
        .when (n == 1) (.all
          [setEngState p eRECOVER, .bump (Reg.ENG.DUMMY_CYC p) (dummySlots 260 (s.dummyLevel p) ld.c),
           .eng p fun e => { e with flight := min (ld.rows - (e.rows + e.fails.length)) (ceilDiv 260 (max 1 ld.c)) }]),
        .when (n == 2) (.seq (.bump (Reg.ENG.CHK_PERM p) 1) (setEngState p eDIAG))]

/-- The physical column that no logical one uses (R144, R146). -/
def State.deadCol (s : State) (p : Nat) : Nat := if s.bit (Reg.ENG.ARR_REPAIR p) 9 then s.fld (Reg.ENG.ARR_REPAIR p) 17 10 else 129

/-- R161: what INJ_ROW and INJ_PAIR change, `col` being INJ_COL: the first within one row check, the second within none. -/
def injRowDelta (col : Nat) : List Delta := [(0, col, 1)]
def injPairDelta (col : Nat) : List Delta := [(0, col, 1), (0, (col + 1) % 128, -1)]

/-- May row `row` be checked now? A row held is re-issued once the tile is loaded; the next new row follows those checked before,
and while the array drains (R140 step 4) those already issued do. -/
def State.rowDue (s : State) (p row : Nat) (ld : Load) : Bool :=
  let e := s.eng p
  s.engActive p && !e.pre && e.shapeTo == 0 &&
    (if e.fails.any fun f => f.1 == row then e.loaded
     else row == e.rows + e.fails.length && decide (row < ld.rows) && (e.loaded || decide (0 < e.flight)))

/-- ROW_CHECK (R124 step 4, R137, R140, R161): weight row `row` of the present load, `alt` what faults have changed in the
quantities compared. A new row reads its weights (R151); a re-issue takes them from the replay window. -/
def rowCheckAct (p row : Nat) (rd : StoreRead) (alt : CheckAlt) : Act := .get fun s => match s.curLoad p with
  | none => .nil
  | some ld =>
    let e := s.eng p
    let held := e.fails.any fun f => f.1 == row
    let col := s.fld (Reg.ENG.INJECT p) 14 8
    let first := !held && row == 0
    let injRow := e.injRow && first
    let injPair := !held && (e.pairNext || (e.injPair && first && !injRow))
    let sums := altDeltas alt (s.deadCol p) ++ (if injRow then injRowDelta col else [])
    let check : Act := .all
      [.bump64 (Reg.ENG.ISSUE_CYC_LO p) (Reg.ENG.ISSUE_CYC_HI p) 1,
       .when injRow (.setFld (Reg.ENG.INJECT p) 0 0 0), .when injPair (.setFld (Reg.ENG.INJECT p) 1 1 0),
       .eng p fun x => { x with
         injRow := x.injRow && !injRow, injPair := x.injPair && !injPair && !injRow, pairNext := injRow && e.injPair,
         flight := if held then x.flight else x.flight - 1 },
       if rowMismatch (ld.c == 4) alt.big ld.shape sums (altChecks alt) then rowFail p row ld
       else rowPass p row (sums ++ (if injPair then injPairDelta col else []) ++ altChecks alt)]
    .when (s.rowDue p row ld) (if held then check else esRead p rd check)

/-- TRANS_THRESH_REACHED (R162, R165): corrected mismatches have reached the threshold within one second. -/
def transThreshAct (u : ArrayUnit) : Act := .get fun s =>
  match u with
  | .eng p =>
    let n := ((s.eng p).corr.filter fun t => decide (s.now < t + 1000000000)).length
    .when (decide (0 < n ∧ (s.rd (Reg.ENG.TRANS_THRESH p)).toNat ≤ n)) (.all
      [.raise .ENG p 3, .eng p fun e => { e with corr := [] },
       .hw fun h => { h with darn := { h.darn with thresh := (p, s.now) :: h.darn.thresh.filter fun x => decide (s.now < x.2 + 86400000000000) } }])
  | .fce i =>
    let n := ((s.fce i).corr.filter fun t => decide (s.now < t + 1000000000)).length
    .when (decide (0 < n ∧ (s.rd (Reg.FCE.TRANS_THRESH i)).toNat ≤ n)) (.seq (.raise .FCE i 3) (.fce i fun e => { e with corr := [] }))

/-! ### Tile end (R137, R141) -/

/-- R249, R290: may the results of an engine command be formed: are partners' partials there? -/
def State.runReady (s : State) (c : Cmd) : Bool :=
  (Desc.opcode c.desc != opATTENTION || (s.partialsNeeded c).isEmpty) && (Desc.opcode c.desc != opSAMPLE || s.masksWritten c)

/-- An ATTENTION command whose own work is done waits for its layout partners (R437). -/
def openWait (id : Nat) : Act := .withCmd id fun c => .get fun s =>
  .when (Desc.opcode c.desc == opATTENTION && !(s.partialsNeeded c).isEmpty && c.remote.isNone)
    (.cmd id fun x => { x with remote := some s.now })

/-- All tiles of all parts are done: the results are formed when nothing is missing. -/
def computeIfDone (id : Nat) : Act := .withCmd id fun c => .get fun s =>
  .when (onEngine (Desc.opcode c.desc) && !c.computed && !c.empty && s.allTilesDone c) <|
    if s.runReady c then computeRun id else openWait id

/-- TILE_END_CHECK (R137, R141): once all rows of the load have passed, the outputs for the checksum weight row, with the changes
`alt` that faults have made in them, against the totals of the checksum row. -/
def tileEndAct (p : Nat) (alt : CheckAlt) : Act := .get fun s => match s.curLoad p with
  | none => .nil
  | some ld =>
    let e := s.eng p
    .when (s.engActive p && e.loaded && e.fails.isEmpty && e.rows == ld.rows) <|
      if tileMismatch (ld.c == 4) alt.big e.acc (altDeltas alt (s.deadCol p) ++ altChecks alt) then
        .all [.bump (Reg.ENG.CHK_TILE p) 1, report p, mismatch p, frogOn p 0x40]
      else .all
        [.eng p fun x => { x with done := x.done + ld.tiles, rows := 0, loaded := false, acc := [], injRow := false, injPair := false },
         nextLoad p,
         match e.cmd with
         | some id => computeIfDone id
         | none => .nil]

/-! ### Diagnostic, repair, fault (R140, R144 to R147, R163) -/

/-- DIAG_RESULT of a diagnostic. -/
def diagWord : DiagResult → Nat
  | .pass => 3
  | .row r => 1 + 4 * 1 + 16 * r.toNat
  | .column c => 1 + 4 * 2 + 4096 * c.toNat
  | .cell r c => 1 + 4 * 3 + 16 * r.toNat + 4096 * c.toNat
  | .unlocated => 1

/-- R145: where a located fault goes: true for the spare column, with the physical index; none when no spare suits. -/
def State.repairOf (s : State) (p : Nat) (r : DiagResult) (spareOk : Bool) : Option (Bool × Nat) :=
  let rowFree := !s.bit (Reg.ENG.ARR_REPAIR p) 0
  let colFree := !s.bit (Reg.ENG.ARR_REPAIR p) 9
  if !spareOk then none
  else match r with
    | .row i => if rowFree then some (false, i.toNat) else none
    | .column i => if colFree then some (true, i.toNat) else none
    | .cell i j => if colFree then some (true, j.toNat) else if rowFree then some (false, i.toNat) else none
    | _ => none

/-- ARRAY_DIAGNOSTIC_DONE. A recovery's diagnostic ends in a repair, after which the load is repeated and every unwritten
row re-issued, or in FAULT; one that DIAG_CMD started only reports. -/
def diagDoneAct (p : Nat) (r : DiagResult) (spareOk : Bool) : Act := .get fun s =>
  let e := s.eng p
  if e.diag = 2 then
    .all [.wrN (Reg.ENG.DIAG_RESULT p) (diagWord r), setEngState p e.diagFrom, .eng p fun x => { x with diag := 0 }]
  else .when (e.diag == 1) <|
    match s.repairOf p r spareOk with
    | some (col, i) => .all
      [if col then .modReg (Reg.ENG.ARR_REPAIR p) fun w => setBits (setBits w 9 9 1) 17 10 i
       else .modReg (Reg.ENG.ARR_REPAIR p) fun w => setBits (setBits w 0 0 1) 8 1 i,
       .raise .ENG p 0, setEngState p eRECOVER,
       .eng p (fun x => { x with diag := 0, loaded := false, fails := x.fails.map fun f => (f.1, 0) }),
       .event (.darn { kind := 2, inst := p / 9, unit := i, cause := 0, spare := some 129 })]
    | none => engineFault p (e.recFrom.getD s.now)

/-- VECTOR_INSTRUCTION (R148, R149, R758): `alt` is what faults have changed in the lanes' results. An instruction whose residue
check fails writes nothing; the next one is its re-execution. -/
def vectorAct (p : Nat) (i : VecInstr) (rd : StoreRead) (alt : List (Nat × Int)) : Act := .get fun s =>
  let e := s.eng p
  let inj := s.bit (Reg.ENG.INJECT p) 4 && !e.vuOnce
  .when (s.engActive p) <| esRead p rd <| .seq (.when inj (.setFld (Reg.ENG.INJECT p) 4 4 0)) <|
    if residueOk alt && !inj then .seq
      (.upd (.es (esAddr p i.dst.toNat) ((s.vecRun p i alt).take (0x400000 - i.dst.toNat)))) (.eng p fun x => { x with vuOnce := false })
    else if e.vuOnce then engineFault p e.vuAt
    else .seq (.bump (Reg.ENG.VU_CHK p) 1) (.eng p fun x => { x with vuOnce := true, vuAt := s.now })

/-! ### Registers of the ENG pages (R160, R161, R163) -/

/-- R163: is DIAG_CMD.START dropped? -/
def State.diagDropped (s : State) (p : Nat) : Bool :=
  !((s.engState p == eIDLE && !s.bit (Reg.ENG.CTRL p) 0) || s.engState p == eSPARE)

/-- DIAG_CMD.START accepted. -/
def engDiagAct (p : Nat) : Act := .get fun s =>
  .seq (.eng p fun e => { e with diag := 2, diagFrom := s.engState p }) (setEngState p eDIAG)

/-- CTRL written: an OFF-turned engine is not woken by it; DRAIN shows in STATE while a command runs. -/
def engCtrl (p : Nat) (v : Word) : Act := .get fun s =>
  .all [.when (decide (5 ≤ bits v 4 2)) (.cfgErr .ENG p),
        .when (s.engState p == eRUN && v.getLsbD 1) (setEngState p eDRAIN),
        .when (s.engState p == eDRAIN && !v.getLsbD 1) (setEngState p eRUN)]

def engDrops (s : State) (p off : Nat) (v : Word) : Bool := off == 0x084 && v.getLsbD 0 && s.diagDropped p

def engWrite (p off : Nat) (v : Word) : Act :=
  if off = 0x040 then engCtrl p v
  else if off = 0x084 then .when (v.getLsbD 0) (engDiagAct p)
  else .nil

/-! ### Few-channel engines (R156 to R159, R164) -/

/-- STATE of an FCE. -/
def State.fceState (s : State) (i : Nat) : Nat := s.fld (Reg.FCE.FCE_STATE i) 3 0
def setFceState (i v : Nat) : Act := .setFld (Reg.FCE.FCE_STATE i) 3 0 v

/-- Is FCE `i` at work? -/
def State.fceActive (s : State) (i : Nat) : Bool := (s.fce i).cmd.isSome && (s.fce i).diag == 0

/-- Output positions the FCE's layer has in command `c` (R157, R203, R212). -/
def State.fceTotal (s : State) (c : Cmd) : Nat :=
  let u := s.source c
  let ls := s.layers c.desc
  match ls.head? with
  | some l => (layerRows ls (s.swatchOf c u.item).halos (bandRows ls u).length (u.has fLAST)).headD 0 * l.outW
  | none => 0

/-- The positions FCE `i` has to produce for its command. -/
def State.fceWork (s : State) (i : Nat) : Nat := match (s.fce i).cmd.bind s.cmd with
  | some c => s.fceTotal c
  | none => 0

/-- R157, R158: has the FCE that serves command `c` produced every position? One in FAULT serves none (R159). -/
def State.fceDone (s : State) (c : Cmd) : Bool := (List.range 4).all fun i =>
  let f := s.fce i
  f.cmd != some c.id || (f.pos == s.fceTotal c && !f.once && f.diag != 1)

/-- FCE_WEIGHT_LOAD_DONE (R157, R165): a parity error makes the FCE reload the bank. -/
def fceLoadAct (i : Nat) (parity : Bool) : Act := .get fun s =>
  .when (s.fceActive i && !(s.fce i).loaded) <|
    if parity then .raise .FCE i 2 else .fce i fun f => { f with loaded := true }

/-- The FCE enters FAULT (R158): its command is returned for frogging. -/
def fceFault (i : Nat) : Act := .get fun s => .all
  [(match (s.fce i).cmd.bind s.cmd with
    | some c => .when (c.cls == 2) (.event (.ctxFault c.ctx (s.fce i).onceAt))
    | none => .nil),
   (match (s.fce i).cmd with
    | some id => frogAct id 0x41 0xFFFF
    | none => .nil),
   .fce i fun f => { corr := f.corr, idleSince := s.now }, setFceState i eFAULT, .raise .FCE i 1]

/-- What one output position of FCE `i` comes to: `alt` is what faults have changed in its physical columns' results, `inj` says
that INJ_POS adds its unit. -/
def State.fceMiss (s : State) (i : Nat) (alt : List (Fin 66 × Int)) (inj : Bool) : Bool :=
  let dead := if s.bit (Reg.FCE.COL_REPAIR i) 0 then s.fld (Reg.FCE.COL_REPAIR i) 7 1 else 65
  decide (fceDiff dead alt + (if inj then 1 else 0) ≠ 0)

/-- FCE_OUTPUT_POSITION (R157, R158, R165): a position is produced in as many cycles as it has passes; the first mismatch is
recomputed, a repeated one brings the diagnostic. A weight-bank parity error has the bank reloaded and the position
recomputed. -/
def fcePositionAct (i : Nat) (parity : Bool) (alt : List (Fin 66 × Int)) : Act := .get fun s =>
  let f := s.fce i
  let inj := s.bit (Reg.FCE.INJECT i) 0 && !f.once
  let recent (l : List Nat) : List Nat := s.now :: l.filter fun t => decide (s.now < t + 1000000000)
  .when (s.fceActive i && f.loaded && decide (f.pos < s.fceWork i)) <|
    if parity then .seq (.raise .FCE i 2) (.fce i fun x => { x with loaded := false })
    else .all
      [.when inj (.setFld (Reg.FCE.INJECT i) 0 0 0), .bump (Reg.FCE.BUSY_CYC i) (s.fld (Reg.FCE.FCE_STATE i) 9 5),
       if !s.fceMiss i alt inj then .seq (.bump64 (Reg.FCE.OUT_POS_LO i) (Reg.FCE.OUT_POS_HI i) 1)
         (.fce i fun x => { x with once := false, pos := x.pos + 1, corr := if x.once then recent x.corr else x.corr })
       else if f.once then .all
        [(match f.cmd.bind s.cmd with
          | some c => .when (c.cls == 2) (.event (.mismatch 36 c.ctx))
          | none => .nil),
         .bump (Reg.FCE.CHK_PERM i) 1, .fce i (fun x => { x with diag := 1 }), setFceState i eDIAG]
       else .seq (.bump (Reg.FCE.CHK_CNT i) 1) (.fce i fun x => { x with once := true, onceAt := s.now })]

/-- FCE_DIAGNOSTIC_DONE (R158, R164). -/
def fceDiagAct (i : Nat) (located : Option (BitVec 7)) : Act := .get fun s =>
  let f := s.fce i
  if f.diag = 2 then
    .all [.wrN (Reg.FCE.DIAG_RESULT i) (match located with
            | some c => 1 + 4 * c.toNat
            | none => 3), setFceState i f.diagFrom, .fce i fun x => { x with diag := 0 }]
  else .when (f.diag == 1) <|
    match located with
    | some c => if s.bit (Reg.FCE.COL_REPAIR i) 0 then fceFault i
      else .all [.wrN (Reg.FCE.COL_REPAIR i) (1 + 2 * c.toNat), .raise .FCE i 0, setFceState i eRUN,
                 .fce i (fun x => { x with diag := 0, once := false, loaded := false }),
                 .event (.darn { kind := 7, inst := i, unit := c.toNat, cause := 0, spare := some 65 })]
    | none => fceFault i

def fceDrops (s : State) (i off : Nat) (v : Word) : Bool :=
  off == 0x064 && v.getLsbD 0 && !((s.fceState i == eIDLE && !s.bit (Reg.FCE.FCE_CTRL i) 0) || s.fceState i == eSPARE)

def fceWrite (i off : Nat) (v : Word) : Act := .get fun s =>
  if off = 0x064 ∧ v.getLsbD 0 then .seq (.fce i fun f => { f with diag := 2, diagFrom := s.fceState i }) (setFceState i eDIAG)
  else if off = 0x040 then .all [.when (s.fceState i == eRUN && v.getLsbD 1) (setFceState i eDRAIN),
                                 .when (s.fceState i == eDRAIN && !v.getLsbD 1) (setFceState i eRUN)]
  else .nil

/-! ### Block commands at their commit point -/

/-- TOKENISE (R305 to R309). -/
def tokFinish (id : Nat) : Act := .withCmd id fun c => .get fun s =>
  match c.input with
  | none => .seq (keepRun id {}) (stageAll id)
  | some u =>
    if 65536 < u.payload.length then
      .seq (txtRaise 5) (endCmdWith id stFAULT 0 0xFFFF fun s c => [s.txtUnit c u 0x31 [fINVALID] []])
    else
      let (o, bad) := s.tokRun c u
      .all [keepRun id o, .bump Reg.TXT.TOK_UNITS 1, .bump Reg.TXT.TOK_BYTE_FB bad, stageAll id]

/-- DETOKENISE (R311 to R313). -/
def detokFinish (id : Nat) : Act := .withCmd id fun c => .get fun s =>
  match c.input with
  | none => .seq (keepRun id {}) (stageAll id)
  | some u =>
    let (o, h, r) := s.detokRun c u
    .all [keepRun id o, .bump Reg.TXT.DETOK_REPL r, holdUtf (Desc.inStream c.desc) u.item h, stageAll id]

/-- JPEG (R231 to R235). -/
def jpegFinish (id : Nat) (parity : Bool) : Act := .withCmd id fun c => .fresh fun fr => .get fun s =>
  let o := if parity then s.jpegRefuse c 10 (openWord fr 1).toNat else s.jpegRun c fr
  match o.refused with
  | some (code, ofs) => .all
    [.when parity (.raise .JPG 0 2),
     .bump Reg.JPG.UNSUPP 1, .wrN Reg.JPG.UNSUPP_CODE code, .wrN Reg.JPG.MARKER_OFS ofs, .raise .JPG 0 0,
     endCmdWith id stFAULT 0 0xFFFF fun _ _ => o.out.outs]
  | none => .all
    [keepRun id o.out, .bump Reg.JPG.IMG_CNT 1, .bump64 Reg.JPG.PIX_LO Reg.JPG.PIX_HI o.samples,
     .when (o.errs != 0) (.all [.bump Reg.JPG.ENTROPY_ERR o.errs, .wrN Reg.JPG.MARKER_OFS o.ofs, .raise .JPG 0 1]),
     stageAll id]

/-- AUGMENT (R240, R241). A source unit in a format the block does not take (R221) is a format error of its page, and the
substitute of R45 stands in its place (log entry 74). -/
def augFinish (id : Nat) (parity : Bool) : Act := .withCmd id fun c => .get fun s => .seq (.when parity (.raise .AUG 0 1)) <|
  if (augBlock (s.read (Desc.paramAddr c.desc) 64)).bad then
    .all [.bump Reg.AUG.PARAM_ERR 1, .raise .AUG 0 0, endCmd id stFAULT 0 0xFFFF false]
  else match c.input with
    | none => .seq (keepRun id {}) (stageAll id)
    | some u =>
      let ok := augTakes u.fmt.toNat || u.payload.isEmpty
      .all [.when (!ok) (.err .AUG 0 1), keepRun id (s.augRun c (if ok then u else u.substitute)), .bump Reg.AUG.SAMPLE_CNT 1,
            stageAll id]

/-- R640, R644: how the partners of a transfer answer is not this device's to know: an open value. -/
def transferRefused (c : Cmd) (partners : Bool) (fr : Nat) : Option Nat :=
  if partners && (Config.freeValue fr (2 ^ 50)).getLsbD 0 then
    some (if opALLGATHER ≤ Desc.opcode c.desc then 0x47 else 0x41)
  else none

/-- COPY and the Fakan transfers (R641 to R646). -/
def transferFinish (id : Nat) : Act := .withCmd id fun c => .get fun s =>
  .when (Desc.opcode c.desc != opWAIT || s.waitDone c.desc) <| .fresh fun fr =>
    match transferRefused c (!(s.partners c).isEmpty) fr with
    | some d => endRequest id stFAULT d 0xFFFF false
    | none => .all [closeWait c, .get fun s => keepRun id (s.transferRun c fr), stageAll id]

/-! ### COMMIT_POINT (R416, R444) -/

/-- Has part `k` of an engine command passed its checks? -/
def State.partDone (s : State) (c : Cmd) (k : Nat) : Bool :=
  let e := s.eng (c.engines.getD k 36)
  e.cmd == some c.id && e.part == k && !e.pre && decide (e.tiles ≤ e.done) && e.fails.isEmpty && e.diag == 0 &&
  !c.restoring.contains k && s.fceDone c

/-- Does a command read the store of its engine at all? Not with nothing to compute on, nor for a reduction of length zero. -/
def Cmd.readsStore (c : Cmd) : Bool := !c.zeroInput && !(Desc.opcode c.desc == opMATMUL && Desc.k c.desc == 0)

/-- An engine command's part reaches its commit point. A command without a load or a pre-pass has read the store in its vector
work (R758). -/
def engineFinish (id k : Nat) : Act := .withCmd id fun c => .get fun s =>
  let p := c.engines.getD k 36
  .when (s.partDone c k && !c.parts.contains k && decide (k < c.engines.length)) <|
    .seq (.when ((s.eng p).firstRead && c.readsStore) (esRead p {} .nil)) <|
    .seq (.withCmd id fun x => .when (x.phase == .running) (computeIfDone id)) <| .withCmd id fun c => .get fun s =>
      .when (s.partDone c k && (c.computed || !s.allTilesDone c)) <| .seq (stagePart id k)
        (.withCmd id fun x => .when (x.phase == .staged) (commitAct id))

/-- The words of those found in error that a command has read. -/
def State.foundErrs (s : State) (c : Cmd) (l : Eccs) : Eccs :=
  (s.allRanges c).flatMap fun r => foundIn l (r.1 / 8) ((r.1 + r.2 + 7) / 8)

/-- COMMIT_POINT. An EMPTY command has a row of its own. A command that has read a word with an uncorrectable error is
frogged (R20). -/
def commitPointAct (id : Nat) (m : PartEnd) : Act := .withCmd id fun c => .get fun s =>
  .when (c.phase == .running && !c.empty) <| .seq (eccFound (s.foundErrs c m.eccs)) <|
    if (s.foundErrs c m.eccs).any fun x => x.2 == .uncorr then frogAct id 0x42 0xFFFF
    else if onEngine (Desc.opcode c.desc) then engineFinish id m.part
    else match Desc.opcode c.desc with
      | 0x08 => tokFinish id
      | 0x09 => detokFinish id
      | 0x0A => .when c.arrived (if s.classWrong c then endRequest id stFAULT 0x4B 0xFFFF true else .seq (keepRun id {}) (stageAll id))
      | 0x0B => jpegFinish id m.parity
      | 0x0C => augFinish id m.parity
      | _ => transferFinish id

end Sys2Proof.Machine
end

