-- ==== Sys2Proof/Machine/Preempt.lean ====
section
/-! DEFINITION. Pre-emption (R432 to R435), save and restore (R440 to R442), remote waits and the quarantine (R437,
R438), and the admission of each operation's descriptors. -/

namespace Sys2Proof.Machine

/-! ### Whom to pre-empt -/

/-- R432: the waiting commands that may pre-empt, in R422's order: none of the engines they may use is idle. -/
def State.preemptors (s : State) : List Cmd :=
  sortBy s.before <| s.hw.disp.cmds.filter fun c =>
    c.phase == .ready && onEngine (Desc.opcode c.desc) && s.fenceOk c && !s.attnWaits c.id && !s.bandWaits c &&
    (c.cls == 2 || (c.cls == 1 && (match s.slack c with
      | some x => decide (x ≤ 0)
      | none => false))) && !((s.phys (s.choices c)).any s.engFree)

/-- A victim: the command and its part on an engine the waiting command `w` may use. Another's save under way on such an
engine makes a command of class 1 wait for it. -/
def State.victimsFor (s : State) (w : Cmd) : List (Cmd × Nat) :=
  (s.phys (s.choices w)).filterMap fun p => match s.runningOn p with
    | some y =>
      let k := (s.eng p).part
      if y.cls ≠ 2 ∧ y.phase = .running ∧ !y.parts.contains k ∧ (w.cls = 2 ∨ (y.toCheap.isNone ∧ y.saving.isNone)) then some (y, k) else none
    | none => none

/-- Is an engine that `w` may use on its way to being freed by a save? -/
def State.savingFor (s : State) (w : Cmd) : Bool := (s.phys (s.choices w)).any fun p => match s.runningOn p with
  | some y => y.preemptor == some w.ctx && (y.toCheap.isSome || y.saving.isSome)
  | none => false

/-- R432: class 0, then class 3, then class 1. -/
def victimRank (c : Cmd) : Nat := if c.cls = 0 then 0 else if c.cls = 3 then 1 else 2

/-- R432: is victim `a` chosen before `b`? The latest LCT first, none counting as latest, then the highest virtual time. -/
def State.victimLt (s : State) (a b : Cmd × Nat) : Bool :=
  ((compare (victimRank a.1) (victimRank b.1)).then ((lctCmp (s.lct b.1) (s.lct a.1)).then
    (compare (s.ctx b.1.ctx).vt (s.ctx a.1.ctx).vt))) == .lt

/-! ### One part loses its engine -/

/-- R444: pre-emption frogs part `k` of a command placed on several engines alone; a command on one engine is frogged as
R435 says. -/
def frogPart (id k detail : Nat) : Act := .withCmd id fun c => .get fun s =>
  let p := c.engines.getD k 36
  if c.engines.length ≤ 1 then frogAct id detail 0xFFFF
  else .all
    [accrue, chargeEngines c [p] .preemptor, .when ((s.eng p).cmd == some id) (releaseEng p),
     .cmd id fun x => { x with
       lost := x.lost ++ [k], engines := updAt (fun _ => 36) k x.engines, frogs := x.frogs + 1, detail := detail, part := k,
       toCheap := none, saving := none, restoring := x.restoring.filter (· != k), saved := x.saved.filter fun y => y.1 != k },
     .bump Reg.DISP.FROG_CNT 1]

/-- R124: cycles of the loads whose tiles begin within the first `n`. -/
def loadCycles : List Load → Nat → Nat
  | [], _ => 0
  | l :: t, n => if n = 0 then 0 else 128 + (l.rows + 1) * l.c + loadCycles t (n - l.tiles)

/-- R433: the next cheap point of part `k`: its number, and the engine cycles of issue to it. -/
def State.nextCheap (s : State) (c : Cmd) (k : Nat) : Option (Nat × Nat) :=
  let e := s.eng (c.engines.getD k 36)
  match s.liveEntry c.ctx c.desc with
  | none => none
  | some a => ((s.cheapPoints a).zipIdx.find? fun x => decide (e.done ≤ x.1.1)).map fun x =>
      (x.2, loadCycles e.loads x.1.1 - loadCycles e.loads e.done)

/-- R433, R437, R439: pre-empt part `k` of command `v` for the waiting command `w`. -/
def preemptPart (w v : Cmd) (k : Nat) : Act := .get fun s =>
  let p := v.engines.getD k 36
  let class2 : Bool := match s.logicalOf p with
    | some l => s.bit Reg.DISP.CLASS2_ENG l
    | none => false
  .all [.cmd v.id (fun x => { x with preemptor := some w.ctx }), .bump Reg.DISP.PREEMPT_CNT 1,
        if v.remote.isSome then .seq (dispRaise 1) (frogAct v.id 0x44 (v.partNo k))
        else match s.nextCheap v k with
          | some (j, n) =>
            if w.cls = 2 ∨ class2 ∨ s.fld Reg.DISP.CHEAP_WAIT 15 0 < n then frogPart v.id k 0x43
            else .cmd v.id fun x => { x with toCheap := some (k, j) }
          | none => frogPart v.id k 0x43]

/-- PREEMPT (R432): the first waiting command, in R422's order, that has a victim. -/
def preemptAct : Act := .get fun s =>
  .when (s.bit Reg.DISP.DISP_CTRL 1 && s.bit Reg.DISP.DISP_CTRL 0 && !s.hw.boot.frozen) <|
    match (s.preemptors.filter fun w => w.cls == 2 || !s.savingFor w).findSome? fun w =>
      (leastBy s.victimLt (s.victimsFor w)).map fun v => (w, v) with
    | some (w, v, k) => preemptPart w v k
    | none => .nil

/-! ### Save and restore (R441, R442) -/

/-- The save slot of engine `k` of a command's placement. -/
def State.saveSlot (s : State) (c : Cmd) (k : Nat) : Nat := s.ctxSaveAddr c.ctx + k * s.ctxSaveKib c.ctx * 1024

/-- Cheap point `j` of a command: AT, start and size of the live range in bytes. -/
def State.cheapPoint (s : State) (c : Cmd) (j : Nat) : Nat × Nat × Nat := match s.liveEntry c.ctx c.desc with
  | some a => match (s.cheapPoints a)[j]? with
    | some (at_, base, size) => (at_, base * 1024, size * 1024)
    | none => (0, 0, 0)
  | none => (0, 0, 0)

/-- CHEAP_POINT_REACHED (R433, R441): the tiles of the point have passed; four that one load holds pass together (R130). The
time before the decision is the command's own, the save the pre-emptor's (R424). -/
def cheapPointAct (id j : Nat) : Act := .withCmd id fun c => .get fun s =>
  match c.toCheap with
  | none => .nil
  | some (k, j') =>
    let p := c.engines.getD k 36
    let (at_, _, size) := s.cheapPoint c j
    .when (j' == j && decide (at_ ≤ (s.eng p).done) && (s.eng p).fails.isEmpty && (s.eng p).diag == 0) <|
      if s.ctxSaveKib c.ctx * 1024 < size then .seq (frogPart id k 0x4C) (dispRaise 7)
      else .all
        [chargeEngines c [p] .own, .eng p fun e => { e with start := s.now, recNs := 0 },
         .cmd id fun x => { x with toCheap := none, saving := some (k, j) }]

/-- SAVE_DONE (R441): the live range is in the save slot and the engine free. A command on one engine is ready again. -/
def saveDoneAct (id : Nat) : Act := .withCmd id fun c => .get fun s =>
  match c.saving with
  | none => .nil
  | some (k, j) =>
    let p := c.engines.getD k 36
    let (_, base, size) := s.cheapPoint c j
    .all [.guarded c.cls (s.saveSlot c k) (s.readEs p base size), .bump Reg.DISP.SAVE_CNT 1,
          accrue, chargeEngines c [p] .preemptor,
          .cmd id (fun x => { x with saving := none, preemptor := none, saved := x.saved ++ [(k, j, (s.eng p).done)] }),
          .when ((s.eng p).cmd == some id) (releaseEng p),
          if c.engines.length ≤ 1 then .all
            [releaseBlocks id, catchUp c.ctx, .cmd id fun x => { x with phase := .ready, readyAt := s.now, engines := [] }]
          else .cmd id fun x => { x with engines := updAt (fun _ => 36) k x.engines }]

/-- RESTORE_DONE (R441): the live range is back in the store of the part's engine. The restore is paid as the save was
(R424). -/
def restoreDoneAct (id : Nat) : Act := .withCmd id fun c => .get fun s =>
  match c.restoring with
  | [] => .nil
  | k :: t =>
    let p := c.engines.getD k 36
    let j := match c.saved.find? fun x => x.1 == k with
      | some x => x.2.1
      | none => 0
    let (_, base, size) := s.cheapPoint c j
    .all [.upd (.es (esAddr p base) (s.read (s.saveSlot c k) size)),
          chargeEngines c [p] .preemptor, .eng p fun e => { e with start := s.now },
          .cmd id fun x => { x with restoring := t, saved := x.saved.filter fun y => y.1 != k }]

/-! ### Remote waits (R437, R438) -/

/-- REMOTE_WAIT_TIMEOUT (R437). -/
def remoteTimeoutAct (id : Nat) : Act := .withCmd id fun c => .get fun s =>
  match c.remote with
  | some t => .when (decide (t + s.fld Reg.DISP.REMOTE_TO 15 0 * 1000 ≤ s.now)) (.seq (dispRaise 1) (frogAct id 0x44 0xFFFF))
  | none => .nil

/-- Data of a remote wait that is over is discarded (R438). -/
def quarantine : Act := .seq (.bump Reg.DISP.QUAR_CNT 1) (dispRaise 2)

/-- QUARANTINE_ARRIVAL (R438): data of generation `gen` for command `id`. Data of the wait in progress is no case of it. -/
def quarantineAct (id gen : Nat) : Act := .get fun s => match s.cmd id with
  | some c => .when (c.remote.isNone || decide (gen < c.gen)) quarantine
  | none => quarantine

/-- Does command `c` wait for a partial result of layout index `idx`? -/
def State.awaitsPartial (s : State) (c : Cmd) (idx : Nat) : Bool :=
  Desc.opcode c.desc == opATTENTION && c.phase == .running && ((s.partialsNeeded c).any fun x => x.1 == idx)

/-- A partial result the receiver has accepted: taken by the command whose item its header names (R27). -/
def takePartial (id idx : Nat) (u : DUnit) : Act := .get fun s => match s.cmd id with
  | some c =>
    if s.awaitsPartial c idx && u.item == ((c.input.map fun x => x.item).getD 0) then
      .all [.cmd id fun x => { x with partials := x.partials ++ [(idx, u)] },
            .withCmd id fun x => .get fun t => .when (t.partialsNeeded x).isEmpty (closeWait x),
            computeIfDone id]
    else quarantine
  | none => quarantine

/-- ATTENTION_PARTIAL_ARRIVE (R289, R290): a partner's partial result, received as every unit is (R43 to R47). The receiver is
one for the device, and records in page KVW[0] (DESIGN CHOICE, log entry 72). -/
def partialArriveAct (id idx : Nat) (u : DUnit) : Act := .get fun s => match s.cmd id with
  | some c =>
    if s.awaitsPartial c idx then .receive .KVW 0 u (s.streamCls u) fun l => .each l (takePartial id idx)
    else quarantine
  | none => quarantine

/-- R437: the route to device `d` is lost: remote waits on it are abandoned. -/
def routeLostCmds (d : Nat) : Act := .get fun s =>
  .each (s.hw.disp.cmds.filter fun c => c.remote.isSome &&
      ((s.partners c).contains d || (Desc.opcode c.desc == opATTENTION && (s.partialsNeeded c).any fun x => x.1 == d))) fun c =>
    .seq (dispRaise 1) (endRequest c.id stABORTED 0x44 0xFFFF false)

/-! ### Admission of each operation -/

/-- The hook an operation's admission runs: an ATTENTION command's sequences are admitted, a MASK command's request is
queued. -/
def admitHook (op id : Nat) : Act :=
  if op = opATTENTION then attnAdmit id
  else if op = opMASK then .withCmd id fun c => .get fun s =>
    if c.noVocab then endCmd id stFAULT 0 0xFFFF true
    else if s.classWrong c then endCmd id stFAULT 0x4B 0xFFFF true else maskRequest id
  else .nil

/-- Admit the next descriptor of context `c` for operation `op`. -/
def admitOpAct (op c : Nat) (d : BitVec 512) : Act := admitAct op c d (admitHook op)

/-- R412: a MASK command is admitted together with the next descriptor of its context, so only when the ring holds both
and both find room. -/
def admitMaskAct (c : Nat) (d next : BitVec 512) : Act := .get fun s =>
  .when (s.mayAdmit c && decide ((s.ctxSqHead c + 1) % 4294967296 ≠ (s.ctx c).tail)) <|
    if s.admitLimit c 2 then
      .when (!(s.ctx c).limited) (.seq (.ctx c fun x => { x with limited := true }) (dispRaise 9))
    else .seq (admitOne c (Desc.ofRow opMASK d) (admitHook opMASK)) (admitOne c next (admitHook (Desc.opcode next)))

end Sys2Proof.Machine
end

