-- ==== Sys2Proof/Machine/Darn.lean ====
section
/-! DEFINITION. The DARN block (16_spares_and_ageing): operations and their order, the choice of a spare, the commit of
the darning map, wear, the service log. Memories are numbered 0 to 35 for the engine stores, 36 to 51 for the commons
slices, 52 for the line buffer, 53 to 60 for the MEMC channels, rows by 1 KiB (log entry 50). -/

namespace Sys2Proof.Machine

def Act.darn (f : DarnSt → DarnSt) : Act := .hw fun h => { h with darn := f h.darn }
/-- Raise source 28 + k (R675). -/
def darnRaise (k : Nat) : Act := .raise .DARN 0 k

/-! ### The map (R658, R659, R673, R674) -/

/-- One bit of a pair of registers that gives a bit for each of 36 engines. -/
def engBit (lo hi : RegRef) (s : State) (p : Nat) : Bool := if p < 32 then s.bit lo p else s.bit hi (p - 32)
def Act.engBit (lo hi : RegRef) (p : Nat) (b : Bool) : Act :=
  if p < 32 then .setFld lo p p (b2n b) else .setFld hi (p - 32) (p - 32) (b2n b)
def State.isSpare (s : State) (p : Nat) : Bool := Machine.engBit Reg.DARN.SPARE_ENG_LO Reg.DARN.SPARE_ENG_HI s p
def State.isFailed (s : State) (p : Nat) : Bool := Machine.engBit Reg.DARN.FAILED_ENG_LO Reg.DARN.FAILED_ENG_HI s p
def setSpare (p : Nat) (b : Bool) : Act := .engBit Reg.DARN.SPARE_ENG_LO Reg.DARN.SPARE_ENG_HI p b
def setFailed (p : Nat) (b : Bool) : Act := .engBit Reg.DARN.FAILED_ENG_LO Reg.DARN.FAILED_ENG_HI p b

/-- Spare engines left in stripe `t`. -/
def State.sparesIn (s : State) (t : Nat) : Nat := ((List.range 36).filter fun p => p / 9 == t && s.isSpare p).length

/-- R658: INVENTORY's engine counts follow SPARE_ENG. -/
def countSpares : Act := .get fun s => .each (List.range 4) fun t =>
  .setFld Reg.DARN.INVENTORY (4 * t + 3) (4 * t) (s.sparesIn t)

/-- The words of the map the registers show: commit number, INVENTORY, SPARE_ENG, FAILED_ENG, ENG_MAP. -/
def mapRegs : List RegRef :=
  [Reg.DARN.MAP_SEQ, Reg.DARN.INVENTORY, Reg.DARN.SPARE_ENG_LO, Reg.DARN.SPARE_ENG_HI, Reg.DARN.FAILED_ENG_LO,
   Reg.DARN.FAILED_ENG_HI] ++ (List.range 8).map Reg.DARN.ENG_MAP

/-- R659: a commit writes the complete new map into the copy not in force and selects it: the copy that was in force
stays behind as the other one. `change` is what the new map changes. -/
def commitMap (change : Act) : Act := .get fun s => .all
  [.darn fun d => { d with other := mapRegs.map s.rd }, change, countSpares, .modReg Reg.DARN.MAP_SEQ (· + 1)]

/-- R659: at a start the copy with the higher commit number is used. -/
def selectMap : Act := .get fun s =>
  .when (decide ((s.rd Reg.DARN.MAP_SEQ).toNat < ((s.hw.darn.other.headD 0).toNat)))
    (.each (mapRegs.zip s.hw.darn.other) fun (r, v) => .wr r v)

/-- Byte `l` of the logical-to-physical map (R674); `none`: unmapped. -/
def setEngMap (l : Nat) (p : Option Nat) : Act :=
  let b := match p with
    | some p => 0x80 + (if p / 9 = l / 8 then 0 else 0x40) + p
    | none => 0x3F
  .setFld (Reg.DARN.ENG_MAP (l / 4)) (8 * (l % 4) + 7) (8 * (l % 4)) b

/-! ### The service log (R671) -/

/-- One entry of the service log: time, kind and cause, outcome, instance, from, in its place (0xFFFF none). -/
def logEntry (tsc : Nat) (op : DarnOp) (outcome toUnit : Nat) : BitVec 128 :=
  BitVec.ofNat 128 (leNat (leBytes 8 tsc ++ leBytes 1 (op.kind + 16 * op.cause) ++ leBytes 1 outcome ++ leBytes 1 op.inst ++
    [0] ++ leBytes 2 op.unit ++ leBytes 2 toUnit))

def darnLog (op : DarnOp) (outcome toUnit : Nat) : Act := .get fun s => .darn fun d =>
  { d with log := (logEntry s.now op outcome toUnit :: d.log).take 256, total := d.total + 1 }

/-! ### The queue (R662, R672) -/

/-- Do two operations name the same part? Repairs that are only recorded are each taken. -/
def DarnOp.same (a b : DarnOp) : Bool := a.kind == b.kind && a.inst == b.inst && a.unit == b.unit

/-- Is the operation planned (for wear, or by the driver)? -/
def DarnOp.planned (a : DarnOp) : Bool := a.cause == 1 || a.cause == 2

/-- Physical engines named by SAFE.CH_A and SAFE.CH_B while SAFE is enabled. -/
def State.chanEngines (s : State) : List Nat :=
  if s.bit Reg.SAFE.SAFE_CTRL 0 then
    [s.fld Reg.SAFE.CH_A 12 8, s.fld Reg.SAFE.CH_B 12 8].filterMap s.physOf
  else []

/-- R662: class 2 channel engines first, then faults, then planned darnings. -/
def State.darnRank (s : State) (op : DarnOp) : Nat :=
  if op.kind == 1 && s.chanEngines.contains op.unit then 0 else if op.planned then 2 else 1

/-- Is an operation for this part queued, held or running? -/
def State.darnKnown (s : State) (op : DarnOp) : Bool :=
  let d := s.hw.darn
  (d.queue ++ d.held ++ d.run.toList).any op.same

/-- R662: queue an operation; a darning after a fault that finds the queue full is held, a planned one is not queued. -/
def darnQueue (op : DarnOp) : Act := .darn fun d =>
  if d.queue.length < 16 then { d with queue := d.queue ++ [op] }
  else if op.planned then d
  else { d with held := d.held ++ [op] }

/-- A place in the queue frees: what is held moves in, in R662's order. -/
def darnRefill : Act := .get fun s =>
  match leastBy (fun a b => decide (s.darnRank a < s.darnRank b)) s.hw.darn.held with
  | some op => .when (decide (s.hw.darn.queue.length < 16)) (.darn fun d => { d with queue := d.queue ++ [op], held := d.held.erase op })
  | none => .nil

/-- A queued operation for the same part takes over the fault and the spare of a later report. -/
def DarnOp.merge (op x : DarnOp) : DarnOp :=
  if x.same op then { x with cause := if op.cause = 0 then 0 else x.cause, spare := x.spare.or op.spare } else x

/-- Another block asks for a darning, or reports the spare it has brought in (R657, R662). A fault of the engine whose
planned darning is under way turns it into a fault darning (R666, R672). -/
def darnRequest (op : DarnOp) : Act := .get fun s =>
  let d := s.hw.darn
  if op.kind == 1 && !s.bit Reg.DARN.DARN_CTRL 0 && op.cause == 0 then .nil
  else if op.kind == 2 || op.kind == 7 then darnQueue op
  else match d.run with
    | some r =>
      if r.same op then
        .darn fun d => { d with run := some (op.merge r)
                                stage := if op.kind = 1 ∧ 2 ≤ d.stage ∧ op.cause = 0 then 3 else d.stage }
      else .when (!s.darnKnown op) (darnQueue op)
    | none => if s.darnKnown op then .darn fun d => { d with queue := d.queue.map (DarnOp.merge op) } else darnQueue op

/-- Errors in a memory row (R669): corrected ones are counted over 24 h for the wear reading; an uncorrectable one asks
for a spare row. -/
def rowErrAct (mem row : Nat) (hard : Bool) : Act := .get fun s =>
  if hard then darnRequest { kind := 3, inst := mem, unit := row, cause := 0 }
  else .darn fun d => { d with rowErrs := (mem, row, s.now) :: d.rowErrs.filter fun x => decide (s.now < x.2.2 + 86400000000000) }


/-! ### Choosing a spare (R664) -/

/-- R664: the stripe of the other channel, for an engine one channel is named on. -/
def State.avoidStripe (s : State) (p : Nat) : Option Nat :=
  let a := s.physOf (s.fld Reg.SAFE.CH_A 12 8)
  let b := s.physOf (s.fld Reg.SAFE.CH_B 12 8)
  if !s.bit Reg.SAFE.SAFE_CTRL 0 then none
  else if a = some p then b.map (· / 9) else if b = some p then a.map (· / 9) else none

/-- R664: the spare engine for engine `p`. -/
def State.spareFor (s : State) (p : Nat) : Option Nat :=
  let pool := (List.range 36).filter fun q => s.isSpare q && !s.isFailed q && s.engState q != eFAULT
  let clear := match s.avoidStripe p with
    | some t => pool.filter fun q => q / 9 != t
    | none => pool
  let pick (l : List Nat) : Option Nat :=
    match l.find? fun q => q / 9 == p / 9 with
    | some q => some q
    | none =>
      if !s.bit Reg.DARN.DARN_CTRL 2 then none
      else (leastBy (fun (a b : Nat) => decide ((l.filter fun q => q / 9 == b).length < (l.filter fun q => q / 9 == a).length))
          ((List.range 4).filter fun t => l.any fun q => q / 9 == t)).bind fun t => l.find? fun q => q / 9 == t
  (pick clear).or (pick pool)

/-- R657: spare rows of a memory. For the dies of a MEMC channel the manual gives no number: open. -/
def State.rowSpare (s : State) (mem row fr : Nat) : Option Nat :=
  let used := s.hw.darn.rows.filter fun x => x.1 == mem
  if mem < 36 then
    let u := (used.filter fun x => x.2.1 / 128 == row / 128).length
    if u < 4 then some (row / 128 * 4 + u) else none
  else if mem < 52 then (if used.length < 64 then some used.length else none)
  else if mem = 52 then (if used.length < 128 then some used.length else none)
  else if (Config.freeValue fr 0).getLsbD 0 then some used.length else none

/-- Is the converter channel's spare still there (INVENTORY.AFE)? -/
def State.afeSpare (s : State) (g : Nat) : Bool := s.bit Reg.DARN.INVENTORY (16 + g)
def State.laneSpare (s : State) (k : Nat) : Bool := s.bit Reg.DARN.INVENTORY (20 + k)
def State.phaseSpares (s : State) : Nat := s.fld Reg.DARN.INVENTORY 25 24

/-- The spare for an operation, by kind. -/
def State.darnSpare (s : State) (op : DarnOp) (fr : Nat) : Option Nat :=
  match op.kind with
  | 1 => s.spareFor op.unit
  | 3 => s.rowSpare op.inst op.unit fr
  | 4 => if s.afeSpare op.inst then (List.range 13).find? fun c => (s.chanOf op.inst c).isNone && op.unit != c else none
  | 5 => if op.spare.isSome then op.spare else if s.laneSpare op.inst then
      (List.range 5).find? fun p => !(s.failedLanes op.inst).contains p && p != op.unit &&
        (List.range 4).all fun l => s.fld (Reg.LINK.LANE_MAP op.inst) (3 * l + 2) (3 * l) != p
    else none
  | 6 => if op.spare.isSome then op.spare else if s.phaseSpares = 0 then none else
      [24, 25].find? fun p => !s.bit Reg.VRC.PHASE_EN p && !s.bit Reg.VRC.PHASE_FAIL p
  | _ => op.spare

/-! ### Starting (R661, R664, R665) -/

/-- R664: no spare for an operation. After a fault the part is out of service: an engine's logical engine is unmapped.
A worn part stays in service. -/
def darnNone (op : DarnOp) : Act := .get fun s => .all
  [.when (!op.planned) (commitMap (if op.kind = 1 then .seq (setFailed op.unit true) (match s.logicalOf op.unit with
      | some l => .seq (setEngMap l none) (.setFld (Reg.ENG.ENG_STATE op.unit) 13 8 0x3F)
      | none => .nil)
     else .darn fun d => { d with failed := d.failed ++ [(op.kind, op.inst, op.unit)] })),
   darnLog op 3 0xFFFF, darnRaise 1, .when (op.kind == 3 && decide (53 ≤ op.inst)) (.raise .MEMC (op.inst - 53) 3),
   .wrN Reg.DARN.PENDING 0, .darn fun d => { d with run := none, stage := 0, spare := 0xFFFF }]

/-- Begin an operation: the spare is chosen and the pending record written. -/
def darnBegin (op : DarnOp) : Act := .fresh fun fr => .get fun s =>
  match s.darnSpare op fr with
  | none => if op.kind = 2 ∨ op.kind = 7 then .nil else darnNone op
  | some q => .all
    [.wrN Reg.DARN.PENDING (1 + 2 * op.kind + 256 * op.inst + 65536 * op.unit),
     .darn fun d => { d with run := some { op with spare := some q }, start := s.now, spare := q, stage := if op.kind = 1 then 1 else 3 },
     .when (op.kind == 4) (match s.chanOf op.inst op.unit with
       | some l => .hw fun h => { h with cap := { h.cap with afes := updAt (fun a => { a with switchTo := some (l, q) }) op.inst h.cap.afes } }
       | none => .nil),
     .when (op.kind == 5 && op.spare.isNone) (laneWornAct op.inst op.unit),
     .when (op.kind == 6 && op.spare.isNone) (.hw fun h => { h with pwr := { h.pwr with phaseOut := h.pwr.phaseOut ++ [op.unit] } })]

/-- R662: may the operation start? A converter channel's starts when shadowing has settled. -/
def State.darnReady (s : State) (op : DarnOp) : Bool :=
  op.kind != 4 || decide (256 ≤ (s.afe op.inst).shadowN) || !s.afeSpare op.inst

/-- DARN_OPERATION_START. -/
def darnStartAct : Act := .get fun s =>
  .when (s.hw.darn.run.isNone && !s.hw.boot.frozen) <|
    match leastBy (fun a b => decide (s.darnRank a < s.darnRank b)) (s.hw.darn.queue.filter s.darnReady) with
    | none => .nil
    | some op => .all [.darn fun d => { d with queue := d.queue.erase op }, darnRefill, darnBegin op]

/-! ### Testing and switching (R665, R667) -/

/-- R525: the slices of R524 that test an engine raise the counters they name. -/
def testCounts (p : Nat) : Act := .all
  [.bump (Reg.ENG.CHK_ROW p) 1, .bump (Reg.ENG.CHK_TILE p) 1, .satFld (Reg.ENG.ES_ECC p) 15 0 1, .satFld (Reg.ENG.ES_ECC p) 31 16 1,
   .bump (Reg.ENG.VU_CHK p) 1]

/-- SPARE_TEST_DONE (R665 step 2, R667). -/
def spareTestAct (pass : Bool) : Act := .get fun s => match s.hw.darn.run with
  | none => .nil
  | some op =>
    let q := s.hw.darn.spare
    .when (op.kind == 1 && s.hw.darn.stage == 1) <|
      if pass then .seq (testCounts q) (.darn fun d => { d with stage := if op.planned then 2 else 3 })
      else .all
        [commitMap (.seq (setSpare q false) (setFailed q true)), setEngState q eFAULT, .raise .ENG q 1,
         darnLog op 1 q, darnRaise 2, darnBegin op]

/-- DARN_SWITCH (R665 step 4): at a commit of the old engine, or by frogging its command. -/
def darnSwitchAct (atCommit : Bool) : Act := .get fun s => match s.hw.darn.run with
  | none => .nil
  | some op =>
    .when (op.kind == 1 && s.hw.darn.stage == 2 && (!atCommit || (s.eng op.unit).cmd.isNone)) <|
      .seq (.when (!atCommit) (frogOn op.unit 0x4F)) (.darn fun d => { d with stage := 3 })

/-! ### The commit (R659, R660, R665, R666, R759) -/

/-- R665 step 3: the store of engine `q` becomes a copy of that of engine `p`. -/
def copyStore (p q : Nat) : Act := .get fun s => .seq (.upd (.dropEs fun a => a / 0x400000 == q)) <|
  .each (s.es.filter fun e => e.1 / 0x400000 == p) fun e => .upd (.es (esAddr q (e.1 % 0x400000)) [e.2])

/-- R759: engine `q` takes the place of engine `p`. -/
def engineSwap (op : DarnOp) (q : Nat) : Act := .get fun s =>
  let p := op.unit
  let fault := !op.planned
  .all
    [frogOn p (if fault then 0x41 else 0x4F),
     (match s.logicalOf p with
      | some l => .seq (setEngMap l (some q)) (.setFld (Reg.ENG.ENG_STATE q) 13 8 l)
      | none => .nil),
     setSpare q false, setFailed p true,
     .wr (Reg.ENG.CTRL q) (s.rd (Reg.ENG.CTRL p)), .wr (Reg.ENG.DUMMY q) (s.rd (Reg.ENG.DUMMY p)),
     .wr (Reg.ENG.TRANS_THRESH q) (s.rd (Reg.ENG.TRANS_THRESH p)), .wr (Reg.ENG.CTRL p) (Reg.ENG.CTRL p).resetVal,
     .when (fault && s.engState p != eFAULT) (.raise .ENG p 1),
     setEngState q eIDLE, setEngState p (if fault then eFAULT else eOFF), .setFld (Reg.ENG.ENG_STATE p) 13 8 0x3F,
     .eng p (fun _ => {}), .eng q (fun _ => { idleSince := s.now }),
     (if fault then .upd (.dropEs fun a => a / 0x400000 == q) else copyStore p q),
     .disp fun d => { d with holds := if fault then d.holds.filter (fun h => h.1 != p && h.1 != q)
       else (d.holds.filter fun h => h.1 != q).map fun h => if h.1 = p then (q, h.2) else h }]

/-- What the new map changes, by kind. -/
def mapChange (op : DarnOp) (q : Nat) : Act := .get fun s =>
  match op.kind with
  | 1 => engineSwap op q
  | 2 => .darn fun d => { d with arr := (List.range 36).map fun p => s.rd (Reg.ENG.ARR_REPAIR p) }
  | 3 => .darn fun d => { d with rows := d.rows ++ [(op.inst, op.unit, q)],
                                 rowErrs := d.rowErrs.filter fun x => !(x.1 == op.inst && x.2.1 == op.unit) }
  | 4 => .setFld Reg.DARN.INVENTORY (16 + op.inst) (16 + op.inst) 0
  | 5 => .setFld Reg.DARN.INVENTORY (20 + op.inst) (20 + op.inst) 0
  | 6 => .setFld Reg.DARN.INVENTORY 25 24 (s.phaseSpares - 1)
  | 7 => .darn fun d => { d with cols := (List.range 4).map fun i => s.rd (Reg.FCE.COL_REPAIR i) }
  | _ => .nil

/-- Has the last spare of the operation's kind and place gone? -/
def State.exhausted (s : State) (op : DarnOp) (q : Nat) : Bool :=
  match op.kind with
  | 1 => s.sparesIn (q / 9) == 0
  | 4 => true
  | 5 => true
  | 6 => s.phaseSpares == 0
  | 2 => true
  | 7 => true
  | _ => false

/-- May the map commit? The converter channel has been switched, the spare phase is in. -/
def State.mapReady (s : State) (op : DarnOp) : Bool :=
  match op.kind with
  | 4 => (s.afe op.inst).switchTo.isNone
  | 6 => !s.hw.pwr.phaseOut.contains op.unit
  | _ => true

/-- DARN_MAP_COMMIT. -/
def darnCommitAct : Act := .get fun s => match s.hw.darn.run with
  | none => .nil
  | some op =>
    let q := s.hw.darn.spare
    .when (s.hw.darn.stage == 3 && s.mapReady op && !s.hw.boot.frozen) <| .all
      [commitMap (mapChange op q),
       .when (op.kind == 1) (.kv fun k => { k with labs := List.replicate 36 [] }),
       .when (op.kind != 1 && op.kind != 2 && op.kind != 7) (.darn fun d => { d with failed := d.failed ++ [(op.kind, op.inst, op.unit)] }),
       darnLog op 0 q, darnRaise 0,
       .when (op.kind == 3 && decide (53 ≤ op.inst)) (.bump (Reg.MEMC.PPR_CNT (op.inst - 53)) 1), .get fun t => .when (t.exhausted op q) (darnRaise 1),
       .wrN Reg.DARN.PENDING 0,
       .darn fun d => { d with run := none, stage := 0, spare := 0xFFFF, start := 0 }]

/-- R661: the operation under way is interrupted; its pending record survives. The queue is lost with the reset. -/
def darnInterrupt : Act := .get fun s => .seq
  (match s.hw.darn.run with
   | some op => darnLog op 2 0xFFFF
   | none => .nil)
  (.darn fun d => { d with run := none, stage := 0, spare := 0xFFFF, start := 0, queue := [], held := [] })

/-! ### Wear (R670) -/

/-- Is the part in service, so that it can wear? A spare chosen for a darning is, too (R672). -/
def State.inService (s : State) (op : DarnOp) : Bool :=
  match op.kind with
  | 1 => (s.logicalOf op.unit).isSome || (s.hw.darn.spare == op.unit && s.hw.darn.run.any fun r => r.kind == 1)
  | 3 => decide (op.inst < 61)
  | 4 => decide (op.inst < 4) && s.converts op.inst op.unit
  | 5 => decide (op.inst < 4) && !(s.failedLanes op.inst).contains op.unit
  | 6 => s.bit Reg.VRC.PHASE_EN op.unit
  | _ => false

/-- R669: each AFE group keeps its spare shadowing the logical channel with the highest wear score. -/
def shadowWorst (g : Nat) : Act := .get fun s =>
  let l := (List.range 12).map fun k =>
    let c := if k < 8 then s.fld (Reg.AFE.CH_MAP_LO g) (4 * k + 3) (4 * k) else s.fld (Reg.AFE.CH_MAP_HI g) (4 * (k - 8) + 3) (4 * (k - 8))
    (((s.hw.darn.wear.find? fun x => x.1 == (4, g, c)).map (·.2.1)).getD 0, k)
  match leastBy (fun (a b : Nat × Nat) => decide (b.1 < a.1)) l with
  | some (_, k) => .when (s.afeSpare g && (s.afe g).switchTo.isNone && !(s.bit (Reg.AFE.SHADOW g) 4 && s.fld (Reg.AFE.SHADOW g) 3 0 == k)) <|
      .seq (.wrN (Reg.AFE.SHADOW g) (k + 16))
        (.hw fun h => { h with cap := { h.cap with afes := updAt (fun a => { a with shadowN := 0, settled := false }) g h.cap.afes } })
  | none => .nil

/-- R670: is engine `p`, whose ring oscillators show the slowdown `value`, worn? Its slowdown is above ENG_SLOW, or it had
three TRANS_THRESH events within 24 h; that AVS stood at its upper limit for 1 h (`held`) the environment says. -/
def State.engWorn (s : State) (p value : Nat) (held : Bool) : Bool :=
  held || decide (s.fld Reg.DARN.ENG_SLOW 9 0 < value) ||
    decide (3 ≤ (s.hw.darn.thresh.filter fun x => x.1 == p && decide (s.now < x.2 + 86400000000000)).length)

/-- R671: the retained maximum of a wear monitor, after another reading. -/
def wearMax (key : Nat × Nat × Nat) (value : Nat) (l : List ((Nat × Nat × Nat) × Nat)) : List ((Nat × Nat × Nat) × Nat) :=
  (l.filter fun x => x.1 != key) ++ [(key, max value (((l.find? fun x => x.1 == key).map (·.2)).getD 0))]

/-- WEAR_READ: one monitor's reading. A row's wear is its count of corrected errors (R669); an engine's reading is held
against R670's limits; of the other monitors the environment says whether the limit of R670 is passed (log entry 40). -/
def wearReadAct (kind inst u value : Nat) (worn : Bool) : Act := .get fun s =>
  let op : DarnOp := { kind := kind, inst := inst, unit := u, cause := 1 }
  let n := s.rowCount inst u
  let value := if kind = 3 then min n 65535 else value
  let worn := if kind = 3 then decide (max 1 (s.fld Reg.DARN.ROW_THRESH 7 0) ≤ n)
    else if kind = 1 then s.engWorn u value worn else worn
  let before := ((s.hw.darn.wear.find? fun x => x.1 == (kind, inst, u)).map (·.2.2)).getD false
  .when (s.inService op) <| .all
    [.darn fun d => { d with wear := (d.wear.filter fun x => x.1 != (kind, inst, u)) ++ [((kind, inst, u), value, worn)],
                             maxima := wearMax (kind, inst, u) value d.maxima },
     .when (worn && !before) (darnRaise 3),
     .when (worn && s.bit Reg.DARN.DARN_CTRL 1 && !s.darnKnown op) (darnQueue op),
     .when (kind == 4) (shadowWorst inst)]

/-! ### DARN_CMD (R661, R662, R664, R668, R673) -/

/-- DARN_RESULT: 0 accepted, else the reason. -/
def darnResult (reason : Nat) : Act := .wrN Reg.DARN.DARN_RESULT (1 + 2 * b2n (reason == 0) + 256 * reason)

/-- Does the command name a part DARN can darn? -/
def State.darnTarget (s : State) (op : DarnOp) : Bool :=
  match op.kind with
  | 1 => decide (op.unit < 36) && op.inst == op.unit / 9 && (s.logicalOf op.unit).isSome
  | 3 => decide (op.inst < 61)
  | 4 => decide (op.inst < 4 ∧ op.unit < 13) && (s.chanOf op.inst op.unit).isSome
  | 5 => decide (op.inst < 4 ∧ op.unit < 5)
  | 6 => op.inst == 0 && decide (op.unit < 26) && s.bit Reg.VRC.PHASE_EN op.unit
  | _ => false

/-- DARN: why it is refused, 0 when it is queued. -/
def State.darnReason (s : State) (op : DarnOp) : Nat :=
  if !s.darnTarget op then 3
  else if s.darnKnown op || decide (16 ≤ s.hw.darn.queue.length) then 1
  else if op.kind != 3 && (s.darnSpare op 0).isNone then 2 else 0

/-- The operation of the pending record. -/
def State.pendingOp (s : State) : Option DarnOp :=
  let w := s.rd Reg.DARN.PENDING
  if w.getLsbD 0 then some { kind := bits w 4 1, inst := bits w 15 8, unit := bits w 31 16, cause := 2 } else none

/-- DARN_CMD written. -/
def darnCmdAct (v : Word) : Act := .get fun s =>
  let op : DarnOp := { kind := bits v 7 4, inst := bits v 15 8, unit := bits v 31 16, cause := 2 }
  let kindOk := decide (1 ≤ op.kind ∧ op.kind ≤ 7)
  match bits v 3 0 with
  | 1 =>
    let r := s.darnReason op
    .seq (darnResult r) (.when (r == 0) (darnQueue op))
  | 2 => match s.pendingOp with
    | none => darnResult 4
    | some x => if !kindOk then darnResult 3 else if s.darnKnown x || decide (16 ≤ s.hw.darn.queue.length) then darnResult 1
      else .seq (darnResult 0) (darnQueue x)
  | 3 =>
    if op.kind = 1 ∧ op.unit < 36 ∧ s.isFailed op.unit then .all
      [darnResult 0, commitMap (setFailed op.unit false), .darn fun d => { d with unfail := d.unfail ++ [op.unit] }]
    else darnResult 3
  | 4 => match s.pendingOp with
    | none => darnResult 4
    | some x => if !kindOk then darnResult 3 else if s.hw.darn.run.any x.same then darnResult 1
      else .seq (darnResult 0) (.wrN Reg.DARN.PENDING 0)
  | _ => darnResult 3

def darnWrite (off : Nat) (v : Word) : Act := if off = 0x060 then darnCmdAct v else .nil

def darnComputed (s : State) (off : Nat) : Option Word :=
  let d := s.hw.darn
  if off = 0x044 then
    let r := d.run.getD {}
    some (BitVec.ofNat 32 (b2n d.run.isSome + 2 * r.kind + 256 * r.inst + 65536 * d.queue.length))
  else if off = 0x078 then
    let w := s.rd Reg.DARN.WEAR_SEL
    match d.wear.find? fun x => x.1 == (bits w 3 0, bits w 15 8, bits w 31 16) with
    | some x => some (BitVec.ofNat 32 (x.2.1 + 65536 * b2n x.2.2))
    | none => some 0
  else if off = 0x07C then some (BitVec.ofNat 32 (d.log.length + 65536 * min d.total 65535))
  else if 0x084 ≤ off ∧ off < 0x094 then
    let e := d.log.getD (s.fld Reg.DARN.LOG_SEL 7 0) 0
    some ((e >>> (8 * (off - 0x084))).setWidth 32)
  else none

end Sys2Proof.Machine
end

