-- ==== Sys2Proof/Machine/Monitor.lean ====
section
/-! DEFINITION. The deadline monitor (08_item_to_decision): followed items, stages, the switch to the fallback, rejects,
decision units, and sweeps across devices. -/

namespace Sys2Proof.Machine

/-! ### Items -/

def Act.mon (id : BitVec 48) (f : MonItem → MonItem) : Act :=
  .disp fun d => { d with items := d.items.map fun x => if x.id = id then f x else x }
/-- Run with the followed item, when there is one. -/
def Act.withItem (id : BitVec 48) (k : MonItem → Act) : Act := .get fun s => match s.monItem id with
  | some x => k x
  | none => .nil

/-- The device that opened an item (R31). -/
def openerOf (id : BitVec 48) : Nat := bits id 47 45

/-- The devices of a profile's sweep. -/
def State.sweepDevs (s : State) (prof : Nat) : List Nat := (List.range 8).filter fun d => (s.profSweep prof).getLsbD d

/-- The commands of an item: those whose input unit belongs to it. -/
def State.itemCmds (s : State) (id : BitVec 48) : List Cmd :=
  s.hw.disp.cmds.filter fun c => match c.input with
    | some u => u.item == id
    | none => false

/-- R345, R349, R352: the monitor aborts a command. -/
def monAbortCmd (cid : Nat) : Act := .withCmd cid fun c => .get fun s => .seq
  (.each (s.siblings c) fun x => .cmd x.id fun y => { y with monAbort := true })
  (endRequest cid stABORTED 0x48 0xFFFF false)

/-- Abort the commands of an item that are picked. -/
def abortItem (id : BitVec 48) (pick : Cmd → Bool) : Act := .get fun s =>
  .each ((s.itemCmds id).filter pick) fun c => monAbortCmd c.id

/-- R346: the fallback commands of an item that are still parked. -/
def Cmd.isParked (c : Cmd) : Bool := c.parked && !c.released

/-! ### Decision units (R354 to R356) -/

/-- The 64 bytes of a decision record. -/
def recBytes (r : DecisionRecord) : List Byte :=
  leBytes 4 r.dest.toNat ++ [r.outcome, r.reason, r.info, r.profile] ++ leBytes 4 r.conf.toNat ++ leBytes 8 r.tDue.toNat ++
  leBytes 8 r.tCommit.toNat ++ leBytes 8 r.breakTsc.toNat ++ [r.lostDev, r.chosenDev, r.candMask, 0] ++
  (List.range 24).map fun i => r.text.getD i 0

/-- What the final stage of an item writes of its record: DEST, CONF and DEST_TEXT. -/
def recOf (l : List Byte) : DecisionRecord :=
  let n (i k : Nat) := leNat ((l.drop i).take k)
  { dest := BitVec.ofNat 32 (n 0 4), outcome := 0, reason := 0, info := 0, profile := 0, conf := BitVec.ofNat 32 (n 8 4), tDue := 0,
    tCommit := 0, breakTsc := 0, lostDev := 0xFF, chosenDev := 0, candMask := 0, text := (l.drop 40).take 24 }

/-- A record without a result: no destination; CONF and DEST_TEXT are open (log entry 51). -/
def emptyRec (fr : Nat) : DecisionRecord :=
  { dest := 0xFFFFFFFF, outcome := 0, reason := 0, info := 0, profile := 0, conf := openWord fr 0, tDue := 0, tCommit := 0,
    breakTsc := 0, lostDev := 0xFF, chosenDev := 0, candMask := 0,
    text := (List.range 24).map fun i => (Config.freeValue fr (i + 1)).setWidth 8 }

/-- The fields the monitor writes (R354). -/
def State.fillRec (s : State) (x : MonItem) (r : DecisionRecord) : DecisionRecord :=
  { r with info := BitVec.ofNat 8 (b2n x.fallback + 2 * b2n x.narrow), profile := BitVec.ofNat 8 x.prof,
           tDue := BitVec.ofNat 64 (s.tDue x), tCommit := BitVec.ofNat 64 s.now }

/-- R355, R356: the decision unit of an item with frame counter `fc`. -/
def State.decisionUnit (s : State) (x : MonItem) (r : DecisionRecord) (flags : BitVec 16) (fc : Nat) : DUnit :=
  let n := s.profOutStream x.prof
  let u := unitWith x.stamp x.id x.cls (s.streamRec n).ctx 0x13 96 (degradedIn x.cls (passOn (x.flags ||| flags)) ||| flagsOf [fLAST])
    (recBytes r)
  let v := { u with stream := BitVec.ofNat 12 (s.devNum * 512 + n), fc := BitVec.ofNat 16 fc }
  (if s.hw.boot.outInvalid || s.hw.disp.broken.contains x.id then v.set fINVALID else v).sealed

/-- R356: into the next slot of the profile's decision ring, and to the CEU unless HOST_ONLY is 1 or `ring` only. -/
def emitRecord (x : MonItem) (r : DecisionRecord) (flags : BitVec 16) (ceu : Bool) : Act := .get fun s =>
  let r := s.fillRec x r
  let fc := alGet 0 x.prof s.hw.disp.ringNext
  let u := s.decisionUnit x r flags fc
  .all [.guarded x.cls (s.profRing x.prof + 96 * (fc % 256)) u.toBytes,
        .disp fun d => { d with ringNext := alPut 0 x.prof ((fc + 1) % 65536) d.ringNext },
        .when (ceu && !(s.profPolicy x.prof).getLsbD 6)
          (.event (.decision (bits (s.profOut x.prof) 1 0) (bits (s.profOut x.prof) 4 2) u))]

/-- R337, R353: the item is decided. Fallback commands still parked complete ABORTED (R346). -/
def decide_ (x : MonItem) : Act := .get fun s => .all
  [.disp fun d => { d with items := d.items.filter fun y => y.id != x.id
                           decided := d.decided ++ [{ id := x.id, prof := x.prof, stamp := x.stamp, cls := x.cls,
                                                      cands := (x.cands.map (·.1)).foldl (fun m d => m ||| 2 ^ d) 0 }] },
   .each ((s.itemCmds x.id).filter Cmd.isParked) fun c => monAbortCmd c.id]

/-- Emit the item's one decision: into the ring and to the CEU; a sweep follower sends it to the opener as its candidate
and keeps a copy in its ring (R362). After a power-fail warning none commits (R721 step 2). -/
def decision (x : MonItem) (r : DecisionRecord) (flags : BitVec 16) : Act := .get fun s =>
  .when (!s.hw.boot.frozen) <| if s.profRole x.prof = 2 then
    let r := s.fillRec x { r with outcome := if r.outcome = 0 then 2 else r.outcome }
    .all [emitRecord x r flags false,
          sendOut (.flit (openerOf x.id) "candidate" (leBytes 6 x.id.toNat ++ leBytes 2 (x.flags ||| flags).toNat ++ recBytes r)),
          decide_ x]
  else .seq (emitRecord x r flags true) (decide_ x)

/-- R351: a reject that no record of the item led to. `lost`: the device lost in a sweep break. -/
def reject (id : BitVec 48) (reason : Nat) (lost : Option Nat := none) : Act := .withItem id fun x => .fresh fun fr => .get fun s =>
  let base := match x.held with
    | some (r, _) => r
    | none => emptyRec fr
  decision x { base with
    outcome := 1, reason := BitVec.ofNat 8 reason, chosenDev := BitVec.ofNat 8 s.devNum,
    breakTsc := if lost.isSome then BitVec.ofNat 64 s.now else 0, lostDev := BitVec.ofNat 8 (lost.getD 0xFF) } 0

/-! ### Switching (R342 to R346) -/

/-- R342: is the fallback ready? -/
def State.fbReady (s : State) (x : MonItem) : Bool :=
  s.profFb x.prof != 0 && !x.fallback && (List.range (s.profFb x.prof)).all fun i => x.stages.getLsbD i

/-- R343: may the fallback still finish? -/
def State.fbFits (s : State) (x : MonItem) : Bool := s.fbReady x && decide (s.now + s.profTime x.prof 12 ≤ s.tEmit x)

/-- R345, R346: the switch. -/
def switchItem (id : BitVec 48) : Act := .withItem id fun x => .get fun s =>
  let fb := s.profFb x.prof
  let parked := (s.itemCmds id).filter Cmd.isParked
  .all [.mon id fun y => { y with fallback := true },
        abortItem id fun c => !c.parked && decide (fb ≤ Desc.stage c.desc),
        .disp fun d => { d with removed := d.removed.filter (fun r => r.1 != id) ++ [(id, [])] },
        dispRaise 24,
        if parked.isEmpty then reject id 8
        else .each parked fun c => .seq (.cmd c.id fun y => { y with released := true }) (settle c.id)]

/-- R343: evaluated when stage `i` completes. -/
def projectStage (id : BitVec 48) (i : Nat) : Act := .withItem id fun x => .get fun s =>
  let p := s.now + sumNat (((List.range (s.profStages x.prof)).filter fun j => decide (i < j) && !x.stages.getLsbD j).map (s.stageBudget x.prof))
  .when (decide (s.tEmit x < p) && s.fbFits x) (switchItem id)

/-- T_SW_EXPIRY (R344). -/
def tSwAct (id : BitVec 48) : Act := .withItem id fun x => .get fun s => match s.tSw x with
  | some t => .when (decide (t ≤ s.now) && x.held.isNone && !(x.cands.any fun c => c.1 == s.devNum) && s.fbReady x) (switchItem id)
  | none => .nil

/-! ### Records (R350, R351, R363) -/

/-- Is CONF a finite number of at least CONF_MIN? -/
def State.confOk (s : State) (prof : Nat) (conf : Word) : Bool :=
  f32Finite conf.toNat && !(f32Dy conf.toNat).lt (f32Dy (s.profConfMin prof))

/-- The lowest reason that holds for a record whose unit carries `flags`; 0: none. -/
def State.recReason (s : State) (x : MonItem) (r : DecisionRecord) (flags : BitVec 16) : Nat :=
  if flags.getLsbD fINVALID then 3
  else if !s.confOk x.prof r.conf then 4
  else if flags.getLsbD fUNCERTAIN && (s.profPolicy x.prof).getLsbD 5 then 5
  else if r.dest = 0xFFFFFFFF#32 then 9 else 0

/-- R363: does a candidate count for SORT? -/
def State.candCounts (s : State) (prof : Nat) (c : Nat × DecisionRecord × Bool) : Bool :=
  c.2.1.outcome == 2 && !c.2.2 && s.confOk prof c.2.1.conf

/-- The reason a candidate that does not count stands for. -/
def State.candReason (c : Nat × DecisionRecord × Bool) : Nat :=
  if c.2.1.outcome = 1 then c.2.1.reason.toNat else if c.2.2 then 3 else 4

/-- R363: the merge of the candidates present. -/
def mergeCands (id : BitVec 48) : Act := .withItem id fun x => .fresh fun fr => .get fun s =>
  let good := x.cands.filter (s.candCounts x.prof)
  let mask := BitVec.ofNat 8 (x.cands.foldl (fun m c => m ||| 2 ^ c.1) 0)
  let no (reason : Nat) : Act := decision x { emptyRec fr with
    outcome := 1, reason := BitVec.ofNat 8 reason, chosenDev := BitVec.ofNat 8 s.devNum, candMask := mask } 0
  match leastBy (fun a b => (f32Dy b.2.1.conf.toNat).lt (f32Dy a.2.1.conf.toNat) ||
      (!(f32Dy a.2.1.conf.toNat).lt (f32Dy b.2.1.conf.toNat) && decide (a.1 < b.1))) good with
  | none => no ((x.cands.map State.candReason).foldl min (if x.cands.isEmpty then 1 else 255))
  | some best =>
    if good.any fun c => c.2.1.dest != best.2.1.dest then no 11
    else decision x { best.2.1 with outcome := 0, reason := 0, chosenDev := BitVec.ofNat 8 best.1, candMask := mask, breakTsc := 0,
                                    lostDev := 0xFF } 0

/-- R363: merge once a candidate of every device of the sweep is there. -/
def mergeIfAll (id : BitVec 48) : Act := .withItem id fun x => .get fun s =>
  .when ((s.sweepDevs x.prof).all fun d => x.cands.any fun c => c.1 == d) (mergeCands id)

/-- R350: may a decision record of the item still be taken? -/
def State.recordDue (s : State) (x : MonItem) : Bool :=
  x.held.isNone && !(x.cands.any fun c => c.1 == s.devNum) && decide (s.now ≤ s.tEmit x)

/-- R350: nothing of the item's capture is still awaited under HOLD_LAST. -/
def State.holdOver (s : State) (x : MonItem) : Bool := !(s.profPolicy x.prof).getLsbD 4 || x.streams.all (·.2)

/-- R350: the record held for an item is accepted, and emitted or turned into a reject. -/
def acceptHeld (id : BitVec 48) : Act := .withItem id fun x => .get fun s => match x.held with
  | none => .nil
  | some (r, fl) =>
    let reason := s.recReason x r fl
    let r := { r with outcome := if reason = 0 then 0 else 1, reason := BitVec.ofNat 8 reason, chosenDev := BitVec.ofNat 8 s.devNum }
    .when (decide (s.now ≤ s.tEmit x) && s.holdOver x) <|
      if s.profRole x.prof = 1 then .all
        [.mon id fun y => { y with held := none, cands := (y.cands.filter fun c => c.1 != s.devNum) ++
            [(s.devNum, s.fillRec x { r with outcome := if reason = 0 then 2 else 1 }, fl.getLsbD fINVALID)] },
         .each ((s.itemCmds id).filter Cmd.isParked) fun c => monAbortCmd c.id, mergeIfAll id]
      else decision x r fl

/-- R350: a decision record of the item commits. -/
def recordCommitted (u : DUnit) : Act := .withItem u.item fun x => .get fun s =>
  .when (s.recordDue x) <| .seq    (.mon u.item fun y => { y with held := some (recOf u.payload, u.flags) }) (acceptHeld u.item)

/-- HOLD_LAST_RELEASE (R350). -/
def holdLastAct (id : BitVec 48) : Act := acceptHeld id

/-- R352: no accepted record at T_emit. -/
def deadlineReject (id : BitVec 48) : Act := .all [reject id 1, dispRaise 25, abortItem id fun _ => true]

/-- T_EMIT_EXPIRY (R352, R363). -/
def tEmitAct (id : BitVec 48) : Act := .withItem id fun x => .get fun s =>
  .when (decide (s.tEmit x ≤ s.now) && !s.hw.boot.frozen) <|
    if s.profRole x.prof = 1 ∧ !x.cands.isEmpty then
      .seq (mergeCands id) (.when (!(x.cands.any fun c => c.1 == s.devNum)) (abortItem id fun _ => true))
    else deadlineReject id

/-! ### What happens to commands of an item (R342, R343, R347, R348) -/

/-- R354: is this unit of a command the decision record of a followed item? -/
def State.isRecord (s : State) (c : Cmd) (x : MonItem) (u : DUnit) : Bool :=
  u.item == x.id && u.fmt == 0x13 && u.payload.length == 64 && Desc.stage c.desc + 1 == s.profStages x.prof

/-- A unit of a command commits: its item's stage may be complete, and the final stage's record accepted (R354). -/
def unitCommitted (c : Cmd) (u : DUnit) : Act := .withItem u.item fun x => .all
  [.mon x.id fun y => { y with flags := y.flags ||| u.passed,
                               stages := if u.has fLAST then putBit y.stages (Desc.stage c.desc) true else y.stages },
   .get fun s => .when (s.isRecord c x u) (recordCommitted u),
   .when (u.has fLAST) (projectStage x.id (Desc.stage c.desc))]

/-- R347 with DECLINE 2, R351: a record that the same command commits and that would be accepted now may itself stand for a
lower reason. -/
def declinedReject (c : Cmd) (x : MonItem) : Act := .get fun s =>
  match (c.outs.map (·.unit)).find? (s.isRecord c x) with
  | none => reject x.id 6
  | some u =>
    let r := recOf u.payload
    let open_ := s.recordDue x && s.holdOver x
    let reason := s.recReason x r u.flags
    .seq (.when open_ (.mon x.id fun y => { y with held := some (r, u.flags), flags := y.flags ||| u.passed }))
      (reject x.id (if open_ && reason != 0 then min reason 6 else 6))

/-- R347: a completion of the primary pipeline reports a declined wide re-run. -/
def declinedBefore (c : Cmd) (id : BitVec 48) : Act := .withItem id fun x => .get fun s =>
  .when (c.declined && !c.parked) <| match s.profDecline x.prof with
    | 0 => .mon id fun y => { y with narrow := true }
    | 2 => declinedReject c x
    | _ => .nil
def declinedAfter (c : Cmd) (id : BitVec 48) : Act := .withItem id fun x => .get fun s =>
  .when (c.declined && !c.parked && s.profDecline x.prof == 1 && s.fbFits x) (switchItem id)

/-- A command committed. -/
def monCommitted (c : Cmd) : Act :=
  let id := match c.input with
    | some u => u.item
    | none => 0
  .all [declinedBefore c id, .each c.outs (fun o => unitCommitted c o.unit), declinedAfter c id]

/-- R348: a command ended FAULT or ABORTED without the monitor's doing. -/
def monFailed (c : Cmd) (status : Nat) : Act := match c.input with
  | none => .nil
  | some u => .withItem u.item fun x => .get fun s =>
    .when ((status == stFAULT || status == stABORTED) && !c.monAbort) <|
      if !c.parked && s.fbFits x then switchItem x.id else reject x.id 8

/-! ### Items open, units pass (R337, R340, R341, R349, R350) -/

/-- Follow an item under profile `i`, or reject it when 4,096 are followed. -/
def followItem (i : Nat) (id : BitVec 48) (stamp : Nat) (fixed : Bool) (cls : Nat) (streams : List (Nat × Bool)) : Act := .get fun s =>
  let x : MonItem := { id := id, prof := i, stamp := stamp, fixed := fixed, cls := cls, streams := streams }
  let full := decide (4096 ≤ s.hw.disp.items.length)
  .seq (.disp fun d => { d with items := d.items ++ [x] }) (.when full (reject id 10))

/-- A sweep message to every other device of the sweep (R360). -/
def sendSweep (kind : String) (i : Nat) (id : BitVec 48) (stamp : Nat) : Act := .get fun s =>
  .each ((s.sweepDevs i).filter (· != s.devNum)) fun d =>
    sendOut (.flit d kind (leBytes 6 id.toNat ++ leBytes 8 stamp ++ leBytes 1 i))

/-- The profile a band stream opens items under. -/
def State.openProfile (s : State) (n : Nat) : Option Nat :=
  (List.range 64).find? fun i => s.profValid i && s.profRole i != 2 && s.profStream i % 4096 == s.devNum * 512 + n

/-- An item opened on scan path `p`. -/
def monOpen (p : Nat) (id : BitVec 48) (stamp : Nat) : Act := .get fun s =>
  let n := s.fld (Reg.SFE.PATH_STREAM p) 8 0
  match s.monItem id with
  | some _ => .mon id fun x => { x with streams := x.streams ++ [(n, false)], cls := if x.streams.isEmpty then s.fld (Reg.SFE.PATH_STREAM p) 19 18 else x.cls }
  | none =>
    if s.hw.disp.decided.any fun d => d.1 == id then .nil
    else match s.openProfile n with
      | none => dispRaise 27
      | some i => .seq (followItem i id stamp false (s.fld (Reg.SFE.PATH_STREAM p) 19 18) [(n, false)])
          (.when (s.profRole i == 1) (sendSweep "sweep open" i id stamp))

/-- The item of scan path `p` closed: a sweep opener tells its followers (R360). -/
def monClose (p : Nat) (id : BitVec 48) : Act := .get fun s =>
  let n := s.fld (Reg.SFE.PATH_STREAM p) 8 0
  let prof := match s.monItem id with
    | some x => some (x.prof, x.stamp)
    | none => (s.hw.disp.decided.find? fun d => d.id == id).map fun d => (d.prof, d.stamp)
  match prof with
  | some (i, t) => .when (s.profRole i == 1 && s.profStream i % 4096 == s.devNum * 512 + n) (sendSweep "sweep close" i id t)
  | none => .nil

/-- A unit of a followed item passes on local stream `n`. A capture unit fixes S, ends its stream's wait, and with
INVALID rejects the item (R349). Source 384 names this device's scan paths only on a unit of this device (R64). -/
def monUnit (n : Nat) (u : DUnit) : Act := .withItem u.item fun x => .get fun s =>
  let capture := u.source == 384 && u.stream.toNat / 512 == s.devNum && !u.has fREMOTE
  .all [.mon x.id fun y => { y with
          flags := y.flags ||| u.passed,
          stamp := if capture ∧ !y.fixed then u.stamp.toNat else y.stamp, fixed := y.fixed || capture,
          streams := if capture ∧ u.has fLAST then y.streams.map fun z => if z.1 = n then (n, true) else z else y.streams },
        .when (capture && u.has fINVALID) (.seq (reject x.id 2) (abortItem x.id fun _ => true))]

/-! ### Sweeps (R361 to R366) -/

/-- R361: the follower profile a sweep message belongs to. -/
def State.sweepProfile (s : State) (id : BitVec 48) (prof : Nat) : Option Nat :=
  (List.range 64).find? fun i => s.profValid i && s.profRole i == 2 && s.profStream i % 4096 == openerOf id * 512 + prof

/-- Scan paths that take the items of follower profile `i`. -/
def State.sweepPaths (s : State) (i : Nat) : List Nat :=
  (List.range 16).filter fun p => s.pathOn p && s.pItemSrc p == 3 && s.fld (Reg.SFE.PATH_CTRL p) 31 26 == i

/-- SWEEP_OPEN_MESSAGE (R361). -/
def sweepOpenAct (id : BitVec 48) (stamp prof : Nat) : Act := .get fun s => match s.sweepProfile id prof with
  | none => dispRaise 27
  | some i => .when ((s.monItem id).isNone && !s.hw.disp.decided.any fun d => d.id == id) <|
      .seq (followItem i id stamp true 1 []) (.each (s.sweepPaths i) fun p => openItem p id true (some stamp))

/-- SWEEP_CLOSE_MESSAGE (R361). -/
def sweepCloseAct (id : BitVec 48) (prof : Nat) : Act := .get fun s => match s.sweepProfile id prof with
  | none => dispRaise 27
  | some i => .each (s.sweepPaths i) fun p => match s.itemOpenOn p with
    | some y => .when (y.id == id) (closeItem p true)
    | none => .nil

/-- SWEEP_CANDIDATE_ARRIVE (R353, R363, R366): what comes over a route reported lost is quarantined. -/
def candidateAct (d : Nat) (id : BitVec 48) (r : DecisionRecord) (invalid : Bool) : Act := .get fun s =>
  if s.bit Reg.LINK.ROUTE_LOST d then quarantine
  else match s.monItem id with
    | some x => .when (s.profRole x.prof == 1 && (s.sweepDevs x.prof).contains d && !(x.cands.any fun c => c.1 == d)) <|
        .seq (.mon id fun y => { y with cands := y.cands ++ [(d, r, invalid)] }) (mergeIfAll id)
    | none => .disp fun z => { z with decided := z.decided.map fun e => if e.id = id then { e with cands := e.cands ||| 2 ^ d } else e }

/-- R364, R365: later units of the item carry INVALID, a BREAK record goes into the ring, source 122 is raised. -/
def breakRecord (x : MonItem) (d : Nat) : Act := .fresh fun fr => .get fun s => .all
  [.disp fun z => { z with broken := z.broken.filter (· != x.id) ++ [x.id] },
   emitRecord x { emptyRec fr with
     outcome := 3, reason := 7, chosenDev := BitVec.ofNat 8 s.devNum, breakTsc := BitVec.ofNat 64 s.now, lostDev := BitVec.ofNat 8 d } 0 false,
   dispRaise 26]

/-- R364: the sweep of a followed item breaks at the opener. At T_emit it is the deadline that rejects (R367). -/
def breakOpener (x : MonItem) (d : Nat) : Act := .get fun s => .seq
  (if s.now < s.tEmit x ∨ s.hw.boot.frozen then reject x.id 7 (some d)
   else if s.now = s.tEmit x then deadlineReject x.id
   else tEmitAct x.id)
  (breakRecord x d)

/-- R365: the sweep of a followed item breaks at a follower: no candidate is sent. -/
def breakFollower (x : MonItem) (d : Nat) : Act := .all
  [.each (List.range 16) fun p => abortOn p fun y => y.id == x.id,
   decide_ x, abortItem x.id fun _ => true, breakRecord x d]

/-- Items bound to a sequence whose layout includes device `d` (R292, R366). -/
def State.layoutItems (s : State) (d : Nat) : List (BitVec 48) :=
  ((s.hw.kv.binds.filter fun b =>
    let r := s.seqRec b.1
    (r.layout == 1 || r.layout == 2) && decide (d < r.devs) && r.devIdx != d).map (·.2)).dedup

/-- A route is lost (R364 to R366). -/
def monRouteLost (d : Nat) : Act := .get fun s => .all
  [.each (s.layoutItems d) fun id => .withItem id fun x => breakOpener x d,
   .each (s.hw.disp.items.filter fun x => s.profRole x.prof == 1 && (s.sweepDevs x.prof).contains d && d != s.devNum &&
       !(x.cands.any fun c => c.1 == d)) fun x => .withItem x.id fun x => breakOpener x d,
   .each (s.hw.disp.decided.filter fun e => s.profRole e.prof == 1 && (s.sweepDevs e.prof).contains d && d != s.devNum &&
       !e.cands.testBit d && !s.hw.disp.broken.contains e.id) fun e =>
     breakRecord { id := e.id, prof := e.prof, stamp := e.stamp, cls := e.cls } d,
   .each (s.hw.disp.items.filter fun x => s.profRole x.prof == 2 && openerOf x.id == d) fun x => .withItem x.id fun x => breakFollower x d]

/-- R345, R346: parked commands whose input unit arrived after the switch, or after the decision. -/
def parkedCheck : Act := .get fun s =>
  .each (s.hw.disp.cmds.filter fun c => c.isParked && c.input.isSome) fun c => match c.input with
    | none => .nil
    | some u => match s.monItem u.item with
      | some x => .when x.fallback (.seq (.cmd c.id fun y => { y with released := true }) (settle c.id))
      | none => .when (s.hw.disp.decided.any fun d => d.id == u.item) (monAbortCmd c.id)

end Sys2Proof.Machine
end

