-- ==== Sys2Proof/Machine/Motion.lean ====
section
/-! DEFINITION. The perception-to-motion loop (09_perception_to_motion): joint sensors, TSN ports and their time, gate
control lists, and the command egress unit. -/

namespace Sys2Proof.Machine

def Act.mot (f : MotSt → MotSt) : Act := .hw fun h => { h with mot := f h.mot }
def State.tsn (s : State) (t : Nat) : TsnSt := s.hw.mot.tsn.getD t {}
def Act.tsn (t : Nat) (f : TsnSt → TsnSt) : Act := .mot fun m => { m with tsn := updAt f t m.tsn }
def State.loop (s : State) (l : Nat) : LoopSt := s.hw.mot.loops.getD l {}
def Act.loop (l : Nat) (f : LoopSt → LoopSt) : Act := .mot fun m => { m with loops := updAt f l m.loops }

/-! ### Units of these blocks -/

/-- Units waiting for a slot of stream `n` enter its ring in order. -/
def drainMotion (n : Nat) : Nat → Act
  | 0 => .nil
  | k + 1 => .get fun s => match s.hw.mot.waiting.find? fun x => x.1 == n with
    | none => .nil
    | some x => .when (!s.streamFull n) <| .all
        [.mot fun m => { m with waiting := m.waiting.erase x }, .publish n x.2, drainMotion n k]

/-- Deliver a unit on local stream `n`, or hold it until a slot is free. -/
def deliverOn (n : Nat) (u : DUnit) : Act := .seq (.mot fun m => { m with waiting := m.waiting ++ [(n, u)] })
  (.get fun s => drainMotion n s.hw.mot.waiting.length)

/-! ### Joint sensors (R368 to R374, R396) -/

/-- The channels of SET_MASK. -/
def State.setChans (s : State) : List Nat := (List.range 12).filter fun c => s.bit Reg.SSI.SET_MASK c

/-- R370: the TSC before which channel `c` starts no burst: its line must have been high for MONOFLOP µs since the last. -/
def State.burstFrom (s : State) (c : Nat) : Nat := match s.hw.mot.quiet.getD c none with
  | none => 0
  | some t => t + s.fld (Reg.SSI.CH_TIMING c) 7 0 * 1000

/-- R368, R370: the TSC of the first falling clock edge of a set triggered now: the channels start together, so the last
one free decides (DESIGN CHOICE, log entry 78). -/
def State.burstStart (s : State) : Nat := s.setChans.foldl (fun t c => max t (s.burstFrom c)) s.now

/-- R368: the position and the ENC_STATUS of each encoder in ENC_MASK. -/
def State.setEncs (s : State) : List (Nat × Word × Word) :=
  ((List.range 8).filter fun n => s.bit Reg.SSI.SET_MASK (16 + n)).map fun n =>
    (n, s.rd (Reg.ENC.POS_LO n), s.rd (Reg.ENC.ENC_STATUS n))

/-- R368: at the stamp of a held set its bursts start and the encoder counts are latched. -/
def ssiStartAct : Act := .get fun s => match s.hw.mot.set_ with
  | none => .nil
  | some x => .when (x.held && decide (x.stamp ≤ s.now)) <| .seq
      (.mot fun m => { m with set_ := some { x with held := false, encs := s.setEncs } })
      (.wrN Reg.SSI.SSI_STATUS (x.chans.foldl (fun n c => n + 2 ^ c) 0))

/-- SSI_TRIGGER (R368, R370, R373): the bursts start and the encoder counts are latched, at once or when the data lines
allow it. -/
def ssiTriggerAct : Act := .get fun s =>
  .when (s.bit Reg.SSI.SSI_CTRL 0) <|
    if s.hw.mot.set_.isSome then .seq (.bump Reg.SSI.OVERRUN_CNT 1) (.raise .SSI 0 12)
    else if s.now < s.burstStart then .mot fun m => { m with set_ := some {
      held := true, stamp := s.burstStart, chans := s.setChans } }
    else .seq
      (.mot fun m => { m with set_ := some { stamp := s.now, chans := s.setChans, encs := s.setEncs } })
      (.wr Reg.SSI.SSI_STATUS (s.rd Reg.SSI.SET_MASK &&& 0xFFF))

/-- SSI_SAMPLE: a software trigger, when SET_TRIG.SRC is 0. -/
def ssiSampleAct (v : Word) : Act := .get fun s => .when (v.getLsbD 0 && !s.bit Reg.SSI.SET_TRIG 0) ssiTriggerAct

/-- Gray code to binary, 64 bits. -/
def grayDecode (n : Nat) : Nat := (List.range 6).foldl (fun x k => x ^^^ (x >>> 2 ^ (5 - k))) n

/-- Parity of the bits of a number. -/
def parity (n : Nat) : Bool := ((List.range 64).filter n.testBit).length % 2 == 1

/-- Level of the data line `t` ns after the first falling clock edge. -/
def lineLevel (f : SsiFrame) (t : Nat) : Bool :=
  f.line.foldl (fun l x => if x.1.toNat ≤ t then x.2 else l) true

/-- R369, R370: when channel `c` samples bit `i` of a burst, counted from the first bit: DELAY_COMP ns after rising edge
`i` of its clock, whose half period is 10 (CLK_DIV + 1) ns. -/
def State.ssiSampleAt (s : State) (c i : Nat) : Nat :=
  (2 * i + 1) * 10 * (s.fld (Reg.SSI.CH_CFG c) 8 0 + 1) + s.fld (Reg.SSI.CH_TIMING c) 20 8

/-- R369, R370: the frame channel `c` clocks in, its first bit the most significant. -/
def State.ssiRaw (s : State) (c : Nat) (f : SsiFrame) : Nat :=
  (List.range (s.fld (Reg.SSI.CH_CFG c) 15 9)).foldl (fun r i => 2 * r + b2n (lineLevel f (s.ssiSampleAt c i))) 0

/-- R369: the position of channel `c` and its status word. -/
def State.ssiDecode (s : State) (c : Nat) (f : SsiFrame) : Nat × Nat :=
  let lsb := s.fld (Reg.SSI.CH_DATA c) 5 0
  let n := s.fld (Reg.SSI.CH_DATA c) 11 6
  let raw := s.ssiRaw c f
  let data := raw / 2 ^ lsb % 2 ^ n
  let v := if s.bit (Reg.SSI.CH_CFG c) 18 then grayDecode data else data
  let pos := if s.bit (Reg.SSI.CH_DATA c) 12 then uns 32 (sgn n v) else v
  let pb := if lsb = 0 then f.parityBit else raw.testBit (lsb - 1)
  let bad := match s.fld (Reg.SSI.CH_CFG c) 17 16 with
    | 1 => parity data != pb
    | 2 => parity data == pb
    | _ => false
  (pos % 2 ^ 32, b2n bad + 2 * b2n f.startBad + 4 * b2n f.lineFault)

/-- The words of a sample set: for each channel its number, position and status; for each encoder the same (R371). -/
def State.sampleWords (s : State) (x : SampleSet) (frames : List SsiFrame) : List (Nat × Nat × Nat) :=
  (x.chans.zipIdx.map fun (c, i) =>
    let f := frames.getD i { line := [], rest := 0, startBad := true, lineFault := false, parityBit := false }
    (c, s.ssiDecode c f)) ++
  x.encs.map fun (n, pos, st) => (16 + n, pos.toNat, 4 * b2n (st.getLsbD 2) + 8 * b2n (st.getLsbD 0))

/-- R370: from when the line of each channel of the set stays high. -/
def SampleSet.quietAfter (x : SampleSet) (frames : List SsiFrame) (q : List (Option Nat)) : List (Option Nat) :=
  q.zipIdx.map fun (t, c) =>
    if x.chans.contains c then some (x.stamp + (frames.map (·.rest.toNat)).getD (x.chans.idxOf c) 0) else t

/-- SSI_BURST_DONE (R370 to R372). A set whose bursts are still held has none to end. -/
def ssiBurstDoneAct (frames : List SsiFrame) : Act := .get fun s => match s.hw.mot.set_ with
  | none => .nil
  | some x => if x.held then .nil else
    let ws := s.sampleWords x frames
    let bad := ws.filter fun w => w.2.2 % 8 != 0
    let flags := flagsOf ((if bad.isEmpty then [] else [fINVALID]) ++ (if ws.any fun w => w.2.2.testBit 3 then [fUNCERTAIN] else []))
    .all [.mot fun m => { m with set_ := none, quiet := x.quietAfter frames m.quiet },
          .wrN Reg.SSI.SSI_STATUS 0,
          .each (ws.filter fun w => decide (w.1 < 12)) fun w => .wrN (Reg.SSI.CH_LAST w.1) w.2.1,
          .bump Reg.SSI.ERR_CNT bad.length, .each (bad.filter fun w => decide (w.1 < 12)) fun w => .raise .SSI 0 w.1,
          deliverOn (s.fld Reg.SSI.SET_STREAM 8 0)
            (unitWith x.stamp 0 (s.fld Reg.SSI.SET_STREAM 10 9) (s.fld Reg.SSI.SET_STREAM 18 11) 0x13 544 flags
              (ws.flatMap fun w => leBytes 4 w.2.1 ++ leBytes 4 w.2.2))]

def ssiWrite (off : Nat) (v : Word) : Act := if off = 0x054 then ssiSampleAct v else .nil

/-! ### 802.1AS time (R378 to R381) -/

/-- Raise source 512 + 8t + k (R395). -/
def tsnRaise (t k : Nat) : Act := .raise .TSN t k

/-- Nearest integer, ties away from zero. -/
def roundAway (n : Int) (d : Nat) : Int :=
  if 0 ≤ n then (2 * n + d) / (2 * d : Nat) else -((2 * (-n) + d) / (2 * d : Nat))

/-- R378: the 802.1AS time of TSC value `x` on port `t`. -/
def State.asTime (s : State) (t x : Nat) : Nat :=
  let r := s.tsn t
  let d : Int := (x : Int) - r.relTsc
  uns 64 (r.relAs + d + roundAway (d * r.relRate) 1000000000)

/-- TSN_SYNC_RECEIVE (R378, R379): `as` is the master's time of this instant, `rate` the measured rate. What the
relation was off by, up to 1 µs, is absorbed over the next Sync interval. -/
def tsnSyncAct (t as_ : Nat) (rate : Int) (interval pdelay : Nat) : Act := .get fun s =>
  let old := s.asTime t s.now
  let d : Int := (as_ : Int) - old
  let small := decide (-1000 ≤ d ∧ d ≤ 1000)
  .when (s.bit (Reg.TSN.TSN_CTRL t) 0 && s.fld (Reg.TSN.TSN_CTRL t) 5 4 == 1 && s.bit (Reg.TSN.TSN_STATUS t) 0) <| .all
    [.tsn t fun r => { r with
       relTsc := s.now, relAs := if small then old else as_,
       relRate := sgn 32 (uns 32 (if small then rate + roundAway (d * 1000000000) (max 1 interval) else rate)),
       sync := some (s.now, interval) },
     .wrN (Reg.TSN.AS_OFFSET t) (uns 32 (-d)), .wrN (Reg.TSN.PDELAY t) pdelay,
     .setFld (Reg.TSN.TSN_STATUS t) 4 4 1, .when (!small) (tsnRaise t 2)]

/-- TSN_SYNC_LOSS (R381): no Sync for three intervals. -/
def tsnSyncLossAct (t : Nat) : Act := .get fun s => match (s.tsn t).sync with
  | some (last, i) => .when (s.bit (Reg.TSN.TSN_STATUS t) 4 && s.fld (Reg.TSN.TSN_CTRL t) 5 4 == 1 && decide (last + 3 * i ≤ s.now))
      (.seq (.setFld (Reg.TSN.TSN_STATUS t) 4 4 0) (tsnRaise t 1))
  | none => .nil

/-- REL_TSC_LO_READ (R380): the other words of the relation are latched from the same update. -/
def relLatch (t : Nat) : Act := .get fun s =>
  let r := s.tsn t
  .all [.wrN (Reg.TSN.REL_TSC_LO t) (r.relTsc % 2 ^ 32), .wrN (Reg.TSN.REL_TSC_HI t) (r.relTsc / 2 ^ 32),
        .wrN (Reg.TSN.REL_AS_LO t) (r.relAs % 2 ^ 32), .wrN (Reg.TSN.REL_AS_HI t) (r.relAs / 2 ^ 32),
        .wrN (Reg.TSN.REL_RATE t) (uns 32 r.relRate)]

/-- TSN_LINK_DOWN. -/
def tsnLinkDownAct (t : Nat) : Act := .get fun s =>
  .when (s.bit (Reg.TSN.TSN_STATUS t) 0) (.all [.modReg (Reg.TSN.TSN_STATUS t) fun w => setBits (setBits w 0 0 0) 5 5 0, tsnRaise t 0, .event (.portDown t)])

/-- TSN_LINK_UP (R375): preemption is active once verified. -/
def tsnLinkUpAct (t : Nat) (verified : Bool) : Act := .get fun s =>
  let sp := s.fld (Reg.TSN.TSN_CTRL t) 3 1
  .when (s.bit (Reg.TSN.TSN_CTRL t) 0 && decide (sp ≤ 4)) <|
    .modReg (Reg.TSN.TSN_STATUS t) fun w =>
      setBits (setBits (setBits w 0 0 1) 3 1 sp) 5 5 (b2n (verified && s.bit (Reg.TSN.TSN_CTRL t) 7))

/-! ### Gate control lists (R375, R395) -/

/-- GATES of a list at 802.1AS time `a`: cycles start at the base time's multiples; the last interval of a cycle lasts to
its end. -/
def GateList.gates (g : GateList) (a : Nat) : BitVec 8 :=
  let o := ((a : Int) - g.base) % (max 1 g.cycle : Nat)
  let rec go : List (BitVec 8 × Nat) → Nat → BitVec 8
    | [], _ => 0xFF
    | [e], _ => e.1
    | e :: t, x => if x < e.2 then e.1 else go t (x - e.2)
  go g.entries o.toNat

/-- Is the gate of class `tc` of port `t` open? -/
def State.gateOpen (s : State) (t tc : Nat) : Bool :=
  !s.bit (Reg.TSN.GCL_CFG t) 24 || ((s.tsn t).oper.gates (s.asTime t s.now)).getLsbD tc

/-- GCL_APPLY: the list written takes effect at the first base-time multiple after now; a list outside R375 is an error. -/
def gclApplyAct (t : Nat) : Act := .get fun s =>
  let len := s.fld (Reg.TSN.GCL_CFG t) 8 0
  let cyc := (s.rd (Reg.TSN.GCL_CYCLE t)).toNat
  let base := s.rd64 (Reg.TSN.GCL_BASE_LO t) (Reg.TSN.GCL_BASE_HI t)
  let a := s.asTime t s.now
  if len = 0 ∨ 256 < len ∨ cyc < 1000 ∨ 1000000000 < cyc then tsnRaise t 5
  else
    let due := if a < base then base else base + ((a - base) / cyc + 1) * cyc
    .tsn t fun r => { r with next := some ({ entries := (r.gcl.take len).map fun w => (w.setWidth 8, bits w 31 8), base := base, cycle := cyc }, due) }

/-- GCL_DATA_WRITE. -/
def gclDataAct (t : Nat) (v : Word) : Act := .get fun s =>
  let i := s.fld (Reg.TSN.GCL_ADDR t) 7 0
  .seq (.tsn t fun r => { r with gcl := updAt (fun _ => v) i r.gcl }) (.wrN (Reg.TSN.GCL_ADDR t) ((i + 1) % 256))

/-! ### Frames the CEU sends (R387 to R389) -/

/-- Six bytes of an address, first byte first. -/
def macBytes (n : Nat) : List Byte := (leBytes 6 n).reverse

/-- R721 step 3: from a power-fail warning on, a unit leaves with INVALID. -/
def State.leaving (s : State) (u : DUnit) : DUnit := if s.hw.boot.outInvalid then (u.set fINVALID).sealed else u

/-- Bytes of a frame as it leaves port `t` now (R387), without its check sequence. -/
def State.frameBytes (s : State) (t : Nat) (f : TxFrame) : List Byte :=
  let dst := (s.rd (Reg.CEU.TPL_DST_LO f.tmpl)).toNat + 2 ^ 32 * s.fld (Reg.CEU.TPL_DST_HI f.tmpl) 15 0
  let src := (s.rd (Reg.TSN.MAC_LO t)).toNat + 2 ^ 32 * s.fld (Reg.TSN.MAC_HI t) 15 0
  let be2 (n : Nat) : List Byte := (leBytes 2 n).reverse
  macBytes dst ++ macBytes src ++ be2 0x8100 ++ be2 (f.pcp * 8192 + s.fld (Reg.CEU.TPL_VLAN f.tmpl) 11 0) ++
  (if s.bit (Reg.CEU.TPL_VLAN f.tmpl) 15 then be2 0xF1C1 ++ be2 0 ++ be2 (f.seq % 65536) else []) ++
  be2 (s.fld Reg.CEU.ETHERTYPE 15 0) ++
  ([1, BitVec.ofNat 8 f.kind] ++ leBytes 2 f.mflags ++ leBytes 4 f.seq ++ leBytes 8 (s.asTime t s.now) ++
    leBytes 8 (s.asTime t f.unit.stamp.toNat)) ++ (s.leaving f.unit).toBytes

/-- Is port `t` able to send? -/
def State.tsnUp (s : State) (t : Nat) : Bool := s.bit (Reg.TSN.TSN_CTRL t) 0 && s.bit (Reg.TSN.TSN_STATUS t) 0

/-- A frame leaves port `t` now; SAFE follows its status frames (R515). -/
def frameLeaves (t : Nat) (f : TxFrame) : Act := .get fun s =>
  .seq (.out (.tsnFrame t (s.frameBytes t f))) (.when (f.kind == 3) (.event (.statusLeft f.since)))

/-- A frame goes to port `t`: out at once when its class's gate is open and nothing of its class waits, else after it. -/
def portSend (t : Nat) (f : TxFrame) : Act := .get fun s =>
  .when (s.tsnUp t) <|
    if s.gateOpen t f.pcp && !(s.tsn t).queue.any fun q => q.pcp == f.pcp then frameLeaves t f
    else .seq (.tsn t fun r => { r with queue := r.queue ++ [f] }) (.bump (Reg.TSN.TX_LATE_GATE t) 1)

/-- GCL_ENTRY_EXPIRY: a waiting list whose time has come is in force; frames whose gate is open now leave in order. -/
def gclExpiryAct (t : Nat) : Act := .get fun s => .seq
  (match (s.tsn t).next with
   | some (g, due) => .when (decide (due ≤ s.asTime t s.now)) (.tsn t fun r => { r with oper := g, next := none })
   | none => .nil) <| .get fun s =>
    let go := (s.tsn t).queue.filter fun f => s.gateOpen t f.pcp
    .seq (.tsn t fun r => { r with queue := r.queue.filter fun f => !s.gateOpen t f.pcp })
      (.each go fun f => .when (s.tsnUp t) (frameLeaves t f))

/-- Send a frame of template `i` on `ports`; its SEQ rises by one. -/
def ceuSend (i kind mflags : Nat) (u : DUnit) (pcp : Option Nat) (ports : List Nat) : Act := .get fun s =>
  let f : TxFrame := { tmpl := i, pcp := pcp.getD (s.fld (Reg.CEU.TPL_VLAN i) 14 12), kind := kind, mflags := mflags,
                       seq := (s.rd (Reg.CEU.TPL_SEQ i)).toNat, unit := u, since := s.now }
  .seq (.each ports fun t => portSend t f) (.modReg (Reg.CEU.TPL_SEQ i) (· + 1))

/-- The ports a template names. -/
def State.tplPorts (s : State) (i : Nat) : List Nat := (List.range 4).filter fun t => s.bit (Reg.CEU.TPL_DST_HI i) (16 + t)

/-- R386: is a unit too long for a frame of template `i`? -/
def State.tooLong (s : State) (i : Nat) (u : DUnit) : Bool :=
  decide ((if s.bit (Reg.CEU.TPL_VLAN i) 15 then 1438 else 1444) < u.payload.length)

/-- A unit refused under R386. -/
def refuseLong : Act := .seq (.bump Reg.CEU.TOO_LONG 1) (.raise .CEU 0 8)

/-- R388: a decision handed to the CEU for port `t` and traffic class `tc`. -/
def decisionFrame (t tc : Nat) (u : DUnit) : Act := .get fun s =>
  let i := s.fld Reg.CEU.DEC_TMPL (4 * t + 3) (4 * t)
  .when (s.bit Reg.CEU.CEU_CTRL 0) <|
    if s.tooLong i u then refuseLong
    else .when (s.tsnUp t) (.seq (ceuSend i 2 0 u (some tc) [t]) (.bump Reg.CEU.DEC_SENT 1))

/-! ### Frames received (R376, R377) -/

/-- Bytes from the destination address to the last before the check sequence. -/
def rxBytes (f : TsnFrame) : List Byte :=
  let be2 (n : Nat) : List Byte := (leBytes 2 n).reverse
  macBytes f.dst.toNat ++ macBytes f.src.toNat ++ be2 0x8100 ++ be2 (f.pcp.toNat * 8192 + f.vid.toNat) ++
  (match f.rtag with
   | some q => be2 0xF1C1 ++ be2 0 ++ be2 q.toNat
   | none => []) ++ be2 f.etype.toNat ++ f.payload

/-- The first valid filter a frame matches. -/
def State.sfMatch (s : State) (t : Nat) (f : TsnFrame) : Option Nat :=
  (List.range 64).find? fun i =>
    let e := (s.tsn t).filters.getD i {}
    e.cfg.getLsbD 31 && e.keyLo.toNat + 2 ^ 32 * bits e.keyHi 15 0 == f.dst.toNat && bits e.cfg 11 0 == f.vid.toNat &&
    (e.cfg.getLsbD 12 || bits e.cfg 15 13 == f.pcp.toNat)

/-- R377: what recovery makes of a sequence number: new history, whether the frame is a duplicate, whether it lies
outside the history. The vector moves forward with a number of up to 32 ahead (log entry 52). -/
def CbHist.take (h : CbHist) (q : BitVec 16) (now : Nat) : CbHist × Bool × Bool :=
  let ahead := (q - h.seq).toNat
  let back := (h.seq - q).toNat
  if 0 < ahead ∧ ahead < 32 then ({ h with seq := q, hist := (h.hist <<< ahead) ||| 1, last := now }, false, false)
  else if back < 32 then ({ h with hist := putBit h.hist back true, last := now }, h.hist.getLsbD back, false)
  else ({ h with last := now }, false, true)

/-- A frame that passed its filter is delivered on stream `n`. -/
def rxDeliver (t n cls : Nat) (f : TsnFrame) : Act := .get fun s =>
  .seq (.bump (Reg.TSN.RX_FRAMES t) 1)
    (deliverOn n (unitWith f.stamp.toNat 0 cls (s.fld (Reg.TSN.RX_CONTEXT t) 7 0) 0x04 (512 + 8 * t) 0 (rxBytes f)))

/-- TSN_FRAME_RECEIVE. -/
def tsnFrameAct (t : Nat) (f : TsnFrame) : Act := .get fun s =>
  let drop := Act.seq (.bump (Reg.TSN.RX_DROP t) 1) (tsnRaise t 3)
  .when (s.tsnUp t) <| match s.sfMatch t f with
    | none => drop
    | some i =>
      let e := (s.tsn t).filters.getD i {}
      let len := (rxBytes f).length
      let slot := s.now / 10000
      let used := (if e.slot = slot then e.used else 0) + len
      let metered := decide (bits e.meter 23 0 ≠ 0 ∧ bits e.meter 23 0 < used)
      if !e.cfg.getLsbD 16 || metered || (e.cfg.getLsbD 28 && !s.gateOpen t f.pcp.toNat) then drop
      else
        let n := bits e.cfg 25 17
        .seq (.tsn t fun r => { r with filters := updAt (fun x => { x with slot := slot, used := used }) i r.filters }) <|
          match f.rtag, s.bit (Reg.TSN.CB_CFG t) 0 with
          | some q, true => match (s.tsn t).cb.find? fun h => h.stream == n with
            | some h =>
              let (h', dup, out) := h.take q s.now
              .all [.tsn t fun r => { r with cb := r.cb.map fun x => if x.stream = n then h' else x },
                    .when out (tsnRaise t 4),
                    if dup then .bump (Reg.TSN.CB_ELIM t) 1 else rxDeliver t n (bits e.cfg 27 26) f]
            | none => .seq
                (.when (decide ((s.tsn t).cb.length < 32)) (.tsn t fun r => { r with cb := r.cb ++ [{ stream := n, seq := q, hist := 1, last := s.now }] }))
                (rxDeliver t n (bits e.cfg 27 26) f)
          | _, _ => rxDeliver t n (bits e.cfg 27 26) f

/-- CB_HISTORY_RESET: a recovered stream silent for RESET_MS. -/
def cbResetAct (t i : Nat) : Act := .get fun s => match (s.tsn t).cb[i]? with
  | some h => .when (decide (h.last + s.fld (Reg.TSN.CB_CFG t) 15 4 * 1000000 ≤ s.now)) (.tsn t fun r => { r with cb := r.cb.erase h })
  | none => .nil

/-! ### Registers of the TSN pages -/

/-- A grandmaster keeps REL_RATE 0 and REL_AS = REL_TSC (R378). -/
def tsnCtrl (t : Nat) (v : Word) : Act := .get fun s => .all
  [.when (decide (5 ≤ bits v 3 1) || bits v 5 4 == 3) (.cfgErr .TSN t),
   .when (bits v 5 4 == 2) (.tsn t fun r => { r with relTsc := s.now, relAs := s.now, relRate := 0, sync := none }),
   .when (!v.getLsbD 0) (.modReg (Reg.TSN.TSN_STATUS t) fun w => setBits (setBits w 0 0 0) 5 5 0)]

def tsnWrite (t off : Nat) (v : Word) : Act := .get fun s =>
  let i := s.fld (Reg.TSN.SF_ADDR t) 5 0
  let sf (f : SfEntry → SfEntry) : Act := .tsn t fun r => { r with filters := updAt f i r.filters }
  if off = 0x040 then tsnCtrl t v
  else if off = 0x070 then gclDataAct t v
  else if off = 0x084 then .when (v.getLsbD 0) (gclApplyAct t)
  else if off = 0x08C then sf fun e => { e with keyLo := v }
  else if off = 0x090 then sf fun e => { e with keyHi := v &&& 0xFFFF }
  else if off = 0x094 then sf fun e => { e with cfg := v &&& 0x9FFFFFFF }
  else if off = 0x098 then sf fun e => { e with meter := v &&& 0xFFFFFF }
  else .nil

/-- Registers behind GCL_ADDR and SF_ADDR. -/
def tsnComputed (s : State) (t off : Nat) : Option Word :=
  let e := (s.tsn t).filters.getD (s.fld (Reg.TSN.SF_ADDR t) 5 0) {}
  if off = 0x070 then some ((s.tsn t).gcl.getD (s.fld (Reg.TSN.GCL_ADDR t) 7 0) 0)
  else if off = 0x08C then some e.keyLo
  else if off = 0x090 then some e.keyHi
  else if off = 0x094 then some e.cfg
  else if off = 0x098 then some e.meter
  else none

/-! ### The command egress unit (R382 to R394) -/

/-- Raise source 560 + k (R397). -/
def ceuRaise (k : Nat) : Act := .raise .CEU 0 k

def State.loopBase (s : State) (l : Nat) : Nat := s.rd64 (Reg.CEU.BASE_LO l) (Reg.CEU.BASE_HI l)
def State.loopPeriod (s : State) (l : Nat) : Nat := max 1 (s.rd (Reg.CEU.PERIOD l)).toNat
/-- T_k. -/
def State.cycleStart (s : State) (l k : Nat) : Nat := s.loopBase l + k * s.loopPeriod l
def State.loopOn (s : State) (l : Nat) : Bool := s.bit (Reg.CEU.LOOP_CTRL l) 0 && s.bit Reg.CEU.CEU_CTRL 0
/-- The cycle a TSC value lies in. -/
def State.cycleAt (s : State) (l t : Nat) : Nat := (t - s.loopBase l) / s.loopPeriod l
/-- The cutoff of cycle `k`. -/
def State.cutoff (s : State) (l k : Nat) : Nat := s.cycleStart l k + (s.rd (Reg.CEU.LAUNCH_OFS l)).toNat - 2000
/-- Has the offset `ofs` of cycle `k` been reached? -/
def State.reached (s : State) (l k ofs : Nat) : Bool := s.loopOn l && decide (s.cycleStart l k + ofs ≤ s.now)

/-- LOOP_ENABLE (R382): the first cycle is the first at least 10 µs from now. -/
def loopEnable (l : Nat) : Act := .get fun s =>
  let k := ceilDiv (s.now + 10000 - s.loopBase l) (s.loopPeriod l)
  .seq (.loop l fun _ => { first := k, strobe := k, sample := k, cut := k, launch := k, perc := k, prev := s.now, failed := k })
       (.setFld Reg.CEU.CEU_STATUS l l 1)

/-- LOOP_DISABLE (R392): a frame not yet launched is not sent. CYCLE keeps its count. -/
def loopDisable (l : Nat) : Act := .get fun s =>
  let k := (s.loop l).first
  .all [.loop l fun x => { x with sel := none }, .setFld Reg.CEU.CEU_STATUS l l 0,
        .wrN (Reg.CEU.CYCLE l) (if s.cycleStart l k ≤ s.now then s.cycleAt l s.now - k + 1 else 0)]

/-- CEU_STROBE: a 1 µs high pulse. -/
def ceuStrobeAct (l : Nat) : Act := .get fun s =>
  .when (s.bit (Reg.CEU.LOOP_CTRL l) 15 && s.reached l (s.loop l).strobe (s.rd (Reg.CEU.STROBE_OFS l)).toNat) <| .all
    [.loop l fun x => { x with strobe := x.strobe + 1 },
     pinPulse 4 l]

/-- CEU_SAMPLE_TRIGGER. -/
def ceuSampleAct (l : Nat) : Act := .get fun s =>
  .when (s.reached l (s.loop l).sample (s.rd (Reg.CEU.SAMPLE_OFS l)).toNat) <| .seq
    (.loop l fun x => { x with sample := x.sample + 1 })
    (.when (s.bit Reg.SSI.SET_TRIG 0 && s.fld Reg.SSI.SET_TRIG 3 1 == l) ssiTriggerAct)

/-- R391: a class 2 loop's failure goes to SAFE. -/
def loopToSafe (l : Nat) : Act := .get fun s =>
  .when ((s.streamRec (s.fld (Reg.CEU.LOOP_CTRL l) 13 5)).cls == 2) (.event (.loopFault l))

/-- R390: cycle `k` is a supervision failure, once. -/
def supFailure (l k : Nat) : Act := .get fun s =>
  .when (decide ((s.loop l).failed ≤ k)) <| .all
    [.loop l fun x => { x with failed := k + 1 }, .bump (Reg.CEU.SUP_CNT l) 1, ceuRaise l, loopToSafe l]

/-- R61: does unit `b`, later in the stream's sequence, come after `a`? -/
def notBefore (a b : DUnit) : Bool :=
  let key (u : DUnit) := (u.stamp.toNat, u.source.toNat, u.stream.toNat / 512, u.stream.toNat)
  let x := key a
  let y := key b
  decide (x.1 < y.1 ∨ (x.1 = y.1 ∧ (x.2.1 < y.2.1 ∨ (x.2.1 = y.2.1 ∧ (x.2.2.1 < y.2.2.1 ∨ (x.2.2.1 = y.2.2.1 ∧ x.2.2.2 ≤ y.2.2.2))))))

/-- The newest of a list of units in the order of R61. -/
def newest : List DUnit → Option DUnit
  | [] => none
  | u :: t => some (t.foldl (fun m v => if notBefore m v then v else m) u)

/-- R383: the units of the command stream that the cutoff selects from are consumed: their slots are free. -/
def consumeTo (n cut : Nat) : Act := .get fun s =>
  let r := s.streamRec n
  let later := ((s.streamSt n).recent.filter fun x => decide (cut < x.1)).length
  let head := (r.tail + r.slots - later % max 1 r.slots) % max 1 r.slots
  .when (r.valid && r.slots != 0) <| .all
    [.mem (s.streamAddr n + 8) 4 head, .stream n fun x => { x with take := head, freed := [], queue := [] }, .event (.slotFree n)]

/-- R385: the unit of a frame launched at `launch`, its age recorded; an age excess is reported. -/
def ageUnit (l launch : Nat) (u : DUnit) (stale : Bool) : Act := .get fun s =>
  let age := launch - u.stamp.toNat
  let excess := decide ((s.rd (Reg.CEU.AGE_MAX l)).toNat < age)
  .all [.wrN (Reg.CEU.AGE_LAST l) (min age 4294967295), .maxReg (Reg.CEU.AGE_PEAK l) age,
        .when excess (.seq (ceuRaise l) (loopToSafe l)),
        .loop l fun x => { x with sel := some (u, stale, excess) }]

/-- CEU_CUTOFF (R383 to R386). -/
def ceuCutoffAct (l : Nat) : Act := .get fun s =>
  let x := s.loop l
  let k := x.cut
  let cut := s.cutoff l k
  let n := s.fld (Reg.CEU.LOOP_CTRL l) 13 5
  let us := ((s.streamSt n).recent.filter fun e => decide (x.prev < e.1 ∧ e.1 ≤ cut)).map (·.2)
  .when (s.loopOn l && decide (cut ≤ s.now)) <| .all
    [.loop l fun y => { y with cut := k + 1, prev := cut, sel := none },
     (match newest us with
      | some u =>
        if s.tooLong (s.fld (Reg.CEU.LOOP_CTRL l) 4 1) u then refuseLong
        else ageUnit l (cut + 2000) u false
      | none => .all
        [.bump (Reg.CEU.STALE_CNT l) 1, .when (k < (s.loop l).failed) (ceuRaise l), supFailure l k,
         match s.bit (Reg.CEU.LOOP_CTRL l) 14, x.body with
         | true, some u => ageUnit l (cut + 2000) u true
         | _, _ => .nil]),
     consumeTo n cut,
     .stream n fun st => { st with recent := st.recent.filter fun e => decide (s.now < e.1 + 1000000000) }]

/-- CEU_LAUNCH (R385, R387, R389, R390). -/
def ceuLaunchAct (l : Nat) : Act := .get fun s =>
  let x := s.loop l
  let k := x.launch
  let i := s.fld (Reg.CEU.LOOP_CTRL l) 4 1
  let fail := decide (x.failed = k + 1)
  .when (decide (k < x.cut) && s.reached l k (s.rd (Reg.CEU.LAUNCH_OFS l)).toNat) <| .seq
    (.loop l fun y => { y with launch := k + 1, sel := none }) <| match x.sel with
      | none => .nil
      | some (u, stale, excess) =>
        let v := if excess || (fail && s.bit (Reg.CEU.LOOP_CTRL l) 16) then (u.set fINVALID).sealed else u
        if (s.tplPorts i).isEmpty then ceuRaise 9
        else .all [ceuSend i 1 (b2n stale + 2 * b2n excess + 4 * b2n fail) v none (s.tplPorts i),
                   .bump Reg.CEU.FRAMES_SENT 1, .loop l fun y => { y with body := some u }]

/-- PERC_CLOSE_EXPIRY (R390). -/
def percCloseAct (l : Nat) : Act := .get fun s =>
  let k := (s.loop l).perc
  .when (s.loopOn l && decide (s.cycleStart l k + (s.rd (Reg.CEU.PERC_CLOSE l)).toNat ≤ s.now))
    (.seq (.loop l fun x => { x with perc := k + 1 }) (supFailure l k))

/-- A unit committed on local stream `n` (R383, R390): loops that read it count a late command unit, and check the first
perception unit of a cycle against its window. -/
def ceuUnit (n : Nat) : Act := .each (List.range 8) fun l => .get fun s =>
  let k := s.cycleAt l s.now
  let o := s.now - s.cycleStart l k
  .when (s.loopOn l && decide (s.cycleStart l (s.loop l).first ≤ s.now)) <| .seq
    (.when (s.fld (Reg.CEU.LOOP_CTRL l) 13 5 == n && decide (s.cutoff l k < s.now)) (.bump (Reg.CEU.LATE_CNT l) 1))
    (.when (s.fld (Reg.CEU.LOOP_CTRL l) 25 17 == n && (s.loop l).perc == k && decide (0 < o)) <| .seq
      (.loop l fun x => { x with perc := k + 1 })
      (.when (!decide ((s.rd (Reg.CEU.PERC_OPEN l)).toNat ≤ o ∧ o ≤ (s.rd (Reg.CEU.PERC_CLOSE l)).toNat)) (supFailure l k)))

/-- LOOP_CTRL written. -/
def loopCtrlAct (l : Nat) (old v : Word) : Act :=
  if v.getLsbD 0 ∧ !old.getLsbD 0 then loopEnable l
  else if !v.getLsbD 0 ∧ old.getLsbD 0 then loopDisable l
  else .nil

/-- R393: a loop's registers other than LOOP_CTRL.ENABLE are written only while ENABLE is 0. -/
def ceuDrops (s : State) (off : Nat) (v : Word) : Bool :=
  decide (0x100 ≤ off ∧ off < 0x300) &&
    (let l := (off - 0x100) / 0x40
     s.bit (Reg.CEU.LOOP_CTRL l) 0 && ((off - 0x100) % 0x40 != 0 || v.getLsbD 0))

def ceuWrite (off : Nat) (old v : Word) : Act :=
  if 0x100 ≤ off ∧ off < 0x300 ∧ (off - 0x100) % 0x40 = 0 then loopCtrlAct ((off - 0x100) / 0x40) old v else .nil

/-- CEU_STATUS shows the loops running, none while the CEU is disabled; CYCLE counts the cycles started since ENABLE. -/
def ceuComputed (s : State) (off : Nat) : Option Word :=
  if off = 0x044 then some (if s.bit Reg.CEU.CEU_CTRL 0 then s.rd Reg.CEU.CEU_STATUS else 0)
  else if 0x100 ≤ off ∧ off < 0x300 ∧ (off - 0x100) % 0x40 = 0x28 then
    let l := (off - 0x100) / 0x40
    let k := (s.loop l).first
    if s.bit (Reg.CEU.LOOP_CTRL l) 0 then
      some (BitVec.ofNat 32 (if s.cycleStart l k ≤ s.now then s.cycleAt l s.now - k + 1 else 0))
    else none
  else none

end Sys2Proof.Machine
end

