-- ==== Sys2Proof/Machine/Page.lean ====
section
/-! DEFINITION. The change journal and the page locks (17_host_interface_registers, R686 to R698). -/

namespace Sys2Proof.Machine

/-! ### The change journal (R694 to R698) -/

/-- Entries between JRNL_HEAD and JRNL_TAIL. -/
def State.jrnlFill (s : State) : Nat := ((s.rd Reg.JRNL.JRNL_TAIL).toNat + 2 ^ 32 - (s.rd Reg.JRNL.JRNL_HEAD).toNat) % 2 ^ 32

/-- The 32 bytes of an entry (R694). -/
def jrnlBytes (tsc src slot off pass old new written : Nat) : List Byte :=
  let l := leBytes 8 tsc ++ leBytes 1 src ++ [0] ++ leBytes 2 slot ++ leBytes 2 off ++ leBytes 2 pass ++ leBytes 4 old ++
    leBytes 4 new ++ leBytes 4 written
  l ++ leBytes 4 (crc32c l).toNat

/-- R696, R698: one entry is written and JRNL_TAIL advances; the watermark raises source 24. -/
def jrnlPut (src slot off old new written : Nat) : Act := .get fun s =>
  let i := (s.rd Reg.JRNL.JRNL_TAIL).toNat
  .all [.guarded 0 ((s.rd Reg.JRNL.JRNL_BASE).toNat + 32 * (i % 65536)) (jrnlBytes s.now src slot off (i / 65536) old new written),
        .wrN Reg.JRNL.JRNL_TAIL (i + 1),
        .when (s.jrnlFill + 1 == s.fld Reg.JRNL.JRNL_CTRL 31 16) (.raise .JRNL 0 0)]

/-- R695, R697: journal an accepted write or a lock change. -/
def journal (src slot off old new written : Nat) : Act := .get fun s =>
  let free := 65536 - s.jrnlFill
  let lost := s.hw.lostEntries
  .when (s.bit Reg.JRNL.JRNL_CTRL 0) <|
    if free < (if lost = 0 then 1 else 2) then
      .all [.hw fun h => { h with lostEntries := h.lostEntries + 1 }, .bump Reg.JRNL.JRNL_LOST 1, .raise .JRNL 0 1]
    else .seq
      (.when (lost != 0) (.seq (jrnlPut 0x40 0xFFFF 0 (min lost 4294967295) 0 0) (.hw fun h => { h with lostEntries := 0 })))
      (jrnlPut src slot off old new written)

/-- JRNL_STATUS. -/
def jrnlComputed (s : State) (off : Nat) : Option Word :=
  if off = 0x054 then
    some (BitVec.ofNat 32 (min s.jrnlFill 131071 + 131072 * b2n (decide (65536 ≤ s.jrnlFill)) +
      262144 * b2n (s.hw.lostEntries != 0)))
  else none

/-- R704: JRNL_BASE is not written while ENABLE is 1. -/
def jrnlDrops (s : State) (off : Nat) : Bool := off == 0x044 && s.bit Reg.JRNL.JRNL_CTRL 0

/-! ### Page locks (R686, R687, R499) -/

/-- CAPS.LOCKABLE: the blocks whose tables have RWL registers. -/
def Blk.lockable (b : Blk) : Bool := b.rows.any fun r => decide (r.acc = .RWL)

/-- Is the page locked (R686)? -/
def State.locked (s : State) (b : Blk) (i : Nat) : Bool := (s.rd (Reg.HDR.LOCK_OWNER b i)) != 0

/-- Set or clear bit `k` of a page's LOCK_OWNER (0 DRIVER, 1 SAFE); a change is journaled and raises source 17. -/
def setLock (b : Blk) (i k : Nat) (on : Bool) (f written : Nat) : Act := .get fun s =>
  let r := Reg.HDR.LOCK_OWNER b i
  let old := s.rd r
  .when (old.getLsbD k != on) <| .all
    [.setFld r k k (b2n on), .orReg Reg.TOP.TOP_EVENTS 2, .raise .TOP 0 1,
     .get fun t => journal (f + 32) (b.slot + i) 0x034 old.toNat (t.rd r).toNat written]

/-- R687: LOCK_CMD. -/
def lockCmdAct (f : Nat) (v : Word) : Act :=
  let slot := bits v 13 0
  let result (ok : Bool) (reason : Nat) := Act.wrN Reg.TOP.LOCK_RESULT (1 + 2 * b2n ok + 256 * reason)
  if bits v 31 16 ≠ 0x1D0C then result false 1
  else match pageAt slot with
    | none => result false 2
    | some (b, i) => if b.lockable then .seq (setLock b i 0 true f v.toNat) (result true 0) else result false 3

end Sys2Proof.Machine
end

