-- ==== Sys2Proof/Machine/Safe.lean ====
section
/-! DEFINITION. Functional safety (12_functional_safety): the comparator CMP, the safety manager SAFE with its states,
outputs and status units, run-time and start-up tests, and the window watchdogs. -/

namespace Sys2Proof.Machine

def Act.safe (f : SafeSt → SafeSt) : Act := .hw fun h => { h with safe := f h.safe }

/-! ### What SAFE's registers say -/

/-- SAFE_STATE.STATE (R505). -/
abbrev sOFF : Nat := 0
abbrev sINIT : Nat := 1
abbrev sTEST : Nat := 2
abbrev sARM : Nat := 3
abbrev sRUN : Nat := 4
abbrev sDEGRADED : Nat := 5
abbrev sREACT : Nat := 6
abbrev sSAFE : Nat := 7
def State.safeState (s : State) : Nat := s.fld Reg.SAFE.SAFE_STATE 2 0
def setSafeState (v : Nat) : Act := .setFld Reg.SAFE.SAFE_STATE 2 0 v

/-- Raise source 1 + k (R530). -/
def safeRaise (k : Nat) : Act := .raise .SAFE 0 k
/-- Raise source 11 + k (R530). -/
def cmpRaise (k : Nat) : Act := .raise .CMP 0 k

/-- CH_A or CH_B. -/
def chanReg (chB : Bool) : RegRef := if chB then Reg.SAFE.CH_B else Reg.SAFE.CH_A
def State.chanCtx (s : State) (chB : Bool) : Nat := s.fld (chanReg chB) 7 0
/-- Physical engine of a channel. -/
def State.chanPhys (s : State) (chB : Bool) : Option Nat := s.physOf (s.fld (chanReg chB) 12 8)
/-- The channel a physical engine serves. -/
def State.chanOfEng (s : State) (p : Nat) : Option Bool :=
  if s.chanPhys false = some p then some false else if s.chanPhys true = some p then some true else none
/-- The channel whose context is `c`. -/
def State.chanOfCtx (s : State) (c : Nat) : Option Bool :=
  if s.chanCtx false = c then some false else if s.chanCtx true = c then some true else none
/-- SAFE_STATE.FAILED_CH. -/
def State.failedCh (s : State) : Nat := s.fld Reg.SAFE.SAFE_STATE 9 8
/-- FAILED_CH's code of one channel. -/
def chCode (chB : Bool) : Nat := if chB then 2 else 1
/-- In REACT and DEGRADED: does the channel survive? -/
def State.survivor (s : State) : Bool := s.failedCh == 1
def State.lastOf (s : State) (chB : Bool) : Option ChanRes := if chB then s.hw.safe.lastB else s.hw.safe.lastA
def State.stopZones (s : State) : BitVec 16 := (s.rd Reg.SAFE.STOP_ZONES).setWidth 16
/-- VERDICT_AGE in ns. -/
def State.verdictAge (s : State) : Nat := s.fld Reg.SAFE.TIMING 15 0 * 1000
/-- R509: the effective PIN_HOLD, ns. -/
def State.pinHold (s : State) : Nat :=
  if s.bit Reg.SAFE.SAFE_CTRL 1 && !s.bit Reg.SAFE.SAFE_STATE 10 then s.fld Reg.SAFE.TIMING 31 16 * 1000 else 0
/-- A limit of CMP.LIMITS; a limit of 0 acts as 1. -/
def State.cmpLimit (s : State) (i : Nat) : Nat := max 1 (s.fld Reg.CMP.LIMITS (8 * i + 7) (8 * i))

/-! ### Units of SAFE and CMP -/

/-- A class 2 unit of format 0x13 that SAFE or CMP produces on stream `n`, as it leaves its producer; a full ring does
not hold it back (log entry 53). -/
def emitSafe (n source stamp : Nat) (item : BitVec 48) (flags : BitVec 16) (payload : List Byte) (k : DUnit → Act) : Act :=
  .get fun s =>
    let u := s.finish n (unitWith stamp item 2 (s.chanCtx false) 0x13 source flags payload)
    .seq (if (s.streamRec n).valid && !s.streamFull n then .publish n u
          else .stream n fun st => { st with fc := st.fc + 1 }) (k u)

/-- A route event of R515: ROUTE_FAULT is set. -/
def routeMark : Act := .get fun s => .when (s.bit Reg.SAFE.SAFE_CTRL 1) <| .all
  [.setFld Reg.SAFE.SAFE_STATE 10 10 1, safeRaise 7, .safe fun x => { x with routeAt := s.now, timely := 0 }]

/-- R514, R515: a status unit is handed to the CEU; a template without a port or a port that is down is a route event. -/
def handOver (u : DUnit) : Act := .get fun s =>
  let i := s.fld Reg.SAFE.SMSG 12 9
  let ports := s.tplPorts i
  .when (s.bit Reg.SAFE.SAFE_CTRL 1) <|
    if ports.isEmpty || !(ports.all s.tsnUp) || !s.bit Reg.CEU.CEU_CTRL 0 then
      .seq (.when (s.bit Reg.CEU.CEU_CTRL 0) (ceuSend i 3 0 u none ports)) routeMark
    else ceuSend i 3 0 u none ports

/-- Age of the latest verdict without INVALID, µs, saturating (R512). -/
def State.verdictUs (s : State) : Nat := match s.hw.safe.verdict with
  | some (t, _) => min ((s.now - t) / 1000) 4294967295
  | none => 4294967295

/-- ms left under DEG_LIMIT (R512). -/
def State.degRemain (s : State) : Nat :=
  if s.safeState = sDEGRADED then (s.hw.safe.reactAt + (s.rd Reg.SAFE.DEG_LIMIT).toNat * 1000000 - s.now) / 1000000 else 0

/-- The payload of a status unit (R512). -/
def State.statusBytes (s : State) : List Byte :=
  let w := s.rd Reg.SAFE.SAFE_STATE
  let occ := (s.hw.safe.verdict.map (·.2)).getD 0
  leBytes 1 (bits w 2 0) ++
  leBytes 1 (b2n (w.getLsbD 4) + 2 * b2n (w.getLsbD 5) + 4 * b2n (w.getLsbD 6) + 8 * b2n (w.getLsbD 7) +
    16 * b2n (occ &&& s.stopZones != 0)) ++
  leBytes 2 occ.toNat ++ leBytes 1 (bits w 23 16) ++ leBytes 1 (bits w 9 8) ++ [0, 0] ++ leBytes 4 s.verdictUs ++
  leBytes 4 s.degRemain

/-- A status unit (R512 to R514). -/
def statusUnit (stamp : Nat) (item : BitVec 48) (flags : BitVec 16) : Act := .get fun s =>
  let deg := s.safeState == sDEGRADED || flags.getLsbD fDEGRADED
  .seq (.safe fun x => { x with statusAt := s.now })
    (emitSafe (s.fld Reg.SAFE.SMSG 8 0) 1 stamp item (putBit flags fDEGRADED deg) s.statusBytes handOver)

/-! ### VALID and the outputs (R508, R509) -/

/-- R508. -/
def State.validNow (s : State) : Bool :=
  (s.safeState == sRUN || s.safeState == sDEGRADED) && match s.hw.safe.verdict with
    | some (t, _) => decide (s.now - t ≤ s.verdictAge)
    | none => false

/-- R509: may the outputs be energised, VALID being `valid` and lost at `lost`? -/
def State.mayEnergise (s : State) (valid : Bool) (lost : Option Nat) : Bool :=
  decide (4 ≤ s.safeState ∧ s.safeState ≤ 6) &&
  (match s.hw.safe.verdict with
   | some (_, occ) => occ &&& s.stopZones == 0
   | none => false) &&
  (valid || (s.pinHold != 0 && match lost with
    | some t => decide (s.now - t ≤ s.pinHold)
    | none => false))

/-- An output changes at its pin. -/
def drivePin (name : String) (old new : Bool) : Act := .when (old != new) (.out (.pin name new))

/-- VALID, the outputs and GAP_MAX follow the state. -/
def recalc : Act := .get fun s =>
  let w := s.rd Reg.SAFE.SAFE_STATE
  let valid := s.validNow
  let lost0 := s.hw.safe.lostAt
  let lost : Option Nat := if valid then none else if w.getLsbD 4 then some s.now else lost0
  let gapEnds := lost0.isSome && (valid || s.safeState == sSAFE)
  let lost : Option Nat := if s.safeState == sSAFE || s.safeState ≤ sTEST then none else lost
  let on := s.mayEnergise valid lost
  .all [.when gapEnds (.maxReg Reg.SAFE.GAP_MAX ((s.now - lost0.getD s.now) / 1000)),
        .safe fun x => { x with lostAt := lost },
        .wr Reg.SAFE.SAFE_STATE (setBits (setBits (setBits (setBits w 4 4 (b2n valid)) 5 5 (b2n (s.safeState == sDEGRADED)))
          6 6 (b2n on)) 7 7 (b2n on)),
        drivePin "SAFE_OUT_A" (w.getLsbD 6) on, drivePin "SAFE_OUT_B" (w.getLsbD 7) on]

/-- A change of state raises source 1; a change of state, of VALID or of ROUTE_FAULT has a status unit (R512, R515,
R530). -/
def notify (old : Word) : Act := .get fun s =>
  let w := s.rd Reg.SAFE.SAFE_STATE
  .seq (.when (bits w 2 0 != bits old 2 0) (safeRaise 0))
    (.when (bits w 2 0 != bits old 2 0 || w.getLsbD 4 != old.getLsbD 4 || w.getLsbD 10 != old.getLsbD 10)
      (statusUnit s.now 0 0))

/-- Whatever touches SAFE: the outputs and VALID follow, and the change is told. -/
def safely (a : Act) : Act := .get fun s => .all [a, recalc, notify (s.rd Reg.SAFE.SAFE_STATE), recalc]

/-! ### Faults (R503, R517, R518) -/

/-- INVALID on the units of stream `n` not yet consumed, and on the command units a loop has not selected (R518). -/
def invalidateStream (n : Nat) : Act := .get fun s =>
  let r := s.streamRec n
  let st := s.streamSt n
  let k := (r.tail + r.slots - st.take % max 1 r.slots) % max 1 r.slots
  .when (r.valid && r.cls == 2) <| .seq
    (.each ((List.range k).map fun j => (st.take + j) % max 1 r.slots) fun i =>
      .bytes (r.ring + i * r.slotKib * 1024) ((s.unitAt n i).set fINVALID).sealed.toBytes)
    (.stream n fun x => { x with
      queue := x.queue.map fun (u, i) => ((u.set fINVALID).sealed, i)
      recent := x.recent.map fun (t, u) => (t, (u.set fINVALID).sealed) })

/-- Commands of the picked kind that hold their input commit their units with INVALID (R517, R518). -/
def invalidateCmds (p : Cmd → Bool) : Act := .disp fun d =>
  { d with cmds := d.cmds.map fun c => if p c && c.phase != .admitted then { c with invalid := true } else c }

/-- R518: SAFE enters SAFE. -/
def enterSafe : Act := .get fun s => .when (s.safeState != sSAFE) <| .all
  [setSafeState sSAFE, safeRaise 4, invalidateCmds fun c => c.cls == 2, .each (List.range 512) invalidateStream,
   .hw fun h => { h with inbox := h.inbox.map fun (i, u) => (i, if u.cls = 2 then (u.set fINVALID).sealed else u)
                         mot := { h.mot with waiting := h.mot.waiting.map fun (n, u) =>
                                    (n, if u.cls = 2 then u.set fINVALID else u) } },
   .safe fun x => { x with wait := [], rejoin := false, resync := 0 }]

/-- A fault is recorded: its code, the moment `t` that counts as the fault, its count. -/
def recordFault (code hi lo t : Nat) : Act := .all
  [.setFld Reg.SAFE.SAFE_STATE 23 16 code, .wrN Reg.SAFE.FAULT_TSC (t % 4294967296),
   .satFld Reg.SAFE.FAULT_CNT hi lo 1]

/-- A common fault of moment `t` (R503, R518). While SAFE is OFF nothing but FORCE_SAFE is one (log entry 54). -/
def commonFaultAt (code t : Nat) : Act := .get fun s =>
  .when (s.safeState != sOFF || code == 14) (.all [recordFault code 23 16 t, safeRaise 3, enterSafe])

/-- A common fault of this moment. -/
def commonFault (code : Nat) : Act := .get fun s => commonFaultAt code s.now

/-- A channel fault of moment `t` (R503, R517, R518). Outside RUN, REACT and DEGRADED it is counted, and agreeing pairs start
anew. Faults of both channels at one TSC lead to SAFE in every state (R528). -/
def channelFaultAt (chB : Bool) (code t : Nat) : Act := .get fun s =>
  let st := s.safeState
  .when (st != sOFF) <| .all
    [recordFault code (if chB then 15 else 7) (if chB then 8 else 0) t, safeRaise (if chB then 2 else 1),
     .safe fun x => { x with resync := 0, chFault := some (chB, s.now) },
     if s.hw.safe.chFault = some (!chB, s.now) then .seq (.setFld Reg.SAFE.SAFE_STATE 9 8 3) enterSafe
     else if st = sRUN then .all
       [setSafeState sREACT, .setFld Reg.SAFE.SAFE_STATE 9 8 (chCode chB),
        .safe fun x => { x with reactAt := s.now, warned := false, rejoin := false, again := false, wait := [] },
        invalidateCmds fun c => c.ctx == s.chanCtx chB]
     else if st = sREACT ∨ st = sDEGRADED then
       if s.survivor == chB then .seq (.setFld Reg.SAFE.SAFE_STATE 9 8 3) enterSafe
       else .safe fun x => { x with rejoin := false }
     else .nil]

/-- A channel fault of this moment. -/
def channelFault (chB : Bool) (code : Nat) : Act := .get fun s => channelFaultAt chB code s.now

/-- A class 2 transient (R503, R530). -/
def transient : Act := .get fun s => .when (s.safeState != sOFF) <|
  let l := (s.now :: s.hw.safe.trans.filter fun t => decide (s.now < t + 1000000000)).take 66
  .all [.bump Reg.SAFE.TRANS_CNT 1, .safe fun x => { x with trans := l }, .when (l.length == 65) (safeRaise 9)]

/-- R142: SAFE takes a report of unit `p` on context `c`. One of the surviving channel in REACT has its confirmation repeated
(R523). -/
def safeReport (p c : Nat) : Act := .get fun s =>
  .hw fun h => { h with safe := { h.safe with
    reports := (p, c, s.now) :: h.safe.reports.filter fun x => decide (s.now < x.2.2 + 1000000000)
    again := h.safe.again || (s.safeState == sREACT && s.chanPhys s.survivor == some p) } }

/-- R142, R503: a mismatch reported by engine `p`, or by an FCE (36). Row and tile mismatches count on any class 2
command's engine. -/
def safeMismatch : Act := transient

/-- Engine `p` entered FAULT, or met an uncorrectable store error (code 1): `t` is the first failing check or erroneous read. -/
def safeEngFault (p t : Nat) : Act := .get fun s => match s.chanOfEng p with
  | some b => .when (s.bit Reg.SAFE.SAFE_CTRL 0) (safely (channelFaultAt b 1 t))
  | none => .nil

/-- An FCE FAULT on a command of class 2 context `c` (code 1): `t` is the first failing check. -/
def safeCtxFault (c t : Nat) : Act := .get fun s => match s.chanOfCtx c with
  | some b => .when (s.bit Reg.SAFE.SAFE_CTRL 0) (safely (channelFaultAt b 1 t))
  | none => .nil

/-- Teardown of a channel context (code 11, R462). -/
def safeCtxDown (c : Nat) : Act := .get fun s => .when (s.bit Reg.SAFE.SAFE_CTRL 0) <|
  .seq (.when (s.chanCtx false == c) (safely (channelFault false 11))) (.when (s.chanCtx true == c) (safely (channelFault true 11)))

/-- A route fault (R503, R515). -/
def routeFault : Act := safely routeMark

/-- The link of port `t` is down (R515). -/
def safePortDown (t : Nat) : Act := .get fun s =>
  .when ((s.tplPorts (s.fld Reg.SAFE.SMSG 12 9)).contains t) routeFault

/-- A status frame handed over at `t` has left its port (R515). -/
def safeStatusLeft (t : Nat) : Act := .get fun s =>
  if s.now - t ≤ 100000 then .safe fun x => { x with timely := x.timely + 1 } else routeFault

/-! ### Verdicts (R492 to R495, R512) -/

/-- Occupied zones and evaluated zones of one result, or of two. -/
def State.verdictOf (s : State) (a : ChanRes) (b : Option ChanRes) : BitVec 16 × BitVec 16 :=
  match b with
  | some b => let e := a.eval &&& b.eval
              (a.occ ||| b.occ ||| (s.stopZones &&& ~~~ e), e)
  | none => (a.occ ||| (s.stopZones &&& ~~~ a.eval), a.eval)

/-- Does a result carry INVALID? -/
def ChanRes.inv (a : ChanRes) : Bool := a.flags.getLsbD fINVALID

/-- R492: the zones OCC_A and OCC_B differ in, of STOP_ZONES. -/
def State.disagree (s : State) (a b : ChanRes) : Bool := (a.occ ^^^ b.occ) &&& s.stopZones != 0

/-- R494: a verdict's DISAGREE counts, and DISC_LIMIT of them in a row are a common fault; another verdict breaks the row. -/
def disagreement (dis : Bool) : Act := .get fun s =>
  let n := if dis then s.hw.safe.disc + 1 else 0
  let full := dis && decide (s.cmpLimit 0 ≤ n)
  .all [.safe fun x => { x with disc := if full then 0 else n },
        .when dis (.seq (.bump Reg.CMP.DISC_CNT 1) (cmpRaise 0)), .when full (commonFault 6)]

/-- CMP emits a verdict; SAFE takes it. It carries the smallest stamp of the results it uses (R30) and, as the one unit of
its item in its stream, LAST (R50), as the status unit of that item does. -/
def verdict (a : ChanRes) (b : Option ChanRes) (degraded : Bool) : Act := .get fun s =>
  let (occ, ev) := s.verdictOf a b
  let dis := match b with
    | some y => s.disagree a y
    | none => false
  let flags := putBit (passOn (a.flags ||| ((b.map (·.flags)).getD 0))) fDEGRADED
    (degraded || (a.flags ||| ((b.map (·.flags)).getD 0)).getLsbD fDEGRADED)
  let usedA := b.isSome || !a.chB
  let usedB := b.isSome || a.chB
  let inv := flags.getLsbD fINVALID
  let stamp := min a.stamp ((b.map (·.stamp)).getD a.stamp)
  let flags := putBit flags fLAST true
  .all [.wrN Reg.CMP.LAST_VERDICT (occ.toNat + 65536 * ev.toNat),
        emitSafe (s.fld Reg.CMP.CMP_IO 8 0) 11 stamp a.item flags
          (leBytes 2 occ.toNat ++ leBytes 2 ev.toNat ++ leBytes 4 (b2n usedA + 2 * b2n usedB + 4 * b2n dis) ++
            List.replicate 8 0) fun _ => .nil,
        .when (!inv) (.safe fun x => { x with verdict := some (stamp, occ) }),
        recalc, .when (s.safeState != sOFF) (statusUnit stamp a.item flags), disagreement dis]

/-- TSC at which DEG_LIMIT expires. -/
def State.degEnd (s : State) : Nat := s.hw.safe.reactAt + (s.rd Reg.SAFE.DEG_LIMIT).toNat * 1000000

/-- DEG_LIMIT has expired (code 12). -/
def degExpired : Act := .get fun s => commonFaultAt 12 s.degEnd

/-- An agreeing pair in ARM or in shadow (R505, R519): after RESYNC of them, RUN; where DEG_LIMIT expires at the same TSC, SAFE
(R528). -/
def agreed (b : Bool) : Act := .get fun s =>
  let n := if b then s.hw.safe.resync + 1 else 0
  .seq (.safe fun x => { x with resync := n }) (.when (decide (s.cmpLimit 3 ≤ n)) <|
    if s.safeState = sDEGRADED ∧ s.degEnd ≤ s.now then degExpired
    else .all [setSafeState sRUN, .setFld Reg.SAFE.SAFE_STATE 9 8 0,
               .safe fun x => { x with resync := 0, rejoin := false, wait := [] }])



/-- A pair has ended: its item is remembered. -/
def endPair (item : BitVec 48) : Act := .safe fun x => { x with
  wait := x.wait.filter (fun r => r.item != item), gone := (item :: x.gone).take 64 }

/-- A complete pair (R492, R494). -/
def pairDone (a b : ChanRes) : Act := .get fun s =>
  let dis := s.disagree a b
  .all [endPair a.item, .bump Reg.CMP.PAIR_CNT 1, .safe fun x => { x with lateA := 0, lateB := 0 },
        .when (s.safeState == sARM) (agreed (!a.inv && !b.inv && !dis)),
        verdict a (some b) false]

/-! ### Results (R490, R491, R494, R519) -/

/-- What CMP reads from a result's payload. -/
def resultOf (chB : Bool) (v : DUnit) (now : Nat) : ChanRes :=
  { item := v.item, stamp := v.stamp.toNat, chB := chB, occ := BitVec.ofNat 16 (leNat (v.payload.take 2)),
    eval := BitVec.ofNat 16 (leNat ((v.payload.drop 2).take 2)), flags := v.passed, since := now }

/-- R494: the channels whose model identity fails for a result of channel `chB`. -/
def State.modelBad (s : State) (chB : Bool) (v : DUnit) : List Bool :=
  let a := s.rd Reg.CMP.MODEL_A
  let b := s.rd Reg.CMP.MODEL_B
  if a = b then [false, true]
  else if leNat ((v.payload.drop 4).take 4) ≠ (if chB then b else a).toNat then [chB] else []

/-- The surviving channel's result in DEGRADED, or the rejoining channel's beside it (R519). -/
def degradedResult (r : ChanRes) : Act := .get fun s =>
  let mine := r.chB == s.survivor
  let other := s.hw.safe.wait.find? fun x => x.item == r.item && x.chB != r.chB
  .seq (.when mine (verdict r none true)) <|
    .when s.hw.safe.rejoin <| match other with
      | some x => .seq (endPair r.item) (agreed (!r.inv && !x.inv && !s.disagree r x))
      | none => .when (!s.hw.safe.gone.contains r.item && !s.hw.safe.wait.any fun x => x.item == r.item)
          (.safe fun x => { x with wait := x.wait ++ [r] })

/-- A result CMP has accepted. -/
def takeResult (r : ChanRes) : Act := .get fun s => .seq
  (.when (!r.inv) (.safe fun x => if r.chB then { x with lastB := some r } else { x with lastA := some r }))
  (if s.safeState = sDEGRADED then degradedResult r
   else if s.safeState = sREACT then .nil
   else if s.hw.safe.gone.contains r.item then .nil
   else match s.hw.safe.wait.find? fun x => x.item == r.item with
    | some x => .when (x.chB != r.chB) (if r.chB then pairDone x r else pairDone r x)
    | none => .safe fun x => { x with wait := x.wait ++ [r] })

/-- CHANNEL_RESULT_ARRIVE. -/
def channelResultAct (chB : Bool) (u : DUnit) : Act := .get fun s => .when (s.bit Reg.CMP.CMP_CTRL 0) <|
  .receive .CMP 0 u 2 fun l => .each l fun v => .get fun t =>
    let bad := !v.has fINVALID && (v.payload.length != 16 || v.fmt != 0x13)
    let v := if bad then v.substitute else v
    let wrong := if v.has fINVALID then [] else t.modelBad chB v
    .seq (.when bad (.err .CMP 0 1)) <| safely <|
      if wrong.isEmpty then takeResult (resultOf chB v t.now)
      else .seq (cmpRaise 2) (.each wrong fun b => channelFault b 5)

/-- PAIR_WAIT_EXPIRY (R494). -/
def pairWaitAct (item : BitVec 48) : Act := .get fun s =>
  match s.hw.safe.wait.find? fun x => x.item == item with
  | none => .nil
  | some r =>
    let due := r.since + s.fld Reg.CMP.PAIR_WAIT 15 0 * 1000
    let missB := !r.chB
    let n := (if missB then s.hw.safe.lateB else s.hw.safe.lateA) + 1
    let full := decide (s.cmpLimit 1 ≤ n)
    .when (decide (due ≤ s.now)) <| safely <| .all
      [endPair item, .satFld Reg.CMP.LATE_CNT (if missB then 31 else 15) (if missB then 16 else 0) 1, cmpRaise 1,
       .safe fun x => if missB then { x with lateA := 0, lateB := if full then 0 else n }
                      else { x with lateB := 0, lateA := if full then 0 else n },
       .when (s.safeState == sARM || s.safeState == sDEGRADED) (agreed false),
       .when (s.safeState == sRUN) (verdict r none true),
       .when full (channelFaultAt missB 4 due)]

/-- R494: a unit committed on CMP_IO.INPUT: the first band unit of each frame is compared with the frame before. -/
def frozenInput (n : Nat) (u : DUnit) : Act := .get fun s =>
  let io := s.rd Reg.CMP.CMP_IO
  .when (s.bit Reg.CMP.CMP_CTRL 0 && io.getLsbD 31 && bits io 24 16 == n && !u.payload.isEmpty &&
      (s.hw.safe.frame.map (·.1)) != some u.item) <|
    let c := crc32c u.payload
    let k := if (s.hw.safe.frame.map (·.2)) = some c then s.hw.safe.freeze + 1 else 1
    let hit := decide (max 2 (s.cmpLimit 2) ≤ k)
    .seq (.safe fun x => { x with frame := some (u.item, c), freeze := if hit then 1 else k })
         (.when hit (safely (.seq (cmpRaise 3) (commonFault 7))))

/-! ### The end of REACT and DEGRADED (R517 to R520, R523) -/

/-- R525: what a confirmation slice counts on its engine. -/
def sliceCounts (chB : Bool) : Act := .get fun s => match s.chanPhys chB with
  | some p => .seq (.bump (Reg.ENG.CHK_ROW p) 1) (.satFld (Reg.ENG.ES_ECC p) 15 0 1)
  | none => .nil

/-- R519: may the failed channel rejoin? Its context runs, on an engine in service in another stripe. -/
def State.rejoinOk (s : State) : Bool :=
  let f := !s.survivor
  s.ctxState (s.chanCtx f) == 2 && match s.chanPhys f, s.chanPhys (!f) with
    | some p, some q => p / 9 != q / 9 && s.engState p != eFAULT
    | _, _ => false

/-- CONFIRMATION_SLICE_DONE: in REACT on the surviving channel's engine, in DEGRADED on the rejoining channel's. In REACT a
transient of the surviving channel since the slice began has it repeated (R523). -/
def confirmationAct (pass : Bool) : Act := .get fun s =>
  let b := s.survivor
  if s.safeState = sREACT ∧ s.hw.safe.again then .safe fun x => { x with again := false }
  else if s.safeState = sREACT then
    let r := s.lastOf b
    let fresh := match r with
      | some x => decide (s.now - x.stamp ≤ s.verdictAge)
      | none => false
    .seq (.when pass (sliceCounts b)) <| safely <|
      if pass && fresh && s.rd Reg.SAFE.DEG_LIMIT != 0 then
        .seq (setSafeState sDEGRADED) (match r with
          | some x => verdict x none true
          | none => .nil)
      else enterSafe
  else .when (s.safeState == sDEGRADED && pass && s.rejoinOk && !s.hw.safe.rejoin) <|
    .seq (sliceCounts (!b)) (.safe fun x => { x with rejoin := true, resync := 0, wait := [] })

/-- DEG_LIMIT_EXPIRY. -/
def degLimitAct : Act := .get fun s =>
  .when (s.safeState == sDEGRADED && decide (s.degEnd ≤ s.now)) (safely degExpired)

/-- DEG_LIMIT_WARNING (R530). -/
def degWarningAct : Act := .get fun s =>
  .when (s.safeState == sDEGRADED && !s.hw.safe.warned && decide (s.degEnd ≤ s.now + 1000000000))
    (.seq (.safe fun x => { x with warned := true }) (safeRaise 8))

/-- VERDICT_AGE_EXPIRY (R508): VALID follows the age of the latest verdict. -/
def verdictAgeAct : Act := safely .nil

/-- PIN_HOLD_EXPIRY (R509): the outputs follow. -/
def pinHoldAct : Act := recalc

/-- OUTPUT_READBACK (R510): one sample of both balls. -/
def readbackAct (a b : Bool) : Act := .get fun s =>
  let differs := a != s.bit Reg.SAFE.SAFE_STATE 6 || b != s.bit Reg.SAFE.SAFE_STATE 7
  .when (s.safeState != sOFF) <|
    if !differs then .safe fun x => { x with differs := none }
    else match s.hw.safe.differs with
      | none => .safe fun x => { x with differs := some s.now }
      | some t => .when (decide (t + 2000 ≤ s.now)) (safely (.all
          [.safe (fun x => { x with differs := none }), safeRaise 6, commonFaultAt 9 t]))

/-- TEST_PULSE (R511): the output drops and returns; a readback that does not follow is a mismatch. -/
def testPulseAct (outB followed : Bool) : Act := .get fun s =>
  let name := if outB then "SAFE_OUT_B" else "SAFE_OUT_A"
  .when (s.bit Reg.SAFE.SAFE_CTRL 2 && s.bit Reg.SAFE.SAFE_STATE (if outB then 7 else 6)) <| .all
    [.out (.pin name false), .out (.pin name true), .when (!followed) (safely (.seq (safeRaise 6) (commonFault 9)))]

/-- SMSG_PERIOD_EXPIRY (R512). -/
def smsgPeriodAct : Act := .get fun s =>
  .when (s.safeState != sOFF && decide (s.hw.safe.statusAt + s.fld Reg.SAFE.SMSG 31 16 * 1000 ≤ s.now))
    (safely (statusUnit s.now 0 0))

/-- STATUS_FRAME_LATE (R515): a status frame waits in a port 100 µs after its hand-over. -/
def statusLateAct : Act := .get fun s =>
  .when (s.hw.mot.tsn.any fun t => t.queue.any fun f => f.kind == 3 && decide (f.since + 100000 < s.now)) routeFault

/-- ROUTE_FAULT_CLEAR (R515). -/
def routeClearAct : Act := .get fun s =>
  let ports := s.tplPorts (s.fld Reg.SAFE.SMSG 12 9)
  .when (s.bit Reg.SAFE.SAFE_STATE 10 && decide (s.hw.safe.routeAt + 100000000 ≤ s.now ∧ 16 ≤ s.hw.safe.timely) &&
      !ports.isEmpty && ports.all s.tsnUp)
    (safely (.setFld Reg.SAFE.SAFE_STATE 10 10 0))

/-- LOCKSTEP_MISMATCH (R504): code 10. -/
def lockstepAct : Act := safely (commonFault 10)
/-- SAFE_CLOCK_DEVIATION (R503): code 15. -/
def safeClockAct : Act := safely (commonFault 15)
/-- PWR_FAIL_N low (R503): code 13. -/
def safePowerFail : Act := safely (commonFault 13)

/-! ### Commands and states (R499, R505, R506) -/

/-- The pages whose lock SAFE holds from ARM to INIT (R499). -/
def safePages : List (Blk × Nat) := [(.SAFE, 0), (.CMP, 0), (.WDG, 0), (.WDG, 1), (.WDG, 2), (.WDG, 3), (.DISP, 0)]

/-- R499. -/
def safeLocks (on : Bool) : Act := .each safePages fun x => setLock x.1 x.2 1 on 0 0

/-- SAFE enters INIT. -/
def enterInit : Act := .all
  [setSafeState sINIT, .setFld Reg.SAFE.SAFE_STATE 9 8 0, safeLocks false,
   .safe fun x => { x with wait := [], gone := [], verdict := none, lastA := none, lastB := none, lateA := 0, lateB := 0,
                           disc := 0, resync := 0, rejoin := false, lostAt := none }]

/-- Is the stream of an AUTH entry covered by an enabled watchdog with KICK_SRC 1 and ACTION 1 (R506)? -/
def State.wdCovers (s : State) (n : Nat) : Bool := (List.range 64).any fun w =>
  let c := s.rd (Reg.WDG.WD_CFG (w / 16) (w % 16))
  s.bit (Reg.WDG.WDG_CTRL (w / 16)) 0 && c.getLsbD 0 && c.getLsbD 1 && c.getLsbD 4 && bits c 13 5 == n

/-- R506: does a channel name a RUNNING class 2 context and an engine of CLASS2_ENG? -/
def State.chanReady (s : State) (chB : Bool) : Bool :=
  s.ctxState (s.chanCtx chB) == 2 && s.ctxClass (s.chanCtx chB) == 2 && s.bit Reg.DISP.CLASS2_ENG (s.fld (chanReg chB) 12 8)

/-- R506: the reason ARM is refused, 0 for none. -/
def State.armReason (s : State) : Nat :=
  let apart := match s.chanPhys false, s.chanPhys true with
    | some p, some q => p / 9 != q / 9
    | _, _ => false
  if !s.chanReady false || !s.chanReady true || !apart then 1
  else if s.rd Reg.CMP.MODEL_A = s.rd Reg.CMP.MODEL_B then 2
  else if !((List.range 16).all fun i =>
      let e := s.rd (Reg.SAFE.AUTH i)
      !e.getLsbD 15 || decide (3 ≤ bits e 11 9) || s.wdCovers (bits e 8 0)) then 3
  else if s.bit Reg.SAFE.SAFE_CTRL 1 && (s.tplPorts (s.fld Reg.SAFE.SMSG 12 9)).isEmpty then 4
  else 0

/-- CMD_RESULT. -/
def safeResult (ok : Bool) (reason : Nat) : Act := .wrN Reg.SAFE.CMD_RESULT (1 + 2 * b2n ok + 256 * reason)

/-- ARM. -/
def armAct : Act := .get fun s =>
  if s.safeState ≠ sINIT then safeResult false 0
  else if s.armReason = 0 then .seq (safeResult true 0) (safely (setSafeState sTEST))
  else safeResult false s.armReason

/-- RESTART. -/
def restartAct : Act := .get fun s =>
  if s.safeState = sSAFE then .seq (safeResult true 0) (safely enterInit) else safeResult false 0

/-- FORCE_SAFE (code 14), accepted in every state. -/
def forceSafeAct : Act := .seq (safeResult true 0) (safely (commonFault 14))

/-- SAFE_CMD written with its key. -/
def safeCmdAct (v : Word) : Act := match bits v 3 0 with
  | 1 => armAct
  | 2 => restartAct
  | 3 => forceSafeAct
  | _ => safeResult false 0

/-- SAFE_CTRL.ENABLE set or cleared (R505). -/
def safeEnableAct (old v : Word) : Act :=
  if v.getLsbD 0 && !old.getLsbD 0 then .get fun s => .when (s.safeState == sOFF) (safely enterInit)
  else .when (!v.getLsbD 0 && old.getLsbD 0) (safely (setSafeState sOFF))

/-- A SAFE_CMD with another key is not accepted (R506). -/
def safeDrops (off : Nat) (v : Word) : Bool := off == 0x048 && bits v 31 16 != 0xA5C3

def safeWrite (off : Nat) (old v : Word) : Act :=
  if off = 0x040 then safeEnableAct old v else if off = 0x048 then safeCmdAct v
  else safely .nil

def cmpComputed (s : State) (off : Nat) : Option Word :=
  let x := s.hw.safe
  if off = 0x044 then some (BitVec.ofNat 32 (min x.wait.length 255 + 256 * min x.disc 255 + 65536 * min x.lateA 15 +
    1048576 * min x.lateB 15 + 16777216 * min x.freeze 255))
  else none

/-! ### Tests (R524 to R527) -/

/-- Engines in service or spare. -/
def State.livingEngines (s : State) : List Nat := (List.range 36).filter fun p => !s.isFailed p && s.engState p != eFAULT

/-- R526: engine `p` missed: out of service and darned. -/
def testEngineMiss (p : Nat) : Act :=
  .all [setEngState p eFAULT, .raise .ENG p 1, .event (.darn { kind := 1, inst := p / 9, unit := p, cause := 3 })]

/-- R526: a channel engine out of service with no spare left. -/
def State.chanStranded (s : State) : Bool := [false, true].any fun b => match s.chanPhys b with
  | some p => s.engState p == eFAULT && (s.spareFor p).isNone
  | none => false

/-- R526: a unit, by its page slot, whose errors went undetected. -/
def testUnitMiss (u : Nat) : Act := match pageAt u with
  | some (.ENG, p) => testEngineMiss p
  | some (.FCE, i) => .seq (setFceState i eFAULT) (.raise .FCE i 1)
  | _ => .nil

/-- SAFE_TEST_DONE (R526, R527): `fails` are the page slots of the failing units, first to last, `toSafe` a miss of CMP, a
watchdog, lockstep or an output. -/
def safeTestDoneAct (fails : List Nat) (toSafe : Bool) : Act := .get fun s =>
  .when (s.safeState == sTEST) <| .seq
    (.each s.livingEngines fun p => .when (!fails.contains (Blk.ENG.slot + p)) (testCounts p)) <| .seq
    (.each (List.range 4) fun i => .when (!fails.contains (Blk.FCE.slot + i) && s.fceState i != eFAULT) (.bump (Reg.FCE.CHK_CNT i) 1)) <|
    safely <| .all
      [(match fails with
        | u :: _ => .setFld Reg.SAFE.CMD_RESULT 31 16 u
        | [] => .nil),
       .each fails testUnitMiss, .get fun t => .when (toSafe || t.chanStranded) (commonFault 16),
       .get fun t => if t.safeState = sTEST then .all [setSafeState sARM, safeLocks true, .safe fun x => { x with resync := 0, wait := [] }]
         else .setFld Reg.SAFE.CMD_RESULT 1 1 0]

/-- R524, R525: what slice `k` raises on channel engine `p`. -/
def sliceRaises (k p : Nat) : Act :=
  match k with
  | 0 => .bump (Reg.ENG.CHK_ROW p) 1
  | 1 => .bump (Reg.ENG.CHK_TILE p) 1
  | 2 => .seq (.satFld (Reg.ENG.ES_ECC p) 15 0 1) (.satFld (Reg.ENG.ES_ECC p) 31 16 1)
  | 3 => .bump (Reg.ENG.VU_CHK p) 1
  | _ => .nil

/-- SELF_TEST_SLICE: the next slice of the rotation; `miss` is the page slot of a unit whose detection did not occur. The result
of a slice on an engine that a real fault has put into FAULT is discarded (R528). -/
def selfTestAct (miss : Option Nat) : Act := .get fun s =>
  let k := s.fld Reg.SAFE.TEST_STATUS 7 0
  let faulty (p : Nat) : Bool := s.engState p == eFAULT
  let es := ([false, true].filterMap s.chanPhys).filter fun p => !faulty p
  let miss := miss.filter fun u => !(match pageAt u with
    | some (.ENG, p) => faulty p
    | _ => false)
  .when (decide (sARM ≤ s.safeState ∧ s.safeState ≤ sREACT)) <| .all
    [.each es fun p => .when (miss != some (Blk.ENG.slot + p)) (sliceRaises k p),
     .setFld Reg.SAFE.TEST_STATUS 8 8 (b2n miss.isNone), .setFld Reg.SAFE.TEST_STATUS 7 0 ((k + 1) % 8),
     match miss with
     | none => .nil
     | some u => .all [.satFld Reg.SAFE.TEST_STATUS 23 16 1, safeRaise 5,
         safely (match (if Blk.ENG.slot ≤ u then s.chanOfEng (u - Blk.ENG.slot) else none) with
           | some b => channelFault b 8
           | none => commonFault 8)]]

/-! ### Watchdogs (R500 to R502, R532, R533) -/

def State.wd (s : State) (w : Nat) : WdSt := s.hw.safe.wds.getD w {}
def Act.wd (w : Nat) (f : WdSt → WdSt) : Act := .safe fun x => { x with wds := updAt f w x.wds }
def wdCfg (w : Nat) : RegRef := Reg.WDG.WD_CFG (w / 16) (w % 16)
def wdStatus (w : Nat) : RegRef := Reg.WDG.WD_STATUS (w / 16) (w % 16)
def State.wdOn (s : State) (w : Nat) : Bool := s.bit (Reg.WDG.WDG_CTRL (w / 16)) 0 && s.bit (wdCfg w) 0
/-- End of the present window, µs: FIRST for the first kick, CLOSE after it. -/
def State.wdClose (s : State) (w : Nat) : Nat :=
  if (s.wd w).first then s.fld (wdCfg w) 31 16 else s.fld (Reg.WDG.WD_WIN (w / 16) (w % 16)) 31 16

/-- R502: an expiry of watchdog `w`, early or late, at TSC `t`. -/
def wdExpire (w : Nat) (late : Bool) (t : Nat) : Act := .get fun s => .all
  [.setFld (wdStatus w) 25 24 (if late then 3 else 2),
   .bump (if late then Reg.WDG.LATE_CNT (w / 16) else Reg.WDG.EARLY_CNT (w / 16)) 1, .raise .WDG (w / 16) (w % 16),
   .wd w fun x => { x with since := t, first := false },
   .when (s.bit (wdCfg w) 4) (match s.fld (wdCfg w) 3 2 with
     | 1 => safely (channelFaultAt false (if late then 2 else 3) t)
     | 2 => safely (channelFaultAt true (if late then 2 else 3) t)
     | 3 => safely (commonFaultAt (if late then 2 else 3) t)
     | _ => .nil)]

/-- Watchdog `w` expires when its window has closed `d` ns ago or more. -/
def wdLate (w d : Nat) : Act := .get fun s =>
  let close := (s.wd w).since + s.wdClose w * 1000
  .when (s.wdOn w && decide (close + d ≤ s.now)) (wdExpire w true close)

/-- WATCHDOG_LATE_EXPIRY: no kick by the window's close. -/
def wdLateAct (w : Nat) : Act := wdLate w 0

/-- R500: judge a kick; `seq` is the SEQ of a register kick. -/
def wdJudge (w : Nat) (seq : Option Nat) : Act := .get fun s =>
  let us := (s.now - (s.wd w).since) / 1000
  let next := (s.fld (wdStatus w) 7 0 + 1) % 256
  .when (s.wdOn w) <|
    if us < s.fld (Reg.WDG.WD_WIN (w / 16) (w % 16)) 15 0 || (seq.isSome && seq != some next) then wdExpire w false s.now
    else .seq (.modReg (wdStatus w) fun v => setBits (setBits v 7 0 next) 25 24 1)
              (.wd w fun _ => { since := s.now, first := false })

/-- A kick: a window already closed expires first; a kick at the TSC of CLOSE is in time (R528). -/
def wdKick (w : Nat) (seq : Option Nat) : Act := .seq (wdLate w 1) (wdJudge w seq)

/-- WD_KICK written (R501): a kick with KICK_SRC 0. -/
def wdKickAct (w : Nat) (v : Word) : Act := .get fun s => .when (!s.bit (wdCfg w) 1) (wdKick w (some (bits v 7 0)))

/-- R501: a unit committed on local stream `n` kicks the watchdogs that watch it. -/
def wdUnit (n : Nat) : Act := .each (List.range 64) fun w => .get fun s =>
  .when (s.wdOn w && s.bit (wdCfg w) 1 && s.fld (wdCfg w) 13 5 == n) (wdKick w none)

/-- R500: the windows of a page begin when both ENABLE and EN are set. -/
def wdStart (w : Nat) : Act := .get fun s =>
  .seq (.wd w fun _ => { since := s.now, first := true }) (.setFld (wdStatus w) 25 24 1)

/-- R533. -/
def wdgDrops (s : State) (g off : Nat) (v : Word) : Bool :=
  decide (0x100 ≤ off ∧ off < 0x200 ∧ off % 16 = 0) && v.getLsbD 0 &&
    (let win := s.rd (Reg.WDG.WD_WIN g ((off - 0x100) / 16))
     decide (bits win 31 16 ≤ bits win 15 0))

def wdgWrite (g off : Nat) (old v : Word) : Act :=
  if off = 0x040 then
    if v.getLsbD 0 && !old.getLsbD 0 then .each (List.range 16) fun i => .get fun s => .when (s.bit (Reg.WDG.WD_CFG g i) 0) (wdStart (16 * g + i))
    else .when (!v.getLsbD 0) (.each (List.range 16) fun i => .setFld (Reg.WDG.WD_STATUS g i) 25 24 0)
  else if 0x100 ≤ off ∧ off < 0x200 then
    let w := 16 * g + (off - 0x100) / 16
    if off % 16 = 0 then
      if v.getLsbD 0 && !old.getLsbD 0 then .get fun s => .when (s.bit (Reg.WDG.WDG_CTRL g) 0) (wdStart w)
      else .when (!v.getLsbD 0) (.setFld (wdStatus w) 25 24 0)
    else if off % 16 = 8 then wdKickAct w v
    else .nil
  else .nil

def wdgComputed (s : State) (g off : Nat) : Option Word :=
  if off = 0x044 then
    some (BitVec.ofNat 32 (sumNat ((List.range 16).map fun i => 2 ^ i * b2n (s.wdOn (16 * g + i)) +
      2 ^ (16 + i) * b2n (decide (2 ≤ s.fld (Reg.WDG.WD_STATUS g i) 25 24)))))
  else if 0x100 ≤ off ∧ off < 0x200 ∧ off % 16 = 12 then
    let w := 16 * g + (off - 0x100) / 16
    some (setBits (s.rd (wdStatus w)) 23 8 (if s.wdOn w then min ((s.now - (s.wd w).since) / 1000) 65535 else 0))
  else none

end Sys2Proof.Machine
end

