-- ==== Sys2Proof/Machine/Power.lean ====
section
/-! DEFINITION. Power, clocks and memory controllers (14_power_clocks_sleep): the core regulator, the clocks, the cap and
the thermal limits, power shifting, the blocks' power states, MEMC. Device states and resets are in Boot.lean. -/

namespace Sys2Proof.Machine

def Act.pwr (f : PwrSt → PwrSt) : Act := .hw fun h => { h with pwr := f h.pwr }
/-- Raise source 40 + k (R621). -/
def pwrRaise (k : Nat) : Act := .raise .PWR 0 k
/-- Raise source 48 + k (R623). -/
def vrcRaise (k : Nat) : Act := .raise .VRC 0 k
/-- Set a bit of CAP_EVENTS. -/
def capEvent (k : Nat) : Act := .orReg Reg.PWR.CAP_EVENTS (BitVec.ofNat 32 (2 ^ k))
/-- Set a bit of VRC_EVENTS. -/
def vrcEvent (k : Nat) : Act := .orReg Reg.VRC.VRC_EVENTS (BitVec.ofNat 32 (2 ^ k))

/-! ### The regulator (R569 to R580) -/

/-- Phases in service. -/
def State.phasesOn (s : State) : List Nat := (List.range 26).filter fun p => s.bit Reg.VRC.PHASE_EN p
/-- Phases in service whose sense is healthy. -/
def State.phasesSensed (s : State) : List Nat := s.phasesOn.filter fun p => !s.bit Reg.VRC.SENSE_FAIL p
/-- Spare phases left, and the one brought in next (R578). -/
def State.sparePhases (s : State) : List Nat := [24, 25].filter fun p => !s.bit Reg.VRC.PHASE_EN p && !s.bit Reg.VRC.PHASE_FAIL p
def State.nextPhase (s : State) : Option Nat := s.sparePhases.head?

/-- R580: fewer than 12 phases in service with a healthy sense. -/
def State.senseDegraded (s : State) : Bool := decide (s.phasesSensed.length < 12)

/-- R572, R580: ILIM, the phases in service, the spares left and SENSE_DEGRADED follow PHASE_EN. -/
def phaseCounts : Act := .get fun s =>
  .all [.wrN Reg.VRC.ILIM (15 * s.phasesOn.length), .setFld Reg.VRC.VRC_STATUS 20 16 s.phasesOn.length,
        .setFld Reg.VRC.VRC_STATUS 22 21 s.sparePhases.length, .setFld Reg.PWR.PWR_STATUS 6 6 (b2n s.senseDegraded)]

/-- The highest stripe clock in force. -/
def State.topCode (s : State) : Nat := ((List.range 4).map s.stripeCode).foldl max 0
/-- V_FUSE of a clock, 0.1 mV. -/
def State.vFuse (s : State) (c : Nat) : Nat := s.hw.pwr.vFuse.getD c 0 * 10

/-- VTARGET and VOUT follow the target. -/
def setTarget (t : Nat) : Act := .get fun s => .all
  [.pwr fun x => { x with target := t }, .wrN Reg.VRC.VTARGET (t / 10 + 65536 * (s.vFuse s.topCode / 10)),
   .setFld Reg.VRC.VRC_STATUS 9 0 (t / 10)]

/-- CORE_POWER_START (R569, R570): VDD_CORE starts when the rails and VIN_VR are in range. -/
def corePowerAct (railsOk : Bool) (vinMv : Nat) : Act := .get fun s => .seq (.wrN Reg.VRC.VIN vinMv) <|
  if !decide (10800 ≤ vinMv ∧ vinMv ≤ 13200) then vrcRaise 6
  else .when (railsOk && !s.hw.pwr.coreOn && !s.hw.boot.thermal && s.fld Reg.PWR.PWR_STATUS 2 0 != 3) <| .all
    [.pwr fun x => { x with coreOn := true }, setTarget 7500, phaseCounts, .wrN Reg.CLK.CLK_STATUS 0x71FFF, .event .coreUp]

/-- RAIL_LOST (R571). -/
def railLostAct (rail : Nat) : Act := .get fun s =>
  .when s.hw.pwr.coreOn (.seq (.wrN Reg.PWR.RAIL_LOST rail) (.event .railLost))

/-- ILIM_REACHED (R573). -/
def ilimReachedAct : Act := .get fun s => .when (!s.bit Reg.VRC.VRC_STATUS 24) <|
  .all [.setFld Reg.VRC.VRC_STATUS 24 24 1, .bump Reg.VRC.ILIM_CNT 1, vrcRaise 4]

/-- ILIM_RELEASE (R573). -/
def ilimReleaseAct : Act := .setFld Reg.VRC.VRC_STATUS 24 24 0

/-- R586: PWR asks for another clock of stripe `t`. -/
def wantStripe (t c : Nat) : Act := .pwr fun x => { x with want := updAt (fun _ => c) t x.want }

/-- AVS_STEP (R574 to R576): `slack` is the smallest monitor slack, `above` whether it has stayed above AVS_MARGIN + 10 ps
for 1 ms. -/
def avsStepAct (slack : Int) (above : Bool) : Act := .get fun s =>
  let v := s.vFuse s.topCode
  let t := s.hw.pwr.target
  let margin : Int := s.fld Reg.VRC.VRC_CTRL 15 8
  if !s.bit Reg.VRC.VRC_CTRL 0 then setTarget v
  else
    let up := decide (slack < margin)
    let want := if up then t + 25 else if above then t - 25 else t
    let lo := max (v - 750) 6000
    let hi := min (v + 250) 8500
    .seq (setTarget (max lo (min hi want))) <|
      .when (up && decide (8500 < t + 25)) <| .all
        [vrcRaise 7, vrcEvent 4,
         match (List.range 4).find? fun k => s.stripeCode k == s.topCode with
         | some k => .when (s.stripeCode k != 0) (wantStripe k (s.stripeCode k - 1))
         | none => .nil]

/-- PHASE_FAILURE (R578 steps 1 and 2). A spare that already follows another failed phase is none for this one (R619). -/
def phaseFailureAct (ph : Nat) : Act := .get fun s => .when (s.bit Reg.VRC.PHASE_EN ph) <| .all
  [.setFld Reg.VRC.PHASE_EN ph ph 0, .setFld Reg.VRC.PHASE_FAIL ph ph 1, phaseCounts, vrcRaise 0, vrcEvent 0,
   .get fun t =>
     let out := s.hw.pwr.phaseOut.filter (· != ph)
     if out.length < t.sparePhases.length then .pwr fun x => { x with phaseOut := out ++ [ph] }
     else .all [vrcRaise 3, vrcEvent 3, .pwr fun x => { x with phaseOut := out }]]

/-- SPARE_PHASE_IN (R578 step 3): the spare is in service; DARN is to commit it (step 4). A worn phase whose place it takes
goes out of service. -/
def sparePhaseAct : Act := .get fun s => match s.hw.pwr.phaseOut, s.nextPhase with
  | ph :: t, some q => .all
      [.pwr (fun x => { x with phaseOut := t }), .setFld Reg.VRC.PHASE_EN q q 1, .setFld Reg.VRC.PHASE_EN ph ph 0,
       phaseCounts, vrcRaise 2, vrcEvent 2, .event (.darn { kind := 6, inst := 0, unit := ph, cause := 0, spare := some q })]
  | _, _ => .nil

/-- SENSE_FAILURE (R579, R580). -/
def senseFailureAct (ph : Nat) : Act := .get fun s => .when (s.bit Reg.VRC.PHASE_EN ph && !s.bit Reg.VRC.SENSE_FAIL ph) <| .all
  [.setFld Reg.VRC.SENSE_FAIL ph ph 1, vrcRaise 1, vrcEvent 1,
   .get fun t => .when t.senseDegraded (.setFld Reg.PWR.PWR_STATUS 6 6 1)]

/-! ### Clocks (R581 to R585) -/

/-- May stripe `t` change its clock? Not while a lost lock of one of its PLLs stands (R585). -/
def State.pllsOk (s : State) (t : Nat) : Bool := !s.bit Reg.CLK.CLK_EVENTS (1 + 2 * t) && !s.bit Reg.CLK.CLK_EVENTS (2 + 2 * t)

/-- A stripe runs at `code` on its other PLL. -/
def switchStripe (t code : Nat) : Act := .get fun s =>
  let other := 1 - s.fld Reg.CLK.STRIPE_FREQ (4 * t + 2) (4 * t + 2)
  .all [.modReg Reg.CLK.STRIPE_FREQ fun w => setBits (setBits w (4 * t + 1) (4 * t) code) (4 * t + 2) (4 * t + 2) other,
        .setFld Reg.CLK.CLK_STATUS (1 + 2 * t + other) (1 + 2 * t + other) 1,
        .setFld Reg.PWR.PWR_STATUS (8 + t) (8 + t) (b2n (code == 2))]

/-- R574, R575: the target lies within the limits of the highest clock in force. -/
def retarget : Act := .get fun s =>
  let v := s.vFuse s.topCode
  setTarget (if s.bit Reg.VRC.VRC_CTRL 0 then max (max (v - 750) 6000) (min (min (v + 250) 8500) s.hw.pwr.target) else v)

/-- STRIPE_FREQ_CHANGE (R582): the clock PWR asked for is in force, with the target it needs (R575). -/
def stripeFreqAct (t code : Nat) : Act := .get fun s =>
  .when (s.hw.pwr.want.getD t 0 == code && s.stripeCode t != code) (.seq (switchStripe t code) retarget)

/-- PLL_LOCK_LOSS (R585). PLLs are numbered as CLK_STATUS shows them. -/
def pllLossAct (pll : Nat) : Act := .get fun s => .all
  [.setFld Reg.CLK.CLK_STATUS pll pll 0, .orReg Reg.CLK.CLK_EVENTS (BitVec.ofNat 32 (2 ^ pll)), .bump Reg.CLK.LOCK_LOSS_CNT 1,
   .raise .CLK 0 0,
   .when (decide (1 ≤ pll ∧ pll ≤ 8)) <|
     let t := (pll - 1) / 2
     .when (s.fld Reg.CLK.STRIPE_FREQ (4 * t + 2) (4 * t + 2) == (pll - 1) % 2) (.all [wantStripe t 0, switchStripe t 0, retarget])]

/-- REF_CLOCK_CHECK (R584): the 25 MHz reference against the always-on clock. -/
def refCheckAct (ppm : Int) (aonFault : Bool) : Act := .get fun s => .when (s.bit Reg.CLK.CLK_CTRL 0) <|
  let bad := decide (1000 < ppm.natAbs)
  .all [.wrN Reg.CLK.REF_DEV (uns 32 ppm), .setFld Reg.CLK.CLK_STATUS 16 16 (b2n !(bad && !aonFault)),
        .setFld Reg.CLK.CLK_STATUS 17 17 (b2n !(bad && aonFault)),
        .when (bad && !aonFault) (.seq (.orReg Reg.CLK.CLK_EVENTS 0x10000) (.raise .CLK 0 1)),
        .when (bad && aonFault) (.seq (.orReg Reg.CLK.CLK_EVENTS 0x20000) (.raise .CLK 0 3))]

/-! ### Power estimation (R594 to R596) -/

/-- Core power, 1/16 W: measured, or estimated where too few senses are healthy (R580, R595). -/
def State.corePower (s : State) : Nat :=
  if s.bit Reg.PWR.PWR_STATUS 6 then s.fld Reg.PWR.CORE_POWER 31 16 * (s.rd Reg.PWR.EST_CORR).toNat / 65536
  else (s.hw.pwr.target / 10) * s.fld Reg.VRC.IOUT 15 0 / 1000

/-- POWER_ESTIMATE: `iout` is the sum of the healthy senses in 1/16 A, `other` the power of the other rails. The fused
coefficients of R594 are not given: the estimate is open. -/
def powerEstimateAct (iout other : Nat) : Act := .fresh fun fr => .get fun s =>
  let sensed := max 1 s.phasesSensed.length
  let cur := min (iout * s.phasesOn.length / sensed) 65535
  let est := (Config.freeValue fr 0).toNat % 65536
  let meas := min ((s.hw.pwr.target / 10) * cur / 1000) 65535
  .all [.wrN Reg.VRC.IOUT cur, .wrN Reg.PWR.CORE_POWER (meas + 65536 * est),
        .pwr fun x => { x with senseKey := fr, sums := (x.sums.1 + meas, x.sums.2 + est) },
        .get fun t => .setFld Reg.PWR.PKG_POWER 15 0 (min (t.corePower + other) 65535)]

/-- EST_CORR_UPDATE (R595): every 10 ms, over the last second. -/
def estCorrAct : Act := .get fun s =>
  let l := (s.hw.pwr.sums :: s.hw.pwr.past).take 100
  let m := sumNat (l.map (·.1))
  let e := sumNat (l.map (·.2))
  .when (!s.bit Reg.PWR.PWR_STATUS 6) <| .seq
    (.pwr fun x => { x with sums := (0, 0), past := l })
    (.when (e != 0) (.wrN Reg.PWR.EST_CORR (min (m * 65536 / e) 4294967295)))

/-! ### The order in which engines give up clock (R588, R598, R599) -/

/-- Does engine `p` stand at its floor? -/
def State.atFloor (s : State) (p : Nat) : Bool := decide (s.kOf p ≤ s.minK p)

/-- Place in R598's order: class 0, 3, 1, 2. -/
def capRank (cls : Nat) : Nat := if cls = 0 then 0 else if cls = 3 then 1 else if cls = 1 then 2 else 3

/-- Slack of engine `p`'s command; a command without LCT has the largest. -/
def State.engSlack (s : State) (p : Nat) : Option Int := (s.runningOn p).bind s.slack

/-- Headroom of the context engine `p` works for (R599). -/
def State.engHead (s : State) (p : Nat) : Val := match s.runningOn p with
  | some c => f32 (alGet 0 c.ctx s.hw.pwr.heads)
  | none => f32 0

/-- Does engine `p` give up clock before engine `q`? -/
def State.givesFirst (s : State) (p q : Nat) : Bool :=
  let a := capRank (s.engClass p)
  let b := capRank (s.engClass q)
  let base : Bool := if a ≠ b then decide (a < b)
    else if a = 2 then match s.engSlack p, s.engSlack q with
      | none, some _ => true
      | some x, some y => decide (y < x)
      | _, _ => false
    else false
  if s.bit Reg.PWR.PWR_CTRL 0 && a != 3 && b != 3 then
    if (s.engHead q).lt (s.engHead p) then true
    else if (s.engHead p).lt (s.engHead q) then false else base
  else base

/-- The engines in the order in which they give up clock. -/
def State.capOrder (s : State) : List Nat := sortBy s.givesFirst (List.range 36)

def setK (p k : Nat) : Act := .pwr fun x => { x with ks := updAt (fun _ => k) p x.ks }

/-- One k step down, class 2 engines only once every other engine is at its floor. -/
def lowerOne : Act := .get fun s => match s.capOrder.find? fun p => !s.atFloor p with
  | some p => setK p (s.kOf p - 1)
  | none => .nil

/-- R598: one step down: boost is removed from every stripe before any k step. -/
def lowerClocks : Act := .get fun s =>
  if s.hw.pwr.want.any (· == 2) then .pwr fun x => { x with want := x.want.map fun c => min c 1 } else lowerOne

/-- One k step up, in the reverse order. -/
def raiseOne : Act := .get fun s => match s.capOrder.reverse.find? fun p => decide (s.kOf p < 24) with
  | some p => setK p (s.kOf p + 1)
  | none => .nil

/-- R599: a context's headroom is updated at a commit with LCT `lct` and engine time `r`. -/
def headroom (c : Cmd) : Act := .get fun s =>
  let h := (f32Dy (alGet 0 c.ctx s.hw.pwr.heads))
  let g : Dy := match s.lct c with
    | none => Dy.ofInt 64
    | some t =>
      let d : Int := (t : Int) - s.now
      if d ≤ 0 then Dy.ofInt 0
      else if c.runNs = 0 then Dy.ofInt 64
      else
        let q := fl32' (Dy.div 24 (Dy.ofInt d) (Dy.ofInt c.runNs))
        if (Dy.ofInt 64).lt q then Dy.ofInt 64 else q
  let step := fl32' ((fl32' (g.add h.negate)).mul (Dy.pow2 (-(s.fld Reg.PWR.PWR_CTRL 7 4 : Int))))
  let h' := fFP32.encode (fl32' (h.add step))
  .pwr fun x => { x with heads := alPut 0 c.ctx h' x.heads }

/-! ### The cap, boost and fixed-frequency mode (R586 to R591, R597 to R603) -/

/-- R597: the cap in force, 1/16 W. -/
def State.capInForce (s : State) : Nat :=
  let own := s.fld Reg.PWR.CAP 8 0
  16 * (if s.bit Reg.PWR.GRP_STATUS 24 then min own (s.fld Reg.PWR.GRP_STATUS 8 0) else own)

/-- The hottest of stripe `t`'s sensors, one in each engine. -/
def State.stripeTemp (s : State) (t : Nat) : Int :=
  ((s.hw.pwr.temps.drop (9 * t)).take 9).foldl max (-256)

/-- R587: may stripe `t` run at 1.4 GHz? -/
def State.boostOk (s : State) (t projected : Nat) : Bool :=
  s.bit Reg.PWR.PWR_CTRL 1 && decide (s.stripeTemp t ≤ (s.fld Reg.PWR.THERM_CFG 7 0 : Int)) &&
  decide (projected + 160 ≤ s.capInForce) && decide (s.vFuse 2 ≤ 8500)

/-- R591: DUMMY.PWR_OVR on every engine follows the limiter. -/
def setOvr : Act := .get fun s =>
  let on := s.bit Reg.PWR.IRL_CFG 20 || s.hw.pwr.limit || s.hw.pwr.miss.isSome
  .each (List.range 36) fun p => .setFld (Reg.ENG.DUMMY p) 24 24 (b2n on)

/-- R603: fixed-frequency mode is left. -/
def fixedLost : Act := .get fun s => .when (s.bit Reg.PWR.PWR_STATUS 3)
  (.all [.setFld Reg.PWR.PWR_STATUS 3 3 0, capEvent 1, pwrRaise 3])

/-- R602: fixed-frequency mode begins. -/
def fixedStart : Act := .all
  [.setFld Reg.PWR.PWR_STATUS 3 3 1, .pwr fun x => { x with ks := List.replicate 36 24, want := List.replicate 4 0 }]

/-- R600: does every engine but the class 2 engines stand at its floor? In fixed-frequency mode only the limiter acts. -/
def State.allAtFloor (s : State) : Bool :=
  s.bit Reg.PWR.PWR_STATUS 3 || (List.range 36).all fun p => s.engClass p == 2 || s.atFloor p

/-- R598: what PWR does about the projected mean in this step. -/
def capClocks (excess : Bool) (projected : Nat) : Act := .get fun s => .when (!s.bit Reg.PWR.PWR_STATUS 3) <|
  if excess then lowerClocks
  else if s.bit Reg.PWR.PWR_STATUS 5 then .nil
  else if (List.range 36).any fun p => decide (s.kOf p < 24) then raiseOne
  else .each (List.range 4) fun t => .when (s.pllsOk t) (wantStripe t (if s.boostOk t projected then 2 else 1))

/-- Mean of a list, rounded down. -/
def meanNat (l : List Nat) : Nat := sumNat l / max 1 l.length

/-- CAP_STEP: `fast` is the 10 µs mean of package power, `projected` the projected mean over CAP.WIN, in 1/16 W. -/
def capStepAct (fast projected : Nat) : Act := .get fun s =>
  let cap := s.capInForce
  let phase := !s.hw.pwr.phaseOut.isEmpty &&
    decide ((s.rd Reg.VRC.ILIM).toNat * (s.hw.pwr.target / 10) * 16 < s.fld Reg.PWR.CORE_POWER 15 0 * 1000)
  let excess := decide (cap < projected) || phase
  let l := (fast :: s.hw.pwr.fasts).take (100 * max 1 (s.fld Reg.PWR.CAP 23 16))
  let limit := decide (5 * cap < 4 * fast) || (s.hw.pwr.limit && decide (cap < fast))
  .all
    [.pwr fun x => { x with fasts := l, limit := limit },
     .wrN Reg.PWR.PKG_POWER (fast + 65536 * min (meanNat l) 65535),
     .get fun t =>
       let miss := excess && t.allAtFloor
       let since := t.hw.pwr.miss.getD t.now
       .seq (.pwr fun x => { x with miss := if miss then some since else none }) <| .when miss <| .all
         [capEvent 0,
          .when (t.hw.pwr.miss.isNone || decide (t.hw.pwr.missAt + 10000000 ≤ t.now))
            (.seq (.pwr fun x => { x with missAt := t.now }) (pwrRaise 0)),
          .when (decide (since + 10000000 ≤ t.now)) fixedLost],
     capClocks excess projected,
     .each (List.range 4) fun t => .get fun y => .when (y.hw.pwr.want.getD t 0 == 2 && !y.boostOk t projected) (wantStripe t 1),
     setOvr,
     .get fun t =>
       let limited := t.hw.pwr.limit || t.hw.pwr.miss.isSome || (List.range 36).any fun p => decide (t.kOf p < 24)
       .seq (.setFld Reg.PWR.PWR_STATUS 4 4 (b2n limited)) (.when limited (.bump Reg.PWR.THROT_TIME 10))]

/-- R589: how `n` slots are taken from, or given to, a list of amounts, first to last. -/
def spread : Nat → List Nat → List Nat
  | _, [] => []
  | n, a :: t => min n a :: spread (n - min n a) t

/-- IRL_WINDOW (R589, R590): the slots the nine engines of stripe `t` would issue in this window. New issue of engines not
running class 2 commands is withheld, the lowest number last; a shortfall is filled with dummy rows on them. While R600 applies
the limiter, those engines issue at most one real row in eight slots (DESIGN CHOICE: all of them at once, log entry 77). While
the current stands at ILIM they issue nothing (R573, R619). -/
def irlWindowAct (t : Nat) (wanted : List Nat) : Act := .get fun s =>
  let stepped := s.bit Reg.PWR.IRL_CFG 20 || s.hw.pwr.limit
  if s.bit Reg.VRC.VRC_STATUS 24 then .pwr fun x => { x with
    slots := updAt (fun _ => sumNat ((List.range 9).map fun i => if s.engClass (9 * t + i) = 2 then wanted.getD i 0 else 0)) t x.slots }
  else .when (stepped || s.hw.pwr.miss.isSome) <|
    let step := if stepped then s.fld Reg.PWR.IRL_CFG 9 0 / (if s.hw.pwr.limit then 2 else 1) else 576
    let prev := s.hw.pwr.slots.getD t 0
    let free := (List.range 9).filter fun i => s.engClass (9 * t + i) != 2
    let wanted := wanted.zipIdx.map fun (w, i) => if s.hw.pwr.miss.isSome ∧ free.contains i then min w 8 else w
    let want := sumNat (wanted.take 9)
    let room := free.map fun i => 64 - wanted.getD i 0
    let cut := sumNat (spread (want - (prev + step)) ((free.reverse.map fun i => wanted.getD i 0)))
    let fill := spread (prev - step - want) room
    .seq (.pwr fun x => { x with slots := updAt (fun _ => want - cut + sumNat fill) t x.slots })
      (.each (free.zip fill) fun (i, n) => .bump (Reg.ENG.DUMMY_CYC (9 * t + i)) n)

/-! ### Droops (R592) -/

/-- DROOP_DETECT. -/
def droopAct (t mv : Nat) : Act := .get fun s =>
  .when (decide (s.fld Reg.VRC.DROOP_CFG 7 0 < mv) && !s.hw.pwr.stretch.getD t false) <|
    let l := (s.now :: s.hw.pwr.droops.filter fun x => decide (s.now < x + 1000000000)).take 64
    .all [.pwr fun x => { x with stretch := updAt (fun _ => true) t x.stretch, droops := if l.length = 64 then [] else l },
          .bump Reg.VRC.DROOP_CNT 1, .when (l.length == 64) (vrcRaise 5)]

/-- STRETCH_END: the stripe has lengthened `n` cycles. -/
def stretchEndAct (t n : Nat) : Act := .get fun s => .when (s.hw.pwr.stretch.getD t false)
  (.seq (.pwr fun x => { x with stretch := updAt (fun _ => false) t x.stretch }) (.bump Reg.VRC.STRETCH_CYC n))

/-! ### Temperature (R604, R605) -/

/-- The hottest sensor and its number. -/
def hottest (l : List Int) : Int × Nat := match l.zipIdx with
  | [] => (0, 0)
  | a :: t => t.foldl (fun m x => if m.1 < x.1 then x else m) a

/-- THERMAL_READ while the main side is held in reset: only the sensors' values are taken. -/
def thermalHeld (temps : List Int) : Act := .pwr fun x => { x with temps := (temps ++ x.temps.drop temps.length).take 48 }

/-- THERMAL_READ. -/
def thermalAct (temps : List Int) : Act := .get fun s =>
  let cfg := s.rd Reg.PWR.THERM_CFG
  let l := (temps ++ s.hw.pwr.temps.drop temps.length).take 48
  let (h, i) := hottest l
  let before := (hottest s.hw.pwr.temps).1
  let above (x : Int) (n : Nat) := decide ((n : Int) < x)
  .all [.pwr fun x => { x with temps := l }, .wrN Reg.PWR.THERM_STATUS (uns 9 h + 65536 * i),
        .when (above h (bits cfg 7 0) && !above before (bits cfg 7 0)) (pwrRaise 1),
        .each (List.range 4) fun t => .get fun y =>
          .when (above (y.stripeTemp t) (bits cfg 7 0) && y.hw.pwr.want.getD t 0 == 2) (wantStripe t 1),
        .when (decide ((bits cfg 15 8 : Int) ≤ h)) fixedLost,
        .when (above h (bits cfg 15 8)) <| .seq (.when (!s.bit Reg.PWR.PWR_STATUS 5) (.seq (pwrRaise 2) (capEvent 2))) lowerClocks,
        .setFld Reg.PWR.PWR_STATUS 5 5 (b2n (above h (bits cfg 15 8))),
        .when (decide ((bits cfg 23 16 : Int) ≤ h)) (.event .thermalShut)]

/-! ### Power shifting (R608 to R610) -/

/-- R608: urgency, saturating at 255. -/
def State.urgency (s : State) : Nat := min 255 (s.hw.disp.cmds.filter fun c =>
  c.cls == 1 && (c.phase == .ready || c.phase == .running) && match s.slack c with
    | some x => decide (x ≤ ((s.fld Reg.DISP.URGENT 15 0 * 1000 : Nat) : Int))
    | none => false).length

/-- SHIFT_REPORT: a follower's need, floor and urgency go to the time master. -/
def shiftReportAct (need : Nat) : Act := .get fun s => .when (s.bit Reg.PWR.PWR_CTRL 3) <|
  let n := min need (s.fld Reg.PWR.CAP 8 0)
  .seq (.setFld Reg.PWR.GRP_STATUS 23 16 s.urgency) <| .when (s.fld Reg.TSC.TSC_STATUS 3 2 == 1)
    (.out (.flit (s.fld Reg.LINK.DEV_STATUS 18 16) "POWER_REPORT"
      (leBytes 2 n ++ leBytes 2 (s.fld Reg.PWR.GRP_CFG 24 16) ++ leBytes 1 s.urgency)))

/-- R609: allocations for the reporting devices, in the order of the list. -/
def allocate (budget : Nat) (l : List PowerReport) : List (Nat × Nat) :=
  let floors := sumNat (l.map fun r => r.floor.toNat)
  if budget < floors then l.map fun r => (r.dev.toNat, r.floor.toNat)
  else
    let base := l.map fun r => (r, min r.need.toNat r.floor.toNat)
    let order := sortBy (fun (a b : PowerReport × Nat) => decide (b.1.urgency.toNat < a.1.urgency.toNat ∨
      (b.1.urgency = a.1.urgency ∧ a.1.dev.toNat < b.1.dev.toNat))) base
    let (given, rem) := order.foldl (fun (acc : List (PowerReport × Nat) × Nat) x =>
      let give := min acc.2 (x.1.need.toNat - x.2)
      (acc.1 ++ [(x.1, x.2 + give)], acc.2 - give)) ([], budget - sumNat (base.map (·.2)))
    let asc := sortBy (fun (a b : PowerReport × Nat) => decide (a.1.dev.toNat < b.1.dev.toNat)) given
    asc.map fun x => (x.1.dev.toNat, min x.1.capW.toNat (x.2 + rem / max 1 l.length))

/-- R610: an allocation is applied. -/
def allocationAct (w : Nat) : Act := .get fun s => .when (s.bit Reg.PWR.PWR_CTRL 3) <|
  .seq (.modReg Reg.PWR.GRP_STATUS fun x => setBits (setBits x 8 0 w) 24 24 1) (.pwr fun x => { x with allocAt := s.now })

/-- SHIFT_ALLOCATE: on the time master. -/
def shiftAllocateAct (l : List PowerReport) : Act := .get fun s =>
  let budget := s.fld Reg.PWR.GRP_CFG 11 0
  .when (s.bit Reg.PWR.PWR_CTRL 3 && s.fld Reg.TSC.TSC_STATUS 3 2 == 2) <| .seq
    (.when (decide (budget < sumNat (l.map fun r => r.floor.toNat))) (pwrRaise 4))
    (.each (allocate budget l) fun (d, w) =>
      if d = s.devNum then allocationAct w else .out (.flit d "POWER_ALLOCATION" (leBytes 2 w)))

/-- ALLOCATION_TIMEOUT (R610): an allocation at that very moment is applied first. -/
def allocationTimeoutAct : Act := .get fun s =>
  .when (s.bit Reg.PWR.GRP_STATUS 24 && decide (s.hw.pwr.allocAt + 3000000 ≤ s.now)) <| .all
    [.setFld Reg.PWR.GRP_STATUS 24 24 0, pwrRaise 4, capEvent 3]

/-! ### Power states of blocks (R611, R612) -/

/-- STATUS.POWER of a page. -/
def setPower (b : Blk) (i v : Nat) : Act := .setFld (Reg.HDR.STATUS b i) 4 3 v
def State.power (s : State) (b : Blk) (i : Nat) : Nat := s.fld (Reg.HDR.STATUS b i) 4 3

/-- Has a block of a page work in progress? -/
def State.blockBusy (s : State) (b : Blk) (i : Nat) : Bool :=
  match b with
  | .ENG => (s.eng i).cmd.isSome || (s.eng i).diag != 0
  | .FCE => (s.fce i).cmd.isSome || (s.fce i).diag != 0
  | .KVW => !(s.hw.kv.misses.getD i []).isEmpty
  | .TXT => s.hw.txt.run.isSome || s.hw.txt.tok.isSome || s.hw.txt.detok.isSome
  | .JPG => s.hw.blk.jpg.isSome
  | .AUG => s.hw.blk.aug.isSome
  | _ => true

/-- CLOCK_GATE_ENTRY: the block of a page has been idle for 16 cycles. -/
def clockGateAct (slot : Nat) : Act := .get fun s => match pageAt slot with
  | some (b, i) => .when (!s.blockBusy b i && s.power b i == 0) (setPower b i 1)
  | none => .nil

/-- RETENTION_ENTRY: an engine or FCE idle for RET_US, or a spare; never an engine of CLASS2_ENG. -/
def retentionAct (u : ArrayUnit) : Act := .get fun s =>
  match u with
  | .eng p =>
    let long := decide ((s.eng p).idleSince + s.fld Reg.PWR.RET_US 15 0 * 1000 ≤ s.now)
    .when (!s.blockBusy .ENG p && !s.reserved p && (s.engState p == eSPARE || (s.engState p == eIDLE && long))) (setPower .ENG p 2)
  | .fce i => .when (!s.blockBusy .FCE i && decide ((s.fce i).idleSince + s.fld Reg.PWR.RET_US 15 0 * 1000 ≤ s.now)) (setPower .FCE i 2)

/-- R611: blocks that have work again run; a device that has commands again is ACTIVE (R613). -/
def wakeBlocks : Act := .get fun s => .seq
  (.each ([Blk.ENG, .FCE, .KVW, .TXT, .JPG, .AUG].flatMap fun b => (List.range b.count).map fun i => (b, i)) fun (b, i) =>
    .when (s.power b i != 0 && s.blockBusy b i && decide (s.fld Reg.PWR.PWR_STATUS 2 0 ≤ 1)) (setPower b i 0))
  (.when (s.fld Reg.PWR.PWR_STATUS 2 0 == 1 && !s.hw.disp.cmds.isEmpty)
    (.seq (.setFld Reg.PWR.PWR_STATUS 2 0 0) (pwrRaise 5)))

/-- IDLE_ENTRY (R613). -/
def idleEntryAct : Act := .get fun s =>
  .when (s.hw.disp.cmds.isEmpty && s.fld Reg.PWR.PWR_STATUS 2 0 == 0 && (List.range 36).all fun p => s.power .ENG p != 0)
    (.seq (.setFld Reg.PWR.PWR_STATUS 2 0 1) (pwrRaise 5))

/-! ### Memory controllers (R611, R616 to R618) -/

/-- A controller enters a state; it is not in power-down then. -/
def setMemcState (m v : Nat) : Act := .seq (.setFld (Reg.MEMC.MEMC_STATUS m) 3 1 v) (.memc m fun x => { x with down := false })

/-- MEMC_POWER_DOWN. -/
def memcPowerDownAct (m : Nat) : Act := .get fun s =>
  .when (s.bit (Reg.MEMC.MEMC_CTRL m) 1 && s.memcState m == 1) (.memc m fun x => { x with down := true })

/-- MEMC_SCRUB. -/
def memcScrubAct (m a : Nat) (e : EccError) : Act := .get fun s => .when (s.bit (Reg.MEMC.MEMC_CTRL m) 0)
  (.seq (ringMove false (dramAddr m a) 1) (memcRead m a e))

/-- DRAM_TEMP_REPORT. -/
def dramTempAct (m mult : Nat) : Act := .setFld (Reg.MEMC.MEMC_STATUS m) 19 16 mult

/-- MEMC_PERIODIC_RETRAIN. -/
def memcRetrainAct (m : Nat) (corrected failed : Bool) : Act :=
  .seq (.when corrected (.bump (Reg.MEMC.RETRAIN_CNT m) 1)) (.when failed (.raise .MEMC m 2))

/-! ### The pages -/

/-- R601. -/
def pwrDrops (off : Nat) (v : Word) : Bool := off == 0x048 && !decide (120 ≤ bits v 8 0 ∧ bits v 8 0 ≤ 300)

/-- Writes of the PWR page but DEV_CMD. -/
def pwrSettings (off : Nat) (old v : Word) : Act :=
  if off = 0x040 then
    if v.getLsbD 2 && !old.getLsbD 2 then fixedStart else .when (!v.getLsbD 2) (.setFld Reg.PWR.PWR_STATUS 3 3 0)
  else if off = 0x05C then setOvr
  else if off = 0x060 then .get fun s => .when (decide ((bits v 15 8 : Int) ≤ (hottest s.hw.pwr.temps).1)) fixedLost
  else .nil

def pwrComputed (s : State) (off : Nat) : Option Word :=
  if off = 0x06C then some (BitVec.ofNat 32 (uns 9 (s.hw.pwr.temps.getD (s.fld Reg.PWR.THERM_SEL 5 0) 0)))
  else if off = 0x094 then
    let p := s.fld Reg.PWR.ENG_CLK_SEL 5 0
    some (if p < 36 then BitVec.ofNat 32 (s.kOf p + 256 * s.stripeCode (p / 9) + 1024 * b2n (s.atFloor p)) else 0)
  else none

/-- PHASE_I: a phase in service carries its equal share within ±1 A, its on-time is open (R572). -/
def vrcComputed (s : State) (off : Nat) : Option Word :=
  if off = 0x064 then
    let p := s.fld Reg.VRC.PHASE_SEL 4 0
    let v := (Config.freeValue s.hw.pwr.senseKey (1 + p)).toNat
    some (if s.bit Reg.VRC.PHASE_EN p then
      BitVec.ofNat 32 ((s.fld Reg.VRC.IOUT 15 0 / max 1 s.phasesOn.length + v % 33 - 16) % 65536 + 65536 * (v / 64 % 1024))
    else 0)
  else none

end Sys2Proof.Machine
end

