-- ==== Sys2Proof/Machine/Boot.lean ====
section
/-! DEFINITION. Resets, boot, start-up tests and power loss (18_reset_startup_power_loss), and the device's sleep states
(14_power_clocks_sleep, R613 to R615). -/

namespace Sys2Proof.Machine

def Act.boot (f : BootSt → BootSt) : Act := .hw fun h => { h with boot := f h.boot }
/-- Raise source 32 + k (R727). -/
def aonRaise (k : Nat) : Act := .raise .AON 0 k

/-- BOOT_STATUS.STAGE (R726). -/
abbrev bRESET : Nat := 0
abbrev bAUTH : Nat := 1
abbrev bTESTS : Nat := 2
abbrev bREADY : Nat := 5
abbrev bRECOVERY : Nat := 6
abbrev bFAILED : Nat := 7
def State.stage (s : State) : Nat := s.fld Reg.AON.BOOT_STATUS 3 0
def setStage (v : Nat) : Act := .setFld Reg.AON.BOOT_STATUS 3 0 v

/-! ### What a reset clears (R706, R708, R711, R614) -/

/-- R690: pages that keep their contents in DEEP_SLEEP. -/
def sleepKeeps (b : Blk) : Bool := match b with
  | .TSC => true
  | .AON => true
  | .DARN => true
  | .GATH => true
  | .FUNC => true
  | _ => false

/-- R706: pages a system reset leaves. -/
def resetKeeps (b : Blk) : Bool := sleepKeeps b && b != .DARN

/-- The register at a BAR0 byte address belongs to a page that is lost. -/
def lostReg (keeps : Blk → Bool) (a : Nat) : Bool := match pageAt (a / 4096) with
  | some (b, _) => !keeps b
  | none => true

/-- Registers kept in part over the loss of their pages: the darning map and the pending record (R659, R661), the
records of R571 and R606, GPIO0 to GPIO7 (R738). -/
def keptRegs : List (RegRef × Word) :=
  mapRegs.map (fun r => (r, 0xFFFFFFFF)) ++
  [(Reg.DARN.PENDING, 0xFFFFFFFF), (Reg.PWR.RAIL_LOST, 0xFFFFFFFF), (Reg.PIN.GPIO_OUT_LO, 0xFF),
   (Reg.PIN.EVT_PEND 0, 0xFF), (Reg.PIN.GPIO_IN_LO, 0xFF)]

/-- Registers DEEP_SLEEP needs to wake and to report, and the link's (R615). -/
def sleepRegs : List (RegRef × Word) :=
  [(Reg.PWR.DEV_RESULT, 0xFFFFFFFF), (Reg.PWR.WAKE_CFG, 0xFFFFFFFF), (Reg.PWR.WAKE_TSC_LO, 0xFFFFFFFF),
   (Reg.PWR.WAKE_TSC_HI, 0xFFFFFFFF), (Reg.HOST.LINK_STATUS, 0xFFFFFFFF), (Reg.HOST.SRIOV_STATUS, 0xFFFFFFFF),
   (Reg.HOST.VF_ENABLED, 0xFFFFFFFF)]

/-- The registers of every page but the kept ones return to reset; those listed keep the masked bits. -/
def loseRegs (keeps : Blk → Bool) (l : List (RegRef × Word)) : Act := .get fun s => .seq
  (.upd (.resetRegs (lostReg keeps))) (.each l fun (r, m) => .wr r ((r.resetVal &&& ~~~ m) ||| (s.rd r &&& m)))

/-- Block state beside the registers after the main side has lost its own: time, functions and gatherer (R479), the kept
device number (R634), boot state, the DARN block's retention (R671), the island, the fused and external parts of power and
pins. -/
def loseHw : Act := .hw fun h =>
  { time := h.time, gath := h.gath, link := { kept := h.link.kept }, boot := h.boot, darn := h.darn, hal := h.hal,
    pwr := { vFuse := h.pwr.vFuse, coreOn := h.pwr.coreOn, temps := h.pwr.temps },
    pin := { h.pin with cfg := (h.pin.cfg.take 8) ++ ((List.range 120).map fun k => muxReset (8 + k)),
                        held := h.pin.held.filter fun x => decide (x.1 < 8) } }


/-- Memory contents lost: commons and engine stores, and LPDDR5X unless it is kept. -/
def loseMem (kept : Bool) : Act := .get fun s =>
  let gone (a : Nat) : Bool := decide (a < commonsSize) || (!kept && isDram a)
  .all [.each (s.poison.filter fun e => gone (8 * e.1)) (fun e => .bytes (8 * e.1) (List.replicate 8 0)),
        .upd (.dropMem gone), .upd (.dropEs fun _ => true)]

/-- R507: both outputs de-energised. -/
def outputsLow : Act := .get fun s => .seq
  (drivePin "SAFE_OUT_A" (s.bit Reg.SAFE.SAFE_STATE 6) false) (drivePin "SAFE_OUT_B" (s.bit Reg.SAFE.SAFE_STATE 7) false)

/-- RST_CAUSE codes (R726). -/
abbrev cPIN : Nat := 1
abbrev cSOFT : Nat := 2
abbrev cTHERMAL : Nat := 3
abbrev cPOWER : Nat := 4
abbrev cBROWNOUT : Nat := 5

/-- A system reset is taken (R706, R708, R711): everything of its scope is cleared; the page locks of the kept pages go,
too (R687). -/
def mainReset (cause : Nat) : Act := .get fun s =>
  let kept := s.bit Reg.AON.RST_CFG 0 && !s.hw.boot.warned && cause != cPOWER
  .all
    [outputsLow, pinsHiz 0, darnInterrupt, loseRegs resetKeeps keptRegs,
     .upd (.resetRegs fun a => a % 4096 == 0x034), loseHw, standAlone, halPageReset, loseMem kept,
     .boot fun b => { b with outInvalid := b.pfLow, frozen := b.pfLow, triedA := false, returned := none, warned := b.pfLow,
                             railLost := false, kept := kept },
     .wrN Reg.AON.RST_CAUSE (2 ^ cause), .satFld Reg.AON.RST_COUNT 31 0 1,
     .wrN Reg.AON.BOOT_STATUS 0, .wrN Reg.AON.START_RESULT 0]

/-! ### Repairs re-applied (R146, R669, R671) -/

/-- At a start: every repair the map records comes into force again. -/
def applyMap : Act := .get fun s =>
  let d := s.hw.darn
  let ofKind (k : Nat) := d.failed.filter fun x => x.1 == k
  .all
    [.each (d.arr.zipIdx.filter fun x => x.1 != 0) (fun (w, p) => .wr (Reg.ENG.ARR_REPAIR p) w),
     .each (d.cols.zipIdx.filter fun x => x.1 != 0) (fun (w, i) => .wr (Reg.FCE.COL_REPAIR i) w),
     .each (ofKind 4) (fun (_, g, c) => .when (!s.afeSpare g) (match s.chanOf g c with
       | some k => if k < 8 then .setFld (Reg.AFE.CH_MAP_LO g) (4 * k + 3) (4 * k) 12
         else .setFld (Reg.AFE.CH_MAP_HI g) (4 * (k - 8) + 3) (4 * (k - 8)) 12
       | none => .nil)),
     .each (ofKind 5) (fun (_, k, lane) => .seq (.setFld (Reg.LINK.LANE_MAP k) (16 + lane) (16 + lane) 1)
       (.when (!s.laneSpare k) (match (List.range 4).find? fun l => s.fld (Reg.LINK.LANE_MAP k) (3 * l + 2) (3 * l) == lane with
         | some l => .setFld (Reg.LINK.LANE_MAP k) (3 * l + 2) (3 * l) 4
         | none => .nil))),
     .each (ofKind 6) (fun (_, _, p) => .seq (.setFld Reg.VRC.PHASE_EN p p 0) (.setFld Reg.VRC.PHASE_FAIL p p 1)),
     .each ([24, 25].take (2 - s.phaseSpares)) (fun p => .setFld Reg.VRC.PHASE_EN p p 1),
     phaseCounts]

/-! ### Boot (R712 to R715, R718) -/

/-- Every page, but for those listed. -/
def allPages (but : List (Blk × Nat)) : List (Blk × Nat) :=
  (Blk.all.flatMap fun b => (List.range b.count).map fun i => (b, i)).filter fun x => !but.contains x

/-- R714: the pages that operate in RECOVERY. -/
def recoveryPages : List (Blk × Nat) := [(.TOP, 0), (.AON, 0), (.HOST, 0)] ++ (List.range 16).map fun i => (.CHART, i)

def setReady (b : Blk) (i : Nat) (on : Bool) : Act := .setFld (Reg.HDR.STATUS b i) 0 0 (b2n on)

/-- R714: RECOVERY. -/
def enterRecovery : Act := .all [setStage bRECOVERY, aonRaise 3]

/-- Release from reset, or from core power-on reset: step 1 of R718. -/
def bootStart : Act := .get fun s => .all
  [.boot fun b => { b with inReset := false, released := s.now, triedA := false },
   .wrN Reg.AON.BOOT_STATUS 0, .wrN Reg.AON.START_RESULT 0,
   .wrN Reg.PIN.PIN_STATUS (s.hw.boot.straps % 4 + 0x700), .wrN Reg.CLK.CLK_STATUS 0x71FFF, setTarget 7500,
   selectMap, countSpares, applyMap, pinsBack,
   .each (allPages recoveryPages) fun (b, i) => setReady b i false,
   .each recoveryPages fun (b, i) => setReady b i true,
   .when (s.rd Reg.AON.RST_FLAGS &&& 11 != 0) (aonRaise 0),
   .when (s.bit Reg.DARN.PENDING 0) (darnRaise 2),
   .when (s.hw.boot.thermal) (.seq (capEvent 4) (pwrRaise 7)),
   .boot fun b => { b with thermal := false },
   if s.hw.boot.straps % 4 = 0 then setStage bAUTH else enterRecovery]

/-- Boot begins when the core runs, no reset holds it and no power-fail warning stands. -/
def bootIfReady : Act := .get fun s =>
  .when (s.hw.pwr.coreOn && !s.hw.boot.inReset && !s.hw.boot.pfLow) bootStart

/-- R713: the code of the first check that fails, 0 when the image is accepted. -/
def State.imageError (s : State) (x : BootImage) : Nat :=
  if x.magic ≠ 0x36394249 ∨ x.format ≠ 1 ∨ x.resv ≠ 0 ∨ x.length = 0 ∨ 0x003FFF00 < x.length.toNat ∨ 63 < x.rollback.toNat then 1
  else if 3 < x.keyIdx.toNat ∨ !x.checks.keyOk then 2
  else if !x.checks.sigOk then 3
  else if !x.checks.digestOk then 4
  else if x.rollback.toNat < s.fld Reg.AON.FUSE_ROLLBACK 5 0 then 5
  else if !x.checks.readOk then 6 else 0

/-- An image from `slot` (0 A, 1 B, 2 host) is accepted: the start-up tests follow. -/
def acceptImage (slot : Nat) (x : BootImage) : Act := .all
  [.setFld Reg.AON.BOOT_STATUS 5 4 slot, .setFld Reg.AON.BOOT_STATUS 21 16 x.rollback.toNat, setStage bTESTS,
   .when (slot == 1) (aonRaise 2)]

/-- BOOT_IMAGE_CHECK (R713, R714): slot A, then slot B. -/
def bootImageAct (slotB : Bool) (x : BootImage) : Act := .get fun s =>
  .when (s.stage == bAUTH && !s.hw.boot.frozen && slotB == s.hw.boot.triedA) <|
    let e := s.imageError x
    if e = 0 then acceptImage (b2n slotB) x
    else .seq (.setFld Reg.AON.BOOT_STATUS 15 8 e)
      (if slotB then enterRecovery else .boot fun b => { b with triedA := true })

/-- The header of an image the host has written to commons offset 0 (R712, R714). -/
def State.hostImage (s : State) (c : ImageChecks) : BootImage :=
  { magic := BitVec.ofNat 32 (s.readN 0 4), format := BitVec.ofNat 16 (s.readN 4 2), keyIdx := s.byte 6, resv := s.byte 7,
    rollback := BitVec.ofNat 32 (s.readN 8 4), length := BitVec.ofNat 32 (s.readN 12 4), checks := c }

/-- LOAD_HOST (R714). -/
def loadHostAct (v : Word) (c : ImageChecks) : Act := .get fun s =>
  .when (bits v 3 0 == 1 && bits v 31 16 == 0x5A3C && s.stage == bRECOVERY && !s.hw.boot.frozen) <|
    let x := s.hostImage c
    let e := s.imageError x
    if e = 0 then acceptImage 2 x else .setFld Reg.AON.BOOT_STATUS 15 8 e

/-- COMMIT_ROLLBACK (R715). -/
def commitRollbackAct (v : Word) : Act := .get fun s =>
  .when (bits v 3 0 == 2 && bits v 31 16 == 0x5A3C && s.stage == bREADY)
    (.maxReg Reg.AON.FUSE_ROLLBACK (s.fld Reg.AON.BOOT_STATUS 21 16))

/-! ### Start-up tests (R716, R717) -/

/-- START_RESULT's failure bits. -/
def startFails (r : StartupResult) : Nat :=
  b2n r.mapLost + 2 * b2n (!r.sramRows.isEmpty || r.noSpare) + 4 * b2n (!r.dramRows.isEmpty || r.untrained != 0) +
  8 * b2n (r.engines != 0) + 16 * b2n (r.fces != 0) + 32 * b2n (!r.afes.isEmpty) + 64 * b2n (!r.blocks.isEmpty)

/-- R717: a memory without spare rows, or a channel that fails training. -/
def startFailed (r : StartupResult) : Bool := r.noSpare || r.untrained != 0

/-- Registers that show a part the map has put in another's place. -/
def repairRegs : List RegRef :=
  (List.range 36).map Reg.ENG.ARR_REPAIR ++ (List.range 4).map Reg.FCE.COL_REPAIR ++ (List.range 4).map Reg.AFE.CH_MAP_LO ++
  (List.range 4).map Reg.AFE.CH_MAP_HI ++ (List.range 4).map Reg.LINK.LANE_MAP ++ [Reg.VRC.PHASE_EN, Reg.VRC.PHASE_FAIL]

/-- Test 0 failed: the shipment map of R15. -/
def shipmentMap : Act := .seq (.each (mapRegs ++ repairRegs) fun r => .wr r r.resetVal) (.all
  [.darn fun d => { d with arr := List.replicate 36 0, cols := List.replicate 4 0, rows := [], failed := [], unfail := [],
                           other := List.replicate 14 0 },
   .orReg Reg.AON.RST_FLAGS 8, aonRaise 0])

/-- The engines as the map has them (R15, R161), those held out of service apart. -/
def startEngines (held : BitVec 36) : Act := .get fun s => .each (List.range 36) fun p =>
  .seq (.setFld (Reg.ENG.ENG_STATE p) 13 8 ((s.logicalOf p).getD 0x3F)) <| setEngState p <|
    if held.getLsbD p then eOFF else if (s.logicalOf p).isSome then eIDLE else if s.isSpare p then eSPARE else eOFF

/-- The FCEs that are not held: IDLE. -/
def startFces (held : BitVec 4) : Act := .each (List.range 4) fun i =>
  if held.getLsbD i then .seq (setFceState i eFAULT) (.raise .FCE i 1) else setFceState i eIDLE

/-- R716, R667: an engine that fails its start-up test is darned where it serves a logical engine; as a spare it is marked
failed. -/
def engineUnfit (p : Nat) : Act := .get fun s =>
  if (s.logicalOf p).isSome then darnRequest { kind := 1, inst := p / 9, unit := p, cause := 3 }
  else .when (!s.isFailed p) <| .all
    [commitMap (.seq (setSpare p false) (setFailed p true)),
     darnLog { kind := 1, inst := p / 9, unit := p, cause := 3 } 1 p, darnRaise 2]

/-- R668: the engines UNFAIL has cleared are spares again where they pass the start-up tests, and stay failed where they
do not. -/
def engineReturns (failed : BitVec 36) : Act := .get fun s => .when (!s.hw.darn.unfail.isEmpty) <| .seq
  (.each (s.hw.darn.unfail.filter fun p => !s.isSpare p && (s.logicalOf p).isNone) fun p =>
    commitMap (if failed.getLsbD p then setFailed p true else setSpare p true))
  (.darn fun d => { d with unfail := [] })

/-- R716: what the failures found ask of DARN. -/
def startRepairs (r : StartupResult) : Act := .all
  [.each r.sramRows fun (m, row) => darnRequest { kind := 3, inst := m.toNat, unit := row.toNat, cause := 3 },
   .each r.dramRows fun (m, row) => darnRequest { kind := 3, inst := 53 + m.toNat, unit := row.toNat, cause := 3 },
   .each ((List.range 36).filter r.engines.getLsbD) engineUnfit,
   .each r.afes fun (g, c) => .seq (.orReg (Reg.AFE.CH_FAULT g.toNat) (BitVec.ofNat 32 (2 ^ c.toNat)))
     (.seq (.raise .AFE g.toNat 1) (darnRequest { kind := 4, inst := g.toNat, unit := c.toNat, cause := 3 }))]

/-- The memory controllers after training; what is left for post-package repair the manual does not give. -/
def startMemory (r : StartupResult) : Act := .each (List.range 8) fun m =>
  if r.untrained.getLsbD m then .raise .MEMC m 2
  else .fresh fun n => .seq (.setFld (Reg.MEMC.MEMC_STATUS m) 3 0 3)
    (.setFld (Reg.MEMC.MEMC_STATUS m) 15 8 (openWord n 0).toNat)

/-- STARTUP_TESTS_DONE (R716 to R718). -/
def startupAct (r : StartupResult) : Act := .get fun s =>
  .when (s.stage == bTESTS && !s.hw.boot.frozen) <| .all
    [.wrN Reg.AON.START_RESULT (startFails r + 65536 * (if startFails r = 0 then 0 else r.firstUnit.toNat)),
     .setFld Reg.AON.BOOT_STATUS 24 24 (b2n s.hw.boot.kept),
     .when (startFails r != 0) (aonRaise 4),
     .when r.mapLost (.seq shipmentMap applyMap),
     if startFailed r then setStage bFAILED
     else .all
       [startMemory r, engineReturns r.engines, startEngines r.engines, startFces r.fces,
        .each (List.range 36) testCounts, .each (List.range 4) fun i => .bump (Reg.FCE.CHK_CNT i) 1,
        startRepairs r,
        .each (allPages []) fun (b, i) => setReady b i (!(r.blocks.any fun x => x.toNat == b.slot + i)),
        .wrN Reg.AON.BOOT_TIME (min ((s.now - s.hw.boot.released) / 1000) 4294967295),
        setStage bREADY, aonRaise 1]]

/-! ### Reset sources (R706 to R710, R725) -/

/-- The cause of a reset taken now: a power loss where a warning or a lost rail stands (R725). -/
def State.resetCause (s : State) (c : Nat) : Nat := if s.hw.boot.pfLow || s.hw.boot.railLost then cPOWER else c

/-- SYS_RST_N_TAKEN (R707, R708). -/
def sysRstTakenAct : Act := .get fun s => .when (!s.hw.boot.pinLow) <| .seq
  (.when (!s.hw.boot.inReset) (mainReset (s.resetCause cPIN)))
  (.boot fun b => { b with inReset := true, pinLow := true, lowAt := s.now })

/-- RESET_HELD_LONG (R709). -/
def heldLongAct : Act := .get fun s =>
  .when (s.hw.boot.pinLow && decide (s.hw.boot.lowAt + 1000000000 < s.now)) (.orReg Reg.AON.RST_FLAGS 1)

/-- R606: does the hottest sensor allow the core to start again? -/
def State.coolEnough (s : State) : Bool :=
  s.hw.pwr.temps.all fun t => decide (t < (s.fld Reg.PWR.THERM_CFG 15 8 : Int))

/-- SYS_RST_N_RELEASE (R708, R739): the straps are sampled; the core starts again after a thermal shutdown (R606). -/
def sysRstReleaseAct (straps : Nat) : Act := .get fun s => .when s.hw.boot.pinLow <| .all
  [.wrN Reg.AON.HOLD_MS (min ((s.now - s.hw.boot.lowAt) / 1000000) 4294967295),
   .when (decide (s.hw.boot.lowAt + 1000000000 < s.now)) (.orReg Reg.AON.RST_FLAGS 1),
   .boot fun b => { b with pinLow := false, straps := straps },
   if s.hw.boot.thermal then .when s.coolEnough (.all
     [.pwr fun x => { x with coreOn := true }, .boot fun b => { b with inReset := false }, bootIfReady])
   else .seq (.boot fun b => { b with inReset := false }) bootIfReady]

/-- SYSTEM_RESET (R710), BROWNOUT when a withdrawn warning's reset is due (R725). -/
def systemResetAct (v : Word) : Act := .get fun s =>
  .when (bits v 3 0 == 1 && bits v 31 16 == 0x5A3C && !s.hw.boot.pinLow && !s.hw.boot.inReset)
    (.seq (mainReset (if s.hw.boot.returned.isSome then cBROWNOUT else s.resetCause cSOFT)) bootIfReady)

/-- R710: a write with another key is dropped. -/
def aonDrops (off : Nat) (v : Word) : Bool := off == 0x054 && bits v 31 16 != 0x5A3C

/-- Thermal shutdown (R606). -/
def thermalShutAct : Act := .get fun s => .when (!s.hw.boot.thermal) <| .all
  [pwrRaise 7, .when (!s.hw.boot.inReset) (mainReset cTHERMAL), .pwr fun x => { x with coreOn := false },
   .boot fun b => { b with inReset := true, thermal := true }]

/-- VDD_AON_POWER_ON (R706): the whole main side; the island, the fuses, host memory and what lies outside stay. -/
def aonPowerOnAct : Act := .get fun s => .all
  [outputsLow, pinsHiz 0, .upd (.resetRegs fun _ => true),
   .hw fun h => { hal := h.hal, pwr := { vFuse := h.pwr.vFuse, temps := h.pwr.temps }, pin := { level := h.pin.level } },
   halPageReset, loseMem false, .upd (.tsc 0), .wr Reg.AON.FUSE_ROLLBACK (s.rd Reg.AON.FUSE_ROLLBACK)]

/-- `.coreUp`: VDD_CORE is in range (R570); after a lost rail everything starts as from a power loss. -/
def coreUpAct : Act := .get fun s => .seq
  (.when (s.hw.boot.railLost && !s.hw.boot.inReset) (mainReset cPOWER)) (.when (!s.hw.boot.inReset) bootIfReady)

/-! ### Power loss (R720 to R724) -/

/-- The power-fail record (R721 step 5). -/
def pfRecord (unwarned : Bool) : Act := .get fun s => .all
  [.wr64 Reg.AON.PF_TSC_LO Reg.AON.PF_TSC_HI s.now,
   .wrN Reg.AON.PF_INFO (min s.hw.disp.items.length 8191 + 65536 * min s.hw.disp.cmds.length 4095 + 2147483648 * b2n unwarned),
   .wrN Reg.AON.PF_JRNL (min s.jrnlFill 131071),
   .orReg Reg.AON.RST_FLAGS (if unwarned then 6 else 2)]

/-- Steps 2 to 5 of R721. -/
def powerFreeze (unwarned : Bool) : Act := .all
  [.boot fun b => { b with frozen := true, outInvalid := true, warned := true, returned := none },
   safePowerFail, pfRecord unwarned, darnInterrupt]

/-- PWR_FAIL_N_FALL (R721). A change of a stripe's clock in progress is completed at 1.1 GHz (R619). -/
def pwrFailAct : Act := .get fun s => .when (!s.hw.boot.pfLow) <|
  .all [.boot fun b => { b with pfLow := true }, .latch [0],
        .pwr fun x => { x with want := x.want.zipIdx.map fun (c, t) => if c = s.stripeCode t then c else 0 }, powerFreeze false]

/-- PWR_FAIL_N_RISE (R724). -/
def pwrRiseAct (railsOk : Bool) : Act := .get fun s => .when s.hw.boot.pfLow <| .seq
  (.boot fun b => { b with pfLow := false })
  (.when (railsOk && s.hw.pwr.coreOn && !s.hw.boot.railLost)
    (.seq (aonRaise 5) (.boot fun b => { b with returned := some s.now })))

/-- BROWNOUT_RESET (R724). -/
def brownoutAct : Act := .get fun s => match s.hw.boot.returned with
  | some t => .when (decide (t + 10000000 ≤ s.now) && !s.hw.boot.inReset) (.seq (mainReset cBROWNOUT) bootIfReady)
  | none => .nil

/-- `.railLost` (R571, R722): a rail lost without a warning is handled from its detection; VDD_CORE goes. -/
def railGoneAct : Act := .get fun s => .all
  [.when (!s.hw.boot.pfLow) (powerFreeze true), .pwr fun x => { x with coreOn := false },
   .boot fun b => { b with railLost := true, warned := true, returned := none }]

/-! ### PCIe (R706, R702, R625) -/

def hostEvent (k : Nat) : Act := .seq (.orReg Reg.HOST.LINK_EVENTS (BitVec.ofNat 32 (2 ^ k))) (.raise .HOST 0 0)

/-- PCIE_RESET: configuration space of every function, MSI-X tables and pending-bit arrays, and the link (R479). -/
def pcieResetAct : Act := .get fun s => .all
  [.gath fun g => { g with fns := List.replicate 32 {}, msix := [], pba := 0 },
   .wrN Reg.HOST.SRIOV_STATUS 0, .wrN Reg.HOST.VF_ENABLED 0,
   .when (s.bit Reg.HOST.LINK_STATUS 16) (hostEvent 0), .wrN Reg.HOST.LINK_STATUS 0]

/-- PCIE_LINK_STATE_CHANGE. -/
def pcieLinkAct (ltssm rate width : Nat) (flit dlUp : Bool) : Act := .get fun s =>
  let w := s.rd Reg.HOST.LINK_STATUS
  .all [.wrN Reg.HOST.LINK_STATUS (rate + 16 * width + 256 * b2n flit + 4096 * ltssm + 65536 * b2n dlUp),
        .when (w.getLsbD 16 && !dlUp) (hostEvent 0), .when (bits w 2 0 != rate) (hostEvent 1),
        .when (bits w 7 4 != width) (hostEvent 2), .when (ltssm == 4 && bits w 15 12 != 4) (hostEvent 3)]

/-- PCIE_COMPLETION_TIMEOUT. -/
def pcieTimeoutAct : Act := .seq (.bump Reg.HOST.CTO_CNT 1) (.raise .HOST 0 2)

/-- PCIE_REFCLK_LOSS (R625). -/
def pcieRefAct : Act := .all
  [.orReg Reg.CLK.CLK_EVENTS 0x40000, .setFld Reg.CLK.CLK_STATUS 18 18 0, .raise .CLK 0 2]

/-! ### Sleep (R613 to R615, R663) -/

/-- R614, R619: why a sleep command is refused, 0 when it is accepted. -/
def State.sleepReason (s : State) (deep linkL2 wakeNow : Bool) : Nat :=
  if !s.hw.disp.cmds.isEmpty then 1
  else if 1 < s.safeState then 2
  else if (List.range 16).any (fun p => s.bit (Reg.SFE.PATH_CTRL p) 0) || (List.range 8).any (fun l => s.bit (Reg.CEU.LOOP_CTRL l) 0) ||
      (List.range 4).any (fun t => s.bit (Reg.TSN.TSN_CTRL t) 0) then 3
  else if deep && !linkL2 then 4
  else if deep && wakeNow then 5 else 0

def devResult (reason : Nat) : Act := .setFld Reg.PWR.DEV_RESULT 15 0 (1 + 2 * b2n (reason == 0) + 256 * reason)

/-- STANDBY is entered. -/
def enterStandby : Act := .all
  [.setFld Reg.PWR.PWR_STATUS 2 0 2, setTarget 6000, .modReg Reg.CLK.CLK_STATUS fun w => w &&& ~~~ 0x7FE,
   .each (List.range 36) fun p => setPower .ENG p 2, .each (List.range 4) fun i => setPower .FCE i 2,
   .each (List.range 8) fun m => .get fun s => .when (s.memcState m != 0) (setMemcState m 3), pwrRaise 5]

/-- DEEP_SLEEP is entered: registers are lost but those of R690 and R479; memories are kept (R614). -/
def enterDeep : Act := .all
  [pwrRaise 5, pinsHiz 8, setCoarse true, .wrN Reg.TSC.SLEEP_CYCLES 0, .get fun s => .seq (loseRegs sleepKeeps (keptRegs ++ sleepRegs))
     (.each (Blk.all.flatMap fun b => (List.range b.count).map fun i => (b, i)) fun (b, i) =>
       .when (s.bit (Reg.HDR.LOCK_OWNER b i) 0) (.wr (Reg.HDR.LOCK_OWNER b i) 1)),
   loseHw, standAlone, halPageReset, .wrN Reg.PWR.PWR_STATUS 3, .pwr fun x => { x with coreOn := false },
   .each (List.range 8) fun m => setMemcState m 3]

/-- A sleep command whose turn has come. -/
def sleepNow (deep linkL2 wakeNow : Bool) : Act := .get fun s =>
  let r := s.sleepReason deep linkL2 wakeNow
  .seq (devResult r) (.when (r == 0) (if deep then enterDeep else enterStandby))

/-- STANDBY and DEEP_SLEEP: deferred while a darning is in progress (R663). -/
def sleepAct (deep linkL2 wakeNow : Bool) : Act := .get fun s =>
  if s.hw.darn.run.isSome then .pwr fun x => { x with deferred := some (if deep then 2 else 1) }
  else sleepNow deep linkL2 wakeNow

/-- The deferred command, once the darning has committed: the link is in L2 as LINK_STATUS shows it. -/
def sleepDeferred : Act := .get fun s => match s.hw.pwr.deferred with
  | some d => .when s.hw.darn.run.isNone
      (.seq (.pwr fun x => { x with deferred := none }) (sleepNow (d == 2) (s.ltssm == ltssmL2) false))
  | none => .nil

/-- The device wakes (R615): 1 command, 2 link, 3 pin, 4 timer. -/
def wakeAct (cause : Nat) : Act := .get fun s =>
  let st := s.fld Reg.PWR.PWR_STATUS 2 0
  .when (st == 2 || st == 3) <| .all
    [.setFld Reg.PWR.PWR_STATUS 2 0 0, .setFld Reg.PWR.DEV_RESULT 19 16 cause,
     .pwr fun x => { x with coreOn := true }, .modReg Reg.CLK.CLK_STATUS fun w => w ||| 0x71FFF, setTarget 7500,
     .each (List.range 8) fun m => .get fun t => .when (t.memcState m == 3)
       (.seq (.setFld (Reg.MEMC.MEMC_STATUS m) 0 0 1) (setMemcState m 1)),
     .when (st == 3) <| .all
       [applyMap, startEngines 0, startFces 0, .each (allPages []) fun (b, i) => setReady b i true,
        .wrN Reg.PIN.PIN_STATUS (s.hw.boot.straps % 4 + 0x700)],
     .when (st == 2) (.seq (.each (List.range 36) fun p => setPower .ENG p 1) (.each (List.range 4) fun i => setPower .FCE i 1)),
     pwrRaise 5, pwrRaise 6]

/-- WAKE_LINK. -/
def wakeLinkAct : Act := .get fun s => .when (s.bit Reg.PWR.WAKE_CFG 0) (wakeAct 2)
/-- `.pinWake` (R738). -/
def wakePinAct : Act := .get fun s => .when (s.bit Reg.PWR.WAKE_CFG 1) (wakeAct 3)
/-- WAKE_TIMER. -/
def wakeTimerAct : Act := .get fun s =>
  .when (s.bit Reg.PWR.WAKE_CFG 2 && decide (s.rd64 Reg.PWR.WAKE_TSC_LO Reg.PWR.WAKE_TSC_HI ≤ s.now)) (wakeAct 4)

/-- DEV_CMD written: 1 STANDBY, 2 DEEP_SLEEP, 3 WAKE. -/
def devCmdAct (v : Word) (linkL2 wakeNow : Bool) : Act := match bits v 3 0 with
  | 1 => sleepAct false linkL2 wakeNow
  | 2 => sleepAct true linkL2 wakeNow
  | 3 => wakeAct 1
  | _ => .nil

/-- Writes to AON registers. What the boot hardware finds of the host's image is open where the write does not say. -/
def aonWrite (off : Nat) (v : Word) : Act :=
  if off = 0x054 then systemResetAct v
  else if off = 0x05C then
    if bits v 3 0 = 1 then .fresh fun n =>
      let w := Config.freeValue n 0
      loadHostAct v ⟨w.getLsbD 0, w.getLsbD 1, w.getLsbD 2, w.getLsbD 3⟩
    else commitRollbackAct v
  else .nil

end Sys2Proof.Machine
end

