-- ==== Sys2Proof/Machine/Events.lean ====
section
/-! DEFINITION. What the blocks tell one another within one command, and the frame of a command: its own effect, then
everything that follows from it at once. -/

namespace Sys2Proof.Machine

/-! ### Events -/

/-- A unit was committed on local stream `n`: it reaches every block that looks at the stream (R341, R383, R390, R405,
R494, R500, R638). -/
def onUnit (n : Nat) (u : DUnit) : Act := .all
  [feedStream n, forwardUnit n u, monUnit n u, ceuUnit n, wdUnit n, frozenInput n u]

/-- A slot of local stream `n` is free: what waited for it is written (R110, R403, R638). -/
def onSlotFree (n : Nat) : Act := .get fun s => .all
  [.each ((List.range 16).filter fun p => s.fld (Reg.SFE.PATH_STREAM p) 8 0 == n &&
      (s.bit (Reg.SFE.PATH_STATUS p) 1 || !(s.path p).waiting.isEmpty)) bandDeliverAct,
   drainImports n s.hw.link.waiting.length, drainMotion n s.hw.mot.waiting.length,
   .each (s.hw.disp.ctxs.map (·.1)) drainCtx]

/-- R215: the swatch a CONV band committed replaces the one before; the item's last band drops it. -/
def keepSwatch (c : Cmd) (committed : Bool) : Act :=
  let last := match c.input with
    | some u => u.has fLAST
    | none => false
  let item := match c.input with
    | some u => u.item
    | none => 0
  let mine (w : Swatch) : Bool := w.ctx == c.ctx && w.stream == Desc.inStream c.desc && w.item == item
  .when (Desc.opcode c.desc == opCONV) <|
    if last then .hw fun h => { h with swatches := h.swatches.filter fun w => !mine w }
    else match c.swatch with
      | some x => .when committed (.hw fun h => { h with swatches := (h.swatches.filter fun w => !mine w) ++ [x] })
      | none => .nil

/-- A command has left the dispatcher. -/
def onEnded (c : Cmd) (status : Nat) (committed : Bool) : Act := .all
  [.when (Desc.opcode c.desc == opATTENTION) (attnEnded c committed),
   .when (Desc.opcode c.desc == opMASK && !committed) (txtCmdGone c.id),
   keepSwatch c committed,
   if committed then .all [counterAdd c, headroom c, monCommitted c] else monFailed c status]

/-- What follows from one event. -/
def onEvent (e : Event) : Act := match e with
  | .unit n u => onUnit n u
  | .seen n u => monUnit n u
  | .itemOpen p id stamp => .seq (monOpen p id stamp) (halItemOpen p id stamp)
  | .itemClose p id stamp => .seq (monClose p id) (halItemClose p id stamp)
  | .slotFree n => onSlotFree n
  | .ended c status _ committed => onEnded c status committed
  | .ctxDown c => .all [orphanAll c, txtCtxDown c, .hw fun h => { h with swatches := h.swatches.filter fun w => w.ctx != c },
      safeCtxDown c]
  | .report p c => safeReport p c
  | .mismatch _ _ => safely safeMismatch
  | .engFault p t => safeEngFault p t
  | .storeFault p => .get fun s => safeEngFault p s.now
  | .ctxFault c t => safeCtxFault c t
  | .statusLeft t => safeStatusLeft t
  | .portDown t => safePortDown t
  | .decision t tc u => decisionFrame t tc u
  | .loopFault _ => routeFault
  | .boundary c => boundaryUnlock c
  | .darn op => darnRequest op
  | .rowErr m row hard => rowErrAct m row hard
  | .thermalShut => thermalShutAct
  | .railLost => railGoneAct
  | .coreUp => coreUpAct
  | .pinWake => wakePinAct
  | .routeLost d => .all [monRouteLost d, headFallback d, routeLostCmds d]

/-- Events are dealt with in the order they arose, those they cause in their turn; a chain of more than `k` is taken up
again with the next command. -/
def drainEvents : Nat → Act
  | 0 => .nil
  | k + 1 => .get fun s => match s.hw.events with
    | [] => .nil
    | e :: t => .all [.hw fun h => { h with events := t }, onEvent e, drainEvents k]

/-- How many events one command deals with. -/
def eventLimit : Nat := 100000

/-- What follows from a command at once: events, commands that may go on, blocks that run again, a deferred sleep. -/
def settleAll : Act := .all [drainEvents eventLimit, parkedCheck, drainEvents eventLimit, wakeBlocks, sleepDeferred]

/-! ### The frame of a command -/

/-- A command of the main side: nothing while the main side is held in reset (R708), else its effect and what follows. -/
def command (a : Act) (s : State) : Host.Outcome State Fault Refusal :=
  .next (if s.hw.boot.inReset then s else (Act.seq a settleAll).run s)

/-- A command of the main side from which nothing follows elsewhere at once. -/
def simply (a : Act) (s : State) : Host.Outcome State Fault Refusal :=
  .next (if s.hw.boot.inReset then s else a.run s)

/-- A command that acts in reset, too: the resets themselves, the always-on domain, the island. -/
def always (a : Act) (s : State) : Host.Outcome State Fault Refusal := .next ((Act.seq a settleAll).run s)

end Sys2Proof.Machine
end

