-- ==== Sys2Proof/Machine/Host.lean ====
section
/-! DEFINITION. The host interface (17_host_interface_registers): the values registers read as, host writes and reads of
BAR0, BAR2 and BAR4, and the pattern chart. -/

namespace Sys2Proof.Machine

/-! ### The page header and the chart (R683, R690 to R692) -/

/-- Block type codes (R689). -/
def Blk.typeCode : Blk → Nat
  | .CHART => 0x01 | .TOP => 0x02 | .AON => 0x03 | .TSC => 0x04 | .CLK => 0x05 | .PWR => 0x06 | .VRC => 0x07 | .PIN => 0x08
  | .DARN => 0x09 | .JRNL => 0x0A | .HAL => 0x0B | .SAFE => 0x0C | .CMP => 0x0D | .WDG => 0x0E | .GATH => 0x0F | .HOST => 0x10
  | .FUNC => 0x20 | .DISP => 0x21 | .KVW => 0x22 | .TXT => 0x23 | .JPG => 0x24 | .AUG => 0x25 | .ENG => 0x30 | .FCE => 0x31
  | .CMN => 0x32 | .MEMC => 0x33 | .LINK => 0x34 | .SFE => 0x40 | .AFE => 0x41 | .PGEN => 0x42 | .ENC => 0x43 | .CXP => 0x44
  | .CSI => 0x45 | .TSN => 0x50 | .SSI => 0x51 | .CEU => 0x52

/-- R695: pages whose accepted writes enter the journal. -/
def Blk.journaled (b : Blk) : Bool := b != .CHART && b != .JRNL && b != .HOST

/-- Blocks with registers that are one set across their pages. -/
def Blk.shared (b : Blk) : Bool := b.rows.any (·.shared)

/-- VERSION of every page (log entry 3). -/
def pageVersion : Nat := 0x0100

/-- Stripe of a page (R14, R16), 0xFF for chip-level blocks. -/
def stripeOf (b : Blk) (i : Nat) : Nat := match b with
  | .ENG => i / 9
  | .FCE => i
  | .KVW => i
  | .CMN => i / 4
  | _ => 0xFF

/-- R690: words from offset 0x040 to the highest block register. -/
def nregs (b : Blk) (i : Nat) : Nat :=
  if b = .CHART ∧ i ≠ 0 then 0
  else b.rows.foldl (fun m r => max m ((r.off + (r.n - 1) * r.stride - 0x40) / 4 + 1)) 0

/-- The four words of a page's chart entry (R690). -/
def chartWords (b : Blk) (i : Nat) : List Nat :=
  [b.typeCode + 65536 * i, b.slot + i + 65536 * nregs b i, pageVersion,
   stripeOf b i + 256 * b2n (b == .FUNC && i != 0) + 512 * b2n b.shared + 1024 * b2n b.lockable + 2048 * b2n (sleepKeeps b) +
     4096 * b2n (b == .ENG && i % 9 == 8)]

/-- The populated pages in slot order (R689). -/
def pages : List (Blk × Nat) := Blk.all.flatMap fun b => (List.range b.count).map fun i => (b, i)

/-- R691: the chart word at an offset of a chart page's entry area. -/
def chartWord (i off : Nat) : Word :=
  if i = 0 ∧ off < 0x80 then 0
  else
    let k := if i = 0 then (off - 0x80) / 16 else 248 + 252 * (i - 1) + (off - 0x40) / 16
    match pages[k]? with
    | some (b, j) => BitVec.ofNat 32 ((chartWords b j).getD (off % 16 / 4) 0)
    | none => 0

/-- R692. -/
def chartCrc : Word := crc32c (pages.flatMap fun x => (chartWords x.1 x.2).flatMap (leBytes 4))

/-- IRQ_PEND bits in use. -/
def irqMaskOf (b : Blk) (i : Nat) : Word := BitVec.ofNat 32 (2 ^ (srcRange b i).2 - 1)

/-- Header registers whose value is not stored as it reads (R683, R686). -/
def headerComputed (s : State) (b : Blk) (i off : Nat) : Option Word :=
  if off = 0x000 then some (BitVec.ofNat 32 (b.typeCode + 65536 * i + 0xD5000000))
  else if off = 0x004 then some (BitVec.ofNat 32 pageVersion)
  else if off = 0x008 then some (BitVec.ofNat 32
    ((srcRange b i).2 + 256 * b2n b.journaled + 512 * b2n b.lockable + 1024 * b2n b.shared))
  else if off = 0x00C then
    some (setBits (setBits (s.rd (Reg.HDR.STATUS b i)) 1 1 (b2n (s.locked b i))) 2 2
      (b2n (s.fld (Reg.HDR.ERR_STATUS b i) 23 0 != 0)))
  else none

/-! ### Reading -/

/-- R242, R243: BUSY and CTX of a block that runs command `job`. -/
def blockStatus (s : State) (job : Option Nat) : Word := match job.bind s.cmd with
  | some c => BitVec.ofNat 32 (1 + 256 * c.ctx)
  | none => 0

/-- JPG_STATUS (R242). How far the decoder has come is a matter of time: open (log entry 14). -/
def State.jpgStatus (s : State) : Word := match s.hw.blk.jpg with
  | some id => setBits (blockStatus s s.hw.blk.jpg) 31 16 (Config.mcuRow id s.now).toNat
  | none => 0

/-- Registers whose value a block computes. -/
def regComputed (s : State) (b : Blk) (i off : Nat) : Option Word :=
  if off < 0x40 then headerComputed s b i off
  else match b with
    | .CHART => if off = 0x048 ∧ i = 0 then some chartCrc else if i ≠ 0 ∨ 0x80 ≤ off then some (chartWord i off) else none
    | .TSC => if off = 0x040 then some (s.tsc.setWidth 32) else none
    | .SFE => sfeComputed s off
    | .CMN => cmnComputed s i off
    | .MEMC => memcComputed s i off
    | .PWR => pwrComputed s off
    | .VRC => vrcComputed s off
    | .PIN => pinComputed s off
    | .DARN => darnComputed s off
    | .JRNL => jrnlComputed s off
    | .CMP => cmpComputed s off
    | .WDG => wdgComputed s i off
    | .GATH => gathComputed s i off
    | .FUNC => funcComputed s i off
    | .DISP =>
      if off = 0x09C then some (BitVec.ofNat 32 (s.ctx (s.fld Reg.DISP.CTX_VT_SEL 7 0)).vt) else dispComputed s off
    | .KVW => kvComputed s i off
    | .TXT => txtComputed s off
    | .LINK => linkComputed s off
    | .TSN => tsnComputed s i off
    | .CEU => ceuComputed s off
    | .JPG => if off = 0x044 then some (s.jpgStatus) else none
    | .AUG => if off = 0x044 then some (blockStatus s s.hw.blk.aug) else none
    | _ => none

/-- What a page's offset reads as: a reserved offset, and a write-only register, as 0 (R8, R682). -/
def State.regRead (s : State) (b : Blk) (i off : Nat) : Word :=
  match rowAt b i off with
  | some row => if row.acc = .WO then 0 else (regComputed s b i off).getD (s.rd (regAt b i off))
  | none => if b = .CHART then (regComputed s b i off).getD 0 else 0

/-- What a full 32-bit read does beside returning the value: an RC register is cleared (R8), the high half of a pair is
latched (R59, R380, R449). -/
def readEffect (b : Blk) (i off : Nat) : Act := .get fun s =>
  if b = .TSC ∧ off = 0x040 then .wr Reg.TSC.TSC_HI ((s.tsc >>> 32).setWidth 32)
  else if b = .DISP ∧ off = 0x09C then .wrN Reg.DISP.CTX_VT_HI ((s.ctx (s.fld Reg.DISP.CTX_VT_SEL 7 0)).vt / 4294967296)
  else match rowAt b i off with
    | some row => .when (row.acc = .RC) (if b = .CMN ∧ 0x050 ≤ off then cmnReadClear i off
        else if b = .MEMC ∧ (off = 0x054 ∨ off = 0x058) then memcReadClear i off else .wr (regAt b i off) 0)
    | none => .nil

/-- What comes before: the relation of a TSN port is latched whole (R380). -/
def readLatch (b : Blk) (i off : Nat) : Act := .when (b == .TSN && off == 0x050) (relLatch i)

/-- R682: an access to an unpopulated slot. -/
def unpopulated (slot : Nat) (isRead : Bool) : Act := .get fun s =>
  let w := s.rd Reg.HOST.UNPOP_LOG
  let n := if w.getLsbD 15 then min (bits w 31 16 + 1) 65535 else 1
  let first := if w.getLsbD 15 then bits w 14 0 else slot + 16384 * b2n isRead
  .seq (.wrN Reg.HOST.UNPOP_LOG (first + 32768 + 65536 * n)) (.raise .HOST 0 3)

/-- A word of the MSI-X table of function `f` (R452). -/
def State.msixWord (s : State) (f off : Nat) : Word := ((s.msixEntry f (off / 16)) >>> (32 * (off % 16 / 4))).setWidth 32

/-- A word of its pending-bit array. -/
def State.pbaWord (s : State) (f off : Nat) : Word := if off < 8 then (s.hw.gath.pba >>> (64 * f + 8 * off)).setWidth 32 else 0

/-- Where a BAR0 address leads. -/
inductive Place where
  | reg (b : Blk) (i off : Nat)
  | msix (off : Nat)
  | pba (off : Nat)
  | empty (slot : Nat)
  /-- The remainder of a VF's page (R678). -/
  | vfRest (off : Nat)
  deriving DecidableEq, Repr

/-- R452, R678: BAR0 of the PF holds every page, that of VF `f` page FUNC[f] and its MSI-X structures. -/
def bar0Place (f a : Nat) : Place :=
  if f = 0 then
    let slot := a / 4096
    if slot = 0x30 then .msix (a % 4096) else if slot = 0x31 then .pba (a % 4096)
    else match pageAt slot with
      | some (b, i) => .reg b i (a % 4096)
      | none => .empty slot
  else if a < 0x800 then .reg .FUNC f a
  else if a < 0xC00 then .msix (a - 0x800)
  else if a < 0xC08 then .pba (a - 0xC00)
  else .vfRest (a % 4096)

/-- The word at a 4-byte aligned BAR0 address, and what reading it does; `full`: the read is of the whole word. -/
def bar0Read32 (f a : Nat) (full : Bool) (k : Word → Act) : Act := match bar0Place f a with
  | .reg b i off => .seq (.when full (readLatch b i off)) <| .get fun s =>
      .seq (.when full (readEffect b i off)) (k (s.regRead b i off))
  | .msix off => .get fun s => k (if off < 0x400 then s.msixWord f off else 0)
  | .pba off => .get fun s => k (s.pbaWord f off)
  | .empty slot => .seq (unpopulated slot true) (k 0xFFFFFFFF)
  | .vfRest _ => k 0

/-- Read `n` bytes from `a` on, word by word in ascending order (R681). -/
def bar0Words (f : Nat) : Nat → Nat → Nat → List Byte → (List Byte → Act) → Act
  | 0, _, _, acc, k => k acc
  | j + 1, a, n, acc, k =>
    if n = 0 then k acc
    else
      let m := min n (4 - a % 4)
      bar0Read32 f (a / 4 * 4) (m == 4) fun w =>
        bar0Words f j (a + m) (n - m) (acc ++ ((leBytes 4 w.toNat).drop (a % 4)).take m) k

/-- A BAR0 read of `n` bytes (R681): a register boundary crossed without alignment is answered with a Completer Abort. -/
def bar0Read (f a n : Nat) : Act :=
  if a % 4 ≠ 0 ∧ 4 < a % 4 + n then .seq (.bump Reg.HOST.CA_CNT 1) (.out (.completerAbort f))
  else bar0Words f n a n [] fun l => .out (.readData f l false)

/-! ### Writing -/

/-- R453, R455: registers a VF does not write. -/
def pfOnly (b : Blk) (off : Nat) : Bool := b == .FUNC && off == 0x044

/-- Rules of the blocks that drop a write (KIND 6). -/
def blockDrops (s : State) (f : Nat) (b : Blk) (i off : Nat) (v : Word) : Bool :=
  if off < 0x40 then false
  else match b with
    | .AON => aonDrops off v
    | .PWR => pwrDrops off v
    | .JRNL => jrnlDrops s off
    | .HAL => halDrops s off v
    | .SAFE => safeDrops off v
    | .WDG => wdgDrops s i off v
    | .GATH => decide (0x400 ≤ off ∧ off < 0x800) && s.srcCfgLocked i ((off - 0x400) / 4)
    | .FUNC => funcDrops s f i off v
    | .DISP => dispDrops s off
    | .KVW => kvDrops s off v
    | .TXT => txtDrops s off v
    | .ENG => engDrops s i off v
    | .FCE => fceDrops s i off v
    | .CEU => ceuDrops s off v
    | _ => captureDrops s b i off v

/-- What a block's rule has a dropped write leave behind beside the log (R99, R469). -/
def dropEffect (b : Blk) (i off : Nat) (v : Word) : Act :=
  if b = .SFE ∧ 0x100 ≤ off ∧ off < 0x500 ∧ sfeOff off = 0 then pathCtrlDropped (sfePath off) v
  else if b = .FUNC ∧ off = 0x054 then eoiAct i (bits v 5 0)
  else .nil

/-- Header writes (R683, R684). -/
def headerWrite (b : Blk) (i off : Nat) (v : Word) : Act := .get fun s =>
  let pend := s.rd (Reg.HDR.IRQ_PEND b i)
  let mask := s.rd (Reg.HDR.IRQ_MASK b i)
  let v' := v &&& irqMaskOf b i
  if off = 0x014 then .setIrq b i (pend ||| v') mask
  else if off = 0x018 then .setIrq b i (pend &&& ~~~ v') mask
  else if off = 0x020 then .setIrq b i pend (mask ||| v')
  else if off = 0x024 then .setIrq b i pend (mask &&& ~~~ v')
  else if off = 0x028 then .when (v.getLsbD 0) (.setFld (Reg.HDR.ERR_STATUS b i) 31 24 0)
  else if off = 0x02C then .when (v.getLsbD 24) (.wr (Reg.HDR.ACC_ERR b i) 0)
  else .nil

/-- What an accepted write does beside storing an RW register. -/
def blockWrite (f : Nat) (b : Blk) (i off : Nat) (old v : Word) : Act :=
  if off < 0x40 then headerWrite b i off v
  else match b with
    | .TOP => .when (off == 0x050) (lockCmdAct f v)
    | .AON => aonWrite off v
    | .TSC => .when (off == 0x054) (tscCmdWrite v)
    | .PWR => if off = 0x070 then .get fun s => devCmdAct v (s.ltssm == ltssmL2) false else pwrSettings off old v
    | .PIN => pinWrite off old v
    | .DARN => darnWrite off v
    | .HAL => halWrite off v
    | .SAFE => safeWrite off old v
    | .CMP => safely .nil
    | .WDG => wdgWrite i off old v
    | .GATH => gathWrite i off v
    -- of UNPOP_LOG VALID alone acts on a written 1: SLOT, READ and COUNT stay until it is cleared (R682; DESIGN CHOICE, log entry 70)
    | .HOST => .when (off == 0x068 && v.getLsbD 15) (.wr Reg.HOST.UNPOP_LOG 0)
    | .FUNC => funcWrite f i off old v
    | .DISP => dispWrite off v
    | .KVW => kvWrite off old v
    | .TXT => txtWrite off v
    | .AUG => .when (off == 0x060 && v.getLsbD 0) augTestAct
    | .ENG => engWrite i off v
    | .FCE => fceWrite i off v
    | .LINK => linkWrite i off old v
    | .TSN => tsnWrite i off v
    | .SSI => ssiWrite off v
    | .CEU => ceuWrite off old v
    | _ => captureWrite b i off old v

/-- Registers that only show what a block keeps behind a selector. -/
def behindSel (b : Blk) (off : Nat) : Bool := match b with
  | .PIN => off == 0x048
  | .LINK => [0x094, 0x098, 0x09C, 0x0A8, 0x0B0].contains off
  | .TSN => [0x070, 0x08C, 0x090, 0x094, 0x098].contains off
  | _ => false

/-- The value an accepted write leaves stored, by the register's access code (R8). -/
def storedValue (row : RegRow) (old v : Word) : Word := match row.acc with
  | .W1C => old &&& ~~~ (v &&& row.wmask)
  | .RW => (old &&& ~~~ row.wmask) ||| (v &&& row.wmask) ||| (v &&& row.w1s)
  | .RWL => (old &&& ~~~ row.wmask) ||| (v &&& row.wmask) ||| (v &&& row.w1s)
  | _ => old

/-- R695: does an accepted write make a journal entry? -/
def journals (b : Blk) (off : Nat) : Bool :=
  b.journaled && off != 0x018 && !(b == .FUNC && off == 0x054) && !(b == .GATH && decide (0x0C0 ≤ off ∧ off < 0x0E0)) &&
  !(b == .WDG && decide (0x100 ≤ off ∧ off < 0x200 ∧ off % 16 = 8)) &&
  !(b == .SFE && decide (0x100 ≤ off ∧ off < 0x500) && sfeOff off == 0x28)

/-- Why a 32-bit write is dropped (R453, R682, R684, R686), as ACC_ERR codes it; 0 when it is accepted. -/
def writeKind (s : State) (f : Nat) (b : Blk) (i off : Nat) (v : Word) : Nat :=
  match rowAt b i off with
  | none => if b = .CHART ∧ (i ≠ 0 ∨ 0x80 ≤ off) ∧ 0x40 ≤ off then 4 else 1
  | some row =>
    if row.acc = .RO ∨ row.acc = .RC then 4
    else if f ≠ 0 ∧ pfOnly b off then 7
    else if row.acc = .RWL ∧ s.locked b i then 5
    else if blockDrops s f b i off v then 6 else 0

/-- A 32-bit host write to a page's offset (R8, R681 to R687, R695): dropped and logged, or stored, counted, acted on
(`act` gets the register's old value) and journaled. `half`: it is half of a 64-bit write. -/
def hostWriteWith (act : Word → Act) (f : Nat) (b : Blk) (i off : Nat) (v : Word) (half : Bool) : Act := .get fun s =>
  let k := writeKind s f b i off v
  if k ≠ 0 then .seq (.logAcc b i f off k) (.when (k == 6) (dropEffect b i off v))
  else match rowAt b i off with
    | none => .nil
    | some row =>
      let r := regAt b i off
      let shown := s.regRead b i off
      .all [.when (!behindSel b off) (.wr r (storedValue row (s.rd r) v)),
            .modReg (Reg.HDR.WRITE_COUNT b i) (· + 1), act (if behindSel b off then shown else s.rd r),
            .get fun t => .when (journals b off)
              (journal (f + 128 * b2n half) (b.slot + i) off shown.toNat (t.regRead b i off).toNat v.toNat)]

/-- A host write with the effect its register has. -/
def hostWrite (f : Nat) (b : Blk) (i off : Nat) (v : Word) (half : Bool) : Act :=
  hostWriteWith (fun old => blockWrite f b i off old v) f b i off v half

/-- A host write to a register, by the function whose BAR0 shows it: the PF, or VF `f` for page FUNC[f] (R452). -/
def hostReg (f : Nat) (r : RegRef) (v : Word) : Act :=
  .when (f == 0 || (r.blk == .FUNC && r.inst == f)) (hostWrite f r.blk r.inst r.off v false)

/-- A host write to the header register at `off` of the page in a slot (R683): an unpopulated slot is R682's, the slots of
the MSI-X structures hold no page. -/
def headerSlot (f slot off : Nat) (v : Word) : Act := match pageAt slot with
  | some (b, i) => hostReg f ⟨b, i, off⟩ v
  | none => .when (f == 0 && slot != 0x30 && slot != 0x31) (unpopulated slot false)

/-- A host write to a register whose effect needs more than the written value. -/
def hostRegWith (f : Nat) (r : RegRef) (v : Word) (act : Act) : Act :=
  .when (f == 0 || (r.blk == .FUNC && r.inst == f)) (hostWriteWith (fun _ => act) f r.blk r.inst r.off v false)

/-- A host read of a register. -/
def hostReadReg (f : Nat) (r : RegRef) : Act := .when (f == 0) (bar0Read 0 r.key 4)

/-- Put a word into the MSI-X table of function `f`. -/
def msixWrite (f off : Nat) (v : Word) : Act := .when (off < 0x400) <| .get fun s =>
  let e := s.msixEntry f (off / 16)
  let sh := 32 * (off % 16 / 4)
  let e' := (e &&& ~~~ ((0xFFFFFFFF : BitVec 128) <<< sh)) ||| (v.setWidth 128 <<< sh)
  .gath fun g => { g with msix := alPut (BitVec.ofNat 128 (2 ^ 96)) (64 * f + off / 16) e' g.msix }

/-- A 32-bit write at an aligned BAR0 address. -/
def bar0Write32 (f a : Nat) (v : Word) (half : Bool) : Act := match bar0Place f a with
  | .reg b i off => hostWrite f b i off v half
  | .msix off => msixWrite f off v
  | .pba _ => .nil
  | .empty slot => unpopulated slot false
  | .vfRest off => .logAcc .FUNC f f off 1

/-- A write that is dropped for its width or alignment (R681). -/
def bar0Drop (f a kind : Nat) : Act := match bar0Place f a with
  | .reg b i off => .logAcc b i f (off / 4 * 4) kind
  | .empty slot => unpopulated slot false
  | .vfRest off => .logAcc .FUNC f f off 1
  | _ => .nil

/-- Words of an aligned write in ascending order; 1 to 3 bytes left over are a narrow write. -/
def bar0WriteWords (f : Nat) (half : Bool) : Nat → Nat → List Byte → Act
  | 0, _, _ => .nil
  | k + 1, a, l =>
    if l.isEmpty then .nil
    else if l.length < 4 then bar0Drop f a 2
    else .seq (bar0Write32 f a (BitVec.ofNat 32 (leNat (l.take 4))) half) (bar0WriteWords f half k (a + 4) (l.drop 4))

/-- A BAR0 write of bytes (R681). -/
def bar0Write (f a : Nat) (l : List Byte) : Act :=
  if a % 4 = 0 ∧ 4 ≤ l.length then bar0WriteWords f (l.length == 8 && a % 8 == 0) l.length a l
  else if a % 4 + l.length ≤ 4 then .when (!l.isEmpty) (bar0Drop f a 2)
  else bar0Drop f a 3

/-! ### BAR2 and BAR4 (R679, R680) -/

/-- BAR2_INVALID_WRITE: what is no doorbell is logged in FUNC[f]. -/
def bar2InvalidAct (f off n : Nat) : Act :=
  let kind := if 0x4000 ≤ off then 1 else if n < 4 then 2 else if off % 64 = 0 ∨ off % 64 = 4 then 0 else 1
  .when (kind != 0) (.logAcc .FUNC f f (off % 4096) kind)

/-- The bytes a write with byte enables stores. -/
def enabled (a : Nat) (l : List (Option Byte)) : List (Nat × Byte) :=
  l.zipIdx.filterMap fun (x, k) => x.bind fun b => if a + k < commonsSize then some (a + k, b) else none

/-- Runs of adjacent bytes. -/
def runs : List (Nat × Byte) → List (Nat × List Byte)
  | [] => []
  | (a, b) :: t => match runs t with
    | (c, l) :: r => if c = a + 1 then (a, b :: l) :: r else (a, [b]) :: (c, l) :: r
    | [] => [(a, [b])]

/-- UNPOPULATED_ACCESS (R682): only to a slot without a page that holds no MSI-X structure. -/
def unpopulatedAct (slot : Nat) (isRead : Bool) : Act :=
  .when ((pageAt slot).isNone && slot != 0x30 && slot != 0x31) <|
    .seq (unpopulated slot isRead) (.when isRead (.out (.readData 0 (List.replicate 4 0xFF) false)))

/-- The words a write in runs touches but does not cover whole: they are read first, and written back with the new bytes. -/
def partWords (r : Nat × List Byte) : List Nat :=
  [r.1 / 8, (r.1 + r.2.length - 1) / 8].dedup.filter fun w => !coversWord r.1 r.2.length w

/-- BAR4_WRITE. A word written in part is read before (R20). -/
def bar4WriteAct (a : Nat) (l : List (Option Byte)) (eccs : Eccs) : Act := .get fun s =>
  let e := enabled a l
  let c2 := decide (sARM ≤ s.safeState ∧ s.safeState ≤ sREACT) && e.any fun x => s.inC2 x.1 1
  let base := (s.rd Reg.JRNL.JRNL_BASE).toNat
  let jr := s.bit Reg.JRNL.JRNL_CTRL 0 && e.any fun x => decide (base ≤ x.1 ∧ x.1 < base + 0x200000)
  if c2 || jr then .seq (.when c2 .c2Refuse) (.when jr (.logAcc .JRNL 0 0 0x044 6))
  else .each (runs e) fun r => .all [.each (partWords r) fun w => commonsRead eccs (8 * w) 8, .bytes r.1 r.2, ringMove true r.1 r.2.length]

/-- BAR4_READ: the words are read as the code finds them (R20, R21); a poisoned word comes with the poisoned-data
indication (R20). -/
def bar4ReadAct (a n : Nat) (eccs : Eccs) : Act := .seq (commonsRead eccs a n)
  (.get fun s => .out (.readData 0 (s.read a n) (s.readsPoison a n)))

end Sys2Proof.Machine
end

