-- ==== Sys2Proof/Machine/CmdAdmit.lean ====
section
/-! DEFINITION. Meanings of commands: admission of a descriptor from a submission ring: one command for each opcode (10_contexts_and_scheduling).
Each is its own program of changes inside the frame of `Machine/Events.lean`. -/

namespace Sys2Proof.Machine

/-- MATMUL (R407). A MATMUL descriptor is admitted and validated for an engine product Y = W × X + b. -/
def execMatmul (c : BitVec 8) (d : BitVec 512) (s : State) : Host.Outcome State Fault Refusal :=
  command (admitOpAct opMATMUL c.toNat d) s

/-- CONV (R409). A CONV descriptor is admitted and validated for a swatch of up to 8 layers. -/
def execConvolve (c : BitVec 8) (d : BitVec 512) (s : State) : Host.Outcome State Fault Refusal :=
  command (admitOpAct opCONV c.toNat d) s

/-- ATTENTION (R244). An ATTENTION descriptor is admitted, its sequences locked, frames allocated and entries refused,
paused or dropped as needed. -/
def execAttention (c : BitVec 8) (d : BitVec 512) (s : State) : Host.Outcome State Fault Refusal :=
  command (admitOpAct opATTENTION c.toNat d) s

/-- CROP (R223). A CROP descriptor is admitted to cut and resample boxes on the vector unit. -/
def execCrop (c : BitVec 8) (d : BitVec 512) (s : State) : Host.Outcome State Fault Refusal :=
  command (admitOpAct opCROP c.toNat d) s

/-- ARGMAX (R229). An ARGMAX descriptor is admitted for a channel argmax. -/
def execArgmax (c : BitVec 8) (d : BitVec 512) (s : State) : Host.Outcome State Fault Refusal :=
  command (admitOpAct opARGMAX c.toNat d) s

/-- SAMPLE (R407). A SAMPLE descriptor is admitted to select a token per column under its mask. -/
def execSample (c : BitVec 8) (d : BitVec 512) (s : State) : Host.Outcome State Fault Refusal :=
  command (admitOpAct opSAMPLE c.toNat d) s

/-- TOKENISE (R306). A TOKENISE command segments UTF-8 units into token units. -/
def execTokenise (c : BitVec 8) (d : BitVec 512) (s : State) : Host.Outcome State Fault Refusal :=
  command (admitOpAct opTOKENISE c.toNat d) s

/-- DETOKENISE (R311). A DETOKENISE command turns token units back into UTF-8 text. -/
def execDetokenise (c : BitVec 8) (d : BitVec 512) (s : State) : Host.Outcome State Fault Refusal :=
  command (admitOpAct opDETOKENISE c.toNat d) s

/-- MASK (R412). A MASK command is admitted with the next descriptor of its context as a mask request. -/
def execMask (c : BitVec 8) (d : BitVec 512) (next : BitVec 512) (s : State) : Host.Outcome State Fault Refusal :=
  command (admitMaskAct c.toNat d next) s

/-- JPEG (R231). A JPEG command decodes or refuses a supported JPEG image into band units. -/
def execJpeg (c : BitVec 8) (d : BitVec 512) (s : State) : Host.Outcome State Fault Refusal :=
  command (admitOpAct opJPEG c.toNat d) s

/-- AUGMENT (R240). An AUGMENT command produces a seeded augmented copy, or faults on an out-of-range parameter. -/
def execAugment (c : BitVec 8) (d : BitVec 512) (s : State) : Host.Outcome State Fault Refusal :=
  command (admitOpAct opAUGMENT c.toNat d) s

/-- COPY (R407). A COPY command moves bytes over the spine. -/
def execCopy (c : BitVec 8) (d : BitVec 512) (s : State) : Host.Outcome State Fault Refusal :=
  command (admitOpAct opCOPY c.toNat d) s

/-- PUT (R642). A PUT writes bytes into a remote window and adds one to the remote counter at commit. -/
def execPut (c : BitVec 8) (d : BitVec 512) (s : State) : Host.Outcome State Fault Refusal :=
  command (admitOpAct opPUT c.toNat d) s

/-- GET (R641). A GET reads a remote window into local memory as a remote wait. -/
def execGet (c : BitVec 8) (d : BitVec 512) (s : State) : Host.Outcome State Fault Refusal :=
  command (admitOpAct opGET c.toNat d) s

/-- SIGNAL (R641). A SIGNAL adds an increment to a remote counter. -/
def execSignal (c : BitVec 8) (d : BitVec 512) (s : State) : Host.Outcome State Fault Refusal :=
  command (admitOpAct opSIGNAL c.toNat d) s

/-- WAIT (R643). A WAIT completes when its local counter reaches the target. -/
def execWait (c : BitVec 8) (d : BitVec 512) (s : State) : Host.Outcome State Fault Refusal :=
  command (admitOpAct opWAIT c.toNat d) s

/-- ALLGATHER (R646). An ALLGATHER places every member's contribution in rank order on every member. -/
def execAllgather (c : BitVec 8) (d : BitVec 512) (s : State) : Host.Outcome State Fault Refusal :=
  command (admitOpAct opALLGATHER c.toNat d) s

/-- ALLREDUCE (R646). An ALLREDUCE folds every member's contribution in ascending device order on every member. -/
def execAllreduce (c : BitVec 8) (d : BitVec 512) (s : State) : Host.Outcome State Fault Refusal :=
  command (admitOpAct opALLREDUCE c.toNat d) s

/-- BROADCAST (R641). A BROADCAST copies the root's source to every member. -/
def execBroadcast (c : BitVec 8) (d : BitVec 512) (s : State) : Host.Outcome State Fault Refusal :=
  command (admitOpAct opBROADCAST c.toNat d) s

/-- BARRIER (R641). A BARRIER completes when every member of GROUP has reached it. -/
def execBarrier (c : BitVec 8) (d : BitVec 512) (s : State) : Host.Outcome State Fault Refusal :=
  command (admitOpAct opBARRIER c.toNat d) s

end Sys2Proof.Machine
end

