-- ==== Sys2Proof/Machine/CmdCapture.lean ====
section
/-! DEFINITION. Meanings of commands: the sensor front end: pattern generators, encoders, cameras, scan paths.
Each is its own program of changes inside the frame of `Machine/Events.lean`. -/

namespace Sys2Proof.Machine

/-- PGEN_RUN (R119). Setting PG_CTRL.RUN starts the pattern generator at state START with its loop counters reloaded.
-/
def execPgenRun (f : Fin 32) (g : Fin 4) (v : Word) (s : State) : Host.Outcome State Fault Refusal :=
  command (hostReg f (Reg.PGEN.PG_CTRL g) (v ||| 1)) s

/-- PGEN_STATE_END (R78). The end of a pattern state's duration takes its samples and moves to the next state under
its condition. -/
def execPgenStateEnd (g : Fin 4) (raw : List (BitVec 16)) (s : State) : Host.Outcome State Fault Refusal :=
  command (pgenStateEndAct g raw) s

/-- DARK_LOOP_STEP (R72). Every 2^DARK_SHIFT lines the dark loop moves the offset DAC and may raise loop out of range.
-/
def execDarkLoopStep (g : Fin 4) (c : Fin 13) (s : State) : Host.Outcome State Fault Refusal :=
  simply (darkLoopAct g c) s

/-- SHADOW_SETTLED (R76). A shadowing spare channel reaching 256 lines raises shadowing settled. -/
def execShadowSettled (g : Fin 4) (s : State) : Host.Outcome State Fault Refusal := simply (shadowSettledAct g) s

/-- AFE_CHANNEL_SWITCH (R76). At a line boundary the AFE channel map is changed to the shadowing spare. -/
def execAfeChannelSwitch (g : Fin 4) (s : State) : Host.Outcome State Fault Refusal := simply (afeSwitchAct g) s

/-- PM_DATA_HI_WRITE (R119). A write to PM_DATA_HI stores the 64-bit state at PM_ADDR and advances PM_ADDR, or is
dropped while RUN is 1. -/
def execPmDataHiWrite (f : Fin 32) (g : Fin 4) (v : Word) (s : State) : Host.Outcome State Fault Refusal :=
  simply (hostReg f (Reg.PGEN.PM_DATA_HI g) v) s

/-- TRIG_CMD (R119). A write to TRIG_CMD issues one software line trigger. -/
def execTrigCmd (f : Fin 32) (g : Fin 4) (v : Word) (s : State) : Host.Outcome State Fault Refusal :=
  command (hostReg f (Reg.PGEN.TRIG_CMD g) (v ||| 1)) s

/-- DIV_FRAC_WRITE (R84). A DIV_FRAC write takes both divider halves together from the next trigger. -/
def execDivFracWrite (f : Fin 32) (n : Fin 8) (v : Word) (s : State) : Host.Outcome State Fault Refusal :=
  simply (hostReg f (Reg.ENC.DIV_FRAC n) v) s

/-- ENCODER_EDGE (R85). An accepted quadrature count updates the accumulator and may issue a line trigger. -/
def execEncoderEdge (n : Fin 8) (forward : Bool) (bothPhases : Bool) (s : State) : Host.Outcome State Fault Refusal :=
  command (encoderEdgeAct n forward bothPhases) s

/-- OVERSPEED_TIMER_TRIGGER (R87). During overspeed a timer at the last good period triggers a line. -/
def execOverspeedTimerTrigger (n : Fin 8) (s : State) : Host.Outcome State Fault Refusal :=
  command (overspeedTimerAct n) s

/-- ENCODER_STALL (R89). No edge for STALL_US stops triggering and closes the open item as stalled. -/
def execEncoderStall (n : Fin 8) (s : State) : Host.Outcome State Fault Refusal := command (encoderStallAct n) s

/-- ENCODER_LINE_FAULT (R90). An open or short on an RS-422 pair sets LINE_FAULT and closes the open item. -/
def execEncoderLineFault (n : Fin 8) (s : State) : Host.Outcome State Fault Refusal := command (encoderLineFaultAct n) s

/-- CXP_PACKET (R96). A CoaXPress stream packet delivers camera line data, stamped and padded, truncated or zeroed as
required. -/
def execCxpPacket (n : Fin 8) (e : CameraEvent) (s : State) : Host.Outcome State Fault Refusal :=
  command (cxpPacketAct n e) s

/-- CXP_CMD_READ (R121). CMD_GO read relays a camera register read. -/
def execCxpCmdRead (f : Fin 32) (n : Fin 8) (v : Word) (s : State) : Host.Outcome State Fault Refusal :=
  simply (hostReg f (Reg.CXP.CMD_GO n) ((v ||| 1) &&& ~~~ 2)) s

/-- CXP_CMD_WRITE (R121). CMD_GO write relays a camera register write. -/
def execCxpCmdWrite (f : Fin 32) (n : Fin 8) (v : Word) (s : State) : Host.Outcome State Fault Refusal :=
  simply (hostReg f (Reg.CXP.CMD_GO n) (v ||| 2)) s

/-- CXP_CONTROL_REPLY (R121). A camera control reply arrives and is reported in CMD_DATA and CMD_STATUS. -/
def execCxpControlReply (n : Fin 8) (ack : Byte) (data : Word) (s : State) : Host.Outcome State Fault Refusal :=
  simply (cxpReplyAct n ack data) s

/-- CXP_EVENT_PACKET (R93). A camera event packet or heartbeat is received and latched. -/
def execCxpEventPacket (n : Fin 8) (heartbeat : Bool) (w : Word) (s : State) : Host.Outcome State Fault Refusal :=
  simply (cxpEventAct n heartbeat w) s

/-- CXP_LINK_LOST (R121). A CoaXPress link loses lock and raises link lost. -/
def execCxpLinkLost (n : Fin 8) (link : Fin 4) (s : State) : Host.Outcome State Fault Refusal :=
  simply (cxpLinkLostAct n link) s

/-- CSI_PACKET (R94). A CSI-2 packet delivers frame boundaries or line data on the selected virtual channel. -/
def execCsiPacket (n : Fin 16) (vc : BitVec 2) (e : CameraEvent) (s : State) : Host.Outcome State Fault Refusal :=
  command (csiPacketAct n vc.toNat e) s

/-- LINE_COMPLETE (R106). Every part of a line has reached the line buffer, completing the line. -/
def execLineComplete (p : Fin 16) (s : State) : Host.Outcome State Fault Refusal := command (lineCompleteAct p) s

/-- POST_LINES_DONE (R102). After POST_LINES further lines the closing item ends. -/
def execPostLinesDone (p : Fin 16) (s : State) : Host.Outcome State Fault Refusal := command (postLinesDoneAct p) s

/-- BAND_DELIVER (R108). A complete band or the item's last lines are written to the destination ring and DEST_TAIL
advanced. -/
def execBandDeliver (p : Fin 16) (s : State) : Host.Outcome State Fault Refusal := command (bandDeliverAct p) s

/-- PATH_WAIT_EXPIRY (R108). At request time plus PATH_WAIT a band's complete lines are delivered with PARTIAL, or the
wait restarts. -/
def execPathWaitExpiry (p : Fin 16) (s : State) : Host.Outcome State Fault Refusal := command (pathWaitExpiryAct p) s

/-- DEST_HEAD_WRITE (R110). The consumer advancing DEST_HEAD frees ring slots so waiting bands can be written. -/
def execDestHeadWrite (f : Fin 32) (p : Fin 16) (v : Word) (s : State) : Host.Outcome State Fault Refusal :=
  command (hostReg f (Reg.SFE.DEST_HEAD p) v) s

/-- GATE_EDGE (R101). A filtered gate edge opens or begins closing an item on the paths that name it. -/
def execGateEdge (gate : Fin 16) (level : Bool) (s : State) : Host.Outcome State Fault Refusal :=
  command (gateEdgeAct gate level) s

/-- PATH_OPEN (R101). PATH_CMD.OPEN opens an item on a software-itemised path. -/
def execPathOpen (f : Fin 32) (p : Fin 16) (v : Word) (s : State) : Host.Outcome State Fault Refusal :=
  command (hostReg f (Reg.SFE.PATH_CMD p) (v ||| 1)) s

/-- PATH_CLOSE (R101). PATH_CMD.CLOSE closes the item on a software-itemised path. -/
def execPathClose (f : Fin 32) (p : Fin 16) (v : Word) (s : State) : Host.Outcome State Fault Refusal :=
  command (hostReg f (Reg.SFE.PATH_CMD p) (v ||| 2)) s

/-- PATH_ENABLE (R99). Setting PATH_CTRL.ENABLE opens the path's streams and starts capture if the ingest budget
allows. -/
def execPathEnable (f : Fin 32) (p : Fin 16) (v : Word) (s : State) : Host.Outcome State Fault Refusal :=
  command (hostReg f (Reg.SFE.PATH_CTRL p) (v ||| 1)) s

/-- PATH_DISABLE (R105). Clearing ENABLE stops the path and closes an open item with a zero-length INVALID unit. -/
def execPathDisable (f : Fin 32) (p : Fin 16) (v : Word) (s : State) : Host.Outcome State Fault Refusal :=
  command (hostReg f (Reg.SFE.PATH_CTRL p) (v &&& ~~~ 1)) s

/-- ENC_TIMER_TRIGGER (R117). With TRIG_MODE 1, the ENC timer at TIME_PERIOD triggers a line on the path. -/
def execEncTimerTrigger (n : Fin 8) (s : State) : Host.Outcome State Fault Refusal := command (encTimerAct n) s

/-- CXP_LINK_DISCOVERY (R121). A CoaXPress link gains lock and the camera is discovered, setting LOCK and DISCOVERED.
-/
def execCxpLinkDiscovery (n : Fin 8) (link : Fin 4) (speed : BitVec 4) (s : State) : Host.Outcome State Fault Refusal :=
  simply (cxpDiscoveryAct n link speed.toNat) s

end Sys2Proof.Machine
end

