-- ==== Sys2Proof/Machine/CmdContext.lean ====
section
/-! DEFINITION. Meanings of commands: contexts, commits, pre-emption (10_contexts_and_scheduling).
Each is its own program of changes inside the frame of `Machine/Events.lean`. -/

namespace Sys2Proof.Machine

/-- COMMIT_POINT (R416). A command or part has passed its checks and is ineligible for further re-runs, and is staged.
-/
def execCommitPoint (id : Nat) (m : PartEnd) (s : State) : Host.Outcome State Fault Refusal :=
  command (commitPointAct id m) s

/-- COMMIT (R418). A request commits, writing memory and KV results, unit headers, freeing input slots and writing
completion entries. -/
def execCommit (id : Nat) (s : State) : Host.Outcome State Fault Refusal := command (commitAct id) s

/-- LCT_EXPIRY (R421). At the LCT with DL_ABORT 1 an uncommitted command is stopped and completes TIMEOUT. -/
def execLctExpiry (id : Nat) (s : State) : Host.Outcome State Fault Refusal := command (lctExpiryAct id) s

/-- SUBMISSION_DOORBELL (R401). A doorbell write sets a context's submission tail for admission, or is dropped or
ignored. -/
def execSubmissionDoorbell (f : Fin 32) (c : BitVec 8) (v : Word) (s : State) : Host.Outcome State Fault Refusal :=
  command (.get fun s => .when (s.fnEnabled f) (submissionDoorbellAct f c.toNat v)) s

/-- COMPLETION_DOORBELL (R401). A doorbell write sets a context's completion head, freeing ring room for waiting
commits. -/
def execCompletionDoorbell (f : Fin 32) (c : BitVec 8) (v : Word) (s : State) : Host.Outcome State Fault Refusal :=
  command (.get fun s => .when (s.fnEnabled f) (completionDoorbellAct f c.toNat v)) s

/-- CTX_START (R400). CTX_CMD START checks a context record and sets it RUNNING or reports a reason. -/
def execCtxStart (f : Fin 32) (v : Word) (s : State) : Host.Outcome State Fault Refusal :=
  command (hostReg f Reg.DISP.CTX_CMD (setBits v 3 0 1)) s

/-- CTX_STOP (R400). CTX_CMD STOP ends admission for a context. -/
def execCtxStop (f : Fin 32) (v : Word) (s : State) : Host.Outcome State Fault Refusal :=
  command (hostReg f Reg.DISP.CTX_CMD (setBits v 3 0 2)) s

/-- CTX_TEARDOWN (R446). CTX_CMD TEARDOWN stops every admitted command of a context without commit and releases its
locks and mask requests. -/
def execCtxTeardown (f : Fin 32) (v : Word) (s : State) : Host.Outcome State Fault Refusal :=
  command (hostReg f Reg.DISP.CTX_CMD (setBits v 3 0 3)) s

/-- TEARDOWN_COMPLETE (R446). Teardown finishes, the context becomes FREE and source 101 is raised. -/
def execTeardownComplete (c : BitVec 8) (s : State) : Host.Outcome State Fault Refusal :=
  command (teardownCompleteAct c.toNat) s

/-- CTX_REPORT (R447). CTX_CMD REPORT writes the interference report of every running context. -/
def execCtxReport (f : Fin 32) (v : Word) (s : State) : Host.Outcome State Fault Refusal :=
  command (hostReg f Reg.DISP.CTX_CMD (setBits v 3 0 4)) s

/-- REPORT_PERIOD_EXPIRY (R447). At the end of each REPORT_MS period the interference reports are written. -/
def execReportPeriodExpiry (s : State) : Host.Outcome State Fault Refusal := command reportsAct s

/-- CTX_VT_LO_READ (R449). A read of CTX_VT_LO latches the selected context's upper virtual time. -/
def execCtxVtLoRead (f : Fin 32) (s : State) : Host.Outcome State Fault Refusal :=
  simply (hostReadReg f Reg.DISP.CTX_VT_LO) s

/-- PREEMPT (R432). A ready class 2 or zero-slack class 1 command with no idle engine pre-empts a victim by frog or
save. -/
def execPreempt (s : State) : Host.Outcome State Fault Refusal := command preemptAct s

/-- CHEAP_POINT_REACHED (R433). A victim reaching its cheap point drains and its save begins. -/
def execCheapPointReached (id : Nat) (j : Fin 7) (s : State) : Host.Outcome State Fault Refusal :=
  command (cheapPointAct id j) s

/-- SAVE_DONE (R441). The saved live range is written and the command returns to ready. -/
def execSaveDone (id : Nat) (s : State) : Host.Outcome State Fault Refusal := command (saveDoneAct id) s

/-- RESTORE_DONE (R441). A saved command's live range is read back and it continues from its cheap point. -/
def execRestoreDone (id : Nat) (s : State) : Host.Outcome State Fault Refusal := command (restoreDoneAct id) s

/-- REMOTE_WAIT_TIMEOUT (R437). A remote wait exceeding REMOTE_TO is abandoned and the command frogged. -/
def execRemoteWaitTimeout (id : Nat) (s : State) : Host.Outcome State Fault Refusal := command (remoteTimeoutAct id) s

/-- QUARANTINE_ARRIVAL (R438). Data for an abandoned or superseded remote wait is quarantined and discarded. -/
def execQuarantineArrival (id : Nat) (gen : Nat) (s : State) : Host.Outcome State Fault Refusal :=
  command (quarantineAct id gen) s

end Sys2Proof.Machine
end

