-- ==== Sys2Proof/Machine/CmdDecision.lean ====
section
/-! DEFINITION. Meanings of commands: the item monitor and sweeps.
Each is its own program of changes inside the frame of `Machine/Events.lean`. -/

namespace Sys2Proof.Machine

/-- SWEEP_OPEN_MESSAGE (R361). A follower matches an arriving sweep-open message to a profile and opens the item on
its ITEM_SRC 3 paths. -/
def execSweepOpenMessage (item : BitVec 48) (stamp : DWord) (prof : BitVec 6) (s : State) : Host.Outcome State Fault Refusal :=
  command (sweepOpenAct item stamp.toNat prof.toNat) s

/-- SWEEP_CLOSE_MESSAGE (R361). A follower closes the item at the matching sweep-close message. -/
def execSweepCloseMessage (item : BitVec 48) (_stamp : DWord) (prof : BitVec 6) (s : State) : Host.Outcome State Fault Refusal :=
  command (sweepCloseAct item prof.toNat) s

/-- T_SW_EXPIRY (R344). At T_sw an undecided item with a ready fallback is switched to it. -/
def execTSwExpiry (item : BitVec 48) (s : State) : Host.Outcome State Fault Refusal := command (tSwAct item) s

/-- T_EMIT_EXPIRY (R352). At T_emit an item with no accepted record is rejected for DEADLINE. -/
def execTEmitExpiry (item : BitVec 48) (s : State) : Host.Outcome State Fault Refusal := command (tEmitAct item) s

/-- HOLD_LAST_RELEASE (R350). A committed record waiting for HOLD_LAST is emitted when every capture stream's LAST has
passed. -/
def execHoldLastRelease (item : BitVec 48) (s : State) : Host.Outcome State Fault Refusal :=
  command (holdLastAct item) s

/-- SWEEP_CANDIDATE_ARRIVE (R363). A follower's candidate arrives at the opener and the merge runs once all have
arrived. -/
def execSweepCandidateArrive (dev : BitVec 3) (item : BitVec 48) (r : DecisionRecord) (invalid : Bool) (s : State) : Host.Outcome State Fault Refusal :=
  command (candidateAct dev.toNat item r invalid) s

end Sys2Proof.Machine
end

