-- ==== Sys2Proof/Machine/CmdEngine.lean ====
section
/-! DEFINITION. Meanings of commands: engines, few-channel engines, placement of commands and the block commands.
Each is its own program of changes inside the frame of `Machine/Events.lean`. -/

namespace Sys2Proof.Machine

/-- ENGINE_RUN (R161). Setting CTRL.RUN lets the engine take commands. -/
def execEngineRun (f : Fin 32) (p : Fin 36) (v : Word) (s : State) : Host.Outcome State Fault Refusal :=
  command (hostReg f (Reg.ENG.CTRL p) (v ||| 1)) s

/-- ENGINE_DRAIN (R161). Setting CTRL.DRAIN lets the running command finish and then takes no more. -/
def execEngineDrain (f : Fin 32) (p : Fin 36) (v : Word) (s : State) : Host.Outcome State Fault Refusal :=
  command (hostReg f (Reg.ENG.CTRL p) (v ||| 2)) s

/-- ENG_DIAG_START (R163). DIAG_CMD.START runs the array diagnostic on an idle or spare engine, or is dropped. -/
def execEngDiagStart (f : Fin 32) (p : Fin 36) (v : Word) (s : State) : Host.Outcome State Fault Refusal :=
  command (hostReg f (Reg.ENG.DIAG_CMD p) (v ||| 1)) s

/-- FCE_DIAG_START (R164). FCE DIAG_CMD.START runs the FCE diagnostic under the engine's condition. -/
def execFceDiagStart (f : Fin 32) (st : Fin 4) (v : Word) (s : State) : Host.Outcome State Fault Refusal :=
  command (hostReg f (Reg.FCE.DIAG_CMD st) (v ||| 1)) s

/-- COMMAND_PLACE (R426). When an engine or block is free or a command becomes ready, the dispatcher orders ready
commands and places one, starting its first load or operation. -/
def execCommandPlace (s : State) : Host.Outcome State Fault Refusal := command commandPlaceAct s

/-- EMPTY_COMMAND_COMPLETE (R152). A command with a zero size field completes EMPTY within 64 cycles, emitting
zero-length units. -/
def execEmptyCommandComplete (id : Nat) (s : State) : Host.Outcome State Fault Refusal :=
  command (emptyCompleteAct id) s

/-- ZERO_K_COMPLETE (R153). A MATMUL with K zero writes bias-only results and completes OK. -/
def execZeroKComplete (p : Fin 36) (s : State) : Host.Outcome State Fault Refusal := command (zeroKAct p) s

/-- PRE_PASS_DONE (R178). The vector quantisation pre-pass ends and the first stationary load begins. -/
def execPrePassDone (p : Fin 36 × StoreRead) (s : State) : Host.Outcome State Fault Refusal := command (prePassAct p.1 p.2) s

/-- SHAPE_CHANGE (R133). After the array drains, the engine reconfigures to a new shape in 16 cycles. -/
def execShapeChange (p : Fin 36) (s : State) : Host.Outcome State Fault Refusal := command (shapeChangeAct p) s

/-- STATIONARY_LOAD_DONE (R126). A tile's 128-cycle stationary load ends and weight rows begin to issue. -/
def execStationaryLoadDone (p : Fin 36) (rd : StoreRead) (s : State) : Host.Outcome State Fault Refusal :=
  command (loadDoneAct p rd) s

/-- ENGINE_STORE_SCRUB (R151). The engine store's scrub reads words in idle bank cycles. -/
def execEngineStoreScrub (p : Fin 36) (w : BitVec 19) (e : EccError) (s : State) : Host.Outcome State Fault Refusal :=
  command (esScrubAct p w.toNat e) s

/-- ROW_CHECK (R124). 260 cycles after issue a weight row is checked, rescaled and accumulated, or held for re-issue.
-/
def execRowCheck (p : Fin 36) (row : Nat) (found : StoreRead × CheckAlt) (s : State) : Host.Outcome State Fault Refusal :=
  command (rowCheckAct p row found.1 found.2) s

/-- ARRAY_DIAGNOSTIC_DONE (R140). The array diagnostic ends, locating the fault for repair or sending the engine to
FAULT. -/
def execArrayDiagnosticDone (p : Fin 36) (r : DiagResult) (spareOk : Bool) (s : State) : Host.Outcome State Fault Refusal :=
  command (diagDoneAct p r spareOk) s

/-- TILE_END_CHECK (R137). 260 cycles after the checksum weight row, the tile-end check passes or frogs the command.
-/
def execTileEndCheck (p : Fin 36) (alt : CheckAlt) (s : State) : Host.Outcome State Fault Refusal :=
  command (tileEndAct p alt) s

/-- VECTOR_INSTRUCTION (R148). The vector unit executes an instruction with a residue check. -/
def execVectorInstruction (p : Fin 36) (ix : VecInstr × StoreRead × List (Nat × Int)) (s : State) :
    Host.Outcome State Fault Refusal :=
  command (vectorAct p ix.1 ix.2.1 ix.2.2) s

/-- DUMMY_RAMP_STEP (R135). Every RAMP_STEP cycles dummy issue is raised or lowered by one eighth. -/
def execDummyRampStep (p : Fin 36) (s : State) : Host.Outcome State Fault Refusal := command (dummyRampAct p) s

/-- TRANS_THRESH_REACHED (R162). Corrected mismatches reaching TRANS_THRESH within one second raise source 128 + 4p +
3. -/
def execTransThreshReached (u : ArrayUnit) (s : State) : Host.Outcome State Fault Refusal :=
  command (transThreshAct u) s

/-- FCE_WEIGHT_LOAD_DONE (R157). The FCE weight bank finishes loading before the first output. -/
def execFceWeightLoadDone (st : Fin 4) (parityError : Bool) (s : State) : Host.Outcome State Fault Refusal :=
  command (fceLoadAct st parityError) s

/-- FCE_OUTPUT_POSITION (R157). The FCE produces an output position and compares its checksum channel. -/
def execFceOutputPosition (st : Fin 4) (found : Bool × List (Fin 66 × Int)) (s : State) : Host.Outcome State Fault Refusal :=
  command (fcePositionAct st found.1 found.2) s

/-- FCE_DIAGNOSTIC_DONE (R158). The FCE diagnostic ends, switching in the spare column or entering FAULT. -/
def execFceDiagnosticDone (st : Fin 4) (located : Option (BitVec 7)) (s : State) : Host.Outcome State Fault Refusal :=
  command (fceDiagAct st located) s

/-- AUG_TEST_GO (R243). A write of 1 to TEST_CMD.GO places mix(TEST_SEED, TEST_INDEX, TEST_DRAW) in TEST_OUT within 16
cycles. -/
def execAugTestGo (f : Fin 32) (v : Word) (s : State) : Host.Outcome State Fault Refusal :=
  simply (hostReg f Reg.AUG.TEST_CMD (v ||| 1)) s

end Sys2Proof.Machine
end

