-- ==== Sys2Proof/Machine/CmdFunction.lean ====
section
/-! DEFINITION. Meanings of commands: functions, mailboxes and the gatherer (11_functions_interrupts_resets).
Each is its own program of changes inside the frame of `Machine/Events.lean`. -/

namespace Sys2Proof.Machine

/-- MBOX_SEND (R455). MBOX_CMD.SEND marks the outgoing mailbox full and notifies the receiver. -/
def execMboxSend (f : Fin 32) (g : Fin 32) (v : Word) (s : State) : Host.Outcome State Fault Refusal :=
  simply (hostReg f (Reg.FUNC.MBOX_CMD g) (v ||| 1)) s

/-- MBOX_ACK (R455). MBOX_CMD.ACK empties the incoming mailbox and notifies the sender. -/
def execMboxAck (f : Fin 32) (g : Fin 32) (v : Word) (s : State) : Host.Outcome State Fault Refusal :=
  simply (hostReg f (Reg.FUNC.MBOX_CMD g) (v ||| 2)) s

/-- VF_FLR (R458). A Function Level Reset of VF f tears down its contexts and clears its gatherer and FUNC state. -/
def execVfFlr (g : Fin 32) (s : State) : Host.Outcome State Fault Refusal := command (vfFlrAct g) s

/-- PF_FLR (R461). A Function Level Reset of the PF resets every enabled VF, the PF's contexts and FUNC[0], and masks
every source. -/
def execPfFlr (s : State) : Host.Outcome State Fault Refusal := command pfFlrAct s

/-- VF_ENABLE_CLEAR (R461). Clearing VF Enable acts as a Function Level Reset of every enabled VF. -/
def execVfEnableClear (s : State) : Host.Outcome State Fault Refusal := command vfEnableClearAct s

/-- IRQ_EOI (R469). A write to IRQ_EOI ends service of a vector and re-samples its level source. -/
def execIrqEoi (f : Fin 32) (g : Fin 32) (v : Word) (s : State) : Host.Outcome State Fault Refusal :=
  simply (hostReg f (Reg.FUNC.IRQ_EOI g) v) s

/-- SRC_PEND_SET (R466). Each 1 in SRC_PEND_SET sets a source's software pending bit. -/
def execSrcPendSet (f : Fin 32) (g : Fin 4) (w : Fin 8) (v : Word) (s : State) : Host.Outcome State Fault Refusal :=
  simply (hostReg f (Reg.GATH.SRC_PEND_SET g w) v) s

/-- SRC_PEND_CLR (R466). Each 1 in SRC_PEND_CLR clears a source's edge latch and software pending bit. -/
def execSrcPendClr (f : Fin 32) (g : Fin 4) (w : Fin 8) (v : Word) (s : State) : Host.Outcome State Fault Refusal :=
  simply (hostReg f (Reg.GATH.SRC_PEND_CLR g w) v) s

/-- SRC_MASK_SET (R466). Each 1 in SRC_MASK_SET masks a source. -/
def execSrcMaskSet (f : Fin 32) (g : Fin 4) (w : Fin 8) (v : Word) (s : State) : Host.Outcome State Fault Refusal :=
  simply (hostReg f (Reg.GATH.SRC_MASK_SET g w) v) s

/-- SRC_MASK_CLR (R466). Each 1 in SRC_MASK_CLR unmasks a source. -/
def execSrcMaskClr (f : Fin 32) (g : Fin 4) (w : Fin 8) (v : Word) (s : State) : Host.Outcome State Fault Refusal :=
  simply (hostReg f (Reg.GATH.SRC_MASK_CLR g w) v) s

/-- SRC_STORM_CLEAR (R474). Each 1 written to SRC_STORM clears that bit and leaves the mask set. -/
def execSrcStormClear (f : Fin 32) (g : Fin 4) (w : Fin 8) (v : Word) (s : State) : Host.Outcome State Fault Refusal :=
  simply (hostReg f (Reg.GATH.SRC_STORM g w) v) s

/-- SRC_CFG_WRITE (R467). A write to SRC_CFG is accepted only while the source is masked and not in service. -/
def execSrcCfgWrite (f : Fin 32) (g : Fin 4) (ix : BitVec 8) (v : Word) (s : State) : Host.Outcome State Fault Refusal :=
  simply (hostReg f (Reg.GATH.SRC_CFG g ix.toNat) v) s

/-- VEC_MASK_SET (R483). Each 1 in VEC_MASK_SET masks a completion channel. -/
def execVecMaskSet (f : Fin 32) (g : Fin 32) (hi : Bool) (v : Word) (s : State) : Host.Outcome State Fault Refusal :=
  simply (hostReg f (if hi then Reg.FUNC.VEC_MASK_SET_HI g else Reg.FUNC.VEC_MASK_SET_LO g) v) s

/-- VEC_MASK_CLR (R483). Each 1 in VEC_MASK_CLR unmasks a completion channel. -/
def execVecMaskClr (f : Fin 32) (g : Fin 32) (hi : Bool) (v : Word) (s : State) : Host.Outcome State Fault Refusal :=
  simply (hostReg f (if hi then Reg.FUNC.VEC_MASK_CLR_HI g else Reg.FUNC.VEC_MASK_CLR_LO g) v) s

/-- GATHERER_SELECT (R468). For an idle target with pending unmasked sources, the gatherer selects the lowest and
sends one MSI-X message. -/
def execGathererSelect (g : Fin 32) (vec : BitVec 6) (s : State) : Host.Outcome State Fault Refusal :=
  simply (gathererSelectAct g vec.toNat) s

/-- STORM_WINDOW_EXPIRY (R473). The storm window closes and its count restarts. -/
def execStormWindowExpiry (src : BitVec 10) (s : State) : Host.Outcome State Fault Refusal :=
  simply (stormWindowExpiryAct src.toNat) s

/-- MODERATION_TIMER_EXPIRY (R475). A completion channel's moderation timer expires and the channel becomes pending.
-/
def execModerationTimerExpiry (g : Fin 32) (vec : BitVec 6) (s : State) : Host.Outcome State Fault Refusal :=
  simply (moderationTimerExpiryAct g vec.toNat) s

/-- HELD_MESSAGE_RELEASE (R477). A held MSI-X message is sent once the function is in D0 with MSI-X enabled. -/
def execHeldMessageRelease (g : Fin 32) (vec : BitVec 6) (s : State) : Host.Outcome State Fault Refusal :=
  simply (heldMessageReleaseAct g vec.toNat) s

/-- LINK_REACHES_L0 (R477). The PCIe link reaching L0 releases WAKE_N and sends PM_PME for a pending message. -/
def execLinkReachesL0 (s : State) : Host.Outcome State Fault Refusal := simply linkReachesL0Act s

/-- PCIE_CONFIG_WRITE (R677). A configuration write sets VF Enable and NumVFs (with ARI_LIMIT), D-states, MSI-X
enable, masks or PME_En. -/
def execPcieConfigWrite (g : Fin 32) (w : ConfigWrite) (s : State) : Host.Outcome State Fault Refusal :=
  command (pcieConfigAct g w) s

end Sys2Proof.Machine
end

