-- ==== Sys2Proof/Machine/CmdHost.lean ====
section
/-! DEFINITION. Meanings of commands: host accesses to BAR0, BAR2 and BAR4 that no register row of their own names (17_host_interface_registers).
Each is its own program of changes inside the frame of `Machine/Events.lean`. -/

namespace Sys2Proof.Machine

/-- REGISTER_WRITE (R8). A host write to a register that has no row of its own is accepted, or dropped and logged,
under its access code and then journaled. -/
def execRegisterWrite (f : Fin 32) (addr : BitVec 26) (data : List Byte) (s : State) : Host.Outcome State Fault Refusal :=
  command (bar0Write f addr.toNat data) s

/-- READ_CLEAR (R8). A full 32-bit read of an RC register returns its value and then clears it. -/
def execReadClear (f : Fin 32) (addr : BitVec 26) (s : State) : Host.Outcome State Fault Refusal :=
  command (bar0Read f addr.toNat 4) s

/-- UNPOPULATED_ACCESS (R682). An access to an unpopulated BAR0 slot reads all ones or is dropped, is recorded in
UNPOP_LOG and raises source 23. -/
def execUnpopulatedAccess (addr : BitVec 26) (isRead : Bool) (s : State) : Host.Outcome State Fault Refusal :=
  simply (unpopulatedAct (addr.toNat / 4096) isRead) s

/-- UNALIGNED_READ (R681). A BAR0 read that crosses a register boundary unaligned is answered with a Completer Abort
and counted. -/
def execUnalignedRead (addr : BitVec 26) (n : Nat) (s : State) : Host.Outcome State Fault Refusal :=
  simply (bar0Read 0 addr.toNat n) s

/-- BAR2_INVALID_WRITE (R679). A BAR2 write outside the doorbells, narrow or at a reserved offset is dropped and
logged. -/
def execBar2InvalidWrite (f : Fin 32) (off : BitVec 16) (n : Nat) (s : State) : Host.Outcome State Fault Refusal :=
  simply (bar2InvalidAct f off.toNat n) s

/-- BAR4_WRITE (R680). A BAR4 write to the commons honours byte enables, and is dropped whole when it touches
C2_REGION or the enabled journal region. -/
def execBar4Write (addr : BitVec 27) (data : List (Option Byte) × List (BitVec 45 × EccError)) (s : State) :
    Host.Outcome State Fault Refusal :=
  command (bar4WriteAct addr.toNat data.1 data.2) s

/-- BAR4_READ (R680). A BAR4 read returns commons data, with the poisoned-data indication for a poisoned word. -/
def execBar4Read (addr : BitVec 27) (n : Nat × List (BitVec 45 × EccError)) (s : State) :
    Host.Outcome State Fault Refusal :=
  command (bar4ReadAct addr.toNat n.1 n.2) s

/-- LOCK_CMD (R687). A write to TOP.LOCK_CMD with the key sets the driver lock on a lockable page and reports the
outcome in LOCK_RESULT. -/
def execLockCmd (f : Fin 32) (v : Word) (s : State) : Host.Outcome State Fault Refusal :=
  simply (hostReg f Reg.TOP.LOCK_CMD v) s

/-- IRQ_PEND_SET (R683). Each 1 written to a page's IRQ_PEND_SET sets that IRQ_PEND bit. -/
def execIrqPendSet (f : Fin 32) (slot : BitVec 14) (v : Word) (s : State) : Host.Outcome State Fault Refusal :=
  simply (headerSlot f slot.toNat 0x014 v) s

/-- IRQ_PEND_CLR (R683). Each 1 written to a page's IRQ_PEND_CLR clears that IRQ_PEND bit. -/
def execIrqPendClr (f : Fin 32) (slot : BitVec 14) (v : Word) (s : State) : Host.Outcome State Fault Refusal :=
  simply (headerSlot f slot.toNat 0x018 v) s

/-- IRQ_MASK_SET (R683). Each 1 written to a page's IRQ_MASK_SET sets that IRQ_MASK bit. -/
def execIrqMaskSet (f : Fin 32) (slot : BitVec 14) (v : Word) (s : State) : Host.Outcome State Fault Refusal :=
  simply (headerSlot f slot.toNat 0x020 v) s

/-- IRQ_MASK_CLR (R683). Each 1 written to a page's IRQ_MASK_CLR clears that IRQ_MASK bit. -/
def execIrqMaskClr (f : Fin 32) (slot : BitVec 14) (v : Word) (s : State) : Host.Outcome State Fault Refusal :=
  simply (headerSlot f slot.toNat 0x024 v) s

end Sys2Proof.Machine
end

