-- ==== Sys2Proof/Machine/CmdIsland.lean ====
section
/-! DEFINITION. Meanings of commands: the weighing island and its page.
Each is its own program of changes inside the frame of `Machine/Events.lean`. -/

namespace Sys2Proof.Machine

/-- REQ_SEND (R551). REQ_CMD.SEND attaches REQ_SEQ and the TSC and sends the request record to the island. -/
def execReqSend (f : Fin 32) (v : Word) (s : State) : Host.Outcome State Fault Refusal :=
  simply (hostReg f Reg.HAL.REQ_CMD (v ||| 1)) s

/-- SET (R557). An island SET request checks and makes an audited parameter change. -/
def execHalSet (s : State) : Host.Outcome State Fault Refusal := always halSetAct s

/-- AUDIT_READ (R555). An island AUDIT_READ request returns one committed audit entry. -/
def execHalAuditRead (s : State) : Host.Outcome State Fault Refusal := always halAuditAct s

/-- IDENT (R547). An island IDENT request recomputes the firmware checksum and reports identity. -/
def execHalIdent (crc : Word) (s : State) : Host.Outcome State Fault Refusal := always (halIdentAct crc) s

/-- ZERO (R554). An island ZERO request sets zero within ZERO_RANGE when stable. -/
def execHalZero (s : State) : Host.Outcome State Fault Refusal := always halZeroAct s

/-- TARE (R554). An island TARE request sets the tare. -/
def execHalTare (s : State) : Host.Outcome State Fault Refusal := always halTareAct s

/-- TARE_CLEAR (R554). An island TARE_CLEAR request clears the tare. -/
def execHalTareClear (s : State) : Host.Outcome State Fault Refusal := always halTareClearAct s

/-- REPLY_ARRIVE (R553). An island reply lands in REPLY and sets DONE, clearing BUSY. -/
def execReplyArrive (s : State) : Host.Outcome State Fault Refusal := simply replyArriveAct s

/-- WEIGHING_WINDOW_END (R541). At the end of a weighing window the island forms a result record and queues it. -/
def execWeighingWindowEnd (w : Weighing) (s : State) : Host.Outcome State Fault Refusal := always (weighingAct w) s

/-- RESULT_RECORD_ARRIVE (R544). A result record of the given DELAY_US reaches the HAL page, is stamped and written as a
unit or held for the host; a frame whose CRC fails, as the second operand says, is discarded and counted (R565). -/
def execResultRecordArrive (r : Word × Bool) (s : State) : Host.Outcome State Fault Refusal :=
  command (resultArriveAct r.1.toNat r.2) s

/-- RES_POP (R565). RES_POP acknowledges the head result to the island. -/
def execResPop (f : Fin 32) (v : Word) (s : State) : Host.Outcome State Fault Refusal :=
  command (hostReg f Reg.HAL.RES_POP (v ||| 1)) s

/-- STATUS_FRAME_ARRIVE (R535). An island status frame arrives and restores LANE_UP. -/
def execStatusFrameArrive (s : State) : Host.Outcome State Fault Refusal := simply statusFrameAct s

/-- LANE_LOST (R563). Three STATUS_MS periods without a status frame clear LANE_UP and raise source 712. -/
def execLaneLost (s : State) : Host.Outcome State Fault Refusal := simply laneLostAct s

/-- FIRMWARE_CHECK (R547). Every 24 hours the island recomputes its firmware checksum. -/
def execFirmwareCheck (crc : Word) (s : State) : Host.Outcome State Fault Refusal := always (firmwareCheckAct crc) s

/-- ISLAND_START (R562). The island completes its start checks and reaches RUN or ERROR. -/
def execIslandStart (crc : Word) (auditOk : Bool) (convOk : Bool) (s : State) : Host.Outcome State Fault Refusal :=
  always (islandStartAct crc auditOk convOk) s

/-- HAL_RST_N (R534). HAL_RST_N resets the island only. -/
def execHalRstN (s : State) : Host.Outcome State Fault Refusal := always halRstAct s

/-- HAL_POWER_FAIL_WARNING (R559). VDD_HAL below 1.65 V sets the island's power-fail warning. -/
def execHalPowerFailWarning (low : Bool) (s : State) : Host.Outcome State Fault Refusal :=
  always (halPowerFailAct low) s

/-- ISLAND_CLOCK_DEVIATION (R562). The island clock outside ±1% of its internal oscillator puts the island in ERROR.
-/
def execIslandClockDeviation (s : State) : Host.Outcome State Fault Refusal := always islandClockAct s

/-- PARAMETER_GET (R553). An island GET request returns a parameter's value in a reply. -/
def execHalParameterGet (s : State) : Host.Outcome State Fault Refusal := always halGetAct s

end Sys2Proof.Machine
end

