-- ==== Sys2Proof/Machine/CmdKv.lean ====
section
/-! DEFINITION. Meanings of commands: the KV walkers and attention.
Each is its own program of changes inside the frame of `Machine/Events.lean`. -/

namespace Sys2Proof.Machine

/-- ATTENTION_PARTIAL_ARRIVE (R290). A layout partner's partial result arrives for the combining command. -/
def execAttentionPartialArrive (id : Nat) (idx : Fin 8) (u : DUnit) (s : State) : Host.Outcome State Fault Refusal :=
  command (partialArriveAct id idx u) s

/-- EVICTION_SCAN_COMPLETE (R269). A frame-table scan completes and renews the eviction candidate list. -/
def execEvictionScanComplete (st : Fin 4) (s : State) : Host.Outcome State Fault Refusal :=
  command (scanCompleteAct st) s

/-- PAUSED_SEQUENCE_RESUME (R274). A paused sequence is re-admitted when a frame becomes free. -/
def execPausedSequenceResume (s : State) : Host.Outcome State Fault Refusal := command resumeAct s

/-- LAB_MISS_WALK (R262). A LAB miss is sent to the stripe's walker, which reads the page table and frame table. -/
def execLabMissWalk (p : Fin 36) (seq : BitVec 16) (page : BitVec 32) (s : State) : Host.Outcome State Fault Refusal :=
  simply (labMissAct p seq.toNat page.toNat) s

/-- TRANSLATION_FILL (R264). The walker completes a translation and fills the LAB, or refuses it as a page-table
error. -/
def execTranslationFill (w : Fin 4 × Bool) (s : State) : Host.Outcome State Fault Refusal :=
  command (translationFillAct w.1 w.2) s

/-- KVW_ENABLE (R294). Setting KVW_CTRL.ENABLE starts the walkers, or is dropped with an invalid POOL_FMT. -/
def execKvwEnable (f : Fin 32) (st : Fin 4) (v : Word) (s : State) : Host.Outcome State Fault Refusal :=
  command (hostReg f ⟨.KVW, st, 0x040⟩ (v ||| 1)) s

/-- SEQ_RELEASE (R295). SEQ_CMD RELEASE frees every frame of an unlocked sequence and sets it FREE. -/
def execSeqRelease (f : Fin 32) (st : Fin 4) (v : Word) (s : State) : Host.Outcome State Fault Refusal :=
  command (hostReg f ⟨.KVW, st, 0x080⟩ (setBits v 3 0 1)) s

/-- SEQ_TRUNCATE (R295). SEQ_CMD TRUNCATE shortens an unlocked sequence and frees frames beyond it. -/
def execSeqTruncate (f : Fin 32) (st : Fin 4) (v : Word) (s : State) : Host.Outcome State Fault Refusal :=
  command (hostReg f ⟨.KVW, st, 0x080⟩ (setBits v 3 0 2)) s

/-- SEQ_PIN (R295). SEQ_CMD PIN sets PINNED in a page-table entry. -/
def execSeqPin (f : Fin 32) (st : Fin 4) (v : Word) (s : State) : Host.Outcome State Fault Refusal :=
  command (hostReg f ⟨.KVW, st, 0x080⟩ (setBits v 3 0 3)) s

/-- SEQ_UNPIN (R295). SEQ_CMD UNPIN clears PINNED in a page-table entry. -/
def execSeqUnpin (f : Fin 32) (st : Fin 4) (v : Word) (s : State) : Host.Outcome State Fault Refusal :=
  command (hostReg f ⟨.KVW, st, 0x080⟩ (setBits v 3 0 4)) s

end Sys2Proof.Machine
end

