-- ==== Sys2Proof/Machine/CmdLink.lean ====
section
/-! DEFINITION. Meanings of commands: the links between devices.
Each is its own program of changes inside the frame of `Machine/Events.lean`. -/

namespace Sys2Proof.Machine

/-- LINK_ENABLE (R632). LINK_CTRL.ENABLE trains a port and starts discovery. -/
def execLinkEnable (f : Fin 32) (k : Fin 4) (v : Word) (s : State) : Host.Outcome State Fault Refusal :=
  command (hostReg f (Reg.LINK.LINK_CTRL k) (v ||| 1)) s

/-- LINK_TRAINED (R635). A port's lanes are trained, deskewed and FEC-locked, and the port is up. -/
def execLinkTrained (k : Fin 4) (peerDev : BitVec 3) (peerPort : BitVec 2) (delayPs : Word) (s : State) : Host.Outcome State Fault Refusal :=
  command (linkTrainedAct k peerDev.toNat peerPort.toNat delayPs.toNat) s

/-- DEVICE_NUMBERING (R633). After the last port of the group is up, device numbers and routes are assigned. -/
def execDeviceNumbering (peers : List PeerInfo) (s : State) : Host.Outcome State Fault Refusal :=
  command (deviceNumberingAct peers) s

/-- FLIT_RECEIVE (R630). A flit arrives, is acknowledged or replayed from the buffer. -/
def execFlitReceive (k : Fin 4) (fl : Flit) (s : State) : Host.Outcome State Fault Refusal :=
  command (flitReceiveAct k fl) s

/-- LANE_FAILURE (R631). A failed lane is replaced by the spare with replay, or the width reduced. -/
def execLaneFailure (k : Fin 4) (lane : Fin 5) (s : State) : Host.Outcome State Fault Refusal :=
  command (laneFailureAct k lane) s

/-- LANE_WORN (R631). A lane above 10⁻⁵ SER for 100 ms is swapped for the spare. -/
def execLaneWorn (k : Fin 4) (lane : Fin 5) (s : State) : Host.Outcome State Fault Refusal :=
  command (laneWornAct k lane) s

/-- EQUALISATION_UPDATE (R629). Every 10 ms receivers send transmitter coefficient updates. -/
def execEqualisationUpdate (k : Fin 4) (s : State) : Host.Outcome State Fault Refusal :=
  simply (equalisationUpdateAct k) s

/-- LINK_TIMEOUT (R648). No valid flit for LINK_TO takes the port down. -/
def execLinkTimeout (k : Fin 4) (s : State) : Host.Outcome State Fault Refusal := command (linkTimeoutAct k) s

/-- ROUTE_RECOMPUTE (R636). A port going up or down recomputes routes and resends unacknowledged flits. -/
def execRouteRecompute (paths : List RoutePath) (s : State) : Host.Outcome State Fault Refusal :=
  command (routeRecomputeAct paths) s

/-- SYNC_EXCHANGE (R651). Every 1 µs ports exchange sync flits and followers slew toward the master. -/
def execSyncExchange (k : Fin 4) (t1 : DWord) (t2 : DWord) (t3 : DWord) (t4 : DWord) (s : State) : Host.Outcome State Fault Refusal :=
  simply (syncExchangeAct k t1.toNat t2.toNat t3.toNat t4.toNat) s

/-- ALIGNED_SET (R653). Offset within ±2 ns for 1 ms sets ALIGNED and clears COARSE. -/
def execAlignedSet (s : State) : Host.Outcome State Fault Refusal := simply alignedSetAct s

/-- REMOTE_ACCESS_REQUEST (R640). A remote write or read is accepted inside a window or refused. -/
def execRemoteAccessRequest (dev : BitVec 3) (r : RemoteAccess) (s : State) : Host.Outcome State Fault Refusal :=
  command (remoteAccessAct dev.toNat r) s

/-- IMPORT_UNIT_ARRIVE (R638). A remote unit enters its import stream's ring, or is discarded as an import miss. -/
def execImportUnitArrive (u : DUnit) (s : State) : Host.Outcome State Fault Refusal := command (importUnitArriveAct u) s

end Sys2Proof.Machine
end

