-- ==== Sys2Proof/Machine/CmdMotion.lean ====
section
/-! DEFINITION. Meanings of commands: SSI, TSN and the closed-loop unit.
Each is its own program of changes inside the frame of `Machine/Events.lean`. -/

namespace Sys2Proof.Machine

/-- SSI_SAMPLE (R396). SSI_CMD.SAMPLE issues one software sample-set trigger. -/
def execSsiSample (f : Fin 32) (v : Word) (s : State) : Host.Outcome State Fault Refusal :=
  simply (hostReg f Reg.SSI.SSI_CMD (v ||| 1)) s

/-- SSI_TRIGGER (R368). A trigger starts the clock bursts of the sample set and latches the encoder counts. -/
def execSsiTrigger (s : State) : Host.Outcome State Fault Refusal := simply ssiTriggerAct s

/-- SSI_BURST_DONE (R371). The sample set's bursts end and one sample-set unit is delivered. -/
def execSsiBurstDone (frames : List SsiFrame) (s : State) : Host.Outcome State Fault Refusal :=
  command (ssiBurstDoneAct frames) s

/-- TSN_FRAME_RECEIVE (R376). A received frame matching a stream filter becomes a unit, subject to meter, gate and
802.1CB recovery. -/
def execTsnFrameReceive (t : Fin 4) (fr : TsnFrame) (s : State) : Host.Outcome State Fault Refusal :=
  command (tsnFrameAct t fr) s

/-- TSN_SYNC_RECEIVE (R378). A received Sync updates the port's TSC to 802.1AS relation. -/
def execTsnSyncReceive (t : Fin 4) (asTime : DWord) (rate : Int) (interval : Word) (pdelay : Word) (s : State) : Host.Outcome State Fault Refusal :=
  simply (tsnSyncAct t asTime.toNat rate interval.toNat pdelay.toNat) s

/-- TSN_SYNC_LOSS (R381). Three Sync intervals without Sync clear AS_SYNC and raise source 512 + 8t + 1. -/
def execTsnSyncLoss (t : Fin 4) (s : State) : Host.Outcome State Fault Refusal := simply (tsnSyncLossAct t) s

/-- TSN_LINK_DOWN (R395). A TSN port's link goes down and raises source 512 + 8t. -/
def execTsnLinkDown (t : Fin 4) (s : State) : Host.Outcome State Fault Refusal := command (tsnLinkDownAct t) s

/-- TSN_LINK_UP (R375). A TSN port's link comes up and preemption is verified. -/
def execTsnLinkUp (t : Fin 4) (verified : Bool) (s : State) : Host.Outcome State Fault Refusal :=
  command (tsnLinkUpAct t verified) s

/-- GCL_APPLY (R395). GCL_CMD APPLY loads a new gate control list to take effect at the next base-time multiple. -/
def execGclApply (f : Fin 32) (t : Fin 4) (v : Word) (s : State) : Host.Outcome State Fault Refusal :=
  command (hostReg f (Reg.TSN.GCL_CMD t) (v ||| 1)) s

/-- GCL_ENTRY_EXPIRY (R375). A gate control list interval ends and the next gate state takes effect, releasing waiting
frames. -/
def execGclEntryExpiry (t : Fin 4) (s : State) : Host.Outcome State Fault Refusal := command (gclExpiryAct t) s

/-- LOOP_ENABLE (R382). Setting LOOP_CTRL.ENABLE starts the loop's cycles from the first T_k at least 10 µs later. -/
def execLoopEnable (f : Fin 32) (l : Fin 8) (v : Word) (s : State) : Host.Outcome State Fault Refusal :=
  command (hostReg f (Reg.CEU.LOOP_CTRL l) (v ||| 1)) s

/-- LOOP_DISABLE (R392). Clearing LOOP_CTRL.ENABLE stops the loop; a frame not yet launched is not sent. -/
def execLoopDisable (f : Fin 32) (l : Fin 8) (v : Word) (s : State) : Host.Outcome State Fault Refusal :=
  command (hostReg f (Reg.CEU.LOOP_CTRL l) (v &&& ~~~ 1)) s

/-- CEU_STROBE (R382). At T_k + STROBE_OFS the loop drives its 1 µs strobe pulse. -/
def execCeuStrobe (l : Fin 8) (s : State) : Host.Outcome State Fault Refusal := command (ceuStrobeAct l) s

/-- CEU_SAMPLE_TRIGGER (R382). At T_k + SAMPLE_OFS the loop triggers the SSI sample set. -/
def execCeuSampleTrigger (l : Fin 8) (s : State) : Host.Outcome State Fault Refusal := simply (ceuSampleAct l) s

/-- CEU_CUTOFF (R383). At the cutoff the CEU selects the newest committed command unit and forms the frame. -/
def execCeuCutoff (l : Fin 8) (s : State) : Host.Outcome State Fault Refusal := command (ceuCutoffAct l) s

/-- CEU_LAUNCH (R389). At the launch time the command frame is transmitted. -/
def execCeuLaunch (l : Fin 8) (s : State) : Host.Outcome State Fault Refusal := command (ceuLaunchAct l) s

/-- PERC_CLOSE_EXPIRY (R390). At T_k + PERC_CLOSE with no perception unit, the cycle is a supervision failure. -/
def execPercCloseExpiry (l : Fin 8) (s : State) : Host.Outcome State Fault Refusal := command (percCloseAct l) s

/-- CB_HISTORY_RESET (R395). After RESET_MS of silence on a recovered stream, the 802.1CB recovery history is reset.
-/
def execCbHistoryReset (t : Fin 4) (ix : Fin 32) (s : State) : Host.Outcome State Fault Refusal :=
  simply (cbResetAct t ix) s

/-- GCL_DATA_WRITE (R395). A GCL_DATA write stores a gate control list entry and raises GCL_ADDR by one. -/
def execGclDataWrite (f : Fin 32) (t : Fin 4) (v : Word) (s : State) : Host.Outcome State Fault Refusal :=
  simply (hostReg f (Reg.TSN.GCL_DATA t) v) s

/-- REL_TSC_LO_READ (R380). A 32-bit read of REL_TSC_LO latches REL_TSC_HI, REL_AS and REL_RATE from one update. -/
def execRelTscLoRead (f : Fin 32) (t : Fin 4) (s : State) : Host.Outcome State Fault Refusal :=
  simply (hostReadReg f (Reg.TSN.REL_TSC_LO t)) s

end Sys2Proof.Machine
end

