-- ==== Sys2Proof/Machine/CmdPin.lean ====
section
/-! DEFINITION. Meanings of commands: the pins.
Each is its own program of changes inside the frame of `Machine/Events.lean`. -/

namespace Sys2Proof.Machine

/-- MUX_CFG_WRITE (R734). A MUX_CFG write detaches the ball's function or is refused with a reason. -/
def execMuxCfgWrite (f : Fin 32) (v : Word) (s : State) : Host.Outcome State Fault Refusal :=
  command (hostReg f Reg.PIN.MUX_CFG v) s

/-- MUX_SWITCH_ATTACH (R735). 100 ns after detach the new function is attached and SWITCH_CNT raised. -/
def execMuxSwitchAttach (b : BitVec 7) (s : State) : Host.Outcome State Fault Refusal :=
  command (muxAttachAct b.toNat) s

/-- PIN_LEVEL_ACCEPT (R737). A ball level stable for FILT is accepted by its input function, setting EVT_PEND and a
pin wake. -/
def execPinLevelAccept (b : BitVec 7) (level : Bool) (s : State) : Host.Outcome State Fault Refusal :=
  command (pinAcceptAct b.toNat level) s

end Sys2Proof.Machine
end

