-- ==== Sys2Proof/Machine/CmdPower.lean ====
section
/-! DEFINITION. Meanings of commands: power, clocks, temperature, sleep and the memory controllers.
Each is its own program of changes inside the frame of `Machine/Events.lean`. -/

namespace Sys2Proof.Machine

/-- CORE_POWER_START (R570). With stages 1 to 4 and VIN_VR in range, VDD_CORE ramps and core power-on reset releases.
-/
def execCorePowerStart (railsOk : Bool) (vinMv : BitVec 16) (straps : BitVec 2) (s : State) : Host.Outcome State Fault Refusal :=
  always (.get fun t => .seq (.when (!t.hw.pwr.coreOn) (.boot fun b => { b with straps := straps.toNat })) (corePowerAct railsOk vinMv.toNat)) s

/-- RAIL_LOST (R571). A monitored rail leaving its range with VDD_CORE on is handled as a power loss. -/
def execRailLost (rail : BitVec 4) (s : State) : Host.Outcome State Fault Refusal := always (railLostAct rail.toNat) s

/-- ILIM_REACHED (R573). Core current at ILIM throttles weight issue on non-class-2 engines. -/
def execIlimReached (s : State) : Host.Outcome State Fault Refusal := simply ilimReachedAct s

/-- AVS_STEP (R574). Every 10 µs the VRC adjusts the VDD_CORE target from monitor slack. -/
def execAvsStep (slackPs : Int) (above1ms : Bool) (s : State) : Host.Outcome State Fault Refusal :=
  command (avsStepAct slackPs above1ms) s

/-- PHASE_FAILURE (R578). A failed regulator phase is taken out of service, ILIM lowered and power capped. -/
def execPhaseFailure (ph : Fin 26) (_short : Bool) (s : State) : Host.Outcome State Fault Refusal :=
  simply (phaseFailureAct ph) s

/-- SPARE_PHASE_IN (R578). A spare phase is soft-started and in service, restoring ILIM. -/
def execSparePhaseIn (s : State) : Host.Outcome State Fault Refusal := simply sparePhaseAct s

/-- SENSE_FAILURE (R579). A failed current sense switches its phase to timing balance. -/
def execSenseFailure (ph : Fin 26) (s : State) : Host.Outcome State Fault Refusal := simply (senseFailureAct ph) s

/-- STRIPE_FREQ_CHANGE (R582). Once the idle PLL locks, the stripe switches frequency at a cycle boundary. -/
def execStripeFreqChange (st : Fin 4) (code : Fin 3) (s : State) : Host.Outcome State Fault Refusal :=
  command (stripeFreqAct st code) s

/-- PLL_LOCK_LOSS (R585). A PLL losing lock raises source 56; a stripe falls back to its other PLL at 1.1 GHz. -/
def execPllLockLoss (pll : Fin 13) (s : State) : Host.Outcome State Fault Refusal := command (pllLossAct pll) s

/-- REF_CLOCK_CHECK (R584). Every 10 µs the reference and always-on clocks are compared. -/
def execRefClockCheck (refPpm : Int) (aonFault : Bool) (s : State) : Host.Outcome State Fault Refusal :=
  command (refCheckAct refPpm aonFault) s

/-- POWER_ESTIMATE (R594). Every 1 µs PWR estimates core power from activity counts. -/
def execPowerEstimate (_activity : List Nat) (iout : BitVec 16) (other : BitVec 16) (s : State) : Host.Outcome State Fault Refusal :=
  command (powerEstimateAct iout.toNat other.toNat) s

/-- EST_CORR_UPDATE (R595). Every 10 ms EST_CORR is updated from measured and estimated power. -/
def execEstCorrUpdate (s : State) : Host.Outcome State Fault Refusal := simply estCorrAct s

/-- CAP_STEP (R597). Every 10 µs PWR applies cap, boost, floors and fixed-frequency rules to clocks. -/
def execCapStep (fast : BitVec 16) (projected : BitVec 16) (s : State) : Host.Outcome State Fault Refusal :=
  command (capStepAct fast.toNat projected.toNat) s

/-- IRL_WINDOW (R589). At each 64-cycle window the issue-rate limiter bounds the change in issue slots. -/
def execIrlWindow (st : Fin 4) (wanted : List Nat) (s : State) : Host.Outcome State Fault Refusal :=
  simply (irlWindowAct st wanted) s

/-- DROOP_DETECT (R592). A droop detector below DROOP_MV stretches every stripe cycle by one quarter. -/
def execDroopDetect (st : Fin 4) (belowMv : BitVec 8) (s : State) : Host.Outcome State Fault Refusal :=
  simply (droopAct st belowMv.toNat) s

/-- STRETCH_END (R592). Clock stretching ends after STRETCH_NS and 64 quiet cycles. -/
def execStretchEnd (st : Fin 4) (cycles : Word) (s : State) : Host.Outcome State Fault Refusal :=
  simply (stretchEndAct st cycles.toNat) s

/-- THERMAL_READ (R604). Every 10 µs the junction sensors are read and thermal limits applied. -/
def execThermalRead (temps : List Int) (s : State) : Host.Outcome State Fault Refusal :=
  always (.get fun s => if s.hw.boot.inReset then thermalHeld temps else thermalAct temps) s

/-- SHIFT_REPORT (R608). Every 1 ms a device reports need, floor and urgency to the time master. -/
def execShiftReport (need : BitVec 9) (s : State) : Host.Outcome State Fault Refusal :=
  simply (shiftReportAct need.toNat) s

/-- SHIFT_ALLOCATE (R609). The time master allocates group caps from the reports. -/
def execShiftAllocate (reports : List PowerReport) (s : State) : Host.Outcome State Fault Refusal :=
  simply (shiftAllocateAct reports) s

/-- ALLOCATION_RECEIVE (R610). A received allocation becomes the device's group cap. -/
def execAllocationReceive (w : BitVec 9) (s : State) : Host.Outcome State Fault Refusal :=
  simply (allocationAct w.toNat) s

/-- ALLOCATION_TIMEOUT (R610). No allocation for 3 ms drops the group cap and raises source 44. -/
def execAllocationTimeout (s : State) : Host.Outcome State Fault Refusal := simply allocationTimeoutAct s

/-- STANDBY (R614). DEV_CMD STANDBY enters STANDBY or reports a reason. -/
def execStandby (f : Fin 32) (v : Word) (s : State) : Host.Outcome State Fault Refusal :=
  command (hostRegWith f Reg.PWR.DEV_CMD (setBits v 3 0 1) (devCmdAct (setBits v 3 0 1) false false)) s

/-- DEEP_SLEEP (R614). DEV_CMD DEEP_SLEEP enters DEEP_SLEEP or reports a reason. -/
def execDeepSleep (f : Fin 32) (v : Word) (linkL2 : Bool) (wakeNow : Bool) (s : State) : Host.Outcome State Fault Refusal :=
  command (hostRegWith f Reg.PWR.DEV_CMD (setBits v 3 0 2) (devCmdAct (setBits v 3 0 2) linkL2 wakeNow)) s

/-- WAKE (R615). DEV_CMD WAKE wakes the device to ACTIVE. -/
def execWake (f : Fin 32) (v : Word) (s : State) : Host.Outcome State Fault Refusal :=
  command (hostRegWith f Reg.PWR.DEV_CMD (setBits v 3 0 3) (devCmdAct (setBits v 3 0 3) false false)) s

/-- WAKE_LINK (R615). The host bringing the link out of L2 wakes the device. -/
def execWakeLink (s : State) : Host.Outcome State Fault Refusal := command wakeLinkAct s

/-- WAKE_TIMER (R615). The TSC reaching WAKE_TSC wakes the device. -/
def execWakeTimer (s : State) : Host.Outcome State Fault Refusal := command wakeTimerAct s

/-- IDLE_ENTRY (R613). With no admitted command and every engine gated or retained, the device becomes IDLE. -/
def execIdleEntry (s : State) : Host.Outcome State Fault Refusal := command idleEntryAct s

/-- CLOCK_GATE_ENTRY (R611). A block idle for 16 cycles is clock-gated. -/
def execClockGateEntry (slot : BitVec 14) (s : State) : Host.Outcome State Fault Refusal :=
  simply (clockGateAct slot.toNat) s

/-- RETENTION_ENTRY (R611). An engine idle for RET_US enters retention. -/
def execRetentionEntry (u : ArrayUnit) (s : State) : Host.Outcome State Fault Refusal := simply (retentionAct u) s

/-- MEMC_POWER_DOWN (R611). An LPDDR5X channel with no access for 1 µs enters power-down. -/
def execMemcPowerDown (m : Fin 8) (s : State) : Host.Outcome State Fault Refusal := simply (memcPowerDownAct m) s

/-- MEMC_SCRUB (R616). The memory controller scrubs rows and corrects or poisons errors. -/
def execMemcScrub (m : Fin 8) (addr : BitVec 33) (e : EccError) (s : State) : Host.Outcome State Fault Refusal :=
  command (memcScrubAct m addr.toNat e) s

/-- DRAM_TEMP_REPORT (R616). The dies' temperature report sets the refresh rate. -/
def execDramTempReport (m : Fin 8) (mult : BitVec 4) (s : State) : Host.Outcome State Fault Refusal :=
  simply (dramTempAct m mult.toNat) s

/-- ILIM_RELEASE (R573). Core current falling to 95% of ILIM ends the issue throttle. -/
def execIlimRelease (s : State) : Host.Outcome State Fault Refusal := simply ilimReleaseAct s

/-- MEMC_PERIODIC_RETRAIN (R617). A memory controller's periodic retraining runs, counting a needed correction or
raising a training failure. -/
def execMemcPeriodicRetrain (m : Fin 8) (corrected : Bool) (failed : Bool) (s : State) : Host.Outcome State Fault Refusal :=
  simply (memcRetrainAct m corrected failed) s

end Sys2Proof.Machine
end

