-- ==== Sys2Proof/Machine/CmdReset.lean ====
section
/-! DEFINITION. Meanings of commands: resets, boot and power loss, the PCIe link.
Each is its own program of changes inside the frame of `Machine/Events.lean`. -/

namespace Sys2Proof.Machine

/-- SYS_RST_N_TAKEN (R708). SYS_RST_N low for 10 µs is taken as a reset and holds the main side in reset. -/
def execSysRstNTaken (s : State) : Host.Outcome State Fault Refusal := always sysRstTakenAct s

/-- RESET_HELD_LONG (R709). SYS_RST_N low for more than 1 s sets HELD_LONG. -/
def execResetHeldLong (s : State) : Host.Outcome State Fault Refusal := always heldLongAct s

/-- SYS_RST_N_RELEASE (R708). SYS_RST_N high for 10 µs releases the reset and starts boot. -/
def execSysRstNRelease (straps : BitVec 2) (s : State) : Host.Outcome State Fault Refusal :=
  always (sysRstReleaseAct straps.toNat) s

/-- SYSTEM_RESET (R710). RST_CMD SYSTEM_RESET with the key starts a system reset pulse. -/
def execSystemReset (f : Fin 32) (v : Word) (s : State) : Host.Outcome State Fault Refusal :=
  command (hostReg f Reg.AON.RST_CMD (setBits v 3 0 1)) s

/-- VDD_AON_POWER_ON (R706). VDD_AON power-on resets the whole main side and the TSC. -/
def execVddAonPowerOn (s : State) : Host.Outcome State Fault Refusal := always aonPowerOnAct s

/-- PCIE_RESET (R706). A conventional, hot or link-down reset resets configuration space, MSI-X tables and the link.
-/
def execPcieReset (s : State) : Host.Outcome State Fault Refusal := command pcieResetAct s

/-- BOOT_IMAGE_CHECK (R713). A boot image slot is read and checked and accepted or rejected. -/
def execBootImageCheck (slotB : Bool) (img : BootImage) (s : State) : Host.Outcome State Fault Refusal :=
  command (bootImageAct slotB img) s

/-- LOAD_HOST (R714). BOOT_CMD LOAD_HOST checks an image written to the commons by the host. -/
def execLoadHost (f : Fin 32) (v : Word) (chk : ImageChecks) (s : State) : Host.Outcome State Fault Refusal :=
  command (hostRegWith f Reg.AON.BOOT_CMD (setBits v 3 0 1) (loadHostAct (setBits v 3 0 1) chk)) s

/-- COMMIT_ROLLBACK (R715). BOOT_CMD COMMIT_ROLLBACK raises FUSE_ROLLBACK permanently. -/
def execCommitRollback (f : Fin 32) (v : Word) (s : State) : Host.Outcome State Fault Refusal :=
  command (hostReg f Reg.AON.BOOT_CMD (setBits v 3 0 2)) s

/-- STARTUP_TESTS_DONE (R716). The start-up tests complete, darning or failing parts, and the device reaches READY. -/
def execStartupTestsDone (r : StartupResult) (s : State) : Host.Outcome State Fault Refusal := command (startupAct r) s

/-- PWR_FAIL_N_FALL (R721). A PWR_FAIL_N warning stops commits, invalidates outgoing units, de-energises outputs and
records the loss. -/
def execPwrFailNFall (s : State) : Host.Outcome State Fault Refusal := always pwrFailAct s

/-- PWR_FAIL_N_RISE (R724). A withdrawn warning with rails in range keeps the device stopped and raises source 37. -/
def execPwrFailNRise (railsOk : Bool) (s : State) : Host.Outcome State Fault Refusal := always (pwrRiseAct railsOk) s

/-- BROWNOUT_RESET (R724). Ten milliseconds after a withdrawn warning an internal brownout reset is performed. -/
def execBrownoutReset (s : State) : Host.Outcome State Fault Refusal := always brownoutAct s

/-- PCIE_LINK_STATE_CHANGE (R702). The PCIe link enters L1 or L2, changes rate or width, or goes through recovery,
updating LINK_EVENTS and raising source 20. -/
def execPcieLinkStateChange (ltssm : BitVec 4) (rate : BitVec 3) (width : BitVec 4) (flit : Bool) (dlUp : Bool) (s : State) : Host.Outcome State Fault Refusal :=
  simply (pcieLinkAct ltssm.toNat rate.toNat width.toNat flit dlUp) s

/-- PCIE_COMPLETION_TIMEOUT (R705). A read issued by the IB960 receives no completion in time, is counted in CTO_CNT
and raises source 22. -/
def execPcieCompletionTimeout (s : State) : Host.Outcome State Fault Refusal := simply pcieTimeoutAct s

/-- PCIE_REFCLK_LOSS (R625). Loss of the 100 MHz PCIe reference sets PCIE_REF_LOST and raises source 58. -/
def execPcieRefclkLoss (s : State) : Host.Outcome State Fault Refusal := simply pcieRefAct s

end Sys2Proof.Machine
end

