-- ==== Sys2Proof/Machine/CmdSafe.lean ====
section
/-! DEFINITION. Meanings of commands: SAFE, CMP and the watchdogs.
Each is its own program of changes inside the frame of `Machine/Events.lean`. -/

namespace Sys2Proof.Machine

/-- SAFE_ENABLE (R505). Setting SAFE_CTRL.ENABLE moves SAFE from OFF to INIT. -/
def execSafeEnable (f : Fin 32) (v : Word) (s : State) : Host.Outcome State Fault Refusal :=
  command (hostReg f Reg.SAFE.SAFE_CTRL (v ||| 1)) s

/-- ARM (R506). SAFE_CMD ARM in INIT checks the configuration and enters TEST, or reports a reason. -/
def execArm (f : Fin 32) (v : Word) (s : State) : Host.Outcome State Fault Refusal :=
  command (hostReg f Reg.SAFE.SAFE_CMD (setBits v 3 0 1)) s

/-- RESTART (R506). SAFE_CMD RESTART in SAFE returns SAFE to INIT. -/
def execRestart (f : Fin 32) (v : Word) (s : State) : Host.Outcome State Fault Refusal :=
  command (hostReg f Reg.SAFE.SAFE_CMD (setBits v 3 0 2)) s

/-- FORCE_SAFE (R506). SAFE_CMD FORCE_SAFE is a common fault that puts SAFE in SAFE. -/
def execForceSafe (f : Fin 32) (v : Word) (s : State) : Host.Outcome State Fault Refusal :=
  command (hostReg f Reg.SAFE.SAFE_CMD (setBits v 3 0 3)) s

/-- SAFE_TEST_DONE (R527). TEST's start-up injections end, entering ARM and locking the safety pages, or SAFE. -/
def execSafeTestDone (fails : List (BitVec 16)) (toSafe : Bool) (s : State) : Host.Outcome State Fault Refusal :=
  command (safeTestDoneAct (fails.map (·.toNat)) toSafe) s

/-- CHANNEL_RESULT_ARRIVE (R491). A channel result reaches CMP, which pairs it, checks it and forms a verdict. -/
def execChannelResultArrive (chB : Bool) (u : DUnit) (s : State) : Host.Outcome State Fault Refusal :=
  command (channelResultAct chB u) s

/-- PAIR_WAIT_EXPIRY (R494). A pair's partner missing at PAIR_WAIT gives a degraded verdict and counts a late result.
-/
def execPairWaitExpiry (item : BitVec 48) (s : State) : Host.Outcome State Fault Refusal := command (pairWaitAct item) s

/-- CONFIRMATION_SLICE_DONE (R517). The confirmation slice ends, entering DEGRADED or SAFE. -/
def execConfirmationSliceDone (pass : Bool) (s : State) : Host.Outcome State Fault Refusal :=
  command (confirmationAct pass) s

/-- DEG_LIMIT_EXPIRY (R520). DEG_LIMIT ms after REACT, SAFE leaves DEGRADED for SAFE. -/
def execDegLimitExpiry (s : State) : Host.Outcome State Fault Refusal := command degLimitAct s

/-- VERDICT_AGE_EXPIRY (R508). The latest valid verdict growing older than VERDICT_AGE clears VALID. -/
def execVerdictAgeExpiry (s : State) : Host.Outcome State Fault Refusal := command verdictAgeAct s

/-- PIN_HOLD_EXPIRY (R509). VALID 0 lasting beyond the effective PIN_HOLD de-energises the outputs. -/
def execPinHoldExpiry (s : State) : Host.Outcome State Fault Refusal := command pinHoldAct s

/-- OUTPUT_READBACK (R510). Each 1 µs the outputs are read back, and a 2 µs mismatch is a common fault. -/
def execOutputReadback (a : Bool) (b : Bool) (s : State) : Host.Outcome State Fault Refusal :=
  command (readbackAct a b) s

/-- TEST_PULSE (R511). Each PERIOD an energised output drops for WIDTH and its readback is checked. -/
def execTestPulse (outB : Bool) (followed : Bool) (s : State) : Host.Outcome State Fault Refusal :=
  command (testPulseAct outB followed) s

/-- SMSG_PERIOD_EXPIRY (R512). No status unit for SMSG.PERIOD produces one. -/
def execSmsgPeriodExpiry (s : State) : Host.Outcome State Fault Refusal := command smsgPeriodAct s

/-- STATUS_FRAME_LATE (R515). A status frame not on the wire 100 µs after hand-over sets ROUTE_FAULT. -/
def execStatusFrameLate (s : State) : Host.Outcome State Fault Refusal := command statusLateAct s

/-- ROUTE_FAULT_CLEAR (R515). 100 ms without route events and 16 timely frames clear ROUTE_FAULT. -/
def execRouteFaultClear (s : State) : Host.Outcome State Fault Refusal := command routeClearAct s

/-- SELF_TEST_SLICE (R524). SAFE runs the next run-time self-test slice of its TEST_CYCLE. -/
def execSelfTestSlice (miss : Option (BitVec 16)) (s : State) : Host.Outcome State Fault Refusal :=
  command (selfTestAct (miss.map (·.toNat))) s

/-- LOCKSTEP_MISMATCH (R504). A SAFE or CMP lockstep mismatch de-energises both outputs by a bypass path. -/
def execLockstepMismatch (s : State) : Host.Outcome State Fault Refusal := command lockstepAct s

/-- SAFE_CLOCK_DEVIATION (R503). A core or SAFE clock outside ±5% for 1 µs is a common fault. -/
def execSafeClockDeviation (s : State) : Host.Outcome State Fault Refusal := command safeClockAct s

/-- WD_KICK (R500). A write to WD_KICK is checked against the window and SEQ, and accepted or an early expiry. -/
def execWdKick (f : Fin 32) (w : BitVec 6) (v : Word) (s : State) : Host.Outcome State Fault Refusal :=
  command (hostReg f ⟨.WDG, w.toNat / 16, 0x108 + 16 * (w.toNat % 16)⟩ v) s

/-- WATCHDOG_LATE_EXPIRY (R502). No kick by CLOSE is a late expiry, reported to SAFE with ACTION 1. -/
def execWatchdogLateExpiry (w : BitVec 6) (s : State) : Host.Outcome State Fault Refusal :=
  command (wdLateAct w.toNat) s

/-- DEG_LIMIT_WARNING (R530). One second before DEG_LIMIT expires in DEGRADED, SAFE raises source 9. -/
def execDegLimitWarning (s : State) : Host.Outcome State Fault Refusal := command degWarningAct s

/-- SAFE_DISABLE (R505). Clearing SAFE_CTRL.ENABLE returns SAFE to OFF. -/
def execSafeDisable (f : Fin 32) (v : Word) (s : State) : Host.Outcome State Fault Refusal :=
  command (hostReg f Reg.SAFE.SAFE_CTRL (v &&& ~~~ 1)) s

end Sys2Proof.Machine
end

