-- ==== Sys2Proof/Machine/CmdSpare.lean ====
section
/-! DEFINITION. Meanings of commands: darning.
Each is its own program of changes inside the frame of `Machine/Events.lean`. -/

namespace Sys2Proof.Machine

/-- DARN (R662). DARN_CMD DARN queues a darning of a named part. -/
def execDarn (f : Fin 32) (v : Word) (s : State) : Host.Outcome State Fault Refusal :=
  command (hostReg f Reg.DARN.DARN_CMD (setBits v 3 0 1)) s

/-- REPEAT (R661). DARN_CMD REPEAT repeats the operation of the pending record. -/
def execDarnRepeat (f : Fin 32) (v : Word) (s : State) : Host.Outcome State Fault Refusal :=
  command (hostReg f Reg.DARN.DARN_CMD (setBits v 3 0 2)) s

/-- UNFAIL (R668). DARN_CMD UNFAIL clears a failed engine's FAILED_ENG bit. -/
def execUnfail (f : Fin 32) (v : Word) (s : State) : Host.Outcome State Fault Refusal :=
  command (hostReg f Reg.DARN.DARN_CMD (setBits v 3 0 3)) s

/-- CLEAR_PENDING (R661). DARN_CMD CLEAR_PENDING clears the pending record. -/
def execClearPending (f : Fin 32) (v : Word) (s : State) : Host.Outcome State Fault Refusal :=
  command (hostReg f Reg.DARN.DARN_CMD (setBits v 3 0 4)) s

/-- DARN_OPERATION_START (R662). DARN starts the next queued operation, choosing the spare and writing a pending
record. -/
def execDarnOperationStart (s : State) : Host.Outcome State Fault Refusal := command darnStartAct s

/-- SPARE_TEST_DONE (R665). The spare engine's test ends, passing to copy or failing to the next spare. -/
def execSpareTestDone (pass : Bool) (s : State) : Host.Outcome State Fault Refusal := command (spareTestAct pass) s

/-- DARN_SWITCH (R665). A planned darning switches at the old engine's next commit or frogs its command. -/
def execDarnSwitch (atCommit : Bool) (s : State) : Host.Outcome State Fault Refusal :=
  command (darnSwitchAct atCommit) s

/-- DARN_MAP_COMMIT (R659). The new darning map is committed and taken by every block at once. -/
def execDarnMapCommit (s : State) : Host.Outcome State Fault Refusal := command darnCommitAct s

/-- WEAR_READ (R670). Once a second DARN reads wear monitors and may queue planned darnings. -/
def execWearRead (t : DarnTarget) (value : BitVec 16) (worn : Bool) (s : State) : Host.Outcome State Fault Refusal :=
  command (wearReadAct t.kind.toNat t.inst.toNat t.unit.toNat value.toNat worn) s

end Sys2Proof.Machine
end

