-- ==== Sys2Proof/Machine/CmdStream.lean ====
section
/-! DEFINITION. Meanings of commands: stitch-headed units arriving at a block and the commons scrub (01_organisation).
Each is its own program of changes inside the frame of `Machine/Events.lean`. -/

namespace Sys2Proof.Machine

/-- COMMONS_SCRUB (R20). The scrub timer of a commons slice reads words in idle port cycles and writes back corrected
words. -/
def execCommonsScrub (c : Fin 16) (w : BitVec 20) (e : EccError) (s : State) : Host.Outcome State Fault Refusal :=
  command (commonsScrubAct c w.toNat e) s

/-- UNIT_RECEIVE (R47). A consuming block takes a stitch-headed unit whole, checks CRC, header fields and frame
counter, and accepts, substitutes or discards it. -/
def execUnitReceive (slot : BitVec 14) (u : DUnit) (s : State) : Host.Outcome State Fault Refusal :=
  command (unitReceiveAct slot.toNat u) s

/-- LINK_UNIT_ARRIVE (R52). A unit arriving over a Fakan link gets REMOTE set and its hop count raised. -/
def execLinkUnitArrive (k : Fin 4) (u : DUnit) (s : State) : Host.Outcome State Fault Refusal :=
  command (linkUnitArriveAct k u) s

end Sys2Proof.Machine
end

