-- ==== Sys2Proof/Machine/CmdText.lean ====
section
/-! DEFINITION. Meanings of commands: the text unit.
Each is its own program of changes inside the frame of `Machine/Events.lean`. -/

namespace Sys2Proof.Machine

/-- VOCAB_LOAD (R301). VOCAB_CMD LOAD checks the vocabulary header and sets VOCAB_READY or refuses. -/
def execVocabLoad (f : Fin 32) (v : Word) (s : State) : Host.Outcome State Fault Refusal :=
  command (hostReg f Reg.TXT.VOCAB_CMD (v ||| 1)) s

/-- VOCAB_UNLOAD (R335). VOCAB_CMD UNLOAD clears VOCAB_READY when no command is admitted. -/
def execVocabUnload (f : Fin 32) (v : Word) (s : State) : Host.Outcome State Fault Refusal :=
  command (hostReg f Reg.TXT.VOCAB_CMD ((v ||| 2) &&& ~~~ 1)) s

/-- CSET_LOAD (R319). CSET_CMD LOAD checks a constraint-set header and marks the slot loaded or refuses. -/
def execCsetLoad (f : Fin 32) (v : Word) (s : State) : Host.Outcome State Fault Refusal :=
  command (hostReg f Reg.TXT.CSET_CMD (v ||| 1)) s

/-- CSET_UNLOAD (R319). CSET_CMD UNLOAD marks a constraint-set slot unloaded. -/
def execCsetUnload (f : Fin 32) (v : Word) (s : State) : Host.Outcome State Fault Refusal :=
  command (hostReg f Reg.TXT.CSET_CMD ((v ||| 2) &&& ~~~ 1)) s

/-- CSET_DEFERRED_APPLY (R319). A load or unload of a slot in use takes effect when the mask request ends. -/
def execCsetDeferredApply (s : State) : Host.Outcome State Fault Refusal := command csetDeferredAct s

/-- VCACHE_MISS_FILL (R304). A vocabulary cache miss completes and fills the line, re-reading on parity error. -/
def execVcacheMissFill (line : BitVec 58) (byMask : Bool) (parityError : Bool) (s : State) : Host.Outcome State Fault Refusal :=
  simply (vcacheFillAct line.toNat byMask parityError) s

/-- MASK_REQUEST_START (R330). The mask unit starts the next request after the previous one ends. -/
def execMaskRequestStart (s : State) : Host.Outcome State Fault Refusal := command maskStartAct s

/-- MASK_ENTRY (R323). A lane processes a mask entry, updating the constraint state and writing its mask. -/
def execMaskEntry (ix : Nat) (s : State) : Host.Outcome State Fault Refusal := command (maskEntryAct ix) s

/-- MASK_LIMIT_EXPIRY (R329). At MASK_LIMIT every unwritten mask is written LATE. -/
def execMaskLimitExpiry (s : State) : Host.Outcome State Fault Refusal := command maskLimitAct s

end Sys2Proof.Machine
end

