-- ==== Sys2Proof/Machine/CmdTime.lean ====
section
/-! DEFINITION. Meanings of commands: the time-stamp counter (01_organisation).
Each is its own program of changes inside the frame of `Machine/Events.lean`. -/

namespace Sys2Proof.Machine

/-- TSC_SLEEP_TICK (R55). Each always-on clock cycle in deep sleep advances the TSC by 30,517 ns plus the fractional
accumulator. -/
def execTscSleepTick (s : State) : Host.Outcome State Fault Refusal := simply tscSleepTickAct s

/-- TSC_LOAD (R58). TSC_CMD.LOAD loads TSC_SET if it is not less than the TSC, and otherwise sets the load-rejected
error. -/
def execTscLoad (f : Fin 32) (v : Word) (s : State) : Host.Outcome State Fault Refusal :=
  simply (hostReg f Reg.TSC.TSC_CMD (v ||| 1)) s

/-- CLR_COARSE (R56). TSC_CMD.CLR_COARSE clears COARSE on a standalone device. -/
def execClrCoarse (f : Fin 32) (v : Word) (s : State) : Host.Outcome State Fault Refusal :=
  simply (hostReg f Reg.TSC.TSC_CMD (v ||| 2)) s

/-- TSC_LO_READ (R59). A 32-bit read of TSC_LO latches the upper half into TSC_HI. -/
def execTscLoRead (f : Fin 32) (s : State) : Host.Outcome State Fault Refusal := simply (hostReadReg f Reg.TSC.TSC_LO) s

end Sys2Proof.Machine
end

