-- ==== Sys2Proof/Machine/Dispatch.lean ====
section
/-! DEFINITION. The dispatch of the commands: one arm for each constructor of `Instr`. -/

namespace Sys2Proof.Machine

open Host

def exec (i : Instr) (s : State) : Host.Outcome State Fault Refusal :=
  match i with
  | .registerWrite f addr data => Sys2Proof.Machine.execRegisterWrite f addr data s
  | .readClear f addr => Sys2Proof.Machine.execReadClear f addr s
  | .unpopulatedAccess addr isRead => Sys2Proof.Machine.execUnpopulatedAccess addr isRead s
  | .unalignedRead addr n => Sys2Proof.Machine.execUnalignedRead addr n s
  | .bar2InvalidWrite f off n => Sys2Proof.Machine.execBar2InvalidWrite f off n s
  | .bar4Write addr data => Sys2Proof.Machine.execBar4Write addr data s
  | .bar4Read addr n => Sys2Proof.Machine.execBar4Read addr n s
  | .lockCmd f v => Sys2Proof.Machine.execLockCmd f v s
  | .irqPendSet f slot v => Sys2Proof.Machine.execIrqPendSet f slot v s
  | .irqPendClr f slot v => Sys2Proof.Machine.execIrqPendClr f slot v s
  | .irqMaskSet f slot v => Sys2Proof.Machine.execIrqMaskSet f slot v s
  | .irqMaskClr f slot v => Sys2Proof.Machine.execIrqMaskClr f slot v s
  | .commonsScrub c w e => Sys2Proof.Machine.execCommonsScrub c w e s
  | .unitReceive slot u => Sys2Proof.Machine.execUnitReceive slot u s
  | .linkUnitArrive k u => Sys2Proof.Machine.execLinkUnitArrive k u s
  | .tscSleepTick => Sys2Proof.Machine.execTscSleepTick s
  | .tscLoad f v => Sys2Proof.Machine.execTscLoad f v s
  | .clrCoarse f v => Sys2Proof.Machine.execClrCoarse f v s
  | .tscLoRead f => Sys2Proof.Machine.execTscLoRead f s
  | .pgenRun f g v => Sys2Proof.Machine.execPgenRun f g v s
  | .pgenStateEnd g raw => Sys2Proof.Machine.execPgenStateEnd g raw s
  | .darkLoopStep g c => Sys2Proof.Machine.execDarkLoopStep g c s
  | .shadowSettled g => Sys2Proof.Machine.execShadowSettled g s
  | .afeChannelSwitch g => Sys2Proof.Machine.execAfeChannelSwitch g s
  | .pmDataHiWrite f g v => Sys2Proof.Machine.execPmDataHiWrite f g v s
  | .trigCmd f g v => Sys2Proof.Machine.execTrigCmd f g v s
  | .divFracWrite f n v => Sys2Proof.Machine.execDivFracWrite f n v s
  | .encoderEdge n forward bothPhases => Sys2Proof.Machine.execEncoderEdge n forward bothPhases s
  | .overspeedTimerTrigger n => Sys2Proof.Machine.execOverspeedTimerTrigger n s
  | .encoderStall n => Sys2Proof.Machine.execEncoderStall n s
  | .encoderLineFault n => Sys2Proof.Machine.execEncoderLineFault n s
  | .cxpPacket n e => Sys2Proof.Machine.execCxpPacket n e s
  | .cxpCmdRead f n v => Sys2Proof.Machine.execCxpCmdRead f n v s
  | .cxpCmdWrite f n v => Sys2Proof.Machine.execCxpCmdWrite f n v s
  | .cxpControlReply n ack data => Sys2Proof.Machine.execCxpControlReply n ack data s
  | .cxpEventPacket n heartbeat w => Sys2Proof.Machine.execCxpEventPacket n heartbeat w s
  | .cxpLinkLost n link => Sys2Proof.Machine.execCxpLinkLost n link s
  | .csiPacket n vc e => Sys2Proof.Machine.execCsiPacket n vc e s
  | .lineComplete p => Sys2Proof.Machine.execLineComplete p s
  | .postLinesDone p => Sys2Proof.Machine.execPostLinesDone p s
  | .bandDeliver p => Sys2Proof.Machine.execBandDeliver p s
  | .pathWaitExpiry p => Sys2Proof.Machine.execPathWaitExpiry p s
  | .destHeadWrite f p v => Sys2Proof.Machine.execDestHeadWrite f p v s
  | .gateEdge gate level => Sys2Proof.Machine.execGateEdge gate level s
  | .pathOpen f p v => Sys2Proof.Machine.execPathOpen f p v s
  | .pathClose f p v => Sys2Proof.Machine.execPathClose f p v s
  | .pathEnable f p v => Sys2Proof.Machine.execPathEnable f p v s
  | .pathDisable f p v => Sys2Proof.Machine.execPathDisable f p v s
  | .sweepOpenMessage item stamp prof => Sys2Proof.Machine.execSweepOpenMessage item stamp prof s
  | .sweepCloseMessage item stamp prof => Sys2Proof.Machine.execSweepCloseMessage item stamp prof s
  | .engineRun f p v => Sys2Proof.Machine.execEngineRun f p v s
  | .engineDrain f p v => Sys2Proof.Machine.execEngineDrain f p v s
  | .engDiagStart f p v => Sys2Proof.Machine.execEngDiagStart f p v s
  | .fceDiagStart f st v => Sys2Proof.Machine.execFceDiagStart f st v s
  | .matmul c d => Sys2Proof.Machine.execMatmul c d s
  | .convolve c d => Sys2Proof.Machine.execConvolve c d s
  | .attention c d => Sys2Proof.Machine.execAttention c d s
  | .crop c d => Sys2Proof.Machine.execCrop c d s
  | .argmax c d => Sys2Proof.Machine.execArgmax c d s
  | .sample c d => Sys2Proof.Machine.execSample c d s
  | .tokenise c d => Sys2Proof.Machine.execTokenise c d s
  | .detokenise c d => Sys2Proof.Machine.execDetokenise c d s
  | .mask c d next => Sys2Proof.Machine.execMask c d next s
  | .jpeg c d => Sys2Proof.Machine.execJpeg c d s
  | .augment c d => Sys2Proof.Machine.execAugment c d s
  | .copy c d => Sys2Proof.Machine.execCopy c d s
  | .put c d => Sys2Proof.Machine.execPut c d s
  | .get c d => Sys2Proof.Machine.execGet c d s
  | .signal c d => Sys2Proof.Machine.execSignal c d s
  | .wait c d => Sys2Proof.Machine.execWait c d s
  | .allgather c d => Sys2Proof.Machine.execAllgather c d s
  | .allreduce c d => Sys2Proof.Machine.execAllreduce c d s
  | .broadcast c d => Sys2Proof.Machine.execBroadcast c d s
  | .barrier c d => Sys2Proof.Machine.execBarrier c d s
  | .commandPlace => Sys2Proof.Machine.execCommandPlace s
  | .emptyCommandComplete id => Sys2Proof.Machine.execEmptyCommandComplete id s
  | .zeroKComplete p => Sys2Proof.Machine.execZeroKComplete p s
  | .prePassDone p => Sys2Proof.Machine.execPrePassDone p s
  | .shapeChange p => Sys2Proof.Machine.execShapeChange p s
  | .stationaryLoadDone p rd => Sys2Proof.Machine.execStationaryLoadDone p rd s
  | .engineStoreScrub p w e => Sys2Proof.Machine.execEngineStoreScrub p w e s
  | .rowCheck p row found => Sys2Proof.Machine.execRowCheck p row found s
  | .arrayDiagnosticDone p r spareOk => Sys2Proof.Machine.execArrayDiagnosticDone p r spareOk s
  | .tileEndCheck p alt => Sys2Proof.Machine.execTileEndCheck p alt s
  | .vectorInstruction p ix => Sys2Proof.Machine.execVectorInstruction p ix s
  | .dummyRampStep p => Sys2Proof.Machine.execDummyRampStep p s
  | .transThreshReached u => Sys2Proof.Machine.execTransThreshReached u s
  | .fceWeightLoadDone st parityError => Sys2Proof.Machine.execFceWeightLoadDone st parityError s
  | .fceOutputPosition st found => Sys2Proof.Machine.execFceOutputPosition st found s
  | .fceDiagnosticDone st located => Sys2Proof.Machine.execFceDiagnosticDone st located s
  | .commitPoint id m => Sys2Proof.Machine.execCommitPoint id m s
  | .commit id => Sys2Proof.Machine.execCommit id s
  | .lctExpiry id => Sys2Proof.Machine.execLctExpiry id s
  | .submissionDoorbell f c v => Sys2Proof.Machine.execSubmissionDoorbell f c v s
  | .completionDoorbell f c v => Sys2Proof.Machine.execCompletionDoorbell f c v s
  | .ctxStart f v => Sys2Proof.Machine.execCtxStart f v s
  | .ctxStop f v => Sys2Proof.Machine.execCtxStop f v s
  | .ctxTeardown f v => Sys2Proof.Machine.execCtxTeardown f v s
  | .teardownComplete c => Sys2Proof.Machine.execTeardownComplete c s
  | .ctxReport f v => Sys2Proof.Machine.execCtxReport f v s
  | .reportPeriodExpiry => Sys2Proof.Machine.execReportPeriodExpiry s
  | .ctxVtLoRead f => Sys2Proof.Machine.execCtxVtLoRead f s
  | .preempt => Sys2Proof.Machine.execPreempt s
  | .cheapPointReached id j => Sys2Proof.Machine.execCheapPointReached id j s
  | .saveDone id => Sys2Proof.Machine.execSaveDone id s
  | .restoreDone id => Sys2Proof.Machine.execRestoreDone id s
  | .remoteWaitTimeout id => Sys2Proof.Machine.execRemoteWaitTimeout id s
  | .quarantineArrival id gen => Sys2Proof.Machine.execQuarantineArrival id gen s
  | .attentionPartialArrive id idx u => Sys2Proof.Machine.execAttentionPartialArrive id idx u s
  | .evictionScanComplete st => Sys2Proof.Machine.execEvictionScanComplete st s
  | .pausedSequenceResume => Sys2Proof.Machine.execPausedSequenceResume s
  | .labMissWalk p seq page => Sys2Proof.Machine.execLabMissWalk p seq page s
  | .translationFill w => Sys2Proof.Machine.execTranslationFill w s
  | .kvwEnable f st v => Sys2Proof.Machine.execKvwEnable f st v s
  | .seqRelease f st v => Sys2Proof.Machine.execSeqRelease f st v s
  | .seqTruncate f st v => Sys2Proof.Machine.execSeqTruncate f st v s
  | .seqPin f st v => Sys2Proof.Machine.execSeqPin f st v s
  | .seqUnpin f st v => Sys2Proof.Machine.execSeqUnpin f st v s
  | .vocabLoad f v => Sys2Proof.Machine.execVocabLoad f v s
  | .vocabUnload f v => Sys2Proof.Machine.execVocabUnload f v s
  | .csetLoad f v => Sys2Proof.Machine.execCsetLoad f v s
  | .csetUnload f v => Sys2Proof.Machine.execCsetUnload f v s
  | .csetDeferredApply => Sys2Proof.Machine.execCsetDeferredApply s
  | .vcacheMissFill line byMask parityError => Sys2Proof.Machine.execVcacheMissFill line byMask parityError s
  | .maskRequestStart => Sys2Proof.Machine.execMaskRequestStart s
  | .maskEntry ix => Sys2Proof.Machine.execMaskEntry ix s
  | .maskLimitExpiry => Sys2Proof.Machine.execMaskLimitExpiry s
  | .tSwExpiry item => Sys2Proof.Machine.execTSwExpiry item s
  | .tEmitExpiry item => Sys2Proof.Machine.execTEmitExpiry item s
  | .holdLastRelease item => Sys2Proof.Machine.execHoldLastRelease item s
  | .sweepCandidateArrive dev item r invalid => Sys2Proof.Machine.execSweepCandidateArrive dev item r invalid s
  | .ssiSample f v => Sys2Proof.Machine.execSsiSample f v s
  | .ssiTrigger => Sys2Proof.Machine.execSsiTrigger s
  | .ssiBurstDone frames => Sys2Proof.Machine.execSsiBurstDone frames s
  | .tsnFrameReceive t fr => Sys2Proof.Machine.execTsnFrameReceive t fr s
  | .tsnSyncReceive t asTime rate interval pdelay => Sys2Proof.Machine.execTsnSyncReceive t asTime rate interval pdelay s
  | .tsnSyncLoss t => Sys2Proof.Machine.execTsnSyncLoss t s
  | .tsnLinkDown t => Sys2Proof.Machine.execTsnLinkDown t s
  | .tsnLinkUp t verified => Sys2Proof.Machine.execTsnLinkUp t verified s
  | .gclApply f t v => Sys2Proof.Machine.execGclApply f t v s
  | .gclEntryExpiry t => Sys2Proof.Machine.execGclEntryExpiry t s
  | .loopEnable f l v => Sys2Proof.Machine.execLoopEnable f l v s
  | .loopDisable f l v => Sys2Proof.Machine.execLoopDisable f l v s
  | .ceuStrobe l => Sys2Proof.Machine.execCeuStrobe l s
  | .ceuSampleTrigger l => Sys2Proof.Machine.execCeuSampleTrigger l s
  | .ceuCutoff l => Sys2Proof.Machine.execCeuCutoff l s
  | .ceuLaunch l => Sys2Proof.Machine.execCeuLaunch l s
  | .percCloseExpiry l => Sys2Proof.Machine.execPercCloseExpiry l s
  | .mboxSend f g v => Sys2Proof.Machine.execMboxSend f g v s
  | .mboxAck f g v => Sys2Proof.Machine.execMboxAck f g v s
  | .vfFlr g => Sys2Proof.Machine.execVfFlr g s
  | .pfFlr => Sys2Proof.Machine.execPfFlr s
  | .vfEnableClear => Sys2Proof.Machine.execVfEnableClear s
  | .irqEoi f g v => Sys2Proof.Machine.execIrqEoi f g v s
  | .srcPendSet f g w v => Sys2Proof.Machine.execSrcPendSet f g w v s
  | .srcPendClr f g w v => Sys2Proof.Machine.execSrcPendClr f g w v s
  | .srcMaskSet f g w v => Sys2Proof.Machine.execSrcMaskSet f g w v s
  | .srcMaskClr f g w v => Sys2Proof.Machine.execSrcMaskClr f g w v s
  | .srcStormClear f g w v => Sys2Proof.Machine.execSrcStormClear f g w v s
  | .srcCfgWrite f g ix v => Sys2Proof.Machine.execSrcCfgWrite f g ix v s
  | .vecMaskSet f g hi v => Sys2Proof.Machine.execVecMaskSet f g hi v s
  | .vecMaskClr f g hi v => Sys2Proof.Machine.execVecMaskClr f g hi v s
  | .gathererSelect g vec => Sys2Proof.Machine.execGathererSelect g vec s
  | .stormWindowExpiry src => Sys2Proof.Machine.execStormWindowExpiry src s
  | .moderationTimerExpiry g vec => Sys2Proof.Machine.execModerationTimerExpiry g vec s
  | .heldMessageRelease g vec => Sys2Proof.Machine.execHeldMessageRelease g vec s
  | .linkReachesL0 => Sys2Proof.Machine.execLinkReachesL0 s
  | .safeEnable f v => Sys2Proof.Machine.execSafeEnable f v s
  | .arm f v => Sys2Proof.Machine.execArm f v s
  | .restart f v => Sys2Proof.Machine.execRestart f v s
  | .forceSafe f v => Sys2Proof.Machine.execForceSafe f v s
  | .safeTestDone fails toSafe => Sys2Proof.Machine.execSafeTestDone fails toSafe s
  | .channelResultArrive chB u => Sys2Proof.Machine.execChannelResultArrive chB u s
  | .pairWaitExpiry item => Sys2Proof.Machine.execPairWaitExpiry item s
  | .confirmationSliceDone pass => Sys2Proof.Machine.execConfirmationSliceDone pass s
  | .degLimitExpiry => Sys2Proof.Machine.execDegLimitExpiry s
  | .verdictAgeExpiry => Sys2Proof.Machine.execVerdictAgeExpiry s
  | .pinHoldExpiry => Sys2Proof.Machine.execPinHoldExpiry s
  | .outputReadback a b => Sys2Proof.Machine.execOutputReadback a b s
  | .testPulse outB followed => Sys2Proof.Machine.execTestPulse outB followed s
  | .smsgPeriodExpiry => Sys2Proof.Machine.execSmsgPeriodExpiry s
  | .statusFrameLate => Sys2Proof.Machine.execStatusFrameLate s
  | .routeFaultClear => Sys2Proof.Machine.execRouteFaultClear s
  | .selfTestSlice miss => Sys2Proof.Machine.execSelfTestSlice miss s
  | .lockstepMismatch => Sys2Proof.Machine.execLockstepMismatch s
  | .safeClockDeviation => Sys2Proof.Machine.execSafeClockDeviation s
  | .wdKick f w v => Sys2Proof.Machine.execWdKick f w v s
  | .watchdogLateExpiry w => Sys2Proof.Machine.execWatchdogLateExpiry w s
  | .reqSend f v => Sys2Proof.Machine.execReqSend f v s
  | .halSet => Sys2Proof.Machine.execHalSet s
  | .halAuditRead => Sys2Proof.Machine.execHalAuditRead s
  | .halIdent crc => Sys2Proof.Machine.execHalIdent crc s
  | .halZero => Sys2Proof.Machine.execHalZero s
  | .halTare => Sys2Proof.Machine.execHalTare s
  | .halTareClear => Sys2Proof.Machine.execHalTareClear s
  | .replyArrive => Sys2Proof.Machine.execReplyArrive s
  | .weighingWindowEnd w => Sys2Proof.Machine.execWeighingWindowEnd w s
  | .resultRecordArrive r => Sys2Proof.Machine.execResultRecordArrive r s
  | .resPop f v => Sys2Proof.Machine.execResPop f v s
  | .statusFrameArrive => Sys2Proof.Machine.execStatusFrameArrive s
  | .laneLost => Sys2Proof.Machine.execLaneLost s
  | .firmwareCheck crc => Sys2Proof.Machine.execFirmwareCheck crc s
  | .islandStart crc auditOk convOk => Sys2Proof.Machine.execIslandStart crc auditOk convOk s
  | .halRstN => Sys2Proof.Machine.execHalRstN s
  | .halPowerFailWarning low => Sys2Proof.Machine.execHalPowerFailWarning low s
  | .corePowerStart railsOk vinMv straps => Sys2Proof.Machine.execCorePowerStart railsOk vinMv straps s
  | .railLost rail => Sys2Proof.Machine.execRailLost rail s
  | .ilimReached => Sys2Proof.Machine.execIlimReached s
  | .avsStep slackPs above1ms => Sys2Proof.Machine.execAvsStep slackPs above1ms s
  | .phaseFailure ph short => Sys2Proof.Machine.execPhaseFailure ph short s
  | .sparePhaseIn => Sys2Proof.Machine.execSparePhaseIn s
  | .senseFailure ph => Sys2Proof.Machine.execSenseFailure ph s
  | .stripeFreqChange st code => Sys2Proof.Machine.execStripeFreqChange st code s
  | .pllLockLoss pll => Sys2Proof.Machine.execPllLockLoss pll s
  | .refClockCheck refPpm aonFault => Sys2Proof.Machine.execRefClockCheck refPpm aonFault s
  | .powerEstimate activity iout other => Sys2Proof.Machine.execPowerEstimate activity iout other s
  | .estCorrUpdate => Sys2Proof.Machine.execEstCorrUpdate s
  | .capStep fast projected => Sys2Proof.Machine.execCapStep fast projected s
  | .irlWindow st wanted => Sys2Proof.Machine.execIrlWindow st wanted s
  | .droopDetect st belowMv => Sys2Proof.Machine.execDroopDetect st belowMv s
  | .stretchEnd st cycles => Sys2Proof.Machine.execStretchEnd st cycles s
  | .thermalRead temps => Sys2Proof.Machine.execThermalRead temps s
  | .shiftReport need => Sys2Proof.Machine.execShiftReport need s
  | .shiftAllocate reports => Sys2Proof.Machine.execShiftAllocate reports s
  | .allocationReceive w => Sys2Proof.Machine.execAllocationReceive w s
  | .allocationTimeout => Sys2Proof.Machine.execAllocationTimeout s
  | .standby f v => Sys2Proof.Machine.execStandby f v s
  | .deepSleep f v linkL2 wakeNow => Sys2Proof.Machine.execDeepSleep f v linkL2 wakeNow s
  | .wake f v => Sys2Proof.Machine.execWake f v s
  | .wakeLink => Sys2Proof.Machine.execWakeLink s
  | .wakeTimer => Sys2Proof.Machine.execWakeTimer s
  | .idleEntry => Sys2Proof.Machine.execIdleEntry s
  | .clockGateEntry slot => Sys2Proof.Machine.execClockGateEntry slot s
  | .retentionEntry u => Sys2Proof.Machine.execRetentionEntry u s
  | .memcPowerDown m => Sys2Proof.Machine.execMemcPowerDown m s
  | .memcScrub m addr e => Sys2Proof.Machine.execMemcScrub m addr e s
  | .dramTempReport m mult => Sys2Proof.Machine.execDramTempReport m mult s
  | .linkEnable f k v => Sys2Proof.Machine.execLinkEnable f k v s
  | .linkTrained k peerDev peerPort delayPs => Sys2Proof.Machine.execLinkTrained k peerDev peerPort delayPs s
  | .deviceNumbering peers => Sys2Proof.Machine.execDeviceNumbering peers s
  | .flitReceive k fl => Sys2Proof.Machine.execFlitReceive k fl s
  | .laneFailure k lane => Sys2Proof.Machine.execLaneFailure k lane s
  | .laneWorn k lane => Sys2Proof.Machine.execLaneWorn k lane s
  | .equalisationUpdate k => Sys2Proof.Machine.execEqualisationUpdate k s
  | .linkTimeout k => Sys2Proof.Machine.execLinkTimeout k s
  | .routeRecompute paths => Sys2Proof.Machine.execRouteRecompute paths s
  | .syncExchange k t1 t2 t3 t4 => Sys2Proof.Machine.execSyncExchange k t1 t2 t3 t4 s
  | .alignedSet => Sys2Proof.Machine.execAlignedSet s
  | .remoteAccessRequest dev r => Sys2Proof.Machine.execRemoteAccessRequest dev r s
  | .importUnitArrive u => Sys2Proof.Machine.execImportUnitArrive u s
  | .darn f v => Sys2Proof.Machine.execDarn f v s
  | .darnRepeat f v => Sys2Proof.Machine.execDarnRepeat f v s
  | .unfail f v => Sys2Proof.Machine.execUnfail f v s
  | .clearPending f v => Sys2Proof.Machine.execClearPending f v s
  | .darnOperationStart => Sys2Proof.Machine.execDarnOperationStart s
  | .spareTestDone pass => Sys2Proof.Machine.execSpareTestDone pass s
  | .darnSwitch atCommit => Sys2Proof.Machine.execDarnSwitch atCommit s
  | .darnMapCommit => Sys2Proof.Machine.execDarnMapCommit s
  | .wearRead t value worn => Sys2Proof.Machine.execWearRead t value worn s
  | .sysRstNTaken => Sys2Proof.Machine.execSysRstNTaken s
  | .resetHeldLong => Sys2Proof.Machine.execResetHeldLong s
  | .sysRstNRelease straps => Sys2Proof.Machine.execSysRstNRelease straps s
  | .systemReset f v => Sys2Proof.Machine.execSystemReset f v s
  | .vddAonPowerOn => Sys2Proof.Machine.execVddAonPowerOn s
  | .pcieReset => Sys2Proof.Machine.execPcieReset s
  | .bootImageCheck slotB img => Sys2Proof.Machine.execBootImageCheck slotB img s
  | .loadHost f v chk => Sys2Proof.Machine.execLoadHost f v chk s
  | .commitRollback f v => Sys2Proof.Machine.execCommitRollback f v s
  | .startupTestsDone r => Sys2Proof.Machine.execStartupTestsDone r s
  | .pwrFailNFall => Sys2Proof.Machine.execPwrFailNFall s
  | .pwrFailNRise railsOk => Sys2Proof.Machine.execPwrFailNRise railsOk s
  | .brownoutReset => Sys2Proof.Machine.execBrownoutReset s
  | .muxCfgWrite f v => Sys2Proof.Machine.execMuxCfgWrite f v s
  | .muxSwitchAttach b => Sys2Proof.Machine.execMuxSwitchAttach b s
  | .pinLevelAccept b level => Sys2Proof.Machine.execPinLevelAccept b level s
  | .encTimerTrigger n => Sys2Proof.Machine.execEncTimerTrigger n s
  | .cxpLinkDiscovery n link speed => Sys2Proof.Machine.execCxpLinkDiscovery n link speed s
  | .cbHistoryReset t ix => Sys2Proof.Machine.execCbHistoryReset t ix s
  | .augTestGo f v => Sys2Proof.Machine.execAugTestGo f v s
  | .gclDataWrite f t v => Sys2Proof.Machine.execGclDataWrite f t v s
  | .relTscLoRead f t => Sys2Proof.Machine.execRelTscLoRead f t s
  | .degLimitWarning => Sys2Proof.Machine.execDegLimitWarning s
  | .islandClockDeviation => Sys2Proof.Machine.execIslandClockDeviation s
  | .ilimRelease => Sys2Proof.Machine.execIlimRelease s
  | .memcPeriodicRetrain m corrected failed => Sys2Proof.Machine.execMemcPeriodicRetrain m corrected failed s
  | .pcieConfigWrite g w => Sys2Proof.Machine.execPcieConfigWrite g w s
  | .pcieLinkStateChange ltssm rate width flit dlUp => Sys2Proof.Machine.execPcieLinkStateChange ltssm rate width flit dlUp s
  | .pcieCompletionTimeout => Sys2Proof.Machine.execPcieCompletionTimeout s
  | .pcieRefclkLoss => Sys2Proof.Machine.execPcieRefclkLoss s
  | .safeDisable f v => Sys2Proof.Machine.execSafeDisable f v s
  | .halParameterGet => Sys2Proof.Machine.execHalParameterGet s

end Sys2Proof.Machine
end

