-- ==== Sys2Proof/Machine/Idle.lean ====
section
/-! DEFINITION. What one nanosecond without a command does: the TSC advances (R53), faster or slower by its slewing
rate (R57), and a held sample set starts when its time is reached (R368, R370). -/

namespace Sys2Proof.Machine

/-- R57: SLEW_PPB as the IB960 applies it, limited to ±100,000, with the rate Fakan alignment adds while ALIGN_EN is 1. -/
def State.slewPpb (s : State) : Int :=
  let host := if s.bit Reg.TSC.TSC_CTRL 0 then clampInt (sgn 32 (s.rd Reg.TSC.SLEW_PPB).toNat) (-100000) 100000 else 0
  host + (if s.bit Reg.TSC.TSC_CTRL 1 then s.hw.time.alignPpb else 0)

/-- One nanosecond: 1 + slew remainder. The counter never decreases (R53). -/
def tickAct : Act := .get fun s =>
  let a := s.hw.time.slewAcc + s.slewPpb
  let extra : Int := if 1000000000 ≤ a then 1 else if a ≤ -1000000000 then -1 else 0
  .seq (.upd (.tsc (BitVec.ofNat 64 (s.tsc.toNat + (1 + extra).toNat))))
       (.hw fun h => { h with time := { h.time with slewAcc := a - extra * 1000000000 } })

/-- A step on an empty queue: in DEEP_SLEEP the TSC advances by TSC_SLEEP_TICK only (R55). -/
def idle (s : State) : State :=
  if s.fld Reg.PWR.PWR_STATUS 2 0 = 3 then s else (Act.seq tickAct ssiStartAct).run s

end Sys2Proof.Machine
end

