-- ==== Sys2Proof/Safety.lean ====
section
/-! DEFINITION. What counts as a sound state of the model, and the words in which statements say what a command leaves
alone. -/

namespace Sys2Proof.Machine

/-! ### Canonical form -/

/-- The keys of a list rise strictly. -/
abbrev keysRise {α : Type} (l : List (Nat × α)) : Prop := (l.map Prod.fst).Pairwise (· < ·)

/-- Canonical form of a memory list: keys strictly rising, no entry equal to what an unlisted address reads as. -/
abbrev Memory.wf (m : List Host.Cell) : Prop := keysRise m ∧ ∀ e ∈ m, e.2 ≠ 0

/-- The bits that exist of the register at a BAR0 byte address (R8, R682); none where there is no register. -/
def regMaskAt (k : Nat) : Word := match pageAt (k / 4096) with
  | some (b, i) => RegRef.mask ⟨b, i, k % 4096⟩
  | none => 0

/-- Canonical form of the register list: keys strictly rising, no reserved bit set. -/
abbrev Regs.wf (l : List (Nat × Word)) : Prop := keysRise l ∧ ∀ e ∈ l, e.2 &&& ~~~ (regMaskAt e.1) = 0

/-- A sound state: the register list, memory, the engine stores and the list of poisoned words are in canonical form. -/
def State.sound (s : State) : Prop := Regs.wf s.regs ∧ Memory.wf s.mem ∧ Memory.wf s.es ∧ Memory.wf s.poison

/-! ### What follows from a command -/

/-- The state once everything that follows at once from a command in other blocks has happened: events dealt with,
parked commands, sleeping blocks and a deferred sleep looked after (`settleAll`). -/
def State.settled (s : State) : State := settleAll.run s

/-- Nothing follows in this state: no event waits, no parked command has its input unit, no gated block has work, the
device is not IDLE with commands, and no sleep is deferred. -/
def State.still (s : State) : Bool :=
  s.hw.events.isEmpty && !(s.hw.disp.cmds.any fun c => c.isParked && c.input.isSome) &&
  !(([Blk.ENG, .FCE, .KVW, .TXT, .JPG, .AUG].flatMap fun b => (List.range b.count).map fun i => (b, i)).any fun x =>
    s.power x.1 x.2 != 0 && s.blockBusy x.1 x.2 && decide (s.fld Reg.PWR.PWR_STATUS 2 0 ≤ 1)) &&
  !(s.fld Reg.PWR.PWR_STATUS 2 0 == 1 && !s.hw.disp.cmds.isEmpty) && s.hw.pwr.deferred.isNone

/-! ### Frames -/

/-- The main side runs (R708), and the state is sound. -/
def State.live (s : State) : Prop := s.sound ∧ s.hw.boot.inReset = false

/-- Memory, its poison marks, the engine stores, the TSC and what has left the block are as before. -/
structure SameRest (s t : State) : Prop where
  mem : t.mem = s.mem
  poison : t.poison = s.poison
  es : t.es = s.es
  tsc : t.tsc = s.tsc
  out : t.out = s.out

/-- Every register but those listed reads as before. -/
def SameRegs (l : List RegRef) (s t : State) : Prop := ∀ r : RegRef, r.key ∉ l.map RegRef.key → t.rd r = s.rd r

/-- Only the listed registers, and edge latches of the gatherer, differ. -/
structure Quiet (l : List RegRef) (s t : State) : Prop extends SameRest s t where
  hw : ∃ e, t.hw = { s.hw with gath := { s.hw.gath with edge := e } }
  regs : SameRegs l s t

/-- A counter that has room counts `n` more. -/
def Counts (r : RegRef) (n : Nat) (s t : State) : Prop :=
  (s.rd r).toNat + n < 4294967296 → (t.rd r).toNat = (s.rd r).toNat + n

/-- Bit `k` of a page's IRQ_PEND. -/
def State.pend (s : State) (b : Blk) (i k : Nat) : Bool := s.bit (Reg.HDR.IRQ_PEND b i) k

/-- The registers that a host write to page `i` of block `b` may change beside those its own effect names: the page's
WRITE_COUNT, and the journal's (R683, R695 to R698). -/
def hostTrail (b : Blk) (i : Nat) : List RegRef :=
  [Reg.HDR.WRITE_COUNT b i, Reg.JRNL.JRNL_TAIL, Reg.JRNL.JRNL_LOST, Reg.HDR.IRQ_PEND .JRNL 0, Reg.HDR.IRQ_MASK .JRNL 0,
   Reg.CMP.AUTH_REFUSE, Reg.HDR.IRQ_PEND .CMP 0, Reg.HDR.IRQ_MASK .CMP 0]

/-- The registers that raising a source of page `i` of block `b` may change. -/
def irqOf (b : Blk) (i : Nat) : List RegRef := [Reg.HDR.IRQ_PEND b i, Reg.HDR.IRQ_MASK b i]

/-- The registers that logging a dropped access to page `i` of block `b` may change (R684). -/
def logOf (b : Blk) (i : Nat) : List RegRef :=
  [Reg.HDR.ACC_ERR b i, Reg.TOP.ACC_LAST, Reg.TOP.TOP_EVENTS, Reg.HDR.IRQ_PEND .TOP 0, Reg.HDR.IRQ_MASK .TOP 0]

/-- The registers in which the HAL page shows the island (R547, R562, R565). -/
def halShown : List RegRef :=
  [Reg.HAL.HAL_STATUS, Reg.HAL.EVENT_CNT, Reg.HAL.AUDIT_FREE, Reg.HAL.FW_CRC, Reg.HAL.SW_ID 0, Reg.HAL.SW_ID 1,
   Reg.HAL.SW_ID 2, Reg.HAL.SW_ID 3, Reg.HAL.OP_SECONDS] ++ irqOf .HAL 0

/-- An island reply: the result, the reason and the value it gives (R553). -/
def HalSt.answered (h : HalSt) (ok : Bool) (reason : Nat) (value : Word) : Prop :=
  h.req = none ∧ ∃ y, h.reply = some y ∧ y.ok = ok ∧ y.reason = reason ∧ y.words.getD 1 0 = value

/-- The state once the head of context `c`'s submission ring has advanced by one descriptor (R402): what the rest of an
admission reads. -/
def State.headTaken (s : State) (c : Nat) : State := (Act.mem (s.ctxAddr c + 24) 4 (s.ctxSqHead c + 1)).run s

/-- The dispatcher finds unit `u` in slot `k` of local stream `n` next, and accepts it as it is (R43 to R47, R405). -/
def State.nextUnit (s : State) (n k : Nat) (u : DUnit) : Prop :=
  let r := s.streamRec n
  let st : RxSt := alGet {} (rxKey .DISP 0 u.stream) s.hw.rx
  (s.streamSt n).queue = [] ∧ s.hasUnit n = true ∧ k = (s.streamSt n).take % max r.slots 1 ∧ u = s.unitAt n k ∧ u.crc = u.crcOf ∧
  headerFaults u r.cls ((u.stream.toNat / 512 == s.devNum && !u.has fREMOTE) && s.authorised (u.stream.toNat % 512)) st.closed = [] ∧
  u.fc = st.e ∧ u.item ∉ st.broken ∧ keysRise s.hw.streams

/-- The host's 32-bit write by function `f` to a register is accepted: `f`'s BAR0 shows the register (R452), and no rule
drops the write (R8, R453, R684, R686). -/
def State.accepts (s : State) (f : Nat) (r : RegRef) (v : Word) : Bool :=
  (f == 0 || (r.blk == .FUNC && r.inst == f)) && writeKind s f r.blk r.inst r.off v == 0

end Sys2Proof.Machine
end

