-- ==== Sys2Proof/Certificates/Slice0/Obligations.lean ====
section
/-! DEFINITION. The statements for the provers. `s.live`: the state is sound and the main side is not held in reset.
`.next t.settled`: the command's own effect leaves `t`, and then follows at once what other blocks make of it
(`State.settled`; nothing in a still state: `StillIsSettled`). -/

open Sys2Proof Sys2Proof.Machine

/-! ### The step, the queue, reset -/

/-- O1. A command at the front of the queue runs on the state with the queue's rest. -/
def Obligations.StepRunsFrontCommand : Prop :=
  ∀ (c : Instr) (rest : List Instr) (s : State),
    step { s with pending := c :: rest } = exec c { s with pending := rest }

/-- O2. On an empty queue one nanosecond passes: outside deep sleep the TSC advances by 1 ns, by 0, 1 or 2 while it is
slewed (R53, R57; the nanosecond of an empty queue is the model's choice, log entry 2), and a sample set held back for its
data lines starts when its time has come (R368, R370); in DEEP_SLEEP the state stays, since there it advances by
TSC_SLEEP_TICK alone (R55). -/
def Obligations.EmptyQueuePassesTime : Prop :=
  ∀ s : State, s.pending = [] →
    (s.fld Reg.PWR.PWR_STATUS 2 0 = 3 → step s = .next s) ∧
    (s.fld Reg.PWR.PWR_STATUS 2 0 ≠ 3 → ∃ t : State, step s = .next t ∧
      (∃ d : Nat, d ≤ 2 ∧ t.tsc = s.tsc + BitVec.ofNat 64 d ∧ (s.slewPpb = 0 ∧ s.hw.time.slewAcc = 0 → d = 1)) ∧
      ((∀ x, s.hw.mot.set_ = some x → x.held = false) → t.regs = s.regs) ∧
      (∀ x, s.hw.mot.set_ = some x → x.held = true → x.stamp ≤ t.now → t.hw.mot.set_ = some { x with held := false, encs := s.setEncs }) ∧
      SameRegs [Reg.SSI.SSI_STATUS] s t ∧ t.mem = s.mem ∧ t.es = s.es ∧ t.poison = s.poison ∧ t.out = s.out ∧ t.pending = [])

/-- O3. Every command answers a next state; it leaves the waiting commands as they are, takes back nothing that has left
the block, and uses open values in order. -/
def Obligations.EveryCommandAnswers : Prop :=
  ∀ (c : Instr) (s : State), ∃ t : State, exec c s = .next t ∧ t.pending = s.pending ∧ s.out <+: t.out ∧ s.freeCtr ≤ t.freeCtr

/-- O4. Every step keeps the state sound: memory, the engine stores and the list of poisoned words in canonical form, the
register list in order and without a reserved bit. -/
def Obligations.StepKeepsSound : Prop := ∀ s t : State, s.sound → step s = .next t → t.sound

/-- O5. The state after reset is sound. -/
def Obligations.ResetIsSound : Prop := State.reset.sound

/-- O6. In a sound state the reserved bits of every register read 0 (R8). -/
def Obligations.ReservedBitsReadZero : Prop :=
  ∀ (s : State) (r : RegRef), s.sound → r.row.isSome → s.rd r &&& ~~~ r.mask = 0

/-- O7. After VDD_AON power-on the TSC starts at 0 (R54), every register holds the value its table states,
the device is in RESET, and nothing is in memory, in the queues or admitted. -/
def Obligations.ResetState : Prop :=
  State.reset.tsc = 0 ∧ (∀ r : RegRef, State.reset.rd r = r.resetVal) ∧ State.reset.pending = [] ∧ State.reset.mem = [] ∧
  State.reset.es = [] ∧ State.reset.hw.disp.cmds = []

/-- O8. While the main side is held in reset, a command changes nothing, those apart that act in reset: the resets and
power events themselves, the rails, the thermal sensors and the island (R708). -/
def Obligations.HeldInReset : Prop :=
  ∀ (c : Instr) (s : State), s.hw.boot.inReset = true →
    (match c with
     | .railLost _ | .thermalRead _ | .sysRstNTaken | .resetHeldLong | .sysRstNRelease _ | .vddAonPowerOn | .pwrFailNFall
     | .pwrFailNRise _ | .brownoutReset | .corePowerStart _ _ _ | .halSet | .halAuditRead | .halIdent _ | .halZero | .halTare
     | .halTareClear | .weighingWindowEnd _ | .firmwareCheck _ | .islandStart _ _ _ | .halRstN | .halPowerFailWarning _
     | .halParameterGet | .islandClockDeviation => True
     | _ => exec c s = .next s)

/-- O9. In a still state nothing follows from a command in other blocks: the state is settled. -/
def Obligations.StillIsSettled : Prop := ∀ s : State, s.still = true → s.settled = s

/-! ### The host interface and time -/

/-- O10. REGISTER_WRITE (R8, R683): a 32-bit write of the physical function to an RW register of a page whose registers
have no effect of their own leaves the stored value, adds one to the page's WRITE_COUNT, and touches no other register but
those of the journal; what is dropped leaves the register as it was and is logged. READ_CLEAR (R8): a full read of an RC
register returns its value and clears it. -/
def Obligations.RegisterWriteAndReadClear : Prop :=
  (∀ (s : State) (b : Blk) (i off : Nat) (row : RegRow) (v : Word),
    s.live → b ∈ [Blk.CMN, Blk.MEMC, Blk.JPG, Blk.CLK, Blk.VRC] → rowAt b i off = some row → 0x40 ≤ off → row.acc = .RW →
    row.shared = false → off % 4 = 0 →
    ∃ t : State, exec (.registerWrite 0 (BitVec.ofNat 26 (RegRef.key ⟨b, i, off⟩)) (leBytes 4 v.toNat)) s = .next t.settled ∧
      t.rd ⟨b, i, off⟩ = storedValue row (s.rd ⟨b, i, off⟩) v &&& row.mask ∧
      t.rd (Reg.HDR.WRITE_COUNT b i) = (s.rd (Reg.HDR.WRITE_COUNT b i) + 1) &&& RegRef.mask (Reg.HDR.WRITE_COUNT b i) ∧
      SameRegs (⟨b, i, off⟩ :: hostTrail b i) s t ∧ t.es = s.es ∧ t.tsc = s.tsc) ∧
  (∀ (s : State) (f : Fin 32) (b : Blk) (i off k : Nat) (v : Word),
    s.live → f.val = 0 ∧ i < b.count → off < 4096 → off % 4 = 0 → writeKind s 0 b i off v = k → k ≠ 0 → k ≠ 6 →
    (pageAt (b.slot + i) = some (b, i) ∧ b.slot + i ≠ 0x30 ∧ b.slot + i ≠ 0x31) →
    ∃ t : State, exec (.registerWrite f (BitVec.ofNat 26 (RegRef.key ⟨b, i, off⟩)) (leBytes 4 v.toNat)) s = .next t.settled ∧
      Quiet (logOf b i) s t ∧
      (s.bit (Reg.HDR.ACC_ERR b i) 24 = false → t.fld (Reg.HDR.ACC_ERR b i) 15 12 = k ∧ t.fld (Reg.HDR.ACC_ERR b i) 11 2 = off / 4 ∧
        t.bit (Reg.HDR.ACC_ERR b i) 24 = true)) ∧
  (∀ (s : State) (b : Blk) (i off : Nat) (row : RegRow),
    s.live → rowAt b i off = some row → row.acc = .RC → off % 4 = 0 →
    ∃ t : State, exec (.readClear 0 (BitVec.ofNat 26 (RegRef.key ⟨b, i, off⟩))) s = .next t.settled ∧
      t.out = s.out ++ [.readData 0 (leBytes 4 (s.regRead b i off).toNat) false] ∧
      ((b = .CMN ∧ 0x050 ≤ off) ∧ t.regRead b i off = 0 ∧ t.regs = s.regs ∧ (∃ c, t.hw = { s.hw with cmn := c }) ∨
        (b = .MEMC ∧ (off = 0x054 ∨ off = 0x058)) ∧ t.regRead b i off = 0 ∧ t.regs = s.regs ∧ (∃ m, t.hw = { s.hw with memc := m }) ∨
        ¬(b = .CMN ∧ 0x050 ≤ off) ∧ ¬(b = .MEMC ∧ (off = 0x054 ∨ off = 0x058)) ∧ t.rd (regAt b i off) = 0 ∧
          SameRegs [regAt b i off] s t ∧ t.hw = s.hw) ∧
      t.mem = s.mem ∧ t.es = s.es ∧ t.tsc = s.tsc)

/-- O11. UNPOPULATED_ACCESS (R682): a read of a slot without a page returns all ones, a write there is dropped; both are
recorded in UNPOP_LOG and raise source 23. UNALIGNED_READ (R681): a read across a register boundary without alignment is
answered with a Completer Abort and counted. BAR2_INVALID_WRITE (R679): a write that is no doorbell is dropped and logged. -/
def Obligations.InvalidAccesses : Prop :=
  (∀ (s : State) (a : BitVec 26) (isRead : Bool),
    s.live → pageAt (a.toNat / 4096) = none → a.toNat / 4096 ≠ 0x30 → a.toNat / 4096 ≠ 0x31 →
    ∃ t : State, exec (.unpopulatedAccess a isRead) s = .next t ∧
      t.out = s.out ++ (if isRead then [.readData 0 (List.replicate 4 0xFF) false] else []) ∧
      t.bit Reg.HOST.UNPOP_LOG 15 = true ∧ t.bit (Reg.HDR.IRQ_PEND .HOST 0) 3 = true ∧
      (s.bit Reg.HOST.UNPOP_LOG 15 = false → t.fld Reg.HOST.UNPOP_LOG 13 0 = a.toNat / 4096 ∧
        t.fld Reg.HOST.UNPOP_LOG 31 16 = 1 ∧ t.bit Reg.HOST.UNPOP_LOG 14 = isRead) ∧
      SameRegs (Reg.HOST.UNPOP_LOG :: irqOf .HOST 0) s t ∧ t.mem = s.mem ∧ t.es = s.es ∧ t.tsc = s.tsc) ∧
  (∀ (s : State) (a : BitVec 26) (n : Nat),
    s.live → a.toNat % 4 ≠ 0 → 4 < a.toNat % 4 + n → (s.rd Reg.HOST.CA_CNT).toNat < 4294967295 →
    ∃ t : State, exec (.unalignedRead a n) s = .next t ∧ t.out = s.out ++ [.completerAbort 0] ∧
      (t.rd Reg.HOST.CA_CNT).toNat = (s.rd Reg.HOST.CA_CNT).toNat + 1 ∧
      SameRegs [Reg.HOST.CA_CNT] s t ∧ t.mem = s.mem ∧ t.es = s.es ∧ t.tsc = s.tsc ∧ t.hw = s.hw) ∧
  (∀ (s : State) (f : Fin 32) (off : BitVec 16) (n : Nat),
    s.live → 0x4000 ≤ off.toNat ∨ n < 4 ∨ (off.toNat % 64 ≠ 0 ∧ off.toNat % 64 ≠ 4) →
    ∃ t : State, exec (.bar2InvalidWrite f off n) s = .next t ∧ Quiet (logOf .FUNC f.val) s t ∧
      (s.bit (Reg.HDR.ACC_ERR .FUNC f.val) 24 = false →
        t.fld (Reg.HDR.ACC_ERR .FUNC f.val) 15 12 = (if 0x4000 ≤ off.toNat then 1 else if n < 4 then 2 else 1) ∧
        t.fld (Reg.HDR.ACC_ERR .FUNC f.val) 20 16 = f.val ∧ t.fld (Reg.HDR.ACC_ERR .FUNC f.val) 31 26 = 1))

/-- O12. BAR4_WRITE (R680): outside C2_REGION and with the journal off, every enabled byte of the write is stored at its
address in the commons, and no other byte changes. BAR4_READ (R680): a read returns the bytes, and the poisoned-data
indication when it touches a poisoned word; with no injection waiting and every word sound nothing else changes but the
traffic counters of the slices (R21). A word found with an uncorrectable error is recorded in ECC_ADDR, raises source
288 + 2c, and comes with the poisoned-data indication (R20). -/
def Obligations.CommonsAccess : Prop :=
  (∀ (s : State) (a : BitVec 27) (l : List (Option Byte)) (eccs : Eccs),
    s.live → s.fld Reg.SAFE.C2_REGION 26 16 = 0 → s.bit Reg.JRNL.JRNL_CTRL 0 = false →
    ∃ t : State, exec (.bar4Write a (l, eccs)) s = .next t.settled ∧
      (∀ x, t.byte x = if a.toNat ≤ x ∧ x < commonsSize then ((l[x - a.toNat]?).getD none).getD (s.byte x) else s.byte x) ∧
      (eccs = [] → (∀ c < 16, s.rd (Reg.CMN.INJECT c) = 0) → SameRegs [] s t ∧ ∃ c, t.hw = { s.hw with cmn := c }) ∧
      t.es = s.es ∧ t.tsc = s.tsc ∧ t.out = s.out) ∧
  (∀ (s : State) (a : BitVec 27) (n : Nat),
    s.live → (∀ c < 16, s.rd (Reg.CMN.INJECT c) = 0) →
    (∃ t : State, exec (.bar4Read a (n, [])) s = .next t.settled ∧
      t.out = s.out ++ [.readData 0 (s.read a.toNat n) (s.readsPoison a.toNat n)] ∧ SameRegs [] s t ∧ t.mem = s.mem ∧
      t.poison = s.poison ∧ t.es = s.es ∧ t.tsc = s.tsc ∧ ∃ c, t.hw = { s.hw with cmn := c }) ∧
    (∀ w : BitVec 45, a.toNat / 8 ≤ w.toNat → 8 * w.toNat < a.toNat + n → 8 * w.toNat < commonsSize →
      let c := w.toNat / 0x100000
      ∃ t : State, exec (.bar4Read a (n, [(w, .uncorr)])) s = .next t.settled ∧
        t.out = s.out ++ [.readData 0 (s.read a.toNat n) true] ∧ t.poisoned w.toNat = true ∧
        t.rd (Reg.CMN.ECC_ADDR c) = BitVec.ofNat 32 (0x80000000 + w.toNat % 0x100000) ∧ t.pend .CMN c 0 = true ∧
        t.fld (Reg.CMN.ECC_CNT c) 31 16 = min (s.fld (Reg.CMN.ECC_CNT c) 31 16 + 1) 65535 ∧
        SameRegs ([Reg.CMN.ECC_CNT c, Reg.CMN.ECC_ADDR c] ++ irqOf .CMN c) s t ∧ t.mem = s.mem ∧ t.es = s.es ∧ t.tsc = s.tsc))

/-- O13. LOCK_CMD (R687): the write with the key sets the driver lock of a lockable page and reports OK; with another key
it locks nothing and reports reason 1. -/
def Obligations.LockCommand : Prop :=
  ∀ (s : State) (v : Word), s.live → s.accepts 0 Reg.TOP.LOCK_CMD v = true →
    (bits v 31 16 ≠ 0x1D0C → ∃ t : State, exec (.lockCmd 0 v) s = .next t ∧ t.rd Reg.TOP.LOCK_RESULT = 0x101#32 ∧
      (∀ b i, t.rd (Reg.HDR.LOCK_OWNER b i) = s.rd (Reg.HDR.LOCK_OWNER b i))) ∧
    (∀ b i, bits v 31 16 = 0x1D0C → pageAt (bits v 13 0) = some (b, i) → b.lockable = true →
      ∃ t : State, exec (.lockCmd 0 v) s = .next t ∧ t.rd Reg.TOP.LOCK_RESULT = 0x003#32 ∧ t.locked b i = true ∧
        t.bit (Reg.HDR.LOCK_OWNER b i) 0 = true ∧ t.es = s.es ∧ t.tsc = s.tsc ∧ t.out = s.out)

/-- O14. The four interrupt header registers (R683): each 1 written to IRQ_PEND_SET sets that bit of IRQ_PEND, to
IRQ_PEND_CLR clears it, to IRQ_MASK_SET sets that bit of IRQ_MASK, to IRQ_MASK_CLR clears it, among the bits the page
uses; no register of another page changes, the journal's and R497's refusal apart. -/
def Obligations.InterruptHeader : Prop :=
  ∀ (s : State) (slot : BitVec 14) (v : Word) (b : Blk) (i : Nat),
    s.live → pageAt slot.toNat = some (b, i) → b ≠ .CMP → b ≠ .JRNL →
    let use := v &&& irqMaskOf b i
    let pend := s.rd (Reg.HDR.IRQ_PEND b i)
    let mask := s.rd (Reg.HDR.IRQ_MASK b i)
    (∃ t : State, exec (.irqPendSet 0 slot v) s = .next t ∧ t.rd (Reg.HDR.IRQ_PEND b i) = pend ||| use ∧
      t.rd (Reg.HDR.IRQ_MASK b i) = mask ∧ SameRegs (irqOf b i ++ hostTrail b i) s t) ∧
    (∃ t : State, exec (.irqPendClr 0 slot v) s = .next t ∧ t.rd (Reg.HDR.IRQ_PEND b i) = pend &&& ~~~ use ∧
      t.rd (Reg.HDR.IRQ_MASK b i) = mask ∧ SameRegs (irqOf b i ++ hostTrail b i) s t) ∧
    (∃ t : State, exec (.irqMaskSet 0 slot v) s = .next t ∧ t.rd (Reg.HDR.IRQ_MASK b i) = mask ||| use ∧
      t.rd (Reg.HDR.IRQ_PEND b i) = pend ∧ SameRegs (irqOf b i ++ hostTrail b i) s t) ∧
    (∃ t : State, exec (.irqMaskClr 0 slot v) s = .next t ∧ t.rd (Reg.HDR.IRQ_MASK b i) = mask &&& ~~~ use ∧
      t.rd (Reg.HDR.IRQ_PEND b i) = pend ∧ SameRegs (irqOf b i ++ hostTrail b i) s t)

/-- O15. The TSC (R55, R56, R59; TSC_LOAD is O59). CLR_COARSE clears COARSE on a standalone device. TSC_LO_READ answers the low half and latches
the high half into TSC_HI. TSC_SLEEP_TICK adds 30,517 ns and the overflow of the 6-bit fraction. -/
def Obligations.TimeCommands : Prop :=
  (∀ (s : State) (v : Word), s.live → s.accepts 0 Reg.TSC.TSC_CMD (v ||| 2) = true → v.getLsbD 0 = false →
    s.fld Reg.TSC.TSC_STATUS 3 2 = 0 →
    ∃ t : State, exec (.clrCoarse 0 v) s = .next t ∧ t.bit Reg.TSC.TSC_STATUS 0 = false ∧ t.tsc = s.tsc ∧
      (s.bit Reg.TSC.TSC_STATUS 0 = true → t.bit (Reg.HDR.IRQ_PEND .AON 0) 6 = true) ∧ t.es = s.es ∧ t.out = s.out) ∧
  (∀ s : State, s.live →
    ∃ t : State, exec (.tscLoRead 0) s = .next t ∧ t.rd Reg.TSC.TSC_HI = (s.tsc >>> 32).setWidth 32 ∧
      t.out = s.out ++ [.readData 0 (leBytes 4 (s.tsc.toNat % 4294967296)) false] ∧
      SameRegs [Reg.TSC.TSC_HI] s t ∧ t.tsc = s.tsc ∧ t.mem = s.mem ∧ t.es = s.es ∧ t.hw = s.hw) ∧
  (∀ s : State, s.live → s.fld Reg.PWR.PWR_STATUS 2 0 = 3 →
    ∃ t : State, exec .tscSleepTick s = .next t ∧
      t.tsc = s.tsc + BitVec.ofNat 64 (30517 + (s.hw.time.sleepFrac.toNat + 37) / 64) ∧
      t.hw.time.sleepFrac = s.hw.time.sleepFrac + 37 ∧ SameRegs [Reg.TSC.SLEEP_CYCLES] s t ∧
      t.mem = s.mem ∧ t.es = s.es ∧ t.out = s.out)

/-! ### Commons, units and links -/

/-- O16. COMMONS_SCRUB (R20): with SCRUB_EN 1 and no injection waiting, a correctable error is counted in ECC_CNT.CORR; an
uncorrectable one is counted in ECC_CNT.UNCORR, recorded in ECC_ADDR, raises source 288 + 2c and poisons the word; data in
memory stays. -/
def Obligations.CommonsScrub : Prop :=
  ∀ (s : State) (c : Fin 16) (w : BitVec 20), s.live → s.bit (Reg.CMN.CMN_CTRL c) 0 = true → s.rd (Reg.CMN.INJECT c) = 0 →
    (∃ t : State, exec (.commonsScrub c w .corr) s = .next t.settled ∧
      t.fld (Reg.CMN.ECC_CNT c) 15 0 = min (s.fld (Reg.CMN.ECC_CNT c) 15 0 + 1) 65535 ∧ t.poison = s.poison ∧ t.mem = s.mem ∧
      SameRegs ([Reg.CMN.ECC_CNT c] ++ irqOf .CMN c) s t) ∧
    (∃ t : State, exec (.commonsScrub c w .uncorr) s = .next t.settled ∧
      t.fld (Reg.CMN.ECC_CNT c) 31 16 = min (s.fld (Reg.CMN.ECC_CNT c) 31 16 + 1) 65535 ∧
      t.rd (Reg.CMN.ECC_ADDR c) = BitVec.ofNat 32 (0x80000000 + w.toNat) &&& RegRef.mask (Reg.CMN.ECC_ADDR c) ∧
      t.bit (Reg.HDR.IRQ_PEND .CMN c) 0 = true ∧ t.poisoned (c * 0x100000 + w.toNat) = true ∧ t.mem = s.mem ∧
      SameRegs ([Reg.CMN.ECC_CNT c, Reg.CMN.ECC_ADDR c] ++ irqOf .CMN c) s t)

/-- O17. UNIT_RECEIVE (R43, R47): a unit whose CRC does not match is discarded whole, counted in CRC_CNT and recorded in
ERR_STATUS; a good unit with the counter expected is accepted as it is, and the counter expected rises by one. -/
def Obligations.UnitReceive : Prop :=
  ∀ (s : State) (slot : BitVec 14) (u : DUnit) (b : Blk) (i : Nat), s.live → pageAt slot.toNat = some (b, i) →
    let st : RxSt := alGet {} (rxKey b i u.stream) s.hw.rx
    let cls := match s.localStream u.stream with
      | some n => (s.streamRec n).cls
      | none => u.cls.toNat
    let auth := (u.stream.toNat / 512 == s.devNum && !u.has fREMOTE) && s.authorised (u.stream.toNat % 512)
    (u.crc ≠ u.crcOf → ∃ t : State, exec (.unitReceive slot u) s = .next t.settled ∧ t.hw.inbox = s.hw.inbox ∧
      t.fld (Reg.HDR.ERR_STATUS b i) 31 24 = min (s.fld (Reg.HDR.ERR_STATUS b i) 31 24 + 1) 255 ∧
      t.bit (Reg.HDR.ERR_STATUS b i) 0 = true ∧ SameRegs [Reg.HDR.ERR_STATUS b i] s t ∧ SameRest s t) ∧
    (u.crc = u.crcOf → headerFaults u cls auth st.closed = [] → u.fc = st.e → u.item ∉ st.broken → keysRise s.hw.rx →
      ∃ t : State, exec (.unitReceive slot u) s = .next t.settled ∧ t.hw.inbox = s.hw.inbox ++ [(slot.toNat, u)] ∧
        (alGet ({} : RxSt) (rxKey b i u.stream) t.hw.rx).e = st.e + 1 ∧ t.regs = s.regs ∧ SameRest s t)

/-- O18. LINK_UNIT_ARRIVE (R52): an arriving unit gets REMOTE and its hop count rises by one; a unit that would exceed seven
hops is discarded and counted as a loop event. -/
def Obligations.LinkUnitArrive : Prop :=
  ∀ (s : State) (k : Fin 4) (u : DUnit), s.live → s.portUp k = true →
    (u.hops.toNat < 7 → ∃ t : State, exec (.linkUnitArrive k u) s = .next t.settled ∧ t.regs = s.regs ∧ SameRest s t ∧
      ∃ v : DUnit, t.hw.inbox = s.hw.inbox ++ [(Blk.LINK.slot + k, v)] ∧ v.has fREMOTE = true ∧ v.hops = u.hops + 1 ∧
        v.payload = u.payload ∧ v.item = u.item ∧ v.crc = u.crc) ∧
    (7 ≤ u.hops.toNat → (s.rd (Reg.LINK.LOOP_CNT k)).toNat < 4294967295 →
      ∃ t : State, exec (.linkUnitArrive k u) s = .next t.settled ∧ t.hw.inbox = s.hw.inbox ∧
        t.rd (Reg.LINK.LOOP_CNT k) = (s.rd (Reg.LINK.LOOP_CNT k) + 1) &&& RegRef.mask (Reg.LINK.LOOP_CNT k) ∧
        t.bit (Reg.HDR.IRQ_PEND .LINK k) 4 = true ∧ Quiet (Reg.LINK.LOOP_CNT k :: irqOf .LINK k) s t)

/-- O19. A port comes up and goes down (R632, R635, R648): LINK_ENABLE starts training; LINK_TRAINED brings a training port
up, at full width with all four lanes in service, with the trained delay, and sends discovery; LINK_TIMEOUT takes a port
down that saw no valid flit for LINK_TO µs, raising its source; with the last port the device is standalone, not aligned,
and runs by its own rate again (R57, R60). -/
def Obligations.LinkStates : Prop :=
  (∀ (s : State) (k : Fin 4) (v : Word), s.live → s.accepts 0 (Reg.LINK.LINK_CTRL k) (v ||| 1) = true →
    s.bit (Reg.LINK.LINK_CTRL k) 0 = false →
    ∃ t : State, exec (.linkEnable 0 k v) s = .next t.settled ∧ t.linkState k = 1 ∧ t.bit (Reg.LINK.LINK_CTRL k) 0 = true ∧
      SameRegs ([Reg.LINK.LINK_CTRL k, Reg.LINK.LINK_STATUS k] ++ hostTrail .LINK k) s t ∧ t.es = s.es ∧ t.out = s.out) ∧
  (∀ (s : State) (k : Fin 4) (dev : BitVec 3) (port : BitVec 2) (d : Word), s.live → s.linkState k = 1 →
    s.fld (Reg.LINK.LINK_CTRL k) 6 4 ≤ s.laneWidth k → 0 < s.laneWidth k →
    ∃ t : State, exec (.linkTrained k dev port d) s = .next t.settled ∧ t.portUp k = true ∧
      (s.laneWidth k = 4 → t.linkState k = 2) ∧ t.fld (Reg.LINK.LINK_STATUS k) 10 8 = dev.toNat ∧
      t.rd (Reg.LINK.LINK_DELAY k) = d &&& RegRef.mask (Reg.LINK.LINK_DELAY k) ∧ t.bit (Reg.HDR.IRQ_PEND .LINK k) 7 = true ∧
      s.out.length < t.out.length ∧
      SameRegs ([Reg.LINK.LINK_STATUS k, Reg.LINK.LINK_DELAY k] ++ irqOf .LINK k) s t ∧ t.mem = s.mem ∧ t.es = s.es) ∧
  (∀ (s : State) (k : Fin 4), s.live → s.portUp k = true →
    (s.port k).last + s.fld (Reg.LINK.LINK_TO k) 7 0 * 1000 ≤ s.now →
    ∃ t : State, exec (.linkTimeout k) s = .next t.settled ∧ t.linkState k = 0 ∧ t.bit (Reg.HDR.IRQ_PEND .LINK k) 0 = true ∧
      ((List.range 4).all (fun j => decide (j = k) || !s.portUp j) = true →
        t.fld Reg.TSC.TSC_STATUS 3 2 = 0 ∧ t.bit Reg.TSC.TSC_STATUS 1 = false ∧ t.hw.time.alignPpb = 0) ∧
      SameRegs ([Reg.LINK.LINK_STATUS k, Reg.LINK.DEV_STATUS, Reg.TSC.TSC_STATUS] ++ irqOf .LINK k ++
        irqOf .LINK (s.portTo (s.fld Reg.LINK.DEV_STATUS 18 16))) s t ∧ SameRest s t)

/-- O20. Flits and lanes (R629 to R631): a good flit in sequence moves the sequence number expected; the flits it
acknowledges leave the replay buffer. A lane that fails or wears out is marked in LANE_MAP and the spare, if one is left,
takes its logical place. EQUALISATION_UPDATE sends a control flit. -/
def Obligations.FlitsAndLanes : Prop :=
  (∀ (s : State) (k : Fin 4) (fl : Flit), s.live → s.portUp k = true → k.val < s.hw.link.ports.length →
    fl.bad = false → fl.seq = (s.port k).rxSeq →
    ∃ t : State, exec (.flitReceive k fl) s = .next t.settled ∧ (t.port k).rxSeq = (s.port k).rxSeq + 1 ∧ (t.port k).last = s.now ∧
      (∀ e ∈ (t.port k).replay, e ∈ (s.port k).replay ∧ (fl.ack - e.1 = 0 ∨ 32768 ≤ (fl.ack - e.1).toNat)) ∧
      SameRegs [Reg.LINK.FEC_CORR k, Reg.LINK.REPLAY_CNT k] s t ∧ t.mem = s.mem ∧ t.es = s.es) ∧
  (∀ (s : State) (k : Fin 4) (lane : Fin 5), s.live → s.portUp k = true →
    s.bit (Reg.LINK.LANE_MAP k) (16 + lane) = false →
    let out (t : State) : Prop := t.bit (Reg.LINK.LANE_MAP k) (16 + lane) = true ∧
      (∀ l p, ((List.range 4).find? fun l => s.fld (Reg.LINK.LANE_MAP k) (3 * l + 2) (3 * l) == lane.val) = some l →
        ((List.range 5).find? fun p => !s.bit (Reg.LINK.LANE_MAP k) (16 + p) && p != lane.val &&
          (List.range 4).all fun l => s.fld (Reg.LINK.LANE_MAP k) (3 * l + 2) (3 * l) != p) = some p →
        t.fld (Reg.LINK.LANE_MAP k) (3 * l + 2) (3 * l) = p ∧ t.linkState k = s.linkState k) ∧
      t.mem = s.mem ∧ t.es = s.es ∧ t.tsc = s.tsc
    (∃ t : State, exec (.laneFailure k lane) s = .next t.settled ∧ out t) ∧
    (∃ t : State, exec (.laneWorn k lane) s = .next t.settled ∧ out t)) ∧
  (∀ (s : State) (k : Fin 4), s.live → s.portUp k = true →
    ∃ t : State, exec (.equalisationUpdate k) s = .next t ∧
      t.out = s.out ++ [.flit (s.fld (Reg.LINK.LINK_STATUS k) 10 8) "equalisation" []] ∧
      SameRegs [Reg.LINK.LANE_HEALTH k] s t ∧ t.mem = s.mem ∧ t.es = s.es ∧ t.hw = s.hw)

/-- O21. The group of devices (R633, R636, R651, R653): a device whose requested number nobody else requests takes it;
ROUTE_RECOMPUTE gives every other device its best route; SYNC_EXCHANGE shows the offset in TIME_OFS; ALIGNED_SET sets
ALIGNED and clears COARSE once the offset has stayed within ±2 ns for 1 ms. -/
def Obligations.LinkGroup : Prop :=
  (∀ (s : State) (peers : List PeerInfo), s.live → (List.range 4).any s.portUp = true →
    let req := if s.bit Reg.LINK.DEV_STATUS 3 then s.devNum else s.devReq
    req ≤ 7 → (∀ p ∈ peers, p.devReq.toNat ≠ req ∧ p.id ≠ Config.uniqueId) →
    ∃ t : State, exec (.deviceNumbering peers) s = .next t.settled ∧ t.fld Reg.LINK.DEV_STATUS 2 0 = req ∧
      t.bit Reg.LINK.DEV_STATUS 3 = true ∧ t.bit Reg.LINK.DEV_STATUS 5 = false ∧ s.tsc.toNat ≤ t.tsc.toNat ∧
      SameRegs [Reg.LINK.DEV_STATUS, Reg.TSC.TSC_STATUS] s t ∧ t.mem = s.mem ∧ t.es = s.es ∧ t.out = s.out) ∧
  (∀ (s : State) (paths : List RoutePath), s.live →
    ∃ t : State, exec (.routeRecompute paths) s = .next t.settled ∧
      (∀ d < 8, d ≠ s.devNum → alFind d t.hw.link.routes = (s.bestRoute paths d).map (·.1)) ∧
      t.bit (Reg.HDR.IRQ_PEND .LINK 0) 7 = true ∧ t.mem = s.mem ∧ t.es = s.es ∧ t.tsc = s.tsc) ∧
  (∀ (s : State) (k : Fin 4) (t1 t2 t3 t4 : DWord), s.live → s.portUp k = true →
    ∃ t : State, exec (.syncExchange k t1 t2 t3 t4) s = .next t ∧
      t.rd (Reg.LINK.TIME_OFS k) =
        BitVec.ofInt 32 ((((t2.toNat : Int) - t1.toNat) - ((t4.toNat : Int) - t3.toNat)) * 500 + (s.port k).asym) &&&
          RegRef.mask (Reg.LINK.TIME_OFS k) ∧
      t.mem = s.mem ∧ t.es = s.es ∧ t.tsc = s.tsc ∧ t.out = s.out) ∧
  (∀ (s : State) (t0 : Nat), s.live → s.hw.link.within = some t0 → s.fld Reg.TSC.TSC_STATUS 3 2 = 1 → t0 + 1000000 ≤ s.now →
    ∃ t : State, exec .alignedSet s = .next t ∧ t.bit Reg.TSC.TSC_STATUS 1 = true ∧ t.bit Reg.TSC.TSC_STATUS 0 = false ∧
      Quiet ([Reg.TSC.TSC_STATUS] ++ irqOf .AON 0) s t)

/-- O22. Accesses and units of other devices (R638, R640): an access inside a window that allows it acts on memory, any
other is refused, counted and told to the device that asked. An imported unit enters the ring of its local stream; one
without an import entry is counted in IMP_MISS. -/
def Obligations.RemoteAccessAndImport : Prop :=
  (∀ (s : State) (dev : BitVec 3) (a : DWord) (l : List Byte), s.live → s.inC2 a.toNat l.length = false →
    (s.hw.link.wins.any fun w => windowAllows w dev.toNat a.toNat l.length true) = true →
    ∃ t : State, exec (.remoteAccessRequest dev (.write a l)) s = .next t.settled ∧
      (∀ x, t.byte x = if a.toNat ≤ x ∧ x < a.toNat + l.length then (l[x - a.toNat]?).getD 0 else s.byte x) ∧
      t.regs = s.regs ∧ t.es = s.es ∧ t.tsc = s.tsc ∧ t.out = s.out ∧ ∃ c, t.hw = { s.hw with cmn := c }) ∧
  (∀ (s : State) (dev : BitVec 3) (a : DWord) (l : List Byte), s.live → (s.rd Reg.LINK.WIN_REFUSE).toNat < 4294967295 →
    (s.hw.link.wins.any fun w => windowAllows w dev.toNat a.toNat l.length true) = false →
    ∃ t : State, exec (.remoteAccessRequest dev (.write a l)) s = .next t.settled ∧
      (t.rd Reg.LINK.WIN_REFUSE).toNat = (s.rd Reg.LINK.WIN_REFUSE).toNat + 1 ∧ t.mem = s.mem ∧ t.es = s.es) ∧
  (∀ (s : State) (u : DUnit), s.live → s.importOf u.stream = none → (s.rd Reg.LINK.IMP_MISS).toNat < 4294967295 →
    ∃ t : State, exec (.importUnitArrive u) s = .next t.settled ∧ (t.rd Reg.LINK.IMP_MISS).toNat = (s.rd Reg.LINK.IMP_MISS).toNat + 1 ∧
      SameRegs [Reg.LINK.IMP_MISS] s t ∧ SameRest s t) ∧
  (∀ (s : State) (u : DUnit) (n : Nat), s.live → s.importOf u.stream = some n → (∀ x ∈ s.hw.link.waiting, x.1 ≠ n) →
    let st : RxSt := alGet {} (rxKey .LINK 0 u.stream) s.hw.rx
    let auth := (u.stream.toNat / 512 == s.devNum && !u.has fREMOTE) && s.authorised (u.stream.toNat % 512)
    u.crc = u.crcOf → headerFaults u (s.streamRec n).cls auth st.closed = [] → u.fc = st.e → u.item ∉ st.broken →
    s.streamFull n = false →
    ∃ t : State, exec (.importUnitArrive u) s = .next t.settled ∧
      t.readN (s.streamAddr n + 12) 4 = nextSlot (s.streamRec n).tail (s.streamRec n).slots ∧
      t.hw.link.waiting = s.hw.link.waiting ∧ t.es = s.es ∧ t.tsc = s.tsc ∧ t.out = s.out)

/-! ### Line and frame capture -/

/-- O23. Encoders (R83 to R90, R117). An accepted edge moves the position count and clears STOPPED; an edge too soon, or an
illegal transition, is overspeed. In overspeed the timer triggers a line and is set for the next; no edge for STALL_US
stops the encoder; a line fault is shown; a DIV_FRAC write takes both halves, at least 1.0; the line timer of an encoder
that paths in TRIG_MODE 1 name triggers, counts the trigger and is set for the next line. -/
def Obligations.EncoderCommands : Prop :=
  (∀ (s : State) (n : Fin 8) (fwd : Bool), s.live → s.bit (Reg.ENC.ENC_CTRL n) 0 = true → n.val < s.hw.cap.encs.length →
    (∀ t0, (s.enc n).lastEdge = some t0 → t0 + max 10 (s.fld (Reg.ENC.FILT n) 9 0) * 5 ≤ s.now) →
    let forward := fwd != s.bit (Reg.ENC.ENC_CTRL n) 1
    ∃ t : State, exec (.encoderEdge n fwd false) s = .next t.settled ∧
      (t.enc n).pos = (s.enc n).pos + (countStep (s.edgesPerCount n) (s.enc n).sub forward).1 ∧
      t.rd64 (Reg.ENC.POS_LO n) (Reg.ENC.POS_HI n) = uns 64 (t.enc n).pos ∧ t.bit (Reg.ENC.ENC_STATUS n) 1 = false ∧
      t.bit (Reg.ENC.ENC_STATUS n) 3 = !forward ∧ t.tsc = s.tsc ∧ t.es = s.es ∧ t.mem = s.mem) ∧
  (∀ (s : State) (n : Fin 8) (fwd : Bool), s.live → s.bit (Reg.ENC.ENC_CTRL n) 0 = true →
    ∃ t : State, exec (.encoderEdge n fwd true) s = .next t.settled ∧ t.bit (Reg.ENC.ENC_STATUS n) 0 = true ∧
      t.bit (Reg.ENC.ENC_EVENTS n) 3 = true ∧
      SameRegs ([Reg.ENC.ENC_STATUS n, Reg.ENC.ENC_EVENTS n, Reg.ENC.OVERSPEED_CNT n] ++ irqOf .ENC n) s t ∧ SameRest s t) ∧
  (∀ (s : State) (n : Fin 8) (t0 : Nat), s.live → (s.enc n).nextTimer = some t0 → s.bit (Reg.ENC.ENC_STATUS n) 0 = true →
    t0 ≤ s.now → n.val < s.hw.cap.encs.length → (s.rd (Reg.ENC.TRIG_CNT n)).toNat < 4294967295 →
    ∃ t : State, exec (.overspeedTimerTrigger n) s = .next t.settled ∧ (t.enc n).nextTimer = some (t0 + s.linePeriod n) ∧
      (t.rd (Reg.ENC.TRIG_CNT n)).toNat = (s.rd (Reg.ENC.TRIG_CNT n)).toNat + 1 ∧ t.tsc = s.tsc ∧ t.mem = s.mem) ∧
  (∀ (s : State) (n : Fin 8), s.live → s.bit (Reg.ENC.ENC_CTRL n) 0 = true → s.stalled n = true →
    ∃ t : State, exec (.encoderStall n) s = .next t.settled ∧ t.bit (Reg.ENC.ENC_STATUS n) 1 = true ∧
      (s.withItem (s.encPaths n) ≠ [] → t.bit (Reg.HDR.IRQ_PEND .ENC n) 1 = true) ∧ SameRest s t) ∧
  (∀ (s : State) (n : Fin 8), s.live → s.bit (Reg.ENC.ENC_CTRL n) 0 = true →
    ∃ t : State, exec (.encoderLineFault n) s = .next t.settled ∧ t.bit (Reg.ENC.ENC_STATUS n) 2 = true ∧
      t.bit (Reg.ENC.ENC_EVENTS n) 2 = true ∧
      (s.withItem (s.encPaths n) ≠ [] → t.bit (Reg.HDR.IRQ_PEND .ENC n) 1 = true) ∧ SameRest s t) ∧
  (∀ (s : State) (n : Fin 8) (v : Word), s.live → s.accepts 0 (Reg.ENC.DIV_FRAC n) v = true → n.val < s.hw.cap.encs.length →
    let d := max 4294967296 (s.fld (Reg.ENC.DIV_INT n) 23 0 * 4294967296 + v.toNat)
    ∃ t : State, exec (.divFracWrite 0 n v) s = .next t ∧ t.rd (Reg.ENC.DIV_FRAC n) = v ∧
      (s.bit (Reg.ENC.ENC_CTRL n) 0 = true → (t.enc n).divPend = some d ∧ (t.enc n).div = (s.enc n).div) ∧
      (s.bit (Reg.ENC.ENC_CTRL n) 0 = false → (t.enc n).div = d) ∧ t.tsc = s.tsc ∧ t.es = s.es ∧ t.out = s.out) ∧
  (∀ (s : State) (n : Fin 8) (t0 : Nat), s.live → (s.enc n).lineTimer = some t0 → s.timerPaths n ≠ [] →
    t0 ≤ s.now → n.val < s.hw.cap.encs.length → (s.rd (Reg.ENC.TRIG_CNT n)).toNat < 4294967295 →
    ∃ t : State, exec (.encTimerTrigger n) s = .next t.settled ∧
      (t.enc n).lineTimer = some (t0 + (s.rd (Reg.ENC.TIME_PERIOD n)).toNat) ∧
      (t.rd (Reg.ENC.TRIG_CNT n)).toNat = (s.rd (Reg.ENC.TRIG_CNT n)).toNat + 1 ∧ t.tsc = s.tsc ∧ t.mem = s.mem)

/-- O24. Pattern generators and analogue channels (R72, R76, R78, R81, R119). PGEN_RUN enters state START; the end of a
state enters the next one its condition names; a trigger is taken in WAIT_TRIG, else held and counted; PM_DATA_HI stores a
state at PM_ADDR; the dark loop moves the offset DAC by one and reports a code it brings to an end of the range; a spare
that has shadowed 256 lines is reported, and takes over the logical channel it shadows at a line boundary. -/
def Obligations.PatternCommands : Prop :=
  (∀ (s : State) (g : Fin 4) (v : Word), s.live → s.accepts 0 (Reg.PGEN.PG_CTRL g) (v ||| 1) = true →
    s.bit (Reg.PGEN.PG_CTRL g) 0 = false → g.val < s.hw.cap.pgens.length →
    ∃ t : State, exec (.pgenRun 0 g v) s = .next t.settled ∧ t.fld (Reg.PGEN.PG_STATUS g) 11 0 = bits v 15 4 ∧
      s.out.length < t.out.length ∧ t.tsc = s.tsc ∧ t.es = s.es) ∧
  (∀ (s : State) (g : Fin 4) (raw : List (BitVec 16)) (t0 : Nat), s.live → s.bit (Reg.PGEN.PG_CTRL g) 0 = true →
    (s.pgen g).since = some t0 →
    let w := s.pstate g (s.fld (Reg.PGEN.PG_STATUS g) 11 0)
    t0 + bits w 31 16 ≤ 2 * s.now →
    ∃ t : State, exec (.pgenStateEnd g raw) s = .next t.settled ∧
      t.fld (Reg.PGEN.PG_STATUS g) 11 0 =
        (if (bits w 47 44 = 2 ∧ (s.pgen g).cntA ≠ 0) ∨ (bits w 47 44 = 3 ∧ (s.pgen g).cntB ≠ 0) then bits w 59 48
         else bits w 43 32) ∧ t.tsc = s.tsc ∧ t.mem = s.mem ∧ t.es = s.es) ∧
  (∀ (s : State) (g : Fin 4) (v : Word), s.live → s.accepts 0 (Reg.PGEN.TRIG_CMD g) (v ||| 1) = true →
    s.bit (Reg.PGEN.PG_CTRL g) 0 = true →
    (s.bit (Reg.PGEN.PG_STATUS g) 13 = true →
      ∃ t : State, exec (.trigCmd 0 g v) s = .next t.settled ∧ t.bit (Reg.PGEN.PG_STATUS g) 13 = false ∧ t.tsc = s.tsc) ∧
    (s.bit (Reg.PGEN.PG_STATUS g) 13 = false → (s.pgen g).held = none → (s.rd (Reg.PGEN.TRIG_LATE g)).toNat < 4294967295 →
      ∃ t : State, exec (.trigCmd 0 g v) s = .next t.settled ∧ t.bit (Reg.PGEN.PG_STATUS g) 14 = true ∧
        (t.rd (Reg.PGEN.TRIG_LATE g)).toNat = (s.rd (Reg.PGEN.TRIG_LATE g)).toNat + 1 ∧
        t.bit (Reg.HDR.IRQ_PEND .PGEN g) 1 = true ∧ t.tsc = s.tsc)) ∧
  (∀ (s : State) (g : Fin 4) (v : Word), s.live → s.accepts 0 (Reg.PGEN.PM_DATA_HI g) v = true → g.val < s.hw.cap.pgens.length →
    keysRise (s.pgen g).pmem →
    ∃ t : State, exec (.pmDataHiWrite 0 g v) s = .next t ∧
      t.pstate g (s.fld (Reg.PGEN.PM_ADDR g) 11 0) = v.setWidth 64 <<< 32 ||| (s.rd (Reg.PGEN.PM_DATA_LO g)).setWidth 64 ∧
      t.fld (Reg.PGEN.PM_ADDR g) 11 0 = (s.fld (Reg.PGEN.PM_ADDR g) 11 0 + 1) % 4096 ∧ t.tsc = s.tsc ∧ t.es = s.es) ∧
  (∀ (s : State) (g : Fin 4) (c : Fin 13), s.live → s.converts g c = true →
    2 ^ s.fld (Reg.AFE.BLK_CTRL g) 27 24 ≤ ((s.afe g).chans.getD c {}).lines →
    ∃ t : State, exec (.darkLoopStep g c) s = .next t.settled ∧
      (1024 < s.chD g c → s.chDac g c < 511 → t.fld (Reg.AFE.CH_OFFSET g c) 9 0 = uns 10 (s.chDac g c + 1)) ∧
      (s.chD g c < -1024 → -512 < s.chDac g c → t.fld (Reg.AFE.CH_OFFSET g c) 9 0 = uns 10 (s.chDac g c - 1)) ∧
      (1024 < s.chD g c → 510 ≤ s.chDac g c → t.bit (Reg.HDR.IRQ_PEND .AFE g) 0 = true) ∧
      (s.chD g c < -1024 → s.chDac g c ≤ -511 → t.bit (Reg.HDR.IRQ_PEND .AFE g) 0 = true) ∧
      SameRegs (Reg.AFE.CH_OFFSET g c :: irqOf .AFE g) s t ∧ SameRest s t) ∧
  (∀ (s : State) (g : Fin 4), s.live → 256 ≤ (s.afe g).shadowN → (s.afe g).settled = false →
    ∃ t : State, exec (.shadowSettled g) s = .next t ∧ t.bit (Reg.HDR.IRQ_PEND .AFE g) 3 = true ∧ SameRegs (irqOf .AFE g) s t ∧
      SameRest s t) ∧
  (∀ (s : State) (g : Fin 4) (l c : Nat), s.live → (s.afe g).switchTo = some (l, c) → l < 12 → c < 16 →
    256 ≤ (s.afe g).shadowN → s.lineBoundary g = true → s.bit (Reg.AFE.SHADOW g) 4 = true → s.fld (Reg.AFE.SHADOW g) 3 0 = l →
    ∃ t : State, exec (.afeChannelSwitch g) s = .next t ∧ t.chanOf g c ≠ none ∧ t.bit (Reg.AFE.SHADOW g) 4 = false ∧
      SameRegs [Reg.AFE.CH_MAP_LO g, Reg.AFE.CH_MAP_HI g, Reg.AFE.SHADOW g] s t ∧ SameRest s t)

/-- O25. Cameras (R93 to R97, R121, R122). A frame start and end, a line that arrived whole, a line that was lost; one
control transfer at a time, and its reply; events and heartbeats; a link lost and found. -/
def Obligations.CameraCommands : Prop :=
  (∀ (s : State) (n : Fin 8) (e : CameraEvent), s.live → s.bit (Reg.CXP.CXP_CTRL n) 0 = true →
    (s.rd (Reg.CXP.PKT_ERR n)).toNat < 4294967295 →
    ∃ t : State, exec (.cxpPacket n e) s = .next t.settled ∧ t.tsc = s.tsc ∧ t.es = s.es ∧ t.mem = s.mem ∧ t.out = s.out ∧
      (∀ num, e = .frameStart num → ∀ p ∈ s.pathsOf 1 n, p < s.hw.cap.paths.length →
        (t.path p).frameStamp = some (s.now - (s.rd (Reg.SFE.STAMP_ADJ p)).toNat)) ∧
      (e = .frameEnd → ∀ p ∈ s.pathsOf 1 n, p < s.hw.cap.paths.length → (t.path p).frameStamp = none) ∧
      (∀ dt depth px hdr ok trig, e = .line dt depth px hdr ok trig → (ok = false ∨ hdr = .uncorr) →
        (t.rd (Reg.CXP.PKT_ERR n)).toNat = (s.rd (Reg.CXP.PKT_ERR n)).toNat + 1 ∧ t.bit (Reg.HDR.IRQ_PEND .CXP n) 1 = true) ∧
      (∀ dt depth px hdr trig p comps, e = .line dt depth px hdr true trig → hdr ≠ .uncorr → s.pathsOf 1 n = [p] →
        cxpComps dt.toNat depth.toNat = some comps →
        p < s.hw.cap.paths.length → px.length = s.pPix p * comps →
        (s.lbRoom p (cameraFmt depth.toNat) (s.pOut p * comps)).2 = true →
        sumNat (((s.path p).window.filter fun w => decide (s.now < w.1 + 10000)).map (·.2)) +
          lineBytes (cameraFmt depth.toNat) (s.pOut p * comps) ≤ (s.rd (Reg.SFE.RATE_DECL p)).toNat * 10 * s.pAvgY p →
        ∃ l : RawLine, (t.path p).cur = (s.path p).cur ++ [l] ∧ l.ready = true ∧ l.lost = false ∧ l.padded = false ∧
          l.px.map (·.2) = px.map (cameraValue depth.toNat))) ∧
  (∀ (s : State) (n : Fin 8) (v : Word), s.live → s.bit (Reg.CXP.CMD_STATUS n) 0 = false →
    let sent (wr : Bool) (t : State) : Prop := t.rd (Reg.CXP.CMD_STATUS n) = 1 ∧
      t.out = s.out ++ [.cxpControl n wr (s.rd (Reg.CXP.CMD_ADDR n)) (s.rd (Reg.CXP.CMD_DATA n))] ∧ t.tsc = s.tsc ∧ t.es = s.es
    (s.accepts 0 (Reg.CXP.CMD_GO n) ((v ||| 1) &&& ~~~ 2) = true → ∃ t : State, exec (.cxpCmdRead 0 n v) s = .next t ∧ sent false t) ∧
    (s.accepts 0 (Reg.CXP.CMD_GO n) (v ||| 2) = true → ∃ t : State, exec (.cxpCmdWrite 0 n v) s = .next t ∧ sent true t)) ∧
  (∀ (s : State) (n : Fin 8) (ack : Byte) (data : Word), s.live → s.bit (Reg.CXP.CMD_STATUS n) 0 = true →
    ∃ t : State, exec (.cxpControlReply n ack data) s = .next t ∧ t.bit (Reg.CXP.CMD_STATUS n) 0 = false ∧
      t.fld (Reg.CXP.CMD_STATUS n) 15 8 = ack.toNat ∧ t.bit (Reg.HDR.IRQ_PEND .CXP n) 3 = true ∧
      (s.hw.cap.cxpRead.getD n false = true → t.rd (Reg.CXP.CMD_DATA n) = data) ∧
      Quiet ([Reg.CXP.CMD_STATUS n, Reg.CXP.CMD_DATA n] ++ irqOf .CXP n) s t) ∧
  (∀ (s : State) (n : Fin 8) (w : Word), s.live →
    (∃ t : State, exec (.cxpEventPacket n true w) s = .next t ∧ t.rd (Reg.CXP.HEARTBEAT n) = w ∧ Quiet [Reg.CXP.HEARTBEAT n] s t) ∧
    (∃ t : State, exec (.cxpEventPacket n false w) s = .next t ∧ t.rd (Reg.CXP.EVENT_DATA n) = w ∧
      t.bit (Reg.HDR.IRQ_PEND .CXP n) 2 = true ∧ Quiet (Reg.CXP.EVENT_DATA n :: irqOf .CXP n) s t)) ∧
  (∀ (s : State) (n : Fin 8) (k : Fin 4), s.live → s.bit (Reg.CXP.CXP_STATUS n) k = true →
    ∃ t : State, exec (.cxpLinkLost n k) s = .next t ∧ t.bit (Reg.CXP.CXP_STATUS n) k = false ∧
      t.bit (Reg.HDR.IRQ_PEND .CXP n) 0 = true ∧ Quiet (Reg.CXP.CXP_STATUS n :: irqOf .CXP n) s t) ∧
  (∀ (s : State) (n : Fin 8) (k : Fin 4) (speed : BitVec 4), s.live → s.bit (Reg.CXP.CXP_CTRL n) 0 = true →
    speed.toNat ∈ [1, 2, 3, 5, 6, 10, 12] → k.val < s.cxpLinks n →
    ∃ t : State, exec (.cxpLinkDiscovery n k speed) s = .next t ∧ t.bit (Reg.CXP.CXP_STATUS n) k = true ∧
      t.bit (Reg.CXP.CXP_STATUS n) 4 = true ∧ t.fld (Reg.CXP.CXP_STATUS n) 8 5 = speed.toNat ∧
      Quiet [Reg.CXP.CXP_STATUS n] s t) ∧
  (∀ (s : State) (n : Fin 16) (vc : BitVec 2) (e : CameraEvent), s.live → s.bit (Reg.CSI.CSI_CTRL n) 0 = true →
    s.fld (Reg.CSI.CSI_CTRL n) 4 3 = vc.toNat →
    ∃ t : State, exec (.csiPacket n vc e) s = .next t.settled ∧ t.tsc = s.tsc ∧ t.es = s.es ∧ t.mem = s.mem ∧ t.out = s.out ∧
      (∀ num, e = .frameStart num → t.bit (Reg.CSI.CSI_STATUS n) 4 = true ∧ t.fld (Reg.CSI.CSI_STATUS n) 31 16 = num.toNat ∧
        t.bit (Reg.HDR.IRQ_PEND .CSI n) 1 = true) ∧
      (e = .frameEnd → t.bit (Reg.CSI.CSI_STATUS n) 4 = false ∧ t.bit (Reg.HDR.IRQ_PEND .CSI n) 1 = true) ∧
      (∀ dt depth px ok trig, e = .line dt depth px .uncorr ok trig →
        (s.rd (Reg.CSI.ECC_UNCORR n)).toNat < 4294967295 →
        (t.rd (Reg.CSI.ECC_UNCORR n)).toNat = (s.rd (Reg.CSI.ECC_UNCORR n)).toNat + 1 ∧
        t.bit (Reg.HDR.IRQ_PEND .CSI n) 0 = true))

/-- O26. Scan paths (R99 to R110). ENABLE opens the path afresh and takes its rate into the ingest budget, DISABLE drops its
items and gives the rate back; OPEN and a gate's opening edge open an item, CLOSE ends it; a complete line of a full group
enters the buffer; a due band goes into the ring and DEST_TAIL advances, and with no free slot it waits; PATH_WAIT delivers
what is complete; DEST_HEAD frees slots. -/
def Obligations.PathCommands : Prop :=
  (∀ (s : State) (p : Fin 16) (v : Word), s.live → s.accepts 0 (Reg.SFE.PATH_CTRL p) (v ||| 1) = true →
    s.bit (Reg.SFE.PATH_CTRL p) 0 = false →
    ∃ t : State, exec (.pathEnable 0 p v) s = .next t.settled ∧ t.bit (Reg.SFE.PATH_CTRL p) 0 = true ∧ t.rd (Reg.SFE.PATH_STATUS p) = 0 ∧
      (t.path p).items = [] ∧ t.rd Reg.SFE.INGEST_ALLOC = BitVec.ofNat 32 (s.rateSum p true) &&& RegRef.mask Reg.SFE.INGEST_ALLOC ∧
      t.tsc = s.tsc ∧ t.es = s.es ∧ t.out = s.out) ∧
  (∀ (s : State) (p : Fin 16) (v : Word), s.live → s.accepts 0 (Reg.SFE.PATH_CTRL p) (v &&& ~~~ 1) = true →
    s.bit (Reg.SFE.PATH_CTRL p) 0 = true → p.val < s.hw.cap.paths.length →
    ∃ t : State, exec (.pathDisable 0 p v) s = .next t.settled ∧ t.bit (Reg.SFE.PATH_CTRL p) 0 = false ∧ t.rd (Reg.SFE.PATH_STATUS p) = 0 ∧
      (t.path p).items = [] ∧ t.rd Reg.SFE.INGEST_ALLOC = BitVec.ofNat 32 (s.rateSum p false) &&& RegRef.mask Reg.SFE.INGEST_ALLOC ∧
      t.tsc = s.tsc ∧ t.es = s.es ∧ t.out = s.out) ∧
  (∀ (s : State) (p : Fin 16) (v : Word), s.live → s.accepts 0 (Reg.SFE.PATH_CMD p) (v ||| 1) = true → s.pathOn p = true →
    s.pItemSrc p = 4 → s.itemOpenOn p = none →
    ∃ t : State, exec (.pathOpen 0 p v) s = .next t.settled ∧ (v.getLsbD 1 = false → t.bit (Reg.SFE.PATH_STATUS p) 0 = true) ∧
      t.hw.cap.itemSeq = s.hw.cap.itemSeq + 1 ∧ t.tsc = s.tsc ∧ t.es = s.es ∧ t.out = s.out) ∧
  (∀ (s : State) (p : Fin 16) (v : Word) (x : PathItem), s.live → s.accepts 0 (Reg.SFE.PATH_CMD p) (v ||| 2) = true →
    s.pItemSrc p = 4 → s.itemOpenOn p = some x → p.val < s.hw.cap.paths.length →
    ∃ t : State, exec (.pathClose 0 p v) s = .next t.settled ∧ t.itemOpenOn p = none ∧
      ((t.path p).items.getLast?.map (·.stop)) = some (some (s.outStarted p)) ∧ t.tsc = s.tsc ∧ t.es = s.es ∧ t.out = s.out) ∧
  (∀ (s : State) (gate : Fin 16) (level : Bool), s.live → s.hw.cap.gates.getLsbD gate ≠ level →
    ∃ t : State, exec (.gateEdge gate level) s = .next t.settled ∧ t.hw.cap.gates.getLsbD gate = level ∧
      (∀ p < 16, s.pathOn p = true → s.pItemSrc p = 0 → s.fld (Reg.SFE.PATH_ITEM p) 27 24 = gate.val → s.itemOpenOn p = none →
        level ≠ s.bit (Reg.SFE.PATH_ITEM p) 28 → t.bit (Reg.SFE.PATH_STATUS p) 0 = true) ∧ SameRest s t) ∧
  (∀ (s : State) (p : Fin 16) (l : RawLine) (rest : List RawLine), s.live → (s.path p).cur = l :: rest → l.ready = true →
    p.val < s.hw.cap.paths.length →
    ∃ t : State, exec (.lineComplete p) s = .next t.settled ∧ (t.path p).cur = rest ∧
      (s.pAvgY p ≤ (s.path p).group.length + 1 → (t.path p).lb.length = (s.path p).lb.length + 1 ∧ (t.path p).group = []) ∧
      ((s.path p).group.length + 1 < s.pAvgY p → (t.path p).group = (s.path p).group ++ [l] ∧ (t.path p).lb = (s.path p).lb) ∧
      SameRegs [Reg.SFE.PATH_STATUS p] s t ∧ SameRest s t) ∧
  (∀ (s : State) (p : Fin 16) (x : PathItem) (e : Nat), s.live → (s.path p).items = [x] → x.stop = some e →
    e ≤ s.outStarted p → x.closed = false → p.val < s.hw.cap.paths.length →
    ∃ t : State, exec (.postLinesDone p) s = .next t.settled ∧ t.bit (Reg.SFE.PATH_STATUS p) 0 = false ∧
      (t.path p).items.map (·.closed) = [true] ∧
      t.hw.events = s.hw.events ++ [.itemClose p x.id x.stamp] ∧ SameRegs [Reg.SFE.PATH_STATUS p] s t ∧ SameRest s t) ∧
  (∀ (s : State) (p : Fin 16) (x : PathItem) (items : List PathItem) (d : Due), s.live → (s.path p).waiting = [] →
    (s.path p).items = x :: items → x.dueNow ((s.path p).lbFirst + (s.path p).lb.length) (s.pBand p) = some d →
    p.val < s.hw.cap.paths.length →
    ∃ t : State, exec (.bandDeliver p) s = .next t.settled ∧ t.tsc = s.tsc ∧ t.es = s.es ∧ t.out = s.out ∧
      (s.pRoom p = true →
        t.rd (Reg.SFE.DEST_TAIL p) = BitVec.ofNat 32 (nextSlot (s.rd (Reg.SFE.DEST_TAIL p)).toNat (s.pSlots p)) &&&
          RegRef.mask (Reg.SFE.DEST_TAIL p) ∧ t.bit (Reg.SFE.PATH_STATUS p) 1 = false ∧
        (d.last = true → (t.path p).items = items) ∧
        (d.last = false → (t.path p).items.head?.map (·.next) = some (x.next + d.n))) ∧
      (s.pRoom p = false → t.bit (Reg.SFE.PATH_STATUS p) 1 = true ∧ (t.path p).items = (s.path p).items)) ∧
  (∀ (s : State) (p : Fin 16) (x : PathItem) (items : List PathItem) (t0 : Nat), s.live → (s.path p).waiting = [] →
    (s.path p).items = x :: items →
    x.dueNow ((s.path p).lbFirst + (s.path p).lb.length) (s.pBand p) = none → p.val < s.hw.cap.paths.length →
    (match (s.path p).waitFrom with
     | some a => some a
     | none => s.requestTime p x) = some t0 → t0 + (s.rd (Reg.SFE.PATH_WAIT p)).toNat % 65536 * 1000 ≤ s.now →
    ∃ t : State, exec (.pathWaitExpiry p) s = .next t.settled ∧ t.tsc = s.tsc ∧ t.es = s.es ∧ t.out = s.out ∧
      ((s.path p).lbFirst + (s.path p).lb.length ≤ x.next → (t.path p).waitFrom = some s.now) ∧
      (x.next < (s.path p).lbFirst + (s.path p).lb.length → s.pRoom p = true →
        t.rd (Reg.SFE.DEST_TAIL p) = BitVec.ofNat 32 (nextSlot (s.rd (Reg.SFE.DEST_TAIL p)).toNat (s.pSlots p)) &&&
          RegRef.mask (Reg.SFE.DEST_TAIL p))) ∧
  (∀ (s : State) (p : Fin 16) (v : Word), s.live → s.accepts 0 (Reg.SFE.DEST_HEAD p) v = true →
    ∃ t : State, exec (.destHeadWrite 0 p v) s = .next t.settled ∧
      t.rd (Reg.SFE.DEST_HEAD p) = v &&& RegRef.mask (Reg.SFE.DEST_HEAD p) ∧
      (s.bit Reg.JRNL.JRNL_CTRL 0 = false → t.readN (s.streamAddr (s.fld (Reg.SFE.PATH_STREAM p) 8 0) + 8) 4 = v.toNat) ∧
      t.tsc = s.tsc ∧ t.es = s.es ∧ t.out = s.out)

/-! ### Contexts and the life of a command -/

/-- O27. Admission (R402, R405, R407, R410, R412). When its context may admit and no limit is reached, each opcode's row takes
the descriptor: SQ_HEAD advances by one (by two for MASK, whose follower is admitted with it). A command that is not refused
is in the dispatcher: ready when it names no input stream, or with the next unit of its stream when that is there and good
(still admitted under ITEM_GATE), else waiting for it; nothing else in memory or in the registers has changed. ATTENTION
takes its sequences too, MASK queues its request. A refused one is counted in DESC_ERR and is not in the dispatcher. At a
limit source 105 is raised; a context that may not admit changes nothing. -/
def Obligations.DescriptorAdmission : Prop :=
  ∀ (s : State) (c : BitVec 8) (d next : BitVec 512), s.live →
    let head := s.ctxAddr c.toNat + 24
    let s1 := s.headTaken c.toNat
    (∀ op i, (op, i) ∈ [(opMATMUL, Instr.matmul c d), (opCONV, .convolve c d), (opATTENTION, .attention c d), (opCROP, .crop c d),
        (opARGMAX, .argmax c d), (opSAMPLE, .sample c d), (opTOKENISE, .tokenise c d), (opDETOKENISE, .detokenise c d),
        (opJPEG, .jpeg c d), (opAUGMENT, .augment c d), (opCOPY, .copy c d), (opPUT, .put c d), (opGET, .get c d),
        (opSIGNAL, .signal c d), (opWAIT, .wait c d), (opALLGATHER, .allgather c d), (opALLREDUCE, .allreduce c d),
        (opBROADCAST, .broadcast c d), (opBARRIER, .barrier c d)] →
      let x := Desc.ofRow op d
      (s.mayAdmit c.toNat = true → s.admitLimit c.toNat 1 = false → ∃ t : State, exec i s = .next t.settled ∧
        t.hw.disp.nextId = s.hw.disp.nextId + 1 ∧ t.tsc = s.tsc ∧
        (Desc.inStream x = 0xFFF → s1.descRefused c.toNat x = false → op ≠ opATTENTION →
          (∃ y ∈ t.hw.disp.cmds, y.id = s.hw.disp.nextId ∧ y.ctx = c.toNat ∧ y.desc = x ∧ y.admitted = s.now ∧ y.phase = .ready) ∧
          t.readN head 4 = (s.ctxSqHead c.toNat + 1) % 4294967296 ∧ (∀ a, a < head ∨ head + 4 ≤ a → t.byte a = s.byte a) ∧
          SameRegs [] s t ∧ t.es = s.es ∧ t.out = s.out) ∧
        (∀ n k u, s1.localStream (BitVec.ofNat 12 (Desc.inStream x)) = some n → Desc.inStream x ≠ 0xFFF → s1.nextUnit n k u →
          s1.descRefused c.toNat x = false → op ≠ opATTENTION →
          (∃ y ∈ t.hw.disp.cmds, y.id = s.hw.disp.nextId ∧ y.ctx = c.toNat ∧ y.desc = x ∧ y.admitted = s.now ∧ y.input = some u ∧
            y.inSlot = some (n, k) ∧ y.phase = if Desc.itemGate x then .admitted else .ready) ∧
          t.readN head 4 = (s.ctxSqHead c.toNat + 1) % 4294967296 ∧ (∀ a, a < head ∨ head + 4 ≤ a → t.byte a = s.byte a) ∧
          SameRegs [] s t ∧ t.es = s.es ∧ t.out = s.out) ∧
        (∀ n, s1.localStream (BitVec.ofNat 12 (Desc.inStream x)) = some n → (s1.streamSt n).queue = [] → s1.hasUnit n = false →
          Desc.inStream x ≠ 0xFFF → s1.descRefused c.toNat x = false → op ≠ opATTENTION →
          (∃ y ∈ t.hw.disp.cmds, y.id = s.hw.disp.nextId ∧ y.desc = x ∧ y.input = none ∧ y.phase = .admitted) ∧
          (∀ a, a < head ∨ head + 4 ≤ a → t.byte a = s.byte a) ∧ SameRegs [] s t ∧ t.es = s.es ∧ t.out = s.out) ∧
        (∀ e, Desc.inStream x = 0xFFF ∨ (∃ n k u, s1.localStream (BitVec.ofNat 12 (Desc.inStream x)) = some n ∧ s1.nextUnit n k u) →
          op = opATTENTION → s1.descRefused c.toNat x = false → s.hw.disp.removed = [] → s1.attnBad (s1.attn x) = false →
          s1.seqList x = [e] → s1.entryBad e = false → s1.lockReason c.toNat e = 0 → (s1.seqRec e.seq).state = sqACTIVE →
          let s2 := if e.acquire then (Act.seqLock e.seq c.toNat).run s1 else s1
          let r := s2.seqRec e.seq
          let upTo := s2.newLen (s1.attn x).op r e
          r.state ≠ sqPAUSED → ¬(r.dropped = true ∧ (s1.attn x).op ≤ 1) → upTo ≤ 16 * r.cap → s2.pagesNeeded r upTo = [] →
          (∃ y ∈ t.hw.disp.cmds, y.id = s.hw.disp.nextId ∧ y.desc = x ∧ y.seqs = [{ idx := 0, seq := e.seq }] ∧
            y.phase = if Desc.itemGate x then .admitted else .ready) ∧
          t.mem = s2.mem ∧ SameRegs [] s t ∧ t.es = s.es ∧ t.out = s.out) ∧
        (Desc.inStream x = 0xFFF → s1.descRefused c.toNat x = true → Counts Reg.DISP.DESC_ERR 1 s t ∧ t.es = s.es ∧
          ∀ y ∈ t.hw.disp.cmds, y.id ≠ s.hw.disp.nextId)) ∧
      (s.mayAdmit c.toNat = true → s.admitLimit c.toNat 1 = true → (s.ctx c.toNat).limited = false →
        ∃ t : State, exec i s = .next t.settled ∧ t.pend .DISP 0 9 = true ∧ t.hw.disp.cmds = s.hw.disp.cmds ∧
          SameRegs (irqOf .DISP 0) s t ∧ SameRest s t) ∧
      (s.mayAdmit c.toNat = false → exec i s = .next s.settled)) ∧
    (s.mayAdmit c.toNat = true → (s.ctxSqHead c.toNat + 1) % 4294967296 ≠ (s.ctx c.toNat).tail → s.admitLimit c.toNat 2 = false →
      let x := Desc.ofRow opMASK d
      ∃ t : State, exec (.mask c d next) s = .next t.settled ∧ t.hw.disp.nextId = s.hw.disp.nextId + 2 ∧ t.tsc = s.tsc ∧
        (Desc.inStream x = 0xFFF → s1.descRefused c.toNat x = false → s.bit Reg.TXT.TXT_STATUS 0 = true →
          (∃ y ∈ t.hw.disp.cmds, y.id = s.hw.disp.nextId ∧ y.ctx = c.toNat ∧ y.desc = x ∧ y.phase = .ready) ∧
          (∃ q ∈ t.hw.txt.queue, q.cmd = s.hw.disp.nextId ∧ q.ctx = c.toNat ∧ q.list = Desc.auxAddr x ∧ q.buf = Desc.paramAddr x ∧
            q.count = Desc.auxCount x ∧ q.admitted = s.now) ∧
          (Desc.inStream next = 0xFFF → (s1.headTaken c.toNat).descRefused c.toNat next = false →
            Desc.opcode next ∉ [opATTENTION, opMASK] →
            ∃ y ∈ t.hw.disp.cmds, y.id = s.hw.disp.nextId + 1 ∧ y.ctx = c.toNat ∧ y.desc = next ∧ y.phase = .ready)))

/-- O28. Context commands and doorbells (R400, R401, R446, R447, R449). START makes a context whose record is in order
RUNNING, and reports its reason otherwise; STOP stops a running context's admission; TEARDOWN leaves none of its commands;
its completion frees the context and raises source 101. A doorbell sets the ring index; one too far, or one of another
function, does not. A report is written to the context's report address; a read of CTX_VT_LO latches CTX_VT_HI. -/
def Obligations.ContextCommands : Prop :=
  (∀ (s : State) (v : Word), s.live → s.accepts 0 Reg.DISP.CTX_CMD (setBits v 3 0 1) = true → s.bit Reg.JRNL.JRNL_CTRL 0 = false →
    let c := bits v 15 8
    ∃ t : State, exec (.ctxStart 0 v) s = .next t.settled ∧ (s.startReason c = 0 → t.ctxState c = 2 ∧ t.rd Reg.DISP.CTX_RESULT = 3) ∧
      (s.startReason c ≠ 0 → t.rd Reg.DISP.CTX_RESULT = BitVec.ofNat 32 (1 + 256 * s.startReason c) ∧ t.mem = s.mem) ∧
      SameRegs (Reg.DISP.CTX_RESULT :: hostTrail .DISP 0) s t ∧ t.es = s.es ∧ t.tsc = s.tsc ∧ t.out = s.out) ∧
  (∀ (s : State) (v : Word), s.live → s.accepts 0 Reg.DISP.CTX_CMD (setBits v 3 0 2) = true → s.bit Reg.JRNL.JRNL_CTRL 0 = false →
    let c := bits v 15 8
    ∃ t : State, exec (.ctxStop 0 v) s = .next t.settled ∧ t.rd Reg.DISP.CTX_RESULT = 3 ∧ t.mayAdmit c = false ∧
      (s.ctxState c = 2 → (s.hw.disp.cmds.any fun x => x.ctx == c) = false → t.ctxState c = 1) ∧
      SameRegs (Reg.DISP.CTX_RESULT :: hostTrail .DISP 0) s t ∧ t.es = s.es ∧ t.tsc = s.tsc ∧ t.out = s.out) ∧
  (∀ (s : State) (v : Word), s.live → s.accepts 0 Reg.DISP.CTX_CMD (setBits v 3 0 3) = true → s.bit Reg.JRNL.JRNL_CTRL 0 = false →
    let c := bits v 15 8
    s.ctxState c = 1 ∨ s.ctxState c = 2 →
    ∃ t : State, exec (.ctxTeardown 0 v) s = .next t.settled ∧ t.rd Reg.DISP.CTX_RESULT = 3 ∧ (∀ x ∈ t.hw.disp.cmds, x.ctx ≠ c) ∧
      ((∀ x ∈ s.hw.disp.cmds, x.inSlot = none) → (∀ w ∈ (s.ctx c).waiting, w.slot = none) → t.ctxState c = 3) ∧ t.es = s.es ∧ t.tsc = s.tsc ∧ t.out = s.out) ∧
  (∀ (s : State) (c : BitVec 8), s.live → s.ctxState c.toNat = 3 →
    ∃ t : State, exec (.teardownComplete c) s = .next t.settled ∧ t.ctxState c.toNat = 0 ∧ t.pend .DISP 0 5 = true ∧
      t.bit (Reg.FUNC.NOTICE (s.ctxFunc c.toNat)) 4 = true ∧ t.hw.disp.ctxs = alPut {} c.toNat {} s.hw.disp.ctxs ∧
      SameRegs (Reg.FUNC.NOTICE (s.ctxFunc c.toNat) :: irqOf .DISP 0) s t ∧ t.es = s.es ∧ t.tsc = s.tsc ∧ t.out = s.out) ∧
  (∀ (s : State) (f : Fin 32) (c : BitVec 8) (v : Word), s.live → s.fnEnabled f = true → s.mayRing f c.toNat = true →
    ((v.toNat + 2 ^ 32 - s.ctxSqHead c.toNat) % 2 ^ 32 ≤ 2 ^ s.ctxSqLog2 c.toNat →
      ∃ t : State, exec (.submissionDoorbell f c v) s = .next t.settled ∧
        t.hw.disp.ctxs = alPut {} c.toNat { s.ctx c.toNat with tail := v.toNat } s.hw.disp.ctxs ∧ t.regs = s.regs ∧ SameRest s t) ∧
    (2 ^ s.ctxSqLog2 c.toNat < (v.toNat + 2 ^ 32 - s.ctxSqHead c.toNat) % 2 ^ 32 →
      ∃ t : State, exec (.submissionDoorbell f c v) s = .next t.settled ∧ t.pend .DISP 0 0 = true ∧ Quiet (irqOf .DISP 0) s t)) ∧
  (∀ (s : State) (f : Fin 32) (c : BitVec 8) (v : Word), s.live → s.fnEnabled f = true → s.mayRing f c.toNat = true →
    keysRise s.hw.disp.ctxs → (s.ctx c.toNat).waiting = [] →
    ∃ t : State, exec (.completionDoorbell f c v) s = .next t.settled ∧
      t.hw.disp.ctxs = alPut {} c.toNat { s.ctx c.toNat with cqHead := v.toNat } s.hw.disp.ctxs ∧ t.regs = s.regs ∧ SameRest s t) ∧
  (∀ (s : State) (f : Fin 32) (c : BitVec 8) (v : Word), s.live → s.fnEnabled f = true → s.mayRing f c.toNat = false →
    (∃ t : State, exec (.submissionDoorbell f c v) s = .next t.settled ∧ Quiet (logOf .FUNC f) s t) ∧
    (∃ t : State, exec (.completionDoorbell f c v) s = .next t.settled ∧ Quiet (logOf .FUNC f) s t)) ∧
  (∀ (s : State) (c : Nat) (v : Word), s.live → s.fld Reg.SAFE.C2_REGION 26 16 = 0 → s.bit Reg.DISP.DISP_CTRL 3 = true →
    keysRise s.hw.disp.ctxs → c < 256 → s.ctxState c = 2 → s.ctxReportAddr c ≠ 0 →
    (∀ k, k < 256 → s.ctxState k = 2 → s.ctxReportAddr k ≠ 0 → k = c) →
    (s.ctxReportAddr c + 64 ≤ s.ctxAddr 0 ∨ s.ctxAddr 256 ≤ s.ctxReportAddr c) →
    (∃ t : State, exec .reportPeriodExpiry s = .next t.settled ∧ t.readN (s.ctxReportAddr c) 8 = (s.ctx c).tStart % 2 ^ 64 ∧
      t.readN (s.ctxReportAddr c + 8) 8 = s.now ∧ t.readN (s.ctxReportAddr c + 16) 4 = min (s.ctx c).commands 4294967295 ∧
      SameRegs [] s t ∧ t.es = s.es ∧ t.tsc = s.tsc ∧ t.out = s.out) ∧
    (s.accepts 0 Reg.DISP.CTX_CMD (setBits v 3 0 4) = true → s.bit Reg.JRNL.JRNL_CTRL 0 = false →
      ∃ t : State, exec (.ctxReport 0 v) s = .next t.settled ∧ t.rd Reg.DISP.CTX_RESULT = 3 ∧
        t.readN (s.ctxReportAddr c + 8) 8 = s.now ∧ t.readN (s.ctxReportAddr c + 16) 4 = min (s.ctx c).commands 4294967295 ∧
        SameRegs (Reg.DISP.CTX_RESULT :: hostTrail .DISP 0) s t ∧ t.es = s.es ∧ t.tsc = s.tsc ∧ t.out = s.out)) ∧
  (∀ s : State, s.live → s.bit Reg.DISP.DISP_CTRL 3 = false → exec .reportPeriodExpiry s = .next s.settled) ∧
  (∀ s : State, s.live →
    let vt := (s.ctx (s.fld Reg.DISP.CTX_VT_SEL 7 0)).vt
    ∃ t : State, exec (.ctxVtLoRead 0) s = .next t ∧ (t.rd Reg.DISP.CTX_VT_HI).toNat = vt / 4294967296 % 4294967296 ∧
      t.out = s.out ++ [.readData 0 (leBytes 4 (vt % 4294967296)) false] ∧ SameRegs [Reg.DISP.CTX_VT_HI] s t ∧
      t.mem = s.mem ∧ t.es = s.es ∧ t.tsc = s.tsc ∧ t.hw = s.hw)

/-- O29. COMMIT_POINT, COMMIT and LCT_EXPIRY (R416, R418, R421). A COPY at its commit point, with room in the completion
ring, has copied its bytes and left the dispatcher. A request whose parts are all staged commits: none of its commands
remains, and its context counts them; but one whose LCT is past under DL_ABORT ends. At its LCT a command with DL_ABORT
ends, and LAST_ERR names it with DETAIL 0x4A. -/
def Obligations.CommandCompletion : Prop :=
  (∀ (s : State) (id : Nat) (part : Fin 32) (parity : Bool) (c : Cmd), s.live → s.fld Reg.SAFE.C2_REGION 26 16 = 0 → s.hw.boot.frozen = false →
    s.cmd id = some c → c.phase = .running → c.empty = false → Desc.opcode c.desc = opCOPY → Desc.splitId c.desc = 0 →
    Desc.splitN c.desc = 0 → c.engines = [] → c.parts = [] → c.inSlot = none → c.remote = none → s.lctPassed c = false →
    (s.ctx c.ctx).waiting = [] → s.cqRoom c.ctx 1 = true →
    let a := Desc.auxAddr c.desc
    let n := Desc.auxCount c.desc
    let e := s.ctxCqAddr c.ctx + 16 * (s.ctxCqTail c.ctx % 2 ^ s.ctxCqLog2 c.ctx)
    (∀ x, s.ctxAddr c.ctx ≤ x → x < s.ctxAddr c.ctx + 64 → x < a ∨ a + n ≤ x) →
    ∃ t : State, exec (.commitPoint id ⟨part, parity, []⟩) s = .next t.settled ∧ (∀ x ∈ t.hw.disp.cmds, x.id ≠ id) ∧
      (∀ k, k < n → (a + k < e ∨ e + 16 ≤ a + k) → t.byte (a + k) = s.byte (Desc.wAddr c.desc + k)) ∧
      (∀ x, (x < a ∨ a + n ≤ x) → (x < e ∨ e + 16 ≤ x) → (x < s.ctxAddr c.ctx ∨ s.ctxAddr c.ctx + 64 ≤ x) → t.byte x = s.byte x) ∧
      t.es = s.es ∧ t.tsc = s.tsc ∧ t.out = s.out) ∧
  (∀ (s : State) (id : Nat) (c : Cmd), s.live → s.hw.boot.frozen = false → s.cmd id = some c → s.requestStaged c = true →
    (s.ctx c.ctx).waiting = [] → s.cqRoom c.ctx (s.siblings c).length = true →
    s.roomFor ((s.siblings c).flatMap (·.finalOuts)) = true →
    ∃ t : State, exec (.commit id) s = .next t.settled ∧ (∀ x ∈ s.siblings c, ∀ y ∈ t.hw.disp.cmds, y.id ≠ x.id) ∧
      ((∀ x ∈ s.siblings c, s.lctPassed x = false ∨ Desc.dlAbort x.desc = false) → keysRise s.hw.disp.ctxs →
        (t.ctx c.ctx).commands = (s.ctx c.ctx).commands + (s.siblings c).length) ∧
      t.es = s.es ∧ t.tsc = s.tsc ∧ t.out = s.out) ∧
  (∀ (s : State) (id t0 : Nat) (c : Cmd), s.live → s.cmd id = some c → s.siblings c = [c] → s.lct c = some t0 → t0 ≤ s.now →
    Desc.dlAbort c.desc = true →
    ∃ t : State, exec (.lctExpiry id) s = .next t.settled ∧ (∀ x ∈ t.hw.disp.cmds, x.id ≠ id) ∧
      t.rd Reg.DISP.LAST_ERR = BitVec.ofNat 32 (c.ctx + 256 * 0x4A + 65536 * Desc.opcode c.desc) &&& RegRef.mask Reg.DISP.LAST_ERR ∧
      t.es = s.es ∧ t.tsc = s.tsc) ∧
  (∀ (s : State) (id : Nat) (c : Cmd), s.live → s.cmd id = some c → Desc.dlAbort c.desc = false →
    exec (.lctExpiry id) s = .next s.settled)

/-- O30. Pre-emption, save and restore, remote waits, quarantine (R432 to R442). A class 2 command frogs its victim; one of
class 1 lets the victim run to a cheap point within CHEAP_WAIT. At the cheap point the save begins; when it is done the live
range is in the save slot, and a restore brings it back into the engine store. An expired remote wait raises source 97;
data for a wait that is over is counted in QUAR_CNT and discarded. -/
def Obligations.PreemptionCommands : Prop :=
  (∀ (s : State) (w v : Cmd) (k : Nat), s.live → s.bit Reg.DISP.DISP_CTRL 0 = true → s.bit Reg.DISP.DISP_CTRL 1 = true →
    s.hw.boot.frozen = false →
    ((s.preemptors.filter fun w => w.cls == 2 || !s.savingFor w).findSome? fun w =>
      (leastBy s.victimLt (s.victimsFor w)).map fun v => (w, v)) = some (w, v, k) → v.remote = none →
    (w.cls = 2 → ∃ t : State, exec .preempt s = .next t.settled ∧ Counts Reg.DISP.PREEMPT_CNT 1 s t ∧ Counts Reg.DISP.FROG_CNT 1 s t ∧
      t.es = s.es ∧ t.mem = s.mem ∧ t.tsc = s.tsc ∧ t.out = s.out) ∧
    (∀ j n, w.cls ≠ 2 → s.nextCheap v k = some (j, n) → n ≤ s.fld Reg.DISP.CHEAP_WAIT 15 0 →
      (∀ l, s.logicalOf (v.engines.getD k 36) = some l → s.bit Reg.DISP.CLASS2_ENG l = false) →
      ∃ t : State, exec .preempt s = .next t.settled ∧ (t.cmd v.id).map (·.toCheap) = some (some (k, j)) ∧
        Counts Reg.DISP.PREEMPT_CNT 1 s t ∧ SameRegs [Reg.DISP.PREEMPT_CNT] s t ∧ SameRest s t)) ∧
  (∀ s : State, s.live → s.bit Reg.DISP.DISP_CTRL 1 = false → exec .preempt s = .next s.settled) ∧
  (∀ (s : State) (id : Nat) (j : Fin 7) (c : Cmd) (k : Nat), s.live → s.cmd id = some c → c.toCheap = some (k, j.val) →
    let e := s.eng (c.engines.getD k 36)
    e.done = (s.cheapPoint c j).1 → e.fails = [] → e.diag = 0 → (s.cheapPoint c j).2.2 ≤ s.ctxSaveKib c.ctx * 1024 →
    ∃ t : State, exec (.cheapPointReached id j) s = .next t.settled ∧ (t.cmd id).map (·.saving) = some (some (k, j.val)) ∧
      (t.cmd id).map (·.toCheap) = some none ∧ SameRegs [] s t ∧ SameRest s t) ∧
  (∀ (s : State) (id : Nat) (c : Cmd) (k j : Nat), s.live → s.fld Reg.SAFE.C2_REGION 26 16 = 0 → s.cmd id = some c →
    c.saving = some (k, j) → c.engines.length ≤ 1 →
    let e := c.engines.getD k 36
    let live := s.cheapPoint c j
    ∃ t : State, exec (.saveDone id) s = .next t.settled ∧ t.read (s.saveSlot c k) live.2.2 = s.readEs e live.2.1 live.2.2 ∧
      (∀ a, a < s.saveSlot c k ∨ s.saveSlot c k + live.2.2 ≤ a → t.byte a = s.byte a) ∧
      (t.cmd id).map (·.phase) = some .ready ∧ (t.cmd id).map (·.saving) = some none ∧ Counts Reg.DISP.SAVE_CNT 1 s t ∧
      t.es = s.es ∧ t.tsc = s.tsc ∧ t.out = s.out) ∧
  (∀ (s : State) (id : Nat) (c : Cmd) (k j n : Nat) (rest : List Nat), s.live → s.cmd id = some c → c.restoring = k :: rest →
    (c.saved.find? fun x => x.1 == k) = some (k, j, n) →
    let e := c.engines.getD k 36
    let live := s.cheapPoint c j
    ∃ t : State, exec (.restoreDone id) s = .next t.settled ∧ t.readEs e live.2.1 live.2.2 = s.read (s.saveSlot c k) live.2.2 ∧
      (∀ a, a < esAddr e live.2.1 ∨ esAddr e live.2.1 + live.2.2 ≤ a → alGet 0 a t.es = alGet 0 a s.es) ∧
      (t.cmd id).map (·.restoring) = some rest ∧ SameRegs [] s t ∧ t.mem = s.mem ∧ t.tsc = s.tsc ∧ t.out = s.out) ∧
  (∀ (s : State) (id t0 : Nat) (c : Cmd), s.live → s.cmd id = some c → c.remote = some t0 →
    (t0 + s.fld Reg.DISP.REMOTE_TO 15 0 * 1000 ≤ s.now →
      ∃ t : State, exec (.remoteWaitTimeout id) s = .next t.settled ∧ t.pend .DISP 0 1 = true ∧ t.es = s.es ∧ t.tsc = s.tsc) ∧
    (s.now < t0 + s.fld Reg.DISP.REMOTE_TO 15 0 * 1000 → exec (.remoteWaitTimeout id) s = .next s.settled)) ∧
  (∀ (s : State) (id gen : Nat), s.live →
    ((∀ c, s.cmd id = some c → c.remote = none ∨ gen < c.gen) →
      ∃ t : State, exec (.quarantineArrival id gen) s = .next t.settled ∧ Counts Reg.DISP.QUAR_CNT 1 s t ∧ t.pend .DISP 0 2 = true ∧
        Quiet (Reg.DISP.QUAR_CNT :: irqOf .DISP 0) s t) ∧
    (∀ c, s.cmd id = some c → c.remote ≠ none → c.gen ≤ gen → exec (.quarantineArrival id gen) s = .next s.settled))

/-! ### Engines and few-channel engines -/

/-- O31. Engine control (R161, R163, R164). RUN and DRAIN are stored, and DRAIN shows in the state of an engine that runs;
DIAG_CMD.START puts an engine or few-channel engine into DIAG. -/
def Obligations.EngineControl : Prop :=
  (∀ (s : State) (p : Fin 36) (v : Word), s.live → s.accepts 0 (Reg.ENG.CTRL p) (v ||| 1) = true →
    ∃ t : State, exec (.engineRun 0 p v) s = .next t.settled ∧ t.bit (Reg.ENG.CTRL p) 0 = true ∧
      SameRegs ([Reg.ENG.CTRL p, Reg.ENG.ENG_STATE p, Reg.HDR.ERR_STATUS .ENG p] ++ hostTrail .ENG p) s t ∧
      t.es = s.es ∧ t.tsc = s.tsc ∧ t.out = s.out) ∧
  (∀ (s : State) (p : Fin 36) (v : Word), s.live → s.accepts 0 (Reg.ENG.CTRL p) (v ||| 2) = true →
    ∃ t : State, exec (.engineDrain 0 p v) s = .next t.settled ∧ t.bit (Reg.ENG.CTRL p) 1 = true ∧
      (s.engState p = eRUN → t.engState p = eDRAIN) ∧ (s.engState p ≠ eRUN → t.engState p = s.engState p) ∧
      SameRegs ([Reg.ENG.CTRL p, Reg.ENG.ENG_STATE p, Reg.HDR.ERR_STATUS .ENG p] ++ hostTrail .ENG p) s t ∧
      t.es = s.es ∧ t.tsc = s.tsc ∧ t.out = s.out) ∧
  (∀ (s : State) (p : Fin 36) (v : Word), s.live → s.accepts 0 (Reg.ENG.DIAG_CMD p) (v ||| 1) = true → p.val < s.hw.eng.length →
    ∃ t : State, exec (.engDiagStart 0 p v) s = .next t.settled ∧ t.engState p = eDIAG ∧ (t.eng p).diag = 2 ∧
      SameRegs (Reg.ENG.ENG_STATE p :: hostTrail .ENG p) s t ∧ t.es = s.es ∧ t.tsc = s.tsc ∧ t.out = s.out) ∧
  (∀ (s : State) (i : Fin 4) (v : Word), s.live → s.accepts 0 (Reg.FCE.DIAG_CMD i) (v ||| 1) = true → i.val < s.hw.fce.length →
    ∃ t : State, exec (.fceDiagStart 0 i v) s = .next t.settled ∧ t.fceState i = eDIAG ∧ (t.fce i).diag = 2 ∧
      SameRegs (Reg.FCE.FCE_STATE i :: hostTrail .FCE i) s t ∧ t.es = s.es ∧ t.tsc = s.tsc ∧ t.out = s.out)

/-- O32. Placement and the commands without a product (R152, R153, R422, R426). The first placeable command of the
dispatcher's order is placed: the engines chosen for it run it; one refused before its first load leaves the dispatcher;
with none placeable nothing happens. (The code finds the commons sound, and no error waits to be injected in it.) An EMPTY command in one part is staged, or has committed; a MATMUL without reduction
has its results. -/
def Obligations.Placement : Prop :=
  (∀ (s : State) (c : Cmd), s.live → s.bit Reg.DISP.DISP_CTRL 0 = true → s.hw.boot.frozen = false →
    leastBy s.before (s.hw.disp.cmds.filter s.placeable) = some c → s.cmd c.id = some c → c.phase ≠ .running →
    (∀ ps, s.startRefused c = none → (c.empty = true ∨ s.readsPoisoned c = false) → (∀ k, k < 16 → s.rd (Reg.CMN.INJECT k) = 0) →
      onEngine (Desc.opcode c.desc) = true → s.enginesFor c = some ps → (∀ p ∈ ps, p < 36 ∧ p < s.hw.eng.length) →
      ∃ t : State, exec (.commandPlace) s = .next t.settled ∧ (∀ p ∈ ps, t.engState p = eRUN ∧ (t.eng p).cmd = some c.id ∧
        t.fld (Reg.ENG.ENG_STATE p) 23 16 = c.ctx % 256) ∧
      SameRegs (ps.flatMap (fun p => [Reg.ENG.ENG_STATE p, Reg.ENG.DUMMY_CYC p]) ++ (List.range 4).map (fun i => Reg.FCE.FCE_STATE i) ++
        Reg.DISP.CLASS2_WAIT_MAX :: irqOf .DISP 0) s t ∧ SameRest s t) ∧
    (∀ st d emit, s.startRefused c = some (st, d, emit) → s.siblings c = [c] →
      ∃ t : State, exec (.commandPlace) s = .next t.settled ∧ (∀ x ∈ t.hw.disp.cmds, x.id ≠ c.id) ∧ t.es = s.es ∧ t.tsc = s.tsc)) ∧
  (∀ (s : State), s.live →
    (s.bit Reg.DISP.DISP_CTRL 0 = false ∨ s.hw.boot.frozen = true ∨ s.hw.disp.cmds.filter s.placeable = []) →
    exec (.commandPlace) s = .next s.settled) ∧
  (∀ (s : State) (id : Nat) (c : Cmd), s.live → s.cmd id = some c → c.empty = true → c.phase = .running → c.parts = [] →
    c.engines.length ≤ 1 → s.lctPassed c = false →
    ∃ t : State, exec (.emptyCommandComplete id) s = .next t.settled ∧ ((t.cmd id).map (·.phase) = some .staged ∨ t.cmd id = none) ∧
      t.tsc = s.tsc) ∧
  (∀ (s : State) (p : Fin 36) (c : Cmd), s.live → s.runningOn p = some c → Desc.opcode c.desc = opMATMUL → Desc.k c.desc = 0 →
    c.empty = false → (s.eng p).pre = false → c.phase = .running → c.computed = true → s.allTilesDone c = false →
    exec (.zeroKComplete p) s = .next s.settled) ∧
  (∀ (s : State) (p : Fin 36) (c : Cmd), s.live → s.runningOn p = some c → Desc.opcode c.desc = opMATMUL → Desc.k c.desc = 0 →
    c.empty = false → (s.eng p).pre = false → c.phase = .running → c.computed = false → s.allTilesDone c = false →
    s.siblings c = [c] → 0 < Desc.splitN c.desc →
    ∃ t : State, exec (.zeroKComplete p) s = .next t.settled ∧ (t.cmd c.id).map (·.computed) = some true ∧ SameRest s t)

/-- O33. Loads, rows, tiles (R126, R133, R135, R137 to R140, R178, R757). The pre-pass, a shape change and a stationary load
end; the dummy level steps by one eighth. A row whose sums agree is written, with the changes it carries; one whose sums
differ, be it in a single group sum of an exact format, is held, and its third failure brings the diagnostic and a permanent
fault's count. A tile whose totals agree ends; a mismatch is counted and frogs the command. (The engine store is sound.) -/
def Obligations.EngineRows : Prop :=
  (∀ (s : State) (p : Fin 36) (rd : StoreRead), s.live → s.engActive p = true → (s.eng p).pre = true → rd.ecc = .none →
    ((s.eng p).firstRead = false ∨ (s.eng p).injEs = 0) → p.val < s.hw.eng.length →
    ∃ t : State, exec (.prePassDone (p, rd)) s = .next t.settled ∧ (t.eng p).pre = false ∧ SameRegs [] s t ∧ SameRest s t) ∧
  (∀ (s : State) (p : Fin 36), s.live → s.engActive p = true → (s.eng p).shapeTo ≠ 0 → p.val < s.hw.eng.length →
    ∃ t : State, exec (.shapeChange p) s = .next t.settled ∧ t.fld (Reg.ENG.ENG_STATE p) 6 4 = (s.eng p).shapeTo % 8 ∧
      (t.eng p).shapeTo = 0 ∧ (s.fld (Reg.ENG.ENG_STATE p) 6 4 ≠ 0 → Counts (Reg.ENG.SWITCH_CNT p) 1 s t) ∧
      SameRegs [Reg.ENG.ENG_STATE p, Reg.ENG.SWITCH_CNT p, Reg.ENG.DUMMY_CYC p] s t ∧ SameRest s t) ∧
  (∀ (s : State) (p : Fin 36) (rd : StoreRead) (ld : Load), s.live → s.curLoad p = some ld → s.engActive p = true →
    (s.eng p).pre = false → (s.eng p).shapeTo = 0 → (s.eng p).loaded = false → rd.ecc = .none →
    ((s.eng p).firstRead = false ∨ (s.eng p).injEs = 0) → p.val < s.hw.eng.length →
    ∃ t : State, exec (.stationaryLoadDone p rd) s = .next t.settled ∧ (t.eng p).loaded = true ∧ Counts (Reg.ENG.LOAD_CYC p) 128 s t ∧
      Counts (Reg.ENG.DUMMY_CYC p) (s.loadDummy p ld.c) s t ∧
      SameRegs [Reg.ENG.LOAD_CYC p, Reg.ENG.DUMMY_CYC p] s t ∧ SameRest s t) ∧
  (∀ (s : State) (p : Fin 36), s.live → p.val < s.hw.eng.length →
    ((s.eng p).cmd.isSome = true → (s.eng p).dummyUp = true →
      ∃ t : State, exec (.dummyRampStep p) s = .next t.settled ∧ (t.eng p).dummy = min (s.dummyLevel p) ((s.eng p).dummy + 1) ∧
        SameRegs [] s t ∧ SameRest s t) ∧
    ((s.eng p).cmd = none →
      (((s.eng p).rampAt = none ∧ cyclesNs (s.fld (Reg.ENG.DUMMY p) 15 4) (s.engClock p) < s.now - (s.eng p).idleSince) ∨
        (∃ t0, (s.eng p).rampAt = some t0 ∧ t0 + cyclesNs (s.fld (Reg.ENG.DUMMY p) 23 16) (s.engClock p) ≤ s.now)) →
      ∃ t : State, exec (.dummyRampStep p) s = .next t.settled ∧ (t.eng p).dummy = (s.eng p).dummy - 1 ∧
        SameRegs [Reg.ENG.DUMMY_CYC p] s t ∧ SameRest s t)) ∧
  (∀ (s : State) (p : Fin 36) (row : Nat) (rd : StoreRead) (alt : CheckAlt) (ld : Load), s.live → s.curLoad p = some ld →
    s.rowDue p row ld = true → (s.eng p).injRow = false → (s.eng p).injPair = false → (s.eng p).pairNext = false →
    rd.ecc = .none → ((s.eng p).firstRead = false ∨ (s.eng p).injEs = 0) → p.val < s.hw.eng.length →
    let sums := altDeltas alt (s.deadCol p)
    let miss := rowMismatch (ld.c == 4) alt.big ld.shape sums (altChecks alt)
    ∃ t : State, exec (.rowCheck p row (rd, alt)) s = .next t.settled ∧
      t.rd64 (Reg.ENG.ISSUE_CYC_LO p) (Reg.ENG.ISSUE_CYC_HI p) =
        (s.rd64 (Reg.ENG.ISSUE_CYC_LO p) (Reg.ENG.ISSUE_CYC_HI p) + 1) % 2 ^ 64 ∧
      (miss = false → (t.eng p).rows = (s.eng p).rows + 1 ∧ (∀ f ∈ (t.eng p).fails, f.1 ≠ row) ∧
        (t.eng p).acc = (s.eng p).acc ++ (sums ++ altChecks alt)) ∧
      (miss = true → (∀ f ∈ (s.eng p).fails, f.1 ≠ row) → (row, 1) ∈ (t.eng p).fails ∧ (t.eng p).rows = (s.eng p).rows) ∧
      (∀ g b j l d, alt = { sums := [(g, b, j, d)] } → logIndex (s.deadCol p) j = some l → l < 128 → d ≠ 0 → ld.c ≠ 4 →
        (∀ f ∈ (s.eng p).fails, f.1 ≠ row) → (row, 1) ∈ (t.eng p).fails) ∧
      (miss = true → ((s.eng p).fails.find? fun f => f.1 == row) = some (row, 1) →
        (row, 2) ∈ (t.eng p).fails ∧ (t.eng p).loaded = false ∧ t.engState p = eRECOVER) ∧
      (miss = true → ((s.eng p).fails.find? fun f => f.1 == row) = some (row, 2) →
        (t.eng p).diag = 1 ∧ t.engState p = eDIAG ∧ Counts (Reg.ENG.CHK_PERM p) 1 s t) ∧
      SameRegs [Reg.ENG.ISSUE_CYC_LO p, Reg.ENG.ISSUE_CYC_HI p, Reg.ENG.CHK_ROW p, Reg.ENG.CHK_PERM p, Reg.ENG.ENG_STATE p,
        Reg.ENG.DUMMY_CYC p] s t ∧ SameRest s t) ∧
  (∀ (s : State) (p : Fin 36) (alt : CheckAlt) (ld : Load), s.live → s.curLoad p = some ld → s.engActive p = true →
    (s.eng p).loaded = true → (s.eng p).fails = [] → (s.eng p).rows = ld.rows → p.val < s.hw.eng.length →
    let miss := tileMismatch (ld.c == 4) alt.big (s.eng p).acc (altDeltas alt (s.deadCol p) ++ altChecks alt)
    (miss = false → ∃ t : State, exec (.tileEndCheck p alt) s = .next t.settled ∧ (t.eng p).loaded = false ∧
      (t.eng p).rows = 0 ∧ t.rd (Reg.ENG.CHK_TILE p) = s.rd (Reg.ENG.CHK_TILE p) ∧ t.mem = s.mem ∧ t.es = s.es ∧ t.tsc = s.tsc) ∧
    (∀ id c, miss = true → (s.eng p).cmd = some id → s.cmd id = some c → c.frogsC < s.fld Reg.DISP.FROG_MAX 3 0 → c.split = false →
      ∃ t : State, exec (.tileEndCheck p alt) s = .next t.settled ∧ Counts (Reg.ENG.CHK_TILE p) 1 s t ∧ Counts Reg.DISP.FROG_CNT 1 s t ∧
        (t.cmd id).map (·.phase) = some .ready ∧ t.mem = s.mem ∧ t.es = s.es ∧ t.tsc = s.tsc))

/-- O34. Scrub, diagnostic, repair, vector unit, thresholds (R140 to R151, R162). The engine store's scrub counts what it
finds. A diagnostic that DIAG_CMD started reports and returns to the state before; one of a recovery switches a spare in, or
ends in FAULT. A vector instruction whose residues agree has its results in the engine store; the first mismatch is repeated,
the second ends in FAULT. A reached threshold raises the
page's fourth source. -/
def Obligations.EngineDiagnosis : Prop :=
  (∀ (s : State) (p : Fin 36) (w : BitVec 19), s.live → s.engState p ≠ eOFF →
    (∃ t : State, exec (.engineStoreScrub p w .corr) s = .next t.settled ∧
      t.fld (Reg.ENG.ES_ECC p) 15 0 = min (s.fld (Reg.ENG.ES_ECC p) 15 0 + 1) 65535 ∧ SameRegs [Reg.ENG.ES_ECC p] s t ∧ SameRest s t) ∧
    (∃ t : State, exec (.engineStoreScrub p w .uncorr) s = .next t.settled ∧
      t.fld (Reg.ENG.ES_ECC p) 31 16 = min (s.fld (Reg.ENG.ES_ECC p) 31 16 + 1) 65535 ∧ t.pend .ENG p 2 = true ∧
      t.es = s.es ∧ t.tsc = s.tsc ∧ (s.runningOn p = none → SameRegs (Reg.ENG.ES_ECC p :: irqOf .ENG p) s t ∧ SameRest s t))) ∧
  (∀ (s : State) (p : Fin 36) (r : DiagResult) (spareOk : Bool), s.live → p.val < s.hw.eng.length →
    ((s.eng p).diag = 2 → ∃ t : State, exec (.arrayDiagnosticDone p r spareOk) s = .next t.settled ∧
      t.rd (Reg.ENG.DIAG_RESULT p) = BitVec.ofNat 32 (diagWord r) &&& RegRef.mask (Reg.ENG.DIAG_RESULT p) ∧
      t.engState p = (s.eng p).diagFrom % 16 ∧ (t.eng p).diag = 0 ∧
      SameRegs [Reg.ENG.DIAG_RESULT p, Reg.ENG.ENG_STATE p] s t ∧ SameRest s t) ∧
    (∀ i, (s.eng p).diag = 1 → s.repairOf p r spareOk = some (true, i) → i < 256 →
      ∃ t : State, exec (.arrayDiagnosticDone p r spareOk) s = .next t.settled ∧ t.bit (Reg.ENG.ARR_REPAIR p) 9 = true ∧
        t.fld (Reg.ENG.ARR_REPAIR p) 17 10 = i ∧ t.pend .ENG p 0 = true ∧ t.engState p = eRECOVER ∧ (t.eng p).diag = 0 ∧
        SameRegs ([Reg.ENG.ARR_REPAIR p, Reg.ENG.ENG_STATE p] ++ irqOf .ENG p) s t ∧ SameRest s t) ∧
    (∀ i, (s.eng p).diag = 1 → s.repairOf p r spareOk = some (false, i) → i < 256 →
      ∃ t : State, exec (.arrayDiagnosticDone p r spareOk) s = .next t.settled ∧ t.bit (Reg.ENG.ARR_REPAIR p) 0 = true ∧
        t.fld (Reg.ENG.ARR_REPAIR p) 8 1 = i ∧ t.pend .ENG p 0 = true ∧ t.engState p = eRECOVER ∧ (t.eng p).diag = 0 ∧
        SameRegs ([Reg.ENG.ARR_REPAIR p, Reg.ENG.ENG_STATE p] ++ irqOf .ENG p) s t ∧ SameRest s t) ∧
    ((s.eng p).diag = 1 → s.repairOf p r spareOk = none →
      ∃ t : State, exec (.arrayDiagnosticDone p r spareOk) s = .next t.settled ∧ t.engState p = eFAULT ∧ t.pend .ENG p 1 = true ∧
        (t.eng p).cmd = none ∧ t.es = s.es ∧ t.tsc = s.tsc)) ∧
  (∀ (s : State) (p : Fin 36) (i : VecInstr) (rd : StoreRead) (alt : List (Nat × Int)), s.live → s.engActive p = true →
    p.val < s.hw.eng.length → s.bit (Reg.ENG.INJECT p) 4 = false → rd.ecc = .none →
    ((s.eng p).firstRead = false ∨ (s.eng p).injEs = 0) →
    (residueOk alt = true → let r := (s.vecRun p i alt).take (0x400000 - i.dst.toNat)
      ∃ t : State, exec (.vectorInstruction p (i, rd, alt)) s = .next t.settled ∧ (t.eng p).vuOnce = false ∧
        t.readEs p i.dst.toNat r.length = r ∧
        (∀ a, a < esAddr p i.dst.toNat ∨ esAddr p i.dst.toNat + r.length ≤ a → alGet 0 a t.es = alGet 0 a s.es) ∧
        SameRegs [] s t ∧ t.mem = s.mem ∧ t.tsc = s.tsc ∧ t.out = s.out) ∧
    (residueOk alt = false → (s.eng p).vuOnce = false → ∃ t : State, exec (.vectorInstruction p (i, rd, alt)) s = .next t.settled ∧
      (t.eng p).vuOnce = true ∧ Counts (Reg.ENG.VU_CHK p) 1 s t ∧ SameRegs [Reg.ENG.VU_CHK p] s t ∧ SameRest s t) ∧
    (residueOk alt = false → (s.eng p).vuOnce = true → ∃ t : State, exec (.vectorInstruction p (i, rd, alt)) s = .next t.settled ∧
      t.engState p = eFAULT ∧ t.pend .ENG p 1 = true ∧ t.es = s.es ∧ t.tsc = s.tsc)) ∧
  (∀ (s : State) (p : Fin 36), s.live → p.val < s.hw.eng.length →
    let n := ((s.eng p).corr.filter fun t => decide (s.now < t + 1000000000)).length
    0 < n → (s.rd (Reg.ENG.TRANS_THRESH p)).toNat ≤ n →
    ∃ t : State, exec (.transThreshReached (.eng p)) s = .next t.settled ∧ t.pend .ENG p 3 = true ∧ (t.eng p).corr = [] ∧
      SameRegs (irqOf .ENG p) s t ∧ SameRest s t) ∧
  (∀ (s : State) (i : Fin 4), s.live → i.val < s.hw.fce.length →
    let n := ((s.fce i).corr.filter fun t => decide (s.now < t + 1000000000)).length
    0 < n → (s.rd (Reg.FCE.TRANS_THRESH i)).toNat ≤ n →
    ∃ t : State, exec (.transThreshReached (.fce i)) s = .next t.settled ∧ t.pend .FCE i 3 = true ∧ (t.fce i).corr = [] ∧
      SameRegs (irqOf .FCE i) s t ∧ SameRest s t)

/-- O35. Few-channel engines and the augmentation test (R157, R158, R164, R165, R243). A weight load ends, or its parity
error raises source 272 + 4s + 2; an output position whose columns agree is counted, its first mismatch recomputed, the second
brings the diagnostic; a parity error met there has the bank reloaded; the diagnostic switches the spare column in, or ends in FAULT. TEST_CMD.GO leaves mix(seed, index, draw) in
TEST_OUT. -/
def Obligations.FewChannelEngines : Prop :=
  (∀ (s : State) (i : Fin 4), s.live → s.fceActive i = true → (s.fce i).loaded = false → i.val < s.hw.fce.length →
    (∃ t : State, exec (.fceWeightLoadDone i false) s = .next t.settled ∧ (t.fce i).loaded = true ∧ SameRegs [] s t ∧ SameRest s t) ∧
    (∃ t : State, exec (.fceWeightLoadDone i true) s = .next t.settled ∧ t.pend .FCE i 2 = true ∧ Quiet (irqOf .FCE i) s t)) ∧
  (∀ (s : State) (i : Fin 4) (alt : List (Fin 66 × Int)), s.live → s.fceActive i = true → (s.fce i).loaded = true →
    (s.fce i).pos < s.fceWork i → s.bit (Reg.FCE.INJECT i) 0 = false → i.val < s.hw.fce.length →
    (s.fceMiss i alt false = false → ∃ t : State, exec (.fceOutputPosition i (false, alt)) s = .next t.settled ∧ (t.fce i).once = false ∧
      (t.fce i).pos = (s.fce i).pos + 1 ∧ t.rd64 (Reg.FCE.OUT_POS_LO i) (Reg.FCE.OUT_POS_HI i) =
        (s.rd64 (Reg.FCE.OUT_POS_LO i) (Reg.FCE.OUT_POS_HI i) + 1) % 2 ^ 64 ∧
      Counts (Reg.FCE.BUSY_CYC i) (s.fld (Reg.FCE.FCE_STATE i) 9 5) s t ∧
      SameRegs [Reg.FCE.BUSY_CYC i, Reg.FCE.OUT_POS_LO i, Reg.FCE.OUT_POS_HI i] s t ∧ SameRest s t) ∧
    (s.fceMiss i alt false = true → (s.fce i).once = false → ∃ t : State, exec (.fceOutputPosition i (false, alt)) s = .next t.settled ∧
      (t.fce i).once = true ∧ Counts (Reg.FCE.CHK_CNT i) 1 s t ∧ SameRegs [Reg.FCE.BUSY_CYC i, Reg.FCE.CHK_CNT i] s t ∧
      SameRest s t) ∧
    (s.fceMiss i alt false = true → (s.fce i).once = true → ∃ t : State, exec (.fceOutputPosition i (false, alt)) s = .next t.settled ∧
      t.fceState i = eDIAG ∧ (t.fce i).diag = 1 ∧ Counts (Reg.FCE.CHK_PERM i) 1 s t ∧
      SameRegs [Reg.FCE.BUSY_CYC i, Reg.FCE.CHK_PERM i, Reg.FCE.FCE_STATE i] s t ∧ SameRest s t) ∧
    (∃ t : State, exec (.fceOutputPosition i (true, alt)) s = .next t.settled ∧ t.pend .FCE i 2 = true ∧ (t.fce i).loaded = false ∧
      (t.fce i).pos = (s.fce i).pos ∧ SameRegs (irqOf .FCE i) s t ∧ SameRest s t)) ∧
  (∀ (s : State) (i : Fin 4) (located : Option (BitVec 7)), s.live → i.val < s.hw.fce.length →
    ((s.fce i).diag = 2 → ∃ t : State, exec (.fceDiagnosticDone i located) s = .next t.settled ∧ (t.fce i).diag = 0 ∧
      t.fceState i = (s.fce i).diagFrom % 16 ∧ SameRegs [Reg.FCE.DIAG_RESULT i, Reg.FCE.FCE_STATE i] s t ∧ SameRest s t) ∧
    (∀ c, located = some c → (s.fce i).diag = 1 → s.bit (Reg.FCE.COL_REPAIR i) 0 = false →
      ∃ t : State, exec (.fceDiagnosticDone i located) s = .next t.settled ∧
        t.rd (Reg.FCE.COL_REPAIR i) = BitVec.ofNat 32 (1 + 2 * c.toNat) &&& RegRef.mask (Reg.FCE.COL_REPAIR i) ∧
        t.pend .FCE i 0 = true ∧ t.fceState i = eRUN ∧ (t.fce i).loaded = false ∧
        SameRegs ([Reg.FCE.COL_REPAIR i, Reg.FCE.FCE_STATE i] ++ irqOf .FCE i) s t ∧ SameRest s t) ∧
    (located = none → (s.fce i).diag = 1 → ∃ t : State, exec (.fceDiagnosticDone i located) s = .next t.settled ∧
      t.fceState i = eFAULT ∧ t.pend .FCE i 1 = true ∧ (t.fce i).cmd = none ∧ t.es = s.es ∧ t.tsc = s.tsc)) ∧
  (∀ (s : State) (v : Word), s.live → s.accepts 0 Reg.AUG.TEST_CMD (v ||| 1) = true →
    ∃ t : State, exec (.augTestGo 0 v) s = .next t ∧
      t.rd64 Reg.AUG.TEST_OUT_LO Reg.AUG.TEST_OUT_HI = (augMix (BitVec.ofNat 64 (s.rd64 Reg.AUG.TEST_SEED_LO Reg.AUG.TEST_SEED_HI))
        (s.rd Reg.AUG.TEST_INDEX).toNat (s.rd Reg.AUG.TEST_DRAW).toNat).toNat ∧
      SameRegs ([Reg.AUG.TEST_OUT_LO, Reg.AUG.TEST_OUT_HI] ++ hostTrail .AUG 0) s t ∧ t.es = s.es ∧ t.tsc = s.tsc ∧ t.out = s.out)

/-! ### The key-value cache and the text unit -/

/-- O36. Walkers and translation (R43, R261 to R263, R269, R274, R289, R290, R294). A partner's good partial result that is needed
joins the command, a corrupt one is discarded and counted; a completed scan renews the walker's candidates; with a free frame the highest paused sequence is taken up; a miss
waits at its stripe's walker, with the request PF_DIST pages ahead beside it, and its fill enters the engine's look-aside
buffer or is a page-table error; ENABLE puts every
frame that is not in use on the free list. -/
def Obligations.KvWalkers : Prop :=
  (∀ (s : State) (id : Nat) (idx : Fin 8) (u : DUnit) (c : Cmd), s.live → s.cmd id = some c → Desc.opcode c.desc = opATTENTION →
    c.phase = .running → ((s.partialsNeeded c).any fun x => x.1 == idx.val) = true →
    let st : RxSt := alGet {} (rxKey .KVW 0 u.stream) s.hw.rx
    let auth := (u.stream.toNat / 512 == s.devNum && !u.has fREMOTE) && s.authorised (u.stream.toNat % 512)
    (u.crc = u.crcOf → headerFaults u (s.streamCls u) auth st.closed = [] → u.fc = st.e → u.item ∉ st.broken → keysRise s.hw.rx →
      u.item = (c.input.map fun x => x.item).getD 0 →
      ∃ t : State, exec (.attentionPartialArrive id idx u) s = .next t.settled ∧
        (t.cmd id).map (·.partials) = some (c.partials ++ [(idx.val, u)]) ∧
        (alGet ({} : RxSt) (rxKey .KVW 0 u.stream) t.hw.rx).e = st.e + 1 ∧ t.mem = s.mem ∧ t.es = s.es ∧ t.tsc = s.tsc) ∧
    (u.crc ≠ u.crcOf → ∃ t : State, exec (.attentionPartialArrive id idx u) s = .next t.settled ∧ t.hw.disp = s.hw.disp ∧
      t.bit (Reg.HDR.ERR_STATUS .KVW 0) 0 = true ∧ SameRegs [Reg.HDR.ERR_STATUS .KVW 0] s t ∧ SameRest s t)) ∧
  (∀ (s : State) (id : Nat) (idx : Fin 8) (u : DUnit), s.live → s.cmd id = none →
    ∃ t : State, exec (.attentionPartialArrive id idx u) s = .next t.settled ∧ Counts Reg.DISP.QUAR_CNT 1 s t ∧ t.pend .DISP 0 2 = true ∧
      Quiet (Reg.DISP.QUAR_CNT :: irqOf .DISP 0) s t) ∧
  (∀ (s : State) (w : Fin 4), s.live → s.bit Reg.KVW.KVW_CTRL 0 = true → s.hw.kv.wanting = [] → w.val < s.hw.kv.cands.length →
    ∃ t : State, exec (.evictionScanComplete w) s = .next t.settled ∧ t.hw.kv.cands.getD w [] = s.scanFrames ∧
      t.bit (Reg.KVW.KVW_STATUS w) 1 = true ∧ SameRegs [Reg.KVW.KVW_STATUS w] s t ∧ SameRest s t) ∧
  (∀ (s : State) (id i q : Nat) (c : Cmd) (e : SeqEntry), s.live → s.haveFrame = true →
    leastBy (fun a b => s.rankLt b.2.2 a.2.2) s.hw.kv.paused = some (id, i, q) → s.cmd id = some c →
    let s1 := (Act.seqState q sqACTIVE).run s
    (s1.seqList c.desc)[i]? = some e → s1.pagesNeeded (s1.seqRec q) (s1.newLen (s1.attn c.desc).op (s1.seqRec q) e) = [] →
    ∃ t : State, exec .pausedSequenceResume s = .next t.settled ∧ (id, i, q) ∉ t.hw.kv.paused ∧ t.mem = s1.mem ∧
      (∀ y, t.cmd id = some y → ∀ x ∈ y.seqs, x.idx = i → x.paused = false) ∧ t.regs = s.regs ∧ t.es = s.es ∧ t.tsc = s.tsc ∧
      t.out = s.out) ∧
  (∀ s : State, s.live → s.haveFrame = false → exec .pausedSequenceResume s = .next s.settled) ∧
  (∀ (s : State) (p : Fin 36) (q : BitVec 16) (page : BitVec 32), s.live → p.val / 9 < s.hw.kv.misses.length →
    s.hw.kv.labs.getD p [] = [] →
    let w := p.val / 9
    let l := s.hw.kv.misses.getD w []
    let d := s.fld Reg.KVW.KVW_CTRL 7 4
    ((d = 0 ∨ (s.seqRec q.toNat).glen ≤ 16 * (page.toNat + d)) → l.length < 16 →
      ∃ t : State, exec (.labMissWalk p q page) s = .next t ∧ t.hw.kv.misses.getD w [] = l ++ [(p.val, q.toNat, page.toNat, s.now)] ∧
        Counts (Reg.KVW.LAB_MISS w) 1 s t ∧ SameRegs [Reg.KVW.LAB_MISS w] s t ∧ SameRest s t) ∧
    (d ≠ 0 → 16 * (page.toNat + d) < (s.seqRec q.toNat).glen → l.length < 15 →
      ∃ t : State, exec (.labMissWalk p q page) s = .next t ∧ t.hw.kv.misses.getD w [] =
          l ++ [(p.val, q.toNat, page.toNat, s.now), (p.val, q.toNat, page.toNat + d, s.now)] ∧
        Counts (Reg.KVW.LAB_MISS w) 2 s t ∧ SameRegs [Reg.KVW.LAB_MISS w] s t ∧ SameRest s t)) ∧
  (∀ (s : State) (w : Fin 4) (parity : Bool) (p q page t0 : Nat) (rest : List (Nat × Nat × Nat × Nat)), s.live →
    s.hw.kv.misses.getD w [] = (p, q, page, t0) :: rest → w.val < s.hw.kv.misses.length → p < s.hw.kv.labs.length →
    let r := s.seqRec q
    let e := s.pte r page
    let f := pteFrame e
    (pteBad e = false → (pteValid e = true → s.frameOwner f = q ∧ s.frameGen f = r.gen ∧ s.framePage f = page) →
      ∃ t : State, exec (.translationFill (w, parity)) s = .next t.settled ∧ t.hw.kv.misses.getD w [] = rest ∧
        (t.hw.kv.labs.getD p []).head? = some { seq := q, gen := r.gen, page := page, pte := e } ∧
        (t.rd (Reg.KVW.MISS_LAT_MAX w)).toNat = max (s.rd (Reg.KVW.MISS_LAT_MAX w)).toNat (min (s.now - t0) 4294967295) ∧
        (parity = true → Counts (Reg.KVW.WCACHE_PAR w) 1 s t ∧ t.pend .KVW w 3 = true) ∧
        SameRegs (Reg.KVW.MISS_LAT_MAX w :: if parity then Reg.KVW.WCACHE_PAR w :: irqOf .KVW w else []) s t ∧ SameRest s t) ∧
    (pteBad e = true → ∃ t : State, exec (.translationFill (w, parity)) s = .next t.settled ∧ t.hw.kv.misses.getD w [] = rest ∧
      Counts (Reg.KVW.PT_ERR w) 1 s t ∧ t.pend .KVW w 0 = true ∧ t.es = s.es ∧ t.tsc = s.tsc)) ∧
  (∀ (s : State) (st : Fin 4) (v : Word), s.live → s.accepts 0 ⟨.KVW, st, 0x040⟩ (v ||| 1) = true → s.bit Reg.KVW.KVW_CTRL 0 = false →
    s.bit Reg.JRNL.JRNL_CTRL 0 = false →
    let free := (List.range (s.fld Reg.KVW.POOL_FRAMES 23 0)).filter fun f => !s.frameUsed f
    ∃ t : State, exec (.kvwEnable 0 st v) s = .next t.settled ∧ t.bit Reg.KVW.KVW_CTRL 0 = true ∧
      (t.rd Reg.KVW.FREE_HEAD).toNat = free.headD 0xFFFFFFFF ∧ (t.rd Reg.KVW.FREE_FRAMES).toNat = free.length ∧
      t.es = s.es ∧ t.tsc = s.tsc ∧ t.out = s.out)

/-- O37. Sequence commands (R295): RELEASE frees a sequence that is not locked, TRUNCATE shortens it, PIN and UNPIN set and
clear PINNED of a page-table entry; a locked sequence is refused with reason 1, one beyond SEQ_MAX with reason 7. -/
def Obligations.SequenceCommands : Prop :=
  ∀ (s : State) (st : Fin 4) (v : Word), s.live → s.bit Reg.JRNL.JRNL_CTRL 0 = false →
    let q := bits v 31 16
    let r := s.seqRec q
    let arg := (s.rd Reg.KVW.SEQ_ARG).toNat
    (∀ op i, (op, i) ∈ [(1, Instr.seqRelease 0 st v), (2, .seqTruncate 0 st v), (3, .seqPin 0 st v), (4, .seqUnpin 0 st v)] →
      s.accepts 0 ⟨.KVW, st, 0x080⟩ (setBits v 3 0 op) = true →
      (s.fld Reg.KVW.SEQ_MAX 16 0 ≤ q → ∃ t : State, exec i s = .next t.settled ∧ t.rd Reg.KVW.SEQ_RESULT = 0x701 ∧ t.mem = s.mem) ∧
      (q < s.fld Reg.KVW.SEQ_MAX 16 0 → r.locked = true →
        ∃ t : State, exec i s = .next t.settled ∧ t.rd Reg.KVW.SEQ_RESULT = 0x101 ∧ t.mem = s.mem)) ∧
    (q < s.fld Reg.KVW.SEQ_MAX 16 0 → r.locked = false →
      (s.accepts 0 ⟨.KVW, st, 0x080⟩ (setBits v 3 0 1) = true →
        ∃ t : State, exec (.seqRelease 0 st v) s = .next t.settled ∧ t.rd Reg.KVW.SEQ_RESULT = 3 ∧
          (∀ l ∈ t.hw.kv.labs, ∀ e ∈ l, e.seq ≠ q) ∧ (∀ b ∈ t.hw.kv.binds, b.1 ≠ q) ∧
          ((∀ i < r.cap, s.pte r i = 0) → (t.seqRec q).state = sqFREE ∧ (t.seqRec q).gen = (r.gen + 1) % 65536) ∧
          t.es = s.es ∧ t.tsc = s.tsc ∧ t.out = s.out) ∧
      (s.accepts 0 ⟨.KVW, st, 0x080⟩ (setBits v 3 0 2) = true → (∀ i ∈ s.localPages r, 16 * i < min arg r.len) → r.layout ≠ 2 →
        ∃ t : State, exec (.seqTruncate 0 st v) s = .next t.settled ∧ t.rd Reg.KVW.SEQ_RESULT = 3 ∧ (t.seqRec q).len = min arg r.len ∧
          t.es = s.es ∧ t.tsc = s.tsc ∧ t.out = s.out) ∧
      (arg < r.cap → s.accepts 0 ⟨.KVW, st, 0x080⟩ (setBits v 3 0 3) = true →
        ∃ t : State, exec (.seqPin 0 st v) s = .next t.settled ∧ t.rd Reg.KVW.SEQ_RESULT = 3 ∧ t.pte r arg = s.pte r arg ||| 0x02000000 ∧
          (∀ a, a < r.pt + 4 * arg ∨ r.pt + 4 * arg + 4 ≤ a → t.byte a = s.byte a) ∧ t.es = s.es ∧ t.tsc = s.tsc ∧ t.out = s.out) ∧
      (arg < r.cap → s.accepts 0 ⟨.KVW, st, 0x080⟩ (setBits v 3 0 4) = true →
        ∃ t : State, exec (.seqUnpin 0 st v) s = .next t.settled ∧ t.rd Reg.KVW.SEQ_RESULT = 3 ∧ t.pte r arg = s.pte r arg &&& 0xFDFFFFFF ∧
          (∀ a, a < r.pt + 4 * arg ∨ r.pt + 4 * arg + 4 ≤ a → t.byte a = s.byte a) ∧ t.es = s.es ∧ t.tsc = s.tsc ∧ t.out = s.out))

/-- O38. The text unit (R301, R303, R304, R319, R323, R329, R330, R335). A vocabulary whose header passes is loaded, another
refused; UNLOAD clears VOCAB_READY. A constraint set is loaded, unloaded, refused, or left until the request that uses it
ends. A cache fill is counted. The mask unit starts the request next in order, counts the masks it writes, and at
MASK_LIMIT writes the missing ones LATE. -/
def Obligations.TextUnit : Prop :=
  (∀ (s : State) (v : Word), s.live → s.txtBusy = false →
    (s.accepts 0 Reg.TXT.VOCAB_CMD (v ||| 1) = true → v.getLsbD 1 = false →
      (s.vocab.ok = true → ∃ t : State, exec (.vocabLoad 0 v) s = .next t.settled ∧ t.bit Reg.TXT.TXT_STATUS 0 = true ∧
        t.rd Reg.TXT.VOCAB_INFO = BitVec.ofNat 32 s.vocab.size &&& RegRef.mask Reg.TXT.VOCAB_INFO ∧ t.hw.txt.vcache = [] ∧
        SameRegs ([Reg.TXT.TXT_STATUS, Reg.TXT.VOCAB_INFO] ++ hostTrail .TXT 0) s t ∧ t.es = s.es ∧ t.tsc = s.tsc ∧ t.out = s.out) ∧
      (s.vocab.ok = false → ∃ t : State, exec (.vocabLoad 0 v) s = .next t.settled ∧ t.bit Reg.TXT.TXT_STATUS 0 = false ∧
        t.bit (Reg.HDR.ERR_STATUS .TXT 0) 8 = true ∧ t.pend .TXT 0 0 = true ∧ t.es = s.es ∧ t.tsc = s.tsc ∧ t.out = s.out)) ∧
    (s.accepts 0 Reg.TXT.VOCAB_CMD ((v ||| 2) &&& ~~~ 1) = true →
      ∃ t : State, exec (.vocabUnload 0 v) s = .next t.settled ∧ t.bit Reg.TXT.TXT_STATUS 0 = false ∧
        SameRegs (Reg.TXT.TXT_STATUS :: hostTrail .TXT 0) s t ∧ t.es = s.es ∧ t.tsc = s.tsc ∧ t.out = s.out)) ∧
  (∀ (s : State) (v : Word), s.live →
    let k := bits v 11 8
    let a := s.rd64 Reg.TXT.CSET_LO Reg.TXT.CSET_HI
    (s.accepts 0 Reg.TXT.CSET_CMD (v ||| 1) = true →
      (s.slotInUse k = true → ∃ t : State, exec (.csetLoad 0 v) s = .next t.settled ∧ t.hw.txt.later = s.hw.txt.later ++ [(k, some a)] ∧
        SameRegs (hostTrail .TXT 0) s t ∧ t.es = s.es ∧ t.tsc = s.tsc ∧ t.out = s.out) ∧
      (s.slotInUse k = false → s.csetOk (s.cset a) = true → ∃ t : State, exec (.csetLoad 0 v) s = .next t.settled ∧
        t.bit Reg.TXT.CSET_STATUS k = true ∧ alFind k t.hw.txt.csets = some a ∧
        SameRegs (Reg.TXT.CSET_STATUS :: hostTrail .TXT 0) s t ∧ t.es = s.es ∧ t.tsc = s.tsc ∧ t.out = s.out) ∧
      (s.slotInUse k = false → s.csetOk (s.cset a) = false → ∃ t : State, exec (.csetLoad 0 v) s = .next t.settled ∧
        t.bit Reg.TXT.CSET_STATUS k = false ∧ t.pend .TXT 0 1 = true ∧ t.es = s.es ∧ t.tsc = s.tsc ∧ t.out = s.out)) ∧
    (s.accepts 0 Reg.TXT.CSET_CMD ((v ||| 2) &&& ~~~ 1) = true → s.slotInUse k = false →
      ∃ t : State, exec (.csetUnload 0 v) s = .next t.settled ∧ t.bit Reg.TXT.CSET_STATUS k = false ∧
        SameRegs (Reg.TXT.CSET_STATUS :: hostTrail .TXT 0) s t ∧ t.es = s.es ∧ t.tsc = s.tsc ∧ t.out = s.out)) ∧
  (∀ (s : State) (k : Nat), s.live → s.hw.txt.run = none → s.hw.txt.later = [(k, none)] → k < 16 →
    ∃ t : State, exec .csetDeferredApply s = .next t.settled ∧ t.bit Reg.TXT.CSET_STATUS k = false ∧ t.hw.txt.later = [] ∧
      SameRegs [Reg.TXT.CSET_STATUS] s t ∧ SameRest s t) ∧
  (∀ (s : State) (line : BitVec 58) (byMask parity : Bool), s.live →
    ∃ t : State, exec (.vcacheMissFill line byMask parity) s = .next t ∧ Counts Reg.TXT.VCACHE_MISS 1 s t ∧
      (parity = true → Counts Reg.TXT.VCACHE_PAR 1 s t ∧ t.pend .TXT 0 4 = true) ∧
      ((if byMask then s.fld Reg.TXT.TXT_CTRL 7 4 else 16 - s.fld Reg.TXT.TXT_CTRL 7 4) ≠ 0 →
        t.hw.txt.vcache.head? = some (line.toNat, byMask)) ∧
      SameRegs ([Reg.TXT.VCACHE_MISS, Reg.TXT.VCACHE_PAR] ++ irqOf .TXT 0) s t ∧ SameRest s t) ∧
  (∀ (s : State) (q : MaskReq), s.live → s.hw.txt.run = none → s.bit Reg.TXT.TXT_CTRL 0 = true → nextMask s.hw.txt.queue = some q →
    ∃ t : State, exec .maskRequestStart s = .next t.settled ∧ t.hw.txt.run = some { q with start := s.now, done := [] } ∧
      t.hw.txt.queue = (s.hw.txt.queue.filter fun x => x.cmd != q.cmd) ∧ t.regs = s.regs ∧ SameRest s t) ∧
  (∀ (s : State) (q : MaskReq) (i : Nat), s.live → s.hw.txt.run = some q → i < q.count → (∀ x ∈ q.done, x.1 ≠ i) →
    (32 ≤ i → (i - 32) ∈ q.done.map (·.1)) → q.done.length + 1 < q.count →
    ∃ t : State, exec (.maskEntry i) s = .next t.settled ∧
      t.hw.txt.run = some { q with done := q.done ++ [(i, (s.maskEntry q i).mask.reason)] } ∧
      ((s.maskEnt q i).noMask = false → Counts Reg.TXT.MASK_CNT 1 s t) ∧ t.es = s.es ∧ t.tsc = s.tsc ∧ t.out = s.out) ∧
  (∀ (s : State) (q : MaskReq), s.live → s.hw.txt.run = some q →
    (q.start + (s.rd Reg.TXT.MASK_LIMIT).toNat * 1000 ≤ s.now → q.done = [] → (∀ i < q.count, (s.maskEnt q i).noMask = false) →
      ∃ t : State, exec .maskLimitExpiry s = .next t.settled ∧ t.hw.txt.run = none ∧ Counts Reg.TXT.MASK_LATE q.count s t ∧
        Counts Reg.TXT.MASK_CNT q.count s t ∧ t.es = s.es ∧ t.tsc = s.tsc ∧ t.out = s.out) ∧
    (s.now < q.start + (s.rd Reg.TXT.MASK_LIMIT).toNat * 1000 → exec .maskLimitExpiry s = .next s.settled))

/-! ### Items, functions, interrupts -/

/-- O39. The item monitor (R344, R350, R352, R354 to R356, R361, R363, R366). A sweep message without a follower profile raises
source 123; one with it has its item followed, or closed. At T_sw an undecided item with a ready fallback is switched; at
T_emit one without an accepted record is rejected and source 121 raised. A held record whose streams have passed is the
item's decision unit in the profile's ring, and the item is followed no longer. A candidate joins the opener's. -/
def Obligations.ItemMonitor : Prop :=
  (∀ (s : State) (id : BitVec 48) (stamp : DWord) (prof : BitVec 6), s.live →
    (s.sweepProfile id prof.toNat = none →
      (∃ t : State, exec (.sweepOpenMessage id stamp prof) s = .next t.settled ∧ t.pend .DISP 0 27 = true ∧ Quiet (irqOf .DISP 0) s t) ∧
      (∃ t : State, exec (.sweepCloseMessage id stamp prof) s = .next t.settled ∧ t.pend .DISP 0 27 = true ∧ Quiet (irqOf .DISP 0) s t)) ∧
    (∀ i, s.sweepProfile id prof.toNat = some i → s.monItem id = none → (s.hw.disp.decided.any fun d => d.1 == id) = false →
      s.hw.disp.items.length < 4096 → s.sweepPaths i = [] →
      ∃ t : State, exec (.sweepOpenMessage id stamp prof) s = .next t.settled ∧
        t.hw.disp.items = s.hw.disp.items ++ [{ id := id, prof := i, stamp := stamp.toNat, fixed := true, cls := 1, streams := [] }] ∧
        SameRegs [] s t ∧ SameRest s t) ∧
    (∀ i p y, s.sweepProfile id prof.toNat = some i → p ∈ s.sweepPaths i → s.itemOpenOn p = some y → y.id = id →
      p < s.hw.cap.paths.length →
      ∃ t : State, exec (.sweepCloseMessage id stamp prof) s = .next t.settled ∧ t.itemOpenOn p = none ∧
        SameRegs ((List.range 16).map Reg.SFE.PATH_STATUS) s t ∧ SameRest s t)) ∧
  (∀ (s : State) (id : BitVec 48) (x : MonItem), s.live → s.monItem id = some x →
    (∀ t0, s.tSw x = some t0 → t0 ≤ s.now → x.held = none → (x.cands.any fun c => c.1 == s.devNum) = false → s.fbReady x = true →
      ∃ t : State, exec (.tSwExpiry id) s = .next t.settled ∧ t.pend .DISP 0 24 = true ∧ t.es = s.es ∧ t.tsc = s.tsc ∧
        ((s.itemCmds id).filter Cmd.isParked ≠ [] → (t.monItem id).map (·.fallback) = some true)) ∧
    (∀ t0, s.tSw x = some t0 → s.now < t0 → exec (.tSwExpiry id) s = .next s.settled) ∧
    (s.tEmit x ≤ s.now → s.hw.boot.frozen = false → s.profRole x.prof ≠ 1 →
      ∃ t : State, exec (.tEmitExpiry id) s = .next t.settled ∧ t.pend .DISP 0 25 = true ∧ t.monItem id = none ∧
        (∃ d ∈ t.hw.disp.decided, d.id = id) ∧ t.es = s.es ∧ t.tsc = s.tsc) ∧
    (s.now < s.tEmit x → exec (.tEmitExpiry id) s = .next s.settled) ∧
    (∀ r fl, x.held = some (r, fl) → s.now ≤ s.tEmit x →
      ((s.profPolicy x.prof).getLsbD 4 = false ∨ x.streams.all (·.2) = true) → s.profRole x.prof = 0 → s.hw.boot.frozen = false →
      s.fld Reg.SAFE.C2_REGION 26 16 = 0 → (s.itemCmds x.id).filter Cmd.isParked = [] →
      let why := s.recReason x r fl
      let out := s.fillRec x { r with outcome := if why = 0 then 0 else 1, reason := BitVec.ofNat 8 why, chosenDev := BitVec.ofNat 8 s.devNum }
      let n := alGet 0 x.prof s.hw.disp.ringNext
      ∃ t : State, exec (.holdLastRelease id) s = .next t.settled ∧
        t.read (s.profRing x.prof + 96 * (n % 256)) 96 = (s.decisionUnit x out fl n).toBytes ∧ t.monItem id = none ∧
        t.regs = s.regs ∧ t.es = s.es ∧ t.tsc = s.tsc ∧ t.out = s.out)) ∧
  (∀ (s : State) (dev : BitVec 3) (id : BitVec 48) (r : DecisionRecord) (invalid : Bool), s.live →
    (s.bit Reg.LINK.ROUTE_LOST dev.toNat = true →
      ∃ t : State, exec (.sweepCandidateArrive dev id r invalid) s = .next t.settled ∧ Counts Reg.DISP.QUAR_CNT 1 s t ∧
        t.pend .DISP 0 2 = true ∧ Quiet (Reg.DISP.QUAR_CNT :: irqOf .DISP 0) s t) ∧
    (∀ x, s.bit Reg.LINK.ROUTE_LOST dev.toNat = false → s.monItem id = some x → s.profRole x.prof = 1 →
      dev.toNat ∈ s.sweepDevs x.prof → (x.cands.any fun c => c.1 == dev.toNat) = false →
      (∃ d ∈ s.sweepDevs x.prof, d ≠ dev.toNat ∧ (x.cands.any fun c => c.1 == d) = false) →
      ∃ t : State, exec (.sweepCandidateArrive dev id r invalid) s = .next t.settled ∧
        (t.monItem id).map (·.cands) = some (x.cands ++ [(dev.toNat, r, invalid)]) ∧ t.regs = s.regs ∧ SameRest s t))

/-- O40. Mailboxes and function resets (R455, R458, R461, R469). SEND marks the receiver's side full and sets its notice; ACK
empties the incoming side and sets the sender's notice. A Function Level Reset of a VF returns the page FUNC[f] to reset, QOS
and the header apart, ends the service of its vectors, and is noticed by the PF; that of the PF masks every source and clears
every latch; clearing VF Enable leaves no VF enabled. An IRQ_EOI ends the service of a vector. -/
def Obligations.FunctionCommands : Prop :=
  (∀ (s : State) (g : Fin 32) (v : Word), s.live → g ≠ 0 →
    (s.accepts 0 (Reg.FUNC.MBOX_CMD g) (v ||| 1) = true → ∃ t : State, exec (.mboxSend 0 g v) s = .next t ∧
      t.bit (Reg.FUNC.MBOX_STATUS g) 1 = true ∧ t.bit (Reg.FUNC.NOTICE g) 2 = true ∧
      SameRegs ([Reg.FUNC.MBOX_STATUS g, Reg.FUNC.NOTICE g] ++ hostTrail .FUNC g) s t ∧ t.es = s.es ∧ t.tsc = s.tsc ∧ t.out = s.out) ∧
    (s.accepts g.val (Reg.FUNC.MBOX_CMD g) (v ||| 1) = true → ∃ t : State, exec (.mboxSend g g v) s = .next t ∧
      t.bit (Reg.FUNC.MBOX_STATUS g) 0 = true ∧ t.bit (Reg.FUNC.NOTICE 0) 2 = true ∧
      SameRegs ([Reg.FUNC.MBOX_STATUS g, Reg.FUNC.NOTICE 0] ++ hostTrail .FUNC g) s t ∧ t.es = s.es ∧ t.tsc = s.tsc ∧ t.out = s.out) ∧
    (s.accepts 0 (Reg.FUNC.MBOX_CMD g) (v ||| 2) = true → s.bit (Reg.FUNC.MBOX_STATUS g) 0 = true →
      ∃ t : State, exec (.mboxAck 0 g v) s = .next t ∧ t.bit (Reg.FUNC.MBOX_STATUS g) 0 = false ∧ t.bit (Reg.FUNC.NOTICE g) 3 = true ∧
      SameRegs ([Reg.FUNC.MBOX_STATUS g, Reg.FUNC.NOTICE g] ++ hostTrail .FUNC g) s t ∧ t.es = s.es ∧ t.tsc = s.tsc ∧ t.out = s.out) ∧
    (s.accepts g.val (Reg.FUNC.MBOX_CMD g) (v ||| 2) = true → s.bit (Reg.FUNC.MBOX_STATUS g) 1 = true →
      ∃ t : State, exec (.mboxAck g g v) s = .next t ∧ t.bit (Reg.FUNC.MBOX_STATUS g) 1 = false ∧ t.bit (Reg.FUNC.NOTICE 0) 3 = true ∧
      SameRegs ([Reg.FUNC.MBOX_STATUS g, Reg.FUNC.NOTICE 0] ++ hostTrail .FUNC g) s t ∧ t.es = s.es ∧ t.tsc = s.tsc ∧ t.out = s.out)) ∧
  (∀ (s : State) (g : Fin 32), s.live → g ≠ 0 →
    ∃ t : State, exec (.vfFlr g) s = .next t.settled ∧
      (∀ off, 0x040 ≤ off → off < 0x1000 → off ≠ 0x044 → t.rd ⟨.FUNC, g, off⟩ = RegRef.resetVal ⟨.FUNC, g, off⟩) ∧
      t.rd (Reg.FUNC.QOS g) = s.rd (Reg.FUNC.QOS g) ∧ (∀ e ∈ t.hw.gath.insvc, e.1 ≠ g.val) ∧ t.bit (Reg.FUNC.NOTICE 0) 1 = true ∧
      (t.rd (Reg.FUNC.FLR_LAST 0)).toNat = g.val ∧ t.es = s.es ∧ t.tsc = s.tsc) ∧
  (∀ s : State, s.live →
    ∃ t : State, exec .pfFlr s = .next t.settled ∧ (∀ (g : Fin 4) (w : Fin 8), t.rd (Reg.GATH.SRC_MASK g w) = 0xFFFFFFFF) ∧
      t.hw.gath.edge = 0 ∧ t.hw.gath.soft = 0 ∧ t.hw.gath.insvc = [] ∧ t.es = s.es ∧ t.tsc = s.tsc) ∧
  (∀ s : State, s.live →
    ∃ t : State, exec .vfEnableClear s = .next t.settled ∧ t.rd Reg.HOST.VF_ENABLED = 0 ∧ t.bit Reg.HOST.SRIOV_STATUS 0 = false ∧
      t.es = s.es ∧ t.tsc = s.tsc) ∧
  (∀ (s : State) (f g : Fin 32) (v : Word), s.live → s.accepts f (Reg.FUNC.IRQ_EOI g) v = true →
    ∃ t : State, exec (.irqEoi f g v) s = .next t ∧ t.vecInService g (bits v 5 0) = false ∧
      (∀ f' v', (f', v') ≠ (g.val, bits v 5 0) → t.vecInService f' v' = s.vecInService f' v') ∧ SameRegs (hostTrail .FUNC g) s t ∧
      t.es = s.es ∧ t.tsc = s.tsc ∧ t.out = s.out)

/-- O41. Sources, masks, configuration (R466, R467, R474, R483): SET and CLR registers set and clear exactly the bits written
as 1; SRC_CFG takes a write to a source that is masked and not in service; PCIe configuration writes set VF Enable with
NumVFs, the power state, MSI-X control, PME_En and Vector Control. -/
def Obligations.InterruptRegisters : Prop :=
  (∀ (s : State) (g : Fin 4) (w : Fin 8) (v : Word), s.live →
    (s.accepts 0 (Reg.GATH.SRC_PEND_SET g w) v = true → ∃ t : State, exec (.srcPendSet 0 g w v) s = .next t ∧
      t.hw.gath.soft = s.hw.gath.soft ||| srcWord g w v ∧ SameRegs (hostTrail .GATH g) s t ∧ t.es = s.es ∧ t.tsc = s.tsc ∧ t.out = s.out) ∧
    (s.accepts 0 (Reg.GATH.SRC_PEND_CLR g w) v = true → s.bit Reg.JRNL.JRNL_CTRL 0 = false →
      ∃ t : State, exec (.srcPendClr 0 g w v) s = .next t ∧ t.hw.gath.soft = s.hw.gath.soft &&& ~~~ srcWord g w v ∧
      t.hw.gath.edge = s.hw.gath.edge &&& ~~~ srcWord g w v ∧ SameRegs (hostTrail .GATH g) s t ∧
      t.es = s.es ∧ t.tsc = s.tsc ∧ t.out = s.out) ∧
    (s.accepts 0 (Reg.GATH.SRC_MASK_SET g w) v = true → ∃ t : State, exec (.srcMaskSet 0 g w v) s = .next t ∧
      t.rd (Reg.GATH.SRC_MASK g w) = s.rd (Reg.GATH.SRC_MASK g w) ||| v ∧
      SameRegs (Reg.GATH.SRC_MASK g w :: hostTrail .GATH g) s t ∧ t.es = s.es ∧ t.tsc = s.tsc ∧ t.out = s.out) ∧
    (s.accepts 0 (Reg.GATH.SRC_MASK_CLR g w) v = true → ∃ t : State, exec (.srcMaskClr 0 g w v) s = .next t ∧
      t.rd (Reg.GATH.SRC_MASK g w) = s.rd (Reg.GATH.SRC_MASK g w) &&& ~~~ v ∧
      SameRegs (Reg.GATH.SRC_MASK g w :: hostTrail .GATH g) s t ∧ t.es = s.es ∧ t.tsc = s.tsc ∧ t.out = s.out) ∧
    (s.accepts 0 (Reg.GATH.SRC_STORM g w) v = true → ∃ t : State, exec (.srcStormClear 0 g w v) s = .next t ∧
      t.rd (Reg.GATH.SRC_STORM g w) = s.rd (Reg.GATH.SRC_STORM g w) &&& ~~~ v ∧
      SameRegs (Reg.GATH.SRC_STORM g w :: hostTrail .GATH g) s t ∧ t.es = s.es ∧ t.tsc = s.tsc ∧ t.out = s.out)) ∧
  (∀ (s : State) (g : Fin 4) (ix : BitVec 8) (v : Word), s.live → s.accepts 0 (Reg.GATH.SRC_CFG g ix.toNat) v = true →
    (g ≠ 0 ∨ ix.toNat < 64 ∨ 96 ≤ ix.toNat) →
    ∃ t : State, exec (.srcCfgWrite 0 g ix v) s = .next t ∧
      t.rd (Reg.GATH.SRC_CFG g ix.toNat) = v &&& RegRef.mask (Reg.GATH.SRC_CFG g ix.toNat) ∧
      SameRegs (Reg.GATH.SRC_CFG g ix.toNat :: hostTrail .GATH g) s t ∧ t.es = s.es ∧ t.tsc = s.tsc ∧ t.out = s.out) ∧
  (∀ (s : State) (f g : Fin 32) (hi : Bool) (v : Word), s.live →
    (s.accepts f (if hi then Reg.FUNC.VEC_MASK_SET_HI g else Reg.FUNC.VEC_MASK_SET_LO g) v = true →
      ∃ t : State, exec (.vecMaskSet f g hi v) s = .next t ∧ t.rd (vecMaskReg g hi) = s.rd (vecMaskReg g hi) ||| v ∧
      SameRegs (vecMaskReg g hi :: hostTrail .FUNC g) s t ∧ t.es = s.es ∧ t.tsc = s.tsc ∧ t.out = s.out) ∧
    (s.accepts f (if hi then Reg.FUNC.VEC_MASK_CLR_HI g else Reg.FUNC.VEC_MASK_CLR_LO g) v = true →
      ∃ t : State, exec (.vecMaskClr f g hi v) s = .next t ∧ t.rd (vecMaskReg g hi) = s.rd (vecMaskReg g hi) &&& ~~~ v ∧
      SameRegs (vecMaskReg g hi :: hostTrail .FUNC g) s t ∧ t.es = s.es ∧ t.tsc = s.tsc ∧ t.out = s.out)) ∧
  (∀ (s : State) (g : Fin 32), s.live → g.val < s.hw.gath.fns.length →
    (∀ n ari, g = 0 → (ari = true ∨ n.toNat ≤ 7) → ∃ t : State, exec (.pcieConfigWrite g (.vfEnable n ari)) s = .next t.settled ∧
      t.rd Reg.HOST.VF_ENABLED = BitVec.ofNat 32 ((2 ^ min n.toNat 31 - 1) * 2) ∧ t.bit Reg.HOST.SRIOV_STATUS 0 = true ∧
      SameRegs [Reg.HOST.VF_ENABLED, Reg.HOST.SRIOV_STATUS] s t ∧ SameRest s t) ∧
    (∀ d : BitVec 2, (d = 0 ∨ d = 3) → ∃ t : State, exec (.pcieConfigWrite g (.dState d)) s = .next t.settled ∧ (t.fn g).dState = d ∧
      t.regs = s.regs ∧ SameRest s t) ∧
    (∀ en mask, ∃ t : State, exec (.pcieConfigWrite g (.msixControl en mask)) s = .next t.settled ∧ (t.fn g).msixEn = en ∧
      (t.fn g).fMask = mask ∧ t.regs = s.regs ∧ SameRest s t) ∧
    (∀ en, ∃ t : State, exec (.pcieConfigWrite g (.pme en true)) s = .next t.settled ∧ (t.fn g).pmeEn = en ∧ (t.fn g).pmeStatus = false ∧
      t.regs = s.regs ∧ SameRest s t) ∧
    (∀ v m, keysRise s.hw.gath.msix → ∃ t : State, exec (.pcieConfigWrite g (.vectorControl v m)) s = .next t.settled ∧
      (t.msixEntry g v.toNat).getLsbD 96 = m ∧ t.regs = s.regs ∧ SameRest s t))

/-- O42. The gatherer (R468, R472, R473, R475, R477). For an idle target of an enabled function in D0 with the link in L0, the
lowest pending unmasked source is taken into service, its latches cleared, and one message sent; with none pending nothing
happens; a storm masks its source instead. A storm window closes, a moderation timer makes its channel pending, a held
message goes when it may, and the link's return to L0 releases WAKE_N. -/
def Obligations.GathererDelivers : Prop :=
  (∀ (s : State) (g : Fin 32) (vec : BitVec 6) (n : Nat), s.live → s.vecInService g vec.toNat = false → s.fnEnabled g = true →
    s.chanPending g vec.toNat = false →
    ((List.range 1024).find? fun n => s.selectable n && s.target n == (g.val, vec.toNat)) = some n →
    (s.stormTrips n = false → (s.fn g).dState ≠ 3 → s.ltssm = ltssmL0 → s.vecAllowed g vec.toNat = true →
      ∃ t : State, exec (.gathererSelect g vec) s = .next t ∧ t.out = s.out ++ [.msix g vec.toNat] ∧
        t.vecInService g vec.toNat = true ∧ t.srcInService n = true ∧ inSet t.hw.gath.edge n = false ∧ inSet t.hw.gath.soft n = false ∧
        Counts (Reg.FUNC.DELIV_CNT g) 1 s t ∧ Counts (Reg.GATH.GDELIV_CNT (n / 256)) 1 s t ∧
        SameRegs [Reg.FUNC.DELIV_CNT g, Reg.GATH.GDELIV_CNT (n / 256), Reg.GATH.GATH_STATUS (n / 256)] s t ∧
        t.mem = s.mem ∧ t.es = s.es ∧ t.tsc = s.tsc) ∧
    (s.stormTrips n = true → ∃ t : State, exec (.gathererSelect g vec) s = .next t ∧ t.srcMasked n = true ∧ t.out = s.out ∧
      t.vecInService g vec.toNat = false ∧ Counts (Reg.GATH.STORM_CNT (n / 256)) 1 s t ∧ t.bit (Reg.FUNC.NOTICE 0) 0 = true ∧
      t.mem = s.mem ∧ t.es = s.es ∧ t.tsc = s.tsc)) ∧
  (∀ (s : State) (g : Fin 32) (vec : BitVec 6), s.live → s.chanPending g vec.toNat = false →
    ((List.range 1024).find? fun n => s.selectable n && s.target n == (g.val, vec.toNat)) = none →
    exec (.gathererSelect g vec) s = .next s) ∧
  (∀ (s : State) (src : BitVec 10) (t0 k : Nat), s.live → s.storm src.toNat = some (t0, k) →
    (t0 + s.fld (Reg.GATH.STORM_CFG (src.toNat / 256)) 31 16 * 1000 ≤ s.now →
      ∃ t : State, exec (.stormWindowExpiry src) s = .next t ∧ t.storm src.toNat = none ∧ t.regs = s.regs ∧ SameRest s t) ∧
    (s.now < t0 + s.fld (Reg.GATH.STORM_CFG (src.toNat / 256)) 31 16 * 1000 → exec (.stormWindowExpiry src) s = .next s)) ∧
  (∀ (s : State) (g : Fin 32) (vec : BitVec 6), s.live → 0 < s.fld (Reg.FUNC.MOD_CFG g vec.toNat) 23 8 → 0 < (s.chan g vec.toNat).1 →
    (s.chan g vec.toNat).2 + s.fld (Reg.FUNC.MOD_CFG g vec.toNat) 23 8 * 1000 ≤ s.now →
    ∃ t : State, exec (.moderationTimerExpiry g vec) s = .next t ∧ t.chanPending g vec.toNat = true ∧ t.regs = s.regs ∧ SameRest s t) ∧
  (∀ (s : State) (g : Fin 32) (vec : BitVec 6), s.live → (g.val, vec.toNat) ∈ s.hw.gath.heldMsg →
    (s.mayRelease g vec.toNat = true → ∃ t : State, exec (.heldMessageRelease g vec) s = .next t ∧ t.out = s.out ++ [.msix g vec.toNat] ∧
      (g.val, vec.toNat) ∉ t.hw.gath.heldMsg ∧ Counts (Reg.FUNC.DELIV_CNT g) 1 s t ∧ SameRegs [Reg.FUNC.DELIV_CNT g, Reg.HOST.LINK_STATUS] s t ∧
      t.mem = s.mem ∧ t.es = s.es ∧ t.tsc = s.tsc) ∧
    (s.mayRelease g vec.toNat = false → exec (.heldMessageRelease g vec) s = .next s)) ∧
  (∀ s : State, s.live →
    ∃ t : State, exec .linkReachesL0 s = .next t ∧ t.ltssm = ltssmL0 ∧ t.hw.gath.wakeN = false ∧ (s.hw.gath.wakeN = false → t.out = s.out) ∧
      SameRegs [Reg.HOST.LINK_STATUS] s t ∧ t.mem = s.mem ∧ t.es = s.es ∧ t.tsc = s.tsc)

/-! ### Perception to motion -/

/-- O43. Joint sensors (R368 to R373, R396). A trigger latches the sample set and shows its channels busy, at once when every data
line has been high for MONOFLOP, else the set is held until then; one while a set is there is counted as an overrun and
raises source 556; the burst's end leaves the position of its channel and clears the set. -/
def Obligations.JointSensors : Prop :=
  (∀ (s : State) (v : Word), s.live → s.bit Reg.SSI.SSI_CTRL 0 = true →
    (s.hw.mot.set_ = none → s.burstStart = s.now →
      (∃ t : State, exec .ssiTrigger s = .next t ∧ t.hw.mot.set_.map (·.stamp) = some s.now ∧ t.hw.mot.set_.map (·.chans) = some s.setChans ∧
        t.hw.mot.set_.map (·.encs) = some s.setEncs ∧
        t.rd Reg.SSI.SSI_STATUS = s.rd Reg.SSI.SET_MASK &&& 0xFFF ∧ SameRegs [Reg.SSI.SSI_STATUS] s t ∧ SameRest s t) ∧
      (s.accepts 0 Reg.SSI.SSI_CMD (v ||| 1) = true → s.bit Reg.SSI.SET_TRIG 0 = false →
        ∃ t : State, exec (.ssiSample 0 v) s = .next t ∧ t.hw.mot.set_.map (·.stamp) = some s.now ∧
        t.hw.mot.set_.map (·.chans) = some s.setChans ∧ SameRegs (Reg.SSI.SSI_STATUS :: hostTrail .SSI 0) s t ∧
        t.es = s.es ∧ t.tsc = s.tsc ∧ t.out = s.out)) ∧
    (s.hw.mot.set_ = none → s.now < s.burstStart →
      ∃ t : State, exec .ssiTrigger s = .next t ∧ t.hw.mot.set_ = some { held := true, stamp := s.burstStart, chans := s.setChans } ∧
        t.regs = s.regs ∧ SameRest s t) ∧
    (s.hw.mot.set_ ≠ none →
      ∃ t : State, exec .ssiTrigger s = .next t ∧ Counts Reg.SSI.OVERRUN_CNT 1 s t ∧ t.pend .SSI 0 12 = true ∧
        Quiet (Reg.SSI.OVERRUN_CNT :: irqOf .SSI 0) s t)) ∧
  (∀ (s : State) (c : Nat) (f : SsiFrame) (x : SampleSet), s.live → s.hw.mot.set_ = some x → x.held = false → x.chans = [c] →
    x.encs = [] → c < 12 → c < s.hw.mot.quiet.length →
    ∃ t : State, exec (.ssiBurstDone [f]) s = .next t.settled ∧ t.hw.mot.set_ = none ∧ t.rd Reg.SSI.SSI_STATUS = 0 ∧
      t.hw.mot.quiet.getD c none = some (x.stamp + f.rest.toNat) ∧
      (t.rd (Reg.SSI.CH_LAST c)).toNat = (s.ssiDecode c f).1 ∧ ((s.ssiDecode c f).2 % 8 ≠ 0 → t.pend .SSI 0 c = true) ∧
      t.es = s.es ∧ t.tsc = s.tsc ∧ t.out = s.out)

/-- O44. TSN ports (R375 to R381, R395). A frame without a filter is dropped and raises source 512 + 8t + 3, one that its
filter passes is counted; a Sync that is off by more than 1 µs sets the port's time to the master's, a smaller one leaves it
continuous; lost Sync and a lost link are shown and raised; a gate list is taken over at its time. -/
def Obligations.TsnPorts : Prop :=
  (∀ (s : State) (p : Fin 4) (fr : TsnFrame), s.live → s.tsnUp p = true →
    (s.sfMatch p fr = none → ∃ t : State, exec (.tsnFrameReceive p fr) s = .next t.settled ∧ Counts (Reg.TSN.RX_DROP p) 1 s t ∧
      t.pend .TSN p 3 = true ∧ Quiet (Reg.TSN.RX_DROP p :: irqOf .TSN p) s t) ∧
    (∀ i, s.sfMatch p fr = some i →
      let e := (s.tsn p).filters.getD i {}
      e.cfg.getLsbD 16 = true → bits e.meter 23 0 = 0 → e.cfg.getLsbD 28 = false → s.bit (Reg.TSN.CB_CFG p) 0 = false →
      ∃ t : State, exec (.tsnFrameReceive p fr) s = .next t.settled ∧ Counts (Reg.TSN.RX_FRAMES p) 1 s t ∧ t.es = s.es ∧ t.tsc = s.tsc ∧
        t.out = s.out)) ∧
  (∀ (s : State) (p : Fin 4) (as_ : DWord) (rate : Int) (interval pdelay : Word), s.live → p.val < s.hw.mot.tsn.length →
    s.bit (Reg.TSN.TSN_CTRL p) 0 = true → s.fld (Reg.TSN.TSN_CTRL p) 5 4 = 1 → s.bit (Reg.TSN.TSN_STATUS p) 0 = true →
    let d : Int := (as_.toNat : Int) - s.asTime p s.now
    ∃ t : State, exec (.tsnSyncReceive p as_ rate interval pdelay) s = .next t ∧ t.rd (Reg.TSN.PDELAY p) = pdelay ∧
      t.rd (Reg.TSN.AS_OFFSET p) = BitVec.ofInt 32 (-d) ∧ t.bit (Reg.TSN.TSN_STATUS p) 4 = true ∧
      ((d < -1000 ∨ 1000 < d) → t.asTime p t.now = as_.toNat ∧ t.pend .TSN p 2 = true) ∧
      ((-1000 ≤ d ∧ d ≤ 1000) → t.asTime p t.now = s.asTime p s.now) ∧
      SameRegs ([Reg.TSN.AS_OFFSET p, Reg.TSN.PDELAY p, Reg.TSN.TSN_STATUS p] ++ irqOf .TSN p) s t ∧ SameRest s t) ∧
  (∀ (s : State) (p : Fin 4) (last i : Nat), s.live → (s.tsn p).sync = some (last, i) → s.bit (Reg.TSN.TSN_STATUS p) 4 = true →
    s.fld (Reg.TSN.TSN_CTRL p) 5 4 = 1 → last + 3 * i ≤ s.now →
    ∃ t : State, exec (.tsnSyncLoss p) s = .next t ∧ t.bit (Reg.TSN.TSN_STATUS p) 4 = false ∧ t.pend .TSN p 1 = true ∧
      Quiet (Reg.TSN.TSN_STATUS p :: irqOf .TSN p) s t) ∧
  (∀ (s : State) (p : Fin 4), s.live → s.bit (Reg.TSN.TSN_STATUS p) 0 = true →
    ∃ t : State, exec (.tsnLinkDown p) s = .next t.settled ∧ t.bit (Reg.TSN.TSN_STATUS p) 0 = false ∧ t.pend .TSN p 0 = true ∧
      SameRegs (Reg.TSN.TSN_STATUS p :: irqOf .TSN p) s t ∧ SameRest s t) ∧
  (∀ (s : State) (p : Fin 4) (verified : Bool), s.live → s.bit (Reg.TSN.TSN_CTRL p) 0 = true → s.fld (Reg.TSN.TSN_CTRL p) 3 1 ≤ 4 →
    ∃ t : State, exec (.tsnLinkUp p verified) s = .next t.settled ∧ t.bit (Reg.TSN.TSN_STATUS p) 0 = true ∧
      t.fld (Reg.TSN.TSN_STATUS p) 3 1 = s.fld (Reg.TSN.TSN_CTRL p) 3 1 ∧
      t.bit (Reg.TSN.TSN_STATUS p) 5 = (verified && s.bit (Reg.TSN.TSN_CTRL p) 7) ∧ Quiet [Reg.TSN.TSN_STATUS p] s t) ∧
  (∀ (s : State) (p : Fin 4) (v : Word), s.live → s.accepts 0 (Reg.TSN.GCL_CMD p) (v ||| 1) = true → p.val < s.hw.mot.tsn.length →
    let len := s.fld (Reg.TSN.GCL_CFG p) 8 0
    let cyc := (s.rd (Reg.TSN.GCL_CYCLE p)).toNat
    let base := s.rd64 (Reg.TSN.GCL_BASE_LO p) (Reg.TSN.GCL_BASE_HI p)
    ((len = 0 ∨ 256 < len ∨ cyc < 1000 ∨ 1000000000 < cyc) → ∃ t : State, exec (.gclApply 0 p v) s = .next t.settled ∧
      t.pend .TSN p 5 = true ∧ (t.tsn p).next = (s.tsn p).next ∧ SameRegs (irqOf .TSN p ++ hostTrail .TSN p) s t ∧
      t.es = s.es ∧ t.tsc = s.tsc ∧ t.out = s.out) ∧
    (1 ≤ len → len ≤ 256 → 1000 ≤ cyc → cyc ≤ 1000000000 → ∃ t : State, exec (.gclApply 0 p v) s = .next t.settled ∧
      (∃ g due, (t.tsn p).next = some (g, due) ∧ g.base = base ∧ g.cycle = cyc ∧ g.entries.length = min len (s.tsn p).gcl.length ∧
        (due - base) % cyc = 0 ∧ s.asTime p s.now < due) ∧
      SameRegs (hostTrail .TSN p) s t ∧ t.es = s.es ∧ t.tsc = s.tsc ∧ t.out = s.out)) ∧
  (∀ (s : State) (p : Fin 4) (v : Word), s.live → s.accepts 0 (Reg.TSN.GCL_DATA p) v = true → p.val < s.hw.mot.tsn.length →
    s.fld (Reg.TSN.GCL_ADDR p) 7 0 < (s.tsn p).gcl.length →
    ∃ t : State, exec (.gclDataWrite 0 p v) s = .next t ∧ (t.tsn p).gcl[s.fld (Reg.TSN.GCL_ADDR p) 7 0]? = some v ∧
      t.fld (Reg.TSN.GCL_ADDR p) 7 0 = (s.fld (Reg.TSN.GCL_ADDR p) 7 0 + 1) % 256 ∧
      SameRegs (Reg.TSN.GCL_ADDR p :: hostTrail .TSN p) s t ∧ t.es = s.es ∧ t.tsc = s.tsc ∧ t.out = s.out) ∧
  (∀ (s : State) (p : Fin 4) (g : GateList) (due : Nat), s.live → (s.tsn p).next = some (g, due) → due ≤ s.asTime p s.now →
    (s.tsn p).queue = [] → p.val < s.hw.mot.tsn.length →
    ∃ t : State, exec (.gclEntryExpiry p) s = .next t.settled ∧ (t.tsn p).oper = g ∧ (t.tsn p).next = none ∧ t.regs = s.regs ∧ SameRest s t) ∧
  (∀ (s : State) (p : Fin 4) (ix : Fin 32) (h : CbHist), s.live → (s.tsn p).cb[ix.val]? = some h →
    h.last + s.fld (Reg.TSN.CB_CFG p) 15 4 * 1000000 ≤ s.now → p.val < s.hw.mot.tsn.length →
    ∃ t : State, exec (.cbHistoryReset p ix) s = .next t ∧ (t.tsn p).cb = (s.tsn p).cb.erase h ∧ t.regs = s.regs ∧ SameRest s t) ∧
  (∀ (s : State) (p : Fin 4), s.live →
    ∃ t : State, exec (.relTscLoRead 0 p) s = .next t ∧ t.out = s.out ++ [.readData 0 (leBytes 4 ((s.tsn p).relTsc % 2 ^ 32)) false] ∧
      (t.rd (Reg.TSN.REL_TSC_HI p)).toNat = (s.tsn p).relTsc / 2 ^ 32 % 2 ^ 32 ∧
      (t.rd (Reg.TSN.REL_AS_LO p)).toNat = (s.tsn p).relAs % 2 ^ 32 ∧ (t.rd (Reg.TSN.REL_AS_HI p)).toNat = (s.tsn p).relAs / 2 ^ 32 % 2 ^ 32 ∧
      t.rd (Reg.TSN.REL_RATE p) = BitVec.ofInt 32 (s.tsn p).relRate ∧
      SameRegs [Reg.TSN.REL_TSC_LO p, Reg.TSN.REL_TSC_HI p, Reg.TSN.REL_AS_LO p, Reg.TSN.REL_AS_HI p, Reg.TSN.REL_RATE p] s t ∧
      t.mem = s.mem ∧ t.es = s.es ∧ t.tsc = s.tsc ∧ t.hw = s.hw)

/-- O45. Motion loops (R382 to R392). ENABLE starts the cycles at the first T_k at least 10 µs away, DISABLE drops the frame
not launched; strobe and sample trigger pass to the next cycle; the cutoff selects the newest unit with its age, or counts a
stale cycle; the launch sends the selected frame, one without ports is reported; a cycle whose perception window closes is a
supervision failure, once. -/
def Obligations.MotionLoops : Prop :=
  (∀ (s : State) (l : Fin 8) (v : Word), s.live → s.accepts 0 (Reg.CEU.LOOP_CTRL l) (v ||| 1) = true →
    s.bit (Reg.CEU.LOOP_CTRL l) 0 = false → l.val < s.hw.mot.loops.length →
    ∃ t : State, exec (.loopEnable 0 l v) s = .next t.settled ∧ t.bit (Reg.CEU.LOOP_CTRL l) 0 = true ∧ t.bit Reg.CEU.CEU_STATUS l = true ∧
      s.now + 10000 ≤ s.cycleStart l (t.loop l).first ∧
      (0 < (t.loop l).first → s.cycleStart l ((t.loop l).first - 1) < s.now + 10000) ∧
      (t.loop l).cut = (t.loop l).first ∧ (t.loop l).launch = (t.loop l).first ∧
      SameRegs ([Reg.CEU.LOOP_CTRL l, Reg.CEU.CEU_STATUS] ++ hostTrail .CEU 0) s t ∧ t.es = s.es ∧ t.tsc = s.tsc ∧ t.out = s.out) ∧
  (∀ (s : State) (l : Fin 8) (v : Word), s.live → s.accepts 0 (Reg.CEU.LOOP_CTRL l) (v &&& ~~~ 1) = true →
    s.bit (Reg.CEU.LOOP_CTRL l) 0 = true → l.val < s.hw.mot.loops.length →
    ∃ t : State, exec (.loopDisable 0 l v) s = .next t.settled ∧ t.bit (Reg.CEU.LOOP_CTRL l) 0 = false ∧ t.bit Reg.CEU.CEU_STATUS l = false ∧
      (t.loop l).sel = none ∧ SameRegs ([Reg.CEU.LOOP_CTRL l, Reg.CEU.CEU_STATUS, Reg.CEU.CYCLE l] ++ hostTrail .CEU 0) s t ∧
      t.es = s.es ∧ t.tsc = s.tsc ∧ t.out = s.out) ∧
  (∀ (s : State) (l : Fin 8), s.live → l.val < s.hw.mot.loops.length →
    (s.bit (Reg.CEU.LOOP_CTRL l) 15 = true → s.reached l (s.loop l).strobe (s.rd (Reg.CEU.STROBE_OFS l)).toNat = true →
      ∃ t : State, exec (.ceuStrobe l) s = .next t.settled ∧ (t.loop l).strobe = (s.loop l).strobe + 1 ∧ t.regs = s.regs ∧ t.mem = s.mem ∧
        t.es = s.es ∧ t.tsc = s.tsc) ∧
    (s.reached l (s.loop l).sample (s.rd (Reg.CEU.SAMPLE_OFS l)).toNat = true →
      ∃ t : State, exec (.ceuSampleTrigger l) s = .next t ∧ (t.loop l).sample = (s.loop l).sample + 1 ∧
        (s.bit Reg.SSI.SET_TRIG 0 = true → s.fld Reg.SSI.SET_TRIG 3 1 = l.val → s.bit Reg.SSI.SSI_CTRL 0 = true → s.hw.mot.set_ = none →
          t.hw.mot.set_.map (·.stamp) = some s.burstStart) ∧
        SameRegs ([Reg.SSI.SSI_STATUS, Reg.SSI.OVERRUN_CNT] ++ irqOf .SSI 0) s t ∧ SameRest s t) ∧
    (s.reached l (s.loop l).strobe (s.rd (Reg.CEU.STROBE_OFS l)).toNat = false → exec (.ceuStrobe l) s = .next s.settled)) ∧
  (∀ (s : State) (l : Fin 8), s.live → l.val < s.hw.mot.loops.length → s.loopOn l = true →
    let cut := s.cutoff l (s.loop l).cut
    let us := ((s.streamSt (s.fld (Reg.CEU.LOOP_CTRL l) 13 5)).recent.filter fun e => decide ((s.loop l).prev < e.1 ∧ e.1 ≤ cut)).map (·.2)
    cut ≤ s.now →
    (∀ u, newest us = some u → s.tooLong (s.fld (Reg.CEU.LOOP_CTRL l) 4 1) u = false →
      ∃ t : State, exec (.ceuCutoff l) s = .next t.settled ∧ (t.loop l).cut = (s.loop l).cut + 1 ∧ (t.loop l).prev = cut ∧
        (t.loop l).sel.map (·.1) = some u ∧
        (t.rd (Reg.CEU.AGE_LAST l)).toNat = min (cut + 2000 - u.stamp.toNat) 4294967295 ∧ t.es = s.es ∧ t.tsc = s.tsc ∧ t.out = s.out) ∧
    (newest us = none → s.bit (Reg.CEU.LOOP_CTRL l) 14 = false →
      ∃ t : State, exec (.ceuCutoff l) s = .next t.settled ∧ (t.loop l).cut = (s.loop l).cut + 1 ∧ (t.loop l).sel = none ∧
        Counts (Reg.CEU.STALE_CNT l) 1 s t ∧ t.pend .CEU 0 l = true ∧ t.es = s.es ∧ t.tsc = s.tsc ∧ t.out = s.out)) ∧
  (∀ (s : State) (l : Fin 8) (u : DUnit) (stale excess : Bool), s.live → l.val < s.hw.mot.loops.length →
    (s.loop l).launch < (s.loop l).cut → s.reached l (s.loop l).launch (s.rd (Reg.CEU.LAUNCH_OFS l)).toNat = true →
    (s.loop l).sel = some (u, stale, excess) →
    let i := s.fld (Reg.CEU.LOOP_CTRL l) 4 1
    (∀ p, s.tplPorts i = [p] → s.tsnUp p = true → s.gateOpen p (s.fld (Reg.CEU.TPL_VLAN i) 14 12) = true → (s.tsn p).queue = [] →
      ∃ t : State, exec (.ceuLaunch l) s = .next t.settled ∧ (∃ b, t.out = s.out ++ [.tsnFrame p b]) ∧ Counts Reg.CEU.FRAMES_SENT 1 s t ∧
        t.rd (Reg.CEU.TPL_SEQ i) = s.rd (Reg.CEU.TPL_SEQ i) + 1 ∧ (t.loop l).launch = (s.loop l).launch + 1 ∧ (t.loop l).sel = none ∧
        (t.loop l).body = some u ∧ SameRegs [Reg.CEU.FRAMES_SENT, Reg.CEU.TPL_SEQ i] s t ∧ t.mem = s.mem ∧ t.es = s.es ∧ t.tsc = s.tsc) ∧
    (s.tplPorts i = [] → ∃ t : State, exec (.ceuLaunch l) s = .next t.settled ∧ t.pend .CEU 0 9 = true ∧ (t.loop l).sel = none ∧
      SameRegs (irqOf .CEU 0) s t ∧ SameRest s t)) ∧
  (∀ (s : State) (l : Fin 8), s.live → l.val < s.hw.mot.loops.length → s.loopOn l = true →
    let k := (s.loop l).perc
    s.cycleStart l k + (s.rd (Reg.CEU.PERC_CLOSE l)).toNat ≤ s.now →
    ∃ t : State, exec (.percCloseExpiry l) s = .next t.settled ∧ (t.loop l).perc = k + 1 ∧
      ((s.loop l).failed ≤ k → Counts (Reg.CEU.SUP_CNT l) 1 s t ∧ t.pend .CEU 0 l = true ∧ (t.loop l).failed = k + 1) ∧
      (k < (s.loop l).failed → t.rd (Reg.CEU.SUP_CNT l) = s.rd (Reg.CEU.SUP_CNT l)) ∧
      SameRegs (Reg.CEU.SUP_CNT l :: irqOf .CEU 0) s t ∧ SameRest s t)

/-! ### Functional safety -/

/-- O46. SAFE's commands and states (R503 to R506, R517, R518, R520, R523, R526, R527, R530). ENABLE takes SAFE from OFF to INIT, its
clearing back to OFF; ARM in INIT goes to TEST when nothing stands against it, and reports the reason otherwise; RESTART leaves
SAFE, FORCE_SAFE, a lockstep mismatch and a clock deviation enter it, with their codes; the end of the tests enters ARM and
locks SAFE's pages; a passing confirmation with a fresh result enters DEGRADED, another SAFE, and one during which the
surviving channel met a transient is repeated; DEG_LIMIT's end enters SAFE, its
warning raises source 9. Outside RUN, DEGRADED and REACT both outputs are off. -/
def Obligations.SafetyStates : Prop :=
  (∀ (s : State) (v : Word), s.live → s.accepts 0 Reg.SAFE.SAFE_CTRL (v ||| 1) = true → s.bit Reg.SAFE.SAFE_CTRL 0 = false →
    s.safeState = sOFF →
    ∃ t : State, exec (.safeEnable 0 v) s = .next t.settled ∧ t.safeState = sINIT ∧ t.bit Reg.SAFE.SAFE_STATE 6 = false ∧
      t.bit Reg.SAFE.SAFE_STATE 7 = false ∧ t.pend .SAFE 0 0 = true ∧ t.es = s.es ∧ t.tsc = s.tsc) ∧
  (∀ (s : State) (v : Word), s.live → s.accepts 0 Reg.SAFE.SAFE_CTRL (v &&& ~~~ 1) = true → s.bit Reg.SAFE.SAFE_CTRL 0 = true →
    ∃ t : State, exec (.safeDisable 0 v) s = .next t.settled ∧ t.safeState = sOFF ∧ t.bit Reg.SAFE.SAFE_STATE 6 = false ∧
      t.bit Reg.SAFE.SAFE_STATE 7 = false ∧ t.es = s.es ∧ t.tsc = s.tsc) ∧
  (∀ (s : State) (v : Word), s.live → s.accepts 0 Reg.SAFE.SAFE_CMD (setBits v 3 0 1) = true →
    (s.safeState = sINIT → s.armReason = 0 → ∃ t : State, exec (.arm 0 v) s = .next t.settled ∧ t.safeState = sTEST ∧
      t.rd Reg.SAFE.CMD_RESULT = 3 ∧ t.bit Reg.SAFE.SAFE_STATE 6 = false ∧ t.bit Reg.SAFE.SAFE_STATE 7 = false ∧
      t.es = s.es ∧ t.tsc = s.tsc) ∧
    (s.safeState = sINIT → s.armReason ≠ 0 → ∃ t : State, exec (.arm 0 v) s = .next t.settled ∧ t.safeState = sINIT ∧
      t.rd Reg.SAFE.CMD_RESULT = BitVec.ofNat 32 (1 + 256 * s.armReason) ∧
      SameRegs (Reg.SAFE.CMD_RESULT :: hostTrail .SAFE 0) s t ∧ t.es = s.es ∧ t.tsc = s.tsc ∧ t.out = s.out) ∧
    (s.safeState ≠ sINIT → ∃ t : State, exec (.arm 0 v) s = .next t.settled ∧ t.safeState = s.safeState ∧ t.rd Reg.SAFE.CMD_RESULT = 1 ∧
      SameRegs (Reg.SAFE.CMD_RESULT :: hostTrail .SAFE 0) s t ∧ t.es = s.es ∧ t.tsc = s.tsc ∧ t.out = s.out)) ∧
  (∀ (s : State) (v : Word), s.live → s.accepts 0 Reg.SAFE.SAFE_CMD (setBits v 3 0 2) = true →
    (s.safeState = sSAFE → ∃ t : State, exec (.restart 0 v) s = .next t.settled ∧ t.safeState = sINIT ∧ t.rd Reg.SAFE.CMD_RESULT = 3 ∧
      t.locked .SAFE 0 = t.bit (Reg.HDR.LOCK_OWNER .SAFE 0) 0 ∧ t.es = s.es ∧ t.tsc = s.tsc) ∧
    (s.safeState ≠ sSAFE → ∃ t : State, exec (.restart 0 v) s = .next t.settled ∧ t.safeState = s.safeState ∧
      t.rd Reg.SAFE.CMD_RESULT = 1 ∧ SameRegs (Reg.SAFE.CMD_RESULT :: hostTrail .SAFE 0) s t ∧ t.es = s.es ∧ t.tsc = s.tsc)) ∧
  (∀ (s : State) (v : Word), s.live → s.accepts 0 Reg.SAFE.SAFE_CMD (setBits v 3 0 3) = true →
    ∃ t : State, exec (.forceSafe 0 v) s = .next t.settled ∧ t.safeState = sSAFE ∧ t.fld Reg.SAFE.SAFE_STATE 23 16 = 14 ∧
      t.bit Reg.SAFE.SAFE_STATE 6 = false ∧ t.bit Reg.SAFE.SAFE_STATE 7 = false ∧ t.pend .SAFE 0 3 = true ∧
      t.es = s.es ∧ t.tsc = s.tsc) ∧
  (∀ s : State, s.live → s.safeState ≠ sOFF →
    let stopped (code : Nat) (t : State) : Prop := t.safeState = sSAFE ∧ t.fld Reg.SAFE.SAFE_STATE 23 16 = code ∧
      t.bit Reg.SAFE.SAFE_STATE 6 = false ∧ t.bit Reg.SAFE.SAFE_STATE 7 = false ∧ t.pend .SAFE 0 3 = true ∧
      t.es = s.es ∧ t.tsc = s.tsc
    (∃ t : State, exec .lockstepMismatch s = .next t.settled ∧ stopped 10 t) ∧
    (∃ t : State, exec .safeClockDeviation s = .next t.settled ∧ stopped 15 t)) ∧
  (∀ s : State, s.live → s.safeState = sTEST →
    (s.chanStranded = false → ∃ t : State, exec (.safeTestDone [] false) s = .next t.settled ∧ t.safeState = sARM ∧
      t.locked .SAFE 0 = true ∧ t.locked .CMP 0 = true ∧ t.locked .DISP 0 = true ∧ t.es = s.es ∧ t.tsc = s.tsc) ∧
    (∃ t : State, exec (.safeTestDone [] true) s = .next t.settled ∧ t.safeState = sSAFE ∧ t.bit Reg.SAFE.CMD_RESULT 1 = false ∧
      t.fld Reg.SAFE.SAFE_STATE 23 16 = 16 ∧ t.es = s.es ∧ t.tsc = s.tsc)) ∧
  (∀ s : State, s.live → s.safeState = sREACT → s.hw.safe.again = true → ∀ pass,
    ∃ t : State, exec (.confirmationSliceDone pass) s = .next t.settled ∧ t.hw.safe.again = false ∧ t.regs = s.regs ∧ SameRest s t) ∧
  (∀ s : State, s.live → s.safeState = sREACT → s.hw.safe.again = false →
    (∀ x, s.lastOf s.survivor = some x → s.now - x.stamp ≤ s.verdictAge → s.rd Reg.SAFE.DEG_LIMIT ≠ 0 →
      ∃ t : State, exec (.confirmationSliceDone true) s = .next t.settled ∧ t.safeState = sDEGRADED ∧ t.bit Reg.SAFE.SAFE_STATE 5 = true ∧
        t.es = s.es ∧ t.tsc = s.tsc) ∧
    (∃ t : State, exec (.confirmationSliceDone false) s = .next t.settled ∧ t.safeState = sSAFE ∧ t.bit Reg.SAFE.SAFE_STATE 6 = false ∧
      t.bit Reg.SAFE.SAFE_STATE 7 = false ∧ t.es = s.es ∧ t.tsc = s.tsc)) ∧
  (∀ s : State, s.live →
    (s.safeState = sDEGRADED → s.degEnd ≤ s.now → ∃ t : State, exec .degLimitExpiry s = .next t.settled ∧ t.safeState = sSAFE ∧
      t.fld Reg.SAFE.SAFE_STATE 23 16 = 12 ∧ t.es = s.es ∧ t.tsc = s.tsc) ∧
    (s.now < s.degEnd ∨ s.safeState ≠ sDEGRADED → exec .degLimitExpiry s = .next s.settled) ∧
    (s.safeState = sDEGRADED → s.hw.safe.warned = false → s.degEnd ≤ s.now + 1000000000 →
      ∃ t : State, exec .degLimitWarning s = .next t.settled ∧ t.pend .SAFE 0 8 = true ∧ t.hw.safe.warned = true ∧
        SameRegs (irqOf .SAFE 0) s t ∧ SameRest s t))

/-- O47. Results, verdicts, outputs, self-tests (R491 to R495, R508 to R515, R524). A channel's result waits for its partner, and with
it makes a pair; a partner missing at PAIR_WAIT is counted and raises source 12; VALID follows the age of the latest verdict; the
outputs drop when PIN_HOLD has passed; a readback that differs for 2 µs enters SAFE with code 9; a test pulse drops and returns
its output; a status unit, a late one's route fault and that fault's clearing; the self-test goes round its slices. -/
def Obligations.SafetyRuntime : Prop :=
  (∀ (s : State) (chB : Bool) (u v : DUnit), s.live → s.bit Reg.CMP.CMP_CTRL 0 = true → s.safeState = sRUN →
    (receiveUnit (alGet {} (rxKey .CMP 0 u.stream) s.hw.rx) u 2
      (u.stream.toNat / 512 == s.devNum && !u.has fREMOTE && s.authorised (u.stream.toNat % 512))).units = [v] →
    v.has fINVALID = false → v.payload.length = 16 → v.fmt = 0x13 → s.modelBad chB v = [] → v.item ∉ s.hw.safe.gone →
    ((s.hw.safe.wait.find? fun x => x.item == v.item) = none →
      ∃ t : State, exec (.channelResultArrive chB u) s = .next t.settled ∧ t.hw.safe.wait = s.hw.safe.wait ++ [resultOf chB v s.now] ∧
        t.lastOf chB = some (resultOf chB v s.now) ∧ t.es = s.es ∧ t.tsc = s.tsc) ∧
    (∀ x, (s.hw.safe.wait.find? fun x => x.item == v.item) = some x → x.chB ≠ chB →
      ∃ t : State, exec (.channelResultArrive chB u) s = .next t.settled ∧ Counts Reg.CMP.PAIR_CNT 1 s t ∧
        (∀ y ∈ t.hw.safe.wait, y.item ≠ v.item) ∧ t.es = s.es ∧ t.tsc = s.tsc)) ∧
  (∀ (s : State) (item : BitVec 48) (r : ChanRes), s.live → (s.hw.safe.wait.find? fun x => x.item == item) = some r →
    (r.since + s.fld Reg.CMP.PAIR_WAIT 15 0 * 1000 ≤ s.now → s.safeState = sRUN →
      ∃ t : State, exec (.pairWaitExpiry item) s = .next t.settled ∧ (∀ y ∈ t.hw.safe.wait, y.item ≠ item) ∧ t.pend .CMP 0 1 = true ∧
        (r.chB = false → t.fld Reg.CMP.LATE_CNT 31 16 = min (s.fld Reg.CMP.LATE_CNT 31 16 + 1) 65535) ∧
        (r.chB = true → t.fld Reg.CMP.LATE_CNT 15 0 = min (s.fld Reg.CMP.LATE_CNT 15 0 + 1) 65535) ∧ t.es = s.es ∧ t.tsc = s.tsc) ∧
    (s.now < r.since + s.fld Reg.CMP.PAIR_WAIT 15 0 * 1000 → exec (.pairWaitExpiry item) s = .next s.settled)) ∧
  (∀ s : State, s.live → ∃ t : State, exec .verdictAgeExpiry s = .next t.settled ∧ t.bit Reg.SAFE.SAFE_STATE 4 = s.validNow ∧
    t.safeState = s.safeState ∧ t.es = s.es ∧ t.tsc = s.tsc) ∧
  (∀ (s : State) (t0 : Nat), s.live → s.validNow = false → s.bit Reg.SAFE.SAFE_STATE 4 = false → s.hw.safe.lostAt = some t0 →
    s.pinHold < s.now - t0 →
    ∃ t : State, exec .pinHoldExpiry s = .next t.settled ∧ t.bit Reg.SAFE.SAFE_STATE 6 = false ∧ t.bit Reg.SAFE.SAFE_STATE 7 = false ∧
      t.out = s.out ++ (if s.bit Reg.SAFE.SAFE_STATE 6 then [.pin "SAFE_OUT_A" false] else []) ++
        (if s.bit Reg.SAFE.SAFE_STATE 7 then [.pin "SAFE_OUT_B" false] else []) ∧
      SameRegs [Reg.SAFE.SAFE_STATE, Reg.SAFE.GAP_MAX] s t ∧ t.mem = s.mem ∧ t.es = s.es ∧ t.tsc = s.tsc) ∧
  (∀ (s : State) (a b : Bool), s.live → s.safeState ≠ sOFF →
    (a = s.bit Reg.SAFE.SAFE_STATE 6 → b = s.bit Reg.SAFE.SAFE_STATE 7 →
      ∃ t : State, exec (.outputReadback a b) s = .next t.settled ∧ t.hw.safe.differs = none ∧ t.regs = s.regs ∧ SameRest s t) ∧
    ((a ≠ s.bit Reg.SAFE.SAFE_STATE 6 ∨ b ≠ s.bit Reg.SAFE.SAFE_STATE 7) → s.hw.safe.differs = none →
      ∃ t : State, exec (.outputReadback a b) s = .next t.settled ∧ t.hw.safe.differs = some s.now ∧ t.regs = s.regs ∧ SameRest s t) ∧
    (∀ t0, (a ≠ s.bit Reg.SAFE.SAFE_STATE 6 ∨ b ≠ s.bit Reg.SAFE.SAFE_STATE 7) → s.hw.safe.differs = some t0 → t0 + 2000 ≤ s.now →
      ∃ t : State, exec (.outputReadback a b) s = .next t.settled ∧ t.safeState = sSAFE ∧ t.fld Reg.SAFE.SAFE_STATE 23 16 = 9 ∧
        t.pend .SAFE 0 6 = true ∧ t.es = s.es ∧ t.tsc = s.tsc)) ∧
  (∀ (s : State) (outB : Bool), s.live → s.bit Reg.SAFE.SAFE_CTRL 2 = true → s.bit Reg.SAFE.SAFE_STATE (if outB then 7 else 6) = true →
    let name := if outB then "SAFE_OUT_B" else "SAFE_OUT_A"
    (∃ t : State, exec (.testPulse outB true) s = .next t.settled ∧ t.out = s.out ++ [.pin name false, .pin name true] ∧
      t.regs = s.regs ∧ t.mem = s.mem ∧ t.es = s.es ∧ t.tsc = s.tsc) ∧
    (s.safeState ≠ sOFF → ∃ t : State, exec (.testPulse outB false) s = .next t.settled ∧ t.safeState = sSAFE ∧
      t.fld Reg.SAFE.SAFE_STATE 23 16 = 9 ∧ t.pend .SAFE 0 6 = true ∧ t.es = s.es ∧ t.tsc = s.tsc)) ∧
  (∀ s : State, s.live → s.safeState ≠ sOFF →
    (s.hw.safe.statusAt + s.fld Reg.SAFE.SMSG 31 16 * 1000 ≤ s.now →
      ∃ t : State, exec .smsgPeriodExpiry s = .next t.settled ∧ t.hw.safe.statusAt = s.now ∧ t.safeState = s.safeState ∧ t.es = s.es ∧ t.tsc = s.tsc) ∧
    (s.now < s.hw.safe.statusAt + s.fld Reg.SAFE.SMSG 31 16 * 1000 → exec .smsgPeriodExpiry s = .next s.settled)) ∧
  (∀ s : State, s.live → s.bit Reg.SAFE.SAFE_CTRL 1 = true →
    (s.hw.mot.tsn.any fun t => t.queue.any fun f => f.kind == 3 && decide (f.since + 100000 < s.now)) = true →
    ∃ t : State, exec .statusFrameLate s = .next t.settled ∧ t.bit Reg.SAFE.SAFE_STATE 10 = true ∧ t.pend .SAFE 0 7 = true ∧
      t.safeState = s.safeState ∧ t.es = s.es ∧ t.tsc = s.tsc) ∧
  (∀ s : State, s.live → s.bit Reg.SAFE.SAFE_STATE 10 = true → s.hw.safe.routeAt + 100000000 ≤ s.now → 16 ≤ s.hw.safe.timely →
    s.bit Reg.CEU.CEU_CTRL 0 = true → s.tplPorts (s.fld Reg.SAFE.SMSG 12 9) ≠ [] →
    (s.tplPorts (s.fld Reg.SAFE.SMSG 12 9)).all s.tsnUp = true →
    ∃ t : State, exec .routeFaultClear s = .next t.settled ∧ t.bit Reg.SAFE.SAFE_STATE 10 = false ∧ t.safeState = s.safeState ∧
      t.es = s.es ∧ t.tsc = s.tsc) ∧
  (∀ s : State, s.live → sARM ≤ s.safeState → s.safeState ≤ sREACT →
    (∃ t : State, exec (.selfTestSlice none) s = .next t.settled ∧
      t.fld Reg.SAFE.TEST_STATUS 7 0 = (s.fld Reg.SAFE.TEST_STATUS 7 0 + 1) % 8 ∧ t.bit Reg.SAFE.TEST_STATUS 8 = true ∧
      t.safeState = s.safeState ∧ SameRest s t) ∧
    (∀ u : BitVec 16, u.toNat < Blk.ENG.slot → ∃ t : State, exec (.selfTestSlice (some u)) s = .next t.settled ∧
      t.bit Reg.SAFE.TEST_STATUS 8 = false ∧ t.pend .SAFE 0 5 = true ∧ t.safeState = sSAFE ∧ t.fld Reg.SAFE.SAFE_STATE 23 16 = 8 ∧
      t.es = s.es ∧ t.tsc = s.tsc))

/-- O48. Watchdogs (R500 to R502). A kick within the window with the next SEQ restarts the window; one before it opens, or
with another SEQ, is an early expiry; without a kick by the window's close it is a late one: counted, shown, raised. -/
def Obligations.Watchdogs : Prop :=
  ∀ (s : State) (w : BitVec 6), s.live → s.wdOn w.toNat = true → w.toNat < s.hw.safe.wds.length →
    let k := w.toNat
    let close := (s.wd k).since + s.wdClose k * 1000
    let us := (s.now - (s.wd k).since) / 1000
    let next := (s.fld (wdStatus k) 7 0 + 1) % 256
    let kick : RegRef := ⟨.WDG, k / 16, 0x108 + 16 * (k % 16)⟩
    (∀ v : Word, s.accepts 0 kick v = true → s.bit (wdCfg k) 1 = false → s.now ≤ close →
      (s.fld (Reg.WDG.WD_WIN (k / 16) (k % 16)) 15 0 ≤ us → bits v 7 0 = next →
        ∃ t : State, exec (.wdKick 0 w v) s = .next t.settled ∧ t.fld (wdStatus k) 7 0 = next ∧ t.fld (wdStatus k) 25 24 = 1 ∧
          (t.wd k).since = s.now ∧ (t.wd k).first = false ∧ SameRegs (wdStatus k :: hostTrail .WDG (k / 16)) s t ∧
          t.es = s.es ∧ t.tsc = s.tsc ∧ t.out = s.out) ∧
      ((us < s.fld (Reg.WDG.WD_WIN (k / 16) (k % 16)) 15 0 ∨ bits v 7 0 ≠ next) → s.bit (wdCfg k) 4 = false →
        ∃ t : State, exec (.wdKick 0 w v) s = .next t.settled ∧ t.fld (wdStatus k) 25 24 = 2 ∧ Counts (Reg.WDG.EARLY_CNT (k / 16)) 1 s t ∧
          t.pend .WDG (k / 16) (k % 16) = true ∧ (t.wd k).since = s.now ∧
          SameRegs ([wdStatus k, Reg.WDG.EARLY_CNT (k / 16)] ++ irqOf .WDG (k / 16) ++ hostTrail .WDG (k / 16)) s t ∧
          t.es = s.es ∧ t.tsc = s.tsc ∧ t.out = s.out)) ∧
    (close ≤ s.now → s.bit (wdCfg k) 4 = false →
      ∃ t : State, exec (.watchdogLateExpiry w) s = .next t.settled ∧ t.fld (wdStatus k) 25 24 = 3 ∧ Counts (Reg.WDG.LATE_CNT (k / 16)) 1 s t ∧
        t.pend .WDG (k / 16) (k % 16) = true ∧ (t.wd k).since = close ∧
        SameRegs ([wdStatus k, Reg.WDG.LATE_CNT (k / 16)] ++ irqOf .WDG (k / 16)) s t ∧ SameRest s t) ∧
    (s.now < close → exec (.watchdogLateExpiry w) s = .next s.settled)

/-! ### The island -/

/-- O49. Requests (R551 to R555, R557). SEND attaches the next REQ_SEQ and the TSC; SET in range commits the entry and the
value together, one that changes nothing commits no entry; an unknown parameter, a value out of range, a full audit area
and the page's refusals are answered with their reasons; GET, AUDIT_READ, IDENT, ZERO, TARE and TARE_CLEAR answer; the reply
lands in REPLY. -/
def Obligations.IslandRequests : Prop :=
  (∀ (s : State) (v : Word), s.live → s.accepts 0 Reg.HAL.REQ_CMD (v ||| 1) = true → s.hw.boot.frozen = false →
    let seq := (s.fld Reg.HAL.REQ_STATUS 31 16 + 1) % 65536
    ∃ t : State, exec (.reqSend 0 v) s = .next t ∧ t.rd Reg.HAL.REQ_STATUS = BitVec.ofNat 32 (1 + 65536 * seq) ∧
      t.hw.hal.req = some { words := (List.range 8).map fun j => s.rd (Reg.HAL.REQ j), seq := seq, tsc := s.now } ∧
      SameRegs (Reg.HAL.REQ_STATUS :: hostTrail .HAL 0) s t ∧ t.es = s.es ∧ t.tsc = s.tsc ∧ t.out = s.out) ∧
  (∀ (s : State) (r : HalReq), s.sound → s.hw.hal.req = some r → r.op = 1 →
    let old := paramOf s.hw.hal.params r.param
    let full := paramLegal r.param = true ∧ old ≠ r.value ∧ auditSize ≤ s.hw.hal.audit.length
    (s.hw.hal.setOk r.param r.value = true → ¬ full → s.hw.hal.blocked r = 0 → old ≠ r.value →
      ∃ t : State, exec .halSet s = .next t.settled ∧ t.hw.hal.answered true 0 r.value ∧
        t.hw.hal.params = s.hw.hal.params.map (fun e => if e.1 = r.param then (e.1, r.value) else e) ∧
        (paramLegal r.param = true → ∃ secs, t.hw.hal.audit =
          ⟨s.hw.hal.audit.length + 1, secs, r.tsc, r.param, r.seq, old, r.value⟩ :: s.hw.hal.audit) ∧
        (paramLegal r.param = false → t.hw.hal.audit = s.hw.hal.audit) ∧ SameRegs halShown s t ∧ SameRest s t) ∧
    (s.hw.hal.setOk r.param r.value = true → s.hw.hal.blocked r = 0 → old = r.value →
      ∃ t : State, exec .halSet s = .next t.settled ∧ t.hw.hal.answered true 0 r.value ∧ t.hw.hal.params = s.hw.hal.params ∧
        t.hw.hal.audit = s.hw.hal.audit ∧ t.regs = s.regs ∧ SameRest s t) ∧
    (∀ reason, (paramRange r.param r.value = none ∧ reason = 1) ∨
        (paramRange r.param r.value ≠ none ∧ s.hw.hal.setOk r.param r.value = false ∧ reason = 2) ∨
        (s.hw.hal.setOk r.param r.value = true ∧ full ∧ reason = 3) ∨
        (s.hw.hal.setOk r.param r.value = true ∧ ¬ full ∧ s.hw.hal.blocked r ≠ 0 ∧ reason = s.hw.hal.blocked r) →
      ∃ t : State, exec .halSet s = .next t.settled ∧ t.hw.hal.answered false reason 0 ∧ t.hw.hal.params = s.hw.hal.params ∧
        t.hw.hal.audit = s.hw.hal.audit ∧ t.regs = s.regs ∧ SameRest s t)) ∧
  (∀ (s : State) (r : HalReq), s.sound → s.hw.hal.req = some r →
    (∀ i, (r.op, i) ∈ [(2, Instr.halParameterGet), (3, .halAuditRead), (5, .halZero), (6, .halTare), (7, .halTareClear)] →
      s.hw.hal.blocked r ≠ 0 → (paramRange r.param 0).isSome = true →
      ∃ t : State, exec i s = .next t.settled ∧ t.hw.hal.answered false (s.hw.hal.blocked r) 0 ∧ t.regs = s.regs ∧ SameRest s t) ∧
    (s.hw.hal.blocked r = 0 →
      (r.op = 2 → (paramRange r.param 0).isSome = true → ∃ t : State, exec .halParameterGet s = .next t.settled ∧
        t.hw.hal.answered true 0 (paramOf s.hw.hal.params r.param) ∧ t.regs = s.regs ∧ SameRest s t) ∧
      (r.op = 3 → ∀ e, (s.hw.hal.audit.find? fun e => e.no == r.index) = some e → ∃ t : State, exec .halAuditRead s = .next t.settled ∧
        t.hw.hal.req = none ∧ t.hw.hal.reply.map (·.words) = some e.words ∧ t.regs = s.regs ∧ SameRest s t) ∧
      (r.op = 3 → (s.hw.hal.audit.find? fun e => e.no == r.index) = none → ∃ t : State, exec .halAuditRead s = .next t.settled ∧
        t.hw.hal.answered false 7 0 ∧ t.regs = s.regs ∧ SameRest s t) ∧
      (r.op = 4 → ∀ crc, ∃ t : State, exec (.halIdent crc) s = .next t.settled ∧ t.hw.hal.answered true 0 crc ∧ t.hw.hal.crc = crc ∧
        t.hw.hal.idOk = (s.hw.hal.idOk && crc == s.hw.hal.crcRef) ∧ SameRegs halShown s t ∧ SameRest s t) ∧
      (r.op = 5 → s.hw.hal.stable = true →
        s.hw.hal.gross.natAbs * 1000 ≤ (paramOf s.hw.hal.params 0x23).toNat * (paramOf s.hw.hal.params 0x20).toNat →
        ∃ t : State, exec .halZero s = .next t.settled ∧ t.hw.hal.answered true 0 (BitVec.ofInt 32 s.hw.hal.gross) ∧
          t.hw.hal.zero = s.hw.hal.gross ∧ t.hw.hal.tare = s.hw.hal.tare ∧ t.regs = s.regs ∧ SameRest s t) ∧
      (r.op = 5 → s.hw.hal.stable = false → ∃ t : State, exec .halZero s = .next t.settled ∧ t.hw.hal.answered false 6 0 ∧
        t.hw.hal.zero = s.hw.hal.zero ∧ t.regs = s.regs ∧ SameRest s t) ∧
      (r.op = 6 → ∃ t : State, exec .halTare s = .next t.settled ∧ t.hw.hal.tare = s.hw.hal.gross - s.hw.hal.zero ∧
        t.hw.hal.answered true 0 (BitVec.ofInt 32 (s.hw.hal.gross - s.hw.hal.zero)) ∧ t.regs = s.regs ∧ SameRest s t) ∧
      (r.op = 7 → ∃ t : State, exec .halTareClear s = .next t.settled ∧ t.hw.hal.tare = 0 ∧ t.hw.hal.answered true 0 0 ∧
        t.regs = s.regs ∧ SameRest s t))) ∧
  (∀ (s : State) (y : HalReply), s.live → s.hw.hal.req = none → s.hw.hal.reply = some y → y.words.length = 8 →
    s.bit Reg.HAL.REQ_STATUS 0 = true → s.fld Reg.HAL.REQ_STATUS 31 16 = y.seq →
    ∃ t : State, exec .replyArrive s = .next t ∧ (∀ j, j < 8 → t.rd (Reg.HAL.REPLY j) = y.words.getD j 0) ∧
      t.bit Reg.HAL.REQ_STATUS 0 = false ∧ t.bit Reg.HAL.REQ_STATUS 1 = true ∧ t.bit Reg.HAL.REQ_STATUS 2 = y.ok ∧
      (y.reason < 256 → t.fld Reg.HAL.REQ_STATUS 15 8 = y.reason) ∧ t.pend .HAL 0 1 = true ∧
      (y.ok = false → t.pend .HAL 0 2 = true) ∧ t.hw.hal.reply = none ∧
      SameRegs (Reg.HAL.REQ_STATUS :: (List.range 8).map Reg.HAL.REPLY ++ irqOf .HAL 0) s t ∧ SameRest s t)

/-- O50. Results, frames and the island's life (R534, R535, R541, R543 to R545, R547, R548, R558, R559, R562, R563, R565). A window's end
queues the next result, or loses it; a result that reaches the page is shown to the host, or becomes a unit and leaves the
queue; a frame whose CRC fails is discarded and counted in LANE_ERR; RES_POP removes what is shown; a status frame restores LANE_UP, three periods without one clear it; a checksum that
differs puts the island in ERROR, as do a failed start check and a clock deviation; HAL_RST_N starts it anew. -/
def Obligations.IslandResults : Prop :=
  (∀ (s : State) (w : Weighing), s.sound → s.hw.hal.state ≠ hSTART →
    (s.hw.hal.queue.length < 256 → ∃ t : State, exec (.weighingWindowEnd w) s = .next t.settled ∧
      (∃ r, t.hw.hal.queue = s.hw.hal.queue ++ [r] ∧ r.seq = s.hw.hal.resSeq + 1 ∧
        r.net = w.gross - s.hw.hal.zero - s.hw.hal.tare ∧ r.tare = s.hw.hal.tare ∧ r.winUs = w.winUs.toNat ∧
        r.flags.getLsbD 1 = w.stable ∧ r.flags.getLsbD 7 = s.hw.hal.lost ∧ r.flags.getLsbD 8 = !s.hw.hal.idOk) ∧
      t.hw.hal.resSeq = s.hw.hal.resSeq + 1 ∧ t.hw.hal.lost = false ∧ t.hw.hal.lostN = s.hw.hal.lostN ∧
      t.regs = s.regs ∧ SameRest s t) ∧
    (256 ≤ s.hw.hal.queue.length → ∃ t : State, exec (.weighingWindowEnd w) s = .next t.settled ∧ t.hw.hal.queue = s.hw.hal.queue ∧
      t.hw.hal.resSeq = s.hw.hal.resSeq + 1 ∧ t.hw.hal.lost = true ∧ t.hw.hal.lostN = s.hw.hal.lostN + 1 ∧
      t.regs = s.regs ∧ SameRest s t)) ∧
  (∀ (s : State) (delay : Word) (r : HalResult) (l : List HalResult), s.live → s.hw.hal.queue = r :: l →
    s.bit Reg.HAL.HAL_STATUS 3 = true → s.hw.hal.shown = false →
    (s.bit Reg.HAL.HAL_CTRL 0 = false → ∃ t : State, exec (.resultRecordArrive (delay, false)) s = .next t.settled ∧ t.hw.hal.shown = true ∧
      t.hw.hal.queue = s.hw.hal.queue ∧ t.rd (Reg.HAL.RES 0) = BitVec.ofNat 32 r.seq ∧
      t.rd (Reg.HAL.RES 1) = BitVec.ofInt 32 r.net ∧ t.rd (Reg.HAL.RES 6) = delay ∧
      t.rd64 Reg.HAL.RES_STAMP_LO Reg.HAL.RES_STAMP_HI = s.now - 1000 * (delay.toNat + r.winUs) ∧ t.pend .HAL 0 0 = true ∧
      SameRegs ([Reg.HAL.RES_STAMP_LO, Reg.HAL.RES_STAMP_HI] ++ (List.range 8).map Reg.HAL.RES ++ irqOf .HAL 0) s t ∧
      SameRest s t) ∧
    (s.bit Reg.HAL.HAL_CTRL 0 = true → s.streamFull (s.fld Reg.HAL.HAL_CTRL 9 1) = false →
      ∃ t : State, exec (.resultRecordArrive (delay, false)) s = .next t.settled ∧ t.hw.hal.queue = l ∧ t.hw.hal.shown = false ∧
        Counts Reg.HAL.UNIT_CNT 1 s t ∧ t.rd (Reg.HAL.RES 0) = BitVec.ofNat 32 r.seq ∧ t.es = s.es ∧ t.tsc = s.tsc) ∧
    (s.bit Reg.HAL.HAL_CTRL 0 = true → s.streamFull (s.fld Reg.HAL.HAL_CTRL 9 1) = true →
      exec (.resultRecordArrive (delay, false)) s = .next s.settled)) ∧
  (∀ (s : State) (delay : Word), s.live → ∃ t : State, exec (.resultRecordArrive (delay, true)) s = .next t.settled ∧
    Counts Reg.HAL.LANE_ERR 1 s t ∧ t.hw.hal.queue = s.hw.hal.queue ∧ SameRegs [Reg.HAL.LANE_ERR] s t ∧ SameRest s t) ∧
  (∀ (s : State) (v : Word), s.live → s.accepts 0 Reg.HAL.RES_POP (v ||| 1) = true → s.bit Reg.HAL.HAL_CTRL 0 = false →
    s.hw.hal.shown = true →
    ∃ t : State, exec (.resPop 0 v) s = .next t.settled ∧ t.hw.hal.queue = s.hw.hal.queue.tail ∧ t.hw.hal.shown = false ∧
      SameRegs (Reg.HAL.HAL_STATUS :: hostTrail .HAL 0) s t ∧ t.es = s.es ∧ t.tsc = s.tsc ∧ t.out = s.out) ∧
  (∀ s : State, s.live → s.hw.hal.state < 8 → s.hw.hal.queue.length ≤ 256 →
    ∃ t : State, exec .statusFrameArrive s = .next t ∧ t.bit Reg.HAL.HAL_STATUS 3 = true ∧
      t.fld Reg.HAL.HAL_STATUS 2 0 = s.hw.hal.state ∧ t.fld Reg.HAL.HAL_STATUS 16 8 = s.hw.hal.queue.length ∧
      t.rd Reg.HAL.EVENT_CNT = BitVec.ofNat 32 s.hw.hal.audit.length ∧ t.hw.hal.frame = s.now ∧ t.hw.hal.lostN = 0 ∧
      (s.hw.hal.lostN ≠ 0 → Counts Reg.HAL.LOST_CNT s.hw.hal.lostN s t ∧ t.pend .HAL 0 6 = true) ∧
      SameRegs (Reg.HAL.LOST_CNT :: halShown) s t ∧ SameRest s t) ∧
  (∀ s : State, s.live → s.bit Reg.HAL.HAL_STATUS 3 = true →
    let limit := s.hw.hal.frame + 3 * ((paramOf s.hw.hal.params 0x100).toNat * 1000000)
    (limit ≤ s.now → ∃ t : State, exec .laneLost s = .next t ∧ t.bit Reg.HAL.HAL_STATUS 3 = false ∧
      t.fld Reg.HAL.HAL_STATUS 2 0 = hHALTED ∧ t.hw.hal.shown = false ∧ t.pend .HAL 0 8 = true ∧
      SameRegs (Reg.HAL.HAL_STATUS :: irqOf .HAL 0) s t ∧ SameRest s t) ∧
    (s.now < limit → exec .laneLost s = .next s)) ∧
  (∀ (s : State) (crc : Word), s.sound → s.hw.hal.state ≠ hSTART →
    ∃ t : State, exec (.firmwareCheck crc) s = .next t.settled ∧ t.hw.hal.crc = crc ∧ t.hw.hal.idOk = (s.hw.hal.idOk && crc == s.hw.hal.crcRef) ∧
      (crc ≠ s.hw.hal.crcRef → t.hw.hal.state = hERROR ∧ t.pend .HAL 0 7 = true) ∧
      (crc = s.hw.hal.crcRef → t.hw.hal.state = s.hw.hal.state) ∧ SameRegs halShown s t ∧ SameRest s t) ∧
  (∀ (s : State) (crc : Word) (auditOk convOk : Bool), s.sound → s.hw.hal.state = hSTART →
    ∃ t : State, exec (.islandStart crc auditOk convOk) s = .next t.settled ∧
      ((crc == s.hw.hal.crcRef && auditOk && convOk) = true → t.hw.hal.state = hRUN ∧ t.pend .HAL 0 4 = true) ∧
      ((crc == s.hw.hal.crcRef && auditOk && convOk) = false → t.hw.hal.state = hERROR ∧ t.pend .HAL 0 3 = true) ∧
      t.hw.hal.window = s.hw.hal.params ∧ SameRegs halShown s t ∧ SameRest s t) ∧
  (∀ s : State, s.sound →
    (∃ t : State, exec .halRstN s = .next t.settled ∧ t.hw.hal.state = hSTART ∧ t.hw.hal.resSeq = 0 ∧ t.hw.hal.queue = [] ∧
      t.hw.hal.tare = 0 ∧ t.hw.hal.zero = 0 ∧ t.hw.hal.params = s.hw.hal.params ∧ t.hw.hal.audit = s.hw.hal.audit ∧
      t.regs = s.regs ∧ SameRest s t) ∧
    (∀ low, ∃ t : State, exec (.halPowerFailWarning low) s = .next t.settled ∧ t.hw.hal.pfWarn = low ∧
      (low = true → s.hw.hal.pfWarn = false → t.pend .HAL 0 9 = true) ∧ SameRegs halShown s t ∧ SameRest s t) ∧
    (∃ t : State, exec .islandClockDeviation s = .next t.settled ∧ t.hw.hal.state = hERROR ∧
      (s.hw.hal.state ≠ hERROR → t.pend .HAL 0 3 = true) ∧ SameRegs halShown s t ∧ SameRest s t))

/-! ### Power and clocks -/

/-- O51. The core regulator (R569 to R580, R592). VDD_CORE starts with VIN_VR and the rails in range; a lost rail is recorded;
ILIM throttles until released; the target follows the smallest slack within its limits, V_FUSE without AVS; a failed phase
leaves service and ILIM, a spare enters; a failed sense degrades once fewer than 12 remain; droops stretch and are counted. -/
def Obligations.CoreRegulator : Prop :=
  (∀ (s : State) (railsOk : Bool) (vin : BitVec 16) (straps : BitVec 2), s.sound →
    (10800 ≤ vin.toNat → vin.toNat ≤ 13200 → railsOk = true → s.hw.pwr.coreOn = false → s.hw.boot.thermal = false →
      s.fld Reg.PWR.PWR_STATUS 2 0 ≠ 3 →
      ∃ t : State, exec (.corePowerStart railsOk vin straps) s = .next t.settled ∧ t.hw.pwr.coreOn = true ∧ t.hw.pwr.target = 7500 ∧
        t.hw.boot.straps = straps.toNat ∧ t.rd Reg.VRC.VIN = vin.setWidth 32 ∧ t.fld Reg.VRC.VTARGET 9 0 = 750 ∧
        SameRegs [Reg.VRC.VIN, Reg.VRC.VTARGET, Reg.VRC.VRC_STATUS, Reg.VRC.ILIM, Reg.CLK.CLK_STATUS, Reg.PWR.PWR_STATUS] s t ∧ SameRest s t) ∧
    ((vin.toNat < 10800 ∨ 13200 < vin.toNat) →
      ∃ t : State, exec (.corePowerStart railsOk vin straps) s = .next t.settled ∧ t.hw.pwr.coreOn = s.hw.pwr.coreOn ∧
        t.pend .VRC 0 6 = true ∧ SameRegs (Reg.VRC.VIN :: irqOf .VRC 0) s t ∧ SameRest s t)) ∧
  (∀ (s : State) (rail : BitVec 4), s.sound →
    (s.hw.pwr.coreOn = true → ∃ t : State, exec (.railLost rail) s = .next t.settled ∧ t.rd Reg.PWR.RAIL_LOST = rail.setWidth 32 ∧
      t.hw = { s.hw with events := s.hw.events ++ [.railLost] } ∧ SameRegs [Reg.PWR.RAIL_LOST] s t ∧ SameRest s t) ∧
    (s.hw.pwr.coreOn = false → exec (.railLost rail) s = .next s.settled)) ∧
  (∀ s : State, s.live →
    (s.bit Reg.VRC.VRC_STATUS 24 = false → ∃ t : State, exec .ilimReached s = .next t ∧ t.bit Reg.VRC.VRC_STATUS 24 = true ∧
      Counts Reg.VRC.ILIM_CNT 1 s t ∧ t.pend .VRC 0 4 = true ∧
      Quiet ([Reg.VRC.VRC_STATUS, Reg.VRC.ILIM_CNT] ++ irqOf .VRC 0) s t) ∧
    (s.bit Reg.VRC.VRC_STATUS 24 = true → exec .ilimReached s = .next s) ∧
    (∃ t : State, exec .ilimRelease s = .next t ∧ t.bit Reg.VRC.VRC_STATUS 24 = false ∧ Quiet [Reg.VRC.VRC_STATUS] s t)) ∧
  (∀ (s : State) (slack : Int) (above : Bool), s.live →
    let v := s.vFuse s.topCode
    let now := s.hw.pwr.target
    let low : Bool := decide (slack < (s.fld Reg.VRC.VRC_CTRL 15 8 : Int))
    let want := if low then now + 25 else if above then now - 25 else now
    ∃ t : State, exec (.avsStep slack above) s = .next t.settled ∧
      (s.bit Reg.VRC.VRC_CTRL 0 = false → t.hw.pwr.target = v) ∧
      (s.bit Reg.VRC.VRC_CTRL 0 = true → t.hw.pwr.target = max (max (v - 750) 6000) (min (min (v + 250) 8500) want) ∧
        (low = true → 8500 < now + 25 → t.pend .VRC 0 7 = true ∧ t.bit Reg.VRC.VRC_EVENTS 4 = true)) ∧
      SameRegs ([Reg.VRC.VTARGET, Reg.VRC.VRC_STATUS, Reg.VRC.VRC_EVENTS] ++ irqOf .VRC 0) s t ∧ SameRest s t) ∧
  (∀ (s : State) (ph : Fin 26) (short : Bool), s.live →
    (s.bit Reg.VRC.PHASE_EN ph = true →
      ∃ t : State, exec (.phaseFailure ph short) s = .next t ∧ t.bit Reg.VRC.PHASE_EN ph = false ∧ t.bit Reg.VRC.PHASE_FAIL ph = true ∧
        t.rd Reg.VRC.ILIM = BitVec.ofNat 32 (15 * t.phasesOn.length) ∧ t.fld Reg.VRC.VRC_STATUS 20 16 = t.phasesOn.length ∧
        t.pend .VRC 0 0 = true ∧ t.bit Reg.VRC.VRC_EVENTS 0 = true ∧
        (t.phasesSensed.length < 12 → t.bit Reg.PWR.PWR_STATUS 6 = true) ∧
        (let out := s.hw.pwr.phaseOut.filter (· != ph.val)
         (out.length < s.sparePhases.length → t.hw.pwr.phaseOut = out ++ [ph.val]) ∧
         (s.sparePhases.length ≤ out.length → t.pend .VRC 0 3 = true ∧ t.hw.pwr.phaseOut = out)) ∧
        SameRegs ([Reg.VRC.PHASE_EN, Reg.VRC.PHASE_FAIL, Reg.VRC.ILIM, Reg.VRC.VRC_STATUS, Reg.VRC.VRC_EVENTS, Reg.PWR.PWR_STATUS] ++
          irqOf .VRC 0) s t ∧
        SameRest s t) ∧
    (s.bit Reg.VRC.PHASE_EN ph = false → exec (.phaseFailure ph short) s = .next s) ∧
    (s.bit Reg.VRC.PHASE_EN ph = true → s.bit Reg.VRC.SENSE_FAIL ph = false →
      ∃ t : State, exec (.senseFailure ph) s = .next t ∧ t.bit Reg.VRC.SENSE_FAIL ph = true ∧ t.pend .VRC 0 1 = true ∧
        t.bit Reg.VRC.VRC_EVENTS 1 = true ∧ (t.phasesSensed.length < 12 → t.bit Reg.PWR.PWR_STATUS 6 = true) ∧
        Quiet ([Reg.VRC.SENSE_FAIL, Reg.VRC.VRC_EVENTS, Reg.PWR.PWR_STATUS] ++ irqOf .VRC 0) s t)) ∧
  (∀ (s : State) (ph q : Nat) (l : List Nat), s.live → s.hw.pwr.phaseOut = ph :: l → s.nextPhase = some q → ph ≠ q →
    ∃ t : State, exec .sparePhaseIn s = .next t ∧ t.bit Reg.VRC.PHASE_EN q = true ∧ t.bit Reg.VRC.PHASE_EN ph = false ∧
      t.rd Reg.VRC.ILIM = BitVec.ofNat 32 (15 * t.phasesOn.length) ∧ t.hw.pwr.phaseOut = l ∧ t.pend .VRC 0 2 = true ∧
      t.hw.events = s.hw.events ++ [.darn { kind := 6, inst := 0, unit := ph, cause := 0, spare := some q }] ∧
      SameRegs ([Reg.VRC.PHASE_EN, Reg.VRC.ILIM, Reg.VRC.VRC_STATUS, Reg.VRC.VRC_EVENTS, Reg.PWR.PWR_STATUS] ++ irqOf .VRC 0) s t ∧ SameRest s t) ∧
  (∀ (s : State) (st : Fin 4) (mv : BitVec 8) (n : Word), s.live → s.hw.pwr.stretch.length = 4 →
    (s.fld Reg.VRC.DROOP_CFG 7 0 < mv.toNat → s.hw.pwr.stretch.getD st false = false →
      ∃ t : State, exec (.droopDetect st mv) s = .next t ∧ t.hw.pwr.stretch.getD st false = true ∧ Counts Reg.VRC.DROOP_CNT 1 s t ∧
        (63 ≤ (s.hw.pwr.droops.filter fun x => decide (s.now < x + 1000000000)).length → t.pend .VRC 0 5 = true) ∧
        SameRegs (Reg.VRC.DROOP_CNT :: irqOf .VRC 0) s t ∧ SameRest s t) ∧
    (mv.toNat ≤ s.fld Reg.VRC.DROOP_CFG 7 0 → exec (.droopDetect st mv) s = .next s) ∧
    (s.hw.pwr.stretch.getD st false = true → ∃ t : State, exec (.stretchEnd st n) s = .next t ∧
      t.hw.pwr.stretch.getD st false = false ∧ Counts Reg.VRC.STRETCH_CYC n.toNat s t ∧ SameRegs [Reg.VRC.STRETCH_CYC] s t ∧
      SameRest s t))

/-- O52. Clocks, estimate, cap and temperature (R582 to R585, R589, R594 to R597, R600, R604, R605). A stripe takes the clock asked for;
a PLL that loses lock is recorded and its stripe falls back; a reference off by more than 1,000 ppm is recorded; measured
power comes from the healthy senses, EST_CORR from the last second; a step takes the 10 µs mean, and marks a cap missed with
every engine at its floor; without class 2 the issue limiter cuts a window to STEP above the last, and while the cap is missed without it every engine
issues at most one slot in eight (log entry 77), and none while the current stands at ILIM; the sensors' reading
sets THROTTLING and at T_SHUT asks for the shutdown. -/
def Obligations.ClocksAndCap : Prop :=
  (∀ (s : State) (st : Fin 4) (code : Fin 3), s.live →
    (s.hw.pwr.want.getD st 0 = code.val → s.stripeCode st ≠ code.val →
      ∃ t : State, exec (.stripeFreqChange st code) s = .next t.settled ∧ t.stripeCode st = code.val ∧
        t.bit Reg.PWR.PWR_STATUS (8 + st.val) = (code.val == 2) ∧
        t.bit Reg.CLK.STRIPE_FREQ (4 * st.val + 2) = !s.bit Reg.CLK.STRIPE_FREQ (4 * st.val + 2) ∧
        (s.bit Reg.VRC.VRC_CTRL 0 = false → t.hw.pwr.target = t.vFuse t.topCode) ∧
        (s.bit Reg.VRC.VRC_CTRL 0 = true → t.hw.pwr.target =
          max (max (t.vFuse t.topCode - 750) 6000) (min (min (t.vFuse t.topCode + 250) 8500) s.hw.pwr.target)) ∧
        t.hw = { s.hw with pwr := { s.hw.pwr with target := t.hw.pwr.target } } ∧
        SameRegs [Reg.CLK.STRIPE_FREQ, Reg.CLK.CLK_STATUS, Reg.PWR.PWR_STATUS, Reg.VRC.VTARGET, Reg.VRC.VRC_STATUS] s t ∧ SameRest s t) ∧
    (s.hw.pwr.want.getD st 0 ≠ code.val → exec (.stripeFreqChange st code) s = .next s.settled)) ∧
  (∀ (s : State) (pll : Fin 13), s.live →
    let st := (pll.val - 1) / 2
    ∃ t : State, exec (.pllLockLoss pll) s = .next t.settled ∧ t.bit Reg.CLK.CLK_STATUS pll = false ∧ t.bit Reg.CLK.CLK_EVENTS pll = true ∧
      Counts Reg.CLK.LOCK_LOSS_CNT 1 s t ∧ t.pend .CLK 0 0 = true ∧
      (1 ≤ pll.val → pll.val ≤ 8 → s.fld Reg.CLK.STRIPE_FREQ (4 * st + 2) (4 * st + 2) = (pll.val - 1) % 2 → t.stripeCode st = 0) ∧
      SameRegs ([Reg.CLK.CLK_STATUS, Reg.CLK.CLK_EVENTS, Reg.CLK.LOCK_LOSS_CNT, Reg.CLK.STRIPE_FREQ, Reg.PWR.PWR_STATUS,
        Reg.VRC.VTARGET, Reg.VRC.VRC_STATUS] ++ irqOf .CLK 0) s t ∧ SameRest s t) ∧
  (∀ (s : State) (ppm : Int) (aon : Bool), s.live → s.bit Reg.CLK.CLK_CTRL 0 = true →
    let bad : Bool := decide (1000 < ppm.natAbs)
    ∃ t : State, exec (.refClockCheck ppm aon) s = .next t.settled ∧ t.rd Reg.CLK.REF_DEV = BitVec.ofInt 32 ppm ∧
      t.bit Reg.CLK.CLK_STATUS 16 = !(bad && !aon) ∧ t.bit Reg.CLK.CLK_STATUS 17 = !(bad && aon) ∧
      ((bad && !aon) = true → t.bit Reg.CLK.CLK_EVENTS 16 = true ∧ t.pend .CLK 0 1 = true) ∧
      ((bad && aon) = true → t.bit Reg.CLK.CLK_EVENTS 17 = true ∧ t.pend .CLK 0 3 = true) ∧
      Quiet ([Reg.CLK.REF_DEV, Reg.CLK.CLK_STATUS, Reg.CLK.CLK_EVENTS] ++ irqOf .CLK 0) s t) ∧
  (∀ (s : State) (act : List Nat) (iout other : BitVec 16), s.live →
    let cur := min (iout.toNat * s.phasesOn.length / max 1 s.phasesSensed.length) 65535
    (∃ t : State, exec (.powerEstimate act iout other) s = .next t.settled ∧ t.rd Reg.VRC.IOUT = BitVec.ofNat 32 cur ∧
      t.fld Reg.PWR.CORE_POWER 15 0 = min (s.hw.pwr.target / 10 * cur / 1000) 65535 ∧
      (s.bit Reg.PWR.PWR_STATUS 6 = false →
        t.fld Reg.PWR.PKG_POWER 15 0 = min (s.hw.pwr.target / 10 * cur / 1000 + other.toNat) 65535) ∧
      SameRegs [Reg.VRC.IOUT, Reg.PWR.CORE_POWER, Reg.PWR.PKG_POWER] s t ∧ SameRest s t) ∧
    (s.bit Reg.PWR.PWR_STATUS 6 = false → ∃ t : State, exec .estCorrUpdate s = .next t ∧
      (let l := (s.hw.pwr.sums :: s.hw.pwr.past).take 100
       sumNat (l.map (·.2)) ≠ 0 → (t.rd Reg.PWR.EST_CORR).toNat =
         min (sumNat (l.map (·.1)) * 65536 / sumNat (l.map (·.2))) 4294967295) ∧
      t.hw.pwr.sums = (0, 0) ∧ SameRegs [Reg.PWR.EST_CORR] s t ∧ SameRest s t) ∧
    (s.bit Reg.PWR.PWR_STATUS 6 = true → exec .estCorrUpdate s = .next s)) ∧
  (∀ (s : State) (fast projected : BitVec 16), s.live →
    ∃ t : State, exec (.capStep fast projected) s = .next t.settled ∧ t.fld Reg.PWR.PKG_POWER 15 0 = fast.toNat ∧
      t.hw.pwr.fasts = (fast.toNat :: s.hw.pwr.fasts).take (100 * max 1 (s.fld Reg.PWR.CAP 23 16)) ∧
      t.hw.pwr.limit = (decide (5 * s.capInForce < 4 * fast.toNat) || (s.hw.pwr.limit && decide (s.capInForce < fast.toNat))) ∧
      (s.capInForce < projected.toNat → s.allAtFloor = true →
        t.bit Reg.PWR.CAP_EVENTS 0 = true ∧ t.hw.pwr.miss = some (s.hw.pwr.miss.getD s.now) ∧ t.bit Reg.PWR.PWR_STATUS 4 = true ∧
        (s.hw.pwr.miss = none → t.pend .PWR 0 0 = true)) ∧
      (projected.toNat ≤ s.capInForce → s.hw.pwr.phaseOut = [] → t.hw.pwr.miss = none) ∧
      (∀ p, p < 36 → t.bit (Reg.ENG.DUMMY p) 24 =
        (s.bit Reg.PWR.IRL_CFG 20 || t.hw.pwr.limit || t.hw.pwr.miss.isSome)) ∧
      SameRegs ([Reg.PWR.PKG_POWER, Reg.PWR.CAP_EVENTS, Reg.PWR.PWR_STATUS, Reg.PWR.THROT_TIME] ++
        (List.range 36).map Reg.ENG.DUMMY ++ irqOf .PWR 0) s t ∧ SameRest s t) ∧
  (∀ (s : State) (st : Fin 4) (wanted : List Nat), s.live → s.hw.pwr.slots.length = 4 →
    let step := s.fld Reg.PWR.IRL_CFG 9 0 / (if s.hw.pwr.limit then 2 else 1)
    let prev := s.hw.pwr.slots.getD st 0
    let want := sumNat (wanted.take 9)
    (s.bit Reg.VRC.VRC_STATUS 24 = false →
      (s.hw.pwr.miss = none → (s.bit Reg.PWR.IRL_CFG 20 || s.hw.pwr.limit) = true →
        (want ≤ prev + step → prev ≤ step + want → ∃ t : State, exec (.irlWindow st wanted) s = .next t ∧
          t.hw.pwr.slots.getD st 0 = want ∧ SameRegs [] s t ∧ SameRest s t) ∧
        (prev + step < want → (∀ i, i < 9 → s.engClass (9 * st.val + i) ≠ 2) → ∃ t : State, exec (.irlWindow st wanted) s = .next t ∧
          t.hw.pwr.slots.getD st 0 = prev + step ∧ SameRegs [] s t ∧ SameRest s t)) ∧
      (s.hw.pwr.miss ≠ none → (s.bit Reg.PWR.IRL_CFG 20 || s.hw.pwr.limit) = false → prev ≤ 576 →
        (∀ i, i < 9 → s.engClass (9 * st.val + i) ≠ 2) →
        ∃ t : State, exec (.irlWindow st wanted) s = .next t ∧ t.hw.pwr.slots.getD st 0 = sumNat ((wanted.take 9).map (min · 8)) ∧
          SameRest s t) ∧
      (s.hw.pwr.miss = none → (s.bit Reg.PWR.IRL_CFG 20 || s.hw.pwr.limit) = false → exec (.irlWindow st wanted) s = .next s)) ∧
    (s.bit Reg.VRC.VRC_STATUS 24 = true → (∀ i, i < 9 → s.engClass (9 * st.val + i) ≠ 2) →
      ∃ t : State, exec (.irlWindow st wanted) s = .next t ∧ t.hw.pwr.slots.getD st 0 = 0 ∧ SameRegs [] s t ∧ SameRest s t)) ∧
  (∀ (s : State) (temps : List Int), s.sound →
    let l := (temps ++ s.hw.pwr.temps.drop temps.length).take 48
    let h := (hottest l).1
    (s.hw.boot.inReset = true → ∃ t : State, exec (.thermalRead temps) s = .next t.settled ∧ t.hw.pwr.temps = l ∧ t.regs = s.regs ∧
      SameRest s t) ∧
    (s.hw.boot.inReset = false → ∃ t : State, exec (.thermalRead temps) s = .next t.settled ∧ t.hw.pwr.temps = l ∧
      t.fld Reg.PWR.THERM_STATUS 8 0 = uns 9 h ∧
      t.bit Reg.PWR.PWR_STATUS 5 = decide ((s.fld Reg.PWR.THERM_CFG 15 8 : Int) < h) ∧
      ((s.fld Reg.PWR.THERM_CFG 7 0 : Int) < h → (hottest s.hw.pwr.temps).1 ≤ (s.fld Reg.PWR.THERM_CFG 7 0 : Int) →
        t.pend .PWR 0 1 = true) ∧
      ((s.fld Reg.PWR.THERM_CFG 15 8 : Int) < h → s.bit Reg.PWR.PWR_STATUS 5 = false →
        t.pend .PWR 0 2 = true ∧ t.bit Reg.PWR.CAP_EVENTS 2 = true) ∧
      t.hw.events = s.hw.events ++ (if (s.fld Reg.PWR.THERM_CFG 23 16 : Int) ≤ h then [.thermalShut] else []) ∧
      SameRegs ([Reg.PWR.THERM_STATUS, Reg.PWR.PWR_STATUS, Reg.PWR.CAP_EVENTS] ++ irqOf .PWR 0) s t ∧ SameRest s t))

/-- O53. Power shifting, power states and the memory controllers (R608 to R613, R616, R617). A device reports to the time master,
which sends each device its cap; an allocation is applied, and dropped after 3 ms without another; a device with no command
and every engine gated is IDLE; an idle block is gated, an engine or FCE idle for RET_US retained; a scrubbed beat that is corrected
is counted, one that is not is counted, located and raised; a failed retraining is raised. -/
def Obligations.PowerStatesAndMemory : Prop :=
  (∀ (s : State) (need w : BitVec 9), s.live → s.bit Reg.PWR.PWR_CTRL 3 = true →
    (s.fld Reg.TSC.TSC_STATUS 3 2 = 1 → ∃ t : State, exec (.shiftReport need) s = .next t ∧ t.fld Reg.PWR.GRP_STATUS 23 16 = s.urgency ∧
      t.out = s.out ++ [.flit (s.fld Reg.LINK.DEV_STATUS 18 16) "POWER_REPORT" (leBytes 2 (min need.toNat (s.fld Reg.PWR.CAP 8 0)) ++
        leBytes 2 (s.fld Reg.PWR.GRP_CFG 24 16) ++ leBytes 1 s.urgency)] ∧
      SameRegs [Reg.PWR.GRP_STATUS] s t ∧ t.mem = s.mem ∧ t.es = s.es ∧ t.tsc = s.tsc ∧ t.hw = s.hw) ∧
    (∃ t : State, exec (.allocationReceive w) s = .next t ∧ t.fld Reg.PWR.GRP_STATUS 8 0 = w.toNat ∧ t.bit Reg.PWR.GRP_STATUS 24 = true ∧
      t.hw.pwr.allocAt = s.now ∧ SameRegs [Reg.PWR.GRP_STATUS] s t ∧ SameRest s t)) ∧
  (∀ (s : State) (l : List PowerReport), s.live → s.bit Reg.PWR.PWR_CTRL 3 = true → s.fld Reg.TSC.TSC_STATUS 3 2 = 2 →
    (∀ r ∈ l, r.dev.toNat ≠ s.devNum) →
    ∃ t : State, exec (.shiftAllocate l) s = .next t ∧
      t.out = s.out ++ (allocate (s.fld Reg.PWR.GRP_CFG 11 0) l).map (fun x => .flit x.1 "POWER_ALLOCATION" (leBytes 2 x.2)) ∧
      (s.fld Reg.PWR.GRP_CFG 11 0 < sumNat (l.map fun r => r.floor.toNat) → t.pend .PWR 0 4 = true) ∧
      SameRegs (irqOf .PWR 0) s t ∧ t.mem = s.mem ∧ t.es = s.es ∧ t.tsc = s.tsc) ∧
  (∀ s : State, s.live →
    (s.bit Reg.PWR.GRP_STATUS 24 = true → s.hw.pwr.allocAt + 3000000 ≤ s.now → ∃ t : State, exec .allocationTimeout s = .next t ∧
      t.bit Reg.PWR.GRP_STATUS 24 = false ∧ t.pend .PWR 0 4 = true ∧ t.bit Reg.PWR.CAP_EVENTS 3 = true ∧
      Quiet ([Reg.PWR.GRP_STATUS, Reg.PWR.CAP_EVENTS] ++ irqOf .PWR 0) s t) ∧
    (s.now < s.hw.pwr.allocAt + 3000000 → exec .allocationTimeout s = .next s) ∧
    (s.hw.disp.cmds = [] → s.fld Reg.PWR.PWR_STATUS 2 0 = 0 → (∀ p, p < 36 → s.power .ENG p ≠ 0) →
      ∃ t : State, exec .idleEntry s = .next t.settled ∧ t.fld Reg.PWR.PWR_STATUS 2 0 = 1 ∧ t.pend .PWR 0 5 = true ∧
        Quiet (Reg.PWR.PWR_STATUS :: irqOf .PWR 0) s t)) ∧
  (∀ (s : State) (slot : BitVec 14) (b : Blk) (i : Nat), s.live → pageAt slot.toNat = some (b, i) → s.blockBusy b i = false →
    s.power b i = 0 →
    ∃ t : State, exec (.clockGateEntry slot) s = .next t ∧ t.power b i = 1 ∧ Quiet [Reg.HDR.STATUS b i] s t) ∧
  (∀ (s : State) (p : Fin 36), s.live → s.blockBusy .ENG p = false → s.reserved p = false →
    (s.engState p = eSPARE ∨ (s.engState p = eIDLE ∧ (s.eng p).idleSince + s.fld Reg.PWR.RET_US 15 0 * 1000 ≤ s.now)) →
    ∃ t : State, exec (.retentionEntry (.eng p)) s = .next t ∧ t.power .ENG p = 2 ∧ Quiet [Reg.HDR.STATUS .ENG p] s t) ∧
  (∀ (s : State) (i : Fin 4), s.live → s.blockBusy .FCE i = false →
    (s.fce i).idleSince + s.fld Reg.PWR.RET_US 15 0 * 1000 ≤ s.now →
    ∃ t : State, exec (.retentionEntry (.fce i)) s = .next t ∧ t.power .FCE i = 2 ∧ Quiet [Reg.HDR.STATUS .FCE i] s t) ∧
  (∀ (s : State) (m : Fin 8) (mult : BitVec 4) (a : BitVec 33), s.live → s.hw.memc.length = 8 →
    s.fld (Reg.MEMC.MEMC_STATUS m) 3 1 ≠ 2 →
    (s.bit (Reg.MEMC.MEMC_CTRL m) 1 = true → s.memcState m = 1 → ∃ t : State, exec (.memcPowerDown m) s = .next t ∧ t.memcState m = 2 ∧
      SameRegs [] s t ∧ SameRest s t) ∧
    (∃ t : State, exec (.dramTempReport m mult) s = .next t ∧ t.fld (Reg.MEMC.MEMC_STATUS m) 19 16 = mult.toNat ∧
      Quiet [Reg.MEMC.MEMC_STATUS m] s t) ∧
    (∀ corrected failed, ∃ t : State, exec (.memcPeriodicRetrain m corrected failed) s = .next t ∧
      (corrected = true → Counts (Reg.MEMC.RETRAIN_CNT m) 1 s t) ∧ (failed = true → t.pend .MEMC m 2 = true) ∧
      SameRegs (Reg.MEMC.RETRAIN_CNT m :: irqOf .MEMC m) s t ∧ SameRest s t) ∧
    (s.bit (Reg.MEMC.MEMC_CTRL m) 0 = true → s.rd (Reg.MEMC.INJECT m) = 0 →
      (∃ t : State, exec (.memcScrub m a .none) s = .next t.settled ∧ SameRegs [] s t ∧ t.memcState m ≠ 2 ∧
        (t.hw.memc.getD m {}).rd = min ((s.hw.memc.getD m {}).rd + 1) 4294967295 ∧
        (∃ l, t.hw = { s.hw with memc := l }) ∧ SameRest s t) ∧
      (∃ t : State, exec (.memcScrub m a .corr) s = .next t.settled ∧
        t.fld (Reg.MEMC.ECC_CNT m) 15 0 = min (s.fld (Reg.MEMC.ECC_CNT m) 15 0 + 1) 65535 ∧
        SameRegs (Reg.MEMC.ECC_CNT m :: irqOf .MEMC m) s t ∧ SameRest s t) ∧
      (∃ t : State, exec (.memcScrub m a .uncorr) s = .next t.settled ∧
        t.fld (Reg.MEMC.ECC_CNT m) 31 16 = min (s.fld (Reg.MEMC.ECC_CNT m) 31 16 + 1) 65535 ∧
        t.rd64 (Reg.MEMC.ERR_ADDR_LO m) (Reg.MEMC.ERR_ADDR_HI m) = dramAddr m a.toNat / 8 * 8 ∧ t.pend .MEMC m 0 = true ∧
        t.mem = s.mem ∧ t.es = s.es ∧ t.tsc = s.tsc ∧ t.out = s.out)) ∧
    (s.bit (Reg.MEMC.MEMC_CTRL m) 0 = false → ∀ e, exec (.memcScrub m a e) s = .next s.settled))

/-- O54. Sleep (R613 to R615, R619, R663). DEV_CMD enters STANDBY or DEEP_SLEEP when nothing stands against it, reports the reason
otherwise, and waits while a darning is in progress; a command, the link or the timer wakes the device, which shows the
cause. -/
def Obligations.SleepAndWake : Prop :=
  (∀ (s : State) (linkL2 wakeNow : Bool) (v : Word), s.live →
    let asleep (st : Nat) (t : State) : Prop := t.fld Reg.PWR.PWR_STATUS 2 0 = st ∧ t.bit Reg.PWR.DEV_RESULT 0 = true ∧
      t.bit Reg.PWR.DEV_RESULT 1 = true ∧ t.es = s.es ∧ t.tsc = s.tsc
    let refused (reason : Nat) (t : State) : Prop := t.fld Reg.PWR.PWR_STATUS 2 0 = s.fld Reg.PWR.PWR_STATUS 2 0 ∧
      t.fld Reg.PWR.DEV_RESULT 15 0 = 1 + 256 * reason ∧ SameRegs (Reg.PWR.DEV_RESULT :: hostTrail .PWR 0) s t ∧
      t.es = s.es ∧ t.tsc = s.tsc ∧ t.out = s.out
    let waits (n : Nat) (t : State) : Prop := t.hw.pwr.deferred = some n ∧ SameRegs (hostTrail .PWR 0) s t ∧
      t.es = s.es ∧ t.tsc = s.tsc ∧ t.out = s.out
    (s.accepts 0 Reg.PWR.DEV_CMD (setBits v 3 0 1) = true →
      (s.hw.darn.run = none → s.sleepReason false false false = 0 → ∃ t : State, exec (.standby 0 v) s = .next t.settled ∧
        asleep 2 t ∧ t.hw.pwr.target = 6000 ∧ t.out = s.out) ∧
      (s.hw.darn.run = none → s.sleepReason false false false ≠ 0 → ∃ t : State, exec (.standby 0 v) s = .next t.settled ∧
        refused (s.sleepReason false false false) t) ∧
      (s.hw.darn.run ≠ none → ∃ t : State, exec (.standby 0 v) s = .next t.settled ∧ waits 1 t)) ∧
    (s.accepts 0 Reg.PWR.DEV_CMD (setBits v 3 0 2) = true →
      (s.hw.darn.run = none → s.sleepReason true linkL2 wakeNow = 0 → ∃ t : State, exec (.deepSleep 0 v linkL2 wakeNow) s = .next t.settled ∧
        asleep 3 t ∧ t.hw.pwr.coreOn = false ∧
        ∃ l, t.out = s.out ++ l ∧ ∀ o ∈ l, (∃ ball, o = .pinHiz ball) ∨ ∃ g, o = .timing g 0 0) ∧
      (s.hw.darn.run = none → s.sleepReason true linkL2 wakeNow ≠ 0 →
        ∃ t : State, exec (.deepSleep 0 v linkL2 wakeNow) s = .next t.settled ∧ refused (s.sleepReason true linkL2 wakeNow) t) ∧
      (s.hw.darn.run ≠ none → ∃ t : State, exec (.deepSleep 0 v linkL2 wakeNow) s = .next t.settled ∧ waits 2 t))) ∧
  (∀ (s : State) (v : Word), s.live → (s.fld Reg.PWR.PWR_STATUS 2 0 = 2 ∨ s.fld Reg.PWR.PWR_STATUS 2 0 = 3) →
    let awake (cause : Nat) (t : State) : Prop := t.fld Reg.PWR.PWR_STATUS 2 0 = 0 ∧ t.fld Reg.PWR.DEV_RESULT 19 16 = cause ∧
      t.hw.pwr.coreOn = true ∧ t.hw.pwr.target = 7500 ∧ t.pend .PWR 0 5 = true ∧ t.pend .PWR 0 6 = true ∧
      t.es = s.es ∧ t.tsc = s.tsc ∧ t.out = s.out
    (s.accepts 0 Reg.PWR.DEV_CMD (setBits v 3 0 3) = true → ∃ t : State, exec (.wake 0 v) s = .next t.settled ∧ awake 1 t) ∧
    (s.bit Reg.PWR.WAKE_CFG 0 = true → ∃ t : State, exec .wakeLink s = .next t.settled ∧ awake 2 t) ∧
    (s.bit Reg.PWR.WAKE_CFG 2 = true → s.rd64 Reg.PWR.WAKE_TSC_LO Reg.PWR.WAKE_TSC_HI ≤ s.now →
      ∃ t : State, exec .wakeTimer s = .next t.settled ∧ awake 4 t)) ∧
  (∀ s : State, s.live →
    (s.bit Reg.PWR.WAKE_CFG 0 = false → exec .wakeLink s = .next s.settled) ∧
    (s.bit Reg.PWR.WAKE_CFG 2 = false ∨ s.now < s.rd64 Reg.PWR.WAKE_TSC_LO Reg.PWR.WAKE_TSC_HI →
      exec .wakeTimer s = .next s.settled))

/-! ### Spares, resets, pins -/

/-- O55. Darning (R658, R659, R661, R662, R664 to R668, R670, R673). DARN_CMD queues, repeats, clears and un-fails, or reports the reason; the
next operation starts with its spare and a pending record, or ends without a spare; the spare's test leads on or fails it; the
switch; the commit raises MAP_SEQ and source 28 and clears the record; a worn monitor raises source 31 once. -/
def Obligations.Darning : Prop :=
  (∀ (s : State) (v : Word), s.live →
    let op : DarnOp := { kind := bits v 7 4, inst := bits v 15 8, unit := bits v 31 16, cause := 2 }
    let kindOk := 1 ≤ bits v 7 4 ∧ bits v 7 4 ≤ 7
    let taken (cmd : Nat) : Prop := s.accepts 0 Reg.DARN.DARN_CMD (setBits v 3 0 cmd) = true
    let answered (reason : Nat) (t : State) : Prop :=
      t.rd Reg.DARN.DARN_RESULT = (if reason = 0 then 3 else BitVec.ofNat 32 (1 + 256 * reason)) ∧
      t.es = s.es ∧ t.tsc = s.tsc ∧ t.out = s.out
    (taken 1 → ∃ t : State, exec (.darn 0 v) s = .next t.settled ∧ answered (s.darnReason op) t ∧
      t.hw.darn.queue = s.hw.darn.queue ++ (if s.darnReason op = 0 then [op] else []) ∧
      SameRegs (Reg.DARN.DARN_RESULT :: hostTrail .DARN 0) s t) ∧
    (∀ x, taken 2 → s.pendingOp = some x → kindOk → s.darnKnown x = false → s.hw.darn.queue.length < 16 →
      ∃ t : State, exec (.darnRepeat 0 v) s = .next t.settled ∧ answered 0 t ∧ t.hw.darn.queue = s.hw.darn.queue ++ [x] ∧
        SameRegs (Reg.DARN.DARN_RESULT :: hostTrail .DARN 0) s t) ∧
    (taken 2 → s.pendingOp = none → ∃ t : State, exec (.darnRepeat 0 v) s = .next t.settled ∧ answered 4 t ∧
      SameRegs (Reg.DARN.DARN_RESULT :: hostTrail .DARN 0) s t) ∧
    (taken 3 → op.kind = 1 → op.unit < 36 → s.isFailed op.unit = true → ∃ t : State, exec (.unfail 0 v) s = .next t.settled ∧
      answered 0 t ∧ t.isFailed op.unit = false ∧ t.hw.darn.unfail = s.hw.darn.unfail ++ [op.unit] ∧
      t.rd Reg.DARN.MAP_SEQ = s.rd Reg.DARN.MAP_SEQ + 1) ∧
    (taken 3 → (op.kind ≠ 1 ∨ 36 ≤ op.unit ∨ s.isFailed op.unit = false) → ∃ t : State, exec (.unfail 0 v) s = .next t.settled ∧
      answered 3 t ∧ SameRegs (Reg.DARN.DARN_RESULT :: hostTrail .DARN 0) s t) ∧
    (taken 4 → s.pendingOp ≠ none → kindOk → s.hw.darn.run = none → ∃ t : State, exec (.clearPending 0 v) s = .next t.settled ∧
      answered 0 t ∧ t.rd Reg.DARN.PENDING = 0 ∧
      SameRegs ([Reg.DARN.PENDING, Reg.DARN.DARN_RESULT] ++ hostTrail .DARN 0) s t) ∧
    (taken 4 → s.pendingOp = none → ∃ t : State, exec (.clearPending 0 v) s = .next t.settled ∧ answered 4 t ∧
      SameRegs (Reg.DARN.DARN_RESULT :: hostTrail .DARN 0) s t)) ∧
  (∀ (s : State) (op : DarnOp), s.live → s.hw.darn.run = none → s.hw.boot.frozen = false → op.kind = 1 →
    leastBy (fun a b => decide (s.darnRank a < s.darnRank b)) (s.hw.darn.queue.filter s.darnReady) = some op →
    (∀ q, s.spareFor op.unit = some q → ∃ t : State, exec .darnOperationStart s = .next t.settled ∧
      t.hw.darn.run = some { op with spare := some q } ∧ t.hw.darn.spare = q ∧ t.hw.darn.stage = 1 ∧
      t.rd Reg.DARN.PENDING = BitVec.ofNat 32 (3 + 256 * op.inst + 65536 * op.unit) &&& 0xFFFFFF1F ∧
      SameRegs [Reg.DARN.PENDING] s t ∧ SameRest s t) ∧
    (s.spareFor op.unit = none → ∃ t : State, exec .darnOperationStart s = .next t.settled ∧ t.hw.darn.run = none ∧
      t.rd Reg.DARN.PENDING = 0 ∧ t.pend .DARN 0 1 = true ∧ t.hw.darn.total = s.hw.darn.total + 1 ∧ SameRest s t)) ∧
  (∀ (s : State) (op : DarnOp), s.live → s.hw.darn.run = some op → op.kind = 1 →
    let q := s.hw.darn.spare
    (s.hw.darn.stage = 1 → q < 36 →
      (∃ t : State, exec (.spareTestDone true) s = .next t.settled ∧ t.hw.darn.stage = (if op.planned then 2 else 3) ∧
        Counts (Reg.ENG.CHK_ROW q) 1 s t ∧ Counts (Reg.ENG.CHK_TILE q) 1 s t ∧ Counts (Reg.ENG.VU_CHK q) 1 s t ∧
        SameRegs [Reg.ENG.CHK_ROW q, Reg.ENG.CHK_TILE q, Reg.ENG.ES_ECC q, Reg.ENG.VU_CHK q] s t ∧ SameRest s t) ∧
      (∃ t : State, exec (.spareTestDone false) s = .next t.settled ∧ t.isSpare q = false ∧ t.isFailed q = true ∧
        t.pend .DARN 0 2 = true ∧ SameRest s t)) ∧
    (s.hw.darn.stage = 2 →
      ((s.eng op.unit).cmd = none → ∃ t : State, exec (.darnSwitch true) s = .next t.settled ∧ t.hw.darn.stage = 3 ∧ t.regs = s.regs ∧
        SameRest s t) ∧
      ((s.eng op.unit).cmd ≠ none → exec (.darnSwitch true) s = .next s.settled) ∧
      (∃ t : State, exec (.darnSwitch false) s = .next t.settled ∧ t.hw.darn.stage = 3 ∧ t.tsc = s.tsc))) ∧
  (∀ (s : State) (op : DarnOp), s.live → s.hw.darn.run = some op →
    (s.hw.darn.stage = 3 → s.mapReady op = true → s.hw.boot.frozen = false →
      ∃ t : State, exec .darnMapCommit s = .next t.settled ∧ t.rd Reg.DARN.MAP_SEQ = s.rd Reg.DARN.MAP_SEQ + 1 ∧
        t.hw.darn.run = none ∧ t.rd Reg.DARN.PENDING = 0 ∧ t.pend .DARN 0 0 = true ∧
        t.hw.darn.total = s.hw.darn.total + 1 ∧ t.hw.darn.other = mapRegs.map s.rd ∧ t.tsc = s.tsc) ∧
    (s.hw.darn.stage ≠ 3 → exec .darnMapCommit s = .next s.settled)) ∧
  (∀ (s : State) (x : DarnTarget) (value : BitVec 16) (worn : Bool), s.live → x.kind.toNat ≠ 3 → x.kind.toNat ≠ 4 →
    let key := (x.kind.toNat, x.inst.toNat, x.unit.toNat)
    let op : DarnOp := { kind := x.kind.toNat, inst := x.inst.toNat, unit := x.unit.toNat, cause := 1 }
    let out := if x.kind.toNat = 1 then worn || decide (s.fld Reg.DARN.ENG_SLOW 9 0 < value.toNat) || decide (3 ≤
      (s.hw.darn.thresh.filter fun y => y.1 == x.unit.toNat && decide (s.now < y.2 + 86400000000000)).length) else worn
    (s.inService op = true → ∃ t : State, exec (.wearRead x value worn) s = .next t.settled ∧
      t.hw.darn.wear = (s.hw.darn.wear.filter fun y => y.1 != key) ++ [(key, value.toNat, out)] ∧
      (out = true → (s.hw.darn.wear.find? fun y => y.1 == key) = none → t.pend .DARN 0 3 = true) ∧
      t.hw.darn.queue = s.hw.darn.queue ++ (if out = true ∧ s.bit Reg.DARN.DARN_CTRL 1 = true ∧ s.darnKnown op = false ∧
        s.hw.darn.queue.length < 16 then [op] else []) ∧
      SameRegs (irqOf .DARN 0) s t ∧ SameRest s t) ∧
    (s.inService op = false → exec (.wearRead x value worn) s = .next s.settled))

/-- O56. Resets and power loss (R706 to R710, R721, R724, R725). A reset that is taken sets RST_CAUSE, counts, and every register of
its scope returns to its reset value; a long one is marked; the release measures it and boot begins; RST_CMD resets with its
cause; VDD_AON's return resets everything but the fuses, the time-stamp counter included; a warning freezes the device and is
recorded, its withdrawal raises source 37 and leads to the brownout reset. -/
def Obligations.ResetsAndPowerLoss : Prop :=
  (∀ s : State, s.sound → s.hw.boot.pinLow = false → s.hw.boot.inReset = false →
    ∃ t : State, exec .sysRstNTaken s = .next t.settled ∧ t.hw.boot.inReset = true ∧ t.hw.boot.pinLow = true ∧ t.hw.boot.lowAt = s.now ∧
      t.rd Reg.AON.RST_CAUSE = BitVec.ofNat 32 (2 ^ s.resetCause cPIN) ∧
      (t.rd Reg.AON.RST_COUNT).toNat = min ((s.rd Reg.AON.RST_COUNT).toNat + 1) 4294967295 ∧ t.stage = bRESET ∧
      (∀ r : RegRef, lostReg resetKeeps r.key = true → r.key ∉ keptRegs.map (fun x => x.1.key) → t.rd r = r.resetVal) ∧
      t.hw.disp.cmds = [] ∧ t.hw.disp.ctxs = [] ∧ t.es = [] ∧ t.tsc = s.tsc) ∧
  (∀ s : State, s.sound →
    (s.hw.boot.pinLow = true → s.hw.boot.lowAt + 1000000000 < s.now → ∃ t : State, exec .resetHeldLong s = .next t.settled ∧
      t.bit Reg.AON.RST_FLAGS 0 = true ∧ SameRegs [Reg.AON.RST_FLAGS] s t ∧ t.hw = s.hw ∧ SameRest s t) ∧
    (s.now ≤ s.hw.boot.lowAt + 1000000000 ∨ s.hw.boot.pinLow = false → exec .resetHeldLong s = .next s.settled) ∧
    (s.hw.boot.pinLow = true → s.hw.boot.thermal = false → ∀ straps : BitVec 2, ∃ t : State,
      exec (.sysRstNRelease straps) s = .next t.settled ∧ t.hw.boot.inReset = false ∧ t.hw.boot.pinLow = false ∧
      t.hw.boot.straps = straps.toNat ∧
      (t.rd Reg.AON.HOLD_MS).toNat = min ((s.now - s.hw.boot.lowAt) / 1000000) 4294967295 ∧
      (s.hw.pwr.coreOn = true → s.hw.boot.pfLow = false → t.stage = (if straps = 0 then bAUTH else bRECOVERY) ∧
        t.fld Reg.PIN.PIN_STATUS 1 0 = straps.toNat ∧ (straps ≠ 0 → t.pend .AON 0 3 = true)) ∧ t.tsc = s.tsc)) ∧
  (∀ (s : State) (v : Word), s.live → s.accepts 0 Reg.AON.RST_CMD (setBits v 3 0 1) = true → s.hw.boot.pinLow = false →
    s.hw.boot.returned = none → s.hw.pwr.coreOn = true →
    ∃ t : State, exec (.systemReset 0 v) s = .next t.settled ∧
      t.rd Reg.AON.RST_CAUSE = BitVec.ofNat 32 (2 ^ s.resetCause cSOFT) ∧ t.hw.boot.inReset = false ∧
      t.hw.disp.cmds = [] ∧ t.hw.disp.ctxs = [] ∧ t.es = [] ∧ t.tsc = s.tsc ∧
      (s.hw.boot.pfLow = false → t.stage = (if s.hw.boot.straps % 4 = 0 then bAUTH else bRECOVERY))) ∧
  (∀ s : State, s.sound → ∃ t : State, exec .vddAonPowerOn s = .next t.settled ∧ t.tsc = 0 ∧
    (∀ r : RegRef, r.key ≠ Reg.AON.FUSE_ROLLBACK.key → t.rd r = r.resetVal) ∧
    t.rd Reg.AON.FUSE_ROLLBACK = s.rd Reg.AON.FUSE_ROLLBACK ∧ t.hw.disp.cmds = [] ∧ t.es = [] ∧
    t.hw.hal.audit = s.hw.hal.audit ∧ t.hw.hal.params = s.hw.hal.params ∧ t.hw.hal.state = s.hw.hal.state) ∧
  (∀ s : State, s.sound →
    (s.hw.boot.pfLow = false → ∃ t : State, exec .pwrFailNFall s = .next t.settled ∧ t.hw.boot.pfLow = true ∧ t.hw.boot.frozen = true ∧
      t.hw.boot.outInvalid = true ∧ t.bit Reg.AON.RST_FLAGS 1 = true ∧ t.rd64 Reg.AON.PF_TSC_LO Reg.AON.PF_TSC_HI = s.now ∧
      t.bit Reg.AON.PF_INFO 31 = false ∧
      (s.safeState ≠ sOFF → t.bit Reg.SAFE.SAFE_STATE 6 = false ∧ t.bit Reg.SAFE.SAFE_STATE 7 = false) ∧
      t.hw.darn.run = none ∧ t.es = s.es ∧ t.tsc = s.tsc) ∧
    (s.hw.boot.pfLow = true → exec .pwrFailNFall s = .next s.settled) ∧
    (s.hw.boot.pfLow = true → ∀ railsOk, ∃ t : State, exec (.pwrFailNRise railsOk) s = .next t.settled ∧ t.hw.boot.pfLow = false ∧
      (railsOk = true → s.hw.pwr.coreOn = true → s.hw.boot.railLost = false →
        t.pend .AON 0 5 = true ∧ t.hw.boot.returned = some s.now) ∧
      t.hw.boot.frozen = s.hw.boot.frozen ∧ SameRegs (irqOf .AON 0) s t ∧ SameRest s t) ∧
    (∀ t0, s.hw.boot.returned = some t0 →
      (t0 + 10000000 ≤ s.now → s.hw.boot.inReset = false → ∃ t : State, exec .brownoutReset s = .next t.settled ∧
        t.rd Reg.AON.RST_CAUSE = BitVec.ofNat 32 (2 ^ cBROWNOUT) ∧ t.hw.boot.returned = none ∧
        t.hw.disp.cmds = [] ∧ t.es = [] ∧ t.tsc = s.tsc) ∧
      (s.now < t0 + 10000000 → exec .brownoutReset s = .next s.settled)))

/-- O57. Boot and the PCIe link (R479, R625, R702, R705, R706, R713 to R718). An image that passes every check leads to the start-up
tests, slot B after slot A; a failed one leaves its code, slot B's RECOVERY; a host image in RECOVERY likewise; COMMIT_ROLLBACK
raises the fuse, never lowers it; the tests lead to READY or FAILED; a PCIe reset clears the functions and MSI-X; the link's
changes, a completion timeout and a lost reference are recorded and raised. -/
def Obligations.BootAndLink : Prop :=
  (∀ (s : State) (slotB : Bool) (x : BootImage), s.live → s.stage = bAUTH → s.hw.boot.frozen = false → slotB = s.hw.boot.triedA →
    (s.imageError x = 0 → ∃ t : State, exec (.bootImageCheck slotB x) s = .next t.settled ∧ t.stage = bTESTS ∧
      t.fld Reg.AON.BOOT_STATUS 5 4 = (if slotB then 1 else 0) ∧ t.fld Reg.AON.BOOT_STATUS 21 16 = x.rollback.toNat ∧
      (slotB = true → t.pend .AON 0 2 = true) ∧ Quiet (Reg.AON.BOOT_STATUS :: irqOf .AON 0) s t) ∧
    (s.imageError x ≠ 0 → ∃ t : State, exec (.bootImageCheck slotB x) s = .next t.settled ∧
      t.fld Reg.AON.BOOT_STATUS 15 8 = s.imageError x ∧
      (slotB = false → t.hw.boot.triedA = true ∧ t.stage = bAUTH) ∧
      (slotB = true → t.stage = bRECOVERY ∧ t.pend .AON 0 3 = true) ∧
      SameRegs (Reg.AON.BOOT_STATUS :: irqOf .AON 0) s t ∧ SameRest s t)) ∧
  (∀ (s : State) (v : Word) (c : ImageChecks), s.live → s.accepts 0 Reg.AON.BOOT_CMD (setBits v 3 0 1) = true →
    bits v 31 16 = 0x5A3C → s.stage = bRECOVERY → s.hw.boot.frozen = false →
    (s.imageError (s.hostImage c) = 0 → ∃ t : State, exec (.loadHost 0 v c) s = .next t.settled ∧ t.stage = bTESTS ∧
      t.fld Reg.AON.BOOT_STATUS 5 4 = 2 ∧ SameRegs (Reg.AON.BOOT_STATUS :: hostTrail .AON 0) s t ∧ t.es = s.es ∧
      t.tsc = s.tsc ∧ t.out = s.out) ∧
    (s.imageError (s.hostImage c) ≠ 0 → ∃ t : State, exec (.loadHost 0 v c) s = .next t.settled ∧ t.stage = bRECOVERY ∧
      t.fld Reg.AON.BOOT_STATUS 15 8 = s.imageError (s.hostImage c) ∧
      SameRegs (Reg.AON.BOOT_STATUS :: hostTrail .AON 0) s t ∧ t.es = s.es ∧ t.tsc = s.tsc ∧ t.out = s.out)) ∧
  (∀ (s : State) (v : Word), s.live → s.accepts 0 Reg.AON.BOOT_CMD (setBits v 3 0 2) = true → bits v 31 16 = 0x5A3C →
    (s.stage = bREADY → ∃ t : State, exec (.commitRollback 0 v) s = .next t.settled ∧
      t.fld Reg.AON.FUSE_ROLLBACK 5 0 = max (s.fld Reg.AON.FUSE_ROLLBACK 5 0) (s.fld Reg.AON.BOOT_STATUS 21 16) ∧
      SameRegs (Reg.AON.FUSE_ROLLBACK :: hostTrail .AON 0) s t ∧ t.es = s.es ∧ t.tsc = s.tsc ∧ t.out = s.out) ∧
    (s.stage ≠ bREADY → ∃ t : State, exec (.commitRollback 0 v) s = .next t.settled ∧ SameRegs (hostTrail .AON 0) s t ∧
      t.es = s.es ∧ t.tsc = s.tsc ∧ t.out = s.out)) ∧
  (∀ (s : State) (r : StartupResult), s.live → s.stage = bTESTS → s.hw.boot.frozen = false →
    (startFailed r = false → ∃ t : State, exec (.startupTestsDone r) s = .next t.settled ∧ t.stage = bREADY ∧ t.pend .AON 0 1 = true ∧
      t.fld Reg.AON.START_RESULT 6 0 = startFails r ∧ (startFails r ≠ 0 → t.pend .AON 0 4 = true) ∧
      (∀ x ∈ allPages [], t.bit (Reg.HDR.STATUS x.1 x.2) 0 = !(r.blocks.any fun y => y.toNat == x.1.slot + x.2)) ∧
      t.tsc = s.tsc ∧ t.out = s.out) ∧
    (startFailed r = true → ∃ t : State, exec (.startupTestsDone r) s = .next t.settled ∧ t.stage = bFAILED ∧ t.pend .AON 0 4 = true ∧
      t.fld Reg.AON.START_RESULT 6 0 = startFails r ∧ t.tsc = s.tsc ∧ t.out = s.out)) ∧
  (∀ s : State, s.live →
    (∃ t : State, exec .pcieReset s = .next t.settled ∧ t.hw.gath.fns = List.replicate 32 {} ∧ t.hw.gath.msix = [] ∧ t.hw.gath.pba = 0 ∧
      t.rd Reg.HOST.LINK_STATUS = 0 ∧ t.rd Reg.HOST.SRIOV_STATUS = 0 ∧ t.rd Reg.HOST.VF_ENABLED = 0 ∧
      (s.bit Reg.HOST.LINK_STATUS 16 = true → t.bit Reg.HOST.LINK_EVENTS 0 = true ∧ t.pend .HOST 0 0 = true) ∧
      SameRegs ([Reg.HOST.LINK_STATUS, Reg.HOST.SRIOV_STATUS, Reg.HOST.VF_ENABLED, Reg.HOST.LINK_EVENTS] ++ irqOf .HOST 0) s t ∧
      SameRest s t) ∧
    (∀ (ltssm : BitVec 4) (rate : BitVec 3) (width : BitVec 4) (flit dlUp : Bool),
      ∃ t : State, exec (.pcieLinkStateChange ltssm rate width flit dlUp) s = .next t ∧ t.fld Reg.HOST.LINK_STATUS 2 0 = rate.toNat ∧
        t.fld Reg.HOST.LINK_STATUS 7 4 = width.toNat ∧ t.bit Reg.HOST.LINK_STATUS 8 = flit ∧
        t.fld Reg.HOST.LINK_STATUS 15 12 = ltssm.toNat ∧ t.bit Reg.HOST.LINK_STATUS 16 = dlUp ∧
        (s.bit Reg.HOST.LINK_STATUS 16 = true → dlUp = false → t.bit Reg.HOST.LINK_EVENTS 0 = true ∧ t.pend .HOST 0 0 = true) ∧
        (rate.toNat ≠ s.fld Reg.HOST.LINK_STATUS 2 0 → t.bit Reg.HOST.LINK_EVENTS 1 = true ∧ t.pend .HOST 0 0 = true) ∧
        (width.toNat ≠ s.fld Reg.HOST.LINK_STATUS 7 4 → t.bit Reg.HOST.LINK_EVENTS 2 = true ∧ t.pend .HOST 0 0 = true) ∧
        Quiet ([Reg.HOST.LINK_STATUS, Reg.HOST.LINK_EVENTS] ++ irqOf .HOST 0) s t) ∧
    (∃ t : State, exec .pcieCompletionTimeout s = .next t ∧ Counts Reg.HOST.CTO_CNT 1 s t ∧ t.pend .HOST 0 2 = true ∧
      SameRegs (Reg.HOST.CTO_CNT :: irqOf .HOST 0) s t ∧ SameRest s t) ∧
    (∃ t : State, exec .pcieRefclkLoss s = .next t ∧ t.bit Reg.CLK.CLK_EVENTS 18 = true ∧ t.bit Reg.CLK.CLK_STATUS 18 = false ∧
      t.pend .CLK 0 2 = true ∧ Quiet ([Reg.CLK.CLK_EVENTS, Reg.CLK.CLK_STATUS] ++ irqOf .CLK 0) s t))

/-- O58. The pins (R733 to R738, R752). A MUX_CFG write that nothing stands against begins a switch, another leaves its reason,
sets CFG_ERR and raises source 27; the switch ends by attaching the new function; an accepted level is seen by an input
function and sets its event bit, which raises source 26. -/
def Obligations.Pins : Prop :=
  (∀ (s : State) (v : Word), s.live → s.hw.pin.cfg.length = 128 → s.accepts 0 Reg.PIN.MUX_CFG v = true →
    let b := s.fld Reg.PIN.MUX_SEL 6 0
    (s.muxReason b v = 0 → ∃ t : State, exec (.muxCfgWrite 0 v) s = .next t.settled ∧ t.muxCfg b = v &&& 0x0FFFFFFF ∧
      t.switching b = true ∧ t.ballFunc b = 0 ∧ SameRegs (hostTrail .PIN 0) s t ∧ t.es = s.es ∧ t.tsc = s.tsc ∧
      t.out = s.out ++ (if muxFunc (s.muxCfg b) = 2 ∨ muxFunc (s.muxCfg b) = 4 ∨ muxFunc (s.muxCfg b) = 7 then
        [.pinHiz (ballName b)] else [])) ∧
    (s.muxReason b v ≠ 0 → ∃ t : State, exec (.muxCfgWrite 0 v) s = .next t.settled ∧ t.hw.pin = s.hw.pin ∧
      t.fld Reg.PIN.LAST_REFUSE 6 0 = b ∧ t.fld Reg.PIN.LAST_REFUSE 23 16 = s.muxReason b v ∧
      t.bit (Reg.HDR.ERR_STATUS .PIN 0) 8 = true ∧ t.pend .PIN 0 1 = true ∧
      SameRegs ([Reg.PIN.LAST_REFUSE, Reg.HDR.ERR_STATUS .PIN 0] ++ irqOf .PIN 0 ++ hostTrail .PIN 0) s t ∧ t.es = s.es ∧
      t.tsc = s.tsc ∧ t.out = s.out)) ∧
  (∀ (s : State) (b : BitVec 7), s.live →
    (s.switching b.toNat = true → ∃ t : State, exec (.muxSwitchAttach b) s = .next t.settled ∧ t.switching b.toNat = false ∧
      t.ballFunc b.toNat = muxFunc (s.muxCfg b.toNat) ∧ Counts Reg.PIN.SWITCH_CNT 1 s t ∧
      (muxFunc (s.muxCfg b.toNat) = 2 → t.out = s.out ++ [.pin (ballName b.toNat) (s.gpioOut b.toNat)]) ∧
      (muxFunc (s.muxCfg b.toNat) = 5 → ∃ driven level, t.out = s.out ++ [.timing ((b.toNat - 64) / 16) driven level]) ∧
      (muxFunc (s.muxCfg b.toNat) ≠ 2 → muxFunc (s.muxCfg b.toNat) ≠ 5 → t.out = s.out) ∧
      SameRegs [Reg.PIN.SWITCH_CNT, Reg.PIN.GPIO_IN_LO, Reg.PIN.GPIO_IN_HI] s t ∧ t.mem = s.mem ∧ t.es = s.es ∧ t.tsc = s.tsc) ∧
    (s.switching b.toNat = false → exec (.muxSwitchAttach b) s = .next s.settled)) ∧
  (∀ (s : State) (b : BitVec 7) (level : Bool), s.live →
    let k := b.toNat
    let f := s.ballFunc k
    ∃ t : State, exec (.pinLevelAccept b level) s = .next t.settled ∧ t.hw.pin.level.getLsbD k = level ∧
      (f = 1 → s.hw.pin.level.getLsbD k ≠ level →
        (if k < 32 then t.bit Reg.PIN.GPIO_IN_LO k else t.bit Reg.PIN.GPIO_IN_HI (k - 32)) = (level != (s.muxCfg k).getLsbD 15)) ∧
      ((f = 1 ∨ f = 3 ∨ f = 6) → s.hw.pin.level.getLsbD k ≠ level →
        (s.muxCfg k).getLsbD (if (level != (s.muxCfg k).getLsbD 15) then 12 else 13) = true →
        t.bit (Reg.PIN.EVT_PEND (k / 32)) (k % 32) = true ∧ t.pend .PIN 0 0 = true) ∧
      (s.hw.pin.level.getLsbD k = level → t.regs = s.regs) ∧
      SameRegs ([Reg.PIN.GPIO_IN_LO, Reg.PIN.GPIO_IN_HI, Reg.PIN.EVT_PEND (k / 32)] ++ irqOf .PIN 0) s t ∧ SameRest s t)

/-! ### Rules of the manual as they stand -/

/-- O59. TSC_LOAD (R58): the value in TSC_SET is loaded when it is not less than the TSC; otherwise the TSC stays and the
load-rejected bit of the page's ERR_STATUS is set. -/
def Obligations.TscLoad : Prop :=
  ∀ (s : State) (v : Word), s.live → s.accepts 0 Reg.TSC.TSC_CMD (v ||| 1) = true →
    let x := s.rd64 Reg.TSC.TSC_SET_LO Reg.TSC.TSC_SET_HI
    (s.tsc.toNat ≤ x → ∃ t : State, exec (.tscLoad 0 v) s = .next t ∧ t.tsc = BitVec.ofNat 64 x ∧
      t.rd (Reg.HDR.ERR_STATUS .TSC 0) = s.rd (Reg.HDR.ERR_STATUS .TSC 0) ∧ t.es = s.es ∧ t.out = s.out) ∧
    (x < s.tsc.toNat → ∃ t : State, exec (.tscLoad 0 v) s = .next t ∧ t.tsc = s.tsc ∧
      t.bit (Reg.HDR.ERR_STATUS .TSC 0) 8 = true ∧ t.es = s.es ∧ t.out = s.out)

/-- O60. The long hold, the reset command and the rollback fuse (R709, R710, R715). SYS_RST_N low for more than 1 s sets HELD_LONG;
the release records the hold in HOLD_MS and the start after it raises source 32. RST_CMD with OP SYSTEM_RESET and the key starts
a system reset, is ignored while SYS_RST_N is low, and with another key is dropped and logged. COMMIT_ROLLBACK in READY
raises FUSE_ROLLBACK to the running image's ROLLBACK, which no reset takes back. -/
def Obligations.HoldResetAndFuse : Prop :=
  (∀ s : State, s.sound → s.hw.boot.pinLow = true → s.hw.boot.lowAt + 1000000000 < s.now →
    ∃ t : State, exec .resetHeldLong s = .next t.settled ∧ t.bit Reg.AON.RST_FLAGS 0 = true ∧ SameRegs [Reg.AON.RST_FLAGS] s t) ∧
  (∀ (s : State) (straps : BitVec 2), s.sound → s.hw.boot.pinLow = true →
    ∃ t : State, exec (.sysRstNRelease straps) s = .next t.settled ∧
      (t.rd Reg.AON.HOLD_MS).toNat = min ((s.now - s.hw.boot.lowAt) / 1000000) 4294967295 ∧
      (s.hw.boot.thermal = false → s.hw.pwr.coreOn = true → s.hw.boot.pfLow = false → s.bit Reg.AON.RST_FLAGS 0 = true →
        t.pend .AON 0 0 = true)) ∧
  (∀ (s : State) (v : Word), s.live →
    let w := setBits v 3 0 1
    (s.accepts 0 Reg.AON.RST_CMD w = true → bits v 31 16 = 0x5A3C → s.hw.boot.pinLow = false → s.hw.boot.returned = none →
      s.hw.boot.pfLow = false → s.hw.boot.railLost = false →
      ∃ t : State, exec (.systemReset 0 v) s = .next t.settled ∧ t.rd Reg.AON.RST_CAUSE = BitVec.ofNat 32 (2 ^ cSOFT) ∧
        (t.rd Reg.AON.RST_COUNT).toNat = min ((s.rd Reg.AON.RST_COUNT).toNat + 1) 4294967295 ∧
        (s.hw.pwr.coreOn = false → ∀ r : RegRef, lostReg resetKeeps r.key = true → r.key ∉ keptRegs.map (fun x => x.1.key) →
          r.blk ≠ .JRNL → t.rd r = r.resetVal)) ∧
    (s.accepts 0 Reg.AON.RST_CMD w = true → s.hw.boot.pinLow = true →
      ∃ t : State, exec (.systemReset 0 v) s = .next t.settled ∧ SameRegs (hostTrail .AON 0) s t ∧ t.es = s.es ∧ t.tsc = s.tsc) ∧
    (bits v 31 16 ≠ 0x5A3C → s.bit (Reg.HDR.ACC_ERR .AON 0) 24 = false →
      ∃ t : State, exec (.systemReset 0 v) s = .next t.settled ∧ t.fld (Reg.HDR.ACC_ERR .AON 0) 15 12 = 6 ∧
        t.bit (Reg.HDR.ACC_ERR .AON 0) 24 = true ∧ SameRegs (logOf .AON 0) s t ∧ SameRest s t)) ∧
  (∀ (s : State) (v : Word), s.live → s.accepts 0 Reg.AON.BOOT_CMD (setBits v 3 0 2) = true → bits v 31 16 = 0x5A3C →
    s.stage = bREADY → s.fld Reg.AON.FUSE_ROLLBACK 5 0 ≤ s.fld Reg.AON.BOOT_STATUS 21 16 →
    ∃ t : State, exec (.commitRollback 0 v) s = .next t.settled ∧
      t.fld Reg.AON.FUSE_ROLLBACK 5 0 = s.fld Reg.AON.BOOT_STATUS 21 16) ∧
  (∀ s : State, s.sound →
    (∃ t : State, exec .vddAonPowerOn s = .next t.settled ∧ t.rd Reg.AON.FUSE_ROLLBACK = s.rd Reg.AON.FUSE_ROLLBACK) ∧
    (∃ t : State, exec .sysRstNTaken s = .next t.settled ∧ t.rd Reg.AON.FUSE_ROLLBACK = s.rd Reg.AON.FUSE_ROLLBACK))
end

