-- ==== Sys2Proof/Laws/Lists.lean ====
section
/-! SUPPORT. Laws of the association lists: what a list holds after a put, and that a put keeps its canonical form. -/

namespace Sys2Proof.Machine

variable {α : Type} [DecidableEq α]

/-- Another key is found as before. -/
theorem alFind_alPut_ne {d v : α} {k k' : Nat} (h : k ≠ k') (l : List (Nat × α)) :
    alFind k' (alPut d k v l) = alFind k' l := by
  induction l with
  | nil => unfold alPut; split <;> simp [alFind, h]
  | cons x t ih =>
    obtain ⟨x, w⟩ := x
    unfold alPut
    split
    · split <;> simp [alFind, h]
    · split
      · subst x; split <;> simp [alFind, h]
      · simp [alFind, ih]

omit [DecidableEq α] in
/-- A key below every key of a list is not found there. -/
theorem alFind_below {k : Nat} {l : List (Nat × α)} (h : ∀ e ∈ l, k < e.1) : alFind k l = none := by
  induction l with
  | nil => rfl
  | cons x t ih =>
    have := h x (by simp)
    simp only [alFind]
    rw [if_neg (by omega), ih fun e he => h e (by simp [he])]

omit [DecidableEq α] in
/-- The tail of a rising list lies above its head. -/
theorem keysRise_cons {x : Nat × α} {t : List (Nat × α)} :
    keysRise (x :: t) ↔ (∀ e ∈ t, x.1 < e.1) ∧ keysRise t := by
  simp [keysRise, List.pairwise_cons]

/-- The key put is found with its value, or not at all when the value is the default. -/
theorem alFind_alPut_same {d v : α} {k : Nat} {l : List (Nat × α)} (h : keysRise l) :
    alFind k (alPut d k v l) = if v = d then none else some v := by
  induction l with
  | nil => unfold alPut; split <;> simp [alFind]
  | cons x t ih =>
    obtain ⟨x, w⟩ := x
    rw [keysRise_cons] at h
    unfold alPut
    split
    · rename_i hk
      split
      · exact alFind_below fun e he => by
          rcases List.mem_cons.1 he with rfl | he
          · exact hk
          · have := h.1 e he; simp at this; omega
      · simp [alFind]
    · split
      · subst x
        split
        · exact alFind_below h.1
        · simp [alFind]
      · simp only [alFind]
        rw [if_neg (by omega)]
        exact ih h.2

/-- What the list reads as at the key put. -/
theorem alGet_alPut_same {d v : α} {k : Nat} {l : List (Nat × α)} (h : keysRise l) : alGet d k (alPut d k v l) = v := by
  unfold alGet
  rw [alFind_alPut_same h]
  split <;> simp_all

/-- What the list reads as at another key. -/
theorem alGet_alPut_ne {d e v : α} {k k' : Nat} (h : k ≠ k') (l : List (Nat × α)) :
    alGet e k' (alPut d k v l) = alGet e k' l := by
  unfold alGet
  rw [alFind_alPut_ne h]

/-- An entry after a put is the one put or was there. -/
theorem mem_alPut {d v : α} {k : Nat} {l : List (Nat × α)} {e : Nat × α} (h : e ∈ alPut d k v l) :
    (e = (k, v) ∧ v ≠ d) ∨ e ∈ l := by
  induction l with
  | nil =>
    unfold alPut at h
    split at h <;> simp_all
  | cons x t ih =>
    obtain ⟨x, w⟩ := x
    unfold alPut at h
    split at h
    · split at h <;> simp_all
    · split at h
      · split at h
        · exact .inr (by simp [h])
        · simp at h; rcases h with h | h
          · exact .inl ⟨h, by assumption⟩
          · exact .inr (by simp [h])
      · simp only [List.mem_cons] at h
        rcases h with h | h
        · exact .inr (by simp [h])
        · rcases ih h with h | h
          · exact .inl h
          · exact .inr (by simp [h])

/-- A put keeps the keys rising. -/
theorem keysRise_alPut {d v : α} {k : Nat} {l : List (Nat × α)} (h : keysRise l) : keysRise (alPut d k v l) := by
  induction l with
  | nil => unfold alPut; split <;> simp [keysRise]
  | cons x t ih =>
    obtain ⟨x, w⟩ := x
    have h' := keysRise_cons.1 h
    unfold alPut
    split
    · rename_i hk
      split
      · exact h
      · refine keysRise_cons.2 ⟨fun e he => ?_, h⟩
        rcases List.mem_cons.1 he with rfl | he
        · exact hk
        · have := h'.1 e he; simp at this ⊢; omega
    · split
      · subst x
        split
        · exact h'.2
        · exact keysRise_cons.2 ⟨h'.1, h'.2⟩
      · refine keysRise_cons.2 ⟨fun e he => ?_, ih h'.2⟩
        rcases mem_alPut he with ⟨rfl, _⟩ | he
        · simp; omega
        · exact h'.1 e he

omit [DecidableEq α] in
/-- Leaving entries out keeps the keys rising. -/
theorem keysRise_filter {l : List (Nat × α)} (p : Nat × α → Bool) (h : keysRise l) : keysRise (l.filter p) :=
  h.sublist (List.filter_sublist.map _)

end Sys2Proof.Machine
end

