-- ==== Sys2Proof/Laws/State.lean ====
section
/-! SUPPORT. One lemma for each field of the state after each elementary change of it. -/

namespace Sys2Proof.Machine

@[simp] theorem setReg_mem (s : State) (r : RegRef) (v : Word) : (s.setReg r v).mem = s.mem := rfl
@[simp] theorem setReg_poison (s : State) (r : RegRef) (v : Word) : (s.setReg r v).poison = s.poison := rfl
@[simp] theorem setReg_es (s : State) (r : RegRef) (v : Word) : (s.setReg r v).es = s.es := rfl
@[simp] theorem setReg_tsc (s : State) (r : RegRef) (v : Word) : (s.setReg r v).tsc = s.tsc := rfl
@[simp] theorem setReg_out (s : State) (r : RegRef) (v : Word) : (s.setReg r v).out = s.out := rfl
@[simp] theorem setReg_freeCtr (s : State) (r : RegRef) (v : Word) : (s.setReg r v).freeCtr = s.freeCtr := rfl
@[simp] theorem setReg_hw (s : State) (r : RegRef) (v : Word) : (s.setReg r v).hw = s.hw := rfl
@[simp] theorem setReg_pending (s : State) (r : RegRef) (v : Word) : (s.setReg r v).pending = s.pending := rfl

@[simp] theorem setByte_regs (s : State) (a : Nat) (b : Byte) : (s.setByte a b).regs = s.regs := rfl
@[simp] theorem setByte_poison (s : State) (a : Nat) (b : Byte) : (s.setByte a b).poison = s.poison := rfl
@[simp] theorem setByte_es (s : State) (a : Nat) (b : Byte) : (s.setByte a b).es = s.es := rfl
@[simp] theorem setByte_tsc (s : State) (a : Nat) (b : Byte) : (s.setByte a b).tsc = s.tsc := rfl
@[simp] theorem setByte_out (s : State) (a : Nat) (b : Byte) : (s.setByte a b).out = s.out := rfl
@[simp] theorem setByte_freeCtr (s : State) (a : Nat) (b : Byte) : (s.setByte a b).freeCtr = s.freeCtr := rfl
@[simp] theorem setByte_hw (s : State) (a : Nat) (b : Byte) : (s.setByte a b).hw = s.hw := rfl
@[simp] theorem setByte_pending (s : State) (a : Nat) (b : Byte) : (s.setByte a b).pending = s.pending := rfl

@[simp] theorem mapHw_regs (s : State) (f : Hw → Hw) : (s.mapHw f).regs = s.regs := rfl
@[simp] theorem mapHw_mem (s : State) (f : Hw → Hw) : (s.mapHw f).mem = s.mem := rfl
@[simp] theorem mapHw_poison (s : State) (f : Hw → Hw) : (s.mapHw f).poison = s.poison := rfl
@[simp] theorem mapHw_es (s : State) (f : Hw → Hw) : (s.mapHw f).es = s.es := rfl
@[simp] theorem mapHw_tsc (s : State) (f : Hw → Hw) : (s.mapHw f).tsc = s.tsc := rfl
@[simp] theorem mapHw_out (s : State) (f : Hw → Hw) : (s.mapHw f).out = s.out := rfl
@[simp] theorem mapHw_freeCtr (s : State) (f : Hw → Hw) : (s.mapHw f).freeCtr = s.freeCtr := rfl
@[simp] theorem mapHw_hw (s : State) (f : Hw → Hw) : (s.mapHw f).hw = f s.hw := rfl
@[simp] theorem mapHw_pending (s : State) (f : Hw → Hw) : (s.mapHw f).pending = s.pending := rfl
@[simp] theorem rd_mapHw (s : State) (f : Hw → Hw) (r : RegRef) : (s.mapHw f).rd r = s.rd r := rfl
@[simp] theorem byte_mapHw (s : State) (f : Hw → Hw) (a : Nat) : (s.mapHw f).byte a = s.byte a := rfl

@[simp] theorem emit_regs (s : State) (o : Out) : (s.emit o).regs = s.regs := rfl
@[simp] theorem emit_mem (s : State) (o : Out) : (s.emit o).mem = s.mem := rfl
@[simp] theorem emit_poison (s : State) (o : Out) : (s.emit o).poison = s.poison := rfl
@[simp] theorem emit_es (s : State) (o : Out) : (s.emit o).es = s.es := rfl
@[simp] theorem emit_tsc (s : State) (o : Out) : (s.emit o).tsc = s.tsc := rfl
@[simp] theorem emit_out (s : State) (o : Out) : (s.emit o).out = s.out ++ [o] := rfl
@[simp] theorem emit_freeCtr (s : State) (o : Out) : (s.emit o).freeCtr = s.freeCtr := rfl
@[simp] theorem emit_hw (s : State) (o : Out) : (s.emit o).hw = s.hw := rfl
@[simp] theorem emit_pending (s : State) (o : Out) : (s.emit o).pending = s.pending := rfl
@[simp] theorem rd_emit (s : State) (o : Out) (r : RegRef) : (s.emit o).rd r = s.rd r := rfl
@[simp] theorem byte_emit (s : State) (o : Out) (a : Nat) : (s.emit o).byte a = s.byte a := rfl

@[simp] theorem useFree_regs (s : State) : (s.useFree).regs = s.regs := rfl
@[simp] theorem useFree_mem (s : State) : (s.useFree).mem = s.mem := rfl
@[simp] theorem useFree_poison (s : State) : (s.useFree).poison = s.poison := rfl
@[simp] theorem useFree_es (s : State) : (s.useFree).es = s.es := rfl
@[simp] theorem useFree_tsc (s : State) : (s.useFree).tsc = s.tsc := rfl
@[simp] theorem useFree_out (s : State) : (s.useFree).out = s.out := rfl
@[simp] theorem useFree_freeCtr (s : State) : (s.useFree).freeCtr = s.freeCtr + 1 := rfl
@[simp] theorem useFree_hw (s : State) : (s.useFree).hw = s.hw := rfl
@[simp] theorem useFree_pending (s : State) : (s.useFree).pending = s.pending := rfl
@[simp] theorem rd_useFree (s : State) (r : RegRef) : (s.useFree).rd r = s.rd r := rfl
@[simp] theorem byte_useFree (s : State) (a : Nat) : (s.useFree).byte a = s.byte a := rfl

@[simp] theorem setTsc_regs (s : State) (t : DWord) : (s.setTsc t).regs = s.regs := rfl
@[simp] theorem setTsc_mem (s : State) (t : DWord) : (s.setTsc t).mem = s.mem := rfl
@[simp] theorem setTsc_poison (s : State) (t : DWord) : (s.setTsc t).poison = s.poison := rfl
@[simp] theorem setTsc_es (s : State) (t : DWord) : (s.setTsc t).es = s.es := rfl
@[simp] theorem setTsc_tsc (s : State) (t : DWord) : (s.setTsc t).tsc = t := rfl
@[simp] theorem setTsc_out (s : State) (t : DWord) : (s.setTsc t).out = s.out := rfl
@[simp] theorem setTsc_freeCtr (s : State) (t : DWord) : (s.setTsc t).freeCtr = s.freeCtr := rfl
@[simp] theorem setTsc_hw (s : State) (t : DWord) : (s.setTsc t).hw = s.hw := rfl
@[simp] theorem setTsc_pending (s : State) (t : DWord) : (s.setTsc t).pending = s.pending := rfl
@[simp] theorem rd_setTsc (s : State) (t : DWord) (r : RegRef) : (s.setTsc t).rd r = s.rd r := rfl
@[simp] theorem byte_setTsc (s : State) (t : DWord) (a : Nat) : (s.setTsc t).byte a = s.byte a := rfl

@[simp] theorem byte_setReg (s : State) (r : RegRef) (v : Word) (a : Nat) : (s.setReg r v).byte a = s.byte a := rfl
@[simp] theorem rd_setByte (s : State) (a : Nat) (b : Byte) (r : RegRef) : (s.setByte a b).rd r = s.rd r := rfl

/-- Writing bytes leaves everything but memory alone. -/
@[simp] theorem setBytes_fields (s : State) (a : Nat) (l : List Byte) :
    (s.setBytes a l).regs = s.regs ∧ (s.setBytes a l).poison = s.poison ∧ (s.setBytes a l).es = s.es ∧
    (s.setBytes a l).tsc = s.tsc ∧ (s.setBytes a l).out = s.out ∧ (s.setBytes a l).freeCtr = s.freeCtr ∧
    (s.setBytes a l).hw = s.hw ∧ (s.setBytes a l).pending = s.pending := by
  induction l generalizing s a with
  | nil => simp [State.setBytes]
  | cons b t ih => simpa [State.setBytes] using ih (s.setByte a b) (a + 1)

@[simp] theorem setBytes_regs (s : State) (a : Nat) (l : List Byte) : (s.setBytes a l).regs = s.regs :=
  (setBytes_fields s a l).1
@[simp] theorem setBytes_poison (s : State) (a : Nat) (l : List Byte) : (s.setBytes a l).poison = s.poison :=
  (setBytes_fields s a l).2.1
@[simp] theorem setBytes_es (s : State) (a : Nat) (l : List Byte) : (s.setBytes a l).es = s.es :=
  (setBytes_fields s a l).2.2.1
@[simp] theorem setBytes_tsc (s : State) (a : Nat) (l : List Byte) : (s.setBytes a l).tsc = s.tsc :=
  (setBytes_fields s a l).2.2.2.1
@[simp] theorem setBytes_out (s : State) (a : Nat) (l : List Byte) : (s.setBytes a l).out = s.out :=
  (setBytes_fields s a l).2.2.2.2.1
@[simp] theorem setBytes_freeCtr (s : State) (a : Nat) (l : List Byte) : (s.setBytes a l).freeCtr = s.freeCtr :=
  (setBytes_fields s a l).2.2.2.2.2.1
@[simp] theorem setBytes_hw (s : State) (a : Nat) (l : List Byte) : (s.setBytes a l).hw = s.hw :=
  (setBytes_fields s a l).2.2.2.2.2.2.1
@[simp] theorem setBytes_pending (s : State) (a : Nat) (l : List Byte) : (s.setBytes a l).pending = s.pending :=
  (setBytes_fields s a l).2.2.2.2.2.2.2

@[simp] theorem apply_reg (s : State) (r : RegRef) (v : Word) : (Upd.reg r v).apply s = s.setReg r v := rfl
@[simp] theorem apply_tsc (s : State) (t : DWord) : (Upd.tsc t).apply s = s.setTsc t := rfl
@[simp] theorem apply_out (s : State) (o : Out) : (Upd.out o).apply s = s.emit o := rfl
@[simp] theorem apply_free (s : State) : Upd.free.apply s = s.useFree := rfl
@[simp] theorem apply_hw (s : State) (f : Hw → Hw) : (Upd.hw f).apply s = s.mapHw f := rfl
@[simp] theorem apply_poison (s : State) (w : Nat) : (Upd.poison w).apply s = { s with poison := alPut 0 w 1 s.poison } := rfl
@[simp] theorem apply_es (s : State) (a : Nat) (l : List Byte) : (Upd.es a l).apply s = { s with es := putEs a l s.es } := rfl
@[simp] theorem apply_dropEs (s : State) (p : Nat → Bool) :
    (Upd.dropEs p).apply s = { s with es := s.es.filter fun e => !p e.1 } := rfl
@[simp] theorem apply_dropMem (s : State) (p : Nat → Bool) :
    (Upd.dropMem p).apply s = { s with mem := s.mem.filter fun e => !p e.1 } := rfl
@[simp] theorem apply_resetRegs (s : State) (p : Nat → Bool) :
    (Upd.resetRegs p).apply s = { s with regs := s.regs.filter fun e => !p e.1 } := rfl

@[simp] theorem apply_bytes_regs (s : State) (a : Nat) (l : List Byte) : ((Upd.bytes a l).apply s).regs = s.regs :=
  setBytes_regs s a l
@[simp] theorem apply_bytes_mem (s : State) (a : Nat) (l : List Byte) :
    ((Upd.bytes a l).apply s).mem = (s.setBytes a l).mem := rfl
@[simp] theorem apply_bytes_es (s : State) (a : Nat) (l : List Byte) : ((Upd.bytes a l).apply s).es = s.es :=
  setBytes_es s a l
@[simp] theorem apply_bytes_tsc (s : State) (a : Nat) (l : List Byte) : ((Upd.bytes a l).apply s).tsc = s.tsc :=
  setBytes_tsc s a l
@[simp] theorem apply_bytes_out (s : State) (a : Nat) (l : List Byte) : ((Upd.bytes a l).apply s).out = s.out :=
  setBytes_out s a l
@[simp] theorem apply_bytes_freeCtr (s : State) (a : Nat) (l : List Byte) :
    ((Upd.bytes a l).apply s).freeCtr = s.freeCtr := setBytes_freeCtr s a l
@[simp] theorem apply_bytes_hw (s : State) (a : Nat) (l : List Byte) : ((Upd.bytes a l).apply s).hw = s.hw :=
  setBytes_hw s a l
@[simp] theorem apply_bytes_pending (s : State) (a : Nat) (l : List Byte) :
    ((Upd.bytes a l).apply s).pending = s.pending := setBytes_pending s a l

/-- No elementary change touches the queue. -/
@[simp] theorem apply_pending (u : Upd) (s : State) : (u.apply s).pending = s.pending := by
  cases u <;> first | rfl | exact apply_bytes_pending ..

end Sys2Proof.Machine
end

