-- ==== Sys2Proof/Laws/Act.lean ====
section
/-! SUPPORT. What holds of every elementary change holds of every program; programs run piece by piece. -/

namespace Sys2Proof.Machine

/-! ### Running a program -/

@[simp] theorem run_nil (s : State) : Act.nil.run s = s := rfl
@[simp] theorem run_upd (u : Upd) (s : State) : (Act.upd u).run s = u.apply s := rfl
@[simp] theorem run_seq (a b : Act) (s : State) : (Act.seq a b).run s = b.run (a.run s) := rfl
@[simp] theorem run_get (k : State → Act) (s : State) : (Act.get k).run s = (k s).run s := rfl
@[simp] theorem run_all_nil (s : State) : (Act.all []).run s = s := rfl
@[simp] theorem run_all_cons (a : Act) (l : List Act) (s : State) : (Act.all (a :: l)).run s = (Act.all l).run (a.run s) := rfl
@[simp] theorem run_when (b : Bool) (a : Act) (s : State) : (Act.when b a).run s = if b then a.run s else s := by
  cases b <;> rfl
@[simp] theorem run_ite (p : Prop) [Decidable p] (a b : Act) (s : State) :
    (if p then a else b).run s = if p then a.run s else b.run s := by split <;> rfl
@[simp] theorem run_each_nil {α : Type} (f : α → Act) (s : State) : (Act.each [] f).run s = s := rfl
@[simp] theorem run_each_cons {α : Type} (x : α) (l : List α) (f : α → Act) (s : State) :
    (Act.each (x :: l) f).run s = (Act.each l f).run ((f x).run s) := rfl

@[simp] theorem run_wr (r : RegRef) (v : Word) (s : State) : (Act.wr r v).run s = s.setReg r v := rfl
@[simp] theorem run_wrN (r : RegRef) (n : Nat) (s : State) : (Act.wrN r n).run s = s.setReg r (BitVec.ofNat 32 n) := rfl
@[simp] theorem run_modReg (r : RegRef) (f : Word → Word) (s : State) :
    (Act.modReg r f).run s = s.setReg r (f (s.rd r)) := rfl
@[simp] theorem run_setFld (r : RegRef) (hi lo n : Nat) (s : State) :
    (Act.setFld r hi lo n).run s = s.setReg r (setBits (s.rd r) hi lo n) := rfl
@[simp] theorem run_orReg (r : RegRef) (v : Word) (s : State) : (Act.orReg r v).run s = s.setReg r (s.rd r ||| v) := rfl
@[simp] theorem run_hw (f : Hw → Hw) (s : State) : (Act.hw f).run s = s.mapHw f := rfl
@[simp] theorem run_out (o : Out) (s : State) : (Act.out o).run s = s.emit o := rfl
@[simp] theorem run_bytes (a : Nat) (l : List Byte) (s : State) : (Act.bytes a l).run s = (Upd.bytes a l).apply s := rfl
@[simp] theorem run_mem (a k n : Nat) (s : State) : (Act.mem a k n).run s = (Upd.bytes a (leBytes k n)).apply s := rfl
@[simp] theorem run_event (e : Event) (s : State) :
    (Act.event e).run s = s.mapHw fun h => { h with events := h.events ++ [e] } := rfl

/-! ### What every elementary change keeps -/

/-- A property that every elementary change keeps is kept by every program. -/
theorem run_keeps {P : State → Prop} (h : ∀ u s, P s → P (Upd.apply u s)) (a : Act) (s : State) (hs : P s) : P (a.run s) := by
  induction a generalizing s with
  | nil => exact hs
  | upd u => exact h u s hs
  | seq a b iha ihb => exact ihb _ (iha _ hs)
  | get k ih => exact ih s s hs

/-- A relation to the first state that every elementary change keeps. -/
theorem run_grows {R : State → State → Prop} (refl : ∀ s, R s s) (trans : ∀ {a b c}, R a b → R b c → R a c)
    (h : ∀ u s, R s (Upd.apply u s)) (a : Act) (s : State) : R s (a.run s) := by
  induction a generalizing s with
  | nil => exact refl s
  | upd u => exact h u s
  | seq a b iha ihb => exact trans (iha s) (ihb _)
  | get k ih => exact ih s s

/-- No program touches the queue. -/
@[simp] theorem run_pending (a : Act) (s : State) : (a.run s).pending = s.pending :=
  run_grows (R := fun s t => t.pending = s.pending) (fun _ => rfl) (fun h k => k.trans h) (fun u s => apply_pending u s) a s

/-- What has left the block stays as it is; a program adds to it. -/
theorem run_out_prefix (a : Act) (s : State) : s.out <+: (a.run s).out := by
  refine run_grows (R := fun s t => s.out <+: t.out) (fun _ => List.prefix_rfl) (fun h k => h.trans k) (fun u s => ?_) a s
  cases u with
  | out o => exact List.prefix_append _ _
  | bytes a l => simp
  | _ => exact List.prefix_rfl

/-- The count of open values used never falls. -/
theorem run_freeCtr (a : Act) (s : State) : s.freeCtr ≤ (a.run s).freeCtr := by
  refine run_grows (R := fun s t => s.freeCtr ≤ t.freeCtr) (fun _ => Nat.le_refl _) Nat.le_trans (fun u s => ?_) a s
  cases u with
  | free => exact Nat.le_succ _
  | bytes a l => simp
  | _ => exact Nat.le_refl _

/-! ### Commands are programs -/

/-- A main-side command is a program. -/
theorem command_run (a : Act) (s : State) : ∃ b : Act, command a s = .next (b.run s) :=
  ⟨if s.hw.boot.inReset then .nil else .seq a settleAll, by unfold command; split <;> rfl⟩

/-- So is one from which nothing follows. -/
theorem simply_run (a : Act) (s : State) : ∃ b : Act, simply a s = .next (b.run s) :=
  ⟨if s.hw.boot.inReset then .nil else a, by unfold simply; split <;> rfl⟩

/-- So is one that acts in reset, too. -/
theorem always_run (a : Act) (s : State) : ∃ b : Act, always a s = .next (b.run s) := ⟨.seq a settleAll, rfl⟩

/-- What a main-side command answers out of reset. -/
theorem command_eq {a : Act} {s : State} (h : s.hw.boot.inReset = false) : command a s = .next (a.run s).settled := by
  simp [command, State.settled, h]

/-- What one from which nothing follows answers out of reset. -/
theorem simply_eq {a : Act} {s : State} (h : s.hw.boot.inReset = false) : simply a s = .next (a.run s) := by
  simp [simply, h]

/-- What a command that acts in reset, too, answers. -/
theorem always_eq (a : Act) (s : State) : always a s = .next (a.run s).settled := rfl

end Sys2Proof.Machine
end

