-- ==== Sys2Proof/Laws/Array.lean ====
section
/-! SUPPORT. What the checks of the matrix array rest on: without a fault both sides of each comparison of R137 are equal,
and the map of R144 loses no logical index. -/

namespace Sys2Proof.Machine

/-- R137: a row's group partial sums add up to its row check. -/
theorem rowCheckVal_eq (w x : Nat → Nat → Int) (g : Finset Nat) (c m : Nat) :
    rowCheckVal w x g c m = (Finset.range c).sum fun n => partialSum w x g m n := by
  simp only [rowCheckVal, rowSum, partialSum, Finset.mul_sum]
  exact Finset.sum_comm

/-- R137: the output for the checksum weight row is the sum of what the accepted rows have written. -/
theorem tileEndVal_eq (w x : Nat → Nat → Int) (g acc : Finset Nat) (n : Nat) :
    tileEndVal w x g acc n = acc.sum fun m => partialSum w x g m n := by
  simp only [tileEndVal, checksumWeight, partialSum, Finset.sum_mul]
  exact Finset.sum_comm

/-- R144: the physical index of a logical one serves it. -/
theorem logIndex_physIndex (f j : Nat) : logIndex f (physIndex f j) = some j := by
  unfold logIndex physIndex
  split <;> rename_i h
  · rw [if_neg (by omega)]
  · rw [if_neg (by omega), if_neg (by omega)]; simp

/-- R144: no logical index falls on the replaced one. -/
theorem physIndex_ne (f j : Nat) : physIndex f j ≠ f := by unfold physIndex; split <;> omega

/-- R138: no difference, no mismatch. -/
theorem differs_zero (half : Bool) (big : Nat) : differs half big 0 = false := by cases half <;> simp [differs]

/-- R137: checks that nothing has changed do not fail. -/
theorem rowMismatch_nil (half : Bool) (big sh : Nat) : rowMismatch half big sh [] [] = false := rfl

theorem tileMismatch_nil (half : Bool) (big : Nat) : tileMismatch half big [] [] = false := rfl

/-- R139: one wrong group sum of a row fails its row check in an exact format. -/
theorem rowMismatch_one (big sh g k : Nat) (d : Int) (h : d ≠ 0) : rowMismatch false big sh [(g, k, d)] [] = true := by
  simp [rowMismatch, rowDiff, deltaSum, differs, h]

end Sys2Proof.Machine
end

