-- ==== Sys2Proof/Laws/PerInstr.lean ====
section
/-! SUPPORT. For every command, one lemma: it is a program of elementary changes run on the state, and so answers a next
state. -/

namespace Sys2Proof.Laws

open Sys2Proof.Machine

/-- A command is a program of elementary changes. -/
def Runs.Statement (c : Instr) : Prop := ∀ s : State, ∃ b : Act, exec c s = .next (b.run s)

theorem Runs.registerWrite (f : Fin 32) (addr : BitVec 26) (data : List Byte) : Runs.Statement (.registerWrite f addr data) :=
  fun s => command_run _ s
theorem Runs.readClear (f : Fin 32) (addr : BitVec 26) : Runs.Statement (.readClear f addr) :=
  fun s => command_run _ s
theorem Runs.unpopulatedAccess (addr : BitVec 26) (isRead : Bool) : Runs.Statement (.unpopulatedAccess addr isRead) :=
  fun s => simply_run _ s
theorem Runs.unalignedRead (addr : BitVec 26) (n : Nat) : Runs.Statement (.unalignedRead addr n) :=
  fun s => simply_run _ s
theorem Runs.bar2InvalidWrite (f : Fin 32) (off : BitVec 16) (n : Nat) : Runs.Statement (.bar2InvalidWrite f off n) :=
  fun s => simply_run _ s
theorem Runs.bar4Write (addr : BitVec 27) (data : List (Option Byte) × List (BitVec 45 × EccError)) : Runs.Statement (.bar4Write addr data) :=
  fun s => command_run _ s
theorem Runs.bar4Read (addr : BitVec 27) (n : Nat × List (BitVec 45 × EccError)) : Runs.Statement (.bar4Read addr n) :=
  fun s => command_run _ s
theorem Runs.lockCmd (f : Fin 32) (v : Word) : Runs.Statement (.lockCmd f v) :=
  fun s => simply_run _ s
theorem Runs.irqPendSet (f : Fin 32) (slot : BitVec 14) (v : Word) : Runs.Statement (.irqPendSet f slot v) :=
  fun s => simply_run _ s
theorem Runs.irqPendClr (f : Fin 32) (slot : BitVec 14) (v : Word) : Runs.Statement (.irqPendClr f slot v) :=
  fun s => simply_run _ s
theorem Runs.irqMaskSet (f : Fin 32) (slot : BitVec 14) (v : Word) : Runs.Statement (.irqMaskSet f slot v) :=
  fun s => simply_run _ s
theorem Runs.irqMaskClr (f : Fin 32) (slot : BitVec 14) (v : Word) : Runs.Statement (.irqMaskClr f slot v) :=
  fun s => simply_run _ s
theorem Runs.commonsScrub (c : Fin 16) (w : BitVec 20) (e : EccError) : Runs.Statement (.commonsScrub c w e) :=
  fun s => command_run _ s
theorem Runs.unitReceive (slot : BitVec 14) (u : DUnit) : Runs.Statement (.unitReceive slot u) :=
  fun s => command_run _ s
theorem Runs.linkUnitArrive (k : Fin 4) (u : DUnit) : Runs.Statement (.linkUnitArrive k u) :=
  fun s => command_run _ s
theorem Runs.tscSleepTick : Runs.Statement .tscSleepTick :=
  fun s => simply_run _ s
theorem Runs.tscLoad (f : Fin 32) (v : Word) : Runs.Statement (.tscLoad f v) :=
  fun s => simply_run _ s
theorem Runs.clrCoarse (f : Fin 32) (v : Word) : Runs.Statement (.clrCoarse f v) :=
  fun s => simply_run _ s
theorem Runs.tscLoRead (f : Fin 32) : Runs.Statement (.tscLoRead f) :=
  fun s => simply_run _ s
theorem Runs.pgenRun (f : Fin 32) (g : Fin 4) (v : Word) : Runs.Statement (.pgenRun f g v) :=
  fun s => command_run _ s
theorem Runs.pgenStateEnd (g : Fin 4) (raw : List (BitVec 16)) : Runs.Statement (.pgenStateEnd g raw) :=
  fun s => command_run _ s
theorem Runs.darkLoopStep (g : Fin 4) (c : Fin 13) : Runs.Statement (.darkLoopStep g c) :=
  fun s => simply_run _ s
theorem Runs.shadowSettled (g : Fin 4) : Runs.Statement (.shadowSettled g) :=
  fun s => simply_run _ s
theorem Runs.afeChannelSwitch (g : Fin 4) : Runs.Statement (.afeChannelSwitch g) :=
  fun s => simply_run _ s
theorem Runs.pmDataHiWrite (f : Fin 32) (g : Fin 4) (v : Word) : Runs.Statement (.pmDataHiWrite f g v) :=
  fun s => simply_run _ s
theorem Runs.trigCmd (f : Fin 32) (g : Fin 4) (v : Word) : Runs.Statement (.trigCmd f g v) :=
  fun s => command_run _ s
theorem Runs.divFracWrite (f : Fin 32) (n : Fin 8) (v : Word) : Runs.Statement (.divFracWrite f n v) :=
  fun s => simply_run _ s
theorem Runs.encoderEdge (n : Fin 8) (forward : Bool) (bothPhases : Bool) : Runs.Statement (.encoderEdge n forward bothPhases) :=
  fun s => command_run _ s
theorem Runs.overspeedTimerTrigger (n : Fin 8) : Runs.Statement (.overspeedTimerTrigger n) :=
  fun s => command_run _ s
theorem Runs.encoderStall (n : Fin 8) : Runs.Statement (.encoderStall n) :=
  fun s => command_run _ s
theorem Runs.encoderLineFault (n : Fin 8) : Runs.Statement (.encoderLineFault n) :=
  fun s => command_run _ s
theorem Runs.cxpPacket (n : Fin 8) (e : CameraEvent) : Runs.Statement (.cxpPacket n e) :=
  fun s => command_run _ s
theorem Runs.cxpCmdRead (f : Fin 32) (n : Fin 8) (v : Word) : Runs.Statement (.cxpCmdRead f n v) :=
  fun s => simply_run _ s
theorem Runs.cxpCmdWrite (f : Fin 32) (n : Fin 8) (v : Word) : Runs.Statement (.cxpCmdWrite f n v) :=
  fun s => simply_run _ s
theorem Runs.cxpControlReply (n : Fin 8) (ack : Byte) (data : Word) : Runs.Statement (.cxpControlReply n ack data) :=
  fun s => simply_run _ s
theorem Runs.cxpEventPacket (n : Fin 8) (heartbeat : Bool) (w : Word) : Runs.Statement (.cxpEventPacket n heartbeat w) :=
  fun s => simply_run _ s
theorem Runs.cxpLinkLost (n : Fin 8) (link : Fin 4) : Runs.Statement (.cxpLinkLost n link) :=
  fun s => simply_run _ s
theorem Runs.csiPacket (n : Fin 16) (vc : BitVec 2) (e : CameraEvent) : Runs.Statement (.csiPacket n vc e) :=
  fun s => command_run _ s
theorem Runs.lineComplete (p : Fin 16) : Runs.Statement (.lineComplete p) :=
  fun s => command_run _ s
theorem Runs.postLinesDone (p : Fin 16) : Runs.Statement (.postLinesDone p) :=
  fun s => command_run _ s
theorem Runs.bandDeliver (p : Fin 16) : Runs.Statement (.bandDeliver p) :=
  fun s => command_run _ s
theorem Runs.pathWaitExpiry (p : Fin 16) : Runs.Statement (.pathWaitExpiry p) :=
  fun s => command_run _ s
theorem Runs.destHeadWrite (f : Fin 32) (p : Fin 16) (v : Word) : Runs.Statement (.destHeadWrite f p v) :=
  fun s => command_run _ s
theorem Runs.gateEdge (gate : Fin 16) (level : Bool) : Runs.Statement (.gateEdge gate level) :=
  fun s => command_run _ s
theorem Runs.pathOpen (f : Fin 32) (p : Fin 16) (v : Word) : Runs.Statement (.pathOpen f p v) :=
  fun s => command_run _ s
theorem Runs.pathClose (f : Fin 32) (p : Fin 16) (v : Word) : Runs.Statement (.pathClose f p v) :=
  fun s => command_run _ s
theorem Runs.pathEnable (f : Fin 32) (p : Fin 16) (v : Word) : Runs.Statement (.pathEnable f p v) :=
  fun s => command_run _ s
theorem Runs.pathDisable (f : Fin 32) (p : Fin 16) (v : Word) : Runs.Statement (.pathDisable f p v) :=
  fun s => command_run _ s
theorem Runs.sweepOpenMessage (item : BitVec 48) (stamp : DWord) (prof : BitVec 6) : Runs.Statement (.sweepOpenMessage item stamp prof) :=
  fun s => command_run _ s
theorem Runs.sweepCloseMessage (item : BitVec 48) (stamp : DWord) (prof : BitVec 6) : Runs.Statement (.sweepCloseMessage item stamp prof) :=
  fun s => command_run _ s
theorem Runs.engineRun (f : Fin 32) (p : Fin 36) (v : Word) : Runs.Statement (.engineRun f p v) :=
  fun s => command_run _ s
theorem Runs.engineDrain (f : Fin 32) (p : Fin 36) (v : Word) : Runs.Statement (.engineDrain f p v) :=
  fun s => command_run _ s
theorem Runs.engDiagStart (f : Fin 32) (p : Fin 36) (v : Word) : Runs.Statement (.engDiagStart f p v) :=
  fun s => command_run _ s
theorem Runs.fceDiagStart (f : Fin 32) (s : Fin 4) (v : Word) : Runs.Statement (.fceDiagStart f s v) :=
  fun s => command_run _ s
theorem Runs.matmul (c : BitVec 8) (d : BitVec 512) : Runs.Statement (.matmul c d) :=
  fun s => command_run _ s
theorem Runs.convolve (c : BitVec 8) (d : BitVec 512) : Runs.Statement (.convolve c d) :=
  fun s => command_run _ s
theorem Runs.attention (c : BitVec 8) (d : BitVec 512) : Runs.Statement (.attention c d) :=
  fun s => command_run _ s
theorem Runs.crop (c : BitVec 8) (d : BitVec 512) : Runs.Statement (.crop c d) :=
  fun s => command_run _ s
theorem Runs.argmax (c : BitVec 8) (d : BitVec 512) : Runs.Statement (.argmax c d) :=
  fun s => command_run _ s
theorem Runs.sample (c : BitVec 8) (d : BitVec 512) : Runs.Statement (.sample c d) :=
  fun s => command_run _ s
theorem Runs.tokenise (c : BitVec 8) (d : BitVec 512) : Runs.Statement (.tokenise c d) :=
  fun s => command_run _ s
theorem Runs.detokenise (c : BitVec 8) (d : BitVec 512) : Runs.Statement (.detokenise c d) :=
  fun s => command_run _ s
theorem Runs.mask (c : BitVec 8) (d : BitVec 512) (next : BitVec 512) : Runs.Statement (.mask c d next) :=
  fun s => command_run _ s
theorem Runs.jpeg (c : BitVec 8) (d : BitVec 512) : Runs.Statement (.jpeg c d) :=
  fun s => command_run _ s
theorem Runs.augment (c : BitVec 8) (d : BitVec 512) : Runs.Statement (.augment c d) :=
  fun s => command_run _ s
theorem Runs.copy (c : BitVec 8) (d : BitVec 512) : Runs.Statement (.copy c d) :=
  fun s => command_run _ s
theorem Runs.put (c : BitVec 8) (d : BitVec 512) : Runs.Statement (.put c d) :=
  fun s => command_run _ s
theorem Runs.get (c : BitVec 8) (d : BitVec 512) : Runs.Statement (.get c d) :=
  fun s => command_run _ s
theorem Runs.signal (c : BitVec 8) (d : BitVec 512) : Runs.Statement (.signal c d) :=
  fun s => command_run _ s
theorem Runs.wait (c : BitVec 8) (d : BitVec 512) : Runs.Statement (.wait c d) :=
  fun s => command_run _ s
theorem Runs.allgather (c : BitVec 8) (d : BitVec 512) : Runs.Statement (.allgather c d) :=
  fun s => command_run _ s
theorem Runs.allreduce (c : BitVec 8) (d : BitVec 512) : Runs.Statement (.allreduce c d) :=
  fun s => command_run _ s
theorem Runs.broadcast (c : BitVec 8) (d : BitVec 512) : Runs.Statement (.broadcast c d) :=
  fun s => command_run _ s
theorem Runs.barrier (c : BitVec 8) (d : BitVec 512) : Runs.Statement (.barrier c d) :=
  fun s => command_run _ s
theorem Runs.commandPlace : Runs.Statement .commandPlace :=
  fun s => command_run _ s
theorem Runs.emptyCommandComplete (id : Nat) : Runs.Statement (.emptyCommandComplete id) :=
  fun s => command_run _ s
theorem Runs.zeroKComplete (p : Fin 36) : Runs.Statement (.zeroKComplete p) :=
  fun s => command_run _ s
theorem Runs.prePassDone (p : Fin 36 × StoreRead) : Runs.Statement (.prePassDone p) :=
  fun s => command_run _ s
theorem Runs.shapeChange (p : Fin 36) : Runs.Statement (.shapeChange p) :=
  fun s => command_run _ s
theorem Runs.stationaryLoadDone (p : Fin 36) (rd : StoreRead) : Runs.Statement (.stationaryLoadDone p rd) :=
  fun s => command_run _ s
theorem Runs.engineStoreScrub (p : Fin 36) (w : BitVec 19) (e : EccError) : Runs.Statement (.engineStoreScrub p w e) :=
  fun s => command_run _ s
theorem Runs.rowCheck (p : Fin 36) (row : Nat) (found : StoreRead × CheckAlt) : Runs.Statement (.rowCheck p row found) :=
  fun s => command_run _ s
theorem Runs.arrayDiagnosticDone (p : Fin 36) (r : DiagResult) (spareOk : Bool) : Runs.Statement (.arrayDiagnosticDone p r spareOk) :=
  fun s => command_run _ s
theorem Runs.tileEndCheck (p : Fin 36) (alt : CheckAlt) : Runs.Statement (.tileEndCheck p alt) :=
  fun s => command_run _ s
theorem Runs.vectorInstruction (p : Fin 36) (i : VecInstr × StoreRead × List (Nat × Int)) : Runs.Statement (.vectorInstruction p i) :=
  fun s => command_run _ s
theorem Runs.dummyRampStep (p : Fin 36) : Runs.Statement (.dummyRampStep p) :=
  fun s => command_run _ s
theorem Runs.transThreshReached (u : ArrayUnit) : Runs.Statement (.transThreshReached u) :=
  fun s => command_run _ s
theorem Runs.fceWeightLoadDone (s : Fin 4) (parityError : Bool) : Runs.Statement (.fceWeightLoadDone s parityError) :=
  fun s => command_run _ s
theorem Runs.fceOutputPosition (s : Fin 4) (found : Bool × List (Fin 66 × Int)) : Runs.Statement (.fceOutputPosition s found) :=
  fun s => command_run _ s
theorem Runs.fceDiagnosticDone (s : Fin 4) (located : Option (BitVec 7)) : Runs.Statement (.fceDiagnosticDone s located) :=
  fun s => command_run _ s
theorem Runs.commitPoint (id : Nat) (m : PartEnd) : Runs.Statement (.commitPoint id m) :=
  fun s => command_run _ s
theorem Runs.commit (id : Nat) : Runs.Statement (.commit id) :=
  fun s => command_run _ s
theorem Runs.lctExpiry (id : Nat) : Runs.Statement (.lctExpiry id) :=
  fun s => command_run _ s
theorem Runs.submissionDoorbell (f : Fin 32) (c : BitVec 8) (v : Word) : Runs.Statement (.submissionDoorbell f c v) :=
  fun s => command_run _ s
theorem Runs.completionDoorbell (f : Fin 32) (c : BitVec 8) (v : Word) : Runs.Statement (.completionDoorbell f c v) :=
  fun s => command_run _ s
theorem Runs.ctxStart (f : Fin 32) (v : Word) : Runs.Statement (.ctxStart f v) :=
  fun s => command_run _ s
theorem Runs.ctxStop (f : Fin 32) (v : Word) : Runs.Statement (.ctxStop f v) :=
  fun s => command_run _ s
theorem Runs.ctxTeardown (f : Fin 32) (v : Word) : Runs.Statement (.ctxTeardown f v) :=
  fun s => command_run _ s
theorem Runs.teardownComplete (c : BitVec 8) : Runs.Statement (.teardownComplete c) :=
  fun s => command_run _ s
theorem Runs.ctxReport (f : Fin 32) (v : Word) : Runs.Statement (.ctxReport f v) :=
  fun s => command_run _ s
theorem Runs.reportPeriodExpiry : Runs.Statement .reportPeriodExpiry :=
  fun s => command_run _ s
theorem Runs.ctxVtLoRead (f : Fin 32) : Runs.Statement (.ctxVtLoRead f) :=
  fun s => simply_run _ s
theorem Runs.preempt : Runs.Statement .preempt :=
  fun s => command_run _ s
theorem Runs.cheapPointReached (id : Nat) (j : Fin 7) : Runs.Statement (.cheapPointReached id j) :=
  fun s => command_run _ s
theorem Runs.saveDone (id : Nat) : Runs.Statement (.saveDone id) :=
  fun s => command_run _ s
theorem Runs.restoreDone (id : Nat) : Runs.Statement (.restoreDone id) :=
  fun s => command_run _ s
theorem Runs.remoteWaitTimeout (id : Nat) : Runs.Statement (.remoteWaitTimeout id) :=
  fun s => command_run _ s
theorem Runs.quarantineArrival (id : Nat) (gen : Nat) : Runs.Statement (.quarantineArrival id gen) :=
  fun s => command_run _ s
theorem Runs.attentionPartialArrive (id : Nat) (idx : Fin 8) (u : DUnit) : Runs.Statement (.attentionPartialArrive id idx u) :=
  fun s => command_run _ s
theorem Runs.evictionScanComplete (s : Fin 4) : Runs.Statement (.evictionScanComplete s) :=
  fun s => command_run _ s
theorem Runs.pausedSequenceResume : Runs.Statement .pausedSequenceResume :=
  fun s => command_run _ s
theorem Runs.labMissWalk (p : Fin 36) (seq : BitVec 16) (page : BitVec 32) : Runs.Statement (.labMissWalk p seq page) :=
  fun s => simply_run _ s
theorem Runs.translationFill (w : Fin 4 × Bool) : Runs.Statement (.translationFill w) :=
  fun s => command_run _ s
theorem Runs.kvwEnable (f : Fin 32) (s : Fin 4) (v : Word) : Runs.Statement (.kvwEnable f s v) :=
  fun s => command_run _ s
theorem Runs.seqRelease (f : Fin 32) (s : Fin 4) (v : Word) : Runs.Statement (.seqRelease f s v) :=
  fun s => command_run _ s
theorem Runs.seqTruncate (f : Fin 32) (s : Fin 4) (v : Word) : Runs.Statement (.seqTruncate f s v) :=
  fun s => command_run _ s
theorem Runs.seqPin (f : Fin 32) (s : Fin 4) (v : Word) : Runs.Statement (.seqPin f s v) :=
  fun s => command_run _ s
theorem Runs.seqUnpin (f : Fin 32) (s : Fin 4) (v : Word) : Runs.Statement (.seqUnpin f s v) :=
  fun s => command_run _ s
theorem Runs.vocabLoad (f : Fin 32) (v : Word) : Runs.Statement (.vocabLoad f v) :=
  fun s => command_run _ s
theorem Runs.vocabUnload (f : Fin 32) (v : Word) : Runs.Statement (.vocabUnload f v) :=
  fun s => command_run _ s
theorem Runs.csetLoad (f : Fin 32) (v : Word) : Runs.Statement (.csetLoad f v) :=
  fun s => command_run _ s
theorem Runs.csetUnload (f : Fin 32) (v : Word) : Runs.Statement (.csetUnload f v) :=
  fun s => command_run _ s
theorem Runs.csetDeferredApply : Runs.Statement .csetDeferredApply :=
  fun s => command_run _ s
theorem Runs.vcacheMissFill (line : BitVec 58) (byMask : Bool) (parityError : Bool) : Runs.Statement (.vcacheMissFill line byMask parityError) :=
  fun s => simply_run _ s
theorem Runs.maskRequestStart : Runs.Statement .maskRequestStart :=
  fun s => command_run _ s
theorem Runs.maskEntry (i : Nat) : Runs.Statement (.maskEntry i) :=
  fun s => command_run _ s
theorem Runs.maskLimitExpiry : Runs.Statement .maskLimitExpiry :=
  fun s => command_run _ s
theorem Runs.tSwExpiry (item : BitVec 48) : Runs.Statement (.tSwExpiry item) :=
  fun s => command_run _ s
theorem Runs.tEmitExpiry (item : BitVec 48) : Runs.Statement (.tEmitExpiry item) :=
  fun s => command_run _ s
theorem Runs.holdLastRelease (item : BitVec 48) : Runs.Statement (.holdLastRelease item) :=
  fun s => command_run _ s
theorem Runs.sweepCandidateArrive (dev : BitVec 3) (item : BitVec 48) (r : DecisionRecord) (invalid : Bool) : Runs.Statement (.sweepCandidateArrive dev item r invalid) :=
  fun s => command_run _ s
theorem Runs.ssiSample (f : Fin 32) (v : Word) : Runs.Statement (.ssiSample f v) :=
  fun s => simply_run _ s
theorem Runs.ssiTrigger : Runs.Statement .ssiTrigger :=
  fun s => simply_run _ s
theorem Runs.ssiBurstDone (frames : List SsiFrame) : Runs.Statement (.ssiBurstDone frames) :=
  fun s => command_run _ s
theorem Runs.tsnFrameReceive (t : Fin 4) (fr : TsnFrame) : Runs.Statement (.tsnFrameReceive t fr) :=
  fun s => command_run _ s
theorem Runs.tsnSyncReceive (t : Fin 4) (asTime : DWord) (rate : Int) (interval : Word) (pdelay : Word) : Runs.Statement (.tsnSyncReceive t asTime rate interval pdelay) :=
  fun s => simply_run _ s
theorem Runs.tsnSyncLoss (t : Fin 4) : Runs.Statement (.tsnSyncLoss t) :=
  fun s => simply_run _ s
theorem Runs.tsnLinkDown (t : Fin 4) : Runs.Statement (.tsnLinkDown t) :=
  fun s => command_run _ s
theorem Runs.tsnLinkUp (t : Fin 4) (verified : Bool) : Runs.Statement (.tsnLinkUp t verified) :=
  fun s => command_run _ s
theorem Runs.gclApply (f : Fin 32) (t : Fin 4) (v : Word) : Runs.Statement (.gclApply f t v) :=
  fun s => command_run _ s
theorem Runs.gclEntryExpiry (t : Fin 4) : Runs.Statement (.gclEntryExpiry t) :=
  fun s => command_run _ s
theorem Runs.loopEnable (f : Fin 32) (l : Fin 8) (v : Word) : Runs.Statement (.loopEnable f l v) :=
  fun s => command_run _ s
theorem Runs.loopDisable (f : Fin 32) (l : Fin 8) (v : Word) : Runs.Statement (.loopDisable f l v) :=
  fun s => command_run _ s
theorem Runs.ceuStrobe (l : Fin 8) : Runs.Statement (.ceuStrobe l) :=
  fun s => command_run _ s
theorem Runs.ceuSampleTrigger (l : Fin 8) : Runs.Statement (.ceuSampleTrigger l) :=
  fun s => simply_run _ s
theorem Runs.ceuCutoff (l : Fin 8) : Runs.Statement (.ceuCutoff l) :=
  fun s => command_run _ s
theorem Runs.ceuLaunch (l : Fin 8) : Runs.Statement (.ceuLaunch l) :=
  fun s => command_run _ s
theorem Runs.percCloseExpiry (l : Fin 8) : Runs.Statement (.percCloseExpiry l) :=
  fun s => command_run _ s
theorem Runs.mboxSend (f : Fin 32) (g : Fin 32) (v : Word) : Runs.Statement (.mboxSend f g v) :=
  fun s => simply_run _ s
theorem Runs.mboxAck (f : Fin 32) (g : Fin 32) (v : Word) : Runs.Statement (.mboxAck f g v) :=
  fun s => simply_run _ s
theorem Runs.vfFlr (g : Fin 32) : Runs.Statement (.vfFlr g) :=
  fun s => command_run _ s
theorem Runs.pfFlr : Runs.Statement .pfFlr :=
  fun s => command_run _ s
theorem Runs.vfEnableClear : Runs.Statement .vfEnableClear :=
  fun s => command_run _ s
theorem Runs.irqEoi (f : Fin 32) (g : Fin 32) (v : Word) : Runs.Statement (.irqEoi f g v) :=
  fun s => simply_run _ s
theorem Runs.srcPendSet (f : Fin 32) (g : Fin 4) (w : Fin 8) (v : Word) : Runs.Statement (.srcPendSet f g w v) :=
  fun s => simply_run _ s
theorem Runs.srcPendClr (f : Fin 32) (g : Fin 4) (w : Fin 8) (v : Word) : Runs.Statement (.srcPendClr f g w v) :=
  fun s => simply_run _ s
theorem Runs.srcMaskSet (f : Fin 32) (g : Fin 4) (w : Fin 8) (v : Word) : Runs.Statement (.srcMaskSet f g w v) :=
  fun s => simply_run _ s
theorem Runs.srcMaskClr (f : Fin 32) (g : Fin 4) (w : Fin 8) (v : Word) : Runs.Statement (.srcMaskClr f g w v) :=
  fun s => simply_run _ s
theorem Runs.srcStormClear (f : Fin 32) (g : Fin 4) (w : Fin 8) (v : Word) : Runs.Statement (.srcStormClear f g w v) :=
  fun s => simply_run _ s
theorem Runs.srcCfgWrite (f : Fin 32) (g : Fin 4) (i : BitVec 8) (v : Word) : Runs.Statement (.srcCfgWrite f g i v) :=
  fun s => simply_run _ s
theorem Runs.vecMaskSet (f : Fin 32) (g : Fin 32) (hi : Bool) (v : Word) : Runs.Statement (.vecMaskSet f g hi v) :=
  fun s => simply_run _ s
theorem Runs.vecMaskClr (f : Fin 32) (g : Fin 32) (hi : Bool) (v : Word) : Runs.Statement (.vecMaskClr f g hi v) :=
  fun s => simply_run _ s
theorem Runs.gathererSelect (g : Fin 32) (vec : BitVec 6) : Runs.Statement (.gathererSelect g vec) :=
  fun s => simply_run _ s
theorem Runs.stormWindowExpiry (src : BitVec 10) : Runs.Statement (.stormWindowExpiry src) :=
  fun s => simply_run _ s
theorem Runs.moderationTimerExpiry (g : Fin 32) (vec : BitVec 6) : Runs.Statement (.moderationTimerExpiry g vec) :=
  fun s => simply_run _ s
theorem Runs.heldMessageRelease (g : Fin 32) (vec : BitVec 6) : Runs.Statement (.heldMessageRelease g vec) :=
  fun s => simply_run _ s
theorem Runs.linkReachesL0 : Runs.Statement .linkReachesL0 :=
  fun s => simply_run _ s
theorem Runs.safeEnable (f : Fin 32) (v : Word) : Runs.Statement (.safeEnable f v) :=
  fun s => command_run _ s
theorem Runs.arm (f : Fin 32) (v : Word) : Runs.Statement (.arm f v) :=
  fun s => command_run _ s
theorem Runs.restart (f : Fin 32) (v : Word) : Runs.Statement (.restart f v) :=
  fun s => command_run _ s
theorem Runs.forceSafe (f : Fin 32) (v : Word) : Runs.Statement (.forceSafe f v) :=
  fun s => command_run _ s
theorem Runs.safeTestDone (fails : List (BitVec 16)) (toSafe : Bool) : Runs.Statement (.safeTestDone fails toSafe) :=
  fun s => command_run _ s
theorem Runs.channelResultArrive (chB : Bool) (u : DUnit) : Runs.Statement (.channelResultArrive chB u) :=
  fun s => command_run _ s
theorem Runs.pairWaitExpiry (item : BitVec 48) : Runs.Statement (.pairWaitExpiry item) :=
  fun s => command_run _ s
theorem Runs.confirmationSliceDone (pass : Bool) : Runs.Statement (.confirmationSliceDone pass) :=
  fun s => command_run _ s
theorem Runs.degLimitExpiry : Runs.Statement .degLimitExpiry :=
  fun s => command_run _ s
theorem Runs.verdictAgeExpiry : Runs.Statement .verdictAgeExpiry :=
  fun s => command_run _ s
theorem Runs.pinHoldExpiry : Runs.Statement .pinHoldExpiry :=
  fun s => command_run _ s
theorem Runs.outputReadback (a : Bool) (b : Bool) : Runs.Statement (.outputReadback a b) :=
  fun s => command_run _ s
theorem Runs.testPulse (outB : Bool) (followed : Bool) : Runs.Statement (.testPulse outB followed) :=
  fun s => command_run _ s
theorem Runs.smsgPeriodExpiry : Runs.Statement .smsgPeriodExpiry :=
  fun s => command_run _ s
theorem Runs.statusFrameLate : Runs.Statement .statusFrameLate :=
  fun s => command_run _ s
theorem Runs.routeFaultClear : Runs.Statement .routeFaultClear :=
  fun s => command_run _ s
theorem Runs.selfTestSlice (miss : Option (BitVec 16)) : Runs.Statement (.selfTestSlice miss) :=
  fun s => command_run _ s
theorem Runs.lockstepMismatch : Runs.Statement .lockstepMismatch :=
  fun s => command_run _ s
theorem Runs.safeClockDeviation : Runs.Statement .safeClockDeviation :=
  fun s => command_run _ s
theorem Runs.wdKick (f : Fin 32) (w : BitVec 6) (v : Word) : Runs.Statement (.wdKick f w v) :=
  fun s => command_run _ s
theorem Runs.watchdogLateExpiry (w : BitVec 6) : Runs.Statement (.watchdogLateExpiry w) :=
  fun s => command_run _ s
theorem Runs.reqSend (f : Fin 32) (v : Word) : Runs.Statement (.reqSend f v) :=
  fun s => simply_run _ s
theorem Runs.halSet : Runs.Statement .halSet :=
  fun s => always_run _ s
theorem Runs.halAuditRead : Runs.Statement .halAuditRead :=
  fun s => always_run _ s
theorem Runs.halIdent (crc : Word) : Runs.Statement (.halIdent crc) :=
  fun s => always_run _ s
theorem Runs.halZero : Runs.Statement .halZero :=
  fun s => always_run _ s
theorem Runs.halTare : Runs.Statement .halTare :=
  fun s => always_run _ s
theorem Runs.halTareClear : Runs.Statement .halTareClear :=
  fun s => always_run _ s
theorem Runs.replyArrive : Runs.Statement .replyArrive :=
  fun s => simply_run _ s
theorem Runs.weighingWindowEnd (w : Weighing) : Runs.Statement (.weighingWindowEnd w) :=
  fun s => always_run _ s
theorem Runs.resultRecordArrive (r : Word × Bool) : Runs.Statement (.resultRecordArrive r) :=
  fun s => command_run _ s
theorem Runs.resPop (f : Fin 32) (v : Word) : Runs.Statement (.resPop f v) :=
  fun s => command_run _ s
theorem Runs.statusFrameArrive : Runs.Statement .statusFrameArrive :=
  fun s => simply_run _ s
theorem Runs.laneLost : Runs.Statement .laneLost :=
  fun s => simply_run _ s
theorem Runs.firmwareCheck (crc : Word) : Runs.Statement (.firmwareCheck crc) :=
  fun s => always_run _ s
theorem Runs.islandStart (crc : Word) (auditOk : Bool) (convOk : Bool) : Runs.Statement (.islandStart crc auditOk convOk) :=
  fun s => always_run _ s
theorem Runs.halRstN : Runs.Statement .halRstN :=
  fun s => always_run _ s
theorem Runs.halPowerFailWarning (low : Bool) : Runs.Statement (.halPowerFailWarning low) :=
  fun s => always_run _ s
theorem Runs.corePowerStart (railsOk : Bool) (vinMv : BitVec 16) (straps : BitVec 2) : Runs.Statement (.corePowerStart railsOk vinMv straps) :=
  fun s => always_run _ s
theorem Runs.railLost (rail : BitVec 4) : Runs.Statement (.railLost rail) :=
  fun s => always_run _ s
theorem Runs.ilimReached : Runs.Statement .ilimReached :=
  fun s => simply_run _ s
theorem Runs.avsStep (slackPs : Int) (above1ms : Bool) : Runs.Statement (.avsStep slackPs above1ms) :=
  fun s => command_run _ s
theorem Runs.phaseFailure (ph : Fin 26) (short : Bool) : Runs.Statement (.phaseFailure ph short) :=
  fun s => simply_run _ s
theorem Runs.sparePhaseIn : Runs.Statement .sparePhaseIn :=
  fun s => simply_run _ s
theorem Runs.senseFailure (ph : Fin 26) : Runs.Statement (.senseFailure ph) :=
  fun s => simply_run _ s
theorem Runs.stripeFreqChange (s : Fin 4) (code : Fin 3) : Runs.Statement (.stripeFreqChange s code) :=
  fun s => command_run _ s
theorem Runs.pllLockLoss (pll : Fin 13) : Runs.Statement (.pllLockLoss pll) :=
  fun s => command_run _ s
theorem Runs.refClockCheck (refPpm : Int) (aonFault : Bool) : Runs.Statement (.refClockCheck refPpm aonFault) :=
  fun s => command_run _ s
theorem Runs.powerEstimate (activity : List Nat) (iout : BitVec 16) (other : BitVec 16) : Runs.Statement (.powerEstimate activity iout other) :=
  fun s => command_run _ s
theorem Runs.estCorrUpdate : Runs.Statement .estCorrUpdate :=
  fun s => simply_run _ s
theorem Runs.capStep (fast : BitVec 16) (projected : BitVec 16) : Runs.Statement (.capStep fast projected) :=
  fun s => command_run _ s
theorem Runs.irlWindow (s : Fin 4) (wanted : List Nat) : Runs.Statement (.irlWindow s wanted) :=
  fun s => simply_run _ s
theorem Runs.droopDetect (s : Fin 4) (belowMv : BitVec 8) : Runs.Statement (.droopDetect s belowMv) :=
  fun s => simply_run _ s
theorem Runs.stretchEnd (s : Fin 4) (cycles : Word) : Runs.Statement (.stretchEnd s cycles) :=
  fun s => simply_run _ s
theorem Runs.thermalRead (temps : List Int) : Runs.Statement (.thermalRead temps) :=
  fun s => always_run _ s
theorem Runs.shiftReport (need : BitVec 9) : Runs.Statement (.shiftReport need) :=
  fun s => simply_run _ s
theorem Runs.shiftAllocate (reports : List PowerReport) : Runs.Statement (.shiftAllocate reports) :=
  fun s => simply_run _ s
theorem Runs.allocationReceive (w : BitVec 9) : Runs.Statement (.allocationReceive w) :=
  fun s => simply_run _ s
theorem Runs.allocationTimeout : Runs.Statement .allocationTimeout :=
  fun s => simply_run _ s
theorem Runs.standby (f : Fin 32) (v : Word) : Runs.Statement (.standby f v) :=
  fun s => command_run _ s
theorem Runs.deepSleep (f : Fin 32) (v : Word) (linkL2 : Bool) (wakeNow : Bool) : Runs.Statement (.deepSleep f v linkL2 wakeNow) :=
  fun s => command_run _ s
theorem Runs.wake (f : Fin 32) (v : Word) : Runs.Statement (.wake f v) :=
  fun s => command_run _ s
theorem Runs.wakeLink : Runs.Statement .wakeLink :=
  fun s => command_run _ s
theorem Runs.wakeTimer : Runs.Statement .wakeTimer :=
  fun s => command_run _ s
theorem Runs.idleEntry : Runs.Statement .idleEntry :=
  fun s => command_run _ s
theorem Runs.clockGateEntry (slot : BitVec 14) : Runs.Statement (.clockGateEntry slot) :=
  fun s => simply_run _ s
theorem Runs.retentionEntry (u : ArrayUnit) : Runs.Statement (.retentionEntry u) :=
  fun s => simply_run _ s
theorem Runs.memcPowerDown (m : Fin 8) : Runs.Statement (.memcPowerDown m) :=
  fun s => simply_run _ s
theorem Runs.memcScrub (m : Fin 8) (addr : BitVec 33) (e : EccError) : Runs.Statement (.memcScrub m addr e) :=
  fun s => command_run _ s
theorem Runs.dramTempReport (m : Fin 8) (mult : BitVec 4) : Runs.Statement (.dramTempReport m mult) :=
  fun s => simply_run _ s
theorem Runs.linkEnable (f : Fin 32) (k : Fin 4) (v : Word) : Runs.Statement (.linkEnable f k v) :=
  fun s => command_run _ s
theorem Runs.linkTrained (k : Fin 4) (peerDev : BitVec 3) (peerPort : BitVec 2) (delayPs : Word) : Runs.Statement (.linkTrained k peerDev peerPort delayPs) :=
  fun s => command_run _ s
theorem Runs.deviceNumbering (peers : List PeerInfo) : Runs.Statement (.deviceNumbering peers) :=
  fun s => command_run _ s
theorem Runs.flitReceive (k : Fin 4) (fl : Flit) : Runs.Statement (.flitReceive k fl) :=
  fun s => command_run _ s
theorem Runs.laneFailure (k : Fin 4) (lane : Fin 5) : Runs.Statement (.laneFailure k lane) :=
  fun s => command_run _ s
theorem Runs.laneWorn (k : Fin 4) (lane : Fin 5) : Runs.Statement (.laneWorn k lane) :=
  fun s => command_run _ s
theorem Runs.equalisationUpdate (k : Fin 4) : Runs.Statement (.equalisationUpdate k) :=
  fun s => simply_run _ s
theorem Runs.linkTimeout (k : Fin 4) : Runs.Statement (.linkTimeout k) :=
  fun s => command_run _ s
theorem Runs.routeRecompute (paths : List RoutePath) : Runs.Statement (.routeRecompute paths) :=
  fun s => command_run _ s
theorem Runs.syncExchange (k : Fin 4) (t1 : DWord) (t2 : DWord) (t3 : DWord) (t4 : DWord) : Runs.Statement (.syncExchange k t1 t2 t3 t4) :=
  fun s => simply_run _ s
theorem Runs.alignedSet : Runs.Statement .alignedSet :=
  fun s => simply_run _ s
theorem Runs.remoteAccessRequest (dev : BitVec 3) (r : RemoteAccess) : Runs.Statement (.remoteAccessRequest dev r) :=
  fun s => command_run _ s
theorem Runs.importUnitArrive (u : DUnit) : Runs.Statement (.importUnitArrive u) :=
  fun s => command_run _ s
theorem Runs.darn (f : Fin 32) (v : Word) : Runs.Statement (.darn f v) :=
  fun s => command_run _ s
theorem Runs.darnRepeat (f : Fin 32) (v : Word) : Runs.Statement (.darnRepeat f v) :=
  fun s => command_run _ s
theorem Runs.unfail (f : Fin 32) (v : Word) : Runs.Statement (.unfail f v) :=
  fun s => command_run _ s
theorem Runs.clearPending (f : Fin 32) (v : Word) : Runs.Statement (.clearPending f v) :=
  fun s => command_run _ s
theorem Runs.darnOperationStart : Runs.Statement .darnOperationStart :=
  fun s => command_run _ s
theorem Runs.spareTestDone (pass : Bool) : Runs.Statement (.spareTestDone pass) :=
  fun s => command_run _ s
theorem Runs.darnSwitch (atCommit : Bool) : Runs.Statement (.darnSwitch atCommit) :=
  fun s => command_run _ s
theorem Runs.darnMapCommit : Runs.Statement .darnMapCommit :=
  fun s => command_run _ s
theorem Runs.wearRead (t : DarnTarget) (value : BitVec 16) (worn : Bool) : Runs.Statement (.wearRead t value worn) :=
  fun s => command_run _ s
theorem Runs.sysRstNTaken : Runs.Statement .sysRstNTaken :=
  fun s => always_run _ s
theorem Runs.resetHeldLong : Runs.Statement .resetHeldLong :=
  fun s => always_run _ s
theorem Runs.sysRstNRelease (straps : BitVec 2) : Runs.Statement (.sysRstNRelease straps) :=
  fun s => always_run _ s
theorem Runs.systemReset (f : Fin 32) (v : Word) : Runs.Statement (.systemReset f v) :=
  fun s => command_run _ s
theorem Runs.vddAonPowerOn : Runs.Statement .vddAonPowerOn :=
  fun s => always_run _ s
theorem Runs.pcieReset : Runs.Statement .pcieReset :=
  fun s => command_run _ s
theorem Runs.bootImageCheck (slotB : Bool) (img : BootImage) : Runs.Statement (.bootImageCheck slotB img) :=
  fun s => command_run _ s
theorem Runs.loadHost (f : Fin 32) (v : Word) (chk : ImageChecks) : Runs.Statement (.loadHost f v chk) :=
  fun s => command_run _ s
theorem Runs.commitRollback (f : Fin 32) (v : Word) : Runs.Statement (.commitRollback f v) :=
  fun s => command_run _ s
theorem Runs.startupTestsDone (r : StartupResult) : Runs.Statement (.startupTestsDone r) :=
  fun s => command_run _ s
theorem Runs.pwrFailNFall : Runs.Statement .pwrFailNFall :=
  fun s => always_run _ s
theorem Runs.pwrFailNRise (railsOk : Bool) : Runs.Statement (.pwrFailNRise railsOk) :=
  fun s => always_run _ s
theorem Runs.brownoutReset : Runs.Statement .brownoutReset :=
  fun s => always_run _ s
theorem Runs.muxCfgWrite (f : Fin 32) (v : Word) : Runs.Statement (.muxCfgWrite f v) :=
  fun s => command_run _ s
theorem Runs.muxSwitchAttach (b : BitVec 7) : Runs.Statement (.muxSwitchAttach b) :=
  fun s => command_run _ s
theorem Runs.pinLevelAccept (b : BitVec 7) (level : Bool) : Runs.Statement (.pinLevelAccept b level) :=
  fun s => command_run _ s
theorem Runs.encTimerTrigger (n : Fin 8) : Runs.Statement (.encTimerTrigger n) :=
  fun s => command_run _ s
theorem Runs.cxpLinkDiscovery (n : Fin 8) (link : Fin 4) (speed : BitVec 4) : Runs.Statement (.cxpLinkDiscovery n link speed) :=
  fun s => simply_run _ s
theorem Runs.cbHistoryReset (t : Fin 4) (i : Fin 32) : Runs.Statement (.cbHistoryReset t i) :=
  fun s => simply_run _ s
theorem Runs.augTestGo (f : Fin 32) (v : Word) : Runs.Statement (.augTestGo f v) :=
  fun s => simply_run _ s
theorem Runs.gclDataWrite (f : Fin 32) (t : Fin 4) (v : Word) : Runs.Statement (.gclDataWrite f t v) :=
  fun s => simply_run _ s
theorem Runs.relTscLoRead (f : Fin 32) (t : Fin 4) : Runs.Statement (.relTscLoRead f t) :=
  fun s => simply_run _ s
theorem Runs.degLimitWarning : Runs.Statement .degLimitWarning :=
  fun s => command_run _ s
theorem Runs.islandClockDeviation : Runs.Statement .islandClockDeviation :=
  fun s => always_run _ s
theorem Runs.ilimRelease : Runs.Statement .ilimRelease :=
  fun s => simply_run _ s
theorem Runs.memcPeriodicRetrain (m : Fin 8) (corrected : Bool) (failed : Bool) : Runs.Statement (.memcPeriodicRetrain m corrected failed) :=
  fun s => simply_run _ s
theorem Runs.pcieConfigWrite (g : Fin 32) (w : ConfigWrite) : Runs.Statement (.pcieConfigWrite g w) :=
  fun s => command_run _ s
theorem Runs.pcieLinkStateChange (ltssm : BitVec 4) (rate : BitVec 3) (width : BitVec 4) (flit : Bool) (dlUp : Bool) : Runs.Statement (.pcieLinkStateChange ltssm rate width flit dlUp) :=
  fun s => simply_run _ s
theorem Runs.pcieCompletionTimeout : Runs.Statement .pcieCompletionTimeout :=
  fun s => simply_run _ s
theorem Runs.pcieRefclkLoss : Runs.Statement .pcieRefclkLoss :=
  fun s => simply_run _ s
theorem Runs.safeDisable (f : Fin 32) (v : Word) : Runs.Statement (.safeDisable f v) :=
  fun s => command_run _ s
theorem Runs.halParameterGet : Runs.Statement .halParameterGet :=
  fun s => always_run _ s

/-- Every command answers a next state, by a program of elementary changes. -/
theorem exec_runs (c : Instr) : Runs.Statement c := by
  cases c with
  | registerWrite f addr data => exact Runs.registerWrite f addr data
  | readClear f addr => exact Runs.readClear f addr
  | unpopulatedAccess addr isRead => exact Runs.unpopulatedAccess addr isRead
  | unalignedRead addr n => exact Runs.unalignedRead addr n
  | bar2InvalidWrite f off n => exact Runs.bar2InvalidWrite f off n
  | bar4Write addr data => exact Runs.bar4Write addr data
  | bar4Read addr n => exact Runs.bar4Read addr n
  | lockCmd f v => exact Runs.lockCmd f v
  | irqPendSet f slot v => exact Runs.irqPendSet f slot v
  | irqPendClr f slot v => exact Runs.irqPendClr f slot v
  | irqMaskSet f slot v => exact Runs.irqMaskSet f slot v
  | irqMaskClr f slot v => exact Runs.irqMaskClr f slot v
  | commonsScrub c w e => exact Runs.commonsScrub c w e
  | unitReceive slot u => exact Runs.unitReceive slot u
  | linkUnitArrive k u => exact Runs.linkUnitArrive k u
  | tscSleepTick => exact Runs.tscSleepTick
  | tscLoad f v => exact Runs.tscLoad f v
  | clrCoarse f v => exact Runs.clrCoarse f v
  | tscLoRead f => exact Runs.tscLoRead f
  | pgenRun f g v => exact Runs.pgenRun f g v
  | pgenStateEnd g raw => exact Runs.pgenStateEnd g raw
  | darkLoopStep g c => exact Runs.darkLoopStep g c
  | shadowSettled g => exact Runs.shadowSettled g
  | afeChannelSwitch g => exact Runs.afeChannelSwitch g
  | pmDataHiWrite f g v => exact Runs.pmDataHiWrite f g v
  | trigCmd f g v => exact Runs.trigCmd f g v
  | divFracWrite f n v => exact Runs.divFracWrite f n v
  | encoderEdge n forward bothPhases => exact Runs.encoderEdge n forward bothPhases
  | overspeedTimerTrigger n => exact Runs.overspeedTimerTrigger n
  | encoderStall n => exact Runs.encoderStall n
  | encoderLineFault n => exact Runs.encoderLineFault n
  | cxpPacket n e => exact Runs.cxpPacket n e
  | cxpCmdRead f n v => exact Runs.cxpCmdRead f n v
  | cxpCmdWrite f n v => exact Runs.cxpCmdWrite f n v
  | cxpControlReply n ack data => exact Runs.cxpControlReply n ack data
  | cxpEventPacket n heartbeat w => exact Runs.cxpEventPacket n heartbeat w
  | cxpLinkLost n link => exact Runs.cxpLinkLost n link
  | csiPacket n vc e => exact Runs.csiPacket n vc e
  | lineComplete p => exact Runs.lineComplete p
  | postLinesDone p => exact Runs.postLinesDone p
  | bandDeliver p => exact Runs.bandDeliver p
  | pathWaitExpiry p => exact Runs.pathWaitExpiry p
  | destHeadWrite f p v => exact Runs.destHeadWrite f p v
  | gateEdge gate level => exact Runs.gateEdge gate level
  | pathOpen f p v => exact Runs.pathOpen f p v
  | pathClose f p v => exact Runs.pathClose f p v
  | pathEnable f p v => exact Runs.pathEnable f p v
  | pathDisable f p v => exact Runs.pathDisable f p v
  | sweepOpenMessage item stamp prof => exact Runs.sweepOpenMessage item stamp prof
  | sweepCloseMessage item stamp prof => exact Runs.sweepCloseMessage item stamp prof
  | engineRun f p v => exact Runs.engineRun f p v
  | engineDrain f p v => exact Runs.engineDrain f p v
  | engDiagStart f p v => exact Runs.engDiagStart f p v
  | fceDiagStart f s v => exact Runs.fceDiagStart f s v
  | matmul c d => exact Runs.matmul c d
  | convolve c d => exact Runs.convolve c d
  | attention c d => exact Runs.attention c d
  | crop c d => exact Runs.crop c d
  | argmax c d => exact Runs.argmax c d
  | sample c d => exact Runs.sample c d
  | tokenise c d => exact Runs.tokenise c d
  | detokenise c d => exact Runs.detokenise c d
  | mask c d next => exact Runs.mask c d next
  | jpeg c d => exact Runs.jpeg c d
  | augment c d => exact Runs.augment c d
  | copy c d => exact Runs.copy c d
  | put c d => exact Runs.put c d
  | get c d => exact Runs.get c d
  | signal c d => exact Runs.signal c d
  | wait c d => exact Runs.wait c d
  | allgather c d => exact Runs.allgather c d
  | allreduce c d => exact Runs.allreduce c d
  | broadcast c d => exact Runs.broadcast c d
  | barrier c d => exact Runs.barrier c d
  | commandPlace => exact Runs.commandPlace
  | emptyCommandComplete id => exact Runs.emptyCommandComplete id
  | zeroKComplete p => exact Runs.zeroKComplete p
  | prePassDone p => exact Runs.prePassDone p
  | shapeChange p => exact Runs.shapeChange p
  | stationaryLoadDone p rd => exact Runs.stationaryLoadDone p rd
  | engineStoreScrub p w e => exact Runs.engineStoreScrub p w e
  | rowCheck p row found => exact Runs.rowCheck p row found
  | arrayDiagnosticDone p r spareOk => exact Runs.arrayDiagnosticDone p r spareOk
  | tileEndCheck p alt => exact Runs.tileEndCheck p alt
  | vectorInstruction p i => exact Runs.vectorInstruction p i
  | dummyRampStep p => exact Runs.dummyRampStep p
  | transThreshReached u => exact Runs.transThreshReached u
  | fceWeightLoadDone s parityError => exact Runs.fceWeightLoadDone s parityError
  | fceOutputPosition s found => exact Runs.fceOutputPosition s found
  | fceDiagnosticDone s located => exact Runs.fceDiagnosticDone s located
  | commitPoint id m => exact Runs.commitPoint id m
  | commit id => exact Runs.commit id
  | lctExpiry id => exact Runs.lctExpiry id
  | submissionDoorbell f c v => exact Runs.submissionDoorbell f c v
  | completionDoorbell f c v => exact Runs.completionDoorbell f c v
  | ctxStart f v => exact Runs.ctxStart f v
  | ctxStop f v => exact Runs.ctxStop f v
  | ctxTeardown f v => exact Runs.ctxTeardown f v
  | teardownComplete c => exact Runs.teardownComplete c
  | ctxReport f v => exact Runs.ctxReport f v
  | reportPeriodExpiry => exact Runs.reportPeriodExpiry
  | ctxVtLoRead f => exact Runs.ctxVtLoRead f
  | preempt => exact Runs.preempt
  | cheapPointReached id j => exact Runs.cheapPointReached id j
  | saveDone id => exact Runs.saveDone id
  | restoreDone id => exact Runs.restoreDone id
  | remoteWaitTimeout id => exact Runs.remoteWaitTimeout id
  | quarantineArrival id gen => exact Runs.quarantineArrival id gen
  | attentionPartialArrive id idx u => exact Runs.attentionPartialArrive id idx u
  | evictionScanComplete s => exact Runs.evictionScanComplete s
  | pausedSequenceResume => exact Runs.pausedSequenceResume
  | labMissWalk p seq page => exact Runs.labMissWalk p seq page
  | translationFill w => exact Runs.translationFill w
  | kvwEnable f s v => exact Runs.kvwEnable f s v
  | seqRelease f s v => exact Runs.seqRelease f s v
  | seqTruncate f s v => exact Runs.seqTruncate f s v
  | seqPin f s v => exact Runs.seqPin f s v
  | seqUnpin f s v => exact Runs.seqUnpin f s v
  | vocabLoad f v => exact Runs.vocabLoad f v
  | vocabUnload f v => exact Runs.vocabUnload f v
  | csetLoad f v => exact Runs.csetLoad f v
  | csetUnload f v => exact Runs.csetUnload f v
  | csetDeferredApply => exact Runs.csetDeferredApply
  | vcacheMissFill line byMask parityError => exact Runs.vcacheMissFill line byMask parityError
  | maskRequestStart => exact Runs.maskRequestStart
  | maskEntry i => exact Runs.maskEntry i
  | maskLimitExpiry => exact Runs.maskLimitExpiry
  | tSwExpiry item => exact Runs.tSwExpiry item
  | tEmitExpiry item => exact Runs.tEmitExpiry item
  | holdLastRelease item => exact Runs.holdLastRelease item
  | sweepCandidateArrive dev item r invalid => exact Runs.sweepCandidateArrive dev item r invalid
  | ssiSample f v => exact Runs.ssiSample f v
  | ssiTrigger => exact Runs.ssiTrigger
  | ssiBurstDone frames => exact Runs.ssiBurstDone frames
  | tsnFrameReceive t fr => exact Runs.tsnFrameReceive t fr
  | tsnSyncReceive t asTime rate interval pdelay => exact Runs.tsnSyncReceive t asTime rate interval pdelay
  | tsnSyncLoss t => exact Runs.tsnSyncLoss t
  | tsnLinkDown t => exact Runs.tsnLinkDown t
  | tsnLinkUp t verified => exact Runs.tsnLinkUp t verified
  | gclApply f t v => exact Runs.gclApply f t v
  | gclEntryExpiry t => exact Runs.gclEntryExpiry t
  | loopEnable f l v => exact Runs.loopEnable f l v
  | loopDisable f l v => exact Runs.loopDisable f l v
  | ceuStrobe l => exact Runs.ceuStrobe l
  | ceuSampleTrigger l => exact Runs.ceuSampleTrigger l
  | ceuCutoff l => exact Runs.ceuCutoff l
  | ceuLaunch l => exact Runs.ceuLaunch l
  | percCloseExpiry l => exact Runs.percCloseExpiry l
  | mboxSend f g v => exact Runs.mboxSend f g v
  | mboxAck f g v => exact Runs.mboxAck f g v
  | vfFlr g => exact Runs.vfFlr g
  | pfFlr => exact Runs.pfFlr
  | vfEnableClear => exact Runs.vfEnableClear
  | irqEoi f g v => exact Runs.irqEoi f g v
  | srcPendSet f g w v => exact Runs.srcPendSet f g w v
  | srcPendClr f g w v => exact Runs.srcPendClr f g w v
  | srcMaskSet f g w v => exact Runs.srcMaskSet f g w v
  | srcMaskClr f g w v => exact Runs.srcMaskClr f g w v
  | srcStormClear f g w v => exact Runs.srcStormClear f g w v
  | srcCfgWrite f g i v => exact Runs.srcCfgWrite f g i v
  | vecMaskSet f g hi v => exact Runs.vecMaskSet f g hi v
  | vecMaskClr f g hi v => exact Runs.vecMaskClr f g hi v
  | gathererSelect g vec => exact Runs.gathererSelect g vec
  | stormWindowExpiry src => exact Runs.stormWindowExpiry src
  | moderationTimerExpiry g vec => exact Runs.moderationTimerExpiry g vec
  | heldMessageRelease g vec => exact Runs.heldMessageRelease g vec
  | linkReachesL0 => exact Runs.linkReachesL0
  | safeEnable f v => exact Runs.safeEnable f v
  | arm f v => exact Runs.arm f v
  | restart f v => exact Runs.restart f v
  | forceSafe f v => exact Runs.forceSafe f v
  | safeTestDone fails toSafe => exact Runs.safeTestDone fails toSafe
  | channelResultArrive chB u => exact Runs.channelResultArrive chB u
  | pairWaitExpiry item => exact Runs.pairWaitExpiry item
  | confirmationSliceDone pass => exact Runs.confirmationSliceDone pass
  | degLimitExpiry => exact Runs.degLimitExpiry
  | verdictAgeExpiry => exact Runs.verdictAgeExpiry
  | pinHoldExpiry => exact Runs.pinHoldExpiry
  | outputReadback a b => exact Runs.outputReadback a b
  | testPulse outB followed => exact Runs.testPulse outB followed
  | smsgPeriodExpiry => exact Runs.smsgPeriodExpiry
  | statusFrameLate => exact Runs.statusFrameLate
  | routeFaultClear => exact Runs.routeFaultClear
  | selfTestSlice miss => exact Runs.selfTestSlice miss
  | lockstepMismatch => exact Runs.lockstepMismatch
  | safeClockDeviation => exact Runs.safeClockDeviation
  | wdKick f w v => exact Runs.wdKick f w v
  | watchdogLateExpiry w => exact Runs.watchdogLateExpiry w
  | reqSend f v => exact Runs.reqSend f v
  | halSet => exact Runs.halSet
  | halAuditRead => exact Runs.halAuditRead
  | halIdent crc => exact Runs.halIdent crc
  | halZero => exact Runs.halZero
  | halTare => exact Runs.halTare
  | halTareClear => exact Runs.halTareClear
  | replyArrive => exact Runs.replyArrive
  | weighingWindowEnd w => exact Runs.weighingWindowEnd w
  | resultRecordArrive r => exact Runs.resultRecordArrive r
  | resPop f v => exact Runs.resPop f v
  | statusFrameArrive => exact Runs.statusFrameArrive
  | laneLost => exact Runs.laneLost
  | firmwareCheck crc => exact Runs.firmwareCheck crc
  | islandStart crc auditOk convOk => exact Runs.islandStart crc auditOk convOk
  | halRstN => exact Runs.halRstN
  | halPowerFailWarning low => exact Runs.halPowerFailWarning low
  | corePowerStart railsOk vinMv straps => exact Runs.corePowerStart railsOk vinMv straps
  | railLost rail => exact Runs.railLost rail
  | ilimReached => exact Runs.ilimReached
  | avsStep slackPs above1ms => exact Runs.avsStep slackPs above1ms
  | phaseFailure ph short => exact Runs.phaseFailure ph short
  | sparePhaseIn => exact Runs.sparePhaseIn
  | senseFailure ph => exact Runs.senseFailure ph
  | stripeFreqChange s code => exact Runs.stripeFreqChange s code
  | pllLockLoss pll => exact Runs.pllLockLoss pll
  | refClockCheck refPpm aonFault => exact Runs.refClockCheck refPpm aonFault
  | powerEstimate activity iout other => exact Runs.powerEstimate activity iout other
  | estCorrUpdate => exact Runs.estCorrUpdate
  | capStep fast projected => exact Runs.capStep fast projected
  | irlWindow s wanted => exact Runs.irlWindow s wanted
  | droopDetect s belowMv => exact Runs.droopDetect s belowMv
  | stretchEnd s cycles => exact Runs.stretchEnd s cycles
  | thermalRead temps => exact Runs.thermalRead temps
  | shiftReport need => exact Runs.shiftReport need
  | shiftAllocate reports => exact Runs.shiftAllocate reports
  | allocationReceive w => exact Runs.allocationReceive w
  | allocationTimeout => exact Runs.allocationTimeout
  | standby f v => exact Runs.standby f v
  | deepSleep f v linkL2 wakeNow => exact Runs.deepSleep f v linkL2 wakeNow
  | wake f v => exact Runs.wake f v
  | wakeLink => exact Runs.wakeLink
  | wakeTimer => exact Runs.wakeTimer
  | idleEntry => exact Runs.idleEntry
  | clockGateEntry slot => exact Runs.clockGateEntry slot
  | retentionEntry u => exact Runs.retentionEntry u
  | memcPowerDown m => exact Runs.memcPowerDown m
  | memcScrub m addr e => exact Runs.memcScrub m addr e
  | dramTempReport m mult => exact Runs.dramTempReport m mult
  | linkEnable f k v => exact Runs.linkEnable f k v
  | linkTrained k peerDev peerPort delayPs => exact Runs.linkTrained k peerDev peerPort delayPs
  | deviceNumbering peers => exact Runs.deviceNumbering peers
  | flitReceive k fl => exact Runs.flitReceive k fl
  | laneFailure k lane => exact Runs.laneFailure k lane
  | laneWorn k lane => exact Runs.laneWorn k lane
  | equalisationUpdate k => exact Runs.equalisationUpdate k
  | linkTimeout k => exact Runs.linkTimeout k
  | routeRecompute paths => exact Runs.routeRecompute paths
  | syncExchange k t1 t2 t3 t4 => exact Runs.syncExchange k t1 t2 t3 t4
  | alignedSet => exact Runs.alignedSet
  | remoteAccessRequest dev r => exact Runs.remoteAccessRequest dev r
  | importUnitArrive u => exact Runs.importUnitArrive u
  | darn f v => exact Runs.darn f v
  | darnRepeat f v => exact Runs.darnRepeat f v
  | unfail f v => exact Runs.unfail f v
  | clearPending f v => exact Runs.clearPending f v
  | darnOperationStart => exact Runs.darnOperationStart
  | spareTestDone pass => exact Runs.spareTestDone pass
  | darnSwitch atCommit => exact Runs.darnSwitch atCommit
  | darnMapCommit => exact Runs.darnMapCommit
  | wearRead t value worn => exact Runs.wearRead t value worn
  | sysRstNTaken => exact Runs.sysRstNTaken
  | resetHeldLong => exact Runs.resetHeldLong
  | sysRstNRelease straps => exact Runs.sysRstNRelease straps
  | systemReset f v => exact Runs.systemReset f v
  | vddAonPowerOn => exact Runs.vddAonPowerOn
  | pcieReset => exact Runs.pcieReset
  | bootImageCheck slotB img => exact Runs.bootImageCheck slotB img
  | loadHost f v chk => exact Runs.loadHost f v chk
  | commitRollback f v => exact Runs.commitRollback f v
  | startupTestsDone r => exact Runs.startupTestsDone r
  | pwrFailNFall => exact Runs.pwrFailNFall
  | pwrFailNRise railsOk => exact Runs.pwrFailNRise railsOk
  | brownoutReset => exact Runs.brownoutReset
  | muxCfgWrite f v => exact Runs.muxCfgWrite f v
  | muxSwitchAttach b => exact Runs.muxSwitchAttach b
  | pinLevelAccept b level => exact Runs.pinLevelAccept b level
  | encTimerTrigger n => exact Runs.encTimerTrigger n
  | cxpLinkDiscovery n link speed => exact Runs.cxpLinkDiscovery n link speed
  | cbHistoryReset t i => exact Runs.cbHistoryReset t i
  | augTestGo f v => exact Runs.augTestGo f v
  | gclDataWrite f t v => exact Runs.gclDataWrite f t v
  | relTscLoRead f t => exact Runs.relTscLoRead f t
  | degLimitWarning => exact Runs.degLimitWarning
  | islandClockDeviation => exact Runs.islandClockDeviation
  | ilimRelease => exact Runs.ilimRelease
  | memcPeriodicRetrain m corrected failed => exact Runs.memcPeriodicRetrain m corrected failed
  | pcieConfigWrite g w => exact Runs.pcieConfigWrite g w
  | pcieLinkStateChange ltssm rate width flit dlUp => exact Runs.pcieLinkStateChange ltssm rate width flit dlUp
  | pcieCompletionTimeout => exact Runs.pcieCompletionTimeout
  | pcieRefclkLoss => exact Runs.pcieRefclkLoss
  | safeDisable f v => exact Runs.safeDisable f v
  | halParameterGet => exact Runs.halParameterGet

end Sys2Proof.Laws
end

