-- ==== Sys2Proof/Laws/Sound.lean ====
section
/-! SUPPORT. Registers read after they are stored; every elementary change keeps a state sound. -/

namespace Sys2Proof.Machine

/-! ### Registers and their addresses -/

theorem blk_mem_all (b : Blk) : b ∈ Blk.all := by cases b <;> decide

/-- The page at a block's slot is that block's (R689). -/
theorem pageAt_slot (b : Blk) (i : Nat) (h : i < b.count) : pageAt (b.slot + i) = some (b, i) := by
  have H : ∀ b ∈ Blk.all, ∀ i < b.count, pageAt (b.slot + i) = some (b, i) := by decide +kernel
  exact H b (blk_mem_all b) i h

/-- Registers lie inside their page. -/
theorem row_off {b : Blk} {i off : Nat} {w : RegRow} (h : rowAt b i off = some w) : i < b.count ∧ off < 4096 := by
  have H : ∀ b ∈ Blk.all, ∀ w ∈ b.rows, w.off + (w.n - 1) * w.stride < 4096 := by decide +kernel
  unfold rowAt at h
  split at h
  · refine ⟨by assumption, ?_⟩
    split at h
    · omega
    · split at h
      · cases h
      · have hp := List.find?_some h
        have hw := H b (blk_mem_all b) w (List.mem_of_find?_eq_some h)
        simp only [RegRow.holds, Bool.and_eq_true, decide_eq_true_eq] at hp
        obtain ⟨⟨h1, h2⟩, h3⟩ := hp
        have h4 := Nat.div_add_mod (off - w.off) w.stride
        have h5 : w.stride * ((off - w.off) / w.stride) ≤ w.stride * (w.n - 1) := Nat.mul_le_mul_left _ (by omega)
        rw [Nat.mul_comm w.stride (w.n - 1)] at h5
        omega
  · cases h

/-- The mask found at a register's address is the register's; at the address of none it is some mask. -/
theorem regMaskAt_key {r : RegRef} (h : r.row.isSome) : regMaskAt r.key = r.mask := by
  obtain ⟨w, hw⟩ := Option.isSome_iff_exists.1 h
  obtain ⟨h1, h2⟩ := row_off hw
  have h3 : r.key / 4096 = r.blk.slot + r.inst := by unfold RegRef.key; omega
  have h4 : r.key % 4096 = r.off := by unfold RegRef.key; omega
  simp [regMaskAt, h3, h4, pageAt_slot _ _ h1]

/-- No row's reset value sets a reserved bit. -/
theorem row_reset {b : Blk} {i off : Nat} {w : RegRow} (h : rowAt b i off = some w) : w.reset &&& ~~~ w.mask = 0 := by
  have H : ∀ b ∈ Blk.all, ∀ w ∈ b.rows, w.reset &&& ~~~ w.mask = 0 := by decide +kernel
  have H' : ∀ w ∈ headerRows, w.reset &&& ~~~ w.mask = 0 := by decide +kernel
  unfold rowAt at h
  split at h
  · split at h
    · exact H' w (List.mem_of_find?_eq_some h)
    · split at h
      · cases h
      · exact H b (blk_mem_all b) w (List.mem_of_find?_eq_some h)
  · cases h

/-- A register's reset value sets no reserved bit. -/
theorem reset_reserved (r : RegRef) (h : r.row.isSome) : r.resetVal &&& ~~~ r.mask = 0 := by
  obtain ⟨w, hw⟩ := Option.isSome_iff_exists.1 h
  have hm : r.mask = w.mask := by simp [RegRef.mask, hw]
  have hi : r.inst < r.blk.count := (row_off hw).1
  have hr := row_reset (b := r.blk) hw
  unfold RegRef.resetVal
  split
  · rename_i hb ho
    have H : ∀ i < 16, BitVec.ofNat 32 (64 + i / 4 * 256) &&& ~~~ RegRef.mask ⟨.CMN, i, 0x044⟩ = 0 := by decide +kernel
    have := H r.inst (by rw [hb] at hi; exact hi)
    rwa [← hb, ← ho] at this
  · rename_i hb ho
    have H : ∀ i < 1, RegRef.mask ⟨.TOP, i, 0x044⟩ = 0xFFFFFFFF#32 := by decide +kernel
    have := H r.inst (by rw [hb] at hi; exact hi)
    rw [← hb, ← ho] at this
    rw [this]; simp
  · rename_i hb ho
    have H : ∀ i < 1, RegRef.mask ⟨.TOP, i, 0x048⟩ = 0xFFFFFFFF#32 := by decide +kernel
    have := H r.inst (by rw [hb] at hi; exact hi)
    rw [← hb, ← ho] at this
    rw [this]; simp
  · rename_i hb
    split
    · rename_i hx
      have H : ∀ i < 1, ∀ k < 0x20, (RegRef.mask ⟨.DARN, i, 0x0A0 + k⟩ = 0xFFFFFFFF#32 ∨ RegRef.row ⟨.DARN, i, 0x0A0 + k⟩ = none) := by
        decide +kernel
      have := H r.inst (by rw [hb] at hi; exact hi) (r.off - 0x0A0) (by omega)
      rw [show 0x0A0 + (r.off - 0x0A0) = r.off by omega, ← hb] at this
      rcases this with h1 | h1
      · rw [h1]; simp
      · rw [hw] at h1; cases h1
    · rw [hw, hm]; exact hr
  · rw [hw, hm]; exact hr

/-- Two registers do not share an address. -/
theorem key_inj {r r' : RegRef} (h : r.row.isSome) (h' : r'.row.isSome) (hk : r.key = r'.key) : r = r' := by
  obtain ⟨w, hw⟩ := Option.isSome_iff_exists.1 h
  obtain ⟨w', hw'⟩ := Option.isSome_iff_exists.1 h'
  obtain ⟨h1, h2⟩ := row_off hw
  obtain ⟨h1', h2'⟩ := row_off hw'
  unfold RegRef.key at hk
  have h3 : r.blk.slot + r.inst = r'.blk.slot + r'.inst := by omega
  have h4 := pageAt_slot _ _ h1
  rw [h3, pageAt_slot _ _ h1'] at h4
  simp at h4
  cases r; cases r'
  simp_all

/-- A register stored reads as the stored value without its reserved bits. -/
theorem rd_setReg_same {s : State} (h : keysRise s.regs) (r : RegRef) (v : Word) : (s.setReg r v).rd r = v &&& r.mask := by
  simp only [State.rd, State.setReg]
  rw [alFind_alPut_same h]
  split <;> simp_all

/-- Any other register reads as before. -/
theorem rd_setReg_ne {s : State} {r r' : RegRef} (v : Word) (h : r.key ≠ r'.key) : (s.setReg r v).rd r' = s.rd r' := by
  simp only [State.rd, State.setReg]
  rw [alFind_alPut_ne h]


/-- Reserved bits of a register read 0 (R8). -/
theorem rd_reserved {s : State} (h : Regs.wf s.regs) (r : RegRef) (hr : r.row.isSome) : s.rd r &&& ~~~ r.mask = 0 := by
  unfold State.rd
  cases hf : alFind r.key s.regs with
  | none => simpa using reset_reserved r hr
  | some v =>
    have : ∀ l : List (Nat × Word), alFind r.key l = some v → (r.key, v) ∈ l := by
      intro l
      induction l with
      | nil => simp [alFind]
      | cons x t ih =>
        obtain ⟨x, w⟩ := x
        simp only [alFind]
        split
        · rename_i hx; intro h; simp at h; simp [hx, h]
        · intro h; simp [ih h]
    have := h.2 _ (this _ hf)
    simpa [regMaskAt_key hr] using this

/-! ### Soundness -/

/-- A register store keeps the register list in canonical form. -/
theorem regs_setReg {s : State} (h : Regs.wf s.regs) (r : RegRef) (v : Word) : Regs.wf (s.setReg r v).regs := by
  refine ⟨keysRise_alPut h.1, fun e he => ?_⟩
  rcases mem_alPut he with ⟨rfl, _⟩ | he
  · by_cases hr : r.row.isSome
    · simp only [regMaskAt_key hr]
      rw [BitVec.and_assoc]; simp
    · have : r.mask = 0 := by
        unfold RegRef.mask
        cases h' : r.row with
        | none => rfl
        | some w => simp [h'] at hr
      simp [this]
  · exact h.2 e he

/-- A put keeps a memory list in canonical form. -/
theorem memory_alPut {m : List Host.Cell} (h : Memory.wf m) (k : Nat) (v : Byte) : Memory.wf (alPut 0 k v m) := by
  refine ⟨keysRise_alPut h.1, fun e he => ?_⟩
  rcases mem_alPut he with ⟨rfl, hv⟩ | he
  · exact hv
  · exact h.2 e he

/-- So does leaving entries out. -/
theorem memory_filter {m : List Host.Cell} (h : Memory.wf m) (p : Host.Cell → Bool) : Memory.wf (m.filter p) :=
  ⟨keysRise_filter p h.1, fun e he => h.2 e (List.mem_filter.1 he).1⟩

/-- Writing bytes keeps memory in canonical form. -/
theorem memory_setBytes {s : State} (h : Memory.wf s.mem) (a : Nat) (l : List Byte) : Memory.wf (s.setBytes a l).mem := by
  induction l generalizing s a with
  | nil => exact h
  | cons b t ih => exact ih (s := s.setByte a b) (memory_alPut h a b) (a + 1)

/-- So does writing bytes of an engine store. -/
theorem memory_putEs {m : List Host.Cell} (h : Memory.wf m) (a : Nat) (l : List Byte) : Memory.wf (putEs a l m) := by
  induction l generalizing m a with
  | nil => exact h
  | cons b t ih => exact ih (memory_alPut h a b) (a + 1)

/-- Every elementary change keeps a state sound. -/
theorem sound_apply (u : Upd) (s : State) (h : s.sound) : (u.apply s).sound := by
  obtain ⟨hr, hm, he, hp⟩ := h
  cases u with
  | reg r v => exact ⟨regs_setReg hr r v, hm, he, hp⟩
  | resetRegs p => exact ⟨⟨keysRise_filter _ hr.1, fun e he => hr.2 e (List.mem_filter.1 he).1⟩, hm, he, hp⟩
  | bytes a l =>
    refine ⟨?_, memory_setBytes hm a l, ?_, ?_⟩
    · simpa using hr
    · simpa using he
    · simpa [Upd.apply] using memory_filter hp _
  | dropMem p => exact ⟨hr, memory_filter hm _, he, hp⟩
  | poison w => exact ⟨hr, hm, he, memory_alPut hp w 1⟩
  | es a l => exact ⟨hr, hm, memory_putEs he a l, hp⟩
  | dropEs p => exact ⟨hr, hm, memory_filter he _, hp⟩
  | _ => exact ⟨hr, hm, he, hp⟩

/-- Every program keeps a state sound. -/
theorem sound_run (a : Act) (s : State) (h : s.sound) : (a.run s).sound := run_keeps sound_apply a s h

end Sys2Proof.Machine
end

