-- ==== Sys2Proof/Laws/Bits.lean ====
section
/-! SUPPORT. Bit fields read after they are set, and fields of registers after a field is stored. -/

namespace Sys2Proof.Machine

/-- Bit `i` of a field. -/
theorem testBit_bits {n : Nat} (w : BitVec n) (hi lo i : Nat) :
    (bits w hi lo).testBit i = (decide (i < hi + 1 - lo) && w.getLsbD (lo + i)) := by
  simp [bits, Nat.testBit_mod_two_pow, Nat.testBit_shiftRight, BitVec.getLsbD]

/-- Bit `i` of a word whose field [hi:lo] was replaced. -/
theorem getLsbD_setBits {n : Nat} (w : BitVec n) (hi lo v i : Nat) :
    (setBits w hi lo v).getLsbD i =
      if lo ≤ i ∧ i ≤ hi ∧ i < n then v.testBit (i - lo) else w.getLsbD i := by
  simp only [setBits, BitVec.getLsbD_or, BitVec.getLsbD_and, BitVec.getLsbD_not, BitVec.getLsbD_ofNat,
    Nat.testBit_shiftLeft, Nat.testBit_two_pow_sub_one, Nat.testBit_mod_two_pow]
  by_cases hn : i < n
  · by_cases h1 : lo ≤ i
    · by_cases h2 : i ≤ hi
      · have : i - lo < hi + 1 - lo := by omega
        simp [hn, h1, h2, this]
      · have : ¬ (i - lo < hi + 1 - lo) := by omega
        simp [hn, h1, h2, this]
    · simp [hn, h1]
  · have : w.getLsbD i = false := BitVec.getLsbD_of_ge w i (by omega)
    simp [hn, this]

/-- The field set reads as the value set. -/
theorem bits_setBits_same {n : Nat} (w : BitVec n) {hi lo : Nat} (v : Nat) (h : hi < n) :
    bits (setBits w hi lo v) hi lo = v % 2 ^ (hi + 1 - lo) := by
  apply Nat.eq_of_testBit_eq
  intro i
  rw [testBit_bits, getLsbD_setBits, Nat.testBit_mod_two_pow]
  by_cases hi' : i < hi + 1 - lo
  · rw [if_pos (by omega)]; simp [hi']
  · simp [hi']

/-- A field beside the one set reads as before. -/
theorem bits_setBits_other {n : Nat} (w : BitVec n) {hi lo hi' lo' : Nat} (v : Nat) (h : hi' < lo ∨ hi < lo') :
    bits (setBits w hi lo v) hi' lo' = bits w hi' lo' := by
  apply Nat.eq_of_testBit_eq
  intro i
  rw [testBit_bits, testBit_bits, getLsbD_setBits]
  by_cases hi' : i < hi' + 1 - lo'
  · rw [if_neg (by omega)]
  · simp [hi']

/-- A field that exists whole is left by the removal of reserved bits. -/
theorem bits_and_mask {n : Nat} (w m : BitVec n) {hi lo : Nat} (h : bits m hi lo = 2 ^ (hi + 1 - lo) - 1) :
    bits (w &&& m) hi lo = bits w hi lo := by
  apply Nat.eq_of_testBit_eq
  intro i
  have hb := congrArg (fun x => x.testBit i) h
  simp only [testBit_bits, Nat.testBit_two_pow_sub_one] at hb
  rw [testBit_bits, testBit_bits, BitVec.getLsbD_and]
  by_cases hi' : i < hi + 1 - lo
  · simp [hi'] at hb ⊢; simp [hb]
  · simp [hi']

/-- A field of a register after it was stored: the value stored, when the field exists whole. -/
theorem fld_setFld_same {s : State} (hs : keysRise s.regs) (r : RegRef) {hi lo : Nat} (v : Nat) (h : hi < 32)
    (hm : bits r.mask hi lo = 2 ^ (hi + 1 - lo) - 1) :
    (s.setReg r (setBits (s.rd r) hi lo v)).fld r hi lo = v % 2 ^ (hi + 1 - lo) := by
  rw [State.fld, rd_setReg_same hs, bits_and_mask _ _ hm, bits_setBits_same _ _ h]

/-- A store keeps the register list in order. -/
theorem keysRise_setReg {s : State} (h : keysRise s.regs) (r : RegRef) (v : Word) : keysRise (s.setReg r v).regs :=
  keysRise_alPut h

end Sys2Proof.Machine
end

