-- ==== Sys2Proof/Laws/Ops.lean ====
section
/-! SUPPORT. What each shared operation over registers can do, said once: the registers it can change, and that it leaves
everything else alone. -/

namespace Sys2Proof.Machine

theorem Quiet.rfl' {l : List RegRef} {s : State} : Quiet l s s :=
  ⟨⟨rfl, rfl, rfl, rfl, rfl⟩, ⟨s.hw.gath.edge, rfl⟩, fun _ _ => rfl⟩

theorem Quiet.trans {l : List RegRef} {s t u : State} (h : Quiet l s t) (k : Quiet l t u) : Quiet l s u := by
  obtain ⟨e, he⟩ := h.hw
  obtain ⟨e', he'⟩ := k.hw
  exact ⟨⟨k.mem.trans h.mem, k.poison.trans h.poison, k.es.trans h.es, k.tsc.trans h.tsc, k.out.trans h.out⟩,
    ⟨e', by rw [he', he]⟩, fun r hr => (k.regs r hr).trans (h.regs r hr)⟩

theorem Quiet.mono {l l' : List RegRef} {s t : State} (h : Quiet l s t) (hl : l ⊆ l') : Quiet l' s t :=
  ⟨h.toSameRest, h.hw, fun r hr => h.regs r fun hm => hr (List.map_subset _ hl hm)⟩

/-- A register store. -/
theorem quiet_setReg (s : State) (r : RegRef) (v : Word) : Quiet [r] s (s.setReg r v) :=
  ⟨⟨rfl, rfl, rfl, rfl, rfl⟩, ⟨s.hw.gath.edge, rfl⟩, fun r' hr => rd_setReg_ne v fun h => hr (by simp [h])⟩

/-- Counters: the register counted, and an open value where the count is open. -/
theorem quiet_bump (s : State) (r : RegRef) (n : Nat) : Quiet [r] s ((Act.bump r n).run s) := by
  simp only [Act.bump, run_get]
  split
  · exact quiet_setReg s r _
  · simp only [Act.fresh, run_get, run_seq, run_upd, apply_free, run_wr]
    exact ⟨⟨rfl, rfl, rfl, rfl, rfl⟩, ⟨s.hw.gath.edge, rfl⟩, fun r' hr =>
      rd_setReg_ne (s := s.useFree) _ fun h => hr (by simp [h])⟩

/-- A counter below its top counts. -/
theorem rd_bump {s : State} (hs : keysRise s.regs) (r : RegRef) {n : Nat} (h : (s.rd r).toNat + n < 4294967296) :
    ((Act.bump r n).run s).rd r = BitVec.ofNat 32 ((s.rd r).toNat + n) &&& r.mask := by
  simp only [Act.bump, run_get]
  rw [if_pos h]
  exact rd_setReg_same hs r _

theorem quiet_satFld (s : State) (r : RegRef) (hi lo n : Nat) : Quiet [r] s ((Act.satFld r hi lo n).run s) :=
  quiet_setReg s r _

theorem quiet_maxReg (s : State) (r : RegRef) (n : Nat) : Quiet [r] s ((Act.maxReg r n).run s) := by
  simp only [Act.maxReg, run_get, run_when]
  split
  · exact quiet_setReg s r _
  · exact .rfl'

/-- Latching changes the edge latches alone. -/
theorem quiet_latch (s : State) (l : List Nat) : Quiet [] s ((Act.latch l).run s) :=
  ⟨⟨rfl, rfl, rfl, rfl, rfl⟩, ⟨_, rfl⟩, fun _ _ => rfl⟩

/-- Setting a page's IRQ_PEND and IRQ_MASK changes these two and edge latches. -/
theorem quiet_setIrq (s : State) (b : Blk) (i : Nat) (p m : Word) :
    Quiet [Reg.HDR.IRQ_PEND b i, Reg.HDR.IRQ_MASK b i] s ((Act.setIrq b i p m).run s) :=
  ((quiet_setReg s _ p).mono (by simp)).trans
    (((quiet_setReg _ _ m).mono (by simp)).trans ((quiet_latch _ _).mono (by simp)))

/-- Raising a source changes its page's IRQ_PEND (and stores IRQ_MASK as it is). -/
theorem quiet_raise (s : State) (b : Blk) (i k : Nat) :
    Quiet [Reg.HDR.IRQ_PEND b i, Reg.HDR.IRQ_MASK b i] s ((Act.raise b i k).run s) := quiet_setIrq s b i _ _

theorem quiet_lower (s : State) (b : Blk) (i k : Nat) :
    Quiet [Reg.HDR.IRQ_PEND b i, Reg.HDR.IRQ_MASK b i] s ((Act.lower b i k).run s) := quiet_setIrq s b i _ _

theorem quiet_err (s : State) (b : Blk) (i k : Nat) : Quiet [Reg.HDR.ERR_STATUS b i] s ((Act.err b i k).run s) :=
  quiet_setReg s _ _

theorem quiet_cfgErr (s : State) (b : Blk) (i : Nat) : Quiet [Reg.HDR.ERR_STATUS b i] s ((Act.cfgErr b i).run s) :=
  quiet_setReg s _ _

/-- Logging a dropped access changes the page's ACC_ERR and, when the log becomes valid, the records of page TOP. -/
theorem quiet_logAcc (s : State) (b : Blk) (i f off kind : Nat) :
    Quiet [Reg.HDR.ACC_ERR b i, Reg.TOP.ACC_LAST, Reg.TOP.TOP_EVENTS, Reg.HDR.IRQ_PEND .TOP 0, Reg.HDR.IRQ_MASK .TOP 0] s
      ((Act.logAcc b i f off kind).run s) := by
  simp only [Act.logAcc, run_get]
  split
  · exact (quiet_setReg s _ _).mono (by simp)
  · exact ((quiet_setReg s _ _).mono (by simp)).trans (((quiet_setReg _ _ _).mono (by simp)).trans
      (((quiet_setReg _ _ _).mono (by simp)).trans ((quiet_raise _ _ _ _).mono (by simp))))

end Sys2Proof.Machine
end

