-- ==== Sys2Proof/Laws/Host.lean ====
section
/-! SUPPORT. What a host write does around the register's own effect: the store, the page's WRITE_COUNT, the journal. -/

namespace Sys2Proof.Machine

/-- What the journal may change: its ring in memory with the traffic of the slices and controllers, its registers, and the registers of
R497's refusal. -/
structure Journaled (s t : State) : Prop where
  es : t.es = s.es
  tsc : t.tsc = s.tsc
  out : t.out = s.out
  hw : ∃ e n c m, t.hw = { s.hw with gath := { s.hw.gath with edge := e }, lostEntries := n, cmn := c, memc := m }
  regs : SameRegs ((hostTrail .TOP 0).tail) s t

theorem Journaled.rfl' {s : State} : Journaled s s := ⟨rfl, rfl, rfl, ⟨_, _, _, _, rfl⟩, fun _ _ => rfl⟩

theorem Journaled.trans {s t u : State} (h : Journaled s t) (k : Journaled t u) : Journaled s u := by
  obtain ⟨e, n, c, m, he⟩ := h.hw
  obtain ⟨e', n', c', m', he'⟩ := k.hw
  exact ⟨k.es.trans h.es, k.tsc.trans h.tsc, k.out.trans h.out, ⟨e', n', c', m', by rw [he', he]⟩,
    fun r hr => (k.regs r hr).trans (h.regs r hr)⟩

theorem Quiet.journaled {l : List RegRef} {s t : State} (h : Quiet l s t) (hl : l ⊆ (hostTrail .TOP 0).tail) : Journaled s t := by
  obtain ⟨e, he⟩ := h.hw
  exact ⟨h.es, h.tsc, h.out, ⟨e, s.hw.lostEntries, s.hw.cmn, s.hw.memc, he⟩, (h.mono hl).regs⟩

theorem journaled_setReg (s : State) {r : RegRef} (v : Word) (h : [r] ⊆ (hostTrail .TOP 0).tail) : Journaled s (s.setReg r v) :=
  (quiet_setReg s r v).journaled h

theorem journaled_bump (s : State) {r : RegRef} (n : Nat) (h : [r] ⊆ (hostTrail .TOP 0).tail) :
    Journaled s ((Act.bump r n).run s) := (quiet_bump s r n).journaled h

theorem journaled_raise (s : State) {b : Blk} {i : Nat} (k : Nat) (h : irqOf b i ⊆ (hostTrail .TOP 0).tail) :
    Journaled s ((Act.raise b i k).run s) := (quiet_raise s b i k).journaled h

theorem journaled_hw (s : State) (n : Nat) : Journaled s (s.mapHw fun h => { h with lostEntries := n }) :=
  ⟨rfl, rfl, rfl, ⟨_, _, _, _, rfl⟩, fun _ _ => rfl⟩

theorem journaled_bytes (s : State) (a : Nat) (l : List Byte) : Journaled s ((Act.bytes a l).run s) :=
  ⟨by simp, by simp, by simp, ⟨_, _, s.hw.cmn, s.hw.memc, apply_bytes_hw s a l⟩, fun r _ => by simp [State.rd]⟩

theorem journaled_when (s : State) {c : Bool} {x : Act} (h : Journaled s (x.run s)) : Journaled s ((Act.when c x).run s) := by
  rw [run_when]
  split
  · exact h
  · exact .rfl'

theorem journaled_ringMove (s : State) (w : Bool) (a n : Nat) : Journaled s ((ringMove w a n).run s) := by
  unfold ringMove
  rw [run_seq]
  exact (journaled_when s ⟨rfl, rfl, rfl, ⟨_, _, _, _, rfl⟩, fun _ _ => rfl⟩).trans
    (journaled_when _ ⟨rfl, rfl, rfl, ⟨_, _, _, _, rfl⟩, fun _ _ => rfl⟩)

theorem journaled_guarded (s : State) (c a : Nat) (l : List Byte) : Journaled s ((Act.guarded c a l).run s) := by
  simp only [Act.guarded, run_get]
  split
  · exact (journaled_bump s (r := Reg.CMP.AUTH_REFUSE) 1 (by simp [hostTrail])).trans
      (journaled_raise _ (b := .CMP) (i := 0) 4 (by simp [hostTrail, irqOf]))
  · exact (journaled_bytes s a l).trans (journaled_ringMove _ _ _ _)

theorem journaled_jrnlPut (s : State) (src slot off old new w : Nat) : Journaled s ((jrnlPut src slot off old new w).run s) := by
  unfold jrnlPut
  rw [run_get]
  generalize (s.jrnlFill + 1 == s.fld Reg.JRNL.JRNL_CTRL 31 16) = full
  generalize (s.rd Reg.JRNL.JRNL_TAIL).toNat = i
  rw [run_all_cons, run_all_cons, run_all_cons, run_all_nil, run_when, run_wrN]
  generalize jrnlBytes s.now src slot off _ old new w = l
  generalize (s.rd Reg.JRNL.JRNL_BASE).toNat + _ = a
  have h1 := journaled_guarded s 0 a l
  generalize (Act.guarded 0 a l).run s = t at h1 ⊢
  refine (h1.trans (journaled_setReg t (r := Reg.JRNL.JRNL_TAIL) (BitVec.ofNat 32 (i + 1)) (by simp [hostTrail]))).trans ?_
  split
  · exact journaled_raise _ (b := .JRNL) (i := 0) 0 (by simp [hostTrail, irqOf])
  · exact .rfl'

/-- A journal entry, or the count of one that found no room (R695 to R698). -/
theorem journaled_journal (s : State) (src slot off old new w : Nat) : Journaled s ((journal src slot off old new w).run s) := by
  simp only [journal, run_get, run_when]
  split
  · rw [run_ite]
    generalize (if s.hw.lostEntries = 0 then 1 else 2) = m
    split
    · rw [run_all_cons, run_all_cons, run_all_cons, run_all_nil, run_hw]
      exact ((journaled_hw s _).trans (journaled_bump _ (r := Reg.JRNL.JRNL_LOST) 1 (by simp [hostTrail]))).trans
        (journaled_raise _ (b := .JRNL) (i := 0) 1 (by simp [hostTrail, irqOf]))
    · rw [run_seq, run_when]
      refine Journaled.trans ?_ (journaled_jrnlPut _ _ _ _ _ _ _)
      split
      · rw [run_seq, run_hw]
        exact (journaled_jrnlPut _ _ _ _ _ _ _).trans (journaled_hw _ 0)
      · exact .rfl'
  · exact .rfl'

/-- The state in which an accepted write's own effect starts: the register stored, the write counted. -/
def State.hostStored (s : State) (r : RegRef) (row : RegRow) (v : Word) : State :=
  let q := regAt r.blk r.inst r.off
  let t := if behindSel r.blk r.off then s else s.setReg q (storedValue row (s.rd q) v)
  t.setReg (Reg.HDR.WRITE_COUNT r.blk r.inst) (t.rd (Reg.HDR.WRITE_COUNT r.blk r.inst) + 1)

/-- The old value that the effect of an accepted write sees. -/
def State.hostOld (s : State) (r : RegRef) : Word :=
  if behindSel r.blk r.off then s.regRead r.blk r.inst r.off else s.rd (regAt r.blk r.inst r.off)

/-- An accepted host write: store and count, then the register's own effect, then the journal. -/
theorem hostWriteWith_accepted {s : State} {f : Nat} {r : RegRef} {v : Word} (act : Word → Act) (half : Bool)
    (h : writeKind s f r.blk r.inst r.off v = 0) :
    ∃ row, r.row = some row ∧
      Journaled ((act (s.hostOld r)).run (s.hostStored r row v)) ((hostWriteWith act f r.blk r.inst r.off v half).run s) := by
  cases hr : rowAt r.blk r.inst r.off with
  | none =>
    simp only [writeKind, hr] at h
    split at h <;> simp at h
  | some row =>
    refine ⟨row, hr, ?_⟩
    unfold State.hostStored State.hostOld hostWriteWith
    rw [run_get]
    simp only [h, ne_eq, not_true_eq_false, if_false, hr]
    rw [run_all_cons, run_all_cons, run_all_cons, run_all_cons, run_all_nil, run_get, run_when, run_when, run_modReg, run_wr]
    generalize hq : behindSel r.blk r.off = q
    have hst : (if (!q) = true then s.setReg (regAt r.blk r.inst r.off) (storedValue row (s.rd (regAt r.blk r.inst r.off)) v)
        else s) = if q = true then s else s.setReg (regAt r.blk r.inst r.off) (storedValue row (s.rd (regAt r.blk r.inst r.off)) v) := by
      cases q <;> rfl
    rw [hst]
    by_cases hj : journals r.blk r.off = true
    · rw [if_pos hj]; cases q <;> exact journaled_journal _ _ _ _ _ _ _
    · rw [if_neg hj]; cases q <;> exact .rfl'

theorem hostRegWith_accepted {s : State} {f : Nat} {r : RegRef} {v : Word} (act : Act) (h : s.accepts f r v = true) :
    ∃ row, r.row = some row ∧ Journaled (act.run (s.hostStored r row v)) ((hostRegWith f r v act).run s) := by
  simp only [State.accepts, Bool.and_eq_true, beq_iff_eq] at h
  unfold hostRegWith
  rw [run_when, if_pos h.1]
  exact hostWriteWith_accepted (fun _ => act) false h.2

theorem hostReg_accepted {s : State} {f : Nat} {r : RegRef} {v : Word} (h : s.accepts f r v = true) :
    ∃ row, r.row = some row ∧
      Journaled ((blockWrite f r.blk r.inst r.off (s.hostOld r) v).run (s.hostStored r row v)) ((hostReg f r v).run s) := by
  simp only [State.accepts, Bool.and_eq_true, beq_iff_eq] at h
  unfold hostReg
  rw [run_when, if_pos h.1]
  exact hostWriteWith_accepted (fun old => blockWrite f r.blk r.inst r.off old v) false h.2

/-- What an accepted write's store leaves alone. -/
theorem hostStored_regs (s : State) (r : RegRef) (row : RegRow) (v : Word) :
    SameRegs [regAt r.blk r.inst r.off, Reg.HDR.WRITE_COUNT r.blk r.inst] s (s.hostStored r row v) := by
  intro q hq
  simp only [List.map_cons, List.map_nil, List.mem_cons, List.not_mem_nil, or_false, not_or] at hq
  unfold State.hostStored
  split
  · exact rd_setReg_ne _ (Ne.symm hq.2)
  · rw [rd_setReg_ne _ (Ne.symm hq.2), rd_setReg_ne _ (Ne.symm hq.1)]

@[simp] theorem hostStored_hw (s : State) (r : RegRef) (row : RegRow) (v : Word) : (s.hostStored r row v).hw = s.hw := by
  unfold State.hostStored; split <;> rfl
@[simp] theorem hostStored_mem (s : State) (r : RegRef) (row : RegRow) (v : Word) : (s.hostStored r row v).mem = s.mem := by
  unfold State.hostStored; split <;> rfl
@[simp] theorem hostStored_tsc (s : State) (r : RegRef) (row : RegRow) (v : Word) : (s.hostStored r row v).tsc = s.tsc := by
  unfold State.hostStored; split <;> rfl
@[simp] theorem hostStored_es (s : State) (r : RegRef) (row : RegRow) (v : Word) : (s.hostStored r row v).es = s.es := by
  unfold State.hostStored; split <;> rfl
@[simp] theorem hostStored_out (s : State) (r : RegRef) (row : RegRow) (v : Word) : (s.hostStored r row v).out = s.out := by
  unfold State.hostStored; split <;> rfl

end Sys2Proof.Machine
end

