-- ==== Sys2Proof/WellFormed.lean ====
section
/-! DEFINITION. Which commands the outside can send: the sizes and ranges of R28, R93, R94, R589, R604, R608, R632, R680 to R682 and R716 for the
operands the constructors of `Instr` leave wider. `exec` answers on the others, too. -/

namespace Sys2Proof

/-- A PCIe write to BAR0: one to eight bytes (R681, R682). -/
def writeSizeOk (l : List Byte) : Bool := decide (1 ≤ l.length ∧ l.length ≤ 8)

/-- A BAR4 access lies in the 128 MiB of the commons (R680). -/
def bar4RangeOk (a n : Nat) : Bool := decide (1 ≤ n ∧ a + n ≤ 0x8000000)

/-- A data unit's payload has the length its header states (R28). -/
def DUnit.lengthOk (u : DUnit) : Bool := u.payload.length == u.len.toNat

/-- A camera line's components fit their depth of 8 to 16 bits (R93, R94). -/
def CameraEvent.depthOk : CameraEvent → Bool
  | .line _ depth px _ _ _ => decide (8 ≤ depth.toNat ∧ depth.toNat ≤ 16) && px.all fun x => decide (x.toNat < 2 ^ depth.toNat)
  | _ => true

/-- The start-up tests name memories, engines and converter channels that exist (R716). -/
def StartupResult.unitsOk (r : StartupResult) : Bool :=
  (r.sramRows.all fun x => decide (x.1.toNat < 53)) && r.afes.all fun x => decide (x.2.toNat < 13)

/-- Can the outside send this command? -/
def Instr.wellFormed : Instr → Bool
  | .registerWrite _ _ l => writeSizeOk l
  | .unalignedRead _ n => decide (1 ≤ n)
  | .bar2InvalidWrite _ _ n => decide (1 ≤ n)
  | .bar4Write a d => bar4RangeOk a.toNat d.1.length
  | .bar4Read a n => bar4RangeOk a.toNat n.1
  | .linkUnitArrive _ u => u.lengthOk
  | .importUnitArrive u => u.lengthOk
  | .pgenStateEnd _ raw => decide (raw.length ≤ 13)
  | .cxpPacket _ e => e.depthOk
  | .csiPacket _ _ e => e.depthOk
  | .ssiBurstDone l => decide (l.length ≤ 12)
  | .irlWindow _ l => decide (l.length ≤ 9) && l.all fun n => decide (n ≤ 64)
  | .thermalRead l => decide (l.length ≤ 48) && l.all fun x => decide (-256 ≤ x ∧ x ≤ 255)
  | .shiftAllocate l => decide ((l.map fun r => r.dev).Nodup)
  | .deviceNumbering l => decide (l.length ≤ 7) && decide ((l.map fun p => p.id).Nodup)
  | .startupTestsDone r => r.unitsOk
  | _ => true

end Sys2Proof
end

