-- ==== Sys2Proof/Tests/Slice0.lean ====
section
/-! SUPPORT. The model's own tests: an ill-formed command for each check of `Instr.wellFormed`, worked examples of the spec, and for
every statement with hypotheses a state and operands that meet them together, at the ends of their ranges. -/

set_option maxRecDepth 100000
set_option Elab.async false

namespace Sys2Proof.Tests

open Sys2Proof Sys2Proof.Machine

/-- The state that `a` leaves from reset. -/
def small (a : Act) : State := a.run State.reset

/-- A descriptor of opcode `op` without pin, live-map entry and input stream, and with the bits `x` beside. -/
def desc (op : Nat) (x : Nat := 0) : BitVec 512 := BitVec.ofNat 512 (op + 255 * 2 ^ 24 + 255 * 2 ^ 184 + 4095 * 2 ^ 192 + x)

/-- The record of context `c` in state `st`, with rings of 16 and every engine. -/
def ctxRec (c st : Nat) (cls : Nat := 0) : Act := .all
  [.mem (64 * c) 1 st, .mem (64 * c + 2) 1 cls, .mem (64 * c + 4) 2 1, .mem (64 * c + 6) 2 0x0404, .mem (64 * c + 8) 8 0x10000,
   .mem (64 * c + 16) 8 0x20000, .mem (64 * c + 32) 4 0xFFFFFFFF, .mem (64 * c + 36) 4 4, .mem (64 * c + 40) 8 0x40000,
   .mem (64 * c + 48) 8 0x50000, .mem (64 * c + 56) 8 0x60000]

/-- The dispatcher holds the commands `l`. -/
def cmds (l : List Cmd) : Act := .disp fun d => { d with cmds := l, nextId := 9 }

/-- Sequence `q` with flags byte `f` and a page table of two entries at 0x20000; the tables of the key-value cache. -/
def seqRecord (q f : Nat) : Act := .all
  [.wrN Reg.KVW.STAB_LO 0x10000, .wrN Reg.KVW.FTAB_LO 0x30000, .wrN Reg.KVW.SEQ_MAX (q + 1), .mem (0x10000 + 64 * q) 1 f,
   .mem (0x10008 + 64 * q) 4 0x20000, .mem (0x10010 + 64 * q) 4 2, .mem (0x10016 + 64 * q) 2 0xFFFF]

/-- A data unit without payload, of an item and a format. -/
def unitOf (item : BitVec 48) (fmt : BitVec 8) (stamp : DWord := 0) : DUnit :=
  { stamp := stamp, item := item, fc := 0, stream := 0, cls := 0, resv := 0, ctx := 0, fmt := fmt, len := 0, flags := 0,
    source := 0, hops := 0, crc := 0, payload := [] }

/-- Reading profile `i`: stream, policy byte, stages byte; T_due 9 µs, margins 1 µs and 2 µs; ring at 0x90000. -/
def profileRec (i stream policy stages : Nat) : Act := .all
  [.wrN Reg.DISP.PROFILE_BASE 0x80000, .mem (0x80000 + 64 * i) 4 (stream + 0x8000 + 65536 * policy + 2 ^ 24 * stages),
   .mem (0x80004 + 64 * i) 8 0x100000009, .mem (0x8000C + 64 * i) 4 2, .mem (0x80038 + 64 * i) 8 0x90000]

/-- A decision record with a destination. -/
def recordOf (dest : BitVec 32) : DecisionRecord :=
  { dest := dest, outcome := 2, reason := 0, info := 0, profile := 0, conf := 0x3F800000, tDue := 0, tCommit := 0, breakTsc := 0,
    lostDev := 0, chosenDev := 0, candMask := 0, text := List.replicate 32 0 }

/-- SAFE in a state, with both outputs on. -/
def safeIn (v : Nat) : Act := .all [.wrN Reg.SAFE.SAFE_CTRL 5, .wrN Reg.SAFE.SAFE_STATE (v + 0xC0)]

/-- The result of a channel for item 9 on stream 5 with model 7. -/
def resultUnit : DUnit :=
  { unitOf 9 0x13 with stream := 5, cls := 2, len := 16, payload := [1, 0, 3, 0, 7, 0, 0, 0, 0, 0, 0, 0, 0, 0, 0, 0] }.sealed

/-- The island in RUN with a request. -/
def island (op param : Nat) (value : Word) : Act := .hal fun h => { h with
  state := 1, req := some { words := [BitVec.ofNat 32 op, BitVec.ofNat 32 param, value, 1, 0, 0, 0, 0], seq := 65535, tsc := 77 } }

/-- A unit in slot 0 of stream 5, as its producer left it. -/
def inUnit : DUnit := { unitOf 9 0x04 with stream := 5, len := 4, payload := [1, 2, 3, 4] }.sealed

/-- The descriptor `d` with input stream 5. -/
def onStream (d : BitVec 512) : BitVec 512 := setBits d 203 192 5

/-- A CONV with one 1 × 1 few-channel layer runs on a band of one row of 4 pixels. -/
def fceBand : Act := .all
  [.mem 0x70020 8 0x08000101, .mem 0x70028 8 0x0001000100040001,
   cmds [{ id := 3, phase := .running, desc := desc opCONV (0x70000 * 2 ^ 320 + 2 ^ 448), input := some { inUnit with len := 64, payload := List.replicate 64 7 } }]]

/-! ### Ill-formed commands, one for each check -/

/-- A unit whose header states one byte more than it has. -/
def longUnit : DUnit := { unitOf 1 0x20 with len := 1 }

/-- Start-up tests without a failure. -/
def noFailure : StartupResult :=
  { mapLost := false, sramRows := [], noSpare := false, dramRows := [], untrained := 0, engines := 0, fces := 0, afes := [],
    blocks := [], firstUnit := 0 }

theorem smoke_registerWrite_empty : (Instr.registerWrite 0 0x40 []).wellFormed = false := by decide +kernel
theorem smoke_registerWrite_long : (Instr.registerWrite 0 0x40 (List.replicate 9 0)).wellFormed = false := by decide +kernel
theorem smoke_unalignedRead : (Instr.unalignedRead 0x42 0).wellFormed = false := by decide +kernel
theorem smoke_bar2InvalidWrite : (Instr.bar2InvalidWrite 1 0x4000 0).wellFormed = false := by decide +kernel
theorem smoke_bar4Write : (Instr.bar4Write 0x7FFFFFF ([some 1, some 2], [])).wellFormed = false := by decide +kernel
theorem smoke_bar4Write_empty : (Instr.bar4Write 0 ([], [])).wellFormed = false := by decide +kernel
theorem smoke_bar4Read : (Instr.bar4Read 0x7FFFFFF (2, [])).wellFormed = false := by decide +kernel
theorem smoke_linkUnitArrive : (Instr.linkUnitArrive 0 longUnit).wellFormed = false := by decide +kernel
theorem smoke_importUnitArrive : (Instr.importUnitArrive longUnit).wellFormed = false := by decide +kernel
theorem smoke_pgenStateEnd : (Instr.pgenStateEnd 0 (List.replicate 14 0)).wellFormed = false := by decide +kernel
theorem smoke_cxpPacket_depth : (Instr.cxpPacket 0 (.line 0 7 [] .none true true)).wellFormed = false := by decide +kernel
theorem smoke_csiPacket_component : (Instr.csiPacket 0 0 (.line 0x2A 8 [0x100] .none true true)).wellFormed = false := by
  decide +kernel
theorem smoke_ssiBurstDone : (Instr.ssiBurstDone (List.replicate 13 ⟨[], 0, false, false, false⟩)).wellFormed = false := by decide +kernel
theorem smoke_irlWindow_engines : (Instr.irlWindow 0 (List.replicate 10 0)).wellFormed = false := by decide +kernel
theorem smoke_irlWindow_slots : (Instr.irlWindow 0 [65]).wellFormed = false := by decide +kernel
theorem smoke_thermalRead_sensors : (Instr.thermalRead (List.replicate 49 0)).wellFormed = false := by decide +kernel
theorem smoke_thermalRead_range : (Instr.thermalRead [256]).wellFormed = false := by decide +kernel
theorem smoke_shiftAllocate : (Instr.shiftAllocate [⟨3, 1, 1, 0, 1⟩, ⟨3, 2, 2, 0, 2⟩]).wellFormed = false := by decide +kernel
theorem smoke_deviceNumbering_count : (Instr.deviceNumbering ((List.range 8).map fun k => ⟨BitVec.ofNat 64 k, 0, 0⟩)).wellFormed =
    false := by decide +kernel
theorem smoke_deviceNumbering_same : (Instr.deviceNumbering [⟨7, 0, 0⟩, ⟨7, 1, 0⟩]).wellFormed = false := by decide +kernel
theorem smoke_startupTestsDone_memory : (Instr.startupTestsDone { noFailure with sramRows := [(53, 0)] }).wellFormed = false := by
  decide +kernel
theorem smoke_startupTestsDone_converter : (Instr.startupTestsDone { noFailure with afes := [(0, 13)] }).wellFormed = false := by
  decide +kernel
theorem smoke_wellFormed : ([.registerWrite 0 0x40 [1, 2, 3, 4], .bar4Write 0x7FFFFFF ([none], []), .bar4Read 0x7FFFFFE (2, []),
    .linkUnitArrive 0 { longUnit with payload := [9] }, .cxpPacket 0 (.line 0 8 [0xFF] .none true true), .irlWindow 0 [64],
    .thermalRead [-256, 255], .deviceNumbering [⟨7, 0, 0⟩, ⟨8, 0, 0⟩], .startupTestsDone noFailure] : List Instr).all Instr.wellFormed =
    true := by decide +kernel

/-! ### Worked examples of the spec -/

/-- The band unit of the worked example after R52: stream 5 of device 0, item 0x2A31, source 384, without its payload. -/
def bandUnit : DUnit :=
  { stamp := 5000000000, item := 0x2A31, fc := 65, stream := 5, cls := 1, resv := 0, ctx := 12, fmt := 0x20, len := 0x40000,
    flags := 0, source := 384, hops := 0, crc := 0, payload := [] }

/-- 01_organisation, "one band unit": bytes 0 to 27 as stored. -/
theorem test_band_unit_header : bandUnit.head28 =
    [0x00, 0xF2, 0x05, 0x2A, 0x01, 0x00, 0x00, 0x00, 0x31, 0x2A, 0x00, 0x00, 0x00, 0x00, 0x41, 0x00, 0x05, 0x10, 0x0C, 0x20,
     0x00, 0x00, 0x04, 0x00, 0x00, 0x00, 0x80, 0x01] := by decide +kernel

/-- The same unit after one link: REMOTE and one hop in bytes 24 to 27. -/
theorem test_band_unit_remote : (({ bandUnit.set fREMOTE with hops := 1 } : DUnit).head28.drop 24) = [0x00, 0x02, 0x80, 0x05] := by
  decide +kernel

/-- REMOTE and the hop count enter the CRC as zero (R36). -/
theorem test_band_unit_crc : ({ bandUnit.set fREMOTE with hops := 1 } : DUnit).crcOf = bandUnit.crcOf := by decide +kernel

/-- The check value of CRC-32C, over the characters 1 to 9. -/
theorem test_crc32c : crc32c [0x31, 0x32, 0x33, 0x34, 0x35, 0x36, 0x37, 0x38, 0x39] = 0xE3069283#32 := by decide +kernel

/-- 01_organisation, R61: four units in the order D, C, A, B. -/
def orderUnits : List DUnit :=
  [{ unitOf 3 0x20 6999999999 with source := 512, stream := 0x601 }, { unitOf 2 0x20 7000000000 with source := 384, stream := 0x005 },
   { unitOf 0 0x20 7000000000 with source := 384, stream := 0x205 }, { unitOf 1 0x20 7000000000 with source := 448, stream := 0x00A }]

theorem test_order_of_units : (orderUnits.zip orderUnits.tail).all (fun x => notBefore x.1 x.2 && !notBefore x.2 x.1) = true := by
  decide +kernel

/-- 00_scope: STATUS of physical engine 7 is at 0x0008_700C. -/
theorem test_register_address : (0x0008700C : Nat) / 4096 = Blk.ENG.slot + 7 ∧ (Reg.HDR.STATUS .ENG 7).off = 0x00C ∧
    pageAt (0x0008700C / 4096) = some (.ENG, 7) := by decide +kernel

/-- 17_host_interface_registers: the chart entry of physical engine 35, and its BLOCK_ID. -/
theorem test_chart_entry : [0x780, 0x784, 0x788, 0x78C].map (chartWord 0) =
    [0x00230030#32, 0x001300A3#32, 0x00000100#32, 0x00001003#32] := by decide +kernel

theorem test_block_id : State.reset.regRead .ENG 35 0x000 = 0xD5230030#32 := by decide +kernel

/-- R674: ENG_MAP[3] at power-on. -/
theorem test_map_reset : [Reg.DARN.ENG_MAP 0, Reg.DARN.ENG_MAP 3, Reg.DARN.ENG_MAP 7].map State.reset.rd =
    [0x83828180#32, 0x908F8E8D#32, 0xA2A1A09F#32] := by decide +kernel

/-- 16_spares_and_ageing, "a worn engine": the map after the commit, from the point where engine 17 may take over from 13. -/
def wornEngine : State := small (.darn fun d => { d with
  run := some { kind := 1, inst := 1, unit := 13, cause := 1, spare := some 17 }, spare := 17, stage := 3 })

theorem test_darning_map : (match exec .darnMapCommit wornEngine with
    | .next t => [t.rd (Reg.DARN.ENG_MAP 3), t.rd Reg.DARN.SPARE_ENG_LO, t.rd Reg.DARN.FAILED_ENG_LO, t.rd Reg.DARN.INVENTORY,
        t.rd Reg.DARN.MAP_SEQ]
    | _ => []) = [0x908F8E91#32, 0x04000100#32, 0x00002000#32, 0x02FF1101#32, 1#32] := by decide +kernel

theorem test_darning_log : (match exec .darnMapCommit wornEngine with
    | .next t => t.hw.darn.log
    | _ => []) = [0x0011000D000100110000000000000000#128] := by decide +kernel

/-- 03_engines_and_arrays, "one decode step": the cycles of the four shapes, and the choice of quadrants. -/
theorem test_decode_step : [1, 2, 3, 4].map (fun s => shapeEst s s 1 1 4096 1 4096 4096) = [135460, 67860, 270660, 541060] ∧
    autoShape 2 1 1 4096 1 4096 4096 = 2 := by decide +kernel

theorem test_decode_step_share : shapeEst 2 2 1 1 4096 1 1024 1024 = 18708 := by decide +kernel

/-- 04_formats_and_quantisation: E2M1 0b0111 is 3 × 2 = 6.0. -/
theorem test_e2m1 : fE2M1.decode 7 = .fin ⟨false, 3, 1⟩ := by decide +kernel

/-- 04_formats_and_quantisation, "one group end to end": codes 0xED and 0xC1. -/
def groupX : QVec :=
  { xs := [Dy.ofInt (-48)] ++ List.replicate 31 {} ++ [72, 0, -68, 127].map Dy.ofInt ++ List.replicate 28 {}, ss := [Dy.pow2 (-5)] }
def groupW : QVec :=
  { xs := [Dy.ofInt (-128)] ++ List.replicate 31 {} ++ [-3, 17, 5, -128].map Dy.ofInt ++ List.replicate 28 {},
    ss := [Dy.pow2 (-7), Dy.pow2 (-7)] }
def groupPar (oFmt : Nat) (oScale : Dy) : QPar :=
  { aFmt := 0x04, wFmt := 0x03, oFmt := oFmt, group := 1, ascale := 0, wdyn := false, intAcc := false, aZp := 128, oZp := 0,
    aScale := Dy.pow2 (-5), oScale := oScale }

theorem test_group_int8 : (oneOutput (groupPar 0x03 (Dy.ofInt 8)) 64 groupX groupW (.flt (Dy.pow2 (-2)))).v = 0xED := by decide +kernel
theorem test_group_e4m3 : (oneOutput (groupPar 0x05 (Dy.ofInt 1)) 64 groupX groupW (.flt (Dy.pow2 (-2)))).v = 0xC1 := by decide +kernel

/-- R177: an MXFP4 block whose largest magnitude is 7.9 takes exponent 127; 7.9 becomes 6.0 with a clip, 5.3 becomes 6.0 and
0.2 becomes 0.0 without one. -/
theorem test_mx_block : (let x (n : Int) : Dy := (Dy.ofInt n).div 24 (Dy.ofInt 10)
    (mxExp 0x07 (x 79), [79, 53, 2].map fun n => ((mxElem 0x07 127 (x n)).1.num (-1), (mxElem 0x07 127 (x n)).2))) =
    (127, [(12, 1), (12, 0), (0, 0)]) := by decide +kernel

/-- "A re-run that fits": cycles, pre-pass, denominator, threshold. -/
theorem test_rerun_cycles : shapeEst 3 3 1 2 1024 256 512 512 = 5388 ∧ autoShape 3 1 2 1024 256 512 512 = 3 ∧
    shapeEst 3 3 1 1 1024 256 512 512 = 10516 ∧ prePassCycles 1 false 512 1024 256 = 1024 ∧
    clipExceeded 328 2100 393216 = true ∧ clipExceeded 328 1967 393216 = false := by decide +kernel

/-- 05_image_operators, R222: 16 elements in zero runs, 15 bytes. -/
theorem test_zero_runs : zrunEncode 0x03 0 [0, 0, 0, 0, 0, 0, 0, 0, 0, 0, 5, 7, 0, 9, 0, 0] =
    [0x03, 0, 0, 0, 0x10, 0, 0, 0, 0x89, 0x03, 0x05, 0x07, 0x00, 0x09, 0x81] := by decide +kernel

theorem test_zero_runs_expand : zrunExpand [0x03, 0, 0, 0, 0x10, 0, 0, 0, 0x89, 0x03, 0x05, 0x07, 0x00, 0x09, 0x81] =
    some (0x03, [0, 0, 0, 0, 0, 0, 0, 0, 0, 0, 5, 7, 0, 9, 0, 0]) := by decide +kernel

/-- 07_text_engine, "a byte that is not UTF-8": tokens 9117, 262143 and 55, one byte token. -/
def kaiState : State := small (.all ([.wrN Reg.TXT.VOCAB_LO 0, .wrN Reg.TXT.TXT_STATUS 1, .wrN Reg.TXT.VOCAB_INFO 262144, .mem 0 4 262144,
  .mem 4 4 261888, .mem 16 8 0x100000, .mem 32 8 0x1000, .mem 40 4 258, .mem 44 4 0xC1A00000] ++
  ([(55, 0xC0600000), (75, 0xC0A00000), (97, 0xC0800000), (105, 0xC0900000), (1204, 0xC0C00000), (9117, 0xC1100000)].map
    fun (t, w) => Act.mem (0x100008 + 16 * t) 4 w) ++
  [(0x37, 0x37, 55, 0, 0), (0x4B, 0x4B, 75, 256, 1), (0x61, 0x61, 97, 0, 0), (0x69, 0x69, 105, 0, 0), (256, 0x61, 1204, 257, 1),
    (257, 0x69, 9117, 0, 0)].map fun (n, b, t, f, c) => Act.mem (0x1000 + 8 * n) 8 (b + 256 * t + 2 ^ 32 * f + 2 ^ 55 * c)))

theorem test_tokenise : kaiState.segment kaiState.vocab [0x4B, 0x61, 0x69, 0xFF, 0x37] = ([9117, 262143, 55], 1) := by decide +kernel

/-- 02_line_and_frame_capture: 3.2512 counts a line. With 3 counts behind the last trigger, the next one triggers, and 0.7488 of
a count is carried on. -/
theorem test_divider : (match exec (.encoderEdge 0 true false) (small (.all [.wrN (Reg.ENC.ENC_CTRL 0) 1, .wrN (Reg.ENC.DIV_INT 0) 3,
      .wrN (Reg.ENC.DIV_FRAC 0) 0x404EA4A9, .upd (.tsc 1000), .enc 0 fun e => { e with acc := 3 * 2 ^ 32, div := 3 * 2 ^ 32 + 0x404EA4A9 }])) with
    | .next t => (t.rd (Reg.ENC.TRIG_CNT 0), (t.enc 0).acc)
    | _ => (0, 0)) = (1#32, 2 ^ 32 - 0x404EA4A9) := by decide +kernel

/-- 19_pins_electrical_package: MUX_CFG 0x07D0_0533 of GPIO20 is refused for reason 2 while GPIO12 still holds gate 3, and
accepted once it is free. -/
def gateMoves (held : List (Nat × Nat)) : State := small (.pin fun x => { x with
  cfg := updAt (fun _ => 0x00000500) 12 x.cfg, held := held })

theorem test_pin_move : (gateMoves [(12, 3 + 16 * 3)]).muxReason 20 0x07D00533 = 2 ∧ (gateMoves []).muxReason 20 0x07D00533 = 0 := by
  decide +kernel

/-- R734: scan path 2 enabled with gate 3 on GPIO12 stands against taking GPIO12 away (reason 4). -/
theorem test_pin_in_use : (small (.all [.wrN (Reg.SFE.PATH_CTRL 2) 1, .wrN (Reg.SFE.PATH_ITEM 2) 0x03000000,
    .pin fun x => { x with cfg := updAt (fun _ => 0x07D00533) 12 x.cfg }])).muxReason 12 0x500 = 4 := by decide +kernel

/-! ### Witnesses of the statements' hypotheses -/

theorem witness_EmptyQueuePassesTime_awake : ∃ (s : State), s.pending = [] ∧ s.fld Reg.PWR.PWR_STATUS 2 0 ≠ 3 ∧ s.slewPpb = 0
    ∧ s.hw.time.slewAcc = 0 :=
⟨State.reset, by
    decide +kernel⟩

theorem witness_EmptyQueuePassesTime_heldSet : ∃ (s : State) (x : SampleSet), s.pending = [] ∧ s.fld Reg.PWR.PWR_STATUS 2 0 ≠
    3 ∧ s.hw.mot.set_ = some x ∧ x.held = true ∧ x.stamp ≤ s.now + 1 :=
⟨small (.mot fun m => { m with set_ := some { held := true, stamp := 1, chans := [11] } }),
    { held := true, stamp := 1, chans := [11] }, by
    decide +kernel⟩

theorem witness_EmptyQueuePassesTime_asleep : ∃ (s : State), s.pending = [] ∧ s.fld Reg.PWR.PWR_STATUS 2 0 = 3 :=
⟨small (.wrN Reg.PWR.PWR_STATUS 3), by
    decide +kernel⟩

theorem witness_StepKeepsSound_main : ∃ (s : State), s.sound ∧ s.mem ≠ [] ∧ s.regs ≠ [] :=
⟨small (.all [.wrN Reg.TSC.TSC_CTRL 1, .mem 0 4 7]), by
    unfold State.sound
    decide +kernel⟩

theorem witness_ReservedBitsReadZero_main : ∃ (s : State) (r : RegRef), s.sound ∧ r.row.isSome = true :=
⟨State.reset, Reg.CLK.CLK_CTRL, by
    unfold State.sound
    decide +kernel⟩

theorem witness_HeldInReset_main : ∃ (s : State), s.hw.boot.inReset = true :=
⟨small (.boot fun b => { b with inReset := true }), by
    decide +kernel⟩

theorem witness_StillIsSettled_main : ∃ (s : State), s.still = true :=
⟨State.reset, by
    decide +kernel⟩

theorem witness_RegisterWriteAndReadClear_write : ∃ (s : State) (b : Blk) (i : Nat) (off : Nat) (row : RegRow), s.live ∧ b ∈
    [Blk.CMN, Blk.MEMC, Blk.JPG, Blk.CLK, Blk.VRC] ∧ rowAt b i off = some row ∧ 0x40 ≤ off ∧ row.acc = .RW ∧ row.shared =
    false ∧ off % 4 = 0 :=
⟨small (.wrN Reg.CLK.CLK_CTRL 0), .CLK, 0, 0x040, ⟨0x040, 1, 0x04, .RW, 1, 1, 0, 1, false⟩, by
    unfold State.live State.sound
    decide +kernel⟩

theorem witness_RegisterWriteAndReadClear_drop : ∃ (s : State) (b : Blk) (i : Nat) (off : Nat) (k : Nat) (v : Word), s.live ∧
    i < b.count ∧ off < 4096 ∧ off % 4 = 0 ∧ writeKind s 0 b i off v = k ∧ k ≠ 0 ∧ k ≠ 6 ∧ pageAt (b.slot + i) = some (b, i)
    ∧ b.slot + i ≠ 0x30 ∧ b.slot + i ≠ 0x31 ∧ s.bit (Reg.HDR.ACC_ERR b i) 24 = false :=
⟨State.reset, .CEU, 0, 0xFFC, 1, 3, by
    unfold State.live State.sound
    decide +kernel⟩

theorem witness_RegisterWriteAndReadClear_readClear : ∃ (s : State) (b : Blk) (i : Nat) (off : Nat) (row : RegRow), s.live ∧
    rowAt b i off = some row ∧ row.acc = .RC ∧ off % 4 = 0 :=
⟨small (.wrN Reg.CLK.LOCK_LOSS_CNT 9), .CLK, 0, 0x054, ⟨0x054, 1, 0x04, .RC, 0xFFFFFFFF, 0, 0, 0, false⟩, by
    unfold State.live State.sound
    decide +kernel⟩

theorem witness_RegisterWriteAndReadClear_readClearSlice : ∃ (s : State) (b : Blk) (i : Nat) (off : Nat) (row : RegRow),
    s.live ∧ rowAt b i off = some row ∧ row.acc = .RC ∧ off % 4 = 0 :=
⟨small (.hw fun h => { h with cmn := updAt (fun x => { x with rd := 9, wr := 4 }) 15 h.cmn }), .CMN, 15, 0x050, ((rowAt .CMN
    15 0x050).getD ⟨0, 0, 0, .RC, 0, 0, 0, 0, false⟩), by
    unfold State.live State.sound
    decide +kernel⟩

theorem witness_RegisterWriteAndReadClear_readClearMem : ∃ (s : State) (b : Blk) (i : Nat) (off : Nat) (row : RegRow), s.live
    ∧ rowAt b i off = some row ∧ row.acc = .RC ∧ off % 4 = 0 :=
⟨small (.hw fun h => { h with memc := updAt (fun x => { x with rd := 9, wr := 4 }) 7 h.memc }), .MEMC, 7, 0x058, ((rowAt
    .MEMC 7 0x058).getD ⟨0, 0, 0, .RC, 0, 0, 0, 0, false⟩), by
    unfold State.live State.sound
    decide +kernel⟩

theorem witness_InvalidAccesses_unpopulated : ∃ (s : State) (a : BitVec 26), s.live ∧ pageAt (a.toNat / 4096) = none ∧
    a.toNat / 4096 ≠ 0x30 ∧ a.toNat / 4096 ≠ 0x31 ∧ s.bit Reg.HOST.UNPOP_LOG 15 = false :=
⟨State.reset, 0x3FFF000, by
    unfold State.live State.sound
    decide +kernel⟩

theorem witness_InvalidAccesses_unaligned : ∃ (s : State) (a : BitVec 26) (n : Nat), s.live ∧ a.toNat % 4 ≠ 0 ∧ 4 < a.toNat %
    4 + n ∧ (s.rd Reg.HOST.CA_CNT).toNat < 4294967295 :=
⟨State.reset, 0x1002, 3, by
    unfold State.live State.sound
    decide +kernel⟩

theorem witness_InvalidAccesses_bar2 : ∃ (s : State) (f : Fin 32) (off : BitVec 16) (n : Nat), s.live ∧ (0x4000 ≤ off.toNat ∨
    n < 4 ∨ (off.toNat % 64 ≠ 0 ∧ off.toNat % 64 ≠ 4)) ∧ s.bit (Reg.HDR.ACC_ERR .FUNC f.val) 24 = false :=
⟨State.reset, 3, 0x3FC8, 4, by
    unfold State.live State.sound
    decide +kernel⟩

theorem witness_CommonsAccess_write : ∃ (s : State), s.live ∧ s.fld Reg.SAFE.C2_REGION 26 16 = 0 ∧ s.bit Reg.JRNL.JRNL_CTRL 0
    = false :=
⟨State.reset, by
    unfold State.live State.sound
    decide +kernel⟩

theorem witness_CommonsAccess_read : ∃ (s : State), s.live ∧ ∀ c : Nat, c < 16 → s.rd (Reg.CMN.INJECT c) = 0 :=
⟨small (.mem 0x100 4 0x04030201), by
    unfold State.live State.sound
    decide +kernel⟩

theorem witness_CommonsAccess_uncorr : ∃ (s : State) (a : BitVec 27) (n : Nat) (w : BitVec 45), s.live ∧ (∀ c : Nat, c < 16 →
    s.rd (Reg.CMN.INJECT c) = 0) ∧ a.toNat / 8 ≤ w.toNat ∧ 8 * w.toNat < a.toNat + n ∧ 8 * w.toNat < commonsSize :=
⟨State.reset, 0x7FFFFF9, 7, 0xFFFFFF, by
    unfold State.live State.sound
    decide +kernel⟩

theorem witness_LockCommand_badKey : ∃ (s : State) (v : Word), s.live ∧ s.accepts 0 Reg.TOP.LOCK_CMD v = true ∧ bits v 31 16
    ≠ 0x1D0C :=
⟨State.reset, 0x1D0B0020, by
    unfold State.live State.sound
    decide +kernel⟩

theorem witness_LockCommand_lock : ∃ (s : State) (v : Word) (b : Blk) (i : Nat), s.live ∧ s.accepts 0 Reg.TOP.LOCK_CMD v =
    true ∧ bits v 31 16 = 0x1D0C ∧ pageAt (bits v 13 0) = some (b, i) ∧ b.lockable = true :=
⟨State.reset, 0x1D0C001A, .SAFE, 0, by
    unfold State.live State.sound
    decide +kernel⟩

theorem witness_InterruptHeader_main : ∃ (s : State) (slot : BitVec 14) (b : Blk) (i : Nat), s.live ∧ pageAt slot.toNat =
    some (b, i) ∧ b ≠ .CMP ∧ b ≠ .JRNL :=
⟨State.reset, 0x014, .PWR, 0, by
    unfold State.live State.sound
    decide +kernel⟩

theorem witness_TimeCommands_clrCoarse : ∃ (s : State) (v : Word), s.live ∧ s.accepts 0 Reg.TSC.TSC_CMD (v ||| 2) = true ∧
    v.getLsbD 0 = false ∧ s.fld Reg.TSC.TSC_STATUS 3 2 = 0 ∧ s.bit Reg.TSC.TSC_STATUS 0 = true :=
⟨small (.wrN Reg.TSC.TSC_STATUS 1), 2, by
    unfold State.live State.sound
    decide +kernel⟩

theorem witness_TimeCommands_sleepTick : ∃ (s : State), s.live ∧ s.fld Reg.PWR.PWR_STATUS 2 0 = 3 :=
⟨small (.seq (.wrN Reg.PWR.PWR_STATUS 3) (.hw fun h => { h with time := { h.time with sleepFrac := 63 } })), by
    unfold State.live State.sound
    decide +kernel⟩

theorem witness_CommonsScrub_main : ∃ (s : State) (c : Fin 16), s.live ∧ s.bit (Reg.CMN.CMN_CTRL c) 0 = true ∧ s.rd
    (Reg.CMN.INJECT c) = 0 :=
⟨small (.wrN (Reg.CMN.CMN_CTRL 15) 1), 15, by
    unfold State.live State.sound
    decide +kernel⟩

theorem witness_UnitReceive_crc : ∃ (s : State) (slot : BitVec 14) (b : Blk) (i : Nat) (u : DUnit), s.live ∧ pageAt
    slot.toNat = some (b, i) ∧ u.crc ≠ u.crcOf :=
⟨State.reset, 0x060, .DISP, 0, ⟨0, 1, 0, 5, 1, 0, 0, 0x10, 0, 0, 0, 0, 1, []⟩, by
    unfold State.live State.sound
    decide +kernel⟩

theorem witness_LinkUnitArrive_six : ∃ (s : State) (k : Fin 4) (u : DUnit), s.live ∧ s.portUp k = true ∧ u.hops.toNat < 7 :=
⟨small (.all [.wrN (Reg.LINK.LINK_CTRL 0) 1, .wrN (Reg.LINK.LINK_STATUS 0) 2]), 0, ⟨0, 1, 0, 5, 1, 0, 0, 0x10, 0, 0, 0, 6, 0,
    []⟩, by
    unfold State.live State.sound
    decide +kernel⟩

theorem witness_LinkUnitArrive_seven : ∃ (s : State) (k : Fin 4) (u : DUnit), s.live ∧ s.portUp k = true ∧ 7 ≤ u.hops.toNat ∧
    (s.rd (Reg.LINK.LOOP_CNT k)).toNat < 4294967295 :=
⟨small (.all [.wrN (Reg.LINK.LINK_CTRL 0) 1, .wrN (Reg.LINK.LINK_STATUS 0) 2]), 0, ⟨0, 1, 0, 5, 1, 0, 0, 0x10, 0, 0, 0, 7, 0,
    []⟩, by
    unfold State.live State.sound
    decide +kernel⟩

theorem witness_UnitReceive_good : ∃ (s : State) (slot : BitVec 14) (b : Blk) (i : Nat) (u : DUnit), s.live ∧ pageAt
    slot.toNat = some (b, i) ∧ u.crc = u.crcOf ∧ headerFaults u 0 ((u.stream.toNat / 512 == s.devNum && !u.has fREMOTE) &&
    s.authorised (u.stream.toNat % 512)) (alGet ({} : RxSt) (rxKey b i u.stream) s.hw.rx).closed = [] ∧ s.localStream
    u.stream = some 5 ∧ (s.streamRec 5).cls = 0 ∧ u.fc = (alGet ({} : RxSt) (rxKey b i u.stream) s.hw.rx).e ∧ u.item ∉ (alGet
    ({} : RxSt) (rxKey b i u.stream) s.hw.rx).broken ∧ keysRise s.hw.rx :=
⟨State.reset, 0x060, .DISP, 0, DUnit.sealed ⟨0, 1, 0, 5, 0, 0, 0, 0x20, 0, 0, 384, 0, 0, []⟩, by
    unfold State.live State.sound
    decide +kernel⟩

theorem witness_LinkStates_enable : ∃ (s : State) (k : Fin 4) (v : Word), s.live ∧ s.accepts 0 (Reg.LINK.LINK_CTRL k) (v |||
    1) = true ∧ s.bit (Reg.LINK.LINK_CTRL k) 0 = false :=
⟨State.reset, 3, 0, by
    unfold State.live State.sound
    decide +kernel⟩

theorem witness_LinkStates_trained : ∃ (s : State) (k : Fin 4), s.live ∧ s.linkState k = 1 ∧ s.fld (Reg.LINK.LINK_CTRL k) 6 4
    ≤ s.laneWidth k ∧ 0 < s.laneWidth k ∧ s.laneWidth k = 4 :=
⟨small (.all [.wrN (Reg.LINK.LINK_CTRL 3) 0x41, .wrN (Reg.LINK.LINK_STATUS 3) 1]), 3, by
    unfold State.live State.sound
    decide +kernel⟩

theorem witness_LinkStates_timeout : ∃ (s : State) (k : Fin 4), s.live ∧ s.portUp k = true ∧ (s.port k).last + s.fld
    (Reg.LINK.LINK_TO k) 7 0 * 1000 ≤ s.now ∧ (List.range 4).all (fun j => decide (j = k) || !s.portUp j) = true :=
⟨small (.all [.wrN (Reg.LINK.LINK_STATUS 3) 2, .wrN Reg.TSC.TSC_STATUS 0xA, .upd (.tsc 255000), .hw fun h =>
    { h with time := { h.time with alignPpb := 7 } }]), 3, by
    unfold State.live State.sound
    decide +kernel⟩

theorem witness_FlitsAndLanes_flit : ∃ (s : State) (k : Fin 4) (fl : Flit), s.live ∧ s.portUp k = true ∧ k.val <
    s.hw.link.ports.length ∧ fl.bad = false ∧ fl.seq = (s.port k).rxSeq :=
⟨small (.all [.wrN (Reg.LINK.LINK_STATUS 3) 2, .port 3 fun p => { p with replay := [(0, .completerAbort 0)] }]), 3, ⟨0,
    false, 1, 1, false⟩, by
    unfold State.live State.sound
    decide +kernel⟩

theorem witness_FlitsAndLanes_lane : ∃ (s : State) (k : Fin 4) (lane : Fin 5), s.live ∧ s.portUp k = true ∧ s.bit
    (Reg.LINK.LANE_MAP k) (16 + lane) = false :=
⟨small (.wrN (Reg.LINK.LINK_STATUS 3) 2), 3, 3, by
    unfold State.live State.sound
    decide +kernel⟩

theorem witness_FlitsAndLanes_worn : ∃ (s : State) (k : Fin 4) (lane : Fin 5), s.live ∧ s.portUp k = true ∧ s.bit
    (Reg.LINK.LANE_MAP k) (16 + lane) = false :=
⟨small (.wrN (Reg.LINK.LINK_STATUS 3) 2), 3, 0, by
    unfold State.live State.sound
    decide +kernel⟩

theorem witness_FlitsAndLanes_equalise : ∃ (s : State) (k : Fin 4), s.live ∧ s.portUp k = true :=
⟨small (.wrN (Reg.LINK.LINK_STATUS 3) 0x502), 3, by
    unfold State.live State.sound
    decide +kernel⟩

theorem witness_LinkGroup_numbering : ∃ (s : State), s.live ∧ (List.range 4).any s.portUp = true ∧ (if s.bit
    Reg.LINK.DEV_STATUS 3 then s.devNum else s.devReq) ≤ 7 :=
⟨small (.all [.wrN (Reg.LINK.LINK_STATUS 3) 2, .wrN Reg.LINK.DEV_STATUS 0x0F]), by
    unfold State.live State.sound
    decide +kernel⟩

theorem witness_LinkGroup_sync : ∃ (s : State) (k : Fin 4), s.live ∧ s.portUp k = true :=
⟨small (.wrN (Reg.LINK.LINK_STATUS 3) 2), 3, by
    unfold State.live State.sound
    decide +kernel⟩

theorem witness_LinkGroup_aligned : ∃ (s : State) (t0 : Nat), s.live ∧ s.hw.link.within = some t0 ∧ s.fld Reg.TSC.TSC_STATUS
    3 2 = 1 ∧ t0 + 1000000 ≤ s.now :=
⟨small (.all [.wrN Reg.TSC.TSC_STATUS 5, .link fun l => { l with within := some 0 }, .upd (.tsc 1000000)]), 0, by
    unfold State.live State.sound
    decide +kernel⟩

theorem witness_RemoteAccessAndImport_refused : ∃ (s : State) (dev : BitVec 3) (a : DWord) (l : List Byte), s.live ∧ (s.rd
    Reg.LINK.WIN_REFUSE).toNat < 4294967295 ∧ (s.hw.link.wins.any fun w => windowAllows w dev.toNat a.toNat l.length true) =
    false :=
⟨State.reset, 1, 0x100, [1], by
    unfold State.live State.sound
    decide +kernel⟩

theorem witness_RemoteAccessAndImport_miss : ∃ (s : State) (u : DUnit), s.live ∧ s.importOf u.stream = none ∧ (s.rd
    Reg.LINK.IMP_MISS).toNat < 4294967295 :=
⟨State.reset, ⟨0, 1, 0, 0x205, 1, 0, 0, 0x10, 0, 0, 0, 0, 1, []⟩, by
    unfold State.live State.sound
    decide +kernel⟩

theorem witness_RemoteAccessAndImport_allowed : ∃ (s : State) (dev : BitVec 3) (a : DWord) (l : List Byte), s.live ∧ s.inC2
    a.toNat l.length = false ∧ (s.hw.link.wins.any fun w => windowAllows w dev.toNat a.toNat l.length true) = true :=
⟨small (.link fun x => { x with wins := [(0, 0, 0x02020001)] }), 1, 0xFFFFE, [1, 2], by
    unfold State.live State.sound
    decide +kernel⟩

theorem witness_RemoteAccessAndImport_stored : ∃ (s : State) (u : DUnit) (n : Nat), s.live ∧ s.importOf u.stream = some n ∧
    (∀ x ∈ s.hw.link.waiting, x.1 ≠ n) ∧ u.crc = u.crcOf ∧ headerFaults u (s.streamRec n).cls ((u.stream.toNat / 512 ==
    s.devNum && !u.has fREMOTE) && s.authorised (u.stream.toNat % 512)) (alGet ({} : RxSt) (rxKey .LINK 0 u.stream)
    s.hw.rx).closed = [] ∧ u.fc = (alGet ({} : RxSt) (rxKey .LINK 0 u.stream) s.hw.rx).e ∧ u.item ∉ (alGet ({} : RxSt) (rxKey
    .LINK 0 u.stream) s.hw.rx).broken ∧ s.streamFull n = false :=
⟨small (.all [.hw fun h => { h with imports := [0x80070205] }, .mem 224 4 0x10000, .mem 228 2 4, .mem 230 2 1, .mem 240 1
    0x90]), DUnit.sealed ⟨0, 1, 0, 0x205, 0, 0, 0, 0x20, 0, 1, 384, 0, 0, []⟩, 7, by
    unfold State.live State.sound
    decide +kernel⟩

theorem witness_EncoderCommands_edge : ∃ (s : State) (n : Fin 8), s.live ∧ s.bit (Reg.ENC.ENC_CTRL n) 0 = true ∧ n.val <
    s.hw.cap.encs.length ∧ (s.enc n).lastEdge = some 0 ∧ max 10 (s.fld (Reg.ENC.FILT n) 9 0) * 5 ≤ s.now :=
⟨small (.all [.wrN (Reg.ENC.ENC_CTRL 7) 1, .enc 7 fun e => { e with lastEdge := some 0 }, .wrN (Reg.ENC.ENC_STATUS 7) 2, .upd
    (.tsc 5115)]), 7, by
    unfold State.live State.sound
    decide +kernel⟩

theorem witness_EncoderCommands_both : ∃ (s : State) (n : Fin 8), s.live ∧ s.bit (Reg.ENC.ENC_CTRL n) 0 = true :=
⟨small (.wrN (Reg.ENC.ENC_CTRL 7) 1), 7, by
    unfold State.live State.sound
    decide +kernel⟩

theorem witness_EncoderCommands_timer : ∃ (s : State) (n : Fin 8) (t0 : Nat), s.live ∧ (s.enc n).nextTimer = some t0 ∧ s.bit
    (Reg.ENC.ENC_STATUS n) 0 = true ∧ t0 ≤ s.now ∧ n.val < s.hw.cap.encs.length ∧ (s.rd (Reg.ENC.TRIG_CNT n)).toNat <
    4294967295 :=
⟨small (.all [.wrN (Reg.ENC.ENC_CTRL 7) 1, .wrN (Reg.ENC.ENC_STATUS 7) 1, .enc 7 fun e => { e with nextTimer := some 9 },
    .upd (.tsc 9)]), 7, 9, by
    unfold State.live State.sound
    decide +kernel⟩

theorem witness_EncoderCommands_stall : ∃ (s : State) (n : Fin 8), s.live ∧ s.bit (Reg.ENC.ENC_CTRL n) 0 = true ∧ s.stalled n
    = true :=
⟨small (.all [.wrN (Reg.ENC.ENC_CTRL 7) 1, .wrN (Reg.ENC.STALL_US 7) 2, .enc 7 fun e => { e with lastEdge := some 9 }, .upd
    (.tsc 2009)]), 7, by
    unfold State.live State.sound
    decide +kernel⟩

theorem witness_EncoderCommands_fault : ∃ (s : State) (n : Fin 8), s.live ∧ s.bit (Reg.ENC.ENC_CTRL n) 0 = true ∧ s.withItem
    (s.encPaths n) ≠ [] :=
⟨small (.all [.wrN (Reg.ENC.ENC_CTRL 7) 1, .wrN Reg.SFE.SFE_CTRL 1, .wrN (Reg.SFE.PATH_CTRL 2) 0x1C001, .path 2 fun x =>
    { x with items := [{ id := 5 }] }, .wrN (Reg.SFE.PATH_STATUS 2) 1]), 7, by
    unfold State.live State.sound
    decide +kernel⟩

theorem witness_EncoderCommands_divOn : ∃ (s : State) (n : Fin 8) (v : Word), s.live ∧ s.accepts 0 (Reg.ENC.DIV_FRAC n) v =
    true ∧ n.val < s.hw.cap.encs.length ∧ s.bit (Reg.ENC.ENC_CTRL n) 0 = true :=
⟨small (.all [.wrN (Reg.ENC.ENC_CTRL 7) 1]), 7, 5, by
    unfold State.live State.sound
    decide +kernel⟩

theorem witness_EncoderCommands_divOff : ∃ (s : State) (n : Fin 8) (v : Word), s.live ∧ s.accepts 0 (Reg.ENC.DIV_FRAC n) v =
    true ∧ n.val < s.hw.cap.encs.length ∧ s.bit (Reg.ENC.ENC_CTRL n) 0 = false :=
⟨small (.wrN (Reg.ENC.DIV_INT 7) 3), 7, 5, by
    unfold State.live State.sound
    decide +kernel⟩

theorem witness_EncoderCommands_timed : ∃ (s : State) (n : Fin 8) (t0 : Nat), s.live ∧ (s.enc n).lineTimer = some t0 ∧
    s.timerPaths n ≠ [] ∧ t0 ≤ s.now ∧ n.val < s.hw.cap.encs.length ∧ (s.rd (Reg.ENC.TRIG_CNT n)).toNat < 4294967295 :=
⟨small (.all [.wrN Reg.SFE.SFE_CTRL 1, .wrN (Reg.SFE.PATH_CTRL 15) 0x3C001, .wrN (Reg.ENC.TIME_PERIOD 7) 100, .enc 7 fun e =>
    { e with lineTimer := some 9 }, .upd (.tsc 9)]), 7, 9, by
    unfold State.live State.sound
    decide +kernel⟩

theorem witness_PatternCommands_run : ∃ (s : State) (g : Fin 4) (v : Word), s.live ∧ s.accepts 0 (Reg.PGEN.PG_CTRL g) (v |||
    1) = true ∧ s.bit (Reg.PGEN.PG_CTRL g) 0 = false ∧ g.val < s.hw.cap.pgens.length :=
⟨State.reset, 3, 0xFFF0, by
    unfold State.live State.sound
    decide +kernel⟩

theorem witness_PatternCommands_stateEnd : ∃ (s : State) (g : Fin 4) (t0 : Nat), s.live ∧ s.bit (Reg.PGEN.PG_CTRL g) 0 = true
    ∧ (s.pgen g).since = some t0 ∧ t0 + bits (s.pstate g (s.fld (Reg.PGEN.PG_STATUS g) 11 0)) 31 16 ≤ 2 * s.now :=
⟨small (.all [.wrN (Reg.PGEN.PG_CTRL 3) 1, .wrN (Reg.PGEN.PG_STATUS 3) 0xFFF, .pgen 3 fun x =>
    { x with pmem := [(0xFFF, 0x0042200700040000)], cntA := 1, since := some 0 }, .upd (.tsc 2)]), 3, 0, by
    unfold State.live State.sound
    decide +kernel⟩

theorem witness_PatternCommands_taken : ∃ (s : State) (g : Fin 4) (v : Word), s.live ∧ s.accepts 0 (Reg.PGEN.TRIG_CMD g) (v
    ||| 1) = true ∧ s.bit (Reg.PGEN.PG_CTRL g) 0 = true ∧ s.bit (Reg.PGEN.PG_STATUS g) 13 = true :=
⟨small (.all [.wrN (Reg.PGEN.PG_CTRL 3) 1, .wrN (Reg.PGEN.PG_STATUS 3) 0x2000]), 3, 0, by
    unfold State.live State.sound
    decide +kernel⟩

theorem witness_PatternCommands_late : ∃ (s : State) (g : Fin 4) (v : Word), s.live ∧ s.accepts 0 (Reg.PGEN.TRIG_CMD g) (v
    ||| 1) = true ∧ s.bit (Reg.PGEN.PG_CTRL g) 0 = true ∧ s.bit (Reg.PGEN.PG_STATUS g) 13 = false ∧ (s.pgen g).held = none ∧
    (s.rd (Reg.PGEN.TRIG_LATE g)).toNat < 4294967295 :=
⟨small (.all [.wrN (Reg.PGEN.PG_CTRL 3) 1]), 3, 0, by
    unfold State.live State.sound
    decide +kernel⟩

theorem witness_PatternCommands_memory : ∃ (s : State) (g : Fin 4) (v : Word), s.live ∧ s.accepts 0 (Reg.PGEN.PM_DATA_HI g) v
    = true ∧ g.val < s.hw.cap.pgens.length ∧ keysRise (s.pgen g).pmem :=
⟨small (.all [.wrN (Reg.PGEN.PM_ADDR 3) 0xFFF, .wrN (Reg.PGEN.PM_DATA_LO 3) 7]), 3, 0x80000000, by
    unfold State.live State.sound
    decide +kernel⟩

theorem witness_PatternCommands_darkUp : ∃ (s : State) (g : Fin 4) (c : Fin 13), s.live ∧ s.converts g c = true ∧ 2 ^ s.fld
    (Reg.AFE.BLK_CTRL g) 27 24 ≤ ((s.afe g).chans.getD c {}).lines ∧ 1024 < s.chD g c ∧ s.chDac g c < 511 :=
⟨small (.all [.wrN (Reg.AFE.CH_BLACK 3 11) 1025, .wrN (Reg.AFE.CH_OFFSET 3 11) 510, .wrN (Reg.AFE.BLK_CTRL 3) 0, .afe 3 fun a
    => { a with chans := updAt (fun c => { c with lines := 1 }) 11 a.chans }]), 3, 11, by
    unfold State.live State.sound
    decide +kernel⟩

theorem witness_PatternCommands_darkDown : ∃ (s : State) (g : Fin 4) (c : Fin 13), s.live ∧ s.converts g c = true ∧ 2 ^ s.fld
    (Reg.AFE.BLK_CTRL g) 27 24 ≤ ((s.afe g).chans.getD c {}).lines ∧ s.chD g c < -1024 ∧ -512 < s.chDac g c :=
⟨small (.all [.wrN (Reg.AFE.CH_BLACK 3 11) (8192 - 1025), .wrN (Reg.AFE.CH_OFFSET 3 11) 0, .wrN (Reg.AFE.BLK_CTRL 3) 0, .afe
    3 fun a => { a with chans := updAt (fun c => { c with lines := 1 }) 11 a.chans }]), 3, 11, by
    unfold State.live State.sound
    decide +kernel⟩

theorem witness_PatternCommands_darkEnd : ∃ (s : State) (g : Fin 4) (c : Fin 13), s.live ∧ s.converts g c = true ∧ 2 ^ s.fld
    (Reg.AFE.BLK_CTRL g) 27 24 ≤ ((s.afe g).chans.getD c {}).lines ∧ 1024 < s.chD g c ∧ 510 ≤ s.chDac g c ∧ s.chDac g c < 511
    :=
⟨small (.all [.wrN (Reg.AFE.CH_BLACK 3 11) 1025, .wrN (Reg.AFE.CH_OFFSET 3 11) 510, .wrN (Reg.AFE.BLK_CTRL 3) 0, .afe 3 fun a
    => { a with chans := updAt (fun c => { c with lines := 1 }) 11 a.chans }]), 3, 11, by
    unfold State.live State.sound
    decide +kernel⟩

theorem witness_PatternCommands_darkLow : ∃ (s : State) (g : Fin 4) (c : Fin 13), s.live ∧ s.converts g c = true ∧ 2 ^ s.fld
    (Reg.AFE.BLK_CTRL g) 27 24 ≤ ((s.afe g).chans.getD c {}).lines ∧ s.chD g c < -1024 ∧ s.chDac g c ≤ -511 ∧ -512 < s.chDac
    g c :=
⟨small (.all [.wrN (Reg.AFE.CH_BLACK 3 11) (8192 - 1025), .wrN (Reg.AFE.CH_OFFSET 3 11) (1024 - 511), .wrN (Reg.AFE.BLK_CTRL
    3) 0, .afe 3 fun a => { a with chans := updAt (fun c => { c with lines := 1 }) 11 a.chans }]), 3, 11, by
    unfold State.live State.sound
    decide +kernel⟩

theorem witness_PatternCommands_settled : ∃ (s : State) (g : Fin 4), s.live ∧ 256 ≤ (s.afe g).shadowN ∧ (s.afe g).settled =
    false :=
⟨small (.afe 3 fun a => { a with shadowN := 256 }), 3, by
    unfold State.live State.sound
    decide +kernel⟩

theorem witness_PatternCommands_switch : ∃ (s : State) (g : Fin 4) (l : Nat) (c : Nat), s.live ∧ (s.afe g).switchTo = some
    (l, c) ∧ l < 12 ∧ c < 16 ∧ 256 ≤ (s.afe g).shadowN ∧ s.lineBoundary g = true ∧ s.bit (Reg.AFE.SHADOW g) 4 = true ∧ s.fld
    (Reg.AFE.SHADOW g) 3 0 = l :=
⟨small (.all [.wrN (Reg.PGEN.PG_STATUS 3) 0x2000, .wrN (Reg.AFE.SHADOW 3) 0x1B, .afe 3 fun a =>
    { a with shadowN := 256, switchTo := some (11, 12) }]), 3, 11, 12, by
    unfold State.live State.sound
    decide +kernel⟩

theorem witness_CameraCommands_frameStart : ∃ (s : State) (n : Fin 8), s.live ∧ s.bit (Reg.CXP.CXP_CTRL n) 0 = true ∧ (s.rd
    (Reg.CXP.PKT_ERR n)).toNat < 4294967295 ∧ s.pathsOf 1 n = [15] ∧ s.hw.cap.paths.length = 16 :=
⟨small (.all [.wrN (Reg.CXP.CXP_CTRL 7) 1, .wrN Reg.SFE.SFE_CTRL 1, .wrN (Reg.SFE.PATH_CTRL 15) (1 + 2 * 1 + 8 * 7), .wrN
    (Reg.SFE.STAMP_ADJ 15) 4, .upd (.tsc 100)]), 7, by
    unfold State.live State.sound
    decide +kernel⟩

theorem witness_CameraCommands_frameEnd : ∃ (s : State) (n : Fin 8), s.live ∧ s.bit (Reg.CXP.CXP_CTRL n) 0 = true ∧ (s.rd
    (Reg.CXP.PKT_ERR n)).toNat < 4294967295 ∧ s.pathsOf 1 n = [15] ∧ s.hw.cap.paths.length = 16 :=
⟨small (.all [.wrN (Reg.CXP.CXP_CTRL 7) 1, .wrN Reg.SFE.SFE_CTRL 1, .wrN (Reg.SFE.PATH_CTRL 15) (1 + 2 * 1 + 8 * 7), .path 15
    fun x => { x with frameStamp := some 4 }]), 7, by
    unfold State.live State.sound
    decide +kernel⟩

theorem witness_CameraCommands_lost : ∃ (s : State) (n : Fin 8) (e : CameraEvent), s.live ∧ s.bit (Reg.CXP.CXP_CTRL n) 0 =
    true ∧ (s.rd (Reg.CXP.PKT_ERR n)).toNat < 4294967295 ∧ e = .line 0 8 [1, 2] .none false false :=
⟨small (.all [.wrN (Reg.CXP.CXP_CTRL 7) 1]), 7, .line 0 8 [1, 2] .none false false, by
    unfold State.live State.sound
    decide +kernel⟩

theorem witness_CameraCommands_line : ∃ (s : State) (n : Fin 8) (p : Nat) (dt : BitVec 6) (px : List (BitVec 16)) (comps :
    Nat), s.live ∧ s.bit (Reg.CXP.CXP_CTRL n) 0 = true ∧ (s.rd (Reg.CXP.PKT_ERR n)).toNat < 4294967295 ∧ s.pathsOf 1 n = [p]
    ∧ cxpComps dt.toNat 8 = some comps ∧ p < s.hw.cap.paths.length ∧ px.length = s.pPix p * comps ∧ (s.lbRoom p (cameraFmt 8)
    (s.pOut p * comps)).2 = true ∧ sumNat (((s.path p).window.filter fun w => decide (s.now < w.1 + 10000)).map (·.2)) +
    lineBytes (cameraFmt 8) (s.pOut p * comps) ≤ (s.rd (Reg.SFE.RATE_DECL p)).toNat * 10 * s.pAvgY p :=
⟨small (.all [.wrN (Reg.CXP.CXP_CTRL 7) 1, .wrN Reg.SFE.SFE_CTRL 1, .wrN (Reg.SFE.PATH_CTRL 15) (1 + 2 * 1 + 8 * 7), .wrN
    (Reg.SFE.PATH_GEOM 15) 0x10002, .wrN (Reg.SFE.RATE_DECL 15) 1000, .wrN (Reg.SFE.PATH_LB 15) 0x400]), 7, 15, 1, [1, 2, 3,
    4, 5, 6], 3, by
    unfold State.live State.sound
    decide +kernel⟩

theorem witness_CameraCommands_control : ∃ (s : State) (n : Fin 8) (v : Word), s.live ∧ s.bit (Reg.CXP.CMD_STATUS n) 0 =
    false ∧ s.accepts 0 (Reg.CXP.CMD_GO n) (v ||| 2) = true ∧ s.accepts 0 (Reg.CXP.CMD_GO n) ((v ||| 1) &&& ~~~ 2) = true :=
⟨State.reset, 7, 0, by
    unfold State.live State.sound
    decide +kernel⟩

theorem witness_CameraCommands_reply : ∃ (s : State) (n : Fin 8), s.live ∧ s.bit (Reg.CXP.CMD_STATUS n) 0 = true ∧
    s.hw.cap.cxpRead.getD n false = true :=
⟨small (.all [.wrN (Reg.CXP.CMD_STATUS 7) 1, .cap fun c => { c with cxpRead := updAt (fun _ => true) 7 c.cxpRead }]), 7, by
    unfold State.live State.sound
    decide +kernel⟩

theorem witness_CameraCommands_linkLost : ∃ (s : State) (n : Fin 8) (k : Fin 4), s.live ∧ s.bit (Reg.CXP.CXP_STATUS n) k =
    true :=
⟨small (.wrN (Reg.CXP.CXP_STATUS 7) 8), 7, 3, by
    unfold State.live State.sound
    decide +kernel⟩

theorem witness_CameraCommands_discovery : ∃ (s : State) (n : Fin 8) (k : Fin 4) (speed : BitVec 4), s.live ∧ s.bit
    (Reg.CXP.CXP_CTRL n) 0 = true ∧ speed.toNat ∈ [1, 2, 3, 5, 6, 10, 12] ∧ k.val < s.cxpLinks n :=
⟨small (.wrN (Reg.CXP.CXP_CTRL 7) 5), 7, 3, 12, by
    unfold State.live State.sound
    decide +kernel⟩

theorem witness_CameraCommands_csi : ∃ (s : State) (n : Fin 16) (vc : BitVec 2), s.live ∧ s.bit (Reg.CSI.CSI_CTRL n) 0 = true
    ∧ s.fld (Reg.CSI.CSI_CTRL n) 4 3 = vc.toNat ∧ s.fld (Reg.CSI.CSI_CTRL n) 10 5 = 0x2A ∧ (s.rd (Reg.CSI.ECC_UNCORR
    n)).toNat < 4294967295 :=
⟨small (.wrN (Reg.CSI.CSI_CTRL 15) (1 + 8 * 3 + 32 * 0x2A)), 15, 3, by
    unfold State.live State.sound
    decide +kernel⟩

theorem witness_PathCommands_enable : ∃ (s : State) (p : Fin 16) (v : Word), s.live ∧ s.accepts 0 (Reg.SFE.PATH_CTRL p) (v
    ||| 1) = true ∧ s.bit (Reg.SFE.PATH_CTRL p) 0 = false :=
⟨State.reset, 15, 0, by
    unfold State.live State.sound
    decide +kernel⟩

theorem witness_PathCommands_disable : ∃ (s : State) (p : Fin 16) (v : Word), s.live ∧ s.accepts 0 (Reg.SFE.PATH_CTRL p) (v
    &&& ~~~ 1) = true ∧ s.bit (Reg.SFE.PATH_CTRL p) 0 = true ∧ p.val < s.hw.cap.paths.length :=
⟨small (.all [.wrN Reg.SFE.SFE_CTRL 1, .wrN (Reg.SFE.PATH_CTRL 15) 1, .wrN (Reg.SFE.RATE_DECL 15) 77, .path 15 fun x =>
    { x with items := [{ id := 3 }] }]), 15, 1, by
    unfold State.live State.sound
    decide +kernel⟩

theorem witness_PathCommands_opened : ∃ (s : State) (p : Fin 16) (v : Word), s.live ∧ s.accepts 0 (Reg.SFE.PATH_CMD p) (v |||
    1) = true ∧ s.pathOn p = true ∧ s.pItemSrc p = 4 ∧ s.itemOpenOn p = none :=
⟨small (.all [.wrN Reg.SFE.SFE_CTRL 1, .wrN (Reg.SFE.PATH_CTRL 15) (1 + 128 * 4)]), 15, 0, by
    unfold State.live State.sound
    decide +kernel⟩

theorem witness_PathCommands_closed : ∃ (s : State) (p : Fin 16) (v : Word) (x : PathItem), s.live ∧ s.accepts 0
    (Reg.SFE.PATH_CMD p) (v ||| 2) = true ∧ s.pItemSrc p = 4 ∧ s.itemOpenOn p = some x ∧ p.val < s.hw.cap.paths.length :=
⟨small (.all [.wrN Reg.SFE.SFE_CTRL 1, .wrN (Reg.SFE.PATH_CTRL 15) (1 + 128 * 4), .wrN (Reg.SFE.PATH_STATUS 15) 1, .path 15
    fun x => { x with items := [{ id := 3 }] }]), 15, 0, { id := 3 }, by
    unfold State.live State.sound
    decide +kernel⟩

theorem witness_PathCommands_gate : ∃ (s : State) (gate : Fin 16) (level : Bool), s.live ∧ s.hw.cap.gates.getLsbD gate ≠
    level ∧ s.pathOn 15 = true ∧ s.pItemSrc 15 = 0 ∧ s.fld (Reg.SFE.PATH_ITEM 15) 27 24 = gate.val ∧ s.itemOpenOn 15 = none ∧
    level ≠ s.bit (Reg.SFE.PATH_ITEM 15) 28 :=
⟨small (.all [.wrN Reg.SFE.SFE_CTRL 1, .wrN (Reg.SFE.PATH_CTRL 15) 1, .wrN (Reg.SFE.PATH_ITEM 15) 0xF000000]), 15, true, by
    unfold State.live State.sound
    decide +kernel⟩

theorem witness_PathCommands_lineFull : ∃ (s : State) (p : Fin 16) (l : RawLine), s.live ∧ (s.path p).cur = [l] ∧ l.ready =
    true ∧ p.val < s.hw.cap.paths.length ∧ s.pAvgY p ≤ (s.path p).group.length + 1 :=
⟨small (.all [.wrN Reg.SFE.SFE_CTRL 1, .wrN (Reg.SFE.PATH_CTRL 15) 1, .path 15 fun x =>
    { x with cur := [{ ready := true }] }]), 15, { ready := true }, by
    unfold State.live State.sound
    decide +kernel⟩

theorem witness_PathCommands_linePart : ∃ (s : State) (p : Fin 16) (l : RawLine), s.live ∧ (s.path p).cur = [l] ∧ l.ready =
    true ∧ p.val < s.hw.cap.paths.length ∧ (s.path p).group.length + 1 < s.pAvgY p :=
⟨small (.all [.wrN Reg.SFE.SFE_CTRL 1, .wrN (Reg.SFE.PATH_CTRL 15) 0x800001, .path 15 fun x =>
    { x with cur := [{ ready := true }] }]), 15, { ready := true }, by
    unfold State.live State.sound
    decide +kernel⟩

theorem witness_PathCommands_post : ∃ (s : State) (p : Fin 16) (x : PathItem) (e : Nat), s.live ∧ (s.path p).items = [x] ∧
    x.stop = some e ∧ e ≤ s.outStarted p ∧ x.closed = false ∧ p.val < s.hw.cap.paths.length :=
⟨small (.all [.wrN Reg.SFE.SFE_CTRL 1, .wrN (Reg.SFE.PATH_CTRL 15) 1, .wrN (Reg.SFE.PATH_STATUS 15) 1, .path 15 fun x =>
    { x with items := [{ id := 3, stop := some 0 }] }]), 15, { id := 3, stop := some 0 }, 0, by
    unfold State.live State.sound
    decide +kernel⟩

theorem witness_PathCommands_band : ∃ (s : State) (p : Fin 16) (x : PathItem) (d : Due), s.live ∧ (s.path p).waiting = [] ∧
    (s.path p).items = [x] ∧ x.dueNow ((s.path p).lbFirst + (s.path p).lb.length) (s.pBand p) = some d ∧ p.val <
    s.hw.cap.paths.length ∧ s.pRoom p = true :=
⟨small (.all [.wrN Reg.SFE.SFE_CTRL 1, .wrN (Reg.SFE.PATH_CTRL 15) 1, .wrN (Reg.SFE.PATH_GEOM 15) 0x10002, .wrN
    (Reg.SFE.DEST_BASE 15) 0x10000, .wrN (Reg.SFE.DEST_CFG 15) 0x10004, .wrN (Reg.SFE.DEST_TAIL 15) 3, .wrN
    (Reg.SFE.DEST_HEAD 15) 2, .path 15 fun x => { x with lb := [{ px := [1, 2] }], items := [{ id := 3, bandLeft := 1 }] }]),
    15, { id := 3, bandLeft := 1 }, ⟨1, false, false, false⟩, by
    unfold State.live State.sound
    decide +kernel⟩

theorem witness_PathCommands_bandLast : ∃ (s : State) (p : Fin 16) (x : PathItem) (d : Due), s.live ∧ (s.path p).waiting = []
    ∧ (s.path p).items = [x] ∧ x.dueNow ((s.path p).lbFirst + (s.path p).lb.length) (s.pBand p) = some d ∧ p.val <
    s.hw.cap.paths.length ∧ s.pRoom p = true :=
⟨small (.all [.wrN Reg.SFE.SFE_CTRL 1, .wrN (Reg.SFE.PATH_CTRL 15) 1, .wrN (Reg.SFE.PATH_GEOM 15) 0x10002, .wrN
    (Reg.SFE.DEST_BASE 15) 0x10000, .wrN (Reg.SFE.DEST_CFG 15) 0x10004, .path 15 fun x =>
    { x with lb := [{ px := [1, 2] }], items := [{ id := 3, bandLeft := 1, stop := some 1 }] }]), 15,
    { id := 3, bandLeft := 1, stop := some 1 }, ⟨1, true, false, false⟩, by
    unfold State.live State.sound
    decide +kernel⟩

theorem witness_PathCommands_bandWaits : ∃ (s : State) (p : Fin 16) (x : PathItem) (d : Due), s.live ∧ (s.path p).waiting =
    [] ∧ (s.path p).items = [x] ∧ x.dueNow ((s.path p).lbFirst + (s.path p).lb.length) (s.pBand p) = some d ∧ p.val <
    s.hw.cap.paths.length ∧ s.pRoom p = false :=
⟨small (.all [.wrN Reg.SFE.SFE_CTRL 1, .wrN (Reg.SFE.PATH_CTRL 15) 1, .wrN (Reg.SFE.PATH_GEOM 15) 0x10002, .wrN
    (Reg.SFE.DEST_CFG 15) 0x10004, .wrN (Reg.SFE.DEST_TAIL 15) 3, .path 15 fun x =>
    { x with lb := [{ px := [1, 2] }], items := [{ id := 3, bandLeft := 1 }] }]), 15, { id := 3, bandLeft := 1 }, ⟨1, false,
    false, false⟩, by
    unfold State.live State.sound
    decide +kernel⟩

theorem witness_PathCommands_wait : ∃ (s : State) (p : Fin 16) (x : PathItem) (t0 : Nat), s.live ∧ (s.path p).waiting = [] ∧
    (s.path p).items = [x] ∧ x.dueNow ((s.path p).lbFirst + (s.path p).lb.length) (s.pBand p) = none ∧ p.val <
    s.hw.cap.paths.length ∧ (match (s.path p).waitFrom with | some a => some a | none => s.requestTime p x) = some t0 ∧ t0 +
    (s.rd (Reg.SFE.PATH_WAIT p)).toNat % 65536 * 1000 ≤ s.now ∧ x.next < (s.path p).lbFirst + (s.path p).lb.length ∧ s.pRoom
    p = true :=
⟨small (.all [.wrN Reg.SFE.SFE_CTRL 1, .wrN (Reg.SFE.PATH_CTRL 15) 1, .wrN (Reg.SFE.PATH_GEOM 15) 0x20002, .wrN
    (Reg.SFE.DEST_BASE 15) 0x10000, .wrN (Reg.SFE.DEST_CFG 15) 0x10004, .wrN (Reg.SFE.PATH_WAIT 15) 1, .upd (.tsc 1000),
    .path 15 fun x => { x with lb := [{ px := [1, 2] }], waitFrom := some 0, items := [{ id := 3, bandLeft := 2 }] }]), 15,
    { id := 3, bandLeft := 2 }, 0, by
    unfold State.live State.sound
    decide +kernel⟩

theorem witness_PathCommands_waitNone : ∃ (s : State) (p : Fin 16) (x : PathItem) (t0 : Nat), s.live ∧ (s.path p).waiting =
    [] ∧ (s.path p).items = [x] ∧ x.dueNow ((s.path p).lbFirst + (s.path p).lb.length) (s.pBand p) = none ∧ p.val <
    s.hw.cap.paths.length ∧ (match (s.path p).waitFrom with | some a => some a | none => s.requestTime p x) = some t0 ∧ t0 +
    (s.rd (Reg.SFE.PATH_WAIT p)).toNat % 65536 * 1000 ≤ s.now ∧ (s.path p).lbFirst + (s.path p).lb.length ≤ x.next :=
⟨small (.all [.wrN Reg.SFE.SFE_CTRL 1, .wrN (Reg.SFE.PATH_CTRL 15) 1, .wrN (Reg.SFE.PATH_GEOM 15) 0x20002, .wrN
    (Reg.SFE.DEST_CFG 15) 0x10004, .wrN (Reg.SFE.PATH_WAIT 15) 1, .upd (.tsc 1000), .path 15 fun x =>
    { x with waitFrom := some 0, items := [{ id := 3, bandLeft := 2 }] }]), 15, { id := 3, bandLeft := 2 }, 0, by
    unfold State.live State.sound
    decide +kernel⟩

theorem witness_PathCommands_destHead : ∃ (s : State) (p : Fin 16) (v : Word), s.live ∧ s.accepts 0 (Reg.SFE.DEST_HEAD p) v =
    true ∧ s.bit Reg.JRNL.JRNL_CTRL 0 = false :=
⟨small (.wrN (Reg.SFE.PATH_STREAM 15) 0x1FF), 15, 0x12345678, by
    unfold State.live State.sound
    decide +kernel⟩

theorem witness_DescriptorAdmission_admitted : ∃ (s : State) (c : BitVec 8) (d : BitVec 512) (op : Nat), s.live ∧ s.mayAdmit
    c.toNat = true ∧ s.admitLimit c.toNat 1 = false ∧ Desc.inStream (Desc.ofRow op d) = 0xFFF ∧ s.descRefused c.toNat
    (Desc.ofRow op d) = false :=
⟨small (.all [.wrN Reg.DISP.DISP_CTRL 3, ctxRec 255 2, .ctx 255 fun x => { x with tail := 1 }]), 255, desc opCOPY, opCOPY, by
    unfold State.live State.sound
    decide +kernel⟩

theorem witness_DescriptorAdmission_refused : ∃ (s : State) (c : BitVec 8) (d : BitVec 512) (op : Nat), s.live ∧ s.mayAdmit
    c.toNat = true ∧ s.admitLimit c.toNat 1 = false ∧ Desc.inStream (Desc.ofRow op d) = 0xFFF ∧ (s.headTaken
    c.toNat).descRefused c.toNat (Desc.ofRow op d) = true :=
⟨small (.all [.wrN Reg.DISP.DISP_CTRL 3, ctxRec 255 2, .ctx 255 fun x => { x with tail := 1 }]), 255, desc opMATMUL,
    opMATMUL, by
    unfold State.live State.sound
    decide +kernel⟩

theorem witness_DescriptorAdmission_unit : ∃ (s : State) (c : BitVec 8) (d : BitVec 512) (op : Nat) (n : Nat) (k : Nat) (u :
    DUnit), s.live ∧ s.mayAdmit c.toNat = true ∧ s.admitLimit c.toNat 1 = false ∧ (s.headTaken c.toNat).localStream
    (BitVec.ofNat 12 (Desc.inStream (Desc.ofRow op d))) = some n ∧ Desc.inStream (Desc.ofRow op d) ≠ 0xFFF ∧ (s.headTaken
    c.toNat).descRefused c.toNat (Desc.ofRow op d) = false ∧ (s.headTaken c.toNat).nextUnit n k u :=
⟨small (.all [.wrN Reg.DISP.DISP_CTRL 3, ctxRec 255 2, .ctx 255 (fun x => { x with tail := 1 }), .mem 160 4 0x90000, .mem 164
    2 4, .mem 166 2 1, .mem 172 4 1, .mem 176 1 0x80, .bytes 0x90000 (inUnit.toBytes)]), 255, onStream (desc opMATMUL (2 ^ 64
    + 2 ^ 96 + 2 ^ 128)), opMATMUL, 5, 0, inUnit, by
    unfold State.live State.sound
    unfold State.nextUnit
    decide +kernel⟩

theorem witness_DescriptorAdmission_waiting : ∃ (s : State) (c : BitVec 8) (d : BitVec 512) (op : Nat) (n : Nat), s.live ∧
    s.mayAdmit c.toNat = true ∧ s.admitLimit c.toNat 1 = false ∧ (s.headTaken c.toNat).localStream (BitVec.ofNat 12
    (Desc.inStream (Desc.ofRow op d))) = some n ∧ ((s.headTaken c.toNat).streamSt n).queue = [] ∧ (s.headTaken
    c.toNat).hasUnit n = false ∧ (s.headTaken c.toNat).descRefused c.toNat (Desc.ofRow op d) = false :=
⟨small (.all [.wrN Reg.DISP.DISP_CTRL 3, ctxRec 255 2, .ctx 255 fun x => { x with tail := 1 }]), 255, onStream (desc opMATMUL
    (2 ^ 64 + 2 ^ 96 + 2 ^ 128)), opMATMUL, 5, by
    unfold State.live State.sound
    decide +kernel⟩

theorem witness_DescriptorAdmission_attention : ∃ (s : State) (c : BitVec 8) (d : BitVec 512) (e : SeqEntry), s.live ∧
    s.mayAdmit c.toNat = true ∧ s.admitLimit c.toNat 1 = false ∧ Desc.inStream (Desc.ofRow opATTENTION d) = 0xFFF ∧
    (s.headTaken c.toNat).descRefused c.toNat (Desc.ofRow opATTENTION d) = false ∧ s.hw.disp.removed = [] ∧ (s.headTaken
    c.toNat).attnBad ((s.headTaken c.toNat).attn (Desc.ofRow opATTENTION d)) = false ∧ (s.headTaken c.toNat).seqList
    (Desc.ofRow opATTENTION d) = [e] ∧ (s.headTaken c.toNat).entryBad e = false ∧ (s.headTaken c.toNat).lockReason c.toNat e
    = 0 ∧ ((s.headTaken c.toNat).seqRec e.seq).state = sqACTIVE ∧ ((if e.acquire then (Act.seqLock e.seq c.toNat).run
    (s.headTaken c.toNat) else (s.headTaken c.toNat)).seqRec e.seq).state ≠ sqPAUSED ∧ ¬(((if e.acquire then (Act.seqLock
    e.seq c.toNat).run (s.headTaken c.toNat) else (s.headTaken c.toNat)).seqRec e.seq).dropped = true ∧ ((s.headTaken
    c.toNat).attn (Desc.ofRow opATTENTION d)).op ≤ 1) ∧ (if e.acquire then (Act.seqLock e.seq c.toNat).run (s.headTaken
    c.toNat) else (s.headTaken c.toNat)).newLen ((s.headTaken c.toNat).attn (Desc.ofRow opATTENTION d)).op ((if e.acquire
    then (Act.seqLock e.seq c.toNat).run (s.headTaken c.toNat) else (s.headTaken c.toNat)).seqRec e.seq) e ≤ 16 * ((if
    e.acquire then (Act.seqLock e.seq c.toNat).run (s.headTaken c.toNat) else (s.headTaken c.toNat)).seqRec e.seq).cap ∧ (if
    e.acquire then (Act.seqLock e.seq c.toNat).run (s.headTaken c.toNat) else (s.headTaken c.toNat)).pagesNeeded ((if
    e.acquire then (Act.seqLock e.seq c.toNat).run (s.headTaken c.toNat) else (s.headTaken c.toNat)).seqRec e.seq) ((if
    e.acquire then (Act.seqLock e.seq c.toNat).run (s.headTaken c.toNat) else (s.headTaken c.toNat)).newLen ((s.headTaken
    c.toNat).attn (Desc.ofRow opATTENTION d)).op ((if e.acquire then (Act.seqLock e.seq c.toNat).run (s.headTaken c.toNat)
    else (s.headTaken c.toNat)).seqRec e.seq) e) = [] :=
⟨small (.all [.wrN Reg.DISP.DISP_CTRL 3, ctxRec 255 2, .ctx 255 (fun x => { x with tail := 1 }), seqRecord 3 1, .mem 0x20000
    4 (2 ^ 24), .wrN Reg.KVW.POOL_FMT 0x100010, .wrN Reg.KVW.POOL_GEOM 0x100001, .mem 0x70000 4 0x10101000, .mem 0x70006 4
    0x100101, .mem 0x7000C 4 0x3F800000, .mem 0x78000 4 0x10010003]), 255, desc opATTENTION (0x70000 * 2 ^ 320 + 0x78000 * 2
    ^ 384 + 2 ^ 448), ⟨3, 1, true, false, false, false, 0⟩, by
    unfold State.live State.sound
    decide +kernel⟩

theorem witness_DescriptorAdmission_limit : ∃ (s : State) (c : BitVec 8), s.live ∧ s.mayAdmit c.toNat = true ∧ s.admitLimit
    c.toNat 1 = true ∧ (s.ctx c.toNat).limited = false :=
⟨small (.all [.wrN Reg.DISP.DISP_CTRL 3, ctxRec 255 2, .ctx 255 (fun x => { x with tail := 1 }), cmds ((List.range 64).map
    fun i => { id := i, ctx := 255 })]), 255, by
    unfold State.live State.sound
    decide +kernel⟩

theorem witness_DescriptorAdmission_mask : ∃ (s : State) (c : BitVec 8) (d : BitVec 512) (next : BitVec 512), s.live ∧
    s.mayAdmit c.toNat = true ∧ (s.ctxSqHead c.toNat + 1) % 4294967296 ≠ (s.ctx c.toNat).tail ∧ s.admitLimit c.toNat 2 =
    false ∧ Desc.inStream (Desc.ofRow opMASK d) = 0xFFF ∧ (s.headTaken c.toNat).descRefused c.toNat (Desc.ofRow opMASK d) =
    false ∧ s.bit Reg.TXT.TXT_STATUS 0 = true ∧ Desc.inStream next = 0xFFF ∧ ((s.headTaken c.toNat).headTaken
    c.toNat).descRefused c.toNat next = false ∧ Desc.opcode next ∉ [opATTENTION, opMASK] :=
⟨small (.all [.wrN Reg.DISP.DISP_CTRL 3, ctxRec 255 2, .wrN Reg.TXT.TXT_STATUS 1, .ctx 255 fun x => { x with tail := 2 }]),
    255, desc opMASK (0x70000 * 2 ^ 320 + 0x78000 * 2 ^ 384 + 2 ^ 448), desc opCOPY, by
    unfold State.live State.sound
    decide +kernel⟩

theorem witness_ContextCommands_start : ∃ (s : State) (v : Word), s.live ∧ s.accepts 0 Reg.DISP.CTX_CMD (setBits v 3 0 1) =
    true ∧ s.bit Reg.JRNL.JRNL_CTRL 0 = false ∧ s.startReason (bits v 15 8) = 0 :=
⟨small (.all [.wrN Reg.JRNL.JRNL_CTRL 0, ctxRec 255 0]), 0xFF00, by
    unfold State.live State.sound
    decide +kernel⟩

theorem witness_ContextCommands_startBad : ∃ (s : State) (v : Word), s.live ∧ s.accepts 0 Reg.DISP.CTX_CMD (setBits v 3 0 1)
    = true ∧ s.bit Reg.JRNL.JRNL_CTRL 0 = false ∧ s.startReason (bits v 15 8) ≠ 0 :=
⟨small (.all [.wrN Reg.JRNL.JRNL_CTRL 0, ctxRec 255 3]), 0xFF00, by
    unfold State.live State.sound
    decide +kernel⟩

theorem witness_ContextCommands_stop : ∃ (s : State) (v : Word), s.live ∧ s.accepts 0 Reg.DISP.CTX_CMD (setBits v 3 0 2) =
    true ∧ s.bit Reg.JRNL.JRNL_CTRL 0 = false ∧ s.ctxState (bits v 15 8) = 2 ∧ (s.hw.disp.cmds.any fun x => x.ctx == bits v
    15 8) = false :=
⟨small (.all [.wrN Reg.JRNL.JRNL_CTRL 0, ctxRec 255 2]), 0xFF00, by
    unfold State.live State.sound
    decide +kernel⟩

theorem witness_ContextCommands_teardown : ∃ (s : State) (v : Word), s.live ∧ s.accepts 0 Reg.DISP.CTX_CMD (setBits v 3 0 3)
    = true ∧ s.bit Reg.JRNL.JRNL_CTRL 0 = false ∧ s.ctxState (bits v 15 8) = 1 ∧ (∀ x ∈ s.hw.disp.cmds, x.inSlot = none) ∧ (∀
    w ∈ (s.ctx (bits v 15 8)).waiting, w.slot = none) :=
⟨small (.all [.wrN Reg.JRNL.JRNL_CTRL 0, ctxRec 255 1, cmds [{ id := 3, ctx := 255 }]]), 0xFF00, by
    unfold State.live State.sound
    decide +kernel⟩

theorem witness_ContextCommands_torn : ∃ (s : State) (c : BitVec 8), s.live ∧ s.ctxState c.toNat = 3 :=
⟨small (ctxRec 255 3), 255, by
    unfold State.live State.sound
    decide +kernel⟩

theorem witness_ContextCommands_bell : ∃ (s : State) (f : Fin 32) (c : BitVec 8) (v : Word), s.live ∧ s.fnEnabled f = true ∧
    s.mayRing f c.toNat = true ∧ (v.toNat + 2 ^ 32 - s.ctxSqHead c.toNat) % 2 ^ 32 ≤ 2 ^ s.ctxSqLog2 c.toNat :=
⟨small (ctxRec 255 2), 0, 255, 16, by
    unfold State.live State.sound
    decide +kernel⟩

theorem witness_ContextCommands_bellFar : ∃ (s : State) (f : Fin 32) (c : BitVec 8) (v : Word), s.live ∧ s.fnEnabled f = true
    ∧ s.mayRing f c.toNat = true ∧ 2 ^ s.ctxSqLog2 c.toNat < (v.toNat + 2 ^ 32 - s.ctxSqHead c.toNat) % 2 ^ 32 :=
⟨small (ctxRec 255 2), 0, 255, 17, by
    unfold State.live State.sound
    decide +kernel⟩

theorem witness_ContextCommands_cqBell : ∃ (s : State) (f : Fin 32) (c : BitVec 8), s.live ∧ s.fnEnabled f = true ∧ s.mayRing
    f c.toNat = true ∧ keysRise s.hw.disp.ctxs ∧ (s.ctx c.toNat).waiting = [] :=
⟨small (ctxRec 255 2), 0, 255, by
    unfold State.live State.sound
    decide +kernel⟩

theorem witness_ContextCommands_bellOther : ∃ (s : State) (f : Fin 32) (c : BitVec 8), s.live ∧ s.fnEnabled f = true ∧
    s.mayRing f c.toNat = false :=
⟨small (ctxRec 255 1), 0, 255, by
    unfold State.live State.sound
    decide +kernel⟩

theorem witness_ContextCommands_report : ∃ (s : State) (c : Nat) (v : Word), s.live ∧ s.fld Reg.SAFE.C2_REGION 26 16 = 0 ∧
    s.bit Reg.DISP.DISP_CTRL 3 = true ∧ keysRise s.hw.disp.ctxs ∧ c < 256 ∧ s.ctxState c = 2 ∧ s.ctxReportAddr c ≠ 0 ∧ (∀ k :
    Nat, k < 256 → (s.ctxState k = 2 → s.ctxReportAddr k ≠ 0 → k = c)) ∧ (s.ctxReportAddr c + 64 ≤ s.ctxAddr 0 ∨ s.ctxAddr
    256 ≤ s.ctxReportAddr c) ∧ s.accepts 0 Reg.DISP.CTX_CMD (setBits v 3 0 4) = true ∧ s.bit Reg.JRNL.JRNL_CTRL 0 = false :=
⟨small (.all [.wrN Reg.JRNL.JRNL_CTRL 0, .wrN Reg.DISP.DISP_CTRL 8, ctxRec 255 2]), 255, 0, by
    unfold State.live State.sound
    decide +kernel⟩

theorem witness_ContextCommands_noReport : ∃ (s : State), s.live ∧ s.bit Reg.DISP.DISP_CTRL 3 = false :=
⟨small (.wrN Reg.DISP.DISP_CTRL 7), by
    unfold State.live State.sound
    decide +kernel⟩

theorem witness_CommandCompletion_copy : ∃ (s : State) (id : Nat) (c : Cmd), s.live ∧ s.fld Reg.SAFE.C2_REGION 26 16 = 0 ∧
    s.hw.boot.frozen = false ∧ s.cmd id = some c ∧ c.phase = .running ∧ c.empty = false ∧ Desc.opcode c.desc = opCOPY ∧
    Desc.splitId c.desc = 0 ∧ Desc.splitN c.desc = 0 ∧ c.engines = [] ∧ c.parts = [] ∧ c.inSlot = none ∧ c.remote = none ∧
    s.lctPassed c = false ∧ (s.ctx c.ctx).waiting = [] ∧ s.cqRoom c.ctx 1 = true ∧ 0 < Desc.auxCount c.desc ∧ (s.ctxAddr
    c.ctx + 64 ≤ Desc.auxAddr c.desc) :=
⟨small (.all [ctxRec 255 2, .mem 0x70000 4 0x44332211, cmds
    [{ id := 3, ctx := 255, desc := desc opCOPY (0x70000 * 2 ^ 256 + 0x80000 * 2 ^ 384 + 4 * 2 ^ 448), phase := .running }]]),
    3, { id := 3, ctx := 255, desc := desc opCOPY (0x70000 * 2 ^ 256 + 0x80000 * 2 ^ 384 + 4 * 2 ^ 448), phase := .running },
    by
    unfold State.live State.sound
    decide +kernel⟩

theorem witness_CommandCompletion_commit : ∃ (s : State) (id : Nat) (c : Cmd), s.live ∧ s.hw.boot.frozen = false ∧ s.cmd id =
    some c ∧ s.requestStaged c = true ∧ (s.ctx c.ctx).waiting = [] ∧ s.cqRoom c.ctx (s.siblings c).length = true ∧ s.roomFor
    ((s.siblings c).flatMap (·.finalOuts)) = true ∧ (∀ x ∈ s.siblings c, s.lctPassed x = false ∨ Desc.dlAbort x.desc = false)
    ∧ keysRise s.hw.disp.ctxs :=
⟨small (.all [ctxRec 255 2, cmds [{ id := 3, ctx := 255, desc := desc opCOPY, phase := .staged }]]), 3,
    { id := 3, ctx := 255, desc := desc opCOPY, phase := .staged }, by
    unfold State.live State.sound
    decide +kernel⟩

theorem witness_CommandCompletion_lct : ∃ (s : State) (id : Nat) (t0 : Nat) (c : Cmd), s.live ∧ s.cmd id = some c ∧
    s.siblings c = [c] ∧ s.lct c = some t0 ∧ t0 ≤ s.now ∧ Desc.dlAbort c.desc = true :=
⟨small (.all [ctxRec 255 2, .upd (.tsc 1000), cmds
    [{ id := 3, ctx := 255, desc := desc opCOPY (2 ^ 14 + 2 ^ 224), phase := .ready }]]), 3, 1000,
    { id := 3, ctx := 255, desc := desc opCOPY (2 ^ 14 + 2 ^ 224), phase := .ready }, by
    unfold State.live State.sound
    decide +kernel⟩

theorem witness_CommandCompletion_lctStay : ∃ (s : State) (id : Nat) (c : Cmd), s.live ∧ s.cmd id = some c ∧ Desc.dlAbort
    c.desc = false :=
⟨small (cmds [{ id := 3, desc := desc opCOPY }]), 3, { id := 3, desc := desc opCOPY }, by
    unfold State.live State.sound
    decide +kernel⟩

theorem witness_PreemptionCommands_class2 : ∃ (s : State) (w : Cmd) (v : Cmd) (k : Nat), s.live ∧ s.bit Reg.DISP.DISP_CTRL 0
    = true ∧ s.bit Reg.DISP.DISP_CTRL 1 = true ∧ s.hw.boot.frozen = false ∧ ((s.preemptors.filter fun w => w.cls == 2 ||
    !s.savingFor w).findSome? fun w => (leastBy s.victimLt (s.victimsFor w)).map fun v => (w, v)) = some (w, v, k) ∧ v.remote
    = none ∧ w.cls = 2 :=
⟨small (.all [.wrN Reg.DISP.DISP_CTRL 3, ctxRec 255 2, .eng 34 (fun e => { e with cmd := some 3 }), cmds
    [{ id := 3, ctx := 255, desc := desc opMATMUL, phase := .running, engines := [34] },
    { id := 4, ctx := 255, cls := 2, desc := setBits (desc opMATMUL) 31 24 31, phase := .ready }]]),
    { id := 4, ctx := 255, cls := 2, desc := setBits (desc opMATMUL) 31 24 31, phase := .ready },
    { id := 3, ctx := 255, desc := desc opMATMUL, phase := .running, engines := [34] }, 0, by
    unfold State.live State.sound
    decide +kernel⟩

theorem witness_PreemptionCommands_cheap : ∃ (s : State) (w : Cmd) (v : Cmd) (k : Nat) (j : Nat) (n : Nat), s.live ∧ s.bit
    Reg.DISP.DISP_CTRL 0 = true ∧ s.bit Reg.DISP.DISP_CTRL 1 = true ∧ s.hw.boot.frozen = false ∧ ((s.preemptors.filter fun w
    => w.cls == 2 || !s.savingFor w).findSome? fun w => (leastBy s.victimLt (s.victimsFor w)).map fun v => (w, v)) = some (w,
    v, k) ∧ v.remote = none ∧ w.cls ≠ 2 ∧ s.nextCheap v k = some (j, n) ∧ n ≤ s.fld Reg.DISP.CHEAP_WAIT 15 0 ∧ s.logicalOf
    (v.engines.getD k 36) = some 31 ∧ s.bit Reg.DISP.CLASS2_ENG 31 = false :=
⟨small (.all [.wrN Reg.DISP.DISP_CTRL 3, ctxRec 255 2 1, .mem 0x50000 1 1, .mem 0x50008 3 2, .eng 34 (fun e =>
    { e with cmd := some 3, done := 2 }), cmds
    [{ id := 3, ctx := 254, desc := setBits (desc opMATMUL) 191 184 0, phase := .running, engines := [34] },
    { id := 4, ctx := 255, cls := 1, desc := setBits (desc opMATMUL (2 ^ 224)) 31 24 31, phase := .ready }], .mem (64 * 254 +
    48) 8 0x50000, .upd (.tsc 1000)]),
    { id := 4, ctx := 255, cls := 1, desc := setBits (desc opMATMUL (2 ^ 224)) 31 24 31, phase := .ready },
    { id := 3, ctx := 254, desc := setBits (desc opMATMUL) 191 184 0, phase := .running, engines := [34] }, 0, 0, 0, by
    unfold State.live State.sound
    decide +kernel⟩

theorem witness_PreemptionCommands_off : ∃ (s : State), s.live ∧ s.bit Reg.DISP.DISP_CTRL 1 = false :=
⟨small (.wrN Reg.DISP.DISP_CTRL 1), by
    unfold State.live State.sound
    decide +kernel⟩

theorem witness_PreemptionCommands_reached : ∃ (s : State) (id : Nat) (j : Fin 7) (c : Cmd) (k : Nat), s.live ∧ s.cmd id =
    some c ∧ c.toCheap = some (k, j.val) ∧ (s.eng (c.engines.getD k 36)).done = (s.cheapPoint c j).1 ∧ (s.eng (c.engines.getD
    k 36)).fails = [] ∧ (s.eng (c.engines.getD k 36)).diag = 0 ∧ (s.cheapPoint c j).2.2 ≤ s.ctxSaveKib c.ctx * 1024 :=
⟨small (.all [ctxRec 254 2, .mem 0x50000 1 7, .mem 0x50038 8 (2 + 2 ^ 24 * 4092 + 2 ^ 37 * 4), .eng 35 (fun e =>
    { e with cmd := some 3, done := 2 }), cmds
    [{ id := 3, ctx := 254, desc := setBits (desc opMATMUL) 191 184 0, phase := .running, engines := [35], toCheap := some (0, 6) }]]),
    3, 6,
    { id := 3, ctx := 254, desc := setBits (desc opMATMUL) 191 184 0, phase := .running, engines := [35], toCheap := some (0, 6) },
    0, by
    unfold State.live State.sound
    decide +kernel⟩

theorem witness_PreemptionCommands_saved : ∃ (s : State) (id : Nat) (c : Cmd) (k : Nat) (j : Nat), s.live ∧ s.fld
    Reg.SAFE.C2_REGION 26 16 = 0 ∧ s.cmd id = some c ∧ c.saving = some (k, j) ∧ c.engines.length ≤ 1 ∧ (s.readEs 35 1024
    1024).take 3 = [1, 2, 3] :=
⟨small (.all [ctxRec 254 2, .mem 0x50000 1 1, .mem 0x50008 8 (2 ^ 24 + 2 ^ 37), .upd (.es (esAddr 35 1024) [1, 2, 3]), .eng
    35 (fun e => { e with cmd := some 3 }), cmds
    [{ id := 3, ctx := 254, desc := setBits (desc opMATMUL) 191 184 0, phase := .running, engines := [35], saving := some (0, 0) }]]),
    3,
    { id := 3, ctx := 254, desc := setBits (desc opMATMUL) 191 184 0, phase := .running, engines := [35], saving := some (0, 0) },
    0, 0, by
    unfold State.live State.sound
    decide +kernel⟩

theorem witness_PreemptionCommands_restored : ∃ (s : State) (id : Nat) (c : Cmd), s.live ∧ s.cmd id = some c ∧ c.restoring =
    [0] ∧ (c.saved.find? fun x => x.1 == 0) = some (0, 0, 0) :=
⟨small (.all [ctxRec 254 2, .mem 0x50000 1 1, .mem 0x50008 8 (2 ^ 24 + 2 ^ 37), .mem 0x40000 3 0x030201, cmds
    [{ id := 3, ctx := 254, desc := setBits (desc opMATMUL) 191 184 0, phase := .running, engines := [35], saved := [(0, 0, 0)], restoring := [0] }]]),
    3,
    { id := 3, ctx := 254, desc := setBits (desc opMATMUL) 191 184 0, phase := .running, engines := [35], saved := [(0, 0, 0)], restoring := [0] },
    by
    unfold State.live State.sound
    decide +kernel⟩

theorem witness_PreemptionCommands_timeout : ∃ (s : State) (id : Nat) (t0 : Nat) (c : Cmd), s.live ∧ s.cmd id = some c ∧
    c.remote = some t0 ∧ t0 + s.fld Reg.DISP.REMOTE_TO 15 0 * 1000 ≤ s.now :=
⟨small (.all [.upd (.tsc 100009), cmds [{ id := 3, remote := some 9, desc := desc opGET, phase := .running }]]), 3, 9,
    { id := 3, remote := some 9, desc := desc opGET, phase := .running }, by
    unfold State.live State.sound
    decide +kernel⟩

theorem witness_PreemptionCommands_quarantine : ∃ (s : State) (id : Nat) (gen : Nat), s.live ∧ (s.cmd id).map (fun c =>
    decide (gen < c.gen)) = some true :=
⟨small (cmds [{ id := 3, remote := some 9, gen := 2 }]), 3, 1, by
    unfold State.live State.sound
    decide +kernel⟩

theorem witness_PreemptionCommands_current : ∃ (s : State) (id : Nat) (gen : Nat) (c : Cmd), s.live ∧ s.cmd id = some c ∧
    c.remote ≠ none ∧ c.gen ≤ gen :=
⟨small (cmds [{ id := 3, remote := some 9, gen := 2 }]), 3, 2, { id := 3, remote := some 9, gen := 2 }, by
    unfold State.live State.sound
    decide +kernel⟩

theorem witness_EngineControl_run : ∃ (s : State) (p : Fin 36) (v : Word), s.live ∧ s.accepts 0 (Reg.ENG.CTRL p) (v ||| 1) =
    true :=
⟨State.reset, 35, 2, by
    unfold State.live State.sound
    decide +kernel⟩

theorem witness_EngineControl_drain : ∃ (s : State) (p : Fin 36) (v : Word), s.live ∧ s.accepts 0 (Reg.ENG.CTRL p) (v ||| 2)
    = true ∧ s.engState p = eRUN :=
⟨small (.wrN (Reg.ENG.ENG_STATE 35) 2), 35, 1, by
    unfold State.live State.sound
    decide +kernel⟩

theorem witness_EngineControl_diag : ∃ (s : State) (p : Fin 36) (v : Word), s.live ∧ s.accepts 0 (Reg.ENG.DIAG_CMD p) (v |||
    1) = true ∧ p.val < s.hw.eng.length :=
⟨small (.wrN (Reg.ENG.ENG_STATE 35) 1), 35, 0, by
    unfold State.live State.sound
    decide +kernel⟩

theorem witness_EngineControl_fceDiag : ∃ (s : State) (i : Fin 4) (v : Word), s.live ∧ s.accepts 0 (Reg.FCE.DIAG_CMD i) (v
    ||| 1) = true ∧ i.val < s.hw.fce.length :=
⟨small (.wrN (Reg.FCE.FCE_STATE 3) 1), 3, 0, by
    unfold State.live State.sound
    decide +kernel⟩

theorem witness_Placement_engine : ∃ (s : State) (c : Cmd) (ps : List Nat), s.live ∧ s.bit Reg.DISP.DISP_CTRL 0 = true ∧
    s.hw.boot.frozen = false ∧ leastBy s.before (s.hw.disp.cmds.filter s.placeable) = some c ∧ s.cmd c.id = some c ∧ c.phase
    ≠ .running ∧ s.startRefused c = none ∧ (c.empty = true ∨ s.readsPoisoned c = false) ∧ onEngine (Desc.opcode c.desc) =
    true ∧ s.enginesFor c = some ps ∧ (∀ p ∈ ps, p < 36 ∧ p < s.hw.eng.length) ∧ (∀ k : Nat, k < 16 → s.rd (Reg.CMN.INJECT k)
    = 0) :=
⟨small (.all [.wrN Reg.DISP.DISP_CTRL 3, ctxRec 255 2, .wrN (Reg.ENG.CTRL 34) 1, .wrN (Reg.ENG.ENG_STATE 34) 1, cmds
    [{ id := 3, ctx := 255, desc := setBits (desc opARGMAX 2) 31 24 31, phase := .ready }]]),
    { id := 3, ctx := 255, desc := setBits (desc opARGMAX 2) 31 24 31, phase := .ready }, [34], by
    unfold State.live State.sound
    decide +kernel⟩

theorem witness_Placement_refused : ∃ (s : State) (c : Cmd), s.live ∧ s.bit Reg.DISP.DISP_CTRL 0 = true ∧ s.hw.boot.frozen =
    false ∧ leastBy s.before (s.hw.disp.cmds.filter s.placeable) = some c ∧ s.cmd c.id = some c ∧ c.phase ≠ .running ∧
    s.startRefused c = some (stFAULT, 0, true) ∧ s.siblings c = [c] :=
⟨small (.all [.wrN Reg.DISP.DISP_CTRL 3, ctxRec 255 2, .wrN (Reg.TXT.TXT_CTRL) 1, cmds
    [{ id := 3, ctx := 255, desc := desc opTOKENISE, phase := .ready, noVocab := true }]]),
    { id := 3, ctx := 255, desc := desc opTOKENISE, phase := .ready, noVocab := true }, by
    unfold State.live State.sound
    decide +kernel⟩

theorem witness_Placement_nothing : ∃ (s : State), s.live ∧ s.bit Reg.DISP.DISP_CTRL 0 = false :=
⟨small (.wrN Reg.DISP.DISP_CTRL 0), by
    unfold State.live State.sound
    decide +kernel⟩

theorem witness_Placement_empty : ∃ (s : State) (id : Nat) (c : Cmd), s.live ∧ s.cmd id = some c ∧ c.empty = true ∧ c.phase =
    .running ∧ c.parts = [] ∧ c.engines.length ≤ 1 ∧ s.lctPassed c = false :=
⟨small (cmds [{ id := 3, desc := desc opARGMAX, empty := true, phase := .running, engines := [35] }]), 3,
    { id := 3, desc := desc opARGMAX, empty := true, phase := .running, engines := [35] }, by
    unfold State.live State.sound
    decide +kernel⟩

theorem witness_Placement_zeroK : ∃ (s : State) (p : Fin 36) (c : Cmd), s.live ∧ s.runningOn p = some c ∧ Desc.opcode c.desc
    = opMATMUL ∧ Desc.k c.desc = 0 ∧ c.empty = false ∧ (s.eng p).pre = false ∧ c.phase = .running ∧ c.computed = false ∧
    s.allTilesDone c = false ∧ s.siblings c = [c] ∧ 0 < Desc.splitN c.desc :=
⟨small (.all [.eng 35 (fun e => { e with cmd := some 3, tiles := 1 }), cmds
    [{ id := 3, desc := desc opMATMUL (2 ^ 64 + 2 ^ 96 + 2 ^ 60), phase := .running, engines := [35] }]]), 35,
    { id := 3, desc := desc opMATMUL (2 ^ 64 + 2 ^ 96 + 2 ^ 60), phase := .running, engines := [35] }, by
    unfold State.live State.sound
    decide +kernel⟩

theorem witness_Placement_zeroKDone : ∃ (s : State) (p : Fin 36) (c : Cmd), s.live ∧ s.runningOn p = some c ∧ Desc.opcode
    c.desc = opMATMUL ∧ Desc.k c.desc = 0 ∧ c.empty = false ∧ (s.eng p).pre = false ∧ c.phase = .running ∧ c.computed = true
    ∧ s.allTilesDone c = false :=
⟨small (.all [.eng 35 (fun e => { e with cmd := some 3, tiles := 1 }), cmds
    [{ id := 3, desc := desc opMATMUL (2 ^ 64 + 2 ^ 96), phase := .running, engines := [35], computed := true }]]), 35,
    { id := 3, desc := desc opMATMUL (2 ^ 64 + 2 ^ 96), phase := .running, engines := [35], computed := true }, by
    unfold State.live State.sound
    decide +kernel⟩

theorem witness_EngineRows_pre : ∃ (s : State) (p : Fin 36) (rd : StoreRead), s.live ∧ s.engActive p = true ∧ (s.eng p).pre =
    true ∧ rd.ecc = .none ∧ ((s.eng p).firstRead = false ∨ (s.eng p).injEs = 0) ∧ p.val < s.hw.eng.length :=
⟨small (.all [.eng 35 (fun e => { e with cmd := some 3, pre := true }), cmds [{ id := 3, phase := .running }]]), 35, {}, by
    unfold State.live State.sound
    decide +kernel⟩

theorem witness_EngineRows_shape : ∃ (s : State) (p : Fin 36), s.live ∧ s.engActive p = true ∧ (s.eng p).shapeTo ≠ 0 ∧ p.val
    < s.hw.eng.length ∧ s.fld (Reg.ENG.ENG_STATE p) 6 4 ≠ 0 :=
⟨small (.all [.wrN (Reg.ENG.ENG_STATE 35) 0x12, .eng 35 (fun e => { e with cmd := some 3, shapeTo := 4 }), cmds
    [{ id := 3, phase := .running }]]), 35, by
    unfold State.live State.sound
    decide +kernel⟩

theorem witness_EngineRows_load : ∃ (s : State) (p : Fin 36) (rd : StoreRead) (ld : Load), s.live ∧ s.curLoad p = some ld ∧
    s.engActive p = true ∧ (s.eng p).pre = false ∧ (s.eng p).shapeTo = 0 ∧ (s.eng p).loaded = false ∧ rd.ecc = .none ∧
    ((s.eng p).firstRead = false ∨ (s.eng p).injEs = 0) ∧ p.val < s.hw.eng.length :=
⟨small (.all [.wrN (Reg.ENG.DUMMY 35) 0x10007, .eng 35 (fun e =>
    { e with cmd := some 3, loads := [{ rows := 9, c := 2 }], tiles := 1, dummy := 7 }), cmds
    [{ id := 3, phase := .running }]]), 35, { word := 5 }, { rows := 9, c := 2 }, by
    unfold State.live State.sound
    decide +kernel⟩

theorem witness_EngineRows_dummyUp : ∃ (s : State) (p : Fin 36), s.live ∧ p.val < s.hw.eng.length ∧ (s.eng p).cmd.isSome =
    true ∧ (s.eng p).dummyUp = true :=
⟨small (.all [.wrN (Reg.ENG.DUMMY 35) 7, .eng 35 (fun e => { e with cmd := some 3, dummyUp := true, dummy := 6 })]), 35, by
    unfold State.live State.sound
    decide +kernel⟩

theorem witness_EngineRows_dummyDown : ∃ (s : State) (p : Fin 36), s.live ∧ p.val < s.hw.eng.length ∧ (s.eng p).cmd = none ∧
    (s.eng p).rampAt = none ∧ cyclesNs (s.fld (Reg.ENG.DUMMY p) 15 4) (s.engClock p) < s.now - (s.eng p).idleSince :=
⟨small (.all [.upd (.tsc 10000000), .eng 35 (fun e => { e with dummy := 6 })]), 35, by
    unfold State.live State.sound
    decide +kernel⟩

theorem witness_EngineRows_dummyNext : ∃ (s : State) (p : Fin 36) (t0 : Nat), s.live ∧ p.val < s.hw.eng.length ∧ (s.eng
    p).cmd = none ∧ (s.eng p).rampAt = some t0 ∧ t0 + cyclesNs (s.fld (Reg.ENG.DUMMY p) 23 16) (s.engClock p) ≤ s.now :=
⟨small (.all [.upd (.tsc 10000000), .eng 35 (fun e => { e with dummy := 5, rampAt := some 9 })]), 35, 9, by
    unfold State.live State.sound
    decide +kernel⟩

theorem witness_EngineRows_rowOk : ∃ (s : State) (p : Fin 36) (row : Nat) (rd : StoreRead) (alt : CheckAlt) (ld : Load),
    s.live ∧ s.curLoad p = some ld ∧ s.rowDue p row ld = true ∧ (s.eng p).injRow = false ∧ (s.eng p).injPair = false ∧ (s.eng
    p).pairNext = false ∧ rd.ecc = .none ∧ ((s.eng p).firstRead = false ∨ (s.eng p).injEs = 0) ∧ p.val < s.hw.eng.length ∧
    rowMismatch (ld.c == 4) alt.big ld.shape (altDeltas alt (s.deadCol p)) (altChecks alt) = false :=
⟨small (.all [.wrN (Reg.ENG.ENG_STATE 35) 2, .eng 35 (fun e =>
    { e with cmd := some 3, loads := [{ rows := 9, c := 1 }], tiles := 1, loaded := true, rows := 6, fails := [(7, 1)] }),
    cmds [{ id := 3, phase := .running }]]), 35, 7, {}, {}, { rows := 9, c := 1 }, by
    unfold State.live State.sound
    decide +kernel⟩

theorem witness_EngineRows_rowPair : ∃ (s : State) (p : Fin 36) (row : Nat) (rd : StoreRead) (alt : CheckAlt) (ld : Load),
    s.live ∧ s.curLoad p = some ld ∧ s.rowDue p row ld = true ∧ (s.eng p).injRow = false ∧ (s.eng p).injPair = false ∧ (s.eng
    p).pairNext = false ∧ rd.ecc = .none ∧ ((s.eng p).firstRead = false ∨ (s.eng p).injEs = 0) ∧ p.val < s.hw.eng.length ∧
    rowMismatch (ld.c == 4) alt.big ld.shape (altDeltas alt (s.deadCol p)) (altChecks alt) = false :=
⟨small (.all [.wrN (Reg.ENG.ENG_STATE 35) 2, .eng 35 (fun e =>
    { e with cmd := some 3, loads := [{ rows := 9, c := 1 }], tiles := 1, loaded := true }), cmds
    [{ id := 3, phase := .running }]]), 35, 0, {}, { sums := [(0, 0, 127, 5), (0, 0, 0, -5)] }, { rows := 9, c := 1 }, by
    unfold State.live State.sound
    decide +kernel⟩

theorem witness_EngineRows_fail1 : ∃ (s : State) (p : Fin 36) (row : Nat) (rd : StoreRead) (alt : CheckAlt) (ld : Load),
    s.live ∧ s.curLoad p = some ld ∧ s.rowDue p row ld = true ∧ (s.eng p).injRow = false ∧ (s.eng p).injPair = false ∧ (s.eng
    p).pairNext = false ∧ rd.ecc = .none ∧ ((s.eng p).firstRead = false ∨ (s.eng p).injEs = 0) ∧ p.val < s.hw.eng.length ∧
    rowMismatch (ld.c == 4) alt.big ld.shape (altDeltas alt (s.deadCol p)) (altChecks alt) = true ∧ (∀ f ∈ (s.eng p).fails,
    f.1 ≠ row) ∧ logIndex (s.deadCol p) (127 : Fin 130) = some 127 :=
⟨small (.all [.wrN (Reg.ENG.ENG_STATE 35) 2, .eng 35 (fun e =>
    { e with cmd := some 3, loads := [{ rows := 9, c := 1 }], tiles := 1, loaded := true, rows := 7 }), cmds
    [{ id := 3, phase := .running }]]), 35, 7, {}, { sums := [(3, 0, 127, -1)] }, { rows := 9, c := 1 }, by
    unfold State.live State.sound
    decide +kernel⟩

theorem witness_EngineRows_failHalf : ∃ (s : State) (p : Fin 36) (row : Nat) (rd : StoreRead) (alt : CheckAlt) (ld : Load),
    s.live ∧ s.curLoad p = some ld ∧ s.rowDue p row ld = true ∧ (s.eng p).injRow = false ∧ (s.eng p).injPair = false ∧ (s.eng
    p).pairNext = false ∧ rd.ecc = .none ∧ ((s.eng p).firstRead = false ∨ (s.eng p).injEs = 0) ∧ p.val < s.hw.eng.length ∧
    rowMismatch (ld.c == 4) alt.big ld.shape (altDeltas alt (s.deadCol p)) (altChecks alt) = true ∧ (∀ f ∈ (s.eng p).fails,
    f.1 ≠ row) :=
⟨small (.all [.wrN (Reg.ENG.ENG_STATE 35) 2, .eng 35 (fun e =>
    { e with cmd := some 3, loads := [{ rows := 9, c := 4 }], tiles := 1, loaded := true, rows := 7 }), cmds
    [{ id := 3, phase := .running }]]), 35, 7, {}, { sums := [(0, 0, 5, 4)], big := 65535 }, { rows := 9, c := 4 }, by
    unfold State.live State.sound
    decide +kernel⟩

theorem witness_EngineRows_passHalf : ∃ (s : State) (p : Fin 36) (row : Nat) (rd : StoreRead) (alt : CheckAlt) (ld : Load),
    s.live ∧ s.curLoad p = some ld ∧ s.rowDue p row ld = true ∧ (s.eng p).injRow = false ∧ (s.eng p).injPair = false ∧ (s.eng
    p).pairNext = false ∧ rd.ecc = .none ∧ ((s.eng p).firstRead = false ∨ (s.eng p).injEs = 0) ∧ p.val < s.hw.eng.length ∧
    rowMismatch (ld.c == 4) alt.big ld.shape (altDeltas alt (s.deadCol p)) (altChecks alt) = false :=
⟨small (.all [.wrN (Reg.ENG.ENG_STATE 35) 2, .eng 35 (fun e =>
    { e with cmd := some 3, loads := [{ rows := 9, c := 4 }], tiles := 1, loaded := true, rows := 7 }), cmds
    [{ id := 3, phase := .running }]]), 35, 7, {}, { sums := [(0, 0, 5, 4)], big := 65536 }, { rows := 9, c := 4 }, by
    unfold State.live State.sound
    decide +kernel⟩

theorem witness_EngineRows_fail2 : ∃ (s : State) (p : Fin 36) (row : Nat) (rd : StoreRead) (alt : CheckAlt) (ld : Load),
    s.live ∧ s.curLoad p = some ld ∧ s.rowDue p row ld = true ∧ (s.eng p).injRow = false ∧ (s.eng p).injPair = false ∧ (s.eng
    p).pairNext = false ∧ rd.ecc = .none ∧ ((s.eng p).firstRead = false ∨ (s.eng p).injEs = 0) ∧ p.val < s.hw.eng.length ∧
    rowMismatch (ld.c == 4) alt.big ld.shape (altDeltas alt (s.deadCol p)) (altChecks alt) = true ∧ ((s.eng p).fails.find?
    fun f => f.1 == row) = some (row, 1) :=
⟨small (.all [.wrN (Reg.ENG.ENG_STATE 35) 2, .eng 35 (fun e =>
    { e with cmd := some 3, loads := [{ rows := 9, c := 1 }], tiles := 1, loaded := true, rows := 6, fails := [(6, 1), (7, 1)] }),
    cmds [{ id := 3, phase := .running }]]), 35, 7, {}, { check := [(0, 0, 1)] }, { rows := 9, c := 1 }, by
    unfold State.live State.sound
    decide +kernel⟩

theorem witness_EngineRows_fail3 : ∃ (s : State) (p : Fin 36) (row : Nat) (rd : StoreRead) (alt : CheckAlt) (ld : Load),
    s.live ∧ s.curLoad p = some ld ∧ s.rowDue p row ld = true ∧ (s.eng p).injRow = false ∧ (s.eng p).injPair = false ∧ (s.eng
    p).pairNext = false ∧ rd.ecc = .none ∧ ((s.eng p).firstRead = false ∨ (s.eng p).injEs = 0) ∧ p.val < s.hw.eng.length ∧
    rowMismatch (ld.c == 4) alt.big ld.shape (altDeltas alt (s.deadCol p)) (altChecks alt) = true ∧ ((s.eng p).fails.find?
    fun f => f.1 == row) = some (row, 2) :=
⟨small (.all [.wrN (Reg.ENG.ENG_STATE 35) 2, .eng 35 (fun e =>
    { e with cmd := some 3, loads := [{ rows := 9, c := 1 }], tiles := 1, loaded := true, rows := 6, fails := [(6, 1), (7, 2)] }),
    cmds [{ id := 3, phase := .running }]]), 35, 7, {}, { sums := [(0, 0, 0, 1)] }, { rows := 9, c := 1 }, by
    unfold State.live State.sound
    decide +kernel⟩

theorem witness_EngineRows_tile : ∃ (s : State) (p : Fin 36) (alt : CheckAlt) (ld : Load), s.live ∧ s.curLoad p = some ld ∧
    s.engActive p = true ∧ (s.eng p).loaded = true ∧ (s.eng p).fails = [] ∧ (s.eng p).rows = ld.rows ∧ p.val <
    s.hw.eng.length ∧ tileMismatch (ld.c == 4) alt.big (s.eng p).acc (altDeltas alt (s.deadCol p) ++ altChecks alt) = false
    :=
⟨small (.all [.eng 35 (fun e =>
    { e with cmd := some 3, loads := [{ rows := 9, tiles := 1 }, { rows := 9 }], tiles := 2, loaded := true, rows := 9, acc := [(0, 5, 1)] }),
    cmds [{ id := 3, phase := .running, engines := [35] }]]), 35, { sums := [(0, 0, 5, 1)] }, { rows := 9, tiles := 1 }, by
    unfold State.live State.sound
    decide +kernel⟩

theorem witness_EngineRows_tileBad : ∃ (s : State) (p : Fin 36) (alt : CheckAlt) (ld : Load) (id : Nat) (c : Cmd), s.live ∧
    s.curLoad p = some ld ∧ s.engActive p = true ∧ (s.eng p).loaded = true ∧ (s.eng p).fails = [] ∧ (s.eng p).rows = ld.rows
    ∧ p.val < s.hw.eng.length ∧ tileMismatch (ld.c == 4) alt.big (s.eng p).acc (altDeltas alt (s.deadCol p) ++ altChecks alt)
    = true ∧ (s.eng p).cmd = some id ∧ s.cmd id = some c ∧ c.frogsC < s.fld Reg.DISP.FROG_MAX 3 0 ∧ c.split = false :=
⟨small (.all [.eng 35 (fun e =>
    { e with cmd := some 3, loads := [{ rows := 9 }], tiles := 1, loaded := true, rows := 9, acc := [(0, 127, 5), (0, 0, -5)] }),
    cmds [{ id := 3, phase := .running, engines := [35], desc := desc opMATMUL, frogsC := 2 }]]), 35, {}, { rows := 9 }, 3,
    { id := 3, phase := .running, engines := [35], desc := desc opMATMUL, frogsC := 2 }, by
    unfold State.live State.sound
    decide +kernel⟩

theorem witness_EngineDiagnosis_scrub : ∃ (s : State) (p : Fin 36), s.live ∧ s.engState p ≠ eOFF ∧ s.runningOn p = none :=
⟨small (.wrN (Reg.ENG.ENG_STATE 35) 1), 35, by
    unfold State.live State.sound
    decide +kernel⟩

theorem witness_EngineDiagnosis_command : ∃ (s : State) (p : Fin 36), s.live ∧ p.val < s.hw.eng.length ∧ (s.eng p).diag = 2
    :=
⟨small (.all [.wrN (Reg.ENG.ENG_STATE 35) 4, .eng 35 fun e => { e with diag := 2, diagFrom := 6 }]), 35, by
    unfold State.live State.sound
    decide +kernel⟩

theorem witness_EngineDiagnosis_column : ∃ (s : State) (p : Fin 36) (r : DiagResult) (i : Nat), s.live ∧ p.val <
    s.hw.eng.length ∧ (s.eng p).diag = 1 ∧ s.repairOf p r true = some (true, i) ∧ i < 256 :=
⟨small (.all [.wrN (Reg.ENG.ENG_STATE 35) 4, .eng 35 fun e => { e with diag := 1 }]), 35, .column 255, 255, by
    unfold State.live State.sound
    decide +kernel⟩

theorem witness_EngineDiagnosis_row : ∃ (s : State) (p : Fin 36) (r : DiagResult) (i : Nat), s.live ∧ p.val < s.hw.eng.length
    ∧ (s.eng p).diag = 1 ∧ s.repairOf p r true = some (false, i) ∧ i < 256 :=
⟨small (.all [.wrN (Reg.ENG.ENG_STATE 35) 4, .wrN (Reg.ENG.ARR_REPAIR 35) 0x200, .eng 35 fun e => { e with diag := 1 }]), 35,
    .cell 255 3, 255, by
    unfold State.live State.sound
    decide +kernel⟩

theorem witness_EngineDiagnosis_none : ∃ (s : State) (p : Fin 36) (r : DiagResult), s.live ∧ p.val < s.hw.eng.length ∧ (s.eng
    p).diag = 1 ∧ s.repairOf p r false = none :=
⟨small (.all [.wrN (Reg.ENG.ENG_STATE 35) 4, .eng 35 (fun e => { e with diag := 1, cmd := some 3 }), cmds
    [{ id := 3, phase := .running, engines := [35], desc := desc opMATMUL }]]), 35, .column 0, by
    unfold State.live State.sound
    decide +kernel⟩

theorem witness_EngineDiagnosis_vectorOk : ∃ (s : State) (p : Fin 36) (rd : StoreRead) (alt : List (Nat × Int)), s.live ∧
    s.engActive p = true ∧ p.val < s.hw.eng.length ∧ s.bit (Reg.ENG.INJECT p) 4 = false ∧ rd.ecc = .none ∧ ((s.eng
    p).firstRead = false ∨ (s.eng p).injEs = 0) ∧ residueOk alt = true :=
⟨small (.all [.wrN (Reg.ENG.ENG_STATE 35) 2, .upd (.es (esAddr 35 0x100) [1, 2, 0, 0, 9]), .upd (.es (esAddr 35 0x200) [7, 4,
    0, 0, 1]), .eng 35 (fun e => { e with cmd := some 3, vuOnce := true }), cmds
    [{ id := 3, phase := .running, engines := [35], desc := desc opMATMUL }]]), 35, {}, [], by
    unfold State.live State.sound
    decide +kernel⟩

theorem witness_EngineDiagnosis_vector : ∃ (s : State) (p : Fin 36) (rd : StoreRead) (alt : List (Nat × Int)), s.live ∧
    s.engActive p = true ∧ p.val < s.hw.eng.length ∧ s.bit (Reg.ENG.INJECT p) 4 = false ∧ rd.ecc = .none ∧ ((s.eng
    p).firstRead = false ∨ (s.eng p).injEs = 0) ∧ residueOk alt = false ∧ (s.eng p).vuOnce = true :=
⟨small (.all [.wrN (Reg.ENG.ENG_STATE 35) 2, .nil, .eng 35 (fun e => { e with cmd := some 3, vuOnce := true }), cmds
    [{ id := 3, phase := .running, engines := [35], desc := desc opMATMUL }]]), 35, {}, [(1, 2)], by
    unfold State.live State.sound
    decide +kernel⟩

theorem witness_EngineDiagnosis_vector1 : ∃ (s : State) (p : Fin 36) (rd : StoreRead) (alt : List (Nat × Int)), s.live ∧
    s.engActive p = true ∧ p.val < s.hw.eng.length ∧ s.bit (Reg.ENG.INJECT p) 4 = false ∧ rd.ecc = .none ∧ ((s.eng
    p).firstRead = false ∨ (s.eng p).injEs = 0) ∧ residueOk alt = false ∧ (s.eng p).vuOnce = false :=
⟨small (.all [.wrN (Reg.ENG.ENG_STATE 35) 2, .nil, .eng 35 (fun e => { e with cmd := some 3, vuOnce := false }), cmds
    [{ id := 3, phase := .running, engines := [35], desc := desc opMATMUL }]]), 35, {}, [(0, 1), (5, -1)], by
    unfold State.live State.sound
    decide +kernel⟩

theorem witness_EngineDiagnosis_threshold : ∃ (s : State) (p : Fin 36), s.live ∧ p.val < s.hw.eng.length ∧ 0 < ((s.eng
    p).corr.filter fun t => decide (s.now < t + 1000000000)).length ∧ (s.rd (Reg.ENG.TRANS_THRESH p)).toNat ≤ ((s.eng
    p).corr.filter fun t => decide (s.now < t + 1000000000)).length :=
⟨small (.all [.wrN (Reg.ENG.TRANS_THRESH 35) 2, .eng 35 (fun e => { e with corr := [999999999, 0] }), .upd (.tsc
    999999999)]), 35, by
    unfold State.live State.sound
    decide +kernel⟩

theorem witness_EngineDiagnosis_fceThreshold : ∃ (s : State) (i : Fin 4), s.live ∧ i.val < s.hw.fce.length ∧ 0 < ((s.fce
    i).corr.filter fun t => decide (s.now < t + 1000000000)).length ∧ (s.rd (Reg.FCE.TRANS_THRESH i)).toNat ≤ ((s.fce
    i).corr.filter fun t => decide (s.now < t + 1000000000)).length :=
⟨small (.all [.wrN (Reg.FCE.TRANS_THRESH 3) 1, .fce 3 (fun e => { e with corr := [0] })]), 3, by
    unfold State.live State.sound
    decide +kernel⟩

theorem witness_FewChannelEngines_load : ∃ (s : State) (i : Fin 4), s.live ∧ s.fceActive i = true ∧ (s.fce i).loaded = false
    ∧ i.val < s.hw.fce.length :=
⟨small (.fce 3 fun f => { f with cmd := some 3 }), 3, by
    unfold State.live State.sound
    decide +kernel⟩

theorem witness_FewChannelEngines_position : ∃ (s : State) (i : Fin 4) (alt : List (Fin 66 × Int)), s.live ∧ s.fceActive i =
    true ∧ (s.fce i).loaded = true ∧ (s.fce i).pos < s.fceWork i ∧ s.bit (Reg.FCE.INJECT i) 0 = false ∧ i.val <
    s.hw.fce.length ∧ s.fceMiss i alt false = false ∧ (s.fce i).once = false :=
⟨small (.all [.wrN (Reg.FCE.FCE_STATE 3) 0x62, .wrN (Reg.FCE.OUT_POS_LO 3) 0xFFFFFFFF, fceBand, .fce 3 fun f =>
    { f with cmd := some 3, loaded := true, pos := 3 }]), 3, [(63, 2), (64, 2)], by
    unfold State.live State.sound
    decide +kernel⟩

theorem witness_FewChannelEngines_once : ∃ (s : State) (i : Fin 4) (alt : List (Fin 66 × Int)), s.live ∧ s.fceActive i = true
    ∧ (s.fce i).loaded = true ∧ (s.fce i).pos < s.fceWork i ∧ s.bit (Reg.FCE.INJECT i) 0 = false ∧ i.val < s.hw.fce.length ∧
    s.fceMiss i alt false = true ∧ (s.fce i).once = false :=
⟨small (.all [.wrN (Reg.FCE.FCE_STATE 3) 0x62, .nil, fceBand, .fce 3 fun f =>
    { f with cmd := some 3, loaded := true, pos := 0 }]), 3, [(64, 1)], by
    unfold State.live State.sound
    decide +kernel⟩

theorem witness_FewChannelEngines_twice : ∃ (s : State) (i : Fin 4) (alt : List (Fin 66 × Int)), s.live ∧ s.fceActive i =
    true ∧ (s.fce i).loaded = true ∧ (s.fce i).pos < s.fceWork i ∧ s.bit (Reg.FCE.INJECT i) 0 = false ∧ i.val <
    s.hw.fce.length ∧ s.fceMiss i alt false = true ∧ (s.fce i).once = true :=
⟨small (.all [.wrN (Reg.FCE.FCE_STATE 3) 0x62, .nil, fceBand, .fce 3 fun f =>
    { f with cmd := some 3, loaded := true, pos := 0, once := true }]), 3, [(0, -1)], by
    unfold State.live State.sound
    decide +kernel⟩

theorem witness_FewChannelEngines_command : ∃ (s : State) (i : Fin 4), s.live ∧ i.val < s.hw.fce.length ∧ (s.fce i).diag = 2
    :=
⟨small (.all [.wrN (Reg.FCE.FCE_STATE 3) 4, .fce 3 fun f => { f with diag := 2, diagFrom := 1 }]), 3, by
    unfold State.live State.sound
    decide +kernel⟩

theorem witness_FewChannelEngines_repair : ∃ (s : State) (i : Fin 4), s.live ∧ i.val < s.hw.fce.length ∧ (s.fce i).diag = 1 ∧
    s.bit (Reg.FCE.COL_REPAIR i) 0 = false :=
⟨small (.all [.wrN (Reg.FCE.FCE_STATE 3) 4, .fce 3 fun f => { f with diag := 1, cmd := some 3, loaded := true }]), 3, by
    unfold State.live State.sound
    decide +kernel⟩

theorem witness_FewChannelEngines_fault : ∃ (s : State) (i : Fin 4), s.live ∧ i.val < s.hw.fce.length ∧ (s.fce i).diag = 1 :=
⟨small (.all [.wrN (Reg.FCE.FCE_STATE 3) 4, .fce 3 (fun f => { f with diag := 1, cmd := some 3, loaded := true }), cmds
    [{ id := 3, desc := desc opCONV, phase := .running, engines := [35] }]]), 3, by
    unfold State.live State.sound
    decide +kernel⟩

theorem witness_FewChannelEngines_test : ∃ (s : State) (v : Word), s.live ∧ s.accepts 0 Reg.AUG.TEST_CMD (v ||| 1) = true :=
⟨small (.all [.wrN Reg.AUG.TEST_SEED_HI 0x89ABCDEF, .wrN Reg.AUG.TEST_INDEX 0xFFFFFFFF, .wrN Reg.AUG.TEST_DRAW 7]), 0, by
    unfold State.live State.sound
    decide +kernel⟩

theorem witness_KvWalkers_partial : ∃ (s : State) (id : Nat) (idx : Fin 8) (u : DUnit) (c : Cmd), s.live ∧ s.cmd id = some c
    ∧ Desc.opcode c.desc = opATTENTION ∧ c.phase = .running ∧ ((s.partialsNeeded c).any fun x => x.1 == idx.val) = true ∧
    u.crc = u.crcOf ∧ headerFaults u (s.streamCls u) ((u.stream.toNat / 512 == s.devNum && !u.has fREMOTE) && s.authorised
    (u.stream.toNat % 512)) (alGet ({} : RxSt) (rxKey .KVW 0 u.stream) s.hw.rx).closed = [] ∧ u.fc = (alGet ({} : RxSt)
    (rxKey .KVW 0 u.stream) s.hw.rx).e ∧ u.item ∉ (alGet ({} : RxSt) (rxKey .KVW 0 u.stream) s.hw.rx).broken ∧ keysRise
    s.hw.rx ∧ u.item = (c.input.map fun x => x.item).getD 0 :=
⟨small (.all [seqRecord 9 0x41, .mem (0x10003 + 64 * 9) 1 56, .mem 0x40006 1 1, .mem 0x50000 4 0x10009, cmds
    [{ id := 3, desc := desc opATTENTION (0x40000 * 2 ^ 320 + 0x50000 * 2 ^ 384 + 2 ^ 448), phase := .running, seqs := [{ seq := 9 }] }]]),
    3, 7, (unitOf 0 0x12).sealed,
    { id := 3, desc := desc opATTENTION (0x40000 * 2 ^ 320 + 0x50000 * 2 ^ 384 + 2 ^ 448), phase := .running, seqs := [{ seq := 9 }] },
    by
    unfold State.live State.sound
    decide +kernel⟩

theorem witness_KvWalkers_partialBad : ∃ (s : State) (id : Nat) (idx : Fin 8) (u : DUnit) (c : Cmd), s.live ∧ s.cmd id = some
    c ∧ Desc.opcode c.desc = opATTENTION ∧ c.phase = .running ∧ ((s.partialsNeeded c).any fun x => x.1 == idx.val) = true ∧
    u.crc ≠ u.crcOf :=
⟨small (.all [seqRecord 9 0x41, .mem (0x10003 + 64 * 9) 1 56, .mem 0x40006 1 1, .mem 0x50000 4 0x10009, cmds
    [{ id := 3, desc := desc opATTENTION (0x40000 * 2 ^ 320 + 0x50000 * 2 ^ 384 + 2 ^ 448), phase := .running, seqs := [{ seq := 9 }] }]]),
    3, 7, unitOf 0 0x12,
    { id := 3, desc := desc opATTENTION (0x40000 * 2 ^ 320 + 0x50000 * 2 ^ 384 + 2 ^ 448), phase := .running, seqs := [{ seq := 9 }] },
    by
    unfold State.live State.sound
    decide +kernel⟩

theorem witness_KvWalkers_partialLate : ∃ (s : State) (id : Nat), s.live ∧ s.cmd id = none :=
⟨small (cmds [{ id := 3 }]), 4, by
    unfold State.live State.sound
    decide +kernel⟩

theorem witness_KvWalkers_scan : ∃ (s : State) (w : Fin 4), s.live ∧ s.bit Reg.KVW.KVW_CTRL 0 = true ∧ s.hw.kv.wanting = [] ∧
    w.val < s.hw.kv.cands.length :=
⟨small (.all [.wrN Reg.KVW.KVW_CTRL 0x43, .wrN Reg.KVW.POOL_FRAMES 2, seqRecord 9 1, .mem 0x20000 4 0x1000001, .mem 0x30020 2
    9, .mem 0x3002D 1 1]), 3, by
    unfold State.live State.sound
    decide +kernel⟩

theorem witness_KvWalkers_resume : ∃ (s : State) (id : Nat) (i : Nat) (q : Nat) (c : Cmd) (e : SeqEntry), s.live ∧
    s.haveFrame = true ∧ leastBy (fun a b => s.rankLt b.2.2 a.2.2) s.hw.kv.paused = some (id, i, q) ∧ s.cmd id = some c ∧
    (((Act.seqState q sqACTIVE).run s).seqList c.desc)[i]? = some e ∧ ((Act.seqState q sqACTIVE).run s).pagesNeeded
    (((Act.seqState q sqACTIVE).run s).seqRec q) (((Act.seqState q sqACTIVE).run s).newLen (((Act.seqState q sqACTIVE).run
    s).attn c.desc).op (((Act.seqState q sqACTIVE).run s).seqRec q) e) = [] :=
⟨small (.all [seqRecord 9 2, .kv (fun k => { k with paused := [(3, 0, 9)] }), .wrN Reg.KVW.FREE_HEAD 1, .wrN
    Reg.KVW.FREE_FRAMES 1, .mem 0x20000 4 0x1000002, .mem 0x50000 4 0x10009, cmds
    [{ id := 3, desc := desc opATTENTION (0x40000 * 2 ^ 320 + 0x50000 * 2 ^ 384 + 2 ^ 448), phase := .running, seqs := [{ seq := 9, paused := true }] }]]),
    3, 0, 9,
    { id := 3, desc := desc opATTENTION (0x40000 * 2 ^ 320 + 0x50000 * 2 ^ 384 + 2 ^ 448), phase := .running, seqs := [{ seq := 9, paused := true }] },
    ⟨9, 1, false, false, false, false, 0⟩, by
    unfold State.live State.sound
    decide +kernel⟩

theorem witness_KvWalkers_noFrame : ∃ (s : State), s.live ∧ s.haveFrame = false :=
⟨small (.wrN Reg.KVW.FREE_HEAD 0xFFFFFFFF), by
    unfold State.live State.sound
    decide +kernel⟩

theorem witness_KvWalkers_miss : ∃ (s : State) (p : Fin 36) (q : BitVec 16) (page : BitVec 32), s.live ∧ p.val / 9 <
    s.hw.kv.misses.length ∧ (s.hw.kv.misses.getD (p.val / 9) []).length < 16 ∧ s.hw.kv.labs.getD p [] = [] ∧ (s.fld
    Reg.KVW.KVW_CTRL 7 4 = 0 ∨ (s.seqRec q.toNat).glen ≤ 16 * (page.toNat + s.fld Reg.KVW.KVW_CTRL 7 4)) :=
⟨small (.kv fun k => { k with misses := updAt (fun _ => (List.range 15).map fun i => (27, i, 0, 0)) 3 k.misses }), 35,
    0xFFFF, 0xFFFFFFFF, by
    unfold State.live State.sound
    decide +kernel⟩

theorem witness_KvWalkers_missAhead : ∃ (s : State) (p : Fin 36) (q : BitVec 16) (page : BitVec 32), s.live ∧ p.val / 9 <
    s.hw.kv.misses.length ∧ (s.hw.kv.misses.getD (p.val / 9) []).length < 15 ∧ s.hw.kv.labs.getD p [] = [] ∧ s.fld
    Reg.KVW.KVW_CTRL 7 4 ≠ 0 ∧ 16 * (page.toNat + s.fld Reg.KVW.KVW_CTRL 7 4) < (s.seqRec q.toNat).glen :=
⟨small (.all [.wrN Reg.KVW.KVW_CTRL 0xF3, seqRecord 9 1, .mem (0x10004 + 64 * 9) 4 273, .kv fun k =>
    { k with misses := updAt (fun _ => (List.range 14).map fun i => (27, i, 0, 0)) 3 k.misses }]), 35, 9, 2, by
    unfold State.live State.sound
    decide +kernel⟩

theorem witness_KvWalkers_fill : ∃ (s : State) (w : Fin 4) (p : Nat) (q : Nat) (page : Nat) (t0 : Nat), s.live ∧
    s.hw.kv.misses.getD w [] = [(p, q, page, t0)] ∧ w.val < s.hw.kv.misses.length ∧ p < s.hw.kv.labs.length ∧ pteBad (s.pte
    (s.seqRec q) page) = false ∧ pteValid (s.pte (s.seqRec q) page) = true ∧ s.frameOwner (pteFrame (s.pte (s.seqRec q)
    page)) = q ∧ s.frameGen (pteFrame (s.pte (s.seqRec q) page)) = (s.seqRec q).gen ∧ s.framePage (pteFrame (s.pte (s.seqRec
    q) page)) = page :=
⟨small (.all [seqRecord 9 1, .mem 0x20004 4 0x1000001, .mem 0x30020 4 0xFFFF0009, .mem 0x30024 4 1, .upd (.tsc 77), .kv fun k
    => { k with misses := updAt (fun _ => [(35, 9, 1, 7)]) 3 k.misses }]), 3, 35, 9, 1, 7, by
    unfold State.live State.sound
    decide +kernel⟩

theorem witness_KvWalkers_fillBad : ∃ (s : State) (w : Fin 4) (p : Nat) (q : Nat) (page : Nat) (t0 : Nat), s.live ∧
    s.hw.kv.misses.getD w [] = [(p, q, page, t0)] ∧ w.val < s.hw.kv.misses.length ∧ p < s.hw.kv.labs.length ∧ pteBad (s.pte
    (s.seqRec q) page) = true :=
⟨small (.all [seqRecord 9 1, .mem 0x20004 4 0x5000001, .kv fun k =>
    { k with misses := updAt (fun _ => [(35, 9, 1, 0)]) 3 k.misses }]), 3, 35, 9, 1, 0, by
    unfold State.live State.sound
    decide +kernel⟩

theorem witness_KvWalkers_enable : ∃ (s : State) (st : Fin 4) (v : Word), s.live ∧ s.accepts 0 ⟨.KVW, st, 0x040⟩ (v ||| 1) =
    true ∧ s.bit Reg.KVW.KVW_CTRL 0 = false ∧ s.bit Reg.JRNL.JRNL_CTRL 0 = false ∧ ((List.range (s.fld Reg.KVW.POOL_FRAMES 23
    0)).filter fun f => !s.frameUsed f) = [1, 2] :=
⟨small (.all [.wrN Reg.JRNL.JRNL_CTRL 0, .wrN Reg.KVW.KVW_CTRL 0x42, .wrN Reg.KVW.FTAB_LO 0x30000, .wrN Reg.KVW.POOL_FRAMES
    3, .mem 0x3000D 1 1]), 3, 0x42, by
    unfold State.live State.sound
    decide +kernel⟩

theorem witness_SequenceCommands_beyond : ∃ (s : State) (st : Fin 4) (v : Word) (op : Nat), s.live ∧ s.bit Reg.JRNL.JRNL_CTRL
    0 = false ∧ s.accepts 0 ⟨.KVW, st, 0x080⟩ (setBits v 3 0 op) = true ∧ s.fld Reg.KVW.SEQ_MAX 16 0 ≤ bits v 31 16 :=
⟨small (.all [.wrN Reg.JRNL.JRNL_CTRL 0, seqRecord 9 1]), 3, 0xA0000, 1, by
    unfold State.live State.sound
    decide +kernel⟩

theorem witness_SequenceCommands_locked : ∃ (s : State) (st : Fin 4) (v : Word) (op : Nat), s.live ∧ s.bit Reg.JRNL.JRNL_CTRL
    0 = false ∧ s.accepts 0 ⟨.KVW, st, 0x080⟩ (setBits v 3 0 op) = true ∧ bits v 31 16 < s.fld Reg.KVW.SEQ_MAX 16 0 ∧
    (s.seqRec (bits v 31 16)).locked = true :=
⟨small (.all [.wrN Reg.JRNL.JRNL_CTRL 0, seqRecord 9 9]), 3, 0x90000, 4, by
    unfold State.live State.sound
    decide +kernel⟩

theorem witness_SequenceCommands_release : ∃ (s : State) (st : Fin 4) (v : Word), s.live ∧ s.bit Reg.JRNL.JRNL_CTRL 0 = false
    ∧ s.accepts 0 ⟨.KVW, st, 0x080⟩ (setBits v 3 0 1) = true ∧ bits v 31 16 < s.fld Reg.KVW.SEQ_MAX 16 0 ∧ (s.seqRec (bits v
    31 16)).locked = false ∧ (∀ i, i < (s.seqRec (bits v 31 16)).cap → s.pte (s.seqRec (bits v 31 16)) i = 0) :=
⟨small (.all [.wrN Reg.JRNL.JRNL_CTRL 0, seqRecord 9 1]), 3, 0x90000, by
    unfold State.live State.sound
    decide +kernel⟩

theorem witness_SequenceCommands_truncate : ∃ (s : State) (st : Fin 4) (v : Word), s.live ∧ s.bit Reg.JRNL.JRNL_CTRL 0 =
    false ∧ s.accepts 0 ⟨.KVW, st, 0x080⟩ (setBits v 3 0 2) = true ∧ bits v 31 16 < s.fld Reg.KVW.SEQ_MAX 16 0 ∧ (s.seqRec
    (bits v 31 16)).locked = false ∧ (∀ i ∈ s.localPages (s.seqRec (bits v 31 16)), 16 * i < min (s.rd Reg.KVW.SEQ_ARG).toNat
    (s.seqRec (bits v 31 16)).len) ∧ (s.seqRec (bits v 31 16)).layout ≠ 2 :=
⟨small (.all [.wrN Reg.JRNL.JRNL_CTRL 0, seqRecord 9 1, .mem (0x10004 + 64 * 9) 4 20, .wrN Reg.KVW.SEQ_ARG 17, .mem 0x20004 4
    0x1000001]), 3, 0x90000, by
    unfold State.live State.sound
    decide +kernel⟩

theorem witness_SequenceCommands_pin : ∃ (s : State) (st : Fin 4) (v : Word), s.live ∧ s.bit Reg.JRNL.JRNL_CTRL 0 = false ∧
    s.accepts 0 ⟨.KVW, st, 0x080⟩ (setBits v 3 0 3) = true ∧ s.accepts 0 ⟨.KVW, st, 0x080⟩ (setBits v 3 0 4) = true ∧ bits v
    31 16 < s.fld Reg.KVW.SEQ_MAX 16 0 ∧ (s.seqRec (bits v 31 16)).locked = false ∧ (s.rd Reg.KVW.SEQ_ARG).toNat < (s.seqRec
    (bits v 31 16)).cap :=
⟨small (.all [.wrN Reg.JRNL.JRNL_CTRL 0, seqRecord 9 1, .wrN Reg.KVW.SEQ_ARG 1, .mem 0x20004 4 0x1000001]), 3, 0x90000, by
    unfold State.live State.sound
    decide +kernel⟩

theorem witness_TextUnit_vocab : ∃ (s : State) (v : Word), s.live ∧ s.txtBusy = false ∧ s.accepts 0 Reg.TXT.VOCAB_CMD (v |||
    1) = true ∧ v.getLsbD 1 = false ∧ s.vocab.ok = true :=
⟨small (.all [.wrN Reg.TXT.VOCAB_LO 0x1000, .mem 0x1000 4 257, .mem 0x1004 4 1, .mem 0x1028 4 256]), 0, by
    unfold State.live State.sound
    decide +kernel⟩

theorem witness_TextUnit_vocabBad : ∃ (s : State) (v : Word), s.live ∧ s.txtBusy = false ∧ s.accepts 0 Reg.TXT.VOCAB_CMD (v
    ||| 1) = true ∧ v.getLsbD 1 = false ∧ s.vocab.ok = false ∧ s.accepts 0 Reg.TXT.VOCAB_CMD ((v ||| 2) &&& ~~~ 1) = true :=
⟨small (.all [.wrN Reg.TXT.VOCAB_LO 0x1000, .mem 0x1000 4 256, .mem 0x1028 4 256]), 0, by
    unfold State.live State.sound
    decide +kernel⟩

theorem witness_TextUnit_csetLater : ∃ (s : State) (v : Word), s.live ∧ s.accepts 0 Reg.TXT.CSET_CMD (v ||| 1) = true ∧
    s.slotInUse (bits v 11 8) = true :=
⟨small (.all [.txt (fun t => { t with run := some { list := 0x1000, count := 1 } }), .mem 0x1000 4 0x1F0000]), 0xF00, by
    unfold State.live State.sound
    decide +kernel⟩

theorem witness_TextUnit_cset : ∃ (s : State) (v : Word), s.live ∧ s.accepts 0 Reg.TXT.CSET_CMD (v ||| 1) = true ∧
    s.slotInUse (bits v 11 8) = false ∧ s.csetOk (s.cset (s.rd64 Reg.TXT.CSET_LO Reg.TXT.CSET_HI)) = true :=
⟨small (.all [.wrN Reg.TXT.TXT_STATUS 1, .wrN Reg.TXT.VOCAB_LO 0x1000, .wrN Reg.TXT.VOCAB_INFO 257, .mem 0x1000 4 257, .wrN
    Reg.TXT.CSET_LO 0x2000, .mem 0x2000 1 1, .mem 0x2004 4 257]), 0xF00, by
    unfold State.live State.sound
    decide +kernel⟩

theorem witness_TextUnit_csetBad : ∃ (s : State) (v : Word), s.live ∧ s.accepts 0 Reg.TXT.CSET_CMD (v ||| 1) = true ∧
    s.slotInUse (bits v 11 8) = false ∧ s.csetOk (s.cset (s.rd64 Reg.TXT.CSET_LO Reg.TXT.CSET_HI)) = false ∧ s.accepts 0
    Reg.TXT.CSET_CMD ((v ||| 2) &&& ~~~ 1) = true :=
⟨small (.wrN Reg.TXT.CSET_STATUS 0xFFFF), 0xF00, by
    unfold State.live State.sound
    decide +kernel⟩

theorem witness_TextUnit_deferred : ∃ (s : State) (k : Nat), s.live ∧ s.hw.txt.run = none ∧ s.hw.txt.later = [(k, none)] ∧ k
    < 16 :=
⟨small (.all [.txt (fun t => { t with later := [(15, none)] }), .wrN Reg.TXT.CSET_STATUS 0x8000]), 15, by
    unfold State.live State.sound
    decide +kernel⟩

theorem witness_TextUnit_vcache : ∃ (s : State) (byMask : Bool) (parity : Bool), s.live ∧ parity = true ∧ (if byMask then
    s.fld Reg.TXT.TXT_CTRL 7 4 else 16 - s.fld Reg.TXT.TXT_CTRL 7 4) ≠ 0 :=
⟨State.reset, true, true, by
    unfold State.live State.sound
    decide +kernel⟩

theorem witness_TextUnit_maskStart : ∃ (s : State) (q : MaskReq), s.live ∧ s.hw.txt.run = none ∧ s.bit Reg.TXT.TXT_CTRL 0 =
    true ∧ nextMask s.hw.txt.queue = some q :=
⟨small (.all [.wrN Reg.TXT.TXT_CTRL 0x81, .txt fun t => { t with queue := [{ cmd := 3 }, { cmd := 4, cls := 1 }] }]),
    { cmd := 4, cls := 1 }, by
    unfold State.live State.sound
    decide +kernel⟩

theorem witness_TextUnit_maskEntry : ∃ (s : State) (q : MaskReq) (i : Nat), s.live ∧ s.hw.txt.run = some q ∧ i < q.count ∧ (∀
    x ∈ q.done, x.1 ≠ i) ∧ (32 ≤ i → (i - 32) ∈ q.done.map (·.1)) ∧ q.done.length + 1 < q.count ∧ (s.maskEnt q i).noMask =
    false :=
⟨small (.all [.txt (fun t =>
    { t with run := some { cmd := 3, list := 0x1000, buf := 0x4000, count := 34, done := [(0, 0)] } }), cmds
    [{ id := 3, desc := desc opMASK, phase := .running }]]),
    { cmd := 3, list := 0x1000, buf := 0x4000, count := 34, done := [(0, 0)] }, 32, by
    unfold State.live State.sound
    decide +kernel⟩

theorem witness_TextUnit_maskLimit : ∃ (s : State) (q : MaskReq), s.live ∧ s.hw.txt.run = some q ∧ q.start + (s.rd
    Reg.TXT.MASK_LIMIT).toNat * 1000 ≤ s.now ∧ q.done = [] ∧ (∀ i, i < q.count → (s.maskEnt q i).noMask = false) :=
⟨small (.all [.upd (.tsc 200000), .txt (fun t =>
    { t with run := some { cmd := 3, list := 0x1000, buf := 0x4000, count := 2 } }), cmds
    [{ id := 3, desc := desc opMASK, phase := .running }]]), { cmd := 3, list := 0x1000, buf := 0x4000, count := 2 }, by
    unfold State.live State.sound
    decide +kernel⟩

theorem witness_TextUnit_beforeLimit : ∃ (s : State) (q : MaskReq), s.live ∧ s.hw.txt.run = some q ∧ s.now < q.start + (s.rd
    Reg.TXT.MASK_LIMIT).toNat * 1000 :=
⟨small (.all [.upd (.tsc 199999), .txt (fun t => { t with run := some { cmd := 3 } })]), { cmd := 3 }, by
    unfold State.live State.sound
    decide +kernel⟩

theorem witness_ItemMonitor_noProfile : ∃ (s : State) (id : BitVec 48) (prof : BitVec 6), s.live ∧ s.sweepProfile id
    prof.toNat = none :=
⟨State.reset, 0xE00000000001, 63, by
    unfold State.live State.sound
    decide +kernel⟩

theorem witness_ItemMonitor_sweepOpen : ∃ (s : State) (id : BitVec 48) (prof : BitVec 6) (i : Nat), s.live ∧ s.sweepProfile
    id prof.toNat = some i ∧ s.monItem id = none ∧ (s.hw.disp.decided.any fun d => d.1 == id) = false ∧
    s.hw.disp.items.length < 4096 ∧ s.sweepPaths i = [] :=
⟨small (profileRec 63 (7 * 512 + 63) 2 1), 0xE00000000001, 63, 63, by
    unfold State.live State.sound
    decide +kernel⟩

theorem witness_ItemMonitor_sweepClose : ∃ (s : State) (id : BitVec 48) (prof : BitVec 6) (i : Nat) (p : Nat) (y : PathItem),
    s.live ∧ s.sweepProfile id prof.toNat = some i ∧ p ∈ s.sweepPaths i ∧ s.itemOpenOn p = some y ∧ y.id = id ∧ p <
    s.hw.cap.paths.length :=
⟨small (.all [profileRec 63 (7 * 512 + 63) 2 1, .wrN Reg.SFE.SFE_CTRL 1, .wrN (Reg.SFE.PATH_CTRL 15) 0xFFFFFDFF, .path 15 fun
    x => { x with items := [{ id := 0xE00000000001 }] }]), 0xE00000000001, 63, 63, 15, { id := 0xE00000000001 }, by
    unfold State.live State.sound
    decide +kernel⟩

theorem witness_ItemMonitor_tSw : ∃ (s : State) (id : BitVec 48) (x : MonItem) (t0 : Nat), s.live ∧ s.monItem id = some x ∧
    s.tSw x = some t0 ∧ t0 ≤ s.now ∧ x.held = none ∧ (x.cands.any fun c => c.1 == s.devNum) = false ∧ s.fbReady x = true :=
⟨small (.all [profileRec 63 5 0 0x12, .upd (.tsc 6000), .disp fun d =>
    { d with items := [{ id := 9, prof := 63, stamp := 0, stages := 1 }] }]), 9,
    { id := 9, prof := 63, stamp := 0, stages := 1 }, 6000, by
    unfold State.live State.sound
    decide +kernel⟩

theorem witness_ItemMonitor_early : ∃ (s : State) (id : BitVec 48) (x : MonItem) (t0 : Nat), s.live ∧ s.monItem id = some x ∧
    s.tSw x = some t0 ∧ s.now < t0 ∧ s.now < s.tEmit x :=
⟨small (.all [profileRec 63 5 0 0x12, .upd (.tsc 5999), .disp fun d =>
    { d with items := [{ id := 9, prof := 63, stamp := 0, stages := 1 }] }]), 9,
    { id := 9, prof := 63, stamp := 0, stages := 1 }, 6000, by
    unfold State.live State.sound
    decide +kernel⟩

theorem witness_ItemMonitor_tEmit : ∃ (s : State) (id : BitVec 48) (x : MonItem), s.live ∧ s.monItem id = some x ∧ s.tEmit x
    ≤ s.now ∧ s.hw.boot.frozen = false ∧ s.profRole x.prof ≠ 1 :=
⟨small (.all [profileRec 63 5 0 0x12, .upd (.tsc 8000), .disp fun d =>
    { d with items := [{ id := 9, prof := 63, stamp := 0 }] }]), 9, { id := 9, prof := 63, stamp := 0 }, by
    unfold State.live State.sound
    decide +kernel⟩

theorem witness_ItemMonitor_held : ∃ (s : State) (id : BitVec 48) (x : MonItem) (r : DecisionRecord) (fl : BitVec 16), s.live
    ∧ s.monItem id = some x ∧ x.held = some (r, fl) ∧ s.now ≤ s.tEmit x ∧ ((s.profPolicy x.prof).getLsbD 4 = true ∧
    x.streams.all (·.2) = true) ∧ s.profRole x.prof = 0 ∧ s.hw.boot.frozen = false ∧ s.fld Reg.SAFE.C2_REGION 26 16 = 0 ∧
    (s.itemCmds x.id).filter Cmd.isParked = [] :=
⟨small (.all [profileRec 63 5 16 1, .upd (.tsc 8000), .disp fun d =>
    { d with items := [{ id := 9, prof := 63, stamp := 0, held := some (recordOf 4, 0), streams := [(1, true)] }], ringNext := [(63, 257)] }]),
    9, { id := 9, prof := 63, stamp := 0, held := some (recordOf 4, 0), streams := [(1, true)] }, recordOf 4, 0, by
    unfold State.live State.sound
    decide +kernel⟩

theorem witness_ItemMonitor_candidateLost : ∃ (s : State) (dev : BitVec 3), s.live ∧ s.bit Reg.LINK.ROUTE_LOST dev.toNat =
    true :=
⟨small (.wrN Reg.LINK.ROUTE_LOST 0x80), 7, by
    unfold State.live State.sound
    decide +kernel⟩

theorem witness_ItemMonitor_candidate : ∃ (s : State) (dev : BitVec 3) (id : BitVec 48) (x : MonItem), s.live ∧ s.bit
    Reg.LINK.ROUTE_LOST dev.toNat = false ∧ s.monItem id = some x ∧ s.profRole x.prof = 1 ∧ dev.toNat ∈ s.sweepDevs x.prof ∧
    (x.cands.any fun c => c.1 == dev.toNat) = false ∧ (∃ d ∈ s.sweepDevs x.prof, d ≠ dev.toNat ∧ (x.cands.any fun c => c.1 ==
    d) = false) :=
⟨small (.all [profileRec 63 5 1 1, .mem (0x80034 + 64 * 63) 1 0xC1, .disp fun d =>
    { d with items := [{ id := 9, prof := 63, stamp := 0 }] }]), 7, 9, { id := 9, prof := 63, stamp := 0 }, by
    unfold State.live State.sound
    decide +kernel⟩

theorem witness_FunctionCommands_send : ∃ (s : State) (g : Fin 32) (v : Word), s.live ∧ g ≠ 0 ∧ s.accepts 0
    (Reg.FUNC.MBOX_CMD g) (v ||| 1) = true ∧ s.accepts g.val (Reg.FUNC.MBOX_CMD g) (v ||| 1) = true :=
⟨State.reset, 31, 0, by
    unfold State.live State.sound
    decide +kernel⟩

theorem witness_FunctionCommands_ack : ∃ (s : State) (g : Fin 32) (v : Word), s.live ∧ g ≠ 0 ∧ s.accepts 0 (Reg.FUNC.MBOX_CMD
    g) (v ||| 2) = true ∧ s.bit (Reg.FUNC.MBOX_STATUS g) 0 = true ∧ s.accepts g.val (Reg.FUNC.MBOX_CMD g) (v ||| 2) = true ∧
    s.bit (Reg.FUNC.MBOX_STATUS g) 1 = true :=
⟨small (.wrN (Reg.FUNC.MBOX_STATUS 31) 3), 31, 0, by
    unfold State.live State.sound
    decide +kernel⟩

theorem witness_FunctionCommands_vfFlr : ∃ (s : State) (g : Fin 32), s.live ∧ g ≠ 0 :=
⟨small (.all [.wrN (Reg.FUNC.MBOX_STATUS 31) 3, .wrN (Reg.FUNC.QOS 31) 0x777, .gath fun g =>
    { g with insvc := [(31, 3, 700)] }]), 31, by
    unfold State.live State.sound
    decide +kernel⟩

theorem witness_FunctionCommands_pfFlr : ∃ (s : State), s.live :=
⟨small (.all [.wrN (Reg.GATH.SRC_MASK 3 7) 1, .gath fun g => { g with edge := 5, insvc := [(31, 3, 700)] }]), by
    unfold State.live State.sound
    decide +kernel⟩

theorem witness_FunctionCommands_eoi : ∃ (s : State) (f : Fin 32) (g : Fin 32) (v : Word), s.live ∧ s.accepts f
    (Reg.FUNC.IRQ_EOI g) v = true :=
⟨small (.gath fun g => { g with insvc := [(31, 63, 700), (31, 62, 5)] }), 31, 31, 63, by
    unfold State.live State.sound
    decide +kernel⟩

theorem witness_InterruptRegisters_set : ∃ (s : State) (g : Fin 4) (w : Fin 8) (v : Word), s.live ∧ s.accepts 0
    (Reg.GATH.SRC_PEND_SET g w) v = true ∧ s.accepts 0 (Reg.GATH.SRC_PEND_CLR g w) v = true ∧ s.accepts 0
    (Reg.GATH.SRC_MASK_SET g w) v = true ∧ s.accepts 0 (Reg.GATH.SRC_MASK_CLR g w) v = true ∧ s.accepts 0 (Reg.GATH.SRC_STORM
    g w) v = true :=
⟨State.reset, 3, 7, 0x80000000, by
    unfold State.live State.sound
    decide +kernel⟩

theorem witness_InterruptRegisters_pendClr : ∃ (s : State) (g : Fin 4) (w : Fin 8) (v : Word), s.live ∧ s.accepts 0
    (Reg.GATH.SRC_PEND_CLR g w) v = true ∧ s.bit Reg.JRNL.JRNL_CTRL 0 = false :=
⟨small (.all [.wrN Reg.JRNL.JRNL_CTRL 0, .gath fun g => { g with soft := 2 ^ 1023 + 1, edge := 2 ^ 1023 + 2 }]), 3, 7,
    0x80000000, by
    unfold State.live State.sound
    decide +kernel⟩

theorem witness_InterruptRegisters_config : ∃ (s : State) (g : Fin 4) (ix : BitVec 8) (v : Word), s.live ∧ s.accepts 0
    (Reg.GATH.SRC_CFG g ix.toNat) v = true ∧ (g ≠ 0 ∨ ix.toNat < 64 ∨ 96 ≤ ix.toNat) :=
⟨State.reset, 0, 96, 0xFFFFFFFF, by
    unfold State.live State.sound
    decide +kernel⟩

theorem witness_InterruptRegisters_vector : ∃ (s : State) (f : Fin 32) (g : Fin 32) (hi : Bool) (v : Word), s.live ∧
    s.accepts f (if hi then Reg.FUNC.VEC_MASK_SET_HI g else Reg.FUNC.VEC_MASK_SET_LO g) v = true ∧ s.accepts f (if hi then
    Reg.FUNC.VEC_MASK_CLR_HI g else Reg.FUNC.VEC_MASK_CLR_LO g) v = true :=
⟨State.reset, 31, 31, true, 0x80000000, by
    unfold State.live State.sound
    decide +kernel⟩

theorem witness_InterruptRegisters_pcie : ∃ (s : State) (g : Fin 32) (n : BitVec 16) (ari : Bool) (d : BitVec 2), s.live ∧
    g.val < s.hw.gath.fns.length ∧ g = 0 ∧ (ari = true ∨ n.toNat ≤ 7) ∧ (d = 0 ∨ d = 3) ∧ keysRise s.hw.gath.msix :=
⟨State.reset, 0, 31, true, 3, by
    unfold State.live State.sound
    decide +kernel⟩

theorem witness_InterruptRegisters_pcie7 : ∃ (s : State) (g : Fin 32) (n : BitVec 16) (ari : Bool), s.live ∧ g.val <
    s.hw.gath.fns.length ∧ g = 0 ∧ (ari = true ∨ n.toNat ≤ 7) :=
⟨State.reset, 0, 7, false, by
    unfold State.live State.sound
    decide +kernel⟩

theorem witness_GathererDelivers_deliver : ∃ (s : State) (g : Fin 32) (vec : BitVec 6) (n : Nat), s.live ∧ s.vecInService g
    vec.toNat = false ∧ s.fnEnabled g = true ∧ s.chanPending g vec.toNat = false ∧ ((List.range 1024).find? fun n =>
    s.selectable n && s.target n == (g.val, vec.toNat)) = some n ∧ s.stormTrips n = false ∧ (s.fn g).dState ≠ 3 ∧ s.ltssm =
    ltssmL0 ∧ s.vecAllowed g vec.toNat = true :=
⟨small (.all [.wrN Reg.HOST.LINK_STATUS 0x3000, .wrN (Reg.GATH.SRC_MASK 3 7) 0x7FFFFFFF, .wrN (Reg.GATH.SRC_CFG 3 255) 0x7FF,
    .wrN Reg.HOST.VF_ENABLED 0x80000000, .gath fun g =>
    { g with soft := 2 ^ 1023, fns := updAt (fun _ => { msixEn := true }) 31 g.fns, msix := [(64 * 31 + 63, 1)] }]), 31, 63,
    1023, by
    unfold State.live State.sound
    decide +kernel⟩

theorem witness_GathererDelivers_storm : ∃ (s : State) (g : Fin 32) (vec : BitVec 6) (n : Nat), s.live ∧ s.vecInService g
    vec.toNat = false ∧ s.fnEnabled g = true ∧ s.chanPending g vec.toNat = false ∧ ((List.range 1024).find? fun n =>
    s.selectable n && s.target n == (g.val, vec.toNat)) = some n ∧ s.stormTrips n = true :=
⟨small (.all [.wrN (Reg.GATH.SRC_MASK 3 7) 0x7FFFFFFF, .wrN (Reg.GATH.SRC_CFG 3 255) 0x1FFF, .wrN Reg.HOST.VF_ENABLED
    0x80000000, .gath fun g => { g with soft := 2 ^ 1023, storms := [(1023, 0, 256)] }]), 31, 63, 1023, by
    unfold State.live State.sound
    decide +kernel⟩

theorem witness_GathererDelivers_none : ∃ (s : State) (g : Fin 32) (vec : BitVec 6), s.live ∧ s.chanPending g vec.toNat =
    false ∧ ((List.range 1024).find? fun n => s.selectable n && s.target n == (g.val, vec.toNat)) = none :=
⟨State.reset, 31, 63, by
    unfold State.live State.sound
    decide +kernel⟩

theorem witness_GathererDelivers_window : ∃ (s : State) (src : BitVec 10) (t0 : Nat) (k : Nat), s.live ∧ s.storm src.toNat =
    some (t0, k) ∧ t0 + s.fld (Reg.GATH.STORM_CFG (src.toNat / 256)) 31 16 * 1000 ≤ s.now :=
⟨small (.all [.upd (.tsc 1000000), .gath fun g => { g with storms := [(1023, 0, 256)] }]), 1023, 0, 256, by
    unfold State.live State.sound
    decide +kernel⟩

theorem witness_GathererDelivers_windowOpen : ∃ (s : State) (src : BitVec 10) (t0 : Nat) (k : Nat), s.live ∧ s.storm
    src.toNat = some (t0, k) ∧ s.now < t0 + s.fld (Reg.GATH.STORM_CFG (src.toNat / 256)) 31 16 * 1000 :=
⟨small (.all [.upd (.tsc 999999), .gath fun g => { g with storms := [(1023, 0, 256)] }]), 1023, 0, 256, by
    unfold State.live State.sound
    decide +kernel⟩

theorem witness_GathererDelivers_timer : ∃ (s : State) (g : Fin 32) (vec : BitVec 6), s.live ∧ 0 < s.fld (Reg.FUNC.MOD_CFG g
    vec.toNat) 23 8 ∧ 0 < (s.chan g vec.toNat).1 ∧ (s.chan g vec.toNat).2 + s.fld (Reg.FUNC.MOD_CFG g vec.toNat) 23 8 * 1000
    ≤ s.now :=
⟨small (.all [.upd (.tsc 2007), .wrN (Reg.FUNC.MOD_CFG 31 63) 0x2FF, .gath fun g =>
    { g with chans := [(64 * 31 + 63, 1, 7)] }]), 31, 63, by
    unfold State.live State.sound
    decide +kernel⟩

theorem witness_GathererDelivers_release : ∃ (s : State) (g : Fin 32) (vec : BitVec 6), s.live ∧ (g.val, vec.toNat) ∈
    s.hw.gath.heldMsg ∧ s.mayRelease g vec.toNat = true :=
⟨small (.all [.wrN Reg.HOST.LINK_STATUS 0x3000, .gath fun g =>
    { g with heldMsg := [(31, 63)], fns := updAt (fun _ => { msixEn := true }) 31 g.fns, msix := [(64 * 31 + 63, 1)] }]), 31,
    63, by
    unfold State.live State.sound
    decide +kernel⟩

theorem witness_GathererDelivers_keep : ∃ (s : State) (g : Fin 32) (vec : BitVec 6), s.live ∧ (g.val, vec.toNat) ∈
    s.hw.gath.heldMsg ∧ s.mayRelease g vec.toNat = false :=
⟨small (.gath fun g => { g with heldMsg := [(31, 63)] }), 31, 63, by
    unfold State.live State.sound
    decide +kernel⟩

theorem witness_JointSensors_trigger : ∃ (s : State) (v : Word), s.live ∧ s.bit Reg.SSI.SSI_CTRL 0 = true ∧ s.hw.mot.set_ =
    none ∧ s.burstStart = s.now ∧ s.accepts 0 Reg.SSI.SSI_CMD (v ||| 1) = true ∧ s.bit Reg.SSI.SET_TRIG 0 = false :=
⟨small (.all [.wrN Reg.SSI.SSI_CTRL 1, .wrN Reg.SSI.SET_MASK 0xFF0FFF, .upd (.tsc 77)]), 0, by
    unfold State.live State.sound
    decide +kernel⟩

theorem witness_JointSensors_overrun : ∃ (s : State), s.live ∧ s.bit Reg.SSI.SSI_CTRL 0 = true ∧ s.hw.mot.set_ ≠ none :=
⟨small (.all [.wrN Reg.SSI.SSI_CTRL 1, .mot fun m => { m with set_ := some {} }]), by
    unfold State.live State.sound
    decide +kernel⟩

theorem witness_JointSensors_held : ∃ (s : State), s.live ∧ s.bit Reg.SSI.SSI_CTRL 0 = true ∧ s.hw.mot.set_ = none ∧ s.now <
    s.burstStart :=
⟨small (.all [.wrN Reg.SSI.SSI_CTRL 1, .wrN Reg.SSI.SET_MASK 0x800, .wrN (Reg.SSI.CH_TIMING 11) 255, .upd (.tsc 77), .mot fun
    m => { m with quiet := updAt (fun _ => some 50) 11 m.quiet }]), by
    unfold State.live State.sound
    decide +kernel⟩

theorem witness_JointSensors_burst : ∃ (s : State) (c : Nat) (f : SsiFrame) (x : SampleSet), s.live ∧ s.hw.mot.set_ = some x
    ∧ x.held = false ∧ x.chans = [c] ∧ x.encs = [] ∧ c < 12 ∧ c < s.hw.mot.quiet.length ∧ (s.ssiDecode c f).2 % 8 ≠ 0 :=
⟨small (.all [.wrN Reg.SSI.SSI_CTRL 1, .wrN (Reg.SSI.CH_CFG 11) (8 * 512), .wrN (Reg.SSI.CH_TIMING 11) 0x500, .wrN
    (Reg.SSI.CH_DATA 11) (8 * 64), .mot fun m => { m with set_ := some { chans := [11], stamp := 1000 } }]), 11,
    { line := [(16, false), (36, true), (75, false), (96, true), (115, false)], rest := 400, startBad := true, lineFault := false, parityBit := false },
    { chans := [11], stamp := 1000 }, by
    unfold State.live State.sound
    decide +kernel⟩

theorem witness_TsnPorts_drop : ∃ (s : State) (p : Fin 4) (fr : TsnFrame), s.live ∧ s.tsnUp p = true ∧ s.sfMatch p fr = none
    :=
⟨small (.all [.wrN (Reg.TSN.TSN_CTRL 3) 1, .wrN (Reg.TSN.TSN_STATUS 3) 1]), 3,
    { dst := 5, src := 0, vid := 7, pcp := 3, rtag := none, etype := 0x22F0, stamp := 9, payload := [1, 2] }, by
    unfold State.live State.sound
    decide +kernel⟩

theorem witness_TsnPorts_receive : ∃ (s : State) (p : Fin 4) (fr : TsnFrame) (i : Nat), s.live ∧ s.tsnUp p = true ∧ s.sfMatch
    p fr = some i ∧ ((s.tsn p).filters.getD i {}).cfg.getLsbD 16 = true ∧ bits ((s.tsn p).filters.getD i {}).meter 23 0 = 0 ∧
    ((s.tsn p).filters.getD i {}).cfg.getLsbD 28 = false ∧ s.bit (Reg.TSN.CB_CFG p) 0 = false :=
⟨small (.all [.wrN (Reg.TSN.TSN_CTRL 3) 1, .wrN (Reg.TSN.TSN_STATUS 3) 1, .tsn 3 fun x =>
    { x with filters := updAt (fun _ => { keyLo := 5, cfg := 0x80017007 }) 63 x.filters }]), 3,
    { dst := 5, src := 0, vid := 7, pcp := 3, rtag := none, etype := 0x22F0, stamp := 9, payload := [1, 2] }, 63, by
    unfold State.live State.sound
    decide +kernel⟩

theorem witness_TsnPorts_sync : ∃ (s : State) (p : Fin 4) (as_ : DWord), s.live ∧ p.val < s.hw.mot.tsn.length ∧ s.bit
    (Reg.TSN.TSN_CTRL p) 0 = true ∧ s.fld (Reg.TSN.TSN_CTRL p) 5 4 = 1 ∧ s.bit (Reg.TSN.TSN_STATUS p) 0 = true ∧ 1000 <
    (as_.toNat : Int) - s.asTime p s.now :=
⟨small (.all [.wrN (Reg.TSN.TSN_CTRL 3) 0x11, .wrN (Reg.TSN.TSN_STATUS 3) 1]), 3, 1001, by
    unfold State.live State.sound
    decide +kernel⟩

theorem witness_TsnPorts_syncNear : ∃ (s : State) (p : Fin 4) (as_ : DWord), s.live ∧ p.val < s.hw.mot.tsn.length ∧ s.bit
    (Reg.TSN.TSN_CTRL p) 0 = true ∧ s.fld (Reg.TSN.TSN_CTRL p) 5 4 = 1 ∧ s.bit (Reg.TSN.TSN_STATUS p) 0 = true ∧ (as_.toNat :
    Int) - s.asTime p s.now ≤ 1000 :=
⟨small (.all [.wrN (Reg.TSN.TSN_CTRL 3) 0x11, .wrN (Reg.TSN.TSN_STATUS 3) 1]), 3, 1000, by
    unfold State.live State.sound
    decide +kernel⟩

theorem witness_TsnPorts_syncLost : ∃ (s : State) (p : Fin 4) (last : Nat) (i : Nat), s.live ∧ (s.tsn p).sync = some (last,
    i) ∧ s.bit (Reg.TSN.TSN_STATUS p) 4 = true ∧ s.fld (Reg.TSN.TSN_CTRL p) 5 4 = 1 ∧ last + 3 * i ≤ s.now :=
⟨small (.all [.upd (.tsc 30), .wrN (Reg.TSN.TSN_CTRL 3) 0x11, .wrN (Reg.TSN.TSN_STATUS 3) 0x11, .tsn 3 fun x =>
    { x with sync := some (0, 10) }]), 3, 0, 10, by
    unfold State.live State.sound
    decide +kernel⟩

theorem witness_TsnPorts_down : ∃ (s : State) (p : Fin 4), s.live ∧ s.bit (Reg.TSN.TSN_STATUS p) 0 = true :=
⟨small (.wrN (Reg.TSN.TSN_STATUS 3) 1), 3, by
    unfold State.live State.sound
    decide +kernel⟩

theorem witness_TsnPorts_up : ∃ (s : State) (p : Fin 4), s.live ∧ s.bit (Reg.TSN.TSN_CTRL p) 0 = true ∧ s.fld
    (Reg.TSN.TSN_CTRL p) 3 1 ≤ 4 :=
⟨small (.wrN (Reg.TSN.TSN_CTRL 3) 0x89), 3, by
    unfold State.live State.sound
    decide +kernel⟩

theorem witness_TsnPorts_gclBad : ∃ (s : State) (p : Fin 4) (v : Word), s.live ∧ s.accepts 0 (Reg.TSN.GCL_CMD p) (v ||| 1) =
    true ∧ p.val < s.hw.mot.tsn.length ∧ 256 < s.fld (Reg.TSN.GCL_CFG p) 8 0 :=
⟨small (.all [.wrN (Reg.TSN.GCL_CFG 3) 257, .wrN (Reg.TSN.GCL_CYCLE 3) 1000]), 3, 0, by
    unfold State.live State.sound
    decide +kernel⟩

theorem witness_TsnPorts_gcl : ∃ (s : State) (p : Fin 4) (v : Word), s.live ∧ s.accepts 0 (Reg.TSN.GCL_CMD p) (v ||| 1) =
    true ∧ p.val < s.hw.mot.tsn.length ∧ 1 ≤ s.fld (Reg.TSN.GCL_CFG p) 8 0 ∧ s.fld (Reg.TSN.GCL_CFG p) 8 0 ≤ 256 ∧ 1000 ≤
    (s.rd (Reg.TSN.GCL_CYCLE p)).toNat ∧ (s.rd (Reg.TSN.GCL_CYCLE p)).toNat ≤ 1000000000 :=
⟨small (.all [.wrN (Reg.TSN.GCL_CFG 3) 256, .wrN (Reg.TSN.GCL_CYCLE 3) 1000, .wrN (Reg.TSN.GCL_BASE_LO 3) 999, .upd (.tsc
    999)]), 3, 0, by
    unfold State.live State.sound
    decide +kernel⟩

theorem witness_TsnPorts_gclData : ∃ (s : State) (p : Fin 4) (v : Word), s.live ∧ s.accepts 0 (Reg.TSN.GCL_DATA p) v = true ∧
    p.val < s.hw.mot.tsn.length ∧ s.fld (Reg.TSN.GCL_ADDR p) 7 0 < (s.tsn p).gcl.length :=
⟨small (.wrN (Reg.TSN.GCL_ADDR 3) 255), 3, 0x12345678, by
    unfold State.live State.sound
    decide +kernel⟩

theorem witness_TsnPorts_gclTake : ∃ (s : State) (p : Fin 4) (g : GateList) (due : Nat), s.live ∧ (s.tsn p).next = some (g,
    due) ∧ due ≤ s.asTime p s.now ∧ (s.tsn p).queue = [] ∧ p.val < s.hw.mot.tsn.length :=
⟨small (.all [.upd (.tsc 7), .tsn 3 fun x => { x with next := some ({ entries := [(0xFF, 1)] }, 7) }]), 3,
    { entries := [(0xFF, 1)] }, 7, by
    unfold State.live State.sound
    decide +kernel⟩

theorem witness_TsnPorts_history : ∃ (s : State) (p : Fin 4) (ix : Fin 32) (h : CbHist), s.live ∧ (s.tsn p).cb[ix.val]? =
    some h ∧ h.last + s.fld (Reg.TSN.CB_CFG p) 15 4 * 1000000 ≤ s.now ∧ p.val < s.hw.mot.tsn.length :=
⟨small (.all [.upd (.tsc 1000000000), .tsn 3 fun x =>
    { x with cb := (List.range 32).map fun i => { stream := i, seq := 5, hist := 1, last := 0 } }]), 3, 31,
    { stream := 31, seq := 5, hist := 1, last := 0 }, by
    unfold State.live State.sound
    decide +kernel⟩

theorem witness_MotionLoops_enable : ∃ (s : State) (l : Fin 8) (v : Word), s.live ∧ s.accepts 0 (Reg.CEU.LOOP_CTRL l) (v |||
    1) = true ∧ s.bit (Reg.CEU.LOOP_CTRL l) 0 = false ∧ l.val < s.hw.mot.loops.length :=
⟨small (.all [.wrN (Reg.CEU.PERIOD 7) 1000000, .wrN (Reg.CEU.LAUNCH_OFS 7) 900000, .wrN (Reg.CEU.PERC_CLOSE 7) 500000, .upd
    (.tsc 990000)]), 7, 0, by
    unfold State.live State.sound
    decide +kernel⟩

theorem witness_MotionLoops_disable : ∃ (s : State) (l : Fin 8) (v : Word), s.live ∧ s.accepts 0 (Reg.CEU.LOOP_CTRL l) (v &&&
    ~~~ 1) = true ∧ s.bit (Reg.CEU.LOOP_CTRL l) 0 = true ∧ l.val < s.hw.mot.loops.length :=
⟨small (.all [.wrN (Reg.CEU.LOOP_CTRL 7) 1, .wrN Reg.CEU.CEU_STATUS 0x80, .loop 7 fun x =>
    { x with sel := some (unitOf 9 0x13, false, false) }]), 7, 0, by
    unfold State.live State.sound
    decide +kernel⟩

theorem witness_MotionLoops_strobe : ∃ (s : State) (l : Fin 8), s.live ∧ l.val < s.hw.mot.loops.length ∧ s.bit
    (Reg.CEU.LOOP_CTRL l) 15 = true ∧ s.reached l (s.loop l).strobe (s.rd (Reg.CEU.STROBE_OFS l)).toNat = true ∧ s.reached l
    (s.loop l).sample (s.rd (Reg.CEU.SAMPLE_OFS l)).toNat = true ∧ s.bit Reg.SSI.SET_TRIG 0 = true ∧ s.fld Reg.SSI.SET_TRIG 3
    1 = l.val ∧ s.bit Reg.SSI.SSI_CTRL 0 = true ∧ s.hw.mot.set_ = none :=
⟨small (.all [.wrN Reg.CEU.CEU_CTRL 1, .wrN (Reg.CEU.LOOP_CTRL 7) 0x8001, .wrN (Reg.CEU.PERIOD 7) 1000000, .wrN
    (Reg.CEU.STROBE_OFS 7) 5, .wrN (Reg.CEU.SAMPLE_OFS 7) 5, .upd (.tsc 5), .wrN Reg.SSI.SSI_CTRL 1, .wrN Reg.SSI.SET_TRIG
    0xF]), 7, by
    unfold State.live State.sound
    decide +kernel⟩

theorem witness_MotionLoops_early : ∃ (s : State) (l : Fin 8), s.live ∧ l.val < s.hw.mot.loops.length ∧ s.reached l (s.loop
    l).strobe (s.rd (Reg.CEU.STROBE_OFS l)).toNat = false :=
⟨small (.wrN (Reg.CEU.STROBE_OFS 7) 5), 7, by
    unfold State.live State.sound
    decide +kernel⟩

theorem witness_MotionLoops_cutoff : ∃ (s : State) (l : Fin 8) (u : DUnit), s.live ∧ l.val < s.hw.mot.loops.length ∧ s.loopOn
    l = true ∧ s.cutoff l (s.loop l).cut ≤ s.now ∧ newest (((s.streamSt (s.fld (Reg.CEU.LOOP_CTRL l) 13 5)).recent.filter fun
    e => decide ((s.loop l).prev < e.1 ∧ e.1 ≤ s.cutoff l (s.loop l).cut)).map (·.2)) = some u ∧ s.tooLong (s.fld
    (Reg.CEU.LOOP_CTRL l) 4 1) u = false :=
⟨small (.all [.wrN Reg.CEU.CEU_CTRL 1, .wrN (Reg.CEU.LOOP_CTRL 7) 0x1FFF, .wrN (Reg.CEU.PERIOD 7) 1000000, .wrN
    (Reg.CEU.LAUNCH_OFS 7) 5000, .upd (.tsc 3000), .stream 255 fun x =>
    { x with recent := [(2000, unitOf 9 0x13 1000), (3000, unitOf 9 0x13 2000)] }]), 7, unitOf 9 0x13 2000, by
    unfold State.live State.sound
    decide +kernel⟩

theorem witness_MotionLoops_stale : ∃ (s : State) (l : Fin 8), s.live ∧ l.val < s.hw.mot.loops.length ∧ s.loopOn l = true ∧
    s.cutoff l (s.loop l).cut ≤ s.now ∧ newest (((s.streamSt (s.fld (Reg.CEU.LOOP_CTRL l) 13 5)).recent.filter fun e =>
    decide ((s.loop l).prev < e.1 ∧ e.1 ≤ s.cutoff l (s.loop l).cut)).map (·.2)) = none ∧ s.bit (Reg.CEU.LOOP_CTRL l) 14 =
    false :=
⟨small (.all [.wrN Reg.CEU.CEU_CTRL 1, .wrN (Reg.CEU.LOOP_CTRL 7) 1, .wrN (Reg.CEU.PERIOD 7) 1000000, .wrN
    (Reg.CEU.LAUNCH_OFS 7) 5000, .upd (.tsc 3000)]), 7, by
    unfold State.live State.sound
    decide +kernel⟩

theorem witness_MotionLoops_launch : ∃ (s : State) (l : Fin 8) (u : DUnit) (p : Nat), s.live ∧ l.val < s.hw.mot.loops.length
    ∧ (s.loop l).launch < (s.loop l).cut ∧ s.reached l (s.loop l).launch (s.rd (Reg.CEU.LAUNCH_OFS l)).toNat = true ∧ (s.loop
    l).sel = some (u, false, false) ∧ s.tplPorts (s.fld (Reg.CEU.LOOP_CTRL l) 4 1) = [p] ∧ s.tsnUp p = true ∧ s.gateOpen p
    (s.fld (Reg.CEU.TPL_VLAN (s.fld (Reg.CEU.LOOP_CTRL l) 4 1)) 14 12) = true ∧ (s.tsn p).queue = [] :=
⟨small (.all [.wrN Reg.CEU.CEU_CTRL 1, .wrN (Reg.CEU.LOOP_CTRL 7) 0x1F, .wrN (Reg.CEU.PERIOD 7) 1000000, .wrN
    (Reg.CEU.LAUNCH_OFS 7) 5000, .upd (.tsc 5000), .wrN (Reg.CEU.TPL_DST_HI 15) 0x80000, .wrN (Reg.TSN.TSN_CTRL 3) 1, .wrN
    (Reg.TSN.TSN_STATUS 3) 1, .loop 7 fun x => { x with cut := 1, sel := some (unitOf 9 0x13, false, false) }]), 7, unitOf 9
    0x13, 3, by
    unfold State.live State.sound
    decide +kernel⟩

theorem witness_MotionLoops_noPort : ∃ (s : State) (l : Fin 8) (u : DUnit), s.live ∧ l.val < s.hw.mot.loops.length ∧ (s.loop
    l).launch < (s.loop l).cut ∧ s.reached l (s.loop l).launch (s.rd (Reg.CEU.LAUNCH_OFS l)).toNat = true ∧ (s.loop l).sel =
    some (u, true, false) ∧ s.tplPorts (s.fld (Reg.CEU.LOOP_CTRL l) 4 1) = [] :=
⟨small (.all [.wrN Reg.CEU.CEU_CTRL 1, .wrN (Reg.CEU.LOOP_CTRL 7) 0x1F, .wrN (Reg.CEU.PERIOD 7) 1000000, .wrN
    (Reg.CEU.LAUNCH_OFS 7) 5000, .upd (.tsc 5000), .loop 7 fun x =>
    { x with cut := 1, sel := some (unitOf 9 0x13, true, false) }]), 7, unitOf 9 0x13, by
    unfold State.live State.sound
    decide +kernel⟩

theorem witness_MotionLoops_close : ∃ (s : State) (l : Fin 8), s.live ∧ l.val < s.hw.mot.loops.length ∧ s.loopOn l = true ∧
    s.cycleStart l (s.loop l).perc + (s.rd (Reg.CEU.PERC_CLOSE l)).toNat ≤ s.now ∧ (s.loop l).failed ≤ (s.loop l).perc :=
⟨small (.all [.wrN Reg.CEU.CEU_CTRL 1, .wrN (Reg.CEU.LOOP_CTRL 7) 1, .wrN (Reg.CEU.PERIOD 7) 1000000, .wrN
    (Reg.CEU.PERC_CLOSE 7) 5000, .upd (.tsc 5000)]), 7, by
    unfold State.live State.sound
    decide +kernel⟩

theorem witness_MotionLoops_closeFailed : ∃ (s : State) (l : Fin 8), s.live ∧ l.val < s.hw.mot.loops.length ∧ s.loopOn l =
    true ∧ s.cycleStart l (s.loop l).perc + (s.rd (Reg.CEU.PERC_CLOSE l)).toNat ≤ s.now ∧ (s.loop l).perc < (s.loop l).failed
    :=
⟨small (.all [.wrN Reg.CEU.CEU_CTRL 1, .wrN (Reg.CEU.LOOP_CTRL 7) 1, .wrN (Reg.CEU.PERIOD 7) 1000000, .wrN
    (Reg.CEU.PERC_CLOSE 7) 5000, .upd (.tsc 5000), .loop 7 fun x => { x with failed := 1 }]), 7, by
    unfold State.live State.sound
    decide +kernel⟩

theorem witness_SafetyStates_enable : ∃ (s : State) (v : Word), s.live ∧ s.accepts 0 Reg.SAFE.SAFE_CTRL (v ||| 1) = true ∧
    s.bit Reg.SAFE.SAFE_CTRL 0 = false ∧ s.safeState = sOFF :=
⟨small (.wrN Reg.SAFE.SAFE_CTRL 4), 4, by
    unfold State.live State.sound
    decide +kernel⟩

theorem witness_SafetyStates_disable : ∃ (s : State) (v : Word), s.live ∧ s.accepts 0 Reg.SAFE.SAFE_CTRL (v &&& ~~~ 1) = true
    ∧ s.bit Reg.SAFE.SAFE_CTRL 0 = true :=
⟨small (safeIn sRUN), 5, by
    unfold State.live State.sound
    decide +kernel⟩

theorem witness_SafetyStates_arm : ∃ (s : State) (v : Word), s.live ∧ s.accepts 0 Reg.SAFE.SAFE_CMD (setBits v 3 0 1) = true
    ∧ s.safeState = sINIT ∧ s.armReason = 0 :=
⟨small (.all [.wrN Reg.SAFE.SAFE_CTRL 5, .wrN Reg.SAFE.SAFE_STATE 1, ctxRec 1 2 2, ctxRec 255 2 2, .wrN Reg.DISP.CLASS2_ENG
    0x80000001, .wrN Reg.SAFE.CH_A 1, .wrN Reg.SAFE.CH_B 0x1FFF, .wrN Reg.CMP.MODEL_A 1, .wrN Reg.CMP.MODEL_B 2]),
    0xA5C30000, by
    unfold State.live State.sound
    decide +kernel⟩

theorem witness_SafetyStates_armBad : ∃ (s : State) (v : Word), s.live ∧ s.accepts 0 Reg.SAFE.SAFE_CMD (setBits v 3 0 1) =
    true ∧ s.safeState = sINIT ∧ s.armReason ≠ 0 :=
⟨small (.all [.wrN Reg.SAFE.SAFE_CTRL 5, .wrN Reg.SAFE.SAFE_STATE 1]), 0xA5C30000, by
    unfold State.live State.sound
    decide +kernel⟩

theorem witness_SafetyStates_armElse : ∃ (s : State) (v : Word), s.live ∧ s.accepts 0 Reg.SAFE.SAFE_CMD (setBits v 3 0 1) =
    true ∧ s.safeState ≠ sINIT :=
⟨small (safeIn sRUN), 0xA5C30000, by
    unfold State.live State.sound
    decide +kernel⟩

theorem witness_SafetyStates_restart : ∃ (s : State) (v : Word), s.live ∧ s.accepts 0 Reg.SAFE.SAFE_CMD (setBits v 3 0 2) =
    true ∧ s.safeState = sSAFE :=
⟨small (safeIn sSAFE), 0xA5C30000, by
    unfold State.live State.sound
    decide +kernel⟩

theorem witness_SafetyStates_restartElse : ∃ (s : State) (v : Word), s.live ∧ s.accepts 0 Reg.SAFE.SAFE_CMD (setBits v 3 0 2)
    = true ∧ s.safeState ≠ sSAFE :=
⟨small (safeIn sRUN), 0xA5C30000, by
    unfold State.live State.sound
    decide +kernel⟩

theorem witness_SafetyStates_force : ∃ (s : State) (v : Word), s.live ∧ s.accepts 0 Reg.SAFE.SAFE_CMD (setBits v 3 0 3) =
    true :=
⟨small (safeIn sRUN), 0xA5C30000, by
    unfold State.live State.sound
    decide +kernel⟩

theorem witness_SafetyStates_lockstep : ∃ (s : State) (code : Nat) (i : Instr), s.live ∧ (code, i) ∈ [(10,
    Instr.lockstepMismatch), (15, .safeClockDeviation)] ∧ s.safeState ≠ sOFF :=
⟨small (safeIn sRUN), 15, .safeClockDeviation, by
    unfold State.live State.sound
    decide +kernel⟩

theorem witness_SafetyStates_tested : ∃ (s : State), s.live ∧ s.safeState = sTEST ∧ s.chanStranded = false :=
⟨small (.all [.wrN Reg.SAFE.SAFE_CTRL 5, .wrN Reg.SAFE.SAFE_STATE 2]), by
    unfold State.live State.sound
    decide +kernel⟩

theorem witness_SafetyStates_confirmed : ∃ (s : State) (x : ChanRes), s.live ∧ s.safeState = sREACT ∧ s.hw.safe.again = false
    ∧ s.lastOf s.survivor = some x ∧ s.now - x.stamp ≤ s.verdictAge ∧ s.rd Reg.SAFE.DEG_LIMIT ≠ 0 :=
⟨small (.all [safeIn (sREACT + 0x200), .safe (fun x => { x with lastA := some {} }), .wrN Reg.SAFE.TIMING 2, .upd (.tsc
    2000)]), {}, by
    unfold State.live State.sound
    decide +kernel⟩

theorem witness_SafetyStates_limit : ∃ (s : State), s.live ∧ s.safeState = sDEGRADED ∧ s.degEnd ≤ s.now :=
⟨small (.all [safeIn (sDEGRADED + 0x200), .upd (.tsc 2000000), .wrN Reg.SAFE.DEG_LIMIT 2]), by
    unfold State.live State.sound
    decide +kernel⟩

theorem witness_SafetyStates_limitEarly : ∃ (s : State), s.live ∧ s.safeState = sDEGRADED ∧ s.now < s.degEnd ∧
    s.hw.safe.warned = false ∧ s.degEnd ≤ s.now + 1000000000 :=
⟨small (.all [safeIn (sDEGRADED + 0x200), .upd (.tsc 1999999), .wrN Reg.SAFE.DEG_LIMIT 2]), by
    unfold State.live State.sound
    decide +kernel⟩

theorem witness_SafetyRuntime_result : ∃ (s : State) (chB : Bool) (u : DUnit), s.live ∧ s.bit Reg.CMP.CMP_CTRL 0 = true ∧
    s.safeState = sRUN ∧ (receiveUnit (alGet {} (rxKey .CMP 0 u.stream) s.hw.rx) u 2 (u.stream.toNat / 512 == s.devNum &&
    !u.has fREMOTE && s.authorised (u.stream.toNat % 512))).units = [u] ∧ u.has fINVALID = false ∧ u.payload.length = 16 ∧
    u.fmt = 0x13 ∧ s.modelBad chB u = [] ∧ u.item ∉ s.hw.safe.gone ∧ (s.hw.safe.wait.find? fun x => x.item == u.item) = none
    :=
⟨small (.all [safeIn sRUN, .wrN Reg.CMP.CMP_CTRL 1, .wrN Reg.CMP.MODEL_A 6, .wrN Reg.CMP.MODEL_B 7, .wrN (Reg.SAFE.AUTH 15)
    0x8005]), true, resultUnit, by
    unfold State.live State.sound
    decide +kernel⟩

theorem witness_SafetyRuntime_pair : ∃ (s : State) (chB : Bool) (u : DUnit), s.live ∧ s.bit Reg.CMP.CMP_CTRL 0 = true ∧
    s.safeState = sRUN ∧ (receiveUnit (alGet {} (rxKey .CMP 0 u.stream) s.hw.rx) u 2 (u.stream.toNat / 512 == s.devNum &&
    !u.has fREMOTE && s.authorised (u.stream.toNat % 512))).units = [u] ∧ u.has fINVALID = false ∧ u.payload.length = 16 ∧
    u.fmt = 0x13 ∧ s.modelBad chB u = [] ∧ u.item ∉ s.hw.safe.gone ∧ (s.hw.safe.wait.find? fun x => x.item == u.item) = some
    { item := 9, occ := 1, eval := 3 } :=
⟨small (.all [safeIn sRUN, .wrN Reg.CMP.CMP_CTRL 1, .wrN Reg.CMP.MODEL_A 6, .wrN Reg.CMP.MODEL_B 7, .wrN (Reg.SAFE.AUTH 15)
    0x8005, .safe fun x => { x with wait := [{ item := 9, occ := 1, eval := 3 }] }]), true, resultUnit, by
    unfold State.live State.sound
    decide +kernel⟩

theorem witness_SafetyRuntime_pairWait : ∃ (s : State) (item : BitVec 48) (r : ChanRes), s.live ∧ (s.hw.safe.wait.find? fun x
    => x.item == item) = some r ∧ r.since + s.fld Reg.CMP.PAIR_WAIT 15 0 * 1000 ≤ s.now ∧ s.safeState = sRUN :=
⟨small (.all [safeIn sRUN, .upd (.tsc 300000), .safe fun x => { x with wait := [{ item := 9, chB := true }] }]), 9,
    { item := 9, chB := true }, by
    unfold State.live State.sound
    decide +kernel⟩

theorem witness_SafetyRuntime_pairEarly : ∃ (s : State) (item : BitVec 48) (r : ChanRes), s.live ∧ (s.hw.safe.wait.find? fun
    x => x.item == item) = some r ∧ s.now < r.since + s.fld Reg.CMP.PAIR_WAIT 15 0 * 1000 :=
⟨small (.all [safeIn sRUN, .upd (.tsc 299999), .safe fun x => { x with wait := [{ item := 9, chB := false }] }]), 9,
    { item := 9, chB := false }, by
    unfold State.live State.sound
    decide +kernel⟩

theorem witness_SafetyRuntime_pinHold : ∃ (s : State) (t0 : Nat), s.live ∧ s.validNow = false ∧ s.bit Reg.SAFE.SAFE_STATE 4 =
    false ∧ s.hw.safe.lostAt = some t0 ∧ s.pinHold < s.now - t0 :=
⟨small (.all [safeIn sRUN, .upd (.tsc 9), .safe fun x => { x with lostAt := some 8 }]), 8, by
    unfold State.live State.sound
    decide +kernel⟩

theorem witness_SafetyRuntime_readback : ∃ (s : State) (a : Bool) (b : Bool), s.live ∧ s.safeState ≠ sOFF ∧ a = s.bit
    Reg.SAFE.SAFE_STATE 6 ∧ b = s.bit Reg.SAFE.SAFE_STATE 7 :=
⟨small (safeIn sRUN), true, true, by
    unfold State.live State.sound
    decide +kernel⟩

theorem witness_SafetyRuntime_differs : ∃ (s : State) (b : Bool) (t0 : Nat), s.live ∧ s.safeState ≠ sOFF ∧ b ≠ s.bit
    Reg.SAFE.SAFE_STATE 7 ∧ s.hw.safe.differs = some t0 ∧ t0 + 2000 ≤ s.now :=
⟨small (.all [safeIn sRUN, .upd (.tsc 2000), .safe fun x => { x with differs := some 0 }]), false, 0, by
    unfold State.live State.sound
    decide +kernel⟩

theorem witness_SafetyRuntime_differs1 : ∃ (s : State) (a : Bool), s.live ∧ s.safeState ≠ sOFF ∧ a ≠ s.bit
    Reg.SAFE.SAFE_STATE 6 ∧ s.hw.safe.differs = none :=
⟨small (safeIn sRUN), false, by
    unfold State.live State.sound
    decide +kernel⟩

theorem witness_SafetyRuntime_pulse : ∃ (s : State) (outB : Bool), s.live ∧ s.bit Reg.SAFE.SAFE_CTRL 2 = true ∧ s.bit
    Reg.SAFE.SAFE_STATE (if outB then 7 else 6) = true ∧ s.safeState ≠ sOFF :=
⟨small (safeIn sRUN), true, by
    unfold State.live State.sound
    decide +kernel⟩

theorem witness_SafetyRuntime_status : ∃ (s : State), s.live ∧ s.safeState ≠ sOFF ∧ s.hw.safe.statusAt + s.fld Reg.SAFE.SMSG
    31 16 * 1000 ≤ s.now :=
⟨small (.all [safeIn sRUN, .upd (.tsc 1000000)]), by
    unfold State.live State.sound
    decide +kernel⟩

theorem witness_SafetyRuntime_statusEarly : ∃ (s : State), s.live ∧ s.safeState ≠ sOFF ∧ s.now < s.hw.safe.statusAt + s.fld
    Reg.SAFE.SMSG 31 16 * 1000 :=
⟨small (.all [safeIn sRUN, .upd (.tsc 999999)]), by
    unfold State.live State.sound
    decide +kernel⟩

theorem witness_SafetyRuntime_late : ∃ (s : State), s.live ∧ s.bit Reg.SAFE.SAFE_CTRL 1 = true ∧ (s.hw.mot.tsn.any fun t =>
    t.queue.any fun f => f.kind == 3 && decide (f.since + 100000 < s.now)) = true :=
⟨small (.all [safeIn sRUN, .wrN Reg.SAFE.SAFE_CTRL 7, .upd (.tsc 100001), .tsn 3 fun x =>
    { x with queue := [{ tmpl := 0, pcp := 7, kind := 3, mflags := 0, seq := 0, unit := unitOf 9 0x13, since := 0 }] }]), by
    unfold State.live State.sound
    decide +kernel⟩

theorem witness_SafetyRuntime_clear : ∃ (s : State), s.live ∧ s.bit Reg.SAFE.SAFE_STATE 10 = true ∧ s.hw.safe.routeAt +
    100000000 ≤ s.now ∧ 16 ≤ s.hw.safe.timely ∧ s.bit Reg.CEU.CEU_CTRL 0 = true ∧ s.tplPorts (s.fld Reg.SAFE.SMSG 12 9) ≠ []
    ∧ (s.tplPorts (s.fld Reg.SAFE.SMSG 12 9)).all s.tsnUp = true :=
⟨small (.all [safeIn (sRUN + 1024), .upd (.tsc 100000000), .safe (fun x => { x with timely := 16 }), .wrN Reg.CEU.CEU_CTRL 1,
    .wrN (Reg.CEU.TPL_DST_HI 0) 0x80000, .wrN (Reg.TSN.TSN_CTRL 3) 1, .wrN (Reg.TSN.TSN_STATUS 3) 1]), by
    unfold State.live State.sound
    decide +kernel⟩

theorem witness_SafetyRuntime_slice : ∃ (s : State) (u : BitVec 16), s.live ∧ sARM ≤ s.safeState ∧ s.safeState ≤ sREACT ∧
    u.toNat < Blk.ENG.slot :=
⟨small (.all [safeIn sARM, .wrN Reg.SAFE.TEST_STATUS 7]), 127, by
    unfold State.live State.sound
    decide +kernel⟩

theorem witness_Watchdogs_kick : ∃ (s : State) (w : BitVec 6) (v : Word), s.live ∧ s.wdOn w.toNat = true ∧ w.toNat <
    s.hw.safe.wds.length ∧ s.accepts 0 ⟨.WDG, w.toNat / 16, 0x108 + 16 * (w.toNat % 16)⟩ v = true ∧ s.bit (wdCfg w.toNat) 1 =
    false ∧ s.now ≤ (s.wd w.toNat).since + s.wdClose w.toNat * 1000 ∧ s.fld (Reg.WDG.WD_WIN (w.toNat / 16) (w.toNat % 16)) 15
    0 ≤ (s.now - (s.wd w.toNat).since) / 1000 ∧ bits v 7 0 = (s.fld (wdStatus w.toNat) 7 0 + 1) % 256 :=
⟨small (.all [.wrN (Reg.WDG.WDG_CTRL 3) 1, .wrN (Reg.WDG.WD_CFG 3 15) 1, .wrN (Reg.WDG.WD_WIN 3 15) 0x20001, .wrN
    (Reg.WDG.WD_STATUS 3 15) 255, .wd 63 (fun x => { x with first := false }), .upd (.tsc 1000)]), 63, 0x5A3C0000, by
    unfold State.live State.sound
    decide +kernel⟩

theorem witness_Watchdogs_early : ∃ (s : State) (w : BitVec 6) (v : Word), s.live ∧ s.wdOn w.toNat = true ∧ w.toNat <
    s.hw.safe.wds.length ∧ s.accepts 0 ⟨.WDG, w.toNat / 16, 0x108 + 16 * (w.toNat % 16)⟩ v = true ∧ s.bit (wdCfg w.toNat) 1 =
    false ∧ s.bit (wdCfg w.toNat) 4 = false ∧ s.now ≤ (s.wd w.toNat).since + s.wdClose w.toNat * 1000 ∧ (s.now - (s.wd
    w.toNat).since) / 1000 < s.fld (Reg.WDG.WD_WIN (w.toNat / 16) (w.toNat % 16)) 15 0 :=
⟨small (.all [.wrN (Reg.WDG.WDG_CTRL 3) 1, .wrN (Reg.WDG.WD_CFG 3 15) 1, .wrN (Reg.WDG.WD_WIN 3 15) 0x20001, .wrN
    (Reg.WDG.WD_STATUS 3 15) 255, .wd 63 (fun x => { x with first := false }), .upd (.tsc 999)]), 63, 0x5A3C0000, by
    unfold State.live State.sound
    decide +kernel⟩

theorem witness_Watchdogs_late : ∃ (s : State) (w : BitVec 6), s.live ∧ s.wdOn w.toNat = true ∧ w.toNat <
    s.hw.safe.wds.length ∧ s.bit (wdCfg w.toNat) 4 = false ∧ (s.wd w.toNat).since + s.wdClose w.toNat * 1000 ≤ s.now :=
⟨small (.all [.wrN (Reg.WDG.WDG_CTRL 3) 1, .wrN (Reg.WDG.WD_CFG 3 15) 0x20001, .upd (.tsc 2005)]), 63, by
    unfold State.live State.sound
    decide +kernel⟩

theorem witness_Watchdogs_open : ∃ (s : State) (w : BitVec 6), s.live ∧ s.wdOn w.toNat = true ∧ w.toNat <
    s.hw.safe.wds.length ∧ s.now < (s.wd w.toNat).since + s.wdClose w.toNat * 1000 :=
⟨small (.all [.wrN (Reg.WDG.WDG_CTRL 3) 1, .wrN (Reg.WDG.WD_CFG 3 15) 0x20001, .upd (.tsc 1999)]), 63, by
    unfold State.live State.sound
    decide +kernel⟩

theorem witness_IslandRequests_send : ∃ (s : State) (v : Word), s.live ∧ s.accepts 0 Reg.HAL.REQ_CMD (v ||| 1) = true ∧
    s.hw.boot.frozen = false :=
⟨small (.all [.wrN Reg.HAL.REQ_STATUS 0xFFFF0000, .wrN (Reg.HAL.REQ 7) 0x12345678, .upd (.tsc 77)]), 0, by
    unfold State.live State.sound
    decide +kernel⟩

theorem witness_IslandRequests_set : ∃ (s : State) (r : HalReq), s.sound ∧ s.hw.hal.req = some r ∧ r.op = 1 ∧ s.hw.hal.setOk
    r.param r.value = true ∧ s.hw.hal.audit.length < auditSize ∧ s.hw.hal.blocked r = 0 ∧ paramOf s.hw.hal.params r.param ≠
    r.value ∧ paramLegal r.param = true :=
⟨small (island 1 0x0020 100000), { words := [1, 0x20, 100000, 1, 0, 0, 0, 0], seq := 65535, tsc := 77 }, by
    unfold State.sound
    decide +kernel⟩

theorem witness_IslandRequests_setUnaudited : ∃ (s : State) (r : HalReq), s.sound ∧ s.hw.hal.req = some r ∧ r.op = 1 ∧
    s.hw.hal.setOk r.param r.value = true ∧ s.hw.hal.blocked r = 0 ∧ paramOf s.hw.hal.params r.param ≠ r.value ∧ paramLegal
    r.param = false :=
⟨small (island 1 0x0100 2), { words := [1, 0x100, 2, 1, 0, 0, 0, 0], seq := 65535, tsc := 77 }, by
    unfold State.sound
    decide +kernel⟩

theorem witness_IslandRequests_setSame : ∃ (s : State) (r : HalReq), s.sound ∧ s.hw.hal.req = some r ∧ r.op = 1 ∧
    s.hw.hal.setOk r.param r.value = true ∧ s.hw.hal.blocked r = 0 ∧ paramOf s.hw.hal.params r.param = r.value :=
⟨small (island 1 0x0020 100), { words := [1, 0x20, 100, 1, 0, 0, 0, 0], seq := 65535, tsc := 77 }, by
    unfold State.sound
    decide +kernel⟩

theorem witness_IslandRequests_setRange : ∃ (s : State) (r : HalReq), s.sound ∧ s.hw.hal.req = some r ∧ r.op = 1 ∧ paramRange
    r.param r.value ≠ none ∧ s.hw.hal.setOk r.param r.value = false :=
⟨small (island 1 0x0020 100001), { words := [1, 0x20, 100001, 1, 0, 0, 0, 0], seq := 65535, tsc := 77 }, by
    unfold State.sound
    decide +kernel⟩

theorem witness_IslandRequests_setUnknown : ∃ (s : State) (r : HalReq), s.sound ∧ s.hw.hal.req = some r ∧ r.op = 1 ∧
    paramRange r.param r.value = none :=
⟨small (island 1 0x0050 1), { words := [1, 0x50, 1, 1, 0, 0, 0, 0], seq := 65535, tsc := 77 }, by
    unfold State.sound
    decide +kernel⟩

theorem witness_IslandRequests_setBlocked : ∃ (s : State) (r : HalReq), s.sound ∧ s.hw.hal.req = some r ∧ r.op = 1 ∧
    s.hw.hal.setOk r.param r.value = true ∧ s.hw.hal.audit.length < auditSize ∧ s.hw.hal.blocked r ≠ 0 :=
⟨small (.seq (island 1 0x0020 101) (.hal fun h => { h with pfWarn := true })),
    { words := [1, 0x20, 101, 1, 0, 0, 0, 0], seq := 65535, tsc := 77 }, by
    unfold State.sound
    decide +kernel⟩

theorem witness_IslandRequests_blocked : ∃ (s : State) (r : HalReq) (i : Instr), s.sound ∧ s.hw.hal.req = some r ∧ (r.op, i)
    ∈ [(2, Instr.halParameterGet), (3, .halAuditRead), (5, .halZero), (6, .halTare), (7, .halTareClear)] ∧ s.hw.hal.blocked r
    ≠ 0 ∧ (paramRange r.param 0).isSome = true :=
⟨small (.seq (island 7 0x0020 0) (.hal fun h => { h with state := 2 })),
    { words := [7, 0x20, 0, 1, 0, 0, 0, 0], seq := 65535, tsc := 77 }, .halTareClear, by
    unfold State.sound
    decide +kernel⟩

theorem witness_IslandRequests_get : ∃ (s : State) (r : HalReq), s.sound ∧ s.hw.hal.req = some r ∧ s.hw.hal.blocked r = 0 ∧
    r.op = 2 ∧ (paramRange r.param 0).isSome = true :=
⟨small (island 2 0x0020 0), { words := [2, 0x20, 0, 1, 0, 0, 0, 0], seq := 65535, tsc := 77 }, by
    unfold State.sound
    decide +kernel⟩

theorem witness_IslandRequests_audit : ∃ (s : State) (r : HalReq) (e : AuditEntry), s.sound ∧ s.hw.hal.req = some r ∧
    s.hw.hal.blocked r = 0 ∧ r.op = 3 ∧ (s.hw.hal.audit.find? fun e => e.no == r.index) = some e :=
⟨small (.seq (island 3 0 0) (.hal fun h => { h with audit := [⟨1, 2, 3, 4, 5, 6, 7⟩] })),
    { words := [3, 0, 0, 1, 0, 0, 0, 0], seq := 65535, tsc := 77 }, ⟨1, 2, 3, 4, 5, 6, 7⟩, by
    unfold State.sound
    decide +kernel⟩

theorem witness_IslandRequests_auditNone : ∃ (s : State) (r : HalReq), s.sound ∧ s.hw.hal.req = some r ∧ s.hw.hal.blocked r =
    0 ∧ r.op = 3 ∧ (s.hw.hal.audit.find? fun e => e.no == r.index) = none :=
⟨small (island 3 0 0), { words := [3, 0, 0, 1, 0, 0, 0, 0], seq := 65535, tsc := 77 }, by
    unfold State.sound
    decide +kernel⟩

theorem witness_IslandRequests_ident : ∃ (s : State) (r : HalReq), s.sound ∧ s.hw.hal.req = some r ∧ s.hw.hal.blocked r = 0 ∧
    r.op = 4 :=
⟨small (island 4 0 0), { words := [4, 0, 0, 1, 0, 0, 0, 0], seq := 65535, tsc := 77 }, by
    unfold State.sound
    decide +kernel⟩

theorem witness_IslandRequests_zero : ∃ (s : State) (r : HalReq), s.sound ∧ s.hw.hal.req = some r ∧ s.hw.hal.blocked r = 0 ∧
    r.op = 5 ∧ s.hw.hal.stable = true ∧ s.hw.hal.gross.natAbs * 1000 ≤ (paramOf s.hw.hal.params 0x23).toNat * (paramOf
    s.hw.hal.params 0x20).toNat :=
⟨small (.seq (island 5 0 0) (.hal fun h => { h with stable := true, gross := -2, params := alPut 0 0x23 20 h.params })),
    { words := [5, 0, 0, 1, 0, 0, 0, 0], seq := 65535, tsc := 77 }, by
    unfold State.sound
    decide +kernel⟩

theorem witness_IslandRequests_zeroUnstable : ∃ (s : State) (r : HalReq), s.sound ∧ s.hw.hal.req = some r ∧ s.hw.hal.blocked
    r = 0 ∧ r.op = 5 ∧ s.hw.hal.stable = false :=
⟨small (island 5 0 0), { words := [5, 0, 0, 1, 0, 0, 0, 0], seq := 65535, tsc := 77 }, by
    unfold State.sound
    decide +kernel⟩

theorem witness_IslandRequests_tare : ∃ (s : State) (r : HalReq), s.sound ∧ s.hw.hal.req = some r ∧ s.hw.hal.blocked r = 0 ∧
    r.op = 6 :=
⟨small (.seq (island 6 0 0) (.hal fun h => { h with gross := 9, zero := 2 })),
    { words := [6, 0, 0, 1, 0, 0, 0, 0], seq := 65535, tsc := 77 }, by
    unfold State.sound
    decide +kernel⟩

theorem witness_IslandRequests_tareClear : ∃ (s : State) (r : HalReq), s.sound ∧ s.hw.hal.req = some r ∧ s.hw.hal.blocked r =
    0 ∧ r.op = 7 :=
⟨small (.seq (island 7 0 0) (.hal fun h => { h with tare := 9 })),
    { words := [7, 0, 0, 1, 0, 0, 0, 0], seq := 65535, tsc := 77 }, by
    unfold State.sound
    decide +kernel⟩

theorem witness_IslandRequests_reply : ∃ (s : State) (y : HalReply), s.live ∧ s.hw.hal.req = none ∧ s.hw.hal.reply = some y ∧
    y.words.length = 8 ∧ s.bit Reg.HAL.REQ_STATUS 0 = true ∧ s.fld Reg.HAL.REQ_STATUS 31 16 = y.seq :=
⟨small (.all [.wrN Reg.HAL.REQ_STATUS 0xFFFF0001, .hal fun h =>
    { h with reply := some { words := [1, 2, 3, 4, 5, 6, 7, 8], ok := false, reason := 5, seq := 65535 } }]),
    { words := [1, 2, 3, 4, 5, 6, 7, 8], ok := false, reason := 5, seq := 65535 }, by
    unfold State.live State.sound
    decide +kernel⟩

theorem witness_IslandResults_window : ∃ (s : State), s.sound ∧ s.hw.hal.state ≠ hSTART ∧ s.hw.hal.queue.length < 256 :=
⟨small (.hal fun h =>
    { h with state := 1, zero := 1, tare := 2, queue := List.replicate 255 ⟨0, 0, 0, 0, 0, 0, 0, 0⟩, resSeq := 9, lost := true }),
    by
    unfold State.sound
    decide +kernel⟩

theorem witness_IslandResults_windowLost : ∃ (s : State), s.sound ∧ s.hw.hal.state ≠ hSTART ∧ 256 ≤ s.hw.hal.queue.length :=
⟨small (.hal fun h => { h with state := 1, queue := List.replicate 256 ⟨0, 0, 0, 0, 0, 0, 0, 0⟩, resSeq := 9 }), by
    unfold State.sound
    decide +kernel⟩

theorem witness_IslandResults_record : ∃ (s : State) (r : HalResult), s.live ∧ s.hw.hal.queue = [r] ∧ s.bit
    Reg.HAL.HAL_STATUS 3 = true ∧ s.hw.hal.shown = false ∧ s.bit Reg.HAL.HAL_CTRL 0 = false :=
⟨small (.all [.wrN Reg.HAL.HAL_STATUS 8, .wrN Reg.HAL.HAL_CTRL 0, .upd (.tsc 20000), .hal fun h =>
    { h with state := 1, queue := [⟨7, -5, 0, 0, 0, 0, 5, 0⟩] }]), ⟨7, -5, 0, 0, 0, 0, 5, 0⟩, by
    unfold State.live State.sound
    decide +kernel⟩

theorem witness_IslandResults_recordUnit : ∃ (s : State) (r : HalResult), s.live ∧ s.hw.hal.queue = [r] ∧ s.bit
    Reg.HAL.HAL_STATUS 3 = true ∧ s.hw.hal.shown = false ∧ s.bit Reg.HAL.HAL_CTRL 0 = true ∧ s.streamFull (s.fld
    Reg.HAL.HAL_CTRL 9 1) = false :=
⟨small (.all [.wrN Reg.HAL.HAL_STATUS 8, .wrN Reg.HAL.HAL_CTRL 0x3FF, .mem (32 * 511) 8 0x10002000000000, .mem (32 * 511) 8
    (0x30000 + 2 ^ 32 * 4 + 2 ^ 48), .mem (32 * 511 + 16) 1 0x8C, .hal fun h =>
    { h with state := 1, queue := [⟨7, -5, 0, 0, 0, 0, 5, 0⟩] }]), ⟨7, -5, 0, 0, 0, 0, 5, 0⟩, by
    unfold State.live State.sound
    decide +kernel⟩

theorem witness_IslandResults_recordFull : ∃ (s : State) (r : HalResult), s.live ∧ s.hw.hal.queue = [r] ∧ s.bit
    Reg.HAL.HAL_STATUS 3 = true ∧ s.hw.hal.shown = false ∧ s.bit Reg.HAL.HAL_CTRL 0 = true ∧ s.streamFull (s.fld
    Reg.HAL.HAL_CTRL 9 1) = true :=
⟨small (.all [.wrN Reg.HAL.HAL_STATUS 8, .wrN Reg.HAL.HAL_CTRL 0x3FF, .mem (32 * 511) 8 (0x30000 + 2 ^ 32 * 4 + 2 ^ 48), .mem
    (32 * 511 + 12) 4 3, .mem (32 * 511 + 16) 1 0x8C, .hal fun h =>
    { h with state := 1, queue := [⟨7, -5, 0, 0, 0, 0, 5, 0⟩] }]), ⟨7, -5, 0, 0, 0, 0, 5, 0⟩, by
    unfold State.live State.sound
    decide +kernel⟩

theorem witness_IslandResults_recordBad : ∃ (s : State), s.live :=
⟨small (.all [.wrN Reg.HAL.HAL_STATUS 8, .hal fun h => { h with state := 1, queue := [⟨7, -5, 0, 0, 0, 0, 5, 0⟩] }]), by
    unfold State.live State.sound
    decide +kernel⟩

theorem witness_IslandResults_pop : ∃ (s : State) (v : Word), s.live ∧ s.accepts 0 Reg.HAL.RES_POP (v ||| 1) = true ∧ s.bit
    Reg.HAL.HAL_CTRL 0 = false ∧ s.hw.hal.shown = true :=
⟨small (.all [.wrN Reg.HAL.HAL_STATUS 8, .wrN Reg.HAL.HAL_CTRL 0, .hal fun h =>
    { h with state := 1, shown := true, queue := [⟨7, -5, 0, 0, 0, 0, 5, 0⟩] }]), 0, by
    unfold State.live State.sound
    decide +kernel⟩

theorem witness_IslandResults_frame : ∃ (s : State), s.live ∧ s.hw.hal.state < 8 ∧ s.hw.hal.queue.length ≤ 256 ∧
    s.hw.hal.lostN ≠ 0 :=
⟨small (.all [.upd (.tsc 9), .hal fun h =>
    { h with state := 1, lostN := 3, queue := List.replicate 256 ⟨0, 0, 0, 0, 0, 0, 0, 0⟩ }]), by
    unfold State.live State.sound
    decide +kernel⟩

theorem witness_IslandResults_lane : ∃ (s : State), s.live ∧ s.bit Reg.HAL.HAL_STATUS 3 = true ∧ s.hw.hal.frame + 3 *
    ((paramOf s.hw.hal.params 0x100).toNat * 1000000) ≤ s.now :=
⟨small (.all [.wrN Reg.HAL.HAL_STATUS 9, .upd (.tsc 3000000), .hal fun h => { h with state := 1, shown := true }]), by
    unfold State.live State.sound
    decide +kernel⟩

theorem witness_IslandResults_laneUp : ∃ (s : State), s.live ∧ s.bit Reg.HAL.HAL_STATUS 3 = true ∧ s.now < s.hw.hal.frame + 3
    * ((paramOf s.hw.hal.params 0x100).toNat * 1000000) :=
⟨small (.all [.wrN Reg.HAL.HAL_STATUS 9, .upd (.tsc 2999999)]), by
    unfold State.live State.sound
    decide +kernel⟩

theorem witness_IslandResults_check : ∃ (s : State) (crc : Word), s.sound ∧ s.hw.hal.state ≠ hSTART ∧ crc ≠ s.hw.hal.crcRef
    :=
⟨small (.all [.wrN Reg.HAL.HAL_STATUS 9, .hal fun h => { h with state := 1 }]), 1, by
    unfold State.sound
    decide +kernel⟩

theorem witness_IslandResults_start : ∃ (s : State) (crc : Word), s.sound ∧ s.hw.hal.state = hSTART ∧ (crc == s.hw.hal.crcRef
    && true && true) = true :=
⟨State.reset, 0, by
    unfold State.sound
    decide +kernel⟩

theorem witness_IslandResults_startBad : ∃ (s : State) (crc : Word), s.sound ∧ s.hw.hal.state = hSTART ∧ (crc ==
    s.hw.hal.crcRef && true && false) = false :=
⟨State.reset, 0, by
    unfold State.sound
    decide +kernel⟩

theorem witness_CoreRegulator_start : ∃ (s : State) (vin : BitVec 16), s.sound ∧ 10800 ≤ vin.toNat ∧ vin.toNat ≤ 13200 ∧
    s.hw.pwr.coreOn = false ∧ s.hw.boot.thermal = false ∧ s.fld Reg.PWR.PWR_STATUS 2 0 ≠ 3 :=
⟨State.reset, 13200, by
    unfold State.sound
    decide +kernel⟩

theorem witness_CoreRegulator_startOut : ∃ (s : State) (vin : BitVec 16), s.sound ∧ 13200 < vin.toNat :=
⟨State.reset, 13201, by
    unfold State.sound
    decide +kernel⟩

theorem witness_CoreRegulator_rail : ∃ (s : State), s.sound ∧ s.hw.pwr.coreOn = true :=
⟨small (.pwr fun p => { p with coreOn := true }), by
    unfold State.sound
    decide +kernel⟩

theorem witness_CoreRegulator_railOff : ∃ (s : State), s.sound ∧ s.hw.pwr.coreOn = false :=
⟨State.reset, by
    unfold State.sound
    decide +kernel⟩

theorem witness_CoreRegulator_ilim : ∃ (s : State), s.live ∧ s.bit Reg.VRC.VRC_STATUS 24 = false :=
⟨State.reset, by
    unfold State.live State.sound
    decide +kernel⟩

theorem witness_CoreRegulator_ilimHeld : ∃ (s : State), s.live ∧ s.bit Reg.VRC.VRC_STATUS 24 = true :=
⟨small (.wrN Reg.VRC.VRC_STATUS 0x1000000), by
    unfold State.live State.sound
    decide +kernel⟩

theorem witness_CoreRegulator_avs : ∃ (s : State) (slack : Int), s.live ∧ s.bit Reg.VRC.VRC_CTRL 0 = true ∧ decide (slack <
    (s.fld Reg.VRC.VRC_CTRL 15 8 : Int)) = true ∧ 8500 < s.hw.pwr.target + 25 :=
⟨small (.all [.wrN Reg.VRC.VRC_CTRL 0x1401, .pwr fun p => { p with target := 8480, vFuse := [840, 840, 840] }]), 19, by
    unfold State.live State.sound
    decide +kernel⟩

theorem witness_CoreRegulator_avsOff : ∃ (s : State), s.live ∧ s.bit Reg.VRC.VRC_CTRL 0 = false :=
⟨small (.all [.wrN Reg.VRC.VRC_CTRL 0x1400, .pwr fun p => { p with target := 8480 }]), by
    unfold State.live State.sound
    decide +kernel⟩

theorem witness_CoreRegulator_phase : ∃ (s : State) (ph : Fin 26), s.live ∧ s.bit Reg.VRC.PHASE_EN ph = true ∧
    (s.hw.pwr.phaseOut.filter (· != ph.val)).length < s.sparePhases.length :=
⟨State.reset, 23, by
    unfold State.live State.sound
    decide +kernel⟩

theorem witness_CoreRegulator_phaseLast : ∃ (s : State) (ph : Fin 26), s.live ∧ s.bit Reg.VRC.PHASE_EN ph = true ∧
    s.sparePhases.length ≤ (s.hw.pwr.phaseOut.filter (· != ph.val)).length :=
⟨small (.all [.wrN Reg.VRC.PHASE_FAIL 0x2000000, .pwr fun p => { p with phaseOut := [5] }]), 23, by
    unfold State.live State.sound
    decide +kernel⟩

theorem witness_CoreRegulator_phaseOut : ∃ (s : State) (ph : Fin 26), s.live ∧ s.bit Reg.VRC.PHASE_EN ph = false :=
⟨State.reset, 25, by
    unfold State.live State.sound
    decide +kernel⟩

theorem witness_CoreRegulator_sense : ∃ (s : State) (ph : Fin 26), s.live ∧ s.bit Reg.VRC.PHASE_EN ph = true ∧ s.bit
    Reg.VRC.SENSE_FAIL ph = false :=
⟨small (.wrN Reg.VRC.SENSE_FAIL 0xFFF), 23, by
    unfold State.live State.sound
    decide +kernel⟩

theorem witness_CoreRegulator_spare : ∃ (s : State) (ph : Nat) (q : Nat), s.live ∧ s.hw.pwr.phaseOut = [ph] ∧ s.nextPhase =
    some q ∧ ph ≠ q :=
⟨small (.all [.wrN Reg.VRC.PHASE_EN 0x7FFFFF, .wrN Reg.VRC.PHASE_FAIL 0x800000, .pwr fun p => { p with phaseOut := [23] }]),
    23, 24, by
    unfold State.live State.sound
    decide +kernel⟩

theorem witness_CoreRegulator_droop : ∃ (s : State) (st : Fin 4) (mv : BitVec 8), s.live ∧ s.hw.pwr.stretch.length = 4 ∧
    s.fld Reg.VRC.DROOP_CFG 7 0 < mv.toNat ∧ s.hw.pwr.stretch.getD st false = false ∧ 63 ≤ (s.hw.pwr.droops.filter fun x =>
    decide (s.now < x + 1000000000)).length :=
⟨small (.pwr fun p => { p with droops := List.replicate 63 0 }), 3, 41, by
    unfold State.live State.sound
    decide +kernel⟩

theorem witness_CoreRegulator_droopSmall : ∃ (s : State) (mv : BitVec 8), s.live ∧ s.hw.pwr.stretch.length = 4 ∧ mv.toNat ≤
    s.fld Reg.VRC.DROOP_CFG 7 0 :=
⟨State.reset, 40, by
    unfold State.live State.sound
    decide +kernel⟩

theorem witness_CoreRegulator_stretch : ∃ (s : State) (st : Fin 4), s.live ∧ s.hw.pwr.stretch.length = 4 ∧
    s.hw.pwr.stretch.getD st false = true :=
⟨small (.pwr fun p => { p with stretch := List.replicate 4 true }), 3, by
    unfold State.live State.sound
    decide +kernel⟩

theorem witness_ClocksAndCap_freq : ∃ (s : State) (st : Fin 4) (code : Fin 3), s.live ∧ s.hw.pwr.want.getD st 0 = code.val ∧
    s.stripeCode st ≠ code.val :=
⟨small (.pwr fun p => { p with want := [0, 0, 0, 2] }), 3, 2, by
    unfold State.live State.sound
    decide +kernel⟩

theorem witness_ClocksAndCap_freqElse : ∃ (s : State) (st : Fin 4) (code : Fin 3), s.live ∧ s.hw.pwr.want.getD st 0 ≠
    code.val :=
⟨State.reset, 3, 2, by
    unfold State.live State.sound
    decide +kernel⟩

theorem witness_ClocksAndCap_pll : ∃ (s : State) (pll : Fin 13), s.live ∧ 1 ≤ pll.val ∧ pll.val ≤ 8 ∧ s.fld
    Reg.CLK.STRIPE_FREQ (4 * ((pll.val - 1) / 2) + 2) (4 * ((pll.val - 1) / 2) + 2) = (pll.val - 1) % 2 :=
⟨small (.all [.wrN Reg.CLK.CLK_STATUS 0x1FFF, .wrN Reg.CLK.STRIPE_FREQ 0x6000]), 8, by
    unfold State.live State.sound
    decide +kernel⟩

theorem witness_ClocksAndCap_ref : ∃ (s : State) (ppm : Int), s.live ∧ s.bit Reg.CLK.CLK_CTRL 0 = true ∧ (decide (1000 <
    ppm.natAbs) && !false) = true :=
⟨State.reset, -1001, by
    unfold State.live State.sound
    decide +kernel⟩

theorem witness_ClocksAndCap_estimate : ∃ (s : State), s.live ∧ s.bit Reg.PWR.PWR_STATUS 6 = false :=
⟨State.reset, by
    unfold State.live State.sound
    decide +kernel⟩

theorem witness_ClocksAndCap_corr : ∃ (s : State), s.live ∧ s.bit Reg.PWR.PWR_STATUS 6 = false ∧ sumNat (((s.hw.pwr.sums ::
    s.hw.pwr.past).take 100).map (·.2)) ≠ 0 :=
⟨small (.pwr fun p => { p with sums := (3, 2) }), by
    unfold State.live State.sound
    decide +kernel⟩

theorem witness_ClocksAndCap_corrDegraded : ∃ (s : State), s.live ∧ s.bit Reg.PWR.PWR_STATUS 6 = true :=
⟨small (.wrN Reg.PWR.PWR_STATUS 64), by
    unfold State.live State.sound
    decide +kernel⟩

theorem witness_ClocksAndCap_cap : ∃ (s : State) (projected : BitVec 16), s.live ∧ s.capInForce < projected.toNat ∧
    s.allAtFloor = true ∧ s.hw.pwr.miss = none :=
⟨small (.wrN Reg.PWR.PWR_STATUS 8), 4801, by
    unfold State.live State.sound
    decide +kernel⟩

theorem witness_ClocksAndCap_capMet : ∃ (s : State) (projected : BitVec 16), s.live ∧ projected.toNat ≤ s.capInForce ∧
    s.hw.pwr.phaseOut = [] :=
⟨small (.pwr fun p => { p with miss := some 0, limit := true }), 4800, by
    unfold State.live State.sound
    decide +kernel⟩

theorem witness_ClocksAndCap_irl : ∃ (s : State) (st : Fin 4) (wanted : List Nat), s.live ∧ s.bit Reg.VRC.VRC_STATUS 24 =
    false ∧ s.hw.pwr.miss = none ∧ s.hw.pwr.slots.length = 4 ∧ (s.bit Reg.PWR.IRL_CFG 20 || s.hw.pwr.limit) = true ∧
    s.hw.pwr.slots.getD st 0 + s.fld Reg.PWR.IRL_CFG 9 0 / (if s.hw.pwr.limit then 2 else 1) < sumNat (wanted.take 9) ∧ (∀ i
    : Nat, i < 9 → s.engClass (9 * st.val + i) ≠ 2) :=
⟨small (.wrN Reg.PWR.IRL_CFG 0x160020), 3, [64], by
    unfold State.live State.sound
    decide +kernel⟩

theorem witness_ClocksAndCap_irlNear : ∃ (s : State) (st : Fin 4) (wanted : List Nat), s.live ∧ s.bit Reg.VRC.VRC_STATUS 24 =
    false ∧ s.hw.pwr.miss = none ∧ s.hw.pwr.slots.length = 4 ∧ (s.bit Reg.PWR.IRL_CFG 20 || s.hw.pwr.limit) = true ∧ sumNat
    (wanted.take 9) ≤ s.hw.pwr.slots.getD st 0 + s.fld Reg.PWR.IRL_CFG 9 0 / (if s.hw.pwr.limit then 2 else 1) ∧
    s.hw.pwr.slots.getD st 0 ≤ s.fld Reg.PWR.IRL_CFG 9 0 / (if s.hw.pwr.limit then 2 else 1) + sumNat (wanted.take 9) :=
⟨small (.wrN Reg.PWR.IRL_CFG 0x160020), 3, [32], by
    unfold State.live State.sound
    decide +kernel⟩

theorem witness_ClocksAndCap_irlOff : ∃ (s : State), s.live ∧ s.bit Reg.VRC.VRC_STATUS 24 = false ∧ s.hw.pwr.miss = none ∧
    s.hw.pwr.slots.length = 4 ∧ (s.bit Reg.PWR.IRL_CFG 20 || s.hw.pwr.limit) = false :=
⟨small (.wrN Reg.PWR.IRL_CFG 0x20), by
    unfold State.live State.sound
    decide +kernel⟩

theorem witness_ClocksAndCap_irlMiss : ∃ (s : State) (st : Fin 4), s.live ∧ s.bit Reg.VRC.VRC_STATUS 24 = false ∧
    s.hw.pwr.miss ≠ none ∧ s.hw.pwr.slots.length = 4 ∧ (s.bit Reg.PWR.IRL_CFG 20 || s.hw.pwr.limit) = false ∧
    s.hw.pwr.slots.getD st 0 ≤ 576 ∧ (∀ i : Nat, i < 9 → s.engClass (9 * st.val + i) ≠ 2) :=
⟨small (.all [.wrN Reg.PWR.IRL_CFG 0x20, .hw fun h =>
    { h with pwr := { h.pwr with miss := some 7, slots := [0, 0, 0, 576] } }]), 3, by
    unfold State.live State.sound
    decide +kernel⟩

theorem witness_ClocksAndCap_irlIlim : ∃ (s : State) (st : Fin 4), s.live ∧ s.bit Reg.VRC.VRC_STATUS 24 = true ∧
    s.hw.pwr.slots.length = 4 ∧ (∀ i : Nat, i < 9 → s.engClass (9 * st.val + i) ≠ 2) :=
⟨small (.all [.wrN Reg.VRC.VRC_STATUS 0x1000000, .hw fun h => { h with pwr := { h.pwr with slots := [0, 0, 0, 576] } }]), 3,
    by
    unfold State.live State.sound
    decide +kernel⟩

theorem witness_ClocksAndCap_thermal : ∃ (s : State) (temps : List Int), s.sound ∧ s.hw.boot.inReset = false ∧ (s.fld
    Reg.PWR.THERM_CFG 23 16 : Int) ≤ (hottest ((temps ++ s.hw.pwr.temps.drop temps.length).take 48)).1 ∧ (hottest
    s.hw.pwr.temps).1 ≤ (s.fld Reg.PWR.THERM_CFG 7 0 : Int) ∧ s.bit Reg.PWR.PWR_STATUS 5 = false :=
⟨State.reset, [112], by
    unfold State.sound
    decide +kernel⟩

theorem witness_ClocksAndCap_thermalHeld : ∃ (s : State), s.sound ∧ s.hw.boot.inReset = true :=
⟨small (.boot fun b => { b with inReset := true }), by
    unfold State.sound
    decide +kernel⟩

theorem witness_PowerStatesAndMemory_report : ∃ (s : State), s.live ∧ s.bit Reg.PWR.PWR_CTRL 3 = true ∧ s.fld
    Reg.TSC.TSC_STATUS 3 2 = 1 :=
⟨small (.all [.wrN Reg.PWR.PWR_CTRL 0x4A, .wrN Reg.TSC.TSC_STATUS 4]), by
    unfold State.live State.sound
    decide +kernel⟩

theorem witness_PowerStatesAndMemory_allocate : ∃ (s : State) (l : List PowerReport), s.live ∧ s.bit Reg.PWR.PWR_CTRL 3 =
    true ∧ s.fld Reg.TSC.TSC_STATUS 3 2 = 2 ∧ (∀ r ∈ l, r.dev.toNat ≠ s.devNum) ∧ s.fld Reg.PWR.GRP_CFG 11 0 < sumNat (l.map
    fun r => r.floor.toNat) :=
⟨small (.all [.wrN Reg.PWR.PWR_CTRL 0x4A, .wrN Reg.PWR.GRP_CFG 100, .wrN Reg.TSC.TSC_STATUS 8]),
    [{ dev := 7, need := 80, floor := 51, urgency := 2, capW := 300 },
    { dev := 3, need := 80, floor := 50, urgency := 1, capW := 300 }], by
    unfold State.live State.sound
    decide +kernel⟩

theorem witness_PowerStatesAndMemory_timeout : ∃ (s : State), s.live ∧ s.bit Reg.PWR.GRP_STATUS 24 = true ∧ s.hw.pwr.allocAt
    + 3000000 ≤ s.now :=
⟨small (.all [.wrN Reg.PWR.GRP_STATUS 0x1000000, .upd (.tsc 3000000)]), by
    unfold State.live State.sound
    decide +kernel⟩

theorem witness_PowerStatesAndMemory_noTimeout : ∃ (s : State), s.live ∧ s.now < s.hw.pwr.allocAt + 3000000 :=
⟨small (.all [.wrN Reg.PWR.GRP_STATUS 0x1000000, .upd (.tsc 2999999)]), by
    unfold State.live State.sound
    decide +kernel⟩

theorem witness_PowerStatesAndMemory_idle : ∃ (s : State), s.live ∧ s.hw.disp.cmds = [] ∧ s.fld Reg.PWR.PWR_STATUS 2 0 = 0 ∧
    (∀ p : Nat, p < 36 → s.power .ENG p ≠ 0) :=
⟨small (.all ((List.range 36).map fun p => .setFld (Reg.HDR.STATUS .ENG p) 4 3 1)), by
    unfold State.live State.sound
    decide +kernel⟩

theorem witness_PowerStatesAndMemory_gate : ∃ (s : State) (slot : BitVec 14), s.live ∧ pageAt slot.toNat = some (.ENG, 35) ∧
    s.blockBusy .ENG 35 = false ∧ s.power .ENG 35 = 0 :=
⟨small (.setFld (Reg.HDR.STATUS .ENG 35) 4 3 0), 163, by
    unfold State.live State.sound
    decide +kernel⟩

theorem witness_PowerStatesAndMemory_retain : ∃ (s : State) (p : Fin 36), s.live ∧ s.blockBusy .ENG p = false ∧ s.reserved p
    = false ∧ s.engState p = eIDLE ∧ (s.eng p).idleSince + s.fld Reg.PWR.RET_US 15 0 * 1000 ≤ s.now :=
⟨small (.all [.wrN (Reg.ENG.ENG_STATE 35) 1, .upd (.tsc 5000000000)]), 35, by
    unfold State.live State.sound
    decide +kernel⟩

theorem witness_PowerStatesAndMemory_retainSpare : ∃ (s : State) (p : Fin 36), s.live ∧ s.blockBusy .ENG p = false ∧
    s.reserved p = false ∧ s.engState p = eSPARE :=
⟨small (.wrN (Reg.ENG.ENG_STATE 35) 6), 35, by
    unfold State.live State.sound
    decide +kernel⟩

theorem witness_PowerStatesAndMemory_retainFce : ∃ (s : State) (i : Fin 4), s.live ∧ s.blockBusy .FCE i = false ∧ (s.fce
    i).idleSince + s.fld Reg.PWR.RET_US 15 0 * 1000 ≤ s.now :=
⟨small (.upd (.tsc 100000)), 3, by
    unfold State.live State.sound
    decide +kernel⟩

theorem witness_PowerStatesAndMemory_memc : ∃ (s : State) (m : Fin 8), s.live ∧ s.hw.memc.length = 8 ∧ s.fld
    (Reg.MEMC.MEMC_STATUS m) 3 1 ≠ 2 ∧ s.bit (Reg.MEMC.MEMC_CTRL m) 1 = true ∧ s.memcState m = 1 :=
⟨small (.wrN (Reg.MEMC.MEMC_STATUS 7) 2), 7, by
    unfold State.live State.sound
    decide +kernel⟩

theorem witness_PowerStatesAndMemory_scrub : ∃ (s : State) (m : Fin 8), s.live ∧ s.bit (Reg.MEMC.MEMC_CTRL m) 0 = true ∧ s.rd
    (Reg.MEMC.INJECT m) = 0 :=
⟨State.reset, 7, by
    unfold State.live State.sound
    decide +kernel⟩

theorem witness_PowerStatesAndMemory_scrubOff : ∃ (s : State) (m : Fin 8), s.live ∧ s.bit (Reg.MEMC.MEMC_CTRL m) 0 = false :=
⟨small (.wrN (Reg.MEMC.MEMC_CTRL 7) 0), 7, by
    unfold State.live State.sound
    decide +kernel⟩

theorem witness_SleepAndWake_deep : ∃ (s : State) (v : Word), s.live ∧ s.accepts 0 Reg.PWR.DEV_CMD (setBits v 3 0 2) = true ∧
    s.hw.darn.run = none ∧ s.sleepReason true true false = 0 :=
⟨State.reset, 0x5A3C0000, by
    unfold State.live State.sound
    decide +kernel⟩

theorem witness_SleepAndWake_standby : ∃ (s : State) (v : Word), s.live ∧ s.accepts 0 Reg.PWR.DEV_CMD (setBits v 3 0 1) =
    true ∧ s.hw.darn.run = none ∧ s.sleepReason false false false = 0 :=
⟨State.reset, 0x5A3C0000, by
    unfold State.live State.sound
    decide +kernel⟩

theorem witness_SleepAndWake_refused : ∃ (s : State) (v : Word), s.live ∧ s.accepts 0 Reg.PWR.DEV_CMD (setBits v 3 0 2) =
    true ∧ s.hw.darn.run = none ∧ s.sleepReason true true true ≠ 0 :=
⟨State.reset, 0x5A3C0000, by
    unfold State.live State.sound
    decide +kernel⟩

theorem witness_SleepAndWake_deferred : ∃ (s : State) (v : Word), s.live ∧ s.accepts 0 Reg.PWR.DEV_CMD (setBits v 3 0 1) =
    true ∧ s.hw.darn.run ≠ none :=
⟨small (.hw fun h => { h with darn := { h.darn with run := some { kind := 0, inst := 0, unit := 3, cause := 0 } } }),
    0x5A3C0000, by
    unfold State.live State.sound
    decide +kernel⟩

theorem witness_SleepAndWake_timer : ∃ (s : State), s.live ∧ s.bit Reg.PWR.WAKE_CFG 2 = true ∧ s.rd64 Reg.PWR.WAKE_TSC_LO
    Reg.PWR.WAKE_TSC_HI ≤ s.now ∧ s.fld Reg.PWR.PWR_STATUS 2 0 = 3 :=
⟨small (.all [.wrN Reg.PWR.PWR_STATUS 3, .wrN Reg.PWR.WAKE_CFG 7, .wrN Reg.PWR.WAKE_TSC_LO 9, .upd (.tsc 9)]), by
    unfold State.live State.sound
    decide +kernel⟩

theorem witness_SleepAndWake_wake : ∃ (s : State) (v : Word), s.live ∧ s.accepts 0 Reg.PWR.DEV_CMD (setBits v 3 0 3) = true ∧
    s.fld Reg.PWR.PWR_STATUS 2 0 = 2 :=
⟨small (.wrN Reg.PWR.PWR_STATUS 2), 0x5A3C0000, by
    unfold State.live State.sound
    decide +kernel⟩

theorem witness_SleepAndWake_link : ∃ (s : State), s.live ∧ s.bit Reg.PWR.WAKE_CFG 0 = true ∧ s.fld Reg.PWR.PWR_STATUS 2 0 =
    2 :=
⟨small (.all [.wrN Reg.PWR.PWR_STATUS 2, .wrN Reg.PWR.WAKE_CFG 1]), by
    unfold State.live State.sound
    decide +kernel⟩

theorem witness_SleepAndWake_asleep : ∃ (s : State), s.live ∧ s.bit Reg.PWR.WAKE_CFG 0 = false ∧ s.now < s.rd64
    Reg.PWR.WAKE_TSC_LO Reg.PWR.WAKE_TSC_HI :=
⟨small (.all [.wrN Reg.PWR.PWR_STATUS 3, .wrN Reg.PWR.WAKE_CFG 4, .wrN Reg.PWR.WAKE_TSC_LO 9, .upd (.tsc 8)]), by
    unfold State.live State.sound
    decide +kernel⟩

theorem witness_Darning_queue : ∃ (s : State) (v : Word), s.live ∧ s.accepts 0 Reg.DARN.DARN_CMD (setBits v 3 0 1) = true :=
⟨State.reset, 0x00030010, by
    unfold State.live State.sound
    decide +kernel⟩

theorem witness_Darning_repeat : ∃ (s : State) (v : Word) (x : DarnOp), s.live ∧ s.accepts 0 Reg.DARN.DARN_CMD (setBits v 3 0
    2) = true ∧ (s.pendingOp.map fun y => (y.kind, y.inst, y.unit)) = some (1, 0, 3) ∧ (1 ≤ bits v 7 4 ∧ bits v 7 4 ≤ 7) ∧
    s.darnKnown x = false ∧ s.hw.darn.queue.length < 16 :=
⟨small (.wrN Reg.DARN.PENDING 0x00030003), 0x00030010, { kind := 1, inst := 0, unit := 3, cause := 2 }, by
    unfold State.live State.sound
    decide +kernel⟩

theorem witness_Darning_unfail : ∃ (s : State) (v : Word), s.live ∧ s.accepts 0 Reg.DARN.DARN_CMD (setBits v 3 0 3) = true ∧
    bits v 7 4 = 1 ∧ bits v 31 16 < 36 ∧ s.isFailed (bits v 31 16) = true :=
⟨small (.wrN Reg.DARN.FAILED_ENG_HI 8), 0x00230010, by
    unfold State.live State.sound
    decide +kernel⟩

theorem witness_Darning_unfailNot : ∃ (s : State) (v : Word), s.live ∧ s.accepts 0 Reg.DARN.DARN_CMD (setBits v 3 0 3) = true
    ∧ 36 ≤ bits v 31 16 :=
⟨small (.wrN Reg.DARN.FAILED_ENG_HI 8), 0x00240010, by
    unfold State.live State.sound
    decide +kernel⟩

theorem witness_Darning_clear : ∃ (s : State) (v : Word), s.live ∧ s.accepts 0 Reg.DARN.DARN_CMD (setBits v 3 0 4) = true ∧
    s.pendingOp ≠ none ∧ (1 ≤ bits v 7 4 ∧ bits v 7 4 ≤ 7) ∧ s.hw.darn.run = none :=
⟨small (.wrN Reg.DARN.PENDING 0x00030003), 0x00030010, by
    unfold State.live State.sound
    decide +kernel⟩

theorem witness_Darning_clearNone : ∃ (s : State) (v : Word), s.live ∧ s.accepts 0 Reg.DARN.DARN_CMD (setBits v 3 0 4) = true
    ∧ s.pendingOp = none :=
⟨State.reset, 0x00030010, by
    unfold State.live State.sound
    decide +kernel⟩

theorem witness_Darning_start : ∃ (s : State) (op : DarnOp) (q : Nat), s.live ∧ s.hw.darn.run = none ∧ s.hw.boot.frozen =
    false ∧ op.kind = 1 ∧ leastBy (fun a b => decide (s.darnRank a < s.darnRank b)) (s.hw.darn.queue.filter s.darnReady) =
    some op ∧ s.spareFor op.unit = some q :=
⟨small (.darn fun d =>
    { d with queue := [{ kind := 1, inst := 0, unit := 35, cause := 2 }, { kind := 1, inst := 0, unit := 3, cause := 0 }] }),
    { kind := 1, inst := 0, unit := 3, cause := 0 }, 8, by
    unfold State.live State.sound
    decide +kernel⟩

theorem witness_Darning_noSpare : ∃ (s : State) (op : DarnOp), s.live ∧ s.hw.darn.run = none ∧ s.hw.boot.frozen = false ∧
    op.kind = 1 ∧ leastBy (fun a b => decide (s.darnRank a < s.darnRank b)) (s.hw.darn.queue.filter s.darnReady) = some op ∧
    s.spareFor op.unit = none :=
⟨small (.all [.wrN Reg.DARN.SPARE_ENG_LO 0, .wrN Reg.DARN.SPARE_ENG_HI 0, .darn fun d =>
    { d with queue := [{ kind := 1, inst := 0, unit := 35, cause := 0 }] }]),
    { kind := 1, inst := 0, unit := 35, cause := 0 }, by
    unfold State.live State.sound
    decide +kernel⟩

theorem witness_Darning_testPass : ∃ (s : State) (op : DarnOp), s.live ∧ s.hw.darn.run = some op ∧ op.kind = 1 ∧
    s.hw.darn.stage = 1 ∧ s.hw.darn.spare < 36 :=
⟨small (.darn fun d =>
    { d with run := some { kind := 1, inst := 0, unit := 34, cause := 2, spare := some 35 }, spare := 35, stage := 1 }),
    { kind := 1, inst := 0, unit := 34, cause := 2, spare := some 35 }, by
    unfold State.live State.sound
    decide +kernel⟩

theorem witness_Darning_switch : ∃ (s : State) (op : DarnOp), s.live ∧ s.hw.darn.run = some op ∧ op.kind = 1 ∧
    s.hw.darn.stage = 2 ∧ (s.eng op.unit).cmd = none :=
⟨small (.darn fun d =>
    { d with run := some { kind := 1, inst := 0, unit := 34, cause := 2, spare := some 35 }, spare := 35, stage := 2 }),
    { kind := 1, inst := 0, unit := 34, cause := 2, spare := some 35 }, by
    unfold State.live State.sound
    decide +kernel⟩

theorem witness_Darning_switchBusy : ∃ (s : State) (op : DarnOp), s.live ∧ s.hw.darn.run = some op ∧ op.kind = 1 ∧
    s.hw.darn.stage = 2 ∧ (s.eng op.unit).cmd ≠ none :=
⟨small (.all [.darn fun d =>
    { d with run := some { kind := 1, inst := 0, unit := 34, cause := 2, spare := some 35 }, spare := 35, stage := 2 }, .eng
    34 fun e => { e with cmd := some 5 }]), { kind := 1, inst := 0, unit := 34, cause := 2, spare := some 35 }, by
    unfold State.live State.sound
    decide +kernel⟩

theorem witness_Darning_commit : ∃ (s : State) (op : DarnOp), s.live ∧ s.hw.darn.run = some op ∧ s.hw.darn.stage = 3 ∧
    s.mapReady op = true ∧ s.hw.boot.frozen = false :=
⟨small (.darn fun d =>
    { d with run := some { kind := 1, inst := 0, unit := 34, cause := 0, spare := some 35 }, spare := 35, stage := 3 }),
    { kind := 1, inst := 0, unit := 34, cause := 0, spare := some 35 }, by
    unfold State.live State.sound
    decide +kernel⟩

theorem witness_Darning_commitEarly : ∃ (s : State) (op : DarnOp), s.live ∧ s.hw.darn.run = some op ∧ s.hw.darn.stage ≠ 3 :=
⟨small (.darn fun d =>
    { d with run := some { kind := 1, inst := 0, unit := 34, cause := 0, spare := some 35 }, spare := 35, stage := 2 }),
    { kind := 1, inst := 0, unit := 34, cause := 0, spare := some 35 }, by
    unfold State.live State.sound
    decide +kernel⟩

theorem witness_Darning_wear : ∃ (s : State) (x : DarnTarget) (op : DarnOp), s.live ∧ x.kind.toNat ≠ 3 ∧ x.kind.toNat ≠ 4 ∧
    s.inService op = true ∧ (s.hw.darn.wear.find? fun y => y.1 == (x.kind.toNat, x.inst.toNat, x.unit.toNat)) = none :=
⟨small (.wrN Reg.DARN.DARN_CTRL 7), { kind := 1, inst := 0, unit := 34 }, { kind := 1, inst := 0, unit := 34, cause := 1 },
    by
    unfold State.live State.sound
    decide +kernel⟩

theorem witness_Darning_wearOut : ∃ (s : State) (x : DarnTarget) (op : DarnOp), s.live ∧ x.kind.toNat ≠ 3 ∧ x.kind.toNat ≠ 4
    ∧ s.inService op = false :=
⟨State.reset, { kind := 1, inst := 0, unit := 35 }, { kind := 1, inst := 0, unit := 35, cause := 1 }, by
    unfold State.live State.sound
    decide +kernel⟩

theorem witness_ResetsAndPowerLoss_taken : ∃ (s : State), s.sound ∧ s.hw.boot.pinLow = false ∧ s.hw.boot.inReset = false :=
⟨small (.all [.wrN Reg.AON.RST_COUNT 0xFFFFFFFF, .wrN Reg.PWR.FLOORS 7]), by
    unfold State.sound
    decide +kernel⟩

theorem witness_ResetsAndPowerLoss_heldLong : ∃ (s : State), s.sound ∧ s.hw.boot.pinLow = true ∧ s.hw.boot.lowAt + 1000000000
    < s.now :=
⟨small (.all [.boot fun b => { b with inReset := true, pinLow := true }, .upd (.tsc 1000000001)]), by
    unfold State.sound
    decide +kernel⟩

theorem witness_ResetsAndPowerLoss_heldShort : ∃ (s : State), s.sound ∧ s.now ≤ s.hw.boot.lowAt + 1000000000 ∨
    s.hw.boot.pinLow = false :=
⟨small (.all [.boot fun b => { b with inReset := true, pinLow := true }, .upd (.tsc 1000000000)]), by
    unfold State.sound
    decide +kernel⟩

theorem witness_ResetsAndPowerLoss_release : ∃ (s : State), s.sound ∧ s.hw.boot.pinLow = true ∧ s.hw.boot.thermal = false ∧
    s.hw.pwr.coreOn = true ∧ s.hw.boot.pfLow = false :=
⟨small (.all [.boot fun b => { b with inReset := true, pinLow := true }, .upd (.tsc 1999999), .pwr fun p =>
    { p with coreOn := true }]), by
    unfold State.sound
    decide +kernel⟩

theorem witness_ResetsAndPowerLoss_soft : ∃ (s : State) (v : Word), s.live ∧ s.accepts 0 Reg.AON.RST_CMD (setBits v 3 0 1) =
    true ∧ s.hw.boot.pinLow = false ∧ s.hw.boot.returned = none ∧ s.hw.pwr.coreOn = true :=
⟨small (.pwr fun p => { p with coreOn := true }), 0x5A3C0000, by
    unfold State.live State.sound
    decide +kernel⟩

theorem witness_ResetsAndPowerLoss_fall : ∃ (s : State), s.live ∧ s.hw.boot.pfLow = false ∧ s.safeState ≠ sOFF :=
⟨small (.all [safeIn sRUN, .upd (.tsc 0x100000002)]), by
    unfold State.live State.sound
    decide +kernel⟩

theorem witness_ResetsAndPowerLoss_fallAgain : ∃ (s : State), s.sound ∧ s.hw.boot.pfLow = true :=
⟨small (.boot fun b => { b with pfLow := true }), by
    unfold State.sound
    decide +kernel⟩

theorem witness_ResetsAndPowerLoss_rise : ∃ (s : State) (railsOk : Bool), s.sound ∧ s.hw.boot.pfLow = true ∧ railsOk = true ∧
    s.hw.pwr.coreOn = true ∧ s.hw.boot.railLost = false :=
⟨small (.all [.boot fun b => { b with pfLow := true, frozen := true }, .pwr fun p => { p with coreOn := true }]), true, by
    unfold State.sound
    decide +kernel⟩

theorem witness_ResetsAndPowerLoss_brownout : ∃ (s : State) (t0 : Nat), s.live ∧ s.hw.boot.returned = some t0 ∧ t0 + 10000000
    ≤ s.now ∧ s.hw.boot.inReset = false :=
⟨small (.all [.boot fun b => { b with returned := some 0, frozen := true }, .pwr fun p => { p with coreOn := true }, .upd
    (.tsc 10000000)]), 0, by
    unfold State.live State.sound
    decide +kernel⟩

theorem witness_ResetsAndPowerLoss_brownoutEarly : ∃ (s : State) (t0 : Nat), s.live ∧ s.hw.boot.returned = some t0 ∧ s.now <
    t0 + 10000000 :=
⟨small (.all [.boot fun b => { b with returned := some 0, frozen := true }, .upd (.tsc 9999999)]), 0, by
    unfold State.live State.sound
    decide +kernel⟩

theorem witness_BootAndLink_image : ∃ (s : State) (slotB : Bool) (x : BootImage), s.live ∧ s.stage = bAUTH ∧ s.hw.boot.frozen
    = false ∧ slotB = s.hw.boot.triedA ∧ s.imageError x = 0 :=
⟨small (.all [.wrN Reg.AON.BOOT_STATUS bAUTH, .boot fun b => { b with triedA := true }, .wrN Reg.AON.FUSE_ROLLBACK 63]),
    true,
    { magic := 0x36394249, format := 1, keyIdx := 3, resv := 0, rollback := 63, length := 0x003FFF00, checks := ⟨true, true, true, true⟩ },
    by
    unfold State.live State.sound
    decide +kernel⟩

theorem witness_BootAndLink_imageBad : ∃ (s : State) (slotB : Bool) (x : BootImage), s.live ∧ s.stage = bAUTH ∧
    s.hw.boot.frozen = false ∧ slotB = s.hw.boot.triedA ∧ s.imageError x = 5 :=
⟨small (.all [.wrN Reg.AON.BOOT_STATUS bAUTH, .wrN Reg.AON.FUSE_ROLLBACK 63]), false,
    { magic := 0x36394249, format := 1, keyIdx := 3, resv := 0, rollback := 62, length := 1, checks := ⟨true, true, true, true⟩ },
    by
    unfold State.live State.sound
    decide +kernel⟩

theorem witness_BootAndLink_imageBadB : ∃ (s : State) (slotB : Bool) (x : BootImage), s.live ∧ s.stage = bAUTH ∧
    s.hw.boot.frozen = false ∧ slotB = s.hw.boot.triedA ∧ s.imageError x = 1 :=
⟨small (.all [.wrN Reg.AON.BOOT_STATUS bAUTH, .boot fun b => { b with triedA := true }]), true,
    { magic := 0x36394248, format := 1, keyIdx := 3, resv := 0, rollback := 62, length := 1, checks := ⟨true, true, true, true⟩ },
    by
    unfold State.live State.sound
    decide +kernel⟩

theorem witness_BootAndLink_host : ∃ (s : State) (v : Word) (c : ImageChecks), s.live ∧ s.accepts 0 Reg.AON.BOOT_CMD (setBits
    v 3 0 1) = true ∧ bits v 31 16 = 0x5A3C ∧ s.stage = bRECOVERY ∧ s.hw.boot.frozen = false ∧ s.imageError (s.hostImage c) =
    0 :=
⟨small (.all [.wrN Reg.AON.BOOT_STATUS bRECOVERY, .mem 0 4 0x36394249, .mem 4 2 1, .mem 8 4 63, .mem 12 4 0x003FFF00]),
    0x5A3C0000, ⟨true, true, true, true⟩, by
    unfold State.live State.sound
    decide +kernel⟩

theorem witness_BootAndLink_hostBad : ∃ (s : State) (v : Word) (c : ImageChecks), s.live ∧ s.accepts 0 Reg.AON.BOOT_CMD
    (setBits v 3 0 1) = true ∧ bits v 31 16 = 0x5A3C ∧ s.stage = bRECOVERY ∧ s.hw.boot.frozen = false ∧ s.imageError
    (s.hostImage c) ≠ 0 :=
⟨small (.all [.wrN Reg.AON.BOOT_STATUS bRECOVERY, .mem 0 4 0x36394249, .mem 4 2 1, .mem 8 4 63, .mem 12 4 0x003FFF01]),
    0x5A3C0000, ⟨true, true, true, true⟩, by
    unfold State.live State.sound
    decide +kernel⟩

theorem witness_BootAndLink_rollback : ∃ (s : State) (v : Word), s.live ∧ s.accepts 0 Reg.AON.BOOT_CMD (setBits v 3 0 2) =
    true ∧ bits v 31 16 = 0x5A3C ∧ s.stage = bREADY :=
⟨small (.all [.wrN Reg.AON.BOOT_STATUS (0x3E0000 + 5), .wrN Reg.AON.FUSE_ROLLBACK 63]), 0x5A3C0000, by
    unfold State.live State.sound
    decide +kernel⟩

theorem witness_BootAndLink_rollbackNot : ∃ (s : State) (v : Word), s.live ∧ s.accepts 0 Reg.AON.BOOT_CMD (setBits v 3 0 2) =
    true ∧ bits v 31 16 = 0x5A3C ∧ s.stage ≠ bREADY :=
⟨small (.wrN Reg.AON.BOOT_STATUS (0x3E0000 + bRECOVERY)), 0x5A3C0000, by
    unfold State.live State.sound
    decide +kernel⟩

theorem witness_BootAndLink_tests : ∃ (s : State) (r : StartupResult), s.live ∧ s.stage = bTESTS ∧ s.hw.boot.frozen = false ∧
    startFailed r = false ∧ startFails r ≠ 0 :=
⟨small (.wrN Reg.AON.BOOT_STATUS bTESTS),
    { mapLost := false, sramRows := [], noSpare := false, dramRows := [], untrained := 0, engines := 0, fces := 0, afes := [], firstUnit := 0, blocks := [325] },
    by
    unfold State.live State.sound
    decide +kernel⟩

theorem witness_BootAndLink_testsFail : ∃ (s : State) (r : StartupResult), s.live ∧ s.stage = bTESTS ∧ s.hw.boot.frozen =
    false ∧ startFailed r = true :=
⟨small (.wrN Reg.AON.BOOT_STATUS bTESTS),
    { mapLost := false, sramRows := [], noSpare := false, dramRows := [], untrained := 0x80, engines := 0, fces := 0, afes := [], firstUnit := 0, blocks := [] },
    by
    unfold State.live State.sound
    decide +kernel⟩

theorem witness_BootAndLink_pcieReset : ∃ (s : State), s.live ∧ s.bit Reg.HOST.LINK_STATUS 16 = true :=
⟨small (.wrN Reg.HOST.LINK_STATUS 0x10002), by
    unfold State.live State.sound
    decide +kernel⟩

theorem witness_BootAndLink_change : ∃ (s : State) (rate : BitVec 3) (width : BitVec 4), s.live ∧ s.bit Reg.HOST.LINK_STATUS
    16 = true ∧ rate.toNat ≠ s.fld Reg.HOST.LINK_STATUS 2 0 ∧ width.toNat ≠ s.fld Reg.HOST.LINK_STATUS 7 4 :=
⟨small (.wrN Reg.HOST.LINK_STATUS 0x10012), 7, 15, by
    unfold State.live State.sound
    decide +kernel⟩

theorem witness_Pins_write : ∃ (s : State) (v : Word), s.live ∧ s.hw.pin.cfg.length = 128 ∧ s.accepts 0 Reg.PIN.MUX_CFG v =
    true ∧ s.muxReason (s.fld Reg.PIN.MUX_SEL 6 0) v = 0 :=
⟨small (.wrN Reg.PIN.MUX_SEL 47), 0xF0000002, by
    unfold State.live State.sound
    decide +kernel⟩

theorem witness_Pins_letGo : ∃ (s : State) (v : Word), s.live ∧ s.hw.pin.cfg.length = 128 ∧ s.accepts 0 Reg.PIN.MUX_CFG v =
    true ∧ s.muxReason (s.fld Reg.PIN.MUX_SEL 6 0) v = 0 :=
⟨small (.all [.wrN Reg.PIN.MUX_SEL 47, .pin fun x => { x with cfg := updAt (fun _ => 2) 47 x.cfg }]), 0, by
    unfold State.live State.sound
    decide +kernel⟩

theorem witness_Pins_refused : ∃ (s : State) (v : Word), s.live ∧ s.hw.pin.cfg.length = 128 ∧ s.accepts 0 Reg.PIN.MUX_CFG v =
    true ∧ s.muxReason (s.fld Reg.PIN.MUX_SEL 6 0) v ≠ 0 :=
⟨small (.wrN Reg.PIN.MUX_SEL 127), 1, by
    unfold State.live State.sound
    decide +kernel⟩

theorem witness_Pins_attach : ∃ (s : State) (b : BitVec 7), s.live ∧ s.switching b.toNat = true ∧ muxFunc (s.muxCfg b.toNat)
    = 2 :=
⟨small (.all [.pin fun x => { x with cfg := updAt (fun _ => 2) 32 x.cfg, held := [(32, 1)] }, .wrN Reg.PIN.GPIO_OUT_HI 1]),
    32, by
    unfold State.live State.sound
    decide +kernel⟩

theorem witness_Pins_attachIn : ∃ (s : State) (b : BitVec 7), s.live ∧ s.switching b.toNat = true ∧ muxFunc (s.muxCfg
    b.toNat) ≠ 2 ∧ muxFunc (s.muxCfg b.toNat) ≠ 5 :=
⟨small (.all [.pin fun x => { x with cfg := updAt (fun _ => 0x8001) 32 x.cfg, held := [(32, 2)] }]), 32, by
    unfold State.live State.sound
    decide +kernel⟩

theorem witness_Pins_attachPgen : ∃ (s : State) (b : BitVec 7), s.live ∧ s.switching b.toNat = true ∧ muxFunc (s.muxCfg
    b.toNat) = 5 :=
⟨small (.all [.pin fun x => { x with held := [(79, 4)] }, .wrN (Reg.PGEN.OUT_EN 0) 0xC000, .pgen 0 fun x =>
    { x with level := 0xFFFF }]), 79, by
    unfold State.live State.sound
    decide +kernel⟩

theorem witness_Pins_attachNone : ∃ (s : State) (b : BitVec 7), s.live ∧ s.switching b.toNat = false :=
⟨State.reset, 127, by
    unfold State.live State.sound
    decide +kernel⟩

theorem witness_Pins_accept : ∃ (s : State) (b : BitVec 7) (level : Bool), s.live ∧ s.ballFunc b.toNat = 1 ∧
    s.hw.pin.level.getLsbD b.toNat ≠ level ∧ (s.muxCfg b.toNat).getLsbD (if (level != (s.muxCfg b.toNat).getLsbD 15) then 12
    else 13) = true :=
⟨small (.pin fun x => { x with cfg := updAt (fun _ => 0x1001) 47 x.cfg }), 47, true, by
    unfold State.live State.sound
    decide +kernel⟩

theorem witness_Pins_acceptSame : ∃ (s : State) (b : BitVec 7) (level : Bool), s.live ∧ s.hw.pin.level.getLsbD b.toNat =
    level :=
⟨State.reset, 127, false, by
    unfold State.live State.sound
    decide +kernel⟩

theorem witness_TscLoad_later : ∃ (s : State) (v : Word), s.live ∧ s.accepts 0 Reg.TSC.TSC_CMD (v ||| 1) = true ∧ s.tsc.toNat
    ≤ s.rd64 Reg.TSC.TSC_SET_LO Reg.TSC.TSC_SET_HI :=
⟨small (.all [.wrN Reg.TSC.TSC_SET_HI 1, .upd (.tsc 0x100000000)]), 1, by
    unfold State.live State.sound
    decide +kernel⟩

theorem witness_TscLoad_earlier : ∃ (s : State) (v : Word), s.live ∧ s.accepts 0 Reg.TSC.TSC_CMD (v ||| 1) = true ∧ s.rd64
    Reg.TSC.TSC_SET_LO Reg.TSC.TSC_SET_HI < s.tsc.toNat :=
⟨small (.all [.wrN Reg.TSC.TSC_SET_HI 1, .upd (.tsc 0x100000001)]), 1, by
    unfold State.live State.sound
    decide +kernel⟩

theorem witness_HoldResetAndFuse_held : ∃ (s : State), s.sound ∧ s.hw.boot.pinLow = true ∧ s.hw.boot.lowAt + 1000000000 <
    s.now :=
⟨small (.all [.boot fun b => { b with inReset := true, pinLow := true }, .upd (.tsc 1000000001)]), by
    unfold State.sound
    decide +kernel⟩

theorem witness_HoldResetAndFuse_release : ∃ (s : State), s.sound ∧ s.hw.boot.pinLow = true ∧ s.hw.boot.thermal = false ∧
    s.hw.pwr.coreOn = true ∧ s.hw.boot.pfLow = false ∧ s.bit Reg.AON.RST_FLAGS 0 = true :=
⟨small (.all [.boot fun b => { b with inReset := true, pinLow := true }, .pwr fun p => { p with coreOn := true }, .wrN
    Reg.AON.RST_FLAGS 1, .upd (.tsc 1000000001)]), by
    unfold State.sound
    decide +kernel⟩

theorem witness_HoldResetAndFuse_command : ∃ (s : State) (v : Word), s.live ∧ s.accepts 0 Reg.AON.RST_CMD (setBits v 3 0 1) =
    true ∧ bits v 31 16 = 0x5A3C ∧ s.hw.boot.pinLow = false ∧ s.hw.boot.returned = none ∧ s.hw.boot.pfLow = false ∧
    s.hw.boot.railLost = false ∧ s.hw.pwr.coreOn = false :=
⟨small (.wrN Reg.PWR.FLOORS 7), 0x5A3C0000, by
    unfold State.live State.sound
    decide +kernel⟩

theorem witness_HoldResetAndFuse_ignored : ∃ (s : State) (v : Word), s.live ∧ s.accepts 0 Reg.AON.RST_CMD (setBits v 3 0 1) =
    true ∧ s.hw.boot.pinLow = true :=
⟨small (.boot fun b => { b with pinLow := true }), 0x5A3C0000, by
    unfold State.live State.sound
    decide +kernel⟩

theorem witness_HoldResetAndFuse_badKey : ∃ (s : State) (v : Word), s.live ∧ bits v 31 16 ≠ 0x5A3C ∧ s.bit (Reg.HDR.ACC_ERR
    .AON 0) 24 = false :=
⟨State.reset, 0x5A3D0001, by
    unfold State.live State.sound
    decide +kernel⟩

theorem witness_HoldResetAndFuse_fuse : ∃ (s : State) (v : Word), s.live ∧ s.accepts 0 Reg.AON.BOOT_CMD (setBits v 3 0 2) =
    true ∧ bits v 31 16 = 0x5A3C ∧ s.stage = bREADY ∧ s.fld Reg.AON.FUSE_ROLLBACK 5 0 ≤ s.fld Reg.AON.BOOT_STATUS 21 16 :=
⟨small (.wrN Reg.AON.BOOT_STATUS (0x3F0000 + 5)), 0x5A3C0000, by
    unfold State.live State.sound
    decide +kernel⟩

end Sys2Proof.Tests
end

/-! ## Proofs: the organisation of the device (01_organisation)

The receipt of a unit (O17), the arrival of a unit over a link (O18) and TSC_LOAD (O59). -/

namespace Sys2Proof.Machine

/-! ### Registers of the page header -/

/-- A populated slot names a page its block has (R689). -/
theorem lt_count_of_pageAt {slot i : Nat} {b : Blk} (h : pageAt slot = some (b, i)) : i < b.count := by
  obtain ⟨c, hc, he⟩ := Option.map_eq_some_iff.1 h
  have hr := List.find?_some hc
  obtain ⟨rfl, rfl⟩ := Prod.mk.inj he
  simp only [decide_eq_true_eq] at hr
  omega

theorem mask_errStatus {b : Blk} {i : Nat} (h : i < b.count) : RegRef.mask (Reg.HDR.ERR_STATUS b i) = 0xFFFFFF7F := by
  simp [RegRef.mask, RegRef.row, rowAt, h, headerRows, RegRow.holds]

theorem mask_irqPend {b : Blk} {i : Nat} (h : i < b.count) : RegRef.mask (Reg.HDR.IRQ_PEND b i) = 0xFFFFFFFF := by
  simp [RegRef.mask, RegRef.row, rowAt, h, headerRows, RegRow.holds]

/-! ### Single bits -/

/-- Bit `j` of the word with bit `k` alone. -/
theorem getLsbD_ofNat_two_pow {n k j : Nat} : (BitVec.ofNat n (2 ^ k)).getLsbD j = (decide (j < n) && decide (k = j)) := by
  rw [BitVec.getLsbD_ofNat, Nat.testBit_two_pow]

/-- A bit set reads 1. -/
theorem getLsbD_putBit_same {n i : Nat} (w : BitVec n) (h : i < n) : (putBit w i true).getLsbD i = true := by
  rw [putBit, if_pos rfl, BitVec.getLsbD_or, getLsbD_ofNat_two_pow]
  simp [h]

/-! ### What recording an error, counting and raising a source leave behind -/

/-- A bit that exists reads as stored. -/
theorem bit_setReg_same {s : State} (hs : keysRise s.regs) {r : RegRef} (v : Word) {k : Nat} (hm : r.mask.getLsbD k = true) :
    (s.setReg r v).bit r k = v.getLsbD k := by
  rw [State.bit, rd_setReg_same hs, BitVec.getLsbD_and, hm, Bool.and_true]

/-- An error recorded shows in the page's ERR_STATUS. -/
theorem bit_err {s : State} (hs : keysRise s.regs) {b : Blk} {i k : Nat}
    (hm : (RegRef.mask (Reg.HDR.ERR_STATUS b i)).getLsbD k = true) :
    ((Act.err b i k).run s).bit (Reg.HDR.ERR_STATUS b i) k = true := by
  have hk : k < 32 := BitVec.lt_of_getLsbD hm
  rw [Act.err, run_orReg, bit_setReg_same hs _ hm, BitVec.getLsbD_or, getLsbD_ofNat_two_pow]
  simp [hk]

/-- An error recorded leaves a field above its bit. -/
theorem fld_err {s : State} (hs : keysRise s.regs) {b : Blk} {i k hi lo : Nat} (hk : k < lo)
    (hm : bits (RegRef.mask (Reg.HDR.ERR_STATUS b i)) hi lo = 2 ^ (hi + 1 - lo) - 1) :
    ((Act.err b i k).run s).fld (Reg.HDR.ERR_STATUS b i) hi lo = s.fld (Reg.HDR.ERR_STATUS b i) hi lo := by
  rw [Act.err, run_orReg, State.fld, rd_setReg_same hs, bits_and_mask _ _ hm, State.fld]
  apply Nat.eq_of_testBit_eq
  intro j
  have hne : k ≠ lo + j := by omega
  rw [testBit_bits, testBit_bits, BitVec.getLsbD_or, getLsbD_ofNat_two_pow]
  simp [hne]

/-- A saturating field that exists whole counts up to its top. -/
theorem fld_satFld {s : State} (hs : keysRise s.regs) {r : RegRef} {hi lo : Nat} (n : Nat) (h : hi < 32)
    (hm : bits r.mask hi lo = 2 ^ (hi + 1 - lo) - 1) :
    ((Act.satFld r hi lo n).run s).fld r hi lo = min (s.fld r hi lo + n) (2 ^ (hi + 1 - lo) - 1) := by
  have hp : 0 < 2 ^ (hi + 1 - lo) := Nat.two_pow_pos _
  simp only [Act.satFld, run_get, run_setFld]
  rw [fld_setFld_same hs r _ h hm, Nat.mod_eq_of_lt (by omega)]

/-- A saturating field's count leaves a bit below it. -/
theorem bit_satFld {s : State} (hs : keysRise s.regs) {r : RegRef} {hi lo n k : Nat} (hk : k < lo)
    (hm : r.mask.getLsbD k = true) : ((Act.satFld r hi lo n).run s).bit r k = s.bit r k := by
  simp only [Act.satFld, run_get, run_setFld]
  rw [bit_setReg_same hs _ hm, getLsbD_setBits, if_neg (by omega), State.bit]

/-- A counter below its top counts one more. -/
theorem rd_bump_one {s : State} (hs : keysRise s.regs) (r : RegRef) (h : (s.rd r).toNat < 4294967295) :
    ((Act.bump r 1).run s).rd r = (s.rd r + 1) &&& r.mask := by
  rw [rd_bump hs r (by omega), BitVec.ofNat_add, BitVec.ofNat_toNat, BitVec.setWidth_eq]; rfl

/-- A source raised is pending in its page (R463). -/
theorem bit_raise {s : State} (hs : keysRise s.regs) {b : Blk} {i k : Nat} (hi : i < b.count) (hk : k < 32) :
    ((Act.raise b i k).run s).bit (Reg.HDR.IRQ_PEND b i) k = true := by
  have hm : (RegRef.mask (Reg.HDR.IRQ_PEND b i)).getLsbD k = true := by
    rw [mask_irqPend hi, show (0xFFFFFFFF : Word) = BitVec.allOnes 32 from rfl, BitVec.getLsbD_allOnes]; simpa using hk
  have hne : (Reg.HDR.IRQ_MASK b i).key ≠ (Reg.HDR.IRQ_PEND b i).key := by simp [RegRef.key]
  calc ((Act.raise b i k).run s).bit (Reg.HDR.IRQ_PEND b i) k
      = ((s.setReg (Reg.HDR.IRQ_PEND b i) (putBit (s.rd (Reg.HDR.IRQ_PEND b i)) k true)).setReg (Reg.HDR.IRQ_MASK b i)
          (s.rd (Reg.HDR.IRQ_MASK b i))).bit (Reg.HDR.IRQ_PEND b i) k := rfl
    _ = (putBit (s.rd (Reg.HDR.IRQ_PEND b i)) k true).getLsbD k := by
        rw [State.bit, rd_setReg_ne _ hne]; exact bit_setReg_same hs _ hm
    _ = true := getLsbD_putBit_same _ hk

/-- A quiet change leaves what waits in the blocks. -/
theorem Quiet.inbox {l : List RegRef} {s t : State} (h : Quiet l s t) : t.hw.inbox = s.hw.inbox := by
  obtain ⟨e, he⟩ := h.hw
  rw [he]

/-! ### A receiver (R43 to R47) -/

/-- R43: a unit whose CRC fails leaves the receiver as it was. -/
theorem receiveUnit_crcBad (st : RxSt) {u : DUnit} (cls : Nat) (auth : Bool) (h : u.crc ≠ u.crcOf) :
    receiveUnit st u cls auth = ⟨[], st, [], true⟩ := if_pos h

/-- R47: a good unit with the counter expected is accepted as it is. -/
theorem receiveUnit_expected {st : RxSt} {u : DUnit} {cls : Nat} {auth : Bool} (hc : u.crc = u.crcOf)
    (hf : headerFaults u cls auth st.closed = []) (he : u.fc = st.e) (hb : u.item ∉ st.broken) :
    ∃ st' : RxSt, receiveUnit st u cls auth = ⟨[u], st', [], false⟩ ∧ st'.e = st.e + 1 := by
  unfold receiveUnit
  rw [if_neg (not_not.2 hc)]
  cases st.last <;> simp [hf, he, hb]

/-- What a receiver found is recorded, its state moves on, and what it accepts goes on. -/
theorem run_receive {s : State} {b : Blk} {i cls : Nat} {u : DUnit} (k : List DUnit → Act) {x : RxResult}
    (hx : receiveUnit (alGet {} (rxKey b i u.stream) s.hw.rx) u cls
      ((u.stream.toNat / 512 == s.devNum && !u.has fREMOTE) && s.authorised (u.stream.toNat % 512)) = x) :
    (Act.receive b i u cls k).run s =
      (k x.units).run (((Act.rxErrs b i x).run s).mapHw fun h => { h with rx := alPut {} (rxKey b i u.stream) x.st h.rx }) := by
  subst hx; rfl

/-- One event for each element of a list. -/
theorem run_each_event {α : Type} (f : α → Event) (l : List α) (s : State) :
    (Act.each l fun x => .event (f x)).run s = s.mapHw fun h => { h with events := h.events ++ l.map f } := by
  induction l generalizing s with
  | nil => simp [State.mapHw]
  | cons x l ih => simp [ih, State.mapHw]

/-- UNIT_RECEIVE: beside what the receiver records, its state, what waits in the block and events change. -/
theorem run_unitReceiveAct {s : State} {slot i : Nat} {b : Blk} {u : DUnit} {x : RxResult} (hp : pageAt slot = some (b, i))
    (hx : receiveUnit (alGet {} (rxKey b i u.stream) s.hw.rx) u (s.streamCls u)
      ((u.stream.toNat / 512 == s.devNum && !u.has fREMOTE) && s.authorised (u.stream.toNat % 512)) = x) :
    ∃ ev : List Event, (unitReceiveAct slot u).run s = ((Act.rxErrs b i x).run s).mapHw fun h =>
      { h with rx := alPut {} (rxKey b i u.stream) x.st h.rx, inbox := h.inbox ++ x.units.map fun v => (slot, v),
               events := ev } := by
  simp only [unitReceiveAct, run_get, hp]
  rw [run_receive _ hx, run_seq, run_hw]
  cases s.localStream u.stream with
  | none => exact ⟨_, rfl⟩
  | some n => exact ⟨_, run_each_event _ _ _⟩

/-- R43, R683: a CRC failure is recorded in ERR_STATUS and counted in CRC_CNT. -/
theorem run_rxErrs_crcBad (b : Blk) (i : Nat) (st : RxSt) (s : State) :
    (Act.rxErrs b i ⟨[], st, [], true⟩).run s =
      (Act.satFld (Reg.HDR.ERR_STATUS b i) 31 24 1).run ((Act.err b i 0).run s) := rfl

/-- A unit without an error leaves nothing to record. -/
theorem run_rxErrs_nil (b : Blk) (i : Nat) (l : List DUnit) (st : RxSt) (s : State) :
    (Act.rxErrs b i ⟨l, st, [], false⟩).run s = s := rfl

theorem exec_unitReceive {s : State} (h : s.hw.boot.inReset = false) (slot : BitVec 14) (u : DUnit) :
    exec (.unitReceive slot u) s = .next ((unitReceiveAct slot.toNat u).run s).settled := command_eq h

/-- R43: after a CRC failure the page's ERR_STATUS alone differs among the registers: it counts and records the failure. -/
theorem rxErrs_crcBad_effect {s : State} (hs : s.sound) {b : Blk} {i : Nat} (hi : i < b.count) (st : RxSt) :
    let t := (Act.rxErrs b i ⟨[], st, [], true⟩).run s
    t.fld (Reg.HDR.ERR_STATUS b i) 31 24 = min (s.fld (Reg.HDR.ERR_STATUS b i) 31 24 + 1) 255 ∧
      t.bit (Reg.HDR.ERR_STATUS b i) 0 = true ∧ Quiet [Reg.HDR.ERR_STATUS b i] s t := by
  have hk : keysRise s.regs := hs.1.1
  have hk' : keysRise ((Act.err b i 0).run s).regs := (sound_run _ s hs).1.1
  have hbit : (RegRef.mask (Reg.HDR.ERR_STATUS b i)).getLsbD 0 = true := by rw [mask_errStatus hi]; rfl
  have hcnt : bits (RegRef.mask (Reg.HDR.ERR_STATUS b i)) 31 24 = 2 ^ (31 + 1 - 24) - 1 := by rw [mask_errStatus hi]; rfl
  intro t
  refine ⟨?_, ?_, (quiet_err s b i 0).trans (quiet_satFld _ _ _ _ _)⟩
  · exact (fld_satFld hk' 1 (by omega) hcnt).trans (by rw [fld_err hk (by omega) hcnt]; rfl)
  · exact (bit_satFld hk' (by omega) hbit).trans (bit_err hk hbit)

/-- Settles O17: UNIT_RECEIVE runs the receiver (`run_unitReceiveAct`), which for a bad CRC records the failure alone and for a
good unit with the counter expected records nothing. -/
theorem unitReceive : Obligations.UnitReceive := by
  intro s slot u b i hl hp st cls auth
  obtain ⟨hs, hr⟩ := hl
  refine ⟨fun hc => ?_, fun hc hf he hb hrx => ?_⟩
  · obtain ⟨ev, ht⟩ := run_unitReceiveAct hp (receiveUnit_crcBad _ _ _ hc)
    obtain ⟨hcnt, hbit, hq⟩ := rxErrs_crcBad_effect hs (lt_count_of_pageAt hp) st
    refine ⟨_, exec_unitReceive hr slot u, ?_⟩
    rw [ht]
    refine ⟨?_, hcnt, hbit, hq.regs, hq.mem, hq.poison, hq.es, hq.tsc, hq.out⟩
    simp only [State.mapHw, List.map_nil, List.append_nil]
    exact hq.inbox
  · obtain ⟨st', hx, he'⟩ := receiveUnit_expected (st := st) (cls := s.streamCls u) (auth := auth) hc hf he hb
    obtain ⟨ev, ht⟩ := run_unitReceiveAct hp hx
    refine ⟨_, exec_unitReceive hr slot u, ?_⟩
    rw [ht, run_rxErrs_nil]
    refine ⟨rfl, ?_, rfl, rfl, rfl, rfl, rfl, rfl⟩
    simp only [State.mapHw]
    rw [alGet_alPut_same hrx, he']

/-! ### Arrival over a link (R52) -/

theorem exec_linkUnitArrive {s : State} (h : s.hw.boot.inReset = false) (k : Fin 4) (u : DUnit) :
    exec (.linkUnitArrive k u) s = .next ((linkUnitArriveAct k u).run s).settled := command_eq h

/-- A flag set is carried. -/
theorem has_set_same (u : DUnit) {i : Nat} (h : i < 16) : (u.set i).has i = true :=
  getLsbD_putBit_same _ h

/-- Within seven hops the unit waits in the port's block, marked REMOTE and one hop further. -/
theorem run_linkUnitArriveAct_near {s : State} {k : Nat} {u : DUnit} (hup : s.portUp k = true) (h : u.hops.toNat < 7) :
    (linkUnitArriveAct k u).run s = s.mapHw fun w =>
      { w with inbox := w.inbox ++ [(Blk.LINK.slot + k, { u.set fREMOTE with hops := u.hops + 1 })] } := by
  simp [linkUnitArriveAct, hup, Nat.not_le.2 h]

/-- Beyond seven hops the port counts a loop event and raises its source. -/
theorem run_linkUnitArriveAct_far {s : State} {k : Nat} {u : DUnit} (hup : s.portUp k = true) (h : 7 ≤ u.hops.toNat) :
    (linkUnitArriveAct k u).run s = (Act.raise .LINK k 4).run ((Act.bump (Reg.LINK.LOOP_CNT k) 1).run s) := by
  simp [linkUnitArriveAct, hup, h, linkRaise]

/-- Settles O18, by the two branches of R52. -/
theorem linkUnitArrive : Obligations.LinkUnitArrive := by
  intro s k u hl hup
  obtain ⟨hs, hr⟩ := hl
  refine ⟨fun h => ?_, fun h hroom => ?_⟩
  · refine ⟨_, exec_linkUnitArrive hr k u, ?_⟩
    rw [run_linkUnitArriveAct_near hup h]
    exact ⟨rfl, ⟨rfl, rfl, rfl, rfl, rfl⟩, _, rfl, has_set_same u (by decide), rfl, rfl, rfl, rfl⟩
  · refine ⟨_, exec_linkUnitArrive hr k u, ?_⟩
    rw [run_linkUnitArriveAct_far hup h]
    have hq := quiet_bump s (Reg.LINK.LOOP_CNT k) 1
    have hq' := quiet_raise ((Act.bump (Reg.LINK.LOOP_CNT k) 1).run s) .LINK k 4
    have hquiet : Quiet (Reg.LINK.LOOP_CNT k :: irqOf .LINK k) s
        ((Act.raise .LINK k 4).run ((Act.bump (Reg.LINK.LOOP_CNT k) 1).run s)) :=
      (hq.mono (by simp)).trans (hq'.mono (by simp [irqOf]))
    refine ⟨hquiet.inbox, ?_, bit_raise (sound_run _ s hs).1.1 k.isLt (by decide), hquiet⟩
    rw [hq'.regs _ (by simp [RegRef.key]), rd_bump_one hs.1.1 _ hroom]

/-! ### TSC_LOAD (R58) -/

/-- R58: a value not less than the TSC is loaded. -/
theorem run_tscLoadAct_load {s : State} (h : s.now ≤ s.rd64 Reg.TSC.TSC_SET_LO Reg.TSC.TSC_SET_HI) :
    tscLoadAct.run s = s.setTsc (BitVec.ofNat 64 (s.rd64 Reg.TSC.TSC_SET_LO Reg.TSC.TSC_SET_HI)) := by
  simp [tscLoadAct, h]

/-- R58: a smaller one is rejected, and recorded. -/
theorem run_tscLoadAct_reject {s : State} (h : s.rd64 Reg.TSC.TSC_SET_LO Reg.TSC.TSC_SET_HI < s.now) :
    tscLoadAct.run s = (Act.err .TSC 0 8).run s := by
  simp [tscLoadAct, Nat.not_le.2 h, Act.cfgErr]

/-- Clearing COARSE changes TSC_STATUS and, when it was set, source 38 (R56). -/
theorem quiet_clrCoarse (s : State) : Quiet (Reg.TSC.TSC_STATUS :: irqOf .AON 0) s (clrCoarseAct.run s) := by
  simp only [clrCoarseAct, setCoarse, run_get, run_when, run_seq, run_setFld]
  split
  · split
    · exact ((quiet_setReg s _ _).mono (by simp)).trans ((quiet_raise _ _ _ _).mono (by simp [irqOf]))
    · exact .rfl'
  · exact .rfl'

/-- A write to TSC_CMD with LOAD: the load, then at most CLR_COARSE. -/
theorem quiet_tscCmdWrite_load (s : State) {v : Word} (hv : v.getLsbD 0 = true) :
    Quiet (Reg.TSC.TSC_STATUS :: irqOf .AON 0) (tscLoadAct.run s) ((tscCmdWrite v).run s) := by
  simp only [tscCmdWrite, run_seq, run_when, hv, if_true]
  split
  · exact quiet_clrCoarse _
  · exact .rfl'

theorem blockWrite_tscCmd (f : Nat) (old v : Word) : blockWrite f .TSC 0 0x054 old v = tscCmdWrite v := rfl

theorem exec_tscLoad {s : State} (h : s.hw.boot.inReset = false) (v : Word) :
    exec (.tscLoad 0 v) s = .next ((hostReg 0 Reg.TSC.TSC_CMD (v ||| 1)).run s) := simply_eq h

/-- What follows the load in an accepted TSC_LOAD (CLR_COARSE, the journal) leaves the TSC, the page's ERR_STATUS, the engine
stores and what has left the block. -/
theorem tscLoad_after_load {s : State} {v : Word} (h : s.accepts 0 Reg.TSC.TSC_CMD (v ||| 1) = true) :
    ∃ row : RegRow,
      let p := tscLoadAct.run (s.hostStored Reg.TSC.TSC_CMD row (v ||| 1))
      let t := (hostReg 0 Reg.TSC.TSC_CMD (v ||| 1)).run s
      t.tsc = p.tsc ∧ t.rd (Reg.HDR.ERR_STATUS .TSC 0) = p.rd (Reg.HDR.ERR_STATUS .TSC 0) ∧ t.es = p.es ∧ t.out = p.out := by
  obtain ⟨row, -, hj⟩ := hostReg_accepted h
  rw [blockWrite_tscCmd] at hj
  have hq := quiet_tscCmdWrite_load (s.hostStored Reg.TSC.TSC_CMD row (v ||| 1)) (v := v ||| 1) (by simp)
  refine ⟨row, hj.tsc.trans hq.tsc, ?_, hj.es.trans hq.es, hj.out.trans hq.out⟩
  exact (hj.regs _ (by decide)).trans (hq.regs _ (by decide))

/-- The store of TSC_CMD changes neither TSC_SET nor ERR_STATUS. -/
theorem rd_hostStored_tscCmd (s : State) (row : RegRow) (v : Word) {r : RegRef}
    (hr : r ∈ [Reg.TSC.TSC_SET_LO, Reg.TSC.TSC_SET_HI, Reg.HDR.ERR_STATUS .TSC 0]) :
    (s.hostStored Reg.TSC.TSC_CMD row v).rd r = s.rd r := by
  have hkeys : ∀ r ∈ [Reg.TSC.TSC_SET_LO, Reg.TSC.TSC_SET_HI, Reg.HDR.ERR_STATUS .TSC 0],
      r.key ∉ [regAt .TSC 0 0x054, Reg.HDR.WRITE_COUNT .TSC 0].map RegRef.key := by decide
  exact hostStored_regs s Reg.TSC.TSC_CMD row v r (hkeys r hr)

/-- The store of an accepted write keeps the register list in order. -/
theorem keysRise_hostStored {s : State} (hs : keysRise s.regs) (r : RegRef) (row : RegRow) (v : Word) :
    keysRise (s.hostStored r row v).regs := by
  unfold State.hostStored
  refine keysRise_setReg ?_ _ _
  split
  · exact hs
  · exact keysRise_setReg hs _ _

/-- Settles O59, by the two branches of R58 in the state the store of TSC_CMD leaves. -/
theorem tscLoad : Obligations.TscLoad := by
  intro s v hl hacc x
  obtain ⟨hs, hr⟩ := hl
  obtain ⟨row, htsc, herr, hes, hout⟩ := tscLoad_after_load hacc
  have hx : (s.hostStored Reg.TSC.TSC_CMD row (v ||| 1)).rd64 Reg.TSC.TSC_SET_LO Reg.TSC.TSC_SET_HI = x := by
    rw [State.rd64, rd_hostStored_tscCmd _ _ _ (by simp), rd_hostStored_tscCmd _ _ _ (by simp)]; rfl
  have hnow : (s.hostStored Reg.TSC.TSC_CMD row (v ||| 1)).now = s.tsc.toNat := by rw [State.now, hostStored_tsc]
  refine ⟨fun hle => ⟨_, exec_tscLoad hr v, ?_⟩, fun hlt => ⟨_, exec_tscLoad hr v, ?_⟩⟩
  · rw [htsc, herr, hes, hout, run_tscLoadAct_load (by omega), hx]
    simpa using rd_hostStored_tscCmd s row (v ||| 1) (r := Reg.HDR.ERR_STATUS .TSC 0) (by simp)
  · rw [htsc, State.bit, herr, hes, hout, run_tscLoadAct_reject (by omega)]
    have hq := quiet_err (s.hostStored Reg.TSC.TSC_CMD row (v ||| 1)) .TSC 0 8
    refine ⟨by rw [hq.tsc, hostStored_tsc], ?_, by rw [hq.es, hostStored_es], by rw [hq.out, hostStored_out]⟩
    exact bit_err (keysRise_hostStored hs.1.1 _ _ _) (by rw [mask_errStatus (by decide)]; rfl)

end Sys2Proof.Machine

/-! ## Proofs: the step, the queue, reset

The statements that hold of every command because a command is a program of elementary changes (O1 to O9). -/

namespace Sys2Proof.Machine

-- One theorem after the other: elaborated side by side, they hold more threads than the memory limit of a check allows.
set_option Elab.async false

/-! ### The step (95_what_each_step_holds) -/

/-- Settles O1: a step takes the front of the queue. -/
theorem stepRunsFrontCommand : Obligations.StepRunsFrontCommand := fun _ _ _ => rfl

/-- Settles O3, by `Laws.exec_runs`: a command is a program, and no program takes back what has left the block. -/
theorem everyCommandAnswers : Obligations.EveryCommandAnswers := by
  intro c s
  obtain ⟨b, hb⟩ := Laws.exec_runs c s
  exact ⟨b.run s, hb, run_pending b s, run_out_prefix b s, run_freeCtr b s⟩

/-- Settles O5: after reset nothing is listed. -/
theorem resetIsSound : Obligations.ResetIsSound := by
  refine ⟨⟨.nil, ?_⟩, ⟨.nil, ?_⟩, ⟨.nil, ?_⟩, ⟨.nil, ?_⟩⟩ <;> exact fun _ h => absurd h List.not_mem_nil

/-- A step on an empty queue is a program. -/
theorem idle_runs (s : State) : ∃ b : Act, idle s = b.run s := by
  unfold idle
  split
  · exact ⟨.nil, rfl⟩
  · exact ⟨_, rfl⟩

/-- Every step is a program run on the state, the queue apart. -/
theorem step_runs {s t : State} (h : step s = .next t) : ∃ (b : Act) (l : List Instr), t = b.run { s with pending := l } := by
  unfold step at h
  split at h
  next hp =>
    obtain ⟨b, hb⟩ := idle_runs s
    exact ⟨b, s.pending, by rw [← hb]; exact (Host.Outcome.next.inj h).symm⟩
  next c rest hp =>
    obtain ⟨b, hb⟩ := Laws.exec_runs c { s with pending := rest }
    exact ⟨b, rest, (Host.Outcome.next.inj (hb.symm.trans h)).symm⟩

/-- Settles O4: every elementary change keeps a state sound (`sound_run`), and a step is a program of them (`step_runs`). -/
theorem stepKeepsSound : Obligations.StepKeepsSound := by
  intro s t hs h
  obtain ⟨b, l, rfl⟩ := step_runs h
  exact sound_run b _ hs

/-- Settles O6. -/
theorem reservedBitsReadZero : Obligations.ReservedBitsReadZero := fun _ r hs hr => rd_reserved hs.1 r hr

/-- Settles O7: after VDD_AON power-on no register is listed, so that each holds its reset value. -/
theorem resetState : Obligations.ResetState := ⟨rfl, fun _ => rfl, rfl, rfl, rfl, rfl⟩

/-! ### Held in reset (R708) -/

/-- Held in reset, the frame of a main-side command (`command`, `simply`) leaves the state alone. -/
theorem next_held {s : State} (h : s.hw.boot.inReset = true) (t : State) :
    (.next (if s.hw.boot.inReset then s else t) : Host.Outcome State Fault Refusal) = .next s := by rw [if_pos h]

/-- Settles O8: every command but those listed has the frame of a main-side command. -/
theorem heldInReset : Obligations.HeldInReset := by
  intro c s h
  cases c <;> first | exact next_held h _ | trivial

/-! ### A nanosecond without a command (R53, R55, R57) -/

/-- One nanosecond: 1 ns, one less or one more while the remainder of a slew comes to a whole one (R57). -/
theorem run_tickAct (s : State) : ∃ (d : Nat) (a : Int), d ≤ 2 ∧ (s.slewPpb = 0 ∧ s.hw.time.slewAcc = 0 → d = 1) ∧
    tickAct.run s = (s.setTsc (s.tsc + BitVec.ofNat 64 d)).mapHw fun h => { h with time := { h.time with slewAcc := a } } := by
  simp only [tickAct, run_get, run_seq, run_upd, apply_tsc, run_hw]
  generalize hx : (if 1000000000 ≤ s.hw.time.slewAcc + s.slewPpb then (1 : Int)
    else if s.hw.time.slewAcc + s.slewPpb ≤ -1000000000 then -1 else 0) = extra
  refine ⟨(1 + extra).toNat, s.hw.time.slewAcc + s.slewPpb - extra * 1000000000, ?_, fun h => ?_, ?_⟩
  · split_ifs at hx <;> omega
  · rw [h.1, h.2] at hx
    norm_num at hx
    omega
  · rw [BitVec.ofNat_add, BitVec.ofNat_toNat, BitVec.setWidth_eq]

/-- A sample set that is not held back leaves nothing to do. -/
theorem run_ssiStartAct_idle {s : State} (h : ∀ x, s.hw.mot.set_ = some x → x.held = false) : ssiStartAct.run s = s := by
  simp only [ssiStartAct, run_get]
  split
  · rfl
  next x hx => simp [h x hx]

/-- Starting a held sample set shows its channels busy and touches the set alone (R368). -/
theorem run_ssiStartAct (s : State) : ∃ m : MotSt, SameRegs [Reg.SSI.SSI_STATUS] s (ssiStartAct.run s) ∧
    SameRest s (ssiStartAct.run s) ∧ (ssiStartAct.run s).hw = { s.hw with mot := m } := by
  simp only [ssiStartAct, run_get]
  split
  · exact ⟨_, fun _ _ => rfl, ⟨rfl, rfl, rfl, rfl, rfl⟩, rfl⟩
  next x hx =>
    rw [run_when]
    split
    · exact ⟨_, (quiet_setReg _ _ _).regs, ⟨rfl, rfl, rfl, rfl, rfl⟩, rfl⟩
    · exact ⟨_, fun _ _ => rfl, ⟨rfl, rfl, rfl, rfl, rfl⟩, rfl⟩

/-- A held sample set whose time has come starts, with the encoder positions of that moment (R368, R370). -/
theorem run_ssiStartAct_held {s : State} {x : SampleSet} (h : s.hw.mot.set_ = some x) (hh : x.held = true) (ht : x.stamp ≤ s.now) :
    (ssiStartAct.run s).hw.mot.set_ = some { x with held := false, encs := s.setEncs } := by
  simp only [ssiStartAct, run_get, h]
  simp [hh, ht, Act.mot]

/-- Settles O2: in DEEP_SLEEP `idle` is the identity, else it is the nanosecond of `run_tickAct` and the start of a held set. -/
theorem emptyQueuePassesTime : Obligations.EmptyQueuePassesTime := by
  intro s hp
  have hstep : step s = .next (idle s) := by rw [step, hp]
  refine ⟨fun h3 => by rw [hstep, idle, if_pos h3], fun h3 => ⟨_, hstep, ?_⟩⟩
  obtain ⟨d, a, hd, h1, ht⟩ := run_tickAct s
  rw [idle, if_neg h3, run_seq, ht]
  generalize hu : (s.setTsc (s.tsc + BitVec.ofNat 64 d)).mapHw (fun h => { h with time := { h.time with slewAcc := a } }) = u
  have hset : u.hw.mot.set_ = s.hw.mot.set_ := by rw [← hu]; rfl
  have hregs : u.regs = s.regs := by rw [← hu]; rfl
  have hencs : u.setEncs = s.setEncs := by rw [← hu]; rfl
  obtain ⟨m, hr, hrest, -⟩ := run_ssiStartAct u
  refine ⟨⟨d, hd, ?_, h1⟩, fun hx => ?_, fun x hx hh hle => ?_, fun r hk => ?_, ?_, ?_, ?_, ?_, ?_⟩
  · rw [hrest.tsc, ← hu]; rfl
  · rw [run_ssiStartAct_idle (by rw [hset]; exact hx), hregs]
  · rw [← hencs]
    exact run_ssiStartAct_held (hset.trans hx) hh (by simpa only [State.now, hrest.tsc] using hle)
  · rw [hr r hk, ← hu]; rfl
  · rw [hrest.mem, ← hu]; rfl
  · rw [hrest.es, ← hu]; rfl
  · rw [hrest.poison, ← hu]; rfl
  · rw [hrest.out, ← hu]; rfl
  · rw [run_pending, ← hu]; exact hp

/-! ### A still state -/

/-- Programs that leave the state alone leave it alone one after the other. -/
theorem run_each_self {α : Type} {l : List α} {f : α → Act} {s : State} (h : ∀ x ∈ l, (f x).run s = s) :
    (Act.each l f).run s = s := by
  induction l with
  | nil => rfl
  | cons x l ih =>
    rw [run_each_cons, h x List.mem_cons_self]
    exact ih fun y hy => h y (List.mem_cons_of_mem _ hy)

/-- With no event waiting nothing is dealt with. -/
theorem run_drainEvents_nil {s : State} (h : s.hw.events = []) (k : Nat) : (drainEvents k).run s = s := by
  cases k with
  | zero => rfl
  | succ k => simp [drainEvents, h]

/-- No parked command has its unit: nothing to release. -/
theorem run_parkedCheck_self {s : State} (h : (s.hw.disp.cmds.any fun c => c.isParked && c.input.isSome) = false) :
    parkedCheck.run s = s := by
  have hf : s.hw.disp.cmds.filter (fun c => c.isParked && c.input.isSome) = [] := by
    rw [List.filter_eq_nil_iff]
    exact List.any_eq_false.1 h
  simp [parkedCheck, hf]

/-- Settles O9: each of the five parts of `settleAll` finds nothing to do. -/
theorem stillIsSettled : Obligations.StillIsSettled := by
  intro s h
  simp only [State.still, Bool.and_eq_true, Bool.not_eq_true', List.isEmpty_iff, Option.isNone_iff_eq_none] at h
  obtain ⟨⟨⟨⟨hev, hpark⟩, hblk⟩, hidle⟩, hdef⟩ := h
  have hwake : wakeBlocks.run s = s := by
    simp only [wakeBlocks, run_get, run_seq]
    rw [run_each_self fun x hx => ?_]
    · simp [hidle]
    · have := List.any_eq_false.1 hblk x hx
      rw [run_when, if_neg this]
  have hsleep : sleepDeferred.run s = s := by simp [sleepDeferred, hdef]
  simp only [State.settled, settleAll, run_all_cons, run_all_nil, run_drainEvents_nil hev, run_parkedCheck_self hpark,
    hwake, hsleep]

end Sys2Proof.Machine

/-! ## Proofs: frames of programs

What a program of elementary changes can change is read off its text: `Act.Only p` says that every change it lists is one
that the scope `p` allows, and each part of the state that `p` leaves out is then as before. -/

namespace Sys2Proof.Machine

-- One theorem after the other: elaborated side by side, they hold more threads than the memory limit of a check allows.
set_option Elab.async false

/-! ### The scope of a program -/

/-- What a program may change: which registers, which changes of block state, and whether memory (with its poison marks), the
poison marks, the engine stores, the time-stamp counter and what has left the block. -/
structure Scope where
  reg    : RegRef → Prop := fun _ => False
  reset  : Prop := False
  hw     : (Hw → Hw) → Prop := fun _ => True
  mem    : Prop := False
  poison : Prop := False
  es     : Prop := False
  tsc    : Prop := False
  out    : Prop := False

/-- The elementary changes a scope allows. -/
def Upd.Within (p : Scope) : Upd → Prop
  | .reg r _ => p.reg r
  | .resetRegs _ => p.reset
  | .bytes _ _ => p.mem
  | .dropMem _ => p.mem
  | .poison _ => p.poison
  | .es _ _ => p.es
  | .dropEs _ => p.es
  | .tsc _ => p.tsc
  | .out _ => p.out
  | .free => True
  | .hw f => p.hw f

/-- Every elementary change the program can make is one the scope allows. -/
def Act.Only (p : Scope) : Act → Prop
  | .nil => True
  | .upd u => u.Within p
  | .seq a b => a.Only p ∧ b.Only p
  | .get k => ∀ s, (k s).Only p

section
variable {p : Scope}

@[simp] theorem only_nil : Act.nil.Only p := trivial
@[simp] theorem only_upd (u : Upd) : (Act.upd u).Only p ↔ u.Within p := .rfl
@[simp] theorem only_seq (a b : Act) : (Act.seq a b).Only p ↔ a.Only p ∧ b.Only p := .rfl
@[simp] theorem only_get (k : State → Act) : (Act.get k).Only p ↔ ∀ s, (k s).Only p := .rfl
@[simp] theorem only_all_nil : (Act.all []).Only p := trivial
@[simp] theorem only_all_cons (a : Act) (l : List Act) : (Act.all (a :: l)).Only p ↔ a.Only p ∧ (Act.all l).Only p := .rfl
@[simp] theorem only_when (b : Bool) (a : Act) : (Act.when b a).Only p ↔ (b = true → a.Only p) := by cases b <;> simp [Act.when]
@[simp] theorem only_ite (c : Prop) [Decidable c] (a b : Act) :
    (if c then a else b).Only p ↔ (c → a.Only p) ∧ (¬c → b.Only p) := by split <;> simp [*]

/-- A program for each element of a list. -/
@[simp] theorem only_each {α : Type} (l : List α) (f : α → Act) : (Act.each l f).Only p ↔ ∀ x ∈ l, (f x).Only p := by
  induction l with
  | nil => simp [Act.each]
  | cons x l ih => rw [Act.each, List.map_cons, only_all_cons]; simpa [Act.each] using fun _ => ih

@[simp] theorem within_reg (r : RegRef) (v : Word) : (Upd.reg r v).Within p ↔ p.reg r := .rfl
@[simp] theorem within_resetRegs (k : Nat → Bool) : (Upd.resetRegs k).Within p ↔ p.reset := .rfl
@[simp] theorem within_bytes (a : Nat) (l : List Byte) : (Upd.bytes a l).Within p ↔ p.mem := .rfl
@[simp] theorem within_dropMem (k : Nat → Bool) : (Upd.dropMem k).Within p ↔ p.mem := .rfl
@[simp] theorem within_poison (w : Nat) : (Upd.poison w).Within p ↔ p.poison := .rfl
@[simp] theorem within_es (a : Nat) (l : List Byte) : (Upd.es a l).Within p ↔ p.es := .rfl
@[simp] theorem within_dropEs (k : Nat → Bool) : (Upd.dropEs k).Within p ↔ p.es := .rfl
@[simp] theorem within_tsc (t : DWord) : (Upd.tsc t).Within p ↔ p.tsc := .rfl
@[simp] theorem within_out (o : Out) : (Upd.out o).Within p ↔ p.out := .rfl
@[simp] theorem within_free : Upd.free.Within p := trivial
@[simp] theorem within_hw (f : Hw → Hw) : (Upd.hw f).Within p ↔ p.hw f := .rfl

@[simp] theorem only_wr (r : RegRef) (v : Word) : (Act.wr r v).Only p ↔ p.reg r := .rfl
@[simp] theorem only_wrN (r : RegRef) (n : Nat) : (Act.wrN r n).Only p ↔ p.reg r := .rfl
@[simp] theorem only_modReg (r : RegRef) (f : Word → Word) : (Act.modReg r f).Only p ↔ p.reg r :=
  ⟨fun h => h State.reset, fun h _ => h⟩
@[simp] theorem only_setFld (r : RegRef) (hi lo n : Nat) : (Act.setFld r hi lo n).Only p ↔ p.reg r := only_modReg _ _
@[simp] theorem only_orReg (r : RegRef) (v : Word) : (Act.orReg r v).Only p ↔ p.reg r := only_modReg _ _
@[simp] theorem only_wr64 (lo hi : RegRef) (n : Nat) : (Act.wr64 lo hi n).Only p ↔ p.reg lo ∧ p.reg hi := .rfl
@[simp] theorem only_hw (f : Hw → Hw) : (Act.hw f).Only p ↔ p.hw f := .rfl
@[simp] theorem only_out (o : Out) : (Act.out o).Only p ↔ p.out := .rfl
@[simp] theorem only_bytes (a : Nat) (l : List Byte) : (Act.bytes a l).Only p ↔ p.mem := .rfl
@[simp] theorem only_mem (a k n : Nat) : (Act.mem a k n).Only p ↔ p.mem := .rfl
@[simp] theorem only_event (e : Event) : (Act.event e).Only p ↔ p.hw fun h => { h with events := h.events ++ [e] } := .rfl
@[simp] theorem only_fresh (k : Nat → Act) : (Act.fresh k).Only p ↔ ∀ s : State, (k s.freeCtr).Only p := by
  simp [Act.fresh]
@[simp] theorem only_bump (r : RegRef) (n : Nat) : (Act.bump r n).Only p ↔ p.reg r := by
  refine ⟨fun h => ?_, fun h s => ?_⟩
  · have := h State.reset
    dsimp only at this
    split at this
    · exact this
    · exact (this State.reset).2
  · dsimp only
    split
    · exact h
    · exact fun _ => ⟨trivial, h⟩
@[simp] theorem only_satFld (r : RegRef) (hi lo n : Nat) : (Act.satFld r hi lo n).Only p ↔ p.reg r :=
  ⟨fun h => h State.reset State.reset, fun h _ _ => h⟩
@[simp] theorem only_bump64 (lo hi : RegRef) (n : Nat) : (Act.bump64 lo hi n).Only p ↔ p.reg lo ∧ p.reg hi :=
  ⟨fun h => h State.reset, fun h _ => h⟩
theorem only_maxReg {r : RegRef} (n : Nat) (h : p.reg r) : (Act.maxReg r n).Only p := by
  simp [Act.maxReg, h]
@[simp] theorem only_err (b : Blk) (i k : Nat) : (Act.err b i k).Only p ↔ p.reg (Reg.HDR.ERR_STATUS b i) := only_orReg _ _
@[simp] theorem only_cfgErr (b : Blk) (i : Nat) : (Act.cfgErr b i).Only p ↔ p.reg (Reg.HDR.ERR_STATUS b i) := only_orReg _ _

/-- The change of block state that latching makes: the gatherer's edge latches. -/
def Hw.setEdge (e : BitVec 1024) (h : Hw) : Hw := { h with gath := { h.gath with edge := e } }

@[simp] theorem only_latch {l : List Nat} (h : ∀ e, p.hw (Hw.setEdge e)) : (Act.latch l).Only p := fun _ => h _
@[simp] theorem only_setIrq {b : Blk} {i : Nat} {v m : Word} (hp : p.reg (Reg.HDR.IRQ_PEND b i)) (hm : p.reg (Reg.HDR.IRQ_MASK b i))
    (h : ∀ e, p.hw (Hw.setEdge e)) : (Act.setIrq b i v m).Only p := fun _ => ⟨hp, hm, only_latch h, trivial⟩
@[simp] theorem only_raise {b : Blk} {i k : Nat} (hp : p.reg (Reg.HDR.IRQ_PEND b i)) (hm : p.reg (Reg.HDR.IRQ_MASK b i))
    (h : ∀ e, p.hw (Hw.setEdge e)) : (Act.raise b i k).Only p := fun _ => only_setIrq hp hm h
@[simp] theorem only_lower {b : Blk} {i k : Nat} (hp : p.reg (Reg.HDR.IRQ_PEND b i)) (hm : p.reg (Reg.HDR.IRQ_MASK b i))
    (h : ∀ e, p.hw (Hw.setEdge e)) : (Act.lower b i k).Only p := fun _ => only_setIrq hp hm h
@[simp] theorem only_logAcc {b : Blk} {i f off k : Nat} (h : ∀ r ∈ logOf b i, p.reg r) (he : ∀ e, p.hw (Hw.setEdge e)) :
    (Act.logAcc b i f off k).Only p := by
  simp only [logOf, List.mem_cons, List.not_mem_nil, or_false, forall_eq_or_imp, forall_eq] at h
  intro s
  dsimp only
  split
  · exact ⟨h.1, trivial⟩
  · exact ⟨h.1, h.2.1, (only_orReg _ _).2 h.2.2.1, only_raise h.2.2.2.1 h.2.2.2.2 he, trivial⟩

/-! ### What is outside the scope stays -/

/-- A relation that every allowed change keeps is kept by the program. -/
theorem run_only {R : State → State → Prop} (refl : ∀ s, R s s) (trans : ∀ {a b c}, R a b → R b c → R a c)
    (h : ∀ u : Upd, u.Within p → ∀ s, R s (u.apply s)) {a : Act} (ha : a.Only p) (s : State) : R s (a.run s) := by
  induction a generalizing s with
  | nil => exact refl s
  | upd u => exact h u ha s
  | seq a b iha ihb => exact trans (iha ha.1 s) (ihb ha.2 _)
  | get k ih => exact ih s (ha s) s

theorem Act.Only.mem {a : Act} (ha : a.Only p) (hp : ¬p.mem) (s : State) : (a.run s).mem = s.mem := by
  refine run_only (R := fun s t => t.mem = s.mem) (fun _ => rfl) (fun h k => k.trans h) (fun u hu s => ?_) ha s
  cases u <;> first | rfl | exact absurd hu hp

theorem Act.Only.poison {a : Act} (ha : a.Only p) (hm : ¬p.mem) (hp : ¬p.poison) (s : State) : (a.run s).poison = s.poison := by
  refine run_only (R := fun s t => t.poison = s.poison) (fun _ => rfl) (fun h k => k.trans h) (fun u hu s => ?_) ha s
  cases u <;> first | rfl | exact absurd hu hm | exact absurd hu hp

theorem Act.Only.es {a : Act} (ha : a.Only p) (hp : ¬p.es) (s : State) : (a.run s).es = s.es := by
  refine run_only (R := fun s t => t.es = s.es) (fun _ => rfl) (fun h k => k.trans h) (fun u hu s => ?_) ha s
  cases u <;> first | rfl | exact apply_bytes_es .. | exact absurd hu hp

theorem Act.Only.tsc {a : Act} (ha : a.Only p) (hp : ¬p.tsc) (s : State) : (a.run s).tsc = s.tsc := by
  refine run_only (R := fun s t => t.tsc = s.tsc) (fun _ => rfl) (fun h k => k.trans h) (fun u hu s => ?_) ha s
  cases u <;> first | rfl | exact apply_bytes_tsc .. | exact absurd hu hp

theorem Act.Only.out {a : Act} (ha : a.Only p) (hp : ¬p.out) (s : State) : (a.run s).out = s.out := by
  refine run_only (R := fun s t => t.out = s.out) (fun _ => rfl) (fun h k => k.trans h) (fun u hu s => ?_) ha s
  cases u <;> first | rfl | exact apply_bytes_out .. | exact absurd hu hp

/-- A part of the block state that no allowed change touches. -/
theorem Act.Only.hw {α : Type} {a : Act} (ha : a.Only p) (π : Hw → α) (hp : ∀ f, p.hw f → ∀ h, π (f h) = π h) (s : State) :
    π (a.run s).hw = π s.hw := by
  refine run_only (R := fun s t => π t.hw = π s.hw) (fun _ => rfl) (fun h k => k.trans h) (fun u hu s => ?_) ha s
  cases u <;> first | rfl | exact congrArg π (apply_bytes_hw ..) | exact hp _ hu _

/-- A register that no allowed change touches. -/
theorem Act.Only.rd {a : Act} (ha : a.Only p) (hp : ¬p.reset) {r : RegRef} (hr : ∀ r', p.reg r' → r'.key ≠ r.key) (s : State) :
    (a.run s).rd r = s.rd r := by
  refine run_only (R := fun s t => t.rd r = s.rd r) (fun _ => rfl) (fun h k => k.trans h) (fun u hu s => ?_) ha s
  cases u with
  | reg r' v => exact rd_setReg_ne v (hr r' hu)
  | resetRegs k => exact absurd hu hp
  | bytes a l => simp [State.rd]
  | _ => rfl

theorem Act.Only.sameRegs {a : Act} (ha : a.Only p) (hp : ¬p.reset) {l : List RegRef} (hl : ∀ r, p.reg r → r ∈ l) (s : State) :
    SameRegs l s (a.run s) := fun _ hr =>
  ha.rd hp (fun r' hr' h => hr (h ▸ List.mem_map_of_mem (hl r' hr'))) s

theorem Act.Only.sameRest {a : Act} (ha : a.Only p) (hm : ¬p.mem) (hp : ¬p.poison) (he : ¬p.es) (ht : ¬p.tsc) (ho : ¬p.out) (s : State) :
    SameRest s (a.run s) := ⟨ha.mem hm s, ha.poison hm hp s, ha.es he s, ha.tsc ht s, ha.out ho s⟩

/-- A smaller scope is inside a larger one. -/
theorem Act.Only.mono {p q : Scope} {a : Act} (ha : a.Only p) (h : ∀ u : Upd, u.Within p → u.Within q) : a.Only q := by
  induction a with
  | nil => trivial
  | upd u => exact h u ha
  | seq a b iha ihb => exact ⟨iha ha.1, ihb ha.2⟩
  | get k ih => exact fun s => ih s (ha s)

end

/-- The scope of the listed registers and of block state. -/
def Scope.regs (l : List RegRef) : Scope := { reg := (· ∈ l) }

@[simp] theorem regs_reg (l : List RegRef) (r : RegRef) : (Scope.regs l).reg r ↔ r ∈ l := .rfl
@[simp] theorem regs_hw (l : List RegRef) (f : Hw → Hw) : (Scope.regs l).hw f ↔ True := .rfl
@[simp] theorem regs_mem (l : List RegRef) : (Scope.regs l).mem ↔ False := .rfl
@[simp] theorem regs_poison (l : List RegRef) : (Scope.regs l).poison ↔ False := .rfl
@[simp] theorem regs_es (l : List RegRef) : (Scope.regs l).es ↔ False := .rfl
@[simp] theorem regs_tsc (l : List RegRef) : (Scope.regs l).tsc ↔ False := .rfl
@[simp] theorem regs_out (l : List RegRef) : (Scope.regs l).out ↔ False := .rfl
@[simp] theorem regs_reset (l : List RegRef) : (Scope.regs l).reset ↔ False := .rfl

/-- A program in that scope leaves the rest alone. -/
theorem Act.Only.frame {l : List RegRef} {a : Act} (ha : a.Only (.regs l)) (s : State) :
    SameRegs l s (a.run s) ∧ SameRest s (a.run s) :=
  ⟨ha.sameRegs id (fun _ h => h) s, ha.sameRest id id id id id s⟩

/-! ### Registers in order -/

/-- Every program keeps the register list in order. -/
theorem rise_run (a : Act) {s : State} (h : keysRise s.regs) : keysRise (a.run s).regs := by
  refine run_keeps (P := fun s => keysRise s.regs) (fun u s hs => ?_) a s h
  cases u with
  | reg r v => exact keysRise_setReg hs r v
  | resetRegs k => exact keysRise_filter _ hs
  | bytes a l => simpa using hs
  | _ => exact hs

/-- Registers at different offsets of their pages have different addresses. -/
theorem key_ne_of_off {r r' : RegRef} (h : r.off % 4096 ≠ r'.off % 4096) : r.key ≠ r'.key := by
  unfold RegRef.key; omega

/-- Registers of different pages have different addresses. -/
theorem key_ne_of_page {r r' : RegRef} (h : r.blk.slot + r.inst ≠ r'.blk.slot + r'.inst) (hr : r.off < 4096) (hr' : r'.off < 4096) :
    r.key ≠ r'.key := by
  unfold RegRef.key; omega

/-! ### Reading past a change of another register -/

theorem rd_setReg_off {s : State} {r q : RegRef} {v : Word} (h : r.off % 4096 ≠ q.off % 4096) : (s.setReg r v).rd q = s.rd q :=
  rd_setReg_ne v (key_ne_of_off h)

@[simp] theorem rd_ite (c : Prop) [Decidable c] (s t : State) (r : RegRef) :
    (if c then s else t).rd r = if c then s.rd r else t.rd r := by split <;> rfl

theorem rd_setIrq_off {s : State} {b : Blk} {i : Nat} {p m : Word} {q : RegRef} (h : 0x010 ≠ q.off % 4096) (h' : 0x01C ≠ q.off % 4096) :
    ((Act.setIrq b i p m).run s).rd q = s.rd q := by
  calc _ = ((s.setReg (Reg.HDR.IRQ_PEND b i) p).setReg (Reg.HDR.IRQ_MASK b i) m).rd q := rfl
    _ = s.rd q := (rd_setReg_off (r := Reg.HDR.IRQ_MASK b i) h').trans (rd_setReg_off (r := Reg.HDR.IRQ_PEND b i) h)

/-- Raising a source leaves every register but IRQ_PEND and IRQ_MASK. -/
theorem rd_raise_off {s : State} {b : Blk} {i k : Nat} {q : RegRef} (h : 0x010 ≠ q.off % 4096) (h' : 0x01C ≠ q.off % 4096) :
    ((Act.raise b i k).run s).rd q = s.rd q := rd_setIrq_off h h'

theorem rd_lower_off {s : State} {b : Blk} {i k : Nat} {q : RegRef} (h : 0x010 ≠ q.off % 4096) (h' : 0x01C ≠ q.off % 4096) :
    ((Act.lower b i k).run s).rd q = s.rd q := rd_setIrq_off h h'

theorem rd_bump_off {s : State} {r q : RegRef} {n : Nat} (h : r.off % 4096 ≠ q.off % 4096) : ((Act.bump r n).run s).rd q = s.rd q :=
  Act.Only.rd (p := .regs [r]) (by simp) id (fun r' hr => by simp at hr; subst hr; exact key_ne_of_off h) s

theorem rd_satFld_off {s : State} {r q : RegRef} {hi lo n : Nat} (h : r.off % 4096 ≠ q.off % 4096) :
    ((Act.satFld r hi lo n).run s).rd q = s.rd q := rd_setReg_off h

end Sys2Proof.Machine

/-! ## Proofs: the host interface (17_host_interface_registers)

Register writes and reads that clear (O10), accesses that reach no register (O11), the commons through BAR4 (O12), the driver
locks (O13) and the interrupt header (O14). -/

namespace Sys2Proof.Machine

-- One theorem after the other: elaborated side by side, they hold more threads than the memory limit of a check allows.
set_option Elab.async false

/-! ### Pages and addresses -/

theorem slot_add_count (b : Blk) : b.slot + b.count ≤ 0x150 := by cases b <;> decide

/-- A page's BAR0 byte address fits its 26 bits. -/
theorem toNat_key {b : Blk} {i off : Nat} (hi : i < b.count) (ho : off < 4096) :
    (BitVec.ofNat 26 (RegRef.key ⟨b, i, off⟩)).toNat = (b.slot + i) * 4096 + off := by
  have := slot_add_count b
  simp only [RegRef.key, BitVec.toNat_ofNat]
  omega

/-- Pages of different blocks stand at different slots. -/
theorem key_ne_of_blk {r r' : RegRef} (hb : r.blk ≠ r'.blk) (hi : r.inst < r.blk.count) (hi' : r'.inst < r'.blk.count)
    (ho : r.off < 4096) (ho' : r'.off < 4096) : r.key ≠ r'.key := by
  refine key_ne_of_page (fun h => hb ?_) ho ho'
  have hp := pageAt_slot _ _ hi
  rw [h, pageAt_slot _ _ hi'] at hp
  exact (Prod.mk.inj (Option.some.inj hp)).1.symm

/-- The slots of the MSI-X structures hold no page. -/
theorem slot_ne_msix {b : Blk} {i : Nat} (hi : i < b.count) : b.slot + i ≠ 0x30 ∧ b.slot + i ≠ 0x31 := by
  have hp := pageAt_slot b i hi
  have h30 : pageAt 0x30 = none := by decide
  have h31 : pageAt 0x31 = none := by decide
  exact ⟨fun h => by simp [h, h30] at hp, fun h => by simp [h, h31] at hp⟩

theorem bar0Place_reg {b : Blk} {i off : Nat} (hi : i < b.count) (ho : off < 4096) :
    bar0Place 0 ((b.slot + i) * 4096 + off) = .reg b i off := by
  have h1 : ((b.slot + i) * 4096 + off) / 4096 = b.slot + i := by omega
  have h2 : ((b.slot + i) * 4096 + off) % 4096 = off := by omega
  simp only [bar0Place, if_true, h1, h2, if_neg (slot_ne_msix hi).1, if_neg (slot_ne_msix hi).2, pageAt_slot b i hi]

/-! ### Bytes of a word -/

theorem leNat_leBytes (k n : Nat) : leNat (leBytes k n) = n % 256 ^ k := by
  induction k generalizing n with
  | zero => simp [leBytes, leNat, Nat.mod_one]
  | succ k ih =>
    have h : n % (256 * 256 ^ k) = n % 256 + 256 * (n / 256 % 256 ^ k) := Nat.mod_mul
    rw [leBytes, leNat, ih, BitVec.toNat_ofNat, pow_succ' (256 : Nat), h]

@[simp] theorem length_leBytes (k n : Nat) : (leBytes k n).length = k := by
  induction k generalizing n with
  | zero => rfl
  | succ k ih => rw [leBytes, List.length_cons, ih]

theorem ofNat_leBytes (v : Word) : BitVec.ofNat 32 (leNat (leBytes 4 v.toNat)) = v := by
  have hv : v.toNat % 256 ^ 4 = v.toNat := Nat.mod_eq_of_lt v.isLt
  rw [leNat_leBytes, hv, BitVec.ofNat_toNat, BitVec.setWidth_eq]

/-! ### Whole-word accesses -/

/-- A 32-bit write of the physical function reaches the register (R681). -/
theorem run_bar0Write_word {b : Blk} {i off : Nat} (hi : i < b.count) (ho : off < 4096) (h4 : off % 4 = 0) (v : Word) (s : State) :
    (bar0Write 0 ((b.slot + i) * 4096 + off) (leBytes 4 v.toNat)).run s = (hostWrite 0 b i off v false).run s := by
  have ha : ((b.slot + i) * 4096 + off) % 4 = 0 := by omega
  have hl : (leBytes 4 v.toNat).isEmpty = false := by simp [leBytes]
  have ht : (leBytes 4 v.toNat).take 4 = leBytes 4 v.toNat := List.take_of_length_le (by simp)
  have hd : (leBytes 4 v.toNat).drop 4 = [] := List.drop_of_length_le (by simp)
  have h8 : ((4 : Nat) == 8) = false := rfl
  simp only [bar0Write, ha, length_leBytes, le_refl, and_self, if_true, h8, Bool.false_and]
  simp only [bar0WriteWords, hl, length_leBytes, ht, hd, ofNat_leBytes, bar0Write32, bar0Place_reg hi ho]
  rfl

/-- A full read of a register: what it latches, what it returns, what reading does beside (R8, R681). -/
theorem run_bar0Read_word {b : Blk} {i off : Nat} (hi : i < b.count) (ho : off < 4096) (h4 : off % 4 = 0) (s : State) :
    let u := (readLatch b i off).run s
    (bar0Read 0 ((b.slot + i) * 4096 + off) 4).run s =
      ((readEffect b i off).run u).emit (.readData 0 (leBytes 4 (u.regRead b i off).toNat) false) := by
  have ha : ((b.slot + i) * 4096 + off) % 4 = 0 := by omega
  have hq : ((b.slot + i) * 4096 + off) / 4 * 4 = (b.slot + i) * 4096 + off := by omega
  have ht (w : Word) : ((leBytes 4 w.toNat).drop 0).take 4 = leBytes 4 w.toNat := List.take_of_length_le (by simp)
  simp only [bar0Read, ha, ne_eq, not_true_eq_false, false_and, if_false, bar0Words, hq, bar0Read32, bar0Place_reg hi ho,
    Nat.sub_zero, Nat.min_self, Nat.sub_self, if_true, List.nil_append, ht]
  rfl

/-! ### The log of dropped accesses (R684) -/

theorem mask_accErr {b : Blk} {i : Nat} (h : i < b.count) : RegRef.mask (Reg.HDR.ACC_ERR b i) = 0xFF1FFFFC := by
  simp [RegRef.mask, RegRef.row, rowAt, h, headerRows, RegRow.holds]

/-- The first dropped access that a page's log records. -/
def firstLog (f off kind : Nat) : Word :=
  setBits (setBits (setBits (setBits (setBits 0 11 2 (off / 4)) 15 12 kind) 20 16 f) 24 24 1) 31 26 1

/-- A log that was not valid takes the access. -/
theorem rd_logAcc_first {s : State} (hs : keysRise s.regs) {b : Blk} {i : Nat} (h : s.bit (Reg.HDR.ACC_ERR b i) 24 = false)
    (f off kind : Nat) :
    ((Act.logAcc b i f off kind).run s).rd (Reg.HDR.ACC_ERR b i) = firstLog f off kind &&& RegRef.mask (Reg.HDR.ACC_ERR b i) := by
  have hb : (s.rd (Reg.HDR.ACC_ERR b i)).getLsbD 24 = false := h
  simp only [Act.logAcc, run_get, hb, Bool.false_eq_true, if_false]
  rw [run_all_cons, run_wr, ← firstLog, ← rd_setReg_same hs]
  refine Act.Only.rd (p := .regs [Reg.TOP.ACC_LAST, Reg.TOP.TOP_EVENTS, Reg.HDR.IRQ_PEND .TOP 0, Reg.HDR.IRQ_MASK .TOP 0])
    (by simp) id (fun r hr => key_ne_of_off ?_) _
  simp only [regs_reg, List.mem_cons, List.not_mem_nil, or_false] at hr
  rcases hr with rfl | rfl | rfl | rfl <;> simp

/-- The fields of the first record. -/
theorem bits_firstLog {f off kind : Nat} (hf : f < 32) (hk : kind < 16) :
    bits (firstLog f off kind) 15 12 = kind ∧ bits (firstLog f off kind) 11 2 = off / 4 % 1024 ∧
    bits (firstLog f off kind) 20 16 = f ∧ bits (firstLog f off kind) 31 26 = 1 ∧ (firstLog f off kind).getLsbD 24 = true := by
  unfold firstLog
  refine ⟨?_, ?_, ?_, ?_, ?_⟩
  · rw [bits_setBits_other _ _ (by omega), bits_setBits_other _ _ (by omega), bits_setBits_other _ _ (by omega),
      bits_setBits_same _ _ (by omega)]
    exact Nat.mod_eq_of_lt hk
  · rw [bits_setBits_other _ _ (by omega), bits_setBits_other _ _ (by omega), bits_setBits_other _ _ (by omega),
      bits_setBits_other _ _ (by omega), bits_setBits_same _ _ (by omega)]
    rfl
  · rw [bits_setBits_other _ _ (by omega), bits_setBits_other _ _ (by omega), bits_setBits_same _ _ (by omega)]
    exact Nat.mod_eq_of_lt hf
  · rw [bits_setBits_same _ _ (by omega)]; rfl
  · rw [getLsbD_setBits, if_neg (by omega), getLsbD_setBits, if_pos (by omega)]; rfl

/-- What the log shows of the first access dropped. -/
theorem logAcc_first {s : State} (hs : keysRise s.regs) {b : Blk} {i f off kind : Nat} (hi : i < b.count) (hf : f < 32) (hk : kind < 16)
    (h : s.bit (Reg.HDR.ACC_ERR b i) 24 = false) :
    let t := (Act.logAcc b i f off kind).run s
    t.fld (Reg.HDR.ACC_ERR b i) 15 12 = kind ∧ t.fld (Reg.HDR.ACC_ERR b i) 11 2 = off / 4 % 1024 ∧
    t.fld (Reg.HDR.ACC_ERR b i) 20 16 = f ∧ t.fld (Reg.HDR.ACC_ERR b i) 31 26 = 1 ∧ t.bit (Reg.HDR.ACC_ERR b i) 24 = true := by
  obtain ⟨h1, h2, h3, h4, h5⟩ := bits_firstLog (off := off) hf hk
  simp only [State.fld, State.bit, rd_logAcc_first hs h, mask_accErr hi]
  refine ⟨?_, ?_, ?_, ?_, ?_⟩
  · rw [bits_and_mask _ _ rfl, h1]
  · rw [bits_and_mask _ _ rfl, h2]
  · rw [bits_and_mask _ _ rfl, h3]
  · rw [bits_and_mask _ _ rfl, h4]
  · rw [BitVec.getLsbD_and, h5]; rfl

/-! ### Registers of pages without effects of their own (R8, R683) -/

theorem mask_writeCount {b : Blk} {i : Nat} (h : i < b.count) : RegRef.mask (Reg.HDR.WRITE_COUNT b i) = 0xFFFFFFFF := by
  simp [RegRef.mask, RegRef.row, rowAt, h, headerRows, RegRow.holds]

/-- An RW register of such a page takes every write. -/
theorem writeKind_plain {s : State} {b : Blk} {i off : Nat} {row : RegRow} (v : Word)
    (hb : b ∈ [Blk.CMN, Blk.MEMC, Blk.JPG, Blk.CLK, Blk.VRC]) (hrow : rowAt b i off = some row) (hacc : row.acc = .RW) :
    writeKind s 0 b i off v = 0 := by
  simp only [List.mem_cons, List.not_mem_nil, or_false] at hb
  rcases hb with rfl | rfl | rfl | rfl | rfl <;> simp [writeKind, hrow, hacc, blockDrops, captureDrops]

/-- Its write does nothing beside the store. -/
theorem blockWrite_plain {f : Nat} {b : Blk} {i off : Nat} (old v : Word)
    (hb : b ∈ [Blk.CMN, Blk.MEMC, Blk.JPG, Blk.CLK, Blk.VRC]) (ho : 0x40 ≤ off) : blockWrite f b i off old v = .nil := by
  have ho' : ¬off < 0x40 := by omega
  simp only [List.mem_cons, List.not_mem_nil, or_false] at hb
  rcases hb with rfl | rfl | rfl | rfl | rfl <;> simp [blockWrite, captureWrite, ho']

/-- A register of a page other than JRNL and CMP, at a block register's offset or at WRITE_COUNT, is none of the journal's. -/
theorem Journaled.rd {s t : State} (h : Journaled s t) {r : RegRef} (hi : r.inst < r.blk.count) (ho : r.off < 4096)
    (hj : r.blk ≠ .JRNL) (hc : r.blk ≠ .CMP) : t.rd r = s.rd r := by
  refine h.regs r fun hm => ?_
  obtain ⟨q, hq, hk⟩ := List.mem_map.1 hm
  simp only [hostTrail, List.tail_cons, List.mem_cons, List.not_mem_nil, or_false] at hq
  rcases hq with rfl | rfl | rfl | rfl | rfl | rfl | rfl <;>
    exact key_ne_of_blk (Ne.symm (by assumption)) (by decide) hi (by decide) ho hk

/-- What the store of an accepted write leaves in an unshared register, and the write's count. -/
theorem rd_hostStored {s : State} (hs : keysRise s.regs) {b : Blk} {i off : Nat} {row : RegRow} (v : Word)
    (hrow : rowAt b i off = some row) (hsh : row.shared = false) (hsel : behindSel b off = false) (hw : off ≠ 0x30) :
    (s.hostStored ⟨b, i, off⟩ row v).rd ⟨b, i, off⟩ = storedValue row (s.rd ⟨b, i, off⟩) v &&& row.mask ∧
    (s.hostStored ⟨b, i, off⟩ row v).rd (Reg.HDR.WRITE_COUNT b i) =
      (s.rd (Reg.HDR.WRITE_COUNT b i) + 1) &&& RegRef.mask (Reg.HDR.WRITE_COUNT b i) := by
  have ho : off < 4096 := (row_off hrow).2
  have hq : regAt b i off = ⟨b, i, off⟩ := by simp [regAt, hrow, hsh]
  have hm : RegRef.mask ⟨b, i, off⟩ = row.mask := by simp [RegRef.mask, RegRef.row, hrow]
  have hk : (Reg.HDR.WRITE_COUNT b i).key ≠ (⟨b, i, off⟩ : RegRef).key := key_ne_of_off (by simp; omega)
  have hst (x : Word) : keysRise (s.setReg ⟨b, i, off⟩ x).regs := keysRise_setReg hs _ _
  simp only [State.hostStored, hsel, Bool.false_eq_true, if_false, hq]
  exact ⟨by rw [rd_setReg_ne _ hk, rd_setReg_same hs, hm], by rw [rd_setReg_same (hst _), rd_setReg_ne _ hk.symm]⟩

/-- The registers of an accepted write's store and of the journal are the written one and the write's trail. -/
theorem sameRegs_hostWrite {s p t : State} {b : Blk} {i : Nat} {r : RegRef} (hp : SameRegs [r, Reg.HDR.WRITE_COUNT b i] s p)
    (hj : Journaled p t) : SameRegs (r :: hostTrail b i) s t := fun q hq => by
  simp only [hostTrail, List.map_cons, List.mem_cons, not_or] at hq
  rw [hj.regs q (by simpa [hostTrail] using hq.2.2), hp q (by simp [hq.1, hq.2.1])]

/-- The first part of O10: a write to an RW register without an effect of its own. -/
theorem registerWrite_plain {s : State} {b : Blk} {i off : Nat} {row : RegRow} (v : Word) (hl : s.live)
    (hb : b ∈ [Blk.CMN, Blk.MEMC, Blk.JPG, Blk.CLK, Blk.VRC]) (hrow : rowAt b i off = some row) (ho : 0x40 ≤ off)
    (hacc : row.acc = .RW) (hsh : row.shared = false) (h4 : off % 4 = 0) :
    ∃ t : State, exec (.registerWrite 0 (BitVec.ofNat 26 (RegRef.key ⟨b, i, off⟩)) (leBytes 4 v.toNat)) s = .next t.settled ∧
      t.rd ⟨b, i, off⟩ = storedValue row (s.rd ⟨b, i, off⟩) v &&& row.mask ∧
      t.rd (Reg.HDR.WRITE_COUNT b i) = (s.rd (Reg.HDR.WRITE_COUNT b i) + 1) &&& RegRef.mask (Reg.HDR.WRITE_COUNT b i) ∧
      SameRegs (⟨b, i, off⟩ :: hostTrail b i) s t ∧ t.es = s.es ∧ t.tsc = s.tsc := by
  obtain ⟨hi, ho'⟩ := row_off hrow
  have hne : b ≠ .JRNL ∧ b ≠ .CMP ∧ behindSel b off = false := by
    simp only [List.mem_cons, List.not_mem_nil, or_false] at hb
    rcases hb with rfl | rfl | rfl | rfl | rfl <;> simp [behindSel]
  obtain ⟨row', hrow', hj⟩ := hostWriteWith_accepted (r := ⟨b, i, off⟩) (fun old => blockWrite 0 b i off old v) false
    (writeKind_plain (s := s) v hb hrow hacc)
  obtain rfl : row = row' := Option.some.inj (hrow.symm.trans hrow')
  rw [blockWrite_plain _ v hb ho, run_nil] at hj
  obtain ⟨hr, hc⟩ := rd_hostStored hl.1.1.1 v hrow hsh hne.2.2 (by omega)
  refine ⟨(hostWrite 0 b i off v false).run s, ?_, ?_, ?_, ?_, ?_, ?_⟩
  · rw [← run_bar0Write_word hi ho' h4]
    exact (command_eq hl.2).trans (by rw [toNat_key hi ho']; rfl)
  · exact (hj.rd hi ho' hne.1 hne.2.1).trans hr
  · exact (hj.rd (r := Reg.HDR.WRITE_COUNT b i) hi (by simp) hne.1 hne.2.1).trans hc
  · refine sameRegs_hostWrite ?_ hj
    simpa [regAt, hrow, hsh] using hostStored_regs s ⟨b, i, off⟩ row v
  · exact hj.es.trans (hostStored_es ..)
  · exact hj.tsc.trans (hostStored_tsc ..)

/-- The second part of O10: what is dropped is logged, and nothing else. -/
theorem registerWrite_dropped {s : State} {b : Blk} {i off k : Nat} {v : Word} (hl : s.live) (hi : i < b.count) (ho : off < 4096)
    (h4 : off % 4 = 0) (hk : writeKind s 0 b i off v = k) (h0 : k ≠ 0) (h6 : k ≠ 6) :
    ∃ t : State, exec (.registerWrite 0 (BitVec.ofNat 26 (RegRef.key ⟨b, i, off⟩)) (leBytes 4 v.toNat)) s = .next t.settled ∧
      Quiet (logOf b i) s t ∧
      (s.bit (Reg.HDR.ACC_ERR b i) 24 = false → t.fld (Reg.HDR.ACC_ERR b i) 15 12 = k ∧ t.fld (Reg.HDR.ACC_ERR b i) 11 2 = off / 4 ∧
        t.bit (Reg.HDR.ACC_ERR b i) 24 = true) := by
  have hk16 : k < 16 := by rw [← hk]; unfold writeKind; split <;> split_ifs <;> decide
  refine ⟨(Act.logAcc b i 0 off k).run s, ?_, quiet_logAcc s b i 0 off k, fun hb => ?_⟩
  · have hrun : (hostWrite 0 b i off v false).run s = (Act.logAcc b i 0 off k).run s := by
      simp [hostWrite, hostWriteWith, hk, h0, h6]
    rw [← hrun, ← run_bar0Write_word hi ho h4]
    exact (command_eq hl.2).trans (by rw [toNat_key hi ho]; rfl)
  · obtain ⟨h1, h2, -, -, h5⟩ := logAcc_first (off := off) hl.1.1.1 hi (f := 0) (by omega) hk16 hb
    exact ⟨h1, by rw [h2, Nat.mod_eq_of_lt (by omega)], h5⟩

/-! ### Registers that a full read clears (R8) -/

/-- No RC register has its high half latched when it is read (R59, R380, R449). -/
theorem rc_unlatched {b : Blk} {i off : Nat} {row : RegRow} (hrow : rowAt b i off = some row) (hacc : row.acc = .RC) :
    ¬(b = .TSN ∧ off = 0x050) ∧ ¬(b = .TSC ∧ off = 0x040) ∧ ¬(b = .DISP ∧ off = 0x09C) := by
  have hi := (row_off hrow).1
  refine ⟨?_, ?_, ?_⟩ <;> rintro ⟨rfl, rfl⟩ <;>
    · simp [rowAt, hi, Blk.rows, rowsTSN, rowsTSC, rowsDISP, RegRow.holds] at hrow
      simp [← hrow] at hacc

/-- The counters of a slice that stand beside the registers (R21). -/
theorem rc_cmn {i off : Nat} {row : RegRow} (hrow : rowAt .CMN i off = some row) (hacc : row.acc = .RC) (ho : 0x50 ≤ off) :
    off = 0x050 ∨ off = 0x054 ∨ off = 0x058 := by
  have hi := (row_off hrow).1
  have h40 : ¬off < 0x40 := by omega
  simp only [rowAt, hi, if_true, h40, if_false, reduceCtorEq, false_and] at hrow
  have hh := List.find?_some hrow
  have hm := List.mem_of_find?_eq_some hrow
  simp only [RegRow.holds, Bool.and_eq_true, decide_eq_true_eq] at hh
  simp only [Blk.rows, rowsCMN, List.mem_cons, List.not_mem_nil, or_false] at hm
  rcases hm with rfl | rfl | rfl | rfl | rfl | rfl | rfl | rfl | rfl | rfl <;> simp at hacc hh <;> omega

/-- Of a missing element both lists show the default. -/
theorem getD_updAt {α : Type} (f : α → α) (d : α) (i : Nat) (l : List α) :
    (updAt f i l).getD i d = if i < l.length then f (l.getD i d) else d := by
  induction l generalizing i with
  | nil => simp [updAt]
  | cons x l ih =>
    cases i with
    | zero => simp [updAt]
    | succ i => simpa [updAt] using ih i

theorem regRead_cmn_cleared (s : State) (i off : Nat) (ho : off = 0x050 ∨ off = 0x054 ∨ off = 0x058) :
    ((cmnReadClear i off).run s).regRead .CMN i off = 0 := by
  have hx : let x := ((cmnReadClear i off).run s).hw.cmn.getD i {}
      (off = 0x050 → x.rd = 0) ∧ (off = 0x054 → x.wr = 0) ∧ (off = 0x058 → x.busy = 0) := by
    simp only [cmnReadClear, run_hw, mapHw_hw]
    rw [getD_updAt]
    split <;> simp +contextual [CmnSt.cleared]
  obtain ⟨h1, h2, h3⟩ := hx
  unfold State.regRead
  split
  · rcases ho with rfl | rfl | rfl <;> simp_all [regComputed, cmnComputed]
  · rfl

theorem regRead_memc_cleared (s : State) (i off : Nat) (ho : off = 0x054 ∨ off = 0x058) :
    ((memcReadClear i off).run s).regRead .MEMC i off = 0 := by
  have hx : let x := ((memcReadClear i off).run s).hw.memc.getD i {}
      (off = 0x054 → x.rd = 0) ∧ (off = 0x058 → x.wr = 0) := by
    simp only [memcReadClear, Act.memc, run_hw, mapHw_hw]
    rw [getD_updAt]
    split <;> simp +contextual
  obtain ⟨h1, h2⟩ := hx
  unfold State.regRead
  split
  · rcases ho with rfl | rfl <;> simp_all [regComputed, memcComputed]
  · rfl

/-- The third part of O10: a full read of an RC register returns its value and clears it. -/
theorem readClear_clears {s : State} {b : Blk} {i off : Nat} {row : RegRow} (hl : s.live) (hrow : rowAt b i off = some row)
    (hacc : row.acc = .RC) (h4 : off % 4 = 0) :
    ∃ t : State, exec (.readClear 0 (BitVec.ofNat 26 (RegRef.key ⟨b, i, off⟩))) s = .next t.settled ∧
      t.out = s.out ++ [.readData 0 (leBytes 4 (s.regRead b i off).toNat) false] ∧
      ((b = .CMN ∧ 0x050 ≤ off) ∧ t.regRead b i off = 0 ∧ t.regs = s.regs ∧ (∃ c, t.hw = { s.hw with cmn := c }) ∨
        (b = .MEMC ∧ (off = 0x054 ∨ off = 0x058)) ∧ t.regRead b i off = 0 ∧ t.regs = s.regs ∧ (∃ m, t.hw = { s.hw with memc := m }) ∨
        ¬(b = .CMN ∧ 0x050 ≤ off) ∧ ¬(b = .MEMC ∧ (off = 0x054 ∨ off = 0x058)) ∧ t.rd (regAt b i off) = 0 ∧
          SameRegs [regAt b i off] s t ∧ t.hw = s.hw) ∧
      t.mem = s.mem ∧ t.es = s.es ∧ t.tsc = s.tsc := by
  obtain ⟨hi, ho⟩ := row_off hrow
  obtain ⟨hn1, hn2, hn3⟩ := rc_unlatched hrow hacc
  have hlatch : (readLatch b i off).run s = s := by
    rw [readLatch, run_when, if_neg (by simpa using hn1)]
  have hrun := run_bar0Read_word hi ho h4 s
  simp only [hlatch] at hrun
  have hexec : exec (.readClear 0 (BitVec.ofNat 26 (RegRef.key ⟨b, i, off⟩))) s =
      .next (((readEffect b i off).run s).emit (.readData 0 (leBytes 4 (s.regRead b i off).toNat) false)).settled := by
    rw [← hrun]
    exact (command_eq hl.2).trans (by rw [toNat_key hi ho]; rfl)
  have heff : (readEffect b i off).run s = (if b = .CMN ∧ 0x050 ≤ off then cmnReadClear i off
      else if b = .MEMC ∧ (off = 0x054 ∨ off = 0x058) then memcReadClear i off else .wr (regAt b i off) 0).run s := by
    simp only [readEffect, run_get, if_neg hn2, if_neg hn3, hrow, hacc, decide_true, run_when, if_true]
  refine ⟨_, hexec, ?_⟩
  rw [heff]
  by_cases hc : b = .CMN ∧ 0x050 ≤ off
  · rw [if_pos hc]
    obtain ⟨rfl, hc'⟩ := hc
    exact ⟨rfl, .inl ⟨⟨rfl, hc'⟩, regRead_cmn_cleared s i off (rc_cmn hrow hacc hc'), rfl, _, rfl⟩, rfl, rfl, rfl⟩
  · rw [if_neg hc]
    by_cases hm : b = .MEMC ∧ (off = 0x054 ∨ off = 0x058)
    · rw [if_pos hm]
      obtain ⟨rfl, hm'⟩ := hm
      exact ⟨rfl, .inr (.inl ⟨⟨rfl, hm'⟩, regRead_memc_cleared s i off hm', rfl, _, rfl⟩), rfl, rfl, rfl⟩
    · rw [if_neg hm]
      refine ⟨rfl, .inr (.inr ⟨hc, hm, ?_, (quiet_setReg s _ 0).regs, rfl⟩), rfl, rfl, rfl⟩
      exact (rd_setReg_same hl.1.1.1 _ 0).trans (BitVec.zero_and)

/-- Settles O10. -/
theorem registerWriteAndReadClear : Obligations.RegisterWriteAndReadClear := by
  refine ⟨fun s b i off row v hl hb hrow ho hacc hsh h4 => registerWrite_plain v hl hb hrow ho hacc hsh h4, ?_,
    fun s b i off row hl hrow hacc h4 => readClear_clears hl hrow hacc h4⟩
  intro s f b i off k v hl ⟨hf, hi⟩ ho h4 hk h0 h6 hp
  obtain rfl : f = 0 := Fin.ext hf
  exact registerWrite_dropped hl hi ho h4 hk h0 h6

/-! ### Accesses that reach no register (R679, R681, R682) -/

theorem mask_unpopLog : RegRef.mask Reg.HOST.UNPOP_LOG = 0xFFFFFFFF := by decide +kernel

/-- What UNPOP_LOG holds after an access to an unpopulated slot (R682). -/
theorem rd_unpopulated {s : State} (hs : keysRise s.regs) (slot : Nat) (isRead : Bool) :
    ∃ first n : Nat, ((unpopulated slot isRead).run s).rd Reg.HOST.UNPOP_LOG = BitVec.ofNat 32 (first + 32768 + 65536 * n) ∧
      n ≤ 65535 ∧ (slot < 16384 → first < 32768) ∧
      (s.bit Reg.HOST.UNPOP_LOG 15 = false → first = slot + 16384 * b2n isRead ∧ n = 1) := by
  have hk : ∀ r ∈ irqOf .HOST 0, r.key ≠ Reg.HOST.UNPOP_LOG.key := by decide
  refine ⟨if s.bit Reg.HOST.UNPOP_LOG 15 then bits (s.rd Reg.HOST.UNPOP_LOG) 14 0 else slot + 16384 * b2n isRead,
    if s.bit Reg.HOST.UNPOP_LOG 15 then min (bits (s.rd Reg.HOST.UNPOP_LOG) 31 16 + 1) 65535 else 1, ?_, ?_, ?_, ?_⟩
  · simp only [unpopulated, run_get, run_seq, run_wrN]
    rw [(quiet_raise _ .HOST 0 3).regs _ (by decide), rd_setReg_same hs, mask_unpopLog,
      show (0xFFFFFFFF : Word) = BitVec.allOnes 32 from rfl, BitVec.and_allOnes]
    rfl
  · split <;> omega
  · intro h
    have h1 : bits (s.rd Reg.HOST.UNPOP_LOG) 14 0 < 2 ^ 15 := Nat.mod_lt _ (by decide)
    split
    · exact h1
    · cases isRead <;> simp [b2n] <;> omega
  · intro h; simp [h]

/-- UNPOPULATED_ACCESS: the log, source 23, and all ones for a read. -/
theorem unpopulatedAccess_effect {s : State} {a : BitVec 26} (isRead : Bool) (hl : s.live)
    (hp : pageAt (a.toNat / 4096) = none) (h30 : a.toNat / 4096 ≠ 0x30) (h31 : a.toNat / 4096 ≠ 0x31) :
    ∃ t : State, exec (.unpopulatedAccess a isRead) s = .next t ∧
      t.out = s.out ++ (if isRead then [.readData 0 (List.replicate 4 0xFF) false] else []) ∧
      t.bit Reg.HOST.UNPOP_LOG 15 = true ∧ t.bit (Reg.HDR.IRQ_PEND .HOST 0) 3 = true ∧
      (s.bit Reg.HOST.UNPOP_LOG 15 = false → t.fld Reg.HOST.UNPOP_LOG 13 0 = a.toNat / 4096 ∧
        t.fld Reg.HOST.UNPOP_LOG 31 16 = 1 ∧ t.bit Reg.HOST.UNPOP_LOG 14 = isRead) ∧
      SameRegs (Reg.HOST.UNPOP_LOG :: irqOf .HOST 0) s t ∧ t.mem = s.mem ∧ t.es = s.es ∧ t.tsc = s.tsc := by
  have hslot : a.toNat / 4096 < 16384 := by have := a.isLt; omega
  have hexec : exec (.unpopulatedAccess a isRead) s = .next ((unpopulatedAct (a.toNat / 4096) isRead).run s) := simply_eq hl.2
  generalize a.toNat / 4096 = slot at *
  have hq : Quiet (Reg.HOST.UNPOP_LOG :: irqOf .HOST 0) s ((unpopulated slot isRead).run s) := by
    simp only [unpopulated, run_get, run_seq, run_wrN]
    exact ((quiet_setReg _ _ _).mono (by simp)).trans ((quiet_raise _ .HOST 0 3).mono (by simp [irqOf]))
  have hpend : ((unpopulated slot isRead).run s).bit (Reg.HDR.IRQ_PEND .HOST 0) 3 = true := by
    simp only [unpopulated, run_get, run_seq, run_wrN]
    exact bit_raise (keysRise_setReg hl.1.1.1 _ _) (by decide) (by decide)
  obtain ⟨first, n, hrd, hn, hfirst, h1⟩ := rd_unpopulated hl.1.1.1 slot isRead
  have hf := hfirst hslot
  have hw : (BitVec.ofNat 32 (first + 32768 + 65536 * n)).toNat = first + 32768 + 65536 * n := by
    rw [BitVec.toNat_ofNat]; omega
  have h15 : ((unpopulated slot isRead).run s).bit Reg.HOST.UNPOP_LOG 15 = true := by
    rw [State.bit, hrd, BitVec.getLsbD, hw, Nat.testBit_eq_decide_div_mod_eq]
    exact decide_eq_true (by omega)
  have hfld : s.bit Reg.HOST.UNPOP_LOG 15 = false → ((unpopulated slot isRead).run s).fld Reg.HOST.UNPOP_LOG 13 0 = slot ∧
      ((unpopulated slot isRead).run s).fld Reg.HOST.UNPOP_LOG 31 16 = 1 ∧
      ((unpopulated slot isRead).run s).bit Reg.HOST.UNPOP_LOG 14 = isRead := fun h => by
    obtain ⟨rfl, rfl⟩ := h1 h
    rw [State.fld, State.fld, State.bit, hrd, bits, bits, BitVec.getLsbD, hw, Nat.testBit_eq_decide_div_mod_eq,
      Nat.shiftRight_eq_div_pow, Nat.shiftRight_eq_div_pow]
    refine ⟨?_, ?_, ?_⟩ <;> cases isRead <;> simp [b2n] <;> omega
  have hrun : (unpopulatedAct slot isRead).run s =
      if isRead then ((unpopulated slot isRead).run s).emit (.readData 0 (List.replicate 4 0xFF) false)
      else (unpopulated slot isRead).run s := by
    simp [unpopulatedAct, hp, h30, h31]
  refine ⟨_, hexec, ?_⟩
  rw [hrun]
  cases isRead with
  | false => exact ⟨by simp [hq.out], h15, hpend, hfld, hq.regs, hq.mem, hq.es, hq.tsc⟩
  | true => exact ⟨by simp [hq.out], h15, hpend, hfld, hq.regs, hq.mem, hq.es, hq.tsc⟩

theorem mask_caCnt : RegRef.mask Reg.HOST.CA_CNT = BitVec.allOnes 32 := by decide +kernel

/-- Settles O11. -/
theorem invalidAccesses : Obligations.InvalidAccesses := by
  refine ⟨fun s a isRead hl hp h30 h31 => unpopulatedAccess_effect isRead hl hp h30 h31, ?_, ?_⟩
  · intro s a n hl ha hn hc
    have hrun : (bar0Read 0 a.toNat n).run s = ((Act.bump Reg.HOST.CA_CNT 1).run s).emit (.completerAbort 0) := by
      simp only [bar0Read, if_pos (And.intro ha hn)]; rfl
    have hb : (Act.bump Reg.HOST.CA_CNT 1).run s = s.setReg Reg.HOST.CA_CNT (BitVec.ofNat 32 ((s.rd Reg.HOST.CA_CNT).toNat + 1)) := by
      simp only [Act.bump, run_get]; rw [if_pos (by omega)]; rfl
    refine ⟨((Act.bump Reg.HOST.CA_CNT 1).run s).emit (.completerAbort 0), by rw [← hrun]; exact simply_eq hl.2, ?_⟩
    rw [hb]
    refine ⟨rfl, ?_, (quiet_setReg _ _ _).regs, rfl, rfl, rfl, rfl⟩
    rw [rd_emit, rd_setReg_same hl.1.1.1, mask_caCnt, BitVec.and_allOnes, BitVec.toNat_ofNat]
    omega
  · intro s f off n hl hbad
    have hrun : (bar2InvalidAct f off.toNat n).run s = (Act.logAcc .FUNC f f (off.toNat % 4096)
        (if 0x4000 ≤ off.toNat then 1 else if n < 4 then 2 else 1)).run s := by
      unfold bar2InvalidAct
      by_cases h1 : 0x4000 ≤ off.toNat
      · simp [h1]
      · by_cases h2 : n < 4
        · simp [h1, h2]
        · have h3 : ¬(off.toNat % 64 = 0 ∨ off.toNat % 64 = 4) := by tauto
          simp [h1, h2, h3]
    have hi : f.val < Blk.count .FUNC := f.isLt
    generalize hk : (if 0x4000 ≤ off.toNat then 1 else if n < 4 then 2 else 1) = kind at hrun
    have hk16 : kind < 16 := by rw [← hk]; split_ifs <;> decide
    refine ⟨(Act.logAcc .FUNC f f (off.toNat % 4096) kind).run s, by rw [← hrun]; exact simply_eq hl.2,
      quiet_logAcc _ _ _ _ _ _, fun hb => ?_⟩
    obtain ⟨h1, -, h3, h4, -⟩ := logAcc_first (off := off.toNat % 4096) hl.1.1.1 hi f.isLt hk16 hb
    exact ⟨h1, h3, h4⟩

end Sys2Proof.Machine

namespace Sys2Proof.Machine

-- One theorem after the other: elaborated side by side, they hold more threads than the memory limit of a check allows.
set_option Elab.async false

/-! ### The commons through BAR4 (R680) -/

/-- Refutes O12: a BAR4 read of no bytes at an address inside a word touches no slice, so that the word listed as uncorrectable is
not found, while the last part promises the poisoned-data indication for it (word 0, read of 0 bytes at address 1). -/
theorem not_commonsAccess : ¬ Obligations.CommonsAccess := by
  rintro ⟨-, h⟩
  have hinj : ∀ c < 16, State.reset.rd (Reg.CMN.INJECT c) = 0 := by decide +kernel
  obtain ⟨t, hexec, hout, -⟩ := (h State.reset 1 0 ⟨resetIsSound, rfl⟩ hinj).2 0 (by decide) (by decide) (by decide)
  have hs : ((bar4ReadAct 1 0 [(0, .uncorr)]).run State.reset).settled = t.settled :=
    Host.Outcome.next.inj ((command_eq (a := bar4ReadAct 1 0 [(0, .uncorr)]) (s := State.reset) rfl).symm.trans hexec)
  have hread : ((bar4ReadAct 1 0 [(0, .uncorr)]).run State.reset).settled.out = [.readData 0 [] false] := by decide +kernel
  have hpre : t.out <+: t.settled.out := run_out_prefix _ _
  rw [← hs, hread, hout] at hpre
  exact absurd hpre (by decide +kernel)

/-! ### Registers of the page header -/

/-- Header registers reset to 0; no other register shares their place in a page. -/
theorem resetVal_header {r : RegRef} (h : r.off % 4096 < 0x40) : r.resetVal = 0 := by
  have H : ∀ w ∈ headerRows, w.reset = 0 := by decide
  have hrow : ∀ w, r.row = some w → w.reset = 0 := fun w hw => by
    have ho := (row_off hw).2
    have h40 : r.off < 0x40 := by omega
    simp only [RegRef.row, rowAt, h40, if_true] at hw
    split at hw
    · exact H w (List.mem_of_find?_eq_some hw)
    · cases hw
  have hm : (match r.row with | some w => w.reset | none => (0 : Word)) = 0 := by
    split
    next w hw => exact hrow w hw
    · rfl
  unfold RegRef.resetVal
  split
  · omega
  · omega
  · omega
  · rw [if_neg (by omega)]; exact hm
  · exact hm

/-- A word without reserved bits is its own part that exists. -/
theorem and_mask_of_reserved {w m : Word} (h : w &&& ~~~m = 0) : w &&& m = w := by
  have hw : w = w &&& m ||| w &&& ~~~m := by rw [← BitVec.and_or_distrib_left, BitVec.or_not_self, BitVec.and_allOnes]
  rw [h] at hw
  exact (hw.trans BitVec.or_zero).symm

/-- Storing a header register's own value changes no register. -/
theorem sameRegs_setReg_self {s : State} (hs : s.sound) {r : RegRef} (hr : r.row.isSome) (ho : r.off % 4096 < 0x40) :
    SameRegs [] s (s.setReg r (s.rd r)) := by
  intro q _
  have hv : s.rd r &&& r.mask = s.rd r := and_mask_of_reserved (rd_reserved hs.1 r hr)
  by_cases hk : r.key = q.key
  · have hq : q.off % 4096 < 0x40 := by unfold RegRef.key at hk; omega
    have hsame (u : State) : u.rd q = u.rd r := by
      simp only [State.rd, hk, resetVal_header hq, resetVal_header ho]
    rw [hsame, hsame, rd_setReg_same hs.1.1, hv]
  · exact rd_setReg_ne _ hk

/-! ### The driver locks (R686, R687) -/

theorem mask_lockResult : RegRef.mask Reg.TOP.LOCK_RESULT = 0x0000FF03 := by decide +kernel

theorem mask_lockOwner {b : Blk} {i : Nat} (h : i < b.count) : RegRef.mask (Reg.HDR.LOCK_OWNER b i) = 3 := by
  simp [RegRef.mask, RegRef.row, rowAt, h, headerRows, RegRow.holds]

/-- The journal leaves a register alone that stands at none of its registers' offsets. -/
theorem Journaled.rd_of_off {s t : State} (h : Journaled s t) {r : RegRef}
    (ho : r.off % 4096 ∉ ((hostTrail .TOP 0).tail.map fun q => q.off % 4096)) : t.rd r = s.rd r := by
  refine h.regs r fun hm => ?_
  obtain ⟨q, hq, hk⟩ := List.mem_map.1 hm
  exact key_ne_of_off (fun he => ho (List.mem_map.2 ⟨q, hq, he⟩)) hk

/-- Setting a lock (R686): the bit is set, and the registers of the lock's report and of the journal alone may differ beside. -/
theorem setLock_effect {s : State} (hs : keysRise s.regs) {b : Blk} {i : Nat} (hi : i < b.count) (f w : Nat) :
    let t := (setLock b i 0 true f w).run s
    t.bit (Reg.HDR.LOCK_OWNER b i) 0 = true ∧ t.es = s.es ∧ t.tsc = s.tsc ∧ t.out = s.out := by
  simp only [setLock, run_get, run_when]
  split
  next hb =>
    rw [run_all_cons, run_all_cons, run_all_cons, run_all_cons, run_all_nil, run_get, run_setFld, run_orReg]
    generalize hu : (Act.raise .TOP 0 1).run _ = u
    have hj := journaled_journal u (f + 32) (b.slot + i) 0x034 (s.rd (Reg.HDR.LOCK_OWNER b i)).toNat
      (u.rd (Reg.HDR.LOCK_OWNER b i)).toNat w
    have hq := quiet_raise ((s.setReg (Reg.HDR.LOCK_OWNER b i) (setBits (s.rd (Reg.HDR.LOCK_OWNER b i)) 0 0 (b2n true))).setReg
      Reg.TOP.TOP_EVENTS (((s.setReg (Reg.HDR.LOCK_OWNER b i) (setBits (s.rd (Reg.HDR.LOCK_OWNER b i)) 0 0 (b2n true))).rd
        Reg.TOP.TOP_EVENTS) ||| 2)) .TOP 0 1
    rw [hu] at hq
    have hbit : u.bit (Reg.HDR.LOCK_OWNER b i) 0 = true := by
      have hne : u.rd (Reg.HDR.LOCK_OWNER b i) = setBits (s.rd (Reg.HDR.LOCK_OWNER b i)) 0 0 (b2n true) &&& 3 := by
        rw [hq.regs _ (fun hm => ?_), rd_setReg_ne _ (key_ne_of_off (by simp)), rd_setReg_same hs, mask_lockOwner hi]
        simp only [List.map_cons, List.map_nil, List.mem_cons, List.not_mem_nil, or_false] at hm
        rcases hm with hm | hm <;> exact key_ne_of_off (by simp) hm
      rw [State.bit, hne, BitVec.getLsbD_and, getLsbD_setBits]; rfl
    refine ⟨?_, hj.es.trans hq.es, hj.tsc.trans hq.tsc, hj.out.trans hq.out⟩
    rw [State.bit, hj.rd_of_off (by simp [hostTrail]), ← State.bit, hbit]
  next hb =>
    refine ⟨?_, rfl, rfl, rfl⟩
    simpa [State.bit] using hb

/-- Settles O13. -/
theorem lockCommand : Obligations.LockCommand := by
  intro s v hl hacc
  obtain ⟨row, -, hj⟩ := hostReg_accepted hacc
  have hbw : blockWrite 0 .TOP 0 0x050 (s.hostOld Reg.TOP.LOCK_CMD) v = lockCmdAct 0 v := rfl
  rw [hbw] at hj
  have hexec : exec (.lockCmd 0 v) s = .next ((hostReg 0 Reg.TOP.LOCK_CMD v).run s) := simply_eq hl.2
  have hrise : keysRise (s.hostStored Reg.TOP.LOCK_CMD row v).regs := keysRise_hostStored hl.1.1.1 _ _ _
  refine ⟨fun hkey => ⟨_, hexec, ?_, fun b i => ?_⟩, fun b i hkey hp hlock => ⟨_, hexec, ?_⟩⟩
  all_goals unfold lockCmdAct at hj
  · rw [if_pos hkey] at hj
    rw [hj.rd_of_off (by simp [hostTrail]), run_wrN, rd_setReg_same hrise, mask_lockResult]
    rfl
  · rw [if_pos hkey] at hj
    rw [hj.rd_of_off (by simp [hostTrail]), run_wrN, rd_setReg_ne _ (key_ne_of_off (by simp)),
      hostStored_regs s Reg.TOP.LOCK_CMD row v _ (fun hm => ?_)]
    simp only [List.map_cons, List.map_nil, List.mem_cons, List.not_mem_nil, or_false] at hm
    rcases hm with hm | hm
    · exact key_ne_of_off (r' := regAt .TOP 0 0x050) (by rw [show (regAt .TOP 0 0x050).off = 0x050 by decide +kernel]; simp) hm
    · exact key_ne_of_off (by simp) hm
  · rw [if_neg (not_not.2 hkey), hp] at hj
    simp only [hlock, if_true, run_seq, run_wrN] at hj
    obtain ⟨hbit, hes, htsc, hout⟩ := setLock_effect hrise (lt_count_of_pageAt hp) 0 v.toNat
    have hown : ((hostReg 0 Reg.TOP.LOCK_CMD v).run s).bit (Reg.HDR.LOCK_OWNER b i) 0 = true := by
      rw [State.bit, hj.rd_of_off (by simp [hostTrail]), rd_setReg_ne _ (key_ne_of_off (by simp)), ← State.bit, hbit]
    refine ⟨?_, ?_, hown, ?_, ?_, ?_⟩
    · rw [hj.rd_of_off (by simp [hostTrail]), rd_setReg_same (rise_run _ hrise), mask_lockResult]
      rfl
    · rw [State.locked, bne_iff_ne]
      intro h0
      rw [State.bit, h0] at hown
      exact absurd hown (by decide)
    · exact hj.es.trans (hes.trans (hostStored_es ..))
    · exact hj.tsc.trans (htsc.trans (hostStored_tsc ..))
    · exact hj.out.trans (hout.trans (hostStored_out ..))

/-! ### The interrupt header (R683) -/

theorem mask_irqMask {b : Blk} {i : Nat} (h : i < b.count) : RegRef.mask (Reg.HDR.IRQ_MASK b i) = 0xFFFFFFFF := by
  simp [RegRef.mask, RegRef.row, rowAt, h, headerRows, RegRow.holds]

/-- Set and read: a page's IRQ_PEND and IRQ_MASK. -/
theorem rd_setIrq {s : State} (hs : keysRise s.regs) {b : Blk} {i : Nat} (hi : i < b.count) (p m : Word) :
    ((Act.setIrq b i p m).run s).rd (Reg.HDR.IRQ_PEND b i) = p ∧ ((Act.setIrq b i p m).run s).rd (Reg.HDR.IRQ_MASK b i) = m := by
  have hne : (Reg.HDR.IRQ_MASK b i).key ≠ (Reg.HDR.IRQ_PEND b i).key := key_ne_of_off (by simp)
  have hm (w : Word) : w &&& 0xFFFFFFFF = w := BitVec.and_allOnes
  refine ⟨?_, ?_⟩
  · calc _ = ((s.setReg (Reg.HDR.IRQ_PEND b i) p).setReg (Reg.HDR.IRQ_MASK b i) m).rd (Reg.HDR.IRQ_PEND b i) := rfl
      _ = p := by rw [rd_setReg_ne _ hne, rd_setReg_same hs, mask_irqPend hi, hm]
  · calc _ = ((s.setReg (Reg.HDR.IRQ_PEND b i) p).setReg (Reg.HDR.IRQ_MASK b i) m).rd (Reg.HDR.IRQ_MASK b i) := rfl
      _ = m := by rw [rd_setReg_same (keysRise_setReg hs _ _), mask_irqMask hi, hm]

/-- The store of a write to one of the four registers leaves all but the write's count. -/
theorem sameRegs_hostStored_irq {s : State} (hs : s.sound) {b : Blk} {i off : Nat} {row : RegRow} (v : Word)
    (hrow : rowAt b i off = some row) (ho : off ∈ [0x014, 0x018, 0x020, 0x024]) :
    SameRegs [Reg.HDR.WRITE_COUNT b i] s (s.hostStored ⟨b, i, off⟩ row v) := by
  have hi := (row_off hrow).1
  have hrow' : row.acc = .WO ∧ row.shared = false ∧ behindSel b off = false ∧ off < 0x40 := by
    simp only [List.mem_cons, List.not_mem_nil, or_false] at ho
    rcases ho with rfl | rfl | rfl | rfl <;> simp [rowAt, hi, headerRows, RegRow.holds] at hrow <;> subst hrow <;>
      exact ⟨rfl, rfl, by cases b <;> rfl, by decide⟩
  obtain ⟨hacc, hsh, hsel, h40⟩ := hrow'
  have hq : regAt b i off = ⟨b, i, off⟩ := by simp [regAt, hrow, hsh]
  have hst (x : Word) : storedValue row x v = x := by simp [storedValue, hacc]
  intro r hr
  simp only [State.hostStored, hsel, Bool.false_eq_true, if_false, hq, hst]
  rw [rd_setReg_ne _ (fun h => hr (by simp [h])), sameRegs_setReg_self hs (by rw [RegRef.row, hrow]; rfl)
    (show off % 4096 < 0x40 by omega) r (by simp)]

/-- A write to one of the four registers sets the page's IRQ_PEND and IRQ_MASK to what `headerWrite` makes of them. -/
theorem irqHeader_effect {s : State} {slot : BitVec 14} {b : Blk} {i off : Nat} {v p m : Word} (hl : s.live)
    (hp : pageAt slot.toNat = some (b, i)) (hc : b ≠ .CMP) (hj : b ≠ .JRNL) (ho : off ∈ [0x014, 0x018, 0x020, 0x024])
    (hw : ∀ u : State, u.rd (Reg.HDR.IRQ_PEND b i) = s.rd (Reg.HDR.IRQ_PEND b i) →
      u.rd (Reg.HDR.IRQ_MASK b i) = s.rd (Reg.HDR.IRQ_MASK b i) → (headerWrite b i off v).run u = (Act.setIrq b i p m).run u) :
    let t := (headerSlot 0 slot.toNat off v).run s
    t.rd (Reg.HDR.IRQ_PEND b i) = p ∧ t.rd (Reg.HDR.IRQ_MASK b i) = m ∧ SameRegs (irqOf b i ++ hostTrail b i) s t := by
  have hi := lt_count_of_pageAt hp
  have h40 : off < 0x40 := by revert ho; simp; omega
  have hrow0 : ∃ row, rowAt b i off = some row ∧ row.acc = .WO := by
    simp only [List.mem_cons, List.not_mem_nil, or_false] at ho
    rcases ho with rfl | rfl | rfl | rfl <;> simp [rowAt, hi, headerRows, RegRow.holds]
  obtain ⟨row, hrow, hwo⟩ := hrow0
  have hk : writeKind s 0 b i off v = 0 := by simp [writeKind, hrow, hwo, blockDrops, h40]
  obtain ⟨row', hrow', hjr⟩ := hostReg_accepted (s := s) (f := 0) (r := ⟨b, i, off⟩) (v := v)
    (by simp only [State.accepts, hk]; rfl)
  obtain rfl : row = row' := Option.some.inj (hrow.symm.trans hrow')
  have hst := sameRegs_hostStored_irq hl.1 v hrow ho
  have hbw : blockWrite 0 b i off (s.hostOld ⟨b, i, off⟩) v = headerWrite b i off v := by
    unfold blockWrite; exact if_pos h40
  have hpe : (Reg.HDR.IRQ_PEND b i).key ∉ [Reg.HDR.WRITE_COUNT b i].map RegRef.key := by simp [RegRef.key]
  have hma : (Reg.HDR.IRQ_MASK b i).key ∉ [Reg.HDR.WRITE_COUNT b i].map RegRef.key := by simp [RegRef.key]
  rw [hbw, hw _ (hst _ hpe) (hst _ hma)] at hjr
  obtain ⟨h1, h2⟩ := rd_setIrq (keysRise_hostStored hl.1.1.1 ⟨b, i, off⟩ row v) hi p m
  have hrun : (headerSlot 0 slot.toNat off v).run s = (hostReg 0 ⟨b, i, off⟩ v).run s := by rw [headerSlot, hp]
  rw [hrun]
  refine ⟨?_, ?_, fun r hr => ?_⟩
  · rw [hjr.rd hi (by simp) hj hc, h1]
  · rw [hjr.rd hi (by simp) hj hc, h2]
  · simp only [irqOf, hostTrail, List.map_append, List.map_cons, List.map_nil, List.mem_append, List.mem_cons, List.not_mem_nil,
      or_false, not_or] at hr
    rw [hjr.regs r (by simp [hostTrail, hr]), (quiet_setIrq _ b i p m).regs r (by simp [hr]), hst r (by simp [hr])]

/-- Settles O14: the four registers, each by its branch of `headerWrite`. -/
theorem interruptHeader : Obligations.InterruptHeader := by
  intro s slot v b i hl hp hc hj
  have hexec (off : Nat) (c : Instr) (h : exec c s = simply (headerSlot 0 slot.toNat off v) s) :
      exec c s = .next ((headerSlot 0 slot.toNat off v).run s) := h.trans (simply_eq hl.2)
  refine ⟨⟨_, hexec 0x014 _ rfl, ?_⟩, ⟨_, hexec 0x018 _ rfl, ?_⟩, ⟨_, hexec 0x020 _ rfl, ?_⟩, ⟨_, hexec 0x024 _ rfl, ?_⟩⟩
  · exact irqHeader_effect hl hp hc hj (by simp) fun u h1 h2 => by simp [headerWrite, h1, h2]
  · exact irqHeader_effect hl hp hc hj (by simp) fun u h1 h2 => by simp [headerWrite, h1, h2]
  · obtain ⟨h1, h2, h3⟩ := irqHeader_effect hl hp hc hj (off := 0x020) (v := v) (by simp) fun u h1 h2 => by
      simp only [headerWrite, run_get, h1, h2]; rfl
    exact ⟨h2, h1, h3⟩
  · obtain ⟨h1, h2, h3⟩ := irqHeader_effect hl hp hc hj (off := 0x024) (v := v) (by simp) fun u h1 h2 => by
      simp only [headerWrite, run_get, h1, h2]; rfl
    exact ⟨h2, h1, h3⟩

end Sys2Proof.Machine

/-! ## Proofs: time and the commons (01_organisation)

CLR_COARSE, TSC_LO_READ and TSC_SLEEP_TICK (O15), the scrub of the commons (O16). -/

namespace Sys2Proof.Machine

-- One theorem after the other: elaborated side by side, they hold more threads than the memory limit of a check allows.
set_option Elab.async false

/-! ### The time-stamp counter (R55, R56, R59) -/

theorem mask_tscStatus : RegRef.mask Reg.TSC.TSC_STATUS = 0x0000000F := by decide +kernel

/-- Clearing COARSE (R56): the bit is 0, and source 38 is raised when it was 1. -/
theorem setCoarse_false_effect {s : State} (hs : keysRise s.regs) :
    let t := (setCoarse false).run s
    t.bit Reg.TSC.TSC_STATUS 0 = false ∧
      (s.bit Reg.TSC.TSC_STATUS 0 = true → t.bit (Reg.HDR.IRQ_PEND .AON 0) 6 = true) := by
  simp only [setCoarse, run_get, run_when, run_seq, run_setFld]
  split
  next h =>
    refine ⟨?_, fun _ => bit_raise (keysRise_setReg hs _ _) (by decide) (by decide)⟩
    rw [State.bit, (quiet_raise _ .AON 0 6).regs _ (by decide), rd_setReg_same hs, BitVec.getLsbD_and, getLsbD_setBits]
    rfl
  next h =>
    have hb : s.bit Reg.TSC.TSC_STATUS 0 = false := by simpa using h
    exact ⟨hb, fun h1 => absurd (h1.symm.trans hb) (by decide)⟩

/-- The store of TSC_CMD leaves TSC_STATUS. -/
theorem rd_hostStored_tscStatus (s : State) (row : RegRow) (v : Word) :
    (s.hostStored Reg.TSC.TSC_CMD row v).rd Reg.TSC.TSC_STATUS = s.rd Reg.TSC.TSC_STATUS := by
  have hk : Reg.TSC.TSC_STATUS.key ∉ [regAt .TSC 0 0x054, Reg.HDR.WRITE_COUNT .TSC 0].map RegRef.key := by decide
  exact hostStored_regs s Reg.TSC.TSC_CMD row v _ hk

/-- Settles O15. -/
theorem timeCommands : Obligations.TimeCommands := by
  refine ⟨fun s v hl hacc hv hst => ?_, fun s hl => ?_, fun s hl hst => ?_⟩
  · obtain ⟨row, -, hj⟩ := hostReg_accepted hacc
    have hv0 : (v ||| 2).getLsbD 0 = false := by rw [BitVec.getLsbD_or, hv]; rfl
    have hv1 : (v ||| 2).getLsbD 1 = true := by rw [BitVec.getLsbD_or]; simp
    have hrun : (blockWrite 0 .TSC 0 0x054 (s.hostOld Reg.TSC.TSC_CMD) (v ||| 2)).run (s.hostStored Reg.TSC.TSC_CMD row (v ||| 2)) =
        (setCoarse false).run (s.hostStored Reg.TSC.TSC_CMD row (v ||| 2)) := by
      have hf : (s.hostStored Reg.TSC.TSC_CMD row (v ||| 2)).fld Reg.TSC.TSC_STATUS 3 2 = 0 := by
        rw [State.fld, rd_hostStored_tscStatus]; exact hst
      rw [blockWrite_tscCmd]
      simp only [tscCmdWrite, clrCoarseAct, run_seq, run_when, run_get, hv0, hv1, hf, Bool.false_eq_true, if_false, if_true,
        beq_self_eq_true]
    rw [hrun] at hj
    obtain ⟨h1, h2⟩ := setCoarse_false_effect (keysRise_hostStored hl.1.1.1 Reg.TSC.TSC_CMD row (v ||| 2))
    have hq : Quiet (Reg.TSC.TSC_STATUS :: irqOf .AON 0) (s.hostStored Reg.TSC.TSC_CMD row (v ||| 2))
        ((setCoarse false).run (s.hostStored Reg.TSC.TSC_CMD row (v ||| 2))) := by
      simp only [setCoarse, run_get, run_when, run_seq, run_setFld]
      split
      · exact ((quiet_setReg _ _ _).mono (by simp)).trans ((quiet_raise _ .AON 0 6).mono (by simp [irqOf]))
      · exact .rfl'
    have hexec : exec (.clrCoarse 0 v) s = .next ((hostReg 0 Reg.TSC.TSC_CMD (v ||| 2)).run s) := simply_eq hl.2
    refine ⟨_, hexec, ?_, ?_, fun hc => ?_, ?_, ?_⟩
    · rw [State.bit, hj.rd (by decide) (by decide) (by decide) (by decide)]; exact h1
    · exact hj.tsc.trans (hq.tsc.trans (hostStored_tsc ..))
    · rw [State.bit, hj.rd (by decide) (by decide) (by decide) (by decide)]
      exact h2 (by rw [State.bit, rd_hostStored_tscStatus]; exact hc)
    · exact hj.es.trans (hq.es.trans (hostStored_es ..))
    · exact hj.out.trans (hq.out.trans (hostStored_out ..))
  · have hrun := run_bar0Read_word (b := .TSC) (i := 0) (off := 0x040) (by decide) (by decide) (by decide) s
    have hlatch : (readLatch .TSC 0 0x040).run s = s := rfl
    have hval : s.regRead .TSC 0 0x040 = s.tsc.setWidth 32 := by
      have hrow : ∃ row, rowAt .TSC 0 0x040 = some row ∧ row.acc ≠ .WO := ⟨_, rfl, by decide⟩
      obtain ⟨row, hr, ha⟩ := hrow
      simp [State.regRead, hr, ha, regComputed]
    simp only [hlatch, hval] at hrun
    have hexec : exec (.tscLoRead 0) s = .next ((hostReadReg 0 Reg.TSC.TSC_LO).run s) := simply_eq hl.2
    refine ⟨_, hexec, ?_⟩
    rw [show (hostReadReg 0 Reg.TSC.TSC_LO).run s = _ from hrun]
    refine ⟨(rd_setReg_same hl.1.1.1 _ _).trans ?_, ?_, (quiet_setReg _ _ _).regs, rfl, rfl, rfl, rfl⟩
    · rw [show RegRef.mask Reg.TSC.TSC_HI = BitVec.allOnes 32 by decide +kernel, BitVec.and_allOnes]
    · simp only [emit_out, BitVec.toNat_setWidth]; rfl
  · refine ⟨_, simply_eq hl.2, ?_⟩
    simp only [tscSleepTickAct, run_get, run_when, hst, beq_self_eq_true, if_true, run_all_cons, run_all_nil, run_upd, apply_tsc, run_hw]
    have hq := quiet_bump ((s.setTsc (BitVec.ofNat 64 (s.now + 30517 + (s.hw.time.sleepFrac.toNat + 37) / 64))).mapHw fun h =>
      { h with time := { h.time with sleepFrac := BitVec.ofNat 6 (s.hw.time.sleepFrac.toNat + 37) } }) Reg.TSC.SLEEP_CYCLES 1
    obtain ⟨e, he⟩ := hq.hw
    refine ⟨?_, ?_, fun r hr => hq.regs r hr, hq.mem, hq.es, hq.out⟩
    · rw [hq.tsc, mapHw_tsc, setTsc_tsc, Nat.add_assoc, BitVec.ofNat_add, State.now, BitVec.ofNat_toNat, BitVec.setWidth_eq]
    · rw [he]
      simp only [mapHw_hw, BitVec.ofNat_add, BitVec.ofNat_toNat, BitVec.setWidth_eq]
      rfl

/-! ### The commons slices (R20 to R22) -/

/-- Of the registers outside the few whose reset value depends on the number of the page, no other shares the address. -/
theorem resetVal_of_key {r q : RegRef} (hr : r.row.isSome) (h0 : r.resetVal = 0) (hk : r.key = q.key)
    (ho : r.off % 4096 ≠ 0x044 ∧ r.off % 4096 ≠ 0x048 ∧ ¬(0x0A0 ≤ r.off % 4096 ∧ r.off % 4096 < 0x0C0)) : q.resetVal = 0 := by
  by_cases hq : q.row.isSome
  · rw [← key_inj hr hq hk]; exact h0
  · have hq0 : q.row = none := by simpa using hq
    have hoff : q.off % 4096 = r.off % 4096 := by unfold RegRef.key at hk; omega
    have hm : (match q.row with | some w => w.reset | none => (0 : Word)) = 0 := by rw [hq0]
    unfold RegRef.resetVal
    split
    · omega
    · omega
    · omega
    · rw [if_neg (by omega)]; exact hm
    · exact hm

/-- Storing 0 in a register that holds 0 changes no register. -/
theorem sameRegs_setReg_zero {s : State} (hs : keysRise s.regs) {r : RegRef} (hr : r.row.isSome) (h0 : r.resetVal = 0)
    (ho : r.off % 4096 ≠ 0x044 ∧ r.off % 4096 ≠ 0x048 ∧ ¬(0x0A0 ≤ r.off % 4096 ∧ r.off % 4096 < 0x0C0)) (hv : s.rd r = 0) :
    SameRegs [] s (s.setReg r 0) := by
  intro q _
  by_cases hk : r.key = q.key
  · have hsame (u : State) : u.rd q = u.rd r := by
      simp only [State.rd, hk, resetVal_of_key hr h0 hk ho, h0]
    rw [hsame, hsame, rd_setReg_same hs, hv]
    exact BitVec.zero_and
  · exact rd_setReg_ne _ hk

theorem SameRegs.trans {l : List RegRef} {s t u : State} (h : SameRegs l s t) (k : SameRegs l t u) : SameRegs l s u :=
  fun r hr => (k r hr).trans (h r hr)

theorem SameRegs.mono {l l' : List RegRef} {s t : State} (h : SameRegs l s t) (hl : l ⊆ l') : SameRegs l' s t :=
  fun r hr => h r fun hm => hr (List.map_subset _ hl hm)

theorem mask_eccCnt (c : Fin 16) : RegRef.mask (Reg.CMN.ECC_CNT c) = 0xFFFFFFFF := by revert c; decide +kernel

theorem inject_row (c : Fin 16) : (RegRef.row (Reg.CMN.INJECT c)).isSome ∧ RegRef.resetVal (Reg.CMN.INJECT c) = 0 := by
  revert c; decide +kernel

/-- What a correctable error found may change (R20, R22). -/
theorem only_cmnEcc_corr (c w : Nat) : (cmnEcc c w .corr).Only (.regs ([Reg.CMN.ECC_CNT c] ++ irqOf .CMN c)) := by
  simp [cmnEcc, irqOf]

theorem only_cmnEcc_uncorr (c w : Nat) :
    (cmnEcc c w .uncorr).Only { Scope.regs ([Reg.CMN.ECC_CNT c, Reg.CMN.ECC_ADDR c] ++ irqOf .CMN c) with poison := True } := by
  simp [cmnEcc, irqOf, Scope.regs]

/-- The scrub reads the word while SCRUB_EN is 1; with no injection waiting it finds what is there (R20, R21). -/
theorem run_commonsScrubAct {s : State} {c w : Nat} {e : EccError} (hen : s.bit (Reg.CMN.CMN_CTRL c) 0 = true)
    (hinj : s.rd (Reg.CMN.INJECT c) = 0) :
    (commonsScrubAct c w e).run s = ((cmnEcc c w e).run s).setReg (Reg.CMN.INJECT c) 0 := by
  have he : s.cmnInjected c e = e := by simp [State.cmnInjected, State.bit, hinj]
  simp only [commonsScrubAct, cmnRead, run_get, run_when, hen, if_true, run_seq, run_wr, he]

/-- A correctable error is counted (R20). -/
theorem fld_cmnEcc_corr {s : State} (hs : keysRise s.regs) (c : Fin 16) (w : Nat) :
    ((cmnEcc c w .corr).run s).fld (Reg.CMN.ECC_CNT c) 15 0 = min (s.fld (Reg.CMN.ECC_CNT c) 15 0 + 1) 65535 := by
  have hrest : ∀ (f : Hw → Hw) (b : Bool), (Act.all [.hw f, .when b (.raise .CMN c 1)]).Only (.regs (irqOf .CMN c)) := by
    simp [irqOf]
  have hfld := fld_satFld (s := (Act.event (.rowErr (36 + c) (w / 128) false)).run s) hs
    (r := Reg.CMN.ECC_CNT c) (hi := 15) (lo := 0) 1 (by omega) (by rw [mask_eccCnt]; rfl)
  refine Eq.trans (congrArg (bits · 15 0) ?_) hfld
  exact (hrest _ _).rd id (by simp [irqOf, RegRef.key]) _

/-- An uncorrectable error is counted, located, raised, and poisons its word (R20). -/
theorem cmnEcc_uncorr_effect {s : State} (hs : s.sound) (c : Fin 16) (w : Nat) :
    let t := (cmnEcc c w .uncorr).run s
    t.fld (Reg.CMN.ECC_CNT c) 31 16 = min (s.fld (Reg.CMN.ECC_CNT c) 31 16 + 1) 65535 ∧
    t.rd (Reg.CMN.ECC_ADDR c) = BitVec.ofNat 32 (0x80000000 + w % 1048576) &&& RegRef.mask (Reg.CMN.ECC_ADDR c) ∧
    t.bit (Reg.HDR.IRQ_PEND .CMN c) 0 = true ∧ t.poisoned (c * 0x100000 + w) = true := by
  intro t
  let u := (Act.event (.rowErr (36 + c) (w / 128) true)).run s
  let v := (Act.satFld (Reg.CMN.ECC_CNT c) 31 16 1).run u
  let x := v.setReg (Reg.CMN.ECC_ADDR c) (BitVec.ofNat 32 (2147483648 + w % 1048576))
  have hu : keysRise u.regs := hs.1.1
  have hv : keysRise v.regs := rise_run _ hu
  have ht : t = (Upd.poison (c * 0x100000 + w)).apply ((Act.raise .CMN c 0).run x) := rfl
  refine ⟨?_, ?_, ?_, ?_⟩
  · have hfld := fld_satFld hu (r := Reg.CMN.ECC_CNT c) (hi := 31) (lo := 16) 1 (by omega) (by rw [mask_eccCnt]; rfl)
    refine Eq.trans (congrArg (bits · 31 16) ?_) hfld
    exact (rd_raise_off (by simp) (by simp)).trans (rd_setReg_off (by simp))
  · exact (rd_raise_off (by simp) (by simp)).trans (rd_setReg_same hv _ _)
  · exact bit_raise (keysRise_setReg hv _ _) c.isLt (by decide)
  · have hp : keysRise ((Act.raise .CMN c 0).run x).poison := (sound_run _ _ (sound_apply (.reg _ _) _ (sound_run _ _
      (sound_run _ _ hs)))).2.2.2.1
    rw [ht, apply_poison, State.poisoned, alFind_alPut_same hp]
    rfl

/-- Settles O16: `cmnEcc` for the two errors, and the injection register that stays 0. -/
theorem commonsScrub : Obligations.CommonsScrub := by
  intro s c w hl hen hinj
  have hs := hl.1.1.1
  obtain ⟨hrow, hreset⟩ := inject_row c
  have hexec (e : EccError) : exec (.commonsScrub c w e) s = .next (((cmnEcc c w.toNat e).run s).setReg (Reg.CMN.INJECT c) 0).settled := by
    rw [← run_commonsScrubAct hen hinj]; exact command_eq hl.2
  have hsame {e : EccError} {l : List RegRef} (hl : (Reg.CMN.INJECT c).key ∉ l.map RegRef.key)
      (h : SameRegs l s ((cmnEcc c w.toNat e).run s)) : SameRegs l s (((cmnEcc c w.toNat e).run s).setReg (Reg.CMN.INJECT c) 0) :=
    h.trans ((sameRegs_setReg_zero (rise_run _ hs) hrow hreset (by simp) ((h _ hl).trans hinj)).mono (by simp))
  obtain ⟨hcnt, haddr, hpend, hpois⟩ := cmnEcc_uncorr_effect hl.1 c w.toNat
  refine ⟨⟨_, hexec .corr, ?_, ?_, ?_, ?_⟩, ⟨_, hexec .uncorr, ?_, ?_, ?_, ?_, ?_, ?_⟩⟩
  · rw [State.fld, rd_setReg_off (by simp)]
    exact fld_cmnEcc_corr hs c w.toNat
  · exact (only_cmnEcc_corr c w.toNat).poison id id s
  · exact (only_cmnEcc_corr c w.toNat).mem id s
  · exact hsame (by simp [RegRef.key, irqOf]) ((only_cmnEcc_corr c w.toNat).frame s).1
  · rw [State.fld, rd_setReg_off (by simp)]; exact hcnt
  · rw [rd_setReg_off (by simp), haddr, Nat.mod_eq_of_lt (by omega)]
  · rw [State.bit, rd_setReg_off (by simp)]; exact hpend
  · exact hpois
  · exact (only_cmnEcc_uncorr c w.toNat).mem id s
  · exact hsame (by simp [RegRef.key, irqOf]) ((only_cmnEcc_uncorr c w.toNat).sameRegs id (fun _ h => h) s)

end Sys2Proof.Machine

/-! ## Proofs: Fakan peer links (15_fakan_peer_links)

A port comes up and goes down (O19), flits and lanes (O20), the group of devices (O21). -/

namespace Sys2Proof.Machine

-- One theorem after the other: elaborated side by side, they hold more threads than the memory limit of a check allows.
set_option Elab.async false

/-! ### Host writes to a register with an effect of its own -/

/-- An accepted write of the physical function: the register stored and its write counted, the register's own effect, the
journal. -/
theorem hostReg_steps {s : State} {r : RegRef} {row : RegRow} {v : Word} (hrow : r.row = some row) (h : s.accepts 0 r v = true) :
    Journaled ((blockWrite 0 r.blk r.inst r.off (s.hostOld r) v).run (s.hostStored r row v)) ((hostReg 0 r v).run s) := by
  obtain ⟨row', hrow', hj⟩ := hostReg_accepted h
  obtain rfl : row = row' := Option.some.inj (hrow.symm.trans hrow')
  exact hj

/-- An unshared register is its own. -/
theorem regAt_self {r : RegRef} {row : RegRow} (hrow : r.row = some row) (hsh : row.shared = false) :
    regAt r.blk r.inst r.off = r := by
  have h : rowAt r.blk r.inst r.off = some row := hrow
  simp [regAt, h, hsh]

theorem hostOld_self {s : State} {r : RegRef} {row : RegRow} (hrow : r.row = some row) (hsh : row.shared = false)
    (hsel : behindSel r.blk r.off = false) : s.hostOld r = s.rd r := by
  rw [State.hostOld, hsel, regAt_self hrow hsh]; rfl

/-- What an accepted write stores of an unshared register. -/
theorem rd_hostStored_self {s : State} (hs : keysRise s.regs) {r : RegRef} {row : RegRow} (v : Word) (hrow : r.row = some row)
    (hsh : row.shared = false) (hsel : behindSel r.blk r.off = false) (hw : r.off ≠ 0x30) :
    (s.hostStored r row v).rd r = storedValue row (s.rd r) v &&& row.mask := (rd_hostStored hs v hrow hsh hsel hw).1

/-- A register at another offset than the written one and WRITE_COUNT is as before. -/
theorem rd_hostStored_off {s : State} {r : RegRef} {row : RegRow} {v : Word} {q : RegRef} (h : r.off % 4096 ≠ q.off % 4096)
    (h' : 0x30 ≠ q.off % 4096) : (s.hostStored r row v).rd q = s.rd q := by
  refine hostStored_regs s r row v q fun hm => ?_
  simp only [List.map_cons, List.map_nil, List.mem_cons, List.not_mem_nil, or_false] at hm
  rcases hm with hm | hm
  · refine key_ne_of_off ?_ hm.symm
    unfold regAt
    split
    · split <;> exact h
    · exact h
  · exact key_ne_of_off (r := Reg.HDR.WRITE_COUNT r.blk r.inst) h' hm.symm

/-- A register at other offsets than those listed is as before. -/
theorem SameRegs.rd_off {l : List RegRef} {s t : State} (h : SameRegs l s t) {r : RegRef} (ho : ∀ q ∈ l, q.off % 4096 ≠ r.off % 4096) :
    t.rd r = s.rd r := by
  refine h r fun hm => ?_
  obtain ⟨q, hq, hk⟩ := List.mem_map.1 hm
  exact key_ne_of_off (ho q hq) hk

/-! ### Ports -/

theorem linkCtrl_row (k : Fin 4) : (Reg.LINK.LINK_CTRL k).row = some ⟨0x040, 1, 0x04, .RW, 0x00000073, 0x00000073, 0x0, 0x00000010, false⟩ := by
  revert k; decide +kernel
theorem mask_linkStatus (k : Fin 4) : RegRef.mask (Reg.LINK.LINK_STATUS k) = 0x00007773 := by revert k; decide +kernel
theorem mask_laneMap (k : Fin 4) : RegRef.mask (Reg.LINK.LANE_MAP k) = 0x001F0FFF := by revert k; decide +kernel
theorem mask_devStatus : RegRef.mask Reg.LINK.DEV_STATUS = 0x0007FF3F := by decide +kernel

/-- R632: ENABLE written as 1 to a port that was off starts training. -/
theorem linkEnable_effect {s : State} (hl : s.live) (k : Fin 4) (v : Word) (hacc : s.accepts 0 (Reg.LINK.LINK_CTRL k) (v ||| 1) = true)
    (hoff : s.bit (Reg.LINK.LINK_CTRL k) 0 = false) :
    ∃ t : State, exec (.linkEnable 0 k v) s = .next t.settled ∧ t.linkState k = 1 ∧ t.bit (Reg.LINK.LINK_CTRL k) 0 = true ∧
      SameRegs ([Reg.LINK.LINK_CTRL k, Reg.LINK.LINK_STATUS k] ++ hostTrail .LINK k) s t ∧ t.es = s.es ∧ t.out = s.out := by
  have hj := hostReg_steps (linkCtrl_row k) hacc
  have hk : k.val < Blk.count .LINK := k.isLt
  generalize hp : s.hostStored (Reg.LINK.LINK_CTRL k) _ (v ||| 1) = p at hj
  have hps : keysRise p.regs := hp ▸ keysRise_hostStored hl.1.1.1 _ _ _
  have hctrl : p.bit (Reg.LINK.LINK_CTRL k) 0 = true := by
    rw [← hp, State.bit, rd_hostStored_self hl.1.1.1 _ (linkCtrl_row k) rfl rfl (by simp)]
    simp [storedValue]
  have hrun : (blockWrite 0 .LINK k 0x040 (s.hostOld (Reg.LINK.LINK_CTRL k)) (v ||| 1)).run p =
      p.setReg (Reg.LINK.LINK_STATUS k) 1 := by
    have h1 : (v ||| 1).getLsbD 0 = true := by rw [BitVec.getLsbD_or]; simp
    have h0 : (s.hostOld (Reg.LINK.LINK_CTRL k)).getLsbD 0 = false := by rw [hostOld_self (linkCtrl_row k) rfl rfl]; exact hoff
    simp only [blockWrite, linkWrite, if_true, linkCtrl, h1, h0]
    rfl
  rw [hrun] at hj
  have hexec : exec (.linkEnable 0 k v) s = .next ((hostReg 0 (Reg.LINK.LINK_CTRL k) (v ||| 1)).run s).settled := command_eq hl.2
  refine ⟨_, hexec, ?_, ?_, ?_, hj.es.trans (hp ▸ hostStored_es ..), hj.out.trans (hp ▸ hostStored_out ..)⟩
  · rw [State.linkState, State.fld, hj.rd hk (by simp) (by simp) (by simp), rd_setReg_same hps, mask_linkStatus]
    rfl
  · rw [State.bit, hj.rd hk (by simp) (by simp) (by simp), rd_setReg_off (by simp)]
    exact hctrl
  · have h1 : SameRegs [Reg.LINK.LINK_CTRL k, Reg.HDR.WRITE_COUNT .LINK k] s p := by
      rw [← hp]
      have := hostStored_regs s (Reg.LINK.LINK_CTRL k) ⟨0x040, 1, 0x04, .RW, 0x00000073, 0x00000073, 0x0, 0x00000010, false⟩ (v ||| 1)
      rwa [regAt_self (linkCtrl_row k) rfl] at this
    refine (h1.mono ?_).trans (((quiet_setReg _ _ _).regs.mono ?_).trans (SameRegs.mono hj.regs ?_))
    · simp [hostTrail]
    · simp
    · exact fun r hr => List.mem_append_right _ (List.mem_cons_of_mem _ hr)

/-- R632, R635: a training port whose lanes allow it comes up. -/
theorem linkTrained_effect {s : State} (hl : s.live) (k : Fin 4) (dev : BitVec 3) (port : BitVec 2) (d : Word)
    (hst : s.linkState k = 1) (hmin : s.fld (Reg.LINK.LINK_CTRL k) 6 4 ≤ s.laneWidth k) (hw : 0 < s.laneWidth k) :
    ∃ t : State, exec (.linkTrained k dev port d) s = .next t.settled ∧ t.portUp k = true ∧
      (s.laneWidth k = 4 → t.linkState k = 2) ∧ t.fld (Reg.LINK.LINK_STATUS k) 10 8 = dev.toNat ∧
      t.rd (Reg.LINK.LINK_DELAY k) = d &&& RegRef.mask (Reg.LINK.LINK_DELAY k) ∧ t.bit (Reg.HDR.IRQ_PEND .LINK k) 7 = true ∧
      s.out.length < t.out.length ∧
      SameRegs ([Reg.LINK.LINK_STATUS k, Reg.LINK.LINK_DELAY k] ++ irqOf .LINK k) s t ∧ t.mem = s.mem ∧ t.es = s.es := by
  have hexec : exec (.linkTrained k dev port d) s = .next ((linkTrainedAct k dev.toNat port.toNat d.toNat).run s).settled := command_eq hl.2
  have hw4 : s.laneWidth k ≤ 4 := by
    unfold State.laneWidth; exact (List.length_filter_le _ _).trans (by simp)
  have honly : (linkTrainedAct k dev.toNat port.toNat d.toNat).Only
      { Scope.regs ([Reg.LINK.LINK_STATUS k, Reg.LINK.LINK_DELAY k] ++ irqOf .LINK k) with out := True } := by
    simp [linkTrainedAct, Act.port, Act.link, linkRaise, irqOf, Scope.regs]
  let n := s.freeCtr
  let st := (if s.laneWidth k < 4 then 3 else 2) + 16 * s.laneWidth k + 256 * dev.toNat + 4096 * port.toNat +
    16384 * b2n (decide ((s.failedLanes k).length ≠ 0))
  let a := s.useFree.setReg (Reg.LINK.LINK_STATUS k) (BitVec.ofNat 32 st)
  let b := a.setReg (Reg.LINK.LINK_DELAY k) (BitVec.ofNat 32 d.toNat)
  let c := (Act.port k fun _ => { last := s.now, asym := sgn 16 (Config.freeValue n 0).toNat }).run b
  let o : Out := .flit dev.toNat "discovery" (leBytes 8 Config.uniqueId.toNat ++ leBytes 1 s.devReq ++
    (List.range 4).map fun j => BitVec.ofNat 8 (s.linkState j))
  have hrun : (linkTrainedAct k dev.toNat port.toNat d.toNat).run s = (linkRaise k 7).run (c.emit o) := by
    have hc : (s.linkState k == 1 && decide (s.fld (Reg.LINK.LINK_CTRL k) 6 4 ≤ s.laneWidth k ∧ 0 < s.laneWidth k)) = true := by
      simp [hst, hmin, hw]
    simp only [linkTrainedAct, run_get, run_when, hc, if_true]
    rfl
  have hs : keysRise s.useFree.regs := hl.1.1.1
  have hstatus : ((linkRaise k 7).run (c.emit o)).rd (Reg.LINK.LINK_STATUS k) = BitVec.ofNat 32 st &&& 0x00007773 := by
    rw [linkRaise, rd_raise_off (by simp) (by simp), ← mask_linkStatus k, ← rd_setReg_same hs]
    exact rd_setReg_off (by simp)
  have hbits : ∀ hi lo, (bits (0x00007773 : Word) hi lo = 2 ^ (hi + 1 - lo) - 1) → ((linkRaise k 7).run (c.emit o)).fld (Reg.LINK.LINK_STATUS k) hi lo =
      st / 2 ^ lo % 2 ^ (hi + 1 - lo) := by
    intro hi lo hm
    have hst32 : st < 2 ^ 32 := by
      have h1 := dev.isLt; have h2 := port.isLt
      have h3 : b2n (decide ((s.failedLanes k).length ≠ 0)) ≤ 1 := by unfold b2n; split <;> decide
      have h4 : (if s.laneWidth k < 4 then 3 else 2) ≤ 3 := by split <;> decide
      simp only [st]; omega
    rw [State.fld, hstatus, bits_and_mask _ _ hm, bits, BitVec.toNat_ofNat, Nat.mod_eq_of_lt hst32, Nat.shiftRight_eq_div_pow]
  have hstate : ((linkRaise k 7).run (c.emit o)).linkState k = if s.laneWidth k < 4 then 3 else 2 := by
    rw [State.linkState, hbits 1 0 rfl]
    simp only [st]
    split <;> omega
  refine ⟨_, hexec, ?_⟩
  rw [hrun]
  refine ⟨?_, fun h4 => ?_, ?_, ?_, ?_, ?_, ?_, ?_, ?_⟩
  · rw [State.portUp, hstate]; split <;> rfl
  · rw [hstate, h4]; rfl
  · have h1 := dev.isLt; have h2 := port.isLt
    rw [hbits 10 8 rfl]
    simp only [st]
    split <;> omega
  · rw [linkRaise, rd_raise_off (by simp) (by simp)]
    refine (rd_setReg_same (keysRise_setReg hs _ _) _ _).trans ?_
    rw [BitVec.ofNat_toNat, BitVec.setWidth_eq]
  · exact bit_raise (keysRise_setReg (keysRise_setReg hs _ _) _ _) k.isLt (by decide)
  · have : ((linkRaise k 7).run (c.emit o)).out = s.out ++ [o] := (quiet_raise _ _ _ _).out
    rw [this]; simp
  · rw [← hrun]; exact honly.sameRegs id (fun _ h => h) s
  · rw [← hrun]; exact honly.mem id s
  · rw [← hrun]; exact honly.es id s

/-- A source that is pending stays pending when another of the block is raised. -/
theorem bit_raise_mono {s : State} (hs : keysRise s.regs) {b : Blk} {i i' k k' : Nat} (hi : i < b.count)
    (h : s.bit (Reg.HDR.IRQ_PEND b i) k = true) : ((Act.raise b i' k').run s).bit (Reg.HDR.IRQ_PEND b i) k = true := by
  by_cases he : i' = i
  · subst he
    have hr := (rd_setIrq hs hi (putBit (s.rd (Reg.HDR.IRQ_PEND b i')) k' true) (s.rd (Reg.HDR.IRQ_MASK b i'))).1
    have hb : (s.rd (Reg.HDR.IRQ_PEND b i')).getLsbD k = true := h
    rw [State.bit, Act.raise, run_get, hr, putBit, if_pos rfl, BitVec.getLsbD_or, hb, Bool.true_or]
  · rw [State.bit, (quiet_raise s b i' k').regs _ (fun hm => ?_)]
    · exact h
    · simp only [List.map_cons, List.map_nil, List.mem_cons, List.not_mem_nil, or_false, RegRef.key] at hm
      omega

/-- R653: alignment lost. -/
theorem only_alignLost (k : Nat) : (alignLost k).Only (.regs (Reg.TSC.TSC_STATUS :: irqOf .LINK k)) := by
  simp [alignLost, Act.link, linkRaise, irqOf]

/-- The port by which the master is reached. -/
def State.masterPort (s : State) : Nat := s.portTo (s.fld Reg.LINK.DEV_STATUS 18 16)

theorem masterLost_frame (s : State) : SameRegs (Reg.TSC.TSC_STATUS :: irqOf .LINK s.masterPort) s (masterLost.run s) ∧
    SameRest s (masterLost.run s) := by
  simp only [masterLost, run_get, run_when]
  split
  · exact (only_alignLost _).frame s
  · exact ⟨fun _ _ => rfl, ⟨rfl, rfl, rfl, rfl, rfl⟩⟩

theorem masterLost_pend {s : State} (hs : keysRise s.regs) (k : Fin 4) (h : s.bit (Reg.HDR.IRQ_PEND .LINK k) 0 = true) :
    (masterLost.run s).bit (Reg.HDR.IRQ_PEND .LINK k) 0 = true := by
  simp only [masterLost, alignLost, Act.link, linkRaise, run_get, run_when, run_seq, run_hw]
  split
  · split
    · refine bit_raise_mono (keysRise_setReg hs _ _) k.isLt ?_
      rw [State.bit, rd_setReg_off (by simp)]; exact h
    · exact h
  · exact h

/-- Standing alone (R57, R60): no master, not aligned, its own rate. -/
theorem standAlone_effect {s : State} (hs : keysRise s.regs) :
    let t := standAlone.run s
    t.fld Reg.TSC.TSC_STATUS 3 2 = 0 ∧ t.bit Reg.TSC.TSC_STATUS 1 = false ∧ t.hw.time.alignPpb = 0 := by
  intro t
  let a := s.setReg Reg.TSC.TSC_STATUS (setBits (s.rd Reg.TSC.TSC_STATUS) 1 1 0)
  have hv : t.rd Reg.TSC.TSC_STATUS = setBits (setBits (s.rd Reg.TSC.TSC_STATUS) 1 1 0 &&& 0x0000000F) 3 2 0 &&& 0x0000000F := by
    have ha : a.rd Reg.TSC.TSC_STATUS = setBits (s.rd Reg.TSC.TSC_STATUS) 1 1 0 &&& 0x0000000F := by
      rw [← mask_tscStatus]; exact rd_setReg_same hs _ _
    rw [← ha, ← mask_tscStatus]
    exact rd_setReg_same (s := followEnd.run s) (keysRise_setReg hs _ _) _ _
  refine ⟨?_, ?_, rfl⟩
  · rw [State.fld, hv, bits_and_mask _ _ rfl, bits_setBits_same _ _ (by decide)]; rfl
  · rw [State.bit, hv, BitVec.getLsbD_and, getLsbD_setBits, if_neg (by decide), BitVec.getLsbD_and, getLsbD_setBits]; rfl

/-- What the check for the last port may change, and what it leaves when no port is up. -/
theorem aloneCheck_effect {s : State} (hs : keysRise s.regs) (k : Fin 4) (hp : s.bit (Reg.HDR.IRQ_PEND .LINK k) 0 = true) :
    let t := aloneCheck.run s
    (((List.range 4).all fun k => !s.portUp k) = true →
      t.fld Reg.TSC.TSC_STATUS 3 2 = 0 ∧ t.bit Reg.TSC.TSC_STATUS 1 = false ∧ t.hw.time.alignPpb = 0) ∧
    t.bit (Reg.HDR.IRQ_PEND .LINK k) 0 = true ∧
    SameRegs ([Reg.LINK.DEV_STATUS, Reg.TSC.TSC_STATUS] ++ irqOf .LINK s.masterPort) s t ∧ SameRest s t := by
  simp only [aloneCheck, run_get, run_when]
  split
  next h =>
    obtain ⟨h1, h2⟩ := masterLost_frame s
    have hrest : ∀ f : Word → Word, (Act.all [.modReg Reg.LINK.DEV_STATUS f, standAlone]).Only
        (.regs [Reg.LINK.DEV_STATUS, Reg.TSC.TSC_STATUS]) := by
      simp [standAlone, followEnd]
    obtain ⟨h3, h4⟩ := (hrest fun w => setBits (setBits (setBits (setBits w 2 0 0) 3 3 0) 15 8 0) 18 16 0).frame (masterLost.run s)
    refine ⟨fun _ => ?_, ?_, ?_, ?_⟩
    · exact standAlone_effect (keysRise_setReg (rise_run _ hs) _ _)
    · rw [State.bit, run_all_cons, h3.rd_off (by simp)]
      exact masterLost_pend hs k hp
    · exact (h1.mono (by simp)).trans (h3.mono (by simp))
    · exact ⟨h4.mem.trans h2.mem, h4.poison.trans h2.poison, h4.es.trans h2.es, h4.tsc.trans h2.tsc, h4.out.trans h2.out⟩
  next h => exact ⟨fun h' => absurd h' h, hp, fun _ _ => rfl, ⟨rfl, rfl, rfl, rfl, rfl⟩⟩

theorem SameRest.trans {s t u : State} (h : SameRest s t) (k : SameRest t u) : SameRest s u :=
  ⟨k.mem.trans h.mem, k.poison.trans h.poison, k.es.trans h.es, k.tsc.trans h.tsc, k.out.trans h.out⟩

/-- R648: a port goes down. -/
theorem portDown_effect {s : State} (hs : keysRise s.regs) (k : Fin 4) (hup : s.linkState k ≠ 0) :
    let t := (portDown k).run s
    t.linkState k = 0 ∧ t.bit (Reg.HDR.IRQ_PEND .LINK k) 0 = true ∧
      ((List.range 4).all (fun j => decide (j = k) || !s.portUp j) = true →
        t.fld Reg.TSC.TSC_STATUS 3 2 = 0 ∧ t.bit Reg.TSC.TSC_STATUS 1 = false ∧ t.hw.time.alignPpb = 0) ∧
      SameRegs ([Reg.LINK.LINK_STATUS k, Reg.LINK.DEV_STATUS, Reg.TSC.TSC_STATUS] ++ irqOf .LINK k ++
        irqOf .LINK (s.portTo (s.fld Reg.LINK.DEV_STATUS 18 16))) s t ∧ SameRest s t := by
  let a := s.setReg (Reg.LINK.LINK_STATUS k) (setBits (s.rd (Reg.LINK.LINK_STATUS k)) 1 0 0)
  let b := (linkRaise k 0).run a
  have hrun : (portDown k).run s = aloneCheck.run b := by
    have hc : (s.linkState k != 0) = true := by simpa using hup
    simp only [portDown, run_get, run_when, hc, if_true]
    rfl
  rw [hrun]
  have ha : keysRise a.regs := keysRise_setReg hs _ _
  have hb : keysRise b.regs := rise_run _ ha
  have hpend : b.bit (Reg.HDR.IRQ_PEND .LINK k) 0 = true := bit_raise ha k.isLt (by decide)
  have hst : b.linkState k = 0 := by
    rw [State.linkState, State.fld, show b.rd (Reg.LINK.LINK_STATUS k) = a.rd (Reg.LINK.LINK_STATUS k) from
      rd_raise_off (by simp) (by simp), rd_setReg_same hs, mask_linkStatus, bits_and_mask _ _ rfl, bits_setBits_same _ _ (by decide)]
    rfl
  have hother : ∀ j : Nat, j ≠ k → b.linkState j = s.linkState j := fun j hj => by
    rw [State.linkState, State.fld, show b.rd (Reg.LINK.LINK_STATUS j) = a.rd (Reg.LINK.LINK_STATUS j) from
      rd_raise_off (by simp) (by simp), rd_setReg_ne _ (by simp [RegRef.key]; omega)]
    rfl
  have hq := quiet_raise a .LINK k 0
  have hmp : b.masterPort = s.portTo (s.fld Reg.LINK.DEV_STATUS 18 16) := by
    have h1 : b.rd Reg.LINK.DEV_STATUS = s.rd Reg.LINK.DEV_STATUS :=
      (rd_raise_off (by simp) (by simp)).trans (rd_setReg_off (by simp))
    have h2 : b.hw.link = s.hw.link := by obtain ⟨e, he⟩ := hq.hw; rw [show b.hw = _ from he]; rfl
    simp only [State.masterPort, State.portTo, State.routeTo, State.fld, h1, h2]
  obtain ⟨h1, h2, h3, h4⟩ := aloneCheck_effect hb k hpend
  refine ⟨?_, h2, fun h => h1 ?_, ?_, ?_⟩
  · rw [State.linkState, State.fld, h3.rd_off (by simp [irqOf])]
    exact hst
  · rw [List.all_eq_true] at h ⊢
    intro j hj
    by_cases hjk : j = k
    · subst hjk; simp [State.portUp, hst]
    · have := h j hj
      simp only [hjk, decide_false, Bool.false_or] at this
      simpa [State.portUp, hother j hjk] using this
  · rw [hmp] at h3
    exact ((quiet_setReg s _ _).regs.mono (by simp)).trans ((hq.regs.mono (by simp [irqOf])).trans (h3.mono (by simp [irqOf])))
  · exact (quiet_setReg s _ _).toSameRest.trans (hq.toSameRest.trans h4)

/-- Settles O19. -/
theorem linkStates : Obligations.LinkStates := by
  refine ⟨fun s k v hl hacc hoff => linkEnable_effect hl k v hacc hoff,
    fun s k dev port d hl hst hmin hw => linkTrained_effect hl k dev port d hst hmin hw, fun s k hl hup ht => ?_⟩
  have hrun : (linkTimeoutAct k).run s = (portDown k).run s := by
    simp only [linkTimeoutAct, run_get, run_when, hup, decide_eq_true ht, Bool.and_self, if_true]
  have hst : s.linkState k ≠ 0 := by
    have : 2 ≤ s.linkState k := of_decide_eq_true hup
    omega
  exact ⟨_, command_eq hl.2, hrun ▸ portDown_effect hl.1.1.1 k hst⟩

/-! ### Flits and lanes (R629 to R631) -/

@[simp] theorem length_updAt {α : Type} (f : α → α) (i : Nat) (l : List α) : (updAt f i l).length = l.length := by
  induction l generalizing i with
  | nil => cases i <;> rfl
  | cons x l ih => cases i <;> simp [updAt, ih]

/-- A port's state changed. -/
theorem port_run_port {s : State} {k : Nat} (h : k < s.hw.link.ports.length) (f : PortSt → PortSt) :
    ((Act.port k f).run s).port k = f (s.port k) := by
  simp only [State.port, Act.port, Act.link, run_hw, mapHw_hw]
  rw [getD_updAt, if_pos h]

/-- A replay sends again and counts; the ports' state stays. -/
theorem replayAll_frame (k : Nat) (s : State) : let t := (replayAll k).run s
    t.hw = s.hw ∧ SameRegs [Reg.LINK.REPLAY_CNT k] s t ∧ t.mem = s.mem ∧ t.es = s.es := by
  have h : (replayAll k).Only { Scope.regs [Reg.LINK.REPLAY_CNT k] with out := True, hw := fun _ => False } := by
    simp [replayAll, Scope.regs]
  exact ⟨h.hw id (fun _ h => h.elim) s, h.sameRegs id (fun _ h => h) s, h.mem id s, h.es id s⟩

/-- R630: is a flit in the replay buffer still unacknowledged after an acknowledgement? -/
def unacked (ack : BitVec 16) (e : BitVec 16 × Out) : Bool := decide (ack - e.1 = 0 ∨ 32768 ≤ (ack - e.1).toNat)

/-- What a good flit in sequence makes of its port: when it came, the sequence number expected, the flits it does not acknowledge. -/
def PortSt.received (p : PortSt) (now : Nat) (ack : BitVec 16) : PortSt :=
  { p with last := now, rxSeq := p.rxSeq + 1, replay := p.replay.filter (unacked ack) }

/-- R630: a good flit in sequence, before the replay its sender may ask for. -/
theorem run_flitReceiveAct {s : State} {k : Fin 4} {fl : Flit} (hup : s.portUp k = true) (hk : k.val < s.hw.link.ports.length)
    (hbad : fl.bad = false) (hseq : fl.seq = (s.port k).rxSeq) :
    ∃ d : State, (flitReceiveAct k fl).run s = (Act.when fl.nak (replayAll k)).run d ∧
      d.port k = (s.port k).received s.now fl.ack ∧ SameRegs [Reg.LINK.FEC_CORR k] s d ∧ d.mem = s.mem ∧ d.es = s.es := by
  have hlen (f : PortSt → PortSt) {u : State} (h : k.val < u.hw.link.ports.length) :
      k.val < ((Act.port k f).run u).hw.link.ports.length := by simpa [Act.port, Act.link] using h
  have hbump : (Act.bump (Reg.LINK.FEC_CORR k) fl.corrected.toNat).Only
      { Scope.regs [Reg.LINK.FEC_CORR k] with hw := fun _ => False } := by simp [Scope.regs]
  have hq := quiet_bump s (Reg.LINK.FEC_CORR k) fl.corrected.toNat
  have hhw := hbump.hw id (fun _ h => h.elim) s
  generalize ha : (Act.bump (Reg.LINK.FEC_CORR k) fl.corrected.toNat).run s = a at hq hhw
  have hlen' : k.val < a.hw.link.ports.length := by rw [show a.hw = s.hw from hhw]; exact hk
  have hap : a.port k = s.port k := by rw [State.port, show a.hw = s.hw from hhw]; rfl
  refine ⟨(Act.port k fun p => { p with replay := p.replay.filter (unacked fl.ack) }).run
    ((Act.port k fun p => { p with rxSeq := p.rxSeq + 1 }).run ((Act.port k fun p => { p with last := s.now }).run a)), ?_, ?_, ?_, ?_, ?_⟩
  · simp only [flitReceiveAct, run_get, run_when, hup, if_true, hbad, Bool.false_eq_true, if_false, run_all_cons, run_all_nil,
      run_seq, hseq, Bool.not_false, ha]
    rfl
  · rw [port_run_port (hlen _ (hlen _ hlen')), port_run_port (hlen _ hlen'), port_run_port hlen', hap]
    rfl
  · exact fun r hr => hq.regs r hr
  · exact hq.mem
  · exact hq.es

/-- R630: a good flit in sequence. -/
theorem flitReceive_effect {s : State} {k : Fin 4} {fl : Flit} (hup : s.portUp k = true) (hk : k.val < s.hw.link.ports.length)
    (hbad : fl.bad = false) (hseq : fl.seq = (s.port k).rxSeq) :
    let t := (flitReceiveAct k fl).run s
    (t.port k).rxSeq = (s.port k).rxSeq + 1 ∧ (t.port k).last = s.now ∧
      (∀ e ∈ (t.port k).replay, e ∈ (s.port k).replay ∧ (fl.ack - e.1 = 0 ∨ 32768 ≤ (fl.ack - e.1).toNat)) ∧
      SameRegs [Reg.LINK.FEC_CORR k, Reg.LINK.REPLAY_CNT k] s t ∧ t.mem = s.mem ∧ t.es = s.es := by
  obtain ⟨d, hrun, hport, hregs, hmem, hes⟩ := run_flitReceiveAct hup hk hbad hseq
  obtain ⟨hhw, hregs', hmem', hes'⟩ : ((Act.when fl.nak (replayAll k)).run d).hw = d.hw ∧
      SameRegs [Reg.LINK.REPLAY_CNT k] d ((Act.when fl.nak (replayAll k)).run d) ∧
      ((Act.when fl.nak (replayAll k)).run d).mem = d.mem ∧ ((Act.when fl.nak (replayAll k)).run d).es = d.es := by
    rw [run_when]
    split
    · exact replayAll_frame k d
    · exact ⟨rfl, fun _ _ => rfl, rfl, rfl⟩
  rw [← hrun] at hhw hregs' hmem' hes'
  have hp : ((flitReceiveAct k fl).run s).port k = (s.port k).received s.now fl.ack := by rw [← hport, State.port, hhw]; rfl
  intro t
  rw [hp]
  exact ⟨rfl, rfl, fun e he => by simpa [PortSt.received, unacked] using he, (hregs.mono (by simp)).trans (hregs'.mono (by simp)),
    hmem'.trans hmem, hes'.trans hes⟩

/-- What a lane out of service may change. -/
theorem only_laneOut (k lane : Nat) (replay : Bool) : (laneOut k lane replay).Only
    { reg := fun _ => True, out := True } := by
  simp only [laneOut, only_get, only_when, only_all_cons, only_all_nil, only_event, only_setFld]
  intro s _
  refine ⟨trivial, trivial, fun _ => by simp [linkRaise], ?_, trivial⟩
  split
  · trivial
  · split
    · simp [replayAll]
    · simp [replayAll, linkRaise, portDown, aloneCheck, masterLost, alignLost, standAlone, followEnd, Act.link]

/-- The state in which a lane has been marked as out of service and the event told (R631). -/
def State.laneMarked (s : State) (k lane : Nat) (replay raised : Bool) (spare : Option Nat) : State :=
  (Act.when raised (linkRaise k 1)).run
    ((Act.event (.darn { kind := 5, inst := k, unit := lane, cause := if replay then 0 else 1, spare := spare })).run
      (s.setReg (Reg.LINK.LANE_MAP k) (setBits (s.rd (Reg.LINK.LANE_MAP k)) (16 + lane) (16 + lane) 1)))

theorem rd_laneMarked {s : State} (k lane : Nat) (replay raised : Bool) (spare : Option Nat) {r : RegRef}
    (h : 0x010 ≠ r.off % 4096) (h' : 0x01C ≠ r.off % 4096) :
    (s.laneMarked k lane replay raised spare).rd r =
      (s.setReg (Reg.LINK.LANE_MAP k) (setBits (s.rd (Reg.LINK.LANE_MAP k)) (16 + lane) (16 + lane) 1)).rd r := by
  simp only [State.laneMarked, run_when, linkRaise]
  split
  · exact rd_raise_off h h'
  · rfl

/-- What a lane does that leaves service: it is marked, and where its logical lane was in use the spare takes its place, or a program
follows that leaves the lane map. -/
theorem run_laneOut {s : State} {k lane : Nat} (replay : Bool) (hup : s.portUp k = true)
    (hgood : s.bit (Reg.LINK.LANE_MAP k) (16 + lane) = false) {logical spare : Option Nat}
    (hl : ((List.range 4).find? fun l => s.fld (Reg.LINK.LANE_MAP k) (3 * l + 2) (3 * l) == lane) = logical)
    (hp : ((List.range 5).find? fun p => !s.bit (Reg.LINK.LANE_MAP k) (16 + p) && p != lane &&
      (List.range 4).all fun l => s.fld (Reg.LINK.LANE_MAP k) (3 * l + 2) (3 * l) != p) = spare) :
    ∃ m raised, m = s.laneMarked k lane replay raised spare ∧
      ((∀ l p, logical = some l → spare = some p → (laneOut k lane replay).run s =
          (Act.when replay (replayAll k)).run ((Act.setFld (Reg.LINK.LINK_STATUS k) 14 14 1).run
            ((Act.setFld (Reg.LINK.LANE_MAP k) (3 * l + 2) (3 * l) p).run m))) ∧
        (logical = none ∨ spare = none → ∃ a : Act, a.Only { reg := fun r => r.off % 4096 ≠ 0x048, out := True } ∧
          (laneOut k lane replay).run s = a.run m)) := by
  have hc : (s.portUp k && !s.bit (Reg.LINK.LANE_MAP k) (16 + lane)) = true := by rw [hup, hgood]; rfl
  refine ⟨_, replay || (logical.isSome && spare.isSome), rfl, fun l p h1 h2 => ?_, fun h => ?_⟩
  · subst h1 h2
    simp only [laneOut, run_get, hl, hp, hc]
    rfl
  · simp only [laneOut, run_get, hl, hp, run_when, hc, if_true]
    cases logical with
    | none => exact ⟨.nil, trivial, rfl⟩
    | some l =>
      obtain rfl : spare = none := h.resolve_left (by simp)
      refine ⟨_, ?_, rfl⟩
      simp [linkRaise, portDown, aloneCheck, masterLost, alignLost, standAlone, followEnd, replayAll, Act.link]

/-- R631: a lane that leaves service is marked; the spare that is left takes its logical place. -/
theorem laneOut_effect {s : State} (hs : keysRise s.regs) {k : Fin 4} {lane : Fin 5} (replay : Bool) (hup : s.portUp k = true)
    (hgood : s.bit (Reg.LINK.LANE_MAP k) (16 + lane) = false) :
    let t := (laneOut k lane replay).run s
    t.bit (Reg.LINK.LANE_MAP k) (16 + lane) = true ∧
      (∀ l p, ((List.range 4).find? fun l => s.fld (Reg.LINK.LANE_MAP k) (3 * l + 2) (3 * l) == lane.val) = some l →
        ((List.range 5).find? fun p => !s.bit (Reg.LINK.LANE_MAP k) (16 + p) && p != lane.val &&
          (List.range 4).all fun l => s.fld (Reg.LINK.LANE_MAP k) (3 * l + 2) (3 * l) != p) = some p →
        t.fld (Reg.LINK.LANE_MAP k) (3 * l + 2) (3 * l) = p ∧ t.linkState k = s.linkState k) ∧
      t.mem = s.mem ∧ t.es = s.es ∧ t.tsc = s.tsc := by
  intro t
  obtain ⟨m, raised, hm, hswap, hrest⟩ := run_laneOut replay hup hgood rfl rfl
  have hmW : m.rd (Reg.LINK.LANE_MAP k) = setBits (s.rd (Reg.LINK.LANE_MAP k)) (16 + lane) (16 + lane) 1 &&& 0x001F0FFF := by
    rw [hm, rd_laneMarked _ _ _ _ _ (by simp) (by simp), rd_setReg_same hs, mask_laneMap]
  have hmr : keysRise m.regs := hm ▸ rise_run _ (rise_run _ (keysRise_setReg hs _ _))
  have hms : m.rd (Reg.LINK.LINK_STATUS k) = s.rd (Reg.LINK.LINK_STATUS k) := by
    rw [hm, rd_laneMarked _ _ _ _ _ (by simp) (by simp), rd_setReg_off (by simp)]
  have hbit : (m.rd (Reg.LINK.LANE_MAP k)).getLsbD (16 + lane) = true := by
    have hmask : ∀ x : Fin 5, (0x001F0FFF : Word).getLsbD (16 + x) = true := by decide
    rw [hmW, BitVec.getLsbD_and, hmask, getLsbD_setBits, if_pos (by omega)]
    simp
  have hreplay (r : RegRef) (h : 0x05C ≠ r.off % 4096) (u : State) : ((Act.when replay (replayAll k)).run u).rd r = u.rd r := by
    rw [run_when]
    split
    · exact (replayAll_frame k u).2.1.rd_off (by simpa using h)
    · rfl
  have hmap {l p : Nat} (h : t = (Act.when replay (replayAll k)).run ((Act.setFld (Reg.LINK.LINK_STATUS k) 14 14 1).run
      ((Act.setFld (Reg.LINK.LANE_MAP k) (3 * l + 2) (3 * l) p).run m))) :
      t.rd (Reg.LINK.LANE_MAP k) = setBits (m.rd (Reg.LINK.LANE_MAP k)) (3 * l + 2) (3 * l) p &&& 0x001F0FFF := by
    rw [h, hreplay _ (by simp), run_setFld, rd_setReg_off (by simp), run_setFld, rd_setReg_same hmr, mask_laneMap]
  have hmem4 {l : Nat} (h : ((List.range 4).find? fun l => s.fld (Reg.LINK.LANE_MAP k) (3 * l + 2) (3 * l) == lane.val) = some l) :
      l < 4 := by simpa using List.mem_of_find?_eq_some h
  refine ⟨?_, fun l p hl hp => ?_, (only_laneOut ..).mem id s, (only_laneOut ..).es id s, (only_laneOut ..).tsc id s⟩
  · by_cases h : (∃ l, ((List.range 4).find? fun l => s.fld (Reg.LINK.LANE_MAP k) (3 * l + 2) (3 * l) == lane.val) = some l) ∧
      ∃ p, ((List.range 5).find? fun p => !s.bit (Reg.LINK.LANE_MAP k) (16 + p) && p != lane.val &&
        (List.range 4).all fun l => s.fld (Reg.LINK.LANE_MAP k) (3 * l + 2) (3 * l) != p) = some p
    · obtain ⟨⟨l, hl⟩, p, hp⟩ := h
      have h4 := hmem4 hl
      have hmask : ∀ x : Fin 5, (0x001F0FFF : Word).getLsbD (16 + x) = true := by decide
      rw [State.bit, hmap (hswap l p hl hp), BitVec.getLsbD_and, hmask, getLsbD_setBits, if_neg (by omega), hbit]
      rfl
    · obtain ⟨a, ha, hrun⟩ := hrest (by
        rw [not_and_or, not_exists, not_exists] at h
        exact h.imp (fun h => Option.eq_none_iff_forall_ne_some.2 h) fun h => Option.eq_none_iff_forall_ne_some.2 h)
      rw [State.bit, show t = a.run m from hrun, ha.rd id (fun r hr => key_ne_of_off (by simpa using hr)), hbit]
  · have h4 := hmem4 hl
    have hp5 : p < 5 := by simpa using List.mem_of_find?_eq_some hp
    have ht := hswap l p hl hp
    refine ⟨?_, ?_⟩
    · have hmask : ∀ x : Fin 4, bits (0x001F0FFF : Word) (3 * x + 2) (3 * x) = 2 ^ (3 * x.val + 2 + 1 - 3 * x) - 1 := by decide
      rw [State.fld, hmap ht, bits_and_mask _ _ (hmask ⟨l, h4⟩), bits_setBits_same _ _ (by omega),
        show 3 * l + 2 + 1 - 3 * l = 3 by omega]
      omega
    · have hst : t.rd (Reg.LINK.LINK_STATUS k) = setBits (s.rd (Reg.LINK.LINK_STATUS k)) 14 14 1 &&& 0x00007773 := by
        rw [show t = _ from ht, hreplay _ (by simp), run_setFld, rd_setReg_same (rise_run _ hmr), mask_linkStatus, run_setFld,
          rd_setReg_off (by simp), hms]
      rw [State.linkState, State.linkState, State.fld, State.fld, hst, bits_and_mask _ _ rfl, bits_setBits_other _ _ (by omega)]

/-- Settles O20. -/
theorem flitsAndLanes : Obligations.FlitsAndLanes := by
  refine ⟨fun s k fl hl hup hk hbad hseq => ⟨_, command_eq hl.2, flitReceive_effect hup hk hbad hseq⟩,
    fun s k lane hl hup hgood => ⟨⟨_, command_eq hl.2, laneOut_effect hl.1.1.1 true hup hgood⟩,
      ⟨_, command_eq hl.2, laneOut_effect hl.1.1.1 false hup hgood⟩⟩, fun s k hl hup => ?_⟩
  refine ⟨_, simply_eq hl.2, ?_⟩
  simp only [equalisationUpdateAct, run_get, run_when, hup, if_true]
  exact ⟨rfl, (quiet_setReg _ _ _).regs, rfl, rfl, rfl⟩

end Sys2Proof.Machine

/-! ## Proofs: the group of devices (15_fakan_peer_links)

Numbering, routes, time alignment (O21). -/

namespace Sys2Proof.Machine

-- One theorem after the other: elaborated side by side, they hold more threads than the memory limit of a check allows.
set_option Elab.async false

/-! ### Device numbers (R633) -/

/-- The lower of a running minimum and one more identifier. -/
def lowerId (m : Option Nat) (i : Nat) : Option Nat := some (match m with
  | some j => min i j
  | none => i)

theorem holderOf_eq (g : List NumReq) (n : Nat) : holderOf g n = ((g.filter fun x => x.2 == n).map (·.1)).foldl lowerId none := rfl

theorem foldl_lowerId_mem {l : List Nat} {m : Option Nat} {i : Nat} (h : l.foldl lowerId m = some i) : m = some i ∨ i ∈ l := by
  induction l generalizing m with
  | nil => exact .inl h
  | cons x l ih =>
    rcases ih h with hx | hx
    · cases m with
      | none => exact .inr (by simp [lowerId] at hx; simp [hx])
      | some j =>
        simp only [lowerId, Option.some.injEq] at hx
        rcases min_choice x j with hm | hm
        · exact .inr (by simp [← hx, hm])
        · exact .inl (by rw [← hx, hm])
    · exact .inr (List.mem_cons_of_mem _ hx)

/-- The holder of a number requests it. -/
theorem holderOf_mem {g : List NumReq} {n i : Nat} (h : holderOf g n = some i) : (i, n) ∈ g := by
  rcases foldl_lowerId_mem ((holderOf_eq g n).symm.trans h) with h0 | h0
  · cases h0
  · obtain ⟨x, hx, rfl⟩ := List.mem_map.1 h0
    obtain ⟨hg, hn⟩ := List.mem_filter.1 hx
    rwa [← eq_of_beq hn]

/-- Who alone requests a number holds it. -/
theorem holderOf_alone {self req : Nat} {l : List NumReq} (h : ∀ x ∈ l, x.2 ≠ req) : holderOf ((self, req) :: l) req = some self := by
  have hf : l.filter (fun x => x.2 == req) = [] := List.filter_eq_nil_iff.2 fun x hx => by simpa using h x hx
  simp [holderOf, hf]

theorem find?_eq_of_unique {α : Type} {p : α → Bool} {l : List α} {a : α} (ha : a ∈ l) (hp : p a = true)
    (h : ∀ x ∈ l, p x = true → x = a) : l.find? p = some a := by
  cases hf : l.find? p with
  | none => exact absurd hp (by simpa using List.find?_eq_none.1 hf a ha)
  | some b => rw [h b (List.mem_of_find?_eq_some hf) (List.find?_some hf)]

/-- Appending one element after another leaves what was there in front. -/
theorem foldl_append_prefix {α β : Type} (f : List α → β → α) (l : List β) (init : List α) :
    init <+: l.foldl (fun acc x => acc ++ [f acc x]) init := by
  induction l generalizing init with
  | nil => exact List.prefix_rfl
  | cons x l ih => exact (List.prefix_append _ _).trans (ih _)

/-- R633: a device whose requested number nobody else requests takes it. -/
theorem assignNumbers_alone {self req : Nat} {l : List NumReq} (h7 : req ≤ 7) (hreq : ∀ x ∈ l, x.2 ≠ req) (hid : ∀ x ∈ l, x.1 ≠ self) :
    (assignNumbers ((self, req) :: l)).find? (fun x => x.1 == self) = some (self, some req) := by
  generalize hg : (self, req) :: l = g
  let held := (List.range 8).filterMap fun n => (holderOf g n).map fun i => (i, n)
  have hself : holderOf g req = some self := hg ▸ holderOf_alone hreq
  have hheld : held.map (fun x => (x.1, some x.2)) <+: assignNumbers g := foldl_append_prefix _ _ _
  obtain ⟨rest, hrest⟩ := hheld
  rw [← hrest, List.find?_append]
  have hfind : (held.map fun x => (x.1, some x.2)).find? (fun x => x.1 == self) = some (self, some req) := by
    refine find?_eq_of_unique ?_ (by simp) fun x hx hp => ?_
    · refine List.mem_map.2 ⟨(self, req), List.mem_filterMap.2 ⟨req, List.mem_range.2 (by omega), ?_⟩, rfl⟩
      rw [hself]; rfl
    · obtain ⟨⟨i, n⟩, hin, rfl⟩ := List.mem_map.1 hx
      obtain ⟨m, -, hm⟩ := List.mem_filterMap.1 hin
      obtain ⟨j, hj, he⟩ := Option.map_eq_some_iff.1 hm
      obtain ⟨rfl, rfl⟩ := Prod.mk.inj he
      obtain rfl : j = self := eq_of_beq hp
      have hmem := holderOf_mem hj
      rw [← hg] at hmem
      rcases List.mem_cons.1 hmem with h1 | h1
      · rw [(Prod.mk.inj h1).2]
      · exact absurd rfl (hid _ h1)
  rw [hfind]; rfl

theorem foldl_max_lt {l : List Nat} {m n : Nat} (hm : m < n) (h : ∀ x ∈ l, x < n) : l.foldl max m < n := by
  induction l generalizing m with
  | nil => exact hm
  | cons x l ih => exact ih (max_lt hm (h x List.mem_cons_self)) fun y hy => h y (List.mem_cons_of_mem _ hy)

/-- The change of DEV_STATUS by which a device takes number `n`. -/
def numberTaken (n : Nat) (lost : Bool) (w : Word) : Word := setBits (setBits (setBits (setBits w 2 0 n) 3 3 1) 4 4 (b2n lost)) 5 5 0

/-- Taking a number, and what follows for the group and the time, in the case that the number is the one asked for. -/
theorem run_deviceNumberingAct {s : State} {peers : List PeerInfo} (hup : (List.range 4).any s.portUp = true)
    (h7 : (if s.bit Reg.LINK.DEV_STATUS 3 then s.devNum else s.devReq) ≤ 7)
    (hp : ∀ p ∈ peers, p.devReq.toNat ≠ (if s.bit Reg.LINK.DEV_STATUS 3 then s.devNum else s.devReq) ∧ p.id ≠ Config.uniqueId) :
    ∃ (devices : Nat) (step : Bool), (deviceNumberingAct peers).run s = (Act.all
      [.modReg Reg.LINK.DEV_STATUS (numberTaken (if s.bit Reg.LINK.DEV_STATUS 3 then s.devNum else s.devReq) false),
       .link fun l => { l with kept := some (if s.bit Reg.LINK.DEV_STATUS 3 then s.devNum else s.devReq) },
       setGroup (if s.bit Reg.LINK.DEV_STATUS 3 then s.devNum else s.devReq) devices,
       .when step (.upd (.tsc (BitVec.ofNat 64 ((peers.map fun p => p.tsc.toNat).foldl max 0))))]).run s ∧
      (step = true → s.now ≤ (peers.map fun p => p.tsc.toNat).foldl max 0) := by
  generalize hr : (if s.bit Reg.LINK.DEV_STATUS 3 then s.devNum else s.devReq) = req at *
  have hreq : ∀ x ∈ peers.map (fun p => (p.id.toNat, p.devReq.toNat)), x.2 ≠ req ∧ x.1 ≠ Config.uniqueId.toNat := fun x hx => by
    obtain ⟨p, hp', rfl⟩ := List.mem_map.1 hx
    exact ⟨(hp p hp').1, fun h => (hp p hp').2 (BitVec.eq_of_toNat_eq h)⟩
  have hnums := assignNumbers_alone (self := Config.uniqueId.toNat) h7 (fun x hx => (hreq x hx).1) fun x hx => (hreq x hx).2
  have hhold := holderOf_alone (self := Config.uniqueId.toNat) fun x hx => (hreq x hx).1
  simp only [deviceNumberingAct, run_get, run_when, hup, hr, if_true, hnums, hhold, bne_self_eq_false, Bool.and_false, Bool.false_and,
    Bool.false_eq_true, if_false, Option.bind_some]
  refine ⟨_, decide (s.now + 1000 < (peers.map fun p => p.tsc.toNat).foldl max 0) && !s.stepForbidden, rfl, fun h => ?_⟩
  simp only [Bool.and_eq_true, decide_eq_true_eq] at h
  omega

/-- R650: the devices of the group and its master; the device's own number stays. -/
theorem setGroup_effect {s : State} (hs : keysRise s.regs) (me devices : Nat) :
    let t := (setGroup me devices).run s
    (∃ m, t.rd Reg.LINK.DEV_STATUS = setBits (setBits (s.rd Reg.LINK.DEV_STATUS) 15 8 devices) 18 16 m &&& 0x0007FF3F) ∧
      SameRegs [Reg.LINK.DEV_STATUS, Reg.TSC.TSC_STATUS] s t ∧ SameRest s t := by
  have honly : (setGroup me devices).Only (.regs [Reg.LINK.DEV_STATUS, Reg.TSC.TSC_STATUS]) := by simp [setGroup, followEnd]
  refine ⟨⟨masterOf devices, ?_⟩, honly.frame s⟩
  simp only [setGroup, run_get, run_all_cons, run_all_nil, run_setFld]
  generalize hb : (_ || _ : Bool) = b
  have hf : (Act.when b followEnd).Only (.regs [Reg.TSC.TSC_STATUS]) := by simp [followEnd]
  have h1 := (hf.frame s).1.rd_off (r := Reg.LINK.DEV_STATUS) (by simp)
  rw [rd_setReg_off (by simp), run_modReg, rd_setReg_same (rise_run _ hs), mask_devStatus, h1]

/-- R633, R650, R652: numbering. -/
theorem deviceNumbering_effect {s : State} (hl : s.live) {peers : List PeerInfo} (hup : (List.range 4).any s.portUp = true)
    (h7 : (if s.bit Reg.LINK.DEV_STATUS 3 then s.devNum else s.devReq) ≤ 7)
    (hp : ∀ p ∈ peers, p.devReq.toNat ≠ (if s.bit Reg.LINK.DEV_STATUS 3 then s.devNum else s.devReq) ∧ p.id ≠ Config.uniqueId) :
    let t := (deviceNumberingAct peers).run s
    t.fld Reg.LINK.DEV_STATUS 2 0 = (if s.bit Reg.LINK.DEV_STATUS 3 then s.devNum else s.devReq) ∧
      t.bit Reg.LINK.DEV_STATUS 3 = true ∧ t.bit Reg.LINK.DEV_STATUS 5 = false ∧ s.tsc.toNat ≤ t.tsc.toNat ∧
      SameRegs [Reg.LINK.DEV_STATUS, Reg.TSC.TSC_STATUS] s t ∧ t.mem = s.mem ∧ t.es = s.es ∧ t.out = s.out := by
  obtain ⟨devices, step, hrun, hstep⟩ := run_deviceNumberingAct hup h7 hp
  generalize (if s.bit Reg.LINK.DEV_STATUS 3 then s.devNum else s.devReq) = req at *
  rw [hrun]
  generalize hmax : (peers.map fun p => p.tsc.toNat).foldl max 0 = top at *
  have htop : top < 2 ^ 64 := hmax ▸ foldl_max_lt (by decide) fun x hx => by
    obtain ⟨p, -, rfl⟩ := List.mem_map.1 hx
    exact p.tsc.isLt
  simp only [run_all_cons, run_all_nil, run_when, run_upd, apply_tsc, run_modReg]
  have ha : keysRise (s.setReg Reg.LINK.DEV_STATUS (numberTaken req false (s.rd Reg.LINK.DEV_STATUS))).regs := keysRise_setReg hl.1.1.1 _ _
  have hard := rd_setReg_same hl.1.1.1 Reg.LINK.DEV_STATUS (numberTaken req false (s.rd Reg.LINK.DEV_STATUS))
  have hasame := quiet_setReg s Reg.LINK.DEV_STATUS (numberTaken req false (s.rd Reg.LINK.DEV_STATUS))
  generalize hA : s.setReg Reg.LINK.DEV_STATUS (numberTaken req false (s.rd Reg.LINK.DEV_STATUS)) = a at *
  obtain ⟨⟨m, hrd⟩, hsame, hrest⟩ := setGroup_effect (s := (Act.link fun l => { l with kept := some req }).run a) ha req devices
  generalize (setGroup req devices).run ((Act.link fun l => { l with kept := some req }).run a) = u at *
  have hrd' : u.rd Reg.LINK.DEV_STATUS =
      setBits (setBits (numberTaken req false (s.rd Reg.LINK.DEV_STATUS) &&& 0x0007FF3F) 15 8 devices) 18 16 m &&& 0x0007FF3F := by
    rw [hrd, ← mask_devStatus, ← hard]; rfl
  have hsame' : SameRegs [Reg.LINK.DEV_STATUS, Reg.TSC.TSC_STATUS] s u := (hasame.regs.mono (by simp)).trans fun r hr => hsame r hr
  have htsc : u.tsc = s.tsc := hrest.tsc.trans hasame.tsc
  have hfacts : u.fld Reg.LINK.DEV_STATUS 2 0 = req ∧ u.bit Reg.LINK.DEV_STATUS 3 = true ∧ u.bit Reg.LINK.DEV_STATUS 5 = false := by
    refine ⟨?_, ?_, ?_⟩
    · rw [State.fld, hrd', bits_and_mask _ _ rfl, bits_setBits_other _ _ (by omega), bits_setBits_other _ _ (by omega),
        bits_and_mask _ _ rfl, numberTaken, bits_setBits_other _ _ (by omega), bits_setBits_other _ _ (by omega),
        bits_setBits_other _ _ (by omega), bits_setBits_same _ _ (by omega)]
      omega
    · rw [State.bit, hrd', BitVec.getLsbD_and, getLsbD_setBits, if_neg (by omega), getLsbD_setBits, if_neg (by omega),
        BitVec.getLsbD_and, numberTaken, getLsbD_setBits, if_neg (by omega), getLsbD_setBits, if_neg (by omega), getLsbD_setBits,
        if_pos (by omega)]
      rfl
    · rw [State.bit, hrd', BitVec.getLsbD_and, getLsbD_setBits, if_neg (by omega), getLsbD_setBits, if_neg (by omega),
        BitVec.getLsbD_and, numberTaken, getLsbD_setBits, if_pos (by omega)]
      rfl
  split
  next h =>
    refine ⟨hfacts.1, hfacts.2.1, hfacts.2.2, ?_, hsame', hrest.mem.trans hasame.mem, hrest.es.trans hasame.es, hrest.out.trans hasame.out⟩
    rw [setTsc_tsc, BitVec.toNat_ofNat, Nat.mod_eq_of_lt htop]
    exact hstep h
  next h =>
    exact ⟨hfacts.1, hfacts.2.1, hfacts.2.2, by rw [htsc], hsame', hrest.mem.trans hasame.mem, hrest.es.trans hasame.es,
      hrest.out.trans hasame.out⟩

/-! ### Routes (R636) -/

theorem alFind_filterMap {α β : Type} (f : Nat → Option α) (g : α → β) (d : Nat) (l : List Nat) :
    alFind d (l.filterMap fun x => (f x).map fun r => (x, g r)) = if d ∈ l then (f d).map g else none := by
  induction l with
  | nil => rfl
  | cons x l ih =>
    by_cases hx : x = d
    · subst hx
      cases hf : f x with
      | none => simp [hf, ih]
      | some r => simp [hf, alFind]
    · cases hf : f x with
      | none => simp [hf, ih, Ne.symm hx]
      | some r => simp [hf, alFind, ih, hx, Ne.symm hx]

/-- The scope of changes that leave the routes, memory, the engine stores and the time alone. -/
def Scope.offRoutes : Scope := { reg := fun _ => True, out := True, hw := fun f => ∀ h : Hw, (f h).link.routes = h.link.routes }

theorem only_linkRaise_offRoutes (k b : Nat) : (linkRaise k b).Only .offRoutes :=
  only_raise (p := .offRoutes) trivial trivial fun _ _ => rfl

theorem only_resendLost : resendLost.Only .offRoutes := by
  simp only [resendLost, only_get, only_each, only_seq]
  intro s k _
  refine ⟨by simp [Act.port, Act.link, Scope.offRoutes], fun e _ => ?_⟩
  simp only [sendOut, only_get]
  intro s
  split
  · simp only [only_when]
    intro _
    simp [sendOn, Act.port, Act.link, Scope.offRoutes]
  · trivial

/-- R636: every other device's best route; the change is told. -/
theorem routeRecompute_effect {s : State} (hs : keysRise s.regs) (paths : List RoutePath) :
    let t := (routeRecomputeAct paths).run s
    (∀ d < 8, d ≠ s.devNum → alFind d t.hw.link.routes = (s.bestRoute paths d).map (·.1)) ∧
      t.bit (Reg.HDR.IRQ_PEND .LINK 0) 7 = true ∧ t.mem = s.mem ∧ t.es = s.es ∧ t.tsc = s.tsc := by
  intro t
  obtain ⟨new, hnew⟩ : ∃ new, new = (List.range 8).filterMap fun d => if d = s.devNum then none else (s.bestRoute paths d).map fun r => (d, r) :=
    ⟨_, rfl⟩
  obtain ⟨a, ha, hrun⟩ : ∃ a : Act, a.Only .offRoutes ∧ t =
      (linkRaise 0 7).run (a.run ((Act.link fun l => { l with routes := new.map fun x => (x.1, x.2.1) }).run s)) := by
    simp only [t, routeRecomputeAct, run_get, ← hnew]
    generalize (Act.link fun l => { l with routes := new.map fun x => (x.1, x.2.1) }) = set
    generalize (List.filter _ _ : List Nat) = gone
    generalize routeRecomputeAct.leNatNibbles _ = hops
    generalize List.foldl _ _ new = devices
    simp only [run_all_cons, run_all_nil]
    refine ⟨.all [.wrN Reg.LINK.ROUTE_HOPS hops, resendLost, .when (!gone.isEmpty) (.all _)], ?_, rfl⟩
    simp only [only_all_cons, only_all_nil, only_wrN, only_when, only_each, only_event, only_orReg, and_true]
    refine ⟨trivial, only_resendLost, fun _ => ⟨trivial, only_linkRaise_offRoutes _ _, fun _ => ?_, fun _ => ?_, fun _ _ _ => rfl⟩⟩
    · simp only [alignLost, only_get, only_seq, only_when]
      exact ⟨fun _ => ⟨fun _ => rfl, fun _ => ⟨fun _ => trivial, only_linkRaise_offRoutes _ _⟩⟩, by simp [followEnd, Scope.offRoutes]⟩
    · simp [setGroup, followEnd, Scope.offRoutes]
  have hr := only_linkRaise_offRoutes 0 7
  have hroutes : t.hw.link.routes = new.map fun x => (x.1, x.2.1) := by
    rw [hrun, hr.hw (·.link.routes) (fun _ h => h), ha.hw (·.link.routes) (fun _ h => h)]; rfl
  refine ⟨fun d hd hne => ?_, ?_, ?_, ?_, ?_⟩
  · have hmap : (new.map fun x => (x.1, x.2.1)) =
        (List.range 8).filterMap fun x => (if x = s.devNum then none else s.bestRoute paths x).map fun r => (x, r.1) := by
      rw [hnew, List.map_filterMap]
      refine congrArg (List.filterMap · _) (funext fun x => ?_)
      split
      · rfl
      · simp only [Option.map_map]; rfl
    rw [hroutes, hmap, alFind_filterMap _ (fun r : Nat × Nat => r.1), if_pos (List.mem_range.2 hd), if_neg hne]
  · rw [hrun]
    exact bit_raise (rise_run _ (rise_run _ hs)) (by decide) (by decide)
  · rw [hrun, hr.mem id, ha.mem id]; rfl
  · rw [hrun, hr.es id, ha.es id]; rfl
  · rw [hrun, hr.tsc id, ha.tsc id]; rfl

/-! ### Time alignment (R651, R653) -/

theorem ofNat_uns32 (i : Int) : BitVec.ofNat 32 (uns 32 i) = BitVec.ofInt 32 i := by
  apply BitVec.eq_of_toNat_eq
  rw [BitVec.toNat_ofNat, BitVec.toNat_ofInt, uns]
  have := Int.emod_lt_of_pos i (b := (2 : Int) ^ 32) (by decide)
  have := Int.emod_nonneg i (b := (2 : Int) ^ 32) (by decide)
  simp only [Nat.cast_pow, Nat.cast_ofNat] at *
  omega

/-- R651: an exchange shows the offset. -/
theorem syncExchange_effect {s : State} (hs : keysRise s.regs) (k : Fin 4) (t1 t2 t3 t4 : Nat) (hup : s.portUp k = true) :
    let t := (syncExchangeAct k t1 t2 t3 t4).run s
    t.rd (Reg.LINK.TIME_OFS k) =
        BitVec.ofInt 32 ((((t2 : Int) - t1) - ((t4 : Int) - t3)) * 500 + (s.port k).asym) &&& RegRef.mask (Reg.LINK.TIME_OFS k) ∧
      t.mem = s.mem ∧ t.es = s.es ∧ t.tsc = s.tsc ∧ t.out = s.out := by
  intro t
  obtain ⟨a, ha, hrun⟩ : ∃ a : Act, a.Only (.regs (Reg.TSC.TSC_STATUS :: irqOf .LINK k)) ∧ t =
      a.run (s.setReg (Reg.LINK.TIME_OFS k) (BitVec.ofNat 32 (uns 32 ((((t2 : Int) - t1) - ((t4 : Int) - t3)) * 500 + (s.port k).asym)))) := by
    simp only [t, syncExchangeAct, run_get, run_when, hup, if_true]
    generalize (_ == (1 : Nat) && _ : Bool) = mine
    refine ⟨.all [.when mine _], ?_, rfl⟩
    simp only [only_all_cons, only_all_nil, only_when, only_fresh, and_true, only_seq, only_ite]
    exact fun _ _ => ⟨trivial, fun _ => trivial, fun _ => only_alignLost k⟩
  obtain ⟨hregs, hrest⟩ := ha.frame (s.setReg (Reg.LINK.TIME_OFS k) (BitVec.ofNat 32 (uns 32
    ((((t2 : Int) - t1) - ((t4 : Int) - t3)) * 500 + (s.port k).asym))))
  rw [hrun]
  refine ⟨?_, hrest.mem, hrest.es, hrest.tsc, hrest.out⟩
  rw [hregs.rd_off (by simp [irqOf]), rd_setReg_same hs, ofNat_uns32]

/-- R653: the alignment is complete. -/
theorem alignedSet_effect {s : State} (hs : keysRise s.regs) {t0 : Nat} (hw : s.hw.link.within = some t0)
    (hf : s.fld Reg.TSC.TSC_STATUS 3 2 = 1) (ht : t0 + 1000000 ≤ s.now) :
    let t := alignedSetAct.run s
    t.bit Reg.TSC.TSC_STATUS 1 = true ∧ t.bit Reg.TSC.TSC_STATUS 0 = false ∧
      Quiet ([Reg.TSC.TSC_STATUS] ++ irqOf .AON 0) s t := by
  intro t
  let a := s.setReg Reg.TSC.TSC_STATUS (setBits (s.rd Reg.TSC.TSC_STATUS) 1 1 1)
  have hrun : t = (setCoarse false).run a := by
    simp only [t, alignedSetAct, run_get, hw, hf, run_when, ht, decide_true, beq_self_eq_true, Bool.and_self, if_true]
    rfl
  have ha : keysRise a.regs := keysRise_setReg hs _ _
  have hbit : a.bit Reg.TSC.TSC_STATUS 1 = true := by
    rw [State.bit, rd_setReg_same hs, mask_tscStatus, BitVec.getLsbD_and, getLsbD_setBits]; rfl
  rw [hrun]
  refine ⟨?_, (setCoarse_false_effect ha).1, ?_⟩
  · simp only [setCoarse, run_get, run_when, run_seq, run_setFld]
    split
    · rw [State.bit, rd_raise_off (by simp) (by simp), rd_setReg_same ha, mask_tscStatus, BitVec.getLsbD_and, getLsbD_setBits,
        if_neg (by decide)]
      rw [State.bit] at hbit
      rw [hbit]; rfl
    · exact hbit
  · refine ((quiet_setReg s Reg.TSC.TSC_STATUS (setBits (s.rd Reg.TSC.TSC_STATUS) 1 1 1)).mono (by simp)).trans ?_
    simp only [setCoarse, run_get, run_when, run_seq, run_setFld]
    split
    · exact ((quiet_setReg a Reg.TSC.TSC_STATUS (setBits (a.rd Reg.TSC.TSC_STATUS) 0 0 (b2n false))).mono (by simp)).trans ((quiet_raise _ _ _ _).mono (by simp [irqOf]))
    · exact Quiet.rfl'

/-- Settles O21. -/
theorem linkGroup : Obligations.LinkGroup :=
  ⟨fun s _ hl hup h7 hp => ⟨_, command_eq hl.2, deviceNumbering_effect hl hup h7 hp⟩,
    fun s paths hl => ⟨_, command_eq hl.2, routeRecompute_effect hl.1.1.1 paths⟩,
    fun s k t1 t2 t3 t4 hl hup => ⟨_, simply_eq hl.2, syncExchange_effect hl.1.1.1 k t1.toNat t2.toNat t3.toNat t4.toNat hup⟩,
    fun s _ hl hw hf ht => ⟨_, simply_eq hl.2, alignedSet_effect hl.1.1.1 hw hf ht⟩⟩

end Sys2Proof.Machine

/-! ## Proofs: line and frame capture (02_line_and_frame_capture)

Encoders (O23), pattern generators and analogue channels (O24), cameras (O25), scan paths (O26). -/

namespace Sys2Proof.Machine

-- One theorem after the other: elaborated side by side, they hold more threads than the memory limit of a check allows.
set_option Elab.async false

/-! ### What a program keeps -/

/-- A program inside a scope is inside every wider one. -/
theorem Act.Only.weaken {p q : Scope} {a : Act} (ha : a.Only p) (reg : ∀ r, p.reg r → q.reg r) (hw : ∀ f, p.hw f → q.hw f)
    (reset : p.reset → q.reset := by exact id) (mem : p.mem → q.mem := by exact id) (poison : p.poison → q.poison := by exact id)
    (es : p.es → q.es := by exact id) (tsc : p.tsc → q.tsc := by exact id) (out : p.out → q.out := by exact id) : a.Only q := by
  refine ha.mono fun u hu => ?_
  cases u with
  | reg r v => exact reg r hu
  | resetRegs k => exact reset hu
  | bytes a l => exact mem hu
  | dropMem k => exact mem hu
  | poison w => exact poison hu
  | es a l => exact es hu
  | dropEs k => exact es hu
  | tsc t => exact tsc hu
  | out o => exact out hu
  | free => trivial
  | hw f => exact hw f hu

/-- The program leaves `π` of every state with registers in order as it is. -/
def Act.Keeps {α : Type} (π : State → α) (a : Act) : Prop := ∀ s, keysRise s.regs → π (a.run s) = π s

section
variable {α : Type} {π : State → α}

@[simp] theorem keeps_nil : Act.nil.Keeps π := fun _ _ => rfl
theorem Act.Keeps.seq {a b : Act} (ha : a.Keeps π) (hb : b.Keeps π) : (Act.seq a b).Keeps π :=
  fun s hs => (hb _ (rise_run a hs)).trans (ha s hs)
@[simp] theorem keeps_all_nil : (Act.all []).Keeps π := fun _ _ => rfl
theorem Act.Keeps.cons {a : Act} {l : List Act} (ha : a.Keeps π) (hl : (Act.all l).Keeps π) : (Act.all (a :: l)).Keeps π := ha.seq hl
theorem Act.Keeps.when {a : Act} {b : Bool} (ha : b = true → a.Keeps π) : (Act.when b a).Keeps π := fun s hs => by
  rw [run_when]
  split
  next h => exact ha h s hs
  next => rfl
theorem Act.Keeps.get {k : State → Act} (h : ∀ s, (k s).Keeps π) : (Act.get k).Keeps π := fun s hs => h s s hs
theorem Act.Keeps.each {β : Type} {l : List β} {f : β → Act} (h : ∀ x ∈ l, (f x).Keeps π) : (Act.each l f).Keeps π := by
  induction l with
  | nil => exact fun _ _ => rfl
  | cons x l ih => exact (h x List.mem_cons_self).cons (ih fun y hy => h y (List.mem_cons_of_mem _ hy))
end

/-- Everything but register `r` may change. -/
def Scope.but (r : RegRef) : Scope :=
  { reg := fun q => q.key ≠ r.key, mem := True, poison := True, es := True, tsc := True, out := True }

theorem Act.Only.keeps_rd {a : Act} {r : RegRef} (h : a.Only (.but r)) : a.Keeps fun s => s.rd r := fun s _ => h.rd id (fun _ h => h) s
theorem Act.Keeps.fld {a : Act} {r : RegRef} (h : a.Keeps fun s => s.rd r) (hi lo : Nat) : a.Keeps fun s => s.fld r hi lo :=
  fun s hs => congrArg (bits · hi lo) (h s hs)
theorem Act.Keeps.bit {a : Act} {r : RegRef} (h : a.Keeps fun s => s.rd r) (k : Nat) : a.Keeps fun s => s.bit r k :=
  fun s hs => congrArg (BitVec.getLsbD · k) (h s hs)

/-- A field next to the one set stays. -/
theorem keeps_fld_setFld {r : RegRef} {hi lo hi' lo' v : Nat} (h : hi' < lo ∨ hi < lo')
    (hm : bits r.mask hi' lo' = 2 ^ (hi' + 1 - lo') - 1) : (Act.setFld r hi lo v).Keeps fun s => s.fld r hi' lo' := fun s hs => by
  dsimp only
  rw [run_setFld, State.fld, rd_setReg_same hs, bits_and_mask _ _ hm, bits_setBits_other _ _ h, State.fld]

/-- A bit outside the field set stays. -/
theorem keeps_bit_setFld {r : RegRef} {hi lo k v : Nat} (h : k < lo ∨ hi < k) (hm : r.mask.getLsbD k = true) :
    (Act.setFld r hi lo v).Keeps fun s => s.bit r k := fun s hs => by
  dsimp only
  rw [run_setFld, bit_setReg_same hs _ hm, getLsbD_setBits, if_neg (by omega), State.bit]

/-- A bit set by a field of one bit. -/
theorem bit_setFld {s : State} (hs : keysRise s.regs) {r : RegRef} {k v : Nat} (hm : r.mask.getLsbD k = true) :
    ((Act.setFld r k k v).run s).bit r k = v.testBit 0 := by
  have hk : k < 32 := BitVec.lt_of_getLsbD hm
  rw [run_setFld, bit_setReg_same hs _ hm, getLsbD_setBits, if_pos ⟨Nat.le_refl _, Nat.le_refl _, hk⟩, Nat.sub_self]

/-! ### The capture pages -/

/-- The registers of the SFE, AFE and PGEN pages, and block state but the encoders'. -/
def Scope.capture : Scope :=
  { reg := fun r => 0x100 ≤ r.key / 4096 ∧ r.key / 4096 < 0x109, hw := fun f => ∀ h : Hw, (f h).cap.encs = h.cap.encs }

theorem capture_sfe {off : Nat} (h : off < 4096) : Scope.capture.reg ⟨.SFE, 0, off⟩ := by
  simp only [Scope.capture, RegRef.key, Blk.slot]; omega
theorem capture_afe {g off : Nat} (hg : g < 4) (h : off < 4096) : Scope.capture.reg ⟨.AFE, g, off⟩ := by
  simp only [Scope.capture, RegRef.key, Blk.slot]; omega
theorem capture_pgen {g off : Nat} (hg : g < 4) (h : off < 4096) : Scope.capture.reg ⟨.PGEN, g, off⟩ := by
  simp only [Scope.capture, RegRef.key, Blk.slot]; omega
theorem capture_edge (e : BitVec 1024) : Scope.capture.hw (Hw.setEdge e) := fun _ => rfl
theorem capture_pgenState (g : Nat) (f : PgenSt → PgenSt) : (Act.pgen g f).Only .capture := fun _ => rfl
theorem capture_afeState (g : Nat) (f : AfeSt → AfeSt) : (Act.afe g f).Only .capture := fun _ => rfl
theorem capture_path (p : Nat) (f : PathSt → PathSt) : (Act.path p f).Only .capture := fun _ => rfl
theorem capture_event (e : Event) : (Act.event e).Only .capture := fun _ => rfl
theorem capture_raise {b : Blk} {i k : Nat} (h : ∀ off < 4096, Scope.capture.reg ⟨b, i, off⟩) : (Act.raise b i k).Only .capture :=
  only_raise (h _ (by decide)) (h _ (by decide)) capture_edge

theorem only_pathEvent {p : Nat} (hp : p < 16) (k : Nat) : (pathEvent p k).Only .capture :=
  ⟨(only_orReg _ _).2 (capture_sfe (by omega)), capture_raise fun _ h => capture_sfe h⟩

theorem only_showLines {p : Nat} (hp : p < 16) : (showLines p).Only .capture :=
  fun _ => (only_setFld _ _ _ _).2 (capture_sfe (by omega))

theorem only_closeOn (p : Nat) (post : Bool) : (closeOn p post).Only .capture := by
  simp [closeOn, capture_path]

theorem only_maxLines (p : Nat) : (maxLines p).Only .capture := by
  simp [maxLines, capture_path, only_closeOn]

theorem only_startLine {p : Nat} (hp : p < 16) (l : RawLine) : (startLine p l).Only .capture := by
  simp [startLine, capture_path, only_pathEvent hp, only_maxLines, only_showLines hp]

theorem mem_pathsOf {s : State} {ty i q : Nat} (h : q ∈ s.pathsOf ty i) : q < 16 := List.mem_range.1 (List.mem_filter.1 h).1

theorem only_takeTrigger {g : Nat} (hg : g < 4) (t : Trig) (since : Nat) : (takeTrigger g t since).Only .capture := by
  simp only [takeTrigger, only_get, only_all_cons, only_all_nil, only_setFld, only_each, and_true]
  exact fun s => ⟨capture_pgen hg (by simp), capture_pgenState _ _, fun q hq =>
    only_startLine (mem_pathsOf (List.mem_filter.1 hq).1) _⟩

theorem only_pgenTrigger {g : Nat} (hg : g < 4) (t : Trig) : (pgenTrigger g t).Only .capture := by
  have hr (k : Nat) : (Act.raise .PGEN g k).Only .capture := capture_raise fun _ h => capture_pgen hg h
  simp [pgenTrigger, only_takeTrigger hg, capture_pgenState, hr, capture_pgen hg]

/-! ### Items close -/

theorem growFollowers_lt {s : State} {k q : Nat} {l : List Nat} (hl : ∀ x ∈ l, x < 16) (h : q ∈ s.growFollowers k l) : q < 16 := by
  induction k generalizing l with
  | zero => exact hl q h
  | succ k ih =>
    rw [State.growFollowers] at h
    have hm : ∀ x ∈ (List.range 16).filter fun q => !l.contains q && s.followsOne l q, x < 16 := fun x hx =>
      List.mem_range.1 (List.mem_filter.1 hx).1
    generalize (List.range 16).filter _ = m at h hm
    cases m with
    | nil => exact hl q h
    | cons y m => exact ih (fun x hx => (List.mem_append.1 hx).elim (hl x) (hm x)) h

theorem followers_lt {s : State} {p q : Nat} (hp : p < 16) (h : q ∈ s.followers p) : q < 16 :=
  growFollowers_lt (by simpa using hp) (List.mem_of_mem_drop h)

/-- A path is not its own follower. -/
theorem self_not_mem_followers {s : State} {p : Nat} : p ∉ s.followers p := by
  have key : ∀ (k : Nat) (l : List Nat), (∀ x ∈ l, x ≠ p) → ∃ r, s.growFollowers k (p :: l) = p :: r ∧ p ∉ r := by
    intro k
    induction k with
    | zero => exact fun l hl => ⟨l, rfl, fun h => hl p h rfl⟩
    | succ k ih =>
      intro l hl
      have hm : ∀ x ∈ (List.range 16).filter fun q => !(p :: l).contains q && s.followsOne (p :: l) q, x ≠ p := by
        rintro x hx rfl
        simp at hx
      rw [State.growFollowers]
      generalize (List.range 16).filter _ = m at hm
      cases m with
      | nil => exact ⟨l, rfl, fun h => hl p h rfl⟩
      | cons y m => exact ih (l ++ y :: m) fun x hx => (List.mem_append.1 hx).elim (hl x) (hm x)
  obtain ⟨r, hr, hp⟩ := key 15 [] (by simp)
  rw [State.followers, hr]
  exact hp

theorem only_endItems {p : Nat} (hp : p < 16) : (endItems p).Only .capture := by
  have h1 : Scope.capture.reg (Reg.SFE.PATH_STATUS p) := capture_sfe (by omega)
  simp only [endItems, only_get, only_when, only_all_cons, only_all_nil, only_setFld, only_each]
  exact fun s _ => ⟨capture_path _ _, h1, fun _ _ => capture_event _, trivial⟩

theorem only_abortPath {p : Nat} (hp : p < 16) (which : PathItem → Bool) : (abortPath p which).Only .capture := by
  simp [abortPath, capture_path, only_endItems hp]

theorem only_abortOn {p : Nat} (hp : p < 16) (which : PathItem → Bool) : (abortOn p which).Only .capture := by
  simp only [abortOn, only_get, only_seq, only_each]
  exact fun s => ⟨only_abortPath hp _, fun q hq => only_abortPath (followers_lt hp hq) _⟩

/-! ### Encoders (R83 to R90) -/

theorem mask_encStatus (n : Fin 8) : RegRef.mask (Reg.ENC.ENC_STATUS n) = 0x0000000F := by revert n; decide +kernel
theorem mask_encEvents (n : Fin 8) : RegRef.mask (Reg.ENC.ENC_EVENTS n) = 0x0000000F := by revert n; decide +kernel
theorem mask_trigCnt (n : Fin 8) : RegRef.mask (Reg.ENC.TRIG_CNT n) = 0xFFFFFFFF := by revert n; decide +kernel
theorem mask_posLo (n : Fin 8) : RegRef.mask (Reg.ENC.POS_LO n) = 0xFFFFFFFF := by revert n; decide +kernel
theorem mask_posHi (n : Fin 8) : RegRef.mask (Reg.ENC.POS_HI n) = 0xFFFFFFFF := by revert n; decide +kernel

/-- What a line trigger of encoder `n` may change. -/
def Scope.trigger (n : Nat) : Scope :=
  { reg := fun r => r.key = (Reg.ENC.TRIG_CNT n).key ∨ Scope.capture.reg r, out := True,
    hw := fun f => ∀ h : Hw, (f h).cap.encs.map (fun e => (e.pos, e.nextTimer, e.lineTimer)) =
      h.cap.encs.map (fun e => (e.pos, e.nextTimer, e.lineTimer)) }

theorem Act.Only.trigger {a : Act} (h : a.Only .capture) (n : Nat) : a.Only (.trigger n) :=
  h.weaken (fun _ hr => .inr hr) (fun _ hf h => congrArg (List.map _) (hf h)) (out := fun _ => trivial)

theorem only_pinPulse {p : Scope} (h : p.out) (f i : Nat) : (pinPulse f i).Only p := by
  simp [pinPulse, h]

theorem only_cxpTrigger (m n : Nat) (t : Trig) : (cxpTrigger m t).Only (.trigger n) := ⟨trivial, fun _ => rfl⟩

theorem map_updAt {α β : Type} (g : α → β) (f : α → α) (h : ∀ x, g (f x) = g x) (i : Nat) (l : List α) :
    (updAt f i l).map g = l.map g := by
  induction l generalizing i with
  | nil => cases i <;> rfl
  | cons x l ih => cases i <;> simp [updAt, h, ih]

theorem only_encTrigger {n : Nat} (t : Trig) : (encTrigger n t).Only (.trigger n) := by
  simp only [encTrigger, only_get, only_all_cons, only_all_nil, only_bump, only_each, and_true]
  refine fun s => ⟨.inl rfl, fun h => map_updAt _ _ (fun e => ?_) n h.cap.encs, fun g hg => ?_,
    fun m _ => only_cxpTrigger m n t, only_pinPulse trivial _ _⟩
  · rfl
  · exact (only_pgenTrigger (List.mem_range.1 (List.mem_filter.1 hg).1) t).trigger n

/-- An encoder's state changed. -/
theorem enc_run_enc {s : State} {n : Nat} (h : n < s.hw.cap.encs.length) (f : EncSt → EncSt) :
    ((Act.enc n f).run s).enc n = f (s.enc n) := by
  simp only [State.enc, Act.enc, Act.cap, run_hw, mapHw_hw]
  rw [getD_updAt, if_pos h]

theorem enc_of_map {β : Type} (π : EncSt → β) {s t : State} (h : t.hw.cap.encs.map π = s.hw.cap.encs.map π) (n : Nat) :
    π (t.enc n) = π (s.enc n) := by
  have hd (u : State) : π (u.enc n) = (u.hw.cap.encs.map π).getD n (π {}) := (List.getD_map ..).symm
  rw [hd, hd, h]

/-- What the trigger generator of encoder `n` may change. -/
def Scope.count (n : Nat) : Scope :=
  { reg := fun r => r.key = (Reg.ENC.PERIOD_NS n).key ∨ (Scope.trigger n).reg r, out := True,
    hw := fun f => ∀ h : Hw, (f h).cap.encs.map (·.pos) = h.cap.encs.map (·.pos) }

theorem Act.Only.count {a : Act} {n : Nat} (h : a.Only (.trigger n)) : a.Only (.count n) := by
  refine h.weaken (fun _ hr => .inr hr) fun f hf h => ?_
  have := congrArg (List.map Prod.fst) (hf h)
  rwa [List.map_map, List.map_map] at this

theorem only_encPos {n : Nat} (k : Nat) {f : EncSt → EncSt} (hf : ∀ e, (f e).pos = e.pos) : (Act.enc k f).Only (.count n) :=
  fun h => map_updAt (·.pos) f hf k h.cap.encs

theorem only_encCount (n : Nat) (forward : Bool) : (encCount n forward).Only (.count n) := by
  simp only [encCount, only_get, only_ite, only_all_cons, only_all_nil, only_when, only_wrN]
  exact fun s => ⟨fun _ => ⟨only_encPos n fun _ => rfl, fun _ => .inl rfl, (only_encTrigger _).count, trivial⟩,
    fun _ => only_encPos n fun _ => rfl⟩

theorem only_armOverspeed (n : Nat) : (armOverspeed n).Only (.count n) := by
  simp only [armOverspeed, only_get, only_when]
  exact fun s _ => only_encPos n fun _ => rfl

/-- The trigger generator touches neither ENC_STATUS nor POS. -/
theorem count_ne {n : Fin 8} {r : RegRef} (h : (Scope.count n).reg r) : r.key ≠ (Reg.ENC.ENC_STATUS n).key ∧
    r.key ≠ (Reg.ENC.POS_LO n).key ∧ r.key ≠ (Reg.ENC.POS_HI n).key := by
  have hn := n.isLt
  rcases h with h | h | h
  · rw [h]; simp [RegRef.key]
  · rw [h]; simp [RegRef.key]
  · simp only [Scope.capture, RegRef.key, Blk.slot] at h ⊢; omega

theorem keeps_encStatus {n : Fin 8} {a : Act} (h : a.Only (.count n)) (k : Nat) : a.Keeps fun s => s.bit (Reg.ENC.ENC_STATUS n) k :=
  Act.Keeps.bit (fun s _ => h.rd id (fun _ hr => (count_ne hr).1) s) k

/-- What an edge does after it has been counted: the overspeed goes on or ends, or the trigger generator takes the count. -/
def edgeTail (n : Nat) (s : State) (forward : Bool) (d : Int) : Act :=
  if s.bit (Reg.ENC.ENC_STATUS n) 0 then
    if s.fld (Reg.ENC.RECOVER n) 15 0 ≤ (s.enc n).recover + 1 then
      .seq (.setFld (Reg.ENC.ENC_STATUS n) 0 0 0)
           (.enc n fun e => { e with acc := 0, nextTimer := none, firstAfter := true })
    else armOverspeed n
  else .when (decide (d ≠ 0)) (encCount n forward)

/-- The scope of that, and ENC_STATUS. -/
def Scope.edge (n : Nat) : Scope := { Scope.count n with reg := fun r => r.key = (Reg.ENC.ENC_STATUS n).key ∨ (Scope.count n).reg r }

theorem Act.Only.edge {a : Act} {n : Nat} (h : a.Only (.count n)) : a.Only (.edge n) :=
  h.weaken (fun _ hr => .inr hr) fun _ hf => hf

theorem only_edgeTail (n : Nat) (s : State) (forward : Bool) (d : Int) : (edgeTail n s forward d).Only (.edge n) := by
  simp only [edgeTail, only_ite, only_seq, only_setFld, only_when]
  refine ⟨fun _ => ⟨fun _ => ⟨.inl rfl, Act.Only.edge ?_⟩, fun _ => (only_armOverspeed n).edge⟩, fun _ _ => (only_encCount n forward).edge⟩
  exact only_encPos n fun _ => rfl

theorem bit_mask4 : ∀ k < 4, (0x0000000F : Word).getLsbD k = true := by decide

theorem keeps_edgeTail {n : Fin 8} (s : State) (forward : Bool) (d : Int) {k : Nat} (hk : 0 < k) (hk4 : k < 4) :
    (edgeTail n s forward d).Keeps fun s => s.bit (Reg.ENC.ENC_STATUS n) k := by
  unfold edgeTail
  split
  · split
    · exact (keeps_bit_setFld (.inr hk) (by rw [mask_encStatus]; exact bit_mask4 k hk4)).seq fun _ _ => rfl
    · exact keeps_encStatus (only_armOverspeed n) k
  · exact .when fun _ => keeps_encStatus (only_encCount n forward) k

theorem toNat_and_ones (v : Word) : v &&& 0xFFFFFFFF = v := BitVec.and_allOnes

/-- POS shows the signed count. -/
theorem rd64_showPos {s : State} (hs : keysRise s.regs) (n : Fin 8) :
    ((showPos n).run s).rd64 (Reg.ENC.POS_LO n) (Reg.ENC.POS_HI n) = uns 64 (s.enc n).pos := by
  have hlt : uns 64 (s.enc n).pos < 2 ^ 64 := by
    have := Int.emod_lt_of_pos (s.enc n).pos (b := ((2 ^ 64 : Nat) : Int)) (by decide)
    unfold uns; omega
  have hrun : (showPos n).run s = (s.setReg (Reg.ENC.POS_LO n) (BitVec.ofNat 32 (uns 64 (s.enc n).pos % 4294967296))).setReg
    (Reg.ENC.POS_HI n) (BitVec.ofNat 32 (uns 64 (s.enc n).pos / 4294967296 % 4294967296)) := rfl
  rw [hrun, State.rd64, rd_setReg_off (by simp), rd_setReg_same hs, rd_setReg_same (keysRise_setReg hs _ _), mask_posLo, mask_posHi,
    toNat_and_ones, toNat_and_ones, BitVec.toNat_ofNat, BitVec.toNat_ofNat]
  omega

/-- R83: an accepted edge, up to what follows from the count. -/
theorem run_encoderEdgeAct {s : State} (n : Fin 8) (fwd : Bool) (hon : s.bit (Reg.ENC.ENC_CTRL n) 0 = true)
    (hgap : ∀ t0, (s.enc n).lastEdge = some t0 → t0 + max 10 (s.fld (Reg.ENC.FILT n) 9 0) * 5 ≤ s.now) :
    ∃ f : EncSt → EncSt, (f (s.enc n)).pos =
        (s.enc n).pos + (countStep (s.edgesPerCount n) (s.enc n).sub (fwd != s.bit (Reg.ENC.ENC_CTRL n) 1)).1 ∧
      ∃ d, (encoderEdgeAct n fwd false).run s = (edgeTail n s (fwd != s.bit (Reg.ENC.ENC_CTRL n) 1) d).run
        ((Act.setFld (Reg.ENC.ENC_STATUS n) 3 3 (b2n !(fwd != s.bit (Reg.ENC.ENC_CTRL n) 1))).run
          ((Act.setFld (Reg.ENC.ENC_STATUS n) 1 1 0).run ((showPos n).run ((Act.enc n f).run s)))) := by
  cases h : (s.enc n).lastEdge with
  | none =>
    simp only [encoderEdgeAct, run_get, run_when, hon, if_true, h, Bool.or_false, Bool.false_eq_true, if_false]
    exact ⟨_, rfl, _, rfl⟩
  | some t0 =>
    have hsoon : decide (s.now < t0 + max 10 (s.fld (Reg.ENC.FILT n) 9 0) * 5) = false :=
      decide_eq_false (Nat.not_lt.2 (hgap t0 h))
    simp only [encoderEdgeAct, run_get, run_when, hon, if_true, h, hsoon, Bool.or_false, Bool.false_eq_true, if_false]
    exact ⟨_, rfl, _, rfl⟩

/-- R83, R120: an accepted edge. -/
theorem encoderEdge_effect {s : State} (hs : keysRise s.regs) (n : Fin 8) (fwd : Bool) (hon : s.bit (Reg.ENC.ENC_CTRL n) 0 = true)
    (hn : n.val < s.hw.cap.encs.length)
    (hgap : ∀ t0, (s.enc n).lastEdge = some t0 → t0 + max 10 (s.fld (Reg.ENC.FILT n) 9 0) * 5 ≤ s.now) :
    let forward := fwd != s.bit (Reg.ENC.ENC_CTRL n) 1
    let t := (encoderEdgeAct n fwd false).run s
    (t.enc n).pos = (s.enc n).pos + (countStep (s.edgesPerCount n) (s.enc n).sub forward).1 ∧
      t.rd64 (Reg.ENC.POS_LO n) (Reg.ENC.POS_HI n) = uns 64 (t.enc n).pos ∧ t.bit (Reg.ENC.ENC_STATUS n) 1 = false ∧
      t.bit (Reg.ENC.ENC_STATUS n) 3 = !forward ∧ t.tsc = s.tsc ∧ t.es = s.es ∧ t.mem = s.mem := by
  obtain ⟨f, hf, d, hrun⟩ := run_encoderEdgeAct n fwd hon hgap
  intro forward t
  have htail := only_edgeTail n s forward d
  let a := (Act.enc n f).run s
  let b := (showPos n).run a
  let c := (Act.setFld (Reg.ENC.ENC_STATUS n) 1 1 0).run b
  let e := (Act.setFld (Reg.ENC.ENC_STATUS n) 3 3 (b2n !forward)).run c
  have ht : t = (edgeTail n s forward d).run e := hrun
  have hb : keysRise b.regs := rise_run _ (s := a) hs
  have hc : keysRise c.regs := rise_run _ hb
  have he : keysRise e.regs := rise_run _ hc
  have hpos : (t.enc n).pos = (a.enc n).pos := by
    rw [ht]; exact enc_of_map EncSt.pos (htail.hw (fun h => h.cap.encs.map EncSt.pos) (fun _ h => h) e) n
  have hm : ∀ k < 4, (RegRef.mask (Reg.ENC.ENC_STATUS n)).getLsbD k = true := by rw [mask_encStatus]; exact bit_mask4
  have hrd (r : RegRef) (h : ∀ q, (Scope.edge n).reg q → q.key ≠ r.key) : t.rd r = b.rd r := by
    rw [ht, htail.rd id h]
    exact (rd_setReg_ne _ (h _ (.inl rfl))).trans (rd_setReg_ne _ (h _ (.inl rfl)))
  have hne : ∀ q, (Scope.edge n).reg q → q.key ≠ (Reg.ENC.POS_LO n).key ∧ q.key ≠ (Reg.ENC.POS_HI n).key := by
    rintro q (h | h)
    · rw [h]; simp [RegRef.key]
    · exact (count_ne h).2
  refine ⟨?_, ?_, ?_, ?_, ?_, ?_, ?_⟩
  · rw [hpos, ← hf]
    exact congrArg EncSt.pos (enc_run_enc hn f)
  · rw [hpos, State.rd64, hrd _ fun q h => (hne q h).1, hrd _ fun q h => (hne q h).2]
    exact rd64_showPos (s := a) hs n
  · rw [ht]
    exact (keeps_edgeTail s forward d (by decide) (by decide) e he).trans
      ((keeps_bit_setFld (.inl (by decide)) (hm 1 (by decide)) c hc).trans (bit_setFld hb (hm 1 (by decide))))
  · rw [ht]
    refine (keeps_edgeTail s forward d (by decide) (by decide) e he).trans ((bit_setFld hc (hm 3 (by decide))).trans ?_)
    cases forward <;> rfl
  · rw [ht, htail.tsc id]; rfl
  · rw [ht, htail.es id]; rfl
  · rw [ht, htail.mem id]; rfl

theorem bit_orReg {s : State} (hs : keysRise s.regs) {r : RegRef} (v : Word) {k : Nat} (hm : r.mask.getLsbD k = true) :
    ((Act.orReg r v).run s).bit r k = (s.bit r k || v.getLsbD k) := by
  rw [run_orReg, bit_setReg_same hs _ hm, BitVec.getLsbD_or, State.bit]

/-- R86: an illegal transition is overspeed. -/
theorem encOverspeed_effect {s : State} (hs : keysRise s.regs) (n : Fin 8) :
    let t := (encOverspeed n true).run s
    t.bit (Reg.ENC.ENC_STATUS n) 0 = true ∧ t.bit (Reg.ENC.ENC_EVENTS n) 3 = true ∧
      SameRegs ([Reg.ENC.ENC_STATUS n, Reg.ENC.ENC_EVENTS n, Reg.ENC.OVERSPEED_CNT n] ++ irqOf .ENC n) s t ∧ SameRest s t := by
  intro t
  have honly : (encOverspeed n true).Only
      (.regs ([Reg.ENC.ENC_STATUS n, Reg.ENC.ENC_EVENTS n, Reg.ENC.OVERSPEED_CNT n] ++ irqOf .ENC n)) := by
    simp [encOverspeed, armOverspeed, Act.enc, Act.cap, irqOf]
  have hmS : (RegRef.mask (Reg.ENC.ENC_STATUS n)).getLsbD 0 = true := by rw [mask_encStatus]; rfl
  have hmE : (RegRef.mask (Reg.ENC.ENC_EVENTS n)).getLsbD 3 = true := by rw [mask_encEvents]; rfl
  let a := (Act.orReg (Reg.ENC.ENC_EVENTS n) 8).run s
  let b := (Act.enc n fun e => { e with recover := 0 }).run a
  let start : Act := .all
    [.setFld (Reg.ENC.ENC_STATUS n) 0 0 1, .orReg (Reg.ENC.ENC_EVENTS n) 1, .bump (Reg.ENC.OVERSPEED_CNT n) 1, .raise .ENC n 0]
  have hrun : t = (armOverspeed n).run ((Act.when (!s.bit (Reg.ENC.ENC_STATUS n) 0) start).run b) := rfl
  have hb : keysRise b.regs := keysRise_setReg hs _ _
  have hbS : b.bit (Reg.ENC.ENC_STATUS n) 0 = s.bit (Reg.ENC.ENC_STATUS n) 0 := congrArg (BitVec.getLsbD · 0) (rd_setReg_off (by simp))
  have hbE : b.bit (Reg.ENC.ENC_EVENTS n) 3 = true := (bit_orReg hs 8 hmE).trans (Bool.or_true _)
  have harm (r : RegRef) (u : State) : ((armOverspeed n).run u).rd r = u.rd r :=
    Act.Only.rd (p := { reg := fun _ => False }) (by simp [armOverspeed, Act.enc, Act.cap]) id (fun _ h => h.elim) u
  refine ⟨?_, ?_, honly.frame s⟩
  · rw [hrun, State.bit, harm, run_when]
    split
    · have hk : (Act.all [.orReg (Reg.ENC.ENC_EVENTS n) 1, .bump (Reg.ENC.OVERSPEED_CNT n) 1, .raise .ENC n 0]).Only
          (.but (Reg.ENC.ENC_STATUS n)) := by simp [Scope.but, RegRef.key]
      exact (hk.keeps_rd.bit 0 _ (keysRise_setReg hb _ _)).trans (bit_setFld hb hmS)
    next h => rw [← State.bit, hbS]; simpa using h
  · rw [hrun, State.bit, harm, run_when]
    split
    · have hk : (Act.all [.bump (Reg.ENC.OVERSPEED_CNT n) 1, .raise .ENC n 0]).Only (.but (Reg.ENC.ENC_EVENTS n)) := by
        simp [Scope.but, RegRef.key]
      have h1 : ((Act.setFld (Reg.ENC.ENC_STATUS n) 0 0 1).run b).bit (Reg.ENC.ENC_EVENTS n) 3 = true :=
        (congrArg (BitVec.getLsbD · 3) (rd_setReg_off (by simp))).trans hbE
      refine (hk.keeps_rd.bit 3 _ (keysRise_setReg (keysRise_setReg hb _ _) _ _)).trans ((bit_orReg (keysRise_setReg hb _ _) 1 hmE).trans ?_)
      exact congrArg (· || _) h1
    next => exact hbE

/-- A line trigger is counted, the timers go on. -/
theorem encTrigger_effect {s : State} (hs : keysRise s.regs) (n : Fin 8) (t : Trig) (hc : (s.rd (Reg.ENC.TRIG_CNT n)).toNat < 4294967295) :
    let u := (encTrigger n t).run s
    (u.enc n).nextTimer = (s.enc n).nextTimer ∧ (u.enc n).lineTimer = (s.enc n).lineTimer ∧
      (u.rd (Reg.ENC.TRIG_CNT n)).toNat = (s.rd (Reg.ENC.TRIG_CNT n)).toNat + 1 ∧ u.tsc = s.tsc ∧ u.mem = s.mem := by
  intro u
  have honly := only_encTrigger (n := n) t
  have henc := enc_of_map (fun e => (e.pos, e.nextTimer, e.lineTimer)) (honly.hw (fun h => h.cap.encs.map _) (fun _ h => h) s) n
  obtain ⟨-, h1, h2⟩ : _ ∧ _ ∧ _ := by simpa only [Prod.mk.injEq] using henc
  refine ⟨h1, h2, ?_, honly.tsc id s, honly.mem id s⟩
  let rest : Act := .all
    [.enc n fun e => { e with div := e.divPend.getD e.div, divPend := none },
     .each ((List.range 4).filter fun g => s.pgenTakes g n t.src) fun g => pgenTrigger g t,
     .each ((List.range 8).filter fun m => s.cxpTakes m n t.src) fun m => cxpTrigger m t,
     pinPulse 7 n]
  have hrest : rest.Only { Scope.capture with hw := fun _ => True, out := True } := by
    refine ⟨trivial, (only_each _ _).2 fun g hg => ?_, (only_each _ _).2 fun m _ => ⟨trivial, trivial⟩, only_pinPulse trivial 7 n, trivial⟩
    exact (only_pgenTrigger (List.mem_range.1 (List.mem_filter.1 hg).1) t).weaken (fun _ h => h) (fun _ _ => trivial) (out := fun _ => trivial)
  have hn := n.isLt
  have hkeep : u.rd (Reg.ENC.TRIG_CNT n) = ((Act.bump (Reg.ENC.TRIG_CNT n) 1).run s).rd (Reg.ENC.TRIG_CNT n) :=
    hrest.rd id (fun q hq => by simp only [Scope.capture, RegRef.key, Blk.slot] at hq ⊢; omega) _
  have h1 : (1 : Word).toNat = 1 := rfl
  rw [hkeep, rd_bump_one hs _ hc, mask_trigCnt, toNat_and_ones, BitVec.toNat_add]
  omega

/-- R87: the overspeed timer triggers. -/
theorem overspeedTimer_effect {s : State} (hs : keysRise s.regs) (n : Fin 8) {t0 : Nat} (hnext : (s.enc n).nextTimer = some t0)
    (hover : s.bit (Reg.ENC.ENC_STATUS n) 0 = true) (ht : t0 ≤ s.now) (hn : n.val < s.hw.cap.encs.length)
    (hc : (s.rd (Reg.ENC.TRIG_CNT n)).toNat < 4294967295) :
    let t := (overspeedTimerAct n).run s
    (t.enc n).nextTimer = some (t0 + s.linePeriod n) ∧
      (t.rd (Reg.ENC.TRIG_CNT n)).toNat = (s.rd (Reg.ENC.TRIG_CNT n)).toNat + 1 ∧ t.tsc = s.tsc ∧ t.mem = s.mem := by
  have hrun : (overspeedTimerAct n).run s = (encTrigger n { stamp := s.now, src := .count n, timer := true }).run
      ((Act.enc n fun e => { e with nextTimer := some (t0 + s.linePeriod n) }).run s) := by
    simp only [overspeedTimerAct, run_get, hnext, run_when, hover, ht, decide_true, Bool.and_self, if_true, run_seq]
  obtain ⟨h1, -, h2, h3, h4⟩ := encTrigger_effect (s := (Act.enc n fun e => { e with nextTimer := some (t0 + s.linePeriod n) }).run s)
    hs n { stamp := s.now, src := .count n, timer := true } hc
  rw [hrun]
  exact ⟨h1.trans (congrArg EncSt.nextTimer (enc_run_enc hn _)), h2, h3, h4⟩

/-- R117: the line timer triggers. -/
theorem encTimer_effect {s : State} (hs : keysRise s.regs) (n : Fin 8) {t0 : Nat} (hnext : (s.enc n).lineTimer = some t0)
    (hp : s.timerPaths n ≠ []) (ht : t0 ≤ s.now) (hn : n.val < s.hw.cap.encs.length)
    (hc : (s.rd (Reg.ENC.TRIG_CNT n)).toNat < 4294967295) :
    let t := (encTimerAct n).run s
    (t.enc n).lineTimer = some (t0 + (s.rd (Reg.ENC.TIME_PERIOD n)).toNat) ∧
      (t.rd (Reg.ENC.TRIG_CNT n)).toNat = (s.rd (Reg.ENC.TRIG_CNT n)).toNat + 1 ∧ t.tsc = s.tsc ∧ t.mem = s.mem := by
  have hne : (!(s.timerPaths n).isEmpty) = true := by simpa [List.isEmpty_iff] using hp
  let a := (Act.enc n fun e => { e with lineTimer := some (t0 + (s.rd (Reg.ENC.TIME_PERIOD n)).toNat) }).run s
  have hrun : (encTimerAct n).run s = (encTrigger n { stamp := s.now, src := .timer n }).run a := by
    simp only [encTimerAct, run_get, hnext, run_when, hne, ht, decide_true, Bool.and_self, if_true, run_seq]
    rfl
  obtain ⟨-, h1, h2, h3, h4⟩ := encTrigger_effect (s := a) hs n { stamp := s.now, src := .timer n } hc
  rw [hrun]
  exact ⟨h1.trans (congrArg EncSt.lineTimer (enc_run_enc hn _)), h2, h3, h4⟩

/-- The scope of what closes the items of an encoder's paths: the capture pages and the encoder's events and sources. -/
def Scope.encClose (n : Nat) : Scope :=
  { reg := fun r => r.key ∈ [(Reg.ENC.ENC_EVENTS n).key, (Reg.HDR.IRQ_PEND .ENC n).key, (Reg.HDR.IRQ_MASK .ENC n).key] ∨
      Scope.capture.reg r }

theorem only_closePaths {n : Nat} {l : List Nat} (hl : ∀ p ∈ l, p < 16) :
    (Act.each l fun p => .seq (abortOn p fun _ => true) (pathEvent p 3)).Only (.encClose n) := by
  refine (only_each _ _).2 fun p hp => ⟨?_, ?_⟩
  · exact (only_abortOn (hl p hp) _).weaken (fun _ h => .inr h) fun _ _ => trivial
  · exact (only_pathEvent (hl p hp) 3).weaken (fun _ h => .inr h) fun _ _ => trivial

theorem encClose_ne_status {n : Fin 8} {q : RegRef} (h : (Scope.encClose n).reg q) : q.key ≠ (Reg.ENC.ENC_STATUS n).key := by
  have hn := n.isLt
  rcases h with h | h
  · simp only [List.mem_cons, List.not_mem_nil, or_false] at h
    rcases h with h | h | h <;> rw [h] <;> simp [RegRef.key]
  · simp only [Scope.capture, RegRef.key, Blk.slot] at h ⊢; omega

theorem mem_withItem {s : State} {n p : Nat} (h : p ∈ s.withItem (s.encPaths n)) : p < 16 :=
  List.mem_range.1 (List.mem_filter.1 (List.mem_filter.1 h).1).1

/-- R89: no edge for STALL_US. -/
theorem encoderStall_effect {s : State} (hs : keysRise s.regs) (n : Fin 8) (hon : s.bit (Reg.ENC.ENC_CTRL n) 0 = true)
    (hst : s.stalled n = true) :
    let t := (encoderStallAct n).run s
    t.bit (Reg.ENC.ENC_STATUS n) 1 = true ∧
      (s.withItem (s.encPaths n) ≠ [] → t.bit (Reg.HDR.IRQ_PEND .ENC n) 1 = true) ∧ SameRest s t := by
  let a := (Act.setFld (Reg.ENC.ENC_STATUS n) 1 1 1).run s
  let close : Act := .each (s.withItem (s.encPaths n)) fun p => .seq (abortOn p fun _ => true) (pathEvent p 3)
  let tell : Act := .when (!(s.withItem (s.encPaths n)).isEmpty) (.seq (.orReg (Reg.ENC.ENC_EVENTS n) 2) (.raise .ENC n 1))
  have hrun : (encoderStallAct n).run s = (Act.seq close tell).run ((Act.enc n fun e => { e with nextTimer := none }).run a) := by
    simp only [encoderStallAct, run_get, run_when, hon, hst, Bool.and_self, if_true]
    rfl
  have hclose : close.Only (.encClose n) := only_closePaths fun p => mem_withItem
  have htell : tell.Only (.encClose n) := (only_when _ _).2 fun _ => by simp [Scope.encClose]
  have hboth : (Act.seq close tell).Only (.encClose n) := ⟨hclose, htell⟩
  rw [hrun]
  refine ⟨?_, fun h => ?_, ?_⟩
  · rw [State.bit, hboth.rd id (fun q hq => encClose_ne_status hq)]
    exact bit_setFld hs (by rw [mask_encStatus]; rfl)
  · have hne : (!(s.withItem (s.encPaths n)).isEmpty) = true := by simpa [List.isEmpty_iff] using h
    simp only [tell, hne, run_seq, run_when, if_true]
    exact bit_raise (rise_run _ (rise_run close (s := (Act.enc n fun e => { e with nextTimer := none }).run a) (keysRise_setReg hs _ _)))
      n.isLt (by decide)
  · exact SameRest.trans (t := (Act.enc n fun e => { e with nextTimer := none }).run a) ⟨rfl, rfl, rfl, rfl, rfl⟩
      (hboth.sameRest id id id id id _)

/-- R90: a line fault. -/
theorem encoderLineFault_effect {s : State} (hs : keysRise s.regs) (n : Fin 8) (hon : s.bit (Reg.ENC.ENC_CTRL n) 0 = true) :
    let t := (encoderLineFaultAct n).run s
    t.bit (Reg.ENC.ENC_STATUS n) 2 = true ∧ t.bit (Reg.ENC.ENC_EVENTS n) 2 = true ∧
      (s.withItem (s.encPaths n) ≠ [] → t.bit (Reg.HDR.IRQ_PEND .ENC n) 1 = true) ∧ SameRest s t := by
  let a := (Act.setFld (Reg.ENC.ENC_STATUS n) 2 2 1).run s
  let b := (Act.orReg (Reg.ENC.ENC_EVENTS n) 4).run a
  let close : Act := .each (s.withItem (s.encPaths n)) fun p => .seq (abortOn p fun _ => true) (pathEvent p 3)
  let tell : Act := .when (!(s.withItem (s.encPaths n)).isEmpty) (.raise .ENC n 1)
  have hrun : (encoderLineFaultAct n).run s = (Act.seq close tell).run b := by
    simp only [encoderLineFaultAct, run_get, run_when, hon, if_true]
    rfl
  have hb : keysRise b.regs := keysRise_setReg (keysRise_setReg hs _ _) _ _
  have hboth : (Act.seq close tell).Only { Scope.encClose n with
      reg := fun r => r.key ∈ [(Reg.HDR.IRQ_PEND .ENC n).key, (Reg.HDR.IRQ_MASK .ENC n).key] ∨ Scope.capture.reg r } := by
    refine ⟨(only_each _ _).2 fun p hp => ⟨?_, ?_⟩, (only_when _ _).2 fun _ => by simp [Scope.encClose]⟩
    · exact (only_abortOn (mem_withItem hp) _).weaken (fun _ h => .inr h) fun _ _ => trivial
    · exact (only_pathEvent (mem_withItem hp) 3).weaken (fun _ h => .inr h) fun _ _ => trivial
  rw [hrun]
  refine ⟨?_, ?_, fun h => ?_, ?_⟩
  · rw [State.bit, hboth.rd id fun q hq => encClose_ne_status (hq.imp_left (List.mem_cons_of_mem _))]
    exact (congrArg (BitVec.getLsbD · 2) (rd_setReg_off (by simp))).trans (bit_setFld hs (by rw [mask_encStatus]; rfl))
  · have hn := n.isLt
    rw [State.bit, hboth.rd id ?_]
    · exact (bit_orReg (keysRise_setReg hs _ _) 4 (by rw [mask_encEvents]; rfl)).trans (Bool.or_true _)
    · rintro q (hq | hq)
      · simp only [List.mem_cons, List.not_mem_nil, or_false] at hq
        rcases hq with hq | hq <;> rw [hq] <;> simp [RegRef.key]
      · simp only [Scope.capture, RegRef.key, Blk.slot] at hq ⊢; omega
  · have hne : (!(s.withItem (s.encPaths n)).isEmpty) = true := by simpa [List.isEmpty_iff] using h
    simp only [tell, hne, run_seq, run_when, if_true]
    exact bit_raise (rise_run close hb) n.isLt (by decide)
  · exact SameRest.trans (t := b) ⟨rfl, rfl, rfl, rfl, rfl⟩ (hboth.sameRest id id id id id _)

theorem divFrac_row (n : Fin 8) : (Reg.ENC.DIV_FRAC n).row = some ⟨0x04C, 1, 0x04, .RW, 0xFFFFFFFF, 0xFFFFFFFF, 0x0, 0x00000000, false⟩ := by
  revert n; decide +kernel
theorem mask_divFrac (n : Fin 8) : RegRef.mask (Reg.ENC.DIV_FRAC n) = 0xFFFFFFFF := by revert n; decide +kernel

/-- R84: the divider written. -/
theorem divFracAct_effect {s : State} (hs : keysRise s.regs) (n : Fin 8) (v : Word) (hn : n.val < s.hw.cap.encs.length) :
    let d := max 4294967296 (s.fld (Reg.ENC.DIV_INT n) 23 0 * 4294967296 + v.toNat)
    let t := (divFracAct n v).run s
    t.rd (Reg.ENC.DIV_FRAC n) = v ∧
      (s.bit (Reg.ENC.ENC_CTRL n) 0 = true → (t.enc n).divPend = some d ∧ (t.enc n).div = (s.enc n).div) ∧
      (s.bit (Reg.ENC.ENC_CTRL n) 0 = false → (t.enc n).div = d) ∧ t.tsc = s.tsc ∧ t.es = s.es ∧ t.out = s.out := by
  intro d t
  let a := s.setReg (Reg.ENC.DIV_FRAC n) v
  have ha : a.rd (Reg.ENC.DIV_FRAC n) = v := (rd_setReg_same hs _ v).trans (by rw [mask_divFrac, toNat_and_ones])
  have hd : a.divWritten n = d := by
    have h1 : a.rd (Reg.ENC.DIV_INT n) = s.rd (Reg.ENC.DIV_INT n) := rd_setReg_off (by simp)
    rw [State.divWritten, ha, State.fld, h1]; rfl
  have hctrl : a.bit (Reg.ENC.ENC_CTRL n) 0 = s.bit (Reg.ENC.ENC_CTRL n) 0 := congrArg (BitVec.getLsbD · 0) (rd_setReg_off (by simp))
  let b := (Act.when (a.fld (Reg.ENC.DIV_INT n) 23 0 == 0) (.cfgErr .ENC n)).run a
  have hw : (Act.when (a.fld (Reg.ENC.DIV_INT n) 23 0 == 0) (.cfgErr .ENC n)).Only
      { Scope.regs [Reg.HDR.ERR_STATUS .ENC n] with hw := fun _ => False } := by simp [Scope.regs]
  have hbh : b.hw = s.hw := hw.hw id (fun _ h => h.elim) a
  have hbe (k : Nat) : b.enc k = s.enc k := by rw [State.enc, hbh]; rfl
  have hbr : b.rd (Reg.ENC.DIV_FRAC n) = v := (hw.rd id (fun q hq => by
    simp only [Scope.regs, List.mem_singleton] at hq; subst hq; simp [RegRef.key]) a).trans ha
  have hrun : t = if s.bit (Reg.ENC.ENC_CTRL n) 0 then (Act.enc n fun e => { e with divPend := some d }).run b
      else (Act.enc n fun e => { e with div := d, divPend := none }).run b := by
    have h0 : t = (if a.bit (Reg.ENC.ENC_CTRL n) 0 then Act.enc n fun e => { e with divPend := some (a.divWritten n) }
      else .enc n fun e => { e with div := a.divWritten n, divPend := none }).run b := rfl
    rw [h0, hctrl, hd, run_ite]
  have hout : b.tsc = s.tsc ∧ b.es = s.es ∧ b.out = s.out := ⟨hw.tsc id a, hw.es id a, hw.out id a⟩
  have hlen : n.val < b.hw.cap.encs.length := by rw [hbh]; exact hn
  cases h : s.bit (Reg.ENC.ENC_CTRL n) 0 with
  | true =>
    rw [hrun, h, if_pos rfl]
    refine ⟨hbr, fun _ => ?_, fun h => absurd h (by simp), hout⟩
    rw [enc_run_enc hlen, hbe]
    exact ⟨rfl, rfl⟩
  | false =>
    rw [hrun, h, if_neg (by simp)]
    refine ⟨hbr, fun h => absurd h (by simp), fun _ => ?_, hout⟩
    rw [enc_run_enc hlen]

/-- R84: DIV_FRAC written by the host. -/
theorem divFracWrite_effect {s : State} (hl : s.live) (n : Fin 8) (v : Word) (hacc : s.accepts 0 (Reg.ENC.DIV_FRAC n) v = true)
    (hn : n.val < s.hw.cap.encs.length) :
    let d := max 4294967296 (s.fld (Reg.ENC.DIV_INT n) 23 0 * 4294967296 + v.toNat)
    let t := (hostReg 0 (Reg.ENC.DIV_FRAC n) v).run s
    t.rd (Reg.ENC.DIV_FRAC n) = v ∧
      (s.bit (Reg.ENC.ENC_CTRL n) 0 = true → (t.enc n).divPend = some d ∧ (t.enc n).div = (s.enc n).div) ∧
      (s.bit (Reg.ENC.ENC_CTRL n) 0 = false → (t.enc n).div = d) ∧ t.tsc = s.tsc ∧ t.es = s.es ∧ t.out = s.out := by
  intro d t
  have hj := hostReg_steps (divFrac_row n) hacc
  let p := s.hostStored (Reg.ENC.DIV_FRAC n) ⟨0x04C, 1, 0x04, .RW, 0xFFFFFFFF, 0xFFFFFFFF, 0x0, 0x00000000, false⟩ v
  have hps : keysRise p.regs := keysRise_hostStored hl.1.1.1 _ _ _
  have hph : p.hw = s.hw := hostStored_hw ..
  have hrun : (blockWrite 0 .ENC n 0x04C (s.hostOld (Reg.ENC.DIV_FRAC n)) v).run p = (divFracAct n v).run p := rfl
  rw [hrun] at hj
  have hint : p.rd (Reg.ENC.DIV_INT n) = s.rd (Reg.ENC.DIV_INT n) := rd_hostStored_off (by simp) (by simp)
  have hctrl : p.rd (Reg.ENC.ENC_CTRL n) = s.rd (Reg.ENC.ENC_CTRL n) := rd_hostStored_off (by simp) (by simp)
  obtain ⟨h1, h2, h3, h4, h5, h6⟩ := divFracAct_effect hps n v (by rw [hph]; exact hn)
  have henc : t.enc n = ((divFracAct n v).run p).enc n := by
    obtain ⟨e, k, c, m, he⟩ := hj.hw
    simp only [State.enc, t, he]
  have hpe : p.enc n = s.enc n := by rw [State.enc, hph]; rfl
  rw [State.fld, hint, ← State.fld, State.bit, hctrl, ← State.bit] at h2 h3
  rw [hpe] at h2
  refine ⟨(hj.rd n.isLt (by simp) (by simp) (by simp)).trans h1, ?_, ?_, hj.tsc.trans (h4.trans (hostStored_tsc ..)),
    hj.es.trans (h5.trans (hostStored_es ..)), hj.out.trans (h6.trans (hostStored_out ..))⟩
  · rw [henc]; exact h2
  · rw [henc]; exact h3

/-- Settles O23. -/
theorem encoderCommands : Obligations.EncoderCommands := by
  refine ⟨fun s n fwd hl hon hn hgap => ⟨_, command_eq hl.2, encoderEdge_effect hl.1.1.1 n fwd hon hn hgap⟩,
    fun s n fwd hl hon => ?_, fun s n t0 hl hnext hover ht hn hc => ⟨_, command_eq hl.2, overspeedTimer_effect hl.1.1.1 n hnext hover ht hn hc⟩,
    fun s n hl hon hst => ⟨_, command_eq hl.2, encoderStall_effect hl.1.1.1 n hon hst⟩,
    fun s n hl hon => ⟨_, command_eq hl.2, encoderLineFault_effect hl.1.1.1 n hon⟩,
    fun s n v hl hacc hn => ⟨_, simply_eq hl.2, divFracWrite_effect hl n v hacc hn⟩,
    fun s n t0 hl hnext hp ht hn hc => ⟨_, command_eq hl.2, encTimer_effect hl.1.1.1 n hnext hp ht hn hc⟩⟩
  have hrun : (encoderEdgeAct n fwd true).run s = (encOverspeed n true).run s := by
    simp only [encoderEdgeAct, run_get, run_when, hon, if_true, Bool.or_true]
  exact ⟨_, command_eq hl.2, hrun ▸ encOverspeed_effect hl.1.1.1 n⟩

/-! ### Pattern generators and analogue channels

DARK_LOOP_STEP answers its own effect, with nothing after it (`simply`), while the statement asks for a settled state. -/

/-- Only changes of block state are restricted. -/
def Scope.hwOnly (P : (Hw → Hw) → Prop) : Scope :=
  { reg := fun _ => True, reset := True, hw := P, mem := True, poison := True, es := True, tsc := True, out := True }

section
variable (P : (Hw → Hw) → Prop)
@[simp] theorem hwOnly_reg (r : RegRef) : (Scope.hwOnly P).reg r ↔ True := .rfl
@[simp] theorem hwOnly_reset : (Scope.hwOnly P).reset ↔ True := .rfl
@[simp] theorem hwOnly_hw (f : Hw → Hw) : (Scope.hwOnly P).hw f ↔ P f := .rfl
@[simp] theorem hwOnly_mem : (Scope.hwOnly P).mem ↔ True := .rfl
@[simp] theorem hwOnly_poison : (Scope.hwOnly P).poison ↔ True := .rfl
@[simp] theorem hwOnly_es : (Scope.hwOnly P).es ↔ True := .rfl
@[simp] theorem hwOnly_tsc : (Scope.hwOnly P).tsc ↔ True := .rfl
@[simp] theorem hwOnly_out : (Scope.hwOnly P).out ↔ True := .rfl
end

/-- A change that defers no sleep command. -/
def NotDeferring (f : Hw → Hw) : Prop := ∀ h : Hw, h.pwr.deferred = none → (f h).pwr.deferred = none

theorem notDeferring_setEdge (e : BitVec 1024) : NotDeferring (Hw.setEdge e) := fun _ h => h

theorem only_sleepNow (deep linkL2 wakeNow : Bool) : (sleepNow deep linkL2 wakeNow).Only (.hwOnly NotDeferring) := by
  simp only [sleepNow, only_get, only_seq, only_when, only_ite, devResult, only_setFld]
  refine fun s => ⟨trivial, fun _ => ⟨fun _ => ?_, fun _ => ?_⟩⟩
  · simp [enterDeep, pwrRaise, setCoarse, pinsHiz, letGo, loseRegs, loseHw, standAlone, followEnd, halPageReset, setMemcState, Act.hal,
      Act.pwr, Act.memc, notDeferring_setEdge]
    simp [NotDeferring]
  · simp [enterStandby, pwrRaise, setTarget, setPower, setMemcState, Act.pwr, Act.memc, notDeferring_setEdge]
    simp [NotDeferring]

/-- In a settled state a sleep command is deferred only while a darning is in progress. -/
theorem settled_deferred (t : State) : t.settled.hw.pwr.deferred = none ∨ t.settled.hw.darn.run ≠ none := by
  obtain ⟨v, hv⟩ : ∃ v, t.settled = sleepDeferred.run v := ⟨_, rfl⟩
  rw [hv, sleepDeferred, run_get]
  cases hd : v.hw.pwr.deferred with
  | none => exact .inl hd
  | some d =>
    simp only [run_when]
    split
    next hr =>
      left
      exact run_only (R := fun s t => s.hw.pwr.deferred = none → t.hw.pwr.deferred = none) (fun _ h => h) (fun h k x => k (h x))
        (fun u hu s => by
          cases u with
          | hw f => exact hu s.hw
          | bytes a l => rw [apply_bytes_hw]; exact id
          | _ => exact id) (only_sleepNow _ _ _) _ rfl
    next hr => exact .inr (by simpa using hr)

/-- A group at the end of a line, in which a sleep command is deferred though no darning is in progress. -/
def deferredSleep : State := (Act.all
  [.hw fun h => { h with boot := { h.boot with inReset := false } }, .pwr fun x => { x with deferred := some 1 },
   .afe 0 fun a => { a with chans := updAt (fun x => { x with lines := 256 }) 0 a.chans }]).run State.reset

/-- Refutes O24: DARK_LOOP_STEP settles nothing, so a sleep command deferred before it is deferred after it, which no settled
state shows while no darning is in progress. -/
theorem not_patternCommands : ¬ Obligations.PatternCommands := by
  rintro ⟨-, -, -, -, hdark, -, -⟩
  have hl : deferredSleep.live := by
    unfold State.live State.sound
    decide +kernel
  obtain ⟨t, ht, -⟩ := hdark deferredSleep 0 0 hl (by decide +kernel) (by decide +kernel)
  have hexec : exec (.darkLoopStep 0 0) deferredSleep = .next ((darkLoopAct 0 0).run deferredSleep) := simply_eq hl.2
  obtain hrun : (darkLoopAct 0 0).run deferredSleep = t.settled := by
    rw [hexec] at ht
    exact Host.Outcome.next.inj ht
  have hkeep (x : Nat) : (darkLoopAct 0 x).Only (.hwOnly fun f => ∀ h : Hw, (f h).pwr = h.pwr ∧ (f h).darn = h.darn) := by
    simp [darkLoopAct, Act.afe, Act.cap, Hw.setEdge]
  have hp := (hkeep 0).hw (fun h => (h.pwr.deferred, h.darn.run)) (fun f hf h => by rw [(hf h).1, (hf h).2]) deferredSleep
  rw [hrun] at hp
  have h0 : deferredSleep.hw.pwr.deferred = some 1 ∧ deferredSleep.hw.darn.run = none := by decide +kernel
  rw [h0.1, h0.2, Prod.mk.injEq] at hp
  rcases settled_deferred t with h | h
  · rw [h] at hp; exact absurd hp.1 (by simp)
  · exact h hp.2

end Sys2Proof.Machine

/-! ## Proofs: host writes, engine control (R161 to R164), watchdogs (R500 to R502)

What a host write leaves alone beside its own effect, then O31 and O48. -/

namespace Sys2Proof.Machine

-- One theorem after the other: elaborated side by side, they hold more threads than the memory limit of a check allows.
set_option Elab.async false

/-! ### Host writes -/

/-- Storing a register's own value changes no register. -/
theorem sameRegs_setReg_rd {s : State} (hs : s.sound) {r : RegRef} (hr : r.row.isSome) (h0 : r.resetVal = 0)
    (ho : r.off % 4096 ≠ 0x044 ∧ r.off % 4096 ≠ 0x048 ∧ ¬(0x0A0 ≤ r.off % 4096 ∧ r.off % 4096 < 0x0C0)) :
    SameRegs [] s (s.setReg r (s.rd r)) := by
  intro q _
  by_cases hk : r.key = q.key
  · have hsame (u : State) : u.rd q = u.rd r := by
      simp only [State.rd, hk, resetVal_of_key hr h0 hk ho, h0]
    rw [hsame, hsame, rd_setReg_same hs.1.1, and_mask_of_reserved (rd_reserved hs.1 r hr)]
  · exact rd_setReg_ne _ hk

/-- An accepted write to a register that is not stored (write-only, say) leaves the page's count of writes alone changed. -/
theorem sameRegs_hostStored_kept {s : State} (hs : s.sound) {r : RegRef} {row : RegRow} (v : Word) (hrow : r.row = some row)
    (hsh : row.shared = false) (hkeep : ∀ old, storedValue row old v = old) (h0 : r.resetVal = 0)
    (ho : r.off % 4096 ≠ 0x044 ∧ r.off % 4096 ≠ 0x048 ∧ ¬(0x0A0 ≤ r.off % 4096 ∧ r.off % 4096 < 0x0C0)) :
    SameRegs [Reg.HDR.WRITE_COUNT r.blk r.inst] s (s.hostStored r row v) := by
  have hself : SameRegs [] s (if behindSel r.blk r.off then s else s.setReg r (storedValue row (s.rd r) v)) := by
    split
    · exact fun _ _ => rfl
    · rw [hkeep]
      exact sameRegs_setReg_rd hs (by rw [hrow]; rfl) h0 ho
  rw [State.hostStored, regAt_self hrow hsh]
  exact fun q hq => (rd_setReg_ne _ (by simpa [eq_comm] using hq)).trans (hself q (by simp))

/-- What the effect of an accepted write leaves alone, the journal does, too. -/
theorem Journaled.sameRegs {s p u t : State} {l l' m : List RegRef} {b : Blk} {i : Nat} (hj : Journaled u t) (hp : SameRegs l s p)
    (hu : SameRegs l' p u) (hl : l ⊆ m) (hl' : l' ⊆ m) (ht : hostTrail b i ⊆ m) : SameRegs m s t :=
  ((hp.mono hl).trans (hu.mono hl')).trans (hj.regs.mono fun _ hx => ht (List.mem_of_mem_tail hx))

/-- Block state outside what the journal keeps. -/
theorem Journaled.part {α : Type} {u t : State} (hj : Journaled u t) (π : Hw → α)
    (hπ : ∀ h : Hw, ∀ e n c m, π { h with gath := { h.gath with edge := e }, lostEntries := n, cmn := c, memc := m } = π h := by
      exact fun _ _ _ _ _ => rfl) : π t.hw = π u.hw := by
  obtain ⟨e, n, c, m, he⟩ := hj.hw
  rw [he, hπ]

/-- The state `p` in which the effect of an accepted write of `v` to register `r` begins: the value stored, the write counted. -/
structure Written (s : State) (r : RegRef) (row : RegRow) (v : Word) (p : State) : Prop where
  sound : p.sound
  hw : p.hw = s.hw
  rest : SameRest s p
  regs : SameRegs [r, Reg.HDR.WRITE_COUNT r.blk r.inst] s p
  stored : behindSel r.blk r.off = false → r.off ≠ 0x30 → p.rd r = storedValue row (s.rd r) v &&& row.mask
  kept : (∀ old, storedValue row old v = old) → r.resetVal = 0 →
    (r.off % 4096 ≠ 0x044 ∧ r.off % 4096 ≠ 0x048 ∧ ¬(0x0A0 ≤ r.off % 4096 ∧ r.off % 4096 < 0x0C0)) →
    SameRegs [Reg.HDR.WRITE_COUNT r.blk r.inst] s p

theorem written_hostStored {s : State} (hs : s.sound) {r : RegRef} {row : RegRow} (v : Word) (hrow : r.row = some row)
    (hsh : row.shared = false) : Written s r row v (s.hostStored r row v) where
  sound := by
    have hrun : s.hostStored r row v = (Act.seq (.when (!behindSel r.blk r.off) (.wr (regAt r.blk r.inst r.off)
        (storedValue row (s.rd (regAt r.blk r.inst r.off)) v))) (.modReg (Reg.HDR.WRITE_COUNT r.blk r.inst) (· + 1))).run s := by
      rw [State.hostStored, run_seq, run_modReg, run_when, run_wr]
      cases behindSel r.blk r.off <;> rfl
    rw [hrun]
    exact sound_run _ _ hs
  hw := hostStored_hw ..
  rest := ⟨hostStored_mem .., by unfold State.hostStored; split <;> rfl, hostStored_es .., hostStored_tsc .., hostStored_out ..⟩
  regs := by
    have h := hostStored_regs s r row v
    rwa [regAt_self hrow hsh] at h
  stored := fun hsel hw => rd_hostStored_self hs.1.1 v hrow hsh hsel hw
  kept := fun hkeep h0 ho => sameRegs_hostStored_kept hs v hrow hsh hkeep h0 ho

/-- An accepted host write: the value is stored, then the register's own effect `a` runs, then the journal. -/
theorem hostReg_run {s : State} (hs : s.sound) {r : RegRef} {row : RegRow} {v : Word} {a : Act} (hrow : r.row = some row)
    (hacc : s.accepts 0 r v = true) (ha : blockWrite 0 r.blk r.inst r.off (s.hostOld r) v = a) (hsh : row.shared = false := by rfl) :
    ∃ p, Written s r row v p ∧ Journaled (a.run p) ((hostReg 0 r v).run s) :=
  ⟨_, written_hostStored hs v hrow hsh, ha ▸ hostReg_steps hrow hacc⟩

theorem Written.rise {s p : State} {r : RegRef} {row : RegRow} {v : Word} (h : Written s r row v p) : keysRise p.regs := h.sound.1.1

/-- A register at another offset is as before the write. -/
theorem Written.rd_off {s p : State} {r q : RegRef} {row : RegRow} {v : Word} (h : Written s r row v p)
    (h1 : r.off % 4096 ≠ q.off % 4096) (h2 : 0x30 ≠ q.off % 4096) : p.rd q = s.rd q :=
  h.regs.rd_off (by simp [h1]; simpa using h2)

/-- A host write's effect that leaves memory, engine stores, TSC and output alone leaves the latter three so. -/
theorem Written.sameRest {s p u t : State} {r : RegRef} {row : RegRow} {v : Word} (h : Written s r row v p) (hu : SameRest p u)
    (hj : Journaled u t) : t.es = s.es ∧ t.tsc = s.tsc ∧ t.out = s.out :=
  ⟨hj.es.trans (hu.es.trans h.rest.es), hj.tsc.trans (hu.tsc.trans h.rest.tsc), hj.out.trans (hu.out.trans h.rest.out)⟩

/-! ### Changes of block state -/

section
variable {p : Scope}

@[simp] theorem only_cap (f : CapSt → CapSt) : (Act.cap f).Only p ↔ p.hw fun h => { h with cap := f h.cap } := .rfl
@[simp] theorem only_disp (f : DispSt → DispSt) : (Act.disp f).Only p ↔ p.hw fun h => { h with disp := f h.disp } := .rfl
@[simp] theorem only_gath (f : GathSt → GathSt) : (Act.gath f).Only p ↔ p.hw fun h => { h with gath := f h.gath } := .rfl
@[simp] theorem only_hal (f : HalSt → HalSt) : (Act.hal f).Only p ↔ p.hw fun h => { h with hal := f h.hal } := .rfl
@[simp] theorem only_txt (f : TxtSt → TxtSt) : (Act.txt f).Only p ↔ p.hw fun h => { h with txt := f h.txt } := .rfl
@[simp] theorem only_kv (f : KvSt → KvSt) : (Act.kv f).Only p ↔ p.hw fun h => { h with kv := f h.kv } := .rfl
@[simp] theorem only_link (f : LinkSt → LinkSt) : (Act.link f).Only p ↔ p.hw fun h => { h with link := f h.link } := .rfl
@[simp] theorem only_pin (f : PinSt → PinSt) : (Act.pin f).Only p ↔ p.hw fun h => { h with pin := f h.pin } := .rfl
@[simp] theorem only_darn (f : DarnSt → DarnSt) : (Act.darn f).Only p ↔ p.hw fun h => { h with darn := f h.darn } := .rfl
@[simp] theorem only_mot (f : MotSt → MotSt) : (Act.mot f).Only p ↔ p.hw fun h => { h with mot := f h.mot } := .rfl
@[simp] theorem only_safe (f : SafeSt → SafeSt) : (Act.safe f).Only p ↔ p.hw fun h => { h with safe := f h.safe } := .rfl
@[simp] theorem only_pwr (f : PwrSt → PwrSt) : (Act.pwr f).Only p ↔ p.hw fun h => { h with pwr := f h.pwr } := .rfl
@[simp] theorem only_boot (f : BootSt → BootSt) : (Act.boot f).Only p ↔ p.hw fun h => { h with boot := f h.boot } := .rfl
@[simp] theorem only_eng (i : Nat) (f : EngSt → EngSt) : (Act.eng i f).Only p ↔ p.hw fun h => { h with eng := updAt f i h.eng } := .rfl
@[simp] theorem only_fce (i : Nat) (f : FceSt → FceSt) : (Act.fce i f).Only p ↔ p.hw fun h => { h with fce := updAt f i h.fce } := .rfl
@[simp] theorem only_memc (i : Nat) (f : MemcSt → MemcSt) : (Act.memc i f).Only p ↔ p.hw fun h => { h with memc := updAt f i h.memc } := .rfl
@[simp] theorem only_fn (i : Nat) (f : FnSt → FnSt) : (Act.fn i f).Only p ↔
    p.hw fun h => { h with gath := { h.gath with fns := updAt f i h.gath.fns } } := .rfl
@[simp] theorem only_port (i : Nat) (f : PortSt → PortSt) : (Act.port i f).Only p ↔
    p.hw fun h => { h with link := { h.link with ports := updAt f i h.link.ports } } := .rfl
@[simp] theorem only_enc (i : Nat) (f : EncSt → EncSt) : (Act.enc i f).Only p ↔
    p.hw fun h => { h with cap := { h.cap with encs := updAt f i h.cap.encs } } := .rfl
@[simp] theorem only_pgen (i : Nat) (f : PgenSt → PgenSt) : (Act.pgen i f).Only p ↔
    p.hw fun h => { h with cap := { h.cap with pgens := updAt f i h.cap.pgens } } := .rfl
@[simp] theorem only_afe (i : Nat) (f : AfeSt → AfeSt) : (Act.afe i f).Only p ↔
    p.hw fun h => { h with cap := { h.cap with afes := updAt f i h.cap.afes } } := .rfl
@[simp] theorem only_path (i : Nat) (f : PathSt → PathSt) : (Act.path i f).Only p ↔
    p.hw fun h => { h with cap := { h.cap with paths := updAt f i h.cap.paths } } := .rfl
@[simp] theorem only_tsn (i : Nat) (f : TsnSt → TsnSt) : (Act.tsn i f).Only p ↔
    p.hw fun h => { h with mot := { h.mot with tsn := updAt f i h.mot.tsn } } := .rfl
@[simp] theorem only_loop (i : Nat) (f : LoopSt → LoopSt) : (Act.loop i f).Only p ↔
    p.hw fun h => { h with mot := { h.mot with loops := updAt f i h.mot.loops } } := .rfl
@[simp] theorem only_wd (i : Nat) (f : WdSt → WdSt) : (Act.wd i f).Only p ↔
    p.hw fun h => { h with safe := { h.safe with wds := updAt f i h.safe.wds } } := .rfl

end

/-- A part of the block state that the program's changes leave alone. -/
theorem Act.Only.part {α : Type} {π : Hw → α} {a : Act} (h : a.Only (.hwOnly fun f => ∀ h : Hw, π (f h) = π h)) (s : State) :
    π (a.run s).hw = π s.hw := h.hw π (fun _ hf => hf) s

theorem eng_run_eng {s : State} {p : Nat} (h : p < s.hw.eng.length) (f : EngSt → EngSt) : ((Act.eng p f).run s).eng p = f (s.eng p) := by
  simp only [State.eng, Act.eng, run_hw, mapHw_hw]
  rw [getD_updAt, if_pos h]
theorem fce_run_fce {s : State} {i : Nat} (h : i < s.hw.fce.length) (f : FceSt → FceSt) : ((Act.fce i f).run s).fce i = f (s.fce i) := by
  simp only [State.fce, Act.fce, run_hw, mapHw_hw]
  rw [getD_updAt, if_pos h]
theorem wd_run_wd {s : State} {w : Nat} (h : w < s.hw.safe.wds.length) (f : WdSt → WdSt) : ((Act.wd w f).run s).wd w = f (s.wd w) := by
  simp only [State.wd, Act.wd, Act.safe, run_hw, mapHw_hw]
  rw [getD_updAt, if_pos h]

/-! ### Quiet programs -/

/-- The scope of the listed registers and the gatherer's edge latches. -/
def Scope.quiet (l : List RegRef) : Scope := { reg := (· ∈ l), hw := fun f => ∃ e, f = Hw.setEdge e }

section
variable (l : List RegRef)
@[simp] theorem quiet_scope_reg (r : RegRef) : (Scope.quiet l).reg r ↔ r ∈ l := .rfl
@[simp] theorem quiet_scope_hw (f : Hw → Hw) : (Scope.quiet l).hw f ↔ ∃ e, f = Hw.setEdge e := .rfl
@[simp] theorem quiet_scope_reset : (Scope.quiet l).reset ↔ False := .rfl
@[simp] theorem quiet_scope_mem : (Scope.quiet l).mem ↔ False := .rfl
@[simp] theorem quiet_scope_poison : (Scope.quiet l).poison ↔ False := .rfl
@[simp] theorem quiet_scope_es : (Scope.quiet l).es ↔ False := .rfl
@[simp] theorem quiet_scope_tsc : (Scope.quiet l).tsc ↔ False := .rfl
@[simp] theorem quiet_scope_out : (Scope.quiet l).out ↔ False := .rfl
end

/-- A program in that scope changes nothing else. -/
theorem Act.Only.quiet {l : List RegRef} {a : Act} (ha : a.Only (.quiet l)) (s : State) : Quiet l s (a.run s) := by
  refine ⟨ha.sameRest id id id id id s, ?_, ha.sameRegs id (fun _ h => h) s⟩
  refine run_only (R := fun s t => ∃ e, t.hw = Hw.setEdge e s.hw) (fun s => ⟨s.hw.gath.edge, rfl⟩) ?_ (fun u hu s => ?_) ha s
  · rintro a b c ⟨e, he⟩ ⟨e', he'⟩
    exact ⟨e', by rw [he', he]; rfl⟩
  · cases u with
    | hw f => obtain ⟨e, rfl⟩ := hu; exact ⟨e, rfl⟩
    | bytes a l => exact hu.elim
    | _ => exact ⟨s.hw.gath.edge, rfl⟩

/-! ### Engine control -/

theorem engCtrl_row (p : Fin 36) : RegRef.row (Reg.ENG.CTRL p) = some ⟨0x040, 1, 0x04, .RW, 0x0000001F, 0x0000001F, 0x0, 0x00000000, false⟩ := by
  revert p; decide +kernel
theorem engDiag_row (p : Fin 36) : RegRef.row (Reg.ENG.DIAG_CMD p) = some ⟨0x084, 1, 0x04, .WO, 0x00000000, 0x00000000, 0x0, 0x00000000, false⟩ ∧
    RegRef.resetVal (Reg.ENG.DIAG_CMD p) = 0 := by
  revert p; decide +kernel
theorem fceDiag_row (i : Fin 4) : RegRef.row (Reg.FCE.DIAG_CMD i) = some ⟨0x064, 1, 0x04, .WO, 0x00000000, 0x00000000, 0x0, 0x00000000, false⟩ ∧
    RegRef.resetVal (Reg.FCE.DIAG_CMD i) = 0 := by
  revert i; decide +kernel
theorem mask_engState (p : Fin 36) : RegRef.mask (Reg.ENG.ENG_STATE p) = 0x00FF3F7F := by revert p; decide +kernel
theorem mask_fceState (i : Fin 4) : RegRef.mask (Reg.FCE.FCE_STATE i) = 0x00FF03FF := by revert i; decide +kernel

theorem engState_setEngState {s : State} (hs : keysRise s.regs) (p : Fin 36) {v : Nat} (hv : v < 16) :
    ((setEngState p v).run s).engState p = v := by
  have h := fld_setFld_same hs (Reg.ENG.ENG_STATE p) (hi := 3) (lo := 0) v (by decide) (by rw [mask_engState]; decide)
  exact h.trans (Nat.mod_eq_of_lt hv)

theorem fceState_setFceState {s : State} (hs : keysRise s.regs) (i : Fin 4) {v : Nat} (hv : v < 16) :
    ((setFceState i v).run s).fceState i = v := by
  have h := fld_setFld_same hs (Reg.FCE.FCE_STATE i) (hi := 3) (lo := 0) v (by decide) (by rw [mask_fceState]; decide)
  exact h.trans (Nat.mod_eq_of_lt hv)

theorem getLsbD_or_one (v : Word) : (v ||| 1).getLsbD 0 = true := by simp
theorem getLsbD_or_two (v : Word) : (v ||| 2).getLsbD 1 = true := by simp

/-- R161: what a CTRL write may change beside CTRL. -/
theorem only_engCtrl (p : Nat) (v : Word) : (engCtrl p v).Only (.regs [Reg.ENG.ENG_STATE p, Reg.HDR.ERR_STATUS .ENG p]) := by
  simp [engCtrl, setEngState]

/-- R161: DRAIN written shows in the state of an engine that runs. -/
theorem engState_engCtrl_drain {s : State} (hs : keysRise s.regs) (p : Fin 36) {v : Word} (hv : v.getLsbD 1 = true) :
    ((engCtrl p v).run s).engState p = if s.engState p = eRUN then eDRAIN else s.engState p := by
  have hkeep : ((Act.when (decide (5 ≤ bits v 4 2)) (.cfgErr .ENG p)).run s).engState p = s.engState p :=
    congrArg (bits · 3 0) (Act.Only.rd (p := .regs [Reg.HDR.ERR_STATUS .ENG p]) (by simp) id
      (fun r hr => by simp at hr; subst hr; exact key_ne_of_off (by simp)) s)
  simp only [engCtrl, run_get, run_all_cons, run_all_nil, hv, Bool.and_true, Bool.not_true, Bool.and_false]
  rw [run_when _ (setEngState p eRUN), if_neg (by simp), run_when _ (setEngState p eDRAIN)]
  simp only [beq_iff_eq]
  split
  · exact engState_setEngState (rise_run _ hs) p (by decide)
  · exact hkeep

/-- A CTRL write (R161): the value is stored, and its own effect is confined to STATE and ERR_STATUS. -/
theorem engCtrlWrite_effect {s : State} (hl : s.live) (p : Fin 36) {v : Word} (hacc : s.accepts 0 (Reg.ENG.CTRL p) v = true) :
    let t := (hostReg 0 (Reg.ENG.CTRL p) v).run s
    t.rd (Reg.ENG.CTRL p) = ((s.rd (Reg.ENG.CTRL p) &&& ~~~0x1F) ||| (v &&& 0x1F)) &&& 0x1F ∧
      (v.getLsbD 1 = true → t.engState p = if s.engState p = eRUN then eDRAIN else s.engState p) ∧
      SameRegs ([Reg.ENG.CTRL p, Reg.ENG.ENG_STATE p, Reg.HDR.ERR_STATUS .ENG p] ++ hostTrail .ENG p) s t ∧
      t.es = s.es ∧ t.tsc = s.tsc ∧ t.out = s.out := by
  intro t
  obtain ⟨q, hq, hj⟩ : ∃ q, Written s _ _ v q ∧ Journaled ((engCtrl p v).run q) t := hostReg_run hl.1 (engCtrl_row p) hacc rfl
  obtain ⟨hregs, hrest⟩ := (only_engCtrl p v).frame q
  have hst : q.engState p = s.engState p := congrArg (bits · 3 0) (hq.rd_off (by simp) (by simp))
  have hrd {off : Nat} (ho : off < 4096) : t.rd ⟨.ENG, p, off⟩ = ((engCtrl p v).run q).rd ⟨.ENG, p, off⟩ :=
    hj.rd p.isLt ho (by simp) (by simp)
  refine ⟨?_, fun hv => ?_, ?_, hq.sameRest hrest hj⟩
  · calc t.rd (Reg.ENG.CTRL p) = q.rd (Reg.ENG.CTRL p) := (hrd (by decide)).trans (hregs.rd_off (by simp))
      _ = _ := (hq.stored rfl (by simp)).trans (by simp [storedValue])
  · have h := engState_engCtrl_drain hq.rise p hv
    rw [hst] at h
    exact (congrArg (bits · 3 0) (hrd (by decide))).trans h
  · exact hj.sameRegs (b := .ENG) (i := p) hq.regs hregs (by simp [hostTrail]) (by simp)
      fun x hx => by simp [hx]

/-- DIAG_CMD.START of an engine (R163). -/
theorem engDiagWrite_effect {s : State} (hl : s.live) (p : Fin 36) (v : Word) (hacc : s.accepts 0 (Reg.ENG.DIAG_CMD p) (v ||| 1) = true)
    (hp : p.val < s.hw.eng.length) :
    let t := (hostReg 0 (Reg.ENG.DIAG_CMD p) (v ||| 1)).run s
    t.engState p = eDIAG ∧ (t.eng p).diag = 2 ∧ SameRegs (Reg.ENG.ENG_STATE p :: hostTrail .ENG p) s t ∧
      t.es = s.es ∧ t.tsc = s.tsc ∧ t.out = s.out := by
  intro t
  obtain ⟨hrow, h0⟩ := engDiag_row p
  have heff : blockWrite 0 .ENG p 0x084 (s.hostOld (Reg.ENG.DIAG_CMD p)) (v ||| 1) = Act.when ((v ||| 1).getLsbD 0) (engDiagAct p) := rfl
  rw [getLsbD_or_one] at heff
  obtain ⟨q, hq, hj⟩ : ∃ q, Written s _ _ _ q ∧ Journaled ((engDiagAct p).run q) t := hostReg_run hl.1 hrow hacc heff
  have hlen : p.val < q.hw.eng.length := by rwa [hq.hw]
  obtain ⟨hregs, hrest⟩ := Act.Only.frame (l := [Reg.ENG.ENG_STATE p]) (a := engDiagAct p) (by simp [engDiagAct, setEngState]) q
  let q1 := (Act.eng p fun e => { e with diag := 2, diagFrom := q.engState p }).run q
  refine ⟨?_, ?_, ?_, hq.sameRest hrest hj⟩
  · have h := engState_setEngState (s := q1) hq.rise p (v := eDIAG) (by decide)
    exact (congrArg (bits · 3 0) (hj.rd (r := Reg.ENG.ENG_STATE p) p.isLt (by simp) (by simp) (by simp))).trans h
  · have h : t.hw.eng = q1.hw.eng := hj.part (·.eng)
    rw [State.eng, h, ← State.eng, eng_run_eng hlen]
  · exact hj.sameRegs (b := .ENG) (i := p) (hq.kept (fun _ => rfl) h0 (by simp)) hregs (by simp [hostTrail]) (by simp) (by simp)

/-- DIAG_CMD.START of a few-channel engine (R164). -/
theorem fceDiagWrite_effect {s : State} (hl : s.live) (i : Fin 4) (v : Word) (hacc : s.accepts 0 (Reg.FCE.DIAG_CMD i) (v ||| 1) = true)
    (hi : i.val < s.hw.fce.length) :
    let t := (hostReg 0 (Reg.FCE.DIAG_CMD i) (v ||| 1)).run s
    t.fceState i = eDIAG ∧ (t.fce i).diag = 2 ∧ SameRegs (Reg.FCE.FCE_STATE i :: hostTrail .FCE i) s t ∧
      t.es = s.es ∧ t.tsc = s.tsc ∧ t.out = s.out := by
  intro t
  obtain ⟨hrow, h0⟩ := fceDiag_row i
  obtain ⟨q, hq, hj⟩ : ∃ q, Written s _ _ _ q ∧ Journaled ((fceWrite i 0x064 (v ||| 1)).run q) t := hostReg_run hl.1 hrow hacc rfl
  let set : Act := .fce i fun f => { f with diag := 2, diagFrom := q.fceState i }
  have hrun : (fceWrite i 0x064 (v ||| 1)).run q = (Act.seq set (setFceState i eDIAG)).run q := by
    simp only [fceWrite, run_get, getLsbD_or_one, and_self, if_true, set]
  rw [hrun] at hj
  have hlen : i.val < q.hw.fce.length := by rwa [hq.hw]
  obtain ⟨hregs, hrest⟩ := Act.Only.frame (l := [Reg.FCE.FCE_STATE i]) (a := .seq set (setFceState i eDIAG)) (by simp [set, setFceState]) q
  refine ⟨?_, ?_, ?_, hq.sameRest hrest hj⟩
  · have h := fceState_setFceState (s := set.run q) hq.rise i (v := eDIAG) (by decide)
    exact (congrArg (bits · 3 0) (hj.rd (r := Reg.FCE.FCE_STATE i) i.isLt (by simp) (by simp) (by simp))).trans h
  · have h : t.hw.fce = (set.run q).hw.fce := hj.part (·.fce)
    rw [State.fce, h, ← State.fce, fce_run_fce hlen]
  · exact hj.sameRegs (b := .FCE) (i := i) (hq.kept (fun _ => rfl) h0 (by simp)) hregs (by simp [hostTrail]) (by simp) (by simp)

/-- Settles O31. -/
theorem engineControl : Obligations.EngineControl := by
  refine ⟨fun s p v hl hacc => ?_, fun s p v hl hacc => ?_, fun s p v hl hacc hp => ⟨_, command_eq hl.2, engDiagWrite_effect hl p v hacc hp⟩,
    fun s i v hl hacc hi => ⟨_, command_eq hl.2, fceDiagWrite_effect hl i v hacc hi⟩⟩
  · obtain ⟨hrd, _, hregs, hrest⟩ := engCtrlWrite_effect hl p hacc
    exact ⟨_, command_eq hl.2, (congrArg (BitVec.getLsbD · 0) hrd).trans (by simp), hregs, hrest⟩
  · obtain ⟨hrd, hstate, hregs, hrest⟩ := engCtrlWrite_effect hl p hacc
    exact ⟨_, command_eq hl.2, (congrArg (BitVec.getLsbD · 1) hrd).trans (by simp),
      fun h => (hstate (getLsbD_or_two v)).trans (if_pos h), fun h => (hstate (getLsbD_or_two v)).trans (if_neg h), hregs, hrest⟩

/-! ### Watchdogs -/

theorem mask_wdStatus (w : BitVec 6) : RegRef.mask (wdStatus w.toNat) = 0x03FFFFFF := by revert w; decide +kernel
theorem wdKick_row (w : BitVec 6) : RegRef.row ⟨.WDG, w.toNat / 16, 0x108 + 16 * (w.toNat % 16)⟩ =
    some ⟨0x108, 16, 0x10, .WO, 0x00000000, 0x00000000, 0x0, 0x00000000, false⟩ ∧
    RegRef.resetVal ⟨.WDG, w.toNat / 16, 0x108 + 16 * (w.toNat % 16)⟩ = 0 := by
  revert w; decide +kernel
/-- A 32-bit counter counts. -/
theorem counts_bump {s : State} (hs : keysRise s.regs) {r : RegRef} (hm : r.mask = 0xFFFFFFFF) (n : Nat) :
    Counts r n s ((Act.bump r n).run s) := fun h => by
  rw [rd_bump hs r h, hm, toNat_and_ones, BitVec.toNat_ofNat, Nat.mod_eq_of_lt h]

/-- The counter of the expiries of one kind. -/
def expiryCnt (late : Bool) (w : Nat) : RegRef := if late then Reg.WDG.LATE_CNT (w / 16) else Reg.WDG.EARLY_CNT (w / 16)

theorem mask_expiryCnt (late : Bool) (w : BitVec 6) : RegRef.mask (expiryCnt late w.toNat) = 0xFFFFFFFF := by
  revert late w; decide +kernel
theorem expiryCnt_off (late : Bool) (w : Nat) : (expiryCnt late w).off = if late then 0x4C else 0x48 := by
  cases late <;> rfl

/-- R502: an expiry without an action of its own is shown, counted and raised, and the next window begins. -/
theorem wdExpire_effect {s : State} (hs : keysRise s.regs) (w : BitVec 6) (late : Bool) (at' : Nat) (hact : s.bit (wdCfg w.toNat) 4 = false)
    (hw : w.toNat < s.hw.safe.wds.length) :
    let k := w.toNat
    let t := (wdExpire k late at').run s
    t.fld (wdStatus k) 25 24 = (if late then 3 else 2) ∧ Counts (expiryCnt late k) 1 s t ∧ t.pend .WDG (k / 16) (k % 16) = true ∧
      (t.wd k).since = at' ∧ SameRegs ([wdStatus k, expiryCnt late k] ++ irqOf .WDG (k / 16)) s t ∧ SameRest s t := by
  intro k t
  let show' : Act := .setFld (wdStatus k) 25 24 (if late then 3 else 2)
  let rest : Act := .seq (.bump (expiryCnt late k) 1) (.raise .WDG (k / 16) (k % 16))
  let restart : Act := .wd k fun x => { x with since := at', first := false }
  let a : Act := .all [show', rest, restart]
  have hrun : t = a.run s := by
    simp only [t, wdExpire, run_get, run_all_cons, run_all_nil, run_when, k, hact, a, rest, run_seq]
    rfl
  have hk : k / 16 < Blk.WDG.count := by have := w.isLt; simp only [Blk.count]; omega
  have honly : a.Only (.regs ([wdStatus k, expiryCnt late k] ++ irqOf .WDG (k / 16))) := by
    simp [a, show', rest, restart, irqOf]
  have hs1 : keysRise (show'.run s).regs := rise_run _ hs
  have hkeep : rest.Only (.regs (expiryCnt late k :: irqOf .WDG (k / 16))) := by simp [rest, irqOf]
  have hst : (rest.run (show'.run s)).rd (wdStatus k) = (show'.run s).rd (wdStatus k) := by
    refine (hkeep.frame _).1.rd_off ?_
    simp only [irqOf, List.mem_cons, List.not_mem_nil, or_false, forall_eq_or_imp, forall_eq, expiryCnt_off, wdStatus]
    split <;> omega
  obtain ⟨hregs, hrest⟩ := honly.frame s
  have hlast : a.run s = restart.run (rest.run (show'.run s)) := by simp only [a, run_all_cons, run_all_nil]
  have hrd (r : RegRef) : (a.run s).rd r = (rest.run (show'.run s)).rd r := by rw [hlast]; exact rd_mapHw _ _ _
  rw [hrun]
  refine ⟨?_, fun hroom => ?_, ?_, ?_, hregs, hrest⟩
  · rw [State.fld, hrd, hst, ← State.fld, run_setFld, fld_setFld_same hs _ _ (by decide) (by rw [mask_wdStatus]; decide)]
    cases late <;> rfl
  · have hsame : (show'.run s).rd (expiryCnt late k) = s.rd (expiryCnt late k) := by
      rw [run_setFld]
      refine rd_setReg_off ?_
      rw [expiryCnt_off]
      simp only [wdStatus]
      split <;> omega
    have h := counts_bump hs1 (mask_expiryCnt late w) 1
    rw [Counts, hsame] at h
    rw [hrd, run_seq, rd_raise_off (by rw [expiryCnt_off]; split <;> decide) (by rw [expiryCnt_off]; split <;> decide)]
    exact h hroom
  · rw [State.pend, State.bit, hrd, ← State.bit, run_seq]
    exact bit_raise (rise_run _ hs1) hk (by omega)
  · have hlen : ((rest.run (show'.run s)).hw.safe.wds.length) = s.hw.safe.wds.length :=
      Act.Only.part (π := fun h => h.safe.wds.length) (a := .seq show' rest) (by simp [show', rest, Hw.setEdge]) s
    rw [hlast, wd_run_wd (by rw [hlen]; exact hw)]

/-- R500: an accepted kick in time and in sequence: the status shows SEQ and OK, and the window restarts. -/
theorem wdOk_effect {s : State} (hs : keysRise s.regs) (w : BitVec 6) (n at' : Nat) (hn : n < 256) (hw : w.toNat < s.hw.safe.wds.length) :
    let k := w.toNat
    let t := (Act.seq (.modReg (wdStatus k) fun v => setBits (setBits v 7 0 n) 25 24 1)
      (.wd k fun _ => { since := at', first := false })).run s
    t.fld (wdStatus k) 7 0 = n ∧ t.fld (wdStatus k) 25 24 = 1 ∧ t.wd k = { since := at', first := false } ∧
      SameRegs [wdStatus k] s t ∧ SameRest s t := by
  intro k t
  let p := s.setReg (wdStatus k) (setBits (setBits (s.rd (wdStatus k)) 7 0 n) 25 24 1)
  have hrun : t = (Act.wd k fun _ => { since := at', first := false }).run p := rfl
  have hrd (r : RegRef) : t.rd r = p.rd r := by rw [hrun]; exact rd_mapHw _ _ _
  have hp : p.rd (wdStatus k) = setBits (setBits (s.rd (wdStatus k)) 7 0 n) 25 24 1 &&& 0x03FFFFFF := by
    rw [rd_setReg_same hs, mask_wdStatus]
  obtain ⟨hregs, hrest⟩ := Act.Only.frame (l := [wdStatus k]) (a := Act.seq (.modReg (wdStatus k) fun v => setBits (setBits v 7 0 n) 25 24 1)
      (.wd k fun _ => { since := at', first := false })) (by simp) s
  refine ⟨?_, ?_, ?_, hregs, hrest⟩
  · rw [State.fld, hrd, hp, bits_and_mask _ _ (by decide), bits_setBits_other _ _ (by decide), bits_setBits_same _ _ (by decide)]
    exact Nat.mod_eq_of_lt hn
  · rw [State.fld, hrd, hp, bits_and_mask _ _ (by decide), bits_setBits_same _ _ (by decide)]
    decide
  · exact (congrArg (·.wd k) hrun).trans (wd_run_wd hw _)

theorem blockWrite_wdKick (w : BitVec 6) (old v : Word) :
    blockWrite 0 .WDG (w.toNat / 16) (0x108 + 16 * (w.toNat % 16)) old v = wdKickAct w.toNat v := by
  have h := w.isLt
  have hk : 16 * (w.toNat / 16) + (0x108 + 16 * (w.toNat % 16) - 0x100) / 16 = w.toNat := by omega
  simp only [blockWrite, wdgWrite]
  rw [if_neg (by omega), if_neg (by omega), if_pos (by omega), hk, if_neg (by omega), if_pos (by omega)]

/-- A register kick of a watchdog whose window has not closed is judged (R500, R501). -/
theorem wdKickWrite_run {s : State} (hl : s.live) (w : BitVec 6) (hon : s.wdOn w.toNat = true) {v : Word}
    (hacc : s.accepts 0 ⟨.WDG, w.toNat / 16, 0x108 + 16 * (w.toNat % 16)⟩ v = true) (hsrc : s.bit (wdCfg w.toNat) 1 = false)
    (hopen : s.now ≤ (s.wd w.toNat).since + s.wdClose w.toNat * 1000) :
    let k := w.toNat
    let us := (s.now - (s.wd k).since) / 1000
    let next := (s.fld (wdStatus k) 7 0 + 1) % 256
    ∃ q, q.sound ∧ q.hw = s.hw ∧ q.now = s.now ∧ SameRest s q ∧ SameRegs [Reg.HDR.WRITE_COUNT .WDG (k / 16)] s q ∧
      Journaled ((if us < s.fld (Reg.WDG.WD_WIN (k / 16) (k % 16)) 15 0 ∨ bits v 7 0 ≠ next then wdExpire k false s.now
        else .seq (.modReg (wdStatus k) fun v => setBits (setBits v 7 0 next) 25 24 1)
          (.wd k fun _ => { since := s.now, first := false })).run q) ((hostReg 0 ⟨.WDG, k / 16, 0x108 + 16 * (k % 16)⟩ v).run s) := by
  intro k us next
  obtain ⟨hrow, h0⟩ := wdKick_row w
  obtain ⟨q, hq, hj⟩ := hostReg_run hl.1 hrow hacc (blockWrite_wdKick w _ v)
  have hkept := hq.kept (fun _ => rfl) h0 (by simp only; omega)
  have hrd (r : RegRef) (h : r.off ≠ 0x30) (h' : r.off < 4096) : q.rd r = s.rd r :=
    hkept.rd_off (by simp only [List.mem_cons, List.not_mem_nil, or_false, forall_eq]; omega)
  have hnow : q.now = s.now := congrArg BitVec.toNat hq.rest.tsc
  have hwd : q.wd k = s.wd k := congrArg (fun h : Hw => h.safe.wds.getD k {}) hq.hw
  have hcfg : q.rd (wdCfg k) = s.rd (wdCfg k) := hrd _ (by simp only [wdCfg]; omega) (by simp only [wdCfg]; omega)
  have hwin : q.rd (Reg.WDG.WD_WIN (k / 16) (k % 16)) = s.rd (Reg.WDG.WD_WIN (k / 16) (k % 16)) := hrd _ (by simp only; omega) (by simp only; omega)
  have hstat : q.rd (wdStatus k) = s.rd (wdStatus k) := hrd _ (by simp only [wdStatus]; omega) (by simp only [wdStatus]; omega)
  have hctrl : q.rd (Reg.WDG.WDG_CTRL (k / 16)) = s.rd (Reg.WDG.WDG_CTRL (k / 16)) := hrd _ (by simp) (by simp)
  have hqon : q.wdOn k = true := by
    rw [State.wdOn, State.bit, State.bit, hctrl, hcfg, ← State.bit, ← State.bit]; exact hon
  have hclose : q.wdClose k = s.wdClose k := by
    rw [State.wdClose, State.wdClose, State.fld, State.fld, hwd, hcfg, hwin, ← State.fld, ← State.fld]
  have hlate : (wdLate k 1).run q = q := by
    simp only [wdLate, run_get, run_when, hwd, hclose, hqon, Bool.true_and, decide_eq_true_eq]
    exact if_neg (by rw [hnow]; exact Nat.not_le.2 (Nat.lt_succ_of_le hopen))
  refine ⟨q, hq.sound, hq.hw, hnow, hq.rest, hkept, ?_⟩
  have hrun : (wdKickAct k v).run q = (wdJudge k (some (bits v 7 0))).run q := by
    simp only [wdKickAct, run_get, run_when, State.bit, hcfg]
    rw [← State.bit, hsrc]
    simp only [Bool.not_false, if_true, wdKick, run_seq, hlate]
  have hjudge : (wdJudge k (some (bits v 7 0))).run q =
      (if us < s.fld (Reg.WDG.WD_WIN (k / 16) (k % 16)) 15 0 ∨ bits v 7 0 ≠ next then wdExpire k false s.now
        else .seq (.modReg (wdStatus k) fun v => setBits (setBits v 7 0 next) 25 24 1)
          (.wd k fun _ => { since := s.now, first := false })).run q := by
    simp only [wdJudge, run_get, Act.when, hqon, if_true, hwd, State.fld, hwin, hstat, hnow, Option.isSome_some, Bool.true_and,
      Bool.or_eq_true, decide_eq_true_eq, bne_iff_ne, ne_eq, Option.some.injEq]
    rfl
  rw [hrun, hjudge] at hj
  exact hj

/-- Settles O48. -/
theorem watchdogs : Obligations.Watchdogs := by
  intro s w hl hon hw k close us next kick
  have hk : k / 16 < Blk.WDG.count := by have := w.isLt; simp only [Blk.count, k]; omega
  have hlate : (wdLateAct k).run s = if close ≤ s.now then (wdExpire k true close).run s else s := by
    simp only [wdLateAct, wdLate, run_get, run_when]
    rw [show s.wdOn k = true from hon]
    simp only [Bool.true_and, decide_eq_true_eq]
    rfl
  refine ⟨fun v hacc hsrc hopen => ?_, fun h hact => ?_, fun h => ?_⟩
  · obtain ⟨q, hs, hhw, hnow, hrest, hregs, hj⟩ := wdKickWrite_run hl w hon hacc hsrc hopen
    have hq : w.toNat < q.hw.safe.wds.length := by rwa [hhw]
    have hoff {off : Nat} (h : off < 0x200) {u t : State} (hj : Journaled u t) : t.rd ⟨.WDG, k / 16, off⟩ = u.rd ⟨.WDG, k / 16, off⟩ :=
      hj.rd hk (by simp only; omega) (by simp) (by simp)
    have hstat : (wdStatus k).off < 0x200 := by simp only [wdStatus]; omega
    refine ⟨fun h1 h2 => ?_, fun h1 hact => ?_⟩
    · rw [if_neg (by simp only [not_or, not_lt, not_not]; exact ⟨h1, h2⟩)] at hj
      obtain ⟨e1, e2, e3, e4, e5⟩ := wdOk_effect hs.1.1 w next s.now (Nat.mod_lt _ (by decide)) hq
      have hwd : State.wd ((hostReg 0 kick v).run s) k = { since := s.now, first := false } :=
        (hj.part (·.safe.wds.getD k {})).trans e3
      refine ⟨_, command_eq hl.2, (congrArg (bits · 7 0) (hoff hstat hj)).trans e1, (congrArg (bits · 25 24) (hoff hstat hj)).trans e2,
        congrArg WdSt.since hwd, congrArg WdSt.first hwd, hj.sameRegs (b := .WDG) (i := k / 16) hregs e4 (by simp [hostTrail, k])
        (by simp [k]) (by simp), hj.es.trans (e5.es.trans hrest.es), hj.tsc.trans (e5.tsc.trans hrest.tsc),
        hj.out.trans (e5.out.trans hrest.out)⟩
    · rw [if_pos h1] at hj
      have hcfg : q.rd (wdCfg k) = s.rd (wdCfg k) :=
        hregs.rd_off (by simp only [List.mem_cons, List.not_mem_nil, or_false, forall_eq, wdCfg]; omega)
      have hcnt : q.rd (Reg.WDG.EARLY_CNT (k / 16)) = s.rd (Reg.WDG.EARLY_CNT (k / 16)) := hregs.rd_off (by simp)
      obtain ⟨e1, e2, e3, e4, e5, e6⟩ := wdExpire_effect hs.1.1 w false s.now (by rw [State.bit, hcfg]; exact hact) hq
      refine ⟨_, command_eq hl.2, (congrArg (bits · 25 24) (hoff hstat hj)).trans e1, fun hroom => ?_,
        (congrArg (BitVec.getLsbD · (k % 16)) (hoff (by decide) hj)).trans e3, ?_, hj.sameRegs (b := .WDG) (i := k / 16) hregs e5 ?_ ?_ ?_,
        hj.es.trans (e6.es.trans hrest.es), hj.tsc.trans (e6.tsc.trans hrest.tsc), hj.out.trans (e6.out.trans hrest.out)⟩
      · rw [← hcnt] at hroom ⊢
        exact (congrArg BitVec.toNat (hoff (off := 0x48) (by decide) hj)).trans (e2 hroom)
      · exact (congrArg WdSt.since (hj.part (·.safe.wds.getD k {}))).trans e4
      · simp [hostTrail, k]
      · exact fun x hx => List.mem_append_left _ hx
      · exact fun x hx => List.mem_append_right _ hx
  · have hrun := hlate.trans (if_pos h)
    refine ⟨_, command_eq hl.2, ?_⟩
    rw [hrun]
    exact wdExpire_effect hl.1.1.1 w true close hact hw
  · refine (command_eq hl.2).trans ?_
    rw [hlate.trans (if_neg (by omega))]

end Sys2Proof.Machine

/-! ## Proofs: the pins (19_pins_electrical_package)

O58 speaks of every ball index and every stored MUX_CFG: with the GPIO input function at a ball that GPIO_IN has no bit for, the
level cannot show there. -/

namespace Sys2Proof.Machine

-- One theorem after the other: elaborated side by side, they hold more threads than the memory limit of a check allows.
set_option Elab.async false

/-- A device in which ball 64, a PGEN output, has the GPIO input function in its MUX_CFG. -/
def gpioAtPgen : State := (Act.all
  [.boot fun b => { b with inReset := false }, .pin fun x => { x with cfg := updAt (fun _ => 1) 64 x.cfg }]).run State.reset

/-- Refutes O58: ball 64 with the GPIO input function accepts a high level, but GPIO_IN_HI has no bit 32 to show it. -/
theorem not_pins : ¬ Obligations.Pins := by
  rintro ⟨-, -, hlevel⟩
  have hl : gpioAtPgen.live := by
    unfold State.live State.sound
    decide +kernel
  obtain ⟨t, -, -, hshow, -⟩ := hlevel gpioAtPgen 64 true hl
  have hball : gpioAtPgen.ballFunc 64 = 1 ∧ gpioAtPgen.hw.pin.level.getLsbD 64 ≠ true ∧
    (true != (gpioAtPgen.muxCfg 64).getLsbD 15) = true := by decide +kernel
  obtain ⟨hfunc, hold, hseen⟩ := hball
  have hbit : t.bit Reg.PIN.GPIO_IN_HI 32 = true := (hshow hfunc hold).trans hseen
  have hwide : t.bit Reg.PIN.GPIO_IN_HI 32 = false := BitVec.getLsbD_of_ge _ _ (Nat.le_refl 32)
  exact Bool.noConfusion (hbit.symm.trans hwide)

end Sys2Proof.Machine

/-! ## Proofs: boot and the PCIe link (18_reset_startup_power_loss; 11, 17)

O57: images, start-up tests, the link's changes. -/

namespace Sys2Proof.Machine

-- One theorem after the other: elaborated side by side, they hold more threads than the memory limit of a check allows.
set_option Elab.async false

/-! ### BOOT_STATUS -/

theorem mask_bootStatus : RegRef.mask Reg.AON.BOOT_STATUS = 0x013FFF3F := by decide +kernel

/-- A field of BOOT_STATUS set. -/
theorem fld_bootStatus {s : State} (hs : keysRise s.regs) (hi lo v : Nat) (h : (hi, lo) ∈ [(3, 0), (5, 4), (15, 8), (21, 16)])
    (hv : v < 2 ^ (hi + 1 - lo)) :
    ((Act.setFld Reg.AON.BOOT_STATUS hi lo v).run s).fld Reg.AON.BOOT_STATUS hi lo = v := by
  have hm : hi < 32 ∧ bits Reg.AON.BOOT_STATUS.mask hi lo = 2 ^ (hi + 1 - lo) - 1 := by
    rw [mask_bootStatus]
    simp only [List.mem_cons, List.not_mem_nil, or_false, Prod.mk.injEq] at h
    rcases h with ⟨rfl, rfl⟩ | ⟨rfl, rfl⟩ | ⟨rfl, rfl⟩ | ⟨rfl, rfl⟩ <;> decide
  rw [run_setFld, fld_setFld_same hs _ _ hm.1 hm.2, Nat.mod_eq_of_lt hv]

/-- Another field of BOOT_STATUS stays. -/
theorem keeps_bootStatus {hi lo hi' lo' v : Nat} (h : (hi', lo') ∈ [(3, 0), (5, 4), (15, 8), (21, 16)]) (hd : hi' < lo ∨ hi < lo') :
    (Act.setFld Reg.AON.BOOT_STATUS hi lo v).Keeps fun s => s.fld Reg.AON.BOOT_STATUS hi' lo' := by
  refine keeps_fld_setFld hd ?_
  rw [mask_bootStatus]
  simp only [List.mem_cons, List.not_mem_nil, or_false, Prod.mk.injEq] at h
  rcases h with ⟨rfl, rfl⟩ | ⟨rfl, rfl⟩ | ⟨rfl, rfl⟩ | ⟨rfl, rfl⟩ <;> decide

/-- R713: an accepted image leaves its slot and rollback number, and the start-up tests follow. -/
theorem acceptImage_effect {s : State} (hs : keysRise s.regs) {slot : Nat} (hslot : slot < 4) {x : BootImage} (hx : x.rollback.toNat < 64) :
    let t := (acceptImage slot x).run s
    t.stage = bTESTS ∧ t.fld Reg.AON.BOOT_STATUS 5 4 = slot ∧ t.fld Reg.AON.BOOT_STATUS 21 16 = x.rollback.toNat ∧
      (slot = 1 → t.pend .AON 0 2 = true) ∧ (slot ≠ 1 → SameRegs [Reg.AON.BOOT_STATUS] s t) ∧
      Quiet (Reg.AON.BOOT_STATUS :: irqOf .AON 0) s t := by
  intro t
  let s1 := (Act.setFld Reg.AON.BOOT_STATUS 5 4 slot).run s
  let s2 := (Act.setFld Reg.AON.BOOT_STATUS 21 16 x.rollback.toNat).run s1
  let s3 := (setStage bTESTS).run s2
  have h1 : keysRise s1.regs := rise_run _ hs
  have h2 : keysRise s2.regs := rise_run _ h1
  have h3 : keysRise s3.regs := rise_run _ h2
  have hrun : t = (Act.when (slot == 1) (aonRaise 2)).run s3 := rfl
  have hst : s3.fld Reg.AON.BOOT_STATUS 3 0 = bTESTS := fld_bootStatus h2 3 0 bTESTS (by simp) (by decide)
  have hsl : s3.fld Reg.AON.BOOT_STATUS 5 4 = slot :=
    (keeps_bootStatus (by simp) (by decide) s2 h2).trans ((keeps_bootStatus (by simp) (by decide) s1 h1).trans
      (fld_bootStatus hs 5 4 slot (by simp) hslot))
  have hrb : s3.fld Reg.AON.BOOT_STATUS 21 16 = x.rollback.toNat :=
    (keeps_bootStatus (by simp) (by decide) s2 h2).trans (fld_bootStatus h1 21 16 _ (by simp) hx)
  have hregs : SameRegs [Reg.AON.BOOT_STATUS] s s3 := (Act.Only.frame (l := [Reg.AON.BOOT_STATUS])
    (a := .all [.setFld Reg.AON.BOOT_STATUS 5 4 slot, .setFld Reg.AON.BOOT_STATUS 21 16 x.rollback.toNat, setStage bTESTS])
    (by simp [setStage]) s).1
  have hq : Quiet (Reg.AON.BOOT_STATUS :: irqOf .AON 0) s t :=
    Act.Only.quiet (a := acceptImage slot x) (by simp [acceptImage, setStage, aonRaise, irqOf]) s
  rw [hrun, run_when] at hq ⊢
  by_cases hone : slot = 1
  · rw [if_pos (by simpa using hone)] at hq ⊢
    have hrd : ((aonRaise 2).run s3).rd Reg.AON.BOOT_STATUS = s3.rd Reg.AON.BOOT_STATUS := rd_raise_off (by simp) (by simp)
    exact ⟨(congrArg (bits · 3 0) hrd).trans hst, (congrArg (bits · 5 4) hrd).trans hsl, (congrArg (bits · 21 16) hrd).trans hrb,
      fun _ => bit_raise h3 (by decide) (by decide), fun h => absurd hone h, hq⟩
  · rw [if_neg (by simpa using hone)] at hq ⊢
    exact ⟨hst, hsl, hrb, fun h => absurd h hone, fun _ => hregs, hq⟩

theorem imageError_le (s : State) (x : BootImage) : s.imageError x ≤ 6 := by
  unfold State.imageError
  repeat' split
  all_goals omega

/-- An image without error has a rollback number of six bits (R713). -/
theorem rollback_of_imageError {s : State} {x : BootImage} (h : s.imageError x = 0) : x.rollback.toNat < 64 := by
  unfold State.imageError at h
  split at h
  · omega
  · next hc => simp only [not_or] at hc; omega

/-! ### Images -/

theorem enterRecovery_effect {s : State} (hs : keysRise s.regs) :
    let t := enterRecovery.run s
    t.stage = bRECOVERY ∧ t.pend .AON 0 3 = true ∧ t.fld Reg.AON.BOOT_STATUS 15 8 = s.fld Reg.AON.BOOT_STATUS 15 8 := by
  intro t
  have h1 : keysRise ((setStage bRECOVERY).run s).regs := rise_run _ hs
  have hrun : t = (aonRaise 3).run ((setStage bRECOVERY).run s) := rfl
  have hrd : t.rd Reg.AON.BOOT_STATUS = ((setStage bRECOVERY).run s).rd Reg.AON.BOOT_STATUS := by
    rw [hrun]; exact rd_raise_off (by simp) (by simp)
  refine ⟨(congrArg (bits · 3 0) hrd).trans (fld_bootStatus hs 3 0 bRECOVERY (by simp) (by decide)), ?_,
    (congrArg (bits · 15 8) hrd).trans (keeps_bootStatus (by simp) (by decide) s hs)⟩
  rw [hrun]
  exact bit_raise h1 (by decide) (by decide)

/-- R713, R714: an image from flash that fails a check. -/
theorem bootImage_failed {s : State} (hs : keysRise s.regs) {slotB : Bool} {x : BootImage} (hst : s.stage = bAUTH)
    (hf : s.hw.boot.frozen = false) (hslot : slotB = s.hw.boot.triedA) (he : s.imageError x ≠ 0) :
    let t := (bootImageAct slotB x).run s
    t.fld Reg.AON.BOOT_STATUS 15 8 = s.imageError x ∧ (slotB = false → t.hw.boot.triedA = true ∧ t.stage = bAUTH) ∧
      (slotB = true → t.stage = bRECOVERY ∧ t.pend .AON 0 3 = true) ∧
      SameRegs (Reg.AON.BOOT_STATUS :: irqOf .AON 0) s t ∧ SameRest s t := by
  intro t
  let s1 := (Act.setFld Reg.AON.BOOT_STATUS 15 8 (s.imageError x)).run s
  have h1 : keysRise s1.regs := rise_run _ hs
  have hrun : t = (if slotB then enterRecovery else .boot fun b => { b with triedA := true } : Act).run s1 := by
    simp only [t, bootImageAct, run_get, run_when, hst, hf, hslot, beq_self_eq_true, Bool.not_false, Bool.and_true, if_true]
    rw [if_neg he, run_seq]
  have herr : s1.fld Reg.AON.BOOT_STATUS 15 8 = s.imageError x :=
    fld_bootStatus hs 15 8 _ (by simp) (by have := imageError_le s x; omega)
  have hst1 : s1.stage = bAUTH := (keeps_bootStatus (by simp) (by decide) s hs).trans hst
  obtain ⟨hregs, hrest⟩ := Act.Only.frame (l := Reg.AON.BOOT_STATUS :: irqOf .AON 0) (a := bootImageAct slotB x)
    (by simp [bootImageAct, acceptImage, enterRecovery, setStage, aonRaise, irqOf]) s
  refine ⟨?_, fun h => ?_, fun h => ?_, hregs, hrest⟩
  · rw [hrun]
    cases slotB
    · exact herr
    · exact (enterRecovery_effect h1).2.2.trans herr
  · subst h
    rw [hrun]
    exact ⟨rfl, hst1⟩
  · subst h
    obtain ⟨e1, e2, -⟩ := enterRecovery_effect h1
    rw [hrun]
    exact ⟨e1, e2⟩

theorem bootCmd_row : RegRef.row Reg.AON.BOOT_CMD = some ⟨0x05C, 1, 0x04, .WO, 0x00000000, 0x00000000, 0x0, 0x00000000, false⟩ := by
  decide +kernel

/-- An accepted host write whose effect the command gives. -/
theorem hostRegWith_run {s : State} (hs : s.sound) {r : RegRef} {row : RegRow} {v : Word} {a : Act} (hrow : r.row = some row)
    (hacc : s.accepts 0 r v = true) (hsh : row.shared = false := by rfl) :
    ∃ p, Written s r row v p ∧ Journaled (a.run p) ((hostRegWith 0 r v a).run s) := by
  obtain ⟨row', hrow', hj⟩ := hostRegWith_accepted a hacc
  obtain rfl : row = row' := Option.some.inj (hrow.symm.trans hrow')
  exact ⟨_, written_hostStored hs v hrow hsh, hj⟩

/-- A BOOT_CMD write with effect `a`: what `a` leaves alone, the write does. -/
theorem bootCmd_frame {s q t : State} {a : Act} {l : List RegRef} {v : Word} {row : RegRow} (hq : Written s Reg.AON.BOOT_CMD row v q)
    (hrow : row = ⟨0x05C, 1, 0x04, .WO, 0x00000000, 0x00000000, 0x0, 0x00000000, false⟩)
    (hj : Journaled (a.run q) t) (ha : SameRegs l q (a.run q)) (hr : SameRest q (a.run q)) :
    SameRegs (l ++ hostTrail .AON 0) s t ∧ t.es = s.es ∧ t.tsc = s.tsc ∧ t.out = s.out := by
  subst hrow
  exact ⟨hj.sameRegs (b := .AON) (i := 0) (hq.kept (fun _ => rfl) (by decide +kernel) (by simp)) ha (by simp [hostTrail])
    (by simp) (by simp), hq.sameRest hr hj⟩

/-- LOAD_HOST in RECOVERY (R714). -/
theorem loadHost_effect {s : State} (hl : s.live) (v : Word) (c : ImageChecks)
    (hacc : s.accepts 0 Reg.AON.BOOT_CMD (setBits v 3 0 1) = true) (hkey : bits v 31 16 = 0x5A3C) (hst : s.stage = bRECOVERY)
    (hf : s.hw.boot.frozen = false) :
    let t := (hostRegWith 0 Reg.AON.BOOT_CMD (setBits v 3 0 1) (loadHostAct (setBits v 3 0 1) c)).run s
    (s.imageError (s.hostImage c) = 0 → t.stage = bTESTS ∧ t.fld Reg.AON.BOOT_STATUS 5 4 = 2) ∧
      (s.imageError (s.hostImage c) ≠ 0 → t.stage = bRECOVERY ∧ t.fld Reg.AON.BOOT_STATUS 15 8 = s.imageError (s.hostImage c)) ∧
      SameRegs (Reg.AON.BOOT_STATUS :: hostTrail .AON 0) s t ∧ t.es = s.es ∧ t.tsc = s.tsc ∧ t.out = s.out := by
  intro t
  obtain ⟨q, hq, hj⟩ : ∃ q, Written s _ _ _ q ∧ Journaled ((loadHostAct (setBits v 3 0 1) c).run q) t :=
    hostRegWith_run hl.1 bootCmd_row hacc
  have hbs : q.rd Reg.AON.BOOT_STATUS = s.rd Reg.AON.BOOT_STATUS := hq.rd_off (by simp) (by simp)
  have hfuse : q.rd Reg.AON.FUSE_ROLLBACK = s.rd Reg.AON.FUSE_ROLLBACK := hq.rd_off (by simp) (by simp)
  have himg : q.hostImage c = s.hostImage c := by
    simp only [State.hostImage, State.readN, State.read, State.byte, hq.rest.mem]
  have herr : q.imageError (s.hostImage c) = s.imageError (s.hostImage c) := by
    have hfld : q.fld Reg.AON.FUSE_ROLLBACK 5 0 = s.fld Reg.AON.FUSE_ROLLBACK 5 0 := congrArg (bits · 5 0) hfuse
    unfold State.imageError
    rw [hfld]
  have hcond : (bits (setBits v 3 0 1) 3 0 == 1 && bits (setBits v 3 0 1) 31 16 == 0x5A3C && q.stage == bRECOVERY &&
      !q.hw.boot.frozen) = true := by
    have hqst : q.stage = bRECOVERY := (congrArg (bits · 3 0) hbs).trans hst
    rw [bits_setBits_same _ _ (by decide), bits_setBits_other _ _ (by decide), hkey, hqst, hq.hw, hf]
    decide
  let a : Act := if s.imageError (s.hostImage c) = 0 then acceptImage 2 (s.hostImage c)
    else .setFld Reg.AON.BOOT_STATUS 15 8 (s.imageError (s.hostImage c))
  have hrun : (loadHostAct (setBits v 3 0 1) c).run q = a.run q := by
    simp only [loadHostAct, run_get, run_when, hcond, if_true, himg, herr, a]
  rw [hrun] at hj
  have hrd : t.rd Reg.AON.BOOT_STATUS = (a.run q).rd Reg.AON.BOOT_STATUS := hj.rd (by decide) (by simp) (by simp) (by simp)
  have honly : SameRegs [Reg.AON.BOOT_STATUS] q (a.run q) ∧ SameRest q (a.run q) :=
    Act.Only.frame (by simp [a, acceptImage, setStage]) q
  refine ⟨fun h => ?_, fun h => ?_, bootCmd_frame hq rfl hj honly.1 honly.2⟩
  · obtain ⟨e1, e2, -⟩ := acceptImage_effect hq.rise (slot := 2) (by decide) (rollback_of_imageError h)
    rw [show a = acceptImage 2 (s.hostImage c) from if_pos h] at hrd
    exact ⟨(congrArg (bits · 3 0) hrd).trans e1, (congrArg (bits · 5 4) hrd).trans e2⟩
  · rw [show a = .setFld Reg.AON.BOOT_STATUS 15 8 (s.imageError (s.hostImage c)) from if_neg h] at hrd
    refine ⟨?_, (congrArg (bits · 15 8) hrd).trans (fld_bootStatus hq.rise 15 8 _ (by simp) ?_)⟩
    · exact (congrArg (bits · 3 0) hrd).trans ((keeps_bootStatus (by simp) (by decide) q hq.rise).trans
        ((congrArg (bits · 3 0) hbs).trans hst))
    · have := imageError_le s (s.hostImage c)
      omega

theorem mask_fuseRollback : RegRef.mask Reg.AON.FUSE_ROLLBACK = 0x3F := by decide +kernel

/-- FUSE_ROLLBACK holds its one field. -/
theorem fuseRollback_fld {s : State} (hs : s.sound) : s.fld Reg.AON.FUSE_ROLLBACK 5 0 = (s.rd Reg.AON.FUSE_ROLLBACK).toNat := by
  have h := and_mask_of_reserved (rd_reserved hs.1 Reg.AON.FUSE_ROLLBACK (by decide +kernel))
  rw [mask_fuseRollback] at h
  have hn : (s.rd Reg.AON.FUSE_ROLLBACK).toNat % 64 = (s.rd Reg.AON.FUSE_ROLLBACK).toNat := by
    conv_rhs => rw [← h]
    rw [BitVec.toNat_and]
    exact (Nat.and_two_pow_sub_one_eq_mod _ 6).symm
  rw [State.fld, bits]
  simpa using hn

/-- The fuse raised to a number of six bits. -/
theorem maxReg_fuseRollback {s : State} (hs : s.sound) {n : Nat} (hn : n < 64) :
    ((Act.maxReg Reg.AON.FUSE_ROLLBACK n).run s).fld Reg.AON.FUSE_ROLLBACK 5 0 = max (s.fld Reg.AON.FUSE_ROLLBACK 5 0) n := by
  rw [fuseRollback_fld (sound_run _ _ hs), fuseRollback_fld hs, Act.maxReg, run_get, run_when]
  split
  next h =>
    have hlt : (s.rd Reg.AON.FUSE_ROLLBACK).toNat < n := by simpa using h
    have hv : (BitVec.ofNat 32 (min n 4294967295) &&& 0x3F : Word).toNat = n := by
      rw [BitVec.toNat_and, BitVec.toNat_ofNat, Nat.min_eq_left (by omega), Nat.mod_eq_of_lt (by omega)]
      exact (Nat.and_two_pow_sub_one_eq_mod n 6).trans (Nat.mod_eq_of_lt hn)
    rw [run_wrN, rd_setReg_same hs.1.1, mask_fuseRollback, hv]
    omega
  next h =>
    have hle : ¬(s.rd Reg.AON.FUSE_ROLLBACK).toNat < n := by simpa using h
    omega

/-- COMMIT_ROLLBACK (R715): the fuse follows the running image, upwards only. -/
theorem commitRollback_effect {s : State} (hl : s.live) (v : Word) (hacc : s.accepts 0 Reg.AON.BOOT_CMD (setBits v 3 0 2) = true)
    (hkey : bits v 31 16 = 0x5A3C) :
    let t := (hostReg 0 Reg.AON.BOOT_CMD (setBits v 3 0 2)).run s
    (s.stage = bREADY → t.fld Reg.AON.FUSE_ROLLBACK 5 0 = max (s.fld Reg.AON.FUSE_ROLLBACK 5 0) (s.fld Reg.AON.BOOT_STATUS 21 16) ∧
      SameRegs (Reg.AON.FUSE_ROLLBACK :: hostTrail .AON 0) s t) ∧
    (s.stage ≠ bREADY → SameRegs (hostTrail .AON 0) s t) ∧ t.es = s.es ∧ t.tsc = s.tsc ∧ t.out = s.out := by
  intro t
  have hcmd : bits (setBits v 3 0 2) 3 0 = 2 := bits_setBits_same _ _ (by decide)
  have heff : blockWrite 0 .AON 0 0x05C (s.hostOld Reg.AON.BOOT_CMD) (setBits v 3 0 2) = commitRollbackAct (setBits v 3 0 2) := by
    have h : blockWrite 0 .AON 0 0x05C (s.hostOld Reg.AON.BOOT_CMD) (setBits v 3 0 2) = aonWrite 0x05C (setBits v 3 0 2) := rfl
    rw [h, aonWrite, if_neg (by decide), if_pos rfl, if_neg (by rw [hcmd]; decide)]
  obtain ⟨q, hq, hj⟩ : ∃ q, Written s _ _ _ q ∧ Journaled ((commitRollbackAct (setBits v 3 0 2)).run q) t :=
    hostReg_run hl.1 bootCmd_row hacc heff
  have hbs : q.rd Reg.AON.BOOT_STATUS = s.rd Reg.AON.BOOT_STATUS := hq.rd_off (by simp) (by simp)
  have hfuse : q.rd Reg.AON.FUSE_ROLLBACK = s.rd Reg.AON.FUSE_ROLLBACK := hq.rd_off (by simp) (by simp)
  have hrun : (commitRollbackAct (setBits v 3 0 2)).run q =
      (Act.when (s.stage == bREADY) (.maxReg Reg.AON.FUSE_ROLLBACK (s.fld Reg.AON.BOOT_STATUS 21 16))).run q := by
    have hqst : q.stage = s.stage := congrArg (bits · 3 0) hbs
    have hqrb : q.fld Reg.AON.BOOT_STATUS 21 16 = s.fld Reg.AON.BOOT_STATUS 21 16 := congrArg (bits · 21 16) hbs
    rw [commitRollbackAct, run_get, hcmd, bits_setBits_other _ _ (by decide), hkey, hqst, hqrb]
    simp
  rw [hrun] at hj
  have hrest : SameRest q ((Act.when (s.stage == bREADY) (.maxReg Reg.AON.FUSE_ROLLBACK (s.fld Reg.AON.BOOT_STATUS 21 16))).run q) :=
    (Act.Only.frame (l := [Reg.AON.FUSE_ROLLBACK]) (by simp [only_maxReg]) q).2
  refine ⟨fun h => ?_, fun h => ?_, hq.sameRest hrest hj⟩
  · rw [h] at hj
    have hregs := (Act.Only.frame (l := [Reg.AON.FUSE_ROLLBACK]) (a := .maxReg Reg.AON.FUSE_ROLLBACK (s.fld Reg.AON.BOOT_STATUS 21 16))
      (by simp [only_maxReg]) q)
    refine ⟨?_, (bootCmd_frame hq rfl hj hregs.1 hregs.2).1⟩
    have hrd := hj.rd (r := Reg.AON.FUSE_ROLLBACK) (by decide) (by simp) (by simp) (by simp)
    refine (congrArg (bits · 5 0) hrd).trans ((maxReg_fuseRollback hq.sound (Nat.mod_lt _ (by decide))).trans ?_)
    rw [State.fld, hfuse, ← State.fld]
    rfl
  · rw [show (s.stage == bREADY) = false from by simpa using h] at hj
    exact (bootCmd_frame (l := []) (a := .nil) hq rfl hj (fun _ _ => rfl) ⟨rfl, rfl, rfl, rfl, rfl⟩).1

/-! ### The PCIe link -/

theorem mask_hostLinkStatus : RegRef.mask Reg.HOST.LINK_STATUS = 0x0001F1F7 := by decide +kernel
theorem mask_linkEvents : RegRef.mask Reg.HOST.LINK_EVENTS = 0x0000000F := by decide +kernel

theorem mask_linkEvents_bit {k : Nat} (hk : k < 4) : (RegRef.mask Reg.HOST.LINK_EVENTS).getLsbD k = true := by
  rw [mask_linkEvents]
  revert k
  decide

/-- An event of the link (R702): its bit, and source 20. -/
theorem hostEvent_effect {s : State} (hs : keysRise s.regs) {k : Nat} (hk : k < 4) :
    let t := (hostEvent k).run s
    t.bit Reg.HOST.LINK_EVENTS k = true ∧ t.pend .HOST 0 0 = true := by
  intro t
  refine ⟨?_, bit_raise (rise_run _ hs) (by decide) (by decide)⟩
  have hrd : t.rd Reg.HOST.LINK_EVENTS = ((Act.orReg Reg.HOST.LINK_EVENTS (BitVec.ofNat 32 (2 ^ k))).run s).rd Reg.HOST.LINK_EVENTS :=
    rd_raise_off (by simp) (by simp)
  have hbit : ∀ k < 4, (BitVec.ofNat 32 (2 ^ k)).getLsbD k = true := by decide
  rw [State.bit, hrd, ← State.bit, bit_orReg hs _ (mask_linkEvents_bit hk), hbit k hk, Bool.or_true]

/-- Events of the link add up. -/
theorem hostEvent_mono {s : State} (hs : keysRise s.regs) (c : Bool) (j : Nat) {k : Nat} (hk : k < 4)
    (h : s.bit Reg.HOST.LINK_EVENTS k = true ∧ s.pend .HOST 0 0 = true) :
    ((Act.when c (hostEvent j)).run s).bit Reg.HOST.LINK_EVENTS k = true ∧ ((Act.when c (hostEvent j)).run s).pend .HOST 0 0 = true := by
  rw [run_when]
  split
  · let p := (Act.orReg Reg.HOST.LINK_EVENTS (BitVec.ofNat 32 (2 ^ j))).run s
    have hrd : ((hostEvent j).run s).rd Reg.HOST.LINK_EVENTS = p.rd Reg.HOST.LINK_EVENTS := rd_raise_off (by simp) (by simp)
    have hpend : p.bit (Reg.HDR.IRQ_PEND .HOST 0) 0 = true := by
      rw [State.bit, show p.rd (Reg.HDR.IRQ_PEND .HOST 0) = s.rd (Reg.HDR.IRQ_PEND .HOST 0) from rd_setReg_off (by simp)]
      exact h.2
    refine ⟨?_, bit_raise_mono (rise_run _ hs) (by decide) hpend⟩
    rw [State.bit, hrd, ← State.bit, bit_orReg hs _ (mask_linkEvents_bit hk), h.1, Bool.true_or]
  · exact h

/-- The events a change of the link brings (R702), one after the other. -/
def hostEvents (l : List (Bool × Nat)) : Act := .each l fun x => .when x.1 (hostEvent x.2)

/-- Every event brought is shown and raised. -/
theorem hostEvents_effect {l : List (Bool × Nat)} {s : State} (hs : keysRise s.regs) {k : Nat} (hk : k < 4)
    (h : (true, k) ∈ l ∨ s.bit Reg.HOST.LINK_EVENTS k = true ∧ s.pend .HOST 0 0 = true) :
    ((hostEvents l).run s).bit Reg.HOST.LINK_EVENTS k = true ∧ ((hostEvents l).run s).pend .HOST 0 0 = true := by
  induction l generalizing s with
  | nil => simpa [hostEvents] using h
  | cons x l ih =>
    rw [hostEvents, run_each_cons]
    refine ih (rise_run _ hs) ?_
    rcases h with h | h
    · rcases List.mem_cons.1 h with rfl | h
      · exact .inr (hostEvent_effect hs hk)
      · exact .inl h
    · exact .inr (hostEvent_mono hs _ _ hk h)

/-- LINK_STATUS as R702 gives it. -/
theorem linkWord_fields {rate width ltssm : Nat} (hr : rate < 8) (hw : width < 16) (hl : ltssm < 16) (flit dlUp : Bool) :
    let w : Word := BitVec.ofNat 32 (rate + 16 * width + 256 * b2n flit + 4096 * ltssm + 65536 * b2n dlUp) &&& 0x0001F1F7
    bits w 2 0 = rate ∧ bits w 7 4 = width ∧ w.getLsbD 8 = flit ∧ bits w 15 12 = ltssm ∧ w.getLsbD 16 = dlUp := by
  intro w
  have hf : b2n flit < 2 := by cases flit <;> decide
  have hd : b2n dlUp < 2 := by cases dlUp <;> decide
  have hbit (b : Bool) : decide (b2n b = 1) = b := by cases b <;> rfl
  refine ⟨?_, ?_, ?_, ?_, ?_⟩
  · rw [bits_and_mask _ _ (by decide), bits, BitVec.toNat_ofNat, Nat.shiftRight_eq_div_pow]; omega
  · rw [bits_and_mask _ _ (by decide), bits, BitVec.toNat_ofNat, Nat.shiftRight_eq_div_pow]; omega
  · rw [BitVec.getLsbD_and, show (0x0001F1F7 : Word).getLsbD 8 = true from rfl, Bool.and_true, BitVec.getLsbD, BitVec.toNat_ofNat,
      Nat.testBit_eq_decide_div_mod_eq,
      show (rate + 16 * width + 256 * b2n flit + 4096 * ltssm + 65536 * b2n dlUp) % 2 ^ 32 / 2 ^ 8 % 2 = b2n flit by omega, hbit]
  · rw [bits_and_mask _ _ (by decide), bits, BitVec.toNat_ofNat, Nat.shiftRight_eq_div_pow]; omega
  · rw [BitVec.getLsbD_and, show (0x0001F1F7 : Word).getLsbD 16 = true from rfl, Bool.and_true, BitVec.getLsbD, BitVec.toNat_ofNat,
      Nat.testBit_eq_decide_div_mod_eq,
      show (rate + 16 * width + 256 * b2n flit + 4096 * ltssm + 65536 * b2n dlUp) % 2 ^ 32 / 2 ^ 16 % 2 = b2n dlUp by omega, hbit]

/-- PCIE_LINK_STATE_CHANGE (R702). -/
theorem pcieLink_effect {s : State} (hs : keysRise s.regs) (ltssm : BitVec 4) (rate : BitVec 3) (width : BitVec 4) (flit dlUp : Bool) :
    let t := (pcieLinkAct ltssm.toNat rate.toNat width.toNat flit dlUp).run s
    t.fld Reg.HOST.LINK_STATUS 2 0 = rate.toNat ∧ t.fld Reg.HOST.LINK_STATUS 7 4 = width.toNat ∧
      t.bit Reg.HOST.LINK_STATUS 8 = flit ∧ t.fld Reg.HOST.LINK_STATUS 15 12 = ltssm.toNat ∧ t.bit Reg.HOST.LINK_STATUS 16 = dlUp ∧
      (s.bit Reg.HOST.LINK_STATUS 16 = true → dlUp = false → t.bit Reg.HOST.LINK_EVENTS 0 = true ∧ t.pend .HOST 0 0 = true) ∧
      (rate.toNat ≠ s.fld Reg.HOST.LINK_STATUS 2 0 → t.bit Reg.HOST.LINK_EVENTS 1 = true ∧ t.pend .HOST 0 0 = true) ∧
      (width.toNat ≠ s.fld Reg.HOST.LINK_STATUS 7 4 → t.bit Reg.HOST.LINK_EVENTS 2 = true ∧ t.pend .HOST 0 0 = true) ∧
      Quiet ([Reg.HOST.LINK_STATUS, Reg.HOST.LINK_EVENTS] ++ irqOf .HOST 0) s t := by
  intro t
  let w := s.rd Reg.HOST.LINK_STATUS
  let n := rate.toNat + 16 * width.toNat + 256 * b2n flit + 4096 * ltssm.toNat + 65536 * b2n dlUp
  let l := [(w.getLsbD 16 && !dlUp, 0), (bits w 2 0 != rate.toNat, 1), (bits w 7 4 != width.toNat, 2),
    (ltssm.toNat == 4 && bits w 15 12 != 4, 3)]
  let p := s.setReg Reg.HOST.LINK_STATUS (BitVec.ofNat 32 n)
  have hp : keysRise p.regs := keysRise_setReg hs _ _
  have hrun : t = (hostEvents l).run p := rfl
  have hevents : (hostEvents l).Only (.regs (Reg.HOST.LINK_EVENTS :: irqOf .HOST 0)) := by simp [hostEvents, hostEvent, irqOf]
  have hrd : t.rd Reg.HOST.LINK_STATUS = BitVec.ofNat 32 n &&& 0x0001F1F7 := by
    rw [hrun, (hevents.frame p).1.rd_off (by simp [irqOf]), rd_setReg_same hs, mask_hostLinkStatus]
  obtain ⟨e1, e2, e3, e4, e5⟩ := linkWord_fields rate.isLt width.isLt ltssm.isLt flit dlUp
  have hev {k : Nat} (hk : k < 4) (h : (true, k) ∈ l) : t.bit Reg.HOST.LINK_EVENTS k = true ∧ t.pend .HOST 0 0 = true := by
    rw [hrun]; exact hostEvents_effect hp hk (.inl h)
  refine ⟨(congrArg (bits · 2 0) hrd).trans e1, (congrArg (bits · 7 4) hrd).trans e2, (congrArg (BitVec.getLsbD · 8) hrd).trans e3,
    (congrArg (bits · 15 12) hrd).trans e4, (congrArg (BitVec.getLsbD · 16) hrd).trans e5, fun h h' => hev (by decide) ?_,
    fun h => hev (by decide) ?_, fun h => hev (by decide) ?_, ?_⟩
  · have hw : w.getLsbD 16 = true := h
    simp [l, hw, h']
  · have hw : bits w 2 0 ≠ rate.toNat := fun he => h he.symm
    simp [l, hw]
  · have hw : bits w 7 4 ≠ width.toNat := fun he => h he.symm
    simp [l, hw]
  · exact Act.Only.quiet (a := pcieLinkAct ltssm.toNat rate.toNat width.toNat flit dlUp) (by simp [pcieLinkAct, hostEvent, irqOf]) s

/-- PCIE_RESET (R706, R479). -/
theorem pcieReset_effect {s : State} (hs : keysRise s.regs) :
    let t := pcieResetAct.run s
    t.hw.gath.fns = List.replicate 32 {} ∧ t.hw.gath.msix = [] ∧ t.hw.gath.pba = 0 ∧
      t.rd Reg.HOST.LINK_STATUS = 0 ∧ t.rd Reg.HOST.SRIOV_STATUS = 0 ∧ t.rd Reg.HOST.VF_ENABLED = 0 ∧
      (s.bit Reg.HOST.LINK_STATUS 16 = true → t.bit Reg.HOST.LINK_EVENTS 0 = true ∧ t.pend .HOST 0 0 = true) ∧
      SameRegs ([Reg.HOST.LINK_STATUS, Reg.HOST.SRIOV_STATUS, Reg.HOST.VF_ENABLED, Reg.HOST.LINK_EVENTS] ++ irqOf .HOST 0) s t ∧
      SameRest s t := by
  intro t
  let p := ((s.mapHw fun h => { h with gath := { h.gath with fns := List.replicate 32 {}, msix := [], pba := 0 } }).setReg
    Reg.HOST.SRIOV_STATUS 0).setReg Reg.HOST.VF_ENABLED 0
  let ev : Act := .when (s.bit Reg.HOST.LINK_STATUS 16) (hostEvent 0)
  have hp : keysRise p.regs := keysRise_setReg (keysRise_setReg hs _ _) _ _
  have hrun : t = (ev.run p).setReg Reg.HOST.LINK_STATUS 0 := rfl
  have hev : ev.Only (.quiet (Reg.HOST.LINK_EVENTS :: irqOf .HOST 0)) := by simp [ev, hostEvent, irqOf]
  obtain ⟨e, he⟩ := (hev.quiet p).hw
  have hhw : t.hw = { p.hw with gath := { p.hw.gath with edge := e } } := by rw [hrun]; exact he
  have hrd {r : RegRef} (h : r.off % 4096 ∈ [0x048, 0x04C]) : t.rd r = p.rd r := by
    rw [hrun]
    refine (rd_setReg_off (by simp at h ⊢; omega)).trans ((hev.quiet p).regs.rd_off ?_)
    simp [irqOf] at h ⊢
    omega
  obtain ⟨hregs, hrest⟩ := Act.Only.frame (l := [Reg.HOST.LINK_STATUS, Reg.HOST.SRIOV_STATUS, Reg.HOST.VF_ENABLED, Reg.HOST.LINK_EVENTS] ++
    irqOf .HOST 0) (a := pcieResetAct) (by simp [pcieResetAct, hostEvent, irqOf]) s
  refine ⟨by rw [hhw]; rfl, by rw [hhw]; rfl, by rw [hhw]; rfl, ?_, ?_, ?_, fun h => ?_, hregs, hrest⟩
  · rw [hrun, rd_setReg_same (rise_run _ hp)]; exact BitVec.zero_and
  · rw [hrd (by simp), rd_setReg_off (by simp)]
    exact (rd_setReg_same (s := s.mapHw _) hs _ _).trans BitVec.zero_and
  · rw [hrd (by simp)]
    exact (rd_setReg_same (keysRise_setReg (s := s.mapHw _) hs _ _) _ _).trans BitVec.zero_and
  · obtain ⟨h1, h2⟩ := hostEvent_effect hp (k := 0) (by decide)
    have hev' : ev.run p = (hostEvent 0).run p := by simp only [ev, run_when, h, if_true]
    rw [hrun, hev']
    refine ⟨?_, ?_⟩
    · rw [State.bit, rd_setReg_off (by simp)]; exact h1
    · rw [State.pend, State.bit, rd_setReg_off (by simp)]; exact h2

/-! ### Start-up tests -/

/-- The registers of the pages behind AON but PIN's, and block state. -/
def Scope.startup : Scope :=
  { reg := fun r => r.off < 4096 ∧
      (Blk.PIN.slot < r.blk.slot ∨ r.inst = 0 ∧ Blk.AON.slot < r.blk.slot ∧ r.blk.slot < Blk.PIN.slot) }

@[simp] theorem startup_reg (r : RegRef) :
    Scope.startup.reg r ↔ r.off < 4096 ∧ (0x16 < r.blk.slot ∨ r.inst = 0 ∧ 0x11 < r.blk.slot ∧ r.blk.slot < 0x16) := .rfl
@[simp] theorem startup_hw (f : Hw → Hw) : Scope.startup.hw f := trivial

/-- Repairs re-applied (R146) change registers alone. -/
theorem only_applyMap : applyMap.Only { reg := Scope.startup.reg, hw := fun _ => False } := by
  have hcounts : phaseCounts.Only { reg := Scope.startup.reg, hw := fun _ => False } := by simp [phaseCounts, Blk.slot]
  simp only [applyMap, only_get, only_all_cons, only_all_nil, only_each, only_seq, only_when, only_wr, only_setFld, hcounts, startup_reg]
  refine fun s => ⟨by simp [Blk.slot], by simp [Blk.slot], fun x _ _ => ?_, fun x _ => ⟨by simp [Blk.slot], fun _ => ?_⟩,
    by simp [Blk.slot], by simp [Blk.slot], trivial, trivial⟩
  · split <;> simp [Blk.slot]
  · split <;> simp [Blk.slot]

theorem startup_applyMap : applyMap.Only .startup := only_applyMap.weaken (fun _ h => h) fun _ h => h.elim

theorem startup_shipmentRegs : ∀ r ∈ mapRegs ++ repairRegs, Scope.startup.reg r := by
  have h : ∀ r ∈ mapRegs ++ repairRegs, r.off < 4096 ∧ (0x16 < r.blk.slot ∨ r.inst = 0 ∧ 0x11 < r.blk.slot ∧ r.blk.slot < 0x16) := by
    decide +kernel
  exact h

theorem startup_darnQueue (op : DarnOp) : (darnQueue op).Only .startup := trivial

theorem startup_darnRequest (op : DarnOp) : (darnRequest op).Only .startup := by
  simp only [darnRequest, only_get, only_ite, only_nil, startup_darnQueue]
  intro s
  refine ⟨fun _ => trivial, fun _ => ⟨fun _ => trivial, fun _ => ?_⟩⟩
  split
  · simp [startup_darnQueue]
  · simp [startup_darnQueue]

theorem startup_engBit {lo hi : RegRef} (hlo : Scope.startup.reg lo) (hhi : Scope.startup.reg hi) (p : Nat) (b : Bool) :
    (Act.engBit lo hi p b).Only .startup := by
  rw [Act.engBit]
  split
  · exact (only_setFld _ _ _ _).2 hlo
  · exact (only_setFld _ _ _ _).2 hhi

theorem startup_setSpare (p : Nat) (b : Bool) : (setSpare p b).Only .startup :=
  startup_engBit (by simp [Blk.slot]) (by simp [Blk.slot]) p b
theorem startup_setFailed (p : Nat) (b : Bool) : (setFailed p b).Only .startup :=
  startup_engBit (by simp [Blk.slot]) (by simp [Blk.slot]) p b

theorem startup_commitMap {a : Act} (ha : a.Only .startup) : (commitMap a).Only .startup := by
  simp [commitMap, countSpares, ha, Blk.slot]

theorem startup_engineUnfit (p : Nat) : (engineUnfit p).Only .startup := by
  simp [engineUnfit, startup_darnRequest, startup_commitMap, startup_setSpare, startup_setFailed, darnLog, darnRaise, Blk.slot]

theorem startup_startRepairs (r : StartupResult) : (startRepairs r).Only .startup := by
  simp [startRepairs, startup_darnRequest, startup_engineUnfit, Blk.slot]

theorem startup_engineReturns (failed : BitVec 36) : (engineReturns failed).Only .startup := by
  simp [engineReturns, startup_commitMap, startup_setSpare, startup_setFailed]

theorem startup_engines (held : BitVec 36) : (startEngines held).Only .startup := by
  simp [startEngines, setEngState, Blk.slot]

theorem startup_fces (held : BitVec 4) : (startFces held).Only .startup := by
  simp [startFces, setFceState, Blk.slot]

theorem startup_memory (r : StartupResult) : (startMemory r).Only .startup := by
  simp [startMemory, Blk.slot]

/-- What the start-up tests do of the engines, memories and pages, before the pages are set ready. -/
def startupParts (r : StartupResult) : Act := .all
  [startMemory r, engineReturns r.engines, startEngines r.engines, startFces r.fces,
   .each (List.range 36) testCounts, .each (List.range 4) fun i => .bump (Reg.FCE.CHK_CNT i) 1, startRepairs r]

theorem startup_parts (r : StartupResult) : (startupParts r).Only .startup := by
  simp [startupParts, startup_memory, startup_engineReturns, startup_engines, startup_fces, startup_startRepairs, testCounts, Blk.slot]

/-- The pages set ready, or held (R716). -/
def startupReady (r : StartupResult) : Act :=
  .each (allPages []) fun (b, i) => setReady b i (!(r.blocks.any fun x => x.toNat == b.slot + i))

/-- A page's register at 0x00C, and its bit 0. -/
theorem allPages_inst {x : Blk × Nat} (h : x ∈ allPages []) : x.2 < x.1.count := by
  simp only [allPages, List.mem_filter, List.mem_flatMap, List.mem_map, List.mem_range] at h
  obtain ⟨⟨b, -, i, hi, rfl⟩, -⟩ := h
  exact hi

theorem mask_status {b : Blk} {i : Nat} (h : i < b.count) : (RegRef.mask (Reg.HDR.STATUS b i)).getLsbD 0 = true := by
  simp [RegRef.mask, RegRef.row, rowAt, h, headerRows, RegRow.holds]

/-- Setting pages ready, one after the other: each shows what it was given. -/
theorem setReady_each {f : Blk × Nat → Bool} {l : List (Blk × Nat)} (hl : ∀ x ∈ l, x.2 < x.1.count) (hnd : l.Nodup) {s : State}
    (hs : keysRise s.regs) {x : Blk × Nat} (hx : x ∈ l) :
    ((Act.each l fun x => setReady x.1 x.2 (f x)).run s).bit (Reg.HDR.STATUS x.1 x.2) 0 = f x := by
  induction l generalizing s with
  | nil => exact absurd hx (by simp)
  | cons y l ih =>
    obtain ⟨hny, hnd⟩ := List.nodup_cons.1 hnd
    have hl' : ∀ x ∈ l, x.2 < x.1.count := fun x hx => hl x (List.mem_cons_of_mem _ hx)
    rw [run_each_cons]
    rcases List.mem_cons.1 hx with rfl | hxl
    · have honly : (Act.each l fun x => setReady x.1 x.2 (f x)).Only { reg := fun r => ∃ y ∈ l, r = Reg.HDR.STATUS y.1 y.2 } := by
        simp only [only_each, setReady, only_setFld]
        exact fun y hy => ⟨y, hy, rfl⟩
      have hrow {z : Blk × Nat} (hz : z.2 < z.1.count) : (RegRef.row (Reg.HDR.STATUS z.1 z.2)).isSome := by
        simp [RegRef.row, rowAt, hz, headerRows, RegRow.holds]
      have hxc := hl x List.mem_cons_self
      rw [State.bit, honly.rd id, ← State.bit]
      · rw [setReady, bit_setFld hs (mask_status hxc)]
        cases f x <;> rfl
      · rintro _ ⟨y, hy, rfl⟩ hk
        obtain ⟨h1, h2⟩ : y.1 = x.1 ∧ y.2 = x.2 := by
          have h := key_inj (hrow (hl' y hy)) (hrow hxc) hk
          simpa using h
        exact hny (Prod.ext h1 h2 ▸ hy)
    · exact ih hl' hnd (rise_run _ hs) hxl

theorem allPages_nodup : (allPages []).Nodup := by
  decide +kernel

/-- A program behind AON leaves AON's registers. -/
theorem Act.Only.startup_aon {a : Act} (ha : a.Only .startup) (s : State) {off : Nat} (ho : off < 4096) :
    (a.run s).rd ⟨.AON, 0, off⟩ = s.rd ⟨.AON, 0, off⟩ := by
  refine ha.rd id (fun r hr hk => ?_) s
  obtain ⟨h1, h2⟩ := (startup_reg r).1 hr
  simp only [RegRef.key, show Blk.AON.slot = 0x11 from rfl] at hk
  omega

theorem mask_startResult : RegRef.mask Reg.AON.START_RESULT = 0xFFFF007F := by decide +kernel

theorem startFails_lt (r : StartupResult) : startFails r < 128 := by
  have h (b : Bool) : b2n b ≤ 1 := by cases b <;> decide
  have h0 := h r.mapLost
  have h1 := h (!r.sramRows.isEmpty || r.noSpare)
  have h2 := h (!r.dramRows.isEmpty || r.untrained != 0)
  have h3 := h (r.engines != 0)
  have h4 := h (r.fces != 0)
  have h5 := h (!r.afes.isEmpty)
  have h6 := h (!r.blocks.isEmpty)
  unfold startFails
  omega

theorem startFails_ne {r : StartupResult} (h : startFailed r = true) : startFails r ≠ 0 := by
  rw [startFailed, Bool.or_eq_true] at h
  unfold startFails
  rcases h with h | h
  · rw [h, Bool.or_true, show b2n true = 1 from rfl]; omega
  · rw [h, Bool.or_true, show b2n true = 1 from rfl]; omega

/-- The tests' first steps: START_RESULT, the memory's note in BOOT_STATUS, source 36, and the shipment map. -/
def startupHead (s : State) (r : StartupResult) : Act := .all
  [.wrN Reg.AON.START_RESULT (startFails r + 65536 * (if startFails r = 0 then 0 else r.firstUnit.toNat)),
   .setFld Reg.AON.BOOT_STATUS 24 24 (b2n s.hw.boot.kept), .when (startFails r != 0) (aonRaise 4),
   .when r.mapLost (.seq shipmentMap applyMap)]

/-- The shipment map re-applied (R15): of AON's registers, RST_FLAGS and the interrupt registers alone change, and what is
pending stays pending. -/
theorem shipment_effect {s : State} (hs : keysRise s.regs) (c : Bool) :
    let t := (Act.when c (.seq shipmentMap applyMap)).run s
    (∀ off ∈ [0x058, 0x064], t.rd ⟨.AON, 0, off⟩ = s.rd ⟨.AON, 0, off⟩) ∧ (s.pend .AON 0 4 = true → t.pend .AON 0 4 = true) := by
  intro t
  let a1 : Act := .seq (.each (mapRegs ++ repairRegs) fun r => .wr r r.resetVal) (.darn fun d =>
    { d with arr := List.replicate 36 0, cols := List.replicate 4 0, rows := [], failed := [], unfail := [], other := List.replicate 14 0 })
  have ha1 : a1.Only .startup := ⟨(only_each _ _).2 startup_shipmentRegs, startup_hw _⟩
  by_cases hc : c = true
  · let s1 := a1.run s
    let s2 := (Act.orReg Reg.AON.RST_FLAGS 8).run s1
    have h1 : keysRise s1.regs := rise_run _ hs
    have h2 : keysRise s2.regs := rise_run _ h1
    have hsplit (a b c d : Act) (s : State) : (Act.seq a (.all [b, c, d])).run s = d.run (c.run ((Act.seq a b).run s)) := rfl
    have hrun : t = applyMap.run ((aonRaise 0).run s2) := by
      simp only [t, run_when, hc, if_true, run_seq _ applyMap]
      rw [shipmentMap, hsplit]
    refine ⟨fun off ho => ?_, fun hp => ?_⟩
    · have ho' : off < 4096 ∧ 0x010 ≠ off % 4096 ∧ 0x01C ≠ off % 4096 ∧ 0x044 ≠ off % 4096 := by simp at ho; omega
      rw [hrun, startup_applyMap.startup_aon _ ho'.1, aonRaise, rd_raise_off ho'.2.1 ho'.2.2.1]
      exact (rd_setReg_off (r := Reg.AON.RST_FLAGS) ho'.2.2.2).trans (ha1.startup_aon s ho'.1)
    · have hpend : s2.bit (Reg.HDR.IRQ_PEND .AON 0) 4 = true := by
        rw [State.bit, show s2.rd (Reg.HDR.IRQ_PEND .AON 0) = s1.rd (Reg.HDR.IRQ_PEND .AON 0) from rd_setReg_off (by simp),
          ha1.startup_aon s (by decide)]
        exact hp
      rw [State.pend, State.bit, hrun, startup_applyMap.startup_aon _ (by decide), ← State.bit]
      exact bit_raise_mono h2 (by decide) hpend
  · have hrun : t = s := by simp only [t, run_when, if_neg hc]
    rw [hrun]
    exact ⟨fun _ _ => rfl, id⟩

theorem startupHead_effect {s : State} (hs : keysRise s.regs) (r : StartupResult) :
    let t := (startupHead s r).run s
    t.fld Reg.AON.START_RESULT 6 0 = startFails r ∧ (startFails r ≠ 0 → t.pend .AON 0 4 = true) := by
  intro t
  let n := startFails r + 65536 * (if startFails r = 0 then 0 else r.firstUnit.toNat)
  let s1 := s.setReg Reg.AON.START_RESULT (BitVec.ofNat 32 n)
  let s2 := (Act.setFld Reg.AON.BOOT_STATUS 24 24 (b2n s.hw.boot.kept)).run s1
  let s3 := (Act.when (startFails r != 0) (aonRaise 4)).run s2
  have h1 : keysRise s1.regs := keysRise_setReg hs _ _
  have h2 : keysRise s2.regs := rise_run _ h1
  have h3 : keysRise s3.regs := rise_run _ h2
  have hrun : t = (Act.when r.mapLost (.seq shipmentMap applyMap)).run s3 := rfl
  obtain ⟨hkeep, hpend⟩ := shipment_effect h3 r.mapLost
  have hres : s3.rd Reg.AON.START_RESULT = BitVec.ofNat 32 n &&& 0xFFFF007F := by
    have h32 : s3.rd Reg.AON.START_RESULT = s2.rd Reg.AON.START_RESULT :=
      Act.Only.rd (p := .regs (irqOf .AON 0)) (by simp [aonRaise, irqOf]) id
        (fun r' hr => by simp [irqOf] at hr; rcases hr with rfl | rfl <;> exact key_ne_of_off (by simp)) s2
    rw [h32, show s2.rd Reg.AON.START_RESULT = s1.rd Reg.AON.START_RESULT from rd_setReg_off (by simp), rd_setReg_same hs,
      mask_startResult]
  refine ⟨?_, fun h => ?_⟩
  · rw [hrun, State.fld, hkeep _ (by simp), hres, bits_and_mask _ _ (by decide), bits, BitVec.toNat_ofNat, Nat.shiftRight_eq_div_pow]
    have := startFails_lt r
    omega
  · rw [hrun]
    refine hpend ?_
    have hr3 : s3 = (aonRaise 4).run s2 := by simp only [s3, run_when]; exact if_pos (by simpa using h)
    rw [hr3]
    exact bit_raise h2 (by decide) (by decide)

/-- STARTUP_TESTS_DONE (R716 to R718): what it may change. -/
theorem only_startup (r : StartupResult) : (startupAct r).Only { reg := fun _ => True } := by
  have hw {a : Act} (ha : a.Only .startup) : a.Only { reg := fun _ => True } := ha.weaken (fun _ _ => trivial) fun _ _ => trivial
  simp only [startupAct, only_get, only_when, only_all_cons, only_all_nil, only_ite]
  refine fun s _ => ⟨trivial, (only_setFld _ _ _ _).2 trivial, fun _ => only_raise trivial trivial fun _ => trivial,
    fun _ => ⟨?_, hw startup_applyMap⟩, ⟨fun _ => ?_, fun _ => ?_⟩, trivial⟩
  · simp [shipmentMap, aonRaise]
  · simp [setStage]
  · refine ⟨hw (startup_memory r), hw (startup_engineReturns _), hw (startup_engines _), hw (startup_fces _), ?_, ?_,
      hw (startup_startRepairs r), ?_⟩ <;> simp [testCounts, setReady, setStage, aonRaise]

/-- STARTUP_TESTS_DONE (R716 to R718). -/
theorem startup_effect {s : State} (hs : keysRise s.regs) (r : StartupResult) (hst : s.stage = bTESTS) (hf : s.hw.boot.frozen = false) :
    let t := (startupAct r).run s
    t.fld Reg.AON.START_RESULT 6 0 = startFails r ∧ (startFails r ≠ 0 → t.pend .AON 0 4 = true) ∧
      (startFailed r = true → t.stage = bFAILED) ∧
      (startFailed r = false → t.stage = bREADY ∧ t.pend .AON 0 1 = true ∧
        ∀ x ∈ allPages [], t.bit (Reg.HDR.STATUS x.1 x.2) 0 = !(r.blocks.any fun y => y.toNat == x.1.slot + x.2)) ∧
      t.tsc = s.tsc ∧ t.out = s.out := by
  intro t
  let u := (startupHead s r).run s
  have hu : keysRise u.regs := rise_run _ hs
  obtain ⟨h1, h2⟩ := startupHead_effect hs r
  refine and_assoc.1 (and_assoc.1 (and_assoc.1 ⟨?_, (only_startup r).tsc id s, (only_startup r).out id s⟩))
  have hif : t = (if startFailed r then setStage bFAILED else .all [startupParts r, startupReady r,
      .wrN Reg.AON.BOOT_TIME (min ((s.now - s.hw.boot.released) / 1000) 4294967295), setStage bREADY, aonRaise 1]).run u := by
    simp only [t, startupAct, run_get, run_when, hst, hf, beq_self_eq_true, Bool.not_false, Bool.and_true, if_true]
    rw [run_all_cons, run_all_cons, run_all_cons, run_all_cons, run_all_cons, run_all_nil]
    cases startFailed r <;> rfl
  rw [hif]
  by_cases hfail : startFailed r = true
  · have hrd {off : Nat} (h : 0x058 ≠ off % 4096) : ((setStage bFAILED).run u).rd ⟨.AON, 0, off⟩ = u.rd ⟨.AON, 0, off⟩ := rd_setReg_off h
    rw [if_pos hfail]
    refine ⟨⟨⟨(congrArg (bits · 6 0) (hrd (by decide))).trans h1, fun h => ?_⟩, fun _ => ?_⟩, fun h => absurd (hfail.symm.trans h) (by simp)⟩
    · exact (congrArg (BitVec.getLsbD · 4) (hrd (by decide))).trans (h2 h)
    · exact fld_bootStatus hu 3 0 bFAILED (by simp) (by decide)
  · rw [if_neg hfail]
    let u1 := (startupParts r).run u
    let u2 := (startupReady r).run u1
    let u3 := u2.setReg Reg.AON.BOOT_TIME (BitVec.ofNat 32 (min ((s.now - s.hw.boot.released) / 1000) 4294967295))
    let u4 := (setStage bREADY).run u3
    have hu1 : keysRise u1.regs := rise_run _ hu
    have hu2 : keysRise u2.regs := rise_run _ hu1
    have hu3 : keysRise u3.regs := keysRise_setReg hu2 _ _
    have hu4 : keysRise u4.regs := rise_run _ hu3
    have hready : (startupReady r).Only { reg := fun r => r.off = 0x00C } := by simp [startupReady, setReady]
    have hu21 {off : Nat} (h1 : off < 4096) (h2 : 0x00C ≠ off) : u2.rd ⟨.AON, 0, off⟩ = u.rd ⟨.AON, 0, off⟩ :=
      (hready.rd id (fun r' hr' => key_ne_of_off (by rw [hr']; simp only; omega)) u1).trans ((startup_parts r).startup_aon u h1)
    have hu42 {q : RegRef} (h1 : 0x068 ≠ q.off % 4096) (h2 : 0x058 ≠ q.off % 4096) : u4.rd q = u2.rd q :=
      (rd_setReg_off (r := Reg.AON.BOOT_STATUS) h2).trans (rd_setReg_off (r := Reg.AON.BOOT_TIME) h1)
    have hlast : (Act.all [startupParts r, startupReady r,
      .wrN Reg.AON.BOOT_TIME (min ((s.now - s.hw.boot.released) / 1000) 4294967295), setStage bREADY, aonRaise 1]).run u = (aonRaise 1).run u4 := rfl
    rw [hlast]
    have hkeep {q : RegRef} (h1 : 0x010 ≠ q.off % 4096) (h2 : 0x01C ≠ q.off % 4096) : ((aonRaise 1).run u4).rd q = u4.rd q := rd_raise_off h1 h2
    refine ⟨⟨⟨?_, fun h => ?_⟩, fun h => absurd h hfail⟩, fun _ => ⟨?_, bit_raise hu4 (by decide) (by decide), fun x hx => ?_⟩⟩
    · rw [State.fld, hkeep (by simp) (by simp), hu42 (by simp) (by simp), hu21 (by simp) (by simp)]
      exact h1
    · refine bit_raise_mono hu4 (by decide) ?_
      rw [State.bit, hu42 (by simp) (by simp), hu21 (by simp) (by simp)]
      exact h2 h
    · rw [State.stage, State.fld, hkeep (by simp) (by simp)]
      exact fld_bootStatus hu3 3 0 bREADY (by simp) (by decide)
    · rw [State.bit, hkeep (by simp) (by simp), hu42 (by simp) (by simp), ← State.bit]
      exact setReady_each (fun _ h => allPages_inst h) allPages_nodup hu1 hx

/-- Settles O57. -/
theorem bootAndLink : Obligations.BootAndLink := by
  refine ⟨fun s slotB x hl hst hf hslot => ⟨fun he => ?_, fun he => ⟨_, command_eq hl.2, bootImage_failed hl.1.1.1 hst hf hslot he⟩⟩,
    fun s v c hl hacc hkey hst hf => ?_, fun s v hl hacc hkey => ?_, fun s r hl hst hf => ?_, fun s hl => ⟨?_, ?_, ?_, ?_⟩⟩
  · have hrun : (bootImageAct slotB x).run s = (acceptImage (b2n slotB) x).run s := by
      simp only [bootImageAct, run_get, run_when, hst, hf, hslot, beq_self_eq_true, Bool.not_false, Bool.and_true, if_true]
      rw [if_pos he]
    obtain ⟨e1, e2, e3, e4, -, e5⟩ := acceptImage_effect hl.1.1.1 (slot := b2n slotB) (by cases slotB <;> decide) (rollback_of_imageError he)
    refine ⟨_, command_eq hl.2, ?_⟩
    rw [hrun]
    exact ⟨e1, e2.trans (by cases slotB <;> rfl), e3, fun h => e4 (by rw [h]; rfl), e5⟩
  · obtain ⟨e1, e2, e3, e4⟩ := loadHost_effect hl v c hacc hkey hst hf
    exact ⟨fun h => ⟨_, command_eq hl.2, (e1 h).1, (e1 h).2, e3, e4⟩, fun h => ⟨_, command_eq hl.2, (e2 h).1, (e2 h).2, e3, e4⟩⟩
  · obtain ⟨e1, e2, e3⟩ := commitRollback_effect hl v hacc hkey
    exact ⟨fun h => ⟨_, command_eq hl.2, (e1 h).1, (e1 h).2, e3⟩, fun h => ⟨_, command_eq hl.2, e2 h, e3⟩⟩
  · obtain ⟨e1, e2, e3, e4, e5⟩ := startup_effect hl.1.1.1 r hst hf
    refine ⟨fun h => ?_, fun h => ⟨_, command_eq hl.2, e3 h, e2 (startFails_ne h), e1, e5⟩⟩
    obtain ⟨f1, f2, f3⟩ := e4 h
    exact ⟨_, command_eq hl.2, f1, f2, e1, e2, f3, e5⟩
  · exact ⟨_, command_eq hl.2, pcieReset_effect hl.1.1.1⟩
  · exact fun ltssm rate width flit dlUp => ⟨_, simply_eq hl.2, pcieLink_effect hl.1.1.1 ltssm rate width flit dlUp⟩
  · obtain ⟨hregs, hrest⟩ := Act.Only.frame (l := Reg.HOST.CTO_CNT :: irqOf .HOST 0) (a := pcieTimeoutAct) (by simp [pcieTimeoutAct, irqOf]) s
    refine ⟨_, simply_eq hl.2, fun h => ?_, bit_raise (rise_run _ hl.1.1.1) (by decide) (by decide), hregs, hrest⟩
    have hrd : (pcieTimeoutAct.run s).rd Reg.HOST.CTO_CNT = ((Act.bump Reg.HOST.CTO_CNT 1).run s).rd Reg.HOST.CTO_CNT :=
      rd_raise_off (by simp) (by simp)
    rw [hrd]
    exact counts_bump hl.1.1.1 (by decide +kernel) 1 h
  · let s1 := (Act.orReg Reg.CLK.CLK_EVENTS 0x40000).run s
    let s2 := (Act.setFld Reg.CLK.CLK_STATUS 18 18 0).run s1
    have h1 : keysRise s1.regs := rise_run _ hl.1.1.1
    have h2 : keysRise s2.regs := rise_run _ h1
    have hrun : pcieRefAct.run s = (Act.raise .CLK 0 2).run s2 := rfl
    have hkeep {q : RegRef} (h : 0x010 ≠ q.off % 4096) (h' : 0x01C ≠ q.off % 4096) : (pcieRefAct.run s).rd q = s2.rd q := by
      rw [hrun]; exact rd_raise_off h h'
    refine ⟨_, simply_eq hl.2, ?_, ?_, bit_raise h2 (by decide) (by decide), Act.Only.quiet (by simp [pcieRefAct, irqOf]) s⟩
    · rw [State.bit, hkeep (by simp) (by simp), show s2.rd Reg.CLK.CLK_EVENTS = s1.rd Reg.CLK.CLK_EVENTS from rd_setReg_off (by simp),
        ← State.bit, bit_orReg hl.1.1.1 _ (by decide +kernel)]
      exact Bool.or_true _
    · rw [State.bit, hkeep (by simp) (by simp), ← State.bit, bit_setFld h1 (by decide +kernel)]
      rfl

end Sys2Proof.Machine

/-! ## Proofs: resets and power loss (18_reset_startup_power_loss)

O56: what a reset leaves, the release, power-on, the power-fail warning. -/

namespace Sys2Proof.Machine

-- One theorem after the other: elaborated side by side, they hold more threads than the memory limit of a check allows.
set_option Elab.async false

/-! ### Registers that return to reset -/

theorem alFind_filter {α : Type} (p : Nat → Bool) (k : Nat) (l : List (Nat × α)) :
    alFind k (l.filter fun e => p e.1) = if p k then alFind k l else none := by
  induction l with
  | nil => simp [alFind]
  | cons x l ih =>
    by_cases hp : p x.1 = true
    · rw [List.filter_cons, if_pos hp, alFind, alFind]
      by_cases hk : x.1 = k
      · rw [if_pos hk, if_pos hk, if_pos (hk ▸ hp)]
      · rw [if_neg hk, if_neg hk, ih]
    · rw [List.filter_cons, if_neg hp, ih, alFind]
      by_cases hk : x.1 = k
      · rw [if_neg (hk ▸ hp), if_neg (hk ▸ hp)]
      · rw [if_neg hk]

/-- A register picked returns to its reset value, another stays. -/
theorem rd_resetRegs (s : State) (p : Nat → Bool) (r : RegRef) :
    ((Upd.resetRegs p).apply s).rd r = if p r.key then r.resetVal else s.rd r := by
  rw [State.rd, apply_resetRegs, alFind_filter (fun k => !p k)]
  cases p r.key <;> rfl

/-- The registers of the pages a reset loses, but for those kept in part (R706, R738). -/
theorem rd_loseRegs {s : State} {keeps : Blk → Bool} {l : List (RegRef × Word)} {r : RegRef} (hr : r.key ∉ l.map fun x => x.1.key) :
    ((loseRegs keeps l).run s).rd r = if lostReg keeps r.key then r.resetVal else s.rd r := by
  have honly : (Act.each l fun (r, m) => .wr r ((r.resetVal &&& ~~~ m) ||| (s.rd r &&& m))).Only { reg := fun r => ∃ x ∈ l, r = x.1 } :=
    (only_each _ _).2 fun x hx => ⟨x, hx, rfl⟩
  refine (honly.rd id (fun r' hr' hk => ?_) _).trans (rd_resetRegs s _ r)
  obtain ⟨x, hx, rfl⟩ := hr'
  exact hr (List.mem_map.2 ⟨x, hx, hk⟩)

/-! ### The main reset -/

/-- What a reset does before the records of AON (R706). -/
def resetBody (kept : Bool) : Act := .all
  [outputsLow, pinsHiz 0, darnInterrupt, loseRegs resetKeeps keptRegs, .upd (.resetRegs fun a => a % 4096 == 0x034), loseHw, standAlone,
   halPageReset, loseMem kept]

/-- The boot state a reset leaves. -/
def BootSt.afterReset (b : BootSt) (kept : Bool) : BootSt :=
  { b with outInvalid := b.pfLow, frozen := b.pfLow, triedA := false, returned := none, warned := b.pfLow, railLost := false, kept := kept }

/-- The records of AON. -/
def resetRecords (cause : Nat) : Act := .all
  [.wrN Reg.AON.RST_CAUSE (2 ^ cause), .satFld Reg.AON.RST_COUNT 31 0 1, .wrN Reg.AON.BOOT_STATUS 0, .wrN Reg.AON.START_RESULT 0]

theorem run_mainReset (cause : Nat) (s : State) :
    ∃ kept, (mainReset cause).run s = (resetRecords cause).run ((Act.boot fun b => b.afterReset kept).run ((resetBody kept).run s)) :=
  ⟨s.bit Reg.AON.RST_CFG 0 && !s.hw.boot.warned && cause != cPOWER, by
    simp only [mainReset, run_get, resetBody, resetRecords, run_all_cons, run_all_nil, BootSt.afterReset]⟩

/-- What the reset's body lets through of the registers. -/
theorem rd_resetBody {s : State} {kept : Bool} {r : RegRef} (hr : r.key ∉ keptRegs.map fun x => x.1.key)
    (ht : r.key ≠ Reg.TSC.TSC_STATUS.key) :
    ((resetBody kept).run s).rd r = if r.key % 4096 == 0x034 || lostReg resetKeeps r.key then r.resetVal else s.rd r := by
  let a1 : Act := .all [outputsLow, pinsHiz 0, darnInterrupt]
  let a2 : Act := .all [loseHw, standAlone, halPageReset, loseMem kept]
  have h1 : a1.Only { reg := fun _ => False, out := True } := by
    simp only [a1, outputsLow, drivePin, pinsHiz, letGo, darnInterrupt, darnLog, only_all_cons, only_all_nil, only_get, only_seq, only_when,
      only_out, only_each, only_darn]
    refine ⟨by simp, by simp, fun s => ⟨?_, trivial⟩, trivial⟩
    split <;> simp
  have h2 : a2.Only { reg := fun r => r = Reg.TSC.TSC_STATUS, mem := True, es := True } := by
    simp [a2, loseHw, standAlone, followEnd, halPageReset, loseMem]
  have hrun : (resetBody kept).run s =
      a2.run ((Upd.resetRegs fun a => a % 4096 == 0x034).apply ((loseRegs resetKeeps keptRegs).run (a1.run s))) := by
    simp only [resetBody, a1, a2, run_all_cons, run_all_nil, run_upd]
  rw [hrun, h2.rd id (fun r' h => h ▸ (Ne.symm ht)), rd_resetRegs, rd_loseRegs hr, h1.rd id (fun _ h => h.elim)]
  cases r.key % 4096 == 0x034 <;> cases lostReg resetKeeps r.key <;> rfl

/-- Block state over the reset's body: boot, the core's supply, the empty dispatcher; the engine stores are gone. -/
theorem resetBody_hw (s : State) (kept : Bool) :
    let t := (resetBody kept).run s
    t.hw.boot = s.hw.boot ∧ t.hw.pwr.coreOn = s.hw.pwr.coreOn ∧ t.hw.disp = {} ∧ t.es = [] ∧ t.tsc = s.tsc := by
  intro t
  let a1 : Act := .all [outputsLow, pinsHiz 0, darnInterrupt, loseRegs resetKeeps keptRegs, .upd (.resetRegs fun a => a % 4096 == 0x034)]
  let a2 : Act := .all [standAlone, halPageReset, loseMem kept]
  have hrun : t = a2.run (loseHw.run (a1.run s)) := by
    simp only [t, resetBody, a1, a2, run_all_cons, run_all_nil]
  have hdarn {p : Scope} (hp : ∀ f : DarnSt → DarnSt, (Act.darn f).Only p) : darnInterrupt.Only p := by
    simp only [darnInterrupt, darnLog, only_get, only_seq]
    refine fun s => ⟨?_, hp _⟩
    split
    · exact (only_get _).2 fun _ => hp _
    · trivial
  have h1 : a1.Only (.hwOnly fun f => ∀ h : Hw, (f h).boot = h.boot ∧ (f h).pwr = h.pwr) := by
    simp only [a1, only_all_cons, only_all_nil]
    refine ⟨?_, ?_, hdarn fun _ _ => ⟨rfl, rfl⟩, ?_, trivial, trivial⟩
    · simp [outputsLow, drivePin]
    · simp [pinsHiz, letGo]
    · simp [loseRegs]
  have h2 : a2.Only (.hwOnly fun f => ∀ h : Hw, (f h).boot = h.boot ∧ (f h).pwr = h.pwr ∧ (f h).disp = h.disp) := by
    simp [a2, standAlone, followEnd, halPageReset, loseMem]
  have hk1 := h1.hw (fun h => (h.boot, h.pwr)) (fun f hf h => by rw [(hf h).1, (hf h).2]) s
  have hk2 := h2.hw (fun h => (h.boot, h.pwr, h.disp)) (fun f hf h => by rw [(hf h).1, (hf h).2.1, (hf h).2.2]) (loseHw.run (a1.run s))
  rw [← hrun] at hk2
  simp only [Prod.mk.injEq] at hk1 hk2
  obtain ⟨hb, hp, hd⟩ := hk2
  have hlose (u : State) : (loseHw.run u).hw.boot = u.hw.boot ∧ (loseHw.run u).hw.pwr.coreOn = u.hw.pwr.coreOn ∧
    (loseHw.run u).hw.disp = {} := ⟨rfl, rfl, rfl⟩
  obtain ⟨l1, l2, l3⟩ := hlose (a1.run s)
  refine ⟨hb.trans (l1.trans hk1.1), (congrArg PwrSt.coreOn hp).trans (l2.trans (congrArg PwrSt.coreOn hk1.2)), hd.trans l3, ?_, ?_⟩
  · have hmem (u : State) : ((loseMem kept).run u).es = [] := by simp [loseMem]
    rw [hrun, show a2 = .all [standAlone, halPageReset, loseMem kept] from rfl, run_all_cons, run_all_cons, run_all_cons, run_all_nil, hmem]
  · have h : (resetBody kept).Only { reg := fun _ => True, reset := True, mem := True, poison := True, es := True, out := True } := by
      simp only [resetBody, only_all_cons, only_all_nil]
      refine ⟨?_, ?_, hdarn fun _ => trivial, ?_, trivial, trivial, ?_⟩
      · simp [outputsLow, drivePin]
      · simp [pinsHiz, letGo]
      · simp [loseRegs]
      · simp [standAlone, followEnd, halPageReset, loseMem]
    exact h.tsc id s

theorem rd_rstCause {s : State} (hs : keysRise s.regs) {cause : Nat} (hc : cause < 6) :
    ((resetRecords cause).run s).rd Reg.AON.RST_CAUSE = BitVec.ofNat 32 (2 ^ cause) := by
  let p := s.setReg Reg.AON.RST_CAUSE (BitVec.ofNat 32 (2 ^ cause))
  have hrest : (Act.all [.satFld Reg.AON.RST_COUNT 31 0 1, .wrN Reg.AON.BOOT_STATUS 0, .wrN Reg.AON.START_RESULT 0]).Only
    (.regs [Reg.AON.RST_COUNT, Reg.AON.BOOT_STATUS, Reg.AON.START_RESULT]) := by simp
  have hmask : ∀ c < 6, BitVec.ofNat 32 (2 ^ c) &&& RegRef.mask Reg.AON.RST_CAUSE = BitVec.ofNat 32 (2 ^ c) := by decide +kernel
  exact ((hrest.frame p).1.rd_off (by simp)).trans ((rd_setReg_same hs _ _).trans (hmask cause hc))

/-- RST_COUNT counts, and stops at its end. -/
theorem rd_rstCount {s : State} (hs : keysRise s.regs) (cause : Nat) :
    (((resetRecords cause).run s).rd Reg.AON.RST_COUNT).toNat = min ((s.rd Reg.AON.RST_COUNT).toNat + 1) 4294967295 := by
  let p := s.setReg Reg.AON.RST_CAUSE (BitVec.ofNat 32 (2 ^ cause))
  let q := (Act.satFld Reg.AON.RST_COUNT 31 0 1).run p
  have hp : p.rd Reg.AON.RST_COUNT = s.rd Reg.AON.RST_COUNT := rd_setReg_off (by simp)
  have hq : ((resetRecords cause).run s).rd Reg.AON.RST_COUNT = q.rd Reg.AON.RST_COUNT :=
    (rd_setReg_off (r := Reg.AON.START_RESULT) (by simp)).trans (rd_setReg_off (r := Reg.AON.BOOT_STATUS) (by simp))
  have hfld (w : Word) : bits w 31 0 = w.toNat := by
    rw [bits, Nat.shiftRight_zero]; exact Nat.mod_eq_of_lt w.isLt
  have hsat := fld_satFld (keysRise_setReg hs Reg.AON.RST_CAUSE (BitVec.ofNat 32 (2 ^ cause))) (r := Reg.AON.RST_COUNT) (hi := 31)
    (lo := 0) 1 (by decide) (by decide +kernel)
  rw [hq]
  rw [State.fld, State.fld, hfld, hfld] at hsat
  rw [hsat, hp]
  norm_num

theorem resetRecords_only (cause : Nat) : (resetRecords cause).Only
    { reg := fun r => r ∈ [Reg.AON.RST_CAUSE, Reg.AON.RST_COUNT, Reg.AON.BOOT_STATUS, Reg.AON.START_RESULT], hw := fun _ => False } := by
  simp [resetRecords]

/-- A reset of the main side (R706): its records, its registers, its block state. -/
theorem mainReset_effect {s : State} (hs : keysRise s.regs) {cause : Nat} (hc : cause < 6) :
    let t := (mainReset cause).run s
    t.rd Reg.AON.RST_CAUSE = BitVec.ofNat 32 (2 ^ cause) ∧
      (t.rd Reg.AON.RST_COUNT).toNat = min ((s.rd Reg.AON.RST_COUNT).toNat + 1) 4294967295 ∧ t.stage = bRESET ∧
      (∀ r : RegRef, lostReg resetKeeps r.key = true → r.key ∉ keptRegs.map (fun x => x.1.key) → t.rd r = r.resetVal) ∧
      (∃ kept, t.hw.boot = s.hw.boot.afterReset kept) ∧ t.hw.pwr.coreOn = s.hw.pwr.coreOn ∧ t.hw.disp = {} ∧ t.es = [] ∧
      t.tsc = s.tsc := by
  intro t
  obtain ⟨kept, hrun⟩ := run_mainReset cause s
  have hbody := resetBody_hw s kept
  have hbrd {r : RegRef} (hr : r.key ∉ keptRegs.map fun x => x.1.key) := rd_resetBody (s := s) (kept := kept) hr
  have hb : keysRise ((resetBody kept).run s).regs := rise_run _ hs
  generalize (resetBody kept).run s = b at hrun hbody hbrd hb
  let u := (Act.boot fun b => b.afterReset kept).run b
  have hu : keysRise u.regs := rise_run _ hb
  have hrd (r : RegRef) : u.rd r = b.rd r := rd_mapHw b _ r
  have hrest := resetRecords_only cause
  obtain ⟨h1, h2, h3, h4, h5⟩ := hbody
  have hhw : ((resetRecords cause).run u).hw = u.hw := hrest.hw id (fun _ h => h.elim) u
  have hcount : u.rd Reg.AON.RST_COUNT = s.rd Reg.AON.RST_COUNT := by
    have hfree : Reg.AON.RST_COUNT.key ∉ keptRegs.map fun x => x.1.key := by decide +kernel
    have hkeep : (Reg.AON.RST_COUNT.key % 4096 == 0x034 || lostReg resetKeeps Reg.AON.RST_COUNT.key) = false := by decide +kernel
    rw [hrd, hbrd hfree (by simp [RegRef.key, Blk.slot]), hkeep]
    rfl
  rw [show t = (resetRecords cause).run u from hrun]
  refine ⟨rd_rstCause hu hc, (rd_rstCount hu cause).trans (by rw [hcount]), ?_, fun r hr hk => ?_, ⟨kept, ?_⟩, ?_, ?_,
    (hrest.es id u).trans h4, (hrest.tsc id u).trans h5⟩
  · let p := (Act.all [.wrN Reg.AON.RST_CAUSE (2 ^ cause), .satFld Reg.AON.RST_COUNT 31 0 1]).run u
    have hp : keysRise p.regs := rise_run _ hu
    have hst : ((resetRecords cause).run u).rd Reg.AON.BOOT_STATUS = (p.setReg Reg.AON.BOOT_STATUS 0).rd Reg.AON.BOOT_STATUS :=
      rd_setReg_off (r := Reg.AON.START_RESULT) (by simp)
    rw [State.stage, State.fld, hst, rd_setReg_same hp]
    simp [bits]
  · have hlost : ∀ q ∈ [Reg.AON.RST_CAUSE, Reg.AON.RST_COUNT, Reg.AON.BOOT_STATUS, Reg.AON.START_RESULT, Reg.TSC.TSC_STATUS],
        lostReg resetKeeps q.key = false := by decide +kernel
    have hne {q : RegRef} (hq : q ∈ [Reg.AON.RST_CAUSE, Reg.AON.RST_COUNT, Reg.AON.BOOT_STATUS, Reg.AON.START_RESULT, Reg.TSC.TSC_STATUS]) :
        q.key ≠ r.key := fun h => by
      have hq' := hlost q hq
      rw [h, hr] at hq'
      cases hq'
    rw [hrest.rd id (fun q hq => hne (by simp at hq ⊢; tauto)), hrd]
    rw [hbrd hk (hne (by simp)).symm, if_pos (by rw [hr, Bool.or_true])]
  · rw [hhw]
    exact congrArg (fun b : BootSt => b.afterReset kept) h1
  · rw [hhw]
    exact h2
  · rw [hhw]
    exact h3

/-! ### Boot begins (R712, R718) -/

/-- The steps of boot between PIN_STATUS and the stage. -/
def bootMid (s : State) : Act := .all
  [.wrN Reg.CLK.CLK_STATUS 0x71FFF, setTarget 7500, selectMap, countSpares, applyMap, pinsBack,
   .each (allPages recoveryPages) fun (b, i) => setReady b i false, .each recoveryPages fun (b, i) => setReady b i true,
   .when (s.rd Reg.AON.RST_FLAGS &&& 11 != 0) (aonRaise 0), .when (s.bit Reg.DARN.PENDING 0) (darnRaise 2),
   .when (s.hw.boot.thermal) (.seq (capEvent 4) (pwrRaise 7)), .boot fun b => { b with thermal := false }]

/-- Only the note of a thermal shutdown changes of the boot state, and nothing of the dispatcher. -/
def BootKeeping (f : Hw → Hw) : Prop := ∀ h : Hw, (f h).disp = h.disp ∧ (f h).boot = { h.boot with thermal := (f h).boot.thermal }

/-- Headers, and the registers of the pages behind AON but PIN's; the output. -/
def Scope.bootMid : Scope := { reg := fun r => Scope.startup.reg r ∨ r.off < 0x40, out := True, hw := BootKeeping }

@[simp] theorem bootMid_reg (r : RegRef) : Scope.bootMid.reg r ↔ Scope.startup.reg r ∨ r.off < 0x40 := .rfl
@[simp] theorem bootMid_hw (f : Hw → Hw) : Scope.bootMid.hw f ↔ BootKeeping f := .rfl
@[simp] theorem bootMid_out : Scope.bootMid.out := trivial
@[simp] theorem bootKeeping_setEdge (e : BitVec 1024) : BootKeeping (Hw.setEdge e) := fun _ => ⟨rfl, rfl⟩

theorem only_bootMid (s : State) : (bootMid s).Only .bootMid := by
  have hmap : applyMap.Only .bootMid := only_applyMap.weaken (fun _ h => .inl h) (fun _ h => h.elim) (out := fun h => h.elim)
  have hsel : ∀ r ∈ mapRegs, r.off < 4096 ∧ (0x16 < r.blk.slot ∨ r.inst = 0 ∧ 0x11 < r.blk.slot ∧ r.blk.slot < 0x16) := by decide +kernel
  have hselect : selectMap.Only .bootMid := by
    simp only [selectMap, only_get, only_when, only_each, only_wr]
    exact fun s _ x hx => .inl (hsel _ (List.of_mem_zip hx).1)
  have htarget : (setTarget 7500).Only .bootMid := by
    simp only [setTarget, only_get, only_all_cons, only_all_nil, only_pwr, only_wrN, only_setFld]
    exact fun s => ⟨fun _ => ⟨rfl, rfl⟩, by simp [Blk.slot], by simp [Blk.slot], trivial⟩
  have hlast : (Act.boot fun b => { b with thermal := false }).Only .bootMid := fun _ => ⟨rfl, rfl⟩
  simp [bootMid, hmap, hselect, htarget, hlast, countSpares, pinsBack, setReady, aonRaise, darnRaise, capEvent, pwrRaise, Blk.slot]

theorem Act.Only.bootMid_rd {a : Act} (ha : a.Only .bootMid) (s : State) {q : RegRef} (hi : q.inst = 0)
    (hb : q.blk.slot = 0x11 ∨ q.blk.slot = 0x16) (ho : 0x40 ≤ q.off ∧ q.off < 4096) : (a.run s).rd q = s.rd q := by
  refine ha.rd id (fun r hr hk => ?_) s
  simp only [bootMid_reg, startup_reg] at hr
  simp only [RegRef.key, hi] at hk
  omega

/-- Boot (R712, R718): what it leaves of the records, and where it stands. -/
theorem bootStart_effect {s : State} (hs : keysRise s.regs) :
    let t := bootStart.run s
    (∀ off ∈ [0x040, 0x048, 0x04C], t.rd ⟨.AON, 0, off⟩ = s.rd ⟨.AON, 0, off⟩) ∧
      t.stage = (if s.hw.boot.straps % 4 = 0 then bAUTH else bRECOVERY) ∧ t.fld Reg.PIN.PIN_STATUS 1 0 = s.hw.boot.straps % 4 ∧
      (s.hw.boot.straps % 4 ≠ 0 → t.pend .AON 0 3 = true) ∧ t.hw.boot.inReset = false ∧ t.hw.boot.pinLow = s.hw.boot.pinLow ∧
      t.hw.boot.straps = s.hw.boot.straps ∧ t.hw.boot.returned = s.hw.boot.returned ∧ t.hw.disp = s.hw.disp ∧ t.es = s.es ∧
      t.tsc = s.tsc := by
  intro t
  let b : Act := .boot fun b => { b with inReset := false, released := s.now, triedA := false }
  let s1 := (b.run s).setReg Reg.AON.BOOT_STATUS 0 |>.setReg Reg.AON.START_RESULT 0
  let s2 := s1.setReg Reg.PIN.PIN_STATUS (BitVec.ofNat 32 (s.hw.boot.straps % 4 + 0x700))
  have h1 : keysRise s1.regs := keysRise_setReg (keysRise_setReg (s := b.run s) hs _ _) _ _
  have h2 : keysRise s2.regs := keysRise_setReg h1 _ _
  have hmid := only_bootMid s
  have h3 : keysRise ((bootMid s).run s2).regs := rise_run _ h2
  have hrun : t = (if s.hw.boot.straps % 4 = 0 then setStage bAUTH else enterRecovery).run ((bootMid s).run s2) := by
    simp only [t, bootStart, bootMid, run_get, run_all_cons, run_all_nil, s2, s1, b, run_wrN]
    rfl
  let fin : Act := if s.hw.boot.straps % 4 = 0 then setStage bAUTH else enterRecovery
  have hfin : fin.Only (.quiet (Reg.AON.BOOT_STATUS :: irqOf .AON 0)) := by
    simp only [fin]
    split <;> simp [enterRecovery, setStage, aonRaise, irqOf]
  obtain ⟨e, he⟩ := (hfin.quiet ((bootMid s).run s2)).hw
  have hrd {q : RegRef} (hi : q.inst = 0) (hb : q.blk.slot = 0x11 ∨ q.blk.slot = 0x16) (ho : 0x40 ≤ q.off ∧ q.off < 4096)
      (hn : q.off ≠ 0x058) : t.rd q = s2.rd q := by
    refine (congrArg (State.rd · q) hrun).trans (((hfin.quiet _).regs q ?_).trans (hmid.bootMid_rd s2 hi hb ho))
    simp only [irqOf, List.map_cons, List.map_nil, List.mem_cons, List.not_mem_nil, or_false, not_or, RegRef.key, hi,
      show Blk.AON.slot = 0x11 from rfl]
    omega
  have hs12 {q : RegRef} (h : 0x058 ≠ q.off % 4096) (h' : 0x064 ≠ q.off % 4096) : s1.rd q = s.rd q :=
    (rd_setReg_off (r := Reg.AON.START_RESULT) h').trans ((rd_setReg_off (r := Reg.AON.BOOT_STATUS) h).trans (rd_mapHw s _ q))
  have hhw2 : s2.hw = (b.run s).hw := rfl
  have hmidhw := hmid.hw (fun h => (h.disp, h.boot.inReset, h.boot.pinLow, h.boot.straps, h.boot.returned))
    (fun f hf h => by rw [(hf h).1, (hf h).2]) s2
  have hhw : t.hw = Hw.setEdge e ((bootMid s).run s2).hw := by rw [hrun]; exact he
  simp only [Prod.mk.injEq] at hmidhw
  obtain ⟨m1, m2, m3, m4, m5⟩ := hmidhw
  refine ⟨fun off ho => ?_, ?_, ?_, fun h => ?_, ?_, ?_, ?_, ?_, ?_, ?_, ?_⟩
  · have ho' : 0x40 ≤ off ∧ off < 4096 ∧ off ≠ 0x058 ∧ off ≠ 0x064 ∧ (off = 0x040 ∨ off = 0x048 ∨ off = 0x04C) := by simp at ho; omega
    obtain ⟨o1, o2, o3, o4, o5⟩ := ho'
    refine (hrd rfl (.inl rfl) ⟨o1, o2⟩ o3).trans ((rd_setReg_ne _ ?_).trans (hs12 (by simp only; omega) (by simp only; omega)))
    exact key_ne_of_page (by simp [Blk.slot]) (by decide) o2
  · rw [State.stage, hrun]
    split
    · exact fld_bootStatus h3 3 0 bAUTH (by simp) (by decide)
    · exact (enterRecovery_effect h3).1
  · rw [State.fld, hrd rfl (.inr rfl) (by decide) (by decide), rd_setReg_same h1,
      show RegRef.mask Reg.PIN.PIN_STATUS = 0x703 from by decide +kernel, bits_and_mask _ _ (by decide), bits, BitVec.toNat_ofNat,
      Nat.shiftRight_zero]
    omega
  · rw [hrun, if_neg h]
    exact (enterRecovery_effect h3).2.1
  · rw [hhw]; exact m2
  · rw [hhw]; exact m3
  · rw [hhw]; exact m4
  · rw [hhw]; exact m5
  · rw [hhw]; exact m1
  · rw [hrun]; exact ((hfin.quiet _).es).trans (hmid.es id s2)
  · rw [hrun]; exact ((hfin.quiet _).tsc).trans (hmid.tsc id s2)

theorem bootIfReady_effect {s : State} (hs : keysRise s.regs) (hin : s.hw.boot.inReset = false) :
    let t := bootIfReady.run s
    (∀ off ∈ [0x040, 0x048, 0x04C], t.rd ⟨.AON, 0, off⟩ = s.rd ⟨.AON, 0, off⟩) ∧
      (s.hw.pwr.coreOn = true → s.hw.boot.pfLow = false → t.stage = (if s.hw.boot.straps % 4 = 0 then bAUTH else bRECOVERY) ∧
        t.fld Reg.PIN.PIN_STATUS 1 0 = s.hw.boot.straps % 4 ∧ (s.hw.boot.straps % 4 ≠ 0 → t.pend .AON 0 3 = true)) ∧
      t.hw.boot.inReset = false ∧ t.hw.boot.pinLow = s.hw.boot.pinLow ∧ t.hw.boot.straps = s.hw.boot.straps ∧
      t.hw.boot.returned = s.hw.boot.returned ∧ t.hw.disp = s.hw.disp ∧ t.es = s.es ∧ t.tsc = s.tsc := by
  intro t
  obtain ⟨e1, e2, e3, e4, e5, e6⟩ := bootStart_effect hs
  have hrun : t = if s.hw.pwr.coreOn && !s.hw.boot.inReset && !s.hw.boot.pfLow then bootStart.run s else s := run_when _ _ _
  generalize bootStart.run s = u at e1 e2 e3 e4 e5 e6 hrun
  by_cases hc : (s.hw.pwr.coreOn && !s.hw.boot.inReset && !s.hw.boot.pfLow) = true
  · rw [hrun, if_pos hc]
    exact ⟨e1, fun _ _ => ⟨e2, e3, e4⟩, e5, e6⟩
  · rw [hrun, if_neg hc]
    exact ⟨fun _ _ => rfl, fun h1 h2 => absurd (by rw [h1, h2, hin]; rfl) hc, hin, rfl, rfl, rfl, rfl, rfl, rfl⟩

theorem resetCause_lt (s : State) {c : Nat} (h : c < 6) : s.resetCause c < 6 := by
  unfold State.resetCause
  split
  · decide
  · exact h

/-- A reset whose release follows at once (R710, R724): cause, empty dispatcher, and boot. -/
theorem resetAndBoot_effect {s : State} (hs : keysRise s.regs) {cause : Nat} (hc : cause < 6) (hin : s.hw.boot.inReset = false) :
    let t := bootIfReady.run ((mainReset cause).run s)
    t.rd Reg.AON.RST_CAUSE = BitVec.ofNat 32 (2 ^ cause) ∧ t.hw.boot.inReset = false ∧ t.hw.boot.returned = none ∧
      t.hw.disp.cmds = [] ∧ t.hw.disp.ctxs = [] ∧ t.es = [] ∧ t.tsc = s.tsc ∧
      (s.hw.pwr.coreOn = true → s.hw.boot.pfLow = false → t.stage = (if s.hw.boot.straps % 4 = 0 then bAUTH else bRECOVERY)) := by
  have hr : keysRise ((mainReset cause).run s).regs := rise_run _ hs
  obtain ⟨r1, -, -, -, ⟨kept, r5⟩, r6, r7, r8, r9⟩ := mainReset_effect hs hc
  generalize (mainReset cause).run s = u at hr r1 r5 r6 r7 r8 r9 ⊢
  intro t
  obtain ⟨b1, b2, b3, -, -, b6, b7, b8, b9⟩ := bootIfReady_effect hr (by rw [r5]; exact hin)
  rw [r5] at b2 b6
  refine ⟨(b1 0x040 (by simp)).trans r1, b3, b6, ?_, ?_, b8.trans r8, b9.trans r9, fun h1 h2 => (b2 (r6.trans h1) h2).1⟩
  · exact congrArg DispSt.cmds (b7.trans r7)
  · exact congrArg DispSt.ctxs (b7.trans r7)

/-! ### Power loss (R721) -/

/-- What the safety block may touch when power fails: registers from page SAFE on, memory, the output, and block state but boot's. -/
def Scope.powerFail : Scope :=
  { reg := fun r => Blk.SAFE.slot ≤ r.blk.slot, mem := True, out := True, hw := fun f => ∀ h : Hw, (f h).boot = h.boot }

@[simp] theorem powerFail_reg (r : RegRef) : Scope.powerFail.reg r ↔ 0x1A ≤ r.blk.slot := .rfl
@[simp] theorem powerFail_hw (f : Hw → Hw) : Scope.powerFail.hw f ↔ ∀ h : Hw, (f h).boot = h.boot := .rfl
@[simp] theorem powerFail_mem : Scope.powerFail.mem := trivial
@[simp] theorem powerFail_out : Scope.powerFail.out := trivial

theorem powerFail_publish (n : Nat) (u : DUnit) : (Act.publish n u).Only .powerFail := by
  simp [Act.publish, Act.guarded, Act.c2Refuse, ringMove, Act.stream, Blk.slot, Hw.setEdge]

theorem powerFail_ceuSend (i kind mflags : Nat) (u : DUnit) (pcp : Option Nat) (ports : List Nat) :
    (ceuSend i kind mflags u pcp ports).Only .powerFail := by
  simp [ceuSend, portSend, frameLeaves, Blk.slot]

theorem powerFail_statusUnit (stamp : Nat) (item : BitVec 48) (flags : BitVec 16) : (statusUnit stamp item flags).Only .powerFail := by
  simp [statusUnit, emitSafe, powerFail_publish, Act.stream, handOver, powerFail_ceuSend, routeMark, safeRaise, Blk.slot, Hw.setEdge]

theorem powerFail_enterSafe : enterSafe.Only .powerFail := by
  simp [enterSafe, setSafeState, safeRaise, invalidateCmds, invalidateStream, Act.stream, Blk.slot, Hw.setEdge]

theorem powerFail_recalc : recalc.Only .powerFail := by
  simp [recalc, drivePin, only_maxReg, Blk.slot]

theorem powerFail_notify (old : Word) : (notify old).Only .powerFail := by
  simp [notify, powerFail_statusUnit, safeRaise, Blk.slot, Hw.setEdge]

theorem powerFail_safely {a : Act} (ha : a.Only .powerFail) : (safely a).Only .powerFail := by
  simp [safely, ha, powerFail_recalc, powerFail_notify]

theorem powerFail_commonFault (code : Nat) : (commonFault code).Only .powerFail := by
  simp [commonFault, commonFaultAt, recordFault, powerFail_enterSafe, safeRaise, Blk.slot, Hw.setEdge]

theorem mask_safeState : RegRef.mask Reg.SAFE.SAFE_STATE = 0x00FF07F7 := by decide +kernel

/-- Headers, and the registers of the pages behind SAFE; all else. -/
def Scope.pastSafe : Scope :=
  { reg := fun r => 0x1A < r.blk.slot ∨ r.off < 0x40, mem := True, poison := True, es := True, tsc := True, out := True }

@[simp] theorem pastSafe_reg (r : RegRef) : Scope.pastSafe.reg r ↔ 0x1A < r.blk.slot ∨ r.off < 0x40 := .rfl
@[simp] theorem pastSafe_hw (f : Hw → Hw) : Scope.pastSafe.hw f := trivial
@[simp] theorem pastSafe_mem : Scope.pastSafe.mem := trivial
@[simp] theorem pastSafe_out : Scope.pastSafe.out := trivial

/-- Such a program leaves SAFE's own registers. -/
theorem Act.Only.keeps_safe {a : Act} (ha : a.Only .pastSafe) {off : Nat} (h : 0x40 ≤ off ∧ off < 4096) :
    a.Keeps fun s => s.rd ⟨.SAFE, 0, off⟩ := fun s _ => ha.rd id (fun r hr hk => by
  have hr' := (pastSafe_reg r).1 hr
  simp only [RegRef.key, show Blk.SAFE.slot = 0x1A from rfl] at hk
  omega) s

theorem Act.Only.keeps_safeState {a : Act} (ha : a.Only .pastSafe) : a.Keeps State.safeState :=
  (ha.keeps_safe (off := 0x044) (by decide)).fld 2 0

theorem pastSafe_raise (k : Nat) : (safeRaise k).Only .pastSafe := by simp [safeRaise]
theorem pastSafe_publish (n : Nat) (u : DUnit) : (Act.publish n u).Only .pastSafe := by
  simp [Act.publish, Act.guarded, Act.c2Refuse, ringMove, Act.stream, Blk.slot]
theorem pastSafe_ceuSend (i kind mflags : Nat) (u : DUnit) (pcp : Option Nat) (ports : List Nat) :
    (ceuSend i kind mflags u pcp ports).Only .pastSafe := by
  simp [ceuSend, portSend, frameLeaves, Blk.slot]
theorem pastSafe_stream (n : Nat) (f : StreamSt → StreamSt) : (Act.stream n f).Only .pastSafe := trivial

/-- A field of SAFE_STATE but the state itself. -/
theorem keeps_safeState_setFld {hi lo v : Nat} (h : 2 < lo) : (Act.setFld Reg.SAFE.SAFE_STATE hi lo v).Keeps State.safeState :=
  keeps_fld_setFld (.inl h) (by rw [mask_safeState]; decide)

theorem keeps_routeMark : routeMark.Keeps State.safeState :=
  .get fun _ => .when fun _ => (keeps_safeState_setFld (by decide)).cons
    ((pastSafe_raise 7).keeps_safeState.cons (Act.Keeps.cons (fun _ _ => rfl) keeps_all_nil))

theorem keeps_handOver (u : DUnit) : (handOver u).Keeps State.safeState := by
  refine .get fun s => .when fun _ => ?_
  split
  · exact .seq (.when fun _ => (pastSafe_ceuSend _ _ _ _ _ _).keeps_safeState) keeps_routeMark
  · exact (pastSafe_ceuSend _ _ _ _ _ _).keeps_safeState

theorem keeps_statusUnit (stamp : Nat) (item : BitVec 48) (flags : BitVec 16) : (statusUnit stamp item flags).Keeps State.safeState := by
  refine .get fun s => .seq (fun _ _ => rfl) (.get fun s => .seq ?_ (keeps_handOver _))
  split
  · exact (pastSafe_publish _ _).keeps_safeState
  · exact (pastSafe_stream _ _).keeps_safeState

/-- A notice of a change keeps SAFE's state. -/
theorem keeps_notify (old : Word) : (notify old).Keeps State.safeState :=
  .get fun _ => .seq (.when fun _ => (pastSafe_raise 0).keeps_safeState) (.when fun _ => keeps_statusUnit _ _ _)

/-- Outside RUN, DEGRADED and REACT the outputs are off (R507), and SAFE's state stays. -/
theorem recalc_off {s : State} (hs : keysRise s.regs) (hoff : s.safeState < 4 ∨ 6 < s.safeState) :
    let t := recalc.run s
    t.bit Reg.SAFE.SAFE_STATE 6 = false ∧ t.bit Reg.SAFE.SAFE_STATE 7 = false ∧ t.safeState = s.safeState := by
  intro t
  have hon (v : Bool) (l : Option Nat) : s.mayEnergise v l = false := by
    have hno : decide (4 ≤ s.safeState ∧ s.safeState ≤ 6) = false := by simp; omega
    unfold State.mayEnergise
    rw [hno, Bool.false_and, Bool.false_and]
  let w := s.rd Reg.SAFE.SAFE_STATE
  have hsplit (a1 a2 d1 d2 : Act) (v : Word) : (Act.all [a1, a2, .wr Reg.SAFE.SAFE_STATE v, d1, d2]).run s =
    (Act.seq d1 d2).run ((a2.run (a1.run s)).setReg Reg.SAFE.SAFE_STATE v) := rfl
  obtain ⟨a1, a2, c1, c2, hrun⟩ : ∃ a1 a2 : Act, ∃ c1 c2 : Nat, t =
      (Act.seq (drivePin "SAFE_OUT_A" (w.getLsbD 6) false) (drivePin "SAFE_OUT_B" (w.getLsbD 7) false)).run
        ((a2.run (a1.run s)).setReg Reg.SAFE.SAFE_STATE (setBits (setBits (setBits (setBits w 4 4 c1) 5 5 c2) 6 6 0) 7 7 0)) := by
    simp only [t, recalc, run_get, hon, hsplit]
    exact ⟨_, _, _, _, rfl⟩
  have hn : keysRise (a2.run (a1.run s)).regs := rise_run _ (rise_run _ hs)
  have ha : (Act.seq (drivePin "SAFE_OUT_A" (w.getLsbD 6) false) (drivePin "SAFE_OUT_B" (w.getLsbD 7) false)).Only
    { reg := fun _ => False, out := True } := by simp [drivePin]
  have hrd : t.rd Reg.SAFE.SAFE_STATE = setBits (setBits (setBits (setBits w 4 4 c1) 5 5 c2) 6 6 0) 7 7 0 &&& 0x00FF07F7 := by
    rw [hrun, ha.rd id (fun _ h => h.elim), rd_setReg_same hn, mask_safeState]
  refine ⟨?_, ?_, ?_⟩
  · rw [State.bit, hrd, BitVec.getLsbD_and, getLsbD_setBits, if_neg (by omega), getLsbD_setBits, if_pos (by omega)]
    rfl
  · rw [State.bit, hrd, BitVec.getLsbD_and, getLsbD_setBits, if_pos (by omega)]
    rfl
  · rw [State.safeState, State.fld, hrd, bits_and_mask _ _ (by decide), bits_setBits_other _ _ (by decide),
      bits_setBits_other _ _ (by decide), bits_setBits_other _ _ (by decide), bits_setBits_other _ _ (by decide)]
    rfl

theorem setSafeState_effect {s : State} (hs : keysRise s.regs) {v : Nat} (hv : v < 8) : ((setSafeState v).run s).safeState = v := by
  have h := fld_setFld_same hs Reg.SAFE.SAFE_STATE (hi := 2) (lo := 0) v (by decide) (by rw [mask_safeState]; decide)
  exact h.trans (Nat.mod_eq_of_lt hv)

/-- SAFE is entered (R503). -/
theorem enterSafe_effect {s : State} (hs : keysRise s.regs) : (enterSafe.run s).safeState = sSAFE := by
  rw [enterSafe, run_get, run_when]
  split
  · rw [run_all_cons]
    refine Eq.trans (Act.Only.keeps_safeState ?_ _ (rise_run _ hs)) (setSafeState_effect hs (by decide))
    simp [safeRaise, invalidateCmds, invalidateStream, Act.stream]
  next h => simpa using h

/-- A fault of both channels, not in OFF, leaves SAFE in SAFE (R503). -/
theorem commonFault_safe {s : State} (hs : keysRise s.regs) (code : Nat) (h : s.safeState ≠ sOFF) :
    ((commonFault code).run s).safeState = sSAFE := by
  have hc : (s.safeState != sOFF || code == 14) = true := by simp [h]
  have hrun : (commonFault code).run s = enterSafe.run ((safeRaise 3).run ((recordFault code 23 16 s.now).run s)) := by
    simp only [commonFault, commonFaultAt, run_get, run_when, hc, if_true, run_all_cons, run_all_nil]
  rw [hrun]
  exact enterSafe_effect (rise_run _ (rise_run _ hs))

/-- A power-fail warning, SAFE not in OFF: both outputs drop (R721 step 2). -/
theorem safely_fault_off {s : State} (hs : keysRise s.regs) (code : Nat) (h : s.safeState ≠ sOFF) :
    let t := (safely (commonFault code)).run s
    t.bit Reg.SAFE.SAFE_STATE 6 = false ∧ t.bit Reg.SAFE.SAFE_STATE 7 = false := by
  intro t
  let s1 := (commonFault code).run s
  let s2 := recalc.run s1
  let s3 := (notify (s.rd Reg.SAFE.SAFE_STATE)).run s2
  have h1 : keysRise s1.regs := rise_run _ hs
  have h2 : keysRise s2.regs := rise_run _ h1
  have hrun : t = recalc.run s3 := by simp only [t, safely, run_get, run_all_cons, run_all_nil, s3, s2, s1]
  have hst1 : s1.safeState = sSAFE := commonFault_safe hs code h
  have hst2 : s2.safeState = sSAFE := (recalc_off h1 (by rw [hst1]; decide)).2.2.trans hst1
  have hst3 : s3.safeState = sSAFE := (keeps_notify _ s2 h2).trans hst2
  obtain ⟨r1, r2, -⟩ := recalc_off (rise_run _ h2 : keysRise s3.regs) (by rw [hst3]; decide)
  rw [hrun]
  exact ⟨r1, r2⟩

/-- A 64-bit value in a pair of registers reads back. -/
theorem rd64_wr64 {s : State} (hs : keysRise s.regs) {lo hi : RegRef} (hlo : lo.mask = 0xFFFFFFFF) (hhi : hi.mask = 0xFFFFFFFF)
    (hne : hi.key ≠ lo.key) {n : Nat} (hn : n < 18446744073709551616) : ((Act.wr64 lo hi n).run s).rd64 lo hi = n := by
  have h1 : ((Act.wr64 lo hi n).run s).rd lo = BitVec.ofNat 32 (n % 4294967296) &&& 0xFFFFFFFF :=
    (rd_setReg_ne _ hne).trans ((rd_setReg_same hs _ _).trans (by rw [hlo]))
  have h2 : ((Act.wr64 lo hi n).run s).rd hi = BitVec.ofNat 32 (n / 4294967296 % 4294967296) &&& 0xFFFFFFFF :=
    (rd_setReg_same (keysRise_setReg hs _ _) _ _).trans (by rw [hhi])
  rw [State.rd64, h1, h2, toNat_and_ones, toNat_and_ones, BitVec.toNat_ofNat, BitVec.toNat_ofNat]
  omega

/-- The power-fail record (R721 step 5). -/
theorem pfRecord_effect {s : State} (hs : keysRise s.regs) :
    let t := (pfRecord false).run s
    t.rd64 Reg.AON.PF_TSC_LO Reg.AON.PF_TSC_HI = s.now ∧ t.bit Reg.AON.PF_INFO 31 = false ∧ t.bit Reg.AON.RST_FLAGS 1 = true := by
  intro t
  let s1 := (Act.wr64 Reg.AON.PF_TSC_LO Reg.AON.PF_TSC_HI s.now).run s
  let info : Nat := min s.hw.disp.items.length 8191 + 65536 * min s.hw.disp.cmds.length 4095 + 2147483648 * b2n false
  let s2 := s1.setReg Reg.AON.PF_INFO (BitVec.ofNat 32 info)
  let s3 := s2.setReg Reg.AON.PF_JRNL (BitVec.ofNat 32 (min s.jrnlFill 131071))
  have h1 : keysRise s1.regs := rise_run _ hs
  have h2 : keysRise s2.regs := keysRise_setReg h1 _ _
  have h3 : keysRise s3.regs := keysRise_setReg h2 _ _
  have hrun : t = (Act.orReg Reg.AON.RST_FLAGS 2).run s3 := rfl
  have htsc {r : RegRef} (hr : r.off % 4096 ∈ [0x06C, 0x070]) : t.rd r = s1.rd r := by
    have hr' : r.off % 4096 = 0x06C ∨ r.off % 4096 = 0x070 := by simpa using hr
    rw [hrun]
    exact (rd_setReg_off (r := Reg.AON.RST_FLAGS) (by simp only; omega)).trans ((rd_setReg_off (r := Reg.AON.PF_JRNL) (by simp only; omega)).trans
      (rd_setReg_off (r := Reg.AON.PF_INFO) (by simp only; omega)))
  refine ⟨?_, ?_, ?_⟩
  · rw [State.rd64, htsc (by simp), htsc (by simp)]
    exact rd64_wr64 hs (by decide +kernel) (by decide +kernel) (by decide) s.tsc.isLt
  · have hinfo : t.rd Reg.AON.PF_INFO = BitVec.ofNat 32 info &&& 0x8FFF1FFF := by
      rw [hrun]
      refine (rd_setReg_off (r := Reg.AON.RST_FLAGS) (by simp)).trans ((rd_setReg_off (r := Reg.AON.PF_JRNL) (by simp)).trans ?_)
      rw [rd_setReg_same h1, show RegRef.mask Reg.AON.PF_INFO = 0x8FFF1FFF from by decide +kernel]
    have hlt : info < 2147483648 := by
      have hb : b2n false = 0 := rfl
      simp only [info, hb]
      omega
    rw [State.bit, hinfo, BitVec.getLsbD_and, BitVec.getLsbD_ofNat, Nat.testBit_lt_two_pow hlt]
    rfl
  · rw [hrun, bit_orReg h3 _ (by decide +kernel)]
    exact Bool.or_true _

/-- PWR_FAIL_N falls (R721). -/
theorem pwrFail_effect {s : State} (hs : keysRise s.regs) (hpf : s.hw.boot.pfLow = false) :
    let t := pwrFailAct.run s
    t.hw.boot.pfLow = true ∧ t.hw.boot.frozen = true ∧ t.hw.boot.outInvalid = true ∧ t.bit Reg.AON.RST_FLAGS 1 = true ∧
      t.rd64 Reg.AON.PF_TSC_LO Reg.AON.PF_TSC_HI = s.now ∧ t.bit Reg.AON.PF_INFO 31 = false ∧
      (s.safeState ≠ sOFF → t.bit Reg.SAFE.SAFE_STATE 6 = false ∧ t.bit Reg.SAFE.SAFE_STATE 7 = false) ∧
      t.hw.darn.run = none ∧ t.es = s.es ∧ t.tsc = s.tsc := by
  intro t
  let head : Act := .all [.boot fun b => { b with pfLow := true }, .latch [0],
    .pwr fun x => { x with want := x.want.zipIdx.map fun (c, t) => if c = s.stripeCode t then c else 0 },
    .boot fun b => { b with frozen := true, outInvalid := true, warned := true, returned := none }]
  let s1 := head.run s
  let s2 := safePowerFail.run s1
  let s3 := (pfRecord false).run s2
  have hrun : t = darnInterrupt.run s3 := by
    simp only [t, pwrFailAct, run_get, run_when, hpf, Bool.not_false, if_true, run_all_cons, run_all_nil, powerFreeze, s3, s2, s1, head]
  have h1 : keysRise s1.regs := rise_run _ hs
  have h2 : keysRise s2.regs := rise_run _ h1
  have h3 : keysRise s3.regs := rise_run _ h2
  have honly : safePowerFail.Only .powerFail := powerFail_safely (powerFail_commonFault 13)
  have hrec : (pfRecord false).Only { reg := fun r => r.blk = .AON ∧ r.inst = 0 ∧ 0x40 ≤ r.off ∧ r.off < 4096, hw := fun _ => False } := by
    simp [pfRecord]
  have hlast : darnInterrupt.Only { reg := fun _ => False, hw := fun f => ∀ h : Hw, (f h).boot = h.boot } := by
    simp only [darnInterrupt, darnLog, only_get, only_seq, only_darn]
    refine fun s => ⟨?_, fun _ => trivial⟩
    split <;> simp
  have hheadonly : head.Only { reg := fun _ => False } := by simp [head]
  have hrd (r : RegRef) : t.rd r = s3.rd r := by rw [hrun]; exact hlast.rd id (fun _ h => h.elim) s3
  have hboot : t.hw.boot = s1.hw.boot := by
    rw [hrun, hlast.hw (fun h => h.boot) (fun _ h => h) s3, hrec.hw (fun h => h.boot) (fun _ h => h.elim) s2,
      honly.hw (fun h => h.boot) (fun _ h => h) s1]
  have htsc2 : s2.tsc = s.tsc := (honly.tsc id s1).trans (hheadonly.tsc id s)
  have hsafe1 : s1.safeState = s.safeState := congrArg (bits · 2 0) (hheadonly.rd id (fun _ h => h.elim) s)
  obtain ⟨p1, p2, p3⟩ := pfRecord_effect h2
  refine ⟨by rw [hboot]; rfl, by rw [hboot]; rfl, by rw [hboot]; rfl, ?_, ?_, ?_, fun hst => ?_, ?_, ?_, ?_⟩
  · rw [State.bit, hrd]; exact p3
  · rw [State.rd64, hrd, hrd]; exact p1.trans (congrArg BitVec.toNat htsc2)
  · rw [State.bit, hrd]; exact p2
  · have hk : s3.rd Reg.SAFE.SAFE_STATE = s2.rd Reg.SAFE.SAFE_STATE :=
      hrec.rd id (fun r ⟨hb, hi, _, ho⟩ => key_ne_of_page (by rw [hb, hi]; decide) ho (by decide)) s2
    obtain ⟨o1, o2⟩ := safely_fault_off h1 13 (by rw [hsafe1]; exact hst)
    rw [State.bit, State.bit, hrd, hk]
    exact ⟨o1, o2⟩
  · rw [hrun]
    rfl
  · rw [hrun]
    exact (hlast.es id s3).trans ((hrec.es id s2).trans ((honly.es id s1).trans (hheadonly.es id s)))
  · rw [hrun]
    exact (hlast.tsc id s3).trans ((hrec.tsc id s2).trans htsc2)

theorem rstCmd_row : RegRef.row Reg.AON.RST_CMD = some ⟨0x054, 1, 0x04, .WO, 0x00000000, 0x00000000, 0x0, 0x00000000, false⟩ := by
  decide +kernel

/-- A RST_CMD write that is taken has the key (R710). -/
theorem rstCmd_key {s : State} {v : Word} (h : s.accepts 0 Reg.AON.RST_CMD v = true) : bits v 31 16 = 0x5A3C := by
  by_contra hk
  simp only [State.accepts, writeKind, show rowAt Reg.AON.RST_CMD.blk Reg.AON.RST_CMD.inst Reg.AON.RST_CMD.off = _ from rstCmd_row] at h
  simp [blockDrops, aonDrops, hk, pfOnly] at h

/-- RST_CMD (R710). -/
theorem systemReset_effect {s : State} (hl : s.live) (v : Word) (hacc : s.accepts 0 Reg.AON.RST_CMD (setBits v 3 0 1) = true)
    (hpin : s.hw.boot.pinLow = false) (hret : s.hw.boot.returned = none) (hcore : s.hw.pwr.coreOn = true) :
    let t := (hostReg 0 Reg.AON.RST_CMD (setBits v 3 0 1)).run s
    t.rd Reg.AON.RST_CAUSE = BitVec.ofNat 32 (2 ^ s.resetCause cSOFT) ∧ t.hw.boot.inReset = false ∧
      t.hw.disp.cmds = [] ∧ t.hw.disp.ctxs = [] ∧ t.es = [] ∧ t.tsc = s.tsc ∧
      (s.hw.boot.pfLow = false → t.stage = (if s.hw.boot.straps % 4 = 0 then bAUTH else bRECOVERY)) := by
  intro t
  obtain ⟨q, hq, hj⟩ : ∃ q, Written s _ _ _ q ∧ Journaled ((systemResetAct (setBits v 3 0 1)).run q) t :=
    hostReg_run hl.1 rstCmd_row hacc rfl
  have hcause : q.resetCause cSOFT = s.resetCause cSOFT := by rw [State.resetCause, hq.hw]; rfl
  have hrun : (systemResetAct (setBits v 3 0 1)).run q = bootIfReady.run ((mainReset (s.resetCause cSOFT)).run q) := by
    have hcond : (bits (setBits v 3 0 1) 3 0 == 1 && bits (setBits v 3 0 1) 31 16 == 0x5A3C && !q.hw.boot.pinLow &&
        !q.hw.boot.inReset) = true := by
      rw [rstCmd_key hacc, bits_setBits_same _ _ (by decide), hq.hw, hpin, hl.2]
      rfl
    have hwhy : (if q.hw.boot.returned.isSome then cBROWNOUT else q.resetCause cSOFT) = s.resetCause cSOFT := by
      rw [hcause, hq.hw, hret]
      exact if_neg (by simp)
    rw [systemResetAct, run_get, run_when, if_pos hcond, run_seq, hwhy]
  obtain ⟨r1, r2, -, r4, r5, r6, r7, r8⟩ := resetAndBoot_effect hq.rise (resetCause_lt s (c := cSOFT) (by decide))
    (by rw [hq.hw]; exact hl.2)
  rw [hrun] at hj
  have hboot := hj.part (·.boot)
  have hdisp := hj.part (·.disp)
  have hrd {off : Nat} (h : off < 4096) := hj.rd (r := ⟨.AON, 0, off⟩) (by simp [Blk.count]) h (by simp) (by simp)
  rw [hq.hw] at r8
  refine ⟨(hrd (by decide)).trans r1, (congrArg BootSt.inReset hboot).trans r2, (congrArg DispSt.cmds hdisp).trans r4,
    (congrArg DispSt.ctxs hdisp).trans r5, hj.es.trans r6, hj.tsc.trans (r7.trans hq.rest.tsc), fun h => ?_⟩
  exact (congrArg (bits · 3 0) (hrd (off := 0x058) (by decide))).trans (r8 hcore h)

theorem boot_run_frame (f : BootSt → BootSt) (u : State) :
    let t := (Act.boot f).run u
    t.hw.boot = f u.hw.boot ∧ (∀ r, t.rd r = u.rd r) ∧ t.stage = u.stage ∧ t.hw.disp = u.hw.disp ∧ t.es = u.es ∧ t.tsc = u.tsc :=
  ⟨rfl, fun _ => rfl, rfl, rfl, rfl, rfl⟩

/-- SYS_RST_N is taken (R707, R708). -/
theorem sysRstTaken_effect {s : State} (hs : keysRise s.regs) (hpin : s.hw.boot.pinLow = false) (hin : s.hw.boot.inReset = false) :
    let t := sysRstTakenAct.run s
    t.hw.boot.inReset = true ∧ t.hw.boot.pinLow = true ∧ t.hw.boot.lowAt = s.now ∧
      t.rd Reg.AON.RST_CAUSE = BitVec.ofNat 32 (2 ^ s.resetCause cPIN) ∧
      (t.rd Reg.AON.RST_COUNT).toNat = min ((s.rd Reg.AON.RST_COUNT).toNat + 1) 4294967295 ∧ t.stage = bRESET ∧
      (∀ r : RegRef, lostReg resetKeeps r.key = true → r.key ∉ keptRegs.map (fun x => x.1.key) → t.rd r = r.resetVal) ∧
      t.hw.disp.cmds = [] ∧ t.hw.disp.ctxs = [] ∧ t.es = [] ∧ t.tsc = s.tsc := by
  have hrun : sysRstTakenAct.run s = (Act.boot fun b => { b with inReset := true, pinLow := true, lowAt := s.now }).run
      ((mainReset (s.resetCause cPIN)).run s) := by
    rw [sysRstTakenAct, run_get, run_when, if_pos (by rw [hpin]; rfl), run_seq, run_when, if_pos (by rw [hin]; rfl)]
  obtain ⟨r1, r2, r3, r4, -, -, r7, r8, r9⟩ := mainReset_effect hs (resetCause_lt s (c := cPIN) (by decide))
  rw [hrun]
  obtain ⟨f1, f2, f3, f4, f5, f6⟩ := boot_run_frame (fun b => { b with inReset := true, pinLow := true, lowAt := s.now })
    ((mainReset (s.resetCause cPIN)).run s)
  simp only [f1, f2, f3, f4, f5, f6]
  exact ⟨trivial, trivial, trivial, r1, r2, r3, r4, congrArg DispSt.cmds r7, congrArg DispSt.ctxs r7, r8, r9⟩

/-- What SYS_RST_N's release does before boot, with the hold `ms` and whether it was a long one (R708, R709). -/
def releaseHead (ms : Nat) (long : Bool) (straps : Nat) : Act := .all
  [.wrN Reg.AON.HOLD_MS ms, .when long (.orReg Reg.AON.RST_FLAGS 1),
   .boot fun b => { b with pinLow := false, straps := straps }, .boot fun b => { b with inReset := false }]

theorem sysRstReleaseAct_run {s : State} (hpin : s.hw.boot.pinLow = true) (hth : s.hw.boot.thermal = false) (straps : Nat) :
    (sysRstReleaseAct straps).run s = bootIfReady.run ((releaseHead (min ((s.now - s.hw.boot.lowAt) / 1000000) 4294967295)
      (decide (s.hw.boot.lowAt + 1000000000 < s.now)) straps).run s) := by
  have htail (a b c d e : Act) : (Act.all [a, b, c, .seq d e]).run s = e.run ((Act.all [a, b, c, d]).run s) := rfl
  rw [sysRstReleaseAct, run_get, run_when, if_pos hpin, hth, if_neg Bool.false_ne_true, htail, releaseHead]

theorem releaseHead_effect {s : State} (hs : keysRise s.regs) {ms : Nat} (hms : ms < 4294967296) (long : Bool) (straps : Nat) :
    let t := (releaseHead ms long straps).run s
    t.hw.boot = { s.hw.boot with inReset := false, pinLow := false, straps := straps } ∧ t.hw.pwr = s.hw.pwr ∧
      (t.rd Reg.AON.HOLD_MS).toNat = ms ∧ t.tsc = s.tsc := by
  let s1 := s.setReg Reg.AON.HOLD_MS (BitVec.ofNat 32 ms)
  have hflags : (Act.when long (.orReg Reg.AON.RST_FLAGS 1)).Only (.quiet [Reg.AON.RST_FLAGS]) := by simp
  have hq := hflags.quiet s1
  obtain ⟨e, he⟩ := hq.hw
  have hsplit (a b : Act) (f g : BootSt → BootSt) :
      ((Act.all [a, b, .boot f, .boot g]).run s).hw = { (b.run (a.run s)).hw with boot := g (f (b.run (a.run s)).hw.boot) } := rfl
  have hrd : (s1.rd Reg.AON.HOLD_MS).toNat = ms := by
    rw [rd_setReg_same hs, show RegRef.mask Reg.AON.HOLD_MS = 0xFFFFFFFF from by decide +kernel, toNat_and_ones, BitVec.toNat_ofNat]
    exact Nat.mod_eq_of_lt hms
  refine ⟨?_, ?_, ?_, hq.tsc⟩
  · rw [releaseHead, hsplit, run_wrN, he]
    rfl
  · rw [releaseHead, hsplit, run_wrN, he]
    rfl
  · exact (congrArg BitVec.toNat (hq.regs.rd_off (r := Reg.AON.HOLD_MS) (by simp))).trans hrd

/-- SYS_RST_N is released (R708, R709). -/
theorem sysRstRelease_effect {s : State} (hs : keysRise s.regs) (hpin : s.hw.boot.pinLow = true) (hth : s.hw.boot.thermal = false)
    (straps : BitVec 2) :
    let t := (sysRstReleaseAct straps.toNat).run s
    t.hw.boot.inReset = false ∧ t.hw.boot.pinLow = false ∧ t.hw.boot.straps = straps.toNat ∧
      (t.rd Reg.AON.HOLD_MS).toNat = min ((s.now - s.hw.boot.lowAt) / 1000000) 4294967295 ∧
      (s.hw.pwr.coreOn = true → s.hw.boot.pfLow = false → t.stage = (if straps = 0 then bAUTH else bRECOVERY) ∧
        t.fld Reg.PIN.PIN_STATUS 1 0 = straps.toNat ∧ (straps ≠ 0 → t.pend .AON 0 3 = true)) ∧ t.tsc = s.tsc := by
  have hlt : min ((s.now - s.hw.boot.lowAt) / 1000000) 4294967295 < 4294967296 := by omega
  rw [sysRstReleaseAct_run hpin hth]
  generalize min ((s.now - s.hw.boot.lowAt) / 1000000) 4294967295 = ms at hlt ⊢
  generalize decide (s.hw.boot.lowAt + 1000000000 < s.now) = long
  obtain ⟨hboot, hpwr, hms, htsc⟩ := releaseHead_effect hs hlt long straps.toNat
  have h4 : keysRise ((releaseHead ms long straps.toNat).run s).regs := rise_run _ hs
  generalize (releaseHead ms long straps.toNat).run s = u at hboot hpwr hms htsc h4 ⊢
  obtain ⟨b1, b2, b3, b4, b5, -, -, -, b9⟩ := bootIfReady_effect h4 (by rw [hboot])
  rw [hboot, hpwr] at b2
  rw [hboot] at b4 b5
  have h0 : (straps.toNat % 4 = 0) = (straps = 0) := by
    rw [Nat.mod_eq_of_lt straps.isLt]
    exact propext ⟨fun h => BitVec.eq_of_toNat_eq h, fun h => by rw [h]; rfl⟩
  refine ⟨b3, b4, b5, ?_, fun h h' => ?_, b9.trans htsc⟩
  · rw [b1 0x048 (by simp)]; exact hms
  · obtain ⟨c1, c2, c3⟩ := b2 h h'
    simp only [h0] at c1
    exact ⟨c1, c2.trans (Nat.mod_eq_of_lt straps.isLt), fun hne => c3 (by rw [ne_eq, h0]; exact hne)⟩

/-- A reset held for more than a second (R709). -/
theorem heldLong_run {s : State} (h : s.hw.boot.pinLow = true) (h' : s.hw.boot.lowAt + 1000000000 < s.now) :
    heldLongAct.run s = s.setReg Reg.AON.RST_FLAGS (s.rd Reg.AON.RST_FLAGS ||| 1) := by
  rw [heldLongAct, run_get, run_when, h, decide_eq_true h']
  rfl

/-- VDD_AON's return (R725). -/
theorem aonPowerOn_effect {s : State} (hs : s.sound) :
    let t := aonPowerOnAct.run s
    t.tsc = 0 ∧ (∀ r : RegRef, r.key ≠ Reg.AON.FUSE_ROLLBACK.key → t.rd r = r.resetVal) ∧
      t.rd Reg.AON.FUSE_ROLLBACK = s.rd Reg.AON.FUSE_ROLLBACK ∧ t.hw.disp.cmds = [] ∧ t.es = [] ∧
      t.hw.hal.audit = s.hw.hal.audit ∧ t.hw.hal.params = s.hw.hal.params ∧ t.hw.hal.state = s.hw.hal.state := by
  have hpins : (Act.all [outputsLow, pinsHiz 0]).Only { reg := fun _ => False, hw := fun f => ∀ h : Hw, (f h).hal = h.hal, out := True } := by
    simp [outputsLow, drivePin, pinsHiz, letGo]
  have hlose : (loseMem false).Only { reg := fun _ => False, hw := fun _ => False, mem := True, poison := True, es := True } := by
    simp [loseMem]
  have hhal := hpins.hw (fun h => h.hal) (fun _ h => h) s
  have hsplit (a b c d : Act) (f : Hw → Hw) (w : Word) (r : RegRef) : (Act.all [a, b, .upd (.resetRegs fun _ => true), .hw f, c, d,
      .upd (.tsc 0), .wr r w]).run s = (Upd.apply (.tsc 0) (d.run (c.run ((Upd.apply (.resetRegs fun _ => true)
        ((Act.all [a, b]).run s)).mapHw f)))).setReg r w := rfl
  rw [aonPowerOnAct, run_get, hsplit]
  have hp : keysRise ((Act.all [outputsLow, pinsHiz 0]).run s).regs := rise_run _ hs.1.1
  generalize (Act.all [outputsLow, pinsHiz 0]).run s = p at hhal hp ⊢
  let q : State := halPageReset.run ((Upd.apply (.resetRegs fun _ => true) p).mapHw
    fun h => { hal := h.hal, pwr := { vFuse := h.pwr.vFuse, temps := h.pwr.temps }, pin := { level := h.pin.level } })
  have hq (r : RegRef) : ((loseMem false).run q).rd r = r.resetVal :=
    (hlose.rd id (fun _ h => h.elim) q).trans (by rw [show q.rd r = (Upd.apply (.resetRegs fun _ => true) p).rd r from rfl, rd_resetRegs]; rfl)
  have hhw := hlose.hw (fun h => h) (fun _ h => h.elim) q
  have hes : ((loseMem false).run q).es = [] := List.filter_eq_nil_iff.2 fun _ _ => by simp
  have hrise : keysRise ((loseMem false).run q).regs := rise_run _ (keysRise_filter _ hp)
  generalize (loseMem false).run q = u at hq hhw hes hrise ⊢
  have hhalq : q.hw.hal = { p.hw.hal with shown := false, spans := [] } := rfl
  refine ⟨rfl, fun r hr => (rd_setReg_ne _ hr.symm).trans (hq r), ?_, ?_, hes, ?_, ?_, ?_⟩
  · exact (rd_setReg_same hrise _ _).trans (and_mask_of_reserved (rd_reserved hs.1 Reg.AON.FUSE_ROLLBACK (by decide +kernel)))
  · exact congrArg (fun h : Hw => h.disp.cmds) hhw
  · exact (congrArg (fun h : Hw => h.hal.audit) hhw).trans (by rw [hhalq, hhal])
  · exact (congrArg (fun h : Hw => h.hal.params) hhw).trans (by rw [hhalq, hhal])
  · exact (congrArg (fun h : Hw => h.hal.state) hhw).trans (by rw [hhalq, hhal])

/-- PWR_FAIL_N rises (R724). -/
theorem pwrRise_effect {s : State} (hs : keysRise s.regs) (hpf : s.hw.boot.pfLow = true) (railsOk : Bool) :
    let t := (pwrRiseAct railsOk).run s
    t.hw.boot.pfLow = false ∧ (railsOk = true → s.hw.pwr.coreOn = true → s.hw.boot.railLost = false →
        t.pend .AON 0 5 = true ∧ t.hw.boot.returned = some s.now) ∧
      t.hw.boot.frozen = s.hw.boot.frozen ∧ SameRegs (irqOf .AON 0) s t ∧ SameRest s t := by
  let u := (Act.boot fun b => { b with pfLow := false }).run s
  have hrun : (pwrRiseAct railsOk).run s = (Act.when (railsOk && s.hw.pwr.coreOn && !s.hw.boot.railLost)
      (.seq (aonRaise 5) (.boot fun b => { b with returned := some s.now }))).run u := by
    rw [pwrRiseAct, run_get, run_when, if_pos hpf, run_seq]
  obtain ⟨hregs, hrest⟩ := Act.Only.frame (l := irqOf .AON 0) (a := pwrRiseAct railsOk) (by simp [pwrRiseAct, aonRaise, irqOf]) s
  have hfield : ((pwrRiseAct railsOk).run s).hw.boot.pfLow = false ∧
      ((pwrRiseAct railsOk).run s).hw.boot.frozen = s.hw.boot.frozen := by
    rw [hrun]
    cases railsOk && s.hw.pwr.coreOn && !s.hw.boot.railLost <;> exact ⟨rfl, rfl⟩
  refine ⟨hfield.1, fun h1 h2 h3 => ?_, hfield.2, hregs, hrest⟩
  rw [hrun, h1, h2, h3]
  exact ⟨bit_raise (s := u) hs (by decide) (by decide), rfl⟩

/-- The reset that follows a returned supply (R724). -/
theorem brownout_run {s : State} {t0 : Nat} (h : s.hw.boot.returned = some t0) :
    brownoutAct.run s = if t0 + 10000000 ≤ s.now ∧ s.hw.boot.inReset = false then bootIfReady.run ((mainReset cBROWNOUT).run s) else s := by
  rw [brownoutAct, run_get, h]
  refine (run_when _ _ s).trans ?_
  simp only [Bool.and_eq_true, decide_eq_true_eq, Bool.not_eq_true', run_seq]

/-- Settles O56. -/
theorem resetsAndPowerLoss : Obligations.ResetsAndPowerLoss := by
  refine ⟨fun s hs hp hin => ⟨_, always_eq _ s, sysRstTaken_effect hs.1.1 hp hin⟩, fun s hs => ⟨fun h h' => ?_, fun h => ?_,
    fun h h' straps => ⟨_, always_eq _ s, sysRstRelease_effect hs.1.1 h h' straps⟩⟩, fun s v hl hacc hp hret hcore => ?_,
    fun s hs => ⟨_, always_eq _ s, aonPowerOn_effect hs⟩,
    fun s hs => ⟨fun h => ⟨_, always_eq _ s, pwrFail_effect hs.1.1 h⟩, fun h => ?_,
      fun h railsOk => ⟨_, always_eq _ s, pwrRise_effect hs.1.1 h railsOk⟩, fun t0 h0 => ⟨fun h hin => ?_, fun h => ?_⟩⟩⟩
  · refine ⟨_, always_eq _ s, ?_⟩
    rw [heldLong_run h h']
    refine ⟨?_, (Act.Only.frame (a := .orReg Reg.AON.RST_FLAGS 1) (by simp) s).1, rfl, ⟨rfl, rfl, rfl, rfl, rfl⟩⟩
    exact (bit_orReg hs.1.1 (r := Reg.AON.RST_FLAGS) 1 (by decide +kernel)).trans (Bool.or_true _)
  · have hrun : heldLongAct.run s = s := by
      rw [heldLongAct, run_get, run_when, if_neg]
      rcases h with h | h
      · simp [Nat.not_lt.2 h]
      · simp [h]
    exact (always_eq _ s).trans (by rw [hrun])
  · exact ⟨_, command_eq hl.2, systemReset_effect hl v hacc hp hret hcore⟩
  · have hrun : pwrFailAct.run s = s := by rw [pwrFailAct, run_get, run_when, h]; rfl
    exact (always_eq _ s).trans (by rw [hrun])
  · refine ⟨_, always_eq _ s, ?_⟩
    rw [brownout_run h0, if_pos ⟨h, hin⟩]
    obtain ⟨r1, -, r3, r4, -, r6, r7, -⟩ := resetAndBoot_effect hs.1.1 (cause := cBROWNOUT) (by decide) hin
    exact ⟨r1, r3, r4, r6, r7⟩
  · refine (always_eq _ s).trans ?_
    rw [brownout_run h0, if_neg (fun hc => by omega)]

end Sys2Proof.Machine

/-! ## Proofs: perception to motion (09_perception_to_motion)

Joint sensors (O43), TSN ports (O44), motion loops (O45). -/

namespace Sys2Proof.Machine

-- One theorem after the other: elaborated side by side, they hold more threads than the memory limit of a check allows.
set_option Elab.async false

/-! ### Units that leave a block -/

/-- Block state without what delivering a unit changes: streams, events, traffic counters, edge latches, the units waiting. -/
def Hw.sansUnits (h : Hw) : Hw :=
  { h with streams := [], events := [], cmn := [], memc := [], gath := { h.gath with edge := 0 }, mot := { h.mot with waiting := [] } }

/-- What delivering a unit may change beside memory: the refusal's count and source (R497), and block state outside `Hw.sansUnits`. -/
def Scope.units : Scope :=
  { reg := (· ∈ Reg.CMP.AUTH_REFUSE :: irqOf .CMP 0), mem := True, poison := True,
    hw := fun f => ∀ h : Hw, (f h).sansUnits = h.sansUnits }

@[simp] theorem units_reg (r : RegRef) : Scope.units.reg r ↔ r ∈ Reg.CMP.AUTH_REFUSE :: irqOf .CMP 0 := .rfl
@[simp] theorem units_hw (f : Hw → Hw) : Scope.units.hw f ↔ ∀ h : Hw, (f h).sansUnits = h.sansUnits := .rfl
@[simp] theorem units_mem : Scope.units.mem := trivial
@[simp] theorem units_poison : Scope.units.poison := trivial

theorem units_edge (e : BitVec 1024) : Scope.units.hw (Hw.setEdge e) := fun _ => rfl

theorem units_publish (n : Nat) (u : DUnit) : (Act.publish n u).Only .units := by
  have hr : (Act.raise .CMP 0 4).Only .units := only_raise (by simp [irqOf]) (by simp [irqOf]) units_edge
  simp [Act.publish, Act.guarded, Act.c2Refuse, ringMove, Act.stream, hr, Hw.sansUnits]

theorem units_drainMotion (n k : Nat) : (drainMotion n k).Only .units := by
  induction k with
  | zero => trivial
  | succ k ih =>
    simp only [drainMotion, only_get]
    intro s
    split
    · trivial
    · simp [units_publish, ih, Hw.sansUnits]

theorem units_deliverOn (n : Nat) (u : DUnit) : (deliverOn n u).Only .units := by
  simp [deliverOn, units_drainMotion, Hw.sansUnits]

/-- A register of another page is as before. -/
theorem Act.Only.units_rd {a : Act} (h : a.Only .units) {r : RegRef} (hb : r.key / 4096 ≠ 0x1B) (s : State) : (a.run s).rd r = s.rd r :=
  h.rd id (fun r' hr hk => hb (by
    rw [← hk]
    simp only [units_reg, irqOf, List.mem_cons, List.not_mem_nil, or_false] at hr
    rcases hr with rfl | rfl | rfl <;> decide)) s

/-- A part of the block state that no delivery changes. -/
theorem Act.Only.units_part {α : Type} {a : Act} (h : a.Only .units) (π : Hw → α) (hπ : ∀ h : Hw, π h.sansUnits = π h) (s : State) :
    π (a.run s).hw = π s.hw := by
  rw [← hπ (a.run s).hw, ← hπ s.hw, h.hw Hw.sansUnits (fun _ hf => hf) s]

/-! ### Registers as wide as a word -/

theorem rd_setReg_full {s : State} (hs : keysRise s.regs) {r : RegRef} (hm : r.mask = 0xFFFFFFFF) (v : Word) : (s.setReg r v).rd r = v := by
  rw [rd_setReg_same hs, hm]
  exact BitVec.and_allOnes

/-! ### Joint sensors -/

theorem ssiCmd_row : RegRef.row Reg.SSI.SSI_CMD = some ⟨0x054, 1, 0x04, .WO, 0x00000000, 0x00000000, 0x0, 0x00000000, false⟩ ∧
    RegRef.resetVal Reg.SSI.SSI_CMD = 0 := by decide +kernel
theorem mask_ssiStatus : RegRef.mask Reg.SSI.SSI_STATUS = 0x00000FFF := by decide +kernel
theorem mask_chLast (c : Fin 12) : RegRef.mask (Reg.SSI.CH_LAST c) = 0xFFFFFFFF := by revert c; decide +kernel
theorem mask_overrun : RegRef.mask Reg.SSI.OVERRUN_CNT = 0xFFFFFFFF := by decide +kernel

theorem setChans_lt {s : State} {c : Nat} (h : c ∈ s.setChans) : c < 12 := List.mem_range.1 (List.mem_filter.1 h).1

theorem setChans_congr {s p : State} (h : p.rd Reg.SSI.SET_MASK = s.rd Reg.SSI.SET_MASK) : p.setChans = s.setChans := by
  simp only [State.setChans, State.bit, h]

theorem burstStart_congr {s p : State} (hm : p.rd Reg.SSI.SET_MASK = s.rd Reg.SSI.SET_MASK)
    (ht : ∀ c < 12, p.rd (Reg.SSI.CH_TIMING c) = s.rd (Reg.SSI.CH_TIMING c)) (hq : p.hw.mot.quiet = s.hw.mot.quiet) (hn : p.tsc = s.tsc) :
    p.burstStart = s.burstStart := by
  rw [State.burstStart, State.burstStart, setChans_congr hm, State.now, State.now, hn]
  refine List.foldl_ext _ _ _ fun a c hc => ?_
  simp only [State.burstFrom, hq, State.fld, ht c (setChans_lt hc)]

theorem now_le_burstStart (s : State) : s.now ≤ s.burstStart := by
  have h (l : List Nat) (a : Nat) : a ≤ l.foldl (fun t c => max t (s.burstFrom c)) a := by
    induction l generalizing a with
    | nil => exact Nat.le_refl a
    | cons c l ih => exact Nat.le_trans (Nat.le_max_left _ _) (ih _)
  exact h _ _

/-- A trigger with no set there starts one, at once or held until its stamp. -/
theorem ssiTrigger_run {s : State} (hon : s.bit Reg.SSI.SSI_CTRL 0 = true) (hnone : s.hw.mot.set_ = none) :
    ssiTriggerAct.run s = if s.now < s.burstStart
      then (Act.mot fun m => { m with set_ := some { held := true, stamp := s.burstStart, chans := s.setChans } }).run s
      else ((Act.mot fun m => { m with set_ := some { stamp := s.now, chans := s.setChans, encs := s.setEncs } }).run s).setReg
        Reg.SSI.SSI_STATUS (s.rd Reg.SSI.SET_MASK &&& 0xFFF) := by
  rw [ssiTriggerAct, run_get, run_when, if_pos hon, hnone, if_neg (by simp), run_ite]
  rfl

theorem only_ssiTrigger : ssiTriggerAct.Only (.regs ([Reg.SSI.SSI_STATUS, Reg.SSI.OVERRUN_CNT] ++ irqOf .SSI 0)) := by
  simp [ssiTriggerAct, irqOf]

/-- A trigger whose bursts start at once. -/
theorem ssiTrigger_starts {s : State} (hs : keysRise s.regs) (hon : s.bit Reg.SSI.SSI_CTRL 0 = true) (hnone : s.hw.mot.set_ = none)
    (hnow : s.burstStart = s.now) :
    let t := ssiTriggerAct.run s
    t.hw.mot.set_ = some { stamp := s.now, chans := s.setChans, encs := s.setEncs } ∧
      t.rd Reg.SSI.SSI_STATUS = s.rd Reg.SSI.SET_MASK &&& 0xFFF ∧ SameRegs [Reg.SSI.SSI_STATUS] s t ∧ SameRest s t := by
  rw [ssiTrigger_run hon hnone, if_neg (by rw [hnow]; exact Nat.lt_irrefl _)]
  let p := (Act.mot fun m => { m with set_ := some { stamp := s.now, chans := s.setChans, encs := s.setEncs } }).run s
  refine ⟨rfl, ?_, (quiet_setReg p _ _).regs, ⟨rfl, rfl, rfl, rfl, rfl⟩⟩
  exact (rd_setReg_same (s := p) hs _ _).trans (by rw [mask_ssiStatus, BitVec.and_assoc]; rfl)

theorem ssiSample_effect {s : State} (hl : s.live) (v : Word) (hon : s.bit Reg.SSI.SSI_CTRL 0 = true) (hnone : s.hw.mot.set_ = none)
    (hnow : s.burstStart = s.now) (hacc : s.accepts 0 Reg.SSI.SSI_CMD (v ||| 1) = true) (hsrc : s.bit Reg.SSI.SET_TRIG 0 = false) :
    let t := (hostReg 0 Reg.SSI.SSI_CMD (v ||| 1)).run s
    t.hw.mot.set_.map (·.stamp) = some s.now ∧ t.hw.mot.set_.map (·.chans) = some s.setChans ∧
      SameRegs (Reg.SSI.SSI_STATUS :: hostTrail .SSI 0) s t ∧ t.es = s.es ∧ t.tsc = s.tsc ∧ t.out = s.out := by
  intro t
  obtain ⟨hrow, h0⟩ := ssiCmd_row
  obtain ⟨p, hp, hj⟩ : ∃ p, Written s _ _ _ p ∧ Journaled ((ssiSampleAct (v ||| 1)).run p) t := hostReg_run hl.1 hrow hacc rfl
  have hrd {off : Nat} (h : 0x054 ≠ off % 4096) (h' : 0x30 ≠ off % 4096) : p.rd ⟨.SSI, 0, off⟩ = s.rd ⟨.SSI, 0, off⟩ := hp.rd_off h h'
  have hbit {off : Nat} (k : Nat) (h : 0x054 ≠ off % 4096) (h' : 0x30 ≠ off % 4096) : p.bit ⟨.SSI, 0, off⟩ k = s.bit ⟨.SSI, 0, off⟩ k :=
    congrArg (BitVec.getLsbD · k) (hrd h h')
  have hmask := hrd (off := 0x048) (by decide) (by decide)
  have hstart : p.burstStart = s.burstStart :=
    burstStart_congr hmask (fun c hc => hrd (by simp; omega) (by simp; omega)) (by rw [hp.hw]) hp.rest.tsc
  have hpnow : p.now = s.now := congrArg BitVec.toNat hp.rest.tsc
  have hrun : (ssiSampleAct (v ||| 1)).run p = ssiTriggerAct.run p := by
    rw [ssiSampleAct, run_get, run_when, getLsbD_or_one, (hbit 0 (by decide) (by decide) : p.bit Reg.SSI.SET_TRIG 0 = _), hsrc]
    rfl
  obtain ⟨e1, -, e3, e4⟩ := ssiTrigger_starts hp.rise ((hbit 0 (by decide) (by decide)).trans hon) (by rw [hp.hw]; exact hnone)
    (by rw [hstart, hpnow, hnow])
  rw [hrun] at hj
  have hset := (hj.part (·.mot.set_)).trans e1
  rw [hset]
  refine ⟨congrArg some hpnow, congrArg some (setChans_congr hmask), ?_, hp.sameRest e4 hj⟩
  exact hj.sameRegs (b := .SSI) (i := 0) (hp.kept (fun _ => rfl) h0 (by simp)) e3 (by simp [hostTrail]) (by simp) (by simp)

/-- What the end of a one-channel set records: position, status and faults of its channel. -/
def burstRecord (x : SampleSet) (f : SsiFrame) (c pos st : Nat) : Act := .all
  [.mot fun m => { m with set_ := none, quiet := x.quietAfter [f] m.quiet }, .wrN Reg.SSI.SSI_STATUS 0, .wrN (Reg.SSI.CH_LAST c) pos,
   .bump Reg.SSI.ERR_CNT (if st % 8 = 0 then 0 else 1), .when (decide (st % 8 ≠ 0)) (.raise .SSI 0 c)]

theorem ssiBurst_run {s : State} {c : Nat} {f : SsiFrame} {x : SampleSet} (hset : s.hw.mot.set_ = some x) (hheld : x.held = false)
    (hch : x.chans = [c]) (henc : x.encs = []) (hc : c < 12) :
    ∃ n u, (ssiBurstDoneAct [f]).run s = (deliverOn n u).run ((burstRecord x f c (s.ssiDecode c f).1 (s.ssiDecode c f).2).run s) := by
  have hws : s.sampleWords x [f] = [(c, s.ssiDecode c f)] := by rw [State.sampleWords, hch, henc]; rfl
  simp only [ssiBurstDoneAct, run_get, hset, hheld, Bool.false_eq_true, if_false, hws, List.filter_cons, List.filter_nil, hc, decide_true,
    if_true]
  have hsplit (a₁ a₂ a₃ a₄ a₅ : Act) (n : Nat) (u : DUnit) :
      (Act.all [a₁, a₂, a₃, a₄, a₅, deliverOn n u]).run s = (deliverOn n u).run ((Act.all [a₁, a₂, a₃, a₄, a₅]).run s) := rfl
  rw [hsplit]
  refine ⟨_, _, congrArg (deliverOn _ _).run ?_⟩
  generalize s.ssiDecode c f = d
  by_cases hd : d.2 % 8 = 0
  · simp only [burstRecord, hd, bne_self_eq_false, Bool.false_eq_true, if_false, if_true, List.filter_nil, not_true_eq_false, decide_false,
      ne_eq, List.length_nil]
    rfl
  · have hb : (d.2 % 8 != 0) = true := bne_iff_ne.2 hd
    simp only [burstRecord, hb, hd, hc, decide_true, if_false, if_true, List.filter_cons, List.filter_nil, not_false_eq_true, ne_eq,
      List.length_cons, List.length_nil]
    rfl

theorem quietAfter_getD {x : SampleSet} {f : SsiFrame} {c : Nat} (hch : x.chans = [c]) {q : List (Option Nat)} (hc : c < q.length) :
    (x.quietAfter [f] q).getD c none = some (x.stamp + f.rest.toNat) := by
  have hget : (x.quietAfter [f] q)[c]? = some (some (x.stamp + f.rest.toNat)) := by
    simp [SampleSet.quietAfter, hch, List.getElem?_eq_getElem hc]
  rw [List.getD_eq_getElem?_getD, hget]
  rfl

theorem burstRecord_effect {s : State} (hs : keysRise s.regs) {x : SampleSet} {f : SsiFrame} {c pos st : Nat} (hch : x.chans = [c])
    (hc : c < 12) (hq : c < s.hw.mot.quiet.length) (hpos : pos < 4294967296) :
    let t := (burstRecord x f c pos st).run s
    t.hw.mot.set_ = none ∧ t.rd Reg.SSI.SSI_STATUS = 0 ∧ t.hw.mot.quiet.getD c none = some (x.stamp + f.rest.toNat) ∧
      (t.rd (Reg.SSI.CH_LAST c)).toNat = pos ∧ (st % 8 ≠ 0 → t.pend .SSI 0 c = true) ∧ t.es = s.es ∧ t.tsc = s.tsc ∧ t.out = s.out := by
  let u := ((Act.mot fun m => { m with set_ := none, quiet := x.quietAfter [f] m.quiet }).run s).setReg Reg.SSI.SSI_STATUS 0
  let v := u.setReg (Reg.SSI.CH_LAST c) (BitVec.ofNat 32 pos)
  let tail : Act := .seq (.bump Reg.SSI.ERR_CNT (if st % 8 = 0 then 0 else 1)) (.when (decide (st % 8 ≠ 0)) (.raise .SSI 0 c))
  have hu : keysRise u.regs := keysRise_setReg (s := (Act.mot _).run s) hs _ _
  have hv : keysRise v.regs := keysRise_setReg hu _ _
  have htail : Quiet (Reg.SSI.ERR_CNT :: irqOf .SSI 0) v (tail.run v) := Act.Only.quiet (by simp [tail, irqOf]) v
  have hrun : (burstRecord x f c pos st).run s = tail.run v := rfl
  obtain ⟨e, he⟩ := htail.hw
  have hmot : (tail.run v).hw.mot = v.hw.mot := by rw [he]
  rw [hrun]
  refine ⟨(congrArg MotSt.set_ hmot).trans rfl, ?_, ?_, ?_, fun h => ?_, htail.es, htail.tsc, htail.out⟩
  · have hvu : v.rd Reg.SSI.SSI_STATUS = u.rd Reg.SSI.SSI_STATUS := rd_setReg_off (r := Reg.SSI.CH_LAST c) (by simp; omega)
    rw [htail.regs.rd_off (by simp [irqOf]), hvu, rd_setReg_same (s := (Act.mot _).run s) hs]
    exact BitVec.zero_and
  · rw [congrArg MotSt.quiet hmot]
    exact quietAfter_getD hch hq
  · have hm := mask_chLast ⟨c, hc⟩
    rw [htail.regs.rd_off (by simp [irqOf]; omega), rd_setReg_full hu hm, BitVec.toNat_ofNat]
    exact Nat.mod_eq_of_lt hpos
  · have hlast : tail.run v = (Act.raise .SSI 0 c).run ((Act.bump Reg.SSI.ERR_CNT (if st % 8 = 0 then 0 else 1)).run v) := by
      rw [run_seq, run_when, if_pos (decide_eq_true h)]
    rw [hlast]
    exact bit_raise (rise_run _ hv) (by decide) (by omega)

/-- Settles O43. -/
theorem jointSensors : Obligations.JointSensors := by
  refine ⟨fun s v hl hon => ⟨fun hnone hnow => ⟨?_, fun hacc hsrc => ⟨_, simply_eq hl.2, ssiSample_effect hl v hon hnone hnow hacc hsrc⟩⟩,
    fun hnone hlt => ⟨_, simply_eq hl.2, ?_⟩, fun hset => ⟨_, simply_eq hl.2, ?_⟩⟩, fun s c f x hl hset hheld hch henc hc hq => ?_⟩
  · obtain ⟨e1, e2, e3⟩ := ssiTrigger_starts hl.1.1.1 hon hnone hnow
    exact ⟨_, simply_eq hl.2, by rw [e1]; rfl, by rw [e1]; rfl, by rw [e1]; rfl, e2, e3⟩
  · rw [ssiTrigger_run hon hnone, if_pos hlt]
    exact ⟨rfl, rfl, rfl, rfl, rfl, rfl, rfl⟩
  · have hrun : ssiTriggerAct.run s = (Act.raise .SSI 0 12).run ((Act.bump Reg.SSI.OVERRUN_CNT 1).run s) := by
      rw [ssiTriggerAct, run_get, run_when, if_pos hon, if_pos (Option.isSome_iff_ne_none.2 hset), run_seq]
    have hkeep : (ssiTriggerAct.run s).rd Reg.SSI.OVERRUN_CNT = ((Act.bump Reg.SSI.OVERRUN_CNT 1).run s).rd Reg.SSI.OVERRUN_CNT := by
      rw [hrun]; exact rd_raise_off (by simp) (by simp)
    refine ⟨fun h => by rw [hkeep]; exact counts_bump hl.1.1.1 mask_overrun 1 h, ?_, ?_⟩
    · rw [hrun]; exact bit_raise (rise_run _ hl.1.1.1) (by decide) (by decide)
    · rw [hrun]; exact Act.Only.quiet (a := .seq (.bump Reg.SSI.OVERRUN_CNT 1) (.raise .SSI 0 12)) (by simp [irqOf]) s
  · obtain ⟨n, u, hrun⟩ := ssiBurst_run (f := f) hset hheld hch henc hc
    obtain ⟨e1, e2, e3, e4, e5, e6, e7, e8⟩ := burstRecord_effect (f := f) (st := (s.ssiDecode c f).2) hl.1.1.1 hch hc hq
      (show (s.ssiDecode c f).1 < 4294967296 from Nat.mod_lt _ (by decide))
    have hu := units_deliverOn n u
    refine ⟨_, command_eq hl.2, ?_⟩
    rw [hrun]
    generalize (burstRecord x f c (s.ssiDecode c f).1 (s.ssiDecode c f).2).run s = w at e1 e2 e3 e4 e5 e6 e7 e8 ⊢
    have hmot := hu.units_part (fun h => (h.mot.set_, h.mot.quiet)) (fun _ => rfl) w
    refine ⟨(congrArg Prod.fst hmot).trans e1, (hu.units_rd (by decide) w).trans e2, ?_, ?_, fun h => ?_, (hu.es id w).trans e6,
      (hu.tsc id w).trans e7, (hu.out id w).trans e8⟩
    · exact (congrArg (fun q => q.2.getD c none) hmot).trans e3
    · exact (congrArg BitVec.toNat (hu.units_rd (by simp [RegRef.key, Blk.slot]; omega) w)).trans e4
    · exact (congrArg (BitVec.getLsbD · c) (hu.units_rd (r := Reg.HDR.IRQ_PEND .SSI 0) (by decide) w)).trans (e5 h)

/-! ### TSN ports: frames received -/

theorem mask_tsnRxDrop (p : Fin 4) : RegRef.mask (Reg.TSN.RX_DROP p) = 0xFFFFFFFF := by revert p; decide +kernel
theorem mask_tsnRxFrames (p : Fin 4) : RegRef.mask (Reg.TSN.RX_FRAMES p) = 0xFFFFFFFF := by revert p; decide +kernel
theorem mask_tsnStatus (p : Fin 4) : RegRef.mask (Reg.TSN.TSN_STATUS p) = 0x0000003F := by revert p; decide +kernel
theorem mask_tsnOffset (p : Fin 4) : RegRef.mask (Reg.TSN.AS_OFFSET p) = 0xFFFFFFFF ∧ RegRef.mask (Reg.TSN.PDELAY p) = 0xFFFFFFFF := by
  revert p; decide +kernel
theorem mask_gclAddr (p : Fin 4) : RegRef.mask (Reg.TSN.GCL_ADDR p) = 0x000000FF := by revert p; decide +kernel
theorem gclCmd_row (p : Fin 4) : RegRef.row (Reg.TSN.GCL_CMD p) =
    some ⟨0x084, 1, 0x04, .WO, 0x00000000, 0x00000000, 0x0, 0x00000000, false⟩ ∧ RegRef.resetVal (Reg.TSN.GCL_CMD p) = 0 := by
  revert p; decide +kernel
theorem gclData_row (p : Fin 4) : RegRef.row (Reg.TSN.GCL_DATA p) =
    some ⟨0x070, 1, 0x04, .RW, 0xFFFFFFFF, 0xFFFFFFFF, 0x0, 0x00000000, false⟩ := by
  revert p; decide +kernel
theorem mask_tsnRelation (p : Fin 4) : RegRef.mask (Reg.TSN.REL_TSC_LO p) = 0xFFFFFFFF ∧ RegRef.mask (Reg.TSN.REL_TSC_HI p) = 0xFFFFFFFF ∧
    RegRef.mask (Reg.TSN.REL_AS_LO p) = 0xFFFFFFFF ∧ RegRef.mask (Reg.TSN.REL_AS_HI p) = 0xFFFFFFFF ∧
    RegRef.mask (Reg.TSN.REL_RATE p) = 0xFFFFFFFF := by
  revert p; decide +kernel

theorem tsn_run_tsn {s : State} {p : Nat} (h : p < s.hw.mot.tsn.length) (f : TsnSt → TsnSt) : ((Act.tsn p f).run s).tsn p = f (s.tsn p) := by
  simp only [State.tsn, Act.tsn, Act.mot, run_hw, mapHw_hw]
  rw [getD_updAt, if_pos h]

/-- A count and the source that reports it. -/
theorem bumpRaise_effect {s : State} (hs : keysRise s.regs) {r : RegRef} {b : Blk} {i k : Nat} (hm : r.mask = 0xFFFFFFFF) (hi : i < b.count)
    (hk : k < 32) (h1 : r.off % 4096 ≠ 0x10) (h2 : r.off % 4096 ≠ 0x1C) :
    let t := (Act.seq (.bump r 1) (.raise b i k)).run s
    Counts r 1 s t ∧ t.pend b i k = true ∧ Quiet (r :: irqOf b i) s t := by
  refine ⟨fun h => ?_, bit_raise (rise_run _ hs) hi hk, Act.Only.quiet (by simp [irqOf]) s⟩
  rw [run_seq, rd_raise_off h1.symm h2.symm]
  exact counts_bump hs hm 1 h

theorem tsnFrame_drop {s : State} {p : Nat} {fr : TsnFrame} (hup : s.tsnUp p = true) (hno : s.sfMatch p fr = none) :
    (tsnFrameAct p fr).run s = (Act.seq (.bump (Reg.TSN.RX_DROP p) 1) (.raise .TSN p 3)).run s := by
  rw [tsnFrameAct, run_get, run_when, if_pos hup, hno]
  rfl

/-- A frame its filter passes, without elimination of duplicates: counted, then delivered. -/
theorem tsnFrame_pass {s : State} {p i : Nat} {fr : TsnFrame} (hup : s.tsnUp p = true) (hi : s.sfMatch p fr = some i)
    (h16 : ((s.tsn p).filters.getD i {}).cfg.getLsbD 16 = true) (hmeter : bits ((s.tsn p).filters.getD i {}).meter 23 0 = 0)
    (h28 : ((s.tsn p).filters.getD i {}).cfg.getLsbD 28 = false) (hcb : s.bit (Reg.TSN.CB_CFG p) 0 = false) :
    ∃ f n u, (tsnFrameAct p fr).run s = (deliverOn n u).run ((Act.bump (Reg.TSN.RX_FRAMES p) 1).run ((Act.tsn p f).run s)) := by
  rw [tsnFrameAct, run_get, run_when, if_pos hup, hi]
  simp only [h16, hmeter, h28, hcb, ne_eq, not_true_eq_false, false_and, decide_false, Bool.not_true, Bool.or_self, Bool.false_and,
    Bool.false_eq_true, if_false, run_seq]
  cases fr.rtag <;> exact ⟨_, _, _, rfl⟩

/-! ### 802.1AS time -/

theorem roundAway_zero : roundAway 0 1000000000 = 0 := by decide

/-- At the instant of the last update the port's time is the relation's own. -/
theorem asTime_of_rel {t : State} {p x : Nat} (h : (t.tsn p).relTsc = x) : t.asTime p x = (t.tsn p).relAs % 2 ^ 64 := by
  simp only [State.asTime, h, Int.sub_self, Int.zero_mul, roundAway_zero, Int.add_zero, uns]
  rw [← Int.natCast_emod]
  exact Int.toNat_natCast _

theorem asTime_congr {s t : State} (p x : Nat) (h : t.tsn p = s.tsn p) : t.asTime p x = s.asTime p x := by
  simp only [State.asTime, h]

theorem asTime_lt (s : State) (p x : Nat) : s.asTime p x < 2 ^ 64 := by
  have h : (0 : Int) ≤ ((s.tsn p).relAs + ((x : Int) - (s.tsn p).relTsc) +
    roundAway (((x : Int) - (s.tsn p).relTsc) * (s.tsn p).relRate) 1000000000) % (2 ^ 64 : Nat) := Int.emod_nonneg _ (by decide)
  have h' : ((s.tsn p).relAs + ((x : Int) - (s.tsn p).relTsc) +
    roundAway (((x : Int) - (s.tsn p).relTsc) * (s.tsn p).relRate) 1000000000) % (2 ^ 64 : Nat) < (2 ^ 64 : Nat) :=
    Int.emod_lt_of_pos _ (by decide)
  simp only [State.asTime, uns]
  omega

theorem ofNat_uns (i : Int) : BitVec.ofNat 32 (uns 32 i) = BitVec.ofInt 32 i := by
  apply BitVec.eq_of_toNat_eq
  rw [BitVec.toNat_ofNat, BitVec.toNat_ofInt, uns, Nat.mod_eq_of_lt]
  have := Int.emod_lt_of_pos i (b := ((2 ^ 32 : Nat) : Int)) (by decide)
  have := Int.emod_nonneg i (b := ((2 ^ 32 : Nat) : Int)) (by decide)
  omega

/-- What a Sync that is taken stores: the relation by `f`, the offset, the peer delay, and that the port is in step. -/
def syncStore (p : Nat) (f : TsnSt → TsnSt) (ofs pdelay : Nat) (big : Bool) : Act := .all
  [.tsn p f, .wrN (Reg.TSN.AS_OFFSET p) ofs, .wrN (Reg.TSN.PDELAY p) pdelay, .setFld (Reg.TSN.TSN_STATUS p) 4 4 1,
   .when big (tsnRaise p 2)]

theorem only_syncStore (p : Nat) (f : TsnSt → TsnSt) (ofs pdelay : Nat) (big : Bool) : (syncStore p f ofs pdelay big).Only
    (.regs ([Reg.TSN.AS_OFFSET p, Reg.TSN.PDELAY p, Reg.TSN.TSN_STATUS p] ++ irqOf .TSN p)) := by
  simp [syncStore, tsnRaise, irqOf]

theorem syncStore_effect {s : State} (hs : keysRise s.regs) (p : Fin 4) (hlen : p.val < s.hw.mot.tsn.length) (f : TsnSt → TsnSt)
    (ofs : Nat) (pdelay : Word) (big : Bool) :
    let t := (syncStore p f ofs pdelay.toNat big).run s
    t.tsn p = f (s.tsn p) ∧ t.rd (Reg.TSN.PDELAY p) = pdelay ∧ t.rd (Reg.TSN.AS_OFFSET p) = BitVec.ofNat 32 ofs ∧
      t.bit (Reg.TSN.TSN_STATUS p) 4 = true ∧ (big = true → t.pend .TSN p 2 = true) := by
  let u1 := ((Act.tsn p f).run s).setReg (Reg.TSN.AS_OFFSET p) (BitVec.ofNat 32 ofs)
  let u2 := u1.setReg (Reg.TSN.PDELAY p) (BitVec.ofNat 32 pdelay.toNat)
  let u3 := (Act.setFld (Reg.TSN.TSN_STATUS p) 4 4 1).run u2
  have h1 : keysRise u1.regs := keysRise_setReg (s := (Act.tsn p f).run s) hs _ _
  have h2 : keysRise u2.regs := keysRise_setReg h1 _ _
  have h3 : keysRise u3.regs := rise_run _ h2
  have hlast : Quiet (irqOf .TSN p) u3 ((Act.when big (tsnRaise p 2)).run u3) := Act.Only.quiet (by simp [tsnRaise, irqOf]) u3
  obtain ⟨e, he⟩ := hlast.hw
  have hrun : (syncStore p f ofs pdelay.toNat big).run s = (Act.when big (tsnRaise p 2)).run u3 := rfl
  have hk {off : Nat} (h : off % 4096 ≠ 0x10) (h' : off % 4096 ≠ 0x1C) :
      ((Act.when big (tsnRaise p 2)).run u3).rd ⟨.TSN, p, off⟩ = u3.rd ⟨.TSN, p, off⟩ := hlast.regs.rd_off (by simp [irqOf, h.symm, h'.symm])
  obtain ⟨hm1, hm2⟩ := mask_tsnOffset p
  rw [hrun]
  refine ⟨?_, ?_, ?_, ?_, fun hb => ?_⟩
  · have htsn : ((Act.when big (tsnRaise p 2)).run u3).tsn p = u3.tsn p := (congrArg (fun h : Hw => h.mot.tsn.getD p {}) he).trans rfl
    exact htsn.trans (tsn_run_tsn hlen f)
  · rw [hk (by decide) (by decide), show u3.rd (Reg.TSN.PDELAY p) = u2.rd (Reg.TSN.PDELAY p) from rd_setReg_off (by simp),
      rd_setReg_full h1 hm2, BitVec.ofNat_toNat, BitVec.setWidth_eq]
  · rw [hk (by decide) (by decide), show u3.rd (Reg.TSN.AS_OFFSET p) = u2.rd (Reg.TSN.AS_OFFSET p) from rd_setReg_off (by simp),
      show u2.rd (Reg.TSN.AS_OFFSET p) = u1.rd (Reg.TSN.AS_OFFSET p) from rd_setReg_off (by simp),
      rd_setReg_full (s := (Act.tsn p f).run s) hs hm1]
  · rw [State.bit, hk (by decide) (by decide), ← State.bit, bit_setFld h2 (by rw [mask_tsnStatus]; decide)]
    rfl
  · rw [hb]
    exact bit_raise h3 p.isLt (by decide)

/-- The relation a Sync leaves (R378, R379). -/
def State.syncRelation (s : State) (p as_ : Nat) (rate : Int) (interval : Nat) (r : TsnSt) : TsnSt :=
  let d : Int := (as_ : Int) - s.asTime p s.now
  { r with
    relTsc := s.now, relAs := if decide (-1000 ≤ d ∧ d ≤ 1000) then s.asTime p s.now else as_,
    relRate := sgn 32 (uns 32 (if decide (-1000 ≤ d ∧ d ≤ 1000) then rate + roundAway (d * 1000000000) (max 1 interval) else rate)),
    sync := some (s.now, interval) }

/-- A Sync that is taken (R378, R379). -/
theorem tsnSync_effect {s : State} (hs : keysRise s.regs) (p : Fin 4) (as_ : DWord) (rate : Int) (interval pdelay : Word)
    (hlen : p.val < s.hw.mot.tsn.length) (h1 : s.bit (Reg.TSN.TSN_CTRL p) 0 = true) (h2 : s.fld (Reg.TSN.TSN_CTRL p) 5 4 = 1)
    (h3 : s.bit (Reg.TSN.TSN_STATUS p) 0 = true) :
    let d : Int := (as_.toNat : Int) - s.asTime p s.now
    let t := (tsnSyncAct p as_.toNat rate interval.toNat pdelay.toNat).run s
    t.rd (Reg.TSN.PDELAY p) = pdelay ∧
      t.rd (Reg.TSN.AS_OFFSET p) = BitVec.ofInt 32 (-d) ∧ t.bit (Reg.TSN.TSN_STATUS p) 4 = true ∧
      ((d < -1000 ∨ 1000 < d) → t.asTime p t.now = as_.toNat ∧ t.pend .TSN p 2 = true) ∧
      ((-1000 ≤ d ∧ d ≤ 1000) → t.asTime p t.now = s.asTime p s.now) ∧
      SameRegs ([Reg.TSN.AS_OFFSET p, Reg.TSN.PDELAY p, Reg.TSN.TSN_STATUS p] ++ irqOf .TSN p) s t ∧ SameRest s t := by
  intro d t
  have hrun : t = (syncStore p (s.syncRelation p as_.toNat rate interval.toNat) (uns 32 (-d)) pdelay.toNat (!decide (-1000 ≤ d ∧ d ≤ 1000))).run s := by
    simp only [t]
    rw [tsnSyncAct, run_get, run_when, if_pos (by rw [h1, h2, h3]; rfl)]
    rfl
  obtain ⟨e1, e2, e3, e4, e5⟩ := syncStore_effect hs p hlen (s.syncRelation p as_.toNat rate interval.toNat) (uns 32 (-d)) pdelay (!decide (-1000 ≤ d ∧ d ≤ 1000))
  obtain ⟨hregs, hrest⟩ := (only_syncStore p (s.syncRelation p as_.toNat rate interval.toNat) (uns 32 (-d)) pdelay.toNat (!decide (-1000 ≤ d ∧ d ≤ 1000))).frame s
  rw [← hrun] at e1 e2 e3 e4 e5 hregs hrest
  have hnow : t.now = s.now := congrArg BitVec.toNat hrest.tsc
  have htime : t.asTime p t.now = (if decide (-1000 ≤ d ∧ d ≤ 1000) then s.asTime p s.now else as_.toNat) % 2 ^ 64 := by
    rw [hnow, asTime_of_rel (by rw [e1]; rfl), e1]; rfl
  refine ⟨e2, e3.trans (ofNat_uns _), e4, fun h => ?_, fun h => ?_, hregs, hrest⟩
  · have hbig : decide (-1000 ≤ d ∧ d ≤ 1000) = false := decide_eq_false (by omega)
    rw [hbig] at htime e5
    exact ⟨htime.trans (Nat.mod_eq_of_lt as_.isLt), e5 rfl⟩
  · rw [decide_eq_true h] at htime
    exact htime.trans (Nat.mod_eq_of_lt (asTime_lt s p s.now))

/-! ### TSN ports: links, gate lists, histories -/

theorem tsnLinkUp_effect {s : State} (hs : keysRise s.regs) (p : Fin 4) (verified : Bool) (h1 : s.bit (Reg.TSN.TSN_CTRL p) 0 = true)
    (h2 : s.fld (Reg.TSN.TSN_CTRL p) 3 1 ≤ 4) :
    let t := (tsnLinkUpAct p verified).run s
    t.bit (Reg.TSN.TSN_STATUS p) 0 = true ∧ t.fld (Reg.TSN.TSN_STATUS p) 3 1 = s.fld (Reg.TSN.TSN_CTRL p) 3 1 ∧
      t.bit (Reg.TSN.TSN_STATUS p) 5 = (verified && s.bit (Reg.TSN.TSN_CTRL p) 7) ∧ Quiet [Reg.TSN.TSN_STATUS p] s t := by
  have hrun : (tsnLinkUpAct p verified).run s = s.setReg (Reg.TSN.TSN_STATUS p) (setBits (setBits (setBits (s.rd (Reg.TSN.TSN_STATUS p)) 0 0 1)
      3 1 (s.fld (Reg.TSN.TSN_CTRL p) 3 1)) 5 5 (b2n (verified && s.bit (Reg.TSN.TSN_CTRL p) 7))) := by
    rw [tsnLinkUpAct, run_get, run_when, if_pos (by rw [h1, decide_eq_true h2]; rfl)]
    rfl
  have hm (k : Nat) (hk : k < 6) : (RegRef.mask (Reg.TSN.TSN_STATUS p)).getLsbD k = true := by
    rw [mask_tsnStatus]; interval_cases k <;> rfl
  rw [hrun]
  refine ⟨?_, ?_, ?_, quiet_setReg _ _ _⟩
  · rw [bit_setReg_same hs _ (hm 0 (by decide)), getLsbD_setBits, if_neg (by omega), getLsbD_setBits, if_neg (by omega), getLsbD_setBits,
      if_pos (by omega)]
    rfl
  · rw [State.fld, rd_setReg_same hs, mask_tsnStatus, bits_and_mask _ _ (by decide), bits_setBits_other _ _ (by omega),
      bits_setBits_same _ _ (by decide)]
    exact Nat.mod_eq_of_lt (Nat.mod_lt _ (by decide))
  · rw [bit_setReg_same hs _ (hm 5 (by decide)), getLsbD_setBits, if_pos (by omega)]
    cases verified && s.bit (Reg.TSN.TSN_CTRL p) 7 <;> rfl

theorem tsnLinkDown_effect {s : State} (hs : keysRise s.regs) (p : Fin 4) (h : s.bit (Reg.TSN.TSN_STATUS p) 0 = true) :
    let t := (tsnLinkDownAct p).run s
    t.bit (Reg.TSN.TSN_STATUS p) 0 = false ∧ t.pend .TSN p 0 = true ∧
      SameRegs (Reg.TSN.TSN_STATUS p :: irqOf .TSN p) s t ∧ SameRest s t := by
  let u := s.setReg (Reg.TSN.TSN_STATUS p) (setBits (setBits (s.rd (Reg.TSN.TSN_STATUS p)) 0 0 0) 5 5 0)
  have hu : keysRise u.regs := keysRise_setReg hs _ _
  have hrun : (tsnLinkDownAct p).run s = ((Act.raise .TSN p 0).run u).mapHw fun h => { h with events := h.events ++ [.portDown p] } := by
    rw [tsnLinkDownAct, run_get, run_when, if_pos h]
    rfl
  obtain ⟨hregs, hrest⟩ := Act.Only.frame (l := Reg.TSN.TSN_STATUS p :: irqOf .TSN p) (a := tsnLinkDownAct p)
    (by simp [tsnLinkDownAct, tsnRaise, irqOf]) s
  refine ⟨?_, ?_, hregs, hrest⟩
  · rw [hrun, State.bit, rd_mapHw, rd_raise_off (by simp) (by simp), ← State.bit,
      bit_setReg_same hs _ (by rw [mask_tsnStatus]; rfl), getLsbD_setBits, if_neg (by omega), getLsbD_setBits, if_pos (by omega)]
    rfl
  · rw [hrun]
    exact bit_raise hu p.isLt (by decide)

theorem tsnSyncLoss_effect {s : State} (hs : keysRise s.regs) (p : Fin 4) {last i : Nat} (hsync : (s.tsn p).sync = some (last, i))
    (h1 : s.bit (Reg.TSN.TSN_STATUS p) 4 = true) (h2 : s.fld (Reg.TSN.TSN_CTRL p) 5 4 = 1) (h3 : last + 3 * i ≤ s.now) :
    let t := (tsnSyncLossAct p).run s
    t.bit (Reg.TSN.TSN_STATUS p) 4 = false ∧ t.pend .TSN p 1 = true ∧ Quiet (Reg.TSN.TSN_STATUS p :: irqOf .TSN p) s t := by
  have hrun : (tsnSyncLossAct p).run s = (Act.seq (.setFld (Reg.TSN.TSN_STATUS p) 4 4 0) (.raise .TSN p 1)).run s := by
    rw [tsnSyncLossAct, run_get, hsync]
    refine (run_when _ _ s).trans (if_pos ?_)
    rw [h1, h2, decide_eq_true h3]
    rfl
  rw [hrun]
  refine ⟨?_, bit_raise (rise_run _ hs) p.isLt (by decide), Act.Only.quiet (by simp [irqOf]) s⟩
  rw [run_seq, State.bit, rd_raise_off (by simp) (by simp), ← State.bit, bit_setFld hs (by rw [mask_tsnStatus]; rfl)]
  rfl

/-- The first multiple of the cycle after now, counted from the base time. -/
theorem gclDue {a base cyc due : Nat} (hc : 0 < cyc) (h : due = if a < base then base else base + ((a - base) / cyc + 1) * cyc) :
    (due - base) % cyc = 0 ∧ a < due := by
  split at h
  next hlt => subst h; exact ⟨by simp, hlt⟩
  next hge =>
    subst h
    refine ⟨by rw [Nat.add_sub_cancel_left]; exact Nat.mul_mod_left _ _, ?_⟩
    have := Nat.lt_div_mul_add hc (a := a - base)
    rw [Nat.add_mul, Nat.one_mul]
    omega

theorem gclApply_effect {s : State} (hl : s.live) (p : Fin 4) (v : Word) (hacc : s.accepts 0 (Reg.TSN.GCL_CMD p) (v ||| 1) = true)
    (hlen : p.val < s.hw.mot.tsn.length) :
    let t := (hostReg 0 (Reg.TSN.GCL_CMD p) (v ||| 1)).run s
    let len := s.fld (Reg.TSN.GCL_CFG p) 8 0
    let cyc := (s.rd (Reg.TSN.GCL_CYCLE p)).toNat
    let base := s.rd64 (Reg.TSN.GCL_BASE_LO p) (Reg.TSN.GCL_BASE_HI p)
    ((len = 0 ∨ 256 < len ∨ cyc < 1000 ∨ 1000000000 < cyc) → t.pend .TSN p 5 = true ∧ (t.tsn p).next = (s.tsn p).next ∧
      SameRegs (irqOf .TSN p ++ hostTrail .TSN p) s t ∧ t.es = s.es ∧ t.tsc = s.tsc ∧ t.out = s.out) ∧
    (1 ≤ len → len ≤ 256 → 1000 ≤ cyc → cyc ≤ 1000000000 →
      (∃ g due, (t.tsn p).next = some (g, due) ∧ g.base = base ∧ g.cycle = cyc ∧ g.entries.length = min len (s.tsn p).gcl.length ∧
        (due - base) % cyc = 0 ∧ s.asTime p s.now < due) ∧
      SameRegs (hostTrail .TSN p) s t ∧ t.es = s.es ∧ t.tsc = s.tsc ∧ t.out = s.out) := by
  intro t len cyc base
  obtain ⟨hrow, h0⟩ := gclCmd_row p
  obtain ⟨q, hq, hj⟩ : ∃ q, Written s _ _ _ q ∧ Journaled ((tsnWrite p 0x084 (v ||| 1)).run q) t :=
    hostReg_run hl.1 hrow hacc rfl
  have hwrite : (tsnWrite p 0x084 (v ||| 1)).run q = (Act.when ((v ||| 1).getLsbD 0) (gclApplyAct p)).run q := rfl
  rw [hwrite, getLsbD_or_one] at hj
  have hrd {off : Nat} (h : 0x084 ≠ off % 4096) (h' : 0x30 ≠ off % 4096) : q.rd ⟨.TSN, p, off⟩ = s.rd ⟨.TSN, p, off⟩ := hq.rd_off h h'
  have hqlen : q.fld (Reg.TSN.GCL_CFG p) 8 0 = len := congrArg (bits · 8 0) (hrd (by decide) (by decide))
  have hqcyc : (q.rd (Reg.TSN.GCL_CYCLE p)).toNat = cyc := congrArg BitVec.toNat (hrd (by decide) (by decide))
  have hqbase : q.rd64 (Reg.TSN.GCL_BASE_LO p) (Reg.TSN.GCL_BASE_HI p) = base := by
    simp only [State.rd64, base]
    rw [hrd (by decide) (by decide), hrd (by decide) (by decide)]
  have hqtsn : q.tsn p = s.tsn p := congrArg (fun h : Hw => h.mot.tsn.getD p {}) hq.hw
  have hqtime : q.asTime p q.now = s.asTime p s.now := by
    rw [asTime_congr p _ hqtsn, State.now, hq.rest.tsc]; rfl
  have hkept := hq.kept (fun _ => rfl) h0 (by simp)
  have htsn (u : State) (hu : Journaled u t) : t.tsn p = u.tsn p := congrArg (fun m : MotSt => m.tsn.getD p {}) (hu.part (·.mot))
  constructor
  · intro hbad
    have hrun : (Act.when true (gclApplyAct p)).run q = (tsnRaise p 5).run q := by
      simp only [Act.when, if_true, gclApplyAct, run_get, hqlen, hqcyc, if_pos hbad]
    rw [hrun] at hj
    have hquiet : Quiet (irqOf .TSN p) q ((tsnRaise p 5).run q) := Act.Only.quiet (by simp [tsnRaise, irqOf]) q
    obtain ⟨e, he⟩ := hquiet.hw
    refine ⟨?_, ?_, ?_, hq.sameRest hquiet.toSameRest hj⟩
    · exact (congrArg (BitVec.getLsbD · 5) (hj.rd (r := Reg.HDR.IRQ_PEND .TSN p) p.isLt (by simp) (by simp) (by simp))).trans
        (bit_raise hq.rise p.isLt (by decide))
    · rw [htsn _ hj, show ((tsnRaise p 5).run q).tsn p = q.tsn p from (congrArg (fun h : Hw => h.mot.tsn.getD p {}) he).trans rfl, hqtsn]
    · exact hj.sameRegs (b := .TSN) (i := p) hkept hquiet.regs (by simp [hostTrail]) (by simp) (by simp)
  · intro g1 g2 g3 g4
    obtain ⟨due, hdue⟩ : ∃ due, due = if s.asTime p s.now < base then base else base + ((s.asTime p s.now - base) / cyc + 1) * cyc := ⟨_, rfl⟩
    have hrun : (Act.when true (gclApplyAct p)).run q = (Act.tsn p fun r => { r with next := some ({
        entries := (r.gcl.take len).map fun w => (w.setWidth 8, bits w 31 8), base := base, cycle := cyc }, due) }).run q := by
      simp only [Act.when, if_true, gclApplyAct, run_get, hqlen, hqcyc, hqbase, hqtime, hdue]
      rw [if_neg (by omega)]
    rw [hrun] at hj
    obtain ⟨hmod, hlt⟩ := gclDue (by omega) hdue
    have hnext := tsn_run_tsn (s := q) (p := p) (by rw [hq.hw]; exact hlen) fun r => { r with next := some ({
        entries := (r.gcl.take len).map fun w => (w.setWidth 8, bits w 31 8), base := base, cycle := cyc }, due) }
    refine ⟨⟨_, due, by rw [htsn _ hj, hnext], rfl, rfl, ?_, hmod, hlt⟩, ?_, hq.sameRest (u := (Act.tsn p _).run q) ⟨rfl, rfl, rfl, rfl, rfl⟩ hj⟩
    · rw [List.length_map, List.length_take, hqtsn]
    · exact hj.sameRegs (b := .TSN) (i := p) (l' := []) hkept (fun _ _ => rfl) (by simp [hostTrail]) (by simp) (by simp)

/-- An accepted write to a register behind a selector: the block stores it, and the page's count of writes alone changes before. -/
theorem hostReg_behind_run {s : State} (hs : s.sound) {r : RegRef} {row : RegRow} {v : Word} {a : Act} (hrow : r.row = some row)
    (hsel : behindSel r.blk r.off = true) (hacc : s.accepts 0 r v = true)
    (ha : blockWrite 0 r.blk r.inst r.off (s.hostOld r) v = a) (hsh : row.shared = false := by rfl) :
    ∃ p, Written s r row v p ∧ SameRegs [Reg.HDR.WRITE_COUNT r.blk r.inst] s p ∧ Journaled (a.run p) ((hostReg 0 r v).run s) := by
  refine ⟨_, written_hostStored hs v hrow hsh, ?_, ha ▸ hostReg_steps hrow hacc⟩
  have hst : s.hostStored r row v =
      s.setReg (Reg.HDR.WRITE_COUNT r.blk r.inst) (s.rd (Reg.HDR.WRITE_COUNT r.blk r.inst) + 1) := by
    rw [State.hostStored, hsel]
    rfl
  rw [hst]
  exact (quiet_setReg _ _ _).regs

theorem getElem?_updAt_same {α : Type} (f : α → α) {i : Nat} {l : List α} (h : i < l.length) : (updAt f i l)[i]? = some (f l[i]) := by
  induction l generalizing i with
  | nil => exact absurd h (Nat.not_lt_zero _)
  | cons x l ih =>
    cases i with
    | zero => rfl
    | succ i => exact ih (Nat.lt_of_succ_lt_succ h)

theorem gclData_effect {s : State} (hl : s.live) (p : Fin 4) (v : Word) (hacc : s.accepts 0 (Reg.TSN.GCL_DATA p) v = true)
    (hlen : p.val < s.hw.mot.tsn.length) (hi : s.fld (Reg.TSN.GCL_ADDR p) 7 0 < (s.tsn p).gcl.length) :
    let t := (hostReg 0 (Reg.TSN.GCL_DATA p) v).run s
    (t.tsn p).gcl[s.fld (Reg.TSN.GCL_ADDR p) 7 0]? = some v ∧
      t.fld (Reg.TSN.GCL_ADDR p) 7 0 = (s.fld (Reg.TSN.GCL_ADDR p) 7 0 + 1) % 256 ∧
      SameRegs (Reg.TSN.GCL_ADDR p :: hostTrail .TSN p) s t ∧ t.es = s.es ∧ t.tsc = s.tsc ∧ t.out = s.out := by
  intro t
  obtain ⟨q, hq, hregs, hj⟩ : ∃ q, Written s _ _ v q ∧ SameRegs _ s q ∧ Journaled ((tsnWrite p 0x070 v).run q) t :=
    hostReg_behind_run hl.1 (gclData_row p) rfl hacc rfl
  have hrun : (tsnWrite p 0x070 v).run q = (gclDataAct p v).run q := rfl
  have haddr : q.fld (Reg.TSN.GCL_ADDR p) 7 0 = s.fld (Reg.TSN.GCL_ADDR p) 7 0 :=
    congrArg (bits · 7 0) (hq.rd_off (q := Reg.TSN.GCL_ADDR p) (by simp) (by simp))
  rw [hrun, gclDataAct, run_get, run_seq, run_wrN, haddr] at hj
  generalize s.fld (Reg.TSN.GCL_ADDR p) 7 0 = i at hi hj ⊢
  have hqtsn : q.tsn p = s.tsn p := congrArg (fun h : Hw => h.mot.tsn.getD p {}) hq.hw
  let u := (Act.tsn p fun r => { r with gcl := updAt (fun _ => v) i r.gcl }).run q
  have hu : (u.tsn p).gcl = updAt (fun _ => v) i (q.tsn p).gcl :=
    congrArg TsnSt.gcl (tsn_run_tsn (by rw [hq.hw]; exact hlen) fun r => { r with gcl := updAt (fun _ => v) i r.gcl })
  have hend : SameRegs [Reg.TSN.GCL_ADDR p] q (u.setReg (Reg.TSN.GCL_ADDR p) (BitVec.ofNat 32 ((i + 1) % 256))) :=
    fun r hr => (quiet_setReg u _ _).regs r hr
  refine ⟨?_, ?_, ?_, hq.sameRest (u := u.setReg (Reg.TSN.GCL_ADDR p) _) ⟨rfl, rfl, rfl, rfl, rfl⟩ hj⟩
  · have ht : t.tsn p = u.tsn p := congrArg (fun m : MotSt => m.tsn.getD p {}) (hj.part (·.mot))
    rw [ht, hu, hqtsn, getElem?_updAt_same _ hi]
  · refine (congrArg (bits · 7 0) (hj.rd (r := Reg.TSN.GCL_ADDR p) p.isLt (by simp) (by simp) (by simp))).trans ?_
    rw [rd_setReg_same (s := u) hq.rise, mask_gclAddr, bits_and_mask _ _ (by decide), bits, BitVec.toNat_ofNat, Nat.shiftRight_zero]
    omega
  · exact hj.sameRegs (b := .TSN) (i := p) hregs hend (by simp [hostTrail]) (by simp) (by simp)

theorem gclExpiry_effect {s : State} {p : Nat} {g : GateList} {due : Nat} (hnext : (s.tsn p).next = some (g, due))
    (hdue : due ≤ s.asTime p s.now) (hq : (s.tsn p).queue = []) (hlen : p < s.hw.mot.tsn.length) :
    let t := (gclExpiryAct p).run s
    (t.tsn p).oper = g ∧ (t.tsn p).next = none ∧ t.regs = s.regs ∧ SameRest s t := by
  let u := (Act.tsn p fun r => { r with oper := g, next := none }).run s
  have hu : u.tsn p = { s.tsn p with oper := g, next := none } := tsn_run_tsn hlen _
  have hrun : (gclExpiryAct p).run s = (Act.tsn p fun r => { r with queue := r.queue.filter fun f => !u.gateOpen p f.pcp }).run u := by
    have hfirst : (Act.when (decide (due ≤ s.asTime p s.now)) (.tsn p fun r => { r with oper := g, next := none })).run s = u := by
      rw [run_when, if_pos (decide_eq_true hdue)]
    have hqu : (u.tsn p).queue = [] := by rw [hu]; exact hq
    rw [gclExpiryAct, run_get, hnext, run_seq]
    refine (congrArg (Act.run _) hfirst).trans ?_
    rw [run_get, run_seq, hqu]
    rfl
  have hlen' : p < u.hw.mot.tsn.length := by
    have h : u.hw.mot.tsn = updAt (fun r : TsnSt => { r with oper := g, next := none }) p s.hw.mot.tsn := rfl
    rw [h, length_updAt]
    exact hlen
  have ht := tsn_run_tsn hlen' fun r => { r with queue := r.queue.filter fun f => !u.gateOpen p f.pcp }
  rw [hu] at ht
  rw [hrun]
  exact ⟨congrArg TsnSt.oper ht, congrArg TsnSt.next ht, rfl, rfl, rfl, rfl, rfl, rfl⟩

theorem cbReset_effect {s : State} {p ix : Nat} {h : CbHist} (hcb : (s.tsn p).cb[ix]? = some h)
    (hsil : h.last + s.fld (Reg.TSN.CB_CFG p) 15 4 * 1000000 ≤ s.now) (hlen : p < s.hw.mot.tsn.length) :
    let t := (cbResetAct p ix).run s
    (t.tsn p).cb = (s.tsn p).cb.erase h ∧ t.regs = s.regs ∧ SameRest s t := by
  have hrun : (cbResetAct p ix).run s = (Act.tsn p fun r => { r with cb := r.cb.erase h }).run s := by
    rw [cbResetAct, run_get, hcb]
    exact (run_when _ _ s).trans (if_pos (decide_eq_true hsil))
  rw [hrun]
  exact ⟨congrArg TsnSt.cb (tsn_run_tsn hlen fun r => { r with cb := r.cb.erase h }), rfl, rfl, rfl, rfl, rfl, rfl⟩

theorem relTscLo_row (p : Fin 4) : rowAt .TSN p 0x050 =
    some ⟨0x050, 1, 0x04, .RO, 0xFFFFFFFF, 0x00000000, 0x0, 0x00000000, false⟩ := by
  revert p; decide +kernel

theorem relTscLoRead_effect {s : State} (hs : keysRise s.regs) (p : Fin 4) :
    let t := (hostReadReg 0 (Reg.TSN.REL_TSC_LO p)).run s
    t.out = s.out ++ [.readData 0 (leBytes 4 ((s.tsn p).relTsc % 2 ^ 32)) false] ∧
      (t.rd (Reg.TSN.REL_TSC_HI p)).toNat = (s.tsn p).relTsc / 2 ^ 32 % 2 ^ 32 ∧
      (t.rd (Reg.TSN.REL_AS_LO p)).toNat = (s.tsn p).relAs % 2 ^ 32 ∧ (t.rd (Reg.TSN.REL_AS_HI p)).toNat = (s.tsn p).relAs / 2 ^ 32 % 2 ^ 32 ∧
      t.rd (Reg.TSN.REL_RATE p) = BitVec.ofInt 32 (s.tsn p).relRate ∧
      SameRegs [Reg.TSN.REL_TSC_LO p, Reg.TSN.REL_TSC_HI p, Reg.TSN.REL_AS_LO p, Reg.TSN.REL_AS_HI p, Reg.TSN.REL_RATE p] s t ∧
      t.mem = s.mem ∧ t.es = s.es ∧ t.tsc = s.tsc ∧ t.hw = s.hw := by
  intro t
  let r := s.tsn p
  let u1 := s.setReg (Reg.TSN.REL_TSC_LO p) (BitVec.ofNat 32 (r.relTsc % 2 ^ 32))
  let u2 := u1.setReg (Reg.TSN.REL_TSC_HI p) (BitVec.ofNat 32 (r.relTsc / 2 ^ 32))
  let u3 := u2.setReg (Reg.TSN.REL_AS_LO p) (BitVec.ofNat 32 (r.relAs % 2 ^ 32))
  let u4 := u3.setReg (Reg.TSN.REL_AS_HI p) (BitVec.ofNat 32 (r.relAs / 2 ^ 32))
  let u5 := u4.setReg (Reg.TSN.REL_RATE p) (BitVec.ofNat 32 (uns 32 r.relRate))
  have h1 : keysRise u1.regs := keysRise_setReg hs _ _
  have h2 : keysRise u2.regs := keysRise_setReg h1 _ _
  have h3 : keysRise u3.regs := keysRise_setReg h2 _ _
  have h4 : keysRise u4.regs := keysRise_setReg h3 _ _
  obtain ⟨m1, m2, m3, m4, m5⟩ := mask_tsnRelation p
  have hlatch : (readLatch .TSN p 0x050).run s = u5 := rfl
  have hrow : rowAt .TSN p 0x050 = _ := relTscLo_row p
  have hkeep {q : RegRef} (hq : 0x054 ≠ q.off % 4096) (hq' : 0x058 ≠ q.off % 4096 ∧ 0x05C ≠ q.off % 4096 ∧ 0x060 ≠ q.off % 4096) :
      u5.rd q = u1.rd q :=
    (rd_setReg_off (r := Reg.TSN.REL_RATE p) hq'.2.2).trans ((rd_setReg_off (r := Reg.TSN.REL_AS_HI p) hq'.2.1).trans
      ((rd_setReg_off (r := Reg.TSN.REL_AS_LO p) hq'.1).trans (rd_setReg_off (r := Reg.TSN.REL_TSC_HI p) hq)))
  have hval : u5.regRead .TSN p 0x050 = BitVec.ofNat 32 (r.relTsc % 2 ^ 32) := by
    have hread : u5.regRead .TSN p 0x050 = u5.rd (Reg.TSN.REL_TSC_LO p) := by
      simp [State.regRead, hrow, regComputed, tsnComputed, regAt]
    rw [hread, hkeep (by simp) (by simp), rd_setReg_full hs m1]
  have hrun : t = u5.emit (.readData 0 (leBytes 4 (r.relTsc % 2 ^ 32)) false) := by
    have h := run_bar0Read_word (b := .TSN) (i := p) (off := 0x050) p.isLt (by decide) (by decide) s
    have heff : (readEffect .TSN p 0x050).run u5 = u5 := by simp [readEffect, hrow]
    have hn : (BitVec.ofNat 32 (r.relTsc % 2 ^ 32)).toNat = r.relTsc % 2 ^ 32 := by
      rw [BitVec.toNat_ofNat, Nat.mod_mod]
    simp only [hlatch, hval, heff, hn] at h
    exact h
  rw [hrun]
  refine ⟨rfl, ?_, ?_, ?_, ?_, ?_, rfl, rfl, rfl, rfl⟩
  · rw [show (u5.emit _).rd (Reg.TSN.REL_TSC_HI p) = u5.rd (Reg.TSN.REL_TSC_HI p) from rfl,
      show u5.rd (Reg.TSN.REL_TSC_HI p) = u4.rd (Reg.TSN.REL_TSC_HI p) from rd_setReg_off (by simp),
      show u4.rd (Reg.TSN.REL_TSC_HI p) = u3.rd (Reg.TSN.REL_TSC_HI p) from rd_setReg_off (by simp),
      show u3.rd (Reg.TSN.REL_TSC_HI p) = u2.rd (Reg.TSN.REL_TSC_HI p) from rd_setReg_off (by simp), rd_setReg_full h1 m2, BitVec.toNat_ofNat]
  · rw [show (u5.emit _).rd (Reg.TSN.REL_AS_LO p) = u5.rd (Reg.TSN.REL_AS_LO p) from rfl,
      show u5.rd (Reg.TSN.REL_AS_LO p) = u4.rd (Reg.TSN.REL_AS_LO p) from rd_setReg_off (by simp),
      show u4.rd (Reg.TSN.REL_AS_LO p) = u3.rd (Reg.TSN.REL_AS_LO p) from rd_setReg_off (by simp), rd_setReg_full h2 m3, BitVec.toNat_ofNat,
      Nat.mod_mod]
  · rw [show (u5.emit _).rd (Reg.TSN.REL_AS_HI p) = u5.rd (Reg.TSN.REL_AS_HI p) from rfl,
      show u5.rd (Reg.TSN.REL_AS_HI p) = u4.rd (Reg.TSN.REL_AS_HI p) from rd_setReg_off (by simp), rd_setReg_full h3 m4, BitVec.toNat_ofNat]
  · rw [show (u5.emit _).rd (Reg.TSN.REL_RATE p) = u5.rd (Reg.TSN.REL_RATE p) from rfl, rd_setReg_full h4 m5, ofNat_uns]
  · intro q hq
    have honly : (relLatch p).Only (.regs [Reg.TSN.REL_TSC_LO p, Reg.TSN.REL_TSC_HI p, Reg.TSN.REL_AS_LO p, Reg.TSN.REL_AS_HI p,
      Reg.TSN.REL_RATE p]) := by simp [relLatch]
    exact (honly.frame s).1 q hq

/-- Settles O44. -/
theorem tsnPorts : Obligations.TsnPorts := by
  refine ⟨fun s p fr hl hup => ⟨fun hno => ⟨_, command_eq hl.2, ?_⟩, fun i hi h16 hmeter h28 hcb => ⟨_, command_eq hl.2, ?_⟩⟩,
    fun s p as_ rate interval pdelay hl hlen h1 h2 h3 => ⟨_, simply_eq hl.2, tsnSync_effect hl.1.1.1 p as_ rate interval pdelay hlen h1 h2 h3⟩,
    fun s p last i hl hsync h1 h2 h3 => ⟨_, simply_eq hl.2, tsnSyncLoss_effect hl.1.1.1 p hsync h1 h2 h3⟩,
    fun s p hl h => ⟨_, command_eq hl.2, tsnLinkDown_effect hl.1.1.1 p h⟩,
    fun s p verified hl h1 h2 => ⟨_, command_eq hl.2, tsnLinkUp_effect hl.1.1.1 p verified h1 h2⟩,
    fun s p v hl hacc hlen => ?_, fun s p v hl hacc hlen hi => ⟨_, simply_eq hl.2, gclData_effect hl p v hacc hlen hi⟩,
    fun s p g due hl hnext hdue hq hlen => ⟨_, command_eq hl.2, gclExpiry_effect hnext hdue hq hlen⟩,
    fun s p ix h hl hcb hsil hlen => ⟨_, simply_eq hl.2, cbReset_effect hcb hsil hlen⟩,
    fun s p hl => ⟨_, simply_eq hl.2, relTscLoRead_effect hl.1.1.1 p⟩⟩
  · rw [tsnFrame_drop hup hno]
    exact bumpRaise_effect hl.1.1.1 (mask_tsnRxDrop p) p.isLt (by decide) (by simp) (by simp)
  · obtain ⟨f, n, u, hrun⟩ := tsnFrame_pass hup hi h16 hmeter h28 hcb
    rw [hrun]
    let w := (Act.bump (Reg.TSN.RX_FRAMES p) 1).run ((Act.tsn p f).run s)
    have hu := units_deliverOn n u
    have hw : Quiet [Reg.TSN.RX_FRAMES p] ((Act.tsn p f).run s) w := quiet_bump _ _ _
    refine ⟨fun h => ?_, (hu.es id w).trans hw.es, (hu.tsc id w).trans hw.tsc, (hu.out id w).trans hw.out⟩
    have hkey : (Reg.TSN.RX_FRAMES p).key / 4096 ≠ 0x1B := by simp [RegRef.key, Blk.slot]; omega
    rw [hu.units_rd hkey w]
    exact counts_bump (s := (Act.tsn p f).run s) hl.1.1.1 (mask_tsnRxFrames p) 1 h
  · obtain ⟨e1, e2⟩ := gclApply_effect hl p v hacc hlen
    exact ⟨fun h => ⟨_, command_eq hl.2, e1 h⟩, fun g1 g2 g3 g4 => ⟨_, command_eq hl.2, e2 g1 g2 g3 g4⟩⟩

/-! ### Motion loops: enable, disable -/

theorem loopCtrl_row (l : Fin 8) : RegRef.row (Reg.CEU.LOOP_CTRL l) =
    some ⟨0x100, 8, 0x40, .RW, 0x03FFFFFF, 0x03FFFFFF, 0x0, 0x00000000, false⟩ := by revert l; decide +kernel
theorem mask_ceuStatus : RegRef.mask Reg.CEU.CEU_STATUS = 0x000000FF := by decide +kernel
theorem mask_ceuStatus_bit (l : Fin 8) : (RegRef.mask Reg.CEU.CEU_STATUS).getLsbD l = true := by
  rw [mask_ceuStatus]; revert l; decide
theorem mask_ageLast (l : Fin 8) : RegRef.mask (Reg.CEU.AGE_LAST l) = 0xFFFFFFFF := by revert l; decide +kernel
theorem mask_staleCnt (l : Fin 8) : RegRef.mask (Reg.CEU.STALE_CNT l) = 0xFFFFFFFF := by revert l; decide +kernel
theorem mask_supCnt (l : Fin 8) : RegRef.mask (Reg.CEU.SUP_CNT l) = 0xFFFFFFFF := by revert l; decide +kernel
theorem mask_framesSent : RegRef.mask Reg.CEU.FRAMES_SENT = 0xFFFFFFFF := by decide +kernel
theorem mask_tplSeq (i : Fin 16) : RegRef.mask (Reg.CEU.TPL_SEQ i) = 0xFFFFFFFF := by revert i; decide +kernel

theorem loop_run_loop {s : State} {l : Nat} (h : l < s.hw.mot.loops.length) (f : LoopSt → LoopSt) :
    ((Act.loop l f).run s).loop l = f (s.loop l) := by
  simp only [State.loop, Act.loop, Act.mot, run_hw, mapHw_hw]
  rw [getD_updAt, if_pos h]

theorem loops_length (l : Nat) (f : LoopSt → LoopSt) (s : State) : ((Act.loop l f).run s).hw.mot.loops.length = s.hw.mot.loops.length :=
  length_updAt _ _ _

/-- The smallest multiple that reaches a number. -/
theorem ceilDiv_spec (a : Nat) {b : Nat} (hb : 0 < b) : a ≤ ceilDiv a b * b ∧ (0 < ceilDiv a b → (ceilDiv a b - 1) * b < a) := by
  rw [ceilDiv, if_neg (by omega)]
  have h1 := Nat.div_add_mod (a + b - 1) b
  have h2 := Nat.mod_lt (a + b - 1) hb
  generalize (a + b - 1) / b = k at h1 ⊢
  rw [Nat.mul_comm] at h1
  refine ⟨by omega, fun hk => ?_⟩
  rw [Nat.sub_mul, Nat.one_mul]
  have : b ≤ k * b := Nat.le_mul_of_pos_left b hk
  omega

/-- The first cycle of a loop enabled in `s` starts at least 10 µs later, and no cycle before it does (R382). -/
theorem cycleStart_first (s : State) (l : Nat) :
    let k := ceilDiv (s.now + 10000 - s.loopBase l) (s.loopPeriod l)
    s.now + 10000 ≤ s.cycleStart l k ∧ (0 < k → s.cycleStart l (k - 1) < s.now + 10000) := by
  obtain ⟨h1, h2⟩ := ceilDiv_spec (s.now + 10000 - s.loopBase l) (b := s.loopPeriod l) (by unfold State.loopPeriod; omega)
  simp only [State.cycleStart]
  refine ⟨by omega, fun hk => ?_⟩
  have := h2 hk
  omega

/-- The registers of a loop beside LOOP_CTRL decide its cycles. -/
theorem loopTimes_congr {s q : State} {l : Nat} (h : ∀ off ∈ [0x104, 0x108, 0x10C], q.rd ⟨.CEU, 0, off + 0x40 * l⟩ = s.rd ⟨.CEU, 0, off + 0x40 * l⟩) :
    q.loopBase l = s.loopBase l ∧ q.loopPeriod l = s.loopPeriod l := by
  simp only [List.mem_cons, List.not_mem_nil, or_false, forall_eq_or_imp, forall_eq] at h
  obtain ⟨h1, h2, h3⟩ := h
  simp only [State.loopBase, State.loopPeriod, State.rd64]
  exact ⟨by rw [h1, h2], by rw [h3]⟩

theorem ceuWrite_loopCtrl (l : Fin 8) (old v : Word) : ceuWrite (0x100 + 0x40 * l.val) old v = loopCtrlAct l old v := by
  have h := l.isLt
  have h1 : (0x100 + 0x40 * l.val - 0x100) % 0x40 = 0 := by omega
  have h2 : (0x100 + 0x40 * l.val - 0x100) / 0x40 = l := by omega
  rw [ceuWrite, if_pos ⟨by omega, by omega, h1⟩, h2]

theorem blockWrite_loopCtrl (l : Fin 8) (old v : Word) : blockWrite 0 .CEU 0 (0x100 + 0x40 * l.val) old v = loopCtrlAct l old v :=
  (if_neg (by omega)).trans (ceuWrite_loopCtrl l old v)

/-- A loop enabled at `now`, its first cycle `k` (R382). -/
def startedLoop (k now : Nat) : LoopSt :=
  { first := k, strobe := k, sample := k, cut := k, launch := k, perc := k, prev := now, failed := k }

theorem loopEnable_run (s : State) (l : Nat) : (loopEnable l).run s = (Act.setFld Reg.CEU.CEU_STATUS l l 1).run
    ((Act.loop l fun _ => startedLoop (ceilDiv (s.now + 10000 - s.loopBase l) (s.loopPeriod l)) s.now).run s) := rfl

theorem loopEnable_effect {s : State} (hl : s.live) (l : Fin 8) (v : Word) (hacc : s.accepts 0 (Reg.CEU.LOOP_CTRL l) (v ||| 1) = true)
    (hoff : s.bit (Reg.CEU.LOOP_CTRL l) 0 = false) (hlen : l.val < s.hw.mot.loops.length) :
    let t := (hostReg 0 (Reg.CEU.LOOP_CTRL l) (v ||| 1)).run s
    t.bit (Reg.CEU.LOOP_CTRL l) 0 = true ∧ t.bit Reg.CEU.CEU_STATUS l = true ∧
      s.now + 10000 ≤ s.cycleStart l (t.loop l).first ∧
      (0 < (t.loop l).first → s.cycleStart l ((t.loop l).first - 1) < s.now + 10000) ∧
      (t.loop l).cut = (t.loop l).first ∧ (t.loop l).launch = (t.loop l).first ∧
      SameRegs ([Reg.CEU.LOOP_CTRL l, Reg.CEU.CEU_STATUS] ++ hostTrail .CEU 0) s t ∧ t.es = s.es ∧ t.tsc = s.tsc ∧ t.out = s.out := by
  intro t
  have hlt := l.isLt
  obtain ⟨q, hq, hj⟩ : ∃ q, Written s _ _ _ q ∧ Journaled ((loopCtrlAct l (s.hostOld (Reg.CEU.LOOP_CTRL l)) (v ||| 1)).run q) t :=
    hostReg_run hl.1 (loopCtrl_row l) hacc (blockWrite_loopCtrl l _ _)
  have hold : s.hostOld (Reg.CEU.LOOP_CTRL l) = s.rd (Reg.CEU.LOOP_CTRL l) := hostOld_self (loopCtrl_row l) rfl rfl
  have hrun : (loopCtrlAct l (s.hostOld (Reg.CEU.LOOP_CTRL l)) (v ||| 1)).run q = (loopEnable l).run q := by
    rw [loopCtrlAct, if_pos ⟨getLsbD_or_one v, by rw [hold]; simpa [State.bit] using hoff⟩]
  obtain ⟨hbase, hper⟩ := loopTimes_congr (s := s) (q := q) (l := l) fun off ho => hq.rd_off
    (by simp only [List.mem_cons, List.not_mem_nil, or_false] at ho; simp only; omega)
    (by simp only [List.mem_cons, List.not_mem_nil, or_false] at ho; simp only; omega)
  have hnow : q.now = s.now := congrArg BitVec.toNat hq.rest.tsc
  obtain ⟨c1, c2⟩ := cycleStart_first s l
  rw [hrun, loopEnable_run, hbase, hper, hnow] at hj
  generalize ceilDiv (s.now + 10000 - s.loopBase l) (s.loopPeriod l) = k at c1 c2 hj
  have hloop := loop_run_loop (s := q) (l := l) (by rw [hq.hw]; exact hlen) fun _ => startedLoop k s.now
  generalize hu : (Act.loop l fun _ => startedLoop k s.now).run q = u at hj hloop
  have hurise : keysRise u.regs := by rw [← hu]; exact hq.rise
  have hurest : SameRest q u := by rw [← hu]; exact ⟨rfl, rfl, rfl, rfl, rfl⟩
  have hurd (r : RegRef) : u.rd r = q.rd r := by rw [← hu]; rfl
  have ht : t.loop l = startedLoop k s.now :=
    (congrArg (fun m : MotSt => m.loops.getD l {}) (hj.part (·.mot))).trans hloop
  have hrd {off : Nat} (ho : off < 4096) := hj.rd (r := ⟨.CEU, 0, off⟩) (by simp [Blk.count]) ho (by simp) (by simp)
  rw [ht]
  refine ⟨?_, ?_, c1, c2, rfl, rfl, ?_, ?_⟩
  · refine (congrArg (BitVec.getLsbD · 0) ((hrd (off := 0x100 + 0x40 * l) (by omega)).trans
      ((rd_setReg_off (r := Reg.CEU.CEU_STATUS) (by simp; omega)).trans ((hurd _).trans (hq.stored rfl (by simp; omega)))))).trans ?_
    simp [storedValue]
  · exact (congrArg (BitVec.getLsbD · l) (hrd (off := 0x044) (by decide))).trans (bit_setFld hurise (mask_ceuStatus_bit l))
  · exact hj.sameRegs (b := .CEU) (i := 0) (l' := [Reg.CEU.CEU_STATUS]) hq.regs (fun r hr => ((quiet_setReg u _ _).regs r hr).trans (hurd r))
      (by simp [hostTrail]) (by simp) fun x hx => by simp [hx]
  · exact hq.sameRest (u := (Act.setFld Reg.CEU.CEU_STATUS l l 1).run u) ⟨hurest.mem, hurest.poison, hurest.es, hurest.tsc, hurest.out⟩ hj

theorem loopDisable_effect {s : State} (hl : s.live) (l : Fin 8) (v : Word)
    (hacc : s.accepts 0 (Reg.CEU.LOOP_CTRL l) (v &&& ~~~ 1) = true)
    (hon : s.bit (Reg.CEU.LOOP_CTRL l) 0 = true) (hlen : l.val < s.hw.mot.loops.length) :
    let t := (hostReg 0 (Reg.CEU.LOOP_CTRL l) (v &&& ~~~ 1)).run s
    t.bit (Reg.CEU.LOOP_CTRL l) 0 = false ∧ t.bit Reg.CEU.CEU_STATUS l = false ∧
      (t.loop l).sel = none ∧ SameRegs ([Reg.CEU.LOOP_CTRL l, Reg.CEU.CEU_STATUS, Reg.CEU.CYCLE l] ++ hostTrail .CEU 0) s t ∧
      t.es = s.es ∧ t.tsc = s.tsc ∧ t.out = s.out := by
  intro t
  have hlt := l.isLt
  have hv : (v &&& ~~~ 1).getLsbD 0 = false := by simp
  obtain ⟨q, hq, hj⟩ : ∃ q, Written s _ _ _ q ∧ Journaled ((loopCtrlAct l (s.hostOld (Reg.CEU.LOOP_CTRL l)) (v &&& ~~~ 1)).run q) t :=
    hostReg_run hl.1 (loopCtrl_row l) hacc (blockWrite_loopCtrl l _ _)
  have hold : s.hostOld (Reg.CEU.LOOP_CTRL l) = s.rd (Reg.CEU.LOOP_CTRL l) := hostOld_self (loopCtrl_row l) rfl rfl
  have hrun : (loopCtrlAct l (s.hostOld (Reg.CEU.LOOP_CTRL l)) (v &&& ~~~ 1)).run q = (loopDisable l).run q := by
    rw [loopCtrlAct, if_neg (fun h => by rw [hv] at h; exact Bool.false_ne_true h.1),
      if_pos ⟨by rw [hv]; rfl, by rw [hold]; exact hon⟩]
  rw [hrun, loopDisable, run_get, run_all_cons, run_all_cons, run_all_cons, run_all_nil, run_wrN] at hj
  generalize (if q.cycleStart l (q.loop l).first ≤ q.now then q.cycleAt l q.now - (q.loop l).first + 1 else 0) = n at hj
  have hloop := loop_run_loop (s := q) (l := l) (by rw [hq.hw]; exact hlen) fun x => { x with sel := none }
  generalize hu : (Act.loop l fun x => { x with sel := none }).run q = u at hj hloop
  have hurise : keysRise u.regs := by rw [← hu]; exact hq.rise
  have hurest : SameRest q u := by rw [← hu]; exact ⟨rfl, rfl, rfl, rfl, rfl⟩
  have hurd (r : RegRef) : u.rd r = q.rd r := by rw [← hu]; rfl
  let w := (Act.setFld Reg.CEU.CEU_STATUS l l 0).run u
  have hrd {off : Nat} (ho : off < 4096) := hj.rd (r := ⟨.CEU, 0, off⟩) (by simp [Blk.count]) ho (by simp) (by simp)
  refine ⟨?_, ?_, ?_, ?_, ?_⟩
  · refine (congrArg (BitVec.getLsbD · 0) ((hrd (off := 0x100 + 0x40 * l) (by omega)).trans
      ((rd_setReg_off (r := Reg.CEU.CYCLE l) (by simp; omega)).trans
      ((rd_setReg_off (r := Reg.CEU.CEU_STATUS) (by simp; omega)).trans ((hurd _).trans (hq.stored rfl (by simp; omega))))))).trans ?_
    simp [storedValue]
  · refine (congrArg (BitVec.getLsbD · l) ((hrd (off := 0x044) (by decide)).trans
      (rd_setReg_off (r := Reg.CEU.CYCLE l) (by simp; omega)))).trans ?_
    exact (bit_setFld hurise (mask_ceuStatus_bit l)).trans rfl
  · exact (congrArg (fun m : MotSt => (m.loops.getD l {}).sel) (hj.part (·.mot))).trans (congrArg LoopSt.sel hloop)
  · refine hj.sameRegs (b := .CEU) (i := 0) (l' := [Reg.CEU.CEU_STATUS, Reg.CEU.CYCLE l]) hq.regs (fun r hr => ?_)
      (by simp [hostTrail]) (by simp) fun x hx => by simp [hx]
    have h1 := (quiet_setReg w (Reg.CEU.CYCLE l) (BitVec.ofNat 32 n)).regs r fun h => hr (by simp at h ⊢; exact .inr h)
    have h2 := (quiet_setReg u Reg.CEU.CEU_STATUS (setBits (u.rd Reg.CEU.CEU_STATUS) l l 0)).regs r fun h => hr (by simp at h ⊢; exact .inl h)
    exact h1.trans (h2.trans (hurd r))
  · exact hq.sameRest (u := w.setReg _ _) ⟨hurest.mem, hurest.poison, hurest.es, hurest.tsc, hurest.out⟩ hj

/-! ### Motion loops: strobe, sample trigger -/

/-- A program that stores no register leaves the register list alone. -/
theorem Act.Only.regs_eq {p : Scope} {a : Act} (ha : a.Only p) (hr : ∀ r, ¬p.reg r) (hp : ¬p.reset) (s : State) : (a.run s).regs = s.regs := by
  refine run_only (R := fun s t => t.regs = s.regs) (fun _ => rfl) (fun h k => k.trans h) (fun u hu s => ?_) ha s
  cases u with
  | reg r v => exact absurd hu (hr r)
  | resetRegs k => exact absurd hu hp
  | bytes a l => exact apply_bytes_regs ..
  | _ => rfl

theorem ceuStrobe_effect {s : State} {l : Nat} (hlen : l < s.hw.mot.loops.length) (h1 : s.bit (Reg.CEU.LOOP_CTRL l) 15 = true)
    (h2 : s.reached l (s.loop l).strobe (s.rd (Reg.CEU.STROBE_OFS l)).toNat = true) :
    let t := (ceuStrobeAct l).run s
    (t.loop l).strobe = (s.loop l).strobe + 1 ∧ t.regs = s.regs ∧ t.mem = s.mem ∧ t.es = s.es ∧ t.tsc = s.tsc := by
  let u := (Act.loop l fun x => { x with strobe := x.strobe + 1 }).run s
  have hrun : (ceuStrobeAct l).run s = (pinPulse 4 l).run u := by
    rw [ceuStrobeAct, run_get, run_when, if_pos (by rw [h1, h2]; rfl)]
    rfl
  have honly : (pinPulse 4 l).Only { hw := fun _ => False, out := True } := by simp [pinPulse]
  rw [hrun]
  refine ⟨?_, honly.regs_eq (fun _ => id) id u, honly.mem id u, honly.es id u, honly.tsc id u⟩
  have h : ((pinPulse 4 l).run u).loop l = u.loop l := honly.hw (fun h => h.mot.loops.getD l {}) (fun _ h => h.elim) u
  rw [h, loop_run_loop hlen]

theorem ceuSample_effect {s : State} {l : Nat} (hlen : l < s.hw.mot.loops.length)
    (h : s.reached l (s.loop l).sample (s.rd (Reg.CEU.SAMPLE_OFS l)).toNat = true) :
    let t := (ceuSampleAct l).run s
    (t.loop l).sample = (s.loop l).sample + 1 ∧
      (s.bit Reg.SSI.SET_TRIG 0 = true → s.fld Reg.SSI.SET_TRIG 3 1 = l → s.bit Reg.SSI.SSI_CTRL 0 = true → s.hw.mot.set_ = none →
        t.hw.mot.set_.map (·.stamp) = some s.burstStart) ∧
      SameRegs ([Reg.SSI.SSI_STATUS, Reg.SSI.OVERRUN_CNT] ++ irqOf .SSI 0) s t ∧ SameRest s t := by
  let u := (Act.loop l fun x => { x with sample := x.sample + 1 }).run s
  let go := s.bit Reg.SSI.SET_TRIG 0 && s.fld Reg.SSI.SET_TRIG 3 1 == l
  have hrun : (ceuSampleAct l).run s = (Act.when go ssiTriggerAct).run u := by
    rw [ceuSampleAct, run_get, run_when, if_pos h]
    rfl
  have hloops : (Act.when go ssiTriggerAct).Only (.hwOnly fun f => ∀ h : Hw, (f h).mot.loops = h.mot.loops) := by
    simp [ssiTriggerAct, Hw.setEdge]
  have honly : (Act.when go ssiTriggerAct).Only (.regs ([Reg.SSI.SSI_STATUS, Reg.SSI.OVERRUN_CNT] ++ irqOf .SSI 0)) :=
    (only_when _ _).2 fun _ => only_ssiTrigger
  obtain ⟨hregs, hrest⟩ := honly.frame u
  rw [hrun]
  refine ⟨?_, fun g1 g2 g3 g4 => ?_, hregs, ⟨hrest.mem, hrest.poison, hrest.es, hrest.tsc, hrest.out⟩⟩
  · have hk := hloops.part (π := fun h => h.mot.loops) u
    have hl : ((Act.when go ssiTriggerAct).run u).loop l = u.loop l := congrArg (fun x : List LoopSt => x.getD l {}) hk
    rw [hl, loop_run_loop hlen]
  · have hgo : go = true := by simp only [go, g1, g2, beq_self_eq_true, Bool.and_self]
    have hu : u.burstStart = s.burstStart := rfl
    have hu' : u.now = s.now := rfl
    rw [hgo, run_when, if_pos rfl, ssiTrigger_run (s := u) g3 g4, hu, hu']
    split
    next => rfl
    next hge => exact congrArg some (Nat.le_antisymm (now_le_burstStart s) (Nat.le_of_not_lt hge))

/-! ### Motion loops: cutoff, launch, perception window -/

/-- The listed registers, and block state beside the motion blocks'. -/
def Scope.besideMotion (l : List RegRef) : Scope := { reg := (· ∈ l), hw := fun f => ∀ h : Hw, (f h).mot = h.mot }

@[simp] theorem besideMotion_reg (l : List RegRef) (r : RegRef) : (Scope.besideMotion l).reg r ↔ r ∈ l := .rfl
@[simp] theorem besideMotion_hw (l : List RegRef) (f : Hw → Hw) : (Scope.besideMotion l).hw f ↔ ∀ h : Hw, (f h).mot = h.mot := .rfl

theorem units_consumeTo (n cut : Nat) : (consumeTo n cut).Only .units := by
  simp [consumeTo, Act.stream, Hw.sansUnits]

theorem units_recent (n : Nat) (f : StreamSt → StreamSt) : (Act.stream n f).Only .units := fun _ => rfl

/-- A loop's report (R390, R391). -/
theorem only_reportLoop (l : Nat) {x : List RegRef} (h : irqOf .CEU 0 ⊆ x) : (Act.seq (ceuRaise l) (loopToSafe l)).Only (.besideMotion x) := by
  have hr : (ceuRaise l).Only (.besideMotion x) := only_raise (h (by simp [irqOf])) (h (by simp [irqOf])) fun _ _ => rfl
  simp [hr, loopToSafe]

theorem ageUnit_effect {s : State} (hs : keysRise s.regs) (l : Fin 8) (hlen : l.val < s.hw.mot.loops.length) (launch : Nat) (u : DUnit)
    (stale : Bool) :
    let t := (ageUnit l launch u stale).run s
    (t.loop l).sel.map (·.1) = some u ∧ (t.loop l).cut = (s.loop l).cut ∧ (t.loop l).prev = (s.loop l).prev ∧
      (t.rd (Reg.CEU.AGE_LAST l)).toNat = min (launch - u.stamp.toNat) 4294967295 ∧ t.es = s.es ∧ t.tsc = s.tsc ∧ t.out = s.out := by
  obtain ⟨age, hage⟩ : ∃ age, age = launch - u.stamp.toNat := ⟨_, rfl⟩
  obtain ⟨excess, hexc⟩ : ∃ excess, excess = decide ((s.rd (Reg.CEU.AGE_MAX l)).toNat < age) := ⟨_, rfl⟩
  let v := s.setReg (Reg.CEU.AGE_LAST l) (BitVec.ofNat 32 (min age 4294967295))
  let mid : Act := .seq (.maxReg (Reg.CEU.AGE_PEAK l) age) (.when excess (.seq (ceuRaise l) (loopToSafe l)))
  have hrun : (ageUnit l launch u stale).run s = (Act.loop l fun x => { x with sel := some (u, stale, excess) }).run (mid.run v) := by
    simp only [mid, v, hexc, hage]; rfl
  have hmid : mid.Only (.besideMotion (Reg.CEU.AGE_PEAK l :: irqOf .CEU 0)) :=
    ⟨only_maxReg _ (by simp), (only_when _ _).2 fun _ => only_reportLoop l (by simp)⟩
  have hmot := hmid.hw (fun h => h.mot) (fun _ h => h) v
  have hrd : (mid.run v).rd (Reg.CEU.AGE_LAST l) = v.rd (Reg.CEU.AGE_LAST l) := hmid.rd id (fun r hr => by
    simp only [besideMotion_reg, irqOf, List.mem_cons, List.not_mem_nil, or_false] at hr
    rcases hr with rfl | rfl | rfl <;> exact key_ne_of_off (by simp; omega)) v
  have hlen' : l.val < (mid.run v).hw.mot.loops.length := by rw [hmot]; exact hlen
  have hloop := loop_run_loop hlen' fun x => { x with sel := some (u, stale, excess) }
  have hold : (mid.run v).loop l = s.loop l := congrArg (fun m : MotSt => m.loops.getD l {}) hmot
  rw [hold] at hloop
  rw [hrun]
  refine ⟨?_, (congrArg LoopSt.cut hloop).trans rfl, (congrArg LoopSt.prev hloop).trans rfl, ?_, hmid.es id v, hmid.tsc id v, hmid.out id v⟩
  · exact congrArg (fun x : LoopSt => x.sel.map (·.1)) hloop
  · refine (congrArg BitVec.toNat (hrd.trans (rd_setReg_full hs (mask_ageLast l) _))).trans ?_
    rw [BitVec.toNat_ofNat, hage]
    exact Nat.mod_eq_of_lt (by omega)

/-- A supervision failure of cycle `k` (R390). -/
theorem supFailure_effect {s : State} (hs : keysRise s.regs) (l : Fin 8) (hlen : l.val < s.hw.mot.loops.length) (k : Nat) :
    let t := (supFailure l k).run s
    ((s.loop l).failed ≤ k → Counts (Reg.CEU.SUP_CNT l) 1 s t ∧ t.pend .CEU 0 l = true ∧ (t.loop l).failed = k + 1) ∧
      (k < (s.loop l).failed → t.rd (Reg.CEU.SUP_CNT l) = s.rd (Reg.CEU.SUP_CNT l)) ∧
      { t.loop l with failed := 0 } = { s.loop l with failed := 0 } ∧
      SameRegs (Reg.CEU.SUP_CNT l :: irqOf .CEU 0) s t ∧ SameRest s t := by
  let go := decide ((s.loop l).failed ≤ k)
  let body : Act := .all [.loop l fun x => { x with failed := k + 1 }, .bump (Reg.CEU.SUP_CNT l) 1, ceuRaise l, loopToSafe l]
  have hrun : (supFailure l k).run s = if go then body.run s else s := (run_when _ _ _)
  have hframe : (supFailure l k).Only (.regs (Reg.CEU.SUP_CNT l :: irqOf .CEU 0)) := by
    simp [supFailure, ceuRaise, loopToSafe, irqOf]
  obtain ⟨hregs, hrest⟩ := hframe.frame s
  let u := (Act.loop l fun x => { x with failed := k + 1 }).run s
  let v := (Act.bump (Reg.CEU.SUP_CNT l) 1).run u
  have hu : keysRise u.regs := hs
  have hv : keysRise v.regs := rise_run _ hu
  have hlast := only_reportLoop l (x := irqOf .CEU 0) (by simp)
  have hbody : body.run s = (Act.seq (ceuRaise l) (loopToSafe l)).run v := rfl
  have hmot : (body.run s).hw.mot = u.hw.mot := by
    rw [hbody, hlast.hw (fun h => h.mot) (fun _ h => h) v]
    obtain ⟨e, he⟩ := (quiet_bump u (Reg.CEU.SUP_CNT l) 1).hw
    rw [show v.hw = _ from he]
  have hloop : (body.run s).loop l = { s.loop l with failed := k + 1 } :=
    (congrArg (fun m : MotSt => m.loops.getD l {}) hmot).trans (loop_run_loop hlen _)
  rw [hrun]
  by_cases hgo : (s.loop l).failed ≤ k
  · rw [if_pos (decide_eq_true hgo)]
    rw [hrun, if_pos (decide_eq_true hgo)] at hregs hrest
    refine ⟨fun _ => ⟨fun h => ?_, ?_, by rw [hloop]⟩, fun h => absurd h (by omega), by rw [hloop], hregs, hrest⟩
    · have hk : (body.run s).rd (Reg.CEU.SUP_CNT l) = v.rd (Reg.CEU.SUP_CNT l) := by
        rw [hbody]
        exact hlast.rd id (fun r hr => by
          simp only [besideMotion_reg, irqOf, List.mem_cons, List.not_mem_nil, or_false] at hr
          rcases hr with rfl | rfl <;> exact key_ne_of_off (by simp; omega)) v
      rw [hk]
      exact counts_bump hu (mask_supCnt l) 1 h
    · have hpend : ((ceuRaise l).run v).pend .CEU 0 l = true := bit_raise hv (by decide) (by omega)
      have hsafe : (loopToSafe l).Only { hw := fun _ => True } := by simp [loopToSafe]
      rw [hbody, run_seq]
      exact (congrArg (BitVec.getLsbD · l) (hsafe.rd (r := Reg.HDR.IRQ_PEND .CEU 0) id (fun _ h => h.elim) _)).trans hpend
  · rw [if_neg (by rw [decide_eq_true_eq]; exact hgo)]
    rw [hrun, if_neg (by rw [decide_eq_true_eq]; exact hgo)] at hregs hrest
    exact ⟨fun h => absurd h hgo, fun _ => rfl, rfl, hregs, hrest⟩

theorem percClose_effect {s : State} (hs : keysRise s.regs) (l : Fin 8) (hlen : l.val < s.hw.mot.loops.length) (hon : s.loopOn l = true)
    (hc : s.cycleStart l (s.loop l).perc + (s.rd (Reg.CEU.PERC_CLOSE l)).toNat ≤ s.now) :
    let t := (percCloseAct l).run s
    let k := (s.loop l).perc
    (t.loop l).perc = k + 1 ∧
      ((s.loop l).failed ≤ k → Counts (Reg.CEU.SUP_CNT l) 1 s t ∧ t.pend .CEU 0 l = true ∧ (t.loop l).failed = k + 1) ∧
      (k < (s.loop l).failed → t.rd (Reg.CEU.SUP_CNT l) = s.rd (Reg.CEU.SUP_CNT l)) ∧
      SameRegs (Reg.CEU.SUP_CNT l :: irqOf .CEU 0) s t ∧ SameRest s t := by
  let u := (Act.loop l fun x => { x with perc := (s.loop l).perc + 1 }).run s
  have hu : u.loop l = { s.loop l with perc := (s.loop l).perc + 1 } := loop_run_loop hlen _
  have hrun : (percCloseAct l).run s = (supFailure l (s.loop l).perc).run u := by
    rw [percCloseAct, run_get, run_when, if_pos (by rw [hon, decide_eq_true hc]; rfl)]
    rfl
  obtain ⟨e1, e2, e3, e4, e5⟩ := supFailure_effect (s := u) hs l ((loops_length _ _ s).symm ▸ hlen) (s.loop l).perc
  rw [hu] at e1 e2 e3
  rw [hrun]
  exact ⟨congrArg LoopSt.perc e3, e1, e2, e4, ⟨e5.mem, e5.poison, e5.es, e5.tsc, e5.out⟩⟩

/-- The units a loop's cutoff selects from (R383). -/
def State.cutUnits (s : State) (l : Nat) : List DUnit :=
  ((s.streamSt (s.fld (Reg.CEU.LOOP_CTRL l) 13 5)).recent.filter fun e =>
    decide ((s.loop l).prev < e.1 ∧ e.1 ≤ s.cutoff l (s.loop l).cut)).map (·.2)

/-- What follows the selection at a cutoff: the units are consumed, old ones forgotten. -/
def cutTail (s : State) (l : Nat) : Act := .seq (consumeTo (s.fld (Reg.CEU.LOOP_CTRL l) 13 5) (s.cutoff l (s.loop l).cut))
  (.stream (s.fld (Reg.CEU.LOOP_CTRL l) 13 5) fun st => { st with recent := st.recent.filter fun e => decide (s.now < e.1 + 1000000000) })

/-- A loop's state as its cutoff begins. -/
def cutHead (s : State) (l : Nat) : Act :=
  .loop l fun y => { y with cut := (s.loop l).cut + 1, prev := s.cutoff l (s.loop l).cut, sel := none }

theorem ceuCutoff_run {s : State} {l : Nat} (hon : s.loopOn l = true) (hc : s.cutoff l (s.loop l).cut ≤ s.now) :
    (∀ u, newest (s.cutUnits l) = some u → s.tooLong (s.fld (Reg.CEU.LOOP_CTRL l) 4 1) u = false →
      (ceuCutoffAct l).run s = (cutTail s l).run ((ageUnit l (s.cutoff l (s.loop l).cut + 2000) u false).run ((cutHead s l).run s))) ∧
    (newest (s.cutUnits l) = none → s.bit (Reg.CEU.LOOP_CTRL l) 14 = false →
      (ceuCutoffAct l).run s = (cutTail s l).run ((supFailure l (s.loop l).cut).run
        ((Act.when ((s.loop l).cut < (s.loop l).failed) (ceuRaise l)).run ((Act.bump (Reg.CEU.STALE_CNT l) 1).run ((cutHead s l).run s))))) := by
  have hcond : (s.loopOn l && decide (s.cutoff l (s.loop l).cut ≤ s.now)) = true := by rw [hon, decide_eq_true hc]; rfl
  refine ⟨fun u hu hlong => ?_, fun hu hrep => ?_⟩
  · unfold State.cutUnits at hu
    rw [ceuCutoffAct, run_get, run_when, if_pos hcond, hu]
    simp only [hlong, Bool.false_eq_true, if_false]
    rfl
  · unfold State.cutUnits at hu
    rw [ceuCutoffAct, run_get, run_when, if_pos hcond, hu]
    simp only [hrep]
    rfl

theorem units_cutTail (s : State) (l : Nat) : (cutTail s l).Only .units := ⟨units_consumeTo _ _, units_recent _ _⟩

theorem cutHead_loop {s : State} {l : Nat} (hlen : l < s.hw.mot.loops.length) : ((cutHead s l).run s).loop l =
    { s.loop l with cut := (s.loop l).cut + 1, prev := s.cutoff l (s.loop l).cut, sel := none } := loop_run_loop hlen _

theorem ceuCutoff_unit {s : State} (hs : keysRise s.regs) (l : Fin 8) (hlen : l.val < s.hw.mot.loops.length) (hon : s.loopOn l = true)
    (hc : s.cutoff l (s.loop l).cut ≤ s.now) {u : DUnit} (hu : newest (s.cutUnits l) = some u)
    (hlong : s.tooLong (s.fld (Reg.CEU.LOOP_CTRL l) 4 1) u = false) :
    let t := (ceuCutoffAct l).run s
    let cut := s.cutoff l (s.loop l).cut
    (t.loop l).cut = (s.loop l).cut + 1 ∧ (t.loop l).prev = cut ∧ (t.loop l).sel.map (·.1) = some u ∧
      (t.rd (Reg.CEU.AGE_LAST l)).toNat = min (cut + 2000 - u.stamp.toNat) 4294967295 ∧ t.es = s.es ∧ t.tsc = s.tsc ∧ t.out = s.out := by
  rw [(ceuCutoff_run hon hc).1 u hu hlong]
  have hhead := cutHead_loop hlen
  have hlen' : l.val < ((cutHead s l).run s).hw.mot.loops.length := (loops_length _ _ s).symm ▸ hlen
  obtain ⟨e1, e2, e3, e4, e5, e6, e7⟩ := ageUnit_effect (s := (cutHead s l).run s) hs l hlen' (s.cutoff l (s.loop l).cut + 2000) u false
  rw [hhead] at e2 e3
  have ht := units_cutTail s l
  generalize (ageUnit l (s.cutoff l (s.loop l).cut + 2000) u false).run ((cutHead s l).run s) = v at e1 e2 e3 e4 e5 e6 e7 ⊢
  have hl : ((cutTail s l).run v).loop l = v.loop l := ht.units_part (fun h => h.mot.loops.getD l {}) (fun _ => rfl) v
  intro t cut
  refine ⟨?_, ?_, ?_, ?_, (ht.es id v).trans e5, (ht.tsc id v).trans e6, (ht.out id v).trans e7⟩
  · rw [hl]; exact e2
  · rw [hl]; exact e3
  · rw [hl]; exact e1
  · exact (congrArg BitVec.toNat (ht.units_rd (by simp [RegRef.key, Blk.slot]; omega) v)).trans e4

theorem ceuCutoff_stale {s : State} (hs : keysRise s.regs) (l : Fin 8) (hlen : l.val < s.hw.mot.loops.length) (hon : s.loopOn l = true)
    (hc : s.cutoff l (s.loop l).cut ≤ s.now) (hu : newest (s.cutUnits l) = none) (hrep : s.bit (Reg.CEU.LOOP_CTRL l) 14 = false) :
    let t := (ceuCutoffAct l).run s
    (t.loop l).cut = (s.loop l).cut + 1 ∧ (t.loop l).sel = none ∧
      Counts (Reg.CEU.STALE_CNT l) 1 s t ∧ t.pend .CEU 0 l = true ∧ t.es = s.es ∧ t.tsc = s.tsc ∧ t.out = s.out := by
  rw [(ceuCutoff_run hon hc).2 hu hrep]
  have hhead := cutHead_loop hlen
  have hlen' : l.val < ((cutHead s l).run s).hw.mot.loops.length := (loops_length _ _ s).symm ▸ hlen
  have hheadrd (r : RegRef) : ((cutHead s l).run s).rd r = s.rd r := rfl
  have hheads : keysRise ((cutHead s l).run s).regs := hs
  generalize hh : (cutHead s l).run s = h at hhead hlen' hheadrd hheads
  have hrest : h.es = s.es ∧ h.tsc = s.tsc ∧ h.out = s.out := by rw [← hh]; exact ⟨rfl, rfl, rfl⟩
  let w := (Act.bump (Reg.CEU.STALE_CNT l) 1).run h
  let x := (Act.when ((s.loop l).cut < (s.loop l).failed) (ceuRaise l)).run w
  have hw : Quiet [Reg.CEU.STALE_CNT l] h w := quiet_bump _ _ _
  have hx : Quiet (irqOf .CEU 0) w x := Act.Only.quiet (by simp [ceuRaise, irqOf]) w
  have hwr : keysRise w.regs := rise_run _ hheads
  have hxr : keysRise x.regs := rise_run _ hwr
  have hxmot : x.hw.mot = h.hw.mot := by
    obtain ⟨e, he⟩ := hw.hw
    obtain ⟨e', he'⟩ := hx.hw
    rw [he', he]
  have hxloop : x.loop l = _ := (congrArg (fun m : MotSt => m.loops.getD l {}) hxmot).trans hhead
  obtain ⟨e1, -, e3, e4, e5⟩ := supFailure_effect hxr l (by rw [hxmot]; exact hlen') (s.loop l).cut
  rw [hxloop] at e1 e3
  have hpend : ((supFailure l (s.loop l).cut).run x).pend .CEU 0 l = true := by
    by_cases hf : (s.loop l).failed ≤ (s.loop l).cut
    · exact (e1 hf).2.1
    · have hlt : (s.loop l).cut < (s.loop l).failed := by omega
      have hxp : x.pend .CEU 0 l = true := by
        have hrun : x = (ceuRaise l).run w := (run_when _ _ w).trans (if_pos (decide_eq_true hlt))
        rw [hrun]
        exact bit_raise hwr (by decide) (by omega)
      have hrun : (supFailure l (s.loop l).cut).run x = x := by
        rw [supFailure, run_get, run_when, if_neg (by rw [hxloop, decide_eq_true_eq]; exact hf)]
      rw [hrun]
      exact hxp
  have hcount : Counts (Reg.CEU.STALE_CNT l) 1 s ((supFailure l (s.loop l).cut).run x) := fun hb => by
    rw [e4.rd_off (by simp [irqOf]; omega), hx.regs.rd_off (by simp [irqOf]; omega)]
    have h1 := counts_bump hheads (mask_staleCnt l) 1
    unfold Counts at h1
    rw [hheadrd] at h1
    exact h1 hb
  have ht := units_cutTail s l
  generalize (supFailure l (s.loop l).cut).run x = v at e3 e5 hpend hcount ⊢
  have hl : ((cutTail s l).run v).loop l = v.loop l := ht.units_part (fun h => h.mot.loops.getD l {}) (fun _ => rfl) v
  have hkey {off : Nat} (ho : off < 4096) : RegRef.key ⟨.CEU, 0, off⟩ / 4096 ≠ 0x1B := by simp [RegRef.key, Blk.slot]; omega
  intro t
  refine ⟨?_, ?_, fun hb => ?_, ?_, (ht.es id v).trans (e5.es.trans (hx.es.trans (hw.es.trans hrest.1))),
    (ht.tsc id v).trans (e5.tsc.trans (hx.tsc.trans (hw.tsc.trans hrest.2.1))),
    (ht.out id v).trans (e5.out.trans (hx.out.trans (hw.out.trans hrest.2.2)))⟩
  · rw [hl]; exact congrArg LoopSt.cut e3
  · rw [hl]; exact congrArg LoopSt.sel e3
  · exact (congrArg BitVec.toNat (ht.units_rd (hkey (by omega)) v)).trans (hcount hb)
  · exact (congrArg (BitVec.getLsbD · l) (ht.units_rd (hkey (by decide)) v)).trans hpend

/-- A launch without ports (R397). -/
theorem ceuLaunch_noPorts {s : State} {l : Nat} {u : DUnit} {stale excess : Bool} (hlen : l < s.hw.mot.loops.length)
    (hs : keysRise s.regs) (h1 : (s.loop l).launch < (s.loop l).cut)
    (h2 : s.reached l (s.loop l).launch (s.rd (Reg.CEU.LAUNCH_OFS l)).toNat = true) (hsel : (s.loop l).sel = some (u, stale, excess))
    (hports : s.tplPorts (s.fld (Reg.CEU.LOOP_CTRL l) 4 1) = []) :
    let t := (ceuLaunchAct l).run s
    t.pend .CEU 0 9 = true ∧ (t.loop l).sel = none ∧ SameRegs (irqOf .CEU 0) s t ∧ SameRest s t := by
  let h := (Act.loop l fun y => { y with launch := (s.loop l).launch + 1, sel := none }).run s
  have hrun : (ceuLaunchAct l).run s = (ceuRaise 9).run h := by
    rw [ceuLaunchAct, run_get, run_when, if_pos (by rw [decide_eq_true h1, h2]; rfl), run_seq, hsel]
    simp only [hports, List.isEmpty_nil, if_true]
    rfl
  have hq : Quiet (irqOf .CEU 0) h ((ceuRaise 9).run h) := Act.Only.quiet (by simp [ceuRaise, irqOf]) h
  obtain ⟨e, he⟩ := hq.hw
  have hl : ((ceuRaise 9).run h).loop l = h.loop l := (congrArg (fun x : Hw => x.mot.loops.getD l {}) he).trans rfl
  rw [hrun]
  refine ⟨bit_raise (s := h) hs (by decide) (by decide), ?_, hq.regs, ⟨hq.mem, hq.poison, hq.es, hq.tsc, hq.out⟩⟩
  rw [hl, loop_run_loop hlen]

/-- A frame leaves a port whose gate is open and whose queue is empty (R387). -/
theorem portSend_open {s : State} {p : Nat} {f : TxFrame} (hup : s.tsnUp p = true) (hopen : s.gateOpen p f.pcp = true)
    (hq : (s.tsn p).queue = []) (hk : f.kind = 1) : (portSend p f).run s = s.emit (.tsnFrame p (s.frameBytes p f)) := by
  rw [portSend, run_get, run_when, if_pos hup, hopen, hq]
  simp [frameLeaves, hk]

/-- A launch on one open port: the frame leaves, is counted, and becomes the loop's last. -/
theorem ceuLaunch_run {s : State} {l i : Nat} {u : DUnit} {stale excess : Bool} {p : Nat} (h1 : (s.loop l).launch < (s.loop l).cut)
    (h2 : s.reached l (s.loop l).launch (s.rd (Reg.CEU.LAUNCH_OFS l)).toNat = true) (hsel : (s.loop l).sel = some (u, stale, excess))
    (hi : s.fld (Reg.CEU.LOOP_CTRL l) 4 1 = i) (hports : s.tplPorts i = [p]) (hup : s.tsnUp p = true)
    (hopen : s.gateOpen p (s.fld (Reg.CEU.TPL_VLAN i) 14 12) = true) (hq : (s.tsn p).queue = []) :
    ∃ b, (ceuLaunchAct l).run s = (Act.loop l fun y => { y with body := some u }).run ((Act.bump Reg.CEU.FRAMES_SENT 1).run
      ((((Act.loop l fun y => { y with launch := (s.loop l).launch + 1, sel := none }).run s).emit (.tsnFrame p b)).setReg
        (Reg.CEU.TPL_SEQ i) (s.rd (Reg.CEU.TPL_SEQ i) + 1))) := by
  have hsend (f : TxFrame) (hf : f.pcp = s.fld (Reg.CEU.TPL_VLAN i) 14 12) (hk : f.kind = 1) :
      ∃ b, (portSend p f).run ((Act.loop l fun y => { y with launch := (s.loop l).launch + 1, sel := none }).run s) =
        ((Act.loop l fun y => { y with launch := (s.loop l).launch + 1, sel := none }).run s).emit (.tsnFrame p b) :=
    ⟨_, portSend_open (s := (Act.loop l _).run s) hup (by rw [hf]; exact hopen) hq hk⟩
  rw [ceuLaunchAct, run_get, run_when, if_pos (by rw [decide_eq_true h1, h2]; rfl), run_seq, hsel, hi]
  generalize hh : (Act.loop l fun y => { y with launch := (s.loop l).launch + 1, sel := none }).run s = h at hsend ⊢
  have hrd (r : RegRef) : h.rd r = s.rd r := by rw [← hh]; rfl
  have hsplit (x m : Nat) (v : DUnit) (b c : Act) : ∃ f : TxFrame, f.pcp = h.fld (Reg.CEU.TPL_VLAN i) 14 12 ∧ f.kind = x ∧
      (Act.all [ceuSend i x m v none [p], b, c]).run h = c.run (b.run (((portSend p f).run h).setReg (Reg.CEU.TPL_SEQ i)
        (((portSend p f).run h).rd (Reg.CEU.TPL_SEQ i) + 1))) :=
    ⟨{ tmpl := i, pcp := h.fld (Reg.CEU.TPL_VLAN i) 14 12, kind := x, mflags := m, seq := (h.rd (Reg.CEU.TPL_SEQ i)).toNat,
       unit := v, since := h.now }, rfl, rfl, rfl⟩
  simp only [hports, List.isEmpty_cons, Bool.false_eq_true, if_false]
  obtain ⟨f, hpcp, hkind, hsend'⟩ := hsplit _ _ _ _ _
  rw [hsend']
  obtain ⟨b, hb⟩ := hsend f (hpcp.trans (congrArg (bits · 14 12) (hrd _))) hkind
  refine ⟨b, ?_⟩
  rw [hb]
  exact congrArg (fun w => (Act.loop l fun y => { y with body := some u }).run ((Act.bump Reg.CEU.FRAMES_SENT 1).run
    ((h.emit (.tsnFrame p b)).setReg (Reg.CEU.TPL_SEQ i) (w + 1)))) (hrd _)

/-- A launch on one open port (R387, R389). -/
theorem ceuLaunch_port {s : State} {l : Nat} {u : DUnit} {stale excess : Bool} {p : Nat} (hs : keysRise s.regs)
    (hlen : l < s.hw.mot.loops.length) (h1 : (s.loop l).launch < (s.loop l).cut)
    (h2 : s.reached l (s.loop l).launch (s.rd (Reg.CEU.LAUNCH_OFS l)).toNat = true) (hsel : (s.loop l).sel = some (u, stale, excess))
    {i : Nat} (hi : s.fld (Reg.CEU.LOOP_CTRL l) 4 1 = i) (hports : s.tplPorts i = [p]) (hup : s.tsnUp p = true)
    (hopen : s.gateOpen p (s.fld (Reg.CEU.TPL_VLAN i) 14 12) = true) (hq : (s.tsn p).queue = []) :
    let t := (ceuLaunchAct l).run s
    (∃ b, t.out = s.out ++ [.tsnFrame p b]) ∧ Counts Reg.CEU.FRAMES_SENT 1 s t ∧
      t.rd (Reg.CEU.TPL_SEQ i) = s.rd (Reg.CEU.TPL_SEQ i) + 1 ∧ (t.loop l).launch = (s.loop l).launch + 1 ∧ (t.loop l).sel = none ∧
      (t.loop l).body = some u ∧ SameRegs [Reg.CEU.FRAMES_SENT, Reg.CEU.TPL_SEQ i] s t ∧ t.mem = s.mem ∧ t.es = s.es ∧ t.tsc = s.tsc := by
  have hi16 : i < 16 := by rw [← hi]; exact Nat.mod_lt _ (by decide)
  obtain ⟨b, hrun⟩ := ceuLaunch_run h1 h2 hsel hi hports hup hopen hq
  have hhl : ((Act.loop l fun y => { y with launch := (s.loop l).launch + 1, sel := none }).run s).loop l =
      { s.loop l with launch := (s.loop l).launch + 1, sel := none } := loop_run_loop hlen _
  have hhlen := (loops_length l (fun y => { y with launch := (s.loop l).launch + 1, sel := none }) s).symm ▸ hlen
  have hkeep : SameRegs [] s ((Act.loop l fun y => { y with launch := (s.loop l).launch + 1, sel := none }).run s) := fun _ _ => rfl
  have hh : keysRise ((Act.loop l fun y => { y with launch := (s.loop l).launch + 1, sel := none }).run s).regs := hs
  have hrest : SameRest s ((Act.loop l fun y => { y with launch := (s.loop l).launch + 1, sel := none }).run s) := ⟨rfl, rfl, rfl, rfl, rfl⟩
  generalize (Act.loop l fun y => { y with launch := (s.loop l).launch + 1, sel := none }).run s = h at hrun hhl hhlen hkeep hh hrest
  generalize hv : (h.emit (.tsnFrame p b)).setReg (Reg.CEU.TPL_SEQ i) (s.rd (Reg.CEU.TPL_SEQ i) + 1) = v at hrun
  have hvr : keysRise v.regs := by rw [← hv]; exact keysRise_setReg (s := h.emit (.tsnFrame p b)) hh _ _
  have hvseq : v.rd (Reg.CEU.TPL_SEQ i) = s.rd (Reg.CEU.TPL_SEQ i) + 1 := by
    rw [← hv]; exact rd_setReg_full (s := h.emit (.tsnFrame p b)) hh (mask_tplSeq ⟨i, hi16⟩) _
  have hvs : SameRegs [Reg.CEU.TPL_SEQ i] s v := fun r hr => by
    rw [← hv]; exact ((quiet_setReg (h.emit (.tsnFrame p b)) (Reg.CEU.TPL_SEQ i) _).regs r hr).trans (hkeep r (by simp))
  have hvmot : v.hw.mot = h.hw.mot := by rw [← hv]; rfl
  have hvout : v.out = s.out ++ [.tsnFrame p b] := by rw [← hv]; exact congrArg (· ++ [Out.tsnFrame p b]) hrest.out
  have hvrest : v.mem = s.mem ∧ v.es = s.es ∧ v.tsc = s.tsc := by rw [← hv]; exact ⟨hrest.mem, hrest.es, hrest.tsc⟩
  have hw : Quiet [Reg.CEU.FRAMES_SENT] v ((Act.bump Reg.CEU.FRAMES_SENT 1).run v) := quiet_bump _ _ _
  have hcount := counts_bump hvr mask_framesSent 1
  generalize (Act.bump Reg.CEU.FRAMES_SENT 1).run v = w at hrun hw hcount
  have hwmot : w.hw.mot = h.hw.mot := by
    obtain ⟨e, he⟩ := hw.hw
    rw [he]; exact hvmot
  have hwl : w.loop l = { s.loop l with launch := (s.loop l).launch + 1, sel := none } :=
    (congrArg (fun m : MotSt => m.loops.getD l {}) hwmot).trans hhl
  have hlast := loop_run_loop (s := w) (l := l) (by rw [hwmot]; exact hhlen) fun y => { y with body := some u }
  rw [hwl] at hlast
  have hend : SameRegs [] w ((Act.loop l fun y => { y with body := some u }).run w) := fun _ _ => rfl
  have hendrest : SameRest w ((Act.loop l fun y => { y with body := some u }).run w) := ⟨rfl, rfl, rfl, rfl, rfl⟩
  rw [hrun]
  generalize (Act.loop l fun y => { y with body := some u }).run w = t at hlast hend hendrest
  refine ⟨⟨b, hendrest.out.trans (hw.out.trans hvout)⟩, fun hc => ?_, ?_, congrArg LoopSt.launch hlast, congrArg LoopSt.sel hlast,
    congrArg LoopSt.body hlast, ?_, hendrest.mem.trans (hw.mem.trans hvrest.1), hendrest.es.trans (hw.es.trans hvrest.2.1),
    hendrest.tsc.trans (hw.tsc.trans hvrest.2.2)⟩
  · have hfs : v.rd Reg.CEU.FRAMES_SENT = s.rd Reg.CEU.FRAMES_SENT := hvs.rd_off (by simp; omega)
    unfold Counts at hcount
    rw [hfs] at hcount
    exact (congrArg BitVec.toNat (hend _ (by simp))).trans (hcount hc)
  · exact (hend _ (by simp)).trans ((hw.regs.rd_off (by simp; omega)).trans hvseq)
  · exact ((hvs.mono (by simp)).trans (hw.regs.mono (by simp))).trans (hend.mono (by simp))

/-- Settles O45. -/
theorem motionLoops : Obligations.MotionLoops := by
  refine ⟨fun s l v hl hacc hoff hlen => ⟨_, command_eq hl.2, loopEnable_effect hl l v hacc hoff hlen⟩,
    fun s l v hl hacc hon hlen => ⟨_, command_eq hl.2, loopDisable_effect hl l v hacc hon hlen⟩,
    fun s l hl hlen => ⟨fun h1 h2 => ⟨_, command_eq hl.2, ceuStrobe_effect hlen h1 h2⟩,
      fun h => ⟨_, simply_eq hl.2, ceuSample_effect hlen h⟩, fun h => ?_⟩,
    fun s l hl hlen hon => ?_, fun s l u stale excess hl hlen h1 h2 hsel => ?_, fun s l hl hlen hon => ?_⟩
  · have hrun : (ceuStrobeAct l).run s = s := by
      rw [ceuStrobeAct, run_get, run_when, if_neg (by rw [h, Bool.and_false]; exact Bool.false_ne_true)]
    exact (command_eq hl.2).trans (by rw [hrun])
  · intro cut us hc
    exact ⟨fun u hu hlong => ⟨_, command_eq hl.2, ceuCutoff_unit hl.1.1.1 l hlen hon hc hu hlong⟩,
      fun hu hrep => ⟨_, command_eq hl.2, ceuCutoff_stale hl.1.1.1 l hlen hon hc hu hrep⟩⟩
  · intro i
    exact ⟨fun p hp hup hopen hq => ⟨_, command_eq hl.2, ceuLaunch_port hl.1.1.1 hlen h1 h2 hsel rfl hp hup hopen hq⟩,
      fun hp => ⟨_, command_eq hl.2, ceuLaunch_noPorts hlen hl.1.1.1 h1 h2 hsel hp⟩⟩
  · intro k hc
    exact ⟨_, command_eq hl.2, percClose_effect hl.1.1.1 l hlen hon hc⟩

end Sys2Proof.Machine

/-! ## Proofs: the Halulavy island (13_halulavy_metrology_island)

Requests (O49), results and the island's life (O50). -/

namespace Sys2Proof.Machine

-- One theorem after the other: elaborated side by side, they hold more threads than the memory limit of a check allows.
set_option Elab.async false

/-! ### Programs that keep a part of the block state -/

/-- The listed registers, and changes of block state that keep the part `π`. -/
def Scope.keeping {α : Type} (π : Hw → α) (l : List RegRef) : Scope := { reg := (· ∈ l), hw := fun f => ∀ h : Hw, π (f h) = π h }

section
variable {α : Type} (π : Hw → α) (l : List RegRef)
@[simp] theorem keeping_reg (r : RegRef) : (Scope.keeping π l).reg r ↔ r ∈ l := .rfl
@[simp] theorem keeping_hw (f : Hw → Hw) : (Scope.keeping π l).hw f ↔ ∀ h : Hw, π (f h) = π h := .rfl
@[simp] theorem keeping_mem : (Scope.keeping π l).mem ↔ False := .rfl
@[simp] theorem keeping_out : (Scope.keeping π l).out ↔ False := .rfl
end

/-- Such a program keeps the part, every other register, and the rest. -/
theorem Act.Only.keeping {α : Type} {π : Hw → α} {l : List RegRef} {a : Act} (h : a.Only (.keeping π l)) (s : State) :
    π (a.run s).hw = π s.hw ∧ SameRegs l s (a.run s) ∧ SameRest s (a.run s) :=
  ⟨h.hw π (fun _ hf => hf) s, h.sameRegs id (fun _ hr => hr) s, h.sameRest id id id id id s⟩

/-- Block state beside the edge latches over a quiet program. -/
theorem Quiet.part {α : Type} {l : List RegRef} {s t : State} (h : Quiet l s t) (π : Hw → α)
    (hπ : ∀ (h : Hw) (e : BitVec 1024), π (Hw.setEdge e h) = π h := by exact fun _ _ => rfl) : π t.hw = π s.hw := by
  obtain ⟨e, he⟩ := h.hw
  exact (congrArg π he).trans (hπ s.hw e)

theorem run_fresh (k : Nat → Act) (s : State) : (Act.fresh k).run s = (k s.freeCtr).run s.useFree := rfl

/-! ### What the page shows of the island -/

theorem only_halReport : halReport.Only (.keeping (·.hal) halShown) := by
  simp [halReport, halShown]

theorem only_halTell : halTell.Only (.keeping (·.hal) halShown) := by
  simp only [halTell, only_get, only_when]
  exact fun _ _ => only_halReport

theorem only_halRaise (k : Nat) {l : List RegRef} (h : irqOf .HAL 0 ⊆ l) : (halRaise k).Only (.keeping (·.hal) l) :=
  only_raise (h (by simp [irqOf])) (h (by simp [irqOf])) fun _ _ => rfl

theorem irqOf_halShown : irqOf .HAL 0 ⊆ halShown := List.subset_append_right _ _

/-- The reports carry no source. -/
theorem pend_halTell (s : State) (k : Nat) : (halTell.run s).pend .HAL 0 k = s.pend .HAL 0 k := by
  have h : halTell.Only { reg := (· ∈ [Reg.HAL.HAL_STATUS, Reg.HAL.EVENT_CNT, Reg.HAL.AUDIT_FREE, Reg.HAL.FW_CRC, Reg.HAL.SW_ID 0,
      Reg.HAL.SW_ID 1, Reg.HAL.SW_ID 2, Reg.HAL.SW_ID 3, Reg.HAL.OP_SECONDS]) } := by
    simp [halTell, halReport]
  refine congrArg (BitVec.getLsbD · k) (h.rd (r := Reg.HDR.IRQ_PEND .HAL 0) id (fun r hr => ?_) s)
  simp only [List.mem_cons, List.not_mem_nil, or_false] at hr
  rcases hr with rfl | rfl | rfl | rfl | rfl | rfl | rfl | rfl | rfl <;> exact key_ne_of_off (by simp)

/-! ### Answers -/

theorem answered_halAnswer (r : HalReq) (result reason : Nat) (value : Word) (s : State) :
    ((halAnswer r result reason value).run s).hw.hal.answered (decide (result ≠ 2)) reason value := ⟨rfl, _, rfl, rfl, rfl, rfl⟩

/-- A program that changes the island alone. -/
theorem only_hal_frame {a : Act} (h : a.Only { hw := fun _ => True }) (s : State) : (a.run s).regs = s.regs ∧ SameRest s (a.run s) :=
  ⟨h.regs_eq (fun _ => id) id s, h.sameRest id id id id id s⟩

theorem halRefuse_effect (r : HalReq) (reason : Nat) (s : State) :
    let t := (halRefuse r reason).run s
    t.hw.hal.answered false reason 0 ∧ t.hw.hal.params = s.hw.hal.params ∧ t.hw.hal.audit = s.hw.hal.audit ∧
      t.hw.hal.zero = s.hw.hal.zero ∧ t.regs = s.regs ∧ SameRest s t :=
  ⟨answered_halAnswer r 2 reason 0 s, rfl, rfl, rfl, rfl, rfl, rfl, rfl, rfl, rfl⟩

theorem halRequest_run {s : State} {op : Nat} {k : HalReq → Act} {r : HalReq} (hreq : s.hw.hal.req = some r) (hop : r.op = op) :
    (halRequest op k).run s = if s.hw.hal.blocked r = 0 then (k r).run s else (halRefuse r (s.hw.hal.blocked r)).run s := by
  rw [halRequest, run_get, hreq]
  refine (run_when _ _ s).trans ((if_pos (beq_iff_eq.2 hop)).trans ?_)
  exact run_ite _ _ _ s

/-! ### SET -/

/-- The audit area is full for this change (R556). -/
def HalSt.full (h : HalSt) (r : HalReq) : Prop := paramLegal r.param = true ∧ paramOf h.params r.param ≠ r.value ∧ auditSize ≤ h.audit.length

/-- The entry a change leaves (R555). -/
def HalSt.entry (h : HalSt) (r : HalReq) (fr : Nat) : AuditEntry :=
  { no := h.audit.length + 1, secs := (openWord fr 0).toNat, tsc := r.tsc, param := r.param, seq := r.seq,
    old := paramOf h.params r.param, new := r.value }

/-- A legally relevant change enters the audit area. -/
def halLog (h : HalSt) (r : HalReq) (fr : Nat) : Act := .when (paramLegal r.param) (.seq
  (.hal fun x => { x with audit := h.entry r fr :: x.audit }) (.when (h.audit.length == auditSize - 3277) (halRaise 5)))

/-- What a SET without a refusal does (R554, R557). -/
def halCommit (h : HalSt) (r : HalReq) (fr : Nat) : Act := .all
  [halLog h r fr, .hal fun x => { x with params := x.params.map fun e => if e.1 = r.param then (e.1, r.value) else e },
   halAnswer r 0 0 r.value, halTell]

/-- SET's refusals in their order, and what it does without one. -/
theorem halSet_run {s : State} {r : HalReq} (hreq : s.hw.hal.req = some r) (hop : r.op = 1) :
    halSetAct.run s =
      (if (paramRange r.param r.value).isNone then halRefuse r 1
       else if !s.hw.hal.setOk r.param r.value then halRefuse r 2
       else if paramLegal r.param && paramOf s.hw.hal.params r.param != r.value && decide (auditSize ≤ s.hw.hal.audit.length) then halRefuse r 3
       else if s.hw.hal.blocked r ≠ 0 then halRefuse r (s.hw.hal.blocked r)
       else if paramOf s.hw.hal.params r.param = r.value then halAnswer r 1 0 r.value
       else halCommit s.hw.hal r s.freeCtr).run s.useFree := by
  have hreq' : s.useFree.hw.hal.req = some r := hreq
  rw [halSetAct, run_fresh, run_get, hreq']
  refine (run_when _ _ _).trans ((if_pos (beq_iff_eq.2 hop)).trans ?_)
  rfl

theorem full_iff (h : HalSt) (r : HalReq) :
    (paramLegal r.param && paramOf h.params r.param != r.value && decide (auditSize ≤ h.audit.length)) = true ↔ h.full r := by
  simp [HalSt.full, and_assoc]

theorem range_of_setOk {h : HalSt} {id : Nat} {v : Word} (hok : h.setOk id v = true) : (paramRange id v).isNone = false := by
  cases hr : paramRange id v with
  | some b => rfl
  | none => rw [HalSt.setOk, hr] at hok; simp at hok

theorem halSet_refused {s : State} {r : HalReq} (hreq : s.hw.hal.req = some r) (hop : r.op = 1) {reason : Nat}
    (h : (paramRange r.param r.value = none ∧ reason = 1) ∨
        (paramRange r.param r.value ≠ none ∧ s.hw.hal.setOk r.param r.value = false ∧ reason = 2) ∨
        (s.hw.hal.setOk r.param r.value = true ∧ s.hw.hal.full r ∧ reason = 3) ∨
        (s.hw.hal.setOk r.param r.value = true ∧ ¬ s.hw.hal.full r ∧ s.hw.hal.blocked r ≠ 0 ∧ reason = s.hw.hal.blocked r)) :
    halSetAct.run s = (halRefuse r reason).run s.useFree := by
  rw [halSet_run hreq hop]
  rcases h with ⟨h, rfl⟩ | ⟨h, h', rfl⟩ | ⟨h, h', rfl⟩ | ⟨h, h', h'', rfl⟩
  · rw [if_pos (by rw [h]; rfl)]
  · rw [if_neg (by simpa using h), if_pos (by rw [h']; rfl)]
  · rw [if_neg (by rw [range_of_setOk h]; simp), if_neg (by rw [h]; simp), if_pos ((full_iff _ _).2 h')]
  · rw [if_neg (by rw [range_of_setOk h]; simp), if_neg (by rw [h]; simp), if_neg (mt (full_iff _ _).1 h'), if_pos h'']

theorem halSet_taken {s : State} {r : HalReq} (hreq : s.hw.hal.req = some r) (hop : r.op = 1) (hok : s.hw.hal.setOk r.param r.value = true)
    (hfull : ¬ s.hw.hal.full r) (hb : s.hw.hal.blocked r = 0) :
    halSetAct.run s = (if paramOf s.hw.hal.params r.param = r.value then halAnswer r 1 0 r.value
      else halCommit s.hw.hal r s.freeCtr).run s.useFree := by
  rw [halSet_run hreq hop, if_neg (by rw [range_of_setOk hok]; simp), if_neg (by rw [hok]; simp), if_neg (mt (full_iff _ _).1 hfull),
    if_neg (by rw [hb]; simp)]

theorem halLog_effect (h : HalSt) (r : HalReq) (fr : Nat) (s : State) :
    let t := (halLog h r fr).run s
    t.hw.hal.params = s.hw.hal.params ∧ t.hw.hal.audit = (if paramLegal r.param then h.entry r fr :: s.hw.hal.audit else s.hw.hal.audit) := by
  have hr : (Act.when (h.audit.length == auditSize - 3277) (halRaise 5)).Only (.keeping (·.hal) (irqOf .HAL 0)) :=
    (only_when _ _).2 fun _ => only_halRaise 5 (by simp)
  have hk := (hr.keeping ((Act.hal fun x => { x with audit := h.entry r fr :: x.audit }).run s)).1
  rw [halLog, run_when, run_seq]
  split
  · exact ⟨(congrArg HalSt.params hk).trans rfl, (congrArg HalSt.audit hk).trans rfl⟩
  · exact ⟨rfl, rfl⟩

theorem halCommit_effect (h : HalSt) (r : HalReq) (fr : Nat) {s : State} (hh : s.hw.hal = h) :
    let t := (halCommit h r fr).run s
    t.hw.hal.answered true 0 r.value ∧ t.hw.hal.params = h.params.map (fun e => if e.1 = r.param then (e.1, r.value) else e) ∧
      t.hw.hal.audit = (if paramLegal r.param then h.entry r fr :: h.audit else h.audit) ∧ SameRegs halShown s t ∧ SameRest s t := by
  obtain ⟨hregs, hrest⟩ := Act.Only.frame (l := halShown) (a := halCommit h r fr) (by
    have h1 : (halRaise 5).Only (.regs halShown) := only_raise (irqOf_halShown (by simp [irqOf])) (irqOf_halShown (by simp [irqOf])) fun _ => trivial
    have h2 : halTell.Only (.regs halShown) := only_halTell.mono fun u hu => by cases u <;> first | exact hu | trivial
    simp [halCommit, halLog, h1, h2, halAnswer]) s
  obtain ⟨hp, ha⟩ := halLog_effect h r fr s
  let u := (halAnswer r 0 0 r.value).run
    ((Act.hal fun x => { x with params := x.params.map fun e => if e.1 = r.param then (e.1, r.value) else e }).run ((halLog h r fr).run s))
  have hrun : (halCommit h r fr).run s = halTell.run u := rfl
  have hhal := (only_halTell.keeping u).1
  rw [hrun] at hregs hrest ⊢
  generalize halTell.run u = t at hhal hregs hrest ⊢
  dsimp only
  rw [hhal]
  refine ⟨answered_halAnswer r 0 0 r.value _, ?_, ?_, hregs, hrest⟩
  · exact (congrArg (List.map fun e => if e.1 = r.param then (e.1, r.value) else e) hp).trans (by rw [hh])
  · exact ha.trans (by rw [hh])

/-! ### Checks and ERROR -/

theorem halError_effect {s : State} (hs : keysRise s.regs) :
    let t := halError.run s
    t.hw.hal = { s.hw.hal with state := hERROR } ∧ (s.hw.hal.state ≠ hERROR → t.pend .HAL 0 3 = true) ∧
      SameRegs halShown s t ∧ SameRest s t := by
  have hrun : halError.run s = if s.hw.hal.state != hERROR then
      (halRaise 3).run ((Act.hal fun h => { h with state := hERROR }).run s) else s := run_when _ _ _
  have hk := (only_halRaise 3 (l := irqOf .HAL 0) (by simp)).keeping ((Act.hal fun h => { h with state := hERROR }).run s)
  rw [hrun]
  split
  next h =>
    exact ⟨hk.1, fun _ => bit_raise (s := (Act.hal _).run s) hs (by decide) (by decide), hk.2.1.mono irqOf_halShown,
      ⟨hk.2.2.mem, hk.2.2.poison, hk.2.2.es, hk.2.2.tsc, hk.2.2.out⟩⟩
  next h =>
    have hst : s.hw.hal.state = hERROR := by simpa using h
    exact ⟨by rw [← hst], fun h' => absurd hst h', fun _ _ => rfl, ⟨rfl, rfl, rfl, rfl, rfl⟩⟩

/-- A checksum computed, and whether it is the one stored (R547, R548). -/
def halChecked (crc : Word) (ok : Bool) : Act :=
  .seq (.hal fun h => { h with crc := crc, idOk := h.idOk && ok }) (.when (!ok) (.seq halError (halRaise 7)))

theorem halCheck_run (crc : Word) (s : State) : (halCheck crc).run s = (halChecked crc (crc == s.hw.hal.crcRef)).run s := rfl

theorem halChecked_effect {s : State} (hs : keysRise s.regs) (crc : Word) (ok : Bool) :
    let t := (halChecked crc ok).run s
    t.hw.hal = { s.hw.hal with
      crc := crc, idOk := s.hw.hal.idOk && ok, state := if ok then s.hw.hal.state else hERROR } ∧
      (ok = false → t.pend .HAL 0 7 = true ∧ (s.hw.hal.state ≠ hERROR → t.pend .HAL 0 3 = true)) ∧
      SameRegs halShown s t ∧ SameRest s t := by
  cases ok with
  | true => exact ⟨rfl, fun h => absurd h (by simp), fun _ _ => rfl, ⟨rfl, rfl, rfl, rfl, rfl⟩⟩
  | false =>
    let u := (Act.hal fun h => { h with crc := crc, idOk := h.idOk && false }).run s
    obtain ⟨e1, e2, e3, e4⟩ := halError_effect (s := u) hs
    have hrun : (halChecked crc false).run s = (halRaise 7).run (halError.run u) := rfl
    have hv : keysRise (halError.run u).regs := rise_run _ (s := u) hs
    obtain ⟨k1, k2, k3⟩ := (only_halRaise 7 (l := irqOf .HAL 0) (by simp)).keeping (halError.run u)
    rw [hrun]
    refine ⟨k1.trans e1, fun _ => ⟨bit_raise hv (by decide) (by decide), fun h => bit_raise_mono hv (by decide) (e2 h)⟩,
      fun x hx => ((k2.mono irqOf_halShown) x hx).trans (e3 x hx), ?_⟩
    have h := SameRest.trans e4 k3
    exact ⟨h.mem, h.poison, h.es, h.tsc, h.out⟩

/-! ### The other requests -/

theorem halGet_run {s : State} {r : HalReq} (hreq : s.hw.hal.req = some r) (hop : r.op = 2) (hr : (paramRange r.param 0).isSome = true) :
    halGetAct.run s = if s.hw.hal.blocked r = 0 then (halAnswer r 0 0 (paramOf s.hw.hal.params r.param)).run s
      else (halRefuse r (s.hw.hal.blocked r)).run s := by
  have hnone : (paramRange r.param 0).isNone = false := by
    cases h : paramRange r.param 0 with
    | none => rw [h] at hr; simp at hr
    | some b => rfl
  rw [halGetAct, run_get, hreq]
  refine (run_when _ _ s).trans ((if_pos (beq_iff_eq.2 hop)).trans ?_)
  rw [if_neg (by rw [hnone]; simp)]
  by_cases hb : s.hw.hal.blocked r = 0
  · rw [if_neg (by rw [hb]; simp), if_pos hb]
  · rw [if_pos hb, if_neg hb]

theorem halAudit_found {s : State} {r : HalReq} (hreq : s.hw.hal.req = some r) (hop : r.op = 3) (hb : s.hw.hal.blocked r = 0) {e : AuditEntry}
    (he : (s.hw.hal.audit.find? fun e => e.no == r.index) = some e) :
    halAuditAct.run s = (Act.hal fun h => { h with req := none, reply := some { words := e.words, seq := r.seq } }).run s := by
  have hrun := halRequest_run (k := fun r => .get fun s => match s.hw.hal.audit.find? fun e => e.no == r.index with
    | some e => .hal fun h => { h with req := none, reply := some { words := e.words, seq := r.seq } }
    | none => halRefuse r 7) hreq hop
  refine hrun.trans ((if_pos hb).trans ?_)
  simp only [run_get, he]

theorem halAudit_missing {s : State} {r : HalReq} (hreq : s.hw.hal.req = some r) (hop : r.op = 3) (hb : s.hw.hal.blocked r = 0)
    (he : (s.hw.hal.audit.find? fun e => e.no == r.index) = none) : halAuditAct.run s = (halRefuse r 7).run s := by
  have hrun := halRequest_run (k := fun r => .get fun s => match s.hw.hal.audit.find? fun e => e.no == r.index with
    | some e => .hal fun h => { h with req := none, reply := some { words := e.words, seq := r.seq } }
    | none => halRefuse r 7) hreq hop
  refine hrun.trans ((if_pos hb).trans ?_)
  simp only [run_get, he]

theorem halIdent_effect {s : State} (hs : keysRise s.regs) {r : HalReq} (hreq : s.hw.hal.req = some r) (hop : r.op = 4)
    (hb : s.hw.hal.blocked r = 0) (crc : Word) :
    let t := (halIdentAct crc).run s
    t.hw.hal.answered true 0 crc ∧ t.hw.hal.crc = crc ∧ t.hw.hal.idOk = (s.hw.hal.idOk && crc == s.hw.hal.crcRef) ∧
      SameRegs halShown s t ∧ SameRest s t := by
  obtain ⟨e1, -, e3, e4⟩ := halChecked_effect hs crc (crc == s.hw.hal.crcRef)
  have hrun : (halIdentAct crc).run s = halTell.run ((halAnswer r 0 0 crc).run ((halChecked crc (crc == s.hw.hal.crcRef)).run s)) := by
    rw [halIdentAct, halRequest_run hreq hop, if_pos hb]
    rfl
  generalize (halChecked crc (crc == s.hw.hal.crcRef)).run s = u at e1 e3 e4 hrun
  have hk := only_halTell.keeping ((halAnswer r 0 0 crc).run u)
  rw [hrun]
  generalize halTell.run ((halAnswer r 0 0 crc).run u) = t at hk ⊢
  obtain ⟨k1, k2, k3⟩ := hk
  dsimp only
  rw [k1]
  refine ⟨answered_halAnswer r 0 0 crc u, (congrArg HalSt.crc e1).trans rfl, (congrArg HalSt.idOk e1).trans rfl, ?_, ?_⟩
  · exact fun x hx => (k2 x hx).trans (e3 x hx)
  · exact e4.trans ⟨k3.mem, k3.poison, k3.es, k3.tsc, k3.out⟩

theorem halZero_run {s : State} {r : HalReq} (hreq : s.hw.hal.req = some r) (hop : r.op = 5) (hb : s.hw.hal.blocked r = 0) :
    halZeroAct.run s = (if s.hw.hal.stable && decide (s.hw.hal.gross.natAbs * 1000 ≤
        (paramOf s.hw.hal.params 0x0023).toNat * (paramOf s.hw.hal.params 0x0020).toNat) then
        .seq (.hal fun x => { x with zero := x.gross }) (halAnswer r 0 0 (BitVec.ofInt 32 s.hw.hal.gross))
      else halRefuse r 6).run s := by
  rw [halZeroAct, halRequest_run hreq hop, if_pos hb]
  rfl

/-! ### SEND and the reply -/

theorem reqCmd_row : RegRef.row Reg.HAL.REQ_CMD = some ⟨0x068, 1, 0x04, .WO, 0x00000000, 0x00000000, 0x0, 0x00000000, false⟩ ∧
    RegRef.resetVal Reg.HAL.REQ_CMD = 0 := by decide +kernel
theorem resPop_row : RegRef.row Reg.HAL.RES_POP = some ⟨0x070, 1, 0x04, .WO, 0x00000000, 0x00000000, 0x0, 0x00000000, false⟩ ∧
    RegRef.resetVal Reg.HAL.RES_POP = 0 := by decide +kernel
theorem mask_reqStatus : RegRef.mask Reg.HAL.REQ_STATUS = 0xFFFFFF07 := by decide +kernel
theorem mask_reply (j : Fin 8) : RegRef.mask (Reg.HAL.REPLY j) = 0xFFFFFFFF := by revert j; decide +kernel

theorem reqSend_effect {s : State} (hl : s.live) (v : Word) (hacc : s.accepts 0 Reg.HAL.REQ_CMD (v ||| 1) = true)
    (hf : s.hw.boot.frozen = false) :
    let t := (hostReg 0 Reg.HAL.REQ_CMD (v ||| 1)).run s
    let seq := (s.fld Reg.HAL.REQ_STATUS 31 16 + 1) % 65536
    t.rd Reg.HAL.REQ_STATUS = BitVec.ofNat 32 (1 + 65536 * seq) ∧
      t.hw.hal.req = some { words := (List.range 8).map fun j => s.rd (Reg.HAL.REQ j), seq := seq, tsc := s.now } ∧
      SameRegs (Reg.HAL.REQ_STATUS :: hostTrail .HAL 0) s t ∧ t.es = s.es ∧ t.tsc = s.tsc ∧ t.out = s.out := by
  intro t seq
  obtain ⟨hrow, h0⟩ := reqCmd_row
  obtain ⟨q, hq, hj⟩ : ∃ q, Written s _ _ _ q ∧ Journaled ((reqSendAct (v ||| 1)).run q) t := hostReg_run hl.1 hrow hacc rfl
  have hstat : q.fld Reg.HAL.REQ_STATUS 31 16 = s.fld Reg.HAL.REQ_STATUS 31 16 :=
    congrArg (bits · 31 16) (hq.rd_off (q := Reg.HAL.REQ_STATUS) (by simp) (by simp))
  have hwords : ((List.range 8).map fun j => q.rd (Reg.HAL.REQ j)) = (List.range 8).map fun j => s.rd (Reg.HAL.REQ j) :=
    List.map_congr_left fun j hj => hq.rd_off (by have := List.mem_range.1 hj; simp; omega) (by have := List.mem_range.1 hj; simp; omega)
  have hnow : q.now = s.now := congrArg BitVec.toNat hq.rest.tsc
  have hrun : (reqSendAct (v ||| 1)).run q = (Act.hal fun h => { h with
      reply := none, req := some { words := (List.range 8).map fun j => s.rd (Reg.HAL.REQ j), seq := seq, tsc := s.now } }).run
      (q.setReg Reg.HAL.REQ_STATUS (BitVec.ofNat 32 (1 + 65536 * seq))) := by
    rw [reqSendAct, run_get, run_when, if_pos (by rw [getLsbD_or_one, hq.hw, hf]; rfl), hstat, hwords, hnow]
    rfl
  rw [hrun] at hj
  have hlt : seq < 65536 := Nat.mod_lt _ (by decide)
  generalize seq = n at hj hlt ⊢
  generalize hu : q.setReg Reg.HAL.REQ_STATUS (BitVec.ofNat 32 (1 + 65536 * n)) = u at hj
  have hurd : u.rd Reg.HAL.REQ_STATUS = BitVec.ofNat 32 (1 + 65536 * n) := by
    rw [← hu, rd_setReg_same hq.rise, mask_reqStatus]
    apply BitVec.eq_of_getLsbD_eq
    intro i hi
    rw [BitVec.getLsbD_and]
    have hbit : (BitVec.ofNat 32 (1 + 65536 * n)).getLsbD i = true → (0xFFFFFF07 : Word).getLsbD i = true := by
      intro h
      by_contra hm
      have hi' : 3 ≤ i ∧ i < 8 := by
        revert hm
        interval_cases i <;> decide
      rw [BitVec.getLsbD_ofNat] at h
      have hz : (1 + 65536 * n).testBit i = false := by
        rw [Nat.testBit_eq_decide_div_mod_eq]
        obtain ⟨h3, h8⟩ := hi'
        interval_cases i <;> simp <;> omega
      rw [hz] at h
      simp at h
    cases h : (BitVec.ofNat 32 (1 + 65536 * n)).getLsbD i with
    | false => rfl
    | true => rw [hbit h]; rfl
  have hregs : SameRegs [Reg.HAL.REQ_STATUS] q u := by rw [← hu]; exact (quiet_setReg _ _ _).regs
  have hrest : SameRest q u := by rw [← hu]; exact ⟨rfl, rfl, rfl, rfl, rfl⟩
  refine ⟨?_, ?_, ?_, ?_⟩
  · exact (hj.rd (r := Reg.HAL.REQ_STATUS) (by decide) (by decide) (by decide) (by decide)).trans hurd
  · exact (congrArg HalSt.req (hj.part (·.hal))).trans rfl
  · exact hj.sameRegs (b := .HAL) (i := 0) (hq.kept (fun _ => rfl) h0 (by simp)) hregs (by simp [hostTrail]) (by simp) (by simp)
  · exact hq.sameRest (u := (Act.hal _).run u) ⟨hrest.mem, hrest.poison, hrest.es, hrest.tsc, hrest.out⟩ hj

/-- The words of a reply in the page (R553). -/
theorem rd_reply {s : State} (hs : keysRise s.regs) {l : List Word} {n j : Nat} (hl : n + l.length ≤ 8) :
    ((Act.each (l.zipIdx n) fun (w, j) => .wr (Reg.HAL.REPLY j) w).run s).rd (Reg.HAL.REPLY j) =
      if n ≤ j ∧ j < n + l.length then l.getD (j - n) 0 else s.rd (Reg.HAL.REPLY j) := by
  induction l generalizing n s with
  | nil =>
    rw [if_neg (by rw [List.length_nil]; omega)]
    rfl
  | cons w l ih =>
    have hlen : n + 1 + l.length ≤ 8 := by simp only [List.length_cons] at hl; omega
    have hrun : (Act.each ((w :: l).zipIdx n) fun (w, j) => .wr (Reg.HAL.REPLY j) w).run s =
        (Act.each (l.zipIdx (n + 1)) fun (w, j) => .wr (Reg.HAL.REPLY j) w).run (s.setReg (Reg.HAL.REPLY n) w) := rfl
    rw [hrun, ih (keysRise_setReg hs _ _) hlen]
    simp only [List.length_cons]
    by_cases hj : j = n
    · subst hj
      rw [if_neg (by omega), if_pos (by omega), Nat.sub_self, rd_setReg_full hs (mask_reply ⟨j, by omega⟩)]
      rfl
    · by_cases hin : n + 1 ≤ j ∧ j < n + 1 + l.length
      · rw [if_pos hin, if_pos (by omega), show j - n = j - (n + 1) + 1 by omega]
        rfl
      · rw [if_neg hin, if_neg (by omega)]
        exact rd_setReg_ne _ (by simp only [RegRef.key, ne_eq]; omega)

/-- REQ_STATUS as a reply leaves it (R553, R565). -/
theorem reqStatus_bits (ok : Bool) (reason seq : Nat) :
    let w := BitVec.ofNat 32 (2 + 4 * b2n ok + 256 * reason + 65536 * seq) &&& 0xFFFFFF07
    w.getLsbD 0 = false ∧ w.getLsbD 1 = true ∧ w.getLsbD 2 = ok ∧ (reason < 256 → bits w 15 8 = reason) := by
  intro w
  have hbit (i : Nat) (hi : i < 3) : w.getLsbD i = (2 + 4 * b2n ok + 256 * reason + 65536 * seq).testBit i := by
    have hm : (0xFFFFFF07 : Word).getLsbD i = true := by interval_cases i <;> decide
    rw [BitVec.getLsbD_and, BitVec.getLsbD_ofNat, hm, Bool.and_true, decide_eq_true (by omega : i < 32), Bool.true_and]
  have hb : b2n ok = 0 ∨ b2n ok = 1 := by cases ok <;> simp [b2n]
  refine ⟨?_, ?_, ?_, fun hr => ?_⟩
  · rw [hbit 0 (by decide), Nat.testBit_eq_decide_div_mod_eq]
    exact decide_eq_false (by omega)
  · rw [hbit 1 (by decide), Nat.testBit_eq_decide_div_mod_eq]
    exact decide_eq_true (by omega)
  · rw [hbit 2 (by decide), Nat.testBit_eq_decide_div_mod_eq]
    cases ok
    · exact decide_eq_false (by simp only [b2n, Bool.false_eq_true, if_false]; omega)
    · exact decide_eq_true (by simp only [b2n, if_true]; omega)
  · have hw := bits_and_mask (BitVec.ofNat 32 (2 + 4 * b2n ok + 256 * reason + 65536 * seq)) 0xFFFFFF07 (hi := 15) (lo := 8) (by decide)
    refine hw.trans ?_
    rw [bits, BitVec.toNat_ofNat, Nat.shiftRight_eq_div_pow]
    omega

theorem replyArrive_effect {s : State} (hs : keysRise s.regs) {y : HalReply} (hreq : s.hw.hal.req = none) (hy : s.hw.hal.reply = some y)
    (hlen : y.words.length = 8) (hbusy : s.bit Reg.HAL.REQ_STATUS 0 = true) (hseq : s.fld Reg.HAL.REQ_STATUS 31 16 = y.seq) :
    let t := replyArriveAct.run s
    (∀ j, j < 8 → t.rd (Reg.HAL.REPLY j) = y.words.getD j 0) ∧
      t.bit Reg.HAL.REQ_STATUS 0 = false ∧ t.bit Reg.HAL.REQ_STATUS 1 = true ∧ t.bit Reg.HAL.REQ_STATUS 2 = y.ok ∧
      (y.reason < 256 → t.fld Reg.HAL.REQ_STATUS 15 8 = y.reason) ∧ t.pend .HAL 0 1 = true ∧
      (y.ok = false → t.pend .HAL 0 2 = true) ∧ t.hw.hal.reply = none ∧
      SameRegs (Reg.HAL.REQ_STATUS :: (List.range 8).map Reg.HAL.REPLY ++ irqOf .HAL 0) s t ∧ SameRest s t := by
  let store : Act := .each (y.words.zipIdx) fun (w, j) => .wr (Reg.HAL.REPLY j) w
  let u := (Act.hal fun h => { h with reply := none }).run s
  let v := (store.run u).setReg Reg.HAL.REQ_STATUS (BitVec.ofNat 32 (2 + 4 * b2n y.ok + 256 * y.reason + 65536 * y.seq))
  let w := (halRaise 1).run v
  have hrun : replyArriveAct.run s = (Act.when (!y.ok) (halRaise 2)).run w := by
    rw [replyArriveAct, run_get, hreq, run_seq, run_nil, run_get, hy, run_seq, run_when,
      if_pos (by rw [hbusy, hseq, beq_self_eq_true]; rfl)]
    rfl
  have hu : keysRise u.regs := hs
  have hsr : keysRise (store.run u).regs := rise_run _ hu
  have hv : keysRise v.regs := keysRise_setReg hsr _ _
  have hw : keysRise w.regs := rise_run _ hv
  have hstore : store.Only (.keeping (·.hal) ((List.range 8).map Reg.HAL.REPLY)) := (only_each _ _).2 fun x hx => by
    obtain ⟨x, j⟩ := x
    have hj := List.snd_lt_of_mem_zipIdx hx
    simp only [only_wr, keeping_reg]
    exact List.mem_map.2 ⟨j, List.mem_range.2 (by simpa [hlen] using hj), rfl⟩
  have hr1 := (only_halRaise 1 (l := irqOf .HAL 0) (by simp)).keeping v
  have h2 : (Act.when (!y.ok) (halRaise 2)).Only (.keeping (·.hal) (irqOf .HAL 0)) := (only_when _ _).2 fun _ => only_halRaise 2 (by simp)
  have hr2 := h2.keeping w
  have hst := hstore.keeping u
  have hkeep {off : Nat} (h : 0x10 ≠ off % 4096) (h' : 0x1C ≠ off % 4096) :
      ((Act.when (!y.ok) (halRaise 2)).run w).rd ⟨.HAL, 0, off⟩ = v.rd ⟨.HAL, 0, off⟩ :=
    (hr2.2.1.rd_off (by simp [irqOf, h, h'])).trans (hr1.2.1.rd_off (by simp [irqOf, h, h']))
  have hstat : ((Act.when (!y.ok) (halRaise 2)).run w).rd Reg.HAL.REQ_STATUS =
      BitVec.ofNat 32 (2 + 4 * b2n y.ok + 256 * y.reason + 65536 * y.seq) &&& 0xFFFFFF07 := by
    rw [hkeep (by decide) (by decide), rd_setReg_same hsr, mask_reqStatus]
  obtain ⟨b0, b1, b2, b3⟩ := reqStatus_bits y.ok y.reason y.seq
  rw [hrun]
  refine ⟨fun j hj => ?_, ?_, ?_, ?_, fun hr => ?_, ?_, fun hok => ?_, ?_, ?_, ?_⟩
  · rw [hkeep (by simp; omega) (by simp; omega), show v.rd (Reg.HAL.REPLY j) = (store.run u).rd (Reg.HAL.REPLY j) from
      rd_setReg_off (r := Reg.HAL.REQ_STATUS) (by simp; omega)]
    have h := rd_reply hu (l := y.words) (n := 0) (j := j) (by omega)
    rw [if_pos (by omega), Nat.sub_zero] at h
    exact h
  · rw [State.bit, hstat]; exact b0
  · rw [State.bit, hstat]; exact b1
  · rw [State.bit, hstat]; exact b2
  · rw [State.fld, hstat]; exact b3 hr
  · have h1 : w.bit (Reg.HDR.IRQ_PEND .HAL 0) 1 = true := bit_raise hv (by decide) (by decide)
    rw [run_when]
    split
    · exact bit_raise_mono hw (by decide) h1
    · exact h1
  · rw [hok]
    exact bit_raise hw (by decide) (by decide)
  · exact (congrArg HalSt.reply (hr2.1.trans (hr1.1.trans hst.1))).trans rfl
  · have hsv : SameRegs [Reg.HAL.REQ_STATUS] (store.run u) v := (quiet_setReg _ _ _).regs
    have h := ((hst.2.1.mono (l' := Reg.HAL.REQ_STATUS :: (List.range 8).map Reg.HAL.REPLY ++ irqOf .HAL 0) (by simp)).trans
      ((hsv.mono (by simp)).trans ((hr1.2.1.mono (by simp)).trans (hr2.2.1.mono (by simp)))))
    exact h
  · have hsv : SameRest (store.run u) v := ⟨rfl, rfl, rfl, rfl, rfl⟩
    have h := hst.2.2.trans (hsv.trans (hr1.2.2.trans hr2.2.2))
    exact ⟨h.mem, h.poison, h.es, h.tsc, h.out⟩

/-- Settles O49. -/
theorem islandRequests : Obligations.IslandRequests := by
  refine ⟨fun s v hl hacc hf => ⟨_, simply_eq hl.2, reqSend_effect hl v hacc hf⟩, fun s r hs hreq hop => ⟨fun hok hfull hb hne => ?_, fun hok hb heq => ?_,
    fun reason h => ?_⟩, fun s r hs hreq => ⟨fun i hi hb hr => ?_, fun hb => ⟨fun hop hr => ?_, fun hop e he => ?_, fun hop hno => ?_,
      fun hop crc => ⟨_, always_eq _ s, halIdent_effect hs.1.1 hreq hop hb crc⟩, fun hop h1 h2 => ?_, fun hop h1 => ?_, fun hop => ?_, fun hop => ?_⟩⟩,
    fun s y hl hreq hy hlen h1 h2 => ⟨_, simply_eq hl.2, replyArrive_effect hl.1.1.1 hreq hy hlen h1 h2⟩⟩
  · refine ⟨_, always_eq _ s, ?_⟩
    obtain ⟨e1, e2, e3, e4, e5⟩ := halCommit_effect s.hw.hal r s.freeCtr (s := s.useFree) rfl
    rw [halSet_taken hreq hop hok hfull hb, if_neg hne]
    exact ⟨e1, e2, fun hp => ⟨_, e3.trans (if_pos hp)⟩, fun hp => e3.trans (if_neg (by rw [hp]; simp)), e4,
      ⟨e5.mem, e5.poison, e5.es, e5.tsc, e5.out⟩⟩
  · refine ⟨_, always_eq _ s, ?_⟩
    rw [halSet_taken hreq hop hok (fun h => h.2.1 heq) hb, if_pos heq]
    exact ⟨answered_halAnswer r 1 0 r.value s.useFree, rfl, rfl, rfl, rfl, rfl, rfl, rfl, rfl⟩
  · refine ⟨_, always_eq _ s, ?_⟩
    rw [halSet_refused hreq hop h]
    obtain ⟨e1, e2, e3, -, e4, e5⟩ := halRefuse_effect r reason s.useFree
    exact ⟨e1, e2, e3, e4, ⟨e5.mem, e5.poison, e5.es, e5.tsc, e5.out⟩⟩
  · have hrun : ∃ a : Act, exec i s = .next (a.run s).settled ∧ a.run s = (halRefuse r (s.hw.hal.blocked r)).run s := by
      simp only [List.mem_cons, Prod.mk.injEq, List.not_mem_nil, or_false] at hi
      rcases hi with ⟨hop, rfl⟩ | ⟨hop, rfl⟩ | ⟨hop, rfl⟩ | ⟨hop, rfl⟩ | ⟨hop, rfl⟩
      · exact ⟨_, always_eq _ s, (halGet_run hreq hop hr).trans (if_neg hb)⟩
      all_goals exact ⟨_, always_eq _ s, (halRequest_run hreq hop).trans (if_neg hb)⟩
    obtain ⟨a, hexec, ha⟩ := hrun
    obtain ⟨e1, -, -, -, e2, e3⟩ := halRefuse_effect r (s.hw.hal.blocked r) s
    exact ⟨_, hexec, by rw [ha]; exact ⟨e1, e2, e3⟩⟩
  · refine ⟨_, always_eq _ s, ?_⟩
    rw [halGet_run hreq hop hr, if_pos hb]
    exact ⟨answered_halAnswer r 0 0 _ s, rfl, rfl, rfl, rfl, rfl, rfl⟩
  · refine ⟨_, always_eq _ s, ?_⟩
    rw [halAudit_found hreq hop hb he]
    exact ⟨rfl, rfl, rfl, rfl, rfl, rfl, rfl, rfl⟩
  · refine ⟨_, always_eq _ s, ?_⟩
    rw [halAudit_missing hreq hop hb hno]
    obtain ⟨e1, -, -, -, e2, e3⟩ := halRefuse_effect r 7 s
    exact ⟨e1, e2, e3⟩
  · refine ⟨_, always_eq _ s, ?_⟩
    rw [halZero_run hreq hop hb, if_pos (by rw [h1, decide_eq_true h2]; rfl)]
    exact ⟨answered_halAnswer r 0 0 _ _, rfl, rfl, rfl, rfl, rfl, rfl, rfl, rfl⟩
  · refine ⟨_, always_eq _ s, ?_⟩
    rw [halZero_run hreq hop hb, if_neg (by rw [h1]; simp)]
    obtain ⟨e1, -, -, e2, e3⟩ := halRefuse_effect r 6 s
    exact ⟨e1, e2, e3⟩
  · refine ⟨_, always_eq _ s, ?_⟩
    rw [show halTareAct.run s = _ from (halRequest_run hreq hop).trans (if_pos hb)]
    exact ⟨rfl, answered_halAnswer r 0 0 _ _, rfl, rfl, rfl, rfl, rfl, rfl⟩
  · refine ⟨_, always_eq _ s, ?_⟩
    rw [show halTareClearAct.run s = _ from (halRequest_run hreq hop).trans (if_pos hb)]
    exact ⟨rfl, answered_halAnswer r 0 0 0 _, rfl, rfl, rfl, rfl, rfl, rfl⟩

/-! ### Results -/

theorem mask_res (j : Fin 8) : RegRef.mask (Reg.HAL.RES j) = 0xFFFFFFFF := by revert j; decide +kernel
theorem mask_resStamp : RegRef.mask Reg.HAL.RES_STAMP_LO = 0xFFFFFFFF ∧ RegRef.mask Reg.HAL.RES_STAMP_HI = 0xFFFFFFFF := by decide +kernel
theorem mask_halCounts : RegRef.mask Reg.HAL.UNIT_CNT = 0xFFFFFFFF ∧ RegRef.mask Reg.HAL.LANE_ERR = 0xFFFFFFFF ∧
    RegRef.mask Reg.HAL.LOST_CNT = 0xFFFFFFFF ∧ RegRef.mask Reg.HAL.EVENT_CNT = 0xFFFFFFFF := by decide +kernel
theorem mask_halStatus : RegRef.mask Reg.HAL.HAL_STATUS = 0x0001FF7F := by decide +kernel

theorem getLsbD_putBit_true {n : Nat} (w : BitVec n) {i k : Nat} (hi : i < n) :
    (putBit w i true).getLsbD k = (w.getLsbD k || decide (k = i)) := by
  rw [putBit, if_pos rfl, BitVec.getLsbD_or, getLsbD_ofNat_two_pow]
  by_cases h : k = i
  · subst h; simp [hi]
  · have h' : ¬ i = k := fun e => h e.symm
    simp [h, h']

/-- Which flags a list of bit numbers sets. -/
theorem getLsbD_flagsOf {l : List Nat} (hl : ∀ x ∈ l, x < 16) (k : Nat) : (flagsOf l).getLsbD k = decide (k ∈ l) := by
  have h (w : BitVec 16) (hl : ∀ x ∈ l, x < 16) : (l.foldl (fun w i => putBit w i true) w).getLsbD k = (w.getLsbD k || decide (k ∈ l)) := by
    induction l generalizing w with
    | nil => simp
    | cons x l ih =>
      rw [List.foldl_cons, ih (fun y hy => hl y (List.mem_cons_of_mem _ hy)) _ fun y hy => hl y (List.mem_cons_of_mem _ hy),
        getLsbD_putBit_true _ (hl x List.mem_cons_self), Bool.or_assoc]
      simp [List.mem_cons]
  exact (h 0 hl).trans (by simp)

theorem resultFlags_bits (h : HalSt) (w : Weighing) (fr : Nat) :
    (h.resultFlags w fr).getLsbD 1 = w.stable ∧ (h.resultFlags w fr).getLsbD 7 = h.lost ∧ (h.resultFlags w fr).getLsbD 8 = !h.idOk := by
  have hin {c : Prop} [Decidable c] {n x : Nat} (hx : x ∈ if c then [n] else []) : x = n := by
    split at hx <;> simp_all
  have hin' {c : Prop} [Decidable c] {n x : Nat} (hx : x ∈ if c then [] else [n]) : x = n := by
    split at hx <;> simp_all
  have hbit (k : Nat) : (h.resultFlags w fr).getLsbD k = decide (k ∈ _) := getLsbD_flagsOf (fun x hx => by
    simp only [List.mem_append] at hx
    rcases hx with (((((((hx | hx) | hx) | hx) | hx) | hx) | hx) | hx) | hx
    all_goals first | (have := hin hx; omega) | (have := hin' hx; omega)) k
  refine ⟨(hbit 1).trans ?_, (hbit 7).trans ?_, (hbit 8).trans ?_⟩
  · cases w.stable <;> simp
  · cases h.lost <;> simp
  · cases h.idOk <;> simp

/-- The result of a window (R541). -/
def HalSt.result (h : HalSt) (w : Weighing) (fr : Nat) : HalResult :=
  { seq := h.resSeq + 1, net := w.gross - h.zero - h.tare, tare := h.tare, eMg := (paramOf h.window 0x0022).toNat,
    flags := h.resultFlags w fr, chans := (paramOf h.window 0x0028).toNat, winUs := w.winUs.toNat, event := h.audit.length }

theorem weighing_run {s : State} (w : Weighing) (hst : s.hw.hal.state ≠ hSTART) :
    (weighingAct w).run s = (if s.hw.hal.queue.length < 256
        then Act.hal fun x => { x with queue := x.queue ++ [s.hw.hal.result w s.freeCtr], lost := false }
        else Act.hal fun x => { x with lost := true, lostN := x.lostN + 1 }).run
      ((Act.hal fun x => { x with resSeq := x.resSeq + 1, gross := w.gross, stable := w.stable, window := x.params }).run s.useFree) := by
  rw [weighingAct, run_fresh, run_get]
  exact (run_when _ _ _).trans (if_pos (bne_iff_ne.2 hst))

theorem weighing_effect {s : State} (w : Weighing) (hst : s.hw.hal.state ≠ hSTART) :
    let t := (weighingAct w).run s
    (s.hw.hal.queue.length < 256 →
      (∃ r, t.hw.hal.queue = s.hw.hal.queue ++ [r] ∧ r.seq = s.hw.hal.resSeq + 1 ∧
        r.net = w.gross - s.hw.hal.zero - s.hw.hal.tare ∧ r.tare = s.hw.hal.tare ∧ r.winUs = w.winUs.toNat ∧
        r.flags.getLsbD 1 = w.stable ∧ r.flags.getLsbD 7 = s.hw.hal.lost ∧ r.flags.getLsbD 8 = !s.hw.hal.idOk) ∧
      t.hw.hal.resSeq = s.hw.hal.resSeq + 1 ∧ t.hw.hal.lost = false ∧ t.hw.hal.lostN = s.hw.hal.lostN) ∧
    (256 ≤ s.hw.hal.queue.length → t.hw.hal.queue = s.hw.hal.queue ∧
      t.hw.hal.resSeq = s.hw.hal.resSeq + 1 ∧ t.hw.hal.lost = true ∧ t.hw.hal.lostN = s.hw.hal.lostN + 1) ∧
      t.regs = s.regs ∧ SameRest s t := by
  have honly : (weighingAct w).Only { hw := fun _ => True } := by simp [weighingAct]
  obtain ⟨hregs, hrest⟩ := only_hal_frame honly s
  refine ⟨fun hq => ?_, fun hq => ?_, hregs, hrest⟩
  · rw [weighing_run w hst, if_pos hq]
    exact ⟨⟨s.hw.hal.result w s.freeCtr, rfl, rfl, rfl, rfl, rfl, resultFlags_bits _ _ _⟩, rfl, rfl, rfl⟩
  · rw [weighing_run w hst, if_neg (by omega)]
    exact ⟨rfl, rfl, rfl, rfl⟩

/-! ### Results on the page -/

theorem run_each_append {α : Type} (l m : List α) (f : α → Act) (s : State) :
    (Act.each (l ++ m) f).run s = (Act.each m f).run ((Act.each l f).run s) := by
  induction l generalizing s with
  | nil => rfl
  | cons x l ih => exact ih _

/-- Registers stored one by one. -/
theorem rd_each_range {f : Nat → RegRef} {g : Nat → Nat} {n : Nat} (hm : ∀ j < n, (f j).mask = 0xFFFFFFFF)
    (hk : ∀ i < n, ∀ j < n, i ≠ j → (f i).key ≠ (f j).key) {s : State} (hs : keysRise s.regs) {j : Nat} (hj : j < n) :
    ((Act.each (List.range n) fun j => .wrN (f j) (g j)).run s).rd (f j) = BitVec.ofNat 32 (g j) := by
  induction n with
  | zero => exact absurd hj (Nat.not_lt_zero _)
  | succ n ih =>
    rw [List.range_succ, run_each_append]
    have hr : keysRise ((Act.each (List.range n) fun j => .wrN (f j) (g j)).run s).regs := rise_run _ hs
    by_cases h : j = n
    · subst h
      exact rd_setReg_full hr (hm j hj) _
    · exact (rd_setReg_ne _ (hk n (by omega) j hj (Ne.symm h))).trans (ih (fun i hi => hm i (by omega))
        (fun i hi k hk' => hk i (by omega) k (by omega)) (by omega))

/-- The words of a result record (R545). -/
theorem result_word (r : HalResult) (delay : Nat) :
    leNat (((r.toBytes delay).drop (4 * 0)).take 4) = r.seq % 256 ^ 4 ∧ leNat (((r.toBytes delay).drop (4 * 1)).take 4) = uns 32 r.net % 256 ^ 4 ∧
      leNat (((r.toBytes delay).drop (4 * 6)).take 4) = delay % 256 ^ 4 := by
  refine ⟨?_, ?_, ?_⟩
  · rw [← leNat_leBytes 4 r.seq]
    simp [HalResult.toBytes]
  · rw [← leNat_leBytes 4 (uns 32 r.net)]
    simp [HalResult.toBytes]
  · rw [← leNat_leBytes 4 delay]
    simp [HalResult.toBytes, List.drop_append, List.drop_eq_nil_of_le]

/-- What the page shows of the queue's head (R545): the record and its stamp. -/
def halShow (r : HalResult) (delayUs t : Nat) : Act := .seq
  (.each (List.range 8) fun j => .wrN (Reg.HAL.RES j) (leNat (((r.toBytes delayUs).drop (4 * j)).take 4)))
  (.wr64 Reg.HAL.RES_STAMP_LO Reg.HAL.RES_STAMP_HI t)

def resRegs : List RegRef := [Reg.HAL.RES_STAMP_LO, Reg.HAL.RES_STAMP_HI] ++ (List.range 8).map Reg.HAL.RES

theorem only_halShow (r : HalResult) (delayUs t : Nat) : (halShow r delayUs t).Only (.quiet resRegs) := by
  simp only [halShow, only_seq, only_each, only_wrN, only_wr64, quiet_scope_reg, resRegs]
  exact ⟨fun j hj => List.mem_append_right _ (List.mem_map_of_mem hj), by simp, by simp⟩

theorem halShow_effect {s : State} (hs : keysRise s.regs) (r : HalResult) (delay : Word) {t : Nat} (ht : t < 18446744073709551616) :
    let u := (halShow r delay.toNat t).run s
    u.rd (Reg.HAL.RES 0) = BitVec.ofNat 32 r.seq ∧ u.rd (Reg.HAL.RES 1) = BitVec.ofInt 32 r.net ∧ u.rd (Reg.HAL.RES 6) = delay ∧
      u.rd64 Reg.HAL.RES_STAMP_LO Reg.HAL.RES_STAMP_HI = t := by
  let words : Act := .each (List.range 8) fun j => .wrN (Reg.HAL.RES j) (leNat (((r.toBytes delay.toNat).drop (4 * j)).take 4))
  have hrun : (halShow r delay.toNat t).run s = (Act.wr64 Reg.HAL.RES_STAMP_LO Reg.HAL.RES_STAMP_HI t).run (words.run s) := rfl
  have hw : keysRise (words.run s).regs := rise_run _ hs
  have hrd {j : Nat} (hj : j < 8) : ((Act.wr64 Reg.HAL.RES_STAMP_LO Reg.HAL.RES_STAMP_HI t).run (words.run s)).rd (Reg.HAL.RES j) =
      BitVec.ofNat 32 (leNat (((r.toBytes delay.toNat).drop (4 * j)).take 4)) := by
    refine Eq.trans ?_ (rd_each_range (f := Reg.HAL.RES) (g := fun j => leNat (((r.toBytes delay.toNat).drop (4 * j)).take 4))
      (fun i hi => mask_res ⟨i, hi⟩) (fun i hi k hk hne => by simp only [RegRef.key, ne_eq]; omega) hs hj)
    exact (rd_setReg_off (r := Reg.HAL.RES_STAMP_HI) (by simp; omega)).trans (rd_setReg_off (r := Reg.HAL.RES_STAMP_LO) (by simp; omega))
  obtain ⟨w0, w1, w6⟩ := result_word r delay.toNat
  rw [hrun]
  refine ⟨?_, ?_, ?_, rd64_wr64 hw mask_resStamp.1 mask_resStamp.2 (by decide) ht⟩
  · rw [hrd (by decide), w0]
    apply BitVec.eq_of_toNat_eq
    simp only [BitVec.toNat_ofNat]
    omega
  · rw [hrd (by decide), w1, ← ofNat_uns]
    apply BitVec.eq_of_toNat_eq
    simp only [BitVec.toNat_ofNat]
    omega
  · rw [hrd (by decide), w6]
    apply BitVec.eq_of_toNat_eq
    have := delay.isLt
    simp only [BitVec.toNat_ofNat]
    omega

/-- The stamp of a result that arrives now (R544). -/
def State.resultStamp (s : State) (delay : Word) (r : HalResult) : Nat := s.now - 1000 * (delay.toNat + r.winUs)

theorem resultArrive_run {s : State} {delay : Word} {r : HalResult} {l : List HalResult} (hq : s.hw.hal.queue = r :: l)
    (hup : s.bit Reg.HAL.HAL_STATUS 3 = true) (hsh : s.hw.hal.shown = false) :
    (s.bit Reg.HAL.HAL_CTRL 0 = false → (resultArriveAct delay.toNat false).run s =
      (halRaise 0).run ((Act.hal fun h => { h with shown := true }).run ((halShow r delay.toNat (s.resultStamp delay r)).run s))) ∧
    (s.bit Reg.HAL.HAL_CTRL 0 = true → s.streamFull (s.fld Reg.HAL.HAL_CTRL 9 1) = false → ∃ n u, (resultArriveAct delay.toNat false).run s =
      halPop.run ((Act.bump Reg.HAL.UNIT_CNT 1).run ((Act.publish n u).run ((halShow r delay.toNat (s.resultStamp delay r)).run s)))) ∧
    (s.bit Reg.HAL.HAL_CTRL 0 = true → s.streamFull (s.fld Reg.HAL.HAL_CTRL 9 1) = true → (resultArriveAct delay.toNat false).run s = s) := by
  have hrun : (resultArriveAct delay.toNat false).run s = ((if (s.rd Reg.HAL.HAL_CTRL).getLsbD 0 then
        Act.when (!s.streamFull (bits (s.rd Reg.HAL.HAL_CTRL) 9 1)) (.all [halShow r delay.toNat (s.resultStamp delay r),
          .publish (bits (s.rd Reg.HAL.HAL_CTRL) 9 1) (unitWith (s.resultStamp delay r)
            (if (s.rd Reg.HAL.HAL_CTRL).getLsbD 22 then s.itemAt (bits (s.rd Reg.HAL.HAL_CTRL) 21 18) (s.resultStamp delay r) else 0) 3
            (bits (s.rd Reg.HAL.HAL_CTRL) 17 10) 0x13 704 (if !r.flags.getLsbD 0 || s.hw.boot.pfLow then flagsOf [fINVALID] else 0)
            (r.toBytes delay.toNat)), .bump Reg.HAL.UNIT_CNT 1, halPop])
      else .all [halShow r delay.toNat (s.resultStamp delay r), .hal fun h => { h with shown := true }, halRaise 0]).run s) := by
    rw [resultArriveAct, run_get, if_neg Bool.false_ne_true, hq]
    exact (run_when _ _ s).trans (if_pos (by rw [hup, hsh]; rfl))
  refine ⟨fun h => ?_, fun h hfull => ?_, fun h hfull => ?_⟩
  · rw [hrun, if_neg (by rw [show (s.rd Reg.HAL.HAL_CTRL).getLsbD 0 = false from h]; exact Bool.false_ne_true)]
    rfl
  · rw [hrun, if_pos (show (s.rd Reg.HAL.HAL_CTRL).getLsbD 0 = true from h), run_when, if_pos (by rw [show s.streamFull (bits (s.rd Reg.HAL.HAL_CTRL) 9 1) = false from hfull]; rfl)]
    exact ⟨_, _, rfl⟩
  · rw [hrun, if_pos (show (s.rd Reg.HAL.HAL_CTRL).getLsbD 0 = true from h), run_when, if_neg (by rw [show s.streamFull (bits (s.rd Reg.HAL.HAL_CTRL) 9 1) = true from hfull]; simp)]

theorem resultArrive_shown {s : State} (hs : keysRise s.regs) {delay : Word} {r : HalResult} {l : List HalResult} (hq : s.hw.hal.queue = r :: l)
    (hup : s.bit Reg.HAL.HAL_STATUS 3 = true) (hsh : s.hw.hal.shown = false) (hc : s.bit Reg.HAL.HAL_CTRL 0 = false) :
    let t := (resultArriveAct delay.toNat false).run s
    t.hw.hal.shown = true ∧
      t.hw.hal.queue = s.hw.hal.queue ∧ t.rd (Reg.HAL.RES 0) = BitVec.ofNat 32 r.seq ∧
      t.rd (Reg.HAL.RES 1) = BitVec.ofInt 32 r.net ∧ t.rd (Reg.HAL.RES 6) = delay ∧
      t.rd64 Reg.HAL.RES_STAMP_LO Reg.HAL.RES_STAMP_HI = s.now - 1000 * (delay.toNat + r.winUs) ∧ t.pend .HAL 0 0 = true ∧
      SameRegs ([Reg.HAL.RES_STAMP_LO, Reg.HAL.RES_STAMP_HI] ++ (List.range 8).map Reg.HAL.RES ++ irqOf .HAL 0) s t ∧
      SameRest s t := by
  have hstamp : s.resultStamp delay r < 18446744073709551616 := lt_of_le_of_lt (Nat.sub_le _ _) s.tsc.isLt
  rw [(resultArrive_run hq hup hsh).1 hc]
  obtain ⟨e1, e2, e3, e4⟩ := halShow_effect hs r delay hstamp
  have hshow := (only_halShow r delay.toNat (s.resultStamp delay r)).quiet s
  have hu : keysRise ((halShow r delay.toNat (s.resultStamp delay r)).run s).regs := rise_run _ hs
  generalize (halShow r delay.toNat (s.resultStamp delay r)).run s = u at e1 e2 e3 e4 hshow hu ⊢
  obtain ⟨e, he⟩ := hshow.hw
  obtain ⟨k1, k2, k3⟩ := (only_halRaise 0 (l := irqOf .HAL 0) (by simp)).keeping ((Act.hal fun h => { h with shown := true }).run u)
  have hpend : ((halRaise 0).run ((Act.hal fun h => { h with shown := true }).run u)).pend .HAL 0 0 = true :=
    bit_raise (s := (Act.hal _).run u) hu (by decide) (by decide)
  have hsame : SameRegs [] u ((Act.hal fun h => { h with shown := true }).run u) := fun _ _ => rfl
  have hrest : SameRest u ((Act.hal fun h => { h with shown := true }).run u) := ⟨rfl, rfl, rfl, rfl, rfl⟩
  have hhal : ((Act.hal fun h => { h with shown := true }).run u).hw.hal = { s.hw.hal with shown := true } :=
    congrArg (fun h : Hw => { h.hal with shown := true }) he
  rw [hhal] at k1
  generalize (Act.hal fun h => { h with shown := true }).run u = v at k1 k2 k3 hsame hrest hpend ⊢
  generalize (halRaise 0).run v = t at k1 k2 k3 hpend ⊢
  have hrd {off : Nat} (h : 0x10 ≠ off % 4096) (h' : 0x1C ≠ off % 4096) : t.rd ⟨.HAL, 0, off⟩ = u.rd ⟨.HAL, 0, off⟩ :=
    (k2.rd_off (by simp [irqOf, h, h'])).trans (hsame _ (by simp))
  refine ⟨congrArg HalSt.shown k1, (congrArg HalSt.queue k1).trans rfl, (hrd (by decide) (by decide)).trans e1, (hrd (by decide) (by decide)).trans e2,
    (hrd (by decide) (by decide)).trans e3, ?_, hpend, ?_, hshow.toSameRest.trans (hrest.trans k3)⟩
  · rw [State.rd64, hrd (by decide) (by decide), hrd (by decide) (by decide)]
    exact e4
  · have h := (hshow.regs.mono (l' := resRegs ++ irqOf .HAL 0) (by simp)).trans ((hsame.mono (by simp)).trans (k2.mono (by simp)))
    exact h

theorem halPop_effect (s : State) :
    let t := halPop.run s
    t.hw.hal = { s.hw.hal with queue := s.hw.hal.queue.tail, shown := false } ∧ SameRegs [Reg.HAL.HAL_STATUS] s t ∧ SameRest s t := by
  have hlast (n : Nat) (b : Bool) : (Act.when b (.setFld Reg.HAL.HAL_STATUS 16 8 n)).Only (.keeping (·.hal) [Reg.HAL.HAL_STATUS]) := by simp
  let u := (Act.hal fun h => { h with queue := h.queue.tail, shown := false }).run s
  obtain ⟨k1, k2, k3⟩ := (hlast u.hw.hal.queue.length (u.bit Reg.HAL.HAL_STATUS 3)).keeping u
  have hrun : halPop.run s = (Act.when (u.bit Reg.HAL.HAL_STATUS 3) (.setFld Reg.HAL.HAL_STATUS 16 8 u.hw.hal.queue.length)).run u := rfl
  rw [hrun]
  exact ⟨k1, k2, ⟨k3.mem, k3.poison, k3.es, k3.tsc, k3.out⟩⟩

theorem resultArrive_unit {s : State} (hs : keysRise s.regs) {delay : Word} {r : HalResult} {l : List HalResult} (hq : s.hw.hal.queue = r :: l)
    (hup : s.bit Reg.HAL.HAL_STATUS 3 = true) (hsh : s.hw.hal.shown = false) (hc : s.bit Reg.HAL.HAL_CTRL 0 = true)
    (hfull : s.streamFull (s.fld Reg.HAL.HAL_CTRL 9 1) = false) :
    let t := (resultArriveAct delay.toNat false).run s
    t.hw.hal.queue = l ∧ t.hw.hal.shown = false ∧
        Counts Reg.HAL.UNIT_CNT 1 s t ∧ t.rd (Reg.HAL.RES 0) = BitVec.ofNat 32 r.seq ∧ t.es = s.es ∧ t.tsc = s.tsc := by
  have hstamp : s.resultStamp delay r < 18446744073709551616 := lt_of_le_of_lt (Nat.sub_le _ _) s.tsc.isLt
  obtain ⟨n, x, hrun⟩ := (resultArrive_run (delay := delay) hq hup hsh).2.1 hc hfull
  rw [hrun]
  obtain ⟨e1, -, -, -⟩ := halShow_effect hs r delay hstamp
  have hshow := (only_halShow r delay.toNat (s.resultStamp delay r)).quiet s
  have hu : keysRise ((halShow r delay.toNat (s.resultStamp delay r)).run s).regs := rise_run _ hs
  generalize (halShow r delay.toNat (s.resultStamp delay r)).run s = u at e1 hshow hu ⊢
  have hhal : u.hw.hal = s.hw.hal := hshow.part (·.hal)
  have hp := units_publish n x
  have hv : keysRise ((Act.publish n x).run u).regs := rise_run _ hu
  have hcnt := counts_bump hv mask_halCounts.1 1
  have hb : Quiet [Reg.HAL.UNIT_CNT] ((Act.publish n x).run u) ((Act.bump Reg.HAL.UNIT_CNT 1).run ((Act.publish n x).run u)) := quiet_bump _ _ _
  have hhal' : ((Act.bump Reg.HAL.UNIT_CNT 1).run ((Act.publish n x).run u)).hw.hal = s.hw.hal :=
    (hb.part (·.hal)).trans ((hp.units_part (fun h => h.hal) (fun _ => rfl) u).trans hhal)
  obtain ⟨k1, k2, k3⟩ := halPop_effect ((Act.bump Reg.HAL.UNIT_CNT 1).run ((Act.publish n x).run u))
  rw [hhal', hq] at k1
  refine ⟨congrArg HalSt.queue k1, congrArg HalSt.shown k1, fun h => ?_, ?_, k3.es.trans (hb.es.trans ((hp.es id u).trans hshow.es)),
    k3.tsc.trans (hb.tsc.trans ((hp.tsc id u).trans hshow.tsc))⟩
  · have h0 : ((Act.publish n x).run u).rd Reg.HAL.UNIT_CNT = s.rd Reg.HAL.UNIT_CNT :=
      (hp.units_rd (by decide) u).trans (hshow.regs _ (by simp only [resRegs]; decide))
    unfold Counts at hcnt
    rw [h0] at hcnt
    exact (congrArg BitVec.toNat (k2.rd_off (by simp))).trans (hcnt h)
  · exact (k2.rd_off (by simp)).trans ((hb.regs.rd_off (by simp)).trans ((hp.units_rd (by decide) u).trans e1))

theorem resPop_effect {s : State} (hl : s.live) (v : Word) (hacc : s.accepts 0 Reg.HAL.RES_POP (v ||| 1) = true)
    (hc : s.bit Reg.HAL.HAL_CTRL 0 = false) (hsh : s.hw.hal.shown = true) :
    let t := (hostReg 0 Reg.HAL.RES_POP (v ||| 1)).run s
    t.hw.hal.queue = s.hw.hal.queue.tail ∧ t.hw.hal.shown = false ∧
      SameRegs (Reg.HAL.HAL_STATUS :: hostTrail .HAL 0) s t ∧ t.es = s.es ∧ t.tsc = s.tsc ∧ t.out = s.out := by
  intro t
  obtain ⟨hrow, h0⟩ := resPop_row
  obtain ⟨q, hq, hj⟩ : ∃ q, Written s _ _ _ q ∧ Journaled ((resPopAct (v ||| 1)).run q) t := hostReg_run hl.1 hrow hacc rfl
  have hctrl : q.bit Reg.HAL.HAL_CTRL 0 = false := (congrArg (BitVec.getLsbD · 0) (hq.rd_off (q := Reg.HAL.HAL_CTRL) (by simp) (by simp))).trans hc
  have hrun : (resPopAct (v ||| 1)).run q = halPop.run q := by
    rw [resPopAct, run_get, run_when, if_pos (by rw [getLsbD_or_one, hctrl, hq.hw, hsh]; rfl)]
  rw [hrun] at hj
  obtain ⟨k1, k2, k3⟩ := halPop_effect q
  rw [hq.hw] at k1
  refine ⟨(congrArg HalSt.queue (hj.part (·.hal))).trans (congrArg HalSt.queue k1),
    (congrArg HalSt.shown (hj.part (·.hal))).trans (congrArg HalSt.shown k1), ?_, hq.sameRest k3 hj⟩
  exact hj.sameRegs (b := .HAL) (i := 0) (hq.kept (fun _ => rfl) h0 (by simp)) k2 (by simp [hostTrail]) (by simp) (by simp)

/-! ### Frames, checks and resets of the island -/

/-- HAL_STATUS as the island reports it (R565). -/
def HalSt.status (h : HalSt) : Nat :=
  h.state + 8 + 16 * b2n h.pfWarn + 32 * b2n (decide (auditSize ≤ h.audit.length)) + 64 * b2n h.idOk + 256 * h.queue.length

theorem halReport_effect {s : State} (hs : keysRise s.regs) :
    let t := halReport.run s
    t.rd Reg.HAL.HAL_STATUS = BitVec.ofNat 32 s.hw.hal.status &&& 0x0001FF7F ∧
      t.rd Reg.HAL.EVENT_CNT = BitVec.ofNat 32 s.hw.hal.audit.length := by
  let h := s.hw.hal
  let tail : Act := .all [.wrN Reg.HAL.AUDIT_FREE (auditSize - h.audit.length), .wr Reg.HAL.FW_CRC h.crc,
    .wr (Reg.HAL.SW_ID 0) (h.swId.setWidth 32), .wr (Reg.HAL.SW_ID 1) ((h.swId >>> 32).setWidth 32),
    .wr (Reg.HAL.SW_ID 2) ((h.swId >>> 64).setWidth 32), .wr (Reg.HAL.SW_ID 3) ((h.swId >>> 96).setWidth 32),
    .wr Reg.HAL.OP_SECONDS (openWord s.freeCtr 0)]
  let u := s.useFree.setReg Reg.HAL.HAL_STATUS (BitVec.ofNat 32 s.hw.hal.status)
  let v := u.setReg Reg.HAL.EVENT_CNT (BitVec.ofNat 32 s.hw.hal.audit.length)
  have hrun : halReport.run s = tail.run v := rfl
  have htail : tail.Only (.keeping (·.hal) [Reg.HAL.AUDIT_FREE, Reg.HAL.FW_CRC, Reg.HAL.SW_ID 0, Reg.HAL.SW_ID 1, Reg.HAL.SW_ID 2,
    Reg.HAL.SW_ID 3, Reg.HAL.OP_SECONDS]) := by simp [tail]
  obtain ⟨-, k2, -⟩ := htail.keeping v
  have hu : keysRise u.regs := keysRise_setReg (s := s.useFree) hs _ _
  rw [hrun]
  refine ⟨?_, ?_⟩
  · rw [k2.rd_off (by simp), show v.rd Reg.HAL.HAL_STATUS = u.rd Reg.HAL.HAL_STATUS from rd_setReg_off (by simp),
      rd_setReg_same (s := s.useFree) hs, mask_halStatus]
  · rw [k2.rd_off (by simp)]
    exact rd_setReg_full hu mask_halCounts.2.2.2 _

theorem halStatus_fields {h : HalSt} (hst : h.state < 8) (hq : h.queue.length ≤ 256) :
    let w := BitVec.ofNat 32 h.status &&& 0x0001FF7F
    w.getLsbD 3 = true ∧ bits w 2 0 = h.state ∧ bits w 16 8 = h.queue.length := by
  have hb (b : Bool) : b2n b ≤ 1 := by cases b <;> decide
  obtain ⟨a, ha, hw⟩ : ∃ a, a ≤ 7 ∧ h.status = h.state + 8 + 16 * a + 256 * h.queue.length := by
    refine ⟨b2n h.pfWarn + 2 * b2n (decide (auditSize ≤ h.audit.length)) + 4 * b2n h.idOk, ?_, ?_⟩
    · have := hb h.pfWarn; have := hb (decide (auditSize ≤ h.audit.length)); have := hb h.idOk
      omega
    · unfold HalSt.status; omega
  intro w
  refine ⟨?_, ?_, ?_⟩
  · rw [BitVec.getLsbD_and, BitVec.getLsbD_ofNat, hw, Nat.testBit_eq_decide_div_mod_eq]
    simp only [decide_eq_true (by decide : 3 < 32), Bool.true_and, Bool.and_eq_true, decide_eq_true_eq]
    exact ⟨by omega, by decide⟩
  · rw [show bits w 2 0 = _ from bits_and_mask _ _ (by decide), bits, BitVec.toNat_ofNat, hw]
    omega
  · rw [show bits w 16 8 = _ from bits_and_mask _ _ (by decide), bits, BitVec.toNat_ofNat, hw, Nat.shiftRight_eq_div_pow]
    omega

theorem statusFrame_effect {s : State} (hs : keysRise s.regs) (hst : s.hw.hal.state < 8) (hq : s.hw.hal.queue.length ≤ 256) :
    let t := statusFrameAct.run s
    t.bit Reg.HAL.HAL_STATUS 3 = true ∧
      t.fld Reg.HAL.HAL_STATUS 2 0 = s.hw.hal.state ∧ t.fld Reg.HAL.HAL_STATUS 16 8 = s.hw.hal.queue.length ∧
      t.rd Reg.HAL.EVENT_CNT = BitVec.ofNat 32 s.hw.hal.audit.length ∧ t.hw.hal.frame = s.now ∧ t.hw.hal.lostN = 0 ∧
      (s.hw.hal.lostN ≠ 0 → Counts Reg.HAL.LOST_CNT s.hw.hal.lostN s t ∧ t.pend .HAL 0 6 = true) ∧
      SameRegs (Reg.HAL.LOST_CNT :: halShown) s t ∧ SameRest s t := by
  let n := s.hw.hal.lostN
  let u := (Act.hal fun h => { h with frame := s.now, lostN := 0 }).run s
  let last : Act := .when (n != 0) (.seq (.bump Reg.HAL.LOST_CNT n) (halRaise 6))
  have hrun : statusFrameAct.run s = last.run (halReport.run u) := rfl
  obtain ⟨r1, r2⟩ := halReport_effect (s := u) hs
  obtain ⟨p1, p2, p3⟩ := only_halReport.keeping u
  have hv : keysRise (halReport.run u).regs := rise_run _ (s := u) hs
  have hcnt : (halReport.run u).rd Reg.HAL.LOST_CNT = s.rd Reg.HAL.LOST_CNT := p2.rd_off (by simp [halShown, irqOf])
  generalize halReport.run u = v at hrun r1 r2 p1 p2 p3 hv hcnt
  have hlast : Quiet (Reg.HAL.LOST_CNT :: irqOf .HAL 0) v (last.run v) := Act.Only.quiet (by simp [last, halRaise, irqOf]) v
  obtain ⟨f1, f2, f3⟩ := halStatus_fields (h := s.hw.hal) hst hq
  have hk {off : Nat} (h : off % 4096 ≠ 0x10 ∧ off % 4096 ≠ 0x1C ∧ off % 4096 ≠ 0x7C) : (last.run v).rd ⟨.HAL, 0, off⟩ = v.rd ⟨.HAL, 0, off⟩ :=
    hlast.regs.rd_off (by simp [irqOf, h.1.symm, h.2.1.symm, h.2.2.symm])
  have hstat : (last.run v).rd Reg.HAL.HAL_STATUS = BitVec.ofNat 32 s.hw.hal.status &&& 0x0001FF7F := (hk (by decide)).trans r1
  have hhal : (last.run v).hw.hal = { s.hw.hal with frame := s.now, lostN := 0 } := (hlast.part (·.hal)).trans p1
  rw [hrun]
  refine ⟨?_, ?_, ?_, (hk (by decide)).trans r2, congrArg HalSt.frame hhal, congrArg HalSt.lostN hhal, fun hn => ?_, ?_, ?_⟩
  · rw [State.bit, hstat]; exact f1
  · rw [State.fld, hstat]; exact f2
  · rw [State.fld, hstat]; exact f3
  · have hl : last.run v = (halRaise 6).run ((Act.bump Reg.HAL.LOST_CNT n).run v) := (run_when _ _ v).trans (if_pos (bne_iff_ne.2 hn))
    rw [hl]
    refine ⟨fun h => ?_, bit_raise (rise_run _ hv) (by decide) (by decide)⟩
    have hc := counts_bump hv mask_halCounts.2.2.1 n
    unfold Counts at hc
    rw [hcnt] at hc
    rw [show ((halRaise 6).run ((Act.bump Reg.HAL.LOST_CNT n).run v)).rd Reg.HAL.LOST_CNT = _ from rd_raise_off (by simp) (by simp)]
    exact hc h
  · have h := (p2.mono (l' := Reg.HAL.LOST_CNT :: halShown) (List.subset_cons_self _ _)).trans
      (hlast.regs.mono (List.cons_subset_cons _ irqOf_halShown))
    exact h
  · have h := p3.trans hlast.toSameRest
    exact ⟨h.mem, h.poison, h.es, h.tsc, h.out⟩

theorem laneLost_effect {s : State} (hs : keysRise s.regs) (hup : s.bit Reg.HAL.HAL_STATUS 3 = true)
    (hlim : s.hw.hal.frame + 3 * ((paramOf s.hw.hal.params 0x100).toNat * 1000000) ≤ s.now) :
    let t := laneLostAct.run s
    t.bit Reg.HAL.HAL_STATUS 3 = false ∧
      t.fld Reg.HAL.HAL_STATUS 2 0 = hHALTED ∧ t.hw.hal.shown = false ∧ t.pend .HAL 0 8 = true ∧
      SameRegs (Reg.HAL.HAL_STATUS :: irqOf .HAL 0) s t ∧ SameRest s t := by
  let u := s.setReg Reg.HAL.HAL_STATUS (setBits (setBits (s.rd Reg.HAL.HAL_STATUS) 3 3 0) 2 0 hHALTED)
  let v := (Act.hal fun h => { h with shown := false }).run u
  have hrun : laneLostAct.run s = (halRaise 8).run v := by
    rw [laneLostAct, run_get]
    exact (run_when _ _ s).trans (if_pos (by rw [hup, decide_eq_true hlim]; rfl))
  have hv : keysRise v.regs := keysRise_setReg hs _ _
  obtain ⟨k1, k2, k3⟩ := (only_halRaise 8 (l := irqOf .HAL 0) (by simp)).keeping v
  have hstat : ((halRaise 8).run v).rd Reg.HAL.HAL_STATUS = setBits (setBits (s.rd Reg.HAL.HAL_STATUS) 3 3 0) 2 0 hHALTED &&& 0x0001FF7F := by
    rw [k2.rd_off (by simp [irqOf]), show v.rd Reg.HAL.HAL_STATUS = u.rd Reg.HAL.HAL_STATUS from rfl, rd_setReg_same hs, mask_halStatus]
  rw [hrun]
  refine ⟨?_, ?_, congrArg HalSt.shown k1, bit_raise hv (by decide) (by decide), ?_, ⟨k3.mem, k3.poison, k3.es, k3.tsc, k3.out⟩⟩
  · rw [State.bit, hstat, BitVec.getLsbD_and, getLsbD_setBits, if_neg (by omega), getLsbD_setBits, if_pos (by omega)]
    rfl
  · rw [State.fld, hstat, bits_and_mask _ _ (by decide), bits_setBits_same _ _ (by decide)]
    rfl
  · have h1 : SameRegs [Reg.HAL.HAL_STATUS] s v := (quiet_setReg s _ _).regs
    exact (h1.mono (by simp)).trans (k2.mono (by simp))

/-- The island's events end with a status report. -/
theorem halTell_after {s t : State} (hregs : SameRegs halShown s t) (hrest : SameRest s t) :
    let v := halTell.run t
    v.hw.hal = t.hw.hal ∧ (∀ k, v.pend .HAL 0 k = t.pend .HAL 0 k) ∧ SameRegs halShown s v ∧ SameRest s v := by
  obtain ⟨k1, k2, k3⟩ := only_halTell.keeping t
  exact ⟨k1, pend_halTell t, hregs.trans k2, hrest.trans k3⟩

theorem laneLost_idle {s : State} (h : s.now < s.hw.hal.frame + 3 * ((paramOf s.hw.hal.params 0x100).toNat * 1000000)) :
    laneLostAct.run s = s := by
  rw [laneLostAct, run_get]
  exact (run_when _ _ s).trans (if_neg (by rw [decide_eq_false (by omega), Bool.and_false]; exact Bool.false_ne_true))

theorem badResult_effect (delay : Nat) (s : State) (hs : keysRise s.regs) :
    let t := (resultArriveAct delay true).run s
    Counts Reg.HAL.LANE_ERR 1 s t ∧ t.hw.hal.queue = s.hw.hal.queue ∧ SameRegs [Reg.HAL.LANE_ERR] s t ∧ SameRest s t := by
  have hb : Quiet [Reg.HAL.LANE_ERR] s ((Act.bump Reg.HAL.LANE_ERR 1).run s) := quiet_bump _ _ _
  exact ⟨counts_bump hs mask_halCounts.2.1 1, hb.part (·.hal.queue), hb.regs, hb.toSameRest⟩

theorem firmwareCheck_effect {s : State} (hs : keysRise s.regs) (crc : Word) (hst : s.hw.hal.state ≠ hSTART) :
    let t := (firmwareCheckAct crc).run s
    t.hw.hal.crc = crc ∧ t.hw.hal.idOk = (s.hw.hal.idOk && crc == s.hw.hal.crcRef) ∧
      (crc ≠ s.hw.hal.crcRef → t.hw.hal.state = hERROR ∧ t.pend .HAL 0 7 = true) ∧
      (crc = s.hw.hal.crcRef → t.hw.hal.state = s.hw.hal.state) ∧ SameRegs halShown s t ∧ SameRest s t := by
  have hrun : (firmwareCheckAct crc).run s = halTell.run ((halChecked crc (crc == s.hw.hal.crcRef)).run s) :=
    (run_when _ _ s).trans (if_pos (bne_iff_ne.2 hst))
  obtain ⟨e1, e2, e3, e4⟩ := halChecked_effect hs crc (crc == s.hw.hal.crcRef)
  obtain ⟨k1, k2, k3, k4⟩ := halTell_after e3 e4
  rw [hrun]
  refine ⟨by rw [k1, e1], by rw [k1, e1], fun h => ?_, fun h => ?_, k3, k4⟩
  · have hno : (crc == s.hw.hal.crcRef) = false := by simpa using h
    exact ⟨by rw [k1, e1, hno]; rfl, (k2 7).trans (e2 hno).1⟩
  · rw [k1, e1, beq_iff_eq.2 h]
    rfl

/-- The end of the start checks, the reports apart. -/
def islandStarted (crc : Word) (ok : Bool) : Act := .all
  [.hal fun h => { h with state := hRUN, idOk := true, window := h.params }, halCheck crc, .when (!ok) halError,
   .get fun t => .when (t.hw.hal.state == hRUN) (halRaise 4)]

theorem islandStart_run {s : State} (crc : Word) (auditOk convOk : Bool) (hst : s.hw.hal.state = hSTART) :
    (islandStartAct crc auditOk convOk).run s = halTell.run ((islandStarted crc (auditOk && convOk)).run s) := by
  rw [islandStartAct, run_get, ← Bool.not_and]
  exact (run_when _ _ s).trans (if_pos (beq_iff_eq.2 hst))

/-- The island runs when every check passed. -/
theorem islandStarted_effect {s : State} (hs : keysRise s.regs) (crc : Word) (ok : Bool) :
    let t := (islandStarted crc ok).run s
    ((crc == s.hw.hal.crcRef && ok) = true → t.hw.hal.state = hRUN ∧ t.pend .HAL 0 4 = true) ∧
      ((crc == s.hw.hal.crcRef && ok) = false → t.hw.hal.state = hERROR ∧ t.pend .HAL 0 3 = true) ∧
      t.hw.hal.window = s.hw.hal.params ∧ SameRegs halShown s t ∧ SameRest s t := by
  let u := (Act.hal fun h => { h with state := hRUN, idOk := true, window := h.params }).run s
  let v := (halChecked crc (crc == s.hw.hal.crcRef)).run u
  let w := (Act.when (!ok) halError).run v
  have hrun : (islandStarted crc ok).run s = (Act.when (w.hw.hal.state == hRUN) (halRaise 4)).run w := rfl
  obtain ⟨e1, e2, e3, e4⟩ := halChecked_effect (s := u) hs crc (crc == s.hw.hal.crcRef)
  have hv : keysRise v.regs := rise_run _ (s := u) hs
  have hw : keysRise w.regs := rise_run _ hv
  obtain ⟨f1, f2, f3, f4⟩ := halError_effect hv
  have hfail : ok = false → w = halError.run v := fun h => by rw [show w = (Act.when (!ok) halError).run v from rfl, h]; rfl
  have hpass : ok = true → w = v := fun h => by rw [show w = (Act.when (!ok) halError).run v from rfl, h]; rfl
  have hwin : w.hw.hal.window = s.hw.hal.params := by
    cases ok with
    | true => rw [hpass rfl]; exact congrArg HalSt.window e1
    | false => rw [hfail rfl]; exact (congrArg HalSt.window f1).trans (congrArg HalSt.window e1)
  have hframe : SameRegs halShown s w ∧ SameRest s w := by
    have hsv : SameRegs halShown s v ∧ SameRest s v := ⟨e3, e4.mem, e4.poison, e4.es, e4.tsc, e4.out⟩
    cases ok with
    | true => rw [hpass rfl]; exact hsv
    | false => rw [hfail rfl]; exact ⟨hsv.1.trans f3, hsv.2.trans f4⟩
  have hstate : w.hw.hal.state = if crc == s.hw.hal.crcRef && ok then hRUN else hERROR := by
    cases ok with
    | true => rw [hpass rfl, Bool.and_true]; exact congrArg HalSt.state e1
    | false => rw [hfail rfl, Bool.and_false]; exact congrArg HalSt.state f1
  have hvstate : v.hw.hal.state = if crc == s.hw.hal.crcRef then hRUN else hERROR := congrArg HalSt.state e1
  have hstays : (crc == s.hw.hal.crcRef) = false → halError.run v = v := fun h =>
    (run_when _ _ v).trans (if_neg (by rw [hvstate, h]; simp))
  have hne : hRUN ≠ hERROR := by decide
  have hpend : (crc == s.hw.hal.crcRef && ok) = false → w.pend .HAL 0 3 = true := fun h => by
    cases hc : crc == s.hw.hal.crcRef with
    | false =>
      have h3 : v.pend .HAL 0 3 = true := (e2 hc).2 hne
      cases ok with
      | true => rw [hpass rfl]; exact h3
      | false => rw [hfail rfl, hstays hc]; exact h3
    | true =>
      rw [hfail (by rw [hc] at h; exact h)]
      exact f2 (by rw [hvstate, if_pos hc]; exact hne)
  rw [hrun]
  clear_value w
  obtain ⟨k1, k2, k3⟩ := (only_halRaise 4 (l := irqOf .HAL 0) (by simp)).keeping w
  by_cases h : (crc == s.hw.hal.crcRef && ok) = true
  · rw [if_pos h] at hstate
    rw [show (Act.when (w.hw.hal.state == hRUN) (halRaise 4)).run w = (halRaise 4).run w from
      (run_when _ _ w).trans (if_pos (beq_iff_eq.2 hstate))]
    exact ⟨fun _ => ⟨(congrArg HalSt.state k1).trans hstate, bit_raise hw (by decide) (by decide)⟩, fun h' => absurd (h.symm.trans h') (by decide),
      (congrArg HalSt.window k1).trans hwin, hframe.1.trans (k2.mono irqOf_halShown), hframe.2.trans k3⟩
  · rw [if_neg h] at hstate
    rw [show (Act.when (w.hw.hal.state == hRUN) (halRaise 4)).run w = w from
      (run_when _ _ w).trans (if_neg (by rw [hstate]; decide))]
    exact ⟨fun h' => absurd h' h, fun h' => ⟨hstate, hpend h'⟩, hwin, hframe⟩

theorem islandStart_effect {s : State} (hs : keysRise s.regs) (crc : Word) (auditOk convOk : Bool) (hst : s.hw.hal.state = hSTART) :
    let t := (islandStartAct crc auditOk convOk).run s
    ((crc == s.hw.hal.crcRef && auditOk && convOk) = true → t.hw.hal.state = hRUN ∧ t.pend .HAL 0 4 = true) ∧
      ((crc == s.hw.hal.crcRef && auditOk && convOk) = false → t.hw.hal.state = hERROR ∧ t.pend .HAL 0 3 = true) ∧
      t.hw.hal.window = s.hw.hal.params ∧ SameRegs halShown s t ∧ SameRest s t := by
  obtain ⟨e1, e2, e3, e4, e5⟩ := islandStarted_effect hs crc (auditOk && convOk)
  obtain ⟨k1, k2, k3, k4⟩ := halTell_after e4 e5
  rw [islandStart_run crc auditOk convOk hst, Bool.and_assoc]
  refine ⟨fun h => ?_, fun h => ?_, (congrArg HalSt.window k1).trans e3, k3, k4⟩
  · exact ⟨(congrArg HalSt.state k1).trans (e1 h).1, (k2 4).trans (e1 h).2⟩
  · exact ⟨(congrArg HalSt.state k1).trans (e2 h).1, (k2 3).trans (e2 h).2⟩

theorem halPowerFail_effect {s : State} (hs : keysRise s.regs) (low : Bool) :
    let t := (halPowerFailAct low).run s
    t.hw.hal.pfWarn = low ∧ (low = true → s.hw.hal.pfWarn = false → t.pend .HAL 0 9 = true) ∧ SameRegs halShown s t ∧ SameRest s t := by
  let u := (Act.when (low && !s.hw.hal.pfWarn) (halRaise 9)).run s
  let v := (Act.hal fun h => { h with pfWarn := low }).run u
  have hrun : (halPowerFailAct low).run s = halTell.run v := rfl
  have hraise : (Act.when (low && !s.hw.hal.pfWarn) (halRaise 9)).Only (.keeping (·.hal) (irqOf .HAL 0)) := by
    rw [only_when]
    exact fun _ => only_halRaise 9 (by simp)
  obtain ⟨-, e2, e3⟩ := hraise.keeping s
  have hregs : SameRegs halShown s v := e2.mono irqOf_halShown
  obtain ⟨k1, k2, k3, k4⟩ := halTell_after hregs (⟨e3.mem, e3.poison, e3.es, e3.tsc, e3.out⟩ : SameRest s v)
  rw [hrun]
  refine ⟨congrArg HalSt.pfWarn k1, fun h h' => (k2 9).trans ?_, k3, k4⟩
  have hu : u = (halRaise 9).run s := (run_when _ _ s).trans (if_pos (by rw [h, h']; rfl))
  have h9 : u.pend .HAL 0 9 = true := by rw [hu]; exact bit_raise hs (by decide) (by decide)
  exact h9

theorem islandClock_effect {s : State} (hs : keysRise s.regs) :
    let t := islandClockAct.run s
    t.hw.hal.state = hERROR ∧ (s.hw.hal.state ≠ hERROR → t.pend .HAL 0 3 = true) ∧ SameRegs halShown s t ∧ SameRest s t := by
  obtain ⟨e1, e2, e3, e4⟩ := halError_effect hs
  obtain ⟨k1, k2, k3, k4⟩ := halTell_after e3 e4
  exact ⟨(congrArg HalSt.state k1).trans (congrArg HalSt.state e1), fun h => (k2 3).trans (e2 h), k3, k4⟩

/-- Settles O50. -/
theorem islandResults : Obligations.IslandResults := by
  refine ⟨fun s w hs hst => ⟨fun hq => ⟨_, always_eq _ s, ?_⟩, fun hq => ⟨_, always_eq _ s, ?_⟩⟩,
    fun s delay r l hl hq hup hsh => ⟨fun hc => ⟨_, command_eq hl.2, resultArrive_shown hl.1.1.1 hq hup hsh hc⟩,
      fun hc hfull => ⟨_, command_eq hl.2, resultArrive_unit hl.1.1.1 hq hup hsh hc hfull⟩, fun hc hfull => ?_⟩,
    fun s delay hl => ⟨_, command_eq hl.2, badResult_effect delay.toNat s hl.1.1.1⟩,
    fun s v hl hacc hc hsh => ⟨_, command_eq hl.2, resPop_effect hl v hacc hc hsh⟩,
    fun s hl hst hq => ⟨_, simply_eq hl.2, statusFrame_effect hl.1.1.1 hst hq⟩,
    fun s hl hup => ⟨fun hlim => ⟨_, simply_eq hl.2, laneLost_effect hl.1.1.1 hup hlim⟩, fun hlim => ?_⟩,
    fun s crc hs hst => ⟨_, always_eq _ s, firmwareCheck_effect hs.1.1 crc hst⟩,
    fun s crc auditOk convOk hs hst => ⟨_, always_eq _ s, islandStart_effect hs.1.1 crc auditOk convOk hst⟩,
    fun s hs => ⟨⟨_, always_eq _ s, rfl, rfl, rfl, rfl, rfl, rfl, rfl, rfl, rfl, rfl, rfl, rfl, rfl⟩,
      fun low => ⟨_, always_eq _ s, halPowerFail_effect hs.1.1 low⟩, _, always_eq _ s, islandClock_effect hs.1.1⟩⟩
  · obtain ⟨h1, -, h3, h4⟩ := weighing_effect w hst
    obtain ⟨e1, e2, e3, e4⟩ := h1 hq
    exact ⟨e1, e2, e3, e4, h3, h4⟩
  · obtain ⟨-, h2, h3, h4⟩ := weighing_effect w hst
    obtain ⟨e1, e2, e3, e4⟩ := h2 hq
    exact ⟨e1, e2, e3, e4, h3, h4⟩
  · exact (command_eq hl.2).trans (by rw [(resultArrive_run hq hup hsh).2.2 hc hfull])
  · exact (simply_eq hl.2).trans (by rw [laneLost_idle hlim])

end Sys2Proof.Machine

/-! ## Proofs: functional safety (12_functional_safety)

SAFE's commands and states (O46), its results, outputs and self-tests (O47). -/

namespace Sys2Proof.Machine

-- One theorem after the other: elaborated side by side, they hold more threads than the memory limit of a check allows.
set_option Elab.async false

/-! ### What stays true over a program -/

/-- What holds of a state with registers in order, holds of the program's result. -/
def Act.Holds (P : State → Prop) (a : Act) : Prop := ∀ s, keysRise s.regs → P s → P (a.run s)

section
variable {P : State → Prop}

theorem holds_nil : Act.nil.Holds P := fun _ _ h => h
theorem Act.Holds.seq {a b : Act} (ha : a.Holds P) (hb : b.Holds P) : (Act.seq a b).Holds P :=
  fun s hs h => hb _ (rise_run a hs) (ha s hs h)
theorem holds_all_nil : (Act.all []).Holds P := fun _ _ h => h
theorem Act.Holds.cons {a : Act} {l : List Act} (ha : a.Holds P) (hl : (Act.all l).Holds P) : (Act.all (a :: l)).Holds P := ha.seq hl
theorem Act.Holds.when {a : Act} {b : Bool} (ha : b = true → a.Holds P) : (Act.when b a).Holds P := fun s hs h => by
  rw [run_when]
  split
  next hb => exact ha hb s hs h
  next => exact h
theorem Act.Holds.get {k : State → Act} (h : ∀ s, (k s).Holds P) : (Act.get k).Holds P := fun s hs hp => h s s hs hp
theorem Act.Holds.each {β : Type} {l : List β} {f : β → Act} (h : ∀ x ∈ l, (f x).Holds P) : (Act.each l f).Holds P := by
  induction l with
  | nil => exact fun _ _ h => h
  | cons x l ih => exact (h x List.mem_cons_self).cons (ih fun y hy => h y (List.mem_cons_of_mem _ hy))
end

theorem Act.Keeps.holds {α : Type} {π : State → α} {a : Act} (h : a.Keeps π) (Q : α → Prop) : a.Holds fun s => Q (π s) :=
  fun s hs hp => (congrArg Q (h s hs)).mpr hp

/-! ### What SAFE's reports leave alone -/

/-- SAFE's block state without the moments of its reports. -/
def SafeSt.core (x : SafeSt) : SafeSt := { x with statusAt := 0, routeAt := 0, timely := 0, lostAt := none }

/-- What the reports may change beside SAFE_STATE and the sources. -/
def Scope.safeQuiet : Scope :=
  { reg := fun r => 0x140 ≤ r.blk.slot ∨ r ∈ [Reg.CMP.AUTH_REFUSE, Reg.SAFE.GAP_MAX], mem := True, poison := True, out := True,
    hw := fun f => ∀ h : Hw, (f h).safe.core = h.safe.core }

@[simp] theorem safeQuiet_reg (r : RegRef) :
    Scope.safeQuiet.reg r ↔ 0x140 ≤ r.blk.slot ∨ r ∈ [Reg.CMP.AUTH_REFUSE, Reg.SAFE.GAP_MAX] := .rfl
@[simp] theorem safeQuiet_hw (f : Hw → Hw) : Scope.safeQuiet.hw f ↔ ∀ h : Hw, (f h).safe.core = h.safe.core := .rfl
@[simp] theorem safeQuiet_mem : Scope.safeQuiet.mem := trivial
@[simp] theorem safeQuiet_poison : Scope.safeQuiet.poison := trivial
@[simp] theorem safeQuiet_out : Scope.safeQuiet.out := trivial

/-- SAFE_STATE as the outputs, VALID and DEGRADED follow (R507 to R509). -/
def shownState (w : Word) (valid deg on : Nat) : Word := setBits (setBits (setBits (setBits w 4 4 valid) 5 5 deg) 6 6 on) 7 7 on

/-- What holds through SAFE's reports. -/
structure SafeSteady (P : State → Prop) : Prop where
  quiet : ∀ a : Act, a.Only .safeQuiet → a.Holds P
  raises : ∀ b k, b = .SAFE ∨ b = .CMP → (Act.raise b 0 k).Holds P
  route : (Act.setFld Reg.SAFE.SAFE_STATE 10 10 1).Holds P
  shown : ∀ v d o, (Act.modReg Reg.SAFE.SAFE_STATE (shownState · v d o)).Holds P

section
variable {P : State → Prop}

theorem SafeSteady.publish (h : SafeSteady P) (n : Nat) (u : DUnit) : (Act.publish n u).Holds P := by
  refine .get fun s => .cons (.get fun s => ?_) (.cons (h.quiet _ (by simp)) (.cons (h.quiet _ (fun _ => rfl)) (.cons (h.quiet _ (fun _ => rfl)) holds_all_nil)))
  split
  · exact .seq (h.quiet _ (by simp)) (h.raises _ _ (.inr rfl))
  · exact h.quiet _ (by simp [ringMove])

theorem SafeSteady.ceuSend (h : SafeSteady P) (i kind mflags : Nat) (u : DUnit) (pcp : Option Nat) (ports : List Nat) :
    (Machine.ceuSend i kind mflags u pcp ports).Holds P :=
  h.quiet _ (by simp [Machine.ceuSend, portSend, frameLeaves, Blk.slot])

theorem SafeSteady.routeMark (h : SafeSteady P) : Machine.routeMark.Holds P :=
  .get fun _ => .when fun _ => .cons h.route (.cons (h.raises _ _ (.inl rfl)) (.cons (h.quiet _ fun _ => rfl) holds_all_nil))

theorem SafeSteady.handOver (h : SafeSteady P) (u : DUnit) : (Machine.handOver u).Holds P := by
  refine .get fun s => .when fun _ => ?_
  split
  · exact .seq (.when fun _ => h.ceuSend _ _ _ _ _ _) h.routeMark
  · exact h.ceuSend _ _ _ _ _ _

theorem SafeSteady.emitSafe (h : SafeSteady P) {n source stamp : Nat} {item : BitVec 48} {flags : BitVec 16} {payload : List Byte}
    {k : DUnit → Act} (hk : ∀ u, (k u).Holds P) : (Machine.emitSafe n source stamp item flags payload k).Holds P := by
  refine .get fun s => .seq ?_ (hk _)
  split
  · exact h.publish _ _
  · exact h.quiet _ fun _ => rfl

theorem SafeSteady.statusUnit (h : SafeSteady P) (stamp : Nat) (item : BitVec 48) (flags : BitVec 16) :
    (Machine.statusUnit stamp item flags).Holds P :=
  .get fun _ => .seq (h.quiet _ fun _ => rfl) (h.emitSafe h.handOver)

theorem SafeSteady.notify (h : SafeSteady P) (old : Word) : (Machine.notify old).Holds P :=
  .get fun _ => .seq (.when fun _ => h.raises _ _ (.inl rfl)) (.when fun _ => h.statusUnit _ _ _)

end

/-- The moment VALID was lost, as the outputs see it (R509). -/
def State.lostNow (s : State) : Option Nat :=
  if s.safeState == sSAFE || s.safeState ≤ sTEST then none
  else if s.validNow then none else if s.bit Reg.SAFE.SAFE_STATE 4 then some s.now else s.hw.safe.lostAt

/-- Are the outputs energised (R509)? -/
def State.outsOn (s : State) : Bool := s.mayEnergise s.validNow s.lostNow

/-- What the outputs' change leaves beside SAFE_STATE: GAP_MAX and the moment VALID was lost. -/
def gapKept (s : State) : Act := .seq
  (.when (s.hw.safe.lostAt.isSome && (s.validNow || s.safeState == sSAFE))
    (.maxReg Reg.SAFE.GAP_MAX ((s.now - s.hw.safe.lostAt.getD s.now) / 1000)))
  (.safe fun x => { x with lostAt := s.lostNow })

/-- The pins that change. -/
def pinsFollow (s : State) : Act := .seq (drivePin "SAFE_OUT_A" (s.bit Reg.SAFE.SAFE_STATE 6) s.outsOn)
  (drivePin "SAFE_OUT_B" (s.bit Reg.SAFE.SAFE_STATE 7) s.outsOn)

def stateShown (s : State) : Act := .modReg Reg.SAFE.SAFE_STATE
  (shownState · (b2n s.validNow) (b2n (s.safeState == sDEGRADED)) (b2n s.outsOn))

theorem quiet_gapKept (s : State) : (gapKept s).Only .safeQuiet :=
  ⟨(only_when _ _).2 fun _ => only_maxReg _ (.inr (by simp)), fun _ => rfl⟩

theorem quiet_pinsFollow (s : State) : (pinsFollow s).Only { out := True } := by
  simp [pinsFollow, drivePin]

/-- Quiet reports leave SAFE_STATE. -/
theorem quiet_rd_safeState {a : Act} (h : a.Only .safeQuiet) (s : State) : (a.run s).rd Reg.SAFE.SAFE_STATE = s.rd Reg.SAFE.SAFE_STATE :=
  h.rd id (fun r hr hk => by
    rcases (safeQuiet_reg r).1 hr with h1 | h1
    · simp only [RegRef.key, show Blk.SAFE.slot = 0x1A from rfl] at hk
      omega
    · simp only [List.mem_cons, List.not_mem_nil, or_false] at h1
      rcases h1 with rfl | rfl <;> revert hk <;> decide) s

/-- The outputs follow the state (R508, R509). -/
theorem recalc_run (s : State) : recalc.run s = (pinsFollow s).run ((stateShown s).run ((gapKept s).run s)) := by
  have hsplit (a1 a2 d1 d2 : Act) (v : Word) : (Act.all [a1, a2, .wr Reg.SAFE.SAFE_STATE v, d1, d2]).run s =
    (Act.seq d1 d2).run (((Act.seq a1 a2).run s).setReg Reg.SAFE.SAFE_STATE v) := rfl
  rw [stateShown, run_modReg, quiet_rd_safeState (quiet_gapKept s), recalc, run_get]
  exact hsplit _ _ _ _ _

section
variable {P : State → Prop}

theorem SafeSteady.recalc (h : SafeSteady P) : Machine.recalc.Holds P := fun s hs hp => by
  rw [recalc_run]
  have h1 := h.quiet _ (quiet_gapKept s) s hs hp
  have h2 := h.shown (b2n s.validNow) (b2n (s.safeState == sDEGRADED)) (b2n s.outsOn) _ (rise_run _ hs) h1
  exact h.quiet (pinsFollow s) (by simp [pinsFollow, drivePin]) _ (rise_run _ (rise_run _ hs)) h2

/-- What holds after the change itself holds once it is told. -/
theorem SafeSteady.safely (h : SafeSteady P) {a : Act} {s : State} (hs : keysRise s.regs) (hp : P (a.run s)) : P ((Machine.safely a).run s) := by
  have h1 := rise_run a hs
  have hr (t : State) (ht : keysRise t.regs) (hp : P t) : P (Machine.recalc.run t) := h.recalc t ht hp
  exact hr _ (rise_run _ (rise_run _ h1)) (h.notify _ _ (rise_run _ h1) (hr _ h1 hp))

end

/-! ### Facts that stay -/

/-- The registers of the pages before TSN's that SAFE's reports may write. -/
def safeTouched : List RegRef := [Reg.SAFE.SAFE_STATE, Reg.SAFE.GAP_MAX, Reg.CMP.AUTH_REFUSE] ++ irqOf .SAFE 0 ++ irqOf .CMP 0

theorem quiet_keeps_rd {q : RegRef} (hq : q.key / 4096 < 0x140) (hne : q.key ≠ Reg.CMP.AUTH_REFUSE.key ∧ q.key ≠ Reg.SAFE.GAP_MAX.key)
    {a : Act} (h : a.Only .safeQuiet) : a.Keeps fun s => s.rd q := fun s _ => h.rd id (fun r hr hk => by
  rcases (safeQuiet_reg r).1 hr with h1 | h1
  · simp only [RegRef.key] at hk hq
    omega
  · simp only [List.mem_cons, List.not_mem_nil, or_false] at h1
    rcases h1 with rfl | rfl
    · exact hne.1 hk.symm
    · exact hne.2 hk.symm) s

theorem steady_rd {q : RegRef} (hq : q.key / 4096 < 0x140) (h : q.key ∉ safeTouched.map RegRef.key) (Q : Word → Prop) :
    SafeSteady fun s => Q (s.rd q) := by
  simp only [safeTouched, irqOf, List.map_cons, List.map_nil, List.cons_append, List.nil_append, List.mem_cons,
    List.not_mem_nil, or_false, not_or] at h
  obtain ⟨h1, h2, h3, h4, h5, h6, h7⟩ := h
  have hraise (b : Blk) (k : Nat) (e1 : q.key ≠ (Reg.HDR.IRQ_PEND b 0).key) (e2 : q.key ≠ (Reg.HDR.IRQ_MASK b 0).key) :
      (Act.raise b 0 k).Only (.but q) := only_raise (Ne.symm e1) (Ne.symm e2) fun _ => trivial
  refine ⟨fun a ha => (quiet_keeps_rd hq ⟨h3, h2⟩ ha).holds Q, fun b k hb => Act.Keeps.holds (π := fun s => s.rd q) ?_ Q,
    Act.Keeps.holds (π := fun s => s.rd q) (Act.Only.keeps_rd ((only_setFld _ _ _ _).2 (Ne.symm h1))) Q,
    fun v d o => Act.Keeps.holds (π := fun s => s.rd q) (Act.Only.keeps_rd ((only_modReg _ _).2 (Ne.symm h1))) Q⟩
  rcases hb with rfl | rfl
  · exact Act.Only.keeps_rd (hraise _ _ h4 h5)
  · exact Act.Only.keeps_rd (hraise _ _ h6 h7)

theorem keeps_safeState_raise (b : Blk) (k : Nat) : (Act.raise b 0 k).Keeps fun s => s.rd Reg.SAFE.SAFE_STATE :=
  fun _ _ => rd_raise_off (by decide) (by decide)

/-- A field of SAFE_STATE that no report writes. -/
theorem steady_fld {hi lo : Nat} (h : hi < 4 ∨ (8 ≤ lo ∧ hi < 10) ∨ 10 < lo)
    (hm : bits (0x00FF07F7 : Word) hi lo = 2 ^ (hi + 1 - lo) - 1) (Q : Nat → Prop) : SafeSteady fun s => Q (s.fld Reg.SAFE.SAFE_STATE hi lo) := by
  have hlo : (hi < 10 ∨ 10 < lo) ∧ (hi < 4 ∨ 7 < lo) := by omega
  refine ⟨fun a ha => Act.Keeps.holds (π := fun s => s.fld Reg.SAFE.SAFE_STATE hi lo)
      (Act.Keeps.fld (quiet_keeps_rd (by decide) (by decide) ha) hi lo) Q,
    fun b k _ => Act.Keeps.holds (π := fun s => s.fld Reg.SAFE.SAFE_STATE hi lo) ((keeps_safeState_raise b k).fld hi lo) Q,
    Act.Keeps.holds (π := fun s => s.fld Reg.SAFE.SAFE_STATE hi lo) (keeps_fld_setFld (by omega) (by rw [mask_safeState]; exact hm)) Q,
    fun v d o => Act.Keeps.holds (π := fun s => s.fld Reg.SAFE.SAFE_STATE hi lo) (fun s hs => ?_) Q⟩
  dsimp only
  rw [run_modReg, State.fld, rd_setReg_same hs, mask_safeState, bits_and_mask _ _ hm, shownState, bits_setBits_other _ _ (by omega),
    bits_setBits_other _ _ (by omega), bits_setBits_other _ _ (by omega), bits_setBits_other _ _ (by omega), State.fld]

theorem steady_safeState (v : Nat) : SafeSteady fun s => s.safeState = v :=
  steady_fld (hi := 2) (lo := 0) (by decide) (by decide) (· = v)

theorem steady_cause (v : Nat) : SafeSteady fun s => s.fld Reg.SAFE.SAFE_STATE 23 16 = v :=
  steady_fld (by decide) (by decide) (· = v)

/-- A source that has been raised. -/
theorem steady_pend {b : Blk} (hb : b = .SAFE ∨ b = .CMP) (k : Nat) : SafeSteady fun s => s.pend b 0 k = true := by
  have hkeep {a : Act} (ha : a.Keeps fun s => s.rd (Reg.HDR.IRQ_PEND b 0)) : a.Holds fun s => s.pend b 0 k = true :=
    (ha.bit k).holds (· = true)
  have h10 : Reg.SAFE.SAFE_STATE.off % 4096 ≠ (Reg.HDR.IRQ_PEND b 0).off % 4096 := show (0x044 : Nat) ≠ 0x010 by decide
  refine ⟨fun a ha => hkeep (quiet_keeps_rd ?_ ?_ ha), fun b' k' hb' s hs hp => ?_,
    hkeep fun s _ => rd_setReg_off h10, fun _ _ _ => hkeep fun s _ => rd_setReg_off h10⟩
  · rcases hb with rfl | rfl <;> decide
  · rcases hb with rfl | rfl <;> decide
  · by_cases he : b' = b
    · subst he
      exact bit_raise_mono hs (by rcases hb with rfl | rfl <;> decide) hp
    · have hk : (Act.raise b' 0 k').Only (.but (Reg.HDR.IRQ_PEND b 0)) := by
        refine only_raise ?_ ?_ fun _ => trivial <;> (revert he; rcases hb with rfl | rfl <;> rcases hb' with rfl | rfl <;> simp [Scope.but, RegRef.key, Blk.slot])
      exact hkeep hk.keeps_rd s hs hp

/-- SAFE's block state without the moments of its reports. -/
theorem steady_safe {α : Type} (π : SafeSt → α) (hπ : ∀ x : SafeSt, π x.core = π x) (Q : α → Prop) : SafeSteady fun s => Q (π s.hw.safe) := by
  have hkeep {a : Act} {p : Scope} (ha : a.Only p) (hp : ∀ f, p.hw f → ∀ h : Hw, (f h).safe.core = h.safe.core) :
      a.Holds fun s => Q (π s.hw.safe) := fun s _ h => by
    dsimp only
    rw [← hπ, ha.hw (fun h => h.safe.core) hp, hπ]
    exact h
  refine ⟨fun a ha => hkeep ha fun _ hf => hf, fun b k _ => ?_,
    hkeep (p := { reg := fun _ => True, hw := fun _ => False }) ((only_setFld _ _ _ _).2 trivial) fun _ h => h.elim,
    fun _ _ _ => hkeep (p := { reg := fun _ => True, hw := fun _ => False }) ((only_modReg _ _).2 trivial) fun _ h => h.elim⟩
  exact hkeep (p := { reg := fun _ => True, hw := fun f => ∀ h : Hw, (f h).safe.core = h.safe.core })
    (only_raise trivial trivial fun _ _ => rfl) fun _ h => h

/-! ### The outputs -/

/-- SAFE_STATE after the outputs followed. -/
theorem rd_recalc {s : State} (hs : keysRise s.regs) : (recalc.run s).rd Reg.SAFE.SAFE_STATE =
    shownState (s.rd Reg.SAFE.SAFE_STATE) (b2n s.validNow) (b2n (s.safeState == sDEGRADED)) (b2n s.outsOn) &&& 0x00FF07F7 := by
  rw [recalc_run, (quiet_pinsFollow s).rd id (fun _ h => h.elim), stateShown, run_modReg, rd_setReg_same (rise_run _ hs), mask_safeState,
    quiet_rd_safeState (quiet_gapKept s)]

theorem shownState_bits (w : Word) (v d o : Bool) :
    (shownState w (b2n v) (b2n d) (b2n o) &&& 0x00FF07F7).getLsbD 4 = v ∧ (shownState w (b2n v) (b2n d) (b2n o) &&& 0x00FF07F7).getLsbD 5 = d ∧
      (shownState w (b2n v) (b2n d) (b2n o) &&& 0x00FF07F7).getLsbD 6 = o ∧ (shownState w (b2n v) (b2n d) (b2n o) &&& 0x00FF07F7).getLsbD 7 = o ∧
      (shownState w (b2n v) (b2n d) (b2n o) &&& 0x00FF07F7).getLsbD 10 = w.getLsbD 10 := by
  refine ⟨?_, ?_, ?_, ?_, ?_⟩ <;> simp only [shownState, BitVec.getLsbD_and, getLsbD_setBits]
  · cases v <;> rfl
  · cases d <;> rfl
  · cases o <;> rfl
  · cases o <;> rfl
  · simp

theorem recalc_bits {s : State} (hs : keysRise s.regs) :
    let t := recalc.run s
    t.bit Reg.SAFE.SAFE_STATE 4 = s.validNow ∧ t.bit Reg.SAFE.SAFE_STATE 5 = (s.safeState == sDEGRADED) ∧
      t.bit Reg.SAFE.SAFE_STATE 6 = s.outsOn ∧ t.bit Reg.SAFE.SAFE_STATE 7 = s.outsOn ∧
      t.bit Reg.SAFE.SAFE_STATE 10 = s.bit Reg.SAFE.SAFE_STATE 10 := by
  simp only [State.bit, rd_recalc hs]
  exact shownState_bits _ _ _ _

/-- What the reports show after a change that leaves SAFE in state `v`. -/
theorem safely_shown {s : State} (hs : keysRise s.regs) {a : Act} {v : Nat} (hv : (a.run s).safeState = v) :
    let t := (safely a).run s
    t.safeState = v ∧ t.bit Reg.SAFE.SAFE_STATE 5 = (v == sDEGRADED) ∧
      (v < 4 ∨ 6 < v → t.bit Reg.SAFE.SAFE_STATE 6 = false ∧ t.bit Reg.SAFE.SAFE_STATE 7 = false) ∧
      (v ≠ s.safeState → t.pend .SAFE 0 0 = true) := by
  let s1 := a.run s
  let s2 := recalc.run s1
  let s3 := (notify (s.rd Reg.SAFE.SAFE_STATE)).run s2
  have hrun : (safely a).run s = recalc.run s3 := rfl
  have h1 : keysRise s1.regs := rise_run _ hs
  have h2 : keysRise s2.regs := rise_run _ h1
  have h3 : keysRise s3.regs := rise_run _ h2
  have hst := steady_safeState v
  have e2 : s2.safeState = v := hst.recalc s1 h1 hv
  have e3 : s3.safeState = v := hst.notify _ s2 h2 e2
  obtain ⟨-, b5, b6, b7, -⟩ := recalc_bits h3
  rw [hrun]
  refine ⟨hst.recalc s3 h3 e3, b5.trans (by rw [e3]), fun hoff => ?_, fun hne => (steady_pend (.inl rfl) 0).recalc s3 h3 ?_⟩
  · have hon : s3.outsOn = false := by
      have hno : decide (4 ≤ s3.safeState ∧ s3.safeState ≤ 6) = false := by rw [e3]; simp; omega
      unfold State.outsOn State.mayEnergise
      rw [hno, Bool.false_and, Bool.false_and]
    exact ⟨b6.trans hon, b7.trans hon⟩
  · have hc : (bits (s2.rd Reg.SAFE.SAFE_STATE) 2 0 != bits (s.rd Reg.SAFE.SAFE_STATE) 2 0) = true := by
      rw [show bits (s2.rd Reg.SAFE.SAFE_STATE) 2 0 = v from e2]
      exact bne_iff_ne.2 hne
    have hn : s3 = (statusUnit s2.now 0 0).run ((safeRaise 0).run s2) := by
      simp only [s3, notify, run_get, run_seq, run_when, hc, Bool.true_or, if_true]
    rw [hn]
    exact (steady_pend (.inl rfl) 0).statusUnit _ _ _ _ (rise_run _ h2) (bit_raise h2 (by decide) (by decide))

/-! ### Faults -/

/-- The registers at other offsets, and those of the pages behind the comparator's; all else. -/
def Scope.apart (off : Nat) : Scope :=
  { reg := fun r => r.off % 4096 ≠ off ∨ 0x1B < r.blk.slot, mem := True, poison := True, es := True, tsc := True, out := True }

section
variable {off : Nat}

@[simp] theorem apart_reg (r : RegRef) : (Scope.apart off).reg r ↔ r.off % 4096 ≠ off ∨ 0x1B < r.blk.slot := .rfl
@[simp] theorem apart_hw (f : Hw → Hw) : (Scope.apart off).hw f := trivial
@[simp] theorem apart_mem : (Scope.apart off).mem := trivial
@[simp] theorem apart_poison : (Scope.apart off).poison := trivial
@[simp] theorem apart_out : (Scope.apart off).out := trivial

theorem Act.Only.keeps_apart {a : Act} (h : a.Only (.apart off)) {b : Blk} (hb : b.slot ≤ 0x1B) (ho : off < 4096) :
    a.Keeps fun s => s.rd ⟨b, 0, off⟩ := fun s _ => h.rd id (fun r hr hk => by
  have hr' := (apart_reg r).1 hr
  simp only [RegRef.key] at hk
  omega) s
end

/-- What follows the state itself when SAFE is entered. -/
def safeEntered : Act := .all
  [invalidateCmds fun c => c.cls == 2, .each (List.range 512) invalidateStream,
   .hw fun h => { h with inbox := h.inbox.map fun (i, u) => (i, if u.cls = 2 then (u.set fINVALID).sealed else u)
                         mot := { h.mot with waiting := h.mot.waiting.map fun (n, u) =>
                                    (n, if u.cls = 2 then u.set fINVALID else u) } },
   .safe fun x => { x with wait := [], rejoin := false, resync := 0 }]

theorem only_safeEntered {p : Scope} (hm : p.mem) (hh : ∀ f, p.hw f) : safeEntered.Only p := by
  simp [safeEntered, invalidateCmds, invalidateStream, Act.stream, hm, hh]

theorem enterSafe_eq : enterSafe = .get fun s => .when (s.safeState != sSAFE) (.seq (setSafeState sSAFE) (.seq (safeRaise 4) safeEntered)) := rfl

/-- A fact about registers that entering SAFE leaves true. -/
theorem enterSafe_holds {P : State → Prop} (h1 : (setSafeState sSAFE).Holds P) (h2 : (safeRaise 4).Holds P) (h3 : safeEntered.Holds P) :
    enterSafe.Holds P := by
  rw [enterSafe_eq]
  exact .get fun _ => .when fun _ => .seq h1 (.seq h2 h3)

theorem keeps_safeEntered (q : RegRef) : safeEntered.Keeps fun s => s.rd q :=
  Act.Only.keeps_rd (only_safeEntered trivial fun _ => trivial)

theorem enterSafe_keeps_cause : enterSafe.Keeps fun s => s.fld Reg.SAFE.SAFE_STATE 23 16 := fun s hs =>
  enterSafe_holds (P := fun t => t.fld Reg.SAFE.SAFE_STATE 23 16 = s.fld Reg.SAFE.SAFE_STATE 23 16)
    ((keeps_fld_setFld (.inr (by decide)) (by rw [mask_safeState]; decide)).holds (· = _))
    (((keeps_safeState_raise .SAFE 4).fld 23 16).holds (· = _)) (((keeps_safeEntered _).fld 23 16).holds (· = _)) s hs rfl

theorem holds_pend_other {b : Blk} (hb : b = .SAFE ∨ b = .CMP) {k : Nat} {a : Act} (h : a.Only (.apart 0x010)) :
    a.Holds fun s => s.pend b 0 k = true := by
  have hk : a.Keeps fun s => s.rd (Reg.HDR.IRQ_PEND b 0) := h.keeps_apart (by rcases hb with rfl | rfl <;> decide) (by decide)
  exact (hk.bit k).holds (· = true)

theorem enterSafe_holds_pend {b : Blk} (hb : b = .SAFE ∨ b = .CMP) (k : Nat) : enterSafe.Holds fun s => s.pend b 0 k = true :=
  enterSafe_holds (holds_pend_other hb (by simp [setSafeState])) ((steady_pend hb k).raises _ _ (.inl rfl))
    (holds_pend_other hb (only_safeEntered trivial fun _ => trivial))

theorem only_recordFault {p : Scope} (code hi lo t : Nat) (h1 : p.reg Reg.SAFE.SAFE_STATE) (h2 : p.reg Reg.SAFE.FAULT_TSC)
    (h3 : p.reg Reg.SAFE.FAULT_CNT) : (recordFault code hi lo t).Only p := by
  simp [recordFault, h1, h2, h3]

theorem recordFault_cause {s : State} (hs : keysRise s.regs) {code : Nat} (hc : code < 256) (hi lo t : Nat) :
    ((recordFault code hi lo t).run s).fld Reg.SAFE.SAFE_STATE 23 16 = code := by
  let u := (Act.setFld Reg.SAFE.SAFE_STATE 23 16 code).run s
  have hrun : (recordFault code hi lo t).run s =
      (Act.seq (.wrN Reg.SAFE.FAULT_TSC (t % 4294967296)) (.satFld Reg.SAFE.FAULT_CNT hi lo 1)).run u := rfl
  have hkeep : (Act.seq (.wrN Reg.SAFE.FAULT_TSC (t % 4294967296)) (.satFld Reg.SAFE.FAULT_CNT hi lo 1)).Only (.apart 0x044) := by simp
  have h := fld_setFld_same hs Reg.SAFE.SAFE_STATE (hi := 23) (lo := 16) code (by decide) (by rw [mask_safeState]; decide)
  have hk := (hkeep.keeps_apart (b := .SAFE) (by decide) (by decide)).fld 23 16 u (rise_run _ hs)
  rw [hrun]
  exact (hk.trans h).trans (Nat.mod_eq_of_lt hc)

/-- A common fault (R503, R518). -/
theorem commonFaultAt_effect {s : State} (hs : keysRise s.regs) {code : Nat} (hc : code < 256) (t : Nat) (h : s.safeState ≠ sOFF ∨ code = 14) :
    let u := (commonFaultAt code t).run s
    u.safeState = sSAFE ∧ u.fld Reg.SAFE.SAFE_STATE 23 16 = code ∧ u.pend .SAFE 0 3 = true := by
  have hon : (s.safeState != sOFF || code == 14) = true := by simpa using h
  let v := (safeRaise 3).run ((recordFault code 23 16 t).run s)
  have hrun : (commonFaultAt code t).run s = enterSafe.run v := by
    rw [commonFaultAt, run_get, run_when, if_pos hon]
    rfl
  have hr : keysRise ((recordFault code 23 16 t).run s).regs := rise_run _ hs
  have hv : keysRise v.regs := rise_run _ hr
  rw [hrun]
  refine ⟨enterSafe_effect hv, (enterSafe_keeps_cause v hv).trans ?_, enterSafe_holds_pend (.inl rfl) 3 v hv (bit_raise hr (by decide) (by decide))⟩
  exact ((keeps_safeState_raise .SAFE 3).fld 23 16 _ hr).trans (recordFault_cause hs hc _ _ _)

/-- What a program leaves when it brings SAFE to SAFE by a common fault, and the reports follow. -/
theorem safely_stopped {s : State} (hs : keysRise s.regs) {a : Act} {code : Nat} (h1 : (a.run s).safeState = sSAFE)
    (h2 : (a.run s).fld Reg.SAFE.SAFE_STATE 23 16 = code) :
    let t := (safely a).run s
    t.safeState = sSAFE ∧ t.fld Reg.SAFE.SAFE_STATE 23 16 = code :=
  ⟨(safely_shown hs h1).1, (steady_cause code).safely hs h2⟩

/-! ### What SAFE changes at run time -/

/-- The registers of SAFE and CMP that verdicts, faults and reports write. -/
def safeWritten : List RegRef :=
  [Reg.SAFE.SAFE_STATE, Reg.SAFE.GAP_MAX, Reg.SAFE.FAULT_TSC, Reg.SAFE.FAULT_CNT, Reg.CMP.LAST_VERDICT, Reg.CMP.DISC_CNT,
   Reg.CMP.AUTH_REFUSE] ++ irqOf .SAFE 0 ++ irqOf .CMP 0

/-- No result begins to wait. -/
def WaitLess (f : Hw → Hw) : Prop := ∀ h : Hw, ∀ y ∈ (f h).safe.wait, y ∈ h.safe.wait

def Scope.runtime : Scope :=
  { reg := fun r => r ∈ safeWritten ∨ 0x140 ≤ r.blk.slot, mem := True, poison := True, out := True, hw := WaitLess }

@[simp] theorem runtime_reg (r : RegRef) : Scope.runtime.reg r ↔ r ∈ safeWritten ∨ 0x140 ≤ r.blk.slot := .rfl
@[simp] theorem runtime_hw (f : Hw → Hw) : Scope.runtime.hw f ↔ ∀ h : Hw, ∀ y ∈ (f h).safe.wait, y ∈ h.safe.wait := .rfl
@[simp] theorem runtime_mem : Scope.runtime.mem := trivial
@[simp] theorem runtime_poison : Scope.runtime.poison := trivial
@[simp] theorem runtime_out : Scope.runtime.out := trivial

theorem Act.Only.runtime_stores {a : Act} (h : a.Only .runtime) (s : State) : (a.run s).es = s.es ∧ (a.run s).tsc = s.tsc :=
  ⟨h.es id s, h.tsc id s⟩

theorem Act.Only.runtime_wait {a : Act} (h : a.Only .runtime) (s : State) {y : ChanRes} (hy : y ∈ (a.run s).hw.safe.wait) : y ∈ s.hw.safe.wait := by
  refine run_only (R := fun s t : State => ∀ y ∈ t.hw.safe.wait, y ∈ s.hw.safe.wait) (fun _ _ h => h) (fun h k y hy => h y (k y hy))
    (fun u hu s => ?_) h s y hy
  cases u with
  | hw f => exact hu s.hw
  | bytes a l => intro y hy; rwa [apply_bytes_hw] at hy
  | _ => exact fun _ h => h

/-- A register of the pages before TSN's that is none of those. -/
theorem Act.Only.runtime_rd {a : Act} (h : a.Only .runtime) {q : RegRef} (hq : q.key / 4096 < 0x140) (hn : q.key ∉ safeWritten.map RegRef.key) :
    a.Keeps fun s => s.rd q := fun s _ => h.rd id (fun r hr hk => by
  rcases (runtime_reg r).1 hr with h1 | h1
  · exact hn (hk ▸ List.mem_map_of_mem h1)
  · simp only [RegRef.key] at hk hq
    omega) s

theorem runtime_raise {b : Blk} (k : Nat) (hb : b = .SAFE ∨ b = .CMP) : (Act.raise b 0 k).Only .runtime := by
  rcases hb with rfl | rfl <;> exact only_raise (.inl (by simp [safeWritten, irqOf])) (.inl (by simp [safeWritten, irqOf])) fun _ _ _ h => h

theorem runtime_safeRaise (k : Nat) : (safeRaise k).Only .runtime := runtime_raise k (.inl rfl)
theorem runtime_cmpRaise (k : Nat) : (cmpRaise k).Only .runtime := runtime_raise k (.inr rfl)

theorem runtime_publish (n : Nat) (u : DUnit) : (Act.publish n u).Only .runtime := by
  simp [Act.publish, Act.guarded, Act.c2Refuse, ringMove, Act.stream, runtime_raise, safeWritten]

theorem runtime_ceuSend (i kind mflags : Nat) (u : DUnit) (pcp : Option Nat) (ports : List Nat) :
    (ceuSend i kind mflags u pcp ports).Only .runtime := by
  simp [ceuSend, portSend, frameLeaves, Blk.slot]

theorem runtime_routeMark : routeMark.Only .runtime := by
  simp [routeMark, runtime_safeRaise, safeWritten]

theorem runtime_emitSafe {n source stamp : Nat} {item : BitVec 48} {flags : BitVec 16} {payload : List Byte} {k : DUnit → Act}
    (hk : ∀ u, (k u).Only .runtime) : (emitSafe n source stamp item flags payload k).Only .runtime := by
  simp [emitSafe, runtime_publish, Act.stream, hk]

theorem runtime_statusUnit (stamp : Nat) (item : BitVec 48) (flags : BitVec 16) : (statusUnit stamp item flags).Only .runtime := by
  have h (u : DUnit) : (handOver u).Only .runtime := by simp [handOver, runtime_ceuSend, runtime_routeMark]
  exact fun _ => ⟨fun _ _ h => h, runtime_emitSafe h⟩

theorem runtime_recalc : recalc.Only .runtime := by
  simp [recalc, drivePin, only_maxReg, safeWritten]

theorem runtime_notify (old : Word) : (notify old).Only .runtime := by
  simp [notify, runtime_statusUnit, runtime_safeRaise]

theorem runtime_safely {a : Act} (ha : a.Only .runtime) : (safely a).Only .runtime :=
  fun _ => ⟨ha, runtime_recalc, runtime_notify _, runtime_recalc, trivial⟩

theorem runtime_enterSafe : enterSafe.Only .runtime := by
  have h : safeEntered.Only .runtime := by simp [safeEntered, invalidateCmds, invalidateStream, Act.stream]
  simp [enterSafe_eq, setSafeState, runtime_safeRaise, h, safeWritten]

theorem runtime_recordFault (code hi lo t : Nat) : (recordFault code hi lo t).Only .runtime :=
  only_recordFault _ _ _ _ (.inl (by simp [safeWritten])) (.inl (by simp [safeWritten])) (.inl (by simp [safeWritten]))

theorem runtime_commonFaultAt (code t : Nat) : (commonFaultAt code t).Only .runtime := by
  simp [commonFaultAt, runtime_recordFault, runtime_safeRaise, runtime_enterSafe]

theorem runtime_channelFaultAt (chB : Bool) (code t : Nat) : (channelFaultAt chB code t).Only .runtime := by
  simp [channelFaultAt, runtime_recordFault, runtime_safeRaise, runtime_enterSafe, setSafeState, invalidateCmds, safeWritten]

theorem runtime_agreed (b : Bool) : (agreed b).Only .runtime := by
  simp [agreed, degExpired, runtime_commonFaultAt, setSafeState, safeWritten]

theorem runtime_verdict (a : ChanRes) (b : Option ChanRes) (degraded : Bool) : (verdict a b degraded).Only .runtime := by
  simp [verdict, runtime_emitSafe, runtime_recalc, runtime_statusUnit, disagreement, runtime_cmpRaise, commonFault, runtime_commonFaultAt,
    safeWritten]

/-! ### Sources stay raised -/

section
variable {b : Blk} (hb : b = .SAFE ∨ b = .CMP) (k : Nat)
include hb

theorem commonFaultAt_holds_pend (code t : Nat) : (commonFaultAt code t).Holds fun s => s.pend b 0 k = true :=
  .get fun _ => .when fun _ => .cons (holds_pend_other hb (only_recordFault _ _ _ _ (by simp) (by simp) (by simp)))
    (.cons ((steady_pend hb k).raises _ _ (.inl rfl)) (.cons (enterSafe_holds_pend hb k) holds_all_nil))

theorem channelFaultAt_holds_pend (chB : Bool) (code t : Nat) : (channelFaultAt chB code t).Holds fun s => s.pend b 0 k = true := by
  have hfld {hi lo v : Nat} : (Act.setFld Reg.SAFE.SAFE_STATE hi lo v).Holds fun s => s.pend b 0 k = true := holds_pend_other hb (by simp)
  have hsafe (f : SafeSt → SafeSt) : (Act.safe f).Holds fun s => s.pend b 0 k = true := holds_pend_other hb (by simp)
  refine .get fun _ => .when fun _ => .cons (holds_pend_other hb (only_recordFault _ _ _ _ (by simp) (by simp) (by simp)))
    (.cons ((steady_pend hb k).raises _ _ (.inl rfl)) (.cons (hsafe _) (.cons ?_ holds_all_nil)))
  split
  · exact .seq hfld (enterSafe_holds_pend hb k)
  · split
    · exact .cons hfld (.cons hfld (.cons (hsafe _) (.cons (holds_pend_other hb (by simp [invalidateCmds])) holds_all_nil)))
    · split
      · split
        · exact .seq hfld (enterSafe_holds_pend hb k)
        · exact hsafe _
      · exact holds_nil

theorem verdict_holds_pend (x : ChanRes) (y : Option ChanRes) (degraded : Bool) : (verdict x y degraded).Holds fun s => s.pend b 0 k = true := by
  have hp := steady_pend hb k
  have hsafe (f : SafeSt → SafeSt) : (Act.safe f).Holds fun s => s.pend b 0 k = true := holds_pend_other hb (by simp)
  refine .get fun _ => .cons (holds_pend_other hb (by simp)) (.cons (hp.emitSafe fun _ => holds_nil) (.cons (.when fun _ => hsafe _)
    (.cons hp.recalc (.cons (.when fun _ => hp.statusUnit _ _ _) (.cons (.get fun _ => ?_) holds_all_nil)))))
  exact .cons (hsafe _) (.cons (.when fun _ => .seq (holds_pend_other hb (by simp)) (hp.raises _ _ (.inr rfl)))
    (.cons (.when fun _ => .get fun _ => commonFaultAt_holds_pend hb k _ _) holds_all_nil))

end

/-! ### Results and verdicts -/

theorem passOn_invalid (f : BitVec 16) : (passOn f).getLsbD fINVALID = f.getLsbD fINVALID := by
  rw [passOn, BitVec.getLsbD_and]
  exact Bool.and_true _

theorem passed_invalid (v : DUnit) : v.passed.getLsbD fINVALID = v.has fINVALID := by
  unfold DUnit.passed degradedIn
  split
  · exact passOn_invalid _
  · rw [putBit, if_neg Bool.false_ne_true, BitVec.getLsbD_and, passOn_invalid]
    exact Bool.and_true _

/-- The latest result is the channel's. -/
def SafeSt.took (x : SafeSt) (r : ChanRes) : SafeSt := if r.chB then { x with lastB := some r } else { x with lastA := some r }

def SafeSt.lastOf (x : SafeSt) (chB : Bool) : Option ChanRes := if chB then x.lastB else x.lastA

/-- A result CMP accepts in RUN (R491). -/
theorem takeResult_run {s : State} {r : ChanRes} (hrun : s.safeState = sRUN) (hinv : r.inv = false) (hgone : r.item ∉ s.hw.safe.gone) :
    let u := (Act.safe fun x => x.took r).run s
    ((s.hw.safe.wait.find? fun x => x.item == r.item) = none →
      (takeResult r).run s = (Act.safe fun x => { x with wait := x.wait ++ [r] }).run u) ∧
    (∀ x, (s.hw.safe.wait.find? fun x => x.item == r.item) = some x → x.chB ≠ r.chB →
      ∃ a b : ChanRes, a.item = r.item ∧ (takeResult r).run s = (pairDone a b).run u) := by
  intro u
  have h1 : ¬ s.safeState = sDEGRADED := by rw [hrun]; decide
  have h2 : ¬ s.safeState = sREACT := by rw [hrun]; decide
  have h3 : ¬ s.hw.safe.gone.contains r.item = true := by simpa using hgone
  have hstart (c : Act) : (Act.seq (.when (!r.inv) (.safe fun x => if r.chB then { x with lastB := some r } else { x with lastA := some r })) c).run s =
      c.run u := by
    rw [run_seq, run_when, if_pos (by rw [hinv]; rfl)]
    rfl
  refine ⟨fun h => ?_, fun x h hx => ?_⟩
  · rw [takeResult, run_get, hstart, if_neg h1, if_neg h2, if_neg h3, h]
  · rw [takeResult, run_get, hstart, if_neg h1, if_neg h2, if_neg h3, h]
    have hitem : x.item = r.item := by simpa using List.find?_some h
    cases hb : r.chB with
    | true => exact ⟨x, r, hitem, (run_when _ _ u).trans (if_pos (by rw [bne_iff_ne, ← hb]; exact hx))⟩
    | false => exact ⟨r, x, rfl, (run_when _ _ u).trans (if_pos (by rw [bne_iff_ne, ← hb]; exact hx))⟩

/-- A pair has ended (R491, R492). -/
theorem pairDone_effect {s : State} (hs : keysRise s.regs) (a b : ChanRes) (hrun : s.safeState = sRUN) :
    let t := (pairDone a b).run s
    Counts Reg.CMP.PAIR_CNT 1 s t ∧ (∀ y ∈ t.hw.safe.wait, y.item ≠ a.item) ∧ t.es = s.es ∧ t.tsc = s.tsc := by
  let u := (endPair a.item).run s
  let v := (Act.bump Reg.CMP.PAIR_CNT 1).run u
  have hno : (s.safeState == sARM) = false := by rw [hrun]; decide
  have hsplit : (pairDone a b).run s = (verdict a (some b) false).run ((Act.when (s.safeState == sARM) (agreed (!a.inv && !b.inv && !s.disagree a b))).run
      ((Act.safe fun x => { x with lateA := 0, lateB := 0 }).run v)) := rfl
  let w := (Act.safe fun x => { x with lateA := 0, lateB := 0 }).run v
  have ht : (pairDone a b).run s = (verdict a (some b) false).run w := by rw [hsplit, run_when, if_neg (by rw [hno]; exact Bool.false_ne_true)]
  have hv : keysRise v.regs := rise_run _ (s := u) hs
  have hver := runtime_verdict a (some b) false
  have hcnt : Counts Reg.CMP.PAIR_CNT 1 u v := counts_bump (s := u) hs (by decide +kernel) 1
  have hquiet : Quiet [Reg.CMP.PAIR_CNT] u v := quiet_bump _ _ _
  have hwait : v.hw.safe = u.hw.safe := hquiet.part (·.safe)
  rw [ht]
  refine ⟨fun h => ?_, fun y hy => ?_, (hver.runtime_stores w).1.trans hquiet.es, (hver.runtime_stores w).2.trans hquiet.tsc⟩
  · exact (congrArg BitVec.toNat (hver.runtime_rd (by decide) (by decide) w hv)).trans (hcnt h)
  · have h1 : y ∈ v.hw.safe.wait := hver.runtime_wait w hy
    rw [hwait] at h1
    simpa using (List.mem_filter.1 (show y ∈ s.hw.safe.wait.filter fun r => r.item != a.item from h1)).2

/-- What a unit of a channel does in CMP once received, when its form and its model are right. -/
theorem channelResult_run {s : State} (hs : keysRise s.regs) (chB : Bool) (u v : DUnit) (hon : s.bit Reg.CMP.CMP_CTRL 0 = true)
    (hrx : (receiveUnit (alGet {} (rxKey .CMP 0 u.stream) s.hw.rx) u 2
      (u.stream.toNat / 512 == s.devNum && !u.has fREMOTE && s.authorised (u.stream.toNat % 512))).units = [v])
    (hinv : v.has fINVALID = false) (hlen : v.payload.length = 16) (hfmt : v.fmt = 0x13) (hmodel : s.modelBad chB v = []) :
    ∃ w : State, (channelResultAct chB u).run s = (safely (takeResult (resultOf chB v s.now))).run w ∧ w.hw.safe = s.hw.safe ∧
      SameRegs [Reg.HDR.ERR_STATUS .CMP 0] s w ∧ SameRest s w ∧ keysRise w.regs := by
  generalize hx : receiveUnit (alGet {} (rxKey .CMP 0 u.stream) s.hw.rx) u 2
    (u.stream.toNat / 512 == s.devNum && !u.has fREMOTE && s.authorised (u.stream.toNat % 512)) = x at hrx
  have herr : (Act.rxErrs .CMP 0 x).Only { reg := (· ∈ [Reg.HDR.ERR_STATUS .CMP 0]), hw := fun _ => False } := by simp [Act.rxErrs]
  let w := ((Act.rxErrs .CMP 0 x).run s).mapHw fun h => { h with rx := alPut {} (rxKey .CMP 0 u.stream) x.st h.rx }
  have hregs : SameRegs [Reg.HDR.ERR_STATUS .CMP 0] s w := herr.sameRegs id (fun _ h => h) s
  have hr : SameRest s ((Act.rxErrs .CMP 0 x).run s) := herr.sameRest id id id id id s
  have hrest : SameRest s w := ⟨hr.mem, hr.poison, hr.es, hr.tsc, hr.out⟩
  have hrise : keysRise w.regs := rise_run (Act.rxErrs .CMP 0 x) hs
  have hsafe : w.hw.safe = s.hw.safe := herr.hw (·.safe) (fun _ h => h.elim) s
  have hm : w.modelBad chB v = [] := by
    have h : w.modelBad chB v = s.modelBad chB v := by
      simp only [State.modelBad, hregs.rd_off (r := Reg.CMP.MODEL_A) (by simp), hregs.rd_off (r := Reg.CMP.MODEL_B) (by simp)]
    exact h.trans hmodel
  have hnow : w.now = s.now := congrArg BitVec.toNat hrest.tsc
  refine ⟨w, ?_, hsafe, hregs, hrest, hrise⟩
  rw [channelResultAct, run_get, run_when, if_pos hon, run_receive _ hx, hrx, Act.each, List.map_cons, List.map_nil, run_all_cons, run_all_nil,
    run_get]
  simp only [hinv, hlen, hfmt, bne_self_eq_false, Bool.or_self, Bool.and_false, Bool.false_eq_true, if_false]
  rw [run_seq]
  generalize hw' : State.mapHw _ _ = w'
  have hww : w' = w := hw'.symm
  subst hww
  rw [hm, hnow]
  rfl

/-- The reports leave the engine stores and the time-stamp counter alone. -/
theorem safely_stores {s : State} {a : Act} (h : (a.run s).es = s.es ∧ (a.run s).tsc = s.tsc) :
    ((safely a).run s).es = s.es ∧ ((safely a).run s).tsc = s.tsc := by
  let v := recalc.run (a.run s)
  obtain ⟨e1, t1⟩ := runtime_recalc.runtime_stores (a.run s)
  obtain ⟨e2, t2⟩ := (runtime_notify (s.rd Reg.SAFE.SAFE_STATE)).runtime_stores v
  obtain ⟨e3, t3⟩ := runtime_recalc.runtime_stores ((notify (s.rd Reg.SAFE.SAFE_STATE)).run v)
  exact ⟨e3.trans (e2.trans (e1.trans h.1)), t3.trans (t2.trans (t1.trans h.2))⟩

theorem took_lastOf (x : SafeSt) (r : ChanRes) : (x.took r).lastOf r.chB = some r := by
  unfold SafeSt.took SafeSt.lastOf
  cases r.chB <;> rfl

theorem took_wait (x : SafeSt) (r : ChanRes) : (x.took r).wait = x.wait := by
  unfold SafeSt.took
  split <;> rfl

/-- A result CMP accepts in RUN waits for its partner, or ends a pair (R491, R492). -/
theorem takeResult_effect {s : State} (hs : keysRise s.regs) {r : ChanRes} (hrun : s.safeState = sRUN) (hinv : r.inv = false)
    (hgone : r.item ∉ s.hw.safe.gone) :
    let t := (safely (takeResult r)).run s
    ((s.hw.safe.wait.find? fun x => x.item == r.item) = none → t.hw.safe.wait = s.hw.safe.wait ++ [r] ∧
      t.lastOf r.chB = some r ∧ t.es = s.es ∧ t.tsc = s.tsc) ∧
    (∀ x, (s.hw.safe.wait.find? fun x => x.item == r.item) = some x → x.chB ≠ r.chB → Counts Reg.CMP.PAIR_CNT 1 s t ∧
      (∀ y ∈ t.hw.safe.wait, y.item ≠ r.item) ∧ t.es = s.es ∧ t.tsc = s.tsc) := by
  obtain ⟨hnone, hsome⟩ := takeResult_run hrun hinv hgone
  refine ⟨fun h => ?_, fun x h hx => ?_⟩
  · have ha := hnone h
    refine ⟨(steady_safe (·.wait) (fun _ => rfl) (· = _)).safely hs ?_, (steady_safe (·.lastOf r.chB) (fun _ => rfl) (· = _)).safely hs ?_,
      safely_stores ?_⟩
    · rw [ha]
      exact congrArg (· ++ [r]) (took_wait s.hw.safe r)
    · rw [ha]
      exact (show (_ : SafeSt).lastOf r.chB = _ from rfl).trans (took_lastOf s.hw.safe r)
    · rw [ha]
      exact ⟨rfl, rfl⟩
  · obtain ⟨a, b, hitem, ha⟩ := hsome x h hx
    obtain ⟨e1, e2, e3, e4⟩ := pairDone_effect (s := (Act.safe fun x => x.took r).run s) hs a b hrun
    rw [← ha] at e1 e2 e3 e4
    refine ⟨fun hc => (steady_rd (q := Reg.CMP.PAIR_CNT) (by decide) (by decide) (fun w => w.toNat = _)).safely hs (e1 hc),
      (steady_safe (·.wait) (fun _ => rfl) (fun l => ∀ y ∈ l, y.item ≠ r.item)).safely hs (hitem ▸ e2), safely_stores ⟨e3, e4⟩⟩

theorem channelResult_effect {s : State} (hs : keysRise s.regs) (chB : Bool) (u v : DUnit) (hon : s.bit Reg.CMP.CMP_CTRL 0 = true)
    (hstate : s.safeState = sRUN)
    (hrx : (receiveUnit (alGet {} (rxKey .CMP 0 u.stream) s.hw.rx) u 2
      (u.stream.toNat / 512 == s.devNum && !u.has fREMOTE && s.authorised (u.stream.toNat % 512))).units = [v])
    (hinv : v.has fINVALID = false) (hlen : v.payload.length = 16) (hfmt : v.fmt = 0x13) (hmodel : s.modelBad chB v = [])
    (hgone : v.item ∉ s.hw.safe.gone) :
    let t := (channelResultAct chB u).run s
    ((s.hw.safe.wait.find? fun x => x.item == v.item) = none → t.hw.safe.wait = s.hw.safe.wait ++ [resultOf chB v s.now] ∧
      t.lastOf chB = some (resultOf chB v s.now) ∧ t.es = s.es ∧ t.tsc = s.tsc) ∧
    (∀ x, (s.hw.safe.wait.find? fun x => x.item == v.item) = some x → x.chB ≠ chB → Counts Reg.CMP.PAIR_CNT 1 s t ∧
      (∀ y ∈ t.hw.safe.wait, y.item ≠ v.item) ∧ t.es = s.es ∧ t.tsc = s.tsc) := by
  obtain ⟨w, hrun, hsafe, hregs, hrest, hw⟩ := channelResult_run hs chB u v hon hrx hinv hlen hfmt hmodel
  have hst : w.safeState = sRUN :=
    (congrArg (bits · 2 0) (hregs.rd_off (r := Reg.SAFE.SAFE_STATE) (by simp))).trans hstate
  have hcnt : w.rd Reg.CMP.PAIR_CNT = s.rd Reg.CMP.PAIR_CNT := hregs.rd_off (by simp)
  obtain ⟨hnone, hsome⟩ := takeResult_effect (r := resultOf chB v s.now) hw hst ((passed_invalid v).trans hinv) (by rw [hsafe]; exact hgone)
  rw [hsafe] at hnone hsome
  rw [hrun]
  refine ⟨fun h => ?_, fun x h hx => ?_⟩
  · obtain ⟨e1, e2, e3, e4⟩ := hnone h
    exact ⟨e1, e2, e3.trans hrest.es, e4.trans hrest.tsc⟩
  · obtain ⟨e1, e2, e3, e4⟩ := hsome x h hx
    refine ⟨fun hc => ?_, e2, e3.trans hrest.es, e4.trans hrest.tsc⟩
    rw [← hcnt] at hc ⊢
    exact e1 hc

/-! ### A partner missing -/

theorem mask_lateCnt : RegRef.mask Reg.CMP.LATE_CNT = 0xFFFFFFFF := by decide +kernel

/-- What follows the count of a missing partner in RUN. -/
def partnerMissed (r : ChanRes) (missB full : Bool) (n due : Nat) : Act := .all
  [.safe fun x => if missB then { x with lateA := 0, lateB := if full then 0 else n } else { x with lateB := 0, lateA := if full then 0 else n },
   verdict r none true, .when full (channelFaultAt missB 4 due)]

theorem runtime_partnerMissed (r : ChanRes) (missB full : Bool) (n due : Nat) : (partnerMissed r missB full n due).Only .runtime := by
  refine ⟨fun h y hy => ?_, runtime_verdict _ _ _, (only_when _ _).2 fun _ => runtime_channelFaultAt _ _ _, trivial⟩
  cases missB <;> exact hy

/-- PAIR_WAIT_EXPIRY in RUN (R494). -/
theorem pairWait_run {s : State} {item : BitVec 48} {r : ChanRes} (hr : (s.hw.safe.wait.find? fun x => x.item == item) = some r) :
    (s.now < r.since + s.fld Reg.CMP.PAIR_WAIT 15 0 * 1000 → (pairWaitAct item).run s = s) ∧
    (r.since + s.fld Reg.CMP.PAIR_WAIT 15 0 * 1000 ≤ s.now → s.safeState = sRUN → ∃ full n due, ∃ a : Act,
      (pairWaitAct item).run s = (safely a).run s ∧ a.run s = (partnerMissed r (!r.chB) full n due).run ((cmpRaise 1).run
        ((Act.satFld Reg.CMP.LATE_CNT (if !r.chB then 31 else 15) (if !r.chB then 16 else 0) 1).run ((endPair item).run s)))) := by
  refine ⟨fun h => ?_, fun h hst => ?_⟩
  · rw [pairWaitAct, run_get, hr]
    exact (run_when _ _ s).trans (if_neg (by rw [decide_eq_false (by omega)]; exact Bool.false_ne_true))
  · rw [pairWaitAct, run_get, hr]
    refine ⟨decide (s.cmpLimit 1 ≤ (if !r.chB then s.hw.safe.lateB else s.hw.safe.lateA) + 1),
      (if !r.chB then s.hw.safe.lateB else s.hw.safe.lateA) + 1, r.since + s.fld Reg.CMP.PAIR_WAIT 15 0 * 1000, _,
      (run_when _ _ s).trans (if_pos (decide_eq_true h)), ?_⟩
    have h1 : (s.safeState == sARM || s.safeState == sDEGRADED) = false := by rw [hst]; decide
    have h2 : (s.safeState == sRUN) = true := by rw [hst]; decide
    have hsplit (a1 a2 a3 a4 a5 a6 : Act) : (Act.all [a1, a2, a3, a4, .when (s.safeState == sARM || s.safeState == sDEGRADED) (agreed false),
        .when (s.safeState == sRUN) a5, a6]).run s = (Act.all [a4, a5, a6]).run (a3.run (a2.run (a1.run s))) := by
      rw [h1, h2]; rfl
    exact hsplit _ _ _ _ _ _

theorem pairWait_effect {s : State} (hs : keysRise s.regs) {item : BitVec 48} {r : ChanRes}
    (hr : (s.hw.safe.wait.find? fun x => x.item == item) = some r) (hdue : r.since + s.fld Reg.CMP.PAIR_WAIT 15 0 * 1000 ≤ s.now)
    (hst : s.safeState = sRUN) :
    let t := (pairWaitAct item).run s
    (∀ y ∈ t.hw.safe.wait, y.item ≠ item) ∧ t.pend .CMP 0 1 = true ∧
      (r.chB = false → t.fld Reg.CMP.LATE_CNT 31 16 = min (s.fld Reg.CMP.LATE_CNT 31 16 + 1) 65535) ∧
      (r.chB = true → t.fld Reg.CMP.LATE_CNT 15 0 = min (s.fld Reg.CMP.LATE_CNT 15 0 + 1) 65535) ∧ t.es = s.es ∧ t.tsc = s.tsc := by
  obtain ⟨full, n, due, a, hrun, ha⟩ := (pairWait_run hr).2 hdue hst
  have hend := runtime_partnerMissed r (!r.chB) full n due
  let u := (endPair item).run s
  let sat := Act.satFld Reg.CMP.LATE_CNT (if !r.chB then 31 else 15) (if !r.chB then 16 else 0) 1
  let v := sat.run u
  let w := (cmpRaise 1).run v
  have hu : keysRise u.regs := hs
  have hv : keysRise v.regs := rise_run _ hu
  have hw : keysRise w.regs := rise_run _ hv
  have hq1 : Quiet [Reg.CMP.LATE_CNT] u v := quiet_satFld _ _ _ _ _
  have hq2 : Quiet (irqOf .CMP 0) v w := quiet_raise _ _ _ _
  have hpend : w.pend .CMP 0 1 = true := bit_raise hv (by decide) (by decide)
  have hsafe : w.hw.safe = u.hw.safe := (hq2.part (·.safe)).trans (hq1.part (·.safe))
  have hlate : w.rd Reg.CMP.LATE_CNT = v.rd Reg.CMP.LATE_CNT := hq2.regs.rd_off (by simp [irqOf])
  have hkeep := hend.runtime_rd (q := Reg.CMP.LATE_CNT) (by decide) (by decide)
  have hfld (hi lo : Nat) : (a.run s).fld Reg.CMP.LATE_CNT hi lo = v.fld Reg.CMP.LATE_CNT hi lo := by
    rw [ha]
    exact (hkeep.fld hi lo w hw).trans (congrArg (bits · hi lo) hlate)
  have hsteady (hi lo m : Nat) : SafeSteady fun s => s.fld Reg.CMP.LATE_CNT hi lo = m :=
    steady_rd (q := Reg.CMP.LATE_CNT) (by decide) (by decide) (fun x => bits x hi lo = m)
  rw [hrun]
  refine ⟨(steady_safe (·.wait) (fun _ => rfl) (fun l => ∀ y ∈ l, y.item ≠ item)).safely hs ?_, (steady_pend (.inr rfl) 1).safely hs ?_,
    fun h => (hsteady 31 16 _).safely hs ?_, fun h => (hsteady 15 0 _).safely hs ?_, safely_stores ?_⟩
  · intro y hy
    rw [ha] at hy
    have h1 := hend.runtime_wait w hy
    rw [hsafe] at h1
    simpa using (List.mem_filter.1 (show y ∈ s.hw.safe.wait.filter fun r => r.item != item from h1)).2
  · rw [ha]
    have hsafe' (f : SafeSt → SafeSt) : (Act.safe f).Holds fun s => s.pend .CMP 0 1 = true := holds_pend_other (.inr rfl) (by simp)
    exact Act.Holds.cons (hsafe' _) (.cons (verdict_holds_pend (.inr rfl) 1 _ _ _) (.cons (.when fun _ =>
      channelFaultAt_holds_pend (.inr rfl) 1 _ _ _) holds_all_nil)) w hw hpend
  · rw [hfld]
    simp only [v, sat, h, Bool.not_false, if_true]
    exact fld_satFld hu 1 (by decide) (by rw [mask_lateCnt]; decide)
  · rw [hfld]
    simp only [v, sat, h, Bool.not_true, Bool.false_eq_true, if_false]
    exact fld_satFld hu 1 (by decide) (by rw [mask_lateCnt]; decide)
  · rw [ha]
    obtain ⟨h1, h2⟩ := hend.runtime_stores w
    exact ⟨h1.trans (hq2.es.trans hq1.es), h2.trans (hq2.tsc.trans hq1.tsc)⟩

/-! ### VALID and the outputs -/

/-- The state the outputs follow last in a change of SAFE. -/
def told (a : Act) (s : State) : State := (notify (s.rd Reg.SAFE.SAFE_STATE)).run (recalc.run (a.run s))

theorem safely_run (a : Act) (s : State) : (safely a).run s = recalc.run (told a s) := by
  rw [safely, run_get, run_all_cons, run_all_cons, run_all_cons, run_all_cons, run_all_nil, told]

theorem rise_told (a : Act) {s : State} (hs : keysRise s.regs) : keysRise (told a s).regs := rise_run _ (rise_run _ (rise_run _ hs))

theorem SafeSteady.told {P : State → Prop} (h : SafeSteady P) {a : Act} {s : State} (hs : keysRise s.regs) (hp : P (a.run s)) :
    P (Machine.told a s) :=
  h.notify _ _ (rise_run _ (rise_run _ hs)) (h.recalc _ (rise_run _ hs) hp)

theorem validNow_congr {s t : State} (h1 : t.safeState = s.safeState) (h2 : t.hw.safe.verdict = s.hw.safe.verdict)
    (h3 : t.rd Reg.SAFE.TIMING = s.rd Reg.SAFE.TIMING) (h4 : t.tsc = s.tsc) : t.validNow = s.validNow := by
  have hnow : t.now = s.now := congrArg BitVec.toNat h4
  have hage : t.verdictAge = s.verdictAge := congrArg (fun w => bits w 15 0 * 1000) h3
  unfold State.validNow
  rw [h1, h2, hnow, hage]

/-- VERDICT_AGE_EXPIRY (R508). -/
theorem verdictAge_effect {s : State} (hs : keysRise s.regs) :
    let t := verdictAgeAct.run s
    t.bit Reg.SAFE.SAFE_STATE 4 = s.validNow ∧ t.safeState = s.safeState ∧ t.es = s.es ∧ t.tsc = s.tsc := by
  have hrun : verdictAgeAct.run s = recalc.run (told .nil s) := rfl
  have hvalid : (told .nil s).validNow = s.validNow :=
    validNow_congr ((steady_safeState _).told (a := .nil) hs rfl)
      ((steady_safe (·.verdict) (fun _ => rfl) (· = s.hw.safe.verdict)).told (a := .nil) hs rfl)
      ((steady_rd (q := Reg.SAFE.TIMING) (by decide) (by decide) (· = s.rd Reg.SAFE.TIMING)).told (a := .nil) hs rfl)
      (((runtime_notify _).runtime_stores _).2.trans (runtime_recalc.runtime_stores s).2)
  refine ⟨?_, (safely_shown (a := .nil) hs rfl).1, safely_stores (a := .nil) ⟨rfl, rfl⟩⟩
  rw [hrun]
  exact (recalc_bits (rise_told .nil hs)).1.trans hvalid

theorem drivePin_out (name : String) (old : Bool) (s : State) :
    ((drivePin name old false).run s).out = s.out ++ (if old then [.pin name false] else []) := by
  cases old
  · exact (List.append_nil _).symm
  · rfl

/-- PIN_HOLD_EXPIRY (R509): the outputs drop. -/
theorem pinHold_effect {s : State} (hs : keysRise s.regs) {t0 : Nat} (hv : s.validNow = false) (h4 : s.bit Reg.SAFE.SAFE_STATE 4 = false)
    (hl : s.hw.safe.lostAt = some t0) (hlate : s.pinHold < s.now - t0) :
    let t := pinHoldAct.run s
    t.bit Reg.SAFE.SAFE_STATE 6 = false ∧ t.bit Reg.SAFE.SAFE_STATE 7 = false ∧
      t.out = s.out ++ (if s.bit Reg.SAFE.SAFE_STATE 6 then [.pin "SAFE_OUT_A" false] else []) ++
        (if s.bit Reg.SAFE.SAFE_STATE 7 then [.pin "SAFE_OUT_B" false] else []) ∧
      SameRegs [Reg.SAFE.SAFE_STATE, Reg.SAFE.GAP_MAX] s t ∧ t.mem = s.mem ∧ t.es = s.es ∧ t.tsc = s.tsc := by
  have hon : s.outsOn = false := by
    have hlost : s.lostNow = none ∨ s.lostNow = some t0 := by
      unfold State.lostNow
      split
      · exact .inl rfl
      · exact .inr (by rw [hv, h4, hl]; rfl)
    unfold State.outsOn State.mayEnergise
    rw [hv]
    rcases hlost with h | h <;> rw [h]
    · simp
    · dsimp only
      rw [decide_eq_false (by omega : ¬s.now - t0 ≤ s.pinHold), Bool.and_false, Bool.or_false, Bool.and_false]
  obtain ⟨-, -, b6, b7, -⟩ := recalc_bits hs
  let u := (gapKept s).run s
  let v := (stateShown s).run u
  have hgap : (gapKept s).Only (.regs [Reg.SAFE.GAP_MAX]) := ⟨(only_when _ _).2 fun _ => only_maxReg _ (by simp), trivial⟩
  have hshown : (stateShown s).Only (.regs [Reg.SAFE.SAFE_STATE]) := (only_modReg _ _).2 (by simp)
  obtain ⟨r1, m1⟩ := hgap.frame s
  obtain ⟨r2, m2⟩ := hshown.frame u
  have hpins := quiet_pinsFollow s
  have hrun : pinHoldAct.run s = (pinsFollow s).run v := recalc_run s
  have hout : v.out = s.out := m2.out.trans m1.out
  refine ⟨b6.trans hon, b7.trans hon, ?_, ?_, ?_, ?_, ?_⟩ <;> rw [hrun]
  · rw [pinsFollow, run_seq, hon, drivePin_out, drivePin_out, hout]
  · exact ((r1.mono (by simp)).trans (r2.mono (by simp))).trans fun r _ => hpins.rd id (fun _ h => h.elim) v
  · exact (hpins.mem id v).trans (m2.mem.trans m1.mem)
  · exact (hpins.es id v).trans (m2.es.trans m1.es)
  · exact (hpins.tsc id v).trans (m2.tsc.trans m1.tsc)

/-! ### The outputs read back (R510, R511) -/

/-- A readback mismatch is a common fault with code 9. -/
theorem mismatch_effect {s : State} (hs : keysRise s.regs) (h : s.safeState ≠ sOFF) {a : Act} {w : State} (hw : keysRise w.regs) {t0 : Nat}
    (hregs : w.regs = s.regs) (hrest : SameRest s w) (ha : a.run s = (commonFaultAt 9 t0).run ((safeRaise 6).run w)) :
    let t := (safely a).run s
    t.safeState = sSAFE ∧ t.fld Reg.SAFE.SAFE_STATE 23 16 = 9 ∧ t.pend .SAFE 0 6 = true ∧ t.es = s.es ∧ t.tsc = s.tsc := by
  let v := (safeRaise 6).run w
  have hv : keysRise v.regs := rise_run _ hw
  have hst : v.safeState ≠ sOFF := by
    have hrd : w.rd Reg.SAFE.SAFE_STATE = s.rd Reg.SAFE.SAFE_STATE := by simp only [State.rd, hregs]
    have h1 : v.safeState = s.safeState := ((keeps_safeState_raise .SAFE 6).fld 2 0 w hw).trans (congrArg (bits · 2 0) hrd)
    rwa [h1]
  obtain ⟨e1, e2, -⟩ := commonFaultAt_effect hv (code := 9) (by decide) t0 (.inl hst)
  have hq : Quiet (irqOf .SAFE 0) w v := quiet_raise _ _ _ _
  obtain ⟨e3, e4⟩ := (runtime_commonFaultAt 9 t0).runtime_stores v
  have hp : (a.run s).pend .SAFE 0 6 = true := by
    rw [ha]
    exact commonFaultAt_holds_pend (.inl rfl) 6 9 t0 v hv (bit_raise hw (by decide) (by decide))
  refine ⟨?_, ?_, (steady_pend (.inl rfl) 6).safely hs hp, safely_stores ?_⟩
  · exact (safely_stopped hs (ha ▸ e1) (ha ▸ e2)).1
  · exact (safely_stopped hs (ha ▸ e1) (ha ▸ e2)).2
  · rw [ha]
    exact ⟨e3.trans (hq.es.trans hrest.es), e4.trans (hq.tsc.trans hrest.tsc)⟩

theorem readback_run {s : State} (a b : Bool) (h : s.safeState ≠ sOFF) :
    (a = s.bit Reg.SAFE.SAFE_STATE 6 → b = s.bit Reg.SAFE.SAFE_STATE 7 →
      (readbackAct a b).run s = (Act.safe fun x => { x with differs := none }).run s) ∧
    ((a ≠ s.bit Reg.SAFE.SAFE_STATE 6 ∨ b ≠ s.bit Reg.SAFE.SAFE_STATE 7) → s.hw.safe.differs = none →
      (readbackAct a b).run s = (Act.safe fun x => { x with differs := some s.now }).run s) ∧
    (∀ t0, (a ≠ s.bit Reg.SAFE.SAFE_STATE 6 ∨ b ≠ s.bit Reg.SAFE.SAFE_STATE 7) → s.hw.safe.differs = some t0 → t0 + 2000 ≤ s.now →
      (readbackAct a b).run s = (safely (.all [.safe (fun x => { x with differs := none }), safeRaise 6, commonFaultAt 9 t0])).run s) := by
  have hon : (s.safeState != sOFF) = true := bne_iff_ne.2 h
  have hdiff (hne : a ≠ s.bit Reg.SAFE.SAFE_STATE 6 ∨ b ≠ s.bit Reg.SAFE.SAFE_STATE 7) :
      ¬(!(a != s.bit Reg.SAFE.SAFE_STATE 6 || b != s.bit Reg.SAFE.SAFE_STATE 7)) = true := by simpa [or_iff_not_imp_left] using hne
  refine ⟨fun h1 h2 => ?_, fun hne hnone => ?_, fun t0 hne hsome ht => ?_⟩
  · rw [readbackAct, run_get, run_when, if_pos hon, if_pos (by rw [h1, h2]; simp)]
  · rw [readbackAct, run_get, run_when, if_pos hon, if_neg (hdiff hne), hnone]
  · rw [readbackAct, run_get, run_when, if_pos hon, if_neg (hdiff hne), hsome]
    exact (run_when _ _ s).trans (if_pos (decide_eq_true ht))

/-- TEST_PULSE (R511). -/
theorem testPulse_run {s : State} (outB followed : Bool) (hon : s.bit Reg.SAFE.SAFE_CTRL 2 = true)
    (hout : s.bit Reg.SAFE.SAFE_STATE (if outB then 7 else 6) = true) :
    let name := if outB then "SAFE_OUT_B" else "SAFE_OUT_A"
    (testPulseAct outB followed).run s = (Act.when (!followed) (safely (.seq (safeRaise 6) (commonFault 9)))).run
      ((Act.all [.out (.pin name false), .out (.pin name true)]).run s) := by
  intro name
  rw [testPulseAct, run_get, run_when, if_pos (by rw [hon, hout]; rfl)]
  rfl

/-! ### Status units (R512 to R515) -/

/-- Everything may change but the stores, the time-stamp counter, and the moment of the last status unit. -/
def Scope.statusAt : Scope :=
  { reg := fun _ => True, mem := True, poison := True, out := True, hw := fun f => ∀ h : Hw, (f h).safe.statusAt = h.safe.statusAt }

@[simp] theorem statusAt_reg (r : RegRef) : Scope.statusAt.reg r := trivial
@[simp] theorem statusAt_mem : Scope.statusAt.mem := trivial
@[simp] theorem statusAt_poison : Scope.statusAt.poison := trivial
@[simp] theorem statusAt_out : Scope.statusAt.out := trivial
@[simp] theorem statusAt_hw (f : Hw → Hw) : Scope.statusAt.hw f ↔ ∀ h : Hw, (f h).safe.statusAt = h.safe.statusAt := .rfl
@[simp] theorem statusAt_raise (b : Blk) (i k : Nat) : (Act.raise b i k).Only .statusAt := only_raise trivial trivial fun _ _ => rfl

theorem statusAt_emitSafe (n source stamp : Nat) (item : BitVec 48) (flags : BitVec 16) (payload : List Byte) :
    (emitSafe n source stamp item flags payload handOver).Only .statusAt := by
  simp [emitSafe, Act.publish, Act.guarded, Act.c2Refuse, ringMove, Act.stream, handOver, ceuSend, portSend, frameLeaves, routeMark, safeRaise]

/-- A status unit is sent now. -/
theorem statusUnit_at (stamp : Nat) (item : BitVec 48) (flags : BitVec 16) (s : State) :
    ((statusUnit stamp item flags).run s).hw.safe.statusAt = s.now :=
  (statusAt_emitSafe _ _ _ _ _ _).hw (fun h => h.safe.statusAt) (fun _ h => h) _

theorem recalc_statusAt (s : State) : (recalc.run s).hw.safe.statusAt = s.hw.safe.statusAt := by
  have h : recalc.Only .statusAt := by
    simp [recalc, drivePin, only_maxReg]
  exact h.hw (fun h => h.safe.statusAt) (fun _ h => h) s

theorem notify_statusAt (old : Word) {s : State} (h : s.hw.safe.statusAt = s.now) : ((notify old).run s).hw.safe.statusAt = s.now := by
  rw [notify, run_get, run_seq, run_when (b := _ || _)]
  generalize hu : (Act.when _ (safeRaise 0)).run s = u
  have hq : (Act.when (bits (s.rd Reg.SAFE.SAFE_STATE) 2 0 != bits old 2 0) (safeRaise 0)).Only .statusAt := by
    simp [safeRaise]
  have h1 : u.hw.safe.statusAt = s.hw.safe.statusAt := hu ▸ hq.hw (fun h => h.safe.statusAt) (fun _ h => h) s
  have h2 : u.tsc = s.tsc := hu ▸ hq.tsc id s
  split
  · exact (statusUnit_at _ _ _ u).trans (congrArg BitVec.toNat h2)
  · exact h1.trans h

/-- SMSG_PERIOD_EXPIRY (R512). -/
theorem smsgPeriod_effect {s : State} (hs : keysRise s.regs) (hon : s.safeState ≠ sOFF)
    (hdue : s.hw.safe.statusAt + s.fld Reg.SAFE.SMSG 31 16 * 1000 ≤ s.now) :
    let t := smsgPeriodAct.run s
    t.hw.safe.statusAt = s.now ∧ t.safeState = s.safeState ∧ t.es = s.es ∧ t.tsc = s.tsc := by
  have hrun : smsgPeriodAct.run s = (safely (statusUnit s.now 0 0)).run s := by
    rw [smsgPeriodAct, run_get, run_when, if_pos (by rw [bne_iff_ne.2 hon, decide_eq_true hdue]; rfl)]
  have hst : ((statusUnit s.now 0 0).run s).safeState = s.safeState := (steady_safeState _).statusUnit _ _ _ s hs rfl
  have hstores := (runtime_statusUnit s.now 0 0).runtime_stores s
  let u := recalc.run ((statusUnit s.now 0 0).run s)
  have hnow : u.now = s.now := congrArg BitVec.toNat ((runtime_recalc.runtime_stores _).2.trans hstores.2)
  have hat : u.hw.safe.statusAt = u.now := ((recalc_statusAt _).trans (statusUnit_at _ _ _ s)).trans hnow.symm
  rw [hrun]
  refine ⟨?_, (safely_shown hs hst).1, safely_stores hstores⟩
  rw [safely_run]
  exact (recalc_statusAt _).trans ((notify_statusAt _ hat).trans hnow)

theorem steady_route : SafeSteady fun s => s.bit Reg.SAFE.SAFE_STATE 10 = true where
  quiet a ha := Act.Keeps.holds (π := fun s => s.bit Reg.SAFE.SAFE_STATE 10) (Act.Keeps.bit (quiet_keeps_rd (by decide) (by decide) ha) 10) (· = true)
  raises b k _ := Act.Keeps.holds (π := fun s => s.bit Reg.SAFE.SAFE_STATE 10) ((keeps_safeState_raise b k).bit 10) (· = true)
  route s hs _ := bit_setFld hs (by rw [mask_safeState]; decide)
  shown v d o s hs h := by
    dsimp only at h ⊢
    rw [run_modReg, bit_setReg_same hs _ (by rw [mask_safeState]; decide)]
    simp only [shownState, getLsbD_setBits]
    simpa [State.bit] using h

/-- A route event (R515). -/
theorem routeFault_effect {s : State} (hs : keysRise s.regs) (hon : s.bit Reg.SAFE.SAFE_CTRL 1 = true) :
    let t := routeFault.run s
    t.bit Reg.SAFE.SAFE_STATE 10 = true ∧ t.pend .SAFE 0 7 = true ∧ t.safeState = s.safeState ∧ t.es = s.es ∧ t.tsc = s.tsc := by
  let u := (Act.setFld Reg.SAFE.SAFE_STATE 10 10 1).run s
  let v := (safeRaise 7).run u
  have hrun : routeMark.run s = (Act.safe fun x => { x with routeAt := s.now, timely := 0 }).run v := by
    rw [routeMark, run_get, run_when, if_pos hon]
    rfl
  have hu : keysRise u.regs := rise_run _ hs
  have h10 : u.bit Reg.SAFE.SAFE_STATE 10 = true := bit_setFld hs (by rw [mask_safeState]; decide)
  have hv10 : (routeMark.run s).bit Reg.SAFE.SAFE_STATE 10 = true := by
    rw [hrun]
    exact ((keeps_safeState_raise .SAFE 7).bit 10 u hu).trans h10
  have h7 : (routeMark.run s).pend .SAFE 0 7 = true := by
    rw [hrun]
    exact bit_raise hu (by decide) (by decide)
  exact ⟨steady_route.safely hs hv10, (steady_pend (.inl rfl) 7).safely hs h7, (safely_shown hs (keeps_routeMark s hs)).1,
    safely_stores (runtime_routeMark.runtime_stores s)⟩

/-! ### The route fault cleared (R515) -/

/-- The status unit's way is whole. -/
def State.routeWhole (s : State) : Prop :=
  s.bit Reg.CEU.CEU_CTRL 0 = true ∧ s.tplPorts (s.fld Reg.SAFE.SMSG 12 9) ≠ [] ∧ (s.tplPorts (s.fld Reg.SAFE.SMSG 12 9)).all s.tsnUp = true

/-- The pages up to the comparator's, but SMSG; all else. -/
def Scope.beforeCeu : Scope :=
  { reg := fun r => r.key / 4096 ≤ 0x1B ∧ r.key ≠ Reg.SAFE.SMSG.key, mem := True, poison := True, es := True, tsc := True, out := True }

theorem routeWhole_congr {s t : State} (h : ∀ q : RegRef, 0x1B < q.key / 4096 ∨ q.key = Reg.SAFE.SMSG.key → t.rd q = s.rd q)
    (hs : s.routeWhole) : t.routeWhole := by
  have hsmsg : t.rd Reg.SAFE.SMSG = s.rd Reg.SAFE.SMSG := h _ (.inr rfl)
  have hceu : t.rd Reg.CEU.CEU_CTRL = s.rd Reg.CEU.CEU_CTRL := h _ (.inl (by decide))
  have hports (i : Nat) : t.tplPorts i = s.tplPorts i := List.filter_congr fun p _ =>
    congrArg (BitVec.getLsbD · (16 + p)) (h (Reg.CEU.TPL_DST_HI i) (.inl (by simp only [RegRef.key, show Blk.CEU.slot = 0x145 from rfl]; omega)))
  have hup (p : Nat) : t.tsnUp p = s.tsnUp p := by
    have h1 : t.rd (Reg.TSN.TSN_CTRL p) = s.rd (Reg.TSN.TSN_CTRL p) := h _ (.inl (by simp only [RegRef.key, show Blk.TSN.slot = 0x140 from rfl]; omega))
    have h2 : t.rd (Reg.TSN.TSN_STATUS p) = s.rd (Reg.TSN.TSN_STATUS p) := h _ (.inl (by simp only [RegRef.key, show Blk.TSN.slot = 0x140 from rfl]; omega))
    unfold State.tsnUp State.bit
    rw [h1, h2]
  have hfun : t.tsnUp = s.tsnUp := funext hup
  unfold State.routeWhole State.bit State.fld
  rw [hceu, hsmsg, hports, hfun]
  exact hs

theorem Act.Only.routeWhole {a : Act} (h : a.Only .beforeCeu) : a.Holds State.routeWhole := fun s _ hp =>
  routeWhole_congr (fun q hq => h.rd id (fun r hr hk => by
    obtain ⟨h1, h2⟩ : r.key / 4096 ≤ 0x1B ∧ r.key ≠ Reg.SAFE.SMSG.key := hr
    rw [hk] at h1 h2
    rcases hq with hq | hq
    · omega
    · exact h2 hq) s) hp

theorem beforeCeu_of_mem {r : RegRef} (h : r ∈ [Reg.SAFE.SAFE_STATE, Reg.SAFE.GAP_MAX, Reg.CMP.AUTH_REFUSE] ++ irqOf .SAFE 0 ++ irqOf .CMP 0) :
    Scope.beforeCeu.reg r := by
  simp only [irqOf, List.cons_append, List.nil_append, List.mem_cons, List.not_mem_nil, or_false] at h
  rcases h with rfl | rfl | rfl | rfl | rfl | rfl | rfl <;> exact ⟨by decide, by decide⟩

/-- The route is whole, and shown so. -/
def State.routeClear (s : State) : Prop := s.routeWhole ∧ s.bit Reg.SAFE.SAFE_STATE 10 = false

theorem routeClear_of_quiet {a : Act} (h : a.Only .beforeCeu) (hq : a.Only (.but Reg.SAFE.SAFE_STATE)) : a.Holds State.routeClear :=
  fun s hs hp => ⟨h.routeWhole s hs hp.1, (hq.keeps_rd.bit 10 s hs).trans hp.2⟩

theorem routeClear_recalc : recalc.Holds State.routeClear := fun s hs hp => by
  have h : recalc.Only .beforeCeu := fun _ =>
    ⟨(only_when _ _).2 fun _ => only_maxReg _ (beforeCeu_of_mem (by simp)), trivial, beforeCeu_of_mem (by simp),
      (only_when _ _).2 fun _ => trivial, (only_when _ _).2 fun _ => trivial, trivial⟩
  exact ⟨h.routeWhole s hs hp.1, (recalc_bits hs).2.2.2.2.trans hp.2⟩

theorem routeClear_handOver (u : DUnit) {s : State} (hs : keysRise s.regs) (hp : s.routeClear) :
    ((handOver u).run s).bit Reg.SAFE.SAFE_STATE 10 = false := by
  obtain ⟨⟨h1, h2, h3⟩, h4⟩ := hp
  have hok : ¬((s.tplPorts (s.fld Reg.SAFE.SMSG 12 9)).isEmpty || !((s.tplPorts (s.fld Reg.SAFE.SMSG 12 9)).all s.tsnUp) ||
      !s.bit Reg.CEU.CEU_CTRL 0) = true := by
    rw [h1, h3]
    simpa using h2
  rw [handOver, run_get, run_when, if_neg hok]
  split
  · exact ((pastSafe_ceuSend _ _ _ _ _ _).keeps_safe (off := 0x044) (by decide)).bit 10 s hs |>.trans h4
  · exact h4

theorem beforeCeu_raise {b : Blk} (k : Nat) (hb : b = .SAFE ∨ b = .CMP) : (Act.raise b 0 k).Only .beforeCeu := by
  rcases hb with rfl | rfl <;> exact only_raise (beforeCeu_of_mem (by simp [irqOf])) (beforeCeu_of_mem (by simp [irqOf])) fun _ => trivial

theorem but_raise {b : Blk} (k : Nat) : (Act.raise b 0 k).Only (.but Reg.SAFE.SAFE_STATE) :=
  only_raise (key_ne_of_off (show (0x010 : Nat) ≠ 0x044 by decide)) (key_ne_of_off (show (0x01C : Nat) ≠ 0x044 by decide)) fun _ => trivial

theorem routeClear_publish (n : Nat) (u : DUnit) : (Act.publish n u).Holds State.routeClear := by
  have hm (r : RegRef) (hr : r ∈ Reg.CMP.AUTH_REFUSE :: irqOf .CMP 0) :
      Scope.beforeCeu.reg r ∧ r.key ≠ Reg.SAFE.SAFE_STATE.key := by
    refine ⟨beforeCeu_of_mem (by simp only [List.cons_append, List.nil_append, irqOf, List.mem_cons, List.not_mem_nil, or_false] at hr ⊢; tauto), ?_⟩
    simp only [irqOf, List.mem_cons, List.not_mem_nil, or_false] at hr
    rcases hr with rfl | rfl | rfl <;> decide
  exact routeClear_of_quiet
    ((units_publish n u).weaken (fun r hr => (hm r hr).1) (fun _ _ => trivial) (mem := fun _ => trivial) (poison := fun _ => trivial)
      (es := fun h => h.elim) (tsc := fun h => h.elim) (out := fun h => h.elim))
    ((units_publish n u).weaken (fun r hr => (hm r hr).2) (fun _ _ => trivial) (mem := fun _ => trivial) (poison := fun _ => trivial)
      (es := fun h => h.elim) (tsc := fun h => h.elim) (out := fun h => h.elim))

/-- A status unit handed over on a whole route raises no route event. -/
theorem routeClear_statusUnit (stamp : Nat) (item : BitVec 48) (flags : BitVec 16) {s : State} (hs : keysRise s.regs) (hp : s.routeClear) :
    ((statusUnit stamp item flags).run s).bit Reg.SAFE.SAFE_STATE 10 = false := by
  have hsafe (f : SafeSt → SafeSt) : (Act.safe f).Holds State.routeClear := routeClear_of_quiet trivial trivial
  have hstream (n : Nat) (f : StreamSt → StreamSt) : (Act.stream n f).Holds State.routeClear := routeClear_of_quiet trivial trivial
  rw [statusUnit, run_get, run_seq]
  let u := (Act.safe fun x => { x with statusAt := s.now }).run s
  have hu : keysRise u.regs := hs
  have hpu : u.routeClear := hsafe _ s hs hp
  change ((emitSafe _ _ _ _ _ _ handOver).run u).bit Reg.SAFE.SAFE_STATE 10 = false
  rw [emitSafe, run_get, run_seq]
  refine routeClear_handOver _ (rise_run _ hu) ?_
  split
  · exact routeClear_publish _ _ u hu hpu
  · exact hstream _ _ u hu hpu

/-- ROUTE_FAULT_CLEAR (R515). -/
theorem routeClear_effect {s : State} (hs : keysRise s.regs) (hshown : s.bit Reg.SAFE.SAFE_STATE 10 = true)
    (hold : s.hw.safe.routeAt + 100000000 ≤ s.now) (hmany : 16 ≤ s.hw.safe.timely) (hceu : s.bit Reg.CEU.CEU_CTRL 0 = true)
    (hports : s.tplPorts (s.fld Reg.SAFE.SMSG 12 9) ≠ []) (hup : (s.tplPorts (s.fld Reg.SAFE.SMSG 12 9)).all s.tsnUp = true) :
    let t := routeClearAct.run s
    t.bit Reg.SAFE.SAFE_STATE 10 = false ∧ t.safeState = s.safeState ∧ t.es = s.es ∧ t.tsc = s.tsc := by
  let a := Act.setFld Reg.SAFE.SAFE_STATE 10 10 0
  have hrun : routeClearAct.run s = (safely a).run s := by
    have hne : (s.tplPorts (s.fld Reg.SAFE.SMSG 12 9)).isEmpty = false := by simpa using hports
    rw [routeClearAct, run_get]
    refine (run_when _ _ s).trans (if_pos ?_)
    rw [hshown, decide_eq_true ⟨hold, hmany⟩, hne, hup]
    rfl
  have h1 : keysRise (a.run s).regs := rise_run _ hs
  have hst : (a.run s).safeState = s.safeState := keeps_safeState_setFld (by decide) s hs
  have hclear : (a.run s).routeClear :=
    ⟨Act.Only.routeWhole ((only_setFld _ _ _ _).2 (beforeCeu_of_mem (by simp))) s hs ⟨hceu, hports, hup⟩,
      bit_setFld hs (by rw [mask_safeState]; decide)⟩
  let u := recalc.run (a.run s)
  have hu : keysRise u.regs := rise_run _ h1
  have hpu : u.routeClear := routeClear_recalc _ h1 hclear
  have htold : (told a s).bit Reg.SAFE.SAFE_STATE 10 = false := by
    have hraise (b : Bool) : (Act.when b (safeRaise 0)).Holds State.routeClear :=
      .when fun _ => routeClear_of_quiet (beforeCeu_raise 0 (.inl rfl)) (but_raise 0)
    rw [told, notify, run_get, run_seq, run_when (b := _ || _)]
    have hpw := hraise (bits (u.rd Reg.SAFE.SAFE_STATE) 2 0 != bits (s.rd Reg.SAFE.SAFE_STATE) 2 0) u hu hpu
    split
    · exact routeClear_statusUnit _ _ _ (rise_run _ hu) hpw
    · exact hpw.2
  have hon : (a.run s).es = s.es ∧ (a.run s).tsc = s.tsc := ⟨rfl, rfl⟩
  rw [hrun]
  refine ⟨?_, (safely_shown hs hst).1, safely_stores hon⟩
  rw [safely_run]
  exact (recalc_bits (rise_told a hs)).2.2.2.2.trans htold

/-! ### The self-test (R524) -/

theorem mask_testStatus : RegRef.mask Reg.SAFE.TEST_STATUS = 0x00FF01FF := by decide +kernel

theorem not_eng_page (u : Fin 128) : ∀ p, pageAt u ≠ some (Blk.ENG, p) := by
  have h : ∀ u : Fin 128, (pageAt u).map (·.1) ≠ some Blk.ENG := by decide +kernel
  intro p hp
  exact h u (by rw [hp]; rfl)

/-- The slices raise checks of the engines alone. -/
theorem only_sliceRaises (k p : Nat) : (sliceRaises k p).Only { reg := fun r => 0x80 ≤ r.blk.slot, hw := fun _ => False } := by
  unfold sliceRaises
  split <;> simp [Blk.slot]

/-- SELF_TEST_SLICE: what the slices count, and the next slice of the rotation. -/
def sliceDone (k : Nat) (es : List Nat) (counted : Nat → Bool) (passed : Bool) : Act := .all
  [.each es fun p => .when (counted p) (sliceRaises k p), .setFld Reg.SAFE.TEST_STATUS 8 8 (b2n passed),
   .setFld Reg.SAFE.TEST_STATUS 7 0 ((k + 1) % 8)]

theorem sliceDone_effect {s : State} (hs : keysRise s.regs) (k : Nat) (es : List Nat) (counted : Nat → Bool) (passed : Bool) :
    let t := (sliceDone k es counted passed).run s
    t.fld Reg.SAFE.TEST_STATUS 7 0 = (k + 1) % 8 ∧ t.bit Reg.SAFE.TEST_STATUS 8 = passed ∧ t.safeState = s.safeState ∧ SameRest s t := by
  let u := (Act.each es fun p => .when (counted p) (sliceRaises k p)).run s
  let v := (Act.setFld Reg.SAFE.TEST_STATUS 8 8 (b2n passed)).run u
  have hraise : (Act.each es fun p => .when (counted p) (sliceRaises k p)).Only { reg := fun r => 0x80 ≤ r.blk.slot, hw := fun _ => False } := by
    simp only [only_each, only_when]
    exact fun p _ _ => only_sliceRaises k p
  have hu : keysRise u.regs := rise_run _ hs
  have hv : keysRise v.regs := rise_run _ hu
  have hrd : u.rd Reg.SAFE.SAFE_STATE = s.rd Reg.SAFE.SAFE_STATE := hraise.rd id (fun r hr hk => by
    have h80 : 0x80 ≤ r.blk.slot := hr
    simp only [RegRef.key, show Blk.SAFE.slot = 0x1A from rfl] at hk
    omega) s
  have hrest : SameRest s u := hraise.sameRest id id id id id s
  have hrun : (sliceDone k es counted passed).run s = (Act.setFld Reg.SAFE.TEST_STATUS 7 0 ((k + 1) % 8)).run v := rfl
  have hlast : Quiet [Reg.SAFE.TEST_STATUS] u ((Act.setFld Reg.SAFE.TEST_STATUS 7 0 ((k + 1) % 8)).run v) := (quiet_setReg u _ _).trans (quiet_setReg v _ _)
  rw [hrun]
  refine ⟨?_, ?_, (congrArg (bits · 2 0) (hlast.regs.rd_off (by simp))).trans (congrArg (bits · 2 0) hrd), hrest.trans hlast.toSameRest⟩
  · have h := fld_setFld_same hv Reg.SAFE.TEST_STATUS (hi := 7) (lo := 0) ((k + 1) % 8) (by decide) (by rw [mask_testStatus]; decide)
    exact h.trans (Nat.mod_eq_of_lt (by omega))
  · refine (keeps_bit_setFld (.inr (by decide)) (by rw [mask_testStatus]; decide) v hv).trans
      ((bit_setFld hu (by rw [mask_testStatus]; decide)).trans ?_)
    cases passed <;> rfl

/-- The channels' engines in service. -/
def State.testedEngines (s : State) : List Nat := ([false, true].filterMap s.chanPhys).filter fun p => !(s.engState p == eFAULT)

theorem selfTest_run {s : State} (hlo : sARM ≤ s.safeState) (hhi : s.safeState ≤ sREACT) :
    (selfTestAct none).run s = (sliceDone (s.fld Reg.SAFE.TEST_STATUS 7 0) s.testedEngines (fun _ => true) true).run s ∧
    (∀ u : BitVec 16, u.toNat < Blk.ENG.slot → (selfTestAct (some u.toNat)).run s =
      (Act.all [.satFld Reg.SAFE.TEST_STATUS 23 16 1, safeRaise 5, safely (commonFault 8)]).run
        ((sliceDone (s.fld Reg.SAFE.TEST_STATUS 7 0) s.testedEngines (fun p => some u.toNat != some (Blk.ENG.slot + p)) false).run s)) := by
  have hon : decide (sARM ≤ s.safeState ∧ s.safeState ≤ sREACT) = true := decide_eq_true ⟨hlo, hhi⟩
  refine ⟨?_, fun u hu => ?_⟩
  · rw [selfTestAct, run_get]
    exact (run_when _ _ s).trans (if_pos hon)
  · have hpage : ∀ p, pageAt u.toNat ≠ some (Blk.ENG, p) := not_eng_page ⟨u.toNat, hu⟩
    rw [selfTestAct, run_get]
    refine (run_when _ _ s).trans ((if_pos hon).trans ?_)
    have hlow : (if Blk.ENG.slot ≤ u.toNat then s.chanOfEng (u.toNat - Blk.ENG.slot) else none) = none := if_neg (by omega)
    generalize hm : Option.filter _ (some u.toNat) = m
    have hmiss : m = some u.toNat := by
      rw [← hm, Option.filter_some, if_pos]
      split
      next p h => exact absurd h (hpage p)
      next => rfl
    subst hmiss
    dsimp only
    rw [hlow]
    rfl

/-- What the miss of a unit outside the engines leaves. -/
theorem selfTestMiss_effect {s : State} (hs : keysRise s.regs) (hlo : sARM ≤ s.safeState) (hclear : s.bit Reg.SAFE.TEST_STATUS 8 = false) :
    let t := (Act.all [.satFld Reg.SAFE.TEST_STATUS 23 16 1, safeRaise 5, safely (commonFault 8)]).run s
    t.bit Reg.SAFE.TEST_STATUS 8 = false ∧ t.pend .SAFE 0 5 = true ∧ t.safeState = sSAFE ∧ t.fld Reg.SAFE.SAFE_STATE 23 16 = 8 ∧
      t.es = s.es ∧ t.tsc = s.tsc := by
  let u := (Act.satFld Reg.SAFE.TEST_STATUS 23 16 1).run s
  let v := (safeRaise 5).run u
  have hrun : (Act.all [.satFld Reg.SAFE.TEST_STATUS 23 16 1, safeRaise 5, safely (commonFault 8)]).run s = (safely (commonFault 8)).run v := rfl
  have hu : keysRise u.regs := rise_run _ hs
  have hv : keysRise v.regs := rise_run _ hu
  have hq1 : Quiet [Reg.SAFE.TEST_STATUS] s u := quiet_satFld _ _ _ _ _
  have hq2 : Quiet (irqOf .SAFE 0) u v := quiet_raise _ _ _ _
  have hstate : v.safeState = s.safeState :=
    congrArg (bits · 2 0) ((hq2.regs.rd_off (r := Reg.SAFE.SAFE_STATE) (by simp [irqOf])).trans (hq1.regs.rd_off (by simp)))
  have h8 : v.bit Reg.SAFE.TEST_STATUS 8 = false :=
    (congrArg (BitVec.getLsbD · 8) (hq2.regs.rd_off (r := Reg.SAFE.TEST_STATUS) (by simp [irqOf]))).trans
      ((bit_satFld hs (by decide) (by rw [mask_testStatus]; decide)).trans hclear)
  have hon : v.safeState ≠ sOFF := by rw [hstate]; have : sARM = 3 := rfl; have : sOFF = 0 := rfl; omega
  obtain ⟨e1, e2, -⟩ := commonFaultAt_effect hv (code := 8) (by decide) v.now (.inl hon)
  have hrt := runtime_commonFaultAt 8 v.now
  have hfault : (commonFault 8).run v = (commonFaultAt 8 v.now).run v := rfl
  obtain ⟨f1, f2⟩ := safely_stopped hv (a := commonFault 8) e1 e2
  obtain ⟨g1, g2⟩ := safely_stores (a := commonFault 8) (s := v) (hrt.runtime_stores v)
  rw [hrun]
  refine ⟨?_, ?_, f1, f2, g1.trans (hq2.es.trans hq1.es), g2.trans (hq2.tsc.trans hq1.tsc)⟩
  · refine (steady_rd (q := Reg.SAFE.TEST_STATUS) (by decide) (by decide) (fun w => w.getLsbD 8 = false)).safely hv ?_
    exact ((hrt.runtime_rd (by decide) (by decide)).bit 8 v hv).trans h8
  · exact (steady_pend (.inl rfl) 5).safely hv (commonFaultAt_holds_pend (.inl rfl) 5 8 _ v hv (bit_raise hu (by decide) (by decide)))

/-- Settles O47. -/
theorem safetyRuntime : Obligations.SafetyRuntime := by
  refine ⟨fun s chB u v hl hon hst hrx hinv hlen hfmt hm hgone => ⟨fun h => ⟨_, command_eq hl.2,
      (channelResult_effect hl.1.1.1 chB u v hon hst hrx hinv hlen hfmt hm hgone).1 h⟩,
      fun x h hx => ⟨_, command_eq hl.2, (channelResult_effect hl.1.1.1 chB u v hon hst hrx hinv hlen hfmt hm hgone).2 x h hx⟩⟩,
    fun s item r hl hr => ⟨fun hdue hst => ⟨_, command_eq hl.2, pairWait_effect hl.1.1.1 hr hdue hst⟩, fun h => ?_⟩,
    fun s hl => ⟨_, command_eq hl.2, verdictAge_effect hl.1.1.1⟩,
    fun s t0 hl hv h4 hlost hlate => ⟨_, command_eq hl.2, pinHold_effect hl.1.1.1 hv h4 hlost hlate⟩,
    fun s a b hl hst => ⟨fun h1 h2 => ⟨_, command_eq hl.2, ?_⟩, fun hne hnone => ⟨_, command_eq hl.2, ?_⟩,
      fun t0 hne hsome ht => ⟨_, command_eq hl.2, ?_⟩⟩,
    fun s outB hl hon hout => ⟨⟨_, command_eq hl.2, ?_⟩, fun hst => ⟨_, command_eq hl.2, ?_⟩⟩,
    fun s hl hst => ⟨fun hdue => ⟨_, command_eq hl.2, smsgPeriod_effect hl.1.1.1 hst hdue⟩, fun h => ?_⟩,
    fun s hl hon hany => ⟨_, command_eq hl.2, ?_⟩,
    fun s hl h10 h1 h2 h3 h4 h5 => ⟨_, command_eq hl.2, routeClear_effect hl.1.1.1 h10 h1 h2 h3 h4 h5⟩,
    fun s hl hlo hhi => ⟨⟨_, command_eq hl.2, ?_⟩, fun u hu => ⟨_, command_eq hl.2, ?_⟩⟩⟩
  · exact (command_eq hl.2).trans (by rw [(pairWait_run hr).1 h])
  · rw [(readback_run a b hst).1 h1 h2]
    exact ⟨rfl, rfl, rfl, rfl, rfl, rfl, rfl⟩
  · rw [(readback_run a b hst).2.1 hne hnone]
    exact ⟨rfl, rfl, rfl, rfl, rfl, rfl, rfl⟩
  · rw [(readback_run a b hst).2.2 t0 hne hsome ht]
    exact mismatch_effect hl.1.1.1 hst (w := (Act.safe fun x => { x with differs := none }).run s) hl.1.1.1 rfl ⟨rfl, rfl, rfl, rfl, rfl⟩ rfl
  · rw [testPulse_run outB true hon hout]
    exact ⟨List.append_assoc .., rfl, rfl, rfl, rfl⟩
  · rw [testPulse_run outB false hon hout]
    have h := mismatch_effect (s := (Act.all [.out (.pin (if outB then "SAFE_OUT_B" else "SAFE_OUT_A") false),
      .out (.pin (if outB then "SAFE_OUT_B" else "SAFE_OUT_A") true)]).run s) hl.1.1.1 hst (a := .seq (safeRaise 6) (commonFault 9))
      (w := (Act.all [.out (.pin (if outB then "SAFE_OUT_B" else "SAFE_OUT_A") false),
      .out (.pin (if outB then "SAFE_OUT_B" else "SAFE_OUT_A") true)]).run s) hl.1.1.1 rfl ⟨rfl, rfl, rfl, rfl, rfl⟩ rfl
    exact h
  · refine (command_eq hl.2).trans ?_
    rw [smsgPeriodAct, run_get, run_when, if_neg (by rw [decide_eq_false (by omega), Bool.and_false]; exact Bool.false_ne_true)]
  · rw [statusLateAct, run_get, run_when, if_pos hany]
    exact routeFault_effect hl.1.1.1 hon
  · rw [Option.map_none, (selfTest_run hlo hhi).1]
    exact sliceDone_effect hl.1.1.1 _ _ _ _
  · rw [Option.map_some, (selfTest_run hlo hhi).2 u hu]
    obtain ⟨-, e1, e2, e3⟩ := sliceDone_effect hl.1.1.1 (s.fld Reg.SAFE.TEST_STATUS 7 0) s.testedEngines
      (fun p => some u.toNat != some (Blk.ENG.slot + p)) false
    obtain ⟨f1, f2, f3, f4, f5, f6⟩ := selfTestMiss_effect (rise_run (sliceDone _ _ _ _) hl.1.1.1) (by rw [e2]; exact hlo) e1
    exact ⟨f1, f2, f3, f4, f5.trans e3.es, f6.trans e3.tsc⟩

end Sys2Proof.Machine

/-! ## Proofs: functions, interrupts, resets (11_functions_interrupts_resets)

Mailboxes and function resets (O40), sources and masks (O41), the gatherer (O42). -/

namespace Sys2Proof.Machine

-- One theorem after the other: elaborated side by side, they hold more threads than the memory limit of a check allows.
set_option Elab.async false

/-! ### A write-only register of the gatherer's page

`SameRegs` speaks of every register reference, and so of one beside the table of its page, too: `⟨.DARN, 9, 0x0A0⟩` has the address
of SRC_PEND_SET and the reset value of a line of ENG_MAP. With a 0 stored for SRC_PEND_SET it reads 0; the write stores the reset
value of SRC_PEND_SET, which keeps nothing stored, and it reads its own reset value. -/

/-- The reference that shares SRC_PEND_SET's address. -/
def pendSetAlias : RegRef := ⟨.DARN, 9, 0x0A0⟩

/-- A device out of reset that has a 0 stored for SRC_PEND_SET. -/
def pendSetStored : State :=
  (Act.boot fun b => { b with inReset := false }).run { State.reset with regs := [((Reg.GATH.SRC_PEND_SET 0 0).key, 0)] }

theorem pendSetStored_live : pendSetStored.live := by
  unfold State.live State.sound
  decide +kernel

theorem pendSetStored_accepts : pendSetStored.accepts 0 (Reg.GATH.SRC_PEND_SET 0 0) 0 = true := by decide +kernel

theorem srcPendSet_alias : ((hostReg 0 (Reg.GATH.SRC_PEND_SET 0 0) 0).run pendSetStored).rd pendSetAlias ≠ pendSetStored.rd pendSetAlias := by
  decide +kernel

/-- Refutes O41: after SRC_PEND_SET is written, the reference that shares its address reads another value. -/
theorem not_interruptRegisters : ¬ Obligations.InterruptRegisters := by
  unfold Obligations.InterruptRegisters
  intro h
  obtain ⟨t, hexec, -, hregs, -⟩ := (h.1 pendSetStored 0 0 0 pendSetStored_live).1 pendSetStored_accepts
  have ht : t = (hostReg 0 (Reg.GATH.SRC_PEND_SET 0 0) 0).run pendSetStored :=
    Host.Outcome.next.inj (hexec.symm.trans (simply_eq (a := hostReg 0 (Reg.GATH.SRC_PEND_SET 0 0) 0) rfl))
  have hne : pendSetAlias.key ∉ (hostTrail .GATH 0).map RegRef.key := by decide
  exact srcPendSet_alias (ht ▸ hregs pendSetAlias hne)

/-! ### Notices (R464, R484) -/

theorem mask_notice (f : Fin 32) : RegRef.mask (Reg.FUNC.NOTICE f) = 0x3F := by revert f; decide +kernel
theorem mask_mboxStatus (f : Fin 32) : RegRef.mask (Reg.FUNC.MBOX_STATUS f) = 3 := by revert f; decide +kernel

theorem only_noticeReg {p : Scope} {f : Nat} {r : RegRef} {v : Word} (hr : p.reg r) (he : ∀ e, p.hw (Hw.setEdge e)) :
    (Act.noticeReg f r v).Only p := by
  simp [Act.noticeReg, hr, he]

theorem only_notice {p : Scope} {f k : Nat} (hr : p.reg (Reg.FUNC.NOTICE f)) (he : ∀ e, p.hw (Hw.setEdge e)) : (Act.notice f k).Only p :=
  fun _ => only_noticeReg hr he

/-- A notice set stays beside those set before. -/
theorem bit_notice {s : State} (hs : keysRise s.regs) (f : Fin 32) {k m : Nat} (hm : m < 6) (h : m = k ∨ s.bit (Reg.FUNC.NOTICE f) m = true) :
    ((Act.notice f k).run s).bit (Reg.FUNC.NOTICE f) m = true := by
  have hlatch (a : Act) (ha : a.Only { hw := fun _ => True }) (u : State) : (a.run u).rd (Reg.FUNC.NOTICE f) = u.rd (Reg.FUNC.NOTICE f) :=
    ha.rd id (fun _ h => h.elim) u
  have hrun : ((Act.notice f k).run s).rd (Reg.FUNC.NOTICE f) =
      (s.setReg (Reg.FUNC.NOTICE f) (putBit (s.rd (Reg.FUNC.NOTICE f)) k true)).rd (Reg.FUNC.NOTICE f) :=
    hlatch (.get fun t => .when (!s.noticeActive f && t.noticeActive f) (.latch [64 + f.val])) (by simp) _
  have hbit : (putBit (s.rd (Reg.FUNC.NOTICE f)) k true).getLsbD m = true := by
    rw [putBit, if_pos rfl, BitVec.getLsbD_or, getLsbD_ofNat_two_pow]
    rcases h with rfl | h
    · simp [show m < 32 by omega]
    · rw [show (s.rd (Reg.FUNC.NOTICE f)).getLsbD m = true from h, Bool.true_or]
  rw [State.bit, hrun, rd_setReg_same hs, mask_notice, BitVec.getLsbD_and, hbit]
  interval_cases m <;> rfl

theorem quiet_notice (s : State) (f k : Nat) : Quiet [Reg.FUNC.NOTICE f] s ((Act.notice f k).run s) :=
  Act.Only.quiet (only_notice (by simp) (by simp)) s

/-! ### Commands that are stopped (R402, R458) -/

/-- The pages from DISP's on, memory, and block state but the gatherer's. -/
def Scope.dispatch : Scope := { reg := fun r => 0x60 ≤ r.blk.slot, mem := True, poison := True, hw := fun f => ∀ h : Hw, (f h).gath = h.gath }

@[simp] theorem dispatch_reg (r : RegRef) : Scope.dispatch.reg r ↔ 0x60 ≤ r.blk.slot := .rfl
@[simp] theorem dispatch_hw (f : Hw → Hw) : Scope.dispatch.hw f ↔ ∀ h : Hw, (f h).gath = h.gath := .rfl
@[simp] theorem dispatch_mem : Scope.dispatch.mem := trivial
@[simp] theorem dispatch_poison : Scope.dispatch.poison := trivial

theorem dispatch_accrue : accrue.Only .dispatch := by
  simp [accrue, Act.ctx]

theorem dispatch_freeInput (slot : Option (Nat × Nat)) : (freeInput slot).Only .dispatch := by
  unfold freeInput
  split
  · simp [Act.freeSlot, Act.stream, Blk.slot]
  · trivial

theorem dispatch_releaseAll (c : Cmd) : (releaseAll c).Only .dispatch := by
  have hwait : (closeWait c).Only .dispatch := by
    unfold closeWait
    intro s
    split
    · simp [Act.ctx, Act.cmd]
    · trivial
  simp [releaseAll, dispatch_accrue, hwait, releaseEng, setEngState, releaseBlocks, Blk.slot]

theorem dispatch_chargeRun (c : Cmd) : (chargeRun c .own).Only .dispatch := by
  simp [chargeRun, chargeEngines, chargeVt, Act.ctx, Act.cmd]

theorem dispatch_stopCmd (id detail : Nat) : (stopCmd id detail).Only .dispatch := by
  intro s
  dsimp only
  split
  next c _ => exact ⟨dispatch_chargeRun _, dispatch_releaseAll _, fun _ => rfl, dispatch_freeInput _, fun _ => rfl, trivial⟩
  next => trivial

/-! ### Mailboxes (R455) -/

/-- One side of the mailbox marked, and the other function told. -/
def mailboxPut (g k x r n : Nat) : Act := .seq (.setFld (Reg.FUNC.MBOX_STATUS g) k k x) (.notice r n)

/-- The side a writer sends into; the function that it tells. -/
def sendSide (w : Nat) : Nat := if w = 0 then 1 else 0
def otherFn (w g : Nat) : Nat := if w = 0 then g else 0

theorem mboxCmd_run (w g : Nat) (v : Word) (s : State) :
    (mboxCmdAct w g v).run s = (Act.when (v.getLsbD 1 && s.bit (Reg.FUNC.MBOX_STATUS g) (1 - sendSide w)) (mailboxPut g (1 - sendSide w) 0 (otherFn w g) 3)).run
      ((Act.when (v.getLsbD 0 && !s.bit (Reg.FUNC.MBOX_STATUS g) (sendSide w)) (mailboxPut g (sendSide w) 1 (otherFn w g) 2)).run s) := by
  by_cases h : w = 0
  · subst h; rfl
  · simp only [mboxCmdAct, sendSide, otherFn, if_neg h]
    rfl

theorem mailboxPut_effect {s : State} (hs : keysRise s.regs) (g r : Fin 32) {k : Nat} (hk : k < 2) (n : Nat) (x : Bool) :
    let t := (mailboxPut g k (b2n x) r n).run s
    t.bit (Reg.FUNC.MBOX_STATUS g) k = x ∧ t.bit (Reg.FUNC.MBOX_STATUS g) (1 - k) = s.bit (Reg.FUNC.MBOX_STATUS g) (1 - k) ∧
      (∀ m < 6, m = n ∨ s.bit (Reg.FUNC.NOTICE r) m = true → t.bit (Reg.FUNC.NOTICE r) m = true) ∧
      Quiet [Reg.FUNC.MBOX_STATUS g, Reg.FUNC.NOTICE r] s t := by
  let u := (Act.setFld (Reg.FUNC.MBOX_STATUS g) k k (b2n x)).run s
  have hu : keysRise u.regs := rise_run _ hs
  have hq1 : Quiet [Reg.FUNC.MBOX_STATUS g] s u := quiet_setReg _ _ _
  have hq2 := quiet_notice u r n
  have hrd : ((Act.notice r n).run u).rd (Reg.FUNC.MBOX_STATUS g) = u.rd (Reg.FUNC.MBOX_STATUS g) := hq2.regs.rd_off (by simp)
  have hnotice : u.rd (Reg.FUNC.NOTICE r) = s.rd (Reg.FUNC.NOTICE r) := hq1.regs.rd_off (by simp)
  have hmask (j : Nat) (hj : j < 2) : (RegRef.mask (Reg.FUNC.MBOX_STATUS g)).getLsbD j = true := by
    rw [mask_mboxStatus]
    interval_cases j <;> rfl
  refine ⟨?_, ?_, fun m hm h => bit_notice hu r hm (h.imp_right fun h => (congrArg (BitVec.getLsbD · m) hnotice).trans h), Act.Only.quiet ?_ s⟩
  · refine (congrArg (BitVec.getLsbD · k) hrd).trans ((bit_setFld hs (hmask k hk)).trans ?_)
    cases x <;> rfl
  · exact (congrArg (BitVec.getLsbD · (1 - k)) hrd).trans (keeps_bit_setFld (by omega) (hmask _ (by omega)) s hs)
  · exact ⟨(only_setFld _ _ _ _).2 (by simp), only_notice (by simp) (by simp)⟩

theorem accepts_drops {s : State} {f : Nat} {r : RegRef} {v : Word} (h : s.accepts f r v = true) :
    blockDrops s f r.blk r.inst r.off v = false := by
  simp only [State.accepts, Bool.and_eq_true, beq_iff_eq] at h
  have hk := h.2
  unfold writeKind at hk
  split at hk
  · split at hk <;> exact absurd hk (by decide)
  · split at hk
    · exact absurd hk (by decide)
    · split at hk
      · exact absurd hk (by decide)
      · split at hk
        · exact absurd hk (by decide)
        · split at hk
          · exact absurd hk (by decide)
          next h => simpa using h

theorem mboxCmd_effect {s : State} (hs : keysRise s.regs) (w : Nat) (g r : Fin 32) (hr : otherFn w g = r) (v : Word) :
    let t := (mboxCmdAct w g v).run s
    (v.getLsbD 0 = true → s.bit (Reg.FUNC.MBOX_STATUS g) (sendSide w) = false →
      t.bit (Reg.FUNC.MBOX_STATUS g) (sendSide w) = true ∧ t.bit (Reg.FUNC.NOTICE r) 2 = true) ∧
    (v.getLsbD 1 = true → s.bit (Reg.FUNC.MBOX_STATUS g) (1 - sendSide w) = true →
      t.bit (Reg.FUNC.MBOX_STATUS g) (1 - sendSide w) = false ∧ t.bit (Reg.FUNC.NOTICE r) 3 = true) ∧
    Quiet [Reg.FUNC.MBOX_STATUS g, Reg.FUNC.NOTICE r] s t := by
  have hside : sendSide w < 2 := by unfold sendSide; split <;> omega
  have hback : 1 - (1 - sendSide w) = sendSide w := by omega
  let sent := v.getLsbD 0 && !s.bit (Reg.FUNC.MBOX_STATUS g) (sendSide w)
  let acked := v.getLsbD 1 && s.bit (Reg.FUNC.MBOX_STATUS g) (1 - sendSide w)
  let u := (Act.when sent (mailboxPut g (sendSide w) (b2n true) r 2)).run s
  have hu : keysRise u.regs := rise_run _ hs
  have hrun : (mboxCmdAct w g v).run s = (Act.when acked (mailboxPut g (1 - sendSide w) (b2n false) r 3)).run u := by
    rw [mboxCmd_run, hr]
    rfl
  obtain ⟨a1, -, a3, a4⟩ := mailboxPut_effect hs g r hside 2 true
  obtain ⟨b1, b2, b3, b4⟩ := mailboxPut_effect hu g r (k := 1 - sendSide w) (by omega) 3 false
  have hq : Quiet [Reg.FUNC.MBOX_STATUS g, Reg.FUNC.NOTICE r] s u := by
    simp only [u, run_when]
    split
    · exact a4
    · exact Act.Only.quiet (a := .nil) trivial s
  rw [hrun, run_when]
  refine ⟨fun h0 h1 => ?_, fun h0 h1 => ?_, ?_⟩
  · have hsent : u = (mailboxPut g (sendSide w) (b2n true) r 2).run s := (run_when _ _ s).trans (if_pos (by simp only [sent]; rw [h0, h1]; rfl))
    have e1 : u.bit (Reg.FUNC.MBOX_STATUS g) (sendSide w) = true := hsent ▸ a1
    have e2 : u.bit (Reg.FUNC.NOTICE r) 2 = true := hsent ▸ a3 2 (by decide) (.inl rfl)
    split
    · rw [hback] at b2
      exact ⟨b2.trans e1, b3 2 (by decide) (.inr e2)⟩
    · exact ⟨e1, e2⟩
  · rw [if_pos (show acked = true by simp only [acked]; rw [h0, h1]; rfl)]
    exact ⟨b1, b3 3 (by decide) (.inl rfl)⟩
  · split
    · exact hq.trans b4
    · exact hq

theorem mboxCmd_row (g : Fin 32) :
    RegRef.row (Reg.FUNC.MBOX_CMD g) = some ⟨0x080, 1, 0x04, .WO, 0x00000000, 0x00000000, 0x0, 0x00000000, false⟩ ∧
      RegRef.resetVal (Reg.FUNC.MBOX_CMD g) = 0 := by
  revert g; decide +kernel

/-- `hostReg_run` for a write of any function. -/
theorem hostReg_run_by {s : State} (hs : s.sound) {f : Nat} {r : RegRef} {row : RegRow} {v : Word} {a : Act} (hrow : r.row = some row)
    (hacc : s.accepts f r v = true) (ha : blockWrite f r.blk r.inst r.off (s.hostOld r) v = a) (hsh : row.shared = false := by rfl) :
    ∃ p, Written s r row v p ∧ Journaled (a.run p) ((hostReg f r v).run s) := by
  obtain ⟨row', hrow', hj⟩ := hostReg_accepted hacc
  obtain rfl : row = row' := Option.some.inj (hrow.symm.trans hrow')
  exact ⟨_, written_hostStored hs v hrow hsh, ha ▸ hj⟩

/-- MBOX_CMD written by the PF or by the page's own function. -/
theorem mbox_effect {s : State} (hl : s.live) (w : Nat) (g r : Fin 32) (hr : otherFn w g = r) {v : Word}
    (hacc : s.accepts w (Reg.FUNC.MBOX_CMD g) v = true) :
    let t := (hostReg w (Reg.FUNC.MBOX_CMD g) v).run s
    (v.getLsbD 0 = true → s.bit (Reg.FUNC.MBOX_STATUS g) (sendSide w) = false →
      t.bit (Reg.FUNC.MBOX_STATUS g) (sendSide w) = true ∧ t.bit (Reg.FUNC.NOTICE r) 2 = true) ∧
    (v.getLsbD 1 = true → s.bit (Reg.FUNC.MBOX_STATUS g) (1 - sendSide w) = true →
      t.bit (Reg.FUNC.MBOX_STATUS g) (1 - sendSide w) = false ∧ t.bit (Reg.FUNC.NOTICE r) 3 = true) ∧
    SameRegs ([Reg.FUNC.MBOX_STATUS g, Reg.FUNC.NOTICE r] ++ hostTrail .FUNC g) s t ∧ t.es = s.es ∧ t.tsc = s.tsc ∧ t.out = s.out := by
  intro t
  obtain ⟨hrow, h0⟩ := mboxCmd_row g
  obtain ⟨q, hq, hj⟩ : ∃ q, Written s _ _ _ q ∧ Journaled ((mboxCmdAct w g v).run q) t := hostReg_run_by hl.1 hrow hacc rfl
  obtain ⟨e1, e2, e3⟩ := mboxCmd_effect hq.rise w g r hr v
  have hbit (k : Nat) : q.bit (Reg.FUNC.MBOX_STATUS g) k = s.bit (Reg.FUNC.MBOX_STATUS g) k :=
    congrArg (BitVec.getLsbD · k) (hq.rd_off (q := Reg.FUNC.MBOX_STATUS g) (by simp) (by simp))
  have hst (k : Nat) : t.bit (Reg.FUNC.MBOX_STATUS g) k = ((mboxCmdAct w g v).run q).bit (Reg.FUNC.MBOX_STATUS g) k :=
    congrArg (BitVec.getLsbD · k) (hj.rd (r := Reg.FUNC.MBOX_STATUS g) g.isLt (show (0x084 : Nat) < 4096 by decide) nofun nofun)
  have hnt (k : Nat) : t.bit (Reg.FUNC.NOTICE r) k = ((mboxCmdAct w g v).run q).bit (Reg.FUNC.NOTICE r) k :=
    congrArg (BitVec.getLsbD · k) (hj.rd (r := Reg.FUNC.NOTICE r) r.isLt (show (0x04C : Nat) < 4096 by decide) nofun nofun)
  refine ⟨fun h h' => ?_, fun h h' => ?_, ?_, hq.sameRest e3.toSameRest hj⟩
  · obtain ⟨f1, f2⟩ := e1 h ((hbit _).trans h')
    exact ⟨(hst _).trans f1, (hnt _).trans f2⟩
  · obtain ⟨f1, f2⟩ := e2 h ((hbit _).trans h')
    exact ⟨(hst _).trans f1, (hnt _).trans f2⟩
  · exact hj.sameRegs (b := .FUNC) (i := g) (hq.kept (fun _ => rfl) h0 (by simp)) e3.regs (by simp [hostTrail]) (by simp) (by simp)

/-- A SEND is accepted only while the receiver's side is empty. -/
theorem mbox_room {s : State} {w : Nat} {g : Fin 32} (hg : g ≠ 0) {v : Word} (h0 : v.getLsbD 0 = true)
    (hacc : s.accepts w (Reg.FUNC.MBOX_CMD g) v = true) : s.bit (Reg.FUNC.MBOX_STATUS g) (sendSide w) = false := by
  have hd : funcDrops s w g 0x080 v = false := accepts_drops hacc
  have hne : ¬((g : Nat) = 0 ∧ (decide (0x080 ≤ 0x080 ∧ 0x080 < 0x084) || decide (0x0C0 ≤ 0x080 ∧ 0x080 < 0x100)) = true) :=
    fun h => hg (Fin.ext h.1)
  unfold funcDrops at hd
  dsimp only at hd
  rw [if_neg hne, if_neg (by decide), if_neg (by decide), if_pos rfl, h0, Bool.true_and] at hd
  unfold sendSide
  by_cases hw : w = 0
  · rw [if_pos hw] at hd ⊢
    exact hd
  · rw [if_neg hw] at hd ⊢
    exact hd

/-! ### Function Level Resets (R458 to R461) -/

theorem dispatch_teardown (c : Nat) : (teardown c).Only .dispatch := by
  simp [teardown, Act.ctxState, dispatch_stopCmd, dispatch_freeInput, Act.ctx]

/-- A torn-down context is freed, and its function told. -/
theorem only_teardownComplete {p : Scope} (c : Nat) (hm : p.mem) (hh : ∀ f, (∀ h : Hw, (f h).gath = h.gath) → p.hw f) (he : ∀ e, p.hw (Hw.setEdge e))
    (h1 : ∀ r ∈ irqOf .DISP 0, p.reg r) (h2 : ∀ f, p.reg (Reg.FUNC.NOTICE f)) : (teardownCompleteAct c).Only p := by
  simp only [teardownCompleteAct, only_get, only_when, only_all_cons, only_all_nil, only_disp, Act.ctxState, dispRaise, only_bytes]
  exact fun s _ => ⟨fun _ => hm, hh _ fun _ => rfl, only_raise (h1 _ (by simp [irqOf])) (h1 _ (by simp [irqOf])) he, only_notice (h2 _) he, trivial⟩

/-- What the end of a function's contexts may change: the pages from DISP's on, the notices, memory, block state. -/
def Scope.ctxsEnd : Scope := { reg := fun r => 0x60 ≤ r.blk.slot ∨ r.off = 0x04C, mem := True, poison := True }

/-- The contexts of a function torn down, and those already torn down freed. -/
def ctxsEnd (down free : List Nat) : Act := .seq (.each down teardown) (.each free teardownCompleteAct)

theorem only_ctxsEnd (down free : List Nat) : (ctxsEnd down free).Only .ctxsEnd :=
  ⟨(only_each _ _).2 fun c _ => (dispatch_teardown c).weaken (fun _ h => .inl h) (fun _ _ => trivial) (mem := fun _ => trivial)
      (poison := fun _ => trivial),
    (only_each _ _).2 fun c _ => only_teardownComplete c trivial (fun _ _ => trivial) (fun _ => trivial)
      (fun r hr => .inl (by simp only [irqOf, List.mem_cons, List.not_mem_nil, or_false] at hr; rcases hr with rfl | rfl <;> exact Nat.le_refl _))
      fun _ => .inr rfl⟩

/-- The end of a function's service, once its contexts are down. -/
def serviceEnd (f : Nat) (srcs : List Nat) : Act := .seq
  (.gath fun g => { g with edge := srcs.foldl (fun e n => putBit e n false) g.edge, soft := srcs.foldl (fun e n => putBit e n false) g.soft })
  (clearTargets f)

/-- What function `f` held of MSI-X and of configuration is lost. -/
def flrForget (f : Nat) : Act := .seq
  (.gath fun g => { g with msix := g.msix.filter fun e => e.1 / 64 != f
                           pba := (List.range 64).foldl (fun b v => putBit b (64 * f + v) false) g.pba })
  (.fn f fun _ => {})

/-- The rest of the reset of VF `f`, its page's registers apart. -/
def flrTold (f : Nat) : Act := .seq (flrForget f) (.seq (.notice 0 1) (.wrN (Reg.FUNC.FLR_LAST 0) f))

theorem only_flrForget (f : Nat) : (flrForget f).Only { hw := fun f => ∀ h : Hw, (f h).gath.insvc = h.gath.insvc } := ⟨fun _ => rfl, fun _ => rfl⟩

theorem vfFlr_run (f : Nat) (s : State) : ∃ down free srcs, (vfFlrAct f).run s =
    (flrTold f).run ((resetFunc f false).run ((serviceEnd f srcs).run ((ctxsEnd down free).run s))) := ⟨_, _, _, rfl⟩

theorem only_flrTold (f : Nat) : (flrTold f).Only
    { reg := (· ∈ [Reg.FUNC.NOTICE 0, Reg.FUNC.FLR_LAST 0]), hw := fun f => ∀ h : Hw, (f h).gath.insvc = h.gath.insvc } :=
  ⟨(only_flrForget f).weaken (fun _ h => h.elim) fun _ h => h, only_notice (by simp) fun _ _ => rfl, by simp⟩

/-- The PF is told of the reset, and its function named, last. -/
theorem flrTold_run (f : Nat) (s : State) : ∃ u : State, u.regs = s.regs ∧
    (flrTold f).run s = (Act.wrN (Reg.FUNC.FLR_LAST 0) f).run ((Act.notice 0 1).run u) :=
  ⟨(flrForget f).run s, (only_flrForget f).regs_eq (fun _ h => h) (fun h => h) s, rfl⟩

theorem mask_flrLast : RegRef.mask (Reg.FUNC.FLR_LAST 0) = 0x1F := by decide +kernel

theorem flrLast_wr {s : State} (hs : keysRise s.regs) (g : Fin 32) :
    (((Act.wrN (Reg.FUNC.FLR_LAST 0) g).run s).rd (Reg.FUNC.FLR_LAST 0)).toNat = g.val := by
  have hrd : ((Act.wrN (Reg.FUNC.FLR_LAST 0) g).run s).rd (Reg.FUNC.FLR_LAST 0) = BitVec.ofNat 32 g.val &&& RegRef.mask (Reg.FUNC.FLR_LAST 0) :=
    rd_setReg_same hs _ _
  rw [hrd, mask_flrLast]
  clear hrd
  revert g
  decide

/-- The page FUNC[f] is reset from offset 0x040 on, QOS apart unless asked for. -/
theorem rd_resetFunc (f off : Nat) (qos : Bool) (s : State) (h1 : 0x040 ≤ off) (h2 : off < 0x1000) :
    ((resetFunc f qos).run s).rd ⟨.FUNC, f, off⟩ = if qos || off != 0x044 then RegRef.resetVal ⟨.FUNC, f, off⟩ else s.rd ⟨.FUNC, f, off⟩ := by
  refine (rd_resetRegs s _ _).trans (congrArg (if · = true then _ else _) ?_)
  have hbase : (Reg.FUNC.QOS f).key - 0x044 = (Blk.FUNC.slot + f) * 0x1000 := Nat.add_sub_cancel _ _
  rw [hbase, show RegRef.key ⟨.FUNC, f, off⟩ = (Blk.FUNC.slot + f) * 0x1000 + off from rfl]
  generalize (Blk.FUNC.slot + f) * 0x1000 = b
  have hne : (b + off != b + 0x044) = (off != 0x044) := by simp [bne, Nat.add_left_cancel_iff]
  rw [hne, decide_eq_true ⟨by omega, by omega⟩, Bool.true_and]

theorem only_resetFunc (f : Nat) (qos : Bool) : (resetFunc f qos).Only { reset := True } := by simp [resetFunc]

/-- A Function Level Reset of a VF (R458). -/
theorem vfFlr_effect {s : State} (hs : keysRise s.regs) (g : Fin 32) (hg : g ≠ 0) :
    (∀ off, 0x040 ≤ off → off < 0x1000 → off ≠ 0x044 → ((vfFlrAct g).run s).rd ⟨.FUNC, g, off⟩ = RegRef.resetVal ⟨.FUNC, g, off⟩) ∧
      ((vfFlrAct g).run s).rd (Reg.FUNC.QOS g) = s.rd (Reg.FUNC.QOS g) ∧ (∀ e ∈ ((vfFlrAct g).run s).hw.gath.insvc, e.1 ≠ g.val) ∧
      ((vfFlrAct g).run s).bit (Reg.FUNC.NOTICE 0) 1 = true ∧
      (((vfFlrAct g).run s).rd (Reg.FUNC.FLR_LAST 0)).toNat = g.val ∧ ((vfFlrAct g).run s).es = s.es ∧ ((vfFlrAct g).run s).tsc = s.tsc := by
  obtain ⟨down, free, srcs, hrun⟩ := vfFlr_run g s
  rw [hrun]
  have hend := only_ctxsEnd down free
  have hqos : ((serviceEnd g srcs).run ((ctxsEnd down free).run s)).rd (Reg.FUNC.QOS g) = s.rd (Reg.FUNC.QOS g) :=
    hend.rd id (fun r hr hk => by
      have hr' : 0x60 ≤ r.blk.slot ∨ r.off = 0x04C := hr
      simp only [RegRef.key, show Blk.FUNC.slot = 0x40 from rfl] at hk
      omega) s
  have hin : ∀ e ∈ ((serviceEnd g srcs).run ((ctxsEnd down free).run s)).hw.gath.insvc, e.1 ≠ g.val :=
    fun e he => by simpa using (List.mem_filter.1 he).2
  have hes : ((serviceEnd g srcs).run ((ctxsEnd down free).run s)).es = s.es := hend.es id s
  have htsc : ((serviceEnd g srcs).run ((ctxsEnd down free).run s)).tsc = s.tsc := hend.tsc id s
  have hv : keysRise ((serviceEnd g srcs).run ((ctxsEnd down free).run s)).regs := rise_run _ (rise_run _ hs)
  generalize (serviceEnd g srcs).run ((ctxsEnd down free).run s) = v at *
  have hw : keysRise ((resetFunc g false).run v).regs := rise_run _ hv
  have hpages := fun off h1 h2 => rd_resetFunc g off false v h1 h2
  have hin' : ((resetFunc g false).run v).hw.gath.insvc = v.hw.gath.insvc := rfl
  have hes' : ((resetFunc g false).run v).es = v.es := rfl
  have htsc' : ((resetFunc g false).run v).tsc = v.tsc := rfl
  generalize (resetFunc g false).run v = w at *
  have hg0 : 0 < g.val := Nat.pos_of_ne_zero fun h => hg (Fin.ext h)
  have htold := only_flrTold g
  obtain ⟨u, hur, htell⟩ := flrTold_run g w
  have hu : keysRise u.regs := hur ▸ hw
  have hpage (off : Nat) (ho : off < 0x1000) : ((flrTold g).run w).rd ⟨.FUNC, g, off⟩ = w.rd ⟨.FUNC, g, off⟩ := htold.rd id (fun r hr hk => by
    simp only [List.mem_cons, List.not_mem_nil, or_false] at hr
    rcases hr with rfl | rfl <;> simp only [RegRef.key] at hk <;> omega) w
  refine ⟨fun off h1 h2 h3 => ?_, ?_, ?_, ?_, ?_, (htold.es id w).trans (hes'.trans hes), (htold.tsc id w).trans (htsc'.trans htsc)⟩
  · rw [hpage off h2, hpages off h1 h2, if_pos (by simpa using h3)]
  · exact (hpage 0x044 (by decide)).trans (((hpages 0x044 (by decide) (by decide)).trans (if_neg (by decide))).trans hqos)
  · rw [htold.hw (fun h => h.gath.insvc) (fun _ h => h) w, hin']
    exact hin
  · rw [htell]
    refine (congrArg (BitVec.getLsbD · 1) (rd_setReg_off (r := Reg.FUNC.FLR_LAST 0) (by simp))).trans ?_
    exact bit_notice (f := (0 : Fin 32)) hu (by decide) (.inl rfl)
  · rw [htell]
    exact flrLast_wr (rise_run _ hu) g

/-- The scope of a reset of functions: everything but the engine stores and the time-stamp counter. -/
def Scope.functions : Scope := { reg := fun _ => True, reset := True, mem := True, poison := True, out := True }

theorem functions_ctxsEnd (down free : List Nat) : (ctxsEnd down free).Only .functions :=
  (only_ctxsEnd down free).mono fun u hu => by cases u <;> trivial

theorem functions_vfFlr (f : Nat) : (vfFlrAct f).Only .functions := fun _ =>
  ⟨(functions_ctxsEnd _ []).1, (functions_ctxsEnd [] _).2, trivial, trivial, trivial, trivial, trivial, only_notice trivial fun _ => trivial,
    trivial, trivial⟩

theorem functions_allVfFlr : allVfFlr.Only .functions := fun _ => (only_each _ _).2 fun f _ => functions_vfFlr f

/-- A Function Level Reset of the PF (R461), but for the masks: the reset of its page and what the gatherer loses. -/
def pfReset (down free : List Nat) : Act := .seq (ctxsEnd down free) (.seq (resetFunc 0 true)
  (.gath fun g => { g with edge := 0, soft := 0, insvc := [], chans := g.chans.filter fun e => e.1 / 64 != 0,
                           expired := g.expired.filter fun e => e / 64 != 0,
                           heldMsg := g.heldMsg.filter fun e => e.1 != 0 }))

/-- The sources of a group masked, and those of every group. -/
def maskGroup (g : Nat) : Act := .each (List.range 8) fun w => .wrN (Reg.GATH.SRC_MASK g w) 4294967295
def maskSources : Act := .each (List.range 4) maskGroup

theorem pfFlr_run (s : State) : ∃ down free, pfFlrAct.run s = maskSources.run ((pfReset down free).run (allVfFlr.run s)) := ⟨_, _, rfl⟩

theorem mask_srcMask (g : Fin 4) (w : Fin 8) : RegRef.mask (Reg.GATH.SRC_MASK g w) = 0xFFFFFFFF := by revert g w; decide +kernel

theorem only_maskGroup (g : Nat) : (maskGroup g).Only { reg := fun r => ∃ w < 8, r = Reg.GATH.SRC_MASK g w, hw := fun _ => False } :=
  (only_each _ _).2 fun w hw => ⟨w, List.mem_range.1 hw, rfl⟩

theorem only_maskSources : maskSources.Only { reg := fun _ => True, hw := fun _ => False } :=
  (only_each _ _).2 fun g _ => (only_maskGroup g).weaken (fun _ _ => trivial) fun _ h => h

theorem rd_maskGroup {s : State} (hs : keysRise s.regs) (g : Fin 4) (w : Fin 8) :
    ((maskGroup g).run s).rd (Reg.GATH.SRC_MASK g w) = 0xFFFFFFFF := by
  have h : ∀ j < 8, RegRef.mask (Reg.GATH.SRC_MASK g j) = 0xFFFFFFFF := fun j hj => mask_srcMask g ⟨j, hj⟩
  exact rd_each_range (f := Reg.GATH.SRC_MASK g) (g := fun _ => 4294967295) h
    (fun i hi j hj hne => by simp only [RegRef.key, ne_eq]; omega) hs w.isLt

theorem rd_maskSources {s : State} (hs : keysRise s.regs) (g : Fin 4) (w : Fin 8) :
    (maskSources.run s).rd (Reg.GATH.SRC_MASK g w) = 0xFFFFFFFF := by
  have hmask (n : Nat) : g.val < n → n ≤ 4 → ((Act.each (List.range n) maskGroup).run s).rd (Reg.GATH.SRC_MASK g w) = 0xFFFFFFFF := by
    induction n with
    | zero => exact fun h => absurd h (Nat.not_lt_zero _)
    | succ n ih =>
      intro hg hn
      rw [List.range_succ, run_each_append]
      have hr : keysRise ((Act.each (List.range n) maskGroup).run s).regs := rise_run _ hs
      generalize (Act.each (List.range n) maskGroup).run s = u at *
      by_cases h : g.val = n
      · rw [← h]
        exact rd_maskGroup hr g w
      · refine ((only_maskGroup n).rd id (fun r hr hk => ?_) u).trans (ih (by omega) (by omega))
        obtain ⟨k, hk', rfl⟩ := hr
        exact key_ne_of_page (by dsimp only; omega) (by dsimp only; omega) (by dsimp only; omega) hk
  exact hmask 4 g.isLt (Nat.le_refl _)

theorem pfFlr_effect {s : State} (hs : keysRise s.regs) :
    (∀ (g : Fin 4) (w : Fin 8), (pfFlrAct.run s).rd (Reg.GATH.SRC_MASK g w) = 0xFFFFFFFF) ∧ (pfFlrAct.run s).hw.gath.edge = 0 ∧
      (pfFlrAct.run s).hw.gath.soft = 0 ∧ (pfFlrAct.run s).hw.gath.insvc = [] ∧ (pfFlrAct.run s).es = s.es ∧ (pfFlrAct.run s).tsc = s.tsc := by
  obtain ⟨down, free, hrun⟩ := pfFlr_run s
  have hends : (pfReset down free).Only .functions := ⟨functions_ctxsEnd _ _, trivial, trivial⟩
  rw [hrun]
  have hgath : ((pfReset down free).run (allVfFlr.run s)).hw.gath.edge = 0 ∧ ((pfReset down free).run (allVfFlr.run s)).hw.gath.soft = 0 ∧
      ((pfReset down free).run (allVfFlr.run s)).hw.gath.insvc = [] := ⟨rfl, rfl, rfl⟩
  have hes := (hends.es id (allVfFlr.run s)).trans (functions_allVfFlr.es id s)
  have htsc := (hends.tsc id (allVfFlr.run s)).trans (functions_allVfFlr.tsc id s)
  have hu : keysRise ((pfReset down free).run (allVfFlr.run s)).regs := rise_run _ (rise_run _ hs)
  generalize (pfReset down free).run (allVfFlr.run s) = u at *
  have hpart {α : Type} (π : Hw → α) : π (maskSources.run u).hw = π u.hw := only_maskSources.hw π (fun _ h => h.elim) u
  exact ⟨rd_maskSources hu, (hpart (·.gath.edge)).trans hgath.1, (hpart (·.gath.soft)).trans hgath.2.1,
    (hpart (·.gath.insvc)).trans hgath.2.2, (only_maskSources.es id u).trans hes, (only_maskSources.tsc id u).trans htsc⟩

theorem mask_sriov : RegRef.mask Reg.HOST.VF_ENABLED ≠ 0 ∧ (RegRef.mask Reg.HOST.SRIOV_STATUS).getLsbD 0 = true := by decide +kernel

theorem vfEnableClear_effect {s : State} (hs : keysRise s.regs) :
    (vfEnableClearAct.run s).rd Reg.HOST.VF_ENABLED = 0 ∧ (vfEnableClearAct.run s).bit Reg.HOST.SRIOV_STATUS 0 = false ∧
      (vfEnableClearAct.run s).es = s.es ∧ (vfEnableClearAct.run s).tsc = s.tsc := by
  have hrun : vfEnableClearAct.run s = (Act.setFld Reg.HOST.SRIOV_STATUS 0 0 0).run ((allVfFlr.run s).setReg Reg.HOST.VF_ENABLED 0) := rfl
  rw [hrun]
  have hr : keysRise ((allVfFlr.run s).setReg Reg.HOST.VF_ENABLED 0).regs := keysRise_setReg (rise_run _ hs) _ _
  refine ⟨?_, ?_, functions_allVfFlr.es id s, functions_allVfFlr.tsc id s⟩
  · refine (rd_setReg_off (r := Reg.HOST.SRIOV_STATUS) (by simp)).trans ((rd_setReg_same (rise_run _ hs) Reg.HOST.VF_ENABLED 0).trans ?_)
    simp
  · exact (bit_setFld hr mask_sriov.2).trans rfl

/-! ### IRQ_EOI (R469) -/

theorem eoi_row (g : Fin 32) : RegRef.row (Reg.FUNC.IRQ_EOI g) = some ⟨0x054, 1, 0x04, .WO, 0x00000000, 0x00000000, 0x0, 0x00000000, false⟩ ∧
    RegRef.resetVal (Reg.FUNC.IRQ_EOI g) = 0 := by
  revert g; decide +kernel

/-- The service of the named vector ends, that of the others does not. -/
theorem vecInService_filter (l : List (Nat × Nat × Nat)) (f v f' v' : Nat) :
    ((l.filter fun e => !(e.1 == f && e.2.1 == v)).any fun e => e.1 == f' && e.2.1 == v') =
      (!(f' == f && v' == v) && l.any fun e => e.1 == f' && e.2.1 == v') := by
  induction l with
  | nil => simp
  | cons e l ih =>
    rw [List.filter_cons, List.any_cons]
    by_cases h : e.1 = f ∧ e.2.1 = v
    · obtain ⟨rfl, rfl⟩ := h
      rw [if_neg (by simp), ih]
      by_cases h' : f' = e.1 ∧ v' = e.2.1
      · obtain ⟨rfl, rfl⟩ := h'
        simp
      · have : (e.1 == f' && e.2.1 == v') = false := by simpa using fun h1 h2 => h' ⟨Eq.symm h1, Eq.symm h2⟩
        rw [this, Bool.false_or]
    · have hn : (e.1 == f && e.2.1 == v) = false := by simpa using fun h1 h2 => h ⟨h1, h2⟩
      rw [if_pos (by rw [hn]; rfl), List.any_cons, ih]
      by_cases h' : e.1 = f' ∧ e.2.1 = v'
      · obtain ⟨rfl, rfl⟩ := h'
        rw [hn]
        simp
      · have : (e.1 == f' && e.2.1 == v') = false := by simpa using fun h1 h2 => h' ⟨h1, h2⟩
        rw [this, Bool.false_or, Bool.false_or]

theorem eoi_effect {s : State} (hl : s.live) (f g : Fin 32) (v : Word) (hacc : s.accepts f (Reg.FUNC.IRQ_EOI g) v = true) :
    let t := (hostReg f (Reg.FUNC.IRQ_EOI g) v).run s
    t.vecInService g (bits v 5 0) = false ∧
      (∀ f' v', (f', v') ≠ (g.val, bits v 5 0) → t.vecInService f' v' = s.vecInService f' v') ∧ SameRegs (hostTrail .FUNC g) s t ∧
      t.es = s.es ∧ t.tsc = s.tsc ∧ t.out = s.out := by
  intro t
  obtain ⟨hrow, h0⟩ := eoi_row g
  obtain ⟨q, hq, hj⟩ : ∃ q, Written s _ _ _ q ∧ Journaled ((eoiAct g (bits v 5 0)).run q) t := hostReg_run_by hl.1 hrow hacc rfl
  have hd : funcDrops s f g 0x054 v = false := accepts_drops hacc
  have hin : s.vecInService g (bits v 5 0) = true := by
    have hne : ¬((g : Nat) = 0 ∧ (decide (0x080 ≤ 0x054 ∧ 0x054 < 0x084) || decide (0x0C0 ≤ 0x054 ∧ 0x054 < 0x100)) = true) :=
      fun h => absurd h.2 (by decide)
    unfold funcDrops at hd
    dsimp only at hd
    rw [if_neg hne, if_neg (by decide), if_pos rfl] at hd
    simpa using hd
  let forget (h : Hw) : Hw :=
    { h with gath := { h.gath with insvc := h.gath.insvc.filter fun e => !(e.1 == g.val && e.2.1 == bits v 5 0) } }
  have hrun : (eoiAct g (bits v 5 0)).run q = (Act.hw forget).run q := by
    have hq' : q.vecInService g (bits v 5 0) = true := (congrArg (fun h : Hw => h.gath.insvc.any fun e => e.1 == g.val && e.2.1 == bits v 5 0) hq.hw).trans hin
    rw [eoiAct, run_get, if_pos hq']
    rfl
  have hvec (f' v' : Nat) : t.vecInService f' v' = (!(f' == g.val && v' == bits v 5 0) && s.vecInService f' v') := by
    have ht : t.hw.gath.insvc = q.hw.gath.insvc.filter fun e => !(e.1 == g.val && e.2.1 == bits v 5 0) :=
      (hj.part (·.gath.insvc)).trans (congrArg (·.hw.gath.insvc) hrun)
    rw [State.vecInService, ht, vecInService_filter, hq.hw]
    rfl
  have hframe : SameRegs [] q ((eoiAct g (bits v 5 0)).run q) ∧ SameRest q ((eoiAct g (bits v 5 0)).run q) :=
    hrun ▸ Act.Only.frame (a := Act.hw forget) trivial q
  refine ⟨by rw [hvec]; simp, fun f' v' hne => ?_, ?_, hq.sameRest hframe.2 hj⟩
  · have : (f' == g.val && v' == bits v 5 0) = false := by simpa using fun h1 h2 => hne (by rw [h1, h2])
    rw [hvec, this]
    rfl
  · exact hj.sameRegs (b := .FUNC) (i := g) (hq.kept (fun _ => rfl) h0 (by simp)) hframe.1 (by simp [hostTrail]) (by simp) (by simp)

theorem side_of_vf {g : Fin 32} (hg : g ≠ 0) : sendSide g = 0 ∧ otherFn g g = 0 := by
  have h : ¬(g : Nat) = 0 := fun h => hg (Fin.ext h)
  exact ⟨if_neg h, if_neg h⟩

/-- Settles O40: mailboxes, Function Level Resets, IRQ_EOI. -/
theorem functionCommands : Obligations.FunctionCommands := by
  unfold Obligations.FunctionCommands
  refine ⟨fun s g v hl hg => ⟨fun ha => ⟨_, simply_eq hl.2, ?_⟩, fun ha => ⟨_, simply_eq hl.2, ?_⟩, fun ha hb => ⟨_, simply_eq hl.2, ?_⟩,
      fun ha hb => ⟨_, simply_eq hl.2, ?_⟩⟩,
    fun s g hl hg => ⟨_, command_eq hl.2, vfFlr_effect hl.1.1.1 g hg⟩, fun s hl => ⟨_, command_eq hl.2, pfFlr_effect hl.1.1.1⟩,
    fun s hl => ⟨_, command_eq hl.2, vfEnableClear_effect hl.1.1.1⟩, fun s f g v hl ha => ⟨_, simply_eq hl.2, eoi_effect hl f g v ha⟩⟩
  · obtain ⟨e1, -, e3⟩ := mbox_effect hl 0 g g rfl ha
    obtain ⟨f1, f2⟩ := e1 (getLsbD_or_one v) (mbox_room hg (getLsbD_or_one v) ha)
    exact ⟨f1, f2, e3⟩
  · obtain ⟨hs, ho⟩ := side_of_vf hg
    obtain ⟨e1, -, e3⟩ := mbox_effect hl g g 0 ho ha
    obtain ⟨f1, f2⟩ := e1 (getLsbD_or_one v) (mbox_room hg (getLsbD_or_one v) ha)
    exact ⟨hs ▸ f1, f2, e3⟩
  · obtain ⟨-, e2, e3⟩ := mbox_effect hl 0 g g rfl ha
    obtain ⟨f1, f2⟩ := e2 (getLsbD_or_two v) hb
    exact ⟨f1, f2, e3⟩
  · obtain ⟨hs, ho⟩ := side_of_vf hg
    obtain ⟨-, e2, e3⟩ := mbox_effect hl g g 0 ho ha
    rw [hs] at e2
    obtain ⟨f1, f2⟩ := e2 (getLsbD_or_two v) hb
    exact ⟨f1, f2, e3⟩

end Sys2Proof.Machine

/-! ## Proofs: the gatherer's selections, messages and timers (O42) -/

namespace Sys2Proof.Machine

-- One theorem after the other: elaborated side by side, they hold more threads than the memory limit of a check allows.
set_option Elab.async false

/-! ### The message of a target (R468, R472, R477) -/

theorem mask_deliv (f : Fin 32) : RegRef.mask (Reg.FUNC.DELIV_CNT f) = 0xFFFFFFFF := by revert f; decide +kernel
theorem mask_gdeliv (g : Fin 4) : RegRef.mask (Reg.GATH.GDELIV_CNT g) = 0xFFFFFFFF ∧ RegRef.mask (Reg.GATH.STORM_CNT g) = 0xFFFFFFFF := by
  revert g; decide +kernel
theorem mask_hostLink : bits (RegRef.mask Reg.HOST.LINK_STATUS) 15 12 = 15 := by decide +kernel

theorem message_effect {s : State} (hs : keysRise s.regs) (f : Fin 32) (v : Nat) :
    let t := (Act.message f v).run s
    t.out = s.out ++ [.msix f v] ∧ Counts (Reg.FUNC.DELIV_CNT f) 1 s t ∧ SameRegs [Reg.FUNC.DELIV_CNT f] s t ∧
      (f.val, v) ∉ t.hw.gath.heldMsg ∧
      (t.hw.gath.insvc = s.hw.gath.insvc ∧ t.hw.gath.edge = s.hw.gath.edge ∧ t.hw.gath.soft = s.hw.gath.soft) ∧
      t.mem = s.mem ∧ t.es = s.es ∧ t.tsc = s.tsc := by
  let u := (Act.seq (.gath fun g => { g with heldMsg := g.heldMsg.filter (· != (f.val, v)), pba := putBit g.pba (64 * f + v) false })
    (.out (.msix f v))).run s
  have hrun : (Act.message f v).run s = (Act.bump (Reg.FUNC.DELIV_CNT f) 1).run u := rfl
  have hb : (Act.bump (Reg.FUNC.DELIV_CNT f) 1).Only { reg := (· ∈ [Reg.FUNC.DELIV_CNT f]), hw := fun _ => False } := by simp
  have hpart {α : Type} (π : Hw → α) : π ((Act.bump (Reg.FUNC.DELIV_CNT f) 1).run u).hw = π u.hw := hb.hw π (fun _ h => h.elim) u
  have hheld : (f.val, v) ∉ ((Act.bump (Reg.FUNC.DELIV_CNT f) 1).run u).hw.gath.heldMsg := by
    rw [hpart (·.gath.heldMsg)]
    exact fun h => absurd (List.mem_filter.1 h).2 (by simp)
  dsimp only
  rw [hrun]
  exact ⟨hb.out id u, counts_bump (s := u) hs (mask_deliv f) 1, hb.sameRegs id (fun _ h => h) u,
    hheld, ⟨hpart (·.gath.insvc), hpart (·.gath.edge), hpart (·.gath.soft)⟩,
    hb.mem id u, hb.es id u, hb.tsc id u⟩

/-- Outside D3 and with the link in L0, the message of a vector that PCIe allows goes out at once. -/
theorem send_message {s : State} {f v : Nat} (hd : (s.fn f).dState ≠ 3) (hl : s.ltssm = ltssmL0) (ha : s.vecAllowed f v = true) :
    (Act.send f v).run s = (Act.message f v).run s := by
  have h3 : ((s.fn f).dState == 3) = false := by simpa using hd
  have h2 : (s.ltssm == ltssmL2) = false := by rw [hl]; rfl
  have h1 : (s.ltssm == ltssmL1) = false := by rw [hl]; rfl
  rw [Act.send, run_get]
  simp only [h3, h2, h1, Bool.or_false, Bool.false_eq_true, if_false]
  rw [run_seq, run_when, if_neg Bool.false_ne_true, if_pos ha]

/-- What the gatherer keeps of a source taken into service (R465, R466, R468). -/
def takeSource (f v n : Nat) (g : GathSt) : GathSt :=
  { g with insvc := g.insvc ++ [(f, v, n)], edge := putBit g.edge n false, soft := putBit g.soft n false,
           lastG := (g.lastG.filter fun e => e.1 != f) ++ [(f, n / 256)] }

/-- The delivery of a source up to its message. -/
def takeAct (f v n : Nat) : Act := .seq (stormCount n) (.seq (.gath (takeSource f v n))
  (.seq (.setFld (Reg.GATH.GATH_STATUS (n / 256)) 25 16 n) (.bump (Reg.GATH.GDELIV_CNT (n / 256)) 1)))

theorem run_all_five (c g w a b d : Act) (s : State) (hw : w = .nil) :
    (c.seq (.all [g, w, a, b, d])).run s = d.run ((c.seq (g.seq (a.seq b))).run s) := by
  subst hw; rfl

theorem take_run (f v n : Nat) (s : State) : (Act.seq (stormCount n) (deliver f v n false)).run s = (Act.send f v).run ((takeAct f v n).run s) := by
  simp only [deliver, Bool.false_eq_true, if_false]
  exact run_all_five _ _ _ _ _ _ s rfl

/-- The same registers read the same. -/
theorem rd_of_regs {s t : State} (h : t.regs = s.regs) (r : RegRef) : t.rd r = s.rd r := by unfold State.rd; rw [h]

theorem only_stormCount {p : Scope} (n : Nat) (h : ∀ f, (∀ h : Hw, (f h).gath.insvc = h.gath.insvc ∧ (f h).gath.fns = h.gath.fns ∧
    (f h).gath.msix = h.gath.msix) → p.hw f) : (stormCount n).Only p := by
  simp only [stormCount, only_get, only_when, only_gath]
  exact fun s _ => h _ fun _ => ⟨rfl, rfl, rfl⟩

theorem getLsbD_putBit_false {n i : Nat} (w : BitVec n) : (putBit w i false).getLsbD i = false := by
  rw [putBit, if_neg Bool.false_ne_true, BitVec.getLsbD_and, BitVec.getLsbD_not, getLsbD_ofNat_two_pow]
  by_cases h : i < n <;> simp [h]

theorem take_effect {s : State} (hs : keysRise s.regs) (f : Fin 32) (v n : Nat) (hn : n < 1024) :
    let t := (takeAct f v n).run s
    (t.hw.gath.insvc = s.hw.gath.insvc ++ [(f.val, v, n)] ∧ inSet t.hw.gath.edge n = false ∧ inSet t.hw.gath.soft n = false) ∧
      (t.hw.gath.fns = s.hw.gath.fns ∧ t.hw.gath.msix = s.hw.gath.msix) ∧
      Counts (Reg.GATH.GDELIV_CNT (n / 256)) 1 s t ∧
      SameRegs [Reg.GATH.GDELIV_CNT (n / 256), Reg.GATH.GATH_STATUS (n / 256)] s t ∧ SameRest s t := by
  have hc : (stormCount n).Only { hw := fun f => ∀ h : Hw, (f h).gath.insvc = h.gath.insvc ∧ (f h).gath.fns = h.gath.fns ∧
    (f h).gath.msix = h.gath.msix } := only_stormCount n fun _ h => h
  have hins := hc.hw (·.gath.insvc) (fun _ h x => (h x).1) s
  have hfns := hc.hw (·.gath.fns) (fun _ h x => (h x).2.1) s
  have hmsix := hc.hw (·.gath.msix) (fun _ h x => (h x).2.2) s
  let u := (Act.gath (takeSource f v n)).run ((stormCount n).run s)
  have hregs : u.regs = s.regs := hc.regs_eq (fun _ h => h) (fun h => h) s
  let tell : Act := .seq (.setFld (Reg.GATH.GATH_STATUS (n / 256)) 25 16 n) (.bump (Reg.GATH.GDELIV_CNT (n / 256)) 1)
  have htell : tell.Only { reg := (· ∈ [Reg.GATH.GDELIV_CNT (n / 256), Reg.GATH.GATH_STATUS (n / 256)]), hw := fun _ => False } := by simp [tell]
  have hrun : (takeAct f v n).run s = tell.run u := rfl
  have hpart {α : Type} (π : Hw → α) : π (tell.run u).hw = π u.hw := htell.hw π (fun _ h => h.elim) u
  dsimp only
  rw [hrun]
  have hrest : SameRest s u := (hc.sameRest id id id id id s).trans ⟨rfl, rfl, rfl, rfl, rfl⟩
  refine ⟨⟨(hpart (·.gath.insvc)).trans (congrArg (· ++ [(f.val, v, n)]) hins), ?_, ?_⟩, ⟨(hpart (·.gath.fns)).trans hfns, (hpart (·.gath.msix)).trans hmsix⟩,
    ?_, ?_, hrest.trans (htell.sameRest id id id id id u)⟩
  · exact (congrArg (inSet · n) (hpart (·.gath.edge))).trans (getLsbD_putBit_false _)
  · exact (congrArg (inSet · n) (hpart (·.gath.soft))).trans (getLsbD_putBit_false _)
  · have hcount := counts_bump (s := (Act.setFld (Reg.GATH.GATH_STATUS (n / 256)) 25 16 n).run u)
      (rise_run _ (hregs ▸ hs)) (mask_gdeliv ⟨n / 256, by omega⟩).1 1
    have hrd : ((Act.setFld (Reg.GATH.GATH_STATUS (n / 256)) 25 16 n).run u).rd (Reg.GATH.GDELIV_CNT (n / 256)) = s.rd (Reg.GATH.GDELIV_CNT (n / 256)) :=
      (rd_setReg_off (r := Reg.GATH.GATH_STATUS (n / 256)) (by simp)).trans (rd_of_regs hregs _)
    rw [Counts, hrd] at hcount
    exact hcount
  · intro r hr
    exact (htell.sameRegs id (fun _ h => h) u r hr).trans (rd_of_regs hregs _)

/-! ### Selection (R468, R473) -/

section
variable {s : State} {f v n : Nat}

theorem gathererSelect_run (hidle : s.vecInService f v = false) (hen : s.fnEnabled f = true) (hch : s.chanPending f v = false)
    (hfind : ((List.range 1024).find? fun n => s.selectable n && s.target n == (f, v)) = some n) :
    (gathererSelectAct f v).run s = (if s.stormTrips n then stormTrip f n else .seq (stormCount n) (deliver f v n false)).run s := by
  rw [gathererSelectAct, run_get]
  dsimp only
  rw [hidle, hen, hch, hfind, run_when, if_pos (by decide)]
  simp only [Bool.false_and, Bool.false_eq_true, if_false]

theorem gathererSelect_none (hch : s.chanPending f v = false)
    (hfind : ((List.range 1024).find? fun n => s.selectable n && s.target n == (f, v)) = none) : (gathererSelectAct f v).run s = s := by
  rw [gathererSelectAct, run_get]
  dsimp only
  rw [hch, hfind, run_when]
  simp only [Bool.false_and]
  split <;> rfl

end

/-- R468: the source's message goes out, the source in service with its latches cleared. -/
theorem gathererDelivers_effect {s : State} (hs : keysRise s.regs) (g : Fin 32) (v n : Nat) (hn : n < 1024) (hd : (s.fn g).dState ≠ 3)
    (hl : s.ltssm = ltssmL0) (ha : s.vecAllowed g v = true) :
    let t := (Act.seq (stormCount n) (deliver g v n false)).run s
    t.out = s.out ++ [.msix g v] ∧ t.vecInService g v = true ∧ t.srcInService n = true ∧ inSet t.hw.gath.edge n = false ∧
      inSet t.hw.gath.soft n = false ∧ Counts (Reg.FUNC.DELIV_CNT g) 1 s t ∧ Counts (Reg.GATH.GDELIV_CNT (n / 256)) 1 s t ∧
      SameRegs [Reg.FUNC.DELIV_CNT g, Reg.GATH.GDELIV_CNT (n / 256), Reg.GATH.GATH_STATUS (n / 256)] s t ∧
      t.mem = s.mem ∧ t.es = s.es ∧ t.tsc = s.tsc := by
  obtain ⟨⟨i1, i2, i3⟩, ⟨hfns, hmsix⟩, hcount, hregs, hrest⟩ := take_effect hs g v n hn
  have hu : keysRise ((takeAct g v n).run s).regs := rise_run _ hs
  dsimp only
  rw [take_run]
  generalize (takeAct g v n).run s = u at *
  have hfn : u.fn g = s.fn g := by rw [State.fn, hfns]; rfl
  have hlink : u.ltssm = ltssmL0 := by
    rw [State.ltssm, State.fld, hregs Reg.HOST.LINK_STATUS (by
      simp only [List.map_cons, List.map_nil, List.mem_cons, List.not_mem_nil, or_false, RegRef.key, show Blk.GATH.slot = 0x20 from rfl,
        show Blk.HOST.slot = 0x24 from rfl]
      omega)]
    exact hl
  have hok : u.vecAllowed g v = true := by
    rw [State.vecAllowed, hfn, State.msixEntry, hmsix]
    exact ha
  rw [send_message (hfn ▸ hd) hlink hok]
  obtain ⟨e1, e2, e3, -, ⟨e5, e6, e7⟩, e8, e9, e10⟩ := message_effect hu g v
  have hdeliv : u.rd (Reg.FUNC.DELIV_CNT g) = s.rd (Reg.FUNC.DELIV_CNT g) := hregs.rd_off (by simp)
  have hgdeliv : ((Act.message g v).run u).rd (Reg.GATH.GDELIV_CNT (n / 256)) = u.rd (Reg.GATH.GDELIV_CNT (n / 256)) := e3.rd_off (by simp)
  refine ⟨e1.trans (congrArg (· ++ _) hrest.out), ?_, ?_, (congrArg (inSet · n) e6).trans i2, (congrArg (inSet · n) e7).trans i3, ?_, ?_,
    (hregs.mono (by simp)).trans (e3.mono (by simp)), e8.trans hrest.mem, e9.trans hrest.es, e10.trans hrest.tsc⟩
  · rw [State.vecInService, e5, i1]
    simp
  · rw [State.srcInService, e5, i1]
    simp
  · rw [Counts, ← hdeliv]
    exact e2
  · rw [Counts, hgdeliv]
    exact hcount

/-! ### Storms (R473) -/

/-- R473: a storm masks its source. -/
theorem stormTrip_effect {s : State} (hs : keysRise s.regs) (g : Fin 32) (n : Nat) (hn : n < 1024) :
    let t := (stormTrip g n).run s
    t.srcMasked n = true ∧ t.out = s.out ∧ t.hw.gath.insvc = s.hw.gath.insvc ∧ Counts (Reg.GATH.STORM_CNT (n / 256)) 1 s t ∧
      t.bit (Reg.FUNC.NOTICE 0) 0 = true ∧ t.mem = s.mem ∧ t.es = s.es ∧ t.tsc = s.tsc := by
  let m := (Act.orReg (Reg.GATH.SRC_MASK (n / 256) (n % 256 / 32)) (BitVec.ofNat 32 (2 ^ (n % 32)))).run s
  let w := (Act.seq (.orReg (Reg.GATH.SRC_STORM (n / 256) (n % 256 / 32)) (BitVec.ofNat 32 (2 ^ (n % 32))))
    (.wrN (Reg.GATH.STORM_LAST (n / 256)) n)).run m
  let c := (Act.bump (Reg.GATH.STORM_CNT (n / 256)) 1).run w
  let p := (Act.notice 0 0).run c
  have hrun : (stormTrip g n).run s = (Act.when ((g : Nat) != 0) (.notice g 0)).run p := rfl
  have hmask : m.srcMasked n = true := by
    have h := bit_orReg hs (r := Reg.GATH.SRC_MASK (n / 256) (n % 256 / 32)) (BitVec.ofNat 32 (2 ^ (n % 32))) (k := n % 32)
      (by rw [mask_srcMask ⟨n / 256, by omega⟩ ⟨n % 256 / 32, by omega⟩, show (0xFFFFFFFF : Word) = BitVec.allOnes 32 from rfl, BitVec.getLsbD_allOnes]
          simp; omega)
    rw [getLsbD_ofNat_two_pow] at h
    exact h.trans (by simp; omega)
  have hw : (Act.seq (.orReg (Reg.GATH.SRC_STORM (n / 256) (n % 256 / 32)) (BitVec.ofNat 32 (2 ^ (n % 32))))
    (.wrN (Reg.GATH.STORM_LAST (n / 256)) n)).Only (.regs [Reg.GATH.SRC_STORM (n / 256) (n % 256 / 32), Reg.GATH.STORM_LAST (n / 256)]) := by simp
  have hb : (Act.bump (Reg.GATH.STORM_CNT (n / 256)) 1).Only (.regs [Reg.GATH.STORM_CNT (n / 256)]) := by simp
  have hend : (Act.when ((g : Nat) != 0) (.notice g 0)).Only (.quiet [Reg.FUNC.NOTICE g]) :=
    (only_when _ _).2 fun _ => only_notice (by simp) (by simp)
  have hm : keysRise m.regs := rise_run _ hs
  have hc : keysRise c.regs := rise_run _ (rise_run _ hm)
  have hall : (stormTrip g n).Only (.quiet [Reg.GATH.SRC_MASK (n / 256) (n % 256 / 32), Reg.GATH.SRC_STORM (n / 256) (n % 256 / 32),
      Reg.GATH.STORM_LAST (n / 256), Reg.GATH.STORM_CNT (n / 256), Reg.FUNC.NOTICE 0, Reg.FUNC.NOTICE g]) := by
    refine ⟨?_, ?_, ?_, ?_, only_notice (by simp) (by simp), (only_when _ _).2 fun _ => only_notice (by simp) (by simp), trivial⟩ <;> simp
  have hquiet := hall.quiet s
  have hlast : SameRegs [Reg.FUNC.NOTICE g] p ((Act.when ((g : Nat) != 0) (.notice g 0)).run p) := (hend.quiet p).regs
  have hp : SameRegs [Reg.FUNC.NOTICE 0] c p := (quiet_notice c 0 0).regs
  refine ⟨?_, hquiet.out, hquiet.part (·.gath.insvc), ?_, ?_, hquiet.mem, hquiet.es, hquiet.tsc⟩
  · have hrd : ((stormTrip g n).run s).rd (Reg.GATH.SRC_MASK (n / 256) (n % 256 / 32)) = m.rd (Reg.GATH.SRC_MASK (n / 256) (n % 256 / 32)) := by
      rw [hrun]
      refine (hlast.rd_off (by simp; omega)).trans ((hp.rd_off (by simp; omega)).trans (((hb.frame w).1.rd_off (by simp; omega)).trans
        ((hw.frame m).1.rd_off (by simp; omega))))
    exact (congrArg (BitVec.getLsbD · (n % 32)) hrd).trans hmask
  · have hcount := counts_bump (s := w) (rise_run _ hm) (mask_gdeliv ⟨n / 256, by omega⟩).2 1
    have hbefore : w.rd (Reg.GATH.STORM_CNT (n / 256)) = s.rd (Reg.GATH.STORM_CNT (n / 256)) :=
      ((hw.frame m).1.rd_off (by simp; omega)).trans (rd_setReg_off (r := Reg.GATH.SRC_MASK (n / 256) (n % 256 / 32)) (by simp; omega))
    have hafter : ((stormTrip g n).run s).rd (Reg.GATH.STORM_CNT (n / 256)) = c.rd (Reg.GATH.STORM_CNT (n / 256)) := by
      rw [hrun]
      exact (hlast.rd_off (by simp)).trans (hp.rd_off (by simp))
    rw [Counts, hafter, ← hbefore]
    exact hcount
  · have hset : p.bit (Reg.FUNC.NOTICE 0) 0 = true := bit_notice (f := (0 : Fin 32)) hc (by decide) (.inl rfl)
    rw [hrun, run_when]
    split
    next hg =>
      exact (congrArg (BitVec.getLsbD · 0) ((quiet_notice p g 0).regs (Reg.FUNC.NOTICE 0) (by
        have h0 : (g : Nat) ≠ 0 := bne_iff_ne.1 hg
        simp [RegRef.key]
        omega))).trans hset
    · exact hset

/-! ### Timers (R473, R475) -/

theorem stormWindowExpiry_effect {s : State} {n t0 k : Nat} (h : s.storm n = some (t0, k)) :
    (t0 + s.fld (Reg.GATH.STORM_CFG (n / 256)) 31 16 * 1000 ≤ s.now → ((stormWindowExpiryAct n).run s).storm n = none ∧
      ((stormWindowExpiryAct n).run s).regs = s.regs ∧ SameRest s ((stormWindowExpiryAct n).run s)) ∧
    (s.now < t0 + s.fld (Reg.GATH.STORM_CFG (n / 256)) 31 16 * 1000 → (stormWindowExpiryAct n).run s = s) := by
  have hrun : (stormWindowExpiryAct n).run s = (Act.when (decide (t0 + s.fld (Reg.GATH.STORM_CFG (n / 256)) 31 16 * 1000 ≤ s.now))
      (.gath fun g => { g with storms := g.storms.filter fun x => x.1 != n })).run s := by
    rw [stormWindowExpiryAct, run_get, h]
  rw [hrun, run_when]
  refine ⟨fun hle => ?_, fun hlt => if_neg (by simpa using hlt)⟩
  rw [if_pos (decide_eq_true hle)]
  refine ⟨?_, rfl, rfl, rfl, rfl, rfl, rfl⟩
  have hnone : (s.hw.gath.storms.filter fun x => x.1 != n).find? (fun e => e.1 == n) = none :=
    List.find?_eq_none.2 fun x hx => by simpa using (List.mem_filter.1 hx).2
  exact congrArg (Option.map (·.2)) hnone

/-- R475: an undelivered event is pending once the channel's timer has expired. -/
theorem moderationTimer_effect {s : State} {f v : Nat} (ht : 0 < s.fld (Reg.FUNC.MOD_CFG f v) 23 8) (hc : 0 < (s.chan f v).1)
    (hnow : (s.chan f v).2 + s.fld (Reg.FUNC.MOD_CFG f v) 23 8 * 1000 ≤ s.now) :
    ((moderationTimerExpiryAct f v).run s).chanPending f v = true ∧ ((moderationTimerExpiryAct f v).run s).regs = s.regs ∧
      SameRest s ((moderationTimerExpiryAct f v).run s) := by
  have hpending (u : State) (hu : u.chan f v = s.chan f v) (he : u.hw.gath.expired.contains (64 * f + v) = true) : u.chanPending f v = true := by
    rw [State.chanPending, hu, he, Bool.or_true, Bool.and_true]
    exact decide_eq_true hc
  have hrun : (moderationTimerExpiryAct f v).run s =
      (Act.when (!s.hw.gath.expired.contains (64 * f + v)) (.gath fun g => { g with expired := g.expired ++ [64 * f + v] })).run s := by
    rw [moderationTimerExpiryAct, run_get]
    dsimp only
    rw [decide_eq_true ht, decide_eq_true hc, decide_eq_true hnow, Bool.true_and, Bool.true_and, Bool.true_and]
  rw [hrun, run_when]
  split
  · exact ⟨hpending _ rfl (by simp [Act.gath]), rfl, rfl, rfl, rfl, rfl, rfl⟩
  next h => exact ⟨hpending s rfl (by simpa using h), rfl, rfl, rfl, rfl, rfl, rfl⟩

/-! ### Held messages and the link (R477) -/

/-- A link in L1 returns to L0. -/
def wakeLink (b : Bool) : Act := .when b (.setFld Reg.HOST.LINK_STATUS 15 12 ltssmL0)

theorem heldMessage_effect {s : State} (hs : keysRise s.regs) (f : Fin 32) (v : Nat) (hheld : (f.val, v) ∈ s.hw.gath.heldMsg) :
    (s.mayRelease f v = true → ∀ t, t = (heldMessageReleaseAct f v).run s → t.out = s.out ++ [.msix f v] ∧ (f.val, v) ∉ t.hw.gath.heldMsg ∧
      Counts (Reg.FUNC.DELIV_CNT f) 1 s t ∧ SameRegs [Reg.FUNC.DELIV_CNT f, Reg.HOST.LINK_STATUS] s t ∧
      t.mem = s.mem ∧ t.es = s.es ∧ t.tsc = s.tsc) ∧
    (s.mayRelease f v = false → (heldMessageReleaseAct f v).run s = s) := by
  have hrun : (heldMessageReleaseAct f v).run s = (Act.when (s.mayRelease f v) (sendInD0 f v)).run s := by
    rw [heldMessageReleaseAct, run_get, List.contains_iff_mem.2 hheld, Bool.true_and]
  rw [hrun, run_when]
  refine ⟨fun h t ht => ?_, fun h => if_neg (by simp [h])⟩
  rw [if_pos h] at ht
  have hsend : (sendInD0 f v).run s = (Act.message f v).run ((wakeLink (s.ltssm == ltssmL1)).run s) := rfl
  have hlink : (wakeLink (s.ltssm == ltssmL1)).Only (.regs [Reg.HOST.LINK_STATUS]) := (only_when _ _).2 fun _ => (only_setFld _ _ _ _).2 (by simp)
  obtain ⟨hregs, hrest⟩ := hlink.frame s
  have hu : keysRise ((wakeLink (s.ltssm == ltssmL1)).run s).regs := rise_run _ hs
  rw [hsend] at ht
  generalize (wakeLink (s.ltssm == ltssmL1)).run s = u at *
  obtain ⟨e1, e2, e3, e4, -, e5, e6, e7⟩ := message_effect hu f v
  subst ht
  refine ⟨e1.trans (congrArg (· ++ _) hrest.out), e4, ?_, (hregs.mono (by simp)).trans (e3.mono (by simp)), e5.trans hrest.mem, e6.trans hrest.es,
    e7.trans hrest.tsc⟩
  rw [Counts, ← hregs.rd_off (r := Reg.FUNC.DELIV_CNT f) (by simp)]
  exact e2

/-- R477: WAKE_N is released, and every function that waits sends PM_PME. -/
def releaseWake (waiting : List Nat) : Act := .all
  [.gath fun g => { g with wakeN := false }, .out (.pin "WAKE_N" true),
   .each waiting fun f => .seq (.out (.pmPme f)) (.fn f fun x => { x with pmeStatus := true })]

theorem linkReachesL0_effect {s : State} (hs : keysRise s.regs) :
    let t := linkReachesL0Act.run s
    t.ltssm = ltssmL0 ∧ t.hw.gath.wakeN = false ∧ (s.hw.gath.wakeN = false → t.out = s.out) ∧ SameRegs [Reg.HOST.LINK_STATUS] s t ∧
      t.mem = s.mem ∧ t.es = s.es ∧ t.tsc = s.tsc := by
  let u := (Act.setFld Reg.HOST.LINK_STATUS 15 12 ltssmL0).run s
  obtain ⟨waiting, hrun⟩ : ∃ l, linkReachesL0Act.run s = (Act.when s.hw.gath.wakeN (releaseWake l)).run u := ⟨_, rfl⟩
  have heach : ∀ l : List Nat, (Act.each l fun f => .seq (.out (.pmPme f)) (.fn f fun x => { x with pmeStatus := true })).Only
      { out := True, hw := fun f => ∀ h : Hw, (f h).gath.wakeN = h.gath.wakeN } := fun l => (only_each _ _).2 fun f _ => ⟨trivial, fun _ => rfl⟩
  have honly : (Act.when s.hw.gath.wakeN (releaseWake waiting)).Only { out := True } :=
    (only_when _ _).2 fun _ => ⟨trivial, trivial, (heach waiting).weaken (fun _ h => h) (fun _ _ => trivial) (out := fun h => h), trivial⟩
  obtain ⟨hregs, hrest⟩ := (show (Act.setFld Reg.HOST.LINK_STATUS 15 12 ltssmL0).Only (.regs [Reg.HOST.LINK_STATUS]) by simp).frame s
  have hend : SameRegs [] u ((Act.when s.hw.gath.wakeN (releaseWake waiting)).run u) := honly.sameRegs id (fun _ h => h.elim) u
  have hlink : u.ltssm = ltssmL0 := (fld_setFld_same hs Reg.HOST.LINK_STATUS ltssmL0 (by decide) mask_hostLink).trans rfl
  dsimp only
  rw [hrun]
  refine ⟨?_, ?_, fun hw => ?_, hregs.trans (hend.mono (by simp)), (honly.mem id u).trans hrest.mem, (honly.es id u).trans hrest.es,
    (honly.tsc id u).trans hrest.tsc⟩
  · rw [State.ltssm, State.fld, hend Reg.HOST.LINK_STATUS (by simp)]
    exact hlink
  · rw [run_when]
    split
    · exact (heach waiting).hw (·.gath.wakeN) (fun _ h => h) _
    next h => exact (show s.hw.gath.wakeN = false by simpa using h)
  · rw [hw]
    exact hrest.out

/-- Settles O42: the gatherer's selections, its timers, messages held and released. -/
theorem gathererDelivers : Obligations.GathererDelivers := by
  unfold Obligations.GathererDelivers
  refine ⟨fun s g vec n hl hidle hen hch hfind => ⟨fun htrip hd hlink ha => ⟨_, simply_eq hl.2, ?_⟩, fun htrip => ⟨_, simply_eq hl.2, ?_⟩⟩,
    fun s g vec hl hch hfind => ?_, fun s src t0 k hl h => ⟨fun hle => ⟨_, simply_eq hl.2, (stormWindowExpiry_effect h).1 hle⟩, fun hlt => ?_⟩,
    fun s g vec hl ht hc hnow => ⟨_, simply_eq hl.2, moderationTimer_effect ht hc hnow⟩,
    fun s g vec hl hheld => ⟨fun h => ⟨_, simply_eq hl.2, (heldMessage_effect hl.1.1.1 g _ hheld).1 h _ rfl⟩, fun h => ?_⟩,
    fun s hl => ⟨_, simply_eq hl.2, linkReachesL0_effect hl.1.1.1⟩⟩
  · rw [gathererSelect_run hidle hen hch hfind, if_neg (by simp [htrip])]
    exact gathererDelivers_effect hl.1.1.1 g _ n (List.mem_range.1 (List.mem_of_find?_eq_some hfind)) hd hlink ha
  · rw [gathererSelect_run hidle hen hch hfind, if_pos htrip]
    obtain ⟨e1, e2, e3, e4⟩ := stormTrip_effect hl.1.1.1 g n (List.mem_range.1 (List.mem_of_find?_eq_some hfind))
    refine ⟨e1, e2, ?_, e4⟩
    rw [State.vecInService, e3]
    exact hidle
  · exact (simply_eq hl.2).trans (congrArg _ (gathererSelect_none hch hfind))
  · exact (simply_eq hl.2).trans (congrArg _ ((stormWindowExpiry_effect h).2 hlt))
  · exact (simply_eq hl.2).trans (congrArg _ ((heldMessage_effect hl.1.1.1 g _ hheld).2 h))

end Sys2Proof.Machine

/-! ## Proofs: the core regulator (O51) -/

namespace Sys2Proof.Machine

-- One theorem after the other: elaborated side by side, they hold more threads than the memory limit of a check allows.
set_option Elab.async false

/-! ### What the registers hold -/

theorem mask_vrc : RegRef.mask Reg.VRC.VIN = 0xFFFF ∧ RegRef.mask Reg.VRC.VTARGET = 0x03FF03FF ∧ RegRef.mask Reg.VRC.VRC_STATUS = 0x017F03FF ∧
    RegRef.mask Reg.VRC.ILIM = 0x3FF ∧ RegRef.mask Reg.VRC.VRC_EVENTS = 0x1F := by decide +kernel
theorem mask_phases : RegRef.mask Reg.VRC.PHASE_EN = 0x03FFFFFF ∧ RegRef.mask Reg.VRC.PHASE_FAIL = 0x03FFFFFF ∧
    RegRef.mask Reg.VRC.SENSE_FAIL = 0x03FFFFFF := by decide +kernel
theorem mask_vrcCounts : RegRef.mask Reg.VRC.ILIM_CNT = 0xFFFFFFFF ∧ RegRef.mask Reg.VRC.DROOP_CNT = 0xFFFFFFFF ∧
    RegRef.mask Reg.VRC.STRETCH_CYC = 0xFFFFFFFF := by decide +kernel
theorem mask_pwrStatus : RegRef.mask Reg.PWR.PWR_STATUS = 0xF7F ∧ RegRef.mask Reg.PWR.RAIL_LOST = 0xF := by decide +kernel

/-- Registers alone change: block state and the rest stay. -/
def Scope.stores (l : List RegRef) : Scope := { reg := (· ∈ l), hw := fun _ => False }

section
variable (l : List RegRef)
@[simp] theorem stores_reg (r : RegRef) : (Scope.stores l).reg r ↔ r ∈ l := .rfl
@[simp] theorem stores_hw (f : Hw → Hw) : (Scope.stores l).hw f ↔ False := .rfl
@[simp] theorem stores_mem : (Scope.stores l).mem ↔ False := .rfl
@[simp] theorem stores_poison : (Scope.stores l).poison ↔ False := .rfl
@[simp] theorem stores_es : (Scope.stores l).es ↔ False := .rfl
@[simp] theorem stores_tsc : (Scope.stores l).tsc ↔ False := .rfl
@[simp] theorem stores_out : (Scope.stores l).out ↔ False := .rfl
end

theorem Act.Only.stores {l : List RegRef} {a : Act} (ha : a.Only (.stores l)) (s : State) :
    (a.run s).hw = s.hw ∧ SameRegs l s (a.run s) ∧ SameRest s (a.run s) :=
  ⟨ha.hw id (fun _ h => h.elim) s, ha.sameRegs id (fun _ h => h) s, ha.sameRest id id id id id s⟩

/-- A change of block state alone leaves the rest. -/
theorem rest_hw (f : Hw → Hw) (s : State) : SameRest s ((Act.hw f).run s) := ⟨rfl, rfl, rfl, rfl, rfl⟩

/-- A count is kept by what does not touch the counter before and after. -/
theorem Counts.around {r : RegRef} {n : Nat} {s a b t : State} (h : Counts r n a b) (ha : a.rd r = s.rd r) (hb : t.rd r = b.rd r) : Counts r n s t := by
  rw [Counts, hb, ← ha]; exact h

theorem rd_setFld_off {s : State} {r q : RegRef} {hi lo v : Nat} (h : r.off % 4096 ≠ q.off % 4096) :
    ((Act.setFld r hi lo v).run s).rd q = s.rd q := by
  rw [run_setFld]; exact rd_setReg_off h

/-! ### The target and the phases in service (R572, R574, R580) -/

theorem setTarget_effect {s : State} (hs : keysRise s.regs) (n : Nat) :
    let t := (setTarget n).run s
    t.hw = { s.hw with pwr := { s.hw.pwr with target := n } } ∧ t.fld Reg.VRC.VTARGET 9 0 = n / 10 % 1024 ∧
      SameRegs [Reg.VRC.VTARGET, Reg.VRC.VRC_STATUS] s t ∧ SameRest s t := by
  let u := (Act.pwr fun x => { x with target := n }).run s
  let store : Act := .seq (.wrN Reg.VRC.VTARGET (n / 10 + 65536 * (s.vFuse s.topCode / 10))) (.setFld Reg.VRC.VRC_STATUS 9 0 (n / 10))
  have hrun : (setTarget n).run s = store.run u := rfl
  have hstore : store.Only (.stores [Reg.VRC.VTARGET, Reg.VRC.VRC_STATUS]) := by simp [store]
  obtain ⟨h1, h2, h3⟩ := hstore.stores u
  dsimp only
  rw [hrun]
  refine ⟨h1, ?_, h2, (rest_hw _ s).trans h3⟩
  have hrd : (store.run u).rd Reg.VRC.VTARGET = BitVec.ofNat 32 (n / 10 + 65536 * (s.vFuse s.topCode / 10)) &&& RegRef.mask Reg.VRC.VTARGET :=
    (rd_setReg_off (r := Reg.VRC.VRC_STATUS) (by simp)).trans (rd_setReg_same (s := u) hs Reg.VRC.VTARGET _)
  rw [State.fld, hrd, bits_and_mask _ _ (by rw [mask_vrc.2.1]; decide)]
  simp only [bits, BitVec.toNat_ofNat, Nat.shiftRight_zero]
  omega

/-- The phases in service are read from PHASE_EN. -/
theorem phasesOn_of_rd {s t : State} (h : t.rd Reg.VRC.PHASE_EN = s.rd Reg.VRC.PHASE_EN) : t.phasesOn = s.phasesOn := by
  unfold State.phasesOn State.bit; rw [h]

theorem phasesSensed_of_rd {s t : State} (h : t.rd Reg.VRC.PHASE_EN = s.rd Reg.VRC.PHASE_EN) (h' : t.rd Reg.VRC.SENSE_FAIL = s.rd Reg.VRC.SENSE_FAIL) :
    t.phasesSensed = s.phasesSensed := by
  unfold State.phasesSensed State.bit; rw [phasesOn_of_rd h, h']

theorem phasesOn_le (s : State) : s.phasesOn.length ≤ 26 := (List.length_filter_le _ _).trans (by simp)

/-- The registers that follow PHASE_EN. -/
def phaseShown : List RegRef := [Reg.VRC.ILIM, Reg.VRC.VRC_STATUS, Reg.PWR.PWR_STATUS]

theorem only_phaseCounts {p : Scope} (h : ∀ r ∈ phaseShown, p.reg r) : phaseCounts.Only p := by
  simp only [phaseShown, List.mem_cons, List.not_mem_nil, or_false, forall_eq_or_imp, forall_eq] at h
  simp [phaseCounts, h]

theorem phaseCounts_effect {s : State} (hs : keysRise s.regs) :
    let t := phaseCounts.run s
    t.rd Reg.VRC.ILIM = BitVec.ofNat 32 (15 * s.phasesOn.length) ∧ t.fld Reg.VRC.VRC_STATUS 20 16 = s.phasesOn.length ∧
      t.bit Reg.PWR.PWR_STATUS 6 = s.senseDegraded ∧ t.hw = s.hw ∧ SameRegs phaseShown s t ∧ SameRest s t := by
  obtain ⟨h1, h2, h3⟩ := (only_phaseCounts (p := .stores phaseShown) fun _ h => h).stores s
  let a := (Act.wrN Reg.VRC.ILIM (15 * s.phasesOn.length)).run s
  let b := (Act.setFld Reg.VRC.VRC_STATUS 20 16 s.phasesOn.length).run a
  let c := (Act.setFld Reg.VRC.VRC_STATUS 22 21 s.sparePhases.length).run b
  have hrun : phaseCounts.run s = (Act.setFld Reg.PWR.PWR_STATUS 6 6 (b2n s.senseDegraded)).run c := rfl
  have ha : keysRise a.regs := rise_run _ hs
  have hb : keysRise b.regs := rise_run _ ha
  have hc : keysRise c.regs := rise_run _ hb
  have hle := phasesOn_le s
  refine ⟨?_, ?_, ?_, h1, h2, h3⟩
  · have hilim : a.rd Reg.VRC.ILIM = BitVec.ofNat 32 (15 * s.phasesOn.length) &&& RegRef.mask Reg.VRC.ILIM := rd_setReg_same hs _ _
    rw [hrun]
    refine (rd_setReg_off (r := Reg.PWR.PWR_STATUS) (by simp)).trans ((rd_setReg_off (r := Reg.VRC.VRC_STATUS) (by simp)).trans
      ((rd_setReg_off (r := Reg.VRC.VRC_STATUS) (by simp)).trans (hilim.trans ?_)))
    rw [mask_vrc.2.2.2.1]
    generalize s.phasesOn.length = k at hle
    interval_cases k <;> rfl
  · have hfld : b.fld Reg.VRC.VRC_STATUS 20 16 = s.phasesOn.length := by
      refine (fld_setFld_same ha _ _ (by decide) (by rw [mask_vrc.2.2.1]; decide)).trans (Nat.mod_eq_of_lt (by omega))
    have hkeep : c.fld Reg.VRC.VRC_STATUS 20 16 = b.fld Reg.VRC.VRC_STATUS 20 16 := keeps_fld_setFld (.inl (by decide)) (by rw [mask_vrc.2.2.1]; decide) b hb
    rw [hrun, State.fld, show ((Act.setFld Reg.PWR.PWR_STATUS 6 6 (b2n s.senseDegraded)).run c).rd Reg.VRC.VRC_STATUS = c.rd Reg.VRC.VRC_STATUS from
      rd_setReg_ne (r := Reg.PWR.PWR_STATUS) _ (by decide)]
    exact hkeep.trans hfld
  · rw [hrun, bit_setFld hc (by rw [mask_pwrStatus.1]; decide)]
    cases s.senseDegraded <;> rfl

/-! ### VDD_CORE starts, a rail is lost (R569 to R571) -/

/-- What the start of VDD_CORE does once VIN_VR is recorded. -/
def coreStarts : Act := .all
  [.pwr fun x => { x with coreOn := true }, setTarget 7500, phaseCounts, .wrN Reg.CLK.CLK_STATUS 0x71FFF, .event .coreUp]

/-- The straps are sampled while VDD_CORE is off. -/
def strapsSampled (straps : Nat) : Act := .get fun t => .when (!t.hw.pwr.coreOn) (.boot fun b => { b with straps := straps })

/-- The straps sampled and VIN_VR recorded, before the regulator is judged. -/
def vinSeen (vin : BitVec 16) (straps : Nat) (s : State) : State := (Act.wrN Reg.VRC.VIN vin.toNat).run ((strapsSampled straps).run s)

theorem vinSeen_effect {s : State} (hs : keysRise s.regs) (vin : BitVec 16) (straps : Nat) :
    (vinSeen vin straps s).rd Reg.VRC.VIN = vin.setWidth 32 ∧ keysRise (vinSeen vin straps s).regs ∧ (vinSeen vin straps s).hw.pwr = s.hw.pwr ∧
      (s.hw.pwr.coreOn = false → (vinSeen vin straps s).hw.boot.straps = straps) ∧
      SameRegs [Reg.VRC.VIN] s (vinSeen vin straps s) ∧ SameRest s (vinSeen vin straps s) := by
  have honly : (strapsSampled straps).Only { hw := fun f => ∀ h : Hw, (f h).pwr = h.pwr } := by
    simp only [strapsSampled, only_get, only_when, only_boot, implies_true]
  have hregs := honly.regs_eq (fun _ h => h) (fun h => h) s
  have hrest := honly.sameRest id id id id id s
  have hset : s.hw.pwr.coreOn = false → ((strapsSampled straps).run s).hw.boot.straps = straps := fun h => by
    rw [strapsSampled, run_get, run_when, if_pos (by rw [h]; rfl)]
    rfl
  have hpwr := honly.hw (·.pwr) (fun _ h => h) s
  unfold vinSeen
  generalize (strapsSampled straps).run s = u at *
  obtain ⟨h1, h2⟩ := (show (Act.wrN Reg.VRC.VIN vin.toNat).Only (.regs [Reg.VRC.VIN]) by simp).frame u
  refine ⟨?_, rise_run _ (hregs ▸ hs), hpwr, hset, fun r hr => (h1 r hr).trans (rd_of_regs hregs r), hrest.trans h2⟩
  refine (rd_setReg_same (hregs ▸ hs) _ _).trans ?_
  rw [mask_vrc.1]
  apply BitVec.eq_of_toNat_eq
  have hlt := vin.isLt
  rw [show (0xFFFF : Word) = (BitVec.allOnes 16).setWidth 32 from rfl, show BitVec.ofNat 32 vin.toNat = vin.setWidth 32 from
    BitVec.eq_of_toNat_eq (by simp), ← BitVec.setWidth_and, BitVec.and_allOnes]

/-- What VDD_CORE's start writes. -/
def coreStartRegs : List RegRef := [Reg.VRC.VTARGET, Reg.VRC.VRC_STATUS, Reg.VRC.ILIM, Reg.CLK.CLK_STATUS, Reg.PWR.PWR_STATUS]

theorem coreStarts_effect {s : State} (hs : keysRise s.regs) :
    let t := coreStarts.run s
    t.hw.pwr.coreOn = true ∧ t.hw.pwr.target = 7500 ∧ t.hw.boot = s.hw.boot ∧ t.fld Reg.VRC.VTARGET 9 0 = 750 ∧
      SameRegs coreStartRegs s t ∧ SameRest s t := by
  let a := (Act.pwr fun x => { x with coreOn := true }).run s
  let b := (setTarget 7500).run a
  let fin : Act := .all [phaseCounts, .wrN Reg.CLK.CLK_STATUS 0x71FFF, .event .coreUp]
  obtain ⟨h1, h2, h3, h4⟩ := setTarget_effect (s := a) hs 7500
  have hfin : fin.Only { reg := (· ∈ coreStartRegs), hw := fun f => ∀ h : Hw, (f h).pwr = h.pwr ∧ (f h).boot = h.boot } :=
    ⟨only_phaseCounts (by simp [phaseShown, coreStartRegs]), by simp [coreStartRegs], fun _ => ⟨rfl, rfl⟩, trivial⟩
  have hshown : fin.Only { reg := (· ∈ [Reg.VRC.VRC_STATUS, Reg.VRC.ILIM, Reg.CLK.CLK_STATUS, Reg.PWR.PWR_STATUS]) } :=
    ⟨only_phaseCounts (by simp [phaseShown]), by simp, trivial, trivial⟩
  have hrun : coreStarts.run s = fin.run b := rfl
  dsimp only
  rw [hrun]
  have hb : b.hw = { a.hw with pwr := { a.hw.pwr with target := 7500 } } := h1
  refine ⟨?_, ?_, ?_, ?_, ?_, ((rest_hw _ s).trans h4).trans (hfin.sameRest id id id id id b)⟩
  · rw [hfin.hw (·.pwr) (fun _ h x => (h x).1), hb]
    rfl
  · rw [hfin.hw (·.pwr) (fun _ h x => (h x).1), hb]
  · rw [hfin.hw (·.boot) (fun _ h x => (h x).2), hb]
    rfl
  · rw [State.fld, hshown.rd id (fun r hr hk => absurd hk (by revert r; decide))]
    exact h2
  · exact (show SameRegs coreStartRegs s b from h3.mono (by simp [coreStartRegs])).trans (hfin.sameRegs id (fun _ h => h) b)

theorem corePower_run (railsOk : Bool) (vin : BitVec 16) (straps : Nat) (s : State) :
    (Act.get fun t => .seq (.when (!t.hw.pwr.coreOn) (.boot fun b => { b with straps := straps })) (corePowerAct railsOk vin.toNat)).run s =
      (if !decide (10800 ≤ vin.toNat ∧ vin.toNat ≤ 13200) then vrcRaise 6
       else .when (railsOk && !((strapsSampled straps).run s).hw.pwr.coreOn && !((strapsSampled straps).run s).hw.boot.thermal &&
         ((strapsSampled straps).run s).fld Reg.PWR.PWR_STATUS 2 0 != 3) coreStarts).run (vinSeen vin straps s) := rfl

/-- The straps aside, sampling them changes nothing. -/
theorem strapsSampled_keeps (straps : Nat) (s : State) : ((strapsSampled straps).run s).hw.pwr = s.hw.pwr ∧
    ((strapsSampled straps).run s).hw.boot.thermal = s.hw.boot.thermal ∧
    ((strapsSampled straps).run s).fld Reg.PWR.PWR_STATUS 2 0 = s.fld Reg.PWR.PWR_STATUS 2 0 := by
  rw [strapsSampled, run_get, run_when]
  split <;> exact ⟨rfl, rfl, rfl⟩

theorem railLost_effect {s : State} (hs : keysRise s.regs) (rail : BitVec 4) :
    (s.hw.pwr.coreOn = true → let t := (railLostAct rail.toNat).run s
      t.rd Reg.PWR.RAIL_LOST = rail.setWidth 32 ∧ t.hw = { s.hw with events := s.hw.events ++ [.railLost] } ∧
      SameRegs [Reg.PWR.RAIL_LOST] s t ∧ SameRest s t) ∧
    (s.hw.pwr.coreOn = false → (railLostAct rail.toNat).run s = s) := by
  rw [railLostAct, run_get, run_when]
  refine ⟨fun h => ?_, fun h => by rw [h]; rfl⟩
  rw [if_pos h]
  obtain ⟨h1, h2⟩ := (show (Act.seq (.wrN Reg.PWR.RAIL_LOST rail.toNat) (.event .railLost)).Only (.regs [Reg.PWR.RAIL_LOST]) by simp).frame s
  refine ⟨(rd_setReg_same hs _ _).trans ?_, rfl, h1, h2⟩
  rw [mask_pwrStatus.2]
  clear h1 h2
  revert rail
  decide

/-! ### ILIM (R573) -/

theorem ilimReached_effect {s : State} (hs : keysRise s.regs) (h : s.bit Reg.VRC.VRC_STATUS 24 = false) :
    let t := ilimReachedAct.run s
    t.bit Reg.VRC.VRC_STATUS 24 = true ∧ Counts Reg.VRC.ILIM_CNT 1 s t ∧ t.pend .VRC 0 4 = true ∧
      Quiet ([Reg.VRC.VRC_STATUS, Reg.VRC.ILIM_CNT] ++ irqOf .VRC 0) s t := by
  let a := (Act.setFld Reg.VRC.VRC_STATUS 24 24 1).run s
  let b := (Act.bump Reg.VRC.ILIM_CNT 1).run a
  have hrun : ilimReachedAct.run s = (vrcRaise 4).run b := by
    rw [ilimReachedAct, run_get, run_when, h, if_pos (by rfl)]
    rfl
  have hq : ilimReachedAct.Only (.quiet ([Reg.VRC.VRC_STATUS, Reg.VRC.ILIM_CNT] ++ irqOf .VRC 0)) := by
    simp only [ilimReachedAct, only_get, only_when]
    exact fun s _ => ⟨by simp, by simp, only_raise (by simp [irqOf]) (by simp [irqOf]) (by simp), trivial⟩
  have ha : keysRise a.regs := rise_run _ hs
  refine ⟨?_, ?_, ?_, hq.quiet s⟩
  · rw [hrun]
    refine (congrArg (BitVec.getLsbD · 24) ((rd_raise_off (q := Reg.VRC.VRC_STATUS) (by simp) (by simp)).trans (rd_bump_off (by simp)))).trans ?_
    exact (bit_setFld hs (by rw [mask_vrc.2.2.1]; decide)).trans rfl
  · rw [hrun]
    exact (counts_bump ha mask_vrcCounts.1 1).around (rd_setReg_off (r := Reg.VRC.VRC_STATUS) (by simp)) (rd_raise_off (by simp) (by simp))
  · rw [hrun]
    exact bit_raise (rise_run _ ha) (by decide) (by decide)

theorem ilimRelease_effect {s : State} (hs : keysRise s.regs) :
    (ilimReleaseAct.run s).bit Reg.VRC.VRC_STATUS 24 = false ∧ Quiet [Reg.VRC.VRC_STATUS] s (ilimReleaseAct.run s) :=
  ⟨(bit_setFld hs (by rw [mask_vrc.2.2.1]; decide)).trans rfl, Act.Only.quiet (by simp [ilimReleaseAct]) s⟩

/-! ### The target follows the slack (R574 to R576) -/

theorem avsStep_off {s : State} (slack : Int) (above : Bool) (h : s.bit Reg.VRC.VRC_CTRL 0 = false) :
    (avsStepAct slack above).run s = (setTarget (s.vFuse s.topCode)).run s := by
  rw [avsStepAct, run_get]
  dsimp only
  rw [if_pos (by rw [h]; rfl)]

/-- The end of the range is reported, and a lower clock asked for (R576). -/
def targetAtEnd (slow : Act) : Act := .all [vrcRaise 7, vrcEvent 4, slow]

theorem avsStep_on {s : State} (slack : Int) (above : Bool) (h : s.bit Reg.VRC.VRC_CTRL 0 = true) :
    ∃ slow : Act, slow.Only { hw := fun f => ∀ h : Hw, (f h).pwr.target = h.pwr.target } ∧
      (avsStepAct slack above).run s =
        (Act.when (decide (slack < (s.fld Reg.VRC.VRC_CTRL 15 8 : Int)) && decide (8500 < s.hw.pwr.target + 25)) (targetAtEnd slow)).run
          ((setTarget (max (max (s.vFuse s.topCode - 750) 6000) (min (min (s.vFuse s.topCode + 250) 8500)
            (if decide (slack < (s.fld Reg.VRC.VRC_CTRL 15 8 : Int)) then s.hw.pwr.target + 25
             else if above then s.hw.pwr.target - 25 else s.hw.pwr.target)))).run s) := by
  rw [avsStepAct, run_get]
  dsimp only
  rw [if_neg (by rw [h]; decide)]
  refine ⟨_, ?_, rfl⟩
  split
  · simp [wantStripe]
  · trivial

theorem avsStep_effect {s : State} (hs : keysRise s.regs) (slack : Int) (above : Bool) :
    let v := s.vFuse s.topCode
    let now := s.hw.pwr.target
    let low : Bool := decide (slack < (s.fld Reg.VRC.VRC_CTRL 15 8 : Int))
    let want := if low then now + 25 else if above then now - 25 else now
    let t := (avsStepAct slack above).run s
    (s.bit Reg.VRC.VRC_CTRL 0 = false → t.hw.pwr.target = v) ∧
      (s.bit Reg.VRC.VRC_CTRL 0 = true → t.hw.pwr.target = max (max (v - 750) 6000) (min (min (v + 250) 8500) want) ∧
        (low = true → 8500 < now + 25 → t.pend .VRC 0 7 = true ∧ t.bit Reg.VRC.VRC_EVENTS 4 = true)) ∧
      SameRegs ([Reg.VRC.VTARGET, Reg.VRC.VRC_STATUS, Reg.VRC.VRC_EVENTS] ++ irqOf .VRC 0) s t ∧ SameRest s t := by
  intro v now low want t
  by_cases h : s.bit Reg.VRC.VRC_CTRL 0 = true
  · obtain ⟨slow, hslow, hrun⟩ := avsStep_on slack above h
    obtain ⟨h1, -, h3, h4⟩ := setTarget_effect hs (max (max (v - 750) 6000) (min (min (v + 250) 8500) want))
    have hu : keysRise ((setTarget (max (max (v - 750) 6000) (min (min (v + 250) 8500) want))).run s).regs := rise_run _ hs
    have ht : t = (Act.when (low && decide (8500 < now + 25)) (targetAtEnd slow)).run
      ((setTarget (max (max (v - 750) 6000) (min (min (v + 250) 8500) want))).run s) := hrun
    clear_value t
    generalize (setTarget (max (max (v - 750) 6000) (min (min (v + 250) 8500) want))).run s = u at *
    have hend : (Act.when (low && decide (8500 < now + 25)) (targetAtEnd slow)).Only
        { reg := (· ∈ Reg.VRC.VRC_EVENTS :: irqOf .VRC 0), hw := fun f => ∀ h : Hw, (f h).pwr.target = h.pwr.target } :=
      (only_when _ _).2 fun _ => ⟨only_raise (by simp [irqOf]) (by simp [irqOf]) fun _ _ => rfl, (only_orReg _ _).2 (by simp),
        hslow.weaken (fun _ h => h.elim) fun _ h => h, trivial⟩
    refine ⟨fun h' => absurd h (by simp [h']), fun _ => ⟨?_, fun hlow hhigh => ?_⟩, ?_, ?_⟩
    · rw [ht, hend.hw (·.pwr.target) (fun _ h => h), h1]
    · have hraised := bit_raise (s := u) hu (b := .VRC) (i := 0) (k := 7) (by decide) (by decide)
      let p := (vrcRaise 7).run u
      let q := (vrcEvent 4).run p
      have hq : t = slow.run q := by
        rw [ht, run_when, hlow, decide_eq_true hhigh]
        rfl
      have hp : keysRise p.regs := rise_run _ hu
      have hkeep : ∀ r, (slow.run q).rd r = q.rd r := rd_of_regs (hslow.regs_eq (fun _ h => h) (fun h => h) q)
      rw [hq]
      refine ⟨(congrArg (BitVec.getLsbD · 7) ((hkeep _).trans (rd_setReg_off (r := Reg.VRC.VRC_EVENTS) (by simp)))).trans hraised, ?_⟩
      refine (congrArg (BitVec.getLsbD · 4) (hkeep _)).trans ((bit_orReg hp _ (by rw [mask_vrc.2.2.2.2]; decide)).trans ?_)
      rw [show (BitVec.ofNat 32 (2 ^ 4)).getLsbD 4 = true by decide, Bool.or_true]
    · rw [ht]
      exact (h3.mono (by simp)).trans ((hend.sameRegs id (fun _ h => h) u).mono (by simp [irqOf]))
    · rw [ht]
      exact h4.trans (hend.sameRest id id id id id u)
  · have h0 : s.bit Reg.VRC.VRC_CTRL 0 = false := by simpa using h
    have ht : t = (setTarget v).run s := avsStep_off slack above h0
    obtain ⟨h1, -, h3, h4⟩ := setTarget_effect hs v
    rw [ht]
    exact ⟨fun _ => congrArg (·.pwr.target) h1, fun h' => absurd h' h, h3.mono (by simp), h4⟩

/-! ### Phases and senses fail (R578 to R580) -/

theorem sparePhases_of_rd {s t : State} (h : t.rd Reg.VRC.PHASE_EN = s.rd Reg.VRC.PHASE_EN) (h' : t.rd Reg.VRC.PHASE_FAIL = s.rd Reg.VRC.PHASE_FAIL) :
    t.sparePhases = s.sparePhases := by
  unfold State.sparePhases State.bit; rw [h, h']

/-- The failed phases that wait for a spare (R578, R619). -/
def phaseFollowed (out : List Nat) (ph : Nat) : Act := .get fun t =>
  if out.length < t.sparePhases.length then .pwr fun x => { x with phaseOut := out ++ [ph] }
  else .all [vrcRaise 3, vrcEvent 3, .pwr fun x => { x with phaseOut := out }]

/-- A phase leaves service. -/
def phaseLost (ph : Nat) : Act := .seq (.setFld Reg.VRC.PHASE_EN ph ph 0) (.setFld Reg.VRC.PHASE_FAIL ph ph 1)

theorem phaseFailure_run {s : State} {ph : Nat} (h : s.bit Reg.VRC.PHASE_EN ph = true) : (phaseFailureAct ph).run s =
    (phaseFollowed (s.hw.pwr.phaseOut.filter (· != ph)) ph).run ((vrcEvent 0).run ((vrcRaise 0).run (phaseCounts.run ((phaseLost ph).run s)))) := by
  rw [phaseFailureAct, run_get, run_when, if_pos h]
  rfl

theorem mask_phaseBit {r : RegRef} (hr : r.mask = 0x03FFFFFF) (k : Fin 26) : r.mask.getLsbD k = true := by
  rw [hr]; revert k; decide

theorem phaseLost_effect {s : State} (hs : keysRise s.regs) (ph : Fin 26) (hon : s.bit Reg.VRC.PHASE_EN ph = true) :
    let t := (phaseLost ph).run s
    t.bit Reg.VRC.PHASE_EN ph = false ∧ t.bit Reg.VRC.PHASE_FAIL ph = true ∧ t.sparePhases = s.sparePhases ∧ t.hw = s.hw ∧
      SameRegs [Reg.VRC.PHASE_EN, Reg.VRC.PHASE_FAIL] s t ∧ SameRest s t := by
  have honly : (phaseLost ph).Only (.stores [Reg.VRC.PHASE_EN, Reg.VRC.PHASE_FAIL]) := by simp [phaseLost]
  obtain ⟨h1, h2, h3⟩ := honly.stores s
  have hgone := bit_setFld hs (v := 0) (mask_phaseBit mask_phases.1 ph)
  have hkept (k : Fin 26) (hk : k ≠ ph) := keeps_bit_setFld (v := 0) (hi := ph) (lo := ph) (k := k) (by omega) (mask_phaseBit mask_phases.1 k) s hs
  have hother (k : Fin 26) : ((Act.setFld Reg.VRC.PHASE_EN ph ph 0).run s).bit Reg.VRC.PHASE_FAIL k = s.bit Reg.VRC.PHASE_FAIL k :=
    congrArg (BitVec.getLsbD · k) (rd_setFld_off (by simp))
  have ha : keysRise ((Act.setFld Reg.VRC.PHASE_EN ph ph 0).run s).regs := rise_run _ hs
  rw [phaseLost, run_seq] at h1 h2 h3 ⊢
  generalize (Act.setFld Reg.VRC.PHASE_EN ph ph 0).run s = a at *
  have hen (k : Fin 26) : ((Act.setFld Reg.VRC.PHASE_FAIL ph ph 1).run a).bit Reg.VRC.PHASE_EN k = if k = ph then false else s.bit Reg.VRC.PHASE_EN k := by
    rw [show ((Act.setFld Reg.VRC.PHASE_FAIL ph ph 1).run a).bit Reg.VRC.PHASE_EN k = a.bit Reg.VRC.PHASE_EN k from
      congrArg (BitVec.getLsbD · k) (rd_setFld_off (by simp))]
    split
    next hk => rw [hk]; exact hgone
    next hk => exact hkept k hk
  have hfail (k : Fin 26) : ((Act.setFld Reg.VRC.PHASE_FAIL ph ph 1).run a).bit Reg.VRC.PHASE_FAIL k = if k = ph then true else s.bit Reg.VRC.PHASE_FAIL k := by
    split
    next hk => rw [hk]; exact (bit_setFld ha (mask_phaseBit mask_phases.2.1 ph)).trans rfl
    next hk => exact (keeps_bit_setFld (by omega) (mask_phaseBit mask_phases.2.1 k) a ha).trans (hother k)
  refine ⟨(hen ph).trans (if_pos rfl), (hfail ph).trans (if_pos rfl), List.filter_congr fun k hk => ?_, h1, h2, h3⟩
  have hlt : k < 26 := by simp only [List.mem_cons, List.not_mem_nil, or_false] at hk; omega
  obtain ⟨j, rfl⟩ : ∃ j : Fin 26, k = j := ⟨⟨k, hlt⟩, rfl⟩
  rw [hen, hfail]
  by_cases hj : j = ph
  · rw [if_pos hj, if_pos hj, hj, hon]
    rfl
  · rw [if_neg hj, if_neg hj]

/-- What is told of phases and senses. -/
def vrcTold : List RegRef := Reg.VRC.VRC_EVENTS :: irqOf .VRC 0

theorem only_vrcTold {p : Scope} (j k : Nat) (h : ∀ r ∈ vrcTold, p.reg r) (he : ∀ e, p.hw (Hw.setEdge e)) :
    (vrcRaise j).Only p ∧ (vrcEvent k).Only p :=
  ⟨only_raise (h _ (by simp [vrcTold, irqOf])) (h _ (by simp [vrcTold, irqOf])) he, (only_orReg _ _).2 (h _ (by simp [vrcTold]))⟩

/-- A source of the regulator raised and its event shown. -/
theorem vrcTell_effect {s : State} (hs : keysRise s.regs) {k : Nat} (hk : k < 5) :
    let t := (vrcEvent k).run ((vrcRaise k).run s)
    (∀ m < 8, m = k ∨ s.pend .VRC 0 m = true → t.pend .VRC 0 m = true) ∧
      (∀ m < 5, m = k ∨ s.bit Reg.VRC.VRC_EVENTS m = true → t.bit Reg.VRC.VRC_EVENTS m = true) ∧ Quiet vrcTold s t := by
  let u := (vrcRaise k).run s
  have hu : keysRise u.regs := rise_run _ hs
  have hq : (Act.seq (vrcRaise k) (vrcEvent k)).Only (.quiet vrcTold) := only_vrcTold k k (by simp) (by simp)
  refine ⟨fun m hm h => ?_, fun m hm h => ?_, hq.quiet s⟩
  · refine (congrArg (BitVec.getLsbD · m) (rd_setReg_off (r := Reg.VRC.VRC_EVENTS) (q := Reg.HDR.IRQ_PEND .VRC 0) (by simp))).trans ?_
    rcases h with rfl | h
    · exact bit_raise hs (by decide) (by omega)
    · exact bit_raise_mono hs (by decide) h
  · have hmask : (RegRef.mask Reg.VRC.VRC_EVENTS).getLsbD m = true := by rw [mask_vrc.2.2.2.2]; interval_cases m <;> rfl
    have hsame : u.bit Reg.VRC.VRC_EVENTS m = s.bit Reg.VRC.VRC_EVENTS m := congrArg (BitVec.getLsbD · m) (rd_raise_off (by simp) (by simp))
    refine (bit_orReg hu _ hmask).trans ?_
    rw [hsame, getLsbD_ofNat_two_pow]
    rcases h with rfl | h
    · simp [show m < 32 by omega]
    · rw [h, Bool.true_or]

theorem phaseFollowed_effect {s : State} (hs : keysRise s.regs) (out : List Nat) (ph : Nat) :
    let t := (phaseFollowed out ph).run s
    (∀ m < 8, s.pend .VRC 0 m = true → t.pend .VRC 0 m = true) ∧
      (∀ m < 5, s.bit Reg.VRC.VRC_EVENTS m = true → t.bit Reg.VRC.VRC_EVENTS m = true) ∧
      (out.length < s.sparePhases.length → t.hw.pwr.phaseOut = out ++ [ph]) ∧
      (s.sparePhases.length ≤ out.length → t.pend .VRC 0 3 = true ∧ t.hw.pwr.phaseOut = out) ∧ SameRegs vrcTold s t ∧ SameRest s t := by
  dsimp only
  rw [phaseFollowed, run_get]
  by_cases h : out.length < s.sparePhases.length
  · rw [if_pos h]
    exact ⟨fun _ _ h => h, fun _ _ h => h, fun _ => rfl, fun h' => absurd h (by omega), fun _ _ => rfl, rest_hw _ s⟩
  · rw [if_neg h]
    obtain ⟨h1, h2, h3⟩ := vrcTell_effect hs (k := 3) (by decide)
    exact ⟨fun m hm h => h1 m hm (.inr h), fun m hm h => h2 m hm (.inr h), fun h' => absurd h' h, fun _ => ⟨h1 3 (by decide) (.inl rfl), rfl⟩,
      h3.regs, h3.toSameRest.trans (rest_hw (fun h => { h with pwr := { h.pwr with phaseOut := out } }) _)⟩

theorem phaseFailure_effect {s : State} (hs : keysRise s.regs) (ph : Fin 26) (hon : s.bit Reg.VRC.PHASE_EN ph = true) :
    let t := (phaseFailureAct ph).run s
    t.bit Reg.VRC.PHASE_EN ph = false ∧ t.bit Reg.VRC.PHASE_FAIL ph = true ∧
      t.rd Reg.VRC.ILIM = BitVec.ofNat 32 (15 * t.phasesOn.length) ∧ t.fld Reg.VRC.VRC_STATUS 20 16 = t.phasesOn.length ∧
      t.pend .VRC 0 0 = true ∧ t.bit Reg.VRC.VRC_EVENTS 0 = true ∧
      (t.phasesSensed.length < 12 → t.bit Reg.PWR.PWR_STATUS 6 = true) ∧
      (let out := s.hw.pwr.phaseOut.filter (· != ph.val)
       (out.length < s.sparePhases.length → t.hw.pwr.phaseOut = out ++ [ph.val]) ∧
       (s.sparePhases.length ≤ out.length → t.pend .VRC 0 3 = true ∧ t.hw.pwr.phaseOut = out)) ∧
      SameRegs ([Reg.VRC.PHASE_EN, Reg.VRC.PHASE_FAIL, Reg.VRC.ILIM, Reg.VRC.VRC_STATUS, Reg.VRC.VRC_EVENTS, Reg.PWR.PWR_STATUS] ++
        irqOf .VRC 0) s t ∧ SameRest s t := by
  dsimp only
  rw [phaseFailure_run hon]
  obtain ⟨a1, a2, a3, -, a5, a6⟩ := phaseLost_effect hs ph hon
  have ha : keysRise ((phaseLost ph).run s).regs := rise_run _ hs
  generalize (phaseLost ph).run s = a at *
  obtain ⟨b1, b2, b3, -, b5, b6⟩ := phaseCounts_effect ha
  have hb : keysRise (phaseCounts.run a).regs := rise_run _ ha
  generalize phaseCounts.run a = b at *
  obtain ⟨c1, c2, c3⟩ := vrcTell_effect hb (k := 0) (by decide)
  have hc : keysRise ((vrcEvent 0).run ((vrcRaise 0).run b)).regs := rise_run _ (rise_run _ hb)
  generalize (vrcEvent 0).run ((vrcRaise 0).run b) = c at *
  obtain ⟨t1, t2, t3, t4, t5, t6⟩ := phaseFollowed_effect hc (s.hw.pwr.phaseOut.filter (· != ph.val)) ph
  generalize (phaseFollowed (s.hw.pwr.phaseOut.filter (· != ph.val)) ph).run c = t at *
  have hbt : SameRegs vrcTold b t := (c3.regs.trans t5).mono (by simp)
  have hat : SameRegs (phaseShown ++ vrcTold) a t := (b5.mono (by simp)).trans (hbt.mono (by simp))
  have hbit (r : RegRef) (hr : r.key ∉ (phaseShown ++ vrcTold).map RegRef.key) (k : Nat) : t.bit r k = a.bit r k := congrArg (BitVec.getLsbD · k) (hat r hr)
  have hen := hat Reg.VRC.PHASE_EN (by decide)
  have hsense := hat Reg.VRC.SENSE_FAIL (by decide)
  have hspare : c.sparePhases = s.sparePhases :=
    (sparePhases_of_rd ((c3.regs Reg.VRC.PHASE_EN (by decide)).trans (b5 _ (by decide))) ((c3.regs Reg.VRC.PHASE_FAIL (by decide)).trans (b5 _ (by decide)))).trans a3
  rw [phasesOn_of_rd hen, phasesSensed_of_rd hen hsense]
  refine ⟨(hbit _ (by decide) _).trans a1, (hbit _ (by decide) _).trans a2, (hbt _ (by decide)).trans b1, ?_, ?_, ?_, fun h => ?_,
    ⟨fun h => t3 (hspare ▸ h), fun h => t4 (hspare ▸ h)⟩, ?_, a6.trans (b6.trans (c3.toSameRest.trans t6))⟩
  · rw [State.fld, hbt Reg.VRC.VRC_STATUS (by decide)]
    exact b2
  · exact t1 0 (by decide) (c1 0 (by decide) (.inl rfl))
  · exact t2 0 (by decide) (c2 0 (by decide) (.inl rfl))
  · refine (congrArg (BitVec.getLsbD · 6) (hbt Reg.PWR.PWR_STATUS (by decide))).trans (b3.trans ?_)
    exact decide_eq_true h
  · exact (a5.mono (by simp)).trans (hat.mono (by simp [phaseShown, vrcTold, irqOf]))

theorem senseFailure_effect {s : State} (hs : keysRise s.regs) (ph : Fin 26) (hon : s.bit Reg.VRC.PHASE_EN ph = true)
    (hok : s.bit Reg.VRC.SENSE_FAIL ph = false) :
    let t := (senseFailureAct ph).run s
    t.bit Reg.VRC.SENSE_FAIL ph = true ∧ t.pend .VRC 0 1 = true ∧
      t.bit Reg.VRC.VRC_EVENTS 1 = true ∧ (t.phasesSensed.length < 12 → t.bit Reg.PWR.PWR_STATUS 6 = true) ∧
      Quiet ([Reg.VRC.SENSE_FAIL, Reg.VRC.VRC_EVENTS, Reg.PWR.PWR_STATUS] ++ irqOf .VRC 0) s t := by
  dsimp only
  have hq : (senseFailureAct ph).Only (.quiet ([Reg.VRC.SENSE_FAIL, Reg.VRC.VRC_EVENTS, Reg.PWR.PWR_STATUS] ++ irqOf .VRC 0)) := by
    simp only [senseFailureAct, only_get, only_when]
    intro s _
    obtain ⟨h1, h2⟩ := only_vrcTold (p := .quiet ([Reg.VRC.SENSE_FAIL, Reg.VRC.VRC_EVENTS, Reg.PWR.PWR_STATUS] ++ irqOf .VRC 0)) 1 1
      (by simp [vrcTold, irqOf]) (by simp)
    exact ⟨by simp, h1, h2, by simp, trivial⟩
  have hquiet := hq.quiet s
  have hrun : (senseFailureAct ph).run s = (Act.get fun t => .when t.senseDegraded (.setFld Reg.PWR.PWR_STATUS 6 6 1)).run
      ((vrcEvent 1).run ((vrcRaise 1).run ((Act.setFld Reg.VRC.SENSE_FAIL ph ph 1).run s))) := by
    rw [senseFailureAct, run_get, run_when, hon, hok, if_pos (by rfl)]
    rfl
  rw [hrun] at hquiet ⊢
  have hset := bit_setFld hs (v := 1) (mask_phaseBit mask_phases.2.2 ph)
  have ha : keysRise ((Act.setFld Reg.VRC.SENSE_FAIL ph ph 1).run s).regs := rise_run _ hs
  generalize (Act.setFld Reg.VRC.SENSE_FAIL ph ph 1).run s = a at *
  obtain ⟨c1, c2, c3⟩ := vrcTell_effect ha (k := 1) (by decide)
  have hc : keysRise ((vrcEvent 1).run ((vrcRaise 1).run a)).regs := rise_run _ (rise_run _ ha)
  generalize (vrcEvent 1).run ((vrcRaise 1).run a) = c at *
  have hct : SameRegs [Reg.PWR.PWR_STATUS] c ((Act.get fun t => .when t.senseDegraded (.setFld Reg.PWR.PWR_STATUS 6 6 1)).run c) :=
    Act.Only.sameRegs (p := .regs [Reg.PWR.PWR_STATUS]) (by simp) id (fun _ h => h) c
  refine ⟨?_, ?_, ?_, fun h => ?_, hquiet⟩
  · refine (congrArg (BitVec.getLsbD · ph) ((hct Reg.VRC.SENSE_FAIL (by decide)).trans (c3.regs _ (by decide)))).trans ?_
    exact hset.trans rfl
  · exact (congrArg (BitVec.getLsbD · 1) (hct (Reg.HDR.IRQ_PEND .VRC 0) (by decide))).trans (c1 1 (by decide) (.inl rfl))
  · exact (congrArg (BitVec.getLsbD · 1) (hct Reg.VRC.VRC_EVENTS (by decide))).trans (c2 1 (by decide) (.inl rfl))
  · rw [phasesSensed_of_rd (hct Reg.VRC.PHASE_EN (by decide)) (hct Reg.VRC.SENSE_FAIL (by decide))] at h
    rw [run_get, run_when, if_pos (show c.senseDegraded = true from decide_eq_true h)]
    exact (bit_setFld hc (by rw [mask_pwrStatus.1]; decide)).trans rfl

/-! ### A spare phase takes over (R578) -/

/-- The spare `q` in service, the phase `ph` out of it. -/
def phaseSwapped (l : List Nat) (ph q : Nat) : Act :=
  .seq (.pwr fun x => { x with phaseOut := l }) (.seq (.setFld Reg.VRC.PHASE_EN q q 1) (.setFld Reg.VRC.PHASE_EN ph ph 0))

theorem sparePhase_run {s : State} {ph q : Nat} {l : List Nat} (hout : s.hw.pwr.phaseOut = ph :: l) (hnext : s.nextPhase = some q) :
    sparePhaseAct.run s = (Act.event (.darn { kind := 6, inst := 0, unit := ph, cause := 0, spare := some q })).run
      ((vrcEvent 2).run ((vrcRaise 2).run (phaseCounts.run ((phaseSwapped l ph q).run s)))) := by
  rw [sparePhaseAct, run_get, hout, hnext]
  rfl

theorem nextPhase_lt {s : State} {q : Nat} (h : s.nextPhase = some q) : q < 26 := by
  have hq : q ∈ s.sparePhases := List.mem_of_head? h
  have hmem := (List.mem_filter.1 hq).1
  simp only [List.mem_cons, List.not_mem_nil, or_false] at hmem
  omega

theorem phaseSwapped_effect {s : State} (hs : keysRise s.regs) (l : List Nat) {ph q : Nat} (hq : q < 26) (hne : ph ≠ q) :
    let t := (phaseSwapped l ph q).run s
    t.bit Reg.VRC.PHASE_EN q = true ∧ t.bit Reg.VRC.PHASE_EN ph = false ∧ t.hw = { s.hw with pwr := { s.hw.pwr with phaseOut := l } } ∧
      SameRegs [Reg.VRC.PHASE_EN] s t ∧ SameRest s t := by
  have hframe := (show (phaseSwapped l ph q).Only (.regs [Reg.VRC.PHASE_EN]) by simp [phaseSwapped]).frame s
  have hset := bit_setFld (s := (Act.pwr fun x => { x with phaseOut := l }).run s) hs (v := 1) (mask_phaseBit mask_phases.1 ⟨q, hq⟩)
  have hb : keysRise ((Act.setFld Reg.VRC.PHASE_EN q q 1).run ((Act.pwr fun x => { x with phaseOut := l }).run s)).regs := rise_run _ hs
  have hrun : (phaseSwapped l ph q).run s =
      (Act.setFld Reg.VRC.PHASE_EN ph ph 0).run ((Act.setFld Reg.VRC.PHASE_EN q q 1).run ((Act.pwr fun x => { x with phaseOut := l }).run s)) := rfl
  refine ⟨?_, ?_, rfl, hframe⟩
  · rw [hrun]
    exact (keeps_bit_setFld (k := q) (by omega) (mask_phaseBit mask_phases.1 ⟨q, hq⟩) _ hb).trans (hset.trans rfl)
  · rw [hrun, run_setFld, State.bit, rd_setReg_same hb, BitVec.getLsbD_and, getLsbD_setBits]
    split
    · rw [Nat.zero_testBit, Bool.false_and]
    next h => rw [BitVec.getLsbD_of_ge _ _ (by omega), Bool.false_and]

theorem sparePhase_effect {s : State} (hs : keysRise s.regs) {ph q : Nat} {l : List Nat} (hout : s.hw.pwr.phaseOut = ph :: l)
    (hnext : s.nextPhase = some q) (hne : ph ≠ q) :
    let t := sparePhaseAct.run s
    t.bit Reg.VRC.PHASE_EN q = true ∧ t.bit Reg.VRC.PHASE_EN ph = false ∧
      t.rd Reg.VRC.ILIM = BitVec.ofNat 32 (15 * t.phasesOn.length) ∧ t.hw.pwr.phaseOut = l ∧ t.pend .VRC 0 2 = true ∧
      t.hw.events = s.hw.events ++ [.darn { kind := 6, inst := 0, unit := ph, cause := 0, spare := some q }] ∧
      SameRegs ([Reg.VRC.PHASE_EN, Reg.VRC.ILIM, Reg.VRC.VRC_STATUS, Reg.VRC.VRC_EVENTS, Reg.PWR.PWR_STATUS] ++ irqOf .VRC 0) s t ∧ SameRest s t := by
  dsimp only
  rw [sparePhase_run hout hnext]
  obtain ⟨a1, a2, a3, a4, a5⟩ := phaseSwapped_effect hs l (nextPhase_lt hnext) hne
  have ha : keysRise ((phaseSwapped l ph q).run s).regs := rise_run _ hs
  generalize (phaseSwapped l ph q).run s = a at *
  obtain ⟨b1, -, -, b4, b5, b6⟩ := phaseCounts_effect ha
  have hb : keysRise (phaseCounts.run a).regs := rise_run _ ha
  generalize phaseCounts.run a = b at *
  obtain ⟨c1, -, c3⟩ := vrcTell_effect hb (k := 2) (by decide)
  generalize (vrcEvent 2).run ((vrcRaise 2).run b) = c at *
  have hac : SameRegs (phaseShown ++ vrcTold) a c := (b5.mono (by simp)).trans (c3.regs.mono (by simp))
  have hen := hac Reg.VRC.PHASE_EN (by decide)
  have hbit (k : Nat) : c.bit Reg.VRC.PHASE_EN k = a.bit Reg.VRC.PHASE_EN k := congrArg (BitVec.getLsbD · k) hen
  have hhw {α : Type} (π : Hw → α) (h : ∀ (h : Hw) (e : BitVec 1024), π (Hw.setEdge e h) = π h) : π c.hw = π a.hw :=
    (c3.part π h).trans (congrArg π b4)
  refine ⟨(hbit q).trans a1, (hbit ph).trans a2, (c3.regs _ (by decide)).trans (b1.trans ?_), ?_, c1 2 (by decide) (.inl rfl), ?_,
    (a4.mono (by simp)).trans (hac.mono (by simp [phaseShown, vrcTold, irqOf])), a5.trans (b6.trans (c3.toSameRest.trans (rest_hw _ c)))⟩
  · exact congrArg (fun n => BitVec.ofNat 32 (15 * List.length n)) (phasesOn_of_rd hen).symm
  · exact (hhw (·.pwr.phaseOut) fun _ _ => rfl).trans (congrArg (·.pwr.phaseOut) a3)
  · have hev : c.hw.events = s.hw.events := (hhw (·.events) fun _ _ => rfl).trans (congrArg (·.events) a3)
    exact congrArg (· ++ _) hev

/-! ### Droops (R592) -/

theorem droop_effect {s : State} (hs : keysRise s.regs) (st : Fin 4) (mv : Nat) (hlen : s.hw.pwr.stretch.length = 4) :
    (s.fld Reg.VRC.DROOP_CFG 7 0 < mv → s.hw.pwr.stretch.getD st false = false → let t := (droopAct st mv).run s
      t.hw.pwr.stretch.getD st false = true ∧ Counts Reg.VRC.DROOP_CNT 1 s t ∧
        (63 ≤ (s.hw.pwr.droops.filter fun x => decide (s.now < x + 1000000000)).length → t.pend .VRC 0 5 = true) ∧
        SameRegs (Reg.VRC.DROOP_CNT :: irqOf .VRC 0) s t ∧ SameRest s t) ∧
    (mv ≤ s.fld Reg.VRC.DROOP_CFG 7 0 → (droopAct st mv).run s = s) := by
  rw [droopAct, run_get, run_when]
  refine ⟨fun h h' => ?_, fun h => if_neg (by simp; omega)⟩
  rw [if_pos (by rw [h', decide_eq_true h]; rfl)]
  dsimp only
  generalize hl : (s.now :: s.hw.pwr.droops.filter fun x => decide (s.now < x + 1000000000)).take 64 = l
  have hcount := counts_bump (s := (Act.pwr fun x =>
    { x with stretch := updAt (fun _ => true) st x.stretch, droops := if l.length = 64 then [] else l }).run s) hs mask_vrcCounts.2.1 1
  have hstretch : ((Act.pwr fun x =>
    { x with stretch := updAt (fun _ => true) st x.stretch, droops := if l.length = 64 then [] else l }).run s).hw.pwr.stretch.getD st false = true := by
    rw [Act.pwr, run_hw, mapHw_hw]
    dsimp only
    rw [getD_updAt, if_pos (by omega)]
  have hregs : ((Act.pwr fun x =>
    { x with stretch := updAt (fun _ => true) st x.stretch, droops := if l.length = 64 then [] else l }).run s).regs = s.regs := rfl
  have hrest : SameRest s ((Act.pwr fun x =>
    { x with stretch := updAt (fun _ => true) st x.stretch, droops := if l.length = 64 then [] else l }).run s) := rest_hw _ s
  rw [Act.all, run_seq]
  generalize (Act.pwr fun x => { x with stretch := updAt (fun _ => true) st x.stretch, droops := if l.length = 64 then [] else l }).run s = u at *
  have htell : (Act.all [.bump Reg.VRC.DROOP_CNT 1, .when (l.length == 64) (vrcRaise 5)]).Only (.quiet (Reg.VRC.DROOP_CNT :: irqOf .VRC 0)) :=
    ⟨by simp, (only_when _ _).2 fun _ => only_raise (by simp [irqOf]) (by simp [irqOf]) (by simp), trivial⟩
  obtain hq := htell.quiet u
  have hrun : (Act.all [.bump Reg.VRC.DROOP_CNT 1, .when (l.length == 64) (vrcRaise 5)]).run u =
    (Act.when (l.length == 64) (vrcRaise 5)).run ((Act.bump Reg.VRC.DROOP_CNT 1).run u) := rfl
  refine ⟨(congrArg (List.getD · st false) (hq.part (·.pwr.stretch))).trans hstretch, hcount.around (rd_of_regs hregs _) ?_, fun h63 => ?_, ?_,
    hrest.trans hq.toSameRest⟩
  · rw [hrun, run_when]
    split
    · exact rd_raise_off (by simp) (by simp)
    · rfl
  · have hl64 : l.length = 64 := by rw [← hl, List.length_take, List.length_cons]; omega
    rw [hrun, run_when, if_pos (by rw [hl64]; rfl)]
    exact bit_raise (rise_run _ (hregs ▸ hs)) (by decide) (by decide)
  · exact fun r hr => (hq.regs r hr).trans (rd_of_regs hregs r)

theorem stretchEnd_effect {s : State} (hs : keysRise s.regs) (st : Fin 4) (n : Nat) (hlen : s.hw.pwr.stretch.length = 4)
    (h : s.hw.pwr.stretch.getD st false = true) :
    let t := (stretchEndAct st n).run s
    t.hw.pwr.stretch.getD st false = false ∧ Counts Reg.VRC.STRETCH_CYC n s t ∧ SameRegs [Reg.VRC.STRETCH_CYC] s t ∧ SameRest s t := by
  rw [stretchEndAct, run_get, run_when, if_pos h, run_seq]
  have hstretch : ((Act.pwr fun x => { x with stretch := updAt (fun _ => false) st x.stretch }).run s).hw.pwr.stretch.getD st false = false := by
    rw [Act.pwr, run_hw, mapHw_hw]
    dsimp only
    rw [getD_updAt, if_pos (by omega)]
  have hregs : ((Act.pwr fun x => { x with stretch := updAt (fun _ => false) st x.stretch }).run s).regs = s.regs := rfl
  have hrest : SameRest s ((Act.pwr fun x => { x with stretch := updAt (fun _ => false) st x.stretch }).run s) := rest_hw _ s
  generalize (Act.pwr fun x => { x with stretch := updAt (fun _ => false) st x.stretch }).run s = u at *
  obtain ⟨h1, h2, h3⟩ := (show (Act.bump Reg.VRC.STRETCH_CYC n).Only (.stores [Reg.VRC.STRETCH_CYC]) by simp).stores u
  exact ⟨(congrArg (fun h : Hw => h.pwr.stretch.getD st false) h1).trans hstretch,
    (counts_bump (hregs ▸ hs) mask_vrcCounts.2.2 n).around (rd_of_regs hregs _) rfl, fun r hr => (h2 r hr).trans (rd_of_regs hregs r), hrest.trans h3⟩

/-- Settles O51: the start of VDD_CORE, lost rails, ILIM, the target, phases, senses and droops. -/
theorem coreRegulator : Obligations.CoreRegulator := by
  unfold Obligations.CoreRegulator
  refine ⟨fun s railsOk vin straps hs => ⟨fun h1 h2 h3 h4 h5 h6 => ⟨_, always_eq _ s, ?_⟩, fun h => ⟨_, always_eq _ s, ?_⟩⟩,
    fun s rail hs => ⟨fun h => ⟨_, always_eq _ s, (railLost_effect hs.1.1 rail).1 h⟩, fun h => ?_⟩,
    fun s hl => ⟨fun h => ⟨_, simply_eq hl.2, ilimReached_effect hl.1.1.1 h⟩, fun h => ?_, ⟨_, simply_eq hl.2, ilimRelease_effect hl.1.1.1⟩⟩,
    fun s slack above hl => ⟨_, command_eq hl.2, avsStep_effect hl.1.1.1 slack above⟩,
    fun s ph _ hl => ⟨fun h => ⟨_, simply_eq hl.2, phaseFailure_effect hl.1.1.1 ph h⟩, fun h => ?_,
      fun h h' => ⟨_, simply_eq hl.2, senseFailure_effect hl.1.1.1 ph h h'⟩⟩,
    fun s ph q l hl hout hnext hne => ⟨_, simply_eq hl.2, sparePhase_effect hl.1.1.1 hout hnext hne⟩,
    fun s st mv n hl hlen => ⟨fun h h' => ⟨_, simply_eq hl.2, (droop_effect hl.1.1.1 st _ hlen).1 h h'⟩, fun h => ?_,
      fun h => ⟨_, simply_eq hl.2, stretchEnd_effect hl.1.1.1 st n.toNat hlen h⟩⟩⟩
  · obtain ⟨k1, k2, k3⟩ := strapsSampled_keeps straps.toNat s
    obtain ⟨e1, e2, e3, e4, e5, e6⟩ := vinSeen_effect hs.1.1 vin straps.toNat
    rw [corePower_run, k1, k2, k3, decide_eq_true ⟨h1, h2⟩, h3, h4, h5, if_neg (by decide), run_when,
      if_pos (by rw [bne_iff_ne.2 h6]; rfl)]
    generalize vinSeen vin straps.toNat s = u at *
    obtain ⟨f1, f2, f3, f4, f5, f6⟩ := coreStarts_effect e2
    exact ⟨f1, f2, (congrArg (·.straps) f3).trans (e4 h4), (f5 _ (by decide)).trans e1, f4,
      (e5.mono (by simp)).trans (f5.mono (by simp [coreStartRegs])), e6.trans f6⟩
  · obtain ⟨e1, e2, e3, e4, e5, e6⟩ := vinSeen_effect hs.1.1 vin straps.toNat
    rw [corePower_run, decide_eq_false (by omega), if_pos (show (!false) = true from rfl)]
    generalize vinSeen vin straps.toNat s = u at *
    have hq : Quiet (irqOf .VRC 0) u ((vrcRaise 6).run u) := Act.Only.quiet (only_raise (by simp [irqOf]) (by simp [irqOf]) (by simp)) u
    exact ⟨(hq.part (·.pwr.coreOn)).trans (congrArg (·.coreOn) e3), bit_raise e2 (by decide) (by decide),
      (e5.mono (by simp)).trans (hq.regs.mono (by simp)), e6.trans hq.toSameRest⟩
  · exact (always_eq _ s).trans (congrArg (fun t => Host.Outcome.next t.settled) ((railLost_effect hs.1.1 rail).2 h))
  · refine (simply_eq hl.2).trans (congrArg _ ?_)
    rw [ilimReachedAct, run_get, run_when, h]
    rfl
  · refine (simply_eq hl.2).trans (congrArg _ ?_)
    rw [phaseFailureAct, run_get, run_when, h]
    rfl
  · exact (simply_eq hl.2).trans (congrArg _ ((droop_effect hl.1.1.1 st _ hlen).2 h))

end Sys2Proof.Machine

/-! ## Proofs: clocks, power estimate, cap and temperature (O52) -/

namespace Sys2Proof.Machine

-- One theorem after the other: elaborated side by side, they hold more threads than the memory limit of a check allows.
set_option Elab.async false

/-! ### What the registers hold -/

theorem mask_clk : RegRef.mask Reg.CLK.STRIPE_FREQ = 0x7777 ∧ RegRef.mask Reg.CLK.CLK_STATUS = 0x71FFF ∧
    RegRef.mask Reg.CLK.CLK_EVENTS = 0x71FFF ∧ RegRef.mask Reg.CLK.LOCK_LOSS_CNT = 0xFFFFFFFF ∧ RegRef.mask Reg.CLK.REF_DEV = 0xFFFFFFFF := by
  decide +kernel
theorem mask_power : RegRef.mask Reg.VRC.IOUT = 0xFFFF ∧ RegRef.mask Reg.PWR.CORE_POWER = 0xFFFFFFFF ∧
    RegRef.mask Reg.PWR.PKG_POWER = 0xFFFFFFFF ∧ RegRef.mask Reg.PWR.EST_CORR = 0xFFFFFFFF ∧ RegRef.mask Reg.PWR.CAP_EVENTS = 0x1F ∧
    RegRef.mask Reg.PWR.THERM_STATUS = 0x3F01FF := by decide +kernel
theorem mask_dummy (p : Fin 36) : (RegRef.mask (Reg.ENG.DUMMY p)).getLsbD 24 = true := by revert p; decide +kernel

/-- A field of one bit. -/
theorem bits_self {n : Nat} (w : BitVec n) (k : Nat) : bits w k k = b2n (w.getLsbD k) := by
  apply Nat.eq_of_testBit_eq
  intro i
  rw [testBit_bits, b2n]
  cases i with
  | zero => cases w.getLsbD k <;> simp
  | succ i => cases w.getLsbD k <;> simp [Nat.testBit_succ]

theorem fld_self (s : State) (r : RegRef) (k : Nat) : s.fld r k k = b2n (s.bit r k) := bits_self _ _

theorem fld_of_rd {s t : State} {r : RegRef} (h : t.rd r = s.rd r) (hi lo : Nat) : t.fld r hi lo = s.fld r hi lo := congrArg (bits · hi lo) h
theorem bit_of_rd {s t : State} {r : RegRef} (h : t.rd r = s.rd r) (k : Nat) : t.bit r k = s.bit r k := congrArg (BitVec.getLsbD · k) h

/-! ### A stripe takes another clock (R574, R575, R582) -/

/-- The registers that show a stripe's clock. -/
def stripeShown : List RegRef := [Reg.CLK.STRIPE_FREQ, Reg.CLK.CLK_STATUS, Reg.PWR.PWR_STATUS]

/-- The PLL of stripe `st` that it does not run on. -/
def State.otherPll (s : State) (st : Nat) : Nat := 1 - s.fld Reg.CLK.STRIPE_FREQ (4 * st + 2) (4 * st + 2)

theorem only_switchStripe {p : Scope} (t code : Nat) (h : ∀ r ∈ stripeShown, p.reg r) : (switchStripe t code).Only p := by
  simp only [stripeShown, List.mem_cons, List.not_mem_nil, or_false, forall_eq_or_imp, forall_eq] at h
  simp [switchStripe, h]

theorem switchStripe_run (st code : Nat) (s : State) : (switchStripe st code).run s =
    (Act.setFld Reg.PWR.PWR_STATUS (8 + st) (8 + st) (b2n (code == 2))).run
      ((Act.setFld Reg.CLK.CLK_STATUS (1 + 2 * st + s.otherPll st) (1 + 2 * st + s.otherPll st) 1).run
        (s.setReg Reg.CLK.STRIPE_FREQ (setBits (setBits (s.rd Reg.CLK.STRIPE_FREQ) (4 * st + 1) (4 * st) code) (4 * st + 2) (4 * st + 2)
          (s.otherPll st)))) := rfl

theorem mask_stripeFreq (st : Fin 4) : bits (RegRef.mask Reg.CLK.STRIPE_FREQ) (4 * st + 1) (4 * st) = 3 ∧
    (RegRef.mask Reg.CLK.STRIPE_FREQ).getLsbD (4 * st + 2) = true ∧ (RegRef.mask Reg.PWR.PWR_STATUS).getLsbD (8 + st) = true := by
  rw [mask_clk.1, mask_pwrStatus.1]; revert st; decide

theorem switchStripe_effect {s : State} (hs : keysRise s.regs) (st : Fin 4) {code : Nat} (hc : code < 4) :
    let t := (switchStripe st code).run s
    t.stripeCode st = code ∧ t.bit Reg.PWR.PWR_STATUS (8 + st) = (code == 2) ∧
      t.bit Reg.CLK.STRIPE_FREQ (4 * st + 2) = !s.bit Reg.CLK.STRIPE_FREQ (4 * st + 2) ∧
      (∀ k < 13, k ≠ 1 + 2 * st + s.otherPll st → t.bit Reg.CLK.CLK_STATUS k = s.bit Reg.CLK.CLK_STATUS k) ∧
      t.hw = s.hw ∧ SameRegs stripeShown s t ∧ SameRest s t := by
  obtain ⟨h1, h2, h3⟩ := (only_switchStripe (p := .stores stripeShown) st code fun _ h => h).stores s
  obtain ⟨m1, m2, m3⟩ := mask_stripeFreq st
  dsimp only
  rw [switchStripe_run] at h1 h2 h3 ⊢
  generalize ho : s.otherPll st = o at *
  have hfreq : (s.setReg Reg.CLK.STRIPE_FREQ (setBits (setBits (s.rd Reg.CLK.STRIPE_FREQ) (4 * st + 1) (4 * st) code) (4 * st + 2) (4 * st + 2) o)).rd
      Reg.CLK.STRIPE_FREQ = setBits (setBits (s.rd Reg.CLK.STRIPE_FREQ) (4 * st + 1) (4 * st) code) (4 * st + 2) (4 * st + 2) o &&&
        RegRef.mask Reg.CLK.STRIPE_FREQ := rd_setReg_same hs _ _
  have ha : keysRise (s.setReg Reg.CLK.STRIPE_FREQ
    (setBits (setBits (s.rd Reg.CLK.STRIPE_FREQ) (4 * st + 1) (4 * st) code) (4 * st + 2) (4 * st + 2) o)).regs := keysRise_setReg hs _ _
  have hst : ∀ k, (s.setReg Reg.CLK.STRIPE_FREQ
      (setBits (setBits (s.rd Reg.CLK.STRIPE_FREQ) (4 * st + 1) (4 * st) code) (4 * st + 2) (4 * st + 2) o)).bit Reg.CLK.CLK_STATUS k =
      s.bit Reg.CLK.CLK_STATUS k := bit_of_rd (rd_setReg_off (r := Reg.CLK.STRIPE_FREQ) (by simp))
  generalize s.setReg Reg.CLK.STRIPE_FREQ (setBits (setBits (s.rd Reg.CLK.STRIPE_FREQ) (4 * st + 1) (4 * st) code) (4 * st + 2) (4 * st + 2) o) = a at *
  have hrd : ((Act.setFld Reg.PWR.PWR_STATUS (8 + st) (8 + st) (b2n (code == 2))).run
      ((Act.setFld Reg.CLK.CLK_STATUS (1 + 2 * st + o) (1 + 2 * st + o) 1).run a)).rd Reg.CLK.STRIPE_FREQ =
      setBits (setBits (s.rd Reg.CLK.STRIPE_FREQ) (4 * st + 1) (4 * st) code) (4 * st + 2) (4 * st + 2) o &&& RegRef.mask Reg.CLK.STRIPE_FREQ :=
    (rd_setFld_off (by simp)).trans ((rd_setFld_off (by simp)).trans hfreq)
  have hb : keysRise ((Act.setFld Reg.CLK.CLK_STATUS (1 + 2 * st + o) (1 + 2 * st + o) 1).run a).regs := rise_run _ ha
  refine ⟨?_, ?_, ?_, fun k hk hne => ?_, h1, h2, h3⟩
  · rw [State.stripeCode, State.fld, hrd, bits_and_mask _ _ (by rw [m1, show 4 * (st : Nat) + 1 + 1 - 4 * st = 2 by omega]; rfl),
      bits_setBits_other _ _ (.inl (by omega)), bits_setBits_same _ _ (by omega), show 4 * (st : Nat) + 1 + 1 - 4 * st = 2 by omega]
    omega
  · rw [bit_setFld hb m3]
    cases code == 2 <;> rfl
  · rw [State.bit, hrd, BitVec.getLsbD_and, m2, Bool.and_true, getLsbD_setBits, if_pos ⟨Nat.le_refl _, Nat.le_refl _, by omega⟩, Nat.sub_self, ← ho,
      State.otherPll, fld_self]
    cases s.bit Reg.CLK.STRIPE_FREQ (4 * st + 2) <;> rfl
  · have hmask : (RegRef.mask Reg.CLK.CLK_STATUS).getLsbD k = true := by rw [mask_clk.2.1]; interval_cases k <;> rfl
    refine (bit_of_rd (rd_setReg_ne (r := Reg.PWR.PWR_STATUS) _ (by decide)) k).trans ?_
    exact (keeps_bit_setFld (by omega) hmask a ha).trans (hst k)

/-- The target within the limits of the highest clock in force (R574, R575). -/
def State.targetInLimits (s : State) : Nat :=
  if s.bit Reg.VRC.VRC_CTRL 0 then max (max (s.vFuse s.topCode - 750) 6000) (min (min (s.vFuse s.topCode + 250) 8500) s.hw.pwr.target)
  else s.vFuse s.topCode

theorem retarget_run (s : State) : retarget.run s = (setTarget s.targetInLimits).run s := rfl

/-- The highest clock in force is read from STRIPE_FREQ. -/
theorem topCode_of_rd {s t : State} (h : t.rd Reg.CLK.STRIPE_FREQ = s.rd Reg.CLK.STRIPE_FREQ) : t.topCode = s.topCode := by
  have hc : t.stripeCode = s.stripeCode := funext fun k => fld_of_rd h _ _
  unfold State.topCode; rw [hc]

theorem retarget_effect {s : State} (hs : keysRise s.regs) :
    let t := retarget.run s
    t.hw = { s.hw with pwr := { s.hw.pwr with target := s.targetInLimits } } ∧ t.vFuse t.topCode = s.vFuse s.topCode ∧
      SameRegs [Reg.VRC.VTARGET, Reg.VRC.VRC_STATUS] s t ∧ SameRest s t := by
  obtain ⟨h1, -, h3, h4⟩ := setTarget_effect hs s.targetInLimits
  dsimp only
  rw [retarget_run]
  refine ⟨h1, ?_, h3, h4⟩
  rw [topCode_of_rd (h3 _ (by decide)), State.vFuse, h1]
  rfl

theorem stripeFreq_effect {s : State} (hs : keysRise s.regs) (st : Fin 4) (code : Fin 3) (hw : s.hw.pwr.want.getD st 0 = code.val)
    (hne : s.stripeCode st ≠ code.val) :
    let t := (stripeFreqAct st code).run s
    t.stripeCode st = code.val ∧
        t.bit Reg.PWR.PWR_STATUS (8 + st.val) = (code.val == 2) ∧
        t.bit Reg.CLK.STRIPE_FREQ (4 * st.val + 2) = !s.bit Reg.CLK.STRIPE_FREQ (4 * st.val + 2) ∧
        (s.bit Reg.VRC.VRC_CTRL 0 = false → t.hw.pwr.target = t.vFuse t.topCode) ∧
        (s.bit Reg.VRC.VRC_CTRL 0 = true → t.hw.pwr.target =
          max (max (t.vFuse t.topCode - 750) 6000) (min (min (t.vFuse t.topCode + 250) 8500) s.hw.pwr.target)) ∧
        t.hw = { s.hw with pwr := { s.hw.pwr with target := t.hw.pwr.target } } ∧
        SameRegs [Reg.CLK.STRIPE_FREQ, Reg.CLK.CLK_STATUS, Reg.PWR.PWR_STATUS, Reg.VRC.VTARGET, Reg.VRC.VRC_STATUS] s t ∧ SameRest s t := by
  have hrun : (stripeFreqAct st code).run s = retarget.run ((switchStripe st code).run s) := by
    rw [stripeFreqAct, run_get, run_when, if_pos (by rw [hw, bne_iff_ne.2 hne, beq_self_eq_true]; rfl), run_seq]
  dsimp only
  rw [hrun]
  obtain ⟨a1, a2, a3, -, a5, a6, a7⟩ := switchStripe_effect hs st (code := code) (by omega)
  have ha : keysRise ((switchStripe st code).run s).regs := rise_run _ hs
  generalize (switchStripe st code).run s = a at *
  obtain ⟨t1, t2, t3, t4⟩ := retarget_effect ha
  generalize retarget.run a = t at *
  have hfreq : t.rd Reg.CLK.STRIPE_FREQ = a.rd Reg.CLK.STRIPE_FREQ := t3 _ (by decide)
  have hctrl : a.bit Reg.VRC.VRC_CTRL 0 = s.bit Reg.VRC.VRC_CTRL 0 := bit_of_rd (a6 _ (by decide)) 0
  have htarget : t.hw.pwr.target = a.targetInLimits := congrArg (·.pwr.target) t1
  refine ⟨(fld_of_rd hfreq _ _).trans a1, (bit_of_rd (t3 _ (by decide)) _).trans a2, (bit_of_rd hfreq _).trans a3, fun h => ?_, fun h => ?_, ?_,
    (a6.mono (by simp [stripeShown])).trans (t3.mono (by simp)), a7.trans t4⟩
  · rw [htarget, t2, State.targetInLimits, hctrl, h, if_neg Bool.false_ne_true]
  · rw [htarget, t2, State.targetInLimits, hctrl, h, a5, if_pos rfl]
  · rw [t1, a5]

/-! ### A PLL loses lock (R585) -/

/-- What a PLL's lost lock writes, the stripe's clock apart. -/
def pllLost (pll : Nat) : Act := .seq (.setFld Reg.CLK.CLK_STATUS pll pll 0)
  (.seq (.orReg Reg.CLK.CLK_EVENTS (BitVec.ofNat 32 (2 ^ pll))) (.seq (.bump Reg.CLK.LOCK_LOSS_CNT 1) (.raise .CLK 0 0)))

/-- The stripe falls back to its other PLL at 1.1 GHz. -/
def stripeFallsBack (st : Nat) : Act := .all [wantStripe st 0, switchStripe st 0, retarget]

theorem pllLoss_run (pll : Nat) (s : State) : (pllLossAct pll).run s =
    (Act.when (decide (1 ≤ pll ∧ pll ≤ 8)) (.when (s.fld Reg.CLK.STRIPE_FREQ (4 * ((pll - 1) / 2) + 2) (4 * ((pll - 1) / 2) + 2) == (pll - 1) % 2)
      (stripeFallsBack ((pll - 1) / 2)))).run ((pllLost pll).run s) := rfl

theorem pllLost_effect {s : State} (hs : keysRise s.regs) (pll : Fin 13) :
    let t := (pllLost pll).run s
    t.bit Reg.CLK.CLK_STATUS pll = false ∧ t.bit Reg.CLK.CLK_EVENTS pll = true ∧ Counts Reg.CLK.LOCK_LOSS_CNT 1 s t ∧ t.pend .CLK 0 0 = true ∧
      Quiet ([Reg.CLK.CLK_STATUS, Reg.CLK.CLK_EVENTS, Reg.CLK.LOCK_LOSS_CNT] ++ irqOf .CLK 0) s t := by
  have hq : (pllLost pll).Only (.quiet ([Reg.CLK.CLK_STATUS, Reg.CLK.CLK_EVENTS, Reg.CLK.LOCK_LOSS_CNT] ++ irqOf .CLK 0)) :=
    ⟨by simp, by simp, by simp, only_raise (by simp [irqOf]) (by simp [irqOf]) (by simp)⟩
  have hmask : (RegRef.mask Reg.CLK.CLK_STATUS).getLsbD pll = true ∧ (RegRef.mask Reg.CLK.CLK_EVENTS).getLsbD pll = true := by
    rw [mask_clk.2.1, mask_clk.2.2.1]; clear hq; revert pll; decide
  have hrun : (pllLost pll).run s = (Act.raise .CLK 0 0).run ((Act.bump Reg.CLK.LOCK_LOSS_CNT 1).run
    ((Act.orReg Reg.CLK.CLK_EVENTS (BitVec.ofNat 32 (2 ^ pll.val))).run ((Act.setFld Reg.CLK.CLK_STATUS pll pll 0).run s))) := rfl
  have hquiet := hq.quiet s
  dsimp only
  rw [hrun] at hquiet ⊢
  have h1 := bit_setFld hs (v := 0) hmask.1
  have c1 : ((Act.setFld Reg.CLK.CLK_STATUS pll pll 0).run s).rd Reg.CLK.LOCK_LOSS_CNT = s.rd Reg.CLK.LOCK_LOSS_CNT := rd_setFld_off (by simp)
  have ha : keysRise ((Act.setFld Reg.CLK.CLK_STATUS pll pll 0).run s).regs := rise_run _ hs
  generalize (Act.setFld Reg.CLK.CLK_STATUS pll pll 0).run s = a at *
  have h2 := bit_orReg ha (BitVec.ofNat 32 (2 ^ pll.val)) hmask.2
  have hab := ((show (Act.orReg Reg.CLK.CLK_EVENTS (BitVec.ofNat 32 (2 ^ pll.val))).Only (.regs [Reg.CLK.CLK_EVENTS]) by simp).frame a).1
  have hb : keysRise ((Act.orReg Reg.CLK.CLK_EVENTS (BitVec.ofNat 32 (2 ^ pll.val))).run a).regs := rise_run _ ha
  generalize (Act.orReg Reg.CLK.CLK_EVENTS (BitVec.ofNat 32 (2 ^ pll.val))).run a = b at *
  have h3 := counts_bump hb mask_clk.2.2.2.1 1
  have hbc := ((show (Act.bump Reg.CLK.LOCK_LOSS_CNT 1).Only (.regs [Reg.CLK.LOCK_LOSS_CNT]) by simp).frame b).1
  have hc : keysRise ((Act.bump Reg.CLK.LOCK_LOSS_CNT 1).run b).regs := rise_run _ hb
  generalize (Act.bump Reg.CLK.LOCK_LOSS_CNT 1).run b = c at *
  refine ⟨?_, ?_, h3.around ((hab.rd_off (by simp)).trans c1) (rd_raise_off (by simp) (by simp)), bit_raise hc (by decide) (by decide), hquiet⟩
  · exact (bit_of_rd ((rd_raise_off (by simp) (by simp)).trans ((hbc.rd_off (by simp)).trans (hab.rd_off (by simp)))) _).trans (h1.trans rfl)
  · refine (bit_of_rd ((rd_raise_off (by simp) (by simp)).trans (hbc.rd_off (by simp))) _).trans (h2.trans ?_)
    rw [getLsbD_ofNat_two_pow]
    simp [show pll.val < 32 by omega]

theorem stripeFallsBack_effect {s : State} (hs : keysRise s.regs) (st : Fin 4) :
    let t := (stripeFallsBack st).run s
    t.stripeCode st = 0 ∧ (∀ k < 13, k ≠ 1 + 2 * st + s.otherPll st → t.bit Reg.CLK.CLK_STATUS k = s.bit Reg.CLK.CLK_STATUS k) ∧
      SameRegs (stripeShown ++ [Reg.VRC.VTARGET, Reg.VRC.VRC_STATUS]) s t ∧ SameRest s t := by
  have hrun : (stripeFallsBack st).run s = retarget.run ((switchStripe st 0).run ((wantStripe st 0).run s)) := rfl
  dsimp only
  rw [hrun]
  have hregs : ((wantStripe st 0).run s).regs = s.regs := rfl
  have hrest : SameRest s ((wantStripe st 0).run s) := rest_hw _ s
  generalize (wantStripe st 0).run s = u at *
  have hother : u.otherPll st = s.otherPll st := congrArg (1 - ·) (fld_of_rd (rd_of_regs hregs _) _ _)
  obtain ⟨a1, -, -, a4, -, a6, a7⟩ := switchStripe_effect (hregs ▸ hs) st (code := 0) (by decide)
  have ha : keysRise ((switchStripe st 0).run u).regs := rise_run _ (hregs ▸ hs)
  generalize (switchStripe st 0).run u = a at *
  obtain ⟨-, -, t3, t4⟩ := retarget_effect ha
  generalize retarget.run a = t at *
  refine ⟨(fld_of_rd (t3 _ (by decide)) _ _).trans a1, fun k hk hne => ?_, ?_, hrest.trans (a7.trans t4)⟩
  · exact (bit_of_rd (t3 _ (by decide)) k).trans ((a4 k hk (hother ▸ hne)).trans (bit_of_rd (rd_of_regs hregs _) k))
  · exact (show SameRegs _ s u from fun r _ => rd_of_regs hregs r).trans ((a6.mono (by simp)).trans (t3.mono (by simp)))

theorem pllLoss_effect {s : State} (hs : keysRise s.regs) (pll : Fin 13) :
    let st := (pll.val - 1) / 2
    let t := (pllLossAct pll).run s
    t.bit Reg.CLK.CLK_STATUS pll = false ∧ t.bit Reg.CLK.CLK_EVENTS pll = true ∧
      Counts Reg.CLK.LOCK_LOSS_CNT 1 s t ∧ t.pend .CLK 0 0 = true ∧
      (1 ≤ pll.val → pll.val ≤ 8 → s.fld Reg.CLK.STRIPE_FREQ (4 * st + 2) (4 * st + 2) = (pll.val - 1) % 2 → t.stripeCode st = 0) ∧
      SameRegs ([Reg.CLK.CLK_STATUS, Reg.CLK.CLK_EVENTS, Reg.CLK.LOCK_LOSS_CNT, Reg.CLK.STRIPE_FREQ, Reg.PWR.PWR_STATUS,
        Reg.VRC.VTARGET, Reg.VRC.VRC_STATUS] ++ irqOf .CLK 0) s t ∧ SameRest s t := by
  dsimp only
  rw [pllLoss_run]
  obtain ⟨a1, a2, a3, a4, a5⟩ := pllLost_effect hs pll
  have ha : keysRise ((pllLost pll).run s).regs := rise_run _ hs
  generalize (pllLost pll).run s = a at *
  have hframe := a5.regs
  by_cases h : (1 ≤ pll.val ∧ pll.val ≤ 8) ∧
    s.fld Reg.CLK.STRIPE_FREQ (4 * ((pll.val - 1) / 2) + 2) (4 * ((pll.val - 1) / 2) + 2) = (pll.val - 1) % 2
  · obtain ⟨⟨hlo, hhi⟩, hon⟩ := h
    rw [run_when, if_pos (decide_eq_true ⟨hlo, hhi⟩), run_when, if_pos (by rw [hon, beq_self_eq_true])]
    obtain ⟨e1, e2, e3, e4⟩ := stripeFallsBack_effect ha ⟨(pll.val - 1) / 2, by omega⟩
    dsimp only at e1 e2 e3 e4
    generalize (stripeFallsBack ((pll.val - 1) / 2)).run a = t at *
    have hother : a.otherPll ((pll.val - 1) / 2) = 1 - (pll.val - 1) % 2 :=
      (congrArg (1 - ·) (fld_of_rd (hframe _ (by decide)) _ _)).trans (congrArg (1 - ·) hon)
    refine ⟨(e2 pll pll.isLt (by rw [hother]; omega)).trans a1, (bit_of_rd (e3 _ (by decide)) _).trans a2, a3.around rfl (e3 _ (by decide)),
      (bit_of_rd (e3 _ (by decide)) _).trans a4, fun _ _ _ => e1, ?_, a5.toSameRest.trans e4⟩
    exact (hframe.mono (by simp [irqOf])).trans (e3.mono (by simp [stripeShown]))
  · have hnil : (Act.when (decide (1 ≤ pll.val ∧ pll.val ≤ 8)) (.when
        (s.fld Reg.CLK.STRIPE_FREQ (4 * ((pll.val - 1) / 2) + 2) (4 * ((pll.val - 1) / 2) + 2) == (pll.val - 1) % 2)
        (stripeFallsBack ((pll.val - 1) / 2)))).run a = a := by
      rw [run_when]
      split
      next h1 =>
        rw [run_when, if_neg fun h2 => h ⟨of_decide_eq_true h1, by simpa using h2⟩]
      · rfl
    rw [hnil]
    exact ⟨a1, a2, a3, a4, fun h1 h2 h3 => absurd ⟨⟨h1, h2⟩, h3⟩ h, hframe.mono (by simp [irqOf]), a5.toSameRest⟩

/-! ### The reference is compared (R584) -/

/-- A clock fault: its event and its source. -/
def clkFault (w : Word) (k : Nat) : Act := .seq (.orReg Reg.CLK.CLK_EVENTS w) (.raise .CLK 0 k)

theorem quiet_clkFault (b : Bool) (w : Word) (k : Nat) (s : State) :
    Quiet (Reg.CLK.CLK_EVENTS :: irqOf .CLK 0) s ((Act.when b (clkFault w k)).run s) :=
  Act.Only.quiet (a := .when b (clkFault w k)) ((only_when _ _).2 fun _ =>
    ⟨(only_orReg _ _).2 (by simp), only_raise (by simp [irqOf]) (by simp [irqOf]) (by simp)⟩) s

theorem clkFault_effect {s : State} (hs : keysRise s.regs) {w : Word} {k m : Nat} (hw : w.getLsbD m = true)
    (hm : (RegRef.mask Reg.CLK.CLK_EVENTS).getLsbD m = true) (hk : k < 32) :
    ((clkFault w k).run s).bit Reg.CLK.CLK_EVENTS m = true ∧ ((clkFault w k).run s).pend .CLK 0 k = true := by
  have hset := bit_orReg hs w hm
  have hu : keysRise ((Act.orReg Reg.CLK.CLK_EVENTS w).run s).regs := rise_run _ hs
  rw [clkFault, run_seq]
  generalize (Act.orReg Reg.CLK.CLK_EVENTS w).run s = u at *
  exact ⟨(bit_of_rd (rd_raise_off (by simp) (by simp)) m).trans (hset.trans (by rw [hw, Bool.or_true])), bit_raise hu (by decide) hk⟩

/-- The deviation stored, and which of the two clocks is trusted. -/
def refShown (ppm : Int) (ref aon : Bool) : Act := .seq (.wrN Reg.CLK.REF_DEV (uns 32 ppm))
  (.seq (.setFld Reg.CLK.CLK_STATUS 16 16 (b2n ref)) (.setFld Reg.CLK.CLK_STATUS 17 17 (b2n aon)))

theorem refCheck_run {s : State} (ppm : Int) (aon : Bool) (h : s.bit Reg.CLK.CLK_CTRL 0 = true) :
    (refCheckAct ppm aon).run s = (Act.when (decide (1000 < ppm.natAbs) && aon) (clkFault 0x20000 3)).run
      ((Act.when (decide (1000 < ppm.natAbs) && !aon) (clkFault 0x10000 1)).run
        ((refShown ppm (!(decide (1000 < ppm.natAbs) && !aon)) (!(decide (1000 < ppm.natAbs) && aon))).run s)) := by
  rw [refCheckAct, run_get, run_when, if_pos h]
  rfl

theorem refShown_effect {s : State} (hs : keysRise s.regs) (ppm : Int) (ref aon : Bool) :
    let t := (refShown ppm ref aon).run s
    t.rd Reg.CLK.REF_DEV = BitVec.ofInt 32 ppm ∧ t.bit Reg.CLK.CLK_STATUS 16 = ref ∧ t.bit Reg.CLK.CLK_STATUS 17 = aon ∧
      Quiet [Reg.CLK.REF_DEV, Reg.CLK.CLK_STATUS] s t := by
  have hq := (show (refShown ppm ref aon).Only (.quiet [Reg.CLK.REF_DEV, Reg.CLK.CLK_STATUS]) by simp [refShown]).quiet s
  have hrun : (refShown ppm ref aon).run s = (Act.setFld Reg.CLK.CLK_STATUS 17 17 (b2n aon)).run
    ((Act.setFld Reg.CLK.CLK_STATUS 16 16 (b2n ref)).run ((Act.wrN Reg.CLK.REF_DEV (uns 32 ppm)).run s)) := rfl
  dsimp only
  rw [hrun] at hq ⊢
  have hdev : ((Act.wrN Reg.CLK.REF_DEV (uns 32 ppm)).run s).rd Reg.CLK.REF_DEV = BitVec.ofNat 32 (uns 32 ppm) := rd_setReg_full hs mask_clk.2.2.2.2 _
  have ha : keysRise ((Act.wrN Reg.CLK.REF_DEV (uns 32 ppm)).run s).regs := rise_run _ hs
  generalize (Act.wrN Reg.CLK.REF_DEV (uns 32 ppm)).run s = a at *
  have h16 := bit_setFld ha (v := b2n ref) (k := 16) (r := Reg.CLK.CLK_STATUS) (by rw [mask_clk.2.1]; decide)
  have hb : keysRise ((Act.setFld Reg.CLK.CLK_STATUS 16 16 (b2n ref)).run a).regs := rise_run _ ha
  have hkeep : ((Act.setFld Reg.CLK.CLK_STATUS 16 16 (b2n ref)).run a).rd Reg.CLK.REF_DEV = a.rd Reg.CLK.REF_DEV := rd_setFld_off (by simp)
  generalize (Act.setFld Reg.CLK.CLK_STATUS 16 16 (b2n ref)).run a = b at *
  refine ⟨(rd_setFld_off (by simp)).trans (hkeep.trans (hdev.trans (ofNat_uns ppm))), ?_, ?_, hq⟩
  · refine (keeps_bit_setFld (k := 16) (.inl (by decide)) (by rw [mask_clk.2.1]; decide) b hb).trans (h16.trans ?_)
    cases ref <;> rfl
  · refine (bit_setFld hb (by rw [mask_clk.2.1]; decide)).trans ?_
    cases aon <;> rfl

theorem refCheck_effect {s : State} (hs : keysRise s.regs) (ppm : Int) (aon : Bool) (h : s.bit Reg.CLK.CLK_CTRL 0 = true) :
    let bad : Bool := decide (1000 < ppm.natAbs)
    let t := (refCheckAct ppm aon).run s
    t.rd Reg.CLK.REF_DEV = BitVec.ofInt 32 ppm ∧
      t.bit Reg.CLK.CLK_STATUS 16 = !(bad && !aon) ∧ t.bit Reg.CLK.CLK_STATUS 17 = !(bad && aon) ∧
      ((bad && !aon) = true → t.bit Reg.CLK.CLK_EVENTS 16 = true ∧ t.pend .CLK 0 1 = true) ∧
      ((bad && aon) = true → t.bit Reg.CLK.CLK_EVENTS 17 = true ∧ t.pend .CLK 0 3 = true) ∧
      Quiet ([Reg.CLK.REF_DEV, Reg.CLK.CLK_STATUS, Reg.CLK.CLK_EVENTS] ++ irqOf .CLK 0) s t := by
  dsimp only
  rw [refCheck_run ppm aon h]
  generalize decide (1000 < ppm.natAbs) = bad
  obtain ⟨a1, a2, a3, a4⟩ := refShown_effect hs ppm (!(bad && !aon)) (!(bad && aon))
  have ha : keysRise ((refShown ppm (!(bad && !aon)) (!(bad && aon))).run s).regs := rise_run _ hs
  generalize (refShown ppm (!(bad && !aon)) (!(bad && aon))).run s = a at *
  have hq := (quiet_clkFault (bad && !aon) 0x10000 1 a).trans (quiet_clkFault (bad && aon) 0x20000 3 _)
  refine ⟨(hq.regs _ (by decide)).trans a1, (bit_of_rd (hq.regs _ (by decide)) _).trans a2, (bit_of_rd (hq.regs _ (by decide)) _).trans a3,
    fun hb => ?_, fun hb => ?_, ?_⟩
  · obtain ⟨h1, h2⟩ := Bool.and_eq_true_iff.1 hb
    have h2' : aon = false := by simpa using h2
    rw [h1, h2']
    exact clkFault_effect ha (by decide) (by rw [mask_clk.2.2.1]; decide) (by decide)
  · obtain ⟨h1, h2⟩ := Bool.and_eq_true_iff.1 hb
    rw [h1, h2]
    exact clkFault_effect ha (by decide) (by rw [mask_clk.2.2.1]; decide) (by decide)
  · exact (a4.mono (by simp)).trans (hq.mono (by simp))

/-! ### Estimated and measured power (R594, R595) -/

/-- What POWER_ESTIMATE stores of a current, a measured and an estimated power. -/
def powerStored (fr cur meas est other : Nat) : Act := .all
  [.wrN Reg.VRC.IOUT cur, .wrN Reg.PWR.CORE_POWER (meas + 65536 * est),
   .pwr fun x => { x with senseKey := fr, sums := (x.sums.1 + meas, x.sums.2 + est) },
   .get fun t => .setFld Reg.PWR.PKG_POWER 15 0 (min (t.corePower + other) 65535)]

theorem powerEstimate_run (iout other : Nat) (s : State) : ∃ est fr u, u.regs = s.regs ∧ u.hw = s.hw ∧ SameRest s u ∧
    (powerEstimateAct iout other).run s = (powerStored fr (min (iout * s.phasesOn.length / max 1 s.phasesSensed.length) 65535)
      (min (s.hw.pwr.target / 10 * min (iout * s.phasesOn.length / max 1 s.phasesSensed.length) 65535 / 1000) 65535) est other).run u :=
  ⟨_, _, (Act.upd .free).run s, rfl, rfl, ⟨rfl, rfl, rfl, rfl, rfl⟩, rfl⟩

theorem powerStored_effect {s : State} (hs : keysRise s.regs) (fr : Nat) {cur meas est other : Nat} (hcur : cur < 65536) (hmeas : meas < 65536) :
    let t := (powerStored fr cur meas est other).run s
    t.rd Reg.VRC.IOUT = BitVec.ofNat 32 cur ∧ t.fld Reg.PWR.CORE_POWER 15 0 = meas ∧
      (s.bit Reg.PWR.PWR_STATUS 6 = false → t.fld Reg.PWR.PKG_POWER 15 0 = min (s.hw.pwr.target / 10 * cur / 1000 + other) 65535) ∧
      SameRegs [Reg.VRC.IOUT, Reg.PWR.CORE_POWER, Reg.PWR.PKG_POWER] s t ∧ SameRest s t := by
  have hframe := (show (powerStored fr cur meas est other).Only (.regs [Reg.VRC.IOUT, Reg.PWR.CORE_POWER, Reg.PWR.PKG_POWER]) by simp [powerStored]).frame s
  let c := (Act.all [.wrN Reg.VRC.IOUT cur, .wrN Reg.PWR.CORE_POWER (meas + 65536 * est),
    .pwr fun x => { x with senseKey := fr, sums := (x.sums.1 + meas, x.sums.2 + est) }]).run s
  have hrun : (powerStored fr cur meas est other).run s = (Act.setFld Reg.PWR.PKG_POWER 15 0 (min (c.corePower + other) 65535)).run c := rfl
  have hc : keysRise c.regs := rise_run _ hs
  have ha : keysRise (s.setReg Reg.VRC.IOUT (BitVec.ofNat 32 cur)).regs := keysRise_setReg hs _ _
  have hiout : c.rd Reg.VRC.IOUT = BitVec.ofNat 32 cur := by
    refine (rd_setReg_off (r := Reg.PWR.CORE_POWER) (by simp)).trans ((rd_setReg_same hs Reg.VRC.IOUT _).trans ?_)
    rw [mask_power.1]
    apply BitVec.eq_of_toNat_eq
    rw [BitVec.toNat_and, BitVec.toNat_ofNat, show (0xFFFF : Word).toNat = 2 ^ 16 - 1 from rfl, Nat.and_two_pow_sub_one_eq_mod]
    omega
  have hcore : c.rd Reg.PWR.CORE_POWER = BitVec.ofNat 32 (meas + 65536 * est) := rd_setReg_full ha mask_power.2.1 _
  have hstatus : c.bit Reg.PWR.PWR_STATUS 6 = s.bit Reg.PWR.PWR_STATUS 6 :=
    bit_of_rd ((rd_setReg_off (r := Reg.PWR.CORE_POWER) (by simp)).trans (rd_setReg_ne (r := Reg.VRC.IOUT) _ (by decide))) 6
  have htarget : c.hw.pwr.target = s.hw.pwr.target := rfl
  clear_value c
  dsimp only
  rw [hrun] at hframe ⊢
  refine ⟨(rd_setFld_off (by simp)).trans hiout, (fld_of_rd (rd_setFld_off (by simp)) _ _).trans ?_, fun h => ?_, hframe⟩
  · rw [State.fld, hcore]
    simp only [bits, BitVec.toNat_ofNat, Nat.shiftRight_zero]
    omega
  · rw [run_setFld, fld_setFld_same hc _ _ (by decide) (by rw [mask_power.2.2.1]; decide), Nat.mod_eq_of_lt (by omega), State.corePower, hstatus, h,
      if_neg Bool.false_ne_true, htarget, State.fld, hiout]
    have : bits (BitVec.ofNat 32 cur) 15 0 = cur := by
      simp only [bits, BitVec.toNat_ofNat, Nat.shiftRight_zero]
      omega
    rw [this]

theorem powerEstimate_effect {s : State} (hs : keysRise s.regs) (iout other : Nat) :
    let cur := min (iout * s.phasesOn.length / max 1 s.phasesSensed.length) 65535
    let t := (powerEstimateAct iout other).run s
    t.rd Reg.VRC.IOUT = BitVec.ofNat 32 cur ∧ t.fld Reg.PWR.CORE_POWER 15 0 = min (s.hw.pwr.target / 10 * cur / 1000) 65535 ∧
      (s.bit Reg.PWR.PWR_STATUS 6 = false → t.fld Reg.PWR.PKG_POWER 15 0 = min (s.hw.pwr.target / 10 * cur / 1000 + other) 65535) ∧
      SameRegs [Reg.VRC.IOUT, Reg.PWR.CORE_POWER, Reg.PWR.PKG_POWER] s t ∧ SameRest s t := by
  dsimp only
  obtain ⟨est, fr, u, hregs, hhw, hrest, hrun⟩ := powerEstimate_run iout other s
  rw [hrun]
  have hcur : min (iout * s.phasesOn.length / max 1 s.phasesSensed.length) 65535 < 65536 := by omega
  generalize min (iout * s.phasesOn.length / max 1 s.phasesSensed.length) 65535 = cur at *
  obtain ⟨e1, e2, e3, e4, e5⟩ := powerStored_effect (s := u) (hregs ▸ hs) fr hcur (meas := min (s.hw.pwr.target / 10 * cur / 1000) 65535) (est := est) (other := other)
    (by omega)
  rw [hhw] at e3
  refine ⟨e1, e2, fun h => e3 ((bit_of_rd (rd_of_regs hregs _) 6).trans h), fun r hr => (e4 r hr).trans (rd_of_regs hregs r), hrest.trans e5⟩

theorem estCorr_effect {s : State} (hs : keysRise s.regs) (h : s.bit Reg.PWR.PWR_STATUS 6 = false) :
    let t := estCorrAct.run s
    (let l := (s.hw.pwr.sums :: s.hw.pwr.past).take 100
     sumNat (l.map (·.2)) ≠ 0 → (t.rd Reg.PWR.EST_CORR).toNat =
       min (sumNat (l.map (·.1)) * 65536 / sumNat (l.map (·.2))) 4294967295) ∧
      t.hw.pwr.sums = (0, 0) ∧ SameRegs [Reg.PWR.EST_CORR] s t ∧ SameRest s t := by
  dsimp only
  rw [estCorrAct, run_get]
  dsimp only
  rw [run_when, if_pos (by rw [h]; rfl), run_seq]
  generalize hl : (s.hw.pwr.sums :: s.hw.pwr.past).take 100 = l
  have hsums : ((Act.pwr fun x => { x with sums := (0, 0), past := l }).run s).hw.pwr.sums = (0, 0) := rfl
  have hregs : ((Act.pwr fun x => { x with sums := (0, 0), past := l }).run s).regs = s.regs := rfl
  have hrest : SameRest s ((Act.pwr fun x => { x with sums := (0, 0), past := l }).run s) := rest_hw _ s
  generalize (Act.pwr fun x => { x with sums := (0, 0), past := l }).run s = u at *
  obtain ⟨h1, h2, h3⟩ := (show (Act.when (sumNat (l.map (·.2)) != 0)
    (.wrN Reg.PWR.EST_CORR (min (sumNat (l.map (·.1)) * 65536 / sumNat (l.map (·.2))) 4294967295))).Only (.stores [Reg.PWR.EST_CORR]) by simp).stores u
  refine ⟨fun hne => ?_, (congrArg (·.pwr.sums) h1).trans hsums, fun r hr => (h2 r hr).trans (rd_of_regs hregs r), hrest.trans h3⟩
  rw [run_when, if_pos (bne_iff_ne.2 hne)]
  refine (congrArg BitVec.toNat (rd_setReg_full (hregs ▸ hs) mask_power.2.2.2.1 _)).trans ?_
  rw [BitVec.toNat_ofNat, Nat.mod_eq_of_lt (by omega)]

/-! ### A step of the cap (R597 to R600) -/

/-- R597: the projected mean is above the cap, or the failed phases leave too little current. -/
def State.capExcess (s : State) (projected : Nat) : Bool := decide (s.capInForce < projected) || (!s.hw.pwr.phaseOut.isEmpty &&
  decide ((s.rd Reg.VRC.ILIM).toNat * (s.hw.pwr.target / 10) * 16 < s.fld Reg.PWR.CORE_POWER 15 0 * 1000))

/-- The 10 µs mean taken. -/
def capTaken (fast mean : Nat) (l : List Nat) (limit : Bool) : Act :=
  .seq (.pwr fun x => { x with fasts := l, limit := limit }) (.wrN Reg.PWR.PKG_POWER (fast + 65536 * min mean 65535))

/-- What a missed cap raises (R600, R603). -/
def capMissTold (fresh lost : Bool) (now : Nat) : Act := .all
  [capEvent 0, .when fresh (.seq (.pwr fun x => { x with missAt := now }) (pwrRaise 0)), .when lost fixedLost]

/-- What is raised in state `t` when its cap is missed. -/
def capMissed (t : State) : Act := capMissTold (t.hw.pwr.miss.isNone || decide (t.hw.pwr.missAt + 10000000 ≤ t.now))
  (decide (t.hw.pwr.miss.getD t.now + 10000000 ≤ t.now)) t.now

/-- R600: the cap is missed while every engine stands at its floor. -/
def capMiss (excess : Bool) : Act := .get fun t => .seq
  (.pwr fun x => { x with miss := if excess && t.allAtFloor then some (t.hw.pwr.miss.getD t.now) else none })
  (.when (excess && t.allAtFloor) (capMissed t))

/-- R587, R598: the clocks of the step. -/
def capRates (excess : Bool) (projected : Nat) : Act := .seq (capClocks excess projected)
  (.each (List.range 4) fun t => .get fun y => .when (y.hw.pwr.want.getD t 0 == 2 && !y.boostOk t projected) (wantStripe t 1))

/-- Whether the step throttles, shown and counted. -/
def capShown : Act := .get fun t =>
  .seq (.setFld Reg.PWR.PWR_STATUS 4 4 (b2n (t.hw.pwr.limit || t.hw.pwr.miss.isSome || (List.range 36).any fun p => decide (t.kOf p < 24))))
    (.when (t.hw.pwr.limit || t.hw.pwr.miss.isSome || (List.range 36).any fun p => decide (t.kOf p < 24)) (.bump Reg.PWR.THROT_TIME 10))

theorem run_all_seven (a b c d e f g : Act) (s : State) :
    (Act.all [a, b, c, d, e, f, g]).run s = g.run (f.run ((d.seq e).run (c.run ((a.seq b).run s)))) := rfl

theorem capStep_run (fast projected : Nat) (s : State) : ∃ mean, (capStepAct fast projected).run s =
    capShown.run (setOvr.run ((capRates (s.capExcess projected) projected).run ((capMiss (s.capExcess projected)).run
      ((capTaken fast mean ((fast :: s.hw.pwr.fasts).take (100 * max 1 (s.fld Reg.PWR.CAP 23 16)))
        (decide (5 * s.capInForce < 4 * fast) || (s.hw.pwr.limit && decide (s.capInForce < fast)))).run s)))) := by
  rw [capStepAct, run_get]
  dsimp only
  rw [run_all_seven]
  exact ⟨_, rfl⟩

/-- Whether every engine stands at its floor does not depend on the package's power. -/
theorem allAtFloor_of {s t : State} (hrd : ∀ r : RegRef, r.key ≠ Reg.PWR.PKG_POWER.key → t.rd r = s.rd r) (he : t.hw.eng = s.hw.eng)
    (hd : t.hw.disp = s.hw.disp) (hk : t.hw.pwr.ks = s.hw.pwr.ks) : t.allAtFloor = s.allAtFloor := by
  have hphys : t.physOf = s.physOf := funext fun l => by
    unfold State.physOf
    rw [hrd (Reg.DARN.ENG_MAP (l / 4)) (by simp only [RegRef.key, show Blk.DARN.slot = 0x17 from rfl, show Blk.PWR.slot = 0x14 from rfl]; omega)]
  have hlogical (p : Nat) : t.logicalOf p = s.logicalOf p := by unfold State.logicalOf; rw [hphys]
  have hrun (p : Nat) : t.runningOn p = s.runningOn p := by unfold State.runningOn State.eng State.cmd; rw [he, hd]
  have hclass (p : Nat) : t.engClass p = s.engClass p := by unfold State.engClass; rw [hrun]
  have hres (p : Nat) : t.reserved p = s.reserved p := by
    unfold State.reserved State.bit
    rw [hlogical, hrd Reg.DISP.CLASS2_ENG (by decide)]
  have hfloor (p : Nat) : t.engFloor p = s.engFloor p := by
    unfold State.engFloor State.fld
    rw [hclass, hres, hrd Reg.PWR.FLOORS (by decide)]
  have hmin (p : Nat) : t.minK p = s.minK p := by
    unfold State.minK State.stripeCode State.fld
    rw [hfloor, hrd Reg.CLK.STRIPE_FREQ (by decide)]
  have hat (p : Nat) : t.atFloor p = s.atFloor p := by unfold State.atFloor State.kOf; rw [hmin, hk]
  unfold State.allAtFloor State.bit
  rw [hrd Reg.PWR.PWR_STATUS (by decide), show (fun p => t.engClass p == 2 || t.atFloor p) = fun p => s.engClass p == 2 || s.atFloor p from
    funext fun p => by rw [hclass, hat]]

theorem capTaken_effect {s : State} (hs : keysRise s.regs) {fast : Nat} (hf : fast < 65536) (mean : Nat) (l : List Nat) (limit : Bool) :
    let t := (capTaken fast mean l limit).run s
    t.fld Reg.PWR.PKG_POWER 15 0 = fast ∧ t.allAtFloor = s.allAtFloor ∧
      t.hw = { s.hw with pwr := { s.hw.pwr with fasts := l, limit := limit } } ∧ SameRegs [Reg.PWR.PKG_POWER] s t ∧ SameRest s t := by
  have hframe := (show (capTaken fast mean l limit).Only (.regs [Reg.PWR.PKG_POWER]) by simp [capTaken]).frame s
  have hhw : ((capTaken fast mean l limit).run s).hw = { s.hw with pwr := { s.hw.pwr with fasts := l, limit := limit } } := rfl
  have hpkg : ((capTaken fast mean l limit).run s).rd Reg.PWR.PKG_POWER = BitVec.ofNat 32 (fast + 65536 * min mean 65535) :=
    rd_setReg_full (s := (Act.pwr fun x => { x with fasts := l, limit := limit }).run s) hs mask_power.2.2.1 _
  refine ⟨?_, allAtFloor_of (fun r hr => hframe.1 r (by simpa using hr)) rfl rfl rfl, hhw, hframe⟩
  rw [State.fld, hpkg]
  simp only [bits, BitVec.toNat_ofNat, Nat.shiftRight_zero]
  omega

/-- The registers a missed cap is told in. -/
def capToldRegs : List RegRef := [Reg.PWR.CAP_EVENTS, Reg.PWR.PWR_STATUS] ++ irqOf .PWR 0

theorem only_pwrTold {p : Scope} (j k : Nat) (h : ∀ r ∈ capToldRegs, p.reg r) (he : ∀ e, p.hw (Hw.setEdge e)) :
    (pwrRaise j).Only p ∧ (capEvent k).Only p :=
  ⟨only_raise (h _ (by simp [capToldRegs, irqOf])) (h _ (by simp [capToldRegs, irqOf])) he, (only_orReg _ _).2 (h _ (by simp [capToldRegs]))⟩

theorem only_fixedLost {p : Scope} (h : ∀ r ∈ capToldRegs, p.reg r) (he : ∀ e, p.hw (Hw.setEdge e)) : fixedLost.Only p := by
  obtain ⟨h1, h2⟩ := only_pwrTold 3 1 h he
  simp only [fixedLost, only_get, only_when]
  exact fun s _ => ⟨(only_setFld _ _ _ _).2 (h _ (by simp [capToldRegs])), h2, h1, trivial⟩

/-- An event of the cap once shown stays, and so does a source of the page. -/
theorem holds_capEvent (k m : Nat) (hm : m < 5) : (capEvent k).Holds fun s => s.bit Reg.PWR.CAP_EVENTS m = true := fun s hs h => by
  have hmask : (RegRef.mask Reg.PWR.CAP_EVENTS).getLsbD m = true := by rw [mask_power.2.2.2.2.1]; interval_cases m <;> rfl
  exact (bit_orReg hs _ hmask).trans ((congrArg (· || _) (show s.bit Reg.PWR.CAP_EVENTS m = true from h)).trans (Bool.true_or _))

theorem capEvent_sets {s : State} (hs : keysRise s.regs) {k : Nat} (hk : k < 5) : ((capEvent k).run s).bit Reg.PWR.CAP_EVENTS k = true := by
  have hmask : (RegRef.mask Reg.PWR.CAP_EVENTS).getLsbD k = true := by rw [mask_power.2.2.2.2.1]; interval_cases k <;> rfl
  rw [capEvent, bit_orReg hs _ hmask, getLsbD_ofNat_two_pow]
  simp [show k < 32 by omega]

theorem holds_pwrPend_raise (k m : Nat) : (pwrRaise k).Holds fun s => s.pend .PWR 0 m = true := fun _ hs h => bit_raise_mono hs (by decide) h

/-- What was told of the cap stays told when fixed-frequency mode is left. -/
theorem fixedLost_holds : (fixedLost.Holds fun s => s.bit Reg.PWR.CAP_EVENTS 0 = true) ∧ (∀ m, fixedLost.Holds fun s => s.pend .PWR 0 m = true) := by
  have hset (r : RegRef) (hr : r.key ≠ Reg.PWR.PWR_STATUS.key) (m : Nat) : (Act.setFld Reg.PWR.PWR_STATUS 3 3 0).Holds fun s => s.bit r m = true :=
    fun s hs h => (bit_of_rd (rd_setReg_ne (r := Reg.PWR.PWR_STATUS) _ (Ne.symm hr)) m).trans h
  refine ⟨.get fun s => .when fun _ => (hset _ (by decide) 0).cons ((holds_capEvent 1 0 (by decide)).cons (Act.Holds.cons (fun s hs h => ?_) holds_all_nil)),
    fun m => .get fun s => .when fun _ => (hset _ (by decide) m).cons (Act.Holds.cons (fun s hs h => ?_) ((holds_pwrPend_raise 3 m).cons holds_all_nil))⟩
  · exact (bit_of_rd (rd_raise_off (by simp) (by simp)) 0).trans h
  · exact (bit_of_rd (rd_setReg_off (r := Reg.PWR.CAP_EVENTS) (by simp)) m).trans h

theorem capMissTold_effect {s : State} (hs : keysRise s.regs) (fresh lost : Bool) (now : Nat) :
    let t := (capMissTold fresh lost now).run s
    t.bit Reg.PWR.CAP_EVENTS 0 = true ∧ (fresh = true → t.pend .PWR 0 0 = true) := by
  have hrun : (capMissTold fresh lost now).run s = (Act.when lost fixedLost).run
    ((Act.when fresh (.seq (.pwr fun x => { x with missAt := now }) (pwrRaise 0))).run ((capEvent 0).run s)) := rfl
  have h0 := capEvent_sets hs (k := 0) (by decide)
  have ha : keysRise ((capEvent 0).run s).regs := rise_run _ hs
  dsimp only
  rw [hrun]
  generalize (capEvent 0).run s = a at *
  have hb : keysRise ((Act.when fresh (.seq (.pwr fun x => { x with missAt := now }) (pwrRaise 0))).run a).regs := rise_run _ ha
  have h1 : ((Act.when fresh (.seq (.pwr fun x => { x with missAt := now }) (pwrRaise 0))).run a).bit Reg.PWR.CAP_EVENTS 0 = true := by
    rw [run_when]
    split
    · exact (bit_of_rd (rd_raise_off (by simp) (by simp)) 0).trans h0
    · exact h0
  have h2 (hf : fresh = true) : ((Act.when fresh (.seq (.pwr fun x => { x with missAt := now }) (pwrRaise 0))).run a).pend .PWR 0 0 = true := by
    rw [run_when, if_pos hf]
    exact bit_raise (s := (Act.pwr fun x => { x with missAt := now }).run a) ha (by decide) (by decide)
  exact ⟨Act.Holds.when (fun _ => fixedLost_holds.1) _ hb h1, fun hf => Act.Holds.when (fun _ => fixedLost_holds.2 0) _ hb (h2 hf)⟩

theorem only_capMissTold {p : Scope} (fresh lost : Bool) (now : Nat) (h : ∀ r ∈ capToldRegs, p.reg r) (he : ∀ e, p.hw (Hw.setEdge e))
    (hm : ∀ n, p.hw fun h => { h with pwr := { h.pwr with missAt := n } }) : (capMissTold fresh lost now).Only p := by
  obtain ⟨h1, h2⟩ := only_pwrTold 0 0 h he
  refine ⟨h2, (only_when _ _).2 fun _ => ⟨hm now, h1⟩, (only_when _ _).2 fun _ => only_fixedLost h he, trivial⟩

/-- What a missed cap raises, for the first time or again. -/
theorem capMissed_eq (s : State) : ∃ again lost, capMissed s = capMissTold (s.hw.pwr.miss.isNone || again) lost s.now := ⟨_, _, rfl⟩

theorem capMissed_effect {u : State} (hu : keysRise u.regs) (s : State) :
    ((capMissed s).run u).bit Reg.PWR.CAP_EVENTS 0 = true ∧ (s.hw.pwr.miss = none → ((capMissed s).run u).pend .PWR 0 0 = true) := by
  obtain ⟨again, lost, heq⟩ := capMissed_eq s
  rw [heq]
  obtain ⟨e1, e2⟩ := capMissTold_effect hu (s.hw.pwr.miss.isNone || again) lost s.now
  exact ⟨e1, fun hnone => e2 (by rw [hnone, Option.isNone_none, Bool.true_or])⟩

theorem only_capMissed {p : Scope} (s : State) (h : ∀ r ∈ capToldRegs, p.reg r) (he : ∀ e, p.hw (Hw.setEdge e))
    (hm : ∀ n, p.hw fun h => { h with pwr := { h.pwr with missAt := n } }) : (capMissed s).Only p := by
  obtain ⟨again, lost, heq⟩ := capMissed_eq s
  exact heq ▸ only_capMissTold _ _ _ h he hm

theorem capMiss_effect {s : State} (hs : keysRise s.regs) (excess : Bool) :
    let t := (capMiss excess).run s
    (excess = true → s.allAtFloor = true → t.bit Reg.PWR.CAP_EVENTS 0 = true ∧ t.hw.pwr.miss = some (s.hw.pwr.miss.getD s.now) ∧
      (s.hw.pwr.miss = none → t.pend .PWR 0 0 = true)) ∧
    (excess = false → t.hw.pwr.miss = none) ∧ t.hw.pwr.fasts = s.hw.pwr.fasts ∧ t.hw.pwr.limit = s.hw.pwr.limit ∧
      SameRegs capToldRegs s t ∧ SameRest s t := by
  have honly (b : Bool) : (Act.when b (capMissed s)).Only { reg := (· ∈ capToldRegs), hw := fun f => ∀ h : Hw,
      (f h).pwr.miss = h.pwr.miss ∧ (f h).pwr.fasts = h.pwr.fasts ∧ (f h).pwr.limit = h.pwr.limit } := by
    exact (only_when _ _).2 fun _ => only_capMissed s (fun _ h => h) (fun _ _ => ⟨rfl, rfl, rfl⟩) fun _ _ => ⟨rfl, rfl, rfl⟩
  dsimp only
  rw [capMiss, run_get, run_seq]
  generalize hmiss : (if excess && s.allAtFloor then some (s.hw.pwr.miss.getD s.now) else none) = m
  have h0 : ((Act.pwr fun x => { x with miss := m }).run s).hw.pwr.miss = m ∧
      ((Act.pwr fun x => { x with miss := m }).run s).hw.pwr.fasts = s.hw.pwr.fasts ∧
      ((Act.pwr fun x => { x with miss := m }).run s).hw.pwr.limit = s.hw.pwr.limit := ⟨rfl, rfl, rfl⟩
  have hregs : ((Act.pwr fun x => { x with miss := m }).run s).regs = s.regs := rfl
  have hrest : SameRest s ((Act.pwr fun x => { x with miss := m }).run s) := rest_hw _ s
  generalize (Act.pwr fun x => { x with miss := m }).run s = u at *
  obtain ⟨hm, hf, hl⟩ := h0
  have hu : keysRise u.regs := hregs ▸ hs
  generalize hb : (excess && s.allAtFloor) = b at hmiss ⊢
  have hon := honly b
  have hm' := (hon.hw (·.pwr.miss) (fun _ h x => (h x).1) u).trans (hm.trans hmiss.symm)
  refine ⟨fun h1 h2 => ?_, fun h1 => ?_, (hon.hw (·.pwr.fasts) (fun _ h x => (h x).2.1) u).trans hf,
    (hon.hw (·.pwr.limit) (fun _ h x => (h x).2.2) u).trans hl, ?_, hrest.trans (hon.sameRest id id id id id u)⟩
  · have hb1 : b = true := by rw [← hb, h1, h2]; rfl
    rw [hb1, if_pos rfl] at hm'
    rw [hb1]
    rw [run_when, if_pos rfl] at hm' ⊢
    obtain ⟨e1, e2⟩ := capMissed_effect hu s
    exact ⟨e1, hm', e2⟩
  · have hb0 : b = false := by rw [← hb, h1]; rfl
    rw [hm', hb0, if_neg Bool.false_ne_true]
  · exact fun r hr => (hon.sameRegs id (fun _ h => h) u r hr).trans (rd_of_regs hregs r)

/-- The rates of a step are block state: no register changes, nor what the cap keeps of itself. -/
theorem only_capRates (excess : Bool) (projected : Nat) : (capRates excess projected).Only
    { hw := fun f => ∀ h : Hw, (f h).pwr.miss = h.pwr.miss ∧ (f h).pwr.fasts = h.pwr.fasts ∧ (f h).pwr.limit = h.pwr.limit } := by
  have hk (f : PwrSt → PwrSt) (hf : ∀ x, (f x).miss = x.miss ∧ (f x).fasts = x.fasts ∧ (f x).limit = x.limit) : (Act.pwr f).Only
      { hw := fun f => ∀ h : Hw, (f h).pwr.miss = h.pwr.miss ∧ (f h).pwr.fasts = h.pwr.fasts ∧ (f h).pwr.limit = h.pwr.limit } := fun _ => hf _
  refine ⟨fun s => (only_when _ _).2 fun _ => ?_, (only_each _ _).2 fun _ _ _ => (only_when _ _).2 fun _ => hk _ fun _ => ⟨rfl, rfl, rfl⟩⟩
  split
  · intro s
    dsimp only
    split
    · exact hk _ fun _ => ⟨rfl, rfl, rfl⟩
    · intro s
      dsimp only
      split
      · exact hk _ fun _ => ⟨rfl, rfl, rfl⟩
      · trivial
  · split
    · trivial
    · split
      · intro s
        dsimp only
        split
        · exact hk _ fun _ => ⟨rfl, rfl, rfl⟩
        · trivial
      · exact (only_each _ _).2 fun _ _ => (only_when _ _).2 fun _ => hk _ fun _ => ⟨rfl, rfl, rfl⟩

/-- R591: a bit set in the same way in each of a row of registers. -/
theorem bit_each_setFld {f : Nat → RegRef} {n k v : Nat} (hm : ∀ j < n, (f j).mask.getLsbD k = true)
    (hk : ∀ i < n, ∀ j < n, i ≠ j → (f i).key ≠ (f j).key) {s : State} (hs : keysRise s.regs) {j : Nat} (hj : j < n) :
    ((Act.each (List.range n) fun j => .setFld (f j) k k v).run s).bit (f j) k = v.testBit 0 := by
  induction n with
  | zero => exact absurd hj (Nat.not_lt_zero _)
  | succ n ih =>
    rw [List.range_succ, run_each_append]
    have hr : keysRise ((Act.each (List.range n) fun j => .setFld (f j) k k v).run s).regs := rise_run _ hs
    by_cases h : j = n
    · subst h
      exact bit_setFld hr (hm j hj)
    · exact (bit_of_rd (rd_setReg_ne _ (hk n (by omega) j hj (Ne.symm h))) k).trans (ih (fun i hi => hm i (by omega))
        (fun i hi l hl => hk i (by omega) l (by omega)) (by omega))

theorem setOvr_effect {s : State} (hs : keysRise s.regs) :
    let t := setOvr.run s
    (∀ p, p < 36 → t.bit (Reg.ENG.DUMMY p) 24 = (s.bit Reg.PWR.IRL_CFG 20 || s.hw.pwr.limit || s.hw.pwr.miss.isSome)) ∧
      t.hw = s.hw ∧ SameRegs ((List.range 36).map Reg.ENG.DUMMY) s t ∧ SameRest s t := by
  have honly : setOvr.Only (.stores ((List.range 36).map Reg.ENG.DUMMY)) := by
    simp only [setOvr, only_get, only_each, only_setFld, stores_reg]
    exact fun _ p hp => List.mem_map_of_mem hp
  refine ⟨fun p hp => ?_, honly.stores s⟩
  rw [setOvr, run_get]
  refine (bit_each_setFld (f := Reg.ENG.DUMMY) (fun j hj => mask_dummy ⟨j, hj⟩) (fun i hi j hj hne => ?_) hs hp).trans ?_
  · simp only [RegRef.key, ne_eq]
    omega
  · cases s.bit Reg.PWR.IRL_CFG 20 || s.hw.pwr.limit || s.hw.pwr.miss.isSome <;> rfl

/-- Does a step count as throttled? -/
def State.throttled (s : State) : Bool := s.hw.pwr.limit || s.hw.pwr.miss.isSome || (List.range 36).any fun p => decide (s.kOf p < 24)

theorem capShown_effect {s : State} (hs : keysRise s.regs) :
    let t := capShown.run s
    t.bit Reg.PWR.PWR_STATUS 4 = s.throttled ∧ t.hw = s.hw ∧ SameRegs [Reg.PWR.PWR_STATUS, Reg.PWR.THROT_TIME] s t ∧ SameRest s t := by
  have honly : capShown.Only (.stores [Reg.PWR.PWR_STATUS, Reg.PWR.THROT_TIME]) := by simp [capShown]
  have hrun : capShown.run s = (Act.when s.throttled (.bump Reg.PWR.THROT_TIME 10)).run ((Act.setFld Reg.PWR.PWR_STATUS 4 4 (b2n s.throttled)).run s) := rfl
  refine ⟨?_, honly.stores s⟩
  rw [hrun]
  have hset := bit_setFld hs (v := b2n s.throttled) (k := 4) (r := Reg.PWR.PWR_STATUS) (by rw [mask_pwrStatus.1]; decide)
  generalize (Act.setFld Reg.PWR.PWR_STATUS 4 4 (b2n s.throttled)).run s = u at *
  have hsame := (show (Act.when s.throttled (.bump Reg.PWR.THROT_TIME 10)).Only (.regs [Reg.PWR.THROT_TIME]) by simp).frame u
  refine (bit_of_rd (hsame.1 _ (by decide)) 4).trans (hset.trans ?_)
  cases s.throttled <;> rfl

theorem capStep_effect {s : State} (hs : keysRise s.regs) (fast projected : BitVec 16) :
    let t := (capStepAct fast.toNat projected.toNat).run s
    t.fld Reg.PWR.PKG_POWER 15 0 = fast.toNat ∧
      t.hw.pwr.fasts = (fast.toNat :: s.hw.pwr.fasts).take (100 * max 1 (s.fld Reg.PWR.CAP 23 16)) ∧
      t.hw.pwr.limit = (decide (5 * s.capInForce < 4 * fast.toNat) || (s.hw.pwr.limit && decide (s.capInForce < fast.toNat))) ∧
      (s.capInForce < projected.toNat → s.allAtFloor = true →
        t.bit Reg.PWR.CAP_EVENTS 0 = true ∧ t.hw.pwr.miss = some (s.hw.pwr.miss.getD s.now) ∧ t.bit Reg.PWR.PWR_STATUS 4 = true ∧
        (s.hw.pwr.miss = none → t.pend .PWR 0 0 = true)) ∧
      (projected.toNat ≤ s.capInForce → s.hw.pwr.phaseOut = [] → t.hw.pwr.miss = none) ∧
      (∀ p, p < 36 → t.bit (Reg.ENG.DUMMY p) 24 =
        (s.bit Reg.PWR.IRL_CFG 20 || t.hw.pwr.limit || t.hw.pwr.miss.isSome)) ∧
      SameRegs ([Reg.PWR.PKG_POWER, Reg.PWR.CAP_EVENTS, Reg.PWR.PWR_STATUS, Reg.PWR.THROT_TIME] ++
        (List.range 36).map Reg.ENG.DUMMY ++ irqOf .PWR 0) s t ∧ SameRest s t := by
  obtain ⟨mean, hrun⟩ := capStep_run fast.toNat projected.toNat s
  dsimp only
  rw [hrun]
  have hexcess1 : s.capInForce < projected.toNat → s.capExcess projected.toNat = true := fun h => by
    rw [State.capExcess, decide_eq_true h, Bool.true_or]
  have hexcess0 : projected.toNat ≤ s.capInForce → s.hw.pwr.phaseOut = [] → s.capExcess projected.toNat = false := fun h h' => by
    rw [State.capExcess, decide_eq_false (by omega), h']
    rfl
  generalize s.capExcess projected.toNat = excess at *
  generalize (fast.toNat :: s.hw.pwr.fasts).take (100 * max 1 (s.fld Reg.PWR.CAP 23 16)) = l
  generalize (decide (5 * s.capInForce < 4 * fast.toNat) || (s.hw.pwr.limit && decide (s.capInForce < fast.toNat))) = limit
  obtain ⟨a1, a2, a3, a4, a5⟩ := capTaken_effect hs fast.isLt mean l limit
  have ha : keysRise ((capTaken fast.toNat mean l limit).run s).regs := rise_run _ hs
  generalize (capTaken fast.toNat mean l limit).run s = a at *
  have hmiss : a.hw.pwr.miss = s.hw.pwr.miss := congrArg (·.pwr.miss) a3
  have hnow : a.now = s.now := congrArg BitVec.toNat a5.tsc
  obtain ⟨b1, b2, b3, b4, b5, b6⟩ := capMiss_effect ha excess
  have hb : keysRise ((capMiss excess).run a).regs := rise_run _ ha
  generalize (capMiss excess).run a = b at *
  have hrates := only_capRates excess projected.toNat
  have c1 := hrates.hw (·.pwr.miss) (fun _ h x => (h x).1) b
  have c2 := hrates.hw (·.pwr.fasts) (fun _ h x => (h x).2.1) b
  have c3 := hrates.hw (·.pwr.limit) (fun _ h x => (h x).2.2) b
  have c4 := hrates.regs_eq (fun _ h => h) (fun h => h) b
  have c5 := hrates.sameRest id id id id id b
  generalize (capRates excess projected.toNat).run b = c at *
  have hc : keysRise c.regs := c4 ▸ hb
  have hbc : SameRegs [] b c := fun r _ => rd_of_regs c4 r
  obtain ⟨d1, d2, d3, d4⟩ := setOvr_effect hc
  have hd : keysRise (setOvr.run c).regs := rise_run _ hc
  generalize setOvr.run c = d at *
  obtain ⟨t1, t2, t3, t4⟩ := capShown_effect hd
  generalize capShown.run d = t at *
  have hoff : ∀ r : RegRef, r.off % 4096 ≠ 0x048 → r.key ∉ ((List.range 36).map Reg.ENG.DUMMY).map RegRef.key := fun r hr hk => by
    simp only [List.mem_map, List.mem_range] at hk
    obtain ⟨q, ⟨p, -, rfl⟩, hq⟩ := hk
    exact key_ne_of_off (by simpa using Ne.symm hr) hq
  have hct (r : RegRef) (h1 : r.off % 4096 ≠ 0x048) (h2 : r.key ∉ [Reg.PWR.PWR_STATUS, Reg.PWR.THROT_TIME].map RegRef.key) : t.rd r = b.rd r :=
    (t3 r h2).trans ((d3 r (hoff r h1)).trans (hbc r (by simp)))
  have hmissT : t.hw.pwr.miss = b.hw.pwr.miss := (congrArg (·.pwr.miss) t2).trans ((congrArg (·.pwr.miss) d2).trans c1)
  have hlimitC : c.hw.pwr.limit = limit := c3.trans (b4.trans (congrArg (·.pwr.limit) a3))
  have hlimitT : t.hw.pwr.limit = limit := (congrArg (·.pwr.limit) t2).trans ((congrArg (·.pwr.limit) d2).trans hlimitC)
  refine ⟨?_, (congrArg (·.pwr.fasts) t2).trans ((congrArg (·.pwr.fasts) d2).trans (c2.trans (b3.trans (congrArg (·.pwr.fasts) a3)))), hlimitT,
    fun h1 h2 => ?_, fun h1 h2 => hmissT.trans (b2 (hexcess0 h1 h2)), fun p hp => ?_, ?_, a5.trans (b6.trans (c5.trans (d4.trans t4)))⟩
  · exact (fld_of_rd ((hct _ (by decide) (by decide)).trans (b5 _ (by decide))) 15 0).trans a1
  · obtain ⟨e1, e2, e3⟩ := b1 (hexcess1 h1) (a2.trans h2)
    rw [hmiss, hnow] at e2
    refine ⟨(bit_of_rd (hct _ (by decide) (by decide)) 0).trans e1, hmissT.trans e2, t1.trans ?_,
      fun h => (bit_of_rd (hct _ (by decide) (by decide)) 0).trans (e3 (hmiss.trans h))⟩
    have hsome : d.hw.pwr.miss.isSome = true := by rw [d2, c1, e2]; rfl
    rw [State.throttled, hsome, Bool.or_true, Bool.true_or]
  · have hirl : c.bit Reg.PWR.IRL_CFG 20 = s.bit Reg.PWR.IRL_CFG 20 :=
      bit_of_rd ((hbc _ (by simp)).trans ((b5 _ (by decide)).trans (a4 _ (by decide)))) 20
    have hdt : t.rd (Reg.ENG.DUMMY p) = d.rd (Reg.ENG.DUMMY p) := t3.rd_off (by simp)
    rw [bit_of_rd hdt, d1 p hp, hirl, hmissT, hlimitT, ← c1, hlimitC]
  · refine (a4.mono ?_).trans ((b5.mono ?_).trans ((hbc.mono ?_).trans ((d3.mono ?_).trans (t3.mono ?_))))
    · simp
    · simp [capToldRegs, irqOf]
    · simp
    · intro r hr; simp [hr]
    · simp

/-! ### The issue limiter (R573, R589, R600) -/

/-- The slots of a window, and the dummy rows that fill it. -/
def irlSlots (t total : Nat) (fill : List (Nat × Nat)) : Act :=
  .seq (.pwr fun x => { x with slots := updAt (fun _ => total) t x.slots }) (.each fill fun (i, n) => .bump (Reg.ENG.DUMMY_CYC (9 * t + i)) n)

/-- The engines of a stripe that do not run class 2 commands. -/
def State.freeEngines (s : State) (t : Nat) : List Nat := (List.range 9).filter fun i => s.engClass (9 * t + i) != 2

/-- The slots wanted, once R600's limit of one in eight is applied (log entry 77). -/
def State.wantedSlots (s : State) (t : Nat) (wanted : List Nat) : List Nat :=
  wanted.zipIdx.map fun (w, i) => if s.hw.pwr.miss.isSome ∧ (s.freeEngines t).contains i then min w 8 else w

/-- The slots taken from the free engines. -/
def State.cutSlots (s : State) (t excess : Nat) (wanted : List Nat) : Nat :=
  sumNat (spread excess ((s.freeEngines t).reverse.map fun i => wanted.getD i 0))

theorem spread_zero (l : List Nat) : spread 0 l = List.replicate l.length 0 := by
  induction l with
  | nil => rfl
  | cons a l ih => rw [spread, Nat.zero_min, Nat.sub_zero, ih]; rfl

theorem sumNat_eq (l : List Nat) : sumNat l = l.sum := by
  have h (a : Nat) : l.foldl (· + ·) a = a + l.sum := by
    induction l generalizing a with
    | nil => rfl
    | cons b l ih => rw [List.foldl_cons, ih, List.sum_cons, Nat.add_assoc]
  exact (h 0).trans (Nat.zero_add _)

theorem sumNat_spread (n : Nat) (l : List Nat) : sumNat (spread n l) = min n (sumNat l) := by
  induction l generalizing n with
  | nil => simp [spread, sumNat_eq]
  | cons a l ih =>
    simp only [sumNat_eq, spread, List.sum_cons] at ih ⊢
    rw [ih]
    omega

theorem irlWindow_run {s : State} {st : Nat} {wanted : List Nat} {step : Nat} (hilim : s.bit Reg.VRC.VRC_STATUS 24 = false)
    (hon : ((s.bit Reg.PWR.IRL_CFG 20 || s.hw.pwr.limit) || s.hw.pwr.miss.isSome) = true)
    (hstep : (if s.bit Reg.PWR.IRL_CFG 20 || s.hw.pwr.limit then s.fld Reg.PWR.IRL_CFG 9 0 / (if s.hw.pwr.limit then 2 else 1) else 576) = step) :
    (irlWindowAct st wanted).run s =
      (irlSlots st (sumNat ((s.wantedSlots st wanted).take 9) -
          s.cutSlots st (sumNat ((s.wantedSlots st wanted).take 9) - (s.hw.pwr.slots.getD st 0 + step)) (s.wantedSlots st wanted) +
          sumNat (spread (s.hw.pwr.slots.getD st 0 - step - sumNat ((s.wantedSlots st wanted).take 9))
            ((s.freeEngines st).map fun i => 64 - (s.wantedSlots st wanted).getD i 0)))
        ((s.freeEngines st).zip (spread (s.hw.pwr.slots.getD st 0 - step - sumNat ((s.wantedSlots st wanted).take 9))
          ((s.freeEngines st).map fun i => 64 - (s.wantedSlots st wanted).getD i 0)))).run s := by
  subst hstep
  rw [irlWindowAct, run_get, if_neg (by rw [hilim]; exact Bool.false_ne_true), run_when, if_pos hon]
  rfl

theorem dummyCyc_row (p : Fin 36) : (RegRef.row (Reg.ENG.DUMMY_CYC p)).isSome = true ∧ RegRef.resetVal (Reg.ENG.DUMMY_CYC p) = 0 := by
  revert p; decide +kernel

/-- Counting nothing changes no register. -/
theorem sameRegs_bump_zero {s : State} (hs : s.sound) {r : RegRef} (hr : r.row.isSome) (h0 : r.resetVal = 0)
    (ho : r.off % 4096 ≠ 0x044 ∧ r.off % 4096 ≠ 0x048 ∧ ¬(0x0A0 ≤ r.off % 4096 ∧ r.off % 4096 < 0x0C0)) :
    SameRegs [] s ((Act.bump r 0).run s) := by
  have hrun : (Act.bump r 0).run s = s.setReg r (s.rd r) := by
    rw [Act.bump, run_get]
    dsimp only
    rw [if_pos (show (s.rd r).toNat + 0 < 4294967296 from (s.rd r).isLt)]
    exact congrArg (s.setReg r) (BitVec.ofNat_toNat .. |>.trans (BitVec.setWidth_eq _))
  rw [hrun]
  exact sameRegs_setReg_rd hs hr h0 ho

/-- A window without dummy rows stores its slots alone. -/
theorem irlSlots_effect {s : State} (hs : s.sound) (st : Fin 4) (hlen : s.hw.pwr.slots.length = 4) (total : Nat) (fill : List (Nat × Nat))
    (hfill : ∀ e ∈ fill, e.1 < 9 ∧ e.2 = 0) :
    let t := (irlSlots st total fill).run s
    t.hw.pwr.slots.getD st 0 = total ∧ SameRegs [] s t ∧ SameRest s t := by
  have heach : ∀ u : State, u.sound → SameRegs [] u ((Act.each fill fun (i, n) => .bump (Reg.ENG.DUMMY_CYC (9 * st + i)) n).run u) := by
    induction fill with
    | nil => exact fun _ _ _ _ => rfl
    | cons e l ih =>
      intro u hu
      obtain ⟨he1, he2⟩ := hfill e List.mem_cons_self
      have hrow := dummyCyc_row ⟨9 * st + e.1, by omega⟩
      have hfirst : SameRegs [] u ((Act.bump (Reg.ENG.DUMMY_CYC (9 * st + e.1)) e.2).run u) :=
        he2 ▸ sameRegs_bump_zero hu hrow.1 hrow.2 (by simp)
      exact hfirst.trans (ih (fun x hx => hfill x (List.mem_cons_of_mem _ hx)) _ (sound_run _ _ hu))
  have honly : (Act.each fill fun (i, n) => .bump (Reg.ENG.DUMMY_CYC (9 * st + i)) n).Only { reg := fun _ => True, hw := fun _ => False } :=
    (only_each _ _).2 fun e _ => (only_bump _ _).2 trivial
  have hslots : ((Act.pwr fun x => { x with slots := updAt (fun _ => total) st x.slots }).run s).hw.pwr.slots.getD st 0 = total := by
    rw [Act.pwr, run_hw, mapHw_hw]
    dsimp only
    rw [getD_updAt, if_pos (by omega)]
  have hsound : ((Act.pwr fun x => { x with slots := updAt (fun _ => total) st x.slots }).run s).sound := sound_run _ _ hs
  have hrest : SameRest s ((Act.pwr fun x => { x with slots := updAt (fun _ => total) st x.slots }).run s) := rest_hw _ s
  have hregs : ((Act.pwr fun x => { x with slots := updAt (fun _ => total) st x.slots }).run s).regs = s.regs := rfl
  dsimp only
  rw [irlSlots, run_seq]
  generalize (Act.pwr fun x => { x with slots := updAt (fun _ => total) st x.slots }).run s = u at *
  have hhw := honly.hw (fun h : Hw => h.pwr.slots.getD st 0) (fun _ h => h.elim) u
  exact ⟨hhw.trans hslots, (show SameRegs [] s u from fun r _ => rd_of_regs hregs r).trans (heach u hsound),
    hrest.trans (honly.sameRest id id id id id u)⟩

/-- R589: a window that wants no fewer slots than STEP below the last is cut to STEP above it. -/
theorem irlWindow_cut {s : State} (hs : s.sound) (st : Fin 4) (hlen : s.hw.pwr.slots.length = 4) {wanted : List Nat} {step : Nat}
    (hilim : s.bit Reg.VRC.VRC_STATUS 24 = false)
    (hon : ((s.bit Reg.PWR.IRL_CFG 20 || s.hw.pwr.limit) || s.hw.pwr.miss.isSome) = true)
    (hstep : (if s.bit Reg.PWR.IRL_CFG 20 || s.hw.pwr.limit then s.fld Reg.PWR.IRL_CFG 9 0 / (if s.hw.pwr.limit then 2 else 1) else 576) = step)
    (hlow : s.hw.pwr.slots.getD st 0 ≤ step + sumNat ((s.wantedSlots st wanted).take 9)) :
    let t := (irlWindowAct st wanted).run s
    t.hw.pwr.slots.getD st 0 = sumNat ((s.wantedSlots st wanted).take 9) -
        s.cutSlots st (sumNat ((s.wantedSlots st wanted).take 9) - (s.hw.pwr.slots.getD st 0 + step)) (s.wantedSlots st wanted) ∧
      SameRegs [] s t ∧ SameRest s t := by
  dsimp only
  rw [irlWindow_run hilim hon hstep, show s.hw.pwr.slots.getD st 0 - step - sumNat ((s.wantedSlots st wanted).take 9) = 0 by omega, spread_zero,
    sumNat_eq (List.replicate _ _), List.sum_replicate, smul_zero, Nat.add_zero]
  refine irlSlots_effect hs st hlen _ _ fun e he => ?_
  obtain ⟨h1, h2⟩ := List.of_mem_zip (show (e.1, e.2) ∈ _ from he)
  exact ⟨List.mem_range.1 (List.mem_filter.1 h1).1, List.eq_of_mem_replicate h2⟩

/-- Without a class 2 command every engine of the stripe is free. -/
theorem freeEngines_all {s : State} {st : Nat} (h : ∀ i, i < 9 → s.engClass (9 * st + i) ≠ 2) : s.freeEngines st = List.range 9 :=
  List.filter_eq_self.2 fun i hi => bne_iff_ne.2 (h i (List.mem_range.1 hi))

/-- Slots of engines not named are none. -/
theorem sum_getD_range (l : List Nat) (n : Nat) : ((List.range n).map fun i => l.getD i 0).sum = (l.take n).sum := by
  induction n generalizing l with
  | zero => simp
  | succ n ih =>
    cases l with
    | nil => simp
    | cons a l =>
      rw [List.range_succ_eq_map, List.map_cons, List.map_map, List.sum_cons, List.take_succ_cons, List.sum_cons]
      exact congrArg (a + ·) (ih l)

/-- With every engine free the whole excess is cut. -/
theorem cutSlots_all {s : State} {st : Nat} (h : ∀ i, i < 9 → s.engClass (9 * st + i) ≠ 2) (excess : Nat) (wanted : List Nat) :
    s.cutSlots st excess wanted = min excess (sumNat (wanted.take 9)) := by
  rw [State.cutSlots, sumNat_spread, freeEngines_all h, sumNat_eq, sumNat_eq, List.map_reverse, List.sum_reverse, sum_getD_range]

/-- Without a missed cap the slots wanted are those asked for. -/
theorem wantedSlots_none {s : State} (st : Nat) (wanted : List Nat) (h : s.hw.pwr.miss = none) : s.wantedSlots st wanted = wanted := by
  have hid : (fun (x : Nat × Nat) => if s.hw.pwr.miss.isSome ∧ (s.freeEngines st).contains x.2 then min x.1 8 else x.1) = Prod.fst :=
    funext fun x => if_neg (by rw [h]; simp)
  exact (congrArg (List.map · wanted.zipIdx) hid).trans (List.zipIdx_map_fst ..)

/-- With a missed cap every free engine asks for at most one slot in eight. -/
theorem wantedSlots_missed {s : State} {st : Nat} (wanted : List Nat) (hm : s.hw.pwr.miss ≠ none)
    (h : ∀ i, i < 9 → s.engClass (9 * st + i) ≠ 2) : (s.wantedSlots st wanted).take 9 = (wanted.take 9).map (min · 8) := by
  have hsome : s.hw.pwr.miss.isSome = true := Option.isSome_iff_ne_none.2 hm
  rw [State.wantedSlots, freeEngines_all h]
  refine List.ext_getElem (by simp) fun i h1 h2 => ?_
  have hi : i < 9 := by simp at h1; omega
  simp [hsome, hi]

/-! ### Temperature (R604, R605) -/

/-- The sensors' values taken, the hottest shown. -/
def thermTaken (l : List Int) : Act :=
  .seq (.pwr fun x => { x with temps := l }) (.wrN Reg.PWR.THERM_STATUS (uns 9 (hottest l).1 + 65536 * (hottest l).2))

/-- No stripe hotter than the boost limit asks for 1.4 GHz. -/
def boostOff (lim : Nat) : Act := .each (List.range 4) fun t => .get fun y =>
  .when (decide ((lim : Int) < y.stripeTemp t) && y.hw.pwr.want.getD t 0 == 2) (wantStripe t 1)

/-- Throttling begins, or goes on: a step down (R604). -/
def throttles (was : Bool) : Act := .seq (.when (!was) (.seq (pwrRaise 2) (capEvent 2))) lowerClocks

/-- What follows from the hottest sensor: it rose above the boost limit, stands at T_THR, above it. -/
def thermActs (warm atThr above was : Bool) (lim : Nat) : Act := .all
  [.when warm (pwrRaise 1), boostOff lim, .when atThr fixedLost, .when above (throttles was), .setFld Reg.PWR.PWR_STATUS 5 5 (b2n above)]

theorem run_all_eight (a b c d e f g h : Act) (s : State) :
    (Act.all [a, b, c, d, e, f, g, h]).run s = h.run ((Act.all [c, d, e, f, g]).run ((a.seq b).run s)) := rfl

theorem thermal_run (temps : List Int) (s : State) : ∃ atThr, (thermalAct temps).run s =
    (Act.when (decide ((s.fld Reg.PWR.THERM_CFG 23 16 : Int) ≤ (hottest ((temps ++ s.hw.pwr.temps.drop temps.length).take 48)).1)) (.event .thermalShut)).run
      ((thermActs (decide ((s.fld Reg.PWR.THERM_CFG 7 0 : Int) < (hottest ((temps ++ s.hw.pwr.temps.drop temps.length).take 48)).1) &&
          !decide ((s.fld Reg.PWR.THERM_CFG 7 0 : Int) < (hottest s.hw.pwr.temps).1)) atThr
          (decide ((s.fld Reg.PWR.THERM_CFG 15 8 : Int) < (hottest ((temps ++ s.hw.pwr.temps.drop temps.length).take 48)).1))
          (s.bit Reg.PWR.PWR_STATUS 5) (s.fld Reg.PWR.THERM_CFG 7 0)).run
        ((thermTaken ((temps ++ s.hw.pwr.temps.drop temps.length).take 48)).run s)) := by
  rw [thermalAct, run_get]
  dsimp only
  rw [run_all_eight]
  exact ⟨_, rfl⟩

/-- What the temperatures may change: the cap's registers, and block state but the sensors' values and the events. -/
def Scope.thermal : Scope := { reg := (· ∈ capToldRegs), hw := fun f => ∀ h : Hw, (f h).pwr.temps = h.pwr.temps ∧ (f h).events = h.events }

theorem thermal_pwr (f : PwrSt → PwrSt) (hf : ∀ x, (f x).temps = x.temps) : (Act.pwr f).Only .thermal := fun _ => ⟨hf _, rfl⟩

theorem thermal_told (j k : Nat) : (pwrRaise j).Only .thermal ∧ (capEvent k).Only .thermal :=
  only_pwrTold j k (fun _ h => h) fun _ _ => ⟨rfl, rfl⟩

/-- A step down is block state. -/
theorem lowerClocks_only : lowerClocks.Only { hw := fun f => ∀ h : Hw, (f h).pwr.temps = h.pwr.temps ∧ (f h).events = h.events } := by
  intro s
  dsimp only
  split
  · exact fun _ => ⟨rfl, rfl⟩
  · intro s
    dsimp only
    split
    · exact fun _ => ⟨rfl, rfl⟩
    · trivial

theorem boostOff_only (lim : Nat) : (boostOff lim).Only { hw := fun f => ∀ h : Hw, (f h).pwr.temps = h.pwr.temps ∧ (f h).events = h.events } :=
  (only_each _ _).2 fun _ _ _ => (only_when _ _).2 fun _ _ => ⟨rfl, rfl⟩

theorem thermal_throttles (was : Bool) : (throttles was).Only .thermal :=
  ⟨(only_when _ _).2 fun _ => thermal_told 2 2, lowerClocks_only.weaken (fun _ h => h.elim) fun _ h => h⟩

theorem thermal_acts (warm atThr above was : Bool) (lim : Nat) : (thermActs warm atThr above was lim).Only .thermal :=
  ⟨(only_when _ _).2 fun _ => (thermal_told 1 1).1, (boostOff_only lim).weaken (fun _ h => h.elim) fun _ h => h,
    (only_when _ _).2 fun _ => only_fixedLost (fun _ h => h) fun _ _ => ⟨rfl, rfl⟩, (only_when _ _).2 fun _ => thermal_throttles was,
    (only_setFld _ _ _ _).2 (show Reg.PWR.PWR_STATUS ∈ capToldRegs by decide), trivial⟩

/-- A program without registers keeps what is read in them. -/
theorem Act.Only.holds_bit {p : Scope} {a : Act} (h : a.Only p) (hp : ∀ r, ¬p.reg r) (hr : ¬p.reset) (r : RegRef) (k : Nat) :
    a.Holds fun s => s.bit r k = true := fun s _ hb => (bit_of_rd (rd_of_regs (h.regs_eq hp hr s) r) k).trans hb

/-- The interrupt once raised stays while the device throttles. -/
theorem throttles_holds (was : Bool) (m : Nat) : (throttles was).Holds fun s => s.pend .PWR 0 m = true :=
  .seq (.when fun _ => (holds_pwrPend_raise 2 m).seq fun s _ h => (bit_of_rd (rd_setReg_off (r := Reg.PWR.CAP_EVENTS) (by simp)) m).trans h)
    (lowerClocks_only.holds_bit (fun _ h => h) (fun h => h) _ m)

theorem throttles_effect {s : State} (hs : keysRise s.regs) :
    ((throttles false).run s).pend .PWR 0 2 = true ∧ ((throttles false).run s).bit Reg.PWR.CAP_EVENTS 2 = true := by
  have hu : keysRise ((pwrRaise 2).run s).regs := rise_run _ hs
  have hset := capEvent_sets hu (k := 2) (by decide)
  have hpend : ((capEvent 2).run ((pwrRaise 2).run s)).pend .PWR 0 2 = true :=
    (bit_of_rd (rd_setReg_off (r := Reg.PWR.CAP_EVENTS) (by simp)) 2).trans (bit_raise hs (by decide) (by decide))
  have hv : keysRise ((capEvent 2).run ((pwrRaise 2).run s)).regs := rise_run _ hu
  exact ⟨lowerClocks_only.holds_bit (fun _ h => h) (fun h => h) _ 2 _ hv hpend, lowerClocks_only.holds_bit (fun _ h => h) (fun h => h) _ 2 _ hv hset⟩

theorem thermActs_effect {s : State} (hs : keysRise s.regs) (warm atThr above was : Bool) (lim : Nat) :
    let t := (thermActs warm atThr above was lim).run s
    t.bit Reg.PWR.PWR_STATUS 5 = above ∧ (warm = true → t.pend .PWR 0 1 = true) ∧
      (above = true → was = false → t.pend .PWR 0 2 = true ∧ t.bit Reg.PWR.CAP_EVENTS 2 = true) := by
  have hrun : (thermActs warm atThr above was lim).run s = (Act.setFld Reg.PWR.PWR_STATUS 5 5 (b2n above)).run ((Act.when above (throttles was)).run
    ((Act.when atThr fixedLost).run ((boostOff lim).run ((Act.when warm (pwrRaise 1)).run s)))) := rfl
  have hwarm : warm = true → ((Act.when warm (pwrRaise 1)).run s).pend .PWR 0 1 = true := fun h => by
    rw [run_when, if_pos h]
    exact bit_raise hs (by decide) (by decide)
  dsimp only
  rw [hrun]
  have ha : keysRise ((Act.when warm (pwrRaise 1)).run s).regs := rise_run _ hs
  generalize (Act.when warm (pwrRaise 1)).run s = a at *
  have hb : keysRise ((boostOff lim).run a).regs := rise_run _ ha
  have hbw := fun h => (boostOff_only lim).holds_bit (fun _ h => h) (fun h => h) _ 1 a ha (hwarm h)
  generalize (boostOff lim).run a = b at *
  have hc : keysRise ((Act.when atThr fixedLost).run b).regs := rise_run _ hb
  have hcw := fun h => Act.Holds.when (b := atThr) (fun _ => fixedLost_holds.2 1) b hb (hbw h)
  generalize (Act.when atThr fixedLost).run b = c at *
  have hd : keysRise ((Act.when above (throttles was)).run c).regs := rise_run _ hc
  have hdw := fun h => Act.Holds.when (b := above) (fun _ => throttles_holds was 1) c hc (hcw h)
  have hdt : above = true → was = false → ((Act.when above (throttles was)).run c).pend .PWR 0 2 = true ∧
      ((Act.when above (throttles was)).run c).bit Reg.PWR.CAP_EVENTS 2 = true := fun h h' => by
    rw [run_when, if_pos h, h']
    exact throttles_effect hc
  generalize (Act.when above (throttles was)).run c = d at *
  have hkeep (r : RegRef) (hr : Reg.PWR.PWR_STATUS.key ≠ r.key) (k : Nat) :
      ((Act.setFld Reg.PWR.PWR_STATUS 5 5 (b2n above)).run d).bit r k = d.bit r k := bit_of_rd (rd_setReg_ne (r := Reg.PWR.PWR_STATUS) _ hr) k
  refine ⟨?_, fun h => (hkeep _ (by decide) 1).trans (hdw h), fun h h' => ⟨(hkeep _ (by decide) 2).trans (hdt h h').1, (hkeep _ (by decide) 2).trans (hdt h h').2⟩⟩
  rw [bit_setFld hd (by rw [mask_pwrStatus.1]; decide)]
  cases above <;> rfl

theorem uns_lt (k : Nat) (x : Int) : uns k x < 2 ^ k := by
  have hlt := Int.emod_lt_of_pos x (b := ((2 ^ k : Nat) : Int)) (by exact_mod_cast Nat.two_pow_pos k)
  have hge := Int.emod_nonneg x (b := ((2 ^ k : Nat) : Int)) (by exact_mod_cast (Nat.two_pow_pos k).ne')
  unfold uns
  omega

theorem thermTaken_effect {s : State} (hs : keysRise s.regs) (l : List Int) :
    let t := (thermTaken l).run s
    t.fld Reg.PWR.THERM_STATUS 8 0 = uns 9 (hottest l).1 ∧ t.hw = { s.hw with pwr := { s.hw.pwr with temps := l } } ∧
      SameRegs [Reg.PWR.THERM_STATUS] s t ∧ SameRest s t := by
  have hframe := (show (thermTaken l).Only (.regs [Reg.PWR.THERM_STATUS]) by simp [thermTaken]).frame s
  refine ⟨?_, rfl, hframe⟩
  have hrd : ((thermTaken l).run s).rd Reg.PWR.THERM_STATUS = BitVec.ofNat 32 (uns 9 (hottest l).1 + 65536 * (hottest l).2) &&&
      RegRef.mask Reg.PWR.THERM_STATUS := rd_setReg_same (s := (Act.pwr fun x => { x with temps := l }).run s) hs _ _
  have hlt : uns 9 (hottest l).1 < 512 := uns_lt 9 _
  rw [State.fld, hrd, bits_and_mask _ _ (by rw [mask_power.2.2.2.2.2]; decide)]
  simp only [bits, BitVec.toNat_ofNat, Nat.shiftRight_zero]
  omega

theorem thermal_effect {s : State} (hs : keysRise s.regs) (temps : List Int) :
    let l := (temps ++ s.hw.pwr.temps.drop temps.length).take 48
    let h := (hottest l).1
    let t := (thermalAct temps).run s
    t.hw.pwr.temps = l ∧
      t.fld Reg.PWR.THERM_STATUS 8 0 = uns 9 h ∧
      t.bit Reg.PWR.PWR_STATUS 5 = decide ((s.fld Reg.PWR.THERM_CFG 15 8 : Int) < h) ∧
      ((s.fld Reg.PWR.THERM_CFG 7 0 : Int) < h → (hottest s.hw.pwr.temps).1 ≤ (s.fld Reg.PWR.THERM_CFG 7 0 : Int) →
        t.pend .PWR 0 1 = true) ∧
      ((s.fld Reg.PWR.THERM_CFG 15 8 : Int) < h → s.bit Reg.PWR.PWR_STATUS 5 = false →
        t.pend .PWR 0 2 = true ∧ t.bit Reg.PWR.CAP_EVENTS 2 = true) ∧
      t.hw.events = s.hw.events ++ (if (s.fld Reg.PWR.THERM_CFG 23 16 : Int) ≤ h then [.thermalShut] else []) ∧
      SameRegs ([Reg.PWR.THERM_STATUS, Reg.PWR.PWR_STATUS, Reg.PWR.CAP_EVENTS] ++ irqOf .PWR 0) s t ∧ SameRest s t := by
  obtain ⟨atThr, hrun⟩ := thermal_run temps s
  dsimp only
  rw [hrun]
  generalize (temps ++ s.hw.pwr.temps.drop temps.length).take 48 = l
  obtain ⟨a1, a2, a3, a4⟩ := thermTaken_effect hs l
  have ha : keysRise ((thermTaken l).run s).regs := rise_run _ hs
  generalize (thermTaken l).run s = a at *
  generalize hw : (decide ((s.fld Reg.PWR.THERM_CFG 7 0 : Int) < (hottest l).1) && !decide ((s.fld Reg.PWR.THERM_CFG 7 0 : Int) < (hottest s.hw.pwr.temps).1)) = warm
  have hacts := thermal_acts warm atThr (decide ((s.fld Reg.PWR.THERM_CFG 15 8 : Int) < (hottest l).1)) (s.bit Reg.PWR.PWR_STATUS 5) (s.fld Reg.PWR.THERM_CFG 7 0)
  obtain ⟨b1, b2, b3⟩ := thermActs_effect ha warm atThr (decide ((s.fld Reg.PWR.THERM_CFG 15 8 : Int) < (hottest l).1)) (s.bit Reg.PWR.PWR_STATUS 5)
    (s.fld Reg.PWR.THERM_CFG 7 0)
  have b4 := hacts.hw (·.pwr.temps) (fun _ h x => (h x).1) a
  have b5 := hacts.hw (·.events) (fun _ h x => (h x).2) a
  have b6 := hacts.sameRegs id (fun _ h => h) a
  have b7 := hacts.sameRest id id id id id a
  generalize (thermActs warm atThr (decide ((s.fld Reg.PWR.THERM_CFG 15 8 : Int) < (hottest l).1)) (s.bit Reg.PWR.PWR_STATUS 5)
    (s.fld Reg.PWR.THERM_CFG 7 0)).run a = b at *
  have hend : ∀ p : Bool, ((Act.when p (.event .thermalShut)).run b).regs = b.regs ∧ ((Act.when p (.event .thermalShut)).run b).hw.pwr = b.hw.pwr ∧
      ((Act.when p (.event .thermalShut)).run b).hw.events = b.hw.events ++ (if p = true then [.thermalShut] else []) ∧
      SameRest b ((Act.when p (.event .thermalShut)).run b) := fun p => by
    cases p
    · exact ⟨rfl, rfl, (List.append_nil _).symm, rfl, rfl, rfl, rfl, rfl⟩
    · exact ⟨rfl, rfl, rfl, rest_hw _ b⟩
  obtain ⟨t1, t2, t3, t4⟩ := hend (decide ((s.fld Reg.PWR.THERM_CFG 23 16 : Int) ≤ (hottest l).1))
  generalize (Act.when (decide ((s.fld Reg.PWR.THERM_CFG 23 16 : Int) ≤ (hottest l).1)) (.event .thermalShut)).run b = t at *
  have hbit (r : RegRef) (k : Nat) : t.bit r k = b.bit r k := bit_of_rd (rd_of_regs t1 r) k
  refine ⟨(congrArg (·.temps) t2).trans (b4.trans (congrArg (·.pwr.temps) a2)),
    (fld_of_rd ((rd_of_regs t1 _).trans (b6 _ (by decide))) 8 0).trans a1, (hbit _ _).trans b1, fun h1 h2 => (hbit _ _).trans (b2 ?_), fun h1 h2 => ?_,
    ?_, ?_, a4.trans (b7.trans t4)⟩
  · rw [← hw, decide_eq_true h1, decide_eq_false (by omega)]
    rfl
  · obtain ⟨e1, e2⟩ := b3 (decide_eq_true h1) h2
    exact ⟨(hbit _ _).trans e1, (hbit _ _).trans e2⟩
  · rw [t3, b5, a2]
    simp only [decide_eq_true_eq]
  · exact (a3.mono (by simp)).trans ((b6.mono (by simp [capToldRegs, irqOf])).trans fun r _ => rd_of_regs t1 r)

/-- Settles O52: clocks, PLLs, the reference, power, the cap, the issue limiter and temperature. -/
theorem clocksAndCap : Obligations.ClocksAndCap := by
  unfold Obligations.ClocksAndCap
  refine ⟨fun s st code hl => ⟨fun h h' => ⟨_, command_eq hl.2, stripeFreq_effect hl.1.1.1 st code h h'⟩, fun h => ?_⟩,
    fun s pll hl => ⟨_, command_eq hl.2, pllLoss_effect hl.1.1.1 pll⟩,
    fun s ppm aon hl h => ⟨_, command_eq hl.2, refCheck_effect hl.1.1.1 ppm aon h⟩,
    fun s _ iout other hl => ⟨⟨_, command_eq hl.2, powerEstimate_effect hl.1.1.1 iout.toNat other.toNat⟩,
      fun h => ⟨_, simply_eq hl.2, estCorr_effect hl.1.1.1 h⟩, fun h => ?_⟩,
    fun s fast projected hl => ⟨_, command_eq hl.2, capStep_effect hl.1.1.1 fast projected⟩, fun s st wanted hl hlen => ?_,
    fun s temps hs => ⟨fun h => ⟨_, always_eq _ s, ?_⟩, fun h => ⟨_, always_eq _ s, ?_⟩⟩⟩
  · refine (command_eq hl.2).trans (congrArg (fun t : State => Host.Outcome.next t.settled) ?_)
    rw [stripeFreqAct, run_get, run_when, if_neg (by rw [beq_eq_false_iff_ne.2 h]; exact Bool.false_ne_true)]
  · refine (simply_eq hl.2).trans (congrArg _ ?_)
    rw [estCorrAct, run_get]
    dsimp only
    rw [run_when, h]
    rfl
  · refine ⟨fun hilim => ⟨fun hm hon => ⟨fun hup hlow => ⟨_, simply_eq hl.2, ?_⟩, fun hup hcls => ⟨_, simply_eq hl.2, ?_⟩⟩,
      fun hm hoff hprev hcls => ⟨_, simply_eq hl.2, ?_⟩, fun hm hoff => ?_⟩, fun hilim hcls => ⟨_, simply_eq hl.2, ?_⟩⟩
    · have hw := wantedSlots_none st wanted hm
      generalize hstep : s.fld Reg.PWR.IRL_CFG 9 0 / (if s.hw.pwr.limit then 2 else 1) = step at *
      obtain ⟨e1, e2, e3⟩ := irlWindow_cut hl.1 st hlen (wanted := wanted) hilim (by rw [hon]; rfl) ((if_pos hon).trans hstep) (by rw [hw]; omega)
      rw [hw, State.cutSlots, sumNat_spread] at e1
      exact ⟨by rw [e1]; omega, e2, e3⟩
    · have hw := wantedSlots_none st wanted hm
      generalize hstep : s.fld Reg.PWR.IRL_CFG 9 0 / (if s.hw.pwr.limit then 2 else 1) = step at *
      obtain ⟨e1, e2, e3⟩ := irlWindow_cut hl.1 st hlen (wanted := wanted) hilim (by rw [hon]; rfl) ((if_pos hon).trans hstep) (by rw [hw]; omega)
      rw [hw, cutSlots_all hcls] at e1
      exact ⟨by rw [e1]; omega, e2, e3⟩
    · have hw := wantedSlots_missed wanted hm hcls
      have hsum : sumNat ((wanted.take 9).map (min · 8)) ≤ 72 := by
        rw [sumNat_eq]
        refine (List.sum_le_card_nsmul _ 8 fun x hx => ?_).trans ?_
        · obtain ⟨y, -, rfl⟩ := List.mem_map.1 hx
          omega
        · simp only [List.length_map, List.length_take, smul_eq_mul]
          omega
      obtain ⟨e1, -, e3⟩ := irlWindow_cut hl.1 st hlen (wanted := wanted) hilim (by rw [Option.isSome_iff_ne_none.2 hm, Bool.or_true])
        (if_neg (by rw [hoff]; exact Bool.false_ne_true)) (by omega)
      rw [cutSlots_all hcls, hw] at e1
      exact ⟨by rw [e1]; omega, e3⟩
    · refine (simply_eq hl.2).trans (congrArg _ ?_)
      rw [irlWindowAct, run_get, if_neg (by rw [hilim]; exact Bool.false_ne_true), run_when]
      dsimp only
      rw [if_neg (by rw [hoff, hm]; exact Bool.false_ne_true)]
    · rw [irlWindowAct, run_get, if_pos hilim]
      refine ⟨?_, fun _ _ => rfl, rest_hw _ s⟩
      have hzero : sumNat ((List.range 9).map fun i => if s.engClass (9 * (st : Nat) + i) = 2 then wanted.getD i 0 else 0) = 0 := by
        rw [show ((List.range 9).map fun i => if s.engClass (9 * (st : Nat) + i) = 2 then wanted.getD i 0 else 0) = (List.range 9).map fun _ => 0 from
          List.map_congr_left fun i hi => if_neg (hcls i (List.mem_range.1 hi))]
        decide
      rw [hzero, Act.pwr, run_hw, mapHw_hw]
      dsimp only
      rw [getD_updAt, if_pos (by omega)]
  · rw [run_get, if_pos h]
    exact ⟨rfl, rfl, rest_hw _ s⟩
  · rw [run_get, if_neg (by rw [h]; exact Bool.false_ne_true)]
    exact thermal_effect hs.1.1 temps

end Sys2Proof.Machine

/-! ## Proofs: power shifting, power states, memory controllers (O53) -/

namespace Sys2Proof.Machine

-- One theorem after the other: elaborated side by side, they hold more threads than the memory limit of a check allows.
set_option Elab.async false

/-! ### What the registers hold -/

theorem mask_grpStatus : RegRef.mask Reg.PWR.GRP_STATUS = 0x01FF01FF := by decide +kernel
theorem mask_memc (m : Fin 8) : RegRef.mask (Reg.MEMC.MEMC_STATUS m) = 0xFFF0F ∧ RegRef.mask (Reg.MEMC.ECC_CNT m) = 0xFFFFFFFF ∧
    RegRef.mask (Reg.MEMC.ERR_ADDR_LO m) = 0xFFFFFFFF ∧ RegRef.mask (Reg.MEMC.ERR_ADDR_HI m) = 0xFFFFFFFF ∧
    RegRef.mask (Reg.MEMC.RETRAIN_CNT m) = 0xFFFFFFFF := by revert m; decide +kernel
theorem memcInject_row (m : Fin 8) : (RegRef.row (Reg.MEMC.INJECT m)).isSome = true ∧ RegRef.resetVal (Reg.MEMC.INJECT m) = 0 := by
  revert m; decide +kernel
theorem mask_hdrStatus {b : Blk} {i : Nat} (h : i < b.count) : RegRef.mask (Reg.HDR.STATUS b i) = 0x1F := by
  simp [RegRef.mask, RegRef.row, rowAt, h, headerRows, RegRow.holds]

/-! ### Power shifting (R608 to R610) -/

theorem urgency_le (s : State) : s.urgency ≤ 255 := Nat.min_le_left _ _

theorem shiftReport_effect {s : State} (hs : keysRise s.regs) (need : BitVec 9) (hon : s.bit Reg.PWR.PWR_CTRL 3 = true)
    (hfol : s.fld Reg.TSC.TSC_STATUS 3 2 = 1) :
    let t := (shiftReportAct need.toNat).run s
    t.fld Reg.PWR.GRP_STATUS 23 16 = s.urgency ∧
      t.out = s.out ++ [.flit (s.fld Reg.LINK.DEV_STATUS 18 16) "POWER_REPORT" (leBytes 2 (min need.toNat (s.fld Reg.PWR.CAP 8 0)) ++
        leBytes 2 (s.fld Reg.PWR.GRP_CFG 24 16) ++ leBytes 1 s.urgency)] ∧
      SameRegs [Reg.PWR.GRP_STATUS] s t ∧ t.mem = s.mem ∧ t.es = s.es ∧ t.tsc = s.tsc ∧ t.hw = s.hw := by
  have hrun : (shiftReportAct need.toNat).run s =
      (Act.out (.flit (s.fld Reg.LINK.DEV_STATUS 18 16) "POWER_REPORT" (leBytes 2 (min need.toNat (s.fld Reg.PWR.CAP 8 0)) ++
        leBytes 2 (s.fld Reg.PWR.GRP_CFG 24 16) ++ leBytes 1 s.urgency))).run ((Act.setFld Reg.PWR.GRP_STATUS 23 16 s.urgency).run s) := by
    rw [shiftReportAct, run_get, run_when, if_pos hon, run_seq, run_when, if_pos (by rw [hfol]; rfl)]
  obtain ⟨h1, h2, h3⟩ := (show (Act.setFld Reg.PWR.GRP_STATUS 23 16 s.urgency).Only (.stores [Reg.PWR.GRP_STATUS]) by simp).stores s
  have hfld : ((Act.setFld Reg.PWR.GRP_STATUS 23 16 s.urgency).run s).fld Reg.PWR.GRP_STATUS 23 16 = s.urgency := by
    have hle := urgency_le s
    exact (fld_setFld_same hs _ _ (by decide) (by rw [mask_grpStatus]; decide)).trans (Nat.mod_eq_of_lt (by omega))
  dsimp only
  rw [hrun]
  generalize (Act.setFld Reg.PWR.GRP_STATUS 23 16 s.urgency).run s = u at *
  exact ⟨hfld, congrArg (· ++ _) h3.out, h2, h3.mem, h3.es, h3.tsc, h1⟩

theorem allocation_effect {s : State} (hs : keysRise s.regs) (w : BitVec 9) (hon : s.bit Reg.PWR.PWR_CTRL 3 = true) :
    let t := (allocationAct w.toNat).run s
    t.fld Reg.PWR.GRP_STATUS 8 0 = w.toNat ∧ t.bit Reg.PWR.GRP_STATUS 24 = true ∧
      t.hw.pwr.allocAt = s.now ∧ SameRegs [Reg.PWR.GRP_STATUS] s t ∧ SameRest s t := by
  have hrun : (allocationAct w.toNat).run s = (Act.pwr fun x => { x with allocAt := s.now }).run
      ((Act.modReg Reg.PWR.GRP_STATUS fun x => setBits (setBits x 8 0 w.toNat) 24 24 1).run s) := by
    rw [allocationAct, run_get, run_when, if_pos hon, run_seq]
  have hframe := (show (Act.modReg Reg.PWR.GRP_STATUS fun x => setBits (setBits x 8 0 w.toNat) 24 24 1).Only (.regs [Reg.PWR.GRP_STATUS]) by simp).frame s
  have hrd : ((Act.modReg Reg.PWR.GRP_STATUS fun x => setBits (setBits x 8 0 w.toNat) 24 24 1).run s).rd Reg.PWR.GRP_STATUS =
      setBits (setBits (s.rd Reg.PWR.GRP_STATUS) 8 0 w.toNat) 24 24 1 &&& RegRef.mask Reg.PWR.GRP_STATUS := rd_setReg_same hs _ _
  dsimp only
  rw [hrun]
  generalize (Act.modReg Reg.PWR.GRP_STATUS fun x => setBits (setBits x 8 0 w.toNat) 24 24 1).run s = u at *
  refine ⟨?_, ?_, rfl, hframe.1, hframe.2.trans (rest_hw _ u)⟩
  · refine (congrArg (bits · 8 0) hrd).trans ?_
    rw [bits_and_mask _ _ (by rw [mask_grpStatus]; decide), bits_setBits_other _ _ (.inl (by decide)), bits_setBits_same _ _ (by decide)]
    exact Nat.mod_eq_of_lt w.isLt
  · refine (congrArg (BitVec.getLsbD · 24) hrd).trans ?_
    rw [BitVec.getLsbD_and, getLsbD_setBits, if_pos (by decide), mask_grpStatus]
    rfl

theorem mem_insertBy {α : Type} {lt : α → α → Bool} {a x : α} {l : List α} : x ∈ insertBy lt a l ↔ x = a ∨ x ∈ l := by
  induction l with
  | nil => simp [insertBy]
  | cons b l ih =>
    rw [insertBy]
    split
    · simp
    · rw [List.mem_cons, ih, List.mem_cons]
      exact or_left_comm

theorem mem_sortBy {α : Type} {lt : α → α → Bool} {x : α} {l : List α} : x ∈ sortBy lt l ↔ x ∈ l := by
  have h (r : List α) : x ∈ l.foldl (fun r a => insertBy lt a r) r ↔ x ∈ r ∨ x ∈ l := by
    induction l generalizing r with
    | nil => simp
    | cons a l ih =>
      rw [List.foldl_cons, ih, mem_insertBy, List.mem_cons, or_comm (a := x = a), or_assoc]
  exact (h []).trans (by simp)

/-- How much is given on top of the floors, one device after the other. -/
def giveOut (acc : List (PowerReport × Nat) × Nat) (x : PowerReport × Nat) : List (PowerReport × Nat) × Nat :=
  (acc.1 ++ [(x.1, x.2 + min acc.2 (x.1.need.toNat - x.2))], acc.2 - min acc.2 (x.1.need.toNat - x.2))

theorem giveOut_devices (order : List (PowerReport × Nat)) (acc : List (PowerReport × Nat) × Nat) :
    ∀ x ∈ (order.foldl giveOut acc).1, x ∈ acc.1 ∨ ∃ y ∈ order, x.1 = y.1 := by
  induction order generalizing acc with
  | nil => exact fun x hx => .inl hx
  | cons y l ih =>
    intro x hx
    rcases ih (giveOut acc y) x hx with h | ⟨z, hz, he⟩
    · rcases List.mem_append.1 h with h | h
      · exact .inl h
      · exact .inr ⟨y, List.mem_cons_self, by rw [List.mem_singleton.1 h]⟩
    · exact .inr ⟨z, List.mem_cons_of_mem _ hz, he⟩

/-- R609: allocations go to devices that reported. -/
theorem allocate_devices (budget : Nat) (l : List PowerReport) : ∀ x ∈ allocate budget l, ∃ r ∈ l, x.1 = r.dev.toNat := by
  intro x hx
  unfold allocate at hx
  dsimp only at hx
  split at hx
  · obtain ⟨r, hr, rfl⟩ := List.mem_map.1 hx
    exact ⟨r, hr, rfl⟩
  · obtain ⟨y, hy, rfl⟩ := List.mem_map.1 hx
    rcases giveOut_devices _ _ y (mem_sortBy.1 hy) with h | ⟨z, hz, he⟩
    · exact absurd h List.not_mem_nil
    · obtain ⟨r, hr, rfl⟩ := List.mem_map.1 (mem_sortBy.1 hz)
      exact ⟨r, hr, congrArg (·.dev.toNat) he⟩

/-- The message that carries an allocation. -/
def allocationFlit (x : Nat × Nat) : Out := .flit x.1 "POWER_ALLOCATION" (leBytes 2 x.2)

/-- Allocations for other devices go out one by one. -/
theorem sendAllocations (n : Nat) (l : List (Nat × Nat)) (h : ∀ x ∈ l, x.1 ≠ n) (s : State) :
    (Act.each l fun (d, w) => if d = n then allocationAct w else .out (.flit d "POWER_ALLOCATION" (leBytes 2 w))).run s =
      { s with out := s.out ++ l.map allocationFlit } := by
  induction l generalizing s with
  | nil => simp [Act.each, Act.all]
  | cons x l ih =>
    have hx : (if x.1 = n then allocationAct x.2 else .out (.flit x.1 "POWER_ALLOCATION" (leBytes 2 x.2))) = Act.out (allocationFlit x) :=
      if_neg (h x List.mem_cons_self)
    rw [Act.each, List.map_cons, Act.all, run_seq, ← Act.each]
    dsimp only
    rw [hx, ih (fun y hy => h y (List.mem_cons_of_mem _ hy))]
    simp [Act.out, Upd.apply]

theorem shiftAllocate_effect {s : State} (hs : keysRise s.regs) (l : List PowerReport) (hon : s.bit Reg.PWR.PWR_CTRL 3 = true)
    (hmaster : s.fld Reg.TSC.TSC_STATUS 3 2 = 2) (hown : ∀ r ∈ l, r.dev.toNat ≠ s.devNum) :
    let t := (shiftAllocateAct l).run s
    t.out = s.out ++ (allocate (s.fld Reg.PWR.GRP_CFG 11 0) l).map (fun x => .flit x.1 "POWER_ALLOCATION" (leBytes 2 x.2)) ∧
      (s.fld Reg.PWR.GRP_CFG 11 0 < sumNat (l.map fun r => r.floor.toNat) → t.pend .PWR 0 4 = true) ∧
      SameRegs (irqOf .PWR 0) s t ∧ t.mem = s.mem ∧ t.es = s.es ∧ t.tsc = s.tsc := by
  dsimp only
  rw [shiftAllocateAct, run_get]
  dsimp only
  rw [run_when, if_pos (by rw [hon, hmaster]; rfl), run_seq]
  generalize s.fld Reg.PWR.GRP_CFG 11 0 = budget
  have hq : Quiet (irqOf .PWR 0) s ((Act.when (decide (budget < sumNat (l.map fun r => r.floor.toNat))) (pwrRaise 4)).run s) :=
    Act.Only.quiet ((only_when _ _).2 fun _ => only_raise (by simp [irqOf]) (by simp [irqOf]) (by simp)) s
  have hraised : budget < sumNat (l.map fun r => r.floor.toNat) →
      ((Act.when (decide (budget < sumNat (l.map fun r => r.floor.toNat))) (pwrRaise 4)).run s).pend .PWR 0 4 = true := fun h => by
    rw [run_when, if_pos (decide_eq_true h)]
    exact bit_raise hs (by decide) (by decide)
  generalize (Act.when (decide (budget < sumNat (l.map fun r => r.floor.toNat))) (pwrRaise 4)).run s = u at *
  have hsent := sendAllocations s.devNum (allocate budget l) (fun x hx => by
    obtain ⟨r, hr, he⟩ := allocate_devices budget l x hx
    rw [he]
    exact hown r hr) u
  rw [hsent]
  exact ⟨congrArg (· ++ _) hq.out, hraised, hq.regs, hq.mem, hq.es, hq.tsc⟩

theorem allocationTimeout_effect {s : State} (hs : keysRise s.regs) (h : s.bit Reg.PWR.GRP_STATUS 24 = true)
    (h' : s.hw.pwr.allocAt + 3000000 ≤ s.now) :
    let t := allocationTimeoutAct.run s
    t.bit Reg.PWR.GRP_STATUS 24 = false ∧ t.pend .PWR 0 4 = true ∧ t.bit Reg.PWR.CAP_EVENTS 3 = true ∧
      Quiet ([Reg.PWR.GRP_STATUS, Reg.PWR.CAP_EVENTS] ++ irqOf .PWR 0) s t := by
  have hrun : allocationTimeoutAct.run s = (capEvent 3).run ((pwrRaise 4).run ((Act.setFld Reg.PWR.GRP_STATUS 24 24 0).run s)) := by
    rw [allocationTimeoutAct, run_get, run_when, if_pos (by rw [h, decide_eq_true h']; rfl)]
    rfl
  have hq : (Act.all [.setFld Reg.PWR.GRP_STATUS 24 24 0, pwrRaise 4, capEvent 3]).Only (.quiet ([Reg.PWR.GRP_STATUS, Reg.PWR.CAP_EVENTS] ++ irqOf .PWR 0)) :=
    ⟨by simp, only_raise (by simp [irqOf]) (by simp [irqOf]) (by simp), (only_orReg _ _).2 (by simp), trivial⟩
  have hquiet : Quiet ([Reg.PWR.GRP_STATUS, Reg.PWR.CAP_EVENTS] ++ irqOf .PWR 0) s
      ((capEvent 3).run ((pwrRaise 4).run ((Act.setFld Reg.PWR.GRP_STATUS 24 24 0).run s))) := hq.quiet s
  have hclear := bit_setFld hs (v := 0) (k := 24) (r := Reg.PWR.GRP_STATUS) (by rw [mask_grpStatus]; decide)
  have ha : keysRise ((Act.setFld Reg.PWR.GRP_STATUS 24 24 0).run s).regs := rise_run _ hs
  dsimp only
  rw [hrun]
  generalize (Act.setFld Reg.PWR.GRP_STATUS 24 24 0).run s = a at *
  have hraise := bit_raise (s := a) ha (b := .PWR) (i := 0) (k := 4) (by decide) (by decide)
  have hkeep : ((pwrRaise 4).run a).rd Reg.PWR.GRP_STATUS = a.rd Reg.PWR.GRP_STATUS := rd_raise_off (by simp) (by simp)
  have hb : keysRise ((pwrRaise 4).run a).regs := rise_run _ ha
  generalize hbdef : (pwrRaise 4).run a = b at *
  have hc := ((show (capEvent 3).Only (.regs [Reg.PWR.CAP_EVENTS]) by simp [capEvent]).frame b).1
  refine ⟨?_, ?_, capEvent_sets hb (by decide), hquiet⟩
  · exact (bit_of_rd ((hc.rd_off (by simp)).trans hkeep) 24).trans (hclear.trans rfl)
  · refine (bit_of_rd (hc.rd_off (r := Reg.HDR.IRQ_PEND .PWR 0) (by simp)) 4).trans ?_
    rw [← hbdef]
    exact hraise

/-! ### Power states (R611, R613) -/

theorem idleEntry_effect {s : State} (hs : keysRise s.regs) (hnone : s.hw.disp.cmds = []) (hact : s.fld Reg.PWR.PWR_STATUS 2 0 = 0)
    (hgated : ∀ p, p < 36 → s.power .ENG p ≠ 0) :
    let t := idleEntryAct.run s
    t.fld Reg.PWR.PWR_STATUS 2 0 = 1 ∧ t.pend .PWR 0 5 = true ∧ Quiet (Reg.PWR.PWR_STATUS :: irqOf .PWR 0) s t := by
  have hall : (List.range 36).all (fun p => s.power .ENG p != 0) = true :=
    List.all_eq_true.2 fun p hp => bne_iff_ne.2 (hgated p (List.mem_range.1 hp))
  have hrun : idleEntryAct.run s = (pwrRaise 5).run ((Act.setFld Reg.PWR.PWR_STATUS 2 0 1).run s) := by
    rw [idleEntryAct, run_get, run_when, if_pos (by rw [hnone, hact, hall]; rfl), run_seq]
  have hq : Quiet (Reg.PWR.PWR_STATUS :: irqOf .PWR 0) s ((pwrRaise 5).run ((Act.setFld Reg.PWR.PWR_STATUS 2 0 1).run s)) :=
    Act.Only.quiet (a := .seq (.setFld Reg.PWR.PWR_STATUS 2 0 1) (pwrRaise 5))
      ⟨(only_setFld _ _ _ _).2 (by simp), only_raise (by simp [irqOf]) (by simp [irqOf]) (by simp)⟩ s
  have hset : ((Act.setFld Reg.PWR.PWR_STATUS 2 0 1).run s).fld Reg.PWR.PWR_STATUS 2 0 = 1 :=
    (fld_setFld_same hs _ _ (by decide) (by rw [mask_pwrStatus.1]; decide)).trans rfl
  dsimp only
  rw [hrun]
  have hu : keysRise ((Act.setFld Reg.PWR.PWR_STATUS 2 0 1).run s).regs := rise_run _ hs
  generalize (Act.setFld Reg.PWR.PWR_STATUS 2 0 1).run s = u at *
  exact ⟨(fld_of_rd (rd_raise_off (by simp) (by simp)) 2 0).trans hset, bit_raise hu (by decide) (by decide), hq⟩

theorem setPower_effect {s : State} (hs : keysRise s.regs) {b : Blk} {i v : Nat} (hi : i < b.count) (hv : v < 4) :
    ((setPower b i v).run s).power b i = v ∧ Quiet [Reg.HDR.STATUS b i] s ((setPower b i v).run s) :=
  ⟨(fld_setFld_same hs _ _ (by decide) (by rw [mask_hdrStatus hi]; decide)).trans (Nat.mod_eq_of_lt hv), Act.Only.quiet (by simp [setPower]) s⟩

theorem pageAt_count {slot i : Nat} {b : Blk} (h : pageAt slot = some (b, i)) : i < b.count := by
  unfold pageAt at h
  obtain ⟨c, hc, he⟩ := Option.map_eq_some_iff.1 h
  obtain ⟨rfl, rfl⟩ := Prod.mk.inj he
  have := List.find?_some hc
  simp only [decide_eq_true_eq] at this
  omega

theorem clockGate_effect {s : State} (hs : keysRise s.regs) {slot i : Nat} {b : Blk} (h : pageAt slot = some (b, i))
    (hbusy : s.blockBusy b i = false) (hp : s.power b i = 0) :
    ((clockGateAct slot).run s).power b i = 1 ∧ Quiet [Reg.HDR.STATUS b i] s ((clockGateAct slot).run s) := by
  have hrun : (clockGateAct slot).run s = (setPower b i 1).run s := by
    rw [clockGateAct, run_get, h]
    exact (run_when _ _ s).trans (if_pos (by rw [hbusy, hp]; rfl))
  rw [hrun]
  exact setPower_effect hs (pageAt_count h) (by decide)

theorem engRetention_effect {s : State} (hs : keysRise s.regs) (p : Fin 36) (hbusy : s.blockBusy .ENG p = false) (hres : s.reserved p = false)
    (hidle : s.engState p = eSPARE ∨ (s.engState p = eIDLE ∧ (s.eng p).idleSince + s.fld Reg.PWR.RET_US 15 0 * 1000 ≤ s.now)) :
    ((retentionAct (.eng p)).run s).power .ENG p = 2 ∧ Quiet [Reg.HDR.STATUS .ENG p] s ((retentionAct (.eng p)).run s) := by
  have hcond : (s.engState p == eSPARE || (s.engState p == eIDLE &&
      decide ((s.eng p).idleSince + s.fld Reg.PWR.RET_US 15 0 * 1000 ≤ s.now))) = true := by
    rcases hidle with h | ⟨h, h'⟩
    · rw [h]; rfl
    · rw [decide_eq_true h', h, beq_self_eq_true, Bool.and_true, Bool.or_true]
  have hrun : (retentionAct (.eng p)).run s = (setPower .ENG p 2).run s := by
    rw [retentionAct, run_get]
    dsimp only
    rw [hcond, run_when, if_pos (by rw [hbusy, hres]; rfl)]
  rw [hrun]
  exact setPower_effect hs p.isLt (by decide)

theorem fceRetention_effect {s : State} (hs : keysRise s.regs) (i : Fin 4) (hbusy : s.blockBusy .FCE i = false)
    (hidle : (s.fce i).idleSince + s.fld Reg.PWR.RET_US 15 0 * 1000 ≤ s.now) :
    ((retentionAct (.fce i)).run s).power .FCE i = 2 ∧ Quiet [Reg.HDR.STATUS .FCE i] s ((retentionAct (.fce i)).run s) := by
  have hrun : (retentionAct (.fce i)).run s = (setPower .FCE i 2).run s := by
    rw [retentionAct, run_get]
    dsimp only
    rw [run_when, if_pos (by rw [hbusy, decide_eq_true hidle]; rfl)]
  rw [hrun]
  exact setPower_effect hs i.isLt (by decide)

/-! ### Memory controllers (R611, R616, R617) -/

theorem memcPowerDown_effect {s : State} (m : Fin 8) (hlen : s.hw.memc.length = 8) (hon : s.bit (Reg.MEMC.MEMC_CTRL m) 1 = true) (hst : s.memcState m = 1) :
    let t := (memcPowerDownAct m).run s
    t.memcState m = 2 ∧ SameRegs [] s t ∧ SameRest s t := by
  have hone : s.fld (Reg.MEMC.MEMC_STATUS m) 3 1 = 1 := by
    rw [State.memcState] at hst
    split at hst
    · omega
    · exact hst
  have hrun : (memcPowerDownAct m).run s = (Act.memc m fun x => { x with down := true }).run s := by
    rw [memcPowerDownAct, run_get, run_when, if_pos (by rw [hon, hst]; rfl)]
  have hdown : (((Act.memc m fun x => { x with down := true }).run s).hw.memc.getD m {}).down = true := by
    rw [Act.memc, run_hw, mapHw_hw]
    dsimp only
    rw [getD_updAt, if_pos (by omega)]
  dsimp only
  rw [hrun]
  exact ⟨if_pos ⟨hone, hdown⟩, fun _ _ => rfl, rest_hw _ s⟩

theorem memcRetrain_effect {s : State} (hs : keysRise s.regs) (m : Fin 8) (corrected failed : Bool) :
    let t := (memcRetrainAct m corrected failed).run s
    (corrected = true → Counts (Reg.MEMC.RETRAIN_CNT m) 1 s t) ∧ (failed = true → t.pend .MEMC m 2 = true) ∧
      SameRegs (Reg.MEMC.RETRAIN_CNT m :: irqOf .MEMC m) s t ∧ SameRest s t := by
  have hframe := (show (memcRetrainAct m corrected failed).Only (.regs (Reg.MEMC.RETRAIN_CNT m :: irqOf .MEMC m)) from
    ⟨(only_when _ _).2 fun _ => (only_bump _ _).2 (by simp), (only_when _ _).2 fun _ => only_raise (by simp [irqOf]) (by simp [irqOf]) (by simp)⟩).frame s
  dsimp only
  rw [memcRetrainAct, run_seq] at hframe ⊢
  have hcount : corrected = true → Counts (Reg.MEMC.RETRAIN_CNT m) 1 s ((Act.when corrected (.bump (Reg.MEMC.RETRAIN_CNT m) 1)).run s) := fun h => by
    rw [run_when, if_pos h]
    exact counts_bump hs (mask_memc m).2.2.2.2 1
  have hu : keysRise ((Act.when corrected (.bump (Reg.MEMC.RETRAIN_CNT m) 1)).run s).regs := rise_run _ hs
  generalize (Act.when corrected (.bump (Reg.MEMC.RETRAIN_CNT m) 1)).run s = u at *
  have hq : Quiet (irqOf .MEMC m) u ((Act.when failed (.raise .MEMC m 2)).run u) :=
    Act.Only.quiet ((only_when _ _).2 fun _ => only_raise (by simp [irqOf]) (by simp [irqOf]) (by simp)) u
  refine ⟨fun h => (hcount h).around rfl (hq.regs.rd_off (by simp [irqOf])), fun h => ?_, hframe⟩
  rw [run_when, if_pos h]
  exact bit_raise hu m.isLt (by decide)

/-- A beat of DRAM behind controller `m` is no beat of the commons, and one unit of that controller. -/
theorem dramAddr_unit (m : Fin 8) (a : BitVec 33) : ¬dramAddr m a.toNat < commonsSize ∧ isDram (dramAddr m a.toNat) = true ∧
    unitsIn (dramAddr m a.toNat) 1 m = 1 := by
  have h := a.isLt
  have hm := m.isLt
  unfold isDram unitsIn dramAddr commonsSize
  refine ⟨by omega, decide_eq_true (by omega), ?_⟩
  dsimp only
  rw [if_pos (by omega)]
  omega

/-- The controllers once a beat at `a` is read. -/
def memcServed (a : Nat) (l : List MemcSt) : List MemcSt := l.mapIdx fun m x => x.served false (unitsIn a 1 m)

theorem scrub_run {s : State} (m : Fin 8) (a : BitVec 33) (e : EccError) (hon : s.bit (Reg.MEMC.MEMC_CTRL m) 0 = true)
    (hinj : s.rd (Reg.MEMC.INJECT m) = 0) : (memcScrubAct m a.toNat e).run s = (Act.wr (Reg.MEMC.INJECT m) 0).run ((memcEcc m a.toNat e).run
      ((Act.hw fun h => { h with memc := memcServed (dramAddr m a.toNat) h.memc }).run s)) := by
  obtain ⟨h1, h2, -⟩ := dramAddr_unit m a
  have hring : (ringMove false (dramAddr m a.toNat) 1).run s = (Act.hw fun h => { h with memc := memcServed (dramAddr m a.toNat) h.memc }).run s := by
    have hcommons (x : Act) : (Act.when (decide (0 < 1 ∧ dramAddr m a.toNat < commonsSize)) x).run s = s :=
      (run_when _ _ s).trans (if_neg (by simpa using h1))
    rw [ringMove, run_seq, hcommons, run_when, if_pos (by rw [h2]; rfl)]
    rfl
  rw [memcScrubAct, run_get, run_when, if_pos hon, run_seq, hring]
  have hinj' : ((Act.hw fun h => { h with memc := memcServed (dramAddr m a.toNat) h.memc }).run s).rd (Reg.MEMC.INJECT m) = 0 := hinj
  generalize (Act.hw fun h => { h with memc := memcServed (dramAddr m a.toNat) h.memc }).run s = u at *
  rw [memcRead, run_get]
  dsimp only
  rw [hinj', if_neg (by decide), if_neg (by decide), run_seq]

theorem scrub_served {s : State} (m : Fin 8) (a : BitVec 33) (hlen : s.hw.memc.length = 8) :
    (memcServed (dramAddr m a.toNat) s.hw.memc).getD m {} = (s.hw.memc.getD m {}).served false 1 := by
  have hm : m.val < s.hw.memc.length := by omega
  rw [memcServed, List.getD_eq_getElem _ _ (by simpa using hm), List.getD_eq_getElem _ _ hm, List.getElem_mapIdx, (dramAddr_unit m a).2.2]

/-- Once a scrub has met nothing to inject, INJECT is as it was. -/
theorem sameRegs_clearInject {s : State} (hs : s.sound) (m : Fin 8) (hinj : s.rd (Reg.MEMC.INJECT m) = 0) :
    SameRegs [] s ((Act.wr (Reg.MEMC.INJECT m) 0).run s) := by
  have h := sameRegs_setReg_rd hs (memcInject_row m).1 (memcInject_row m).2 (by simp)
  rwa [hinj] at h

theorem dramBeat_lt (m : Fin 8) (a : BitVec 33) : dramAddr m a.toNat / 8 * 8 < 18446744073709551616 := by
  have h := a.isLt
  have hm := m.isLt
  unfold dramAddr
  omega

/-- A beat lost at address `n`, word `w` (R616). -/
def beatLost (m n w row : Nat) : Act := .all
  [.satFld (Reg.MEMC.ECC_CNT m) 31 16 1, .wr64 (Reg.MEMC.ERR_ADDR_LO m) (Reg.MEMC.ERR_ADDR_HI m) n, .raise .MEMC m 0, .upd (.poison w),
   .event (.rowErr (53 + m) row true)]

theorem memcEcc_uncorr (m a : Nat) (s : State) : ∃ w row, (memcEcc m a .uncorr).run s = (beatLost m (dramAddr m a / 8 * 8) w row).run s :=
  ⟨_, _, rfl⟩

/-- The word marked, the row told, INJECT cleared. -/
def beatMarked (m w row : Nat) : Act := .seq (.upd (.poison w)) (.seq (.event (.rowErr (53 + m) row true)) (.wr (Reg.MEMC.INJECT m) 0))

theorem beatMarked_run (m w row : Nat) (s : State) : (beatMarked m w row).run s = (Act.wr (Reg.MEMC.INJECT m) 0).run
    ((Act.event (.rowErr (53 + m) row true)).run ((Act.upd (.poison w)).run s)) := by
  rw [beatMarked, run_seq, run_seq]

theorem only_beatMarked (m w row : Nat) : (beatMarked m w row).Only { reg := (· ∈ [Reg.MEMC.INJECT m]), poison := True } :=
  ⟨trivial, trivial, List.mem_singleton_self _⟩

theorem run_all_each_five (a b c d e : Act) (s : State) : (Act.all [a, b, c, d, e]).run s = e.run (d.run (c.run (b.run (a.run s)))) := rfl

section
variable {s : State} (hl : s.sound) (m : Fin 8) (a : BitVec 33) (hinj : s.rd (Reg.MEMC.INJECT m) = 0)
include hl hinj

theorem scrubNone_effect (hlen : s.hw.memc.length = 8) (hne : s.fld (Reg.MEMC.MEMC_STATUS m) 3 1 ≠ 2)
    (hon : s.bit (Reg.MEMC.MEMC_CTRL m) 0 = true) :
    let t := (memcScrubAct m a.toNat .none).run s
    SameRegs [] s t ∧ t.memcState m ≠ 2 ∧ (t.hw.memc.getD m {}).rd = min ((s.hw.memc.getD m {}).rd + 1) 4294967295 ∧
      (∃ l, t.hw = { s.hw with memc := l }) ∧ SameRest s t := by
  have hinj' : ((Act.hw fun h => { h with memc := memcServed (dramAddr m a.toNat) h.memc }).run s).rd (Reg.MEMC.INJECT m) = 0 := hinj
  have hsound : ((Act.hw fun h => { h with memc := memcServed (dramAddr m a.toNat) h.memc }).run s).sound := sound_run _ _ hl
  have hsame := sameRegs_clearInject hsound m hinj'
  have hserved := scrub_served m a hlen
  have hrun : (memcScrubAct m a.toNat .none).run s = (Act.wr (Reg.MEMC.INJECT m) 0).run
    ((Act.hw fun h => { h with memc := memcServed (dramAddr m a.toNat) h.memc }).run s) := scrub_run m a .none hon hinj
  have hmemc : ((memcScrubAct m a.toNat .none).run s).hw.memc.getD m {} = (s.hw.memc.getD m {}).served false 1 := by rw [hrun]; exact hserved
  have hfld : ((memcScrubAct m a.toNat .none).run s).fld (Reg.MEMC.MEMC_STATUS m) 3 1 = s.fld (Reg.MEMC.MEMC_STATUS m) 3 1 := by
    rw [hrun]
    exact fld_of_rd (hsame _ (by simp)) 3 1
  refine ⟨by rw [hrun]; exact hsame, ?_, by rw [hmemc]; rfl, ⟨_, by rw [hrun]; rfl⟩, by rw [hrun]; exact ⟨rfl, rfl, rfl, rfl, rfl⟩⟩
  unfold State.memcState
  rw [hfld, hmemc, if_neg fun h => Bool.false_ne_true h.2]
  exact hne

theorem scrubCorr_effect (hon : s.bit (Reg.MEMC.MEMC_CTRL m) 0 = true) :
    let t := (memcScrubAct m a.toNat .corr).run s
    t.fld (Reg.MEMC.ECC_CNT m) 15 0 = min (s.fld (Reg.MEMC.ECC_CNT m) 15 0 + 1) 65535 ∧
      SameRegs (Reg.MEMC.ECC_CNT m :: irqOf .MEMC m) s t ∧ SameRest s t := by
  have hrest : SameRest s ((Act.hw fun h => { h with memc := memcServed (dramAddr m a.toNat) h.memc }).run s) := rest_hw _ s
  have hregs : ((Act.hw fun h => { h with memc := memcServed (dramAddr m a.toNat) h.memc }).run s).regs = s.regs := rfl
  have hsound : ((Act.hw fun h => { h with memc := memcServed (dramAddr m a.toNat) h.memc }).run s).sound := sound_run _ _ hl
  dsimp only
  rw [scrub_run m a .corr hon hinj]
  generalize (Act.hw fun h => { h with memc := memcServed (dramAddr m a.toNat) h.memc }).run s = u at *
  have hcnt := fld_satFld hsound.1.1 (r := Reg.MEMC.ECC_CNT m) (hi := 15) (lo := 0) 1 (by decide) (by rw [(mask_memc m).2.1]; decide)
  have honly : (memcEcc m a.toNat .corr).Only (.regs (Reg.MEMC.ECC_CNT m :: irqOf .MEMC m)) := fun s =>
    ⟨(only_satFld _ _ _ _).2 (by simp), trivial, (only_when _ _).2 fun _ => only_raise (by simp [irqOf]) (by simp [irqOf]) (by simp), trivial⟩
  have htold : ∃ b : Bool, (memcEcc m a.toNat .corr).run u = (Act.when b (.raise .MEMC m 1)).run
      ((Act.event (.rowErr (53 + m) (a.toNat / 1024) false)).run ((Act.satFld (Reg.MEMC.ECC_CNT m) 15 0 1).run u)) := ⟨_, rfl⟩
  obtain ⟨b, hb⟩ := htold
  have hkeep : ((memcEcc m a.toNat .corr).run u).rd (Reg.MEMC.ECC_CNT m) = ((Act.satFld (Reg.MEMC.ECC_CNT m) 15 0 1).run u).rd (Reg.MEMC.ECC_CNT m) := by
    rw [hb, run_when]
    split
    · exact rd_raise_off (by simp) (by simp)
    · rfl
  obtain ⟨h1, h2⟩ := honly.frame u
  have hv : ((memcEcc m a.toNat .corr).run u).sound := sound_run _ _ hsound
  have hinjv : ((memcEcc m a.toNat .corr).run u).rd (Reg.MEMC.INJECT m) = 0 := (h1.rd_off (by simp [irqOf])).trans ((rd_of_regs hregs _).trans hinj)
  have hsame := sameRegs_clearInject hv m hinjv
  generalize (memcEcc m a.toNat .corr).run u = v at *
  refine ⟨?_, ?_, hrest.trans (h2.trans ⟨rfl, rfl, rfl, rfl, rfl⟩)⟩
  · rw [fld_of_rd ((hsame _ (by simp)).trans hkeep) 15 0, hcnt, fld_of_rd (rd_of_regs hregs _) 15 0]
    exact congrArg (min _) (by decide)
  · exact (show SameRegs _ s u from fun r _ => rd_of_regs hregs r).trans (h1.trans (hsame.mono (by simp)))

theorem scrubUncorr_effect (hon : s.bit (Reg.MEMC.MEMC_CTRL m) 0 = true) :
    let t := (memcScrubAct m a.toNat .uncorr).run s
    t.fld (Reg.MEMC.ECC_CNT m) 31 16 = min (s.fld (Reg.MEMC.ECC_CNT m) 31 16 + 1) 65535 ∧
      t.rd64 (Reg.MEMC.ERR_ADDR_LO m) (Reg.MEMC.ERR_ADDR_HI m) = dramAddr m a.toNat / 8 * 8 ∧ t.pend .MEMC m 0 = true ∧
      t.mem = s.mem ∧ t.es = s.es ∧ t.tsc = s.tsc ∧ t.out = s.out := by
  have hrest : SameRest s ((Act.hw fun h => { h with memc := memcServed (dramAddr m a.toNat) h.memc }).run s) := rest_hw _ s
  have hregs : ((Act.hw fun h => { h with memc := memcServed (dramAddr m a.toNat) h.memc }).run s).regs = s.regs := rfl
  have hrise : keysRise ((Act.hw fun h => { h with memc := memcServed (dramAddr m a.toNat) h.memc }).run s).regs := rise_run _ hl.1.1
  have hlt := dramBeat_lt m a
  dsimp only
  rw [scrub_run m a .uncorr hon hinj]
  generalize (Act.hw fun h => { h with memc := memcServed (dramAddr m a.toNat) h.memc }).run s = u at *
  have hcnt := fld_satFld hrise (r := Reg.MEMC.ECC_CNT m) (hi := 31) (lo := 16) 1 (by decide) (by rw [(mask_memc m).2.1]; decide)
  obtain ⟨w, row, hlost⟩ := memcEcc_uncorr m a.toNat u
  rw [hlost, beatLost, run_all_each_five]
  generalize dramAddr m a.toNat / 8 * 8 = n at *
  have hsat := (show (Act.satFld (Reg.MEMC.ECC_CNT m) 31 16 1).Only (.regs [Reg.MEMC.ECC_CNT m]) by simp).frame u
  have ha : keysRise ((Act.satFld (Reg.MEMC.ECC_CNT m) 31 16 1).run u).regs := rise_run _ hrise
  generalize (Act.satFld (Reg.MEMC.ECC_CNT m) 31 16 1).run u = x at *
  have haddr := rd64_wr64 ha (mask_memc m).2.2.1 (mask_memc m).2.2.2.1 (by simp [RegRef.key]) hlt
  have hwr := (show (Act.wr64 (Reg.MEMC.ERR_ADDR_LO m) (Reg.MEMC.ERR_ADDR_HI m) n).Only
    (.regs [Reg.MEMC.ERR_ADDR_LO m, Reg.MEMC.ERR_ADDR_HI m]) by simp).frame x
  have hb : keysRise ((Act.wr64 (Reg.MEMC.ERR_ADDR_LO m) (Reg.MEMC.ERR_ADDR_HI m) n).run x).regs := rise_run _ ha
  generalize (Act.wr64 (Reg.MEMC.ERR_ADDR_LO m) (Reg.MEMC.ERR_ADDR_HI m) n).run x = y at *
  have hraise := bit_raise hb (b := .MEMC) (i := m) (k := 0) m.isLt (by decide)
  have hq : Quiet (irqOf .MEMC m) y ((Act.raise .MEMC m 0).run y) := Act.Only.quiet (only_raise (by simp [irqOf]) (by simp [irqOf]) (by simp)) y
  generalize (Act.raise .MEMC m 0).run y = z at *
  rw [← beatMarked_run]
  have hend := (only_beatMarked m w row).sameRegs id (fun _ h => h) z
  have hmem := (only_beatMarked m w row).mem id z
  have hes := (only_beatMarked m w row).es id z
  have htsc := (only_beatMarked m w row).tsc id z
  have hout := (only_beatMarked m w row).out id z
  generalize (beatMarked m w row).run z = t at *
  have hall : SameRest s z := hrest.trans (hsat.2.trans (hwr.2.trans hq.toSameRest))
  refine ⟨?_, ?_, ?_, hmem.trans hall.mem, hes.trans hall.es, htsc.trans hall.tsc, hout.trans hall.out⟩
  · rw [fld_of_rd ((hend.rd_off (by simp)).trans ((hq.regs.rd_off (by simp [irqOf])).trans (hwr.1.rd_off (by simp)))) 31 16, hcnt,
      fld_of_rd (rd_of_regs hregs _) 31 16]
    exact congrArg (min _) (by decide)
  · rw [State.rd64] at haddr
    rw [State.rd64, hend.rd_off (r := Reg.MEMC.ERR_ADDR_LO m) (by simp), hend.rd_off (r := Reg.MEMC.ERR_ADDR_HI m) (by simp),
      hq.regs.rd_off (r := Reg.MEMC.ERR_ADDR_LO m) (by simp [irqOf]), hq.regs.rd_off (r := Reg.MEMC.ERR_ADDR_HI m) (by simp [irqOf])]
    exact haddr
  · exact (bit_of_rd (hend.rd_off (r := Reg.HDR.IRQ_PEND .MEMC m) (by simp)) 0).trans hraise

end

theorem dramTemp_effect {s : State} (hs : keysRise s.regs) (m : Fin 8) (mult : BitVec 4) :
    ((dramTempAct m mult.toNat).run s).fld (Reg.MEMC.MEMC_STATUS m) 19 16 = mult.toNat ∧
      Quiet [Reg.MEMC.MEMC_STATUS m] s ((dramTempAct m mult.toNat).run s) :=
  ⟨(fld_setFld_same hs _ _ (by decide) (by rw [(mask_memc m).1]; decide)).trans (Nat.mod_eq_of_lt mult.isLt), Act.Only.quiet (by simp [dramTempAct]) s⟩

/-- Settles O53: power shifting, power states and the memory controllers. -/
theorem powerStatesAndMemory : Obligations.PowerStatesAndMemory := by
  unfold Obligations.PowerStatesAndMemory
  refine ⟨fun s need w hl hon => ⟨fun h => ⟨_, simply_eq hl.2, shiftReport_effect hl.1.1.1 need hon h⟩,
      ⟨_, simply_eq hl.2, allocation_effect hl.1.1.1 w hon⟩⟩,
    fun s l hl hon hm hown => ⟨_, simply_eq hl.2, shiftAllocate_effect hl.1.1.1 l hon hm hown⟩,
    fun s hl => ⟨fun h h' => ⟨_, simply_eq hl.2, allocationTimeout_effect hl.1.1.1 h h'⟩, fun h => ?_,
      fun h1 h2 h3 => ⟨_, command_eq hl.2, idleEntry_effect hl.1.1.1 h1 h2 h3⟩⟩,
    fun s slot b i hl h1 h2 h3 => ⟨_, simply_eq hl.2, clockGate_effect hl.1.1.1 h1 h2 h3⟩,
    fun s p hl h1 h2 h3 => ⟨_, simply_eq hl.2, engRetention_effect hl.1.1.1 p h1 h2 h3⟩,
    fun s i hl h1 h2 => ⟨_, simply_eq hl.2, fceRetention_effect hl.1.1.1 i h1 h2⟩,
    fun s m mult a hl hlen hne => ⟨fun h1 h2 => ⟨_, simply_eq hl.2, memcPowerDown_effect m hlen h1 h2⟩,
      ⟨_, simply_eq hl.2, dramTemp_effect hl.1.1.1 m mult⟩, fun corrected failed => ⟨_, simply_eq hl.2, memcRetrain_effect hl.1.1.1 m corrected failed⟩,
      fun hon hinj => ⟨⟨_, command_eq hl.2, scrubNone_effect hl.1 m a hinj hlen hne hon⟩, ⟨_, command_eq hl.2, scrubCorr_effect hl.1 m a hinj hon⟩,
        ⟨_, command_eq hl.2, scrubUncorr_effect hl.1 m a hinj hon⟩⟩, fun hoff e => ?_⟩⟩
  · refine (simply_eq hl.2).trans (congrArg _ ?_)
    rw [allocationTimeoutAct, run_get, run_when, if_neg (by rw [decide_eq_false (by omega), Bool.and_false]; exact Bool.false_ne_true)]
  · refine (command_eq hl.2).trans (congrArg (fun t : State => Host.Outcome.next t.settled) ?_)
    rw [memcScrubAct, run_get, run_when, if_neg (by rw [hoff]; exact Bool.false_ne_true)]

end Sys2Proof.Machine

/-! ## Proofs: sleep and wake (14_power_clocks_sleep)

O54: what a sleep command leaves when it is taken, refused or put off, and what a wake restores. -/

namespace Sys2Proof.Machine

-- One theorem after the other: elaborated side by side, they hold more threads than the memory limit of a check allows.
set_option Elab.async false

/-! ### The power state -/

/-- The state of the device's power: PWR_STATUS's state, DEV_RESULT, the supply. -/
def State.powerState (s : State) : Nat × Word × PwrSt := (s.fld Reg.PWR.PWR_STATUS 2 0, s.rd Reg.PWR.DEV_RESULT, s.hw.pwr)

theorem powerState_of {s t : State} {n : Nat} {w : Word} {x : PwrSt} (h : t.powerState = s.powerState) (hn : s.fld Reg.PWR.PWR_STATUS 2 0 = n)
    (hw : s.rd Reg.PWR.DEV_RESULT = w) (hx : s.hw.pwr = x) :
    t.fld Reg.PWR.PWR_STATUS 2 0 = n ∧ t.rd Reg.PWR.DEV_RESULT = w ∧ t.hw.pwr = x := by
  obtain ⟨h1, h2, h3⟩ : _ ∧ _ ∧ _ := by simpa [State.powerState] using h
  exact ⟨h1.trans hn, h2.trans hw, h3.trans hx⟩

/-- The headers and the registers of the other pages behind AON; the supply stays. -/
def Scope.besidePower : Scope :=
  { reg := fun r => (r.off < 4096 ∧ (0x14 < r.blk.slot ∨ r.inst = 0 ∧ r.blk.slot < 0x14)) ∨ r.off < 0x40
    hw := fun f => ∀ h : Hw, (f h).pwr = h.pwr }

@[simp] theorem besidePower_reg (r : RegRef) : Scope.besidePower.reg r ↔
    (r.off < 4096 ∧ (0x14 < r.blk.slot ∨ r.inst = 0 ∧ r.blk.slot < 0x14)) ∨ r.off < 0x40 := .rfl
@[simp] theorem besidePower_hw (f : Hw → Hw) : Scope.besidePower.hw f ↔ ∀ h : Hw, (f h).pwr = h.pwr := .rfl
@[simp] theorem besidePower_setEdge (h : Hw) (e : BitVec 1024) : (Hw.setEdge e h).pwr = h.pwr := rfl

theorem Act.Only.besidePower_rd {a : Act} (ha : a.Only .besidePower) (s : State) {off : Nat} (ho : 0x40 ≤ off ∧ off < 4096) :
    (a.run s).rd ⟨.PWR, 0, off⟩ = s.rd ⟨.PWR, 0, off⟩ := by
  refine ha.rd id (fun r hr hk => ?_) s
  simp only [besidePower_reg] at hr
  simp only [RegRef.key, show Blk.PWR.slot = 0x14 from rfl] at hk
  omega

theorem Act.Only.keeps_power {a : Act} (ha : a.Only .besidePower) : a.Keeps State.powerState := fun s _ => by
  rw [State.powerState, State.powerState, State.fld, ha.besidePower_rd s (off := 0x044) (by decide),
    ha.besidePower_rd s (off := 0x074) (by decide), ha.hw (fun h => h.pwr) (fun _ hf => hf) s, State.fld]

theorem keeps_power_bit6 (v : Nat) : (Act.setFld Reg.PWR.PWR_STATUS 6 6 v).Keeps State.powerState := fun s hs => by
  have hst : ((Act.setFld Reg.PWR.PWR_STATUS 6 6 v).run s).fld Reg.PWR.PWR_STATUS 2 0 = s.fld Reg.PWR.PWR_STATUS 2 0 :=
    keeps_fld_setFld (.inl (by decide)) (by rw [mask_pwrStatus.1]; decide) s hs
  rw [State.powerState, State.powerState, hst, rd_setFld_off (q := Reg.PWR.DEV_RESULT) (by simp)]
  rfl

theorem keeps_power_raise (k : Nat) : (pwrRaise k).Keeps State.powerState :=
  Act.Only.keeps_power (only_raise (by simp) (by simp) (by simp))

theorem only_setMemcState {m : Nat} (v : Nat) : (setMemcState m v).Only .besidePower := by
  simp [setMemcState, Blk.slot]

/-- Repairs re-applied keep the power state. -/
theorem keeps_power_applyMap : applyMap.Keeps State.powerState := by
  have hcounts : phaseCounts.Keeps State.powerState := .get fun s =>
    .cons (Act.Only.keeps_power (by simp [Blk.slot])) (.cons (Act.Only.keeps_power (by simp [Blk.slot]))
      (.cons (Act.Only.keeps_power (by simp [Blk.slot])) (.cons (keeps_power_bit6 _) keeps_all_nil)))
  refine .get fun s => .cons (Act.Only.keeps_power (by simp [Blk.slot])) (.cons (Act.Only.keeps_power (by simp [Blk.slot]))
    (.cons (Act.Only.keeps_power ?_) (.cons (Act.Only.keeps_power ?_) (.cons (Act.Only.keeps_power (by simp [Blk.slot]))
      (.cons (Act.Only.keeps_power (by simp [Blk.slot])) (.cons hcounts keeps_all_nil))))))
  · simp only [only_each, only_when]
    intro x _ _
    split <;> simp [Blk.slot]
  · simp only [only_each, only_seq, only_when]
    refine fun x _ => ⟨by simp [Blk.slot], fun _ => ?_⟩
    split <;> simp [Blk.slot]

/-- Neither memory nor anything beside registers and block state. -/
def Scope.inside : Scope := { reg := fun _ => True }

@[simp] theorem inside_reg (r : RegRef) : Scope.inside.reg r := trivial
@[simp] theorem inside_hw (f : Hw → Hw) : Scope.inside.hw f := trivial

theorem Act.Only.inside {a : Act} (ha : a.Only .inside) (s : State) : SameRest s (a.run s) := ha.sameRest id id id id id s

theorem inside_applyMap : applyMap.Only .inside := only_applyMap.weaken (fun _ _ => trivial) fun _ h => h.elim

/-! ### The masks -/

theorem mask_devResult : RegRef.mask Reg.PWR.DEV_RESULT = 0xFFF03 := by decide +kernel
theorem devCmd_row : RegRef.row Reg.PWR.DEV_CMD = some ⟨0x070, 1, 4, .WO, 0, 0, 0, 0, false⟩ := by decide +kernel

theorem bits_and {n : Nat} (w m : BitVec n) (hi lo : Nat) : bits (w &&& m) hi lo = bits w hi lo &&& bits m hi lo := by
  rw [bits, bits, bits, BitVec.toNat_and, Nat.shiftRight_and_distrib, Nat.and_mod_two_pow]

theorem sleepReason_lt (s : State) (deep linkL2 wakeNow : Bool) : s.sleepReason deep linkL2 wakeNow < 6 := by
  unfold State.sleepReason
  repeat' split
  all_goals omega

/-- DEV_RESULT after a sleep command. -/
theorem devResult_effect {s : State} (hs : keysRise s.regs) {reason : Nat} (hr : reason < 6) :
    ((devResult reason).run s).fld Reg.PWR.DEV_RESULT 15 0 = 1 + 2 * b2n (reason == 0) + 256 * reason := by
  have hval : ∀ n < 6, (1 + 2 * b2n (n == 0) + 256 * n) % 2 ^ (15 + 1 - 0) &&& bits (0xFFF03 : Word) 15 0 = 1 + 2 * b2n (n == 0) + 256 * n := by
    decide
  rw [devResult, run_setFld, State.fld, rd_setReg_same hs, mask_devResult, bits_and, bits_setBits_same _ _ (by decide)]
  exact hval reason hr

theorem devResult_taken {s : State} (hs : keysRise s.regs) :
    ((devResult 0).run s).bit Reg.PWR.DEV_RESULT 0 = true ∧ ((devResult 0).run s).bit Reg.PWR.DEV_RESULT 1 = true := by
  have hfld : ((devResult 0).run s).fld Reg.PWR.DEV_RESULT 15 0 = 3 := devResult_effect hs (by decide)
  have hbit (k : Nat) (hk : k < 16) : ((devResult 0).run s).bit Reg.PWR.DEV_RESULT k = Nat.testBit 3 k := by
    rw [← hfld, State.bit, State.fld, testBit_bits, Nat.zero_add]
    simp [hk]
  exact ⟨hbit 0 (by decide), hbit 1 (by decide)⟩

/-! ### STANDBY and DEEP_SLEEP (R614) -/

/-- What STANDBY does past the state shown and the target. -/
def standbyRest : Act := .all
  [.modReg Reg.CLK.CLK_STATUS fun w => w &&& ~~~ 0x7FE,
   .each (List.range 36) fun p => setPower .ENG p 2, .each (List.range 4) fun i => setPower .FCE i 2,
   .each (List.range 8) fun m => .get fun s => .when (s.memcState m != 0) (setMemcState m 3), pwrRaise 5]

theorem enterStandby_run (s : State) :
    enterStandby.run s = standbyRest.run ((setTarget 6000).run ((Act.setFld Reg.PWR.PWR_STATUS 2 0 2).run s)) := by
  simp only [enterStandby, standbyRest, run_all_cons]

theorem enterStandby_effect {s : State} (hs : keysRise s.regs) :
    let t := enterStandby.run s
    t.fld Reg.PWR.PWR_STATUS 2 0 = 2 ∧ t.rd Reg.PWR.DEV_RESULT = s.rd Reg.PWR.DEV_RESULT ∧ t.hw.pwr.target = 6000 ∧ SameRest s t := by
  have hkeep : standbyRest.Keeps State.powerState := Act.Only.keeps_power (by
    simp only [standbyRest, only_all_cons, only_all_nil, only_get, only_when, only_each, only_modReg]
    exact ⟨by simp [Blk.slot], by simp [setPower], by simp [setPower], fun m _ _ _ => only_setMemcState 3,
      only_raise (by simp) (by simp) (by simp), trivial⟩)
  have hin : standbyRest.Only .inside := by simp [standbyRest, setPower, setMemcState, pwrRaise]
  have hst : ((Act.setFld Reg.PWR.PWR_STATUS 2 0 2).run s).fld Reg.PWR.PWR_STATUS 2 0 = 2 :=
    (fld_setFld_same hs _ _ (by decide) (by rw [mask_pwrStatus.1]; decide)).trans rfl
  have hres : ((Act.setFld Reg.PWR.PWR_STATUS 2 0 2).run s).rd Reg.PWR.DEV_RESULT = s.rd Reg.PWR.DEV_RESULT := rd_setFld_off (by simp)
  have hrest : SameRest s ((Act.setFld Reg.PWR.PWR_STATUS 2 0 2).run s) := ⟨rfl, rfl, rfl, rfl, rfl⟩
  have ha : keysRise ((Act.setFld Reg.PWR.PWR_STATUS 2 0 2).run s).regs := rise_run _ hs
  dsimp only
  rw [enterStandby_run]
  generalize (Act.setFld Reg.PWR.PWR_STATUS 2 0 2).run s = a at *
  obtain ⟨t1, -, t3, t4⟩ := setTarget_effect ha 6000
  have hb : keysRise ((setTarget 6000).run a).regs := rise_run _ ha
  generalize (setTarget 6000).run a = b at *
  obtain ⟨h1, h2, h3⟩ := powerState_of (hkeep b hb) ((fld_of_rd (t3 _ (by decide)) 2 0).trans hst) ((t3 _ (by decide)).trans hres)
    (congrArg Hw.pwr t1)
  exact ⟨h1, h2, by rw [h3], hrest.trans (t4.trans (hin.inside b))⟩

/-- A ball let go, or a timing group at rest. -/
def PinsRest (o : Out) : Prop := (∃ ball, o = .pinHiz ball) ∨ ∃ g, o = .timing g 0 0

/-- Behind `l`, nothing has left but pins let go. -/
def LetsGo (l : List Out) (s : State) : Prop := ∃ l', s.out = l ++ l' ∧ ∀ o ∈ l', PinsRest o

theorem holds_letsGo_out {l : List Out} {o : Out} (ho : PinsRest o) : (Act.out o).Holds (LetsGo l) := fun s _ ⟨l', h, h'⟩ =>
  ⟨l' ++ [o], (congrArg (· ++ [o]) h).trans (List.append_assoc ..), fun x hx => (List.mem_append.1 hx).elim (h' x) fun hx => by
    rw [List.mem_singleton.1 hx]; exact ho⟩

theorem holds_letsGo_pinsHiz (l : List Out) (first : Nat) : (pinsHiz first).Holds (LetsGo l) :=
  .seq (.each fun _ _ => .get fun _ => .when fun _ => holds_letsGo_out (.inl ⟨_, rfl⟩))
    (.each fun _ _ => holds_letsGo_out (.inr ⟨_, rfl⟩))

/-- What DEEP_SLEEP does before the registers are lost. -/
def deepBegin : Act := .all [pwrRaise 5, pinsHiz 8, setCoarse true, .wrN Reg.TSC.SLEEP_CYCLES 0]

/-- Driver locks stay (R690). -/
def locksKept (s : State) : Act := .each (Blk.all.flatMap fun b => (List.range b.count).map fun i => (b, i)) fun (b, i) =>
  .when (s.bit (Reg.HDR.LOCK_OWNER b i) 0) (.wr (Reg.HDR.LOCK_OWNER b i) 1)

/-- Block state lost. -/
def deepLost : Act := .all [loseHw, standAlone, halPageReset]

def deepEnd : Act := .each (List.range 8) fun m => setMemcState m 3

theorem enterDeep_run (s : State) : enterDeep.run s =
    deepEnd.run ((Act.pwr fun x => { x with coreOn := false }).run ((Act.wrN Reg.PWR.PWR_STATUS 3).run
      (deepLost.run ((locksKept (deepBegin.run s)).run ((loseRegs sleepKeeps (keptRegs ++ sleepRegs)).run (deepBegin.run s)))))) := by
  simp only [enterDeep, deepBegin, deepLost, deepEnd, locksKept, run_all_cons, run_all_nil, run_get, run_seq]

theorem keptWhole (x y : Word) : (x &&& ~~~ 0xFFFFFFFF) ||| (y &&& 0xFFFFFFFF) = y :=
  show (x &&& ~~~ BitVec.allOnes 32) ||| (y &&& BitVec.allOnes 32) = y by
    rw [BitVec.and_allOnes, BitVec.not_allOnes, BitVec.and_zero, BitVec.zero_or]

/-- DEV_RESULT is kept in DEEP_SLEEP (R614). -/
theorem devResult_kept {s : State} (hs : keysRise s.regs) :
    ((loseRegs sleepKeeps (keptRegs ++ sleepRegs)).run s).rd Reg.PWR.DEV_RESULT = s.rd Reg.PWR.DEV_RESULT &&& 0xFFF03 := by
  have hlist : keptRegs ++ sleepRegs = keptRegs ++ (Reg.PWR.DEV_RESULT, 0xFFFFFFFF) :: sleepRegs.tail := rfl
  have hafter : ∀ x ∈ sleepRegs.tail, x.1.key ≠ Reg.PWR.DEV_RESULT.key := by decide +kernel
  rw [loseRegs, run_get, run_seq, hlist, run_each_append]
  generalize hu : (Act.each keptRegs _).run _ = u
  have hrise : keysRise u.regs := by rw [← hu]; exact rise_run _ (rise_run _ hs)
  have honly : (Act.each sleepRegs.tail fun (r, m) => .wr r ((r.resetVal &&& ~~~ m) ||| (s.rd r &&& m))).Only
      (.but Reg.PWR.DEV_RESULT) := (only_each _ _).2 fun x hx => hafter x hx
  refine (honly.keeps_rd _ (rise_run _ hrise)).trans ((rd_setReg_same hrise _ _).trans ?_)
  rw [mask_devResult, keptWhole]

theorem Act.Only.holds_letsGo {a : Act} (ha : a.Only .inside) (l : List Out) : a.Holds (LetsGo l) := fun s _ h => by
  rw [LetsGo, (ha.inside s).out]
  exact h

theorem inside_pwrRaise (k : Nat) : (pwrRaise k).Only .inside := only_raise trivial trivial fun _ => trivial

theorem inside_setMemcState (m v : Nat) : (setMemcState m v).Only .inside := ⟨(only_setFld _ _ _ _).2 trivial, trivial⟩

theorem deepBegin_effect {s : State} (hs : keysRise s.regs) :
    let t := deepBegin.run s
    t.rd Reg.PWR.DEV_RESULT = s.rd Reg.PWR.DEV_RESULT ∧ LetsGo s.out t ∧ t.es = s.es ∧ t.tsc = s.tsc := by
  have hcoarse {p : Scope} (h : p.reg Reg.TSC.TSC_STATUS) (h1 : p.reg (Reg.HDR.IRQ_PEND .AON 0)) (h2 : p.reg (Reg.HDR.IRQ_MASK .AON 0))
      (h3 : ∀ e, p.hw (Hw.setEdge e)) : (setCoarse true).Only p := by
    simp only [setCoarse, only_get, only_when, only_seq, only_setFld]
    exact fun _ _ => ⟨h, only_raise h1 h2 h3⟩
  have hpins : (pinsHiz 8).Only { reg := fun _ => False, out := True } := by simp [pinsHiz, letGo]
  have honly : deepBegin.Only { reg := fun r => r.off ≠ 0x74 ∧ r.off < 4096, out := True } :=
    ⟨only_raise (by simp) (by simp) fun _ => trivial, hpins.weaken (fun _ h => h.elim) fun _ _ => trivial,
      hcoarse (by simp) (by simp) (by simp) fun _ => trivial, (only_wrN _ _).2 (by simp), trivial⟩
  have hout : deepBegin.Holds (LetsGo s.out) := ((inside_pwrRaise 5).holds_letsGo _).cons ((holds_letsGo_pinsHiz _ _).cons
    (((hcoarse trivial trivial trivial fun _ => trivial).holds_letsGo _).cons (Act.Holds.cons
      (Act.Only.holds_letsGo ((only_wrN _ _).2 trivial) _) holds_all_nil)))
  refine ⟨honly.rd id (fun r hr => key_ne_of_off ?_) s, hout s hs ⟨[], (List.append_nil _).symm, by simp⟩, honly.es id s, honly.tsc id s⟩
  dsimp only
  omega

theorem enterDeep_effect {s : State} (hs : keysRise s.regs) :
    let t := enterDeep.run s
    t.fld Reg.PWR.PWR_STATUS 2 0 = 3 ∧ t.rd Reg.PWR.DEV_RESULT = s.rd Reg.PWR.DEV_RESULT &&& 0xFFF03 ∧ t.hw.pwr.coreOn = false ∧
      LetsGo s.out t ∧ t.es = s.es ∧ t.tsc = s.tsc := by
  have hend : deepEnd.Keeps State.powerState := .each fun m _ => (only_setMemcState 3).keeps_power
  have hendIn : deepEnd.Only .inside := (only_each _ _).2 fun m _ => inside_setMemcState m 3
  have hlose : (loseRegs sleepKeeps (keptRegs ++ sleepRegs)).Only { reg := fun _ => True, reset := True } := by simp [loseRegs]
  have hlocks (u : State) : (locksKept u).Only { reg := fun r => r.off ≠ 0x74 ∧ r.off < 4096 } := by simp [locksKept]
  have hlost : deepLost.Only { reg := fun r => r.off ≠ 0x74 ∧ r.off < 4096 } := by simp [deepLost, loseHw, standAlone, followEnd, halPageReset]
  have hne {r : RegRef} (hr : r.off ≠ 0x74 ∧ r.off < 4096) : r.key ≠ Reg.PWR.DEV_RESULT.key := key_ne_of_off (by dsimp only; omega)
  obtain ⟨a1, a2, a3, a4⟩ := deepBegin_effect hs
  have ha : keysRise (deepBegin.run s).regs := rise_run _ hs
  dsimp only
  rw [enterDeep_run]
  generalize deepBegin.run s = a at *
  have hb := (devResult_kept ha).trans (congrArg (· &&& _) a1)
  have hbRise : keysRise ((loseRegs sleepKeeps (keptRegs ++ sleepRegs)).run a).regs := rise_run _ ha
  have hbRest : SameRest a ((loseRegs sleepKeeps (keptRegs ++ sleepRegs)).run a) := hlose.sameRest id id id id id a
  generalize (loseRegs sleepKeeps (keptRegs ++ sleepRegs)).run a = b at *
  have hc := (hlost.rd id (fun _ => hne) _).trans (((hlocks a).rd id (fun _ => hne) b).trans hb)
  have hcRise : keysRise (deepLost.run ((locksKept a).run b)).regs := rise_run _ (rise_run _ hbRise)
  have hcRest := hbRest.trans (((hlocks a).sameRest id id id id id b).trans (hlost.sameRest id id id id id _))
  generalize deepLost.run ((locksKept a).run b) = c at *
  have hd : ((Act.wrN Reg.PWR.PWR_STATUS 3).run c).fld Reg.PWR.PWR_STATUS 2 0 = 3 := by
    rw [run_wrN, State.fld, rd_setReg_same hcRise, mask_pwrStatus.1]
    rfl
  have hdRes : ((Act.wrN Reg.PWR.PWR_STATUS 3).run c).rd Reg.PWR.DEV_RESULT = _ := (rd_setReg_off (by simp)).trans hc
  have hdRise : keysRise ((Act.wrN Reg.PWR.PWR_STATUS 3).run c).regs := rise_run _ hcRise
  have hdRest : SameRest a ((Act.wrN Reg.PWR.PWR_STATUS 3).run c) := hcRest.trans ⟨rfl, rfl, rfl, rfl, rfl⟩
  generalize (Act.wrN Reg.PWR.PWR_STATUS 3).run c = d at *
  have hrest : SameRest a _ := hdRest.trans ((rest_hw _ d).trans (hendIn.inside ((Act.pwr fun x => { x with coreOn := false }).run d)))
  obtain ⟨e1, e2, e3⟩ := powerState_of (hend ((Act.pwr fun x => { x with coreOn := false }).run d) hdRise) hd hdRes rfl
  exact ⟨e1, e2, (congrArg PwrSt.coreOn e3).trans rfl, by rw [LetsGo, hrest.out]; exact a2, hrest.es.trans a3, hrest.tsc.trans a4⟩

/-! ### The sleep commands (R613, R614, R663) -/

theorem sleepReason_same {s t : State} (h : SameRegs [Reg.PWR.DEV_CMD, Reg.HDR.WRITE_COUNT .PWR 0] s t) (hcmds : t.hw.disp.cmds = s.hw.disp.cmds)
    (deep linkL2 wakeNow : Bool) : t.sleepReason deep linkL2 wakeNow = s.sleepReason deep linkL2 wakeNow := by
  have hpath (p : Nat) : t.bit (Reg.SFE.PATH_CTRL p) 0 = s.bit (Reg.SFE.PATH_CTRL p) 0 := bit_of_rd (h.rd_off (by simp; omega)) 0
  have hloop (l : Nat) : t.bit (Reg.CEU.LOOP_CTRL l) 0 = s.bit (Reg.CEU.LOOP_CTRL l) 0 := bit_of_rd (h.rd_off (by simp; omega)) 0
  have htsn (p : Nat) : t.bit (Reg.TSN.TSN_CTRL p) 0 = s.bit (Reg.TSN.TSN_CTRL p) 0 := bit_of_rd (h.rd_off (by simp)) 0
  have hsafe : t.safeState = s.safeState := fld_of_rd (h.rd_off (by simp)) 2 0
  simp only [State.sleepReason, hpath, hloop, htsn, hsafe, hcmds]

theorem devCmdAct_standby (v : Word) (linkL2 wakeNow : Bool) : devCmdAct (setBits v 3 0 1) linkL2 wakeNow = sleepAct false linkL2 wakeNow := by
  rw [devCmdAct, bits_setBits_same _ _ (by decide)]; rfl
theorem devCmdAct_deepSleep (v : Word) (linkL2 wakeNow : Bool) : devCmdAct (setBits v 3 0 2) linkL2 wakeNow = sleepAct true linkL2 wakeNow := by
  rw [devCmdAct, bits_setBits_same _ _ (by decide)]; rfl
theorem devCmdAct_wake (v : Word) (linkL2 wakeNow : Bool) : devCmdAct (setBits v 3 0 3) linkL2 wakeNow = wakeAct 1 := by
  rw [devCmdAct, bits_setBits_same _ _ (by decide)]; rfl

section
variable {s : State} {deep linkL2 wakeNow : Bool}

theorem sleepAct_taken (hrun : s.hw.darn.run = none) (hr : s.sleepReason deep linkL2 wakeNow = 0) :
    (sleepAct deep linkL2 wakeNow).run s = (if deep then enterDeep else enterStandby).run ((devResult 0).run s) := by
  rw [sleepAct, run_get, hrun, if_neg (by decide), sleepNow, run_get]
  dsimp only
  rw [hr, run_seq, run_when, if_pos (by rfl)]

theorem sleepAct_refused (hrun : s.hw.darn.run = none) (hr : s.sleepReason deep linkL2 wakeNow ≠ 0) :
    (sleepAct deep linkL2 wakeNow).run s = (devResult (s.sleepReason deep linkL2 wakeNow)).run s := by
  rw [sleepAct, run_get, hrun, if_neg (by decide), sleepNow, run_get]
  dsimp only
  rw [run_seq, run_when, if_neg (by simpa using hr)]

theorem sleepAct_waits (hrun : s.hw.darn.run ≠ none) :
    (sleepAct deep linkL2 wakeNow).run s = (Act.pwr fun x => { x with deferred := some (if deep then 2 else 1) }).run s := by
  rw [sleepAct, run_get, if_pos (Option.isSome_iff_ne_none.2 hrun)]

end

/-- The state in which DEV_CMD's effect begins differs in DEV_CMD's count alone. -/
theorem Written.devCmd {s q : State} {row : RegRow} {v : Word} (hq : Written s Reg.PWR.DEV_CMD row v q)
    (hrow : row = ⟨0x070, 1, 4, .WO, 0, 0, 0, 0, false⟩) : SameRegs [Reg.HDR.WRITE_COUNT .PWR 0] s q := by
  subst hrow
  exact hq.kept (fun _ => rfl) (by decide +kernel) (by simp)

section
variable {s : State} (hl : s.live) {v : Word} {n : Nat} {deep linkL2 wakeNow : Bool} (hacc : s.accepts 0 Reg.PWR.DEV_CMD v = true)
include hl hacc

/-- A sleep command that nothing stands against. -/
theorem sleep_taken (hrun : s.hw.darn.run = none) (hr : s.sleepReason deep linkL2 wakeNow = 0) :
    let t := (hostRegWith 0 Reg.PWR.DEV_CMD v (sleepAct deep linkL2 wakeNow)).run s
    (t.fld Reg.PWR.PWR_STATUS 2 0 = (if deep then 3 else 2) ∧ t.bit Reg.PWR.DEV_RESULT 0 = true ∧ t.bit Reg.PWR.DEV_RESULT 1 = true ∧
      t.es = s.es ∧ t.tsc = s.tsc) ∧
    (deep = false → t.hw.pwr.target = 6000 ∧ t.out = s.out) ∧ (deep = true → t.hw.pwr.coreOn = false ∧ LetsGo s.out t) := by
  obtain ⟨q, hq, hj⟩ := hostRegWith_run (a := sleepAct deep linkL2 wakeNow) hl.1 devCmd_row hacc
  rw [sleepAct_taken (by rw [hq.hw]; exact hrun) ((sleepReason_same hq.regs (by rw [hq.hw]) _ _ _).trans hr)] at hj
  obtain ⟨b0, b1⟩ := devResult_taken hq.sound.1.1
  have hp : keysRise ((devResult 0).run q).regs := rise_run _ hq.sound.1.1
  have hrest : SameRest s ((devResult 0).run q) := hq.rest.trans ⟨rfl, rfl, rfl, rfl, rfl⟩
  generalize (devResult 0).run q = p at *
  dsimp only
  generalize (hostRegWith 0 Reg.PWR.DEV_CMD v (sleepAct deep linkL2 wakeNow)).run s = t at *
  have hstatus : t.fld Reg.PWR.PWR_STATUS 2 0 = _ := fld_of_rd (hj.rd (by decide) (by decide) (by decide) (by decide)) 2 0
  have hresult : t.rd Reg.PWR.DEV_RESULT = _ := hj.rd (by decide) (by decide) (by decide) (by decide)
  cases deep
  case false =>
    obtain ⟨h1, h2, h3, h4⟩ := enterStandby_effect hp
    have hall := hrest.trans h4
    exact ⟨⟨hstatus.trans h1, (bit_of_rd (hresult.trans h2) 0).trans b0, (bit_of_rd (hresult.trans h2) 1).trans b1, hj.es.trans hall.es,
      hj.tsc.trans hall.tsc⟩, fun _ => ⟨(hj.part (·.pwr.target)).trans h3, hj.out.trans hall.out⟩, fun h => absurd h (by decide)⟩
  case true =>
    obtain ⟨h1, h2, h3, h4, h5, h6⟩ := enterDeep_effect hp
    have hbit (k : Nat) : t.bit Reg.PWR.DEV_RESULT k = (p.bit Reg.PWR.DEV_RESULT k && (0xFFF03 : Word).getLsbD k) := by
      rw [State.bit, hresult, if_pos rfl, h2, BitVec.getLsbD_and, State.bit]
    refine ⟨⟨hstatus.trans h1, (hbit 0).trans (by rw [b0]; rfl), (hbit 1).trans (by rw [b1]; rfl), hj.es.trans (h5.trans hrest.es),
      hj.tsc.trans (h6.trans hrest.tsc)⟩, fun h => absurd h (by decide), fun _ => ⟨(hj.part (·.pwr.coreOn)).trans h3, ?_⟩⟩
    rw [LetsGo, hj.out, ← hrest.out]
    exact h4

/-- A sleep command refused. -/
theorem sleep_refused (hrun : s.hw.darn.run = none) (hr : s.sleepReason deep linkL2 wakeNow ≠ 0) :
    let t := (hostRegWith 0 Reg.PWR.DEV_CMD v (sleepAct deep linkL2 wakeNow)).run s
    t.fld Reg.PWR.PWR_STATUS 2 0 = s.fld Reg.PWR.PWR_STATUS 2 0 ∧
      t.fld Reg.PWR.DEV_RESULT 15 0 = 1 + 256 * s.sleepReason deep linkL2 wakeNow ∧ SameRegs (Reg.PWR.DEV_RESULT :: hostTrail .PWR 0) s t ∧
      t.es = s.es ∧ t.tsc = s.tsc ∧ t.out = s.out := by
  obtain ⟨q, hq, hj⟩ := hostRegWith_run (a := sleepAct deep linkL2 wakeNow) hl.1 devCmd_row hacc
  have hreason : q.sleepReason deep linkL2 wakeNow = s.sleepReason deep linkL2 wakeNow := sleepReason_same hq.regs (by rw [hq.hw]) _ _ _
  rw [sleepAct_refused (by rw [hq.hw]; exact hrun) (by rw [hreason]; exact hr), hreason] at hj
  have hres := devResult_effect hq.sound.1.1 (sleepReason_lt s deep linkL2 wakeNow)
  rw [beq_false_of_ne hr] at hres
  have hset : (devResult (s.sleepReason deep linkL2 wakeNow)).Only (.regs [Reg.PWR.DEV_RESULT]) := by simp [devResult]
  obtain ⟨h1, h2⟩ := hset.frame q
  have hall := hj.sameRegs (b := .PWR) (i := 0) (m := Reg.PWR.DEV_RESULT :: hostTrail .PWR 0) (hq.devCmd rfl) h1 (by simp [hostTrail]) (by simp) (by simp)
  have hrest := hq.rest.trans h2
  exact ⟨fld_of_rd (hall _ (by decide)) 2 0, (fld_of_rd (hj.rd (by decide) (by decide) (by decide) (by decide)) 15 0).trans hres, hall,
    hj.es.trans hrest.es, hj.tsc.trans hrest.tsc, hj.out.trans hrest.out⟩

/-- A sleep command put off by a darning. -/
theorem sleep_waits (hrun : s.hw.darn.run ≠ none) :
    let t := (hostRegWith 0 Reg.PWR.DEV_CMD v (sleepAct deep linkL2 wakeNow)).run s
    t.hw.pwr.deferred = some (if deep then 2 else 1) ∧ SameRegs (hostTrail .PWR 0) s t ∧ t.es = s.es ∧ t.tsc = s.tsc ∧ t.out = s.out := by
  obtain ⟨q, hq, hj⟩ := hostRegWith_run (a := sleepAct deep linkL2 wakeNow) hl.1 devCmd_row hacc
  rw [sleepAct_waits (by rw [hq.hw]; exact hrun)] at hj
  have hall := hj.sameRegs (b := .PWR) (i := 0) (l' := []) (m := hostTrail .PWR 0) (hq.devCmd rfl) (fun _ _ => rfl) (by simp [hostTrail]) (by simp) (by simp)
  have hrest := hq.rest.trans (rest_hw (fun h => { h with pwr := { h.pwr with deferred := some (if deep then 2 else 1) } }) q)
  exact ⟨hj.part (·.pwr.deferred), hall, hj.es.trans hrest.es, hj.tsc.trans hrest.tsc, hj.out.trans hrest.out⟩

end

/-! ### Wake (R615) -/

/-- The state, the cause, the supply and the clocks. -/
def wakeBegin (cause : Nat) : Act := .all
  [.setFld Reg.PWR.PWR_STATUS 2 0 0, .setFld Reg.PWR.DEV_RESULT 19 16 cause, .pwr fun x => { x with coreOn := true },
   .modReg Reg.CLK.CLK_STATUS fun w => w ||| 0x71FFF]

/-- The memories, and what DEEP_SLEEP or STANDBY had put by. -/
def wakeRest (s : State) (st : Nat) : Act := .all
  [.each (List.range 8) fun m => .get fun t => .when (t.memcState m == 3)
     (.seq (.setFld (Reg.MEMC.MEMC_STATUS m) 0 0 1) (setMemcState m 1)),
   .when (st == 3) <| .all
     [applyMap, startEngines 0, startFces 0, .each (allPages []) fun (b, i) => setReady b i true,
      .wrN Reg.PIN.PIN_STATUS (s.hw.boot.straps % 4 + 0x700)],
   .when (st == 2) (.seq (.each (List.range 36) fun p => setPower .ENG p 1) (.each (List.range 4) fun i => setPower .FCE i 1))]

theorem wakeAct_run {s : State} (cause : Nat) (hst : s.fld Reg.PWR.PWR_STATUS 2 0 = 2 ∨ s.fld Reg.PWR.PWR_STATUS 2 0 = 3) :
    (wakeAct cause).run s = (pwrRaise 6).run ((pwrRaise 5).run ((wakeRest s (s.fld Reg.PWR.PWR_STATUS 2 0)).run
      ((setTarget 7500).run ((wakeBegin cause).run s)))) := by
  have hcond : (s.fld Reg.PWR.PWR_STATUS 2 0 == 2 || s.fld Reg.PWR.PWR_STATUS 2 0 == 3) = true := by
    rcases hst with h | h <;> rw [h] <;> rfl
  rw [wakeAct, run_get]
  dsimp only
  rw [run_when, if_pos hcond]
  simp only [wakeBegin, wakeRest, run_all_cons, run_all_nil]

theorem keeps_power_wakeRest (s : State) (st : Nat) : (wakeRest s st).Keeps State.powerState := by
  refine .cons (.each fun m _ => .get fun t => .when fun _ => .seq (Act.Only.keeps_power (by simp [Blk.slot])) (only_setMemcState 1).keeps_power)
    (.cons (.when fun _ => .cons keeps_power_applyMap (.cons (Act.Only.keeps_power (by simp [startEngines, setEngState, Blk.slot]))
      (.cons (Act.Only.keeps_power (by simp [startFces, setFceState, Blk.slot])) (.cons (Act.Only.keeps_power (by simp [setReady]))
        (.cons (Act.Only.keeps_power (by simp [Blk.slot])) keeps_all_nil)))))
    (.cons (.when fun _ => .seq (Act.Only.keeps_power (by simp [setPower])) (Act.Only.keeps_power (by simp [setPower]))) keeps_all_nil))

theorem inside_wakeRest (s : State) (st : Nat) : (wakeRest s st).Only .inside := by
  simp [wakeRest, setMemcState, inside_applyMap, startEngines, setEngState, startFces, setFceState, setReady, setPower]

theorem run_all_four (a b c d : Act) (s : State) : (Act.all [a, b, c, d]).run s = d.run (c.run (b.run (a.run s))) := rfl

theorem wakeBegin_effect {s : State} (hs : keysRise s.regs) {cause : Nat} (hc : cause < 16) :
    let t := (wakeBegin cause).run s
    t.fld Reg.PWR.PWR_STATUS 2 0 = 0 ∧ t.fld Reg.PWR.DEV_RESULT 19 16 = cause ∧ t.hw.pwr.coreOn = true ∧ SameRest s t := by
  have hst : ((Act.setFld Reg.PWR.PWR_STATUS 2 0 0).run s).fld Reg.PWR.PWR_STATUS 2 0 = 0 :=
    (fld_setFld_same hs _ _ (by decide) (by rw [mask_pwrStatus.1]; decide)).trans rfl
  have ha : keysRise ((Act.setFld Reg.PWR.PWR_STATUS 2 0 0).run s).regs := rise_run _ hs
  have hres : ((Act.setFld Reg.PWR.DEV_RESULT 19 16 cause).run ((Act.setFld Reg.PWR.PWR_STATUS 2 0 0).run s)).fld Reg.PWR.DEV_RESULT 19 16 = cause :=
    (fld_setFld_same ha _ cause (by decide) (by rw [mask_devResult]; decide)).trans (Nat.mod_eq_of_lt hc)
  have hstatus : ((Act.setFld Reg.PWR.DEV_RESULT 19 16 cause).run ((Act.setFld Reg.PWR.PWR_STATUS 2 0 0).run s)).fld Reg.PWR.PWR_STATUS 2 0 = 0 :=
    (fld_of_rd (rd_setFld_off (by simp)) 2 0).trans hst
  have hrest : (wakeBegin cause).Only .inside := by simp [wakeBegin]
  refine ⟨?_, ?_, ?_, hrest.inside s⟩ <;> rw [wakeBegin, run_all_four] <;>
    generalize (Act.setFld Reg.PWR.DEV_RESULT 19 16 cause).run ((Act.setFld Reg.PWR.PWR_STATUS 2 0 0).run s) = p at *
  · exact (fld_of_rd (rd_setReg_ne _ (by decide)) 2 0).trans hstatus
  · exact (fld_of_rd (rd_setReg_ne _ (by decide)) 19 16).trans hres
  · rfl

/-- The device wakes, and shows the cause. -/
theorem wake_effect {s : State} (hs : keysRise s.regs) (hst : s.fld Reg.PWR.PWR_STATUS 2 0 = 2 ∨ s.fld Reg.PWR.PWR_STATUS 2 0 = 3)
    {cause : Nat} (hc : cause < 16) :
    let t := (wakeAct cause).run s
    t.fld Reg.PWR.PWR_STATUS 2 0 = 0 ∧ t.fld Reg.PWR.DEV_RESULT 19 16 = cause ∧ t.hw.pwr.coreOn = true ∧ t.hw.pwr.target = 7500 ∧
      t.pend .PWR 0 5 = true ∧ t.pend .PWR 0 6 = true ∧ t.es = s.es ∧ t.tsc = s.tsc ∧ t.out = s.out := by
  dsimp only
  rw [wakeAct_run cause hst]
  generalize s.fld Reg.PWR.PWR_STATUS 2 0 = st
  obtain ⟨a1, a2, a3, a4⟩ := wakeBegin_effect hs hc
  have ha : keysRise ((wakeBegin cause).run s).regs := rise_run _ hs
  generalize (wakeBegin cause).run s = a at *
  obtain ⟨b1, -, b3, b4⟩ := setTarget_effect ha 7500
  have hb : keysRise ((setTarget 7500).run a).regs := rise_run _ ha
  generalize (setTarget 7500).run a = b at *
  obtain ⟨c1, c2, c3⟩ := powerState_of (keeps_power_wakeRest s st b hb) ((fld_of_rd (b3 _ (by decide)) 2 0).trans a1) (b3 _ (by decide))
    (congrArg Hw.pwr b1)
  have c4 := a4.trans (b4.trans ((inside_wakeRest s st).inside b))
  have hcRise : keysRise ((wakeRest s st).run b).regs := rise_run _ hb
  generalize (wakeRest s st).run b = c at *
  have hd : keysRise ((pwrRaise 5).run c).regs := rise_run _ hcRise
  have d5 : ((pwrRaise 5).run c).pend .PWR 0 5 = true := bit_raise hcRise (by decide) (by decide)
  obtain ⟨d1, d2, d3⟩ := powerState_of (keeps_power_raise 5 c hcRise) c1 c2 c3
  have d4 := c4.trans ((inside_pwrRaise 5).inside c)
  generalize (pwrRaise 5).run c = d at *
  obtain ⟨e1, e2, e3⟩ := powerState_of (keeps_power_raise 6 d hd) d1 d2 d3
  have e4 := d4.trans ((inside_pwrRaise 6).inside d)
  refine ⟨e1, (fld_of_rd e2 19 16).trans a2, ?_, by rw [e3], bit_raise_mono hd (by decide) d5, bit_raise hd (by decide) (by decide), e4.es, e4.tsc,
    e4.out⟩
  rw [e3]
  exact a3

/-- The WAKE command. -/
theorem wakeCmd_effect {s : State} (hl : s.live) {v : Word} (hacc : s.accepts 0 Reg.PWR.DEV_CMD v = true)
    (hst : s.fld Reg.PWR.PWR_STATUS 2 0 = 2 ∨ s.fld Reg.PWR.PWR_STATUS 2 0 = 3) :
    let t := (hostRegWith 0 Reg.PWR.DEV_CMD v (wakeAct 1)).run s
    t.fld Reg.PWR.PWR_STATUS 2 0 = 0 ∧ t.fld Reg.PWR.DEV_RESULT 19 16 = 1 ∧ t.hw.pwr.coreOn = true ∧ t.hw.pwr.target = 7500 ∧
      t.pend .PWR 0 5 = true ∧ t.pend .PWR 0 6 = true ∧ t.es = s.es ∧ t.tsc = s.tsc ∧ t.out = s.out := by
  obtain ⟨q, hq, hj⟩ := hostRegWith_run (a := wakeAct 1) hl.1 devCmd_row hacc
  have hstatus : q.fld Reg.PWR.PWR_STATUS 2 0 = s.fld Reg.PWR.PWR_STATUS 2 0 := fld_of_rd (hq.regs _ (by decide)) 2 0
  obtain ⟨h1, h2, h3, h4, h5, h6, h7, h8, h9⟩ := wake_effect hq.sound.1.1 (by rw [hstatus]; exact hst) (cause := 1) (by decide)
  have hkeep {off : Nat} (ho : off < 4096) := hj.rd (r := ⟨.PWR, 0, off⟩) (show (0 : Nat) < Blk.PWR.count by decide) ho (by simp) (by simp)
  exact ⟨(fld_of_rd (hkeep (off := 0x044) (by decide)) 2 0).trans h1, (fld_of_rd (hkeep (off := 0x074) (by decide)) 19 16).trans h2,
    (hj.part (·.pwr.coreOn)).trans h3, (hj.part (·.pwr.target)).trans h4,
    (bit_of_rd (hj.rd (r := Reg.HDR.IRQ_PEND .PWR 0) (by decide) (by decide) (by decide) (by decide)) 5).trans h5,
    (bit_of_rd (hj.rd (r := Reg.HDR.IRQ_PEND .PWR 0) (by decide) (by decide) (by decide) (by decide)) 6).trans h6,
    hj.es.trans (h7.trans hq.rest.es), hj.tsc.trans (h8.trans hq.rest.tsc), hj.out.trans (h9.trans hq.rest.out)⟩

/-- Settles O54: sleep and wake. -/
theorem sleepAndWake : Obligations.SleepAndWake := by
  unfold Obligations.SleepAndWake
  refine ⟨fun s linkL2 wakeNow v hl => ⟨fun hacc => ?_, fun hacc => ?_⟩, fun s v hl hst => ⟨fun hacc => ?_, fun h => ?_, fun h h' => ?_⟩,
    fun s hl => ⟨fun h => ?_, fun h => ?_⟩⟩
  · have hrun : exec (.standby 0 v) s = _ := (command_eq hl.2).trans (by rw [devCmdAct_standby])
    refine ⟨fun hd hr => ⟨_, hrun, ?_⟩, fun hd hr => ⟨_, hrun, sleep_refused hl hacc hd hr⟩, fun hd => ⟨_, hrun, sleep_waits hl hacc hd⟩⟩
    obtain ⟨h1, h2, -⟩ := sleep_taken hl hacc hd hr
    exact ⟨h1, h2 rfl⟩
  · have hrun : exec (.deepSleep 0 v linkL2 wakeNow) s = _ := (command_eq hl.2).trans (by rw [devCmdAct_deepSleep])
    refine ⟨fun hd hr => ⟨_, hrun, ?_⟩, fun hd hr => ⟨_, hrun, sleep_refused hl hacc hd hr⟩, fun hd => ⟨_, hrun, sleep_waits hl hacc hd⟩⟩
    obtain ⟨h1, -, h2⟩ := sleep_taken hl hacc hd hr
    exact ⟨h1, h2 rfl⟩
  · have hrun : exec (.wake 0 v) s = _ := (command_eq hl.2).trans (by rw [devCmdAct_wake])
    exact ⟨_, hrun, wakeCmd_effect hl hacc hst⟩
  · refine ⟨_, command_eq hl.2, ?_⟩
    rw [wakeLinkAct, run_get, run_when, if_pos h]
    exact wake_effect hl.1.1.1 hst (by decide)
  · refine ⟨_, command_eq hl.2, ?_⟩
    rw [wakeTimerAct, run_get, run_when, if_pos (by rw [h, decide_eq_true h']; rfl)]
    exact wake_effect hl.1.1.1 hst (by decide)
  · refine (command_eq hl.2).trans (congrArg (fun t : State => Host.Outcome.next t.settled) ?_)
    rw [wakeLinkAct, run_get, run_when, if_neg (by rw [h]; exact Bool.false_ne_true)]
  · refine (command_eq hl.2).trans (congrArg (fun t : State => Host.Outcome.next t.settled) ?_)
    have hoff : ¬(s.bit Reg.PWR.WAKE_CFG 2 && decide (s.rd64 Reg.PWR.WAKE_TSC_LO Reg.PWR.WAKE_TSC_HI ≤ s.now)) = true := by
      simp only [Bool.and_eq_true, decide_eq_true_eq, not_and, not_le]
      exact fun hb => h.resolve_left (by rw [hb]; decide)
    rw [wakeTimerAct, run_get, run_when, if_neg hoff]

end Sys2Proof.Machine

/-! ## Proofs: sequence commands (06_attention_and_kv_cache)

What memory holds after a store, an accepted write with the journal off, and O37. -/

namespace Sys2Proof.Machine

-- One theorem after the other: elaborated side by side, they hold more threads than the memory limit of a check allows.
set_option Elab.async false

/-! ### Memory after a store -/

theorem byte_setByte {s : State} (hs : keysRise s.mem) (a x : Nat) (b : Byte) :
    (s.setByte a b).byte x = if x = a then b else s.byte x := by
  unfold State.byte State.setByte
  split
  next h => rw [h]; exact alGet_alPut_same hs
  next h => exact alGet_alPut_ne (Ne.symm h) _

theorem byte_setBytes {s : State} (hs : keysRise s.mem) (a x : Nat) (l : List Byte) :
    (s.setBytes a l).byte x = if a ≤ x ∧ x < a + l.length then l.getD (x - a) 0 else s.byte x := by
  induction l generalizing s a with
  | nil => rw [State.setBytes, if_neg (by simp)]
  | cons b l ih =>
    rw [State.setBytes, ih (s := s.setByte a b) (keysRise_alPut hs), byte_setByte hs, List.length_cons]
    rcases Nat.lt_trichotomy x a with h | h | h
    · simp only [show ¬a + 1 ≤ x by omega, show ¬a ≤ x by omega, show x ≠ a by omega, false_and, if_false]
    · subst h
      rw [if_neg (by omega), if_pos rfl, if_pos (by omega), Nat.sub_self, List.getD_cons_zero]
    · by_cases hin : x < a + 1 + l.length
      · rw [if_pos ⟨by omega, hin⟩, if_pos (by omega), show x - a = x - (a + 1) + 1 by omega, List.getD_cons_succ]
      · rw [if_neg (by omega), if_neg (by omega), if_neg (by omega)]

/-- A byte of memory after a store. -/
theorem byte_run_bytes {s : State} (hs : keysRise s.mem) (a x : Nat) (l : List Byte) :
    ((Act.bytes a l).run s).byte x = if a ≤ x ∧ x < a + l.length then l.getD (x - a) 0 else s.byte x :=
  byte_setBytes hs a x l

/-- Bytes outside the store. -/
theorem byte_run_bytes_ne {s : State} (hs : keysRise s.mem) {a x : Nat} {l : List Byte} (h : x < a ∨ a + l.length ≤ x) :
    ((Act.bytes a l).run s).byte x = s.byte x := by
  rw [byte_run_bytes hs, if_neg (by omega)]

/-- Reading back what was stored. -/
theorem read_run_bytes {s : State} (hs : keysRise s.mem) (a : Nat) (l : List Byte) : ((Act.bytes a l).run s).read a l.length = l := by
  unfold State.read
  refine List.ext_getElem (by simp) fun i h1 h2 => ?_
  rw [List.getElem_map, List.getElem_range, byte_run_bytes hs, if_pos (by omega), Nat.add_sub_cancel_left,
    List.getD_eq_getElem _ _ h2]

theorem readN_run_mem {s : State} (hs : keysRise s.mem) (a k n : Nat) : ((Act.mem a k n).run s).readN a k = n % 256 ^ k := by
  have h := read_run_bytes hs a (leBytes k n)
  rw [length_leBytes] at h
  rw [State.readN, ← leNat_leBytes]
  exact congrArg leNat h

/-- Reading what the store did not reach. -/
theorem readN_run_bytes_ne {s : State} (hs : keysRise s.mem) {a b k : Nat} {l : List Byte} (h : b + k ≤ a ∨ a + l.length ≤ b) :
    ((Act.bytes a l).run s).readN b k = s.readN b k := by
  refine congrArg leNat (List.map_congr_left fun i hi => byte_run_bytes_ne hs ?_)
  have := List.mem_range.1 hi
  omega

theorem readN_of_mem {s t : State} (h : t.mem = s.mem) (a k : Nat) : t.readN a k = s.readN a k := by
  simp only [State.readN, State.read, State.byte, h]

theorem leNat_lt (l : List Byte) : leNat l < 256 ^ l.length := by
  induction l with
  | nil => decide
  | cons b l ih =>
    have hb := b.isLt
    rw [leNat, List.length_cons, pow_succ]
    omega

theorem readN_lt (s : State) (a k : Nat) : s.readN a k < 256 ^ k := by
  have h := leNat_lt (s.read a k)
  rwa [State.read, List.length_map, List.length_range] at h

/-! ### An accepted write with the journal off (R695) -/

theorem run_journal_off {s : State} (h : s.bit Reg.JRNL.JRNL_CTRL 0 = false) (src slot off old new w : Nat) :
    (journal src slot off old new w).run s = s := by
  rw [journal, run_get]
  dsimp only
  rw [run_when, if_neg (by rw [h]; exact Bool.false_ne_true)]

/-- With the journal off, an accepted write is its store and its effect. -/
theorem hostReg_unjournaled {s : State} {r : RegRef} {row : RegRow} {v : Word} (hrow : r.row = some row) (hacc : s.accepts 0 r v = true)
    (hoff : ((blockWrite 0 r.blk r.inst r.off (s.hostOld r) v).run (s.hostStored r row v)).bit Reg.JRNL.JRNL_CTRL 0 = false) :
    (hostReg 0 r v).run s = (blockWrite 0 r.blk r.inst r.off (s.hostOld r) v).run (s.hostStored r row v) := by
  have hrow' : rowAt r.blk r.inst r.off = some row := hrow
  simp only [State.accepts, Bool.and_eq_true, beq_iff_eq] at hacc
  unfold State.hostStored State.hostOld at *
  rw [hostReg, run_when, if_pos hacc.1, hostWrite, hostWriteWith, run_get]
  simp only [hacc.2, ne_eq, not_true_eq_false, if_false, hrow']
  rw [run_all_cons, run_all_cons, run_all_cons, run_all_cons, run_all_nil, run_get, run_when, run_when, run_modReg, run_wr]
  generalize behindSel r.blk r.off = q at *
  cases q <;> by_cases hj : journals r.blk r.off = true
  · rw [if_pos hj]; exact run_journal_off hoff ..
  · rw [if_neg hj]; rfl
  · rw [if_pos hj]; exact run_journal_off hoff ..
  · rw [if_neg hj]; rfl

theorem sound_hostStored {s : State} (hs : s.sound) (r : RegRef) (row : RegRow) (v : Word) : (s.hostStored r row v).sound := by
  have hrun : s.hostStored r row v = (Act.seq (.when (!behindSel r.blk r.off) (.wr (regAt r.blk r.inst r.off)
      (storedValue row (s.rd (regAt r.blk r.inst r.off)) v))) (.modReg (Reg.HDR.WRITE_COUNT r.blk r.inst) (· + 1))).run s := by
    rw [State.hostStored, run_seq, run_modReg, run_when, run_wr]
    cases behindSel r.blk r.off <;> rfl
  rw [hrun]
  exact sound_run _ _ hs

theorem rest_hostStored (s : State) (r : RegRef) (row : RegRow) (v : Word) : SameRest s (s.hostStored r row v) :=
  ⟨hostStored_mem .., by unfold State.hostStored; split <;> rfl, hostStored_es .., hostStored_tsc .., hostStored_out ..⟩

/-- A write whose effect leaves JRNL_CTRL, the journal off: the state the effect begins in, and the effect. -/
theorem hostReg_off_run {s : State} (hs : s.sound) {r : RegRef} {row : RegRow} {v : Word} {a : Act} (hrow : r.row = some row)
    (hacc : s.accepts 0 r v = true) (ha : blockWrite 0 r.blk r.inst r.off (s.hostOld r) v = a) (hkeep : a.Only (.but Reg.JRNL.JRNL_CTRL))
    (hoff : s.bit Reg.JRNL.JRNL_CTRL 0 = false)
    (hne : (regAt r.blk r.inst r.off).key ≠ Reg.JRNL.JRNL_CTRL.key ∧ (Reg.HDR.WRITE_COUNT r.blk r.inst).key ≠ Reg.JRNL.JRNL_CTRL.key) :
    ∃ q : State, q.sound ∧ q.hw = s.hw ∧ SameRest s q ∧ SameRegs [regAt r.blk r.inst r.off, Reg.HDR.WRITE_COUNT r.blk r.inst] s q ∧
      q = s.hostStored r row v ∧ (hostReg 0 r v).run s = a.run q := by
  have hregs := hostStored_regs s r row v
  refine ⟨_, sound_hostStored hs r row v, hostStored_hw .., rest_hostStored .., hregs, rfl, ?_⟩
  rw [hostReg_unjournaled hrow hacc, ha]
  rw [ha]
  refine (hkeep.keeps_rd.bit 0 _ (sound_hostStored hs r row v).1.1).trans ((bit_of_rd (hregs _ ?_) 0).trans hoff)
  simpa [eq_comm] using hne

/-! ### Sequence records -/

theorem seqAddr_same {s t : State} (h : t.rd64 Reg.KVW.STAB_LO Reg.KVW.STAB_HI = s.rd64 Reg.KVW.STAB_LO Reg.KVW.STAB_HI) (q : Nat) :
    t.seqAddr q = s.seqAddr q := by rw [State.seqAddr, State.seqAddr, h]

theorem seqRec_same {s t : State} (hm : t.mem = s.mem) (h : t.rd64 Reg.KVW.STAB_LO Reg.KVW.STAB_HI = s.rd64 Reg.KVW.STAB_LO Reg.KVW.STAB_HI)
    (q : Nat) : t.seqRec q = s.seqRec q := by
  have hb : t.byte = s.byte := funext fun a => by rw [State.byte, State.byte, hm]
  simp only [State.seqRec, seqAddr_same h, hb, readN_of_mem hm]

theorem mask_seqResult : RegRef.mask Reg.KVW.SEQ_RESULT = 0xFF03 := by decide +kernel
theorem seqCmd_row (st : Fin 4) : RegRef.row ⟨.KVW, st, 0x080⟩ = some ⟨0x080, 1, 0x04, .WO, 0, 0, 0, 0, true⟩ := by revert st; decide +kernel
theorem seqCmd_regAt (st : Fin 4) : regAt .KVW st 0x080 = Reg.KVW.SEQ_CMD := by revert st; decide +kernel

/-- What a sequence command may write (R295). -/
def Scope.seqWrites : Scope :=
  { reg := (· ∈ [Reg.KVW.FREE_HEAD, Reg.KVW.FREE_FRAMES, Reg.KVW.SEQ_RESULT]), mem := True, poison := True }

@[simp] theorem seqWrites_reg (r : RegRef) : Scope.seqWrites.reg r ↔ r ∈ [Reg.KVW.FREE_HEAD, Reg.KVW.FREE_FRAMES, Reg.KVW.SEQ_RESULT] := .rfl
@[simp] theorem seqWrites_mem : Scope.seqWrites.mem := trivial
@[simp] theorem seqWrites_hw (f : Hw → Hw) : Scope.seqWrites.hw f := trivial

theorem only_freePage (q i v : Nat) : (freePage q i v).Only .seqWrites := by simp [freePage, freeFrame, labDrop, Act.pte]

theorem only_releaseSeq (q : Nat) : (releaseSeq q).Only .seqWrites := by
  simp [releaseSeq, only_freePage, Act.seqState, Act.seqFlags, Act.seqGen, Act.seqFld, labDrop]

theorem only_truncateSeq (q n : Nat) : (truncateSeq q n).Only .seqWrites := by simp [truncateSeq, only_freePage, Act.seqFld]

theorem only_seqResult (n : Nat) : (seqResult n).Only .seqWrites := (only_wrN _ _).2 (by simp)

theorem only_seqCmd (v : Word) : (seqCmd v).Only .seqWrites := by
  refine (only_get _).2 fun s => ?_
  dsimp only
  split
  · exact only_seqResult 7
  split
  · exact only_seqResult 1
  split
  · exact ⟨only_releaseSeq _, only_seqResult 0⟩
  · exact ⟨only_truncateSeq _ _, only_seqResult 0⟩
  · exact (only_ite _ _ _).2 ⟨fun _ => ⟨trivial, only_seqResult 0⟩, fun _ => only_seqResult 7⟩
  · exact (only_ite _ _ _).2 ⟨fun _ => ⟨trivial, only_seqResult 0⟩, fun _ => only_seqResult 7⟩
  · exact only_seqResult 7

theorem seqResult_effect {s : State} (hs : keysRise s.regs) (n : Nat) :
    ((seqResult n).run s).rd Reg.KVW.SEQ_RESULT = BitVec.ofNat 32 (1 + 2 * b2n (n == 0) + 256 * n) &&& 0xFF03 := by
  rw [seqResult, run_wrN, rd_setReg_same hs, mask_seqResult]

section
variable {s : State} (hl : s.live) (hoff : s.bit Reg.JRNL.JRNL_CTRL 0 = false) (st : Fin 4) (v : Word) {op : Nat} (hop : op < 16)
  (hacc : s.accepts 0 ⟨.KVW, st, 0x080⟩ (setBits v 3 0 op) = true)
include hl hoff hop hacc

omit hop in
/-- SEQ_CMD written: the state in which the command begins, and its operands. -/
theorem seqCmd_begin : ∃ q : State, q.sound ∧ q.hw = s.hw ∧ SameRest s q ∧ SameRegs [Reg.KVW.SEQ_CMD, Reg.HDR.WRITE_COUNT .KVW st] s q ∧
    (hostReg 0 ⟨.KVW, st, 0x080⟩ (setBits v 3 0 op)).run s = (seqCmd (setBits v 3 0 op)).run q := by
  have hkeep : (seqCmd (setBits v 3 0 op)).Only (.but Reg.JRNL.JRNL_CTRL) := (only_seqCmd _).weaken
    (fun r hr => key_ne_of_off fun h => by
      simp only [seqWrites_reg, List.mem_cons, List.not_mem_nil, or_false] at hr
      rcases hr with rfl | rfl | rfl <;> exact absurd h (by decide)) (fun _ _ => trivial)
    (es := fun h => h.elim) (tsc := fun h => h.elim) (out := fun h => h.elim)
  obtain ⟨q, h1, h2, h3, h4, -, h6⟩ := hostReg_off_run hl.1 (seqCmd_row st) hacc rfl hkeep hoff
    ⟨by rw [seqCmd_regAt]; decide, key_ne_of_off (by simp)⟩
  rw [seqCmd_regAt] at h4
  exact ⟨q, h1, h2, h3, h4, h6⟩

/-- What the operands of the command read in the state in which it begins. -/
theorem seqCmd_operands : ∃ q : State, q.sound ∧ q.hw = s.hw ∧ SameRest s q ∧ (∀ k, q.seqRec k = s.seqRec k) ∧
    q.fld Reg.KVW.SEQ_MAX 16 0 = s.fld Reg.KVW.SEQ_MAX 16 0 ∧ q.rd Reg.KVW.SEQ_ARG = s.rd Reg.KVW.SEQ_ARG ∧
    bits (setBits v 3 0 op) 31 16 = bits v 31 16 ∧ bits (setBits v 3 0 op) 3 0 = op ∧
    (hostReg 0 ⟨.KVW, st, 0x080⟩ (setBits v 3 0 op)).run s = (seqCmd (setBits v 3 0 op)).run q := by
  obtain ⟨q, h1, h2, h3, h4, h5⟩ := seqCmd_begin hl hoff st v hacc
  have hstab : q.rd64 Reg.KVW.STAB_LO Reg.KVW.STAB_HI = s.rd64 Reg.KVW.STAB_LO Reg.KVW.STAB_HI := by
    rw [State.rd64, State.rd64, h4.rd_off (by simp), h4.rd_off (by simp)]
  exact ⟨q, h1, h2, h3, fun k => seqRec_same h3.mem hstab k, fld_of_rd (h4.rd_off (by simp)) 16 0, h4.rd_off (by simp),
    bits_setBits_other _ _ (.inr (by decide)), (bits_setBits_same _ _ (by decide)).trans (Nat.mod_eq_of_lt hop), h5⟩

end

section
variable {u : State} (hu : u.sound) {w : Word} {q op : Nat} (hq : bits w 31 16 = q) (hop : bits w 3 0 = op)
include hu hq

theorem seqCmd_beyond (hmax : u.fld Reg.KVW.SEQ_MAX 16 0 ≤ q) :
    ((seqCmd w).run u).rd Reg.KVW.SEQ_RESULT = 0x701 ∧ ((seqCmd w).run u).mem = u.mem := by
  have hrun : (seqCmd w).run u = (seqResult 7).run u := by
    rw [seqCmd, run_get]
    dsimp only
    rw [if_pos (by rw [hq]; exact hmax)]
  rw [hrun]
  exact ⟨seqResult_effect hu.1.1 7, rfl⟩

variable (hmax : q < u.fld Reg.KVW.SEQ_MAX 16 0)
include hmax

theorem seqCmd_locked (hlock : (u.seqRec q).locked = true) :
    ((seqCmd w).run u).rd Reg.KVW.SEQ_RESULT = 0x101 ∧ ((seqCmd w).run u).mem = u.mem := by
  have hrun : (seqCmd w).run u = (seqResult 1).run u := by
    rw [seqCmd, run_get]
    dsimp only
    rw [hq, if_neg (Nat.not_le.2 hmax), if_pos hlock]
  rw [hrun]
  exact ⟨seqResult_effect hu.1.1 1, rfl⟩

variable (hlock : (u.seqRec q).locked = false)
include hlock

omit hu in
theorem seqCmd_release (hop : bits w 3 0 = 1) : (seqCmd w).run u = (seqResult 0).run ((releaseSeq q).run u) := by
  rw [seqCmd, run_get]
  dsimp only
  rw [hq, if_neg (Nat.not_le.2 hmax), if_neg (by rw [hlock]; exact Bool.false_ne_true), hop]
  rfl

omit hu in
theorem seqCmd_truncate (hop : bits w 3 0 = 2) (hlayout : (u.seqRec q).layout ≠ 2) :
    (seqCmd w).run u = (seqResult 0).run ((truncateSeq q (min (u.rd Reg.KVW.SEQ_ARG).toNat (u.seqRec q).len)).run u) := by
  rw [seqCmd, run_get]
  dsimp only
  rw [hq, if_neg (Nat.not_le.2 hmax), if_neg (by rw [hlock]; exact Bool.false_ne_true), hop, if_neg hlayout]
  rfl

omit hu in
theorem seqCmd_pin (hop : bits w 3 0 = 3) (hcap : (u.rd Reg.KVW.SEQ_ARG).toNat < (u.seqRec q).cap) :
    (seqCmd w).run u = (seqResult 0).run ((Act.pte (u.seqRec q) (u.rd Reg.KVW.SEQ_ARG).toNat
      (u.pte (u.seqRec q) (u.rd Reg.KVW.SEQ_ARG).toNat ||| 0x02000000)).run u) := by
  rw [seqCmd, run_get]
  dsimp only
  rw [hq, if_neg (Nat.not_le.2 hmax), if_neg (by rw [hlock]; exact Bool.false_ne_true), hop, if_pos hcap]
  rfl

omit hu in
theorem seqCmd_unpin (hop : bits w 3 0 = 4) (hcap : (u.rd Reg.KVW.SEQ_ARG).toNat < (u.seqRec q).cap) :
    (seqCmd w).run u = (seqResult 0).run ((Act.pte (u.seqRec q) (u.rd Reg.KVW.SEQ_ARG).toNat
      (u.pte (u.seqRec q) (u.rd Reg.KVW.SEQ_ARG).toNat &&& 0xFDFFFFFF)).run u) := by
  rw [seqCmd, run_get]
  dsimp only
  rw [hq, if_neg (Nat.not_le.2 hmax), if_neg (by rw [hlock]; exact Bool.false_ne_true), hop]
  simp only [if_pos hcap]
  rfl

end

/-! ### What the commands leave -/

theorem pte_lt (s : State) (r : SeqRec) (i : Nat) : s.pte r i < 2 ^ 32 := readN_lt s _ 4

/-- A page-table entry set. -/
theorem pte_effect {u : State} (hu : u.sound) (r : SeqRec) (i : Nat) {e : Nat} (he : e < 2 ^ 32) :
    let t := (Act.pte r i e).run u
    t.pte r i = e ∧ (∀ a, a < r.pt + 4 * i ∨ r.pt + 4 * i + 4 ≤ a → t.byte a = u.byte a) := by
  refine ⟨(readN_run_mem hu.2.1.1 _ 4 e).trans (Nat.mod_eq_of_lt he), fun a ha => byte_run_bytes_ne hu.2.1.1 ?_⟩
  rw [length_leBytes]
  exact ha

theorem truncateSeq_effect {u : State} (hu : u.sound) {q n : Nat} (hn : n < 2 ^ 32) (hlayout : (u.seqRec q).layout ≠ 2)
    (hlocal : ∀ i ∈ u.localPages (u.seqRec q), 16 * i < n) : (((truncateSeq q n).run u).seqRec q).len = n := by
  have hnone : (u.localPages (u.seqRec q)).filter (fun i => decide (n ≤ 16 * i)) = [] :=
    List.filter_eq_nil_iff.2 fun i hi => by simpa using hlocal i hi
  have hrun : (truncateSeq q n).run u = (Act.mem (u.seqAddr q + 4) 4 n).run u := by
    rw [truncateSeq, run_get]
    dsimp only
    rw [hnone, if_neg hlayout, Nat.sub_zero]
    rfl
  rw [hrun]
  exact (readN_run_mem hu.2.1.1 _ 4 n).trans (Nat.mod_eq_of_lt hn)

/-- STATE FREE and GEN raised. -/
def seqFreed (q : Nat) : Act := .seq (.seqState q sqFREE) (.seqGen q)

theorem seqFreed_effect {u : State} (hu : u.sound) (q : Nat) :
    (((seqFreed q).run u).seqRec q).state = sqFREE ∧ (((seqFreed q).run u).seqRec q).gen = ((u.seqRec q).gen + 1) % 65536 := by
  let b := setBits (u.byte (u.seqAddr q)) 2 0 sqFREE
  let p := (Act.bytes (u.seqAddr q) [b]).run u
  have hp : p.sound := sound_run _ _ hu
  have hgen : (p.seqRec q).gen = (u.seqRec q).gen := readN_run_bytes_ne hu.2.1.1 (.inr (Nat.add_le_add_left (show 1 ≤ 22 by decide) _))
  have hrun : (seqFreed q).run u = (Act.mem (p.seqAddr q + 22) 2 ((u.seqRec q).gen + 1)).run p := by rw [← hgen]; rfl
  rw [hrun]
  refine ⟨?_, readN_run_mem hp.2.1.1 _ 2 _⟩
  have hbyte : ((Act.mem (p.seqAddr q + 22) 2 ((u.seqRec q).gen + 1)).run p).byte (u.seqAddr q) = b :=
    (byte_run_bytes_ne hp.2.1.1 (.inl (Nat.lt_add_of_pos_right (show 0 < 22 by decide)))).trans
      ((byte_run_bytes hu.2.1.1 (u.seqAddr q) (u.seqAddr q) [b]).trans (by rw [if_pos ⟨Nat.le_refl _, Nat.lt_succ_self _⟩, Nat.sub_self, List.getD_cons_zero]))
  have hstate : b.toNat % 8 = sqFREE := bits_setBits_same (u.byte (u.seqAddr q)) (hi := 2) (lo := 0) sqFREE (by decide)
  exact (congrArg (fun x : Byte => x.toNat % 8) hbyte).trans hstate

/-- Nothing of sequence `q` stays in the look-aside buffers, nor bound. -/
def seqForgotten (q : Nat) : Act := .seq (labDrop fun e => e.seq == q) (.kv fun k => { k with binds := k.binds.filter fun b => b.1 != q })

theorem releaseSeq_run (u : State) (q : Nat) : (releaseSeq q).run u = (seqForgotten q).run ((seqFreed q).run
    ((Act.each ((List.range (u.seqRec q).cap).filter fun i => u.pte (u.seqRec q) i != 0) fun i => freePage q i 0).run u)) := by
  simp only [releaseSeq, seqFreed, seqForgotten, run_get, run_all_cons, run_all_nil, run_seq]

theorem seqForgotten_effect (u : State) (q : Nat) :
    let t := (seqForgotten q).run u
    (∀ l ∈ t.hw.kv.labs, ∀ e ∈ l, e.seq ≠ q) ∧ (∀ b ∈ t.hw.kv.binds, b.1 ≠ q) ∧ t.seqRec q = u.seqRec q := by
  refine ⟨fun l hl e he => ?_, fun b hb => ?_, rfl⟩
  · obtain ⟨l', -, rfl⟩ := List.mem_map.1 (show l ∈ u.hw.kv.labs.map fun l => l.filter fun e => !(e.seq == q) from hl)
    simpa using (List.mem_filter.1 he).2
  · have hb' : b ∈ u.hw.kv.binds.filter fun b => b.1 != q := hb
    simpa using (List.mem_filter.1 hb').2

/-- RELEASE: nothing of the sequence stays in the look-aside buffers or bound, and it is FREE. -/
theorem releaseSeq_effect {u : State} (hu : u.sound) (q : Nat) :
    let t := (releaseSeq q).run u
    (∀ l ∈ t.hw.kv.labs, ∀ e ∈ l, e.seq ≠ q) ∧ (∀ b ∈ t.hw.kv.binds, b.1 ≠ q) ∧
      ((∀ i < (u.seqRec q).cap, u.pte (u.seqRec q) i = 0) →
        (t.seqRec q).state = sqFREE ∧ (t.seqRec q).gen = ((u.seqRec q).gen + 1) % 65536) := by
  obtain ⟨h1, h2, h3⟩ := seqForgotten_effect ((seqFreed q).run
    ((Act.each ((List.range (u.seqRec q).cap).filter fun i => u.pte (u.seqRec q) i != 0) fun i => freePage q i 0).run u)) q
  dsimp only
  rw [releaseSeq_run]
  refine ⟨h1, h2, fun hfree => ?_⟩
  have hnone : (List.range (u.seqRec q).cap).filter (fun i => u.pte (u.seqRec q) i != 0) = [] :=
    List.filter_eq_nil_iff.2 fun i hi => by simp [hfree i (List.mem_range.1 hi)]
  rw [h3, hnone]
  exact seqFreed_effect hu q

theorem seqRec_seqResult (s : State) (n q : Nat) : ((seqResult n).run s).seqRec q = s.seqRec q := by
  have h {r : RegRef} (hr : Reg.KVW.SEQ_RESULT.off % 4096 ≠ r.off % 4096) : ((seqResult n).run s).rd r = s.rd r := rd_setReg_off hr
  refine seqRec_same (s := s) (t := (seqResult n).run s) rfl ?_ q
  unfold State.rd64
  rw [h (by simp), h (by simp)]

/-- A sequence command leaves the engine stores, the counter and what has left the block. -/
theorem seqCmd_end {s u : State} (h : SameRest s u) (w : Word) :
    ((seqCmd w).run u).es = s.es ∧ ((seqCmd w).run u).tsc = s.tsc ∧ ((seqCmd w).run u).out = s.out :=
  ⟨((only_seqCmd w).es id u).trans h.es, ((only_seqCmd w).tsc id u).trans h.tsc, ((only_seqCmd w).out id u).trans h.out⟩

/-- Settles O37: sequence commands. -/
theorem sequenceCommands : Obligations.SequenceCommands := by
  unfold Obligations.SequenceCommands
  intro s st v hl hoff
  dsimp only
  have hbegin {op : Nat} (hop : op < 16) (hacc : s.accepts 0 ⟨.KVW, st, 0x080⟩ (setBits v 3 0 op) = true) :=
    seqCmd_operands hl hoff st v hop hacc
  refine ⟨fun op i hi hacc => ?_, fun hmax hlock => ⟨fun hacc => ?_, fun hacc hlocal hlayout => ?_, fun hcap hacc => ?_, fun hcap hacc => ?_⟩⟩
  · have hcmd : op < 16 ∧ exec i s = .next ((hostReg 0 ⟨.KVW, st, 0x080⟩ (setBits v 3 0 op)).run s).settled := by
      simp only [List.mem_cons, List.not_mem_nil, or_false, Prod.mk.injEq] at hi
      rcases hi with ⟨rfl, rfl⟩ | ⟨rfl, rfl⟩ | ⟨rfl, rfl⟩ | ⟨rfl, rfl⟩ <;> exact ⟨by decide, command_eq hl.2⟩
    obtain ⟨u, h1, h2, h3, h4, h5, -, h7, -, h9⟩ := hbegin hcmd.1 hacc
    refine ⟨fun hmax => ⟨_, hcmd.2, ?_⟩, fun hmax hlock => ⟨_, hcmd.2, ?_⟩⟩
    · obtain ⟨e1, e2⟩ := seqCmd_beyond h1 h7 (by rw [h5]; exact hmax)
      rw [h9]
      exact ⟨e1, e2.trans h3.mem⟩
    · obtain ⟨e1, e2⟩ := seqCmd_locked h1 h7 (by rw [h5]; exact hmax) (by rw [h4]; exact hlock)
      rw [h9]
      exact ⟨e1, e2.trans h3.mem⟩
  · obtain ⟨u, h1, h2, h3, h4, h5, -, h7, h8, h9⟩ := hbegin (op := 1) (by decide) hacc
    obtain ⟨e1, e2, e3⟩ := releaseSeq_effect h1 (bits v 31 16)
    have hpte (i : Nat) : u.pte (s.seqRec (bits v 31 16)) i = s.pte (s.seqRec (bits v 31 16)) i := readN_of_mem h3.mem _ _
    rw [h4] at e3
    simp only [hpte] at e3
    refine ⟨_, (command_eq hl.2).trans (congrArg (fun t : State => Host.Outcome.next t.settled) h9), ?_⟩
    have hend := seqCmd_end h3 (setBits v 3 0 1)
    rw [seqCmd_release h7 (by rw [h5]; exact hmax) (by rw [h4]; exact hlock) h8] at hend ⊢
    have hx : ((releaseSeq (bits v 31 16)).run u).sound := sound_run _ _ h1
    generalize (releaseSeq (bits v 31 16)).run u = x at *
    exact ⟨seqResult_effect hx.1.1 0, e1, e2, by rw [seqRec_seqResult]; exact e3, hend⟩
  · obtain ⟨u, h1, h2, h3, h4, h5, h6, h7, h8, h9⟩ := hbegin (op := 2) (by decide) hacc
    have hlen : min (s.rd Reg.KVW.SEQ_ARG).toNat (s.seqRec (bits v 31 16)).len < 2 ^ 32 := Nat.lt_of_le_of_lt (Nat.min_le_left _ _) (BitVec.isLt _)
    have hpages : u.localPages (s.seqRec (bits v 31 16)) = s.localPages (s.seqRec (bits v 31 16)) := by
      simp only [State.localPages, State.pte, readN_of_mem h3.mem]
    have e1 := truncateSeq_effect h1 (q := bits v 31 16) hlen (by rw [h4]; exact hlayout) (by rw [h4, hpages]; exact hlocal)
    refine ⟨_, (command_eq hl.2).trans (congrArg (fun t : State => Host.Outcome.next t.settled) h9), ?_⟩
    have hend := seqCmd_end h3 (setBits v 3 0 2)
    rw [seqCmd_truncate h7 (by rw [h5]; exact hmax) (by rw [h4]; exact hlock) h8 (by rw [h4]; exact hlayout), h4, h6] at hend ⊢
    have hx : ((truncateSeq (bits v 31 16) (min (s.rd Reg.KVW.SEQ_ARG).toNat (s.seqRec (bits v 31 16)).len)).run u).sound := sound_run _ _ h1
    generalize (truncateSeq (bits v 31 16) (min (s.rd Reg.KVW.SEQ_ARG).toNat (s.seqRec (bits v 31 16)).len)).run u = x at *
    exact ⟨seqResult_effect hx.1.1 0, by rw [seqRec_seqResult]; exact e1, hend⟩
  · obtain ⟨u, h1, h2, h3, h4, h5, h6, h7, h8, h9⟩ := hbegin (op := 3) (by decide) hacc
    refine ⟨_, (command_eq hl.2).trans (congrArg (fun t : State => Host.Outcome.next t.settled) h9), ?_⟩
    have hpte (i : Nat) : u.pte (s.seqRec (bits v 31 16)) i = s.pte (s.seqRec (bits v 31 16)) i := readN_of_mem h3.mem _ _
    have hend := seqCmd_end h3 (setBits v 3 0 3)
    rw [seqCmd_pin h7 (by rw [h5]; exact hmax) (by rw [h4]; exact hlock) h8 (by rw [h4, h6]; exact hcap), h4, h6, hpte] at hend ⊢
    obtain ⟨e1, e2⟩ := pte_effect h1 (s.seqRec (bits v 31 16)) (s.rd Reg.KVW.SEQ_ARG).toNat
      (Nat.or_lt_two_pow (pte_lt s _ _) (show 0x02000000 < 2 ^ 32 by decide))
    generalize s.pte (s.seqRec (bits v 31 16)) (s.rd Reg.KVW.SEQ_ARG).toNat ||| 33554432 = e at *
    have hx : ((Act.pte (s.seqRec (bits v 31 16)) (s.rd Reg.KVW.SEQ_ARG).toNat e).run u).sound := sound_run _ _ h1
    generalize (Act.pte (s.seqRec (bits v 31 16)) (s.rd Reg.KVW.SEQ_ARG).toNat e).run u = x at *
    exact ⟨seqResult_effect hx.1.1 0, e1, fun a ha => (e2 a ha).trans (congrArg (alGet 0 a) h3.mem), hend⟩
  · obtain ⟨u, h1, h2, h3, h4, h5, h6, h7, h8, h9⟩ := hbegin (op := 4) (by decide) hacc
    refine ⟨_, (command_eq hl.2).trans (congrArg (fun t : State => Host.Outcome.next t.settled) h9), ?_⟩
    have hpte (i : Nat) : u.pte (s.seqRec (bits v 31 16)) i = s.pte (s.seqRec (bits v 31 16)) i := readN_of_mem h3.mem _ _
    have hend := seqCmd_end h3 (setBits v 3 0 4)
    rw [seqCmd_unpin h7 (by rw [h5]; exact hmax) (by rw [h4]; exact hlock) h8 (by rw [h4, h6]; exact hcap), h4, h6, hpte] at hend ⊢
    obtain ⟨e1, e2⟩ := pte_effect h1 (s.seqRec (bits v 31 16)) (s.rd Reg.KVW.SEQ_ARG).toNat
      (Nat.lt_of_le_of_lt Nat.and_le_left (pte_lt s _ _))
    generalize s.pte (s.seqRec (bits v 31 16)) (s.rd Reg.KVW.SEQ_ARG).toNat &&& 4261412863 = e at *
    have hx : ((Act.pte (s.seqRec (bits v 31 16)) (s.rd Reg.KVW.SEQ_ARG).toNat e).run u).sound := sound_run _ _ h1
    generalize (Act.pte (s.seqRec (bits v 31 16)) (s.rd Reg.KVW.SEQ_ARG).toNat e).run u = x at *
    exact ⟨seqResult_effect hx.1.1 0, e1, fun a ha => (e2 a ha).trans (congrArg (alGet 0 a) h3.mem), hend⟩

end Sys2Proof.Machine

/-! ## Proofs: what the end of a command changes (10_contexts_and_scheduling)

Ending, stopping and refusing commands, completion entries, and what they leave alone. -/

namespace Sys2Proof.Machine

-- One theorem after the other: elaborated side by side, they hold more threads than the memory limit of a check allows.
set_option Elab.async false

/-- The deadline monitor's part of the dispatcher: followed and decided items, and the decision rings. -/
def DispSt.monitor (d : DispSt) : DispSt := { items := d.items, decided := d.decided, broken := d.broken, ringNext := d.ringNext }

/-- Block state without what the end of a command changes: the dispatcher beside the monitor, streams, the gatherer, what has been
told, the engines, the blocks taken, traffic counters. -/
def Hw.sansWork (h : Hw) : Hw :=
  { h with disp := h.disp.monitor, streams := [], events := [], cmn := [], memc := [], gath := {}, eng := [], fce := [], blk := {},
           txt := { h.txt with tok := none, detok := none } }

/-- The registers that the end of a command may write. -/
def endReg (r : RegRef) : Prop := r ∈ [Reg.CMP.AUTH_REFUSE, Reg.HDR.IRQ_PEND .CMP 0, Reg.HDR.IRQ_MASK .CMP 0, Reg.DISP.LAST_ERR] ∨
  r.off = 0x044 ∧ (r.blk = .ENG ∨ r.blk = .FCE) ∨ r.blk = .SFE ∧ r.inst = 0 ∧ r.off < 4096

/-- What the end of a command may change. -/
def Scope.ending : Scope := { reg := endReg, mem := True, poison := True, hw := fun f => ∀ h : Hw, (f h).sansWork = h.sansWork }

@[simp] theorem ending_reg (r : RegRef) : Scope.ending.reg r ↔ r ∈ [Reg.CMP.AUTH_REFUSE, Reg.HDR.IRQ_PEND .CMP 0, Reg.HDR.IRQ_MASK .CMP 0,
    Reg.DISP.LAST_ERR] ∨ r.off = 0x044 ∧ (r.blk = .ENG ∨ r.blk = .FCE) ∨ r.blk = .SFE ∧ r.inst = 0 ∧ r.off < 4096 := .rfl
@[simp] theorem ending_hw (f : Hw → Hw) : Scope.ending.hw f ↔ ∀ h : Hw, (f h).sansWork = h.sansWork := .rfl
@[simp] theorem ending_mem : Scope.ending.mem := trivial
@[simp] theorem ending_poison : Scope.ending.poison := trivial

theorem ending_disp {f : DispSt → DispSt} (hf : ∀ d, (f d).monitor = d.monitor) : (Act.disp f).Only .ending := fun h => by
  show ({ h with disp := f h.disp } : Hw).sansWork = h.sansWork
  simp only [Hw.sansWork, hf]
theorem ending_ctx (c : Nat) (f : CtxSt → CtxSt) : (Act.ctx c f).Only .ending := fun _ => rfl
theorem ending_cmd (id : Nat) (f : Cmd → Cmd) : (Act.cmd id f).Only .ending := fun _ => rfl
theorem ending_gath (f : GathSt → GathSt) : (Act.gath f).Only .ending := fun _ => rfl
theorem ending_stream (n : Nat) (f : StreamSt → StreamSt) : (Act.stream n f).Only .ending := fun _ => rfl
theorem ending_event (e : Event) : (Act.event e).Only .ending := fun _ => rfl
theorem ending_eng (p : Nat) (f : EngSt → EngSt) : (Act.eng p f).Only .ending := fun _ => rfl
theorem ending_fce (i : Nat) (f : FceSt → FceSt) : (Act.fce i f).Only .ending := fun _ => rfl
theorem ending_dropCmd (id : Nat) : (dropCmd id).Only .ending := fun _ => rfl

/-- A program for the command of an identifier, where it is in the dispatcher. -/
theorem only_withCmd {p : Scope} {id : Nat} {k : Cmd → Act} (h : ∀ s : State, ∀ c, s.cmd id = some c → (k c).Only p) : (Act.withCmd id k).Only p := by
  refine (only_get _).2 fun s => ?_
  split
  next c hc => exact h s c hc
  next => trivial

theorem ending_accrue : accrue.Only .ending := by
  simp only [accrue, only_get, only_seq, only_each, only_when]
  exact fun s => ⟨ending_disp fun _ => rfl, fun _ _ _ => ending_ctx _ _⟩

theorem ending_chargeVt (c t : Nat) : (chargeVt c t).Only .ending := (only_get _).2 fun _ => ending_ctx _ _

theorem ending_chargeEngines (c : Cmd) (es : List Nat) (who : Payer) : (chargeEngines c es who).Only .ending := by
  refine (only_get _).2 fun s => ?_
  cases who with
  | own => exact ⟨ending_cmd _ _, ending_chargeVt _ _, ending_ctx _ _, trivial⟩
  | preemptor =>
    refine ⟨?_, ending_ctx _ _⟩
    cases c.preemptor with
    | none => trivial
    | some p => exact ending_chargeVt _ _
  | nobody => exact ending_ctx _ _

theorem ending_chargeRun (c : Cmd) (who : Payer) : (chargeRun c who).Only .ending := (only_get _).2 fun _ => ending_chargeEngines _ _ _

theorem ending_freeSlot (n i : Nat) : (Act.freeSlot n i).Only .ending := by
  simp only [Act.freeSlot, only_get, only_all_cons, only_all_nil, only_each, only_when, only_wrN, only_mem]
  exact fun s => ⟨trivial, ending_stream _ _, fun p hp _ => .inr (.inr ⟨rfl, rfl, by have := List.mem_range.1 hp; dsimp only; omega⟩), trivial⟩

theorem ending_freeInput (slot : Option (Nat × Nat)) : (freeInput slot).Only .ending := by
  unfold freeInput
  split
  · exact ⟨ending_freeSlot _ _, ending_event _⟩
  · trivial

theorem ending_guarded (cls a : Nat) (l : List Byte) : (Act.guarded cls a l).Only .ending := by
  have hr : (Act.raise .CMP 0 4).Only .ending := only_raise (.inl (by simp)) (.inl (by simp)) fun _ _ => rfl
  simp only [Act.guarded, only_get, only_ite, Act.c2Refuse, only_seq, only_bump, only_bytes, ringMove, only_when, only_hw]
  exact fun s => ⟨fun _ => ⟨.inl (by simp), hr⟩, fun _ => ⟨trivial, fun _ _ => rfl, fun _ _ => rfl⟩⟩

theorem ending_publish (n : Nat) (u : DUnit) : (Act.publish n u).Only .ending :=
  (only_get _).2 fun _ => ⟨ending_guarded _ _ _, trivial, ending_stream _ _, ending_event _, trivial⟩

theorem ending_publishAll (l : List StagedUnit) : (publishAll l).Only .ending :=
  (only_each _ _).2 fun _ _ => (only_get _).2 fun _ => (only_when _ _).2 fun _ => ending_publish _ _

theorem ending_writeEntry (c : Nat) (e : CqEntry) : (writeEntry c e).Only .ending :=
  (only_get _).2 fun _ => ⟨ending_guarded _ _ _, trivial, (only_when _ _).2 fun _ => (only_get _).2 fun _ => ending_gath _, trivial⟩

theorem ending_drainWaiting (c k : Nat) : (drainWaiting c k).Only .ending := by
  induction k with
  | zero => trivial
  | succ k ih =>
    refine (only_get _).2 fun s => ?_
    split
    · trivial
    · exact (only_when _ _).2 fun _ => ⟨ending_publishAll _, ending_freeInput _, ending_writeEntry _ _, ending_ctx _ _, ih, trivial⟩

theorem ending_drainCtx (c : Nat) : (drainCtx c).Only .ending := (only_get _).2 fun _ => ending_drainWaiting _ _

theorem ending_ctxState (c v : Nat) : (Act.ctxState c v).Only .ending := (only_get _).2 fun _ => trivial

theorem ending_stopCheck (c : Nat) : (stopCheck c).Only .ending :=
  (only_get _).2 fun _ => (only_when _ _).2 fun _ => ⟨ending_ctxState _ _, ending_ctx _ _⟩

theorem ending_closeWait (c : Cmd) : (closeWait c).Only .ending := by
  refine (only_get _).2 fun s => ?_
  split
  · exact ⟨ending_ctx _ _, ending_cmd _ _⟩
  · trivial

theorem ending_releaseEng (p : Nat) : (releaseEng p).Only .ending := by
  simp only [releaseEng, only_get, only_all_cons, only_all_nil, only_when, setEngState, only_setFld]
  exact fun s => ⟨ending_eng _ _, fun _ => .inr (.inl ⟨rfl, .inl rfl⟩), .inr (.inl ⟨rfl, .inl rfl⟩), trivial⟩

theorem ending_releaseBlocks (id : Nat) : (releaseBlocks id).Only .ending := by
  simp only [releaseBlocks, only_get, only_all_cons, only_all_nil, only_each, only_when, only_setFld, only_hw]
  exact fun s => ⟨fun i _ => ⟨ending_fce _ _, fun _ => .inr (.inl ⟨rfl, .inr rfl⟩), .inr (.inl ⟨rfl, .inr rfl⟩), trivial⟩, fun _ => rfl, trivial⟩

theorem ending_releaseAll (c : Cmd) : (releaseAll c).Only .ending :=
  (only_get _).2 fun _ => ⟨ending_accrue, ending_closeWait _, (only_each _ _).2 fun _ _ => ending_releaseEng _, ending_releaseBlocks _, trivial⟩

theorem ending_endCmdWith (id status detail part : Nat) (units : State → Cmd → List StagedUnit) (who : Payer) :
    (endCmdWith id status detail part units who).Only .ending :=
  only_withCmd fun _ _ _ => ⟨ending_chargeRun _ _, only_withCmd fun _ _ _ => (only_get _).2 fun _ =>
    ⟨ending_releaseAll _, ending_dropCmd _, (only_wrN _ _).2 (.inl (by simp)), ending_ctx _ _, ending_event _, ending_drainCtx _, ending_stopCheck _,
      trivial⟩⟩

theorem ending_endCmd (id status detail part : Nat) (emit : Bool) (who : Payer) : (endCmd id status detail part emit who).Only .ending :=
  ending_endCmdWith _ _ _ _ _ _

theorem ending_endRequest (id status detail part : Nat) (emit : Bool) (who : Payer) : (endRequest id status detail part emit who).Only .ending :=
  only_withCmd fun _ _ _ => (only_get _).2 fun _ => (only_each _ _).2 fun _ _ => (only_ite _ _ _).2 ⟨fun _ => ending_endCmd _ _ _ _ _ _, fun _ => ending_endCmd _ _ _ _ _ _⟩

theorem ending_stopCmd (id detail : Nat) : (stopCmd id detail).Only .ending :=
  only_withCmd fun _ _ _ => ⟨ending_chargeRun _ _, ending_releaseAll _, ending_dropCmd _, ending_freeInput _, ending_event _, trivial⟩

/-- A part of the block state that the end of a command leaves alone. -/
theorem Act.Only.ending_part {α : Type} {a : Act} (h : a.Only .ending) (π : Hw → α) (hπ : ∀ h : Hw, π h.sansWork = π h) (s : State) :
    π (a.run s).hw = π s.hw := by
  rw [← hπ (a.run s).hw, ← hπ s.hw, h.hw Hw.sansWork (fun _ hf => hf) s]

/-- The end of a command writes no register of the pages between the dispatcher and the engines. -/
theorem Act.Only.ending_page {a : Act} (h : a.Only .ending) {r : RegRef} (hr : 0x60 < r.key / 4096 ∧ r.key / 4096 < 0x80) (s : State) :
    (a.run s).rd r = s.rd r := by
  refine h.rd (fun h => h) (fun q hq hk => ?_) s
  rw [← hk] at hr
  simp only [ending_reg] at hq
  rcases hq with hq | ⟨h1, h2 | h2⟩ | ⟨h1, h2, h3⟩
  · simp only [List.mem_cons, List.not_mem_nil, or_false] at hq
    rcases hq with rfl | rfl | rfl | rfl <;> exact absurd hr (by decide)
  · rw [RegRef.key, h1, h2] at hr
    simp only [Blk.slot] at hr
    omega
  · rw [RegRef.key, h1, h2] at hr
    simp only [Blk.slot] at hr
    omega
  · rw [RegRef.key, h1, h2] at hr
    simp only [Blk.slot] at hr
    omega

end Sys2Proof.Machine

/-! ## Proofs: walkers and translation of the key-value cache (06_attention_and_kv_cache)

O36: partial results of layout partners, the eviction scan, a paused sequence taken up, misses and their fills, ENABLE. -/

namespace Sys2Proof.Machine

-- One theorem after the other: elaborated side by side, they hold more threads than the memory limit of a check allows.
set_option Elab.async false

/-! ### The command of an identifier -/

theorem cmd_run_cmd (s : State) (id j : Nat) {f : Cmd → Cmd} (hf : ∀ c, (f c).id = c.id) :
    ((Act.cmd j f).run s).cmd id = (s.cmd id).map fun c => if c.id = j then f c else c := by
  have hp : (fun c : Cmd => c.id == id) ∘ (fun c => if c.id = j then f c else c) = fun c => c.id == id := by
    funext c
    dsimp only [Function.comp_apply]
    split
    · rw [hf]
    · rfl
  exact List.find?_map.trans (by rw [hp]; rfl)

theorem cmd_id {s : State} {id : Nat} {c : Cmd} (h : s.cmd id = some c) : c.id = id := by
  simpa using List.find?_some h

theorem cmd_run_cmd_same {s : State} {id : Nat} {c : Cmd} (h : s.cmd id = some c) {f : Cmd → Cmd} (hf : ∀ c, (f c).id = c.id) :
    ((Act.cmd id f).run s).cmd id = some (f c) := by
  rw [cmd_run_cmd s id id hf, h, Option.map_some, if_pos (cmd_id h)]

/-- A part of the command of an identifier. -/
def State.cmdPart {α : Type} (π : Cmd → α) (id : Nat) (s : State) : Option α := (s.cmd id).map π

section
variable {α : Type} {π : Cmd → α} {id : Nat}

theorem keeps_cmdPart_cmd (j : Nat) {f : Cmd → Cmd} (hf : ∀ c, (f c).id = c.id) (hπ : ∀ c, π (f c) = π c) :
    (Act.cmd j f).Keeps (State.cmdPart π id) := fun s _ => by
  rw [State.cmdPart, cmd_run_cmd s id j hf, Option.map_map, State.cmdPart]
  refine congrArg (Option.map · (s.cmd id)) (funext fun c => ?_)
  dsimp only [Function.comp_apply]
  split
  · exact hπ c
  · rfl

/-- The commands in the dispatcher stay. -/
def Scope.cmdsStay : Scope :=
  { reg := fun _ => True, mem := True, poison := True, es := True, tsc := True, out := True
    hw := fun f => ∀ h : Hw, (f h).disp.cmds = h.disp.cmds }

@[simp] theorem cmdsStay_reg (r : RegRef) : Scope.cmdsStay.reg r := trivial
@[simp] theorem cmdsStay_hw (f : Hw → Hw) : Scope.cmdsStay.hw f ↔ ∀ h : Hw, (f h).disp.cmds = h.disp.cmds := .rfl

theorem Act.Only.keeps_cmdPart {a : Act} (h : a.Only .cmdsStay) : a.Keeps (State.cmdPart π id) := fun s _ => by
  have hcmds := h.hw (fun h => h.disp.cmds) (fun _ hf => hf) s
  rw [State.cmdPart, State.cmdPart, State.cmd, State.cmd, hcmds]

theorem Act.Keeps.withCmd {β : Type} {ρ : State → β} {j : Nat} {k : Cmd → Act} (h : ∀ c, (k c).Keeps ρ) : (Act.withCmd j k).Keeps ρ :=
  .get fun s => by
    split
    next c _ => exact h c
    next => exact keeps_nil
end

/-! ### Results formed (R188 to R196) -/

/-- Registers, and block state but the receivers'. -/
def Scope.forming : Scope := { reg := fun _ => True, hw := fun f => ∀ h : Hw, (f h).rx = h.rx }

@[simp] theorem forming_reg (r : RegRef) : Scope.forming.reg r := trivial
@[simp] theorem forming_hw (f : Hw → Hw) : Scope.forming.hw f ↔ ∀ h : Hw, (f h).rx = h.rx := .rfl

theorem forming_nextLoad (p : Nat) : (nextLoad p).Only .forming := by
  refine (only_get _).2 fun s => ?_
  split
  · exact fun _ => rfl
  · trivial

theorem forming_startPart (id k p done : Nat) (keep : Bool) : (startPart id k p done keep).Only .forming :=
  only_withCmd fun _ _ _ => (only_get _).2 fun _ => ⟨(only_when _ _).2 fun _ => (only_bump _ _).2 trivial, fun _ => rfl, forming_nextLoad _,
    (only_setFld _ _ _ _).2 trivial, (only_setFld _ _ _ _).2 trivial, fun _ => rfl, trivial⟩

theorem forming_rerunCmd (id : Nat) : (rerunCmd id).Only .forming :=
  only_withCmd fun _ _ _ => (only_get _).2 fun _ => ⟨fun _ => rfl, (only_each _ _).2 fun _ _ => forming_startPart _ _ _ _ _, trivial⟩

theorem forming_wideDecision (id : Nat) : (wideDecision id).Only .forming := by
  refine only_withCmd fun _ _ _ => (only_get _).2 fun s => (only_when _ _).2 fun _ => (only_each _ _).2 fun x _ => ?_
  exact (only_ite _ _ _).2 ⟨fun _ => forming_rerunCmd _, fun _ _ => rfl⟩

theorem forming_computeRun (id : Nat) : (computeRun id).Only .forming :=
  only_withCmd fun _ _ _ => (only_fresh _).2 fun _ => (only_get _).2 fun _ => ⟨(only_when _ _).2 fun _ => (only_each _ _).2 fun _ _ => (only_err _ _ _).2 trivial,
    fun _ => rfl, only_withCmd fun _ _ _ => (only_each _ _).2 fun _ _ => (only_satFld _ _ _ _).2 trivial, forming_wideDecision _, trivial⟩

theorem forming_computeIfDone (id : Nat) : (computeIfDone id).Only .forming :=
  only_withCmd fun _ _ _ => (only_get _).2 fun _ => (only_when _ _).2 fun _ => (only_ite _ _ _).2 ⟨fun _ => forming_computeRun _,
    fun _ => only_withCmd fun _ _ _ => (only_get _).2 fun _ => (only_when _ _).2 fun _ _ => rfl⟩

theorem forming_closeWait (c : Cmd) : (closeWait c).Only .forming := by
  refine (only_get _).2 fun s => ?_
  split
  · exact ⟨fun _ => rfl, fun _ => rfl⟩
  · trivial

theorem Act.Keeps.ite {α : Type} {π : State → α} {c : Prop} [Decidable c] {a b : Act} (ha : c → a.Keeps π) (hb : ¬c → b.Keeps π) :
    (if c then a else b).Keeps π := by
  split
  next h => exact ha h
  next h => exact hb h

section
variable (id : Nat)

theorem keeps_partials_cmd (j : Nat) {f : Cmd → Cmd} (hf : ∀ c, (f c).id = c.id := by exact fun _ => rfl)
    (hp : ∀ c, (f c).partials = c.partials := by exact fun _ => rfl) : (Act.cmd j f).Keeps (State.cmdPart (·.partials) id) :=
  keeps_cmdPart_cmd j hf hp

theorem keeps_partials_nextLoad (p : Nat) : (nextLoad p).Keeps (State.cmdPart (·.partials) id) := .get fun s => by
  split
  · exact Act.Only.keeps_cmdPart fun _ => rfl
  · exact keeps_nil

theorem keeps_partials_startPart (i k p done : Nat) (keep : Bool) : (startPart i k p done keep).Keeps (State.cmdPart (·.partials) id) :=
  .withCmd fun _ => .get fun _ => .cons (.when fun _ => Act.Only.keeps_cmdPart ((only_bump _ _).2 trivial))
    (Act.Keeps.cons (Act.Only.keeps_cmdPart fun _ => rfl) (.cons (keeps_partials_nextLoad _ _)
      (.cons (Act.Only.keeps_cmdPart ((only_setFld _ _ _ _).2 trivial)) (.cons (Act.Only.keeps_cmdPart ((only_setFld _ _ _ _).2 trivial))
        (Act.Keeps.cons (keeps_partials_cmd id _) keeps_all_nil)))))

theorem keeps_partials_rerunCmd (i : Nat) : (rerunCmd i).Keeps (State.cmdPart (·.partials) id) :=
  .withCmd fun _ => .get fun _ => Act.Keeps.cons (keeps_partials_cmd id _) (.cons (.each fun _ _ => keeps_partials_startPart _ _ _ _ _ _) keeps_all_nil)

theorem keeps_partials_wideDecision (j : Nat) : (wideDecision j).Keeps (State.cmdPart (·.partials) id) :=
  .withCmd fun _ => .get fun _ => .when fun _ => .each fun _ _ => .ite (fun _ => keeps_partials_rerunCmd _ _) fun _ => keeps_partials_cmd id _

theorem keeps_partials_computeRun (j : Nat) : (computeRun j).Keeps (State.cmdPart (·.partials) id) :=
  .withCmd fun _ => Act.Keeps.get fun _ => .seq (fun _ _ => rfl) (.get fun _ =>
    .cons (.when fun _ => .each fun _ _ => Act.Only.keeps_cmdPart ((only_err _ _ _).2 trivial))
      (Act.Keeps.cons (keeps_partials_cmd id _) (.cons (.withCmd fun _ => .each fun _ _ => Act.Only.keeps_cmdPart ((only_satFld _ _ _ _).2 trivial))
        (.cons (keeps_partials_wideDecision _ _) keeps_all_nil))))

/-- What forming a command's results leaves of every command: its identifier and what has come from its layout partners. -/
theorem keeps_partials_computeIfDone (j : Nat) : (computeIfDone j).Keeps (State.cmdPart (·.partials) id) :=
  .withCmd fun _ => .get fun _ => .when fun _ => .ite (fun _ => keeps_partials_computeRun _ _) fun _ =>
    .withCmd fun _ => .get fun _ => .when fun _ => keeps_partials_cmd id _

end

theorem keeps_partials_closeWait (id : Nat) (c : Cmd) : (closeWait c).Keeps (State.cmdPart (·.partials) id) := .get fun s => by
  split
  · exact .seq (Act.Only.keeps_cmdPart fun _ => rfl) (keeps_cmdPart_cmd _ (fun _ => rfl) fun _ => rfl)
  · exact keeps_nil

/-! ### A partial result of a layout partner (R289, R290) -/

theorem awaitsPartial_of {s : State} {c : Cmd} {idx : Nat} (hop : Desc.opcode c.desc = opATTENTION) (hrun : c.phase = .running)
    (hneed : ((s.partialsNeeded c).any fun x => x.1 == idx) = true) : s.awaitsPartial c idx = true := by
  rw [State.awaitsPartial, hop, hrun, hneed]
  rfl

theorem partialArrive_run {s : State} {id idx : Nat} {u : DUnit} {c : Cmd} (hc : s.cmd id = some c) (hawait : s.awaitsPartial c idx = true) :
    (partialArriveAct id idx u).run s = (Act.receive .KVW 0 u (s.streamCls u) fun l => .each l (takePartial id idx)).run s := by
  rw [partialArriveAct, run_get, hc]
  dsimp only
  rw [if_pos hawait]

/-- What a partial result taken does beside joining the command. -/
def afterPartial (id : Nat) : Act := .seq
  (.withCmd id fun x => .get fun t => .when (t.partialsNeeded x).isEmpty (closeWait x)) (computeIfDone id)

theorem takePartial_run {s : State} {id idx : Nat} {u : DUnit} {c : Cmd} (hc : s.cmd id = some c) (hawait : s.awaitsPartial c idx = true)
    (hitem : u.item = (c.input.map fun x => x.item).getD 0) : (takePartial id idx u).run s =
      (afterPartial id).run ((Act.cmd id fun x => { x with partials := x.partials ++ [(idx, u)] }).run s) := by
  rw [takePartial, run_get, hc]
  dsimp only
  rw [if_pos (by rw [hawait, hitem, BEq.rfl]; rfl), run_all_cons, run_all_cons, run_all_cons, run_all_nil, afterPartial, run_seq]

theorem afterPartial_effect {s : State} (hs : keysRise s.regs) (id : Nat) :
    let t := (afterPartial id).run s
    (t.cmd id).map (·.partials) = (s.cmd id).map (·.partials) ∧ t.hw.rx = s.hw.rx ∧ SameRest s t := by
  have hkeep : (afterPartial id).Keeps (State.cmdPart (·.partials) id) :=
    .seq (.withCmd fun _ => .get fun _ => .when fun _ => keeps_partials_closeWait _ _) (keeps_partials_computeIfDone _ _)
  have honly : (afterPartial id).Only .forming :=
    ⟨only_withCmd fun _ _ _ => (only_get _).2 fun _ => (only_when _ _).2 fun _ => forming_closeWait _, forming_computeIfDone _⟩
  exact ⟨hkeep s hs, honly.hw (fun h => h.rx) (fun _ hf => hf) s, honly.sameRest (fun h => h) (fun h => h) (fun h => h) (fun h => h) (fun h => h) s⟩

section
variable {s : State} (hl : s.live) {id : Nat} {idx : Fin 8} {u : DUnit} {c : Cmd} (hc : s.cmd id = some c)
  (hawait : s.awaitsPartial c idx = true)
include hl hc hawait

theorem partialGood_effect (hcrc : u.crc = u.crcOf)
    (hfaults : headerFaults u (s.streamCls u) ((u.stream.toNat / 512 == s.devNum && !u.has fREMOTE) && s.authorised (u.stream.toNat % 512))
      (alGet ({} : RxSt) (rxKey .KVW 0 u.stream) s.hw.rx).closed = [])
    (hfc : u.fc = (alGet ({} : RxSt) (rxKey .KVW 0 u.stream) s.hw.rx).e)
    (hbroken : u.item ∉ (alGet ({} : RxSt) (rxKey .KVW 0 u.stream) s.hw.rx).broken) (hrx : keysRise s.hw.rx)
    (hitem : u.item = (c.input.map fun x => x.item).getD 0) :
    let t := (partialArriveAct id idx u).run s
    (t.cmd id).map (·.partials) = some (c.partials ++ [(idx.val, u)]) ∧
      (alGet ({} : RxSt) (rxKey .KVW 0 u.stream) t.hw.rx).e = (alGet ({} : RxSt) (rxKey .KVW 0 u.stream) s.hw.rx).e + 1 ∧
      t.mem = s.mem ∧ t.es = s.es ∧ t.tsc = s.tsc := by
  obtain ⟨st', hx, he⟩ := receiveUnit_expected (cls := s.streamCls u) hcrc hfaults hfc hbroken
  let p := s.mapHw fun h => { h with rx := alPut {} (rxKey .KVW 0 u.stream) st' h.rx }
  let q := (Act.cmd id fun x => { x with partials := x.partials ++ [(idx.val, u)] }).run p
  have hrun : (partialArriveAct id idx u).run s = (afterPartial id).run q := by
    rw [partialArrive_run hc hawait, run_receive _ hx, run_rxErrs_nil]
    exact takePartial_run (s := p) hc hawait hitem
  have hq : q.cmd id = some { c with partials := c.partials ++ [(idx.val, u)] } := cmd_run_cmd_same (s := p) hc fun _ => rfl
  obtain ⟨h1, h2, h3⟩ := afterPartial_effect (s := q) hl.1.1.1 id
  have hrest : SameRest s q := ⟨rfl, rfl, rfl, rfl, rfl⟩
  dsimp only
  rw [hrun]
  refine ⟨h1.trans (by rw [hq]; rfl), ?_, h3.mem.trans hrest.mem, h3.es.trans hrest.es, h3.tsc.trans hrest.tsc⟩
  rw [h2, show q.hw.rx = alPut {} (rxKey .KVW 0 u.stream) st' s.hw.rx from rfl, alGet_alPut_same hrx, he]

theorem partialCorrupt_effect (hcrc : u.crc ≠ u.crcOf) :
    let t := (partialArriveAct id idx u).run s
    t.hw.disp = s.hw.disp ∧ t.bit (Reg.HDR.ERR_STATUS .KVW 0) 0 = true ∧ SameRegs [Reg.HDR.ERR_STATUS .KVW 0] s t ∧ SameRest s t := by
  obtain ⟨-, hbit, hq⟩ := rxErrs_crcBad_effect hl.1 (b := .KVW) (i := 0) (by decide) (alGet ({} : RxSt) (rxKey .KVW 0 u.stream) s.hw.rx)
  dsimp only
  rw [partialArrive_run hc hawait, run_receive _ (receiveUnit_crcBad _ _ _ hcrc)]
  obtain ⟨e, he⟩ := hq.hw
  refine ⟨?_, hbit, hq.regs, hq.mem, hq.poison, hq.es, hq.tsc, hq.out⟩
  change ((Act.rxErrs .KVW 0 _).run s).hw.disp = _
  rw [he]

end

theorem mask_dispCounts : RegRef.mask Reg.DISP.QUAR_CNT = 0xFFFFFFFF := by decide +kernel

theorem quarantine_effect {s : State} (hs : keysRise s.regs) :
    Counts Reg.DISP.QUAR_CNT 1 s (quarantine.run s) ∧ (quarantine.run s).pend .DISP 0 2 = true ∧
      Quiet (Reg.DISP.QUAR_CNT :: irqOf .DISP 0) s (quarantine.run s) := by
  have hq : quarantine.Only (.quiet (Reg.DISP.QUAR_CNT :: irqOf .DISP 0)) :=
    ⟨(only_bump _ _).2 (by simp), only_raise (by simp [irqOf]) (by simp [irqOf]) (by simp)⟩
  have hrd : (quarantine.run s).rd Reg.DISP.QUAR_CNT = ((Act.bump Reg.DISP.QUAR_CNT 1).run s).rd Reg.DISP.QUAR_CNT := rd_raise_off (by simp) (by simp)
  exact ⟨fun h => by rw [hrd]; exact counts_bump hs mask_dispCounts 1 h, bit_raise (rise_run _ hs) (by decide) (by decide), hq.quiet s⟩

/-! ### The eviction scan (R269) and a paused sequence (R274) -/

theorem mask_kvwStatus (w : Fin 4) : RegRef.mask (Reg.KVW.KVW_STATUS w) = 0x1F3 := by revert w; decide +kernel

theorem scan_effect {s : State} (hs : keysRise s.regs) (w : Fin 4) (hon : s.bit Reg.KVW.KVW_CTRL 0 = true) (hnone : s.hw.kv.wanting = [])
    (hw : w.val < s.hw.kv.cands.length) :
    let t := (scanCompleteAct w).run s
    t.hw.kv.cands.getD w [] = s.scanFrames ∧ t.bit (Reg.KVW.KVW_STATUS w) 1 = true ∧ SameRegs [Reg.KVW.KVW_STATUS w] s t ∧ SameRest s t := by
  let renew : Act := .kv fun k => { k with cands := updAt (fun _ => s.scanFrames) w k.cands, wanting := k.wanting.filter fun x => !([] : List _).contains x }
  have hrun : (scanCompleteAct w).run s = (Act.setFld (Reg.KVW.KVW_STATUS w) 1 1 1).run (renew.run s) := by
    rw [scanCompleteAct, run_get]
    dsimp only
    rw [run_when, if_pos hon, hnone]
    rfl
  have hset := bit_setFld (s := renew.run s) (v := 1) (k := 1) hs (r := Reg.KVW.KVW_STATUS w) (by rw [mask_kvwStatus]; decide)
  obtain ⟨h1, h2⟩ := (show (Act.setFld (Reg.KVW.KVW_STATUS w) 1 1 1).Only (.regs [Reg.KVW.KVW_STATUS w]) by simp).frame (renew.run s)
  dsimp only
  rw [hrun]
  refine ⟨?_, hset.trans rfl, h1, (rest_hw _ s).trans h2⟩
  exact (getD_updAt (fun _ => s.scanFrames) [] w s.hw.kv.cands).trans (if_pos hw)

/-- The entries of a command that are marked. -/
def State.seqsOf (id : Nat) (s : State) : Option (List SeqPart) := s.cmdPart (·.seqs) id

theorem settle_effect {s : State} (hs : keysRise s.regs) (id : Nat) :
    let t := (settle id).run s
    (t.cmd id).map (·.seqs) = (s.cmd id).map (·.seqs) ∧ t.regs = s.regs ∧ t.hw.kv = s.hw.kv ∧ SameRest s t := by
  have hcatch (c : Nat) {p : Scope} (h : ∀ f : CtxSt → CtxSt, (Act.ctx c f).Only p) : (catchUp c).Only p := by
    refine (only_get _).2 fun s => (only_when _ _).2 fun _ => ?_
    split
    · trivial
    · exact h _
  have haccrue {p : Scope} (h : ∀ f : DispSt → DispSt, (∀ d : DispSt, (f d).cmds = d.cmds) → (Act.disp f).Only p) : accrue.Only p := by
    simp only [accrue, only_get, only_seq, only_each, only_when]
    exact fun s => ⟨h _ fun _ => rfl, fun _ _ _ => h _ fun _ => rfl⟩
  have hkeep : (settle id).Keeps (State.cmdPart (·.seqs) id) := .withCmd fun c => .get fun _ => .when fun _ =>
    .cons (Act.Only.keeps_cmdPart (haccrue fun f hf h => hf h.disp)) (.cons (Act.Only.keeps_cmdPart (hcatch _ fun f _ => rfl))
      (Act.Keeps.cons (keeps_cmdPart_cmd _ (fun _ => rfl) fun _ => rfl) keeps_all_nil))
  have honly : (settle id).Only { reg := fun _ => False, hw := fun f => ∀ h : Hw, (f h).kv = h.kv } :=
    only_withCmd fun _ _ _ => (only_get _).2 fun _ => (only_when _ _).2 fun _ => ⟨haccrue fun _ _ _ => rfl, hcatch _ fun _ _ => rfl, fun _ => rfl, trivial⟩
  exact ⟨hkeep s hs, honly.regs_eq (fun _ h => h) (fun h => h) s, honly.hw (fun h => h.kv) (fun _ hf => hf) s,
    honly.sameRest (fun h => h) (fun h => h) (fun h => h) (fun h => h) (fun h => h) s⟩

/-- What taking up a paused entry does before the frames are asked for again. -/
def takeUp (id i q : Nat) : Act := .all [.kv fun k => { k with paused := k.paused.filter fun x => x != (id, i, q) },
  .seqState q sqACTIVE, .seqPart id i fun x => { x with paused := false }]

theorem resume_run {s : State} {id i q : Nat} {c : Cmd} (hframe : s.haveFrame = true)
    (hleast : leastBy (fun a b => s.rankLt b.2.2 a.2.2) s.hw.kv.paused = some (id, i, q)) (hc : s.cmd id = some c) :
    resumeAct.run s = (settle id).run ((retryEntry (s.walkerOf c.ctx) id i q false).run ((takeUp id i q).run s)) := by
  rw [resumeAct, run_get, run_when, if_pos hframe, hleast]
  dsimp only
  rw [Act.withCmd, run_get, hc]
  simp only [takeUp, run_all_cons, run_all_nil]

theorem takeUp_effect {s : State} {id i q : Nat} {c : Cmd} (hc : s.cmd id = some c) :
    let t := (takeUp id i q).run s
    t.cmd id = some { c with seqs := c.seqs.map fun x => if x.idx = i then { x with paused := false } else x } ∧
      (id, i, q) ∉ t.hw.kv.paused ∧ ∃ f, t = ((Act.seqState q sqACTIVE).run s).mapHw f := by
  let p := (Act.seqState q sqACTIVE).run ((Act.kv fun k => { k with paused := k.paused.filter fun x => x != (id, i, q) }).run s)
  have hp : p.cmd id = some c := hc
  refine ⟨cmd_run_cmd_same hp fun _ => rfl, fun h => ?_, ⟨fun h => { h with
      kv := { h.kv with paused := h.kv.paused.filter fun x => x != (id, i, q) }
      disp := { h.disp with cmds := h.disp.cmds.map fun c => if c.id = id then
        { c with seqs := c.seqs.map fun x => if x.idx = i then { x with paused := false } else x } else c } }, rfl⟩⟩
  have hmem : (id, i, q) ∈ s.hw.kv.paused.filter fun x => x != (id, i, q) := h
  exact absurd (List.mem_filter.1 hmem).2 (by simp)

theorem resume_effect {s : State} (hs : s.sound) {id i q : Nat} {c : Cmd} {e : SeqEntry} (hframe : s.haveFrame = true)
    (hleast : leastBy (fun a b => s.rankLt b.2.2 a.2.2) s.hw.kv.paused = some (id, i, q)) (hc : s.cmd id = some c)
    (hentry : (((Act.seqState q sqACTIVE).run s).seqList c.desc)[i]? = some e)
    (hpages : ((Act.seqState q sqACTIVE).run s).pagesNeeded (((Act.seqState q sqACTIVE).run s).seqRec q)
      (((Act.seqState q sqACTIVE).run s).newLen (((Act.seqState q sqACTIVE).run s).attn c.desc).op (((Act.seqState q sqACTIVE).run s).seqRec q) e) = []) :
    let t := resumeAct.run s
    (id, i, q) ∉ t.hw.kv.paused ∧ t.mem = ((Act.seqState q sqACTIVE).run s).mem ∧
      (∀ y, t.cmd id = some y → ∀ x ∈ y.seqs, x.idx = i → x.paused = false) ∧ t.regs = s.regs ∧ t.es = s.es ∧ t.tsc = s.tsc ∧
      t.out = s.out := by
  obtain ⟨h1, h2, f, h3⟩ := takeUp_effect (i := i) (q := q) hc
  have hrest : ((Act.seqState q sqACTIVE).run s).es = s.es ∧ ((Act.seqState q sqACTIVE).run s).tsc = s.tsc ∧
      ((Act.seqState q sqACTIVE).run s).out = s.out ∧ ((Act.seqState q sqACTIVE).run s).regs = s.regs := ⟨rfl, rfl, rfl, rfl⟩
  dsimp only
  rw [resume_run hframe hleast hc]
  generalize (takeUp id i q).run s = p at *
  generalize (Act.seqState q sqACTIVE).run s = s1 at *
  subst h3
  have hretry : (retryEntry (s.walkerOf c.ctx) id i q false).run (s1.mapHw f) = s1.mapHw f := by
    rw [retryEntry, Act.withCmd, run_get, h1]
    dsimp only
    rw [run_get, show (s1.mapHw f).seqList c.desc = s1.seqList c.desc from rfl, hentry]
    dsimp only
    rw [show (s1.mapHw f).pagesNeeded ((s1.mapHw f).seqRec q) ((s1.mapHw f).newLen ((s1.mapHw f).attn c.desc).op ((s1.mapHw f).seqRec q) e) = _ from hpages]
    rfl
  rw [hretry]
  have hrise : keysRise (s1.mapHw f).regs := by
    rw [show (s1.mapHw f).regs = s1.regs from rfl, hrest.2.2.2]
    exact hs.1.1
  obtain ⟨e1, e2, e3, e4⟩ := settle_effect hrise id
  refine ⟨by rw [e3]; exact h2, e4.mem, fun y hy x hx hi => ?_, e2.trans hrest.2.2.2, e4.es.trans hrest.1, e4.tsc.trans hrest.2.1, e4.out.trans hrest.2.2.1⟩
  rw [hy, h1, Option.map_some, Option.map_some, Option.some.injEq] at e1
  rw [e1] at hx
  obtain ⟨z, -, rfl⟩ := List.mem_map.1 hx
  split
  · rfl
  next hz => exact absurd (by rwa [if_neg hz] at hi) hz

/-! ### Misses and fills (R261 to R263) -/

theorem mask_kvwCounts (w : Fin 4) : RegRef.mask (Reg.KVW.LAB_MISS w) = 0xFFFFFFFF ∧ RegRef.mask (Reg.KVW.PT_ERR w) = 0xFFFFFFFF ∧
    RegRef.mask (Reg.KVW.WCACHE_PAR w) = 0xFFFFFFFF ∧ RegRef.mask (Reg.KVW.MISS_LAT_MAX w) = 0xFFFFFFFF := by revert w; decide +kernel

/-- A miss of page `page` waits at walker `w`. -/
def missWaits (p q page w now : Nat) : Act := .seq (.kv fun k => { k with misses := updAt (· ++ [(p, q, page, now)]) w k.misses })
  (.bump (Reg.KVW.LAB_MISS w) 1)

theorem labAsk_miss {s : State} {p q page : Nat} (hlab : s.hw.kv.labs.getD p [] = [])
    (hroom : (s.hw.kv.misses.getD (p / 9) []).length < 16) : (labAsk p q page).run s = (missWaits p q page (p / 9) s.now).run s := by
  rw [labAsk, run_get, State.labHit, hlab]
  dsimp only [List.find?_nil]
  rw [run_when, if_pos (decide_eq_true hroom), missWaits]

theorem missWaits_effect {s : State} (hs : keysRise s.regs) (p q page : Nat) (w : Fin 4) (hw : w.val < s.hw.kv.misses.length) :
    let t := (missWaits p q page w s.now).run s
    t.hw.kv.misses.getD w [] = s.hw.kv.misses.getD w [] ++ [(p, q, page, s.now)] ∧ t.hw.kv.labs = s.hw.kv.labs ∧
      t.hw.kv.misses.length = s.hw.kv.misses.length ∧ Counts (Reg.KVW.LAB_MISS w) 1 s t ∧ SameRegs [Reg.KVW.LAB_MISS w] s t ∧ SameRest s t := by
  let u := (Act.kv fun k => { k with misses := updAt (· ++ [(p, q, page, s.now)]) w k.misses }).run s
  obtain ⟨h1, h2, h3⟩ := (show (Act.bump (Reg.KVW.LAB_MISS w) 1).Only (.stores [Reg.KVW.LAB_MISS w]) by simp).stores u
  have hkv : ((missWaits p q page w s.now).run s).hw.kv = { s.hw.kv with misses := updAt (· ++ [(p, q, page, s.now)]) w s.hw.kv.misses } :=
    congrArg Hw.kv h1
  have hcount : Counts (Reg.KVW.LAB_MISS w) 1 u ((Act.bump (Reg.KVW.LAB_MISS w) 1).run u) := counts_bump (s := u) hs (mask_kvwCounts w).1 1
  dsimp only
  rw [hkv]
  exact ⟨(getD_updAt (· ++ [(p, q, page, s.now)]) [] w s.hw.kv.misses).trans (if_pos hw), rfl, length_updAt _ _ _, hcount, h2, (rest_hw _ s).trans h3⟩

theorem Counts.add {r : RegRef} {m n : Nat} {s t u : State} (h : Counts r m s t) (k : Counts r n t u) : Counts r (m + n) s u := fun hlt => by
  have h1 := h (by omega)
  have h2 := k (by omega)
  omega

section
variable {s : State} (hs : keysRise s.regs) (p : Fin 36) (q page : Nat) (hw : p.val / 9 < s.hw.kv.misses.length)
  (hlab : s.hw.kv.labs.getD p [] = [])
include hs hw hlab

theorem labMiss_one (hroom : (s.hw.kv.misses.getD (p.val / 9) []).length < 16)
    (hfar : s.fld Reg.KVW.KVW_CTRL 7 4 = 0 ∨ (s.seqRec q).glen ≤ 16 * (page + s.fld Reg.KVW.KVW_CTRL 7 4)) :
    let t := (labMissAct p q page).run s
    t.hw.kv.misses.getD (p.val / 9) [] = s.hw.kv.misses.getD (p.val / 9) [] ++ [(p.val, q, page, s.now)] ∧
      Counts (Reg.KVW.LAB_MISS (p.val / 9)) 1 s t ∧ SameRegs [Reg.KVW.LAB_MISS (p.val / 9)] s t ∧ SameRest s t := by
  have hrun : (labMissAct p q page).run s = (missWaits p q page (p.val / 9) s.now).run s := by
    rw [labMissAct, run_get, run_seq, labAsk_miss hlab hroom, run_when, if_neg]
    simp only [Bool.and_eq_true, bne_iff_ne, ne_eq, decide_eq_true_eq, not_and, not_lt]
    exact fun h => hfar.resolve_left h
  obtain ⟨h1, -, -, h2, h3, h4⟩ := missWaits_effect hs p q page ⟨p.val / 9, by omega⟩ hw
  dsimp only
  rw [hrun]
  exact ⟨h1, h2, h3, h4⟩

theorem labMiss_two (hroom : (s.hw.kv.misses.getD (p.val / 9) []).length < 15) (hd : s.fld Reg.KVW.KVW_CTRL 7 4 ≠ 0)
    (hnear : 16 * (page + s.fld Reg.KVW.KVW_CTRL 7 4) < (s.seqRec q).glen) :
    let t := (labMissAct p q page).run s
    t.hw.kv.misses.getD (p.val / 9) [] = s.hw.kv.misses.getD (p.val / 9) [] ++
        [(p.val, q, page, s.now), (p.val, q, page + s.fld Reg.KVW.KVW_CTRL 7 4, s.now)] ∧
      Counts (Reg.KVW.LAB_MISS (p.val / 9)) 2 s t ∧ SameRegs [Reg.KVW.LAB_MISS (p.val / 9)] s t ∧ SameRest s t := by
  have hrun : (labMissAct p q page).run s = (labAsk p q (page + s.fld Reg.KVW.KVW_CTRL 7 4)).run ((missWaits p q page (p.val / 9) s.now).run s) := by
    rw [labMissAct, run_get, run_seq, labAsk_miss hlab (by omega), run_when, if_pos]
    simp only [Bool.and_eq_true, bne_iff_ne, ne_eq, decide_eq_true_eq]
    exact ⟨hd, hnear⟩
  obtain ⟨h1, hlabs, hlen, h2, h3, h4⟩ := missWaits_effect hs p q page ⟨p.val / 9, by omega⟩ hw
  have hu : keysRise ((missWaits p q page (p.val / 9) s.now).run s).regs := rise_run _ hs
  generalize s.fld Reg.KVW.KVW_CTRL 7 4 = d at *
  dsimp only at h1 hlabs hlen h2 h3 h4 ⊢
  rw [hrun]
  generalize (missWaits p q page (p.val / 9) s.now).run s = u at *
  have hnow : u.now = s.now := congrArg BitVec.toNat h4.tsc
  rw [labAsk_miss (by rw [hlabs]; exact hlab) (by rw [h1, List.length_append, List.length_singleton]; omega)]
  obtain ⟨k1, -, -, k2, k3, k4⟩ := missWaits_effect hu p q (page + d) ⟨p.val / 9, by omega⟩ (by rw [hlen]; exact hw)
  refine ⟨?_, h2.add k2, h3.trans k3, h4.trans k4⟩
  rw [k1, h1, hnow, List.append_assoc]
  rfl

end

/-- The oldest miss leaves its walker, its wait is noted, and the walker reads what it needs; a parity error is corrected. -/
def fillBegin (w q page wait : Nat) (rest : List (Nat × Nat × Nat × Nat)) (parity : Bool) : Act := .all
  [.kv fun k => { k with misses := updAt (fun _ => rest) w k.misses }, .maxReg (Reg.KVW.MISS_LAT_MAX w) wait, walkerRead w q page,
   .when parity (.seq (.bump (Reg.KVW.WCACHE_PAR w) 1) (kvRaise w 3))]

/-- A page-table error of walker `w`, and the end of the request that engine `p` runs. -/
def fillError (w q : Nat) : Act := .all [.bump (Reg.KVW.PT_ERR w) 1, kvLastErr w q 5, kvRaise w 0]

/-- A page-table entry that is an error. -/
def State.fillBad (s : State) (q page : Nat) : Bool :=
  let e := s.pte (s.seqRec q) page
  pteBad e || (pteValid e && (s.frameOwner (pteFrame e) != q || s.frameGen (pteFrame e) != (s.seqRec q).gen || s.framePage (pteFrame e) != page))

/-- The request of engine `p` that ran into a page-table error ends. -/
def fillAbort (s : State) (p q : Nat) : Act := match s.runningOn p with
  | some c =>
    let i := match c.seqs.find? fun x => x.seq == q with
      | some x => x.idx
      | none => 0
    .when (Desc.opcode c.desc == opATTENTION) (endRequest c.id stFAULT 5 i false)
  | none => .nil

/-- The entry of a look-aside buffer. -/
def labFill (p : Nat) (e : LabEntry) : Act := .kv fun k => { k with labs := updAt (fun l =>
  e :: (l.filter fun x => !(x.seq == e.seq && x.page == e.page)).take 63) p k.labs }

section
variable {s : State} {w p q page t0 : Nat} {rest : List (Nat × Nat × Nat × Nat)} (hmiss : s.hw.kv.misses.getD w [] = (p, q, page, t0) :: rest)
include hmiss

theorem fill_run_good (parity : Bool) (hgood : s.fillBad q page = false) : (translationFillAct w parity).run s =
    (labFill p { seq := q, gen := (s.seqRec q).gen, page := page, pte := s.pte (s.seqRec q) page }).run
      ((fillBegin w q page (s.now - t0) rest parity).run s) := by
  have hbad : ¬(pteBad (s.pte (s.seqRec q) page) || (pteValid (s.pte (s.seqRec q) page) && (s.frameOwner (pteFrame (s.pte (s.seqRec q) page)) != q ||
      s.frameGen (pteFrame (s.pte (s.seqRec q) page)) != (s.seqRec q).gen || s.framePage (pteFrame (s.pte (s.seqRec q) page)) != page))) = true :=
    fun h => Bool.false_ne_true (hgood.symm.trans h)
  rw [translationFillAct, run_get, hmiss]
  dsimp only
  rw [if_neg hbad]
  simp only [fillBegin, labFill, run_all_cons, run_all_nil]

theorem fill_run_bad (parity : Bool) (hbad : s.fillBad q page = true) : (translationFillAct w parity).run s =
    (fillAbort s p q).run ((fillError w q).run ((fillBegin w q page (s.now - t0) rest parity).run s)) := by
  rw [translationFillAct, run_get, hmiss]
  dsimp only
  rw [if_pos (show (pteBad (s.pte (s.seqRec q) page) || (pteValid (s.pte (s.seqRec q) page) && (s.frameOwner (pteFrame (s.pte (s.seqRec q) page)) != q ||
      s.frameGen (pteFrame (s.pte (s.seqRec q) page)) != (s.seqRec q).gen || s.framePage (pteFrame (s.pte (s.seqRec q) page)) != page))) = true from hbad)]
  simp only [fillBegin, fillError, run_all_cons, run_all_nil]
  rfl

end

theorem ending_fillAbort (s : State) (p q : Nat) : (fillAbort s p q).Only .ending := by
  unfold fillAbort
  split
  · exact (only_when _ _).2 fun _ => ending_endRequest _ _ _ _ _ _
  · trivial

/-- The end of a command writes none of the walkers' registers. -/
theorem Act.Only.ending_kvw {a : Act} (h : a.Only .ending) {w : Nat} (hw : w < 4) {off : Nat} (ho : off < 4096) (s : State) :
    (a.run s).rd ⟨.KVW, w, off⟩ = s.rd ⟨.KVW, w, off⟩ := by
  refine h.ending_page ?_ s
  show 0x60 < ((0x61 + w) * 4096 + off) / 4096 ∧ ((0x61 + w) * 4096 + off) / 4096 < 0x80
  omega

theorem rd_maxReg {s : State} (hs : keysRise s.regs) {r : RegRef} (hm : r.mask = 0xFFFFFFFF) (n : Nat) :
    (((Act.maxReg r n).run s).rd r).toNat = max (s.rd r).toNat (min n 4294967295) := by
  have hlt := (s.rd r).isLt
  rw [Act.maxReg, run_get, run_when]
  split
  next h =>
    have h' : (s.rd r).toNat < n := of_decide_eq_true h
    rw [run_wrN, rd_setReg_full hs hm, BitVec.toNat_ofNat, Nat.mod_eq_of_lt (by omega)]
    omega
  next h =>
    have h' : ¬(s.rd r).toNat < n := fun hn => h (decide_eq_true hn)
    omega

/-- What `fillBegin` writes. -/
def fillRegs (w : Nat) (parity : Bool) : List RegRef := Reg.KVW.MISS_LAT_MAX w :: if parity then Reg.KVW.WCACHE_PAR w :: irqOf .KVW w else []

/-- The queues of a walker and its caches. -/
theorem walkerRead_effect (w q page : Nat) (s : State) : ∃ recs lines, (walkerRead w q page).run s =
    (Act.kv fun k => { k with recs := recs, lines := lines }).run s := ⟨_, _, rfl⟩

theorem fillBegin_effect {s : State} (hs : keysRise s.regs) (w : Fin 4) (hw : w.val < s.hw.kv.misses.length) (q page wait : Nat)
    (rest : List (Nat × Nat × Nat × Nat)) (parity : Bool) :
    let t := (fillBegin w q page wait rest parity).run s
    t.hw.kv.misses.getD w [] = rest ∧ t.hw.kv.labs = s.hw.kv.labs ∧
      (t.rd (Reg.KVW.MISS_LAT_MAX w)).toNat = max (s.rd (Reg.KVW.MISS_LAT_MAX w)).toNat (min wait 4294967295) ∧
      (parity = true → Counts (Reg.KVW.WCACHE_PAR w) 1 s t ∧ t.pend .KVW w 3 = true) ∧ SameRegs (fillRegs w parity) s t ∧ SameRest s t := by
  have hmax : (Act.maxReg (Reg.KVW.MISS_LAT_MAX w) wait).Only (.stores [Reg.KVW.MISS_LAT_MAX w]) := only_maxReg _ (by simp)
  let a := (Act.kv fun k => { k with misses := updAt (fun _ => rest) w k.misses }).run s
  have ha : a.hw.kv.misses.getD w [] = rest ∧ a.hw.kv.labs = s.hw.kv.labs ∧ a.regs = s.regs ∧ SameRest s a :=
    ⟨(getD_updAt (fun _ => rest) [] w s.hw.kv.misses).trans (if_pos hw), rfl, rfl, rest_hw _ s⟩
  have hrun : (fillBegin w q page wait rest parity).run s = (Act.when parity (.seq (.bump (Reg.KVW.WCACHE_PAR w) 1) (kvRaise w 3))).run
      ((walkerRead w q page).run ((Act.maxReg (Reg.KVW.MISS_LAT_MAX w) wait).run a)) := by
    simp only [fillBegin, a, run_all_cons, run_all_nil]
  dsimp only
  rw [hrun]
  obtain ⟨a1, a2, a3, a4⟩ := ha
  clear_value a
  have hrise : keysRise a.regs := by rw [a3]; exact hs
  have hlat := rd_maxReg hrise (mask_kvwCounts w).2.2.2 wait
  obtain ⟨b1, b2, b3⟩ := hmax.stores a
  have hb : keysRise ((Act.maxReg (Reg.KVW.MISS_LAT_MAX w) wait).run a).regs := rise_run _ hrise
  generalize (Act.maxReg (Reg.KVW.MISS_LAT_MAX w) wait).run a = b at *
  obtain ⟨recs, lines, hread⟩ := walkerRead_effect w q page b
  rw [hread]
  have hc : ∃ c, (Act.kv fun k => { k with recs := recs, lines := lines }).run b = c ∧ c.regs = b.regs ∧
      c.hw.kv.misses = b.hw.kv.misses ∧ c.hw.kv.labs = b.hw.kv.labs ∧ SameRest b c := ⟨_, rfl, rfl, rfl, rfl, rest_hw _ b⟩
  obtain ⟨c, hce, c1, c2, c3, c4⟩ := hc
  rw [hce]
  have hcRise : keysRise c.regs := by rw [c1]; exact hb
  have hsame : SameRegs [Reg.KVW.MISS_LAT_MAX w] s c := fun r hr => (rd_of_regs c1 r).trans ((b2 r hr).trans (rd_of_regs a3 r))
  have hlatc : (c.rd (Reg.KVW.MISS_LAT_MAX w)).toNat = max (s.rd (Reg.KVW.MISS_LAT_MAX w)).toNat (min wait 4294967295) := by
    rw [rd_of_regs c1, hlat, rd_of_regs a3]
  have hrest : SameRest s c := a4.trans (b3.trans c4)
  have hmiss : c.hw.kv.misses.getD w [] = rest := by rw [c2, b1, a1]
  have hlabs : c.hw.kv.labs = s.hw.kv.labs := by rw [c3, b1, a2]
  cases parity
  case false => exact ⟨hmiss, hlabs, hlatc, fun h => absurd h (by decide), hsame, hrest⟩
  case true =>
    have honly : (Act.seq (.bump (Reg.KVW.WCACHE_PAR w) 1) (kvRaise w 3)).Only (.quiet (Reg.KVW.WCACHE_PAR w :: irqOf .KVW w)) :=
      ⟨(only_bump _ _).2 (by simp), only_raise (by simp [irqOf]) (by simp [irqOf]) (by simp)⟩
    have hq := honly.quiet c
    have hcount := counts_bump hcRise (mask_kvwCounts w).2.2.1 1
    have hkeep : ((Act.seq (.bump (Reg.KVW.WCACHE_PAR w) 1) (kvRaise w 3)).run c).rd (Reg.KVW.WCACHE_PAR w) =
        ((Act.bump (Reg.KVW.WCACHE_PAR w) 1).run c).rd (Reg.KVW.WCACHE_PAR w) := rd_raise_off (by simp) (by simp)
    have hpend : ((Act.seq (.bump (Reg.KVW.WCACHE_PAR w) 1) (kvRaise w 3)).run c).pend .KVW w 3 = true :=
      bit_raise (rise_run _ hcRise) w.isLt (by decide)
    rw [run_when, if_pos rfl]
    generalize (Act.seq (.bump (Reg.KVW.WCACHE_PAR w) 1) (kvRaise w 3)).run c = d at *
    refine ⟨by rw [hq.part (·.kv.misses)]; exact hmiss, by rw [hq.part (·.kv.labs)]; exact hlabs, ?_, fun _ => ⟨?_, hpend⟩, ?_, hrest.trans hq.toSameRest⟩
    · rw [hq.regs.rd_off (by simp [irqOf])]
      exact hlatc
    · exact hcount.around (hsame.rd_off (by simp)) hkeep
    · exact (hsame.mono (by simp [fillRegs])).trans (hq.regs.mono (by simp [fillRegs]))

section
variable {s : State} (hs : keysRise s.regs) (w : Fin 4) {p q page t0 : Nat} {rest : List (Nat × Nat × Nat × Nat)}
  (hmiss : s.hw.kv.misses.getD w [] = (p, q, page, t0) :: rest) (hw : w.val < s.hw.kv.misses.length) (parity : Bool)
include hs hmiss hw

theorem fillGood_effect (hp : p < s.hw.kv.labs.length) (hgood : s.fillBad q page = false) :
    let t := (translationFillAct w parity).run s
    t.hw.kv.misses.getD w [] = rest ∧
      (t.hw.kv.labs.getD p []).head? = some { seq := q, gen := (s.seqRec q).gen, page := page, pte := s.pte (s.seqRec q) page } ∧
      (t.rd (Reg.KVW.MISS_LAT_MAX w)).toNat = max (s.rd (Reg.KVW.MISS_LAT_MAX w)).toNat (min (s.now - t0) 4294967295) ∧
      (parity = true → Counts (Reg.KVW.WCACHE_PAR w) 1 s t ∧ t.pend .KVW w 3 = true) ∧ SameRegs (fillRegs w parity) s t ∧ SameRest s t := by
  obtain ⟨h1, h2, h3, h4, h5, h6⟩ := fillBegin_effect hs w hw q page (s.now - t0) rest parity
  dsimp only
  rw [fill_run_good hmiss parity hgood]
  generalize (fillBegin w q page (s.now - t0) rest parity).run s = u at *
  generalize (LabEntry.mk q (s.seqRec q).gen page (s.pte (s.seqRec q) page)) = e at *
  have hlab : ((labFill p e).run u).hw.kv.labs.getD p [] = e :: ((u.hw.kv.labs.getD p []).filter fun x => !(x.seq == e.seq && x.page == e.page)).take 63 :=
    (getD_updAt _ [] p u.hw.kv.labs).trans (if_pos (by rw [h2]; exact hp))
  exact ⟨h1, by rw [hlab]; rfl, h3, h4, h5, h6.trans (rest_hw _ u)⟩

theorem fillBad_effect (hbad : s.fillBad q page = true) :
    let t := (translationFillAct w parity).run s
    t.hw.kv.misses.getD w [] = rest ∧ Counts (Reg.KVW.PT_ERR w) 1 s t ∧ t.pend .KVW w 0 = true ∧ t.es = s.es ∧ t.tsc = s.tsc := by
  obtain ⟨h1, -, -, -, h5, h6⟩ := fillBegin_effect hs w hw q page (s.now - t0) rest parity
  dsimp only
  rw [fill_run_bad hmiss parity hbad]
  have hu : keysRise ((fillBegin w q page (s.now - t0) rest parity).run s).regs := rise_run _ hs
  generalize (fillBegin w q page (s.now - t0) rest parity).run s = u at *
  have hrun : (fillError w q).run u = (kvRaise w 0).run ((kvLastErr w q 5).run ((Act.bump (Reg.KVW.PT_ERR w) 1).run u)) := by
    simp only [fillError, run_all_cons, run_all_nil]
  have hq : (fillError w q).Only (.quiet (Reg.KVW.PT_ERR w :: Reg.KVW.LAST_ERR w :: irqOf .KVW w)) :=
    ⟨(only_bump _ _).2 (by simp), (only_wrN _ _).2 (by simp), only_raise (by simp [irqOf]) (by simp [irqOf]) (by simp), trivial⟩
  have hquiet := hq.quiet u
  have hcount : ((fillError w q).run u).rd (Reg.KVW.PT_ERR w) = ((Act.bump (Reg.KVW.PT_ERR w) 1).run u).rd (Reg.KVW.PT_ERR w) := by
    rw [hrun]
    exact (rd_raise_off (by simp) (by simp)).trans (rd_setReg_off (r := Reg.KVW.LAST_ERR w) (by simp))
  have hpend : ((fillError w q).run u).pend .KVW w 0 = true := by
    rw [hrun]
    exact bit_raise (rise_run _ (rise_run _ hu)) w.isLt (by decide)
  generalize (fillError w q).run u = v at *
  have hend := ending_fillAbort s p q
  refine ⟨?_, ?_, ?_, (hend.es (fun h => h) v).trans (hquiet.es.trans h6.es), (hend.tsc (fun h => h) v).trans (hquiet.tsc.trans h6.tsc)⟩
  · rw [hend.ending_part (·.kv.misses) (fun _ => rfl), hquiet.part (·.kv.misses)]
    exact h1
  · refine (counts_bump hu (mask_kvwCounts w).2.1 1).around (h5.rd_off ?_) ((hend.ending_kvw w.isLt (by decide) v).trans hcount)
    cases parity <;> simp [fillRegs, irqOf]
  · exact (bit_of_rd (hend.ending_kvw (off := 0x010) w.isLt (by decide) v) 0).trans hpend

end

/-! ### ENABLE (R294) -/

theorem mask_freeList : RegRef.mask Reg.KVW.FREE_HEAD = 0xFFFFFFFF ∧ RegRef.mask Reg.KVW.FREE_FRAMES = 0xFFFFFFFF := by decide +kernel

theorem run_freeFrame (f : Nat) (s : State) : ∃ a l a' l', (freeFrame f).run s =
    (Act.bump Reg.KVW.FREE_FRAMES 1).run ((Act.wrN Reg.KVW.FREE_HEAD f).run ((Act.bytes a l).run ((Act.bytes a' l').run s))) :=
  ⟨s.ftabAddr f + 24, leBytes 4 (s.rd Reg.KVW.FREE_HEAD).toNat, s.ftabAddr f + 13, leBytes 1 0, by
    simp only [freeFrame, run_get, run_all_cons, run_all_nil, Act.mem]⟩

theorem freeFrame_effect {s : State} (hs : keysRise s.regs) {f : Nat} (hf : f < 2 ^ 32) (hroom : (s.rd Reg.KVW.FREE_FRAMES).toNat + 1 < 2 ^ 32) :
    let t := (freeFrame f).run s
    (t.rd Reg.KVW.FREE_HEAD).toNat = f ∧ (t.rd Reg.KVW.FREE_FRAMES).toNat = (s.rd Reg.KVW.FREE_FRAMES).toNat + 1 := by
  obtain ⟨a, l, a', l', hrun⟩ := run_freeFrame f s
  have hregs : ((Act.bytes a l).run ((Act.bytes a' l').run s)).regs = s.regs := by
    rw [run_bytes, apply_bytes_regs, run_bytes, apply_bytes_regs]
  dsimp only
  rw [hrun]
  generalize (Act.bytes a l).run ((Act.bytes a' l').run s) = u at *
  have hu : keysRise u.regs := by rw [hregs]; exact hs
  have hhead : ((Act.wrN Reg.KVW.FREE_HEAD f).run u).rd Reg.KVW.FREE_HEAD = BitVec.ofNat 32 f := rd_setReg_full hu mask_freeList.1 _
  have hframes : ((Act.wrN Reg.KVW.FREE_HEAD f).run u).rd Reg.KVW.FREE_FRAMES = s.rd Reg.KVW.FREE_FRAMES :=
    (rd_setReg_off (by simp)).trans (rd_of_regs hregs _)
  have hv : keysRise ((Act.wrN Reg.KVW.FREE_HEAD f).run u).regs := rise_run _ hu
  generalize (Act.wrN Reg.KVW.FREE_HEAD f).run u = v at *
  have hkeep : ((Act.bump Reg.KVW.FREE_FRAMES 1).run v).rd Reg.KVW.FREE_HEAD = v.rd Reg.KVW.FREE_HEAD :=
    (show (Act.bump Reg.KVW.FREE_FRAMES 1).Only (.but Reg.KVW.FREE_HEAD) from
      (only_bump _ _).2 (show Reg.KVW.FREE_FRAMES.key ≠ Reg.KVW.FREE_HEAD.key by decide)).keeps_rd v hv
  refine ⟨?_, ?_⟩
  · rw [hkeep, hhead, BitVec.toNat_ofNat, Nat.mod_eq_of_lt hf]
  · have := counts_bump hv mask_freeList.2 1 (by rw [hframes]; omega)
    rw [this, hframes]

/-- The frames of a list put on the free list one after another. -/
theorem freeFrames_effect {l : List Nat} {s : State} (hs : keysRise s.regs) (hl : ∀ f ∈ l, f < 2 ^ 32)
    (hroom : (s.rd Reg.KVW.FREE_FRAMES).toNat + l.length < 2 ^ 32) :
    let t := (Act.each l freeFrame).run s
    (t.rd Reg.KVW.FREE_HEAD).toNat = l.getLast?.getD (s.rd Reg.KVW.FREE_HEAD).toNat ∧
      (t.rd Reg.KVW.FREE_FRAMES).toNat = (s.rd Reg.KVW.FREE_FRAMES).toNat + l.length := by
  induction l generalizing s with
  | nil => exact ⟨rfl, rfl⟩
  | cons f l ih =>
    rw [List.length_cons] at hroom
    obtain ⟨h1, h2⟩ := freeFrame_effect hs (hl f List.mem_cons_self) (by omega)
    have hrun : (Act.each (f :: l) freeFrame).run s = (Act.each l freeFrame).run ((freeFrame f).run s) := rfl
    have hu : keysRise ((freeFrame f).run s).regs := rise_run _ hs
    dsimp only
    rw [hrun]
    generalize (freeFrame f).run s = u at *
    obtain ⟨k1, k2⟩ := ih hu (fun g hg => hl g (List.mem_cons_of_mem _ hg)) (by rw [h2]; omega)
    refine ⟨?_, ?_⟩
    · rw [k1, h1, List.getLast?_cons, Option.getD_some]
    · rw [k2, h2, List.length_cons]; omega

theorem kvStart_effect {s : State} (hs : keysRise s.regs) :
    let free := (List.range (s.fld Reg.KVW.POOL_FRAMES 23 0)).filter fun f => !s.frameUsed f
    let t := kvStart.run s
    (t.rd Reg.KVW.FREE_HEAD).toNat = free.headD 0xFFFFFFFF ∧ (t.rd Reg.KVW.FREE_FRAMES).toNat = free.length := by
  have hbound : s.fld Reg.KVW.POOL_FRAMES 23 0 < 2 ^ 24 := Nat.mod_lt _ (by decide)
  have hlen : ((List.range (s.fld Reg.KVW.POOL_FRAMES 23 0)).filter fun f => !s.frameUsed f).length < 2 ^ 24 :=
    Nat.lt_of_le_of_lt (List.length_filter_le _ _) (by rwa [List.length_range])
  have hmem : ∀ f ∈ (List.range (s.fld Reg.KVW.POOL_FRAMES 23 0)).filter fun f => !s.frameUsed f, f < 2 ^ 32 := fun f hf => by
    have := List.mem_range.1 (List.mem_filter.1 hf).1
    omega
  have hrun : kvStart.run s = (Act.each ((List.range (s.fld Reg.KVW.POOL_FRAMES 23 0)).filter fun f => !s.frameUsed f).reverse freeFrame).run
      ((Act.wrN Reg.KVW.FREE_FRAMES 0).run ((Act.wrN Reg.KVW.FREE_HEAD 0xFFFFFFFF).run s)) := by
    simp only [kvStart, run_get, run_all_cons, run_all_nil]
  dsimp only
  rw [hrun]
  generalize (List.range (s.fld Reg.KVW.POOL_FRAMES 23 0)).filter (fun f => !s.frameUsed f) = free at *
  have ha : keysRise ((Act.wrN Reg.KVW.FREE_HEAD 0xFFFFFFFF).run s).regs := rise_run _ hs
  have hhead : ((Act.wrN Reg.KVW.FREE_FRAMES 0).run ((Act.wrN Reg.KVW.FREE_HEAD 0xFFFFFFFF).run s)).rd Reg.KVW.FREE_HEAD = 0xFFFFFFFF :=
    (rd_setReg_off (by simp)).trans (rd_setReg_full hs mask_freeList.1 _)
  have hframes : ((Act.wrN Reg.KVW.FREE_FRAMES 0).run ((Act.wrN Reg.KVW.FREE_HEAD 0xFFFFFFFF).run s)).rd Reg.KVW.FREE_FRAMES = 0 :=
    rd_setReg_full ha mask_freeList.2 _
  have hb : keysRise ((Act.wrN Reg.KVW.FREE_FRAMES 0).run ((Act.wrN Reg.KVW.FREE_HEAD 0xFFFFFFFF).run s)).regs := rise_run _ ha
  generalize (Act.wrN Reg.KVW.FREE_FRAMES 0).run ((Act.wrN Reg.KVW.FREE_HEAD 0xFFFFFFFF).run s) = b at *
  have hz : (b.rd Reg.KVW.FREE_FRAMES).toNat = 0 := by rw [hframes]; rfl
  obtain ⟨h1, h2⟩ := freeFrames_effect (l := free.reverse) hb (fun f hf => hmem f (List.mem_reverse.1 hf)) (by rw [hz, List.length_reverse]; omega)
  refine ⟨?_, ?_⟩
  · rw [h1, List.getLast?_reverse, hhead]
    cases free <;> rfl
  · rw [h2, hz, List.length_reverse, Nat.zero_add]

theorem kvwCtrl_row (st : Fin 4) : RegRef.row ⟨.KVW, st, 0x040⟩ = some ⟨0x040, 1, 0x04, .RW, 0x000000F3, 0x000000F3, 0x0, 0x00000042, true⟩ ∧
    regAt .KVW st 0x040 = Reg.KVW.KVW_CTRL ∧ RegRef.mask Reg.KVW.KVW_CTRL = 0xF3 := by revert st; decide +kernel

/-- What ENABLE may change: the free list and the frame table. -/
theorem only_kvCtrl (old : Word) : (kvCtrl old).Only
    { reg := (· ∈ [Reg.KVW.FREE_HEAD, Reg.KVW.FREE_FRAMES]), mem := True, poison := True, hw := fun _ => False } := by
  simp [kvCtrl, kvStart, freeFrame]

theorem enable_effect {s : State} (hl : s.live) (st : Fin 4) (v : Word) (hacc : s.accepts 0 ⟨.KVW, st, 0x040⟩ (v ||| 1) = true)
    (hoff : s.bit Reg.KVW.KVW_CTRL 0 = false) (hj : s.bit Reg.JRNL.JRNL_CTRL 0 = false) :
    let free := (List.range (s.fld Reg.KVW.POOL_FRAMES 23 0)).filter fun f => !s.frameUsed f
    let t := (hostReg 0 ⟨.KVW, st, 0x040⟩ (v ||| 1)).run s
    t.bit Reg.KVW.KVW_CTRL 0 = true ∧ (t.rd Reg.KVW.FREE_HEAD).toNat = free.headD 0xFFFFFFFF ∧
      (t.rd Reg.KVW.FREE_FRAMES).toNat = free.length ∧ t.es = s.es ∧ t.tsc = s.tsc ∧ t.out = s.out := by
  obtain ⟨hrow, hreg, hmask⟩ := kvwCtrl_row st
  have hold : s.hostOld ⟨.KVW, st, 0x040⟩ = s.rd Reg.KVW.KVW_CTRL := by
    rw [State.hostOld, show behindSel .KVW 0x040 = false from rfl, if_neg Bool.false_ne_true, hreg]
  have honly := only_kvCtrl (s.rd Reg.KVW.KVW_CTRL)
  have hkeep {r : RegRef} (h1 : Reg.KVW.FREE_HEAD.key ≠ r.key) (h2 : Reg.KVW.FREE_FRAMES.key ≠ r.key) : (kvCtrl (s.rd Reg.KVW.KVW_CTRL)).Only (.but r) :=
    honly.weaken (fun q hq => by
      simp only [List.mem_cons, List.not_mem_nil, or_false] at hq
      rcases hq with rfl | rfl
      · exact h1
      · exact h2) (fun _ h => h.elim) (es := fun h => h.elim) (tsc := fun h => h.elim) (out := fun h => h.elim)
  obtain ⟨q, q1, -, q3, q4, q5, q6⟩ := hostReg_off_run hl.1 (a := kvCtrl (s.rd Reg.KVW.KVW_CTRL)) hrow hacc (by rw [hold]; rfl)
    (hkeep (by decide) (by decide)) hj ⟨by rw [hreg]; decide, key_ne_of_off (by simp)⟩
  have hon : q.bit Reg.KVW.KVW_CTRL 0 = true := by
    rw [q5, State.hostStored, show behindSel .KVW 0x040 = false from rfl, if_neg Bool.false_ne_true, hreg, State.bit, rd_setReg_off (by simp),
      rd_setReg_same hl.1.1.1, hmask, storedValue]
    simp
  rw [hreg] at q4
  have hframe (f : Nat) : q.frameUsed f = s.frameUsed f := by
    have h1 : q.rd Reg.KVW.FTAB_LO = s.rd Reg.KVW.FTAB_LO := q4.rd_off (by simp)
    have h2 : q.rd Reg.KVW.FTAB_HI = s.rd Reg.KVW.FTAB_HI := q4.rd_off (by simp)
    simp only [State.frameUsed, State.ftabAddr, State.rd64, h1, h2, readN_of_mem q3.mem]
  have hpool : q.fld Reg.KVW.POOL_FRAMES 23 0 = s.fld Reg.KVW.POOL_FRAMES 23 0 := fld_of_rd (q4.rd_off (by simp)) 23 0
  have hstart : (kvCtrl (s.rd Reg.KVW.KVW_CTRL)).run q = kvStart.run q := by
    rw [kvCtrl, run_get, run_when, if_pos (by rw [hon, show (s.rd Reg.KVW.KVW_CTRL).getLsbD 0 = false from hoff]; rfl)]
  obtain ⟨h1, h2⟩ := kvStart_effect q1.1.1
  simp only [hpool, hframe] at h1 h2
  have hctrl := (hkeep (r := Reg.KVW.KVW_CTRL) (by decide) (by decide)).keeps_rd q q1.1.1
  dsimp only
  rw [q6]
  refine ⟨(bit_of_rd hctrl 0).trans hon, by rw [hstart]; exact h1, by rw [hstart]; exact h2, (honly.es (fun h => h) q).trans q3.es,
    (honly.tsc (fun h => h) q).trans q3.tsc, (honly.out (fun h => h) q).trans q3.out⟩

/-- Settles O36: walkers and translation of the key-value cache. -/
theorem kvWalkers : Obligations.KvWalkers := by
  unfold Obligations.KvWalkers
  refine ⟨fun s id idx u c hl hc hop hrun hneed => ⟨fun hcrc hf hfc hb hrx hitem => ⟨_, command_eq hl.2, ?_⟩, fun hcrc => ⟨_, command_eq hl.2, ?_⟩⟩,
    fun s id idx u hl hnone => ⟨_, command_eq hl.2, ?_⟩, fun s w hl hon hnone hw => ⟨_, command_eq hl.2, scan_effect hl.1.1.1 w hon hnone hw⟩,
    fun s id i q c e hl hframe hleast hc hentry hpages => ⟨_, command_eq hl.2, resume_effect hl.1 hframe hleast hc hentry hpages⟩,
    fun s hl hframe => ?_, fun s p q page hl hw hlab => ⟨fun hfar hroom => ⟨_, simply_eq hl.2, labMiss_one hl.1.1.1 p _ _ hw hlab hroom hfar⟩,
      fun hd hnear hroom => ⟨_, simply_eq hl.2, labMiss_two hl.1.1.1 p _ _ hw hlab hroom hd hnear⟩⟩,
    fun s w parity p q page t0 rest hl hmiss hw hp => ⟨fun hgood hown => ⟨_, command_eq hl.2, fillGood_effect hl.1.1.1 w hmiss hw parity hp ?_⟩,
      fun hbad => ⟨_, command_eq hl.2, fillBad_effect hl.1.1.1 w hmiss hw parity ?_⟩⟩,
    fun s st v hl hacc hoff hj => ⟨_, command_eq hl.2, enable_effect hl st v hacc hoff hj⟩⟩
  · exact partialGood_effect hl hc (awaitsPartial_of hop hrun hneed) hcrc hf hfc hb hrx hitem
  · exact partialCorrupt_effect hl hc (awaitsPartial_of hop hrun hneed) hcrc
  · rw [partialArriveAct, run_get, hnone]
    exact quarantine_effect hl.1.1.1
  · refine (command_eq hl.2).trans (congrArg (fun t : State => Host.Outcome.next t.settled) ?_)
    rw [resumeAct, run_get, run_when, if_neg (by rw [hframe]; exact Bool.false_ne_true)]
  · rw [State.fillBad]
    rw [hgood, Bool.false_or, Bool.and_eq_false_iff]
    cases hv : pteValid (s.pte (s.seqRec q) page)
    · exact .inl rfl
    · obtain ⟨h1, h2, h3⟩ := hown hv
      simp [h1, h2, h3]
  · rw [State.fillBad]
    rw [hbad, Bool.true_or]

end Sys2Proof.Machine

/-! ## Proofs: the text unit (07_text_engine)

O38: the vocabulary, constraint sets, cache fills, mask requests. -/

namespace Sys2Proof.Machine

-- One theorem after the other: elaborated side by side, they hold more threads than the memory limit of a check allows.
set_option Elab.async false

/-! ### What the text unit's commands see -/

/-- The state after an accepted write to a command register of TXT: memory, block state and the other registers are as they were. -/
structure TxtBegun (s q : State) : Prop where
  sound : q.sound
  mem : q.mem = s.mem
  hw : q.hw = s.hw
  regs : SameRegs [Reg.HDR.WRITE_COUNT .TXT 0] s q
  rest : SameRest s q

namespace TxtBegun
variable {s q : State} (h : TxtBegun s q)
include h

theorem rd {off : Nat} (ho : off % 4096 ≠ 0x030) : q.rd ⟨.TXT, 0, off⟩ = s.rd ⟨.TXT, 0, off⟩ := h.regs.rd_off (by simpa [eq_comm] using ho)

theorem vocab : q.vocab = s.vocab := by
  simp only [State.vocab, State.rd64, h.rd (off := 0x048) (by decide), h.rd (off := 0x04C) (by decide), readN_of_mem h.mem]

theorem txtBusy : q.txtBusy = s.txtBusy := by rw [State.txtBusy, State.txtBusy, h.hw]

theorem byte (a : Nat) : q.byte a = s.byte a := by rw [State.byte, State.byte, h.mem]

theorem slotInUse (k : Nat) : q.slotInUse k = s.slotInUse k := by
  have hcrec (n : Nat) : q.crec n = s.crec n := by
    simp only [State.crec, State.crecAddr, State.rd64, h.rd (off := 0x058) (by decide), h.rd (off := 0x05C) (by decide), readN_of_mem h.mem, h.byte]
  have hent (r : MaskReq) (i : Nat) : q.maskEnt r i = s.maskEnt r i := by simp only [State.maskEnt, readN_of_mem h.mem]
  simp only [State.slotInUse, hcrec, hent, h.hw]

theorem csetAddr : q.rd64 Reg.TXT.CSET_LO Reg.TXT.CSET_HI = s.rd64 Reg.TXT.CSET_LO Reg.TXT.CSET_HI := by
  simp only [State.rd64, h.rd (off := 0x064) (by decide), h.rd (off := 0x068) (by decide)]

theorem csetOk (a : Nat) : q.csetOk (q.cset a) = s.csetOk (s.cset a) := by
  have hsize : q.vocabSize = s.vocabSize := by
    simp only [State.vocabSize, State.bit, State.fld, h.rd (off := 0x044) (by decide), h.rd (off := 0x054) (by decide)]
    rfl
  simp only [State.csetOk, State.cset, hsize, readN_of_mem h.mem]
  rfl
end TxtBegun

theorem txtCmd_row : RegRef.row Reg.TXT.VOCAB_CMD = some ⟨0x050, 1, 0x04, .WO, 0, 0, 0, 0, false⟩ ∧
    RegRef.row Reg.TXT.CSET_CMD = some ⟨0x06C, 1, 0x04, .WO, 0, 0, 0, 0, false⟩ := by decide +kernel

theorem mask_txt : RegRef.mask Reg.TXT.TXT_STATUS = 0x00FFFF0F ∧ RegRef.mask Reg.TXT.CSET_STATUS = 0xFFFF ∧
    RegRef.mask Reg.TXT.MASK_CNT = 0xFFFFFFFF ∧ RegRef.mask Reg.TXT.MASK_LATE = 0xFFFFFFFF ∧ RegRef.mask Reg.TXT.VCACHE_MISS = 0xFFFFFFFF ∧
    RegRef.mask Reg.TXT.VCACHE_PAR = 0xFFFFFFFF := by decide +kernel

section
variable {s : State} (hl : s.live) {v : Word}
include hl

/-- VOCAB_CMD written. -/
theorem vocabCmd_run (hacc : s.accepts 0 Reg.TXT.VOCAB_CMD v = true) :
    ∃ q, TxtBegun s q ∧ Journaled ((vocabCmd v).run q) ((hostReg 0 Reg.TXT.VOCAB_CMD v).run s) := by
  obtain ⟨q, hq, hj⟩ := hostReg_run hl.1 (a := vocabCmd v) txtCmd_row.1 hacc rfl
  exact ⟨q, ⟨hq.sound, hq.rest.mem, hq.hw, hq.kept (fun _ => rfl) (by decide +kernel) (by simp), hq.rest⟩, hj⟩

/-- CSET_CMD written. -/
theorem csetCmd_run (hacc : s.accepts 0 Reg.TXT.CSET_CMD v = true) :
    ∃ q, TxtBegun s q ∧ Journaled ((csetCmd v).run q) ((hostReg 0 Reg.TXT.CSET_CMD v).run s) := by
  obtain ⟨q, hq, hj⟩ := hostReg_run hl.1 (a := csetCmd v) txtCmd_row.2 hacc rfl
  exact ⟨q, ⟨hq.sound, hq.rest.mem, hq.hw, hq.kept (fun _ => rfl) (by decide +kernel) (by simp), hq.rest⟩, hj⟩

end

/-- What the text unit's effect leaves alone, the write does. -/
theorem TxtBegun.frame {s q t u : State} (h : TxtBegun s q) (hj : Journaled u t) {l : List RegRef} (hu : SameRegs l q u) (hr : SameRest q u) :
    SameRegs (l ++ hostTrail .TXT 0) s t ∧ t.es = s.es ∧ t.tsc = s.tsc ∧ t.out = s.out :=
  ⟨hj.sameRegs (b := .TXT) (i := 0) h.regs hu (by simp [hostTrail]) (by simp) (by simp),
    hj.es.trans (hr.es.trans h.rest.es), hj.tsc.trans (hr.tsc.trans h.rest.tsc), hj.out.trans (hr.out.trans h.rest.out)⟩

/-! ### The vocabulary (R301, R335) -/

theorem vocabCmd_load {q : State} {v : Word} (h0 : v.getLsbD 0 = true) (h1 : v.getLsbD 1 = false) : (vocabCmd v).run q =
    (if q.vocab.ok then Act.seq (.setFld Reg.TXT.TXT_STATUS 0 0 1) (.wrN Reg.TXT.VOCAB_INFO q.vocab.size)
      else .all [.setFld Reg.TXT.TXT_STATUS 0 0 0, .cfgErr .TXT 0, txtRaise 0]).run ((Act.txt fun t => { t with vcache := [] }).run q) := by
  rw [vocabCmd, run_get, run_all_cons, run_when, if_pos h0, run_all_cons, run_when, h1, Bool.false_and, if_neg Bool.false_ne_true]
  simp only [run_all_cons, run_all_nil]

theorem vocabLoad_effect {s : State} (hl : s.live) {v : Word} (hacc : s.accepts 0 Reg.TXT.VOCAB_CMD v = true) (h0 : v.getLsbD 0 = true)
    (h1 : v.getLsbD 1 = false) (hok : s.vocab.ok = true) :
    let t := (hostReg 0 Reg.TXT.VOCAB_CMD v).run s
    t.bit Reg.TXT.TXT_STATUS 0 = true ∧ t.rd Reg.TXT.VOCAB_INFO = BitVec.ofNat 32 s.vocab.size &&& RegRef.mask Reg.TXT.VOCAB_INFO ∧
      t.hw.txt.vcache = [] ∧ SameRegs ([Reg.TXT.TXT_STATUS, Reg.TXT.VOCAB_INFO] ++ hostTrail .TXT 0) s t ∧ t.es = s.es ∧ t.tsc = s.tsc ∧
      t.out = s.out := by
  obtain ⟨q, hq, hj⟩ := vocabCmd_run hl hacc
  rw [vocabCmd_load h0 h1, hq.vocab, if_pos hok, run_seq] at hj
  let p := (Act.txt fun t => { t with vcache := [] }).run q
  have hstatus := bit_setFld (s := p) (v := 1) (k := 0) hq.sound.1.1 (r := Reg.TXT.TXT_STATUS) (by rw [mask_txt.1]; decide)
  have ha : keysRise ((Act.setFld Reg.TXT.TXT_STATUS 0 0 1).run p).regs := rise_run _ (s := p) hq.sound.1.1
  obtain ⟨e1, e2, e3⟩ := (show (Act.seq (.setFld Reg.TXT.TXT_STATUS 0 0 1) (.wrN Reg.TXT.VOCAB_INFO s.vocab.size)).Only
    (.stores [Reg.TXT.TXT_STATUS, Reg.TXT.VOCAB_INFO]) by simp).stores p
  have hinfo : ((Act.wrN Reg.TXT.VOCAB_INFO s.vocab.size).run ((Act.setFld Reg.TXT.TXT_STATUS 0 0 1).run p)).rd Reg.TXT.VOCAB_INFO = _ :=
    rd_setReg_same ha _ _
  refine ⟨?_, (hj.rd_of_off (by decide)).trans hinfo, (hj.part (·.txt.vcache)).trans (congrArg (fun h : Hw => h.txt.vcache) e1),
    hq.frame hj e2 ((rest_hw _ q).trans e3)⟩
  exact (bit_of_rd (hj.rd_of_off (by decide)) 0).trans ((bit_of_rd (rd_setReg_off (by simp)) 0).trans (hstatus.trans rfl))

theorem vocabRefuse_effect {s : State} (hl : s.live) {v : Word} (hacc : s.accepts 0 Reg.TXT.VOCAB_CMD v = true) (h0 : v.getLsbD 0 = true)
    (h1 : v.getLsbD 1 = false) (hok : s.vocab.ok = false) :
    let t := (hostReg 0 Reg.TXT.VOCAB_CMD v).run s
    t.bit Reg.TXT.TXT_STATUS 0 = false ∧ t.bit (Reg.HDR.ERR_STATUS .TXT 0) 8 = true ∧ t.pend .TXT 0 0 = true ∧ t.es = s.es ∧
      t.tsc = s.tsc ∧ t.out = s.out := by
  obtain ⟨q, hq, hj⟩ := vocabCmd_run hl hacc
  rw [vocabCmd_load h0 h1, hq.vocab, if_neg (by rw [hok]; exact Bool.false_ne_true)] at hj
  let p := (Act.txt fun t => { t with vcache := [] }).run q
  have honly : (Act.all [.setFld Reg.TXT.TXT_STATUS 0 0 0, .cfgErr .TXT 0, txtRaise 0]).Only
      (.quiet (Reg.TXT.TXT_STATUS :: Reg.HDR.ERR_STATUS .TXT 0 :: irqOf .TXT 0)) :=
    ⟨(only_setFld _ _ _ _).2 (by simp), (only_cfgErr _ _).2 (by simp), only_raise (by simp [irqOf]) (by simp [irqOf]) (by simp), trivial⟩
  have hquiet := honly.quiet p
  have hrun : (Act.all [.setFld Reg.TXT.TXT_STATUS 0 0 0, .cfgErr .TXT 0, txtRaise 0]).run p =
    (txtRaise 0).run ((Act.err .TXT 0 8).run ((Act.setFld Reg.TXT.TXT_STATUS 0 0 0).run p)) := rfl
  have hstatus := bit_setFld (s := p) (v := 0) (k := 0) hq.sound.1.1 (r := Reg.TXT.TXT_STATUS) (by rw [mask_txt.1]; decide)
  have ha : keysRise ((Act.setFld Reg.TXT.TXT_STATUS 0 0 0).run p).regs := rise_run _ (s := p) hq.sound.1.1
  have herr : ((Act.err .TXT 0 8).run ((Act.setFld Reg.TXT.TXT_STATUS 0 0 0).run p)).bit (Reg.HDR.ERR_STATUS .TXT 0) 8 = true :=
    bit_err ha (by rw [mask_errStatus (by decide)]; decide)
  have hkeep : ((Act.err .TXT 0 8).run ((Act.setFld Reg.TXT.TXT_STATUS 0 0 0).run p)).rd Reg.TXT.TXT_STATUS =
    ((Act.setFld Reg.TXT.TXT_STATUS 0 0 0).run p).rd Reg.TXT.TXT_STATUS := rd_setReg_off (by simp)
  have hb : keysRise ((Act.err .TXT 0 8).run ((Act.setFld Reg.TXT.TXT_STATUS 0 0 0).run p)).regs := rise_run _ ha
  have hframe := hq.frame hj hquiet.regs ((rest_hw _ q).trans hquiet.toSameRest)
  dsimp only
  rw [show (Act.txt fun t => { t with vcache := [] }).run q = p from rfl, hrun] at hj
  generalize (Act.err .TXT 0 8).run ((Act.setFld Reg.TXT.TXT_STATUS 0 0 0).run p) = b at *
  refine ⟨?_, ?_, ?_, hframe.2⟩
  · exact (bit_of_rd (hj.rd_of_off (by decide)) 0).trans ((bit_of_rd ((rd_raise_off (by simp) (by simp)).trans hkeep) 0).trans (hstatus.trans rfl))
  · exact (bit_of_rd (hj.rd_of_off (by decide)) 8).trans ((bit_of_rd (rd_raise_off (by simp) (by simp)) 8).trans herr)
  · exact (bit_of_rd (hj.rd (r := Reg.HDR.IRQ_PEND .TXT 0) (by decide) (by decide) (by decide) (by decide)) 0).trans (bit_raise hb (by decide) (by decide))

theorem vocabUnload_effect {s : State} (hl : s.live) {v : Word} (hacc : s.accepts 0 Reg.TXT.VOCAB_CMD v = true) (h0 : v.getLsbD 0 = false)
    (h1 : v.getLsbD 1 = true) (hbusy : s.txtBusy = false) :
    let t := (hostReg 0 Reg.TXT.VOCAB_CMD v).run s
    t.bit Reg.TXT.TXT_STATUS 0 = false ∧ SameRegs (Reg.TXT.TXT_STATUS :: hostTrail .TXT 0) s t ∧ t.es = s.es ∧ t.tsc = s.tsc ∧ t.out = s.out := by
  obtain ⟨q, hq, hj⟩ := vocabCmd_run hl hacc
  have hrun : (vocabCmd v).run q = (Act.setFld Reg.TXT.TXT_STATUS 0 0 0).run q := by
    rw [vocabCmd, run_get, run_all_cons, run_when, if_neg (by rw [h0]; exact Bool.false_ne_true), run_all_cons, run_when, h1, hq.txtBusy, hbusy,
      if_pos (by rfl), run_all_nil]
  rw [hrun] at hj
  have hstatus := bit_setFld (v := 0) (k := 0) hq.sound.1.1 (r := Reg.TXT.TXT_STATUS) (by rw [mask_txt.1]; decide)
  obtain ⟨e1, e2⟩ := (show (Act.setFld Reg.TXT.TXT_STATUS 0 0 0).Only (.regs [Reg.TXT.TXT_STATUS]) by simp).frame q
  exact ⟨(bit_of_rd (hj.rd_of_off (by decide)) 0).trans (hstatus.trans rfl), hq.frame hj e1 e2⟩

/-! ### Constraint sets (R319) -/

theorem csetCmd_inUse {q : State} {v : Word} (h0 : v.getLsbD 0 = true) (huse : q.slotInUse (bits v 11 8) = true) : (csetCmd v).run q =
    (Act.txt fun t => { t with later := t.later ++ [(bits v 11 8, some (q.rd64 Reg.TXT.CSET_LO Reg.TXT.CSET_HI))] }).run q := by
  rw [csetCmd, run_get]
  dsimp only
  rw [if_pos h0, if_pos huse]

theorem csetCmd_load {q : State} {v : Word} (h0 : v.getLsbD 0 = true) (hfree : q.slotInUse (bits v 11 8) = false) : (csetCmd v).run q =
    (csetApply (bits v 11 8) (some (q.rd64 Reg.TXT.CSET_LO Reg.TXT.CSET_HI))).run q := by
  rw [csetCmd, run_get]
  dsimp only
  rw [if_pos h0, if_neg (by rw [hfree]; exact Bool.false_ne_true)]

theorem csetCmd_unload {q : State} {v : Word} (h0 : v.getLsbD 0 = false) (h1 : v.getLsbD 1 = true)
    (hfree : q.slotInUse (bits v 11 8) = false) : (csetCmd v).run q = (csetApply (bits v 11 8) none).run q := by
  rw [csetCmd, run_get]
  dsimp only
  rw [if_neg (by rw [h0]; exact Bool.false_ne_true), if_pos h1, if_neg (by rw [hfree]; exact Bool.false_ne_true)]

theorem csetStatus_bit {k : Nat} (hk : k < 16) : (RegRef.mask Reg.TXT.CSET_STATUS).getLsbD k = true := by
  rw [mask_txt.2.1]; revert k; decide

theorem csetUnload_run {s : State} {k : Nat} : (csetApply k none).run s =
    (Act.txt fun t => { t with csets := t.csets.filter fun e => e.1 != k }).run ((Act.setFld Reg.TXT.CSET_STATUS k k 0).run s) := by
  rw [csetApply, run_get, run_seq]

/-- A slot unloaded. -/
theorem csetUnload_effect {s : State} (hs : keysRise s.regs) {k : Nat} (hk : k < 16) :
    let t := (csetApply k none).run s
    t.bit Reg.TXT.CSET_STATUS k = false ∧ SameRegs [Reg.TXT.CSET_STATUS] s t ∧ SameRest s t := by
  obtain ⟨-, h2, h3⟩ := (show (Act.setFld Reg.TXT.CSET_STATUS k k 0).Only (.stores [Reg.TXT.CSET_STATUS]) by simp).stores s
  have hbit : ((Act.setFld Reg.TXT.CSET_STATUS k k 0).run s).bit Reg.TXT.CSET_STATUS k = false := (bit_setFld hs (csetStatus_bit hk)).trans rfl
  dsimp only
  rw [csetUnload_run]
  generalize (Act.setFld Reg.TXT.CSET_STATUS k k 0).run s = u at *
  exact ⟨hbit, h2, h3.trans (rest_hw _ u)⟩

/-- A slot loaded. -/
theorem csetLoad_effect {s : State} (hs : keysRise s.regs) {k a : Nat} (hk : k < 16) (hok : s.csetOk (s.cset a) = true) :
    let t := (csetApply k (some a)).run s
    t.bit Reg.TXT.CSET_STATUS k = true ∧ alFind k t.hw.txt.csets = some a ∧ SameRegs [Reg.TXT.CSET_STATUS] s t ∧ SameRest s t := by
  have hrun : (csetApply k (some a)).run s = (Act.txt fun t => { t with csets := (k, a) :: t.csets.filter fun e => e.1 != k }).run
      ((Act.setFld Reg.TXT.CSET_STATUS k k 1).run s) := by
    rw [csetApply, run_get]
    dsimp only
    rw [if_pos hok, run_seq]
  obtain ⟨-, h2, h3⟩ := (show (Act.setFld Reg.TXT.CSET_STATUS k k 1).Only (.stores [Reg.TXT.CSET_STATUS]) by simp).stores s
  have hbit : ((Act.setFld Reg.TXT.CSET_STATUS k k 1).run s).bit Reg.TXT.CSET_STATUS k = true := (bit_setFld hs (csetStatus_bit hk)).trans rfl
  dsimp only
  rw [hrun]
  generalize (Act.setFld Reg.TXT.CSET_STATUS k k 1).run s = u at *
  exact ⟨hbit, if_pos rfl, h2, h3.trans (rest_hw _ u)⟩

/-- A set refused. -/
theorem csetRefuse_effect {s : State} (hs : keysRise s.regs) {k a : Nat} (hk : k < 16) (hok : s.csetOk (s.cset a) = false) :
    let t := (csetApply k (some a)).run s
    t.bit Reg.TXT.CSET_STATUS k = false ∧ t.pend .TXT 0 1 = true ∧ SameRegs (Reg.TXT.CSET_STATUS :: irqOf .TXT 0) s t ∧ SameRest s t := by
  have hrun : (csetApply k (some a)).run s = (txtRaise 1).run ((csetApply k none).run s) := by
    rw [csetApply, run_get]
    dsimp only
    rw [if_neg (by rw [hok]; exact Bool.false_ne_true), csetUnload_run]
    simp only [run_all_cons, run_all_nil]
  obtain ⟨h1, h2, h3⟩ := csetUnload_effect hs hk
  have hu : keysRise ((csetApply k none).run s).regs := rise_run _ hs
  dsimp only
  rw [hrun]
  generalize (csetApply k none).run s = u at *
  have hq : Quiet (irqOf .TXT 0) u ((txtRaise 1).run u) := Act.Only.quiet (only_raise (by simp [irqOf]) (by simp [irqOf]) (by simp)) u
  exact ⟨(bit_of_rd (rd_raise_off (by simp) (by simp)) k).trans h1, bit_raise hu (by decide) (by decide),
    (h2.mono (by simp)).trans (hq.regs.mono (by simp)), h3.trans hq.toSameRest⟩

section
variable {s : State} (hl : s.live) {v : Word} (hacc : s.accepts 0 Reg.TXT.CSET_CMD v = true)
include hl hacc

theorem csetCmd_later (h0 : v.getLsbD 0 = true) (huse : s.slotInUse (bits v 11 8) = true) :
    let t := (hostReg 0 Reg.TXT.CSET_CMD v).run s
    t.hw.txt.later = s.hw.txt.later ++ [(bits v 11 8, some (s.rd64 Reg.TXT.CSET_LO Reg.TXT.CSET_HI))] ∧
      SameRegs (hostTrail .TXT 0) s t ∧ t.es = s.es ∧ t.tsc = s.tsc ∧ t.out = s.out := by
  obtain ⟨q, hq, hj⟩ := csetCmd_run hl hacc
  rw [csetCmd_inUse h0 (by rw [hq.slotInUse]; exact huse), hq.csetAddr] at hj
  refine ⟨(hj.part (·.txt.later)).trans ?_, hq.frame (l := []) hj (fun _ _ => rfl) (rest_hw _ q)⟩
  rw [← hq.hw]
  rfl

theorem csetCmd_loads (h0 : v.getLsbD 0 = true) (hfree : s.slotInUse (bits v 11 8) = false)
    (hok : s.csetOk (s.cset (s.rd64 Reg.TXT.CSET_LO Reg.TXT.CSET_HI)) = true) :
    let t := (hostReg 0 Reg.TXT.CSET_CMD v).run s
    t.bit Reg.TXT.CSET_STATUS (bits v 11 8) = true ∧
      alFind (bits v 11 8) t.hw.txt.csets = some (s.rd64 Reg.TXT.CSET_LO Reg.TXT.CSET_HI) ∧
      SameRegs (Reg.TXT.CSET_STATUS :: hostTrail .TXT 0) s t ∧ t.es = s.es ∧ t.tsc = s.tsc ∧ t.out = s.out := by
  obtain ⟨q, hq, hj⟩ := csetCmd_run hl hacc
  rw [csetCmd_load h0 (by rw [hq.slotInUse]; exact hfree), hq.csetAddr] at hj
  obtain ⟨e1, e2, e3, e4⟩ := csetLoad_effect hq.sound.1.1 (k := bits v 11 8) (Nat.mod_lt _ (by decide)) ((hq.csetOk _).trans hok)
  exact ⟨(bit_of_rd (hj.rd_of_off (by decide)) _).trans e1, by rw [hj.part (·.txt.csets)]; exact e2, hq.frame hj e3 e4⟩

theorem csetCmd_refuses (h0 : v.getLsbD 0 = true) (hfree : s.slotInUse (bits v 11 8) = false)
    (hok : s.csetOk (s.cset (s.rd64 Reg.TXT.CSET_LO Reg.TXT.CSET_HI)) = false) :
    let t := (hostReg 0 Reg.TXT.CSET_CMD v).run s
    t.bit Reg.TXT.CSET_STATUS (bits v 11 8) = false ∧ t.pend .TXT 0 1 = true ∧ t.es = s.es ∧ t.tsc = s.tsc ∧ t.out = s.out := by
  obtain ⟨q, hq, hj⟩ := csetCmd_run hl hacc
  rw [csetCmd_load h0 (by rw [hq.slotInUse]; exact hfree), hq.csetAddr] at hj
  obtain ⟨e1, e2, e3, e4⟩ := csetRefuse_effect hq.sound.1.1 (k := bits v 11 8) (Nat.mod_lt _ (by decide)) ((hq.csetOk _).trans hok)
  exact ⟨(bit_of_rd (hj.rd_of_off (by decide)) _).trans e1,
    (bit_of_rd (hj.rd (r := Reg.HDR.IRQ_PEND .TXT 0) (by decide) (by decide) (by decide) (by decide)) 1).trans e2, (hq.frame hj e3 e4).2⟩

theorem csetCmd_unloads (h0 : v.getLsbD 0 = false) (h1 : v.getLsbD 1 = true) (hfree : s.slotInUse (bits v 11 8) = false) :
    let t := (hostReg 0 Reg.TXT.CSET_CMD v).run s
    t.bit Reg.TXT.CSET_STATUS (bits v 11 8) = false ∧ SameRegs (Reg.TXT.CSET_STATUS :: hostTrail .TXT 0) s t ∧ t.es = s.es ∧ t.tsc = s.tsc ∧
      t.out = s.out := by
  obtain ⟨q, hq, hj⟩ := csetCmd_run hl hacc
  rw [csetCmd_unload h0 h1 (by rw [hq.slotInUse]; exact hfree)] at hj
  obtain ⟨e1, e2, e3⟩ := csetUnload_effect hq.sound.1.1 (k := bits v 11 8) (Nat.mod_lt _ (by decide))
  exact ⟨(bit_of_rd (hj.rd_of_off (by decide)) _).trans e1, hq.frame hj e2 e3⟩

end

/-- A load or unload left until the request ends. -/
theorem csetDeferred_effect {s : State} (hs : keysRise s.regs) {k : Nat} (hk : k < 16) (hrun : s.hw.txt.run = none)
    (hlater : s.hw.txt.later = [(k, none)]) :
    let t := csetDeferredAct.run s
    t.bit Reg.TXT.CSET_STATUS k = false ∧ t.hw.txt.later = [] ∧ SameRegs [Reg.TXT.CSET_STATUS] s t ∧ SameRest s t := by
  have hrun : csetDeferredAct.run s = (Act.txt fun t => { t with later := [] }).run ((csetApply k none).run s) := by
    rw [csetDeferredAct, run_get, hrun, run_when, if_pos (by rfl), hlater]
    rfl
  obtain ⟨h1, h2, h3⟩ := csetUnload_effect hs hk
  dsimp only
  rw [hrun]
  generalize (csetApply k none).run s = u at *
  exact ⟨h1, rfl, h2, h3.trans (rest_hw _ u)⟩

/-! ### The vocabulary cache (R303, R304) -/

/-- The way of its set that line `line` takes; with no way of its own the cache stays. -/
theorem vcacheFill_run (line : Nat) (byMask parity : Bool) (s : State) : ∃ kept, (vcacheFillAct line byMask parity).run s =
    (Act.when parity (.seq (.bump Reg.TXT.VCACHE_PAR 1) (txtRaise 4))).run
      ((Act.when ((if byMask then s.fld Reg.TXT.TXT_CTRL 7 4 else 16 - s.fld Reg.TXT.TXT_CTRL 7 4) != 0)
        (.txt fun t => { t with vcache := (line, byMask) :: kept })).run ((Act.bump Reg.TXT.VCACHE_MISS 1).run s)) := ⟨_, rfl⟩

theorem vcacheFill_effect {s : State} (hs : keysRise s.regs) (line : Nat) (byMask parity : Bool) :
    let t := (vcacheFillAct line byMask parity).run s
    Counts Reg.TXT.VCACHE_MISS 1 s t ∧ (parity = true → Counts Reg.TXT.VCACHE_PAR 1 s t ∧ t.pend .TXT 0 4 = true) ∧
      ((if byMask then s.fld Reg.TXT.TXT_CTRL 7 4 else 16 - s.fld Reg.TXT.TXT_CTRL 7 4) ≠ 0 → t.hw.txt.vcache.head? = some (line, byMask)) ∧
      SameRegs ([Reg.TXT.VCACHE_MISS, Reg.TXT.VCACHE_PAR] ++ irqOf .TXT 0) s t ∧ SameRest s t := by
  obtain ⟨kept, hrun⟩ := vcacheFill_run line byMask parity s
  dsimp only
  rw [hrun]
  generalize (if byMask then s.fld Reg.TXT.TXT_CTRL 7 4 else 16 - s.fld Reg.TXT.TXT_CTRL 7 4) = room
  have hmiss := counts_bump hs mask_txt.2.2.2.2.1 1
  obtain ⟨-, a2, a3⟩ := (show (Act.bump Reg.TXT.VCACHE_MISS 1).Only (.stores [Reg.TXT.VCACHE_MISS]) by simp).stores s
  have ha : keysRise ((Act.bump Reg.TXT.VCACHE_MISS 1).run s).regs := rise_run _ hs
  generalize (Act.bump Reg.TXT.VCACHE_MISS 1).run s = a at *
  have hb : ∃ b, (Act.when (room != 0) (.txt fun t => { t with vcache := (line, byMask) :: kept })).run a = b ∧ b.regs = a.regs ∧ SameRest a b ∧
      (room ≠ 0 → b.hw.txt.vcache.head? = some (line, byMask)) := by
    refine ⟨_, rfl, ?_⟩
    rw [run_when]
    split
    · exact ⟨rfl, rest_hw _ a, fun _ => rfl⟩
    next h => exact ⟨rfl, ⟨rfl, rfl, rfl, rfl, rfl⟩, fun hr => absurd (bne_iff_ne.2 hr) h⟩
  obtain ⟨b, hbe, b1, b2, b3⟩ := hb
  rw [hbe]
  have hbr : keysRise b.regs := by rw [b1]; exact ha
  have hsb : SameRegs [Reg.TXT.VCACHE_MISS] s b := fun r hr => (rd_of_regs b1 r).trans (a2 r hr)
  have hmissb : Counts Reg.TXT.VCACHE_MISS 1 s b := hmiss.around rfl (rd_of_regs b1 _)
  cases parity
  case false => exact ⟨hmissb, fun h => absurd h (by decide), b3, hsb.mono (by simp), a3.trans b2⟩
  case true =>
    have honly : (Act.seq (.bump Reg.TXT.VCACHE_PAR 1) (txtRaise 4)).Only (.quiet (Reg.TXT.VCACHE_PAR :: irqOf .TXT 0)) :=
      ⟨(only_bump _ _).2 (by simp), only_raise (by simp [irqOf]) (by simp [irqOf]) (by simp)⟩
    have hq := honly.quiet b
    have hcount := counts_bump hbr mask_txt.2.2.2.2.2 1
    have hkeep : ((Act.seq (.bump Reg.TXT.VCACHE_PAR 1) (txtRaise 4)).run b).rd Reg.TXT.VCACHE_PAR =
        ((Act.bump Reg.TXT.VCACHE_PAR 1).run b).rd Reg.TXT.VCACHE_PAR := rd_raise_off (by simp) (by simp)
    have hpend : ((Act.seq (.bump Reg.TXT.VCACHE_PAR 1) (txtRaise 4)).run b).pend .TXT 0 4 = true := bit_raise (rise_run _ hbr) (by decide) (by decide)
    rw [run_when, if_pos rfl]
    generalize (Act.seq (.bump Reg.TXT.VCACHE_PAR 1) (txtRaise 4)).run b = d at *
    exact ⟨hmissb.around rfl (hq.regs.rd_off (by simp [irqOf])), fun _ => ⟨hcount.around (hsb.rd_off (by simp)) hkeep, hpend⟩,
      fun h => by rw [hq.part (·.txt.vcache)]; exact b3 h, (hsb.mono (by simp)).trans (hq.regs.mono (by simp)), a3.trans (b2.trans hq.toSameRest)⟩

/-! ### Mask requests (R323, R329, R330) -/

theorem maskStart_effect {s : State} {q : MaskReq} (hrun : s.hw.txt.run = none) (hon : s.bit Reg.TXT.TXT_CTRL 0 = true)
    (hnext : nextMask s.hw.txt.queue = some q) :
    let t := maskStartAct.run s
    t.hw.txt.run = some { q with start := s.now, done := [] } ∧ t.hw.txt.queue = (s.hw.txt.queue.filter fun x => x.cmd != q.cmd) ∧
      t.regs = s.regs ∧ SameRest s t := by
  have hstart : maskStartAct.run s = (Act.cmd q.cmd fun c => { c with phase := .running, issued := some (c.issued.getD s.now) }).run
      ((Act.txt fun t => { t with queue := t.queue.filter fun x => x.cmd != q.cmd, run := some { q with start := s.now, done := [] } }).run s) := by
    rw [maskStartAct, run_get, hrun, hon, run_when, if_pos (by rfl), hnext]
    simp only [run_all_cons, run_all_nil]
  dsimp only
  rw [hstart]
  exact ⟨rfl, rfl, rfl, (rest_hw _ s).trans (rest_hw _ _)⟩

/-- The mask unit at work: memory, registers, and block state but the request being served. -/
def Scope.masking : Scope := { reg := fun _ => True, mem := True, poison := True, hw := fun f => ∀ h : Hw, (f h).txt.run = h.txt.run }

@[simp] theorem masking_reg (r : RegRef) : Scope.masking.reg r := trivial
@[simp] theorem masking_hw (f : Hw → Hw) : Scope.masking.hw f ↔ ∀ h : Hw, (f h).txt.run = h.txt.run := .rfl

theorem Act.Only.masking {a : Act} (h : a.Only .masking) (s : State) :
    (a.run s).hw.txt.run = s.hw.txt.run ∧ (a.run s).es = s.es ∧ (a.run s).tsc = s.tsc ∧ (a.run s).out = s.out :=
  ⟨h.hw (fun h => h.txt.run) (fun _ hf => hf) s, h.es (fun h => h) s, h.tsc (fun h => h) s, h.out (fun h => h) s⟩

theorem masking_guarded (cls a : Nat) (l : List Byte) : (Act.guarded cls a l).Only .masking := by
  have hr : (Act.raise .CMP 0 4).Only .masking := only_raise trivial trivial fun _ _ => rfl
  simp only [Act.guarded, only_get, only_ite, Act.c2Refuse, only_seq, only_bump, only_bytes, ringMove, only_when, only_hw]
  exact fun s => ⟨fun _ => ⟨trivial, hr⟩, fun _ => ⟨trivial, fun _ _ => rfl, fun _ _ => rfl⟩⟩

theorem masking_txtRaise (k : Nat) : (txtRaise k).Only .masking := only_raise trivial trivial fun _ _ => rfl

/-- The counts of a mask written. -/
def maskCounts (late dead err : Bool) (n : Nat) : Act := .all
  [.when late (.seq (.bump Reg.TXT.MASK_LATE 1) (txtRaise 2)), .when dead (.seq (.bump Reg.TXT.MASK_DEAD 1) (txtRaise 3)),
   .when err (.wrN Reg.TXT.LAST_ERR n)]

theorem writeMask_run (q : MaskReq) (i : Nat) (m : MaskOut) (pos : Nat) (s : State) : ∃ b1 a1 l1 b2 a2 l2 err n,
    (writeMask q i m pos).run s = (maskCounts (m.mode == 4) (decide (5 ≤ m.mode)) err n).run ((Act.bump Reg.TXT.MASK_CNT 1).run
      ((Act.guarded b2 a2 l2).run ((Act.guarded b1 a1 l1).run s))) := by
  simp only [writeMask, maskCounts, run_get, run_all_cons, run_all_nil]
  exact ⟨_, _, _, _, _, _, _, _, rfl⟩

theorem keeps_guarded {off : Nat} (ho : off < 4096) (cls a : Nat) (l : List Byte) :
    (Act.guarded cls a l).Keeps fun s => s.rd ⟨.TXT, 0, off⟩ := fun s _ =>
  (ending_guarded cls a l).ending_page (r := ⟨.TXT, 0, off⟩) (by
    show 0x60 < (0x65 * 4096 + off) / 4096 ∧ (0x65 * 4096 + off) / 4096 < 0x80
    omega) s

/-- A mask written: counted, a late one also as such. -/
theorem writeMask_effect {s : State} (hs : keysRise s.regs) (q : MaskReq) (i : Nat) (m : MaskOut) (pos : Nat) :
    let t := (writeMask q i m pos).run s
    Counts Reg.TXT.MASK_CNT 1 s t ∧ (m.mode = 4 → Counts Reg.TXT.MASK_LATE 1 s t) ∧ t.hw.txt.run = s.hw.txt.run ∧
      t.es = s.es ∧ t.tsc = s.tsc ∧ t.out = s.out := by
  have honly : (writeMask q i m pos).Only .masking :=
    (only_get _).2 fun _ => ⟨masking_guarded _ _ _, masking_guarded _ _ _, (only_bump _ _).2 trivial,
      (only_when _ _).2 fun _ => ⟨(only_bump _ _).2 trivial, masking_txtRaise 2⟩, (only_when _ _).2 fun _ => ⟨(only_bump _ _).2 trivial, masking_txtRaise 3⟩,
      (only_when _ _).2 fun _ => (only_wrN _ _).2 trivial, trivial⟩
  have hrest := honly.masking s
  obtain ⟨b1, a1, l1, b2, a2, l2, err, n, hrun⟩ := writeMask_run q i m pos s
  refine ⟨?_, fun hlate => ?_, hrest⟩ <;> rw [hrun]
  all_goals
    have hu : keysRise ((Act.guarded b2 a2 l2).run ((Act.guarded b1 a1 l1).run s)).regs := rise_run _ (rise_run _ hs)
    have hkeep {off : Nat} (ho : off < 4096) : ((Act.guarded b2 a2 l2).run ((Act.guarded b1 a1 l1).run s)).rd ⟨.TXT, 0, off⟩ = s.rd ⟨.TXT, 0, off⟩ :=
      (keeps_guarded ho b2 a2 l2 _ (rise_run _ hs)).trans (keeps_guarded ho b1 a1 l1 s hs)
    generalize (Act.guarded b2 a2 l2).run ((Act.guarded b1 a1 l1).run s) = u at *
  · have htail : (maskCounts (m.mode == 4) (decide (5 ≤ m.mode)) err n).Only (.but Reg.TXT.MASK_CNT) := by
      have hraise (k : Nat) : (txtRaise k).Only (.but Reg.TXT.MASK_CNT) :=
        only_raise (show _ ≠ _ by decide) (show _ ≠ _ by decide) fun _ => trivial
      refine ⟨(only_when _ _).2 fun _ => ⟨(only_bump _ _).2 (show _ ≠ _ by decide), hraise 2⟩,
        (only_when _ _).2 fun _ => ⟨(only_bump _ _).2 (show _ ≠ _ by decide), hraise 3⟩,
        (only_when _ _).2 fun _ => (only_wrN _ _).2 (show _ ≠ _ by decide), trivial⟩
    exact (counts_bump hu mask_txt.2.2.1 1).around (hkeep (off := 0x078) (by decide)) (htail.keeps_rd _ (rise_run _ hu))
  · let tail : Act := .all [txtRaise 2, .when (decide (5 ≤ m.mode)) (.seq (.bump Reg.TXT.MASK_DEAD 1) (txtRaise 3)), .when err (.wrN Reg.TXT.LAST_ERR n)]
    have htail : tail.Only (.but Reg.TXT.MASK_LATE) := by
      have hraise (k : Nat) : (txtRaise k).Only (.but Reg.TXT.MASK_LATE) :=
        only_raise (show _ ≠ _ by decide) (show _ ≠ _ by decide) fun _ => trivial
      exact ⟨hraise 2, (only_when _ _).2 fun _ => ⟨(only_bump _ _).2 (show _ ≠ _ by decide), hraise 3⟩,
        (only_when _ _).2 fun _ => (only_wrN _ _).2 (show _ ≠ _ by decide), trivial⟩
    have hcnt : ((Act.bump Reg.TXT.MASK_CNT 1).run u).rd Reg.TXT.MASK_LATE = u.rd Reg.TXT.MASK_LATE :=
      (show (Act.bump Reg.TXT.MASK_CNT 1).Only (.but Reg.TXT.MASK_LATE) from (only_bump _ _).2 (show _ ≠ _ by decide)).keeps_rd u hu
    have hv : keysRise ((Act.bump Reg.TXT.MASK_CNT 1).run u).regs := rise_run _ hu
    generalize (Act.bump Reg.TXT.MASK_CNT 1).run u = v at *
    have hsplit : (maskCounts (m.mode == 4) (decide (5 ≤ m.mode)) err n).run v = tail.run ((Act.bump Reg.TXT.MASK_LATE 1).run v) := by
      rw [maskCounts, run_all_cons, run_when, if_pos (by rw [hlate]; rfl), run_seq]
      simp only [tail, run_all_cons]
    rw [hsplit]
    exact (counts_bump hv mask_txt.2.2.2.1 1).around (hcnt.trans (hkeep (off := 0x07C) (by decide))) (htail.keeps_rd _ (rise_run _ hv))

/-- A record that an entry leaves is written. -/
def recordPut (cls a : Nat) (r : Option CRec) : Act := match r with
  | some r => .guarded cls a r.toBytes
  | none => .nil

theorem masking_recordPut (cls a : Nat) (r : Option CRec) : (recordPut cls a r).Only .masking := by
  cases r with
  | none => trivial
  | some r => exact masking_guarded _ _ _

theorem keeps_recordPut {off : Nat} (ho : off < 4096) (cls a : Nat) (r : Option CRec) :
    (recordPut cls a r).Keeps fun s => s.rd ⟨.TXT, 0, off⟩ := by
  cases r with
  | none => exact fun _ _ => rfl
  | some r => exact keeps_guarded ho _ _ _

/-- What a lane does with an entry: the record, the mask, the count of slow ones. -/
def maskWork (s : State) (q : MaskReq) (i : Nat) : Act := .all
  [recordPut q.cls (s.crecAddr (s.maskEnt q i).seq) (s.maskEntry q i).record,
   if (s.maskEnt q i).noMask then .when ((s.maskEntry q i).mask.reason != 0)
     (.wrN Reg.TXT.LAST_ERR ((s.maskEnt q i).seq + 65536 * (s.maskEntry q i).mask.reason))
   else writeMask q i (s.maskEntry q i).mask (s.maskEntry q i).pos,
   .when (s.maskEntry q i).slow (.bump Reg.TXT.MASK_SLOW 1)]

theorem maskEntry_run {s : State} {q : MaskReq} {i : Nat} (hrun : s.hw.txt.run = some q)
    (hready : (decide (i < q.count) && !(q.done.any fun x => x.1 == i) && (decide (i < 32) || q.done.any fun x => x.1 == i - 32)) = true) :
    (maskEntryAct i).run s = maskEndCheck.run ((maskDone i (s.maskEntry q i).mask.reason).run ((maskWork s q i).run s)) := by
  rw [maskEntryAct, run_get, hrun]
  dsimp only
  rw [run_when, if_pos hready]
  simp only [maskWork, run_all_cons, run_all_nil]
  rfl

theorem maskWork_effect {s : State} (hs : keysRise s.regs) (s0 : State) (q : MaskReq) (i : Nat) :
    let t := (maskWork s0 q i).run s
    ((s0.maskEnt q i).noMask = false → Counts Reg.TXT.MASK_CNT 1 s t) ∧ t.hw.txt.run = s.hw.txt.run ∧ t.es = s.es ∧ t.tsc = s.tsc ∧ t.out = s.out := by
  have honly : (maskWork s0 q i).Only .masking := by
    refine ⟨masking_recordPut _ _ _, (only_ite _ _ _).2 ⟨fun _ => (only_when _ _).2 fun _ => (only_wrN _ _).2 trivial, fun _ => ?_⟩,
      (only_when _ _).2 fun _ => (only_bump _ _).2 trivial, trivial⟩
    exact (only_get _).2 fun _ => ⟨masking_guarded _ _ _, masking_guarded _ _ _, (only_bump _ _).2 trivial,
      (only_when _ _).2 fun _ => ⟨(only_bump _ _).2 trivial, masking_txtRaise 2⟩, (only_when _ _).2 fun _ => ⟨(only_bump _ _).2 trivial, masking_txtRaise 3⟩,
      (only_when _ _).2 fun _ => (only_wrN _ _).2 trivial, trivial⟩
  refine ⟨fun hmask => ?_, honly.masking s⟩
  rw [maskWork, if_neg (by rw [hmask]; exact Bool.false_ne_true), run_all_cons, run_all_cons, run_all_cons, run_all_nil]
  have hrec := keeps_recordPut (off := 0x078) (by decide) q.cls (s0.crecAddr (s0.maskEnt q i).seq) (s0.maskEntry q i).record s hs
  have hu : keysRise ((recordPut q.cls (s0.crecAddr (s0.maskEnt q i).seq) (s0.maskEntry q i).record).run s).regs := rise_run _ hs
  generalize (recordPut q.cls (s0.crecAddr (s0.maskEnt q i).seq) (s0.maskEntry q i).record).run s = u at *
  obtain ⟨h1, -⟩ := writeMask_effect hu q i (s0.maskEntry q i).mask (s0.maskEntry q i).pos
  have hv : keysRise ((writeMask q i (s0.maskEntry q i).mask (s0.maskEntry q i).pos).run u).regs := rise_run _ hu
  generalize (writeMask q i (s0.maskEntry q i).mask (s0.maskEntry q i).pos).run u = v at *
  have hslow : (Act.when (s0.maskEntry q i).slow (.bump Reg.TXT.MASK_SLOW 1)).Only (.but Reg.TXT.MASK_CNT) :=
    (only_when _ _).2 fun _ => (only_bump _ _).2 (show _ ≠ _ by decide)
  exact h1.around hrec (hslow.keeps_rd v hv)

theorem maskEntry_effect {s : State} (hs : keysRise s.regs) {q : MaskReq} {i : Nat} (hrun : s.hw.txt.run = some q) (hi : i < q.count)
    (hnew : ∀ x ∈ q.done, x.1 ≠ i) (hlane : 32 ≤ i → (i - 32) ∈ q.done.map (·.1)) (hmore : q.done.length + 1 < q.count) :
    let t := (maskEntryAct i).run s
    t.hw.txt.run = some { q with done := q.done ++ [(i, (s.maskEntry q i).mask.reason)] } ∧
      ((s.maskEnt q i).noMask = false → Counts Reg.TXT.MASK_CNT 1 s t) ∧ t.es = s.es ∧ t.tsc = s.tsc ∧ t.out = s.out := by
  have hready : (decide (i < q.count) && !(q.done.any fun x => x.1 == i) && (decide (i < 32) || q.done.any fun x => x.1 == i - 32)) = true := by
    have hnone : (q.done.any fun x => x.1 == i) = false := by simpa using hnew
    rw [hnone, decide_eq_true hi]
    by_cases h32 : i < 32
    · simp [h32]
    · obtain ⟨x, hx, hxi⟩ := List.mem_map.1 (hlane (by omega))
      have hany : (q.done.any fun x => x.1 == i - 32) = true := List.any_eq_true.2 ⟨x, hx, by simp [hxi]⟩
      rw [hany, Bool.or_true]
      rfl
  obtain ⟨h1, h2, h3⟩ := maskWork_effect hs s q i
  dsimp only
  rw [maskEntry_run hrun hready]
  generalize (s.maskEntry q i).mask.reason = r
  generalize (maskWork s q i).run s = u at *
  have hdone : ((maskDone i r).run u).hw.txt.run = some { q with done := q.done ++ [(i, r)] } := by
    show u.hw.txt.run.map _ = _
    rw [h2, hrun]
    rfl
  have hend : maskEndCheck.run ((maskDone i r).run u) = (maskDone i r).run u := by
    rw [maskEndCheck, run_get, hdone]
    dsimp only
    rw [run_when, if_neg]
    rw [beq_iff_eq, List.length_append, List.length_singleton]
    omega
  rw [hend]
  exact ⟨hdone, h1, h3⟩

/-! ### MASK_LIMIT (R329, R332) -/

/-- A program that writes the mask of entry `i` late and marks it done. -/
structure LateEntry (a : Act) (i : Nat) (s : State) : Prop where
  run : ∀ r, s.hw.txt.run = some r → (a.run s).hw.txt.run = some { r with done := r.done ++ [(i, 0)] }
  count : Counts Reg.TXT.MASK_CNT 1 s (a.run s)
  late : Counts Reg.TXT.MASK_LATE 1 s (a.run s)
  es : (a.run s).es = s.es
  tsc : (a.run s).tsc = s.tsc
  out : (a.run s).out = s.out

theorem lateEntries_effect {f : Nat → Act} (hf : ∀ i, ∀ s : State, keysRise s.regs → LateEntry (f i) i s) (l : List Nat) {s : State}
    (hs : keysRise s.regs) {r : MaskReq} (hr : s.hw.txt.run = some r) :
    let t := (Act.each l f).run s
    t.hw.txt.run = some { r with done := r.done ++ l.map fun i => (i, 0) } ∧ Counts Reg.TXT.MASK_CNT l.length s t ∧
      Counts Reg.TXT.MASK_LATE l.length s t ∧ t.es = s.es ∧ t.tsc = s.tsc ∧ t.out = s.out := by
  induction l generalizing s r with
  | nil => exact ⟨by rw [List.map_nil, List.append_nil]; exact hr, fun _ => rfl, fun _ => rfl, rfl, rfl, rfl⟩
  | cons i l ih =>
    have hrun : (Act.each (i :: l) f).run s = (Act.each l f).run ((f i).run s) := rfl
    obtain ⟨h1, h2, h3, h4, h5, h6⟩ := hf i s hs
    have hu : keysRise ((f i).run s).regs := rise_run _ hs
    have hr' := h1 r hr
    dsimp only
    rw [hrun]
    generalize (f i).run s = u at *
    obtain ⟨k1, k2, k3, k4, k5, k6⟩ := ih hu hr'
    refine ⟨by rw [k1]; simp, ?_, ?_, k4.trans h4, k5.trans h5, k6.trans h6⟩
    · rw [List.length_cons, Nat.add_comm]; exact h2.add k2
    · rw [List.length_cons, Nat.add_comm]; exact h3.add k3

/-- Entry `i` written late; whether the record's update is finished is open. -/
def lateEntry (s : State) (q : MaskReq) (k i : Nat) : Act := .get fun t => .all
  [.when (!((List.range q.count).any fun j => decide (j < i) && j % 32 == i % 32 && !(q.done.any fun x => x.1 == j)) && (Config.freeValue k i).getLsbD 0)
     (recordPut q.cls (s.crecAddr (s.maskEnt q i).seq) (s.maskEntry q i).record),
   writeMask q i { mode := 4, reason := 0 } (t.crec (s.maskEnt q i).seq).pos, maskDone i 0]

theorem lateEntry_late (s0 : State) (q : MaskReq) (k i : Nat) (s : State) (hs : keysRise s.regs) : LateEntry (lateEntry s0 q k i) i s := by
  have hrun : ∃ b pos, (lateEntry s0 q k i).run s = (maskDone i 0).run ((writeMask q i { mode := 4, reason := 0 } pos).run
      ((Act.when b (recordPut q.cls (s0.crecAddr (s0.maskEnt q i).seq) (s0.maskEntry q i).record)).run s)) := by
    simp only [lateEntry, run_get, run_all_cons, run_all_nil]
    exact ⟨_, _, rfl⟩
  obtain ⟨b, pos, hrun⟩ := hrun
  let rec_ : Act := .when b (recordPut q.cls (s0.crecAddr (s0.maskEnt q i).seq) (s0.maskEntry q i).record)
  have hcnt : (rec_.run s).rd Reg.TXT.MASK_CNT = s.rd Reg.TXT.MASK_CNT :=
    Act.Keeps.when (fun _ => keeps_recordPut (off := 0x078) (by decide) _ _ _) s hs
  have hlate : (rec_.run s).rd Reg.TXT.MASK_LATE = s.rd Reg.TXT.MASK_LATE :=
    Act.Keeps.when (fun _ => keeps_recordPut (off := 0x07C) (by decide) _ _ _) s hs
  obtain ⟨e1, e2, e3, e4⟩ := Act.Only.masking (a := rec_) ((only_when _ _).2 fun _ => masking_recordPut _ _ _) s
  have hu : keysRise (rec_.run s).regs := rise_run _ hs
  rw [show (Act.when b (recordPut q.cls (s0.crecAddr (s0.maskEnt q i).seq) (s0.maskEntry q i).record)).run s = rec_.run s from rfl] at hrun
  generalize rec_.run s = u at *
  obtain ⟨h1, h2, h3, h4, h5, h6⟩ := writeMask_effect hu q i { mode := 4, reason := 0 } pos
  have h2' := h2 rfl
  generalize (writeMask q i { mode := 4, reason := 0 } pos).run u = v at *
  exact {
    run := fun r hr => by
      rw [hrun]
      show v.hw.txt.run.map _ = _
      rw [h3, e1, hr]
      rfl
    count := by rw [hrun]; exact h1.around hcnt rfl
    late := by rw [hrun]; exact h2'.around hlate rfl
    es := by rw [hrun]; exact h4.trans e2
    tsc := by rw [hrun]; exact h5.trans e3
    out := by rw [hrun]; exact h6.trans e4 }

theorem maskLimit_run {s : State} {q : MaskReq} (hrun : s.hw.txt.run = some q)
    (htime : q.start + (s.rd Reg.TXT.MASK_LIMIT).toNat * 1000 ≤ s.now) (hdone : q.done = [])
    (hmask : ∀ i < q.count, (s.maskEnt q i).noMask = false) :
    maskLimitAct.run s = maskEndCheck.run ((Act.each (List.range q.count) (lateEntry s q s.freeCtr)).run s.useFree) := by
  have hopen : ((List.range q.count).filter fun i => !(q.done.any fun x => x.1 == i) && !(s.maskEnt q i).noMask) = List.range q.count :=
    List.filter_eq_self.2 fun i hi => by rw [hdone, hmask i (List.mem_range.1 hi)]; rfl
  rw [maskLimitAct, run_get, hrun]
  dsimp only
  rw [run_when, if_pos (decide_eq_true htime), hopen]
  rfl

theorem maskLimit_effect {s : State} (hs : keysRise s.regs) {q : MaskReq} (hrun : s.hw.txt.run = some q)
    (htime : q.start + (s.rd Reg.TXT.MASK_LIMIT).toNat * 1000 ≤ s.now) (hdone : q.done = [])
    (hmask : ∀ i < q.count, (s.maskEnt q i).noMask = false) :
    let t := maskLimitAct.run s
    t.hw.txt.run = none ∧ Counts Reg.TXT.MASK_LATE q.count s t ∧ Counts Reg.TXT.MASK_CNT q.count s t ∧ t.es = s.es ∧ t.tsc = s.tsc ∧
      t.out = s.out := by
  obtain ⟨h1, h2, h3, h4, h5, h6⟩ := lateEntries_effect (fun i s => lateEntry_late _ q _ i s) (List.range q.count) (s := s.useFree) hs hrun
  have hu : keysRise ((Act.each (List.range q.count) (lateEntry s q s.freeCtr)).run s.useFree).regs := rise_run _ (s := s.useFree) hs
  dsimp only
  rw [maskLimit_run hrun htime hdone hmask]
  generalize (Act.each (List.range q.count) (lateEntry s q s.freeCtr)).run s.useFree = u at *
  rw [List.length_range] at h2 h3
  let fin : Act := .all [.maxReg Reg.TXT.MASK_TIME_MAX (u.now - q.start), .txt fun t => { t with run := none },
    .cmd q.cmd fun c => { c with arrived := true, reasons := ((q.done ++ (List.range q.count).map fun i => (i, 0)).filter fun x => x.2 != 0) }]
  have hend : maskEndCheck.run u = fin.run u := by
    rw [maskEndCheck, run_get, h1]
    dsimp only
    rw [run_when, if_pos (by simp [hdone])]
  rw [hend]
  have hkeep {r : RegRef} (h : Reg.TXT.MASK_TIME_MAX.key ≠ r.key) : (fin.run u).rd r = u.rd r :=
    Act.Only.keeps_rd (a := fin) ⟨only_maxReg _ h, trivial, trivial, trivial⟩ u hu
  have hrest : fin.Only .inside := ⟨only_maxReg _ trivial, trivial, trivial, trivial⟩
  have hsame := hrest.inside u
  exact ⟨rfl, h3.around rfl (hkeep (by decide)), h2.around rfl (hkeep (by decide)), hsame.es.trans h4, hsame.tsc.trans h5, hsame.out.trans h6⟩

/-- A word whose bits of a field are those of another has that field. -/
theorem bits_congr {n : Nat} {v w : BitVec n} {hi lo : Nat} (h : ∀ i, lo ≤ i → v.getLsbD i = w.getLsbD i) : bits v hi lo = bits w hi lo := by
  apply Nat.eq_of_testBit_eq
  intro i
  rw [testBit_bits, testBit_bits, h _ (Nat.le_add_right _ _)]

/-- The slot of CSET_CMD beside LOAD. -/
theorem slot_load (v : Word) : bits (v ||| 1) 11 8 = bits v 11 8 :=
  bits_congr fun i hi => by
    rw [BitVec.getLsbD_or, show (1 : Word) = BitVec.ofNat 32 (2 ^ 0) from rfl, getLsbD_ofNat_two_pow]
    rw [show decide (0 = i) = false from decide_eq_false (by omega)]
    simp

/-- The slot of CSET_CMD beside UNLOAD. -/
theorem slot_unload (v : Word) : bits ((v ||| 2) &&& ~~~ 1) 11 8 = bits v 11 8 := by
  have h : bits ((v ||| 2) &&& ~~~ (1 : Word)) 11 8 = bits (v ||| 2) 11 8 := bits_and_mask _ _ (by decide)
  refine h.trans (bits_congr fun i hi => ?_)
  rw [BitVec.getLsbD_or, show (2 : Word) = BitVec.ofNat 32 (2 ^ 1) from rfl, getLsbD_ofNat_two_pow]
  rw [show decide (1 = i) = false from decide_eq_false (by omega)]
  simp

/-- Settles O38: the text unit. -/
theorem textUnit : Obligations.TextUnit := by
  unfold Obligations.TextUnit
  have hload (v : Word) : (v ||| 1).getLsbD 0 = true := by simp
  have hload1 (v : Word) : (v ||| 1).getLsbD 1 = v.getLsbD 1 := by
    rw [BitVec.getLsbD_or, show (1 : Word).getLsbD 1 = false from rfl, Bool.or_false]
  have hunload0 (v : Word) : ((v ||| 2) &&& ~~~ 1).getLsbD 0 = false := by simp
  have hunload1 (v : Word) : ((v ||| 2) &&& ~~~ 1).getLsbD 1 = true := by
    rw [BitVec.getLsbD_and, BitVec.getLsbD_or]
    rw [show (2 : Word).getLsbD 1 = true from rfl, show (~~~ (1 : Word)).getLsbD 1 = true from rfl, Bool.or_true, Bool.and_true]
  refine ⟨fun s v hl hbusy => ⟨fun hacc h1 => ⟨fun hok => ⟨_, command_eq hl.2, vocabLoad_effect hl hacc (hload v) ((hload1 v).trans h1) hok⟩,
      fun hok => ⟨_, command_eq hl.2, vocabRefuse_effect hl hacc (hload v) ((hload1 v).trans h1) hok⟩⟩,
      fun hacc => ⟨_, command_eq hl.2, vocabUnload_effect hl hacc (hunload0 v) (hunload1 v) hbusy⟩⟩,
    fun s v hl => ⟨fun hacc => ⟨fun huse => ⟨_, command_eq hl.2, ?_⟩, fun hfree hok => ⟨_, command_eq hl.2, ?_⟩,
      fun hfree hok => ⟨_, command_eq hl.2, ?_⟩⟩, fun hacc hfree => ⟨_, command_eq hl.2, ?_⟩⟩,
    fun s k hl hrun hlater hk => ⟨_, command_eq hl.2, csetDeferred_effect hl.1.1.1 hk hrun hlater⟩,
    fun s line byMask parity hl => ⟨_, simply_eq hl.2, vcacheFill_effect hl.1.1.1 _ byMask parity⟩,
    fun s q hl hrun hon hnext => ⟨_, command_eq hl.2, maskStart_effect hrun hon hnext⟩,
    fun s q i hl hrun hi hnew hlane hmore => ⟨_, command_eq hl.2, maskEntry_effect hl.1.1.1 hrun hi hnew hlane hmore⟩,
    fun s q hl hrun => ⟨fun htime hdone hmask => ⟨_, command_eq hl.2, maskLimit_effect hl.1.1.1 hrun htime hdone hmask⟩, fun htime => ?_⟩⟩
  · have h := csetCmd_later hl hacc (hload v) (by rw [slot_load]; exact huse)
    rw [slot_load] at h
    exact h
  · have h := csetCmd_loads hl hacc (hload v) (by rw [slot_load]; exact hfree) hok
    rw [slot_load] at h
    exact h
  · have h := csetCmd_refuses hl hacc (hload v) (by rw [slot_load]; exact hfree) hok
    rw [slot_load] at h
    exact h
  · have h := csetCmd_unloads hl hacc (hunload0 v) (hunload1 v) (by rw [slot_unload]; exact hfree)
    rw [slot_unload] at h
    exact h
  · refine (command_eq hl.2).trans (congrArg (fun t : State => Host.Outcome.next t.settled) ?_)
    rw [maskLimitAct, run_get, hrun]
    dsimp only
    rw [run_when, if_neg]
    rw [decide_eq_true_eq]
    omega

end Sys2Proof.Machine

/-! ## Proofs: the item monitor (08_item_to_decision) -/

namespace Sys2Proof.Machine

-- One theorem after the other: elaborated side by side, they hold more threads than the memory limit of a check allows.
set_option Elab.async false

/-! ### Scopes -/

/-- What a decision may change: what the end of a command may, the monitor, the link ports, what leaves the block. -/
def Scope.deciding : Scope := { reg := endReg, mem := True, poison := True, out := True }

theorem Act.Only.deciding {a : Act} (h : a.Only .ending) : a.Only .deciding :=
  h.weaken (fun _ h => h) (fun _ _ => trivial) (mem := fun h => h) (poison := fun h => h) (out := fun h => h.elim)

/-- The dispatcher page's interrupt registers are none of those. -/
theorem endReg_ne {q r : RegRef} (hq : endReg q) (hr : r.key / 4096 = Reg.DISP.QUAR_CNT.key / 4096) (hl : r.key ≠ Reg.DISP.LAST_ERR.key) : q.key ≠ r.key := by
  intro hk
  rw [← hk] at hr hl
  rcases hq with hq | ⟨h1, h2 | h2⟩ | ⟨h1, h2, h3⟩
  · simp only [List.mem_cons, List.not_mem_nil, or_false] at hq
    rcases hq with rfl | rfl | rfl | rfl
    · exact absurd hr (by decide)
    · exact absurd hr (by decide)
    · exact absurd hr (by decide)
    · exact hl rfl
  · rw [RegRef.key, h1, h2] at hr
    simp only [Blk.slot, RegRef.key] at hr
    omega
  · rw [RegRef.key, h1, h2] at hr
    simp only [Blk.slot, RegRef.key] at hr
    omega
  · rw [RegRef.key, h1, h2] at hr
    simp only [Blk.slot, RegRef.key] at hr
    omega

/-- A pending source of the dispatcher's page stays pending under a decision. -/
theorem Act.Only.deciding_pend {a : Act} (h : a.Only .deciding) (s : State) (k : Nat) : (a.run s).pend .DISP 0 k = s.pend .DISP 0 k :=
  congrArg (BitVec.getLsbD · k) (h.rd (fun h => h) (fun _ hq => endReg_ne hq (by decide) (by decide)) s)

/-- Raising a source of the dispatcher: nothing of the monitor, and no store. -/
def Scope.told : Scope := { reg := (· ∈ irqOf .DISP 0), hw := fun f => ∀ h, (f h).disp = h.disp }

theorem told_dispRaise (k : Nat) : (dispRaise k).Only .told := only_raise (by simp [Scope.told, irqOf]) (by simp [Scope.told, irqOf]) fun _ _ => rfl

theorem dispRaise_disp (k : Nat) (s : State) : ((dispRaise k).run s).hw.disp = s.hw.disp :=
  (told_dispRaise k).hw (·.disp) (fun _ hf => hf) s

theorem dispRaise_pend {s : State} (hs : keysRise s.regs) {k : Nat} (hk : k < 28) : ((dispRaise k).run s).pend .DISP 0 k = true :=
  bit_raise hs (by decide) (by revert hk k; decide)

/-! ### Followed items -/

theorem withItem_run {s : State} {id : BitVec 48} {x : MonItem} (h : s.monItem id = some x) (k : MonItem → Act) :
    (Act.withItem id k).run s = (k x).run s := by
  rw [Act.withItem, run_get, h]

theorem monItem_id {s : State} {id : BitVec 48} {x : MonItem} (h : s.monItem id = some x) : x.id = id := by
  simpa using List.find?_some h

theorem only_withItem {p : Scope} {id : BitVec 48} {k : MonItem → Act} (h : ∀ x, (k x).Only p) : (Act.withItem id k).Only p := by
  refine (only_get _).2 fun s => ?_
  split
  · exact h _
  · trivial

/-- The first item of an identifier after a change of the items of that identifier. -/
theorem find?_map_id (l : List MonItem) (id : BitVec 48) (f : MonItem → MonItem) (hf : ∀ x, (f x).id = x.id) :
    (l.map fun x => if x.id = id then f x else x).find? (fun x => x.id == id) = (l.find? fun x => x.id == id).map f := by
  induction l with
  | nil => rfl
  | cons x l ih =>
    rw [List.map_cons, List.find?_cons, List.find?_cons]
    by_cases h : x.id = id
    · simp [h, hf]
    · rw [if_neg h, show (x.id == id) = false by simp [h]]
      exact ih

theorem monItem_mon {id : BitVec 48} {f : MonItem → MonItem} (hf : ∀ x, (f x).id = x.id) (s : State) :
    ((Act.mon id f).run s).monItem id = (s.monItem id).map f := find?_map_id _ _ _ hf

theorem monItem_congr {s t : State} (h : t.hw.disp.items = s.hw.disp.items) (id : BitVec 48) : t.monItem id = s.monItem id := by
  rw [State.monItem, State.monItem, h]

/-- The end of a command leaves the monitor as it is. -/
theorem Act.Only.ending_items {a : Act} (h : a.Only .ending) (s : State) : (a.run s).hw.disp.items = s.hw.disp.items :=
  h.ending_part (·.disp.items) (fun _ => rfl) s

theorem Act.Only.ending_decided {a : Act} (h : a.Only .ending) (s : State) : (a.run s).hw.disp.decided = s.hw.disp.decided :=
  h.ending_part (·.disp.decided) (fun _ => rfl) s

/-! ### Decisions -/

theorem ending_monAbortCmd (cid : Nat) : (monAbortCmd cid).Only .ending :=
  only_withCmd fun _ _ _ => (only_get _).2 fun _ => ⟨(only_each _ _).2 fun _ _ => ending_cmd _ _, ending_endRequest _ _ _ _ _ _⟩

theorem ending_abortItem (id : BitVec 48) (pick : Cmd → Bool) : (abortItem id pick).Only .ending :=
  (only_get _).2 fun _ => (only_each _ _).2 fun _ _ => ending_monAbortCmd _

theorem ending_settle (id : Nat) : (settle id).Only .ending := by
  refine only_withCmd fun _ _ _ => (only_get _).2 fun _ => (only_when _ _).2 fun _ => ⟨ending_accrue, ?_, ending_cmd _ _, trivial⟩
  refine (only_get _).2 fun s => (only_when _ _).2 fun _ => ?_
  split
  · trivial
  · exact ending_ctx _ _

theorem deciding_disp (f : DispSt → DispSt) : (Act.disp f).Only .deciding := trivial

theorem deciding_emitRecord (x : MonItem) (r : DecisionRecord) (flags : BitVec 16) (ceu : Bool) : (emitRecord x r flags ceu).Only .deciding :=
  (only_get _).2 fun _ => ⟨(ending_guarded _ _ _).deciding, deciding_disp _, (only_when _ _).2 fun _ => trivial, trivial⟩

theorem deciding_decide (x : MonItem) : (decide_ x).Only .deciding :=
  (only_get _).2 fun _ => ⟨deciding_disp _, (only_each _ _).2 fun _ _ => (ending_monAbortCmd _).deciding, trivial⟩

theorem deciding_sendOut (o : Out) : (sendOut o).Only .deciding := by
  refine (only_get _).2 fun s => ?_
  split
  · exact (only_when _ _).2 fun _ => ⟨trivial, trivial⟩
  · trivial

theorem deciding_decision (x : MonItem) (r : DecisionRecord) (flags : BitVec 16) : (decision x r flags).Only .deciding :=
  (only_get _).2 fun _ => (only_when _ _).2 fun _ => (only_ite _ _ _).2
    ⟨fun _ => ⟨deciding_emitRecord _ _ _ _, deciding_sendOut _, deciding_decide _, trivial⟩, fun _ => ⟨deciding_emitRecord _ _ _ _, deciding_decide _⟩⟩

theorem deciding_reject (id : BitVec 48) (reason : Nat) (lost : Option Nat) : (reject id reason lost).Only .deciding :=
  only_withItem fun _ => (only_get _).2 fun _ => ⟨trivial, fun _ => deciding_decision _ _ _⟩

/-- What is kept of a decided item. -/
def decidedOf (x : MonItem) : DecidedItem :=
  { id := x.id, prof := x.prof, stamp := x.stamp, cls := x.cls, cands := (x.cands.map (·.1)).foldl (fun m d => m ||| 2 ^ d) 0 }

/-- A decided item is followed no longer. -/
theorem decide_effect (x : MonItem) (s : State) :
    ((decide_ x).run s).monItem x.id = none ∧ ∃ d ∈ ((decide_ x).run s).hw.disp.decided, d.id = x.id := by
  let abort : Act := .each ((s.itemCmds x.id).filter Cmd.isParked) fun c => monAbortCmd c.id
  have ha : abort.Only .ending := (only_each _ _).2 fun _ _ => ending_monAbortCmd _
  refine ⟨(monItem_congr (ha.ending_items _) _).trans ?_, ⟨decidedOf x, ?_, rfl⟩⟩
  · refine List.find?_eq_none.2 fun y hy h => ?_
    have h1 := (List.mem_filter.1 hy).2
    simp_all
  · show _ ∈ (abort.run _).hw.disp.decided
    rw [ha.ending_decided]
    exact List.mem_append_right _ (List.mem_singleton.2 rfl)

/-- A decision that may be taken ends with that. -/
theorem decision_run {s : State} (hf : s.hw.boot.frozen = false) (x : MonItem) (r : DecisionRecord) (flags : BitVec 16) :
    ∃ u, (decision x r flags).run s = (decide_ x).run u := by
  rw [decision, run_get, run_when, if_pos (by rw [hf]; rfl)]
  split
  · exact ⟨_, rfl⟩
  · exact ⟨_, rfl⟩

theorem reject_effect {s : State} {id : BitVec 48} {x : MonItem} (hx : s.monItem id = some x) (hf : s.hw.boot.frozen = false) (reason : Nat) :
    ((reject id reason).run s).monItem id = none ∧ ∃ d ∈ ((reject id reason).run s).hw.disp.decided, d.id = id := by
  have hrun : ∃ r, (reject id reason).run s = (decision x r 0).run s.useFree := by
    rw [reject, withItem_run hx]
    exact ⟨_, rfl⟩
  obtain ⟨r, hr⟩ := hrun
  obtain ⟨u, hu⟩ := decision_run (s := s.useFree) hf x r 0
  rw [hr, hu, ← monItem_id hx]
  exact decide_effect x u

/-! ### The switch to the fallback (R344) and the deadline (R352) -/

/-- What of the switch comes after the item has been marked. -/
def switchRest (id : BitVec 48) (fb : Nat) : Act := .all
  [abortItem id fun c => !c.parked && decide (fb ≤ Desc.stage c.desc),
   .disp fun d => { d with removed := d.removed.filter (fun r => r.1 != id) ++ [(id, [])] }]

/-- The parked commands of the item go on; without any it is rejected. -/
def switchParked (id : BitVec 48) (parked : List Cmd) : Act :=
  if parked.isEmpty then reject id 8
  else .each parked fun c => .seq (.cmd c.id fun y => { y with released := true }) (settle c.id)

theorem switchItem_run {s : State} {id : BitVec 48} {x : MonItem} (hx : s.monItem id = some x) :
    (switchItem id).run s = (switchParked id ((s.itemCmds id).filter Cmd.isParked)).run ((dispRaise 24).run
      ((switchRest id (s.profFb x.prof)).run ((Act.mon id fun y => { y with fallback := true }).run s))) := by
  rw [switchItem, withItem_run hx]
  rfl

theorem ending_switchRest (id : BitVec 48) (fb : Nat) : (switchRest id fb).Only .ending :=
  ⟨ending_abortItem _ _, ending_disp fun _ => rfl, trivial⟩

theorem ending_releaseParked (l : List Cmd) : (Act.each l fun c => .seq (.cmd c.id fun y => { y with released := true }) (settle c.id)).Only .ending :=
  (only_each _ _).2 fun _ _ => ⟨ending_cmd _ _, ending_settle _⟩

theorem deciding_switchParked (id : BitVec 48) (l : List Cmd) : (switchParked id l).Only .deciding :=
  (only_ite _ _ _).2 ⟨fun _ => deciding_reject _ _ _, fun _ => (ending_releaseParked l).deciding⟩

theorem switchItem_effect {s : State} (hs : keysRise s.regs) {id : BitVec 48} {x : MonItem} (hx : s.monItem id = some x) :
    let t := (switchItem id).run s
    t.pend .DISP 0 24 = true ∧ t.es = s.es ∧ t.tsc = s.tsc ∧
      ((s.itemCmds id).filter Cmd.isParked ≠ [] → (t.monItem id).map (·.fallback) = some true) := by
  let mark : Act := .mon id fun y => { y with fallback := true }
  have hrest := ending_switchRest id (s.profFb x.prof)
  have hlast := deciding_switchParked id ((s.itemCmds id).filter Cmd.isParked)
  have hmark : ((mark.run s).monItem id).map (·.fallback) = some true := by
    rw [monItem_mon (f := fun y => { y with fallback := true }) (fun _ => rfl), hx]
    rfl
  have hu : keysRise (mark.run s).regs := hs
  dsimp only
  rw [switchItem_run hx]
  refine ⟨?_, ?_, ?_, fun hp => ?_⟩
  · rw [hlast.deciding_pend]
    exact dispRaise_pend (rise_run _ hu) (by decide)
  · rw [hlast.es (fun h => h), (told_dispRaise 24).es (fun h => h), hrest.es (fun h => h)]
    rfl
  · rw [hlast.tsc (fun h => h), (told_dispRaise 24).tsc (fun h => h), hrest.tsc (fun h => h)]
    rfl
  · rw [switchParked, if_neg (by simpa using hp), monItem_congr ((ending_releaseParked _).ending_items _),
      monItem_congr (congrArg DispSt.items (dispRaise_disp 24 _)), monItem_congr (hrest.ending_items _)]
    exact hmark

/-- R344: the switch time of an item has come. -/
theorem tSw_run {s : State} {id : BitVec 48} {x : MonItem} (hx : s.monItem id = some x) {t0 : Nat} (ht : s.tSw x = some t0) :
    (tSwAct id).run s = (Act.when (decide (t0 ≤ s.now) && x.held.isNone && !(x.cands.any fun c => c.1 == s.devNum) && s.fbReady x)
      (switchItem id)).run s := by
  rw [tSwAct, withItem_run hx, run_get, ht]

theorem tEmit_effect {s : State} (hs : keysRise s.regs) {id : BitVec 48} {x : MonItem} (hx : s.monItem id = some x)
    (ht : s.tEmit x ≤ s.now) (hf : s.hw.boot.frozen = false) (hrole : s.profRole x.prof ≠ 1) :
    let t := (tEmitAct id).run s
    t.pend .DISP 0 25 = true ∧ t.monItem id = none ∧ (∃ d ∈ t.hw.disp.decided, d.id = id) ∧ t.es = s.es ∧ t.tsc = s.tsc := by
  have hrun : (tEmitAct id).run s = (abortItem id fun _ => true).run ((dispRaise 25).run ((reject id 1).run s)) := by
    rw [tEmitAct, withItem_run hx, run_get, run_when, if_pos (by rw [hf]; simpa using ht), if_neg (fun h => hrole h.1)]
    rfl
  have habort := ending_abortItem id fun _ => true
  have hrej := deciding_reject id 1 none
  obtain ⟨hnone, d, hd, hid⟩ := reject_effect hx hf 1
  have hd' := dispRaise_disp 25 ((reject id 1).run s)
  dsimp only
  rw [hrun]
  refine ⟨?_, ?_, ⟨d, ?_, hid⟩, ?_, ?_⟩
  · rw [habort.deciding.deciding_pend]
    exact dispRaise_pend (rise_run _ hs) (by decide)
  · rw [monItem_congr (habort.ending_items _), monItem_congr (congrArg DispSt.items hd')]
    exact hnone
  · rw [habort.ending_decided, hd']
    exact hd
  · rw [habort.es (fun h => h), (told_dispRaise 25).es (fun h => h), hrej.es (fun h => h)]
  · rw [habort.tsc (fun h => h), (told_dispRaise 25).tsc (fun h => h), hrej.tsc (fun h => h)]

/-! ### A held record (R350, R354 to R356) -/

theorem length_recBytes (r : DecisionRecord) : (recBytes r).length = 64 := by
  simp [recBytes, length_leBytes]

theorem length_toBytes (u : DUnit) : u.toBytes.length = 32 + u.payload.length := by
  simp [DUnit.toBytes, DUnit.head28, length_leBytes]
  omega

theorem length_decisionUnit (s : State) (x : MonItem) (r : DecisionRecord) (flags : BitVec 16) (fc : Nat) :
    (s.decisionUnit x r flags fc).toBytes.length = 96 := by
  rw [length_toBytes]
  have h : (s.decisionUnit x r flags fc).payload = recBytes r := by
    unfold State.decisionUnit
    dsimp only
    split <;> rfl
  rw [h, length_recBytes]

/-- A write of the device outside C2_REGION. -/
theorem guarded_run {s : State} (h : s.fld Reg.SAFE.C2_REGION 26 16 = 0) (cls a : Nat) (l : List Byte) :
    (Act.guarded cls a l).run s = (ringMove true a l.length).run ((Act.bytes a l).run s) := by
  have hc : s.inC2 a l.length = false := by simp [State.inC2, h]
  rw [Act.guarded, run_get, hc]
  rfl

/-- Traffic counters alone. -/
theorem only_ringMove {p : Scope} (w : Bool) (a n : Nat) (h : ∀ f : Hw → Hw, (∀ h, (f h).disp = h.disp) → p.hw f) : (ringMove w a n).Only p := by
  simp only [ringMove, only_seq, only_when, only_hw]
  exact ⟨fun _ => h _ fun _ => rfl, fun _ => h _ fun _ => rfl⟩

/-- What follows the bytes of a decision unit. -/
def emitRest (x : MonItem) (fc a : Nat) (e : Event) (b : Bool) : Act := .all
  [ringMove true a 96, .disp fun d => { d with ringNext := alPut 0 x.prof ((fc + 1) % 65536) d.ringNext }, .when b (.event e)]

theorem only_emitRest (x : MonItem) (fc a : Nat) (e : Event) (b : Bool) :
    (emitRest x fc a e b).Only { hw := fun f => ∀ h, (f h).disp.cmds = h.disp.cmds } :=
  ⟨only_ringMove _ _ _ fun _ hf h => congrArg DispSt.cmds (hf h), fun _ => rfl, (only_when _ _).2 fun _ _ => rfl, trivial⟩

theorem emitRecord_run {s : State} (hc2 : s.fld Reg.SAFE.C2_REGION 26 16 = 0) (x : MonItem) (r : DecisionRecord) (flags : BitVec 16) (ceu : Bool) :
    let n := alGet 0 x.prof s.hw.disp.ringNext
    ∃ rest : Act, rest.Only { hw := fun f => ∀ h, (f h).disp.cmds = h.disp.cmds } ∧ (emitRecord x r flags ceu).run s =
      rest.run ((Act.bytes (s.profRing x.prof + 96 * (n % 256)) (s.decisionUnit x (s.fillRec x r) flags n).toBytes).run s) := by
  dsimp only
  rw [emitRecord, run_get, run_all_cons, guarded_run hc2, length_decisionUnit]
  exact ⟨_, only_emitRest x _ _ _ _, rfl⟩

/-- R356: the decision unit stands in its slot. -/
theorem emitRecord_effect {s : State} (hm : keysRise s.mem) (hc2 : s.fld Reg.SAFE.C2_REGION 26 16 = 0) (x : MonItem) (r : DecisionRecord)
    (flags : BitVec 16) (ceu : Bool) :
    let n := alGet 0 x.prof s.hw.disp.ringNext
    let t := (emitRecord x r flags ceu).run s
    t.read (s.profRing x.prof + 96 * (n % 256)) 96 = (s.decisionUnit x (s.fillRec x r) flags n).toBytes ∧
      t.hw.disp.cmds = s.hw.disp.cmds ∧ t.regs = s.regs ∧ t.es = s.es ∧ t.tsc = s.tsc ∧ t.out = s.out := by
  obtain ⟨rest, hrest, hrun⟩ := emitRecord_run hc2 x r flags ceu
  have hlen := length_decisionUnit s x (s.fillRec x r) flags (alGet 0 x.prof s.hw.disp.ringNext)
  dsimp only
  rw [hrun]
  generalize (s.decisionUnit x (s.fillRec x r) flags (alGet 0 x.prof s.hw.disp.ringNext)).toBytes = l at *
  generalize s.profRing x.prof + 96 * (alGet 0 x.prof s.hw.disp.ringNext % 256) = a at *
  have hread := read_run_bytes hm a l
  rw [hlen] at hread
  have hb : (Act.bytes a l).Only { mem := True, hw := fun f => ∀ h, f h = h } := (only_bytes _ _).2 trivial
  have hsame : SameRest ((Act.bytes a l).run s) (rest.run ((Act.bytes a l).run s)) :=
    hrest.sameRest (fun h => h) (fun h => h) (fun h => h) (fun h => h) (fun h => h) _
  refine ⟨?_, (hrest.hw (·.disp.cmds) (fun _ hf => hf) _).trans (hb.hw (·.disp.cmds) (fun _ hf h => by rw [hf]) s),
    (hrest.regs_eq (fun _ h => h) (fun h => h) _).trans (hb.regs_eq (fun _ h => h) (fun h => h) s), hsame.es.trans (hb.es (fun h => h) s),
    hsame.tsc.trans (hb.tsc (fun h => h) s), hsame.out.trans (hb.out (fun h => h) s)⟩
  refine Eq.trans ?_ hread
  simp only [State.read, State.byte, hsame.mem]

theorem holdLast_effect {s : State} (hm : keysRise s.mem) {id : BitVec 48} {x : MonItem} (hx : s.monItem id = some x) {r : DecisionRecord}
    {fl : BitVec 16} (hheld : x.held = some (r, fl)) (ht : s.now ≤ s.tEmit x)
    (hover : (s.profPolicy x.prof).getLsbD 4 = false ∨ x.streams.all (·.2) = true) (hrole : s.profRole x.prof = 0)
    (hf : s.hw.boot.frozen = false) (hc2 : s.fld Reg.SAFE.C2_REGION 26 16 = 0) (hpark : (s.itemCmds x.id).filter Cmd.isParked = []) :
    let why := s.recReason x r fl
    let out := s.fillRec x { r with outcome := if why = 0 then 0 else 1, reason := BitVec.ofNat 8 why, chosenDev := BitVec.ofNat 8 s.devNum }
    let n := alGet 0 x.prof s.hw.disp.ringNext
    let t := (holdLastAct id).run s
    t.read (s.profRing x.prof + 96 * (n % 256)) 96 = (s.decisionUnit x out fl n).toBytes ∧ t.monItem id = none ∧
      t.regs = s.regs ∧ t.es = s.es ∧ t.tsc = s.tsc ∧ t.out = s.out := by
  let why := s.recReason x r fl
  let out : DecisionRecord := { r with outcome := if why = 0 then 0 else 1, reason := BitVec.ofNat 8 why, chosenDev := BitVec.ofNat 8 s.devNum }
  have hrun : (holdLastAct id).run s = (decide_ x).run ((emitRecord x out fl true).run s) := by
    have hh : s.holdOver x = true := by rcases hover with h | h <;> simp only [State.holdOver, h, Bool.not_false, Bool.true_or, Bool.or_true]
    rw [holdLastAct, acceptHeld, withItem_run hx, run_get, hheld]
    dsimp only
    rw [run_when, if_pos (by rw [hh, Bool.and_true]; exact decide_eq_true ht), if_neg (by omega), decision, run_get, run_when,
      if_pos (by rw [hf]; rfl), if_neg (by omega)]
    rfl
  obtain ⟨hread, hcmds, hregs, hes, htsc, hout⟩ := emitRecord_effect hm hc2 x out fl true
  dsimp only
  rw [hrun]
  change _ = (s.decisionUnit x (s.fillRec x out) fl _).toBytes ∧ _
  generalize (emitRecord x out fl true).run s = u at *
  have hnone := (decide_effect x u).1
  rw [monItem_id hx] at hnone
  have hdec : (decide_ x).run u = (Act.disp fun d => { d with
      items := d.items.filter fun y => y.id != x.id
      decided := d.decided ++ [decidedOf x] }).run u := by
    have he : (u.itemCmds x.id).filter Cmd.isParked = [] := by rw [← hpark, State.itemCmds, State.itemCmds, hcmds]
    rw [decide_, run_get, he]
    rfl
  exact ⟨by rw [hdec]; exact hread, hnone, by rw [hdec]; exact hregs, by rw [hdec]; exact hes, by rw [hdec]; exact htsc, by rw [hdec]; exact hout⟩

/-! ### Sweeps (R361, R363) -/

theorem sweepOpen_none {s : State} {id : BitVec 48} {prof : Nat} (h : s.sweepProfile id prof = none) (stamp : Nat) :
    (sweepOpenAct id stamp prof).run s = (dispRaise 27).run s := by
  rw [sweepOpenAct, run_get, h]

theorem sweepClose_none {s : State} {id : BitVec 48} {prof : Nat} (h : s.sweepProfile id prof = none) :
    (sweepCloseAct id prof).run s = (dispRaise 27).run s := by
  rw [sweepCloseAct, run_get, h]

theorem dispRaise_effect {s : State} (hs : keysRise s.regs) {k : Nat} (hk : k < 28) :
    ((dispRaise k).run s).pend .DISP 0 k = true ∧ Quiet (irqOf .DISP 0) s ((dispRaise k).run s) :=
  ⟨dispRaise_pend hs hk, Act.Only.quiet (only_raise (by simp [irqOf]) (by simp [irqOf]) (by simp)) s⟩

/-- R361: the item of a sweep message is followed. -/
theorem sweepOpen_effect {s : State} {id : BitVec 48} {prof i : Nat} (h : s.sweepProfile id prof = some i) (hnew : s.monItem id = none)
    (hdec : (s.hw.disp.decided.any fun d => d.1 == id) = false) (hroom : s.hw.disp.items.length < 4096) (hpath : s.sweepPaths i = []) (stamp : Nat) :
    (sweepOpenAct id stamp prof).run s = (Act.disp fun d => { d with
      items := d.items ++ [{ id := id, prof := i, stamp := stamp, fixed := true, cls := 1, streams := [] }] }).run s := by
  rw [sweepOpenAct, run_get, h]
  dsimp only
  have hfull : ¬ decide (4096 ≤ s.hw.disp.items.length) = true := by simpa using hroom
  rw [run_when, if_pos (by rw [hnew]; simpa using hdec), hpath, followItem, run_seq, run_get, run_seq, run_when, if_neg hfull]
  rfl

/-- No item is open on path `p`. -/
def ClosedOn (p : Nat) (s : State) : Prop := s.itemOpenOn p = none

/-- A change of path `q` shows in path `p` as that change, or not at all. -/
theorem path_run_path (p q : Nat) (f : PathSt → PathSt) (s : State) :
    p = q ∧ ((Act.path q f).run s).path p = f (s.path p) ∨ ((Act.path q f).run s).path p = s.path p := by
  have h (l : List PathSt) (d : PathSt) : p = q ∧ (updAt f q l).getD p d = f (l.getD p d) ∨ (updAt f q l).getD p d = l.getD p d := by
    induction l generalizing p q with
    | nil => exact .inr (by cases q <;> rfl)
    | cons x l ih =>
      cases q with
      | zero => cases p with
        | zero => exact .inl ⟨rfl, rfl⟩
        | succ p => exact .inr rfl
      | succ q => cases p with
        | zero => exact .inr rfl
        | succ p => exact (ih p q).imp (fun h => ⟨congrArg _ h.1, h.2⟩) fun h => h
  exact h _ _

theorem closedOn_iff (p : Nat) (s : State) : ClosedOn p s ↔ ∀ x, (s.path p).items.getLast? = some x → x.stop ≠ none := by
  rw [ClosedOn, State.itemOpenOn]
  cases (s.path p).items.getLast? with
  | none => simp
  | some x => simp

theorem getLast?_lastItem (f : PathItem → PathItem) (l : List PathItem) : (lastItem f l).getLast? = l.getLast?.map f := by
  rw [lastItem, ← List.head?_reverse (l := l)]
  cases l.reverse with
  | nil => rfl
  | cons x t => simp

/-- Closing the open item of any path opens none. -/
theorem closeOn_holds (p q : Nat) (post : Bool) : (closeOn q post).Holds (ClosedOn p) := .get fun s => .when fun _ u _ hu => by
  rw [closedOn_iff] at hu ⊢
  rcases path_run_path p q (fun q => { q with items := lastItem (fun x => { x with stop := some (s.outStarted _ + _) }) q.items }) u with ⟨-, h⟩ | h
  · rw [h]
    intro x hx
    rw [getLast?_lastItem] at hx
    obtain ⟨y, -, rfl⟩ := Option.map_eq_some_iff.1 hx
    exact Option.some_ne_none _
  · rw [h]
    exact hu

theorem endItems_holds (p q : Nat) : (endItems q).Holds (ClosedOn p) := fun s hs hc => by
  rw [endItems, run_get]
  dsimp only
  rw [run_when]
  split
  next =>
    have hlast (v : Nat) (l : List PathItem) : (Act.all [.setFld (Reg.SFE.PATH_STATUS q) 0 0 v,
        .each l fun x => .event (.itemClose q x.id x.stamp)]).Holds (ClosedOn p) :=
      .cons (fun u _ hu => hu) (.cons (.each fun x _ u _ hu => hu) fun _ _ h => h)
    rw [run_all_cons]
    refine hlast _ _ _ hs ?_
    rw [closedOn_iff] at hc ⊢
    rcases path_run_path p q (fun x => { x with items := (s.path q).items.map fun x => { x with closed := x.closed || s.ended? q x } }) s with ⟨rfl, h⟩ | h
    · rw [h]
      intro x hx
      rw [List.getLast?_map] at hx
      obtain ⟨y, hy, rfl⟩ := Option.map_eq_some_iff.1 hx
      exact hc y hy
    · rw [h]
      exact hc
  next => exact hc

/-- The open item of a path closes. -/
theorem closeOn_closes (p : Nat) (post : Bool) (s : State) : ClosedOn p ((closeOn p post).run s) := by
  have hget (l : List PathSt) (f : PathSt → PathSt) : (updAt f p l).getD p {} = f (l.getD p {}) ∨ (updAt f p l).getD p {} = {} := by
    rw [getD_updAt]
    split
    · exact .inl rfl
    · exact .inr rfl
  rw [closeOn, run_get, run_when]
  split
  next h =>
    rw [closedOn_iff]
    intro x hx
    rcases hget s.hw.cap.paths (fun q => { q with items := lastItem (fun x => { x with stop := some (s.outStarted p + (if post = true then s.fld (Reg.SFE.PATH_ITEM p) 23 12 else 0)) }) q.items }) with h | h
    · rw [show ((Act.path p _).run s).path p = _ from h, getLast?_lastItem] at hx
      obtain ⟨y, -, rfl⟩ := Option.map_eq_some_iff.1 hx
      exact Option.some_ne_none _
    · rw [show ((Act.path p _).run s).path p = _ from h] at hx
      exact absurd hx (by simp)
  next h => simpa [ClosedOn] using h

/-- Closing the item of path `p` leaves none open there. -/
theorem closeItem_closes (p : Nat) (post : Bool) {s : State} (hs : keysRise s.regs) : ClosedOn p ((closeItem p post).run s) := by
  have hrun : (closeItem p post).run s =
      (Act.each (s.followers p) fun q => .seq (closeOn q post) (endItems q)).run ((endItems p).run ((closeOn p post).run s)) := rfl
  rw [hrun]
  have h1 : keysRise ((closeOn p post).run s).regs := rise_run _ hs
  exact Act.Holds.each (fun q _ => (closeOn_holds p q post).seq (endItems_holds p q)) _ (rise_run _ h1)
    (endItems_holds p p _ h1 (closeOn_closes p post s))

theorem closeItem_holds (p q : Nat) (post : Bool) : (closeItem q post).Holds (ClosedOn p) :=
  .get fun _ => .each fun _ _ => (closeOn_holds p _ post).seq (endItems_holds p _)

/-- What the sweep close does at one path, as it was met. -/
def closeIf (s : State) (id : BitVec 48) (p : Nat) : Act := match s.itemOpenOn p with
  | some y => .when (y.id == id) (closeItem p true)
  | none => .nil

theorem closeIf_holds (s : State) (id : BitVec 48) (p q : Nat) : (closeIf s id q).Holds (ClosedOn p) := by
  unfold closeIf
  split
  · exact .when fun _ => closeItem_holds p q true
  · exact fun _ _ h => h

/-- Run for each of a list, a program that holds and that one of them brings about. -/
theorem each_holds {β : Type} {P : State → Prop} {l : List β} {f : β → Act} {b : β} (hb : b ∈ l) (hf : ∀ x ∈ l, (f x).Holds P)
    (hP : ∀ s, keysRise s.regs → P ((f b).run s)) {s : State} (hs : keysRise s.regs) : P ((Act.each l f).run s) := by
  obtain ⟨l1, l2, rfl⟩ := List.append_of_mem hb
  rw [run_each_append]
  have h1 : keysRise ((Act.each l1 f).run s).regs := rise_run _ hs
  exact Act.Holds.each (fun x hx => hf x (by simp [hx])) ((f b).run _) (rise_run (f b) h1) (hP _ h1)

/-- The registers and stores that items opening and closing change: PATH_STATUS. -/
def Scope.pathItems : Scope := { reg := (· ∈ (List.range 16).map Reg.SFE.PATH_STATUS) }

theorem only_closeItem {p : Nat} (hp : p < 16) (post : Bool) : (closeItem p post).Only .pathItems := by
  refine (only_get _).2 fun s => (only_each _ _).2 fun q hq => ⟨(only_get _).2 fun _ => (only_when _ _).2 fun _ => trivial, (only_get _).2 fun _ =>
    (only_when _ _).2 fun _ => ⟨trivial, (only_setFld _ _ _ _).2 (List.mem_map.2 ⟨q, List.mem_range.2 ?_, rfl⟩), (only_each _ _).2 fun _ _ => trivial, trivial⟩⟩
  rcases List.mem_cons.1 hq with rfl | hq
  · exact hp
  · exact followers_lt hp hq

theorem sweepClose_effect {s : State} (hs : keysRise s.regs) {id : BitVec 48} {prof i p : Nat} {y : PathItem} (h : s.sweepProfile id prof = some i)
    (hp : p ∈ s.sweepPaths i) (hy : s.itemOpenOn p = some y) (hid : y.id = id) :
    let t := (sweepCloseAct id prof).run s
    t.itemOpenOn p = none ∧ SameRegs ((List.range 16).map Reg.SFE.PATH_STATUS) s t ∧ SameRest s t := by
  have hrun : (sweepCloseAct id prof).run s = (Act.each (s.sweepPaths i) (closeIf s id)).run s := by
    rw [sweepCloseAct, run_get, h]
    rfl
  have honly : (Act.each (s.sweepPaths i) (closeIf s id)).Only .pathItems := (only_each _ _).2 fun q hq => by
    have h16 : q < 16 := List.mem_range.1 (List.mem_filter.1 hq).1
    unfold closeIf
    split
    · exact (only_when _ _).2 fun _ => only_closeItem h16 true
    · trivial
  dsimp only
  rw [hrun]
  refine ⟨each_holds hp (fun q _ => closeIf_holds s id p q) (fun u hu => ?_) hs, honly.sameRegs (fun h => h) (fun _ h => h) s,
    honly.sameRest (fun h => h) (fun h => h) (fun h => h) (fun h => h) (fun h => h) s⟩
  rw [closeIf, hy]
  dsimp only
  rw [run_when, if_pos (by simpa using hid)]
  exact closeItem_closes p true hu

/-- R363: a candidate joins those present. -/
theorem candidate_effect {s : State} {dev : Nat} {id : BitVec 48} (r : DecisionRecord) (invalid : Bool) {x : MonItem}
    (hroute : s.bit Reg.LINK.ROUTE_LOST dev = false) (hx : s.monItem id = some x) (hrole : s.profRole x.prof = 1) (hdev : dev ∈ s.sweepDevs x.prof)
    (hnew : (x.cands.any fun c => c.1 == dev) = false)
    (hmore : ∃ d ∈ s.sweepDevs x.prof, d ≠ dev ∧ (x.cands.any fun c => c.1 == d) = false) :
    let t := (candidateAct dev id r invalid).run s
    (t.monItem id).map (·.cands) = some (x.cands ++ [(dev, r, invalid)]) ∧ t.regs = s.regs ∧ SameRest s t := by
  let add : MonItem → MonItem := fun y => { y with cands := y.cands ++ [(dev, r, invalid)] }
  have hadd : ((Act.mon id add).run s).monItem id = some (add x) := by rw [monItem_mon (f := add) (fun _ => rfl), hx]; rfl
  have hrun : (candidateAct dev id r invalid).run s = (Act.mon id add).run s := by
    have hb : (s.profRole x.prof == 1 && (s.sweepDevs x.prof).contains dev && !(x.cands.any fun c => c.1 == dev)) = true := by
      simp [hrole, hdev, hnew]
    rw [candidateAct, run_get, if_neg (by rw [hroute]; exact Bool.false_ne_true), hx]
    dsimp only
    rw [run_when, if_pos hb, run_seq, mergeIfAll, withItem_run hadd, run_get, run_when, if_neg]
    obtain ⟨d, hd, hne, hnone⟩ := hmore
    intro hall
    have hd' := List.all_eq_true.1 hall d hd
    simp only [add, List.any_append, hnone, Bool.false_or, List.any_cons, List.any_nil, Bool.or_false, beq_iff_eq] at hd'
    exact hne hd'.symm
  dsimp only
  rw [hrun, hadd]
  exact ⟨rfl, rfl, ⟨rfl, rfl, rfl, rfl, rfl⟩⟩

/-- Settles O39: the item monitor. -/
theorem itemMonitor : Obligations.ItemMonitor := by
  unfold Obligations.ItemMonitor
  refine ⟨fun s id stamp prof hl => ⟨fun hnone => ⟨⟨_, command_eq hl.2, ?_⟩, ⟨_, command_eq hl.2, ?_⟩⟩,
      fun i hi hnew hdec hroom hpath => ⟨_, command_eq hl.2, ?_⟩, fun i p y hi hp hy hid _ => ⟨_, command_eq hl.2, sweepClose_effect hl.1.1.1 hi hp hy hid⟩⟩,
    fun s id x hl hx => ⟨fun t0 ht0 ht hheld hcand hready => ⟨_, command_eq hl.2, ?_⟩, fun t0 ht0 ht => ?_,
      fun ht hf hrole => ⟨_, command_eq hl.2, tEmit_effect hl.1.1.1 hx ht hf hrole⟩, fun ht => ?_,
      fun r fl hheld ht hover hrole hf hc2 hpark => ⟨_, command_eq hl.2, holdLast_effect hl.1.2.1.1 hx hheld ht hover hrole hf hc2 hpark⟩⟩,
    fun s dev id r invalid hl => ⟨fun hroute => ⟨_, command_eq hl.2, ?_⟩,
      fun x hroute hx hrole hdev hnew hmore => ⟨_, command_eq hl.2, candidate_effect r invalid hroute hx hrole hdev hnew hmore⟩⟩⟩
  · rw [sweepOpen_none hnone]
    exact dispRaise_effect hl.1.1.1 (by decide)
  · rw [sweepClose_none hnone]
    exact dispRaise_effect hl.1.1.1 (by decide)
  · rw [sweepOpen_effect hi hnew hdec hroom hpath]
    exact ⟨rfl, fun _ _ => rfl, ⟨rfl, rfl, rfl, rfl, rfl⟩⟩
  · rw [tSw_run hx ht0, run_when, if_pos (by rw [hheld, hcand, hready]; simpa using ht)]
    exact switchItem_effect hl.1.1.1 hx
  · refine (command_eq hl.2).trans (congrArg (fun t : State => Host.Outcome.next t.settled) ?_)
    rw [tSw_run hx ht0, run_when, if_neg (by simp [Nat.not_le.2 ht])]
  · refine (command_eq hl.2).trans (congrArg (fun t : State => Host.Outcome.next t.settled) ?_)
    rw [tEmitAct, withItem_run hx, run_get, run_when, if_neg (by simp [Nat.not_le.2 ht])]
  · rw [show candidateAct dev.toNat id r invalid = _ from rfl, candidateAct, run_get, if_pos hroute]
    exact quarantine_effect hl.1.1.1

end Sys2Proof.Machine

/-! ## Proofs: context commands, doorbells, reports (10_contexts_and_scheduling) -/

namespace Sys2Proof.Machine

-- One theorem after the other: elaborated side by side, they hold more threads than the memory limit of a check allows.
set_option Elab.async false

/-! ### Context records -/

theorem byte_of_mem {s t : State} (h : t.mem = s.mem) (a : Nat) : t.byte a = s.byte a := by rw [State.byte, State.byte, h]

/-- What of a context's record is read through memory and CTX_BASE. -/
structure SameCtx (s t : State) : Prop where
  mem  : t.mem = s.mem
  base : t.rd Reg.DISP.CTX_BASE = s.rd Reg.DISP.CTX_BASE

namespace SameCtx
variable {s t : State} (h : SameCtx s t)
include h

theorem addr (c : Nat) : t.ctxAddr c = s.ctxAddr c := by rw [State.ctxAddr, State.ctxAddr, h.base]
theorem state (c : Nat) : t.ctxState c = s.ctxState c := by rw [State.ctxState, State.ctxState, h.addr, byte_of_mem h.mem]
theorem readN (c off k : Nat) : t.readN (t.ctxAddr c + off) k = s.readN (s.ctxAddr c + off) k := by rw [h.addr, readN_of_mem h.mem]
theorem byte (c off : Nat) : t.byte (t.ctxAddr c + off) = s.byte (s.ctxAddr c + off) := by rw [h.addr, byte_of_mem h.mem]

theorem startReason (hc : t.rd Reg.DISP.CLASS2_ENG = s.rd Reg.DISP.CLASS2_ENG) (c : Nat) : t.startReason c = s.startReason c := by
  simp only [State.startReason, h.state, State.ctxSqLog2, State.ctxCqLog2, State.ctxSqAddr, State.ctxCqAddr, State.ctxSaveAddr, State.ctxLiveAddr,
    State.ctxReportAddr, State.ctxShare, State.ctxEngMask, State.ctxClass, h.readN, h.byte, hc]
  rfl

end SameCtx

theorem ctxState_run {s : State} (hm : keysRise s.mem) (c v : Nat) : ((Act.ctxState c v).run s).ctxState c = v % 8 := by
  have hb : ((Act.ctxState c v).run s).byte (s.ctxAddr c) = setBits (s.byte (s.ctxAddr c)) 2 0 v := by
    refine (byte_run_bytes hm (s.ctxAddr c) (s.ctxAddr c) [_]).trans ?_
    rw [if_pos ⟨Nat.le_refl _, Nat.lt_succ_self _⟩, Nat.sub_self]
    rfl
  have ha : ((Act.ctxState c v).run s).ctxAddr c = s.ctxAddr c := by
    have h : (Act.ctxState c v).Only { mem := True } := (only_get _).2 fun _ => (only_bytes _ _).2 trivial
    rw [State.ctxAddr, State.ctxAddr, h.rd (r := Reg.DISP.CTX_BASE) (fun h => h) (fun _ h => h.elim)]
  rw [State.ctxState, ha, hb]
  exact bits_setBits_same _ _ (by decide)

theorem only_ctxState {p : Scope} (h : p.mem) (c v : Nat) : (Act.ctxState c v).Only p := (only_get _).2 fun _ => (only_bytes _ _).2 h

theorem mask_ctxResult : RegRef.mask Reg.DISP.CTX_RESULT = 0xFF03 ∧ RegRef.mask Reg.DISP.CTX_VT_HI = 0xFFFFFFFF := by decide +kernel

/-! ### CTX_CMD (R400, R446) -/

theorem ctxCmd_row : RegRef.row Reg.DISP.CTX_CMD = some ⟨0x070, 1, 0x04, .WO, 0, 0, 0, 0, false⟩ := by decide +kernel

/-- The state in which the effect of a write to CTX_CMD begins: nothing but the write's trail differs. -/
structure CtxBegun (s q : State) : Prop where
  sound : q.sound
  rest  : SameRest s q
  hw    : q.hw = s.hw
  regs  : SameRegs [Reg.HDR.WRITE_COUNT .DISP 0] s q

namespace CtxBegun
variable {s q : State} (h : CtxBegun s q)
include h

theorem ctx : SameCtx s q := ⟨h.rest.mem, h.regs.rd_off (by simp)⟩

/-- What the command's effect leaves alone, the write does. -/
theorem frame {t : State} {l : List RegRef} (ht : SameRegs l q t) (hes : t.es = q.es) (htsc : t.tsc = q.tsc) (hout : t.out = q.out) :
    SameRegs (l ++ hostTrail .DISP 0) s t ∧ t.es = s.es ∧ t.tsc = s.tsc ∧ t.out = s.out :=
  ⟨SameRegs.trans (h.regs.mono (by simp [hostTrail])) (ht.mono (by simp)), hes.trans h.rest.es, htsc.trans h.rest.tsc, hout.trans h.rest.out⟩
end CtxBegun

theorem ctxCmd_run {s : State} (hl : s.live) {v : Word} {a : Act} (hacc : s.accepts 0 Reg.DISP.CTX_CMD v = true) (hoff : s.bit Reg.JRNL.JRNL_CTRL 0 = false)
    (ha : ctxCmdAct v = a) (hkeep : a.Only (.but Reg.JRNL.JRNL_CTRL)) : ∃ q, CtxBegun s q ∧ (hostReg 0 Reg.DISP.CTX_CMD v).run s = a.run q := by
  obtain ⟨q, hq, hhw, hrest, -, heq, hrun⟩ := hostReg_off_run hl.1 ctxCmd_row hacc (show blockWrite 0 .DISP 0 0x070 _ v = a from ha) hkeep hoff
    (by decide +kernel)
  have hw := written_hostStored hl.1 (r := Reg.DISP.CTX_CMD) v ctxCmd_row rfl
  rw [← heq] at hw
  exact ⟨q, ⟨hq, hrest, hhw, hw.kept (fun _ => rfl) (by decide +kernel) (by simp)⟩, hrun⟩

theorem ctxCmd_op {v : Word} {op : Nat} (hop : op < 16) : bits (setBits v 3 0 op) 3 0 = op ∧ bits (setBits v 3 0 op) 15 8 = bits v 15 8 :=
  ⟨(bits_setBits_same _ _ (by decide)).trans (Nat.mod_eq_of_lt hop), bits_setBits_other _ _ (.inr (by decide))⟩

theorem ctxCmd_start (v : Word) : ctxCmdAct (setBits v 3 0 1) = ctxStartAct (bits v 15 8) := by
  rw [ctxCmdAct, (ctxCmd_op (by decide)).1, (ctxCmd_op (op := 1) (by decide)).2]; rfl
theorem ctxCmd_stop (v : Word) : ctxCmdAct (setBits v 3 0 2) = ctxStopAct (bits v 15 8) := by
  rw [ctxCmdAct, (ctxCmd_op (by decide)).1, (ctxCmd_op (op := 2) (by decide)).2]; rfl
theorem ctxCmd_teardown (v : Word) : ctxCmdAct (setBits v 3 0 3) = ctxTeardownAct (bits v 15 8) := by
  rw [ctxCmdAct, (ctxCmd_op (by decide)).1, (ctxCmd_op (op := 3) (by decide)).2]; rfl
theorem ctxCmd_report (v : Word) : ctxCmdAct (setBits v 3 0 4) = .seq reportsAct (ctxResult true 0) := by
  rw [ctxCmdAct, (ctxCmd_op (by decide)).1]; rfl

/-- What START, STOP and REPORT may change beside memory. -/
def Scope.resulting : Scope := { reg := (· = Reg.DISP.CTX_RESULT), mem := True }

theorem Act.Only.resulting {a : Act} (h : a.Only .resulting) (s : State) :
    SameRegs [Reg.DISP.CTX_RESULT] s (a.run s) ∧ (a.run s).es = s.es ∧ (a.run s).tsc = s.tsc ∧ (a.run s).out = s.out :=
  ⟨h.sameRegs (fun h => h) (fun _ h => List.mem_singleton.2 h) s, h.es (fun h => h) s, h.tsc (fun h => h) s, h.out (fun h => h) s⟩

theorem Act.Only.resulting_but {a : Act} (h : a.Only .resulting) : a.Only (.but Reg.JRNL.JRNL_CTRL) :=
  h.weaken (fun _ h => by rw [h]; exact (show _ ≠ _ by decide)) (fun _ _ => trivial) (mem := fun h => h) (poison := fun h => h.elim) (es := fun h => h.elim) (tsc := fun h => h.elim) (out := fun h => h.elim)

theorem resulting_ctxResult (ok : Bool) (reason : Nat) : (ctxResult ok reason).Only .resulting := (only_wrN _ _).2 rfl

theorem ctxResult_rd {s : State} (hs : keysRise s.regs) (ok : Bool) (reason : Nat) :
    ((ctxResult ok reason).run s).rd Reg.DISP.CTX_RESULT = BitVec.ofNat 32 (1 + 2 * b2n ok + 256 * reason) &&& 0xFF03 := by
  rw [← mask_ctxResult.1]
  exact rd_setReg_same hs _ _

theorem ctxResult_same (ok : Bool) (reason : Nat) (s : State) : SameCtx s ((ctxResult ok reason).run s) := ⟨rfl, rd_setReg_off (by simp)⟩

/-! ### START -/

theorem startReason_lt (s : State) (c : Nat) : s.startReason c < 4 := by
  unfold State.startReason
  dsimp only
  split
  · decide
  · split
    · decide
    · split
      · decide
      · decide

theorem resulting_ctxStart (c : Nat) : (ctxStartAct c).Only .resulting :=
  (only_get _).2 fun _ => (only_ite _ _ _).2 ⟨fun _ => ⟨only_ctxState trivial _ _, trivial, resulting_ctxResult _ _, trivial⟩, fun _ => resulting_ctxResult _ _⟩

theorem ctxStart_effect {q : State} (hq : q.sound) (c : Nat) :
    let t := (ctxStartAct c).run q
    (q.startReason c = 0 → t.ctxState c = 2 ∧ t.rd Reg.DISP.CTX_RESULT = 3) ∧
      (q.startReason c ≠ 0 → t.rd Reg.DISP.CTX_RESULT = BitVec.ofNat 32 (1 + 256 * q.startReason c) ∧ t.mem = q.mem) := by
  dsimp only
  rw [ctxStartAct, run_get]
  dsimp only
  refine ⟨fun h => ?_, fun h => ?_⟩
  · rw [if_pos h]
    have hu : keysRise ((Act.ctxState c 2).run q).regs := rise_run _ hq.1.1
    have hstate := ctxState_run hq.2.1.1 c 2
    simp only [run_all_cons, run_all_nil]
    generalize (Act.ctxState c 2).run q = u at *
    exact ⟨((ctxResult_same true 0 _).state c).trans hstate, ctxResult_rd hu true 0⟩
  · rw [if_neg h]
    refine ⟨(ctxResult_rd hq.1.1 _ _).trans ?_, rfl⟩
    have hlt := startReason_lt q c
    generalize q.startReason c = n at *
    interval_cases n <;> rfl

/-! ### STOP -/

theorem alFind_alPut_stored {α : Type} [DecidableEq α] {d v : α} (h : v ≠ d) (k : Nat) (l : List (Nat × α)) : alFind k (alPut d k v l) = some v := by
  induction l with
  | nil => rw [alPut, if_neg h, alFind, if_pos rfl]
  | cons x t ih =>
    obtain ⟨y, w⟩ := x
    rw [alPut, if_neg h, if_neg h]
    split
    · rw [alFind, if_pos rfl]
    · split
      · rw [alFind, if_pos rfl]
      · next hne => rw [alFind, if_neg (Ne.symm hne), ih]

/-- A context marked as stopping. -/
theorem ctx_stopping (c : Nat) (s : State) : (((Act.ctx c fun x => { x with stopping := true }).run s).ctx c).stopping = true := by
  show (alGet {} c (alPut {} c _ s.hw.disp.ctxs)).stopping = true
  rw [alGet, alFind_alPut_stored]
  · rfl
  · exact fun h => absurd (congrArg CtxSt.stopping h) (by simp)

theorem resulting_stopCheck (c : Nat) : (stopCheck c).Only .resulting :=
  (only_get _).2 fun _ => (only_when _ _).2 fun _ => ⟨only_ctxState trivial _ _, trivial⟩

theorem resulting_ctxStop (c : Nat) : (ctxStopAct c).Only .resulting :=
  (only_get _).2 fun _ => ⟨(only_when _ _).2 fun _ => trivial, resulting_stopCheck c, resulting_ctxResult _ _, trivial⟩

/-- No context that is not RUNNING, or that is stopping, admits. -/
theorem mayAdmit_false {s : State} {c : Nat} (h : s.ctxState c ≠ 2 ∨ (s.ctx c).stopping = true) : s.mayAdmit c = false := by
  rcases h with h | h
  · simp [State.mayAdmit, h]
  · simp [State.mayAdmit, h]

theorem stopCheck_effect {s : State} (hm : keysRise s.mem) {c : Nat} (h : s.ctxState c ≠ 2 ∨ (s.ctx c).stopping = true) :
    (((stopCheck c).run s).ctxState c ≠ 2 ∨ (((stopCheck c).run s).ctx c).stopping = true) ∧
      ((s.ctx c).stopping = true → (s.hw.disp.cmds.any fun x => x.ctx == c) = false → ((stopCheck c).run s).ctxState c = 1) := by
  rw [stopCheck, run_get, run_when]
  split
  next hb =>
    have h1 : ((Act.seq (.ctxState c 1) (.ctx c fun x => { x with stopping := false })).run s).ctxState c = 1 := ctxState_run hm c 1
    exact ⟨.inl (by rw [h1]; decide), fun _ _ => h1⟩
  next hb => exact ⟨h, fun h1 h2 => absurd (by rw [h1, h2]; rfl) hb⟩

theorem ctxStop_effect {q : State} (hq : q.sound) (c : Nat) :
    let t := (ctxStopAct c).run q
    t.rd Reg.DISP.CTX_RESULT = 3 ∧ t.mayAdmit c = false ∧ (q.ctxState c = 2 → (q.hw.disp.cmds.any fun x => x.ctx == c) = false → t.ctxState c = 1) := by
  let mark : Act := .when (q.ctxState c == 2) (.ctx c fun x => { x with stopping := true })
  have hrun : (ctxStopAct c).run q = (ctxResult true 0).run ((stopCheck c).run (mark.run q)) := rfl
  have hmark : (mark.run q).ctxState c ≠ 2 ∨ ((mark.run q).ctx c).stopping = true := by
    by_cases h : q.ctxState c = 2
    · exact .inr (by rw [show mark = _ from rfl, run_when, if_pos (beq_iff_eq.2 h)]; exact ctx_stopping c q)
    · exact .inl (by rw [show mark = _ from rfl, run_when, if_neg (by simpa using h)]; exact h)
  have hstop : q.ctxState c = 2 → ((mark.run q).ctx c).stopping = true := fun h => by
    rw [show mark = _ from rfl, run_when, if_pos (beq_iff_eq.2 h)]
    exact ctx_stopping c q
  have hcmds : (mark.run q).hw.disp.cmds = q.hw.disp.cmds := by
    rw [show mark = _ from rfl, run_when]
    split <;> rfl
  have hu : (mark.run q).sound := sound_run _ _ hq
  dsimp only
  rw [hrun]
  generalize mark.run q = u at *
  obtain ⟨h1, h2⟩ := stopCheck_effect hu.2.1.1 hmark
  have hv : keysRise ((stopCheck c).run u).regs := rise_run _ hu.1.1
  generalize (stopCheck c).run u = w at *
  have hsame := ctxResult_same true 0 w
  refine ⟨ctxResult_rd hv true 0, mayAdmit_false (h1.imp_left fun h => by rw [hsame.state]; exact h), fun h hn => ?_⟩
  rw [hsame.state]
  exact h2 (hstop h) (by rw [hcmds]; exact hn)

/-! ### TEARDOWN (R446) -/

/-- The commands of the dispatcher, each by its identifier, context and input slot. -/
def Hw.work (h : Hw) : List (Nat × Nat × Option (Nat × Nat)) := h.disp.cmds.map fun c => (c.id, c.ctx, c.inSlot)

/-- What the release of a command's engines and blocks may change: their state, the accounts, but no memory and no command's
context or input slot. -/
def Scope.releasing : Scope := { reg := fun r => r.off = 0x044 ∧ (r.blk = .ENG ∨ r.blk = .FCE), hw := fun f => ∀ h : Hw, (f h).work = h.work }

theorem releasing_cmd (id : Nat) {f : Cmd → Cmd} (hf : ∀ c, ((f c).id, (f c).ctx, (f c).inSlot) = (c.id, c.ctx, c.inSlot)) : (Act.cmd id f).Only .releasing := by
  intro h
  show (h.disp.cmds.map fun c => if c.id = id then f c else c).map _ = h.disp.cmds.map _
  rw [List.map_map]
  refine List.map_congr_left fun c _ => ?_
  show (fun c : Cmd => (c.id, c.ctx, c.inSlot)) (if c.id = id then f c else c) = _
  split
  · exact hf c
  · rfl

theorem releasing_ctx (c : Nat) (f : CtxSt → CtxSt) : (Act.ctx c f).Only .releasing := fun _ => rfl

theorem releasing_accrue : accrue.Only .releasing := by
  simp only [accrue, only_get, only_seq, only_each, only_when]
  exact fun s => ⟨fun _ => rfl, fun _ _ _ => releasing_ctx _ _⟩

theorem releasing_chargeRun (c : Cmd) : (chargeRun c .own).Only .releasing :=
  (only_get _).2 fun _ => (only_get _).2 fun _ => ⟨releasing_cmd _ fun _ => rfl, (only_get _).2 fun _ => releasing_ctx _ _, releasing_ctx _ _, trivial⟩

theorem releasing_releaseAll (c : Cmd) : (releaseAll c).Only .releasing := by
  have hwait : (closeWait c).Only .releasing := by
    refine (only_get _).2 fun s => ?_
    split
    · exact ⟨releasing_ctx _ _, releasing_cmd _ fun _ => rfl⟩
    · trivial
  have heng (p : Nat) : (releaseEng p).Only .releasing := by
    simp only [releaseEng, only_get, only_all_cons, only_all_nil, only_when, setEngState, only_setFld]
    exact fun s => ⟨fun _ => rfl, fun _ => ⟨rfl, .inl rfl⟩, ⟨rfl, .inl rfl⟩, trivial⟩
  have hblk : (releaseBlocks c.id).Only .releasing := by
    simp only [releaseBlocks, only_get, only_all_cons, only_all_nil, only_each, only_when, only_setFld, only_hw]
    exact fun s => ⟨fun i _ => ⟨fun _ => rfl, fun _ => ⟨rfl, .inr rfl⟩, ⟨rfl, .inr rfl⟩, trivial⟩, fun _ => rfl, trivial⟩
  exact (only_get _).2 fun _ => ⟨releasing_accrue, hwait, (only_each _ _).2 fun _ _ => heng _, hblk, trivial⟩

theorem Act.Only.work {a : Act} (h : a.Only .releasing) (s : State) : (a.run s).hw.work = s.hw.work := h.hw Hw.work (fun _ hf => hf) s

theorem Act.Only.releasing_ctx {a : Act} (h : a.Only .releasing) (s : State) : SameCtx s (a.run s) :=
  ⟨h.mem (fun h => h) s, h.rd (fun h => h) (fun r hr => key_ne_of_off (by rw [hr.1]; decide)) s⟩

/-- What frees the input slot of a command leaves the commands as they are. -/
theorem freeInput_work (slot : Option (Nat × Nat)) (s : State) : ((freeInput slot).run s).hw.work = s.hw.work := by
  have h : (freeInput slot).Only { reg := fun _ => True, mem := True, poison := True, hw := fun f => ∀ h : Hw, (f h).work = h.work } := by
    unfold freeInput
    split
    · simp only [Act.freeSlot, only_seq, only_get, only_all_cons, only_all_nil, only_each, only_when, only_wrN, only_mem]
      exact ⟨fun s => ⟨trivial, fun _ => rfl, fun _ _ _ => trivial, trivial⟩, fun _ => rfl⟩
    · trivial
  exact h.hw Hw.work (fun _ hf => hf) s

/-- What a command that is stopped releases first. -/
def stopFirst (c : Cmd) : Act := .seq (chargeRun c .own) (releaseAll c)

theorem releasing_stopFirst (c : Cmd) : (stopFirst c).Only .releasing := ⟨releasing_chargeRun c, releasing_releaseAll c⟩

theorem stopCmd_run {s : State} {id : Nat} {c : Cmd} (h : s.cmd id = some c) (detail : Nat) :
    (stopCmd id detail).run s = (Act.event (.ended c stABORTED detail false)).run ((freeInput c.inSlot).run ((dropCmd id).run ((stopFirst c).run s))) := by
  rw [stopCmd, Act.withCmd, run_get, h]
  rfl

theorem stopCmd_absent {s : State} {id : Nat} (h : s.cmd id = none) (detail : Nat) : (stopCmd id detail).run s = s := by
  rw [stopCmd, Act.withCmd, run_get, h]
  rfl

theorem dropCmd_work (id : Nat) (s : State) : ((dropCmd id).run s).hw.work = s.hw.work.filter fun x => x.1 != id := by
  show (s.hw.disp.cmds.filter fun c => c.id != id).map _ = (s.hw.disp.cmds.map _).filter _
  rw [List.filter_map]
  rfl

/-- A command that is stopped is gone, and only it. -/
theorem stopCmd_work (id detail : Nat) (s : State) : ((stopCmd id detail).run s).hw.work = s.hw.work.filter fun x => x.1 != id := by
  cases hc : s.cmd id with
  | none =>
    rw [stopCmd_absent hc, eq_comm, List.filter_eq_self]
    intro x hx
    obtain ⟨c, hmem, rfl⟩ := List.mem_map.1 hx
    simpa using List.find?_eq_none.1 hc c hmem
  | some c =>
    rw [stopCmd_run hc]
    refine (freeInput_work _ _).trans ?_
    rw [dropCmd_work, (releasing_stopFirst c).work]

/-- None of the commands holds an input slot, and the records are those of `s`. -/
def Slotless (s t : State) : Prop := SameCtx s t ∧ ∀ x ∈ t.hw.work, x.2.2 = none

theorem SameCtx.trans {s t u : State} (h : SameCtx s t) (h' : SameCtx t u) : SameCtx s u := ⟨h'.mem.trans h.mem, h'.base.trans h.base⟩

theorem stopCmd_slotless {s t : State} (h : Slotless s t) (id detail : Nat) : Slotless s ((stopCmd id detail).run t) := by
  obtain ⟨hctx, hnone⟩ := h
  refine ⟨?_, fun x hx => ?_⟩
  · cases hc : t.cmd id with
    | none => rw [stopCmd_absent hc]; exact hctx
    | some c =>
      have hslot : c.inSlot = none := hnone _ (List.mem_map.2 ⟨c, List.mem_of_find?_eq_some hc, rfl⟩)
      have h := hctx.trans ((releasing_stopFirst c).releasing_ctx t)
      rw [stopCmd_run hc, hslot]
      generalize (stopFirst c).run t = w at *
      exact ⟨h.mem, h.base⟩
  · rw [stopCmd_work] at hx
    exact hnone x (List.mem_filter.1 hx).1

/-- What follows the commands of a context that is torn down. -/
def teardownRest (c : Nat) (waiting : List Ending) : Act := .all
  [.each waiting (fun x => freeInput x.slot), .ctx c fun x => { x with waiting := [], stopping := false }, .event (.ctxDown c)]

theorem teardown_run (c : Nat) (s : State) : (teardown c).run s = (teardownRest c (s.ctx c).waiting).run
    ((Act.each ((s.hw.disp.cmds.filter fun x => x.ctx == c).map (·.id)) fun id => stopCmd id 0x49).run ((Act.ctxState c 3).run s)) := rfl

theorem stopAll_work (l : List Nat) (s : State) : ((Act.each l fun id => stopCmd id 0x49).run s).hw.work = s.hw.work.filter fun x => !l.contains x.1 := by
  induction l generalizing s with
  | nil => simp [Act.each]
  | cons i l ih =>
    rw [show (Act.each (i :: l) fun id => stopCmd id 0x49).run s = (Act.each l fun id => stopCmd id 0x49).run ((stopCmd i 0x49).run s) from rfl, ih, stopCmd_work,
      List.filter_filter]
    refine List.filter_congr fun x _ => ?_
    rw [List.contains_cons, Bool.not_or, Bool.and_comm]
    rfl

theorem teardownRest_work (c : Nat) (l : List Ending) (s : State) : ((teardownRest c l).run s).hw.work = s.hw.work := by
  have h : ((Act.each l fun x => freeInput x.slot).run s).hw.work = s.hw.work := by
    induction l generalizing s with
    | nil => rfl
    | cons x l ih => exact (ih _).trans (freeInput_work _ _)
  exact h

theorem teardownRest_ctx {l : List Ending} (hl : ∀ w ∈ l, w.slot = none) (c : Nat) (s : State) : SameCtx s ((teardownRest c l).run s) := by
  have h : (Act.each l fun x => freeInput x.slot).run s = s := by
    induction l generalizing s with
    | nil => rfl
    | cons x l ih =>
      rw [show (Act.each (x :: l) fun x => freeInput x.slot).run s = (Act.each l fun x => freeInput x.slot).run ((freeInput x.slot).run s) from rfl,
        hl x List.mem_cons_self]
      exact ih (fun w hw => hl w (List.mem_cons_of_mem _ hw)) s
  rw [show (teardownRest c l).run s = (Act.event (.ctxDown c)).run ((Act.ctx c fun x => { x with waiting := [], stopping := false }).run
    ((Act.each l fun x => freeInput x.slot).run s)) from rfl, h]
  exact ⟨rfl, rfl⟩

/-- R446: no command of a context that is torn down remains. -/
theorem teardown_cmds (c : Nat) (s : State) : ∀ x ∈ ((teardown c).run s).hw.disp.cmds, x.ctx ≠ c := by
  intro x hx hc
  have hwork : (x.id, x.ctx, x.inSlot) ∈ ((teardown c).run s).hw.work := List.mem_map.2 ⟨x, hx, rfl⟩
  rw [teardown_run, teardownRest_work, stopAll_work] at hwork
  obtain ⟨h1, h2⟩ := List.mem_filter.1 hwork
  obtain ⟨y, hy, he⟩ := List.mem_map.1 (show (x.id, x.ctx, x.inSlot) ∈ s.hw.disp.cmds.map _ from h1)
  simp only [Prod.mk.injEq] at he
  have hin : x.id ∈ (s.hw.disp.cmds.filter fun x => x.ctx == c).map (·.id) :=
    List.mem_map.2 ⟨y, List.mem_filter.2 ⟨hy, by rw [beq_iff_eq, he.2.1, hc]⟩, he.1⟩
  simp [hin] at h2

/-- R446: its record says TEARDOWN, where no input slot is freed. -/
theorem teardown_state {s : State} (hm : keysRise s.mem) {c : Nat} (hslot : ∀ x ∈ s.hw.disp.cmds, x.inSlot = none)
    (hwait : ∀ w ∈ (s.ctx c).waiting, w.slot = none) : ((teardown c).run s).ctxState c = 3 := by
  let u := (Act.ctxState c 3).run s
  have h0 : Slotless u u := ⟨⟨rfl, rfl⟩, fun x hx => by
    obtain ⟨y, hy, rfl⟩ := List.mem_map.1 hx
    refine hslot y ?_
    rw [show s.hw = u.hw from (Act.Only.hw (p := { mem := True, hw := fun f => ∀ h, f h = h }) (only_ctxState trivial c 3) (fun h => h)
      (fun _ hf h => hf h) s).symm]
    exact hy⟩
  have hall : Slotless u ((Act.each ((s.hw.disp.cmds.filter fun x => x.ctx == c).map (·.id)) fun id => stopCmd id 0x49).run u) := by
    generalize (s.hw.disp.cmds.filter fun x => x.ctx == c).map (·.id) = l
    suffices ∀ t, Slotless u t → Slotless u ((Act.each l fun id => stopCmd id 0x49).run t) from this u h0
    induction l with
    | nil => exact fun _ h => h
    | cons i l ih => exact fun t h => ih _ (stopCmd_slotless h i 0x49)
  rw [teardown_run, (teardownRest_ctx hwait c _).state, hall.1.state]
  exact ctxState_run hm c 3

/-- What ends a command writes no register of the journal. -/
theorem Act.Only.ending_but {a : Act} (h : a.Only .ending) : a.Only (.but Reg.JRNL.JRNL_CTRL) := by
  refine h.weaken (fun q hq => ?_) (fun _ _ => trivial) (mem := fun h => h) (poison := fun h => h) (es := fun h => h.elim) (tsc := fun h => h.elim)
    (out := fun h => h.elim)
  rcases hq with hq | ⟨h1, -⟩ | ⟨h1, h2, h3⟩
  · simp only [List.mem_cons, List.not_mem_nil, or_false] at hq
    rcases hq with rfl | rfl | rfl | rfl <;> exact (show _ ≠ _ by decide)
  · exact key_ne_of_off (by rw [h1]; decide)
  · show q.key ≠ _
    simp only [RegRef.key, h1, h2, Blk.slot]
    omega

theorem ending_teardown (c : Nat) : (teardown c).Only .ending :=
  (only_get _).2 fun _ => ⟨ending_ctxState _ _, (only_each _ _).2 fun _ _ => ending_stopCmd _ _, (only_each _ _).2 fun _ _ => ending_freeInput _,
    ending_ctx _ _, ending_event _, trivial⟩

theorem ctxTeardown_run {q : State} {c : Nat} (h : q.ctxState c = 1 ∨ q.ctxState c = 2) :
    (ctxTeardownAct c).run q = (ctxResult true 0).run ((teardown c).run q) := by
  rw [ctxTeardownAct, run_get, run_seq, run_when, if_pos (by rcases h with h | h <;> rw [h] <;> rfl)]

theorem ctxTeardown_effect {q : State} (hq : q.sound) {c : Nat} (h : q.ctxState c = 1 ∨ q.ctxState c = 2) :
    let t := (ctxTeardownAct c).run q
    t.rd Reg.DISP.CTX_RESULT = 3 ∧ (∀ x ∈ t.hw.disp.cmds, x.ctx ≠ c) ∧
      ((∀ x ∈ q.hw.disp.cmds, x.inSlot = none) → (∀ w ∈ (q.ctx c).waiting, w.slot = none) → t.ctxState c = 3) ∧ t.es = q.es ∧ t.tsc = q.tsc ∧
      t.out = q.out := by
  dsimp only
  rw [ctxTeardown_run h]
  have hu : keysRise ((teardown c).run q).regs := rise_run _ hq.1.1
  have hend := ending_teardown c
  have hcmds := teardown_cmds c q
  have hstate := fun h1 h2 => teardown_state (s := q) hq.2.1.1 (c := c) h1 h2
  have hes := hend.es (fun h => h) q
  have htsc := hend.tsc (fun h => h) q
  have hout := hend.out (fun h => h) q
  generalize (teardown c).run q = u at *
  exact ⟨ctxResult_rd hu true 0, hcmds, fun h1 h2 => ((ctxResult_same true 0 u).state c).trans (hstate h1 h2), hes, htsc, hout⟩

/-- R446, R484: a context that is torn down becomes FREE, and its function is told. -/
theorem teardownComplete_effect {s : State} (hs : s.sound) {c : Nat} (h : s.ctxState c = 3) :
    let t := (teardownCompleteAct c).run s
    t.ctxState c = 0 ∧ t.pend .DISP 0 5 = true ∧ t.bit (Reg.FUNC.NOTICE (s.ctxFunc c)) 4 = true ∧
      t.hw.disp.ctxs = alPut {} c {} s.hw.disp.ctxs ∧ SameRegs (Reg.FUNC.NOTICE (s.ctxFunc c) :: irqOf .DISP 0) s t ∧ t.es = s.es ∧ t.tsc = s.tsc ∧
      t.out = s.out := by
  let u := (Act.seq (.ctxState c 0) (.disp fun d => { d with ctxs := alPut {} c {} d.ctxs })).run s
  have hrun : (teardownCompleteAct c).run s = (Act.notice (s.ctxFunc c) 4).run ((dispRaise 5).run u) := by
    rw [teardownCompleteAct, run_get, run_when, if_pos (by rw [h]; rfl)]
    rfl
  have hmem : (Act.ctxState c 0).Only { mem := True, hw := fun f => ∀ h, f h = h } := only_ctxState trivial c 0
  have hu : u.sound := sound_run _ s hs
  have hstate : u.ctxState c = 0 := ctxState_run hs.2.1.1 c 0
  have hctxs : u.hw.disp.ctxs = alPut {} c {} s.hw.disp.ctxs :=
    congrArg (fun d : Hw => alPut ({} : CtxSt) c {} d.disp.ctxs) (hmem.hw (fun h => h) (fun _ hf h => hf h) s)
  have hregs : u.regs = s.regs := hmem.regs_eq (fun _ h => h) (fun h => h) s
  have hes : u.es = s.es := hmem.es (fun h => h) s
  have htsc : u.tsc = s.tsc := hmem.tsc (fun h => h) s
  have hout : u.out = s.out := hmem.out (fun h => h) s
  dsimp only
  rw [hrun]
  generalize u = u at *
  obtain ⟨h1, h2⟩ := dispRaise_effect hu.1.1 (k := 5) (by decide)
  have hd := dispRaise_disp 5 u
  have hv : keysRise ((dispRaise 5).run u).regs := rise_run _ hu.1.1
  generalize (dispRaise 5).run u = w at *
  have hf : s.ctxFunc c < 32 := Nat.mod_lt _ (by decide)
  have hn := quiet_notice w (s.ctxFunc c) 4
  have hbit := bit_notice hv ⟨s.ctxFunc c, hf⟩ (k := 4) (m := 4) (by decide) (.inl rfl)
  generalize (Act.notice (s.ctxFunc c) 4).run w = t at *
  have hsame : SameCtx u t := ⟨hn.mem.trans h2.mem, (hn.regs.rd_off (by simp)).trans (h2.regs.rd_off (by simp [irqOf]))⟩
  refine ⟨(hsame.state c).trans hstate, ?_, hbit, ?_, SameRegs.trans (t := u) (fun r _ => by rw [rd_of_regs hregs]) ((h2.regs.mono (by simp)).trans (hn.regs.mono (by simp))),
    hn.es.trans (h2.es.trans hes), hn.tsc.trans (h2.tsc.trans htsc), hn.out.trans (h2.out.trans hout)⟩
  · exact (bit_of_rd (hn.regs.rd_off (by simp)) 5).trans h1
  · obtain ⟨e, he⟩ := hn.hw
    rw [he]
    exact (congrArg DispSt.ctxs hd).trans hctxs

/-! ### Doorbells (R401) -/

theorem completionDoorbell_effect {s : State} {f c : Nat} (v : Word) (hring : s.mayRing f c = true) (hctxs : keysRise s.hw.disp.ctxs)
    (hwait : (s.ctx c).waiting = []) :
    (completionDoorbellAct f c v).run s = (Act.ctx c fun x => { x with cqHead := v.toNat }).run s := by
  have hget : (((Act.ctx c fun x => { x with cqHead := v.toNat }).run s).ctx c).waiting = [] := by
    show (alGet {} c (alPut {} c _ s.hw.disp.ctxs)).waiting = []
    rw [alGet_alPut_same hctxs]
    exact hwait
  rw [completionDoorbellAct, run_get, if_neg (by rw [hring]; decide), run_seq, drainCtx, run_get, hget]
  rfl

/-- A record in the access log of a function's page. -/
theorem logAcc_quiet (f : Fin 32) (off kind : Nat) (s : State) : Quiet (logOf .FUNC f) s ((Act.logAcc .FUNC f f off kind).run s) := by
  refine Act.Only.quiet ?_ s
  simp only [Act.logAcc, only_get, only_ite, only_all_cons, only_all_nil, only_wr, only_wrN, only_orReg, and_true]
  exact fun s => ⟨fun _ => by simp [logOf], fun _ => ⟨by simp [logOf], by simp [logOf], by simp [logOf],
    only_raise (by simp [logOf]) (by simp [logOf]) (by simp)⟩⟩

/-! ### Interference reports (R447) -/

/-- A part of what was stored. -/
theorem readN_run_bytes_part {s : State} (hm : keysRise s.mem) (a k n : Nat) (p q : List Byte) :
    ((Act.bytes a (p ++ leBytes k n ++ q)).run s).readN (a + p.length) k = n % 256 ^ k := by
  have hlen : (leBytes k n).length = k := length_leBytes k n
  rw [State.readN, ← leNat_leBytes]
  refine congrArg leNat (List.ext_getElem (by simp [State.read, hlen]) fun i h1 h2 => ?_)
  have hi : i < k := by rwa [hlen] at h2
  simp only [State.read, List.getElem_map, List.getElem_range]
  rw [byte_run_bytes hm, if_pos ⟨by omega, by simp [hlen]; omega⟩, show a + p.length + i - a = p.length + i by omega, List.append_assoc,
    List.getD_append_right _ _ _ _ (by omega), Nat.add_sub_cancel_left, List.getD_append _ _ _ _ h2, List.getD_eq_getElem _ _ h2]

/-- The bytes of a report after its counts. -/
def reportTail (c : Nat) (x : CtxSt) (k : Nat) : List Byte :=
  let v := [units16 x.run, units16 x.waitShare, units16 x.waitClass2, units16 x.lostPreempt, units16 x.lostFault, (openWord k 0).toNat, units16 x.remote]
  v.flatMap (leBytes 4) ++ leBytes 4 (if v.headD 0 = 0 then 4294967295 else min (sumNat v * 65536 / v.headD 0) 4294967295) ++ leBytes 1 c ++
    List.replicate 11 0

/-- The bytes of a report. -/
def reportBytes (s : State) (c : Nat) : List Byte :=
  leBytes 8 (s.ctx c).tStart ++ leBytes 8 s.now ++ leBytes 4 (min (s.ctx c).commands 4294967295) ++ reportTail c (s.ctx c) s.freeCtr

theorem length_reportTail (c : Nat) (x : CtxSt) (k : Nat) : (reportTail c x k).length = 44 := by
  simp [reportTail, length_leBytes]

theorem length_reportBytes (s : State) (c : Nat) : (reportBytes s c).length = 64 := by
  simp [reportBytes, length_leBytes, length_reportTail]

/-- What a report changes beside its bytes. -/
theorem writeReport_run {s : State} (hc2 : s.fld Reg.SAFE.C2_REGION 26 16 = 0) {c : Nat} (hst : s.ctxState c = 2) (haddr : s.ctxReportAddr c ≠ 0) :
    ∃ rest : Act, rest.Only {} ∧ (writeReport c).run s = rest.run ((Act.bytes (s.ctxReportAddr c) (reportBytes s c)).run s.useFree) := by
  have hrun : (writeReport c).run s = (Act.seq (.guarded (s.ctxClass c) (s.ctxReportAddr c) (reportBytes s c))
      (.ctx c fun y => { vt := y.vt, tail := y.tail, cqHead := y.cqHead, stopping := y.stopping, limited := y.limited,
                         waiting := y.waiting, tStart := s.now })).run s.useFree := by
    rw [writeReport, run_get]
    dsimp only
    rw [run_when, if_pos (by rw [hst]; simpa using haddr)]
    simp only [reportBytes, reportTail, List.append_assoc]
    rfl
  rw [hrun, run_seq, guarded_run (s := s.useFree) hc2]
  let next : CtxSt → CtxSt := fun y => { vt := y.vt, tail := y.tail, cqHead := y.cqHead, stopping := y.stopping, limited := y.limited,
                                         waiting := y.waiting, tStart := s.now }
  exact ⟨.seq (ringMove true (s.ctxReportAddr c) (reportBytes s c).length) (.ctx c next), ⟨only_ringMove _ _ _ fun _ _ => trivial, trivial⟩, rfl⟩

/-- Nothing but memory differs. -/
structure SameRegsAlone (s t : State) : Prop where
  regs : t.regs = s.regs
  es   : t.es = s.es
  tsc  : t.tsc = s.tsc
  out  : t.out = s.out

theorem writeReport_skips {s : State} {k : Nat} (h : s.ctxState k = 2 → s.ctxReportAddr k = 0) : (writeReport k).run s = s := by
  rw [writeReport, run_get]
  dsimp only
  rw [run_when, if_neg]
  intro hb
  simp only [Bool.and_eq_true, beq_iff_eq, bne_iff_ne] at hb
  exact hb.2 (h hb.1)

theorem each_writeReport_skips {l : List Nat} {s : State} (h : ∀ k ∈ l, s.ctxState k = 2 → s.ctxReportAddr k = 0) : (Act.each l writeReport).run s = s := by
  induction l with
  | nil => rfl
  | cons k l ih =>
    rw [show (Act.each (k :: l) writeReport).run s = (Act.each l writeReport).run ((writeReport k).run s) from rfl, writeReport_skips (h k List.mem_cons_self)]
    exact ih fun j hj => h j (List.mem_cons_of_mem _ hj)

/-- What counting the waiting times leaves of a context. -/
def Counted (c : Nat) (s t : State) : Prop :=
  keysRise t.hw.disp.ctxs ∧ (t.ctx c).tStart = (s.ctx c).tStart ∧ (t.ctx c).commands = (s.ctx c).commands

theorem accrue_counted {c : Nat} {s : State} (hs : keysRise s.regs) (h : keysRise s.hw.disp.ctxs) : Counted c s (accrue.run s) := by
  have hctx (k : Nat) {f : CtxSt → CtxSt} (hf : ∀ x, (f x).tStart = x.tStart ∧ (f x).commands = x.commands) : (Act.ctx k f).Holds (Counted c s) := fun t _ ht => by
    obtain ⟨h1, h2, h3⟩ := ht
    have hget : ((Act.ctx k f).run t).ctx c = if k = c then f (t.ctx c) else t.ctx c := by
      show alGet {} c (alPut {} k _ t.hw.disp.ctxs) = _
      split
      next e => rw [e, alGet_alPut_same h1]; rfl
      next e => exact alGet_alPut_ne e _
    refine ⟨keysRise_alPut h1, ?_, ?_⟩
    · rw [hget]
      split
      · rw [(hf _).1, h2]
      · exact h2
    · rw [hget]
      split
      · rw [(hf _).2, h3]
      · exact h3
  have hall : accrue.Holds (Counted c s) := .get fun _ => .seq (fun _ _ ht => ht) (.each fun _ _ => .when fun _ => hctx _ fun _ => ⟨rfl, rfl⟩)
  exact hall s hs ⟨h, rfl, rfl⟩

theorem only_accrue : accrue.Only {} := by
  simp only [accrue, only_get, only_seq, only_each, only_when]
  exact fun s => ⟨trivial, fun _ _ _ => trivial⟩

section
variable {s : State} {c : Nat}

/-- The report of a context, written. -/
theorem writeReport_effect (hs : s.sound) (hc2 : s.fld Reg.SAFE.C2_REGION 26 16 = 0) (hst : s.ctxState c = 2) (haddr : s.ctxReportAddr c ≠ 0) :
    let t := (writeReport c).run s
    t.readN (s.ctxReportAddr c) 8 = (s.ctx c).tStart % 2 ^ 64 ∧ t.readN (s.ctxReportAddr c + 8) 8 = s.now ∧
      t.readN (s.ctxReportAddr c + 16) 4 = min (s.ctx c).commands 4294967295 ∧ SameRegsAlone s t ∧
      ∀ a, a < s.ctxReportAddr c ∨ s.ctxReportAddr c + 64 ≤ a → t.byte a = s.byte a := by
  obtain ⟨rest, hrest, hrun⟩ := writeReport_run hc2 hst haddr
  have hm : keysRise s.useFree.mem := hs.2.1.1
  have h1 := readN_run_bytes_part hm (s.ctxReportAddr c) 8 (s.ctx c).tStart []
    (leBytes 8 s.now ++ leBytes 4 (min (s.ctx c).commands 4294967295) ++ reportTail c (s.ctx c) s.freeCtr)
  have h2 := readN_run_bytes_part hm (s.ctxReportAddr c) 8 s.now (leBytes 8 (s.ctx c).tStart)
    (leBytes 4 (min (s.ctx c).commands 4294967295) ++ reportTail c (s.ctx c) s.freeCtr)
  have h3 := readN_run_bytes_part hm (s.ctxReportAddr c) 4 (min (s.ctx c).commands 4294967295) (leBytes 8 (s.ctx c).tStart ++ leBytes 8 s.now)
    (reportTail c (s.ctx c) s.freeCtr)
  have hb : (Act.bytes (s.ctxReportAddr c) (reportBytes s c)).Only { mem := True } := (only_bytes _ _).2 trivial
  have h4 (a : Nat) (ha : a < s.ctxReportAddr c ∨ s.ctxReportAddr c + 64 ≤ a) :=
    byte_run_bytes_ne hm (l := reportBytes s c) (by rw [length_reportBytes]; exact ha)
  simp only [List.nil_append, List.length_nil, Nat.add_zero, length_leBytes, List.length_append, ← List.append_assoc] at h1 h2 h3
  rw [show leBytes 8 (s.ctx c).tStart ++ leBytes 8 s.now ++ leBytes 4 (min (s.ctx c).commands 4294967295) ++ reportTail c (s.ctx c) s.freeCtr =
    reportBytes s c from rfl] at h1 h2 h3
  dsimp only
  rw [hrun]
  have hregs := hb.regs_eq (fun _ h => h) (fun h => h) s.useFree
  have hes := hb.es (fun h => h) s.useFree
  have htsc := hb.tsc (fun h => h) s.useFree
  have hout := hb.out (fun h => h) s.useFree
  generalize (Act.bytes (s.ctxReportAddr c) (reportBytes s c)).run s.useFree = u at *
  have hmem := hrest.mem (fun h => h) u
  refine ⟨?_, ?_, ?_, ⟨(hrest.regs_eq (fun _ h => h) (fun h => h) u).trans hregs, (hrest.es (fun h => h) u).trans hes, (hrest.tsc (fun h => h) u).trans htsc,
    (hrest.out (fun h => h) u).trans hout⟩, fun a ha => (byte_of_mem hmem a).trans (h4 a ha)⟩
  · rw [readN_of_mem hmem, h1, show (256 : Nat) ^ 8 = 2 ^ 64 from rfl]
  · rw [readN_of_mem hmem, h2]
    exact Nat.mod_eq_of_lt s.tsc.isLt
  · rw [readN_of_mem hmem, h3]
    exact Nat.mod_eq_of_lt (by omega)

/-- R447: the reports, where one context alone has one. -/
theorem reports_effect (hs : s.sound) (hc2 : s.fld Reg.SAFE.C2_REGION 26 16 = 0) (hon : s.bit Reg.DISP.DISP_CTRL 3 = true)
    (hctxs : keysRise s.hw.disp.ctxs) (hc : c < 256) (hst : s.ctxState c = 2) (haddr : s.ctxReportAddr c ≠ 0)
    (halone : ∀ k, k < 256 → s.ctxState k = 2 → s.ctxReportAddr k ≠ 0 → k = c)
    (hapart : s.ctxReportAddr c + 64 ≤ s.ctxAddr 0 ∨ s.ctxAddr 256 ≤ s.ctxReportAddr c) :
    let t := reportsAct.run s
    t.readN (s.ctxReportAddr c) 8 = (s.ctx c).tStart % 2 ^ 64 ∧ t.readN (s.ctxReportAddr c + 8) 8 = s.now ∧
      t.readN (s.ctxReportAddr c + 16) 4 = min (s.ctx c).commands 4294967295 ∧ SameRegsAlone s t := by
  have hrun : reportsAct.run s = (Act.each (List.range 256) writeReport).run (accrue.run s) := by
    rw [reportsAct, run_get, run_when, if_pos hon, run_seq]
  obtain ⟨-, hstart, hcmds⟩ := accrue_counted (c := c) hs.1.1 hctxs
  have hregs := only_accrue.regs_eq (fun _ h => h) (fun h => h) s
  have hu : SameCtx s (accrue.run s) := ⟨only_accrue.mem (fun h => h) s, rd_of_regs hregs _⟩
  have hsound : (accrue.run s).sound := sound_run _ _ hs
  have hsame : SameRegsAlone s (accrue.run s) := ⟨hregs, only_accrue.es (fun h => h) s, only_accrue.tsc (fun h => h) s, only_accrue.out (fun h => h) s⟩
  dsimp only
  rw [hrun]
  generalize accrue.run s = u at *
  have hreport (k : Nat) : u.ctxReportAddr k = s.ctxReportAddr k := hu.readN k 56 8
  have hskip {k : Nat} (hk : k < 256) (hne : k ≠ c) : u.ctxState k = 2 → u.ctxReportAddr k = 0 := fun h => by
    rw [hu.state] at h
    rw [hreport]
    exact Decidable.byContradiction fun h' => hne (halone k hk h h')
  obtain ⟨l1, l2, hrange⟩ := List.append_of_mem (List.mem_range.2 hc)
  have hnodup : (l1 ++ c :: l2).Nodup := hrange ▸ List.nodup_range
  have hlt {k : Nat} (hk : k ∈ l1 ++ c :: l2) : k < 256 := List.mem_range.1 (hrange ▸ hk)
  have hne1 {k : Nat} (hk : k ∈ l1) : k ≠ c := fun h => (List.nodup_append.1 hnodup).2.2 k hk c List.mem_cons_self h
  have hne2 {k : Nat} (hk : k ∈ l2) : k ≠ c := fun h => (List.nodup_cons.1 (List.nodup_append.1 hnodup).2.1).1 (h ▸ hk)
  obtain ⟨e1, e2, e3, e4, e5⟩ := writeReport_effect hsound (c := c) (by rw [State.fld, rd_of_regs hsame.regs]; exact hc2) (by rw [hu.state]; exact hst)
    (by rw [hreport]; exact haddr)
  rw [hrange, run_each_append, each_writeReport_skips fun k hk => hskip (hlt (by simp [hk])) (hne1 hk),
    show (Act.each (c :: l2) writeReport).run u = (Act.each l2 writeReport).run ((writeReport c).run u) from rfl]
  rw [hreport] at e1 e2 e3 e5
  rw [hstart] at e1
  rw [State.now, hsame.tsc] at e2
  rw [hcmds] at e3
  have hbyte {k off : Nat} (hk : k < 256) (hoff : off < 64) : ((writeReport c).run u).byte (s.ctxAddr k + off) = u.byte (s.ctxAddr k + off) :=
    e5 _ (by simp only [State.ctxAddr] at hapart ⊢; omega)
  have haddr' (k : Nat) : ((writeReport c).run u).ctxAddr k = s.ctxAddr k := by rw [← hu.addr, State.ctxAddr, State.ctxAddr, rd_of_regs e4.regs]
  have hskip2 : (Act.each l2 writeReport).run ((writeReport c).run u) = (writeReport c).run u := each_writeReport_skips fun k hk h => by
    have hk' : k < 256 := hlt (by simp [hk])
    have h0 : u.ctxState k = 2 := by
      rw [State.ctxState, haddr', show s.ctxAddr k = s.ctxAddr k + 0 from rfl, hbyte hk' (by decide)] at h
      rw [State.ctxState, hu.addr]
      exact h
    refine Eq.trans ?_ (hskip hk' (hne2 hk) h0)
    rw [State.ctxReportAddr, State.ctxReportAddr, haddr', hu.addr, State.readN, State.readN]
    refine congrArg leNat (List.map_congr_left fun i hi => ?_)
    have hi8 : i < 8 := List.mem_range.1 hi
    rw [Nat.add_assoc]
    exact hbyte hk' (by omega)
  rw [hskip2]
  exact ⟨e1, e2, e3, ⟨e4.regs.trans hsame.regs, e4.es.trans hsame.es, e4.tsc.trans hsame.tsc, e4.out.trans hsame.out⟩⟩
end

/-- The reports leave the journal on or off. -/
theorem report_but : (Act.seq reportsAct (ctxResult true 0)).Only (.but Reg.JRNL.JRNL_CTRL) := by
  refine ⟨(only_get _).2 fun _ => (only_when _ _).2 fun _ => ⟨ending_accrue.ending_but, (only_each _ _).2 fun c _ => ?_⟩, (resulting_ctxResult _ _).resulting_but⟩
  exact (only_get _).2 fun _ => (only_when _ _).2 fun _ => (only_get _).2 fun _ => ⟨trivial, (ending_guarded _ _ _).ending_but, trivial⟩

/-- A read of CTX_VT_LO (R449). -/
theorem ctxVtLo_effect {s : State} (hl : s.live) :
    let vt := (s.ctx (s.fld Reg.DISP.CTX_VT_SEL 7 0)).vt
    let t := (hostReadReg 0 Reg.DISP.CTX_VT_LO).run s
    (t.rd Reg.DISP.CTX_VT_HI).toNat = vt / 4294967296 % 4294967296 ∧ t.out = s.out ++ [.readData 0 (leBytes 4 (vt % 4294967296)) false] ∧
      SameRegs [Reg.DISP.CTX_VT_HI] s t ∧ t.mem = s.mem ∧ t.es = s.es ∧ t.tsc = s.tsc ∧ t.hw = s.hw := by
  let vt := (s.ctx (s.fld Reg.DISP.CTX_VT_SEL 7 0)).vt
  have hval : s.regRead .DISP 0 0x09C = BitVec.ofNat 32 vt := by
    obtain ⟨row, hr, ha⟩ : ∃ row, rowAt .DISP 0 0x09C = some row ∧ row.acc ≠ .WO := ⟨_, rfl, by decide⟩
    simp [State.regRead, hr, ha, regComputed]
    rfl
  have hrun : (hostReadReg 0 Reg.DISP.CTX_VT_LO).run s =
      (s.setReg Reg.DISP.CTX_VT_HI (BitVec.ofNat 32 (vt / 4294967296))).emit (.readData 0 (leBytes 4 (BitVec.ofNat 32 vt).toNat) false) := by
    rw [← hval]
    exact run_bar0Read_word (b := .DISP) (i := 0) (off := 0x09C) (by decide) (by decide) (by decide) s
  dsimp only
  rw [hrun]
  refine ⟨(congrArg BitVec.toNat (rd_setReg_same hl.1.1.1 _ _)).trans ?_, ?_, (quiet_setReg s Reg.DISP.CTX_VT_HI _).regs, rfl, rfl, rfl, rfl⟩
  · rw [mask_ctxResult.2, toNat_and_ones]
    exact BitVec.toNat_ofNat _ _
  · rw [emit_out, BitVec.toNat_ofNat]
    rfl

/-- Settles O28: context commands, doorbells, reports. -/
theorem contextCommands : Obligations.ContextCommands := by
  unfold Obligations.ContextCommands
  refine ⟨fun s v hl hacc hoff => ?_, fun s v hl hacc hoff => ?_, fun s v hl hacc hoff hst => ?_,
    fun s c hl h3 => ⟨_, command_eq hl.2, teardownComplete_effect hl.1 h3⟩,
    fun s f c v hl hen hring => ⟨fun hle => ⟨_, command_eq hl.2, ?_⟩, fun hgt => ⟨_, command_eq hl.2, ?_⟩⟩,
    fun s f c v hl hen hring hctxs hwait => ⟨_, command_eq hl.2, ?_⟩,
    fun s f c v hl hen hring => ⟨⟨_, command_eq hl.2, ?_⟩, ⟨_, command_eq hl.2, ?_⟩⟩,
    fun s c v hl hc2 hon hctxs hc hst haddr halone hapart => ⟨⟨_, command_eq hl.2, ?_⟩, fun hacc hoff => ?_⟩,
    fun s hl hoff => ?_, fun s hl => ⟨_, simply_eq hl.2, ctxVtLo_effect hl⟩⟩
  · obtain ⟨q, hq, hrun⟩ := ctxCmd_run hl hacc hoff (ctxCmd_start v) (resulting_ctxStart _).resulting_but
    refine ⟨_, (command_eq hl.2).trans (congrArg (fun t : State => Host.Outcome.next t.settled) hrun), ?_⟩
    obtain ⟨h1, h2⟩ := ctxStart_effect hq.sound (bits v 15 8)
    have hwhy : q.startReason (bits v 15 8) = s.startReason (bits v 15 8) := hq.ctx.startReason (hq.regs.rd_off (by simp)) _
    obtain ⟨f1, f2, f3, f4⟩ := (resulting_ctxStart (bits v 15 8)).resulting q
    rw [hwhy] at h1 h2
    exact ⟨h1, fun h => ⟨(h2 h).1, (h2 h).2.trans hq.rest.mem⟩, hq.frame f1 f2 f3 f4⟩
  · obtain ⟨q, hq, hrun⟩ := ctxCmd_run hl hacc hoff (ctxCmd_stop v) (resulting_ctxStop _).resulting_but
    refine ⟨_, (command_eq hl.2).trans (congrArg (fun t : State => Host.Outcome.next t.settled) hrun), ?_⟩
    obtain ⟨h1, h2, h3⟩ := ctxStop_effect hq.sound (bits v 15 8)
    obtain ⟨f1, f2, f3, f4⟩ := (resulting_ctxStop (bits v 15 8)).resulting q
    rw [hq.ctx.state, hq.hw] at h3
    exact ⟨h1, h2, h3, hq.frame f1 f2 f3 f4⟩
  · have hkeep : (ctxTeardownAct (bits v 15 8)).Only (.but Reg.JRNL.JRNL_CTRL) :=
      (only_get _).2 fun _ => ⟨(only_when _ _).2 fun _ => (ending_teardown _).ending_but, (resulting_ctxResult _ _).resulting_but⟩
    obtain ⟨q, hq, hrun⟩ := ctxCmd_run hl hacc hoff (ctxCmd_teardown v) hkeep
    refine ⟨_, (command_eq hl.2).trans (congrArg (fun t : State => Host.Outcome.next t.settled) hrun), ?_⟩
    obtain ⟨h1, h2, h3, h4, h5, h6⟩ := ctxTeardown_effect hq.sound (c := bits v 15 8) (by rw [hq.ctx.state]; exact hst)
    rw [hq.hw, State.ctx, hq.hw] at h3
    exact ⟨h1, h2, h3, h4.trans hq.rest.es, h5.trans hq.rest.tsc, h6.trans hq.rest.out⟩
  · rw [run_get, run_when, if_pos hen, submissionDoorbellAct, run_get, if_neg (by rw [hring]; decide), if_neg (Nat.not_lt.2 hle)]
    exact ⟨rfl, rfl, ⟨rfl, rfl, rfl, rfl, rfl⟩⟩
  · rw [run_get, run_when, if_pos hen, submissionDoorbellAct, run_get, if_neg (by rw [hring]; decide), if_pos hgt]
    exact dispRaise_effect hl.1.1.1 (by decide)
  · rw [run_get, run_when, if_pos hen, completionDoorbell_effect v hring hctxs hwait]
    exact ⟨rfl, rfl, ⟨rfl, rfl, rfl, rfl, rfl⟩⟩
  · rw [run_get, run_when, if_pos hen, submissionDoorbellAct, run_get, if_pos (by rw [hring]; rfl)]
    exact logAcc_quiet f _ _ s
  · rw [run_get, run_when, if_pos hen, completionDoorbellAct, run_get, if_pos (by rw [hring]; rfl)]
    exact logAcc_quiet f _ _ s
  · obtain ⟨h1, h2, h3, h4⟩ := reports_effect hl.1 hc2 hon hctxs hc hst haddr halone hapart
    exact ⟨h1, h2, h3, fun r _ => rd_of_regs h4.regs r, h4.es, h4.tsc, h4.out⟩
  · obtain ⟨q, hq, hrun⟩ := ctxCmd_run hl hacc hoff (ctxCmd_report v) report_but
    refine ⟨_, (command_eq hl.2).trans (congrArg (fun t : State => Host.Outcome.next t.settled) hrun), ?_⟩
    have hreport (k : Nat) : q.ctxReportAddr k = s.ctxReportAddr k := hq.ctx.readN k 56 8
    obtain ⟨-, h2, h3, h4⟩ := reports_effect hq.sound ((fld_of_rd (hq.regs.rd_off (by simp)) 26 16).trans hc2)
      ((bit_of_rd (hq.regs.rd_off (by simp)) 3).trans hon) (by rw [hq.hw]; exact hctxs) hc (by rw [hq.ctx.state]; exact hst)
      (by rw [hreport]; exact haddr) (fun k hk => by rw [hq.ctx.state, hreport]; exact halone k hk)
      (by rw [hreport, hq.ctx.addr, hq.ctx.addr]; exact hapart)
    rw [hreport] at h2 h3
    rw [show q.now = s.now by rw [State.now, State.now, hq.rest.tsc]] at h2
    rw [State.ctx, hq.hw] at h3
    have hr : keysRise (reportsAct.run q).regs := rise_run _ hq.sound.1.1
    rw [run_seq]
    generalize reportsAct.run q = u at *
    have hmem : ((ctxResult true 0).run u).mem = u.mem := rfl
    exact ⟨ctxResult_rd hr true 0, by rw [readN_of_mem hmem]; exact h2, by rw [readN_of_mem hmem]; exact h3,
      hq.frame (SameRegs.trans (t := u) (fun r _ => rd_of_regs h4.regs r) ((resulting_ctxResult true 0).resulting u).1) h4.es h4.tsc h4.out⟩
  · refine (command_eq hl.2).trans (congrArg (fun t : State => Host.Outcome.next t.settled) ?_)
    rw [reportsAct, run_get, run_when, if_neg (by rw [hoff]; decide)]

end Sys2Proof.Machine

/-! ## Proofs: scan paths (02_line_and_frame_capture) -/

namespace Sys2Proof.Machine

-- One theorem after the other: elaborated side by side, they hold more threads than the memory limit of a check allows.
set_option Elab.async false

/-! ### What the items of some paths change -/

theorem getD_updAt_ne {α : Type} (f : α → α) (d : α) {i j : Nat} (h : j ≠ i) (l : List α) : (updAt f i l).getD j d = l.getD j d := by
  induction l generalizing i j with
  | nil => cases i <;> rfl
  | cons x l ih =>
    cases i with
    | zero => cases j with
      | zero => exact absurd rfl h
      | succ j => rfl
    | succ i => cases j with
      | zero => rfl
      | succ j => exact ih (fun e => h (congrArg _ e))

/-- Items of the paths in `l` open and close: PATH_STATUS of these paths, and their block state. -/
def Scope.items (l : Nat → Prop) : Scope :=
  { reg := fun r => ∃ q < 16, l q ∧ r = Reg.SFE.PATH_STATUS q
    hw := fun f => ∀ h : Hw, (f h).cap.itemSeq = h.cap.itemSeq ∧ (f h).cap.gates = h.cap.gates ∧
      ∀ p, ¬ l p → (f h).cap.paths.getD p {} = h.cap.paths.getD p {} }

section
variable {l : Nat → Prop} {q : Nat}

theorem items_path (hl : l q) (f : PathSt → PathSt) : (Act.path q f).Only (.items l) :=
  fun _ => ⟨rfl, rfl, fun p hp => getD_updAt_ne _ _ (fun h : p = q => hp (h ▸ hl)) _⟩

theorem items_event (e : Event) : (Act.event e).Only (.items l) := fun _ => ⟨rfl, rfl, fun _ _ => rfl⟩

theorem items_status (hq : q < 16) (hl : l q) (hi lo v : Nat) : (Act.setFld (Reg.SFE.PATH_STATUS q) hi lo v).Only (.items l) :=
  (only_setFld _ _ _ _).2 ⟨q, hq, hl, rfl⟩

theorem items_openOn (hq : q < 16) (hl : l q) (id : BitVec 48) (pre : Bool) (stamp : Option Nat) : (openOn q id pre stamp).Only (.items l) :=
  (only_get _).2 fun _ => (only_when _ _).2 fun _ => ⟨items_path hl _, items_status hq hl _ _ _, items_event _, trivial⟩

theorem items_closeOn (hl : l q) (post : Bool) : (closeOn q post).Only (.items l) :=
  (only_get _).2 fun _ => (only_when _ _).2 fun _ => items_path hl _

theorem items_endItems (hq : q < 16) (hl : l q) : (endItems q).Only (.items l) :=
  (only_get _).2 fun _ => (only_when _ _).2 fun _ => ⟨items_path hl _, items_status hq hl _ _ _, (only_each _ _).2 fun _ _ => items_event _, trivial⟩

theorem items_openItem (hq : q < 16) (hl : l q) (hf : ∀ s : State, ∀ x ∈ s.followers q, l x) (id : BitVec 48) (pre : Bool) (stamp : Option Nat) :
    (openItem q id pre stamp).Only (.items l) :=
  (only_get _).2 fun s => ⟨items_openOn hq hl _ _ _, (only_each _ _).2 fun x hx => items_openOn (followers_lt hq hx) (hf s x hx) _ _ _⟩

theorem items_closeItem (hq : q < 16) (hl : l q) (hf : ∀ s : State, ∀ x ∈ s.followers q, l x) (post : Bool) : (closeItem q post).Only (.items l) := by
  refine (only_get _).2 fun s => (only_each _ _).2 fun x hx => ?_
  rcases List.mem_cons.1 hx with rfl | hx
  · exact ⟨items_closeOn hl _, items_endItems hq hl⟩
  · exact ⟨items_closeOn (hf s x hx) _, items_endItems (followers_lt hq hx) (hf s x hx)⟩

variable {a : Act} (h : a.Only (.items l))
include h

theorem Act.Only.items_path {p : Nat} (hp : ¬ l p) (s : State) : (a.run s).path p = s.path p :=
  h.hw (·.cap.paths.getD p {}) (fun _ hf h => (hf h).2.2 p hp) s

theorem Act.Only.items_seq (s : State) : (a.run s).hw.cap.itemSeq = s.hw.cap.itemSeq := h.hw (·.cap.itemSeq) (fun _ hf h => (hf h).1) s

theorem Act.Only.items_gates (s : State) : (a.run s).hw.cap.gates = s.hw.cap.gates := h.hw (·.cap.gates) (fun _ hf h => (hf h).2.1) s

theorem Act.Only.items_rest (s : State) : SameRest s (a.run s) := h.sameRest (fun h => h) (fun h => h) (fun h => h) (fun h => h) (fun h => h) s

/-- A register that is PATH_STATUS of none of the paths stays. -/
theorem Act.Only.items_rd {r : RegRef} (hr : ∀ q < 16, l q → (Reg.SFE.PATH_STATUS q).key ≠ r.key) (s : State) : (a.run s).rd r = s.rd r :=
  h.rd (fun h => h) (fun _ ⟨q, hq, hl, he⟩ => he ▸ hr q hq hl) s

theorem Act.Only.items_rd_off {off : Nat} (hr : ∀ q < 16, off ≠ 0x138 + 0x40 * q) (s : State) :
    (a.run s).rd ⟨.SFE, 0, off⟩ = s.rd ⟨.SFE, 0, off⟩ :=
  h.items_rd (fun q hq _ => by have := hr q hq; simp only [RegRef.key]; omega) s

theorem Act.Only.items_status {p : Nat} (hp : ¬ l p) (s : State) : (a.run s).rd (Reg.SFE.PATH_STATUS p) = s.rd (Reg.SFE.PATH_STATUS p) :=
  h.items_rd (fun q hq hl => by
    have : q ≠ p := fun e => hp (e ▸ hl)
    simp only [RegRef.key]
    omega) s
end

theorem mask_pathStatus (p : Fin 16) : RegRef.mask (Reg.SFE.PATH_STATUS p) = 0xFFFF0003 := by revert p; decide +kernel

/-- The followers of a path are other paths. -/
theorem followers_ne {s : State} {p q : Nat} (h : q ∈ s.followers p) : q ≠ p := fun e => self_not_mem_followers (e ▸ h)

theorem path_run_self {s : State} {p : Nat} (hp : p < s.hw.cap.paths.length) (f : PathSt → PathSt) : ((Act.path p f).run s).path p = f (s.path p) :=
  (getD_updAt f {} p s.hw.cap.paths).trans (if_pos hp)

/-! ### Items open (R101) -/

theorem openOn_status {s : State} (hs : keysRise s.regs) (p : Fin 16) (hon : s.pathOn p = true) (hnone : s.itemOpenOn p = none) (id : BitVec 48)
    (pre : Bool) (stamp : Option Nat) : ((openOn p id pre stamp).run s).bit (Reg.SFE.PATH_STATUS p) 0 = true := by
  rw [openOn, run_get, run_when, if_pos (by rw [hon, hnone]; rfl)]
  dsimp only
  rw [run_all_cons, run_all_cons, run_all_cons, run_all_nil]
  refine (bit_setFld (s := (Act.path p _).run s) hs (by rw [mask_pathStatus]; decide)).trans rfl

theorem openNew_run {s : State} {p : Nat} (hon : s.pathOn p = true) (hnone : s.itemOpenOn p = none) (pre : Bool) :
    (openNew p pre).run s = (Act.each (s.followers p) fun q => openOn q s.newItemId pre none).run
      ((openOn p s.newItemId pre none).run ((Act.cap fun c => { c with itemSeq := c.itemSeq + 1 }).run s)) := by
  rw [openNew, run_get, run_when, if_pos (by rw [hon, hnone]; rfl)]
  rfl

theorem items_followers {l : Nat → Prop} {s : State} {p : Nat} (hp : p < 16) (hl : ∀ q, q ≠ p → l q) (id : BitVec 48) (pre : Bool) (stamp : Option Nat) :
    (Act.each (s.followers p) fun q => openOn q id pre stamp).Only (.items l) :=
  (only_each _ _).2 fun _ hq => items_openOn (followers_lt hp hq) (hl _ (followers_ne hq)) _ _ _

/-- R101: a new item is open on its path. -/
theorem openNew_effect {s : State} (hs : keysRise s.regs) (p : Fin 16) (hon : s.pathOn p = true) (hnone : s.itemOpenOn p = none) (pre : Bool) :
    let t := (openNew p pre).run s
    t.bit (Reg.SFE.PATH_STATUS p) 0 = true ∧ t.hw.cap.itemSeq = s.hw.cap.itemSeq + 1 := by
  let u := (Act.cap fun c => { c with itemSeq := c.itemSeq + 1 }).run s
  have hu : keysRise u.regs := hs
  have hfol := items_followers (l := (· ≠ p.val)) (s := s) p.isLt (fun _ h => h) s.newItemId pre none
  have hopen : (openOn p s.newItemId pre none).Only (.items fun _ => True) := items_openOn p.isLt trivial _ _ _
  have h1 := openOn_status hu p hon hnone s.newItemId pre none
  have h2 := hopen.items_seq u
  dsimp only
  rw [openNew_run hon hnone]
  refine ⟨(bit_of_rd (hfol.items_status (fun h => h rfl) _) 0).trans h1, (hfol.items_seq _).trans h2⟩

theorem openNew_skips {s : State} {p : Nat} (h : s.itemOpenOn p ≠ none) (pre : Bool) : (openNew p pre).run s = s := by
  rw [openNew, run_get, run_when, if_neg]
  cases hx : s.itemOpenOn p with
  | none => exact absurd hx h
  | some x => simp

/-! ### Items close (R101, R102) -/

/-- The newest item of path `p` ends with line `e`. -/
def EndsAt (p e : Nat) (s : State) : Prop := (s.path p).items.getLast?.map (·.stop) = some (some e)

theorem EndsAt.of_path {p e : Nat} {s t : State} (hp : t.path p = s.path p) (h : EndsAt p e s) : EndsAt p e t := by rw [EndsAt, hp]; exact h

theorem EndsAt.closed {p e : Nat} {s : State} (h : EndsAt p e s) : s.itemOpenOn p = none := by
  refine (closedOn_iff p s).2 fun x hx => ?_
  rw [EndsAt, hx] at h
  intro hn
  rw [Option.map_some, hn] at h
  exact absurd (Option.some.inj h) (by simp)

theorem closeOn_ends {s : State} {p : Nat} {x : PathItem} (hx : s.itemOpenOn p = some x) (hp : p < s.hw.cap.paths.length) :
    EndsAt p (s.outStarted p) ((closeOn p false).run s) := by
  have hlast : ∃ y, (s.path p).items.getLast? = some y := by
    rw [State.itemOpenOn] at hx
    obtain ⟨y, hy, -⟩ := Option.bind_eq_some_iff.1 hx
    exact ⟨y, hy⟩
  obtain ⟨y, hy⟩ := hlast
  rw [closeOn, run_get, run_when, if_pos (by rw [hx]; rfl), EndsAt, path_run_self hp]
  dsimp only
  rw [getLast?_lastItem, hy]
  rfl

theorem endItems_ends {p e : Nat} {s : State} (h : EndsAt p e s) : EndsAt p e ((endItems p).run s) := by
  rw [endItems, run_get]
  dsimp only
  rw [run_when]
  split
  next =>
    have hlast (v : Nat) (l : List PathItem) : (Act.all [.setFld (Reg.SFE.PATH_STATUS p) 0 0 v,
        .each l fun x => .event (.itemClose p x.id x.stamp)]).Only { hw := fun f => ∀ h : Hw, (f h).cap = h.cap, reg := fun _ => True } :=
      ⟨(only_setFld _ _ _ _).2 trivial, (only_each _ _).2 fun _ _ _ => rfl, trivial⟩
    rw [run_all_cons]
    refine EndsAt.of_path (congrArg (fun c : CapSt => c.paths.getD p {}) ((hlast _ _).hw (·.cap) (fun _ hf => hf) _)) ?_
    rcases path_run_path p p (fun x => { x with items := (s.path p).items.map fun x => { x with closed := x.closed || s.ended? p x } }) s with ⟨-, h'⟩ | h'
    · rw [EndsAt, h', List.getLast?_map, Option.map_map]
      exact h
    · exact h.of_path h'
  next => exact h

/-- R101: the open item of a path closes with the line begun. -/
theorem closeItem_ends {s : State} {p : Nat} {x : PathItem} (hp16 : p < 16) (hx : s.itemOpenOn p = some x) (hp : p < s.hw.cap.paths.length) :
    EndsAt p (s.outStarted p) ((closeItem p false).run s) := by
  have hrest : (Act.each (s.followers p) fun q => .seq (closeOn q false) (endItems q)).Only (.items (· ≠ p)) :=
    (only_each _ _).2 fun _ hq => ⟨items_closeOn (l := (· ≠ p)) (followers_ne hq) _, items_endItems (followers_lt hp16 hq) (followers_ne hq)⟩
  have h := endItems_ends (closeOn_ends hx hp)
  rw [show (closeItem p false).run s = (Act.each (s.followers p) fun q => .seq (closeOn q false) (endItems q)).run
    ((endItems p).run ((closeOn p false).run s)) from rfl]
  exact h.of_path (hrest.items_path (fun h => h rfl) _)

/-- R102: a closing item that has taken its last line has ended. -/
theorem postLinesDone_effect {s : State} (hs : keysRise s.regs) (p : Fin 16) {x : PathItem} {e : Nat} (hitems : (s.path p).items = [x])
    (hstop : x.stop = some e) (he : e ≤ s.outStarted p) (hclosed : x.closed = false) (hp : p.val < s.hw.cap.paths.length) :
    let t := (postLinesDoneAct p).run s
    t.bit (Reg.SFE.PATH_STATUS p) 0 = false ∧ (t.path p).items.map (·.closed) = [true] ∧
      t.hw.events = s.hw.events ++ [.itemClose p x.id x.stamp] ∧ SameRegs [Reg.SFE.PATH_STATUS p] s t ∧ SameRest s t := by
  have hend : s.ended? p x = true := by simp [State.ended?, hclosed, hstop, he]
  let u := (Act.path p fun q => { q with items := (s.path p).items.map fun x => { x with closed := x.closed || s.ended? p x } }).run s
  have hrun : (postLinesDoneAct p).run s = (Act.event (.itemClose p x.id x.stamp)).run ((Act.setFld (Reg.SFE.PATH_STATUS p) 0 0 0).run u) := by
    rw [postLinesDoneAct, endItems, run_get]
    dsimp only
    rw [run_when, if_pos (by rw [hitems]; simpa using hend), run_all_cons, run_all_cons, run_all_cons, run_all_nil]
    have hfilter : (s.path p).items.filter (s.ended? p) = [x] := by rw [hitems, List.filter_cons, if_pos hend, List.filter_nil]
    have hany : ((s.path p).items.any fun x => !(x.closed || s.ended? p x)) = false := by rw [hitems]; simp [hend]
    rw [hfilter, hany]
    rfl
  have hu : keysRise u.regs := hs
  have hpath : (u.path p).items = (s.path p).items.map fun x => { x with closed := x.closed || s.ended? p x } :=
    congrArg PathSt.items (path_run_self hp _)
  dsimp only
  rw [hrun]
  refine ⟨(bit_setFld hu (by rw [mask_pathStatus]; decide)).trans rfl, ?_, rfl, (quiet_setReg u _ _).regs, ⟨rfl, rfl, rfl, rfl, rfl⟩⟩
  show (u.path p).items.map (·.closed) = _
  rw [hpath, hitems]
  simp [hend]

/-! ### Lines complete (R106, R91) -/

theorem only_showLinesOf {sc : Scope} {p : Nat} (h : sc.reg (Reg.SFE.PATH_STATUS p)) : (showLines p).Only sc := (only_get _).2 fun _ => (only_setFld _ _ _ _).2 h

/-- A path whose oldest line has filled its averaging group. -/
def PathSt.grouped (q : PathSt) (rest : List RawLine) (o : OutLine) : PathSt := { q with cur := rest, group := [], lb := q.lb ++ [o] }

theorem lineComplete_run {s : State} {p : Nat} {l : RawLine} {rest : List RawLine} (hcur : (s.path p).cur = l :: rest) (hready : l.ready = true) :
    (lineCompleteAct p).run s = if (s.path p).group.length + 1 < s.pAvgY p
      then (Act.path p fun q => { q with cur := rest, group := (s.path p).group ++ [l] }).run s
      else (showLines p).run ((Act.path p fun q => q.grouped rest
        (groupLine (s.pAvgX p) (s.pOut p) s.freeCtr (s.pFmt p) ((s.path p).group ++ [l]))).run s.useFree) := by
  rw [lineCompleteAct, run_get]
  dsimp only
  rw [hcur]
  dsimp only
  rw [run_when, if_pos hready]
  simp only [List.length_append, List.length_singleton]
  split
  · rfl
  · rfl

theorem lineComplete_effect {s : State} (p : Fin 16) {l : RawLine} {rest : List RawLine} (hcur : (s.path p).cur = l :: rest) (hready : l.ready = true)
    (hp : p.val < s.hw.cap.paths.length) :
    let t := (lineCompleteAct p).run s
    (t.path p).cur = rest ∧
      (s.pAvgY p ≤ (s.path p).group.length + 1 → (t.path p).lb.length = (s.path p).lb.length + 1 ∧ (t.path p).group = []) ∧
      ((s.path p).group.length + 1 < s.pAvgY p → (t.path p).group = (s.path p).group ++ [l] ∧ (t.path p).lb = (s.path p).lb) ∧
      SameRegs [Reg.SFE.PATH_STATUS p] s t ∧ SameRest s t := by
  dsimp only
  rw [lineComplete_run hcur hready]
  split
  next h =>
    rw [path_run_self hp]
    exact ⟨rfl, fun h' => absurd h (Nat.not_lt.2 h'), fun _ => ⟨rfl, rfl⟩, fun _ _ => rfl, ⟨rfl, rfl, rfl, rfl, rfl⟩⟩
  next h =>
    have hshow : (showLines p).Only { reg := (· ∈ [Reg.SFE.PATH_STATUS p]), hw := fun f => ∀ h : Hw, (f h).cap = h.cap } := only_showLinesOf (by simp)
    generalize groupLine (s.pAvgX p) (s.pOut p) s.freeCtr (s.pFmt p) ((s.path p).group ++ [l]) = o
    let u := (Act.path p fun q => q.grouped rest o).run s.useFree
    have hpath : ((showLines p).run u).path p = (s.path p).grouped rest o :=
      (congrArg (fun c : CapSt => c.paths.getD p {}) (hshow.hw (·.cap) (fun _ hf => hf) u)).trans (path_run_self (s := s.useFree) hp _)
    rw [show (Act.path p fun q => q.grouped rest o).run s.useFree = u from rfl, hpath]
    exact ⟨rfl, fun _ => ⟨by simp [PathSt.grouped], rfl⟩, fun h' => absurd h' h, hshow.sameRegs (fun h => h) (fun _ h => h) u,
      (show SameRest s u from ⟨rfl, rfl, rfl, rfl, rfl⟩).trans (hshow.sameRest (fun h => h) (fun h => h) (fun h => h) (fun h => h) (fun h => h) u)⟩

/-! ### Units go out (R108 to R110) -/

/-- What a write of the device does, in any scope that has memory and the refusal of R497. -/
theorem only_guarded {p : Scope} (hm : p.mem) (hr : ∀ r ∈ [Reg.CMP.AUTH_REFUSE, Reg.HDR.IRQ_PEND .CMP 0, Reg.HDR.IRQ_MASK .CMP 0], p.reg r)
    (hh : ∀ f : Hw → Hw, (∀ h, (f h).cap = h.cap) → p.hw f) (cls a : Nat) (l : List Byte) : (Act.guarded cls a l).Only p := by
  have hraise : (Act.raise .CMP 0 4).Only p := only_raise (hr _ (by simp)) (hr _ (by simp)) fun _ => hh _ fun _ => rfl
  simp only [Act.guarded, only_get, only_ite, Act.c2Refuse, only_seq, only_bump, only_bytes, ringMove, only_when, only_hw]
  exact fun s => ⟨fun _ => ⟨hr _ (by simp), hraise⟩, fun _ => ⟨hm, fun _ => hh _ fun _ => rfl, fun _ => hh _ fun _ => rfl⟩⟩

/-- The registers of a refused write (R497). -/
def refusal : List RegRef := [Reg.CMP.AUTH_REFUSE, Reg.HDR.IRQ_PEND .CMP 0, Reg.HDR.IRQ_MASK .CMP 0]

/-- What publishing a unit of path `p` changes. -/
def Scope.publishing (p : Nat) : Scope :=
  { reg := fun r => r = Reg.SFE.DEST_TAIL p ∨ r ∈ refusal, mem := True, poison := True, hw := fun f => ∀ h : Hw, (f h).cap = h.cap }

theorem publishing_guarded (p cls a : Nat) (l : List Byte) : (Act.guarded cls a l).Only (.publishing p) :=
  only_guarded (p := .publishing p) trivial (fun _ hr => Or.inr hr) (fun _ hf => hf) _ _ _

theorem publishing_pathPublish (p : Nat) (u : DUnit) : (pathPublish p u).Only (.publishing p) :=
  (only_get _).2 fun _ => ⟨publishing_guarded _ _ _ _, (only_wrN _ _).2 (.inl rfl), trivial, fun _ => rfl, fun _ => rfl, trivial⟩

theorem publishing_publish (p n : Nat) (u : DUnit) : (Act.publish n u).Only (.publishing p) :=
  (only_get _).2 fun _ => ⟨publishing_guarded _ _ _ _, trivial, fun _ => rfl, fun _ => rfl, trivial⟩

theorem publishing_deliverUnit (p : Nat) (x : PathItem) (flags : List Nat) (lines : List OutLine) : (deliverUnit p x flags lines).Only (.publishing p) :=
  (only_get _).2 fun _ => ⟨publishing_pathPublish _ _, (only_when _ _).2 fun _ => publishing_publish _ _ _⟩

theorem Act.Only.publishing_path {a : Act} {p : Nat} (h : a.Only (.publishing p)) (s : State) (q : Nat) : (a.run s).path q = s.path q :=
  congrArg (fun c : CapSt => c.paths.getD q {}) (h.hw (·.cap) (fun _ hf => hf) s)

/-- A register of the SFE page beside DEST_TAIL stays. -/
theorem Act.Only.publishing_rd {a : Act} {p off : Nat} (h : a.Only (.publishing p)) (ho : off < 4096) (hne : off ≠ 0x12C + 0x40 * p) (s : State) :
    (a.run s).rd ⟨.SFE, 0, off⟩ = s.rd ⟨.SFE, 0, off⟩ := by
  refine h.rd (fun h => h) (fun r hr => ?_) s
  rcases hr with rfl | hr
  · simp only [RegRef.key]
    omega
  · simp only [refusal, List.mem_cons, List.not_mem_nil, or_false] at hr
    rcases hr with rfl | rfl | rfl
    · simp only [RegRef.key, Blk.slot]; omega
    · simp only [RegRef.key, Blk.slot]; omega
    · simp only [RegRef.key, Blk.slot]; omega

theorem Act.Only.publishing_stores {a : Act} {p : Nat} (h : a.Only (.publishing p)) (s : State) :
    (a.run s).es = s.es ∧ (a.run s).tsc = s.tsc ∧ (a.run s).out = s.out := ⟨h.es (fun h => h) s, h.tsc (fun h => h) s, h.out (fun h => h) s⟩

theorem pathPublish_tail {s : State} (hs : keysRise s.regs) (p : Nat) (u : DUnit) : ((pathPublish p u).run s).rd (Reg.SFE.DEST_TAIL p) =
    BitVec.ofNat 32 (nextSlot (s.rd (Reg.SFE.DEST_TAIL p)).toNat (s.pSlots p)) &&& RegRef.mask (Reg.SFE.DEST_TAIL p) := by
  let v := s.finish (s.fld (Reg.SFE.PATH_STREAM p) 8 0) u
  let a : Act := .guarded v.cls.toNat ((s.rd (Reg.SFE.DEST_BASE p)).toNat + (s.rd (Reg.SFE.DEST_TAIL p)).toNat * s.fld (Reg.SFE.DEST_CFG p) 31 16 * 1024) v.toBytes
  have hu : keysRise (a.run s).regs := rise_run _ hs
  have hrest (n : Nat) (f : StreamSt → StreamSt) (e : Event) (m k : Nat) : (Act.all [.mem m 4 k, .stream n f, .event e]).Only { mem := True } :=
    ⟨(only_mem _ _ _).2 trivial, trivial, trivial, trivial⟩
  rw [pathPublish, run_get]
  dsimp only
  rw [run_all_cons, run_all_cons]
  refine ((hrest _ _ _ _ _).rd (fun h => h) (fun _ h => h.elim) _).trans ?_
  exact rd_setReg_same hu _ _

/-- The item's close shown and told. -/
def lastUnit (p : Nat) (b : Bool) (v : Nat) (e : Event) : Act := .when b (.seq (.setFld (Reg.SFE.PATH_STATUS p) 0 0 v) (.event e))

theorem deliverDue_run {s : State} {p : Nat} (hroom : s.pRoom p = true) (x : PathItem) (d : Due) :
    ∃ flags lines b v e, ∃ f : PathSt → PathSt, (d.last = true → ∀ q, (f q).items = q.items.drop 1) ∧
      (d.last = false → ∀ q, (f q).items.head?.map (·.next) = some (x.next + d.n)) ∧
      (deliverDue p x d).run s = (showLines p).run ((Act.path p f).run ((lastUnit p b v e).run ((Act.setFld (Reg.SFE.PATH_STATUS p) 1 1 0).run
        ((deliverUnit p x flags lines).run s)))) := by
  rw [deliverDue, run_get]
  dsimp only
  rw [if_neg (by rw [hroom]; decide)]
  simp only [run_all_cons, run_all_nil]
  refine ⟨_, _, _, _, _, _, ?_, ?_, rfl⟩
  · intro h q
    rw [h]
    rfl
  · intro h q
    rw [h]
    rfl

theorem deliverDue_full {s : State} {p : Nat} (hroom : s.pRoom p = false) (x : PathItem) (d : Due) :
    (deliverDue p x d).run s = (Act.setFld (Reg.SFE.PATH_STATUS p) 1 1 1).run s := by
  rw [deliverDue, run_get]
  dsimp only
  rw [if_pos (by rw [hroom]; rfl)]

/-- A unit due, or its wait, leaves the engine stores, the counter and what has left the block. -/
theorem deliverDue_stores (p : Nat) (x : PathItem) (d : Due) (s : State) : let t := (deliverDue p x d).run s
    t.es = s.es ∧ t.tsc = s.tsc ∧ t.out = s.out := by
  have h : (deliverDue p x d).Only { reg := fun _ => True, mem := True, poison := True } := by
    refine (only_get _).2 fun s => (only_ite _ _ _).2 ⟨fun _ => (only_setFld _ _ _ _).2 trivial, fun _ => ⟨?_, (only_setFld _ _ _ _).2 trivial,
      (only_when _ _).2 fun _ => ⟨(only_setFld _ _ _ _).2 trivial, trivial⟩, trivial, only_showLinesOf trivial, trivial⟩⟩
    exact (publishing_deliverUnit _ _ _ _).weaken (fun _ _ => trivial) (fun _ _ => trivial)
  exact ⟨h.es (fun h => h) s, h.tsc (fun h => h) s, h.out (fun h => h) s⟩

theorem deliverDue_effect {s : State} (hs : keysRise s.regs) (p : Fin 16) {x : PathItem} {items : List PathItem} (hitems : (s.path p).items = x :: items)
    (d : Due) (hp : p.val < s.hw.cap.paths.length) (hroom : s.pRoom p = true) :
    let t := (deliverDue p x d).run s
    t.rd (Reg.SFE.DEST_TAIL p) = BitVec.ofNat 32 (nextSlot (s.rd (Reg.SFE.DEST_TAIL p)).toNat (s.pSlots p)) &&& RegRef.mask (Reg.SFE.DEST_TAIL p) ∧
      t.bit (Reg.SFE.PATH_STATUS p) 1 = false ∧ (d.last = true → (t.path p).items = items) ∧
      (d.last = false → (t.path p).items.head?.map (·.next) = some (x.next + d.n)) := by
  obtain ⟨flags, lines, b, v, e, f, hlast, hmore, hrun⟩ := deliverDue_run hroom x d
  have hunit := publishing_deliverUnit p x flags lines
  have htail : ((deliverUnit p x flags lines).run s).rd (Reg.SFE.DEST_TAIL p) =
      BitVec.ofNat 32 (nextSlot (s.rd (Reg.SFE.DEST_TAIL p)).toNat (s.pSlots p)) &&& RegRef.mask (Reg.SFE.DEST_TAIL p) := by
    rw [deliverUnit, run_get, run_seq]
    refine Eq.trans ?_ (pathPublish_tail hs p (s.bandUnit p x flags lines))
    have hpub : (Act.when (s.bit (Reg.SFE.PATH_CTRL p) 25) (.publish (s.fld (Reg.SFE.PATH_STREAM p) 17 9) (s.tagUnit p x flags lines))).Only
        { reg := (· ∈ refusal), mem := True, poison := True } :=
      (only_when _ _).2 fun _ => (only_get _).2 fun _ =>
        ⟨only_guarded trivial (fun _ h => h) (fun _ _ => trivial) _ _ _, (only_mem _ _ _).2 trivial, trivial, trivial, trivial⟩
    refine hpub.rd (fun h => h) (fun r hr => ?_) _
    simp only [refusal, List.mem_cons, List.not_mem_nil, or_false] at hr
    rcases hr with rfl | rfl | rfl
    · simp only [RegRef.key, Blk.slot]; omega
    · simp only [RegRef.key, Blk.slot]; omega
    · simp only [RegRef.key, Blk.slot]; omega
  have hpath := hunit.publishing_path s p
  have hlen : ((deliverUnit p x flags lines).run s).hw.cap = s.hw.cap := hunit.hw (·.cap) (fun _ hf => hf) s
  have hu : keysRise ((deliverUnit p x flags lines).run s).regs := rise_run _ hs
  dsimp only
  rw [hrun]
  generalize (deliverUnit p x flags lines).run s = u at *
  let clear := (Act.setFld (Reg.SFE.PATH_STATUS p) 1 1 0).run u
  have hv : keysRise clear.regs := rise_run _ hu
  have hbit : clear.bit (Reg.SFE.PATH_STATUS p) 1 = false := (bit_setFld hu (by rw [mask_pathStatus]; decide)).trans rfl
  have hw1 : (lastUnit p b v e).Only { reg := (· = Reg.SFE.PATH_STATUS p), hw := fun f => ∀ h : Hw, (f h).cap = h.cap } :=
    (only_when _ _).2 fun _ => ⟨(only_setFld _ _ _ _).2 rfl, fun _ => rfl⟩
  have hw2 : (showLines p).Only { reg := (· = Reg.SFE.PATH_STATUS p), hw := fun f => ∀ h : Hw, (f h).cap = h.cap } := only_showLinesOf rfl
  have htail_ne (r : RegRef) (hr : r = Reg.SFE.PATH_STATUS p) : r.key ≠ (Reg.SFE.DEST_TAIL p).key := by
    rw [hr]
    simp only [RegRef.key]
    omega
  have hkeep1 : (lastUnit p b v e).Keeps fun s => s.bit (Reg.SFE.PATH_STATUS p) 1 :=
    .when fun _ => .seq (keeps_bit_setFld (by omega) (by rw [mask_pathStatus]; decide)) fun _ _ => rfl
  have hkeep2 : (showLines p).Keeps fun s => s.bit (Reg.SFE.PATH_STATUS p) 1 := .get fun _ => keeps_bit_setFld (by omega) (by rw [mask_pathStatus]; decide)
  have hcap1 : ((lastUnit p b v e).run clear).hw.cap = s.hw.cap := (hw1.hw (·.cap) (fun _ hf => hf) clear).trans hlen
  have hx : keysRise ((lastUnit p b v e).run clear).regs := rise_run _ hv
  have hbit1 : ((lastUnit p b v e).run clear).bit (Reg.SFE.PATH_STATUS p) 1 = false := (hkeep1 clear hv).trans hbit
  have htail1 : ((lastUnit p b v e).run clear).rd (Reg.SFE.DEST_TAIL p) = u.rd (Reg.SFE.DEST_TAIL p) :=
    (hw1.rd (fun h => h) htail_ne clear).trans (rd_setReg_ne _ (htail_ne _ rfl))
  generalize (lastUnit p b v e).run clear = w at *
  let moved := (Act.path p f).run w
  have hmoved : moved.path p = f (s.path p) := by
    refine (path_run_self (by rw [hcap1]; exact hp) f).trans (congrArg f ?_)
    rw [State.path, State.path, hcap1]
  have hfin : ((showLines p).run moved).path p = f (s.path p) :=
    (congrArg (fun c : CapSt => c.paths.getD p {}) (hw2.hw (·.cap) (fun _ hf => hf) moved)).trans hmoved
  refine ⟨(hw2.rd (fun h => h) htail_ne moved).trans (htail1.trans htail), (hkeep2 moved hx).trans hbit1, fun h => ?_, fun h => ?_⟩
  · rw [show (showLines p).run ((Act.path p f).run w) = (showLines p).run moved from rfl, hfin, hlast h, hitems]
    rfl
  · rw [show (showLines p).run ((Act.path p f).run w) = (showLines p).run moved from rfl, hfin, hmore h]

/-- R108: a unit that is due at once. -/
theorem bandDeliver_run {s : State} {p : Nat} {x : PathItem} {items : List PathItem} {d : Due} (hwait : (s.path p).waiting = [])
    (hitems : (s.path p).items = x :: items) (hdue : x.dueNow ((s.path p).lbFirst + (s.path p).lb.length) (s.pBand p) = some d) :
    (bandDeliverAct p).run s = (deliverDue p x d).run s := by
  rw [bandDeliverAct, run_get]
  dsimp only
  rw [hwait, hitems]
  dsimp only
  rw [hdue]

/-- R108, R109: the wait of a band is over. -/
theorem pathWait_run {s : State} {p : Nat} {x : PathItem} {items : List PathItem} {t0 : Nat} (hwait : (s.path p).waiting = [])
    (hitems : (s.path p).items = x :: items) (hdue : x.dueNow ((s.path p).lbFirst + (s.path p).lb.length) (s.pBand p) = none)
    (hfrom : (s.path p).waitFrom = some t0 ∨ (s.path p).waitFrom = none ∧ s.requestTime p x = some t0)
    (ht : t0 + (s.rd (Reg.SFE.PATH_WAIT p)).toNat % 65536 * 1000 ≤ s.now) :
    (pathWaitExpiryAct p).run s = if (s.path p).lbFirst + (s.path p).lb.length - x.next = 0
      then (Act.path p fun q => { q with waitFrom := some s.now }).run s
      else (deliverDue p x ⟨(s.path p).lbFirst + (s.path p).lb.length - x.next, false, true, x.invalid⟩).run s := by
  rw [pathWaitExpiryAct, run_get]
  dsimp only
  rw [hwait, if_neg (by simp), hitems]
  dsimp only
  rw [hdue]
  dsimp only
  rcases hfrom with h | ⟨h, h'⟩
  · rw [h]
    dsimp only
    rw [run_when, if_pos (decide_eq_true ht)]
    split <;> rfl
  · rw [h, h']
    dsimp only
    rw [run_when, if_pos (decide_eq_true ht)]
    split <;> rfl

/-! ### Gates (R101) -/

/-- A path that takes its items from a gate follows no other. -/
theorem followers_src {s : State} {p q : Nat} (h : q ∈ s.followers p) : s.pItemSrc q = 1 := by
  have key : ∀ (k : Nat) (l : List Nat), ∃ r, s.growFollowers k l = l ++ r ∧ ∀ x ∈ r, s.pItemSrc x = 1 := by
    intro k
    induction k with
    | zero => exact fun l => ⟨[], (List.append_nil l).symm, fun x hx => absurd hx List.not_mem_nil⟩
    | succ k ih =>
      intro l
      have hm : ∀ x ∈ (List.range 16).filter fun q => !l.contains q && s.followsOne l q, s.pItemSrc x = 1 := fun x hx => by
        have hx' := (List.mem_filter.1 hx).2
        simp only [State.followsOne, Bool.and_eq_true, beq_iff_eq] at hx'
        exact hx'.2.1.2
      rw [State.growFollowers]
      generalize (List.range 16).filter _ = m at hm
      cases m with
      | nil => exact ⟨[], (List.append_nil l).symm, fun x hx => absurd hx List.not_mem_nil⟩
      | cons y m =>
        obtain ⟨r, hr, hsrc⟩ := ih (l ++ y :: m)
        exact ⟨(y :: m) ++ r, hr.trans (List.append_assoc _ _ _), fun x hx => (List.mem_append.1 hx).elim (hm x) (hsrc x)⟩
  obtain ⟨r, hr, hsrc⟩ := key 15 [p]
  rw [State.followers, hr] at h
  exact hsrc q h

/-- What path `p`'s own configuration and state are made of, as the gates' programs read them. -/
structure SamePath (p : Nat) (s t : State) : Prop where
  rise : keysRise t.regs
  ctrl : ∀ q, t.rd (Reg.SFE.PATH_CTRL q) = s.rd (Reg.SFE.PATH_CTRL q)
  sfe  : t.rd Reg.SFE.SFE_CTRL = s.rd Reg.SFE.SFE_CTRL
  item : t.rd (Reg.SFE.PATH_ITEM p) = s.rd (Reg.SFE.PATH_ITEM p)
  path : t.path p = s.path p

/-- Opening or closing items on other paths leaves path `p` as it is. -/
theorem SamePath.run {p : Nat} {s t : State} (h : SamePath p s t) {a : Act} (ha : a.Only (.items (· ≠ p))) : SamePath p s (a.run t) where
  rise := rise_run a h.rise
  ctrl := fun q => (ha.items_rd_off (by intro q'; omega) t).trans (h.ctrl q)
  sfe := (ha.items_rd_off (by intro q'; omega) t).trans h.sfe
  item := (ha.items_rd_off (by intro q'; omega) t).trans h.item
  path := (ha.items_path (fun h => h rfl) t).trans h.path

namespace SamePath
variable {p : Nat} {s t : State} (h : SamePath p s t)
include h

theorem on (q : Nat) : t.pathOn q = s.pathOn q := by rw [State.pathOn, State.pathOn, State.bit, State.bit, State.bit, State.bit, h.sfe, h.ctrl]
theorem src (q : Nat) : t.pItemSrc q = s.pItemSrc q := by rw [State.pItemSrc, State.pItemSrc, State.fld, State.fld, h.ctrl]
theorem open_ : t.itemOpenOn p = s.itemOpenOn p := by rw [State.itemOpenOn, State.itemOpenOn, h.path]
end SamePath

/-- What a gate's edge does at one path. -/
def gateAt (s : State) (level : Bool) (p : Nat) : Act := if level != s.bit (Reg.SFE.PATH_ITEM p) 28 then openNew p true else closeItem p true

/-- A path with items of its own source follows nothing: openings and closings elsewhere do not touch it. -/
theorem others_followers {p q : Nat} {s t : State} (h : SamePath p s t) (hsrc : s.pItemSrc p ≠ 1) : ∀ x ∈ t.followers q, x ≠ p := fun x hx he =>
  hsrc (by rw [← h.src, ← he]; exact followers_src hx)

theorem openNew_other {p q : Nat} {s t : State} (h : SamePath p s t) (hsrc : s.pItemSrc p ≠ 1) (hq : q < 16) (hne : q ≠ p) (pre : Bool) :
    SamePath p s ((openNew q pre).run t) ∧ ((openNew q pre).run t).rd (Reg.SFE.PATH_STATUS p) = t.rd (Reg.SFE.PATH_STATUS p) := by
  by_cases hb : t.pathOn q = true ∧ t.itemOpenOn q = none
  · have hfirst : (openOn q t.newItemId pre none).Only (.items (· ≠ p)) := items_openOn hq hne _ _ _
    have hrest : (Act.each (t.followers q) fun q => openOn q t.newItemId pre none).Only (.items (· ≠ p)) :=
      (only_each _ _).2 fun x hx => items_openOn (l := (· ≠ p)) (followers_lt hq hx) (others_followers h hsrc x hx) _ _ _
    let u := (Act.cap fun c => { c with itemSeq := c.itemSeq + 1 }).run t
    have hu : SamePath p s u := ⟨h.rise, h.ctrl, h.sfe, h.item, h.path⟩
    rw [openNew_run hb.1 hb.2]
    exact ⟨(hu.run hfirst).run hrest, (hrest.items_status (fun h => h rfl) _).trans (hfirst.items_status (fun h => h rfl) u)⟩
  · have hskip : (openNew q pre).run t = t := by
      rw [openNew, run_get, run_when, if_neg]
      intro h'
      simp only [Bool.and_eq_true, Option.isNone_iff_eq_none] at h'
      exact hb h'
    rw [hskip]
    exact ⟨h, rfl⟩

theorem closeItem_other {p q : Nat} {s t : State} (h : SamePath p s t) (hsrc : s.pItemSrc p ≠ 1) (hq : q < 16) (hne : q ≠ p) (post : Bool) :
    SamePath p s ((closeItem q post).run t) ∧ ((closeItem q post).run t).rd (Reg.SFE.PATH_STATUS p) = t.rd (Reg.SFE.PATH_STATUS p) := by
  have ha : (Act.each (q :: t.followers q) fun q => .seq (closeOn q post) (endItems q)).Only (.items (· ≠ p)) := by
    refine (only_each _ _).2 fun x hx => ?_
    rcases List.mem_cons.1 hx with rfl | hx
    · exact ⟨items_closeOn (l := (· ≠ p)) hne _, items_endItems hq hne⟩
    · have hx' := others_followers h hsrc x hx
      exact ⟨items_closeOn (l := (· ≠ p)) hx' _, items_endItems (followers_lt hq hx) hx'⟩
  rw [show (closeItem q post).run t = (Act.each (q :: t.followers q) fun q => .seq (closeOn q post) (endItems q)).run t from rfl]
  exact ⟨h.run ha, ha.items_status (fun h => h rfl) t⟩

theorem gateAt_other {p q : Nat} {s t : State} (h : SamePath p s t) (hsrc : s.pItemSrc p ≠ 1) (hq : q < 16) (hne : q ≠ p) (r : State) (level : Bool) :
    SamePath p s ((gateAt r level q).run t) ∧ ((gateAt r level q).run t).rd (Reg.SFE.PATH_STATUS p) = t.rd (Reg.SFE.PATH_STATUS p) := by
  unfold gateAt
  split
  · exact openNew_other h hsrc hq hne true
  · exact closeItem_other h hsrc hq hne true

theorem gates_others {p : Nat} {s : State} (hsrc : s.pItemSrc p ≠ 1) (r : State) (level : Bool) (l : List Nat) (hl : ∀ q ∈ l, q < 16 ∧ q ≠ p)
    {t : State} (h : SamePath p s t) :
    SamePath p s ((Act.each l (gateAt r level)).run t) ∧ ((Act.each l (gateAt r level)).run t).rd (Reg.SFE.PATH_STATUS p) = t.rd (Reg.SFE.PATH_STATUS p) := by
  induction l generalizing t with
  | nil => exact ⟨h, rfl⟩
  | cons q l ih =>
    have hq := hl q List.mem_cons_self
    obtain ⟨h1, h2⟩ := gateAt_other h hsrc hq.1 hq.2 r level
    obtain ⟨h3, h4⟩ := ih (fun x hx => hl x (List.mem_cons_of_mem _ hx)) h1
    exact ⟨h3, h4.trans h2⟩

/-- Items open and close anywhere: the gates' levels stay. -/
def Scope.gated : Scope := { reg := fun r => ∃ q < 16, r = Reg.SFE.PATH_STATUS q, hw := fun f => ∀ h : Hw, (f h).cap.gates = h.cap.gates }

theorem items_openNew {p : Nat} (hp : p < 16) (pre : Bool) : (openNew p pre).Only .gated :=
  (only_get _).2 fun _ => (only_when _ _).2 fun _ => ⟨fun _ => rfl,
    (items_openItem (l := fun _ => True) hp trivial (fun _ _ _ => trivial) _ _ _).weaken (fun _ ⟨q, hq, _, he⟩ => ⟨q, hq, he⟩) (fun _ hf h => (hf h).2.1)⟩

theorem only_gateAt {s : State} {level : Bool} {p : Nat} (hp : p < 16) : (gateAt s level p).Only .gated := by
  unfold gateAt
  split
  · exact items_openNew hp true
  · exact (items_closeItem (l := fun _ => True) hp trivial (fun _ _ _ => trivial) _).weaken (fun _ ⟨q, hq, _, he⟩ => ⟨q, hq, he⟩) (fun _ hf h => (hf h).2.1)

theorem gateEdge_run {s : State} {gate : Nat} {level : Bool} (h : s.hw.cap.gates.getLsbD gate ≠ level) : ∃ l, (gateEdgeAct gate level).run s =
    (Act.each l (gateAt s level)).run ((Act.cap fun c => { c with gates := putBit c.gates gate level }).run s) ∧
      l = (List.range 16).filter fun p => s.pathOn p && s.pItemSrc p == 0 && s.fld (Reg.SFE.PATH_ITEM p) 27 24 == gate := by
  rw [gateEdgeAct, run_get, run_when, if_pos (by simpa using h)]
  exact ⟨_, rfl, rfl⟩

theorem gateEdge_effect {s : State} (hs : keysRise s.regs) (gate : Fin 16) {level : Bool} (h : s.hw.cap.gates.getLsbD gate ≠ level) :
    let t := (gateEdgeAct gate level).run s
    t.hw.cap.gates.getLsbD gate = level ∧
      (∀ p < 16, s.pathOn p = true → s.pItemSrc p = 0 → s.fld (Reg.SFE.PATH_ITEM p) 27 24 = gate.val → s.itemOpenOn p = none →
        level ≠ s.bit (Reg.SFE.PATH_ITEM p) 28 → t.bit (Reg.SFE.PATH_STATUS p) 0 = true) ∧ SameRest s t := by
  let u := (Act.cap fun c => { c with gates := putBit c.gates gate level }).run s
  obtain ⟨l, hrun, hl⟩ := gateEdge_run h
  have h16 (q : Nat) (hq : q ∈ l) : q < 16 := by
    rw [hl] at hq
    exact List.mem_range.1 (List.mem_filter.1 hq).1
  have honly : (Act.each l (gateAt s level)).Only .gated := (only_each _ _).2 fun q hq => only_gateAt (h16 q hq)
  have hgate : u.hw.cap.gates.getLsbD gate = level := by
    show (putBit s.hw.cap.gates gate level).getLsbD gate = level
    cases level with
    | true => rw [getLsbD_putBit_true _ gate.isLt, decide_eq_true rfl, Bool.or_true]
    | false => exact getLsbD_putBit_false _
  dsimp only
  rw [hrun]
  refine ⟨(congrArg (BitVec.getLsbD · gate) (honly.hw (·.cap.gates) (fun _ hf => hf) u)).trans hgate, fun p hp hon hsrc hgate' hnone hlevel => ?_,
    (show SameRest s u from ⟨rfl, rfl, rfl, rfl, rfl⟩).trans (honly.sameRest (fun h => h) (fun h => h) (fun h => h) (fun h => h) (fun h => h) u)⟩
  have hmem : p ∈ l := by
    rw [hl]
    exact List.mem_filter.2 ⟨List.mem_range.2 hp, by simp [hon, hsrc, hgate']⟩
  have hnodup : l.Nodup := by rw [hl]; exact List.nodup_range.filter _
  obtain ⟨l1, l2, rfl⟩ := List.append_of_mem hmem
  have hne1 : ∀ q ∈ l1, q < 16 ∧ q ≠ p := fun q hq => ⟨h16 q (by simp [hq]), fun e => (List.nodup_append.1 hnodup).2.2 q hq p List.mem_cons_self e⟩
  have hne2 : ∀ q ∈ l2, q < 16 ∧ q ≠ p := fun q hq =>
    ⟨h16 q (by simp [hq]), fun e => (List.nodup_cons.1 (List.nodup_append.1 hnodup).2.1).1 (e ▸ hq)⟩
  have hsrc1 : s.pItemSrc p ≠ 1 := by omega
  have hu : SamePath p s u := ⟨hs, fun _ => rfl, rfl, rfl, rfl⟩
  obtain ⟨h1, -⟩ := gates_others hsrc1 s level l1 hne1 hu
  rw [run_each_append, show ∀ v, (Act.each (p :: l2) (gateAt s level)).run v = (Act.each l2 (gateAt s level)).run ((gateAt s level p).run v) from fun _ => rfl,
    show gateAt s level p = openNew p true by unfold gateAt; rw [if_pos (by simpa using hlevel)]]
  generalize (Act.each l1 (gateAt s level)).run u = v at *
  have hopen := (openNew_effect h1.rise ⟨p, hp⟩ (by rw [h1.on]; exact hon) (by rw [h1.open_]; exact hnone) true).1
  have hself : SamePath p ((openNew p true).run v) ((openNew p true).run v) := ⟨rise_run _ h1.rise, fun _ => rfl, rfl, rfl, rfl⟩
  have hsrc2 : ((openNew p true).run v).pItemSrc p ≠ 1 := by
    have hrd : ((openNew p true).run v).rd (Reg.SFE.PATH_CTRL p) = v.rd (Reg.SFE.PATH_CTRL p) :=
      (items_openNew hp true).rd (fun h => h) (fun r ⟨q, hq, he⟩ => by rw [he]; simp only [RegRef.key]; omega) v
    rw [State.pItemSrc, State.fld, hrd, h1.ctrl]
    exact hsrc1
  exact (bit_of_rd (gates_others hsrc2 s level l2 hne2 hself).2 0).trans hopen

/-! ### A path enabled and disabled (R99, R105) -/

/-- Nothing of the paths, no register. -/
def Scope.beside : Scope := { hw := fun f => ∀ h : Hw, (f h).cap.paths = h.cap.paths }

theorem beside_settleTimers : (Act.each (List.range 8) settleTimer).Only .beside := by
  refine (only_each _ _).2 fun n _ => (only_get _).2 fun _ => (only_ite _ _ _).2 ⟨fun _ => fun _ => rfl, fun _ => (only_when _ _).2 fun _ => fun _ => rfl⟩

theorem Act.Only.beside_path {a : Act} (h : a.Only .beside) (s : State) (p : Nat) : (a.run s).path p = s.path p :=
  congrArg (fun l : List PathSt => l.getD p {}) (h.hw (·.cap.paths) (fun _ hf => hf) s)

theorem Act.Only.beside_rd {a : Act} (h : a.Only .beside) (s : State) (r : RegRef) : (a.run s).rd r = s.rd r :=
  rd_of_regs (h.regs_eq (fun _ h => h) (fun h => h) s) r

/-- The two registers that enabling and disabling set. -/
def pathShown (p n : Nat) : Act := .seq (.wr (Reg.SFE.PATH_STATUS p) 0) (.wrN Reg.SFE.INGEST_ALLOC n)

theorem pathShown_effect {s : State} (hs : keysRise s.regs) (p n : Nat) :
    let t := (pathShown p n).run s
    t.rd (Reg.SFE.PATH_STATUS p) = 0 ∧ t.rd Reg.SFE.INGEST_ALLOC = BitVec.ofNat 32 n &&& RegRef.mask Reg.SFE.INGEST_ALLOC ∧
      t.rd (Reg.SFE.PATH_CTRL p) = s.rd (Reg.SFE.PATH_CTRL p) ∧ t.hw = s.hw ∧ SameRest s t := by
  let u := (Act.wr (Reg.SFE.PATH_STATUS p) 0).run s
  have hu : keysRise u.regs := rise_run _ hs
  refine ⟨?_, rd_setReg_same hu _ _, ?_, rfl, ⟨rfl, rfl, rfl, rfl, rfl⟩⟩
  · refine (rd_setReg_ne (s := u) _ (by simp only [RegRef.key]; omega)).trans ((rd_setReg_same hs _ _).trans BitVec.zero_and)
  · exact (rd_setReg_ne (s := u) _ (by simp only [RegRef.key]; omega)).trans (rd_setReg_ne _ (by simp only [RegRef.key]; omega))

theorem pathEnable_run (s : State) (p : Nat) : ∃ first : Act, first.Only .beside ∧ (pathEnableAct p).run s =
    (Act.each (List.range 8) settleTimer).run ((pathShown p (s.rateSum p true)).run ((Act.path p fun q => { waiting := q.waiting }).run (first.run s))) := by
  refine ⟨.seq (.openStream (s.fld (Reg.SFE.PATH_STREAM p) 8 0)) (.when (s.bit (Reg.SFE.PATH_CTRL p) 25) (.openStream (s.fld (Reg.SFE.PATH_STREAM p) 17 9))),
    ⟨?_, (only_when _ _).2 fun _ => ?_⟩, rfl⟩
  · exact (only_get _).2 fun _ => ⟨fun _ => rfl, fun _ => rfl⟩
  · exact (only_get _).2 fun _ => ⟨fun _ => rfl, fun _ => rfl⟩

/-- A path afresh has no item. -/
theorem path_fresh (p : Nat) (f : PathSt → PathSt) (hf : ∀ q, (f q).items = []) (s : State) : (((Act.path p f).run s).path p).items = [] := by
  have h : ((Act.path p f).run s).path p = if p < s.hw.cap.paths.length then f (s.path p) else {} := getD_updAt f {} p s.hw.cap.paths
  rw [h]
  split
  · exact hf _
  · rfl

theorem pathEnable_effect {s : State} (hs : keysRise s.regs) (p : Nat) :
    let t := (pathEnableAct p).run s
    t.rd (Reg.SFE.PATH_STATUS p) = 0 ∧ t.rd Reg.SFE.INGEST_ALLOC = BitVec.ofNat 32 (s.rateSum p true) &&& RegRef.mask Reg.SFE.INGEST_ALLOC ∧
      t.rd (Reg.SFE.PATH_CTRL p) = s.rd (Reg.SFE.PATH_CTRL p) ∧ (t.path p).items = [] ∧ SameRest s t := by
  obtain ⟨first, hfirst, hrun⟩ := pathEnable_run s p
  have hsame := hfirst.sameRest (fun h => h) (fun h => h) (fun h => h) (fun h => h) (fun h => h) s
  have hctrl := hfirst.beside_rd s (Reg.SFE.PATH_CTRL p)
  have hu : keysRise (first.run s).regs := rise_run _ hs
  dsimp only
  rw [hrun]
  generalize first.run s = u at *
  let v := (Act.path p fun q => { waiting := q.waiting }).run u
  have hv : keysRise v.regs := hu
  have hitems : (v.path p).items = [] := path_fresh p _ (fun _ => rfl) u
  obtain ⟨h1, h2, h3, h4, h5⟩ := pathShown_effect hv p (s.rateSum p true)
  have hpath : (((pathShown p (s.rateSum p true)).run v).path p).items = [] := by rw [State.path, h4]; exact hitems
  rw [show (Act.path p fun q => { waiting := q.waiting }).run u = v from rfl]
  generalize (pathShown p (s.rateSum p true)).run v = w at *
  have hset := beside_settleTimers
  exact ⟨(hset.beside_rd w _).trans h1, (hset.beside_rd w _).trans h2, (hset.beside_rd w _).trans (h3.trans hctrl), by rw [hset.beside_path]; exact hpath,
    hsame.trans ((show SameRest u v from ⟨rfl, rfl, rfl, rfl, rfl⟩).trans (h5.trans (hset.sameRest (fun h => h) (fun h => h) (fun h => h) (fun h => h) (fun h => h) w)))⟩

/-- What a path that is off still delivers. -/
def Scope.leaving (p : Nat) : Scope :=
  { reg := fun r => r = Reg.SFE.DEST_TAIL p ∨ r ∈ refusal, mem := True, poison := True,
    hw := fun f => ∀ h : Hw, ((f h).cap.paths.getD p {}).items = (h.cap.paths.getD p {}).items }

theorem bandDeliver_idle {s : State} {p : Nat} (h : (s.path p).items = []) : ∃ a : Act, a.Only (.leaving p) ∧ (bandDeliverAct p).run s = a.run s := by
  have hwide {a : Act} (ha : a.Only (.publishing p)) : a.Only (.leaving p) := ha.weaken (fun _ h => h) fun _ hf h => by rw [hf]
  have hdrop (t : List (DUnit × Option DUnit)) : (Act.path p fun q => { q with waiting := t }).Only (.leaving p) := fun h => by
    show ((updAt _ p h.cap.paths).getD p {}).items = _
    rw [getD_updAt]
    split
    · rfl
    next hn => rw [List.getD_eq_default _ _ (Nat.not_lt.1 hn)]
  rw [bandDeliverAct, run_get]
  dsimp only
  split
  next u tag t _ =>
    refine ⟨_, ?_, rfl⟩
    refine (only_when _ _).2 fun _ => ⟨hwide (publishing_pathPublish p u), ?_, hdrop t, trivial⟩
    split
    · exact hwide (publishing_publish _ _ _)
    · trivial
  next => exact ⟨.nil, trivial, by rw [h]⟩

/-- The registers of a path that is off, and its items. -/
structure PathOff (p : Nat) (s t : State) : Prop where
  status : t.rd (Reg.SFE.PATH_STATUS p) = s.rd (Reg.SFE.PATH_STATUS p)
  alloc  : t.rd Reg.SFE.INGEST_ALLOC = s.rd Reg.SFE.INGEST_ALLOC
  ctrl   : t.rd (Reg.SFE.PATH_CTRL p) = s.rd (Reg.SFE.PATH_CTRL p)
  items  : (t.path p).items = []
  es     : t.es = s.es
  tsc    : t.tsc = s.tsc
  out    : t.out = s.out

theorem PathOff.deliver {p : Nat} {s t : State} (hp : p < 16) (h : PathOff p s t) : PathOff p s ((bandDeliverAct p).run t) := by
  obtain ⟨a, ha, hrun⟩ := bandDeliver_idle h.items
  have hrd {off : Nat} (ho : off < 4096) (hne : off ≠ 0x12C + 0x40 * p) : (a.run t).rd ⟨.SFE, 0, off⟩ = t.rd ⟨.SFE, 0, off⟩ := by
    refine ha.rd (fun h => h) (fun r hr => ?_) t
    rcases hr with rfl | hr
    · simp only [RegRef.key]
      omega
    · simp only [refusal, List.mem_cons, List.not_mem_nil, or_false] at hr
      rcases hr with rfl | rfl | rfl
      · simp only [RegRef.key, Blk.slot]; omega
      · simp only [RegRef.key, Blk.slot]; omega
      · simp only [RegRef.key, Blk.slot]; omega
  rw [hrun]
  exact ⟨(hrd (by omega) (by omega)).trans h.status, (hrd (by omega) (by omega)).trans h.alloc, (hrd (by omega) (by omega)).trans h.ctrl,
    (ha.hw (fun h => (h.cap.paths.getD p {}).items) (fun _ hf => hf) t).trans h.items, (ha.es (fun h => h) t).trans h.es, (ha.tsc (fun h => h) t).trans h.tsc,
    (ha.out (fun h => h) t).trans h.out⟩

theorem PathOff.deliverAll {β : Type} {p : Nat} {s t : State} (hp : p < 16) (l : List β) (h : PathOff p s t) :
    PathOff p s ((Act.each l fun _ => bandDeliverAct p).run t) := by
  induction l generalizing t with
  | nil => exact h
  | cons x l ih => exact ih (h.deliver hp)

theorem pathDisable_run (s : State) (p : Nat) (old : Word) : ∃ ends : List (DUnit × Option DUnit), ∃ closed : List PathItem, (pathDisableAct p old).run s =
    (Act.each (List.range 8) settleTimer).run ((Act.each ends fun _ => bandDeliverAct p).run
      ((Act.each (s.followers p) fun f => .seq (closeOn f false) (endItems f)).run
        ((Act.each closed fun x => .event (.itemClose p x.id x.stamp)).run
          ((pathShown p (s.rateSum p false)).run ((Act.path p fun q => { waiting := q.waiting ++ ends }).run s))))) := ⟨_, _, rfl⟩

theorem pathDisable_effect {s : State} (hs : keysRise s.regs) {p : Nat} (hp : p < 16) (old : Word) :
    let t := (pathDisableAct p old).run s
    t.rd (Reg.SFE.PATH_STATUS p) = 0 ∧ t.rd Reg.SFE.INGEST_ALLOC = BitVec.ofNat 32 (s.rateSum p false) &&& RegRef.mask Reg.SFE.INGEST_ALLOC ∧
      t.rd (Reg.SFE.PATH_CTRL p) = s.rd (Reg.SFE.PATH_CTRL p) ∧ (t.path p).items = [] ∧ t.es = s.es ∧ t.tsc = s.tsc ∧ t.out = s.out := by
  obtain ⟨ends, closed, hrun⟩ := pathDisable_run s p old
  let v := (Act.path p fun q => { waiting := q.waiting ++ ends }).run s
  have hv : keysRise v.regs := hs
  have hitems : (v.path p).items = [] := path_fresh p _ (fun _ => rfl) s
  obtain ⟨h1, h2, h3, h4, h5⟩ := pathShown_effect hv p (s.rateSum p false)
  dsimp only
  rw [hrun, show (Act.path p fun q => { waiting := q.waiting ++ ends }).run s = v from rfl]
  have hpath : (((pathShown p (s.rateSum p false)).run v).path p).items = [] := by rw [State.path, h4]; exact hitems
  generalize (pathShown p (s.rateSum p false)).run v = w at *
  have hevents : (Act.each closed fun x => .event (.itemClose p x.id x.stamp)).Only (.items (· ≠ p)) := (only_each _ _).2 fun _ _ => items_event _
  have hfol : (Act.each (s.followers p) fun f => .seq (closeOn f false) (endItems f)).Only (.items (· ≠ p)) :=
    (only_each _ _).2 fun _ hq => ⟨items_closeOn (l := (· ≠ p)) (followers_ne hq) _, items_endItems (followers_lt hp hq) (followers_ne hq)⟩
  have hboth : (Act.seq (Act.each closed fun x => .event (.itemClose p x.id x.stamp)) (Act.each (s.followers p) fun f => .seq (closeOn f false) (endItems f))).Only
    (.items (· ≠ p)) := ⟨hevents, hfol⟩
  have hrest := hboth.items_rest w
  have hoff : PathOff p w ((Act.seq (Act.each closed fun x => .event (.itemClose p x.id x.stamp))
      (Act.each (s.followers p) fun f => .seq (closeOn f false) (endItems f))).run w) :=
    ⟨hboth.items_status (fun h => h rfl) w, hboth.items_rd_off (by intro q; omega) w, hboth.items_rd_off (by intro q; omega) w,
      by rw [hboth.items_path (fun h => h rfl)]; exact hpath, hrest.es, hrest.tsc, hrest.out⟩
  have hall := hoff.deliverAll hp ends
  rw [run_seq] at hall
  generalize (Act.each ends fun _ => bandDeliverAct p).run _ = x at *
  have hset := beside_settleTimers
  exact ⟨(hset.beside_rd x _).trans (hall.status.trans h1), (hset.beside_rd x _).trans (hall.alloc.trans h2), (hset.beside_rd x _).trans (hall.ctrl.trans h3),
    by rw [hset.beside_path]; exact hall.items, (hset.es (fun h => h) x).trans (hall.es.trans h5.es), (hset.tsc (fun h => h) x).trans (hall.tsc.trans h5.tsc),
    (hset.out (fun h => h) x).trans (hall.out.trans h5.out)⟩

/-! ### Writes to the path registers -/

theorem pathCtrl_row (p : Fin 16) : RegRef.row (Reg.SFE.PATH_CTRL p) = some ⟨0x100, 16, 0x40, .RW, 0xFFFFFFFF, 0xFFFFFFFF, 0, 0, false⟩ := by
  revert p; decide +kernel
theorem pathCmd_row (p : Fin 16) : RegRef.row (Reg.SFE.PATH_CMD p) = some ⟨0x134, 16, 0x40, .WO, 0, 0, 0, 0, false⟩ := by revert p; decide +kernel
theorem pathCmd_reset (p : Fin 16) : RegRef.resetVal (Reg.SFE.PATH_CMD p) = 0 := by revert p; decide +kernel
theorem destHead_row (p : Fin 16) : RegRef.row (Reg.SFE.DEST_HEAD p) = some ⟨0x128, 16, 0x40, .RW, 0xFFFFFFFF, 0xFFFFFFFF, 0, 0, false⟩ := by
  revert p; decide +kernel

theorem sfeWrite (p : Fin 16) (o : Nat) (ho : o < 0x40) (old v : Word) : blockWrite 0 .SFE 0 (0x100 + 0x40 * p + o) old v =
    if o = 0 then pathCtrlAct p old v else if o = 0x28 then destHeadAct p v else if o = 0x34 then pathCmdAct p v else .nil := by
  have hp := p.isLt
  have hpage : blockWrite 0 .SFE 0 (0x100 + 0x40 * p + o) old v = if 0x100 + 0x40 * p.val + o < 0x40 then headerWrite .SFE 0 (0x100 + 0x40 * p + o) v
    else captureWrite .SFE 0 (0x100 + 0x40 * p + o) old v := rfl
  have hgroup : captureWrite .SFE 0 (0x100 + 0x40 * p + o) old v = if 0x100 ≤ 0x100 + 0x40 * p.val + o ∧ 0x100 + 0x40 * p.val + o < 0x500
    then (if sfeOff (0x100 + 0x40 * p + o) = 0 then pathCtrlAct (sfePath (0x100 + 0x40 * p + o)) old v
      else if sfeOff (0x100 + 0x40 * p + o) = 0x28 then destHeadAct (sfePath (0x100 + 0x40 * p + o)) v
      else if sfeOff (0x100 + 0x40 * p + o) = 0x34 then pathCmdAct (sfePath (0x100 + 0x40 * p + o)) v else .nil) else .nil := rfl
  have hpath : sfePath (0x100 + 0x40 * p + o) = p := by unfold sfePath; omega
  have hoff : sfeOff (0x100 + 0x40 * p + o) = o := by unfold sfeOff; omega
  rw [hpage, if_neg (by omega), hgroup, if_pos (by omega), hpath, hoff]

theorem sfe_key_ne {a b : Nat} (h : a ≠ b) : (⟨.SFE, 0, a⟩ : RegRef).key ≠ (⟨.SFE, 0, b⟩ : RegRef).key :=
  fun e => h (by simp only [RegRef.key] at e; omega)

/-- A register of the SFE page that neither was written nor counts writes. -/
theorem SameRegs.sfe {s t : State} {a off : Nat} (h : SameRegs [⟨.SFE, 0, a⟩, Reg.HDR.WRITE_COUNT .SFE 0] s t) (hne : a ≠ off)
    (hw : 0x30 ≠ off) : t.rd ⟨.SFE, 0, off⟩ = s.rd ⟨.SFE, 0, off⟩ :=
  h _ (by
    simp only [List.map_cons, List.map_nil, List.mem_cons, List.not_mem_nil, or_false, not_or]
    exact ⟨(sfe_key_ne hne).symm, (sfe_key_ne hw).symm⟩)

theorem rateSum_congr {s t : State} {p : Nat} (hctrl : ∀ q < 16, q ≠ p → t.rd (Reg.SFE.PATH_CTRL q) = s.rd (Reg.SFE.PATH_CTRL q))
    (hrate : ∀ q < 16, t.rd (Reg.SFE.RATE_DECL q) = s.rd (Reg.SFE.RATE_DECL q)) (on : Bool) : t.rateSum p on = s.rateSum p on := by
  refine congrArg sumNat (List.map_congr_left fun q hq => ?_)
  have hq' := List.mem_range.1 hq
  by_cases h : q = p
  · simp only [if_pos h, hrate q hq']
  · simp only [if_neg h, hrate q hq', State.bit, hctrl q hq' h]

/-- The journal writes no register of the SFE page. -/
theorem Journaled.sfe {s t : State} (h : Journaled s t) {off : Nat} (ho : off < 4096) : t.rd ⟨.SFE, 0, off⟩ = s.rd ⟨.SFE, 0, off⟩ :=
  h.rd (show (0 : Nat) < Blk.SFE.count by decide) ho (show Blk.SFE ≠ .JRNL by decide) (show Blk.SFE ≠ .CMP by decide)

/-- The value stored in a register whose every bit can be written. -/
theorem stored_whole (old w : Word) : ((old &&& ~~~ (0xFFFFFFFF : Word)) ||| (w &&& 0xFFFFFFFF) ||| (w &&& 0)) &&& 0xFFFFFFFF = w := by
  rw [show (0xFFFFFFFF : Word) = BitVec.allOnes 32 from rfl, BitVec.not_allOnes, BitVec.and_zero, BitVec.zero_or, show w &&& (0 : Word) = 0#32 from BitVec.and_zero, BitVec.or_zero,
    BitVec.and_allOnes, BitVec.and_allOnes]

/-- What a write of PATH_CTRL leaves, the value apart. -/
theorem pathCtrl_run {s : State} (hl : s.live) (p : Fin 16) {w : Word} {a : Act} (hacc : s.accepts 0 (Reg.SFE.PATH_CTRL p) w = true)
    (ha : pathCtrlAct p (s.rd (Reg.SFE.PATH_CTRL p)) w = a) : ∃ q, q.sound ∧ SameRest s q ∧ q.hw = s.hw ∧ q.rd (Reg.SFE.PATH_CTRL p) = w ∧
      (∀ on, q.rateSum p on = s.rateSum p on) ∧ Journaled (a.run q) ((hostReg 0 (Reg.SFE.PATH_CTRL p) w).run s) := by
  have hp := p.isLt
  have hold : s.hostOld (Reg.SFE.PATH_CTRL p) = s.rd (Reg.SFE.PATH_CTRL p) := hostOld_self (pathCtrl_row p) rfl rfl
  obtain ⟨q, hq, hj⟩ := hostReg_run hl.1 (pathCtrl_row p) (a := a) hacc (by
    rw [hold]
    exact (sfeWrite p 0 (by decide) _ _).trans ((if_pos rfl).trans ha))
  refine ⟨q, hq.sound, hq.rest, hq.hw, ?_, fun on => rateSum_congr (fun j hj hne => hq.regs.sfe (by omega) (by omega))
    (fun j hj => hq.regs.sfe (by omega) (by omega)) on, hj⟩
  rw [hq.stored rfl (by simp only [ne_eq]; omega)]
  exact stored_whole _ _

/-- PATH_CMD written: nothing but the count differs when its effect begins. -/
theorem pathCmdWrite_run {s : State} (hl : s.live) (p : Fin 16) {w : Word} (hacc : s.accepts 0 (Reg.SFE.PATH_CMD p) w = true) :
    ∃ q, q.sound ∧ SameRest s q ∧ q.hw = s.hw ∧ SameRegs [Reg.HDR.WRITE_COUNT .SFE 0] s q ∧
      Journaled ((pathCmdAct p w).run q) ((hostReg 0 (Reg.SFE.PATH_CMD p) w).run s) := by
  have hp := p.isLt
  obtain ⟨q, hq, hj⟩ := hostReg_run hl.1 (pathCmd_row p) (a := pathCmdAct p w) hacc (by
    show blockWrite 0 .SFE 0 (0x134 + 0x40 * p) _ w = _
    rw [show 0x134 + 0x40 * p.val = 0x100 + 0x40 * p + 0x34 by omega]
    exact (sfeWrite p 0x34 (by decide) _ _).trans rfl)
  exact ⟨q, hq.sound, hq.rest, hq.hw, hq.kept (fun _ => rfl) (pathCmd_reset p) (by simp only; omega), hj⟩

theorem pathCmd_run {s : State} {p : Nat} (hsrc : s.pItemSrc p = 4) (w : Word) : (pathCmdAct p w).run s =
    (Act.when (w.getLsbD 1) (closeItem p false)).run ((Act.when (w.getLsbD 0) (openNew p false)).run s) := by
  rw [pathCmdAct, run_get, run_when, if_pos (by rw [hsrc]; rfl), run_seq]

/-- PATH_CMD's effect leaves the stores. -/
theorem pathCmd_rest {p : Nat} (hp : p < 16) (w : Word) (s : State) : SameRest s ((pathCmdAct p w).run s) := by
  have h : (pathCmdAct p w).Only .gated := (only_get _).2 fun _ => (only_when _ _).2 fun _ =>
    ⟨(only_when _ _).2 fun _ => items_openNew hp false, (only_when _ _).2 fun _ =>
      (items_closeItem (l := fun _ => True) hp trivial (fun _ _ _ => trivial) _).weaken (fun _ ⟨q, hq, _, he⟩ => ⟨q, hq, he⟩) (fun _ hf h => (hf h).2.1)⟩
  exact h.sameRest (fun h => h) (fun h => h) (fun h => h) (fun h => h) (fun h => h) s

/-- A path as PATH_CMD's effect finds it. -/
theorem cmdPath {s q : State} (hs : q.sound) (hhw : q.hw = s.hw) (hregs : SameRegs [Reg.HDR.WRITE_COUNT .SFE 0] s q) (p : Fin 16) : SamePath p s q := by
  have hp := p.isLt
  have hrd {off : Nat} (hw : 0x30 ≠ off) : q.rd ⟨.SFE, 0, off⟩ = s.rd ⟨.SFE, 0, off⟩ :=
    hregs _ (by simpa using (sfe_key_ne hw).symm)
  exact ⟨hs.1.1, fun _ => hrd (by omega), hrd (by decide), hrd (by omega), by rw [State.path, State.path, hhw]⟩

theorem destHeadWrite (p : Fin 16) (old v : Word) : blockWrite 0 .SFE 0 (0x128 + 0x40 * p) old v = destHeadAct p v := by
  rw [show 0x128 + 0x40 * p.val = 0x100 + 0x40 * p + 0x28 by omega]
  exact (sfeWrite p 0x28 (by decide) _ _).trans rfl

/-- R110, R404: the slots freed, and the stream's record kept equal. -/
theorem destHead_effect {s : State} (hs : s.sound) (p : Nat) (v : Word) :
    let t := (destHeadAct p v).run s
    t.rd (Reg.SFE.DEST_HEAD p) = v &&& RegRef.mask (Reg.SFE.DEST_HEAD p) ∧
      t.readN (s.streamAddr (s.fld (Reg.SFE.PATH_STREAM p) 8 0) + 8) 4 = v.toNat ∧ t.es = s.es ∧ t.tsc = s.tsc ∧ t.out = s.out := by
  let u := (Act.wr (Reg.SFE.DEST_HEAD p) v).run s
  have hu : u.sound := sound_run _ _ hs
  have hmem : (Act.mem (s.streamAddr (s.fld (Reg.SFE.PATH_STREAM p) 8 0) + 8) 4 v.toNat).Only { mem := True } := (only_mem _ _ _).2 trivial
  have hrd := readN_run_mem hu.2.1.1 (s.streamAddr (s.fld (Reg.SFE.PATH_STREAM p) 8 0) + 8) 4 v.toNat
  rw [show (256 : Nat) ^ 4 = 2 ^ 32 from rfl, Nat.mod_eq_of_lt v.isLt] at hrd
  exact ⟨(rd_of_regs (hmem.regs_eq (fun _ h => h) (fun h => h) u) _).trans (rd_setReg_same hs.1.1 _ _), hrd, hmem.es (fun h => h) u,
    hmem.tsc (fun h => h) u, hmem.out (fun h => h) u⟩

theorem destHead_keeps (p : Fin 16) (v : Word) : (destHeadAct p v).Only (.but Reg.JRNL.JRNL_CTRL) :=
  (only_get _).2 fun _ => ⟨(only_wr _ _).2 (by
    show (Reg.SFE.DEST_HEAD p).key ≠ Reg.JRNL.JRNL_CTRL.key
    have := p.isLt
    simp only [RegRef.key, Blk.slot]
    omega), (only_mem _ _ _).2 trivial⟩

/-- With the journal off, memory shows the head written. -/
theorem destHead_record {s : State} (hl : s.live) (p : Fin 16) {v : Word} (hacc : s.accepts 0 (Reg.SFE.DEST_HEAD p) v = true)
    (hoff : s.bit Reg.JRNL.JRNL_CTRL 0 = false) :
    ((hostReg 0 (Reg.SFE.DEST_HEAD p) v).run s).readN (s.streamAddr (s.fld (Reg.SFE.PATH_STREAM p) 8 0) + 8) 4 = v.toNat := by
  have hp := p.isLt
  have hself : regAt (Reg.SFE.DEST_HEAD p).blk (Reg.SFE.DEST_HEAD p).inst (Reg.SFE.DEST_HEAD p).off = Reg.SFE.DEST_HEAD p := regAt_self (destHead_row p) rfl
  obtain ⟨q, hq, -, -, hregs, -, hrun⟩ := hostReg_off_run hl.1 (destHead_row p) hacc (destHeadWrite p _ v) (destHead_keeps p v) hoff (by
    rw [hself]
    refine ⟨?_, (show (Reg.HDR.WRITE_COUNT .SFE 0).key ≠ Reg.JRNL.JRNL_CTRL.key by decide +kernel)⟩
    simp only [RegRef.key, Blk.slot]
    omega)
  rw [hself] at hregs
  have hstream : q.rd (Reg.SFE.PATH_STREAM p) = s.rd (Reg.SFE.PATH_STREAM p) := hregs.sfe (by omega) (by omega)
  have hbase : q.rd Reg.DISP.STREAM_BASE = s.rd Reg.DISP.STREAM_BASE := hregs _ (by
    simp only [List.map_cons, List.map_nil, List.mem_cons, List.not_mem_nil, or_false, not_or]
    refine ⟨?_, by decide +kernel⟩
    simp only [RegRef.key, Blk.slot]
    omega)
  have h := (destHead_effect hq p v).2.1
  rw [State.streamAddr, hbase, State.fld, hstream] at h
  rw [hrun]
  exact h

/-- Settles O26: scan paths. -/
theorem pathCommands : Obligations.PathCommands := by
  unfold Obligations.PathCommands
  have hone (v : Word) : (v ||| 1).getLsbD 0 = true := by simp
  have hzero (v : Word) : (v &&& ~~~ 1).getLsbD 0 = false := by simp
  have htwo (v : Word) : (v ||| 2).getLsbD 1 = true := getLsbD_or_two v
  have hone1 (v : Word) : (v ||| 1).getLsbD 1 = v.getLsbD 1 := by
    rw [BitVec.getLsbD_or, show (1 : Word).getLsbD 1 = false from rfl, Bool.or_false]
  refine ⟨fun s p v hl hacc hoff => ⟨_, command_eq hl.2, ?_⟩, fun s p v hl hacc hon hp => ⟨_, command_eq hl.2, ?_⟩,
    fun s p v hl hacc hon hsrc hnone => ⟨_, command_eq hl.2, ?_⟩, fun s p v x hl hacc hsrc hx hp => ⟨_, command_eq hl.2, ?_⟩,
    fun s gate level hl hne => ⟨_, command_eq hl.2, gateEdge_effect hl.1.1.1 gate hne⟩,
    fun s p l rest hl hcur hready hp => ⟨_, command_eq hl.2, lineComplete_effect p hcur hready hp⟩,
    fun s p x e hl hitems hstop he hclosed hp => ⟨_, command_eq hl.2, postLinesDone_effect hl.1.1.1 p hitems hstop he hclosed hp⟩,
    fun s p x items d hl hwait hitems hdue hp => ⟨_, command_eq hl.2, ?_⟩,
    fun s p x items t0 hl hwait hitems hdue hp hfrom ht => ⟨_, command_eq hl.2, ?_⟩,
    fun s p v hl hacc => ⟨_, command_eq hl.2, ?_⟩⟩
  · obtain ⟨q, hq, hrest, hhw, hctrl, hrate, hj⟩ := pathCtrl_run hl p (a := pathEnableAct p) hacc (by
      rw [pathCtrlAct, hone, show (s.rd (Reg.SFE.PATH_CTRL p)).getLsbD 0 = false from hoff]
      rfl)
    obtain ⟨h1, h2, h3, h4, h5⟩ := pathEnable_effect hq.1.1 p
    have hp := p.isLt
    refine ⟨?_, (hj.sfe (by omega)).trans h1, ?_, (hj.sfe (by omega)).trans (by rw [h2, hrate]), hj.tsc.trans (h5.tsc.trans hrest.tsc),
      hj.es.trans (h5.es.trans hrest.es), hj.out.trans (h5.out.trans hrest.out)⟩
    · exact (congrArg (BitVec.getLsbD · 0) ((hj.sfe (by omega)).trans (h3.trans hctrl))).trans (hone v)
    · exact (congrArg PathSt.items (hj.part (fun h => h.cap.paths.getD p {}))).trans h4
  · obtain ⟨q, hq, hrest, hhw, hctrl, hrate, hj⟩ := pathCtrl_run hl p (a := pathDisableAct p (s.rd (Reg.SFE.PATH_CTRL p))) hacc (by
      rw [pathCtrlAct, hzero, show (s.rd (Reg.SFE.PATH_CTRL p)).getLsbD 0 = true from hon]
      rfl)
    obtain ⟨h1, h2, h3, h4, h5, h6, h7⟩ := pathDisable_effect hq.1.1 p.isLt (s.rd (Reg.SFE.PATH_CTRL p))
    have hp := p.isLt
    refine ⟨?_, (hj.sfe (by omega)).trans h1, ?_, (hj.sfe (by omega)).trans (by rw [h2, hrate]), hj.tsc.trans (h6.trans hrest.tsc),
      hj.es.trans (h5.trans hrest.es), hj.out.trans (h7.trans hrest.out)⟩
    · exact (congrArg (BitVec.getLsbD · 0) ((hj.sfe (by omega)).trans (h3.trans hctrl))).trans (hzero v)
    · exact (congrArg PathSt.items (hj.part (fun h => h.cap.paths.getD p {}))).trans h4
  · obtain ⟨q, hq, hrest, hhw, hregs, hj⟩ := pathCmdWrite_run hl p hacc
    have hsame := cmdPath hq hhw hregs p
    have hfin := pathCmd_rest p.isLt (v ||| 1) q
    have hrun := pathCmd_run (s := q) (by rw [hsame.src]; exact hsrc) (v ||| 1)
    rw [hone, hone1, show (Act.when true (openNew p false)).run q = (openNew p false).run q from rfl] at hrun
    obtain ⟨h1, h2⟩ := openNew_effect hq.1.1 p (by rw [hsame.on]; exact hon) (by rw [hsame.open_]; exact hnone) false
    have hclose : (Act.when (v.getLsbD 1) (closeItem p false)).Only (.items fun _ => True) :=
      (only_when _ _).2 fun _ => items_closeItem p.isLt trivial (fun _ _ _ => trivial) _
    have hp := p.isLt
    refine ⟨fun hv => ?_, (hj.part (·.cap.itemSeq)).trans ?_, hj.tsc.trans (hfin.tsc.trans hrest.tsc), hj.es.trans (hfin.es.trans hrest.es),
      hj.out.trans (hfin.out.trans hrest.out)⟩
    · rw [hv, run_when, if_neg Bool.false_ne_true] at hrun
      rw [hrun] at hj
      exact (bit_of_rd (hj.sfe (by omega)) 0).trans h1
    · rw [hrun, hclose.items_seq, h2, hhw]
  · obtain ⟨q, hq, hrest, hhw, hregs, hj⟩ := pathCmdWrite_run hl p hacc
    have hsame := cmdPath hq hhw hregs p
    have hfin := pathCmd_rest p.isLt (v ||| 2) q
    have hopen : q.itemOpenOn p = some x := by rw [hsame.open_]; exact hx
    have hrun : (pathCmdAct p (v ||| 2)).run q = (closeItem p false).run q := by
      rw [pathCmd_run (by rw [hsame.src]; exact hsrc), htwo, run_when, if_pos rfl, run_when]
      split
      · rw [openNew_skips (by rw [hopen]; exact Option.some_ne_none _)]
      · rfl
    have hend := closeItem_ends p.isLt hopen (by rw [hhw]; exact hp)
    rw [← hrun] at hend
    have hat := hend.of_path (hj.part (fun h => h.cap.paths.getD p {}))
    have hstart : q.outStarted p = s.outStarted p := by
      rw [State.outStarted, State.outStarted, hsame.path, State.pAvgY, State.pAvgY, State.fld, State.fld, hsame.ctrl]
    rw [hstart] at hat
    exact ⟨hat.closed, hat, hj.tsc.trans (hfin.tsc.trans hrest.tsc), hj.es.trans (hfin.es.trans hrest.es), hj.out.trans (hfin.out.trans hrest.out)⟩
  · rw [bandDeliver_run hwait hitems hdue]
    obtain ⟨h1, h2, h3⟩ := deliverDue_stores p x d s
    refine ⟨h2, h1, h3, fun hroom => ?_, fun hroom => ?_⟩
    · obtain ⟨e1, e2, e3, e4⟩ := deliverDue_effect hl.1.1.1 p hitems d hp hroom
      exact ⟨e1, e2, e3, e4⟩
    · rw [deliverDue_full hroom]
      exact ⟨(bit_setFld hl.1.1.1 (by rw [mask_pathStatus]; decide)).trans rfl, rfl⟩
  · have hfrom' : (s.path p).waitFrom = some t0 ∨ (s.path p).waitFrom = none ∧ s.requestTime p x = some t0 := by
      cases hw : (s.path p).waitFrom with
      | some a => rw [hw] at hfrom; exact .inl hfrom
      | none => rw [hw] at hfrom; exact .inr ⟨rfl, hfrom⟩
    rw [pathWait_run hwait hitems hdue hfrom' ht]
    split
    next hn =>
      refine ⟨rfl, rfl, rfl, fun _ => ?_, fun h => absurd h (by omega)⟩
      rw [path_run_self hp]
    next hn =>
      obtain ⟨h1, h2, h3⟩ := deliverDue_stores p x ⟨(s.path p).lbFirst + (s.path p).lb.length - x.next, false, true, x.invalid⟩ s
      exact ⟨h2, h1, h3, fun h => absurd (by omega) hn, fun _ hroom => (deliverDue_effect hl.1.1.1 p hitems _ hp hroom).1⟩
  · have hp := p.isLt
    obtain ⟨q, hq, hj⟩ := hostReg_run hl.1 (destHead_row p) hacc (destHeadWrite p _ v)
    obtain ⟨h1, -, h3, h4, h5⟩ := destHead_effect hq.sound p v
    exact ⟨(hj.sfe (by omega)).trans h1, fun hoff => destHead_record hl p hacc hoff, hj.tsc.trans (h4.trans hq.rest.tsc), hj.es.trans (h3.trans hq.rest.es),
      hj.out.trans (h5.trans hq.rest.out)⟩

end Sys2Proof.Machine

/-! ## Proofs: cameras (02_line_and_frame_capture) -/

namespace Sys2Proof.Machine

-- One theorem after the other: elaborated side by side, they hold more threads than the memory limit of a check allows.
set_option Elab.async false

theorem mask_cxp (n : Fin 8) : RegRef.mask (Reg.CXP.CXP_STATUS n) = 0x1FF ∧ RegRef.mask (Reg.CXP.CMD_DATA n) = 0xFFFFFFFF ∧
    RegRef.mask (Reg.CXP.CMD_STATUS n) = 0xFF01 ∧ RegRef.mask (Reg.CXP.PKT_ERR n) = 0xFFFFFFFF ∧ RegRef.mask (Reg.CXP.EVENT_DATA n) = 0xFFFFFFFF ∧
    RegRef.mask (Reg.CXP.HEARTBEAT n) = 0xFFFFFFFF := by revert n; decide +kernel

theorem mask_csi (n : Fin 16) : RegRef.mask (Reg.CSI.CSI_STATUS n) = 0xFFFF001F ∧ RegRef.mask (Reg.CSI.ECC_UNCORR n) = 0xFFFFFFFF := by
  revert n; decide +kernel

theorem cxpGo_row (n : Fin 8) : RegRef.row (Reg.CXP.CMD_GO n) = some ⟨0x050, 1, 0x04, .WO, 0, 0, 0, 0, false⟩ := by revert n; decide +kernel

theorem and_ones (v : Word) : v &&& (0xFFFFFFFF : Word) = v := by
  rw [show (0xFFFFFFFF : Word) = BitVec.allOnes 32 from rfl, BitVec.and_allOnes]

/-! ### A part of one path's state -/

/-- Items open and close: the part `π` of path `p` stays. -/
def Scope.pathPart {α : Type} (π : PathSt → α) (p : Nat) : Scope :=
  { reg := fun r => ∃ q < 16, r = Reg.SFE.PATH_STATUS q
    hw := fun f => ∀ h : Hw, (f h).cap.paths.length = h.cap.paths.length ∧ π ((f h).cap.paths.getD p {}) = π (h.cap.paths.getD p {}) }

section
variable {α : Type} {π : PathSt → α} {p q : Nat}

theorem pathPart_path {f : PathSt → PathSt} (hf : ∀ x, π (f x) = π x) : (Act.path q f).Only (.pathPart π p) := fun h => by
  refine ⟨length_updAt _ _ _, ?_⟩
  show π ((updAt f q h.cap.paths).getD p {}) = _
  rcases eq_or_ne p q with rfl | hne
  · rw [getD_updAt]
    split
    case isTrue => exact hf _
    case isFalse hp => rw [List.getD_eq_default _ _ (not_lt.1 hp)]
  · rw [getD_updAt_ne _ _ hne]

/-- A change of another path. -/
theorem pathPart_other (hne : q ≠ p) (f : PathSt → PathSt) : (Act.path q f).Only (.pathPart π p) := fun h =>
  ⟨length_updAt _ _ _, congrArg π (getD_updAt_ne f {} hne.symm h.cap.paths)⟩

theorem pathPart_cap {f : CapSt → CapSt} (hf : ∀ c, (f c).paths = c.paths) : (Act.cap f).Only (.pathPart π p) := fun h =>
  ⟨congrArg List.length (hf h.cap), congrArg (fun l : List PathSt => π (l.getD p {})) (hf h.cap)⟩

theorem pathPart_event (e : Event) : (Act.event e).Only (.pathPart π p) := fun _ => ⟨rfl, rfl⟩

theorem pathPart_status (hq : q < 16) (hi lo v : Nat) : (Act.setFld (Reg.SFE.PATH_STATUS q) hi lo v).Only (.pathPart π p) :=
  (only_setFld _ _ _ _).2 ⟨q, hq, rfl⟩

variable (hπ : ∀ x : PathSt, ∀ l, π { x with items := l } = π x)
include hπ

theorem pathPart_closeOn (post : Bool) : (closeOn q post).Only (.pathPart π p) :=
  (only_get _).2 fun _ => (only_when _ _).2 fun _ => pathPart_path fun _ => hπ _ _

theorem pathPart_endItems (hq : q < 16) : (endItems q).Only (.pathPart π p) :=
  (only_get _).2 fun _ => (only_when _ _).2 fun _ =>
    ⟨pathPart_path fun _ => hπ _ _, pathPart_status hq _ _ _, (only_each _ _).2 fun _ _ => pathPart_event _, trivial⟩

theorem pathPart_closeItem (hq : q < 16) (post : Bool) : (closeItem q post).Only (.pathPart π p) := by
  refine (only_get _).2 fun s => (only_each _ _).2 fun x hx => ⟨pathPart_closeOn hπ _, pathPart_endItems hπ ?_⟩
  rcases List.mem_cons.1 hx with rfl | hx
  · exact hq
  · exact followers_lt hq hx

theorem pathPart_openOn (hq : q < 16) (id : BitVec 48) (pre : Bool) (stamp : Option Nat) : (openOn q id pre stamp).Only (.pathPart π p) :=
  (only_get _).2 fun _ => (only_when _ _).2 fun _ => ⟨pathPart_path fun _ => hπ _ _, pathPart_status hq _ _ _, pathPart_event _, trivial⟩

theorem pathPart_openNew (hq : q < 16) (pre : Bool) : (openNew q pre).Only (.pathPart π p) :=
  (only_get _).2 fun _ => (only_when _ _).2 fun _ => ⟨pathPart_cap fun _ => rfl, (only_get _).2 fun _ => ⟨pathPart_openOn hπ hq _ _ _,
    (only_each _ _).2 fun _ hx => pathPart_openOn hπ (followers_lt hq hx) _ _ _⟩⟩

theorem pathPart_maxLines (q : Nat) : (maxLines q).Only (.pathPart π p) :=
  (only_get _).2 fun _ => (only_when _ _).2 fun _ => ⟨pathPart_path fun _ => hπ _ _, (only_each _ _).2 fun _ _ => pathPart_closeOn hπ _⟩

end

section
variable {α : Type} {π : PathSt → α} {p : Nat} {a : Act} (h : a.Only (.pathPart π p))
include h
theorem Act.Only.pathPart (s : State) : π ((a.run s).path p) = π (s.path p) :=
  h.hw (fun h => π (h.cap.paths.getD p {})) (fun _ hf h => (hf h).2) s
theorem Act.Only.pathPart_length (s : State) : (a.run s).hw.cap.paths.length = s.hw.cap.paths.length :=
  h.hw (fun h => h.cap.paths.length) (fun _ hf h => (hf h).1) s
theorem Act.Only.pathPart_rest (s : State) : SameRest s (a.run s) := h.sameRest (fun h => h) (fun h => h) (fun h => h) (fun h => h) (fun h => h) s
theorem Act.Only.pathPart_rd {off : Nat} (hr : ∀ q < 16, off ≠ 0x138 + 0x40 * q) (s : State) : (a.run s).rd ⟨.SFE, 0, off⟩ = s.rd ⟨.SFE, 0, off⟩ :=
  h.rd (fun h => h) (fun _ ⟨q, hq, he⟩ => he ▸ (sfe_key_ne (hr q hq)).symm) s
end

/-! ### Frame starts and ends (R96) -/

/-- Frames start or end on several paths: each sets its own frame stamp, from the time and the path's adjustment. -/
theorem each_frameStamp {g : Nat → Act} {p : Nat} {v : State → Option Nat} (hother : ∀ q < 16, q ≠ p → (g q).Only (.pathPart PathSt.frameStamp p))
    (hself : ∀ s : State, p < s.hw.cap.paths.length → (((g p).run s).path p).frameStamp = v s)
    (hv : ∀ s t : State, t.tsc = s.tsc → t.rd (Reg.SFE.STAMP_ADJ p) = s.rd (Reg.SFE.STAMP_ADJ p) → v t = v s)
    {l : List Nat} (hl : ∀ q ∈ l, q < 16) (hnodup : l.Nodup) (hp : p ∈ l) {s : State} (hlen : p < s.hw.cap.paths.length) :
    (((Act.each l g).run s).path p).frameStamp = v s := by
  obtain ⟨l1, l2, rfl⟩ := List.append_of_mem hp
  have h1 : (Act.each l1 g).Only (.pathPart PathSt.frameStamp p) := (only_each _ _).2 fun q hq =>
    hother q (hl q (by simp [hq])) fun e => (List.nodup_append.1 hnodup).2.2 q hq p List.mem_cons_self e
  have h2 : (Act.each l2 g).Only (.pathPart PathSt.frameStamp p) := (only_each _ _).2 fun q hq =>
    hother q (hl q (by simp [hq])) fun e => (List.nodup_cons.1 (List.nodup_append.1 hnodup).2.1).1 (e ▸ hq)
  rw [run_each_append, show ∀ u, (Act.each (p :: l2) g).run u = (Act.each l2 g).run ((g p).run u) from fun _ => rfl, h2.pathPart,
    hself _ (by rw [h1.pathPart_length]; exact hlen)]
  exact hv _ _ (h1.pathPart_rest s).tsc (h1.pathPart_rd (by intro q _; omega) s)

theorem pathsOf_nodup (s : State) (ty i : Nat) : (s.pathsOf ty i).Nodup := List.nodup_range.filter _

/-- A path's clock: now, less its adjustment. -/
def frameClock (p : Nat) (s : State) : Nat := s.now - (s.rd (Reg.SFE.STAMP_ADJ p)).toNat

theorem frameClock_congr {p : Nat} {s t : State} (ht : t.tsc = s.tsc) (hr : t.rd (Reg.SFE.STAMP_ADJ p) = s.rd (Reg.SFE.STAMP_ADJ p)) :
    frameClock p t = frameClock p s := by rw [frameClock, frameClock, State.now, State.now, ht, hr]

theorem frameStarts_effect {l : List Nat} (hl : ∀ q ∈ l, q < 16) (hnodup : l.Nodup) {p : Nat} (hp : p ∈ l) {s : State} (hlen : p < s.hw.cap.paths.length) :
    (((Act.each l frameStart).run s).path p).frameStamp = some (s.now - (s.rd (Reg.SFE.STAMP_ADJ p)).toNat) := by
  refine each_frameStamp (v := fun s => some (frameClock p s)) (fun q hq hne => ?_) (fun s hlen => ?_)
    (fun s t ht hr => congrArg some (frameClock_congr ht hr)) hl hnodup hp hlen
  · exact (only_get _).2 fun _ => ⟨pathPart_other hne _, (only_when _ _).2 fun _ => pathPart_openNew (fun _ _ => rfl) hq _⟩
  · have hopen (b : Bool) : (Act.when b (openNew p false)).Only (.pathPart PathSt.frameStamp p) :=
      (only_when _ _).2 fun _ => pathPart_openNew (fun _ _ => rfl) (hl p hp) _
    rw [frameStart, run_get, run_seq, (hopen _).pathPart, path_run_self hlen]
    rfl

theorem frameEnds_effect {l : List Nat} (hl : ∀ q ∈ l, q < 16) (hnodup : l.Nodup) {p : Nat} (hp : p ∈ l) {s : State} (hlen : p < s.hw.cap.paths.length) :
    (((Act.each l frameEnd).run s).path p).frameStamp = none := by
  refine each_frameStamp (v := fun _ => none) (fun q hq hne => ?_) (fun s hlen => ?_) (fun _ _ _ _ => rfl) hl hnodup hp hlen
  · exact (only_get _).2 fun _ => ⟨pathPart_other hne _, (only_when _ _).2 fun _ => pathPart_closeItem (fun _ _ => rfl) hq _⟩
  · have hclose (b : Bool) : (Act.when b (closeItem p false)).Only (.pathPart PathSt.frameStamp p) :=
      (only_when _ _).2 fun _ => pathPart_closeItem (fun _ _ => rfl) (hl p hp) _
    rw [frameEnd, run_get, run_seq, (hclose _).pathPart, path_run_self hlen]

/-! ### Camera packets (R93 to R97, R122) -/

/-- Any register and any block's state; memory, engine stores, time and what leaves the block stay. -/
def Scope.shell : Scope := { reg := fun _ => True, hw := fun _ => True }

theorem Act.Only.shell {p : Scope} {a : Act} (h : a.Only p) (reset : ¬p.reset) (mem : ¬p.mem) (poison : ¬p.poison) (es : ¬p.es) (tsc : ¬p.tsc)
    (out : ¬p.out) : a.Only .shell :=
  h.weaken (fun _ _ => trivial) (fun _ _ => trivial) (fun h => (reset h).elim) (fun h => (mem h).elim) (fun h => (poison h).elim)
    (fun h => (es h).elim) (fun h => (tsc h).elim) fun h => (out h).elim

theorem shell_rest {a : Act} (h : a.Only .shell) (s : State) :
    (a.run s).tsc = s.tsc ∧ (a.run s).es = s.es ∧ (a.run s).mem = s.mem ∧ (a.run s).out = s.out :=
  ⟨h.tsc id s, h.es id s, h.mem id s, h.out id s⟩

theorem shell_capture {a : Act} (h : a.Only .capture) : a.Only .shell := h.shell id id id id id id

theorem capture_openOn {p : Nat} (hp : p < 16) (id : BitVec 48) (pre : Bool) (stamp : Option Nat) : (openOn p id pre stamp).Only .capture :=
  (only_get _).2 fun _ => (only_when _ _).2 fun _ => ⟨capture_path _ _, (only_setFld _ _ _ _).2 (capture_sfe (by omega)), capture_event _, trivial⟩

theorem capture_openNew {p : Nat} (hp : p < 16) (pre : Bool) : (openNew p pre).Only .capture :=
  (only_get _).2 fun _ => (only_when _ _).2 fun _ => ⟨fun _ => rfl, (only_get _).2 fun _ => ⟨capture_openOn hp _ _ _,
    (only_each _ _).2 fun _ hx => capture_openOn (followers_lt hp hx) _ _ _⟩⟩

theorem capture_closeItem {p : Nat} (hp : p < 16) (post : Bool) : (closeItem p post).Only .capture := by
  refine (only_get _).2 fun s => (only_each _ _).2 fun x hx => ⟨only_closeOn _ _, only_endItems ?_⟩
  rcases List.mem_cons.1 hx with rfl | hx
  · exact hp
  · exact followers_lt hp hx

theorem capture_frameStart {p : Nat} (hp : p < 16) : (frameStart p).Only .capture :=
  (only_get _).2 fun _ => ⟨capture_path _ _, (only_when _ _).2 fun _ => capture_openNew hp _⟩

theorem capture_frameEnd {p : Nat} (hp : p < 16) : (frameEnd p).Only .capture :=
  (only_get _).2 fun _ => ⟨capture_path _ _, (only_when _ _).2 fun _ => capture_closeItem hp _⟩

theorem capture_cameraLine {p : Nat} (hp : p < 16) (t : Trig) (depth comps : Nat) (px : List (BitVec 16)) (lost : Bool) :
    (cameraLine p t depth comps px lost).Only .capture := (only_get _).2 fun _ => only_startLine hp _

/-- A CoaXPress line of `comps` components reaches its paths (R96, R97). -/
def cxpDelivered (s : State) (n depth comps : Nat) (px : List (BitVec 16)) (lost triggered : Bool) : Act :=
  let trig := if triggered then (s.hw.cap.cxpTrig.getD n []).head? else none
  .all [.when trig.isSome (.cap fun c => { c with cxpTrig := updAt (fun l => l.drop 1) n c.cxpTrig }),
    .when (!lost && (s.pathsOf 1 n).any fun p => s.lineOff p comps px) (.bump (Reg.CXP.LINE_ERR n) 1),
    .each (s.pathsOf 1 n) fun p => .seq (.when lost (pathEvent p 4))
      (cameraLine p (trig.getD { stamp := if triggered then s.now else s.freeStamp p }) depth comps px lost)]

/-- A line not whole is counted and raised (R97). -/
def cxpLoss (n : Nat) (lost : Bool) : Act := .when lost (.seq (.bump (Reg.CXP.PKT_ERR n) 1) (.raise .CXP n 1))

section
variable {s : State} {n : Nat} (hon : s.bit (Reg.CXP.CXP_CTRL n) 0 = true)
include hon

theorem cxpPacket_start (num : BitVec 16) : (cxpPacketAct n (.frameStart num)).run s = (Act.each (s.pathsOf 1 n) frameStart).run s := by
  simp only [cxpPacketAct, run_get, hon, run_when, if_true]

theorem cxpPacket_end : (cxpPacketAct n .frameEnd).run s = (Act.each (s.pathsOf 1 n) frameEnd).run s := by
  simp only [cxpPacketAct, run_get, hon, run_when, if_true]

theorem cxpPacket_unsupported {dt : BitVec 6} {depth : BitVec 5} {px : List (BitVec 16)} {hdr : EccError} {ok trig : Bool}
    (hc : cxpComps dt.toNat depth.toNat = none) :
    (cxpPacketAct n (.line dt depth px hdr ok trig)).run s = (cxpLoss n (!ok || hdr == .uncorr)).run s := by
  rw [cxpPacketAct, run_get, run_when, if_pos hon]
  simp only [hc]
  rfl

theorem cxpPacket_line {dt : BitVec 6} {depth : BitVec 5} {px : List (BitVec 16)} {hdr : EccError} {ok trig : Bool} {comps : Nat}
    (hc : cxpComps dt.toNat depth.toNat = some comps) : (cxpPacketAct n (.line dt depth px hdr ok trig)).run s =
      (cxpDelivered s n depth.toNat comps px (!ok || hdr == .uncorr) trig).run ((cxpLoss n (!ok || hdr == .uncorr)).run s) := by
  rw [cxpPacketAct, run_get, run_when, if_pos hon]
  simp only [hc]
  rfl

end

/-- The capture pages and the line error counter of CoaXPress port `n`. -/
def Scope.cxpLine (n : Nat) : Scope := { reg := fun r => Scope.capture.reg r ∨ r = Reg.CXP.LINE_ERR n, hw := fun _ => True }

theorem cxpLine_capture {a : Act} {n : Nat} (h : a.Only .capture) : a.Only (.cxpLine n) := h.weaken (fun _ h => .inl h) fun _ _ => trivial

theorem only_cxpDelivered (s : State) (n depth comps : Nat) (px : List (BitVec 16)) (lost triggered : Bool) :
    (cxpDelivered s n depth comps px lost triggered).Only (.cxpLine n) :=
  ⟨(only_when _ _).2 fun _ => trivial, (only_when _ _).2 fun _ => (only_bump _ _).2 (.inr rfl), (only_each _ _).2 fun _ hp =>
    ⟨(only_when _ _).2 fun _ => cxpLine_capture (only_pathEvent (mem_pathsOf hp) 4), cxpLine_capture (capture_cameraLine (mem_pathsOf hp) _ _ _ _ _)⟩, trivial⟩

/-- A register of the port other than its line error counter stays while lines reach the paths. -/
theorem Act.Only.cxpLine_rd {a : Act} {n : Nat} (h : a.Only (.cxpLine n)) {m off : Nat} (hm : m < 8) (ho : off < 4096) (hne : off ≠ 0x05C)
    (s : State) : (a.run s).rd ⟨.CXP, m, off⟩ = s.rd ⟨.CXP, m, off⟩ := by
  refine h.rd id (fun r hr => ?_) s
  rcases hr with ⟨-, hr⟩ | rfl
  · intro he
    rw [he] at hr
    simp only [RegRef.key, Blk.slot] at hr
    omega
  · exact key_ne_of_off (by simp only []; omega)

theorem only_cxpLoss (n : Nat) (lost : Bool) : (cxpLoss n lost).Only (.quiet (Reg.CXP.PKT_ERR n :: irqOf .CXP n)) := by simp [cxpLoss, irqOf]

theorem cxpLoss_effect {s : State} (hs : keysRise s.regs) {n : Nat} (hn : n < 8) (hc : (s.rd (Reg.CXP.PKT_ERR n)).toNat < 4294967295) :
    (((cxpLoss n true).run s).rd (Reg.CXP.PKT_ERR n)).toNat = (s.rd (Reg.CXP.PKT_ERR n)).toNat + 1 ∧
      ((cxpLoss n true).run s).bit (Reg.HDR.IRQ_PEND .CXP n) 1 = true := by
  have hm : RegRef.mask (Reg.CXP.PKT_ERR n) = 0xFFFFFFFF := (mask_cxp ⟨n, hn⟩).2.2.2.1
  obtain ⟨h1, h2, -⟩ := bumpRaise_effect (b := .CXP) (k := 1) hs hm hn (by decide) (show 0x058 % 4096 ≠ 0x10 by decide)
    (show 0x058 % 4096 ≠ 0x1C by decide)
  exact ⟨h1 (by omega), h2⟩

/-- A line that starts within the rate declared and finds room in the buffer is the path's newest (R98, R99). -/
theorem startLine_cur {s : State} {p : Nat} (hp : p < 16) (hlen : p < s.hw.cap.paths.length) {l : RawLine} (hfmt : l.fmt ≠ 0)
    (hroom : (s.lbRoom p l.fmt (s.pOut p * l.comps)).2 = true)
    (hrate : sumNat (((s.path p).window.filter fun w => decide (s.now < w.1 + 10000)).map (·.2)) + lineBytes l.fmt (s.pOut p * l.comps) ≤
      (s.rd (Reg.SFE.RATE_DECL p)).toNat * 10 * s.pAvgY p) :
    (((startLine p l).run s).path p).cur = (s.path p).cur ++ [l] := by
  obtain ⟨⟨drop, room⟩, hr⟩ : ∃ x, s.lbRoom p l.fmt (s.pOut p * l.comps) = x := ⟨_, rfl⟩
  obtain rfl : room = true := by rw [hr] at hroom; exact hroom
  have hlast : (Act.seq (maxLines p) (showLines p)).Only (.pathPart PathSt.cur p) :=
    ⟨pathPart_maxLines (fun _ _ => rfl) p, (only_get _).2 fun _ => pathPart_status hp _ _ _⟩
  rw [startLine, run_get]
  simp only [hfmt, if_false, hr, Bool.not_true, Bool.false_eq_true]
  rw [if_neg (by simpa using hrate)]
  refine (hlast.pathPart _).trans ?_
  rw [path_run_self hlen]

/-- What a camera line that arrived whole leaves as the newest line of path `p` (R95, R97). -/
def IsWhole (vals : List (BitVec 16)) (l : RawLine) : Prop :=
  l.ready = true ∧ l.lost = false ∧ l.padded = false ∧ l.px.map (·.2) = vals

theorem cameraFmt_ne_zero (depth : Nat) : cameraFmt depth ≠ 0 := by
  rw [cameraFmt]
  split
  · decide
  · split <;> decide

theorem map_zipIdx_swap {α : Type} (l : List α) : (l.zipIdx.map fun (v, i) => (i, v)).map (·.2) = l := by
  rw [List.map_map]
  exact List.zipIdx_map_fst 0 l

theorem cameraLine_whole {s : State} {p : Nat} (hp : p < 16) (hlen : p < s.hw.cap.paths.length) (t : Trig) {depth comps : Nat}
    {px : List (BitVec 16)} (hpx : px.length = s.pPix p * comps)
    (hroom : (s.lbRoom p (cameraFmt depth) (s.pOut p * comps)).2 = true)
    (hrate : sumNat (((s.path p).window.filter fun w => decide (s.now < w.1 + 10000)).map (·.2)) +
      lineBytes (cameraFmt depth) (s.pOut p * comps) ≤ (s.rd (Reg.SFE.RATE_DECL p)).toNat * 10 * s.pAvgY p) :
    ∃ l, (((cameraLine p t depth comps px false).run s).path p).cur = (s.path p).cur ++ [l] ∧ IsWhole (px.map (cameraValue depth)) l := by
  rw [cameraLine, run_get]
  refine ⟨_, startLine_cur hp hlen (cameraFmt_ne_zero depth) hroom hrate, rfl, rfl, ?_, ?_⟩
  · simp [State.lineOff, hpx]
  · rw [map_zipIdx_swap]
    simp [← hpx]

/-- The only path that takes its lines from the port gets the line (R95, R97). -/
theorem cxpDelivered_whole {s : State} {n p : Nat} (hps : s.pathsOf 1 n = [p]) (hlen : p < s.hw.cap.paths.length) {depth comps : Nat}
    {px : List (BitVec 16)} (hpx : px.length = s.pPix p * comps) (triggered : Bool)
    (hroom : (s.lbRoom p (cameraFmt depth) (s.pOut p * comps)).2 = true)
    (hrate : sumNat (((s.path p).window.filter fun w => decide (s.now < w.1 + 10000)).map (·.2)) +
      lineBytes (cameraFmt depth) (s.pOut p * comps) ≤ (s.rd (Reg.SFE.RATE_DECL p)).toNat * 10 * s.pAvgY p) :
    ∃ l, (((cxpDelivered s n depth comps px false triggered).run s).path p).cur = (s.path p).cur ++ [l] ∧
      IsWhole (px.map (cameraValue depth)) l := by
  have hp : p < 16 := mem_pathsOf (s := s) (ty := 1) (i := n) (by simp [hps])
  have hoff : s.lineOff p comps px = false := by simp [State.lineOff, hpx]
  have hrun : ∃ (f : CapSt → CapSt) (t : Trig), (∀ c, (f c).paths = c.paths) ∧ (cxpDelivered s n depth comps px false triggered).run s =
      (cameraLine p t depth comps px false).run ((Act.cap f).run s) := by
    simp only [cxpDelivered, hps, List.any_cons, List.any_nil, hoff, Bool.or_self, Bool.and_false]
    generalize (if triggered = true then (s.hw.cap.cxpTrig.getD n []).head? else none) = trig
    cases trig with
    | none => exact ⟨id, _, fun _ => rfl, rfl⟩
    | some x => exact ⟨fun c => { c with cxpTrig := updAt (fun l => l.drop 1) n c.cxpTrig }, x, fun _ => rfl, rfl⟩
  obtain ⟨f, t, hf, hrun⟩ := hrun
  have hpath : ((Act.cap f).run s).path = s.path := funext fun q => congrArg (fun l : List PathSt => l.getD q {}) (hf s.hw.cap)
  have hrd (r : RegRef) : ((Act.cap f).run s).rd r = s.rd r := rfl
  have hroom' : ((Act.cap f).run s).lbRoom p (cameraFmt depth) (s.pOut p * comps) = s.lbRoom p (cameraFmt depth) (s.pOut p * comps) := by
    simp only [State.lbRoom, State.lbUse, State.pAvgY, State.fld, hpath, hrd]
    rfl
  rw [hrun, ← hpath]
  exact cameraLine_whole hp (by show p < (f s.hw.cap).paths.length; rw [hf]; exact hlen) t hpx
    (by rw [← hroom]; exact congrArg Prod.snd hroom') (by rw [hpath]; exact hrate)

theorem only_shell_cxpPacket (n : Nat) (e : CameraEvent) : (cxpPacketAct n e).Only .shell := by
  have hc {a : Act} (h : a.Only (.cxpLine n)) : a.Only .shell := h.shell id id id id id id
  refine (only_get _).2 fun s => (only_when _ _).2 fun _ => ?_
  cases e with
  | frameStart num => exact (only_each _ _).2 fun p hp => shell_capture (capture_frameStart (mem_pathsOf hp))
  | frameEnd => exact (only_each _ _).2 fun p hp => shell_capture (capture_frameEnd (mem_pathsOf hp))
  | line dt depth px hdr ok trig =>
    refine ⟨(only_cxpLoss n _).shell id id id id id id, ?_⟩
    split
    · trivial
    · exact hc (only_cxpDelivered s n depth.toNat _ px _ trig)

/-- A line not whole is counted in PKT_ERR and raises the port's second source (R97). -/
theorem cxpPacket_lost {s : State} (hs : keysRise s.regs) {n : Nat} (hn : n < 8) (hon : s.bit (Reg.CXP.CXP_CTRL n) 0 = true)
    (hcnt : (s.rd (Reg.CXP.PKT_ERR n)).toNat < 4294967295) (dt : BitVec 6) (depth : BitVec 5) (px : List (BitVec 16)) {hdr : EccError} {ok : Bool}
    (hlost : ok = false ∨ hdr = .uncorr) (trig : Bool) :
    let t := (cxpPacketAct n (.line dt depth px hdr ok trig)).run s
    (t.rd (Reg.CXP.PKT_ERR n)).toNat = (s.rd (Reg.CXP.PKT_ERR n)).toNat + 1 ∧ t.bit (Reg.HDR.IRQ_PEND .CXP n) 1 = true := by
  intro t
  have hb : (!ok || hdr == .uncorr) = true := by rcases hlost with rfl | rfl <;> simp
  obtain ⟨h1, h2⟩ := cxpLoss_effect hs hn hcnt
  have hkeep : t.rd (Reg.CXP.PKT_ERR n) = ((cxpLoss n true).run s).rd (Reg.CXP.PKT_ERR n) ∧
      t.rd (Reg.HDR.IRQ_PEND .CXP n) = ((cxpLoss n true).run s).rd (Reg.HDR.IRQ_PEND .CXP n) := by
    cases hc : cxpComps dt.toNat depth.toNat with
    | none => simp only [t, cxpPacket_unsupported hon hc, hb, and_self]
    | some comps =>
      have ho := only_cxpDelivered s n depth.toNat comps px true trig
      simp only [t, cxpPacket_line hon hc, hb]
      exact ⟨ho.cxpLine_rd hn (by decide) (by decide) _, ho.cxpLine_rd hn (by decide) (by decide) _⟩
  exact ⟨hkeep.1 ▸ h1, (congrArg (BitVec.getLsbD · 1) hkeep.2).trans h2⟩

/-! ### Control transfers, events, links (R93, R121) -/

/-- CMD_GO relays the transfer that CMD_ADDR and CMD_DATA name. -/
theorem cxpCmd_effect {s : State} (hs : keysRise s.regs) {n : Fin 8} {v : Word} (hidle : s.bit (Reg.CXP.CMD_STATUS n) 0 = false)
    (hgo : (v.getLsbD 0 || v.getLsbD 1) = true) :
    let t := (cxpCmdAct n v).run s
    t.rd (Reg.CXP.CMD_STATUS n) = 1 ∧ t.tsc = s.tsc ∧ t.es = s.es ∧
      t.out = s.out ++ [.cxpControl n (v.getLsbD 1) (s.rd (Reg.CXP.CMD_ADDR n)) (s.rd (Reg.CXP.CMD_DATA n))] := by
  intro t
  have hrun : t = (Act.out (.cxpControl n (v.getLsbD 1) (s.rd (Reg.CXP.CMD_ADDR n)) (s.rd (Reg.CXP.CMD_DATA n)))).run
      ((Act.cap fun c => { c with cxpRead := updAt (fun _ => !v.getLsbD 1) n c.cxpRead }).run (s.setReg (Reg.CXP.CMD_STATUS n) 1)) := by
    simp only [t, cxpCmdAct, run_get, run_when, hidle, hgo, Bool.not_false, Bool.true_and, if_true]
    rfl
  have h1 : t.rd (Reg.CXP.CMD_STATUS n) = (s.setReg (Reg.CXP.CMD_STATUS n) 1).rd (Reg.CXP.CMD_STATUS n) := by rw [hrun]; rfl
  refine ⟨?_, by rw [hrun]; rfl, by rw [hrun]; rfl, by rw [hrun]; rfl⟩
  rw [h1, rd_setReg_same hs, (mask_cxp n).2.2.1]
  rfl

theorem cxpGo_effect {s : State} (hl : s.live) {n : Fin 8} {v : Word} (hidle : s.bit (Reg.CXP.CMD_STATUS n) 0 = false)
    (hgo : (v.getLsbD 0 || v.getLsbD 1) = true) (hacc : s.accepts 0 (Reg.CXP.CMD_GO n) v = true) :
    let t := (hostReg 0 (Reg.CXP.CMD_GO n) v).run s
    t.rd (Reg.CXP.CMD_STATUS n) = 1 ∧
      t.out = s.out ++ [.cxpControl n (v.getLsbD 1) (s.rd (Reg.CXP.CMD_ADDR n)) (s.rd (Reg.CXP.CMD_DATA n))] ∧ t.tsc = s.tsc ∧ t.es = s.es := by
  intro t
  obtain ⟨p, hp, hj⟩ : ∃ p, Written s _ _ _ p ∧ Journaled ((cxpCmdAct n v).run p) t := hostReg_run hl.1 (cxpGo_row n) hacc rfl
  have hrd {off : Nat} (h : 0x050 ≠ off % 4096) (h' : 0x30 ≠ off % 4096) : p.rd ⟨.CXP, n, off⟩ = s.rd ⟨.CXP, n, off⟩ := hp.rd_off h h'
  obtain ⟨h1, h2, h3, h4⟩ := cxpCmd_effect hp.rise (n := n) (v := v)
    ((congrArg (BitVec.getLsbD · 0) (hrd (by decide) (by decide))).trans hidle) hgo
  rw [hrd (by decide) (by decide), hrd (by decide) (by decide), hp.rest.out] at h4
  exact ⟨(hj.rd n.isLt (show 0x054 < 4096 by decide) (show Blk.CXP ≠ .JRNL by decide) (show Blk.CXP ≠ .CMP by decide)).trans h1, hj.out.trans h4, hj.tsc.trans (h2.trans hp.rest.tsc),
    hj.es.trans (h3.trans hp.rest.es)⟩

/-- CMD_STATUS after a reply: not busy, its code in bits 15:8. -/
theorem replyWord (ack : Byte) : (BitVec.ofNat 32 (ack.toNat * 256) &&& (0xFF01 : Word)) = BitVec.ofNat 32 (ack.toNat * 256) ∧
    (BitVec.ofNat 32 (ack.toNat * 256)).getLsbD 0 = false ∧ bits (BitVec.ofNat 32 (ack.toNat * 256)) 15 8 = ack.toNat := by
  revert ack; decide +kernel

theorem mask_cxpLink (n : Fin 8) (k : Fin 4) : (RegRef.mask (Reg.CXP.CXP_STATUS n)).getLsbD k = true := by
  rw [(mask_cxp n).1]; exact (show ∀ k : Fin 4, (0x1FF : Word).getLsbD k = true by decide) k

theorem cxpReply_effect {s : State} (hs : keysRise s.regs) {n : Fin 8} {ack : Byte} {data : Word} (hbusy : s.bit (Reg.CXP.CMD_STATUS n) 0 = true) :
    let t := (cxpReplyAct n ack data).run s
    t.bit (Reg.CXP.CMD_STATUS n) 0 = false ∧ t.fld (Reg.CXP.CMD_STATUS n) 15 8 = ack.toNat ∧ t.bit (Reg.HDR.IRQ_PEND .CXP n) 3 = true ∧
      (s.hw.cap.cxpRead.getD n false = true → t.rd (Reg.CXP.CMD_DATA n) = data) ∧
      Quiet ([Reg.CXP.CMD_STATUS n, Reg.CXP.CMD_DATA n] ++ irqOf .CXP n) s t := by
  obtain ⟨-, hmd, hms, -⟩ := mask_cxp n
  let u := (Act.wrN (Reg.CXP.CMD_STATUS n) (ack.toNat * 256)).run s
  let w := (Act.when (s.hw.cap.cxpRead.getD n false) (.wr (Reg.CXP.CMD_DATA n) data)).run u
  have hrun : (cxpReplyAct n ack data).run s = (Act.raise .CXP n 3).run w := by
    rw [cxpReplyAct, run_get, run_when, if_pos hbusy]
    rfl
  have hstatus : ((cxpReplyAct n ack data).run s).rd (Reg.CXP.CMD_STATUS n) = BitVec.ofNat 32 (ack.toNat * 256) := by
    have hw : w.rd (Reg.CXP.CMD_STATUS n) = u.rd (Reg.CXP.CMD_STATUS n) :=
      Act.Only.rd (p := .regs [Reg.CXP.CMD_DATA n]) (by simp) id
        (fun r hr => by simp at hr; subst hr; exact key_ne_of_off (show (0x04C : Nat) % 4096 ≠ 0x054 % 4096 by decide)) u
    rw [hrun, rd_raise_off (show 0x010 ≠ 0x054 % 4096 by decide) (show 0x01C ≠ 0x054 % 4096 by decide), hw]
    refine (rd_setReg_same hs _ _).trans ?_
    rw [hms]
    exact (replyWord ack).1
  refine ⟨?_, ?_, ?_, fun hread => ?_, ?_⟩
  · rw [State.bit, hstatus]
    exact (replyWord ack).2.1
  · rw [State.fld, hstatus]
    exact (replyWord ack).2.2
  · rw [hrun]
    exact bit_raise (rise_run _ (rise_run _ hs)) n.isLt (by decide)
  · rw [hrun, rd_raise_off (show 0x010 ≠ 0x04C % 4096 by decide) (show 0x01C ≠ 0x04C % 4096 by decide)]
    simp only [w, hread]
    exact rd_setReg_full (rise_run _ hs) hmd data
  · exact Act.Only.quiet (by simp [cxpReplyAct, irqOf]) s

theorem cxpEvent_effect {s : State} (hs : keysRise s.regs) (n : Fin 8) (w : Word) :
    let t := (cxpEventAct n false w).run s
    t.rd (Reg.CXP.EVENT_DATA n) = w ∧ t.bit (Reg.HDR.IRQ_PEND .CXP n) 2 = true ∧ Quiet (Reg.CXP.EVENT_DATA n :: irqOf .CXP n) s t := by
  refine ⟨?_, bit_raise (rise_run (.wr (Reg.CXP.EVENT_DATA n) w) hs) n.isLt (by decide), Act.Only.quiet (by simp [cxpEventAct, irqOf]) s⟩
  refine (rd_raise_off (show 0x010 ≠ 0x060 % 4096 by decide) (show 0x01C ≠ 0x060 % 4096 by decide)).trans ?_
  exact rd_setReg_full hs (mask_cxp n).2.2.2.2.1 w

theorem cxpHeartbeat_effect {s : State} (hs : keysRise s.regs) (n : Fin 8) (w : Word) :
    let t := (cxpEventAct n true w).run s
    t.rd (Reg.CXP.HEARTBEAT n) = w ∧ Quiet [Reg.CXP.HEARTBEAT n] s t :=
  ⟨rd_setReg_full hs (mask_cxp n).2.2.2.2.2 w, Act.Only.quiet (by simp [cxpEventAct]) s⟩

theorem cxpLinkLost_effect {s : State} (hs : keysRise s.regs) (n : Fin 8) (k : Fin 4) (hup : s.bit (Reg.CXP.CXP_STATUS n) k = true) :
    let t := (cxpLinkLostAct n k).run s
    t.bit (Reg.CXP.CXP_STATUS n) k = false ∧ t.bit (Reg.HDR.IRQ_PEND .CXP n) 0 = true ∧ Quiet (Reg.CXP.CXP_STATUS n :: irqOf .CXP n) s t := by
  have hm : (RegRef.mask (Reg.CXP.CXP_STATUS n)).getLsbD k = true := mask_cxpLink n k
  have hrun : (cxpLinkLostAct n k).run s = (Act.raise .CXP n 0).run ((Act.setFld (Reg.CXP.CXP_STATUS n) k k 0).run s) := by
    rw [cxpLinkLostAct, run_get, run_when, if_pos hup]
    rfl
  refine ⟨?_, ?_, Act.Only.quiet (by simp [cxpLinkLostAct, irqOf]) s⟩
  · rw [hrun, State.bit, rd_raise_off (show 0x010 ≠ 0x044 % 4096 by decide) (show 0x01C ≠ 0x044 % 4096 by decide)]
    exact bit_setFld hs hm
  · rw [hrun]
    exact bit_raise (rise_run _ hs) n.isLt (by decide)

theorem cxpDiscovery_effect {s : State} (hs : keysRise s.regs) (n : Fin 8) (k : Fin 4) (speed : BitVec 4)
    (hon : s.bit (Reg.CXP.CXP_CTRL n) 0 = true) (hspeed : speed.toNat ∈ [1, 2, 3, 5, 6, 10, 12]) (hk : k.val < s.cxpLinks n) :
    let t := (cxpDiscoveryAct n k speed.toNat).run s
    t.bit (Reg.CXP.CXP_STATUS n) k = true ∧ t.bit (Reg.CXP.CXP_STATUS n) 4 = true ∧ t.fld (Reg.CXP.CXP_STATUS n) 8 5 = speed.toNat ∧
      Quiet [Reg.CXP.CXP_STATUS n] s t := by
  have hmask := (mask_cxp n).1
  have hk4 := k.isLt
  have hm : (RegRef.mask (Reg.CXP.CXP_STATUS n)).getLsbD k = true := mask_cxpLink n k
  have hm4 : (RegRef.mask (Reg.CXP.CXP_STATUS n)).getLsbD 4 = true := by rw [hmask]; decide
  have hrun : (cxpDiscoveryAct n k speed.toNat).run s = (Act.setFld (Reg.CXP.CXP_STATUS n) 8 5 speed.toNat).run
      ((Act.setFld (Reg.CXP.CXP_STATUS n) 4 4 1).run ((Act.setFld (Reg.CXP.CXP_STATUS n) k k 1).run s)) := by
    rw [cxpDiscoveryAct, run_get, run_when, if_pos (by rw [hon, List.contains_iff_mem.2 hspeed, decide_eq_true hk]; rfl)]
    rfl
  refine ⟨?_, ?_, ?_, Act.Only.quiet (by simp [cxpDiscoveryAct]) s⟩
  · rw [hrun]
    refine (keeps_bit_setFld (by omega) hm _ (rise_run _ (rise_run _ hs))).trans ?_
    exact (keeps_bit_setFld (by omega) hm _ (rise_run _ hs)).trans (bit_setFld hs hm)
  · rw [hrun]
    exact (keeps_bit_setFld (by omega) hm4 _ (rise_run _ (rise_run _ hs))).trans (bit_setFld (rise_run _ hs) hm4)
  · rw [hrun]
    refine (fld_setFld_same (rise_run _ (rise_run _ hs)) _ _ (by decide) (by rw [hmask]; decide)).trans ?_
    exact Nat.mod_eq_of_lt speed.isLt

/-! ### CSI-2 packets (R94, R97, R122) -/

section
variable {s : State} {n vc : Nat} (hon : s.bit (Reg.CSI.CSI_CTRL n) 0 = true) (hvc : s.fld (Reg.CSI.CSI_CTRL n) 4 3 = vc)
include hon hvc

/-- A packet of a receiver that is on, on its virtual channel. -/
theorem csi_taken : (s.bit (Reg.CSI.CSI_CTRL n) 0 && s.fld (Reg.CSI.CSI_CTRL n) 4 3 == vc) = true := by rw [hon, hvc]; simp

theorem csiPacket_start (num : BitVec 16) : (csiPacketAct n vc (.frameStart num)).run s = (Act.each (s.pathsOf 2 n) frameStart).run
    ((Act.seq (.bump (Reg.CSI.FRAME_CNT n) 1) (.raise .CSI n 1)).run ((Act.setFld (Reg.CSI.CSI_STATUS n) 3 0 (s.csiLanes n)).run
      ((Act.setFld (Reg.CSI.CSI_STATUS n) 31 16 num.toNat).run ((Act.setFld (Reg.CSI.CSI_STATUS n) 4 4 1).run s)))) := by
  rw [csiPacketAct, run_get, run_when, if_pos (csi_taken hon hvc)]
  rfl

theorem csiPacket_end : (csiPacketAct n vc .frameEnd).run s = (Act.each (s.pathsOf 2 n) frameEnd).run
    ((Act.raise .CSI n 1).run ((Act.setFld (Reg.CSI.CSI_STATUS n) 4 0 0).run s)) := by
  rw [csiPacketAct, run_get, run_when, if_pos (csi_taken hon hvc)]
  rfl

end

/-- A register of a CSI-2 page stays while the capture path works. -/
theorem Act.Only.capture_csi {a : Act} (h : a.Only .capture) {n off : Nat} (hn : n < 16) (ho : off < 4096) (s : State) :
    (a.run s).rd ⟨.CSI, n, off⟩ = s.rd ⟨.CSI, n, off⟩ := by
  refine h.rd id (fun r hr he => ?_) s
  obtain ⟨hr, hr'⟩ := hr
  rw [he] at hr hr'
  simp only [RegRef.key, Blk.slot] at hr hr'
  omega

theorem csiStart_effect {s : State} (hs : keysRise s.regs) (n : Fin 16) {vc : Nat} (hon : s.bit (Reg.CSI.CSI_CTRL n) 0 = true)
    (hvc : s.fld (Reg.CSI.CSI_CTRL n) 4 3 = vc) (num : BitVec 16) :
    let t := (csiPacketAct n vc (.frameStart num)).run s
    t.bit (Reg.CSI.CSI_STATUS n) 4 = true ∧ t.fld (Reg.CSI.CSI_STATUS n) 31 16 = num.toNat ∧ t.bit (Reg.HDR.IRQ_PEND .CSI n) 1 = true := by
  intro t
  obtain ⟨hm, -⟩ := mask_csi n
  have hm4 : (RegRef.mask (Reg.CSI.CSI_STATUS n)).getLsbD 4 = true := by rw [hm]; decide
  have hmf : bits (RegRef.mask (Reg.CSI.CSI_STATUS n)) 31 16 = 2 ^ (31 + 1 - 16) - 1 := by rw [hm]; decide
  have hcap : (Act.each (s.pathsOf 2 n) frameStart).Only .capture := (only_each _ _).2 fun p hp => capture_frameStart (mem_pathsOf hp)
  let a := (Act.setFld (Reg.CSI.CSI_STATUS n) 4 4 1).run s
  let b := (Act.setFld (Reg.CSI.CSI_STATUS n) 31 16 num.toNat).run a
  let c := (Act.setFld (Reg.CSI.CSI_STATUS n) 3 0 (s.csiLanes n)).run b
  let d := (Act.bump (Reg.CSI.FRAME_CNT n) 1).run c
  have ha : keysRise a.regs := rise_run _ hs
  have hb : keysRise b.regs := rise_run _ ha
  have hrun : t = (Act.each (s.pathsOf 2 n) frameStart).run ((Act.raise .CSI n 1).run d) := csiPacket_start hon hvc num
  have hstatus : t.rd (Reg.CSI.CSI_STATUS n) = c.rd (Reg.CSI.CSI_STATUS n) := by
    rw [hrun, hcap.capture_csi n.isLt (by decide), rd_raise_off (show 0x010 ≠ 0x044 % 4096 by decide) (show 0x01C ≠ 0x044 % 4096 by decide)]
    exact rd_bump_off (show 0x058 % 4096 ≠ 0x044 % 4096 by decide)
  refine ⟨?_, ?_, ?_⟩
  · rw [State.bit, hstatus]
    refine (keeps_bit_setFld (by omega) hm4 b hb).trans ?_
    exact (keeps_bit_setFld (by omega) hm4 a ha).trans (bit_setFld hs hm4)
  · rw [State.fld, hstatus]
    refine (keeps_fld_setFld (by omega) hmf b hb).trans ?_
    exact (fld_setFld_same ha _ _ (by decide) hmf).trans (Nat.mod_eq_of_lt num.isLt)
  · rw [State.bit, hrun, hcap.capture_csi n.isLt (by decide)]
    exact bit_raise (rise_run _ (rise_run _ hb)) n.isLt (by decide)

theorem csiEnd_effect {s : State} (hs : keysRise s.regs) (n : Fin 16) {vc : Nat} (hon : s.bit (Reg.CSI.CSI_CTRL n) 0 = true)
    (hvc : s.fld (Reg.CSI.CSI_CTRL n) 4 3 = vc) :
    let t := (csiPacketAct n vc .frameEnd).run s
    t.bit (Reg.CSI.CSI_STATUS n) 4 = false ∧ t.bit (Reg.HDR.IRQ_PEND .CSI n) 1 = true := by
  intro t
  have hcap : (Act.each (s.pathsOf 2 n) frameEnd).Only .capture := (only_each _ _).2 fun p hp => capture_frameEnd (mem_pathsOf hp)
  have hm4 : (RegRef.mask (Reg.CSI.CSI_STATUS n)).getLsbD 4 = true := by rw [(mask_csi n).1]; decide
  have hrun : t = (Act.each (s.pathsOf 2 n) frameEnd).run ((Act.raise .CSI n 1).run ((Act.setFld (Reg.CSI.CSI_STATUS n) 4 0 0).run s)) :=
    csiPacket_end hon hvc
  refine ⟨?_, ?_⟩
  · rw [State.bit, hrun, hcap.capture_csi n.isLt (by decide), rd_raise_off (show 0x010 ≠ 0x044 % 4096 by decide) (show 0x01C ≠ 0x044 % 4096 by decide),
      run_setFld, ← State.bit, bit_setReg_same hs _ hm4, getLsbD_setBits]
    rfl
  · rw [State.bit, hrun, hcap.capture_csi n.isLt (by decide)]
    exact bit_raise (rise_run _ hs) n.isLt (by decide)

/-- A CSI-2 line reaches its paths, or, of another data type, none (R94). -/
def csiDelivered (s : State) (n dt depth : Nat) (px : List (BitVec 16)) (lost : Bool) : Act :=
  match csiType dt with
  | some (bits_, comps) => .when (s.fld (Reg.CSI.CSI_CTRL n) 10 5 == dt && bits_ == depth) <|
      .each (s.pathsOf 2 n) fun p => .seq (.when lost (pathEvent p 4)) (cameraLine p { stamp := s.freeStamp p } bits_ comps px lost)
  | none => .nil

theorem capture_csiDelivered (s : State) (n dt depth : Nat) (px : List (BitVec 16)) (lost : Bool) :
    (csiDelivered s n dt depth px lost).Only .capture := by
  rw [csiDelivered]
  split
  · exact (only_when _ _).2 fun _ => (only_each _ _).2 fun _ hp =>
      ⟨(only_when _ _).2 fun _ => only_pathEvent (mem_pathsOf hp) 4, capture_cameraLine (mem_pathsOf hp) _ _ _ _ _⟩
  · trivial

/-- What the header code and the checksum of a long packet leave in the receiver's counters (R97, R122). -/
def csiCounts (n : Nat) (hdr : EccError) (ok : Bool) : Act := .all
  [.when (hdr == .corr) (.bump (Reg.CSI.ECC_CORR n) 1), .when (hdr == .uncorr) (.seq (.bump (Reg.CSI.ECC_UNCORR n) 1) (.raise .CSI n 0)),
   .when (!ok && hdr != .uncorr) (.seq (.bump (Reg.CSI.CRC_ERR n) 1) (.raise .CSI n 0))]

theorem csiPacket_line {s : State} {n vc : Nat} (hon : s.bit (Reg.CSI.CSI_CTRL n) 0 = true) (hvc : s.fld (Reg.CSI.CSI_CTRL n) 4 3 = vc)
    (dt : BitVec 6) (depth : BitVec 5) (px : List (BitVec 16)) (hdr : EccError) (ok trig : Bool) :
    (csiPacketAct n vc (.line dt depth px hdr ok trig)).run s =
      (csiDelivered s n dt.toNat depth.toNat px (!ok || hdr == .uncorr)).run ((csiCounts n hdr ok).run s) := by
  rw [csiPacketAct, run_get, run_when, if_pos (csi_taken hon hvc)]
  rfl

theorem csiLine_effect {s : State} (hs : keysRise s.regs) (n : Fin 16) {vc : Nat} (hon : s.bit (Reg.CSI.CSI_CTRL n) 0 = true)
    (hvc : s.fld (Reg.CSI.CSI_CTRL n) 4 3 = vc) (dt : BitVec 6) (depth : BitVec 5) (px : List (BitVec 16)) (ok trig : Bool)
    (hcnt : (s.rd (Reg.CSI.ECC_UNCORR n)).toNat < 4294967295) :
    let t := (csiPacketAct n vc (.line dt depth px .uncorr ok trig)).run s
    (t.rd (Reg.CSI.ECC_UNCORR n)).toNat = (s.rd (Reg.CSI.ECC_UNCORR n)).toNat + 1 ∧ t.bit (Reg.HDR.IRQ_PEND .CSI n) 0 = true := by
  intro t
  have hcap := capture_csiDelivered s n dt.toNat depth.toNat px (!ok || EccError.uncorr == .uncorr)
  have hcounts : (csiCounts n .uncorr ok).run s = (Act.seq (.bump (Reg.CSI.ECC_UNCORR n) 1) (.raise .CSI n 0)).run s := by cases ok <;> rfl
  have hrun : t = (csiDelivered s n dt.toNat depth.toNat px (!ok || EccError.uncorr == .uncorr)).run
      ((Act.seq (.bump (Reg.CSI.ECC_UNCORR n) 1) (.raise .CSI n 0)).run s) := (csiPacket_line hon hvc dt depth px .uncorr ok trig).trans (by rw [hcounts])
  obtain ⟨h1, h2, -⟩ := bumpRaise_effect (b := .CSI) (i := n) (k := 0) hs (mask_csi n).2 n.isLt (by decide)
    (show 0x050 % 4096 ≠ 0x10 by decide) (show 0x050 % 4096 ≠ 0x1C by decide)
  rw [hrun, hcap.capture_csi n.isLt (by decide), State.bit, hcap.capture_csi n.isLt (by decide)]
  exact ⟨h1 (by omega), h2⟩

theorem only_shell_csiPacket (n : Fin 16) (vc : Nat) (e : CameraEvent) : (csiPacketAct n vc e).Only .shell := by
  refine (only_get _).2 fun s => (only_when _ _).2 fun _ => ?_
  have hraise (k : Nat) : (Act.raise .CSI n k).Only .shell := only_raise trivial trivial fun _ => trivial
  cases e with
  | frameStart num =>
    exact ⟨(only_setFld _ _ _ _).2 trivial, (only_setFld _ _ _ _).2 trivial, (only_setFld _ _ _ _).2 trivial, (only_bump _ _).2 trivial, hraise 1,
      (only_each _ _).2 fun p hp => shell_capture (capture_frameStart (mem_pathsOf hp)), trivial⟩
  | frameEnd =>
    exact ⟨(only_setFld _ _ _ _).2 trivial, hraise 1, (only_each _ _).2 fun p hp => shell_capture (capture_frameEnd (mem_pathsOf hp)), trivial⟩
  | line dt depth px hdr ok trig =>
    refine ⟨(only_when _ _).2 fun _ => (only_bump _ _).2 trivial, (only_when _ _).2 fun _ => ⟨(only_bump _ _).2 trivial, hraise 0⟩,
      (only_when _ _).2 fun _ => ⟨(only_bump _ _).2 trivial, hraise 0⟩, ?_, trivial⟩
    exact shell_capture (capture_csiDelivered s n dt.toNat depth.toNat px _)

/-- Settles O25: the frames, lines and transfers of the CoaXPress and CSI-2 ports, clause by clause from their effects. -/
theorem cameraCommands : Obligations.CameraCommands := by
  unfold Obligations.CameraCommands
  refine ⟨fun s n e hl hon hcnt => ?_, fun s n v hl hidle => ⟨fun hacc => ?_, fun hacc => ?_⟩, fun s n ack data hl hbusy => ?_,
    fun s n w hl => ⟨?_, ?_⟩, fun s n k hl hup => ?_, fun s n k speed hl hon hspeed hk => ?_, fun s n vc e hl hon hvc => ?_⟩
  · obtain ⟨h1, h2, h3, h4⟩ := shell_rest (only_shell_cxpPacket n e) s
    refine ⟨_, command_eq hl.2, h1, h2, h3, h4, ?_, ?_, ?_, ?_⟩
    · rintro num rfl p hp hlen
      rw [cxpPacket_start hon num]
      exact frameStarts_effect (fun q hq => mem_pathsOf hq) (pathsOf_nodup s 1 n) hp hlen
    · rintro rfl p hp hlen
      rw [cxpPacket_end hon]
      exact frameEnds_effect (fun q hq => mem_pathsOf hq) (pathsOf_nodup s 1 n) hp hlen
    · rintro dt depth px hdr ok trig rfl hlost
      exact cxpPacket_lost hl.1.1.1 n.isLt hon hcnt dt depth px hlost trig
    · rintro dt depth px hdr trig p comps rfl hhdr hps hc hlen hpx hroom hrate
      have hwhole : (!true || hdr == .uncorr) = false := by simpa using hhdr
      rw [cxpPacket_line hon hc, hwhole]
      exact cxpDelivered_whole hps hlen hpx trig hroom hrate
  · refine ⟨_, simply_eq hl.2, ?_⟩
    have hv : (((v ||| 1) &&& ~~~2).getLsbD 0 || ((v ||| 1) &&& ~~~2).getLsbD 1) = true := by simp
    have hread : ((v ||| 1) &&& ~~~2).getLsbD 1 = false := by simp
    have h := cxpGo_effect hl hidle hv hacc
    rwa [hread] at h
  · refine ⟨_, simply_eq hl.2, ?_⟩
    have hwrite : (v ||| 2).getLsbD 1 = true := by simp
    have h := cxpGo_effect hl hidle (by rw [hwrite, Bool.or_true]) hacc
    rwa [hwrite] at h
  · exact ⟨_, simply_eq hl.2, cxpReply_effect hl.1.1.1 hbusy⟩
  · exact ⟨_, simply_eq hl.2, cxpHeartbeat_effect hl.1.1.1 n w⟩
  · exact ⟨_, simply_eq hl.2, cxpEvent_effect hl.1.1.1 n w⟩
  · exact ⟨_, simply_eq hl.2, cxpLinkLost_effect hl.1.1.1 n k hup⟩
  · exact ⟨_, simply_eq hl.2, cxpDiscovery_effect hl.1.1.1 n k speed hon hspeed hk⟩
  · obtain ⟨h1, h2, h3, h4⟩ := shell_rest (only_shell_csiPacket n vc.toNat e) s
    refine ⟨_, command_eq hl.2, h1, h2, h3, h4, ?_, ?_, ?_⟩
    · rintro num rfl
      exact csiStart_effect hl.1.1.1 n hon hvc num
    · rintro rfl
      exact csiEnd_effect hl.1.1.1 n hon hvc
    · rintro dt depth px ok trig rfl hc
      exact csiLine_effect hl.1.1.1 n hon hvc dt depth px ok trig hc

end Sys2Proof.Machine

/-! ## Proofs: frogs, and the few-channel engines (10_contexts_and_scheduling, 03_engines_and_arrays) -/

namespace Sys2Proof.Machine

-- One theorem after the other: elaborated side by side, they hold more threads than the memory limit of a check allows.
set_option Elab.async false

/-! ### What a frog changes (R435, R436, R444) -/

/-- What the release of a command's engines may change: their shown state, and block state. -/
def Scope.freeing : Scope := { reg := fun r => r.off = 0x044 ∧ (r.blk = .ENG ∨ r.blk = .FCE) }

theorem freeing_accrue : accrue.Only .freeing := by simp [accrue, Act.ctx, Scope.freeing]

theorem freeing_chargeVt (c t : Nat) : (chargeVt c t).Only .freeing := by simp [chargeVt, Act.ctx, Scope.freeing]

theorem freeing_catchUp (c : Nat) : (catchUp c).Only .freeing := by
  refine (only_get _).2 fun s => (only_when _ _).2 fun _ => ?_
  split
  · trivial
  · trivial

theorem freeing_chargeEngines (c : Cmd) (es : List Nat) (who : Payer) : (chargeEngines c es who).Only .freeing := by
  refine (only_get _).2 fun s => ?_
  cases who with
  | own => exact ⟨trivial, freeing_chargeVt _ _, trivial, trivial⟩
  | preemptor =>
    refine ⟨?_, trivial⟩
    cases c.preemptor with
    | none => trivial
    | some p => exact freeing_chargeVt _ _
  | nobody => trivial

theorem freeing_chargeRun (c : Cmd) (who : Payer) : (chargeRun c who).Only .freeing := (only_get _).2 fun _ => freeing_chargeEngines _ _ _

theorem freeing_closeWait (c : Cmd) : (closeWait c).Only .freeing := by
  refine (only_get _).2 fun s => ?_
  split
  · exact ⟨trivial, trivial⟩
  · trivial

theorem freeing_releaseEng (p : Nat) : (releaseEng p).Only .freeing := by
  simp only [releaseEng, only_get, only_all_cons, only_all_nil, only_when, setEngState, only_setFld]
  exact fun s => ⟨trivial, fun _ => ⟨rfl, .inl rfl⟩, ⟨rfl, .inl rfl⟩, trivial⟩

theorem freeing_releaseBlocks (id : Nat) : (releaseBlocks id).Only .freeing := by
  simp only [releaseBlocks, only_get, only_all_cons, only_all_nil, only_each, only_when, only_setFld, only_hw]
  exact fun s => ⟨fun i _ => ⟨trivial, fun _ => ⟨rfl, .inr rfl⟩, ⟨rfl, .inr rfl⟩, trivial⟩, trivial, trivial⟩

theorem freeing_releaseAll (c : Cmd) : (releaseAll c).Only .freeing :=
  (only_get _).2 fun _ => ⟨freeing_accrue, freeing_closeWait _, (only_each _ _).2 fun _ _ => freeing_releaseEng _, freeing_releaseBlocks _, trivial⟩

/-- What one frog may change: the shown state of engines, FROG_CNT, and block state. -/
def Scope.frogged : Scope := { reg := fun r => Scope.freeing.reg r ∨ r = Reg.DISP.FROG_CNT }

theorem frogged_freeing {a : Act} (h : a.Only .freeing) : a.Only .frogged := h.weaken (fun _ h => .inl h) fun _ _ => trivial

theorem frogged_frogOne (id detail part : Nat) (who : Payer) (counts : Bool) : (frogOne id detail part who counts).Only .frogged :=
  only_withCmd fun _ _ _ => (only_get _).2 fun _ => ⟨frogged_freeing (freeing_chargeRun _ _), frogged_freeing (freeing_releaseAll _),
    frogged_freeing (freeing_catchUp _), trivial, (only_bump _ _).2 (.inr rfl), trivial⟩

/-- What a frog for a cause may change: beside that, what the end of a command at its limit does. -/
def Scope.frogging : Scope := { reg := fun r => endReg r ∨ r ∈ Reg.DISP.FROG_CNT :: irqOf .DISP 0, mem := True, poison := True }

theorem frogging_frogged {a : Act} (h : a.Only .frogged) : a.Only .frogging := by
  refine h.weaken (fun r hr => ?_) (fun _ _ => trivial) (mem := fun h => h.elim) (poison := fun h => h.elim)
  rcases hr with hr | rfl
  · exact .inl (.inr (.inl hr))
  · exact .inr List.mem_cons_self

theorem frogging_ending {a : Act} (h : a.Only .ending) : a.Only .frogging := h.weaken (fun _ h => .inl h) fun _ _ => trivial

theorem frogging_dispRaise (k : Nat) : (dispRaise k).Only .frogging :=
  only_raise (.inr (by simp [irqOf])) (.inr (by simp [irqOf])) fun _ => trivial

theorem frogging_frogAct (id detail part : Nat) : (frogAct id detail part).Only .frogging := by
  have hone (id detail part : Nat) (who : Payer) (counts : Bool) := frogging_frogged (frogged_frogOne id detail part who counts)
  refine only_withCmd fun _ _ _ => (only_get _).2 fun _ => (only_ite _ _ _).2 ⟨fun _ => ⟨frogging_ending (ending_endRequest _ _ _ _ _ _),
    frogging_dispRaise _⟩, fun _ => (only_ite _ _ _).2 ⟨fun _ => ⟨(only_each _ _).2 fun x _ => (only_ite _ _ _).2 ⟨fun _ => hone _ _ _ _ _,
      fun _ => (only_when _ _).2 fun _ => hone _ _ _ _ _⟩, frogging_dispRaise _⟩, fun _ => hone _ _ _ _ _⟩⟩

/-- A register that neither the end of a command nor a frog writes stays. -/
theorem Act.Only.frogging_rd {a : Act} (h : a.Only .frogging) {r : RegRef} (hr : ∀ q, endReg q ∨ q ∈ Reg.DISP.FROG_CNT :: irqOf .DISP 0 → q.key ≠ r.key)
    (s : State) : (a.run s).rd r = s.rd r := h.rd id hr s

/-! ### Few-channel engines (R157, R158, R164, R165) -/

theorem mask_fce (i : Fin 4) : RegRef.mask (Reg.FCE.COL_REPAIR i) = 0xFF ∧ RegRef.mask (Reg.FCE.CHK_CNT i) = 0xFFFFFFFF ∧
    RegRef.mask (Reg.FCE.CHK_PERM i) = 0xFFFFFFFF ∧ RegRef.mask (Reg.FCE.OUT_POS_LO i) = 0xFFFFFFFF ∧
    RegRef.mask (Reg.FCE.OUT_POS_HI i) = 0xFFFFFFFF ∧ RegRef.mask (Reg.FCE.BUSY_CYC i) = 0xFFFFFFFF := by revert i; decide +kernel

/-- A 64-bit count wraps. -/
theorem rd64_bump64 {s : State} (hs : keysRise s.regs) {lo hi : RegRef} (hlo : lo.mask = 0xFFFFFFFF) (hhi : hi.mask = 0xFFFFFFFF)
    (hne : hi.key ≠ lo.key) (n : Nat) : ((Act.bump64 lo hi n).run s).rd64 lo hi = (s.rd64 lo hi + n) % 2 ^ 64 := by
  have hrun : (Act.bump64 lo hi n).run s = (Act.wr64 lo hi ((s.rd64 lo hi + n) % 2 ^ 64)).run s := by
    simp only [Act.bump64, run_get, Act.wr64]
    rw [show (s.rd64 lo hi + n) % 2 ^ 64 % 4294967296 = (s.rd64 lo hi + n) % 4294967296 by omega,
      show (s.rd64 lo hi + n) % 2 ^ 64 / 4294967296 % 4294967296 = (s.rd64 lo hi + n) / 4294967296 % 4294967296 by omega]
  rw [hrun]
  exact rd64_wr64 hs hlo hhi hne (Nat.mod_lt _ (by decide))

theorem fceLoad_good {s : State} {i : Nat} (hact : s.fceActive i = true) (hload : (s.fce i).loaded = false) (hi : i < s.hw.fce.length) :
    let t := (fceLoadAct i false).run s
    (t.fce i).loaded = true ∧ SameRegs [] s t ∧ SameRest s t := by
  intro t
  have hrun : t = (Act.fce i fun f => { f with loaded := true }).run s := by
    simp only [t, fceLoadAct, run_get, run_when, hact, hload, Bool.not_false, Bool.and_true, if_true]
    rfl
  obtain ⟨hregs, hrest⟩ := Act.Only.frame (l := []) (a := Act.fce i fun f => { f with loaded := true }) (by simp) s
  exact ⟨by rw [hrun, fce_run_fce hi], hrun ▸ hregs, hrun ▸ hrest⟩

theorem fceLoad_parity {s : State} (hs : keysRise s.regs) (i : Fin 4) (hact : s.fceActive i = true) (hload : (s.fce i).loaded = false) :
    let t := (fceLoadAct i true).run s
    t.pend .FCE i 2 = true ∧ Quiet (irqOf .FCE i) s t := by
  intro t
  have hrun : t = (Act.raise .FCE i 2).run s := by
    simp only [t, fceLoadAct, run_get, run_when, hact, hload, Bool.not_false, Bool.and_true, if_true]
  rw [hrun]
  exact ⟨bit_raise hs i.isLt (by decide), Act.Only.quiet (by simp [irqOf]) s⟩

/-- What an output position leads to, once its cycles are counted. -/
def fceOutcome (s : State) (i : Nat) (alt : List (Fin 66 × Int)) : Act :=
  if !s.fceMiss i alt false then .seq (.bump64 (Reg.FCE.OUT_POS_LO i) (Reg.FCE.OUT_POS_HI i) 1)
    (.fce i fun x => { x with once := false, pos := x.pos + 1,
                              corr := if x.once then s.now :: x.corr.filter (fun t => decide (s.now < t + 1000000000)) else x.corr })
  else if (s.fce i).once then .all
    [(match (s.fce i).cmd.bind s.cmd with
      | some c => .when (c.cls == 2) (.event (.mismatch 36 c.ctx))
      | none => .nil),
     .bump (Reg.FCE.CHK_PERM i) 1, .fce i (fun x => { x with diag := 1 }), setFceState i eDIAG]
  else .seq (.bump (Reg.FCE.CHK_CNT i) 1) (.fce i fun x => { x with once := true, onceAt := s.now })

section
variable {s : State} {i : Fin 4} {alt : List (Fin 66 × Int)} (hs : keysRise s.regs) (hact : s.fceActive i = true)
  (hload : (s.fce i).loaded = true) (hpos : (s.fce i).pos < s.fceWork i) (hi : i.val < s.hw.fce.length)
include hact hload hpos

theorem fcePosition_parity_run : (fcePositionAct i true alt).run s =
    (Act.fce i fun x => { x with loaded := false }).run ((Act.raise .FCE i 2).run s) := by
  rw [fcePositionAct, run_get, run_when, if_pos (by rw [hact, hload, decide_eq_true hpos]; rfl)]
  rfl

theorem fcePosition_run (hinj : s.bit (Reg.FCE.INJECT i) 0 = false) : (fcePositionAct i false alt).run s =
    (fceOutcome s i alt).run ((Act.bump (Reg.FCE.BUSY_CYC i) (s.fld (Reg.FCE.FCE_STATE i) 9 5)).run s) := by
  rw [fcePositionAct, run_get, run_when, if_pos (by rw [hact, hload, decide_eq_true hpos]; rfl)]
  simp only [hinj, Bool.false_and]
  rfl

end

section
variable {s : State} (hs : keysRise s.regs) (i : Fin 4) (n : Nat)

/-- The cycles of a position, counted. -/
def fceCycles (i n : Nat) : Act := .bump (Reg.FCE.BUSY_CYC i) n

theorem fceCycles_fce : ((fceCycles i n).run s).hw.fce = s.hw.fce :=
  Act.Only.hw (p := .stores [Reg.FCE.BUSY_CYC i]) (by simp [fceCycles]) (·.fce) (fun _ h => h.elim) s

theorem fceCycles_rd {off : Nat} (h : 0x05C ≠ off % 4096) : ((fceCycles i n).run s).rd ⟨.FCE, i, off⟩ = s.rd ⟨.FCE, i, off⟩ := rd_bump_off h

include hs

theorem fceGood_effect {alt : List (Fin 66 × Int)} (hmiss : s.fceMiss i alt false = false) (hi : i.val < s.hw.fce.length) :
    let t := (fceOutcome s i alt).run ((fceCycles i n).run s)
    (t.fce i).once = false ∧ (t.fce i).pos = (s.fce i).pos + 1 ∧ t.rd64 (Reg.FCE.OUT_POS_LO i) (Reg.FCE.OUT_POS_HI i) =
        (s.rd64 (Reg.FCE.OUT_POS_LO i) (Reg.FCE.OUT_POS_HI i) + 1) % 2 ^ 64 ∧ Counts (Reg.FCE.BUSY_CYC i) n s t ∧
      SameRegs [Reg.FCE.BUSY_CYC i, Reg.FCE.OUT_POS_LO i, Reg.FCE.OUT_POS_HI i] s t ∧ SameRest s t := by
  intro t
  obtain ⟨-, -, -, hlo, hhi, hbusy⟩ := mask_fce i
  let f : FceSt → FceSt := fun x => { x with once := false, pos := x.pos + 1,
                                             corr := if x.once then s.now :: x.corr.filter (fun t => decide (s.now < t + 1000000000)) else x.corr }
  let b := (fceCycles i n).run s
  let c := (Act.bump64 (Reg.FCE.OUT_POS_LO i) (Reg.FCE.OUT_POS_HI i) 1).run b
  have hrun : t = (Act.fce i f).run c := by simp only [t, fceOutcome, hmiss, Bool.not_false, if_true]; rfl
  have hcf : c.hw.fce = s.hw.fce := (Act.Only.hw (p := .stores [Reg.FCE.OUT_POS_LO i, Reg.FCE.OUT_POS_HI i]) (by simp) (·.fce) (fun _ h => h.elim) b).trans
    (fceCycles_fce i n)
  have hfce : t.fce i = f (s.fce i) := by rw [hrun, fce_run_fce (by rw [hcf]; exact hi), State.fce, hcf]; rfl
  obtain ⟨hregs, hrest⟩ := Act.Only.frame (l := [Reg.FCE.BUSY_CYC i, Reg.FCE.OUT_POS_LO i, Reg.FCE.OUT_POS_HI i])
    (a := .all [fceCycles i n, .bump64 (Reg.FCE.OUT_POS_LO i) (Reg.FCE.OUT_POS_HI i) 1, .fce i f]) (by simp [fceCycles]) s
  have hall : (Act.all [fceCycles i n, .bump64 (Reg.FCE.OUT_POS_LO i) (Reg.FCE.OUT_POS_HI i) 1, .fce i f]).run s = t := hrun.symm
  rw [hall] at hregs hrest
  refine ⟨by rw [hfce], by rw [hfce], ?_, ?_, hregs, hrest⟩
  · have h64 : b.rd64 (Reg.FCE.OUT_POS_LO i) (Reg.FCE.OUT_POS_HI i) = s.rd64 (Reg.FCE.OUT_POS_LO i) (Reg.FCE.OUT_POS_HI i) := by
      rw [State.rd64, fceCycles_rd i n (by decide), fceCycles_rd i n (by decide), State.rd64]
    rw [hrun, ← h64]
    exact rd64_bump64 (rise_run _ hs) hlo hhi (key_ne_of_off (show 0x058 % 4096 ≠ 0x054 % 4096 by decide)) 1
  · have hrd : t.rd (Reg.FCE.BUSY_CYC i) = b.rd (Reg.FCE.BUSY_CYC i) := by
      rw [hrun]
      exact Act.Only.rd (p := .regs [Reg.FCE.OUT_POS_LO i, Reg.FCE.OUT_POS_HI i]) (by simp) id (fun r hr => by
        rcases (by simpa using hr : r = Reg.FCE.OUT_POS_LO i ∨ r = Reg.FCE.OUT_POS_HI i) with rfl | rfl
        · exact key_ne_of_off (show 0x054 % 4096 ≠ 0x05C % 4096 by decide)
        · exact key_ne_of_off (show 0x058 % 4096 ≠ 0x05C % 4096 by decide)) b
    intro h
    rw [hrd]
    exact counts_bump hs hbusy n h

theorem fceFirst_effect {alt : List (Fin 66 × Int)} (hmiss : s.fceMiss i alt false = true) (honce : (s.fce i).once = false)
    (hi : i.val < s.hw.fce.length) :
    let t := (fceOutcome s i alt).run ((fceCycles i n).run s)
    (t.fce i).once = true ∧ Counts (Reg.FCE.CHK_CNT i) 1 s t ∧ SameRegs [Reg.FCE.BUSY_CYC i, Reg.FCE.CHK_CNT i] s t ∧ SameRest s t := by
  intro t
  let f : FceSt → FceSt := fun x => { x with once := true, onceAt := s.now }
  let b := (fceCycles i n).run s
  let c := (Act.bump (Reg.FCE.CHK_CNT i) 1).run b
  have hrun : t = (Act.fce i f).run c := by
    simp only [t, fceOutcome, hmiss, honce, Bool.not_true, Bool.false_eq_true, if_false]; rfl
  have hcf : c.hw.fce = s.hw.fce := (Act.Only.hw (p := .stores [Reg.FCE.CHK_CNT i]) (by simp) (·.fce) (fun _ h => h.elim) b).trans (fceCycles_fce i n)
  obtain ⟨hregs, hrest⟩ := Act.Only.frame (l := [Reg.FCE.BUSY_CYC i, Reg.FCE.CHK_CNT i])
    (a := .all [fceCycles i n, .bump (Reg.FCE.CHK_CNT i) 1, .fce i f]) (by simp [fceCycles]) s
  have hall : (Act.all [fceCycles i n, .bump (Reg.FCE.CHK_CNT i) 1, .fce i f]).run s = t := hrun.symm
  rw [hall] at hregs hrest
  refine ⟨by rw [hrun, fce_run_fce (by rw [hcf]; exact hi)], fun h => ?_, hregs, hrest⟩
  have hb : b.rd (Reg.FCE.CHK_CNT i) = s.rd (Reg.FCE.CHK_CNT i) := fceCycles_rd i n (by decide)
  rw [hrun, ← hb]
  exact counts_bump (rise_run _ hs) (mask_fce i).2.1 1 (by rw [hb]; exact h)

theorem fceAgain_effect {alt : List (Fin 66 × Int)} (hmiss : s.fceMiss i alt false = true) (honce : (s.fce i).once = true)
    (hi : i.val < s.hw.fce.length) :
    let t := (fceOutcome s i alt).run ((fceCycles i n).run s)
    t.fceState i = eDIAG ∧ (t.fce i).diag = 1 ∧ Counts (Reg.FCE.CHK_PERM i) 1 s t ∧
      SameRegs [Reg.FCE.BUSY_CYC i, Reg.FCE.CHK_PERM i, Reg.FCE.FCE_STATE i] s t ∧ SameRest s t := by
  intro t
  obtain ⟨told, htold, hrun⟩ : ∃ told : Act, told.Only { hw := fun f => ∀ h : Hw, (f h).fce = h.fce } ∧
      t = (setFceState i eDIAG).run ((Act.fce i fun x => { x with diag := 1 }).run ((Act.bump (Reg.FCE.CHK_PERM i) 1).run
        (told.run ((fceCycles i n).run s)))) := by
    simp only [t, fceOutcome, hmiss, honce, Bool.not_true, Bool.false_eq_true, if_false, if_true]
    refine ⟨_, ?_, rfl⟩
    split
    · exact (only_when _ _).2 fun _ _ => rfl
    · trivial
  let b := (fceCycles i n).run s
  let c := told.run b
  let d := (Act.bump (Reg.FCE.CHK_PERM i) 1).run c
  have hrd (r : RegRef) : c.rd r = b.rd r := htold.rd id (fun _ h => h.elim) b
  have hdf : d.hw.fce = s.hw.fce := ((Act.Only.hw (p := .stores [Reg.FCE.CHK_PERM i]) (by simp) (·.fce) (fun _ h => h.elim) c).trans
    (htold.hw (·.fce) (fun _ h => h) b)).trans (fceCycles_fce i n)
  have hc : keysRise c.regs := rise_run _ (rise_run _ hs)
  have honly : (Act.all [fceCycles i n, told, .bump (Reg.FCE.CHK_PERM i) 1, .fce i fun x => { x with diag := 1 }, setFceState i eDIAG]).Only
      (.regs [Reg.FCE.BUSY_CYC i, Reg.FCE.CHK_PERM i, Reg.FCE.FCE_STATE i]) :=
    ⟨by simp [fceCycles], htold.weaken (fun _ h => h.elim) fun _ _ => trivial, by simp, by simp, by simp [setFceState], trivial⟩
  obtain ⟨hregs, hrest⟩ := Act.Only.frame honly s
  have hall : (Act.all [fceCycles i n, told, .bump (Reg.FCE.CHK_PERM i) 1, .fce i fun x => { x with diag := 1 }, setFceState i eDIAG]).run s = t := hrun.symm
  rw [hall] at hregs hrest
  refine ⟨?_, ?_, fun h => ?_, hregs, hrest⟩
  · rw [hrun]
    exact fceState_setFceState (rise_run _ (rise_run _ hc)) i (by decide)
  · rw [hrun]
    exact congrArg FceSt.diag (fce_run_fce (s := d) (by rw [hdf]; exact hi) fun x => { x with diag := 1 })
  · have hb : c.rd (Reg.FCE.CHK_PERM i) = s.rd (Reg.FCE.CHK_PERM i) := (hrd _).trans (fceCycles_rd i n (by decide))
    rw [hrun, ← hb]
    have hst : ((setFceState i eDIAG).run ((Act.fce i fun x => { x with diag := 1 }).run d)).rd (Reg.FCE.CHK_PERM i) = d.rd (Reg.FCE.CHK_PERM i) :=
      rd_setReg_off (r := Reg.FCE.FCE_STATE i) (show 0x044 % 4096 ≠ 0x050 % 4096 by decide)
    rw [hst]
    exact counts_bump hc (mask_fce i).2.2.1 1 (by rw [hb]; exact h)

theorem fceParity_effect (hi : i.val < s.hw.fce.length) :
    let t := (Act.fce i fun x => { x with loaded := false }).run ((Act.raise .FCE i 2).run s)
    t.pend .FCE i 2 = true ∧ (t.fce i).loaded = false ∧ (t.fce i).pos = (s.fce i).pos ∧ SameRegs (irqOf .FCE i) s t ∧ SameRest s t := by
  intro t
  obtain ⟨hregs, hrest⟩ := Act.Only.frame (l := irqOf .FCE i) (a := .seq (.raise .FCE i 2) (.fce i fun x => { x with loaded := false })) (by simp [irqOf]) s
  have hb : ((Act.raise .FCE i 2).run s).hw.fce = s.hw.fce :=
    Act.Only.hw (p := .quiet (irqOf .FCE i)) (by simp [irqOf]) (·.fce) (fun _ ⟨_, h⟩ => by subst h; exact fun _ => rfl) s
  have hfce : t.fce i = { s.fce i with loaded := false } := by
    rw [fce_run_fce (by rw [hb]; exact hi), State.fce, hb]; rfl
  exact ⟨bit_raise (s := s) hs i.isLt (by decide), by rw [hfce], by rw [hfce], hregs, hrest⟩

end

/-! ### The diagnostic of a few-channel engine (R158, R164) -/

/-- DIAG_RESULT of a diagnostic that DIAG_CMD started. -/
def fceResult : Option (BitVec 7) → Nat
  | some c => 1 + 4 * c.toNat
  | none => 3

section
variable {s : State} (hs : keysRise s.regs) (i : Fin 4)
include hs

theorem fceReport_effect {located : Option (BitVec 7)} (hdiag : (s.fce i).diag = 2) (hi : i.val < s.hw.fce.length) :
    let t := (fceDiagAct i located).run s
    (t.fce i).diag = 0 ∧ t.fceState i = (s.fce i).diagFrom % 16 ∧ SameRegs [Reg.FCE.DIAG_RESULT i, Reg.FCE.FCE_STATE i] s t ∧ SameRest s t := by
  intro t
  let a := (Act.wrN (Reg.FCE.DIAG_RESULT i) (fceResult located)).run s
  let b := (setFceState i (s.fce i).diagFrom).run a
  have hrun : t = (Act.fce i fun x => { x with diag := 0 }).run b := by
    simp only [t, fceDiagAct, run_get, hdiag, if_true]
    cases located <;> rfl
  obtain ⟨hregs, hrest⟩ := Act.Only.frame (l := [Reg.FCE.DIAG_RESULT i, Reg.FCE.FCE_STATE i])
    (a := .all [.wrN (Reg.FCE.DIAG_RESULT i) (fceResult located), setFceState i (s.fce i).diagFrom, .fce i fun x => { x with diag := 0 }])
    (by simp [setFceState]) s
  have hall : (Act.all [.wrN (Reg.FCE.DIAG_RESULT i) (fceResult located), setFceState i (s.fce i).diagFrom,
    .fce i fun x => { x with diag := 0 }]).run s = t := hrun.symm
  rw [hall] at hregs hrest
  refine ⟨?_, ?_, hregs, hrest⟩
  · rw [hrun]
    exact congrArg FceSt.diag (fce_run_fce (s := b) hi fun x => { x with diag := 0 })
  · rw [hrun]
    exact fld_setFld_same (s := a) (rise_run _ hs) (Reg.FCE.FCE_STATE i) (hi := 3) (lo := 0) _ (by decide) (by rw [mask_fceState]; decide)

theorem fceRepair_effect (c : BitVec 7) (hdiag : (s.fce i).diag = 1) (hfree : s.bit (Reg.FCE.COL_REPAIR i) 0 = false) (hi : i.val < s.hw.fce.length) :
    let t := (fceDiagAct i (some c)).run s
    t.rd (Reg.FCE.COL_REPAIR i) = BitVec.ofNat 32 (1 + 2 * c.toNat) &&& RegRef.mask (Reg.FCE.COL_REPAIR i) ∧
      t.pend .FCE i 0 = true ∧ t.fceState i = eRUN ∧ (t.fce i).loaded = false ∧
      SameRegs ([Reg.FCE.COL_REPAIR i, Reg.FCE.FCE_STATE i] ++ irqOf .FCE i) s t ∧ SameRest s t := by
  intro t
  let f : FceSt → FceSt := fun x => { x with diag := 0, once := false, loaded := false }
  let e : Event := .darn { kind := 7, inst := i, unit := c.toNat, cause := 0, spare := some 65 }
  let a := (Act.wrN (Reg.FCE.COL_REPAIR i) (1 + 2 * c.toNat)).run s
  let b := (Act.raise .FCE i 0).run a
  let d := (setFceState i eRUN).run b
  have ha : keysRise a.regs := rise_run _ hs
  have hrun : t = (Act.event e).run ((Act.fce i f).run d) := by
    simp only [t, fceDiagAct, run_get, hdiag, hfree, beq_self_eq_true]
    rfl
  obtain ⟨hregs, hrest⟩ := Act.Only.frame (l := [Reg.FCE.COL_REPAIR i, Reg.FCE.FCE_STATE i] ++ irqOf .FCE i)
    (a := .all [.wrN (Reg.FCE.COL_REPAIR i) (1 + 2 * c.toNat), .raise .FCE i 0, setFceState i eRUN, .fce i f, .event e])
    (by simp [setFceState, irqOf]) s
  have hall : (Act.all [.wrN (Reg.FCE.COL_REPAIR i) (1 + 2 * c.toNat), .raise .FCE i 0, setFceState i eRUN, .fce i f, .event e]).run s = t := hrun.symm
  rw [hall] at hregs hrest
  have hset {r : RegRef} (hr : 0x044 ≠ r.off % 4096) : d.rd r = b.rd r := rd_setReg_off (r := Reg.FCE.FCE_STATE i) hr
  have htd (r : RegRef) : t.rd r = d.rd r := by rw [hrun]; rfl
  refine ⟨?_, ?_, ?_, ?_, hregs, hrest⟩
  · rw [htd, hset (show 0x044 ≠ 0x048 % 4096 by decide), rd_raise_off (show 0x010 ≠ 0x048 % 4096 by decide) (show 0x01C ≠ 0x048 % 4096 by decide)]
    exact rd_setReg_same hs _ _
  · rw [State.pend, State.bit, htd, hset (show 0x044 ≠ 0x010 % 4096 by decide)]
    exact bit_raise ha i.isLt (by decide)
  · have h : d.fceState i = eRUN := fceState_setFceState (rise_run _ ha) i (by decide)
    exact (congrArg (bits · 3 0) (htd (Reg.FCE.FCE_STATE i))).trans h
  · have hdf : d.hw.fce = s.hw.fce :=
      Act.Only.hw (p := .quiet (Reg.FCE.FCE_STATE i :: irqOf .FCE i)) (a := .seq (.raise .FCE i 0) (setFceState i eRUN)) (by simp [setFceState, irqOf])
        (·.fce) (fun _ ⟨_, h⟩ => by subst h; exact fun _ => rfl) a
    rw [hrun]
    exact congrArg FceSt.loaded (fce_run_fce (s := d) (by rw [hdf]; exact hi) f)

/-- R158: no column located, or none left to repair it with. -/
theorem fceFault_effect :
    let t := (fceFault i).run s
    t.fceState i = eFAULT ∧ t.pend .FCE i 1 = true ∧ (t.fce i).cmd = none ∧ t.es = s.es ∧ t.tsc = s.tsc := by
  intro t
  obtain ⟨told, htold, hrun⟩ : ∃ told : Act, told.Only .frogging ∧ t = (Act.raise .FCE i 1).run ((setFceState i eFAULT).run
      ((Act.fce i fun f => { corr := f.corr, idleSince := s.now }).run (told.run s))) := by
    refine ⟨.seq (match (s.fce i).cmd.bind s.cmd with
        | some c => .when (c.cls == 2) (.event (.ctxFault c.ctx (s.fce i).onceAt))
        | none => .nil) (match (s.fce i).cmd with
        | some id => frogAct id 0x41 0xFFFF
        | none => .nil), ⟨?_, ?_⟩, rfl⟩
    · split
      · exact (only_when _ _).2 fun _ => trivial
      · trivial
    · split
      · exact frogging_frogAct _ _ _
      · trivial
  have htold' : keysRise (told.run s).regs := rise_run _ hs
  let u := (Act.fce i fun f => { corr := f.corr, idleSince := s.now }).run (told.run s)
  refine ⟨?_, ?_, ?_, ?_, ?_⟩
  · rw [hrun, State.fceState, State.fld, rd_raise_off (show 0x010 ≠ 0x044 % 4096 by decide) (show 0x01C ≠ 0x044 % 4096 by decide)]
    exact fceState_setFceState (s := u) htold' i (by decide)
  · rw [hrun]
    exact bit_raise (rise_run (setFceState i eFAULT) (s := u) htold') i.isLt (by decide)
  · have hfce : t.hw.fce = updAt (fun f => { corr := f.corr, idleSince := s.now }) i (told.run s).hw.fce := by
      rw [hrun]
      exact Act.Only.hw (p := .quiet (Reg.FCE.FCE_STATE i :: irqOf .FCE i)) (a := .seq (setFceState i eFAULT) (.raise .FCE i 1))
        (by simp [setFceState, irqOf]) (·.fce) (fun _ ⟨_, h⟩ => by subst h; exact fun _ => rfl) u
    rw [State.fce, hfce, getD_updAt]
    split <;> rfl
  · rw [hrun]
    exact (Act.Only.es (p := .quiet (Reg.FCE.FCE_STATE i :: irqOf .FCE i)) (a := .seq (setFceState i eFAULT) (.raise .FCE i 1))
      (by simp [setFceState, irqOf]) id u).trans (htold.es id s)
  · rw [hrun]
    exact (Act.Only.tsc (p := .quiet (Reg.FCE.FCE_STATE i :: irqOf .FCE i)) (a := .seq (setFceState i eFAULT) (.raise .FCE i 1))
      (by simp [setFceState, irqOf]) id u).trans (htold.tsc id s)

end

theorem fceLost_run {s : State} {i : Fin 4} (hdiag : (s.fce i).diag = 1) : (fceDiagAct i none).run s = (fceFault i).run s := by
  simp only [fceDiagAct, run_get, hdiag, beq_self_eq_true]
  rfl

/-! ### The augmentation test (R243) -/

theorem augTest_row : RegRef.row Reg.AUG.TEST_CMD = some ⟨0x060, 1, 0x04, .WO, 0x00000000, 0x00000000, 0x0, 0x00000000, false⟩ ∧
    RegRef.resetVal Reg.AUG.TEST_CMD = 0 := by decide +kernel

theorem augTest_effect {s : State} (hl : s.live) (v : Word) (hacc : s.accepts 0 Reg.AUG.TEST_CMD (v ||| 1) = true) :
    let t := (hostReg 0 Reg.AUG.TEST_CMD (v ||| 1)).run s
    t.rd64 Reg.AUG.TEST_OUT_LO Reg.AUG.TEST_OUT_HI = (augMix (BitVec.ofNat 64 (s.rd64 Reg.AUG.TEST_SEED_LO Reg.AUG.TEST_SEED_HI))
        (s.rd Reg.AUG.TEST_INDEX).toNat (s.rd Reg.AUG.TEST_DRAW).toNat).toNat ∧
      SameRegs ([Reg.AUG.TEST_OUT_LO, Reg.AUG.TEST_OUT_HI] ++ hostTrail .AUG 0) s t ∧ t.es = s.es ∧ t.tsc = s.tsc ∧ t.out = s.out := by
  intro t
  obtain ⟨hrow, h0⟩ := augTest_row
  have heff : blockWrite 0 .AUG 0 0x060 (s.hostOld Reg.AUG.TEST_CMD) (v ||| 1) = Act.when ((v ||| 1).getLsbD 0) augTestAct := rfl
  rw [getLsbD_or_one] at heff
  obtain ⟨q, hq, hj⟩ : ∃ q, Written s _ _ _ q ∧ Journaled (augTestAct.run q) t := hostReg_run hl.1 hrow hacc heff
  have hrd {off : Nat} (h : 0x060 ≠ off % 4096) (h' : 0x30 ≠ off % 4096) : q.rd ⟨.AUG, 0, off⟩ = s.rd ⟨.AUG, 0, off⟩ := hq.rd_off h h'
  obtain ⟨hregs, hrest⟩ := Act.Only.frame (l := [Reg.AUG.TEST_OUT_LO, Reg.AUG.TEST_OUT_HI]) (a := augTestAct) (by simp [augTestAct]) q
  refine ⟨?_, ?_, hq.sameRest hrest hj⟩
  · have ht : t.rd64 Reg.AUG.TEST_OUT_LO Reg.AUG.TEST_OUT_HI = (augTestAct.run q).rd64 Reg.AUG.TEST_OUT_LO Reg.AUG.TEST_OUT_HI := by
      rw [State.rd64, hj.rd (by decide) (by decide) (by decide) (by decide), hj.rd (by decide) (by decide) (by decide) (by decide), State.rd64]
    rw [ht, augTestAct, run_get, rd64_wr64 hq.rise (by decide +kernel) (by decide +kernel) (by decide) (BitVec.isLt _)]
    rw [State.rd64, hrd (by decide) (by decide), hrd (by decide) (by decide), hrd (by decide) (by decide), hrd (by decide) (by decide), State.rd64]
  · exact hj.sameRegs (b := .AUG) (i := 0) (hq.kept (fun _ => rfl) h0 (by simp)) hregs (by simp [hostTrail]) (by simp) (by simp)

/-- Settles O35: the weight load, each outcome of a position, and each end of the diagnostic, of its own effect. -/
theorem fewChannelEngines : Obligations.FewChannelEngines := by
  unfold Obligations.FewChannelEngines
  refine ⟨fun s i hl hact hload hi => ⟨?_, ?_⟩, fun s i alt hl hact hload hpos hinj hi => ⟨fun hmiss => ?_, fun hmiss honce => ?_,
    fun hmiss honce => ?_, ?_⟩, fun s i located hl hi => ⟨fun hdiag => ?_, ?_, ?_⟩, fun s v hl hacc => ?_⟩
  · exact ⟨_, command_eq hl.2, fceLoad_good hact hload hi⟩
  · exact ⟨_, command_eq hl.2, fceLoad_parity hl.1.1.1 i hact hload⟩
  · refine ⟨_, command_eq hl.2, ?_⟩
    rw [fcePosition_run hact hload hpos hinj]
    exact fceGood_effect hl.1.1.1 i _ hmiss hi
  · refine ⟨_, command_eq hl.2, ?_⟩
    rw [fcePosition_run hact hload hpos hinj]
    exact fceFirst_effect hl.1.1.1 i _ hmiss honce hi
  · refine ⟨_, command_eq hl.2, ?_⟩
    rw [fcePosition_run hact hload hpos hinj]
    exact fceAgain_effect hl.1.1.1 i _ hmiss honce hi
  · refine ⟨_, command_eq hl.2, ?_⟩
    rw [fcePosition_parity_run hact hload hpos]
    exact fceParity_effect hl.1.1.1 i hi
  · exact ⟨_, command_eq hl.2, fceReport_effect hl.1.1.1 i hdiag hi⟩
  · rintro c rfl hdiag hfree
    exact ⟨_, command_eq hl.2, fceRepair_effect hl.1.1.1 i c hdiag hfree hi⟩
  · rintro rfl hdiag
    refine ⟨_, command_eq hl.2, ?_⟩
    rw [fceLost_run hdiag]
    exact fceFault_effect hl.1.1.1 i
  · exact ⟨_, simply_eq hl.2, augTest_effect hl v hacc⟩

end Sys2Proof.Machine

/-! ## Proofs: pre-emption, save and restore, remote waits (10_contexts_and_scheduling) -/

namespace Sys2Proof.Machine

-- One theorem after the other: elaborated side by side, they hold more threads than the memory limit of a check allows.
set_option Elab.async false

theorem mask_preemptCounts : RegRef.mask Reg.DISP.PREEMPT_CNT = 0xFFFFFFFF ∧ RegRef.mask Reg.DISP.FROG_CNT = 0xFFFFFFFF ∧
    RegRef.mask Reg.DISP.SAVE_CNT = 0xFFFFFFFF := by decide +kernel

/-! ### Commands that stay in the dispatcher -/

/-- A part `π` of every command that an account of run time does not touch. -/
theorem keeps_part_charge {α : Type} {π : Cmd → α} {id : Nat} (hπ : ∀ c : Cmd, ∀ n, π { c with runNs := n } = π c) (c : Cmd) (es : List Nat)
    (who : Payer) : (chargeEngines c es who).Keeps (State.cmdPart π id) := .get fun _ => by
  have hctx (c : Nat) (f : CtxSt → CtxSt) : (Act.ctx c f).Only .cmdsStay := fun _ => rfl
  have hvt (c t : Nat) : (chargeVt c t).Only .cmdsStay := (only_get _).2 fun _ => hctx _ _
  cases who with
  | own => exact .cons (keeps_cmdPart_cmd _ (fun _ => rfl) fun c => hπ c _) (.cons (Act.Only.keeps_cmdPart (hvt _ _))
      (.cons (Act.Only.keeps_cmdPart (hctx _ _)) keeps_all_nil))
  | preemptor =>
    refine .seq ?_ (Act.Only.keeps_cmdPart (hctx _ _))
    cases c.preemptor with
    | none => exact keeps_nil
    | some p => exact Act.Only.keeps_cmdPart (hvt _ _)
  | nobody => exact Act.Only.keeps_cmdPart (hctx _ _)

theorem stay_accrue : accrue.Only .cmdsStay := by
  simp only [accrue, only_get, only_seq, only_each, only_when]
  exact fun s => ⟨fun _ => rfl, fun _ _ _ _ => rfl⟩

theorem stay_catchUp (c : Nat) : (catchUp c).Only .cmdsStay := by
  refine (only_get _).2 fun s => (only_when _ _).2 fun _ => ?_
  split
  · trivial
  · exact fun _ => rfl

theorem stay_releaseEng (p : Nat) : (releaseEng p).Only .cmdsStay := by
  simp only [releaseEng, only_get, only_all_cons, only_all_nil, only_when, setEngState, only_setFld]
  exact fun s => ⟨fun _ => rfl, fun _ => trivial, trivial, trivial⟩

theorem stay_releaseBlocks (id : Nat) : (releaseBlocks id).Only .cmdsStay := by
  simp only [releaseBlocks, only_get, only_all_cons, only_all_nil, only_each, only_when, only_setFld, only_hw]
  exact fun s => ⟨fun i _ => ⟨fun _ => rfl, fun _ => trivial, trivial, trivial⟩, fun _ => rfl, trivial⟩

theorem only_chargeVt (c n : Nat) : (chargeVt c n).Only (.regs []) := (only_get _).2 fun _ => trivial

/-- An account of run time alone writes no register. -/
theorem only_chargeEngines (c : Cmd) (es : List Nat) (who : Payer) : (chargeEngines c es who).Only (.regs []) := by
  refine (only_get _).2 fun s => ?_
  cases who with
  | own => exact ⟨trivial, only_chargeVt _ _, trivial, trivial⟩
  | preemptor =>
    refine ⟨?_, trivial⟩
    cases c.preemptor with
    | none => trivial
    | some p => exact only_chargeVt _ _
  | nobody => trivial

theorem Act.Only.freeing_rd {a : Act} (h : a.Only .freeing) {r : RegRef} (hr : 0x044 ≠ r.off % 4096) (s : State) : (a.run s).rd r = s.rd r :=
  h.rd id (fun q hq => key_ne_of_off (by rw [hq.1]; exact hr)) s

theorem Act.Only.freeing_rest {a : Act} (h : a.Only .freeing) (s : State) : SameRest s (a.run s) := h.sameRest id id id id id s

/-! ### Whom to pre-empt (R432) -/

theorem leastBy_mem {α : Type} {lt : α → α → Bool} {l : List α} {x : α} (h : leastBy lt l = some x) : x ∈ l := by
  have hfold (t : List α) (a : α) : t.foldl (fun m b => if lt b m then b else m) a ∈ a :: t := by
    induction t generalizing a with
    | nil => exact List.mem_cons_self
    | cons b t ih =>
      have hb := ih (if lt b a then b else a)
      rw [List.foldl_cons]
      rcases List.mem_cons.1 hb with h | h
      · rw [h]
        split <;> simp
      · exact List.mem_cons_of_mem _ (List.mem_cons_of_mem _ h)
  cases l with
  | nil => exact absurd h (by simp [leastBy])
  | cons a t =>
    obtain rfl : t.foldl (fun m b => if lt b m then b else m) a = x := Option.some.inj h
    exact hfold t a

/-- A victim is the dispatcher's command of its identifier. -/
theorem cmd_of_victim {s : State} {w v : Cmd} {k : Nat} (h : (v, k) ∈ s.victimsFor w) : s.cmd v.id = some v := by
  obtain ⟨p, -, hp⟩ := List.mem_filterMap.1 h
  split at hp
  next y hy =>
    dsimp only at hp
    split at hp
    · obtain ⟨rfl, -⟩ := Prod.mk.inj (Option.some.inj hp)
      obtain ⟨i, -, hi⟩ := Option.bind_eq_some_iff.1 hy
      rwa [cmd_id hi]
    · cases hp
  next => cases hp

theorem cmd_of_preempt {s : State} {ws : List Cmd} {w v : Cmd} {k : Nat}
    (h : (ws.findSome? fun w => (leastBy s.victimLt (s.victimsFor w)).map fun v => (w, v)) = some (w, v, k)) : s.cmd v.id = some v := by
  obtain ⟨x, -, hx⟩ := List.exists_of_findSome?_eq_some h
  obtain ⟨y, hy, he⟩ := Option.map_eq_some_iff.1 hx
  obtain ⟨rfl, rfl⟩ := Prod.mk.inj he
  exact cmd_of_victim (leastBy_mem hy)

/-- A command back to ready (R435). -/
def frogReset (now detail part : Nat) (counts : Bool) (x : Cmd) : Cmd := { x with
  phase := .ready, readyAt := now, engines := [], parts := [], lost := [], outs := [], mems := [], stamps := [],
  frogs := x.frogs + 1, frogsC := x.frogsC + b2n counts, detail := detail, part := part, gen := x.gen + 1,
  remote := none, toCheap := none, saving := none, saved := [], restoring := [], preemptor := none, rerun := [],
  partials := [], arrived := false, computed := false, reasons := [] }

/-- The last of five programs. -/
theorem run_all_last (a b c d e : Act) (s : State) : (Act.all [a, b, c, d, e]).run s = e.run ((Act.all [a, b, c, d]).run s) := rfl

/-- A frog that does not count towards FROG_MAX: its engines are freed, then it is counted. -/
theorem frogOne_run {s : State} {id : Nat} {c : Cmd} (h : s.cmd id = some c) (detail part : Nat) (who : Payer) (counts : Bool) :
    ∃ pre : Act, pre.Only .freeing ∧ (frogOne id detail part who counts).run s = (Act.bump Reg.DISP.FROG_CNT 1).run (pre.run s) := by
  rw [frogOne, Act.withCmd, run_get, h]
  dsimp only
  rw [run_get]
  refine ⟨.all [chargeRun c who, releaseAll c, catchUp c.ctx, .cmd id (frogReset s.now detail part counts)], ?_, run_all_last _ _ _ _ _ _⟩
  exact ⟨freeing_chargeRun _ _, freeing_releaseAll _, freeing_catchUp _, trivial, trivial⟩

theorem frogPart_run {s : State} {id : Nat} {c : Cmd} (h : s.cmd id = some c) (k : Nat) :
    ∃ pre : Act, pre.Only .freeing ∧ (frogPart id k 0x43).run s = (Act.bump Reg.DISP.FROG_CNT 1).run (pre.run s) := by
  rw [frogPart, Act.withCmd, run_get, h]
  simp only [run_get]
  split
  · rw [frogAct, Act.withCmd, run_get, h]
    simp only [run_get]
    exact frogOne_run h 0x43 0xFFFF _ _
  · refine ⟨.all [accrue, chargeEngines c [c.engines.getD k 36] .preemptor, .when ((s.eng (c.engines.getD k 36)).cmd == some id)
      (releaseEng (c.engines.getD k 36)), .cmd id _], ?_, run_all_last _ _ _ _ _ _⟩
    exact ⟨freeing_accrue, freeing_chargeEngines _ _ _, (only_when _ _).2 fun _ => freeing_releaseEng _, trivial, trivial⟩

/-- The victim is marked with its pre-emptor's context, and the pre-emption counted. -/
def preemptMark (w v : Cmd) : Act := .seq (.cmd v.id fun x => { x with preemptor := some w.ctx }) (.bump Reg.DISP.PREEMPT_CNT 1)

theorem preemptMark_cmd {s : State} (w : Cmd) {v : Cmd} (h : s.cmd v.id = some v) :
    ((preemptMark w v).run s).cmd v.id = some { v with preemptor := some w.ctx } := by
  have hb (u : State) : ((Act.bump Reg.DISP.PREEMPT_CNT 1).run u).hw.disp = u.hw.disp :=
    Act.Only.hw (p := .stores [Reg.DISP.PREEMPT_CNT]) (by simp) (·.disp) (fun _ h => h.elim) u
  rw [preemptMark, run_seq, State.cmd, hb]
  exact cmd_run_cmd_same h fun _ => rfl

theorem preempt_run {s : State} (h0 : s.bit Reg.DISP.DISP_CTRL 0 = true) (h1 : s.bit Reg.DISP.DISP_CTRL 1 = true) (hf : s.hw.boot.frozen = false)
    {w v : Cmd} {k : Nat} (h : ((s.preemptors.filter fun w => w.cls == 2 || !s.savingFor w).findSome? fun w =>
      (leastBy s.victimLt (s.victimsFor w)).map fun v => (w, v)) = some (w, v, k)) : preemptAct.run s = (preemptPart w v k).run s := by
  rw [preemptAct, run_get, run_when, if_pos (by rw [h0, h1, hf]; rfl), h]

/-- Pre-emption for a command of class 2 frogs the victim's part (R432, R439). -/
theorem preemptPart_frogs {s : State} {w v : Cmd} (hv : s.cmd v.id = some v) (k : Nat) (hremote : v.remote = none) (hcls : w.cls = 2) :
    ∃ pre : Act, pre.Only .freeing ∧ (preemptPart w v k).run s = (Act.bump Reg.DISP.FROG_CNT 1).run (pre.run ((preemptMark w v).run s)) := by
  have hrun : (preemptPart w v k).run s = (frogPart v.id k 0x43).run ((preemptMark w v).run s) := by
    simp only [preemptPart, run_get, hremote, hcls, true_or, if_true, Option.isSome_none, Bool.false_eq_true, if_false]
    cases s.nextCheap v k <;> rfl
  rw [hrun]
  exact frogPart_run (preemptMark_cmd w hv) k

theorem preempt_class2 {s : State} (hs : keysRise s.regs) {w v : Cmd} (hv : s.cmd v.id = some v) (k : Nat) (hremote : v.remote = none) (hcls : w.cls = 2) :
    let t := (preemptPart w v k).run s
    Counts Reg.DISP.PREEMPT_CNT 1 s t ∧ Counts Reg.DISP.FROG_CNT 1 s t ∧ t.es = s.es ∧ t.mem = s.mem ∧ t.tsc = s.tsc ∧ t.out = s.out := by
  intro t
  obtain ⟨pre, hpre, hrun⟩ := preemptPart_frogs hv k hremote hcls
  let a := (Act.cmd v.id fun x => { x with preemptor := some w.ctx }).run s
  let b := (Act.bump Reg.DISP.PREEMPT_CNT 1).run a
  have ht : t = (Act.bump Reg.DISP.FROG_CNT 1).run (pre.run b) := hrun
  have hb : keysRise b.regs := rise_run (.bump Reg.DISP.PREEMPT_CNT 1) (s := a) hs
  have hrest : SameRest s t := by
    rw [ht]
    exact (Act.Only.frame (l := [Reg.DISP.PREEMPT_CNT]) (a := preemptMark w v) (by simp [preemptMark, Act.cmd]) s).2.trans
      ((hpre.freeing_rest b).trans (Act.Only.frame (l := [Reg.DISP.FROG_CNT]) (by simp) _).2)
  refine ⟨fun h => ?_, fun h => ?_, hrest.es, hrest.mem, hrest.tsc, hrest.out⟩
  · rw [ht, rd_bump_off (by decide), hpre.freeing_rd (by decide)]
    exact counts_bump (s := a) hs mask_preemptCounts.1 1 h
  · have hf : (pre.run b).rd Reg.DISP.FROG_CNT = s.rd Reg.DISP.FROG_CNT := (hpre.freeing_rd (by decide) b).trans (rd_bump_off (s := a) (by decide))
    rw [ht, ← hf]
    exact counts_bump (rise_run _ hb) mask_preemptCounts.2.1 1 (by rw [hf]; exact h)

/-- Pre-emption that lets the victim run to its next cheap point (R433). -/
theorem preempt_cheap {s : State} (hs : keysRise s.regs) {w v : Cmd} (hv : s.cmd v.id = some v) {k j n : Nat} (hremote : v.remote = none)
    (hcls : w.cls ≠ 2) (hcheap : s.nextCheap v k = some (j, n)) (hwait : n ≤ s.fld Reg.DISP.CHEAP_WAIT 15 0)
    (hres : ∀ l, s.logicalOf (v.engines.getD k 36) = some l → s.bit Reg.DISP.CLASS2_ENG l = false) :
    let t := (preemptPart w v k).run s
    (t.cmd v.id).map (·.toCheap) = some (some (k, j)) ∧ Counts Reg.DISP.PREEMPT_CNT 1 s t ∧ SameRegs [Reg.DISP.PREEMPT_CNT] s t ∧ SameRest s t := by
  intro t
  let mark : Act := .cmd v.id fun x => { x with toCheap := some (k, j) }
  have hrun : t = mark.run ((preemptMark w v).run s) := by
    simp only [t, preemptPart, run_get, hremote, hcheap, Option.isSome_none, Bool.false_eq_true, if_false]
    cases hl : s.logicalOf (v.engines.getD k 36) with
    | none => simp only [hcls, Nat.not_lt.2 hwait, Bool.false_eq_true, or_self, if_false]; rfl
    | some l => simp only [hres l hl, hcls, Nat.not_lt.2 hwait, Bool.false_eq_true, or_self, if_false]; rfl
  obtain ⟨hregs, hrest⟩ := Act.Only.frame (l := [Reg.DISP.PREEMPT_CNT]) (a := .seq (preemptMark w v) mark) (by simp [preemptMark, mark, Act.cmd]) s
  have hall : (Act.seq (preemptMark w v) mark).run s = t := hrun.symm
  rw [hall] at hregs hrest
  refine ⟨?_, ?_, hregs, hrest⟩
  · have hc : t.cmd v.id = some { v with preemptor := some w.ctx, toCheap := some (k, j) } := by
      rw [hrun]
      exact cmd_run_cmd_same (preemptMark_cmd w hv) fun _ => rfl
    rw [hc]
    rfl
  · rw [hrun]
    exact counts_bump (s := (Act.cmd v.id fun x => { x with preemptor := some w.ctx }).run s) hs mask_preemptCounts.1 1

/-! ### Save and restore (R433, R441) -/

/-- A program that keeps a part of every command keeps the command in the dispatcher. -/
theorem cmd_of_keeps {α : Type} {π : Cmd → α} {id : Nat} {a : Act} (h : a.Keeps (State.cmdPart π id)) {s : State} (hs : keysRise s.regs) {c : Cmd}
    (hc : s.cmd id = some c) : ∃ c', (a.run s).cmd id = some c' ∧ π c' = π c := by
  have hp : ((a.run s).cmd id).map π = some (π c) := (h s hs).trans (by rw [State.cmdPart, hc]; rfl)
  exact Option.map_eq_some_iff.1 hp

theorem cheapPoint_effect {s : State} (hs : keysRise s.regs) {id : Nat} {c : Cmd} {k j : Nat} (hc : s.cmd id = some c) (hcheap : c.toCheap = some (k, j))
    (hdone : (s.eng (c.engines.getD k 36)).done = (s.cheapPoint c j).1) (hfails : (s.eng (c.engines.getD k 36)).fails = [])
    (hdiag : (s.eng (c.engines.getD k 36)).diag = 0) (hsize : (s.cheapPoint c j).2.2 ≤ s.ctxSaveKib c.ctx * 1024) :
    let t := (cheapPointAct id j).run s
    (t.cmd id).map (·.saving) = some (some (k, j)) ∧ (t.cmd id).map (·.toCheap) = some none ∧ SameRegs [] s t ∧ SameRest s t := by
  intro t
  let mark : Act := .cmd id fun x => { x with toCheap := none, saving := some (k, j) }
  let p := c.engines.getD k 36
  let pre : Act := .seq (chargeEngines c [p] .own) (.eng p fun e => { e with start := s.now, recNs := 0 })
  have hrun : t = mark.run (pre.run s) := by
    obtain ⟨⟨at', base, size⟩, hp⟩ : ∃ x, s.cheapPoint c j = x := ⟨_, rfl⟩
    rw [hp] at hdone hsize
    simp only [t, cheapPointAct, Act.withCmd, run_get, hc, hcheap, hp]
    rw [run_when, if_pos (by rw [hfails, hdiag, hdone]; simp), if_neg (Nat.not_lt.2 hsize)]
    rfl
  have hkeep : pre.Keeps (State.cmdPart (fun _ => ()) id) :=
    .seq (keeps_part_charge (fun _ _ => rfl) _ _ _) (Act.Only.keeps_cmdPart fun _ => rfl)
  obtain ⟨c', hc', -⟩ := cmd_of_keeps hkeep hs hc
  obtain ⟨hregs, hrest⟩ := Act.Only.frame (l := []) (a := .seq pre mark) ⟨⟨only_chargeEngines _ _ _, trivial⟩, trivial⟩ s
  have hall : (Act.seq pre mark).run s = t := hrun.symm
  rw [hall] at hregs hrest
  have ht : t.cmd id = some { c' with toCheap := none, saving := some (k, j) } := by
    rw [hrun]
    exact cmd_run_cmd_same hc' fun _ => rfl
  exact ⟨by rw [ht]; rfl, by rw [ht]; rfl, hregs, hrest⟩

/-- What the end of a save, a restore or a wait may change beside the engine stores. -/
def Scope.saving : Scope := { reg := fun _ => True, mem := True, poison := True }

/-- What follows the save itself: the engine is freed, and a command on one engine is ready again. -/
def saveRest (s : State) (id : Nat) (c : Cmd) (k j : Nat) : Act :=
  let p := c.engines.getD k 36
  .all [accrue, chargeEngines c [p] .preemptor,
    .cmd id (fun x => { x with saving := none, preemptor := none, saved := x.saved ++ [(k, j, (s.eng p).done)] }),
    .when ((s.eng p).cmd == some id) (releaseEng p), releaseBlocks id, catchUp c.ctx]

/-- A command whose save is done, on one engine (R441). -/
def saveReady (now : Nat) (x : Cmd) : Cmd := { x with phase := .ready, readyAt := now, engines := [] }

theorem run_all_mid (a b c d e f g h i : Act) (s : State) :
    (Act.all [a, b, c, d, e, f, .all [g, h, i]]).run s = i.run ((Act.all [c, d, e, f, g, h]).run (b.run (a.run s))) := rfl

theorem saveDone_run {s : State} {id : Nat} {c : Cmd} {k j : Nat} (hc : s.cmd id = some c) (hsave : c.saving = some (k, j))
    (hone : c.engines.length ≤ 1) :
    (saveDoneAct id).run s = (Act.cmd id (saveReady s.now)).run ((saveRest s id c k j).run ((Act.bump Reg.DISP.SAVE_CNT 1).run
      ((Act.guarded c.cls (s.saveSlot c k) (s.readEs (c.engines.getD k 36) (s.cheapPoint c j).2.1 (s.cheapPoint c j).2.2)).run s))) := by
  rw [saveDoneAct, Act.withCmd, run_get, hc]
  dsimp only
  rw [run_get, hsave]
  dsimp only
  rw [if_pos hone]
  exact run_all_mid _ _ _ _ _ _ _ _ _ s

theorem freeing_saveRest (s : State) (id : Nat) (c : Cmd) (k j : Nat) : (saveRest s id c k j).Only .freeing :=
  ⟨freeing_accrue, freeing_chargeEngines _ _ _, trivial, (only_when _ _).2 fun _ => freeing_releaseEng _, freeing_releaseBlocks _, freeing_catchUp _, trivial⟩

theorem saveRest_saving {s u : State} (hu : keysRise u.regs) {id : Nat} {c c' : Cmd} (hc : u.cmd id = some c') (k j : Nat) :
    ∃ x, ((saveRest s id c k j).run u).cmd id = some x ∧ x.saving = none := by
  let p := c.engines.getD k 36
  let mark (x : Cmd) : Cmd := { x with saving := none, preemptor := none, saved := x.saved ++ [(k, j, (s.eng p).done)] }
  let first : Act := .seq accrue (chargeEngines c [p] .preemptor)
  let last : Act := .all [.when ((s.eng p).cmd == some id) (releaseEng p), releaseBlocks id, catchUp c.ctx]
  have hrun : (saveRest s id c k j).run u = last.run ((Act.cmd id mark).run (first.run u)) := rfl
  have hfirst : first.Keeps (State.cmdPart (fun _ => ()) id) :=
    .seq (Act.Only.keeps_cmdPart stay_accrue) (keeps_part_charge (fun _ _ => rfl) _ _ _)
  obtain ⟨c1, h1, -⟩ := cmd_of_keeps hfirst hu hc
  have h2 : ((Act.cmd id mark).run (first.run u)).cmd id = some (mark c1) := cmd_run_cmd_same h1 fun _ => rfl
  have hlast : last.Only .cmdsStay := ⟨(only_when _ _).2 fun _ => stay_releaseEng _, stay_releaseBlocks _, stay_catchUp _, trivial⟩
  obtain ⟨x, hx, he⟩ := cmd_of_keeps (hlast.keeps_cmdPart (π := (·.saving))) (s := (Act.cmd id mark).run (first.run u)) (rise_run first hu) h2
  exact ⟨x, by rw [hrun]; exact hx, he⟩

theorem rd_run_cmd (id : Nat) (f : Cmd → Cmd) (s : State) (r : RegRef) : ((Act.cmd id f).run s).rd r = s.rd r := rfl

theorem saveDone_effect {s : State} (hs : s.sound) {id : Nat} {c : Cmd} {k j : Nat} (hc2 : s.fld Reg.SAFE.C2_REGION 26 16 = 0)
    (hc : s.cmd id = some c) (hsave : c.saving = some (k, j)) (hone : c.engines.length ≤ 1) :
    let e := c.engines.getD k 36
    let live := s.cheapPoint c j
    let t := (saveDoneAct id).run s
    t.read (s.saveSlot c k) live.2.2 = s.readEs e live.2.1 live.2.2 ∧
      (∀ a, a < s.saveSlot c k ∨ s.saveSlot c k + live.2.2 ≤ a → t.byte a = s.byte a) ∧
      (t.cmd id).map (·.phase) = some .ready ∧ (t.cmd id).map (·.saving) = some none ∧ Counts Reg.DISP.SAVE_CNT 1 s t ∧
      t.es = s.es ∧ t.tsc = s.tsc ∧ t.out = s.out := by
  intro e live t
  let l := s.readEs e live.2.1 live.2.2
  have hlen : l.length = live.2.2 := by simp [l, State.readEs]
  let w := (Act.bytes (s.saveSlot c k) l).run s
  let a := (ringMove true (s.saveSlot c k) l.length).run w
  let b := (Act.bump Reg.DISP.SAVE_CNT 1).run a
  let d := (saveRest s id c k j).run b
  have hrun : t = (Act.cmd id (saveReady s.now)).run d := by
    refine (saveDone_run hc hsave hone).trans ?_
    rw [guarded_run hc2]
  have hring : (ringMove true (s.saveSlot c k) l.length).Only (.keeping (·.disp) []) := only_ringMove _ _ _ fun f hf h => hf h
  have hbytes : (Act.bytes (s.saveSlot c k) l).Only { reg := fun _ => False, mem := True, hw := fun _ => False } := (only_bytes _ _).2 trivial
  have hrest := freeing_saveRest s id c k j
  have hb : keysRise b.regs := rise_run (.bump Reg.DISP.SAVE_CNT 1) (s := a) (rise_run _ (rise_run _ hs.1.1))
  have hcount : a.rd Reg.DISP.SAVE_CNT = s.rd Reg.DISP.SAVE_CNT := (hring.rd (fun h => h) (fun _ h => by simp at h) w).trans (hbytes.rd (fun h => h) (fun _ h => h.elim) s)
  have hdisp : b.hw.disp = s.hw.disp :=
    (Act.Only.hw (p := .stores [Reg.DISP.SAVE_CNT]) (by simp) (·.disp) (fun _ h => h.elim) a).trans
      ((hring.hw (·.disp) (fun _ h => h) w).trans (hbytes.hw (·.disp) (fun _ h => h.elim) s))
  have hbc : b.cmd id = some c := by rw [State.cmd, hdisp]; exact hc
  obtain ⟨x, hx, hxs⟩ := saveRest_saving (s := s) (c := c) hb hbc k j
  have htc : t.cmd id = some (saveReady s.now x) := by
    rw [hrun]
    exact cmd_run_cmd_same hx fun _ => rfl
  have hbump : (Act.bump Reg.DISP.SAVE_CNT 1).Only (.regs [Reg.DISP.SAVE_CNT]) := by simp
  have htd : SameRest d t := by rw [hrun]; exact (Act.Only.frame (l := []) (a := Act.cmd id (saveReady s.now)) trivial d).2
  have haw : SameRest a t := (hbump.frame a).2.trans ((hrest.freeing_rest b).trans htd)
  have hmem : t.mem = w.mem := haw.mem.trans (hring.mem (fun h => h) w)
  have hwm : keysRise s.mem := hs.2.1.1
  refine ⟨?_, fun y hy => ?_, by rw [htc]; rfl, by rw [htc]; exact congrArg some hxs, fun h => ?_, ?_, ?_, ?_⟩
  · have hread : t.read (s.saveSlot c k) live.2.2 = w.read (s.saveSlot c k) l.length := by
      rw [hlen]
      exact List.map_congr_left fun i _ => congrArg (alGet 0 (s.saveSlot c k + i)) hmem
    exact hread.trans (read_run_bytes hwm _ l)
  · have hbyte : t.byte y = w.byte y := congrArg (alGet 0 y) hmem
    exact hbyte.trans (byte_run_bytes_ne hwm (by rw [hlen]; exact hy))
  · have hrd : t.rd Reg.DISP.SAVE_CNT = b.rd Reg.DISP.SAVE_CNT := by rw [hrun, rd_run_cmd]; exact hrest.freeing_rd (by decide) b
    rw [hrd, ← hcount]
    exact counts_bump (rise_run _ (rise_run _ hs.1.1)) mask_preemptCounts.2.2 1 (by rw [hcount]; exact h)
  · exact haw.es.trans ((hring.es (fun h => h) w).trans (hbytes.es (fun h => h) s))
  · exact haw.tsc.trans ((hring.tsc (fun h => h) w).trans (hbytes.tsc (fun h => h) s))
  · exact haw.out.trans ((hring.out (fun h => h) w).trans (hbytes.out (fun h => h) s))

/-! ### The engine stores -/

theorem mem_setBytes (s : State) (a : Nat) (l : List Byte) : (s.setBytes a l).mem = putEs a l s.mem := by
  induction l generalizing s a with
  | nil => rfl
  | cons b l ih => exact ih (s.setByte a b) (a + 1)

/-- A byte of the engine stores after a store. -/
theorem alGet_putEs {m : List Host.Cell} (h : keysRise m) (a x : Nat) (l : List Byte) :
    alGet 0 x (putEs a l m) = if a ≤ x ∧ x < a + l.length then l.getD (x - a) 0 else alGet 0 x m := by
  have he := byte_setBytes (s := { State.reset with mem := m }) h a x l
  rwa [State.byte, mem_setBytes] at he

theorem readEs_putEs {s t : State} (h : keysRise s.es) {p a : Nat} {l : List Byte} (ht : t.es = putEs (esAddr p a) l s.es) :
    t.readEs p a l.length = l := by
  unfold State.readEs
  refine List.ext_getElem (by simp) fun i h1 h2 => ?_
  rw [List.getElem_map, List.getElem_range, ht, alGet_putEs h, esAddr, esAddr, if_pos (by omega)]
  rw [show p * 0x400000 + (a + i) - (p * 0x400000 + a) = i by omega, List.getD_eq_getElem _ _ h2]

/-- What follows the bytes of a restore. -/
def restoreRest (now id : Nat) (c : Cmd) (k : Nat) (rest : List Nat) : Act :=
  let p := c.engines.getD k 36
  .all [chargeEngines c [p] .preemptor, .eng p fun e => { e with start := now },
    .cmd id fun x => { x with restoring := rest, saved := x.saved.filter fun y => y.1 != k }]

theorem restoreDone_run {s : State} {id : Nat} {c : Cmd} {k j n : Nat} {rest : List Nat} (hc : s.cmd id = some c) (hres : c.restoring = k :: rest)
    (hsaved : (c.saved.find? fun x => x.1 == k) = some (k, j, n)) : (restoreDoneAct id).run s = (restoreRest s.now id c k rest).run
      ((Act.upd (.es (esAddr (c.engines.getD k 36) (s.cheapPoint c j).2.1) (s.read (s.saveSlot c k) (s.cheapPoint c j).2.2))).run s) := by
  rw [restoreDoneAct, Act.withCmd, run_get, hc]
  dsimp only
  rw [run_get, hres]
  dsimp only
  rw [hsaved]
  rfl

theorem restoreDone_effect {s : State} (hs : s.sound) {id : Nat} {c : Cmd} {k j n : Nat} {rest : List Nat} (hc : s.cmd id = some c)
    (hres : c.restoring = k :: rest) (hsaved : (c.saved.find? fun x => x.1 == k) = some (k, j, n)) :
    let e := c.engines.getD k 36
    let live := s.cheapPoint c j
    let t := (restoreDoneAct id).run s
    t.readEs e live.2.1 live.2.2 = s.read (s.saveSlot c k) live.2.2 ∧
      (∀ a, a < esAddr e live.2.1 ∨ esAddr e live.2.1 + live.2.2 ≤ a → alGet 0 a t.es = alGet 0 a s.es) ∧
      (t.cmd id).map (·.restoring) = some rest ∧ SameRegs [] s t ∧ t.mem = s.mem ∧ t.tsc = s.tsc ∧ t.out = s.out := by
  intro e live t
  let l := s.read (s.saveSlot c k) live.2.2
  have hlen : l.length = live.2.2 := by simp [l, State.read]
  let store : Act := .upd (.es (esAddr e live.2.1) l)
  let w := store.run s
  have hrun : t = (restoreRest s.now id c k rest).run w := restoreDone_run hc hres hsaved
  have honly : (restoreRest s.now id c k rest).Only (.regs []) := ⟨only_chargeEngines _ _ _, trivial, trivial, trivial⟩
  obtain ⟨hregs, hrest⟩ := honly.frame w
  have hes : t.es = putEs (esAddr e live.2.1) l s.es := by rw [hrun]; exact hrest.es
  have hrise : keysRise s.es := hs.2.2.1.1
  have hpre : (Act.seq (chargeEngines c [e] .preemptor) (.eng e fun x => { x with start := s.now })).Keeps (State.cmdPart (fun _ => ()) id) :=
    .seq (keeps_part_charge (fun _ _ => rfl) _ _ _) (Act.Only.keeps_cmdPart fun _ => rfl)
  obtain ⟨c', hc', -⟩ := cmd_of_keeps hpre (s := w) hs.1.1 hc
  refine ⟨?_, fun a ha => ?_, ?_, by rw [hrun]; exact hregs, by rw [hrun]; exact hrest.mem, by rw [hrun]; exact hrest.tsc, by rw [hrun]; exact hrest.out⟩
  · have h : t.readEs e live.2.1 l.length = l := readEs_putEs hrise hes
    rwa [hlen] at h
  · rw [hes, alGet_putEs hrise, hlen, if_neg (by omega)]
  · have htc : t.cmd id = some { c' with restoring := rest, saved := c'.saved.filter fun y => y.1 != k } := by
      rw [hrun]
      exact cmd_run_cmd_same hc' fun _ => rfl
    rw [htc]
    rfl

/-! ### Remote waits and the quarantine (R437, R438) -/

/-- A pending source of the dispatcher stays pending while commands end. -/
theorem holds_pend_ending {a : Act} (h : a.Only .ending) (k : Nat) : a.Holds fun s => s.pend .DISP 0 k = true := fun s _ hp => by
  have hr : (a.run s).rd (Reg.HDR.IRQ_PEND .DISP 0) = s.rd (Reg.HDR.IRQ_PEND .DISP 0) := h.rd (fun h => h) (fun r hr => endReg_ne hr (by decide) (by decide)) s
  exact (congrArg (BitVec.getLsbD · k) hr).trans hp

theorem holds_pend_frogOne (id detail part : Nat) (who : Payer) (counts : Bool) (k : Nat) :
    (frogOne id detail part who counts).Holds fun s => s.pend .DISP 0 k = true := fun s _ hp => by
  have hr : ((frogOne id detail part who counts).run s).rd (Reg.HDR.IRQ_PEND .DISP 0) = s.rd (Reg.HDR.IRQ_PEND .DISP 0) :=
    (frogged_frogOne id detail part who counts).rd (fun h => h) (fun r hr => by
      rcases hr with ⟨ho, -⟩ | rfl
      · exact key_ne_of_off (by rw [ho]; decide)
      · decide) s
  exact (congrArg (BitVec.getLsbD · k) hr).trans hp

theorem holds_pend_dispRaise (k n : Nat) : (dispRaise n).Holds fun s => s.pend .DISP 0 k = true := fun _ hs hp =>
  bit_raise_mono hs (by decide) hp

theorem holds_pend_frogAct (id detail part k : Nat) : (frogAct id detail part).Holds fun s => s.pend .DISP 0 k = true := by
  refine .get fun s => ?_
  split
  next c _ =>
    refine .get fun u => ?_
    dsimp only
    split
    · exact .seq (holds_pend_ending (ending_endRequest _ _ _ _ _ _) k) (holds_pend_dispRaise k _)
    split
    · refine .seq (.each fun x _ => ?_) (holds_pend_dispRaise k _)
      split
      · exact holds_pend_frogOne _ _ _ _ _ k
      · exact .when fun _ => holds_pend_frogOne _ _ _ _ _ k
    · exact holds_pend_frogOne _ _ _ _ _ k
  next => exact fun _ _ h => h

theorem remoteTimeout_due {s : State} (hs : keysRise s.regs) {id t0 : Nat} {c : Cmd} (hc : s.cmd id = some c) (hr : c.remote = some t0)
    (hdue : t0 + s.fld Reg.DISP.REMOTE_TO 15 0 * 1000 ≤ s.now) :
    let t := (remoteTimeoutAct id).run s
    t.pend .DISP 0 1 = true ∧ t.es = s.es ∧ t.tsc = s.tsc := by
  intro t
  have hrun : t = (Act.seq (dispRaise 1) (frogAct id 0x44 0xFFFF)).run s := by
    simp only [t, remoteTimeoutAct, Act.withCmd, run_get, hc, hr]
    rw [run_when, if_pos (decide_eq_true hdue)]
  have honly : (Act.seq (dispRaise 1) (frogAct id 0x44 0xFFFF)).Only .frogging := ⟨frogging_dispRaise _, frogging_frogAct _ _ _⟩
  rw [hrun]
  exact ⟨holds_pend_frogAct id 0x44 0xFFFF 1 _ (rise_run _ hs) (bit_raise hs (by decide) (by decide)), honly.es (fun h => h) s, honly.tsc (fun h => h) s⟩

theorem remoteTimeout_early {s : State} {id t0 : Nat} {c : Cmd} (hc : s.cmd id = some c) (hr : c.remote = some t0)
    (hearly : s.now < t0 + s.fld Reg.DISP.REMOTE_TO 15 0 * 1000) : (remoteTimeoutAct id).run s = s := by
  simp only [remoteTimeoutAct, Act.withCmd, run_get, hc, hr]
  rw [run_when, if_neg (by simpa using hearly)]

theorem quarantine_taken {s : State} {id gen : Nat} (h : ∀ c, s.cmd id = some c → c.remote = none ∨ gen < c.gen) :
    (quarantineAct id gen).run s = quarantine.run s := by
  rw [quarantineAct, run_get]
  cases hc : s.cmd id with
  | none => rfl
  | some c =>
    dsimp only
    rw [run_when, if_pos]
    rcases h c hc with h | h
    · simp [h]
    · simp [h]

theorem quarantine_wanted {s : State} {id gen : Nat} {c : Cmd} (hc : s.cmd id = some c) (hr : c.remote ≠ none) (hgen : c.gen ≤ gen) :
    (quarantineAct id gen).run s = s := by
  rw [quarantineAct, run_get, hc]
  dsimp only
  rw [run_when, if_neg]
  simp [hr, hgen]

/-- Settles O30: the victim chosen, its frog or cheap point, save and restore, remote waits and the quarantine. -/
theorem preemptionCommands : Obligations.PreemptionCommands := by
  unfold Obligations.PreemptionCommands
  refine ⟨fun s w v k hl h0 h1 hf hfind hremote => ?_, fun s hl h1 => ?_, fun s id j c k hl hc hcheap => ?_, fun s id c k j hl hc2 hc hsave hone => ?_,
    fun s id c k j n rest hl hc hres hsaved => ?_, fun s id t0 c hl hc hr => ⟨fun hdue => ?_, fun hearly => ?_⟩,
    fun s id gen hl => ⟨fun h => ?_, fun c hc hr hgen => ?_⟩⟩
  · have hv := cmd_of_preempt hfind
    refine ⟨fun hcls => ?_, fun j n hcls hcheap hwait hres => ?_⟩
    · refine ⟨_, command_eq hl.2, ?_⟩
      rw [preempt_run h0 h1 hf hfind]
      exact preempt_class2 hl.1.1.1 hv k hremote hcls
    · refine ⟨_, command_eq hl.2, ?_⟩
      rw [preempt_run h0 h1 hf hfind]
      exact preempt_cheap hl.1.1.1 hv hremote hcls hcheap hwait hres
  · refine (command_eq hl.2).trans ?_
    rw [preemptAct, run_get, run_when, if_neg (by simp [h1])]
  · exact fun hdone hfails hdiag hsize => ⟨_, command_eq hl.2, cheapPoint_effect hl.1.1.1 hc hcheap hdone hfails hdiag hsize⟩
  · exact ⟨_, command_eq hl.2, saveDone_effect hl.1 hc2 hc hsave hone⟩
  · exact ⟨_, command_eq hl.2, restoreDone_effect hl.1 hc hres hsaved⟩
  · exact ⟨_, command_eq hl.2, remoteTimeout_due hl.1.1.1 hc hr hdue⟩
  · refine (command_eq hl.2).trans ?_
    rw [remoteTimeout_early hc hr hearly]
  · refine ⟨_, command_eq hl.2, ?_⟩
    rw [quarantine_taken h]
    exact quarantine_effect hl.1.1.1
  · refine (command_eq hl.2).trans ?_
    rw [quarantine_wanted hc hr hgen]

end Sys2Proof.Machine

/-! ## Proofs: the engines' scrub, diagnostic, repair, vector unit, thresholds (03_engines_and_arrays) -/

namespace Sys2Proof.Machine

-- One theorem after the other: elaborated side by side, they hold more threads than the memory limit of a check allows.
set_option Elab.async false

theorem mask_eng (p : Fin 36) : RegRef.mask (Reg.ENG.ARR_REPAIR p) = 0x3FFFF ∧ RegRef.mask (Reg.ENG.ES_ECC p) = 0xFFFFFFFF ∧
    RegRef.mask (Reg.ENG.VU_CHK p) = 0xFFFFFFFF := by revert p; decide +kernel

/-! ### Registers of an engine's page -/

/-- A register of an engine's page other than ENG_STATE stays when commands end or are frogged. -/
theorem Act.Only.frogging_eng {a : Act} (h : a.Only .frogging) {p off : Nat} (hp : p < 36) (ho : off < 4096) (hne : off ≠ 0x044) (s : State) :
    (a.run s).rd ⟨.ENG, p, off⟩ = s.rd ⟨.ENG, p, off⟩ := by
  refine h.rd (fun h => h) (fun r hr hk => ?_) s
  have hpage : r.key / 4096 = 0x80 + p := by rw [hk]; simp only [RegRef.key, Blk.slot]; omega
  have hoff : r.key % 4096 = off := by rw [hk]; simp only [RegRef.key, Blk.slot]; omega
  rcases hr with (hr | ⟨hr, -⟩ | ⟨h1, h2, h3⟩) | hr
  · simp only [List.mem_cons, List.not_mem_nil, or_false] at hr
    rcases hr with rfl | rfl | rfl | rfl <;> simp only [RegRef.key, Blk.slot] at hpage <;> omega
  · simp only [RegRef.key, hr] at hoff
    omega
  · simp only [RegRef.key, h1, h2, Blk.slot] at hpage
    omega
  · simp only [irqOf, List.mem_cons, List.not_mem_nil, or_false] at hr
    rcases hr with rfl | rfl | rfl <;> simp only [RegRef.key, Blk.slot] at hpage <;> omega

theorem frogging_frogOn (p detail : Nat) : (frogOn p detail).Only .frogging := by
  refine (only_get _).2 fun s => ?_
  split
  · exact frogging_frogAct _ _ _
  · trivial

/-! ### The engine store (R151) -/

theorem scrub_corr {s : State} (hs : keysRise s.regs) (p : Fin 36) (w : Nat) (hon : s.engState p ≠ eOFF) :
    let t := (esScrubAct p w .corr).run s
    t.fld (Reg.ENG.ES_ECC p) 15 0 = min (s.fld (Reg.ENG.ES_ECC p) 15 0 + 1) 65535 ∧ SameRegs [Reg.ENG.ES_ECC p] s t ∧ SameRest s t := by
  intro t
  have hrun : t = (Act.event (.rowErr p (esRow w) false)).run ((Act.satFld (Reg.ENG.ES_ECC p) 15 0 1).run s) := by
    simp only [t, esScrubAct, run_get, run_when]
    rw [if_pos (by simpa using hon)]
    rfl
  obtain ⟨hregs, hrest⟩ := Act.Only.frame (l := [Reg.ENG.ES_ECC p])
    (a := .seq (.satFld (Reg.ENG.ES_ECC p) 15 0 1) (.event (.rowErr p (esRow w) false))) (by simp) s
  have hall : (Act.seq (.satFld (Reg.ENG.ES_ECC p) 15 0 1) (.event (.rowErr p (esRow w) false))).run s = t := hrun.symm
  rw [hall] at hregs hrest
  refine ⟨?_, hregs, hrest⟩
  rw [hrun]
  exact fld_satFld hs 1 (by decide) (by rw [(mask_eng p).2.1]; decide)

/-- What an uncorrectable word leads to before the command is frogged. -/
def esLost (p w : Nat) : Act := .all [.satFld (Reg.ENG.ES_ECC p) 31 16 1, .raise .ENG p 2, .event (.storeFault p), .event (.rowErr p (esRow w) true)]

theorem esEcc_uncorr_run (p w : Nat) (s : State) : (esEcc p w .uncorr).run s = (frogOn p 0x42).run ((esLost p w).run s) := rfl

theorem esLost_effect {s : State} (hs : keysRise s.regs) (p : Fin 36) (w : Nat) :
    let t := (esLost p w).run s
    t.fld (Reg.ENG.ES_ECC p) 31 16 = min (s.fld (Reg.ENG.ES_ECC p) 31 16 + 1) 65535 ∧ t.pend .ENG p 2 = true ∧
      SameRegs (Reg.ENG.ES_ECC p :: irqOf .ENG p) s t ∧ SameRest s t := by
  intro t
  obtain ⟨hregs, hrest⟩ := Act.Only.frame (l := Reg.ENG.ES_ECC p :: irqOf .ENG p) (a := esLost p w) (by simp [esLost, irqOf]) s
  have hrd (r : RegRef) : t.rd r = ((Act.raise .ENG p 2).run ((Act.satFld (Reg.ENG.ES_ECC p) 31 16 1).run s)).rd r := rfl
  refine ⟨?_, ?_, hregs, hrest⟩
  · rw [State.fld, hrd, rd_raise_off (show 0x010 ≠ 0x074 % 4096 by decide) (show 0x01C ≠ 0x074 % 4096 by decide)]
    exact fld_satFld hs 1 (by decide) (by rw [(mask_eng p).2.1]; decide)
  · rw [State.pend, State.bit, hrd]
    exact bit_raise (rise_run (.satFld (Reg.ENG.ES_ECC p) 31 16 1) hs) p.isLt (by decide)

theorem scrub_uncorr {s : State} (hs : keysRise s.regs) (p : Fin 36) (w : Nat) (hon : s.engState p ≠ eOFF) :
    let t := (esScrubAct p w .uncorr).run s
    t.fld (Reg.ENG.ES_ECC p) 31 16 = min (s.fld (Reg.ENG.ES_ECC p) 31 16 + 1) 65535 ∧ t.pend .ENG p 2 = true ∧
      t.es = s.es ∧ t.tsc = s.tsc ∧ (s.runningOn p = none → SameRegs (Reg.ENG.ES_ECC p :: irqOf .ENG p) s t ∧ SameRest s t) := by
  intro t
  let u := (esLost p w).run s
  have hrun : t = (frogOn p 0x42).run u := by
    rw [← esEcc_uncorr_run]
    simp only [t, esScrubAct, run_get, run_when]
    rw [if_pos (by simpa using hon)]
  have hfrog := frogging_frogOn p 0x42
  obtain ⟨hfld, hpend, hregs, hrest⟩ := esLost_effect hs p w
  refine ⟨?_, ?_, ?_, ?_, fun hnone => ?_⟩
  · rw [hrun, State.fld, hfrog.frogging_eng p.isLt (by decide) (by decide)]
    exact hfld
  · rw [hrun, State.pend, State.bit, hfrog.frogging_eng p.isLt (by decide) (by decide)]
    exact hpend
  · rw [hrun]
    exact (hfrog.es (fun h => h) u).trans hrest.es
  · rw [hrun]
    exact (hfrog.tsc (fun h => h) u).trans hrest.tsc
  · have hu : u.runningOn p = none := by
      have hhw : u.hw.eng = s.hw.eng ∧ u.hw.disp = s.hw.disp := by
        have honly : (esLost p w).Only { reg := fun _ => True, hw := fun f => ∀ h : Hw, (f h).eng = h.eng ∧ (f h).disp = h.disp } :=
          ⟨(only_satFld _ _ _ _).2 trivial, only_raise trivial trivial fun _ _ => ⟨rfl, rfl⟩, fun _ => ⟨rfl, rfl⟩, fun _ => ⟨rfl, rfl⟩, trivial⟩
        exact ⟨honly.hw (·.eng) (fun _ hf h => (hf h).1) s, honly.hw (·.disp) (fun _ hf h => (hf h).2) s⟩
      rw [← hnone, State.runningOn, State.runningOn, State.eng, State.eng, hhw.1]
      refine congrArg _ (funext fun i => ?_)
      rw [State.cmd, State.cmd, hhw.2]
    have ht : t = u := by rw [hrun, frogOn, run_get, hu]; rfl
    rw [ht]
    exact ⟨hregs, hrest⟩

/-! ### Diagnostic, repair, fault (R140, R144 to R147, R163) -/

section
variable {s : State} (hs : keysRise s.regs) (p : Fin 36) {r : DiagResult} {spareOk : Bool}
include hs

theorem diagReport_effect (hdiag : (s.eng p).diag = 2) (hp : p.val < s.hw.eng.length) :
    let t := (diagDoneAct p r spareOk).run s
    t.rd (Reg.ENG.DIAG_RESULT p) = BitVec.ofNat 32 (diagWord r) &&& RegRef.mask (Reg.ENG.DIAG_RESULT p) ∧
      t.engState p = (s.eng p).diagFrom % 16 ∧ (t.eng p).diag = 0 ∧ SameRegs [Reg.ENG.DIAG_RESULT p, Reg.ENG.ENG_STATE p] s t ∧ SameRest s t := by
  intro t
  let a := (Act.wrN (Reg.ENG.DIAG_RESULT p) (diagWord r)).run s
  let b := (setEngState p (s.eng p).diagFrom).run a
  have hrun : t = (Act.eng p fun x => { x with diag := 0 }).run b := by
    simp only [t, diagDoneAct, run_get, hdiag, if_true]
    rfl
  obtain ⟨hregs, hrest⟩ := Act.Only.frame (l := [Reg.ENG.DIAG_RESULT p, Reg.ENG.ENG_STATE p])
    (a := .all [.wrN (Reg.ENG.DIAG_RESULT p) (diagWord r), setEngState p (s.eng p).diagFrom, .eng p fun x => { x with diag := 0 }])
    (by simp [setEngState]) s
  have hall : (Act.all [.wrN (Reg.ENG.DIAG_RESULT p) (diagWord r), setEngState p (s.eng p).diagFrom,
    .eng p fun x => { x with diag := 0 }]).run s = t := hrun.symm
  rw [hall] at hregs hrest
  have htb (q : RegRef) : t.rd q = b.rd q := by rw [hrun]; rfl
  refine ⟨?_, ?_, ?_, hregs, hrest⟩
  · rw [htb]
    exact (rd_setReg_off (r := Reg.ENG.ENG_STATE p) (s := a) (show 0x044 % 4096 ≠ 0x088 % 4096 by decide)).trans (rd_setReg_same hs _ _)
  · rw [State.engState, State.fld, htb]
    exact fld_setFld_same (s := a) (rise_run _ hs) (Reg.ENG.ENG_STATE p) (hi := 3) (lo := 0) _ (by decide) (by rw [mask_engState]; decide)
  · rw [hrun]
    exact congrArg EngSt.diag (eng_run_eng (s := b) hp fun x => { x with diag := 0 })

/-- How ARR_REPAIR shows a spare switched in: the column's bit and index, or the row's. -/
def repairWord (col : Bool) (i : Nat) (w : Word) : Word := if col then setBits (setBits w 9 9 1) 17 10 i else setBits (setBits w 0 0 1) 8 1 i

/-- What a repair does (R144, R145). -/
def repairAct (p : Nat) (col : Bool) (i : Nat) : Act := .all
  [.modReg (Reg.ENG.ARR_REPAIR p) (repairWord col i), .raise .ENG p 0, setEngState p eRECOVER,
   .eng p (fun x => { x with diag := 0, loaded := false, fails := x.fails.map fun f => (f.1, 0) }),
   .event (.darn { kind := 2, inst := p / 9, unit := i, cause := 0, spare := some 129 })]

omit hs in
theorem diagRepair_run {col : Bool} {i : Nat} (hdiag : (s.eng p).diag = 1) (hrep : s.repairOf p r spareOk = some (col, i)) :
    (diagDoneAct p r spareOk).run s = (repairAct p col i).run s := by
  simp only [diagDoneAct, run_get, hdiag, hrep]
  cases col <;> rfl

theorem repair_effect (col : Bool) (i : Nat) (hp : p.val < s.hw.eng.length) :
    let t := (repairAct p col i).run s
    t.rd (Reg.ENG.ARR_REPAIR p) = repairWord col i (s.rd (Reg.ENG.ARR_REPAIR p)) &&& 0x3FFFF ∧ t.pend .ENG p 0 = true ∧ t.engState p = eRECOVER ∧
      (t.eng p).diag = 0 ∧ SameRegs ([Reg.ENG.ARR_REPAIR p, Reg.ENG.ENG_STATE p] ++ irqOf .ENG p) s t ∧ SameRest s t := by
  intro t
  let f : EngSt → EngSt := fun x => { x with diag := 0, loaded := false, fails := x.fails.map fun f => (f.1, 0) }
  let a := (Act.modReg (Reg.ENG.ARR_REPAIR p) (repairWord col i)).run s
  let b := (Act.raise .ENG p 0).run a
  let d := (setEngState p eRECOVER).run b
  have ha : keysRise a.regs := rise_run _ hs
  obtain ⟨hregs, hrest⟩ := Act.Only.frame (l := [Reg.ENG.ARR_REPAIR p, Reg.ENG.ENG_STATE p] ++ irqOf .ENG p) (a := repairAct p col i)
    (by simp [repairAct, setEngState, irqOf]) s
  have htd (q : RegRef) : t.rd q = d.rd q := rfl
  have hset {q : RegRef} (hq : 0x044 ≠ q.off % 4096) : d.rd q = b.rd q := rd_setReg_off (r := Reg.ENG.ENG_STATE p) hq
  refine ⟨?_, ?_, ?_, ?_, hregs, hrest⟩
  · rw [htd, hset (show 0x044 ≠ 0x04C % 4096 by decide), rd_raise_off (show 0x010 ≠ 0x04C % 4096 by decide) (show 0x01C ≠ 0x04C % 4096 by decide)]
    exact (rd_setReg_same hs _ _).trans (by rw [(mask_eng p).1])
  · rw [State.pend, State.bit, htd, hset (show 0x044 ≠ 0x010 % 4096 by decide)]
    exact bit_raise ha p.isLt (by decide)
  · have h : d.engState p = eRECOVER := engState_setEngState (rise_run _ ha) p (by decide)
    exact (congrArg (bits · 3 0) (htd (Reg.ENG.ENG_STATE p))).trans h
  · have hde : d.hw.eng = s.hw.eng :=
      Act.Only.hw (p := .quiet ([Reg.ENG.ARR_REPAIR p, Reg.ENG.ENG_STATE p] ++ irqOf .ENG p))
        (a := .all [.modReg (Reg.ENG.ARR_REPAIR p) (repairWord col i), .raise .ENG p 0, setEngState p eRECOVER]) (by simp [setEngState, irqOf])
        (·.eng) (fun _ ⟨_, h⟩ => by subst h; exact fun _ => rfl) s
    exact congrArg EngSt.diag (eng_run_eng (s := d) (by rw [hde]; exact hp) f)

end

/-- A spare's bit and index read back from ARR_REPAIR. -/
theorem repairWord_column (w : Word) {i : Nat} (hi : i < 256) :
    (repairWord true i w &&& 0x3FFFF).getLsbD 9 = true ∧ bits (repairWord true i w &&& 0x3FFFF) 17 10 = i := by
  refine ⟨?_, ?_⟩
  · rw [BitVec.getLsbD_and, repairWord, if_pos rfl, getLsbD_setBits, if_neg (by omega), getLsbD_setBits]
    rfl
  · rw [bits_and_mask _ _ (by decide), repairWord, if_pos rfl, bits_setBits_same _ _ (by decide)]
    exact Nat.mod_eq_of_lt hi

theorem repairWord_row (w : Word) {i : Nat} (hi : i < 256) :
    (repairWord false i w &&& 0x3FFFF).getLsbD 0 = true ∧ bits (repairWord false i w &&& 0x3FFFF) 8 1 = i := by
  refine ⟨?_, ?_⟩
  · rw [BitVec.getLsbD_and, repairWord, if_neg (by simp), getLsbD_setBits, if_neg (by omega), getLsbD_setBits]
    rfl
  · rw [bits_and_mask _ _ (by decide), repairWord, if_neg (by simp), bits_setBits_same _ _ (by decide)]
    exact Nat.mod_eq_of_lt hi

/-- An engine in FAULT: its command frogged, its own state but the ramp and the corrections reset (R147). -/
theorem engineFault_effect {s : State} (hs : keysRise s.regs) (p : Fin 36) (t0 : Nat) :
    let t := (engineFault p t0).run s
    t.engState p = eFAULT ∧ t.pend .ENG p 1 = true ∧ (t.eng p).cmd = none ∧ t.es = s.es ∧ t.tsc = s.tsc := by
  intro t
  let u := (frogOn p 0x41).run s
  let v := (Act.eng p fun e => { dummy := e.dummy, corr := e.corr, idleSince := s.now }).run u
  let last : Act := .all [setEngState p eFAULT, .raise .ENG p 1, .event (.engFault p t0),
    .event (.darn { kind := 1, inst := p / 9, unit := p, cause := 0 })]
  have hrun : t = last.run v := rfl
  have hu : keysRise u.regs := rise_run _ hs
  have honly : last.Only (.regs (Reg.ENG.ENG_STATE p :: irqOf .ENG p)) := by simp [last, setEngState, irqOf]
  have hrest := (honly.frame v).2
  have hfrog := frogging_frogOn p 0x41
  have hrd (q : RegRef) : t.rd q = ((Act.raise .ENG p 1).run ((setEngState p eFAULT).run v)).rd q := rfl
  refine ⟨?_, ?_, ?_, ?_, ?_⟩
  · rw [State.engState, State.fld, hrd, rd_raise_off (show 0x010 ≠ 0x044 % 4096 by decide) (show 0x01C ≠ 0x044 % 4096 by decide)]
    exact engState_setEngState (s := v) hu p (by decide)
  · rw [State.pend, State.bit, hrd]
    exact bit_raise (rise_run (setEngState p eFAULT) (s := v) hu) p.isLt (by decide)
  · have heng : t.hw.eng = updAt (fun e => { dummy := e.dummy, corr := e.corr, idleSince := s.now }) p u.hw.eng := by
      rw [hrun]
      exact Act.Only.hw (p := .keeping (·.eng) (Reg.ENG.ENG_STATE p :: irqOf .ENG p)) (a := last)
        ⟨(only_setFld _ _ _ _).2 (by simp), only_raise (by simp [irqOf]) (by simp [irqOf]) fun _ _ => rfl, fun _ => rfl, fun _ => rfl, trivial⟩
        (·.eng) (fun _ h => h) v
    rw [State.eng, heng, getD_updAt]
    split <;> rfl
  · rw [hrun]
    exact hrest.es.trans (hfrog.es (fun h => h) s)
  · rw [hrun]
    exact hrest.tsc.trans (hfrog.tsc (fun h => h) s)

theorem diagFault_run {s : State} {p : Nat} {r : DiagResult} {spareOk : Bool} (hdiag : (s.eng p).diag = 1) (hrep : s.repairOf p r spareOk = none) :
    (diagDoneAct p r spareOk).run s = (engineFault p ((s.eng p).recFrom.getD s.now)).run s := by
  simp only [diagDoneAct, run_get, hdiag, hrep]
  rfl

/-! ### The vector unit (R148, R149, R758) -/

/-- The reads of an engine's store that find it sound and meet no injection. -/
theorem esRead_sound {s : State} {p : Nat} {rd : StoreRead} (hecc : rd.ecc = .none) (hinj : (s.eng p).firstRead = false ∨ (s.eng p).injEs = 0) (k : Act) :
    (esRead p rd k).run s = k.run ((Act.eng p fun x => { x with firstRead := false, injEs := 0 }).run s) := by
  have h0 : (if (s.eng p).firstRead = true then (s.eng p).injEs else 0) = 0 := by rcases hinj with h | h <;> simp [h]
  simp only [esRead, run_get, h0, hecc, Nat.zero_testBit, Bool.false_eq_true, if_false]
  rfl

/-- What a vector instruction leads to, its reads having found the store sound. -/
def vectorOutcome (s : State) (p : Nat) (i : VecInstr) (alt : List (Nat × Int)) : Act :=
  if residueOk alt then .seq (.upd (.es (esAddr p i.dst.toNat) ((s.vecRun p i alt).take (0x400000 - i.dst.toNat))))
    (.eng p fun x => { x with vuOnce := false })
  else if (s.eng p).vuOnce then engineFault p (s.eng p).vuAt
  else .seq (.bump (Reg.ENG.VU_CHK p) 1) (.eng p fun x => { x with vuOnce := true, vuAt := s.now })

/-- The engine's first read is over. -/
def readOver (p : Nat) : Act := .eng p fun x => { x with firstRead := false, injEs := 0 }

theorem vector_run {s : State} {p : Nat} {i : VecInstr} {rd : StoreRead} {alt : List (Nat × Int)} (hact : s.engActive p = true)
    (hinj : s.bit (Reg.ENG.INJECT p) 4 = false) (hecc : rd.ecc = .none) (hfirst : (s.eng p).firstRead = false ∨ (s.eng p).injEs = 0) :
    (vectorAct p i rd alt).run s = (vectorOutcome s p i alt).run ((readOver p).run s) := by
  rw [vectorAct, run_get]
  dsimp only
  rw [run_when, if_pos hact, esRead_sound hecc hfirst, hinj]
  simp only [Bool.false_and, Bool.not_false, Bool.and_true]
  rfl

section
variable {s : State} (p : Fin 36) {i : VecInstr} {alt : List (Nat × Int)} (hp : p.val < s.hw.eng.length)
include hp

theorem readOver_length : p.val < ((readOver p).run s).hw.eng.length := (length_updAt _ _ _).symm ▸ hp

theorem vectorGood_effect (hs : s.sound) (hok : residueOk alt = true) :
    let r := (s.vecRun p i alt).take (0x400000 - i.dst.toNat)
    let t := (vectorOutcome s p i alt).run ((readOver p).run s)
    (t.eng p).vuOnce = false ∧ t.readEs p i.dst.toNat r.length = r ∧
      (∀ a, a < esAddr p i.dst.toNat ∨ esAddr p i.dst.toNat + r.length ≤ a → alGet 0 a t.es = alGet 0 a s.es) ∧
      SameRegs [] s t ∧ t.mem = s.mem ∧ t.tsc = s.tsc ∧ t.out = s.out := by
  intro r t
  let u := (Act.upd (.es (esAddr p i.dst.toNat) r)).run ((readOver p).run s)
  have hrun : t = (Act.eng p fun x => { x with vuOnce := false }).run u := by
    simp only [t, vectorOutcome, hok, if_true]
    rfl
  have hes : t.es = putEs (esAddr p i.dst.toNat) r s.es := by rw [hrun]; rfl
  have hrise : keysRise s.es := hs.2.2.1.1
  have honly : (Act.all [readOver p, .upd (.es (esAddr p i.dst.toNat) r), .eng p fun x => { x with vuOnce := false }]).Only
      { reg := fun _ => False, es := True } := ⟨trivial, trivial, trivial, trivial⟩
  have hall : (Act.all [readOver p, .upd (.es (esAddr p i.dst.toNat) r), .eng p fun x => { x with vuOnce := false }]).run s = t := hrun.symm
  refine ⟨?_, readEs_putEs hrise hes, fun a ha => ?_, ?_, ?_, ?_, ?_⟩
  · rw [hrun]
    exact congrArg EngSt.vuOnce (eng_run_eng (s := u) (readOver_length p hp) fun x => { x with vuOnce := false })
  · rw [hes, alGet_putEs hrise, if_neg (by omega)]
  · rw [← hall]
    exact fun q _ => honly.rd (fun h => h) (fun _ h => h.elim) s
  · rw [← hall]; exact honly.mem (fun h => h) s
  · rw [← hall]; exact honly.tsc (fun h => h) s
  · rw [← hall]; exact honly.out (fun h => h) s

theorem vectorFirst_effect (hs : keysRise s.regs) (hbad : residueOk alt = false) (honce : (s.eng p).vuOnce = false) :
    let t := (vectorOutcome s p i alt).run ((readOver p).run s)
    (t.eng p).vuOnce = true ∧ Counts (Reg.ENG.VU_CHK p) 1 s t ∧ SameRegs [Reg.ENG.VU_CHK p] s t ∧ SameRest s t := by
  intro t
  let f : EngSt → EngSt := fun x => { x with vuOnce := true, vuAt := s.now }
  let u := (readOver p).run s
  let w := (Act.bump (Reg.ENG.VU_CHK p) 1).run u
  have hrun : t = (Act.eng p f).run w := by
    simp only [t, vectorOutcome, hbad, honce, Bool.false_eq_true, if_false]
    rfl
  have hwe : w.hw.eng = u.hw.eng := Act.Only.hw (p := .stores [Reg.ENG.VU_CHK p]) (by simp) (·.eng) (fun _ h => h.elim) u
  obtain ⟨hregs, hrest⟩ := Act.Only.frame (l := [Reg.ENG.VU_CHK p]) (a := .all [readOver p, .bump (Reg.ENG.VU_CHK p) 1, .eng p f]) (by simp [readOver]) s
  have hall : (Act.all [readOver p, .bump (Reg.ENG.VU_CHK p) 1, .eng p f]).run s = t := hrun.symm
  rw [hall] at hregs hrest
  refine ⟨?_, ?_, hregs, hrest⟩
  · rw [hrun]
    exact congrArg EngSt.vuOnce (eng_run_eng (s := w) (by rw [hwe]; exact readOver_length p hp) f)
  · rw [hrun]
    exact counts_bump (s := u) hs (mask_eng p).2.2 1

omit hp in
theorem vectorAgain_run (hbad : residueOk alt = false) (honce : (s.eng p).vuOnce = true) :
    (vectorOutcome s p i alt).run ((readOver p).run s) = (engineFault p (s.eng p).vuAt).run ((readOver p).run s) := by
  simp only [vectorOutcome, hbad, honce, Bool.false_eq_true, if_false, if_true]

/-! ### Thresholds (R162, R165) -/

theorem engThresh_effect (hs : keysRise s.regs)
    (hn : 0 < ((s.eng p).corr.filter fun t => decide (s.now < t + 1000000000)).length)
    (hle : (s.rd (Reg.ENG.TRANS_THRESH p)).toNat ≤ ((s.eng p).corr.filter fun t => decide (s.now < t + 1000000000)).length) :
    let t := (transThreshAct (.eng p)).run s
    t.pend .ENG p 3 = true ∧ (t.eng p).corr = [] ∧ SameRegs (irqOf .ENG p) s t ∧ SameRest s t := by
  intro t
  let f : Hw → Hw := fun h => { h with darn := { h.darn with thresh := (p.val, s.now) :: h.darn.thresh.filter fun x => decide (s.now < x.2 + 86400000000000) } }
  let a := (Act.raise .ENG p 3).run s
  let g : EngSt → EngSt := fun e => { e with corr := [] }
  have hrun : t = (Act.hw f).run ((Act.eng p g).run a) := by
    simp only [t, transThreshAct, run_get]
    rw [run_when, if_pos (decide_eq_true ⟨hn, hle⟩)]
    rfl
  obtain ⟨hregs, hrest⟩ := Act.Only.frame (l := irqOf .ENG p) (a := .all [.raise .ENG p 3, .eng p g, .hw f]) (by simp [irqOf]) s
  have hall : (Act.all [.raise .ENG p 3, .eng p g, .hw f]).run s = t := hrun.symm
  rw [hall] at hregs hrest
  have hae : a.hw.eng = s.hw.eng := Act.Only.hw (p := .quiet (irqOf .ENG p)) (by simp [irqOf]) (·.eng) (fun _ ⟨_, h⟩ => by subst h; exact fun _ => rfl) s
  refine ⟨?_, ?_, hregs, hrest⟩
  · rw [hrun]
    exact bit_raise (s := s) hs p.isLt (by decide)
  · rw [hrun]
    exact congrArg EngSt.corr (eng_run_eng (s := a) (by rw [hae]; exact hp) g)

end

theorem fceThresh_effect {s : State} (hs : keysRise s.regs) (i : Fin 4) (hi : i.val < s.hw.fce.length)
    (hn : 0 < ((s.fce i).corr.filter fun t => decide (s.now < t + 1000000000)).length)
    (hle : (s.rd (Reg.FCE.TRANS_THRESH i)).toNat ≤ ((s.fce i).corr.filter fun t => decide (s.now < t + 1000000000)).length) :
    let t := (transThreshAct (.fce i)).run s
    t.pend .FCE i 3 = true ∧ (t.fce i).corr = [] ∧ SameRegs (irqOf .FCE i) s t ∧ SameRest s t := by
  intro t
  let a := (Act.raise .FCE i 3).run s
  let g : FceSt → FceSt := fun e => { e with corr := [] }
  have hrun : t = (Act.fce i g).run a := by
    simp only [t, transThreshAct, run_get]
    rw [run_when, if_pos (decide_eq_true ⟨hn, hle⟩)]
    rfl
  obtain ⟨hregs, hrest⟩ := Act.Only.frame (l := irqOf .FCE i) (a := .seq (.raise .FCE i 3) (.fce i g)) (by simp [irqOf]) s
  have hall : (Act.seq (.raise .FCE i 3) (.fce i g)).run s = t := hrun.symm
  rw [hall] at hregs hrest
  have hae : a.hw.fce = s.hw.fce := Act.Only.hw (p := .quiet (irqOf .FCE i)) (by simp [irqOf]) (·.fce) (fun _ ⟨_, h⟩ => by subst h; exact fun _ => rfl) s
  refine ⟨?_, ?_, hregs, hrest⟩
  · rw [hrun]
    exact bit_raise (s := s) hs i.isLt (by decide)
  · rw [hrun]
    exact congrArg FceSt.corr (fce_run_fce (s := a) (by rw [hae]; exact hi) g)

/-- Settles O34: what a scrub finds, each end of a diagnostic, each outcome of a vector instruction, and the thresholds. -/
theorem engineDiagnosis : Obligations.EngineDiagnosis := by
  unfold Obligations.EngineDiagnosis
  refine ⟨fun s p w hl hon => ⟨?_, ?_⟩, fun s p r spareOk hl hp => ⟨fun hdiag => ?_, fun i hdiag hrep hi => ?_, fun i hdiag hrep hi => ?_,
    fun hdiag hrep => ?_⟩, fun s p i rd alt hl hact hp hinj hecc hfirst => ⟨fun hok => ?_, fun hbad honce => ?_, fun hbad honce => ?_⟩,
    fun s p hl hp => ?_, fun s i hl hi => ?_⟩
  · exact ⟨_, command_eq hl.2, scrub_corr hl.1.1.1 p w.toNat hon⟩
  · exact ⟨_, command_eq hl.2, scrub_uncorr hl.1.1.1 p w.toNat hon⟩
  · exact ⟨_, command_eq hl.2, diagReport_effect hl.1.1.1 p hdiag hp⟩
  · refine ⟨_, command_eq hl.2, ?_⟩
    rw [diagRepair_run p hdiag hrep]
    obtain ⟨hrd, hrest⟩ := repair_effect hl.1.1.1 p true i hp
    obtain ⟨hbit, hfld⟩ := repairWord_column (s.rd (Reg.ENG.ARR_REPAIR p)) hi
    exact ⟨(congrArg (BitVec.getLsbD · 9) hrd).trans hbit, (congrArg (bits · 17 10) hrd).trans hfld, hrest⟩
  · refine ⟨_, command_eq hl.2, ?_⟩
    rw [diagRepair_run p hdiag hrep]
    obtain ⟨hrd, hrest⟩ := repair_effect hl.1.1.1 p false i hp
    obtain ⟨hbit, hfld⟩ := repairWord_row (s.rd (Reg.ENG.ARR_REPAIR p)) hi
    exact ⟨(congrArg (BitVec.getLsbD · 0) hrd).trans hbit, (congrArg (bits · 8 1) hrd).trans hfld, hrest⟩
  · refine ⟨_, command_eq hl.2, ?_⟩
    rw [diagFault_run hdiag hrep]
    exact engineFault_effect hl.1.1.1 p _
  · refine ⟨_, command_eq hl.2, ?_⟩
    rw [vector_run hact hinj hecc hfirst]
    exact vectorGood_effect p hp hl.1 hok
  · refine ⟨_, command_eq hl.2, ?_⟩
    rw [vector_run hact hinj hecc hfirst]
    exact vectorFirst_effect p hp hl.1.1.1 hbad honce
  · refine ⟨_, command_eq hl.2, ?_⟩
    rw [vector_run hact hinj hecc hfirst, vectorAgain_run p hbad honce]
    obtain ⟨h1, h2, -, h4⟩ := engineFault_effect (s := (readOver p).run s) hl.1.1.1 p (s.eng p).vuAt
    exact ⟨h1, h2, h4⟩
  · exact fun hn hle => ⟨_, command_eq hl.2, engThresh_effect p hp hl.1.1.1 hn hle⟩
  · exact fun hn hle => ⟨_, command_eq hl.2, fceThresh_effect hl.1.1.1 i hi hn hle⟩

end Sys2Proof.Machine

/-! ## Proofs: loads, rows and tiles of an engine (03_engines_and_arrays) -/

namespace Sys2Proof.Machine

-- One theorem after the other: elaborated side by side, they hold more threads than the memory limit of a check allows.
set_option Elab.async false

theorem mask_engCounts (p : Fin 36) : RegRef.mask (Reg.ENG.SWITCH_CNT p) = 0xFFFFFFFF ∧ RegRef.mask (Reg.ENG.DUMMY_CYC p) = 0xFFFFFFFF ∧
    RegRef.mask (Reg.ENG.LOAD_CYC p) = 0xFFFFFFFF ∧ RegRef.mask (Reg.ENG.ISSUE_CYC_LO p) = 0xFFFFFFFF ∧
    RegRef.mask (Reg.ENG.ISSUE_CYC_HI p) = 0xFFFFFFFF ∧ RegRef.mask (Reg.ENG.CHK_TILE p) = 0xFFFFFFFF ∧
    RegRef.mask (Reg.ENG.CHK_PERM p) = 0xFFFFFFFF := by revert p; decide +kernel

/-! ### Pre-pass, shape, load (R126, R133, R178) -/

theorem prePass_effect {s : State} {p : Nat} {rd : StoreRead} (hact : s.engActive p = true) (hpre : (s.eng p).pre = true) (hecc : rd.ecc = .none)
    (hfirst : (s.eng p).firstRead = false ∨ (s.eng p).injEs = 0) (hp : p < s.hw.eng.length) :
    let t := (prePassAct p rd).run s
    (t.eng p).pre = false ∧ SameRegs [] s t ∧ SameRest s t := by
  intro t
  let a : Act := .seq (readOver p) (.eng p fun e => { e with pre := false })
  have hrun : t = a.run s := by
    simp only [t, prePassAct, run_get]
    rw [run_when, if_pos (by rw [hact, hpre]; rfl), esRead_sound hecc hfirst]
    rfl
  have honly : a.Only (.regs []) := ⟨trivial, trivial⟩
  rw [hrun]
  refine ⟨?_, honly.frame s⟩
  exact congrArg EngSt.pre (eng_run_eng (s := (readOver p).run s) ((length_updAt _ _ _).symm ▸ hp) fun e => { e with pre := false })

theorem shapeChange_effect {s : State} (hs : keysRise s.regs) (p : Fin 36) (hact : s.engActive p = true) (hto : (s.eng p).shapeTo ≠ 0)
    (hp : p.val < s.hw.eng.length) :
    let t := (shapeChangeAct p).run s
    t.fld (Reg.ENG.ENG_STATE p) 6 4 = (s.eng p).shapeTo % 8 ∧ (t.eng p).shapeTo = 0 ∧
      (s.fld (Reg.ENG.ENG_STATE p) 6 4 ≠ 0 → Counts (Reg.ENG.SWITCH_CNT p) 1 s t) ∧
      SameRegs [Reg.ENG.ENG_STATE p, Reg.ENG.SWITCH_CNT p, Reg.ENG.DUMMY_CYC p] s t ∧ SameRest s t := by
  intro t
  let n := dummySlots 260 (s.dummyLevel p) ((s.curLoad p).getD {}).c
  let f : EngSt → EngSt := fun x => { x with shapeTo := 0 }
  let count : Act := .when (s.fld (Reg.ENG.ENG_STATE p) 6 4 != 0) (.seq (.bump (Reg.ENG.SWITCH_CNT p) 1) (.bump (Reg.ENG.DUMMY_CYC p) n))
  let u := (Act.setFld (Reg.ENG.ENG_STATE p) 6 4 (s.eng p).shapeTo).run s
  have hu : keysRise u.regs := rise_run _ hs
  have hrun : t = count.run ((Act.eng p f).run u) := by
    simp only [t, shapeChangeAct, run_get]
    rw [run_when, if_pos (by rw [hact]; simpa using hto)]
    rfl
  have hcount : count.Only (.keeping (·.eng) [Reg.ENG.SWITCH_CNT p, Reg.ENG.DUMMY_CYC p]) := by simp [count]
  obtain ⟨hregs, hrest⟩ := Act.Only.frame (l := [Reg.ENG.ENG_STATE p, Reg.ENG.SWITCH_CNT p, Reg.ENG.DUMMY_CYC p])
    (a := .all [.setFld (Reg.ENG.ENG_STATE p) 6 4 (s.eng p).shapeTo, .eng p f, count]) (by simp [count]) s
  have hall : (Act.all [.setFld (Reg.ENG.ENG_STATE p) 6 4 (s.eng p).shapeTo, .eng p f, count]).run s = t := hrun.symm
  rw [hall] at hregs hrest
  refine ⟨?_, ?_, fun hprev => ?_, hregs, hrest⟩
  · rw [hrun, State.fld, hcount.rd (fun h => h) (fun r hr => by
      rcases (by simpa using hr : r = Reg.ENG.SWITCH_CNT p ∨ r = Reg.ENG.DUMMY_CYC p) with rfl | rfl
      · exact key_ne_of_off (show 0x070 % 4096 ≠ 0x044 % 4096 by decide)
      · exact key_ne_of_off (show 0x06C % 4096 ≠ 0x044 % 4096 by decide))]
    exact fld_setFld_same hs (Reg.ENG.ENG_STATE p) _ (by decide) (by rw [mask_engState]; decide)
  · have he : t.hw.eng = ((Act.eng p f).run u).hw.eng := by rw [hrun]; exact hcount.hw (·.eng) (fun _ h => h) _
    rw [State.eng, he]
    exact congrArg EngSt.shapeTo (eng_run_eng (s := u) hp f)
  · have hb : u.rd (Reg.ENG.SWITCH_CNT p) = s.rd (Reg.ENG.SWITCH_CNT p) :=
      rd_setReg_off (r := Reg.ENG.ENG_STATE p) (show 0x044 % 4096 ≠ 0x070 % 4096 by decide)
    intro h
    have hcrun : t = (Act.bump (Reg.ENG.DUMMY_CYC p) n).run ((Act.bump (Reg.ENG.SWITCH_CNT p) 1).run ((Act.eng p f).run u)) := by
      rw [hrun, run_when, if_pos (by simpa using hprev)]
      rfl
    rw [hcrun, rd_bump_off (show 0x06C % 4096 ≠ 0x070 % 4096 by decide), ← hb]
    exact counts_bump (s := (Act.eng p f).run u) hu (mask_engCounts p).1 1 (by rw [← hb] at h; exact h)

/-- What a stationary load leaves of the engine's own state (R126, R140). -/
def loadedEng (s : State) (p : Nat) (y : EngSt) : EngSt :=
  let x := s.eng p
  let new := x.rows == 0 && x.fails.isEmpty
  let inj := s.rd (Reg.ENG.INJECT p)
  { y with loaded := true, flight := 0, dummyUp := false, rampFrom := none, dummy := if y.dummyUp then s.dummyLevel p else y.dummy,
           injRow := if new then inj.getLsbD 0 else y.injRow, injPair := if new then inj.getLsbD 1 && !y.pairNext else y.injPair }

theorem loadDone_effect {s : State} (hs : keysRise s.regs) (p : Fin 36) {rd : StoreRead} {ld : Load} (hld : s.curLoad p = some ld)
    (hact : s.engActive p = true) (hpre : (s.eng p).pre = false) (hto : (s.eng p).shapeTo = 0) (hload : (s.eng p).loaded = false)
    (hecc : rd.ecc = .none) (hfirst : (s.eng p).firstRead = false ∨ (s.eng p).injEs = 0) (hp : p.val < s.hw.eng.length) :
    let t := (loadDoneAct p rd).run s
    (t.eng p).loaded = true ∧ Counts (Reg.ENG.LOAD_CYC p) 128 s t ∧ Counts (Reg.ENG.DUMMY_CYC p) (s.loadDummy p ld.c) s t ∧
      SameRegs [Reg.ENG.LOAD_CYC p, Reg.ENG.DUMMY_CYC p] s t ∧ SameRest s t := by
  intro t
  let n := s.loadDummy p ld.c
  let u := (readOver p).run s
  let v := (Act.bump (Reg.ENG.LOAD_CYC p) 128).run u
  let w := (Act.bump (Reg.ENG.DUMMY_CYC p) n).run v
  have hrun : t = (Act.eng p (loadedEng s p)).run w := by
    simp only [t, loadDoneAct, run_get, hld]
    rw [run_when, if_pos (by rw [hact, hpre, hto, hload]; rfl), esRead_sound hecc hfirst]
    rfl
  obtain ⟨hregs, hrest⟩ := Act.Only.frame (l := [Reg.ENG.LOAD_CYC p, Reg.ENG.DUMMY_CYC p])
    (a := .all [readOver p, .bump (Reg.ENG.LOAD_CYC p) 128, .bump (Reg.ENG.DUMMY_CYC p) n, .eng p (loadedEng s p)]) (by simp [readOver]) s
  have hall : (Act.all [readOver p, .bump (Reg.ENG.LOAD_CYC p) 128, .bump (Reg.ENG.DUMMY_CYC p) n, .eng p (loadedEng s p)]).run s = t := hrun.symm
  rw [hall] at hregs hrest
  have htw (r : RegRef) : t.rd r = w.rd r := by rw [hrun]; rfl
  have hwe : w.hw.eng = u.hw.eng := Act.Only.hw (p := .stores [Reg.ENG.LOAD_CYC p, Reg.ENG.DUMMY_CYC p])
    (a := .seq (.bump (Reg.ENG.LOAD_CYC p) 128) (.bump (Reg.ENG.DUMMY_CYC p) n)) (by simp) (·.eng) (fun _ h => h.elim) u
  refine ⟨?_, fun h => ?_, fun h => ?_, hregs, hrest⟩
  · rw [hrun]
    rw [eng_run_eng (by rw [hwe]; exact readOver_length p hp)]
    rfl
  · rw [htw, rd_bump_off (show 0x06C % 4096 ≠ 0x068 % 4096 by decide)]
    exact counts_bump (s := u) hs (mask_engCounts p).2.2.1 128 h
  · have hv : v.rd (Reg.ENG.DUMMY_CYC p) = s.rd (Reg.ENG.DUMMY_CYC p) := rd_bump_off (s := u) (show 0x068 % 4096 ≠ 0x06C % 4096 by decide)
    rw [htw, ← hv]
    exact counts_bump (s := v) (rise_run (.bump (Reg.ENG.LOAD_CYC p) 128) (s := u) hs) (mask_engCounts p).2.1 n (by rw [hv]; exact h)

/-! ### The ramp (R135) -/

theorem rampUp_effect {s : State} {p : Nat} (hcmd : (s.eng p).cmd.isSome = true) (hup : (s.eng p).dummyUp = true) (hp : p < s.hw.eng.length) :
    let t := (dummyRampAct p).run s
    (t.eng p).dummy = min (s.dummyLevel p) ((s.eng p).dummy + 1) ∧ SameRegs [] s t ∧ SameRest s t := by
  intro t
  let f : EngSt → EngSt := fun x => { x with dummy := min (s.dummyLevel p) (x.dummy + 1), dummyUp := decide (x.dummy + 1 < s.dummyLevel p) }
  have hrun : t = (Act.eng p f).run s := by
    simp only [t, dummyRampAct, run_get, hcmd, if_true]
    rw [run_when, if_pos hup]
  rw [hrun]
  exact ⟨congrArg EngSt.dummy (eng_run_eng hp f), Act.Only.frame (l := []) (a := Act.eng p f) trivial s⟩

/-- One step down, the slots since the last step counted. -/
def rampDown (s : State) (p n : Nat) : Act := .seq (.bump (Reg.ENG.DUMMY_CYC p) (dummySlots n (s.eng p).dummy 1))
  (.eng p fun x => { x with dummy := x.dummy - 1, rampAt := some s.now })

theorem rampDown_effect {s : State} {p : Nat} (n : Nat) (hp : p < s.hw.eng.length) :
    let t := (rampDown s p n).run s
    (t.eng p).dummy = (s.eng p).dummy - 1 ∧ SameRegs [Reg.ENG.DUMMY_CYC p] s t ∧ SameRest s t := by
  intro t
  let f : EngSt → EngSt := fun x => { x with dummy := x.dummy - 1, rampAt := some s.now }
  let u := (Act.bump (Reg.ENG.DUMMY_CYC p) (dummySlots n (s.eng p).dummy 1)).run s
  have hue : u.hw.eng = s.hw.eng := Act.Only.hw (p := .stores [Reg.ENG.DUMMY_CYC p]) (by simp) (·.eng) (fun _ h => h.elim) s
  have he : t.eng p = f (u.eng p) := eng_run_eng (s := u) (by rw [hue]; exact hp) f
  refine ⟨?_, Act.Only.frame (l := [Reg.ENG.DUMMY_CYC p]) (by simp [rampDown]) s⟩
  rw [he, State.eng, hue]
  rfl

theorem rampDown_run {s : State} {p : Nat} (hcmd : (s.eng p).cmd = none)
    (hdue : ((s.eng p).rampAt = none ∧ cyclesNs (s.fld (Reg.ENG.DUMMY p) 15 4) (s.engClock p) < s.now - (s.eng p).idleSince) ∨
      (∃ t0, (s.eng p).rampAt = some t0 ∧ t0 + cyclesNs (s.fld (Reg.ENG.DUMMY p) 23 16) (s.engClock p) ≤ s.now)) :
    ∃ n, (dummyRampAct p).run s = (rampDown s p n).run s := by
  simp only [dummyRampAct, run_get, hcmd, Option.isSome_none, Bool.false_eq_true, if_false]
  rcases hdue with ⟨hn, hgap⟩ | ⟨t0, ht, hstep⟩
  · refine ⟨s.fld (Reg.ENG.DUMMY p) 15 4, ?_⟩
    rw [hn]
    dsimp only
    rw [run_when, if_pos (decide_eq_true hgap)]
    rfl
  · refine ⟨s.fld (Reg.ENG.DUMMY p) 23 16, ?_⟩
    rw [ht]
    dsimp only
    rw [run_when, if_pos (decide_eq_true hstep)]
    rfl

/-! ### A part of one engine's own state -/

/-- The part `π` of engine `p`'s own state stays, and so does the number of engines. -/
def Scope.engPart {α : Type} (π : EngSt → α) (p : Nat) : Scope :=
  { reg := fun _ => True
    hw := fun f => ∀ h : Hw, (f h).eng.length = h.eng.length ∧ π ((f h).eng.getD p {}) = π (h.eng.getD p {}) }

section
variable {α : Type} {π : EngSt → α} {p : Nat}

theorem engPart_eng (q : Nat) {f : EngSt → EngSt} (hf : ∀ x, π (f x) = π x) : (Act.eng q f).Only (.engPart π p) := fun h => by
  refine ⟨length_updAt _ _ _, ?_⟩
  show π ((updAt f q h.eng).getD p {}) = _
  rcases eq_or_ne p q with rfl | hne
  · rw [getD_updAt]
    split
    case isTrue => exact hf _
    case isFalse hp => rw [List.getD_eq_default _ _ (not_lt.1 hp)]
  · rw [getD_updAt_ne _ _ hne]

theorem engPart_event (e : Event) : (Act.event e).Only (.engPart π p) := fun _ => ⟨rfl, rfl⟩
theorem engPart_setEngState (q v : Nat) : (setEngState q v).Only (.engPart π p) := (only_setFld _ _ _ _).2 trivial
theorem engPart_bump (r : RegRef) (n : Nat) : (Act.bump r n).Only (.engPart π p) := (only_bump _ _).2 trivial

variable {a : Act} (h : a.Only (.engPart π p))
include h
theorem Act.Only.engPart (s : State) : π ((a.run s).eng p) = π (s.eng p) := h.hw (fun h => π (h.eng.getD p {})) (fun _ hf h => (hf h).2) s
theorem Act.Only.engPart_length (s : State) : (a.run s).hw.eng.length = s.hw.eng.length := h.hw (fun h => h.eng.length) (fun _ hf h => (hf h).1) s
end

/-! ### Rows (R124, R137, R140) -/

/-- The registers that a row's passing or failing may write. -/
def rowRegs (p : Nat) : List RegRef := [Reg.ENG.CHK_ROW p, Reg.ENG.CHK_PERM p, Reg.ENG.ENG_STATE p, Reg.ENG.DUMMY_CYC p]

/-- What a row's checks leave in the engine: rows accepted, rows held, changes met. -/
def EngSt.rowPart (x : EngSt) : Nat × List (Nat × Nat) × List (Nat × Nat × Int) := (x.rows, x.fails, x.acc)

theorem rowPart_report (p q : Nat) : (report q).Only (.engPart EngSt.rowPart p) := by
  refine (only_get _).2 fun s => ?_
  split
  · exact (only_when _ _).2 fun _ => engPart_event _
  · trivial

theorem engPart_mismatch {α : Type} {π : EngSt → α} (p q : Nat) : (mismatch q).Only (.engPart π p) := by
  refine (only_get _).2 fun s => ?_
  split
  · exact (only_when _ _).2 fun _ => engPart_event _
  · trivial

theorem only_report (p : Nat) {l : List RegRef} : (report p).Only (.regs l) := by
  refine (only_get _).2 fun s => ?_
  split
  · exact (only_when _ _).2 fun _ => trivial
  · trivial

theorem only_mismatch (p : Nat) {l : List RegRef} : (mismatch p).Only (.regs l) := by
  refine (only_get _).2 fun s => ?_
  split
  · exact (only_when _ _).2 fun _ => trivial
  · trivial

/-- What a row that has passed records before the engine's own state moves on. -/
def rowNoted (s : State) (p row : Nat) : Act :=
  let n := (s.eng p).fails.find? fun f => f.1 == row
  .seq (.when (n == some (row, 1)) (.seq (.bump (Reg.ENG.CHK_ROW p) 1) (mismatch p)))
    (.when (match n with
      | some (_, k) => k != 0
      | none => false) (corrected p))

/-- A row accepted. -/
def rowTaken (row : Nat) (l : List Delta) (e : EngSt) : EngSt :=
  { e with fails := e.fails.filter fun f => f.1 != row, rows := e.rows + 1, acc := e.acc ++ l }

theorem rowPass_run (s : State) (p row : Nat) (l : List Delta) :
    (rowPass p row l).run s = (endRecovery p).run ((Act.eng p (rowTaken row l)).run ((rowNoted s p row).run s)) := rfl

theorem rowPart_rowNoted (s : State) (p row : Nat) : (rowNoted s p row).Only (.engPart EngSt.rowPart p) :=
  ⟨(only_when _ _).2 fun _ => ⟨engPart_bump _ _, engPart_mismatch _ _⟩, (only_when _ _).2 fun _ => (only_get _).2 fun _ => engPart_eng _ fun _ => rfl⟩

theorem rowPart_endRecovery (p : Nat) : (endRecovery p).Only (.engPart EngSt.rowPart p) :=
  (only_get _).2 fun _ => (only_when _ _).2 fun _ => ⟨engPart_eng _ fun _ => rfl, (only_when _ _).2 fun _ => engPart_setEngState _ _⟩

theorem only_rowPass (p row : Nat) (l : List Delta) : (rowPass p row l).Only (.regs (rowRegs p)) :=
  (only_get _).2 fun _ => ⟨(only_when _ _).2 fun _ => ⟨(only_bump _ _).2 (by simp [rowRegs]), only_mismatch _⟩, (only_when _ _).2 fun _ => (only_get _).2 fun _ => trivial,
    trivial, (only_get _).2 fun _ => (only_when _ _).2 fun _ => ⟨trivial, (only_when _ _).2 fun _ => (only_setFld _ _ _ _).2 (by simp [rowRegs])⟩, trivial⟩

theorem rowPass_effect {s : State} {p : Nat} (row : Nat) (l : List Delta) (hp : p < s.hw.eng.length) :
    EngSt.rowPart (((rowPass p row l).run s).eng p) = ((s.eng p).rows + 1, (s.eng p).fails.filter (fun f => f.1 != row), (s.eng p).acc ++ l) := by
  have hnoted := rowPart_rowNoted s p row
  have hu : EngSt.rowPart (((rowNoted s p row).run s).eng p) = (s.eng p).rowPart := hnoted.engPart s
  rw [rowPass_run, (rowPart_endRecovery p).engPart, eng_run_eng (by rw [hnoted.engPart_length]; exact hp)]
  obtain ⟨h1, h2⟩ := Prod.mk.inj hu
  obtain ⟨h2, h3⟩ := Prod.mk.inj h2
  exact congrArg₂ Prod.mk (by rw [rowTaken, h1]) (congrArg₂ Prod.mk (by rw [rowTaken, h2]) (by rw [rowTaken, h3]))

/-- How often row `row` has failed before. -/
def EngSt.failed (x : EngSt) (row : Nat) : Nat := match x.fails.find? fun f => f.1 == row with
  | some (_, k) => k
  | none => 0

/-- What a failure leaves in the engine's own state (R140). -/
def rowFailed (now row n : Nat) (e : EngSt) : EngSt :=
  { e with fails := (e.fails.filter fun f => f.1 != row) ++ [(row, min 3 (n + 1))], recFrom := some (e.recFrom.getD now),
           loaded := if n = 1 then false else e.loaded, diag := if n = 2 then 1 else e.diag }

/-- What follows a first, second or third failure. -/
def failRest (s : State) (p n : Nat) (ld : Load) : Act := .seq
  (.when (n == 1) (.all
    [setEngState p eRECOVER, .bump (Reg.ENG.DUMMY_CYC p) (dummySlots 260 (s.dummyLevel p) ld.c),
     .eng p fun e => { e with flight := min (ld.rows - (e.rows + e.fails.length)) (ceilDiv 260 (max 1 ld.c)) }]))
  (.when (n == 2) (.seq (.bump (Reg.ENG.CHK_PERM p) 1) (setEngState p eDIAG)))

theorem rowFail_run (s : State) (p row : Nat) (ld : Load) : (rowFail p row ld).run s =
    (failRest s p ((s.eng p).failed row) ld).run ((Act.eng p (rowFailed s.now row ((s.eng p).failed row))).run ((report p).run s)) := rfl

/-- The engine's rows, held rows, load and diagnostic. -/
def EngSt.failPart (x : EngSt) : Nat × List (Nat × Nat) × Bool × Nat := (x.rows, x.fails, x.loaded, x.diag)

theorem failPart_report (p q : Nat) : (report q).Only (.engPart EngSt.failPart p) := by
  refine (only_get _).2 fun s => ?_
  split
  · exact (only_when _ _).2 fun _ => engPart_event _
  · trivial

theorem failPart_failRest (s : State) (p n : Nat) (ld : Load) : (failRest s p n ld).Only (.engPart EngSt.failPart p) :=
  ⟨(only_when _ _).2 fun _ => ⟨engPart_setEngState _ _, engPart_bump _ _, engPart_eng _ fun _ => rfl, trivial⟩,
    (only_when _ _).2 fun _ => ⟨engPart_bump _ _, engPart_setEngState _ _⟩⟩

theorem only_failRest (s : State) (p n : Nat) (ld : Load) : (failRest s p n ld).Only (.regs (rowRegs p)) :=
  ⟨(only_when _ _).2 fun _ => ⟨(only_setFld _ _ _ _).2 (by simp [rowRegs]), (only_bump _ _).2 (by simp [rowRegs]), trivial, trivial⟩,
    (only_when _ _).2 fun _ => ⟨(only_bump _ _).2 (by simp [rowRegs]), (only_setFld _ _ _ _).2 (by simp [rowRegs])⟩⟩

theorem only_rowFail (p row : Nat) (ld : Load) : (rowFail p row ld).Only (.regs (rowRegs p)) :=
  (only_get _).2 fun s => ⟨only_report _, trivial, (only_failRest s p _ ld).1, (only_failRest s p _ ld).2, trivial⟩

theorem rowFail_part {s : State} {p : Nat} (row : Nat) (ld : Load) (hp : p < s.hw.eng.length) :
    EngSt.failPart (((rowFail p row ld).run s).eng p) = (rowFailed s.now row ((s.eng p).failed row) (s.eng p)).failPart := by
  have hrep := failPart_report p p
  have hu : EngSt.failPart (((report p).run s).eng p) = (s.eng p).failPart := hrep.engPart s
  rw [rowFail_run, (failPart_failRest s p _ ld).engPart, eng_run_eng (by rw [hrep.engPart_length]; exact hp)]
  obtain ⟨h1, h2⟩ := Prod.mk.inj hu
  obtain ⟨h2, h3⟩ := Prod.mk.inj h2
  obtain ⟨h3, h4⟩ := Prod.mk.inj h3
  exact congrArg₂ Prod.mk (by rw [rowFailed, rowFailed, h1]) (congrArg₂ Prod.mk (by rw [rowFailed, rowFailed, h2])
    (congrArg₂ Prod.mk (by rw [rowFailed, rowFailed, h3]) (by rw [rowFailed, rowFailed, h4])))

/-- A second failure: issue stops, the engine recovers. -/
theorem rowFail_second {s : State} (hs : keysRise s.regs) (p : Fin 36) (row : Nat) (ld : Load) (hn : (s.eng p).failed row = 1) :
    ((rowFail p row ld).run s).engState p = eRECOVER := by
  let u := (Act.eng p (rowFailed s.now row 1)).run ((report p).run s)
  let v := (setEngState p eRECOVER).run u
  let last : Act := .all [.bump (Reg.ENG.DUMMY_CYC p) (dummySlots 260 (s.dummyLevel p) ld.c),
    .eng p fun e => { e with flight := min (ld.rows - (e.rows + e.fails.length)) (ceilDiv 260 (max 1 ld.c)) }]
  have hu : keysRise u.regs := rise_run (.eng p (rowFailed s.now row 1)) (rise_run (report p) hs)
  have hrun : (rowFail p row ld).run s = last.run v := by
    rw [rowFail_run, hn]
    rfl
  have hlast : last.Only (.regs [Reg.ENG.DUMMY_CYC p]) := ⟨(only_bump _ _).2 (by simp), trivial, trivial⟩
  rw [hrun, State.engState, State.fld, hlast.rd (fun h => h) (fun r hr => by
    obtain rfl : r = Reg.ENG.DUMMY_CYC p := by simpa using hr
    exact key_ne_of_off (show 0x06C % 4096 ≠ 0x044 % 4096 by decide))]
  exact engState_setEngState hu p (by decide)

/-- A third failure: the diagnostic begins, a permanent fault is counted. -/
theorem rowFail_third {s : State} (hs : keysRise s.regs) (p : Fin 36) (row : Nat) (ld : Load) (hn : (s.eng p).failed row = 2) :
    ((rowFail p row ld).run s).engState p = eDIAG ∧ Counts (Reg.ENG.CHK_PERM p) 1 s ((rowFail p row ld).run s) := by
  let first : Act := .seq (report p) (.eng p (rowFailed s.now row 2))
  let u := first.run s
  let v := (Act.bump (Reg.ENG.CHK_PERM p) 1).run u
  have hu : keysRise u.regs := rise_run first hs
  have hrun : (rowFail p row ld).run s = (setEngState p eDIAG).run v := by
    rw [rowFail_run, hn]
    rfl
  have hfirst : first.Only (.regs []) := ⟨only_report _, trivial⟩
  have hb : u.rd (Reg.ENG.CHK_PERM p) = s.rd (Reg.ENG.CHK_PERM p) := hfirst.rd (fun h => h) (fun r hr => by simp at hr) s
  refine ⟨by rw [hrun]; exact engState_setEngState (rise_run _ hu) p (by decide), fun h => ?_⟩
  have hset : ((setEngState p eDIAG).run v).rd (Reg.ENG.CHK_PERM p) = v.rd (Reg.ENG.CHK_PERM p) :=
    rd_setReg_off (r := Reg.ENG.ENG_STATE p) (show 0x044 % 4096 ≠ 0x058 % 4096 by decide)
  rw [hrun, hset, ← hb]
  exact counts_bump hu (mask_engCounts p).2.2.2.2.2.2 1 (by rw [hb]; exact h)

/-- A row counted as issued: while the array drains, one fewer is in flight. -/
def rowIssued (held : Bool) (e x : EngSt) : EngSt := { x with
  injRow := x.injRow && !false, injPair := x.injPair && !false && !false, pairNext := false && e.injPair,
  flight := if held then x.flight else x.flight - 1 }

/-- The check of one row with no injection (R137, R140). -/
def rowBody (s : State) (p row : Nat) (alt : CheckAlt) (ld : Load) : Act := .all
  [.bump64 (Reg.ENG.ISSUE_CYC_LO p) (Reg.ENG.ISSUE_CYC_HI p) 1,
   .eng p (rowIssued ((s.eng p).fails.any fun f => f.1 == row) (s.eng p)),
   if rowMismatch (ld.c == 4) alt.big ld.shape (altDeltas alt (s.deadCol p)) (altChecks alt) then rowFail p row ld
   else rowPass p row (altDeltas alt (s.deadCol p) ++ altChecks alt)]

/-- What a read of the store before a row's check leaves: a row held is re-issued without one. -/
def rowRead (s : State) (p row : Nat) : Act := if (s.eng p).fails.any fun f => f.1 == row then .nil else readOver p

theorem rowCheck_run {s : State} {p row : Nat} {rd : StoreRead} {alt : CheckAlt} {ld : Load} (hld : s.curLoad p = some ld) (hdue : s.rowDue p row ld = true)
    (hrow : (s.eng p).injRow = false) (hpair : (s.eng p).injPair = false) (hnext : (s.eng p).pairNext = false) (hecc : rd.ecc = .none)
    (hfirst : (s.eng p).firstRead = false ∨ (s.eng p).injEs = 0) :
    (rowCheckAct p row rd alt).run s = (rowBody s p row alt ld).run ((rowRead s p row).run s) := by
  rw [rowCheckAct, run_get, hld]
  dsimp only
  rw [run_when, if_pos hdue]
  simp only [hrow, hpair, hnext, Bool.false_and, Bool.or_false, Bool.and_false, if_false, List.append_nil, Bool.false_eq_true]
  cases hheld : (s.eng p).fails.any fun f => f.1 == row with
  | true =>
    simp only [rowBody, rowRead, hheld, if_true]
    rfl
  | false =>
    simp only [Bool.false_eq_true, if_false]
    rw [esRead_sound hecc hfirst]
    simp only [rowBody, rowRead, hheld, Bool.false_eq_true, if_false]
    rfl

/-- What precedes the outcome of a row's check. -/
def rowBefore (s : State) (p row : Nat) : Act := .all
  [rowRead s p row, .bump64 (Reg.ENG.ISSUE_CYC_LO p) (Reg.ENG.ISSUE_CYC_HI p) 1,
   .eng p (rowIssued ((s.eng p).fails.any fun f => f.1 == row) (s.eng p))]

/-- The outcome of a row's check. -/
def rowAfter (s : State) (p row : Nat) (alt : CheckAlt) (ld : Load) : Act :=
  if rowMismatch (ld.c == 4) alt.big ld.shape (altDeltas alt (s.deadCol p)) (altChecks alt) then rowFail p row ld
  else rowPass p row (altDeltas alt (s.deadCol p) ++ altChecks alt)

theorem rowBody_run (s : State) (p row : Nat) (alt : CheckAlt) (ld : Load) :
    (rowBody s p row alt ld).run ((rowRead s p row).run s) = (rowAfter s p row alt ld).run ((rowBefore s p row).run s) := rfl

theorem engPart_rowBefore {α : Type} {π : EngSt → α} (s : State) (p row : Nat) (h1 : ∀ x : EngSt, π { x with firstRead := false, injEs := 0 } = π x)
    (h2 : ∀ (held : Bool) (e x : EngSt), π (rowIssued held e x) = π x) : (rowBefore s p row).Only (.engPart π p) := by
  refine ⟨?_, (only_bump64 _ _ _).2 ⟨trivial, trivial⟩, engPart_eng _ (h2 _ _), trivial⟩
  rw [rowRead]
  split
  · trivial
  · exact engPart_eng _ h1

theorem only_rowBefore (s : State) (p row : Nat) : (rowBefore s p row).Only (.regs [Reg.ENG.ISSUE_CYC_LO p, Reg.ENG.ISSUE_CYC_HI p]) := by
  refine ⟨?_, (only_bump64 _ _ _).2 ⟨by simp, by simp⟩, trivial, trivial⟩
  rw [rowRead]
  split <;> trivial

theorem only_rowAfter (s : State) (p row : Nat) (alt : CheckAlt) (ld : Load) : (rowAfter s p row alt ld).Only (.regs (rowRegs p)) :=
  (only_ite _ _ _).2 ⟨fun _ => only_rowFail _ _ _, fun _ => only_rowPass _ _ _⟩

theorem rowIssue_counts {s : State} (hs : keysRise s.regs) (p : Fin 36) (row : Nat) (alt : CheckAlt) (ld : Load) :
    ((rowAfter s p row alt ld).run ((rowBefore s p row).run s)).rd64 (Reg.ENG.ISSUE_CYC_LO p) (Reg.ENG.ISSUE_CYC_HI p) =
      (s.rd64 (Reg.ENG.ISSUE_CYC_LO p) (Reg.ENG.ISSUE_CYC_HI p) + 1) % 2 ^ 64 := by
  let u := (rowRead s p row).run s
  have hu (r : RegRef) : u.rd r = s.rd r := by
    simp only [u, rowRead]
    split <;> rfl
  have huk : keysRise u.regs := rise_run _ hs
  have hafter {off : Nat} (h : off = 0x060 ∨ off = 0x064) (v : State) : ((rowAfter s p row alt ld).run v).rd ⟨.ENG, p, off⟩ = v.rd ⟨.ENG, p, off⟩ := by
    refine (only_rowAfter s p row alt ld).rd (fun h => h) (fun r hr => ?_) v
    simp only [Scope.regs, rowRegs, List.mem_cons, List.not_mem_nil, or_false] at hr
    rcases hr with rfl | rfl | rfl | rfl <;> refine key_ne_of_off ?_ <;> dsimp only <;> omega
  obtain ⟨-, -, -, hlo, hhi, -⟩ := mask_engCounts p
  rw [State.rd64, hafter (.inl rfl), hafter (.inr rfl), ← State.rd64]
  refine (rd64_bump64 huk hlo hhi (key_ne_of_off (show 0x064 % 4096 ≠ 0x060 % 4096 by decide)) 1).trans ?_
  rw [State.rd64, hu, hu, State.rd64]

section
variable {s : State} {p row : Nat} {alt : CheckAlt} {ld : Load} (hp : p < s.hw.eng.length)

theorem rowBefore_row : EngSt.rowPart (((rowBefore s p row).run s).eng p) = (s.eng p).rowPart :=
  (engPart_rowBefore s p row (fun _ => rfl) fun _ _ _ => rfl).engPart s

theorem rowBefore_fail : EngSt.failPart (((rowBefore s p row).run s).eng p) = (s.eng p).failPart :=
  (engPart_rowBefore s p row (fun _ => rfl) fun _ _ _ => rfl).engPart s

theorem rowBefore_length : ((rowBefore s p row).run s).hw.eng.length = s.hw.eng.length :=
  (engPart_rowBefore (π := EngSt.rowPart) s p row (fun _ => rfl) fun _ _ _ => rfl).engPart_length s

include hp

theorem rowAfter_pass (hmiss : rowMismatch (ld.c == 4) alt.big ld.shape (altDeltas alt (s.deadCol p)) (altChecks alt) = false) :
    let t := (rowAfter s p row alt ld).run ((rowBefore s p row).run s)
    (t.eng p).rows = (s.eng p).rows + 1 ∧ (∀ f ∈ (t.eng p).fails, f.1 ≠ row) ∧
      (t.eng p).acc = (s.eng p).acc ++ (altDeltas alt (s.deadCol p) ++ altChecks alt) := by
  intro t
  have hrun : t = (rowPass p row (altDeltas alt (s.deadCol p) ++ altChecks alt)).run ((rowBefore s p row).run s) := by
    simp only [t, rowAfter, hmiss, Bool.false_eq_true, if_false]
  have h := rowPass_effect (s := (rowBefore s p row).run s) row (altDeltas alt (s.deadCol p) ++ altChecks alt) (by rw [rowBefore_length]; exact hp)
  rw [← hrun] at h
  obtain ⟨b1, b2⟩ := Prod.mk.inj (rowBefore_row (s := s) (p := p) (row := row))
  obtain ⟨b2, b3⟩ := Prod.mk.inj b2
  rw [b1, b2, b3] at h
  obtain ⟨h1, h2⟩ := Prod.mk.inj h
  obtain ⟨h2, h3⟩ := Prod.mk.inj h2
  refine ⟨h1, fun f hf => ?_, h3⟩
  rw [h2] at hf
  simpa using (List.mem_filter.1 hf).2

theorem rowAfter_fail (hmiss : rowMismatch (ld.c == 4) alt.big ld.shape (altDeltas alt (s.deadCol p)) (altChecks alt) = true) :
    EngSt.failPart (((rowAfter s p row alt ld).run ((rowBefore s p row).run s)).eng p) = (rowFailed s.now row ((s.eng p).failed row) (s.eng p)).failPart := by
  have hrun : (rowAfter s p row alt ld).run ((rowBefore s p row).run s) = (rowFail p row ld).run ((rowBefore s p row).run s) := by
    simp only [rowAfter, hmiss, if_true]
  obtain ⟨b1, b2⟩ := Prod.mk.inj (rowBefore_fail (s := s) (p := p) (row := row))
  obtain ⟨b2, b3⟩ := Prod.mk.inj b2
  obtain ⟨b3, b4⟩ := Prod.mk.inj b3
  have hfailed : (((rowBefore s p row).run s).eng p).failed row = (s.eng p).failed row := by rw [EngSt.failed, b2, EngSt.failed]
  rw [hrun, rowFail_part row ld (by rw [rowBefore_length]; exact hp), hfailed]
  simp only [EngSt.failPart, rowFailed, b1, b2, b3, b4]

end

theorem failed_none {x : EngSt} {row : Nat} (h : ∀ f ∈ x.fails, f.1 ≠ row) : x.failed row = 0 := by
  have hn : (x.fails.find? fun f => f.1 == row) = none := List.find?_eq_none.2 fun f hf => by simpa using h f hf
  rw [EngSt.failed, hn]

theorem failed_some {x : EngSt} {row k : Nat} (h : (x.fails.find? fun f => f.1 == row) = some (row, k)) : x.failed row = k := by
  rw [EngSt.failed, h]

/-- A single changed sum of a logical column is a mismatch in an exact format (R138). -/
theorem rowMismatch_single {f g l sh : Nat} {b : Fin 4} {j : Fin 130} {d : Int} (hlog : logIndex f j = some l) (hl : l < 128) (hd : d ≠ 0) :
    rowMismatch false 0 sh (altDeltas { sums := [(g, b, j, d)] } f) (altChecks { sums := [(g, b, j, d)] }) = true := by
  have hsums : altDeltas { sums := [(g, b, j, d)] } f = [(g, 128 * b.val + l, d)] := by
    simp [altDeltas, hlog, hl]
  have hchecks : altChecks { sums := [(g, b, j, d)] } = [] := rfl
  rw [hsums, hchecks]
  simp [rowMismatch, rowDiff, deltaSum, differs, hd]

/-- Everything a row's check leaves (R124, R137, R140). -/
theorem rowAfter_effect {s : State} (hs : keysRise s.regs) (p : Fin 36) (row : Nat) (alt : CheckAlt) (ld : Load) (hp : p.val < s.hw.eng.length) :
    let sums := altDeltas alt (s.deadCol p)
    let miss := rowMismatch (ld.c == 4) alt.big ld.shape sums (altChecks alt)
    let t := (rowAfter s p row alt ld).run ((rowBefore s p row).run s)
    (miss = true → (∀ f ∈ (s.eng p).fails, f.1 ≠ row) → (row, 1) ∈ (t.eng p).fails ∧ (t.eng p).rows = (s.eng p).rows) ∧
      (miss = true → ((s.eng p).fails.find? fun f => f.1 == row) = some (row, 1) →
        (row, 2) ∈ (t.eng p).fails ∧ (t.eng p).loaded = false ∧ t.engState p = eRECOVER) ∧
      (miss = true → ((s.eng p).fails.find? fun f => f.1 == row) = some (row, 2) →
        (t.eng p).diag = 1 ∧ t.engState p = eDIAG ∧ Counts (Reg.ENG.CHK_PERM p) 1 s t) := by
  intro sums miss t
  let v := (rowBefore s p row).run s
  have hv : keysRise v.regs := rise_run _ hs
  have hpart (hmiss : miss = true) {n : Nat} (hn : (s.eng p).failed row = n) :
      (t.eng p).rows = (s.eng p).rows ∧ (row, min 3 (n + 1)) ∈ (t.eng p).fails ∧ (n = 1 → (t.eng p).loaded = false) ∧ (n = 2 → (t.eng p).diag = 1) := by
    have h := rowAfter_fail (row := row) hp hmiss
    rw [hn] at h
    obtain ⟨h1, h2⟩ := Prod.mk.inj h
    obtain ⟨h2, h3⟩ := Prod.mk.inj h2
    obtain ⟨h3, h4⟩ := Prod.mk.inj h3
    refine ⟨h1, ?_, fun e => h3.trans (if_pos e), fun e => h4.trans (if_pos e)⟩
    rw [h2]
    exact List.mem_append_right _ (List.mem_singleton.2 rfl)
  have hfailed : (v.eng p).failed row = (s.eng p).failed row := by
    obtain ⟨-, b2⟩ := Prod.mk.inj (rowBefore_fail (s := s) (p := p) (row := row))
    obtain ⟨b2, -⟩ := Prod.mk.inj b2
    rw [EngSt.failed, b2, EngSt.failed]
  have hrun (hmiss : miss = true) : t = (rowFail p row ld).run v := by
    have hm : rowMismatch (ld.c == 4) alt.big ld.shape (altDeltas alt (s.deadCol p)) (altChecks alt) = true := hmiss
    simp only [t, rowAfter, hm, if_true]
    rfl
  refine ⟨fun hmiss hnew => ?_, fun hmiss hfind => ?_, fun hmiss hfind => ?_⟩
  · obtain ⟨h1, h2, -⟩ := hpart hmiss (failed_none hnew)
    exact ⟨h2, h1⟩
  · obtain ⟨-, h2, h3, -⟩ := hpart hmiss (failed_some hfind)
    refine ⟨h2, h3 rfl, ?_⟩
    rw [hrun hmiss]
    exact rowFail_second hv p row ld (hfailed.trans (failed_some hfind))
  · obtain ⟨-, -, -, h4⟩ := hpart hmiss (failed_some hfind)
    obtain ⟨hstate, hcount⟩ := rowFail_third hv p row ld (hfailed.trans (failed_some hfind))
    have hb : v.rd (Reg.ENG.CHK_PERM p) = s.rd (Reg.ENG.CHK_PERM p) := (only_rowBefore s p row).rd (fun h => h) (fun r hr => by
      rcases (by simpa [Scope.regs] using hr : r = Reg.ENG.ISSUE_CYC_LO p ∨ r = Reg.ENG.ISSUE_CYC_HI p) with rfl | rfl
      · exact key_ne_of_off (show 0x060 % 4096 ≠ 0x058 % 4096 by decide)
      · exact key_ne_of_off (show 0x064 % 4096 ≠ 0x058 % 4096 by decide)) s
    refine ⟨h4 rfl, by rw [hrun hmiss]; exact hstate, fun h => ?_⟩
    rw [hrun hmiss, ← hb]
    exact hcount (by rw [hb]; exact h)

/-! ### Tiles (R137, R141) -/

/-- The tile of engine `p` has ended: nothing loaded, no row accepted. -/
def Hw.tileOver (p : Nat) (h : Hw) : Prop := (h.eng.getD p {}).loaded = false ∧ (h.eng.getD p {}).rows = 0

/-- What forms the results after a tile may change: an engine that starts again has nothing loaded either. -/
def Scope.tile (p : Nat) : Scope := { reg := fun r => r.off % 4096 ≠ 0x054, hw := fun f => ∀ h : Hw, h.tileOver p → (f h).tileOver p }

section
variable {p : Nat}

theorem tile_eng (q : Nat) {f : EngSt → EngSt} (h1 : ∀ x, x.loaded = false → (f x).loaded = false) (h2 : ∀ x, x.rows = 0 → (f x).rows = 0) :
    (Act.eng q f).Only (.tile p) := fun h ⟨hl, hr⟩ => by
  show ((updAt f q h.eng).getD p {}).loaded = false ∧ ((updAt f q h.eng).getD p {}).rows = 0
  rcases eq_or_ne p q with rfl | hne
  · rw [getD_updAt]
    split
    · exact ⟨h1 _ hl, h2 _ hr⟩
    · exact ⟨rfl, rfl⟩
  · rw [getD_updAt_ne _ _ hne]
    exact ⟨hl, hr⟩

theorem tile_cmd (id : Nat) (f : Cmd → Cmd) : (Act.cmd id f).Only (.tile p) := fun _ h => h

theorem tile_nextLoad (q : Nat) : (nextLoad q).Only (.tile p) := by
  refine (only_get _).2 fun s => ?_
  split
  · exact tile_eng _ (fun _ h => h) fun _ h => h
  · trivial

theorem tile_startPart (id k q done : Nat) (keep : Bool) : (startPart id k q done keep).Only (.tile p) := by
  have hreg : (Scope.tile p).reg (Reg.ENG.ENG_STATE q) := show 0x044 % 4096 ≠ 0x054 by decide
  have hdummy : (Scope.tile p).reg (Reg.ENG.DUMMY_CYC q) := show 0x06C % 4096 ≠ 0x054 by decide
  exact only_withCmd fun _ _ _ => (only_get _).2 fun _ => ⟨(only_when _ _).2 fun _ => (only_bump _ _).2 hdummy, tile_eng _ (fun _ _ => rfl) fun _ _ => rfl,
    tile_nextLoad _, (only_setFld _ _ _ _).2 hreg, (only_setFld _ _ _ _).2 hreg, tile_cmd _ _, trivial⟩

theorem tile_rerunCmd (id : Nat) : (rerunCmd id).Only (.tile p) :=
  only_withCmd fun _ _ _ => (only_get _).2 fun _ => ⟨tile_cmd _ _, (only_each _ _).2 fun _ _ => tile_startPart _ _ _ _ _, trivial⟩

theorem tile_wideDecision (id : Nat) : (wideDecision id).Only (.tile p) := by
  refine only_withCmd fun _ _ _ => (only_get _).2 fun s => (only_when _ _).2 fun _ => (only_each _ _).2 fun x _ => ?_
  exact (only_ite _ _ _).2 ⟨fun _ => tile_rerunCmd _, fun _ => tile_cmd _ _⟩

theorem tile_computeRun (id : Nat) : (computeRun id).Only (.tile p) := by
  have herr (q : Nat) : (Scope.tile p).reg (Reg.HDR.ERR_STATUS .ENG q) := (by decide : (Reg.HDR.ERR_STATUS .ENG 0).off % 4096 ≠ 0x054)
  have hclip (q : Nat) : (Scope.tile p).reg (Reg.ENG.CLIP_TOTAL q) := show 0x07C % 4096 ≠ 0x054 by decide
  exact only_withCmd fun _ _ _ => (only_fresh _).2 fun _ => (only_get _).2 fun _ => ⟨(only_when _ _).2 fun _ => (only_each _ _).2 fun _ _ =>
    (only_err _ _ _).2 (herr _), tile_cmd _ _, only_withCmd fun _ _ _ => (only_each _ _).2 fun _ _ => (only_satFld _ _ _ _).2 (hclip _),
    tile_wideDecision _, trivial⟩

theorem tile_computeIfDone (id : Nat) : (computeIfDone id).Only (.tile p) :=
  only_withCmd fun _ _ _ => (only_get _).2 fun _ => (only_when _ _).2 fun _ => (only_ite _ _ _).2 ⟨fun _ => tile_computeRun _,
    fun _ => only_withCmd fun _ _ _ => (only_get _).2 fun _ => (only_when _ _).2 fun _ => tile_cmd _ _⟩

theorem Act.Only.tileOver {a : Act} (h : a.Only (.tile p)) {s : State} (hs : s.hw.tileOver p) : (a.run s).hw.tileOver p :=
  run_only (R := fun s t => s.hw.tileOver p → t.hw.tileOver p) (fun _ h => h) (fun h k x => k (h x)) (fun u hu s hs => by
    cases u with
    | hw f => exact hu _ hs
    | bytes a l => exact hu.elim
    | _ => exact hs) h s hs

end

/-- The tile's count, and an empty array for the next (R137). -/
def tileDone (n : Nat) (x : EngSt) : EngSt :=
  { x with done := x.done + n, rows := 0, loaded := false, acc := [], injRow := false, injPair := false }

/-- What follows a tile that has ended. -/
def tileNext (s : State) (p : Nat) : Act := .seq (nextLoad p) (match (s.eng p).cmd with
  | some id => computeIfDone id
  | none => .nil)

section
variable {s : State} {p : Fin 36} {alt : CheckAlt} {ld : Load} (hld : s.curLoad p = some ld) (hact : s.engActive p = true)
  (hload : (s.eng p).loaded = true) (hfails : (s.eng p).fails = []) (hrows : (s.eng p).rows = ld.rows)
include hld hact hload hfails hrows

theorem tileEnd_good_run
    (hmiss : tileMismatch (ld.c == 4) alt.big (s.eng p).acc (altDeltas alt (s.deadCol p) ++ altChecks alt) = false) :
    (tileEndAct p alt).run s = (tileNext s p).run ((Act.eng p (tileDone ld.tiles)).run s) := by
  rw [tileEndAct, run_get, hld]
  dsimp only
  rw [run_when, if_pos (by rw [hact, hload, hfails, hrows]; simp), hmiss]
  rfl

theorem tileEnd_miss_run
    (hmiss : tileMismatch (ld.c == 4) alt.big (s.eng p).acc (altDeltas alt (s.deadCol p) ++ altChecks alt) = true) :
    (tileEndAct p alt).run s = (frogOn p 0x40).run ((Act.all [.bump (Reg.ENG.CHK_TILE p) 1, report p, mismatch p]).run s) := by
  rw [tileEndAct, run_get, hld]
  dsimp only
  rw [run_when, if_pos (by rw [hact, hload, hfails, hrows]; simp), hmiss]
  rfl

end

theorem tileGood_effect {s : State} (p : Fin 36) (n : Nat) (hp : p.val < s.hw.eng.length) :
    let t := (tileNext s p).run ((Act.eng p (tileDone n)).run s)
    (t.eng p).loaded = false ∧ (t.eng p).rows = 0 ∧ t.rd (Reg.ENG.CHK_TILE p) = s.rd (Reg.ENG.CHK_TILE p) ∧ t.mem = s.mem ∧ t.es = s.es ∧ t.tsc = s.tsc := by
  intro t
  let u := (Act.eng p (tileDone n)).run s
  have htile : (tileNext s p).Only (.tile p) := by
    refine ⟨tile_nextLoad _, ?_⟩
    split
    · exact tile_computeIfDone _
    · trivial
  have hu : u.hw.tileOver p := by
    have he : u.eng p = tileDone n (s.eng p) := eng_run_eng hp _
    exact ⟨congrArg EngSt.loaded he, congrArg EngSt.rows he⟩
  obtain ⟨h1, h2⟩ := htile.tileOver hu
  exact ⟨h1, h2, htile.rd (fun h => h) (fun r hr => key_ne_of_off (show r.off % 4096 ≠ (Reg.ENG.CHK_TILE p).off % 4096 from hr)) u, htile.mem (fun h => h) u, htile.es (fun h => h) u, htile.tsc (fun h => h) u⟩

/-- What a tile-end mismatch counts and reports before the command is frogged. -/
def tileMiss (p : Nat) : Act := .all [.bump (Reg.ENG.CHK_TILE p) 1, report p, mismatch p]

theorem tileMiss_work (p : Nat) (s : State) : ((tileMiss p).run s).hw.eng = s.hw.eng ∧ ((tileMiss p).run s).hw.disp = s.hw.disp := by
  have htold (a : Act) (ha : a = report p ∨ a = mismatch p) :
      a.Only { reg := fun _ => True, hw := fun f => ∀ h : Hw, (f h).eng = h.eng ∧ (f h).disp = h.disp } := by
    rcases ha with rfl | rfl
    · refine (only_get _).2 fun s => ?_
      split
      · exact (only_when _ _).2 fun _ _ => ⟨rfl, rfl⟩
      · trivial
    · refine (only_get _).2 fun s => ?_
      split
      · exact (only_when _ _).2 fun _ _ => ⟨rfl, rfl⟩
      · trivial
  have h : (tileMiss p).Only { reg := fun _ => True, hw := fun f => ∀ h : Hw, (f h).eng = h.eng ∧ (f h).disp = h.disp } :=
    ⟨(only_bump _ _).2 trivial, htold _ (.inl rfl), htold _ (.inr rfl), trivial⟩
  exact ⟨h.hw (·.eng) (fun _ hf h => (hf h).1) s, h.hw (·.disp) (fun _ hf h => (hf h).2) s⟩

/-- A command that may be frogged once more, and is no part of a split request, is frogged alone (R436, R444). -/
theorem frogAct_once {s : State} {id : Nat} {c : Cmd} (hc : s.cmd id = some c) (hmax : c.frogsC < s.fld Reg.DISP.FROG_MAX 3 0) (hsplit : c.split = false)
    (detail part : Nat) : (frogAct id detail part).run s = (frogOne id detail part (frogPayer detail) (frogCounts detail)).run s := by
  rw [frogAct, Act.withCmd, run_get, hc]
  dsimp only
  rw [run_get, if_neg (by simp; omega), if_neg (by simp [hsplit])]

theorem frogOne_phase {s : State} (hs : keysRise s.regs) {id : Nat} {c : Cmd} (hc : s.cmd id = some c) (detail part : Nat) (who : Payer) (counts : Bool) :
    (((frogOne id detail part who counts).run s).cmd id).map (·.phase) = some .ready := by
  let pre : Act := .all [chargeRun c who, releaseAll c, catchUp c.ctx]
  have hrun : (frogOne id detail part who counts).run s = (Act.bump Reg.DISP.FROG_CNT 1).run ((Act.cmd id (frogReset s.now detail part counts)).run (pre.run s)) := by
    rw [frogOne, Act.withCmd, run_get, hc]
    dsimp only
    rw [run_get]
    exact run_all_last _ _ _ _ _ s
  have hrel : (releaseAll c).Keeps (State.cmdPart (fun _ => ()) id) := by
    refine .get fun u => .cons (Act.Only.keeps_cmdPart stay_accrue) (.cons ?_ (.cons (.each fun q _ => Act.Only.keeps_cmdPart (stay_releaseEng q))
      (.cons (Act.Only.keeps_cmdPart (stay_releaseBlocks _)) keeps_all_nil)))
    refine .get fun u => ?_
    split
    · exact .seq (Act.Only.keeps_cmdPart fun _ => rfl) (keeps_cmdPart_cmd _ (fun _ => rfl) fun _ => rfl)
    · exact keeps_nil
  have hpre : pre.Keeps (State.cmdPart (fun _ => ()) id) :=
    .cons (.get fun _ => keeps_part_charge (fun _ _ => rfl) _ _ _) (.cons hrel (.cons (Act.Only.keeps_cmdPart (stay_catchUp _)) keeps_all_nil))
  obtain ⟨c', hc', -⟩ := cmd_of_keeps hpre hs hc
  have hset : ((Act.cmd id (frogReset s.now detail part counts)).run (pre.run s)).cmd id = some (frogReset s.now detail part counts c') :=
    cmd_run_cmd_same hc' fun _ => rfl
  have hdisp (v : State) : ((Act.bump Reg.DISP.FROG_CNT 1).run v).hw.disp = v.hw.disp :=
    Act.Only.hw (p := .stores [Reg.DISP.FROG_CNT]) (by simp) (·.disp) (fun _ h => h.elim) v
  rw [hrun, State.cmd, hdisp, ← State.cmd, hset]
  rfl

theorem tileMiss_effect {s : State} (hs : keysRise s.regs) (p : Fin 36) {id : Nat} {c : Cmd} (hcmd : (s.eng p).cmd = some id) (hc : s.cmd id = some c)
    (hmax : c.frogsC < s.fld Reg.DISP.FROG_MAX 3 0) (hsplit : c.split = false) :
    let t := (frogOn p 0x40).run ((tileMiss p).run s)
    Counts (Reg.ENG.CHK_TILE p) 1 s t ∧ Counts Reg.DISP.FROG_CNT 1 s t ∧ (t.cmd id).map (·.phase) = some .ready ∧
      t.mem = s.mem ∧ t.es = s.es ∧ t.tsc = s.tsc := by
  intro t
  let u := (tileMiss p).run s
  have hu : keysRise u.regs := rise_run _ hs
  have honly : (tileMiss p).Only (.regs [Reg.ENG.CHK_TILE p]) := ⟨(only_bump _ _).2 (by simp), only_report _, only_mismatch _, trivial⟩
  obtain ⟨hregs, hrest⟩ := honly.frame s
  obtain ⟨heng, hdisp⟩ := tileMiss_work p s
  have huc : u.cmd id = some c := by rw [State.cmd, hdisp]; exact hc
  have hon : u.runningOn p = some c := by
    rw [State.runningOn, State.eng, heng, ← State.eng, hcmd]
    exact huc
  have hfld : u.fld Reg.DISP.FROG_MAX 3 0 = s.fld Reg.DISP.FROG_MAX 3 0 :=
    congrArg (bits · 3 0) (honly.rd (fun h => h) (fun r hr => by
      obtain rfl : r = Reg.ENG.CHK_TILE p := by simpa [Scope.regs] using hr
      simp only [RegRef.key, Blk.slot]; have := p.isLt; omega) s)
  have hrun : ∃ part, t = (frogOne id 0x40 part (frogPayer 0x40) (frogCounts 0x40)).run u := by
    have hid := cmd_id hc
    refine ⟨c.partNo (u.eng p).part, ?_⟩
    have h : t = (frogAct c.id 0x40 (c.partNo (u.eng p).part)).run u := by
      simp only [t, frogOn, run_get]
      rw [show ((tileMiss p).run s).runningOn p = some c from hon]
    rw [h, hid, frogAct_once huc (by rw [hfld]; exact hmax) hsplit]
  obtain ⟨part, hrun⟩ := hrun
  have hfrog := frogged_frogOne id 0x40 part (frogPayer 0x40) (frogCounts 0x40)
  have hkeep {off : Nat} (ho : off < 4096) (hne : off ≠ 0x044) : t.rd ⟨.ENG, p, off⟩ = u.rd ⟨.ENG, p, off⟩ := by
    rw [hrun]
    exact (frogging_frogged hfrog).frogging_eng p.isLt ho hne u
  have hrun' : ∃ pre : Act, pre.Only .freeing ∧ t = (Act.bump Reg.DISP.FROG_CNT 1).run (pre.run u) := by
    rw [hrun]
    exact frogOne_run huc 0x40 part _ _
  obtain ⟨pre, hpre, hrun'⟩ := hrun'
  refine ⟨fun h => ?_, fun h => ?_, ?_, ?_, ?_, ?_⟩
  · rw [hkeep (by decide) (by decide)]
    have htold : (Act.seq (report p) (mismatch p)).Only (.regs []) := ⟨only_report _, only_mismatch _⟩
    have hb : u.rd (Reg.ENG.CHK_TILE p) = ((Act.bump (Reg.ENG.CHK_TILE p) 1).run s).rd (Reg.ENG.CHK_TILE p) :=
      htold.rd (fun h => h) (fun r hr => by simp at hr) _
    rw [hb]
    exact counts_bump hs (mask_engCounts p).2.2.2.2.2.1 1 h
  · have hb : (pre.run u).rd Reg.DISP.FROG_CNT = s.rd Reg.DISP.FROG_CNT := (hpre.freeing_rd (by decide) u).trans (honly.rd (fun h => h) (fun r hr => by
      obtain rfl : r = Reg.ENG.CHK_TILE p := by simpa [Scope.regs] using hr
      simp only [RegRef.key, Blk.slot]; have := p.isLt; omega) s)
    rw [hrun', ← hb]
    exact counts_bump (rise_run _ hu) mask_preemptCounts.2.1 1 (by rw [hb]; exact h)
  · rw [hrun]
    exact frogOne_phase hu huc _ _ _ _
  · rw [hrun]; exact (hfrog.mem (fun h => h) u).trans hrest.mem
  · rw [hrun]; exact (hfrog.es (fun h => h) u).trans hrest.es
  · rw [hrun]; exact (hfrog.tsc (fun h => h) u).trans hrest.tsc

/-- Settles O33: pre-pass, shape and load; the ramp; each outcome of a row's check; and both of a tile's. -/
theorem engineRows : Obligations.EngineRows := by
  unfold Obligations.EngineRows
  refine ⟨fun s p rd hl hact hpre hecc hfirst hp => ?_, fun s p hl hact hto hp => ?_, fun s p rd ld hl hld hact hpre hto hload hecc hfirst hp => ?_,
    fun s p hl hp => ⟨fun hcmd hup => ?_, fun hcmd hdue => ?_⟩, fun s p row rd alt ld hl hld hdue hrow hpair hnext hecc hfirst hp => ?_,
    fun s p alt ld hl hld hact hload hfails hrows hp => ⟨fun hmiss => ?_, fun id c hmiss hcmd hc hmax hsplit => ?_⟩⟩
  · exact ⟨_, command_eq hl.2, prePass_effect hact hpre hecc hfirst hp⟩
  · exact ⟨_, command_eq hl.2, shapeChange_effect hl.1.1.1 p hact hto hp⟩
  · exact ⟨_, command_eq hl.2, loadDone_effect hl.1.1.1 p hld hact hpre hto hload hecc hfirst hp⟩
  · exact ⟨_, command_eq hl.2, rampUp_effect hcmd hup hp⟩
  · obtain ⟨n, hrun⟩ := rampDown_run hcmd hdue
    refine ⟨_, command_eq hl.2, ?_⟩
    rw [hrun]
    exact rampDown_effect n hp
  · refine ⟨_, command_eq hl.2, ?_⟩
    rw [rowCheck_run hld hdue hrow hpair hnext hecc hfirst, rowBody_run]
    obtain ⟨h1, h2, h3⟩ := rowAfter_effect hl.1.1.1 p row alt ld hp
    have honly : (Act.seq (rowBefore s p row) (rowAfter s p row alt ld)).Only
        (.regs [Reg.ENG.ISSUE_CYC_LO p, Reg.ENG.ISSUE_CYC_HI p, Reg.ENG.CHK_ROW p, Reg.ENG.CHK_PERM p, Reg.ENG.ENG_STATE p, Reg.ENG.DUMMY_CYC p]) :=
      ⟨(only_rowBefore s p row).weaken (fun r hr => by
          rcases (by simpa [Scope.regs] using hr : r = Reg.ENG.ISSUE_CYC_LO p ∨ r = Reg.ENG.ISSUE_CYC_HI p) with rfl | rfl <;> simp) fun _ h => h,
        (only_rowAfter s p row alt ld).weaken (fun r hr => List.mem_cons_of_mem _ (List.mem_cons_of_mem _ hr)) fun _ h => h⟩
    refine ⟨rowIssue_counts hl.1.1.1 p row alt ld, fun hmiss => rowAfter_pass hp hmiss, h1, ?_, h2, h3, honly.frame s⟩
    rintro g b j l d rfl hlog hl' hd hc hnew
    have hhalf : (ld.c == 4) = false := by simpa using hc
    exact (h1 (by rw [hhalf]; exact rowMismatch_single hlog hl' hd) hnew).1
  · refine ⟨_, command_eq hl.2, ?_⟩
    rw [tileEnd_good_run hld hact hload hfails hrows hmiss]
    exact tileGood_effect p ld.tiles hp
  · refine ⟨_, command_eq hl.2, ?_⟩
    rw [tileEnd_miss_run hld hact hload hfails hrows hmiss]
    exact tileMiss_effect hl.1.1.1 p hcmd hc hmax hsplit

end Sys2Proof.Machine

/-! ## Proofs: what settling a state cannot do

Whatever settling a state runs, it marks no word as poisoned, admits no command, and takes none of the commands there back to
`admitted`: a command it leaves keeps its number and its descriptor. So a state that misses a command, or has one that is past
its admission, still does once it is settled. -/

namespace Sys2Proof.Machine

-- One theorem after the other: elaborated side by side, they hold more threads than the memory limit of a check allows.
set_option Elab.async false

/-! ### How the list of commands may change -/

/-- Of a list of commands, all those of some numbers may go; each other has a successor of its number and descriptor, which is
`admitted` only when it was. -/
structure CmdsFollow (l m : List Cmd) : Prop where
  ids  : ∀ y ∈ m, ∃ x ∈ l, x.id = y.id
  stay : ∀ x ∈ l, (∀ y ∈ m, y.id ≠ x.id) ∨ ∃ y ∈ m, y.id = x.id ∧ y.desc = x.desc ∧ (y.phase = .admitted → x.phase = .admitted)

@[simp] theorem cmdsFollow_refl (l : List Cmd) : CmdsFollow l l := ⟨fun y hy => ⟨y, hy, rfl⟩, fun x hx => .inr ⟨x, hx, rfl, rfl, fun h => h⟩⟩

theorem CmdsFollow.trans {l m n : List Cmd} (h : CmdsFollow l m) (k : CmdsFollow m n) : CmdsFollow l n := by
  refine ⟨fun z hz => ?_, fun x hx => ?_⟩
  · obtain ⟨y, hy, hyz⟩ := k.ids z hz
    obtain ⟨x, hx, hxy⟩ := h.ids y hy
    exact ⟨x, hx, hxy.trans hyz⟩
  · rcases h.stay x hx with hgone | ⟨y, hy, hid, hdesc, hphase⟩
    · refine .inl fun z hz hzx => ?_
      obtain ⟨y, hy, hyz⟩ := k.ids z hz
      exact hgone y hy (hyz.trans hzx)
    · rw [← hid]
      rcases k.stay y hy with hgone | ⟨z, hz, hid', hdesc', hphase'⟩
      · exact .inl hgone
      · exact .inr ⟨z, hz, hid', hdesc'.trans hdesc, fun h => hphase (hphase' h)⟩

@[simp] theorem cmdsFollow_nil (l : List Cmd) : CmdsFollow l [] := ⟨fun _ h => absurd h List.not_mem_nil, fun _ _ => .inl fun _ h => absurd h List.not_mem_nil⟩

theorem cmdsFollow_map {g : Cmd → Cmd} (hid : ∀ c, (g c).id = c.id) (hdesc : ∀ c, (g c).desc = c.desc)
    (hphase : ∀ c, (g c).phase = .admitted → c.phase = .admitted) (l : List Cmd) : CmdsFollow l (l.map g) := by
  refine ⟨fun y hy => ?_, fun x hx => .inr ⟨g x, List.mem_map_of_mem hx, hid x, hdesc x, hphase x⟩⟩
  obtain ⟨x, hx, rfl⟩ := List.mem_map.1 hy
  exact ⟨x, hx, (hid x).symm⟩

/-- The commands of one number go. -/
theorem cmdsFollow_drop (id : Nat) (l : List Cmd) : CmdsFollow l (l.filter fun c => c.id != id) := by
  refine ⟨fun y hy => ⟨y, (List.mem_filter.1 hy).1, rfl⟩, fun x hx => ?_⟩
  by_cases h : x.id = id
  · exact .inl fun y hy hyx => absurd (List.mem_filter.1 hy).2 (by simp [hyx, h])
  · exact .inr ⟨x, List.mem_filter.2 ⟨hx, by simpa using h⟩, rfl, rfl, fun h => h⟩

/-! ### The scope -/

/-- What settling may change: everything, but the list of commands follows the one before, and no word is marked as poisoned. -/
def Scope.settling : Scope :=
  { reg := fun _ => True, reset := True, hw := fun f => ∀ h, CmdsFollow h.disp.cmds (f h).disp.cmds, mem := True, es := True, tsc := True, out := True }

@[simp] theorem settling_reg (r : RegRef) : Scope.settling.reg r := trivial
@[simp] theorem settling_regReset : Scope.settling.reset := trivial
@[simp] theorem settling_mem : Scope.settling.mem := trivial
@[simp] theorem settling_es : Scope.settling.es := trivial
@[simp] theorem settling_tsc : Scope.settling.tsc := trivial
@[simp] theorem settling_out : Scope.settling.out := trivial
@[simp] theorem settling_hw (f : Hw → Hw) : Scope.settling.hw f ↔ ∀ h, CmdsFollow h.disp.cmds (f h).disp.cmds := .rfl

@[simp] theorem settling_edge (e : BitVec 1024) : Scope.settling.hw (Hw.setEdge e) := fun h => cmdsFollow_refl h.disp.cmds

@[simp] theorem settling_cmd (id : Nat) {f : Cmd → Cmd} (hid : ∀ c, (f c).id = c.id) (hdesc : ∀ c, (f c).desc = c.desc)
    (hphase : ∀ c, (f c).phase = .admitted → c.phase = .admitted) : (Act.cmd id f).Only .settling := fun h =>
  cmdsFollow_map (fun c => by split <;> simp [hid]) (fun c => by split <;> simp [hdesc]) (fun c => by split <;> simp_all) h.disp.cmds

@[simp] theorem settling_withCmd {id : Nat} {k : Cmd → Act} (h : ∀ c, (k c).Only .settling) : (Act.withCmd id k).Only .settling :=
  only_withCmd fun _ c _ => h c

@[simp] theorem settling_withItem {id : BitVec 48} {k : MonItem → Act} (h : ∀ x, (k x).Only .settling) : (Act.withItem id k).Only .settling :=
  fun s => by dsimp only; split <;> simp [h]

/-! ### Each program that settling runs

The rules stand in the order in which the programs call each other. One whose text is a list of changes and of programs with a rule
follows from these; what a rule says beside that is the case split of a `match`, or the induction of a program that recurs. -/

@[simp] theorem settling_darn (f : DarnSt → DarnSt) : (Act.darn f).Only .settling := by simp [Act.darn]
@[simp] theorem settling_seqFlags (q : Nat) (f : Byte → Byte) : (Act.seqFlags q f).Only .settling := by simp [Act.seqFlags]
@[simp] theorem settling_seqUnlock (q : Nat) : (Act.seqUnlock q).Only .settling := by simp [Act.seqUnlock]
@[simp] theorem settling_boundaryUnlock (c : Nat) : (boundaryUnlock c).Only .settling := by simp [boundaryUnlock]
@[simp] theorem settling_boot (f : BootSt → BootSt) : (Act.boot f).Only .settling := by simp [Act.boot]
@[simp] theorem settling_latch (srcs : List Nat) : (Act.latch srcs).Only .settling := by simp [Act.latch]
@[simp] theorem settling_setIrq (b : Blk) (i : Nat) (pend mask : Word) : (Act.setIrq b i pend mask).Only .settling := by simp [Act.setIrq]
@[simp] theorem settling_raise (b : Blk) (i k : Nat) : (Act.raise b i k).Only .settling := by simp [Act.raise]
@[simp] theorem settling_aonRaise (k : Nat) : (aonRaise k).Only .settling := by simp [aonRaise]
@[simp] theorem settling_phaseCounts : phaseCounts.Only .settling := by simp [phaseCounts]
@[simp] theorem settling_applyMap : applyMap.Only .settling := by
  simp only [applyMap, only_get, only_all_cons, only_all_nil, only_each, only_when, only_seq]
  refine fun s => ⟨by simp, by simp, fun x _ _ => ?_, fun x _ => ⟨by simp, fun _ => ?_⟩, by simp, by simp, by simp, trivial⟩ <;> split <;> simp
@[simp] theorem settling_capEvent (k : Nat) : (capEvent k).Only .settling := by simp [capEvent]
@[simp] theorem settling_countSpares : countSpares.Only .settling := by simp [countSpares]
@[simp] theorem settling_darnRaise (k : Nat) : (darnRaise k).Only .settling := by simp [darnRaise]
@[simp] theorem settling_setStage (v : Nat) : (setStage v).Only .settling := by simp [setStage]
@[simp] theorem settling_enterRecovery : enterRecovery.Only .settling := by simp [enterRecovery]
@[simp] theorem settling_pin (f : PinSt → PinSt) : (Act.pin f).Only .settling := by simp [Act.pin]
@[simp] theorem settling_pinsBack : pinsBack.Only .settling := by simp [pinsBack]
@[simp] theorem settling_pwrRaise (k : Nat) : (pwrRaise k).Only .settling := by simp [pwrRaise]
@[simp] theorem settling_selectMap : selectMap.Only .settling := by simp [selectMap]
@[simp] theorem settling_setReady (b : Blk) (i : Nat) (on : Bool) : (setReady b i on).Only .settling := by simp [setReady]
@[simp] theorem settling_pwr (f : PwrSt → PwrSt) : (Act.pwr f).Only .settling := by simp [Act.pwr]
@[simp] theorem settling_setTarget (t : Nat) : (setTarget t).Only .settling := by simp [setTarget]
@[simp] theorem settling_bootStart : bootStart.Only .settling := by simp [bootStart]
@[simp] theorem settling_bootIfReady : bootIfReady.Only .settling := by simp [bootIfReady]
@[simp] theorem settling_darnLog (op : DarnOp) (outcome toUnit : Nat) : (darnLog op outcome toUnit).Only .settling := by simp [darnLog]
@[simp] theorem settling_darnInterrupt : darnInterrupt.Only .settling := fun s => by
  refine ⟨?_, by simp⟩
  split <;> simp
@[simp] theorem settling_hal (f : HalSt → HalSt) : (Act.hal f).Only .settling := by simp [Act.hal]
@[simp] theorem settling_halPageReset : halPageReset.Only .settling := by simp [halPageReset]
@[simp] theorem settling_loseHw : loseHw.Only .settling := by simp [loseHw]
@[simp] theorem settling_loseMem (kept : Bool) : (loseMem kept).Only .settling := by simp [loseMem]
@[simp] theorem settling_loseRegs (keeps : Blk → Bool) (l : List (RegRef × Word)) : (loseRegs keeps l).Only .settling := by simp [loseRegs]
@[simp] theorem settling_drivePin (name : String) (old new : Bool) : (drivePin name old new).Only .settling := by simp [drivePin]
@[simp] theorem settling_outputsLow : outputsLow.Only .settling := by simp [outputsLow]
@[simp] theorem settling_letGo (b : Nat) : (letGo b).Only .settling := by simp [letGo]
@[simp] theorem settling_pinsHiz (first : Nat) : (pinsHiz first).Only .settling := by simp [pinsHiz]
@[simp] theorem settling_followEnd : followEnd.Only .settling := by simp [followEnd]
@[simp] theorem settling_standAlone : standAlone.Only .settling := by simp [standAlone]
@[simp] theorem settling_mainReset (cause : Nat) : (mainReset cause).Only .settling := by simp [mainReset]
@[simp] theorem settling_coreUpAct : coreUpAct.Only .settling := by simp [coreUpAct]
@[simp] theorem settling_darnQueue (op : DarnOp) : (darnQueue op).Only .settling := by simp [darnQueue]
@[simp] theorem settling_darnRequest (op : DarnOp) : (darnRequest op).Only .settling := fun s => by
  dsimp only
  split
  · simp
  · split
    · simp
    · split <;> simp
@[simp] theorem settling_mot (f : MotSt → MotSt) : (Act.mot f).Only .settling := by simp [Act.mot]
@[simp] theorem settling_tsn (t : Nat) (f : TsnSt → TsnSt) : (Act.tsn t f).Only .settling := by simp [Act.tsn]
@[simp] theorem settling_event (e : Event) : (Act.event e).Only .settling := by simp [Act.event]
@[simp] theorem settling_frameLeaves (t : Nat) (f : TxFrame) : (frameLeaves t f).Only .settling := by simp [frameLeaves]
@[simp] theorem settling_portSend (t : Nat) (f : TxFrame) : (portSend t f).Only .settling := by simp [portSend]
@[simp] theorem settling_ceuSend (i kind mflags : Nat) (u : DUnit) (pcp : Option Nat) (ports : List Nat) :
    (ceuSend i kind mflags u pcp ports).Only .settling := by
  simp [ceuSend]
@[simp] theorem settling_refuseLong : refuseLong.Only .settling := by simp [refuseLong]
@[simp] theorem settling_decisionFrame (t tc : Nat) (u : DUnit) : (decisionFrame t tc u).Only .settling := by simp [decisionFrame]
@[simp] theorem settling_halItemClose (p : Nat) (id : BitVec 48) (stamp : Nat) : (halItemClose p id stamp).Only .settling := by simp [halItemClose]
@[simp] theorem settling_halItemOpen (p : Nat) (id : BitVec 48) (stamp : Nat) : (halItemOpen p id stamp).Only .settling := by simp [halItemOpen]
@[simp] theorem settling_seqFld (q off k v : Nat) : (Act.seqFld q off k v).Only .settling := by simp [Act.seqFld]
@[simp] theorem settling_seqGen (q : Nat) : (Act.seqGen q).Only .settling := by simp [Act.seqGen]
@[simp] theorem settling_pte (r : SeqRec) (i v : Nat) : (Act.pte r i v).Only .settling := by simp [Act.pte]
@[simp] theorem settling_freeFrame (f : Nat) : (freeFrame f).Only .settling := by simp [freeFrame]
@[simp] theorem settling_kv (f : KvSt → KvSt) : (Act.kv f).Only .settling := by simp [Act.kv]
@[simp] theorem settling_labDrop (p : LabEntry → Bool) : (labDrop p).Only .settling := by simp [labDrop]
@[simp] theorem settling_freePage (q i v : Nat) : (freePage q i v).Only .settling := by simp [freePage]
@[simp] theorem settling_kvRaise (w k : Nat) : (kvRaise w k).Only .settling := by simp [kvRaise]
@[simp] theorem settling_dropSeq (w q full : Nat) : (dropSeq w q full).Only .settling := by simp [dropSeq]
@[simp] theorem settling_headFallback (d : Nat) : (headFallback d).Only .settling := by simp [headFallback]
@[simp] theorem settling_link (f : LinkSt → LinkSt) : (Act.link f).Only .settling := by simp [Act.link]
@[simp] theorem settling_port (k : Nat) (f : PortSt → PortSt) : (Act.port k f).Only .settling := by simp [Act.port]
@[simp] theorem settling_sendOn (k : Nat) (o : Out) : (sendOn k o).Only .settling := by simp [sendOn]
@[simp] theorem settling_sendOut (o : Out) : (sendOut o).Only .settling := fun s => by
  dsimp only
  split <;> simp
@[simp] theorem settling_sendSweep (kind : String) (i : Nat) (id : BitVec 48) (stamp : Nat) : (sendSweep kind i id stamp).Only .settling := by
  simp [sendSweep]
@[simp] theorem settling_monClose (p : Nat) (id : BitVec 48) : (monClose p id).Only .settling := fun s => by
  generalize s.monItem id = m
  dsimp only
  split <;> simp
@[simp] theorem settling_mon (id : BitVec 48) (f : MonItem → MonItem) : (Act.mon id f).Only .settling := by simp [Act.mon]
@[simp] theorem settling_dispRaise (k : Nat) : (dispRaise k).Only .settling := by simp [dispRaise]
@[simp] theorem settling_ctx (c : Nat) (f : CtxSt → CtxSt) : (Act.ctx c f).Only .settling := by simp [Act.ctx]
@[simp] theorem settling_chargeVt (c t : Nat) : (chargeVt c t).Only .settling := by simp [chargeVt]
@[simp] theorem settling_chargeEngines (c : Cmd) (es : List Nat) (who : Payer) : (chargeEngines c es who).Only .settling := fun s => by
  cases who with
  | own => simp
  | nobody => simp
  | preemptor =>
    refine ⟨?_, by simp⟩
    split <;> simp
@[simp] theorem settling_chargeRun (c : Cmd) (who : Payer) : (chargeRun c who).Only .settling := by simp [chargeRun]
@[simp] theorem settling_stream (n : Nat) (f : StreamSt → StreamSt) : (Act.stream n f).Only .settling := by simp [Act.stream]
@[simp] theorem settling_freeSlot (n i : Nat) : (Act.freeSlot n i).Only .settling := by simp [Act.freeSlot]
@[simp] theorem settling_freeInput (slot : Option (Nat × Nat)) : (freeInput slot).Only .settling := by
  unfold freeInput
  split <;> simp
@[simp] theorem settling_c2Refuse : Act.c2Refuse.Only .settling := by simp [Act.c2Refuse]
@[simp] theorem settling_ringMove (isWrite : Bool) (a n : Nat) : (ringMove isWrite a n).Only .settling := by simp [ringMove]
@[simp] theorem settling_guarded (cls a : Nat) (l : List Byte) : (Act.guarded cls a l).Only .settling := by simp [Act.guarded]
@[simp] theorem settling_publish (n : Nat) (u : DUnit) : (Act.publish n u).Only .settling := by simp [Act.publish]
@[simp] theorem settling_publishAll (l : List StagedUnit) : (publishAll l).Only .settling := by simp [publishAll]
@[simp] theorem settling_gath (f : GathSt → GathSt) : (Act.gath f).Only .settling := by simp [Act.gath]
@[simp] theorem settling_completionEvent (f v : Nat) : (Act.completionEvent f v).Only .settling := by simp [Act.completionEvent]
@[simp] theorem settling_writeEntry (c : Nat) (e : CqEntry) : (writeEntry c e).Only .settling := by simp [writeEntry]
@[simp] theorem settling_drainWaiting (c : Nat) (n0 : Nat) : (drainWaiting c n0).Only .settling := by
  induction n0 with
  | zero => trivial
  | succ k ih =>
    intro s
    dsimp only
    split <;> simp [ih]
@[simp] theorem settling_drainCtx (c : Nat) : (drainCtx c).Only .settling := by simp [drainCtx]
@[simp] theorem settling_dropCmd (id : Nat) : (dropCmd id).Only .settling := fun h => cmdsFollow_drop id h.disp.cmds
@[simp] theorem settling_accrue : accrue.Only .settling := by simp [accrue]
@[simp] theorem settling_closeWait (c : Cmd) : (closeWait c).Only .settling := fun s => by
  dsimp only
  split <;> simp
@[simp] theorem settling_fce (i : Nat) (f : FceSt → FceSt) : (Act.fce i f).Only .settling := by simp [Act.fce]
@[simp] theorem settling_releaseBlocks (id : Nat) : (releaseBlocks id).Only .settling := by simp [releaseBlocks]
@[simp] theorem settling_eng (p : Nat) (f : EngSt → EngSt) : (Act.eng p f).Only .settling := by simp [Act.eng]
@[simp] theorem settling_setEngState (p v : Nat) : (setEngState p v).Only .settling := by simp [setEngState]
@[simp] theorem settling_releaseEng (p : Nat) : (releaseEng p).Only .settling := by simp [releaseEng]
@[simp] theorem settling_releaseAll (c : Cmd) : (releaseAll c).Only .settling := by simp [releaseAll]
@[simp] theorem settling_ctxState (c v : Nat) : (Act.ctxState c v).Only .settling := by simp [Act.ctxState]
@[simp] theorem settling_stopCheck (c : Nat) : (stopCheck c).Only .settling := by simp [stopCheck]
@[simp] theorem settling_endCmdWith (id status detail part : Nat) (units : State → Cmd → List StagedUnit) (who : Payer) :
    (endCmdWith id status detail part units who).Only .settling := by
  simp [endCmdWith]
@[simp] theorem settling_endCmd (id status detail part : Nat) (emit : Bool) (who : Payer) :
    (endCmd id status detail part emit who).Only .settling := by
  simp [endCmd]
@[simp] theorem settling_endRequest (id status detail part : Nat) (emit : Bool) (who : Payer) :
    (endRequest id status detail part emit who).Only .settling := by
  simp [endRequest]
@[simp] theorem settling_monAbortCmd (cid : Nat) : (monAbortCmd cid).Only .settling := by simp [monAbortCmd]
@[simp] theorem settling_decide_ (x : MonItem) : (decide_ x).Only .settling := by simp [decide_]
@[simp] theorem settling_emitRecord (x : MonItem) (r : DecisionRecord) (flags : BitVec 16) (ceu : Bool) :
    (emitRecord x r flags ceu).Only .settling := by
  simp [emitRecord]
@[simp] theorem settling_decision (x : MonItem) (r : DecisionRecord) (flags : BitVec 16) : (decision x r flags).Only .settling := by simp [decision]
@[simp] theorem settling_reject (id : BitVec 48) (reason : Nat) (lost : Option Nat) : (reject id reason lost).Only .settling := by simp [reject]
@[simp] theorem settling_followItem (i : Nat) (id : BitVec 48) (stamp : Nat) (fixed : Bool) (cls : Nat) (streams : List (Nat × Bool)) :
    (followItem i id stamp fixed cls streams).Only .settling := by
  simp [followItem]
@[simp] theorem settling_monOpen (p : Nat) (id : BitVec 48) (stamp : Nat) : (monOpen p id stamp).Only .settling := fun s => by
  dsimp only
  split
  · simp
  · split
    · simp
    · split <;> simp
@[simp] theorem settling_abortItem (id : BitVec 48) (pick : Cmd → Bool) : (abortItem id pick).Only .settling := by simp [abortItem]
@[simp] theorem settling_cap (f : CapSt → CapSt) : (Act.cap f).Only .settling := by simp [Act.cap]
@[simp] theorem settling_path (p : Nat) (f : PathSt → PathSt) : (Act.path p f).Only .settling := by simp [Act.path]
@[simp] theorem settling_endItems (p : Nat) : (endItems p).Only .settling := by simp [endItems]
@[simp] theorem settling_abortPath (p : Nat) (which : PathItem → Bool) : (abortPath p which).Only .settling := by simp [abortPath]
@[simp] theorem settling_abortOn (p : Nat) (which : PathItem → Bool) : (abortOn p which).Only .settling := by simp [abortOn]
@[simp] theorem settling_breakRecord (x : MonItem) (d : Nat) : (breakRecord x d).Only .settling := by simp [breakRecord]
@[simp] theorem settling_breakFollower (x : MonItem) (d : Nat) : (breakFollower x d).Only .settling := by simp [breakFollower]
@[simp] theorem settling_deadlineReject (id : BitVec 48) : (deadlineReject id).Only .settling := by simp [deadlineReject]
@[simp] theorem settling_mergeCands (id : BitVec 48) : (mergeCands id).Only .settling := settling_withItem fun x => by
  rw [only_fresh]
  intro r s
  dsimp only
  split <;> simp
@[simp] theorem settling_tEmitAct (id : BitVec 48) : (tEmitAct id).Only .settling := by simp [tEmitAct]
@[simp] theorem settling_breakOpener (x : MonItem) (d : Nat) : (breakOpener x d).Only .settling := by simp [breakOpener]
@[simp] theorem settling_monRouteLost (d : Nat) : (monRouteLost d).Only .settling := by simp [monRouteLost]
@[simp] theorem settling_monUnit (n : Nat) (u : DUnit) : (monUnit n u).Only .settling := by simp [monUnit]
@[simp] theorem settling_attnEnded (c : Cmd) (committed : Bool) : (attnEnded c committed).Only .settling := fun s => by
  refine ⟨by simp, by simp, (only_each _ _).2 fun x _ => ?_, trivial⟩
  split <;> simp
@[simp] theorem settling_counterAdd (c : Cmd) : (counterAdd c).Only .settling := by simp [counterAdd]
@[simp] theorem settling_headroom (c : Cmd) : (headroom c).Only .settling := by simp [headroom]
@[simp] theorem settling_keepSwatch (c : Cmd) (committed : Bool) : (keepSwatch c committed).Only .settling := by
  simp only [keepSwatch, only_when, only_ite]
  refine fun _ => ⟨fun _ => by simp, fun _ => ?_⟩
  split <;> simp
@[simp] theorem settling_catchUp (c : Nat) : (catchUp c).Only .settling := fun s => by
  rw [only_when]
  intro
  split <;> simp
@[simp] theorem settling_settle (id : Nat) : (settle id).Only .settling := by simp [settle]
@[simp] theorem settling_switchItem (id : BitVec 48) : (switchItem id).Only .settling := by simp [switchItem]
@[simp] theorem settling_declinedAfter (c : Cmd) (id : BitVec 48) : (declinedAfter c id).Only .settling := by simp [declinedAfter]
@[simp] theorem settling_declinedReject (c : Cmd) (x : MonItem) : (declinedReject c x).Only .settling := fun s => by
  dsimp only
  split <;> simp
@[simp] theorem settling_declinedBefore (c : Cmd) (id : BitVec 48) : (declinedBefore c id).Only .settling := settling_withItem fun x s => by
  rw [only_when]
  intro
  split <;> simp
@[simp] theorem settling_projectStage (id : BitVec 48) (i : Nat) : (projectStage id i).Only .settling := by simp [projectStage]
@[simp] theorem settling_mergeIfAll (id : BitVec 48) : (mergeIfAll id).Only .settling := by simp [mergeIfAll]
@[simp] theorem settling_acceptHeld (id : BitVec 48) : (acceptHeld id).Only .settling := settling_withItem fun x s => by
  dsimp only
  split <;> simp
@[simp] theorem settling_recordCommitted (u : DUnit) : (recordCommitted u).Only .settling := by simp [recordCommitted]
@[simp] theorem settling_unitCommitted (c : Cmd) (u : DUnit) : (unitCommitted c u).Only .settling := by simp [unitCommitted]
@[simp] theorem settling_monCommitted (c : Cmd) : (monCommitted c).Only .settling := by simp [monCommitted]
@[simp] theorem settling_monFailed (c : Cmd) (status : Nat) : (monFailed c status).Only .settling := by
  unfold monFailed
  split <;> simp
@[simp] theorem settling_txt (f : TxtSt → TxtSt) : (Act.txt f).Only .settling := by simp [Act.txt]
@[simp] theorem settling_txtCmdGone (id : Nat) : (txtCmdGone id).Only .settling := by simp [txtCmdGone]
@[simp] theorem settling_onEnded (c : Cmd) (status : Nat) (committed : Bool) : (onEnded c status committed).Only .settling := by simp [onEnded]
@[simp] theorem settling_pathPublish (p : Nat) (u : DUnit) : (pathPublish p u).Only .settling := by simp [pathPublish]
@[simp] theorem settling_deliverUnit (p : Nat) (x : PathItem) (flags : List Nat) (lines : List OutLine) :
    (deliverUnit p x flags lines).Only .settling := by
  simp [deliverUnit]
@[simp] theorem settling_showLines (p : Nat) : (showLines p).Only .settling := by simp [showLines]
@[simp] theorem settling_deliverDue (p : Nat) (x : PathItem) (d : Due) : (deliverDue p x d).Only .settling := by simp [deliverDue]
@[simp] theorem settling_bandDeliverAct (p : Nat) : (bandDeliverAct p).Only .settling := fun s => by
  dsimp only
  split
  case h_1 tag t _ =>
    cases tag <;> simp
  case h_2 =>
    split
    · simp
    · split <;> simp
@[simp] theorem settling_publishImported (n : Nat) (u : DUnit) : (publishImported n u).Only .settling := by simp [publishImported]
@[simp] theorem settling_drainImports (n : Nat) (n0 : Nat) : (drainImports n n0).Only .settling := by
  induction n0 with
  | zero => trivial
  | succ k ih =>
    intro s
    dsimp only
    split <;> simp [ih]
@[simp] theorem settling_drainMotion (n : Nat) (n0 : Nat) : (drainMotion n n0).Only .settling := by
  induction n0 with
  | zero => trivial
  | succ k ih =>
    intro s
    dsimp only
    split <;> simp [ih]
@[simp] theorem settling_onSlotFree (n : Nat) : (onSlotFree n).Only .settling := by simp [onSlotFree]
@[simp] theorem settling_loop (l : Nat) (f : LoopSt → LoopSt) : (Act.loop l f).Only .settling := by simp [Act.loop]
@[simp] theorem settling_ceuRaise (k : Nat) : (ceuRaise k).Only .settling := by simp [ceuRaise]
@[simp] theorem settling_loopToSafe (l : Nat) : (loopToSafe l).Only .settling := by simp [loopToSafe]
@[simp] theorem settling_supFailure (l k : Nat) : (supFailure l k).Only .settling := by simp [supFailure]
@[simp] theorem settling_ceuUnit (n : Nat) : (ceuUnit n).Only .settling := by simp [ceuUnit]
@[simp] theorem settling_rxErrs (b : Blk) (i : Nat) (x : RxResult) : (Act.rxErrs b i x).Only .settling := by simp [Act.rxErrs]
@[simp] theorem settling_receive {b : Blk} {i : Nat} {u : DUnit} {cls : Nat} {k : List DUnit → Act} (h : ∀ l, (k l).Only .settling) :
    (Act.receive b i u cls k).Only .settling := by
  simp [Act.receive, h]
@[simp] theorem settling_receiveNext (n : Nat) (n0 : Nat) : (receiveNext n n0).Only .settling := by
  induction n0 with
  | zero => trivial
  | succ k ih =>
    intro s
    rw [only_when]
    refine fun _ => ⟨by simp, settling_receive fun l => ?_⟩
    split <;> simp [ih]
@[simp] theorem settling_takeInput (id : Nat) : (takeInput id).Only .settling := settling_withCmd fun c s => by
  dsimp only
  split
  · simp
  · simp only [only_when, only_seq]
    refine fun _ => ⟨by simp, fun t => ?_⟩
    dsimp only
    split <;> simp
@[simp] theorem settling_feedStream (n : Nat) : (feedStream n).Only .settling := fun s => by
  dsimp only
  split <;> simp
@[simp] theorem settling_forwardUnit (n : Nat) (u : DUnit) : (forwardUnit n u).Only .settling := by simp [forwardUnit]
@[simp] theorem settling_safe (f : SafeSt → SafeSt) : (Act.safe f).Only .settling := by simp [Act.safe]
@[simp] theorem settling_cmpRaise (k : Nat) : (cmpRaise k).Only .settling := by simp [cmpRaise]
@[simp] theorem settling_invalidateCmds (p : Cmd → Bool) : (invalidateCmds p).Only .settling := fun h =>
  cmdsFollow_map (fun c => by split <;> rfl) (fun c => by split <;> rfl) (fun c => by split <;> exact fun h => h) h.disp.cmds
@[simp] theorem settling_invalidateStream (n : Nat) : (invalidateStream n).Only .settling := by simp [invalidateStream]
@[simp] theorem settling_safeRaise (k : Nat) : (safeRaise k).Only .settling := by simp [safeRaise]
@[simp] theorem settling_setSafeState (v : Nat) : (setSafeState v).Only .settling := by simp [setSafeState]
@[simp] theorem settling_enterSafe : enterSafe.Only .settling := by simp [enterSafe]
@[simp] theorem settling_recordFault (code hi lo t : Nat) : (recordFault code hi lo t).Only .settling := by simp [recordFault]
@[simp] theorem settling_commonFaultAt (code t : Nat) : (commonFaultAt code t).Only .settling := by simp [commonFaultAt]
@[simp] theorem settling_commonFault (code : Nat) : (commonFault code).Only .settling := by simp [commonFault]
@[simp] theorem settling_emitSafe {n source stamp : Nat} {item : BitVec 48} {flags : BitVec 16} {payload : List Byte} {k : DUnit → Act}
    (h : ∀ u, (k u).Only .settling) : (emitSafe n source stamp item flags payload k).Only .settling := by
  simp [emitSafe, h]
@[simp] theorem settling_routeMark : routeMark.Only .settling := by simp [routeMark]
@[simp] theorem settling_handOver (u : DUnit) : (handOver u).Only .settling := by simp [handOver]
@[simp] theorem settling_statusUnit (stamp : Nat) (item : BitVec 48) (flags : BitVec 16) : (statusUnit stamp item flags).Only .settling := by
  simp [statusUnit]
@[simp] theorem settling_notify (old : Word) : (notify old).Only .settling := by simp [notify]
@[simp] theorem settling_maxReg (r : RegRef) (n : Nat) : (Act.maxReg r n).Only .settling := by simp [Act.maxReg]
@[simp] theorem settling_recalc : recalc.Only .settling := by simp [recalc]
@[simp] theorem settling_safely {a : Act} (h : a.Only .settling) : (safely a).Only .settling := by
  simp [safely, h]
@[simp] theorem settling_frozenInput (n : Nat) (u : DUnit) : (frozenInput n u).Only .settling := by simp [frozenInput]
@[simp] theorem settling_wd (w : Nat) (f : WdSt → WdSt) : (Act.wd w f).Only .settling := by simp [Act.wd]
@[simp] theorem settling_channelFaultAt (chB : Bool) (code t : Nat) : (channelFaultAt chB code t).Only .settling := by simp [channelFaultAt]
@[simp] theorem settling_wdExpire (w : Nat) (late : Bool) (t : Nat) : (wdExpire w late t).Only .settling := fun s => by
  refine ⟨by simp, by simp, by simp, by simp, (only_when _ _).2 fun _ => ?_, trivial⟩
  split <;> simp
@[simp] theorem settling_wdJudge (w : Nat) (seq : Option Nat) : (wdJudge w seq).Only .settling := by simp [wdJudge]
@[simp] theorem settling_wdLate (w d : Nat) : (wdLate w d).Only .settling := by simp [wdLate]
@[simp] theorem settling_wdKick (w : Nat) (seq : Option Nat) : (wdKick w seq).Only .settling := by simp [wdKick]
@[simp] theorem settling_wdUnit (n : Nat) : (wdUnit n).Only .settling := by simp [wdUnit]
@[simp] theorem settling_onUnit (n : Nat) (u : DUnit) : (onUnit n u).Only .settling := by simp [onUnit]
@[simp] theorem settling_seqState (q v : Nat) : (Act.seqState q v).Only .settling := by simp [Act.seqState]
@[simp] theorem settling_orphanAll (c : Nat) : (orphanAll c).Only .settling := by simp [orphanAll]
@[simp] theorem settling_pfRecord (unwarned : Bool) : (pfRecord unwarned).Only .settling := by simp [pfRecord]
@[simp] theorem settling_safePowerFail : safePowerFail.Only .settling := by simp [safePowerFail]
@[simp] theorem settling_powerFreeze (unwarned : Bool) : (powerFreeze unwarned).Only .settling := by simp [powerFreeze]
@[simp] theorem settling_railGoneAct : railGoneAct.Only .settling := by simp [railGoneAct]
@[simp] theorem settling_routeFault : routeFault.Only .settling := by simp [routeFault]
@[simp] theorem settling_routeLostCmds (d : Nat) : (routeLostCmds d).Only .settling := by simp [routeLostCmds]
@[simp] theorem settling_rowErrAct (mem row : Nat) (hard : Bool) : (rowErrAct mem row hard).Only .settling := by simp [rowErrAct]
@[simp] theorem settling_channelFault (chB : Bool) (code : Nat) : (channelFault chB code).Only .settling := by simp [channelFault]
@[simp] theorem settling_safeCtxDown (c : Nat) : (safeCtxDown c).Only .settling := by simp [safeCtxDown]
@[simp] theorem settling_safeCtxFault (c t : Nat) : (safeCtxFault c t).Only .settling := fun s => by
  dsimp only
  split <;> simp
@[simp] theorem settling_safeEngFault (p t : Nat) : (safeEngFault p t).Only .settling := fun s => by
  dsimp only
  split <;> simp
@[simp] theorem settling_transient : transient.Only .settling := by simp [transient]
@[simp] theorem settling_safeMismatch : safeMismatch.Only .settling := by simp [safeMismatch]
@[simp] theorem settling_safePortDown (t : Nat) : (safePortDown t).Only .settling := by simp [safePortDown]
@[simp] theorem settling_safeReport (p c : Nat) : (safeReport p c).Only .settling := by simp [safeReport]
@[simp] theorem settling_safeStatusLeft (t : Nat) : (safeStatusLeft t).Only .settling := by simp [safeStatusLeft]
@[simp] theorem settling_thermalShutAct : thermalShutAct.Only .settling := by simp [thermalShutAct]
@[simp] theorem settling_txtCtxDown (c : Nat) : (txtCtxDown c).Only .settling := by simp [txtCtxDown]
@[simp] theorem settling_memc (m : Nat) (f : MemcSt → MemcSt) : (Act.memc m f).Only .settling := by simp [Act.memc]
@[simp] theorem settling_setMemcState (m v : Nat) : (setMemcState m v).Only .settling := by simp [setMemcState]
@[simp] theorem settling_setPower (b : Blk) (i v : Nat) : (setPower b i v).Only .settling := by simp [setPower]
@[simp] theorem settling_startEngines (held : BitVec 36) : (startEngines held).Only .settling := by simp [startEngines]
@[simp] theorem settling_setFceState (i v : Nat) : (setFceState i v).Only .settling := by simp [setFceState]
@[simp] theorem settling_startFces (held : BitVec 4) : (startFces held).Only .settling := by simp [startFces]
@[simp] theorem settling_wakeAct (cause : Nat) : (wakeAct cause).Only .settling := by simp [wakeAct]
@[simp] theorem settling_wakePinAct : wakePinAct.Only .settling := by simp [wakePinAct]
@[simp] theorem settling_onEvent (e : Event) : (onEvent e).Only .settling := by
  cases e <;> simp [onEvent]
@[simp] theorem settling_drainEvents (n0 : Nat) : (drainEvents n0).Only .settling := by
  induction n0 with
  | zero => trivial
  | succ k ih =>
    intro s
    dsimp only
    split <;> simp [ih]
@[simp] theorem settling_parkedCheck : parkedCheck.Only .settling := fun s => by
  rw [only_each]
  intro c _
  split
  · simp
  · split <;> simp
@[simp] theorem settling_devResult (reason : Nat) : (devResult reason).Only .settling := by simp [devResult]
@[simp] theorem settling_setCoarse (b : Bool) : (setCoarse b).Only .settling := by simp [setCoarse]
@[simp] theorem settling_enterDeep : enterDeep.Only .settling := by simp [enterDeep]
@[simp] theorem settling_enterStandby : enterStandby.Only .settling := by simp [enterStandby]
@[simp] theorem settling_sleepNow (deep linkL2 wakeNow : Bool) : (sleepNow deep linkL2 wakeNow).Only .settling := by simp [sleepNow]
@[simp] theorem settling_sleepDeferred : sleepDeferred.Only .settling := fun s => by
  dsimp only
  split <;> simp
@[simp] theorem settling_wakeBlocks : wakeBlocks.Only .settling := by simp [wakeBlocks]
@[simp] theorem settling_settleAll : settleAll.Only .settling := by simp [settleAll]

end Sys2Proof.Machine

/-! ## Proofs: admission, commit and placement fail

O27 and O29 speak of every list of commands, and so of one that holds two commands of one number; O32 excludes an error waiting to
be injected in the commons, but not one in a memory controller. What the command leaves cannot be the settled form of a state that
the statement describes, for settling takes no command back to `admitted`, brings none, and poisons no word. -/

namespace Sys2Proof.Machine

-- One theorem after the other: elaborated side by side, they hold more threads than the memory limit of a check allows.
set_option Elab.async false

theorem settled_cmds (s : State) : CmdsFollow s.hw.disp.cmds s.settled.hw.disp.cmds :=
  run_only (R := fun s t => CmdsFollow s.hw.disp.cmds t.hw.disp.cmds) (fun _ => cmdsFollow_refl _) .trans (fun u hu s => by
    cases u with
    | hw f => exact hu s.hw
    | bytes a l => rw [apply_bytes_hw]; exact cmdsFollow_refl _
    | _ => exact cmdsFollow_refl _) settling_settleAll s

theorem settled_poison (s : State) : s.settled.poison ⊆ s.poison :=
  run_only (R := fun s t => t.poison ⊆ s.poison) (fun _ _ h => h) (fun h k _ hx => h (k hx)) (fun u hu s => by
    cases u with
    | poison w => exact hu.elim
    | bytes a l =>
      intro x hx
      rw [show ((Upd.bytes a l).apply s).poison = (s.setBytes a l).poison.filter fun e => !coversWord a l.length e.1 from rfl,
        setBytes_poison] at hx
      exact (List.mem_filter.1 hx).1
    | _ => exact fun _ h => h) settling_settleAll s

/-! ### Admission (R402, R405) -/

/-- A COPY without an input stream, pin and live-map entry. -/
def plainCopy : BitVec 512 := BitVec.ofNat 512 (opCOPY + 255 * 2 ^ 24 + 255 * 2 ^ 184 + 4095 * 2 ^ 192)

/-- A device in which context 255 is RUNNING with a descriptor to admit, and the next number is that of a running command. -/
def doubleNumber : State := (Act.all
  [.boot fun b => { b with inReset := false }, .wrN Reg.DISP.DISP_CTRL 3, .mem (64 * 255) 1 2, .mem (64 * 255 + 6) 2 0x0404,
   .mem (64 * 255 + 32) 4 0xFFFFFFFF, .mem (64 * 255 + 36) 4 4, .ctx 255 (fun x => { x with tail := 1 }),
   .disp fun d => { d with nextId := 9, cmds := [{ id := 9, phase := .running }] }]).run State.reset

def admitsCopy : Act := admitAct opCOPY 255 plainCopy fun _ => .nil

theorem doubleNumber_live : doubleNumber.live := by
  unfold State.live State.sound
  decide +kernel

theorem admitsCopy_cmds : ((admitsCopy.run doubleNumber).settled.hw.disp.cmds.map fun y => (y.id, y.desc, y.phase)) =
    [(9, 0, .running), (9, plainCopy, .admitted)] := by decide +kernel

/-- Refutes O27: the number of the command admitted is that of a command that runs, which is found first and is not settled; the
command admitted stays admitted, though it names no input stream. -/
theorem not_descriptorAdmission : ¬ Obligations.DescriptorAdmission := by
  intro h
  obtain ⟨hrow, -⟩ := h doubleNumber 255 plainCopy 0 doubleNumber_live
  obtain ⟨hadmit, -, -⟩ := hrow opCOPY (.copy 255 plainCopy) (by simp)
  obtain ⟨t, hexec, -, -, hready, -⟩ := hadmit (by decide +kernel) (by decide +kernel)
  obtain ⟨⟨y, hy, hid, -, hdesc, -, hphase⟩, -⟩ := hready (by decide +kernel) (by decide +kernel) (by decide)
  have ht : (admitsCopy.run doubleNumber).settled = t.settled :=
    Host.Outcome.next.inj ((command_eq (a := admitsCopy) (s := doubleNumber) doubleNumber_live.2).symm.trans hexec)
  have hlist := ht ▸ admitsCopy_cmds
  have hnine : y.id = 9 := hid
  rcases (settled_cmds t).stay y hy with hgone | ⟨z, hz, -, hd, hp⟩
  · obtain ⟨z, hz, hkey⟩ := List.mem_map.1 (hlist ▸ List.mem_cons_self : ((9, 0, .running) : Nat × BitVec 512 × Phase) ∈ _)
    exact hgone z hz ((congrArg Prod.fst hkey).trans hnine.symm)
  · have hmem := List.mem_map_of_mem (f := fun y : Cmd => (y.id, y.desc, y.phase)) hz
    rw [hlist, hd, hdesc] at hmem
    simp only [List.mem_cons, Prod.mk.injEq, List.not_mem_nil, or_false] at hmem
    rcases hmem with ⟨-, hcopy, -⟩ | ⟨-, -, hadm⟩
    · exact absurd hcopy (by decide +kernel)
    · exact absurd (hp hadm) (by rw [hphase]; decide)

/-! ### Commit (R418, R421) -/

/-- Part of request 1 of context 255, one of two; `x`: further bits of its descriptor. -/
def partDesc (x : Nat) : BitVec 512 := BitVec.ofNat 512 (opCOPY + 2 ^ 48 + 2 ^ 60 + 4095 * 2 ^ 192 + x)

/-- The first part of the request, and the second, whose LCT is past under DL_ABORT. -/
def timelyPart : Cmd := { id := 1, ctx := 255, desc := partDesc 0, phase := .staged }
def latePart : Cmd := { id := 2, ctx := 255, desc := partDesc (2 ^ 14 + 2 ^ 224), phase := .staged }

/-- A device with the staged request, before whose second part stands a command of its number in another context. -/
def doublePart : State := (Act.all
  [.boot fun b => { b with inReset := false }, .mem (64 * 255) 1 2, .mem (64 * 255 + 6) 2 0x0404, .upd (.tsc 1000000),
   .disp fun d => { d with nextId := 9, cmds := [{ id := 2, ctx := 1 }, timelyPart, latePart] }]).run State.reset

theorem doublePart_live : doublePart.live := by
  unfold State.live State.sound
  decide +kernel

theorem doublePart_staged : doublePart.cmd 1 = some timelyPart ∧ doublePart.siblings timelyPart = [timelyPart, latePart] ∧
    doublePart.requestStaged timelyPart = true := by decide +kernel

theorem doublePart_room : (doublePart.ctx 255).waiting = [] ∧ doublePart.cqRoom 255 (doublePart.siblings timelyPart).length = true ∧
    doublePart.roomFor ((doublePart.siblings timelyPart).flatMap (·.finalOuts)) = true := by decide +kernel

theorem doublePart_commit : ((commitAct 1).run doublePart).settled.hw.disp.cmds.map (·.id) = [1] := by decide +kernel

/-- Refutes O29: the second part's number names the command of the other context first, so that that one's request ends and the first
part stays. -/
theorem not_commandCompletion : ¬ Obligations.CommandCompletion := by
  rintro ⟨-, hcommit, -⟩
  obtain ⟨hcmd, hsib, hstaged⟩ := doublePart_staged
  obtain ⟨hwait, hcq, hroom⟩ := doublePart_room
  obtain ⟨t, hexec, hgone, -⟩ := hcommit doublePart 1 timelyPart doublePart_live (by decide +kernel) hcmd hstaged hwait hcq hroom
  have ht : ((commitAct 1).run doublePart).settled = t.settled :=
    Host.Outcome.next.inj ((command_eq (a := commitAct 1) (s := doublePart) doublePart_live.2).symm.trans hexec)
  have hleft : t.settled.hw.disp.cmds.map (·.id) = [1] := ht ▸ doublePart_commit
  have hone : 1 ∈ t.settled.hw.disp.cmds.map (·.id) := hleft ▸ List.mem_cons_self
  obtain ⟨y, hy, hid⟩ := List.mem_map.1 hone
  obtain ⟨x, hx, hxy⟩ := (settled_cmds t).ids y hy
  exact hgone timelyPart (hsib ▸ List.mem_cons_self) x hx (hxy.trans hid)

/-! ### Placement (R20, R426, R617) -/

/-- A CROP whose attention block lies behind memory controller 0. -/
def dramCrop : Cmd :=
  { id := 3, ctx := 255, desc := BitVec.ofNat 512 (opCROP + 31 * 2 ^ 24 + 255 * 2 ^ 184 + 4095 * 2 ^ 192 + 2 ^ 356), phase := .ready }

/-- A device in which an uncorrectable error waits to be injected in memory controller 0, with the command ready and engine 34 idle. -/
def memcInject : State := (Act.all
  [.boot fun b => { b with inReset := false }, .wrN Reg.DISP.DISP_CTRL 3, .mem (64 * 255) 1 2, .mem (64 * 255 + 32) 4 0xFFFFFFFF,
   .mem (64 * 255 + 36) 4 4, .wrN (Reg.ENG.CTRL 34) 1, .wrN (Reg.ENG.ENG_STATE 34) 1, .wrN (Reg.MEMC.INJECT 0) 2,
   .disp fun d => { d with nextId := 9, cmds := [dramCrop] }]).run State.reset

theorem memcInject_live : memcInject.live := by
  unfold State.live State.sound
  decide +kernel

theorem memcInject_placeable : leastBy memcInject.before (memcInject.hw.disp.cmds.filter memcInject.placeable) = some dramCrop ∧
    memcInject.cmd dramCrop.id = some dramCrop := by decide +kernel

theorem memcInject_starts : memcInject.startRefused dramCrop = none ∧ memcInject.readsPoisoned dramCrop = false ∧
    (∀ k < 16, memcInject.rd (Reg.CMN.INJECT k) = 0) ∧ memcInject.enginesFor dramCrop = some [34] := by decide +kernel

theorem memcInject_poisons : memcInject.poison = [] ∧ (commandPlaceAct.run memcInject).settled.poison ≠ [] := by decide +kernel

/-- Refutes O32: what a command reads may lie behind a memory controller in which an uncorrectable error waits to be injected; the
word read is then poisoned, and the poison marks are not as before. -/
theorem not_placement : ¬ Obligations.Placement := by
  rintro ⟨hplace, -⟩
  obtain ⟨hleast, hcmd⟩ := memcInject_placeable
  obtain ⟨hstart, hsound, hinj, heng⟩ := memcInject_starts
  obtain ⟨hclean, hpoison⟩ := memcInject_poisons
  obtain ⟨hrun, -⟩ := hplace memcInject dramCrop memcInject_live (by decide +kernel) (by decide +kernel) hleast hcmd (by decide +kernel)
  obtain ⟨t, hexec, -, -, hrest⟩ := hrun [34] hstart (.inr hsound) hinj (by decide +kernel) heng (by decide +kernel)
  have ht : (commandPlaceAct.run memcInject).settled = t.settled :=
    Host.Outcome.next.inj ((command_eq (a := commandPlaceAct) (s := memcInject) memcInject_live.2).symm.trans hexec)
  have hnone : t.settled.poison ⊆ [] := (hrest.poison.trans hclean) ▸ settled_poison t
  exact hpoison ((congrArg State.poison ht).trans (List.subset_nil.1 hnone))

end Sys2Proof.Machine
